-- ==== Sys2Proof/Word.lean ====
section
/-! DEFINITION. The small types every file uses: bytes, the numbers of quires, bays, rings and bank groups, and the
little-endian reading of bytes (00_scope R8). -/

namespace Sys2Proof

abbrev Byte := BitVec 8
/-- Quire number, Q0 to Q7. -/
abbrev QNum := Fin 8
/-- Logical bay number, B0 to B7. -/
abbrev BayNum := Fin 8
/-- Submission ring number, 0 (highest priority) to 3. -/
abbrev RingNum := Fin 4
/-- Bank group number, 0 to 11 (the Q19-16 has 0 to 7 in service). -/
abbrev GroupNum := Fin 12

/-- The number a byte list holds, least significant byte first (R8). -/
def leNat : List Byte → Nat
  | [] => 0
  | b :: bs => b.toNat + 256 * leNat bs

/-- The `n` least significant bytes of a number, least significant first (R8). -/
def natLe : Nat → Nat → List Byte
  | 0, _ => []
  | n + 1, v => BitVec.ofNat 8 v :: natLe n (v / 256)

/-- Bits `[hi:lo]` of a number (R9). -/
def bits (v hi lo : Nat) : Nat := (v / 2 ^ lo) % 2 ^ (hi + 1 - lo)

/-- Bit `i` of a number (R9). -/
def bit (v i : Nat) : Bool := (v / 2 ^ i) % 2 == 1

end Sys2Proof
end

