-- ==== Sys2Proof/Syntax.lean ====
section
/-! DEFINITION. The commands of the Feolo Q19: one constructor per row of spec/opcode_table.json. The table gives
the rows no operands; the operands here are what the rule of the row reads from outside: a register value, a frame,
a dictionary argument, the facts only the environment knows (assumption log entries 5 and 6). -/

namespace Sys2Proof

/-- The role of a dictionary request (R120). -/
inductive Role where
  | hostP
  | quire (q : QNum)
  | sentinel
  | factory
  deriving DecidableEq, Repr

/-- Which engine of the device, or which role, submits a press descriptor (R600). -/
inductive PressSource where
  | translation
  | loader
  | training
  | firmware
  | host
  | factory
  | quire (q : QNum)
  deriving DecidableEq, Repr

/-- Facts a served dictionary request may need from outside the digital model: the read-back of the NV array and fresh
entropy (assumption log entry 5). -/
structure Env where
  /-- the read-back verification of a programmed image succeeds (R240, R652) -/
  readBack : Bool := true
  /-- fresh bits of the entropy source (R871, R890, R755) -/
  entropy : Nat := 0
  deriving DecidableEq, Repr

/-- What boot finds out by itself: self-test, training, class-key tags (R225, R881, R906). -/
structure BootFacts where
  /-- physical bays that fail the self-test, bits [8:0] (R230) -/
  bayFail : BitVec 9 := 0
  /-- logical planes that fail the self-test, each as (die, plane of the die) (R595) -/
  planeFail : List (Nat × Nat) := []
  /-- LPDDR5X channels that train (R906) -/
  channelOk0 : Bool := true
  channelOk1 : Bool := true
  /-- copies of parameter records whose CRC fails, by their position among the region's records (R642) -/
  badRecords : List Nat := []
  /-- stored class keys whose tag fails, bit n for sub n + 1 (R881) -/
  classKeyBad : BitVec 4 := 0
  /-- microseconds to link bring-up, BOOT_TIME (R222) -/
  bootTime : Nat := 0
  /-- a fresh debug nonce (R890) -/
  nonce : Nat := 0
  /-- highest die sensor reading in 1/65536 degrees (R847) -/
  tDie : Int := 0
  /-- the levels of PROFSEL[1:0] and BOOTSEL at the release of the reset (R210, R236) -/
  profsel : BitVec 2 := 0
  bootsel : Bool := false
  deriving DecidableEq, Repr

/-- What a slipcase load reads by DMA at its start (R736, R740). For a staged load the bytes come from the staging memory
instead. -/
structure LoadFacts where
  /-- the prefix of the slipcase as DMA delivers it (SRC_KIND 0x00) -/
  prefixBytes : List Byte := []
  deriving DecidableEq, Repr

/-- What the body of a load from host memory reads by DMA, and how long the load took. -/
structure BodyFacts where
  /-- the encrypted chunks, one after the other (SRC_KIND 0x00, R724) -/
  body : List Byte := []
  /-- milliseconds from start to completion (Q_LOAD_REPORT TIME_MS) -/
  timeMs : Nat := 0
  deriving DecidableEq, Repr

/-- How a training commit's writing ended (R783, R790, R791). -/
structure TrainFacts where
  /-- a master leaf was uncorrectable in T2 (R687), on this channel (R908) -/
  uncorr : Bool := false
  channel : Fin 2 := 0
  /-- milliseconds from start to end -/
  timeMs : Nat := 0
  deriving DecidableEq, Repr

/-- Errors a bay meets while an entry issues (R897, R898, R901). -/
structure BayErr where
  /-- a parity error in the datapath -/
  parity : Bool := false
  /-- a T0 slot it reads holds an uncorrectable word -/
  t0Uncorr : Bool := false
  /-- the imposition cache holds an uncorrectable word at the entry -/
  cacheUncorr : Bool := false
  deriving DecidableEq, Repr

/-- What a slow tick finds beside time: a service of the firmware timer (R913), the die at or above 110 °C while the core domain is off (R910), and
uncorrectable words of the code SRAM, of the retention SRAM word of an A entry, and of the detector bank (R899), what the ECC corrected (R896) and parameter sectors that became bad (R645). -/
structure TickFacts where
  fwService : Bool := false
  dieHot : Bool := false
  codeSram : Bool := false
  /-- index and sub of the affected A entry -/
  retention : Option (BitVec 16 × Byte) := none
  detectorBank : Bool := false
  /-- words the ECC corrected since the last tick, by store or path (R896) -/
  sramCorrected : Nat := 0
  fabricCorrected : Nat := 0
  t2Corrected : Nat := 0
  /-- parameter sectors that became bad (R645) -/
  paramBad : Nat := 0
  deriving DecidableEq, Repr

/-- Errors a leaf movement meets (R687, R897, R900) and, for a T4 source, the frame DMA delivered. -/
structure MoveErr where
  /-- the source leaf is uncorrectable in T1 (R897) or, after the retry, in T2 (R687) -/
  uncorr : Bool := false
  /-- the first T2 read failed and the retry succeeded (R687) -/
  retried : Bool := false
  /-- LPDDR5X channel of a T2 error, 0 or 1 (R908) -/
  channel : Fin 2 := 0
  /-- the fabric resend failed too (R900) -/
  fabric : Bool := false
  /-- the 8,448 bytes of a frame read from T4 -/
  frame : List Byte := []
  deriving DecidableEq, Repr

/-- How a press operation ended at its units (R607, R608). -/
structure PressFacts where
  /-- the programs or erases that end verified -/
  verified : Bool := true
  /-- the first leaf a READ_RUN could not correct, if any -/
  uncorrLeaf : Option Nat := none
  /-- microseconds from acceptance to completion -/
  timeUs : Nat := 0
  /-- every chunk of an inline-decrypted program verified its tag (R608) -/
  tagOk : Bool := true
  /-- the source leaves of the pages of a program with DECRYPT that end, as the key engine decrypts them (log entry 5) -/
  plain : List Byte := []
  deriving DecidableEq, Repr

/-- The DMA read with a quire's PASID that failed (R260, R265): a ring fetch; a read of T4 for a submission entry of a
ring's slot (a COPY, a load, a binding table); the MOV_IN that a bay's slot waits for; a press READ or program. -/
inductive DmaSource where
  | ring (r : RingNum)
  | entry (r : RingNum) (slot : BitVec 12)
  | move (b : BayNum) (slot : Fin 64)
  | press
  deriving DecidableEq, Repr

/-- What a sensed row's pages gave (R583, R584, R637). -/
structure SenseFacts where
  /-- leaves of the row, 0 to 31, with an uncorrectable codeword in this sense -/
  badLeaves : List Nat := []
  /-- codewords corrected in the row -/
  corrected : Nat := 0
  /-- a codeword was corrected in more than 48 bits (R637) -/
  heavy : Bool := false
  /-- banks of the group, 0 to 7, in which the translation layer finds a logical plane failing, once per plane (R595) -/
  badBanks : List (Fin 8) := []
  deriving DecidableEq, Repr

/-- What a vendor debug access names: a library leaf, or a place that may hold a copy of one, or anything else (R574). -/
inductive DebugTarget where
  | t3 (entry : Fin 64) (leaf : Nat)
  | t0 (b : BayNum) (slot : Fin 64)
  | slice (b : BayNum) (leaf : Nat)
  | commons (leaf : Nat)
  | t2 (leaf : Nat)
  | other
  deriving DecidableEq, Repr

/-- One scan of the boundary register (R100): the bits shifted in, and the levels of the input balls captured. -/
structure BoundaryScan where
  cells : List Bool
  board : List Bool
  deriving DecidableEq, Repr

/-- The event byte of ENEC and DISEC: interrupts, hot-join (R163). -/
structure CccEvents where
  int : Bool
  hj : Bool
  deriving DecidableEq, Repr

/-- SETMWL or SETMRL on the bus: its code, broadcast or direct, and the length (R163). -/
structure CccLength where
  code : Byte
  len : BitVec 16
  deriving DecidableEq, Repr

/-- Times of a run that ends: µs of wall time since stamp 0, and the bay cycles from the last cycle the model knows of until
the last operation finished (R387, R423). -/
structure RunTimes where
  us : Nat
  tail : Nat
  deriving DecidableEq, Repr

/-- The MSI-X Message Control register: enable and function mask (R200). -/
structure MsixControl where
  enable : Bool
  funcMask : Bool
  deriving DecidableEq, Repr

/-- The Device Control register: payload and read request sizes, 128 bytes × 2^n (R248). -/
structure DeviceControl where
  mps : Fin 8
  mrrs : Fin 8
  deriving DecidableEq, Repr

/-- The commands of the block: the rows of spec/opcode_table.json, in the table's order. -/
inductive Instr where
  -- reset, balls, JTAG, clocks (02, 05)
  | powerOn (tDie : Int)
  | aonRelease
  | pgoodInFall
  | pgoodInRise
  | resetNAssert
  | resetNRelease
  | bootStart (f : BootFacts)
  | perstNAssert
  | perstNRelease
  | flr
  | testenHigh
  | tapReset
  | extest
  | clamp
  | highz
  | samplePreload (scan : BoundaryScan)
  | idcode
  | bypass (code : BitVec 6)
  | vendorDebugInstruction (code : BitVec 6) (target : DebugTarget)
  | clkinDetected
  | clkinLost
  | crystalStart
  | quickOscStop
  | vselSettleEnd (inTolerance : Bool)
  | deviceResetStart
  | mcWakeComplete (digestOk : Bool)
  -- I3C (04)
  | i3cRequestFrame (frame : List Byte) (parityErr : Bool)
  | i3cFetchFrame (frame : List Byte) (parityErr : Bool)
  | i3cPrivateRead (ready : Bool)
  | hdrDdrWriteCmd (code : Byte) (frame : List Byte) (parityErr : Bool)
  | hdrDdrReadCmd (code : Byte) (ready : Bool)
  | enec (code : Byte) (ev : CccEvents)
  | disec (code : Byte) (ev : CccEvents)
  | entas (code : Byte)
  | rstdaa
  | entdaa (addr : BitVec 7)
  | setmwl (m : CccLength)
  | setmrl (m : CccLength)
  | enthdr0
  | setdasa (addr : BitVec 7)
  | setnewda (addr : BitVec 7)
  | getmwl
  | getmrl
  | getpid
  | getbcr
  | getdcr
  | getstatus
  | getmxds
  | getcaps
  | hotJoinRequest
  | ibiSend (acked : Bool)
  | deferCompletion (env : Env)
  -- dictionary, mailboxes, BAR0 (03, 04, 05)
  | mboxGo (box : Fin 9) (v : BitVec 32)
  | registerWrite (off : BitVec 24) (data : List Byte)
  | bar0ReservedWrite (off : BitVec 24) (data : List Byte)
  | dictWrite (role : Role) (idx : BitVec 16) (sub : Byte) (val : List Byte)
  | stagedWrite (role : Role) (idx : BitVec 16) (sub : Byte) (val : List Byte)
  | commit (role : Role) (idx : BitVec 16)
  | commitValidateOnly (role : Role) (idx : BitVec 16)
  | commitDiscard (role : Role) (idx : BitVec 16)
  | commitSafePoint (idx : BitVec 16)
  | profRestore (role : Role) (p : Fin 4)
  | profileSwitch (role : Role) (arg : List Byte)
  | switchDrainEnd (drainMs : Nat)
  | switchDrainLimit (drainMs : Nat)
  | switchResume
  | deviceReset (role : Role) (arg : List Byte)
  | recoveryLoad (role : Role) (arg : List Byte) (env : Env)
  | colophonTagWrite (role : Role) (sub : Byte) (val : List Byte)
  | colophonLock (role : Role) (arg : List Byte)
  -- quire commands and power requests (06, 07, 18)
  | qEnable (role : Role) (q : QNum)
  | qDisable (role : Role) (q : QNum)
  | qDisableForce (role : Role) (q : QNum)
  | drainEnd (q : QNum)
  | qReset (role : Role) (q : QNum)
  | qDmaFault (role : Role) (q : QNum) (addr : BitVec 64)
  | qStitchConfig (role : Role) (q : QNum) (arg : List Byte)
  | pwrRequestSRet (role : Role)
  | pwrRequestSSent (role : Role)
  | wakeFromSleep
  -- press (13)
  | eraseBlock (src : PressSource) (desc : List Byte)
  | eraseSector (src : PressSource) (desc : List Byte)
  | programRun (src : PressSource) (desc : List Byte)
  | readRun (src : PressSource) (desc : List Byte)
  | otpProgram (src : PressSource) (desc : List Byte)
  | refreshMove (src : PressSource) (desc : List Byte)
  | pressOpComplete (id : Nat) (f : PressFacts)
  | pressSuspend (pair : Fin 4)
  | pressResume (pair : Fin 4)
  | fwStageData (role : Role) (val : List Byte)
  | fwUpdate (role : Role) (arg : List Byte) (env : Env)
  -- submission (06, 14, 15, 16)
  | submissionFetch (q : QNum) (entry : List Byte)
  | nop (q : QNum) (r : RingNum)
  | runImposition (q : QNum) (r : RingNum) (bindTable : List Byte)
  | loadSlipcase (q : QNum) (r : RingNum) (f : LoadFacts)
  | unload (q : QNum) (r : RingNum)
  | linkTextBlock (q : QNum) (r : RingNum)
  | alloc (q : QNum) (r : RingNum)
  | free (q : QNum) (r : RingNum)
  | migrateHint (q : QNum) (r : RingNum)
  | copy (q : QNum) (r : RingNum) (t4 : List Byte)
  | stitchSignal (q : QNum) (r : RingNum)
  | stitchWait (q : QNum) (r : RingNum)
  | fence (q : QNum) (r : RingNum)
  | trainCommit (q : QNum) (r : RingNum)
  | waitResume (q : QNum) (r : RingNum) (t4 : List Byte)
  | sqTailWrite (q : QNum) (r : RingNum) (v : BitVec 32) (aligned4 : Bool)
  | cqHeadWrite (q : QNum) (v : BitVec 32) (aligned4 : Bool)
  | stitchDb (q : QNum) (v : BitVec 32) (aligned4 : Bool)
  | grant (q : QNum) (us : Nat)
  | bayGateToOff (b : BayNum)
  | bayPllOff
  | bayRetestDone (b : BayNum) (pass : Bool)
  | dmaReadError (q : QNum) (addr : BitVec 64) (src : DmaSource)
  | stampZero (q : QNum) (run : Nat)
  -- sequencer entries (08, 09, 10, 11)
  | teBuild (b : BayNum)
  | teLookup (b : BayNum) (e : BayErr)
  | teClear (b : BayNum)
  | teRescale (b : BayNum)
  | escApply (b : BayNum)
  | lnsMul (b : BayNum)
  | lnsAdd (b : BayNum)
  | lnsReduce (b : BayNum)
  | lnsFromlin (b : BayNum)
  | lnsTolin (b : BayNum)
  | refFma (b : BayNum)
  | refCast (b : BayNum)
  | refTopk (b : BayNum)
  | convPass1 (b : BayNum)
  | convPass2 (b : BayNum)
  | convCarry (b : BayNum)
  | convStats (b : BayNum)
  | movIn (b : BayNum) (e : MoveErr)
  | movOut (b : BayNum) (e : MoveErr)
  | stream (b : BayNum)
  | waitStitch (b : BayNum)
  | signalStitch (b : BayNum)
  | fork (b : BayNum) (usSinceZero : Nat)
  | specBegin (b : BayNum)
  | specCommit (b : BayNum)
  | specCancel (b : BayNum)
  | precisionFence (b : BayNum)
  | maintSlot (b : BayNum)
  | loop (b : BayNum)
  | idle (b : BayNum)
  | endStream (b : BayNum)
  | slipEnd (q : QNum) (run : Nat) (cycles : Nat)
  | leafArrival (b : BayNum) (slot : Fin 64) (e : MoveErr)
  | stripeDelivery (g : GroupNum) (f : SenseFacts)
  | deadlineExceeded (q : QNum) (run : Nat)
  | runComplete (q : QNum) (run : Nat) (times : RunTimes) (parity : Bool)
  -- stitches, weave, windows, library (07, 12, 13, 14, 15, 16)
  | comparisonStage
  | hostWaitTimeout (q : QNum) (r : RingNum)
  | seqWaitTimeout (b : BayNum)
  | weaveSlotStart
  | refreshRemap (g : GroupNum) (lostLeaves : List (Nat × Nat))
  | scrubPass
  | apertureRead (off : BitVec 28) (len : Nat)
  | apertureWrite (off : BitVec 28) (data : List Byte)
  | bar2WindowAccess (off : BitVec 28) (write : Bool) (len : Nat) (data : List Byte)
  | bar2RingWrite (off : BitVec 28) (data : List Byte) (relaxed : Bool)
  | stagingProducedWrite (v : BitVec 32)
  | stagingTimeout
  | loadComplete (q : QNum) (e : Fin 64) (f : BodyFacts)
  | libraryRemoval (e : Fin 64)
  | libRemove (role : Role) (arg : List Byte)
  | peerAccept (role : Role) (arg : List Byte) (env : Env)
  | peerExport (role : Role) (arg : List Byte) (env : Env)
  | peerSessionExpiry (session : Nat)
  | trainSwitch (q : QNum) (f : TrainFacts)
  | tmMoveComplete (q : QNum) (leaf : Nat)
  | zeroingJobDone
  -- power, alerts, link (18, 20)
  | powerEvaluation (pEval : Nat) (tDie : Int)
  | sprintClose
  | sprintReady
  | thermBoardTempWrite (role : Role) (val : List Byte)
  | thermBoardStale
  | alertClear (role : Role) (val : List Byte)
  | aspmL1Request
  | l12Exit
  -- sentinel, watchdog, security (17, 19, 20)
  | sentArm (role : Role) (arg : List Byte)
  | sentDisarm (role : Role)
  | sentEnableWrite (role : Role) (val : List Byte)
  | sentWakeAssertedWrite (role : Role) (val : List Byte)
  | sentFrameEnd (rise : Bool) (pdmData : List Bool) (settling : Bool)
  | sentDetection
  | wdtService (role : Role) (val : List Byte)
  | wdtPeriodWrite (role : Role) (val : List Byte)
  | fwTimerExpiry
  | hostTimerExpiry
  | wdtGraceExpiry
  | classKeyWrite (role : Role) (sub : Byte) (val : List Byte)
  | t2InlineEccWrite (role : Role) (val : List Byte)
  | lcToProvisioned (role : Role) (arg : List Byte) (env : Env)
  | lcToField (role : Role) (arg : List Byte)
  | lcToRma (role : Role) (arg : List Byte)
  | arbAdvanceFirmware (role : Role) (arg : List Byte)
  | arbAdvanceSlipcase (role : Role) (arg : List Byte)
  | debugUnlock (role : Role) (arg : List Byte) (env : Env)
  | powerLoss
  | testenLow
  | hdrExit
  | linkEntersL0 (speed : Fin 5) (width : Fin 3)
  | linkDown
  | l1SubstateEntry (l12 : Bool)
  | msixVectorUnmask (v : Fin 64)
  | configSpaceWrite (dstate : Fin 4) (msix : MsixControl) (aspmL1 : Bool) (ctl : DeviceControl)
  | slowTick (f : TickFacts)
  deriving DecidableEq, Repr

end Sys2Proof
end

