-- ==== Sys2Proof/Machine/Crypto.lean ====
section
/-! DEFINITION. The cryptography of the key engine (15, 19) as its standards give it: SHA-384 (FIPS 180-4), HMAC and
HKDF-SHA-384 (RFC 5869), AES-256-GCM (FIPS 197, NIST SP 800-38D), and multiples of a point of P-384 (FIPS 186-5). The
manual names the standards; what they say is taken from them (log entry 102). -/

namespace Sys2Proof.Machine

/-! ### Bytes -/

/-- The number a byte list holds, most significant byte first. -/
def beNat (l : List Byte) : Nat := l.foldl (fun n b => 256 * n + b.toNat) 0

/-- The `n` least significant bytes of a number, most significant first. -/
def natBe (n v : Nat) : List Byte := (natLe n v).reverse

def xorBytes (a b : List Byte) : List Byte := List.zipWith (fun x y => x ^^^ y) a b

/-- Blocks of `n` bytes; the last may be short. -/
def blocksOf (n : Nat) (l : List Byte) : List (List Byte) :=
  (List.range ((l.length + n - 1) / n)).map fun i => (l.drop (n * i)).take n

/-! ### SHA-384 -/

/-- The 80 round constants: the first 64 bits of the fractional parts of the cube roots of the first 80 primes. -/
def shaK : List Nat :=
  [0x428a2f98d728ae22, 0x7137449123ef65cd, 0xb5c0fbcfec4d3b2f, 0xe9b5dba58189dbbc,
   0x3956c25bf348b538, 0x59f111f1b605d019, 0x923f82a4af194f9b, 0xab1c5ed5da6d8118,
   0xd807aa98a3030242, 0x12835b0145706fbe, 0x243185be4ee4b28c, 0x550c7dc3d5ffb4e2,
   0x72be5d74f27b896f, 0x80deb1fe3b1696b1, 0x9bdc06a725c71235, 0xc19bf174cf692694,
   0xe49b69c19ef14ad2, 0xefbe4786384f25e3, 0x0fc19dc68b8cd5b5, 0x240ca1cc77ac9c65]
  ++ [0x2de92c6f592b0275, 0x4a7484aa6ea6e483, 0x5cb0a9dcbd41fbd4, 0x76f988da831153b5,
   0x983e5152ee66dfab, 0xa831c66d2db43210, 0xb00327c898fb213f, 0xbf597fc7beef0ee4,
   0xc6e00bf33da88fc2, 0xd5a79147930aa725, 0x06ca6351e003826f, 0x142929670a0e6e70,
   0x27b70a8546d22ffc, 0x2e1b21385c26c926, 0x4d2c6dfc5ac42aed, 0x53380d139d95b3df,
   0x650a73548baf63de, 0x766a0abb3c77b2a8, 0x81c2c92e47edaee6, 0x92722c851482353b]
  ++ [0xa2bfe8a14cf10364, 0xa81a664bbc423001, 0xc24b8b70d0f89791, 0xc76c51a30654be30,
   0xd192e819d6ef5218, 0xd69906245565a910, 0xf40e35855771202a, 0x106aa07032bbd1b8,
   0x19a4c116b8d2d0c8, 0x1e376c085141ab53, 0x2748774cdf8eeb99, 0x34b0bcb5e19b48a8,
   0x391c0cb3c5c95a63, 0x4ed8aa4ae3418acb, 0x5b9cca4f7763e373, 0x682e6ff3d6b2b8a3,
   0x748f82ee5defb2fc, 0x78a5636f43172f60, 0x84c87814a1f0ab72, 0x8cc702081a6439ec]
  ++ [0x90befffa23631e28, 0xa4506cebde82bde9, 0xbef9a3f7b2c67915, 0xc67178f2e372532b,
   0xca273eceea26619c, 0xd186b8c721c0c207, 0xeada7dd6cde0eb1e, 0xf57d4f7fee6ed178,
   0x06f067aa72176fba, 0x0a637dc5a2c898a6, 0x113f9804bef90dae, 0x1b710b35131c471b,
   0x28db77f523047d84, 0x32caab7b40c72493, 0x3c9ebe0a15c9bebc, 0x431d67c49c100d4c,
   0x4cc5d4becb3e42b6, 0x597f299cfc657e2a, 0x5fcb6fab3ad6faec, 0x6c44198c4a475817]

def word64 (x : Nat) : Nat := x % 2 ^ 64
def rotr64 (x n : Nat) : Nat := word64 (x >>> n ||| x <<< (64 - n))

/-- The eight working variables. -/
structure Sha where
  a : Nat
  b : Nat
  c : Nat
  d : Nat
  e : Nat
  f : Nat
  g : Nat
  h : Nat
  deriving DecidableEq, Repr

/-- The initial hash value of SHA-384. -/
def shaInit : Sha :=
  { a := 0xcbbb9d5dc1059ed8, b := 0x629a292a367cd507, c := 0x9159015a3070dd17, d := 0x152fecd8f70e5939,
    e := 0x67332667ffc00b31, f := 0x8eb44a8768581511, g := 0xdb0c2e0d64f98fa7, h := 0x47b5481dbefa4fa4 }

/-- The message schedule, its last 16 words, newest first, and the rounds. -/
def shaRound (p : Sha × List Nat) (k : Nat) : Sha × List Nat :=
  let x := p.1
  let w := p.2.getD 15 0
  let s1 := rotr64 x.e 14 ^^^ rotr64 x.e 18 ^^^ rotr64 x.e 41
  let ch := (x.e &&& x.f) ^^^ ((2 ^ 64 - 1 - x.e) &&& x.g)
  let t1 := word64 (x.h + s1 + ch + k + w)
  let s0 := rotr64 x.a 28 ^^^ rotr64 x.a 34 ^^^ rotr64 x.a 39
  let maj := (x.a &&& x.b) ^^^ (x.a &&& x.c) ^^^ (x.b &&& x.c)
  let w1 := p.2.getD 14 0
  let w14 := p.2.getD 1 0
  let o0 := rotr64 w1 1 ^^^ rotr64 w1 8 ^^^ w1 >>> 7
  let o1 := rotr64 w14 19 ^^^ rotr64 w14 61 ^^^ w14 >>> 6
  ({ a := word64 (t1 + s0 + maj), b := x.a, c := x.b, d := x.c, e := word64 (x.d + t1), f := x.e, g := x.f, h := x.g },
    word64 (o1 + p.2.getD 6 0 + o0 + w) :: p.2.take 15)

/-- One block of 128 bytes. -/
def shaBlock (x : Sha) (block : List Byte) : Sha :=
  let w := ((List.range 16).map fun i => beNat ((block.drop (8 * i)).take 8)).reverse
  let y := (shaK.foldl shaRound (x, w)).1
  { a := word64 (x.a + y.a), b := word64 (x.b + y.b), c := word64 (x.c + y.c), d := word64 (x.d + y.d),
    e := word64 (x.e + y.e), f := word64 (x.f + y.f), g := word64 (x.g + y.g), h := word64 (x.h + y.h) }

/-- The padded message. -/
def shaPad (m : List Byte) : List Byte :=
  m ++ [0x80] ++ List.replicate ((111 + 128 - m.length % 128) % 128) 0 ++ natBe 16 (8 * m.length)

/-- SHA-384: 48 bytes. -/
def sha384 (m : List Byte) : List Byte :=
  let x := (blocksOf 128 (shaPad m)).foldl shaBlock shaInit
  [x.a, x.b, x.c, x.d, x.e, x.f].flatMap (natBe 8)

/-! ### HMAC and HKDF -/

/-- HMAC-SHA-384 of a key of at most 128 bytes. -/
def hmac384 (key msg : List Byte) : List Byte :=
  let k := key ++ List.replicate (128 - key.length) 0
  sha384 (k.map (· ^^^ 0x5C) ++ sha384 (k.map (· ^^^ 0x36) ++ msg))

/-- HKDF-SHA-384 (RFC 5869), `n` output bytes; an empty salt is 48 zero bytes. -/
def hkdf384 (salt ikm info : List Byte) (n : Nat) : List Byte :=
  let prk := hmac384 (if salt = [] then List.replicate 48 0 else salt) ikm
  let t := (List.range ((n + 47) / 48)).foldl (fun (p : List Byte × List Byte) i =>
    let x := hmac384 prk (p.2 ++ info ++ [BitVec.ofNat 8 (i + 1)])
    (p.1 ++ x, x)) ([], [])
  t.1.take n

/-! ### AES-256 -/

/-- The S-box. -/
def aesS : List Nat :=
  [0x63, 0x7c, 0x77, 0x7b, 0xf2, 0x6b, 0x6f, 0xc5, 0x30, 0x01, 0x67, 0x2b, 0xfe, 0xd7, 0xab, 0x76,
   0xca, 0x82, 0xc9, 0x7d, 0xfa, 0x59, 0x47, 0xf0, 0xad, 0xd4, 0xa2, 0xaf, 0x9c, 0xa4, 0x72, 0xc0,
   0xb7, 0xfd, 0x93, 0x26, 0x36, 0x3f, 0xf7, 0xcc, 0x34, 0xa5, 0xe5, 0xf1, 0x71, 0xd8, 0x31, 0x15,
   0x04, 0xc7, 0x23, 0xc3, 0x18, 0x96, 0x05, 0x9a, 0x07, 0x12, 0x80, 0xe2, 0xeb, 0x27, 0xb2, 0x75]
  ++ [0x09, 0x83, 0x2c, 0x1a, 0x1b, 0x6e, 0x5a, 0xa0, 0x52, 0x3b, 0xd6, 0xb3, 0x29, 0xe3, 0x2f, 0x84,
   0x53, 0xd1, 0x00, 0xed, 0x20, 0xfc, 0xb1, 0x5b, 0x6a, 0xcb, 0xbe, 0x39, 0x4a, 0x4c, 0x58, 0xcf,
   0xd0, 0xef, 0xaa, 0xfb, 0x43, 0x4d, 0x33, 0x85, 0x45, 0xf9, 0x02, 0x7f, 0x50, 0x3c, 0x9f, 0xa8,
   0x51, 0xa3, 0x40, 0x8f, 0x92, 0x9d, 0x38, 0xf5, 0xbc, 0xb6, 0xda, 0x21, 0x10, 0xff, 0xf3, 0xd2]
  ++ [0xcd, 0x0c, 0x13, 0xec, 0x5f, 0x97, 0x44, 0x17, 0xc4, 0xa7, 0x7e, 0x3d, 0x64, 0x5d, 0x19, 0x73,
   0x60, 0x81, 0x4f, 0xdc, 0x22, 0x2a, 0x90, 0x88, 0x46, 0xee, 0xb8, 0x14, 0xde, 0x5e, 0x0b, 0xdb,
   0xe0, 0x32, 0x3a, 0x0a, 0x49, 0x06, 0x24, 0x5c, 0xc2, 0xd3, 0xac, 0x62, 0x91, 0x95, 0xe4, 0x79,
   0xe7, 0xc8, 0x37, 0x6d, 0x8d, 0xd5, 0x4e, 0xa9, 0x6c, 0x56, 0xf4, 0xea, 0x65, 0x7a, 0xae, 0x08]
  ++ [0xba, 0x78, 0x25, 0x2e, 0x1c, 0xa6, 0xb4, 0xc6, 0xe8, 0xdd, 0x74, 0x1f, 0x4b, 0xbd, 0x8b, 0x8a,
   0x70, 0x3e, 0xb5, 0x66, 0x48, 0x03, 0xf6, 0x0e, 0x61, 0x35, 0x57, 0xb9, 0x86, 0xc1, 0x1d, 0x9e,
   0xe1, 0xf8, 0x98, 0x11, 0x69, 0xd9, 0x8e, 0x94, 0x9b, 0x1e, 0x87, 0xe9, 0xce, 0x55, 0x28, 0xdf,
   0x8c, 0xa1, 0x89, 0x0d, 0xbf, 0xe6, 0x42, 0x68, 0x41, 0x99, 0x2d, 0x0f, 0xb0, 0x54, 0xbb, 0x16]

def subByte (b : Nat) : Nat := aesS.getD b 0

/-- Multiplication by x in the field of FIPS 197. -/
def xtime (b : Nat) : Nat := if b < 128 then 2 * b else (2 * b) ^^^ 0x11B

def rconAt : Nat → Nat
  | 0 => 1
  | n + 1 => xtime (rconAt n)

/-- One step of the key expansion: the word list so far, newest first, and the next word. -/
def aesKeyStep (w : List (List Nat)) (i : Nat) : List (List Nat) :=
  let t := w.headD []
  let t := if i % 8 = 0 then
      match (t.drop 1 ++ t.take 1).map subByte with
      | a :: r => (a ^^^ rconAt (i / 8 - 1)) :: r
      | [] => []
    else if i % 8 = 4 then t.map subByte
    else t
  List.zipWith (fun a b => a ^^^ b) (w.getD 7 []) t :: w

/-- The 15 round keys of 16 bytes. -/
def aesKeys (key : List Byte) : List (List Nat) :=
  let k := key.map BitVec.toNat
  let w0 := ((List.range 8).map fun i => (k.drop (4 * i)).take 4).reverse
  let w := (((List.range 52).map (· + 8)).foldl aesKeyStep w0).reverse
  (List.range 15).map fun r => ((w.drop (4 * r)).take 4).flatten

/-- MixColumns of one column. -/
def mixColumn (c : List Nat) : List Nat :=
  let a := fun i => c.getD (i % 4) 0
  (List.range 4).map fun i => xtime (a i) ^^^ xtime (a (i + 1)) ^^^ a (i + 1) ^^^ a (i + 2) ^^^ a (i + 3)

/-- One round: SubBytes, ShiftRows, MixColumns but in the last, AddRoundKey. -/
def aesRound (last : Bool) (s k : List Nat) : List Nat :=
  let b := s.map subByte
  let r := (List.range 16).map fun i => b.getD ((i + 4 * (i % 4)) % 16) 0
  let m := if last then r else (List.range 4).flatMap fun c => mixColumn ((r.drop (4 * c)).take 4)
  List.zipWith (fun a b => a ^^^ b) m k

/-- AES-256 of one block. -/
def aes256 (keys : List (List Nat)) (block : List Byte) : List Byte :=
  let s := List.zipWith (fun a b => a ^^^ b) (block.map BitVec.toNat) (keys.headD [])
  let s := ((keys.drop 1).take 13).foldl (aesRound false) s
  (aesRound true s (keys.getD 14 [])).map (BitVec.ofNat 8)

/-! ### GCM -/

/-- Multiplication in GF(2^128) as SP 800-38D orders the bits. -/
def gfMul (x y : Nat) : Nat :=
  ((List.range 128).foldl (fun (p : Nat × Nat) i =>
    (if bit x (127 - i) then p.1 ^^^ p.2 else p.1,
     if bit p.2 0 then (p.2 / 2) ^^^ (0xE1 * 2 ^ 120) else p.2 / 2)) (0, y)).1

def pad16 (l : List Byte) : List Byte := l ++ List.replicate ((16 - l.length % 16) % 16) 0

def ghash (h : Nat) (l : List Byte) : Nat := (blocksOf 16 l).foldl (fun y b => gfMul (y ^^^ beNat b) h) 0

/-- The key stream over text from counter 2, for a 12-byte IV. -/
def gcmText (keys : List (List Nat)) (iv text : List Byte) : List Byte :=
  let b := blocksOf 16 text
  (b.zip (List.range b.length)).flatMap fun p => xorBytes p.1 (aes256 keys (iv ++ natBe 4 (p.2 + 2)))

/-- The 128-bit tag of a ciphertext. -/
def gcmTag (keys : List (List Nat)) (iv aad ct : List Byte) : List Byte :=
  let h := beNat (aes256 keys (List.replicate 16 0))
  let y := ghash h (pad16 aad ++ pad16 ct ++ natBe 8 (8 * aad.length) ++ natBe 8 (8 * ct.length))
  xorBytes (natBe 16 y) (aes256 keys (iv ++ natBe 4 1))

/-- AES-256-GCM decryption: the plaintext, none where the tag fails. -/
def gcmOpen (key iv aad ct tag : List Byte) : Option (List Byte) :=
  let keys := aesKeys key
  if gcmTag keys iv aad ct = tag then some (gcmText keys iv ct) else none

/-! ### P-384 -/

def pPrime : Nat := 2 ^ 384 - 2 ^ 128 - 2 ^ 96 + 2 ^ 32 - 1
def pOrder : Nat := 0xffffffffffffffffffffffffffffffffffffffffffffffffc7634d81f4372ddf581a0db248b0a77aecec196accc52973
def pBase : Nat × Nat :=
  (0xaa87ca22be8b05378eb1c71ef320ad746e1d3b628ba79b9859f741e082542a385502f25dbf55296c3a545e3872760ab7,
   0x3617de4a96262c6f5d9e98bf9292dc29f8f41dbd289a147ce9da3113b5f0b8c00a60b1ce1d7e819d7a431d7c90ea0e5f)

/-- a − b modulo the prime. -/
def pSub (a b : Nat) : Nat := (a + pPrime - b % pPrime) % pPrime

/-- A point in Jacobian coordinates; z = 0: the point at infinity. -/
structure PPoint where
  x : Nat
  y : Nat
  z : Nat
  deriving DecidableEq, Repr

def PPoint.double (p : PPoint) : PPoint :=
  let yy := p.y * p.y % pPrime
  let s := 4 * p.x * yy % pPrime
  let zz := p.z * p.z % pPrime
  let m := 3 * pSub p.x zz * (p.x + zz) % pPrime
  let x := pSub (m * m) (2 * s)
  { x := x, y := pSub (m * pSub s x) (8 * yy * yy), z := 2 * p.y * p.z % pPrime }

def PPoint.add (p q : PPoint) : PPoint :=
  if p.z = 0 then q
  else if q.z = 0 then p
  else
    let pz := p.z * p.z % pPrime
    let qz := q.z * q.z % pPrime
    let u1 := p.x * qz % pPrime
    let u2 := q.x * pz % pPrime
    let s1 := p.y * q.z % pPrime * qz % pPrime
    let s2 := q.y * p.z % pPrime * pz % pPrime
    if u1 = u2 then if s1 = s2 then p.double else { x := 1, y := 1, z := 0 }
    else
      let h := pSub u2 u1
      let r := pSub s2 s1
      let hh := h * h % pPrime
      let hhh := h * hh % pPrime
      let v := u1 * hh % pPrime
      let x := pSub (r * r) (hhh + 2 * v)
      { x := x, y := pSub (r * pSub v x) (s1 * hhh), z := p.z * q.z % pPrime * h % pPrime }

/-- k · P, from the most significant of 384 bits down. -/
def PPoint.mul (k : Nat) (p : PPoint) : PPoint :=
  (List.range 384).foldl (fun r i => let d := r.double; if bit k (383 - i) then d.add p else d) { x := 1, y := 1, z := 0 }

/-- A power modulo `m`. -/
def modPow (m a e : Nat) : Nat :=
  (List.range 384).foldl (fun r i => if bit e (383 - i) then r * r % m * a % m else r * r % m) 1

/-- The affine coordinates of a point. -/
def PPoint.affine (p : PPoint) : Nat × Nat :=
  let i := modPow pPrime p.z (pPrime - 2)
  let ii := i * i % pPrime
  (p.x * ii % pPrime, p.y * ii % pPrime * i % pPrime)

/-- A public key as a point. -/
def pointOf (pub : List Byte) : PPoint := { x := beNat (pub.take 48), y := beNat ((pub.drop 48).take 48), z := 1 }

/-- The public key of a private scalar, X then Y, 48 bytes each (R728). -/
def publicKey (d : Nat) : List Byte :=
  let a := (PPoint.mul d { x := pBase.1, y := pBase.2, z := 1 }).affine
  natBe 48 a.1 ++ natBe 48 a.2

/-- The X coordinate of the ECDH product of a private scalar and a public key. -/
def ecdhX (d : Nat) (pub : List Byte) : List Byte :=
  natBe 48 (PPoint.mul d (pointOf pub)).affine.1

def pCurveB : Nat := 0xb3312fa7e23ee7e4988e056be3f82d19181d9c6efe8141120314088f5013875ac656398d8a2ed19d2a85c8edd3ec2aef

/-- The point lies on the curve. -/
def PPoint.onCurve (p : PPoint) : Bool :=
  decide (p.x < pPrime ∧ p.y < pPrime) && p.y * p.y % pPrime == (pSub (p.x * p.x % pPrime * p.x) (3 * p.x) + pCurveB) % pPrime

/-- ECDSA P-384 verification of a 48-byte hash (FIPS 186-5), both products bit by bit together; keys and signatures as R728 encodes them. -/
def ecdsaOk (pub hash sig : List Byte) : Bool :=
  let q := pointOf pub
  let r := beNat (sig.take 48)
  let s := beNat ((sig.drop 48).take 48)
  let w := modPow pOrder s (pOrder - 2)
  let u1 := beNat hash * w % pOrder
  let u2 := r * w % pOrder
  let g : PPoint := { x := pBase.1, y := pBase.2, z := 1 }
  let gq := g.add q
  let t := (List.range 384).foldl (fun t i =>
    let d := t.double
    match bit u1 (383 - i), bit u2 (383 - i) with
    | true, true => d.add gq
    | true, false => d.add g
    | false, true => d.add q
    | false, false => d) ({ x := 1, y := 1, z := 0 } : PPoint)
  q.onCurve && decide (1 ≤ r ∧ r < pOrder ∧ 1 ≤ s ∧ s < pOrder) && decide (t.z ≠ 0) && t.affine.1 % pOrder == r

/-- The private scalar of a 72-byte output (R875). -/
def scalarOf (c : Nat) : Nat := c % (pOrder - 1) + 1

end Sys2Proof.Machine
end

