-- ==== Sys2Proof/Config.lean ====
section
/-! DEFINITION. What the spec leaves open: free values, as opaque constants without a body (log entry 8), and the
constants of silicon revision B1 that the manual does not print. -/

namespace Sys2Proof

/-- The i-th free value; `State.freeCtr` numbers them (log entry 8). -/
opaque Config.free : Nat → Nat

/-- KX_ROOT_HASH sub 1 and sub 2 of a B1 device: fixed, "this manual does not print them" (R894). -/
opaque Config.kxRootHash : Nat → Nat

/-- The statistics set a CONV_CARRY works on: R374 gives it no STATS operand. A function of its SCSLOT (log entry 16). -/
opaque Config.carrySet : Nat → Nat

/-- How many of the 8 engine cycles a pass takes beyond its L stream bits come before the first stream bit: R808 gives
the pass L + 8 cycles and does not place them. Taken modulo 9 (log entry 20). -/
opaque Config.passLead : Nat

/-- ARB_EPOCH and the lower 24 bits of FW_VERSION of the firmware image the part comes with (log entry 25). -/
opaque Config.factoryEpoch : Nat
opaque Config.factoryVersion : Nat

end Sys2Proof
end

