-- ==== Sys2Proof/Machine/State.lean ====
section
/-! DEFINITION. The state of the Q19 as plain data, its fault and refusal reasons, and the state right after reset.
The dictionary's value table (`Dict.vals`) IS the register file of the block: every entry of the cards that holds a
value lives there under the key `index * 256 + sub`; what the spec gives the machine beside the dictionary has fields
of its own. -/

namespace Sys2Proof.Machine

/-- A sparse table: key and value pairs, keys strictly rising, no entry equal to the table's default. -/
abbrev Tab (α : Type) := List (Nat × α)
/-- A memory: (address, byte) pairs, addresses strictly rising, no entry equal to zero (log entry 2). -/
abbrev Mem := List Host.Cell

/-- Why a step stops with a fault. -/
inductive Fault where
  /-- Raised by TESTEN_HIGH in lifecycle BLANK: R867 opens the factory test modes, which "are not described in this
  manual" (19). Safe: the model stops where the hardware goes on undescribed. -/
  | factoryTestMode
  deriving DecidableEq, Repr

/-- Why a step has no meaning. -/
inductive Refusal where
  /-- Raised by an arm of `exec` without a meaning; safe. -/
  | notModelled (mnemonic : String)
  /-- Raised by VENDOR_DEBUG_INSTRUCTION while DEBUG_STATE reads OPEN or UNLOCKED and the access names no
  execute-only leaf: R889 lets it act and no rule says what it does. Safe: the model stops. -/
  | vendorDebugUndescribed
  deriving DecidableEq, Repr

/-- The two SKUs (R4). -/
inductive Sku where
  | q24
  | q16
  deriving DecidableEq, Repr

/-- The power states (R833). -/
inductive PowerState where
  | sOff
  | sRet
  | sSent
  | sIdle
  | sRun
  deriving DecidableEq, Repr

/-- How far boot has come (R225, R236). -/
inductive BootPhase where
  | waiting
  | normal
  | recovery
  deriving DecidableEq, Repr

/-- What the board drives at the input balls, and the two wake outputs (R47). -/
structure Pins where
  /-- VDD_AON is up (R833) -/
  aonUp : Bool
  /-- the AON power-on detector has released the AON domain (R62) -/
  aonReleased : Bool
  resetN : Bool
  /-- PGOOD_IN has been high for 1 ms (R65) -/
  pgood : Bool
  perstN : Bool
  testen : Bool
  /-- CLKIN_38M4 carries 64 consecutive edges within ±1 % of 38.4 MHz (R85). Whether the Q19 counts the clock as
  detected is `State.clkinSeen`: the ball is ignored in reset, in S-OFF, S-RET and S-SENT (R47, R49) -/
  clkin : Bool
  /-- WAKE_OUT is high (R825) -/
  wakeOut : Bool
  /-- WAKE_N is driven low (R825) -/
  wakeN : Bool
  deriving DecidableEq, Repr

/-- Oscillators, PLLs and the waits on them (R77, R85, R89, R72, R86). -/
structure Clocks where
  crystal : Bool
  lowOsc : Bool
  quickOsc : Bool
  bayPll : Bool
  nvPll : Bool
  lpddrPll : Bool
  /-- a VSEL settle wait runs (R72) -/
  settling : Bool
  /-- a wake is held because CLKIN_38M4 is not detected (R86) -/
  clkWait : Bool
  deriving DecidableEq, Repr

/-- The data register the TAP selects (R100, R103). -/
inductive JtagReg where
  | idcode
  | bypass
  | boundary
  | vendor
  deriving DecidableEq, Repr

/-- The states of the IEEE 1149.1 TAP controller (R100; log entry 85). -/
inductive TapState where
  | testLogicReset
  | runTestIdle
  | selectDr
  | captureDr
  | shiftDr
  | exit1Dr
  | pauseDr
  | exit2Dr
  | updateDr
  | selectIr
  | captureIr
  | shiftIr
  | exit1Ir
  | pauseIr
  | exit2Ir
  | updateIr
  deriving DecidableEq, Repr

/-- The JTAG port (R100 to R104). -/
structure Jtag where
  ir : BitVec 6
  dr : JtagReg
  /-- the boundary-scan cells as last preloaded: one per ball of `cellBalls`, in that order (log entry 85) -/
  cells : List Bool
  tap : TapState
  /-- a TAP reset since the entry to S-RET or S-SENT: TCK edges power the TAP there (R102) -/
  armed : Bool
  deriving DecidableEq, Repr

/-- One I3C ticket (R178). -/
inductive Ticket where
  | waiting
  | complete (status : Nat) (data : List Byte)
  deriving DecidableEq, Repr

/-- The I3C target (R161 to R189). The dynamic address is the entry I3C_DYN_ADDR. -/
structure I3c where
  intEn : Bool
  hjEn : Bool
  mwl : Nat
  mrl : Nat
  hdr : Bool
  protoErr : Bool
  /-- the response to the most recent frame (R174) -/
  response : List Byte
  tickets : Tab Ticket
  /-- IBIs due, in the order they became due: (GROUP, CODE) (R183) -/
  ibis : List (Nat × Nat)
  deriving DecidableEq, Repr

/-- RSP_STATE of a mailbox (R191). -/
inductive MboxState where
  | idle
  | busy
  | deferred
  | done
  deriving DecidableEq, Repr

/-- One BAR0 mailbox (R191). -/
structure Mbox where
  reqIndex : BitVec 16
  reqSub : Byte
  reqFlags : Byte
  reqLength : BitVec 16
  reqTag : BitVec 32
  reqData : Mem
  rspState : MboxState
  rspStatus : Nat
  rspLength : Nat
  rspTag : BitVec 32
  rspData : List Byte
  irq : Bool
  deriving DecidableEq, Repr

/-- Where the answer to a held cold request goes: nowhere any more, to the row of the table that made it, an I3C ticket, or
a mailbox (8 = global). -/
inductive Reply where
  | discard
  | row
  | ticket (n : Nat)
  | mbox (i : Fin 9)
  deriving DecidableEq, Repr

/-- A dictionary request (R117). -/
structure Request where
  role : Role
  write : Bool
  view : Bool
  idx : Nat
  sub : Nat
  data : List Byte
  deriving DecidableEq, Repr

/-- STATE of a CMD result block (R113). -/
inductive CmdState where
  | never
  | running
  | done
  deriving DecidableEq, Repr

/-- A CMD result block (R113). -/
structure CmdBlock where
  state : CmdState
  result : Nat
  runs : BitVec 16
  card : List Byte
  deriving DecidableEq, Repr

/-- Holder and pending commit of a staged set (R140, R147). -/
structure SetState where
  holder : Option Role
  pending : Bool
  deriving DecidableEq, Repr

/-- The object dictionary. -/
structure Dict where
  /-- the value of every entry, little-endian, key `index * 256 + sub`; unlisted: the card's default -/
  vals : Tab Nat
  /-- staged values that differ in origin from the active copy, by the same key (R138) -/
  staged : Tab Nat
  /-- staged sets by the index of their COMMIT -/
  sets : Tab SetState
  /-- CMD result blocks by key -/
  cmds : Tab CmdBlock
  /-- held cold requests, oldest first (R158) -/
  cold : List (Request × Reply)
  deriving DecidableEq, Repr

/-- PCIe function state (R863, R248). Link state, speed and width are dictionary entries. -/
structure PcieFn where
  dstate : Fin 4
  msixEnable : Bool
  funcMask : Bool
  aspmL1 : Bool
  /-- Max_Payload_Size and Max_Read_Request_Size as the host set them: 128 bytes × 2^n (R248) -/
  mps : Fin 8
  mrrs : Fin 8
  /-- LTR latency last reported, in microseconds; 0 before the first report -/
  ltr : Nat
  /-- CLKREQ_N is released by the Q19 -/
  clkreqReleased : Bool
  deriving DecidableEq, Repr

/-- One entry of the MSI-X table. -/
structure MsixEntry where
  addr : BitVec 64
  data : BitVec 32
  masked : Bool
  deriving DecidableEq, Repr

/-- MSI-X table and pending-bit array (R249). -/
structure Msix where
  table : Vector MsixEntry 64
  pba : BitVec 64
  deriving DecidableEq, Repr

/-- A profile switch under way (R214). -/
structure Switch where
  source : Nat
  target : Nat
  limitMs : Nat
  drainMs : Nat
  /-- step 4 is done: the switch waits for the weave frame boundary -/
  repartitioned : Bool
  /-- the weave that runs until that boundary, by its 24 parts, when step 3 replaced the source's own (R409) -/
  oldWeave : List Nat
  deriving DecidableEq, Repr

/-- A copy of the commit record (R226). -/
structure CommitRec where
  slotB : Bool
  seq : BitVec 32
  crcOk : Bool
  deriving DecidableEq, Repr

/-- The boot region (R586). -/
structure BootRegion where
  copy0 : CommitRec
  copy1 : CommitRec
  /-- the two firmware slots; none: the image the part came with, which the manual does not give (log entry 25) -/
  slotA : Option Mem
  slotB : Option Mem
  /-- the next reset boots without sampling BOOTSEL, after a recovery load (R240) -/
  skipBootsel : Bool
  /-- a device reset is scheduled; LAST_RESET it will report (R224) -/
  resetDue : Option Nat
  /-- LAST_RESET of the reset under way, reported at boot -/
  lastReset : Nat
  deriving DecidableEq, Repr

/-- A place that holds leaves (R661). -/
inductive Place where
  | slice (b : BayNum)
  | commons
  | t2
  deriving DecidableEq, Repr

/-- Who occupies an extent of leaves. -/
inductive Use where
  /-- a FLAGS allocation of a quire -/
  | alloc (q : QNum)
  /-- the home of a UNIFIED leaf of a quire, or the place one migrates to (R694) -/
  | home (q : QNum)
  /-- a run's reservation (R418) -/
  | reserve (q : QNum) (run : Nat)
  /-- released and waiting for the zeroing engine: last owner, and whether it was a run's reservation (R938) -/
  | zeroing (q : QNum) (run : Bool)
  /-- claimed by an ALLOC that waits until its leaves are zeroed (R672); overlaps `zeroing` -/
  | allocWait (q : QNum) (seq : Nat)
  deriving DecidableEq, Repr

/-- The forms of a tier address (R664). -/
inductive Form where
  | slice (b : BayNum)
  | commons
  | t2
  | t4
  | t3 (handle : Nat)
  | unified
  deriving DecidableEq, Repr

/-- A tier address: its form and leaf (R664). -/
structure Addr where
  form : Form
  leaf : Nat
  deriving DecidableEq, Repr

/-- What a leaf of a tier address is for a quire (R666). -/
inductive Loc where
  /-- a T1 or T2 leaf; locked while its UNIFIED leaf is in transit (R700) -/
  | own (p : Place) (n : Nat) (locked : Bool)
  | t4 (n : Nat)
  | t3 (entry n : Nat)
  | foreign
  deriving DecidableEq, Repr

/-- Consecutive leaves in one place with one use. -/
structure Extent where
  place : Place
  first : Nat
  count : Nat
  use : Use
  deriving DecidableEq, Repr

/-- The home of a UNIFIED leaf (R694). -/
inductive Home where
  | commons (n : Nat)
  | t2 (n : Nat)
  /-- in transit from T2 leaf `src` to commons leaf `dst` -/
  | toCommons (src dst : Nat)
  /-- in transit from commons leaf `src` to T2 leaf `dst` -/
  | toT2 (src dst : Nat)
  deriving DecidableEq, Repr

/-- A UNIFIED leaf: its home and when a leaf-mover operation last read it (R696). -/
structure ULeaf where
  home : Home
  lastRead : Nat
  deriving DecidableEq, Repr

/-- A pending wish of the tier manager (R698). -/
structure Hint where
  leaf : Nat
  /-- true: to the commons; false: to T2 -/
  promote : Bool
  /-- 0 to 3 for a hint -/
  urgency : Nat
  /-- a demand promotion (R695) -/
  demand : Bool
  /-- leaves whose eviction for it was deferred, in transit to the commons (R701) -/
  passed : List Nat
  deriving DecidableEq, Repr

/-- A fetched submission entry (R273). -/
structure Entry where
  /-- its number among the quire's fetched entries (CTR_FETCHED before the fetch) -/
  seq : Nat
  ring : RingNum
  slot : Nat
  /-- SQ_HEAD of the ring after the fetch (R277) -/
  headAfter : Nat
  bytes : List Byte
  deriving DecidableEq, Repr

/-- What a started and uncompleted entry is waiting for. -/
inductive Work where
  /-- an imposition run, by its number -/
  | run (id : Nat)
  /-- a STITCH_WAIT held on a stitch -/
  | stitchWait (stitch : Nat)
  /-- a FENCE; true: SCOPE 0x01 -/
  | fence (all : Bool)
  /-- a slipcase load under way -/
  | load
  /-- a COPY that meets a leaf in transit (R700) -/
  | copyWait
  /-- the leaves claimed, and whether they become homes of UNIFIED leaves -/
  | allocWait (exts : List Extent) (unified : Bool)
  | train
  deriving DecidableEq, Repr

/-- A started entry. -/
structure Started where
  entry : Entry
  work : Work
  deriving DecidableEq, Repr

/-- A completion entry (R277). -/
structure Completion where
  cid : Nat
  sqInfo : Nat
  status : Nat
  detail : Nat
  result : Nat
  /-- FLAGS of the submission entry: IRQ and VEC, SIGNAL -/
  flags : Nat
  doneStitch : Nat
  deriving DecidableEq, Repr

/-- A submission ring: head, tail, and the entries fetched and not started (R279). -/
structure Ring where
  head : Nat
  tail : Nat
  fetched : List Entry
  deriving DecidableEq, Repr

/-- The quire states (R286). -/
inductive QState where
  | disabled
  | enabled
  | waking
  | running
  | draining
  | stopping
  | frozen
  | resetting
  deriving DecidableEq, Repr

/-- The last power request of a quire (R45). -/
inductive PwrReq where
  | none
  | wake
  | release
  | refused
  deriving DecidableEq, Repr

/-- An imposition header (R360). -/
structure ImpHeader where
  hflags : Nat
  bays : Nat
  epochStart : Nat
  wakeBudget : Nat
  bindings : Nat
  stitches : Nat
  t0Slots : Nat
  t1Slice : Nat
  t1Commons : Nat
  compiledStep : Nat
  nominal : Nat
  hardBound : Nat
  streamSlots : Nat
  weaveGap : Nat
  bgMask : Nat
  specStage : Nat
  armCount : Nat
  streamStart : List Nat
  streamCount : List Nat
  /-- per FID: fallback arm, SLIP_BUDGET, TIME_BUDGET -/
  fallback : List (Nat × Nat × Nat)
  deriving DecidableEq, Repr

/-- An arm record (R361). -/
structure ArmRec where
  start : List Nat
  count : List Nat
  join : Nat
  deriving DecidableEq, Repr

/-- A binding record (R365). -/
structure Binding where
  kind : Nat
  bflags : Nat
  value : Nat
  addr : Nat
  deriving DecidableEq, Repr

/-- A speculation scope of a run that is open (R523). -/
structure Scope where
  id : Nat
  kind : Nat
  stageBind : Nat
  shadowBind : Nat
  /-- logical bays in which the scope is open -/
  bays : List BayNum
  /-- a closing entry has taken effect and other bays of the set have yet to reach theirs -/
  closed : Bool
  deriving DecidableEq, Repr

/-- Why a run slips (R390). -/
inductive SlipCause where
  | slice
  | commons
  | t2
  | t3
  | t4
  | wait
  deriving DecidableEq, Repr

/-- A run of an imposition (R418). -/
structure Run where
  id : Nat
  entry : Entry
  handle : Nat
  impNo : Nat
  /-- logical bays, relative bay 0 first -/
  bays : List BayNum
  hdr : ImpHeader
  entries : List (BitVec 128)
  arms : List ArmRec
  binds : List Binding
  /-- stamp 0 has fallen -/
  live : Bool
  /-- slip cycles so far: elapsed cycles at a stamp are the stamp plus these (R387) -/
  slipCycles : Nat
  slips : Nat
  /-- the run slips now; inside, the source of the last event that could end the slip, none while only cycle-exact
  arrivals hold it (R388 to R390) -/
  slipping : Option (Option SlipCause)
  /-- the last FORK taken: its stamp, FID and arm, which every bay takes (R393) -/
  fork : Option (Nat × Nat × Nat)
  fallback : Bool
  ioError : Bool
  /-- DEADLINE policy in force (R704) -/
  deadline : Bool
  scopes : List Scope
  /-- tags of range leaves, by tier address (R526) -/
  rangeTags : Tab Nat
  /-- T3 identity of range leaves, by tier address (R686) -/
  rangeIds : Tab Nat
  /-- every range a SPEC_BEGIN of the run named: (first address, leaves) -/
  ranges : List (Nat × Nat)
  /-- leaves of in-scope STREAMs not counted yet, by the bits of their scopes still open (R549) -/
  specLeaves : Tab Nat
  deriving DecidableEq, Repr

/-- A training commit under way (R777 to R787). -/
structure Train where
  entry : Entry
  oldEntry : Nat
  newEntry : Nat
  master : Nat
  masterLeaves : Nat
  stats : List Nat
  /-- the encoded leaves, until they are programmed: leaf * 8448 + byte -/
  frames : Mem
  /-- bank groups in which its last program has ended (R561) -/
  turns : List Nat
  deriving DecidableEq, Repr

/-- A run of Q_DISABLE under way (R301, R302). -/
structure Disabling where
  count : Nat
  deriving DecidableEq, Repr

/-- A quire. Its dictionary block holds its counters, sets and fault record. -/
structure Quire where
  state : QState
  rings : Vector Ring 4
  cqHead : Nat
  cqTail : Nat
  /-- PHASE bit of the pass the next completion belongs to (R269) -/
  phase : Bool
  ctrFetched : BitVec 64
  ctrCompleted : BitVec 64
  ctrCqFull : BitVec 32
  ctrDb : BitVec 32
  started : List Started
  heldCq : List Completion
  pwr : PwrReq
  /-- a WAKE waits for its answer -/
  wakePending : Bool
  /-- µs from the last WAKE to its GRANT, until the first run after it is judged (R420) -/
  grantUs : Option Nat
  runs : List Run
  nextRun : Nat
  unified : Tab ULeaf
  hints : List Hint
  train : Option Train
  disabling : Option Disabling
  deriving DecidableEq, Repr

/-- Power of a bay (02, Wake paths). -/
inductive BayPower where
  | running
  | gated
  | off
  deriving DecidableEq, Repr

/-- A T0 slot beside its bytes: pending marks, the source tier of the pending leaf, void, execute-only, identity. -/
structure SlotMeta where
  /-- a leaf is to arrive: source cause -/
  arriving : Option SlipCause
  /-- elapsed cycle of a cycle-exact arrival; none: the arrival is an event (R682) -/
  due : Option Nat
  /-- a MOV_OUT has not taken the slot's leaf yet: the tier it goes to, and the elapsed cycle in which it leaves, when
  cycle-exact -/
  leaving : Option (SlipCause × Option Nat)
  /-- the arriving leaf arrives void (R533) -/
  voidOnArrival : Bool
  /-- holds a copy of an execute-only leaf (R570) -/
  xo : Bool
  /-- T3 identity: the T3 tier address, 0 for none (R686) -/
  ident : Nat
  deriving DecidableEq, Repr

/-- How activations of a build are stored (R428). -/
inductive ActWidth where
  | int8
  | int4
  | bit
  deriving DecidableEq, Repr

/-- A table register (R425, R428). -/
structure Treg where
  entries : List Int
  base : Nat
  width : ActWidth
  /-- MODE of the build that filled it; none before a build (R937) -/
  mode : Option Nat
  deriving DecidableEq, Repr

/-- What lands in an accumulator block of an engine in one cycle: its additions per lane, or a TE_CLEAR, which takes
effect before or after the additions of the same cycle as a free choice has it (R438 to R440). -/
structure Landing where
  cycle : Nat
  block : Nat
  clear : Option Bool
  adds : List Int
  deriving DecidableEq, Repr

/-- A table engine with its escape lane's latch (R446). -/
structure Engine where
  treg0 : Treg
  treg1 : Treg
  /-- accumulators: key 512 * ACC + lane -/
  acc : Tab Int
  /-- additions and clears in flight, by the stamp in which they land -/
  landing : List Landing
  /-- epoch tag per accumulator block (R405) -/
  epochTag : Tab Nat
  latchBase : Nat
  latchWidth : ActWidth
  deriving DecidableEq, Repr

/-- LASTOP of a statistics set (R496). -/
inductive LastOp where
  | none
  | pass1
  | conversion
  deriving DecidableEq, Repr

/-- A converter statistics set (R496). FP32 fields hold their encodings. -/
structure StatSet where
  max : Tab Nat
  scale : Tab Nat
  pos : Nat
  lastOp : LastOp
  count1 : Nat
  sumSq : Nat
  count2 : Nat
  achSum : Nat
  pred : Tab Nat
  sat : Nat
  escapes : Nat
  nonfinite : Nat
  hot : Nat
  rescue : Nat
  under : Nat
  rescued : Nat
  allMax : Nat
  /-- BEXP of the leaf in progress (R504) -/
  bexp : Int
  /-- bit b: block b was flagged for rescue in the leaf in progress (R516) -/
  flagged : Nat
  /-- values written to the leaf in progress (R521) -/
  written : Nat
  deriving DecidableEq, Repr

/-- A held sequencer wait (R339). -/
structure SeqWait where
  stitch : Nat
  /-- elapsed cycle of its issue, from which its timeout counts (R387) -/
  start : Nat
  timeout : Option Nat
  /-- bits of the scopes its entry stood in (R526, R527) -/
  tag : Nat
  deriving DecidableEq, Repr

/-- A loop level (R400). -/
structure LoopLevel where
  active : Bool
  remaining : Nat
  iteration : Nat
  stride : Nat
  /-- the body: TARGET, and the LOOP -/
  lo : Nat
  hi : Nat
  deriving DecidableEq, Repr

/-- A sequencer's position in its bay stream (R383). -/
structure Seq where
  /-- the run it steps: (quire, run) -/
  run : Option (QNum × Nat)
  /-- index of the next entry in the bay stream -/
  pc : Nat
  /-- stamp of the entry issued last -/
  stamp : Nat
  /-- extra cycles an IDLE adds before the next entry (R403) -/
  gap : Nat
  loops : Vector LoopLevel 4
  /-- FORK arms being run: (entry after the arm's last, JOIN) -/
  arms : List (Nat × Nat)
  wait : Option SeqWait
  /-- elapsed cycle in which the timeout of the last wait ran out; 0 where none did (R339, R389) -/
  waited : Nat
  ended : Bool
  deriving DecidableEq, Repr

/-- A queued leaf-mover operation that is not cycle-exact (R683). -/
structure Move where
  /-- elapsed cycle of the issue, one per ISSUE -/
  op : Nat
  /-- index of its entry in the imposition (R299) -/
  idx : Nat
  slot : Nat
  /-- tier address of the leaf -/
  addr : Nat
  isIn : Bool
  cause : SlipCause
  tag : Nat
  /-- the frame a MOV_OUT read -/
  frame : Mem
  xo : Bool
  ident : Nat
  deriving DecidableEq, Repr

/-- A decision-register write of an operation in flight (R379, R380): ready stamp, register, value, tag. -/
structure DregDue where
  ready : Nat
  reg : Nat
  value : Nat
  tag : Nat
  deriving DecidableEq, Repr

/-- Bytes of a slot's frame an operation in flight writes, unspecified before its ready stamp (R382). -/
structure SlotSpan where
  slot : Nat
  first : Nat
  count : Nat
  ready : Nat
  deriving DecidableEq, Repr

/-- A logical bay. -/
structure Bay where
  power : BayPower
  step : Nat
  /-- imposition cache: (library entry, generation, imposition) it holds, and whose stream, as the relative bay (R363) -/
  cache : Option (Nat × Nat × Nat × Nat)
  /-- T0: slot * 8448 + byte of the frame -/
  t0 : Mem
  /-- the quire of the last run that reached stamp 0 in the bay: what T0 holds is that quire's (R304) -/
  t0Of : Option QNum
  slots : Tab SlotMeta
  engines : Vector Engine 4
  /-- reference accumulators, FP32 encodings: key 64 * RACC + lane -/
  racc : Tab Nat
  sets : Vector StatSet 4
  dregs : Tab Nat
  dregDue : List DregDue
  /-- elapsed cycle from which the leaf mover accepts its next ISSUE, and the cause of the move that holds it (R683) -/
  moverFree : Nat
  moverCause : SlipCause
  /-- ready stamp of a unit's register written, by resource code (R382) -/
  ready : Tab Nat
  /-- slot bytes not ready yet (R382) -/
  late : List SlotSpan
  /-- scope tags, by resource code (R526) -/
  tags : Tab Nat
  seq : Seq
  epoch : Nat
  /-- stamps from which the fences' new epochs hold (R404) -/
  fences : List Nat
  moves : List Move
  /-- a parity error asks for a retest at the next RELEASE (R901) -/
  retestDue : Bool
  /-- the retest runs -/
  retesting : Bool
  deriving DecidableEq, Repr

/-- Outcome of a wait that ended in a comparison stage (R336). -/
inductive Outcome where
  | met
  | late
  | timeout
  | poison
  | aborted
  deriving DecidableEq, Repr

/-- Who waits on a stitch (R315). -/
inductive Waiter where
  | bay (b : BayNum)
  | host (q : QNum) (r : RingNum)
  deriving DecidableEq, Repr

/-- A wait held on a wait list. -/
structure Held where
  who : Waiter
  quire : QNum
  /-- it starts in the coming stage, which makes its start comparison: it joins the list there, and a trip of that stage
  does not meet it (R316, R337, R339) -/
  fresh : Bool
  /-- its timeout expires in the coming stage -/
  expiring : Bool
  deriving DecidableEq, Repr

/-- A stitch (R308). OWNER and ALLOCATED follow the allocations in force. -/
structure Stitch where
  count : Nat
  target : Nat
  mode : Nat
  share : BitVec 8
  poison : Bool
  spec : Bool
  shadow : Nat
  generation : BitVec 16
  overshoot : Nat
  /-- GENERATION and OVERSHOOT at the last commit or cancel of a speculative stitch (R357) -/
  savedGen : BitVec 16
  savedOver : Nat
  waits : List Held
  deriving DecidableEq, Repr

/-- The stitch unit: the stitches and what arrived for the next comparison stage (R309). -/
structure StitchUnit where
  stitches : Tab Stitch
  /-- signals of the coming stage: (stitch, amount) -/
  signals : List (Nat × Nat)
  /-- ranges (first, count) to poison in the coming stage -/
  poisons : List (Nat × Nat)
  /-- ranges whose waiters end ABORTED in the coming stage -/
  aborts : List (Nat × Nat)
  deriving DecidableEq, Repr

/-- What a request for a row's sense serves (R411, R558, R689). -/
inductive SenseFor where
  | stream (b : BayNum) (run : Nat) (slot count : Nat) (tag : Nat) (handle : Nat) (idx : Nat)
  | cacheLoad (b : BayNum) (run : Nat)
  | movIn (b : BayNum) (run : Nat) (slot leaf : Nat) (handle : Nat)
  deriving DecidableEq, Repr

/-- A request in a quire's queue of a bank group. -/
structure SenseReq where
  entry : Nat
  stripe : Nat
  what : SenseFor
  /-- repeats made so far under R584 -/
  retries : Nat
  /-- leaves still to deliver, all of the request's before the first sense -/
  leaves : List Nat
  deriving DecidableEq, Repr

/-- What a translation-layer sense serves (R558). -/
inductive TlSense where
  | refresh (band row : Nat)
  | readRun (op : Nat) (entry stripe : Nat)
  /-- a stripe of a retired group, read to be placed elsewhere (R766) -/
  | relocate (entry stripe : Nat)
  deriving DecidableEq, Repr

/-- Who works on blocks of a bank group through the press: a descriptor of the ring, a load or a training commit into its
library entry, the group's band move, the deferred erase of a block (R558, R561, R600, R639). -/
inductive Worker where
  | op (id : Nat)
  | entry (e : Nat)
  | move
  | erase (bank block : Nat)
  deriving DecidableEq, Repr

/-- Programs or erases of a worker under way in a bank group: the banks they occupy, each of R562's extent, as continuous
operations or in press steps (R561). -/
structure PressUnit where
  group : Nat
  worker : Worker
  banks : List Nat
  cont : Bool
  deriving DecidableEq, Repr

/-- A stripe in the aperture buffer: its entry, that entry's generation, its number, and the frames sensed, leaf * 8448 +
byte (R579). -/
structure AptStripe where
  entry : Nat
  gen : Nat
  stripe : Nat
  frames : Mem
  deriving DecidableEq, Repr

/-- What a bank group's slot under way senses. -/
inductive SlotUse where
  | queue (q : QNum) (req : SenseReq)
  | aperture (entry stripe : Nat)
  | tl (s : TlSense)
  deriving DecidableEq, Repr

/-- A BAR2 read of the aperture that waits for its stripe (R579, R581). -/
structure AptRead where
  entry : Nat
  leaf : Nat
  /-- its leaf within the window (R575) -/
  index : Nat
  byte : Nat
  len : Nat
  deriving DecidableEq, Repr

/-- The weave and the bank-group ports (R408 to R417, R556 to R558). -/
structure Weave where
  /-- profile whose weave runs (R409) -/
  profile : Nat
  /-- slot of the frame that starts next -/
  slot : Nat
  /-- queues: key quire * 12 + group -/
  queues : Tab (List SenseReq)
  /-- lent slots left: key quire * 12 + group (R417) -/
  lent : Tab Nat
  /-- uses sensed and not delivered, by group, oldest first -/
  sensed : Tab (List SlotUse)
  /-- groups whose sense of the slot under way has not ended: the last of `sensed` of each -/
  sensing : List Nat
  /-- aperture stripes served in MAINT or lent slots of the frame, by group -/
  aptUsed : Tab Nat
  /-- stripes queued for the aperture, by group: (entry, stripe) -/
  aptQueue : Tab (List (Nat × Nat))
  /-- the 4 stripes most recently sensed for the aperture, newest first (R579) -/
  aptBuf : List AptStripe
  /-- aperture reads not completed, oldest first -/
  aptReads : List AptRead
  /-- translation-layer senses queued, by group -/
  tlQueue : Tab (List TlSense)
  /-- groups whose slot under way is used for a press step, and whose step it is (R558, R561) -/
  steps : List (Nat × Worker)
  deriving DecidableEq, Repr

/-- A section record of a manifest (R725). -/
structure Section where
  kind : Nat
  isOpen : Bool
  leaves : Nat
  deriving DecidableEq, Repr

/-- A variant record. -/
structure Variant where
  bays : Nat
  t1 : Nat
  t2 : Nat
  impFirst : Nat
  impCount : Nat
  deriving DecidableEq, Repr

/-- An imposition record. -/
structure ImpRec where
  sec : Nat
  contract : Nat
  firstLeaf : Nat
  length : Nat
  deriving DecidableEq, Repr

/-- A manifest (R725). -/
structure Manifest where
  textId : Nat
  sections : List Section
  variants : List Variant
  imps : List ImpRec
  /-- tip-in slots: (SLOT_ID, MAX_MIB) -/
  slots : List (Nat × Nat)
  fills : Nat
  /-- placement list of section s for variant v at position SECTIONS * v + s -/
  places : List (List Nat)
  deriving DecidableEq, Repr

/-- States of a library entry (R769). -/
inductive LibState where
  | empty
  | loading
  | installed
  | damaged
  | relocating
  | stranded
  deriving DecidableEq, Repr

/-- A library entry. Handles, variants and link masks are dictionary entries. -/
structure LibEntry where
  state : LibState
  kind : Nat
  peerOk : Bool
  variant : Nat
  modelId : Nat
  modelVersion : Nat
  generation : Nat
  base : Option Nat
  wrap : Nat
  stripes : Nat
  hash : Nat
  man : Manifest
  /-- leaves recorded lost (R638) -/
  lost : List Nat
  /-- row of a stripe in its bank group (R624) -/
  rows : Tab Nat
  removeReq : Bool
  /-- signed region and signature block, kept for an export (R756) -/
  signed : List Byte
  /-- CLASS_ID of the class record it was installed through -/
  classId : Nat
  deriving DecidableEq, Repr

/-- A peer session (R755). -/
structure Session where
  id : Nat
  quire : QNum
  /-- private scalar of the ephemeral key whose public half is RX_PUB; it exists for the session only (R875) -/
  rxKey : Nat
  deriving DecidableEq, Repr

/-- A slipcase load under way (R740). -/
structure Load where
  quire : QNum
  entry : Entry
  /-- the prefix that DMA delivered at its start (SRC_KIND 0x00) -/
  prefixBytes : List Byte
  /-- past the wait of step 1: it counts against the four of R743 and, if staged, holds the staging (R739) -/
  running : Bool
  /-- library entry chosen at step 7; none before -/
  lib : Option Nat
  staged : Bool
  /-- session of a peer load -/
  session : Option Session
  /-- the content key, or the transit key of a peer load: it exists in a key-engine slot while the load runs (R735, R758) -/
  key : List Byte
  /-- chunks read from staging -/
  chunks : Nat
  chunkCount : Nat
  /-- the plaintext body as far as it is read from staging -/
  body : Mem
  /-- the first chunk whose tag failed (R741) -/
  badChunk : Option Nat
  /-- bank groups in which its last program has ended (R561) -/
  turns : List Nat
  deriving DecidableEq, Repr

/-- State of a physical block (R624). -/
inductive BlockState where
  | freeErased
  | freeDirty
  | inUse
  | bad
  deriving DecidableEq, Repr

/-- A physical block's record. -/
structure BlockRec where
  state : BlockState
  cycles : Nat
  deriving DecidableEq, Repr

/-- A band of a bank group (R594, R628, R634). -/
structure Band where
  /-- rows programmed since the band's blocks were erased, from row 0 of the band (R624) -/
  used : Nat
  reads : Nat
  /-- the over-rated alert was raised since the last remap below the rating -/
  overRated : Bool
  deriving DecidableEq, Repr

/-- What a move was queued for; a wear move has its own count (R626, R630, R635). -/
inductive MoveKind where
  | refresh
  | wear
  deriving DecidableEq, Repr

/-- A band move queued or running (R631). -/
structure BandMove where
  group : Nat
  band : Nat
  kind : MoveKind
  /-- a leaf of the band stayed uncorrectable: it is moved for rescue (R585, R638) -/
  rescue : Bool
  /-- rows sensed into the program buffers so far; none before the move starts -/
  rows : Option Nat
  /-- rows programmed in the destination blocks (R631) -/
  prog : Nat
  /-- destination block in each bank -/
  dest : List Nat
  deriving DecidableEq, Repr

/-- A descriptor in the press ring (R604). -/
structure PressOp where
  id : Nat
  src : PressSource
  op : Nat
  dflags : Nat
  tag : Nat
  stitch : Nat
  target : Nat
  data : Nat
  count : Nat
  /-- its operation runs -/
  running : Bool
  /-- suspended in the auxiliary array (R621) -/
  suspended : Bool
  /-- pages per plane, or sectors, that have ended so far (R607) -/
  done : Nat
  /-- sectors of the auxiliary array under way (R620) -/
  under : List Nat
  deriving DecidableEq, Repr

/-- A START entry of the journal without END: the operation, its NV address, and the plane pair the append was placed on
(R620, R647). -/
structure JEntry where
  kind : Nat
  addr : Nat
  pair : Nat
  deriving DecidableEq, Repr

/-- One copy of a parameter record (R641): its entry by the key `index * 256 + sub`, the length and value, its sequence
number, the plane pair of its sector, and whether its CRC-32 is valid. -/
structure ParamRec where
  key : Nat
  len : Nat
  value : Nat
  seq : Nat
  pair : Nat
  crcOk : Bool
  deriving DecidableEq, Repr

/-- The weight store, the press and the translation layer. -/
structure Nv where
  /-- the user bytes of the main array (R551): address of R553's pages, `pageBase` + byte -/
  main : Mem
  lib : Tab LibEntry
  loads : List Load
  sessions : List Session
  nextSession : Nat
  /-- key ((group * 8 + bank) * 16 + band): physical block; unlisted: the band's own number -/
  blockTab : Tab Nat
  /-- key (group * 8 + bank) * 18 + block -/
  blocks : Tab BlockRec
  bands : Tab Band
  /-- checkpointed read counts (R628); none before the first checkpoint -/
  ckpt : Option (Tab Nat)
  moves : List BandMove
  /-- free-dirty blocks in the order they became so: (group, bank, block) (R639) -/
  dirty : List (Nat × Nat × Nat)
  /-- the real-time counter at the last complete scrub pass (R636) -/
  scrubAt : Nat
  /-- the records of the parameter region, two copies each, oldest first (R641) -/
  recs : List ParamRec
  /-- 512-byte units programmed in the two open parameter sectors (R641, log entry 19) -/
  paramUnits : Nat
  /-- raw contents of the auxiliary array's sectors outside the boot region: sector * 8192 + byte (R586) -/
  aux : Mem
  press : List PressOp
  nextOp : Nat
  /-- programs and erases of the main array under way (R561, R565) -/
  units : List PressUnit
  /-- bank groups claimed by runs: (group, quire, run) (R559) -/
  claims : List (Nat × QNum × Nat)
  /-- failed logical planes spared, per die (R595) -/
  sparesUsed : Tab Nat
  /-- retired banks: (die, bank) (R596) -/
  retired : List (Nat × Nat)
  /-- START entries of the journal without END (R647) -/
  journal : List JEntry
  otp : Mem
  fwStage : Mem
  boot : BootRegion
  /-- the device reset that is due is one before which all counts were checkpointed (R628) -/
  ckptDue : Bool
  /-- KX_ROOT_HASH sub 1 and sub 2, fixed in the boot ROM of silicon revision B1 (R888, R894) -/
  kxFirmware : Nat
  kxDebug : Nat
  deriving DecidableEq, Repr

/-- A pool copy of a T3 leaf (R688). -/
structure PoolCopy where
  lib : Nat
  gen : Nat
  leaf : Nat
  /-- leaf of the commons that holds it -/
  at_ : Nat
  lastRead : Nat
  deriving DecidableEq, Repr

/-- What a job of the zeroing engine serves (R306). -/
inductive ZeroFor where
  /-- a FREE, a released reservation, the old place of a UNIFIED move -/
  | release
  /-- the last part of a quire reset: the quire, and the leaves Q_RESET reports (R304) -/
  | reset (q : QNum) (leaves : Nat)
  /-- step 6 of an RMA scrub (R872) -/
  | scrub
  deriving DecidableEq, Repr

/-- A job of the zeroing engine (R306). -/
structure ZeroJob where
  extents : List Extent
  purpose : ZeroFor
  deriving DecidableEq, Repr

/-- The upper tiers (14). Addresses are leaf * 8448 + byte of the frame. -/
structure Tiers where
  slices : Vector Mem 8
  commons : Mem
  t2 : Mem
  /-- device ring regions: quire * 2 MiB + offset (R252) -/
  rings : Mem
  /-- load staging (R662, R737) -/
  staging : Mem
  /-- recovery staging (R238) -/
  recovery : Mem
  extents : List Extent
  /-- leaves that hold a copy of an execute-only leaf: (place, leaf) (R570) -/
  xo : List (Place × Nat)
  pool : List PoolCopy
  jobs : List ZeroJob
  /-- a running count of reads, for least recently read -/
  readClock : Nat
  /-- T1_SHARED_POOL in force since boot (R716) -/
  poolLeaves : Nat
  deriving DecidableEq, Repr

/-- The sentinel (17) beside its dictionary entries. -/
structure Sentinel where
  /-- the armed detector image (R814) -/
  image : Mem
  /-- biquad state: key 4 * band + (0: x1, 1: x2, 2: y1, 3: y2) -/
  biquad : Tab Int
  /-- captured PDM bits kept for the decimation filters, newest first, per channel (R800) -/
  pdm0 : List Bool
  pdm1 : List Bool
  /-- outputs of past frames, newest first: features then each layer -/
  history : List (List (List Int))
  /-- frame number of the frame in progress since listening started (R802) -/
  frame : Nat
  holdClass : Nat
  holdCount : Nat
  /-- judged frames since the last detection, if one has occurred (R822) -/
  sinceDetect : Option Nat
  /-- a detection judged and not yet recorded: class, score, frame -/
  detect : Option (Nat × Int × Nat)
  /-- PDM_CLK changed: the frame in progress holds settling samples (R99) -/
  settling : Bool
  /-- the profile unbound the sentinel while a frame runs (R799) -/
  stopAtEnd : Bool
  deriving DecidableEq, Repr

/-- A sleep entry under way (R856): its target state. -/
structure SleepEntry where
  toSent : Bool
  deriving DecidableEq, Repr

/-- A BAR2 access that arrived while the core domain or T2 had no power or clock (R709). -/
structure HeldAccess where
  off : Nat
  write : Bool
  len : Nat
  data : List Byte
  deriving DecidableEq, Repr

/-- Power control and governor state beside the dictionary (18). -/
structure Power where
  entry : Option SleepEntry
  /-- the management controller is waking (R90) -/
  waking : Bool
  /-- a demand of R861 waits for the exit from S-RET or S-SENT -/
  demand : Bool
  /-- consecutive evaluations of an open Sprint window at or below the sustained cap (R845) -/
  sprintLow : Nat
  /-- F of R847 as an exact fraction, in 1/65536 degrees (log entry 21) -/
  filtNum : Int
  filtDen : Nat
  /-- evaluation intervals spent at level 6 (THERM_LAST_MS) -/
  evalsAt6 : Nat
  /-- consecutive evaluations below the lowering bound (R850) -/
  lowCount : Nat
  /-- the board reading is stale (R848) -/
  boardStale : Bool
  /-- VDD_BAY out of tolerance holds (level cause 4) -/
  vddBad : Bool
  /-- BAR2 accesses that wait for the core domain and T2, oldest first (R709) -/
  held : List HeldAccess
  deriving DecidableEq, Repr

/-- Watchdog state beside the dictionary (R916 to R919). -/
structure Wdt where
  hostExpired : Bool
  fwExpired : Bool
  /-- the timer was serviced, or started afresh, in the slow tick under way (R920) -/
  hostServed : Bool
  fwServed : Bool
  deriving DecidableEq, Repr

/-- Security state beside the dictionary (19). -/
structure Security where
  /-- OEM class keys by sub (R879) -/
  classKeys : Tab Nat
  /-- boot step 1 has derived the storage key and the device wrap key pair (R876) -/
  keys : Bool
  /-- the nonce of DEBUG_CHALLENGE (R890) -/
  nonce : Nat
  /-- scrub-complete record: steps done, 0 to 7; none outside RMA (R873) -/
  scrub : Option Nat
  /-- the state LC_STATE shows until a running LC_TRANSITION completes (R870) -/
  lcHeld : Option Nat
  /-- slow ticks of the latest uncorrectable T2 errors, newest first, per channel (R908) -/
  t2Err0 : List Nat
  t2Err1 : List Nat
  /-- channel out of service from the next boot (R908) -/
  chanBad0 : Bool
  chanBad1 : Bool
  deriving DecidableEq, Repr

/-- What the Q19 sends: answers, messages, memory writes, reports. -/
inductive Output where
  /-- the status of a dictionary write given as a command of its own row -/
  | status (code : Nat)
  /-- an I3C private read: the bytes, or no acknowledge -/
  | i3cRead (bytes : Option (List Byte))
  /-- data a CCC returns -/
  | ccc (bytes : List Byte)
  /-- a CCC or a header that is not acknowledged -/
  | nack
  | hotJoin
  | ibi (byte : Byte)
  | msix (vector : Nat) (addr : BitVec 64) (data : BitVec 32)
  /-- a completion entry written to slot `slot` of quire `q`'s ring; in host memory, by a DMA write with the PASID given
  (R260, R269) -/
  | completion (q : QNum) (pasid : Option Nat) (slot : Nat) (bytes : List Byte)
  /-- a frame written to leaf `leaf` of quire `q`'s T4 window: a DMA write with the quire's PASID at the bus address given,
  with Relaxed Ordering (R255, R260, R667) -/
  | t4Write (q : QNum) (pasid addr : Nat) (leaf : Nat) (frame : List Byte)
  /-- a DMA read request of `len` bytes with quire `q`'s PASID (R260) -/
  | dmaRead (q : QNum) (pasid addr len : Nat)
  /-- bytes written to a peer Q19's BAR2 -/
  | peerWrite (addr : Nat) (bytes : List Byte)
  | barRead (bytes : List Byte)
  | unsupportedRequest
  | completerAbort
  | ltr (us : Nat)
  | linkTraining
  | requestL1
  | jtagRegister (r : JtagReg)
  | jtagIdcode (v : BitVec 32)
  /-- the bits a scan of the boundary register gave on TDO, first bit first -/
  | jtagScan (bits : List Bool)
  | xoViolationDebug
  | pressCompletion (bytes : List Byte)
  deriving DecidableEq, Repr

/-- The state of the Q19. -/
structure State where
  sku : Sku
  power : PowerState
  boot : BootPhase
  pins : Pins
  clk : Clocks
  jtag : Jtag
  i3c : I3c
  fn : PcieFn
  msix : Msix
  mboxes : Vector Mbox 9
  dict : Dict
  /-- profile whose partition, quotas and caps are loaded (R214 step 4) -/
  part : Nat
  switch : Option Switch
  quires : Vector Quire 8
  bays : Vector Bay 8
  st : StitchUnit
  weave : Weave
  nv : Nv
  tiers : Tiers
  sent : Sentinel
  pm : Power
  wdt : Wdt
  sec : Security
  /-- real-time counter in slow ticks since power-on (R251) -/
  rtc : BitVec 64
  /-- the model's own field: index of the next free value (log entry 8) -/
  freeCtr : Nat
  /-- the model's own field: everything sent, oldest first (log entry 7) -/
  out : List Output
  /-- the model's own field: commands waiting, first in, first out -/
  pending : List Instr
  deriving DecidableEq, Repr

/-! ### The state right after reset -/

def Ring.reset : Ring := { head := 0, tail := 0, fetched := [] }

def Quire.reset : Quire :=
  { state := .disabled, rings := Vector.replicate 4 Ring.reset, cqHead := 0, cqTail := 0, phase := true,
    ctrFetched := 0, ctrCompleted := 0, ctrCqFull := 0, ctrDb := 0, started := [], heldCq := [], pwr := .none,
    wakePending := false, grantUs := none, runs := [], nextRun := 0, unified := [], hints := [], train := none, disabling := none }

def Treg.reset : Treg := { entries := [], base := 0, width := .int8, mode := none }

def Engine.reset : Engine :=
  { treg0 := Treg.reset, treg1 := Treg.reset, acc := [], landing := [], epochTag := [], latchBase := 0, latchWidth := .int8 }

def StatSet.reset : StatSet :=
  { max := [], scale := [], pos := 0, lastOp := .none, count1 := 0, sumSq := 0, count2 := 0, achSum := 0, pred := [],
    sat := 0, escapes := 0, nonfinite := 0, hot := 0, rescue := 0, under := 0, rescued := 0, allMax := 0, bexp := 0, flagged := 0,
    written := 0 }

def LoopLevel.reset : LoopLevel := { active := false, remaining := 0, iteration := 0, stride := 0, lo := 0, hi := 0 }

def Seq.reset : Seq :=
  { run := none, pc := 0, stamp := 0, gap := 0, loops := Vector.replicate 4 LoopLevel.reset, arms := [],
    wait := none, waited := 0, ended := false }

def Bay.reset : Bay :=
  { power := .off, step := 0, cache := none, t0 := [], t0Of := none, slots := [], engines := Vector.replicate 4 Engine.reset,
    racc := [], sets := Vector.replicate 4 StatSet.reset, dregs := [], dregDue := [], moverFree := 0, moverCause := .slice, ready := [], late := [], tags := [],
    seq := Seq.reset, epoch := 0, fences := [], moves := [], retestDue := false, retesting := false }

def Mbox.reset : Mbox :=
  { reqIndex := 0, reqSub := 0, reqFlags := 0, reqLength := 0, reqTag := 0, reqData := [], rspState := .idle,
    rspStatus := 0, rspLength := 0, rspTag := 0, rspData := [], irq := false }

/-- The default state of a stitch (R324). -/
def Stitch.reset : Stitch :=
  { count := 0, target := 1, mode := 0, share := 0, poison := false, spec := false, shadow := 0, generation := 0,
    overshoot := 0, savedGen := 0, savedOver := 0, waits := [] }

def Manifest.reset : Manifest :=
  { textId := 0, sections := [], variants := [], imps := [], slots := [], fills := 0, places := [] }

def LibEntry.reset : LibEntry :=
  { state := .empty, kind := 0, peerOk := false, variant := 0, modelId := 0, modelVersion := 0, generation := 0,
    base := none, wrap := 0, stripes := 0, hash := 0, man := Manifest.reset, lost := [], rows := [],
    removeReq := false, signed := [], classId := 0 }

def CommitRec.reset : CommitRec := { slotB := false, seq := 0, crcOk := true }

def BootRegion.reset : BootRegion :=
  { copy0 := CommitRec.reset, copy1 := { slotB := false, seq := 0, crcOk := false }, slotA := none, slotB := some [],
    skipBootsel := false, resetDue := none, lastReset := 1 }

def Nv.reset : Nv :=
  { main := [], lib := [], loads := [], sessions := [], nextSession := 1, blockTab := [], blocks := [], bands := [], ckpt := none,
    moves := [], dirty := [], scrubAt := 0, recs := [], paramUnits := 0, aux := [], press := [], nextOp := 0, units := [], claims := [],
    sparesUsed := [], retired := [], journal := [], otp := [], fwStage := [], boot := BootRegion.reset, ckptDue := false,
    kxFirmware := Config.kxRootHash 1, kxDebug := Config.kxRootHash 2 }

def Tiers.reset : Tiers :=
  { slices := Vector.replicate 8 [], commons := [], t2 := [], rings := [], staging := [], recovery := [],
    extents := [], xo := [], pool := [], jobs := [], readClock := 0, poolLeaves := 512 }

def Weave.reset : Weave :=
  { profile := 0, slot := 0, queues := [], lent := [], sensed := [], sensing := [], aptUsed := [], aptQueue := [], aptBuf := [], aptReads := [],
    tlQueue := [], steps := [] }

def Sentinel.reset : Sentinel :=
  { image := [], biquad := [], pdm0 := [], pdm1 := [], history := [], frame := 0, holdClass := 0, holdCount := 0,
    sinceDetect := none, detect := none, settling := false, stopAtEnd := false }

def Power.reset : Power :=
  { entry := none, waking := false, demand := false, sprintLow := 0, filtNum := 0, filtDen := 1, evalsAt6 := 0, lowCount := 0,
    boardStale := false, vddBad := false, held := [] }

def Security.reset : Security :=
  { classKeys := [], keys := false, nonce := 0, scrub := none, lcHeld := none, t2Err0 := [], t2Err1 := [], chanBad0 := false, chanBad1 := false }

def Wdt.reset : Wdt := { hostExpired := false, fwExpired := false, hostServed := false, fwServed := false }

def I3c.reset : I3c :=
  { intEn := true, hjEn := true, mwl := 263, mrl := 260, hdr := false, protoErr := false, response := [],
    tickets := [], ibis := [] }

/-- The TAP after a TAP reset: IDCODE selected (R100). -/
def Jtag.reset : Jtag :=
  { ir := 1, dr := .idcode, cells := List.replicate 19 false, tap := .testLogicReset, armed := false }

def PcieFn.reset : PcieFn :=
  { dstate := 0, msixEnable := false, funcMask := false, aspmL1 := false, mps := 0, mrrs := 2, ltr := 0, clkreqReleased := true }

def Msix.reset : Msix :=
  { table := Vector.replicate 64 { addr := 0, data := 0, masked := true }, pba := 0 }

/-- The machine right after a power-on reset: the conditions of R63 hold and boot has not run (log entries 1, 14). -/
def State.reset : State :=
  { sku := .q24, power := .sIdle, boot := .waiting,
    pins := { aonUp := true, aonReleased := true, resetN := true, pgood := true, perstN := false, testen := false,
              clkin := true, wakeOut := false, wakeN := false },
    clk := { crystal := false, lowOsc := true, quickOsc := true, bayPll := false, nvPll := true,
             lpddrPll := true, settling := false, clkWait := false },
    jtag := Jtag.reset,
    i3c := I3c.reset, fn := PcieFn.reset, msix := Msix.reset, mboxes := Vector.replicate 9 Mbox.reset,
    dict := { vals := [], staged := [], sets := [], cmds := [], cold := [] },
    part := 0, switch := none, quires := Vector.replicate 8 Quire.reset, bays := Vector.replicate 8 Bay.reset,
    st := { stitches := [], signals := [], poisons := [], aborts := [] },
    weave := Weave.reset, nv := Nv.reset, tiers := Tiers.reset, sent := Sentinel.reset, pm := Power.reset,
    wdt := Wdt.reset, sec := Security.reset, rtc := 0, freeCtr := 0, out := [],
    pending := [] }

end Sys2Proof.Machine
end

