-- ==== Sys2Proof/Machine/Cards.lean ====
section
/-! DEFINITION. The cards of the object dictionary (R924 to R927), read from the entry cards of the owning chapters:
one row per card, the key of each entry, and the default of each entry. -/

namespace Sys2Proof.Machine

/-- The types of R110; `enum8`, `bits32` and the ranges of a card are judged in Operands. -/
inductive Ty where
  | bool
  | uint (bytes : Nat)
  | sint (bytes : Nat)
  | enum8
  | bits32
  | bytes (n : Nat)
  | text (n : Nat)
  /-- argument length, card result length -/
  | cmd (arg res : Nat)
  deriving DecidableEq, Repr

/-- The access codes of R116; `rs` names the index (or offset in the block) of the set's COMMIT. -/
inductive Access where
  | ro
  | rw
  | wo
  | rs (commit : Nat)
  | cmd
  deriving DecidableEq, Repr

/-- The roles a card grants (R120). -/
inductive Grant where
  | none
  | h
  | q
  | hq
  | all
  deriving DecidableEq, Repr

/-- Persistence classes (R126). -/
inductive Cls where
  | v
  | a
  | s
  | f
  deriving DecidableEq, Repr

/-- Response classes (R131). -/
inductive Resp where
  | hot
  | hotRw
  | cold
  deriving DecidableEq, Repr

/-- Where a card's indices stand: at the index itself, in each profile block, in each quire block. -/
inductive Base where
  | abs
  | prof
  | quire
  deriving DecidableEq, Repr

/-- An entry card (R160). -/
structure Card where
  base : Base
  ixLo : Nat
  ixHi : Nat
  subLo : Nat
  subHi : Nat
  ty : Ty
  access : Access
  read : Grant
  write : Grant
  cls : Cls
  resp : Resp
  dflt : Nat
  deriving DecidableEq, Repr

/-! ### Keys: index * 256 + sub of each named entry -/

namespace Key

/-- I3C_DYN_ADDR (R206) -/
def i3cDynAddr : Nat := 0x1b0000
/-- I3C_SETDASA_EN (R206) -/
def i3cSetdasaEn : Nat := 0x1b0100
/-- I3C_HOTJOIN_EN (R206) -/
def i3cHotjoinEn : Nat := 0x1b0200
/-- I3C_IBI_GROUPS (R206) -/
def i3cIbiGroups : Nat := 0x1b0300
/-- I3C_TICKETS_USED (R206) -/
def i3cTicketsUsed : Nat := 0x1b0400
/-- PCIE_LINK (R206) -/
def pcieLink : Nat := 0x1b0800
/-- PCIE_LINK_STATE (R206) -/
def pcieLinkState : Nat := 0x1b0801
/-- PCIE_LINK_SPEED (R206) -/
def pcieLinkSpeed : Nat := 0x1b0802
/-- PCIE_LINK_WIDTH (R206) -/
def pcieLinkWidth : Nat := 0x1b0803
/-- MBOX_VECTOR (R206) -/
def mboxVector : Nat := 0x1b1000
/-- PROF_NAME (R207) -/
def profName (p : Nat) : Nat := (0x1210 + p * 0x10 + 0x0) * 256 + 0x00
/-- PROF_BAY_OWNER (R207), subs 1 to 8 -/
def profBayOwner (p : Nat) (n : Nat) : Nat := (0x1210 + p * 0x10 + 0x1) * 256 + n
/-- PROF_CLOCK_STEP (R207), subs 1 to 8 -/
def profClockStep (p : Nat) (n : Nat) : Nat := (0x1210 + p * 0x10 + 0x2) * 256 + n
/-- PROF_QUOTA_T1 (R207), subs 1 to 8 -/
def profQuotaT1 (p : Nat) (n : Nat) : Nat := (0x1210 + p * 0x10 + 0x3) * 256 + n
/-- PROF_QUOTA_T2 (R207), subs 1 to 8 -/
def profQuotaT2 (p : Nat) (n : Nat) : Nat := (0x1210 + p * 0x10 + 0x4) * 256 + n
/-- PROF_QUOTA_T3 (R207), subs 1 to 8 -/
def profQuotaT3 (p : Nat) (n : Nat) : Nat := (0x1210 + p * 0x10 + 0x5) * 256 + n
/-- PROF_WINDOW_T4 (R207), subs 1 to 8 -/
def profWindowT4 (p : Nat) (n : Nat) : Nat := (0x1210 + p * 0x10 + 0x6) * 256 + n
/-- PROF_WEAVE (R207), subs 1 to 24 -/
def profWeave (p : Nat) (n : Nat) : Nat := (0x1210 + p * 0x10 + 0x7) * 256 + n
/-- PROF_POWER_SUSTAINED (R207) -/
def profPowerSustained (p : Nat) : Nat := (0x1210 + p * 0x10 + 0x8) * 256 + 0x01
/-- PROF_POWER_BURST (R207) -/
def profPowerBurst (p : Nat) : Nat := (0x1210 + p * 0x10 + 0x8) * 256 + 0x02
/-- PROF_BURST_WINDOW (R207) -/
def profBurstWindow (p : Nat) : Nat := (0x1210 + p * 0x10 + 0x8) * 256 + 0x03
/-- PROF_SKIN_LIMIT (R207) -/
def profSkinLimit (p : Nat) : Nat := (0x1210 + p * 0x10 + 0x8) * 256 + 0x04
/-- PROF_SENTINEL_BIND (R207) -/
def profSentinelBind (p : Nat) : Nat := (0x1210 + p * 0x10 + 0x9) * 256 + 0x00
/-- PROF_DEGRADE_OK (R207) -/
def profDegradeOk (p : Nat) : Nat := (0x1210 + p * 0x10 + 0xa) * 256 + 0x00
/-- PROF_RESTORE (R207) -/
def profRestore (p : Nat) : Nat := (0x1210 + p * 0x10 + 0xe) * 256 + 0x00
/-- PROF_COMMIT (R207) -/
def profCommit (p : Nat) : Nat := (0x1210 + p * 0x10 + 0xf) * 256 + 0x00
/-- ACTIVE_PROFILE (R212) -/
def activeProfile : Nat := 0x120000
/-- PROFILE_SWITCH (R212) -/
def profileSwitch : Nat := 0x120100
/-- PROFILE_PIN_LOCK (R212) -/
def profilePinLock : Nat := 0x120200
/-- PROFSEL_SAMPLED (R212) -/
def profselSampled : Nat := 0x120300
/-- SWITCH_PHASE (R212) -/
def switchPhase : Nat := 0x120400
/-- LAST_RESET (R222) -/
def lastReset : Nat := 0x130000
/-- DEVICE_RESET (R222) -/
def deviceReset : Nat := 0x130100
/-- BOOT_SLOT (R222) -/
def bootSlot : Nat := 0x130301
/-- BOOT_MODE (R222) -/
def bootMode : Nat := 0x130302
/-- BOOT_FALLBACK (R222) -/
def bootFallback : Nat := 0x130303
/-- BOOT_TIME (R222) -/
def bootTime : Nat := 0x130304
/-- BOOT_REERASED (R222) -/
def bootReerased : Nat := 0x130305
/-- BOOT_BAY_FAIL (R222) -/
def bootBayFail : Nat := 0x130306
/-- BOOT_BAY_UNMAPPED (R222) -/
def bootBayUnmapped : Nat := 0x130307
/-- FW_SLOT_VERSION (R222), subs 1 to 2 -/
def fwSlotVersion (n : Nat) : Nat := 0x1304 * 256 + n
/-- RECOVERY_LOAD (R222) -/
def recoveryLoad : Nat := 0x130600
/-- VENDOR_NAME (R242) -/
def vendorName : Nat := 0x100000
/-- PRODUCT_NAME (R242) -/
def productName : Nat := 0x100100
/-- SKU (R242) -/
def sku : Nat := 0x100200
/-- SILICON_REV (R242) -/
def siliconRev : Nat := 0x100300
/-- FW_VERSION (R242) -/
def fwVersion : Nat := 0x100400
/-- CONTRACT_REV (R242) -/
def contractRev : Nat := 0x100500
/-- SERIAL (R242) -/
def serial : Nat := 0x100600
/-- DIE_ID (R242), subs 1 to 8 -/
def dieId (n : Nat) : Nat := 0x1007 * 256 + n
/-- LOT_ID (R242) -/
def lotId : Nat := 0x100801
/-- WAFER (R242) -/
def wafer : Nat := 0x100802
/-- JTAG_IDCODE (R242) -/
def jtagIdcode : Nat := 0x100900
/-- COLOPHON_TAG (R243), subs 1 to 4 -/
def colophonTag (n : Nat) : Nat := 0x1080 * 256 + n
/-- COLOPHON_WRITES (R243) -/
def colophonWrites : Nat := 0x108101
/-- COLOPHON_LOCKED (R243) -/
def colophonLocked : Nat := 0x108102
/-- COLOPHON_LOCK (R243) -/
def colophonLock : Nat := 0x108200
/-- Q_STATE (R288) -/
def qState (q : QNum) : Nat := (0x2000 + q.val * 0x100 + 0x0) * 256 + 0x00
/-- Q_ENABLE (R288) -/
def qEnable (q : QNum) : Nat := (0x2000 + q.val * 0x100 + 0x1) * 256 + 0x00
/-- Q_DISABLE (R288) -/
def qDisable (q : QNum) : Nat := (0x2000 + q.val * 0x100 + 0x2) * 256 + 0x00
/-- Q_RESET (R288) -/
def qReset (q : QNum) : Nat := (0x2000 + q.val * 0x100 + 0x3) * 256 + 0x00
/-- Q_DMA_FAULT (R288) -/
def qDmaFault (q : QNum) : Nat := (0x2000 + q.val * 0x100 + 0x4) * 256 + 0x00
/-- Q_WAKES (R288) -/
def qWakes (q : QNum) : Nat := (0x2000 + q.val * 0x100 + 0x8) * 256 + 0x01
/-- Q_WAKES_REFUSED (R288) -/
def qWakesRefused (q : QNum) : Nat := (0x2000 + q.val * 0x100 + 0x8) * 256 + 0x02
/-- Q_WAKES_LATE (R288) -/
def qWakesLate (q : QNum) : Nat := (0x2000 + q.val * 0x100 + 0x8) * 256 + 0x03
/-- Q_SQ_BASE (R288), subs 1 to 4 -/
def qSqBase (q : QNum) (n : Nat) : Nat := (0x2000 + q.val * 0x100 + 0x10) * 256 + n
/-- Q_SQ_SIZE (R288), subs 1 to 4 -/
def qSqSize (q : QNum) (n : Nat) : Nat := (0x2000 + q.val * 0x100 + 0x11) * 256 + n
/-- Q_CQ_BASE (R288) -/
def qCqBase (q : QNum) : Nat := (0x2000 + q.val * 0x100 + 0x12) * 256 + 0x00
/-- Q_CQ_SIZE (R288) -/
def qCqSize (q : QNum) : Nat := (0x2000 + q.val * 0x100 + 0x13) * 256 + 0x00
/-- Q_PASID (R288) -/
def qPasid (q : QNum) : Nat := (0x2000 + q.val * 0x100 + 0x14) * 256 + 0x00
/-- Q_RING_COMMIT (R288) -/
def qRingCommit (q : QNum) : Nat := (0x2000 + q.val * 0x100 + 0x1f) * 256 + 0x00
/-- Q_FAULT_RECORD (R288) -/
def qFaultRecord (q : QNum) : Nat := (0x2000 + q.val * 0x100 + 0x20) * 256 + 0x00
/-- Q_FREEZES (R288) -/
def qFreezes (q : QNum) : Nat := (0x2000 + q.val * 0x100 + 0x21) * 256 + 0x00
/-- Q_STITCH_BASE (R320) -/
def qStitchBase (q : QNum) : Nat := (0x2000 + q.val * 0x100 + 0x40) * 256 + 0x00
/-- Q_STITCH_COUNT (R320) -/
def qStitchCount (q : QNum) : Nat := (0x2000 + q.val * 0x100 + 0x41) * 256 + 0x00
/-- Q_STITCH_CONFIG (R320) -/
def qStitchConfig (q : QNum) : Nat := (0x2000 + q.val * 0x100 + 0x42) * 256 + 0x00
/-- Q_ST_SIGNALS (R320) -/
def qStSignals (q : QNum) : Nat := (0x2000 + q.val * 0x100 + 0x48) * 256 + 0x01
/-- Q_ST_MET (R320) -/
def qStMet (q : QNum) : Nat := (0x2000 + q.val * 0x100 + 0x48) * 256 + 0x02
/-- Q_ST_LATE (R320) -/
def qStLate (q : QNum) : Nat := (0x2000 + q.val * 0x100 + 0x48) * 256 + 0x03
/-- Q_ST_TIMEOUT (R320) -/
def qStTimeout (q : QNum) : Nat := (0x2000 + q.val * 0x100 + 0x48) * 256 + 0x04
/-- Q_ST_RELEASED (R320) -/
def qStReleased (q : QNum) : Nat := (0x2000 + q.val * 0x100 + 0x48) * 256 + 0x05
/-- Q_ST_DISCARDED (R320) -/
def qStDiscarded (q : QNum) : Nat := (0x2000 + q.val * 0x100 + 0x48) * 256 + 0x06
/-- Q_STITCH_COMMIT (R320) -/
def qStitchCommit (q : QNum) : Nat := (0x2000 + q.val * 0x100 + 0x4f) * 256 + 0x00
/-- Q_RUNS (R423) -/
def qRuns (q : QNum) : Nat := (0x2000 + q.val * 0x100 + 0x80) * 256 + 0x00
/-- Q_SLIP_COUNT (R423), subs 1 to 6 -/
def qSlipCount (q : QNum) (n : Nat) : Nat := (0x2000 + q.val * 0x100 + 0x81) * 256 + n
/-- Q_SLIP_CYCLES (R423), subs 1 to 6 -/
def qSlipCycles (q : QNum) (n : Nat) : Nat := (0x2000 + q.val * 0x100 + 0x82) * 256 + n
/-- Q_FALLBACKS (R423) -/
def qFallbacks (q : QNum) : Nat := (0x2000 + q.val * 0x100 + 0x83) * 256 + 0x00
/-- Q_LAST_IMP (R423) -/
def qLastImp (q : QNum) : Nat := (0x2000 + q.val * 0x100 + 0x84) * 256 + 0x01
/-- Q_LAST_HANDLE (R423) -/
def qLastHandle (q : QNum) : Nat := (0x2000 + q.val * 0x100 + 0x84) * 256 + 0x02
/-- Q_LAST_CYCLES (R423) -/
def qLastCycles (q : QNum) : Nat := (0x2000 + q.val * 0x100 + 0x84) * 256 + 0x03
/-- Q_LAST_SLIP (R423) -/
def qLastSlip (q : QNum) : Nat := (0x2000 + q.val * 0x100 + 0x84) * 256 + 0x04
/-- Q_LAST_US (R423) -/
def qLastUs (q : QNum) : Nat := (0x2000 + q.val * 0x100 + 0x84) * 256 + 0x05
/-- Q_RUN_CYCLE (R423) -/
def qRunCycle (q : QNum) : Nat := (0x2000 + q.val * 0x100 + 0x85) * 256 + 0x00
/-- Q_VAL_CODE (R423) -/
def qValCode (q : QNum) : Nat := (0x2000 + q.val * 0x100 + 0x8c) * 256 + 0x01
/-- Q_VAL_IMP (R423) -/
def qValImp (q : QNum) : Nat := (0x2000 + q.val * 0x100 + 0x8c) * 256 + 0x02
/-- Q_VAL_HANDLE (R423) -/
def qValHandle (q : QNum) : Nat := (0x2000 + q.val * 0x100 + 0x8c) * 256 + 0x03
/-- Q_VAL_OFFSET (R423) -/
def qValOffset (q : QNum) : Nat := (0x2000 + q.val * 0x100 + 0x8c) * 256 + 0x04
/-- Q_SPEC_OPENED (R550) -/
def qSpecOpened (q : QNum) : Nat := (0x2000 + q.val * 0x100 + 0xa0) * 256 + 0x01
/-- Q_SPEC_COMMITS (R550) -/
def qSpecCommits (q : QNum) : Nat := (0x2000 + q.val * 0x100 + 0xa0) * 256 + 0x02
/-- Q_SPEC_CANCELS (R550) -/
def qSpecCancels (q : QNum) : Nat := (0x2000 + q.val * 0x100 + 0xa0) * 256 + 0x03
/-- Q_SPEC_LEAVES (R550) -/
def qSpecLeaves (q : QNum) : Nat := (0x2000 + q.val * 0x100 + 0xa0) * 256 + 0x04
/-- Q_SPEC_KEPT (R550) -/
def qSpecKept (q : QNum) : Nat := (0x2000 + q.val * 0x100 + 0xa0) * 256 + 0x05
/-- Q_SPEC_VOID (R550) -/
def qSpecVoid (q : QNum) : Nat := (0x2000 + q.val * 0x100 + 0xa0) * 256 + 0x06
/-- Q_SPEC_DROPPED (R550) -/
def qSpecDropped (q : QNum) : Nat := (0x2000 + q.val * 0x100 + 0xa0) * 256 + 0x07
/-- Q_DRAFT_ACCEPT (R550), subs 1 to 9 -/
def qDraftAccept (q : QNum) (n : Nat) : Nat := (0x2000 + q.val * 0x100 + 0xa1) * 256 + n
/-- Q_SPEC_OVERRANGE (R550) -/
def qSpecOverrange (q : QNum) : Nat := (0x2000 + q.val * 0x100 + 0xa2) * 256 + 0x00
/-- NV_DIES (R599) -/
def nvDies : Nat := 0x160001
/-- NV_PLANES_PER_DIE (R599) -/
def nvPlanesPerDie : Nat := 0x160002
/-- NV_BANK_GROUPS (R599) -/
def nvBankGroups : Nat := 0x160003
/-- NV_ROWS_PER_BAND (R599) -/
def nvRowsPerBand : Nat := 0x160004
/-- NV_BANDS_PER_GROUP (R599) -/
def nvBandsPerGroup : Nat := 0x160005
/-- NV_BLOCKS_PER_BANK (R599) -/
def nvBlocksPerBank : Nat := 0x160006
/-- T3_SERVICE_MIB (R599) -/
def t3ServiceMib : Nat := 0x160101
/-- T3_FREE_MIB (R599) -/
def t3FreeMib : Nat := 0x160102
/-- T3_XO_MIB (R599) -/
def t3XoMib : Nat := 0x160103
/-- T3_OPEN_MIB (R599) -/
def t3OpenMib : Nat := 0x160104
/-- BG_STATE (R599), subs 1 to 12 -/
def bgState (n : Nat) : Nat := 0x1602 * 256 + n
/-- BG_CLAIMED (R599) -/
def bgClaimed : Nat := 0x160300
/-- BG_BUSY (R599) -/
def bgBusy : Nat := 0x160400
/-- SPARE_PLANES (R599), subs 1 to 6 -/
def sparePlanes (n : Nat) : Nat := 0x1605 * 256 + n
/-- RATED_MAIN_CYCLES (R599) -/
def ratedMainCycles : Nat := 0x160601
/-- RATED_AUX_CYCLES (R599) -/
def ratedAuxCycles : Nat := 0x160602
/-- RATED_BAND_READS (R599) -/
def ratedBandReads : Nat := 0x160603
/-- RATED_RETENTION (R599) -/
def ratedRetention : Nat := 0x160604
/-- T3_WINDOW (R599) -/
def t3Window : Nat := 0x160800
/-- APT_XO (R599) -/
def aptXo : Nat := 0x160901
/-- APT_BUSY (R599) -/
def aptBusy : Nat := 0x160902
/-- APT_RANGE (R599) -/
def aptRange : Nat := 0x160903
/-- APT_WRITES (R599) -/
def aptWrites : Nat := 0x160904
/-- APT_LAST_CAUSE (R599) -/
def aptLastCause : Nat := 0x160905
/-- APT_LAST_LEAF (R599) -/
def aptLastLeaf : Nat := 0x160906
/-- PRESS_SUBMIT_H (R656) -/
def pressSubmitH : Nat := 0x161000
/-- PRESS_SUBMIT_Q (R656), subs 1 to 8 -/
def pressSubmitQ (n : Nat) : Nat := 0x1611 * 256 + n
/-- PRESS_RING_USED (R656) -/
def pressRingUsed : Nat := 0x161201
/-- PRESS_SUSPENDS (R656) -/
def pressSuspends : Nat := 0x161202
/-- PRESS_PROGRAM_FAILS (R656) -/
def pressProgramFails : Nat := 0x161203
/-- PRESS_ERASE_FAILS (R656) -/
def pressEraseFails : Nat := 0x161204
/-- PRESS_BYTES (R656) -/
def pressBytes : Nat := 0x161205
/-- TL_REFRESH_START (R656) -/
def tlRefreshStart : Nat := 0x161401
/-- TL_SCRUB_DAYS (R656) -/
def tlScrubDays : Nat := 0x161402
/-- TL_REFRESHES (R656) -/
def tlRefreshes : Nat := 0x161501
/-- TL_REFRESH_QUEUED (R656) -/
def tlRefreshQueued : Nat := 0x161502
/-- TL_OVER_RATED (R656) -/
def tlOverRated : Nat := 0x161503
/-- TL_RESCUES (R656) -/
def tlRescues : Nat := 0x161504
/-- TL_LEAVES_LOST (R656) -/
def tlLeavesLost : Nat := 0x161505
/-- TL_ERASE_DEFERRED (R656) -/
def tlEraseDeferred : Nat := 0x161506
/-- TL_SCRUB_AGE (R656) -/
def tlScrubAge : Nat := 0x161507
/-- TL_WEAR_MOVES (R656) -/
def tlWearMoves : Nat := 0x161508
/-- BAND_READS_MAX (R656), subs 1 to 12 -/
def bandReadsMax (n : Nat) : Nat := 0x1616 * 256 + n
/-- BLOCK_CYCLES_MAX (R656), subs 1 to 12 -/
def blockCyclesMax (n : Nat) : Nat := 0x1617 * 256 + n
/-- FW_STAGE_OFFSET (R656) -/
def fwStageOffset : Nat := 0x161800
/-- FW_STAGE_DATA (R656) -/
def fwStageData : Nat := 0x161900
/-- FW_UPDATE (R656) -/
def fwUpdate : Nat := 0x161a00
/-- PARAM_USABLE (R656) -/
def paramUsable : Nat := 0x161b01
/-- PARAM_ERASED (R656) -/
def paramErased : Nat := 0x161b02
/-- PARAM_CYCLES_MAX (R656) -/
def paramCyclesMax : Nat := 0x161b03
/-- PARAM_COMPACTIONS (R656) -/
def paramCompactions : Nat := 0x161b04
/-- Q_QUOTA (R713), subs 1 to 4 -/
def qQuota (q : QNum) (n : Nat) : Nat := (0x2000 + q.val * 0x100 + 0x60) * 256 + n
/-- Q_PLACEMENT (R713) -/
def qPlacement (q : QNum) : Nat := (0x2000 + q.val * 0x100 + 0x61) * 256 + 0x00
/-- Q_LATE_POLICY (R713) -/
def qLatePolicy (q : QNum) : Nat := (0x2000 + q.val * 0x100 + 0x62) * 256 + 0x00
/-- Q_T4_BASE (R713) -/
def qT4Base (q : QNum) : Nat := (0x2000 + q.val * 0x100 + 0x63) * 256 + 0x00
/-- Q_PROMOTE (R713) -/
def qPromote (q : QNum) : Nat := (0x2000 + q.val * 0x100 + 0x64) * 256 + 0x00
/-- Q_TIER_COMMIT (R713) -/
def qTierCommit (q : QNum) : Nat := (0x2000 + q.val * 0x100 + 0x6f) * 256 + 0x00
/-- Q_USED (R713), subs 1 to 3 -/
def qUsed (q : QNum) (n : Nat) : Nat := (0x2000 + q.val * 0x100 + 0x70) * 256 + n
/-- Q_TM_PROMOTED (R713) -/
def qTmPromoted (q : QNum) : Nat := (0x2000 + q.val * 0x100 + 0x71) * 256 + 0x01
/-- Q_TM_DEMOTED (R713) -/
def qTmDemoted (q : QNum) : Nat := (0x2000 + q.val * 0x100 + 0x71) * 256 + 0x02
/-- Q_TM_DEFERRED (R713) -/
def qTmDeferred (q : QNum) : Nat := (0x2000 + q.val * 0x100 + 0x71) * 256 + 0x03
/-- Q_TM_SKIPPED (R713) -/
def qTmSkipped (q : QNum) : Nat := (0x2000 + q.val * 0x100 + 0x71) * 256 + 0x04
/-- Q_POOL_HITS (R713) -/
def qPoolHits (q : QNum) : Nat := (0x2000 + q.val * 0x100 + 0x71) * 256 + 0x05
/-- Q_POOL_MISSES (R713) -/
def qPoolMisses (q : QNum) : Nat := (0x2000 + q.val * 0x100 + 0x71) * 256 + 0x06
/-- T1_LEAVES (R716) -/
def t1Leaves : Nat := 0x170001
/-- T1_QUOTA_CAP (R716) -/
def t1QuotaCap : Nat := 0x170002
/-- T2_QUOTA_CAP (R716) -/
def t2QuotaCap : Nat := 0x170003
/-- T1_FREE (R716) -/
def t1Free : Nat := 0x170004
/-- T2_FREE (R716) -/
def t2Free : Nat := 0x170005
/-- ZERO_BACKLOG (R716) -/
def zeroBacklog : Nat := 0x170006
/-- T1_SHARED_POOL (R716) -/
def t1SharedPool : Nat := 0x170100
/-- T2_INLINE_ECC (R716) -/
def t2InlineEcc : Nat := 0x170201
/-- T2_ECC_ACTIVE (R716) -/
def t2EccActive : Nat := 0x170202
/-- T2_CHANNELS (R716) -/
def t2Channels : Nat := 0x170203
/-- POOL_USED (R716) -/
def poolUsed : Nat := 0x170301
/-- POOL_PINNED (R716) -/
def poolPinned : Nat := 0x170302
/-- POOL_EVICTIONS (R716) -/
def poolEvictions : Nat := 0x170303
/-- BAR2_WIN0_QUIRE (R716) -/
def bar2Win0Quire : Nat := 0x170801
/-- BAR2_WIN0_ADDR (R716) -/
def bar2Win0Addr : Nat := 0x170802
/-- BAR2_WIN1_QUIRE (R716) -/
def bar2Win1Quire : Nat := 0x170803
/-- BAR2_WIN1_ADDR (R716) -/
def bar2Win1Addr : Nat := 0x170804
/-- LIB_INSTALLED (R769) -/
def libInstalled : Nat := 0x180001
/-- LIB_LOADS (R769) -/
def libLoads : Nat := 0x180002
/-- LIB_STAGING (R769) -/
def libStaging : Nat := 0x180003
/-- LIB_ENTRY (R769), subs 1 to 64 -/
def libEntry (n : Nat) : Nat := 0x1801 * 256 + n
/-- LIB_HASH (R769), subs 1 to 64 -/
def libHash (n : Nat) : Nat := 0x1802 * 256 + n
/-- LIB_LINK_MASK (R769), subs 1 to 64 -/
def libLinkMask (n : Nat) : Nat := 0x1803 * 256 + n
/-- LIB_REMOVE (R769) -/
def libRemove : Nat := 0x180400
/-- PEER_ACCEPT (R769) -/
def peerAccept : Nat := 0x180800
/-- PEER_EXPORT (R769) -/
def peerExport : Nat := 0x180900
/-- Q_HANDLE (R770), subs 1 to 64 -/
def qHandle (q : QNum) (n : Nat) : Nat := (0x2000 + q.val * 0x100 + 0xb0) * 256 + n
/-- Q_HANDLE_VARIANT (R770), subs 1 to 64 -/
def qHandleVariant (q : QNum) (n : Nat) : Nat := (0x2000 + q.val * 0x100 + 0xb1) * 256 + n
/-- Q_LOAD_REPORT (R770) -/
def qLoadReport (q : QNum) : Nat := (0x2000 + q.val * 0x100 + 0xb2) * 256 + 0x00
/-- Q_LOADS_DONE (R770) -/
def qLoadsDone (q : QNum) : Nat := (0x2000 + q.val * 0x100 + 0xb3) * 256 + 0x01
/-- Q_LOADS_FAILED (R770) -/
def qLoadsFailed (q : QNum) : Nat := (0x2000 + q.val * 0x100 + 0xb3) * 256 + 0x02
/-- Q_TRAIN_PHASE (R791) -/
def qTrainPhase (q : QNum) : Nat := (0x2000 + q.val * 0x100 + 0xc0) * 256 + 0x00
/-- Q_TRAIN_LAST (R791) -/
def qTrainLast (q : QNum) : Nat := (0x2000 + q.val * 0x100 + 0xc1) * 256 + 0x00
/-- Q_TRAIN_COMMITS (R791) -/
def qTrainCommits (q : QNum) : Nat := (0x2000 + q.val * 0x100 + 0xc2) * 256 + 0x01
/-- Q_TRAIN_FAILED (R791) -/
def qTrainFailed (q : QNum) : Nat := (0x2000 + q.val * 0x100 + 0xc2) * 256 + 0x02
/-- SENT_STATE (R832) -/
def sentState : Nat := 0x190001
/-- SENT_BOUND (R832) -/
def sentBound : Nat := 0x190002
/-- SENT_ENTRY (R832) -/
def sentEntry : Nat := 0x190003
/-- SENT_FRAME_CYCLES (R832) -/
def sentFrameCycles : Nat := 0x190004
/-- SENT_FRAME_MS (R832) -/
def sentFrameMs : Nat := 0x190005
/-- SENT_ENABLE (R832) -/
def sentEnable : Nat := 0x190100
/-- SENT_ARM (R832) -/
def sentArm : Nat := 0x190200
/-- SENT_DISARM (R832) -/
def sentDisarm : Nat := 0x190300
/-- SENT_THRESH (R832) -/
def sentThresh : Nat := 0x190401
/-- SENT_HOLD (R832) -/
def sentHold : Nat := 0x190402
/-- SENT_REFRACT (R832) -/
def sentRefract : Nat := 0x190403
/-- SENT_WAKE_CFG (R832) -/
def sentWakeCfg : Nat := 0x190500
/-- SENT_VECTOR (R832) -/
def sentVector : Nat := 0x190600
/-- SENT_WAKE_ASSERTED (R832) -/
def sentWakeAsserted : Nat := 0x190700
/-- SENT_LAST_CLASS (R832) -/
def sentLastClass : Nat := 0x190801
/-- SENT_LAST_SCORE (R832) -/
def sentLastScore : Nat := 0x190802
/-- SENT_LAST_FRAME (R832) -/
def sentLastFrame : Nat := 0x190803
/-- SENT_LAST_RTC (R832) -/
def sentLastRtc : Nat := 0x190804
/-- SENT_FRAMES (R832) -/
def sentFrames : Nat := 0x190901
/-- SENT_FRAMES_SKIPPED (R832) -/
def sentFramesSkipped : Nat := 0x190902
/-- SENT_DETECTIONS (R832) -/
def sentDetections : Nat := 0x190903
/-- SENT_CORR_FAULTS (R832) -/
def sentCorrFaults : Nat := 0x190904
/-- SENT_GEN_POLY (R832), subs 1 to 32 -/
def sentGenPoly (n : Nat) : Nat := 0x190a * 256 + n
/-- SENT_HB_COEF (R832), subs 1 to 12 -/
def sentHbCoef (n : Nat) : Nat := 0x190b * 256 + n
/-- PWR_STATE (R864) -/
def pwrState : Nat := 0x140001
/-- PWR_EST_MW (R864) -/
def pwrEstMw : Nat := 0x140002
/-- PWR_CAP_MW (R864) -/
def pwrCapMw : Nat := 0x140003
/-- PWR_SPRINT (R864) -/
def pwrSprint : Nat := 0x140004
/-- PWR_BAYS_RUNNING (R864) -/
def pwrBaysRunning : Nat := 0x140005
/-- PWR_BAYS_POWERED (R864) -/
def pwrBaysPowered : Nat := 0x140006
/-- PWR_VSEL (R864) -/
def pwrVsel : Nat := 0x140007
/-- PWR_REQUEST (R864) -/
def pwrRequest : Nat := 0x140100
/-- PWR_GATE_TO_OFF_US (R864) -/
def pwrGateToOffUs : Nat := 0x141000
/-- PWR_PLL_OFF_US (R864) -/
def pwrPllOffUs : Nat := 0x141100
/-- PWR_HOST_CAP_MW (R864) -/
def pwrHostCapMw : Nat := 0x141200
/-- PWR_COMMIT (R864) -/
def pwrCommit : Nat := 0x141f00
/-- PWR_RET_ENTRIES (R864) -/
def pwrRetEntries : Nat := 0x142001
/-- PWR_SENT_ENTRIES (R864) -/
def pwrSentEntries : Nat := 0x142002
/-- PWR_ABANDONED (R864) -/
def pwrAbandoned : Nat := 0x142003
/-- PWR_SPRINTS (R864) -/
def pwrSprints : Nat := 0x142004
/-- THERM_SKIN_EST (R865) -/
def thermSkinEst : Nat := 0x150001
/-- THERM_DIE_MAX (R865) -/
def thermDieMax : Nat := 0x150002
/-- THERM_FILTERED (R865) -/
def thermFiltered : Nat := 0x150003
/-- THERM_LEVEL (R865) -/
def thermLevel : Nat := 0x150004
/-- THERM_LIMIT (R865) -/
def thermLimit : Nat := 0x150005
/-- THERM_BOARD_TEMP (R865) -/
def thermBoardTemp : Nat := 0x150100
/-- THERM_COUPLING (R865) -/
def thermCoupling : Nat := 0x150201
/-- THERM_TAU_S (R865) -/
def thermTauS : Nat := 0x150202
/-- THERM_BOARD_TIMEOUT (R865) -/
def thermBoardTimeout : Nat := 0x150203
/-- THERM_RAISES (R865) -/
def thermRaises : Nat := 0x150301
/-- THERM_LAST_MS (R865) -/
def thermLastMs : Nat := 0x150302
/-- THERM_BOARD_STALE (R865) -/
def thermBoardStale : Nat := 0x150303
/-- LC_STATE (R894) -/
def lcState : Nat := 0x110000
/-- LC_TRANSITION (R894) -/
def lcTransition : Nat := 0x110100
/-- LC_RMA_SCRUB (R894) -/
def lcRmaScrub : Nat := 0x110200
/-- DEV_WRAP_PUB (R894) -/
def devWrapPub : Nat := 0x110300
/-- ROOT_HASH_SLOT (R894), subs 1 to 4 -/
def rootHashSlot (n : Nat) : Nat := 0x1104 * 256 + n
/-- ROOT_STATE_SLOT (R894), subs 1 to 4 -/
def rootStateSlot (n : Nat) : Nat := 0x1105 * 256 + n
/-- ARB_FW_VALUE (R894) -/
def arbFwValue : Nat := 0x110601
/-- ARB_SC_VALUE (R894) -/
def arbScValue : Nat := 0x110602
/-- ARB_ADVANCE (R894) -/
def arbAdvance : Nat := 0x110700
/-- OEM_REGION (R894), subs 1 to 4 -/
def oemRegion (n : Nat) : Nat := 0x1108 * 256 + n
/-- CLASS_KEY (R894), subs 1 to 4 -/
def classKey (n : Nat) : Nat := 0x1109 * 256 + n
/-- CLASS_ID (R894), subs 1 to 4 -/
def classId (n : Nat) : Nat := 0x110a * 256 + n
/-- KX_ROOT_HASH (R894), subs 1 to 2 -/
def kxRootHash (n : Nat) : Nat := 0x110b * 256 + n
/-- DEBUG_STATE (R894) -/
def debugState : Nat := 0x110c00
/-- DEBUG_CHALLENGE (R894) -/
def debugChallenge : Nat := 0x110d00
/-- DEBUG_UNLOCK (R894) -/
def debugUnlock : Nat := 0x110e00
/-- DEBUG_UNLOCK_FAILS (R894) -/
def debugUnlockFails : Nat := 0x110f00
/-- WDT_STATE (R922) -/
def wdtState : Nat := 0x1a0001
/-- WDT_CAUSE (R922) -/
def wdtCause : Nat := 0x1a0002
/-- WDT_STAGE1_COUNT (R922) -/
def wdtStage1Count : Nat := 0x1a0003
/-- WDT_SERVICE (R922) -/
def wdtService : Nat := 0x1a0100
/-- WDT_PERIOD_MS (R922) -/
def wdtPeriodMs : Nat := 0x1a0201
/-- WDT_GRACE_MS (R922) -/
def wdtGraceMs : Nat := 0x1a0202
/-- WDT_SLEEP_PAUSE (R922) -/
def wdtSleepPause : Nat := 0x1a0203
/-- WDT_VECTOR (R922) -/
def wdtVector : Nat := 0x1a0300
/-- ALERT_CAUSE (R923) -/
def alertCause : Nat := 0x1c0000
/-- ALERT_MASK (R923) -/
def alertMask : Nat := 0x1c0100
/-- ALERT_CLEAR (R923) -/
def alertClear : Nat := 0x1c0200
/-- NV_CORRECTED (R923) -/
def nvCorrected : Nat := 0x1c0801
/-- NV_RETRIES (R923) -/
def nvRetries : Nat := 0x1c0802
/-- NV_UNCORR (R923) -/
def nvUncorr : Nat := 0x1c0803
/-- SRAM_CORRECTED (R923) -/
def sramCorrected : Nat := 0x1c0804
/-- SRAM_UNCORR (R923) -/
def sramUncorr : Nat := 0x1c0805
/-- FABRIC_CORRECTED (R923) -/
def fabricCorrected : Nat := 0x1c0806
/-- FABRIC_UNCORR (R923) -/
def fabricUncorr : Nat := 0x1c0807
/-- T2_CORRECTED (R923) -/
def t2Corrected : Nat := 0x1c0808
/-- T2_UNCORR (R923) -/
def t2Uncorr : Nat := 0x1c0809
/-- BAY_PARITY (R923) -/
def bayParity : Nat := 0x1c080a
/-- DICT_ROLE (R923) -/
def dictRole : Nat := 0x1c1001
/-- DICT_BUSY (R923) -/
def dictBusy : Nat := 0x1c1002
/-- MBOX_DISCARDS (R923) -/
def mboxDiscards : Nat := 0x1c1003
/-- I3C_PROTOCOL_ERRS (R923) -/
def i3cProtocolErrs : Nat := 0x1c1004
/-- BAR0_RESERVED_WRITES (R923) -/
def bar0ReservedWrites : Nat := 0x1c1005
/-- BAR2_DISCARDS (R923) -/
def bar2Discards : Nat := 0x1c1006
/-- HOST_WRITES_DROPPED (R923) -/
def hostWritesDropped : Nat := 0x1c1007
/-- VSEL_SETTLE_FAILS (R923) -/
def vselSettleFails : Nat := 0x1c1801
/-- CLKIN_LOSSES (R923) -/
def clkinLosses : Nat := 0x1c1802
/-- CLKIN_WAITS (R923) -/
def clkinWaits : Nat := 0x1c1803
/-- XTAL_RUNNING (R923) -/
def xtalRunning : Nat := 0x1c1804
/-- DIE_TEMP_HIGH (R923) -/
def dieTempHigh : Nat := 0x1c1805
/-- DIAG_BAY_MAP (R923), subs 1 to 8 -/
def diagBayMap (n : Nat) : Nat := 0x1c20 * 256 + n
/-- DIAG_BAY_RECORD (R923) -/
def diagBayRecord : Nat := 0x1c2100
/-- DIAG_SHORT_QUIRES (R923) -/
def diagShortQuires : Nat := 0x1c2200
/-- DIAG_T2_REFUSED (R923) -/
def diagT2Refused : Nat := 0x1c2300

end Key

def absCardsInterfaces : List Card :=
  [⟨.abs, 0x1b00, 0x1b00, 0, 0, (.uint 1), .ro, .all, .none, .a, .hot, 0x0⟩,
   ⟨.abs, 0x1b01, 0x1b01, 0, 0, .bool, .rw, .h, .h, .s, .cold, 0x1⟩,
   ⟨.abs, 0x1b02, 0x1b02, 0, 0, .bool, .rw, .h, .h, .s, .cold, 0x1⟩,
   ⟨.abs, 0x1b03, 0x1b03, 0, 0, .bits32, .rw, .h, .h, .a, .hotRw, 0xf⟩,
   ⟨.abs, 0x1b04, 0x1b04, 0, 0, (.uint 1), .ro, .all, .none, .a, .hot, 0x0⟩,
   ⟨.abs, 0x1b08, 0x1b08, 0, 0, (.uint 1), .ro, .all, .none, .f, .hot, 0x3⟩,
   ⟨.abs, 0x1b08, 0x1b08, 1, 1, .enum8, .ro, .all, .none, .v, .hot, 0x0⟩,
   ⟨.abs, 0x1b08, 0x1b08, 2, 2, .enum8, .ro, .all, .none, .v, .hot, 0x0⟩,
   ⟨.abs, 0x1b08, 0x1b08, 3, 3, (.uint 1), .ro, .all, .none, .v, .hot, 0x0⟩,
   ⟨.abs, 0x1b10, 0x1b10, 0, 0, (.uint 1), .rw, .h, .h, .a, .hotRw, 0xff⟩]

def profCardsBoot : List Card :=
  [⟨.prof, 0x0, 0x0, 0, 0, (.text 16), (.rs 0xf), .hq, .h, .s, .cold, 0x0⟩,
   ⟨.prof, 0x1, 0x1, 1, 8, (.uint 1), (.rs 0xf), .hq, .h, .s, .cold, 0x0⟩,
   ⟨.prof, 0x2, 0x2, 1, 8, (.uint 2), (.rs 0xf), .hq, .h, .s, .cold, 0x0⟩,
   ⟨.prof, 0x3, 0x3, 1, 8, (.uint 4), (.rs 0xf), .hq, .h, .s, .cold, 0x0⟩,
   ⟨.prof, 0x4, 0x4, 1, 8, (.uint 4), (.rs 0xf), .hq, .h, .s, .cold, 0x0⟩,
   ⟨.prof, 0x5, 0x5, 1, 8, (.uint 4), (.rs 0xf), .hq, .h, .s, .cold, 0x0⟩,
   ⟨.prof, 0x6, 0x6, 1, 8, (.uint 4), (.rs 0xf), .hq, .h, .s, .cold, 0x0⟩,
   ⟨.prof, 0x7, 0x7, 1, 24, (.bytes 256), (.rs 0xf), .hq, .h, .s, .cold, 0x0⟩,
   ⟨.prof, 0x8, 0x8, 1, 1, (.uint 4), (.rs 0xf), .hq, .h, .s, .cold, 0x0⟩,
   ⟨.prof, 0x8, 0x8, 2, 2, (.uint 4), (.rs 0xf), .hq, .h, .s, .cold, 0x0⟩,
   ⟨.prof, 0x8, 0x8, 3, 3, (.uint 2), (.rs 0xf), .hq, .h, .s, .cold, 0x0⟩,
   ⟨.prof, 0x8, 0x8, 4, 4, (.sint 4), (.rs 0xf), .hq, .h, .s, .cold, 0x0⟩,
   ⟨.prof, 0x9, 0x9, 0, 0, .bool, (.rs 0xf), .hq, .h, .s, .cold, 0x0⟩,
   ⟨.prof, 0xa, 0xa, 0, 0, .bool, (.rs 0xf), .hq, .h, .s, .cold, 0x0⟩,
   ⟨.prof, 0xe, 0xe, 0, 0, (.cmd 0 0), .cmd, .h, .h, .v, .cold, 0x0⟩,
   ⟨.prof, 0xf, 0xf, 0, 0, (.cmd 1 4), .cmd, .h, .h, .v, .cold, 0x0⟩]

def absCardsBoot : List Card :=
  [⟨.abs, 0x1200, 0x1200, 0, 0, (.uint 1), .ro, .all, .none, .a, .hot, 0x0⟩,
   ⟨.abs, 0x1201, 0x1201, 0, 0, (.cmd 4 4), .cmd, .h, .h, .v, .cold, 0x0⟩,
   ⟨.abs, 0x1202, 0x1202, 0, 0, .bool, .rw, .h, .h, .s, .cold, 0x0⟩,
   ⟨.abs, 0x1203, 0x1203, 0, 0, (.uint 1), .ro, .all, .none, .a, .hot, 0x0⟩,
   ⟨.abs, 0x1204, 0x1204, 0, 0, .enum8, .ro, .all, .none, .v, .hot, 0x0⟩,
   ⟨.abs, 0x1300, 0x1300, 0, 0, .enum8, .ro, .all, .none, .v, .hot, 0x0⟩,
   ⟨.abs, 0x1301, 0x1301, 0, 0, (.cmd 4 0), .cmd, .h, .h, .v, .cold, 0x0⟩,
   ⟨.abs, 0x1303, 0x1303, 1, 1, .enum8, .ro, .all, .none, .v, .hot, 0x0⟩,
   ⟨.abs, 0x1303, 0x1303, 2, 2, .enum8, .ro, .all, .none, .v, .hot, 0x0⟩,
   ⟨.abs, 0x1303, 0x1303, 3, 3, .bool, .ro, .all, .none, .v, .hot, 0x0⟩,
   ⟨.abs, 0x1303, 0x1303, 4, 4, (.uint 4), .ro, .all, .none, .v, .hot, 0x0⟩,
   ⟨.abs, 0x1303, 0x1303, 5, 5, (.uint 2), .ro, .all, .none, .v, .hot, 0x0⟩,
   ⟨.abs, 0x1303, 0x1303, 6, 6, .bits32, .ro, .all, .none, .v, .hot, 0x0⟩,
   ⟨.abs, 0x1303, 0x1303, 7, 7, .bits32, .ro, .all, .none, .v, .hot, 0x0⟩,
   ⟨.abs, 0x1304, 0x1304, 1, 2, (.uint 4), .ro, .all, .none, .v, .cold, 0x0⟩,
   ⟨.abs, 0x1306, 0x1306, 0, 0, (.cmd 4 0), .cmd, .h, .h, .v, .cold, 0x0⟩,
   ⟨.abs, 0x1000, 0x1000, 0, 0, (.text 16), .ro, .all, .none, .f, .hot, 0x78656f646e6f6c4b⟩,
   ⟨.abs, 0x1001, 0x1001, 0, 0, (.text 16), .ro, .all, .none, .f, .hot, 0x0⟩,
   ⟨.abs, 0x1002, 0x1002, 0, 0, .enum8, .ro, .all, .none, .f, .hot, 0x0⟩,
   ⟨.abs, 0x1003, 0x1003, 0, 0, (.uint 1), .ro, .all, .none, .f, .hot, 0xb1⟩,
   ⟨.abs, 0x1004, 0x1004, 0, 0, (.uint 4), .ro, .all, .none, .v, .hot, 0x0⟩,
   ⟨.abs, 0x1005, 0x1005, 0, 0, (.uint 1), .ro, .all, .none, .f, .hot, 0x3⟩,
   ⟨.abs, 0x1006, 0x1006, 0, 0, (.uint 8), .ro, .all, .none, .f, .hot, 0x0⟩,
   ⟨.abs, 0x1007, 0x1007, 1, 8, (.uint 8), .ro, .all, .none, .f, .hot, 0x0⟩,
   ⟨.abs, 0x1008, 0x1008, 1, 1, (.text 12), .ro, .all, .none, .f, .hot, 0x0⟩,
   ⟨.abs, 0x1008, 0x1008, 2, 2, (.uint 1), .ro, .all, .none, .f, .hot, 0x0⟩,
   ⟨.abs, 0x1009, 0x1009, 0, 0, (.uint 4), .ro, .all, .none, .f, .hot, 0x0⟩,
   ⟨.abs, 0x1080, 0x1080, 1, 4, (.bytes 64), .rw, .all, .h, .s, .cold, 0x0⟩,
   ⟨.abs, 0x1081, 0x1081, 1, 1, (.uint 4), .ro, .all, .none, .s, .hot, 0x0⟩,
   ⟨.abs, 0x1081, 0x1081, 2, 2, .bool, .ro, .all, .none, .s, .hot, 0x0⟩,
   ⟨.abs, 0x1082, 0x1082, 0, 0, (.cmd 4 0), .cmd, .h, .h, .v, .cold, 0x0⟩]

def quireCardsQueues : List Card :=
  [⟨.quire, 0x0, 0x0, 0, 0, .enum8, .ro, .hq, .none, .v, .hot, 0x0⟩,
   ⟨.quire, 0x1, 0x1, 0, 0, (.cmd 0 0), .cmd, .h, .h, .v, .cold, 0x0⟩,
   ⟨.quire, 0x2, 0x2, 0, 0, (.cmd 1 4), .cmd, .hq, .hq, .v, .cold, 0x0⟩,
   ⟨.quire, 0x3, 0x3, 0, 0, (.cmd 0 4), .cmd, .h, .h, .v, .cold, 0x0⟩,
   ⟨.quire, 0x4, 0x4, 0, 0, (.cmd 8 0), .cmd, .h, .h, .v, .cold, 0x0⟩,
   ⟨.quire, 0x8, 0x8, 1, 1, (.uint 4), .ro, .hq, .none, .v, .hot, 0x0⟩,
   ⟨.quire, 0x8, 0x8, 2, 2, (.uint 4), .ro, .hq, .none, .v, .hot, 0x0⟩,
   ⟨.quire, 0x8, 0x8, 3, 3, (.uint 4), .ro, .hq, .none, .v, .hot, 0x0⟩,
   ⟨.quire, 0x10, 0x10, 1, 4, (.uint 8), (.rs 0x1f), .hq, .h, .v, .cold, 0x0⟩,
   ⟨.quire, 0x11, 0x11, 1, 4, (.uint 2), (.rs 0x1f), .hq, .h, .v, .cold, 0x0⟩,
   ⟨.quire, 0x12, 0x12, 0, 0, (.uint 8), (.rs 0x1f), .hq, .h, .v, .cold, 0x0⟩,
   ⟨.quire, 0x13, 0x13, 0, 0, (.uint 2), (.rs 0x1f), .hq, .h, .v, .cold, 0x0⟩,
   ⟨.quire, 0x14, 0x14, 0, 0, (.uint 4), (.rs 0x1f), .hq, .h, .v, .cold, 0x0⟩,
   ⟨.quire, 0x1f, 0x1f, 0, 0, (.cmd 1 4), .cmd, .h, .h, .v, .cold, 0x0⟩,
   ⟨.quire, 0x20, 0x20, 0, 0, (.bytes 32), .ro, .hq, .none, .v, .hot, 0x0⟩,
   ⟨.quire, 0x21, 0x21, 0, 0, (.uint 4), .ro, .hq, .none, .a, .hot, 0x0⟩]

def quireCardsStitches : List Card :=
  [⟨.quire, 0x40, 0x40, 0, 0, (.uint 2), (.rs 0x4f), .hq, .h, .v, .cold, 0x0⟩,
   ⟨.quire, 0x41, 0x41, 0, 0, (.uint 2), (.rs 0x4f), .hq, .h, .v, .cold, 0x200⟩,
   ⟨.quire, 0x42, 0x42, 0, 0, (.cmd 16 0), .cmd, .hq, .hq, .v, .cold, 0x0⟩,
   ⟨.quire, 0x48, 0x48, 1, 1, (.uint 4), .ro, .hq, .none, .v, .hot, 0x0⟩,
   ⟨.quire, 0x48, 0x48, 2, 2, (.uint 4), .ro, .hq, .none, .v, .hot, 0x0⟩,
   ⟨.quire, 0x48, 0x48, 3, 3, (.uint 4), .ro, .hq, .none, .v, .hot, 0x0⟩,
   ⟨.quire, 0x48, 0x48, 4, 4, (.uint 4), .ro, .hq, .none, .v, .hot, 0x0⟩,
   ⟨.quire, 0x48, 0x48, 5, 5, (.uint 4), .ro, .hq, .none, .v, .hot, 0x0⟩,
   ⟨.quire, 0x48, 0x48, 6, 6, (.uint 4), .ro, .hq, .none, .v, .hot, 0x0⟩,
   ⟨.quire, 0x4f, 0x4f, 0, 0, (.cmd 1 4), .cmd, .h, .h, .v, .cold, 0x0⟩]

def absCardsStitches : List Card :=
  [⟨.abs, 0x3000, 0x3fff, 0, 0, (.bytes 16), .ro, .all, .none, .a, .hot, 0x0⟩]

def quireCardsImpositions : List Card :=
  [⟨.quire, 0x80, 0x80, 0, 0, (.uint 4), .ro, .hq, .none, .v, .hot, 0x0⟩,
   ⟨.quire, 0x81, 0x81, 1, 6, (.uint 4), .ro, .hq, .none, .v, .hot, 0x0⟩,
   ⟨.quire, 0x82, 0x82, 1, 6, (.uint 8), .ro, .hq, .none, .v, .hot, 0x0⟩,
   ⟨.quire, 0x83, 0x83, 0, 0, (.uint 4), .ro, .hq, .none, .v, .hot, 0x0⟩,
   ⟨.quire, 0x84, 0x84, 1, 1, (.uint 2), .ro, .hq, .none, .v, .hot, 0x0⟩,
   ⟨.quire, 0x84, 0x84, 2, 2, (.uint 4), .ro, .hq, .none, .v, .hot, 0x0⟩,
   ⟨.quire, 0x84, 0x84, 3, 3, (.uint 8), .ro, .hq, .none, .v, .hot, 0x0⟩,
   ⟨.quire, 0x84, 0x84, 4, 4, (.uint 8), .ro, .hq, .none, .v, .hot, 0x0⟩,
   ⟨.quire, 0x84, 0x84, 5, 5, (.uint 4), .ro, .hq, .none, .v, .hot, 0x0⟩,
   ⟨.quire, 0x85, 0x85, 0, 0, (.uint 8), .ro, .hq, .none, .v, .hot, 0x0⟩,
   ⟨.quire, 0x8c, 0x8c, 1, 1, (.uint 1), .ro, .hq, .none, .v, .hot, 0x0⟩,
   ⟨.quire, 0x8c, 0x8c, 2, 2, (.uint 2), .ro, .hq, .none, .v, .hot, 0x0⟩,
   ⟨.quire, 0x8c, 0x8c, 3, 3, (.uint 4), .ro, .hq, .none, .v, .hot, 0x0⟩,
   ⟨.quire, 0x8c, 0x8c, 4, 4, (.uint 4), .ro, .hq, .none, .v, .hot, 0x0⟩]

def quireCardsSpeculation : List Card :=
  [⟨.quire, 0xa0, 0xa0, 1, 1, (.uint 4), .ro, .hq, .none, .v, .hot, 0x0⟩,
   ⟨.quire, 0xa0, 0xa0, 2, 2, (.uint 4), .ro, .hq, .none, .v, .hot, 0x0⟩,
   ⟨.quire, 0xa0, 0xa0, 3, 3, (.uint 4), .ro, .hq, .none, .v, .hot, 0x0⟩,
   ⟨.quire, 0xa0, 0xa0, 4, 4, (.uint 8), .ro, .hq, .none, .v, .hot, 0x0⟩,
   ⟨.quire, 0xa0, 0xa0, 5, 5, (.uint 8), .ro, .hq, .none, .v, .hot, 0x0⟩,
   ⟨.quire, 0xa0, 0xa0, 6, 6, (.uint 8), .ro, .hq, .none, .v, .hot, 0x0⟩,
   ⟨.quire, 0xa0, 0xa0, 7, 7, (.uint 4), .ro, .hq, .none, .v, .hot, 0x0⟩,
   ⟨.quire, 0xa1, 0xa1, 1, 9, (.uint 4), .ro, .hq, .none, .v, .hot, 0x0⟩,
   ⟨.quire, 0xa2, 0xa2, 0, 0, (.uint 4), .ro, .hq, .none, .v, .hot, 0x0⟩]

def absCardsStore : List Card :=
  [⟨.abs, 0x1600, 0x1600, 1, 1, (.uint 1), .ro, .all, .none, .f, .hot, 0x0⟩,
   ⟨.abs, 0x1600, 0x1600, 2, 2, (.uint 2), .ro, .all, .none, .f, .hot, 0x84⟩,
   ⟨.abs, 0x1600, 0x1600, 3, 3, (.uint 1), .ro, .all, .none, .f, .hot, 0x0⟩,
   ⟨.abs, 0x1600, 0x1600, 4, 4, (.uint 2), .ro, .all, .none, .f, .hot, 0x200⟩,
   ⟨.abs, 0x1600, 0x1600, 5, 5, (.uint 1), .ro, .all, .none, .f, .hot, 0x10⟩,
   ⟨.abs, 0x1600, 0x1600, 6, 6, (.uint 1), .ro, .all, .none, .f, .hot, 0x12⟩,
   ⟨.abs, 0x1601, 0x1601, 1, 1, (.uint 4), .ro, .all, .none, .v, .hot, 0x0⟩,
   ⟨.abs, 0x1601, 0x1601, 2, 2, (.uint 4), .ro, .all, .none, .v, .hot, 0x0⟩,
   ⟨.abs, 0x1601, 0x1601, 3, 3, (.uint 4), .ro, .all, .none, .v, .hot, 0x0⟩,
   ⟨.abs, 0x1601, 0x1601, 4, 4, (.uint 4), .ro, .all, .none, .v, .hot, 0x0⟩,
   ⟨.abs, 0x1602, 0x1602, 1, 12, .enum8, .ro, .all, .none, .v, .hot, 0x0⟩,
   ⟨.abs, 0x1603, 0x1603, 0, 0, .bits32, .ro, .all, .none, .v, .hot, 0x0⟩,
   ⟨.abs, 0x1604, 0x1604, 0, 0, .bits32, .ro, .all, .none, .v, .hot, 0x0⟩,
   ⟨.abs, 0x1605, 0x1605, 1, 6, (.uint 1), .ro, .all, .none, .v, .hot, 0x0⟩,
   ⟨.abs, 0x1606, 0x1606, 1, 1, (.uint 4), .ro, .all, .none, .f, .hot, 0xbb8⟩,
   ⟨.abs, 0x1606, 0x1606, 2, 2, (.uint 4), .ro, .all, .none, .f, .hot, 0x186a0⟩,
   ⟨.abs, 0x1606, 0x1606, 3, 3, (.uint 4), .ro, .all, .none, .f, .hot, 0x2faf080⟩,
   ⟨.abs, 0x1606, 0x1606, 4, 4, (.uint 1), .ro, .all, .none, .f, .hot, 0xa⟩,
   ⟨.abs, 0x1608, 0x1608, 0, 0, (.uint 8), .rw, .h, .h, .v, .cold, 0xffffffff00000000⟩,
   ⟨.abs, 0x1609, 0x1609, 1, 1, (.uint 4), .ro, .h, .none, .v, .hot, 0x0⟩,
   ⟨.abs, 0x1609, 0x1609, 2, 2, (.uint 4), .ro, .h, .none, .v, .hot, 0x0⟩,
   ⟨.abs, 0x1609, 0x1609, 3, 3, (.uint 4), .ro, .h, .none, .v, .hot, 0x0⟩,
   ⟨.abs, 0x1609, 0x1609, 4, 4, (.uint 4), .ro, .h, .none, .v, .hot, 0x0⟩,
   ⟨.abs, 0x1609, 0x1609, 5, 5, .enum8, .ro, .h, .none, .v, .hot, 0x0⟩,
   ⟨.abs, 0x1609, 0x1609, 6, 6, (.uint 4), .ro, .h, .none, .v, .hot, 0x0⟩]

def absCardsPress : List Card :=
  [⟨.abs, 0x1610, 0x1610, 0, 0, (.cmd 32 16), .cmd, .h, .h, .v, .cold, 0x0⟩,
   ⟨.abs, 0x1611, 0x1611, 1, 8, (.cmd 32 16), .cmd, .hq, .q, .v, .cold, 0x0⟩,
   ⟨.abs, 0x1612, 0x1612, 1, 1, (.uint 2), .ro, .all, .none, .v, .hot, 0x0⟩,
   ⟨.abs, 0x1612, 0x1612, 2, 2, (.uint 4), .ro, .all, .none, .v, .hot, 0x0⟩,
   ⟨.abs, 0x1612, 0x1612, 3, 3, (.uint 4), .ro, .all, .none, .v, .hot, 0x0⟩,
   ⟨.abs, 0x1612, 0x1612, 4, 4, (.uint 4), .ro, .all, .none, .v, .hot, 0x0⟩,
   ⟨.abs, 0x1612, 0x1612, 5, 5, (.uint 8), .ro, .all, .none, .v, .hot, 0x0⟩,
   ⟨.abs, 0x1614, 0x1614, 1, 1, (.uint 4), .rw, .h, .h, .s, .cold, 0x2625a00⟩,
   ⟨.abs, 0x1614, 0x1614, 2, 2, (.uint 1), .rw, .h, .h, .s, .cold, 0x1e⟩,
   ⟨.abs, 0x1615, 0x1615, 1, 1, (.uint 4), .ro, .all, .none, .v, .hot, 0x0⟩,
   ⟨.abs, 0x1615, 0x1615, 2, 2, (.uint 2), .ro, .all, .none, .v, .hot, 0x0⟩,
   ⟨.abs, 0x1615, 0x1615, 3, 3, (.uint 4), .ro, .all, .none, .v, .hot, 0x0⟩,
   ⟨.abs, 0x1615, 0x1615, 4, 4, (.uint 4), .ro, .all, .none, .v, .hot, 0x0⟩,
   ⟨.abs, 0x1615, 0x1615, 5, 5, (.uint 4), .ro, .all, .none, .v, .hot, 0x0⟩,
   ⟨.abs, 0x1615, 0x1615, 6, 6, (.uint 2), .ro, .all, .none, .v, .hot, 0x0⟩,
   ⟨.abs, 0x1615, 0x1615, 7, 7, (.uint 2), .ro, .all, .none, .v, .hot, 0x0⟩,
   ⟨.abs, 0x1615, 0x1615, 8, 8, (.uint 4), .ro, .all, .none, .v, .hot, 0x0⟩,
   ⟨.abs, 0x1616, 0x1616, 1, 12, (.uint 4), .ro, .all, .none, .v, .hot, 0x0⟩,
   ⟨.abs, 0x1617, 0x1617, 1, 12, (.uint 2), .ro, .all, .none, .v, .hot, 0x0⟩,
   ⟨.abs, 0x1618, 0x1618, 0, 0, (.uint 4), .rw, .h, .h, .v, .cold, 0x0⟩,
   ⟨.abs, 0x1619, 0x1619, 0, 0, (.bytes 256), .wo, .none, .h, .v, .cold, 0x0⟩,
   ⟨.abs, 0x161a, 0x161a, 0, 0, (.cmd 8 4), .cmd, .h, .h, .v, .cold, 0x0⟩,
   ⟨.abs, 0x161b, 0x161b, 1, 1, (.uint 2), .ro, .all, .none, .v, .hot, 0x200⟩,
   ⟨.abs, 0x161b, 0x161b, 2, 2, (.uint 2), .ro, .all, .none, .v, .hot, 0x200⟩,
   ⟨.abs, 0x161b, 0x161b, 3, 3, (.uint 4), .ro, .all, .none, .v, .hot, 0x0⟩,
   ⟨.abs, 0x161b, 0x161b, 4, 4, (.uint 4), .ro, .all, .none, .v, .hot, 0x0⟩]

def quireCardsTiers : List Card :=
  [⟨.quire, 0x60, 0x60, 1, 4, (.uint 4), (.rs 0x6f), .hq, .hq, .v, .cold, 0x0⟩,
   ⟨.quire, 0x61, 0x61, 0, 0, .enum8, (.rs 0x6f), .hq, .h, .v, .cold, 0x0⟩,
   ⟨.quire, 0x62, 0x62, 0, 0, .enum8, (.rs 0x6f), .hq, .hq, .v, .cold, 0x0⟩,
   ⟨.quire, 0x63, 0x63, 0, 0, (.uint 8), (.rs 0x6f), .hq, .h, .v, .cold, 0x0⟩,
   ⟨.quire, 0x64, 0x64, 0, 0, .enum8, (.rs 0x6f), .hq, .hq, .v, .cold, 0x1⟩,
   ⟨.quire, 0x6f, 0x6f, 0, 0, (.cmd 1 4), .cmd, .hq, .hq, .v, .cold, 0x0⟩,
   ⟨.quire, 0x70, 0x70, 1, 3, (.uint 4), .ro, .hq, .none, .v, .hot, 0x0⟩,
   ⟨.quire, 0x71, 0x71, 1, 1, (.uint 4), .ro, .hq, .none, .v, .hot, 0x0⟩,
   ⟨.quire, 0x71, 0x71, 2, 2, (.uint 4), .ro, .hq, .none, .v, .hot, 0x0⟩,
   ⟨.quire, 0x71, 0x71, 3, 3, (.uint 4), .ro, .hq, .none, .v, .hot, 0x0⟩,
   ⟨.quire, 0x71, 0x71, 4, 4, (.uint 4), .ro, .hq, .none, .v, .hot, 0x0⟩,
   ⟨.quire, 0x71, 0x71, 5, 5, (.uint 4), .ro, .hq, .none, .v, .hot, 0x0⟩,
   ⟨.quire, 0x71, 0x71, 6, 6, (.uint 4), .ro, .hq, .none, .v, .hot, 0x0⟩]

def absCardsTiers : List Card :=
  [⟨.abs, 0x1700, 0x1700, 1, 1, (.uint 2), .ro, .all, .none, .f, .hot, 0x3649⟩,
   ⟨.abs, 0x1700, 0x1700, 2, 2, (.uint 2), .ro, .all, .none, .v, .hot, 0x0⟩,
   ⟨.abs, 0x1700, 0x1700, 3, 3, (.uint 4), .ro, .all, .none, .v, .hot, 0x0⟩,
   ⟨.abs, 0x1700, 0x1700, 4, 4, (.uint 2), .ro, .all, .none, .v, .hot, 0x0⟩,
   ⟨.abs, 0x1700, 0x1700, 5, 5, (.uint 4), .ro, .all, .none, .v, .hot, 0x0⟩,
   ⟨.abs, 0x1700, 0x1700, 6, 6, (.uint 4), .ro, .all, .none, .v, .hot, 0x0⟩,
   ⟨.abs, 0x1701, 0x1701, 0, 0, (.uint 2), .rw, .h, .h, .s, .cold, 0x200⟩,
   ⟨.abs, 0x1702, 0x1702, 1, 1, .bool, .rw, .h, .h, .s, .cold, 0x0⟩,
   ⟨.abs, 0x1702, 0x1702, 2, 2, .bool, .ro, .all, .none, .v, .hot, 0x0⟩,
   ⟨.abs, 0x1702, 0x1702, 3, 3, (.uint 1), .ro, .all, .none, .v, .hot, 0x0⟩,
   ⟨.abs, 0x1703, 0x1703, 1, 1, (.uint 2), .ro, .all, .none, .v, .hot, 0x0⟩,
   ⟨.abs, 0x1703, 0x1703, 2, 2, (.uint 2), .ro, .all, .none, .v, .hot, 0x0⟩,
   ⟨.abs, 0x1703, 0x1703, 3, 3, (.uint 4), .ro, .all, .none, .v, .hot, 0x0⟩,
   ⟨.abs, 0x1708, 0x1708, 1, 1, (.uint 1), .rw, .h, .h, .v, .cold, 0xff⟩,
   ⟨.abs, 0x1708, 0x1708, 2, 2, (.uint 8), .rw, .h, .h, .v, .cold, 0x0⟩,
   ⟨.abs, 0x1708, 0x1708, 3, 3, (.uint 1), .rw, .h, .h, .v, .cold, 0xff⟩,
   ⟨.abs, 0x1708, 0x1708, 4, 4, (.uint 8), .rw, .h, .h, .v, .cold, 0x0⟩]

def absCardsSlipcases : List Card :=
  [⟨.abs, 0x1800, 0x1800, 1, 1, (.uint 1), .ro, .all, .none, .v, .hot, 0x0⟩,
   ⟨.abs, 0x1800, 0x1800, 2, 2, (.uint 1), .ro, .all, .none, .v, .hot, 0x0⟩,
   ⟨.abs, 0x1800, 0x1800, 3, 3, .enum8, .ro, .all, .none, .v, .hot, 0x0⟩,
   ⟨.abs, 0x1801, 0x1801, 1, 64, (.bytes 64), .ro, .all, .none, .v, .hot, 0x0⟩,
   ⟨.abs, 0x1802, 0x1802, 1, 64, (.bytes 48), .ro, .all, .none, .v, .cold, 0x0⟩,
   ⟨.abs, 0x1803, 0x1803, 1, 64, (.uint 1), .rw, .h, .h, .s, .cold, 0x0⟩,
   ⟨.abs, 0x1804, 0x1804, 0, 0, (.cmd 1 0), .cmd, .h, .h, .v, .cold, 0x0⟩,
   ⟨.abs, 0x1808, 0x1808, 0, 0, (.cmd 4 100), .cmd, .h, .h, .v, .cold, 0x0⟩,
   ⟨.abs, 0x1809, 0x1809, 0, 0, (.cmd 112 4), .cmd, .h, .h, .v, .cold, 0x0⟩]

def quireCardsSlipcases : List Card :=
  [⟨.quire, 0xb0, 0xb0, 1, 64, (.uint 4), .ro, .hq, .none, .v, .hot, 0x0⟩,
   ⟨.quire, 0xb1, 0xb1, 1, 64, (.uint 1), .ro, .hq, .none, .v, .hot, 0xff⟩,
   ⟨.quire, 0xb2, 0xb2, 0, 0, (.bytes 32), .ro, .hq, .none, .v, .hot, 0x0⟩,
   ⟨.quire, 0xb3, 0xb3, 1, 1, (.uint 4), .ro, .hq, .none, .v, .hot, 0x0⟩,
   ⟨.quire, 0xb3, 0xb3, 2, 2, (.uint 4), .ro, .hq, .none, .v, .hot, 0x0⟩]

def quireCardsTraining : List Card :=
  [⟨.quire, 0xc0, 0xc0, 0, 0, .enum8, .ro, .hq, .none, .v, .hot, 0x0⟩,
   ⟨.quire, 0xc1, 0xc1, 0, 0, (.bytes 32), .ro, .hq, .none, .v, .hot, 0x0⟩,
   ⟨.quire, 0xc2, 0xc2, 1, 1, (.uint 4), .ro, .hq, .none, .v, .hot, 0x0⟩,
   ⟨.quire, 0xc2, 0xc2, 2, 2, (.uint 4), .ro, .hq, .none, .v, .hot, 0x0⟩]

def absCardsSentinel : List Card :=
  [⟨.abs, 0x1900, 0x1900, 1, 1, .enum8, .ro, .all, .none, .a, .hot, 0x0⟩,
   ⟨.abs, 0x1900, 0x1900, 2, 2, .bool, .ro, .all, .none, .a, .hot, 0x0⟩,
   ⟨.abs, 0x1900, 0x1900, 3, 3, (.uint 1), .ro, .all, .none, .a, .hot, 0xff⟩,
   ⟨.abs, 0x1900, 0x1900, 4, 4, (.uint 2), .ro, .all, .none, .a, .hot, 0x0⟩,
   ⟨.abs, 0x1900, 0x1900, 5, 5, (.uint 1), .ro, .all, .none, .a, .hot, 0x0⟩,
   ⟨.abs, 0x1901, 0x1901, 0, 0, .bool, .rw, .hq, .hq, .a, .hotRw, 0x0⟩,
   ⟨.abs, 0x1902, 0x1902, 0, 0, (.cmd 4 4), .cmd, .hq, .hq, .v, .cold, 0x0⟩,
   ⟨.abs, 0x1903, 0x1903, 0, 0, (.cmd 0 0), .cmd, .hq, .hq, .v, .cold, 0x0⟩,
   ⟨.abs, 0x1904, 0x1904, 1, 1, (.sint 2), .rw, .hq, .hq, .a, .hotRw, 0x80⟩,
   ⟨.abs, 0x1904, 0x1904, 2, 2, (.uint 1), .rw, .hq, .hq, .a, .hotRw, 0x2⟩,
   ⟨.abs, 0x1904, 0x1904, 3, 3, (.uint 1), .rw, .hq, .hq, .a, .hotRw, 0x32⟩,
   ⟨.abs, 0x1905, 0x1905, 0, 0, .bits32, .rw, .hq, .hq, .a, .hotRw, 0x3⟩,
   ⟨.abs, 0x1906, 0x1906, 0, 0, (.uint 1), .rw, .h, .h, .a, .hotRw, 0xff⟩,
   ⟨.abs, 0x1907, 0x1907, 0, 0, .bool, .rw, .hq, .hq, .a, .hotRw, 0x0⟩,
   ⟨.abs, 0x1908, 0x1908, 1, 1, (.uint 1), .ro, .all, .none, .a, .hot, 0x0⟩,
   ⟨.abs, 0x1908, 0x1908, 2, 2, (.sint 2), .ro, .all, .none, .a, .hot, 0x0⟩,
   ⟨.abs, 0x1908, 0x1908, 3, 3, (.uint 4), .ro, .all, .none, .a, .hot, 0x0⟩,
   ⟨.abs, 0x1908, 0x1908, 4, 4, (.uint 8), .ro, .all, .none, .a, .hot, 0x0⟩,
   ⟨.abs, 0x1909, 0x1909, 1, 1, (.uint 4), .ro, .all, .none, .a, .hot, 0x0⟩,
   ⟨.abs, 0x1909, 0x1909, 2, 2, (.uint 4), .ro, .all, .none, .a, .hot, 0x0⟩,
   ⟨.abs, 0x1909, 0x1909, 3, 3, (.uint 4), .ro, .all, .none, .a, .hot, 0x0⟩,
   ⟨.abs, 0x1909, 0x1909, 4, 4, (.uint 4), .ro, .all, .none, .a, .hot, 0x0⟩,
   ⟨.abs, 0x190a, 0x190a, 1, 32, (.uint 4), .ro, .all, .none, .f, .hot, 0x0⟩,
   ⟨.abs, 0x190b, 0x190b, 1, 12, (.sint 2), .ro, .all, .none, .f, .hot, 0x0⟩]

def absCardsPower : List Card :=
  [⟨.abs, 0x1400, 0x1400, 1, 1, .enum8, .ro, .all, .none, .a, .hot, 0x3⟩,
   ⟨.abs, 0x1400, 0x1400, 2, 2, (.uint 4), .ro, .all, .none, .a, .hot, 0x0⟩,
   ⟨.abs, 0x1400, 0x1400, 3, 3, (.uint 4), .ro, .all, .none, .a, .hot, 0x0⟩,
   ⟨.abs, 0x1400, 0x1400, 4, 4, .enum8, .ro, .all, .none, .a, .hot, 0x0⟩,
   ⟨.abs, 0x1400, 0x1400, 5, 5, .bits32, .ro, .all, .none, .v, .hot, 0x0⟩,
   ⟨.abs, 0x1400, 0x1400, 6, 6, .bits32, .ro, .all, .none, .v, .hot, 0x0⟩,
   ⟨.abs, 0x1400, 0x1400, 7, 7, (.uint 1), .ro, .all, .none, .a, .hot, 0x0⟩,
   ⟨.abs, 0x1401, 0x1401, 0, 0, (.cmd 1 4), .cmd, .h, .h, .v, .cold, 0x0⟩,
   ⟨.abs, 0x1410, 0x1410, 0, 0, (.uint 4), (.rs 0x141f), .all, .h, .a, .cold, 0x7d0⟩,
   ⟨.abs, 0x1411, 0x1411, 0, 0, (.uint 4), (.rs 0x141f), .all, .h, .a, .cold, 0x2710⟩,
   ⟨.abs, 0x1412, 0x1412, 0, 0, (.uint 4), (.rs 0x141f), .all, .h, .a, .cold, 0x0⟩,
   ⟨.abs, 0x141f, 0x141f, 0, 0, (.cmd 1 4), .cmd, .h, .h, .v, .cold, 0x0⟩,
   ⟨.abs, 0x1420, 0x1420, 1, 1, (.uint 4), .ro, .all, .none, .a, .hot, 0x0⟩,
   ⟨.abs, 0x1420, 0x1420, 2, 2, (.uint 4), .ro, .all, .none, .a, .hot, 0x0⟩,
   ⟨.abs, 0x1420, 0x1420, 3, 3, (.uint 4), .ro, .all, .none, .a, .hot, 0x0⟩,
   ⟨.abs, 0x1420, 0x1420, 4, 4, (.uint 4), .ro, .all, .none, .a, .hot, 0x0⟩,
   ⟨.abs, 0x1500, 0x1500, 1, 1, (.sint 4), .ro, .all, .none, .a, .hot, 0x190000⟩,
   ⟨.abs, 0x1500, 0x1500, 2, 2, (.sint 4), .ro, .all, .none, .a, .hot, 0x0⟩,
   ⟨.abs, 0x1500, 0x1500, 3, 3, (.sint 4), .ro, .all, .none, .a, .hot, 0x0⟩,
   ⟨.abs, 0x1500, 0x1500, 4, 4, (.uint 1), .ro, .all, .none, .a, .hot, 0x0⟩,
   ⟨.abs, 0x1500, 0x1500, 5, 5, (.sint 4), .ro, .all, .none, .a, .hot, 0x0⟩,
   ⟨.abs, 0x1501, 0x1501, 0, 0, (.sint 4), .rw, .all, .h, .a, .hotRw, 0x190000⟩,
   ⟨.abs, 0x1502, 0x1502, 1, 1, (.sint 4), .rw, .all, .h, .s, .cold, 0x4ccd⟩,
   ⟨.abs, 0x1502, 0x1502, 2, 2, (.uint 2), .rw, .all, .h, .s, .cold, 0x14⟩,
   ⟨.abs, 0x1502, 0x1502, 3, 3, (.uint 2), .rw, .all, .h, .s, .cold, 0xa⟩,
   ⟨.abs, 0x1503, 0x1503, 1, 1, (.uint 4), .ro, .all, .none, .a, .hot, 0x0⟩,
   ⟨.abs, 0x1503, 0x1503, 2, 2, (.uint 4), .ro, .all, .none, .a, .hot, 0x0⟩,
   ⟨.abs, 0x1503, 0x1503, 3, 3, (.uint 4), .ro, .all, .none, .a, .hot, 0x0⟩]

def absCardsSecurity : List Card :=
  [⟨.abs, 0x1100, 0x1100, 0, 0, .enum8, .ro, .all, .none, .f, .hot, 0x0⟩,
   ⟨.abs, 0x1101, 0x1101, 0, 0, (.cmd 8 2), .cmd, .h, .h, .v, .cold, 0x0⟩,
   ⟨.abs, 0x1102, 0x1102, 0, 0, .enum8, .ro, .all, .none, .v, .hot, 0x0⟩,
   ⟨.abs, 0x1103, 0x1103, 0, 0, (.bytes 96), .ro, .all, .none, .v, .hot, 0x0⟩,
   ⟨.abs, 0x1104, 0x1104, 1, 4, (.bytes 48), .ro, .all, .none, .f, .hot, 0x0⟩,
   ⟨.abs, 0x1105, 0x1105, 1, 4, (.uint 1), .ro, .all, .none, .f, .hot, 0x0⟩,
   ⟨.abs, 0x1106, 0x1106, 1, 1, (.uint 1), .ro, .all, .none, .f, .hot, 0x0⟩,
   ⟨.abs, 0x1106, 0x1106, 2, 2, (.uint 1), .ro, .all, .none, .f, .hot, 0x0⟩,
   ⟨.abs, 0x1107, 0x1107, 0, 0, (.cmd 4 0), .cmd, .h, .h, .v, .cold, 0x0⟩,
   ⟨.abs, 0x1108, 0x1108, 1, 4, (.bytes 64), .ro, .all, .none, .f, .hot, 0x0⟩,
   ⟨.abs, 0x1109, 0x1109, 1, 4, (.bytes 36), .wo, .none, .h, .s, .cold, 0x0⟩,
   ⟨.abs, 0x110a, 0x110a, 1, 4, (.uint 4), .ro, .all, .none, .s, .hot, 0x0⟩,
   ⟨.abs, 0x110b, 0x110b, 1, 2, (.bytes 48), .ro, .all, .none, .f, .hot, 0x0⟩,
   ⟨.abs, 0x110c, 0x110c, 0, 0, .enum8, .ro, .all, .none, .v, .hot, 0x0⟩,
   ⟨.abs, 0x110d, 0x110d, 0, 0, (.bytes 64), .ro, .h, .none, .v, .cold, 0x0⟩,
   ⟨.abs, 0x110e, 0x110e, 0, 0, (.cmd 192 0), .cmd, .h, .h, .v, .cold, 0x0⟩,
   ⟨.abs, 0x110f, 0x110f, 0, 0, (.uint 4), .ro, .all, .none, .v, .hot, 0x0⟩]

def absCardsFaults : List Card :=
  [⟨.abs, 0x1a00, 0x1a00, 1, 1, .enum8, .ro, .all, .none, .a, .hot, 0x0⟩,
   ⟨.abs, 0x1a00, 0x1a00, 2, 2, .enum8, .ro, .all, .none, .a, .hot, 0x0⟩,
   ⟨.abs, 0x1a00, 0x1a00, 3, 3, (.uint 4), .ro, .all, .none, .a, .hot, 0x0⟩,
   ⟨.abs, 0x1a01, 0x1a01, 0, 0, (.uint 4), .wo, .none, .h, .a, .hotRw, 0x0⟩,
   ⟨.abs, 0x1a02, 0x1a02, 1, 1, (.uint 4), .rw, .all, .h, .a, .hotRw, 0x0⟩,
   ⟨.abs, 0x1a02, 0x1a02, 2, 2, (.uint 4), .rw, .all, .h, .a, .hotRw, 0x3e8⟩,
   ⟨.abs, 0x1a02, 0x1a02, 3, 3, .bool, .rw, .all, .h, .a, .hotRw, 0x1⟩,
   ⟨.abs, 0x1a03, 0x1a03, 0, 0, (.uint 1), .rw, .all, .h, .a, .hotRw, 0xff⟩,
   ⟨.abs, 0x1c00, 0x1c00, 0, 0, .bits32, .ro, .all, .none, .a, .hot, 0x0⟩,
   ⟨.abs, 0x1c01, 0x1c01, 0, 0, .bits32, .rw, .all, .h, .a, .hotRw, 0x3fff⟩,
   ⟨.abs, 0x1c02, 0x1c02, 0, 0, .bits32, .wo, .none, .h, .a, .hotRw, 0x0⟩,
   ⟨.abs, 0x1c08, 0x1c08, 1, 1, (.uint 8), .ro, .all, .none, .a, .hot, 0x0⟩,
   ⟨.abs, 0x1c08, 0x1c08, 2, 2, (.uint 4), .ro, .all, .none, .a, .hot, 0x0⟩,
   ⟨.abs, 0x1c08, 0x1c08, 3, 3, (.uint 4), .ro, .all, .none, .a, .hot, 0x0⟩,
   ⟨.abs, 0x1c08, 0x1c08, 4, 4, (.uint 4), .ro, .all, .none, .a, .hot, 0x0⟩,
   ⟨.abs, 0x1c08, 0x1c08, 5, 5, (.uint 4), .ro, .all, .none, .a, .hot, 0x0⟩,
   ⟨.abs, 0x1c08, 0x1c08, 6, 6, (.uint 4), .ro, .all, .none, .a, .hot, 0x0⟩,
   ⟨.abs, 0x1c08, 0x1c08, 7, 7, (.uint 4), .ro, .all, .none, .a, .hot, 0x0⟩,
   ⟨.abs, 0x1c08, 0x1c08, 8, 8, (.uint 4), .ro, .all, .none, .a, .hot, 0x0⟩,
   ⟨.abs, 0x1c08, 0x1c08, 9, 9, (.uint 4), .ro, .all, .none, .a, .hot, 0x0⟩,
   ⟨.abs, 0x1c08, 0x1c08, 10, 10, (.uint 4), .ro, .all, .none, .a, .hot, 0x0⟩,
   ⟨.abs, 0x1c10, 0x1c10, 1, 1, (.uint 4), .ro, .all, .none, .a, .hot, 0x0⟩,
   ⟨.abs, 0x1c10, 0x1c10, 2, 2, (.uint 4), .ro, .all, .none, .a, .hot, 0x0⟩,
   ⟨.abs, 0x1c10, 0x1c10, 3, 3, (.uint 4), .ro, .all, .none, .a, .hot, 0x0⟩,
   ⟨.abs, 0x1c10, 0x1c10, 4, 4, (.uint 4), .ro, .all, .none, .a, .hot, 0x0⟩,
   ⟨.abs, 0x1c10, 0x1c10, 5, 5, (.uint 4), .ro, .all, .none, .a, .hot, 0x0⟩,
   ⟨.abs, 0x1c10, 0x1c10, 6, 6, (.uint 4), .ro, .all, .none, .a, .hot, 0x0⟩,
   ⟨.abs, 0x1c10, 0x1c10, 7, 7, (.uint 4), .ro, .all, .none, .a, .hot, 0x0⟩,
   ⟨.abs, 0x1c18, 0x1c18, 1, 1, (.uint 4), .ro, .all, .none, .a, .hot, 0x0⟩,
   ⟨.abs, 0x1c18, 0x1c18, 2, 2, (.uint 4), .ro, .all, .none, .a, .hot, 0x0⟩,
   ⟨.abs, 0x1c18, 0x1c18, 3, 3, (.uint 4), .ro, .all, .none, .a, .hot, 0x0⟩,
   ⟨.abs, 0x1c18, 0x1c18, 4, 4, .bool, .ro, .all, .none, .a, .hot, 0x0⟩,
   ⟨.abs, 0x1c18, 0x1c18, 5, 5, (.uint 4), .ro, .all, .none, .a, .hot, 0x0⟩,
   ⟨.abs, 0x1c20, 0x1c20, 1, 8, (.uint 1), .ro, .all, .none, .v, .hot, 0x0⟩,
   ⟨.abs, 0x1c21, 0x1c21, 0, 0, .bits32, .ro, .all, .none, .s, .hot, 0x0⟩,
   ⟨.abs, 0x1c22, 0x1c22, 0, 0, .bits32, .ro, .all, .none, .v, .hot, 0x0⟩,
   ⟨.abs, 0x1c23, 0x1c23, 0, 0, .bits32, .ro, .all, .none, .v, .hot, 0x0⟩]

def absCards : List Card := absCardsInterfaces ++ absCardsBoot ++ absCardsStitches ++ absCardsStore ++ absCardsPress ++ absCardsTiers ++ absCardsSlipcases ++ absCardsSentinel ++ absCardsPower ++ absCardsSecurity ++ absCardsFaults

def profCards : List Card := profCardsBoot

def quireCards : List Card := quireCardsQueues ++ quireCardsStitches ++ quireCardsImpositions ++ quireCardsSpeculation ++ quireCardsTiers ++ quireCardsSlipcases ++ quireCardsTraining

/-! ### Lookup -/

/-- A card's highest sub on a SKU: the shorter arrays of the Q19-16 (R924, R242, 21 index). -/
def cardSubHi (sku : Sku) (c : Card) : Nat :=
  match sku, c.base with
  | .q16, .abs =>
    if c.ixLo = 0x1007 then 6
    else if c.ixLo = 0x1602 || c.ixLo = 0x1616 || c.ixLo = 0x1617 then 8
    else if c.ixLo = 0x1605 then 4 else c.subHi
  | _, _ => c.subHi

/-- The cards of an index; empty when the index is undefined (R107). -/
def cardsAt (idx : Nat) : List Card :=
  if 0x1210 ≤ idx ∧ idx < 0x1250 then profCards.filter fun c => c.ixLo == (idx - 0x1210) % 16
  else if 0x2000 ≤ idx ∧ idx < 0x2800 then quireCards.filter fun c => c.ixLo == idx % 256
  else absCards.filter fun c => c.ixLo ≤ idx && idx ≤ c.ixHi

/-- Whether a grant includes another (R925). -/
def Grant.join (a b : Grant) : Grant :=
  match a, b with
  | .all, _ => .all
  | _, .all => .all
  | .none, g => g
  | g, .none => g
  | .h, .h => .h
  | .q, .q => .q
  | _, _ => .hq

/-- The count a sub 0x00 of an array or record holds: its highest sub (R106). -/
def countAt (sku : Sku) (idx : Nat) : Nat :=
  (cardsAt idx).foldl (fun m c => max m (cardSubHi sku c)) 0

/-- The card of an entry, the sub 0x00 of an array or record included (R925); none: NO_SUB (R108). -/
def cardOf (sku : Sku) (idx sub : Nat) : Option Card :=
  let cs := cardsAt idx
  match cs.find? fun c => c.subLo ≤ sub && sub ≤ cardSubHi sku c with
  | some c => some c
  | none =>
    if sub = 0 ∧ cs ≠ [] then
      some ⟨.abs, idx, idx, 0, 0, .uint 1, .ro, cs.foldl (fun g c => g.join c.read) .none, .none, .f, .hot,
        countAt sku idx⟩
    else none

/-! ### Defaults -/

/-- UTF-8 text as the value of a TEXT entry, first byte least significant. -/
def textVal (t : List Nat) : Nat := leNat (t.map (BitVec.ofNat 8))

/-- The assignment code of bank group `g` in slot `s` of a factory weave (R209, R408; the layout is log entry 13). -/
def factoryWeave (sku : Sku) (p slot g : Nat) : Nat :=
  if sku = .q16 ∧ 8 ≤ g then 9
  else match p with
  | 3 => 8
  | 2 =>
    let r := slot % 32
    if r = 30 then 8 else if r = 31 then 9
    else match (g / 4 + 3 - r % 3) % 3 with
      | 0 => 0
      | 1 => if (r / 3 + g % 4) % 2 = 0 then 1 else 2
      | _ => 9
  | _ =>
    let off := [31, 8, 17, 12, 28, 24, 21, 17, 16, 15, 15, 3].getD g 0
    [0, 1, 0, 0, 2, 0, 2, 0, 0, 1, 0, 2, 0, 0, 8, 0, 2, 0, 0, 1, 0, 2, 0, 0, 1, 0, 2, 0, 0, 1, 0, 2].getD
      ((slot + off) % 32) 9

/-- Byte `n` of a factory weave table: two nibbles of slot `n / 6` (R408). -/
def factoryWeaveByte (sku : Sku) (p n : Nat) : Nat :=
  let g := 2 * (n % 6)
  factoryWeave sku p (n / 6) g + 16 * factoryWeave sku p (n / 6) (g + 1)

/-- The factory contents of profile `p` (R209): the member at offset `off` of the block, sub `sub`. -/
def profFactory (sku : Sku) (p off sub : Nat) : Nat :=
  let perQ (l : List Nat) := l.getD (sub - 1) 0
  match off with
  | 0 => textVal ([[72, 97, 110, 100], [83, 112, 114, 105, 110, 116], [81, 117, 105, 101, 116],
      [75, 101, 101, 112]].getD p [])
  | 1 => ([[0, 0, 0, 0, 1, 1, 2, 2], [0, 0, 0, 0, 1, 1, 2, 2], [0, 0, 1, 2, 255, 255, 255, 255]].getD p
      [255, 255, 255, 255, 255, 255, 255, 255]).getD (sub - 1) 0
  | 2 => perQ ([[1200, 900, 900], [1200, 1200, 1200], [600, 450, 450]].getD p [])
  | 3 => if p = 3 then 0 else perQ [6144, 3072, 3072]
  | 4 => if p = 3 then 0 else perQ [524288, 196608, 196608]
  | 5 => if sub = 8 then 64 else if p = 3 then 0 else perQ [8192, 2048, 4096]
  | 6 => if sub = 8 then 16 else if p = 3 then 0 else perQ [256, 256, 256]
  | 7 => leNat ((List.range 256).map fun i => BitVec.ofNat 8 (factoryWeaveByte sku p (256 * (sub - 1) + i)))
  | 8 => match sub with
    | 1 => [3000, 3000, 1200, 250].getD p 0
    | 2 => [3000, 4500, 1200, 250].getD p 0
    | 3 => if p = 1 then 2000 else 0
    | _ => 43 * 65536
  | 9 => 1
  | 10 => if p ≤ 1 then 0 else 1
  | _ => 0

/-- SENT_GEN_POLY (R806). -/
def genPoly : List Nat :=
  [0xE10000, 0xD80004, 0xC28009, 0xB40013, 0xA61021, 0x9C0045, 0x8E2083, 0xF00105,
   0xE84211, 0xD40823, 0xCA1047, 0xB82091, 0xAC4125, 0x9A0A4B, 0x8D1495, 0xF22929,
   0xE54253, 0xD30487, 0xC90915, 0xB61229, 0xA92453, 0x9E48A5, 0x870149, 0xF50293,
   0xE30527, 0xD60A4D, 0xCC1499, 0xBB2931, 0xAE5263, 0x9B24C5, 0x8B4989, 0xF91313]

/-- SENT_HB_COEF (R932). -/
def hbCoef : List Int := [-164, 0, 446, 0, -891, 0, 1652, 0, -3231, 0, 10380, 16384]

/-- GL_IDCODE and JTAG_IDCODE (R101). -/
def idcodeOf : Sku → Nat
  | .q24 => 0x2F019BA7
  | .q16 => 0x2F016BA7

/-- The value an entry holds when nothing has changed it: the Default of its card. "Set at boot" entries hold zero
until boot sets them (log entry 1); entries read from OTP and mirrors are computed where they are served. -/
def dfltVal (sku : Sku) (key : Nat) : Nat :=
  let idx := key / 256
  let sub := key % 256
  if 0x1210 ≤ idx ∧ idx < 0x1250 then
    if sub = 0 ∧ 1 ≤ (idx - 0x1210) % 16 ∧ (idx - 0x1210) % 16 ≤ 8 then countAt sku idx
    else profFactory sku ((idx - 0x1210) / 16) ((idx - 0x1210) % 16) sub
  else if 0x2000 ≤ idx ∧ idx < 0x2800 ∧ idx % 256 = 0x40 then 512 * ((idx - 0x2000) / 256)
  else match idx, sub with
    | 0x1001, _ => textVal ([70, 101, 111, 108, 111, 32, 81, 49, 57, 45] ++
        (match sku with | .q24 => [50, 52] | .q16 => [49, 54]))
    | 0x1002, _ => match sku with | .q24 => 1 | .q16 => 2
    | 0x1009, _ => idcodeOf sku
    | 0x1600, 1 => match sku with | .q24 => 6 | .q16 => 4
    | 0x1600, 3 => match sku with | .q24 => 12 | .q16 => 8
    | 0x190A, n => if n = 0 then 32 else genPoly.getD (n - 1) 0
    | 0x190B, n => if n = 0 then 12 else (hbCoef.getD (n - 1) 0 % 65536).toNat
    | 0x110B, n => if n = 0 then 2 else 0
    | _, _ => match cardOf sku idx sub with
      | some c => c.dflt
      | none => 0

/-- Key of an entry. -/
def keyOf (idx sub : Nat) : Nat := idx * 256 + sub

/-- The largest value of a card's type, at which its counters saturate (R934). -/
def tyMax : Ty → Nat
  | .uint n => 256 ^ n - 1
  | .bits32 => 256 ^ 4 - 1
  | _ => 255

end Sys2Proof.Machine
end

