-- ==== Sys2Proof/Machine/Flags.lean ====
section
/-! DEFINITION. The codes the Q19 answers with: dictionary statuses, completion statuses, freeze causes, alert causes,
reset causes, and the code each state register shows for a state. -/

namespace Sys2Proof.Machine

/-! ### Dictionary statuses (R134) -/
namespace DS
def ok : Nat := 0x00
def noEntry : Nat := 0x01
def noSub : Nat := 0x02
def access : Nat := 0x03
def typeLen : Nat := 0x04
def range : Nat := 0x05
def state : Nat := 0x06
def defer : Nat := 0x07
def busy : Nat := 0x08
def locked : Nat := 0x09
def role : Nat := 0x0A
def stagedConflict : Nat := 0x0B
end DS

/-! ### Completion statuses (R278) -/
namespace CS
def ok : Nat := 0x00
def timeout : Nat := 0x01
def poison : Nat := 0x02
def aborted : Nat := 0x03
def drained : Nat := 0x04
def noFit : Nat := 0x05
def quota : Nat := 0x06
def noHandle : Nat := 0x07
def auth : Nat := 0x08
def rollback : Nat := 0x09
def noSpace : Nat := 0x0A
def bayShort : Nat := 0x0B
def ioError : Nat := 0x0C
end CS

/-! ### Violation causes (R294) -/
namespace FC
def format : Nat := 0x01
def epoch : Nat := 0x02
def xo : Nat := 0x03
def busyBank : Nat := 0x04
def foreignStitch : Nat := 0x05
def foreignLeaf : Nat := 0x06
def quota : Nat := 0x07
def correlation : Nat := 0x08
def dma : Nat := 0x09
def deadline : Nat := 0x0A
end FC

/-! ### Alert causes: bits of ALERT_CAUSE (R909) -/
namespace AL
def nvUncorr : Nat := 0
def bandOver : Nat := 1
def paramShort : Nat := 2
def classKey : Nat := 3
def vddBay : Nat := 4
def clkin : Nat := 5
def sramUncorr : Nat := 6
def fabricUncorr : Nat := 7
def t2Uncorr : Nat := 8
def bayOut : Nat := 9
def planeBank : Nat := 10
def dieHot : Nat := 11
def wdtStage1 : Nat := 12
def channel : Nat := 13
end AL

/-! ### LAST_RESET codes (R222) -/
namespace LR
def powerOn : Nat := 0x01
def resetN : Nat := 0x02
def pgood : Nat := 0x03
def watchdog : Nat := 0x04
def deviceReset : Nat := 0x05
def fwDigest : Nat := 0x06
def testen : Nat := 0x07
def tap : Nat := 0x08
def recovery : Nat := 0x09
def codeSram : Nat := 0x0A
end LR

/-- Q_STATE code of a quire state (R286). -/
def qstateCode : QState → Nat
  | .disabled => 0
  | .enabled => 1
  | .waking => 2
  | .running => 3
  | .draining => 4
  | .stopping => 5
  | .frozen => 6
  | .resetting => 7

/-- PWR_STATE code of a power state (R833); S-OFF has none and is never read. -/
def powerCode : PowerState → Nat
  | .sOff => 0
  | .sRet => 1
  | .sSent => 2
  | .sIdle => 3
  | .sRun => 4

/-- The VSEL code that permits a bay clock step (R69): 0 for no bay. -/
def vselCode (step : Nat) : Nat :=
  if step = 0 then 0 else if step ≤ 300 then 1 else if step ≤ 450 then 2 else if step ≤ 600 then 3
  else if step ≤ 750 then 4 else if step ≤ 900 then 5 else if step ≤ 1050 then 6 else 7

end Sys2Proof.Machine
end

