-- ==== Sys2Proof/Machine/Ops.lean ====
section
/-! DEFINITION. The named operations every meaning is written with: sparse tables and memories, access to the
dictionary's values, counters, alerts, in-band interrupts, MSI-X messages, outputs, free values. -/

namespace Sys2Proof.Machine

/-! ### Sparse tables -/

/-- The entry of a key, if listed. -/
def Tab.find {α : Type} : Tab α → Nat → Option α
  | [], _ => none
  | (k, v) :: t, i => if i = k then some v else if i < k then none else Tab.find t i

/-- List `v` under `i`, or unlist `i`; keys stay rising. -/
def Tab.put {α : Type} : Tab α → Nat → Option α → Tab α
  | [], i, some v => [(i, v)]
  | [], _, none => []
  | (k, w) :: t, i, o =>
    if i < k then (match o with | some v => (i, v) :: (k, w) :: t | none => (k, w) :: t)
    else if i = k then (match o with | some v => (i, v) :: t | none => t)
    else (k, w) :: Tab.put t i o

/-- The value of a key; `d` is what an unlisted key holds. -/
def Tab.get {α : Type} (t : Tab α) (d : α) (i : Nat) : α := (Tab.find t i).getD d

/-- Give a key a value; the default value is not listed. -/
def Tab.set {α : Type} [DecidableEq α] (t : Tab α) (d : α) (i : Nat) (v : α) : Tab α :=
  Tab.put t i (if v = d then none else some v)

/-- Change every listed value; one that becomes the default is unlisted. -/
def Tab.mapVals {α : Type} [DecidableEq α] (d : α) (f : α → α) (t : Tab α) : Tab α :=
  t.filterMap fun e => if f e.2 = d then none else some (e.1, f e.2)

/-- Keys strictly rising from at least `lo`, no entry equal to the default. -/
def Tab.wfFrom {α : Type} [DecidableEq α] (d : α) : Nat → Tab α → Bool
  | _, [] => true
  | lo, (k, v) :: t => decide (lo ≤ k) && decide (v ≠ d) && Tab.wfFrom d (k + 1) t

/-! ### Memories (log entry 2: an unlisted byte reads zero) -/

/-- The canonical form of a memory. -/
def Mem.wf (m : Mem) : Bool := Tab.wfFrom (0 : Byte) 0 m

def Mem.read (m : Mem) (a : Nat) : Byte := Tab.get m 0 a

def Mem.write (m : Mem) (a : Nat) (b : Byte) : Mem := Tab.set m 0 a b

/-- `n` bytes from address `a`. -/
def Mem.readN (m : Mem) (a : Nat) : Nat → List Byte
  | 0 => []
  | n + 1 => Mem.read m a :: Mem.readN m (a + 1) n

/-- Write bytes from address `a` upward. -/
def Mem.writeL (m : Mem) (a : Nat) : List Byte → Mem
  | [] => m
  | b :: bs => Mem.writeL (Mem.write m a b) (a + 1) bs

/-- Little-endian number of `n` bytes at `a` (R8). -/
def Mem.readLe (m : Mem) (a n : Nat) : Nat := leNat (Mem.readN m a n)

def Mem.writeLe (m : Mem) (a n v : Nat) : Mem := Mem.writeL m a (natLe n v)

/-- The bytes of `[base, base + len)`, addressed from 0. -/
def Mem.slice : Mem → Nat → Nat → Mem
  | [], _, _ => []
  | (k, v) :: t, base, len =>
    if k < base then Mem.slice t base len
    else if k < base + len then (k - base, v) :: Mem.slice t base len
    else []

/-- Make `[base, base + len)` zero. -/
def Mem.clear : Mem → Nat → Nat → Mem
  | [], _, _ => []
  | (k, v) :: t, base, len =>
    if k < base then (k, v) :: Mem.clear t base len
    else if k < base + len then Mem.clear t base len
    else (k, v) :: t

/-- Shift every address up. -/
def Mem.shift (base : Nat) : Mem → Mem
  | [] => []
  | (k, v) :: t => (base + k, v) :: Mem.shift base t

/-- Replace `[base, base + len)` by the bytes `[0, len)` of `f`. -/
def Mem.paste : Mem → Nat → Nat → Mem → Mem
  | [], base, len, f => Mem.shift base (Mem.slice f 0 len)
  | (k, v) :: t, base, len, f =>
    if k < base then (k, v) :: Mem.paste t base len f
    else Mem.shift base (Mem.slice f 0 len) ++ Mem.clear ((k, v) :: t) base len

/-- A byte list as a memory from address 0. -/
def Mem.ofList (l : List Byte) : Mem := Mem.writeL [] 0 l

/-- Bytes of a leaf frame: 8,192 payload bytes and a 256-byte header (R657). -/
def leafBytes : Nat := 8448

/-- Leaf `n` of a memory of leaves. -/
def Mem.leaf (m : Mem) (n : Nat) : Mem := Mem.slice m (n * leafBytes) leafBytes

def Mem.setLeaf (m : Mem) (n : Nat) (f : Mem) : Mem := Mem.paste m (n * leafBytes) leafBytes f

def Mem.clearLeaves (m : Mem) (n count : Nat) : Mem := Mem.clear m (n * leafBytes) (count * leafBytes)

/-! ### Lists -/

/-- Numbers `lo` to `lo + n - 1`. -/
def upFrom (lo n : Nat) : List Nat := (List.range n).map (lo + ·)

/-- Insert a number into a rising list, once. -/
def insertNat (n : Nat) : List Nat → List Nat
  | [] => [n]
  | x :: t => if n < x then n :: x :: t else if n = x then x :: t else x :: insertNat n t

/-- The numbers of a list, rising, each once. -/
def sortNat (l : List Nat) : List Nat := l.foldr insertNat []

def ceilDiv (a b : Nat) : Nat := (a + b - 1) / b

/-- Field of `n` bytes at offset `o` of a byte list, little-endian (R8). -/
def fieldLe (l : List Byte) (o n : Nat) : Nat := leNat ((l.drop o).take n)

/-- `n` bytes at offset `o`, zero where the list is short. -/
def bytesAt (l : List Byte) (o n : Nat) : List Byte := (List.range n).map fun i => l.getD (o + i) 0

/-- Two's-complement reading of an `n`-bit number. -/
def toSigned (n v : Nat) : Int := if v % 2 ^ n < 2 ^ (n - 1) then (v % 2 ^ n : Nat) else (v % 2 ^ n : Nat) - (2 ^ n : Nat)

/-- Two's-complement encoding in `n` bits. -/
def ofSigned (n : Nat) (x : Int) : Nat := (x % (2 ^ n : Nat)).toNat

/-! ### The parts of the state -/

def State.quire (s : State) (q : QNum) : Quire := s.quires.get q
def State.setQuire (s : State) (q : QNum) (x : Quire) : State := { s with quires := s.quires.set q.val x q.isLt }
def State.modQuire (s : State) (q : QNum) (f : Quire → Quire) : State := s.setQuire q (f (s.quire q))

def State.bay (s : State) (b : BayNum) : Bay := s.bays.get b
def State.setBay (s : State) (b : BayNum) (x : Bay) : State := { s with bays := s.bays.set b.val x b.isLt }
def State.modBay (s : State) (b : BayNum) (f : Bay → Bay) : State := s.setBay b (f (s.bay b))

def State.setNv (s : State) (n : Nv) : State := { s with nv := n }
def State.setTiers (s : State) (t : Tiers) : State := { s with tiers := t }
def State.setWeave (s : State) (w : Weave) : State := { s with weave := w }
def State.setSent (s : State) (x : Sentinel) : State := { s with sent := x }
def State.setDict (s : State) (d : Dict) : State := { s with dict := d }
def State.setI3c (s : State) (x : I3c) : State := { s with i3c := x }
def State.setPm (s : State) (p : Power) : State := { s with pm := p }
def State.setClk (s : State) (c : Clocks) : State := { s with clk := c }
def State.setSt (s : State) (u : StitchUnit) : State := { s with st := u }

/-- The quires and the bays, in ascending number. -/
def allQ : List QNum := [0, 1, 2, 3, 4, 5, 6, 7]
def allB : List BayNum := [0, 1, 2, 3, 4, 5, 6, 7]

/-- Do something for every quire, in ascending number. -/
def State.forQ (s : State) (f : State → QNum → State) : State := allQ.foldl f s
def State.forB (s : State) (f : State → BayNum → State) : State := allB.foldl f s

/-- A ring of a quire. -/
def Quire.ring (x : Quire) (r : RingNum) : Ring := x.rings.get r
def Quire.setRing (x : Quire) (r : RingNum) (y : Ring) : Quire := { x with rings := x.rings.set r.val y r.isLt }

/-! ### Dictionary values -/

/-- The value of an entry (its active copy). -/
def State.rd (s : State) (k : Nat) : Nat :=
  match Tab.find s.dict.vals k with
  | some v => v
  | none => dfltVal s.sku k

/-- Give an entry a value; a default value is not listed. -/
def State.wr (s : State) (k v : Nat) : State :=
  s.setDict { s.dict with vals := Tab.put s.dict.vals k (if v = dfltVal s.sku k then none else some v) }

/-- Write several entries. -/
def State.wrs (s : State) (l : List (Nat × Nat)) : State := l.foldl (fun s p => s.wr p.1 p.2) s

/-- A BOOL entry. -/
def State.rdB (s : State) (k : Nat) : Bool := s.rd k != 0

/-- The largest value of an entry's type. -/
def State.maxOf (s : State) (k : Nat) : Nat :=
  match cardOf s.sku (k / 256) (k % 256) with
  | some c => tyMax c.ty
  | none => 0

/-- Count `n` in a counter entry; counters saturate (R934). -/
def State.count (s : State) (k : Nat) (n : Nat := 1) : State := s.wr k (min (s.rd k + n) (s.maxOf k))

/-- Subtract from a gauge entry, not below zero. -/
def State.uncount (s : State) (k : Nat) (n : Nat := 1) : State := s.wr k (s.rd k - n)

/-! ### What the Q19 sends -/

def State.emit (s : State) (o : Output) : State := { s with out := s.out ++ [o] }

/-- An MSI-X message on a vector, or its pending bit when it cannot be sent; a vector of 64 or more (0xFF) names
none (R199, R200). -/
def State.msixSend (s : State) (v : Nat) : State :=
  if h : v < 64 then
    let e := s.msix.table[v]
    if s.fn.msixEnable ∧ ¬ s.fn.funcMask ∧ ¬ e.masked then s.emit (.msix v e.addr e.data)
    else { s with msix := { s.msix with pba := s.msix.pba ||| BitVec.ofNat 64 (2 ^ v) } }
  else s

/-- Whether R184 lets an IBI of a group and code be sent: enabled by ENEC, by I3C_IBI_GROUPS, and, beyond group 0,
by the entry that configures the cause. DESIGN CHOICE (log entry 88): no entry is named for group 0b011, so none is asked
when it is sent, and a later WDT_PERIOD_MS of 0 leaves a due one due. -/
def State.ibiAllowed (s : State) (group code : Nat) : Bool :=
  s.i3c.intEn && bit (s.rd Key.i3cIbiGroups) group &&
    (match group with
     | 1 => bit (s.rd Key.sentWakeCfg) 1
     | 2 => bit (s.rd Key.alertMask) code
     | _ => true)

/-- An IBI becomes due, if R184 lets it (R186). DESIGN CHOICE (log entry 88): one that R184 does not let when its cause
occurs, or that DISEC dropped, is not raised later. -/
def State.ibiDue (s : State) (group code : Nat) : State :=
  if s.ibiAllowed group code then s.setI3c { s.i3c with ibis := s.i3c.ibis ++ [(group, code)] } else s

/-- IBIs whose conditions of R184 no longer hold are given up (R185). -/
def State.ibiRefresh (s : State) : State :=
  s.setI3c { s.i3c with ibis := s.i3c.ibis.filter fun p => s.ibiAllowed p.1 p.2 }

/-- A cause sets its bit of ALERT_CAUSE; a newly set enabled bit raises an IBI of group 0b010 (R909, R910, R912). -/
def State.alert (s : State) (cause : Nat) : State :=
  if bit (s.rd Key.alertCause) cause then s
  else (s.wr Key.alertCause (s.rd Key.alertCause + 2 ^ cause)).ibiDue 2 cause

/-- ALERT_N is driven low (R909). -/
def State.alertN (s : State) : Bool := (s.rd Key.alertCause) &&& (s.rd Key.alertMask) != 0

/-- THERM_N is asserted (R851). -/
def State.thermN (s : State) : Bool := s.rd Key.thermLevel == 6

/-! ### The auxiliary array's plane pairs and the parameter region (R128, R586, R620, R641 to R646) -/

/-- The plane pair of an auxiliary sector (R586). -/
def pairOf (sector : Nat) : Nat := sector % 4

/-- Plane pairs on which a sector program or erase of the ring runs (R620). -/
def State.ringPairs (s : State) : List Nat := s.nv.press.flatMap fun x => x.under.map pairOf

/-- Plane pairs that run no such operation: where journal appends and parameter records go (R620). -/
def State.idlePairs (s : State) : List Nat := [0, 1, 2, 3].filter fun p => !s.ringPairs.contains p

/-- Bytes of a record's value: the entry's own width, a TEXT's bytes up to its last that is not zero (R641). -/
def State.recordLen (s : State) (k v : Nat) : Nat :=
  match cardOf s.sku (k / 256) (k % 256) with
  | some c => (match c.ty with
    | .uint n => n
    | .sint n => n
    | .bits32 => 4
    | .bytes n => n
    | .text n => (List.range n).foldl (fun m i => if v / 256 ^ i % 256 = 0 then m else i + 1) 0
    | _ => 1)
  | none => 0

/-- The entries that have records. -/
def recKeys (l : List ParamRec) : List Nat := sortNat (l.map ParamRec.key)

/-- The newest valid record of an entry: of those whose CRC holds, the one with the highest sequence number (R642). -/
def newestRec (l : List ParamRec) (k : Nat) : Option ParamRec :=
  (l.filter fun r => r.key == k && r.crcOk).foldl (fun o r => match o with
    | none => some r
    | some n => if n.seq < r.seq then some r else some n) none

/-- The stored value of an entry; none: no valid record, and the entry has its factory value (R642). -/
def State.storedVal (s : State) (k : Nat) : Option Nat := (newestRec s.nv.recs k).map ParamRec.value

/-- The last sequence number of an entry's records (R641). -/
def State.lastSeq (s : State) (k : Nat) : Nat := (s.nv.recs.filter fun r => r.key == k).foldl (fun m r => max m r.seq) 0

/-- Two copies of a record, in sectors on two different plane pairs that run no sector operation of the ring (R620, R641;
which of them: log entry 98). -/
def State.twoCopies (s : State) (k v seq : Nat) : List ParamRec :=
  let p := s.idlePairs
  [p.getD 0 0, p.getD 1 1].map fun pair =>
    { key := k, len := s.recordLen k v, value := v, seq := seq, pair := pair, crcOk := true }

/-- Sectors the newest records of the stored entries fill after a compaction, two copies each, 16 units to a sector
(log entry 19). -/
def State.paramSectors (s : State) : Nat := 2 * ceilDiv (recKeys s.nv.recs).length 16

/-- A compaction copies the newest valid record of every entry, two copies each, and erases the rest (R644). -/
def State.compactRecs (s : State) : State :=
  s.setNv { s.nv with recs := (recKeys s.nv.recs).flatMap fun k => match newestRec s.nv.recs k with
    | some r => s.twoCopies k r.value r.seq
    | none => [] }

/-- One record goes into each of two open sectors; full ones are replaced by erased ones, and fewer than 32 erased
sectors start a compaction (R641, R644; log entry 19). -/
def State.paramRecord (s : State) (k v : Nat) : State :=
  let s := s.setNv { s.nv with recs := s.nv.recs ++ s.twoCopies k v ((s.lastSeq k + 1) % 2 ^ 32) }
  let s := if 16 ≤ s.nv.paramUnits ∨ s.nv.paramUnits = 0 then
      (s.setNv { s.nv with paramUnits := 1 }).uncount Key.paramErased 2
    else s.setNv { s.nv with paramUnits := s.nv.paramUnits + 1 }
  if s.rd Key.paramErased < 32 then
    let s := s.compactRecs
    ((s.setNv { s.nv with paramUnits := (recKeys s.nv.recs).length % 16 }).wrs
      [(Key.paramErased, s.rd Key.paramUsable - s.paramSectors),
       (Key.paramCyclesMax, min (s.rd Key.paramCyclesMax + 1) 0xFFFFFFFF)]).count Key.paramCompactions
  else s

/-- A stored entry takes a value; a write of the stored value programs nothing (R128). -/
def State.wrStored (s : State) (k v : Nat) : State := if s.rd k = v then s else (s.paramRecord k v).wr k v

/-- The management controller reads the whole parameter region at boot and holds every stored value (R642, R643); the class
keys go to the key engine (R881). An entry without a valid record has its factory value, but for COLOPHON_LOCKED, which
nothing clears (R247; log entry 98). `bad` names the copies whose CRC fails, by their position in the region's order. -/
def State.mountParams (s : State) (bad : List Nat) : State :=
  let recs := (s.nv.recs.zip (List.range s.nv.recs.length)).map fun p =>
    if bad.contains p.2 then { p.1 with crcOk := false } else p.1
  let s := s.setNv { s.nv with recs := recs }
  let locked := s.rd Key.colophonLocked
  let s := ((recKeys recs).filter fun k => k / 256 != Key.classKey 0 / 256).foldl (fun s k =>
    s.wr k ((s.storedVal k).getD (dfltVal s.sku k))) s
  if locked = 1 then s.wr Key.colophonLocked 1 else s

/-- A new write to a stored entry would program a region that has too few sectors (R646). -/
def State.paramFull (s : State) : Bool := decide (s.rd Key.paramUsable < 64)

/-! ### Free values -/

/-- The next free value (log entry 8). -/
def State.fresh (s : State) : Nat × State := (Config.free s.freeCtr, { s with freeCtr := s.freeCtr + 1 })

/-! ### Conditions the chapters share -/

/-- The core domain is powered (R60). -/
def State.coreOn (s : State) : Bool :=
  match s.power with
  | .sIdle => true
  | .sRun => true
  | _ => false

/-- The device is held in a reset: no boot has run, or a reset line holds it (R52, R54, R65, R104, R225). -/
def State.running (s : State) : Bool := s.boot != .waiting && s.power != .sOff

/-- The device is up: normal boot has run. -/
def State.up (s : State) : Bool := s.boot == .normal && s.power != .sOff

/-- A JTAG instruction that governs the balls and holds the device in reset: EXTEST, HIGHZ or CLAMP (R104). -/
def holdsBalls (ir : BitVec 6) : Bool := ir == 0 || ir == 4 || ir == 5

/-- The reset lines or the TAP hold the device in reset (R47, R52, R54, R62, R65, R104). -/
def State.heldInReset (s : State) : Bool :=
  !s.pins.aonUp || !s.pins.aonReleased || !s.pins.resetN || !s.pins.pgood || s.pins.testen || holdsBalls s.jtag.ir

/-- CLKIN_38M4 counts as detected (R85): the ball carries the clock, and the Q19 measures it against the quick
oscillator. It ignores the ball in reset and while the core domain is not powered (R47, R49). -/
def State.clkinSeen (s : State) : Bool := s.pins.clkin && s.coreOn && s.clk.quickOsc && !s.heldInReset

def State.setPins (s : State) (p : Pins) : State := { s with pins := p }

/-- A wake that needs a PLL is held while CLKIN_38M4 is not detected, and the wait is counted (R86). -/
def State.holdWake (s : State) : State :=
  if s.clk.clkWait then s else (s.setClk { s.clk with clkWait := true }).count Key.clkinWaits

/-- Bank groups (R4). -/
def State.groups (s : State) : Nat :=
  match s.sku with
  | .q24 => 12
  | .q16 => 8

/-- Answer a dictionary write given as its own command. -/
def State.answer (s : State) (status : Nat) : State := s.emit (.status status)

/-- ROLE answers are counted (R125). -/
def State.noteStatus (s : State) (st : Nat) : State := if st = DS.role then s.count Key.dictRole else s

end Sys2Proof.Machine
end

