-- ==== Sys2Proof/Machine/Formats.lean ====
section
/-! DEFINITION. Number formats (10): floating-point encodings and their one rounding, grids, LNS16 with its
correction tables (09), scale bytes and leaf headers. -/

namespace Sys2Proof.Machine

/-! ### Floating point (R464 to R466, R474 to R476) -/

/-- A floating-point value: (−1)^neg · m · 2^e, an infinity, or a NaN. -/
inductive Num where
  | nan
  | inf (neg : Bool)
  | fin (neg : Bool) (m : Nat) (e : Int)
  deriving DecidableEq, Repr

/-- A binary format: significand bits and lowest exponent of a unit in the last place, and the encoding of infinity. -/
structure FloatFmt where
  width : Nat
  prec : Nat
  ulpMin : Int
  infEnc : Nat
  deriving DecidableEq, Repr

def bf16 : FloatFmt := { width := 16, prec := 8, ulpMin := -133, infEnc := 0x7F80 }
def fp16 : FloatFmt := { width := 16, prec := 11, ulpMin := -24, infEnc := 0x7C00 }
def fp32 : FloatFmt := { width := 32, prec := 24, ulpMin := -149, infEnc := 0x7F800000 }

/-- The quiet NaN a unit writes (R466). -/
def FloatFmt.qnan (f : FloatFmt) : Nat := f.infEnc + 2 ^ (f.prec - 2)

def FloatFmt.signBit (f : FloatFmt) : Nat := 2 ^ (f.width - 1)

/-- The value of an encoding. -/
def FloatFmt.decode (f : FloatFmt) (v : Nat) : Num :=
  let neg := decide (f.signBit ≤ v % 2 ^ f.width)
  let a := v % f.signBit
  let h := 2 ^ (f.prec - 1)
  if f.infEnc < a then .nan
  else if a = f.infEnc then .inf neg
  else if a < h then .fin neg a f.ulpMin
  else .fin neg (h + a % h) (f.ulpMin + (a / h - 1 : Nat))

/-- `n / d` rounded to the nearest integer, ties up (away from zero for a magnitude). -/
def roundDiv (n d : Nat) : Nat := (2 * n + d) / (2 * d)

def pow2 (e : Int) : Nat := 2 ^ e.toNat

/-- The encoding of the magnitude `n / d` rounded once, ties away from zero; infinity beyond the format (R475). -/
def FloatFmt.roundMag (f : FloatFmt) (n d : Nat) : Nat :=
  if n = 0 then 0
  else
    let e0 : Int := (Nat.log2 n : Int) - Nat.log2 d
    let e : Int := if n * pow2 (-e0) < d * pow2 e0 then e0 - 1 else e0
    let u : Int := max (e - (f.prec - 1 : Nat)) f.ulpMin
    let m := roundDiv (n * pow2 (-u)) (d * pow2 u)
    min ((u - f.ulpMin).toNat * 2 ^ (f.prec - 1) + m) f.infEnc

def FloatFmt.signed (f : FloatFmt) (neg : Bool) (mag : Nat) : Nat := if neg then f.signBit + mag else mag

/-- The encoding of an exact dyadic `s · 2^e`, zero as +0. -/
def FloatFmt.roundDyadic (f : FloatFmt) (s e : Int) : Nat :=
  f.signed (decide (s < 0)) (f.roundMag (s.natAbs * pow2 e) (pow2 (-e)))

/-- The encoding of a value rounded to the format. -/
def FloatFmt.encode (f : FloatFmt) : Num → Nat
  | .nan => f.qnan
  | .inf neg => f.signed neg f.infEnc
  | .fin neg m e => f.signed neg (f.roundMag (m * pow2 e) (pow2 (-e)))

def Num.isFinite : Num → Bool
  | .fin _ _ _ => true
  | _ => false

/-- Significand with its sign. -/
def Num.sig : Num → Int
  | .fin neg m _ => if neg then -(m : Int) else m
  | _ => 0

def Num.exp : Num → Int
  | .fin _ _ e => e
  | _ => 0

/-- Sum of two dyadics: numerator and exponent. -/
def dyAdd (s1 e1 s2 e2 : Int) : Int × Int :=
  let e := min e1 e2
  (s1 * pow2 (e1 - e) + s2 * pow2 (e2 - e), e)

/-- Compare `s1 · 2^e1` with `s2 · 2^e2`: strictly below. -/
def dyLt (s1 e1 s2 e2 : Int) : Bool :=
  let e := min e1 e2
  decide (s1 * pow2 (e1 - e) < s2 * pow2 (e2 - e))

/-- fma(a, b, c) in FP32 with one rounding, ties away from zero (R464, R466). `c` is an FP32 encoding. -/
def fma32 (a b : Num) (c : Nat) : Nat :=
  match a, b, fp32.decode c with
  | .nan, _, _ => fp32.qnan
  | _, .nan, _ => fp32.qnan
  | _, _, .nan => fp32.qnan
  | .inf n1, .inf n2, .inf n3 => if (n1 != n2) = n3 then fp32.signed n3 fp32.infEnc else fp32.qnan
  | .inf n1, .inf n2, .fin _ _ _ => fp32.signed (n1 != n2) fp32.infEnc
  | .inf n1, .fin n2 m _, x =>
    if m = 0 then fp32.qnan
    else (match x with
      | .inf n3 => if (n1 != n2) = n3 then fp32.signed n3 fp32.infEnc else fp32.qnan
      | _ => fp32.signed (n1 != n2) fp32.infEnc)
  | .fin n1 m _, .inf n2, x =>
    if m = 0 then fp32.qnan
    else (match x with
      | .inf n3 => if (n1 != n2) = n3 then fp32.signed n3 fp32.infEnc else fp32.qnan
      | _ => fp32.signed (n1 != n2) fp32.infEnc)
  | .fin _ _ _, .fin _ _ _, .inf n3 => fp32.signed n3 fp32.infEnc
  | .fin n1 m1 e1, .fin n2 m2 e2, .fin n3 m3 e3 =>
    let np := n1 != n2
    let p : Int := if np then -((m1 * m2 : Nat) : Int) else (m1 * m2 : Nat)
    let k : Int := if n3 then -(m3 : Int) else m3
    let r := dyAdd p (e1 + e2) k e3
    if r.1 = 0 then fp32.signed (np && n3) 0 else fp32.roundDyadic r.1 r.2

/-- `acc + s · 2^e` in FP32, one rounding. -/
def addDyadic32 (acc : Nat) (s e : Int) : Nat :=
  match fp32.decode acc with
  | .nan => fp32.qnan
  | .inf n => fp32.signed n fp32.infEnc
  | .fin n m x =>
    let r := dyAdd (if n then -(m : Int) else m) x s e
    if r.1 = 0 then 0 else fp32.roundDyadic r.1 r.2

/-- `acc + n / d` in FP32 for a non-negative FP32 and rational, one rounding. -/
def addRat32 (acc n d : Nat) : Nat :=
  match fp32.decode acc with
  | .nan => fp32.qnan
  | .inf neg => fp32.signed neg fp32.infEnc
  | .fin _ m e => fp32.roundMag (m * pow2 e * d + n * pow2 (-e)) (pow2 (-e) * d)

/-- A non-negative FP32 divided by a count; 0 for a count of 0 (R520). -/
def divCount32 (v count : Nat) : Nat :=
  if count = 0 then 0
  else
    match fp32.decode v with
    | .nan => fp32.qnan
    | .inf neg => fp32.signed neg fp32.infEnc
    | .fin _ m e => fp32.roundMag (m * pow2 e) (pow2 (-e) * count)

/-! ### Grids (R477 to R480) -/

/-- Non-negative levels of G4, G6 and the positive levels of G3. -/
def gridL4 : List Nat := [0, 13, 26, 40, 56, 73, 95, 127]
def gridL6 : List Nat :=
  [0, 2, 5, 7, 9, 12, 14, 16] ++ [19, 21, 24, 26, 29, 31, 34, 37] ++ [40, 43, 46, 49, 52, 56, 60, 64] ++
    [68, 73, 78, 84, 90, 99, 110, 127]
def gridL3 : List Nat := [13, 40, 73, 127]

/-- Level of a G4 code; the escape code contributes 0 (R478, R483). -/
def levelG4 (m : Nat) : Int := if m = 8 then 0 else if m < 8 then gridL4.getD m 0 else -(gridL4.getD (16 - m) 0 : Int)
def levelG6 (m : Nat) : Int := if m = 32 then 0 else if m < 32 then gridL6.getD m 0 else -(gridL6.getD (64 - m) 0 : Int)
def levelG3 (m : Nat) : Int := if m < 4 then gridL3.getD m 0 else -(gridL3.getD (7 - m) 0 : Int)

/-- The converter's output formats, by FMT (R374, R499). -/
def fmtCapacity (fmt : Nat) : Nat :=
  match fmt with
  | 0 => 8192
  | 1 => 16384
  | 2 => 21504
  | 3 => 16384
  | _ => 10752

def fmtLmax (fmt : Nat) : Nat := if fmt = 1 then 7 else 127

/-- FORMAT code of a converter output (R491). -/
def fmtFormat (fmt : Nat) : Nat :=
  match fmt with
  | 0 => 0x0E
  | 1 => 0x0F
  | 2 => 0x02
  | 3 => 0x03
  | _ => 0x04

/-- Index in a rising list of magnitudes nearest to `n / d`, the greater magnitude of two equally near (R477). -/
def nearestIdx (l : List Nat) (n d : Nat) : Nat :=
  ((List.range l.length).foldl (fun (b : Option (Nat × Nat)) i =>
    let x := l.getD i 0 * d
    let dist := (x - n) + (n - x)
    match b with
    | none => some (i, dist)
    | some (j, best) => if dist ≤ best then some (i, dist) else some (j, best)) none).getD (0, 0) |>.1

/-- The code of a sign and a level index. -/
def gridCode (fmt : Nat) (neg : Bool) (i : Nat) : Nat :=
  match fmt with
  | 2 => if neg then 7 - i else i
  | 3 => if neg then (16 - i) % 16 else i
  | _ => if neg then (64 - i) % 64 else i

def gridOf (fmt : Nat) : List Nat :=
  match fmt with
  | 2 => gridL3
  | 3 => gridL4
  | _ => gridL6

/-- Code and level of `(−1)^neg · n / d` in a converter format, for a value in range (R506). -/
def convCode (fmt : Nat) (neg : Bool) (n d : Nat) : Nat × Int :=
  if fmt < 2 then
    let v := roundDiv n d
    let x : Int := if neg then -(v : Int) else v
    (ofSigned (if fmt = 0 then 8 else 4) x, x)
  else
    let neg := neg && n != 0
    let i := nearestIdx (gridOf fmt) n d
    let v := (gridOf fmt).getD i 0
    (gridCode fmt neg i, if neg then -(v : Int) else v)

/-- Code and level of ±Lmax (R507). -/
def convLimit (fmt : Nat) (neg : Bool) : Nat × Int :=
  let l := fmtLmax fmt
  (if fmt < 2 then ofSigned (if fmt = 0 then 8 else 4) (if neg then -(l : Int) else l)
    else gridCode fmt neg ((gridOf fmt).length - 1), if neg then -(l : Int) else l)

/-- Place code `c` of field `p` in a payload, packed for the format (R425, R430, R498). -/
def putField (fmt p c : Nat) (m : Mem) (base : Nat) : Mem :=
  match fmt with
  | 0 => Mem.write m (base + p) (BitVec.ofNat 8 c)
  | 2 =>
    let a := base + 3 * (p / 8)
    let v := Mem.readLe m a 3
    let sh := 2 ^ (3 * (p % 8))
    Mem.writeLe m a 3 (v - (v / sh % 8) * sh + c * sh)
  | 4 =>
    let a := base + 3 * (p / 4)
    let v := Mem.readLe m a 3
    let sh := 2 ^ (6 * (p % 4))
    Mem.writeLe m a 3 (v - (v / sh % 64) * sh + c * sh)
  | _ =>
    let a := base + p / 2
    let v := (Mem.read m a).toNat
    Mem.write m a (BitVec.ofNat 8 (if p % 2 = 0 then v / 16 * 16 + c else v % 16 + 16 * c))

/-- Field `f` of a payload that starts at `base`: a nibble, a 6-bit or a 3-bit code (R430). -/
def nibbleAt (m : Mem) (base f : Nat) : Nat :=
  let v := (Mem.read m (base + f / 2)).toNat
  if f % 2 = 0 then v % 16 else v / 16

def sixAt (m : Mem) (base f : Nat) : Nat := Mem.readLe m (base + 3 * (f / 4)) 3 / 2 ^ (6 * (f % 4)) % 64
def threeAt (m : Mem) (base f : Nat) : Nat := Mem.readLe m (base + 3 * (f / 8)) 3 / 2 ^ (3 * (f % 8)) % 8

/-! ### Scale bytes (R485 to R488) -/

/-- The shift a scale byte encodes; none for an all-zero block (R485, R487). -/
def scaleShift (v : Nat) : Option Nat := if bit v 7 then none else some (v % 16)

/-- The fresh scale of a block maximum (FP32 encoding) for a format (R504). -/
def freshScale (fmt : Nat) (bexp : Int) (mx : Nat) : Nat :=
  match fp32.decode mx with
  | .fin _ m e =>
    if m = 0 then 0x80
    else ((List.range 16).find? fun (s : Nat) => !dyLt ((fmtLmax fmt : Nat) : Int) (bexp + (s : Int)) (m : Int) e).getD 15
  | _ => 15

/-! ### LNS16 (R452 to R462) -/

/-- L of an LNS16 value, in units of 2^(−10); none for zero (R453). -/
def lnsL (v : Nat) : Option Int := if v % 0x8000 = 0x4000 then none else some (toSigned 15 (v % 0x8000))
def lnsNeg (v : Nat) : Bool := bit v 15

/-- An LNS16 result with its limits (R454). -/
def lnsMake (neg : Bool) (l : Int) : Nat :=
  if 16384 ≤ l then (if neg then 0x8000 else 0) + 0x3FFF
  else if l < -16383 then 0x4000
  else (if neg then 0x8000 else 0) + ofSigned 15 l

/-- LNS_MUL of two values (R455). -/
def lnsMul (a b : Nat) : Nat :=
  match lnsL a, lnsL b with
  | some x, some y => lnsMake (lnsNeg a != lnsNeg b) (x + y)
  | _, _ => 0x4000

/-- The correction table f⁺ at d = k/4, in units of 2^(−10) (R459). -/
def lnsPlus : List Nat :=
  [1024, 902, 790, 689, 599, 518, 447, 385, 330, 282, 240, 205, 174, 148, 125, 106] ++
  [90, 76, 64, 54, 45, 38, 32, 27, 23, 19, 16, 14, 11, 10, 8, 7] ++
  [6, 5, 4, 3, 3, 2, 2, 2, 1, 1, 1, 1, 1, 1, 1, 0] ++ List.replicate 16 0

/-- The correction table −f⁻ at the points of R460, in units of 2^(−10). -/
def lnsMinus : List Nat :=
  [3677, 3555, 3433, 3312, 3191, 3071, 2952, 2833, 2716, 2599, 2483, 2368, 2255, 2142, 2032, 1922] ++
  [1814, 1708, 1603, 1501, 1401, 1303, 1207, 1114, 1024, 937, 853, 772, 695, 621, 552, 486] ++
  [425, 368, 316, 268, 224, 185, 151, 121, 95, 74, 56, 41, 30, 21, 14, 9] ++
  [6, 3, 2, 1, 1, 0, 0, 0, 0, 0, 0, 0, 0, 0, 0, 0]

/-- The points d_k = 2^(k/8 − 3) of R460 within an octave, in units of 2^(−40) of its first point: ⌊2^(40 + j/8)⌋. -/
def lnsOctave : List Nat := 
  [1099511627776, 1199025932245, 1307547050779, 1425890169698] ++
  [1554944255987, 1695678735018, 1849150772653, 2016513216442]

/-- Point k of R460, in units of 2^(−50): d_k · 1,024 in units of 2^(−40). -/
def lnsPoint (k : Nat) : Nat := lnsOctave.getD (k % 8) 0 * 2 ^ (7 + k / 8)

/-- f⁺(d), d in units of 2^(−10) (R459, R461). -/
def lnsFPlus (d : Nat) : Nat :=
  if 63 * 256 < d then 0
  else
    let k := d / 256
    let a := lnsPlus.getD k 0
    let b := lnsPlus.getD (k + 1) 0
    -- a ≥ b: a − (a − b)·(d − 256k)/256, rounded with R
    roundDiv (a * 256 - (a - b) * (d % 256)) 256

/-- −f⁻(d) for d of at least 0.125, d in units of 2^(−10) (R460, R461). -/
def lnsFMinus (d : Nat) : Nat :=
  let x := d * 2 ^ 40
  if lnsPoint 63 < x then 0
  else
    let k := ((List.range 63).filter fun i => lnsPoint i ≤ x).length - 1
    let a := lnsMinus.getD k 0
    let b := lnsMinus.getD (k + 1) 0
    let den := lnsPoint (k + 1) - lnsPoint k
    roundDiv (a * den - (a - b) * (x - lnsPoint k)) den

/-- x ⊕ y (R458, R462). -/
def lnsAdd (a b : Nat) : Nat :=
  match lnsL a, lnsL b with
  | none, none => 0x4000
  | none, some _ => b
  | some _, none => a
  | some x, some y =>
    let big := if y ≤ x then a else b
    let l := max x y
    let d := (l - min x y).toNat
    if lnsNeg a = lnsNeg b then lnsMake (lnsNeg big) (l + lnsFPlus d)
    else if d < 128 then 0x4000
    else lnsMake (lnsNeg big) (l - lnsFMinus d)

/-- ⌊2,048 · log2(m / 128)⌋ for 128 ≤ m < 256. -/
def log2Frac (m : Nat) : Nat := Nat.log2 (m ^ 2048) - 7 * 2048

/-- LNS_FROMLIN of a BF16 encoding (R455, R457). -/
def lnsFromLin (v : Nat) : Nat :=
  match bf16.decode v with
  | .nan => 0x4000
  | .inf neg => (if neg then 0x8000 else 0) + 0x3FFF
  | .fin neg m e => if m < 128 then 0x4000 else lnsMake neg ((e + 7) * 1024 + ((log2Frac m + 1) / 2 : Nat))

/-- ⌊2^(b) · 2^(f/1024)⌋ by bisection on `n` bits below `hi`: the largest m with m^1024 ≤ 2^(1024·b + f). -/
def rootBits (target : Nat) : Nat → Nat → Nat
  | 0, m => m
  | n + 1, m => if (m + 2 ^ n) ^ 1024 ≤ target then rootBits target n (m + 2 ^ n) else rootBits target n m

/-- ⌊2^b · 2^(f/1024)⌋ for f below 1,024. -/
def exp2Floor (b f : Nat) : Nat := rootBits (2 ^ (1024 * b + f)) b (2 ^ b)

/-- LNS_TOLIN to a BF16 encoding (R455). -/
def lnsToLin (v : Nat) : Nat :=
  match lnsL v with
  | none => 0
  | some l =>
    let f := (l % 1024).toNat
    let e := l / 1024
    -- one more bit than the significand holds, then R
    let m := (exp2Floor 8 f + 1) / 2
    bf16.signed (lnsNeg v) (((e + 126).toNat) * 128 + m)

end Sys2Proof.Machine
end

