-- ==== Sys2Proof/Machine/Imposition.lean ====
section
/-! DEFINITION. Impositions (08, 11): the header, the 128-bit entry, and the structural checks of R421 in the order of
R936. An imposition is a function from byte offset to byte, with its length. -/

namespace Sys2Proof.Machine

/-- Little-endian field of an imposition or a binding table. -/
def fld (f : Nat → Byte) (o n : Nat) : Nat := leNat ((List.range n).map fun i => f (o + i))

/-! ### The header (R360) -/

def parseHeader (f : Nat → Byte) : ImpHeader :=
  { hflags := fld f 5 1, bays := fld f 6 1, epochStart := fld f 7 1, wakeBudget := fld f 8 4, bindings := fld f 12 2,
    stitches := fld f 14 2, t0Slots := fld f 16 1, t1Slice := fld f 18 2, t1Commons := fld f 20 2,
    compiledStep := fld f 22 2, nominal := fld f 24 8, hardBound := fld f 32 8, streamSlots := fld f 40 2,
    weaveGap := fld f 42 2, bgMask := fld f 44 2, specStage := fld f 46 2, armCount := fld f 52 2,
    streamStart := (List.range 8).map fun i => fld f (56 + 8 * i) 4,
    streamCount := (List.range 8).map fun i => fld f (60 + 8 * i) 4,
    fallback := (List.range 16).map fun k => (fld f (120 + 8 * k) 1, fld f (121 + 8 * k) 3, fld f (124 + 8 * k) 4) }

def ImpHeader.start (h : ImpHeader) (i : Nat) : Nat := h.streamStart.getD i 0
def ImpHeader.cnt (h : ImpHeader) (i : Nat) : Nat := h.streamCount.getD i 0

def ImpHeader.usesSpec (h : ImpHeader) : Bool := bit h.hflags 0

/-- E, the entries of the entry region (R361). -/
def ImpHeader.total (h : ImpHeader) : Nat := (List.range h.bays).foldl (fun m i => max m (h.start i + h.cnt i)) 0

/-- Entry `k` of the imposition as a number (R360). -/
def entryNat (f : Nat → Byte) (k : Nat) : Nat := fld f (256 + 16 * k) 16

/-- Arm record `r` (R361). -/
def parseArm (f : Nat → Byte) (h : ImpHeader) (r : Nat) : ArmRec :=
  let o := 256 + 16 * h.total + 80 * r
  { start := (List.range 8).map fun a => fld f (o + 8 * a) 4, count := (List.range 8).map fun a => fld f (o + 8 * a + 4) 4,
    join := fld f (o + 64) 4 }

/-! ### Validation codes (R421) -/
namespace VC
def magic : Nat := 0x01
def contract : Nat := 0x02
def reserved : Nat := 0x03
def headerRange : Nat := 0x04
def size : Nat := 0x05
def opcode : Nat := 0x06
def operand : Nat := 0x07
def noEnd : Nat := 0x08
def stamp : Nat := 0x09
def loop : Nat := 0x0A
def fork : Nat := 0x0B
def fence : Nat := 0x0C
def spec : Nat := 0x0D
def binding : Nat := 0x0E
def weaveClass : Nat := 0x0F
def clockStep : Nat := 0x10
def streamLimit : Nat := 0x11
def decision : Nat := 0x12
end VC

/-- A failed check: its validation code and the byte offset it reports. -/
abbrev Failure := Nat × Nat

def failIf (c : Bool) (code offset : Nat) : List Failure := if c then [(code, offset)] else []

/-- A clock step of R70. -/
def isStep (n : Nat) : Bool := [300, 450, 600, 750, 900, 1050, 1200].contains n

/-- Step 1 of R936: the header fields, in ascending offset. -/
def headerFails (f : Nat → Byte) : List Failure :=
  let h := parseHeader f
  failIf (fld f 0 4 != 0x4D49584B) VC.magic 0 ++ failIf (fld f 4 1 != 3) VC.contract 4 ++
  failIf (decide (3 < h.hflags)) VC.reserved 5 ++ failIf (h.bays == 0 || decide (8 < h.bays)) VC.headerRange 6 ++
  failIf (decide (15 < h.epochStart)) VC.reserved 7 ++ failIf (decide (256 < h.bindings)) VC.headerRange 12 ++
  failIf (decide (h.bindings < h.stitches)) VC.headerRange 14 ++
  failIf (h.t0Slots == 0 || decide (64 < h.t0Slots)) VC.headerRange 16 ++ failIf (fld f 17 1 != 0) VC.reserved 17 ++
  failIf (decide (1489 < h.t1Slice)) VC.headerRange 18 ++ failIf (decide (1985 < h.t1Commons)) VC.headerRange 20 ++
  failIf (!isStep h.compiledStep) VC.headerRange 22 ++
  failIf (h.hardBound != 0 && decide (h.hardBound < h.nominal)) VC.headerRange 32 ++
  failIf (h.weaveGap == 0 || decide (1024 < h.weaveGap)) VC.headerRange 42 ++
  failIf (decide (0xFFF < h.bgMask)) VC.reserved 44 ++
  failIf (!h.usesSpec && h.specStage != 0) VC.headerRange 46 ++
  failIf (decide (1024 < h.armCount)) VC.headerRange 52 ++ failIf (fld f 54 2 != 0) VC.reserved 54 ++
  ((List.range 8).flatMap fun i =>
    failIf (decide (h.bays ≤ i) && h.start i != 0) VC.headerRange (56 + 8 * i) ++
    failIf (decide (h.bays ≤ i) && h.cnt i != 0) VC.headerRange (60 + 8 * i)) ++
  ((List.range 16).flatMap fun k =>
    let a := fld f (120 + 8 * k) 1
    failIf (decide (7 < a) && a != 0xFF) VC.headerRange (120 + 8 * k)) ++
  failIf (fld f 248 8 != 0) VC.reserved 248

/-- Streams `i` and `j` overlap. -/
def ImpHeader.overlap (h : ImpHeader) (i j : Nat) : Bool :=
  decide (h.start i < h.start j + h.cnt j ∧ h.start j < h.start i + h.cnt i)

/-- Step 2: SIZE. A short imposition is reported at ARM_COUNT (log entry 15). -/
def sizeFails (f : Nat → Byte) (len : Nat) : List Failure :=
  let h := parseHeader f
  let off := fld f 48 4
  failIf (off != if h.armCount = 0 then 0 else 256 + 16 * h.total) VC.size 48 ++
  failIf (decide (len < 256 + 16 * h.total + 80 * h.armCount)) VC.size 52 ++
  (List.range h.bays).flatMap fun i =>
    failIf ((List.range i).any fun j => h.overlap i j) VC.size (56 + 8 * i) ++
    failIf (decide (262144 < 256 + 16 * h.cnt i + 80 * h.armCount)) VC.size (60 + 8 * i)

/-! ### Entries (R367 to R378) -/

namespace Ent
def delta (w : Nat) : Nat := bits w 127 112
def op (w : Nat) : Nat := bits w 111 104
def cls (w : Nat) : Nat := bits w 103 100
def index (w : Nat) : Nat := bits w 99 96
def uop (w : Nat) : Nat := bits w 95 88
end Ent

/-- What an entry is. -/
inductive Kind where
  | teBuild | teLookup | teClear | teRescale | escApply
  | lnsMul | lnsAdd | lnsReduce | lnsFromlin | lnsTolin
  | refFma | refCast | refTopk
  | convPass1 | convPass2 | convCarry | convStats
  | movIn | movOut | stream
  | waitStitch | signalStitch | fork | specBegin | specCommit | specCancel | precisionFence | maintSlot | loop | idle
  | endStream
  deriving DecidableEq, Repr

def controlKind (op : Nat) : Option Kind :=
  match op with
  | 0x02 => some .waitStitch
  | 0x03 => some .signalStitch
  | 0x04 => some .fork
  | 0x05 => some .specBegin
  | 0x06 => some .specCommit
  | 0x07 => some .specCancel
  | 0x08 => some .precisionFence
  | 0x09 => some .maintSlot
  | 0x0A => some .loop
  | 0x0B => some .idle
  | 0x0C => some .endStream
  | _ => none

def issueKind (cls uop : Nat) : Option Kind :=
  match cls, uop with
  | 1, 1 => some .teBuild
  | 1, 2 => some .teLookup
  | 1, 3 => some .teClear
  | 1, 4 => some .teRescale
  | 2, 1 => some .escApply
  | 3, 1 => some .lnsMul
  | 3, 2 => some .lnsAdd
  | 3, 3 => some .lnsReduce
  | 3, 4 => some .lnsFromlin
  | 3, 5 => some .lnsTolin
  | 4, 1 => some .refFma
  | 4, 2 => some .refCast
  | 4, 3 => some .refTopk
  | 5, 1 => some .convPass1
  | 5, 2 => some .convPass2
  | 5, 3 => some .convCarry
  | 5, 4 => some .convStats
  | 6, 1 => some .movIn
  | 6, 2 => some .movOut
  | 7, 1 => some .stream
  | _, _ => none

/-- The entry's kind; none for a reserved opcode, class, index or UOP (R368, R369, R374). -/
def kindOf (w : Nat) : Option Kind :=
  if Ent.op w = 1 then
    if (Ent.cls w = 1 ∨ Ent.cls w = 2) ∧ 3 < Ent.index w ∨ 2 < Ent.cls w ∧ Ent.index w ≠ 0 then none
    else issueKind (Ent.cls w) (Ent.uop w)
  else controlKind (Ent.op w)

def isIssue (w : Nat) : Bool := Ent.op w == 1

/-- The operand bits an entry's fields occupy: (high, low) (R373, R374). -/
def Kind.fields : Kind → List (Nat × Nat)
  | .teBuild => [(95, 65)]
  | .teLookup => [(95, 63)]
  | .teClear => [(95, 80)]
  | .teRescale => [(95, 63)]
  | .escApply => [(95, 67)]
  | .lnsMul => [(95, 67)]
  | .lnsAdd => [(95, 67)]
  | .lnsReduce => [(95, 81), (73, 67)]
  | .lnsFromlin => [(95, 81), (73, 67)]
  | .lnsTolin => [(95, 81), (73, 67)]
  | .refFma => [(95, 69)]
  | .refCast => [(95, 77)]
  | .refTopk => [(95, 69)]
  | .convPass1 => [(95, 79)]
  | .convPass2 => [(95, 69)]
  | .convCarry => [(95, 63)]
  | .convStats => [(95, 79)]
  | .movIn => [(95, 45)]
  | .movOut => [(95, 45)]
  | .stream => [(95, 40)]
  | .waitStitch => [(95, 56)]
  | .signalStitch => [(95, 56)]
  | .fork => [(95, 58)]
  | .specBegin => [(95, 76)]
  | .specCommit => [(95, 81)]
  | .specCancel => [(95, 94)]
  | .precisionFence => []
  | .maintSlot => [(95, 68)]
  | .loop => [(95, 27)]
  | .idle => [(95, 55)]
  | .endStream => []

/-- The lowest bit of [103:0] outside the fields that is set; bits [103:96] are CLASS and INDEX, 0 outside ISSUE. -/
def reservedBit (k : Kind) (w : Nat) : Option Nat :=
  let fs := if isIssue w then (103, 96) :: k.fields else k.fields
  let fs := if k = .specCommit ∧ bit w 81 then [(95, 94), (81, 81)] else fs
  (List.range 104).find? fun i => bit w i && !fs.any fun p => p.2 ≤ i && i ≤ p.1

/-! ### Operands -/

/-- Decision registers exist for a class, index and register number (R379). -/
def isDreg (cls index dreg : Nat) : Bool :=
  index == 0 && ((cls == 0 && dreg == 0) || (cls == 4 && decide (dreg ≤ 8)) || (cls == 5 && decide (dreg ≤ 1)))

/-- Slots a slot reference may name: SLOT, and with ALT its other form (R370). -/
def tsForms (ts : Nat) : List Nat :=
  let n := ts % 64
  if bit ts 6 then [n, if n % 2 = 0 then n + 1 else n - 1] else [n]

/-- Operands outside their range, as the offset in the entry of the field that fails. DESIGN CHOICE (log entry 95): a
reserved MODE 6 or 7 is an operand outside its range. -/
def operandFails (h : ImpHeader) (k : Kind) (w : Nat) : List Nat :=
  let bad := fun (c : Bool) (lo : Nat) => if c then [lo / 8] else []
  match k with
  | .waitStitch => bad (decide (h.bindings ≤ bits w 95 88)) 88
  | .signalStitch => bad (bits w 87 56 == 0) 56 ++ bad (decide (h.bindings ≤ bits w 95 88)) 88
  | .fork =>
    bad (decide (h.bays ≤ bits w 91 89)) 89 ++ bad (!isDreg (bits w 88 85) (bits w 84 81) (bits w 80 77)) 77
  | .specBegin =>
    bad (bits w 83 76 != 0xFF && decide (h.bindings ≤ bits w 83 76)) 76 ++
    bad (decide (h.bindings ≤ bits w 91 84)) 84 ++ bad (decide (1 < bits w 93 92)) 92
  | .maintSlot => bad (bits w 83 68 == 0 || decide (1024 < bits w 83 68)) 68
  | .loop => bad (bits w 79 48 == 0) 48
  | .idle => bad (bit w 55 && decide (bits w 95 56 < 64)) 55
  | .teBuild => bad (decide (5 < bits w 68 66)) 66
  | .teLookup =>
    let m := bits w 65 63
    let b := bits w 77 74
    bad (decide (5 < m)) 63 ++
    bad (if m < 2 then b == 0 || decide (8 < b) else b != 0) 74 ++
    bad (decide (m < 2) && decide (b ≤ bits w 80 78)) 78
  | .teRescale =>
    bad (bits w 68 67 == 2 && decide (7 < bits w 66 63)) 63 ++ bad (bits w 68 67 == 3) 67
  | .refTopk => bad (bits w 80 77 == 0 || decide (8 < bits w 80 77)) 77
  | .convPass2 => bad (decide (4 < bits w 71 69)) 69
  | .convCarry => bad (decide (4 < bits w 66 64)) 64
  | .movIn =>
    bad ((tsForms (bits w 55 49)).any fun n => decide (64 < n + bits w 48 45 + 1)) 45 ++
    bad (decide (h.bindings ≤ bits w 87 80)) 80
  | .movOut =>
    bad ((tsForms (bits w 55 49)).any fun n => decide (64 < n + bits w 48 45 + 1)) 45 ++
    bad (decide (h.bindings ≤ bits w 87 80)) 80
  | .stream =>
    let n := bits w 45 40 + 1
    let t := bits w 52 47
    bad (decide (32 < n) || decide (64 < t + n) || (bit w 46 && decide (64 < (t + 32) % 64 + n))) 40 ++
    bad (decide (h.bindings ≤ bits w 87 80)) 80
  | _ => []

/-- Step 3: one entry, for OPCODE, then RESERVED, then OPERAND. -/
def entryFails (h : ImpHeader) (k : Nat) (w : Nat) : List Failure :=
  let o := 256 + 16 * k
  match kindOf w with
  | none =>
    [(VC.opcode, o + if Ent.op w ≠ 1 then 13
      else if Ent.cls w = 0 ∨ 7 < Ent.cls w ∨ issueKind (Ent.cls w) (Ent.uop w) ≠ none then 12 else 11)]
  | some kd =>
    match reservedBit kd w with
    | some i => [(VC.reserved, o + i / 8)]
    | none => (operandFails h kd w).map fun b => (VC.operand, o + b)

/-! ### The path walk (R422, R936 step 6) -/

/-- The unit an ISSUE occupies. -/
def unitOf (w : Nat) : Nat := 16 * Ent.cls w + Ent.index w

def lookupOcc (mode : Nat) : Nat := if mode = 4 then 22 else if mode = 2 then 43 else 32

/-- OCC and LAT of an ISSUE (R380); moves are taken at 1 cycle (R386). -/
def Kind.occ (k : Kind) (w : Nat) : Nat :=
  match k with
  | .teLookup => lookupOcc (bits w 65 63)
  | .teRescale => 4
  | .escApply => 2
  | .lnsMul => 16
  | .lnsAdd => 16
  | .lnsReduce => 16
  | .lnsFromlin => 16
  | .lnsTolin => 16
  | .refFma => 64
  | .refCast => 64
  | .refTopk => 64
  | .convPass1 => 32
  | .convPass2 => 32
  | .convCarry => 32
  | _ => 1

def Kind.lat (k : Kind) : Nat :=
  match k with
  | .teBuild => 3
  | .teLookup => 7
  | .teClear => 1
  | .teRescale => 8
  | .escApply => 9
  | .lnsMul => 6
  | .lnsAdd => 6
  | .lnsReduce => 6
  | .lnsFromlin => 6
  | .lnsTolin => 6
  | .refFma => 5
  | .refCast => 5
  | .refTopk => 5
  | .convPass1 => 4
  | .convPass2 => 6
  | .convCarry => 6
  | .convStats => 2
  | _ => 0

/-- The stamp at which an ISSUE's result is ready (R380). -/
def readyAt (k : Kind) (w t : Nat) : Nat := t + k.occ w - 1 + k.lat

/-- A scope open on a path: number, KIND, STAGE_BIND, SHADOW_BIND. -/
structure OpenScope where
  id : Nat
  kind : Nat
  stage : Nat
  shadow : Nat
  deriving DecidableEq, Repr

/-- A LOOP met once on a path: the stamp of the LOOP that ended the first pass, and what the pass after it has issued:
its units, the ready stamp of its lookups and escapes, whether it holds a fence. -/
structure LoopWalk where
  first : Nat
  units : List Nat
  ready : Nat
  fenced : Bool
  deriving DecidableEq, Repr

/-- Where a path stands in one bay stream. -/
structure WalkPt where
  pc : Nat
  stamp : Nat
  gap : Nat
  /-- entries issued with the stamp, and the units among them -/
  count : Nat
  units : List Nat
  accept : Tab Nat
  /-- ready stamp of the lookups and escapes so far -/
  ready : Nat
  fence : Option Nat
  /-- stamp of a FORK just taken -/
  forkAt : Option Nat
  /-- arms being run: (first entry, entry after the last, JOIN) -/
  arms : List (Nat × Nat × Nat)
  /-- per level: the pass under way after the first -/
  loops : List (Option LoopWalk)
  scopes : List OpenScope
  deriving DecidableEq, Repr

/-- What a path yields: failures as (code, entry of the stream, byte within it); uses of STITCH slots as (slot, open
scopes, entry). -/
structure WalkOut where
  fails : List (Nat × Nat × Nat)
  uses : List (Nat × List Nat × Nat)
  /-- the arms a FORK offers when no choice is left -/
  need : Option (List Nat)
  deriving DecidableEq, Repr

def WalkPt.start : WalkPt :=
  { pc := 0, stamp := 0, gap := 0, count := 0, units := [], accept := [], ready := 0, fence := none, forkAt := none,
    arms := [], loops := [none, none, none, none], scopes := [] }

def WalkOut.empty : WalkOut := { fails := [], uses := [], need := none }

/-- Continue at `n`; an arm whose last entry has run continues at its JOIN (R396). -/
def gotoPc : List (Nat × Nat × Nat) → Nat → List (Nat × Nat × Nat) × Nat
  | [], n => ([], n)
  | a :: t, n => if n = a.2.1 then gotoPc t a.2.2 else (a :: t, n)

def WalkPt.goto (p : WalkPt) (n : Nat) : WalkPt :=
  let r := gotoPc p.arms n
  { p with arms := r.1, pc := r.2 }

/-- Arms a FORK can take: those of its ARMS, and its FID's fallback arm (R394, R395). -/
def forkArms (h : ImpHeader) (w : Nat) : List Nat :=
  let n := bits w 76 74 + 1
  let fb := (h.fallback.getD (bits w 95 92) (0xFF, 0, 0)).1
  List.range n ++ (if fb < 8 ∧ n ≤ fb then [fb] else [])

/-- FID, ARMS and source of a FORK (R393). -/
def forkSig (w : Nat) : Nat := bits w 95 74

/-- STAMP and FENCE checks of an entry with stamp `t` (R385, R386, R397, R407). -/
def timeFails (p : WalkPt) (k : Kind) (w t : Nat) : List Nat :=
  let same := p.count != 0 && t == p.stamp
  let stampBad := (same && decide (4 ≤ p.count)) ||
    (isIssue w && ((same && p.units.contains (unitOf w)) || decide (t < Tab.get p.accept 0 (unitOf w)))) ||
    (match p.forkAt with | some f => decide (t < f + 4) | none => false)
  let fenceBad := (k == .precisionFence && decide (t < p.ready)) ||
    ((k == .teLookup || k == .escApply) && (match p.fence with | some f => decide (f ≤ t ∧ t ≤ f + 1) | none => false))
  (if stampBad then [VC.stamp] else []) ++ (if fenceBad then [VC.fence] else [])

/-- Scope rules of one entry (R525): bracketing, KINDs, commit source, ranges. -/
def scopeFails (ranges : List (Nat × Nat)) (p : WalkPt) (k : Kind) (w : Nat) : Bool :=
  let sc := bits w 95 94
  let isOpen := p.scopes.find? fun o => o.id == sc
  let foreignRange := ranges.any (fun r => r.1 == bits w 87 80) &&
    !p.scopes.any fun o => o.stage == bits w 87 80 || (o.kind == 1 && o.shadow == bits w 87 80)
  match k with
  | .specBegin => isOpen.isSome || (if bits w 93 92 = 0 then bits w 83 76 != 0xFF else bits w 83 76 == 0xFF)
  | .specCommit =>
    isOpen.isNone || (match isOpen with | some o => o.kind == 0 && !bit w 81 | none => false) ||
      (!bit w 81 && !isDreg (bits w 93 90) (bits w 89 86) (bits w 85 82))
  | .specCancel => isOpen.isNone
  | .endStream => p.scopes != []
  | .movIn => foreignRange
  | .movOut => foreignRange
  | .stream => foreignRange
  | _ => false

/-- A LOOP or FORK inside an arm that leaves it (R396). -/
def leavesArm (arms : List ArmRec) (h : ImpHeader) (p : WalkPt) (k : Kind) (w : Nat) : Bool :=
  match p.arms with
  | [] => false
  | (lo, hi, _) :: _ =>
    match k with
    | .loop => decide (bits w 93 80 < lo ∨ hi ≤ bits w 93 80)
    | .fork =>
      match arms[bits w 73 58]? with
      | none => false
      | some r => decide (r.join < lo ∨ hi ≤ r.join) || (forkArms h w).any fun a =>
          r.count.getD a 0 != 0 && decide (r.start.getD a 0 < lo ∨ hi < r.start.getD a 0 + r.count.getD a 0)
    | _ => false

/-- What an entry issued with stamp `t` adds to a pass under way. -/
def LoopWalk.note (l : LoopWalk) (k : Kind) (w t : Nat) : LoopWalk :=
  { l with
    units := if isIssue w then insertNat (unitOf w) l.units else l.units,
    ready := if k = .teLookup ∨ k = .escApply then max l.ready (readyAt k w t) else l.ready,
    fenced := l.fenced || k == .precisionFence }

/-- Leave a loop behind its second pass, which `more` cycles of further passes repeat: what that pass issued moves with the
last of them; what came before the loop stays where it is (R386, R407, R422). -/
def WalkPt.leaveLoop (p : WalkPt) (l : LoopWalk) (more : Nat) : WalkPt :=
  let last := if l.ready = 0 then 0 else l.ready + more
  { p with
    stamp := p.stamp + more,
    accept := p.accept.map (fun (e : Nat × Nat) => if l.units.contains e.1 then (e.1, e.2 + more) else e),
    ready := max p.ready last, fence := if l.fenced then p.fence.map (fun (f : Nat) => f + more) else p.fence,
    loops := p.loops.map (fun o => o.map fun (x : LoopWalk) => { x with ready := max x.ready last }) }

/-- Walk one bay stream along the arms `choices` names. -/
def walk (h : ImpHeader) (arms : List ArmRec) (es : List Nat) (ranges : List (Nat × Nat)) :
    Nat → List Nat → WalkPt → WalkOut → WalkOut
  | 0, _, p, o => { o with fails := o.fails ++ [(VC.fork, p.pc, 7)] }
  | n + 1, choices, p, o =>
    match es[p.pc]? with
    | none => { o with fails := o.fails ++ [(VC.fork, es.length - 1, 13)] }
    | some w =>
      match kindOf w with
      | none => o
      | some k =>
        let t := p.stamp + p.gap + Ent.delta w
        let o := { o with
          fails := o.fails ++ (timeFails p k w t).map (fun c => (c, p.pc, 14)) ++
            (if scopeFails ranges p k w then [(VC.spec, p.pc, 11)] else []) ++
            (if leavesArm arms h p k w then [(VC.fork, p.pc, if k = .loop then 10 else 7)] else []) }
        let same := p.count != 0 && t == p.stamp
        let p : WalkPt := { p with
          stamp := t, gap := if k = .idle then bits w 95 56 else 0, forkAt := none,
          count := if same then p.count + 1 else 1,
          units := if isIssue w then (if same then unitOf w :: p.units else [unitOf w]) else if same then p.units else [],
          accept := if isIssue w then Tab.put p.accept (unitOf w) (some (t + k.occ w)) else p.accept,
          ready := if k = .teLookup ∨ k = .escApply then max p.ready (readyAt k w t) else p.ready,
          fence := if k = .precisionFence then some t else p.fence,
          loops := p.loops.map fun l => l.map fun x => x.note k w t }
        match k with
        | .endStream => o
        | .waitStitch =>
          walk h arms es ranges n choices (p.goto (p.pc + 1))
            { o with uses := o.uses ++ [(bits w 95 88, p.scopes.map OpenScope.id, p.pc)] }
        | .signalStitch =>
          walk h arms es ranges n choices (p.goto (p.pc + 1))
            { o with uses := o.uses ++ [(bits w 95 88, p.scopes.map OpenScope.id, p.pc)] }
        | .specBegin =>
          walk h arms es ranges n choices
            (WalkPt.goto { p with scopes := p.scopes ++ [OpenScope.mk (bits w 95 94) (bits w 93 92) (bits w 91 84) (bits w 83 76)] } (p.pc + 1))
            o
        | .specCommit =>
          walk h arms es ranges n choices
            (WalkPt.goto { p with scopes := p.scopes.filter fun x => x.id != bits w 95 94 } (p.pc + 1)) o
        | .specCancel =>
          walk h arms es ranges n choices
            (WalkPt.goto { p with scopes := p.scopes.filter fun x => x.id != bits w 95 94 } (p.pc + 1)) o
        | .loop =>
          let lv := bits w 95 94
          let again := fun (v : Option LoopWalk) => p.loops.set lv v
          match p.loops.getD lv none with
          | some l =>
            -- the passes beyond the second repeat it
            let p := WalkPt.leaveLoop { p with loops := again none } l ((bits w 79 48 - 2) * (t - l.first))
            walk h arms es ranges n choices (p.goto (p.pc + 1)) o
          | none =>
            if bits w 79 48 = 1 then walk h arms es ranges n choices (p.goto (p.pc + 1)) o
            else
              let p : WalkPt := { p with loops := again (some { first := t, units := [], ready := 0, fenced := false }) }
              walk h arms es ranges n choices (p.goto (bits w 93 80)) o
        | .fork =>
          match choices, arms[bits w 73 58]? with
          | _, none => { o with fails := o.fails ++ [(VC.fork, p.pc, 7)] }
          | [], some _ => { o with need := some (forkArms h w) }
          | a :: cs, some r =>
            let p := { p with forkAt := some t }
            if r.count.getD a 0 = 0 then walk h arms es ranges n cs (p.goto r.join) o
            else
              walk h arms es ranges n cs
                { p with
                  pc := r.start.getD a 0,
                  arms := (r.start.getD a 0, r.start.getD a 0 + r.count.getD a 0, r.join) :: p.arms } o
        | _ => walk h arms es ranges n choices (p.goto (p.pc + 1)) o

/-- Steps a path may take before it counts as one that never reaches its END (log entry 15). -/
def walkFuel (es : List Nat) : Nat := 64 * es.length + 64

/-- Every path of a stream, by the arms it takes. -/
def paths (run : List Nat → WalkOut) : Nat → List Nat → List (List Nat × WalkOut)
  | 0, c => [(c, run c)]
  | n + 1, c =>
    let o := run c
    match o.need with
    | none => [(c, o)]
    | some l => l.flatMap fun a => paths run n (c ++ [a])

/-- A parsed imposition. -/
structure Imp where
  hdr : ImpHeader
  arms : List ArmRec
  /-- entries of each bay stream -/
  streams : List (List Nat)
  deriving DecidableEq, Repr

def parseImp (f : Nat → Byte) : Imp :=
  let h := parseHeader f
  { hdr := h, arms := (List.range h.armCount).map (parseArm f h),
    streams := (List.range h.bays).map fun i => (upFrom (h.start i) (h.cnt i)).map (entryNat f) }

/-- Binding slots that SPEC_BEGINs name as ranges, with the scope (R525). -/
def Imp.ranges (x : Imp) : List (Nat × Nat) :=
  x.streams.flatMap fun es => es.flatMap fun w =>
    if kindOf w = some .specBegin then
      (bits w 91 84, bits w 95 94) :: (if bits w 83 76 = 0xFF then [] else [(bits w 83 76, bits w 95 94)])
    else []

def Imp.run (x : Imp) (i : Nat) (c : List Nat) : WalkOut :=
  let es := x.streams.getD i []
  walk x.hdr x.arms es x.ranges (walkFuel es) c WalkPt.start WalkOut.empty

def Imp.paths (x : Imp) (i : Nat) : List (List Nat × WalkOut) :=
  Machine.paths (x.run i) (walkFuel (x.streams.getD i [])) []

/-- Loop bodies of a stream: (entry, TARGET, LEVEL). -/
def loopsOf (es : List Nat) : List (Nat × Nat × Nat) :=
  (es.zip (List.range es.length)).filterMap fun p =>
    if kindOf p.1 = some .loop then some (p.2, bits p.1 93 80, bits p.1 95 94) else none

/-- LOOP failures, at the entry of the stream at which each shows. -/
def loopFails (es : List Nat) : List (Nat × Nat × Nat) :=
  let l := loopsOf es
  l.flatMap fun a =>
    (if a.1 < a.2.1 then [(VC.loop, a.1, 10)] else []) ++
    (if l.any fun b => b.1 != a.1 && b.2.2 == a.2.2 && decide (b.2.1 ≤ a.1 ∧ a.1 < b.1) then [(VC.loop, a.1, 10)] else []) ++
    (if l.any fun b => b.2.2 != a.2.2 && decide (b.2.1 < a.2.1 ∧ a.2.1 ≤ b.1 ∧ b.1 < a.1) then [(VC.loop, a.1, 10)] else [])

/-- A failure of the walk: (entry of the imposition, code, byte offset). -/
abbrev WalkFail := Nat × Nat × Nat

def Imp.at_ (x : Imp) (i : Nat) (l : List (Nat × Nat × Nat)) : List WalkFail :=
  l.map fun p => (x.hdr.start i + p.2.1, p.1, 256 + 16 * (x.hdr.start i + p.2.1) + p.2.2)

/-! ### FORKs and scopes across the bays (R393, R524) -/

/-- A LOOP whose counter runs: passes left, and its last stamp while nothing of interest has come since. -/
structure CrossLoop where
  left : Nat
  quiet : Option Nat
  deriving DecidableEq, Repr

/-- Where one bay of the run stands at the FORK it meets next or at its END, in cycles since the FORK before. -/
structure CrossPt where
  pc : Nat
  t : Nat
  gap : Nat
  arms : List (Nat × Nat × Nat)
  loops : List (Option CrossLoop)
  deriving DecidableEq, Repr

def CrossPt.start : CrossPt := { pc := 0, t := 0, gap := 0, arms := [], loops := [none, none, none, none] }

def CrossPt.goto (p : CrossPt) (n : Nat) : CrossPt :=
  let r := gotoPc p.arms n
  { p with arms := r.1, pc := r.2 }

/-- Something of interest: no loop pass under way repeats without it. -/
def CrossPt.loud (p : CrossPt) : CrossPt :=
  { p with loops := p.loops.map fun l => l.map fun x => { x with quiet := none } }

/-- The LOOP at `p`: another pass, all passes left at once when the last held nothing of interest, or the way out (R400,
R401). -/
def CrossPt.loop (p : CrossPt) (w t : Nat) : CrossPt :=
  let lv := bits w 95 94
  let put := fun (l : Option CrossLoop) (t : Nat) => { p with t := t, gap := 0, loops := p.loops.set lv l }
  match p.loops.getD lv none with
  | none =>
    if bits w 79 48 ≤ 1 then (put none t).goto (p.pc + 1)
    else (put (some { left := bits w 79 48 - 2, quiet := some t }) t).goto (bits w 93 80)
  | some l =>
    match l.quiet with
    | some s => (put none (t + l.left * (t - s))).goto (p.pc + 1)
    | none =>
      if l.left = 0 then (put none t).goto (p.pc + 1)
      else (put (some { left := l.left - 1, quiet := some t }) t).goto (bits w 93 80)

/-- A scope entry on the way: (scope, cycles since the last FORK, KIND of entry and operands, entry of the stream). -/
abbrev ScopeEvent := Nat × Nat × Nat × Nat

/-- Run one bay on to its next FORK or its END: the place, the scope entries on the way, and the FORK as (cycles since the
last, entry bits). -/
def CrossPt.run (es : List Nat) : Nat → CrossPt → List ScopeEvent → CrossPt × List ScopeEvent × Option (Nat × Nat)
  | 0, p, o => (p, o, none)
  | n + 1, p, o =>
    match es[p.pc]? with
    | none => (p, o, none)
    | some w =>
      let t := p.t + p.gap + Ent.delta w
      let on := { p with t := t, gap := 0 }
      let scope := [(bits w 95 94, t, bits w 111 76, p.pc)]
      match kindOf w with
      | none => (p, o, none)
      | some .endStream => (on, o, none)
      | some .fork => (on, o, some (t, w))
      | some .loop => CrossPt.run es n (p.loop w t) o
      | some .idle => CrossPt.run es n (CrossPt.goto { on with gap := bits w 95 56 } (p.pc + 1)) o
      | some .specBegin => CrossPt.run es n (on.loud.goto (p.pc + 1)) (o ++ scope)
      | some .specCommit => CrossPt.run es n (on.loud.goto (p.pc + 1)) (o ++ scope)
      | some .specCancel => CrossPt.run es n (on.loud.goto (p.pc + 1)) (o ++ scope)
      | some _ => CrossPt.run es n (on.goto (p.pc + 1)) o

/-- A bay behind the FORK it stands at, in arm `a`; the cycles count from the FORK. -/
def CrossPt.take (p : CrossPt) (arms : List ArmRec) (w a : Nat) : CrossPt :=
  let p := { p.loud with t := 0, gap := 0 }
  match arms[bits w 73 58]? with
  | none => p
  | some r =>
    if r.count.getD a 0 = 0 then p.goto r.join
    else { p with
      pc := r.start.getD a 0, arms := (r.start.getD a 0, r.start.getD a 0 + r.count.getD a 0, r.join) :: p.arms }

/-- First place where two lists of scope entries differ: the entry in the first, else in the second. -/
def firstDiff {α : Type} [DecidableEq α] : List (α × Nat) → List (α × Nat) → Option (Bool × Nat)
  | [], [] => none
  | a :: _, [] => some (true, a.2)
  | [], b :: _ => some (false, b.2)
  | a :: s, b :: t => if a.1 = b.1 then firstDiff s t else some (true, a.2)

/-- Steps of a stream, and places of a run, that the comparison follows; no stream has as many (log entry 15). -/
def crossFuel : Nat := 2 ^ 192

/-- The bays' streams between two FORKs: R524 over each scope's bay set, R393 over the FORK that follows. -/
def Imp.crossStep (x : Imp) (l : List (CrossPt × List ScopeEvent × Option (Nat × Nat))) : List WalkFail :=
  let bays := List.range x.streams.length
  let empty : CrossPt × List ScopeEvent × Option (Nat × Nat) := (CrossPt.start, [], none)
  let sig := fun (f : Option (Nat × Nat)) => f.map fun p => (p.1, forkSig p.2)
  ((List.range 4).flatMap fun sc =>
    let inSet := fun j => (x.streams.getD j []).any fun w => kindOf w == some .specBegin && bits w 95 94 == sc
    let ev := fun i => ((l.getD i empty).2.1.filter fun e => e.1 == sc).map fun e => ((e.2.1, e.2.2.1), e.2.2.2)
    match bays.find? inSet with
    | none => []
    | some j => (bays.filter inSet).flatMap fun i =>
        match firstDiff (ev j) (ev i) with
        | none => []
        | some (true, e) => x.at_ j [(VC.spec, e, 11)]
        | some (false, e) => x.at_ i [(VC.spec, e, 11)]) ++
  bays.flatMap fun i =>
    let a := l.getD 0 empty
    let b := l.getD i empty
    if sig a.2.2 = sig b.2.2 then []
    else if a.2.2.isSome then x.at_ 0 [(VC.fork, a.1.pc, 11)]
    else x.at_ i [(VC.fork, b.1.pc, 11)]

/-- Follow all bays together over every choice of arms: every place they can reach is compared once. -/
def Imp.crossWalk (x : Imp) : Nat → List (List CrossPt) → List (List CrossPt) → List WalkFail
  | 0, _, _ => []
  | _, [], _ => []
  | n + 1, ps :: todo, seen =>
    if seen.contains ps then Imp.crossWalk x n todo seen
    else
      let l := (ps.zip x.streams).map fun p => CrossPt.run p.2 crossFuel p.1 []
      match Imp.crossStep x l with
      | [] =>
        match (l.head?.bind fun a => a.2.2).map fun f => forkArms x.hdr f.2 with
        | none => Imp.crossWalk x n todo (ps :: seen)
        | some choices =>
          let next := choices.map fun a => l.map fun p => (p.2.2.map fun f => p.1.take x.arms f.2 a).getD p.1
          Imp.crossWalk x n (next ++ todo) (ps :: seen)
      | e => e ++ Imp.crossWalk x n todo (ps :: seen)

/-- R393 and R524 on every path of the run, every pass of every loop. -/
def Imp.crossFails (x : Imp) : List WalkFail :=
  Imp.crossWalk x crossFuel [x.streams.map fun _ => CrossPt.start] []

/-- Every use of a STITCH slot on any path: (slot, open scopes, relative bay, entry). -/
def Imp.stitchUses (x : Imp) : List (Nat × List Nat × Nat × Nat) :=
  (List.range x.streams.length).flatMap fun i => (x.paths i).flatMap fun p =>
    p.2.uses.map fun u => (u.1, u.2.1, i, u.2.2)

/-- The scope a STITCH slot is used in: none for no scope; no answer when its uses agree on none (R525, R543). -/
def Imp.slotScope (x : Imp) (slot : Nat) : Option (Option Nat) :=
  let us := (x.stitchUses.filter fun u => u.1 == slot).map fun u => u.2.1
  if us.all (· == []) then some none
  else ((List.range 4).find? fun s => us.all fun u => u.contains s).map some

/-- The HFLAGS rule and the stitch-use rule of R525. -/
def Imp.wholeSpecFails (x : Imp) : List WalkFail :=
  let specs := (List.range x.streams.length).flatMap fun i =>
    ((x.streams.getD i []).zip (List.range (x.streams.getD i []).length)).filterMap fun p =>
      match kindOf p.1 with
      | some .specBegin => some (x.hdr.start i + p.2)
      | some .specCommit => some (x.hdr.start i + p.2)
      | some .specCancel => some (x.hdr.start i + p.2)
      | _ => none
  (if x.hdr.usesSpec then (if specs = [] then [(0, VC.spec, 5)] else [])
    else specs.map fun e => (e, VC.spec, 5)) ++
  x.stitchUses.filterMap fun u =>
    if x.slotScope u.1 = none then
      let e := x.hdr.start u.2.2.1 + u.2.2.2
      some (e, VC.spec, 256 + 16 * e + 11)
    else none

/-- The failure at the first entry, and the lowest code there. -/
def firstWalkFail (l : List WalkFail) : Option Failure :=
  (l.foldl (fun (b : Option WalkFail) f =>
    match b with
    | none => some f
    | some g => if f.1 < g.1 ∨ (f.1 = g.1 ∧ f.2.1 < g.2.1) then some f else some g) none).map fun f => f.2

/-- Step 6 of R936. -/
def Imp.walkFailure (x : Imp) : Option Failure :=
  firstWalkFail
    (((List.range x.streams.length).flatMap fun i =>
      x.at_ i (loopFails (x.streams.getD i [])) ++ (x.paths i).flatMap fun p => x.at_ i p.2.fails) ++
    x.crossFails ++ x.wholeSpecFails)

/-- Step 4: the arm records, for RESERVED and then FORK against the streams whose FORKs use them. -/
def Imp.armFails (f : Nat → Byte) (x : Imp) : List Failure :=
  (List.range x.hdr.armCount).flatMap fun r =>
    let o := 256 + 16 * x.hdr.total + 80 * r
    let rec_ := x.arms.getD r { start := [], count := [], join := 0 }
    ((List.range 12).find? fun i => f (o + 68 + i) != 0).toList.map (fun i => (VC.reserved, o + 68 + i)) ++
    x.streams.flatMap fun es => es.flatMap fun w =>
      if kindOf w = some .fork ∧ bits w 73 58 = r then
        ((forkArms x.hdr w).flatMap fun a =>
          failIf (rec_.count.getD a 0 != 0 && decide (es.length < rec_.start.getD a 0 + rec_.count.getD a 0)) VC.fork
            (o + 8 * a)) ++
        failIf (decide (es.length ≤ rec_.join)) VC.fork (o + 64)
      else []

/-- Step 5: NO_END. -/
def Imp.endFails (x : Imp) : List Failure :=
  (List.range x.streams.length).flatMap fun i =>
    let es := x.streams.getD i []
    let isEnd := fun j => kindOf (es.getD j 0) == some .endStream
    if es = [] then [(VC.noEnd, 60 + 8 * i)]
    else
      ((List.range (es.length - 1)).filter isEnd).map (fun j => (VC.noEnd, 256 + 16 * (x.hdr.start i + j) + 13)) ++
      (if isEnd (es.length - 1) then [] else [(VC.noEnd, 256 + 16 * (x.hdr.start i + es.length - 1) + 13)])

/-- The structural checks: the first failure in the order of R936. -/
def structuralFail (f : Nat → Byte) (len : Nat) : Option Failure :=
  match headerFails f with
  | e :: _ => some e
  | [] =>
    match sizeFails f len with
    | e :: _ => some e
    | [] =>
      let x := parseImp f
      let ents := (List.range x.streams.length).flatMap fun i =>
        ((x.streams.getD i []).zip (List.range (x.hdr.cnt i))).flatMap fun p => entryFails x.hdr (x.hdr.start i + p.2) p.1
      match ents ++ x.armFails f ++ x.endFails with
      | e :: _ => some e
      | [] => x.walkFailure

end Sys2Proof.Machine
end

