-- ==== Sys2Proof/Machine/Bays.lean ====
section
/-! DEFINITION. Which bays a quire owns, the clock step and voltage of the bays, and the commands that gate them and
settle their voltage (02, 18, 20). -/

namespace Sys2Proof.Machine

/-- The loaded profile gives bay `b` to quire `q` (R207). -/
def State.givenBay (s : State) (q : QNum) (b : BayNum) : Bool := s.rd (Key.profBayOwner s.part (b.val + 1)) == q.val

/-- A physical bay stands behind logical bay `b` (R231). -/
def State.mapped (s : State) (b : BayNum) : Bool := s.rd (Key.diagBayMap (b.val + 1)) != 0xFF

/-- The bays a quire owns, in ascending number (R903). -/
def State.quireBays (s : State) (q : QNum) : List BayNum := allB.filter fun b => s.givenBay q b && s.mapped b

/-- The quire that owns a bay. -/
def State.ownerOf (s : State) (b : BayNum) : Option QNum := if s.mapped b then allQ.find? fun q => s.givenBay q b else none

/-- The quire's bay set is short (R903). -/
def State.shortSet (s : State) (q : QNum) : Bool := allB.any fun b => s.givenBay q b && !s.mapped b

/-- A WAKE of the quire is refused: no bays, or a short bay set under a profile that does not tolerate one
(R43, R903, R904). -/
def State.refusesWake (s : State) (q : QNum) : Bool :=
  !allB.any (fun b => s.givenBay q b) || (s.shortSet q && !s.rdB (Key.profDegradeOk s.part))

/-- The governed clock step of a quire (R839). -/
def State.governedStep (s : State) (q : QNum) : Nat :=
  let p := s.rd (Key.profClockStep s.part (q.val + 1))
  if p = 0 then 0 else max 300 (p - 150 * s.rd Key.thermLevel)

def Bay.powered (x : Bay) : Bool := x.power != .off

/-- The clock step a bay is to have: its owner's governed step. -/
def State.targetStep (s : State) (b : BayNum) : Nat :=
  match s.ownerOf b with
  | some q => s.governedStep q
  | none => 0

/-- The VSEL code the powered bays need (R71). -/
def State.neededVsel (s : State) : Nat :=
  vselCode (allB.foldl (fun m b => if (s.bay b).powered then max m (s.targetStep b) else m) 0)

/-- Every powered bay takes the step it is to have; steps above `cap`'s code wait (R72, R840). -/
def State.applySteps (s : State) (code : Nat) : State :=
  s.forB fun s b =>
    if (s.bay b).powered ∧ vselCode (s.targetStep b) ≤ code then s.modBay b fun x => { x with step := s.targetStep b }
    else s

/-- Powered bays that are to run slower do so; while VSEL settles no clock rises (R72, R73). -/
def State.lowerSteps (s : State) : State :=
  s.forB fun s b =>
    if (s.bay b).powered ∧ s.targetStep b < (s.bay b).step then s.modBay b fun x => { x with step := s.targetStep b }
    else s

/-- Move VSEL to the code the powered bays need: a raise starts a settle wait before any clock rises, a lowering
first lowers the clocks and then the code (R71 to R73). -/
def State.updateVsel (s : State) : State :=
  let old := s.rd Key.pwrVsel
  let code := s.neededVsel
  if old < code then
    let s := s.lowerSteps.wr Key.pwrVsel code
    s.setClk { s.clk with settling := true }
  else
    let s := if s.clk.settling then s.lowerSteps else s.applySteps code
    let s := s.wr Key.pwrVsel code
    if code = 0 then s.setClk { s.clk with settling := false } else s

/-- S-RUN exactly while a bay clock runs; sleep states are left only by a wake (R833, R835). -/
def State.fixPower (s : State) : State :=
  if s.coreOn then { s with power := if allB.any fun b => (s.bay b).power == .running then .sRun else .sIdle } else s

/-- A bay that is switched off loses its leaf buffers and imposition cache (02, Wake paths). -/
def Bay.switchOff (x : Bay) : Bay :=
  { x with power := .off, step := 0, cache := none, t0 := [], t0Of := none, slots := [], moves := [] }

def State.bayOff (s : State) (b : BayNum) : State := s.modBay b Bay.switchOff

/-- The PLLs and power switches of a quire's bays on a WAKE: an off bay is powered, clock-gated, with leaf buffers and
cache initialised (R90). A wake that needs the bay PLL is held at that step until CLKIN_38M4 is detected (R86). -/
def State.powerBays (s : State) (q : QNum) : State :=
  if ¬ s.clk.bayPll ∧ ¬ s.clkinSeen then s.holdWake
  else
  let s := (s.quireBays q).foldl
    (fun s b => s.modBay b fun x => if x.powered then x else { x.switchOff with power := .gated }) s
  (s.setClk { s.clk with bayPll := true }).updateVsel

/-- GRANT: every bay of the quire runs at the quire's governed step (R836). -/
def State.runBays (s : State) (q : QNum) : State :=
  ((s.quireBays q).foldl
    (fun s b => s.modBay b fun x => { x with power := .running, step := s.governedStep q }) s).fixPower

/-- RELEASE: every bay of the quire becomes clock-gated, and stays powered until R837 (R836; log entry 86); a retest asked
for starts (R901). -/
def State.gateBays (s : State) (q : QNum) : State :=
  ((s.quireBays q).foldl
    (fun s b => s.modBay b fun x =>
      if x.powered then { x with power := .gated, retesting := x.retesting || x.retestDue, retestDue := false } else x)
    s).fixPower

/-- The VSEL settle wait ends in tolerance: the waiting bay clocks rise; out of tolerance: counted, alerted, repeated
(R72, R76). -/
def vselSettleEnd (inTolerance : Bool) (s : State) : State :=
  if ¬ s.clk.settling then s
  else if inTolerance then
    let s := s.setClk { s.clk with settling := false }
    { s with pm := { s.pm with vddBad := false } }.applySteps (s.rd Key.pwrVsel)
  else
    (({ s with pm := { s.pm with vddBad := true } } : State).count Key.vselSettleFails).alert AL.vddBay

def execVselSettleEnd (inTolerance : Bool) (s : State) : Host.Outcome State Fault Refusal :=
  .next (vselSettleEnd inTolerance s)

/-- A WAKE of the bay's quire is under way: its time clock-gated is interrupted (R837). -/
def State.bayWaking (s : State) (b : BayNum) : Bool :=
  match s.ownerOf b with
  | some q => (s.quire q).wakePending
  | none => false

/-- A bay clock-gated for PWR_GATE_TO_OFF_US is switched off (R837). -/
def bayGateToOff (b : BayNum) (s : State) : State :=
  if (s.bay b).power = .gated ∧ ¬ (s.bay b).retesting ∧ ¬ s.bayWaking b then (s.bayOff b).updateVsel else s

def execBayGateToOff (b : BayNum) (s : State) : Host.Outcome State Fault Refusal := .next (bayGateToOff b s)

/-- The bay PLL stops once no bay has been powered for PWR_PLL_OFF_US (R838). -/
def bayPllOff (s : State) : State :=
  if s.clk.bayPll ∧ ¬ allB.any (fun b => (s.bay b).powered) then s.setClk { s.clk with bayPll := false } else s

def execBayPllOff (s : State) : Host.Outcome State Fault Refusal := .next (bayPllOff s)

/-- The retest of a bay ends; a bay that fails goes out of service: recorded, unmapped, alerted (R902). -/
def bayRetestDone (b : BayNum) (pass : Bool) (s : State) : State :=
  if ¬ (s.bay b).retesting then s
  else
    let s := s.modBay b fun x => { x with retesting := false }
    if pass then s
    else
      let phys := s.rd (Key.diagBayMap (b.val + 1))
      let s := if bit (s.rd Key.diagBayRecord) phys then s else s.wrStored Key.diagBayRecord (s.rd Key.diagBayRecord + 2 ^ phys)
      (((s.bayOff b).wr (Key.diagBayMap (b.val + 1)) 0xFF).alert AL.bayOut).updateVsel

def execBayRetestDone (b : BayNum) (pass : Bool) (s : State) : Host.Outcome State Fault Refusal :=
  .next (bayRetestDone b pass s)

/-- Physical bay `b` fails the parity check of its datapath: counted, and the bay is retested at the quire's next
RELEASE (R901). -/
def State.bayParity (s : State) (b : BayNum) : State :=
  (s.count Key.bayParity).modBay b fun x => { x with retestDue := true }

end Sys2Proof.Machine
end

