-- ==== Sys2Proof/Machine/Stitches.lean ====
section
/-! DEFINITION. The stitch and the stitch unit (07): what a signal, a wait's start, a comparison stage, poison and
release do to one stitch. How a wait's outcome reaches its waiter stands in Queues. -/

namespace Sys2Proof.Machine

/-- The active allocation of a quire: first stitch and count (R320). -/
def State.stitchRange (s : State) (q : QNum) : Nat × Nat := (s.rd (Key.qStitchBase q), s.rd (Key.qStitchCount q))

def inRange (r : Nat × Nat) (n : Nat) : Bool := r.1 ≤ n && n < r.1 + r.2

/-- OWNER, when ALLOCATED (R308, R324). -/
def State.stitchOwner (s : State) (n : Nat) : Option QNum := allQ.find? fun q => inRange (s.stitchRange q) n

def State.ownsStitch (s : State) (q : QNum) (n : Nat) : Bool := s.stitchOwner n == some q

def State.stitch (s : State) (n : Nat) : Stitch := Tab.get s.st.stitches Stitch.reset n

def State.setStitch (s : State) (n : Nat) (x : Stitch) : State :=
  s.setSt { s.st with stitches := Tab.set s.st.stitches Stitch.reset n x }

/-- A quire may wait on a stitch it owns or one that names it in SHARE (R335). -/
def State.mayWait (s : State) (q : QNum) (n : Nat) : Bool :=
  match s.stitchOwner n with
  | some o => o == q || (s.stitch n).share.getLsbD q.val
  | none => false

/-- A signal arrives for the coming comparison stage (R309, R329). -/
def State.signal (s : State) (n amount : Nat) : State :=
  s.setSt { s.st with signals := s.st.signals ++ [(n, amount)] }

/-- The value waits compare: COUNT, or SHADOW of a speculative stitch (R353). -/
def Stitch.val (x : Stitch) : Nat := if x.spec then x.shadow else x.count

def Stitch.setVal (x : Stitch) (v : Nat) : Stitch := if x.spec then { x with shadow := v } else { x with count := v }

def stitchMax : Nat := 0xFFFFFFFF

def Stitch.overshot (x : Stitch) : Stitch := { x with overshoot := min (x.overshoot + 1) 0xFFFF }

/-- Step 2 of a stage: the exact sum of the stage's signals; COUNTER and EVENT clip (R312, R313, R316, R319). -/
def Stitch.add (x : Stitch) (sum : Nat) : Stitch :=
  let v := x.val + sum
  if x.mode = 2 then x.setVal v
  else if v > stitchMax then (x.setVal stitchMax).overshot
  else x.setVal v

/-- Where a held wait ends in a stage: the outcome of the waits that end and the waits that stay. -/
def Stitch.meetEvent (target : Nat) : Nat → List Held → List (Held × Bool) × Nat
  | v, [] => ([], v)
  | v, h :: t =>
    if target ≤ v then
      let r := Stitch.meetEvent target (v - target) t
      ((h, true) :: r.1, r.2)
    else
      let r := Stitch.meetEvent target v t
      ((h, false) :: r.1, r.2)

/-- Steps 3 to 5 of a stage: compare, consume or trip; a condition wins over a release and a timeout, a release wins
over a timeout (R314, R316 to R318, R340 to R342, R346). A wait that starts in the stage is compared once, behind the
waits held, and ends MET without LATE; one whose timeout expires in that very stage never joins the list (R337 to R339). On
a stitch poisoned before, every wait that starts ends POISON (R347). A wait that starts in the stage of a release ends as
a held one does (log entry 91, DEDUCED). Answers the stitch and the waits that end. -/
def Stitch.settle (x : Stitch) (poisonNow abortNow : Bool) : Stitch × List (Held × Outcome) :=
  if x.poison then ({ x with waits := [] }, x.waits.map fun h => (h, Outcome.poison))
  else
  let marked : List (Held × Bool) × Stitch :=
    match x.mode with
    | 1 =>
      let r := Stitch.meetEvent x.target x.val x.waits
      (r.1, { x.setVal r.2 with
        generation := x.generation + BitVec.ofNat 16 (r.1.filter fun p => p.2).length })
    | 2 =>
      if x.target ≤ x.val then
        let y := { x.setVal 0 with generation := x.generation + 1 }
        (x.waits.map fun h => (h, !h.fresh), if x.target < x.val then y.overshot else y)
      else (x.waits.map fun h => (h, false), x)
    | _ => (x.waits.map fun h => (h, decide (x.target ≤ x.val)), x)
  let y := if poisonNow then { marked.2 with poison := true } else marked.2
  let ended := marked.1.filterMap fun p =>
    if p.2 then some (p.1, if p.1.expiring ∧ ¬ p.1.fresh then Outcome.late else Outcome.met)
    else if poisonNow then some (p.1, Outcome.poison)
    else if abortNow then some (p.1, Outcome.aborted)
    else if p.1.expiring then some (p.1, Outcome.timeout)
    else none
  let kept := marked.1.filterMap fun p =>
    if p.2 || poisonNow || abortNow || p.1.expiring then none else some { p.1 with fresh := false }
  ({ y with waits := kept }, ended)

/-- Order of waits that join in one stage (R315). -/
def Waiter.rank : Waiter → Nat
  | .bay b => b.val
  | .host q r => 8 + 4 * q.val + r.val

/-- Join a wait list behind older waits, in the order of R315 among the stage's new ones. -/
def joinWaits (h : Held) : List Held → List Held
  | [] => [h]
  | x :: t => if x.fresh ∧ h.who.rank < x.who.rank then h :: x :: t else x :: joinWaits h t

/-- A wait starts: the coming stage makes its start comparison, and it joins the list there if it does not end; `now`: its
timeout expires in that stage (R337 to R339). -/
def State.startWait (s : State) (n : Nat) (who : Waiter) (q : QNum) (now : Bool) : State :=
  let x := s.stitch n
  s.setStitch n { x with waits := joinWaits { who := who, quire := q, fresh := true, expiring := now } x.waits }

/-- Remove waits from the lists: those for which `p` holds of the stitch and the wait (R349, R352). -/
def State.dropWaits (s : State) (p : Nat → Held → Bool) : State :=
  let kept := s.st.stitches.map fun e => (e.1, { e.2 with waits := e.2.waits.filter (fun h => !p e.1 h) })
  s.setSt { s.st with stitches := kept.filter fun e => decide (e.2 ≠ Stitch.reset) }

/-- Mark the wait of a waiter as expiring in the coming stage (R338, R339). -/
def State.expireWait (s : State) (n : Nat) (who : Waiter) : State :=
  let x := s.stitch n
  s.setStitch n { x with waits := x.waits.map fun h => if h.who = who then { h with expiring := true } else h }

/-- The waits of a quire on stitches of a range. -/
def State.waitsOf (s : State) (q : QNum) (r : Nat × Nat) : List Held :=
  (s.st.stitches.filter fun e => inRange r e.1).flatMap fun e => e.2.waits.filter fun h => h.quire == q

/-- Every stitch of a range takes the default state (R324). -/
def State.defaultStitches (s : State) (r : Nat × Nat) : State :=
  s.setSt { s.st with stitches := s.st.stitches.filter fun e => !inRange r e.1 }

/-- The 16 bytes of the stitch mirror (R358). -/
def State.mirror (s : State) (n : Nat) : Nat :=
  let x := s.stitch n
  let own := s.stitchOwner n
  let waiters := if x.spec then (x.waits.filter fun h => some h.quire != own).length else x.waits.length
  let flags := x.mode + (if x.poison then 4 else 0) + (if x.spec then 8 else 0) + (if x.share ≠ 0 then 16 else 0)
  x.count + x.target * 2 ^ 32 + (if x.spec then x.savedGen else x.generation).toNat * 2 ^ 64 + waiters * 2 ^ 80
    + (match own with | some q => q.val | none => 0xFF) * 2 ^ 88 + flags * 2 ^ 96
    + x.overshoot * 2 ^ 112

/-! ### CMD result blocks (R113) -/

def CmdBlock.never : CmdBlock := { state := .never, result := 0, runs := 0, card := [] }

def State.cmd (s : State) (k : Nat) : CmdBlock := Tab.get s.dict.cmds CmdBlock.never k

def State.setCmd (s : State) (k : Nat) (c : CmdBlock) : State :=
  s.setDict { s.dict with cmds := Tab.set s.dict.cmds CmdBlock.never k c }

def State.cmdRunning (s : State) (k : Nat) : Bool := (s.cmd k).state == .running

/-- A run is accepted: STATE RUNNING; the last results stay until it finishes (R115). -/
def State.cmdStart (s : State) (k : Nat) : State := s.setCmd k { s.cmd k with state := .running }

/-- A run finishes: STATE DONE, its RESULT, RUNS + 1 and the card's result bytes (R113, R115). -/
def State.cmdDone (s : State) (k result : Nat) (card : List Byte) : State :=
  s.setCmd k { state := .done, result := result, runs := (s.cmd k).runs + 1, card := card }

/-! ### Q_STITCH_CONFIG -/

/-- Q_STITCH_CONFIG: its status, and the stitch replaced in one stage (R325 to R328). -/
def stitchConfig (q : QNum) (arg : List Byte) (s : State) : Nat × State :=
  let n := fieldLe arg 0 2
  let mode := fieldLe arg 2 1
  let cflags := fieldLe arg 3 1
  let target := fieldLe arg 4 4
  let count := fieldLe arg 8 4
  let share := fieldLe arg 12 1
  let x := s.stitch n
  if s.ownsStitch q n ∧ (x.waits ≠ [] ∨ x.poison) then (DS.state, s)
  else if n ≥ 4096 ∨ ¬ s.ownsStitch q n ∨ mode ≥ 3 ∨ target = 0 ∨ bit share q.val ∨ cflags ≥ 2 ∨ fieldLe arg 13 3 ≠ 0
      ∨ (cflags = 1 ∧ share ≠ 0) ∨ (mode = 2 ∧ target ≤ count) then (DS.range, s)
  else
    let y : Stitch :=
      { count := count, target := target, mode := mode, share := BitVec.ofNat 8 share, poison := false,
        spec := cflags == 1, shadow := if cflags = 1 then count else 0, generation := 0, overshoot := 0, savedGen := 0,
        savedOver := 0, waits := [] }
    (DS.ok, (s.setStitch n y).cmdDone (Key.qStitchConfig q) DS.ok [])

end Sys2Proof.Machine
end

