-- ==== Sys2Proof/Machine/Store.lean ====
section
/-! DEFINITION. The weight store's books: the library of slipcases and the handles to it (15), where a stripe lies
(12), the translation layer's rows, blocks and bands, and the journal (13). -/

namespace Sys2Proof.Machine

/-! ### Library entries and handles (R717 to R719) -/

def State.lib (s : State) (e : Nat) : LibEntry := Tab.get s.nv.lib LibEntry.reset e

def State.setLib (s : State) (e : Nat) (x : LibEntry) : State :=
  s.setNv { s.nv with lib := Tab.set s.nv.lib LibEntry.reset e x }

/-- Installed from the completion of its load until its removal, whatever befell it since (R717, R764, R766). -/
def LibEntry.installed (x : LibEntry) : Bool :=
  match x.state with
  | .empty => false
  | .loading => false
  | _ => true

/-- LIB_ENTRY STATE (R769). -/
def libStateCode : LibState → Nat
  | .empty => 0
  | .loading => 1
  | .installed => 2
  | .damaged => 3
  | .relocating => 4
  | .stranded => 5

/-- A handle (R718). -/
def mkHandle (generation : Nat) (q : QNum) (e : Nat) : Nat := generation * 4096 + q.val * 256 + e

/-- The entry a handle names, when the quire holds it (R719). -/
def State.validHandle (s : State) (q : QNum) (h : Nat) : Option Nat :=
  let e := h % 64
  if h ≠ 0 ∧ s.rd (Key.qHandle q (e + 1)) = h ∧ (s.lib e).installed ∧ (s.lib e).generation = h / 4096 then some e else none

def State.holds (s : State) (q : QNum) (e : Nat) : Bool := s.rd (Key.qHandle q (e + 1)) != 0

def State.holders (s : State) (e : Nat) : List QNum := allQ.filter fun q => s.holds q e

def allE : List Nat := List.range 64

/-- The installed tip-ins whose base is entry `e`. -/
def State.tipins (s : State) (e : Nat) : List Nat :=
  allE.filter fun t => (s.lib t).installed && (s.lib t).base == some e

def LibEntry.mib (x : LibEntry) : Nat := ceilDiv x.stripes 4

/-- T3 usage of a quire in MiB: its handles, and a training commit's new version (R679, R778). -/
def State.usedT3 (s : State) (q : QNum) : Nat :=
  (allE.map fun e => if s.holds q e then (s.lib e).mib else 0).sum +
    match (s.quire q).train with
    | some t => (s.lib t.newEntry).mib
    | none => 0

def State.giveHandle (s : State) (q : QNum) (e v : Nat) : State :=
  s.wrs [(Key.qHandle q (e + 1), mkHandle (s.lib e).generation q e), (Key.qHandleVariant q (e + 1), v)]

def State.dropHandle (s : State) (q : QNum) (e : Nat) : State :=
  s.wrs [(Key.qHandle q (e + 1), 0), (Key.qHandleVariant q (e + 1), 0xFF)]

/-- Every handle of a quire is released (R720). -/
def State.dropHandles (s : State) (q : QNum) : State := allE.foldl (fun s e => s.dropHandle q e) s

/-- A running run of the quire binds the handle in a TEXT binding. -/
def State.textBound (s : State) (q : QNum) (h : Nat) : Bool :=
  (s.quire q).runs.any fun r => r.binds.any fun b => b.kind == 3 && b.value == h

/-! ### Stripes (R722, R723, R553, R554, R568) -/

def Section.stripes (x : Section) : Nat := ceilDiv x.leaves 32

/-- Section number, section and stripe within it of a slipcase stripe. -/
def sectionAt : List Section → Nat → Nat → Option (Nat × Section × Nat)
  | [], _, _ => none
  | x :: t, i, k => if k < x.stripes then some (i, x, k) else sectionAt t (i + 1) (k - x.stripes)

/-- First slipcase stripe of a section, BASE_s (R722). -/
def sectionBase (l : List Section) (i : Nat) : Nat := ((l.take i).map Section.stripes).sum

/-- The placement list of a section for a variant (R725). -/
def Manifest.place (m : Manifest) (v sec : Nat) : List Nat := m.places.getD (m.sections.length * v + sec) []

/-- The bank group of a slipcase stripe under a variant (R554). -/
def Manifest.groupOf (m : Manifest) (v k : Nat) : Option Nat :=
  match sectionAt m.sections 0 k with
  | some (i, _, j) =>
    let l := m.place v i
    if l = [] then none else some (l.getD (j % l.length) 0)
  | none => none

/-- Every section is execute-only but an OPEN data section (R568). -/
def Manifest.xoStripe (m : Manifest) (k : Nat) : Bool :=
  match sectionAt m.sections 0 k with
  | some (_, x, _) => !(x.kind == 4 && x.isOpen)
  | none => true

/-! ### Banks, blocks and bands (R551, R552, R596, R597, R624 to R627) -/

/-- The die and die bank of bank `k` of group `g` (R551). -/
def bankOf (g k : Nat) : Nat × Nat := (g / 2, 8 * (g % 2) + k)

def State.groupInService (s : State) (g : Nat) : Bool :=
  decide (g < s.groups) && (List.range 8).all fun k => !s.nv.retired.contains (bankOf g k)

def Band.fresh : Band := { used := 0, reads := 0, overRated := false }

def State.bandOf (s : State) (g b : Nat) : Band := Tab.get s.nv.bands Band.fresh (g * 16 + b)

def State.setBand (s : State) (g b : Nat) (x : Band) : State :=
  s.setNv { s.nv with bands := Tab.set s.nv.bands Band.fresh (g * 16 + b) x }

def BlockRec.fresh : BlockRec := { state := .freeErased, cycles := 0 }

def State.block (s : State) (g k n : Nat) : BlockRec := Tab.get s.nv.blocks BlockRec.fresh ((g * 8 + k) * 18 + n)

def State.setBlock (s : State) (g k n : Nat) (x : BlockRec) : State :=
  s.setNv { s.nv with blocks := Tab.set s.nv.blocks BlockRec.fresh ((g * 8 + k) * 18 + n) x }

/-- The physical block of a bank that holds a band. -/
def State.mappedBlock (s : State) (g k b : Nat) : Nat := Tab.get s.nv.blockTab b ((g * 8 + k) * 16 + b)

def State.mapBlock (s : State) (g k b n : Nat) : State :=
  s.setNv { s.nv with blockTab := Tab.set s.nv.blockTab b ((g * 8 + k) * 16 + b) n }

/-! ### The main array's pages (R551 to R553) -/

/-- User bytes of a page (R551). -/
def pageBytes : Nat := 4224

/-- Where page `p` of block `n` on plane `j` of bank `k` of group `g` begins in `Nv.main` (R551). -/
def pageBase (g k n p j : Nat) : Nat := ((((g * 8 + k) * 18 + n) * 512 + p) * 8 + j) * pageBytes

/-- The page a sense of row `r` reads on a plane of a bank: page r mod 512 of the block that holds its band (R552). -/
def State.sensedPage (s : State) (g k r j : Nat) : Nat := pageBase g k (s.mappedBlock g k (r / 512)) (r % 512) j

/-- Leaf `n` of a row as its sense gives it: from bank ⌊n/4⌋ of the group, bytes 0 to 4,223 from plane 2 (n mod 4), bytes
4,224 to 8,447 from the plane after it (R552, R553). -/
def State.rowLeaf (s : State) (g r n : Nat) : Mem :=
  let k := n / 4
  let j := 2 * (n % 4)
  Mem.slice s.nv.main (s.sensedPage g k r j) pageBytes ++
    Mem.shift pageBytes (Mem.slice s.nv.main (s.sensedPage g k r (j + 1)) pageBytes)

/-- Byte `j` of the frame of leaf `n` of a row. -/
def State.rowByte (s : State) (g r n j : Nat) : Byte :=
  Mem.read s.nv.main (s.sensedPage g (n / 4) r (2 * (n % 4) + j / pageBytes) + j % pageBytes)

/-- One page position of a bank is programmed: four leaf frames, each on its two planes (R553, R606). -/
def State.programPages (s : State) (g k n p : Nat) (frames : Mem) : State :=
  s.setNv { s.nv with main := Mem.paste s.nv.main (pageBase g k n p 0) (4 * leafBytes) frames }

/-- A block's pages after an erase hold nothing. -/
def State.erasePages (s : State) (g k n : Nat) : State :=
  s.setNv { s.nv with main := Mem.clear s.nv.main (pageBase g k n 0 0) (512 * 8 * pageBytes) }

/-- The first `rows` page positions of a block are copied to another block of the bank, each page on its own plane
(R631). -/
def State.copyBlock (s : State) (g k src dst rows : Nat) : State :=
  let len := rows * 8 * pageBytes
  s.setNv { s.nv with main := Mem.paste s.nv.main (pageBase g k dst 0 0) len (Mem.slice s.nv.main (pageBase g k src 0 0) len) }

/-! ### Slipcase leaves (R575, R722, R764) -/

/-- The bank group and row of a slipcase leaf's stripe (R554, R624). -/
def LibEntry.rowOf (x : LibEntry) (k : Nat) : Option (Nat × Nat) :=
  match x.man.groupOf x.variant k, Tab.find x.rows k with
  | some g, some r => some (g, r)
  | _, _ => none

/-- The frame of leaf `n` of an entry, through the maps: leaf n mod 32 of stripe ⌊n/32⌋; a lost leaf delivers zeros
(R764). -/
def State.libFrame (s : State) (e n : Nat) : Mem :=
  if n ∈ (s.lib e).lost then []
  else
    match (s.lib e).rowOf (n / 32) with
    | some (g, r) => s.rowLeaf g r (n % 32)
    | none => []

/-- Byte `j` of a leaf's frame. -/
def State.libByte (s : State) (e n j : Nat) : Byte :=
  if n ∈ (s.lib e).lost then 0
  else
    match (s.lib e).rowOf (n / 32) with
    | some (g, r) => s.rowByte g r (n % 32) j
    | none => 0

/-- The bytes of imposition `j` of a slipcase (R726). -/
def State.impBytes (s : State) (e : Nat) (r : ImpRec) : Nat → Byte := fun i =>
  s.libByte e (32 * sectionBase (s.lib e).man.sections r.sec + r.firstLeaf + i / 8192) (256 + i % 8192)

def allBlocks : List Nat := List.range 18

/-- Usable blocks of a bank: all but the bad (R596, R627). -/
def State.usableBlocks (s : State) (g k : Nat) : List Nat := allBlocks.filter fun n => (s.block g k n).state != .bad

/-- A free-dirty block joins the deferred erases (R639). -/
def State.dirtyBlock (s : State) (g k n : Nat) : State :=
  let s := s.setBlock g k n { s.block g k n with state := .freeDirty }
  s.setNv { s.nv with dirty := s.nv.dirty ++ [(g, k, n)] }

/-- A band's move is queued or runs. -/
def State.bandMoves (s : State) (g b : Nat) : Bool := s.nv.moves.any fun m => m.group == g && m.band == b

def BandMove.queued (g b : Nat) (kind : MoveKind) : BandMove :=
  { group := g, band := b, kind := kind, rescue := false, rows := none, prog := 0, dest := [] }

/-- A move is queued for a band, unless one is. -/
def State.queueMove (s : State) (g b : Nat) (kind : MoveKind) : State :=
  if s.bandMoves g b ∨ (s.bandOf g b).used = 0 then s
  else s.setNv { s.nv with moves := s.nv.moves ++ [.queued g b kind] }

/-- A band is queued for rescue: its move, queued now if none is, is one for rescue (R585, R638). -/
def State.queueRescue (s : State) (g b : Nat) : State :=
  let s := s.queueMove g b .refresh
  s.setNv { s.nv with moves := s.nv.moves.map fun m => if m.group = g ∧ m.band = b then { m with rescue := true } else m }

/-- Erase cycles of two usable blocks of a bank differ by more than 100: a wear move of the less worn one's band
(R626). -/
def State.wearCheck (s : State) (g k : Nat) : State :=
  let us := s.usableBlocks g k
  let cyc := fun n => (s.block g k n).cycles
  let hi := us.foldl (fun m n => max m (cyc n)) 0
  match us.find? fun n => cyc n + 100 < hi with
  | none => s
  | some n =>
    match (List.range 16).find? fun b => s.mappedBlock g k b == n && (s.bandOf g b).used != 0 with
    | some b => s.queueMove g b .wear
    | none => s

/-- A block is erased (R625, R639). -/
def State.eraseBlockAt (s : State) (g k n : Nat) : State :=
  let x := s.block g k n
  let s := (s.setBlock g k n { state := .freeErased, cycles := x.cycles + 1 }).erasePages g k n
  (s.setNv { s.nv with dirty := s.nv.dirty.filter fun d => d != (g, k, n) }).wearCheck g k

/-- The free-erased block of a bank with the fewest cycles, the lowest-numbered among equals (R625). -/
def State.freshBlock (s : State) (g k : Nat) : Option Nat :=
  (allBlocks.filter fun n => (s.block g k n).state == .freeErased).foldl
    (fun o n => match o with
      | none => some n
      | some m => if (s.block g k n).cycles < (s.block g k m).cycles then some n else some m) none

/-- An erased block of a bank goes into use; a bank without one first erases its oldest free-dirty block (R640). -/
def State.takeBlock (s : State) (g k : Nat) : Option Nat × State :=
  let s := if s.freshBlock g k = none then
      (match s.nv.dirty.find? fun d => d.1 == g && d.2.1 == k with
        | some d => s.eraseBlockAt g k d.2.2
        | none => s)
    else s
  match s.freshBlock g k with
  | some n => (some n, s.setBlock g k n { s.block g k n with state := .inUse })
  | none => (none, s)

/-- An empty band gets a block in each bank of its group. -/
def State.openBand (s : State) (g b : Nat) : State :=
  (List.range 8).foldl (fun s k =>
    match s.takeBlock g k with
    | (some n, s) => s.mapBlock g k b n
    | (none, s) => s) s

/-- The next free row of a group: the lowest-numbered band that holds free rows (R624). -/
def State.freeRow (s : State) (g : Nat) : Option Nat :=
  match (List.range 16).find? fun b => decide ((s.bandOf g b).used < 512) with
  | some b => some (b * 512 + (s.bandOf g b).used)
  | none => none

/-- Free rows of a group. -/
def State.freeRows (s : State) (g : Nat) : Nat := ((List.range 16).map fun b => 512 - (s.bandOf g b).used).sum

/-- The 32 frames of a stripe go to the pages of a row, bank by bank (R553). -/
def State.writeRow (s : State) (g r : Nat) (frames : Mem) : State :=
  (List.range 8).foldl (fun s k =>
    s.programPages g k (s.mappedBlock g k (r / 512)) (r % 512) (Mem.slice frames (4 * k * leafBytes) (4 * leafBytes))) s

/-- The next free row of a group is programmed with the frames of a stripe (PRESS_BYTES counts payload, R656). -/
def State.programRow (s : State) (g : Nat) (frames : Mem) : Option Nat × State :=
  match s.freeRow g with
  | none => (none, s)
  | some r =>
    let b := r / 512
    let s := if (s.bandOf g b).used = 0 then s.openBand g b else s
    (some r, ((s.setBand g b { s.bandOf g b with used := r % 512 + 1 }).writeRow g r frames).count Key.pressBytes 262144)

/-- The stripes of an entry that lie in a band. -/
def LibEntry.inBand (x : LibEntry) (g b : Nat) : Bool :=
  x.rows.any fun p => p.2 / 512 == b && x.man.groupOf x.variant p.1 == some g

/-- Bands without a live stripe give up their blocks; a move of such a band stops (R639, R762). -/
def State.closeBands (s : State) : State :=
  (List.range s.groups).foldl (fun s g => (List.range 16).foldl (fun s b =>
    if (s.bandOf g b).used ≠ 0 ∧ ¬ allE.any (fun e => (s.lib e).state != .empty && (s.lib e).inBand g b) then
      let dests := (s.nv.moves.filter fun m => m.group == g && m.band == b).map BandMove.dest
      let moving := s.nv.moves.any fun m => m.group == g && m.band == b && m.rows.isSome
      let s := s.setNv { s.nv with
        moves := s.nv.moves.filter fun m => !(m.group == g && m.band == b),
        units := if moving then s.nv.units.filter fun u => !(u.group == g && u.worker == .move) else s.nv.units }
      let s := dests.foldl (fun s d => (List.range d.length).foldl (fun s k => s.dirtyBlock g k (d.getD k 0)) s) s
      let s := (List.range 8).foldl (fun s k => s.dirtyBlock g k (s.mappedBlock g k b)) s
      s.setBand g b Band.fresh
    else s) s) s

/-! ### Read counts (R594, R628 to R630, R634) -/

/-- Every band's read count. -/
def State.bandCounts (s : State) : Tab Nat := s.nv.bands.filterMap fun e => if e.2.reads = 0 then none else some (e.1, e.2.reads)

/-- A checkpoint of all counts (R628). -/
def State.checkpoint (s : State) : State := s.setNv { s.nv with ckpt := some s.bandCounts }

def ckptStep : Nat := 4194304

/-- `n` reads of a band: counted, its refresh queued at TL_REFRESH_START, its over-rating reported once, and a
checkpoint written when the count has risen far enough. -/
def State.readBand (s : State) (g b : Nat) (n : Nat := 1) : State :=
  let x := s.bandOf g b
  let reads := min (x.reads + n) 0xFFFFFFFF
  let rated := decide (s.rd Key.ratedBandReads ≤ reads) && !x.overRated
  let s := s.setBand g b { x with reads := reads, overRated := x.overRated || rated }
  let s := if rated then (s.count Key.tlOverRated).alert AL.bandOver else s
  let s := if s.rd Key.tlRefreshStart ≤ reads then s.queueMove g b .refresh else s
  if Tab.get (s.nv.ckpt.getD []) 0 (g * 16 + b) + ckptStep ≤ reads then s.checkpoint else s

/-- The sense of a stripe reads its row's band. -/
def State.senseStripe (s : State) (e k : Nat) : State :=
  match (s.lib e).rowOf k with
  | some (g, r) => s.readBand g (r / 512)
  | none => s

/-- Stripes `lo` to `hi` of an entry are sensed, each once. -/
def State.senseStripes (s : State) (e lo hi : Nat) : State :=
  (upFrom lo (hi + 1 - lo)).foldl (fun s k => s.senseStripe e k) s

/-! ### The journal (R647, R648) -/

/-- A START entry is appended on an idle plane pair: the operation kind and what it names (R620, R647; log entry 98). -/
def State.jStart (s : State) (kind addr : Nat) : State :=
  s.setNv { s.nv with journal := s.nv.journal ++ [{ kind := kind, addr := addr, pair := s.idlePairs.getD 0 0 }] }

def State.jEnd (s : State) (kind addr : Nat) : State :=
  s.setNv { s.nv with journal := s.nv.journal.filter fun e => !(e.kind == kind && e.addr == addr) }

/-- Journal kinds: a main-array program or erase, a band move, a program or erase of an auxiliary sector. -/
def jMain : Nat := 1
def jMove : Nat := 2
def jSector : Nat := 3

/-! ### Banks in use, claims, and the press's units (R559 to R565, R603) -/

/-- A run claims the group (R559). -/
def State.claimed (s : State) (g : Nat) : Bool := s.nv.claims.any fun c => c.1 == g

/-- The banks of the group hold weights in use in the slot under way: its group senses a row. While the group is claimed
they do so in every slot but those in which it senses nothing (R560). -/
def State.weightsInUse (s : State) (g : Nat) : Bool := s.weave.sensing.contains g

/-- A continuous operation may start in the group: no run claims it, every quire's queue for it is empty, and its banks
hold no weights in use (R561, R563). -/
def State.contOk (s : State) (g : Nat) : Bool :=
  !s.claimed g && (allQ.all fun q => (Tab.get s.weave.queues [] (q.val * 12 + g)).isEmpty) && !s.weightsInUse g

/-- A continuous operation runs in the group: its bit of BG_BUSY. -/
def State.groupBusy (s : State) (g : Nat) : Bool := s.nv.units.any fun u => u.group == g && u.cont

/-- BG_BUSY. -/
def State.bgBusy (s : State) : Nat := ((List.range 12).map fun g => if s.groupBusy g then 2 ^ g else 0).sum

/-- A run has claimed a group in which a continuous operation runs: its cache load and stamp 0 wait (R564). -/
def State.runHeld (s : State) (q : QNum) (run : Nat) : Bool :=
  s.nv.claims.any fun c => c.2.1 == q && c.2.2 == run && s.groupBusy c.1

/-- Banks of the group a worker's press step works on: those of its unit; an engine's programs go to a row's eight banks. -/
def State.stepBanks (s : State) (g : Nat) (w : Worker) : List Nat :=
  match w with
  | .op id => (s.nv.units.find? fun u => u.group == g && u.worker == .op id).elim [] PressUnit.banks
  | .erase k _ => [k]
  | _ => List.range 8

/-- The bank is busy: a continuous operation on it runs, or the slot under way is a press step on it (R565). -/
def State.bankBusy (s : State) (g k : Nat) : Bool :=
  (s.nv.units.any fun u => u.group == g && u.banks.contains k && u.cont) ||
    s.weave.steps.any fun p => p.1 == g && (s.stepBanks g p.2).contains k

/-- A worker's unit in the group. -/
def State.pressUnit (s : State) (g : Nat) (w : Worker) : Option PressUnit :=
  s.nv.units.find? fun u => u.group == g && u.worker == w

/-- The worker programs or erases in the group now: its continuous operation runs, or its press step does (R561). -/
def State.pressing (s : State) (g : Nat) (w : Worker) : Bool :=
  match s.pressUnit g w with
  | some u => u.cont || s.weave.steps.contains (g, w)
  | none => false

/-- A unit starts on banks that no other unit occupies: continuous where that may start, else in press steps. -/
def State.addUnit (s : State) (g : Nat) (w : Worker) (banks : List Nat) : State :=
  s.setNv { s.nv with units := s.nv.units ++ [{ group := g, worker := w, banks := banks, cont := s.contOk g }] }

/-- An engine whose last program in the group has ended, or can run there now as continuous operations, is done there
(R561, R562; log entry 99). -/
def State.mayProgram (s : State) (turns : List Nat) (g : Nat) : Bool :=
  turns.contains g || (s.contOk g && s.nv.units.all fun u => u.group != g)

/-- No unit of the group occupies one of the banks. -/
def State.banksFree (s : State) (g : Nat) (banks : List Nat) : Bool :=
  s.nv.units.all fun u => !(u.group == g && banks.any fun k => u.banks.contains k)

def State.endUnit (s : State) (g : Nat) (w : Worker) : State :=
  s.setNv { s.nv with units := s.nv.units.filter fun u => !(u.group == g && u.worker == w) }

/-- Every unit of a worker ends, in whichever groups. -/
def State.endWorker (s : State) (w : Worker) : State :=
  s.setNv { s.nv with units := s.nv.units.filter fun u => u.worker != w }

end Sys2Proof.Machine
end

