-- ==== Sys2Proof/Machine/Leaves.lean ====
section
/-! DEFINITION. Tier addresses, what they name for a quire, and the contents of T1 and T2 leaves (14). -/

namespace Sys2Proof.Machine

/-! ### Tier addresses (R664 to R667) -/

/-- The form and leaf of a tier address; none where a form or bit is reserved (R665). -/
def addrOf (a : Nat) : Option Addr :=
  match bits a 63 60 with
  | 1 =>
    if bits a 59 19 ≠ 0 then none
    else some { form := .slice (Fin.ofNat 8 (bits a 18 16)), leaf := bits a 15 0 }
  | 2 => if bits a 59 16 ≠ 0 then none else some { form := .commons, leaf := bits a 15 0 }
  | 3 => if bits a 59 20 ≠ 0 then none else some { form := .t2, leaf := bits a 19 0 }
  | 4 => if bits a 59 32 ≠ 0 then none else some { form := .t4, leaf := bits a 31 0 }
  | 5 => some { form := .t3 (bits a 59 28), leaf := bits a 27 0 }
  | 8 => if bits a 12 0 ≠ 0 ∨ bits a 59 40 ≠ 0 then none else some { form := .unified, leaf := bits a 39 13 }
  | _ => none

/-- The 64 bits of a tier address; an advanced leaf carries into no other field (R664). -/
def Addr.encode (x : Addr) : Nat :=
  match x.form with
  | .slice b => 2 ^ 60 + b.val * 2 ^ 16 + x.leaf % 2 ^ 16
  | .commons => 2 * 2 ^ 60 + x.leaf % 2 ^ 16
  | .t2 => 3 * 2 ^ 60 + x.leaf % 2 ^ 20
  | .t4 => 4 * 2 ^ 60 + x.leaf % 2 ^ 32
  | .t3 h => 5 * 2 ^ 60 + h * 2 ^ 28 + x.leaf % 2 ^ 28
  | .unified => 8 * 2 ^ 60 + x.leaf % 2 ^ 27 * 2 ^ 13

/-- Advance by `k` leaves; a leaf beyond the form's range stays a number no leaf has (R664). -/
def Addr.advance (x : Addr) (k : Nat) : Addr := { x with leaf := x.leaf + k }

/-- T4 window of a quire, in leaves (R667). -/
def State.windowLeaves (s : State) (q : QNum) : Nat := s.rd (Key.qQuota q 4) * 1048576 / 8448

/-- The address of a leaf of a quire's T4 window in its PASID space (R667). -/
def State.t4Addr (s : State) (q : QNum) (n : Nat) : Nat := (s.rd (Key.qT4Base q) + leafBytes * n) % 2 ^ 64

/-- Leaves of a place that extents may take (R661, R663). -/
def State.placeLeaves (s : State) (p : Place) : Nat :=
  match p with
  | .slice _ => 1489
  | .commons => 1985 - s.tiers.poolLeaves
  | .t2 => s.rd Key.t2QuotaCap

def Use.isAlloc (q : QNum) : Use → Bool
  | .alloc p => p == q
  | _ => false

def Extent.has (e : Extent) (p : Place) (n : Nat) : Bool := e.place == p && e.first ≤ n && n < e.first + e.count

/-- The leaf lies in an allocation of the quire. -/
def State.allocated (s : State) (q : QNum) (p : Place) (n : Nat) : Bool :=
  s.tiers.extents.any fun e => e.use.isAlloc q && e.has p n

def ownPlace (s : State) (q : QNum) (p : Place) (n : Nat) : Loc := if s.allocated q p n then .own p n false else .foreign

/-- What a tier address names for a quire (R666). -/
def State.resolve (s : State) (q : QNum) (a : Addr) : Loc :=
  match a.form with
  | .slice b => ownPlace s q (.slice b) a.leaf
  | .commons => ownPlace s q .commons a.leaf
  | .t2 => ownPlace s q .t2 a.leaf
  | .t4 => if a.leaf < s.windowLeaves q then .t4 a.leaf else .foreign
  | .t3 h =>
    match s.validHandle q h with
    | some e => if a.leaf < 32 * (s.lib e).stripes ∧ a.leaf < 2 ^ 28 then .t3 e a.leaf else .foreign
    | none => .foreign
  | .unified =>
    match Tab.find (s.quire q).unified a.leaf with
    | some u =>
      match u.home with
      | .commons n => .own .commons n false
      | .t2 n => .own .t2 n false
      | .toCommons src _ => .own .t2 src true
      | .toT2 src _ => .own .commons src true
    | none => .foreign

/-! ### Contents -/

/-- The frame of a T1 or T2 leaf. -/
def State.leaf (s : State) (p : Place) (n : Nat) : Mem :=
  match p with
  | .slice b => Mem.leaf (s.tiers.slices.get b) n
  | .commons => Mem.leaf s.tiers.commons n
  | .t2 => Mem.leaf s.tiers.t2 n

def State.setLeaf (s : State) (p : Place) (n : Nat) (f : Mem) : State :=
  match p with
  | .slice b => s.setTiers { s.tiers with
      slices := s.tiers.slices.set b.val (Mem.setLeaf (s.tiers.slices.get b) n f) b.isLt }
  | .commons => s.setTiers { s.tiers with commons := Mem.setLeaf s.tiers.commons n f }
  | .t2 => s.setTiers { s.tiers with t2 := Mem.setLeaf s.tiers.t2 n f }

def State.clearLeaves (s : State) (p : Place) (n count : Nat) : State :=
  match p with
  | .slice b => s.setTiers { s.tiers with
      slices := s.tiers.slices.set b.val (Mem.clearLeaves (s.tiers.slices.get b) n count) b.isLt }
  | .commons => s.setTiers { s.tiers with commons := Mem.clearLeaves s.tiers.commons n count }
  | .t2 => s.setTiers { s.tiers with t2 := Mem.clearLeaves s.tiers.t2 n count }

/-- The leaf holds a copy of an execute-only leaf (R570). -/
def State.isXo (s : State) (p : Place) (n : Nat) : Bool := s.tiers.xo.contains (p, n)

def State.setXo (s : State) (p : Place) (n : Nat) (xo : Bool) : State :=
  let rest := s.tiers.xo.filter fun x => x != (p, n)
  s.setTiers { s.tiers with xo := if xo then rest ++ [(p, n)] else rest }

end Sys2Proof.Machine
end

