-- ==== Sys2Proof/Machine/Scopes.lean ====
section
/-! DEFINITION. T0 slots, resource codes and scope tags of a bay, and the cancel of a speculation scope (08, 11). -/

namespace Sys2Proof.Machine

/-! ### T0 slots -/

def SlotMeta.free : SlotMeta :=
  { arriving := none, due := none, leaving := none, voidOnArrival := false, xo := false, ident := 0 }

def Bay.slot (x : Bay) (n : Nat) : SlotMeta := Tab.get x.slots SlotMeta.free n

def Bay.setSlot (x : Bay) (n : Nat) (m : SlotMeta) : Bay := { x with slots := Tab.set x.slots SlotMeta.free n m }

def Bay.modSlot (x : Bay) (n : Nat) (f : SlotMeta → SlotMeta) : Bay := x.setSlot n (f (x.slot n))

def Bay.frame (x : Bay) (n : Nat) : Mem := Mem.leaf x.t0 n

def Bay.setFrame (x : Bay) (n : Nat) (f : Mem) : Bay := { x with t0 := Mem.setLeaf x.t0 n f }

def allSlots : List Nat := List.range 64

/-! ### Resource codes: T0 slots 0 to 63, then the units' registers (R526) -/

def resAcc (e a : Nat) : Nat := 64 + 8 * e + a
def resTreg (e t : Nat) : Nat := 96 + 2 * e + t
def resRacc (r : Nat) : Nat := 104 + r
/-- The sequencer's decision register, the reference unit's, the converter's (R379). -/
def resSeqDreg : Nat := 112
def resRefDreg (i : Nat) : Nat := 113 + i
def resConvDreg (i : Nat) : Nat := 122 + i
def resSet (i : Nat) : Nat := 124 + i

def Bay.tag (x : Bay) (r : Nat) : Nat := Tab.get x.tags 0 r
def Bay.setTag (x : Bay) (r t : Nat) : Bay := { x with tags := Tab.set x.tags 0 r t }

/-- A tag without scope `s`. -/
def tagDrop (s t : Nat) : Nat := if bit t s then t - 2 ^ s else t

def tagsDrop (s : Nat) (t : Tab Nat) : Tab Nat :=
  t.filterMap fun e => if tagDrop s e.2 = 0 then none else some (e.1, tagDrop s e.2)

/-! ### Runs and scopes -/

def State.run (s : State) (q : QNum) (id : Nat) : Option Run := (s.quire q).runs.find? fun r => r.id == id

def State.modRun (s : State) (q : QNum) (id : Nat) (f : Run → Run) : State :=
  s.modQuire q fun x => { x with runs := x.runs.map fun r => if r.id = id then f r else r }

/-- Elapsed cycles of a run at the latest event of its bays (R387). -/
def State.elapsed (s : State) (r : Run) : Nat := r.bays.foldl (fun m b => max m (s.bay b).seq.stamp) 0 + r.slipCycles

/-- The absolute stitches whose binding names a scope (R365, R355). -/
def Run.scopeStitches (r : Run) (s : Nat) : List Nat :=
  r.binds.filterMap fun b => if b.kind = 1 ∧ bit b.bflags s then some (b.value % 4096) else none

/-- SHADOW becomes COUNT, GENERATION and OVERSHOOT the saved ones (R356, R357). -/
def Stitch.specCancel (x : Stitch) : Stitch :=
  if x.spec then { x with shadow := x.count, generation := x.savedGen, overshoot := x.savedOver } else x

/-- COUNT becomes SHADOW (R355). -/
def Stitch.specCommit (x : Stitch) : Stitch :=
  if x.spec then { x with count := x.shadow, savedGen := x.generation, savedOver := x.overshoot } else x

/-- An accumulator block reads as zero. -/
def Engine.zeroAcc (e : Engine) (a : Nat) : Engine :=
  { e with acc := e.acc.filter fun p => p.1 / 512 != a, landing := e.landing.filter fun l => l.block != a }

def Engine.setTreg (e : Engine) (t : Nat) (v : Treg) : Engine :=
  if t = 0 then { e with treg0 := v } else { e with treg1 := v }

def Bay.modEngine (x : Bay) (e : Fin 4) (f : Engine → Engine) : Bay :=
  { x with engines := x.engines.set e.val (f (x.engines.get e)) e.isLt }

def allF4 : List (Fin 4) := [0, 1, 2, 3]

/-- Whatever of the bay carries the scope's bit becomes void: it reads as zero (R530, R531, R533). -/
def Bay.voidScope (x : Bay) (s : Nat) : Bay :=
  let has := fun r => bit (x.tag r) s
  let x := allSlots.foldl (fun y n =>
    if has n then
      let m := y.slot n
      (y.setFrame n []).setSlot n { m with voidOnArrival := m.arriving.isSome, xo := false, ident := 0 }
    else y) x
  let x := allF4.foldl (fun (y : Bay) (e : Fin 4) =>
    let y := (List.range 8).foldl (fun y a => if has (resAcc e.val a) then y.modEngine e (·.zeroAcc a) else y) y
    (List.range 2).foldl (fun y t => if has (resTreg e.val t) then y.modEngine e (·.setTreg t Treg.reset) else y) y) x
  let x := (List.range 8).foldl (fun y r =>
    if has (resRacc r) then { y with racc := y.racc.filter fun p => p.1 / 64 != r } else y) x
  let x := allF4.foldl (fun (y : Bay) (i : Fin 4) =>
    if has (resSet i.val) then { y with sets := y.sets.set i.val StatSet.reset i.isLt } else y) x
  { x with
    moves := x.moves.map fun m => if !m.isIn && bit m.tag s then { m with frame := [], xo := false, ident := 0 } else m,
    dregs := x.dregs.filter fun p => !has p.1,
    dregDue := x.dregDue.map fun d => if bit d.tag s then { d with value := 0, tag := tagDrop s d.tag } else d,
    ready := x.ready.filter fun p => !has p.1, late := x.late.filter fun p => !has p.slot,
    tags := tagsDrop s x.tags }

/-- A STREAM request of the run's scope that no slot has sensed. -/
def SenseReq.inScope (r : SenseReq) (q : QNum) (run s : Nat) (owner : BayNum → Option (QNum × Nat)) : Bool :=
  match r.what with
  | .stream b id _ _ tag _ _ => owner b == some (q, run) && id == run && bit tag s && r.retries == 0
  | _ => false

/-- Slots a sense request fills: the slot of each leaf still to deliver. -/
def SenseReq.slots (r : SenseReq) : List Nat :=
  match r.what with
  | .stream _ _ slot _ _ _ _ => r.leaves.map fun n => slot + n
  | .movIn _ _ slot leaf _ => r.leaves.map fun n => slot + (32 * r.stripe + n) - leaf
  | .cacheLoad _ _ => []

/-- The unsensed STREAM requests of a scope leave the quire's queues; their slots are pending no more (R532). -/
def State.dropUnsensed (s : State) (q : QNum) (run sc : Nat) : State :=
  let owner := fun b => (s.bay b).seq.run
  let gone := (s.weave.queues.filter fun e => e.1 / 12 == q.val).flatMap fun e =>
    e.2.filter fun r => r.inScope q run sc owner
  let s := s.setWeave { s.weave with
    queues := (s.weave.queues.map fun e =>
      (e.1, if e.1 / 12 = q.val then e.2.filter fun r => !r.inScope q run sc owner else e.2)).filter
        fun e => decide (e.2 ≠ []) }
  let s := gone.foldl (fun s r =>
    match r.what with
    | .stream b _ _ _ _ _ _ => s.modBay b fun x => r.slots.foldl (fun x n => x.modSlot n fun m =>
        { m with arriving := none, due := none, voidOnArrival := false }) x
    | _ => s) s
  s.count (Key.qSpecDropped q) gone.length

/-- Make a range leaf of a run read as zero (R531). -/
def State.voidLeaf (s : State) (q : QNum) (addr : Nat) : State :=
  match addrOf addr with
  | some a =>
    match s.resolve q a with
    | .own p n _ => (s.setLeaf p n []).setXo p n false
    | _ => s
  | none => s

/-- Add to a counter table. -/
def tabAdd (t : Tab Nat) (k n : Nat) : Tab Nat := Tab.set t 0 k (Tab.get t 0 k + n)

/-- The leaves that the close of scope `sc` settles, and those that stay uncounted: a cancel makes every leaf of the scope
void; a commit keeps a leaf once no other scope it stands in is open (R549; log entry 96). -/
def specSettle (sc : Nat) (committed : Bool) (t : Tab Nat) : Nat × Tab Nat :=
  t.foldl (fun p e =>
    if !bit e.1 sc then (p.1, tabAdd p.2 e.1 e.2)
    else if committed && tagDrop sc e.1 != 0 then (p.1, tabAdd p.2 (tagDrop sc e.1) e.2)
    else (p.1 + e.2, p.2)) (0, [])

/-- The close of a scope counts its STREAM leaves (R549). -/
def State.countClose (s : State) (q : QNum) (run : Nat) (sc : Scope) (committed : Bool) : State :=
  let l := specSettle sc.id committed (((s.run q run).map Run.specLeaves).getD [])
  let s := s.modRun q run fun r => { r with specLeaves := l.2 }
  let s := (s.count (Key.qSpecOpened q)).count (Key.qSpecLeaves q) l.1
  if committed then (s.count (Key.qSpecCommits q)).count (Key.qSpecKept q) l.1
  else (s.count (Key.qSpecCancels q)).count (Key.qSpecVoid q) l.1

/-- Signals of the scope that have arrived at its stitches: the cancel restores what they did; only their counts stay
(R356, R535). -/
def State.absorbSignals (s : State) (ns : List Nat) : State :=
  let mine := s.st.signals.filter fun p => ns.contains p.1
  let s := s.setSt { s.st with signals := s.st.signals.filter fun p => !ns.contains p.1 }
  mine.foldl (fun s p =>
    match s.stitchOwner p.1 with
    | some o => s.count (if (s.stitch p.1).poison then Key.qStDiscarded o else Key.qStSignals o)
    | none => s) s

/-- SPEC_CANCEL of a scope of a run (R530 to R533, R549, R356). -/
def State.cancelScope (s : State) (q : QNum) (r : Run) (sc : Scope) : State :=
  let s := s.dropUnsensed q r.id sc.id
  let s := r.bays.foldl (fun s b => s.modBay b fun x => x.voidScope sc.id) s
  let gone := r.rangeTags.filter fun e => bit e.2 sc.id
  let s := gone.foldl (fun s e => s.voidLeaf q e.1) s
  let s := s.modRun q r.id fun r => { r with
    rangeTags := tagsDrop sc.id r.rangeTags,
    rangeIds := r.rangeIds.filter fun e => !gone.any fun g => g.1 == e.1 }
  let s := (r.scopeStitches sc.id).foldl (fun s n => s.setStitch n (s.stitch n).specCancel)
    (s.absorbSignals (r.scopeStitches sc.id))
  s.countClose q r.id sc false

/-- Every scope of the quire's runs still open is cancelled in the cycle its bays stop (R535). -/
def State.cancelScopes (s : State) (q : QNum) : State :=
  (s.quire q).runs.foldl (fun s r =>
    let s := (r.scopes.filter fun c => !c.closed).foldl (fun s c => s.cancelScope q ((s.run q r.id).getD r) c) s
    s.modRun q r.id fun r => { r with scopes := [] }) s

/-- A frame goes to a leaf of a quire's T4 window (R260, R667). -/
def State.writeT4 (s : State) (q : QNum) (n : Nat) (f : Mem) : State :=
  s.emit (.t4Write q (s.rd (Key.qPasid q)) (s.t4Addr q n) n (Mem.readN f 0 leafBytes))

/-- A frame of a leaf of a quire's T4 window is asked for (R260, R667). -/
def State.readT4 (s : State) (q : QNum) (n : Nat) : State :=
  s.emit (.dmaRead q (s.rd (Key.qPasid q)) (s.t4Addr q n) leafBytes)

/-- A frame a leaf mover or a unit leaves in a leaf of a quire: T1 and T2 leaves take it, a T4 leaf is written by DMA. -/
def State.leaveFrame (s : State) (q : QNum) (addr : Nat) (f : Mem) (xo : Bool) : State :=
  match addrOf addr with
  | some a =>
    match s.resolve q a with
    | .own p n _ => (s.setLeaf p n f).setXo p n xo
    | .t4 n => s.writeT4 q n f
    | _ => s
  | none => s

/-- The leaf moves of a bay end with its run: writes to T1 and T2 in flight complete (R295 step 5); the writes to T4
stay until they are dropped. -/
def State.flushMoves (s : State) (q : QNum) (b : BayNum) : State :=
  let l := (s.bay b).moves.filter fun m => !m.isIn && m.cause != .t4
  let s := l.foldl (fun s m => s.leaveFrame q m.addr m.frame m.xo) s
  s.modBay b fun x => { x with moves := x.moves.filter fun m => !m.isIn && m.cause == .t4 }

/-- No leaf is to arrive in a slot of the bay or to leave one any more. -/
def Bay.clearMarks (x : Bay) : Bay :=
  let f := fun (m : SlotMeta) => { m with arriving := none, due := none, leaving := none, voidOnArrival := false }
  { x with slots := Tab.mapVals SlotMeta.free f x.slots }

/-- Every run of the quire ends where it stands: scopes cancelled, claims dropped, its bays step no stream
(R535, R559). Reservations stay. -/
def State.endRuns (s : State) (q : QNum) : State :=
  let s := s.cancelScopes q
  let s := s.modQuire q fun x => { x with runs := [] }
  let s := s.setNv { s.nv with claims := s.nv.claims.filter fun c => c.2.1 != q }
  s.forB fun s b => match (s.bay b).seq.run with
    | some (p, _) => if p = q then (s.flushMoves q b).modBay b fun x => { x.clearMarks with seq := Seq.reset } else s
    | none => s

end Sys2Proof.Machine
end

