-- ==== Sys2Proof/Machine/Engines.lean ====
section
/-! DEFINITION. What the arithmetic units of a bay compute (09, 10): table engines and escape lanes, the log-domain unit,
the reference unit and the converter. Each operation is a function of the entry that issues it. -/

namespace Sys2Proof.Machine

/-- An entry at its issue: bay, entry bits, stamp, an odd iteration of loop level 0 (R370), and the bits of the scopes
the entry stands in. -/
structure Issue where
  b : BayNum
  w : Nat
  t : Nat
  odd : Bool
  scope : Nat
  deriving DecidableEq, Repr

/-- The slot of a slot reference that starts at bit `lo` (R370). -/
def Issue.ts (i : Issue) (lo : Nat) : Nat :=
  let v := bits i.w (lo + 6) lo
  let n := v % 64
  if bit v 6 ∧ i.odd then (if n % 2 = 0 then n + 1 else n - 1) else n

/-- The unit's index in its class, 0 to 3. -/
def Issue.engine (i : Issue) : Fin 4 := Fin.ofNat 4 (Ent.index i.w)

/-- The statistics set an operand at bits [lo + 1, lo] names. -/
def Issue.set (i : Issue) (lo : Nat) : Fin 4 := Fin.ofNat 4 (bits i.w (lo + 1) lo)

/-! ### Reading and writing units' results (R380, R382, R527) -/

/-- The result in a resource is not ready at stamp `t`. -/
def State.early (s : State) (b : BayNum) (res t : Nat) : Bool := decide (t < Tab.get (s.bay b).ready 0 res)

def SlotSpan.covers (x : SlotSpan) (k : Nat) : Bool := decide (x.first ≤ k ∧ k < x.first + x.count)

/-- The frame of a slot as an entry reads it: bytes that an operation in flight writes are unspecified. -/
def State.readSlot (s : State) (i : Issue) (n : Nat) : Mem × State :=
  let f := (s.bay i.b).frame n
  match (s.bay i.b).late.filter fun x => x.slot == n && decide (i.t < x.ready) with
  | [] => (f, s)
  | l =>
    (Mem.ofList ((List.range leafBytes).map fun k =>
      if l.any fun x => x.covers k then BitVec.ofNat 8 (s.fresh.1 / 256 ^ k) else Mem.read f k), s.fresh.2)

def payloadBase : Nat := 256

/-- Mark a resource as a result of the entry: its tag and its ready stamp. -/
def State.result (s : State) (i : Issue) (res : Nat) (reads : List Nat) (ready : Nat) : State :=
  s.modBay i.b fun x =>
    let t := reads.foldl (fun t r => t ||| x.tag r) i.scope
    { x.setTag res t with ready := Tab.put x.ready res (some (max ready (Tab.get x.ready 0 res))) }

/-- A unit writes a slot, in the byte ranges `spans` of its frame: the slot's tag; its T3 identity goes (R686). -/
def State.writeSlot (s : State) (i : Issue) (n : Nat) (reads : List Nat) (ready : Nat) (spans : List (Nat × Nat)) (f : Mem) :
    State :=
  s.modBay i.b fun x =>
    let t := reads.foldl (fun t r => t ||| x.tag r) i.scope
    { ((x.setFrame n f).modSlot n fun m => { m with ident := 0 }).setTag n t with
      late := (x.late.filter fun y => decide (i.t < y.ready)) ++
        spans.map fun p => { slot := n, first := p.1, count := p.2, ready := ready } }

/-- A decision register takes a value in the cycle its operation is ready (R379). -/
def State.writeDreg (s : State) (i : Issue) (reg value : Nat) (reads : List Nat) (ready : Nat) : State :=
  s.modBay i.b fun x =>
    let t := reads.foldl (fun t r => t ||| x.tag r) i.scope
    { x with dregDue := x.dregDue ++ [{ ready := ready, reg := reg, value := value, tag := t }] }

/-- Decision-register writes ready before stamp `t` take effect. -/
def Bay.settleDregs (x : Bay) (t : Nat) : Bay :=
  let done := x.dregDue.filter fun d => d.ready < t
  let x := done.foldl (fun x d => { x.setTag d.reg d.tag with dregs := Tab.set x.dregs 0 d.reg d.value }) x
  { x with dregDue := x.dregDue.filter fun d => !decide (d.ready < t) }

/-! ### Table engines -/

/-- Activation `k` of a payload at a width; beyond the payload it reads as zero (R425, R426). -/
def activation (f : Mem) (width : ActWidth) (k : Nat) : Int :=
  match width with
  | .int8 => if k < 8192 then toSigned 8 (Mem.read f (payloadBase + k)).toNat else 0
  | .int4 => if k < 16384 then toSigned 4 (nibbleAt f payloadBase k) else 0
  | .bit =>
    if k < 65536 ∧ bit (Mem.read f (payloadBase + k / 8)).toNat (k % 8) then 1 else -1

def subsetSum (a : Nat → Int) (n : Nat) : Int :=
  ((List.range 4).map fun j => if bit n j then a j else 0).sum

/-- The table of a TE_BUILD (R425, R427). -/
def buildTable (mode agroup : Nat) (f : Mem) : Treg :=
  let width := if mode = 1 then ActWidth.int4 else if mode = 5 then ActWidth.bit else ActWidth.int8
  let base := if mode = 5 then 16 * agroup else 4 * agroup
  let a := fun k => activation f width (base + k)
  let codes := fun (tables levels : Nat) (level : Nat → Int) =>
    (List.range tables).flatMap fun c => (List.range levels).map fun m => a c * level m
  let entries :=
    match mode with
    | 2 => codes 42 8 levelG3
    | 3 => codes 32 16 levelG4
    | 4 => codes 21 64 levelG6
    | 5 => (List.range 32).map fun c =>
        (((List.range 4).map fun j => if a (4 * c + j) = 1 then 2 ^ j else 0).sum : Nat)
    | _ => (List.range 32).flatMap fun g => (List.range 16).map (subsetSum fun j => a (4 * g + j))
  { entries := entries, base := base, width := width, mode := some mode }

def Engine.treg (e : Engine) (t : Nat) : Treg := if t = 0 then e.treg0 else e.treg1

def sat32 (x : Int) : Int := max (-2147483648) (min 2147483647 x)

/-- The 512 accumulators of a block. -/
def Engine.block (e : Engine) (a : Nat) : List Int := (upFrom (512 * a) 512).map (Tab.get e.acc 0)

def Engine.setBlock (e : Engine) (a : Nat) (v : List Int) : Engine :=
  { e with acc := (e.acc.filter fun p => p.1 < 512 * a) ++
      (((upFrom (512 * a) 512).zip v).filter fun p => p.2 != 0) ++ (e.acc.filter fun p => 512 * a + 512 ≤ p.1) }

def addLists (a b : List Int) : List Int := (a.zip b).map fun p => p.1 + p.2

/-- What lands on one block in one cycle (R438 to R440). -/
def Engine.land (e : Engine) (ls : List Landing) (a : Nat) : Engine :=
  let mine := ls.filter fun l => l.block == a
  if mine = [] then e
  else
    let zero := List.replicate 512 (0 : Int)
    let adds := (mine.filterMap fun l => if l.clear = none then some l.adds else none).foldl addLists zero
    match mine.findSome? Landing.clear with
    | some true => e.setBlock a (adds.map sat32)
    | some false => e.setBlock a zero
    | none => e.setBlock a ((addLists (e.block a) adds).map sat32)

/-- Everything that lands in cycle `c`. -/
def Engine.landCycle (e : Engine) (c : Nat) : Engine :=
  (List.range 8).foldl (fun e' a => e'.land (e.landing.filter fun l => l.cycle == c) a) e

/-- Everything that lands up to cycle `t`, cycle by cycle. -/
def Engine.settle (e : Engine) (t : Nat) : Engine :=
  let due := sortNat ((e.landing.filter fun l => l.cycle ≤ t).map Landing.cycle)
  let e' := due.foldl Engine.landCycle e
  { e' with landing := e.landing.filter fun l => !decide (l.cycle ≤ t) }

def State.engine (s : State) (i : Issue) : Engine := (s.bay i.b).engines.get i.engine

def State.modEngine (s : State) (i : Issue) (f : Engine → Engine) : State :=
  s.modBay i.b fun x => x.modEngine i.engine fun e => f (e.settle i.t)

/-- Scale byte of block `b` of a frame's header (R489). -/
def scaleByte (f : Mem) (b : Nat) : Nat := (Mem.read f (16 + b)).toNat

/-- The field of lane `l` in lookup cycle `c` (R430). -/
def laneField (f : Mem) (mode c l : Nat) : Nat :=
  let k := 512 * c + l
  match mode with
  | 2 => threeAt f payloadBase k
  | 4 => sixAt f payloadBase k
  | _ => nibbleAt f payloadBase k

def popcount4 (n : Nat) : Nat := ((List.range 4).map fun j => if bit n j then 1 else 0).sum

/-- The term of a lane (R435). -/
def laneTerm (mode b plane : Nat) (tab : List Int) (c x : Nat) : Int :=
  match mode with
  | 2 => tab.getD (8 * c + x) 0
  | 3 => tab.getD (16 * c + x) 0
  | 4 => tab.getD (64 * c + x) 0
  | 5 => 2 * (popcount4 (15 - Nat.xor x (tab.getD c 0).toNat) : Int) - 4
  | _ =>
    let v := tab.getD (16 * c + x) 0
    if b = 1 then 2 * v - tab.getD (16 * c + 15) 0
    else if plane + 1 = b then -(v * 2 ^ plane)
    else v * 2 ^ plane

def lookupCycles (mode : Nat) : Nat := if mode = 4 then 21 else if mode = 2 then 42 else 32

/-- The additions of one lookup cycle (R433 to R435). -/
def lookupAdds (f : Mem) (mode b plane : Nat) (tab : List Int) (c : Nat) : List Int :=
  (List.range 512).map fun l =>
    match scaleShift (scaleByte f (l / 32)) with
    | none => 0
    | some s => laneTerm mode b plane tab c (laneField f mode c l) * 2 ^ s

/-- TE_BUILD (R425). -/
def opTeBuild (i : Issue) (s : State) : State :=
  let slot := i.ts 81
  let t := bits i.w 65 65
  let r := s.readSlot i slot
  let s := r.2.modEngine i fun e => e.setTreg t (buildTable (bits i.w 68 66) (bits i.w 80 69) r.1)
  s.result i (resTreg i.engine.val t) [slot] (readyAt .teBuild i.w i.t)

/-- Table entries no one can name: 16-bit values read from a free number. -/
def freeEntries (n : Nat) : List Int := (List.range 1344).map fun k => toSigned 16 (n / 2 ^ (16 * k))

/-- Base and width the escape lane latches from a table register; of one that is not ready they are unspecified (R382,
R446). -/
def State.latchOf (s : State) (i : Issue) (t : Nat) : (Nat × ActWidth) × State :=
  if s.early i.b (resTreg i.engine.val t) i.t then
    let n := s.fresh.1
    ((n / 3, if n % 3 = 0 then .int8 else if n % 3 = 1 then .int4 else .bit), s.fresh.2)
  else ((((s.engine i).treg t).base, ((s.engine i).treg t).width), s)

/-- TE_LOOKUP (R430 to R438, R446). A table of another MODE gives unspecified results (R375). -/
def opTeLookup (i : Issue) (s : State) : State :=
  let slot := i.ts 81
  let t := bits i.w 73 73
  let acc := bits i.w 72 70
  let mode := bits i.w 65 63
  let r := s.readSlot i slot
  let s := r.2
  let reg := (s.engine i).treg t
  let early := s.early i.b (resTreg i.engine.val t) i.t
  let bad := early || (reg.mode != none && reg.mode != some mode)
  let tab := if bad then freeEntries s.fresh.1 else reg.entries
  let s := if bad then s.fresh.2 else s
  let l := s.latchOf i t
  let s := l.2
  let unpack := if mode = 2 ∨ mode = 4 then 1 else 0
  let ls := (List.range (lookupCycles mode)).map fun c =>
    ({ cycle := i.t + unpack + c + 7, block := acc, clear := none,
       adds := lookupAdds r.1 mode (bits i.w 77 74) (bits i.w 80 78) tab c } : Landing)
  let s := s.modEngine i fun e => { e with landing := e.landing ++ ls, latchBase := l.1.1, latchWidth := l.1.2 }
  let res := resAcc i.engine.val acc
  s.result i res [slot, resTreg i.engine.val t, res] (readyAt .teLookup i.w i.t)

/-- TE_CLEAR (R440, R405). -/
def opTeClear (epoch : Nat) (i : Issue) (s : State) : State :=
  let mask := bits i.w 87 80
  let f := s.fresh
  let bs := (List.range 8).filter fun a => bit mask a
  let s := f.2.modEngine i fun e => { e with
    landing := e.landing ++ bs.map fun a =>
      ({ cycle := i.t + 1, block := a, clear := some (f.1 % 2 == 1), adds := [] } : Landing),
    epochTag := bs.foldl (fun t a => Tab.put t a (some epoch)) e.epochTag }
  bs.foldl (fun s a => s.result i (resAcc i.engine.val a) [] (readyAt .teClear i.w i.t)) s

/-- Nearest integer to `n / d`, ties away from zero (R475). -/
def roundInt (n : Int) (d : Nat) : Int := if n < 0 then -(roundDiv n.natAbs d : Int) else roundDiv n.natAbs d

/-- Square root of `v` by bisection, `n` bits. -/
def rootTwo (v : Nat) : Nat → Nat → Nat
  | 0, m => m
  | n + 1, m => if (m + 2 ^ n) * (m + 2 ^ n) ≤ v then rootTwo v n (m + 2 ^ n) else rootTwo v n m

/-- 2^(k / 2^S) in units of 2^(−140), by one square root a bit of k. -/
def exp2Fix (k : Nat) : Nat → Nat → Nat → Nat
  | 0, _, p => p
  | n + 1, c, p =>
    let c := rootTwo (c * 2 ^ 140) 141 0
    exp2Fix k n c (if bit k n then p * c / 2 ^ 140 else p)

/-- The greatest BF16 magnitude not above 2^(y), y = n / 2^sh (R445). -/
def exp2Down (n : Int) (sh : Nat) : Nat :=
  let e := n / (2 ^ sh : Nat)
  let k := (n % (2 ^ sh : Nat)).toNat
  let m := exp2Fix k sh (2 * 2 ^ 140) (2 ^ 140) / 2 ^ 133
  if 128 ≤ e then 0x7F7F
  else if -126 ≤ e then (e + 126).toNat * 128 + m
  else m / 2 ^ (-126 - e).toNat

/-- A BF16 within one unit in the last place of 2^y, as a free choice has it; saturates (R445). -/
def exp2Any (n : Int) (sh choice : Nat) : Nat :=
  let d := exp2Down n sh
  let l := if 128 ≤ n / (2 ^ sh : Nat) then [d] else if n % (2 ^ sh : Nat) = 0 ∧ 0 < d then [d, d + 1, d - 1] else [d, d + 1]
  min (l.getD (choice % l.length) d) 0x7F7F

/-- One rescaled value (R442, R445, R494). -/
def rescaleOne (acc : Int) (entry outfmt choice : Nat) : Nat :=
  let m := toSigned 16 entry
  let sh := bits entry 21 16
  let y0 := acc * m
  let y := if bit entry 23 ∧ y0 < 0 then 0 else y0
  match outfmt with
  | 0 => ofSigned 8 (max (-128) (min 127 (roundInt y (2 ^ sh))))
  | 1 => ofSigned 4 (max (-8) (min 7 (roundInt y (2 ^ sh))))
  | _ =>
    if bit entry 22 then exp2Any y sh choice
    else
      let v := bf16.roundDyadic y (-(sh : Int))
      if v % 0x8000 = 0x7F80 then v - 1 else v

/-- Write lane `l` of a TE_RESCALE output. -/
def rescalePut (outfmt dblk : Nat) (m : Mem) (l v : Nat) : Mem :=
  match outfmt with
  | 0 => Mem.write m (payloadBase + 512 * dblk + l) (BitVec.ofNat 8 v)
  | 1 => putField 1 (512 * dblk + l) v m payloadBase
  | _ => Mem.writeLe m (payloadBase + 1024 * dblk + 2 * l) 2 v

/-- Bytes of the frame a TE_RESCALE writes (R442). -/
def rescaleSpan (outfmt dblk : Nat) : Nat × Nat :=
  match outfmt with
  | 0 => (payloadBase + 512 * dblk, 512)
  | 1 => (payloadBase + 256 * dblk, 256)
  | _ => (payloadBase + 1024 * dblk, 1024)

/-- TE_RESCALE (R441 to R445). -/
def opTeRescale (i : Issue) (s : State) : State :=
  let acc := bits i.w 87 85
  let rs := i.ts 78
  let ds := i.ts 69
  let rsblk := bits i.w 77 76
  let outfmt := bits i.w 68 67
  let dblk := bits i.w 66 63
  let res := resAcc i.engine.val acc
  let r := s.readSlot i rs
  let s := r.2.modEngine i fun e => e
  let vals := if s.early i.b res i.t then (List.range 512).map fun l => toSigned 32 (s.fresh.1 / 2 ^ (32 * l))
    else (s.engine i).block acc
  let s := if s.early i.b res i.t then s.fresh.2 else s
  let c := s.fresh
  let f := (List.range 512).foldl (fun m l =>
    let entry := Mem.readLe r.1 (payloadBase + 4 * (512 * rsblk + l)) 4
    rescalePut outfmt dblk m l (rescaleOne (vals.getD l 0) entry outfmt (c.1 / 6 ^ l))) ((c.2.bay i.b).frame ds)
  c.2.writeSlot i ds [res, rs] (readyAt .teRescale i.w i.t) [rescaleSpan outfmt dblk] f

/-! ### The escape lane (R446 to R451, R492, R493) -/

/-- Entries of a leaf's side list that count. -/
def escCount (f : Mem) : Nat :=
  let format := (Mem.read f 1).toNat
  if format ≠ 1 ∧ format ≠ 3 ∧ format ≠ 4 ∨ format = 1 ∧ ¬ bit (Mem.read f 4).toNat 0 then 0
  else min (Mem.read f 5).toNat 32

/-- What side-list entry `n` adds: lane and product. -/
def escAdd (w a : Mem) (base : Nat) (width : ActWidth) (n : Nat) : Nat × Int :=
  let e := Mem.readLe w (128 + 4 * n) 4
  let block := bits e 31 28
  let lane := 32 * block + bits e 27 23
  let x := activation a width (base + bits e 22 16)
  match scaleShift (scaleByte w block), bf16.decode (bits e 15 0) with
  | some s, .fin neg m ex =>
    let v : Int := if neg then -(m : Int) else m
    let p := roundInt (v * x * 2 ^ s * pow2 ex) (pow2 (-ex))
    let b := (Mem.read w 2).toNat
    let c := if (Mem.read w 1).toNat = 1 then roundInt (x * 2 ^ (b + s)) 2 else 0
    (lane, p + c)
  | _, _ => (lane, 0)

/-- ESC_APPLY: 16 entries in each of its two cycles (R448, R449). `same`: the table register of a TE_LOOKUP that issues on
the engine at the same stamp, whose latch the ESC_APPLY uses (R447). -/
def opEscApply (same : Option Nat) (i : Issue) (s : State) : State :=
  let ws := i.ts 81
  let as_ := i.ts 74
  let acc := bits i.w 73 71
  let r := s.readSlot i ws
  let q := r.2.readSlot i as_
  let s := q.2
  let l := match same with
    | some t => s.latchOf i t
    | none => (((s.engine i).latchBase, (s.engine i).latchWidth), s)
  let s := l.2
  let latched := l.1
  let n := escCount r.1
  let ls := (List.range 2).map fun c =>
    let l := ((upFrom (16 * c) 16).filter fun k => k < n).map (escAdd r.1 q.1 latched.1 latched.2)
    ({ cycle := i.t + c + 9, block := acc, clear := none,
       adds := (List.range 512).map fun lane => ((l.filter fun p => p.1 == lane).map fun p => p.2).sum } : Landing)
  let s := s.modEngine i fun e => { e with landing := e.landing ++ ls }
  let res := resAcc i.engine.val acc
  s.result i res [ws, as_, res] (readyAt .escApply i.w i.t)

/-! ### The log-domain unit (R452 to R462) -/

def halfAt (f : Mem) (k : Nat) : Nat := Mem.readLe f (payloadBase + 2 * k) 2
def putHalf (f : Mem) (k v : Nat) : Mem := Mem.writeLe f (payloadBase + 2 * k) 2 v

/-- A log-domain operation element by element. -/
def lnsMap (i : Issue) (kind : Kind) (two : Bool) (g : Nat → Nat → Nat) (s : State) : State :=
  let sa := i.ts 81
  let sb := i.ts 74
  let ds := i.ts 67
  let a := s.readSlot i sa
  let b := if two then a.2.readSlot i sb else ([], a.2)
  let f := (List.range 4096).foldl (fun m k => putHalf m k (g (halfAt a.1 k) (halfAt b.1 k))) ((b.2.bay i.b).frame ds)
  b.2.writeSlot i ds (if two then [sa, sb] else [sa]) (readyAt kind i.w i.t) [(payloadBase, 8192)] f

def opLnsMul (i : Issue) (s : State) : State := lnsMap i .lnsMul true lnsMul s
def opLnsAdd (i : Issue) (s : State) : State := lnsMap i .lnsAdd true lnsAdd s
def opLnsFromlin (i : Issue) (s : State) : State := lnsMap i .lnsFromlin false (fun x _ => lnsFromLin x) s
def opLnsTolin (i : Issue) (s : State) : State := lnsMap i .lnsTolin false (fun x _ => lnsToLin x) s

/-- L negated, the sign kept; of a zero sum 0x3FFF (R455, R456). -/
def lnsRecip (v : Nat) : Nat :=
  match lnsL v with
  | none => 0x3FFF
  | some l => lnsMake (lnsNeg v) (-l)

/-- LNS_REDUCE: the sums of 256 groups of 16 and their reciprocals (R455). -/
def opLnsReduce (i : Issue) (s : State) : State :=
  let sa := i.ts 81
  let ds := i.ts 67
  let a := s.readSlot i sa
  let f := (List.range 256).foldl (fun m g =>
    let v := (List.range 15).foldl (fun v j => lnsAdd v (halfAt a.1 (16 * g + j + 1))) (halfAt a.1 (16 * g))
    putHalf (putHalf m g v) (256 + g) (lnsRecip v)) ((a.2.bay i.b).frame ds)
  a.2.writeSlot i ds [sa] (readyAt .lnsReduce i.w i.t) [(payloadBase, 1024)] f

/-! ### The reference unit (R464 to R471) -/

def refFmt (v : Nat) : FloatFmt := if v = 0 then bf16 else fp16

/-- REF_FMA (R464 to R466). -/
def opRefFma (i : Issue) (s : State) : State :=
  let sa := i.ts 81
  let sb := i.ts 74
  let fmt := refFmt (bits i.w 73 73)
  let r := bits i.w 72 70
  let clr := bit i.w 69
  let res := resRacc r
  let a := s.readSlot i sa
  let b := a.2.readSlot i sb
  let s := b.2
  let early := !clr && s.early i.b res i.t
  let old := fun l => if clr then 0 else if early then s.fresh.1 / 2 ^ (32 * l) % 2 ^ 32 else Tab.get (s.bay i.b).racc 0 (64 * r + l)
  let new := (List.range 64).map fun l => (List.range 64).foldl
    (fun acc c => fma32 (fmt.decode (halfAt a.1 (64 * c + l))) (fmt.decode (halfAt b.1 c)) acc) (old l)
  let s := if early then s.fresh.2 else s
  let s := s.modBay i.b fun x => { x with
    racc := ((List.range 64).zip new).foldl (fun t p => Tab.set t 0 (64 * r + p.1) p.2) x.racc }
  s.result i res (if clr then [sa, sb] else [sa, sb, res]) (readyAt .refFma i.w i.t)

/-- REF_CAST (R467). -/
def opRefCast (i : Issue) (s : State) : State :=
  let r := bits i.w 87 85
  let ds := i.ts 78
  let fmt := refFmt (bits i.w 77 77)
  let res := resRacc r
  let early := s.early i.b res i.t
  let v := fun l => if early then s.fresh.1 / 2 ^ (32 * l) % 2 ^ 32 else Tab.get (s.bay i.b).racc 0 (64 * r + l)
  let f := (List.range 64).foldl (fun m l => putHalf m l (fmt.encode (fp32.decode (v l)))) ((s.bay i.b).frame ds)
  (if early then s.fresh.2 else s).writeSlot i ds [res] (readyAt .refCast i.w i.t)
    [(payloadBase, 128)] f

/-- Score `a` ranks above score `b` (R469). -/
def ranksAbove (a b : Num) : Bool :=
  match a, b with
  | .nan, _ => false
  | _, .nan => true
  | .inf n, .inf m => !n && m
  | .inf n, _ => !n
  | _, .inf m => m
  | .fin _ _ _, .fin _ _ _ => dyLt b.sig b.exp a.sig a.exp

/-- The indices of the `k` largest scores, in descending score, equal scores by index. -/
def topIndices (score : Nat → Num) : Nat → List Nat → List Nat
  | 0, _ => []
  | k + 1, l =>
    match l.foldl (fun (o : Option Nat) j => match o with
        | none => some j
        | some m => if ranksAbove (score j) (score m) then some j else some m) none with
    | none => []
    | some m => m :: topIndices score k (l.filter fun j => j != m)

/-- REF_TOPK (R468 to R470, R379). -/
def opRefTopk (i : Issue) (s : State) : State :=
  let sa := i.ts 81
  let k := bits i.w 80 77
  let ps := i.ts 70
  let pen := bit i.w 69
  let a := s.readSlot i sa
  let p := if pen then a.2.readSlot i ps else ([], a.2)
  let top := topIndices (fun j => bf16.decode (halfAt a.1 j)) k (List.range 64)
  let ready := readyAt .refTopk i.w i.t
  let reads := if pen then [sa, ps] else [sa]
  let s := p.2.modBay i.b fun x => x.settleDregs i.t
  let s := (List.range 8).foldl (fun s j => s.writeDreg i (resRefDreg j) (top.getD j 0xFFFFFFFF) reads ready) s
  if pen then
    let pred := (List.range k).map (halfAt p.1)
    let same := top.all (fun x => pred.contains x) && pred.all fun x => top.contains x
    s.writeDreg i (resRefDreg 8) (if same then 0 else 1) reads ready
  else s

/-! ### The converter (R496 to R522) -/

def State.statSet (s : State) (i : Issue) (n : Fin 4) : StatSet := (s.bay i.b).sets.get n

def u32Add (a b : Nat) : Nat := min (a + b) 0xFFFFFFFF

/-- Magnitude encoding of an FP32. -/
def absEnc (v : Nat) : Nat := v % 2 ^ 31

/-- A finite BF16 as an FP32 magnitude. -/
def bfMag (v : Nat) : Nat := v % 2 ^ 15 * 2 ^ 16

def StatSet.block (k : Nat) : Nat := k % 512 / 32

def StatSet.mx (x : StatSet) (b : Nat) : Nat := Tab.get x.max 0 b

/-- A finite element raises its block's MAX and ALLMAX; FP32 magnitudes order as their encodings do (R502, R513). -/
def StatSet.raise (x : StatSet) (b v : Nat) : StatSet :=
  { x with max := Tab.set x.max 0 b (Nat.max (x.mx b) v), allMax := Nat.max x.allMax v }

/-- MAX is cleared where R503 says. -/
def StatSet.clearMax (x : StatSet) : StatSet := if x.lastOp = .conversion then { x with max := [] } else x

/-- CONV_PASS1 (R502, R503). -/
def opConvPass1 (i : Issue) (s : State) : State :=
  let sa := i.ts 81
  let n := i.set 79
  let a := s.readSlot i sa
  let x := (List.range 4096).foldl (fun (x : StatSet) k =>
    let v := halfAt a.1 k
    match bf16.decode v with
    | .fin _ m e =>
      let y := x.raise (StatSet.block k) (bfMag v)
      { y with count1 := u32Add y.count1 1, sumSq := addDyadic32 y.sumSq ((m * m : Nat) : Int) (2 * e) }
    | _ => { x with nonfinite := u32Add x.nonfinite 1 }) ((a.2.statSet i n).clearMax)
  let s := a.2.modBay i.b fun y => { y with sets := y.sets.set n.val { x with lastOp := .pass1 } n.isLt }
  s.result i (resSet n.val) [sa, resSet n.val] 0

/-- Signed byte BEXP of a header (R489). -/
def bexpOf (f : Mem) : Int := toSigned 8 (Mem.read f 6).toNat

/-- A conversion in progress: the set, the DS frame, blocks flagged and saturations met in this operation. -/
structure Conv where
  set : StatSet
  ds : Mem
  flags : Nat
  sats : Nat
  deriving DecidableEq, Repr

def setBit (v b : Nat) : Nat := if bit v b then v else v + 2 ^ b
def clearBit (v b : Nat) : Nat := if bit v b then v - 2 ^ b else v

/-- A block is flagged for rescue: RESCUE_MAP, and RESCUE the first time in the leaf (R516). -/
def Conv.flag (c : Conv) (b : Nat) : Conv :=
  { c with
    flags := setBit c.flags b,
    ds := Mem.writeLe c.ds 32 2 (setBit (Mem.readLe c.ds 32 2) b),
    set := { c.set with
      flagged := setBit c.set.flagged b,
      rescue := if bit c.set.flagged b then c.set.rescue else u32Add c.set.rescue 1 } }

def Conv.sat (c : Conv) : Conv := { c with sats := c.sats + 1, set := { c.set with sat := u32Add c.set.sat 1 } }

/-- The squared error of a finite element written as `lv · 2^sc` joins ACH_SUM (R510). -/
def Conv.err (c : Conv) (sig e lv sc : Int) : Conv :=
  let d := dyAdd sig e (-lv) sc
  let sq := fp32.roundMag (d.1.natAbs * d.1.natAbs * pow2 (2 * d.2)) (pow2 (-(2 * d.2)))
  let add := match fp32.decode sq with
    | .fin _ m x => addDyadic32 c.set.achSum (m : Int) x
    | _ => fp32.infEnc
  { c with set := { c.set with achSum := add, count2 := u32Add c.set.count2 1 } }

/-- Write field `p` with a code. -/
def Conv.put (c : Conv) (fmt p code : Nat) : Conv := { c with ds := putField fmt p code c.ds payloadBase }

/-- One element of a conversion (R498, R499, R506 to R511). -/
def convElement (fmt : Nat) (raise : Bool) (c : Conv) (k v : Nat) : Conv :=
  let p := c.set.pos + k
  if fmtCapacity fmt ≤ p then c
  else
    let b := StatSet.block k
    let scale := Tab.get c.set.scale 0 b
    let isG := fmt = 3 ∨ fmt = 4
    match bf16.decode v with
    | .nan => { c.put fmt p 0 with set := { c.set with nonfinite := u32Add c.set.nonfinite 1 } }
    | .inf neg =>
      let c := { c with set := { c.set with nonfinite := u32Add c.set.nonfinite 1 } }
      (c.put fmt p (if scaleShift scale = none then 0 else (convLimit fmt neg).1)).sat
    | .fin neg m e =>
      let c := if raise then { c with set := c.set.raise b (bfMag v) } else { c with set := { c.set with
        allMax := Nat.max c.set.allMax (bfMag v) } }
      let sig : Int := if neg then -(m : Int) else m
      match scaleShift scale with
      | none =>
        let c := (c.put fmt p 0).err sig e 0 0
        if m = 0 then c else c.sat
      | some sh =>
        let sc : Int := c.set.bexp + (sh : Int)
        if dyLt ((fmtLmax fmt : Nat) : Int) sc (m : Int) e then
          let n := (Mem.read c.ds 5).toNat
          if isG ∧ n < 32 then
            let entry := b * 2 ^ 28 + (k % 32) * 2 ^ 23 + (p / 512) * 2 ^ 16 + v
            let ds := Mem.writeLe (Mem.write c.ds 5 (BitVec.ofNat 8 (n + 1))) (128 + 4 * n) 4 entry
            let c := { c with ds := ds, set := { c.set with
              escapes := u32Add c.set.escapes 1, count2 := u32Add c.set.count2 1 } }
            c.put fmt p (if fmt = 3 then 8 else 32)
          else
            let l := convLimit fmt neg
            let c := ((c.put fmt p l.1).err sig e l.2 sc).sat
            if isG then c.flag b else c
        else
          let r := convCode fmt neg (m * pow2 (e - sc)) (pow2 (sc - e))
          (c.put fmt p r.1).err sig e r.2 sc

/-- PRED_SUM of every format grows by a leaf's prediction (R521). K_f = num / den. -/
def predConsts : List (Nat × Nat) := [(1, 12), (1, 12), (10144, 84), (2587, 84), (817, 372)]

def StatSet.predict (x : StatSet) (n : Nat) : StatSet :=
  { x with pred := (List.range 5).foldl (fun t f =>
      let k := predConsts.getD f (0, 1)
      let sum := ((List.range 16).map fun b => if x.mx b = 0 then 0 else 4 ^ freshScale f x.bexp (x.mx b)).sum
      let num := k.1 * n * sum * pow2 (2 * x.bexp)
      let den := k.2 * 16 * pow2 (-(2 * x.bexp))
      Tab.set t 0 f (addRat32 (Tab.get t 0 f) num den)) x.pred }

/-- The header a conversion at POS 0 writes (R505, R513); BEXP and LEAF_ID stay, reserved bytes are zero (R12). -/
def convHeader (fmt lflags rescueMap : Nat) (scale : Tab Nat) (ds : Mem) : Mem :=
  let m := Mem.writeL ds 0 [1, BitVec.ofNat 8 (fmtFormat fmt), 0, 0, BitVec.ofNat 8 lflags, 0]
  let m := (List.range 16).foldl (fun m b => Mem.write m (16 + b) (BitVec.ofNat 8 (Tab.get scale 0 b))) (Mem.write m 7 0)
  Mem.writeLe (Mem.clear m 32 224) 32 2 rescueMap

/-- A scale byte as it is latched: 0x80, or its shift (R487, R488; log entry 97). -/
def scaleNorm (v : Nat) : Nat := if bit v 7 then 0x80 else v % 16

/-- Bits of a field of a converter output (R430, R425). -/
def fmtBits (fmt : Nat) : Nat := [8, 4, 3, 4, 6].getD fmt 8

/-- Bytes of the DS frame an operation that found `x` and `ds` and left `c` has written. -/
def convSpans (fmt : Nat) (x : StatSet) (ds : Mem) (c : Conv) : List (Nat × Nat) :=
  let n := min 4096 (fmtCapacity fmt - x.pos)
  let lo := fmtBits fmt * x.pos / 8
  let e0 := (Mem.read ds 5).toNat
  let e1 := (Mem.read c.ds 5).toNat
  (if n = 0 then [] else [(payloadBase + lo, ceilDiv (fmtBits fmt * (x.pos + n)) 8 - lo)]) ++
    (if x.pos = 0 then [(0, 6), (7, 1), (16, 240)]
      else (if e0 < e1 then [(5, 1), (128 + 4 * e0, 4 * (e1 - e0))] else []) ++ if c.flags = 0 then [] else [(32, 2)])

/-- Latched scales; 0x80 is kept as a listed value. -/
def latch (g : Nat → Nat) : Tab Nat := (List.range 16).foldl (fun t b => Tab.set t 0 b (g b)) []

/-- The operation ends: POS moves on; at the capacity the leaf is complete and its prediction is added (R500, R521). -/
def StatSet.advance (x : StatSet) (fmt : Nat) : StatSet × Bool :=
  let p := x.pos + 4096
  let n := x.written + min 4096 (fmtCapacity fmt - x.pos)
  if fmtCapacity fmt ≤ p then ({ x.predict n with pos := 0, lastOp := .conversion, written := 0 }, true)
  else ({ x with pos := p, lastOp := .conversion, written := n }, false)

/-- Store a conversion's set, frame and decision registers; DS is read too: its header's BEXP, count and map (R527). -/
def convFinish (i : Issue) (n : Fin 4) (kind : Kind) (ds : Nat) (reads : List Nat) (spans : List (Nat × Nat)) (c : Conv)
    (x : StatSet) (s : State) : State :=
  let ready := readyAt kind i.w i.t
  let reads := ds :: reads
  let s := s.modBay i.b fun y => { y.settleDregs i.t with sets := y.sets.set n.val x n.isLt }
  let s := s.writeDreg i (resConvDreg 0) (if c.flags = 0 then 0 else 1) (resSet n.val :: reads) ready
  let s := s.writeDreg i (resConvDreg 1) (if c.sats = 0 then 0 else 1) (resSet n.val :: reads) ready
  let t := reads.foldl (fun t r => t ||| (s.bay i.b).tag r) (i.scope ||| (s.bay i.b).tag (resSet n.val))
  let s := s.writeSlot i ds (resSet n.val :: reads) ready spans c.ds
  s.modBay i.b fun y => y.setTag (resSet n.val) t

/-- CONV_PASS2 (R505 to R511). -/
def opConvPass2 (i : Issue) (s : State) : State :=
  let sa := i.ts 81
  let n := i.set 79
  let ds := i.ts 72
  let fmt := bits i.w 71 69
  let a := s.readSlot i sa
  let x := a.2.statSet i n
  let hd := if x.pos = 0 then a.2.readSlot i ds else ([], a.2)
  let s := hd.2
  let d := (s.bay i.b).frame ds
  let c : Conv :=
    if x.pos = 0 then
      let scale := latch fun b => freshScale fmt (bexpOf hd.1) (x.mx b)
      { set := { x with scale := scale, bexp := bexpOf hd.1, flagged := 0, written := 0 }, ds := convHeader fmt 0 0 scale d, flags := 0, sats := 0 }
    else { set := x, ds := d, flags := 0, sats := 0 }
  let c := (List.range 4096).foldl (fun c k => convElement fmt false c k (halfAt a.1 k)) c
  convFinish i n .convPass2 ds [sa] (convSpans fmt x d c) c (c.set.advance fmt).1 s

/-- Compare MAX with Lmax · 2^(BEXP + s + d). -/
def mxAbove (x : StatSet) (fmt b : Nat) (sh : Int) : Bool :=
  match fp32.decode (x.mx b) with
  | .fin _ m e => dyLt ((fmtLmax fmt : Nat) : Int) (x.bexp + sh) (m : Int) e
  | _ => true

/-- MAX lies below Lmax · 2^(BEXP + sh). -/
def mxBelow (x : StatSet) (fmt b : Nat) (sh : Int) : Bool :=
  match fp32.decode (x.mx b) with
  | .fin _ m e => dyLt (m : Int) e ((fmtLmax fmt : Nat) : Int) (x.bexp + sh)
  | _ => false

/-- The judgement of one block at leaf completion: next scale, and whether it is hot or under (R517). -/
def judge (x : StatSet) (fmt b : Nat) : Nat × Bool × Bool :=
  let m := x.mx b
  if m = 0 then (0x80, false, true)
  else
    match scaleShift (Tab.get x.scale 0 b) with
    | none => (freshScale fmt x.bexp m, true, false)
    | some sh =>
      if mxAbove x fmt b (sh + 1) then (freshScale fmt x.bexp m, true, false)
      else if mxAbove x fmt b sh then (min (sh + 1) 15, false, false)
      else if mxBelow x fmt b ((sh : Int) - 4) then (sh - 1, false, true)
      else (sh, false, false)

/-- The SCSLOT header and the set after every block of a completed leaf is judged. -/
def judgeAll (x : StatSet) (fmt : Nat) (sc : Mem) : StatSet × Mem :=
  (List.range 16).foldl (fun p b =>
    let j := judge p.1 fmt b
    let m := Mem.write p.2 (16 + b) (BitVec.ofNat 8 j.1)
    let h := Mem.readLe m 34 2
    ({ p.1 with
        hot := if j.2.1 then u32Add p.1.hot 1 else p.1.hot,
        under := if j.2.2 then u32Add p.1.under 1 else p.1.under },
      Mem.writeLe m 34 2 (if j.2.1 then setBit h b else clearBit h b))) (x, sc)

/-- CONV_CARRY (R512 to R519). R374 gives it no STATS operand: the set it works on is open (log entry 16). -/
def opConvCarry (i : Issue) (s : State) : State :=
  let sa := i.ts 81
  let scs := i.ts 74
  let ds := i.ts 67
  let fmt := bits i.w 66 64
  let rescue := bit i.w 63
  let n : Fin 4 := Fin.ofNat 4 (Config.carrySet scs)
  let a := s.readSlot i sa
  let x0 := (a.2.statSet i n)
  let h := if x0.pos = 0 then a.2.readSlot i scs else ((a.2.bay i.b).frame scs, a.2)
  let hd := if x0.pos = 0 then h.2.readSlot i ds else ([], h.2)
  let s := hd.2
  let d := (s.bay i.b).frame ds
  let x := if x0.pos = 0 then x0.clearMax else x0
  let map := Mem.readLe h.1 32 2
  let freshB := fun b => rescue && bit map b
  let c : Conv :=
    if x.pos = 0 then
      let scale := latch fun b => if freshB b then freshScale fmt (bexpOf hd.1) (x.mx b) else scaleNorm (scaleByte h.1 b)
      let cnt := ((List.range 16).filter freshB).length
      let kept := (List.range 16).foldl (fun m b => if freshB b then clearBit m b else m) map
      { set := { x with scale := scale, bexp := bexpOf hd.1, flagged := 0, written := 0, rescued := u32Add x.rescued cnt },
        ds := convHeader fmt (2 + if cnt = 0 then 0 else 4) kept scale d, flags := 0, sats := 0 }
    else { set := x, ds := d, flags := 0, sats := 0 }
  let sc0 := (s.bay i.b).frame scs
  let sc1 := if x.pos = 0 then
      Mem.writeLe sc0 32 2 ((List.range 16).foldl (fun m b => if freshB b then clearBit m b else m) (Mem.readLe sc0 32 2))
    else sc0
  let c := (List.range 4096).foldl (fun c k => convElement fmt true c k (halfAt a.1 k)) c
  let sc2 := Mem.writeLe sc1 32 2 ((List.range 16).foldl (fun m b => if bit c.flags b then setBit m b else m)
    (Mem.readLe sc1 32 2))
  let r := c.set.advance fmt
  let j := if r.2 then judgeAll r.1 fmt sc2 else (r.1, sc2)
  let ready := readyAt .convCarry i.w i.t
  let tag := [sa, scs, ds, resSet n.val].foldl (fun t r => t ||| (s.bay i.b).tag r) i.scope
  let s := convFinish i n .convCarry ds [sa, scs] (convSpans fmt x d c) c j.1 s
  if r.2 then (s.writeSlot i scs [] ready [(16, 20)] j.2).modBay i.b fun y => y.setTag scs tag
  else if c.flags ≠ 0 ∨ (x.pos = 0 ∧ (List.range 16).any freshB) then
    (s.writeSlot i scs [] ready [(32, 2)] j.2).modBay i.b fun y => y.setTag scs tag
  else s

/-- The statistics record (R520). -/
def statRecord (x : StatSet) : List Byte :=
  natLe 4 x.count1 ++ natLe 4 x.count2 ++ natLe 4 x.sumSq ++ natLe 4 x.achSum ++ natLe 4 (divCount32 x.achSum x.count2) ++
    ((List.range 5).flatMap fun f => natLe 4 (divCount32 (Tab.get x.pred 0 f) x.count2)) ++
    natLe 4 x.sat ++ natLe 4 x.escapes ++ natLe 4 x.hot ++ natLe 4 x.rescue ++ natLe 4 x.under ++ natLe 4 x.rescued ++
    natLe 4 x.nonfinite ++ natLe 4 x.allMax ++ List.replicate 56 0 ++ (List.range 16).flatMap fun b => natLe 4 (x.mx b)

/-- CONV_STATS (R520 to R522). -/
def opConvStats (i : Issue) (s : State) : State :=
  let n := i.set 86
  let ds := i.ts 79
  let x := s.statSet i n
  let x := if x.pos = 0 then x else x.predict x.written
  let d := (s.bay i.b).frame ds
  let id := Mem.readN d 8 8
  let m := Mem.writeL (Mem.writeL (Mem.clear d 0 256) 0 [2, 0x0D]) 8 id
  let m := Mem.writeL m payloadBase (statRecord x)
  let s := s.writeSlot i ds [resSet n.val] (readyAt .convStats i.w i.t) [(0, 8), (16, 432)] m
  let s := s.modBay i.b fun y => { y with sets := y.sets.set n.val StatSet.reset n.isLt }
  s.result i (resSet n.val) [] 0

end Sys2Proof.Machine
end

