-- ==== Sys2Proof/Machine/Due.lean ====
section
/-! DEFINITION. Where the bays of a run stand (08): the entry a bay issues next and its stamp, the entries that fall due
together, and the way on through arms and loops. -/

namespace Sys2Proof.Machine

/-- An entry due in a bay: its place, bits and stamp. -/
structure Due where
  q : QNum
  run : Run
  b : BayNum
  /-- index in the bay stream, and in the imposition -/
  pc : Nat
  idx : Nat
  w : Nat
  t : Nat
  deriving DecidableEq, Repr

/-- What an entry is; a leaf lost from the imposition reads as zeros, and a bay issues END for a zeroed entry (R764,
log entry 17). -/
def entryKind (w : Nat) : Option Kind := if w = 0 then some .endStream else kindOf w

/-- Position of a bay among the bays of a run. -/
def Run.rel (r : Run) (b : BayNum) : Nat := (r.bays.takeWhile fun x => x != b).length

/-- The entry a bay of a run issues next. -/
def State.nextEntry (s : State) (q : QNum) (r : Run) (b : BayNum) : Option Due :=
  let x := (s.bay b).seq
  if x.ended then none
  else
    let idx := r.hdr.start (r.rel b) + x.pc
    match r.entries[idx]? with
    | some w => some { q := q, run := r, b := b, pc := x.pc, idx := idx, w := w.toNat, t := x.stamp + x.gap + Ent.delta w.toNat }
    | none => none

/-- Among entries of one stamp, scopes open first and close last: each in all its bays (log entry 18). -/
def Due.rank (d : Due) : Nat :=
  match entryKind d.w with
  | some .specBegin => 0
  | some .specCommit => 2
  | some .specCancel => 2
  | _ => 1

def Due.before (a b : Due) : Bool := decide (a.t < b.t ∨ (a.t = b.t ∧ (a.rank < b.rank ∨ (a.rank = b.rank ∧ a.b < b.b))))

/-- The entry of a run that issues next: the lowest stamp, then rank, then bay. -/
def State.runNext (s : State) (q : QNum) (r : Run) : Option Due :=
  (r.bays.filterMap fun b => s.nextEntry q r b).foldl (fun o d =>
    match o with
    | none => some d
    | some e => if d.before e then some d else some e) none

/-- Elapsed cycle of an entry's stamp (R387). -/
def Due.elapsed (d : Due) : Nat := d.t + d.run.slipCycles

/-- Within the hard bound (R399). -/
def Due.inBound (d : Due) (extra : Nat) : Bool := d.run.hdr.hardBound == 0 || decide (d.elapsed + extra ≤ d.run.hdr.hardBound)

/-! ### The way on -/

/-- Continue at entry `n`; an arm whose last entry has run continues at its JOIN (R396). -/
def armsGoto : List (Nat × Nat) → Nat → List (Nat × Nat) × Nat
  | [], n => ([], n)
  | a :: t, n => if n = a.1 then armsGoto t a.2 else (a :: t, n)

/-- A bay that stands outside a loop's body reads iteration 0; an arm belongs to the body it joins (R402). -/
def LoopLevel.seenAt (l : LoopLevel) (pc : Nat) (arms : List (Nat × Nat)) : LoopLevel :=
  if decide (l.lo ≤ pc ∧ pc ≤ l.hi) || arms.any fun a => decide (l.lo ≤ a.2 ∧ a.2 ≤ l.hi) then l else { l with iteration := 0 }

/-- The sequencer stands at entry `n`, in the arms `arms`. -/
def Seq.stand (x : Seq) (arms : List (Nat × Nat)) (n : Nat) : Seq :=
  { x with arms := arms, pc := n, loops := x.loops.map fun l => l.seenAt n arms }

def Seq.goto (x : Seq) (n : Nat) : Seq := x.stand (armsGoto x.arms n).1 (armsGoto x.arms n).2

/-- The entries behind `d` in its stream that share its stamp, up to the first that may hold, repeat, fork or end it. -/
def Due.follow : Nat → List (Nat × Nat) → Due → List Due
  | 0, _, _ => []
  | n + 1, arms, d =>
    d :: match entryKind d.w with
      | none => []
      | some .endStream => []
      | some .fork => []
      | some .loop => []
      | some .idle => []
      | some .waitStitch => []
      | some _ =>
        let g := armsGoto arms (d.pc + 1)
        let idx := d.idx + g.2 - d.pc
        match d.run.entries[idx]? with
        | some w => if Ent.delta w.toNat = 0 then Due.follow n g.1 { d with pc := g.2, idx := idx, w := w.toNat } else []
        | none => []

/-- The entries of a run that fall due together with `d`: at most four of a bay (R385). -/
def State.together (s : State) (d : Due) : List Due :=
  d.run.bays.flatMap fun b =>
    match s.nextEntry d.q d.run b with
    | some e => if e.t = d.t then e.follow 4 (s.bay b).seq.arms else []
    | none => []

/-- Greatest stamp a bay of the run has issued. -/
def State.lastStamp (s : State) (r : Run) : Nat := r.bays.foldl (fun m b => max m (s.bay b).seq.stamp) 0

/-- A wait of the run whose timeout runs out before elapsed cycle `e` and has not been acted on (R339, R387). -/
def State.overdue (s : State) (r : Run) (e : Nat) : Bool :=
  r.bays.any fun b => match (s.bay b).seq.wait with
    | some w => (match w.timeout with | some k => decide (w.start + k < e) | none => false)
    | none => false

end Sys2Proof.Machine
end

