-- ==== Sys2Proof/Machine/Queues.lean ====
section
/-! DEFINITION. Quires as masters on the link (06): completions, freezing, waking and releasing, doorbells, the
submission entries that need no tier or imposition, and the comparison stage with the waits it ends (07). -/

namespace Sys2Proof.Machine

/-! ### Submission entry fields (R273, R274) -/

def Entry.opcode (e : Entry) : Nat := fieldLe e.bytes 0 1
def Entry.flags (e : Entry) : Nat := fieldLe e.bytes 1 1
def Entry.cid (e : Entry) : Nat := fieldLe e.bytes 2 2
def Entry.doneStitch (e : Entry) : Nat := fieldLe e.bytes 4 2

/-! ### Completions -/

def ringBytes : Nat := 0x200000

/-- Host-ring and device-ring base encoding (R288): LOC and the address or offset. -/
def ringLoc (base : Nat) : Nat := base % 2
def ringAddr (base : Nat) : Nat := base / 64 * 64

/-- The 16 bytes of a completion entry (R277). -/
def completionBytes (c : Completion) (phase : Bool) : List Byte :=
  natLe 2 c.cid ++ natLe 2 (c.sqInfo + if phase then 2 ^ 15 else 0) ++ natLe 1 c.status ++ natLe 1 c.detail ++
    natLe 2 0 ++ natLe 8 c.result

/-- Write one completion entry at CQ_TAIL, with the quire's PASID in host memory (R260), then signal DONE_STITCH and send
the MSI-X message (R269, R272, R284, R333). A stitch made speculative since the fetch takes no signal (R354). -/
def State.writeCq (s : State) (q : QNum) (c : Completion) : State :=
  let x := s.quire q
  let size := s.rd (Key.qCqSize q)
  let base := s.rd (Key.qCqBase q)
  let slot := x.cqTail
  let bytes := completionBytes c x.phase
  let tail := (slot + 1) % size
  let s := s.setQuire q { x with
    cqTail := tail, phase := if tail = 0 then !x.phase else x.phase, ctrCompleted := x.ctrCompleted + 1 }
  let s :=
    if ringLoc base = 1 then
      s.setTiers { s.tiers with rings := Mem.writeL s.tiers.rings (q.val * ringBytes + ringAddr base + 16 * slot) bytes }
    else s
  let s := s.emit (.completion q (if ringLoc base = 0 then some (s.rd (Key.qPasid q)) else none) slot bytes)
  let s := if bit c.flags 1 ∧ s.ownsStitch q c.doneStitch ∧ ¬ (s.stitch c.doneStitch).spec then s.signal c.doneStitch 1 else s
  if bit c.flags 0 then s.msixSend (8 * q.val + bits c.flags 6 4) else s

def State.cqFull (s : State) (q : QNum) : Bool :=
  let x := s.quire q
  (x.cqTail + 1) % s.rd (Key.qCqSize q) == x.cqHead

/-- An entry completes: its completion is written, or held while the ring is full (R271); a frozen or resetting quire
writes none (R296, R304). -/
def State.complete (s : State) (q : QNum) (e : Entry) (status : Nat) (detail result : Nat := 0) : State :=
  let x := s.quire q
  if x.state = .frozen ∨ x.state = .resetting then s
  else
    let c : Completion :=
      { cid := e.cid, sqInfo := e.headAfter % 4096 + 4096 * e.ring.val, status := status, detail := detail,
        result := result, flags := e.flags, doneStitch := e.doneStitch }
    if s.cqFull q ∨ x.heldCq ≠ [] then
      s.setQuire q { x with
        heldCq := x.heldCq ++ [c],
        ctrCqFull := if x.ctrCqFull = 0xFFFFFFFF then x.ctrCqFull else x.ctrCqFull + 1 }
    else s.writeCq q c

/-- Held completions are written while the ring has space (R271). -/
def State.flushCq (s : State) (q : QNum) : List Completion → State
  | [] => s.modQuire q fun x => { x with heldCq := [] }
  | c :: cs =>
    if s.cqFull q then s.modQuire q fun x => { x with heldCq := c :: cs }
    else (s.writeCq q c).flushCq q cs

/-! ### WAKE, REFUSE, RELEASE -/

/-- The quire holds a GRANT. -/
def Quire.granted (x : Quire) : Bool := x.pwr == .wake && !x.wakePending

def Quire.ringsEmpty (x : Quire) : Bool := x.rings.toList.all fun r => r.head == r.tail && r.fetched.isEmpty

def Quire.pendingWork (x : Quire) : Bool := x.rings.toList.any fun r => r.head != r.tail || !r.fetched.isEmpty

def Work.isStitchWait : Work → Bool
  | .stitchWait _ => true
  | _ => false

/-- RELEASE: sent when the rings are empty and the last imposition has reached END, never while a STITCH_WAIT is held
(R31, R345); the bays are clock-gated (R836). -/
def State.tryRelease (s : State) (q : QNum) : State :=
  let x := s.quire q
  if x.granted ∧ x.state ≠ .frozen ∧ x.state ≠ .resetting ∧ x.ringsEmpty ∧ x.runs = [] ∧
      ¬ x.started.any (fun w => w.work.isStitchWait) then
    (s.setQuire q { x with pwr := .release }).gateBays q
  else s

/-- The last started entry has completed: RUNNING becomes ENABLED (R286). -/
def State.settleQuire (s : State) (q : QNum) : State :=
  let x := s.quire q
  (if x.state = .running ∧ x.started = [] then s.setQuire q { x with state := .enabled } else s).tryRelease q

/-- A started entry completes and leaves the started set. -/
def State.finish (s : State) (q : QNum) (e : Entry) (status : Nat) (detail result : Nat := 0) : State :=
  ((s.modQuire q fun x => { x with started := x.started.filter fun w => w.entry.seq != e.seq }).complete
    q e status detail result).settleQuire q

/-- The quire owns bays, and they are granted and run. -/
def State.served (s : State) (q : QNum) : Bool :=
  (s.quire q).granted && !(s.quireBays q).isEmpty && (s.quireBays q).all fun b => (s.bay b).power == .running

/-- The bays of a quire are not granted and running; a quire without bays has none (R219). -/
def State.baysGated (s : State) (q : QNum) : Bool := !s.served q

/-- WAKE: asked when pending work finds the quire's bays gated; refused by R43, held during a switch (R214). -/
def State.sendWake (s : State) (q : QNum) : State :=
  let x := s.quire q
  let s := s.count (Key.qWakes q)
  if s.switch.isSome then
    s.setQuire q { x with pwr := .wake, wakePending := true, state := .waking }
  else if s.refusesWake q then
    (s.setQuire q { x with
      pwr := .refused, wakePending := false,
      state := if x.started = [] then .enabled else .running }).count (Key.qWakesRefused q)
  else (s.setQuire q { x with pwr := .wake, wakePending := true, state := .waking }).powerBays q

/-- Pending work of an enabled quire asks for its bays (R43). -/
def State.wakeIfNeeded (s : State) (q : QNum) : State :=
  let x := s.quire q
  if (x.state = .enabled ∨ x.state = .running) ∧ x.pendingWork ∧ ¬ x.wakePending ∧ s.baysGated q then s.sendWake q else s

/-- The PLLs of a waking device start, and pending work asks for its bays (R89, R90). -/
def State.startPlls (s : State) : State :=
  (s.setClk { s.clk with nvPll := true, lpddrPll := true }).forQ State.wakeIfNeeded

/-- The sentinel is bound by the loaded profile (R795). -/
def State.sentBound (s : State) : Bool := s.rdB (Key.profSentinelBind s.part)

def State.sentHeld (s : State) : Bool := (s.quire 7).state == .frozen || (s.quire 7).state == .resetting

/-- Listening starts when everything allows it: history, counts and filters fresh, PDM_CLK settling (R99, R831). -/
def State.tryListen (s : State) : State :=
  let powered : Bool := match s.power with
    | .sSent => true
    | .sIdle => true
    | .sRun => true
    | _ => false
  if s.rd Key.sentState = 1 ∧ s.rdB Key.sentEnable ∧ s.sentBound ∧ ¬ s.sentHeld ∧ powered ∧ s.up then
    (s.setSent { s.sent with
      biquad := [], pdm0 := [], pdm1 := [], history := [], frame := 0, holdClass := 0, holdCount := 0, sinceDetect := none,
      detect := none, settling := true, stopAtEnd := false }).wr Key.sentState 2
  else s

/-- A wake demand abandons a sleep entry that has not reached its commit point (R857): REASON, QUIRE and the entry
time, which the model leaves free. The sentinel listens on (R794). -/
def State.abandonEntry (s : State) (reason quireNo : Nat) : State :=
  match s.pm.entry with
  | none => s
  | some _ =>
    let f := s.fresh
    let s := f.2.setPm { f.2.pm with entry := none }
    let s := (s.cmdDone Key.pwrRequest DS.busy (natLe 1 reason ++ natLe 1 quireNo ++ natLe 2 (f.1 % 65536))).count
      Key.pwrAbandoned
    (s.setSent { s.sent with stopAtEnd := s.sent.stopAtEnd && !s.sentBound }).tryListen

/-- A demand of R861: it abandons a sleep entry under way, or asks for the exit from a sleep state. -/
def State.wakeDemand (s : State) : State :=
  let s := s.abandonEntry 0x05 0xFF
  if s.coreOn then s else s.setPm { s.pm with demand := true }

/-- GRANT: the bays are clocked and at their voltage, the controller serves (R43, R91); or REFUSE. `us`: µs since the
WAKE, judged at the first run (R420). Without CLKIN_38M4 the wake stays held; bays that a held wake left off are powered
first (R86). -/
def grant (q : QNum) (us : Nat) (s : State) : State :=
  let x := s.quire q
  if ¬ x.wakePending ∨ s.switch.isSome ∨ ¬ s.coreOn ∨ s.pm.waking then s
  else if s.refusesWake q then
    (s.setQuire q { x with
      pwr := .refused, wakePending := false,
      state := if x.state = .waking then (if x.started = [] then .enabled else .running) else x.state }).count
        (Key.qWakesRefused q)
  else if ¬ s.clkinSeen then s.holdWake
  else if ¬ s.clk.bayPll ∨ (s.quireBays q).any (fun b => !(s.bay b).powered) then s.powerBays q
  else if s.clk.settling ∨ (s.quireBays q).any (fun b => (s.bay b).retesting) then s
  else
    ((s.setQuire q { x with
      wakePending := false, grantUs := some us,
      state := if x.state = .waking then .running else x.state }).runBays q).tryRelease q

def execGrant (q : QNum) (us : Nat) (s : State) : Host.Outcome State Fault Refusal := .next (grant q us s)

/-! ### Freezing -/

/-- The fault record's bytes as the entry's value (R299). -/
def faultRecord (cause bay ring imp cycle cid sqi detail more rtc : Nat) : Nat :=
  leNat (natLe 1 cause ++ natLe 1 bay ++ natLe 1 ring ++ natLe 1 0 ++ natLe 4 imp ++ natLe 8 cycle ++ natLe 2 cid ++
    natLe 2 sqi ++ natLe 4 detail ++ natLe 2 more ++ natLe 2 0 ++ natLe 4 rtc)

/-- Host-bound leaf writes of a quire that are queued and not issued: MOV_OUT leaves to T4 (R295 step 4). -/
def State.unsentWrites (s : State) (q : QNum) : Nat :=
  (s.quireBays q).foldl (fun n b =>
    n + ((s.bay b).moves.filter fun m => !m.isIn && m.cause == .t4).length) 0

/-- Steps 2 to 5 of R295: bays stop, fetch stops, unsent host-bound writes are dropped and counted. -/
def State.stopQuire (s : State) (q : QNum) : State :=
  let s := s.count Key.hostWritesDropped (s.unsentWrites q)
  (s.quireBays q).foldl (fun s b => s.modBay b fun x =>
    { x with moves := x.moves.filter fun m => m.isIn || m.cause != .t4 }) s

/-- Lent slots of a quire end (R417). -/
def State.endLending (s : State) (q : QNum) : State :=
  s.setWeave { s.weave with lent := s.weave.lent.filter fun e => e.1 / 12 != q.val }

/-- The frame in progress is abandoned: the sentinel listens no more, and raises no detection (R797). -/
def State.sentAbandon (s : State) : State :=
  let s := s.setSent { s.sent with detect := none, stopAtEnd := false }
  if s.rd Key.sentState = 2 ∨ s.rd Key.sentState = 3 then s.wr Key.sentState 1 else s

/-- A violation (R294): the first freezes the quire in the order of R295; later ones are counted in the record (R36);
during a quire reset none is recorded (R307). -/
def State.freeze (s : State) (q : QNum) (cause : Nat) (bay : Nat := 0xFF) (ring : Nat := 0xFF)
    (imp : Nat := 0xFFFFFFFF) (cycle : Nat := 0) (cid : Nat := 0) (sqi : Nat := 0xFFFF) (detail : Nat := 0) : State :=
  let x := s.quire q
  if x.state = .resetting then s
  else if x.state = .frozen then
    let r := s.rd (Key.qFaultRecord q)
    if bits r 207 192 = 0xFFFF then s else s.wr (Key.qFaultRecord q) (r + 2 ^ 192)
  else
    let s := s.endRuns q
    let s := s.wr (Key.qFaultRecord q)
      (faultRecord cause bay ring imp cycle cid sqi (detail % 2 ^ 32) 0 (s.rtc.toNat % 2 ^ 32))
    let s := s.stopQuire q
    let s := s.setSt { s.st with poisons := s.st.poisons ++ [s.stitchRange q] }
    let s := s.dropWaits fun _ h => h.quire == q
    let s := s.endLending q
    let s := if q = 7 then s.sentAbandon else s
    let s := s.modQuire q fun y => { y with
      state := .frozen, heldCq := [], wakePending := false, pwr := if y.wakePending then .release else y.pwr }
    let s := s.count (Key.qFreezes q)
    let s := if x.disabling.isSome then
        (s.modQuire q fun y => { y with disabling := none }).cmdDone (Key.qDisable q) DS.state (natLe 1 3 ++ natLe 1 0 ++
          natLe 2 ((x.disabling.map fun d => d.count).getD 0))
      else s
    s.msixSend (8 * q.val + 6)

/-- A violation at a submission entry. -/
def State.freezeEntry (s : State) (q : QNum) (e : Entry) (cause : Nat) (detail : Nat := 0) : State :=
  s.freeze q cause (ring := e.ring.val) (cid := e.cid) (sqi := e.slot) (detail := detail)

/-! ### Doorbells (R254 to R259) -/

/-- BAR0 and BAR2 answer: boot has reached the link step and PERST_N is high. -/
def State.barUp (s : State) : Bool := s.running && s.pins.perstN

def Quire.discardDb (x : Quire) : Quire :=
  { x with ctrDb := if x.ctrDb = 0xFFFFFFFF then x.ctrDb else x.ctrDb + 1 }

/-- The checks every doorbell write passes first: recovery ignores it (R238); a wrong width or alignment, and any write
to a frozen or resetting quire, is discarded and counted (R256, R257). -/
def State.doorbell (s : State) (q : QNum) (aligned4 : Bool) (f : State → State) : State :=
  if ¬ s.barUp ∨ s.boot ≠ .normal then s
  else if ¬ aligned4 ∨ (s.quire q).state = .frozen ∨ (s.quire q).state = .resetting then s.modQuire q Quire.discardDb
  else f s.wakeDemand

/-- A write to SQ_TAILr moves the tail and may send WAKE (R258, R268). -/
def sqTailWrite (q : QNum) (r : RingNum) (v : BitVec 32) (aligned4 : Bool) (s : State) : State :=
  s.doorbell q aligned4 fun s =>
    if s.rd (Key.qSqSize q (r.val + 1)) ≤ v.toNat then s.freeze q FC.format (detail := 8 * r.val)
    else
      let s := s.modQuire q fun x => x.setRing r { x.ring r with tail := v.toNat }
      if s.coreOn then s.wakeIfNeeded q else s

def execSqTailWrite (q : QNum) (r : RingNum) (v : BitVec 32) (aligned4 : Bool) (s : State) :
    Host.Outcome State Fault Refusal := .next (sqTailWrite q r v aligned4 s)

/-- A write to CQ_HEAD frees completion slots and resumes held completions (R258, R270, R271). -/
def cqHeadWrite (q : QNum) (v : BitVec 32) (aligned4 : Bool) (s : State) : State :=
  s.doorbell q aligned4 fun s =>
    if s.rd (Key.qCqSize q) ≤ v.toNat then s.freeze q FC.format (detail := 0x20)
    else
      let s := s.modQuire q fun x => { x with cqHead := v.toNat }
      (s.flushCq q (s.quire q).heldCq).settleQuire q

def execCqHeadWrite (q : QNum) (v : BitVec 32) (aligned4 : Bool) (s : State) : Host.Outcome State Fault Refusal :=
  .next (cqHeadWrite q v aligned4 s)

/-- A STITCH_DB write signals an owned stitch (R259, R329, R332). DESIGN CHOICE (log entry 92): of a write that breaks both
sentences of R259, the format error is the one judged. -/
def stitchDb (q : QNum) (v : BitVec 32) (aligned4 : Bool) (s : State) : State :=
  s.doorbell q aligned4 fun s =>
    let n := bits v.toNat 11 0
    let c := bits v.toNat 27 12
    if c = 0 then s.freeze q FC.format (detail := 0x41)
    else if bits v.toNat 31 28 ≠ 0 then s.freeze q FC.format (detail := 0x43)
    else if ¬ s.ownsStitch q n then s.freeze q FC.foreignStitch (detail := n)
    else if (s.stitch n).spec then s.freeze q FC.format (detail := 0x40)
    else s.signal n c

def execStitchDb (q : QNum) (v : BitVec 32) (aligned4 : Bool) (s : State) : Host.Outcome State Fault Refusal :=
  .next (stitchDb q v aligned4 s)

/-! ### Starting entries -/

/-- A quire hands entries to its bays: granted, or fetched as if granted under a refused short bay set (R44, R904);
never while a completion waits for ring space (R271), nor beyond 64 started entries (R283). -/
def State.canStart (s : State) (q : QNum) : Bool :=
  let x := s.quire q
  s.coreOn && (x.state == .enabled || x.state == .running) && x.heldCq.isEmpty &&
    (s.served q || (s.shortSet q && s.refusesWake q)) && decide (x.started.length < 64)

/-- The fetched entry of a ring, when it has an opcode and may start (R280). -/
def State.startable (s : State) (q : QNum) (r : RingNum) (opcode : Nat) : Option Entry :=
  match ((s.quire q).ring r).fetched with
  | e :: _ => if e.opcode = opcode ∧ s.canStart q then some e else none
  | [] => none

/-- The fetched entry leaves the ring's fetched list. -/
def State.popEntry (s : State) (q : QNum) (r : RingNum) : State :=
  s.modQuire q fun x => { x.setRing r { x.ring r with fetched := (x.ring r).fetched.tail } with state := .running }

/-- The fetched entry starts and stays started with `w`. -/
def State.startEntry (s : State) (q : QNum) (r : RingNum) (e : Entry) (w : Work) : State :=
  (s.popEntry q r).modQuire q fun x => { x with started := x.started ++ [{ entry := e, work := w }] }

/-- The fetched entry starts and completes at once. -/
def State.finishNow (s : State) (q : QNum) (r : RingNum) (e : Entry) (status : Nat) (detail result : Nat := 0) : State :=
  ((s.popEntry q r).complete q e status detail result).settleQuire q

/-- NOP completes with RESULT 0 (R274). -/
def nop (q : QNum) (r : RingNum) (s : State) : State :=
  match s.startable q r 0x00 with
  | some e => s.finishNow q r e CS.ok
  | none => s

def execNop (q : QNum) (r : RingNum) (s : State) : Host.Outcome State Fault Refusal := .next (nop q r s)

/-- STITCH_SIGNAL adds its count to an owned stitch (R329); the stitch is judged again at the start (R332). -/
def stitchSignal (q : QNum) (r : RingNum) (s : State) : State :=
  match s.startable q r 0x09 with
  | some e =>
    let n := fieldLe e.bytes 8 2
    if ¬ s.ownsStitch q n then s.freezeEntry q e FC.foreignStitch n
    else if (s.stitch n).spec then s.freezeEntry q e FC.format 8
    else (s.signal n (fieldLe e.bytes 12 4)).finishNow q r e CS.ok
  | none => s

def execStitchSignal (q : QNum) (r : RingNum) (s : State) : Host.Outcome State Fault Refusal := .next (stitchSignal q r s)

/-- Count a wait's outcome for the waiting quire (R320). -/
def State.countWait (s : State) (q : QNum) (o : Outcome) : State :=
  match o with
  | .met => s.count (Key.qStMet q)
  | .late => (s.count (Key.qStMet q)).count (Key.qStLate q)
  | .timeout => s.count (Key.qStTimeout q)
  | .poison => s.count (Key.qStReleased q)
  | .aborted => s.count (Key.qStReleased q)

/-- STATUS, DETAIL and RESULT of a host STITCH_WAIT (R277, R336, R343). -/
def waitStatus (o : Outcome) (count : Nat) : Nat × Nat × Nat :=
  match o with
  | .met => (CS.ok, 0, count)
  | .late => (CS.ok, 1, count)
  | .timeout => (CS.timeout, 0, 0)
  | .poison => (CS.poison, 0, 0)
  | .aborted => (CS.aborted, 0, 0)

/-- The value a wait's outcome gives the wait-status decision register (R379). -/
def waitCode : Outcome → Nat
  | .met => 0
  | .late => 1
  | .timeout => 2
  | .poison => 3
  | .aborted => 4

/-- The outcome of a bay's wait goes into its wait-status register, as a unit's result at the stamp issued last; while the
run slips, at once: the entry after the slip falls into a later cycle (R344, R379, R392). `now`: the latest stamp the run
has issued. -/
def Bay.waitEnds (x : Bay) (slips : Bool) (now code : Nat) : Bay :=
  let tag := (x.seq.wait.map SeqWait.tag).getD 0
  let seq := { x.seq with wait := none }
  if slips then
    { x.setTag resSeqDreg tag with
      dregs := Tab.set x.dregs 0 resSeqDreg code, dregDue := x.dregDue.filter fun d => d.reg != resSeqDreg, seq := seq }
  else
    { x with dregDue := x.dregDue ++ [{ ready := now, reg := resSeqDreg, value := code, tag := tag }], seq := seq }

/-- The run a bay steps. -/
def State.runOf (s : State) (b : BayNum) : Option (QNum × Run) :=
  match (s.bay b).seq.run with
  | some (q, id) => (s.run q id).map fun r => (q, r)
  | none => none

/-- The run of a bay with a wait that ends slips on: it is the wait of an entry due now that ends the slip last, as far as
is known (R389, R390). -/
def State.noteWait (s : State) (b : BayNum) : State :=
  match s.runOf b with
  | some (q, r) =>
    match r.slipping, s.runNext q r, s.nextEntry q r b with
    | some _, some d, some e => if e.t = d.t then s.modRun q r.id fun r => { r with slipping := some (some .wait) } else s
    | _, _, _ => s
  | none => s

/-- An outcome reaches its waiter: the host entry completes, or the bay's wait-status register is written and its
sequencer resumes (R336, R344). -/
def State.endWait (s : State) (h : Held) (o : Outcome) (count : Nat) : State :=
  let s := s.countWait h.quire o
  match h.who with
  | .bay b =>
    let r := (s.runOf b).map Prod.snd
    let slips := (r.map fun r => r.slipping.isSome).getD true
    (s.modBay b fun x => x.waitEnds slips ((r.map s.lastStamp).getD 0) (waitCode o)).noteWait b
  | .host q r =>
    match (s.quire q).started.find? fun w => w.entry.ring == r && w.work.isStitchWait with
    | some w =>
      let c := waitStatus o count
      s.finish q w.entry c.1 c.2.1 c.2.2
    | none => s

/-- STITCH_WAIT starts; it is judged again at the start, and the coming stage makes the start comparison (R335, R332,
R337, R354). A TIMEOUT_US of 0 expires in that stage (R338). -/
def stitchWait (q : QNum) (r : RingNum) (s : State) : State :=
  match s.startable q r 0x0A with
  | some e =>
    let n := fieldLe e.bytes 8 2
    if ¬ s.mayWait q n then s.freezeEntry q e FC.foreignStitch n
    else if (s.stitch n).spec then s.freezeEntry q e FC.format 8
    else (s.startEntry q r e (.stitchWait n)).startWait n (.host q r) q (fieldLe e.bytes 12 4 == 0)
  | none => s

def execStitchWait (q : QNum) (r : RingNum) (s : State) : Host.Outcome State Fault Refusal := .next (stitchWait q r s)

/-- The TIMEOUT_US of a held host wait passes: the wait expires in the coming comparison stage (R338). -/
def hostWaitTimeout (q : QNum) (r : RingNum) (s : State) : State :=
  match (s.quire q).started.find? fun w => w.entry.ring == r && w.work.isStitchWait with
  | some w => if fieldLe w.entry.bytes 12 4 = 0xFFFFFFFF then s else s.expireWait (fieldLe w.entry.bytes 8 2) (.host q r)
  | none => s

def execHostWaitTimeout (q : QNum) (r : RingNum) (s : State) : Host.Outcome State Fault Refusal :=
  .next (hostWaitTimeout q r s)

/-- A FENCE's earlier entries have completed: those of its ring, and with SCOPE 0x01 those of the other rings fetched
before it (R281). -/
def Quire.fenceOpen (x : Quire) (e : Entry) (all : Bool) : Bool :=
  !(x.started.any fun w => w.entry.seq < e.seq && (all || w.entry.ring == e.ring)) &&
    !(all && x.rings.toList.any fun r => r.fetched.any fun f => f.seq < e.seq)

/-- FENCE completes at once, or stays started until its earlier entries have completed (R281). -/
def fence (q : QNum) (r : RingNum) (s : State) : State :=
  match s.startable q r 0x0B with
  | some e =>
    let all := fieldLe e.bytes 8 1 == 1
    if (s.quire q).fenceOpen e all then s.finishNow q r e CS.ok
    else s.startEntry q r e (.fence all)
  | none => s

def execFence (q : QNum) (r : RingNum) (s : State) : Host.Outcome State Fault Refusal := .next (fence q r s)

/-! ### The comparison stage (R309) -/

/-- One stitch in one stage. -/
def State.stageOne (s : State) (signals : List (Nat × Nat)) (poisons aborts : List (Nat × Nat)) (n : Nat) : State :=
  match s.stitchOwner n with
  | none => s
  | some o =>
    let x := s.stitch n
    let mine := signals.filter fun p => p.1 == n
    let s := if mine = [] then s
      else if x.poison then s.count (Key.qStDiscarded o) mine.length
      else s.count (Key.qStSignals o) mine.length
    let x := if x.poison ∨ mine = [] then x else x.add ((mine.map fun p => p.2).sum)
    let r := x.settle (poisons.any fun p => inRange p n) (aborts.any fun p => inRange p n)
    r.2.foldl (fun s p => s.endWait p.1 p.2 x.val) (s.setStitch n r.1)

/-- Numbers of a range list, ascending and once each. -/
def rangeNums (l : List (Nat × Nat)) : List Nat := (l.flatMap fun p => upFrom p.1 p.2)

/-- The stage applies signals, poison and abort releases, comparisons, consumption and trips (R309 to R319, R340 to
R349). -/
def comparisonStage (s : State) : State :=
  if ¬ s.coreOn then s
  else
    let u := s.st
    let nums := sortNat ((u.stitches.map fun e => e.1) ++ (u.signals.map fun e => e.1) ++ rangeNums u.poisons ++
      rangeNums u.aborts)
    let s := s.setSt { u with signals := [], poisons := [], aborts := [] }
    nums.foldl (fun s n => s.stageOne u.signals u.poisons u.aborts n) s

/-- The stage of the stitches of a range, in which the waits on those of `gone` are released ABORTED: what had arrived for
them is applied, and a condition that holds wins (R309, R323, R342, R351). The rest of the device has its stage at its own
time (DEDUCED, log entry 109). -/
def State.releaseStage (s : State) (r : Nat × Nat) (gone : List (Nat × Nat)) : State :=
  let u := s.st
  let nums := sortNat (((u.stitches.map fun e => e.1) ++ (u.signals.map fun e => e.1)).filter (inRange r))
  let s := s.setSt { u with
    signals := u.signals.filter (fun p => !inRange r p.1), poisons := u.poisons.filter (fun p => p != r),
    aborts := u.aborts.filter (fun p => p != r) }
  nums.foldl (fun s n => s.stageOne u.signals u.poisons (gone ++ u.aborts) n) s

def execComparisonStage (s : State) : Host.Outcome State Fault Refusal := .next (comparisonStage s)

/-! ### Commands of the quire's block that need no tier -/

/-- The checks a CMD write of `k` meets once its shape, state and argument hold: BUSY while it runs (R114). -/
def State.ifIdle (s : State) (k : Nat) (f : State → State) : Nat × State :=
  if s.cmdRunning k then (DS.busy, s) else (DS.ok, f s)

/-- Q_ENABLE starts fetch of a disabled quire whose ring set has a completion ring (R292) and whose T2 quota was not
refused (R907). -/
def qEnableWrite (q : QNum) (s : State) : Nat × State :=
  if (s.quire q).state ≠ .disabled ∨ s.rd (Key.qCqSize q) = 0 ∨ bit (s.rd Key.diagT2Refused) q.val then (DS.state, s)
  else s.ifIdle (Key.qEnable q) fun s =>
    ((s.modQuire q fun x => { x with state := .enabled }).cmdDone (Key.qEnable q) DS.ok []).wakeIfNeeded q

/-- Q_DMA_FAULT freezes the quire with cause DMA and DETAIL bits [43:12] of the argument (R266, R299). -/
def qDmaFaultWrite (q : QNum) (addr : Nat) (s : State) : Nat × State :=
  s.ifIdle (Key.qDmaFault q) fun s => (s.freeze q FC.dma (detail := bits addr 43 12)).cmdDone (Key.qDmaFault q) DS.ok []

/-- An error completion or timeout of a PASID DMA read: the record names what read it (R265, R299). -/
def dmaReadError (q : QNum) (addr : BitVec 64) (src : DmaSource) (s : State) : State :=
  if ¬ s.up then s
  else
    let d := bits addr.toNat 43 12
    match src with
    | .ring r => s.freeze q FC.dma (ring := r.val) (sqi := ((s.quire q).ring r).head) (detail := d)
    | .entry r n =>
      match ((s.quire q).started.map Started.entry ++ ((s.quire q).ring r).fetched).find? fun e =>
          e.ring == r && e.slot == n.toNat with
      | some e => s.freezeEntry q e FC.dma d
      | none => s
    | .move b n =>
      match (s.bay b).seq.run, (s.bay b).moves.find? fun m => m.isIn && m.cause == .t4 && m.slot == n.val with
      | some (p, id), some m =>
        match s.run p id with
        | some r =>
          if p = q then
            s.freeze q FC.dma (bay := b.val) (ring := r.entry.ring.val) (imp := m.idx) (cycle := s.elapsed r)
              (cid := r.entry.cid) (sqi := r.entry.slot) (detail := d)
          else s
        | none => s
      | _, _ => s
    | .press => s.freeze q FC.dma (detail := d)

def execDmaReadError (q : QNum) (addr : BitVec 64) (src : DmaSource) (s : State) :
    Host.Outcome State Fault Refusal := .next (dmaReadError q addr src s)

end Sys2Proof.Machine
end

