-- ==== Sys2Proof/Machine/Tiers.lean ====
section
/-! DEFINITION. Tiers and leaves (14): extents, usage and quotas, zeroing, ALLOC, FREE, COPY, MIGRATE_HINT, the tier
manager and the shared pool. -/

namespace Sys2Proof.Machine

/-! ### Extents -/

/-- Cut the leaves [first, first + count) of a place out of an extent whose use matches. -/
def cutExtent (p : Place) (first count : Nat) (f : Use → Bool) (e : Extent) : List Extent :=
  if e.place = p ∧ f e.use = true then
    (if e.first < first then [{ e with count := min e.count (first - e.first) }] else []) ++
    (if first + count < e.first + e.count then
      [{ e with first := max e.first (first + count), count := e.first + e.count - max e.first (first + count) }] else [])
  else [e]

def State.cut (s : State) (p : Place) (first count : Nat) (f : Use → Bool) : State :=
  s.setTiers { s.tiers with extents := s.tiers.extents.flatMap (cutExtent p first count f) }

def State.addExtent (s : State) (e : Extent) : State := s.setTiers { s.tiers with extents := s.tiers.extents ++ [e] }

/-- The extents with a use, of a place. -/
def State.extentsOf (s : State) (p : Place) (f : Use → Bool) : List Extent :=
  s.tiers.extents.filter fun e => e.place == p && f e.use

def Use.any : Use → Bool := fun _ => true

def Use.isZeroing : Use → Bool
  | .zeroing _ _ => true
  | _ => false

/-- Taken by somebody, zeroing apart. -/
def Use.taken (u : Use) : Bool := !u.isZeroing

/-- Awaiting zeroing, other than a released reservation of the quire itself (R938). -/
def Use.blocksReserve (q : QNum) : Use → Bool
  | .zeroing p run => !(run && p == q)
  | _ => true

/-- Lowest first leaf of `count` consecutive leaves below `limit` outside every extent of the list. -/
def lowestRun (limit count : Nat) (busy : List Extent) : Option Nat :=
  (sortNat (0 :: busy.map fun e => e.first + e.count)).find? fun c =>
    c + count ≤ limit && busy.all fun e => e.first + e.count ≤ c || c + count ≤ e.first

/-- The gaps below `limit` between the extents of the list, rising: (first, count). -/
def gaps (limit : Nat) (busy : List Extent) : List (Nat × Nat) :=
  (sortNat (0 :: busy.map fun e => e.first + e.count)).filterMap fun c =>
    if busy.any (fun e => e.first ≤ c && c < e.first + e.count) then none
    else
      let hi := busy.foldl (fun m e => if c < e.first then min m e.first else m) limit
      if c < hi then some (c, hi - c) else none

/-- The first `n` leaves of a list of gaps. -/
def takeGaps : Nat → List (Nat × Nat) → List (Nat × Nat)
  | _, [] => []
  | n, (f, c) :: t => if n = 0 then [] else (f, min n c) :: takeGaps (n - c) t

def gapSum (l : List (Nat × Nat)) : Nat := (l.map fun p => p.2).sum

/-- Up to `n` leaves of a place, lowest first: among the free and zeroed, then among those for which `f` is false. -/
def State.pickLeaves (s : State) (p : Place) (n : Nat) (f : Use → Bool) : List (Nat × Nat) :=
  let limit := s.placeLeaves p
  let a := takeGaps n (gaps limit (s.extentsOf p Use.any))
  let taken := a.map fun g => ({ place := p, first := g.1, count := g.2, use := .alloc 0 } : Extent)
  a ++ takeGaps (n - gapSum a) (gaps limit (s.extentsOf p f ++ taken))

/-! ### Usage and headroom (R679, R680) -/

def Use.counts (q : QNum) : Use → Bool
  | .alloc p => p == q
  | .home p => p == q
  | .reserve p _ => p == q
  | _ => false

def Place.isT1 : Place → Bool
  | .t2 => false
  | _ => true

def State.usedT1 (s : State) (q : QNum) : Nat :=
  ((s.tiers.extents.filter fun e => e.place.isT1 && e.use.counts q).map Extent.count).sum

def State.usedT2 (s : State) (q : QNum) : Nat :=
  ((s.tiers.extents.filter fun e => !e.place.isT1 && e.use.counts q).map Extent.count).sum

def Use.isReserve (q : QNum) : Use → Bool
  | .reserve p _ => p == q
  | _ => false

/-- T1 leaves reserved by the runs of a quire. -/
def State.reservedT1 (s : State) (q : QNum) : Nat :=
  ((s.tiers.extents.filter fun e => e.use.isReserve q).map Extent.count).sum

/-- A commit of a staged set is pending. -/
def State.commitPending (s : State) (commitKey : Nat) : Bool :=
  (Tab.get s.dict.sets { holder := none, pending := false } (commitKey / 256)).pending

/-- The staged value of an entry; the active one where none is staged (R138). -/
def State.staged (s : State) (k : Nat) : Nat := Tab.get s.dict.staged (s.rd k) k

/-- The quota an ALLOC or a reservation is checked against (R680). -/
def State.quota (s : State) (q : QNum) (n : Nat) : Nat :=
  let k := Key.qQuota q n
  if s.commitPending (Key.qTierCommit q) then min (s.rd k) (s.staged k) else s.rd k

def State.headT1 (s : State) (q : QNum) : Nat := s.quota q 1 - s.usedT1 q
def State.headT2 (s : State) (q : QNum) : Nat := s.quota q 2 - s.usedT2 q
def State.headT3 (s : State) (q : QNum) : Nat := s.quota q 3 - s.usedT3 q

/-! ### Zeroing (R305, R306, R675) -/

/-- Release leaves to the zeroing engine as one job (R306). -/
def State.zeroJob (s : State) (q : QNum) (run : Bool) (pieces : List (Place × Nat × Nat)) (purpose : ZeroFor := .release) :
    State :=
  let ex := pieces.map fun p =>
    ({ place := p.1, first := p.2.1, count := p.2.2, use := .zeroing q run } : Extent)
  let s := pieces.foldl (fun s p => s.cut p.1 p.2.1 p.2.2 Use.taken) s
  if ex = [] ∧ purpose = .release then s
  else s.setTiers { s.tiers with extents := s.tiers.extents ++ ex, jobs := s.tiers.jobs ++ [{ extents := ex, purpose := purpose }] }

/-- A leaf of the piece is still to be zeroed. -/
def State.unzeroed (s : State) (p : Place) (first count : Nat) : Bool :=
  (s.extentsOf p Use.isZeroing).any fun e => decide (e.first < first + count ∧ first < e.first + e.count)

/-- The leaves of one extent of a job are zeroed, where they still await it. -/
def State.zeroExtent (s : State) (x : Extent) : State :=
  let due := (s.extentsOf x.place Use.isZeroing).filterMap fun e =>
    let lo := max e.first x.first
    let hi := min (e.first + e.count) (x.first + x.count)
    if lo < hi then some (lo, hi - lo) else none
  let s := due.foldl (fun s d => s.clearLeaves x.place d.1 d.2) s
  let s := s.setTiers { s.tiers with
    xo := s.tiers.xo.filter fun y => !(y.1 == x.place && due.any fun d => d.1 ≤ y.2 && y.2 < d.1 + d.2) }
  s.cut x.place x.first x.count Use.isZeroing

/-! ### Runs that bind leaves (R674, R691) -/

/-- Leaf ranges a run binds. -/
def Run.leafBinds (r : Run) : List (Addr × Nat) :=
  r.binds.filterMap fun b => if b.kind = 2 then (addrOf b.addr).map fun a => (a, b.value) else none

/-- A running run of the quire binds a leaf of the range. -/
def State.leavesBound (s : State) (q : QNum) (a : Addr) (count : Nat) : Bool :=
  (s.quire q).runs.any fun r => r.leafBinds.any fun b =>
    decide (b.1.form = a.form ∧ b.1.leaf < a.leaf + count ∧ a.leaf < b.1.leaf + b.2)

/-- The leaves of the quire's training commit's master range (R784). -/
def State.masterMeets (s : State) (q : QNum) (a : Addr) (count : Nat) : Bool :=
  match (s.quire q).train with
  | some t =>
    match addrOf t.master with
    | some m => decide (m.form = a.form ∧ m.leaf < a.leaf + count ∧ a.leaf < m.leaf + t.masterLeaves)
    | none => false
  | none => false

/-- A leaf of the range is in transit (R700). -/
def State.rangeLocked (s : State) (q : QNum) (a : Addr) (count : Nat) : Bool :=
  a.form == .unified && (s.quire q).unified.any fun u =>
    decide (a.leaf ≤ u.1 ∧ u.1 < a.leaf + count) && (match u.2.home with
      | .toCommons _ _ => true
      | .toT2 _ _ => true
      | _ => false)

/-! ### The shared pool (R688 to R693) -/

/-- The pool copy of a leaf of the entry installed now. -/
def State.poolCopy (s : State) (e n : Nat) : Option PoolCopy :=
  s.tiers.pool.find? fun c => c.lib == e && c.leaf == n && c.gen == (s.lib e).generation

/-- A running run binds the T3 leaf the copy holds, or the leaf itself (R691). -/
def State.poolPinned (s : State) (c : PoolCopy) : Bool :=
  allQ.any fun q => (s.quire q).runs.any fun r => r.leafBinds.any fun b =>
    match b.1.form with
    | .t3 h => h % 64 == c.lib && h / 4096 == c.gen && b.1.leaf ≤ c.leaf && c.leaf < b.1.leaf + b.2
    | _ => false

/-- The unpinned copy least recently read (R692). -/
def State.poolVictim (s : State) : Option PoolCopy :=
  (s.tiers.pool.filter fun c => !s.poolPinned c).foldl (fun o c =>
    match o with
    | none => some c
    | some d => if c.lastRead < d.lastRead then some c else some d) none

def State.dropCopies (s : State) (f : PoolCopy → Bool) : State :=
  let gone := s.tiers.pool.filter f
  let s := gone.foldl (fun s c => (s.clearLeaves .commons c.at_ 1).setXo .commons c.at_ false) s
  s.setTiers { s.tiers with pool := s.tiers.pool.filter fun c => !f c }

/-- A read of leaves by a leaf mover advances the clock that orders them. -/
def State.tickRead (s : State) : Nat × State :=
  (s.tiers.readClock, s.setTiers { s.tiers with readClock := s.tiers.readClock + 1 })

/-- Place a copy of a T3 leaf in the pool, evicting when it is full (R688, R692). -/
def State.poolPut (s : State) (e n : Nat) : State :=
  if (s.poolCopy e n).isSome ∨ s.tiers.poolLeaves = 0 then s
  else
    let base := 1985 - s.tiers.poolLeaves
    let free := fun (s : State) => (upFrom base s.tiers.poolLeaves).find? fun a => !s.tiers.pool.any fun c => c.at_ == a
    let s := if free s = none then
        (match s.poolVictim with
          | some v => (s.dropCopies fun c => c == v).count Key.poolEvictions
          | none => s)
      else s
    match free s with
    | none => s
    | some a =>
      let t := s.tickRead
      let s := t.2.setLeaf .commons a (s.libFrame e n)
      let s := s.setXo .commons a ((s.lib e).man.xoStripe (n / 32))
      s.setTiers { s.tiers with
        pool := s.tiers.pool ++ [{ lib := e, gen := (s.lib e).generation, leaf := n, at_ := a, lastRead := t.1 }] }

/-- Copies of a removed or retired entry go once no running run binds them (R693). -/
def State.dropStale (s : State) : State :=
  s.dropCopies fun c => !((s.lib c.lib).installed && (s.lib c.lib).generation == c.gen) && !s.poolPinned c

/-! ### The tier manager (R694 to R702) -/

def State.setU (s : State) (q : QNum) (n : Nat) (u : Option ULeaf) : State :=
  s.modQuire q fun x => { x with unified := Tab.put x.unified n u }

def State.uPinned (s : State) (q : QNum) (n : Nat) : Bool := s.leavesBound q { form := .unified, leaf := n } 1

/-- A place of a tier for a leaf that migrates: zeroed and free, else awaiting zeroing. -/
def State.pickOne (s : State) (p : Place) : Option Nat :=
  match s.pickLeaves p 1 Use.taken with
  | (f, _) :: _ => some f
  | [] => none

/-- The frame starts to move: its mapping stays until it arrives. -/
def State.startMove (s : State) (q : QNum) (n : Nat) (up : Bool) : Option State :=
  match Tab.find (s.quire q).unified n with
  | none => none
  | some u =>
    match u.home, up with
    | .t2 src, true =>
      (s.pickOne .commons).map fun dst =>
        (s.addExtent { place := .commons, first := dst, count := 1, use := .home q }).setU q n
          (some { u with home := .toCommons src dst })
    | .commons src, false =>
      (s.pickOne .t2).map fun dst =>
        (s.addExtent { place := .t2, first := dst, count := 1, use := .home q }).setU q n
          (some { u with home := .toT2 src dst })
    | _, _ => none

/-- Commons-homed or incoming leaves of a quire, not pinned, least recently read first; `skip` are passed over
(R696, R701). -/
def State.victims (s : State) (q : QNum) (skip : List Nat) : List (Nat × ULeaf) :=
  let c := (s.quire q).unified.filter fun u =>
    (match u.2.home with
      | .commons _ => true
      | .toCommons _ _ => true
      | _ => false) && !s.uPinned q u.1 && !skip.contains u.1
  c.foldl (fun l u => l.takeWhile (fun v => v.2.lastRead ≤ u.2.lastRead) ++ u :: l.dropWhile (fun v => v.2.lastRead ≤ u.2.lastRead)) []

def State.skipTm (s : State) (q : QNum) : State := s.count (Key.qTmSkipped q)

/-- What one attempt at a hint does: the hint stays, or is done. -/
def State.tryPromote (s : State) (q : QNum) (h : Hint) : State × Option Hint :=
  match Tab.find (s.quire q).unified h.leaf with
  | none => (s, none)
  | some u =>
    match u.home with
    | .commons _ => (s, none)
    | .toCommons _ _ => (s, none)
    | .toT2 _ _ => (s, some h)
    | .t2 _ =>
      if s.rd (Key.qQuota q 1) - s.usedT1 q ≠ 0 then
        match s.startMove q h.leaf true with
        | some s => (s, none)
        | none => (s.skipTm q, none)
      else if (s.quire q).unified.any fun v => match v.2.home with | .toT2 _ _ => true | _ => false then (s, some h)
      else
        -- the execute-only leaves the eviction meets first are skipped and counted (R685)
        let vs := s.victims q h.passed
        let xo := fun (v : Nat × ULeaf) => match v.2.home with | .commons n => s.isXo .commons n | _ => false
        let s := (vs.takeWhile xo).foldl (fun s _ => s.skipTm q) s
        match vs.dropWhile xo with
        | [] => (s.skipTm q, none)
        | v :: _ =>
          match v.2.home with
          | .commons _ =>
            if s.rd (Key.qQuota q 2) - s.usedT2 q = 0 then (s.skipTm q, none)
            else
              match s.startMove q v.1 false with
              | some s => (s, some h)
              | none => (s.skipTm q, none)
          | _ => (s.count (Key.qTmDeferred q), some { h with passed := h.passed ++ [v.1] })

def State.tryDemote (s : State) (q : QNum) (h : Hint) : State × Option Hint :=
  match Tab.find (s.quire q).unified h.leaf with
  | none => (s, none)
  | some u =>
    match u.home with
    | .t2 _ => (s, none)
    | .toT2 _ _ => (s, none)
    | .toCommons _ _ => (s.count (Key.qTmDeferred q), none)
    | .commons n =>
      if s.uPinned q h.leaf then (s, none)
      else if s.isXo .commons n ∨ s.rd (Key.qQuota q 2) - s.usedT2 q = 0 then (s.skipTm q, none)
      else
        match s.startMove q h.leaf false with
        | some s => (s, none)
        | none => (s.skipTm q, none)

/-- Order of service: URGENCY 3, demand promotions, URGENCY 2 to 0 (R698). -/
def Hint.rank (h : Hint) : Nat := if h.demand then 1 else if h.urgency = 3 then 0 else 4 - h.urgency

/-- A hint deferred on a leaf still in transit waits for its arrival (R701). -/
def State.hintWaits (s : State) (q : QNum) (h : Hint) : Bool :=
  h.passed.any fun n => match Tab.find (s.quire q).unified n with
    | some u => (match u.home with | .toCommons _ _ => true | _ => false)
    | none => false

/-- Serve the pending hints of a quire once, in the order of R698; a frozen quire's too (R297), until a quire reset stops
them (R304). -/
def State.serveHints (s : State) (q : QNum) : State :=
  if (s.quire q).state = .resetting then s
  else
    let hs := (List.range 5).flatMap fun r => (s.quire q).hints.filter fun h => h.rank == r
    let s := s.modQuire q fun x => { x with hints := [] }
    let r := hs.foldl (fun (p : State × List Hint) h =>
      if p.1.hintWaits q h then (p.1, p.2 ++ [h])
      else
        let t := if h.promote then p.1.tryPromote q h else p.1.tryDemote q h
        (t.1, p.2 ++ t.2.toList)) (s, [])
    r.1.modQuire q fun x => { x with hints := r.2 }

def State.addHint (s : State) (q : QNum) (h : Hint) : State := s.modQuire q fun x => { x with hints := x.hints ++ [h] }

/-- A migrating leaf arrives: its mapping switches and the old place is zeroed (R694, R701, R702). -/
def tmMoveComplete (q : QNum) (n : Nat) (s : State) : State :=
  match Tab.find (s.quire q).unified n with
  | none => s
  | some u =>
    match u.home with
    | .toCommons src dst =>
      if s.unzeroed .commons dst 1 then s
      else
        let s := (s.setLeaf .commons dst (s.leaf .t2 src)).setU q n (some { u with home := .commons dst })
        ((s.zeroJob q false [(.t2, src, 1)]).count (Key.qTmPromoted q)).serveHints q
    | .toT2 src dst =>
      if s.unzeroed .t2 dst 1 then s
      else
        let s := (s.setLeaf .t2 dst (s.leaf .commons src)).setU q n (some { u with home := .t2 dst })
        ((s.zeroJob q false [(.commons, src, 1)]).count (Key.qTmDemoted q)).serveHints q
    | _ => s

def execTmMoveComplete (q : QNum) (leaf : Nat) (s : State) : Host.Outcome State Fault Refusal :=
  .next (tmMoveComplete q leaf s)

/-! ### ALLOC (R668 to R672) -/

/-- The pieces of an allocation are zeroed. -/
def State.piecesZeroed (s : State) (l : List Extent) : Bool := l.all fun e => !s.unzeroed e.place e.first e.count

def Addr.ofPlace (p : Place) (n : Nat) : Addr :=
  match p with
  | .slice b => { form := .slice b, leaf := n }
  | .commons => { form := .commons, leaf := n }
  | .t2 => { form := .t2, leaf := n }

/-- The homes of the leaves of a UNIFIED allocation, in order. -/
def homesOf (l : List Extent) : List Home :=
  l.flatMap fun e => (upFrom e.first e.count).map fun n => if e.place = .t2 then Home.t2 n else Home.commons n

/-- The claimed pieces become the quire's; answers the address of the first leaf. -/
def State.grantLeaves (s : State) (q : QNum) (l : List Extent) (unified : Bool) : Nat × State :=
  if unified then
    let homes := homesOf l
    let busy := (s.quire q).unified.map fun u => ({ place := .t2, first := u.1, count := 1, use := .home q } : Extent)
    let first := (lowestRun (2 ^ 27) homes.length busy).getD 0
    let s := l.foldl (fun s e => s.addExtent { e with use := .home q }) s
    let s := (homes.zip (List.range homes.length)).foldl
      (fun s p => s.setU q (first + p.2) (some { home := p.1, lastRead := 0 })) s
    (({ form := .unified, leaf := first } : Addr).encode, s)
  else
    let s := l.foldl (fun s e => s.addExtent { e with use := .alloc q }) s
    (match l with
      | e :: _ => (Addr.ofPlace e.place e.first).encode
      | [] => 0, s)

/-- Leaves missing in the quota for a UNIFIED or FLAGS allocation; zero when the headroom suffices (R670). -/
def State.allocMissing (s : State) (q : QNum) (e : Entry) (unified : Bool) : Nat :=
  let count := fieldLe e.bytes 8 4
  let tier := fieldLe e.bytes 12 1
  let aflags := fieldLe e.bytes 13 1
  if tier = 2 then count - s.headT2 q
  else if unified then count - (s.headT1 q + s.headT2 q)
  else if bit aflags 3 then count - s.headT1 q
  else if s.ownerOf (Fin.ofNat 8 (aflags % 8)) = some q then count - s.headT1 q
  else count

/-- The place of a FLAGS allocation (R668). -/
def allocPlace (e : Entry) : Place :=
  let aflags := fieldLe e.bytes 13 1
  if fieldLe e.bytes 12 1 = 2 then .t2 else if bit aflags 3 then .commons else .slice (Fin.ofNat 8 (aflags % 8))

/-- The leaves an ALLOC takes: one run for FLAGS, homes for UNIFIED; none when no leaves remain (R671, R672). -/
def State.allocPick (s : State) (q : QNum) (e : Entry) (unified : Bool) : Option (List Extent) :=
  let count := fieldLe e.bytes 8 4
  let use : Use := .allocWait q e.seq
  if unified then
    let c := if fieldLe e.bytes 12 1 = 1 then s.pickLeaves .commons (min count (s.headT1 q)) Use.taken else []
    let t := s.pickLeaves .t2 (min (count - gapSum c) (s.headT2 q)) Use.taken
    if gapSum c + gapSum t < count then none
    else
      some ((c.map fun g => { place := .commons, first := g.1, count := g.2, use := use }) ++
        (t.map fun g => { place := .t2, first := g.1, count := g.2, use := use }))
  else
    let p := allocPlace e
    let limit := s.placeLeaves p
    let a := lowestRun limit count (s.extentsOf p Use.any)
    let a := match a with | some x => some x | none => lowestRun limit count (s.extentsOf p Use.taken)
    a.map fun x => [{ place := p, first := x, count := count, use := use }]

/-- ALLOC: QUOTA with the leaves missing, QUOTA with 0 when no run exists, the address, or a wait for zeroing. -/
def alloc (q : QNum) (r : RingNum) (s : State) : State :=
  match s.startable q r 0x05 with
  | some e =>
    let unified := s.rd (Key.qPlacement q) == 1
    let miss := s.allocMissing q e unified
    if miss ≠ 0 then s.finishNow q r e CS.quota 0 miss
    else
      match s.allocPick q e unified with
      | none => s.finishNow q r e CS.quota
      | some l =>
        if s.piecesZeroed l then
          let g := s.grantLeaves q l unified
          g.2.finishNow q r e CS.ok 0 g.1
        else (l.foldl State.addExtent s).startEntry q r e (.allocWait l unified)
  | none => s

def execAlloc (q : QNum) (r : RingNum) (s : State) : Host.Outcome State Fault Refusal := .next (alloc q r s)

def Use.isClaim (q : QNum) (seq : Nat) : Use → Bool
  | .allocWait p n => p == q && n == seq
  | _ => false

/-- The claim of a waiting ALLOC goes. -/
def State.dropClaim (s : State) (q : QNum) (seq : Nat) : State :=
  s.setTiers { s.tiers with extents := s.tiers.extents.filter fun e => !e.use.isClaim q seq }

/-- A waiting ALLOC whose leaves are zeroed completes, judged against the quota then in force (R672, R680); in a frozen quire
too, without a completion (R296, R297). -/
def State.endAllocWait (s : State) (q : QNum) (w : Started) : State :=
  match w.work with
  | .allocWait l unified =>
    if s.piecesZeroed l then
      let s := s.dropClaim q w.entry.seq
      let miss := s.allocMissing q w.entry unified
      if miss ≠ 0 then s.finish q w.entry CS.quota 0 miss
      else
        let g := s.grantLeaves q l unified
        g.2.finish q w.entry CS.ok 0 g.1
    else s
  | _ => s

def State.endAllocWaits (s : State) : State :=
  s.forQ fun s q => (s.quire q).started.foldl (fun s w => s.endAllocWait q w) s

/-! ### FREE (R673 to R675) -/

/-- Pieces of the quire's allocations in the range; none when a leaf of it is no leaf of one. -/
def State.freePieces (s : State) (q : QNum) (a : Addr) (count : Nat) : Option (List (Place × Nat × Nat)) :=
  let flags := fun (p : Place) =>
    let l := (s.extentsOf p (Use.isAlloc q)).filterMap fun e =>
      let lo := max e.first a.leaf
      let hi := min (e.first + e.count) (a.leaf + count)
      if lo < hi then some (p, lo, hi - lo) else none
    if (l.map fun x => x.2.2).sum = count then some l else none
  match a.form with
  | .slice b => flags (.slice b)
  | .commons => flags .commons
  | .t2 => flags .t2
  | .unified =>
    let l := (s.quire q).unified.filter fun u => decide (a.leaf ≤ u.1 ∧ u.1 < a.leaf + count)
    if l.length = count then
      some (l.map fun u => match u.2.home with
        | .commons n => (Place.commons, n, 1)
        | .t2 n => (Place.t2, n, 1)
        | .toCommons n _ => (Place.t2, n, 1)
        | .toT2 n _ => (Place.commons, n, 1))
    else none
  | _ => none

/-- FREE must wait: a running run binds a leaf, a leaf is in transit, or it is a training master (R674, R700, R784). -/
def State.freeHeld (s : State) (q : QNum) (a : Addr) (count : Nat) : Bool :=
  s.leavesBound q a count || s.rangeLocked q a count || s.masterMeets q a count

/-- The leaves are released to the zeroing engine. -/
def State.doFree (s : State) (q : QNum) (a : Addr) (count : Nat) (l : List (Place × Nat × Nat)) : State :=
  let s := s.zeroJob q false l
  if a.form = .unified then
    s.modQuire q fun x => { x with
      unified := x.unified.filter fun u => !decide (a.leaf ≤ u.1 ∧ u.1 < a.leaf + count),
      hints := x.hints.filter fun h => !decide (a.leaf ≤ h.leaf ∧ h.leaf < a.leaf + count) }
  else s

/-- FREE: while it must wait it cannot start, and its ring stays blocked behind it (R279, R674). -/
def free (q : QNum) (r : RingNum) (s : State) : State :=
  match s.startable q r 0x06 with
  | some e =>
    let addr := fieldLe e.bytes 8 8
    let count := fieldLe e.bytes 16 4
    match addrOf addr with
    | none => s.freezeEntry q e FC.format 8
    | some a =>
      match s.freePieces q a count with
      | none =>
        let i := (List.range count).find? fun i => match s.resolve q (a.advance i) with
          | .own _ _ _ => false
          | _ => true
        s.freezeEntry q e FC.foreignLeaf (bits (a.advance (i.getD 0)).encode 43 12)
      | some l =>
        if s.freeHeld q a count then s
        else (s.doFree q a count l).finishNow q r e CS.ok
  | none => s

def execFree (q : QNum) (r : RingNum) (s : State) : Host.Outcome State Fault Refusal := .next (free q r s)

/-! ### COPY (R676 to R678) -/

def Form.isT4 : Form → Bool
  | .t4 => true
  | _ => false

/-- The first position of a range whose leaf the quire may not touch; a T4 leaf beyond the window is judged by R678. -/
def State.firstForeign (s : State) (q : QNum) (a : Addr) (count : Nat) (dst : Bool) : Option Nat :=
  if a.form.isT4 then none
  else (List.range count).find? fun i =>
    match s.resolve q (a.advance i) with
    | .own _ _ _ => false
    | .t3 _ _ => dst
    | .t4 _ => false
    | .foreign => true

/-- The frame a position of a COPY reads; a T4 frame comes with the command (log entry 6). -/
def State.copyFrame (s : State) (q : QNum) (a : Addr) (t4 : List Byte) (i : Nat) : Mem :=
  match s.resolve q (a.advance i) with
  | .own p n _ => s.leaf p n
  | .t3 e n => s.libFrame e n
  | .t4 _ => Mem.ofList (bytesAt t4 (i * leafBytes) leafBytes)
  | .foreign => []

/-- The leaf read is execute-only (R568, R570). -/
def State.locXo (s : State) : Loc → Bool
  | .own p n _ => s.isXo p n
  | .t3 e n => (s.lib e).man.xoStripe (n / 32)
  | _ => false

/-- The T3 identity of a range leaf goes with any other write to it (R686). -/
def State.forgetIdent (s : State) (q : QNum) (addr : Nat) : State :=
  s.modQuire q fun x => { x with runs := x.runs.map fun r => { r with rangeIds := Tab.put r.rangeIds addr none } }

/-- A frame arrives at a destination leaf. -/
def State.putFrame (s : State) (q : QNum) (a : Addr) (f : Mem) : State :=
  match s.resolve q a with
  | .own p n _ => ((s.setLeaf p n f).setXo p n false).forgetIdent q a.encode
  | .t4 n => s.writeT4 q n f
  | _ => s

/-- DMA reads of the leaves of a range that lie in T4 (R260). -/
def State.readT4s (s : State) (q : QNum) (a : Addr) (count : Nat) : State :=
  (List.range count).foldl (fun s i =>
    match s.resolve q (a.advance i) with
    | .t4 n => s.readT4 q n
    | _ => s) s

/-- The stripes of T3 leaves that are read without a pool copy are sensed, and count as reads of their bands (R594). -/
def State.senseT3 (s : State) (q : QNum) (a : Addr) (count : Nat) : State :=
  let ks := sortNat ((List.range count).filterMap fun i => match s.resolve q (a.advance i) with
    | .t3 e n => if (s.poolCopy e n).isSome then none else some (n / 32)
    | _ => none)
  match a.form with
  | .t3 h => ks.foldl (fun s k => s.senseStripe (h % 64) k) s
  | _ => s

/-- A source leaf of a speculative range carries a tag: no copy of it is made that the host could read while the scope is
open, in T4 or through BAR2 (R539, R545, R548). -/
def State.copyTagged (s : State) (q : QNum) (src : Addr) (count : Nat) : Bool :=
  (s.quire q).runs.any fun r => (List.range count).any fun i => Tab.get r.rangeTags 0 (src.advance i).encode != 0

/-- The COPY of an entry: it freezes, ends, waits, or moves every frame as though read before any is written. -/
def State.copyBody (s : State) (q : QNum) (e : Entry) (t4 : List Byte) (wait : State → State)
    (done : State → Nat → Nat → State) : State :=
  let src := fieldLe e.bytes 8 8
  let dst := fieldLe e.bytes 16 8
  let count := fieldLe e.bytes 24 4
  match addrOf src, addrOf dst with
  | some a, some b =>
    match s.firstForeign q a count false, s.firstForeign q b count true with
    | some i, _ => s.freezeEntry q e FC.foreignLeaf (bits (a.advance i).encode 43 12)
    | none, some i => s.freezeEntry q e FC.foreignLeaf (bits (b.advance i).encode 43 12)
    | none, none =>
      let win := s.windowLeaves q
      let beyond := fun (x : Addr) (i : Nat) => x.form.isT4 && decide (win ≤ x.leaf + i)
      let past := ((List.range count).filter fun i => beyond a i || beyond b i).length
      if past ≠ 0 then done s CS.quota past
      else if (List.range count).any fun i => s.locXo (s.resolve q (a.advance i)) then s.freezeEntry q e FC.xo
      else if s.rangeLocked q a count ∨ s.rangeLocked q b count ∨ s.copyTagged q a count then wait s
      else
        let frames := (List.range count).map fun i => s.copyFrame q a t4 i
        let s := (s.readT4s q a count).senseT3 q a count
        done ((frames.zip (List.range count)).foldl (fun s p => s.putFrame q (b.advance p.2) p.1) s) CS.ok 0
  | none, _ => s.freezeEntry q e FC.format 8
  | _, none => s.freezeEntry q e FC.format 16

/-- COPY. DESIGN CHOICE (log entry 93): one that meets a leaf in transit waits as a started entry, so its ring goes on. -/
def copy (q : QNum) (r : RingNum) (t4 : List Byte) (s : State) : State :=
  match s.startable q r 0x08 with
  | some e => s.copyBody q e t4 (fun s => s.startEntry q r e .copyWait) (fun s st res => s.finishNow q r e st 0 res)
  | none => s

def execCopy (q : QNum) (r : RingNum) (t4 : List Byte) (s : State) : Host.Outcome State Fault Refusal :=
  .next (copy q r t4 s)

/-! ### MIGRATE_HINT (R695, R699) -/

/-- A hint for one leaf of the range. -/
def State.hintLeaf (s : State) (q : QNum) (a : Addr) (toTier urgency : Nat) : State :=
  match a.form with
  | .unified =>
    if toTier ≠ 1 ∧ s.uPinned q a.leaf then s
    else s.addHint q { leaf := a.leaf, promote := toTier == 1, urgency := urgency, demand := false, passed := [] }
  | .t3 h => if toTier = 1 then s.poolPut (h % 64) a.leaf else s
  | _ => s

/-- MIGRATE_HINT completes once accepted, and signals its DONE_STITCH there; its moves follow and signal nothing (R333, R699;
DESIGN CHOICE, log entry 94). A hint that would read an execute-only T3 leaf freezes the
quire with cause XO (R571), one that names a foreign leaf with cause FOREIGN_LEAF (R666). -/
def migrateHint (q : QNum) (r : RingNum) (s : State) : State :=
  match s.startable q r 0x07 with
  | some e =>
    let addr := fieldLe e.bytes 8 8
    let count := fieldLe e.bytes 16 4
    let toTier := fieldLe e.bytes 20 1
    match addrOf addr with
    | none => s.freezeEntry q e FC.format 8
    | some a =>
      match s.firstForeign q a count false with
      | some i => s.freezeEntry q e FC.foreignLeaf (bits (a.advance i).encode 43 12)
      | none =>
        let t3 := match a.form with | .t3 _ => true | _ => false
        if t3 && toTier == 1 && (List.range count).any (fun i => s.locXo (s.resolve q (a.advance i))) then s.freezeEntry q e FC.xo
        else
          let s := if toTier = 1 then s.senseT3 q a count else s
          let s := (List.range count).foldl (fun s i => s.hintLeaf q (a.advance i) toTier (fieldLe e.bytes 21 1)) s
          (s.finishNow q r e CS.ok).serveHints q
  | none => s

def execMigrateHint (q : QNum) (r : RingNum) (s : State) : Host.Outcome State Fault Refusal := .next (migrateHint q r s)

/-! ### The slice of T1 and T2 that is free (R716) -/

/-- Leaves of a tier neither allocated, reserved, in the pool nor being zeroed. -/
def State.freeLeaves (s : State) (t1 : Bool) : Nat :=
  let total := if t1 then 13897 - s.tiers.poolLeaves else s.rd Key.t2QuotaCap
  let busy := s.tiers.extents.filter fun e => e.place.isT1 == t1
  let claimed := busy.map fun e => match e.use with
    | .allocWait _ _ =>
      e.count - ((s.extentsOf e.place Use.isZeroing).map fun z =>
        min (z.first + z.count) (e.first + e.count) - max z.first e.first).sum
    | _ => e.count
  total - claimed.sum

/-- Leaves awaiting zeroing. -/
def State.zeroBacklog (s : State) : Nat := ((s.tiers.extents.filter fun e => e.use.isZeroing).map Extent.count).sum

end Sys2Proof.Machine
end

