-- ==== Sys2Proof/Machine/Runs.lean ====
section
/-! DEFINITION. Runs of impositions (08): the run-start checks, the start of RUN_IMPOSITION, stamp 0, the completion. -/

namespace Sys2Proof.Machine

/-! ### Weaves (R408) -/

/-- Part `n` of profile `p`'s weave as it runs: until the frame boundary of a switch, the weave it replaces (R409). -/
def State.weavePart (s : State) (p n : Nat) : Nat :=
  match s.switch with
  | some w => if w.source = p ∧ w.oldWeave ≠ [] then w.oldWeave.getD (n - 1) 0 else s.rd (Key.profWeave p n)
  | none => s.rd (Key.profWeave p n)

/-- The assignment code of bank group `g` in slot `n` of profile `p`'s weave. -/
def State.weaveCode (s : State) (p n g : Nat) : Nat :=
  let k := 6 * n + g / 2
  let v := s.weavePart p (k / 256 + 1) / 256 ^ (k % 256) % 256
  if g % 2 = 0 then v % 16 else v / 16

/-- Slots of a frame the quire owns in a bank group under the weave that runs. -/
def State.ownedSlots (s : State) (q : QNum) (g : Nat) : List Nat :=
  (List.range 1024).filter fun n => s.weaveCode s.weave.profile n g == q.val

/-- The largest cyclic gap between the slots of a rising list. -/
def largestGap (l : List Nat) : Nat :=
  match l with
  | [] => 1025
  | a :: _ => ((l.zip (l.tail ++ [a + 1024])).map fun p => p.2 - p.1).foldl max 0

/-! ### The imposition a handle and IMP_NO name (R749) -/

/-- The imposition record, within the handle's variant and of contract CR3. -/
def State.impRec (s : State) (q : QNum) (le n : Nat) : Option ImpRec :=
  let m := (s.lib le).man
  match m.variants[s.rd (Key.qHandleVariant q (le + 1))]?, m.imps[n]? with
  | some v, some r => if v.impFirst ≤ n ∧ n < v.impFirst + v.impCount ∧ r.contract = 3 then some r else none
  | _, _ => none

/-- Slipcase stripes that hold an imposition (R726). -/
def Manifest.impStripes (m : Manifest) (r : ImpRec) : List Nat :=
  upFrom (sectionBase m.sections r.sec + r.firstLeaf / 32) (ceilDiv (ceilDiv r.length 8192) 32)

/-- Bank groups that hold the stripes of a list, under the entry's placement. -/
def LibEntry.groupsOf (x : LibEntry) (l : List Nat) : List Nat := sortNat (l.filterMap (x.man.groupOf x.variant))

/-! ### The binding table (R365, R366, R939) -/

def bindRec (f : Nat → Byte) (k : Nat) : Binding :=
  { kind := fld f (16 * k) 1, bflags := fld f (16 * k + 1) 1, value := fld f (16 * k + 4) 4, addr := fld f (16 * k + 8) 8 }

/-- First reserved field of a binding record that is set (R939). -/
def bindReserved (f : Nat → Byte) (k : Nat) : Option Nat :=
  let b := bindRec f k
  if 3 < b.kind then some 0
  else if (match b.kind with | 1 => decide (15 < b.bflags) | 2 => decide (1 < b.bflags) | _ => b.bflags != 0) then some 1
  else if fld f (16 * k + 2) 2 ≠ 0 then some 2
  else if (b.kind = 0 ∧ b.value ≠ 0) ∨ (b.kind = 1 ∧ 4095 < b.value) then some 4
  else if b.kind ≠ 2 ∧ b.addr ≠ 0 then some 8
  else none

/-- Binding slots the entries name with the kind each must have: (slot, kind). -/
def Imp.named (x : Imp) : List (Nat × Nat) :=
  x.streams.flatMap fun es => es.flatMap fun w =>
    match kindOf w with
    | some .waitStitch => [(bits w 95 88, 1)]
    | some .signalStitch => [(bits w 95 88, 1)]
    | some .movIn => [(bits w 87 80, 2)]
    | some .movOut => [(bits w 87 80, 2)]
    | some .stream => [(bits w 87 80, 3)]
    | some .specBegin => (bits w 91 84, 2) :: (if bits w 83 76 = 0xFF then [] else [(bits w 83 76, 2)])
    | _ => []

/-- R366 in record order: the offset of the first failing field. -/
def State.bindFail (s : State) (x : Imp) (count : Nat) (f : Nat → Byte) : Option Nat :=
  if count < x.hdr.bindings then some (16 * count)
  else
    let names := x.named
    (List.range x.hdr.bindings).findSome? fun k =>
      let b := bindRec f k
      if (k < x.hdr.stitches ∧ b.kind ≠ 1) ∨ names.any (fun n => n.1 == k && n.2 != b.kind) then some (16 * k)
      else if b.kind = 1 ∧ b.bflags ≠ 0 ∧ ¬ (s.stitch b.value).spec then some (16 * k + 1)
      else if b.kind = 2 ∧ (addrOf b.addr).isNone then some (16 * k + 8)
      else none

/-- A LEAVES binding lies wholly in T1 or wholly in T2: it ends within the slice, the commons or T2 (R661). -/
def State.oneTier (s : State) (q : QNum) (b : Binding) : Bool :=
  match addrOf b.addr with
  | none => false
  | some a =>
    match a.form with
    | .slice _ => decide (a.leaf + b.value ≤ 1489)
    | .commons => decide (a.leaf + b.value ≤ 1985)
    | .t2 => decide (a.leaf + b.value ≤ s.rd Key.t2QuotaCap)
    | .unified =>
      let tier := fun i => match s.resolve q (a.advance i) with
        | .own p _ _ => some p.isT1
        | _ => none
      (List.range b.value).all (fun i => tier i == some true) || (List.range b.value).all fun i => tier i == some false
    | _ => false

def rangesMeet (a b : Binding) : Bool :=
  match addrOf a.addr, addrOf b.addr with
  | some x, some y => decide (x.form = y.form ∧ x.leaf < y.leaf + b.value ∧ y.leaf < x.leaf + a.value)
  | _, _ => false

/-- R543, rule by rule (R936). -/
def State.specBindFail (s : State) (q : QNum) (x : Imp) (f : Nat → Byte) : Option Nat :=
  let rec_ := bindRec f
  let slots := List.range x.hdr.bindings
  let rs := x.ranges
  let isRange := fun k => rs.any fun r => r.1 == k
  let shadow := fun k => x.streams.any fun es => es.any fun w =>
    kindOf w == some .specBegin && bits w 83 76 == k && bits w 83 76 != 0xFF
  let scopesOf := fun k => sortNat ((rs.filter fun r => r.1 == k).map fun r => r.2)
  let stitch := slots.findSome? fun k =>
    if (rec_ k).kind = 1 then
      let st := s.stitch (rec_ k).value
      match x.slotScope k with
      | some (some sc) => if (rec_ k).bflags = 2 ^ sc ∧ st.spec then none else some (16 * k + 1)
      | _ => if (rec_ k).bflags = 0 ∧ ¬ st.spec then none else some (16 * k + 1)
    else none
  let kind := slots.findSome? fun k =>
    if ¬ isRange k then none
    else if (rec_ k).kind ≠ 2 then some (16 * k)
    else if ¬ bit (rec_ k).bflags 0 then some (16 * k + 1)
    else if ¬ s.oneTier q (rec_ k) then some (16 * k + 8)
    else none
  let size := slots.findSome? fun k =>
    if shadow k ∧ ((rec_ k).value = 0 ∨ (rec_ k).value % 8 ≠ 0) then some (16 * k + 4) else none
  let disjoint := slots.findSome? fun k =>
    if isRange k ∧ (1 < (scopesOf k).length ∨ slots.any fun j => j != k && (rec_ j).kind == 2 && rangesMeet (rec_ k) (rec_ j))
    then some (16 * k + 8) else none
  let staging :=
    if ((slots.filter isRange).map fun k => (rec_ k).value).sum < x.hdr.specStage then
      some (16 * ((slots.find? isRange).getD 0) + 4) else none
  stitch <|> kind <|> size <|> disjoint <|> staging

/-- The run-start checks (R421, R936): code and offset of the first failure. -/
def State.runStartFail (s : State) (q : QNum) (x : Imp) (groups : List Nat) (step count : Nat) (f : Nat → Byte) :
    Option Failure :=
  let h := x.hdr
  match (List.range (min count h.bindings)).findSome? fun k => (bindReserved f k).map fun o => 16 * k + o with
  | some o => some (VC.reserved, o)
  | none =>
    match s.bindFail x count f <|> (if h.usesSpec then s.specBindFail q x f else none) with
    | some o => some (VC.binding, o)
    | none =>
      if groups.any fun g => decide ((s.ownedSlots q g).length < h.streamSlots) then some (VC.weaveClass, 40)
      else if groups.any fun g => decide (h.weaveGap < largestGap (s.ownedSlots q g)) then some (VC.weaveClass, 42)
      else if h.compiledStep < step then some (VC.clockStep, 22)
      else none

/-- A failed check of an imposition freezes the quire and fills the validation entries (R421, R423). -/
def State.valFail (s : State) (q : QNum) (e : Entry) (handle impNo : Nat) (c : Failure) (bay : Nat := 0xFF)
    (entry : Nat := 0xFFFFFFFF) (cycle : Nat := 0) : State :=
  (s.wrs [(Key.qValCode q, c.1), (Key.qValImp q, impNo), (Key.qValHandle q, handle), (Key.qValOffset q, c.2)]).freeze q
    FC.format (bay := bay) (ring := e.ring.val) (imp := entry) (cycle := cycle) (cid := e.cid) (sqi := e.slot)
    (detail := c.2)

/-! ### The reservation (R418 step 4, R938) -/

/-- Leaves for a reservation: free ones and the quire's own released reservations, else also ones awaiting zeroing. -/
def State.reservePick (s : State) (q : QNum) (p : Place) (n : Nat) : List (Nat × Nat) :=
  let a := s.pickLeaves p n (Use.blocksReserve q)
  if gapSum a = n then a else s.pickLeaves p n Use.taken

def Use.isOwnReleased (q : QNum) : Use → Bool
  | .zeroing p run => run && p == q
  | _ => false

def Use.isRun (q : QNum) (id : Nat) : Use → Bool
  | .reserve p n => p == q && n == id
  | _ => false

def State.reservePlace (s : State) (q : QNum) (id : Nat) (p : Place) (n : Nat) : Option State :=
  let l := s.reservePick q p n
  if gapSum l < n then none
  else some (l.foldl (fun s g =>
    (s.cut p g.1 g.2 (Use.isOwnReleased q)).addExtent { place := p, first := g.1, count := g.2, use := .reserve q id }) s)

/-- The reservation of a run; none on a shortfall (R681). -/
def State.reserveRun (s : State) (q : QNum) (id : Nat) (bays : List BayNum) (slice commons : Nat) : Option State :=
  if s.headT1 q < slice * bays.length + commons then none
  else
    bays.foldl (fun o b => o.bind fun s => s.reservePlace q id (.slice b) slice) (s.reservePlace q id .commons commons)

/-- The reservation goes to the zeroing engine (R938). -/
def State.releaseRun (s : State) (q : QNum) (id : Nat) : State :=
  let l := (s.tiers.extents.filter fun e => e.use.isRun q id).map fun e => (e.place, e.first, e.count)
  s.zeroJob q true l

/-! ### RUN_IMPOSITION (R274, R275, R282, R285, R418) -/

/-- The bays an entry names, as positions among the quire's (R275). -/
def namedBays (mask bays : Nat) : List Nat := if mask = 0 then List.range bays else (List.range 8).filter fun i => bit mask i

def State.bayBusy (s : State) (q : QNum) (b : BayNum) : Bool := (s.quire q).runs.any fun r => r.bays.contains b

/-- A sense request joins the quire's queue of a bank group (R411). -/
def State.queueSense (s : State) (q : QNum) (g : Nat) (r : SenseReq) : State :=
  let k := q.val * 12 + g
  s.setWeave { s.weave with queues := Tab.put s.weave.queues k (some (Tab.get s.weave.queues [] k ++ [r])) }

/-- What a bay's imposition cache holds when it is ready for a run: the imposition, and the bay's own stream (R363). -/
def State.cacheFor (s : State) (r : Run) (b : BayNum) : Nat × Nat × Nat × Nat :=
  (r.handle % 64, (s.lib (r.handle % 64)).generation, r.impNo, r.rel b)

/-- The cache loads of a bay, relative bay `rel` of the run (R363, R364). -/
def State.loadCache (s : State) (q : QNum) (id le impNo : Nat) (rec_ : ImpRec) (rel : Nat) (b : BayNum) : State :=
  let x := s.lib le
  if (s.bay b).cache = some (le, x.generation, impNo, rel) then s
  else
    let s := s.modBay b fun y => { y with cache := none }
    (x.man.impStripes rec_).foldl (fun s k =>
      match x.man.groupOf x.variant k with
      | some g => s.queueSense q g { entry := le, stripe := k, what := .cacheLoad b id, retries := 0, leaves := List.range 32 }
      | none => s) s

/-- Leaves of a binding table of `n` records, by their place in it. -/
def tableLeaves (n : Nat) : List Nat := List.range (ceilDiv (16 * n) 8192)

/-- The binding table as the quire may read it: its bytes, or the freeze a leaf of it earns (the leaf, and the cause). No
record is read of an imposition without bindings (R939). A table in T4 comes with the command (log entry 6). -/
def State.bindBytes (s : State) (q : QNum) (addr n : Nat) (t4 : List Byte) : (Nat → Byte) ⊕ (Nat × Nat) :=
  if n = 0 then .inl fun _ => 0
  else
  match addrOf addr with
  | none => .inr (FC.format, 16)
  | some a =>
    match (tableLeaves n).find? fun i => s.resolve q (a.advance i) == .foreign with
    | some i => .inr (FC.foreignLeaf, bits (a.advance i).encode 43 12)
    | none =>
      if (tableLeaves n).any fun i => s.locXo (s.resolve q (a.advance i)) then .inr (FC.xo, 0)
      else .inl fun i =>
        match s.resolve q (a.advance (i / 8192)) with
        | .t4 _ => t4.getD i 0
        | _ => Mem.read (s.copyFrame q (a.advance (i / 8192)) [] 0) (256 + i % 8192)

/-- The late wakes of a quire are judged at the first run after each GRANT (R420). -/
def State.judgeWake (s : State) (q : QNum) (budget : Nat) : State :=
  match (s.quire q).grantUs with
  | some us =>
    let s := s.modQuire q fun x => { x with grantUs := none }
    if budget < us then s.count (Key.qWakesLate q) else s
  | none => s

/-- Steps 3 to 5 of R418 for a run whose bays are free. -/
def State.startRun (s : State) (q : QNum) (r : RingNum) (e : Entry) (le : Nat) (rec_ : ImpRec) (bays : List BayNum)
    (t4 : List Byte) : State :=
  let handle := fieldLe e.bytes 8 4
  let impNo := fieldLe e.bytes 12 2
  let x := s.lib le
  let f := s.impBytes le rec_
  let imp := parseImp f
  let h := imp.hdr
  let count := fieldLe e.bytes 24 2
  let addr := fieldLe e.bytes 16 8
  let groups := sortNat (((List.range 12).filter fun g => bit h.bgMask g) ++ x.groupsOf (x.man.impStripes rec_))
  let read := min count h.bindings
  match s.bindBytes q addr read t4 with
  | .inr c => s.freezeEntry q e c.1 c.2
  | .inl tb =>
    let s := match addrOf addr with
      | some a => s.readT4s q a (tableLeaves read).length
      | none => s
    match s.runStartFail q imp groups (s.rd (Key.profClockStep s.part (q.val + 1))) count tb with
    | some c => s.valFail q e handle impNo c
    | none =>
      let id := (s.quire q).nextRun
      match s.reserveRun q id bays h.t1Slice h.t1Commons with
      | none => s.freezeEntry q e FC.quota
      | some s =>
        let binds := (List.range h.bindings).map (bindRec tb)
        let ranges := imp.ranges.filterMap fun p => (binds[p.1]?).map fun b => (b.addr, b.value)
        let run : Run :=
          { id := id, entry := e, handle := handle, impNo := impNo, bays := bays, hdr := h,
            entries := (List.range h.total).map fun k => BitVec.ofNat 128 (entryNat f k), arms := imp.arms, binds := binds,
            live := false, slipCycles := 0, slips := 0, slipping := none, fork := none, fallback := false,
            ioError := false, deadline := false, scopes := [], rangeTags := [], rangeIds := [], ranges := ranges,
            specLeaves := [] }
        let s := s.startEntry q r e (.run id)
        let s := s.modQuire q fun y => { y with runs := y.runs ++ [run], nextRun := id + 1 }
        let s := s.setNv { s.nv with claims := s.nv.claims ++ groups.map fun g => (g, q, id) }
        let s := s.judgeWake q h.wakeBudget
        (bays.zip (List.range bays.length)).foldl (fun s p => s.loadCache q id le impNo rec_ p.2 p.1) s

/-- What a RUN_IMPOSITION entry that may start comes to: its completion, a format error, a wait for bays, or the start. -/
inductive RunPlan where
  | ends (status : Nat)
  | format
  | waits (bays : List BayNum)
  | starts (le : Nat) (rec_ : ImpRec) (bays : List BayNum)
  deriving DecidableEq, Repr

/-- Handle (R767, R768) and IMP_NO, then the bays: granted, running and free of the quire's other runs (R282, R285). -/
def State.runPlan (s : State) (q : QNum) (e : Entry) : RunPlan :=
  match s.validHandle q (fieldLe e.bytes 8 4) with
  | none => .ends CS.noHandle
  | some le =>
    if (s.lib le).state = .relocating ∨ (s.lib le).state = .stranded then .ends CS.noSpace
    else if s.rd (Key.qHandleVariant q (le + 1)) = 0xFF then .ends CS.noFit
    else
    match s.impRec q le (fieldLe e.bytes 12 2) with
    | none => .ends CS.noHandle
    | some rec_ =>
      let mask := fieldLe e.bytes 14 1
      let need := fld (s.impBytes le rec_) 6 1
      let owned := s.quireBays q
      let named := namedBays mask need
      let bays := named.filterMap fun i => owned[i]?
      if s.shortSet q ∧ s.refusesWake q then .ends CS.bayShort
      else if bays.length < named.length then
        if s.rdB (Key.profDegradeOk s.part) then .waits bays else .ends CS.bayShort
      else if named.length ≠ need then .format
      else if ¬ (s.quire q).granted ∨ s.switch.isSome ∨ bays.any (fun b => s.bayBusy q b || (s.bay b).power != .running)
      then .waits bays
      else .starts le rec_ bays

/-- Bays a fetched entry waits for or would start on. -/
def RunPlan.bays : RunPlan → List BayNum
  | .waits l => l
  | .starts _ _ l => l
  | _ => []

/-- A fetched RUN_IMPOSITION at the front of a lower-numbered ring waits for one of the bays: it starts first (R282). -/
def State.bayAhead (s : State) (q : QNum) (r : RingNum) (bays : List BayNum) : Bool :=
  ([0, 1, 2, 3] : List RingNum).any fun r' => decide (r' < r) &&
    match ((s.quire q).ring r').fetched with
    | e :: _ => e.opcode == 0x01 && (s.runPlan q e).bays.any fun b => bays.contains b
    | [] => false

/-- RUN_IMPOSITION: handle and bays, then the checks, the reservation and the cache load. -/
def runImposition (q : QNum) (r : RingNum) (bindTable : List Byte) (s : State) : State :=
  match s.startable q r 0x01 with
  | none => s
  | some e =>
    match s.runPlan q e with
    | .ends status => s.finishNow q r e status
    | .format => s.freezeEntry q e FC.format 14
    | .waits _ => s
    | .starts le rec_ bays => if s.bayAhead q r bays then s else s.startRun q r e le rec_ bays bindTable

def execRunImposition (q : QNum) (r : RingNum) (bindTable : List Byte) (s : State) : Host.Outcome State Fault Refusal :=
  .next (runImposition q r bindTable s)

/-! ### Stamp 0 (R418 step 6, R379, R404, R496, R526, R937) -/

/-- A bay at stamp 0 of a run. -/
def Bay.atZero (x : Bay) (q : QNum) (id epoch : Nat) : Bay :=
  let tags := (List.range 8).map fun a => (a, epoch)
  { x with
    engines := Vector.replicate 4 { Engine.reset with epochTag := if epoch = 0 then [] else tags },
    racc := [], sets := Vector.replicate 4 StatSet.reset, dregs := [], dregDue := [], moverFree := 0,
    moverCause := .slice, ready := [], late := [], tags := [], seq := { Seq.reset with run := some (q, id) }, epoch := epoch,
    fences := [], moves := [], t0Of := some q }

/-- Every condition of stamp 0 holds: caches loaded, reserved leaves zeroed, no continuous operation in a claimed group
(R364, R418, R564). -/
def State.zeroReady (s : State) (q : QNum) (r : Run) : Bool :=
  (r.bays.all fun b => (s.bay b).cache == some (s.cacheFor r b) && (s.bay b).power == .running) &&
  ((s.tiers.extents.filter fun e => e.use.isRun q r.id).all fun e => !s.unzeroed e.place e.first e.count) &&
  !s.runHeld q r.id

/-- STAMP_ZERO: the run's bays start together; the late-fetch policy in force now is the run's (R704). -/
def stampZero (q : QNum) (run : Nat) (s : State) : State :=
  match s.run q run with
  | none => s
  | some r =>
    if r.live ∨ ¬ s.zeroReady q r ∨ (s.quire q).state = .frozen ∨ (s.quire q).state = .resetting then s
    else
      let s := r.bays.foldl (fun s b => s.modBay b fun x => x.atZero q run (r.hdr.epochStart % 16)) s
      (s.modRun q run fun r => { r with live := true, deadline := s.rd (Key.qLatePolicy q) == 1 }).count (Key.qRuns q)

def execStampZero (q : QNum) (run : Nat) (s : State) : Host.Outcome State Fault Refusal := .next (stampZero q run s)

/-! ### Completion (R419, R398, R544) -/

/-- A slot of a bay still waits for an event. -/
def Bay.slotOpen (x : Bay) : Bool := x.slots.any fun e => e.2.arriving.isSome && e.2.due.isNone

/-- Every bay has issued END, every scope has closed and every operation the run started has finished (R419, R544). -/
def State.runDone (s : State) (r : Run) : Bool :=
  r.live && r.slipping.isNone && r.scopes.all (fun c => c.closed) && r.bays.all fun b => (s.bay b).seq.ended && (s.bay b).moves.isEmpty && !(s.bay b).slotOpen

/-- A run leaves the quire: its bays are free, its claims and reservation go, pool copies it held may go (R419, R559,
R693, R938). -/
def State.retireRun (s : State) (q : QNum) (r : Run) : State :=
  let s := r.bays.foldl (fun s b => s.modBay b fun x => { x with seq := Seq.reset }) s
  let s := s.modQuire q fun x => { x with runs := x.runs.filter fun y => y.id != r.id }
  let s := s.setNv { s.nv with claims := s.nv.claims.filter fun c => !(c.2.1 == q && c.2.2 == r.id) }
  (s.releaseRun q r.id).dropStale

/-- The last elapsed cycle of a run that the model knows: the latest event of its bays, and the cycle-exact moves still
under way then (R387, R419). -/
def State.lastCycle (s : State) (r : Run) : Nat :=
  r.bays.foldl (fun m b => (s.bay b).slots.foldl (fun m e =>
    max (max m (e.2.due.getD 0)) ((e.2.leaving.bind fun p => p.2).getD 0)) m) (s.elapsed r)

/-- RUN_COMPLETE: RESULT the slip count, DETAIL FALLBACK and SLIPPED, IO_ERROR where an error was met. `us` is the wall
time since stamp 0; `tail`, the bay cycles that passed after the last cycle known until the last operation finished (R387);
`parity`, a datapath parity error found in the run (R901). -/
def runComplete (q : QNum) (run us tail : Nat) (parity : Bool) (s : State) : State :=
  match s.run q run with
  | none => s
  | some r =>
    if ¬ s.runDone r ∨ (s.quire q).state = .frozen then s
    else
      let s := if parity then (match r.bays with | b :: _ => s.bayParity b | [] => s) else s
      let s := s.wrs [(Key.qLastImp q, r.impNo), (Key.qLastHandle q, r.handle), (Key.qLastCycles q, s.lastCycle r + tail),
        (Key.qLastSlip q, r.slipCycles), (Key.qLastUs q, min us 0xFFFFFFFF)]
      let s := s.retireRun q r
      s.finish q r.entry (if r.ioError ∨ parity then CS.ioError else CS.ok)
        ((if r.fallback then 2 else 0) + (if r.slips = 0 then 0 else 4)) r.slips

def execRunComplete (q : QNum) (run : Nat) (times : RunTimes) (parity : Bool) (s : State) :
    Host.Outcome State Fault Refusal := .next (runComplete q run times.us times.tail parity s)

end Sys2Proof.Machine
end

