-- ==== Sys2Proof/Machine/Sequencer.lean ====
section
/-! DEFINITION. The bay sequencers (08, 11, 14): which entry falls due, slips, the issue of every entry, the arrival of
leaves that are not cycle-exact, and the hard bound. -/

namespace Sys2Proof.Machine

/-! ### Which entry falls due (R383 to R385, R534) -/

/-- The entry that bay `b` issues now, if it is the one its run issues next and the run does not slip. -/
def State.due (s : State) (b : BayNum) : Option Due :=
  match (s.bay b).seq.run with
  | none => none
  | some (q, id) =>
    match s.run q id with
    | none => none
    | some r =>
      if ¬ r.live ∨ r.slipping.isSome ∨ (s.quire q).state = .frozen ∨ (s.quire q).state = .resetting ∨
          (s.bay b).power ≠ .running then none
      else
        match s.runNext q r with
        | some d => if d.b = b ∧ d.inBound 0 ∧ ¬ s.overdue r d.elapsed then some d else none
        | none => none

/-- The entry as its unit sees it (R370, R523). -/
def State.issueOf (s : State) (d : Due) : Issue :=
  { b := d.b, w := d.w, t := d.t, odd := ((s.bay d.b).seq.loops.get 0).iteration % 2 == 1,
    scope := (d.run.scopes.filter fun c => !c.closed && c.bays.contains d.b).foldl (fun m c => m ||| 2 ^ c.id) 0 }

/-! ### Slips (R388 to R390, R683) -/

/-- T0 slots an entry reads or writes. -/
def slotsOf (k : Kind) (i : Issue) : List Nat :=
  match k with
  | .teBuild => [i.ts 81]
  | .teLookup => [i.ts 81]
  | .teRescale => [i.ts 78, i.ts 69]
  | .escApply => [i.ts 81, i.ts 74]
  | .lnsMul => [i.ts 81, i.ts 74, i.ts 67]
  | .lnsAdd => [i.ts 81, i.ts 74, i.ts 67]
  | .lnsReduce => [i.ts 81, i.ts 67]
  | .lnsFromlin => [i.ts 81, i.ts 67]
  | .lnsTolin => [i.ts 81, i.ts 67]
  | .refFma => [i.ts 81, i.ts 74]
  | .refCast => [i.ts 78]
  | .refTopk => i.ts 81 :: (if bit i.w 69 then [i.ts 70] else [])
  | .convPass1 => [i.ts 81]
  | .convPass2 => [i.ts 81, i.ts 72]
  | .convCarry => [i.ts 81, i.ts 74, i.ts 67]
  | .convStats => [i.ts 79]
  | .movIn => upFrom (i.ts 49) (bits i.w 48 45 + 1)
  | .movOut => upFrom (i.ts 49) (bits i.w 48 45 + 1)
  | .stream => upFrom ((bits i.w 52 47 + if bit i.w 46 ∧ i.odd then 32 else 0) % 64) (bits i.w 45 40 + 1)
  | _ => []

def isMove (k : Kind) : Bool := k == .movIn || k == .movOut

/-- Queued moves of a leaf mover (R683). -/
def Bay.movesQueued (x : Bay) : Nat := (sortNat (x.moves.map Move.op)).length

/-- What holds a due entry: cycle-exact ends (the last elapsed cycle held, cause) and the sources of events. -/
structure Holds where
  exact : List (Nat × SlipCause)
  events : List SlipCause
  deriving DecidableEq, Repr

def State.holdsOf (s : State) (d : Due) (k : Kind) : Holds :=
  let x := s.bay d.b
  let e := d.elapsed
  let marks := (slotsOf k (s.issueOf d)).flatMap fun n =>
    let m := x.slot n
    (match m.arriving with | some c => [(c, m.due)] | none => []) ++ m.leaving.toList
  let mover := isMove k && decide (e < x.moverFree)
  { exact := marks.filterMap (fun p => match p.2 with
      | some u => if e ≤ u then some (u, p.1) else none
      | none => none) ++ (if mover then [(x.moverFree - 1, x.moverCause)] else []),
    events := marks.filterMap (fun p => if p.2.isNone then some p.1 else none) ++
      (if isMove k && decide (16 ≤ x.movesQueued) then (x.moves.head?.map Move.cause).toList else []) }

/-- The last of the cycle-exact ends. -/
def lastExact (l : List (Nat × SlipCause)) : Option (Nat × SlipCause) :=
  l.foldl (fun o p => match o with | none => some p | some m => if m.1 < p.1 then some p else some m) none

def slipSub : SlipCause → Nat
  | .slice => 1
  | .commons => 2
  | .t2 => 3
  | .t3 => 4
  | .t4 => 5
  | .wait => 6

/-- The run starts to slip. -/
def State.startSlip (s : State) (d : Due) (c : Option SlipCause) : State :=
  s.modRun d.q d.run.id fun r => { r with slipping := some c }

def State.modSeq (s : State) (b : BayNum) (f : Seq → Seq) : State := s.modBay b fun x => { x with seq := f x.seq }

/-- The sequencer moves past an issued entry. -/
def State.advance (s : State) (d : Due) : State :=
  s.modSeq d.b fun x => { x.goto (d.pc + 1) with stamp := d.t, gap := 0 }

/-- A due entry of kind `k` issues with effect `f`, or its run starts to slip; what is not due leaves the state as it
is (log entry 3). -/
def State.issue (s : State) (b : BayNum) (k : Kind) (f : Due → State → State) : State :=
  match s.due b with
  | none => s
  | some d =>
    if entryKind d.w ≠ some k then s
    else if (s.bay b).seq.wait.isSome then s.startSlip d (some .wait)
    else
      let h := s.holdsOf d k
      match h.events, h.exact with
      | [], [] => f d (s.advance d)
      | c :: _, _ => s.startSlip d (some c)
      | [], _ :: _ => s.startSlip d none

/-- A unit operation issues. -/
def State.issueUnit (s : State) (b : BayNum) (k : Kind) (f : Issue → State → State) : State :=
  s.issue b k fun d t => f (s.issueOf d) t

/-- What holds the entries that fall due together with `d`. -/
def State.holdsAll (s : State) (d : Due) : List Holds :=
  (s.together d).filterMap fun x => (entryKind x.w).map (s.holdsOf x)

/-- A bay of the run whose next entry is due with `d` is held in a wait. -/
def State.waitHolds (s : State) (d : Due) : Bool := (s.together d).any fun x => (s.bay x.b).seq.wait.isSome

/-- Cycles a slip that an event ended has lasted at least: every timeout acted on in it has run out, and the run resumes in
the cycle after the outcome of the wait that held it (R389). -/
def State.slipFloor (s : State) (d : Due) : Nat :=
  d.run.bays.foldl (fun m b =>
    max m ((s.bay b).seq.waited + (if (s.together d).any (fun x => x.b == b) then 1 else 0) - d.elapsed)) 1

/-- SLIP_END: the last slot has arrived, or the wait has ended, and the run goes on (R388 to R390): every entry that falls
due in the cycle is free. An event ends the slip after `cycles`; a cycle-exact arrival, in the cycle after it. -/
def slipEnd (q : QNum) (run cycles : Nat) (s : State) : State :=
  match s.run q run with
  | none => s
  | some r =>
    match r.slipping, s.runNext q r with
    | some inner, some d =>
        let hs := s.holdsAll d
        if s.waitHolds d ∨ hs.any (fun h => h.events != []) then s
        else
          let exact := match lastExact (hs.flatMap Holds.exact) with
            | some (u, c) => (u + 1 - d.elapsed, c)
            | none => (0, SlipCause.wait)
          let n := max (s.slipFloor d) cycles
          let slip := match inner with
            | none => exact
            | some c => if exact.1 < n then (n, c) else exact
          if slip.1 = 0 ∨ ¬ d.inBound slip.1 ∨ s.overdue r (d.elapsed + slip.1) then s
          else
            let s := s.modRun q run fun r => { r with
              slipping := none, slipCycles := r.slipCycles + slip.1, slips := r.slips + 1 }
            (s.count (Key.qSlipCount q (slipSub slip.2))).count (Key.qSlipCycles q (slipSub slip.2)) slip.1
    | _, _ => s

def execSlipEnd (q : QNum) (run cycles : Nat) (s : State) : Host.Outcome State Fault Refusal := .next (slipEnd q run cycles s)

/-- An event has ended at a slot, or freed a place of a leaf mover, that holds a slipping run: it may be the last
(R390). -/
def State.noteEvent (s : State) (b : BayNum) (slot : Nat) (c : SlipCause) (freed : Bool) : State :=
  match (s.bay b).seq.run with
  | none => s
  | some (q, id) =>
    match s.run q id with
    | none => s
    | some r =>
      match r.slipping, s.runNext q r with
      | some _, some d =>
        if (s.together d).any (fun x => x.b == b && match entryKind x.w with
            | some k => (slotsOf k (s.issueOf x)).contains slot || (freed && isMove k)
            | none => false) then
          s.modRun q id fun r => { r with slipping := some (some c) }
        else s
      | _, _ => s

/-! ### Errors at an entry -/

/-- The run's completion carries IO_ERROR. -/
def State.runError (s : State) (q : QNum) (id : Nat) : State := s.modRun q id fun r => { r with ioError := true }

/-- An uncorrectable word of T0, T1 or an imposition cache: counted, alerted, and the run goes on (R896, R897, R909). -/
def State.sramError (s : State) (q : QNum) (id : Nat) : State :=
  ((s.count Key.sramUncorr).alert AL.sramUncorr).runError q id

def State.fabricError (s : State) (q : QNum) (id : Nat) : State :=
  ((s.count Key.fabricUncorr).alert AL.fabricUncorr).runError q id

/-! ### What an entry may violate (R299, R372, R406, R414, R415, R421, R512, R540 to R542, R571, R681, R690) -/

def Bay.epochAt (x : Bay) (t : Nat) : Nat := (x.epoch + (x.fences.filter fun f => f ≤ t).length) % 16

/-- The accumulator's tag or the epoch register differs from EPOCH (R406). -/
def State.epochBad (s : State) (i : Issue) (acc epoch : Nat) : Bool :=
  let x := s.bay i.b
  epoch != x.epochAt i.t || epoch != Tab.get (x.engines.get i.engine).epochTag 0 acc

/-- The index a leaf reference or a STREAM's stripe advances by (R371). -/
def State.loopIndex (s : State) (b : BayNum) (enable : Bool) (level : Nat) : Nat :=
  let l := (s.bay b).seq.loops.get (Fin.ofNat 4 level)
  if enable then l.iteration * l.stride else 0

/-- The path of a move by where its first leaf resolves (R682): cycles of a cycle-exact leaf, cause, over the fabric. -/
inductive Path where
  | slice
  | commons
  | t2
  | t4
  | t3
  deriving DecidableEq, Repr

def Path.occ : Path → Option Nat
  | .slice => some 64
  | .commons => some 1584
  | _ => none

def Path.cause : Path → SlipCause
  | .slice => .slice
  | .commons => .commons
  | .t2 => .t2
  | .t4 => .t4
  | .t3 => .t3

def State.pathOf (s : State) (b : BayNum) (l : Loc) : Path :=
  match l with
  | .own (.slice c) _ _ => if c = b then .slice else .commons
  | .own .commons _ false => .commons
  | .own _ _ _ => .t2
  | .t4 _ => .t4
  | .t3 e n => if (s.poolCopy e n).isSome then .commons else .t3
  | .foreign => .t2

/-- The address is in a leaf range a SPEC_BEGIN of the run names (R526). -/
def Run.inRanges (r : Run) (addr : Nat) : Bool :=
  r.ranges.any fun p => match addrOf p.1, addrOf addr with
    | some x, some a => decide (x.form = a.form ∧ x.leaf ≤ a.leaf ∧ a.leaf < x.leaf + p.2)
    | _, _ => false

def Run.bindRange (r : Run) (k : Nat) : Nat × Nat := (r.binds[k]?.map fun b => (b.addr, b.value)).getD (0, 0)

/-- The address lies in a range of a scope of the tag (R540). -/
def Run.inTagRanges (r : Run) (tag addr : Nat) : Bool :=
  let rs := (r.scopes.filter fun c => bit tag c.id).flatMap fun c =>
    r.bindRange c.stageBind :: (if c.kind = 1 then [r.bindRange c.shadowBind] else [])
  Run.inRanges { r with ranges := rs } addr

/-- Leaves of a move: (slot, address). -/
def movePairs (slot count : Nat) (a : Addr) : List (Nat × Addr) := (List.range count).map fun j => (slot + j, a.advance j)

/-- The leaves an LREF names and the T0 slots beside them (R371, R376). -/
def State.moveLeaves (s : State) (d : Due) : List (Nat × Addr) :=
  match (d.run.binds[bits d.w 87 80]?).bind fun x => addrOf x.addr with
  | some a =>
    movePairs ((s.issueOf d).ts 49) (bits d.w 48 45 + 1)
      (a.advance (bits d.w 76 56 + s.loopIndex d.b (bit d.w 79) (bits d.w 78 77)))
  | none => []

def SenseReq.isStream (r : SenseReq) : Bool :=
  match r.what with
  | .stream _ _ _ _ _ _ _ => true
  | _ => false

def SenseReq.ofBay (r : SenseReq) (b : BayNum) (run : Nat) : Bool :=
  match r.what with
  | .stream c id _ _ _ _ _ => c == b && id == run
  | _ => false

/-- STREAM requests of a quire standing in a group's queue: those not sensed, and the one whose sense has not ended. -/
def State.streamsStanding (s : State) (q : QNum) (g : Nat) : Nat :=
  ((Tab.get s.weave.queues [] (q.val * 12 + g)).filter SenseReq.isStream).length +
    if s.weave.sensing.contains g then
      (match (Tab.get s.weave.sensed [] g).getLast? with
        | some (.queue p r) => if p = q ∧ r.isStream then 1 else 0
        | _ => 0)
    else 0

/-- Bank groups at which a bay has STREAM requests outstanding. -/
def State.streamGroups (s : State) (q : QNum) (b : BayNum) (run : Nat) : List Nat :=
  (List.range 12).filter fun g =>
    (Tab.get s.weave.queues [] (q.val * 12 + g)).any (fun r => r.ofBay b run) ||
    (Tab.get s.weave.sensed [] g).any fun u => match u with
      | .queue p r => p == q && r.ofBay b run
      | _ => false

/-- The absolute stitch of a STITCH binding. -/
def Run.stitchOf (r : Run) (k : Nat) : Nat := (r.binds[k]?.map fun b => b.value % 4096).getD 0

/-- The resource code of a decision register. -/
def dregRes (cls dreg : Nat) : Nat := if cls = 0 then resSeqDreg else if cls = 4 then resRefDreg dreg else resConvDreg dreg

/-- A decision register as held at the end of the cycle before stamp `t`, and its tag. -/
def State.readDreg (s : State) (b : BayNum) (res t : Nat) : Nat × Nat × State :=
  let s := s.modBay b fun x => x.settleDregs t
  (Tab.get (s.bay b).dregs 0 res, (s.bay b).tag res, s)

/-- The scope a closing entry of the bay closes. -/
def Run.closing (r : Run) (id : Nat) (b : BayNum) : Option Scope := r.scopes.find? fun c => c.id == id && c.bays.contains b

/-- The accepted length of a draft commit, or the failure of R542: the state, the length, whether R538 counts. -/
def State.acceptedLength (s : State) (d : Due) (c : Scope) : State × Option (Nat × Bool) :=
  if bit d.w 81 then (s, some (8, false))
  else
    let v := s.readDreg d.b (dregRes (bits d.w 93 90) (bits d.w 85 82)) d.t
    if tagDrop c.id v.2.1 ≠ 0 then (v.2.2, none)
    else (v.2.2, some (if v.1 ≤ 8 then v.1 else 0, decide (8 < v.1)))

/-- A violation of an entry: its cause, DETAIL, and for a failed issue check the code and the byte of the entry. -/
structure Viol where
  cause : Nat
  detail : Nat
  check : Option (Nat × Nat)
  deriving DecidableEq, Repr

/-- A failed issue check: cause FORMAT, DETAIL the offset of the field in the imposition (R299, R421). -/
def Due.fails (d : Due) (code byte : Nat) : Viol :=
  { cause := FC.format, detail := 256 + 16 * d.idx + byte, check := some (code, byte) }

def violIf (c : Bool) (v : Viol) : List Viol := if c then [v] else []

/-- A leaf no move of the kind may name: foreign, or a T3 leaf as a destination (R666, R690). -/
def State.badLeaf (s : State) (d : Due) (isIn : Bool) (a : Addr) : Bool :=
  match s.resolve d.q a with
  | .foreign => true
  | .t3 _ _ => !isIn
  | _ => false

/-- A leaf outside the engine fetch path: an execute-only leaf may not leave for it (R571, R684). -/
def State.leavesPath (s : State) (d : Due) (a : Addr) : Bool :=
  match s.resolve d.q a with
  | .own .t2 _ lock => !lock
  | .own _ _ lock => lock
  | .t4 _ => true
  | _ => false

/-- The violations of a move, one for each cause: R372 and R540, R666 or R681, R571. -/
def State.moveViols (s : State) (d : Due) (isIn : Bool) : List Viol :=
  match d.run.binds[bits d.w 87 80]? with
  | none => [d.fails VC.operand 10]
  | some bind =>
    let count := bits d.w 48 45 + 1
    let k := bits d.w 76 56 + s.loopIndex d.b (bit d.w 79) (bits d.w 78 77)
    let ls := s.moveLeaves d
    let tagged := fun (p : Nat × Addr) =>
      (s.bay d.b).tag p.1 != 0 && !d.run.inTagRanges ((s.bay d.b).tag p.1) p.2.encode
    (if bind.kind ≠ 2 ∨ bind.value < k + count ∨ (addrOf bind.addr).isNone then [d.fails VC.operand 7]
      else if ¬ isIn ∧ ¬ bit bind.bflags 0 then [d.fails VC.operand 10]
      else if ¬ isIn ∧ ls.any tagged then [d.fails VC.operand 7]
      else []) ++
    (match ls.find? fun p => s.badLeaf d isIn p.2 with
      | some p => [if p.2.form.isT4 then Viol.mk FC.quota 0 none else Viol.mk FC.foreignLeaf (bits p.2.encode 43 12) none]
      | none => []) ++
    violIf (!isIn && ls.any fun p => ((s.bay d.b).slot p.1).xo && s.leavesPath d p.2) (Viol.mk FC.xo 0 none)

/-- The violations of a STREAM (R414, R415, R767). -/
def State.streamViols (s : State) (d : Due) : List Viol :=
  let h := (d.run.binds[bits d.w 87 80]?.map Binding.value).getD 0
  let k := bits d.w 76 57 + s.loopIndex d.b (bit d.w 79) (bits d.w 78 77)
  let g := bits d.w 56 53
  match s.validHandle d.q h with
  | none => [Viol.mk FC.foreignLeaf (bits (Addr.encode { form := .t3 h, leaf := 32 * k }) 43 12) none]
  | some le =>
    let x := s.lib le
    violIf (x.man.groupOf x.variant k != some g || !s.groupInService g || decide (4 ≤ s.streamsStanding d.q g) ||
      decide (2 < (insertNat g (s.streamGroups d.q d.b d.run.id)).length)) (d.fails VC.streamLimit 6)

/-- What an entry violates as it issues, but for the decision of a FORK. -/
def State.viols (s : State) (d : Due) : List Viol :=
  let i := s.issueOf d
  match entryKind d.w with
  | some .teLookup => violIf (s.epochBad i (bits d.w 72 70) (bits d.w 69 66)) (Viol.mk FC.epoch 0 none)
  | some .escApply => violIf (s.epochBad i (bits d.w 73 71) (bits d.w 70 67)) (Viol.mk FC.epoch 0 none)
  | some .convCarry => violIf (i.ts 74 == i.ts 67) (d.fails VC.operand 9)
  | some .movIn => s.moveViols d true
  | some .movOut => s.moveViols d false
  | some .stream => s.streamViols d
  | some .waitStitch =>
    let n := d.run.stitchOf (bits d.w 95 88)
    violIf (!s.mayWait d.q n) (Viol.mk FC.foreignStitch n none)
  | some .signalStitch =>
    let n := d.run.stitchOf (bits d.w 95 88)
    violIf (!s.ownsStitch d.q n) (Viol.mk FC.foreignStitch n none)
  | some .specCommit =>
    match d.run.closing (bits d.w 95 94) d.b with
    | some c => violIf (!c.closed && (s.acceptedLength d c).2.isNone) (d.fails VC.operand 10)
    | none => []
  | _ => []

/-- The violation recorded first of those that fall in one cycle: the lowest bay, then the lowest cause (R37). -/
def firstViol (l : List (Due × Viol)) : Option (Due × Viol) :=
  l.foldl (fun o p =>
    match o with
    | none => some p
    | some m => if p.1.b < m.1.b ∨ (p.1.b = m.1.b ∧ p.2.cause < m.2.cause) then some p else o) none

/-- The entry is held in the cycle by a slot or a wait. -/
def State.held (s : State) (d : Due) : Bool :=
  (s.bay d.b).seq.wait.isSome || match entryKind d.w with
    | some k => (s.holdsOf d k).exact != [] || (s.holdsOf d k).events != []
    | none => false

/-- Entry `d` violates `own` as it issues: the quire freezes, with what the run's other entries of the cycle violate; the
record takes one, and counts the rest (R37, R295, R421); one violation per entry and cause (DEDUCED, log entry 107). -/
def State.violate (s : State) (d : Due) (own : List Viol) : State :=
  let others := (s.together d).filter fun x => !(x.b == d.b && x.pc == d.pc) && !s.held x
  let l := own.map (fun v => (d, v)) ++ others.flatMap fun x => (s.viols x).map fun v => (x, v)
  match firstViol l with
  | none => s
  | some (x, v) =>
    let t := match v.check with
      | some c => s.valFail x.q x.run.entry x.run.handle x.run.impNo (c.1, v.detail) x.b.val x.idx x.elapsed
      | none => s.freeze x.q v.cause (bay := x.b.val) (ring := x.run.entry.ring.val) (imp := x.idx) (cycle := x.elapsed)
          (cid := x.run.entry.cid) (sqi := x.run.entry.slot) (detail := v.detail)
    l.tail.foldl (fun t p => t.freeze p.1.q p.2.cause) t

/-- An entry that violates nothing issues with effect `f`; one that does freezes the quire. -/
def State.issueChecked (s : State) (b : BayNum) (k : Kind) (f : Due → State → State) : State :=
  s.issue b k fun d t => if s.viols d = [] then f d t else s.violate d (s.viols d)

/-! ### Arithmetic entries -/

/-- TE_BUILD -/
def teBuild (b : BayNum) (s : State) : State := s.issueUnit b .teBuild opTeBuild
def execTeBuild (b : BayNum) (s : State) : Host.Outcome State Fault Refusal := .next (teBuild b s)

/-- The bay has left a scope; the last bay to leave drops it. -/
def State.leaveScope (s : State) (d : Due) (c : Scope) : State :=
  s.modRun d.q d.run.id fun r => { r with
    scopes := r.scopes.filterMap fun x =>
      if x.id = c.id ∧ x.bays = c.bays then
        (if x.bays = [d.b] then none else some { x with closed := true, bays := x.bays.filter fun y => y != d.b })
      else some x }

/-- Signals that have arrived are applied before a scope closes (R534). -/
def State.stageFirst (s : State) : State := if s.st.signals = [] then s else comparisonStage s

/-- The bay ends its stream: a scope still open in it is cancelled, as its closing entry will never come (R535). -/
def State.endBay (s : State) (d : Due) : State :=
  let mine := d.run.scopes.filter fun c => c.bays.contains d.b
  let s := if mine.any fun c => !c.closed then s.stageFirst else s
  let s := mine.foldl (fun s c =>
    (if c.closed then s else s.cancelScope d.q ((s.run d.q d.run.id).getD d.run) c).leaveScope d c) s
  s.modBay d.b fun x => { x with seq := { x.seq with stamp := d.t, gap := 0, ended := true } }

/-- The bay issues END in place of an entry its imposition cache has lost (R898, R535). -/
def State.endForError (s : State) (d : Due) : State :=
  ((s.sramError d.q d.run.id).modBay d.b fun x => { x with cache := none }).endBay d

/-- TE_LOOKUP, with the errors of R897, R898 and R901 that it may meet. -/
def teLookup (b : BayNum) (e : BayErr) (s : State) : State :=
  s.issue b .teLookup fun d t =>
    let i := s.issueOf d
    if e.cacheUncorr then s.endForError d
    else if s.viols d ≠ [] then s.violate d (s.viols d)
    else
      let t := if e.parity then (t.bayParity b).runError d.q d.run.id else t
      if e.t0Uncorr then
        let n := i.ts 81
        let f := (t.bay b).frame n
        let t := (t.sramError d.q d.run.id).modBay b fun x => x.setFrame n []
        (opTeLookup i t).modBay b fun x => x.setFrame n f
      else opTeLookup i t

def execTeLookup (b : BayNum) (e : BayErr) (s : State) : Host.Outcome State Fault Refusal := .next (teLookup b e s)

/-- TE_CLEAR tags with the epoch of its stamp (R405). -/
def teClear (b : BayNum) (s : State) : State :=
  s.issueUnit b .teClear fun i t => opTeClear ((s.bay b).epochAt i.t) i t
def execTeClear (b : BayNum) (s : State) : Host.Outcome State Fault Refusal := .next (teClear b s)

def teRescale (b : BayNum) (s : State) : State := s.issueUnit b .teRescale opTeRescale
def execTeRescale (b : BayNum) (s : State) : Host.Outcome State Fault Refusal := .next (teRescale b s)

/-- ESC_APPLY, after the epoch check of R406. -/
def escApply (b : BayNum) (s : State) : State :=
  s.issueChecked b .escApply fun d t =>
    let lookup := (s.together d).find? fun x =>
      x.b == d.b && x.pc != d.pc && entryKind x.w == some .teLookup && Ent.index x.w == Ent.index d.w
    opEscApply (lookup.map fun x => bits x.w 73 73) (s.issueOf d) t
def execEscApply (b : BayNum) (s : State) : Host.Outcome State Fault Refusal := .next (escApply b s)

def lnsMulIssue (b : BayNum) (s : State) : State := s.issueUnit b .lnsMul opLnsMul
def execLnsMul (b : BayNum) (s : State) : Host.Outcome State Fault Refusal := .next (lnsMulIssue b s)

def lnsAddIssue (b : BayNum) (s : State) : State := s.issueUnit b .lnsAdd opLnsAdd
def execLnsAdd (b : BayNum) (s : State) : Host.Outcome State Fault Refusal := .next (lnsAddIssue b s)

def lnsReduceIssue (b : BayNum) (s : State) : State := s.issueUnit b .lnsReduce opLnsReduce
def execLnsReduce (b : BayNum) (s : State) : Host.Outcome State Fault Refusal := .next (lnsReduceIssue b s)

def lnsFromlinIssue (b : BayNum) (s : State) : State := s.issueUnit b .lnsFromlin opLnsFromlin
def execLnsFromlin (b : BayNum) (s : State) : Host.Outcome State Fault Refusal := .next (lnsFromlinIssue b s)

def lnsTolinIssue (b : BayNum) (s : State) : State := s.issueUnit b .lnsTolin opLnsTolin
def execLnsTolin (b : BayNum) (s : State) : Host.Outcome State Fault Refusal := .next (lnsTolinIssue b s)

def refFma (b : BayNum) (s : State) : State := s.issueUnit b .refFma opRefFma
def execRefFma (b : BayNum) (s : State) : Host.Outcome State Fault Refusal := .next (refFma b s)

def refCast (b : BayNum) (s : State) : State := s.issueUnit b .refCast opRefCast
def execRefCast (b : BayNum) (s : State) : Host.Outcome State Fault Refusal := .next (refCast b s)

def refTopk (b : BayNum) (s : State) : State := s.issueUnit b .refTopk opRefTopk
def execRefTopk (b : BayNum) (s : State) : Host.Outcome State Fault Refusal := .next (refTopk b s)

def convPass1 (b : BayNum) (s : State) : State := s.issueUnit b .convPass1 opConvPass1
def execConvPass1 (b : BayNum) (s : State) : Host.Outcome State Fault Refusal := .next (convPass1 b s)

def convPass2 (b : BayNum) (s : State) : State := s.issueUnit b .convPass2 opConvPass2
def execConvPass2 (b : BayNum) (s : State) : Host.Outcome State Fault Refusal := .next (convPass2 b s)

/-- CONV_CARRY: SCSLOT must differ from DS (R512). -/
def convCarry (b : BayNum) (s : State) : State :=
  s.issueChecked b .convCarry fun d t => opConvCarry (s.issueOf d) t
def execConvCarry (b : BayNum) (s : State) : Host.Outcome State Fault Refusal := .next (convCarry b s)

def convStats (b : BayNum) (s : State) : State := s.issueUnit b .convStats opConvStats
def execConvStats (b : BayNum) (s : State) : Host.Outcome State Fault Refusal := .next (convStats b s)

/-! ### The leaf mover (R371, R372, R376, R540, R682 to R690) -/

/-- The path of a move (R682). -/
def State.movePath (s : State) (d : Due) : Path :=
  match s.moveLeaves d with
  | p :: _ => s.pathOf d.b (s.resolve d.q p.2)
  | [] => .slice

/-- The leaf mover is occupied until elapsed cycle `e`. -/
def State.occupyMover (s : State) (b : BayNum) (e : Nat) (c : SlipCause) : State :=
  s.modBay b fun x => { x with moverFree := e, moverCause := c }

/-- A leaf mover has read a leaf: the clock of R692 and R696. -/
def State.noteRead (s : State) (q : QNum) (a : Addr) : State :=
  let t := s.tickRead
  match a.form with
  | .unified =>
    match Tab.find (s.quire q).unified a.leaf with
    | some u => t.2.setU q a.leaf (some { u with lastRead := t.1 })
    | none => s
  | .t3 h => t.2.setTiers { t.2.tiers with
      pool := t.2.tiers.pool.map fun c => if c.lib = h % 64 ∧ c.gen = h / 4096 ∧ c.leaf = a.leaf then { c with lastRead := t.1 } else c }
  | _ => s

/-- The leaf read from T2 asks for a demand promotion (R695). -/
def State.demandPromote (s : State) (q : QNum) (a : Addr) : State :=
  match a.form, s.resolve q a with
  | .unified, .own .t2 _ _ =>
    if s.rd (Key.qPromote q) = 1 then
      (s.addHint q { leaf := a.leaf, promote := true, urgency := 0, demand := true, passed := [] }).serveHints q
    else s
  | _, _ => s

/-- The frame a move reads at its source and whether it is execute-only; a T4 frame comes with the arrival. -/
def State.sourceFrame (s : State) (q : QNum) (a : Addr) : Mem × Bool :=
  let l := s.resolve q a
  (match l with
    | .own p n _ => s.leaf p n
    | .t3 e n => s.libFrame e n
    | _ => [], s.locXo l)

/-- The slot's identity after a move from an address (R686). -/
def identOf (a : Addr) : Nat :=
  match a.form with
  | .t3 _ => a.encode
  | _ => 0

/-- The slot waits for a leaf: its tag is set at issue (R381, R527, R528). -/
def State.markArriving (s : State) (d : Due) (slot tag : Nat) (m : SlotMeta) : State :=
  s.modBay d.b fun x => (x.setSlot slot m).setTag slot tag

/-- MOV_IN of leaves on a cycle-exact path: the frames move at the issue, each leaf arriving in its cycle (R27). -/
def State.movInExact (s : State) (d : Due) (ls : List (Nat × Addr)) (occ : Nat) (path : Path) (zero : Bool) : State :=
  let i := s.issueOf d
  let s := (ls.zip (List.range ls.length)).foldl (fun s p =>
    let f := s.sourceFrame d.q p.1.2
    let void := zero && p.2 == 0
    let tag := i.scope ||| Tab.get d.run.rangeTags 0 p.1.2.encode
    let s := s.markArriving d p.1.1 tag { SlotMeta.free with
      arriving := some path.cause, due := some (d.elapsed + occ * (p.2 + 1) - 1),
      xo := f.2 && !void, ident := identOf p.1.2 }
    ((s.modBay d.b fun x => x.setFrame p.1.1 (if void then [] else f.1)).noteRead d.q p.1.2).demandPromote d.q p.1.2) s
  s.occupyMover d.b (d.elapsed + occ * ls.length) path.cause

/-- MOV_IN of leaves that arrive at an event: each joins the queued moves; a T3 leaf waits for its stripe's sense
(R689). -/
def State.movInQueued (s : State) (d : Due) (ls : List (Nat × Addr)) (path : Path) : State :=
  let i := s.issueOf d
  let s := ls.foldl (fun s p =>
    let tag := i.scope ||| Tab.get d.run.rangeTags 0 p.2.encode
    let s := s.markArriving d p.1 tag { SlotMeta.free with arriving := some path.cause, ident := identOf p.2 }
    s.modBay d.b fun x => { x with
      moves := x.moves ++ [Move.mk d.elapsed d.idx p.1 p.2.encode true path.cause tag [] false (identOf p.2)] }) s
  let s := ls.foldl (fun s p => match s.resolve d.q p.2 with | .t4 n => s.readT4 d.q n | _ => s) s
  let s := s.occupyMover d.b (d.elapsed + 1) path.cause
  match path, ls with
  | .t3, p :: _ =>
    match p.2.form with
    | .t3 h =>
      let le := h % 64
      let x := s.lib le
      let n := p.2.leaf
      (upFrom (n / 32) ((n + ls.length - 1) / 32 + 1 - n / 32)).foldl (fun s k =>
        match x.man.groupOf x.variant k with
        | some g => s.queueSense d.q g (SenseReq.mk le k (.movIn d.b d.run.id p.1 n h) 0
            ((List.range 32).filter fun j => n ≤ 32 * k + j && 32 * k + j < n + ls.length))
        | none => s) s
    | _ => s
  | _, _ => s

/-- MOV_IN (R376, R682 to R689). -/
def movIn (b : BayNum) (e : MoveErr) (s : State) : State :=
  s.issueChecked b .movIn fun d t =>
      let ls := s.moveLeaves d
      let path := s.movePath d
      let t3 := ls.any fun p => identOf p.2 != 0
      let t := if t3 then t.count (if path = .t3 then Key.qPoolMisses d.q else Key.qPoolHits d.q) else t
      match path.occ with
      | some occ =>
        let fab := e.fabric && path == .commons
        let t := if e.uncorr then t.sramError d.q d.run.id else t
        let t := if fab then t.fabricError d.q d.run.id else t
        t.movInExact d ls occ path (e.uncorr || fab)
      | none => t.movInQueued d ls path

def execMovIn (b : BayNum) (e : MoveErr) (s : State) : Host.Outcome State Fault Refusal := .next (movIn b e s)

/-- A range leaf takes its tag and the identity of the slot (R527, R686). -/
def State.tagRange (s : State) (d : Due) (addr tag ident : Nat) : State :=
  if d.run.inRanges addr then
    s.modRun d.q d.run.id fun r => { r with
      rangeTags := Tab.set r.rangeTags 0 addr tag, rangeIds := Tab.set r.rangeIds 0 addr ident }
  else s

/-- One leaf of a MOV_OUT. -/
def State.movOutLeaf (s : State) (d : Due) (slot : Nat) (a : Addr) (j : Nat) (path : Path) (zero : Bool) : State :=
  let i := s.issueOf d
  let m := (s.bay d.b).slot slot
  let r := s.readSlot i slot
  let f := if zero then [] else r.1
  let tag := i.scope ||| (s.bay d.b).tag slot
  let s := r.2.tagRange d a.encode tag m.ident
  match path.occ with
  | some occ =>
    (s.leaveFrame d.q a.encode f m.xo).modBay d.b fun x =>
      x.modSlot slot fun m => { m with leaving := some (path.cause, some (d.elapsed + occ * (j + 1) - 1)) }
  | none =>
    -- the leaf on its way is void with its range leaf, and only then (R530)
    let moving := if d.run.inRanges a.encode then tag else 0
    s.modBay d.b fun x =>
      { x.modSlot slot fun m => { m with leaving := some (path.cause, none) } with
        moves := x.moves ++ [Move.mk d.elapsed d.idx slot a.encode false path.cause moving f m.xo m.ident] }

/-- MOV_OUT (R376, R540, R682 to R686). -/
def movOut (b : BayNum) (e : MoveErr) (s : State) : State :=
  s.issueChecked b .movOut fun d t =>
      let ls := s.moveLeaves d
      let path := s.movePath d
      let fab := e.fabric && path != .slice
      let t := if e.uncorr then t.sramError d.q d.run.id else t
      let t := if fab then t.fabricError d.q d.run.id else t
      let t := (ls.zip (List.range ls.length)).foldl (fun t p =>
        t.movOutLeaf d p.1.1 p.1.2 p.2 path ((e.uncorr || fab) && p.2 == 0)) t
      t.occupyMover b (d.elapsed + (path.occ.map fun o => o * ls.length).getD 1) path.cause

def execMovOut (b : BayNum) (e : MoveErr) (s : State) : Host.Outcome State Fault Refusal := .next (movOut b e s)

/-- The leaf of a queued move may arrive: no earlier move of the bay on the same leaf is queued and the leaf is not
locked (R700); a T3 leaf comes with its stripe. -/
def State.arrivable (s : State) (q : QNum) (earlier : List Move) (m : Move) : Bool :=
  m.cause != .t3 && !earlier.any (fun x => x.addr == m.addr) &&
    (match addrOf m.addr with
      | some a => (match s.resolve q a with
        | .own _ _ locked => !locked
        | .foreign => false
        | _ => true)
      | none => false)

/-- An uncorrectable T2 error of a channel; the 16th within a second marks it failed from the next boot (R908). -/
def State.channelError (s : State) (c : Fin 2) : State :=
  let now := s.rtc.toNat
  let l := if c = 0 then s.sec.t2Err0 else s.sec.t2Err1
  let l := (now :: l.filter fun t => decide (now < t + 32768)).take 16
  let failed := l.length == 16
  if c = 0 then
    let s := { s with sec := { s.sec with t2Err0 := l, chanBad0 := s.sec.chanBad0 || failed } }
    if failed then s.alert AL.channel else s
  else
    let s := { s with sec := { s.sec with t2Err1 := l, chanBad1 := s.sec.chanBad1 || failed } }
    if failed then s.alert AL.channel else s

/-- The errors of a read of a leaf: what is delivered instead of the frame, counts and alerts (R687, R896, R897, R900,
R908). -/
def State.readErrors (s : State) (q : QNum) (id : Nat) (a : Addr) (e : MoveErr) : Bool × State :=
  let fab := fun (s : State) => if e.fabric then s.fabricError q id else s
  match s.resolve q a with
  | .own .t2 _ _ =>
    if ¬ s.rdB Key.t2EccActive then (e.fabric, fab s)
    else if e.uncorr then
      let s := ((s.count Key.t2Uncorr).alert AL.t2Uncorr).runError q id
      (true, fab (s.channelError e.channel))
    else (e.fabric, fab (if e.retried then s.count Key.t2Corrected else s))
  | .own _ _ _ => (e.uncorr || e.fabric, fab (if e.uncorr then s.sramError q id else s))
  | _ => (e.fabric, fab s)

/-- A leaf enters its slot; void if its scope was cancelled meanwhile (R381, R533). -/
def Bay.deliver (x : Bay) (slot : Nat) (f : Mem) (xo : Bool) : Bay :=
  let m := x.slot slot
  (x.setFrame slot (if m.voidOnArrival then [] else f)).setSlot slot
    { m with arriving := none, due := none, xo := xo && !m.voidOnArrival, voidOnArrival := false,
             ident := if m.voidOnArrival then 0 else m.ident }

def Bay.dropMove (x : Bay) (m : Move) : Bay := { x with moves := x.moves.erase m }

/-- LEAF_ARRIVAL: a leaf of a queued move arrives in its slot, or the slot's leaf has left it. -/
def leafArrival (b : BayNum) (slot : Fin 64) (e : MoveErr) (s : State) : State :=
  match (s.bay b).seq.run with
  | none => s
  | some (q, id) =>
    let ms := (s.bay b).moves
    let earlier := ms.takeWhile fun m => m.slot != slot.val
    match ms.find? fun m => m.slot == slot.val with
    | none => s
    | some m =>
      match addrOf m.addr with
      | none => s
      | some a =>
        if ¬ s.arrivable q earlier m then s
        else
          let full := decide (16 ≤ (s.bay b).movesQueued)
          let s :=
            if m.isIn then
              let r := s.readErrors q id a e
              let src := s.sourceFrame q a
              let f := if a.form.isT4 then Mem.ofList (bytesAt e.frame 0 leafBytes) else src.1
              let s := (r.2.modBay b fun x => (x.deliver slot.val (if r.1 then [] else f) (src.2 && !r.1)).dropMove m).noteRead q a
              s.demandPromote q a
            else
              let s := if e.fabric then s.fabricError q id else s
              (s.leaveFrame q m.addr (if e.fabric then [] else m.frame) (m.xo && !e.fabric)).modBay b fun x =>
                (x.modSlot slot.val fun y => { y with leaving := none }).dropMove m
          s.noteEvent b slot.val m.cause (full && !(s.bay b).moves.any fun x => x.op == m.op)

def execLeafArrival (b : BayNum) (slot : Fin 64) (e : MoveErr) (s : State) : Host.Outcome State Fault Refusal :=
  .next (leafArrival b slot e s)

/-! ### STREAM (R377, R411 to R415) -/

/-- STREAM joins its queue; its slots wait for their leaves. -/
def stream (b : BayNum) (s : State) : State :=
  s.issueChecked b .stream fun d t =>
    let i := s.issueOf d
    let h := (d.run.binds[bits d.w 87 80]?.map Binding.value).getD 0
    let k := bits d.w 76 57 + s.loopIndex b (bit d.w 79) (bits d.w 78 77)
    let g := bits d.w 56 53
    let count := bits d.w 45 40 + 1
    match s.validHandle d.q h with
    | none => t
    | some le =>
        let slots := slotsOf .stream i
        let t := (slots.zip (List.range count)).foldl (fun t p =>
          t.markArriving d p.1 i.scope { SlotMeta.free with
            arriving := some .t3, ident := ({ form := .t3 h, leaf := 32 * k + p.2 } : Addr).encode }) t
        let t := if i.scope = 0 then t
          else t.modRun d.q d.run.id fun r => { r with specLeaves := tabAdd r.specLeaves i.scope count }
        t.queueSense d.q g (SenseReq.mk le k (.stream b d.run.id (slots.headD 0) count i.scope h d.idx) 0 (List.range count))

def execStream (b : BayNum) (s : State) : Host.Outcome State Fault Refusal := .next (stream b s)

/-! ### Stitches (R330, R335, R339, R344) -/

/-- WAIT_STITCH: the coming stage makes the start comparison; a TIMEOUT of 0 expires in it (R335, R337, R339). -/
def waitStitch (b : BayNum) (s : State) : State :=
  s.issueChecked b .waitStitch fun d t =>
    let n := d.run.stitchOf (bits d.w 95 88)
    let k := bits d.w 87 56
    (t.modSeq b fun x => { x with
      wait := some {
        stitch := n, start := d.elapsed, timeout := if k = 0 ∨ k = 0xFFFFFFFF then none else some k,
        tag := (s.issueOf d).scope },
      waited := if k = 0 then d.elapsed else 0 }).startWait n (.bay b) d.q (k == 0)

def execWaitStitch (b : BayNum) (s : State) : Host.Outcome State Fault Refusal := .next (waitStitch b s)

/-- SIGNAL_STITCH (R330). -/
def signalStitch (b : BayNum) (s : State) : State :=
  s.issueChecked b .signalStitch fun d t => t.signal (d.run.stitchOf (bits d.w 95 88)) (bits d.w 87 56)

def execSignalStitch (b : BayNum) (s : State) : Host.Outcome State Fault Refusal := .next (signalStitch b s)

/-- Elapsed cycle `n` of a run may have come: no later than the entry due next, or than the end of a slip; a slip that an
event ends may last (R387). -/
def State.reaches (s : State) (q : QNum) (r : Run) (n : Nat) : Bool :=
  match s.runNext q r with
  | none => true
  | some d =>
    match r.slipping with
    | none => decide (n ≤ d.elapsed)
    | some (some _) => true
    | some none =>
      s.waitHolds d || (s.holdsAll d).any (fun h => h.events != []) ||
        match lastExact ((s.holdsAll d).flatMap Holds.exact) with
        | some (u, _) => decide (n ≤ u + 1)
        | none => decide (n ≤ d.elapsed)

/-- The cycle timeout of a bay's wait has run out, TIMEOUT elapsed cycles after its issue: it expires in the coming stage
(R339, R387). -/
def seqWaitTimeout (b : BayNum) (s : State) : State :=
  match (s.bay b).seq.wait, s.runOf b with
  | some w, some (q, r) =>
    match w.timeout with
    | some k =>
      if s.reaches q r (w.start + k) then
        (s.modSeq b fun x => { x with wait := some { w with timeout := none }, waited := w.start + k }).expireWait w.stitch
          (.bay b)
      else s
    | none => s
  | _, _ => s

def execSeqWaitTimeout (b : BayNum) (s : State) : Host.Outcome State Fault Refusal := .next (seqWaitTimeout b s)

/-! ### FORK (R392 to R398, R541) -/

/-- A scope open in every bay of the run. -/
def Run.openEverywhere (r : Run) (id : Nat) : Bool :=
  r.scopes.any fun c => c.id == id && !c.closed && r.bays.all fun b => c.bays.contains b

/-- The arm a FORK takes: its number and whether it is the fallback, or none for the violation of R394. -/
def forkArm (h : ImpHeader) (r : Run) (w value us : Nat) : Option (Nat × Bool) :=
  let f := h.fallback.getD (bits w 95 92) (0xFF, 0, 0)
  let late := r.deadline && (decide (f.2.1 < r.slipCycles) || (f.2.2 != 0 && decide (f.2.2 < us)))
  if late ∧ f.1 ≠ 0xFF then some (f.1, true)
  else if value < bits w 76 74 + 1 then some (value, false)
  else if f.1 ≠ 0xFF then some (f.1, true)
  else none

/-- The bay takes arm `a` of a FORK (R396). -/
def State.takeArm (s : State) (d : Due) (a : Nat) : State :=
  match d.run.arms[bits d.w 73 58]? with
  | none => s
  | some r =>
    s.modSeq d.b fun x =>
      let arms := (s.bay d.b).seq.arms
      if r.count.getD a 0 = 0 then Seq.goto { x with arms := arms } r.join
      else x.stand ((r.start.getD a 0 + r.count.getD a 0, r.join) :: arms) (r.start.getD a 0)

/-- FORK: the first bay of the run chooses, every bay takes the same arm (R393). `us`: µs since stamp 0. -/
def fork (b : BayNum) (us : Nat) (s : State) : State :=
  s.issue b .fork fun d _ =>
    let fid := bits d.w 95 92
    let go := fun (s : State) (a : Nat) =>
      (s.takeArm d a).modSeq b fun x => { x with stamp := d.t, gap := 0 }
    match d.run.fork with
    | some (t, f, a) => if t = d.t ∧ f = fid then go s a else forkFirst d us s go
    | none => forkFirst d us s go
where
  forkFirst (d : Due) (us : Nat) (s : State) (go : State → Nat → State) : State :=
    let src := (d.run.bays[bits d.w 91 89]?).getD d.b
    let v := s.readDreg src (dregRes (bits d.w 88 85) (bits d.w 80 77)) d.t
    let s := v.2.2
    if (List.range 4).any fun sc => bit v.2.1 sc && !d.run.openEverywhere sc then s.violate d [d.fails VC.operand 9]
    else
      match forkArm d.run.hdr d.run d.w v.1 us with
      | none => s.violate d [d.fails VC.decision 9]
      | some (a, fb) =>
        let s := s.modRun d.q d.run.id fun r => { r with
          fork := some (d.t, bits d.w 95 92, a), fallback := r.fallback || fb }
        go (if fb then s.count (Key.qFallbacks d.q) else s) a

def execFork (b : BayNum) (us : Nat) (s : State) : Host.Outcome State Fault Refusal := .next (fork b us s)

/-! ### Scopes (R523 to R549) -/

/-- SPEC_BEGIN opens the scope in the bay. -/
def specBegin (b : BayNum) (s : State) : State :=
  s.issue b .specBegin fun d t =>
    let id := bits d.w 95 94
    let joins := fun (c : Scope) => c.id == id && !c.closed && !c.bays.contains b
    t.modRun d.q d.run.id fun r => { r with
      scopes := if r.scopes.any joins then r.scopes.map fun c => if joins c then { c with bays := c.bays ++ [b] } else c
        else r.scopes ++ [Scope.mk id (bits d.w 93 92) (bits d.w 91 84) (bits d.w 83 76) [b] false] }

def execSpecBegin (b : BayNum) (s : State) : Host.Outcome State Fault Refusal := .next (specBegin b s)

/-- Draft commit of `n` groups: what the later groups hold becomes void (R537). -/
def State.voidGroups (s : State) (q : QNum) (r : Run) (c : Scope) (n : Nat) : State :=
  let range := r.bindRange c.shadowBind
  match addrOf range.1 with
  | none => s
  | some a =>
    let g := range.2 / 8
    let gone := ((upFrom (n * g) ((8 - n) * g)).map fun i => (a.advance i).encode).filter fun e =>
      bit (Tab.get r.rangeTags 0 e) c.id
    let s := gone.foldl (fun s e => s.voidLeaf q e) s
    let s := r.bays.foldl (fun s b => s.modBay b fun x => { x with
      moves := x.moves.map fun m =>
        if !m.isIn && bit m.tag c.id && gone.contains m.addr then { m with frame := [], xo := false, ident := 0 } else m }) s
    s.modRun q r.id fun r => { r with rangeIds := r.rangeIds.filter fun e => !gone.contains e.1 }

/-- The queued STREAM requests of a run carry the committed scope no more: a later cancel leaves them (R532, R533). -/
def State.settleRequests (s : State) (q : QNum) (run sc : Nat) : State :=
  let f := fun (r : SenseReq) => match r.what with
    | .stream b id slot count tag h idx =>
      if id = run then { r with what := .stream b id slot count (tagDrop sc tag) h idx } else r
    | _ => r
  s.setWeave { s.weave with queues := s.weave.queues.map fun e => if e.1 / 12 = q.val then (e.1, e.2.map f) else e }

/-- SPEC_COMMIT of a scope (R529, R355, R549, R688). -/
def State.commitScope (s : State) (q : QNum) (r : Run) (c : Scope) : State :=
  let s := r.bays.foldl (fun s b => s.modBay b fun x => { x with
    tags := tagsDrop c.id x.tags,
    dregDue := x.dregDue.map fun d => { d with tag := tagDrop c.id d.tag },
    moves := x.moves.map fun m => { m with tag := tagDrop c.id m.tag } }) s
  let s := s.settleRequests q r.id c.id
  let freed := r.rangeTags.filter fun e => bit e.2 c.id && tagDrop c.id e.2 == 0
  let s := s.modRun q r.id fun r => { r with rangeTags := tagsDrop c.id r.rangeTags }
  let ids := ((s.run q r.id).getD r).rangeIds
  let s := freed.foldl (fun s e =>
    match addrOf (Tab.get ids 0 e.1) with
    | some a =>
      match s.resolve q a with
      | .t3 le n => s.poolPut le n
      | _ => s
    | none => s) s
  let s := (r.scopeStitches c.id).foldl (fun s n => s.setStitch n (s.stitch n).specCommit) s
  s.countClose q r.id c true

/-- SPEC_COMMIT: the first bay's entry takes effect for all; the others only leave the scope (R524, R529, R537). -/
def specCommit (b : BayNum) (s : State) : State :=
  s.issueChecked b .specCommit fun d t =>
    match d.run.closing (bits d.w 95 94) b with
    | none => t
    | some c =>
      if c.closed then t.leaveScope d c
      else
        match t.acceptedLength d c with
        | (t, none) => t
        | (t, some (n, past)) =>
          let t := t.stageFirst
          let t := if past then t.count (Key.qSpecOverrange d.q) else t
          let t := if c.kind = 1 then
              ((t.voidGroups d.q ((t.run d.q d.run.id).getD d.run) c n).count (Key.qDraftAccept d.q (n + 1)))
            else t
          (t.commitScope d.q ((t.run d.q d.run.id).getD d.run) c).leaveScope d c

def execSpecCommit (b : BayNum) (s : State) : Host.Outcome State Fault Refusal := .next (specCommit b s)

/-- SPEC_CANCEL (R530 to R533). -/
def specCancel (b : BayNum) (s : State) : State :=
  s.issue b .specCancel fun d t =>
    match d.run.closing (bits d.w 95 94) b with
    | none => t
    | some c =>
      if c.closed then t.leaveScope d c
      else
        let t := t.stageFirst
        (t.cancelScope d.q ((t.run d.q d.run.id).getD d.run) c).leaveScope d c

def execSpecCancel (b : BayNum) (s : State) : Host.Outcome State Fault Refusal := .next (specCancel b s)

/-! ### Fences, lending, loops, idle, end -/

/-- PRECISION_FENCE: the epoch register moves at the stamp + 2 (R404). -/
def precisionFence (b : BayNum) (s : State) : State :=
  s.issue b .precisionFence fun d t => t.modBay b fun x => { x with fences := x.fences ++ [d.t + 2] }
def execPrecisionFence (b : BayNum) (s : State) : Host.Outcome State Fault Refusal := .next (precisionFence b s)

/-- MAINT_SLOT lends owned slots in each group of its mask; lendings add up (R417). -/
def maintSlot (b : BayNum) (s : State) : State :=
  s.issue b .maintSlot fun d t =>
    ((List.range 12).filter fun g => bit (bits d.w 95 84) g).foldl (fun t g =>
      let k := d.q.val * 12 + g
      t.setWeave { t.weave with lent := Tab.set t.weave.lent 0 k (Tab.get t.weave.lent 0 k + bits d.w 83 68) }) t
def execMaintSlot (b : BayNum) (s : State) : Host.Outcome State Fault Refusal := .next (maintSlot b s)

/-- The counter of a LOOP's level, and whether the bay continues at TARGET (R400, R402). -/
def LoopLevel.pass (l : LoopLevel) (count stride : Nat) : LoopLevel × Bool :=
  let left := if l.active then l.remaining else count - 1
  if left = 0 then (LoopLevel.reset, false)
  else ({ l with active := true, remaining := left - 1, iteration := l.iteration + 1, stride := stride }, true)

/-- LOOP (R400 to R402). -/
def loop (b : BayNum) (s : State) : State :=
  s.issue b .loop fun d t =>
    let lv := Fin.ofNat 4 (bits d.w 95 94)
    t.modSeq b fun x =>
      let y := (s.bay b).seq
      let p := (y.loops.get lv).pass (bits d.w 79 48) (bits d.w 47 27)
      let x := { x with arms := y.arms, loops := y.loops.set lv.val { p.1 with lo := bits d.w 93 80, hi := d.pc } lv.isLt }
      x.goto (if p.2 then bits d.w 93 80 else d.pc + 1)
def execLoop (b : BayNum) (s : State) : Host.Outcome State Fault Refusal := .next (loop b s)

/-- IDLE (R403). -/
def idle (b : BayNum) (s : State) : State :=
  s.issue b .idle fun d t => t.modSeq b fun x => { x with gap := bits d.w 95 56 }
def execIdle (b : BayNum) (s : State) : Host.Outcome State Fault Refusal := .next (idle b s)

/-- END ends the bay stream (R419); the END that stands for a lost entry ends it early (R535). -/
def endStream (b : BayNum) (s : State) : State :=
  s.issue b .endStream fun d t => t.endBay d
def execEndStream (b : BayNum) (s : State) : Host.Outcome State Fault Refusal := .next (endStream b s)

/-! ### The hard bound (R399) -/

/-- DEADLINE_EXCEEDED: the elapsed count passes HARD_BOUND before every bay has reached END. The record names the lowest
bay of the run and the entry due next in it. -/
def deadlineExceeded (q : QNum) (run : Nat) (s : State) : State :=
  match s.run q run with
  | none => s
  | some r =>
    match s.runNext q r with
    | none => s
    | some d =>
      if ¬ r.live ∨ r.hdr.hardBound = 0 ∨ ¬ (r.slipping.isSome ∨ d.inBound 0 = false) then s
      else
        let low := (r.bays.headD 0)
        let imp := ((s.nextEntry q r low).map Due.idx).getD 0xFFFFFFFF
        s.freeze q FC.deadline (bay := low.val) (ring := r.entry.ring.val) (imp := imp) (cycle := r.hdr.hardBound + 1)
          (cid := r.entry.cid) (sqi := r.entry.slot)

def execDeadlineExceeded (q : QNum) (run : Nat) (s : State) : Host.Outcome State Fault Refusal :=
  .next (deadlineExceeded q run s)

end Sys2Proof.Machine
end

