-- ==== Sys2Proof/Machine/Library.lean ====
section
/-! DEFINITION. The library's books beside the handles (13, 15): the choice of a variant, the
programming of stripes, removal, retirement of banks, relocation. -/

namespace Sys2Proof.Machine

/-! ### Variants (R745 to R748, R752) -/

/-- What a variant needs beyond what a quire has (R748): bays, T1, T2, T3, groups not in service. -/
structure Short where
  bays : Nat
  t1 : Nat
  t2 : Nat
  t3 : Nat
  groups : Nat
  deriving DecidableEq, Repr

def Short.none (x : Short) : Bool := x == { bays := 0, t1 := 0, t2 := 0, t3 := 0, groups := 0 }

/-- Bank groups a variant's placement lists name. -/
def Manifest.groupsNamed (m : Manifest) (v : Nat) : List Nat :=
  sortNat ((List.range m.sections.length).flatMap fun i => m.place v i)

/-- The shortfall of variant `v` for a quire. -/
def State.shortfall (s : State) (q : QNum) (m : Manifest) (v stripes : Nat) : Short :=
  let x := m.variants.getD v { bays := 0, t1 := 0, t2 := 0, impFirst := 0, impCount := 0 }
  { bays := x.bays - (s.quireBays q).length,
    t1 := x.t1 - (s.quota q 1 - (s.usedT1 q - s.reservedT1 q)),
    t2 := x.t2 - s.headT2 q,
    t3 := ceilDiv stripes 4 - s.headT3 q,
    groups := ((m.groupsNamed v).filter fun g => !s.groupInService g).foldl (fun n g => n + 2 ^ g) 0 }

def State.fits (s : State) (q : QNum) (m : Manifest) (stripes v : Nat) : Bool := (s.shortfall q m v stripes).none

/-- Stripes a placement puts in a bank group. -/
def Manifest.stripesIn (m : Manifest) (v stripes g : Nat) : Nat :=
  ((List.range stripes).filter fun k => m.groupOf v k == some g).length

/-- Rows of a group that entries being loaded or written will take. -/
def State.rowsDue (s : State) (g : Nat) : Nat :=
  (s.nv.lib.map fun e => if e.2.state = .loading then e.2.man.stripesIn e.2.variant e.2.stripes g else 0).sum

/-- The placement of a variant finds enough free rows in every named group. -/
def State.rowsFor (s : State) (m : Manifest) (v stripes : Nat) : Bool :=
  (m.groupsNamed v).all fun g => decide (m.stripesIn v stripes g + s.rowsDue g ≤ s.freeRows g)

/-- Two variants have the same placement lists. -/
def Manifest.samePlace (m : Manifest) (v w : Nat) : Bool :=
  (List.range m.sections.length).all fun i => m.place v i == m.place w i

/-- Program the first `n` stripes of an entry under its variant's placement, ascending (R624); `frames`: its leaves, leaf *
8448 + byte. -/
def State.programFirst (s : State) (e n : Nat) (frames : Mem) : State :=
  let x := s.lib e
  (List.range n).foldl (fun s k =>
    match x.man.groupOf x.variant k with
    | some g =>
      match s.programRow g (Mem.slice frames (32 * k * leafBytes) (32 * leafBytes)) with
      | (some r, s) => s.setLib e { s.lib e with rows := Tab.put (s.lib e).rows k (some r) }
      | (none, s) => s
    | none => s) s

def State.programStripes (s : State) (e : Nat) (frames : Mem) : State := s.programFirst e (s.lib e).stripes frames

/-- All leaves of an entry as its senses give them, leaf * 8448 + byte. -/
def State.libFrames (s : State) (e : Nat) : Mem :=
  (List.range (32 * (s.lib e).stripes)).foldl (fun m n => Mem.setLeaf m n (s.libFrame e n)) []

/-! ### Removal (R762 to R765) -/

/-- Nothing keeps an entry whose removal is requested: no holder, no tip-in on it; an export is one step (log entry
24). -/
def State.removable (s : State) (e : Nat) : Bool :=
  (s.lib e).installed && (s.lib e).removeReq && (s.holders e).isEmpty && (s.tipins e).isEmpty

/-- An aperture refusal. -/
def State.aptRefuse (s : State) (key cause i : Nat) (o : Output) : State :=
  ((s.count key).wrs [(Key.aptLastCause, cause), (Key.aptLastLeaf, i)]).emit o

/-- Aperture reads of an entry that is no longer installed end as R577 says; its queued stripes go. -/
def State.dropAperture (s : State) (e : Nat) : State :=
  let mine := s.weave.aptReads.filter fun a => a.entry == e
  let s := s.setWeave { s.weave with
    aptReads := s.weave.aptReads.filter fun a => a.entry != e,
    aptQueue := Tab.mapVals [] (fun l => l.filter fun p => p.1 != e) s.weave.aptQueue }
  mine.foldl (fun s a => s.aptRefuse Key.aptRange 3 a.index .unsupportedRequest) s

/-- The entry becomes empty: its generation stays for the next install, its blocks become free-dirty, its pool copies
go, and so do the programs and the aperture reads that named it (R762, R718, R639, R693). -/
def State.emptyEntry (s : State) (e : Nat) : State :=
  (((((s.setLib e { LibEntry.reset with generation := (s.lib e).generation }).endWorker (.entry e)).dropAperture
    e).closeBands)).dropStale

/-- A removal that falls due (R762). -/
def libraryRemoval (e : Fin 64) (s : State) : State := if s.removable e.val then s.emptyEntry e.val else s

def execLibraryRemoval (e : Fin 64) (s : State) : Host.Outcome State Fault Refusal := .next (libraryRemoval e s)

/-- LIB_REMOVE requests the removal of an entry that nobody holds (R763). -/
def libRemoveWrite (e : Nat) (s : State) : Nat × State :=
  if 63 < e then (DS.range, s)
  else if ¬ (s.lib e).installed ∨ s.holders e ≠ [] ∨ s.tipins e ≠ [] then (DS.state, s)
  else s.ifIdle Key.libRemove fun s => (s.setLib e { s.lib e with removeReq := true }).cmdDone Key.libRemove DS.ok []

/-! ### Retirement and relocation (R596, R597, R766 to R768) -/

/-- A translation-layer sense joins a group's queue. -/
def State.queueTl (s : State) (g : Nat) (x : TlSense) : State :=
  s.setWeave { s.weave with tlQueue := Tab.set s.weave.tlQueue [] g (Tab.get s.weave.tlQueue [] g ++ [x]) }

/-- The first variant whose placement names only groups in service and finds enough rows, regardless of quotas. -/
def State.relocVariant (s : State) (x : LibEntry) : Option Nat :=
  (List.range x.man.variants.length).find? fun v =>
    (x.man.groupsNamed v).all (fun g => s.groupInService g) && s.rowsFor x.man v x.stripes

/-- An entry with stripes in a retired group is relocated, or stranded. -/
def State.relocateEntry (s : State) (g e : Nat) : State :=
  let x := s.lib e
  let l := (List.range x.stripes).filter fun k => x.man.groupOf x.variant k == some g
  if ¬ x.installed ∨ x.state = .stranded ∨ l = [] then s
  else if s.relocVariant x = none then s.setLib e { x with state := .stranded }
  else l.foldl (fun s k => s.queueTl g (.relocate e k)) (s.setLib e { x with state := .relocating })

/-- A bank is retired: its group leaves service and the entries in it move (R596, R597, R766, R909). -/
def State.retireBank (s : State) (die bank : Nat) : State :=
  if s.nv.retired.contains (die, bank) then s
  else
    let g := 2 * die + bank / 8
    let was := s.groupInService g
    let s := (s.setNv { s.nv with retired := s.nv.retired ++ [(die, bank)] }).alert AL.planeBank
    if was then allE.foldl (fun s e => s.relocateEntry g e) s else s

/-- A relocation completes: the stripes lie under the new placement, and each handle takes its holder's variant of it
(R767). -/
def State.relocated (s : State) (e : Nat) : State :=
  let x := s.lib e
  match s.relocVariant x with
  | none => s.setLib e { x with state := .stranded }
  | some v =>
    let frames := s.libFrames e
    let s := s.setLib e { x with state := if x.lost = [] then .installed else .damaged, variant := v, rows := [] }
    let s := (s.programStripes e frames).closeBands
    (s.holders e).foldl (fun s q =>
      let mine := (List.range x.man.variants.length).find? fun w => x.man.samePlace v w && s.fits q x.man 0 w
      s.wr (Key.qHandleVariant q (e + 1)) (mine.getD 0xFF)) s

/-- A logical plane of bank `bank` of a die fails: a spare takes its place; without one the bank is retired
(R595, R596, R909). -/
def State.planeFails (s : State) (die bank : Nat) : State :=
  let n := Tab.get s.nv.sparesUsed 0 die
  if n < 4 then (s.setNv { s.nv with sparesUsed := Tab.set s.nv.sparesUsed 0 die (n + 1) }).alert AL.planeBank
  else s.retireBank die bank

/-- A block that failed becomes bad; a bank with fewer than 17 usable blocks is retired (R596, R627). -/
def State.badBlock (s : State) (g k n : Nat) : State :=
  let s := s.setBlock g k n { s.block g k n with state := .bad }
  if (s.usableBlocks g k).length < 17 then s.retireBank (bankOf g k).1 (bankOf g k).2 else s

end Sys2Proof.Machine
end

