-- ==== Sys2Proof/Machine/Weave.lean ====
section
/-! DEFINITION. The weave at work (08, 12, 13): the use of each slot, the senses and their delivery, read counts,
refresh, wear and rescue moves, the scrub pass, and the T3 aperture. -/

namespace Sys2Proof.Machine

/-! ### Band moves (R626, R630 to R633, R635, R638) -/

/-- The first move of a group. -/
def State.groupMove (s : State) (g : Nat) : Option BandMove := s.nv.moves.find? fun m => m.group == g

def State.setMove (s : State) (m : BandMove) : State :=
  s.setNv { s.nv with moves := s.nv.moves.map fun x => if x.group = m.group ∧ x.band = m.band then m else x }

/-- The first move of a group starts once every bank has an erased block: the destinations are taken (R625). -/
def State.startBandMove (s : State) (g : Nat) : State :=
  match s.groupMove g with
  | some m =>
    if m.rows.isSome ∨ (List.range 8).any fun k => (s.freshBlock g k).isNone then s
    else
      let r := (List.range 8).foldl (fun (p : List Nat × State) k =>
        match p.2.takeBlock g k with
        | (some n, s) => (p.1 ++ [n], s)
        | (none, s) => (p.1, s)) ([], s)
      (r.2.setMove { m with rows := some 0, dest := r.1 }).jStart jMove (g * 16 + m.band)
  | none => s

/-- Row senses of a group's move under way that are queued for delivery. -/
def State.moveSensed (s : State) (g : Nat) : Nat :=
  ((Tab.get s.weave.sensed [] g).filter fun u => match u with | .tl (.refresh _ _) => true | _ => false).length

/-- The translation-layer sense a group has waiting: the next row of its move, then its queue (R615, R631). -/
def State.nextTl (s : State) (g : Nat) : Option TlSense :=
  match s.groupMove g with
  | some m =>
    match m.rows with
    | some r =>
      let next := r + s.moveSensed g
      if next < (s.bandOf g m.band).used then some (.refresh m.band (m.band * 512 + next))
      else (Tab.get s.weave.tlQueue [] g).head?
    | none => (Tab.get s.weave.tlQueue [] g).head?
  | none => (Tab.get s.weave.tlQueue [] g).head?

/-! ### Uses of a slot (R558) -/

/-- A use is sensed: it waits for delivery. -/
def State.pushSensed (s : State) (g : Nat) (u : SlotUse) : State :=
  s.setWeave { s.weave with
    sensed := Tab.set s.weave.sensed [] g (Tab.get s.weave.sensed [] g ++ [u]), sensing := s.weave.sensing ++ [g] }

def State.popQueue (s : State) (q : QNum) (g : Nat) : State :=
  let k := q.val * 12 + g
  s.setWeave { s.weave with queues := Tab.set s.weave.queues [] k (Tab.get s.weave.queues [] k).tail }

/-- The group's next aperture stripe is sensed. -/
def State.useAperture (s : State) (g : Nat) (counts : Bool) : State :=
  match Tab.get s.weave.aptQueue [] g with
  | [] => s
  | (e, k) :: t =>
    let s := s.setWeave { s.weave with
      aptQueue := Tab.set s.weave.aptQueue [] g t,
      aptUsed := if counts then Tab.set s.weave.aptUsed 0 g (Tab.get s.weave.aptUsed 0 g + 1) else s.weave.aptUsed }
    (s.senseStripe e k).pushSensed g (.aperture e k)

def State.apertureWaits (s : State) (g : Nat) : Bool := !(Tab.get s.weave.aptQueue [] g).isEmpty && !s.groupBusy g

/-! ### Press steps and the engines' continuous operations (R558, R561 to R563, R631, R639; log entry 99) -/

/-- Loads and training commits that have stripes to program in the group: their library entries. -/
def State.entriesDue (s : State) (g : Nat) : List Nat :=
  let named := fun (e : Nat) (turns : List Nat) =>
    !turns.contains g && ((s.lib e).man.groupsNamed (s.lib e).variant).contains g
  (s.nv.loads.filterMap fun l => l.lib.filter fun e => named e l.turns) ++
    allQ.filterMap fun q => match (s.quire q).train with
      | some t => if (s.lib t.newEntry).rows = [] ∧ named t.newEntry t.turns = true then some t.newEntry else none
      | none => none

/-- The engines with work in the group: loads and training commits, then the rows its move has in the program buffers. -/
def State.engineWork (s : State) (g : Nat) : List Worker :=
  (s.entriesDue g).map Worker.entry ++
    match s.groupMove g with
    | some m => (match m.rows with
      | some r => if m.prog < r then [.move] else []
      | none => [])
    | none => []

/-- The oldest free-dirty block of the group whose bank is free (R639). -/
def State.eraseDue (s : State) (g : Nat) : List Worker :=
  match s.nv.dirty.find? fun d => d.1 == g && s.banksFree g [d.2.1] with
  | some d => [.erase d.2.1 d.2.2]
  | none => []

/-- Descriptors whose unit in the group is worked in press steps, in ring order. -/
def State.stepOps (s : State) (g : Nat) : List Worker :=
  (s.nv.press.filter fun x => s.nv.units.any fun u => u.group == g && u.worker == .op x.id && !u.cont).map fun x => .op x.id

/-- NV address of a block of the main array (R605). -/
def blockAddr (g k n : Nat) : Nat := g * 2 ^ 18 + k * 2 ^ 14 + n * 2 ^ 9

/-- A deferred erase is journaled when its first step starts (R647). -/
def State.stepStart (s : State) (g : Nat) (w : Worker) : State :=
  match w with
  | .erase k n =>
    if s.nv.journal.any fun j => j.kind == jMain && j.addr == blockAddr g k n then s else s.jStart jMain (blockAddr g k n)
  | _ => s

/-- A worker's program or erase in the group has ended: the last of an entry's there, four rows of a move (R631), an erase. -/
def State.turnDone (s : State) (g : Nat) (w : Worker) : State :=
  match w with
  | .op _ => s
  | .entry e =>
    let s := s.setNv { s.nv with loads := s.nv.loads.map fun l => if l.lib = some e then { l with turns := l.turns ++ [g] } else l }
    allQ.foldl (fun s q => s.modQuire q fun x => { x with train := x.train.map fun t =>
      if t.newEntry = e then { t with turns := t.turns ++ [g] } else t }) s
  | .move =>
    match s.groupMove g with
    | some m => s.setMove { m with prog := min (m.rows.getD 0) (m.prog + 4) }
    | none => s
  | .erase k n => (s.eraseBlockAt g k n).jEnd jMain (blockAddr g k n)

/-- Whether an engine's program or erase ends now: a free choice, its length being time (log entries 8, 9, 99). -/
def State.mayEnd (s : State) : Bool × State := (s.fresh.1 % 2 == 1, s.fresh.2)

/-- The slot is used for a press step, if one has work: a descriptor's first, then an engine's, then in a MAINT slot a
deferred erase. It senses nothing, and no continuous operation runs beside it. -/
def State.pressStep (s : State) (g : Nat) (maint : Bool) : State :=
  if s.groupBusy g then s
  else
    match (s.stepOps g ++ s.engineWork g ++ if maint then s.eraseDue g else []).head? with
    | none => s
    | some w =>
      let s := (s.stepStart g w).setWeave { s.weave with steps := s.weave.steps ++ [(g, w)] }
      match w with
      | .op _ => s
      | w => if s.mayEnd.1 then s.mayEnd.2.turnDone g w else s.mayEnd.2

/-- Engines' continuous operations of the group that end by the slot's start. -/
def State.endTurns (s : State) (g : Nat) : State :=
  (s.nv.units.filter fun u => u.group == g && u.cont && (match u.worker with | .op _ => false | _ => true)).foldl
    (fun s u => if s.mayEnd.1 then (s.mayEnd.2.endUnit g u.worker).turnDone g u.worker else s.mayEnd.2) s

/-- An engine with work in a group that no unit occupies may start a continuous operation there. -/
def State.startTurns (s : State) (g : Nat) : State :=
  if ¬ s.contOk g ∨ (s.nv.units.any fun u => u.group == g) then s
  else
    match s.engineWork g with
    | w :: _ => if s.mayEnd.1 then s.mayEnd.2.addUnit g w (List.range 8) else s.mayEnd.2
    | [] => s

/-- The group's next translation-layer sense. -/
def State.useTl (s : State) (g : Nat) (x : TlSense) : State :=
  match x with
  | .refresh b row => (s.readBand g b).pushSensed g (.tl (.refresh b row))
  | .readRun op e k =>
    ((s.setWeave { s.weave with tlQueue := Tab.set s.weave.tlQueue [] g (Tab.get s.weave.tlQueue [] g).tail }).senseStripe
      e k).pushSensed g (.tl (.readRun op e k))
  | .relocate e k =>
    ((s.setWeave { s.weave with tlQueue := Tab.set s.weave.tlQueue [] g (Tab.get s.weave.tlQueue [] g).tail }).senseStripe
      e k).pushSensed g (.tl (.relocate e k))

/-- A MAINT slot, or one that is lent: deferred erases take MAINT slots alone (R639). -/
def State.useMaint (s : State) (g : Nat) (lent : Bool) : State :=
  let s := s.startBandMove g
  if s.apertureWaits g ∧ Tab.get s.weave.aptUsed 0 g < 16 then s.useAperture g true
  else
    match s.nextTl g with
    | some x => if s.groupBusy g then s else s.useTl g x
    | none => if s.apertureWaits g then s.useAperture g true else s.pressStep g !lent

/-- A slot nobody's queue uses: an aperture stripe or a press step. -/
def State.useFree (s : State) (g : Nat) : State :=
  if s.apertureWaits g then s.useAperture g false else s.pressStep g false

/-- A busy bank meets a queued STREAM (R566). -/
def State.busyFreeze (s : State) (q : QNum) (b : BayNum) (run idx : Nat) : State :=
  match s.run q run with
  | some r => s.freeze q FC.busyBank (bay := b.val) (ring := r.entry.ring.val) (imp := idx) (cycle := s.elapsed r)
      (cid := r.entry.cid) (sqi := r.entry.slot)
  | none => s

/-- The bay a request's leaves go to. -/
def SenseReq.bay (r : SenseReq) : BayNum :=
  match r.what with
  | .stream b _ _ _ _ _ _ => b
  | .cacheLoad b _ => b
  | .movIn b _ _ _ _ => b

/-- Bank groups whose slot under way senses leaves for a bay. -/
def State.sensedFor (s : State) (b : BayNum) : List Nat :=
  s.weave.sensing.filter fun g => match (Tab.get s.weave.sensed [] g).getLast? with
    | some (.queue _ r) => r.bay == b
    | _ => false

/-- The head request of a queue has to wait: its bay's leaf buffers take the leaves of two groups in the slot already (R24),
or it is a cache load of a run that a continuous operation holds (R564). -/
def State.headWaits (s : State) (q : QNum) (r : SenseReq) : Bool :=
  decide (2 ≤ (s.sensedFor r.bay).length) ||
    match r.what with
    | .cacheLoad _ run => s.runHeld q run
    | _ => false

/-- A slot owned by a quire (R24, R411, R417, R558, R564, R566). -/
def State.useOwned (s : State) (q : QNum) (g : Nat) : State :=
  let k := q.val * 12 + g
  let st := (s.quire q).state
  if st = .frozen ∨ st = .resetting then s.useFree g
  else if Tab.get s.weave.lent 0 k ≠ 0 then
    (s.setWeave { s.weave with lent := Tab.set s.weave.lent 0 k (Tab.get s.weave.lent 0 k - 1) }).useMaint g true
  else
    match Tab.get s.weave.queues [] k with
    | [] => s.useFree g
    | r :: _ =>
      if s.groupBusy g then
        match r.what with
        | .stream b run _ _ _ _ idx => s.busyFreeze q b run idx
        | _ => s
      else if s.headWaits q r then s
      else ((s.popQueue q g).senseStripe r.entry r.stripe).pushSensed g (.queue q r)

/-- The use of a slot by one bank group; a retired group reads only what is to be placed elsewhere (R597, R766). -/
def State.useSlot (s : State) (g : Nat) : State :=
  if ¬ s.groupInService g then
    match Tab.get s.weave.tlQueue [] g with
    | x :: _ => s.useTl g x
    | [] => s
  else
    let c := s.weaveCode s.weave.profile s.weave.slot g
    if h : c < 8 then s.useOwned ⟨c, h⟩ g else if c = 8 then s.useMaint g false else s.useFree g

/-- A slot starts: at the frame boundary a partition that waits brings its weave, and the aperture's count starts anew
(R214 step 5, R409, R558). The senses and press steps of the slot before have ended. -/
def State.slotUses (s : State) : State :=
  let s := s.setWeave { s.weave with sensing := [], steps := [] }
  let s := if s.weave.slot = 0 then
      ({ s with switch := s.switch.map fun w => { w with oldWeave := [] } } : State).setWeave
        { s.weave with aptUsed := [], profile := s.part }
    else s
  let s := (List.range s.groups).foldl State.endTurns s
  let s := (List.range s.groups).foldl State.useSlot s
  let s := (List.range s.groups).foldl State.startTurns s
  s.setWeave { s.weave with slot := (s.weave.slot + 1) % 1024 }

/-! ### Delivery (R557, R583 to R585) -/

/-- A bank-group request still concerns a run: its bay steps that run. -/
def State.stillRuns (s : State) (q : QNum) (b : BayNum) (run : Nat) : Bool := (s.bay b).seq.run == some (q, run)

/-- One leaf of a row reaches a T0 slot. -/
def State.slotLeaf (s : State) (b : BayNum) (slot e n : Nat) (zero : Bool) : State :=
  (s.modBay b fun y =>
    y.deliver slot (if zero then [] else s.libFrame e n) ((s.lib e).man.xoStripe (n / 32))).noteEvent b slot .t3 false

/-- Entries of a bay's stream that a zeroed leaf of the imposition takes with it (R585). -/
def Run.zeroEntries (r : Run) (b : BayNum) (lo hi : Nat) : Run :=
  let i := r.rel b
  let first := r.hdr.start i
  { r with entries := (r.entries.zip (List.range r.entries.length)).map fun p =>
      if first ≤ p.2 ∧ p.2 < first + r.hdr.cnt i ∧ lo < 256 + 16 * p.2 + 16 ∧ 256 + 16 * p.2 < hi then 0 else p.1 }

/-- A zeroed leaf of a cache load. -/
def State.zeroCacheLeaf (s : State) (q : QNum) (b : BayNum) (run e n : Nat) : State :=
  match s.run q run with
  | none => s
  | some r =>
    match s.impRec q e r.impNo with
    | none => s
    | some i =>
      let base := 32 * sectionBase (s.lib e).man.sections i.sec + i.firstLeaf
      if n < base then s else s.modRun q run fun r => r.zeroEntries b (8192 * (n - base)) (8192 * (n - base + 1))

/-- A cache load of the bay is still queued or sensed. -/
def State.cachePending (s : State) (q : QNum) (b : BayNum) (run : Nat) : Bool :=
  let mine := fun (r : SenseReq) => match r.what with | .cacheLoad c id => c == b && id == run | _ => false
  (List.range 12).any fun g => (Tab.get s.weave.queues [] (q.val * 12 + g)).any mine ||
    (Tab.get s.weave.sensed [] g).any fun u => match u with | .queue p r => p == q && mine r | _ => false

/-- Leaves of a sensed request are delivered; `zero` marks those that stayed uncorrectable. -/
def State.deliverReq (s : State) (q : QNum) (r : SenseReq) (leaves : List Nat) (zero : Bool) : State :=
  match r.what with
  | .stream b run slot _ _ _ _ =>
    if s.stillRuns q b run then leaves.foldl (fun s n => s.slotLeaf b (slot + n) r.entry (32 * r.stripe + n) zero) s else s
  | .movIn b run slot leaf h =>
    if ¬ s.stillRuns q b run then s
    else
    leaves.foldl (fun s n =>
      let l := 32 * r.stripe + n
      let dst := slot + l - leaf
      let s := s.slotLeaf b dst r.entry l zero
      let full := decide (16 ≤ (s.bay b).movesQueued)
      let mine := fun (m : Move) => m.cause == .t3 && m.slot == dst
      let s := s.modBay b fun x => { x with moves := x.moves.filter fun m => !mine m }
      let s := s.noteEvent b dst .t3 full
      if zero ∨ (s.validHandle q h).isNone then s
      else (s.poolPut r.entry l).noteRead q { form := .t3 h, leaf := l }) s
  | .cacheLoad b run =>
    let s := if zero then leaves.foldl (fun s n => s.zeroCacheLeaf q b run r.entry (32 * r.stripe + n)) s else s
    match s.run q run with
    | some x =>
      if zero ∨ s.cachePending q b run ∨ (s.bay b).cache.isSome then s
      else s.modBay b fun y => { y with cache := some (s.cacheFor x b) }
    | none => s

/-- A request's run has been told of an error. -/
def SenseReq.runId (r : SenseReq) : Option Nat :=
  match r.what with
  | .stream _ run _ _ _ _ _ => some run
  | .cacheLoad _ run => some run
  | .movIn _ run _ _ _ => some run

/-- The band of a stripe joins the moves (R637). -/
def State.moveStripe (s : State) (e k : Nat) : State :=
  match (s.lib e).rowOf k with
  | some (g, r) => s.queueMove g (r / 512) .refresh
  | none => s

/-- The band of a stripe is queued for rescue (R585). -/
def State.rescueStripe (s : State) (e k : Nat) : State :=
  match (s.lib e).rowOf k with
  | some (g, r) => s.queueRescue g (r / 512)
  | none => s

/-- A quire request's row: its good leaves now, a repeat for the others, zeros after the third (R584, R585, R637). -/
def State.deliverQueue (s : State) (g : Nat) (q : QNum) (r : SenseReq) (f : SenseFacts) : State :=
  let bad := r.leaves.filter fun n => f.badLeaves.contains n
  let good := r.leaves.filter fun n => !f.badLeaves.contains n
  if bad = [] then s.deliverReq q r good false
  else if r.retries < 3 then
    let s := (s.count Key.nvRetries).moveStripe r.entry r.stripe
    let k := q.val * 12 + g
    let s := s.setWeave { s.weave with
      queues := Tab.put s.weave.queues k (some ({ r with retries := r.retries + 1, leaves := bad } :: Tab.get s.weave.queues [] k)) }
    s.deliverReq q r good false
  else
    let s := (s.count Key.nvUncorr).alert AL.nvUncorr
    let s := match r.runId with
      | some id => s.runError q id
      | none => s
    let s := (s.deliverReq q r good false).deliverReq q r bad true
    let s := match r.what with
      | .cacheLoad b id =>
        if s.cachePending q b id then s
        else (match s.run q id with
          | some x => s.modBay b fun y => { y with cache := some (s.cacheFor x b) }
          | none => s)
      | _ => s
    s.rescueStripe r.entry r.stripe

/-- The frames a sense of a stripe delivers for the aperture; a leaf that stayed uncorrectable has free bytes (log entry
8). -/
def State.sensedStripe (s : State) (e k : Nat) (bad : List Nat) : Mem × State :=
  (List.range 32).foldl (fun (p : Mem × State) n =>
    if bad.contains n then (Mem.setLeaf p.1 n (Mem.ofList (natLe leafBytes p.2.fresh.1)), p.2.fresh.2)
    else (Mem.setLeaf p.1 n (p.2.libFrame e (32 * k + n)), p.2)) ([], s)

/-- The buffered copy of a stripe as its entry is installed now (R579; of that generation: DEDUCED, log entry 108). -/
def State.buffered (s : State) (e k : Nat) : Option AptStripe :=
  s.weave.aptBuf.find? fun a => a.entry == e && a.gen == (s.lib e).generation && a.stripe == k

/-- Payload bytes of a buffered stripe: from byte `j` of the payload of leaf `n` of the stripe. -/
def AptStripe.payload (a : AptStripe) (n j len : Nat) : List Byte := Mem.readN a.frames (n * leafBytes + 256 + j) len

/-- A sensed stripe enters the aperture buffer of four, and the reads that wait for it complete from there (R579, R581). -/
def State.completeApt (s : State) (e k : Nat) (bad : List Nat) : State :=
  let p := s.sensedStripe e k bad
  let s := p.2
  let a : AptStripe := { entry := e, gen := (s.lib e).generation, stripe := k, frames := p.1 }
  let mine := fun (r : AptRead) => r.entry == e && r.leaf / 32 == k
  let reads := s.weave.aptReads.filter mine
  let s := s.setWeave { s.weave with
    aptBuf := (a :: s.weave.aptBuf.filter fun x => !(x.entry == e && x.stripe == k)).take 4,
    aptReads := s.weave.aptReads.filter fun r => !mine r }
  reads.foldl (fun s r => s.emit (.barRead (a.payload (r.leaf % 32) r.byte r.len))) s

/-- A sensed row arrives. -/
def State.deliverUse (s : State) (g : Nat) (u : SlotUse) (f : SenseFacts) : State :=
  let heavy := fun (s : State) e k => if f.heavy then s.moveStripe e k else s
  match u with
  | .queue q r => heavy (s.deliverQueue g q r f) r.entry r.stripe
  | .aperture e k =>
    let s := heavy s e k
    let s := if f.badLeaves = [] then s else ((s.count Key.nvUncorr).alert AL.nvUncorr).rescueStripe e k
    if ¬ (s.lib e).installed ∨ (s.lib e).man.xoStripe k then s else s.completeApt e k f.badLeaves
  | .tl (.refresh b row) =>
    match s.groupMove g with
    | some m => if m.band = b then s.setMove { m with rows := some (row % 512 + 1) } else s
    | none => s
  | .tl (.readRun _ e k) => heavy s e k
  | .tl (.relocate e _) =>
    if (s.lib e).state = .relocating ∧
        ¬ (List.range 12).any (fun g => ((Tab.get s.weave.tlQueue [] g).any fun x => match x with
            | .relocate d _ => d == e | _ => false) ||
          (Tab.get s.weave.sensed [] g).any fun u => match u with | .tl (.relocate d _) => d == e | _ => false) then
      s.relocated e
    else s

/-- STRIPE_DELIVERY: the oldest sensed row of the group arrives; its corrected codewords are counted (R896); a plane
found failing is spared (R595). -/
def stripeDelivery (g : GroupNum) (f : SenseFacts) (s : State) : State :=
  match Tab.get s.weave.sensed [] g.val with
  | [] => s
  | u :: t =>
    if ¬ s.coreOn then s
    else
    let s := s.setWeave { s.weave with
      sensed := Tab.set s.weave.sensed [] g.val t,
      sensing := if t = [] then s.weave.sensing.filter fun x => x != g.val else s.weave.sensing }
    let s := (s.count Key.nvCorrected f.corrected).deliverUse g.val u f
    f.badBanks.foldl (fun s k => s.planeFails (bankOf g.val k.val).1 (bankOf g.val k.val).2) s

def execStripeDelivery (g : GroupNum) (f : SenseFacts) (s : State) : Host.Outcome State Fault Refusal :=
  .next (stripeDelivery g f s)

/-! ### The remap and the scrub pass (R633, R635 to R638) -/

/-- A leaf is written as zero bytes where it lies (R638). -/
def State.wipeLeaf (s : State) (e n : Nat) : State :=
  match (s.lib e).rowOf (n / 32) with
  | some (g, r) =>
    let at_ := fun j => s.sensedPage g (n % 32 / 4) r (2 * (n % 4) + j)
    s.setNv { s.nv with main := Mem.clear (Mem.clear s.nv.main (at_ 0) pageBytes) (at_ 1) pageBytes }
  | none => s

/-- A leaf of an entry is recorded lost: it reads as zeros and the entry is damaged (R638, R764). -/
def State.loseLeaf (s : State) (e n : Nat) : State :=
  let x := s.lib e
  if x.lost.contains n ∨ ¬ x.installed then s
  else ((s.wipeLeaf e n).setLib e { x with
    lost := insertNat n x.lost, state := if x.state = .installed then .damaged else x.state }).count Key.tlLeavesLost

/-- Every row of a group's move is copied, each page on its plane (R631), and the tables switch in one step (R633). -/
def State.remap (s : State) (m : BandMove) : State :=
  let g := m.group
  let old := (List.range 8).map fun k => s.mappedBlock g k m.band
  let used := (s.bandOf g m.band).used
  let s := (List.range 8).foldl (fun s k => s.copyBlock g k (old.getD k 0) (m.dest.getD k 0) used) s
  let s := (List.range 8).foldl (fun s k => s.mapBlock g k m.band (m.dest.getD k 0)) s
  let s := (List.range 8).foldl (fun s k => s.dirtyBlock g k (old.getD k 0)) s
  let s := s.setBand g m.band { s.bandOf g m.band with reads := 0, overRated := false }
  let s := s.setNv { s.nv with moves := s.nv.moves.filter fun x => !(x.group == g && x.band == m.band) }
  ((s.jEnd jMove (g * 16 + m.band)).count Key.tlRefreshes)

/-- A stripe of an entry that lies in a band of a group. -/
def State.leafInBand (s : State) (g b : Nat) (e n : Nat) : Bool :=
  let x := s.lib e
  x.man.groupOf x.variant (n / 32) == some g && (match Tab.find x.rows (n / 32) with | some r => r / 512 == b | none => false)

/-- The group's move is finished: every row is sensed, and programmed in the destination, or the rest can be programmed as
continuous operations now (R631, R633). -/
def State.remapDue (s : State) (g : Nat) : Option BandMove :=
  match s.groupMove g with
  | some m =>
    if m.rows = some (s.bandOf g m.band).used ∧
        (m.prog = (s.bandOf g m.band).used ∨ s.mayProgram [] g = true) then some m else none
  | none => none

/-- A wear move and a rescue have their own counts, and what a rescue could not correct is lost (R626, R638). -/
def State.countMove (s : State) (m : BandMove) (lost : List (Nat × Nat)) : State :=
  let s := if m.kind = .wear then s.count Key.tlWearMoves else s
  if m.rescue then
    (lost.filter fun p => s.leafInBand m.group m.band p.1 p.2).foldl (fun s p => s.loseLeaf p.1 p.2) (s.count Key.tlRescues)
  else s

/-- SCRUB_PASS: every programmed row of every band has been sensed once (R636). -/
def scrubPass (s : State) : State :=
  if ¬ s.up ∨ ¬ s.coreOn then s
  else
    let s := s.nv.bands.foldl (fun s e => if e.2.used = 0 then s else s.readBand (e.1 / 16) (e.1 % 16) e.2.used) s
    s.setNv { s.nv with scrubAt := s.rtc.toNat }

def execScrubPass (s : State) : Host.Outcome State Fault Refusal := .next (scrubPass s)

/-! ### The T3 aperture (R572, R575 to R581) -/

/-- A stripe joins its group's aperture queue, unless buffered or queued. -/
def State.queueAperture (s : State) (e k : Nat) : State :=
  let x := s.lib e
  match x.man.groupOf x.variant k with
  | some g =>
    let q := Tab.get s.weave.aptQueue [] g
    if (s.buffered e k).isSome ∨ q.contains (e, k) ∨ (Tab.get s.weave.sensed [] g).any (fun u => u == .aperture e k) then s
    else s.setWeave { s.weave with aptQueue := Tab.set s.weave.aptQueue [] g (q ++ [(e, k)]) }
  | none => s

/-- Leaf `i` of the window, read from byte `j` on for `len` bytes within the leaf. -/
def State.aptLeaf (s : State) (i j len : Nat) : State :=
  let w := s.rd Key.t3Window
  let e := w / 2 ^ 32
  let n := w % 2 ^ 32 + i
  let x := s.lib e
  if 63 < e ∨ ¬ x.installed ∨ 32 * x.stripes ≤ n then s.aptRefuse Key.aptRange 3 i .unsupportedRequest
  else if x.man.xoStripe (n / 32) then s.aptRefuse Key.aptXo 1 i .completerAbort
  else
    let busy := (x.man.groupOf x.variant (n / 32)).any s.groupBusy
    match s.buffered e (n / 32) with
    | some a =>
      let s := s.emit (.barRead (a.payload (n % 32) j len))
      if 24 ≤ n % 32 ∧ n / 32 + 1 < x.stripes ∧ x.man.xoStripe (n / 32 + 1) = false then s.queueAperture e (n / 32 + 1) else s
    | none =>
      if busy then s.aptRefuse Key.aptBusy 2 i .completerAbort
      else
        (s.setWeave { s.weave with
          aptReads := s.weave.aptReads ++ [{ entry := e, leaf := n, index := i, byte := j, len := len }] }).queueAperture e (n / 32)

/-- A BAR2 read of the aperture, leaf by leaf; `off` counts from the window's start. -/
def State.aptRead (s : State) (off len : Nat) : State :=
  let first := off / 8192
  let last := (off + len - 1) / 8192
  (upFrom first (last + 1 - first)).foldl (fun s i =>
    let lo := max off (8192 * i)
    let hi := min (off + len) (8192 * (i + 1))
    s.aptLeaf i (lo - 8192 * i) (hi - lo)) s

end Sys2Proof.Machine
end

