-- ==== Sys2Proof/Machine/Press.lean ====
section
/-! DEFINITION. The press (13): descriptors, their submission, operations and completions, the auxiliary array, the OTP
row, band moves asked for by descriptor, firmware staging and update. -/

namespace Sys2Proof.Machine

/-! ### The OTP row and the lifecycle (R589, R590, R866) -/

def State.otpByte (s : State) (a : Nat) : Nat := (Mem.read s.nv.otp a).toNat

/-- The lifecycle state of the OTP row: the highest lifecycle bit (R866). -/
def State.lcRow (s : State) : Nat :=
  let v := s.otpByte 0x160
  if bit v 2 then 3 else if bit v 1 then 2 else if bit v 0 then 1 else 0

/-- LC_STATE: it reads the new state from the completion of a transition (R870). -/
def State.lc (s : State) : Nat := s.sec.lcHeld.getD s.lcRow

/-- The value of a thermometer of `n` bits: consecutive 1 bits counted from bit 0 (R591). -/
def thermo (v : Nat) : Nat → Nat
  | 0 => 0
  | n + 1 => if bit v 0 then thermo (v / 2) n + 1 else 0

def State.arbFirmware (s : State) : Nat := thermo (Mem.readLe s.nv.otp 0x150 8) 64
def State.arbSlipcase (s : State) : Nat := thermo (Mem.readLe s.nv.otp 0x158 8) 64
def State.serial (s : State) : Nat := Mem.readLe s.nv.otp 0 8

def lcBlank : Nat := 0
def lcProvisioned : Nat := 1
def lcField : Nat := 2
def lcRma : Nat := 3

/-- OR 8 bytes into the OTP row (R590). -/
def State.otpOr (s : State) (a v : Nat) : State :=
  s.setNv { s.nv with otp := Mem.writeLe s.nv.otp a 8 ((Mem.readLe s.nv.otp a 8) ||| v) }

/-- Bit `n` of OTP byte `a` may be programmed by the role in the lifecycle state (R882). -/
def otpRight (lc : Nat) (factory : Bool) (a n : Nat) : Bool :=
  if a < 0x56 then lc == lcBlank && factory
  else if 0x80 ≤ a ∧ a < 0x140 then decide (lc ≤ lcProvisioned) && factory
  else if 0x140 ≤ a ∧ a < 0x144 then
    (n == 0 && decide (lc ≤ lcProvisioned) && factory) ||
      (n == 1 && (if factory then decide (lc ≤ lcProvisioned) else lc == lcProvisioned || lc == lcField))
  else if 0x200 ≤ a ∧ a < 0x300 then decide (lc ≤ lcProvisioned) && factory
  else false

/-- A bit of an OTP_PROGRAM that R883 or R884 denies. -/
def State.otpDenied (s : State) (factory : Bool) (addr v : Nat) : Bool :=
  (List.range 64).any fun i =>
    let a := addr + i / 8
    bit v i &&
      (!otpRight s.lc factory a (i % 8) ||
       (decide (0x140 ≤ a ∧ a < 0x144) && i % 8 == 0 &&
         Mem.readN s.nv.otp (0x80 + 48 * (a - 0x140)) 48 == List.replicate 48 0) ||
       (decide (0x80 ≤ a ∧ a < 0x140) && bit (s.otpByte (0x140 + (a - 0x80) / 48)) 0))

/-! ### Descriptors (R604 to R606) -/

structure PDesc where
  op : Nat
  dflags : Nat
  tag : Nat
  stitch : Nat
  keysel : Nat
  target : Nat
  data : Nat
  count : Nat
  deriving DecidableEq, Repr

def parseDesc (b : List Byte) : PDesc :=
  { op := fieldLe b 0 1, dflags := fieldLe b 1 1, tag := fieldLe b 2 2, stitch := fieldLe b 4 2, keysel := fieldLe b 6 1,
    target := fieldLe b 8 8, data := fieldLe b 16 8, count := fieldLe b 24 4 }

/-- NV address fields (R605). -/
def nvGroup (t : Nat) : Nat := bits t 21 18
def nvBlock (t : Nat) : Nat := bits t 13 9
def nvPage (t : Nat) : Nat := bits t 8 0
def nvSector (t : Nat) : Nat := bits t 9 0
def isAux (t : Nat) : Bool := bit t 63
def nvBanks (t : Nat) : List Nat := if bits t 17 14 = 0xF then List.range 8 else [bits t 17 14]

/-- Offsets of bad fields of a main-array address. -/
def badMain (t : Nat) : List Nat :=
  (if 17 < nvBlock t ∨ (7 < bits t 17 14 ∧ bits t 17 14 < 0xF) then [9] else []) ++
    (if bits t 62 22 ≠ 0 then [10] else [])

def badAux (t : Nat) : List Nat := if bits t 62 10 ≠ 0 then [9] else []

/-- DATA of a PROGRAM_RUN names a leaf in T1 or T2 (R606). -/
def pressSourceForm (v : Nat) : Bool :=
  match (addrOf v).map Addr.form with
  | some (.slice _) => true
  | some .commons => true
  | some .t2 => true
  | _ => false

/-- Offsets of the reserved fields and codes of a descriptor that are wrong (R614 check 1). -/
def badDesc (b : List Byte) : List Nat :=
  let d := parseDesc b
  let bad := fun (c : Bool) (o : Nat) => if c then [o] else []
  bad (d.op == 0 || decide (6 < d.op)) 0 ++ bad (decide (3 < d.dflags)) 1 ++
  bad (!bit d.dflags 0 && d.stitch != 0) 4 ++ bad (decide (4095 < d.stitch)) 5 ++
  bad (fieldLe b 7 1 != 0) 7 ++ bad (fieldLe b 28 4 != 0) 28 ++
  (match d.op with
    | 1 => bad (nvPage d.target != 0) 8 ++ badMain d.target ++ bad (isAux d.target) 15 ++ bad (d.data != 0) 16 ++
        bad (d.count != 0) 24
    | 2 => badAux d.target ++ bad (!isAux d.target) 15 ++ bad (d.data != 0) 16 ++
        bad (d.count == 0 || decide (80 < d.count)) 24
    | 3 =>
      bad (!pressSourceForm d.data) 16 ++
      (if isAux d.target then badAux d.target ++ bad (d.count == 0 || decide (80 < d.count)) 24
        else bad (nvPage d.target % 4 != 0) 8 ++ badMain d.target ++
          bad (d.count == 0 || d.count % 4 != 0 || decide (512 < nvPage d.target + d.count)) 24)
    | 4 => bad (addrOf d.data).isNone 16 ++ bad (d.count == 0 || decide (4096 < d.count)) 24
    | 5 => bad (d.target % 8 != 0) 8 ++ bad (decide (2047 < d.target)) 9 ++ bad (d.count != 0) 24
    | 6 => bad (decide (255 < d.target)) 9 ++ bad (d.data != 0) 16 ++ bad (d.count != 0) 24
    | _ => [])

/-! ### Completions (R607, R608) -/
namespace PS
def ok : Nat := 0
def xoViolation : Nat := 1
def noHandle : Nat := 2
def range : Nat := 3
def denied : Nat := 4
def programFail : Nat := 5
def eraseFail : Nat := 6
def uncorrectable : Nat := 7
def auth : Nat := 8
def aborted : Nat := 9
def retired : Nat := 10
def format : Nat := 11
end PS

def pressBytes (d : PDesc) (status done detail us : Nat) : List Byte :=
  natLe 2 d.tag ++ natLe 1 d.op ++ natLe 1 status ++ natLe 4 done ++ natLe 4 detail ++ natLe 4 (min us 0xFFFFFFFF)

/-- The command a role submits through (R611). -/
def submitKey : PressSource → Option Nat
  | .host => some Key.pressSubmitH
  | .factory => some Key.pressSubmitH
  | .quire q => some (Key.pressSubmitQ (q.val + 1))
  | _ => none

/-- Operations a source submits (R600). -/
def sourceOps : PressSource → List Nat
  | .translation => [1, 2, 3, 4, 6]
  | .loader => [1, 3]
  | .training => [3]
  | .firmware => [2, 3]
  | .host => [5, 6]
  | .factory => [5]
  | .quire _ => [4]

def PressOp.desc (x : PressOp) : PDesc :=
  { op := x.op, dflags := x.dflags, tag := x.tag, stitch := x.stitch, keysel := 0, target := x.target, data := x.data,
    count := x.count }

/-- A press completion reaches its submitter: a CMD's result block, or the engine that submitted it. -/
def State.pressAnswer (s : State) (src : PressSource) (bytes : List Byte) : State :=
  match submitKey src with
  | some k => s.cmdDone k DS.ok bytes
  | none => s.emit (.pressCompletion bytes)

/-- The stitch of a completed descriptor is signalled, if its quire still owns it (R334); one made speculative since the
acceptance freezes the quire and takes no signal (R332, R354). -/
def State.pressSignal (s : State) (src : PressSource) (d : PDesc) : State :=
  match src with
  | .quire q =>
    if ¬ bit d.dflags 0 ∨ ¬ s.ownsStitch q d.stitch then s
    else if (s.stitch d.stitch).spec then s.freeze q FC.format (detail := 4)
    else s.signal d.stitch 1
  | _ => s

/-! ### Band moves by descriptor (R635) -/

/-- The band's move, queued now if none is, goes ahead of every move not yet started (R635). -/
def State.queueDescMove (s : State) (g b : Nat) : State :=
  let s := s.queueMove g b .refresh
  let mine := fun (m : BandMove) => m.rows.isNone && m.group == g && m.band == b
  s.setNv { s.nv with
    moves := (s.nv.moves.filter fun m => m.rows.isSome) ++ s.nv.moves.filter mine ++
      s.nv.moves.filter fun m => m.rows.isNone && !mine m }

/-! ### Starting operations (R561 to R563, R601, R615, R620) -/

/-- An erase or program of the main array, and of the auxiliary array. -/
def PressOp.isMain (x : PressOp) : Bool := (x.op == 1 || x.op == 3) && !isAux x.target
def PressOp.isAuxOp (x : PressOp) : Bool := x.op == 2 || (x.op == 3 && isAux x.target)

/-- Sectors of an auxiliary erase or program. -/
def PressOp.sectors (x : PressOp) : List Nat := if x.isAuxOp then upFrom (nvSector x.target) x.count else []

def State.setOp (s : State) (x : PressOp) : State :=
  s.setNv { s.nv with press := s.nv.press.map fun y => if y.id = x.id then x else y }

/-- Units of a main-array operation go under way, journaled: one erase block of each named bank, or 4 pages on each plane of
each named bank from the first page not yet programmed (R562, R647). -/
def State.nextUnits (s : State) (x : PressOp) : State :=
  (s.jStart jMain (x.target + x.done)).addUnit (nvGroup x.target) (.op x.id) (nvBanks x.target)

/-- The sectors an auxiliary operation takes next: those at its front whose plane pairs run no sector operation of the ring,
while at most two pairs do (R620). -/
def State.nextSectors (s : State) (x : PressOp) : List Nat :=
  (x.sectors.drop x.done).foldl (fun (p : List Nat × Bool) n =>
    if p.2 ∧ (s.ringPairs ++ p.1.map pairOf).length < 2 ∧ ¬ (s.ringPairs ++ p.1.map pairOf).contains (pairOf n) then
      (p.1 ++ [n], true)
    else (p.1, false)) ([], true) |>.1

/-- The next sectors of an auxiliary operation go under way, journaled (R620, R647). -/
def State.takeSectors (s : State) (x : PressOp) : State :=
  let l := s.nextSectors x
  (l.foldl (fun s n => s.jStart jSector n) s).setOp { x with under := l }

/-- A descriptor can start: the banks it names are free of other operations, or a plane pair is left for its first sector. -/
def State.canStartOp (s : State) (x : PressOp) : Bool :=
  if x.isMain then s.banksFree (nvGroup x.target) (nvBanks x.target)
  else if x.isAuxOp then !(s.nextSectors x).isEmpty
  else true

/-- What an operation does when it starts: units of the main or auxiliary array go under way; a READ_RUN queues its senses;
a REFRESH_MOVE queues its move. -/
def State.startPress (s : State) (x : PressOp) : State :=
  let x := { x with running := true }
  let s := s.setOp x
  if x.isMain then s.nextUnits x
  else if x.isAuxOp then s.takeSectors x
  else if x.op = 4 then
    let e := x.target / 2 ^ 32 % 64
    let n := x.target % 2 ^ 32
    (upFrom (n / 32) ((n + x.count - 1) / 32 + 1 - n / 32)).foldl (fun s k =>
      match (s.lib e).man.groupOf (s.lib e).variant k with
      | some g => s.queueTl g (.readRun x.id e k)
      | none => s) s
  else if x.op = 6 then s.queueDescMove (x.target % 16) (x.target / 16)
  else s

/-- The ring is served: sectors left over take the plane pairs that are free, then waiting descriptors start, those of one
source in order, those of different sources in ring order; one that cannot start holds back only its source's (R601). -/
def State.serveRing (s : State) : State :=
  let s := s.nv.press.foldl (fun s x => if x.running ∧ x.isAuxOp = true ∧ x.under = [] then s.takeSectors x else s) s
  (s.nv.press.foldl (fun (p : State × List PressSource) x =>
    if x.running then p
    else if p.2.contains x.src then p
    else if p.1.canStartOp x then (p.1.startPress x, p.2)
    else (p.1, x.src :: p.2)) (s, [])).1

/-- WEAVE_SLOT_START: the slot's uses, and descriptors that waited for banks an engine has left. -/
def weaveSlotStart (s : State) : State := if ¬ s.up ∨ ¬ s.coreOn then s else s.slotUses.serveRing

def execWeaveSlotStart (s : State) : Host.Outcome State Fault Refusal := .next (weaveSlotStart s)

/-! ### Submission (R611 to R614) -/

/-- What a descriptor meets before its operation: the status it completes with at once, with DETAIL (XO and the sectors
beyond the array: DEDUCED, log entry 103). -/
def State.pressAtOnce (s : State) (src : PressSource) (d : PDesc) : Option (Nat × Nat) :=
  match d.op with
  | 4 =>
    let h := d.target / 2 ^ 32
    let n := d.target % 2 ^ 32
    let entry := match src with | .quire q => s.validHandle q h | _ => if (s.lib (h % 64)).installed then some (h % 64) else none
    match entry with
    | none => some (PS.noHandle, 0)
    | some e =>
      let x := s.lib e
      let leaves := upFrom n d.count
      if 32 * x.stripes < n + d.count then some (PS.range, max n (32 * x.stripes))
      else
        match leaves.find? fun l => x.man.xoStripe (l / 32) with
        | some l => some (PS.xoViolation, l)
        | none =>
          if leaves.any fun l => match x.man.groupOf x.variant (l / 32) with
            | some g => !s.groupInService g
            | none => true then some (PS.retired, 0) else none
  | 5 =>
    let factory := match src with | .factory => true | _ => false
    if s.otpDenied factory d.target d.data then some (PS.denied, 0) else none
  | 6 =>
    let g := d.target % 16
    if ¬ s.groupInService g then some (PS.retired, 0)
    else if (s.bandOf g (d.target / 16)).used = 0 then some (PS.range, 0)
    else none
  | _ =>
    if isAux d.target then (if 1024 < nvSector d.target + d.count then some (PS.range, 1024) else none)
    else if ¬ s.groupInService (nvGroup d.target) then some (PS.retired, 0)
    else none

/-- A quire's descriptor that fails a check of R614: the freeze, and the offset of the bad field (R607). -/
def State.pressFreeze (s : State) (q : QNum) (b : List Byte) : Option (State × Nat) :=
  let d := parseDesc b
  match (sortNat (badDesc b)).head? with
  | some o => some (s.freeze q FC.format (detail := o), o)
  | none =>
    if bit d.dflags 1 then some (s.freeze q FC.format (detail := 1), 1)
    else if d.keysel ≠ 0 then some (s.freeze q FC.format (detail := 6), 6)
    else if bit d.dflags 0 ∧ ¬ s.ownsStitch q d.stitch then some (s.freeze q FC.foreignStitch (detail := d.stitch), 4)
    else if bit d.dflags 0 ∧ (s.stitch d.stitch).spec then some (s.freeze q FC.format (detail := 4), 4)
    else
      match addrOf d.data with
      | none => none
      | some a =>
        let bad := (List.range d.count).find? fun i => match s.resolve q (a.advance i) with
          | .own _ _ _ => false
          | _ => true
        bad.map fun i => (s.freeze q FC.foreignLeaf (detail := bits (a.advance i).encode 43 12), 16)

/-- The failing offset of a descriptor of HOST-P or FACTORY (R614). -/
def hostDescBad (b : List Byte) : Option Nat :=
  let d := parseDesc b
  match (sortNat (badDesc b)).head? with
  | some o => some o
  | none => if d.dflags ≠ 0 then some 1 else if d.keysel ≠ 0 then some 6 else none

/-- The failing offset of an engine's descriptor: KEYSEL names a slot exactly with DECRYPT, which the slipcase loader alone
uses, and no engine signals (R600, R604). -/
def engineDescBad (src : PressSource) (b : List Byte) : Option Nat :=
  let d := parseDesc b
  match (sortNat (badDesc b)).head? with
  | some o => some o
  | none =>
    if bit d.dflags 0 ∨ (bit d.dflags 1 ∧ ¬ (src = .loader ∧ d.op = 3)) then some 1
    else if bit d.dflags 1 = decide (1 ≤ d.keysel ∧ d.keysel ≤ 15) ∧ (bit d.dflags 1 ∨ d.keysel = 0) then none
    else some 6

/-- A descriptor that completes where it is accepted. -/
def State.pressNow (s : State) (src : PressSource) (d : PDesc) (status detail : Nat) : State :=
  let s := match submitKey src with
    | some k => s.cmdStart k
    | none => s
  ((s.pressAnswer src (pressBytes d status 0 detail 0)).pressSignal src d)

/-- A descriptor joins the ring. -/
def State.pressAccept (s : State) (src : PressSource) (d : PDesc) : State :=
  let id := s.nv.nextOp
  let s := match submitKey src with
    | some k => s.cmdStart k
    | none => s
  let s := s.setNv { s.nv with
    nextOp := id + 1,
    press := s.nv.press ++ [PressOp.mk id src d.op d.dflags d.tag d.stitch d.target d.data d.count false false 0 []] }
  s.serveRing

/-- The ring holds 256 descriptors (R656). -/
def pressRing : Nat := 256

/-- One descriptor is submitted: the status of the write. -/
def pressSubmit (src : PressSource) (b : List Byte) (s : State) : Nat × State :=
  let d := parseDesc b
  let busy : Bool := match submitKey src with | some k => s.cmdRunning k | none => false
  if 1 ≤ d.op ∧ d.op ≤ 6 ∧ ¬ (sourceOps src).contains d.op then (DS.role, s)
  else if busy || decide (pressRing ≤ s.nv.press.length) then (DS.busy, s)
  else
    match src with
    | .quire q =>
      match s.pressFreeze q b with
      | some t => (DS.ok, t.1.pressAnswer src (pressBytes d PS.format 0 t.2 0))
      | none =>
        match s.pressAtOnce src d with
        | some p => (DS.ok, s.pressNow src d p.1 p.2)
        | none => (DS.ok, s.pressAccept src d)
    | _ =>
      let bad := if (submitKey src).isSome then hostDescBad b else engineDescBad src b
      match bad with
      | some o => (DS.ok, s.pressNow src d PS.format o)
      | none =>
        match s.pressAtOnce src d with
        | some p => (DS.ok, s.pressNow src d p.1 p.2)
        | none => (DS.ok, s.pressAccept src d)

/-- A descriptor of one operation given as its own command: an engine's is accepted or waits, a role's is answered. -/
def pressRow (op : Nat) (src : PressSource) (b : List Byte) (s : State) : State :=
  if fieldLe b 0 1 ≠ op ∨ ¬ s.up ∨ ¬ s.coreOn then s
  else
    let r := pressSubmit src b s
    if (submitKey src).isSome then (r.2.noteStatus r.1).answer r.1 else r.2

def execEraseBlock (src : PressSource) (desc : List Byte) (s : State) : Host.Outcome State Fault Refusal :=
  .next (pressRow 1 src desc s)
def execEraseSector (src : PressSource) (desc : List Byte) (s : State) : Host.Outcome State Fault Refusal :=
  .next (pressRow 2 src desc s)
def execProgramRun (src : PressSource) (desc : List Byte) (s : State) : Host.Outcome State Fault Refusal :=
  .next (pressRow 3 src desc s)
def execReadRun (src : PressSource) (desc : List Byte) (s : State) : Host.Outcome State Fault Refusal :=
  .next (pressRow 4 src desc s)
def execOtpProgram (src : PressSource) (desc : List Byte) (s : State) : Host.Outcome State Fault Refusal :=
  .next (pressRow 5 src desc s)
def execRefreshMove (src : PressSource) (desc : List Byte) (s : State) : Host.Outcome State Fault Refusal :=
  .next (pressRow 6 src desc s)

/-! ### Effects of operations -/

/-- Blocks of a main-array address that an erase may take: not in use, not bad. -/
def State.eraseMain (s : State) (t : Nat) (verified : Bool) : State × Bool :=
  let g := nvGroup t
  let n := nvBlock t
  let l := (nvBanks t).filter fun k => (s.block g k n).state != .inUse && (s.block g k n).state != .bad
  if verified then (l.foldl (fun s k => s.eraseBlockAt g k n) s, true)
  else
    ((match l with
      | k :: _ => s.badBlock g k n
      | [] => s).count Key.pressEraseFails, false)

/-- A sector of the auxiliary array erased: a firmware slot, a copy of the commit record, or another sector (R586). -/
def State.eraseSectorAt (s : State) (n : Nat) : State :=
  let b := s.nv.boot
  if 512 ≤ n ∧ n < 592 then
    s.setNv { s.nv with boot := { b with slotA := some (Mem.clear (b.slotA.getD []) (8192 * (n - 512)) 8192) } }
  else if 592 ≤ n ∧ n < 672 then
    s.setNv { s.nv with boot := { b with slotB := some (Mem.clear (b.slotB.getD []) (8192 * (n - 592)) 8192) } }
  else if n = 672 then s.setNv { s.nv with boot := { b with copy0 := { b.copy0 with crcOk := false } } }
  else if n = 673 then s.setNv { s.nv with boot := { b with copy1 := { b.copy1 with crcOk := false } } }
  else s.setNv { s.nv with aux := Mem.clear s.nv.aux (8192 * n) 8192 }

/-- A sector programmed with a leaf payload. The commit record is programmed by the firmware update itself. -/
def State.programSectorAt (s : State) (n : Nat) (f : Mem) : State :=
  let b := s.nv.boot
  let p := Mem.slice f 256 8192
  if 512 ≤ n ∧ n < 592 then
    s.setNv { s.nv with boot := { b with slotA := some (Mem.paste (b.slotA.getD []) (8192 * (n - 512)) 8192 p) } }
  else if 592 ≤ n ∧ n < 672 then
    s.setNv { s.nv with boot := { b with slotB := some (Mem.paste (b.slotB.getD []) (8192 * (n - 592)) 8192 p) } }
  else if n = 672 ∨ n = 673 then s
  else s.setNv { s.nv with aux := Mem.paste s.nv.aux (8192 * n) 8192 p }

/-- A T1 or T2 leaf by its place, whoever owns it: what the press reads for an engine. -/
def State.rawLeaf (s : State) (a : Addr) : Mem :=
  match a.form with
  | .slice b => s.leaf (.slice b) a.leaf
  | .commons => s.leaf .commons a.leaf
  | .t2 => s.leaf .t2 a.leaf
  | _ => []

/-- The source leaves of one page position of a main-array PROGRAM_RUN, in the order of its banks (R606): T1 or T2 leaves
from the `n`-th on, or the leaves the key engine decrypts from them. -/
def State.sourceLeaves (s : State) (x : PressOp) (per n : Nat) (plain : List Byte) (skip : Nat) : Mem :=
  match addrOf x.data with
  | none => []
  | some a => (List.range per).foldl (fun m j =>
      Mem.setLeaf m j (if bit x.dflags 1 then Mem.ofList (bytesAt plain (leafBytes * (skip + j)) leafBytes)
        else s.rawLeaf (a.advance (n + j)))) []

/-- Four page positions of a main-array PROGRAM_RUN, from its first not yet programmed, take their source leaves: 32 for
each row when it names all banks, else 4 (R553, R606). -/
def State.programMain (s : State) (x : PressOp) (plain : List Byte) : State :=
  let banks := nvBanks x.target
  let per := 4 * banks.length
  (List.range 4).foldl (fun s i =>
    let f := s.sourceLeaves x per (per * (x.done + i)) plain (per * i)
    (((List.range banks.length).foldl (fun s j =>
      s.programPages (nvGroup x.target) (banks.getD j 0) (nvBlock x.target) (nvPage x.target + x.done + i)
        (Mem.slice f (4 * j * leafBytes) (4 * leafBytes))) s)).count Key.pressBytes (per * 8192)) s

/-- The leaves a READ_RUN delivers. -/
def State.deliverRun (s : State) (x : PressOp) (n : Nat) : State :=
  match x.src, addrOf x.data with
  | .quire q, some a =>
    let e := x.target / 2 ^ 32 % 64
    (List.range n).foldl (fun s i => s.putFrame q (a.advance i) (s.libFrame e (x.target % 2 ^ 32 + i))) s
  | _, _ => s

/-- A sector erase or program of the parameter region that fails makes its sector bad (R645). -/
def State.sectorFails (s : State) (n : Nat) : State := if n < 512 then s.uncount Key.paramUsable else s

/-- What the units under way of an operation do when they end, and how its descriptor then completes: STATUS, DONE and
DETAIL, none while more of it is to do. -/
def State.endPress (s : State) (x : PressOp) (f : PressFacts) : State × Option (Nat × Nat × Nat) :=
  let n := x.under.headD (nvSector x.target)
  let done := x.done + x.under.length
  let ended := if done < x.count then none else some (PS.ok, x.count, 0)
  match x.op with
  | 1 =>
    let r := s.eraseMain x.target f.verified
    if r.2 then (r.1, some (PS.ok, 0, 0)) else (r.1, some (PS.eraseFail, 0, x.target % 2 ^ 32))
  | 2 =>
    if f.verified then (x.under.foldl State.eraseSectorAt s, ended)
    else ((s.count Key.pressEraseFails).sectorFails n, some (PS.eraseFail, x.done, n))
  | 3 =>
    if ¬ f.tagOk ∧ bit x.dflags 1 then (s, some (PS.auth, x.done, 0))
    else if isAux x.target then
      if ¬ f.verified then ((s.count Key.pressProgramFails).sectorFails n, some (PS.programFail, x.done, n))
      else
        match addrOf x.data with
        | some a => (x.under.foldl (fun s m =>
            s.programSectorAt m (s.rawLeaf (a.advance (m - nvSector x.target)))) s, ended)
        | none => (s, ended)
    else if ¬ f.verified then
      ((s.count Key.pressProgramFails).badBlock (nvGroup x.target) ((nvBanks x.target).headD 0) (nvBlock x.target),
        some (PS.programFail, x.done, (x.target + x.done) % 2 ^ 32))
    else (s.programMain x f.plain, if x.done + 4 < x.count then none else some (PS.ok, x.count, 0))
  | 4 =>
    let n := x.target % 2 ^ 32
    match f.uncorrLeaf with
    | some l =>
      if n ≤ l ∧ l < n + x.count then
        (((((s.deliverRun x (l - n)).count Key.nvRetries 3).count Key.nvUncorr).alert AL.nvUncorr).moveStripe
          (x.target / 2 ^ 32 % 64) (l / 32), some (PS.uncorrectable, l - n, l))
      else (s.deliverRun x x.count, some (PS.ok, x.count, 0))
    | none => (s.deliverRun x x.count, some (PS.ok, x.count, 0))
  | 5 =>
    let old := Mem.readLe s.nv.otp x.target 8
    if f.verified ∨ old ||| x.data = old then (s.otpOr x.target x.data, some (PS.ok, 8, 0))
    else
      -- some of the bits still read 0: which, the spec does not say (log entry 8)
      let v := x.data &&& s.fresh.1
      let v := if (old ||| v) &&& x.data = x.data then 0 else v
      ((s.fresh.2.otpOr x.target v).count Key.pressProgramFails, some (PS.programFail, 0, x.target % 2 ^ 32))
  | _ => (s, some (PS.ok, 0, 0))

def dropOp (s : State) (id : Nat) : State := s.setNv { s.nv with press := s.nv.press.filter fun y => y.id != id }

/-- The units under way of an operation have ended: their END entries (R648). -/
def State.unitsEnd (s : State) (x : PressOp) : State :=
  let s := if x.isMain then (s.jEnd jMain (x.target + x.done)).endUnit (nvGroup x.target) (.op x.id) else s
  x.under.foldl (fun s n => s.jEnd jSector n) s

/-- An operation goes on with its next units (R562, R620). -/
def State.pressOn (s : State) (x : PressOp) : State :=
  let s := s.unitsEnd x
  let y : PressOp := { x with done := x.done + (if x.isMain then 4 else x.under.length), under := [] }
  let s := s.setOp y
  (if x.isMain then s.nextUnits y else s).serveRing

/-- An operation leaves the ring with its completion, and what waited for its banks or pairs starts. -/
def State.pressDone (s : State) (x : PressOp) (status done detail us : Nat) (signal : Bool) : State :=
  let s := (dropOp s x.id).unitsEnd x
  let s := s.pressAnswer x.src (pressBytes x.desc status done detail us)
  let s := if signal then s.pressSignal x.src x.desc else s
  s.serveRing

/-- A READ_RUN's senses are not all delivered. -/
def State.runSensing (s : State) (id : Nat) : Bool :=
  let mine := fun (x : TlSense) => match x with | .readRun i _ _ => i == id | _ => false
  (List.range 12).any fun g => (Tab.get s.weave.tlQueue [] g).any mine ||
    (Tab.get s.weave.sensed [] g).any fun u => match u with | .tl x => mine x | _ => false

/-- A REFRESH_MOVE descriptor of a band that waits for its remap. -/
def PressOp.asksMove (x : PressOp) (g b : Nat) : Bool :=
  x.running && x.op == 6 && x.target % 16 == g && x.target / 16 == b

/-- Units of the operation can end now: in the main array its continuous operation runs or the slot is its press step
(R561); in the auxiliary array sectors of it are under way; a READ_RUN's senses are delivered. -/
def State.canEnd (s : State) (x : PressOp) : Bool :=
  x.running && !x.suspended && !s.runSensing x.id && s.coreOn &&
    (!x.isMain || s.pressing (nvGroup x.target) (.op x.id)) && (!x.isAuxOp || !x.under.isEmpty)

/-- PRESS_OP_COMPLETE: the units of a running operation that are under way end; with its last ones the descriptor completes
(R602, R607; log entry 100). A REFRESH_MOVE ends at its remap instead (R635); one whose move stopped because its band was
unloaded completes with RANGE, its band holding no programmed row, and one whose group has left service with RETIRED. -/
def pressOpComplete (id : Nat) (f : PressFacts) (s : State) : State :=
  match s.nv.press.find? fun y => y.id == id with
  | none => s
  | some x =>
    if ¬ s.canEnd x then s
    else if x.op = 6 then
      if ¬ s.groupInService (x.target % 16) then s.pressDone x PS.retired 0 0 f.timeUs true
      else if s.nv.moves.any fun m => x.asksMove m.group m.band then s
      else s.pressDone x PS.range 0 0 f.timeUs true
    else
      let r := s.endPress x f
      match r.2 with
      | some c => r.1.pressDone x c.1 c.2.1 c.2.2 f.timeUs true
      | none => r.1.pressOn x

def execPressOpComplete (id : Nat) (f : PressFacts) (s : State) : Host.Outcome State Fault Refusal :=
  .next (pressOpComplete id f s)

/-- A reset of a quire stops its READ_RUN: ABORTED, no signal (R616). -/
def State.abortRuns (s : State) (q : QNum) : State :=
  match s.nv.press.find? fun y => y.src == .quire q with
  | some x =>
    let keep := fun (t : TlSense) => match t with | .readRun i _ _ => i != x.id | _ => true
    let s := s.setWeave { s.weave with
      tlQueue := (s.weave.tlQueue.map fun e => (e.1, e.2.filter keep)).filter fun e => decide (e.2 ≠ []) }
    s.pressDone x PS.aborted 0 0 0 false
  | none => s

/-! ### Remap (R633, R635) -/

/-- REFRESH_REMAP: the finished move of the group switches the band's tables; the descriptors that asked for it
complete, their TIME_US free (log entry 9). -/
def refreshRemap (g : GroupNum) (lost : List (Nat × Nat)) (s : State) : State :=
  match s.remapDue g.val with
  | none => s
  | some m =>
    let rows := (s.bandOf g.val m.band).used
    let s := (s.remap m).countMove m lost
    (s.nv.press.filter fun x => x.asksMove g.val m.band).foldl (fun s x =>
      s.fresh.2.pressDone x PS.ok rows 0 s.fresh.1 true) s

def execRefreshRemap (g : GroupNum) (lostLeaves : List (Nat × Nat)) (s : State) : Host.Outcome State Fault Refusal :=
  .next (refreshRemap g lostLeaves s)

/-! ### Suspend and resume (R620 to R623) -/

/-- An operation of the ring works on an auxiliary plane pair, in the parameter or the boot region (R621, R623). -/
def PressOp.onPair (x : PressOp) (pair : Nat) : Bool :=
  x.running && x.under.any fun n => pairOf n == pair && decide (n < 674)

/-- PRESS_SUSPEND: a read suspends the operation on its plane pair (R621, R623). -/
def pressSuspend (pair : Fin 4) (s : State) : State :=
  match s.nv.press.find? fun x => x.onPair pair.val && !x.suspended with
  | none => s
  | some x => (s.setNv { s.nv with
      press := s.nv.press.map fun y => if y.id = x.id then { y with suspended := true } else y }).count Key.pressSuspends

def execPressSuspend (pair : Fin 4) (s : State) : Host.Outcome State Fault Refusal := .next (pressSuspend pair s)

/-- PRESS_RESUME: the reads queued are served and the operation goes on (R621, R622). -/
def pressResume (pair : Fin 4) (s : State) : State :=
  match s.nv.press.find? fun x => x.onPair pair.val && x.suspended with
  | none => s
  | some x => s.setNv { s.nv with
      press := s.nv.press.map fun y => if y.id = x.id then { y with suspended := false } else y }

def execPressResume (pair : Fin 4) (s : State) : Host.Outcome State Fault Refusal := .next (pressResume pair s)

/-! ### Firmware staging and update (R651 to R655, R886 to R888) -/

/-- FW_STAGE_DATA. -/
def fwStageWrite (v : List Byte) (s : State) : Nat × State :=
  let o := s.rd Key.fwStageOffset
  if 655104 < o then (DS.range, s)
  else if s.cmdRunning Key.fwUpdate then (DS.busy, s)
  else (DS.ok, (s.setNv { s.nv with fwStage := Mem.writeL s.nv.fwStage o (bytesAt v 0 256) }).wr Key.fwStageOffset (o + 256))

/-- ARB_EPOCH of a slot's image (R887); the image the part came with has one the manual does not give. -/
def slotEpoch (o : Option Mem) : Nat :=
  match o with
  | some m => Mem.readLe m 6 1
  | none => Config.factoryEpoch % 65

/-- FW_VERSION of a slot's image (R242, R887). -/
def slotVersion (o : Option Mem) : Nat :=
  match o with
  | some m => Mem.readLe m 8 4
  | none => 0x04000000 + Config.factoryVersion % 2 ^ 24

/-- The signatures of an image: ROOT_PUB by its hash, SIGNER_PUB under it, the header under that, and the code by its hash
(R887, R888). -/
def State.imageSigned (s : State) (m : Mem) : Bool :=
  let root := Mem.readN m 64 96
  let signer := Mem.readN m 160 96
  leNat (sha384 root) == s.nv.kxFirmware && Mem.readN m 16 48 == sha384 (Mem.readN m 512 (Mem.readLe m 12 4)) &&
  ecdsaOk root (sha384 signer) (Mem.readN m 256 96) && ecdsaOk signer (sha384 (Mem.readN m 0 352)) (Mem.readN m 352 96)

/-- An image of `len` bytes verifies (R888). -/
def State.imageOk (s : State) (m : Mem) (len : Nat) : Bool :=
  let z := fun a n => Mem.readN m a n == List.replicate n (0 : Byte)
  Mem.readLe m 0 4 == 0x5746584B && Mem.readLe m 4 2 == 1 && z 7 1 && z 448 64 &&
  decide (Mem.readLe m 6 1 ≤ 64) && decide (1 ≤ Mem.readLe m 12 4 ∧ Mem.readLe m 12 4 ≤ 524288) &&
  decide (512 + Mem.readLe m 12 4 ≤ len ∧ len ≤ 655360) && decide (s.arbFirmware ≤ Mem.readLe m 6 1) &&
  s.imageSigned m

/-- The image of a slot verifies; the one the part came with is signed (R886, R888; log entry 25). -/
def State.slotOk (s : State) (o : Option Mem) : Bool :=
  match o with
  | some m => s.imageOk m 655360
  | none => decide (s.arbFirmware ≤ slotEpoch o)

/-- The commit-record copy an update writes: the invalid one, else the one with the lower sequence number (R652). -/
def BootRegion.commitSlot (b : BootRegion) (slotB : Bool) : BootRegion :=
  let write0 := !b.copy0.crcOk || (b.copy1.crcOk && decide (b.copy0.seq.toNat < b.copy1.seq.toNat))
  if write0 then { b with copy0 := { slotB := slotB, seq := b.copy1.seq + 1, crcOk := true } }
  else { b with copy1 := { slotB := slotB, seq := b.copy0.seq + 1, crcOk := true } }

/-- A slot takes an image: 80 sectors erased, the image's sectors programmed (R652 steps 2 and 3). -/
def BootRegion.putSlot (b : BootRegion) (slotB : Bool) (img : Mem) (len : Nat) : BootRegion :=
  let f := some (Mem.slice img 0 (8192 * ceilDiv len 8192))
  if slotB then { b with slotB := f } else { b with slotA := f }

/-- FW_UPDATE: verify, erase, program, read back, commit; then the device reset if asked for (R652, R653). -/
def fwUpdateWrite (arg : List Byte) (env : Env) (s : State) : Nat × State :=
  let len := fieldLe arg 0 4
  let fl := fieldLe arg 4 1
  if len = 0 ∨ 655360 < len ∨ 1 < fl ∨ fieldLe arg 5 3 ≠ 0 then (DS.range, s)
  else s.ifIdle Key.fwUpdate fun s =>
    let slotB := s.rd Key.bootSlot == 0
    let fail := fun (s : State) n => s.cmdDone Key.fwUpdate DS.state (natLe 1 (if slotB then 1 else 0) ++ [0] ++ natLe 2 n)
    if ¬ s.imageOk s.nv.fwStage len then fail s 0
    else
      let n := ceilDiv len 8192
      let s := s.setNv { s.nv with boot := s.nv.boot.putSlot slotB s.nv.fwStage len }
      if ¬ env.readBack then fail s n
      else
        let s := s.setNv { s.nv with boot := s.nv.boot.commitSlot slotB }
        let s := s.cmdDone Key.fwUpdate DS.ok (natLe 1 (if slotB then 1 else 0) ++ [0] ++ natLe 2 n)
        if fl = 1 then
          let s := s.checkpoint
          s.setNv { s.nv with boot := { s.nv.boot with resetDue := some LR.deviceReset }, ckptDue := true }
        else s

end Sys2Proof.Machine
end

