-- ==== Sys2Proof/Machine/Slipcases.lean ====
section
/-! DEFINITION. Slipcases (15): the prefix and its checks, loading from host memory, from staging and from another Q19,
admission, installing, linking, unloading. -/

namespace Sys2Proof.Machine

/-! ### The prefix (R715a, R721, R725 to R730) -/

def zeroAt (f : Nat → Byte) (o n : Nat) : Bool := (List.range n).all fun i => f (o + i) == 0

structure SlipHeader where
  kind : Nat
  hflags : Nat
  modelId : Nat
  version : Nat
  epoch : Nat
  certs : Nat
  hash : Nat
  manLen : Nat
  chunks : Nat
  bodyOff : Nat
  keyOff : Nat
  /-- NONCE_BASE: the first 8 bytes of every chunk IV (R724) -/
  nonce : List Byte
  stripes : Nat
  deriving DecidableEq, Repr

def parseSlip (f : Nat → Byte) : SlipHeader :=
  { kind := fld f 6 1, hflags := fld f 7 1, modelId := fld f 8 16, version := fld f 24 4, epoch := fld f 28 1,
    certs := fld f 29 1, hash := fld f 32 48, manLen := fld f 80 4, chunks := fld f 84 4, bodyOff := fld f 88 4,
    keyOff := fld f 92 4, nonce := natLe 8 (fld f 96 8), stripes := fld f 104 4 }

def stripeBytes : Nat := 270336
def chunkBytes : Nat := 4194304

/-- Start and end of the signature block (R715a). -/
def SlipHeader.sigStart (h : SlipHeader) : Nat := 256 + h.manLen + 16 * h.chunks
def SlipHeader.sigEnd (h : SlipHeader) : Nat := h.sigStart + 192 + 208 * h.certs

/-- Ranges and reserved fields of the header (R721). -/
def headerOk (f : Nat → Byte) : Bool :=
  let h := parseSlip f
  fld f 0 4 == 0x43504C53 && fld f 4 2 == 1 && (h.kind == 1 || h.kind == 2) && decide (h.hflags ≤ 1) &&
  decide (h.epoch ≤ 64) && (h.certs == 1 || h.certs == 2) && zeroAt f 30 2 && zeroAt f 108 148 &&
  decide (64 ≤ h.manLen ∧ h.manLen ≤ 65536) && h.chunks == ceilDiv (stripeBytes * h.stripes) chunkBytes &&
  h.bodyOff % 4096 == 0 && decide (h.bodyOff ≤ 4190208) && h.keyOff == ceilDiv h.sigEnd 16 * 16 &&
  decide (h.keyOff ≤ h.bodyOff) && (h.kind == 1 || decide (h.stripes ≤ 256))

/-- Where the parts of the manifest begin: sections, variants, impositions, slots, places, end. -/
def manParts (f : Nat → Byte) : List Nat :=
  let n := fld f 304 1
  let a := 320 + 8 * n
  let b := a + 32 * fld f 305 1
  let c := b + 16 * fld f 306 2
  let d := c + 8 * fld f 308 1
  [320, a, b, c, d, d + 16 * n * fld f 305 1]

def parseMan (f : Nat → Byte) : Manifest :=
  let p := fun i => (manParts f).getD i 0
  { textId := fld f 256 48,
    sections := (List.range (fld f 304 1)).map fun i =>
      { kind := fld f (p 0 + 8 * i) 1, isOpen := bit (fld f (p 0 + 8 * i + 1) 1) 0, leaves := fld f (p 0 + 8 * i + 4) 4 },
    variants := (List.range (fld f 305 1)).map fun i =>
      let o := p 1 + 32 * i
      { bays := fld f o 1, t1 := fld f (o + 4) 4, t2 := fld f (o + 8) 4, impFirst := fld f (o + 12) 2, impCount := fld f (o + 14) 2 },
    imps := (List.range (fld f 306 2)).map fun i =>
      let o := p 2 + 16 * i
      { sec := fld f o 1, contract := fld f (o + 2) 1, firstLeaf := fld f (o + 4) 4, length := fld f (o + 8) 4 },
    slots := (List.range (fld f 308 1)).map fun i => (fld f (p 3 + 8 * i) 2, fld f (p 3 + 8 * i + 4) 4),
    fills := fld f 310 2,
    places := (List.range (fld f 304 1 * fld f 305 1)).map fun i =>
      (List.range (fld f (p 4 + 16 * i) 1)).map fun j => fld f (p 4 + 16 * i + 1 + j) 1 }

/-- A section record: reserved fields, its kind in the slipcase's kind (R725, R727). -/
def sectionOk (f : Nat → Byte) (o kind : Nat) : Bool :=
  let k := fld f o 1
  decide (1 ≤ k ∧ k ≤ 4) && (fld f (o + 1) 1 == 0 || (k == 4 && fld f (o + 1) 1 == 1)) && zeroAt f (o + 2) 2 &&
  fld f (o + 4) 4 != 0 && !(k == 1 && kind == 2) && !(k == 3 && kind == 1)

def variantOk (f : Nat → Byte) (o imps : Nat) : Bool :=
  decide (1 ≤ fld f o 1 ∧ fld f o 1 ≤ 8) && zeroAt f (o + 1) 3 && zeroAt f (o + 16) 16 &&
  decide (fld f (o + 12) 2 + fld f (o + 14) 2 ≤ imps)

def impRecOk (f : Nat → Byte) (o : Nat) (secs : List Section) : Bool :=
  match secs[fld f o 1]? with
  | some x =>
    let first := fld f (o + 4) 4
    x.kind == 2 && zeroAt f (o + 3) 1 && zeroAt f (o + 12) 4 && first % 32 == 0 && decide (first < x.leaves) &&
    decide (256 ≤ fld f (o + 8) 4 ∧ fld f (o + 8) 4 ≤ 8192 * (x.leaves - first))
  | none => false

def slotOk (f : Nat → Byte) (o : Nat) : Bool :=
  fld f o 2 != 0 && zeroAt f (o + 2) 2 && decide (1 ≤ fld f (o + 4) 4 ∧ fld f (o + 4) 4 ≤ 64)

def placeOk (f : Nat → Byte) (o : Nat) (l : List Nat) : Bool :=
  let n := fld f o 1
  decide (1 ≤ n ∧ n ≤ 12) && l.all (fun g => decide (g ≤ 11)) && (sortNat l).length == l.length && zeroAt f (o + 1 + n) (15 - n)

/-- Ranges, reserved fields and length of the manifest (R725, R727). -/
def manifestOk (f : Nat → Byte) : Bool :=
  let h := parseSlip f
  let m := parseMan f
  let p := fun i => (manParts f).getD i 0
  let each := fun (n : Nat) (g : Nat → Bool) => (List.range n).all g
  decide (1 ≤ m.sections.length ∧ m.sections.length ≤ 16) && decide (1 ≤ m.variants.length ∧ m.variants.length ≤ 8) &&
  decide (m.imps.length ≤ 1024) && decide (m.slots.length ≤ 64) && zeroAt f 309 1 && zeroAt f 312 8 &&
  (if h.kind = 1 then m.textId == h.hash && m.fills == 0 else m.slots.isEmpty) &&
  256 + h.manLen == p 5 && h.stripes == (m.sections.map Section.stripes).sum &&
  each m.sections.length (fun i => sectionOk f (p 0 + 8 * i) h.kind) &&
  each m.variants.length (fun i => variantOk f (p 1 + 32 * i) m.imps.length) &&
  each m.imps.length (fun i => impRecOk f (p 2 + 16 * i) m.sections) &&
  each m.slots.length (fun i => slotOk f (p 3 + 8 * i)) &&
  each m.places.length (fun i => placeOk f (p 4 + 16 * i) (m.places.getD i []))

/-! ### Verification (R728, R729, R732, R733) -/

/-- The bytes of a prefix from an offset on. -/
def slipPart (f : Nat → Byte) (o n : Nat) : List Byte := (List.range n).map fun i => f (o + i)

/-- The root hash lies in a slot that is programmed and not revoked (R732). -/
def State.rootOk (s : State) (hash : Nat) : Bool :=
  (List.range 4).any fun i =>
    Mem.readLe s.nv.otp (0x80 + 48 * i) 48 == hash && bit (s.otpByte (0x140 + i)) 0 && !bit (s.otpByte (0x140 + i)) 1

/-- Magic, usage and reserved bits of the certificates (R729, R732). -/
def certsOk (f : Nat → Byte) (h : SlipHeader) : Bool :=
  (List.range h.certs).all fun i =>
    let o := h.sigStart + 96 + 208 * i
    let u := fld f (o + 4) 1
    fld f o 4 == 0x54524543 && decide (u ≤ 3) && zeroAt f (o + 5) 3 && (if i + 1 = h.certs then bit u 1 else bit u 0)

/-- ROOT_PUB of the signature block (R728). -/
def SlipHeader.rootPub (h : SlipHeader) (f : Nat → Byte) : List Byte := slipPart f h.sigStart 96

/-- The issuer's key of certificate `i`, counted from 0: ROOT_PUB, or the certificate before it. -/
def SlipHeader.issuer (h : SlipHeader) (f : Nat → Byte) (i : Nat) : List Byte :=
  if i = 0 then h.rootPub f else slipPart f (h.sigStart + 96 + 208 * (i - 1) + 16) 96

/-- Certificate `i` verifies under its issuer's key (R729). -/
def SlipHeader.certSigned (h : SlipHeader) (f : Nat → Byte) (i : Nat) : Bool :=
  let o := h.sigStart + 96 + 208 * i
  ecdsaOk (h.issuer f i) (sha384 (slipPart f o 112)) (slipPart f (o + 112) 96)

/-- SIG verifies under the last certificate's key over the signed region (R732). -/
def SlipHeader.regionSigned (h : SlipHeader) (f : Nat → Byte) : Bool :=
  ecdsaOk (h.issuer f h.certs) (sha384 (slipPart f 0 h.sigStart)) (slipPart f (h.sigStart + 96 + 208 * h.certs) 96)

/-- The Q19 accepts the slipcase's signature (R732). -/
def State.signatureOk (s : State) (f : Nat → Byte) : Bool :=
  let h := parseSlip f
  certsOk f h && s.rootOk (leNat (sha384 (h.rootPub f))) && (List.range h.certs).all (h.certSigned f) && h.regionSigned f

/-! ### Keys (R724, R731, R734, R758, R875, R876) -/

/-- The lifecycle states in which device keys exist, once boot step 1 has derived them: only there loads and transfers
verify (R867, R876). -/
def State.keysLive (s : State) : Bool := s.sec.keys && (s.lc == lcProvisioned || s.lc == lcField)

/-- The private scalar of the device wrap key pair: 72 bytes with info "KX-Q19 devwrap" (R875). -/
def State.wrapScalar (s : State) : Nat :=
  scalarOf (beNat (hkdf384 [] (Mem.readN s.nv.otp 0x60 32)
    [0x4B, 0x58, 0x2D, 0x51, 0x31, 0x39, 0x20, 0x64, 0x65, 0x76, 0x77, 0x72, 0x61, 0x70] 72))

/-- DEV_WRAP_PUB (R875, R894). -/
def State.devWrapPub (s : State) : Nat := if s.keysLive then leNat (publicKey s.wrapScalar) else 0

/-- The OEM class key of a class the device holds (R734, R879). -/
def State.classKeyOf (s : State) (id : Nat) : Option (List Byte) :=
  [1, 2, 3, 4].findSome? fun n => match Tab.find s.sec.classKeys n with
    | some v => if s.rd (Key.classId n) = id then some ((natLe 36 v).drop 4) else none
    | none => none

/-- The first key record the device can use, by its offset: WKIND and CLASS_ID (R730, R734). -/
def State.usableRecord (s : State) (f : Nat → Byte) (h : SlipHeader) : Option (Nat × Nat × Nat) :=
  (List.range ((h.bodyOff - h.keyOff) / 176)).findSome? fun i =>
    let o := h.keyOff + 176 * i
    if fld f o 1 = 1 ∧ fld f (o + 8) 8 = s.serial then some (o, 1, 0)
    else if fld f o 1 = 2 ∧ (s.classKeyOf (fld f (o + 4) 4)).isSome then some (o, 2, fld f (o + 4) 4)
    else none

/-- The key-encryption key of a record: info "KX-Q19 wrap" and MODEL_ID (R731). -/
def wrapKey (ikm : List Byte) (modelId : Nat) : List Byte :=
  hkdf384 [] ikm ([0x4B, 0x58, 0x2D, 0x51, 0x31, 0x39, 0x20, 0x77, 0x72, 0x61, 0x70] ++ natLe 16 modelId) 32

/-- The content key the record at `o` holds, if its tag verifies (R731). -/
def State.unwrap (s : State) (f : Nat → Byte) (h : SlipHeader) (o kind cls : Nat) : Option (List Byte) :=
  let ikm := if kind = 1 then ecdhX s.wrapScalar (slipPart f (o + 16) 96) else (s.classKeyOf cls).getD []
  gcmOpen (wrapKey ikm h.modelId) (slipPart f (o + 112) 12) (natLe 16 h.modelId ++ natLe 4 h.version) (slipPart f (o + 128) 32)
    (slipPart f (o + 160) 16)

/-- The content key of a slipcase under the first usable record, with WRAP and CLASS_ID (R734). -/
def State.contentKey (s : State) (f : Nat → Byte) : Option (Nat × Nat × List Byte) :=
  let h := parseSlip f
  match s.usableRecord f h with
  | some (o, kind, cls) => (s.unwrap f h o kind cls).map fun k => (kind, cls, k)
  | none => none

/-- The transit key: info "KX-Q19 transit", SESSION and MODEL_ID (R758). -/
def transitKey (scalar : Nat) (pub classKey : List Byte) (session modelId : Nat) : List Byte :=
  hkdf384 classKey (ecdhX scalar pub)
    ([0x4B, 0x58, 0x2D, 0x51, 0x31, 0x39, 0x20, 0x74, 0x72, 0x61, 0x6E, 0x73, 0x69, 0x74] ++ natLe 4 session ++ natLe 16 modelId) 32

/-- IV and additional data of chunk `i` (R724). -/
def chunkIv (nonce : List Byte) (i : Nat) : List Byte := nonce ++ natLe 4 i
def chunkAad (modelId i : Nat) : List Byte := natLe 16 modelId ++ natLe 4 i

/-- Bytes of chunk `i` of a body of `stripes` stripes (R724). -/
def chunkLen (stripes i : Nat) : Nat := min chunkBytes (stripeBytes * stripes - chunkBytes * i)

/-- SHA-384 of a plaintext body, as CONTENT_HASH gives it (R721). -/
def bodyHash (body : Mem) (stripes : Nat) : Nat := leNat (sha384 (Mem.readN body 0 (stripeBytes * stripes)))

/-! ### Reports and ends -/

def Short.zero : Short := { bays := 0, t1 := 0, t2 := 0, t3 := 0, groups := 0 }

/-- Q_LOAD_REPORT and its counters (R748, R770). -/
def State.report (s : State) (q : QNum) (status variant entry : Nat) (x : Short) (chunks ms : Nat) : State :=
  (s.wr (Key.qLoadReport q) (leNat (natLe 1 status ++ natLe 1 variant ++ natLe 1 entry ++ natLe 1 x.bays ++ natLe 4 x.t1 ++
    natLe 4 x.t2 ++ natLe 4 x.t3 ++ natLe 2 x.groups ++ natLe 2 0 ++ natLe 4 chunks ++ natLe 4 ms ++ natLe 4 0))).count
      (if status = CS.ok then Key.qLoadsDone q else Key.qLoadsFailed q)

def Load.is (l m : Load) : Bool := l.quire == m.quire && l.entry.seq == m.entry.seq

def State.dropLoad (s : State) (l : Load) : State := s.setNv { s.nv with loads := s.nv.loads.filter fun m => !m.is l }

def State.setLoad (s : State) (l : Load) : State := s.setNv { s.nv with loads := s.nv.loads.map fun m => if m.is l then l else m }

/-- A load ends: reported, and its submission entry completed. -/
def State.endLoad (s : State) (l : Load) (status variant entry : Nat) (x : Short) (chunks ms result : Nat) : State :=
  ((s.dropLoad l).report l.quire status variant entry x chunks ms).finish l.quire l.entry status 0 result

/-- A load ends before its body; the time is a free value (log entries 8 and 9). -/
def State.failLoad (s : State) (l : Load) (status : Nat) (variant entry : Nat := 0xFF) (x : Short := Short.zero) : State :=
  let t := s.fresh
  t.2.endLoad l status variant entry x 0 (t.1 % 2 ^ 32) 0

/-- A load's entry returns to empty and its programmed blocks become free-dirty, to be erased in MAINT slots (R742). -/
def State.cleanLoad (s : State) (l : Load) : State :=
  match l.lib with
  | some e => s.emptyEntry e
  | none => s

/-- A load stops at its next chunk boundary: what its chunks have programmed by then is freed (R301, R304, R742). How far a
load from host memory has come is a free value (log entry 8); one from staging has read CONSUMED chunks. The rows' contents
go with their blocks. -/
def State.stopLoad (s : State) (l : Load) : Nat × State :=
  match l.lib with
  | none => (0, s)
  | some e =>
    let t := if l.staged then (l.chunks, s) else (s.fresh.1 % (l.chunkCount + 1), s.fresh.2)
    (t.1, (t.2.programFirst e (t.1 * chunkBytes / stripeBytes) []).cleanLoad l)

/-- A load is abandoned and completed with a status (R301, R302). -/
def State.abandonLoad (s : State) (l : Load) (status : Nat) : State :=
  let n := s.stopLoad l
  let t := n.2.fresh
  t.2.endLoad l status 0xFF 0xFF Short.zero n.1 (t.1 % 2 ^ 32) 0

def State.abandonLoads (s : State) (q : QNum) (status : Nat) : State :=
  (s.nv.loads.filter fun l => l.quire == q).foldl (fun s l => s.abandonLoad l status) s

/-- Every load of a quire is stopped without a completion (R304). -/
def State.stopLoads (s : State) (q : QNum) : State :=
  (s.nv.loads.filter fun l => l.quire == q).foldl (fun s l => (s.stopLoad l).2.dropLoad l) s

/-! ### Linking (R750 to R754) -/

/-- The entries a link considers. -/
def State.linkable (s : State) (q : QNum) (hash : Nat) : List Nat :=
  allE.filter fun e => (s.lib e).installed && (s.lib e).hash == hash && bit (s.rd (Key.libLinkMask (e + 1))) q.val

structure LinkOut where
  status : Nat
  variant : Nat
  entry : Nat
  short : Short
  deriving DecidableEq, Repr

/-- How a link ends. -/
def State.linkOutcome (s : State) (q : QNum) (hash : Nat) : LinkOut :=
  let c := s.linkable q hash
  match c.find? fun e => (s.lib e).state == .installed with
  | none =>
    match c.find? fun e => (s.lib e).state == .damaged with
    | some e => { status := CS.ioError, variant := 0xFF, entry := e, short := Short.zero }
    | none => { status := if c = [] then CS.noHandle else CS.noSpace, variant := 0xFF, entry := c.headD 0xFF, short := Short.zero }
  | some e =>
    let x := s.lib e
    let baseHeld : Bool := match x.base with | some b => s.holds q b | none => true
    if !baseHeld then { status := CS.noHandle, variant := 0xFF, entry := e, short := Short.zero }
    else if s.holds q e then
      { status := CS.ok, variant := s.rd (Key.qHandleVariant q (e + 1)), entry := e, short := Short.zero }
    else
      let vs := (List.range x.man.variants.length).filter fun v => x.man.samePlace x.variant v
      match vs.find? fun v => s.fits q x.man x.stripes v with
      | some v => { status := CS.ok, variant := v, entry := e, short := Short.zero }
      | none =>
        let v := vs.getLastD 0
        { status := CS.noFit, variant := v, entry := e, short := s.shortfall q x.man v x.stripes }

/-- The handle a link that ends OK gives. -/
def State.linkTake (s : State) (q : QNum) (o : LinkOut) : State :=
  if o.status = CS.ok ∧ ¬ s.holds q o.entry then s.giveHandle q o.entry o.variant else s

def State.linkResult (s : State) (q : QNum) (o : LinkOut) : Nat :=
  if o.status = CS.ok then s.rd (Key.qHandle q (o.entry + 1)) else 0

/-- LINK_TEXT_BLOCK. -/
def linkTextBlock (q : QNum) (r : RingNum) (s : State) : State :=
  match s.startable q r 0x04 with
  | none => s
  | some e =>
    let o := s.linkOutcome q (fieldLe e.bytes 8 48)
    let s := s.linkTake q o
    let t := s.fresh
    (t.2.report q o.status o.variant o.entry o.short 0 (t.1 % 2 ^ 32)).finishNow q r e o.status 0 (s.linkResult q o)

def execLinkTextBlock (q : QNum) (r : RingNum) (s : State) : Host.Outcome State Fault Refusal := .next (linkTextBlock q r s)

/-! ### Staging (R737 to R739) -/

def producedAt : Nat := 0x3FF000
def consumedAt : Nat := 0x3FF004

/-- Chunk `i` of a load as it was read: its tag checked and its text decrypted into the body; after a chunk whose tag
fails no further one is read (R724, R740 step 8, R741). -/
def Load.takeChunk (l : Load) (x : LibEntry) (nonce : List Byte) (l0 : Nat × List Byte × List Byte) : Load :=
  let i := l0.1
  if l.badChunk.isSome then l
  else
    match gcmOpen l.key (chunkIv nonce i) (chunkAad x.modelId i) l0.2.1 l0.2.2 with
    | some pt => { l with body := Mem.writeL l.body (chunkBytes * i) pt }
    | none => { l with badChunk := some i }

/-- The tag of chunk `i` in the chunk-tag list of an entry's signed region (R715a). -/
def LibEntry.chunkTag (x : LibEntry) (i : Nat) : List Byte := bytesAt x.signed (256 + leNat (bytesAt x.signed 80 4) + 16 * i) 16

/-- NONCE_BASE in an entry's signed region (R721). -/
def LibEntry.nonceBase (x : LibEntry) : List Byte := bytesAt x.signed 96 8

/-- Chunk `i` in its staging region, and its tag: in the control page for a transfer, else in the chunk-tag list (R737). -/
def State.stagedChunk (s : State) (l : Load) (x : LibEntry) (i : Nat) : Nat × List Byte × List Byte :=
  (i, Mem.readN s.tiers.staging (0x400000 + 0x400000 * (i % 7)) (chunkLen x.stripes i),
    if l.session.isSome then Mem.readN s.tiers.staging (0x3FF010 + 16 * (i % 7)) 16 else x.chunkTag i)

/-- The staged load reads what the writer has produced and no longer needs the regions it has read (R738). -/
def State.consumeStaged (s : State) : State :=
  match s.nv.loads.find? fun l => l.staged && l.lib.isSome with
  | none => s
  | some l =>
    let n := max l.chunks (min (Mem.readLe s.tiers.staging producedAt 4) l.chunkCount)
    let x := s.lib (l.lib.getD 0)
    let nonce := if l.session.isSome then Mem.readN s.tiers.staging 112 8 else x.nonceBase
    let l := (upFrom l.chunks (n - l.chunks)).foldl (fun l i => l.takeChunk x nonce (s.stagedChunk l x i)) l
    (s.setLoad { l with chunks := n }).setTiers { s.tiers with staging := Mem.writeLe s.tiers.staging consumedAt 4 n }

/-- A write of PRODUCED. -/
def State.stagingProduced (s : State) (v : Nat) : State :=
  (s.setTiers { s.tiers with staging := Mem.writeLe s.tiers.staging producedAt 4 v }).consumeStaged

/-- STAGING_TIMEOUT: PRODUCED has not advanced for 10 s (R739). -/
def stagingTimeout (s : State) : State :=
  match s.nv.loads.find? fun l => l.staged && l.lib.isSome && l.badChunk.isNone && decide (l.chunks < l.chunkCount) with
  | none => s
  | some l =>
    let t := (s.stopLoad l).2.fresh
    t.2.endLoad l CS.ioError (s.lib (l.lib.getD 0)).variant 0xFF Short.zero l.chunks (t.1 % 2 ^ 32) 0

def execStagingTimeout (s : State) : Host.Outcome State Fault Refusal := .next (stagingTimeout s)

/-! ### Loading (R736, R740 to R743) -/

def Entry.srcKind (e : Entry) : Nat := fieldLe e.bytes 24 1
def Entry.baseHandle (e : Entry) : Nat := fieldLe e.bytes 28 4

/-- The prefix as the load reads it; a transfer's signed region lies behind its 128-byte header (R757). -/
def State.prefixOf (s : State) (l : Load) : Nat → Byte :=
  match l.entry.srcKind with
  | 0 => fun i => l.prefixBytes.getD i 0
  | 1 => fun i => Mem.read s.tiers.staging i
  | _ => fun i => Mem.read s.tiers.staging (128 + i)

/-- Loads and training commits that run (R743, R779). -/
def State.loadsRunning (s : State) : Nat :=
  (s.nv.loads.filter fun l => l.running).length + (allQ.filter fun q => (s.quire q).train.isSome).length

/-- A load passes the wait of step 1: fewer than four run, and no earlier load holds or awaits the staging (R739, R743). -/
def State.mayRun (s : State) (l : Load) : Bool :=
  decide (s.loadsRunning < 4) &&
    !(l.staged && (s.nv.loads.takeWhile fun m => !m.is l).any fun m => m.staged)

/-- The session of a peer load is open and the quire's (R755, R759). -/
def State.sessionOf (s : State) (l : Load) : Option Session :=
  s.nv.sessions.find? fun x => x.id == fieldLe l.entry.bytes 8 4 && x.quire == l.quire

/-- The key of step 5 with WRAP and CLASS_ID: the content key, or the transit key of a session (R734, R758, R759). -/
def State.loadKey (s : State) (l : Load) (g : Nat → Byte) : Option (Nat × Nat × List Byte) :=
  match l.session with
  | some x =>
    let id := Mem.readLe s.tiers.staging 8 4
    (s.classKeyOf id).map fun k =>
      (3, id, transitKey x.rxKey (Mem.readN s.tiers.staging 16 96) k x.id (parseSlip g).modelId)
  | none => s.contentKey g

/-- The base a tip-in names and the slot it fills (R740 step 6); 0xFF for a text block. -/
def State.loadBase (s : State) (l : Load) (h : SlipHeader) (m : Manifest) : Option Nat :=
  if h.kind = 1 then some 0xFF
  else
    match s.validHandle l.quire l.entry.baseHandle with
    | some e =>
      if (s.lib e).hash = m.textId ∧ (s.lib e).man.slots.any (fun x => x.1 == m.fills && decide (ceilDiv h.stripes 4 ≤ x.2)) then
        some e
      else none
    | none => none

def State.freeEntry (s : State) : Option Nat := allE.find? fun e => (s.lib e).state == .empty

/-- Steps 7 and following up to the body: admission (R745 to R748); NO_FIT before NO_SPACE (DEDUCED, log entry 104). -/
def State.admitLoad (s : State) (l : Load) (g : Nat → Byte) (key : Nat × Nat × List Byte) (base : Nat) : State :=
  let h := parseSlip g
  let m := parseMan g
  let q := l.quire
  let vs := List.range m.variants.length
  let fitting := vs.filter fun v => s.fits q m h.stripes v
  if fitting = [] then
    let v := vs.getLastD 0
    s.failLoad l CS.noFit v 0xFF (s.shortfall q m v h.stripes)
  else
    match fitting.find? (fun v => s.rowsFor m v h.stripes), s.freeEntry with
    | some v, some e =>
      let s := s.setLib e
        { state := .loading, kind := h.kind, peerOk := bit h.hflags 0, variant := v, modelId := h.modelId,
          modelVersion := h.version, generation := (s.lib e).generation, base := if base = 0xFF then none else some base,
          wrap := key.1, stripes := h.stripes, hash := h.hash, man := m, lost := [], rows := [],
          removeReq := false, signed := (List.range h.sigEnd).map g, classId := key.2.1 }
      (s.setLoad { l with lib := some e, chunkCount := h.chunks, key := key.2.2 }).consumeStaged
    | _, _ => s.failLoad l CS.noSpace

/-- Steps 1 to 7 of a load that runs (R740). -/
def State.loadSteps (s : State) (l : Load) : State :=
  let g := s.prefixOf l
  let h := parseSlip g
  let m := parseMan g
  let e := l.entry
  let peer := l.session.isSome
  let headOk := !peer || (Mem.readLe s.tiers.staging 0 4 == 0x58525450 && Mem.readLe s.tiers.staging 4 4 == fieldLe e.bytes 8 4)
  let lenOk := peer || fieldLe e.bytes 16 8 == h.bodyOff + stripeBytes * h.stripes
  if !(headOk && headerOk g && manifestOk g && lenOk) then s.failLoad l CS.auth
  else if (h.kind = 2) ≠ (e.baseHandle ≠ 0) then s.failLoad l CS.noHandle
  else if !s.signatureOk g then s.failLoad l CS.auth
  else if h.epoch < s.arbSlipcase then s.failLoad l CS.rollback
  else if allE.any fun x => (s.lib x).state == .installed && (s.lib x).hash == h.hash then
    let o := s.linkOutcome l.quire h.hash
    let s := s.linkTake l.quire o
    let t := s.fresh
    t.2.endLoad l o.status o.variant o.entry o.short 0 (t.1 % 2 ^ 32) (s.linkResult l.quire o)
  else if allE.any fun x => (s.lib x).state == .loading && (s.lib x).hash == h.hash then s
  else
    match s.loadKey l g with
    | none => s.failLoad l CS.auth
    | some key =>
      match s.loadBase l h m with
      | none => s.failLoad l CS.noHandle
      | some base => s.admitLoad l g key base

/-- A load from host memory reads its source by DMA with the quire's PASID (R260, R736). -/
def State.readSource (s : State) (l : Load) : State :=
  if l.entry.srcKind = 0 then
    s.emit (.dmaRead l.quire (s.rd (Key.qPasid l.quire)) (fieldLe l.entry.bytes 8 8) (fieldLe l.entry.bytes 16 8))
  else s

/-- A load goes on from where it waits: at step 1, or at step 4 for a load of the same content. In BLANK and RMA it ends
with AUTH (R867). -/
def State.advanceLoad (s : State) (l : Load) : State :=
  if l.running then s.loadSteps l
  else if ¬ s.mayRun l then s
  else if ¬ s.keysLive then s.failLoad l CS.auth
  else if l.entry.srcKind = 2 then
    match s.sessionOf l with
    | none => s.failLoad l CS.noHandle
    | some x =>
      let l := { l with running := true, session := some x }
      ((s.setNv { s.nv with sessions := s.nv.sessions.filter fun y => y.id != x.id }).setLoad l).loadSteps l
  else
    let l := { l with running := true }
    (s.readSource l).setLoad l |>.loadSteps l

/-- LOAD_SLIPCASE: the front entry starts. -/
def loadSlipcase (q : QNum) (r : RingNum) (f : LoadFacts) (s : State) : State :=
  match s.startable q r 0x02 with
  | none => s
  | some e =>
    let l : Load :=
      { quire := q, entry := e, prefixBytes := f.prefixBytes, running := false, lib := none, staged := e.srcKind != 0,
        session := none, key := [], chunks := 0, chunkCount := 0, body := [], badChunk := none, turns := [] }
    let s := s.startEntry q r e .load
    (s.setNv { s.nv with loads := s.nv.loads ++ [l] }).advanceLoad l

/-- The loads of a ring that wait go on, oldest first (WAIT_RESUME). -/
def State.resumeLoads (s : State) (q : QNum) (r : RingNum) : State :=
  (s.nv.loads.filter fun l => l.quire == q && l.entry.ring == r && l.lib.isNone).foldl State.advanceLoad s

def execLoadSlipcase (q : QNum) (r : RingNum) (f : LoadFacts) (s : State) : Host.Outcome State Fault Refusal :=
  .next (loadSlipcase q r f s)

/-- The structural checks of the installed impositions of the entry's variant: the first failure (R421, R726). -/
def State.impsFail (s : State) (e : Nat) : Option (Nat × Failure) :=
  let x := s.lib e
  match x.man.variants[x.variant]? with
  | none => none
  | some v =>
    (upFrom v.impFirst v.impCount).findSome? fun n =>
      match x.man.imps[n]? with
      | some r => if r.contract = 3 then (structuralFail (s.impBytes e r) r.length).map fun c => (n, c) else none
      | none => none

/-- The generation of the next install (R718). -/
def nextGeneration (g : Nat) : Nat := if g = 0xFFFFF then 1 else g + 1

/-- Step 11: the entry is installed, its link mask written, damaged entries of the same content asked to go, the handle
issued (R717, R718, R765, R769). -/
def State.install (s : State) (q : QNum) (e : Nat) : State :=
  let x := s.lib e
  let twins := allE.filter fun t => (s.lib t).state == .damaged && (s.lib t).hash == x.hash
  let s := twins.foldl (fun s t => s.setLib t { s.lib t with removeReq := true }) s
  let s := s.setLib e { x with state := .installed, generation := nextGeneration x.generation }
  (s.wrStored (Key.libLinkMask (e + 1)) (if x.kind = 1 then 0xFF else 2 ^ q.val)).giveHandle q e x.variant

/-- Every chunk up to a failed one has been read: all of them from host memory, those produced from staging. -/
def Load.bodyRead (l : Load) : Bool := !l.staged || l.chunks == l.chunkCount || l.badChunk.isSome

/-- A load from host memory reads its chunks by DMA, `body` (R736, R740 step 8). -/
def Load.readBody (l : Load) (x : LibEntry) (body : List Byte) : Load :=
  if l.staged then l
  else (List.range l.chunkCount).foldl (fun l i => l.takeChunk x x.nonceBase
    (i, bytesAt body (chunkBytes * i) (chunkLen x.stripes i), x.chunkTag i)) l

/-- The last program of a load or training commit has ended in every bank group of its placement, or can run there now as
continuous operations; none of it runs (R561; log entry 99). -/
def State.allProgrammed (s : State) (e : Nat) (turns : List Nat) : Bool :=
  (((s.lib e).man.groupsNamed (s.lib e).variant).all fun g => s.mayProgram turns g) &&
    s.nv.units.all fun u => u.worker != .entry e

/-- LOAD_COMPLETE: steps 8 to 11 (R740 to R742). -/
def loadComplete (q : QNum) (e : Fin 64) (f : BodyFacts) (s : State) : State :=
  match s.nv.loads.find? fun l => l.quire == q && l.lib == some e.val with
  | none => s
  | some l =>
    let x := s.lib e.val
    if ¬ s.coreOn ∨ ¬ l.bodyRead ∨ ¬ s.allProgrammed e.val l.turns then s
    else
      let m := l.readBody x f.body
      match m.badChunk with
      | some c =>
        ((s.programFirst e.val (c * chunkBytes / stripeBytes) m.body).cleanLoad l).endLoad l CS.auth x.variant 0xFF Short.zero c
          (f.timeMs % 2 ^ 32) 0
      | none =>
        let s := s.programStripes e.val m.body
        if bodyHash m.body x.stripes ≠ x.hash then
          (s.cleanLoad l).endLoad l CS.auth x.variant 0xFF Short.zero l.chunkCount (f.timeMs % 2 ^ 32) 0
        else
          match s.impsFail e.val with
          | some c => ((s.cleanLoad l).dropLoad l).valFail q l.entry 0 c.1 c.2
          | none =>
            let s := s.install q e.val
            s.endLoad l CS.ok x.variant e.val Short.zero l.chunkCount (f.timeMs % 2 ^ 32) (s.rd (Key.qHandle q (e.val + 1)))

def execLoadComplete (q : QNum) (e : Fin 64) (f : BodyFacts) (s : State) : Host.Outcome State Fault Refusal :=
  .next (loadComplete q e f s)

/-! ### Unloading (R761, R762) -/

/-- The quire's handle to an entry goes and the entry's removal is requested. -/
def State.letGo (s : State) (q : QNum) (e : Nat) : State :=
  (s.setLib e { s.lib e with removeReq := true }).dropHandle q e

/-- UNLOAD: while a running run binds the handle it cannot start (R761). -/
def unload (q : QNum) (r : RingNum) (s : State) : State :=
  match s.startable q r 0x03 with
  | none => s
  | some e =>
    let h := fieldLe e.bytes 8 4
    match s.validHandle q h with
    | none => s.finishNow q r e CS.noHandle
    | some x =>
      if s.textBound q h then s
      else
        let t := (s.tipins x).filter fun t => s.holds q t
        ((x :: t).foldl (fun s y => s.letGo q y) s).finishNow q r e CS.ok

def execUnload (q : QNum) (r : RingNum) (s : State) : Host.Outcome State Fault Refusal := .next (unload q r s)

/-! ### Transfer to and from another Q19 (R755 to R760) -/

/-- PEER_ACCEPT creates a session with a fresh ephemeral key; its scalar comes from fresh entropy (log entry 102). -/
def peerAcceptWrite (arg : List Byte) (env : Env) (s : State) : Nat × State :=
  if h : fieldLe arg 0 1 < 8 ∧ fieldLe arg 1 3 = 0 then
    s.ifIdle Key.peerAccept fun s =>
      let id := s.nv.nextSession
      let d := scalarOf env.entropy
      let s := s.setNv { s.nv with
        nextSession := id % 0xFFFFFFFF + 1, sessions := s.nv.sessions ++ [{ id := id, quire := ⟨fieldLe arg 0 1, h.1⟩, rxKey := d }] }
      s.cmdDone Key.peerAccept DS.ok (natLe 4 id ++ publicKey d)
  else (DS.range, s)

/-- PEER_SESSION_EXPIRY: 10 s after creation. -/
def peerSessionExpiry (session : Nat) (s : State) : State :=
  s.setNv { s.nv with sessions := s.nv.sessions.filter fun x => x.id != session }

def execPeerSessionExpiry (session : Nat) (s : State) : Host.Outcome State Fault Refusal :=
  .next (peerSessionExpiry session s)

/-- The transfer header (R757). -/
def transferHeader (session classId : Nat) (txPub : List Byte) (nonce : Nat) : List Byte :=
  natLe 4 0x58525450 ++ natLe 4 session ++ natLe 4 classId ++ natLe 4 0 ++ txPub ++ natLe 8 nonce ++ natLe 8 0

/-- A leaf of the entry is recorded lost (R764). -/
def LibEntry.damaged (x : LibEntry) : Bool := x.state == .damaged || !x.lost.isEmpty

/-- Transit chunk `i` of an entry: text and tag under the transit key, with NONCE in place of NONCE_BASE (R724, R758). -/
def State.transitChunk (s : State) (e : Nat) (key nonce : List Byte) (i : Nat) : List Byte × List Byte :=
  let x := s.lib e
  let keys := aesKeys key
  let ct := gcmText keys (chunkIv nonce i) (Mem.readN (s.libFrames e) (chunkBytes * i) (chunkLen x.stripes i))
  (ct, gcmTag keys (chunkIv nonce i) (chunkAad x.modelId i) ct)

/-- What an export writes for chunk `i`: the chunk in its region, its tag, then PRODUCED (R737, R738). -/
def State.sendChunk (s : State) (e addr : Nat) (key nonce : List Byte) (i : Nat) : State :=
  let c := s.transitChunk e key nonce i
  ((s.emit (.peerWrite (addr + 0x400000 + 0x400000 * (i % 7)) c.1)).emit (.peerWrite (addr + 0x3FF010 + 16 * (i % 7)) c.2)).emit
    (.peerWrite (addr + producedAt) (natLe 4 (i + 1)))

/-- The transit key of an export, or, where the device no longer holds the class key the entry came with, a free value: the
spec does not say what becomes of such an export (log entry 8). -/
def State.exportKey (s : State) (scalar : Nat) (rxPub : List Byte) (session : Nat) (x : LibEntry) : List Byte × State :=
  match s.classKeyOf x.classId with
  | some k => (transitKey scalar rxPub k session x.modelId, s)
  | none => (natLe 32 s.fresh.1, s.fresh.2)

/-- PEER_EXPORT writes the transfer into the peer's staging and completes; the receiver's CONSUMED follows in the same
step (log entry 24). The ephemeral key and the nonce come from fresh entropy (log entry 102). A relocating or stranded entry
is still installed (R717); an ENTRY above 63 names none, and STATE comes before the RANGE of the reserved bytes (R135, R756).
-/
def peerExportWrite (arg : List Byte) (env : Env) (s : State) : Nat × State :=
  let e := fieldLe arg 0 1
  let x := s.lib e
  let addr := fieldLe arg 8 8
  if 63 < e ∨ ¬ x.installed ∨ x.damaged ∨ x.kind ≠ 1 ∨ ¬ x.peerOk ∨ (x.wrap ≠ 2 ∧ x.wrap ≠ 3) then (DS.state, s)
  else if fieldLe arg 1 3 ≠ 0 then (DS.range, s)
  else s.ifIdle Key.peerExport fun s =>
    let session := fieldLe arg 4 4
    let n := ceilDiv (stripeBytes * x.stripes) chunkBytes
    let d := scalarOf (env.entropy / 2 ^ 64)
    let nonce := env.entropy % 2 ^ 64
    let s := s.senseStripes e 0 (x.stripes - 1)
    let key := s.exportKey d (bytesAt arg 16 96) session x
    let s := key.2.emit (.peerWrite addr (transferHeader session x.classId (publicKey d) nonce ++ x.signed))
    let s := (List.range n).foldl (fun s i => s.sendChunk e addr key.1 (natLe 8 nonce) i) s
    s.cmdDone Key.peerExport DS.ok (natLe 4 n)

end Sys2Proof.Machine
end

