-- ==== Sys2Proof/Machine/Training.lean ====
section
/-! DEFINITION. Training tip-ins on the device (16): tiles and master weights, the encoder, TRAIN_COMMIT and its switch. -/

namespace Sys2Proof.Machine

/-! ### Tiles (R773, R774) -/

def frameFormat (f : Mem) : Nat := (Mem.read f 1).toNat
def frameB (f : Mem) : Nat := (Mem.read f 2).toNat
def framePlane (f : Mem) : Nat := (Mem.read f 3).toNat

/-- Leaves of the weights sections of a tip-in, in slipcase leaf order. -/
def LibEntry.weightLeaves (x : LibEntry) : List Nat :=
  (x.man.sections.zip (List.range x.man.sections.length)).flatMap fun p =>
    if p.1.kind = 3 then upFrom (32 * sectionBase x.man.sections p.2) p.1.leaves else []

/-- The tiles of a list of leaves; none where a plane tile is incomplete. `fuel` is the list's length. -/
def tilesOf (frame : Nat → Mem) : Nat → List Nat → Option (List (List Nat))
  | 0, _ => some []
  | _, [] => some []
  | fuel + 1, n :: t =>
    if frameFormat (frame n) = 1 then
      let b := frameB (frame n)
      let tile := (n :: t).take b
      if 1 ≤ b ∧ b ≤ 8 ∧ tile.length = b ∧
          ((tile.zip (List.range b)).all fun p => frameFormat (frame p.1) == 1 && framePlane (frame p.1) == p.2) = true then
        (tilesOf frame fuel ((n :: t).drop b)).map fun l => tile :: l
      else none
    else (tilesOf frame fuel t).map fun l => [n] :: l

def LibEntry.tiles (x : LibEntry) (frame : Nat → Mem) : Option (List (List Nat)) :=
  tilesOf frame x.weightLeaves.length x.weightLeaves

/-- Weights of a tile by its FORMAT. -/
def tileWeights (format : Nat) : Nat :=
  match format with
  | 1 => 65536
  | 2 => 21504
  | 3 => 16384
  | 4 => 10752
  | 5 => 65536
  | _ => 0

/-- MT, the master leaves of a tile. -/
def tileMasters (format : Nat) : Nat := ceilDiv (tileWeights format) 4096

def tileFormat (frame : Nat → Mem) (t : List Nat) : Nat := frameFormat (frame (t.headD 0))

/-- The master range's length M (R775). -/
def masterLeaves (frame : Nat → Mem) (l : List (List Nat)) : Nat := (l.map fun t => tileMasters (tileFormat frame t)).sum

/-! ### Re-encoding (R780 to R782) -/

/-- What the encoding of a commit counts: SAT, ESCAPES, RESCUE_BLOCKS, NONFINITE. -/
structure EncStats where
  sat : Nat
  esc : Nat
  rescue : Nat
  nonfinite : Nat
  deriving DecidableEq, Repr

def EncStats.add (a b : EncStats) : EncStats :=
  { sat := a.sat + b.sat, esc := a.esc + b.esc, rescue := a.rescue + b.rescue, nonfinite := a.nonfinite + b.nonfinite }

/-- The greatest finite magnitude of each block of a tile, FP32 encodings. -/
def blockMax (val : Nat → Nat) (n : Nat) : Tab Nat :=
  (List.range n).foldl (fun t w =>
    match bf16.decode (val w) with
    | .fin _ _ _ =>
      let b := (w % 512) / 32
      Tab.set t 0 b (Nat.max (Tab.get t 0 b) (bfMag (val w)))
    | _ => t) []

/-- The fresh scale of R504 for a greatest level. -/
def scaleFor (lmax : Nat) (bexp : Int) (mx : Nat) : Nat :=
  match fp32.decode mx with
  | .fin _ m e =>
    if m = 0 then 0x80
    else ((List.range 16).find? fun (s : Nat) => !dyLt (lmax : Int) (bexp + (s : Int)) (m : Int) e).getD 15
  | _ => 15

/-- The new leaf's header: fresh scales, maps, escape count and side list clear, reserved bits and bytes zero (R12), the
rest kept (R781). -/
def freshHeader (scale : Tab Nat) (f : Mem) : Mem :=
  let m := Mem.write (Mem.write (Mem.write (Mem.write f 0 1) 4 (Mem.read f 4 &&& 1)) 5 0) 7 0
  let m := (List.range 16).foldl (fun m b => Mem.write m (16 + b) (BitVec.ofNat 8 (Tab.get scale 0 b))) m
  Mem.clear m 32 224

/-- A G3, G4 or G6 tile; payload bytes beyond its codes are free (R780; log entry 8). An infinite value saturates, with no
rescue (DEDUCED, log entry 106). -/
def encodeGrid (fmt tail : Nat) (val : Nat → Nat) (old : Mem) : Mem × EncStats :=
  let n := fmtCapacity fmt
  let mx := blockMax val n
  let scale := latch fun b => freshScale fmt (bexpOf old) (Tab.get mx 0 b)
  let frame := Mem.paste (freshHeader scale old) (payloadBase + 8064) 128 (Mem.ofList (natLe 128 tail))
  let c : Conv := { set := { StatSet.reset with scale := scale, bexp := bexpOf old }, ds := frame, flags := 0, sats := 0 }
  let c := (List.range n).foldl (fun c w => convElement fmt false c w (val w)) c
  (c.ds, { sat := c.set.sat, esc := c.set.escapes, rescue := c.set.rescue, nonfinite := c.set.nonfinite })

/-- A plane tile under way: its frames, plane 0 first. -/
structure PlaneEnc where
  frames : List Mem
  st : EncStats
  deriving DecidableEq, Repr

/-- Put the bits of a code into the planes: row r, column k lies at bit k mod 4 of field 512 · ⌊k/4⌋ + r (R430). -/
def PlaneEnc.put (x : PlaneEnc) (w code : Nat) : PlaneEnc :=
  let field := 512 * (w / 512 / 4) + w % 512
  let sh := w / 512 % 4
  { x with frames := (x.frames.zip (List.range x.frames.length)).map fun p =>
      let v := nibbleAt p.1 payloadBase field
      putField 1 field (if bit code p.2 then setBit v sh else clearBit v sh) p.1 payloadBase }

/-- Append an escape to the sign-plane leaf's side list (R492). -/
def PlaneEnc.escape (x : PlaneEnc) (w v : Nat) : PlaneEnc :=
  let last := x.frames.length - 1
  let f := x.frames.getD last []
  let n := (Mem.read f 5).toNat
  let entry := (w % 512 / 32) * 2 ^ 28 + (w % 32) * 2 ^ 23 + (w / 512) * 2 ^ 16 + v
  { frames := x.frames.set last (Mem.writeLe (Mem.write f 5 (BitVec.ofNat 8 (n + 1))) (128 + 4 * n) 4 entry),
    st := { x.st with esc := x.st.esc + 1 } }

def PlaneEnc.escapes (x : PlaneEnc) : Nat := (Mem.read (x.frames.getD (x.frames.length - 1) []) 5).toNat

/-- The saturated code of a plane tile of B planes. -/
def planeLimit (b : Nat) (esc neg : Bool) : Int :=
  if neg then (if esc then -((2 ^ (b - 1) - 1 : Nat) : Int) else -((2 ^ (b - 1) : Nat) : Int)) else (2 ^ (b - 1) - 1 : Nat)

/-- One weight of a tile of B ≥ 2 planes. -/
def planeElement (b : Nat) (esc : Bool) (bexp : Int) (scale : Tab Nat) (x : PlaneEnc) (w v : Nat) : PlaneEnc :=
  let lmax := 2 ^ (b - 1) - 1
  let sc := Tab.get scale 0 ((w % 512) / 32)
  let nonfin := fun (x : PlaneEnc) => { x with st := { x.st with nonfinite := x.st.nonfinite + 1 } }
  let sat := fun (x : PlaneEnc) neg =>
    ({ x with st := { x.st with sat := x.st.sat + 1 } } : PlaneEnc).put w (ofSigned b (planeLimit b esc neg))
  match bf16.decode v with
  | .nan => (nonfin x).put w 0
  | .inf neg => if scaleShift sc = none then ({ nonfin x with st := { (nonfin x).st with sat := x.st.sat + 1 } } : PlaneEnc).put w 0
      else sat (nonfin x) neg
  | .fin neg m e =>
    match scaleShift sc with
    | none => x.put w 0
    | some sh =>
      let s : Int := bexp + (sh : Int)
      if dyLt (lmax : Int) s (m : Int) e then
        if esc ∧ x.escapes < 32 then (x.escape w v).put w (2 ^ (b - 1)) else sat x neg
      else
        let r := roundDiv (m * pow2 (e - s)) (pow2 (s - e))
        x.put w (ofSigned b (if neg then -(r : Int) else r))

/-- One weight of a U-1 or XNOR tile: 1 where the sign bit is clear. -/
def signElement (x : PlaneEnc) (w v : Nat) : PlaneEnc :=
  match bf16.decode v with
  | .nan => ({ x with st := { x.st with nonfinite := x.st.nonfinite + 1 } } : PlaneEnc).put w 1
  | .inf neg => ({ x with st := { x.st with nonfinite := x.st.nonfinite + 1 } } : PlaneEnc).put w (if neg then 0 else 1)
  | .fin neg _ _ => x.put w (if neg then 0 else 1)

def EncStats.zero : EncStats := { sat := 0, esc := 0, rescue := 0, nonfinite := 0 }

/-- A plane or XNOR tile. -/
def encodePlanes (val : Nat → Nat) (old : List Mem) : List Mem × EncStats :=
  let f := old.headD []
  let b := if frameFormat f = 5 then 1 else old.length
  let lmax := if b = 1 then 1 else 2 ^ (b - 1) - 1
  let bexp := bexpOf f
  let mx := blockMax val 65536
  let scale := latch fun k => scaleFor lmax bexp (Tab.get mx 0 k)
  let x : PlaneEnc := { frames := old.map (freshHeader scale), st := EncStats.zero }
  let esc := bit (Mem.read f 4).toNat 0
  let x := (List.range 65536).foldl (fun x w => if b = 1 then signElement x w (val w)
    else planeElement b esc bexp scale x w (val w)) x
  (x.frames, x.st)

/-- The new frames of a tile. -/
def encodeTile (format tail : Nat) (val : Nat → Nat) (old : List Mem) : List Mem × EncStats :=
  match format with
  | 2 => let r := encodeGrid 2 tail val (old.headD []); ([r.1], r.2)
  | 3 =>
    -- a G4 leaf's codes fill the payload: nothing is left free
    let o := old.headD []
    let r := encodeGrid 3 (Mem.readLe o (payloadBase + 8064) 128) val o
    ([r.1], r.2)
  | 4 => let r := encodeGrid 4 tail val (old.headD []); ([r.1], r.2)
  | 1 => encodePlanes val old
  | 5 => encodePlanes val old
  | _ => (old, EncStats.zero)

/-- The encoder's progress: frames so far, master leaves read, counts, new leaves. -/
structure EncOut where
  frames : Mem
  at_ : Nat
  st : EncStats
  leaves : Nat
  deriving DecidableEq, Repr

/-- Every tile in order, from the frames of the old version, all of them in `all`; `master i` is the frame of master leaf
i. -/
def encodeTiles (frame : Nat → Mem) (all : Mem) (tiles : List (List Nat)) (tail : Nat) (master : Nat → Mem) : EncOut :=
  tiles.foldl (fun o t =>
    let format := tileFormat frame t
    let mt := tileMasters format
    if mt = 0 then { o with leaves := o.leaves + t.length }
    else
      let r := encodeTile format tail (fun w => halfAt (master (o.at_ + w / 4096)) (w % 4096)) (t.map frame)
      { frames := (t.zip r.1).foldl (fun m p => Mem.setLeaf m p.1 p.2) o.frames, at_ := o.at_ + mt, st := o.st.add r.2,
        leaves := o.leaves + t.length })
    { frames := all, at_ := 0, st := EncStats.zero, leaves := 0 }

/-! ### TRAIN_COMMIT (R776 to R784) -/

/-- Q_TRAIN_LAST and the counters (R791). -/
def State.trainLast (s : State) (q : QNum) (status old new : Nat) (stats : List Nat) (short ms : Nat) : State :=
  (s.wrs [(Key.qTrainLast q, leNat (natLe 1 status ++ natLe 1 old ++ natLe 1 new ++ natLe 1 0 ++
    ((List.range 5).flatMap fun i => natLe 4 (stats.getD i 0)) ++ natLe 4 short ++ natLe 4 ms)),
    (Key.qTrainPhase q, 0)]).count (if status = CS.ok then Key.qTrainCommits q else Key.qTrainFailed q)

/-- A commit that fails a check of R777. -/
def State.trainRefuse (s : State) (q : QNum) (r : RingNum) (e : Entry) (status old short : Nat) : State :=
  let t := s.fresh
  (t.2.trainLast q status old 0xFF [] short (t.1 % 2 ^ 32)).finishNow q r e status

/-- The start waits: the quire runs a commit, the entry is another's HANDLE, or four loads run (R779). -/
def State.trainWaits (s : State) (q : QNum) (old : Option Nat) : Bool :=
  (s.quire q).train.isSome || decide (4 ≤ s.loadsRunning) ||
    allQ.any fun p => match (s.quire p).train with
      | some t => old == some t.oldEntry
      | none => false

/-- First master leaf that is no T1 or T2 leaf of the quire. -/
def State.masterForeign (s : State) (q : QNum) (a : Addr) (count : Nat) : Option Nat :=
  (List.range count).find? fun i => match s.resolve q (a.advance i) with
    | .own _ _ _ => false
    | _ => true

/-- The stripes of the old version's other sections are sensed to be copied (R783). -/
def State.senseOthers (s : State) (e : Nat) : State :=
  let l := (s.lib e).man.sections
  (l.zip (List.range l.length)).foldl (fun s p =>
    if p.1.kind = 3 then s
    else
      let k := sectionBase l p.2
      if p.1.stripes = 0 then s else s.senseStripes e k (k + p.1.stripes - 1)) s

/-- TRAIN_COMMIT: the checks in order, then the encoding of the master weights as they stand now. -/
def trainCommit (q : QNum) (r : RingNum) (s : State) : State :=
  match s.startable q r 0x0C with
  | none => s
  | some e =>
    let h := fieldLe e.bytes 8 4
    let master := fieldLe e.bytes 16 8
    if s.trainWaits q (s.validHandle q h) then s
    else match s.validHandle q h, addrOf master with
    | some old, some a =>
      let x := s.lib old
      if x.kind ≠ 2 then s.trainRefuse q r e CS.noHandle 0xFF 0
      else
        let frame := s.libFrame old
        match x.tiles frame with
        | none => s.trainRefuse q r e CS.noHandle old 0
        | some tiles =>
          let m := masterLeaves frame tiles
          if x.state = .damaged then s.trainRefuse q r e CS.ioError old 0
          else if x.state ≠ .installed then s.trainRefuse q r e CS.noSpace old 0
          else
            match s.masterForeign q a m with
            | some i => s.freezeEntry q e FC.foreignLeaf (bits (a.advance i).encode 43 12)
            | none =>
              if s.headT3 q < x.mib then s.trainRefuse q r e CS.noFit old (x.mib - s.headT3 q)
              else
                match s.freeEntry with
                | none => s.trainRefuse q r e CS.noSpace old 0
                | some new =>
                  if ¬ s.rowsFor x.man x.variant x.stripes then s.trainRefuse q r e CS.noSpace old 0
                  else
                    let t := s.fresh
                    let s := (t.2.startEntry q r e .train).senseOthers old
                    let o := encodeTiles frame (s.libFrames old) tiles t.1 fun i => s.copyFrame q (a.advance i) [] 0
                    let y : LibEntry := { x with
                      state := .loading, generation := (s.lib new).generation, hash := 0, rows := [], lost := [], removeReq := false, signed := [] }
                    let t : Train := { entry := e, oldEntry := old, newEntry := new, master := master, masterLeaves := m,
                                       stats := [o.leaves, o.st.sat, o.st.esc, o.st.rescue, o.st.nonfinite],
                                       frames := o.frames, turns := [] }
                    ((s.setLib new y).modQuire q fun z => { z with train := some t }).wr (Key.qTrainPhase q) 2
    | _, _ => s.trainRefuse q r e CS.noHandle 0xFF 0

def execTrainCommit (q : QNum) (r : RingNum) (s : State) : Host.Outcome State Fault Refusal := .next (trainCommit q r s)

/-! ### Writing and switching (R785 to R790) -/

/-- A commit ends without its switch: the blocks it programmed become free-dirty and the new entry is empty again (R789).
How many of its stripes were programmed by then is free (log entry 8). -/
def State.trainDrop (s : State) (q : QNum) (t : Train) : State :=
  let x := s.lib t.newEntry
  let f := s.fresh
  let s := if x.rows = [] then f.2.programFirst t.newEntry (f.1 % (x.stripes + 1)) [] else s
  (s.emptyEntry t.newEntry).modQuire q fun x => { x with train := none }

def State.trainFail (s : State) (q : QNum) (t : Train) (status ms : Nat) : State :=
  ((s.trainDrop q t).trainLast q status t.oldEntry t.newEntry t.stats 0 ms).finish q t.entry status

/-- A quire reset ends a running commit without a completion (R790); its status is ABORTED (DEDUCED, log entry
105) and its time free (log entry 8). -/
def State.stopTrain (s : State) (q : QNum) : State :=
  match (s.quire q).train with
  | some t =>
    let f := s.fresh
    (f.2.trainDrop q t).trainLast q CS.aborted t.oldEntry t.newEntry t.stats 0 (f.1 % 2 ^ 32)
  | none => s

/-- A master leaf of the commit lies in T2. -/
def State.masterInT2 (s : State) (q : QNum) (t : Train) : Bool :=
  match addrOf t.master with
  | some a => (List.range t.masterLeaves).any fun i => match s.resolve q (a.advance i) with
      | .own .t2 _ _ => true
      | _ => false
  | none => false

/-- The switch: the old handle goes, the new one comes with its variant, the commit completes (R786 to R788). -/
def State.trainTake (s : State) (q : QNum) (t : Train) (ms : Nat) : State :=
  let v := s.rd (Key.qHandleVariant q (t.oldEntry + 1))
  let mask := s.rd (Key.libLinkMask (t.oldEntry + 1))
  let s := s.setLib t.oldEntry { s.lib t.oldEntry with removeReq := true }
  let x := s.lib t.newEntry
  let s := s.setLib t.newEntry { x with state := .installed, generation := nextGeneration x.generation }
  let s := s.wrStored (Key.libLinkMask (t.newEntry + 1)) mask
  let s := ((s.dropHandle q t.oldEntry).giveHandle q t.newEntry v).modQuire q fun x => { x with train := none }
  (s.trainLast q CS.ok t.oldEntry t.newEntry t.stats 0 ms).finish q t.entry CS.ok 0
    (s.rd (Key.qHandle q (t.newEntry + 1)))

/-- The new version's stripes are programmed under the old placement; CONTENT_HASH is that of its body (R783, R785). -/
def State.writeVersion (s : State) (q : QNum) (t : Train) : State :=
  let s := s.programStripes t.newEntry t.frames
  let s := s.modQuire q fun x => { x with train := x.train.map fun t => { t with frames := [] } }
  s.setLib t.newEntry { s.lib t.newEntry with hash := bodyHash t.frames (s.lib t.newEntry).stripes }

/-- TRAIN_SWITCH: the new version's stripes are programmed, and once no run binds the old handle the switch is made. -/
def trainSwitch (q : QNum) (f : TrainFacts) (s : State) : State :=
  match (s.quire q).train with
  | none => s
  | some t =>
    let x := s.lib t.newEntry
    let ms := f.timeMs % 2 ^ 32
    if ¬ s.coreOn then s
    else if ¬ (x.man.groupsNamed x.variant).all (fun g => s.groupInService g) then s.trainFail q t CS.noSpace ms
    else if x.rows = [] ∧ f.uncorr = true ∧ s.rdB Key.t2EccActive = true ∧ s.masterInT2 q t = true then
      (((s.count Key.t2Uncorr).alert AL.t2Uncorr).channelError f.channel).trainFail q t CS.ioError ms
    else if x.rows = [] ∧ ¬ s.allProgrammed t.newEntry t.turns then s
    else
      let s := if x.rows = [] then s.writeVersion q t else s
      let h := s.rd (Key.qHandle q (t.oldEntry + 1))
      if h ≠ 0 ∧ s.textBound q h = true then s.wr (Key.qTrainPhase q) 3
      else s.trainTake q t ms

def execTrainSwitch (q : QNum) (f : TrainFacts) (s : State) : Host.Outcome State Fault Refusal := .next (trainSwitch q f s)

end Sys2Proof.Machine
end

