-- ==== Sys2Proof/Machine/Sentinel.lean ====
section
/-! DEFINITION. The sentinel (17): capture, features, the stochastic engine, the detector image and its arming, frames,
detection and the wake outputs. -/

namespace Sys2Proof.Machine

/-! ### PDM at the ball (R94 to R98, R800) -/

/-- The sentinel listens (R795). -/
def State.listening (s : State) : Bool := s.rd Key.sentState == 2 || s.rd Key.sentState == 3

/-- PDM_CLK: held low, 768 kHz from the low oscillator, or 2.4 MHz from the quick oscillator. -/
inductive PdmClk where
  | low
  | khz768
  | khz2400
  deriving DecidableEq, Repr

/-- PDM_CLK runs while the sentinel listens, the one capture of the Q19, at a rate that follows the core domain; while no
capture is enabled it is low (R94, R97). -/
def State.pdmClk (s : State) : PdmClk :=
  if ¬ s.listening then .low else if s.coreOn then .khz2400 else .khz768

/-- PDM bits per PCM sample at 32 kHz, which the decimation filters follow (R94, R800). -/
def PdmClk.ratio : PdmClk → Nat
  | .khz2400 => 75
  | _ => 24

def State.pdmRate (s : State) : Nat := s.pdmClk.ratio

/-- Every other bit of a list: from its first, if `first`, else from its second. -/
def alternate (first : Bool) : List Bool → List Bool
  | [] => []
  | a :: t => if first then a :: alternate false t else alternate true t

/-- The bits of PDM_DATA at the rising edges of PDM_CLK, channel 0: `l` holds one bit an edge, `rise` where its first edge
is a rising one (R95). -/
def risingBits (rise : Bool) (l : List Bool) : List Bool := alternate rise l

/-- The bits at the falling edges, channel 1 (R95). -/
def fallingBits (rise : Bool) (l : List Bool) : List Bool := alternate (!rise) l

/-! ### Capture (R800, R801, R932) -/

/-- A moving sum of `r` terms of a list of taps: the product with a box of length r. -/
def boxTaps (r : Nat) (l : List Int) : List Int :=
  (List.range (l.length + r - 1)).map fun n => ((l.take (n + 1)).drop (n + 1 - r)).sum

/-- Taps of the fourth-order CIC filter (R800). -/
def cicTaps (r : Nat) : List Int := boxTaps r (boxTaps r (boxTaps r (boxTaps r [1])))

/-- Coefficient h_k of the half-band filter, h_(22−k) = h_k (R932). -/
def halfBand (k : Nat) : Int := hbCoef.getD (if k ≤ 11 then k else 22 - k) 0

/-- Taps of both filters together, in PDM bits, newest bit first. -/
def pdmTaps (r : Nat) : List Int :=
  let c := cicTaps r
  (List.range 23).foldl (fun acc k =>
    addLists (acc ++ List.replicate (k * r + c.length - acc.length) 0)
      (List.replicate (k * r) 0 ++ c.map (halfBand k * ·) ++ List.replicate (acc.length - (k * r + c.length)) 0)) []

/-- PCM from the bits up to a sample, newest first: full scale for a density of 100 % or 0 %, rounded once (R475). -/
def pcmOf (r : Nat) (bits : List Bool) : Int :=
  let sum := ((bits.zip (pdmTaps r)).map fun p => if p.1 then p.2 else -p.2).sum
  max (-32767) (min 32767 (roundInt (32767 * sum) (32768 * r ^ 4)))

/-- Bits kept of the past: the filters' reach at either rate. -/
def pdmKeep : Nat := 2000

/-- The frame's PCM of one channel: `past` newest first, `bits` in capture order. -/
def framePcm (r n : Nat) (past bits : List Bool) : List Int :=
  (List.range n).map fun i => pcmOf r ((bits.take (2 * r * (i + 1))).reverse ++ past)

/-! ### The detector image (R814, R815) -/

def imgLe (m : Mem) (o n : Nat) : Nat := Mem.readLe m o n

structure Layer where
  op : Nat
  act : Nat
  genA : Nat
  genW : Nat
  log2l : Nat
  src : Nat
  context : Nat
  shift : Int
  nIn : Nat
  nOut : Nat
  wOff : Nat
  bOff : Nat
  deriving DecidableEq, Repr

def layerAt (m : Mem) (i : Nat) : Layer :=
  let o := imgLe m 24 4 + 24 * i
  { op := imgLe m o 1, act := imgLe m (o + 1) 1, genA := imgLe m (o + 2) 1, genW := imgLe m (o + 3) 1,
    log2l := imgLe m (o + 4) 1, src := imgLe m (o + 5) 1, context := imgLe m (o + 6) 1,
    shift := toSigned 8 (imgLe m (o + 7) 1), nIn := imgLe m (o + 8) 2, nOut := imgLe m (o + 10) 2,
    wOff := imgLe m (o + 12) 4, bOff := imgLe m (o + 16) 4 }

def layersOf (m : Mem) : List Layer := (List.range (imgLe m 6 1)).map (layerAt m)

def Layer.isMul (l : Layer) : Bool := decide (l.op ≤ 1)
def Layer.len (l : Layer) : Nat := 2 ^ l.log2l

/-- Passes of a layer (R808). -/
def Layer.passes (l : Layer) : Nat := ceilDiv (if l.isMul then l.nIn * l.nOut else l.nOut) 1024

def Layer.cycles (l : Layer) : Nat := l.passes * (l.len + 8)

/-- Width of a layer's source (R815). -/
def srcWidth (ls : List Layer) (src : Nat) : Nat := if src = 0xFF then 32 else (ls.map Layer.nOut).getD src 0

/-- Frame cycles: 64 and the layers' (R816 check 0x08). -/
def frameCycles (ls : List Layer) : Nat := 64 + (ls.map Layer.cycles).sum

/-- Depth of history a source needs (R816 check 0x07). -/
def srcDepth (ls : List Layer) (src : Nat) : Nat :=
  ls.foldl (fun m l => if l.src = src then max m l.context else m) 1

/-- Working bytes (R816 check 0x07). -/
def workBytes (ls : List Layer) : Nat :=
  32 * srcDepth ls 0xFF +
    ((ls.zip (List.range ls.length)).map fun p => p.1.nOut * (if p.1.act = 2 then 2 else 1) * srcDepth ls p.2).sum

/-- Ranges and extents of a layer record (R815, R816 check 0x04). -/
def Layer.inRange (l : Layer) (len : Nat) : Bool :=
  decide (l.op ≤ 3 ∧ l.act ≤ 2 ∧ l.genA ≤ 31 ∧ l.genW ≤ 31 ∧ 6 ≤ l.log2l ∧ l.log2l ≤ 12 ∧ 1 ≤ l.context ∧ l.context ≤ 8 ∧
    -8 ≤ l.shift ∧ l.shift ≤ 8) &&
  (if l.isMul then decide (l.wOff + l.nIn * l.nOut ≤ len) && (l.bOff == 0 || decide (l.bOff + l.nOut ≤ len))
    else l.shift == 0 && l.wOff == 0 && l.bOff == 0)

/-- The record rule of a layer (R816 check 0x06). -/
def layerRule (ls : List Layer) (classes i : Nat) (l : Layer) : Bool :=
  (l.src == 0xFF || decide (l.src < i)) && l.nIn == srcWidth ls l.src * l.context &&
  (if l.isMul then decide (1 ≤ l.nOut) else 2 * l.nOut == l.nIn) &&
  (if i + 1 = ls.length then l.act == 2 && l.nOut == classes else l.act != 2)

/-- The first failing check among 0x03 to 0x08: code and layer (R816). `room`: bytes of the section. -/
def imageFail (m : Mem) (room : Nat) : Option (Nat × Nat) :=
  let ls := layersOf m
  let len := imgLe m 12 4
  let z := fun a n => Mem.readN m a n == List.replicate n (0 : Byte)
  let seed := fun i => imgLe m (imgLe m 16 4 + 4 * i) 4
  let idx := List.range ls.length
  let bad := fun (f : Nat → Layer → Bool) => idx.find? fun i => match ls[i]? with | some l => !f i l | none => false
  if imgLe m 0 4 ≠ 0x534E5444 ∨ imgLe m 4 2 ≠ 1 ∨ room < len ∨ !z 10 2 ∨ !z 28 36 ∨
      (List.range 32).any (fun i => seed i / 2 ^ 24 != 0) then some (3, 0xFF)
  else
    match bad fun i _ => z (imgLe m 24 4 + 24 * i + 20) 4 with
    | some i => some (3, i)
    | none =>
      if ls.length = 0 ∨ 16 < ls.length ∨ imgLe m 7 1 < 4 ∨ 10 < imgLe m 7 1 ∨ 2 < imgLe m 8 1 ∨ imgLe m 9 1 < 2 ∨
          32 < imgLe m 9 1 ∨ 98304 < len ∨ len < 64 ∨ len < imgLe m 16 4 + 128 ∨ len < imgLe m 20 4 + 320 ∨
          len < imgLe m 24 4 + 24 * ls.length then some (4, 0xFF)
      else
        match bad fun _ l => l.inRange len with
        | some i => some (4, i)
        | none =>
          if (List.range 32).any fun i => seed i == 0 then some (5, 0xFF)
          else
            match bad (layerRule ls (imgLe m 9 1)) with
            | some i => some (6, i)
            | none =>
              if 4096 < workBytes ls then some (7, 0xFF)
              else if imgLe m 7 1 * 3072 < frameCycles ls then some (8, 0xFF)
              else none

/-! ### The stochastic engine (R805 to R813) -/

/-- One step of a generator, and the eight of an engine cycle (R806). -/
def lfsrStep (mask st : Nat) : Nat := if bit st 0 then Nat.xor (st / 2) mask else st / 2

def lfsrCycle (mask st : Nat) : Nat := (List.range 8).foldl (fun x _ => lfsrStep mask x) st

/-- The samples of `n` engine cycles, and the state after them. -/
def lfsrRun (mask : Nat) : Nat → Nat → List Nat × Nat
  | 0, st => ([], st)
  | n + 1, st =>
    let t := lfsrCycle mask st
    let r := lfsrRun mask n t
    (t % 256 :: r.1, r.2)

/-- The generators' states. -/
def gensRun (n : Nat) (g : List Nat) : List Nat := (g.zip genPoly).map fun p => (lfsrRun p.2 n p.1).2

/-- The stream samples of generator `k` in a pass of L bits; the place of the eight cycles beyond them is open. -/
def passSamples (g : List Nat) (k len : Nat) : List Nat :=
  ((lfsrRun (genPoly.getD k 0) (len + 8) (g.getD k 0)).1.drop (Config.passLead % 9)).take len

/-- Ones of a gate over a pass. -/
def laneCount (op : Nat) (sa sw : List Nat) (a w : Int) : Nat :=
  ((sa.zip sw).filter fun p =>
    let x := decide ((p.1 : Int) < a)
    let y := decide ((p.2 : Int) < w)
    match op with
    | 0 => x && y
    | 1 => x == y
    | 2 => x || y
    | _ => x && y).length

/-- A layer's lane counts, product by product or output by output, and the generators after it. -/
def layerCounts (m : Mem) (l : Layer) (input : List Int) (g : List Nat) : List Nat × List Nat :=
  let total := if l.isMul then l.nIn * l.nOut else l.nOut
  (List.range l.passes).foldl (fun (p : List Nat × List Nat) k =>
    let sa := passSamples p.2 l.genA l.len
    let sw := passSamples p.2 l.genW l.len
    let n := min 1024 (total - 1024 * k)
    let c := (upFrom (1024 * k) n).map fun x =>
      if l.isMul then laneCount l.op sa sw (input.getD (x % l.nIn) 0) (imgLe m (l.wOff + x) 1)
      else laneCount l.op sa sw (input.getD (2 * x) 0) (input.getD (2 * x + 1) 0)
    (p.1 ++ c, gensRun (l.len + 8) p.2)) ([], g)

def clampInt (lo hi x : Int) : Int := max lo (min hi x)

/-- Output j of a layer from its summed terms, in units of 1/L (R809). -/
def layerOut (m : Mem) (l : Layer) (j : Nat) (sum : Int) : Int :=
  let bias := if l.isMul ∧ l.bOff ≠ 0 then toSigned 8 (imgLe m (l.bOff + j) 1) else 0
  let num := sum * 128 * pow2 (-l.shift) + bias * (l.len * pow2 l.shift : Nat)
  let den := 128 * l.len * pow2 l.shift
  match l.act with
  | 0 => clampInt 0 255 (roundInt (128 * (num + den)) den)
  | 1 => clampInt 0 255 (roundInt (256 * num) den)
  | _ => clampInt (-32768) 32767 (roundInt (256 * num) den)

/-- A layer's outputs and the generators after it. -/
def layerRun (m : Mem) (l : Layer) (input : List Int) (g : List Nat) : List Int × List Nat :=
  let r := layerCounts m l input g
  ((List.range l.nOut).map fun j =>
    let sum : Int :=
      if l.isMul then (((r.1.drop (j * l.nIn)).take l.nIn).map fun c => if l.op = 1 then 2 * (c : Int) - l.len else c).sum
      else (r.1.getD j 0 : Int)
    layerOut m l j sum, r.2)

/-- A layer's input: its source in the CONTEXT frames up to this one, oldest first; missing history reads 0x80 (R810). -/
def layerInput (ls : List Layer) (now : List (List Int)) (hist : List (List (List Int))) (l : Layer) : List Int :=
  let k := if l.src = 0xFF then 0 else l.src + 1
  let w := srcWidth ls l.src
  (List.range l.context).flatMap fun c =>
    let back := l.context - 1 - c
    if back = 0 then now.getD k [] else (hist.getD (back - 1) []).getD k (List.replicate w 0x80)

/-- Every layer of a frame in order: features first, then each layer's outputs. -/
def runLayers (m : Mem) (features : List Int) (hist : List (List (List Int))) : List (List Int) :=
  let ls := layersOf m
  let seeds := (List.range 32).map fun i => imgLe m (imgLe m 16 4 + 4 * i) 4 % 2 ^ 24
  (ls.foldl (fun (p : List (List Int) × List Nat) l =>
    let r := layerRun m l (layerInput ls p.1 hist l) p.2
    (p.1 ++ [r.1], r.2)) ([features], seeds)).1

/-- The first layer that breaks the correlation rule, and its engine cycle (R811 to R813). -/
def correlationFault (ls : List Layer) : Option (Nat × Nat) :=
  ((List.range ls.length).find? fun i => match ls[i]? with
    | some l => l.isMul && l.genA == l.genW
    | none => false).map fun i => (i, ((ls.take i).map Layer.cycles).sum)

/-! ### Features (R803) -/

/-- R(8 · log2(1 + E / 2^16)), clamped. -/
def featureCode (e : Nat) : Int := min 255 (((Nat.log2 ((65536 + e) ^ 16) - 255) / 2 : Nat) : Int)

/-- One sample through the biquad of band `b`: its state and the energy so far. -/
def biquadStep (c : Nat → Int) (p : List Int × Nat) (x : Int) : List Int × Nat :=
  let st := fun i => p.1.getD i 0
  let y := clampInt (-32768) 32767 (roundInt (c 0 * x + c 1 * st 0 + c 2 * st 1 - c 3 * st 2 - c 4 * st 3) 16384)
  ([x, st 0, y, st 2], p.2 + y.natAbs * y.natAbs)

/-- The feature codes of a frame and the filters' state after it. -/
def featureBank (m : Mem) (state : Tab Int) (pcm : List Int) : List Int × Tab Int :=
  (List.range 32).foldl (fun (p : List Int × Tab Int) b =>
    let c := fun i => toSigned 16 (imgLe m (imgLe m 20 4 + 10 * b + 2 * i) 2)
    let r := pcm.foldl (biquadStep c) ((List.range 4).map fun i => Tab.get state 0 (4 * b + i), 0)
    (p.1 ++ [featureCode r.2], (List.range 4).foldl (fun t i => Tab.set t 0 (4 * b + i) (r.1.getD i 0)) p.2)) ([], state)

/-! ### Listening (R793, R795, R797, R828 to R831) -/

/-- SENT_STATE as it reads (R832). -/
def State.sentStateNow (s : State) : Nat := if s.sentHeld then 4 else s.rd Key.sentState

/-- SENT_ENABLE (R828 to R830). -/
def sentEnableWrite (on : Bool) (s : State) : Nat × State :=
  if on then
    if s.sentStateNow = 0 then (DS.state, s)
    else
      let s := s.wr Key.sentEnable 1
      (DS.ok, if s.rd Key.sentState = 3 ∧ ¬ s.sent.stopAtEnd then s.wr Key.sentState 2 else s.tryListen)
  else
    let s := s.wr Key.sentEnable 0
    (DS.ok, if s.rd Key.sentState = 2 then s.wr Key.sentState 3 else s)

/-- SENT_WAKE_ASSERTED: 0x00 releases the balls; 0x01 is out of range (R825, R827). -/
def sentWakeWrite (v : Nat) (s : State) : Nat × State :=
  if v ≠ 0 then (DS.range, s)
  else (DS.ok, ({ s with pins := { s.pins with wakeOut := false, wakeN := false } } : State).wr Key.sentWakeAsserted 0)

/-! ### Arming (R816 to R821) -/

/-- The payload bytes of a section. -/
def State.sectionByte (s : State) (e sec i : Nat) : Byte :=
  s.libByte e (32 * sectionBase (s.lib e).man.sections sec + i / 8192) (256 + i % 8192)

/-- The image of a section: its header names its length; no more than the detector bank is read. -/
def State.sectionImage (s : State) (e sec room : Nat) : Mem :=
  let len := leNat ((List.range 4).map fun i => s.sectionByte e sec (12 + i))
  Mem.ofList ((List.range (max 64 (min len (min room 98304)))).map fun i => s.sectionByte e sec i)

/-- An arming run's failure: code and layer. -/
def State.armFail (s : State) (e sec : Nat) : Option (Nat × Nat) :=
  let x := s.lib e
  if ¬ x.installed ∨ x.damaged ∨ ¬ bit (s.rd (Key.libLinkMask (e + 1))) 7 then some (1, 0xFF)
  else
    match x.man.sections[sec]? with
    | none => some (2, 0xFF)
    | some y => if y.kind ≠ 4 then some (2, 0xFF) else imageFail (s.sectionImage e sec (8192 * y.leaves)) (8192 * y.leaves)

/-- SENT_ARM (R817 to R820). -/
def sentArmWrite (arg : List Byte) (s : State) : Nat × State :=
  let e := fieldLe arg 0 1
  let sec := fieldLe arg 1 1
  if 1 < s.sentStateNow then (DS.state, s)
  else if 63 < e ∨ fieldLe arg 2 2 ≠ 0 then (DS.range, s)
  else s.ifIdle Key.sentArm fun s =>
    match s.armFail e sec with
    | some c => s.cmdDone Key.sentArm DS.range (natLe 1 c.1 ++ natLe 1 c.2 ++ natLe 2 0)
    | none =>
      let x := s.lib e
      let leaves := match x.man.sections[sec]? with | some y => y.leaves | none => 0
      let s := (upFrom (sectionBase x.man.sections sec) (ceilDiv leaves 32)).foldl (fun s k => s.senseStripe e k) s
      let img := s.sectionImage e sec (8192 * leaves)
      let v := ((List.range x.man.variants.length).find? fun v =>
        x.man.samePlace x.variant v && s.fits 7 x.man x.stripes v).getD 0xFF
      let s := if s.holds 7 e then s else s.giveHandle 7 e v
      let cyc := frameCycles (layersOf img)
      let s := (s.setSent { s.sent with image := img }).wrs
        [(Key.sentState, 1), (Key.sentEntry, e), (Key.sentFrameCycles, cyc), (Key.sentFrameMs, imgLe img 7 1)]
      (s.cmdDone Key.sentArm DS.ok (natLe 1 0 ++ natLe 1 0xFF ++ natLe 2 cyc)).tryListen

/-- SENT_DISARM (R820, R821). -/
def sentDisarmWrite (s : State) : Nat × State :=
  if 1 < s.sentStateNow then (DS.state, s)
  else s.ifIdle Key.sentDisarm fun s =>
    let e := s.rd Key.sentEntry
    let s := if e < 64 ∧ s.holds 7 e = true then s.dropHandle 7 e else s
    let s := s.setSent { Sentinel.reset with settling := s.sent.settling }
    (s.wrs [(Key.sentState, 0), (Key.sentEntry, 0xFF), (Key.sentFrameCycles, 0), (Key.sentFrameMs, 0)]).cmdDone
      Key.sentDisarm DS.ok []

/-! ### Frames and detection (R802, R804, R822 to R827) -/

/-- The winning class and its score: the highest of classes 1 and up, the lowest among equals (R822). -/
def winner (scores : List Int) : Nat × Int :=
  (List.range scores.length).foldl (fun (b : Nat × Int) k =>
    if k = 0 then b else if b.1 = 0 ∨ b.2 < scores.getD k 0 then (k, scores.getD k 0) else b) (0, 0)

/-- Judge a frame's scores: hold and refractory counts, and the detection if one occurs (R822, R823). -/
def State.judge (s : State) (scores : List Int) : State :=
  let w := winner scores
  let x := s.sent
  let over_ := decide (toSigned 16 (s.rd Key.sentThresh) ≤ w.2)
  let hold := if !over_ then 0 else if x.holdCount ≠ 0 ∧ x.holdClass = w.1 then x.holdCount + 1 else 1
  let ready : Bool := match x.sinceDetect with
    | none => true
    | some n => decide (s.rd Key.sentRefract ≤ n)
  let s := s.count Key.sentFrames
  if hold ≠ 0 ∧ s.rd Key.sentHold ≤ hold ∧ ready = true then
    s.setSent { x with holdClass := w.1, holdCount := 0, sinceDetect := some 0, detect := some (w.1, w.2, x.frame) }
  else
    s.setSent { x with holdClass := w.1, holdCount := hold, sinceDetect := x.sinceDetect.map (· + 1) }

/-- A detection is recorded, then its wake outputs are raised (R78, R824 to R827). -/
def State.detectNow (s : State) : State :=
  match s.sent.detect with
  | none => s
  | some (k, score, frame) =>
    let s := s.setSent { s.sent with detect := none }
    let s := (s.wrs [(Key.sentLastClass, k), (Key.sentLastScore, ofSigned 16 score), (Key.sentLastFrame, frame % 2 ^ 32),
      (Key.sentLastRtc, s.rtc.toNat)]).count Key.sentDetections
    let s := s.setClk { s.clk with quickOsc := true }
    let cfg := s.rd Key.sentWakeCfg
    let link := s.rd Key.pcieLinkState
    let out := bit cfg 0
    let n := bit cfg 2 && link == 0
    let ibi := bit cfg 1 && s.ibiAllowed 1 k
    let msi := bit cfg 3 && s.rd Key.sentVector != 0xFF && s.coreOn && (link == 2 || link == 3)
    let s := { s with pins := { s.pins with wakeOut := s.pins.wakeOut || out, wakeN := s.pins.wakeN || n } }
    let s := if ibi then s.ibiDue 1 k else s
    let s := if msi then s.msixSend (s.rd Key.sentVector) else s
    if out || n || ibi || msi then s.wr Key.sentWakeAsserted 1 else s

/-- The frame's end once its layers have run: a stop asked for takes effect (R799, R829). -/
def State.frameOver (s : State) : State :=
  let stop := s.rd Key.sentState == 3 || s.sent.stopAtEnd
  let s := s.setSent { s.sent with frame := s.sent.frame + 1, settling := false }
  if stop then (s.setSent { s.sent with stopAtEnd := false }).wr Key.sentState 1 else s

/-- The PCM of the channel or channels the image selects (R801). -/
def selectPcm (channels : Nat) (p0 p1 : List Int) : List Int :=
  match channels with
  | 0 => p0
  | 1 => p1
  | _ => (p0.zip p1).map fun p => (p.1 + p.2) / 2

/-- One frame ends: captured bits of both channels, in capture order; `settling`: some sample of it is settling beyond
the frame in which PDM_CLK changed. The band filters run in every frame; a skipped one runs no layer (R803, R804; log
entry 35). -/
def State.sentFrame (s : State) (b0 b1 : List Bool) (settling : Bool) : State :=
  let x := s.sent
  let r := s.pdmRate
  let n := 16 * s.rd Key.sentFrameMs
  let keep := fun (past bits : List Bool) => ((bits.take (2 * r * n)).reverse ++ past).take pdmKeep
  let m := x.image
  let f := featureBank m x.biquad (selectPcm (imgLe m 8 1) (framePcm r n x.pdm0 b0) (framePcm r n x.pdm1 b1))
  let s := s.setSent { x with pdm0 := keep x.pdm0 b0, pdm1 := keep x.pdm1 b1, biquad := f.2 }
  if settling || x.settling then (s.count Key.sentFramesSkipped).frameOver
  else
    match correlationFault (layersOf m) with
    | some c => (s.count Key.sentCorrFaults).freeze 7 FC.correlation (imp := c.1) (cycle := c.2)
    | none =>
      let out := runLayers m f.1 x.history
      let s := s.setSent { s.sent with history := (out :: x.history).take 8 }
      (s.judge (out.getLastD [])).frameOver

end Sys2Proof.Machine
end

