-- ==== Sys2Proof/Machine/Power.lean ====
section
/-! DEFINITION. Power states and the hand-warmth governor (18): sleep entry and wake, the evaluation of power and skin
temperature, Sprint windows, PCIe link power, and the ends of the sentinel's frames, which a sleep entry waits for. -/

namespace Sys2Proof.Machine

/-! ### Link power (R204, R206, R863) -/

def linkDownCode : Nat := 0
def linkTrainingCode : Nat := 1
def linkL0 : Nat := 2
def linkL1 : Nat := 3
def linkL11 : Nat := 4
def linkL12 : Nat := 5

/-- The LTR latency of the power state, in microseconds (R863). -/
def State.ltrNow (s : State) : Nat := if s.coreOn then 100 else 3000

/-- Report the latency, if the link is in L0. -/
def State.reportLtr (s : State) (always : Bool := false) : State :=
  if s.rd Key.pcieLinkState = linkL0 ∧ (always ∨ s.fn.ltr ≠ s.ltrNow) then
    ({ s with fn := { s.fn with ltr := s.ltrNow } } : State).emit (.ltr s.ltrNow)
  else s

/-- After 20 µs without traffic the Q19 requests L1, when the host has enabled it (R863). -/
def aspmL1Request (s : State) : State :=
  if s.rd Key.pcieLinkState = linkL0 ∧ s.fn.aspmL1 then (s.emit .requestL1).wr Key.pcieLinkState linkL1 else s

def execAspmL1Request (s : State) : Host.Outcome State Fault Refusal := .next (aspmL1Request s)

/-- The link enters L1.1 or L1.2 when CLKREQ_N is released (R863). -/
def l1SubstateEntry (l12 : Bool) (s : State) : State :=
  if s.rd Key.pcieLinkState = linkL1 then
    ({ s with fn := { s.fn with clkreqReleased := true } } : State).wr Key.pcieLinkState (if l12 then linkL12 else linkL11)
  else s

def execL1SubstateEntry (l12 : Bool) (s : State) : Host.Outcome State Fault Refusal := .next (l1SubstateEntry l12 s)

/-- Leaving L1.2 powers the PHY and the link layer; CLKREQ_N starts the quick oscillator; the power state stays
(R78, R204). The link is then in L1, from which it enters L0 (log entry 22). -/
def l12Exit (s : State) : State :=
  if s.rd Key.pcieLinkState = linkL12 then
    ((({ s with fn := { s.fn with clkreqReleased := false } } : State).setClk { s.clk with quickOsc := true }).wr
      Key.pcieLinkState linkL1)
  else s

def execL12Exit (s : State) : Host.Outcome State Fault Refusal := .next (l12Exit s)

/-- The link reaches L0 after training or an L1 exit: CLKREQ_N is asserted, which starts the quick oscillator (R78),
WAKE_N is released and LTR reported (R206, R825, R863). A link that has to train reaches L0 only with the core domain
powered: in S-RET and S-SENT only an exit from L1 leaves the lanes' reset state (R49, R204, log entry 84). -/
def linkEntersL0 (speed : Fin 5) (width : Fin 3) (s : State) : State :=
  let l := s.rd Key.pcieLinkState
  if ¬ s.barUp ∨ l = linkL0 ∨ l = linkL12 ∨ (l ≤ linkTrainingCode ∧ (speed = 0 ∨ width = 0 ∨ ¬ s.coreOn)) then s
  else
    let s := if l ≤ linkTrainingCode then s.wrs [(Key.pcieLinkSpeed, speed.val), (Key.pcieLinkWidth, width.val)] else s
    let s := s.setClk { s.clk with quickOsc := s.clk.quickOsc || s.fn.clkreqReleased }
    let s := { s with pins := { s.pins with wakeN := false }, fn := { s.fn with clkreqReleased := false } }
    (s.wr Key.pcieLinkState linkL0).reportLtr true

def execLinkEntersL0 (speed : Fin 5) (width : Fin 3) (s : State) : Host.Outcome State Fault Refusal :=
  .next (linkEntersL0 speed width s)

/-- The PCIE_LINK entries return to their defaults (R206); a link that is down asks for no reference clock: CLKREQ_N is
released (R47). -/
def State.linkOff (s : State) : State :=
  ({ s with fn := { s.fn with clkreqReleased := true } } : State).wrs [(Key.pcieLinkState, linkDownCode), (Key.pcieLinkSpeed, 0), (Key.pcieLinkWidth, 0)]

/-- The link drops to down or Detect without PERST_N (R206). -/
def linkDown (s : State) : State := s.linkOff

def execLinkDown (s : State) : Host.Outcome State Fault Refusal := .next (linkDown s)

/-! ### Power domains (R60) -/

/-- The power domains of R60. -/
inductive Domain where
  | aon
  | lowOsc
  | core
  | sram
  | nv
  | bay (b : BayNum)
  deriving DecidableEq, Repr

/-- The management plane is busy with the press (R603). -/
def State.pressBusy (s : State) : Bool :=
  !s.nv.press.isEmpty || !s.nv.units.isEmpty || !s.weave.steps.isEmpty || s.nv.moves.any (fun m => m.rows.isSome) ||
    s.nv.loads.any (fun l => l.lib.isSome) || allQ.any fun q => (s.quire q).train.isSome

/-- A sense is asked for or under way. -/
def State.streaming (s : State) : Bool :=
  !s.weave.queues.isEmpty || !s.weave.sensed.isEmpty || !s.weave.aptQueue.isEmpty || !s.weave.tlQueue.isEmpty

/-- Whether the Q19 powers a domain (R60). A clock-gated bay of S-IDLE is powered until R837 switches it off (log entry
86). -/
def State.domainOn (s : State) : Domain → Bool
  | .aon => s.pins.aonUp
  | .lowOsc => s.clk.lowOsc
  | .core => s.coreOn
  | .sram => s.coreOn
  | .nv => s.coreOn && (s.pressBusy || s.streaming)
  | .bay b => (s.bay b).powered

/-! ### Sleep entry (R855 to R860) -/

/-- The quire counts as quiesced (R45). -/
def State.quiesced (s : State) (q : QNum) : Bool :=
  let x := s.quire q
  x.state == .frozen || x.pwr == .release || x.pwr == .none ||
    ((x.state == .disabled || x.pwr == .refused) && x.started.isEmpty)

/-- One UNIFIED leaf homed in the commons goes to T2; false: no T2 headroom (R694, R858). An execute-only leaf stays and
is counted (R685). -/
def State.demoteForSleep (s : State) (q : QNum) (n : Nat) : State × Bool :=
  let arrived := tmMoveComplete q n s
  match (Tab.find (arrived.quire q).unified n).map ULeaf.home with
  | some (.commons a) =>
    if arrived.isXo .commons a then (arrived.skipTm q, true)
    else if arrived.rd (Key.qQuota q 2) ≤ arrived.usedT2 q then (arrived, false)
    else
      match arrived.startMove q n false with
      | some t => (tmMoveComplete q n (t.tiers.jobs.foldl (fun t j => j.extents.foldl State.zeroExtent t) t), true)
      | none => (arrived, false)
  | _ => (arrived, true)

/-- Every UNIFIED leaf homed in the commons, quire by quire; the quire for whose leaf T2 has no headroom. -/
def State.demoteAll (s : State) : State × Option QNum :=
  allQ.foldl (fun (p : State × Option QNum) q =>
    ((p.1.quire q).unified.map fun u => u.1).foldl (fun (p : State × Option QNum) n =>
      match p.2 with
      | some _ => p
      | none =>
        let r := p.1.demoteForSleep q n
        (r.1, if r.2 then none else some q)) p) (s, none)

/-- Accepted writes to T1 and T2 complete, zeroing included (R712, R862). -/
def State.settleTiers (s : State) : State :=
  let s := s.tiers.jobs.foldl (fun s j => j.extents.foldl State.zeroExtent s) s
  s.setTiers { s.tiers with jobs := [] }

/-- T1 loses its contents; allocations and reservations stay; the pool empties (R60, R860). -/
def State.loseT1 (s : State) : State :=
  s.setTiers { s.tiers with
    slices := Vector.replicate 8 [], commons := [], pool := [],
    xo := s.tiers.xo.filter fun x => !x.1.isT1 }

/-- The commit point and the steps after it (R856). -/
def State.enterSleep (s : State) (toSent : Bool) : State :=
  let s := s.settleTiers.loseT1.checkpoint
  let s := (s.forB State.bayOff).wr Key.pwrVsel 0
  let s := s.setClk { s.clk with
    bayPll := false, nvPll := false, lpddrPll := false, settling := false,
    lowOsc := toSent || !s.clk.crystal }
  let s := { s with power := if toSent then .sSent else .sRet }
  let s := s.setSent { s.sent with settling := s.sent.settling || s.listening }
  let s := s.setPm { s.pm with entry := none, waking := false }
  let s := { s with jtag := { Jtag.reset with cells := s.jtag.cells } }
  let f := s.fresh
  let s := f.2.cmdDone Key.pwrRequest DS.ok (natLe 1 0 ++ natLe 1 0xFF ++ natLe 2 (f.1 % 65536))
  (s.count (if toSent then Key.pwrSentEntries else Key.pwrRetEntries)).reportLtr

/-- A sleep entry under way proceeds once the sentinel's frame is done (R794, R856). -/
def State.stepEntry (s : State) : State :=
  match s.pm.entry with
  | none => s
  | some e =>
    if (!e.toSent && s.listening) || s.sent.detect.isSome then s
    else
      match s.demoteAll with
      | (s, some q) => s.abandonEntry 0x04 q.val
      | (s, none) => s.enterSleep e.toSent

/-- PWR_REQUEST (R855, R856). Requests held before it have been served, since requests are served in order (R155); a
request held after it is a wake demand, which abandons the entry (R857, R861, log entry 28). -/
def pwrRequestWrite (arg : List Byte) (s : State) : Nat × State :=
  let t := fieldLe arg 0 1
  if t ≠ 1 ∧ t ≠ 2 then (DS.range, s)
  else if t = 2 ∧ s.sentStateNow ≠ 2 then (DS.state, s)
  else if !(allQ.all fun q => s.quiesced q) || s.pressBusy || !s.tiers.jobs.isEmpty then (DS.busy, s)
  else s.ifIdle Key.pwrRequest fun s =>
    let s := s.cmdStart Key.pwrRequest
    let s := s.setPm { s.pm with entry := some { toSent := t == 2 } }
    let s := if t = 1 ∧ s.listening then s.setSent { s.sent with stopAtEnd := true } else s
    if s.dict.cold = [] then s.stepEntry else s.abandonEntry 0x05 0xFF

/-! ### Waking (R861, R862, R90 to R93, R86) -/

/-- A demand takes the Q19 from S-RET or S-SENT to S-IDLE: the core domain is powered, then the PLLs start. Without
CLKIN_38M4 the wake is held at the PLLs and counted until CLKIN_DETECTED. The management controller serves after
MC_WAKE_COMPLETE. -/
def State.leaveSleep (s : State) : State :=
  if s.coreOn ∨ ¬ s.running ∨ ¬ s.pm.demand then s
  else
    let s := { s with power := .sIdle }
    let s := s.setPm { s.pm with waking := true, demand := false }
    let s := s.setClk { s.clk with lowOsc := true, quickOsc := true }
    let s := s.setSent { s.sent with settling := s.sent.settling || s.listening }
    let s := s.reportLtr.tryListen
    if s.clkinSeen then s.startPlls else s.holdWake

/-! ### The evaluation (R842 to R854) -/

/-- The cap in force (R843). -/
def State.capNow (s : State) : Nat :=
  let c := s.rd (if s.rd Key.pwrSprint = 1 then Key.profPowerBurst s.part else Key.profPowerSustained s.part)
  let h := s.rd Key.pwrHostCapMw
  if h ≠ 0 ∧ h < c then h else c

/-- PWR_SPRINT as it reads (R864). -/
def State.sprintNow (s : State) : Nat := if s.rd (Key.profBurstWindow s.part) = 0 then 3 else s.rd Key.pwrSprint

/-- An open Sprint window closes and rests (R845, R846). -/
def State.closeSprint (s : State) : State := if s.rd Key.pwrSprint = 1 then s.wr Key.pwrSprint 2 else s

def sprintClose (s : State) : State := s.closeSprint

def execSprintClose (s : State) : Host.Outcome State Fault Refusal := .next (sprintClose s)

/-- Five times the open duration has passed (R846). -/
def sprintReady (s : State) : State := if s.rd Key.pwrSprint = 2 then s.wr Key.pwrSprint 0 else s

def execSprintReady (s : State) : Host.Outcome State Fault Refusal := .next (sprintReady s)

/-- F advances by (T_die − F) · Δt / τ, Δt = 1/1024 s, exactly (R847, log entry 21). -/
def State.filter (s : State) (tDie : Int) : State :=
  let k := 1024 * max 1 (s.rd Key.thermTauS)
  let num := s.pm.filtNum * (k - 1 : Nat) + tDie * s.pm.filtDen
  let den := s.pm.filtDen * k
  (s.setPm { s.pm with filtNum := num, filtDen := den }).wrs
    [(Key.thermDieMax, ofSigned 32 tDie), (Key.thermFiltered, ofSigned 32 (roundInt num den))]

/-- T_skin as a fraction, in 1/65536 degrees (R847, R848). -/
def State.skin (s : State) : Int × Nat :=
  let fn := s.pm.filtNum
  let fd := s.pm.filtDen
  if s.pm.boardStale then (fn * 65536, fd * 65536)
  else
    let tb := toSigned 32 (s.rd Key.thermBoardTemp)
    (tb * 65536 * fd + (s.rd Key.thermCoupling : Int) * (fn - tb * fd), fd * 65536)

/-- The die is at or above 110 °C. -/
def dieHot (tDie : Int) : Bool := decide (110 * 65536 ≤ tDie)

/-- Level causes of ALERT_CAUSE are set again while they hold (R910). -/
def State.levelCauses (s : State) (hot : Bool) : State :=
  let s := if s.paramFull then s.alert AL.paramShort else s
  let s := if s.pm.vddBad then s.alert AL.vddBay else s
  if hot then s.alert AL.dieHot else s

/-- The Sprint window at an evaluation: it opens, or closes at the 100th consecutive low one (R844, R845). -/
def State.sprintStep (s : State) (p : Nat) : State :=
  let cap := s.rd (Key.profPowerSustained s.part)
  match s.rd Key.pwrSprint with
  | 0 =>
    if cap < p ∧ s.rd (Key.profBurstWindow s.part) ≠ 0 then
      ((s.wr Key.pwrSprint 1).setPm { s.pm with sprintLow := 0 }).count Key.pwrSprints
    else s
  | 1 =>
    let n := if p ≤ cap then s.pm.sprintLow + 1 else 0
    let s := s.setPm { s.pm with sprintLow := n }
    if 100 ≤ n then s.closeSprint else s
  | _ => s

/-- The level at an evaluation: up by one beyond the cap or the limit, down by one at 64 consecutive low ones
(R849, R850). -/
def State.levelStep (s : State) (p : Nat) : State :=
  let cap := s.capNow
  let sk := s.skin
  let lim := toSigned 32 (s.rd (Key.profSkinLimit s.part))
  let lv := s.rd Key.thermLevel
  let high : Bool := decide (cap < p ∨ lim * sk.2 < sk.1)
  let low : Bool := decide (10 * p ≤ 9 * cap ∧ sk.1 ≤ (lim - 65536) * sk.2)
  let n := if low then s.pm.lowCount + 1 else 0
  let s := s.setPm { s.pm with lowCount := if 64 ≤ n then 0 else n }
  if high then
    if lv < 6 then ((s.wr Key.thermLevel (lv + 1)).count Key.thermRaises).updateVsel else s
  else if 64 ≤ n ∧ 0 < lv then (s.wr Key.thermLevel (lv - 1)).updateVsel
  else s

/-- One evaluation (R842): `pEval` in mW, `tDie` in 1/65536 degrees. -/
def powerEvaluation (pEval : Nat) (tDie : Int) (s : State) : State :=
  if ¬ s.coreOn ∨ ¬ s.running then s
  else
    let n := if s.rd Key.thermLevel = 6 then s.pm.evalsAt6 + 1 else s.pm.evalsAt6
    let s := (s.setPm { s.pm with evalsAt6 := n }).wrs
      [(Key.thermLastMs, min (n * 1000 / 1024) 0xFFFFFFFF), (Key.pwrEstMw, min pEval 0xFFFFFFFF)]
    let s := s.filter tDie
    let s := s.wr Key.thermSkinEst (ofSigned 32 (roundInt s.skin.1 s.skin.2))
    let s := (s.sprintStep pEval).levelStep pEval
    let s := if dieHot tDie then s.count Key.dieTempHigh else s
    s.levelCauses (dieHot tDie)

def execPowerEvaluation (pEval : Nat) (tDie : Int) (s : State) : Host.Outcome State Fault Refusal :=
  .next (powerEvaluation pEval tDie s)

/-- A board temperature from −40.0 to 125.0 °C (R848, R865). -/
def thermBoardWrite (v : Nat) (s : State) : Nat × State :=
  let t := toSigned 32 v
  if t < -40 * 65536 ∨ 125 * 65536 < t then (DS.range, s)
  else (DS.ok, (s.wr Key.thermBoardTemp v).setPm { s.pm with boardStale := false })

/-- THERM_BOARD_TIMEOUT passes without a write (R848). -/
def thermBoardStale (s : State) : State :=
  if s.pm.boardStale ∨ ¬ s.running then s
  else (s.setPm { s.pm with boardStale := true }).count Key.thermBoardStale

def execThermBoardStale (s : State) : Host.Outcome State Fault Refusal := .next (thermBoardStale s)

/-! ### Ends of sentinel frames (R803, R804, R822) -/

/-- A frame's samples close and its layers run (R803); a sleep entry may go on (R794). `pdmData`: PDM_DATA at every edge of
PDM_CLK in the frame, `rise` where the first of them is a rising one; channel 0 is captured at the rising edges, channel 1
at the falling ones (R95). -/
def sentFrameEnd (rise : Bool) (pdmData : List Bool) (settling : Bool) (s : State) : State :=
  if s.listening then (s.detectNow.sentFrame (risingBits rise pdmData) (fallingBits rise pdmData) settling).stepEntry else s

def execSentFrameEnd (rise : Bool) (pdmData : List Bool) (settling : Bool) (s : State) : Host.Outcome State Fault Refusal :=
  .next (sentFrameEnd rise pdmData settling s)

/-- A detection is recorded and its outputs raised (R822 to R825). -/
def sentDetection (s : State) : State := if s.sent.detect.isSome then s.detectNow.stepEntry else s

def execSentDetection (s : State) : Host.Outcome State Fault Refusal := .next (sentDetection s)

end Sys2Proof.Machine
end

