-- ==== Sys2Proof/Machine/Tenancy.lean ====
section
/-! DEFINITION. Ending a quire's work (06): draining and forced disable, quire reset and its zeroing, entries that resume
a wait. -/

namespace Sys2Proof.Machine

/-! ### Waits that end (R279, R281, R672, R700) -/

/-- A started entry goes on, when what it waits for has come. -/
def State.resumeOne (s : State) (q : QNum) (t4 : List Byte) (w : Started) : State :=
  match w.work with
  | .allocWait _ _ => s.endAllocWait q w
  | .copyWait => s.copyBody q w.entry t4 (fun s => s) fun s st res => s.finish q w.entry st 0 res
  | .fence all => if (s.quire q).fenceOpen w.entry all then s.finish q w.entry CS.ok else s
  | _ => s

/-- The started entries of a ring, its waiting loads, and a FREE or UNLOAD held in front of it (R279). -/
def waitResume (q : QNum) (r : RingNum) (t4 : List Byte) (s : State) : State :=
  if ¬ s.coreOn ∨ (s.quire q).state = .resetting then s
  else
    let s := ((s.quire q).started.filter fun w => w.entry.ring == r).foldl (fun s w => s.resumeOne q t4 w) s
    unload q r (free q r (s.resumeLoads q r))

def execWaitResume (q : QNum) (r : RingNum) (t4 : List Byte) (s : State) : Host.Outcome State Fault Refusal :=
  .next (waitResume q r t4 s)

/-! ### Q_DISABLE (R293, R301 to R303) -/

/-- Entries in fetch order. -/
def bySeq (l : List Entry) : List Entry :=
  l.foldl (fun acc e => acc.takeWhile (fun x => x.seq ≤ e.seq) ++ e :: acc.dropWhile (fun x => x.seq ≤ e.seq)) []

def Quire.fetchedEntries (x : Quire) : List Entry := bySeq (x.rings.toList.flatMap Ring.fetched)

/-- Every fetched entry leaves its ring's list. -/
def Quire.dropFetched (x : Quire) : Quire := { x with rings := x.rings.map fun r => { r with fetched := [] } }

/-- A WAKE still unanswered is withdrawn; the quire counts as released. -/
def Quire.cancelWake (x : Quire) : Quire := { x with wakePending := false, pwr := if x.wakePending then .release else x.pwr }

/-- ENDED_AS and COUNT of Q_DISABLE's result. -/
def State.disableDone (s : State) (q : QNum) (result endedAs count : Nat) : State :=
  s.cmdDone (Key.qDisable q) result (natLe 1 endedAs ++ natLe 1 0 ++ natLe 2 count)

/-- Q_DISABLE without FORCE starts the drain (R301). -/
def State.startDrain (s : State) (q : QNum) : State :=
  let x := s.quire q
  let waits := x.started.filter fun w => w.work.isStitchWait
  let loads := s.nv.loads.filter fun l => l.quire == q
  let fetched := x.fetchedEntries
  let s := (s.cmdStart (Key.qDisable q)).modQuire q fun x => { x.dropFetched.cancelWake with
    state := .draining, disabling := some { count := fetched.length + waits.length + loads.length } }
  let s := s.dropWaits fun _ h => h.quire == q && (match h.who with | .host _ _ => true | .bay _ => false)
  let s := fetched.foldl (fun s e => s.complete q e CS.drained) s
  let s := waits.foldl (fun s w => s.finish q w.entry CS.drained) s
  s.abandonLoads q CS.drained

/-- The last running work of a draining quire has ended (R301). -/
def drainEnd (q : QNum) (s : State) : State :=
  let x := s.quire q
  if x.state = .draining ∧ x.started = [] then
    let n := (x.disabling.map Disabling.count).getD 0
    let s := s.setQuire q { x with state := .disabled, disabling := none }
    (s.disableDone q DS.ok 1 n).msixSend (8 * q.val + 6)
  else s

def execDrainEnd (q : QNum) (s : State) : Host.Outcome State Fault Refusal := .next (drainEnd q s)

def Work.isTrain : Work → Bool
  | .train => true
  | _ => false

/-- The reservations of a quire's runs go to the zeroing engine (R938). -/
def State.dropReserves (s : State) (q : QNum) : State :=
  let l := (s.tiers.extents.filter fun e => e.use.isReserve q).map fun e => (e.place, e.first, e.count)
  if l = [] then s else s.zeroJob q true l

/-- One entry ends ABORTED: a load is abandoned, a claim of a waiting ALLOC dropped. -/
def State.abortEntry (s : State) (q : QNum) (e : Entry) : State :=
  match s.nv.loads.find? fun l => l.quire == q && l.entry.seq == e.seq with
  | some l => s.abandonLoad l CS.aborted
  | none => (s.dropClaim q e.seq).complete q e CS.aborted

/-- The requests of a quire's runs leave the bank-group queues. -/
def State.dropQueues (s : State) (q : QNum) : State :=
  s.setWeave { s.weave with queues := s.weave.queues.filter fun e => e.1 / 12 != q.val }

/-- The waits a quire holds on its own stitches end ABORTED: a bay's with its outcome; a host entry completes in fetch order
with the others (R302, R350). Its waits on other stitches end with what held them. -/
def State.abortOwnWaits (s : State) (q : QNum) : State :=
  let own := s.waitsOf q (s.stitchRange q)
  let s := s.dropWaits fun _ h => h.quire == q
  own.foldl (fun s h => match h.who with
    | .bay _ => s.endWait h .aborted 0
    | .host _ _ => s.countWait q .aborted) s

/-- Q_DISABLE with FORCE (R302): a running TRAIN_COMMIT goes on (R303); what the stopped runs had queued and pending goes
with them; a lending of slots stays (R417). -/
def State.forceStop (s : State) (q : QNum) : State :=
  let x := s.quire q
  let ends := bySeq (x.fetchedEntries ++ (x.started.filter fun w => !w.work.isTrain).map Started.entry)
  let s := ((s.endRuns q).stopQuire q).dropQueues q
  let s := s.abortOwnWaits q
  let s := s.modQuire q fun x => { x.dropFetched.cancelWake with state := .stopping }
  let s := ends.foldl (fun s e => s.abortEntry q e) s
  let s := s.setSt { s.st with aborts := s.st.aborts ++ [s.stitchRange q] }
  let s := s.dropReserves q
  let s := s.modQuire q fun x => { x with state := .disabled, started := x.started.filter fun w => w.work.isTrain }
  ((s.disableDone q DS.ok 2 ends.length).msixSend (8 * q.val + 6)).tryRelease q

/-- Q_DISABLE (R293). -/
def qDisableWrite (q : QNum) (arg : List Byte) (s : State) : Nat × State :=
  let a := fieldLe arg 0 1
  let st := (s.quire q).state
  if st = .disabled ∨ st = .frozen ∨ st = .resetting then (DS.state, s)
  else if 1 < a then (DS.range, s)
  else s.ifIdle (Key.qDisable q) fun s => if a = 1 then s.forceStop q else s.startDrain q

/-! ### Quire reset (R304 to R307, R351, R720, R930, R933) -/

/-- A mailbox returns to idle with its registers zero; the result of its pending request is discarded. -/
def State.dropMbox (s : State) (i : Fin 9) : State :=
  let s := { s with mboxes := s.mboxes.set i.val Mbox.reset i.isLt }
  s.setDict { s.dict with cold := s.dict.cold.map fun c => if c.2 = .mbox i then (c.1, .discard) else c }

/-- The quire's own waits vanish; its stitches pass the stage that releases the waits of others ABORTED, and take the default
state (R349, R351). `all`: every quire is reset at once, and the waits of each on another's stitches end there. -/
def State.releaseStitches (s : State) (q : QNum) (all : Bool := false) : State :=
  let r := s.stitchRange q
  let s := s.dropWaits fun n h => h.quire == q && (!all || inRange r n)
  (s.releaseStage r [r]).defaultStitches r

/-- The allocation returns to its default; empty where that overlaps a quire not reset with it (R933). -/
def State.defaultAlloc (s : State) (q : QNum) (all : Bool) : State :=
  let kb := Key.qStitchBase q
  let kc := Key.qStitchCount q
  let b := dfltVal s.sku kb
  let c := dfltVal s.sku kc
  let meets := allQ.any fun p => p != q &&
    decide ((s.stitchRange p).2 ≠ 0 ∧ (s.stitchRange p).1 < b + c ∧ b < (s.stitchRange p).1 + (s.stitchRange p).2)
  s.wrs [(kb, b), (kc, if meets ∧ ¬ all then 0 else c)]

/-- Leaves of the quire's allocations, UNIFIED ones once each. -/
def State.allocatedLeaves (s : State) (q : QNum) : Nat :=
  ((s.tiers.extents.filter fun e => e.use.isAlloc q).map Extent.count).sum + (s.quire q).unified.length

def Use.isHome (q : QNum) : Use → Bool
  | .home p => p == q
  | _ => false

def Use.isClaimOf (q : QNum) : Use → Bool
  | .allocWait p _ => p == q
  | _ => false

/-- Steps 1 and 2 of R304: the quire's activity stops, its entries and held completions go. The end of a Q_DISABLE run
raises vector 8q + 6 (R262). -/
def State.stopForReset (s : State) (q : QNum) : State :=
  let x := s.quire q
  if x.state = .resetting then s
  else
    let s := ((s.endRuns q).stopQuire q).endLending q
    let s := if x.disabling.isSome then
        (s.disableDone q DS.state 4 ((x.disabling.map Disabling.count).getD 0)).msixSend (8 * q.val + 6)
      else s
    let s := ((s.abortRuns q).stopLoads q).stopTrain q
    let s := if q = 7 then s.sentAbandon else s
    s.modQuire q fun x => { x.dropFetched.cancelWake with
      state := .resetting, started := [], heldCq := [], disabling := none, hints := [] }

/-- Steps 3 and 4 of R304, and the start of the zeroing of a quire that stopped for the reset. -/
def State.releaseForReset (s : State) (q : QNum) (all : Bool) : State :=
  let s := ((s.releaseStitches q all).defaultAlloc q all).dropHandles q
  let s := (s.dropMbox (Fin.castSucc q)).dropQueues q
  let n := s.allocatedLeaves q
  let s := s.setTiers { s.tiers with extents := s.tiers.extents.filter fun e => !e.use.isClaimOf q }
  let l := (s.tiers.extents.filter fun e => e.use.isAlloc q || e.use.isHome q || e.use.isReserve q).map
    fun e => (e.place, e.first, e.count)
  (s.modQuire q fun x => { x with unified := [] }).zeroJob q false l (.reset q n)

/-- Steps 1 to 4 of R304 and the start of the zeroing; a reset that runs already goes on. -/
def State.resetQuire (s : State) (q : QNum) : State :=
  if (s.quire q).state = .resetting then s else (s.stopForReset q).releaseForReset q false

/-- Q_RESET starts. -/
def qResetWrite (q : QNum) (s : State) : Nat × State :=
  if (s.quire q).state = .resetting then (DS.busy, s)
  else s.ifIdle (Key.qReset q) fun s => (s.cmdStart (Key.qReset q)).resetQuire q

/-- Quotas of a quire from the loaded profile; a refused quire has no T2 (R216, R907). -/
def State.loadQuotas (s : State) (q : QNum) : State :=
  let n := q.val + 1
  s.wrs [(Key.qQuota q 1, s.rd (Key.profQuotaT1 s.part n)),
    (Key.qQuota q 2, if bit (s.rd Key.diagT2Refused) q.val then 0 else s.rd (Key.profQuotaT2 s.part n)),
    (Key.qQuota q 3, s.rd (Key.profQuotaT3 s.part n)), (Key.qQuota q 4, s.rd (Key.profWindowT4 s.part n))]

/-- The index lies in the quire's block. -/
def inBlock (q : QNum) (idx : Nat) : Bool := decide (0x2000 + q.val * 0x100 ≤ idx ∧ idx < 0x2100 + q.val * 0x100)

def isV (sku : Sku) (k : Nat) : Bool :=
  match cardOf sku (k / 256) (k % 256) with
  | some c => c.cls == .v
  | none => true

/-- The quire's V entries return to their defaults, its staged copies are discarded; the stitch allocation and the result
blocks of Q_RESET and Q_DISABLE stay (R304, R930, R933). -/
def State.clearBlock (s : State) (q : QNum) : State :=
  let d := s.dict
  s.setDict { d with
    vals := d.vals.filter fun e => !(inBlock q (e.1 / 256) && isV s.sku e.1 && e.1 != Key.qStitchBase q &&
      e.1 != Key.qStitchCount q),
    staged := d.staged.filter fun e => !inBlock q (e.1 / 256),
    sets := d.sets.filter fun e => !inBlock q e.1,
    cmds := d.cmds.filter fun e => !(inBlock q (e.1 / 256) && e.1 != Key.qReset q && e.1 != Key.qDisable q) }

/-- Steps 5 to 7 of R304; T0 leaves of the quire in a bay that a switch has given to another since are zeroed too. A reset
ends in DISABLED; the sentinel listens again (R798). The bays count as released, and
a retest asked for starts (20). -/
def State.finishReset (s : State) (q : QNum) (leaves : Nat) : State :=
  let s := s.setTiers { s.tiers with rings := Mem.clear s.tiers.rings (q.val * ringBytes) ringBytes }
  let s := s.forB fun s b =>
    if (s.quireBays q).contains b ∨ ((s.bay b).t0Of = some q ∧ (s.bay b).seq.run = none) then
      s.modBay b fun x => { x with t0 := [], t0Of := none, slots := [], moves := [] }
    else s
  let s := (s.gateBays q).clearBlock q
  let s := s.modQuire q fun x => { Quire.reset with nextRun := x.nextRun }
  let s := s.loadQuotas q
  let s := if s.cmdRunning (Key.qReset q) then s.cmdDone (Key.qReset q) DS.ok (natLe 4 leaves) else s
  if q = 7 then s.tryListen else s

/-- Every quire is reset at once, as PERST_N and FLR do (R220): all stop, then their stitches are released together and the
allocations return to their defaults together (R351, R933). A quire whose reset runs already has nothing else left to give
up. -/
def State.resetQuires (s : State) : State :=
  let was := fun (q : QNum) => (s.quire q).state == .resetting
  let t := s.forQ State.stopForReset
  t.forQ fun t q => if was q then t.defaultAlloc q true else t.releaseForReset q true

end Sys2Proof.Machine
end

