-- ==== Sys2Proof/Machine/Security.lean ====
section
/-! DEFINITION. Keys, lifecycle and debug (19): lifecycle transitions and the RMA scrub, class keys, anti-rollback, debug
unlock; the end of a zeroing job, which an RMA scrub may be. -/

namespace Sys2Proof.Machine

/-! ### The RMA scrub (R872 to R874) -/

/-- Every library entry goes, without regard to holders; sessions close (R872 steps 2 and 3). -/
def State.emptyLibrary (s : State) : State :=
  let s := allE.foldl (fun s e => s.emptyEntry e) s
  s.setNv { s.nv with sessions := [], loads := [], moves := [] }

/-- Every free-dirty and in-use block of the main array is erased (R872 step 4). -/
def State.eraseMainAll (s : State) : State :=
  s.setNv { s.nv with
    blocks := s.nv.blocks.map fun b => match b.2.state with
      | .freeDirty => (b.1, { state := .freeErased, cycles := b.2.cycles + 1 })
      | .inUse => (b.1, { state := .freeErased, cycles := b.2.cycles + 1 })
      | _ => b,
    dirty := [], bands := [], main := [], units := [] }

/-- Class keys and link masks are written empty, records of the parameter region (R872 step 5). -/
def State.emptyKeys (s : State) : State :=
  let s := [1, 2, 3, 4].foldl (fun s n =>
    (if (Tab.find s.sec.classKeys n).isSome then s.paramRecord (Key.classKey n) 0 else s).wr (Key.classId n) 0) s
  allE.foldl (fun s e => s.wrStored (Key.libLinkMask (e + 1)) 0) { s with sec := { s.sec with classKeys := [] } }

def State.scrubbed (s : State) (n : Nat) : State := { s with sec := { s.sec with scrub := some n } }

/-- Steps 2 to 5 of the scrub, those up to `done` excepted. -/
def State.scrubNv (s : State) (done : Nat) : State :=
  let s := if done < 3 then s.emptyLibrary else s
  let s := if done < 4 then s.eraseMainAll else s
  (if done < 5 then s.emptyKeys else s).scrubbed 5

/-- Every leaf of T1 and T2 is zeroed (R872 step 6). -/
def State.zeroAllTiers (s : State) : State :=
  s.setTiers { s.tiers with slices := Vector.replicate 8 [], commons := [], t2 := [], xo := [], pool := [] }

/-! ### Ends of zeroing jobs (R306) -/

/-- An LC_TRANSITION run completes; the device reset follows (R870). -/
def State.endTransition (s : State) (fromState toState : Nat) : State :=
  let s := { s with sec := { s.sec with lcHeld := none } }
  let s := s.cmdDone Key.lcTransition DS.ok (natLe 1 fromState ++ natLe 1 toState)
  s.setNv { s.nv with boot := { s.nv.boot with resetDue := some LR.deviceReset } }

/-- The zeroing engine finishes its oldest job (R306): a quire reset or an RMA scrub may end with it. -/
def zeroingJobDone (s : State) : State :=
  match s.tiers.jobs with
  | [] => s
  | j :: t =>
    if ¬ s.coreOn then s
    else
      let s := j.extents.foldl State.zeroExtent s
      let s := s.setTiers { s.tiers with jobs := t }
      match j.purpose with
      | .reset q n => s.finishReset q n
      | .release => s
      | .scrub => (s.zeroAllTiers.scrubbed 7).endTransition (s.sec.lcHeld.getD lcRma) lcRma

def execZeroingJobDone (s : State) : Host.Outcome State Fault Refusal := .next (zeroingJobDone s)

/-! ### LC_TRANSITION (R868 to R871) -/

/-- LC_RMA_SCRUB as it reads (R894). -/
def State.scrubNow (s : State) : Nat :=
  match s.sec.scrub with
  | none => 0
  | some n => if n = 7 then 2 else 1

/-- Draw and program DEVICE_SEED: fresh bits are ORed over what the field holds (R871). -/
def State.programSeed (s : State) (entropy : Nat) : State :=
  (List.range 4).foldl (fun s i => s.otpOr (0x60 + 8 * i) (entropy / 2 ^ (64 * i) % 2 ^ 64)) s

/-- A root slot is PROGRAMMED and not REVOKED (R868). -/
def State.rootReady (s : State) : Bool := (List.range 4).any fun n => s.otpByte (0x140 + n) % 4 == 1

/-- A transition that the table of R868 lists with its conditions held. -/
def State.transitionOk (s : State) (target : Nat) : Bool :=
  match s.lc, target with
  | 0, 1 => s.serial != 0 && s.otpByte 0x55 != 0
  | 1, 2 => s.rootReady
  | 1, 3 => true
  | 2, 3 => true
  | _, _ => false

/-- LC_TRANSITION. HOST-P has no right to the transition out of BLANK (R868). A wrong CONFIRM is RANGE; with a correct one,
STATE comes before the RANGE of the reserved bytes (R869, R135). -/
def lcTransitionWrite (factory : Bool) (arg : List Byte) (env : Env) (s : State) : Nat × State :=
  let target := fieldLe arg 0 1
  let from_ := s.lc
  if ¬ factory ∧ from_ = lcBlank ∧ target = lcProvisioned then (DS.role, s)
  else if fieldLe arg 4 4 ≠ 0x4C437019 then (DS.range, s)
  else if ¬ s.transitionOk target then (DS.state, s)
  else if fieldLe arg 1 3 ≠ 0 then (DS.range, s)
  else s.ifIdle Key.lcTransition fun s =>
    if target = lcProvisioned then ((s.programSeed env.entropy).otpOr 0x160 1).endTransition from_ target
    else if target = lcField then (s.otpOr 0x160 2).endTransition from_ target
    else
      let s := (s.cmdStart Key.lcTransition).otpOr 0x160 4
      let s := { s with sec := { s.sec with lcHeld := some from_ } }
      let s := s.resetQuires.scrubNv 0
      s.setTiers { s.tiers with jobs := s.tiers.jobs ++ [{ extents := [], purpose := .scrub }] }

/-! ### Class keys (R879, R880) -/

/-- CLASS_KEY sub `n`: CLASS_ID and the key. -/
def classKeyWrite (n : Nat) (val : List Byte) (s : State) : Nat × State :=
  let id := fieldLe val 0 4
  if s.lc ≠ lcProvisioned then (DS.state, s)
  else if id = 0 ∨ [1, 2, 3, 4].any (fun m => m != n && s.rd (Key.classId m) == id) then (DS.range, s)
  else
    let v := leNat (val.take 36)
    if Tab.get s.sec.classKeys 0 n = v then (DS.ok, s)
    else if s.paramFull then (DS.state, s)
    else
      let s := (s.paramRecord (Key.classKey n) v).wr (Key.classId n) id
      (DS.ok, { s with sec := { s.sec with classKeys := Tab.set s.sec.classKeys 0 n v } })

/-! ### ARB_ADVANCE (R885) -/

/-- ARB_EPOCH of the running image. -/
def State.runningEpoch (s : State) : Nat :=
  slotEpoch (if s.rd Key.bootSlot = 1 then s.nv.boot.slotB else s.nv.boot.slotA)

def arbAdvanceWrite (arg : List Byte) (s : State) : Nat × State :=
  let which := fieldLe arg 0 1
  let v := fieldLe arg 1 1
  let cur := if which = 0 then s.arbFirmware else s.arbSlipcase
  if s.lc = lcBlank ∨ s.lc = lcRma then (DS.state, s)
  else if 1 < which ∨ fieldLe arg 2 2 ≠ 0 ∨ v ≤ cur ∨ 64 < v ∨ (which = 0 ∧ s.runningEpoch < v) then (DS.range, s)
  else s.ifIdle Key.arbAdvance fun s =>
    (s.otpOr (if which = 0 then 0x150 else 0x158) (2 ^ v - 2 ^ cur)).cmdDone Key.arbAdvance DS.ok []

/-! ### Debug (R889 to R892) -/

/-- DEBUG_STATE as it reads: LOCKED, OPEN or UNLOCKED (R889). -/
def State.debugNow (s : State) : Nat :=
  if s.lc = lcBlank then 1 else if s.lc = lcRma ∧ s.rd Key.debugState = 2 then 2 else 0

/-- DEBUG_CHALLENGE: nonce, SERIAL, 8 reserved bytes (R890). -/
def State.challenge (s : State) : Nat := s.sec.nonce % 2 ^ 384 + s.serial * 2 ^ 384

/-- The argument's PUBKEY is the RMA debug key, and its SIG signs the challenge as it stands (R891). -/
def State.debugSigned (s : State) (arg : List Byte) : Bool :=
  let pub := bytesAt arg 0 96
  leNat (sha384 pub) == s.nv.kxDebug && ecdsaOk pub (sha384 (natLe 64 s.challenge)) (bytesAt arg 96 96)

/-- DEBUG_UNLOCK; fresh entropy is the next nonce (R890 to R892). -/
def debugUnlockWrite (arg : List Byte) (env : Env) (s : State) : Nat × State :=
  if 8 ≤ s.rd Key.debugUnlockFails then (DS.locked, s)
  else if s.lc ≠ lcRma then (DS.state, s)
  else s.ifIdle Key.debugUnlock fun s =>
    let ok := s.debugSigned arg
    let s := { s with sec := { s.sec with nonce := env.entropy % 2 ^ 384 } }
    if ok then (s.wr Key.debugState 2).cmdDone Key.debugUnlock DS.ok []
    else (s.count Key.debugUnlockFails).cmdDone Key.debugUnlock DS.range []

end Sys2Proof.Machine
end

