-- ==== Sys2Proof/Machine/Watchdog.lean ====
section
/-! DEFINITION. Alert causes and the watchdog (20), and the time-driven ends that need no reset. -/

namespace Sys2Proof.Machine

/-- ALERT_CLEAR clears the cause bits of the value; [31:14] are reserved (R911). -/
def alertClearWrite (v : Nat) (s : State) : Nat × State :=
  if 2 ^ 14 ≤ v then (DS.range, s)
  else
    let c := s.rd Key.alertCause
    (DS.ok, s.wr Key.alertCause (c - (c &&& v)))

/-! ### The watchdog (R913 to R920) -/

def State.asleep (s : State) : Bool := s.running && !s.coreOn

/-- The host timer and the grace hold their counts (R914, R918). -/
def State.wdtPaused (s : State) : Bool := s.asleep && s.rdB Key.wdtSleepPause

/-- The first expiry enters stage 1; a second one changes nothing but what must be serviced (R916, R919). An expiry is the
one alarm of the real-time counter that the manual describes: it starts the quick oscillator (R78, log entry 84). -/
def State.wdtExpire (s : State) (cause : Nat) : State :=
  if s.rd Key.wdtState = 1 then s
  else
    let s := s.wrs [(Key.wdtState, 1), (Key.wdtCause, cause)]
    let s := s.setClk { s.clk with quickOsc := true }
    let s := ((s.alert AL.wdtStage1).count Key.wdtStage1Count).ibiDue 3 cause
    let l := s.rd Key.pcieLinkState
    if s.coreOn ∧ s.rd Key.wdtVector ≠ 0xFF ∧ (l = linkL0 ∨ l = linkL1) then s.msixSend (s.rd Key.wdtVector) else s

/-- The host timer expires (R914, R916). A service that arrived in the same slow tick counts before the expiry, and no
stage 1 occurs (R920). -/
def hostTimerExpiry (s : State) : State :=
  if ¬ s.running ∨ s.rd Key.wdtPeriodMs = 0 ∨ s.wdtPaused ∨ s.wdt.hostExpired ∨ s.wdt.hostServed then s
  else ({ s with wdt := { s.wdt with hostExpired := true } } : State).wdtExpire 1

def execHostTimerExpiry (s : State) : Host.Outcome State Fault Refusal := .next (hostTimerExpiry s)

/-- The firmware timer expires while the core domain is powered (R913, R916), unless it was serviced in the same slow tick
(R920). -/
def fwTimerExpiry (s : State) : State :=
  if ¬ s.running ∨ ¬ s.coreOn ∨ s.wdt.fwExpired ∨ s.wdt.fwServed then s
  else ({ s with wdt := { s.wdt with fwExpired := true } } : State).wdtExpire 2

def execFwTimerExpiry (s : State) : Host.Outcome State Fault Refusal := .next (fwTimerExpiry s)

/-- Stage 1 ends once every expired timer is serviced (R917, R919). -/
def State.wdtRearm (s : State) : State :=
  if s.wdt.hostExpired ∨ s.wdt.fwExpired then s else s.wr Key.wdtState 0

/-- WDT_SERVICE services the host timer (R915, R917). -/
def wdtServiceWrite (v : Nat) (s : State) : Nat × State :=
  if v ≠ 0x57D00019 then (DS.range, s)
  else (DS.ok, ({ s with wdt := { s.wdt with hostExpired := false, hostServed := true } } : State).wdtRearm)

/-- The firmware services its timer (R913). -/
def State.fwServices (s : State) : State := ({ s with wdt := { s.wdt with fwExpired := false, fwServed := true } } : State).wdtRearm

/-- WDT_PERIOD_MS: 0, or 100 to 60,000; the host timer starts afresh (R914, R922). -/
def wdtPeriodWrite (v : Nat) (s : State) : Nat × State :=
  if v ≠ 0 ∧ (v < 100 ∨ 60000 < v) then (DS.range, s)
  else (DS.ok, ({ s with wdt := { s.wdt with hostServed := true } } : State).wr Key.wdtPeriodMs v)

/-! ### Uncorrectable words of the retention SRAM (R899) -/

/-- The affected A entry reads its default. -/
def State.retentionError (s : State) (k : Nat) : State :=
  match cardOf s.sku (k / 256) (k % 256) with
  | some c =>
    if c.cls = .a then (((s.wr k (dfltVal s.sku k)).count Key.sramUncorr).alert AL.sramUncorr) else s
  | none => s

/-- The detector bank reads as disarmed. -/
def State.detectorError (s : State) : State :=
  let s := s.setSent { Sentinel.reset with settling := s.sent.settling }
  let s := s.wrs [(Key.sentState, 0), (Key.sentEntry, 0xFF), (Key.sentFrameCycles, 0), (Key.sentFrameMs, 0)]
  (s.count Key.sramUncorr).alert AL.sramUncorr

/-! ### Oscillators (R77 to R81, R85) -/

/-- The crystal oscillator runs; in S-RET the low oscillator is no longer needed (R60, R81). -/
def crystalStart (s : State) : State :=
  if ¬ s.pins.aonUp then s
  else s.setClk { s.clk with crystal := true, lowOsc := s.clk.lowOsc && s.power != .sRet }

def execCrystalStart (s : State) : Host.Outcome State Fault Refusal := .next (crystalStart s)

/-- A wake demand that is not served, or a wake held for CLKIN_38M4 (R78, R86). -/
def State.oscDemand (s : State) : Bool := s.pm.demand || s.clk.clkWait

/-- Without demand for 100 µs the quick oscillator stops, unless the core domain is powered (R79). -/
def quickOscStop (s : State) : State :=
  if s.coreOn ∨ s.oscDemand then s else s.setClk { s.clk with quickOsc := false }

def execQuickOscStop (s : State) : Host.Outcome State Fault Refusal := .next (quickOscStop s)

/-- A wake held for CLKIN_38M4 goes on at its PLL: the controller's, then each waking quire's (R86, R93). -/
def State.resumeWakes (s : State) : State :=
  if ¬ s.clk.clkWait then s
  else
    let s := s.setClk { s.clk with clkWait := false }
    let s := if s.pm.waking then s.startPlls else s
    s.forQ fun s q =>
      if (s.quire q).wakePending ∧ s.switch.isNone ∧ ¬ s.refusesWake q then s.powerBays q else s

/-- CLKIN_38M4 carries 64 good edges: it counts as detected where the Q19 observes the ball, and a wake held for it goes
on at its next step (R85, R86). -/
def State.detectClkin (s : State) : State :=
  let s := s.setPins { s.pins with clkin := true }
  if s.clkinSeen then s.resumeWakes else s

/-- CLKIN_38M4 stops. In S-IDLE or S-RUN, outside reset, the PLLs stop, the event is counted and alerted, and running work
is not resumed (02, R909); a controller's wake under way is held (R86). Elsewhere the ball is ignored (R47, R49). -/
def clkinLost (s : State) : State :=
  let seen := s.clkinSeen && s.running
  let s := s.setPins { s.pins with clkin := false }
  if seen then
    let s := s.setClk { s.clk with bayPll := false, nvPll := false, lpddrPll := false }
    let s := s.forB fun s b => s.modBay b fun x => if x.power = .running then { x with power := .gated } else x
    let s := (s.fixPower.count Key.clkinLosses).alert AL.clkin
    if s.pm.waking then s.holdWake else s
  else s

def execClkinLost (s : State) : Host.Outcome State Fault Refusal := .next (clkinLost s)

end Sys2Proof.Machine
end

