-- ==== Sys2Proof/Machine/Balls.lean ====
section
/-! DEFINITION. The signal balls (02): what the Q19 drives on each in every state, the microphone clock and its data, and
the JTAG test access port that can govern them. -/

namespace Sys2Proof.Machine

/-! ### The balls (R47 to R49, R104) -/

/-- The signal balls of R47; the two lanes of a pair count as one. -/
inductive Ball where
  | pcieTx0
  | pcieTx1
  | pcieRx0
  | pcieRx1
  | pcieRefclk
  | perstN
  | clkreqN
  | wakeN
  | i3cScl
  | i3cSda
  | alertN
  | wakeOut
  | pdmClk
  | pdmData
  | xt32
  | clkin38m4
  | profsel0
  | profsel1
  | resetN
  | bootsel
  | vsel0
  | vsel1
  | vsel2
  | pgoodIn
  | thermN
  | tck
  | tms
  | tdi
  | tdo
  | trstN
  | testen
  deriving DecidableEq, Repr

/-- What the Q19 does at a ball. -/
inductive Drive where
  /-- not driven: an open-drain ball released, a tri-state output at high impedance -/
  | released
  | low
  | high
  | electricalIdle
  /-- a transmitter, a clock or an oscillator runs -/
  | active
  /-- an input that takes effect -/
  | honoured
  /-- an input without effect -/
  | ignored
  deriving DecidableEq, Repr

/-- "State in reset" of R47. -/
def Ball.inReset : Ball → Drive
  | .pcieTx0 => .electricalIdle
  | .pcieTx1 => .electricalIdle
  | .pcieRx0 => .ignored
  | .pcieRx1 => .ignored
  | .pcieRefclk => .ignored
  | .perstN => .honoured
  | .clkreqN => .released
  | .wakeN => .released
  | .i3cScl => .ignored
  | .i3cSda => .released
  | .alertN => .released
  | .wakeOut => .low
  | .pdmClk => .low
  | .pdmData => .ignored
  | .xt32 => .active
  | .clkin38m4 => .ignored
  | .profsel0 => .ignored
  | .profsel1 => .ignored
  | .resetN => .honoured
  | .bootsel => .ignored
  | .vsel0 => .low
  | .vsel1 => .low
  | .vsel2 => .low
  | .pgoodIn => .honoured
  | .thermN => .released
  | .tck => .honoured
  | .tms => .honoured
  | .tdi => .honoured
  | .tdo => .released
  | .trstN => .honoured
  | .testen => .honoured

/-- The balls of the core domain that are no JTAG balls (R49). -/
def Ball.ofCore : Ball → Bool
  | .pcieTx0 => true
  | .pcieTx1 => true
  | .pcieRx0 => true
  | .pcieRx1 => true
  | .pcieRefclk => true
  | .clkin38m4 => true
  | _ => false

/-- An output that is driven high or low. -/
def levelOf (b : Bool) : Drive := if b then .high else .low

/-- An open-drain output that is driven low or released. -/
def openDrain (driven : Bool) : Drive := if driven then .low else .released

/-- The PCIe lanes carry symbols: the link trains or is in L0. In S-RET and S-SENT that takes the PHY that an exit from L1
powered (R204, log entry 84). -/
def State.lanesRun (s : State) : Bool :=
  s.rd Key.pcieLinkState == linkTrainingCode || s.rd Key.pcieLinkState == linkL0

/-- TDO is driven in Shift-DR and Shift-IR alone (R47). -/
def State.tdoDriven (s : State) : Bool := s.jtag.tap == .shiftDr || s.jtag.tap == .shiftIr

/-- What a running Q19 does at a ball. PROFSEL and BOOTSEL are looked at at the reset's release alone; I3C_SDA is driven
inside a transfer, which is one command here. -/
def State.ballNormal (s : State) : Ball → Drive
  | .pcieTx0 => if s.lanesRun then .active else .electricalIdle
  | .pcieTx1 => if s.lanesRun && s.rd Key.pcieLinkWidth != 1 then .active else .electricalIdle
  | .pcieRx0 => .honoured
  | .pcieRx1 => .honoured
  | .pcieRefclk => .honoured
  | .perstN => .honoured
  | .clkreqN => openDrain (!s.fn.clkreqReleased)
  | .wakeN => openDrain s.pins.wakeN
  | .i3cScl => .honoured
  | .i3cSda => .released
  | .alertN => openDrain s.alertN
  | .wakeOut => levelOf s.pins.wakeOut
  | .pdmClk => if s.pdmClk = .low then .low else .active
  | .pdmData => if s.pdmClk = .low then .ignored else .honoured
  | .xt32 => .active
  | .clkin38m4 => .honoured
  | .profsel0 => .ignored
  | .profsel1 => .ignored
  | .resetN => .honoured
  | .bootsel => .ignored
  | .vsel0 => levelOf (bit (s.rd Key.pwrVsel) 0)
  | .vsel1 => levelOf (bit (s.rd Key.pwrVsel) 1)
  | .vsel2 => levelOf (bit (s.rd Key.pwrVsel) 2)
  | .pgoodIn => .honoured
  | .thermN => openDrain s.thermN
  | .tck => .honoured
  | .tms => .honoured
  | .tdi => .honoured
  | .tdo => if s.tdoDriven then .active else .released
  | .trstN => .honoured
  | .testen => .honoured

/-- The balls with a boundary-scan cell, in the order of R47's table: every single-ended signal ball but the crystal's,
CLKIN_38M4 and the JTAG balls (R100). The order and one cell a ball are the model's (log entry 85). -/
def cellBalls : List Ball :=
  [.perstN, .clkreqN, .wakeN, .i3cScl, .i3cSda, .alertN, .wakeOut, .pdmClk, .pdmData, .profsel0, .profsel1, .resetN,
   .bootsel, .vsel0, .vsel1, .vsel2, .pgoodIn, .thermN, .testen]

/-- The direction of R47: a ball of the boundary-scan register the Q19 can drive, and whether only low. -/
def Ball.output : Ball → Option Bool
  | .clkreqN => some true
  | .wakeN => some true
  | .i3cSda => some true
  | .alertN => some true
  | .thermN => some true
  | .wakeOut => some false
  | .pdmClk => some false
  | .vsel0 => some false
  | .vsel1 => some false
  | .vsel2 => some false
  | _ => none

/-- A ball under EXTEST or CLAMP: an output takes its cell's level, an open-drain one is driven low by a cell of 0
(R104). -/
def cellDrive (b : Ball) (cell : Bool) : Option Drive :=
  match b.output with
  | some true => some (openDrain !cell)
  | some false => some (levelOf cell)
  | none => none

/-- What the Q19 does at a ball (R47 to R49, R104): the boundary-scan cells govern under EXTEST and CLAMP, HIGHZ releases
every output that has a cell; else the reset state where the device is held in reset or has no power, and for the core
domain's balls in S-RET and S-SENT but for the lanes and their clock that a link out of L1.2 needs (R204). -/
def State.ball (s : State) (b : Ball) : Drive :=
  let cell := cellBalls.idxOf b
  let governed : Option Drive :=
    if cell < cellBalls.length ∧ b.output.isSome then
      if s.jtag.ir = 4 then some .released
      else if s.jtag.ir = 0 ∨ s.jtag.ir = 5 then cellDrive b (s.jtag.cells.getD cell false)
      else none
    else none
  match governed with
  | some d => d
  | none =>
    if s.heldInReset ∨ s.power = .sOff then (if b = .tdo then s.ballNormal b else b.inReset)
    else if b.ofCore ∧ ¬ s.coreOn ∧ (b = .clkin38m4 ∨ ¬ s.lanesRun) then b.inReset
    else s.ballNormal b

/-! ### The TAP (R100 to R104; log entry 85) -/

/-- One TCK edge of the IEEE 1149.1 controller with TMS at `tms`. -/
def TapState.next : TapState → Bool → TapState
  | .testLogicReset, m => if m then .testLogicReset else .runTestIdle
  | .runTestIdle, m => if m then .selectDr else .runTestIdle
  | .selectDr, m => if m then .selectIr else .captureDr
  | .captureDr, m => if m then .exit1Dr else .shiftDr
  | .shiftDr, m => if m then .exit1Dr else .shiftDr
  | .exit1Dr, m => if m then .updateDr else .pauseDr
  | .pauseDr, m => if m then .exit2Dr else .pauseDr
  | .exit2Dr, m => if m then .updateDr else .shiftDr
  | .updateDr, m => if m then .selectDr else .runTestIdle
  | .selectIr, m => if m then .testLogicReset else .captureIr
  | .captureIr, m => if m then .exit1Ir else .shiftIr
  | .shiftIr, m => if m then .exit1Ir else .shiftIr
  | .exit1Ir, m => if m then .updateIr else .pauseIr
  | .pauseIr, m => if m then .exit2Ir else .pauseIr
  | .exit2Ir, m => if m then .updateIr else .shiftIr
  | .updateIr, m => if m then .selectDr else .runTestIdle

/-- The controller through a run of TCK edges. -/
def TapState.walk (t : TapState) (tms : List Bool) : TapState := tms.foldl TapState.next t

/-- TMS of an instruction load from Test-Logic-Reset or Run-Test/Idle: six bits through Shift-IR, Update-IR, Run-Test/Idle. -/
def irPath : List Bool :=
  [false, true, true, false, false] ++ List.replicate 5 false ++ [true, true, false]

/-- TMS of a data scan of `n` bits, back to Run-Test/Idle. -/
def drPath (n : Nat) : List Bool := [true, false, false] ++ List.replicate (n - 1) false ++ [true, true, false]

/-- One TCK edge in Shift-DR: the register's first bit leaves on TDO, TDI enters behind the last. -/
def shiftDr (p : List Bool × List Bool) (tdi : Bool) : List Bool × List Bool := (p.1.tail ++ [tdi], p.2 ++ p.1.take 1)

/-- A data scan: the captured register shifted by the bits of TDI. The register then holds the last bits in; TDO gave the
captured ones. -/
def scanDr (captured tdi : List Bool) : List Bool × List Bool := tdi.foldl shiftDr (captured, [])

/-- Cells of a preload: one per ball of `cellBalls`, 0 where fewer bits came. -/
def cellsOf (l : List Bool) : List Bool := (List.range cellBalls.length).map fun n => l.getD n false

/-- The level of a ball: driven by the Q19, held by the board at the inputs the state knows, else as the board has it. -/
def State.ballLevel (s : State) (b : Ball) (board : Bool) : Bool :=
  match b with
  | .perstN => s.pins.perstN
  | .resetN => s.pins.resetN
  | .pgoodIn => s.pins.pgood
  | .testen => s.pins.testen
  | _ => match s.ball b with
    | .low => false
    | .high => true
    | _ => board

/-- What SAMPLE captures: the levels at the balls that have cells; `board` gives the level of each ball that nothing in the
Q19 determines. -/
def State.sampled (s : State) (board : List Bool) : List Bool :=
  (List.range cellBalls.length).map fun n => s.ballLevel (cellBalls.getD n .testen) (board.getD n true)

end Sys2Proof.Machine
end

