-- ==== Sys2Proof/Machine/Resets.lean ====
section
/-! DEFINITION. What each reset reaches (02, 05): the device reset and its triggers, power-on and power loss, PERST_N and
FLR, the JTAG port, the slow tick, the end of the management controller's wake. Boot itself stands in Boot. -/

namespace Sys2Proof.Machine

/-! ### The device reset (R220, R221, R618) -/

/-- Entries that count the parameter region itself: sectors usable and erased, the highest erase count (R643 to R646; log
entry 19). What they count is in the region, and boot finds it again. -/
def isParamBook (k : Nat) : Bool := k == Key.paramUsable || k == Key.paramErased || k == Key.paramCyclesMax

/-- Entries a device reset leaves: those of class S and F (R126, R220). -/
def keptByReset (sku : Sku) (k : Nat) : Bool :=
  match cardOf sku (k / 256) (k % 256) with
  | some c => c.cls == .s || c.cls == .f || isParamBook k
  | none => false

/-- The weight store and its books through a reset that reaches the management plane: the ring, loads, sessions, claims
the staged image and the record of over-rated bands are lost (R634), the journal and what is stored stay. Only the
reset of a recovery load itself samples no strap (R240). -/
def Nv.afterReset (n : Nv) (cause : Nat) : Nv :=
  { n with
    loads := [], sessions := [], nextSession := 1, press := [], nextOp := 0, units := [], claims := [], fwStage := [],
    bands := Tab.mapVals Band.fresh (fun b => { b with overRated := false }) n.bands,
    boot := { n.boot with
      resetDue := none, lastReset := cause, skipBootsel := n.boot.skipBootsel && cause == LR.recovery } }

/-- The security state through a reset: stored keys, the scrub record and failed channels stay. -/
def Security.afterReset (x : Security) : Security :=
  { Security.reset with classKeys := x.classKeys, scrub := x.scrub, chanBad0 := x.chanBad0, chanBad1 := x.chanBad1 }

/-- The reset state of a part that keeps its stored contents, its pins and what stands outside the reset. -/
def State.restart (s : State) (cause : Nat) : State :=
  let kept := s.dict.vals.filter fun e => keptByReset s.sku e.1
  let sampled := Tab.put kept Key.profselSampled
    (if cause = LR.recovery then Tab.find s.dict.vals Key.profselSampled else none)
  { State.reset with
    sku := s.sku, boot := .waiting,
    pins := { s.pins with wakeOut := false, wakeN := false },
    clk := { State.reset.clk with crystal := s.clk.crystal },
    jtag := s.jtag,
    dict := { State.reset.dict with vals := sampled },
    nv := s.nv.afterReset cause, sec := s.sec.afterReset,
    rtc := s.rtc, freeCtr := s.freeCtr, out := s.out, pending := s.pending }

/-- The device reset, for any trigger of R220: everything but NV contents, installed slipcases, S and F entries and OTP.
A device without power has nothing to reset. -/
def State.deviceReset (s : State) (cause : Nat) : State :=
  match s.power with
  | .sOff => s
  | _ => s.restart cause

/-- RESET_N is held low for 10 µs or more (R52). -/
def resetNAssert (s : State) : State :=
  let t := if s.pins.resetN then s.deviceReset LR.resetN else s
  t.setPins { t.pins with resetN := false }

def execResetNAssert (s : State) : Host.Outcome State Fault Refusal := .next (resetNAssert s)

def resetNRelease (s : State) : State := s.setPins { s.pins with resetN := true }

def execResetNRelease (s : State) : Host.Outcome State Fault Refusal := .next (resetNRelease s)

/-- PGOOD_IN falls while VDD_AON stays up: as RESET_N low (R65). -/
def pgoodInFall (s : State) : State :=
  let t := if s.pins.pgood then s.deviceReset LR.pgood else s
  t.setPins { t.pins with pgood := false }

def execPgoodInFall (s : State) : Host.Outcome State Fault Refusal := .next (pgoodInFall s)

/-- PGOOD_IN has been high for 1 ms (R65). -/
def pgoodInRise (s : State) : State := s.setPins { s.pins with pgood := true }

def execPgoodInRise (s : State) : Host.Outcome State Fault Refusal := .next (pgoodInRise s)

/-- TESTEN high outside BLANK holds the device in reset (R54); in BLANK it opens factory test modes that the manual does
not describe (R867). -/
def execTestenHigh (s : State) : Host.Outcome State Fault Refusal :=
  if s.lcRow = lcBlank then .fault .factoryTestMode
  else
    let t := if s.pins.testen then s else s.deviceReset LR.testen
    .next (t.setPins { t.pins with testen := true })

/-- TESTEN falls (R54). -/
def testenLow (s : State) : State := s.setPins { s.pins with testen := false }

def execTestenLow (s : State) : Host.Outcome State Fault Refusal := .next (testenLow s)

/-- The device reset scheduled by a command begins (R224, R240, R653, R870). -/
def deviceResetStart (s : State) : State :=
  match s.nv.boot.resetDue with
  | some c => s.deviceReset c
  | none => s

def execDeviceResetStart (s : State) : Host.Outcome State Fault Refusal := .next (deviceResetStart s)

/-- The grace of stage 1 passes (R918). -/
def wdtGraceExpiry (s : State) : State :=
  if s.rd Key.wdtState = 1 ∧ ¬ s.wdtPaused ∧ s.running then s.deviceReset LR.watchdog else s

def execWdtGraceExpiry (s : State) : Host.Outcome State Fault Refusal := .next (wdtGraceExpiry s)

/-- The management controller resumes from sleep; a firmware image with another digest causes the device reset
(R90 to R92). A wake held for CLKIN_38M4 has no core clock to resume on (R86). -/
def mcWakeComplete (digestOk : Bool) (s : State) : State :=
  if ¬ s.pm.waking ∨ ¬ s.clk.nvPll then s
  else if digestOk then (s.setPm { s.pm with waking := false }).tryListen
  else s.deviceReset LR.fwDigest

def execMcWakeComplete (digestOk : Bool) (s : State) : Host.Outcome State Fault Refusal :=
  .next (mcWakeComplete digestOk s)

/-! ### Power (R61, R62, R833, R921) -/

/-- VDD_AON falls: every volatile state is lost (R833, R921). -/
def powerLoss (s : State) : State :=
  let t := s.restart LR.powerOn
  { t with
    power := .sOff, rtc := 0, jtag := State.reset.jtag, nv := { t.nv with scrubAt := 0 },
    pins := { t.pins with aonUp := false, aonReleased := false, pgood := false },
    clk := { State.reset.clk with lowOsc := false, quickOsc := false, nvPll := false, lpddrPll := false } }

def execPowerLoss (s : State) : Host.Outcome State Fault Refusal := .next (powerLoss s)

/-- VDD_AON rises: the power-on detector drives VSEL 0b000 and every ball to its reset state; F starts at T_die
(R61, R847). -/
def powerOn (tDie : Int) (s : State) : State :=
  match s.power with
  | .sOff =>
    { s with
      power := .sIdle, pins := { s.pins with aonUp := true, aonReleased := false },
      clk := { s.clk with lowOsc := true, quickOsc := true },
      pm := { s.pm with filtNum := tDie, filtDen := 1 } }
  | _ => s

def execPowerOn (tDie : Int) (s : State) : Host.Outcome State Fault Refusal := .next (powerOn tDie s)

/-- The AON domain is released (R62). -/
def aonRelease (s : State) : State :=
  if s.pins.aonUp then s.setPins { s.pins with aonReleased := true } else s

def execAonRelease (s : State) : Host.Outcome State Fault Refusal := .next (aonRelease s)

/-! ### PERST_N and FLR (R55, R220) -/

/-- The control plane: MSI-X state, mailboxes, function state, BAR2 windows and pending reads (R716); every quire, as a
quire reset. -/
def State.controlReset (s : State) : State :=
  let s := if s.up then s.resetQuires else s
  let s := [0, 1, 2, 3, 4, 5, 6, 7, 8].foldl (fun s i => s.dropMbox i) s
  let s := { s with fn := { PcieFn.reset with clkreqReleased := s.fn.clkreqReleased }, msix := Msix.reset }
  let s := (s.setWeave { s.weave with aptReads := [], aptQueue := [] }).setPm { s.pm with held := [] }
  s.wrs [(Key.bar2Win0Quire, 0xFF), (Key.bar2Win0Addr, 0), (Key.bar2Win1Quire, 0xFF), (Key.bar2Win1Addr, 0)]

/-- The Q19 starts link training (R55): it asks for the reference clock with CLKREQ_N. -/
def State.startLink (s : State) : State :=
  if s.barUp ∧ s.rd Key.pcieLinkState = linkDownCode then
    (({ s with fn := { s.fn with clkreqReleased := false } } : State).wr Key.pcieLinkState linkTrainingCode).emit .linkTraining
  else s

/-- PERST_N falls (R220); it starts the quick oscillator (R78). -/
def perstNAssert (s : State) : State :=
  if ¬ s.pins.perstN then s
  else
    let s := s.controlReset.linkOff
    let s := s.setPins { s.pins with perstN := false }
    if s.pins.aonUp then s.setClk { s.clk with quickOsc := true } else s

def execPerstNAssert (s : State) : Host.Outcome State Fault Refusal := .next (perstNAssert s)

/-- PERST_N rises: link training starts once boot has reached it, and a sleep state is left (R55, R78, R861). -/
def perstNRelease (s : State) : State :=
  if s.pins.perstN then s
  else
    let s := s.setPins { s.pins with perstN := true }
    if s.heldInReset then s
    else
      let s := s.setClk { s.clk with quickOsc := true }
      if s.running then s.wakeDemand.startLink else s

def execPerstNRelease (s : State) : Host.Outcome State Fault Refusal := .next (perstNRelease s)

/-- A function-level reset: as PERST_N, but the link stays (R220). -/
def flr (s : State) : State := if s.barUp then s.controlReset else s

def execFlr (s : State) : Host.Outcome State Fault Refusal := .next (flr s)

/-! ### JTAG (R100 to R104, R889) -/

/-- The TAP and its chain answer: with PGOOD_IN high and, in S-RET and S-SENT, after a TAP reset there (R102). -/
def State.tapPowered (s : State) : Bool := s.pins.aonUp && s.pins.pgood && (s.coreOn || s.jtag.armed)

def irExtest : BitVec 6 := 0
def irIdcode : BitVec 6 := 1
def irSample : BitVec 6 := 2
def irHighz : BitVec 6 := 4
def irClamp : BitVec 6 := 5

/-- An instruction is loaded through the TAP and its data register selected. -/
def State.loadIr (s : State) (ir : BitVec 6) (dr : JtagReg) : State :=
  let s := if holdsBalls ir && !holdsBalls s.jtag.ir then s.deviceReset LR.tap else s
  ({ s with jtag := { s.jtag with ir := ir, dr := dr, tap := s.jtag.tap.walk irPath } } : State).emit (.jtagRegister dr)

def State.jtag1 (s : State) (f : State → State) : State := if s.tapPowered then f s else s

/-- A TAP reset, by TRST_N at once or through TMS: IDCODE is selected, and in S-RET and S-SENT the next TCK edge powers the
TAP (R100, R102). -/
def tapReset (s : State) : State :=
  if s.pins.aonUp && s.pins.pgood then
    { s with jtag := { s.jtag with ir := irIdcode, dr := .idcode, tap := .testLogicReset, armed := true } }
  else s
def execTapReset (s : State) : Host.Outcome State Fault Refusal := .next (tapReset s)

def extest (s : State) : State := s.jtag1 fun s => s.loadIr irExtest .boundary
def execExtest (s : State) : Host.Outcome State Fault Refusal := .next (extest s)

def clamp (s : State) : State := s.jtag1 fun s => s.loadIr irClamp .bypass
def execClamp (s : State) : Host.Outcome State Fault Refusal := .next (clamp s)

def highz (s : State) : State := s.jtag1 fun s => s.loadIr irHighz .bypass
def execHighz (s : State) : Host.Outcome State Fault Refusal := .next (highz s)

/-- SAMPLE/PRELOAD and one scan of the boundary register: the levels of the balls leave on TDO while `cells` are shifted
into the cells. -/
def samplePreload (cells board : List Bool) (s : State) : State := s.jtag1 fun s =>
  let s := s.loadIr irSample .boundary
  let scan := scanDr (s.sampled board) (cellsOf cells)
  ({ s with jtag := { s.jtag with cells := scan.1, tap := s.jtag.tap.walk (drPath cellBalls.length) } } : State).emit
    (.jtagScan scan.2)
def execSamplePreload (scan : BoundaryScan) (s : State) : Host.Outcome State Fault Refusal :=
  .next (samplePreload scan.cells scan.board s)

def idcode (s : State) : State := s.jtag1 fun s =>
  (s.loadIr irIdcode .idcode).emit (.jtagIdcode (BitVec.ofNat 32 (idcodeOf s.sku)))
def execIdcode (s : State) : Host.Outcome State Fault Refusal := .next (idcode s)

/-- An opcode of R100 other than BYPASS. -/
def assignedIr (c : BitVec 6) : Bool := c == irExtest || c == irIdcode || c == irSample || c == irHighz || c == irClamp

/-- BYPASS or an unassigned opcode selects the bypass register (R100, R103). -/
def bypass (code : BitVec 6) (s : State) : State := s.jtag1 fun s =>
  if assignedIr code then s else s.loadIr code .bypass
def execBypass (code : BitVec 6) (s : State) : Host.Outcome State Fault Refusal := .next (bypass code s)

/-- The access names an execute-only leaf, or a copy of one (R568, R570). -/
def State.namesXo (s : State) : DebugTarget → Bool
  | .t3 e n => (s.lib e.val).installed && (s.lib e.val).man.xoStripe (n / 32)
  | .t0 b n => ((s.bay b).slot n.val).xo
  | .slice b n => s.isXo (.slice b) n
  | .commons n => s.isXo .commons n
  | .t2 n => s.isXo .t2 n
  | .other => false

/-- A vendor debug instruction: locked, it selects the bypass register (R103, R889); open, it never returns an
execute-only leaf (R574), and what else it does no rule says. -/
def execVendorDebugInstruction (code : BitVec 6) (target : DebugTarget) (s : State) :
    Host.Outcome State Fault Refusal :=
  if ¬ s.tapPowered ∨ assignedIr code then .next s
  else if s.debugNow = 0 then .next (s.loadIr code .bypass)
  else if s.namesXo target then .next ((s.loadIr code .vendor).emit .xoViolationDebug)
  else .refused .vendorDebugUndescribed

/-! ### The slow tick (R80, R251, R899, R910) -/

/-- A slow tick: the real-time counter counts; while the core domain is off, level causes are checked; what the tick
finds beside time takes effect. -/
def slowTick (f : TickFacts) (s : State) : State :=
  if ¬ s.pins.aonUp then s
  else
    let s := { s with rtc := s.rtc + 1, wdt := { s.wdt with hostServed := false, fwServed := false } }
    if ¬ s.running then s
    else if f.codeSram ∧ s.coreOn ∧ ¬ s.pm.waking then s.deviceReset LR.codeSram
    else
      let s := if f.fwService ∧ s.coreOn ∧ ¬ s.pm.waking then s.fwServices else s
      let s := match f.retention with
        | some (i, j) => s.retentionError (keyOf i.toNat j.toNat)
        | none => s
      let s := if f.detectorBank then s.detectorError else s
      let s := ((s.count Key.sramCorrected f.sramCorrected).count Key.fabricCorrected f.fabricCorrected).count
        Key.t2Corrected f.t2Corrected
      let s := s.uncount Key.paramUsable f.paramBad
      let s := if s.coreOn then s else s.levelCauses f.dieHot
      s.stepEntry

def execSlowTick (f : TickFacts) (s : State) : Host.Outcome State Fault Refusal := .next (slowTick f s)

end Sys2Proof.Machine
end

