-- ==== Sys2Proof/Machine/Boot.lean ====
section
/-! DEFINITION. Boot (05): firmware slot, self-test, bay mapping, journal replay, profile, library, link; recovery boot. -/

namespace Sys2Proof.Machine

/-! ### Step 1: the firmware slot (R225 to R228) -/

/-- The slot the commit record names: the copy with the valid CRC, the higher sequence number of two; none: no copy is
valid (R226, R227). True: slot B. -/
def BootRegion.named (b : BootRegion) : Option Bool :=
  if b.copy0.crcOk ∧ (¬ b.copy1.crcOk ∨ b.copy1.seq.toNat ≤ b.copy0.seq.toNat) then some b.copy0.slotB
  else if b.copy1.crcOk then some b.copy1.slotB
  else none

def State.slotImage (s : State) (slotB : Bool) : Option Mem := if slotB then s.nv.boot.slotB else s.nv.boot.slotA

/-- The slot that boots, and whether it is the other one than the record names; none: neither verifies. -/
def State.bootSlot (s : State) : Option (Bool × Bool) :=
  let ok := fun (slotB : Bool) => s.slotOk (s.slotImage slotB)
  let first := s.nv.boot.named.getD false
  if ok first then some (first, false)
  else if ok !first then some (!first, s.nv.boot.named.isSome)
  else none

/-- BOOT_SLOT, BOOT_FALLBACK, FW_VERSION and FW_SLOT_VERSION (R222, R242). -/
def State.bootFirmware (s : State) (slotB fallback : Bool) : State :=
  let v := fun (b : Bool) => if s.slotOk (s.slotImage b) then slotVersion (s.slotImage b) else 0
  s.wrs [(Key.bootSlot, if slotB then 1 else 0), (Key.bootFallback, if fallback then 1 else 0),
    (Key.fwVersion, slotVersion (s.slotImage slotB)), (Key.fwSlotVersion 1, v false),
    (Key.fwSlotVersion 2, v true)]

/-! ### Steps 2 and 3: self-test and bay mapping (R230 to R232, R595, R661, R710, R906) -/

def allPhys : List Nat := List.range 9

/-- Bays that fail join the stored record (R230). -/
def State.recordBays (s : State) (fail : Nat) : State :=
  let old := s.rd Key.diagBayRecord
  s.wrStored Key.diagBayRecord (allPhys.foldl (fun r n => if bit fail n ∧ ¬ bit r n then r + 2 ^ n else r) old)

/-- The physical bay behind logical bay `n`: its own, or the spare for the lowest failed one (R231, R232). -/
def mapBay (record n : Nat) : Nat :=
  if ¬ bit record n then n
  else if ¬ bit record 8 ∧ (List.range n).all (fun m => !bit record m) then 8
  else 0xFF

def State.mapBays (s : State) : State :=
  let r := s.rd Key.diagBayRecord
  let s := (List.range 8).foldl (fun s n => s.wr (Key.diagBayMap (n + 1)) (mapBay r n)) s
  let un := (List.range 8).foldl (fun m n => if mapBay r n = 0xFF then m + 2 ^ n else m) 0
  s.wrs [(Key.bootBayFail, r), (Key.bootBayUnmapped, un)]

/-- T2 quota capacity for the channels and ECC in force (R661). -/
def t2Cap (channels : Nat) (ecc : Bool) : Nat :=
  if channels = 2 then (if ecc then 977082 else 1008857) else if ecc then 484569 else 500456

/-- Channels, inline ECC, capacities and the shared pool (R661, R710, R716, R906, R908). Without a channel that trains
the model takes one (log entry 26). -/
def State.bootTiers (s : State) (f : BootFacts) : State :=
  let up0 := f.channelOk0 && !s.sec.chanBad0
  let up1 := f.channelOk1 && !s.sec.chanBad1
  let n := if up0 && up1 then 2 else 1
  let s := if f.channelOk0 && f.channelOk1 then s else s.alert AL.channel
  let ecc := s.rdB Key.t2InlineEcc
  let pool := s.rd Key.t1SharedPool
  let s := s.setTiers { s.tiers with poolLeaves := pool }
  s.wrs [(Key.t2Channels, n), (Key.t2EccActive, if ecc then 1 else 0), (Key.t2QuotaCap, t2Cap n ecc),
    (Key.t1QuotaCap, 13897 - pool)]

/-! ### Step 4: journal replay (R629, R649) -/

/-- Read counts from the checkpoint; the margin is added unless the reset is one that a checkpoint goes before (R628, R629). Bands at the start
of refresh are queued (R630). -/
def State.restoreCounts (s : State) : State :=
  let margin := if s.nv.boot.lastReset = LR.deviceReset ∧ s.nv.ckptDue = true then 0 else ckptStep
  let s := s.setNv { s.nv with ckptDue := false }
  let s := match s.nv.ckpt with
    | none => s.setNv { s.nv with bands := s.nv.bands.map fun (b : Nat × Band) => (b.1, { b.2 with reads := 0 }) }
    | some t => (List.range s.groups).foldl (fun s g => (List.range 16).foldl (fun s b =>
        s.setBand g b { s.bandOf g b with reads := min (Tab.get t 0 (g * 16 + b) + margin) 0xFFFFFFFF }) s) s
  let s := s.setNv { s.nv with bands := s.nv.bands.filter fun (b : Nat × Band) => b.2 != Band.fresh }
  (List.range s.groups).foldl (fun s g => (List.range 16).foldl (fun s b =>
    if s.rd Key.tlRefreshStart ≤ (s.bandOf g b).reads then s.queueMove g b .refresh else s) s) s

/-- The destination blocks of a cut move are re-erased; the source band stays mapped. -/
def State.cutMove (s : State) (m : BandMove) : State :=
  (List.range m.dest.length).foldl (fun s k => s.eraseBlockAt m.group k (m.dest.getD k 0)) s

/-- One interrupted operation is repaired; the answer counts what was re-erased. -/
def State.replayOne (p : State × Nat) (j : JEntry) : State × Nat :=
  let s := p.1
  if j.kind = jMain then
    let g := nvGroup j.addr
    let n := nvBlock j.addr
    let l := (nvBanks j.addr).filter fun k => (s.block g k n).state != .inUse && (s.block g k n).state != .bad
    (l.foldl (fun s k => s.eraseBlockAt g k n) s, p.2 + l.length)
  else if j.kind = jMove then
    match s.nv.moves.find? fun m => m.group * 16 + m.band == j.addr with
    | some m => (s.cutMove m, p.2 + m.dest.length)
    | none => p
  else (s.eraseSectorAt j.addr, p.2 + 1)

def State.replay (s : State) : State :=
  let r := s.nv.journal.foldl State.replayOne (s, 0)
  let s := r.1.setNv { r.1.nv with journal := [], moves := [] }
  (s.wr Key.bootReerased (min r.2 65535)).restoreCounts

/-! ### Step 5: the profile (R210, R907) -/

/-- Quires in ascending number keep their T2 quota while the running sum fits; the others are refused (R907). -/
def State.refuseT2 (s : State) : State :=
  let cap := s.rd Key.t2QuotaCap
  let r := allQ.foldl (fun (p : Nat × Nat) q =>
    let v := s.rd (Key.profQuotaT2 s.part (q.val + 1))
    if p.1 + v ≤ cap then (p.1 + v, p.2) else (p.1, p.2 + 2 ^ q.val)) (0, 0)
  s.wr Key.diagT2Refused r.2

/-- The partition of profile `p` takes effect: quotas, caps, the sentinel binding, the weave. -/
def State.loadProfile (s : State) (p : Nat) : State :=
  let s := ({ s with part := p } : State).refuseT2
  (s.forQ State.loadQuotas).setWeave { s.weave with profile := p }

/-! ### Step 6: the library (R225, R740, R790) -/

/-- Entries left loading become empty. -/
def State.mountLibrary (s : State) : State :=
  let s := allE.foldl (fun s e => match (s.lib e).state with
    | .loading => s.emptyEntry e
    | _ => s) s
  s.setNv { s.nv with loads := [] }

/-! ### The whole -/

/-- The class keys as the parameter region holds them; where the tag of one fails, its CLASS_ID reads 0 and ALERT_N is
asserted (R643, R881). -/
def State.checkClassKeys (s : State) (fail : Nat) : State :=
  [1, 2, 3, 4].foldl (fun s n =>
    let v := (s.storedVal (Key.classKey n)).getD 0
    let held := decide (v ≠ 0) && !bit fail (n - 1)
    let s := ({ s with sec := { s.sec with
      classKeys := Tab.put s.sec.classKeys n (if held then some v else none) } } : State).wr (Key.classId n)
        (if held then v % 2 ^ 32 else 0)
    if v ≠ 0 ∧ bit fail (n - 1) then s.alert AL.classKey else s) s

/-- Steps the scrub-complete record of an RMA part does not show as done (R873). -/
def State.resumeScrub (s : State) : State :=
  if s.lcRow = lcRma ∧ s.sec.scrub ≠ some 7 then ((s.scrubNv (s.sec.scrub.getD 0)).zeroAllTiers).scrubbed 7 else s

/-- The strap sampled at this reset; a recovery load's reset samples none (R210, R220). -/
def State.strap (s : State) (f : BootFacts) : Nat :=
  if s.nv.boot.lastReset = LR.recovery then s.rd Key.profselSampled else f.profsel.toNat

/-- Oscillators and PLLs of a running device; F and the temperatures (R79, R847). -/
def State.bootClocks (s : State) (f : BootFacts) : State :=
  let s := s.setClk { s.clk with lowOsc := true, quickOsc := true, nvPll := true, lpddrPll := true }
  let s := if s.nv.boot.lastReset = LR.powerOn then s
    else s.setPm { s.pm with filtNum := f.tDie, filtDen := 1 }
  s.wrs [(Key.thermDieMax, ofSigned 32 f.tDie),
    (Key.thermFiltered, ofSigned 32 (roundInt s.pm.filtNum s.pm.filtDen))]

/-- Steps 2 to 6. -/
def State.bootNormal (s : State) (f : BootFacts) : State :=
  let s := (s.recordBays f.bayFail.toNat).mapBays
  let s := f.planeFail.foldl (fun s p => s.planeFails (p.1 % 6) (p.2 / 8 % 16)) s
  let s := ((s.bootTiers f).replay.loadProfile (s.strap f)).wr Key.activeProfile (s.strap f)
  let s := s.resumeScrub.mountLibrary
  s.checkClassKeys f.classKeyBad.toNat

/-- Boot (R225): the conditions of R63 hold and boot has not run. -/
def bootStart (f : BootFacts) (s : State) : State :=
  if s.boot ≠ .waiting ∨ s.heldInReset ∨ ¬ s.clkinSeen then s
  else
    let skip := s.nv.boot.skipBootsel
    let s := (s.setNv { s.nv with boot := { s.nv.boot with skipBootsel := false } }).mountParams f.badRecords
    let slot := s.bootSlot
    let s := (s.bootClocks f).wrs
      [(Key.lastReset, s.nv.boot.lastReset), (Key.profselSampled, s.strap f), (Key.bootTime, f.bootTime % 2 ^ 32)]
    let s := { s with sec := { s.sec with
      nonce := f.nonce % 2 ^ 384, keys := s.lc == lcProvisioned || s.lc == lcField } }
    let s := match slot with
      | some (b, fb) => s.bootFirmware b fb
      | none => s
    let mode := if slot.isNone then 2 else if f.bootsel ∧ ¬ skip then 1 else 0
    let s := s.wr Key.bootMode mode
    if mode = 0 then ({ s.bootNormal f with boot := .normal } : State).startLink
    else ({ s with boot := .recovery } : State).startLink

def execBootStart (f : BootFacts) (s : State) : Host.Outcome State Fault Refusal := .next (bootStart f s)

end Sys2Proof.Machine
end

