-- ==== Sys2Proof/Machine/Operands.lean ====
section
/-! DEFINITION. The values a dictionary entry accepts by its own card: type, range, codes, reserved bits (R110, R931),
and the bytes in which a value is stored and read. -/

namespace Sys2Proof.Machine

/-! ### TEXT (R110, R112) -/

/-- One byte of UTF-8: continuation bytes still due and the range of the next one; none: not UTF-8, or a byte 0x00. -/
def utf8Step : Option (Nat × Nat × Nat) → Nat → Option (Nat × Nat × Nat)
  | none, _ => none
  | some (0, _, _), b =>
    if 1 ≤ b ∧ b < 0x80 then some (0, 0, 0)
    else if 0xC2 ≤ b ∧ b ≤ 0xDF then some (1, 0x80, 0xBF)
    else if b = 0xE0 then some (2, 0xA0, 0xBF)
    else if b = 0xED then some (2, 0x80, 0x9F)
    else if 0xE1 ≤ b ∧ b ≤ 0xEF then some (2, 0x80, 0xBF)
    else if b = 0xF0 then some (3, 0x90, 0xBF)
    else if 0xF1 ≤ b ∧ b ≤ 0xF3 then some (3, 0x80, 0xBF)
    else if b = 0xF4 then some (3, 0x80, 0x8F)
    else none
  | some (n + 1, lo, hi), b => if lo ≤ b ∧ b ≤ hi then some (n, 0x80, 0xBF) else none

/-- Valid UTF-8 without a byte 0x00. -/
def textOk (l : List Byte) : Bool :=
  match l.foldl (fun st b => utf8Step st b.toNat) (some (0, 0, 0)) with
  | some (0, _, _) => true
  | _ => false

/-- The stored bytes of a TEXT(n) value: they hold no zero byte, so the first zero ends them. -/
def textBytes (n v : Nat) : List Byte := (natLe n v).takeWhile fun b => b != 0

/-- The bytes a read of a value returns (R110, R112); a CMD entry's result block is read elsewhere. -/
def valueBytes (ty : Ty) (v : Nat) : List Byte :=
  match ty with
  | .bool => natLe 1 v
  | .uint n => natLe n v
  | .sint n => natLe n v
  | .enum8 => natLe 1 v
  | .bits32 => natLe 4 v
  | .bytes n => natLe n v
  | .text n => textBytes n v
  | .cmd _ _ => []

/-- The write lengths a type takes (R111). -/
def lengthOk (ty : Ty) (n : Nat) : Bool :=
  match ty with
  | .bool => n == 1
  | .uint k => n == k
  | .sint k => n == k
  | .enum8 => n == 1
  | .bits32 => n == 4
  | .bytes k => n == k
  | .text k => decide (n ≤ k)
  | .cmd a _ => n == a

/-! ### Ranges -/

/-- The bay clock steps (R70). -/
def clockSteps : List Nat := [300, 450, 600, 750, 900, 1050, 1200]

/-- A ring size: 0, or a power of two from 16 to 4,096 (R288). -/
def ringSizeOk (v : Nat) : Bool := v == 0 || [16, 32, 64, 128, 256, 512, 1024, 2048, 4096].contains v

/-- An MSI-X vector, or 0xFF for none. -/
def vectorOk (v : Nat) : Bool := decide (v < 64) || v == 0xFF

/-- A quire, or 0xFF for none. -/
def quireOk (v : Nat) : Bool := decide (v < 8) || v == 0xFF

/-- The address of a data window: a T1, T2 or UNIFIED address (R665, R716). -/
def windowAddrOk (v : Nat) : Bool :=
  match addrOf v with
  | some a => (match a.form with
    | .t3 _ => false
    | .t4 => false
    | _ => true)
  | none => false

/-- The own range of a profile member at offset `o` of its block (R207). -/
def profRange (o sub v : Nat) : Bool :=
  match o with
  | 1 => quireOk v
  | 2 => v == 0 || clockSteps.contains v
  | 8 => if sub ≤ 2 then decide (100 ≤ v ∧ v ≤ 4500) else if sub = 3 then decide (v ≤ 2000)
    else decide (35 * 65536 ≤ v ∧ v ≤ 48 * 65536)
  | _ => true

/-- The own range of an entry at offset `o` of a quire block (R288, R320, R713). -/
def quireRange (o v : Nat) : Bool :=
  match o with
  | 0x10 => bits v 5 1 == 0
  | 0x11 => ringSizeOk v
  | 0x12 => bits v 5 1 == 0
  | 0x13 => ringSizeOk v
  | 0x14 => decide (v < 2 ^ 20)
  | 0x40 => v % 64 == 0 && decide (v ≤ 4032)
  | 0x41 => v % 64 == 0 && decide (v ≤ 4096)
  | 0x61 => decide (v ≤ 1)
  | 0x62 => decide (v ≤ 1)
  | 0x63 => v % 4096 == 0
  | 0x64 => decide (v ≤ 1)
  | _ => true

/-- The own range of an entry elsewhere. -/
def absRange (idx sub v : Nat) : Bool :=
  match idx with
  | 0x1B03 => decide (v < 16)
  | 0x1B10 => vectorOk v
  | 0x1614 => if sub = 1 then decide (10000000 ≤ v ∧ v ≤ 45000000) else decide (7 ≤ v ∧ v ≤ 90)
  | 0x1618 => v % 256 == 0 && decide (v ≤ 655360)
  | 0x1701 => decide (v ≤ 1024)
  | 0x1708 => if sub % 2 = 1 then quireOk v else windowAddrOk v
  | 0x1904 => if sub = 2 then decide (1 ≤ v ∧ v ≤ 16) else true
  | 0x1905 => decide (v < 16)
  | 0x1906 => vectorOk v
  | 0x1410 => decide (v ≤ 1000000)
  | 0x1411 => decide (v ≤ 1000000)
  | 0x1412 => v == 0 || decide (100 ≤ v ∧ v ≤ 4500)
  | 0x1502 => if sub = 1 then decide (3277 ≤ v ∧ v ≤ 65536) else decide (1 ≤ v ∧ v ≤ 600)
  | 0x1A02 => if sub = 2 then decide (10 ≤ v ∧ v ≤ 10000) else true
  | 0x1A03 => vectorOk v
  | 0x1C01 => decide (v < 2 ^ 14)
  | _ => true

/-- The value is within its member's own range (R110, R931). -/
def ownRange (sku : Sku) (k v : Nat) : Bool :=
  let idx := k / 256
  let sub := k % 256
  (match cardOf sku idx sub with
    | some c => (match c.ty with
      | .bool => decide (v ≤ 1)
      | .text n => textOk (textBytes n v) && decide (v < 256 ^ (textBytes n v).length)
      | _ => true)
    | none => false) &&
  (if 0x1210 ≤ idx ∧ idx < 0x1250 then profRange ((idx - 0x1210) % 16) sub v
    else if 0x2000 ≤ idx ∧ idx < 0x2800 then quireRange (idx % 256) v
    else absRange idx sub v)


end Sys2Proof.Machine
end

