-- ==== Sys2Proof/Machine/Staged.lean ====
section
/-! DEFINITION. Staged sets (03): members, holders, COMMIT with its rules, and the safe points at which a staged copy
becomes active. -/

namespace Sys2Proof.Machine

/-- A staged set. -/
inductive SetId where
  | prof (p : Fin 4)
  | ring (q : QNum)
  | stitch (q : QNum)
  | tier (q : QNum)
  | power
  deriving DecidableEq, Repr

/-- Key of the set's COMMIT. -/
def SetId.commit : SetId → Nat
  | .prof p => Key.profCommit p.val
  | .ring q => Key.qRingCommit q
  | .stitch q => Key.qStitchCommit q
  | .tier q => Key.qTierCommit q
  | .power => Key.pwrCommit

/-- The set whose COMMIT has an index. -/
def setOfCommit (idx : Nat) : Option SetId :=
  if idx = 0x141F then some .power
  else if 0x1210 ≤ idx ∧ idx < 0x1250 ∧ idx % 16 = 15 then some (.prof (Fin.ofNat 4 ((idx - 0x1210) / 16)))
  else if 0x2000 ≤ idx ∧ idx < 0x2800 then
    let q := Fin.ofNat 8 ((idx - 0x2000) / 256)
    if idx % 256 = 0x1F then some (.ring q)
    else if idx % 256 = 0x4F then some (.stitch q)
    else if idx % 256 = 0x6F then some (.tier q)
    else none
  else none

/-- The set an RS entry belongs to. -/
def setOfMember (sku : Sku) (idx sub : Nat) : Option SetId :=
  match cardOf sku idx sub with
  | some c => (match c.access, c.base with
    | .rs o, .prof => setOfCommit ((idx - 0x1210) / 16 * 16 + 0x1210 + o)
    | .rs o, .quire => setOfCommit (idx / 256 * 256 + o)
    | .rs o, .abs => setOfCommit o
    | _, _ => none)
  | none => none

/-- Keys of an array of `n` elements at index `i`. -/
def subs (i n : Nat) : List Nat := (upFrom 1 n).map fun j => keyOf i j

/-- The members, in ascending index:sub order. -/
def SetId.members : SetId → List Nat
  | .prof p =>
    let b := 0x1210 + 16 * p.val
    [keyOf b 0] ++ subs (b + 1) 8 ++ subs (b + 2) 8 ++ subs (b + 3) 8 ++ subs (b + 4) 8 ++ subs (b + 5) 8 ++
      subs (b + 6) 8 ++ subs (b + 7) 24 ++ subs (b + 8) 4 ++ [keyOf (b + 9) 0, keyOf (b + 10) 0]
  | .ring q =>
    let b := 0x2000 + 256 * q.val
    subs (b + 0x10) 4 ++ subs (b + 0x11) 4 ++ [keyOf (b + 0x12) 0, keyOf (b + 0x13) 0, keyOf (b + 0x14) 0]
  | .stitch q => [Key.qStitchBase q, Key.qStitchCount q]
  | .tier q =>
    let b := 0x2000 + 256 * q.val
    subs (b + 0x60) 4 ++ [keyOf (b + 0x61) 0, keyOf (b + 0x62) 0, keyOf (b + 0x63) 0, keyOf (b + 0x64) 0]
  | .power => [Key.pwrGateToOffUs, Key.pwrPllOffUs, Key.pwrHostCapMw]

def SetState.idle : SetState := { holder := none, pending := false }

def State.setState (s : State) (i : SetId) : SetState := Tab.get s.dict.sets SetState.idle (i.commit / 256)

def State.setSetState (s : State) (i : SetId) (x : SetState) : State :=
  s.setDict { s.dict with sets := Tab.set s.dict.sets SetState.idle (i.commit / 256) x }

/-- The staged copy is held by another role, or the commit is pending (R140, R150). -/
def State.setBars (s : State) (i : SetId) (role : Role) : Bool :=
  let x := s.setState i
  x.pending || (match x.holder with
    | some r => r != role
    | none => false)

/-- Give a member a staged value. -/
def State.stage (s : State) (k v : Nat) : State := s.setDict { s.dict with staged := Tab.put s.dict.staged k (some v) }

/-- A write to a member: the staged copy alone changes, and the role holds it (R116, R140, R141). -/
def stagedMemberWrite (i : SetId) (k v : Nat) (role : Role) (s : State) : Nat × State :=
  if s.setBars i role then (DS.stagedConflict, s)
  else if ¬ ownRange s.sku k v then (DS.range, s)
  else (DS.ok, (s.stage k v).setSetState i { holder := some role, pending := false })

/-- The staged copy equals the active copy again, held by no role (R138, R151). -/
def State.unstage (s : State) (i : SetId) : State :=
  let s := s.setDict { s.dict with staged := s.dict.staged.filter fun e => !i.members.contains e.1 }
  s.setSetState i SetState.idle

/-! ### Rules of the profile set (R208, R410) -/

/-- Weave byte `n` of the staged profile `p`. -/
def State.stagedByte (s : State) (p n : Nat) : Nat := s.staged (Key.profWeave p (n / 256 + 1)) / 256 ^ (n % 256) % 256

/-- The code of bank group `g` in slot `t` of the staged weave (R408). -/
def State.stagedCode (s : State) (p t g : Nat) : Nat := s.stagedByte p (6 * t + g / 2) / 16 ^ (g % 2) % 16

def weaveSlots : List Nat := List.range 1024

/-- A condition of a weave slot fails for its first slot: the part that holds the slot's record (R935). -/
def firstSlot (p : Nat) (bad : Nat → Bool) : Option (Nat × Nat) :=
  (weaveSlots.find? bad).map fun t => (Key.profWeave p (6 * t / 256 + 1), 2)

/-- A rule that holds, or the member and reason it reports. -/
def rule (ok : Bool) (k reason : Nat) : Option (Nat × Nat) := if ok then none else some (k, reason)

/-- The first failure of a list of rules. -/
def firstFailure (l : List (Option (Nat × Nat))) : Option (Nat × Nat) := l.findSome? id

/-- T3_SERVICE_MIB: 2,048 for each bank group in service (R599). -/
def State.t3Service (s : State) : Nat := 2048 * ((List.range 12).filter s.groupInService).length

def State.profRules (s : State) (p : Nat) : Option (Nat × Nat) :=
  let owner := fun (n : Nat) => s.staged (Key.profBayOwner p (n + 1))
  let owned := fun (q : Nat) => ((List.range 8).filter fun n => owner n == q).length
  let sum := fun (f : Nat → Nat) => ((upFrom 1 8).map fun n => s.staged (f n)).sum
  let first := Key.profBayOwner p 1
  let code := s.stagedCode p
  let groups := List.range 12
  let t3 := (upFrom 1 8).any fun n => s.staged (Key.profQuotaT3 p n) != 0
  let maint := fun (g : Nat) => (weaveSlots.filter fun t => code t g == 8).length
  let sus := s.staged (Key.profPowerSustained p)
  let burst := s.staged (Key.profPowerBurst p)
  firstFailure
    [rule (s.staged (Key.profSentinelBind p) == 0 || owned 7 == 0) first 2,
     rule ((List.range 8).all fun q => (s.staged (Key.profClockStep p (q + 1)) != 0) == (owned q != 0)) first 2,
     rule (weaveSlots.all fun t => groups.all fun g => decide (8 ≤ code t g) || owned (code t g) != 0) first 2,
     firstSlot p fun t => groups.any fun g => decide (9 < code t g),
     firstSlot p fun t => groups.any fun g => decide (s.groups ≤ g) && code t g != 9,
     rule (!t3 || groups.all fun g => !s.groupInService g || decide (31 ≤ maint g)) (Key.profWeave p 1) 2,
     rule (weaveSlots.all fun t => (List.range 8).all fun q =>
       decide ((groups.filter fun g => code t g == q).length ≤ 2 * owned q)) first 2,
     rule (decide (sus ≤ burst)) (Key.profPowerSustained p) 2,
     rule ((s.staged (Key.profBurstWindow p) == 0) == (burst == sus)) (Key.profPowerSustained p) 2,
     rule (decide (sum (Key.profQuotaT1 p) ≤ s.rd Key.t1QuotaCap)) (Key.profQuotaT1 p 1) 3,
     rule (decide (sum (Key.profQuotaT2 p) ≤ s.rd Key.t2QuotaCap)) (Key.profQuotaT2 p 1) 3,
     rule (decide (sum (Key.profQuotaT3 p) ≤ s.t3Service)) (Key.profQuotaT3 p 1) 3]

/-! ### Rules of the ring set (R290) -/

/-- The rings in use: base and bytes. -/
def State.stagedRings (s : State) (q : QNum) : List (Nat × Nat) :=
  ((upFrom 1 4).filter fun r => s.staged (Key.qSqSize q r) != 0).map (fun r =>
    (s.staged (Key.qSqBase q r), 64 * s.staged (Key.qSqSize q r))) ++
  [(s.staged (Key.qCqBase q), 16 * s.staged (Key.qCqSize q))]

def ringsMeet (a b : Nat × Nat) : Bool :=
  ringLoc a.1 == ringLoc b.1 && decide (ringAddr a.1 < ringAddr b.1 + b.2 ∧ ringAddr b.1 < ringAddr a.1 + a.2)

/-- Two rings of the list overlap. -/
def anyMeet : List (Nat × Nat) → Bool
  | [] => false
  | a :: t => t.any (ringsMeet a) || anyMeet t

/-- The rules of R290 in its order. DESIGN CHOICE (log entry 90): a failure of the overlap rule or of the region rule names
Q_SQ_BASE sub 1, whichever rings are at fault or unused. -/
def State.ringRules (s : State) (q : QNum) : Option (Nat × Nat) :=
  let l := s.stagedRings q
  firstFailure
    [rule (s.staged (Key.qCqSize q) != 0) (Key.qCqSize q) 2,
     rule ((upFrom 1 4).any fun r => s.staged (Key.qSqSize q r) != 0) (Key.qSqSize q 1) 2,
     rule (!anyMeet l) (Key.qSqBase q 1) 2,
     rule (l.all fun a => ringLoc a.1 == 0 || decide (ringAddr a.1 + a.2 ≤ ringBytes)) (Key.qSqBase q 1) 2]

/-! ### Rules of the allocation, tier and power sets (R321, R714, R864) -/

def State.stitchRules (s : State) (q : QNum) : Option (Nat × Nat) :=
  let b := s.staged (Key.qStitchBase q)
  let c := s.staged (Key.qStitchCount q)
  firstFailure
    [rule (decide (b + c ≤ 4096)) (Key.qStitchBase q) 2,
     rule (allQ.all fun p => p == q || c == 0 || (s.stitchRange p).2 == 0 ||
       !decide (b < (s.stitchRange p).1 + (s.stitchRange p).2 ∧ (s.stitchRange p).1 < b + c)) (Key.qStitchBase q) 3]

/-- Usage of a tier: 1, T1 leaves; 2, T2 leaves; 3, T3 MiB (R679). -/
def State.used (s : State) (q : QNum) (n : Nat) : Nat :=
  match n with
  | 1 => s.usedT1 q
  | 2 => s.usedT2 q
  | _ => s.usedT3 q

/-- The loaded profile's quota of a quire. -/
def State.profQuota (s : State) (q : QNum) (n : Nat) : Nat :=
  match n with
  | 1 => s.rd (Key.profQuotaT1 s.part (q.val + 1))
  | 2 => s.rd (Key.profQuotaT2 s.part (q.val + 1))
  | 3 => s.rd (Key.profQuotaT3 s.part (q.val + 1))
  | _ => s.rd (Key.profWindowT4 s.part (q.val + 1))

/-- What the quotas of a tier sum to at most. -/
def State.quotaCap (s : State) (n : Nat) : Nat :=
  match n with
  | 1 => s.rd Key.t1QuotaCap
  | 2 => s.rd Key.t2QuotaCap
  | _ => s.t3Service

/-- The rules of R714's table, which calls them all cross-member rules, in its order and with its reasons (R144). -/
def State.tierRules (s : State) (q : QNum) : Option (Nat × Nat) :=
  let st := fun (n : Nat) => s.staged (Key.qQuota q n)
  let own : Bool := (s.setState (.tier q)).holder == some (.quire q)
  let others := fun (n : Nat) => ((allQ.filter fun p => p != q).map fun p => s.rd (Key.qQuota p n)).sum
  let moved : Bool := s.staged (Key.qPlacement q) != s.rd (Key.qPlacement q)
  let held : Bool := s.allocatedLeaves q != 0 || !(s.quire q).runs.isEmpty
  firstFailure
    ([1, 2, 3].map (fun n => rule (decide (st n + others n ≤ s.quotaCap n)) (Key.qQuota q n) 3) ++
     [1, 2, 3].map (fun n => rule (decide (s.used q n ≤ st n)) (Key.qQuota q n) 2) ++
     [1, 2, 3, 4].map (fun n => rule (!own || decide (st n ≤ s.profQuota q n)) (Key.qQuota q n) 2) ++
     [rule (!moved || !held) (Key.qPlacement q) 2])

def State.powerRules (s : State) : Option (Nat × Nat) :=
  rule (decide (s.staged Key.pwrGateToOffUs ≤ s.staged Key.pwrPllOffUs)) Key.pwrGateToOffUs 2

/-- The first failure of a validation: a member's own range, then the rules (R144, R931, R935). -/
def State.validate (s : State) (i : SetId) : Option (Nat × Nat) :=
  match i.members.find? fun k => !ownRange s.sku k (s.staged k) with
  | some k => some (k, 1)
  | none =>
    match i with
    | .prof p => s.profRules p.val
    | .ring q => s.ringRules q
    | .stitch q => s.stitchRules q
    | .tier q => s.tierRules q
    | .power => s.powerRules

/-! ### Applying (R148, R152, R291, R323) -/

/-- Every ring starts empty, its completion ring in its first pass (R269, R291). -/
def Quire.clearRings (x : Quire) : Quire :=
  { x with rings := Vector.replicate 4 Ring.reset, cqHead := 0, cqTail := 0, phase := true }

/-- What of a range a range leaves uncovered: below and above. -/
def rangeMinus (a b : Nat × Nat) : List (Nat × Nat) :=
  let hi := max a.1 (b.1 + b.2)
  [(a.1, min a.2 (b.1 - a.1)), (hi, a.1 + a.2 - hi)]

/-- Stitches that leave the range release their waits ABORTED, in the stage that applies the change (R309, R323). -/
def State.leaveStitches (s : State) (old new : Nat × Nat) : State := s.releaseStage old (rangeMinus old new)

/-- Stitches that leave or enter a range take the default state (R323). -/
def State.moveStitches (s : State) (old new : Nat × Nat) : State :=
  s.setSt { s.st with stitches := s.st.stitches.filter fun e => inRange old e.1 == inRange new e.1 }

/-- A member takes its staged value; an S member in both copies of the parameter region. -/
def State.activate (s : State) (k : Nat) : State :=
  match cardOf s.sku (k / 256) (k % 256) with
  | some c => if c.cls = .s then s.wrStored k (s.staged k) else s.wr k (s.staged k)
  | none => s

/-- The whole active copy is replaced in one step. -/
def State.applySet (s : State) (i : SetId) : State :=
  let t := i.members.foldl State.activate s
  match i with
  | .ring q => t.modQuire q Quire.clearRings
  | .stitch q =>
    (i.members.foldl State.activate (s.leaveStitches (s.stitchRange q) (t.stitchRange q))).moveStitches (s.stitchRange q)
      (t.stitchRange q)
  | _ => t

/-- The set's safe point: the pending commit applies and its run ends (R148). -/
def State.safePoint (s : State) (i : SetId) : State :=
  if (s.setState i).pending then ((s.applySet i).unstage i).cmdDone i.commit DS.ok [0, 0, 0, 0] else s

/-- A pending commit and the staged copy are discarded: a pending run ends with RESULT STATE (R151, R216). -/
def State.discardSet (s : State) (i : SetId) : State :=
  if (s.setState i).pending then (s.unstage i).cmdDone i.commit DS.state [0, 0, 0, 0] else s.unstage i

/-- A fetched RUN_IMPOSITION is held for a WAKE. -/
def Quire.runHeld (x : Quire) : Bool := x.wakePending && x.rings.toList.any fun r => r.fetched.any fun e => e.opcode == 1

/-- A quire set may apply now: no run, none held for a WAKE, not frozen (R149). -/
def State.boundary (s : State) (q : QNum) : Bool :=
  (s.quire q).runs.isEmpty && !(s.quire q).runHeld && (s.quire q).state != .frozen

/-- The safe point has come: a quire set's imposition boundary, a power set's slow tick. A profile set's is the step of
a switch. -/
def State.safeNow (s : State) (i : SetId) : Bool :=
  match i with
  | .prof _ => false
  | .ring q => s.boundary q
  | .stitch q => s.boundary q
  | .tier q => s.boundary q
  | .power => true

/-- A quire set that applies at once when its commit is accepted; the power set waits for the next slow tick. -/
def SetId.ofQuire : SetId → Bool
  | .prof _ => false
  | .power => false
  | _ => true

/-- COMMIT_SAFE_POINT (R148, R149). -/
def commitSafePoint (idx : Nat) (s : State) : State :=
  match setOfCommit idx with
  | some i => if s.running && s.safeNow i then s.safePoint i else s
  | none => s

def execCommitSafePoint (idx : BitVec 16) (s : State) : Host.Outcome State Fault Refusal :=
  .next (commitSafePoint idx.toNat s)

/-! ### COMMIT (R142 to R151, R289, R322) -/

/-- Ring and allocation sets commit only while the quire is DISABLED (R289, R322). -/
def State.commitBarred (s : State) (i : SetId) : Bool :=
  match i with
  | .ring q => (s.quire q).state != .disabled
  | .stitch q => (s.quire q).state != .disabled
  | _ => false

/-- A commit whose validation succeeded is pending; a quire set at its boundary applies at once (R147, R149). -/
def State.acceptCommit (s : State) (i : SetId) : State :=
  let s := (s.cmdStart i.commit).setSetState i { s.setState i with pending := true }
  if i.ofQuire && s.safeNow i then s.safePoint i else s

def commitWrite (i : SetId) (arg : List Byte) (s : State) : Nat × State :=
  let a := fieldLe arg 0 1
  let discard := bit a 0
  if ¬ discard ∧ s.commitBarred i then (DS.state, s)
  else if ¬ discard ∧ (s.setState i).pending then (DS.stagedConflict, s)
  else if 3 ≤ a then (DS.range, s)
  else if discard then
    if (s.setState i).pending then (DS.ok, s.discardSet i)
    else (DS.ok, (s.unstage i).cmdDone i.commit DS.ok [0, 0, 0, 0])
  else
    match s.validate i with
    | some (k, reason) =>
      (DS.range, (s.setSetState i SetState.idle).cmdDone i.commit DS.range
        (natLe 2 (k / 256) ++ natLe 1 (k % 256) ++ natLe 1 reason))
    | none =>
      if a = 2 then (DS.ok, s.cmdDone i.commit DS.ok [0, 0, 0, 0]) else (DS.ok, s.acceptCommit i)

/-! ### PROF_RESTORE (R207) -/

/-- The staged copy takes the factory contents and is held for HOST-P. -/
def profRestoreWrite (p : Fin 4) (role : Role) (s : State) : Nat × State :=
  if s.setBars (.prof p) role then (DS.stagedConflict, s)
  else
    let s := (SetId.prof p).members.foldl (fun s k => s.stage k (dfltVal s.sku k)) s
    (DS.ok, (s.setSetState (.prof p) { holder := some .hostP, pending := false }).cmdDone (Key.profRestore p.val) DS.ok [])

end Sys2Proof.Machine
end

