-- ==== Sys2Proof/Machine/Switch.lean ====
section
/-! DEFINITION. The profile switch (05): validation, drain, repartition, resume. -/

namespace Sys2Proof.Machine

/-- Target and drain limit of a PROFILE_SWITCH argument (R212). -/
def switchTarget (arg : List Byte) : Nat := fieldLe arg 0 1
def switchLimit (arg : List Byte) : Nat := if fieldLe arg 2 2 = 0 then 1000 else fieldLe arg 2 2

/-- A quota of the target profile as its set will hold it: a pending commit's value (R214, log entry 27). -/
def State.targetQuota (s : State) (p : Fin 4) (k : Nat) : Nat :=
  if (s.setState (.prof p)).pending then s.staged k else s.rd k

/-- Step 1: every quire's holdings fit the target's quotas. -/
def State.holdingsFit (s : State) (p : Fin 4) : Bool :=
  allQ.all fun q =>
    decide (s.usedT1 q ≤ s.targetQuota p (Key.profQuotaT1 p.val (q.val + 1))) &&
    decide (s.usedT2 q ≤ s.targetQuota p (Key.profQuotaT2 p.val (q.val + 1))) &&
    decide (s.usedT3 q ≤ s.targetQuota p (Key.profQuotaT3 p.val (q.val + 1)))

/-- The switch ends: phase idle, FROM, TO and DRAIN_MS recorded. -/
def State.endSwitch (s : State) (result from_ to_ ms : Nat) : State :=
  (({ s with switch := none } : State).wr Key.switchPhase 0).cmdDone Key.profileSwitch result
    (natLe 1 from_ ++ natLe 1 to_ ++ natLe 2 (min ms 65535))

/-- PROFILE_SWITCH: steps 1 and 2 begin (R213, R214). -/
def profileSwitchWrite (arg : List Byte) (s : State) : Nat × State :=
  if s.rdB Key.profilePinLock then (DS.locked, s)
  else if 3 < switchTarget arg ∨ fieldLe arg 1 1 ≠ 0 ∨ 10000 < switchLimit arg then (DS.range, s)
  else s.ifIdle Key.profileSwitch fun s =>
    let from_ := s.rd Key.activeProfile
    if ¬ s.holdingsFit (Fin.ofNat 4 (switchTarget arg)) then s.endSwitch DS.state from_ from_ 0
    else
      (({ s with switch := some {
        source := from_, target := switchTarget arg, limitMs := switchLimit arg, drainMs := 0, repartitioned := false,
        oldWeave := [] } } : State).wr Key.switchPhase 2).cmdStart Key.profileSwitch

/-- A quire counts as drained (R215). -/
def State.drained (s : State) (q : QNum) : Bool := (s.quire q).state == .frozen || (s.quire q).runs.isEmpty

/-- The bays are gated and reassigned; a bay given to no quire is off (R214 step 4, R837). -/
def State.repartBays (s : State) : State :=
  (s.forB fun s b =>
    if (s.ownerOf b).isNone then s.bayOff b
    else if (s.bay b).powered then s.modBay b fun x => { x with power := .gated }
    else s).fixPower.updateVsel

/-- The new binding: an unbound sentinel completes its frame and stops (R799). -/
def State.repartSentinel (s : State) : State :=
  s.setSent { s.sent with
    stopAtEnd := s.listening && (!s.sentBound || (s.sent.stopAtEnd && s.pm.entry.isSome)) }

/-- Steps 3 and 4: the target's pending commit, then the partition, steps, quotas and binding of the target
(R214, R216). -/
def State.repartition (s : State) (p : Fin 4) : State :=
  let s := s.safePoint (.prof p)
  let s := s.forQ fun s q => s.discardSet (.tier q)
  let s := ({ s with part := p.val } : State).refuseT2
  ((s.forQ State.loadQuotas).repartBays).repartSentinel

/-- SWITCH_DRAIN_END: every quire is drained within the limit. -/
def switchDrainEnd (drainMs : Nat) (s : State) : State :=
  match s.switch with
  | none => s
  | some w =>
    if w.repartitioned ∨ w.limitMs < drainMs ∨ ¬ s.coreOn ∨ ¬ (allQ.all fun q => s.drained q) then s
    else
      let old := if w.target = w.source then (upFrom 1 24).map (fun n => s.rd (Key.profWeave w.source n)) else []
      let s := s.repartition (Fin.ofNat 4 w.target)
      ({ s with switch := some { w with drainMs := drainMs, repartitioned := true, oldWeave := old } } : State).wr
        Key.switchPhase 3

def execSwitchDrainEnd (drainMs : Nat) (s : State) : Host.Outcome State Fault Refusal := .next (switchDrainEnd drainMs s)

/-- A held WAKE is answered: refused, or its bays are powered for the GRANT (R43). -/
def State.answerWake (s : State) (q : QNum) : State :=
  let x := s.quire q
  if ¬ x.wakePending then s
  else if s.refusesWake q then
    (s.setQuire q { x with
      pwr := .refused, wakePending := false,
      state := if x.state = .waking then (if x.started = [] then .enabled else .running) else x.state }).count
        (Key.qWakesRefused q)
  else s.powerBays q

/-- Ring fetch resumes and held WAKEs are answered. -/
def State.resumeQuires (s : State) : State := (s.forQ State.answerWake).forQ State.wakeIfNeeded

/-- SWITCH_DRAIN_LIMIT: the limit passes before the drain ends. -/
def switchDrainLimit (drainMs : Nat) (s : State) : State :=
  match s.switch with
  | none => s
  | some w =>
    if w.repartitioned ∨ drainMs < w.limitMs ∨ ¬ s.coreOn ∨ (allQ.all fun q => s.drained q) then s
    else (s.endSwitch DS.busy w.source w.source drainMs).resumeQuires

def execSwitchDrainLimit (drainMs : Nat) (s : State) : Host.Outcome State Fault Refusal :=
  .next (switchDrainLimit drainMs s)

/-- SWITCH_RESUME: step 5, at the weave frame boundary (R214, R417, R799, R845). -/
def switchResume (s : State) : State :=
  match s.switch with
  | none => s
  | some w =>
    if ¬ w.repartitioned ∨ s.weave.slot ≠ 0 ∨ ¬ s.coreOn then s
    else
      let s := s.setWeave { s.weave with profile := w.target, lent := [] }
      let s := (s.closeSprint.wr Key.activeProfile w.target).endSwitch DS.ok w.source w.target w.drainMs
      s.resumeQuires.tryListen

def execSwitchResume (s : State) : Host.Outcome State Fault Refusal := .next (switchResume s)

end Sys2Proof.Machine
end

