-- ==== Sys2Proof/Machine/Entries.lean ====
section
/-! DEFINITION. What each dictionary entry reads (03, 21): values computed from the rest of the state, and the bytes of
an answer. Every other entry reads its stored value. -/

namespace Sys2Proof.Machine

/-- Bit mask of the bays that satisfy `p`. -/
def State.bayMask (s : State) (p : Bay → Bool) : Nat :=
  allB.foldl (fun m b => if p (s.bay b) then m + 2 ^ b.val else m) 0

/-- Q_RUN_CYCLE: the elapsed cycle of the run on the lowest-numbered bay, 0 when none runs (R423). -/
def State.runCycle (s : State) (q : QNum) : Nat :=
  match s.quireBays q |>.findSome? fun b => (s.quire q).runs.find? fun r => r.live && r.bays.contains b with
  | some r => s.elapsed r
  | none => 0

/-! ### The weight store and the press (R599, R656) -/

def State.liveEntries (s : State) : List LibEntry := (allE.map s.lib).filter fun x => x.state != .empty

/-- Execute-only stripes of an entry (R568). -/
def LibEntry.xoStripes (x : LibEntry) : Nat :=
  ((x.man.sections.filter fun y => !(y.kind == 4 && y.isOpen)).map Section.stripes).sum

/-- BG_CLAIMED. -/
def State.claimMask (s : State) : Nat :=
  (List.range 12).foldl (fun m g => if s.nv.claims.any (fun c => c.1 == g) then m + 2 ^ g else m) 0

/-- BAND_READS_MAX, which saturates (R934). -/
def State.bandReadsMax (s : State) (g : Nat) : Nat :=
  min 0xFFFFFFFF <| (List.range 16).foldl (fun m b => max m (s.bandOf g b).reads) 0

/-- BLOCK_CYCLES_MAX, which saturates (R934). -/
def State.cyclesMax (s : State) (g : Nat) : Nat :=
  min 65535 <| (List.range 8).foldl (fun m k => (s.usableBlocks g k).foldl (fun m n => max m (s.block g k n).cycles) m) 0

/-- TL_SCRUB_AGE: days of 32,768 × 86,400 slow ticks. -/
def State.scrubAge (s : State) : Nat := min ((s.rtc.toNat - s.nv.scrubAt) / (32768 * 86400)) 65535

/-! ### The slipcase library (R769) -/

/-- LIB_STAGING. -/
def State.stagingCode (s : State) : Nat :=
  match s.nv.loads.find? fun l => l.staged && l.running with
  | some l => if l.session.isSome then 3 else 1
  | none => if s.nv.sessions = [] then 0 else 2

/-- LIB_ENTRY of an entry. -/
def State.libBytes (s : State) (e : Nat) : List Byte :=
  let x := s.lib e
  let holders := (s.holders e).foldl (fun m q => m + 2 ^ q.val) 0
  natLe 1 (libStateCode x.state) ++ natLe 1 x.kind ++ natLe 1 x.variant ++ natLe 1 holders ++ natLe 16 x.modelId ++
    natLe 4 x.modelVersion ++ natLe 4 x.generation ++ natLe 1 (x.base.getD 0xFF) ++ natLe 1 (s.tipins e).length ++
    natLe 1 x.wrap ++ natLe 1 0 ++ natLe 4 x.stripes ++ natLe 4 x.mib ++ natLe 4 x.lost.length ++ natLe 20 0

/-! ### Values -/

/-- Entries of a quire's block that are computed. -/
def State.blockValue (s : State) (q : QNum) (o sub : Nat) : Option Nat :=
  match o with
  | 0x00 => some (qstateCode (s.quire q).state)
  | 0x70 => if 1 ≤ sub then some (s.used q sub) else none
  | 0x85 => some (s.runCycle q)
  | _ => none

/-- Computed entries from 0x1000 to 0x13FF: identity from OTP (R242, R589), security (R894). -/
def State.idValue (s : State) (idx sub : Nat) : Option Nat :=
  let otp := fun (a n : Nat) => some (Mem.readLe s.nv.otp a n)
  match idx with
  | 0x1006 => some s.serial
  | 0x1007 => if 1 ≤ sub then otp (8 * sub) 8 else none
  | 0x1008 => if sub = 1 then otp 0x48 12 else if sub = 2 then otp 0x54 1 else none
  | 0x1100 => some s.lc
  | 0x1102 => some s.scrubNow
  | 0x1104 => if 1 ≤ sub then otp (0x80 + 48 * (sub - 1)) 48 else none
  | 0x1105 => if 1 ≤ sub then otp (0x13F + sub) 1 else none
  | 0x1106 => if sub = 1 then some s.arbFirmware else if sub = 2 then some s.arbSlipcase else none
  | 0x1108 => if 1 ≤ sub then otp (0x1C0 + 64 * sub) 64 else none
  | 0x1103 => some s.devWrapPub
  | 0x110B => if sub = 1 then some s.nv.kxFirmware else if sub = 2 then some s.nv.kxDebug else none
  | 0x110C => some s.debugNow
  | 0x110D => some s.challenge
  | _ => none

/-- Computed entries from 0x1400 to 0x15FF (R864, R865). -/
def State.powerValue (s : State) (idx sub : Nat) : Option Nat :=
  match idx, sub with
  | 0x1400, 1 => some (powerCode s.power)
  | 0x1400, 3 => some s.capNow
  | 0x1400, 4 => some s.sprintNow
  | 0x1400, 5 => some (s.bayMask fun x => x.power == .running)
  | 0x1400, 6 => some (s.bayMask Bay.powered)
  | 0x1500, 5 => some (s.rd (Key.profSkinLimit s.part))
  | _, _ => none

/-- Computed entries from 0x1600 to 0x17FF (R599, R656, R716). -/
def State.storeValue (s : State) (idx sub : Nat) : Option Nat :=
  match idx, sub with
  | _, 0 => if idx = 0x1603 then some s.claimMask else if idx = 0x1604 then some s.bgBusy else none
  | 0x1601, 1 => some s.t3Service
  | 0x1601, 2 => some (s.t3Service - (s.liveEntries.map LibEntry.mib).sum)
  | 0x1601, 3 => some (s.liveEntries.map fun x => ceilDiv x.xoStripes 4).sum
  | 0x1601, 4 => some (s.liveEntries.map fun x => x.mib - ceilDiv x.xoStripes 4).sum
  | 0x1602, n => some (if s.groupInService (n - 1) then 0 else 1)
  | 0x1605, n => some (4 - Tab.get s.nv.sparesUsed 0 (n - 1))
  | 0x1612, 1 => some s.nv.press.length
  | 0x1615, 2 => some s.nv.moves.length
  | 0x1615, 6 => some s.nv.dirty.length
  | 0x1615, 7 => some s.scrubAge
  | 0x1616, n => some (s.bandReadsMax (n - 1))
  | 0x1617, n => some (s.cyclesMax (n - 1))
  | 0x1700, 4 => some (s.freeLeaves true)
  | 0x1700, 5 => some (s.freeLeaves false)
  | 0x1700, 6 => some s.zeroBacklog
  | 0x1703, 1 => some s.tiers.pool.length
  | 0x1703, 2 => some (s.tiers.pool.filter s.poolPinned).length
  | _, _ => none

/-- Computed entries from 0x1800 to 0x1CFF (R769, R832, R206, R923). -/
def State.otherValue (s : State) (idx sub : Nat) : Option Nat :=
  match idx, sub with
  | 0x1800, 1 => some ((allE.filter fun e => (s.lib e).installed).length)
  | 0x1800, 2 => some s.loadsRunning
  | 0x1800, 3 => some s.stagingCode
  | 0x1801, n => if 1 ≤ n then some (leNat (s.libBytes (n - 1))) else none
  | 0x1802, n => if 1 ≤ n then some (s.lib (n - 1)).hash else none
  | 0x1900, 1 => some s.sentStateNow
  | 0x1900, 2 => some (if s.sentBound then 1 else 0)
  | 0x1B04, _ => some s.i3c.tickets.length
  | 0x1C18, 4 => some (if s.clk.crystal then 1 else 0)
  | 0x1C22, _ => some (allQ.foldl (fun m q => if s.shortSet q then m + 2 ^ q.val else m) 0)
  | _, _ => none

/-- An entry's computed value, if it has one. -/
def State.computed (s : State) (idx sub : Nat) : Option Nat :=
  if 0x3000 ≤ idx ∧ idx < 0x4000 then some (s.mirror (idx - 0x3000))
  else if 0x2000 ≤ idx ∧ idx < 0x2800 then s.blockValue (Fin.ofNat 8 ((idx - 0x2000) / 256)) (idx % 256) sub
  else if idx < 0x1400 then s.idValue idx sub
  else if idx < 0x1600 then s.powerValue idx sub
  else if idx < 0x1800 then s.storeValue idx sub
  else s.otherValue idx sub

/-- What an entry reads. -/
def State.entryValue (s : State) (idx sub : Nat) : Nat := (s.computed idx sub).getD (s.rd (keyOf idx sub))

/-- The result block of a CMD entry, its card result `n` bytes (R113). -/
def CmdBlock.bytes (x : CmdBlock) (n : Nat) : List Byte :=
  natLe 1 (match x.state with
    | .never => 0
    | .running => 1
    | .done => 2) ++ natLe 1 x.result ++ natLe 2 x.runs.toNat ++ bytesAt x.card 0 n

def Access.isRs : Access → Bool
  | .rs _ => true
  | _ => false

/-- The bytes a read returns; VIEW selects the staged copy of an RS entry (R110, R113, R116, R119). -/
def State.readBytes (s : State) (c : Card) (idx sub : Nat) (view : Bool) : List Byte :=
  match c.ty with
  | .cmd _ n => (s.cmd (keyOf idx sub)).bytes n
  | ty => valueBytes ty (if view && c.access.isRs then s.staged (keyOf idx sub) else s.entryValue idx sub)

end Sys2Proof.Machine
end

