-- ==== Sys2Proof/Machine/Dictionary.lean ====
section
/-! DEFINITION. The dictionary engine (03): the checks of R929, what a read or a write of an entry does, the queue of
held cold requests, and the completion of a held one. -/

namespace Sys2Proof.Machine

/-! ### Single writes that are no other unit's -/

/-- A write to a stored entry that programs it, or is refused for want of parameter sectors (R127, R128, R646); the
refusal changes no entry (R136), the level cause is set at its own checks (R910). -/
def State.store (s : State) (k v : Nat) : Nat × State :=
  if s.rd k = v then (DS.ok, s)
  else if s.paramFull then (DS.state, s)
  else (DS.ok, s.wrStored k v)

/-- A write of a plain RW entry: its own range, then both copies of an S entry, the value of any other. Enables of
in-band interrupts are judged again (R110, R127, R185). -/
def State.writePlain (s : State) (c : Card) (k v : Nat) : Nat × State :=
  if ¬ ownRange s.sku k v then (DS.range, s)
  else if c.cls = .s then s.store k v
  else (DS.ok, (s.wr k v).ibiRefresh)

/-- A second entry's record in the two units just programmed: one two-copy write (R244). -/
def State.alsoRecord (s : State) (k v : Nat) : State :=
  s.setNv { s.nv with recs := s.nv.recs ++ s.twoCopies k v ((s.lastSeq k + 1) % 2 ^ 32) }

/-- COLOPHON_TAG: the tag and the count in one two-copy write (R244, R245). -/
def colophonTagWrite (n v : Nat) (s : State) : Nat × State :=
  if s.rdB Key.colophonLocked ∨ 10000 ≤ s.rd Key.colophonWrites then (DS.locked, s)
  else if s.rd (Key.colophonTag n) = v then (DS.ok, s)
  else if s.paramFull then (DS.state, s)
  else
    let s := ((s.paramRecord (Key.colophonTag n) v).wr (Key.colophonTag n) v).count Key.colophonWrites
    (DS.ok, s.alsoRecord Key.colophonWrites (s.rd Key.colophonWrites))

/-- COLOPHON_LOCK (R246). -/
def colophonLockWrite (arg : List Byte) (s : State) : Nat × State :=
  if fieldLe arg 0 4 ≠ 0x10C40019 then (DS.range, s)
  else s.ifIdle Key.colophonLock fun s => (s.wrStored Key.colophonLocked 1).cmdDone Key.colophonLock DS.ok []

/-- DEVICE_RESET: the run completes and the device reset follows (R223, R224); the read counts are checkpointed (R628). -/
def deviceResetWrite (arg : List Byte) (s : State) : Nat × State :=
  if fieldLe arg 0 4 ≠ 0x7E5E7019 then (DS.range, s)
  else s.ifIdle Key.deviceReset fun s =>
    let s := (s.cmdDone Key.deviceReset DS.ok []).checkpoint
    s.setNv { s.nv with boot := { s.nv.boot with resetDue := some LR.deviceReset }, ckptDue := true }

/-- RECOVERY_LOAD: the staged image is verified, programmed into the slot the commit record does not name, read back
and committed; the device reset follows, which samples no strap (R239 to R241). -/
def recoveryLoadWrite (viaI3c : Bool) (arg : List Byte) (env : Env) (s : State) : Nat × State :=
  let len := fieldLe arg 0 4
  if s.boot ≠ .recovery ∨ viaI3c then (DS.state, s)
  else if 655360 < len then (DS.range, s)
  else s.ifIdle Key.recoveryLoad fun s =>
    let slotB := (s.nv.boot.named.map fun b => !b).getD false
    let fail := fun (s : State) => s.cmdDone Key.recoveryLoad DS.state []
    if ¬ s.imageOk s.tiers.recovery len then fail s
    else
      let s := s.setNv { s.nv with boot := s.nv.boot.putSlot slotB s.tiers.recovery len }
      if ¬ env.readBack then fail s
      else
        let b := s.nv.boot.commitSlot slotB
        (s.setNv { s.nv with boot := { b with resetDue := some LR.recovery, skipBootsel := true } }).cmdDone
          Key.recoveryLoad DS.ok []

/-- The largest sum, over the stored profiles, of a quota that every profile gives each quire. -/
def State.profileSums (s : State) (f : Nat → Nat → Nat) : List Nat :=
  (List.range 4).map fun p => ((upFrom 1 8).map fun n => s.rd (f p n)).sum

/-- T1_SHARED_POOL: every stored profile's T1 quotas leave the pool its leaves (R716). -/
def sharedPoolWrite (v : Nat) (s : State) : Nat × State :=
  if 1024 < v ∨ (s.profileSums Key.profQuotaT1).any (fun t => decide (13897 - v < t)) then (DS.range, s)
  else s.store Key.t1SharedPool v

/-- T2_INLINE_ECC: true asks that every stored profile's T2 quotas fit the smaller capacity (R710, R711). -/
def t2InlineEccWrite (v : Nat) (s : State) : Nat × State :=
  if 1 < v ∨ (v = 1 ∧ (s.profileSums Key.profQuotaT2).any fun t => decide (t2Cap (s.rd Key.t2Channels) true < t)) then
    (DS.range, s)
  else s.store Key.t2InlineEcc v

/-- FW_STAGE_OFFSET (R651, R656). -/
def fwOffsetWrite (v : Nat) (s : State) : Nat × State :=
  if ¬ ownRange s.sku Key.fwStageOffset v then (DS.range, s)
  else if s.cmdRunning Key.fwUpdate then (DS.busy, s)
  else (DS.ok, s.wr Key.fwStageOffset v)

def isFactory : Role → Bool
  | .factory => true
  | _ => false

/-- Who a PRESS_SUBMIT_H write submits for (R600). -/
def pressSourceOf : Role → PressSource
  | .factory => .factory
  | _ => .host

/-! ### What a write does, its card's shape given -/

/-- Commands of a quire's block. -/
def serveBlock (q : QNum) (c : Card) (r : Request) (s : State) : Nat × State :=
  match r.idx % 256 with
  | 0x01 => qEnableWrite q s
  | 0x02 => qDisableWrite q r.data s
  | 0x03 => qResetWrite q s
  | 0x04 => qDmaFaultWrite q (leNat r.data) s
  | 0x42 => stitchConfig q r.data s
  | _ => s.writePlain c (keyOf r.idx r.sub) (leNat r.data)

/-- Entries from 0x1000 to 0x15FF. -/
def serveLow (c : Card) (r : Request) (env : Env) (viaI3c : Bool) (s : State) : Nat × State :=
  let v := leNat r.data
  match r.idx with
  | 0x1080 => colophonTagWrite r.sub v s
  | 0x1082 => colophonLockWrite r.data s
  | 0x1101 => lcTransitionWrite (isFactory r.role) r.data env s
  | 0x1107 => arbAdvanceWrite r.data s
  | 0x1109 => classKeyWrite r.sub r.data s
  | 0x110E => debugUnlockWrite r.data env s
  | 0x1201 => profileSwitchWrite r.data s
  | 0x1301 => deviceResetWrite r.data s
  | 0x1306 => recoveryLoadWrite viaI3c r.data env s
  | 0x1401 => pwrRequestWrite r.data s
  | 0x1501 => thermBoardWrite v s
  | _ => s.writePlain c (keyOf r.idx r.sub) v

/-- Entries from 0x1600 up. -/
def serveHigh (c : Card) (r : Request) (env : Env) (s : State) : Nat × State :=
  let v := leNat r.data
  match r.idx with
  | 0x1610 => pressSubmit (pressSourceOf r.role) r.data s
  | 0x1611 => pressSubmit (.quire (Fin.ofNat 8 (r.sub - 1))) r.data s
  | 0x1618 => fwOffsetWrite v s
  | 0x1619 => fwStageWrite r.data s
  | 0x161A => fwUpdateWrite r.data env s
  | 0x1701 => sharedPoolWrite v s
  | 0x1702 => t2InlineEccWrite v s
  | 0x1804 => libRemoveWrite v s
  | 0x1808 => peerAcceptWrite r.data env s
  | 0x1809 => peerExportWrite r.data env s
  | 0x1901 => if 1 < v then (DS.range, s) else sentEnableWrite (v == 1) s
  | 0x1902 => sentArmWrite r.data s
  | 0x1903 => sentDisarmWrite s
  | 0x1907 => sentWakeWrite v s
  | 0x1A01 => wdtServiceWrite v s
  | 0x1A02 => if r.sub = 1 then wdtPeriodWrite v s else s.writePlain c (keyOf r.idx r.sub) v
  | 0x1C02 => alertClearWrite v s
  | _ => s.writePlain c (keyOf r.idx r.sub) v

/-- A write by its card: COMMIT, PROF_RESTORE, a member of a staged set, a quire's block, or the range it lies in. -/
def serveOp (c : Card) (r : Request) (env : Env) (viaI3c : Bool) (s : State) : Nat × State :=
  match setOfCommit r.idx, setOfMember s.sku r.idx r.sub with
  | some i, _ => commitWrite i r.data s
  | none, some i => stagedMemberWrite i (keyOf r.idx r.sub) (leNat r.data) r.role s
  | none, none =>
    if 0x1210 ≤ r.idx ∧ r.idx < 0x1250 then profRestoreWrite (Fin.ofNat 4 ((r.idx - 0x1210) / 16)) r.role s
    else if 0x2000 ≤ r.idx ∧ r.idx < 0x2800 then serveBlock (Fin.ofNat 8 ((r.idx - 0x2000) / 256)) c r s
    else if r.idx < 0x1600 then serveLow c r env viaI3c s
    else serveHigh c r env s

/-- A lock forbids a write to the index (R213, R245, R891). -/
def State.locks (s : State) (idx : Nat) : Bool :=
  (idx == 0x1080 && (s.rdB Key.colophonLocked || decide (10000 ≤ s.rd Key.colophonWrites))) ||
  (idx == 0x1201 && s.rdB Key.profilePinLock) || (idx == 0x110E && decide (8 ≤ s.rd Key.debugUnlockFails))

/-- Entries the dictionary serves in recovery boot (R237). -/
def inRecovery (idx : Nat) : Bool :=
  decide (0x1000 ≤ idx ∧ idx ≤ 0x1009) || idx == 0x1303 || idx == 0x1300 || idx == 0x1306

def State.recoveryBars (s : State) (idx : Nat) : Bool := s.boot == .recovery && !inRecovery idx

/-- A write with VIEW set returns RANGE, unless an earlier status of R135 applies (R118). -/
def beforeRange (st : Nat) : Bool := st == DS.role || st == DS.locked || st == DS.state || st == DS.stagedConflict

/-- A TEXT write that is no UTF-8 or holds a byte 0x00, a trailing one included (R110). -/
def badText (c : Card) (data : List Byte) : Bool :=
  match c.ty with
  | .text _ => !textOk data
  | _ => false

/-- A write that has passed R929. In recovery boot every entry but those of R237 answers STATE; a press entry that answers
ROLE comes first (R135). -/
def serveWrite (c : Card) (r : Request) (env : Env) (viaI3c : Bool) (s : State) : Nat × State :=
  if s.locks r.idx then (DS.locked, s)
  else
    let a := serveOp c r env viaI3c s
    if s.recoveryBars r.idx then (if a.1 = DS.role then DS.role else DS.state, s)
    else if r.view || badText c r.data then (if beforeRange a.1 then a.1 else DS.range, s)
    else a

/-- A request that has passed R929: its status, the data of a read, the state after. -/
def serve (c : Card) (r : Request) (env : Env) (viaI3c : Bool) (s : State) : Nat × List Byte × State :=
  if r.write then
    let a := serveWrite c r env viaI3c s
    (a.1, [], a.2)
  else if s.recoveryBars r.idx then (DS.state, [], s)
  else (DS.ok, s.readBytes c r.idx r.sub r.view, s)

/-! ### The checks of R929 -/

/-- The role a grant gives the direction to; a quire reaches its own block, its own press entry and, Q7 alone, the
sentinel range (R121, R123, R124, R600, R793). -/
def grants (g : Grant) (role : Role) (idx sub : Nat) : Bool :=
  match g, role with
  | .none, _ => false
  | .all, _ => true
  | .h, .hostP => true
  | .h, .factory => true
  | .hq, .hostP => true
  | .hq, .factory => true
  | .q, .quire q => mine q
  | .hq, .quire q => mine q
  | _, _ => false
where
  mine (q : QNum) : Bool :=
    if 0x2000 ≤ idx ∧ idx < 0x2800 then inBlock q idx
    else if idx / 256 = 0x19 then q == 7
    else if idx = 0x1611 then sub == 0 || sub == q.val + 1
    else true

/-- The first of NO_ENTRY, NO_SUB, ACCESS, ROLE and TYPE_LEN that applies. No role: FACTORY through a quire mailbox
(R122). -/
def State.shapeFail (s : State) (role : Option Role) (write : Bool) (idx sub len : Nat) : Option Nat :=
  if cardsAt idx = [] then some DS.noEntry
  else
    match cardOf s.sku idx sub with
    | none => some DS.noSub
    | some c =>
      let barred : Bool := match c.access with
        | .ro => write
        | .wo => !write
        | _ => false
      let may : Bool := match role with
        | none => false
        | some x => !(isFactory x && decide (lcField ≤ s.lc)) && grants (if write then c.write else c.read) x idx sub
      if barred then some DS.access
      else if ¬ may then some DS.role
      else if write ∧ ¬ lengthOk c.ty len then some DS.typeLen
      else none

/-! ### Hot and cold (R131, R154 to R158, R235) -/

/-- The dictionary engine answers (R235). -/
def State.dictUp (s : State) : Bool :=
  !s.heldInReset && match s.power with
    | .sOff => false
    | _ => true

/-- A write to the entry is held (R157). -/
def State.writeHeld (s : State) (idx sub : Nat) : Bool :=
  s.dict.cold.any fun c => c.1.write && c.1.idx == idx && c.1.sub == sub

/-- The request is answered by the always-on domain. -/
def State.isHot (s : State) (c : Card) (write : Bool) (idx sub : Nat) : Bool :=
  (match c.resp with
    | .hot => !write
    | .hotRw => !write || s.boot != .waiting
    | .cold => false) && !s.writeHeld idx sub

/-- What becomes of a request at its arrival. -/
inductive Verdict where
  | final (status : Nat) (data : List Byte)
  | hold (r : Request)
  deriving DecidableEq, Repr

/-- A request with its flags byte: R929, then hot service, or it is to be held. -/
def State.intake (s : State) (role : Option Role) (flags idx sub : Nat) (data : List Byte) : Verdict × State :=
  let write := bit flags 0
  if 8 ≤ flags then (.final DS.range [], s)
  else
    match s.shapeFail role write idx sub data.length with
    | some st => (.final st [], s.noteStatus st)
    | none =>
      let r : Request :=
        { role := role.getD .hostP, write := write, view := bit flags 1, idx := idx, sub := sub, data := data }
      match cardOf s.sku idx sub with
      | some c =>
        if s.isHot c write idx sub then
          let a := serve c r {} false s
          (.final a.1 a.2.1, a.2.2)
        else (.hold r, s)
      | none => (.final DS.noSub [], s)

/-- 32 cold requests are held: BUSY, counted (R158). -/
def State.coldFull (s : State) : Bool := decide (32 ≤ s.dict.cold.length)

def State.countBusy (s : State) : State := s.count Key.dictBusy

/-- A cold request is held; it wakes the Q19 (R861). -/
def State.holdCold (s : State) (r : Request) (reply : Reply) : State :=
  (s.setDict { s.dict with cold := s.dict.cold ++ [(r, reply)] }).wakeDemand

/-- The management controller serves cold requests (R90, R235). -/
def State.mcServes (s : State) : Bool := s.running && s.coreOn && !s.pm.waking && s.clk.nvPll

/-! ### Completion of a held request (R137, R180, R199) -/

/-- A mailbox request reaches DONE: the response, then the message if IRQ was set (R199). -/
def State.mboxDone (s : State) (i : Fin 9) (st : Nat) (data : List Byte) : State :=
  let m := s.mboxes.get i
  let s := { s with mboxes := s.mboxes.set i.val { m with
    rspState := .done, rspStatus := st, rspLength := data.length, rspTag := m.reqTag, rspData := data, irq := false } i.isLt }
  if m.irq then s.msixSend (if i.val = 8 then s.rd Key.mboxVector else 8 * i.val + 7) else s

/-- The final status of a held request goes where the request came from. -/
def State.deliver (s : State) (reply : Reply) (st : Nat) (data : List Byte) : State :=
  match reply with
  | .discard => s
  | .row => s.answer st
  | .ticket n =>
    (s.setI3c { s.i3c with tickets := Tab.put s.i3c.tickets n (some (.complete st data)) }).ibiDue 0 n
  | .mbox i => s.mboxDone i st data

/-- DEFER_COMPLETION: the oldest held request is served and its answer delivered; a sleep entry waiting for it goes
on. -/
def deferCompletion (env : Env) (s : State) : State :=
  match s.dict.cold with
  | [] => s
  | (r, reply) :: t =>
    if ¬ s.mcServes then s
    else
      let s := s.setDict { s.dict with cold := t }
      let viaI3c : Bool := match reply with
        | .ticket _ => true
        | _ => false
      match cardOf s.sku r.idx r.sub with
      | some c =>
        let a := serve c r env viaI3c s
        (a.2.2.noteStatus a.1).deliver reply a.1 a.2.1
      | none => s

def execDeferCompletion (env : Env) (s : State) : Host.Outcome State Fault Refusal := .next (deferCompletion env s)

end Sys2Proof.Machine
end

