-- ==== Sys2Proof/Machine/Bar0.lean ====
section
/-! DEFINITION. BAR0 (04, 06): the regions and their registers, mailboxes, doorbell pages, the MSI-X table, what a read
returns, and the function's configuration. -/

namespace Sys2Proof.Machine

/-! ### Regions (R190, R249, R251, R254) -/

/-- What lies at a BAR0 byte offset. -/
inductive Bar0At where
  /-- a read-only register byte -/
  | readOnly
  | msix (n : Fin 64) (byte : Nat)
  | mbox (i : Fin 9) (o : Nat)
  | doorbell (q : QNum) (o : Nat)
  | reserved
  deriving DecidableEq, Repr

/-- Bytes of the doorbell registers of a page. -/
def isDoorbell (o : Nat) : Bool :=
  [0x00, 0x08, 0x10, 0x18, 0x20, 0x40].any fun r => decide (r ≤ o ∧ o < r + 4)

/-- Bytes of the read-only registers of a doorbell page. -/
def isPageRo (o : Nat) : Bool :=
  decide (0x80 ≤ o ∧ o < 0x8B) || decide (0x90 ≤ o ∧ o < 0xA8)

def bar0At (off : Nat) : Bar0At :=
  if off < 0x1000 then (if off < 4 ∨ (8 ≤ off ∧ off < 0x18) then .readOnly else .reserved)
  else if 0x10000 ≤ off ∧ off < 0x10400 then .msix (Fin.ofNat 64 ((off - 0x10000) / 16)) (off % 16)
  else if 0x18000 ≤ off ∧ off < 0x18008 then .readOnly
  else if 0x80000 ≤ off ∧ off < 0x81000 then .mbox 8 (off - 0x80000)
  else if 0x100000 ≤ off ∧ off < 0x180000 then
    let q : QNum := Fin.ofNat 8 ((off - 0x100000) / 0x10000)
    let o := off % 0x10000
    if 0xF000 ≤ o then .mbox (Fin.castSucc q) (o - 0xF000)
    else if isDoorbell o then .doorbell q o
    else if isPageRo o then .readOnly
    else .reserved
  else .reserved

/-- A PCIe memory request does not cross an aligned 4 KiB boundary (log entry 32). -/
def inPage (off len : Nat) : Bool := decide (0 < len ∧ off % 4096 + len ≤ 4096)

/-! ### MSI-X (R199, R200, R249) -/

/-- Messages that became pending go out once their vector can send. -/
def State.flushPba (s : State) : State :=
  (List.finRange 64).foldl (fun s v =>
    let e := s.msix.table.get v
    if bit s.msix.pba.toNat v.val ∧ s.fn.msixEnable ∧ ¬ s.fn.funcMask ∧ ¬ e.masked then
      ({ s with msix := { s.msix with pba := s.msix.pba &&& ~~~(BitVec.ofNat 64 (2 ^ v.val)) } } : State).emit
        (.msix v.val e.addr e.data)
    else s) s

/-- Byte `k` of a number becomes `b`. -/
def setByteOf (v k : Nat) (b : Byte) : Nat := v - v / 256 ^ k % 256 * 256 ^ k + b.toNat * 256 ^ k

/-- A byte of an MSI-X table entry: address (bits [1:0] zero), data, vector control (bit 0 the mask). -/
def MsixEntry.setByte (e : MsixEntry) (k : Nat) (b : Byte) : MsixEntry :=
  if k < 8 then { e with addr := BitVec.ofNat 64 (setByteOf e.addr.toNat k b / 4 * 4) }
  else if k < 12 then { e with data := BitVec.ofNat 32 (setByteOf e.data.toNat (k - 8) b) }
  else if k = 12 then { e with masked := b.getLsbD 0 }
  else e

def State.setMsixByte (s : State) (n : Fin 64) (k : Nat) (b : Byte) : State :=
  { s with msix := { s.msix with table := s.msix.table.set n.val ((s.msix.table.get n).setByte k b) n.isLt } }

/-- The host unmasks a vector (R200). -/
def msixVectorUnmask (v : Fin 64) (s : State) : State :=
  if s.barUp then
    ({ s with msix := { s.msix with
      table := s.msix.table.set v.val { s.msix.table.get v with masked := false } v.isLt } } : State).flushPba
  else s

def execMsixVectorUnmask (v : Fin 64) (s : State) : Host.Outcome State Fault Refusal := .next (msixVectorUnmask v s)

/-- A configuration write: D-state, MSI-X enable and function mask, ASPM L1 enable, the payload and read request sizes.
D3hot takes an L0 link to L1; the device's power state stays (R248, R863, log entry 33). -/
def configSpaceWrite (dstate : Fin 4) (msixEnable funcMask aspmL1 : Bool) (mps mrrs : Fin 8) (s : State) : State :=
  if ¬ s.barUp then s
  else
    let s := { s with fn := { s.fn with
      dstate := dstate, msixEnable := msixEnable, funcMask := funcMask, aspmL1 := aspmL1, mps := mps, mrrs := mrrs } }
    let s := if dstate = 3 ∧ s.rd Key.pcieLinkState = linkL0 then s.wr Key.pcieLinkState linkL1 else s
    s.flushPba

def execConfigSpaceWrite (dstate : Fin 4) (msix : MsixControl) (aspmL1 : Bool) (ctl : DeviceControl) (s : State) :
    Host.Outcome State Fault Refusal := .next (configSpaceWrite dstate msix.enable msix.funcMask aspmL1 ctl.mps ctl.mrrs s)

/-! ### Configuration space (R248) -/

/-- The payload size in force: 128 or 256 bytes. -/
def PcieFn.payloadBytes (x : PcieFn) : Nat := if x.mps.val = 0 then 128 else 256

/-- The read request size in force: 128, 256 or 512 bytes; a larger setting acts as 512. -/
def PcieFn.readBytes (x : PcieFn) : Nat := 128 * 2 ^ min x.mrrs.val 2

/-- What R248 fixes of the configuration header, as (offset, bytes, value): Vendor and Device ID, revision, class code, a
header of one function without INTx; BAR0 and BAR2 64-bit, BAR2 prefetchable, no BAR4 and no expansion ROM. The offsets are
those of the PCI Express Base specification (log entry 101). -/
def configHeader (sku : Sku) : List (Nat × Nat × Nat) :=
  [(0x00, 2, 0x1F3D), (0x02, 2, match sku with | .q24 => 0xF019 | .q16 => 0xF016), (0x08, 1, 0xB1), (0x09, 3, 0x120000),
   (0x0E, 1, 0x00), (0x10, 1, 0x04), (0x18, 1, 0x0C), (0x20, 4, 0), (0x30, 4, 0), (0x3D, 1, 0)]

/-- The field of the configuration header a read of `n` bytes at an offset gives, where R248 fixes it. -/
def State.configRead (s : State) (off n : Nat) : Option Nat :=
  ((configHeader s.sku).find? fun f => f.1 == off && f.2.1 == n).map fun f => f.2.2

/-- What the function has beyond the header (R248). -/
inductive PcieFeature where
  | express
  | tenBitTags
  | relaxedOrdering
  | pasid20
  | msix64
  | aspmL1
  | l11
  | l12
  | ltr
  | aer
  | flr
  | pmeD3cold
  | sriov
  | ari
  | noSnoop
  | idOrdering
  | atomics
  | tph
  | ptm
  | resizableBar
  | ats
  | pri
  | msi
  | intx
  | aspmL0s
  deriving DecidableEq, Repr

/-- Supported (R248). -/
def PcieFeature.supported : PcieFeature → Bool
  | .express => true
  | .tenBitTags => true
  | .relaxedOrdering => true
  | .pasid20 => true
  | .msix64 => true
  | .aspmL1 => true
  | .l11 => true
  | .l12 => true
  | .ltr => true
  | .aer => true
  | .flr => true
  | .pmeD3cold => true
  | _ => false

/-! ### Mailboxes (R191 to R200) -/

def State.mbox (s : State) (i : Fin 9) : Mbox := s.mboxes.get i
def State.setMbox (s : State) (i : Fin 9) (m : Mbox) : State := { s with mboxes := s.mboxes.set i.val m i.isLt }

/-- The mailbox holds a request that has not reached DONE: every write to it is discarded (R195). -/
def Mbox.held (m : Mbox) : Bool :=
  match m.rspState with
  | .busy => true
  | .deferred => true
  | _ => false

/-- A byte of the mailbox's writable registers. -/
def Mbox.setByte (m : Mbox) (o : Nat) (b : Byte) : Mbox :=
  if o < 2 then { m with reqIndex := BitVec.ofNat 16 (setByteOf m.reqIndex.toNat o b) }
  else if o = 2 then { m with reqSub := b }
  else if o = 3 then { m with reqFlags := b }
  else if 4 ≤ o ∧ o < 6 then { m with reqLength := BitVec.ofNat 16 (setByteOf m.reqLength.toNat (o - 4) b) }
  else if 8 ≤ o ∧ o < 12 then { m with reqTag := BitVec.ofNat 32 (setByteOf m.reqTag.toNat (o - 8) b) }
  else if 0x100 ≤ o ∧ o < 0x200 then { m with reqData := Mem.write m.reqData (o - 0x100) b }
  else m

/-- The role of a mailbox's request; none: FACTORY through a quire mailbox (R120, R122). -/
def mboxRole (i : Fin 9) (flags : Nat) : Option Role :=
  if h : i.val < 8 then (if bit flags 2 then none else some (.quire ⟨i.val, h⟩))
  else some (if bit flags 2 then .factory else .hostP)

/-- The request of the REQ registers is submitted (R193, R196, R197). A held one waits DEFERRED. -/
def State.submitMbox (s : State) (i : Fin 9) (irq : Bool) : State :=
  let m := s.mbox i
  let s := s.setMbox i { m with rspState := .busy, irq := irq }
  let flags := m.reqFlags.toNat
  let len := m.reqLength.toNat
  if flags < 8 ∧ (256 < len ∨ (¬ bit flags 0 ∧ len ≠ 0)) then s.mboxDone i DS.typeLen []
  else
    match s.intake (mboxRole i flags) flags m.reqIndex.toNat m.reqSub.toNat (Mem.readN m.reqData 0 len) with
    | (.final st d, s) => s.mboxDone i st d
    | (.hold r, s) =>
      if s.coldFull then s.countBusy.mboxDone i DS.busy []
      else (s.setMbox i { s.mbox i with rspState := .deferred, rspStatus := DS.defer }).holdCold r (.mbox i)

/-- A write to GO (R193 to R195). -/
def mboxGo (i : Fin 9) (v : Nat) (s : State) : State :=
  if ¬ s.barUp then s
  else if (s.mbox i).held then s.count Key.mboxDiscards
  else if 4 ≤ v then s.setMbox i { s.mbox i with rspState := .done, rspStatus := DS.range }
  else if bit v 0 then s.submitMbox i (bit v 1)
  else s

def execMboxGo (box : Fin 9) (v : BitVec 32) (s : State) : Host.Outcome State Fault Refusal := .next (mboxGo box v.toNat s)

/-- A write into a mailbox at offset `o`: its registers take their bytes, and a write that covers GO submits. Reserved
offsets and read-only registers discard it (R191, R195). DESIGN CHOICE (log entry 89): of a write that covers only a
part of GO, the bytes not written count as 0, and it submits, or is judged by R194, at once. -/
def State.writeMbox (s : State) (i : Fin 9) (o : Nat) (data : List Byte) : State :=
  if (s.mbox i).held then s.count Key.mboxDiscards
  else
    let at_ := fun (n : Nat) => data.getD n 0
    let s := s.setMbox i ((List.range data.length).foldl (fun m n => m.setByte (o + n) (at_ n)) (s.mbox i))
    if o < 0x14 ∧ 0x10 < o + data.length then
      mboxGo i (leNat ((List.range 4).map fun n => if o ≤ 0x10 + n then at_ (0x10 + n - o) else 0)) s
    else s

/-! ### Doorbell registers (R254 to R259) -/

/-- The doorbell register at an offset of the page is written whole. -/
def State.ring (s : State) (q : QNum) (o : Nat) (v : BitVec 32) (whole : Bool) : State :=
  if o = 0x20 then cqHeadWrite q v whole s
  else if o = 0x40 then stitchDb q v whole s
  else sqTailWrite q (Fin.ofNat 4 (o / 8)) v whole s

/-- A write that touches doorbell registers: one aligned 4-byte write of one register, or discarded and counted. -/
def State.writeDoorbell (s : State) (q : QNum) (o : Nat) (data : List Byte) : State :=
  let whole := o % 4 == 0 && data.length == 4
  s.ring q (o / 4 * 4) (BitVec.ofNat 32 (leNat data)) whole

/-! ### Writes (R191, R249 to R251) -/

/-- The offsets of a write. -/
def span (off len : Nat) : List Nat := upFrom off len

def isReserved (off : Nat) : Bool := bar0At off == .reserved

/-- A write that touches a reserved offset is counted (R250). -/
def State.countReserved (s : State) (off len : Nat) : State :=
  if (span off len).any isReserved then s.count Key.bar0ReservedWrites else s

/-- A write to BAR0: the MSI-X table takes its bytes, a mailbox or a doorbell page its own way; read-only registers
discard it, reserved offsets discard and count it. -/
def registerWrite (off : Nat) (data : List Byte) (s : State) : State :=
  if ¬ s.barUp ∨ ¬ inPage off data.length then s
  else
    match (span off data.length).findSome? fun a => match bar0At a with
      | .doorbell q o => some (q, o, a)
      | _ => none with
    | some (q, o, a) =>
      s.writeDoorbell q (if a = off then o else o - o % 4) (if a = off then data else [])
    | none =>
      match bar0At off with
      | .mbox i o => s.writeMbox i o data
      | _ =>
        let s := (List.range data.length).foldl (fun s n =>
          match bar0At (off + n) with
          | .msix m k => s.setMsixByte m k (data.getD n 0)
          | _ => s) s
        (s.countReserved off data.length).flushPba

def execRegisterWrite (off : BitVec 24) (data : List Byte) (s : State) : Host.Outcome State Fault Refusal :=
  .next (registerWrite off.toNat data s)

/-- A write to reserved offsets alone is discarded and counted (R250); any other offset is another row's (log entry 3). -/
def bar0ReservedWrite (off : Nat) (data : List Byte) (s : State) : State :=
  if s.barUp ∧ inPage off data.length ∧ (span off data.length).all isReserved = true then s.count Key.bar0ReservedWrites
  else s

def execBar0ReservedWrite (off : BitVec 24) (data : List Byte) (s : State) : Host.Outcome State Fault Refusal :=
  .next (bar0ReservedWrite off.toNat data s)

/-! ### Reads (R191, R198, R201 to R205, R250, R251, R254) -/

/-- Byte `k` of a number. -/
def byteOf (v k : Nat) : Byte := BitVec.ofNat 8 (v / 256 ^ k)

def Mbox.byte (m : Mbox) (o : Nat) : Byte :=
  if o < 2 then byteOf m.reqIndex.toNat o
  else if o = 2 then m.reqSub
  else if o = 3 then m.reqFlags
  else if 4 ≤ o ∧ o < 6 then byteOf m.reqLength.toNat (o - 4)
  else if 8 ≤ o ∧ o < 12 then byteOf m.reqTag.toNat (o - 8)
  else if o = 0x20 then (match m.rspState with
    | .idle => 0
    | .busy => 1
    | .deferred => 2
    | .done => 3)
  else if o = 0x21 then byteOf m.rspStatus 0
  else if 0x22 ≤ o ∧ o < 0x24 then byteOf m.rspLength (o - 0x22)
  else if 0x24 ≤ o ∧ o < 0x28 then byteOf m.rspTag.toNat (o - 0x24)
  else if 0x100 ≤ o ∧ o < 0x200 then Mem.read m.reqData (o - 0x100)
  else if 0x200 ≤ o ∧ o < 0x300 then m.rspData.getD (o - 0x200) 0
  else 0

/-- The readable registers of a doorbell page. -/
def Quire.pageByte (x : Quire) (o : Nat) : Byte :=
  if o < 0x20 ∧ o % 8 < 4 then byteOf (x.ring (Fin.ofNat 4 (o / 8))).tail (o % 8)
  else if 0x20 ≤ o ∧ o < 0x24 then byteOf x.cqHead (o - 0x20)
  else if 0x80 ≤ o ∧ o < 0x88 then byteOf (x.ring (Fin.ofNat 4 ((o - 0x80) / 2))).head (o % 2)
  else if 0x88 ≤ o ∧ o < 0x8A then byteOf x.cqTail (o - 0x88)
  else if o = 0x8A then byteOf (qstateCode x.state) 0
  else if 0x90 ≤ o ∧ o < 0x98 then byteOf x.ctrFetched.toNat (o - 0x90)
  else if 0x98 ≤ o ∧ o < 0xA0 then byteOf x.ctrCompleted.toNat (o - 0x98)
  else if 0xA0 ≤ o ∧ o < 0xA4 then byteOf x.ctrCqFull.toNat (o - 0xA0)
  else if 0xA4 ≤ o ∧ o < 0xA8 then byteOf x.ctrDb.toNat (o - 0xA4)
  else 0

/-- The global registers. -/
def State.globalByte (s : State) (o : Nat) : Byte :=
  if o < 4 then byteOf (idcodeOf s.sku) o
  else if 8 ≤ o ∧ o < 0x10 then byteOf (qstateCode (s.quire (Fin.ofNat 8 (o - 8))).state) 0
  else if 0x10 ≤ o ∧ o < 0x18 then byteOf s.rtc.toNat (o - 0x10)
  else 0

def MsixEntry.byte (e : MsixEntry) (k : Nat) : Byte :=
  if k < 8 then byteOf e.addr.toNat k
  else if k < 12 then byteOf e.data.toNat (k - 8)
  else if k = 12 then (if e.masked then 1 else 0)
  else 0

/-- What a BAR0 byte reads. -/
def State.bar0Byte (s : State) (off : Nat) : Byte :=
  match bar0At off with
  | .reserved => 0
  | .msix n k => (s.msix.table.get n).byte k
  | .mbox i o => (s.mbox i).byte o
  | .doorbell q o => (s.quire q).pageByte o
  | .readOnly =>
    if off < 0x1000 then s.globalByte off
    else if off < 0x20000 then byteOf s.msix.pba.toNat (off - 0x18000)
    else (s.quire (Fin.ofNat 8 ((off - 0x100000) / 0x10000))).pageByte (off % 0x10000)

/-- The bytes of a BAR0 read of 1 to 8 bytes within one aligned 8-byte unit; none for any other. -/
def State.bar0Read (s : State) (off len : Nat) : Option (List Byte) :=
  if 0 < len ∧ off % 8 + len ≤ 8 then some ((span off len).map s.bar0Byte) else none

/-- The completion the always-on responder sends for a BAR0 read of `len` bytes while the link is in L0, in every power
state except S-OFF: the bytes, or Unsupported Request for a read larger than 8 bytes or across an 8-byte unit (R201,
R202). It changes nothing and waits for nothing (R203). No completion: no read arrives (log entry 3). -/
def State.bar0Completion (s : State) (off len : Nat) : Option Output :=
  if s.barUp ∧ s.rd Key.pcieLinkState = linkL0 ∧ 0 < len then
    some (match s.bar0Read off len with
      | some l => .barRead l
      | none => .unsupportedRequest)
  else none

end Sys2Proof.Machine
end

