-- ==== Sys2Proof/Machine/Bar2.lean ====
section
/-! DEFINITION. BAR2 (06, 12, 14, 15): load staging, the two data windows, the T3 aperture, the device ring regions, and the
staging buffer of recovery boot. -/

namespace Sys2Proof.Machine

/-! ### Data windows (R705 to R709) -/

/-- An open speculation scope of a run names a range with the address (R546). -/
def State.inOpenScope (s : State) (q : QNum) (addr : Nat) : Bool :=
  (s.quire q).runs.any fun r => Run.inTagRanges { r with scopes := r.scopes.filter fun c => !c.closed } (2 ^ 16 - 1) addr

/-- Leaves of a window access: leaf index, first byte in its frame, bytes. -/
def windowPieces (w len : Nat) : List (Nat × Nat × Nat) :=
  let first := w / leafBytes
  let last := (w + len - 1) / leafBytes
  (upFrom first (last + 1 - first)).map fun i =>
    let lo := max w (leafBytes * i)
    (i, lo - leafBytes * i, min (w + len) (leafBytes * (i + 1)) - lo)

/-- The last frame of a window. -/
def lastFrame : Nat := 5956

/-- The leaf of a window is execute-only or a copy of one. -/
def State.windowXo (s : State) (q : QNum) (a : Addr) (i : Nat) : Bool :=
  decide (i ≤ lastFrame) && s.locXo (s.resolve q (a.advance i))

/-- The place of a window's leaf that the host reaches. A leaf in transit reads the same before and after its arrival,
and a write to its old place arrives with it (R700, R707). -/
def State.windowLeaf (s : State) (q : QNum) (a : Addr) (i : Nat) : Option (Place × Nat) :=
  if lastFrame < i ∨ s.inOpenScope q (a.advance i).encode then none
  else
    match s.resolve q (a.advance i) with
    | .own p n _ => some (p, n)
    | _ => none

/-- A read of a window: Completer Abort if it touches an execute-only leaf, else data or zeros leaf by leaf. -/
def State.windowRead (s : State) (q : QNum) (a : Addr) (w len : Nat) : State :=
  let ps := windowPieces w len
  match ps.find? fun p => s.windowXo q a p.1 with
  | some p => s.aptRefuse Key.aptXo 1 p.1 .completerAbort
  | none => s.emit (.barRead (ps.flatMap fun p => match s.windowLeaf q a p.1 with
      | some (pl, n) => Mem.readN (s.leaf pl n) p.2.1 p.2.2
      | none => List.replicate p.2.2 0))

/-- One leaf of a write; the answer says whether bytes were discarded. -/
def State.windowPut (s : State) (q : QNum) (a : Addr) (p : Nat × Nat × Nat) (bytes : List Byte) : State × Bool :=
  if s.windowXo q a p.1 then (s, true)
  else
    match s.windowLeaf q a p.1 with
    | some (pl, n) =>
      ((s.setLeaf pl n (Mem.writeL (s.leaf pl n) p.2.1 bytes)).forgetIdent q (a.advance p.1).encode, false)
    | none => (s, decide (p.1 ≤ lastFrame))

/-- A write of a window; an access with a discarded leaf counts once. -/
def State.windowWrite (s : State) (q : QNum) (a : Addr) (w : Nat) (data : List Byte) : State :=
  let r := (windowPieces w data.length).foldl (fun (t : State × Bool) p =>
    let u := t.1.windowPut q a p ((data.drop (leafBytes * p.1 + p.2.1 - w)).take p.2.2)
    (u.1, t.2 || u.2)) (s, false)
  if r.2 then r.1.count Key.bar2Discards else r.1

/-- An access of window `n` at `w` bytes from its base (R706 to R708). -/
def State.window (s : State) (n w : Nat) (write : Bool) (len : Nat) (data : List Byte) : State :=
  let qv := s.rd (if n = 0 then Key.bar2Win0Quire else Key.bar2Win1Quire)
  let av := s.rd (if n = 0 then Key.bar2Win0Addr else Key.bar2Win1Addr)
  if h : qv < 8 then
    match addrOf av with
    | some a => if write then s.windowWrite ⟨qv, h⟩ a w data else s.windowRead ⟨qv, h⟩ a w len
    | none => if write then s.count Key.bar2Discards else s.emit (.barRead (List.replicate len 0))
  else if write then s.count Key.bar2Discards
  else s.emit .unsupportedRequest

/-! ### Staging (R238, R705, R737) -/

/-- The host reaches load staging directly; a write of PRODUCED advances a staged load. -/
def State.stagingAccess (s : State) (off : Nat) (write : Bool) (len : Nat) (data : List Byte) : State :=
  if write then
    let s := s.setTiers { s.tiers with staging := Mem.writeL s.tiers.staging off data }
    if off < producedAt + 4 ∧ producedAt < off + data.length then s.consumeStaged else s
  else s.emit (.barRead (Mem.readN s.tiers.staging off len))

/-- The 640 KiB staging buffer of recovery boot; nothing else lies in BAR2 then. -/
def State.recoveryAccess (s : State) (off : Nat) (write : Bool) (len : Nat) (data : List Byte) : State :=
  if off < 0xA0000 then
    if write then s.setTiers { s.tiers with recovery := Mem.writeL s.tiers.recovery off data }
    else s.emit (.barRead (Mem.readN s.tiers.recovery off len))
  else if write then s
  else s.emit .unsupportedRequest

/-! ### Device ring regions (R252, R253) -/

/-- A ring region read, or written: the write lands when it is served, before every later doorbell; Relaxed Ordering would
only loosen that (R253, log entry 34). -/
def State.ringAccess (s : State) (off : Nat) (write : Bool) (len : Nat) (data : List Byte) : State :=
  if write then s.setTiers { s.tiers with rings := Mem.writeL s.tiers.rings off data }
  else s.emit (.barRead (Mem.readN s.tiers.rings off len))

/-! ### Arrival (R572, R575 to R581, R705, R709, R861) -/

/-- An access of BAR2 is served: staging, the two windows, the aperture, whose writes are discarded and counted (R578), the
ring regions. -/
def State.bar2Serve (s : State) (off : Nat) (write : Bool) (len : Nat) (data : List Byte) : State :=
  if off < 0x02000000 then s.stagingAccess off write len data
  else if off < 0x05000000 then s.window 0 (off - 0x02000000) write len data
  else if off < 0x08000000 then s.window 1 (off - 0x05000000) write len data
  else if off < 0x0F000000 then if write then s.count Key.aptWrites else s.aptRead (off - 0x08000000) len
  else s.ringAccess (off - 0x0F000000) write len data

/-- The core domain and T2 are powered and clocked: BAR2 accesses are served (R709). -/
def State.memUp (s : State) : Bool := s.coreOn && s.clk.lpddrPll

/-- BAR2 answers, and the access lies in one 4 KiB page (log entry 32). -/
def State.bar2Takes (s : State) (off len : Nat) : Bool := s.barUp && inPage off len

/-- An access of BAR2 arrives. It wakes a sleeping device and is served once the core domain and T2 are up (R709, R861). -/
def State.bar2Access (s : State) (off : Nat) (write : Bool) (len : Nat) (data : List Byte) : State :=
  if ¬ s.bar2Takes off (if write then data.length else len) then s
  else
    match s.boot with
    | .recovery => s.recoveryAccess off write len data
    | _ =>
      let s := s.wakeDemand
      if s.memUp then s.bar2Serve off write len data
      else s.setPm { s.pm with held := s.pm.held ++ [{ off := off, write := write, len := len, data := data }] }

/-- The accesses that waited are served, oldest first. -/
def State.serveHeld (s : State) : State :=
  if s.memUp then
    s.pm.held.foldl (fun s a => s.bar2Serve a.off a.write a.len a.data) (s.setPm { s.pm with held := [] })
  else s

/-- An access of BAR2 that no other row names: staging, a data window, or a read of a ring region (R252). -/
def bar2WindowAccess (off : Nat) (write : Bool) (len : Nat) (data : List Byte) (s : State) : State :=
  if 0x08000000 ≤ off ∧ (off < 0x0F000000 ∨ write) then s else s.bar2Access off write len data

def execBar2WindowAccess (off : BitVec 28) (write : Bool) (len : Nat) (data : List Byte) (s : State) :
    Host.Outcome State Fault Refusal := .next (bar2WindowAccess off.toNat write len data s)

/-- The writer advances PRODUCED (R738). -/
def stagingProducedWrite (v : Nat) (s : State) : State := if s.up then s.bar2Access producedAt true 4 (natLe 4 v) else s

def execStagingProducedWrite (v : BitVec 32) (s : State) : Host.Outcome State Fault Refusal :=
  .next (stagingProducedWrite v.toNat s)

/-- The aperture's offsets. -/
def inAperture (off : Nat) : Bool := decide (0x08000000 ≤ off ∧ off < 0x0F000000)

/-- A read of the aperture; in recovery boot nothing lies there. -/
def apertureRead (off len : Nat) (s : State) : State := if inAperture off then s.bar2Access off false len [] else s

def execApertureRead (off : BitVec 28) (len : Nat) (s : State) : Host.Outcome State Fault Refusal :=
  .next (apertureRead off.toNat len s)

/-- A write of the aperture is discarded and counted (R578). -/
def apertureWrite (off : Nat) (data : List Byte) (s : State) : State :=
  if inAperture off then s.bar2Access off true 0 data else s

def execApertureWrite (off : BitVec 28) (data : List Byte) (s : State) : Host.Outcome State Fault Refusal :=
  .next (apertureWrite off.toNat data s)

/-- A write to a device ring region (R252). -/
def bar2RingWrite (off : Nat) (data : List Byte) (s : State) : State :=
  if s.up ∧ 0x0F000000 ≤ off then s.bar2Access off true 0 data else s

def execBar2RingWrite (off : BitVec 28) (data : List Byte) (_relaxed : Bool) (s : State) :
    Host.Outcome State Fault Refusal := .next (bar2RingWrite off.toNat data s)

/-! ### Wakes that BAR2 accesses wait for (R85, R86, R709) -/

/-- WAKE_FROM_SLEEP. -/
def wakeFromSleep (s : State) : State := s.leaveSleep.serveHeld

def execWakeFromSleep (s : State) : Host.Outcome State Fault Refusal := .next (wakeFromSleep s)

/-- CLKIN_DETECTED: what waited for the clock goes on. -/
def clkinDetected (s : State) : State := s.detectClkin.serveHeld

def execClkinDetected (s : State) : Host.Outcome State Fault Refusal := .next (clkinDetected s)

end Sys2Proof.Machine
end

