-- ==== Sys2Proof/Machine/Commands.lean ====
section
/-! DEFINITION. The rows that are single writes of a dictionary entry: each is one request of a role, checked, served hot or
cold like any other, its status answered at once (log entry 29). -/

namespace Sys2Proof.Machine

/-- A request that a row of the table names. A cold one is served at once when the management controller can, else it is
held and answered DEFER, and its final status is answered when it is served (R137). -/
def dictRequest (role : Role) (idx sub : Nat) (data : List Byte) (env : Env) (s : State) : State :=
  if ¬ s.dictUp then s
  else
    match s.intake (some role) 1 idx sub data with
    | (.final st _, s) => s.answer st
    | (.hold r, s) =>
      if s.dict.cold = [] ∧ s.mcServes then
        match cardOf s.sku idx sub with
        | some c =>
          let a := serve c r env false s.wakeDemand
          (a.2.2.noteStatus a.1).answer a.1
        | none => s
      else if s.coldFull then s.countBusy.answer DS.busy
      else (s.holdCold r .row).answer DS.defer

/-- A request for the entry of a key. -/
def keyRequest (role : Role) (k : Nat) (data : List Byte) (s : State) (env : Env := {}) : Host.Outcome State Fault Refusal :=
  .next (dictRequest role (k / 256) (k % 256) data env s)

/-! ### Any entry, staged members, COMMIT (03) -/

def execDictWrite (role : Role) (idx : BitVec 16) (sub : Byte) (val : List Byte) (s : State) :
    Host.Outcome State Fault Refusal := .next (dictRequest role idx.toNat sub.toNat val {} s)

/-- A write of a staged member; an index and sub that name none are no such command (log entry 3). -/
def execStagedWrite (role : Role) (idx : BitVec 16) (sub : Byte) (val : List Byte) (s : State) :
    Host.Outcome State Fault Refusal :=
  .next (if (setOfMember s.sku idx.toNat sub.toNat).isSome then dictRequest role idx.toNat sub.toNat val {} s else s)

/-- A COMMIT write with an argument byte; an index that is no COMMIT names no such command (log entry 3). -/
def commitRow (role : Role) (idx : Nat) (arg : Byte) (s : State) : State :=
  if (setOfCommit idx).isSome then dictRequest role idx 0 [arg] {} s else s

def execCommit (role : Role) (idx : BitVec 16) (s : State) : Host.Outcome State Fault Refusal :=
  .next (commitRow role idx.toNat 0 s)

def execCommitValidateOnly (role : Role) (idx : BitVec 16) (s : State) : Host.Outcome State Fault Refusal :=
  .next (commitRow role idx.toNat 2 s)

def execCommitDiscard (role : Role) (idx : BitVec 16) (s : State) : Host.Outcome State Fault Refusal :=
  .next (commitRow role idx.toNat 1 s)

/-! ### Profiles, resets, identity (05) -/

def execProfRestore (role : Role) (p : Fin 4) (s : State) : Host.Outcome State Fault Refusal :=
  keyRequest role (Key.profRestore p.val) [] s

def execProfileSwitch (role : Role) (arg : List Byte) (s : State) : Host.Outcome State Fault Refusal :=
  keyRequest role Key.profileSwitch arg s

def execDeviceReset (role : Role) (arg : List Byte) (s : State) : Host.Outcome State Fault Refusal :=
  keyRequest role Key.deviceReset arg s

def execRecoveryLoad (role : Role) (arg : List Byte) (env : Env) (s : State) : Host.Outcome State Fault Refusal :=
  keyRequest role Key.recoveryLoad arg s env

def execColophonTagWrite (role : Role) (sub : Byte) (val : List Byte) (s : State) : Host.Outcome State Fault Refusal :=
  keyRequest role (Key.colophonTag sub.toNat) val s

def execColophonLock (role : Role) (arg : List Byte) (s : State) : Host.Outcome State Fault Refusal :=
  keyRequest role Key.colophonLock arg s

/-! ### Quires and power (06, 07, 18) -/

def execQEnable (role : Role) (q : QNum) (s : State) : Host.Outcome State Fault Refusal :=
  keyRequest role (Key.qEnable q) [] s

def execQDisable (role : Role) (q : QNum) (s : State) : Host.Outcome State Fault Refusal :=
  keyRequest role (Key.qDisable q) [0] s

def execQDisableForce (role : Role) (q : QNum) (s : State) : Host.Outcome State Fault Refusal :=
  keyRequest role (Key.qDisable q) [1] s

def execQReset (role : Role) (q : QNum) (s : State) : Host.Outcome State Fault Refusal :=
  keyRequest role (Key.qReset q) [] s

def execQDmaFault (role : Role) (q : QNum) (addr : BitVec 64) (s : State) : Host.Outcome State Fault Refusal :=
  keyRequest role (Key.qDmaFault q) (natLe 8 addr.toNat) s

def execQStitchConfig (role : Role) (q : QNum) (arg : List Byte) (s : State) : Host.Outcome State Fault Refusal :=
  keyRequest role (Key.qStitchConfig q) arg s

def execPwrRequestSRet (role : Role) (s : State) : Host.Outcome State Fault Refusal := keyRequest role Key.pwrRequest [1] s

def execPwrRequestSSent (role : Role) (s : State) : Host.Outcome State Fault Refusal := keyRequest role Key.pwrRequest [2] s

def execThermBoardTempWrite (role : Role) (val : List Byte) (s : State) : Host.Outcome State Fault Refusal :=
  keyRequest role Key.thermBoardTemp val s

/-! ### Firmware, library, tiers (13, 14, 15) -/

def execFwStageData (role : Role) (val : List Byte) (s : State) : Host.Outcome State Fault Refusal :=
  keyRequest role Key.fwStageData val s

def execFwUpdate (role : Role) (arg : List Byte) (env : Env) (s : State) : Host.Outcome State Fault Refusal :=
  keyRequest role Key.fwUpdate arg s env

def execLibRemove (role : Role) (arg : List Byte) (s : State) : Host.Outcome State Fault Refusal :=
  keyRequest role Key.libRemove arg s

def execPeerAccept (role : Role) (arg : List Byte) (env : Env) (s : State) : Host.Outcome State Fault Refusal :=
  keyRequest role Key.peerAccept arg s env

def execPeerExport (role : Role) (arg : List Byte) (env : Env) (s : State) : Host.Outcome State Fault Refusal :=
  keyRequest role Key.peerExport arg s env

def execT2InlineEccWrite (role : Role) (val : List Byte) (s : State) : Host.Outcome State Fault Refusal :=
  keyRequest role Key.t2InlineEcc val s

/-! ### Sentinel, watchdog, alerts (17, 20) -/

def execSentArm (role : Role) (arg : List Byte) (s : State) : Host.Outcome State Fault Refusal :=
  keyRequest role Key.sentArm arg s

def execSentDisarm (role : Role) (s : State) : Host.Outcome State Fault Refusal := keyRequest role Key.sentDisarm [] s

def execSentEnableWrite (role : Role) (val : List Byte) (s : State) : Host.Outcome State Fault Refusal :=
  keyRequest role Key.sentEnable val s

def execSentWakeAssertedWrite (role : Role) (val : List Byte) (s : State) : Host.Outcome State Fault Refusal :=
  keyRequest role Key.sentWakeAsserted val s

def execWdtService (role : Role) (val : List Byte) (s : State) : Host.Outcome State Fault Refusal :=
  keyRequest role Key.wdtService val s

def execWdtPeriodWrite (role : Role) (val : List Byte) (s : State) : Host.Outcome State Fault Refusal :=
  keyRequest role Key.wdtPeriodMs val s

def execAlertClear (role : Role) (val : List Byte) (s : State) : Host.Outcome State Fault Refusal :=
  keyRequest role Key.alertClear val s

/-! ### Keys, lifecycle and debug (19) -/

def execClassKeyWrite (role : Role) (sub : Byte) (val : List Byte) (s : State) : Host.Outcome State Fault Refusal :=
  keyRequest role (Key.classKey sub.toNat) val s

/-- A write of LC_TRANSITION whose TARGET is `target`; another TARGET is another row's (log entry 3). -/
def lcRow (target : Nat) (role : Role) (arg : List Byte) (env : Env) (s : State) : State :=
  if fieldLe arg 0 1 = target then dictRequest role 0x1101 0 arg env s else s

def execLcToProvisioned (role : Role) (arg : List Byte) (env : Env) (s : State) : Host.Outcome State Fault Refusal :=
  .next (lcRow lcProvisioned role arg env s)

def execLcToField (role : Role) (arg : List Byte) (s : State) : Host.Outcome State Fault Refusal :=
  .next (lcRow lcField role arg {} s)

def execLcToRma (role : Role) (arg : List Byte) (s : State) : Host.Outcome State Fault Refusal :=
  .next (lcRow lcRma role arg {} s)

/-- A write of ARB_ADVANCE whose WHICH is `which`; another WHICH is another row's (log entry 3). -/
def arbRow (which : Nat) (role : Role) (arg : List Byte) (s : State) : State :=
  if fieldLe arg 0 1 = which then dictRequest role 0x1107 0 arg {} s else s

def execArbAdvanceFirmware (role : Role) (arg : List Byte) (s : State) : Host.Outcome State Fault Refusal :=
  .next (arbRow 0 role arg s)

def execArbAdvanceSlipcase (role : Role) (arg : List Byte) (s : State) : Host.Outcome State Fault Refusal :=
  .next (arbRow 1 role arg s)

def execDebugUnlock (role : Role) (arg : List Byte) (env : Env) (s : State) : Host.Outcome State Fault Refusal :=
  keyRequest role Key.debugUnlock arg s env

end Sys2Proof.Machine
end

