-- ==== Sys2Proof/Machine/Fetch.lean ====
section
/-! DEFINITION. Ring fetch and the validation of submission entries (06, R273 to R276, R279, R283; 07, R331, R332; 14,
R665, R669; 15, R736; 16, R776). -/

namespace Sys2Proof.Machine

/-- The operand bytes the opcode table gives to fields: (offset, length) (R274). -/
def operandRanges (opcode : Nat) : List (Nat × Nat) :=
  match opcode with
  | 0x01 => [(8, 7), (16, 10)]
  | 0x02 => [(8, 17), (28, 4)]
  | 0x03 => [(8, 4)]
  | 0x04 => [(8, 48)]
  | 0x05 => [(8, 6)]
  | 0x06 => [(8, 12)]
  | 0x07 => [(8, 14)]
  | 0x08 => [(8, 20)]
  | 0x09 => [(8, 2), (12, 4)]
  | 0x0A => [(8, 2), (12, 4)]
  | 0x0B => [(8, 1)]
  | 0x0C => [(8, 4), (16, 8)]
  | _ => []

/-- Offsets of the bad fields of an opcode's operands. -/
def badOperands (unified : Bool) (b : List Byte) : List Nat :=
  let badIf := fun (c : Bool) (o : Nat) => if c then [o] else []
  match fieldLe b 0 1 with
  | 0x01 => badIf (addrOf (fieldLe b 16 8)).isNone 16
  | 0x02 =>
    let src := fieldLe b 8 8
    let kind := fieldLe b 24 1
    badIf (match kind with
      | 0 => src % 4096 != 0
      | 1 => src != 0
      | 2 => src / 2 ^ 32 != 0
      | _ => false) 8 ++
    badIf (kind == 2 && fieldLe b 16 8 != 0) 16 ++ badIf (decide (2 < kind)) 24
  | 0x05 =>
    let tier := fieldLe b 12 1
    let fl := fieldLe b 13 1
    badIf (fieldLe b 8 4 == 0) 8 ++ badIf (tier != 1 && tier != 2) 12 ++
    badIf (if unified || tier == 2 then fl != 0 else decide (15 < fl) || (bit fl 3 && fl % 8 != 0)) 13
  | 0x06 => badIf (addrOf (fieldLe b 8 8)).isNone 8
  | 0x07 =>
    badIf (addrOf (fieldLe b 8 8)).isNone 8 ++ badIf (decide (2 < fieldLe b 20 1)) 20 ++
    badIf (decide (3 < fieldLe b 21 1)) 21
  | 0x08 => badIf (addrOf (fieldLe b 8 8)).isNone 8 ++ badIf (addrOf (fieldLe b 16 8)).isNone 16
  | 0x09 => badIf (decide (4095 < fieldLe b 8 2)) 8 ++ badIf (fieldLe b 12 4 == 0) 12
  | 0x0A => badIf (decide (4095 < fieldLe b 8 2)) 8
  | 0x0B => badIf (decide (1 < fieldLe b 8 1)) 8
  | 0x0C =>
    badIf (match addrOf (fieldLe b 16 8) with
      | some a => (match a.form with | .t4 => true | .t3 _ => true | _ => false)
      | none => true) 16
  | _ => []

/-- Offsets of the bad fields of the common header and of the reserved bytes (R273, R276). -/
def badHeader (b : List Byte) : List Nat :=
  let op := fieldLe b 0 1
  let fl := fieldLe b 1 1
  let done := fieldLe b 4 2
  (if 0x0C < op then [0] else []) ++
  (if bits fl 3 2 ≠ 0 ∨ bit fl 7 ∨ 5 < bits fl 6 4 then [1] else []) ++
  (if 4095 < done ∨ (done ≠ 0 ∧ ¬ bit fl 1) then [4] else []) ++
  (if fieldLe b 6 2 ≠ 0 then [6] else []) ++
  (upFrom 8 56).filter fun i =>
    b.getD i 0 != 0 && !(operandRanges op).any fun p => p.1 ≤ i && i < p.1 + p.2

/-- The byte offset of the first bad field of a submission entry, if any. -/
def firstBad (unified : Bool) (b : List Byte) : Option Nat := (sortNat (badHeader b ++ badOperands unified b)).head?

/-- The stitch checks at fetch: the freeze cause and DETAIL they give (R331, R332). -/
def State.fetchStitch (s : State) (q : QNum) (b : List Byte) : Option (Nat × Nat) :=
  let done := fieldLe b 4 2
  let n := fieldLe b 8 2
  let op := fieldLe b 0 1
  if bit (fieldLe b 1 1) 1 ∧ ¬ s.ownsStitch q done then some (FC.foreignStitch, done)
  else if bit (fieldLe b 1 1) 1 ∧ (s.stitch done).spec then some (FC.format, 4)
  else if op = 0x09 ∧ ¬ s.ownsStitch q n then some (FC.foreignStitch, n)
  else if (op = 0x09 ∨ op = 0x0A) ∧ s.ownsStitch q n ∧ (s.stitch n).spec then some (FC.format, 8)
  else none

/-- A started STITCH_WAIT or FENCE keeps its ring blocked (R279). -/
def Work.blocksRing : Work → Bool
  | .stitchWait _ => true
  | .fence _ => true
  | _ => false

/-- The quire's rings are fetched from: enabled, waking or running, with bays granted, a WAKE out, or refused for a
short bay set (R44, R286, R904); not at 64 started entries (R283); not during a switch (R214). -/
def State.fetches (s : State) (q : QNum) : Bool :=
  let x := s.quire q
  s.up && s.coreOn && s.switch.isNone &&
  (match x.state with
    | .enabled => true
    | .waking => true
    | .running => true
    | _ => false) &&
  (s.served q || x.wakePending || (s.shortSet q && s.refusesWake q)) &&
  decide (x.started.length < 64)

/-- An entry can start now: what its opcode waits for has come (R279, R282, R674, R700, R761, R779). -/
def State.canStartEntry (s : State) (q : QNum) (r : RingNum) (e : Entry) : Bool :=
  s.canStart q &&
  match e.opcode with
  | 0x01 => (match s.runPlan q e with
    | .waits _ => false
    | .starts _ _ bays => !s.bayAhead q r bays
    | _ => true)
  | 0x03 => !((s.validHandle q (fieldLe e.bytes 8 4)).isSome && s.textBound q (fieldLe e.bytes 8 4))
  | 0x06 => (match addrOf (fieldLe e.bytes 8 8) with
    | some a => (s.freePieces q a (fieldLe e.bytes 16 4)).isNone || !s.freeHeld q a (fieldLe e.bytes 16 4)
    | none => true)
  | 0x0C => !s.trainWaits q (s.validHandle q (fieldLe e.bytes 8 4))
  | _ => true

/-- A ring is blocked while its oldest fetched entry cannot start, or is a STITCH_WAIT or FENCE that has not completed
(R279). -/
def State.ringBlocked (s : State) (q : QNum) (r : RingNum) : Bool :=
  ((s.quire q).started.any fun w => w.entry.ring == r && w.work.blocksRing) ||
  match ((s.quire q).ring r).fetched with
  | e :: _ => e.opcode == 0x0A || e.opcode == 0x0B || !s.canStartEntry q r e
  | [] => false

/-- The ring fetch takes from: the lowest-numbered that is not empty and not blocked (R279). -/
def State.fetchRing (s : State) (q : QNum) : Option RingNum :=
  ([0, 1, 2, 3] : List RingNum).find? fun r =>
    ((s.quire q).ring r).head != ((s.quire q).ring r).tail && !s.ringBlocked q r

/-- One entry is fetched, from host memory with the quire's PASID (R260), and validated. DESIGN CHOICE (log entry 92): a
format error is judged before a foreign stitch. `host` holds the 64 bytes DMA delivers for a ring in host memory. -/
def submissionFetch (q : QNum) (host : List Byte) (s : State) : State :=
  if ¬ s.fetches q then s
  else
    let x := s.quire q
    match s.fetchRing q with
    | none => s
    | some r =>
      let y := x.ring r
      let base := s.rd (Key.qSqBase q (r.val + 1))
      let size := s.rd (Key.qSqSize q (r.val + 1))
      let b :=
        if ringLoc base = 1 then Mem.readN s.tiers.rings (q.val * ringBytes + ringAddr base + 64 * y.head) 64
        else bytesAt host 0 64
      let head := (y.head + 1) % size
      let e : Entry := { seq := x.ctrFetched.toNat, ring := r, slot := y.head, headAfter := head, bytes := b }
      let s :=
        if ringLoc base = 0 then s.emit (.dmaRead q (s.rd (Key.qPasid q)) (ringAddr base + 64 * y.head) 64) else s
      let s := s.setQuire q
        ({ x with ctrFetched := x.ctrFetched + 1 }.setRing r { y with head := head, fetched := y.fetched ++ [e] })
      match firstBad (s.rd (Key.qPlacement q) == 1) b with
      | some o => s.freezeEntry q e FC.format o
      | none =>
        match s.fetchStitch q b with
        | some c => s.freezeEntry q e c.1 c.2
        | none => s

def execSubmissionFetch (q : QNum) (entry : List Byte) (s : State) : Host.Outcome State Fault Refusal :=
  .next (submissionFetch q entry s)

end Sys2Proof.Machine
end

