-- ==== Sys2Proof/Machine/I3c.lean ====
section
/-! DEFINITION. The I3C target (04): frames on private transfers and in HDR-DDR, tickets, CCCs, in-band interrupts and
hot-join. -/

namespace Sys2Proof.Machine

def State.dynAddr (s : State) : Nat := s.rd Key.i3cDynAddr

/-- The target sees SDR traffic (R48, R188). -/
def State.sdrUp (s : State) : Bool := s.dictUp && !s.i3c.hdr

/-- The target sees an HDR-DDR command addressed to it (R164, R188). -/
def State.ddrUp (s : State) : Bool := s.dictUp && s.i3c.hdr && s.dynAddr != 0

/-- A START starts the quick oscillator (R78). -/
def State.busStart (s : State) : State := s.setClk { s.clk with quickOsc := true }

/-- A START of the bus that is not the Q19's to answer: the target sees it and its oscillator starts (R78, R164). -/
def State.foreignStart (s : State) : State := if s.sdrUp then s.busStart else s

/-! ### Frames (R167 to R182) -/

/-- The response to the most recent frame (R168, R174). -/
def State.respond (s : State) (status ticket : Nat) (data : List Byte) : State :=
  s.setI3c { s.i3c with response := natLe 1 status ++ natLe 1 ticket ++ natLe 2 data.length ++ data }

/-- A frame that R170 or R171 answers: counted, and shown by GETSTATUS (log entry 30). -/
def State.badFrame (s : State) (status : Nat) : State :=
  let s := (s.count Key.i3cProtocolErrs).respond status 0xFF []
  s.setI3c { s.i3c with protoErr := true }

/-- The lowest-numbered free ticket (R178). -/
def State.freeTicket (s : State) : Option Nat := (List.range 32).find? fun n => (Tab.find s.i3c.tickets n).isNone

/-- A deferred request takes a ticket and is held; without a place for it, BUSY (R158, R177 to R179). -/
def State.deferI3c (s : State) (r : Request) : State :=
  match s.freeTicket with
  | some n =>
    if s.coldFull then s.countBusy.respond DS.busy 0xFF []
    else
      let s := s.setI3c { s.i3c with tickets := Tab.put s.i3c.tickets n (some .waiting) }
      (s.holdCold r (.ticket n)).respond DS.defer n []
  | none => s.countBusy.respond DS.busy 0xFF []

/-- A REQUEST frame whose byte count is right. DESIGN CHOICE (log entry 87): a reserved flag bit (R929, RANGE) is judged
before the non-zero LENGTH of a read (R171, TYPE_LEN), and that LENGTH before the checks of R135. -/
def State.requestFrame (s : State) (fr : List Byte) : State :=
  let flags := fieldLe fr 4 1
  if flags < 8 ∧ ¬ bit flags 0 ∧ fieldLe fr 5 2 ≠ 0 then s.badFrame DS.typeLen
  else
    match s.intake (some (if bit flags 2 then .factory else .hostP)) flags (fieldLe fr 1 2) (fieldLe fr 3 1) (fr.drop 7) with
    | (.final st d, s) => s.respond st 0xFF d
    | (.hold r, s) => s.deferI3c r

/-- A FETCH of a ticket (R181, R182); the answer that carries a final status frees the ticket and withdraws its
interrupt. -/
def State.fetchFrame (s : State) (n : Nat) : State :=
  match Tab.find s.i3c.tickets n with
  | none => s.respond DS.state n []
  | some .waiting => s.respond DS.defer n []
  | some (.complete st d) =>
    (s.setI3c { s.i3c with
      tickets := Tab.put s.i3c.tickets n none, ibis := s.i3c.ibis.filter fun p => p != (0, n) }).respond st n d

/-- A private write: bytes beyond the maximum write length are discarded, then the frame is judged (R169 to R172).
DESIGN CHOICE (log entry 87): where a frame breaks several rules, a parity error or an empty frame is TYPE_LEN before
the TYPE is looked at (R170), and a wrong byte count is TYPE_LEN before a reserved flag bit is RANGE (R929). -/
def State.frame (s : State) (bytes : List Byte) (parityErr : Bool) : State :=
  let s := s.busStart
  let fr := bytes.take s.i3c.mwl
  if parityErr ∨ fr = [] then s.badFrame DS.typeLen
  else if fieldLe fr 0 1 = 1 then
    if fr.length < 7 ∨ fr.length ≠ 7 + fieldLe fr 5 2 then s.badFrame DS.typeLen else s.requestFrame fr
  else if fieldLe fr 0 1 = 2 then
    if fr.length ≠ 2 then s.badFrame DS.typeLen else s.fetchFrame (fieldLe fr 1 1)
  else s.badFrame DS.range

/-- The response as a read returns it: not acknowledged before it is ready, cut at the maximum read length (R173 to
R175). -/
def State.readResponse (s : State) (ready : Bool) : State :=
  let s := s.busStart
  s.emit (.i3cRead (if ready ∧ s.i3c.response ≠ [] then some (s.i3c.response.take s.i3c.mrl) else none))

def State.sdrAddressed (s : State) : Bool := s.sdrUp && s.dynAddr != 0

def execI3cRequestFrame (frame : List Byte) (parityErr : Bool) (s : State) : Host.Outcome State Fault Refusal :=
  .next (if s.sdrAddressed then s.frame frame parityErr else s.foreignStart)

def execI3cFetchFrame (frame : List Byte) (parityErr : Bool) (s : State) : Host.Outcome State Fault Refusal :=
  .next (if s.sdrAddressed then s.frame frame parityErr else s.foreignStart)

def execI3cPrivateRead (ready : Bool) (s : State) : Host.Outcome State Fault Refusal :=
  .next (if s.sdrAddressed then s.readResponse ready else s.foreignStart)

/-- HDR-DDR: command code 0x2A carries a frame, 0xAA reads the response; every other code is ignored (R188, R189). -/
def execHdrDdrWriteCmd (code : Byte) (frame : List Byte) (parityErr : Bool) (s : State) :
    Host.Outcome State Fault Refusal :=
  .next (if s.ddrUp && code == 0x2A then s.frame frame parityErr else s)

def execHdrDdrReadCmd (code : Byte) (ready : Bool) (s : State) : Host.Outcome State Fault Refusal :=
  .next (if s.ddrUp && code == 0xAA then s.readResponse ready else s)

/-! ### CCCs (R161 to R166) -/

def State.ccc (s : State) (f : State → State) : State := if s.sdrUp then f s.busStart else s

/-- A direct CCC addressed at the dynamic address; without one it is not acknowledged (R164). -/
def State.direct (s : State) (f : State → State) : State := s.ccc fun s => if s.dynAddr = 0 then s.emit .nack else f s

/-- The codes of R163's table. -/
def cccCodes : List Byte :=
  [0x00, 0x01, 0x02, 0x03, 0x04, 0x05, 0x06, 0x07, 0x09, 0x0A, 0x20, 0x80, 0x81, 0x82, 0x83, 0x84, 0x85, 0x87, 0x88,
   0x89, 0x8A, 0x8B, 0x8C, 0x8D, 0x8E, 0x8F, 0x90, 0x94, 0x95]

/-- A CCC whose code chooses its form: `own` as broadcast, `own + 0x80` as direct. A direct code outside R163's table is
not acknowledged, a broadcast one is ignored; a code that another row of the table has is that row's (log entry 3). -/
def State.cccBy (s : State) (own code : Byte) (f : State → State) : State :=
  if code = own then s.ccc f
  else if code = own + 0x80 then s.direct f
  else if code ∈ cccCodes then s
  else s.ccc fun s => if 0x80 ≤ code then s.emit .nack else s

/-- Most significant byte first (log entry 31). -/
def beBytes (n v : Nat) : List Byte := (natLe n v).reverse

def State.answerCcc (s : State) (l : List Byte) : State := s.emit (.ccc l)

/-- ENEC, code 0x00 or 0x80 (R163). -/
def enec (code : Byte) (int hj : Bool) (s : State) : State :=
  s.cccBy 0x00 code fun s => s.setI3c { s.i3c with intEn := s.i3c.intEn || int, hjEn := s.i3c.hjEn || hj }

def execEnec (code : Byte) (ev : CccEvents) (s : State) : Host.Outcome State Fault Refusal :=
  .next (enec code ev.int ev.hj s)

/-- DISEC, code 0x01 or 0x81; interrupts due are given up (R163, R185). -/
def disec (code : Byte) (int hj : Bool) (s : State) : State :=
  s.cccBy 0x01 code fun s =>
    (s.setI3c { s.i3c with intEn := s.i3c.intEn && !int, hjEn := s.i3c.hjEn && !hj }).ibiRefresh

def execDisec (code : Byte) (ev : CccEvents) (s : State) : Host.Outcome State Fault Refusal :=
  .next (disec code ev.int ev.hj s)

/-- ENTAS0 to ENTAS3, codes 0x02 to 0x05 and 0x82 to 0x85, are accepted and have no effect (R163). -/
def entas (code : Byte) (s : State) : State :=
  let n := code.toNat % 128
  s.cccBy (if 2 ≤ n ∧ n ≤ 5 then BitVec.ofNat 8 n else 2) code id

def execEntas (code : Byte) (s : State) : Host.Outcome State Fault Refusal := .next (entas code s)

/-- RSTDAA clears the dynamic address; tickets survive (R163, R165). -/
def rstdaa (s : State) : State := s.ccc fun s => s.wr Key.i3cDynAddr 0

def execRstdaa (s : State) : Host.Outcome State Fault Refusal := .next (rstdaa s)

/-- The provisional ID, BCR and DCR (R162). -/
def pidOf (sku : Sku) : Nat :=
  0x05D3 * 2 ^ 33 + (match sku with
    | .q24 => 0xF019
    | .q16 => 0xF016) * 2 ^ 16 + 0x0B1

def bcr : Nat := 0x27
def dcr : Nat := 0x00

/-- ENTDAA: without an address the Q19 sends its identification and takes the address (R163). -/
def entdaa (addr : BitVec 7) (s : State) : State :=
  s.ccc fun s =>
    if s.dynAddr ≠ 0 ∨ addr = 0 then s
    else (s.answerCcc (beBytes 6 (pidOf s.sku) ++ beBytes 1 bcr ++ beBytes 1 dcr)).wr Key.i3cDynAddr addr.toNat

def execEntdaa (addr : BitVec 7) (s : State) : Host.Outcome State Fault Refusal := .next (entdaa addr s)

/-- SETMWL, code 0x09 or 0x89: 8 to 263; other values leave the old one (R163). -/
def setmwl (code : Byte) (len : BitVec 16) (s : State) : State :=
  s.cccBy 0x09 code fun s => if 8 ≤ len.toNat ∧ len.toNat ≤ 263 then s.setI3c { s.i3c with mwl := len.toNat } else s

def execSetmwl (m : CccLength) (s : State) : Host.Outcome State Fault Refusal :=
  .next (setmwl m.code m.len s)

/-- SETMRL, code 0x0A or 0x8A: 4 to 260; other values leave the old one (R163). -/
def setmrl (code : Byte) (len : BitVec 16) (s : State) : State :=
  s.cccBy 0x0A code fun s => if 4 ≤ len.toNat ∧ len.toNat ≤ 260 then s.setI3c { s.i3c with mrl := len.toNat } else s

def execSetmrl (m : CccLength) (s : State) : Host.Outcome State Fault Refusal :=
  .next (setmrl m.code m.len s)

/-- ENTHDR0 enters HDR-DDR; the HDR exit pattern leaves it (R163). -/
def enthdr0 (s : State) : State := s.ccc fun s => s.setI3c { s.i3c with hdr := true }

def execEnthdr0 (s : State) : Host.Outcome State Fault Refusal := .next (enthdr0 s)

def hdrExit (s : State) : State := s.setI3c { s.i3c with hdr := false }

def execHdrExit (s : State) : Host.Outcome State Fault Refusal := .next (hdrExit s)

/-- SETDASA at 0x5A: taken if enabled and no address is held (R163). -/
def setdasa (addr : BitVec 7) (s : State) : State :=
  s.ccc fun s =>
    if s.rdB Key.i3cSetdasaEn ∧ s.dynAddr = 0 ∧ addr ≠ 0 then s.wr Key.i3cDynAddr addr.toNat else s.emit .nack

def execSetdasa (addr : BitVec 7) (s : State) : Host.Outcome State Fault Refusal := .next (setdasa addr s)

/-- SETNEWDA replaces the address (R163). -/
def setnewda (addr : BitVec 7) (s : State) : State :=
  s.direct fun s => if addr = 0 then s else s.wr Key.i3cDynAddr addr.toNat

def execSetnewda (addr : BitVec 7) (s : State) : Host.Outcome State Fault Refusal := .next (setnewda addr s)

def getmwl (s : State) : State := s.direct fun s => s.answerCcc (beBytes 2 s.i3c.mwl)
def execGetmwl (s : State) : Host.Outcome State Fault Refusal := .next (getmwl s)

def getmrl (s : State) : State := s.direct fun s => s.answerCcc (beBytes 2 s.i3c.mrl)
def execGetmrl (s : State) : Host.Outcome State Fault Refusal := .next (getmrl s)

def getpid (s : State) : State := s.direct fun s => s.answerCcc (beBytes 6 (pidOf s.sku))
def execGetpid (s : State) : Host.Outcome State Fault Refusal := .next (getpid s)

def getbcr (s : State) : State := s.direct fun s => s.answerCcc (beBytes 1 bcr)
def execGetbcr (s : State) : Host.Outcome State Fault Refusal := .next (getbcr s)

def getdcr (s : State) : State := s.direct fun s => s.answerCcc (beBytes 1 dcr)
def execGetdcr (s : State) : Host.Outcome State Fault Refusal := .next (getdcr s)

def Ticket.isComplete : Ticket → Bool
  | .complete _ _ => true
  | .waiting => false

/-- GETSTATUS: completed tickets, capped at 15, and a protocol error since the last GETSTATUS (R163). -/
def getstatus (s : State) : State :=
  s.direct fun s =>
    let n := min (s.i3c.tickets.filter fun t => t.2.isComplete).length 15
    (s.answerCcc (beBytes 2 (n + if s.i3c.protoErr then 32 else 0))).setI3c { s.i3c with protoErr := false }

def execGetstatus (s : State) : Host.Outcome State Fault Refusal := .next (getstatus s)

/-- GETMXDS: 12.5 MHz both ways, no read turnaround limit (R163, log entry 31). -/
def getmxds (s : State) : State := s.direct fun s => s.answerCcc [0, 0]
def execGetmxds (s : State) : Host.Outcome State Fault Refusal := .next (getmxds s)

/-- GETCAPS: HDR-DDR capable, no other HDR mode (R163, log entry 31). -/
def getcaps (s : State) : State := s.direct fun s => s.answerCcc [1]
def execGetcaps (s : State) : Host.Outcome State Fault Refusal := .next (getcaps s)

/-! ### Requests of the target (R166, R183 to R187) -/

/-- A hot-join request at a bus-available condition (R166). -/
def hotJoinRequest (s : State) : State :=
  if s.sdrUp ∧ s.dynAddr = 0 ∧ s.i3c.hjEn ∧ s.rdB Key.i3cHotjoinEn then s.emit .hotJoin else s

def execHotJoinRequest (s : State) : Host.Outcome State Fault Refusal := .next (hotJoinRequest s)

/-- The IBI due next: the lowest GROUP, within it the first to become due (R187). -/
def nextIbi (l : List (Nat × Nat)) : Option (Nat × Nat) := [0, 1, 2, 3].findSome? fun g => l.find? fun p => p.1 == g

/-- The mandatory data byte (R183). -/
def ibiByte (p : Nat × Nat) : Byte := BitVec.ofNat 8 (p.1 * 32 + p.2 % 32)

/-- IBI_SEND: the next due IBI, sent again until acknowledged (R185). -/
def ibiSend (acked : Bool) (s : State) : State :=
  if ¬ s.sdrAddressed then s
  else
    match nextIbi s.i3c.ibis with
    | some p =>
      let s := s.emit (.ibi (ibiByte p))
      if acked then s.setI3c { s.i3c with ibis := s.i3c.ibis.erase p } else s
    | none => s

def execIbiSend (acked : Bool) (s : State) : Host.Outcome State Fault Refusal := .next (ibiSend acked s)

end Sys2Proof.Machine
end

