-- ==== Sys2Proof/Machine/Dispatch.lean ====
section
/-! DEFINITION. What each command does to everything but the queue: one arm per constructor. -/

namespace Sys2Proof.Machine

def exec (i : Instr) (s : State) : Host.Outcome State Fault Refusal :=
  match i with
  | .powerOn tDie => Sys2Proof.Machine.execPowerOn tDie s
  | .aonRelease => Sys2Proof.Machine.execAonRelease s
  | .pgoodInFall => Sys2Proof.Machine.execPgoodInFall s
  | .pgoodInRise => Sys2Proof.Machine.execPgoodInRise s
  | .resetNAssert => Sys2Proof.Machine.execResetNAssert s
  | .resetNRelease => Sys2Proof.Machine.execResetNRelease s
  | .bootStart f => Sys2Proof.Machine.execBootStart f s
  | .perstNAssert => Sys2Proof.Machine.execPerstNAssert s
  | .perstNRelease => Sys2Proof.Machine.execPerstNRelease s
  | .flr => Sys2Proof.Machine.execFlr s
  | .testenHigh => Sys2Proof.Machine.execTestenHigh s
  | .tapReset => Sys2Proof.Machine.execTapReset s
  | .extest => Sys2Proof.Machine.execExtest s
  | .clamp => Sys2Proof.Machine.execClamp s
  | .highz => Sys2Proof.Machine.execHighz s
  | .samplePreload scan => Sys2Proof.Machine.execSamplePreload scan s
  | .idcode => Sys2Proof.Machine.execIdcode s
  | .bypass code => Sys2Proof.Machine.execBypass code s
  | .vendorDebugInstruction code target => Sys2Proof.Machine.execVendorDebugInstruction code target s
  | .clkinDetected => Sys2Proof.Machine.execClkinDetected s
  | .clkinLost => Sys2Proof.Machine.execClkinLost s
  | .crystalStart => Sys2Proof.Machine.execCrystalStart s
  | .quickOscStop => Sys2Proof.Machine.execQuickOscStop s
  | .vselSettleEnd inTolerance => Sys2Proof.Machine.execVselSettleEnd inTolerance s
  | .deviceResetStart => Sys2Proof.Machine.execDeviceResetStart s
  | .mcWakeComplete digestOk => Sys2Proof.Machine.execMcWakeComplete digestOk s
  | .i3cRequestFrame frame parityErr => Sys2Proof.Machine.execI3cRequestFrame frame parityErr s
  | .i3cFetchFrame frame parityErr => Sys2Proof.Machine.execI3cFetchFrame frame parityErr s
  | .i3cPrivateRead ready => Sys2Proof.Machine.execI3cPrivateRead ready s
  | .hdrDdrWriteCmd code frame parityErr => Sys2Proof.Machine.execHdrDdrWriteCmd code frame parityErr s
  | .hdrDdrReadCmd code ready => Sys2Proof.Machine.execHdrDdrReadCmd code ready s
  | .enec code ev => Sys2Proof.Machine.execEnec code ev s
  | .disec code ev => Sys2Proof.Machine.execDisec code ev s
  | .entas code => Sys2Proof.Machine.execEntas code s
  | .rstdaa => Sys2Proof.Machine.execRstdaa s
  | .entdaa addr => Sys2Proof.Machine.execEntdaa addr s
  | .setmwl m => Sys2Proof.Machine.execSetmwl m s
  | .setmrl m => Sys2Proof.Machine.execSetmrl m s
  | .enthdr0 => Sys2Proof.Machine.execEnthdr0 s
  | .setdasa addr => Sys2Proof.Machine.execSetdasa addr s
  | .setnewda addr => Sys2Proof.Machine.execSetnewda addr s
  | .getmwl => Sys2Proof.Machine.execGetmwl s
  | .getmrl => Sys2Proof.Machine.execGetmrl s
  | .getpid => Sys2Proof.Machine.execGetpid s
  | .getbcr => Sys2Proof.Machine.execGetbcr s
  | .getdcr => Sys2Proof.Machine.execGetdcr s
  | .getstatus => Sys2Proof.Machine.execGetstatus s
  | .getmxds => Sys2Proof.Machine.execGetmxds s
  | .getcaps => Sys2Proof.Machine.execGetcaps s
  | .hotJoinRequest => Sys2Proof.Machine.execHotJoinRequest s
  | .ibiSend acked => Sys2Proof.Machine.execIbiSend acked s
  | .deferCompletion env => Sys2Proof.Machine.execDeferCompletion env s
  | .mboxGo box v => Sys2Proof.Machine.execMboxGo box v s
  | .registerWrite off data => Sys2Proof.Machine.execRegisterWrite off data s
  | .bar0ReservedWrite off data => Sys2Proof.Machine.execBar0ReservedWrite off data s
  | .dictWrite role idx sub val => Sys2Proof.Machine.execDictWrite role idx sub val s
  | .stagedWrite role idx sub val => Sys2Proof.Machine.execStagedWrite role idx sub val s
  | .commit role idx => Sys2Proof.Machine.execCommit role idx s
  | .commitValidateOnly role idx => Sys2Proof.Machine.execCommitValidateOnly role idx s
  | .commitDiscard role idx => Sys2Proof.Machine.execCommitDiscard role idx s
  | .commitSafePoint idx => Sys2Proof.Machine.execCommitSafePoint idx s
  | .profRestore role p => Sys2Proof.Machine.execProfRestore role p s
  | .profileSwitch role arg => Sys2Proof.Machine.execProfileSwitch role arg s
  | .switchDrainEnd drainMs => Sys2Proof.Machine.execSwitchDrainEnd drainMs s
  | .switchDrainLimit drainMs => Sys2Proof.Machine.execSwitchDrainLimit drainMs s
  | .switchResume => Sys2Proof.Machine.execSwitchResume s
  | .deviceReset role arg => Sys2Proof.Machine.execDeviceReset role arg s
  | .recoveryLoad role arg env => Sys2Proof.Machine.execRecoveryLoad role arg env s
  | .colophonTagWrite role sub val => Sys2Proof.Machine.execColophonTagWrite role sub val s
  | .colophonLock role arg => Sys2Proof.Machine.execColophonLock role arg s
  | .qEnable role q => Sys2Proof.Machine.execQEnable role q s
  | .qDisable role q => Sys2Proof.Machine.execQDisable role q s
  | .qDisableForce role q => Sys2Proof.Machine.execQDisableForce role q s
  | .drainEnd q => Sys2Proof.Machine.execDrainEnd q s
  | .qReset role q => Sys2Proof.Machine.execQReset role q s
  | .qDmaFault role q addr => Sys2Proof.Machine.execQDmaFault role q addr s
  | .qStitchConfig role q arg => Sys2Proof.Machine.execQStitchConfig role q arg s
  | .pwrRequestSRet role => Sys2Proof.Machine.execPwrRequestSRet role s
  | .pwrRequestSSent role => Sys2Proof.Machine.execPwrRequestSSent role s
  | .wakeFromSleep => Sys2Proof.Machine.execWakeFromSleep s
  | .eraseBlock src desc => Sys2Proof.Machine.execEraseBlock src desc s
  | .eraseSector src desc => Sys2Proof.Machine.execEraseSector src desc s
  | .programRun src desc => Sys2Proof.Machine.execProgramRun src desc s
  | .readRun src desc => Sys2Proof.Machine.execReadRun src desc s
  | .otpProgram src desc => Sys2Proof.Machine.execOtpProgram src desc s
  | .refreshMove src desc => Sys2Proof.Machine.execRefreshMove src desc s
  | .pressOpComplete id f => Sys2Proof.Machine.execPressOpComplete id f s
  | .pressSuspend pair => Sys2Proof.Machine.execPressSuspend pair s
  | .pressResume pair => Sys2Proof.Machine.execPressResume pair s
  | .fwStageData role val => Sys2Proof.Machine.execFwStageData role val s
  | .fwUpdate role arg env => Sys2Proof.Machine.execFwUpdate role arg env s
  | .submissionFetch q entry => Sys2Proof.Machine.execSubmissionFetch q entry s
  | .nop q r => Sys2Proof.Machine.execNop q r s
  | .runImposition q r bindTable => Sys2Proof.Machine.execRunImposition q r bindTable s
  | .loadSlipcase q r f => Sys2Proof.Machine.execLoadSlipcase q r f s
  | .unload q r => Sys2Proof.Machine.execUnload q r s
  | .linkTextBlock q r => Sys2Proof.Machine.execLinkTextBlock q r s
  | .alloc q r => Sys2Proof.Machine.execAlloc q r s
  | .free q r => Sys2Proof.Machine.execFree q r s
  | .migrateHint q r => Sys2Proof.Machine.execMigrateHint q r s
  | .copy q r t4 => Sys2Proof.Machine.execCopy q r t4 s
  | .stitchSignal q r => Sys2Proof.Machine.execStitchSignal q r s
  | .stitchWait q r => Sys2Proof.Machine.execStitchWait q r s
  | .fence q r => Sys2Proof.Machine.execFence q r s
  | .trainCommit q r => Sys2Proof.Machine.execTrainCommit q r s
  | .waitResume q r t4 => Sys2Proof.Machine.execWaitResume q r t4 s
  | .sqTailWrite q r v aligned4 => Sys2Proof.Machine.execSqTailWrite q r v aligned4 s
  | .cqHeadWrite q v aligned4 => Sys2Proof.Machine.execCqHeadWrite q v aligned4 s
  | .stitchDb q v aligned4 => Sys2Proof.Machine.execStitchDb q v aligned4 s
  | .grant q us => Sys2Proof.Machine.execGrant q us s
  | .bayGateToOff b => Sys2Proof.Machine.execBayGateToOff b s
  | .bayPllOff => Sys2Proof.Machine.execBayPllOff s
  | .bayRetestDone b pass => Sys2Proof.Machine.execBayRetestDone b pass s
  | .dmaReadError q addr ring => Sys2Proof.Machine.execDmaReadError q addr ring s
  | .stampZero q run => Sys2Proof.Machine.execStampZero q run s
  | .teBuild b => Sys2Proof.Machine.execTeBuild b s
  | .teLookup b e => Sys2Proof.Machine.execTeLookup b e s
  | .teClear b => Sys2Proof.Machine.execTeClear b s
  | .teRescale b => Sys2Proof.Machine.execTeRescale b s
  | .escApply b => Sys2Proof.Machine.execEscApply b s
  | .lnsMul b => Sys2Proof.Machine.execLnsMul b s
  | .lnsAdd b => Sys2Proof.Machine.execLnsAdd b s
  | .lnsReduce b => Sys2Proof.Machine.execLnsReduce b s
  | .lnsFromlin b => Sys2Proof.Machine.execLnsFromlin b s
  | .lnsTolin b => Sys2Proof.Machine.execLnsTolin b s
  | .refFma b => Sys2Proof.Machine.execRefFma b s
  | .refCast b => Sys2Proof.Machine.execRefCast b s
  | .refTopk b => Sys2Proof.Machine.execRefTopk b s
  | .convPass1 b => Sys2Proof.Machine.execConvPass1 b s
  | .convPass2 b => Sys2Proof.Machine.execConvPass2 b s
  | .convCarry b => Sys2Proof.Machine.execConvCarry b s
  | .convStats b => Sys2Proof.Machine.execConvStats b s
  | .movIn b e => Sys2Proof.Machine.execMovIn b e s
  | .movOut b e => Sys2Proof.Machine.execMovOut b e s
  | .stream b => Sys2Proof.Machine.execStream b s
  | .waitStitch b => Sys2Proof.Machine.execWaitStitch b s
  | .signalStitch b => Sys2Proof.Machine.execSignalStitch b s
  | .fork b usSinceZero => Sys2Proof.Machine.execFork b usSinceZero s
  | .specBegin b => Sys2Proof.Machine.execSpecBegin b s
  | .specCommit b => Sys2Proof.Machine.execSpecCommit b s
  | .specCancel b => Sys2Proof.Machine.execSpecCancel b s
  | .precisionFence b => Sys2Proof.Machine.execPrecisionFence b s
  | .maintSlot b => Sys2Proof.Machine.execMaintSlot b s
  | .loop b => Sys2Proof.Machine.execLoop b s
  | .idle b => Sys2Proof.Machine.execIdle b s
  | .endStream b => Sys2Proof.Machine.execEndStream b s
  | .slipEnd q run cycles => Sys2Proof.Machine.execSlipEnd q run cycles s
  | .leafArrival b slot e => Sys2Proof.Machine.execLeafArrival b slot e s
  | .stripeDelivery g f => Sys2Proof.Machine.execStripeDelivery g f s
  | .deadlineExceeded q run => Sys2Proof.Machine.execDeadlineExceeded q run s
  | .runComplete q run times parity => Sys2Proof.Machine.execRunComplete q run times parity s
  | .comparisonStage => Sys2Proof.Machine.execComparisonStage s
  | .hostWaitTimeout q r => Sys2Proof.Machine.execHostWaitTimeout q r s
  | .seqWaitTimeout b => Sys2Proof.Machine.execSeqWaitTimeout b s
  | .weaveSlotStart => Sys2Proof.Machine.execWeaveSlotStart s
  | .refreshRemap g lostLeaves => Sys2Proof.Machine.execRefreshRemap g lostLeaves s
  | .scrubPass => Sys2Proof.Machine.execScrubPass s
  | .apertureRead off len => Sys2Proof.Machine.execApertureRead off len s
  | .apertureWrite off data => Sys2Proof.Machine.execApertureWrite off data s
  | .bar2WindowAccess off write len data => Sys2Proof.Machine.execBar2WindowAccess off write len data s
  | .bar2RingWrite off data relaxed => Sys2Proof.Machine.execBar2RingWrite off data relaxed s
  | .stagingProducedWrite v => Sys2Proof.Machine.execStagingProducedWrite v s
  | .stagingTimeout => Sys2Proof.Machine.execStagingTimeout s
  | .loadComplete q e f => Sys2Proof.Machine.execLoadComplete q e f s
  | .libraryRemoval e => Sys2Proof.Machine.execLibraryRemoval e s
  | .libRemove role arg => Sys2Proof.Machine.execLibRemove role arg s
  | .peerAccept role arg env => Sys2Proof.Machine.execPeerAccept role arg env s
  | .peerExport role arg env => Sys2Proof.Machine.execPeerExport role arg env s
  | .peerSessionExpiry session => Sys2Proof.Machine.execPeerSessionExpiry session s
  | .trainSwitch q f => Sys2Proof.Machine.execTrainSwitch q f s
  | .tmMoveComplete q leaf => Sys2Proof.Machine.execTmMoveComplete q leaf s
  | .zeroingJobDone => Sys2Proof.Machine.execZeroingJobDone s
  | .powerEvaluation pEval tDie => Sys2Proof.Machine.execPowerEvaluation pEval tDie s
  | .sprintClose => Sys2Proof.Machine.execSprintClose s
  | .sprintReady => Sys2Proof.Machine.execSprintReady s
  | .thermBoardTempWrite role val => Sys2Proof.Machine.execThermBoardTempWrite role val s
  | .thermBoardStale => Sys2Proof.Machine.execThermBoardStale s
  | .alertClear role val => Sys2Proof.Machine.execAlertClear role val s
  | .aspmL1Request => Sys2Proof.Machine.execAspmL1Request s
  | .l12Exit => Sys2Proof.Machine.execL12Exit s
  | .sentArm role arg => Sys2Proof.Machine.execSentArm role arg s
  | .sentDisarm role => Sys2Proof.Machine.execSentDisarm role s
  | .sentEnableWrite role val => Sys2Proof.Machine.execSentEnableWrite role val s
  | .sentWakeAssertedWrite role val => Sys2Proof.Machine.execSentWakeAssertedWrite role val s
  | .sentFrameEnd rise pdmData settling => Sys2Proof.Machine.execSentFrameEnd rise pdmData settling s
  | .sentDetection => Sys2Proof.Machine.execSentDetection s
  | .wdtService role val => Sys2Proof.Machine.execWdtService role val s
  | .wdtPeriodWrite role val => Sys2Proof.Machine.execWdtPeriodWrite role val s
  | .fwTimerExpiry => Sys2Proof.Machine.execFwTimerExpiry s
  | .hostTimerExpiry => Sys2Proof.Machine.execHostTimerExpiry s
  | .wdtGraceExpiry => Sys2Proof.Machine.execWdtGraceExpiry s
  | .classKeyWrite role sub val => Sys2Proof.Machine.execClassKeyWrite role sub val s
  | .t2InlineEccWrite role val => Sys2Proof.Machine.execT2InlineEccWrite role val s
  | .lcToProvisioned role arg env => Sys2Proof.Machine.execLcToProvisioned role arg env s
  | .lcToField role arg => Sys2Proof.Machine.execLcToField role arg s
  | .lcToRma role arg => Sys2Proof.Machine.execLcToRma role arg s
  | .arbAdvanceFirmware role arg => Sys2Proof.Machine.execArbAdvanceFirmware role arg s
  | .arbAdvanceSlipcase role arg => Sys2Proof.Machine.execArbAdvanceSlipcase role arg s
  | .debugUnlock role arg env => Sys2Proof.Machine.execDebugUnlock role arg env s
  | .powerLoss => Sys2Proof.Machine.execPowerLoss s
  | .testenLow => Sys2Proof.Machine.execTestenLow s
  | .hdrExit => Sys2Proof.Machine.execHdrExit s
  | .linkEntersL0 speed width => Sys2Proof.Machine.execLinkEntersL0 speed width s
  | .linkDown => Sys2Proof.Machine.execLinkDown s
  | .l1SubstateEntry l12 => Sys2Proof.Machine.execL1SubstateEntry l12 s
  | .msixVectorUnmask v => Sys2Proof.Machine.execMsixVectorUnmask v s
  | .configSpaceWrite dstate msix aspmL1 ctl => Sys2Proof.Machine.execConfigSpaceWrite dstate msix aspmL1 ctl s
  | .slowTick f => Sys2Proof.Machine.execSlowTick f s

end Sys2Proof.Machine
end

