-- ==== Sys2Proof/WellFormed.lean ====
section
/-! DEFINITION. Which commands are well formed: the shape that the rule of a row fixes for what it reads from outside. A
meaning is total all the same: an ill-formed command that reaches the queue is answered as its rule says or leaves the
state unchanged (log entry 3). -/

namespace Sys2Proof

/-- A dynamic address an I3C controller assigns: not 0, which says that none is held (R162). -/
def addrOk (a : BitVec 7) : Bool := a != 0

/-- A value of an entry: 256 bytes at most (R108, R191). -/
def valueOk (l : List Byte) : Bool := decide (l.length ≤ 256)

/-- A memory request of the host: one byte at least, inside one aligned 4 KiB page (log entry 32). -/
def accessOk (off len : Nat) : Bool := decide (0 < len) && decide (off % 4096 + len ≤ 4096)

/-- A frame of a leaf that comes with a command: absent, or 8,448 bytes (R657). -/
def frameOk (l : List Byte) : Bool := decide (l.length = 0) || decide (l.length = 8448)

/-- A press descriptor: 32 bytes (R600). -/
def descOk (l : List Byte) : Bool := decide (l.length = 32)

/-- The shape of a command's operands. -/
def Instr.wf : Instr → Bool
  | .hdrDdrWriteCmd code _ _ => decide (code.toNat < 128)
  | .hdrDdrReadCmd code _ => decide (128 ≤ code.toNat)
  | .entdaa a => addrOk a
  | .setdasa a => addrOk a
  | .setnewda a => addrOk a
  | .registerWrite off d => accessOk off.toNat d.length
  | .bar0ReservedWrite off d => accessOk off.toNat d.length
  | .dictWrite _ _ _ v => valueOk v
  | .stagedWrite _ _ _ v => valueOk v
  | .eraseBlock _ d => descOk d
  | .eraseSector _ d => descOk d
  | .programRun _ d => descOk d
  | .readRun _ d => descOk d
  | .otpProgram _ d => descOk d
  | .refreshMove _ d => descOk d
  | .submissionFetch _ e => decide (e.length = 64)
  | .waitResume _ _ t4 => decide (t4.length % 8448 = 0)
  | .copy _ _ t4 => decide (t4.length % 8448 = 0)
  | .movIn _ e => frameOk e.frame
  | .movOut _ e => frameOk e.frame
  | .leafArrival _ _ e => frameOk e.frame
  | .apertureRead off n => accessOk off.toNat n
  | .apertureWrite off d => accessOk off.toNat d.length
  | .bar2WindowAccess off w n d => accessOk off.toNat n && decide (d.length = if w then n else 0)
  | .bar2RingWrite off d _ => accessOk off.toNat d.length
  | .runImposition _ _ t => decide (t.length % 16 = 0)
  | _ => true

/-- Every waiting command is well formed. -/
def wfQueue (l : List Instr) : Bool := l.all Instr.wf

end Sys2Proof
end

