-- ==== Sys2Proof/Safety.lean ====
section
/-! DEFINITION. What claims say of a state: canonical memories and tables, what a command may never change, and a safe
step. -/

namespace Sys2Proof

open Machine

/-- The dictionary's value table is canonical: keys strictly rising, no entry at its card's default. Equal register
files are then equal data. -/
def valsWf (sku : Sku) : Nat → Tab Nat → Bool
  | _, [] => true
  | lo, (k, v) :: t => decide (lo ≤ k) && decide (v ≠ dfltVal sku k) && valsWf sku (k + 1) t

/-- Every byte store of the block is canonical (log entry 2). -/
def memsWf (s : State) : Bool :=
  s.tiers.slices.toList.all Mem.wf && Mem.wf s.tiers.commons && Mem.wf s.tiers.t2 && Mem.wf s.tiers.rings &&
  Mem.wf s.tiers.staging && Mem.wf s.tiers.recovery &&
  s.mboxes.toList.all (fun m => Mem.wf m.reqData) &&
  s.bays.toList.all (fun b => Mem.wf b.t0 && b.moves.all fun m => Mem.wf m.frame) &&
  s.quires.toList.all (fun x => x.train.all fun t => Mem.wf t.frames) && s.weave.aptBuf.all (fun a => Mem.wf a.frames) &&
  Mem.wf s.nv.main && s.nv.loads.all (fun l => Mem.wf l.body) && Mem.wf s.nv.aux && Mem.wf s.nv.otp && Mem.wf s.nv.fwStage &&
  s.nv.boot.slotA.all Mem.wf && s.nv.boot.slotB.all Mem.wf && Mem.wf s.sent.image

/-- Keys strictly rising, each once: a key names one value. -/
def Tab.rising {α : Type} : Nat → Tab α → Bool
  | _, [] => true
  | lo, (k, _) :: t => decide (lo ≤ k) && Tab.rising (k + 1) t

/-- The tables of a bay. -/
def bayRising (x : Bay) : Bool :=
  Tab.rising 0 x.slots && Tab.rising 0 x.racc && Tab.rising 0 x.dregs && Tab.rising 0 x.ready && Tab.rising 0 x.tags &&
  x.engines.toList.all (fun e => Tab.rising 0 e.acc && Tab.rising 0 e.epochTag) &&
  x.sets.toList.all (fun t => Tab.rising 0 t.max && Tab.rising 0 t.scale && Tab.rising 0 t.pred)

/-- Every sparse table of the block is a table. -/
def tabsRising (s : State) : Bool :=
  Tab.rising 0 s.dict.staged && Tab.rising 0 s.dict.sets && Tab.rising 0 s.dict.cmds &&
  Tab.rising 0 s.i3c.tickets && Tab.rising 0 s.st.stitches && s.quires.toList.all (fun x => Tab.rising 0 x.unified) &&
  s.bays.toList.all bayRising && Tab.rising 0 s.weave.queues && Tab.rising 0 s.weave.lent &&
  Tab.rising 0 s.weave.sensed && Tab.rising 0 s.weave.aptUsed && Tab.rising 0 s.weave.aptQueue &&
  Tab.rising 0 s.weave.tlQueue && Tab.rising 0 s.nv.lib && Tab.rising 0 s.nv.blockTab && Tab.rising 0 s.nv.blocks &&
  Tab.rising 0 s.nv.bands && Tab.rising 0 s.nv.sparesUsed && Tab.rising 0 s.sent.biquad && Tab.rising 0 s.sec.classKeys

/-- What every step keeps: canonical registers, memories and tables. -/
abbrev Inv (s : State) : Prop := valsWf s.sku 0 s.dict.vals = true ∧ memsWf s = true ∧ tabsRising s = true

/-- A step that does not stop. -/
def SafeStep (s : State) : Prop := ∃ t, step s = .next t

/-- The outputs of `t` continue those of `s`: nothing sent is taken back. -/
def Sends (s t : State) : Prop := ∃ l, t.out = s.out ++ l

end Sys2Proof
end

