-- ==== Sys2Proof/Certificates/Slice0/Obligations.lean ====
section
/-! DEFINITION. The statements for the provers. Each docstring names the rules of spec/ it formalises. -/

open Sys2Proof Sys2Proof.Machine

/-! ### Resets, balls, JTAG, clocks (02, 05) -/

/-- What every device reset leaves (R220, R126, R251): boot has not run, every quire, bay, stitch, mailbox and volatile
tier is at its default, what is stored stays, the cause is noted for LAST_RESET, the real-time counter goes on. -/
def AfterReset (s : State) (cause : Nat) (t : State) : Prop :=
  t.sku = s.sku ∧ t.boot = .waiting ∧ t.quires = Vector.replicate 8 Quire.reset ∧ t.bays = Vector.replicate 8 Bay.reset ∧
  t.mboxes = Vector.replicate 9 Mbox.reset ∧ t.st = State.reset.st ∧ t.tiers = Tiers.reset ∧ t.i3c = I3c.reset ∧
  t.nv.lib = s.nv.lib ∧ t.nv.otp = s.nv.otp ∧ t.nv.aux = s.nv.aux ∧ t.nv.journal = s.nv.journal ∧
  t.nv.boot.lastReset = cause ∧ t.sec.classKeys = s.sec.classKeys ∧
  t.rtc = s.rtc ∧ t.out = s.out ∧ t.pending = s.pending ∧
  (∀ k, k ≠ Key.profselSampled → t.rd k = if keptByReset s.sku k then s.rd k else dfltVal s.sku k)

/-- `s` with a JTAG instruction loaded through Shift-IR and its data register selected (R100). -/
def Sys2Proof.Machine.State.showIr (s : State) (ir : BitVec 6) (dr : JtagReg) : State :=
  { s with jtag := { s.jtag with ir := ir, dr := dr, tap := s.jtag.tap.walk irPath }, out := s.out ++ [.jtagRegister dr] }

/-- The device reset of R220, from each trigger that can begin it: RESET_N low (R52), PGOOD_IN low (R65), TESTEN high
outside BLANK (R54), a scheduled reset (R224), a wrong firmware digest (R92), the watchdog's grace (R918), EXTEST, CLAMP
and HIGHZ (R104). -/
def Obligations.ResetTriggersReach : Prop :=
  ∀ s : State, s.power ≠ .sOff → Inv s →
    (s.pins.resetN = true → ∃ t, exec .resetNAssert s = .next t ∧ AfterReset s LR.resetN t ∧ t.pins.resetN = false) ∧
    (s.pins.pgood = true → ∃ t, exec .pgoodInFall s = .next t ∧ AfterReset s LR.pgood t ∧ t.pins.pgood = false) ∧
    (s.lcRow ≠ lcBlank → s.pins.testen = false →
      ∃ t, exec .testenHigh s = .next t ∧ AfterReset s LR.testen t ∧ t.pins.testen = true) ∧
    (∀ c, s.nv.boot.resetDue = some c → ∃ t, exec .deviceResetStart s = .next t ∧ AfterReset s c t) ∧
    (s.pm.waking = true → s.clk.nvPll = true →
      ∃ t, exec (.mcWakeComplete false) s = .next t ∧ AfterReset s LR.fwDigest t) ∧
    (s.rd Key.wdtState = 1 → s.wdtPaused = false → s.running = true →
      ∃ t, exec .wdtGraceExpiry s = .next t ∧ AfterReset s LR.watchdog t) ∧
    (s.tapPowered = true → holdsBalls s.jtag.ir = false →
      (∃ t, exec .extest s = .next (t.showIr irExtest .boundary) ∧ AfterReset s LR.tap t ∧ t.jtag = s.jtag) ∧
      (∃ t, exec .clamp s = .next (t.showIr irClamp .bypass) ∧ AfterReset s LR.tap t ∧ t.jtag = s.jtag) ∧
      (∃ t, exec .highz s = .next (t.showIr irHighz .bypass) ∧ AfterReset s LR.tap t ∧ t.jtag = s.jtag))

/-- TESTEN high in BLANK opens factory test modes the manual does not describe: the one stop of that command (R867). -/
def Obligations.TestenHighInBlankStops : Prop :=
  ∀ s : State, s.lcRow = lcBlank → exec .testenHigh s = .fault .factoryTestMode

/-- R63: boot starts only once the AON domain is released, PGOOD_IN and RESET_N are high and CLKIN_38M4 is detected. -/
def Obligations.BootStartsOnlyUnderR63 : Prop :=
  ∀ (f : BootFacts) (s t : State), exec (.bootStart f) s = .next t → t ≠ s →
    s.pins.aonReleased = true ∧ s.pins.pgood = true ∧ s.pins.resetN = true ∧ s.clkinSeen = true

/-- Boot runs when R63 allows it and nothing else holds the device: recovery boot with BOOTSEL high, unless the reset
was a recovery load's, or with no firmware slot that verifies (R236); normal boot otherwise. -/
def BootStartsClause : Prop :=
  ∀ (f : BootFacts) (s : State), s.boot = .waiting → s.heldInReset = false → s.clkinSeen = true →
    ∃ t, exec (.bootStart f) s = .next t ∧
      t.boot = (if s.bootSlot.isNone ∨ (f.bootsel = true ∧ s.nv.boot.skipBootsel = false) then .recovery else .normal)

/-- Pins that are released, and oscillators (R54, R62, R65, R79, R81, R85): each command changes its own pin or clock and
nothing else. -/
def PinsAndOscillatorsClause : Prop :=
  ∀ s : State,
    (s.pins.aonUp = true → exec .aonRelease s = .next { s with pins := { s.pins with aonReleased := true } }) ∧
    exec .pgoodInRise s = .next { s with pins := { s.pins with pgood := true } } ∧
    exec .resetNRelease s = .next { s with pins := { s.pins with resetN := true } } ∧
    exec .testenLow s = .next { s with pins := { s.pins with testen := false } } ∧
    (s.clk.clkWait = false → s.pm.held = [] →
      exec .clkinDetected s = .next { s with pins := { s.pins with clkin := true } }) ∧
    (s.pins.aonUp = true → exec .crystalStart s =
      .next { s with clk := { s.clk with crystal := true, lowOsc := s.clk.lowOsc && s.power != .sRet } }) ∧
    (s.coreOn = false → s.oscDemand = false →
      exec .quickOscStop s = .next { s with clk := { s.clk with quickOsc := false } }) ∧
    (s.coreOn = true ∨ s.oscDemand = true → exec .quickOscStop s = .next s)

/-- R103 and R100: TAP reset selects IDCODE; IDCODE returns the SKU's value (R101); SAMPLE/PRELOAD captures the level of
each ball that has a cell and takes one bit for each; BYPASS, an unassigned opcode and a locked vendor instruction select
the bypass register. The cells and their order are the model's (log entry 85). -/
def JtagInstructionsClause : Prop :=
  ∀ s : State, s.tapPowered = true → holdsBalls s.jtag.ir = false →
    exec .tapReset s = .next { s with jtag := { s.jtag with ir := 1, dr := .idcode, tap := .testLogicReset, armed := true } } ∧
    exec .idcode s =
      .next ((s.showIr 1 .idcode).emit (.jtagIdcode (BitVec.ofNat 32 (idcodeOf s.sku)))) ∧
    (∀ cells board, cells.length = cellBalls.length → ∃ t, exec (.samplePreload { cells := cells, board := board }) s = .next t ∧
      t.jtag.ir = 2 ∧ t.jtag.dr = .boundary ∧ t.jtag.cells = cells ∧
      t.out = s.out ++ [.jtagRegister .boundary, .jtagScan ((s.showIr 2 .boundary).sampled board)] ∧
      t = { s with jtag := t.jtag, out := t.out }) ∧
    (∀ c, assignedIr c = false → exec (.bypass c) s = .next (s.showIr c .bypass)) ∧
    (∀ c g, assignedIr c = false → s.debugNow = 0 → exec (.vendorDebugInstruction c g) s = .next (s.showIr c .bypass))

/-- The loss of VDD_AON and its return (R61, R833, R921): every volatile state is lost, the real-time counter starts at
zero, what is stored stays; VDD_AON back, F starts at the die temperature (R847). -/
def PowerCycleClause : Prop :=
  ∀ s : State, Inv s →
    (∃ t, exec .powerLoss s = .next t ∧ t.power = .sOff ∧ t.rtc = 0 ∧ t.pins.aonUp = false ∧ t.boot = .waiting ∧
      t.quires = Vector.replicate 8 Quire.reset ∧ t.tiers = Tiers.reset ∧ t.nv.lib = s.nv.lib ∧ t.nv.otp = s.nv.otp ∧
      (∀ k, k ≠ Key.profselSampled → t.rd k = if keptByReset s.sku k then s.rd k else dfltVal s.sku k)) ∧
    (∀ d, s.power = .sOff → ∃ t, exec (.powerOn d) s = .next t ∧ t.power = .sIdle ∧ t.pins.aonUp = true ∧
      t.pins.aonReleased = false ∧ t.pm.filtNum = d ∧ t.pm.filtDen = 1 ∧ t.dict = s.dict ∧ t.nv = s.nv)

/-- `BootStartsClause`, `PowerCycleClause`, `JtagInstructionsClause` together. -/
def Obligations.BootAndPowerCycle : Prop := BootStartsClause ∧ PowerCycleClause ∧ JtagInstructionsClause

/-- Bay clocks and voltage (R72, R76, R837, R838): what ends a settle wait, a gate and the bay PLL. -/
def BayClocksClause : Prop :=
  ∀ s : State,
    (s.clk.settling = true →
      (∃ t, exec (.vselSettleEnd true) s = .next t ∧ t.clk.settling = false ∧ t.pm.vddBad = false ∧ t.dict = s.dict) ∧
      (∃ t, exec (.vselSettleEnd false) s = .next t ∧ t.clk = s.clk ∧ t.pm.vddBad = true ∧ t.bays = s.bays)) ∧
    (∀ b, (s.bay b).power = .gated → (s.bay b).retesting = false → s.bayWaking b = false →
      exec (.bayGateToOff b) s = .next (s.bayOff b).updateVsel ∧ ((s.bayOff b).bay b).t0 = [] ∧
      ((s.bayOff b).bay b).cache = none ∧ ((s.bayOff b).bay b).power = .off) ∧
    (s.clk.bayPll = true → (∀ b, (s.bay b).power = .off) →
      exec .bayPllOff s = .next { s with clk := { s.clk with bayPll := false } })

/-- `PinsAndOscillatorsClause`, `BayClocksClause` together. -/
def Obligations.PinsAndClocks : Prop := PinsAndOscillatorsClause ∧ BayClocksClause

/-! ### The dictionary (03) -/

/-- The dictionary engine serves a request of the moment at once: the device runs after a normal boot, the core domain
and the NV PLL run, the controller is awake, no request is held and no sleep entry is under way (log entry 29). -/
abbrev Serving (s : State) : Prop :=
  s.heldInReset = false ∧ s.coreOn = true ∧ s.boot = .normal ∧ s.pm.waking = false ∧ s.clk.nvPll = true ∧
  s.dict.cold = [] ∧ s.pm.entry = none

/-- The request passes R929: its card grants the role a write, and the length is the card's. -/
abbrev Allowed (s : State) (role : Role) (k len : Nat) : Prop := s.shapeFail (some role) true (k / 256) (k % 256) len = none

/-- R929: a write that fails the shape of its card returns the first of NO_ENTRY, NO_SUB, ACCESS, ROLE and TYPE_LEN that
applies, in any boot and any power state with the AON domain up; beside the answer it changes nothing, except that a ROLE
answer is counted (R125). -/
def Obligations.ShapeRejections : Prop :=
  ∀ (s : State) (role : Role) (idx : BitVec 16) (sub : Byte) (val : List Byte), s.dictUp = true →
    let i := idx.toNat
    let j := sub.toNat
    let may := fun (c : Card) => !(isFactory role && decide (lcField ≤ s.lc)) && grants c.write role i j
    (cardsAt i = [] → exec (.dictWrite role idx sub val) s = .next (s.answer DS.noEntry)) ∧
    (cardsAt i ≠ [] → cardOf s.sku i j = none → exec (.dictWrite role idx sub val) s = .next (s.answer DS.noSub)) ∧
    (∀ c, cardsAt i ≠ [] → cardOf s.sku i j = some c →
      (c.access = .ro → exec (.dictWrite role idx sub val) s = .next (s.answer DS.access)) ∧
      (c.access ≠ .ro → may c = false →
        exec (.dictWrite role idx sub val) s = .next ((s.count Key.dictRole).answer DS.role)) ∧
      (c.access ≠ .ro → may c = true → lengthOk c.ty val.length = false →
        exec (.dictWrite role idx sub val) s = .next (s.answer DS.typeLen)))

/-- A write of a plain entry that is not stored (R110, R116, R132, R928): MBOX_VECTOR, I3C_SETDASA_EN, I3C_HOTJOIN_EN,
I3C_IBI_GROUPS, ALERT_MASK, WDT_VECTOR and BAR2_WIN take the value when it is in range, answer OK, and every other entry
keeps its value; out of range they answer RANGE and keep theirs. -/
def PlainWritesClause : Prop :=
  ∀ (s : State) (role : Role) (idx : BitVec 16) (sub : Byte) (val : List Byte), Serving s →
    Inv s →
    let k := keyOf idx.toNat sub.toNat
    k ∈ [Key.mboxVector, Key.i3cSetdasaEn, Key.i3cHotjoinEn, Key.i3cIbiGroups, Key.alertMask, Key.wdtVector,
      Key.bar2Win0Quire, Key.bar2Win0Addr, Key.bar2Win1Quire, Key.bar2Win1Addr] →
    Allowed s role k val.length →
    (ownRange s.sku k (leNat val) = true → ∃ t, exec (.dictWrite role idx sub val) s = .next t ∧
      (∀ j, t.rd j = if j = k then leNat val else s.rd j) ∧ t.out = s.out ++ [.status DS.ok] ∧
      t.quires = s.quires ∧ t.bays = s.bays ∧ t.nv = s.nv ∧ t.tiers = s.tiers) ∧
    (ownRange s.sku k (leNat val) = false → exec (.dictWrite role idx sub val) s = .next (s.answer DS.range))

/-- R140 and R150: a staged member held by another role, or whose set's commit is pending, answers STAGED_CONFLICT; else
a value outside the member's own range, or a TEXT with a byte 0x00 (R110), answers RANGE, and any other goes to the staged
copy alone and the writer holds it. -/
def StagedMemberWritesClause : Prop :=
  ∀ (s : State) (role : Role) (idx : BitVec 16) (sub : Byte) (val : List Byte) (i : SetId), Serving s →
    Inv s → setOfMember s.sku idx.toNat sub.toNat = some i → Allowed s role (keyOf idx.toNat sub.toNat) val.length →
    let k := keyOf idx.toNat sub.toNat
    let good := ownRange s.sku k (leNat val) && !(cardOf s.sku idx.toNat sub.toNat).any fun c => badText c val
    (s.setBars i role = true → exec (.stagedWrite role idx sub val) s = .next (s.answer DS.stagedConflict)) ∧
    (s.setBars i role = false → good = false → exec (.stagedWrite role idx sub val) s = .next (s.answer DS.range)) ∧
    (s.setBars i role = false → good = true → ∃ t,
      exec (.stagedWrite role idx sub val) s = .next t ∧ t.dict.vals = s.dict.vals ∧
      Tab.find t.dict.staged k = some (leNat val) ∧ (t.setState i).holder = some role ∧
      (t.setState i).pending = false ∧ t.out = s.out ++ [.status DS.ok])

/-- `PlainWritesClause`, `StagedMemberWritesClause` together. -/
def Obligations.DictionaryWrites : Prop := PlainWritesClause ∧ StagedMemberWritesClause

/-- COMMIT (R145, R146, R147, R151): a failed validation answers RANGE, frees the hold, keeps both copies and names the
member; VALIDATE_ONLY records a run and changes nothing else; an accepted commit of a profile or the power set is pending;
DISCARD drops the staged copy, and a pending commit ends with RESULT STATE. -/
def Obligations.CommitRows : Prop :=
  ∀ (s : State) (role : Role) (idx : BitVec 16) (i : SetId), Serving s → Inv s → setOfCommit idx.toNat = some i →
    Allowed s role (idx.toNat * 256) 1 →
    (s.commitBarred i = true → exec (.commit role idx) s = .next (s.answer DS.state)) ∧
    (s.commitBarred i = false → (s.setState i).pending = true →
      exec (.commit role idx) s = .next (s.answer DS.stagedConflict)) ∧
    (∀ k r, s.commitBarred i = false → (s.setState i).pending = false → s.validate i = some (k, r) → ∃ t,
      exec (.commit role idx) s = .next t ∧ exec (.commitValidateOnly role idx) s = .next t ∧
      t.dict.vals = s.dict.vals ∧ t.dict.staged = s.dict.staged ∧ (t.setState i).holder = none ∧
      (t.cmd i.commit).state = .done ∧ (t.cmd i.commit).result = DS.range ∧
      (t.cmd i.commit).runs = (s.cmd i.commit).runs + 1 ∧ t.out = s.out ++ [.status DS.range]) ∧
    (s.commitBarred i = false → (s.setState i).pending = false → s.validate i = none →
      (∃ t, exec (.commitValidateOnly role idx) s = .next t ∧ t.dict.vals = s.dict.vals ∧
        t.dict.staged = s.dict.staged ∧ t.dict.sets = s.dict.sets ∧ (t.cmd i.commit).result = DS.ok ∧
        (t.cmd i.commit).state = .done ∧ t.out = s.out ++ [.status DS.ok]) ∧
      (i.ofQuire = false → ∃ t, exec (.commit role idx) s = .next t ∧ t.dict.vals = s.dict.vals ∧
        t.dict.staged = s.dict.staged ∧ (t.setState i).pending = true ∧ (t.cmd i.commit).state = .running ∧
        t.out = s.out ++ [.status DS.ok])) ∧
    (∃ t, exec (.commitDiscard role idx) s = .next t ∧ t.dict.vals = s.dict.vals ∧ t.setState i = SetState.idle ∧
      (∀ k ∈ i.members, Tab.find t.dict.staged k = none) ∧ (t.cmd i.commit).state = .done ∧
      (t.cmd i.commit).result = (if (s.setState i).pending then DS.state else DS.ok) ∧
      t.out = s.out ++ [.status DS.ok])

/-- R148: at the safe point the whole active copy is replaced by the staged copy in one step, and COMMIT reads DONE with
RESULT OK. Stated for the power set and the tier sets, whose apply touches no other part of the machine. -/
def Obligations.SafePointAppliesWhole : Prop :=
  ∀ (s : State) (i : SetId), (i = .power ∨ ∃ q, i = .tier q) → Inv s →
    s.running = true → (s.setState i).pending = true → s.safeNow i = true → ∃ t,
      exec (.commitSafePoint (BitVec.ofNat 16 (i.commit / 256))) s = .next t ∧
      (∀ k, t.rd k = if k ∈ i.members then s.staged k else s.rd k) ∧ t.setState i = SetState.idle ∧
      (t.cmd i.commit).state = .done ∧ (t.cmd i.commit).result = DS.ok ∧
      t.quires = s.quires ∧ t.st = s.st ∧ t.nv = s.nv ∧ t.out = s.out

/-! ### The I3C target and the BAR0 mailboxes (04) -/

/-- The target sees SDR traffic. -/
abbrev Sdr (s : State) : Prop := s.dictUp = true ∧ s.i3c.hdr = false

/-- The target is in HDR-DDR mode and holds a dynamic address. -/
abbrev Ddr (s : State) : Prop := s.dictUp = true ∧ s.i3c.hdr = true ∧ s.rd Key.i3cDynAddr ≠ 0

/-- The quick oscillator runs after a START (R78). -/
def started (s : State) : State := s.setClk { s.clk with quickOsc := true }

/-- Dynamic addresses (R163, R165): RSTDAA clears the address and leaves every ticket; ENTDAA and SETDASA (enabled) give
one to a target that holds none, and change nothing of one that holds one; SETNEWDA replaces a held one. Nothing but the
address, the oscillator and what is sent changes. -/
def Obligations.I3cAddresses : Prop :=
  ∀ (s : State) (a : BitVec 7), Sdr s → a ≠ 0 →
    exec .rstdaa s = .next ((started s).wr Key.i3cDynAddr 0) ∧
    (s.rd Key.i3cDynAddr = 0 → ∃ t, exec (.entdaa a) s = .next t ∧ t.rd Key.i3cDynAddr = a.toNat ∧
      t.out = s.out ++ [.ccc (beBytes 6 (pidOf s.sku) ++ [0x27, 0x00])] ∧ t.i3c = s.i3c) ∧
    (s.rd Key.i3cDynAddr ≠ 0 → exec (.entdaa a) s = .next (started s)) ∧
    (s.rd Key.i3cDynAddr = 0 → s.rdB Key.i3cSetdasaEn = true →
      exec (.setdasa a) s = .next ((started s).wr Key.i3cDynAddr a.toNat)) ∧
    (s.rd Key.i3cDynAddr ≠ 0 ∨ s.rdB Key.i3cSetdasaEn = false →
      exec (.setdasa a) s = .next ((started s).emit .nack)) ∧
    (s.rd Key.i3cDynAddr ≠ 0 → exec (.setnewda a) s = .next ((started s).wr Key.i3cDynAddr a.toNat)) ∧
    (s.rd Key.i3cDynAddr = 0 → exec (.setnewda a) s = .next ((started s).emit .nack))

/-- The code of a CCC with both forms: broadcast, or direct at a dynamic address the target holds (R163, R164). -/
abbrev CccFor (s : State) (own code : Byte) : Prop := code = own ∨ (code = own + 0x80 ∧ s.rd Key.i3cDynAddr ≠ 0)

/-- The CCCs that broadcast, in their direct form too where they have one, and the HDR exit (R163): enables, maximum
lengths in range or the old value, HDR-DDR entered and left, ENTAS without effect. The direct form is not acknowledged
without a dynamic address (R164). -/
def I3cBroadcastCccsClause : Prop :=
  ∀ s : State, Sdr s →
    (∀ c i h, CccFor s 0x00 c → ∃ t, exec (.enec c { int := i, hj := h }) s = .next t ∧ t.i3c.intEn = (s.i3c.intEn || i) ∧
      t.i3c.hjEn = (s.i3c.hjEn || h) ∧ t.dict = s.dict ∧ t.out = s.out) ∧
    (∀ c i h, CccFor s 0x01 c → ∃ t, exec (.disec c { int := i, hj := h }) s = .next t ∧ t.i3c.intEn = (s.i3c.intEn && !i) ∧
      t.i3c.hjEn = (s.i3c.hjEn && !h) ∧ (i = true → t.i3c.ibis = []) ∧ t.i3c.tickets = s.i3c.tickets ∧ t.dict = s.dict ∧
      t.out = s.out) ∧
    (∀ c (n : Fin 4), CccFor s (BitVec.ofNat 8 (2 + n.val)) c → exec (.entas c) s = .next (started s)) ∧
    (∀ c (l : BitVec 16), CccFor s 0x09 c → ∃ t, exec (.setmwl { code := c, len := l }) s = .next t ∧
      t.i3c = { s.i3c with mwl := if 8 ≤ l.toNat ∧ l.toNat ≤ 263 then l.toNat else s.i3c.mwl }) ∧
    (∀ c (l : BitVec 16), CccFor s 0x0A c → ∃ t, exec (.setmrl { code := c, len := l }) s = .next t ∧
      t.i3c = { s.i3c with mrl := if 4 ≤ l.toNat ∧ l.toNat ≤ 260 then l.toNat else s.i3c.mrl }) ∧
    (s.rd Key.i3cDynAddr = 0 → ∀ ev l, exec (.enec 0x80 ev) s = .next ((started s).emit .nack) ∧
      exec (.disec 0x81 ev) s = .next ((started s).emit .nack) ∧
      exec (.setmwl { code := 0x89, len := l }) s = .next ((started s).emit .nack) ∧
      exec (.setmrl { code := 0x8A, len := l }) s = .next ((started s).emit .nack)) ∧
    exec .enthdr0 s = .next ((started s).setI3c { s.i3c with hdr := true }) ∧
    exec .hdrExit s = .next (s.setI3c { s.i3c with hdr := false })

/-- The direct CCCs that return data (R162, R163), addressed at a held dynamic address. GETSTATUS shows the completed
tickets, at most 15, and clears the protocol error it shows; the others change nothing. The byte order and the values of
GETMXDS and GETCAPS are the model's choice (log entry 31). -/
def I3cDirectReadsClause : Prop :=
  ∀ s : State, Sdr s → s.rd Key.i3cDynAddr ≠ 0 →
    let gives := fun (l : List Byte) => (started s).emit (.ccc l)
    exec .getmwl s = .next (gives (beBytes 2 s.i3c.mwl)) ∧
    exec .getmrl s = .next (gives (beBytes 2 s.i3c.mrl)) ∧
    exec .getpid s = .next (gives (beBytes 6 (match s.sku with
      | .q24 => 0x0BA6F01900B1
      | .q16 => 0x0BA6F01600B1))) ∧
    exec .getbcr s = .next (gives [0x27]) ∧ exec .getdcr s = .next (gives [0x00]) ∧
    exec .getmxds s = .next (gives [0, 0]) ∧ exec .getcaps s = .next (gives [1]) ∧
    (∃ t, exec .getstatus s = .next t ∧ t.i3c = { s.i3c with protoErr := false } ∧
      t.out = s.out ++ [.ccc (beBytes 2 (min (s.i3c.tickets.filter fun p => p.2.isComplete).length 15 +
        if s.i3c.protoErr then 32 else 0))])

/-- R171 and R170: a frame that is too short, whose byte count is wrong, or that came with a parity error is answered
TYPE_LEN, one of another TYPE is answered RANGE, ticket 0xFF, and executes nothing: the value table changes only in the
counter of protocol errors (log entry 30). In SDR and in HDR-DDR under code 0x2A alike (R188, R189). -/
def I3cBadFramesClause : Prop :=
  ∀ (s : State) (f : List Byte) (p : Bool), (Sdr s ∧ s.rd Key.i3cDynAddr ≠ 0 ∨ Ddr s) → f.length ≤ s.i3c.mwl →
    let c : Instr := if s.i3c.hdr then .hdrDdrWriteCmd 0x2A f p else .i3cRequestFrame f p
    let bad := fun (st : Byte) => ∃ t, exec c s = .next t ∧ t.i3c.response = [st, 0xFF, 0, 0] ∧ t.i3c.protoErr = true ∧
      t.dict = (s.count Key.i3cProtocolErrs).dict ∧ t.i3c.tickets = s.i3c.tickets ∧ t.quires = s.quires ∧ t.nv = s.nv ∧
      t.out = s.out
    (p = true → bad 0x04) ∧
    (f.length < 7 → f.head? = some 1 → bad 0x04) ∧
    (7 ≤ f.length → f.head? = some 1 → f.length ≠ 7 + fieldLe f 5 2 → bad 0x04) ∧
    (f.head? = some 2 → f.length ≠ 2 → bad 0x04) ∧
    (∀ b, p = false → f.head? = some b → b ≠ 1 → b ≠ 2 → bad 0x05)

/-- `I3cBroadcastCccsClause`, `I3cDirectReadsClause`, `I3cBadFramesClause` together. -/
def Obligations.I3cCommonCommands : Prop := I3cBroadcastCccsClause ∧ I3cDirectReadsClause ∧ I3cBadFramesClause

/-- R178, R181, R182: a request that is not hot takes the lowest-numbered free ticket, waits at the end of the queue and
is answered DEFER; a FETCH of a waiting ticket is answered DEFER, of a ticket not in use STATE, of a completed one with
its final status and data, which frees the ticket. -/
def I3cTicketsClause : Prop :=
  ∀ (s : State), Sdr s → s.rd Key.i3cDynAddr ≠ 0 → s.pm.entry = none → s.coreOn = true → s.dict.cold.length < 32 →
    (∀ (f : List Byte) (r : Request) (n : Nat), 7 ≤ f.length → f.length ≤ s.i3c.mwl → f.head? = some 1 →
      f.length = 7 + fieldLe f 5 2 → (bit (fieldLe f 4 1) 0 = true ∨ fieldLe f 5 2 = 0) → fieldLe f 4 1 < 8 →
      s.freeTicket = some n →
      (started s).intake (some (if bit (fieldLe f 4 1) 2 then .factory else .hostP)) (fieldLe f 4 1) (fieldLe f 1 2)
        (fieldLe f 3 1) (f.drop 7) = (.hold r, started s) →
      ∃ t, exec (.i3cRequestFrame f false) s = .next t ∧ Tab.find t.i3c.tickets n = some .waiting ∧
        t.dict.cold = s.dict.cold ++ [(r, .ticket n)] ∧ t.i3c.response = [0x07, BitVec.ofNat 8 n, 0, 0] ∧
        t.dict.vals = s.dict.vals) ∧
    (∀ (k : Byte), 2 ≤ s.i3c.mwl →
      (Tab.find s.i3c.tickets k.toNat = none → ∃ t, exec (.i3cFetchFrame [2, k] false) s = .next t ∧
        t.i3c.response = [0x06, k, 0, 0] ∧ t.i3c.tickets = s.i3c.tickets ∧ t.dict = s.dict) ∧
      (Tab.find s.i3c.tickets k.toNat = some .waiting → ∃ t, exec (.i3cFetchFrame [2, k] false) s = .next t ∧
        t.i3c.response = [0x07, k, 0, 0] ∧ t.i3c.tickets = s.i3c.tickets ∧ t.dict = s.dict) ∧
      (∀ st d, Tab.find s.i3c.tickets k.toNat = some (.complete st d) → ∃ t,
        exec (.i3cFetchFrame [2, k] false) s = .next t ∧
        t.i3c.response = [BitVec.ofNat 8 st, k] ++ natLe 2 d.length ++ d ∧
        t.i3c.tickets = Tab.put s.i3c.tickets k.toNat none ∧ (0, k.toNat) ∉ t.i3c.ibis ∧ t.dict = s.dict))

/-- R174, R173 and R175: a private read, or an HDR-DDR read under code 0xAA, returns the response to the most recent
frame, cut at the maximum read length, as often as it is repeated; one that comes before the response is ready is not
acknowledged. Reading disturbs nothing. -/
def I3cReadsClause : Prop :=
  ∀ s : State, s.i3c.response ≠ [] →
    (Sdr s → s.rd Key.i3cDynAddr ≠ 0 →
      exec (.i3cPrivateRead true) s = .next ((started s).emit (.i3cRead (some (s.i3c.response.take s.i3c.mrl)))) ∧
      exec (.i3cPrivateRead false) s = .next ((started s).emit (.i3cRead none))) ∧
    (Ddr s →
      exec (.hdrDdrReadCmd 0xAA true) s = .next ((started s).emit (.i3cRead (some (s.i3c.response.take s.i3c.mrl)))) ∧
      exec (.hdrDdrReadCmd 0xAA false) s = .next ((started s).emit (.i3cRead none)) ∧
      (∀ c r, c ≠ 0xAA → exec (.hdrDdrReadCmd c r) s = .next s) ∧
      (∀ c f p, c ≠ 0x2A → exec (.hdrDdrWriteCmd c f p) s = .next s))

/-- R188 and R189: in HDR-DDR a write command under code 0x2A carries a frame, as a private write does in SDR: a request that is
served at once leaves its status and data as the response, and a FETCH of a completed ticket leaves that ticket's, and frees it. -/
def DdrWritesClause : Prop :=
  ∀ s : State, Ddr s →
    (∀ (f : List Byte) (st : Nat) (d : List Byte) (u : State), 7 ≤ f.length → f.length ≤ s.i3c.mwl → f.head? = some 1 →
      f.length = 7 + fieldLe f 5 2 → (bit (fieldLe f 4 1) 0 = true ∨ fieldLe f 5 2 = 0) →
      (started s).intake (some (if bit (fieldLe f 4 1) 2 then .factory else .hostP)) (fieldLe f 4 1) (fieldLe f 1 2)
        (fieldLe f 3 1) (f.drop 7) = (.final st d, u) →
      ∃ t, exec (.hdrDdrWriteCmd 0x2A f false) s = .next t ∧
        t.i3c = { u.i3c with response := natLe 1 st ++ [0xFF] ++ natLe 2 d.length ++ d } ∧
        t.dict = u.dict ∧ t.quires = u.quires ∧ t.tiers = u.tiers ∧ t.nv = u.nv ∧ t.out = u.out) ∧
    (∀ (k : Byte) (st : Nat) (d : List Byte), 2 ≤ s.i3c.mwl → Tab.find s.i3c.tickets k.toNat = some (.complete st d) → ∃ t,
      exec (.hdrDdrWriteCmd 0x2A [2, k] false) s = .next t ∧ t.i3c.response = natLe 1 st ++ [k] ++ natLe 2 d.length ++ d ∧
      t.i3c.tickets = Tab.put s.i3c.tickets k.toNat none ∧ t.dict = s.dict ∧ t.quires = s.quires ∧ t.out = s.out)

/-- `I3cTicketsClause`, `I3cReadsClause`, `DdrWritesClause` together. -/
def Obligations.I3cTransactions : Prop := I3cTicketsClause ∧ I3cReadsClause ∧ DdrWritesClause

/-- R187, R185, R166: of the interrupts due, the lowest GROUP goes first and within it the first to become due; an
acknowledged one is due no more, another is sent again. A hot-join request is made while no address is held and both
enables allow it. -/
def Obligations.I3cInterrupts : Prop :=
  ∀ (s : State), Sdr s →
    (∀ (g c : Nat) (before after : List (Nat × Nat)) (acked : Bool), s.rd Key.i3cDynAddr ≠ 0 → g < 4 →
      s.i3c.ibis = before ++ (g, c) :: after → (∀ p ∈ before, g < p.1) → (∀ p ∈ after, g ≤ p.1) →
      exec (.ibiSend acked) s = .next ((s.setI3c { s.i3c with
        ibis := if acked then before ++ after else s.i3c.ibis }).emit (.ibi (BitVec.ofNat 8 (g * 32 + c % 32))))) ∧
    (s.rd Key.i3cDynAddr = 0 → s.i3c.hjEn = true → s.rdB Key.i3cHotjoinEn = true →
      exec .hotJoinRequest s = .next (s.emit .hotJoin))

/-- A mailbox request (R193 to R197, R199): a write of GO with bit 0 submits the registers' request; one that is not hot
is held and DEFERRED; a hot one is DONE with its status, its data and the tag echoed; a reserved bit answers RANGE; with a
request held the write is discarded and counted. -/
def MailboxGoClause : Prop :=
  ∀ (s : State) (i : Fin 9) (v : BitVec 32), s.barUp = true →
    let m := s.mbox i
    let flags := m.reqFlags.toNat
    let data := Mem.readN m.reqData 0 m.reqLength.toNat
    ((m.rspState = .busy ∨ m.rspState = .deferred) → exec (.mboxGo i v) s = .next (s.count Key.mboxDiscards)) ∧
    (m.held = false → 4 ≤ v.toNat → exec (.mboxGo i v) s =
      .next (s.setMbox i { m with rspState := .done, rspStatus := DS.range })) ∧
    (m.held = false → (v = 1 ∨ v = 3) → m.reqLength.toNat ≤ 256 → (bit flags 0 = true ∨ m.reqLength = 0) →
      let u := s.setMbox i { m with rspState := .busy, irq := v == 3 }
      (∀ r, u.intake (mboxRole i flags) flags m.reqIndex.toNat m.reqSub.toNat data = (.hold r, u) → s.coreOn = true →
        s.pm.entry = none → s.dict.cold.length < 32 → ∃ t, exec (.mboxGo i v) s = .next t ∧
        (t.mbox i).rspState = .deferred ∧ (t.mbox i).rspStatus = DS.defer ∧
        t.dict.cold = s.dict.cold ++ [(r, .mbox i)] ∧ t.dict.vals = s.dict.vals ∧ t.out = s.out) ∧
      (∀ st d, v = 1 → u.intake (mboxRole i flags) flags m.reqIndex.toNat m.reqSub.toNat data = (.final st d, u) → ∃ t,
        exec (.mboxGo i v) s = .next t ∧ (t.mbox i).rspState = .done ∧ (t.mbox i).rspStatus = st ∧
        (t.mbox i).rspData = d ∧ (t.mbox i).rspTag = m.reqTag ∧ t.dict = s.dict ∧ t.out = s.out))

/-- Register writes of BAR0 (R191, R249, R250): a mailbox register takes its bytes; a write to reserved offsets alone is
discarded and counted, by either row; an access that leaves its 4 KiB page is no request (log entry 32). A read of 1 to 8
bytes in one 8-byte unit is completed with its bytes while the link is in L0, whatever the power state, and any other ends
with Unsupported Request (R201, R202). -/
def Bar0WritesClause : Prop :=
  ∀ (s : State) (i : Fin 9), s.barUp = true → (s.mbox i).held = false →
    (∀ off n, s.rd Key.pcieLinkState = 2 → 0 < n → s.bar0Completion off n =
      some (if off % 8 + n ≤ 8 then .barRead ((span off n).map s.bar0Byte) else .unsupportedRequest)) ∧
    let base : Nat := if i.val < 8 then 0x10F000 + i.val * 0x10000 else 0x80000
    (∀ (v : BitVec 16), exec (.registerWrite (BitVec.ofNat 24 base) (natLe 2 v.toNat)) s =
      .next (s.setMbox i { s.mbox i with reqIndex := v })) ∧
    (∀ (b : Byte), exec (.registerWrite (BitVec.ofNat 24 (base + 3)) [b]) s =
      .next (s.setMbox i { s.mbox i with reqFlags := b })) ∧
    (∀ (v : BitVec 32), exec (.registerWrite (BitVec.ofNat 24 (base + 8)) (natLe 4 v.toNat)) s =
      .next (s.setMbox i { s.mbox i with reqTag := v })) ∧
    (∀ (off : BitVec 24) (d : List Byte), inPage off.toNat d.length = true →
      (∀ a ∈ span off.toNat d.length, bar0At a = .reserved) →
      exec (.bar0ReservedWrite off d) s = .next (s.count Key.bar0ReservedWrites))

/-- MSI-X (R200) and the function's configuration (R248, R863): unmasking a vector that is not pending changes its mask
alone; a pending one is sent, once, when nothing else holds it back. A configuration write sets D-state, enables and sizes,
and D3hot takes an L0 link to L1 (log entry 33). -/
def MsixAndConfigurationClause : Prop :=
  ∀ (s : State), s.barUp = true → s.msix.pba = 0 →
    (∀ v : Fin 64, ∃ t, exec (.msixVectorUnmask v) s = .next t ∧ (t.msix.table.get v).masked = false ∧
      (∀ w, w ≠ v → t.msix.table.get w = s.msix.table.get w) ∧ t.msix.pba = 0 ∧ t.out = s.out ∧ t.dict = s.dict) ∧
    (∀ (v : Fin 64), s.fn.msixEnable = true → s.fn.funcMask = false → ∃ t,
      exec (.msixVectorUnmask v) { s with msix := { s.msix with pba := BitVec.ofNat 64 (2 ^ v.val) } } = .next t ∧
      t.msix.pba = 0 ∧ t.out = s.out ++ [.msix v.val (s.msix.table.get v).addr (s.msix.table.get v).data]) ∧
    (∀ d e f l m r, ∃ t,
      exec (.configSpaceWrite d { enable := e, funcMask := f } l { mps := m, mrrs := r }) s = .next t ∧
      t.fn.dstate = d ∧ t.fn.msixEnable = e ∧ t.fn.funcMask = f ∧ t.fn.aspmL1 = l ∧ t.fn.mps = m ∧ t.fn.mrrs = r ∧ t.power = s.power ∧
      (d = 3 → s.rd Key.pcieLinkState = 2 → t.rd Key.pcieLinkState = 3))

/-- `Bar0WritesClause`, `MsixAndConfigurationClause` together. -/
def Obligations.RegisterWrites : Prop := Bar0WritesClause ∧ MsixAndConfigurationClause

/-- R137: the oldest held request is served, its answer goes where it came from, and the requests behind it keep their
order. A read of an entry that is not computed by a unit returns its value. -/
def DeferredReadCompletesClause : Prop :=
  ∀ (s : State) (env : Env) (r : Request) (n : Nat) (c : Card) (rest : List (Request × Reply)), s.mcServes = true →
    s.dict.cold = (r, .ticket n) :: rest → r.write = false → cardOf s.sku r.idx r.sub = some c → s.boot = .normal →
    let u := s.setDict { s.dict with cold := rest }
    ∃ t, exec (.deferCompletion env) s = .next t ∧ t.dict.cold = rest ∧ t.dict.vals = s.dict.vals ∧
      Tab.find t.i3c.tickets n = some (.complete DS.ok (u.readBytes c r.idx r.sub r.view)) ∧
      t.quires = s.quires ∧ t.nv = s.nv ∧ t.out = s.out

/-- `MailboxGoClause`, `DeferredReadCompletesClause` together. -/
def Obligations.MailboxRequests : Prop := MailboxGoClause ∧ DeferredReadCompletesClause

/-! ### Profiles, resets, identity (05) -/

/-- PERST_N and FLR (R220, R55): the control plane and every quire are reset, the quires as by Q_RESET; PERST_N takes
the link down too, FLR keeps it. PERST_N high starts link training in a running device. -/
def PerstAndFlrClause : Prop :=
  ∀ s : State,
    (s.pins.perstN = true → ∃ t, exec .perstNAssert s = .next t ∧ t.pins = { s.pins with perstN := false } ∧
      t.fn = { PcieFn.reset with clkreqReleased := true } ∧ t.msix = Msix.reset ∧
      t.mboxes = Vector.replicate 9 Mbox.reset ∧ t.weave.aptReads = [] ∧ t.pm.held = [] ∧
      t.quires = (if s.up then s.resetQuires else s).quires ∧ t.tiers = (if s.up then s.resetQuires else s).tiers ∧
      t.boot = s.boot) ∧
    (s.pins.perstN = false → s.heldInReset = false → s.running = true → s.coreOn = true → s.pm.entry = none →
      s.rd Key.pcieLinkState = linkDownCode → ∃ t, exec .perstNRelease s = .next t ∧ t.pins.perstN = true ∧
      t.clk = { s.clk with quickOsc := true } ∧ t.out = s.out ++ [.linkTraining] ∧ t.quires = s.quires ∧ t.nv = s.nv ∧
      t.tiers = s.tiers) ∧
    (s.barUp = true → ∃ t, exec .flr s = .next t ∧ t.pins = s.pins ∧
      t.fn = { PcieFn.reset with clkreqReleased := s.fn.clkreqReleased } ∧ t.msix = Msix.reset ∧
      t.mboxes = Vector.replicate 9 Mbox.reset ∧ t.quires = (if s.up then s.resetQuires else s).quires ∧
      t.tiers = (if s.up then s.resetQuires else s).tiers ∧ t.boot = s.boot)

/-- CLKIN_38M4 lost while the core domain runs (02): every PLL stops, no bay clock runs, the loss is counted. The
controller's wake with the right digest ends the wake (R91); a bay's retest ends, and a bay that fails it leaves service
(R902). -/
def ClockLossWakeAndRetestClause : Prop :=
  ∀ s : State, Inv s →
    (s.clkinSeen = true → s.running = true → s.pm.waking = false → ∃ t, exec .clkinLost s = .next t ∧
      t.clk = { s.clk with bayPll := false, nvPll := false, lpddrPll := false } ∧
      t.pins = { s.pins with clkin := false } ∧ t.power = .sIdle ∧
      (∀ b, t.bay b = if (s.bay b).power = .running then { s.bay b with power := .gated } else s.bay b) ∧
      t.quires = s.quires ∧ t.nv = s.nv ∧ t.out = s.out) ∧
    (s.pm.waking = true → s.clk.nvPll = true → s.rd Key.sentState ≠ 1 →
      exec (.mcWakeComplete true) s = .next (s.setPm { s.pm with waking := false })) ∧
    (∀ b, (s.bay b).retesting = true → (∃ t, exec (.bayRetestDone b true) s = .next t ∧
        t.bay b = { s.bay b with retesting := false } ∧ (∀ c, c ≠ b → t.bay c = s.bay c) ∧ t.dict = s.dict) ∧
      (∃ t, exec (.bayRetestDone b false) s = .next t ∧ (t.bay b).power = .off ∧ (t.bay b).t0 = [] ∧
        (t.bay b).retesting = false ∧ t.mapped b = false ∧ t.quires = s.quires ∧ t.nv.lib = s.nv.lib))

/-- PROF_RESTORE and PROFILE_SWITCH as commands (R140, R207, R213, R214): the factory contents are staged and held for
HOST-P; a switch is LOCKED under the pin-lock, ends with RESULT STATE where the holdings do not fit, else drains. -/
def ProfileCommandsClause : Prop :=
  ∀ (s : State) (role : Role), Serving s →
    (∀ p : Fin 4, Allowed s role (Key.profRestore p.val) 0 → s.setBars (.prof p) role = false → ∃ t,
      exec (.profRestore role p) s = .next t ∧ t.dict.vals = s.dict.vals ∧
      (∀ k ∈ (SetId.prof p).members, Tab.find t.dict.staged k = some (dfltVal s.sku k)) ∧
      t.setState (.prof p) = { holder := some .hostP, pending := false } ∧ t.out = s.out ++ [.status DS.ok]) ∧
    (∀ arg, Allowed s role Key.profileSwitch arg.length →
      (s.rdB Key.profilePinLock = true → exec (.profileSwitch role arg) s = .next (s.answer DS.locked)) ∧
      (s.rdB Key.profilePinLock = false → switchTarget arg ≤ 3 → fieldLe arg 1 1 = 0 → switchLimit arg ≤ 10000 →
        s.cmdRunning Key.profileSwitch = false →
        (s.holdingsFit (Fin.ofNat 4 (switchTarget arg)) = true → ∃ t, exec (.profileSwitch role arg) s = .next t ∧
          t.switch = some (Switch.mk (s.rd Key.activeProfile) (switchTarget arg) (switchLimit arg) 0 false []) ∧
          (t.cmd Key.profileSwitch).state = .running ∧ t.part = s.part ∧ t.quires = s.quires ∧ t.bays = s.bays ∧
          t.out = s.out ++ [.status DS.ok]) ∧
        (s.holdingsFit (Fin.ofNat 4 (switchTarget arg)) = false → ∃ t, exec (.profileSwitch role arg) s = .next t ∧
          t.switch = none ∧ (t.cmd Key.profileSwitch).state = .done ∧ (t.cmd Key.profileSwitch).result = DS.state ∧
          t.part = s.part ∧ t.quires = s.quires ∧ t.out = s.out ++ [.status DS.ok])))

/-- The rest of a switch (R214 to R219): at the end of the drain the target's partition, quotas and steps take effect,
no quire is reset and the weave of the source runs on; a drain beyond its limit ends with RESULT BUSY under the old
profile; at the frame boundary the target becomes the active profile, with RESULT OK. -/
def ProfileSwitchStepsClause : Prop :=
  ∀ (s : State) (w : Switch) (n : Nat), Inv s → s.switch = some w → s.coreOn = true →
    w.target < 4 →
    (w.repartitioned = false → n ≤ w.limitMs → (allQ.all fun q => s.drained q) = true → ∃ t,
      exec (.switchDrainEnd n) s = .next t ∧ t.part = w.target ∧ (t.switch.map Switch.repartitioned) = some true ∧
      (t.switch.map Switch.drainMs) = some n ∧ t.rd Key.switchPhase = 3 ∧ t.weave = s.weave ∧
      t.st.stitches = s.st.stitches ∧ t.tiers = s.tiers ∧ t.nv.lib = s.nv.lib ∧ t.quires = s.quires) ∧
    (w.repartitioned = false → w.limitMs ≤ n → (allQ.all fun q => s.drained q) = false → ∃ t,
      exec (.switchDrainLimit n) s = .next t ∧ t.switch = none ∧ t.part = s.part ∧ t.weave = s.weave ∧
      (t.cmd Key.profileSwitch).state = .done ∧ (t.cmd Key.profileSwitch).result = DS.busy ∧ t.tiers = s.tiers) ∧
    (w.repartitioned = true → s.weave.slot = 0 → ∃ t, exec .switchResume s = .next t ∧ t.switch = none ∧
      t.rd Key.activeProfile = w.target ∧ t.rd Key.switchPhase = 0 ∧ t.weave.profile = w.target ∧
      (t.cmd Key.profileSwitch).state = .done ∧ (t.cmd Key.profileSwitch).result = DS.ok ∧ t.tiers = s.tiers ∧
      t.nv = s.nv)

/-- `ProfileCommandsClause`, `ProfileSwitchStepsClause` together. -/
def Obligations.ProfileChanges : Prop := ProfileCommandsClause ∧ ProfileSwitchStepsClause

/-- DEVICE_RESET (R223, R224) and RECOVERY_LOAD (R237 to R241): a wrong argument answers RANGE; a run completes with
RESULT OK and schedules the device reset. A recovery load outside recovery boot answers STATE; in it, an image that does
not verify (R888) ends the run with RESULT STATE and programs no commit record, one that verifies and reads back is
committed to the slot the record does not name (while sequence numbers have not run out). -/
def Obligations.ResetCommands : Prop :=
  ∀ (s : State) (role : Role) (arg : List Byte),
    (Serving s → Allowed s role Key.deviceReset arg.length →
      (fieldLe arg 0 4 ≠ 0x7E5E7019 → exec (.deviceReset role arg) s = .next (s.answer DS.range)) ∧
      (fieldLe arg 0 4 = 0x7E5E7019 → s.cmdRunning Key.deviceReset = false → ∃ t,
        exec (.deviceReset role arg) s = .next t ∧ t.nv.boot = { s.nv.boot with resetDue := some LR.deviceReset } ∧
        (t.cmd Key.deviceReset).state = .done ∧ (t.cmd Key.deviceReset).result = DS.ok ∧ t.dict.vals = s.dict.vals ∧
        t.quires = s.quires ∧ t.tiers = s.tiers ∧ t.nv.lib = s.nv.lib ∧ t.out = s.out ++ [.status DS.ok])) ∧
    (∀ env : Env, Serving s → Allowed s role Key.recoveryLoad arg.length →
      exec (.recoveryLoad role arg env) s = .next (s.answer DS.state)) ∧
    (∀ env : Env, s.heldInReset = false → s.coreOn = true → s.boot = .recovery → s.pm.waking = false →
      s.clk.nvPll = true → s.dict.cold = [] → s.pm.entry = none → Allowed s role Key.recoveryLoad arg.length →
      s.cmdRunning Key.recoveryLoad = false →
      let len := fieldLe arg 0 4
      let slotB := (s.nv.boot.named.map fun b => !b).getD false
      (655360 < len → exec (.recoveryLoad role arg env) s = .next (s.answer DS.range)) ∧
      (len ≤ 655360 → s.imageOk s.tiers.recovery len = false → ∃ t,
        exec (.recoveryLoad role arg env) s = .next t ∧ t.nv = s.nv ∧
        (t.cmd Key.recoveryLoad).result = DS.state ∧ t.boot = .recovery ∧ t.out = s.out ++ [.status DS.ok]) ∧
      (len ≤ 655360 → env.readBack = true → s.imageOk s.tiers.recovery len = true →
        s.nv.boot.copy0.seq.toNat < 2 ^ 32 - 1 → s.nv.boot.copy1.seq.toNat < 2 ^ 32 - 1 → ∃ t,
        exec (.recoveryLoad role arg env) s = .next t ∧ t.nv.boot.resetDue = some LR.recovery ∧
        t.nv.boot.skipBootsel = true ∧ t.nv.boot.named = some slotB ∧ (t.cmd Key.recoveryLoad).result = DS.ok ∧
        t.nv.lib = s.nv.lib ∧ t.out = s.out ++ [.status DS.ok]))

/-- The Colophon (R244, R245, R246, R128): a tag that differs is stored and counted, an unchanged one is not, a full count
or the lock answers LOCKED; COLOPHON_LOCK locks it. -/
def Obligations.Colophon : Prop :=
  ∀ (s : State) (role : Role), Serving s → Inv s →
    (∀ (sub : Byte) (val : List Byte), Allowed s role (Key.colophonTag sub.toNat) val.length →
      let k := Key.colophonTag sub.toNat
      let locked := s.rdB Key.colophonLocked = true ∨ 10000 ≤ s.rd Key.colophonWrites
      (locked → exec (.colophonTagWrite role sub val) s = .next (s.answer DS.locked)) ∧
      (¬ locked → s.rd k = leNat val → exec (.colophonTagWrite role sub val) s = .next (s.answer DS.ok)) ∧
      (¬ locked → s.rd k ≠ leNat val → s.paramFull = false → ∃ t, exec (.colophonTagWrite role sub val) s = .next t ∧
        t.rd k = leNat val ∧ t.rd Key.colophonWrites = s.rd Key.colophonWrites + 1 ∧
        t.rd Key.colophonLocked = s.rd Key.colophonLocked ∧ t.quires = s.quires ∧ t.tiers = s.tiers ∧
        t.out = s.out ++ [.status DS.ok])) ∧
    (∀ arg, Allowed s role Key.colophonLock arg.length →
      (fieldLe arg 0 4 ≠ 0x10C40019 → exec (.colophonLock role arg) s = .next (s.answer DS.range)) ∧
      (fieldLe arg 0 4 = 0x10C40019 → s.cmdRunning Key.colophonLock = false → ∃ t,
        exec (.colophonLock role arg) s = .next t ∧ t.rdB Key.colophonLocked = true ∧
        t.rd Key.colophonWrites = s.rd Key.colophonWrites ∧ (t.cmd Key.colophonLock).result = DS.ok ∧
        (∀ n, n ≤ 32 → t.rd (Key.colophonTag n) = s.rd (Key.colophonTag n)) ∧ t.out = s.out ++ [.status DS.ok]))

/-! ### Quires (06) -/

/-- The violation of R294 with this cause and DETAIL froze the quire (R295, R296): Q_STATE FROZEN, the record written, no
run left, no completion of it written. -/
def FrozenBy (s t : State) (q : QNum) (cause detail : Nat) : Prop :=
  (t.quire q).state = .frozen ∧ bits (t.rd (Key.qFaultRecord q)) 7 0 = cause ∧
  bits (t.rd (Key.qFaultRecord q)) 191 160 = detail ∧ (t.quire q).runs = [] ∧ (t.quire q).heldCq = [] ∧
  (t.quire q).ctrCompleted = (s.quire q).ctrCompleted ∧ s.stitchRange q ∈ t.st.poisons

/-- The quire is in a state in which a violation is its first. -/
abbrev Lively (s : State) (q : QNum) : Prop := (s.quire q).state ≠ .frozen ∧ (s.quire q).state ≠ .resetting

/-- The completion entry of a submission entry (R277). -/
def answerOf (e : Entry) (status detail result : Nat) : Completion :=
  { cid := e.cid, sqInfo := e.headAfter % 4096 + 4096 * e.ring.val, status := status, detail := detail, result := result,
    flags := e.flags, doneStitch := e.doneStitch }

/-- The completion ring has room, and no completion is held. -/
abbrev CqRoom (s : State) (q : QNum) : Prop := s.cqFull q = false ∧ (s.quire q).heldCq = []

/-- The entry completes (R269, R277): its completion entry is the next of the ring and the first thing sent, with the
quire's PASID where the ring lies in host memory (R260). -/
def Completes (s t : State) (q : QNum) (e : Entry) (status detail result : Nat) : Prop :=
  (t.quire q).ctrCompleted = (s.quire q).ctrCompleted + 1 ∧
  ∃ l, t.out = s.out ++ Output.completion q (if ringLoc (s.rd (Key.qCqBase q)) = 0 then some (s.rd (Key.qPasid q)) else none)
    (s.quire q).cqTail (completionBytes (answerOf e status detail result) (s.quire q).phase) :: l

/-- Q_ENABLE (R292, R907): a disabled quire with a completion ring is enabled, otherwise the write answers STATE. -/
def QuireEnableClause : Prop :=
  ∀ (s : State) (role : Role) (q : QNum), Serving s → Allowed s role (Key.qEnable q) 0 →
    let x := s.quire q
    (x.state ≠ .disabled ∨ s.rd (Key.qCqSize q) = 0 → exec (.qEnable role q) s = .next (s.answer DS.state)) ∧
    (x.state = .disabled → s.rd (Key.qCqSize q) ≠ 0 → bit (s.rd Key.diagT2Refused) q.val = false →
      s.cmdRunning (Key.qEnable q) = false → x.pendingWork = false → ∃ t, exec (.qEnable role q) s = .next t ∧
      t.quire q = { x with state := .enabled } ∧ (∀ p, p ≠ q → t.quire p = s.quire p) ∧
      (t.cmd (Key.qEnable q)).result = DS.ok ∧ (t.cmd (Key.qEnable q)).state = .done ∧ t.dict.vals = s.dict.vals ∧
      t.out = s.out ++ [.status DS.ok])

/-- Q_DISABLE (R293, R301, R302, R303): refused where there is nothing to disable; a drain stops fetch and keeps the runs;
a forced disable ends everything but a training commit and leaves the quire DISABLED. -/
def QuireDisableClause : Prop :=
  ∀ (s : State) (role : Role) (q : QNum), Serving s → Allowed s role (Key.qDisable q) 1 →
    let x := s.quire q
    (x.state = .disabled ∨ x.state = .frozen ∨ x.state = .resetting →
      exec (.qDisable role q) s = .next (s.answer DS.state) ∧ exec (.qDisableForce role q) s = .next (s.answer DS.state)) ∧
    (x.state = .enabled ∨ x.state = .waking ∨ x.state = .running → s.cmdRunning (Key.qDisable q) = false →
      (∃ t, exec (.qDisable role q) s = .next t ∧ (t.quire q).state = .draining ∧ (t.quire q).runs = x.runs ∧
        (∀ r, ((t.quire q).ring r).fetched = []) ∧ (∀ r, ((t.quire q).ring r).head = (x.ring r).head) ∧
        (t.quire q).disabling.isSome = true) ∧
      (∃ t, exec (.qDisableForce role q) s = .next t ∧ (t.quire q).state = .disabled ∧ (t.quire q).runs = [] ∧
        (∀ r, ((t.quire q).ring r).fetched = []) ∧ (∀ r, ((t.quire q).ring r).head = (x.ring r).head) ∧
        (∀ w ∈ (t.quire q).started, w.work = .train) ∧ (t.cmd (Key.qDisable q)).state = .done ∧
        (t.cmd (Key.qDisable q)).result = DS.ok ∧ (t.cmd (Key.qDisable q)).card.head? = some 2))

/-- The end of a drain (R301): DISABLED, ENDED_AS DRAINED, nothing else of the quire changed. -/
def DrainEndsClause : Prop :=
  ∀ (s : State) (q : QNum), (s.quire q).state = .draining → (s.quire q).started = [] → ∃ t,
    exec (.drainEnd q) s = .next t ∧ t.quire q = { s.quire q with state := .disabled, disabling := none } ∧
    (∀ p, p ≠ q → t.quire p = s.quire p) ∧ (t.cmd (Key.qDisable q)).state = .done ∧
    (t.cmd (Key.qDisable q)).result = DS.ok ∧ (t.cmd (Key.qDisable q)).card.head? = some 1 ∧ t.bays = s.bays ∧
    t.tiers = s.tiers ∧ t.nv = s.nv ∧ t.dict.vals = s.dict.vals

/-- `QuireDisableClause`, `DrainEndsClause` together. -/
def Obligations.QuireDisableAndDrain : Prop := QuireDisableClause ∧ DrainEndsClause

/-- Q_RESET (R304): the quire is RESETTING, nothing of its work or handles is left, its leaves wait for the zeroing
engine; a second reset answers BUSY. -/
def QuireResetClause : Prop :=
  ∀ (s : State) (role : Role) (q : QNum), Serving s → Inv s → Allowed s role (Key.qReset q) 0 →
    ((s.quire q).state = .resetting → exec (.qReset role q) s = .next (s.answer DS.busy)) ∧
    ((s.quire q).state ≠ .resetting → s.cmdRunning (Key.qReset q) = false → ∃ t, exec (.qReset role q) s = .next t ∧
      (t.quire q).state = .resetting ∧ (t.quire q).runs = [] ∧ (t.quire q).started = [] ∧ (t.quire q).heldCq = [] ∧
      (∀ r, ((t.quire q).ring r).fetched = []) ∧ (t.quire q).unified = [] ∧
      (t.quire q).ctrCompleted = (s.quire q).ctrCompleted ∧ (∀ e, e < 64 → t.rd (Key.qHandle q (e + 1)) = 0) ∧
      (∃ j ∈ t.tiers.jobs, ∃ n, j.purpose = .reset q n) ∧ (t.cmd (Key.qReset q)).state = .running)

/-- `QuireEnableClause`, `QuireResetClause` together. -/
def Obligations.QuireEnableAndReset : Prop := QuireEnableClause ∧ QuireResetClause

/-- R266, R265, R294, R299: a Q_DMA_FAULT run and an error of a PASID read freeze the quire with cause DMA, DETAIL bits
[43:12] of the address; the record of a started entry's read names the entry. -/
def Obligations.DmaErrorsFreeze : Prop :=
  ∀ (s : State) (q : QNum) (a : BitVec 64), Inv s → Lively s q →
    (∀ role, Serving s → Allowed s role (Key.qDmaFault q) 8 → s.cmdRunning (Key.qDmaFault q) = false → ∃ t,
      exec (.qDmaFault role q a) s = .next t ∧ FrozenBy s t q FC.dma (bits a.toNat 43 12) ∧
      (t.cmd (Key.qDmaFault q)).result = DS.ok) ∧
    (∀ src, s.up = true → ((∃ r, src = .ring r) ∨ src = .press) → ∃ t, exec (.dmaReadError q a src) s = .next t ∧
      FrozenBy s t q FC.dma (bits a.toNat 43 12)) ∧
    (∀ (r : RingNum) (n : BitVec 12) (w : Started), s.up = true → (s.quire q).started = [w] →
      ((s.quire q).ring r).fetched = [] → w.entry.ring = r → w.entry.slot = n.toNat → ∃ t,
      exec (.dmaReadError q a (.entry r n)) s = .next t ∧ FrozenBy s t q FC.dma (bits a.toNat 43 12) ∧
      bits (t.rd (Key.qFaultRecord q)) 23 16 = r.val ∧ bits (t.rd (Key.qFaultRecord q)) 143 128 = w.entry.cid ∧
      bits (t.rd (Key.qFaultRecord q)) 159 144 = n.toNat)

/-- Doorbells (R254 to R259): a write that is misaligned, or to a frozen or resetting quire, is discarded and counted; a
tail or head within its ring is taken; a STITCH_DB of an owned stitch signals it; bad values freeze the quire. -/
def DoorbellsClause : Prop :=
  ∀ (s : State) (q : QNum) (r : RingNum) (v : BitVec 32), s.barUp = true → s.boot = .normal → s.coreOn = true →
    s.pm.entry = none → Inv s →
    let n := bits v.toNat 11 0
    let c := bits v.toNat 27 12
    (∀ a, a = false ∨ ¬ Lively s q →
      exec (.sqTailWrite q r v a) s = .next (s.modQuire q Quire.discardDb) ∧
      exec (.cqHeadWrite q v a) s = .next (s.modQuire q Quire.discardDb) ∧
      exec (.stitchDb q v a) s = .next (s.modQuire q Quire.discardDb)) ∧
    (Lively s q →
      (v.toNat < s.rd (Key.qSqSize q (r.val + 1)) → ∃ t, exec (.sqTailWrite q r v true) s = .next t ∧
        (t.quire q).ring r = { (s.quire q).ring r with tail := v.toNat } ∧
        (∀ p, p ≠ r → (t.quire q).ring p = (s.quire q).ring p) ∧ t.tiers = s.tiers ∧ t.nv = s.nv ∧ t.out = s.out) ∧
      (s.rd (Key.qSqSize q (r.val + 1)) ≤ v.toNat → ∃ t, exec (.sqTailWrite q r v true) s = .next t ∧
        FrozenBy s t q FC.format (8 * r.val)) ∧
      (v.toNat < s.rd (Key.qCqSize q) → (s.quire q).heldCq = [] → ∃ t, exec (.cqHeadWrite q v true) s = .next t ∧
        (t.quire q).cqHead = v.toNat ∧ (t.quire q).cqTail = (s.quire q).cqTail ∧ (t.quire q).rings = (s.quire q).rings ∧
        t.tiers = s.tiers ∧ t.nv = s.nv ∧ t.out = s.out) ∧
      (c ≠ 0 → bits v.toNat 31 28 = 0 → s.ownsStitch q n = true → (s.stitch n).spec = false →
        exec (.stitchDb q v true) s = .next (s.signal n c)) ∧
      (c ≠ 0 → bits v.toNat 31 28 = 0 → s.ownsStitch q n = false → ∃ t, exec (.stitchDb q v true) s = .next t ∧
        FrozenBy s t q FC.foreignStitch n))

/-- Fetch (R268, R273, R276, R279, R331): the lowest-numbered ring with work that is not blocked gives its next entry, read
with the quire's PASID (R260), and its head moves on; a bad field freezes the quire with cause FORMAT and its offset. -/
def FetchesClause : Prop :=
  ∀ (s : State) (q : QNum) (r : RingNum) (b : List Byte), s.fetches q = true → s.fetchRing q = some r →
    b.length = 64 → ringLoc (s.rd (Key.qSqBase q (r.val + 1))) = 0 → Inv s →
    let y := (s.quire q).ring r
    let head := (y.head + 1) % s.rd (Key.qSqSize q (r.val + 1))
    (firstBad (s.rd (Key.qPlacement q) == 1) b = none → s.fetchStitch q b = none → ∃ t e,
      exec (.submissionFetch q b) s = .next t ∧ (t.quire q).ring r = { y with head := head, fetched := y.fetched ++ [e] } ∧
      e.bytes = b ∧ e.ring = r ∧ e.slot = y.head ∧ e.headAfter = head ∧
      (∀ p, p ≠ r → (t.quire q).ring p = (s.quire q).ring p) ∧
      (t.quire q).ctrFetched = (s.quire q).ctrFetched + 1 ∧ t.dict = s.dict ∧ t.bays = s.bays ∧ t.tiers = s.tiers ∧
      t.nv = s.nv ∧
      t.out = s.out ++ [.dmaRead q (s.rd (Key.qPasid q)) (ringAddr (s.rd (Key.qSqBase q (r.val + 1))) + 64 * y.head) 64]) ∧
    (∀ o, firstBad (s.rd (Key.qPlacement q) == 1) b = some o → o < 64 → ∃ t, exec (.submissionFetch q b) s = .next t ∧
      FrozenBy s t q FC.format o)

/-- NOP and FENCE (R274, R281), and a fence that waited: an open fence completes with RESULT 0, another stays started. -/
def NopAndFenceClause : Prop :=
  ∀ (s : State) (q : QNum) (r : RingNum) (e : Entry), CqRoom s q →
    (s.startable q r 0x00 = some e → ∃ t, exec (.nop q r) s = .next t ∧ Completes s t q e CS.ok 0 0) ∧
    (s.startable q r 0x0B = some e →
      let all := fieldLe e.bytes 8 1 == 1
      ((s.quire q).fenceOpen e all = true → ∃ t, exec (.fence q r) s = .next t ∧ Completes s t q e CS.ok 0 0) ∧
      ((s.quire q).fenceOpen e all = false → ∃ t, exec (.fence q r) s = .next t ∧
        (t.quire q).started = (s.quire q).started ++ [{ entry := e, work := .fence all }] ∧
        ((t.quire q).ring r).fetched = ((s.quire q).ring r).fetched.tail ∧ t.out = s.out)) ∧
    (∀ t4 all, s.coreOn = true → (s.quire q).state = .running → ((s.quire q).ring r).fetched = [] →
      ((s.quire q).started.filter fun w => w.entry.ring == r) = [{ entry := e, work := .fence all }] →
      (s.quire q).fenceOpen e all = true → (∀ l ∈ s.nv.loads, l.quire ≠ q) → ∃ t,
      exec (.waitResume q r t4) s = .next t ∧ Completes s t q e CS.ok 0 0)

/-- `DoorbellsClause`, `FetchesClause`, `NopAndFenceClause` together. -/
def Obligations.SubmissionStarts : Prop := DoorbellsClause ∧ FetchesClause ∧ NopAndFenceClause

/-- WAKE and GRANT (R43, R91, R836, R839): every bay of the quire runs at its governed step; a quire without bays, or with
a short set the profile does not tolerate, is REFUSED and counted. Without CLKIN_38M4 the wake is held and counted (R86). -/
def Obligations.GrantOrRefuse : Prop :=
  ∀ (s : State) (q : QNum) (us : Nat), Inv s → (s.quire q).wakePending = true → s.switch = none → s.coreOn = true →
    s.pm.waking = false →
    (s.refusesWake q = true → ∃ t, exec (.grant q us) s = .next t ∧ (t.quire q).pwr = .refused ∧
      (t.quire q).wakePending = false ∧ t.bays = s.bays ∧ t.rd (Key.qWakesRefused q) =
        min (s.rd (Key.qWakesRefused q) + 1) 0xFFFFFFFF ∧ t.out = s.out ∧ t.tiers = s.tiers) ∧
    (s.refusesWake q = false → s.clkinSeen = false → s.clk.clkWait = false → ∃ t, exec (.grant q us) s = .next t ∧
      (t.quire q).wakePending = true ∧ t.bays = s.bays ∧
      t.rd Key.clkinWaits = min (s.rd Key.clkinWaits + 1) 0xFFFFFFFF) ∧
    (s.refusesWake q = false → s.clkinSeen = true → s.clk.settling = false → s.clk.bayPll = true →
      (∀ b ∈ s.quireBays q, (s.bay b).powered = true ∧ (s.bay b).retesting = false) → (s.quire q).ringsEmpty = false → ∃ t,
      exec (.grant q us) s = .next t ∧ (t.quire q).granted = ((s.quire q).pwr == .wake) ∧
      (t.quire q).wakePending = false ∧
      (∀ b, t.bay b = if b ∈ s.quireBays q then { s.bay b with power := .running, step := s.governedStep q } else s.bay b) ∧
      t.dict = s.dict ∧ t.tiers = s.tiers ∧ t.out = s.out)

/-! ### Stitches (07) -/

/-- STITCH_SIGNAL and STITCH_WAIT (R329, R331, R332, R335, R337, R338, R354): an owned stitch is signalled in the coming
stage; a wait joins the list for that stage's start comparison, expiring there with TIMEOUT_US 0; a foreign stitch freezes
the quire, a speculative one with cause FORMAT. -/
def HostSignalsAndWaitsClause : Prop :=
  ∀ (s : State) (q : QNum) (r : RingNum) (e : Entry), Inv s → CqRoom s q →
    let n := fieldLe e.bytes 8 2
    let x := s.stitch n
    (s.startable q r 0x09 = some e → s.ownsStitch q n = true → x.spec = false → bit e.flags 1 = false → ∃ t,
      exec (.stitchSignal q r) s = .next t ∧ Completes s t q e CS.ok 0 0 ∧
      t.st = { s.st with signals := s.st.signals ++ [(n, fieldLe e.bytes 12 4)] }) ∧
    (s.startable q r 0x09 = some e → s.ownsStitch q n = false → ∃ t, exec (.stitchSignal q r) s = .next t ∧
      FrozenBy s t q FC.foreignStitch n) ∧
    (s.startable q r 0x0A = some e → s.mayWait q n = false → ∃ t, exec (.stitchWait q r) s = .next t ∧
      FrozenBy s t q FC.foreignStitch n) ∧
    (s.startable q r 0x0A = some e → s.mayWait q n = true → x.spec = true → ∃ t, exec (.stitchWait q r) s = .next t ∧
      FrozenBy s t q FC.format 8) ∧
    (s.startable q r 0x0A = some e → s.mayWait q n = true → x.spec = false → ∃ t, exec (.stitchWait q r) s = .next t ∧
      (t.quire q).started = (s.quire q).started ++ [{ entry := e, work := .stitchWait n }] ∧
      ((t.quire q).ring r).fetched = ((s.quire q).ring r).fetched.tail ∧
      t.stitch n = { x with waits := joinWaits ⟨.host q r, q, true, fieldLe e.bytes 12 4 == 0⟩ x.waits } ∧
      (∀ m, m ≠ n → t.stitch m = s.stitch m) ∧ t.st.signals = s.st.signals ∧ t.dict = s.dict ∧ t.out = s.out)

/-- Q_STITCH_CONFIG (R326, R327): STATE on a stitch that holds a wait or is poisoned, RANGE on a bad argument. -/
def StitchConfigRefusedClause : Prop :=
  ∀ (s : State) (role : Role) (q : QNum) (arg : List Byte), Serving s → Allowed s role (Key.qStitchConfig q) arg.length →
    let n := fieldLe arg 0 2
    let mode := fieldLe arg 2 1
    let flags := fieldLe arg 3 1
    let target := fieldLe arg 4 4
    let share := fieldLe arg 12 1
    (s.ownsStitch q n = true → ((s.stitch n).waits ≠ [] ∨ (s.stitch n).poison = true) →
      exec (.qStitchConfig role q arg) s = .next (s.answer DS.state)) ∧
    (s.ownsStitch q n = true → (s.stitch n).waits = [] → (s.stitch n).poison = false →
      (mode ≥ 3 ∨ target = 0 ∨ bit share q.val = true ∨ (flags = 1 ∧ share ≠ 0) ∨ (mode = 2 ∧ target ≤ fieldLe arg 8 4)) →
      exec (.qStitchConfig role q arg) s = .next (s.answer DS.range)) ∧
    (s.ownsStitch q n = false → exec (.qStitchConfig role q arg) s = .next (s.answer DS.range))

/-- Q_STITCH_CONFIG (R325 to R328): an owned stitch without a wait or poison takes MODE, TARGET, COUNT, SHARE and SPEC, with
GENERATION and OVERSHOOT 0, and no other stitch changes. -/
def StitchConfiguredClause : Prop :=
  ∀ (s : State) (role : Role) (q : QNum) (arg : List Byte), Serving s → Inv s →
    Allowed s role (Key.qStitchConfig q) arg.length → s.cmdRunning (Key.qStitchConfig q) = false →
    let n := fieldLe arg 0 2
    let mode := fieldLe arg 2 1
    let flags := fieldLe arg 3 1
    let target := fieldLe arg 4 4
    let count := fieldLe arg 8 4
    let share := fieldLe arg 12 1
    s.ownsStitch q n = true → (s.stitch n).waits = [] → (s.stitch n).poison = false → n < 4096 → mode < 3 →
      target ≠ 0 → bit share q.val = false → flags ≤ 1 → fieldLe arg 13 3 = 0 → (flags = 1 → share = 0) →
      (mode = 2 → count < target) → ∃ t, exec (.qStitchConfig role q arg) s = .next t ∧
      (t.stitch n).mode = mode ∧ (t.stitch n).target = target ∧ (t.stitch n).count = count ∧
      (t.stitch n).share = BitVec.ofNat 8 share ∧ (t.stitch n).spec = (flags == 1) ∧ (t.stitch n).generation = 0 ∧
      (t.stitch n).overshoot = 0 ∧ (t.stitch n).waits = [] ∧ (∀ m, m ≠ n → t.stitch m = s.stitch m) ∧
      t.dict.vals = s.dict.vals ∧ t.out = s.out ++ [.status DS.ok]

/-- A comparison stage over one stitch (R309, R312, R313, R316 to R319, R348): the sum of the stage's signals is added, a
COUNTER or EVENT count clips, a barrier trips; a poisoned stitch discards them. Stated for a stage in which one owned
stitch without waits is signalled. -/
def StageAddsSignalsClause : Prop :=
  ∀ (s : State) (n a : Nat) (o : QNum), Inv s → s.coreOn = true → s.stitchOwner n = some o →
    s.st.signals = [(n, a)] → s.st.poisons = [] → s.st.aborts = [] →
    (∀ m, (s.stitch m).waits = [] ∧ ((s.stitch m).mode = 2 → (s.stitch m).val < (s.stitch m).target)) →
    let x := s.stitch n
    let v := x.val + a
    ∃ t, exec .comparisonStage s = .next t ∧ t.st.signals = [] ∧ (∀ m, m ≠ n → t.stitch m = s.stitch m) ∧
      (x.poison = true → t.stitch n = x) ∧
      (x.poison = false → x.mode ≠ 2 → v ≤ 0xFFFFFFFF → t.stitch n = x.setVal v) ∧
      (x.poison = false → x.mode ≠ 2 → 0xFFFFFFFF < v → t.stitch n = (x.setVal 0xFFFFFFFF).overshot) ∧
      (x.poison = false → x.mode = 2 → v < x.target → t.stitch n = x.setVal v) ∧
      (x.poison = false → x.mode = 2 → x.target ≤ v →
        t.stitch n = (if x.target < v then ({ x.setVal 0 with generation := x.generation + 1 } : Stitch).overshot
          else { x.setVal 0 with generation := x.generation + 1 })) ∧
      t.quires = s.quires ∧ t.bays = s.bays ∧ t.tiers = s.tiers ∧ t.nv = s.nv ∧ t.out = s.out

/-- The comparison stage of the whole unit (R309, R312 to R318, R348): every owned stitch adds the sum of the signals that
arrived for it, unless it was poisoned before, and settles; a stitch without an owner stays. -/
def StageSettlesAllClause : Prop :=
  ∀ s : State, Inv s → s.coreOn = true → ∃ t, exec .comparisonStage s = .next t ∧
    (∀ n, s.stitchOwner n = none → t.stitch n = s.stitch n) ∧
    (∀ n, s.stitchOwner n ≠ none →
      let mine := (s.st.signals.filter fun p => p.1 == n).map fun p => p.2
      let x := s.stitch n
      t.stitch n = ((if x.poison = true ∨ mine = [] then x else x.add mine.sum).settle
        (s.st.poisons.any fun p => inRange p n) (s.st.aborts.any fun p => inRange p n)).1) ∧
    t.st.poisons = [] ∧ t.st.aborts = [] ∧ t.nv = s.nv ∧ t.sent = s.sent ∧ t.i3c = s.i3c ∧ t.sec = s.sec

/-- R337, R338, R340 to R342, R346, R347 and R350 for one wait in one stage: a condition wins over a release and a timeout,
and where a held wait's timeout expires in that stage it ends LATE; a release wins over a timeout; on a stitch poisoned
before, the wait ends POISON. -/
def WaitOutcomeOrderClause : Prop :=
  ∀ (x : Stitch) (h : Held) (poison abort : Bool), x.waits = [h] →
    let r := x.settle poison abort
    (x.poison = true → r = ({ x with waits := [] }, [(h, .poison)])) ∧
    (x.poison = false → x.mode ≠ 2 →
      (x.target ≤ x.val → r.2 = [(h, if h.expiring = true ∧ h.fresh = false then .late else .met)]) ∧
      (x.val < x.target → poison = true → r.2 = [(h, .poison)]) ∧
      (x.val < x.target → poison = false → abort = true → r.2 = [(h, .aborted)]) ∧
      (x.val < x.target → poison = false → abort = false → h.expiring = true → r.2 = [(h, .timeout)]) ∧
      (x.val < x.target → poison = false → abort = false → h.expiring = false → r.2 = [] ∧
        r.1.waits = [{ h with fresh := false }])) ∧
    (x.poison = false → x.mode = 2 → x.target ≤ x.val → h.fresh = false →
      r.2 = [(h, if h.expiring = true then .late else .met)] ∧ r.1.generation = x.generation + 1 ∧
      r.1.val = 0 ∧ r.1.waits = []) ∧
    (poison = true → r.1.poison = true)

/-- `StitchConfigRefusedClause`, `StageAddsSignalsClause`, `WaitOutcomeOrderClause` together. -/
def Obligations.StitchUnit : Prop := StitchConfigRefusedClause ∧ StageAddsSignalsClause ∧ WaitOutcomeOrderClause

/-- A wait list with the waits of one waiter expiring. -/
def expiringOf (who : Waiter) (l : List Held) : List Held :=
  l.map fun h => if h.who = who then { h with expiring := true } else h

/-- The timeout of a held wait passes (R338, R339): the wait expires in the coming stage, and nothing else changes. A wait
with TIMEOUT_US 0xFFFF_FFFF has none. A bay's wait expires TIMEOUT elapsed cycles after its issue (R387), no sooner. -/
def TimeoutsExpireClause : Prop :=
  ∀ (s : State) (q : QNum) (r : RingNum) (b : BayNum), Inv s →
    (∀ w, ((s.quire q).started.find? fun w => w.entry.ring == r && w.work.isStitchWait) = some w →
      let n := fieldLe w.entry.bytes 8 2
      (fieldLe w.entry.bytes 12 4 = 0xFFFFFFFF → exec (.hostWaitTimeout q r) s = .next s) ∧
      (fieldLe w.entry.bytes 12 4 ≠ 0xFFFFFFFF → ∃ t, exec (.hostWaitTimeout q r) s = .next t ∧
        t.stitch n = { s.stitch n with waits := expiringOf (.host q r) (s.stitch n).waits } ∧
        (∀ m, m ≠ n → t.stitch m = s.stitch m) ∧ t.quires = s.quires ∧ t.dict = s.dict ∧ t.out = s.out)) ∧
    (∀ w k p run, (s.bay b).seq.wait = some w → w.timeout = some k → s.runOf b = some (p, run) →
      s.reaches p run (w.start + k) = true → ∃ t, exec (.seqWaitTimeout b) s = .next t ∧
      t.stitch w.stitch = { s.stitch w.stitch with waits := expiringOf (.bay b) (s.stitch w.stitch).waits } ∧
      (∀ m, m ≠ w.stitch → t.stitch m = s.stitch m) ∧ (t.bay b).seq.waited = w.start + k ∧
      (∀ c, c ≠ b → t.bay c = s.bay c) ∧ t.quires = s.quires ∧ t.dict = s.dict ∧ t.out = s.out)

/-- `HostSignalsAndWaitsClause`, `TimeoutsExpireClause`, `StitchConfiguredClause`, `StageSettlesAllClause` together. -/
def Obligations.HostWaits : Prop :=
  HostSignalsAndWaitsClause ∧ TimeoutsExpireClause ∧ StitchConfiguredClause ∧ StageSettlesAllClause

/-! ### The bay sequencers (08, 11) -/

/-- Entry `d`, of kind `k`, falls due in bay `b`, and nothing holds it (R384, R388, R389, R683). -/
def Issues (s : State) (b : BayNum) (k : Kind) (d : Due) : Prop :=
  s.due b = some d ∧ entryKind d.w = some k ∧ (s.bay b).seq.wait = none ∧ s.holdsOf d k = ⟨[], []⟩

/-- Of everything the state holds, only bay `b` changed. -/
def OnlyBay (s t : State) (b : BayNum) : Prop := t = s.setBay b (t.bay b)

/-- The bay has issued the entry and stands behind it: its stamp is the entry's, the next entry follows (R383); a loop whose
body it has left reads iteration 0 (R402). -/
def Passed (s t : State) (b : BayNum) (d : Due) : Prop :=
  (t.bay b).seq.stamp = d.t ∧ (t.bay b).seq.gap = 0 ∧ ((s.bay b).seq.arms = [] → (t.bay b).seq.pc = d.pc + 1) ∧
  (t.bay b).seq.loops = (s.bay b).seq.loops.map (fun l => l.seenAt (t.bay b).seq.pc (t.bay b).seq.arms) ∧
  (t.bay b).seq.ended = false ∧ (t.bay b).seq.run = (s.bay b).seq.run

/-- No other entry that falls due with `d` violates anything (R37). -/
def OnlyViolator (s : State) (d : Due) : Prop := ∀ x ∈ s.together d, (x.b = d.b ∧ x.pc = d.pc) ∨ s.viols x = []

/-- The decision register `res` of bay `b` as held before stamp `t` (R392). -/
def dregAt (s : State) (b : BayNum) (res t : Nat) : Nat := Tab.get ((s.bay b).settleDregs t).dregs 0 res

/-- PRECISION_FENCE, IDLE, END, LOOP and MAINT_SLOT (R400, R401, R402, R403, R404, R417, R419). -/
def SequencerControlClause : Prop :=
  ∀ (s : State) (b : BayNum) (d : Due),
    let x := s.bay b
    (Issues s b .precisionFence d → ∃ t, exec (.precisionFence b) s = .next t ∧ OnlyBay s t b ∧ Passed s t b d ∧
      (t.bay b).fences = x.fences ++ [d.t + 2] ∧ (t.bay b).epoch = x.epoch) ∧
    (Issues s b .idle d → ∃ t, exec (.idle b) s = .next t ∧ OnlyBay s t b ∧ (t.bay b).seq.stamp = d.t ∧
      (t.bay b).seq.gap = bits d.w 95 56 ∧ (x.seq.arms = [] → (t.bay b).seq.pc = d.pc + 1)) ∧
    (Issues s b .endStream d → (∀ c ∈ d.run.scopes, b ∉ c.bays) → ∃ t, exec (.endStream b) s = .next t ∧ OnlyBay s t b ∧ (t.bay b).seq.ended = true ∧
      (t.bay b).seq.stamp = d.t) ∧
    (Issues s b .loop d →
      let lv : Fin 4 := Fin.ofNat 4 (bits d.w 95 94)
      let l := x.seq.loops.get lv
      let left := if l.active then l.remaining else bits d.w 79 48 - 1
      (left = 0 → ∃ t, exec (.loop b) s = .next t ∧ OnlyBay s t b ∧ (t.bay b).seq.stamp = d.t ∧
        (t.bay b).seq.loops.get lv = { LoopLevel.reset with lo := bits d.w 93 80, hi := d.pc } ∧
        (x.seq.arms = [] → (t.bay b).seq.pc = d.pc + 1)) ∧
      (left ≠ 0 → ∃ t, exec (.loop b) s = .next t ∧ OnlyBay s t b ∧ (t.bay b).seq.stamp = d.t ∧
        (let m := (t.bay b).seq.loops.get lv; m.active = true ∧ m.remaining = left - 1 ∧ m.stride = bits d.w 47 27 ∧ m.lo = bits d.w 93 80 ∧ m.hi = d.pc ∧
          (x.seq.arms = [] → m.lo ≤ m.hi → m.iteration = l.iteration + 1)) ∧
        (x.seq.arms = [] → (t.bay b).seq.pc = bits d.w 93 80))) ∧
    (Inv s → Issues s b .maintSlot d → ∃ t, exec (.maintSlot b) s = .next t ∧ Passed s t b d ∧
      (∀ (q : QNum) (g : Nat), g < 12 → Tab.get t.weave.lent 0 (q.val * 12 + g) =
        Tab.get s.weave.lent 0 (q.val * 12 + g) + (if q = d.q ∧ bit (bits d.w 95 84) g = true then bits d.w 83 68 else 0)) ∧
      t.quires = s.quires ∧ t.dict = s.dict ∧ t.tiers = s.tiers ∧ t.nv = s.nv ∧ t.st = s.st ∧ t.out = s.out)

/-- SIGNAL_STITCH and WAIT_STITCH (R330, R335, R337, R339): a foreign stitch freezes the quire; a signal arrives for the
coming stage; a wait joins the list for the start comparison of that stage, in which it expires with TIMEOUT 0. -/
def SequencerStitchesClause : Prop :=
  ∀ (s : State) (b : BayNum) (d : Due), Inv s →
    let n := d.run.stitchOf (bits d.w 95 88)
    let x := s.stitch n
    let timeout := bits d.w 87 56
    (Issues s b .signalStitch d →
      (s.ownsStitch d.q n = true → ∃ t, exec (.signalStitch b) s = .next t ∧ Passed s t b d ∧
        t.st = { s.st with signals := s.st.signals ++ [(n, bits d.w 87 56)] } ∧ t.quires = s.quires ∧ t.dict = s.dict ∧
        t.out = s.out) ∧
      (s.ownsStitch d.q n = false → OnlyViolator s d → ∃ t, exec (.signalStitch b) s = .next t ∧
        FrozenBy s t d.q FC.foreignStitch n)) ∧
    (Issues s b .waitStitch d →
      (s.mayWait d.q n = false → OnlyViolator s d → ∃ t, exec (.waitStitch b) s = .next t ∧
        FrozenBy s t d.q FC.foreignStitch n) ∧
      (s.mayWait d.q n = true → ∃ t, exec (.waitStitch b) s = .next t ∧ Passed s t b d ∧
        (t.bay b).seq.wait = some ⟨n, d.elapsed, if timeout = 0 ∨ timeout = 0xFFFFFFFF then none else some timeout,
          (s.issueOf d).scope⟩ ∧
        t.stitch n = { x with waits := joinWaits ⟨.bay b, d.q, true, timeout == 0⟩ x.waits } ∧
        (∀ m, m ≠ n → t.stitch m = s.stitch m) ∧ (t.bay b).dregs = (s.bay b).dregs ∧ t.quires = s.quires ∧
        t.dict = s.dict ∧ t.out = s.out))

/-- The outcome of a bay's wait (R344, R379, R392): the wait is held no more, and the wait-status decision register reads
the outcome's code, at once while the run slips, else from the cycle after the stamp issued last. -/
def BayWaitsEndClause : Prop :=
  ∀ (s : State) (b : BayNum) (h : Held) (o : Outcome) (count : Nat), Inv s → h.who = .bay b →
    let code := match o with
      | .met => 0
      | .late => 1
      | .timeout => 2
      | .poison => 3
      | .aborted => 4
    let t := s.endWait h o count
    (t.bay b).seq.wait = none ∧ t.st = s.st ∧ t.out = s.out ∧ (∀ c, c ≠ b → t.bay c = s.bay c) ∧
    ((∀ q r, s.runOf b = some (q, r) → r.slipping ≠ none) → Tab.get (t.bay b).dregs 0 resSeqDreg = code) ∧
    (∀ q r, s.runOf b = some (q, r) → r.slipping = none → ∃ tag,
      (t.bay b).dregDue = (s.bay b).dregDue ++ [⟨s.lastStamp r, resSeqDreg, code, tag⟩] ∧
      (t.bay b).dregs = (s.bay b).dregs)

/-- `SequencerControlClause`, `SequencerStitchesClause`, `BayWaitsEndClause` together. -/
def Obligations.SequencerEntries : Prop := SequencerControlClause ∧ SequencerStitchesClause ∧ BayWaitsEndClause

/-- FORK (R392 to R398): the first bay's FORK reads the decision register; a value below ARMS takes that arm, a value past
it, or a passed budget under the DEADLINE policy, takes the fallback arm and counts it, and without a fallback arm a value
past ARMS freezes the quire with code 0x12; the other bays take the same arm. -/
def Obligations.Forks : Prop :=
  ∀ (s : State) (b src : BayNum) (us : Nat) (d : Due) (rec_ : ArmRec), Inv s → Issues s b .fork d →
    d.run.bays[bits d.w 91 89]? = some src → d.run.arms[bits d.w 73 58]? = some rec_ → (s.bay b).seq.arms = [] →
    let fid := bits d.w 95 92
    let res := dregRes (bits d.w 88 85) (bits d.w 80 77)
    let v := dregAt s src res d.t
    let f := d.run.hdr.fallback.getD fid (0xFF, 0, 0)
    let late := d.run.deadline = true ∧ (f.2.1 < d.run.slipCycles ∨ (f.2.2 ≠ 0 ∧ f.2.2 < us))
    let arms := bits d.w 76 74 + 1
    let place (a : Nat) := if rec_.count.getD a 0 = 0 then rec_.join else rec_.start.getD a 0
    (∀ a, d.run.fork = some (d.t, fid, a) → ∃ t, exec (.fork b us) s = .next t ∧ OnlyBay s t b ∧
      (t.bay b).seq.pc = place a ∧ (t.bay b).seq.stamp = d.t) ∧
    ((∀ a, d.run.fork ≠ some (d.t, fid, a)) → ((s.bay src).settleDregs d.t).tag res = 0 →
      (v < arms → ¬ late ∨ f.1 = 0xFF → ∃ t, exec (.fork b us) s = .next t ∧ (t.bay b).seq.pc = place v ∧
        (t.bay b).seq.stamp = d.t ∧ (∀ c, c ≠ b → (t.bay c).seq = (s.bay c).seq) ∧
        t.run d.q d.run.id = some { d.run with fork := some (d.t, fid, v) } ∧ t.dict = s.dict ∧ t.out = s.out) ∧
      (f.1 ≠ 0xFF → arms ≤ v ∨ late → ∃ t, exec (.fork b us) s = .next t ∧ (t.bay b).seq.pc = place f.1 ∧
        (t.bay b).seq.stamp = d.t ∧ t.run d.q d.run.id = some { d.run with fork := some (d.t, fid, f.1), fallback := true } ∧
        t.rd (Key.qFallbacks d.q) = min (s.rd (Key.qFallbacks d.q) + 1) 0xFFFFFFFF ∧ t.out = s.out) ∧
      (f.1 = 0xFF → arms ≤ v → (∀ x ∈ s.together d, entryKind x.w = some .fork) → ∃ t, exec (.fork b us) s = .next t ∧
        FrozenBy s t d.q FC.format ((256 + 16 * d.idx + 9) % 2 ^ 32) ∧ t.rd (Key.qValCode d.q) = 0x12))

/-- SPEC_BEGIN, SPEC_COMMIT with ALL and SPEC_CANCEL of a route-ahead scope of one bay (R523, R524, R529, R530, R532):
the first opens the scope; a commit drops its tag from everything, a cancel voids the slots that carry it; both end it. -/
def SpeculationScopesClause : Prop :=
  ∀ (s : State) (b : BayNum) (d : Due), Inv s → s.st.signals = [] →
    let id := bits d.w 95 94
    (Issues s b .specBegin d → (∀ c ∈ d.run.scopes, c.id ≠ id) → ∃ t, exec (.specBegin b) s = .next t ∧ Passed s t b d ∧
      t.run d.q d.run.id = some { d.run with scopes := d.run.scopes ++
        [⟨id, bits d.w 93 92, bits d.w 91 84, bits d.w 83 76, [b], false⟩] } ∧
      t.dict = s.dict ∧ t.tiers = s.tiers ∧ t.st = s.st ∧ t.out = s.out) ∧
    (∀ c, d.run.scopes = [c] → c.id = id → c.bays = [b] → d.run.bays = [b] → c.closed = false → c.kind = 0 →
      d.run.scopeStitches id = [] → d.run.ranges = [] → d.run.rangeTags = [] →
      (Issues s b .specCommit d → bit d.w 81 = true → ∃ t, exec (.specCommit b) s = .next t ∧ Passed s t b d ∧
        (∃ r, t.run d.q d.run.id = some r ∧ r.scopes = []) ∧ (t.bay b).t0 = (s.bay b).t0 ∧
        (∀ n, (t.bay b).tag n = tagDrop id ((s.bay b).tag n)) ∧ t.out = s.out) ∧
      (Issues s b .specCancel d → ∃ t, exec (.specCancel b) s = .next t ∧ Passed s t b d ∧
        (∃ r, t.run d.q d.run.id = some r ∧ r.scopes = []) ∧
        (∀ n, n < 64 → bit ((s.bay b).tag n) id = true → (t.bay b).frame n = []) ∧
        (∀ n, n < 64 → bit ((s.bay b).tag n) id = false → (t.bay b).frame n = (s.bay b).frame n) ∧ t.out = s.out))

/-- Slips (R381, R388, R389, R390): an entry whose slot waits for an event, or for a cycle, does not issue and its run
slips; once nothing holds the entries that fall due together, the slip ends with its length and one count under its cause.
The hold is stated for LNS_MUL. -/
def SlipsClause : Prop :=
  ∀ (s : State) (b : BayNum) (d : Due), Inv s →
    (s.due b = some d → entryKind d.w = some .lnsMul →
      ((s.bay b).seq.wait.isSome = true → exec (.lnsMul b) s = .next (s.startSlip d (some .wait))) ∧
      (∀ c l, (s.bay b).seq.wait = none → (s.holdsOf d .lnsMul).events = c :: l →
        exec (.lnsMul b) s = .next (s.startSlip d (some c))) ∧
      ((s.bay b).seq.wait = none → (s.holdsOf d .lnsMul).events = [] → (s.holdsOf d .lnsMul).exact ≠ [] →
        exec (.lnsMul b) s = .next (s.startSlip d none))) ∧
    (∀ q id r u c, s.run q id = some r → s.runNext q r = some d → s.waitHolds d = false →
      (∀ h ∈ s.holdsAll d, h.events = []) →
      let last := lastExact ((s.holdsAll d).flatMap Holds.exact)
      let ended (t : State) (len : Nat) (sub : Nat) :=
        t.run q id = some { r with slipping := none, slipCycles := r.slipCycles + len, slips := r.slips + 1 } ∧
        t.rd (Key.qSlipCount q sub) = min (s.rd (Key.qSlipCount q sub) + 1) 0xFFFFFFFF ∧
        t.rd (Key.qSlipCycles q sub) = min (s.rd (Key.qSlipCycles q sub) + len) 0xFFFFFFFFFFFFFFFF ∧
        t.bays = s.bays ∧ t.tiers = s.tiers ∧ t.st = s.st ∧ t.out = s.out
      (r.slipping = some none → last = some (u, c) → d.elapsed ≤ u → d.inBound (u + 1 - d.elapsed) = true →
        s.overdue r (d.elapsed + (u + 1 - d.elapsed)) = false → ∀ n, ∃ t, exec (.slipEnd q id n) s = .next t ∧
        ended t (u + 1 - d.elapsed) (slipSub c)) ∧
      (∀ n, r.slipping = some (some c) → last = none →
        let len := max (s.slipFloor d) n
        d.inBound len = true → s.overdue r (d.elapsed + len) = false → ∃ t,
        exec (.slipEnd q id n) s = .next t ∧ ended t len (slipSub c)))

/-- `SpeculationScopesClause`, `SlipsClause` together. -/
def Obligations.ScopesAndSlips : Prop := SpeculationScopesClause ∧ SlipsClause

/-- A run from its start to its end (R418, R419, R379, R404, R398, R399, R282): a handle the quire does not hold answers
NO_HANDLE; a run whose checks pass is started, with its bays, its reservation and its claims; at stamp 0 its bays are as
R404 and R937 say; it completes with RESULT its slips and DETAIL FALLBACK and SLIPPED; past HARD_BOUND it freezes. -/
def Obligations.RunLifetime : Prop :=
  ∀ (s : State) (q : QNum) (r : RingNum) (tb : List Byte) (e : Entry), Inv s →
    let x := s.quire q
    (s.startable q r 0x01 = some e → s.validHandle q (fieldLe e.bytes 8 4) = none → CqRoom s q → ∃ t,
      exec (.runImposition q r tb) s = .next t ∧ Completes s t q e CS.noHandle 0 0) ∧
    (∀ le rec_ f u, s.startable q r 0x01 = some e → s.validHandle q (fieldLe e.bytes 8 4) = some le →
      (s.lib le).state = .installed → s.rd (Key.qHandleVariant q (le + 1)) ≠ 0xFF →
      s.impRec q le (fieldLe e.bytes 12 2) = some rec_ → s.shortSet q = false → x.granted = true → s.switch = none →
      let imp := parseImp (s.impBytes le rec_)
      let need := fld (s.impBytes le rec_) 6 1
      let count := fieldLe e.bytes 24 2
      let named := namedBays (fieldLe e.bytes 14 1) need
      let bays := named.filterMap fun i => (s.quireBays q)[i]?
      let groups := sortNat (((List.range 12).filter fun g => bit imp.hdr.bgMask g) ++
        (s.lib le).groupsOf ((s.lib le).man.impStripes rec_))
      bays.length = named.length → named.length = need →
      (∀ b ∈ bays, s.bayBusy q b = false ∧ (s.bay b).power = .running) → s.bayAhead q r bays = false →
      s.bindBytes q (fieldLe e.bytes 16 8) (min count imp.hdr.bindings) tb = .inl f →
      (∀ c, s.runStartFail q imp groups (s.rd (Key.profClockStep s.part (q.val + 1))) count f = some c → ∃ t,
        exec (.runImposition q r tb) s = .next t ∧ FrozenBy s t q FC.format (c.2 % 2 ^ 32) ∧
        t.rd (Key.qValCode q) = c.1) ∧
      (s.runStartFail q imp groups (s.rd (Key.profClockStep s.part (q.val + 1))) count f = none →
        s.reserveRun q x.nextRun bays imp.hdr.t1Slice imp.hdr.t1Commons = some u → ∃ t run,
        exec (.runImposition q r tb) s = .next t ∧ (t.quire q).runs = x.runs ++ [run] ∧ run.id = x.nextRun ∧
        run.handle = fieldLe e.bytes 8 4 ∧ run.impNo = fieldLe e.bytes 12 2 ∧ run.bays = bays ∧ run.live = false ∧
        (t.quire q).nextRun = x.nextRun + 1 ∧ (∀ g ∈ groups, (g, q, x.nextRun) ∈ t.nv.claims) ∧
        (t.quire q).started = x.started ++ [{ entry := e, work := .run x.nextRun }] ∧ t.tiers = u.tiers ∧
        (∀ a, addrOf (fieldLe e.bytes 16 8) = some a → a.form.isT4 = false → t.out = s.out))) ∧
    (∀ id run, s.run q id = some run →
      (run.live = false → s.zeroReady q run = true → Lively s q → ∃ t, exec (.stampZero q id) s = .next t ∧
        t.run q id = some { run with live := true, deadline := s.rd (Key.qLatePolicy q) == 1 } ∧
        (∀ b ∈ run.bays, (t.bay b).epoch = run.hdr.epochStart % 16 ∧ (t.bay b).dregs = [] ∧ (t.bay b).seq.stamp = 0 ∧
          (t.bay b).seq.pc = 0 ∧ (t.bay b).racc = [] ∧ (∀ n : Fin 4, ((t.bay b).engines.get n).acc = [] ∧
            ((t.bay b).engines.get n).treg0 = Treg.reset ∧ ((t.bay b).engines.get n).treg1 = Treg.reset) ∧
          (t.bay b).t0 = (s.bay b).t0) ∧
        (∀ b, b ∉ run.bays → t.bay b = s.bay b) ∧
        t.rd (Key.qRuns q) = min (s.rd (Key.qRuns q) + 1) 0xFFFFFFFF ∧ t.tiers = s.tiers ∧ t.out = s.out) ∧
      (∀ us tail, s.runDone run = true → Lively s q → CqRoom s q → ∃ t,
        exec (.runComplete q id { us := us, tail := tail } false) s = .next t ∧
        Completes s t q run.entry (if run.ioError then CS.ioError else CS.ok)
          ((if run.fallback then 2 else 0) + if run.slips = 0 then 0 else 4) run.slips ∧
        (∀ y ∈ (t.quire q).runs, y.id ≠ run.id) ∧ t.rd (Key.qLastImp q) = run.impNo ∧
        t.rd (Key.qLastSlip q) = run.slipCycles ∧ t.rd (Key.qLastCycles q) = s.lastCycle run + tail) ∧
      (∀ d, s.runNext q run = some d → run.live = true → run.hdr.hardBound ≠ 0 → run.slipping.isSome = true →
        Lively s q → ∃ t, exec (.deadlineExceeded q id) s = .next t ∧ FrozenBy s t q FC.deadline 0))

/-! ### The arithmetic units (09, 10) -/

/-- No operation in flight at stamp `t` still writes bytes of the T0 slot (R382). -/
abbrev SlotReady (s : State) (b : BayNum) (n t : Nat) : Prop := ∀ x ∈ (s.bay b).late, x.slot = n → x.ready ≤ t

/-- A table register, accumulator block or RACC holds no result that is still to come (R382). -/
abbrev Settled (s : State) (b : BayNum) (res t : Nat) : Prop := s.early b res t = false

/-- Signed INT8 activation `k` of a frame's payload (R425). -/
def int8At (f : Mem) (k : Nat) : Int := toSigned 8 (Mem.read f (256 + k)).toNat

/-- What an arithmetic entry leaves as it was: every quire, tier, stitch and the weight store, and every other bay. -/
def UnitFrame (s t : State) (b : BayNum) : Prop :=
  t.quires = s.quires ∧ t.tiers = s.tiers ∧ t.nv = s.nv ∧ t.st = s.st ∧ t.dict = s.dict ∧ t.out = s.out ∧
  ∀ c, c ≠ b → t.bay c = s.bay c

/-- TE_BUILD (R425, R427, R428, R430, R435): MODE 0 fills table g with the sixteen sums of its four activations, MODE 3
with the products of an activation and the sixteen levels; the register records its base. -/
def TableBuildsClause : Prop :=
  ∀ (s : State) (b : BayNum) (d : Due), Inv s → Issues s b .teBuild d →
    let i := s.issueOf d
    let f := (s.bay b).frame (i.ts 81)
    let base := 4 * bits d.w 80 69
    SlotReady s b (i.ts 81) d.t → ∃ t, exec (.teBuild b) s = .next t ∧ Passed s t b d ∧ UnitFrame s t b ∧
      (t.bay b).t0 = (s.bay b).t0 ∧
      let r := ((t.bay b).engines.get i.engine).treg (bits d.w 65 65)
      r.base = (if bits d.w 68 66 = 5 then 4 * base else base) ∧
      (bits d.w 68 66 = 0 → ∀ g n, g < 32 → n < 16 → base + 128 ≤ 8192 → r.entries.getD (16 * g + n) 0 =
        (if bit n 0 then int8At f (base + 4 * g) else 0) + (if bit n 1 then int8At f (base + 4 * g + 1) else 0) +
        (if bit n 2 then int8At f (base + 4 * g + 2) else 0) + (if bit n 3 then int8At f (base + 4 * g + 3) else 0)) ∧
      (bits d.w 68 66 = 3 → ∀ c m, c < 32 → m < 16 → base + 32 ≤ 8192 →
        r.entries.getD (16 * c + m) 0 = int8At f (base + c) * levelG4 m)

/-- TE_LOOKUP, TE_CLEAR and ESC_APPLY (R380, R405, R406, R430, R433 to R435, R440, R446, R448): an entry of another epoch
freezes the quire with cause EPOCH; a lookup lands one sum a lane in each of its cycles, an escape in two, a clear in one. -/
def AccumulatorsLandClause : Prop :=
  ∀ (s : State) (b : BayNum) (d : Due), Inv s →
    let i := s.issueOf d
    let old := (((s.bay b).engines.get i.engine).settle d.t)
    let eng (t : State) := (t.bay b).engines.get i.engine
    (Issues s b .teLookup d →
      let f := (s.bay b).frame (i.ts 81)
      let acc := bits d.w 72 70
      let r := old.treg (bits d.w 73 73)
      let mode := bits d.w 65 63
      let sh (l : Nat) := scaleShift (Mem.read f (16 + l / 32)).toNat
      (s.epochBad i acc (bits d.w 69 66) = true → OnlyViolator s d → ∃ t, exec (.teLookup b {}) s = .next t ∧ FrozenBy s t d.q FC.epoch 0) ∧
      (s.epochBad i acc (bits d.w 69 66) = false → SlotReady s b (i.ts 81) d.t →
        Settled s b (resTreg i.engine.val (bits d.w 73 73)) d.t → r.mode = some mode →
        mode = 0 ∨ mode = 3 → ∃ t ls, exec (.teLookup b {}) s = .next t ∧ Passed s t b d ∧ UnitFrame s t b ∧
        (eng t).landing = old.landing ++ ls ∧ ls.map Landing.cycle = upFrom (d.t + 7) 32 ∧
        (∀ l ∈ ls, l.block = acc ∧ l.clear = none) ∧ (eng t).latchBase = r.base ∧ (eng t).latchWidth = r.width ∧
        ∀ c l, c < 32 → l < 512 →
          let x := nibbleAt f 256 (512 * c + l)
          let v := r.entries.getD (16 * c + x) 0
          let term := (ls.getD c ⟨0, 0, none, []⟩).adds.getD l 0
          (sh l = none → term = 0) ∧
          (∀ k, sh l = some k → (mode = 3 → term = v * 2 ^ k) ∧
            (mode = 0 → bits d.w 77 74 = 1 → term = (2 * v - r.entries.getD (16 * c + 15) 0) * 2 ^ k) ∧
            (mode = 0 → 1 < bits d.w 77 74 → bits d.w 80 78 + 1 = bits d.w 77 74 →
              term = -(v * 2 ^ (bits d.w 80 78)) * 2 ^ k) ∧
            (mode = 0 → 1 < bits d.w 77 74 → bits d.w 80 78 + 1 < bits d.w 77 74 →
              term = v * 2 ^ (bits d.w 80 78) * 2 ^ k)))) ∧
    (Issues s b .teClear d → ∃ t, exec (.teClear b) s = .next t ∧ Passed s t b d ∧ UnitFrame s t b ∧
      (∀ a, a < 8 → bit (bits d.w 87 80) a = true →
        Tab.get (eng t).epochTag 0 a = (s.bay b).epochAt d.t ∧
        ∃ l ∈ (eng t).landing, l.block = a ∧ l.cycle = d.t + 1 ∧ l.clear.isSome = true) ∧
      (∀ a, a < 8 → bit (bits d.w 87 80) a = false → Tab.get (eng t).epochTag 0 a = Tab.get old.epochTag 0 a)) ∧
    (Issues s b .escApply d →
      let acc := bits d.w 73 71
      (s.epochBad i acc (bits d.w 70 67) = true → OnlyViolator s d → ∃ t, exec (.escApply b) s = .next t ∧ FrozenBy s t d.q FC.epoch 0) ∧
      (s.epochBad i acc (bits d.w 70 67) = false → SlotReady s b (i.ts 81) d.t → SlotReady s b (i.ts 74) d.t → ∃ t l0 l1,
        exec (.escApply b) s = .next t ∧ Passed s t b d ∧ UnitFrame s t b ∧
        (eng t).landing = old.landing ++ [l0, l1] ∧ l0.cycle = d.t + 9 ∧ l1.cycle = d.t + 10 ∧ l0.block = acc ∧
        l1.block = acc ∧
        (escCount ((s.bay b).frame (i.ts 81)) = 0 → l0.adds = List.replicate 512 0 ∧ l1.adds = List.replicate 512 0)))

/-- A cycle's additions (R438, R439, R440): every lane of the block takes the exact sum of the cycle's additions and
saturates once; a clear that the cycle does not leave open makes it zero. -/
def AccumulatorSaturatesClause : Prop :=
  ∀ (e : Engine) (a lane : Nat) (l m : Landing), Tab.rising 0 e.acc = true → lane < 512 → l.block = a → m.block = a →
    l.clear = none → m.clear = none → l.adds.length = 512 → m.adds.length = 512 →
    Tab.get (e.land [l, m] a).acc 0 (512 * a + lane) =
      max (-2147483648) (min 2147483647 (Tab.get e.acc 0 (512 * a + lane) + (l.adds.getD lane 0 + m.adds.getD lane 0)))

/-- `TableBuildsClause`, `AccumulatorsLandClause`, `AccumulatorSaturatesClause` together. -/
def Obligations.TableEngine : Prop := TableBuildsClause ∧ AccumulatorsLandClause ∧ AccumulatorSaturatesClause

/-- TE_RESCALE (R441, R442, R444): with OUTFMT 0 byte 512 DBLK + l takes acc · M · 2^(−S), rounded once and clipped to
INT8; no other byte of the slot changes, and the block stays. -/
def RescalesClause : Prop :=
  ∀ (s : State) (b : BayNum) (d : Due), Inv s → Issues s b .teRescale d → bits d.w 68 67 = 0 →
    let i := s.issueOf d
    let old := ((s.bay b).engines.get i.engine).settle d.t
    let acc := bits d.w 87 85
    let dblk := bits d.w 66 63
    let rs := (s.bay b).frame (i.ts 78)
    Settled s b (resAcc i.engine.val acc) d.t → SlotReady s b (i.ts 78) d.t → ∃ t, exec (.teRescale b) s = .next t ∧
      Passed s t b d ∧ UnitFrame s t b ∧ (t.bay b).engines.get i.engine = old ∧
      (∀ l, l < 512 →
        let entry := Mem.readLe rs (256 + 4 * (512 * bits d.w 77 76 + l)) 4
        let y := Tab.get old.acc 0 (512 * acc + l) * toSigned 16 entry
        let y := if bit entry 23 = true ∧ y < 0 then 0 else y
        Mem.read ((t.bay b).frame (i.ts 69)) (256 + 512 * dblk + l) =
          BitVec.ofInt 8 (max (-128) (min 127 (roundInt y (2 ^ bits entry 21 16))))) ∧
      (∀ a, a < 256 + 512 * dblk ∨ 256 + 512 * dblk + 512 ≤ a →
        Mem.read ((t.bay b).frame (i.ts 69)) a = Mem.read ((s.bay b).frame (i.ts 69)) a) ∧
      (∀ n, n < 64 → n ≠ i.ts 69 → (t.bay b).frame n = (s.bay b).frame n)

/-- The log-domain unit (R452 to R458, R462): LNS_MUL adds the logarithms and multiplies the signs, exactly, within the
limits; LNS_ADD of equal signs corrects the greater; LNS_REDUCE keeps elements 512 to 4,095; zeros as R453 and R457 say. -/
def LogDomainClause : Prop :=
  ∀ (s : State) (b : BayNum) (d : Due), Inv s →
    let i := s.issueOf d
    let fa := (s.bay b).frame (i.ts 81)
    let fb := (s.bay b).frame (i.ts 74)
    let el (f : Mem) (k : Nat) := Mem.readLe f (256 + 2 * k) 2
    let ds (t : State) := (t.bay b).frame (i.ts 67)
    let others (t : State) := ∀ n, n < 64 → n ≠ i.ts 67 → (t.bay b).frame n = (s.bay b).frame n
    SlotReady s b (i.ts 81) d.t →
    (Issues s b .lnsMul d → SlotReady s b (i.ts 74) d.t → ∃ t, exec (.lnsMul b) s = .next t ∧ Passed s t b d ∧
      UnitFrame s t b ∧ others t ∧ ∀ k, k < 4096 →
        let x := el fa k
        let y := el fb k
        ((x % 0x8000 = 0x4000 ∨ y % 0x8000 = 0x4000) → el (ds t) k = 0x4000) ∧
        (x % 0x8000 ≠ 0x4000 → y % 0x8000 ≠ 0x4000 →
          let l := toSigned 15 x + toSigned 15 y
          let neg := bit x 15 != bit y 15
          (-16383 ≤ l → l < 16384 → toSigned 15 (el (ds t) k) = l ∧ bit (el (ds t) k) 15 = neg) ∧
          (16384 ≤ l → el (ds t) k = (if neg then 0x8000 else 0) + 0x3FFF) ∧ (l < -16383 → el (ds t) k = 0x4000))) ∧
    (Issues s b .lnsAdd d → SlotReady s b (i.ts 74) d.t → ∃ t, exec (.lnsAdd b) s = .next t ∧ Passed s t b d ∧
      UnitFrame s t b ∧ others t ∧ ∀ k, k < 4096 →
        let x := el fa k
        let y := el fb k
        (y % 0x8000 = 0x4000 → x % 0x8000 ≠ 0x4000 → el (ds t) k = x) ∧
        (x % 0x8000 = 0x4000 → y % 0x8000 ≠ 0x4000 → el (ds t) k = y) ∧
        (x % 0x8000 ≠ 0x4000 → y % 0x8000 ≠ 0x4000 → toSigned 15 y ≤ toSigned 15 x →
          let gap := (toSigned 15 x - toSigned 15 y).toNat
          (bit x 15 ≠ bit y 15 → gap < 128 → el (ds t) k = 0x4000) ∧
          (bit x 15 = bit y 15 → toSigned 15 x + lnsFPlus gap < 16384 →
            toSigned 15 (el (ds t) k) = toSigned 15 x + lnsFPlus gap ∧ bit (el (ds t) k) 15 = bit x 15))) ∧
    (Issues s b .lnsReduce d → ∃ t, exec (.lnsReduce b) s = .next t ∧ Passed s t b d ∧ UnitFrame s t b ∧ others t ∧
      (∀ k, 512 ≤ k → k < 4096 → el (ds t) k = el ((s.bay b).frame (i.ts 67)) k) ∧
      (∀ g, g < 256 → (∀ j, j < 16 → el fa (16 * g + j) % 0x8000 = 0x4000) →
        el (ds t) g % 0x8000 = 0x4000 ∧ el (ds t) (256 + g) = 0x3FFF)) ∧
    (Issues s b .lnsFromlin d → ∃ t, exec (.lnsFromlin b) s = .next t ∧ Passed s t b d ∧ UnitFrame s t b ∧ others t ∧
      ∀ k, k < 4096 →
        let x := el fa k
        (bits x 14 7 = 0 ∨ 0x7F80 < x % 0x8000 → el (ds t) k = 0x4000) ∧
        (x % 0x8000 = 0x7F80 → el (ds t) k = x / 0x8000 * 0x8000 + 0x3FFF) ∧
        (x % 0x8000 = 0x3F80 → el (ds t) k = x / 0x8000 * 0x8000)) ∧
    (Issues s b .lnsTolin d → ∃ t, exec (.lnsTolin b) s = .next t ∧ Passed s t b d ∧ UnitFrame s t b ∧ others t ∧
      ∀ k, k < 4096 →
        let x := el fa k
        (x % 0x8000 = 0x4000 → el (ds t) k = 0) ∧
        (x % 0x400 = 0 → x % 0x8000 ≠ 0x4000 →
          el (ds t) k = x / 0x8000 * 0x8000 + (127 + toSigned 15 x / 1024).toNat * 128))

/-- `RescalesClause`, `LogDomainClause` together. -/
def Obligations.RescaleAndLogDomain : Prop := RescalesClause ∧ LogDomainClause

/-- The reference unit (R464 to R470, R379): lane l of REF_FMA with CLR starts at +0 and takes one fma for each column;
REF_CAST writes elements 0 to 63 only; REF_TOPK chooses K indices that no other score ranks above. -/
def ReferenceUnitClause : Prop :=
  ∀ (s : State) (b : BayNum) (d : Due), Inv s →
    let i := s.issueOf d
    let el (f : Mem) (k : Nat) := Mem.readLe f (256 + 2 * k) 2
    let frame := (s.bay b).frame
    (Issues s b .refFma d → bit d.w 69 = true → SlotReady s b (i.ts 81) d.t → SlotReady s b (i.ts 74) d.t → ∃ t,
      exec (.refFma b) s = .next t ∧ Passed s t b d ∧ UnitFrame s t b ∧ (t.bay b).t0 = (s.bay b).t0 ∧
      let fmt := if bits d.w 73 73 = 0 then bf16 else fp16
      (∀ l, l < 64 → Tab.get (t.bay b).racc 0 (64 * bits d.w 72 70 + l) = (List.range 64).foldl (fun v c =>
        fma32 (fmt.decode (el (frame (i.ts 81)) (64 * c + l))) (fmt.decode (el (frame (i.ts 74)) c)) v) 0) ∧
      (∀ n, n < 64 * bits d.w 72 70 ∨ 64 * bits d.w 72 70 + 64 ≤ n →
        Tab.get (t.bay b).racc 0 n = Tab.get (s.bay b).racc 0 n)) ∧
    (Issues s b .refCast d → Settled s b (resRacc (bits d.w 87 85)) d.t → ∃ t, exec (.refCast b) s = .next t ∧
      Passed s t b d ∧ UnitFrame s t b ∧ (t.bay b).racc = (s.bay b).racc ∧
      (∀ l, l < 64 → el ((t.bay b).frame (i.ts 78)) l = (if bits d.w 77 77 = 0 then bf16 else fp16).encode
        (fp32.decode (Tab.get (s.bay b).racc 0 (64 * bits d.w 87 85 + l))) % 65536) ∧
      (∀ a, a < 256 ∨ 384 ≤ a → Mem.read ((t.bay b).frame (i.ts 78)) a = Mem.read (frame (i.ts 78)) a)) ∧
    (Issues s b .refTopk d → bit d.w 69 = false → SlotReady s b (i.ts 81) d.t →
      let k := bits d.w 80 77
      let score (j : Nat) := bf16.decode (el (frame (i.ts 81)) j)
      1 ≤ k → k ≤ 8 → ∃ (t : State) (top : List Nat), exec (.refTopk b) s = .next t ∧ Passed s t b d ∧ UnitFrame s t b ∧
        (t.bay b).t0 = (s.bay b).t0 ∧ top.length = k ∧ top.Nodup ∧ (∀ j ∈ top, j < 64) ∧
        (∀ j ∈ top, ∀ m, m < 64 → m ∉ top → ranksAbove (score m) (score j) = false) ∧
        (∀ j, j < 8 → ∃ e ∈ (t.bay b).dregDue, e.reg = resRefDreg j ∧ e.value = top.getD j 0xFFFFFFFF ∧
          e.ready = d.t + 68))

/-- The converter (R496, R500, R502, R503, R505, R514, R520): pass 1 counts finite elements; pass 2 at POS 0 writes the
header of its format and moves POS on; a carry into its own scale slot freezes the quire with code OPERAND; CONV_STATS
writes the counts and clears the set. -/
def ConverterClause : Prop :=
  ∀ (s : State) (b : BayNum) (d : Due), Inv s →
    let i := s.issueOf d
    let el (f : Mem) (k : Nat) := Mem.readLe f (256 + 2 * k) 2
    let finite (v : Nat) := bits v 14 7 ≠ 0xFF
    let set (t : State) (n : Fin 4) := (t.bay b).sets.get n
    (Issues s b .convPass1 d → SlotReady s b (i.ts 81) d.t → (∀ k, k < 4096 → finite (el ((s.bay b).frame (i.ts 81)) k)) →
      let n := i.set 79
      ∃ t, exec (.convPass1 b) s = .next t ∧ Passed s t b d ∧ UnitFrame s t b ∧ (t.bay b).t0 = (s.bay b).t0 ∧
        (set t n).count1 = min ((set s n).count1 + 4096) 0xFFFFFFFF ∧ (set t n).nonfinite = (set s n).nonfinite ∧
        (set t n).lastOp = .pass1 ∧ (set t n).pos = (set s n).pos ∧
        ∀ m, m ≠ n → set t m = set s m) ∧
    (Issues s b .convPass2 d → SlotReady s b (i.ts 81) d.t →
      let n := i.set 79
      let fmt := bits d.w 71 69
      fmt < 5 → (set s n).pos = 0 → ∃ t, exec (.convPass2 b) s = .next t ∧ Passed s t b d ∧ UnitFrame s t b ∧
        (set t n).pos = 4096 ∧ (set t n).lastOp = .conversion ∧
        (let f := (t.bay b).frame (i.ts 72)
         Mem.read f 0 = 1 ∧ Mem.read f 1 = BitVec.ofNat 8 (fmtFormat fmt) ∧ Mem.read f 2 = 0 ∧ Mem.read f 3 = 0 ∧
         Mem.read f 4 = 0 ∧ Mem.read f 6 = Mem.read ((s.bay b).frame (i.ts 72)) 6 ∧ Mem.read f 7 = 0 ∧
         Mem.readN f 8 8 = Mem.readN ((s.bay b).frame (i.ts 72)) 8 8 ∧ ∀ a, 34 ≤ a → a < 128 → Mem.read f a = 0) ∧
        (∀ m, m ≠ n → set t m = set s m)) ∧
    (Issues s b .convCarry d →
      (i.ts 74 = i.ts 67 → OnlyViolator s d → ∃ t, exec (.convCarry b) s = .next t ∧
        FrozenBy s t d.q FC.format ((256 + 16 * d.idx + 9) % 2 ^ 32) ∧ t.rd (Key.qValCode d.q) = 0x07) ∧
      (i.ts 74 ≠ i.ts 67 → SlotReady s b (i.ts 81) d.t → SlotReady s b (i.ts 74) d.t → ∃ t n,
        exec (.convCarry b) s = .next t ∧ Passed s t b d ∧ UnitFrame s t b ∧ (set t n).lastOp = .conversion ∧
        (set t n).pos = (if fmtCapacity (bits d.w 66 64) ≤ (set s n).pos + 4096 then 0 else (set s n).pos + 4096) ∧
        (∀ m, m ≠ n → set t m = set s m) ∧
        (∀ k, 256 ≤ k → k < 8448 → Mem.read ((t.bay b).frame (i.ts 74)) k = Mem.read ((s.bay b).frame (i.ts 74)) k))) ∧
    (Issues s b .convStats d →
      let n := i.set 86
      ∃ t, exec (.convStats b) s = .next t ∧ Passed s t b d ∧ UnitFrame s t b ∧ set t n = StatSet.reset ∧
        (∀ m, m ≠ n → set t m = set s m) ∧
        (let f := (t.bay b).frame (i.ts 79)
         Mem.read f 0 = 2 ∧ Mem.read f 1 = 0x0D ∧ Mem.readN f 8 8 = Mem.readN ((s.bay b).frame (i.ts 79)) 8 8 ∧
         Mem.readLe f 256 4 = (set s n).count1 % 2 ^ 32 ∧ Mem.readLe f 260 4 = (set s n).count2 % 2 ^ 32 ∧
         ∀ k, 448 ≤ k → Mem.read f k = Mem.read ((s.bay b).frame (i.ts 79)) k))

/-- `ReferenceUnitClause`, `ConverterClause` together. -/
def Obligations.ReferenceAndConverter : Prop := ReferenceUnitClause ∧ ConverterClause

/-! ### Leaves and streams of a bay (08, 12, 14) -/

/-- MOV_IN and MOV_OUT over the bay's own slice, and a leaf of a queued T2 move (R27, R371, R372, R376, R380, R381, R683):
leaf j moves between the slots and the leaves the binding names, arriving in cycle 64 (j + 1) of the move; no other leaf
changes; a range past the binding, a leaf of another quire, and one beyond the T4 window, freeze the quire. -/
def LeafMovesClause : Prop :=
  ∀ (s : State) (b : BayNum) (d : Due), Inv s →
    let i := s.issueOf d
    let count := bits d.w 48 45 + 1
    let k := bits d.w 76 56 + s.loopIndex b (bit d.w 79) (bits d.w 78 77)
    let slot := i.ts 49
    (∀ bind, d.run.binds[bits d.w 87 80]? = some bind →
      (Issues s b .movIn d → OnlyViolator s d → bind.value < k + count → ∃ t, exec (.movIn b {}) s = .next t ∧
        FrozenBy s t d.q FC.format ((256 + 16 * d.idx + 7) % 2 ^ 32) ∧ t.rd (Key.qValCode d.q) = 0x07) ∧
      (∀ a, addrOf bind.addr = some a → bind.kind = 2 → k + count ≤ bind.value →
        (Issues s b .movIn d → OnlyViolator s d → s.resolve d.q (a.advance k) = .foreign → ∃ t,
          exec (.movIn b {}) s = .next t ∧
          FrozenBy s t d.q (if a.form.isT4 = true then FC.quota else FC.foreignLeaf)
            (if a.form.isT4 = true then 0 else bits (a.advance k).encode 43 12)) ∧
        (a.form = .slice b → (∀ j, j < count → s.allocated d.q (.slice b) (a.leaf + k + j) = true) →
          slot + count ≤ 64 →
          (Issues s b .movIn d → ∃ t, exec (.movIn b {}) s = .next t ∧ Passed s t b d ∧ t.tiers = s.tiers ∧
            t.nv = s.nv ∧ t.dict = s.dict ∧ t.out = s.out ∧ (t.bay b).moverFree = d.elapsed + 64 * count ∧
            (∀ j, j < count → (t.bay b).frame (slot + j) = s.leaf (.slice b) (a.leaf + k + j) ∧
              ((t.bay b).slot (slot + j)).due = some (d.elapsed + 64 * (j + 1) - 1)) ∧
            (∀ n, n < 64 → n < slot ∨ slot + count ≤ n → (t.bay b).frame n = (s.bay b).frame n)) ∧
          (Issues s b .movOut d → bit bind.bflags 0 = true → (∀ n, (s.bay b).tag n = 0) →
            (∀ j, j < count → SlotReady s b (slot + j) d.t ∧ ((s.bay b).slot (slot + j)).xo = false) → ∃ t,
            exec (.movOut b {}) s = .next t ∧ Passed s t b d ∧ (t.bay b).t0 = (s.bay b).t0 ∧ t.nv = s.nv ∧
            t.dict = s.dict ∧ t.out = s.out ∧ (t.bay b).moverFree = d.elapsed + 64 * count ∧
            (∀ j, j < count → t.leaf (.slice b) (a.leaf + k + j) = (s.bay b).frame (slot + j)) ∧
            (∀ p n, ¬ (p = .slice b ∧ a.leaf + k ≤ n ∧ n < a.leaf + k + count) → t.leaf p n = s.leaf p n))))) ∧
    (∀ q id m n l a, (s.bay b).seq.run = some (q, id) → (s.bay b).moves = [m] → m.slot = n.val → m.cause = .t2 →
      addrOf m.addr = some a → a.form = .t2 → a.leaf = l → s.allocated q .t2 l = true → s.rdB Key.t2EccActive = false →
      (m.isIn = true → ((s.bay b).slot n.val).voidOnArrival = false → ∃ t, exec (.leafArrival b n {}) s = .next t ∧
        (t.bay b).frame n.val = s.leaf .t2 l ∧ ((t.bay b).slot n.val).arriving = none ∧ (t.bay b).moves = [] ∧
        t.tiers = s.tiers ∧ t.dict = s.dict ∧ t.out = s.out) ∧
      (m.isIn = false → ∃ t, exec (.leafArrival b n {}) s = .next t ∧ (t.bay b).moves = [] ∧
        (∀ j, j < 8448 → Mem.read (t.leaf .t2 l) j = Mem.read m.frame j) ∧
        (∀ p x, ¬ (p = .t2 ∧ x = l) → t.leaf p x = s.leaf p x) ∧ t.dict = s.dict ∧ t.out = s.out))

/-- STREAM (R377, R411, R412, R414, R415): a stripe that lies in BG joins the quire's queue of BG behind the others, its
slots pending from T3; a wrong group, or a fifth standing request, freezes the quire with code 0x11; a handle the quire
does not hold with cause FOREIGN_LEAF. -/
def StreamsQueueClause : Prop :=
  ∀ (s : State) (b : BayNum) (d : Due) (bind : Binding), Inv s → Issues s b .stream d →
    d.run.binds[bits d.w 87 80]? = some bind →
    let k := bits d.w 76 57 + s.loopIndex b (bit d.w 79) (bits d.w 78 77)
    let g := bits d.w 56 53
    let count := bits d.w 45 40 + 1
    let base := (bits d.w 52 47 + if bit d.w 46 ∧ (s.issueOf d).odd then 32 else 0) % 64
    (s.validHandle d.q bind.value = none → OnlyViolator s d → ∃ t detail, exec (.stream b) s = .next t ∧
      FrozenBy s t d.q FC.foreignLeaf detail) ∧
    (∀ le, s.validHandle d.q bind.value = some le →
      ((s.lib le).man.groupOf (s.lib le).variant k ≠ some g ∨ 4 ≤ s.streamsStanding d.q g → OnlyViolator s d → ∃ t,
        exec (.stream b) s = .next t ∧ FrozenBy s t d.q FC.format ((256 + 16 * d.idx + 6) % 2 ^ 32) ∧
        t.rd (Key.qValCode d.q) = 0x11) ∧
      ((s.lib le).man.groupOf (s.lib le).variant k = some g → s.groupInService g = true → s.streamsStanding d.q g < 4 →
        (insertNat g (s.streamGroups d.q b d.run.id)).length ≤ 2 → base + count ≤ 64 → ∃ t r,
        exec (.stream b) s = .next t ∧ Passed s t b d ∧ r.entry = le ∧ r.stripe = k ∧ r.leaves = List.range count ∧
        Tab.get t.weave.queues [] (d.q.val * 12 + g) = Tab.get s.weave.queues [] (d.q.val * 12 + g) ++ [r] ∧
        (∀ key, key ≠ d.q.val * 12 + g → Tab.get t.weave.queues [] key = Tab.get s.weave.queues [] key) ∧
        (∀ j, j < count → ((t.bay b).slot (base + j)).arriving = some .t3) ∧ (t.bay b).t0 = (s.bay b).t0 ∧
        t.tiers = s.tiers ∧ t.nv = s.nv ∧ t.dict = s.dict ∧ t.out = s.out))

/-- `LeafMovesClause`, `StreamsQueueClause` together. -/
def Obligations.LeafMovesAndStreams : Prop := LeafMovesClause ∧ StreamsQueueClause

/-- The weave (R409, R411, R417, R558, R566, R594, R584): each slot advances the frame; an owned slot senses the head of the
owner's queue, unless that request has to wait; a busy bank freezes the quire of a STREAM with cause BUSY_BANK; a delivered row
fills the slots of its leaves, and a leaf with an uncorrectable codeword is sensed again ahead of the queue. -/
def WeaveServesClause : Prop :=
  ∀ (s : State), Inv s →
    (s.up = true → s.coreOn = true → ∃ t, exec .weaveSlotStart s = .next t ∧
      t.weave.slot = (s.weave.slot + 1) % 1024 ∧ (s.weave.slot = 0 → t.weave.profile = s.part) ∧
      (s.weave.slot ≠ 0 → t.weave.profile = s.weave.profile)) ∧
    (∀ (q : QNum) (g : Nat) (r : SenseReq) (l : List SenseReq), g < 12 → s.groupInService g = true →
      s.weaveCode s.weave.profile s.weave.slot g = q.val → Lively s q →
      Tab.get s.weave.queues [] (q.val * 12 + g) = r :: l → Tab.get s.weave.lent 0 (q.val * 12 + g) = 0 →
      let t := s.useSlot g
      (s.groupBusy g = false → s.headWaits q r = false → Tab.get t.weave.sensed [] g = Tab.get s.weave.sensed [] g ++ [.queue q r] ∧
        Tab.get t.weave.queues [] (q.val * 12 + g) = l ∧ t.bays = s.bays ∧ t.quires = s.quires) ∧
      (∀ b id slot n tag h idx run, r.what = .stream b id slot n tag h idx → s.run q id = some run →
        s.groupBusy g = true → FrozenBy s t q FC.busyBank 0)) ∧
    (∀ (g : GroupNum) (q : QNum) (r : SenseReq) (b : BayNum) (id slot n tag h idx : Nat) (rest : List SlotUse),
      s.coreOn = true → Tab.get s.weave.sensed [] g.val = .queue q r :: rest → r.what = .stream b id slot n tag h idx →
      s.stillRuns q b id = true → r.leaves.Nodup → (∀ j ∈ r.leaves, slot + j < 64) →
      (∀ j ∈ r.leaves, ((s.bay b).slot (slot + j)).voidOnArrival = false) →
      (∃ t, exec (.stripeDelivery g {}) s = .next t ∧ Tab.get t.weave.sensed [] g.val = rest ∧
        (∀ j ∈ r.leaves, (t.bay b).frame (slot + j) = s.libFrame r.entry (32 * r.stripe + j) ∧
          ((t.bay b).slot (slot + j)).arriving = none) ∧ t.tiers = s.tiers ∧ t.out = s.out) ∧
      (∀ bad, (r.leaves.filter fun j => bad.contains j) ≠ [] → r.retries < 3 → ∃ t,
        exec (.stripeDelivery g { badLeaves := bad }) s = .next t ∧
        Tab.get t.weave.queues [] (q.val * 12 + g.val) =
          { r with retries := r.retries + 1, leaves := r.leaves.filter fun j => bad.contains j } ::
            Tab.get s.weave.queues [] (q.val * 12 + g.val) ∧
        (∀ j ∈ r.leaves, j ∉ bad → (t.bay b).frame (slot + j) = s.libFrame r.entry (32 * r.stripe + j)))) ∧
    (s.up = true → s.coreOn = true → ∃ t, exec .scrubPass s = .next t ∧ t.nv.scrubAt = s.rtc.toNat ∧ t.bays = s.bays ∧
      t.quires = s.quires ∧ t.tiers = s.tiers ∧ t.out = s.out)

/-- The T3 aperture (R572, R575, R577, R578, R579): a read of a leaf outside the window's entry answers Unsupported Request
and counts in APT_RANGE, one of an execute-only leaf answers Completer Abort and counts in APT_XO, one of an open leaf in
the buffer answers the payload bytes that were sensed; a write is discarded and counted. -/
def ApertureClause : Prop :=
  ∀ (s : State) (i j len : Nat), Inv s → s.bar2Takes (0x08000000 + 8192 * i + j) len = true → s.up = true → s.coreOn = true →
    s.pm.entry = none → s.clk.lpddrPll = true → i < 14336 → j + len ≤ 8192 → 1 ≤ len →
    let off := BitVec.ofNat 28 (0x08000000 + 8192 * i + j)
    let w := s.rd Key.t3Window
    let e := w / 2 ^ 32
    let n := w % 2 ^ 32 + i
    let x := s.lib e
    let up (t : State) (k : Nat) := t.rd k = min (s.rd k + 1) 0xFFFFFFFF
    (63 < e ∨ x.installed = false ∨ 32 * x.stripes ≤ n → ∃ t, exec (.apertureRead off len) s = .next t ∧
      t.out = s.out ++ [.unsupportedRequest] ∧ up t Key.aptRange ∧ t.rd Key.aptLastCause = 3) ∧
    (e ≤ 63 → x.installed = true → n < 32 * x.stripes →
      (x.man.xoStripe (n / 32) = true → ∃ t, exec (.apertureRead off len) s = .next t ∧
        t.out = s.out ++ [.completerAbort] ∧ up t Key.aptXo ∧ t.rd Key.aptLastCause = 1) ∧
      (∀ a, x.man.xoStripe (n / 32) = false → s.buffered e (n / 32) = some a → ∃ t,
        exec (.apertureRead off len) s = .next t ∧
        t.out = s.out ++ [.barRead (Mem.readN a.frames (8448 * (n % 32) + 256 + j) len)] ∧
        t.dict = s.dict ∧ t.tiers = s.tiers ∧ t.nv = s.nv)) ∧
    (∀ data, data.length = len → ∃ t, exec (.apertureWrite off data) s = .next t ∧ up t Key.aptWrites ∧
      t.tiers = s.tiers ∧ t.nv = s.nv ∧ t.out = s.out)

/-- `WeaveServesClause`, `ApertureClause` together. -/
def Obligations.WeaveAndAperture : Prop := WeaveServesClause ∧ ApertureClause

/-! ### The press and the translation layer (13) -/

/-- The command that gives descriptor `desc` of operation `op` (R606). -/
def pressCommand (op : Nat) (src : PressSource) (desc : List Byte) : Instr :=
  match op with
  | 1 => .eraseBlock src desc
  | 2 => .eraseSector src desc
  | 3 => .programRun src desc
  | 4 => .readRun src desc
  | 5 => .otpProgram src desc
  | _ => .refreshMove src desc

/-- The entry in which a submitter's press completion appears, or what the engine is sent (R611). -/
def PressAnswered (s t : State) (src : PressSource) (bytes : List Byte) : Prop :=
  match submitKey src with
  | some k => (t.cmd k).state = .done ∧ (t.cmd k).result = DS.ok ∧ (t.cmd k).card = bytes
  | none => ∃ l, t.out = s.out ++ Output.pressCompletion bytes :: l

/-- Press descriptors (R600, R604, R606, R611, R612, R614): an operation that R600 does not give a role answers ROLE and
places nothing; a descriptor that passes every check joins the ring, its submission RUNNING; one with a bad field of an
engine or of HOST-P completes at once with FORMAT and its offset, one of a quire freezes it. -/
def Obligations.PressSubmissions : Prop :=
  ∀ (s : State) (src : PressSource) (desc : List Byte) (op : Nat), Inv s → 1 ≤ op → op ≤ 6 → s.up = true →
    s.coreOn = true → fieldLe desc 0 1 = op →
    let d := parseDesc desc
    let idle := s.nv.press.length < 256 ∧ ∀ k, submitKey src = some k → s.cmdRunning k = false
    ((sourceOps src).contains op = false → (submitKey src).isSome = true →
      exec (pressCommand op src desc) s = .next ((s.count Key.dictRole).answer DS.role)) ∧
    ((sourceOps src).contains op = true → idle →
      (∀ q, src = .quire q → s.pressFreeze q desc = none) → ((∀ q, src ≠ .quire q) → 
        (if (submitKey src).isSome then hostDescBad desc else engineDescBad src desc) = none) →
      s.pressAtOnce src d = none → ∃ t x, exec (pressCommand op src desc) s = .next t ∧ x ∈ t.nv.press ∧
      x.id = s.nv.nextOp ∧ x.src = src ∧ x.op = op ∧ x.tag = d.tag ∧ x.target = d.target ∧ x.data = d.data ∧
      x.count = d.count ∧ t.nv.nextOp = s.nv.nextOp + 1 ∧ t.nv.press.length = s.nv.press.length + 1 ∧
      (∀ k, submitKey src = some k → (t.cmd k).state = .running ∧ t.out = s.out ++ [.status DS.ok]) ∧
      t.nv.otp = s.nv.otp ∧ t.nv.lib = s.nv.lib ∧ t.nv.blocks = s.nv.blocks ∧ t.tiers = s.tiers ∧ t.quires = s.quires) ∧
    (∀ o, (sourceOps src).contains op = true → idle → src = .host → hostDescBad desc = some o → ∃ t,
      exec (pressCommand op src desc) s = .next t ∧ t.nv = s.nv ∧
      PressAnswered s t src (pressBytes d PS.format 0 o 0)) ∧
    (∀ q o, (sourceOps src).contains op = true → idle → src = .quire q → Lively s q →
      (sortNat (badDesc desc)).head? = some o → ∃ t, exec (pressCommand op src desc) s = .next t ∧
      FrozenBy s t q FC.format (o % 2 ^ 32))

/-- Press operations end (R590, R602, R606, R607, R608, R610, R620, R635): an OTP_PROGRAM that verified sets the bits of its 8
bytes and no other, one that did not leaves some of them 0, clears none and answers PROGRAM_FAIL; an ERASE_SECTOR clears the
sectors under way and completes with the last; an ERASE_BLOCK frees the named blocks not in use; a finished band move switches the block tables and answers the rows moved. -/
def PressCompletionsClause : Prop :=
  ∀ (s : State) (id : Nat) (x : PressOp) (us : Nat), Inv s → (s.nv.press.find? fun y => y.id == id) = some x →
    x.running = true → x.suspended = false → s.runSensing id = false → s.coreOn = true →
    (∀ y ∈ s.nv.press, y.src = x.src → y = x) → (sourceOps x.src).contains x.op = true →
    (x.op = 5 → ∃ t, exec (.pressOpComplete id { timeUs := us }) s = .next t ∧
      Mem.readLe t.nv.otp x.target 8 = (Mem.readLe s.nv.otp x.target 8 ||| x.data) % 2 ^ 64 ∧
      (∀ a, a < x.target ∨ x.target + 8 ≤ a → Mem.read t.nv.otp a = Mem.read s.nv.otp a) ∧
      PressAnswered s t x.src (pressBytes x.desc PS.ok 8 0 us) ∧ (∀ y ∈ t.nv.press, y.id ≠ id) ∧ t.nv.lib = s.nv.lib ∧
      t.tiers = s.tiers) ∧
    (x.op = 5 → x.data < 2 ^ 64 →
      let old := Mem.readLe s.nv.otp x.target 8
      old ||| x.data ≠ old → ∃ t, exec (.pressOpComplete id { timeUs := us, verified := false }) s = .next t ∧
      (let new := Mem.readLe t.nv.otp x.target 8; new ||| old = new ∧ new ||| (old ||| x.data) = old ||| x.data ∧
        new &&& x.data ≠ x.data) ∧
      (∀ a, a < x.target ∨ x.target + 8 ≤ a → Mem.read t.nv.otp a = Mem.read s.nv.otp a) ∧
      PressAnswered s t x.src (pressBytes x.desc PS.programFail 0 (x.target % 2 ^ 32) us) ∧
      t.rd Key.pressProgramFails = min (s.rd Key.pressProgramFails + 1) 0xFFFFFFFF) ∧
    (x.op = 2 → x.under ≠ [] → (∀ n ∈ x.under, 674 ≤ n ∧ n < 1024) → ∃ t,
      exec (.pressOpComplete id { timeUs := us }) s = .next t ∧
      (∀ a, Mem.read t.nv.aux a = if a / 8192 ∈ x.under then 0 else Mem.read s.nv.aux a) ∧
      (x.count ≤ x.done + x.under.length → (∀ y ∈ t.nv.press, y.id ≠ id) ∧
        PressAnswered s t x.src (pressBytes x.desc PS.ok x.count 0 us)) ∧
      (x.done + x.under.length < x.count → ∃ y ∈ t.nv.press, y.id = id ∧ y.done = x.done + x.under.length) ∧
      t.nv.boot = s.nv.boot ∧ t.nv.otp = s.nv.otp ∧ t.tiers = s.tiers) ∧
    (x.op = 1 → isAux x.target = false → s.pressing (nvGroup x.target) (.op id) = true → ∃ t,
      exec (.pressOpComplete id { timeUs := us }) s = .next t ∧
      PressAnswered s t x.src (pressBytes x.desc PS.ok 0 0 us) ∧
      (∀ k ∈ nvBanks x.target, k < 8 → nvBlock x.target < 18 →
        let b := s.block (nvGroup x.target) k (nvBlock x.target)
        b.state ≠ .inUse → b.state ≠ .bad →
          t.block (nvGroup x.target) k (nvBlock x.target) = { state := .freeErased, cycles := b.cycles + 1 }) ∧
      t.nv.lib = s.nv.lib ∧ t.nv.otp = s.nv.otp ∧ t.tiers = s.tiers) ∧
    (∀ (g : GroupNum) (m : BandMove), s.remapDue g.val = some m → m.dest.length = 8 → m.band < 16 → x.op = 6 →
      x.target = g.val + 16 * m.band → (∀ y ∈ s.nv.press, y = x) → m.kind = .refresh → ∃ t us,
      exec (.refreshRemap g []) s = .next t ∧ (∀ k, k < 8 → t.mappedBlock g.val k m.band = m.dest.getD k 0) ∧
      (t.bandOf g.val m.band).reads = 0 ∧ (t.bandOf g.val m.band).used = (s.bandOf g.val m.band).used ∧
      (∀ y ∈ t.nv.moves, ¬ (y.group = g.val ∧ y.band = m.band)) ∧
      t.rd Key.tlRefreshes = min (s.rd Key.tlRefreshes + 1) 0xFFFFFFFF ∧
      PressAnswered s t x.src (pressBytes x.desc PS.ok (s.bandOf g.val m.band).used 0 us))

/-- Suspend and resume (R621, R623), staging and firmware update (R651, R652): the read suspends the operation on its pair
and the resume lets it go on; 256 bytes land at FW_STAGE_OFFSET, which moves on; an update writes the slot that does not
run and then names it in the commit record. -/
def SuspendAndFirmwareClause : Prop :=
  ∀ (s : State), Inv s →
    (∀ (pair : Fin 4) (x : PressOp), s.nv.press = [x] → x.onPair pair.val = true →
      (x.suspended = false → ∃ t, exec (.pressSuspend pair) s = .next t ∧
        t.nv = { s.nv with press := [{ x with suspended := true }] } ∧
        t.rd Key.pressSuspends = min (s.rd Key.pressSuspends + 1) 0xFFFFFFFF ∧ t.tiers = s.tiers ∧ t.out = s.out) ∧
      (x.suspended = true → exec (.pressResume pair) s =
        .next (s.setNv { s.nv with press := [{ x with suspended := false }] }))) ∧
    (∀ (role : Role) (v : List Byte), Serving s → Allowed s role Key.fwStageData v.length → s.cmdRunning Key.fwUpdate = false →
      let o := s.rd Key.fwStageOffset
      (655104 < o → ∃ t, exec (.fwStageData role v) s = .next t ∧ t.nv = s.nv ∧ t.out = s.out ++ [.status DS.range]) ∧
      (o ≤ 655104 → ∃ t, exec (.fwStageData role v) s = .next t ∧ t.rd Key.fwStageOffset = o + 256 ∧
        (∀ a, Mem.read t.nv.fwStage a =
          if o ≤ a ∧ a < o + 256 then v.getD (a - o) 0 else Mem.read s.nv.fwStage a) ∧
        t.nv.boot = s.nv.boot ∧ t.tiers = s.tiers ∧ t.out = s.out ++ [.status DS.ok])) ∧
    (∀ (role : Role) (arg : List Byte) (env : Env), Serving s → Allowed s role Key.fwUpdate arg.length →
      s.cmdRunning Key.fwUpdate = false → fieldLe arg 4 1 = 0 → fieldLe arg 5 3 = 0 →
      let len := fieldLe arg 0 4
      let b := s.nv.boot
      let toB := s.rd Key.bootSlot = 0
      (len = 0 ∨ 655360 < len → ∃ t, exec (.fwUpdate role arg env) s = .next t ∧ t.nv = s.nv ∧
        t.out = s.out ++ [.status DS.range]) ∧
      (1 ≤ len → len ≤ 655360 → s.imageOk s.nv.fwStage len = false → ∃ t,
        exec (.fwUpdate role arg env) s = .next t ∧ t.nv = s.nv ∧ (t.cmd Key.fwUpdate).result = DS.state) ∧
      (1 ≤ len → len ≤ 655360 → env.readBack = true → s.imageOk s.nv.fwStage len = true → ∃ t img,
        exec (.fwUpdate role arg env) s = .next t ∧ (t.cmd Key.fwUpdate).result = DS.ok ∧
        (toB → t.nv.boot.slotB = some img ∧ t.nv.boot.slotA = b.slotA) ∧
        (¬ toB → t.nv.boot.slotA = some img ∧ t.nv.boot.slotB = b.slotB) ∧
        (∀ a, a < len → Mem.read img a = Mem.read s.nv.fwStage a) ∧
        ((t.nv.boot.copy0 = b.copy0 ∧ t.nv.boot.copy1.slotB = decide toB ∧ t.nv.boot.copy1.crcOk = true ∧
            t.nv.boot.copy1.seq = b.copy0.seq + 1) ∨
         (t.nv.boot.copy1 = b.copy1 ∧ t.nv.boot.copy0.slotB = decide toB ∧ t.nv.boot.copy0.crcOk = true ∧
            t.nv.boot.copy0.seq = b.copy1.seq + 1)) ∧ t.nv.boot.resetDue = b.resetDue))

/-- `PressCompletionsClause`, `SuspendAndFirmwareClause` together. -/
def Obligations.PressOperations : Prop := PressCompletionsClause ∧ SuspendAndFirmwareClause

/-! ### Tiers and leaves (14) -/

/-- The place of a FLAGS ALLOC and the quire's headroom there (R668, R670): a slice the quire does not own has none. -/
def flagsHeadroom (s : State) (q : QNum) (e : Entry) : Nat :=
  if fieldLe e.bytes 12 1 = 2 then s.headT2 q
  else if bit (fieldLe e.bytes 13 1) 3 ∨ s.ownerOf (Fin.ofNat 8 (fieldLe e.bytes 13 1 % 8)) = some q then s.headT1 q else 0

/-- No extent of the place that `f` picks meets `count` leaves from `n`, and they lie in the place. -/
abbrev RunClear (s : State) (p : Place) (f : Use → Bool) (n count : Nat) : Prop :=
  n + count ≤ s.placeLeaves p ∧ ∀ x ∈ s.tiers.extents, x.place = p → f x.use = true → x.first + x.count ≤ n ∨ n + count ≤ x.first

/-- ALLOC (R668, R670, R671, R672): short headroom completes with QUOTA and the leaves missing, no run of free leaves with
QUOTA and 0; the lowest zeroed run is taken and its address answered; where the only run awaits zeroing the entry waits.
The first leaves of an empty T2 answer a UNIFIED ALLOC with TIER 2. -/
def AllocAnswersClause : Prop :=
  ∀ (s : State) (q : QNum) (r : RingNum) (e : Entry), CqRoom s q → s.startable q r 0x05 = some e →
    let count := fieldLe e.bytes 8 4
    let p := allocPlace e
    1 ≤ count →
    (s.rd (Key.qPlacement q) = 0 →
      (flagsHeadroom s q e < count → ∃ t, exec (.alloc q r) s = .next t ∧
        Completes s t q e CS.quota 0 (count - flagsHeadroom s q e) ∧ t.tiers.extents = s.tiers.extents) ∧
      (count ≤ flagsHeadroom s q e → (∀ n, ¬ RunClear s p Use.taken n count) → ∃ t, exec (.alloc q r) s = .next t ∧
        Completes s t q e CS.quota 0 0 ∧ t.tiers.extents = s.tiers.extents) ∧
      (∀ n, count ≤ flagsHeadroom s q e → RunClear s p Use.any n count → (∀ m, m < n → ¬ RunClear s p Use.any m count) →
        ∃ t, exec (.alloc q r) s = .next t ∧ Completes s t q e CS.ok 0 (Addr.ofPlace p n).encode ∧
        t.tiers.extents = s.tiers.extents ++ [{ place := p, first := n, count := count, use := .alloc q }]) ∧
      (∀ n, count ≤ flagsHeadroom s q e → (∀ m, ¬ RunClear s p Use.any m count) → RunClear s p Use.taken n count →
        (∀ m, m < n → ¬ RunClear s p Use.taken m count) → s.unzeroed p n count = true → ∃ t,
        exec (.alloc q r) s = .next t ∧ t.out = s.out ∧ (t.quire q).started.length = (s.quire q).started.length + 1 ∧
        t.tiers.extents = s.tiers.extents ++ [{ place := p, first := n, count := count, use := .allocWait q e.seq }])) ∧
    (s.rd (Key.qPlacement q) = 1 → fieldLe e.bytes 12 1 = 2 →
      (s.headT2 q < count → ∃ t, exec (.alloc q r) s = .next t ∧
        Completes s t q e CS.quota 0 (count - s.headT2 q) ∧ t.tiers.extents = s.tiers.extents) ∧
      (count ≤ s.headT2 q → count ≤ s.rd Key.t2QuotaCap → (∀ x ∈ s.tiers.extents, x.place ≠ .t2) →
        (s.quire q).unified = [] → ∃ t, exec (.alloc q r) s = .next t ∧
        Completes s t q e CS.ok 0 ({ form := .unified, leaf := 0 } : Addr).encode ∧
        (∀ i, i < count → Tab.find (t.quire q).unified i = some { home := .t2 i, lastRead := 0 })))

/-- FREE (R673, R674, R675): leaves that are not of an allocation of the quire freeze it with cause FOREIGN_LEAF; a leaf a
running run binds makes the FREE wait; else the leaves are released to the zeroing engine and allocated to nobody, and no
other leaf's allocation changes. Stated where the quire has one allocation at the place. -/
def FreeReleasesClause : Prop :=
  ∀ (s : State) (q : QNum) (r : RingNum) (e : Entry) (a : Addr) (p : Place) (x : Extent), Inv s → CqRoom s q →
    s.startable q r 0x06 = some e → addrOf (fieldLe e.bytes 8 8) = some a → a.form = (Addr.ofPlace p 0).form →
    s.extentsOf p (Use.isAlloc q) = [x] →
    let count := fieldLe e.bytes 16 4
    let inside := x.first ≤ a.leaf ∧ a.leaf + count ≤ x.first + x.count
    1 ≤ count →
    (∀ i, i < count → s.allocated q p (a.leaf + i) = false → (∀ j, j < i → s.allocated q p (a.leaf + j) = true) → ∃ t,
      exec (.free q r) s = .next t ∧ FrozenBy s t q FC.foreignLeaf (bits (a.advance i).encode 43 12) ∧
      t.tiers.extents = s.tiers.extents) ∧
    (inside → s.leavesBound q a count = true → exec (.free q r) s = .next s) ∧
    (inside → s.leavesBound q a count = false → s.masterMeets q a count = false → ∃ t, exec (.free q r) s = .next t ∧
      Completes s t q e CS.ok 0 0 ∧ t.tiers.jobs.length = s.tiers.jobs.length + 1 ∧
      (∀ i, i < count → (∀ o, t.allocated o p (a.leaf + i) = false) ∧ t.unzeroed p (a.leaf + i) 1 = true) ∧
      (∀ o y n, ¬ (y = p ∧ a.leaf ≤ n ∧ n < a.leaf + count) → t.allocated o y n = s.allocated o y n) ∧
      (∀ y n, t.leaf y n = s.leaf y n))

/-- COPY (R571, R676, R677, R678): between leaves of the quire's own allocations every frame arrives as it was before any
was written, and no other leaf changes; while a source leaf carries a speculation tag the entry waits (R539, R548); a foreign
leaf freezes the quire with cause FOREIGN_LEAF, an execute-only source with cause XO; positions beyond the T4 window
complete it with QUOTA, and nothing is written. -/
def Obligations.CopyMovesFrames : Prop :=
  ∀ (s : State) (q : QNum) (r : RingNum) (e : Entry) (a b : Addr), Inv s → CqRoom s q →
    s.startable q r 0x08 = some e → addrOf (fieldLe e.bytes 8 8) = some a → addrOf (fieldLe e.bytes 16 8) = some b →
    let count := fieldLe e.bytes 24 4
    (∀ pa na pb nb t4, a = Addr.ofPlace pa na → b = Addr.ofPlace pb nb →
      (∀ i, i < count → s.allocated q pa (na + i) = true ∧ s.allocated q pb (nb + i) = true) →
      ((∀ i, i < count → s.isXo pa (na + i) = false) → s.copyTagged q a count = true → ∃ t,
        exec (.copy q r t4) s = .next t ∧ t.tiers = s.tiers ∧ t.out = s.out ∧
        (t.quire q).started = (s.quire q).started ++ [{ entry := e, work := .copyWait }]) ∧
      ((∀ i, i < count → s.isXo pa (na + i) = false) → s.copyTagged q a count = false → ∃ t,
        exec (.copy q r t4) s = .next t ∧ Completes s t q e CS.ok 0 0 ∧ (∀ i, i < count → t.leaf pb (nb + i) = s.leaf pa (na + i)) ∧
        (∀ y n, ¬ (y = pb ∧ nb ≤ n ∧ n < nb + count) → t.leaf y n = s.leaf y n) ∧
        t.tiers.extents = s.tiers.extents ∧ t.nv = s.nv) ∧
      ((∃ i, i < count ∧ s.isXo pa (na + i) = true) → ∃ t, exec (.copy q r t4) s = .next t ∧
        FrozenBy s t q FC.xo 0 ∧ t.tiers.extents = s.tiers.extents)) ∧
    (∀ i t4, s.firstForeign q a count false = some i → ∃ t, exec (.copy q r t4) s = .next t ∧
      FrozenBy s t q FC.foreignLeaf (bits (a.advance i).encode 43 12) ∧ t.tiers.extents = s.tiers.extents) ∧
    (∀ i t4, s.firstForeign q a count false = none → s.firstForeign q b count true = some i → ∃ t,
      exec (.copy q r t4) s = .next t ∧ FrozenBy s t q FC.foreignLeaf (bits (b.advance i).encode 43 12) ∧ t.tiers.extents = s.tiers.extents) ∧
    (∀ pa na t4, a = Addr.ofPlace pa na → b.form = .t4 → (∀ i, i < count → s.allocated q pa (na + i) = true) →
      s.windowLeaves q < b.leaf + count → s.windowLeaves q ≥ b.leaf → ∃ t, exec (.copy q r t4) s = .next t ∧
      Completes s t q e CS.quota 0 (b.leaf + count - s.windowLeaves q) ∧ ∀ y n, t.leaf y n = s.leaf y n)

/-- MIGRATE_HINT (R571, R685, R696, R697, R699) with no hint pending: it completes OK with RESULT 0 once accepted; on a
FLAGS address nothing moves; a UNIFIED leaf in T2 sets out for a free place in the commons when the quire has T1
headroom, one in the commons for T2; without headroom, or for an execute-only leaf, the demotion is skipped and counted; an
execute-only T3 leaf freezes the quire with cause XO. -/
def HintsMigrateClause : Prop :=
  ∀ (s : State) (q : QNum) (r : RingNum) (e : Entry) (a : Addr), Inv s → CqRoom s q →
    s.startable q r 0x07 = some e → addrOf (fieldLe e.bytes 8 8) = some a → (s.quire q).hints = [] →
    let count := fieldLe e.bytes 16 4
    let toTier := fieldLe e.bytes 20 1
    let done (t : State) := Completes s t q e CS.ok 0 0
    let still (t : State) := t.tiers.extents = s.tiers.extents ∧ ∀ y n, t.leaf y n = s.leaf y n
    (∀ p n, a = Addr.ofPlace p n → (∀ i, i < count → s.allocated q p (n + i) = true) → ∃ t,
      exec (.migrateHint q r) s = .next t ∧ done t ∧ still t ∧ (t.quire q).hints = []) ∧
    (∀ u, a.form = .unified → count = 1 → Tab.find (s.quire q).unified a.leaf = some u →
      (∀ src dst, u.home = .t2 src → toTier = 1 → s.usedT1 q < s.rd (Key.qQuota q 1) → s.pickOne .commons = some dst → ∃ t,
        exec (.migrateHint q r) s = .next t ∧ done t ∧
        Tab.find (t.quire q).unified a.leaf = some { u with home := .toCommons src dst } ∧ (t.quire q).hints = []) ∧
      (∀ n, u.home = .commons n → toTier ≠ 1 → s.uPinned q a.leaf = false →
        (∀ dst, s.isXo .commons n = false → s.usedT2 q < s.rd (Key.qQuota q 2) → s.pickOne .t2 = some dst → ∃ t,
          exec (.migrateHint q r) s = .next t ∧ done t ∧
          Tab.find (t.quire q).unified a.leaf = some { u with home := .toT2 n dst }) ∧
        (s.isXo .commons n = true ∨ s.rd (Key.qQuota q 2) ≤ s.usedT2 q → ∃ t, exec (.migrateHint q r) s = .next t ∧
          done t ∧ t.rd (Key.qTmSkipped q) = min (s.rd (Key.qTmSkipped q) + 1) 0xFFFFFFFF ∧
          (t.quire q).unified = (s.quire q).unified ∧ still t)) ∧
      (s.uPinned q a.leaf = true → toTier ≠ 1 → ∃ t, exec (.migrateHint q r) s = .next t ∧ done t ∧
        (t.quire q).unified = (s.quire q).unified ∧ still t)) ∧
    (∀ h le, a.form = .t3 h → s.validHandle q h = some le → 1 ≤ count → a.leaf + count ≤ 32 * (s.lib le).stripes →
      a.leaf + count ≤ 2 ^ 28 →
      (toTier = 1 → (s.lib le).man.xoStripe (a.leaf / 32) = true → ∃ t, exec (.migrateHint q r) s = .next t ∧
        FrozenBy s t q FC.xo 0) ∧
      (toTier ≠ 1 → ∃ t, exec (.migrateHint q r) s = .next t ∧ done t ∧ still t))

/-- A migrating leaf arrives (R694, R679): its frame is at the new home, its mapping switches in the same step, the old
place awaits zeroing, and the move is counted; into a place not yet zeroed it does not arrive. -/
def MigrationArrivesClause : Prop :=
  ∀ (s : State) (q : QNum) (n : Nat) (u : ULeaf), Inv s → Tab.find (s.quire q).unified n = some u →
    (s.quire q).hints = [] → ∀ src dst,
    (u.home = .toCommons src dst →
      (s.unzeroed .commons dst 1 = true → exec (.tmMoveComplete q n) s = .next s) ∧
      (s.unzeroed .commons dst 1 = false → ∃ t, exec (.tmMoveComplete q n) s = .next t ∧
        t.leaf .commons dst = s.leaf .t2 src ∧ Tab.find (t.quire q).unified n = some { u with home := .commons dst } ∧
        t.unzeroed .t2 src 1 = true ∧ t.rd (Key.qTmPromoted q) = min (s.rd (Key.qTmPromoted q) + 1) 0xFFFFFFFF ∧
        (∀ p m, ¬ (p = .commons ∧ m = dst) → t.leaf p m = s.leaf p m) ∧ t.bays = s.bays ∧ t.nv = s.nv ∧ t.out = s.out)) ∧
    (u.home = .toT2 src dst →
      (s.unzeroed .t2 dst 1 = true → exec (.tmMoveComplete q n) s = .next s) ∧
      (s.unzeroed .t2 dst 1 = false → ∃ t, exec (.tmMoveComplete q n) s = .next t ∧
        t.leaf .t2 dst = s.leaf .commons src ∧ Tab.find (t.quire q).unified n = some { u with home := .t2 dst } ∧
        t.unzeroed .commons src 1 = true ∧ t.rd (Key.qTmDemoted q) = min (s.rd (Key.qTmDemoted q) + 1) 0xFFFFFFFF ∧
        (∀ p m, ¬ (p = .t2 ∧ m = dst) → t.leaf p m = s.leaf p m) ∧ t.bays = s.bays ∧ t.nv = s.nv ∧ t.out = s.out))

/-- `HintsMigrateClause`, `MigrationArrivesClause` together. -/
def Obligations.TierMigration : Prop := HintsMigrateClause ∧ MigrationArrivesClause

/-- The zeroing engine ends a job of released leaves (R305, R306, R675): they read as zeros and can be allocated, every
leaf that did not await zeroing keeps its bytes, and the next job is the oldest. -/
def ZeroingEndsClause : Prop :=
  ∀ (s : State) (x : Extent) (rest : List ZeroJob), Inv s → s.coreOn = true →
    s.tiers.jobs = { extents := [x], purpose := .release } :: rest →
    let waits (p : Place) (n : Nat) := p = x.place ∧ x.first ≤ n ∧ n < x.first + x.count ∧ s.unzeroed p n 1 = true
    ∃ t, exec .zeroingJobDone s = .next t ∧ t.tiers.jobs = rest ∧ t.unzeroed x.place x.first x.count = false ∧
      (∀ p n, waits p n → t.leaf p n = []) ∧ (∀ p n, ¬ waits p n → t.leaf p n = s.leaf p n) ∧
      (∀ o p n, t.allocated o p n = s.allocated o p n) ∧ t.quires = s.quires ∧ t.dict = s.dict ∧ t.nv = s.nv ∧ t.out = s.out

/-- `AllocAnswersClause`, `FreeReleasesClause`, `ZeroingEndsClause` together. -/
def Obligations.AllocationsAndZeroing : Prop := AllocAnswersClause ∧ FreeReleasesClause ∧ ZeroingEndsClause

/-- The window's base offset in BAR2 (R705). -/
def windowBase (w : Fin 2) : Nat := if w.val = 0 then 0x02000000 else 0x05000000

/-- BAR2 below the aperture (R546, R705 to R708): load staging reads and takes bytes; a window of no quire answers
Unsupported Request, and counts a write; of a quire's window, an own leaf reads and takes its bytes, an execute-only one
answers Completer Abort, and one in an open scope reads zeros. -/
def Bar2AccessesClause : Prop :=
  ∀ (s : State) (len : Nat) (data : List Byte), Inv s → s.boot ≠ .recovery → s.coreOn = true → s.pm.entry = none →
    s.clk.lpddrPll = true → data.length = len → 1 ≤ len →
    (∀ off : BitVec 28, s.bar2Takes off.toNat len = true → off.toNat + len ≤ 0x02000000 →
      exec (.bar2WindowAccess off false len []) s = .next (s.emit (.barRead (Mem.readN s.tiers.staging off.toNat len))) ∧
      (off.toNat + len ≤ producedAt ∨ producedAt + 4 ≤ off.toNat → ∃ t, exec (.bar2WindowAccess off true len data) s = .next t ∧
        (∀ a, Mem.read t.tiers.staging a = if off.toNat ≤ a ∧ a < off.toNat + len then data.getD (a - off.toNat) 0
          else Mem.read s.tiers.staging a) ∧ t.dict = s.dict ∧ t.nv = s.nv ∧ t.out = s.out)) ∧
    (∀ (w : Fin 2) (i j : Nat), i ≤ 5956 → j + len ≤ 8448 →
      s.bar2Takes (windowBase w + 8448 * i + j) len = true →
      let off := BitVec.ofNat 28 (windowBase w + 8448 * i + j)
      let qv := s.rd (if w.val = 0 then Key.bar2Win0Quire else Key.bar2Win1Quire)
      let av := s.rd (if w.val = 0 then Key.bar2Win0Addr else Key.bar2Win1Addr)
      let discards (t : State) := t.rd Key.bar2Discards = min (s.rd Key.bar2Discards + 1) 0xFFFFFFFF
      (8 ≤ qv → exec (.bar2WindowAccess off false len []) s = .next (s.emit .unsupportedRequest) ∧
        exec (.bar2WindowAccess off true len data) s = .next (s.count Key.bar2Discards)) ∧
      (∀ (q : QNum) a, q.val = qv → addrOf av = some a →
        (∀ p n l, s.resolve q (a.advance i) = .own p n l →
          (s.isXo p n = true →
            (∃ t, exec (.bar2WindowAccess off false len []) s = .next t ∧ t.out = s.out ++ [.completerAbort] ∧
              t.tiers = s.tiers) ∧
            (∃ t, exec (.bar2WindowAccess off true len data) s = .next t ∧ discards t ∧ t.tiers = s.tiers ∧ t.out = s.out)) ∧
          (s.isXo p n = false → s.inOpenScope q (a.advance i).encode = true →
            exec (.bar2WindowAccess off false len []) s = .next (s.emit (.barRead (List.replicate len 0))) ∧
            ∃ t, exec (.bar2WindowAccess off true len data) s = .next t ∧ discards t ∧ t.tiers = s.tiers ∧ t.out = s.out) ∧
          (s.isXo p n = false → s.inOpenScope q (a.advance i).encode = false →
            exec (.bar2WindowAccess off false len []) s = .next (s.emit (.barRead (Mem.readN (s.leaf p n) j len))) ∧
            ∃ t, exec (.bar2WindowAccess off true len data) s = .next t ∧
              (∀ k, k < 8448 → Mem.read (t.leaf p n) k = if j ≤ k ∧ k < j + len then data.getD (k - j) 0
                else Mem.read (s.leaf p n) k) ∧
              (∀ y m, ¬ (y = p ∧ m = n) → t.leaf y m = s.leaf y m) ∧ t.dict = s.dict ∧ t.nv = s.nv ∧ t.out = s.out)) ∧
        (s.resolve q (a.advance i) = .foreign →
          exec (.bar2WindowAccess off false len []) s = .next (s.emit (.barRead (List.replicate len 0))) ∧
          ∃ t, exec (.bar2WindowAccess off true len data) s = .next t ∧ discards t ∧ t.tiers = s.tiers)))

/-- A read of a device ring region and a write to one (R252), and T2_INLINE_ECC (R661, R711) on a two-channel device: the region takes the
bytes; true answers RANGE while a stored profile's T2 quotas sum to more than 977,082 leaves, any other Boolean is stored. -/
def RingBytesAndInlineEccClause : Prop :=
  ∀ s : State, Inv s →
    (∀ (off : BitVec 28) (data : List Byte) (relaxed : Bool), s.bar2Takes off.toNat data.length = true → s.boot = .normal →
      s.coreOn = true → s.pm.entry = none → s.clk.lpddrPll = true → 0x0F000000 ≤ off.toNat → ∃ t,
      exec (.bar2WindowAccess off false data.length []) s =
        .next (s.emit (.barRead (Mem.readN s.tiers.rings (off.toNat - 0x0F000000) data.length))) ∧
      exec (.bar2RingWrite off data relaxed) s = .next t ∧
      (∀ a, Mem.read t.tiers.rings a = if off.toNat - 0x0F000000 ≤ a ∧ a < off.toNat - 0x0F000000 + data.length
        then data.getD (a - (off.toNat - 0x0F000000)) 0 else Mem.read s.tiers.rings a) ∧
      t.dict = s.dict ∧ t.quires = s.quires ∧ t.nv = s.nv ∧ t.out = s.out) ∧
    (∀ (role : Role) (val : List Byte), Serving s → Allowed s role Key.t2InlineEcc val.length →
      s.rd Key.t2Channels = 2 →
      let v := leNat val
      let fits := ∀ p : Fin 4, ((upFrom 1 8).map fun n => s.rd (Key.profQuotaT2 p.val n)).sum ≤ 977082
      (1 < v ∨ (v = 1 ∧ ¬ fits) → exec (.t2InlineEccWrite role val) s = .next (s.answer DS.range)) ∧
      (v ≤ 1 → (v = 1 → fits) → s.paramFull = false → ∃ t, exec (.t2InlineEccWrite role val) s = .next t ∧
        t.rd Key.t2InlineEcc = v ∧ t.rd Key.t2EccActive = s.rd Key.t2EccActive ∧
        t.rd Key.t2QuotaCap = s.rd Key.t2QuotaCap ∧ t.tiers = s.tiers ∧ t.quires = s.quires ∧
        t.out = s.out ++ [.status DS.ok]))

/-- `Bar2AccessesClause`, `RingBytesAndInlineEccClause` together. -/
def Obligations.Bar2Memory : Prop := Bar2AccessesClause ∧ RingBytesAndInlineEccClause

/-! ### Slipcases (15) -/

/-- The load or link of an entry ended with a status (R748, R770): completed, reported, counted, the library as it was. -/
def LoadEnds (s t : State) (q : QNum) (e : Entry) (status result : Nat) : Prop :=
  Completes s t q e status 0 result ∧ t.rd (Key.qLoadReport q) % 256 = status ∧
  (status = CS.ok → t.rd (Key.qLoadsDone q) = min (s.rd (Key.qLoadsDone q) + 1) 0xFFFFFFFF) ∧
  (status ≠ CS.ok → t.rd (Key.qLoadsFailed q) = min (s.rd (Key.qLoadsFailed q) + 1) 0xFFFFFFFF)

/-- No read of the aperture waits for a stripe of the entry. -/
abbrev Unread (s : State) (n : Nat) : Prop := ∀ a ∈ s.weave.aptReads, a.entry ≠ n

/-- LOAD_SLIPCASE from host memory (R732 to R734, R740, R746, R748, R867): in BLANK and RMA it ends with AUTH; else it reads
its source with the quire's PASID (R260), and the checks of steps 1 to 7 apply in their order, each with its status, the
signatures and the key's tag among them; a load that passes them takes the lowest empty entry, LOADING, in the first variant
that fits and finds its rows, and stays started. Stated where fewer than four loads run and no entry holds the same content.
-/
def LoadStepsClause : Prop :=
  ∀ (s : State) (q : QNum) (r : RingNum) (e : Entry) (f : LoadFacts), Inv s → CqRoom s q →
    s.startable q r 0x02 = some e → e.srcKind = 0 → s.loadsRunning < 4 →
    let g := fun i => f.prefixBytes.getD i 0
    let h := parseSlip g
    let m := parseMan g
    let l : Load :=
      { quire := q, entry := e, prefixBytes := f.prefixBytes, running := true, lib := none, staged := false, session := none,
        key := [], chunks := 0, chunkCount := 0, body := [], badChunk := none, turns := [] }
    let form := headerOk g = true ∧ manifestOk g = true ∧ fieldLe e.bytes 16 8 = h.bodyOff + 270336 * h.stripes
    let kind := h.kind = 2 ↔ e.baseHandle ≠ 0
    let signed := s.signatureOk g = true
    let read := s.emit (.dmaRead q (s.rd (Key.qPasid q)) (fieldLe e.bytes 8 8) (fieldLe e.bytes 16 8))
    let fresh := ∀ x, x < 64 → (s.lib x).hash = h.hash → (s.lib x).state ≠ .installed ∧ (s.lib x).state ≠ .loading
    let key := s.contentKey g ≠ none
    let ends (status : Nat) := ∃ t, exec (.loadSlipcase q r f) s = .next t ∧ LoadEnds read t q e status 0 ∧ t.nv.lib = s.nv.lib
    (s.keysLive = false → ∃ t, exec (.loadSlipcase q r f) s = .next t ∧ LoadEnds s t q e CS.auth 0 ∧ t.nv.lib = s.nv.lib) ∧
    (s.keysLive = true → ¬ form → ends CS.auth) ∧
    (s.keysLive = true → form → ¬ kind → ends CS.noHandle) ∧
    (s.keysLive = true → form → kind → ¬ signed → ends CS.auth) ∧
    (s.keysLive = true → form → kind → signed → h.epoch < s.arbSlipcase → ends CS.rollback) ∧
    (s.keysLive = true → form → kind → signed → s.arbSlipcase ≤ h.epoch → fresh →
      (¬ key → ends CS.auth) ∧
      (key → s.loadBase l h m = none → ends CS.noHandle) ∧
      (∀ base, key → s.loadBase l h m = some base →
        ((∀ v, v < m.variants.length → s.fits q m h.stripes v = false) → ends CS.noFit) ∧
        ((∃ v, v < m.variants.length ∧ s.fits q m h.stripes v = true) →
          (s.freeEntry = none ∨ ∀ v, v < m.variants.length → s.fits q m h.stripes v = true → s.rowsFor m v h.stripes = false) →
          ends CS.noSpace) ∧
        (∀ v n, v < m.variants.length → s.fits q m h.stripes v = true → s.rowsFor m v h.stripes = true →
          (∀ u, u < v → s.fits q m h.stripes u = true → s.rowsFor m u h.stripes = false) → s.freeEntry = some n → ∃ t,
          exec (.loadSlipcase q r f) s = .next t ∧ (t.lib n).state = .loading ∧ (t.lib n).variant = v ∧
          (t.lib n).hash = h.hash ∧ (t.lib n).man = m ∧ (t.lib n).stripes = h.stripes ∧
          (t.lib n).base = (if h.kind = 1 then none else some base) ∧ (∀ x, x ≠ n → t.lib x = s.lib x) ∧
          (t.quire q).started = (s.quire q).started ++ [{ entry := e, work := .load }] ∧
          t.nv.loads.length = s.nv.loads.length + 1 ∧ t.dict = s.dict ∧ t.out = read.out)))

/-- The body of a load from host memory ends (R717, R718, R724, R740 to R742, R765, R769): until its stripes can be
programmed nothing happens (R561); then the chunks are decrypted in order, and a wrong tag or content hash ends it with AUTH and its
entry empty; an imposition that fails its checks freezes the quire, with no completion; otherwise the stripes lie in their
rows, the entry is installed with the next GENERATION, its link mask written, and the handle is the RESULT. -/
def LoadsInstallClause : Prop :=
  ∀ (s : State) (q : QNum) (n : Fin 64) (f : BodyFacts) (l : Load), Inv s → CqRoom s q → Lively s q → s.coreOn = true →
    (s.nv.loads.find? fun l => l.quire == q && l.lib == some n.val) = some l → l.staged = false → Unread s n.val →
    let x := s.lib n.val
    let m := l.readBody x f.body
    let done := s.programStripes n.val m.body
    let good := m.badChunk = none ∧ bodyHash m.body x.stripes = x.hash
    let emptied (t : State) := t.lib n.val = { LibEntry.reset with generation := x.generation } ∧
      ∀ k, k ≠ n.val → t.lib k = s.lib k
    (s.allProgrammed n.val l.turns = false → exec (.loadComplete q n f) s = .next s) ∧
    (s.allProgrammed n.val l.turns = true →
      (¬ good → ∃ t, exec (.loadComplete q n f) s = .next t ∧ LoadEnds s t q l.entry CS.auth 0 ∧ emptied t) ∧
      (∀ c, good → done.impsFail n.val = some c → ∃ t, exec (.loadComplete q n f) s = .next t ∧
        FrozenBy s t q FC.format (c.2.2 % 2 ^ 32) ∧ t.rd (Key.qValCode q) = c.2.1 ∧ t.rd (Key.qValImp q) = c.1 ∧ emptied t) ∧
      (good → done.impsFail n.val = none →
        let handle := mkHandle (nextGeneration x.generation) q n.val
        ∃ t, exec (.loadComplete q n f) s = .next t ∧ LoadEnds s t q l.entry CS.ok handle ∧
          (t.lib n.val).state = .installed ∧ (t.lib n.val).generation = nextGeneration x.generation ∧
          (t.lib n.val).rows = (done.lib n.val).rows ∧ t.nv.main = done.nv.main ∧
          t.rd (Key.qHandle q (n.val + 1)) = handle ∧ t.rd (Key.qHandleVariant q (n.val + 1)) = x.variant ∧
          t.rd (Key.libLinkMask (n.val + 1)) = (if x.kind = 1 then 0xFF else 2 ^ q.val) ∧
          (∀ k, k < 64 → k ≠ n.val → (s.lib k).state = .damaged → (s.lib k).hash = x.hash → (t.lib k).removeReq = true)))

/-- `LoadStepsClause`, `LoadsInstallClause` together. -/
def Obligations.SlipcaseLoads : Prop := LoadStepsClause ∧ LoadsInstallClause

/-- LINK_TEXT_BLOCK (R750 to R754, R749): no entry to consider ends it with NO_HANDLE; none installed with IO_ERROR where one
is damaged, else NO_SPACE; the lowest installed one, held, answers its handle; not held, it gives the quire a handle in the
first variant of the same placement that fits, and moves no data; without one it ends with NO_FIT. -/
def LinksHandOutClause : Prop :=
  ∀ (s : State) (q : QNum) (r : RingNum) (e : Entry), Inv s → CqRoom s q → s.startable q r 0x04 = some e →
    let hash := fieldLe e.bytes 8 48
    let may (n : Nat) := n < 64 ∧ (s.lib n).installed = true ∧ (s.lib n).hash = hash ∧ bit (s.rd (Key.libLinkMask (n + 1))) q.val = true
    let ends (status result : Nat) := ∃ t, exec (.linkTextBlock q r) s = .next t ∧ LoadEnds s t q e status result ∧
      t.nv = s.nv ∧ ∀ n, n ≤ 64 → t.rd (Key.qHandle q n) = s.rd (Key.qHandle q n)
    ((∀ n, ¬ may n) → ends CS.noHandle 0) ∧
    ((∀ n, may n → (s.lib n).state ≠ .installed) → (∃ n, may n ∧ (s.lib n).state = .damaged) → ends CS.ioError 0) ∧
    ((∀ n, may n → (s.lib n).state ≠ .installed ∧ (s.lib n).state ≠ .damaged) → (∃ n, may n) → ends CS.noSpace 0) ∧
    (∀ n, may n → (s.lib n).state = .installed → (∀ m, m < n → may m → (s.lib m).state ≠ .installed) →
      let x := s.lib n
      let same (v : Nat) := v < x.man.variants.length ∧ x.man.samePlace x.variant v = true
      (∀ b, x.base = some b → s.rd (Key.qHandle q (b + 1)) = 0 → ends CS.noHandle 0) ∧
      (x.base = none → s.rd (Key.qHandle q (n + 1)) ≠ 0 → ends CS.ok (s.rd (Key.qHandle q (n + 1)))) ∧
      (x.base = none → s.rd (Key.qHandle q (n + 1)) = 0 →
        ((∀ v, same v → s.fits q x.man x.stripes v = false) → ends CS.noFit 0) ∧
        (∀ v, same v → s.fits q x.man x.stripes v = true → (∀ u, u < v → same u → s.fits q x.man x.stripes u = false) →
          ∃ t, exec (.linkTextBlock q r) s = .next t ∧ LoadEnds s t q e CS.ok (mkHandle x.generation q n) ∧ t.nv = s.nv ∧
            t.rd (Key.qHandle q (n + 1)) = mkHandle x.generation q n ∧ t.rd (Key.qHandleVariant q (n + 1)) = v ∧
            ∀ m, m ≤ 64 → m ≠ n + 1 → t.rd (Key.qHandle q m) = s.rd (Key.qHandle q m))))

/-- UNLOAD (R761, R762, R719): a handle the quire does not hold completes with NO_HANDLE; one that a running run binds waits;
else it is released, with the quire's handles to tip-ins on its entry, and their removal requested. -/
def UnloadReleasesClause : Prop :=
  ∀ (s : State) (q : QNum) (r : RingNum) (e : Entry), CqRoom s q → s.startable q r 0x03 = some e → Inv s →
    let h := fieldLe e.bytes 8 4
    (s.validHandle q h = none → ∃ t, exec (.unload q r) s = .next t ∧ Completes s t q e CS.noHandle 0 0 ∧ t.nv = s.nv) ∧
    (∀ x, s.validHandle q h = some x →
      (s.textBound q h = true → exec (.unload q r) s = .next s) ∧
      (s.textBound q h = false → ∃ t, exec (.unload q r) s = .next t ∧ Completes s t q e CS.ok 0 0 ∧
        (∀ y, y < 64 → y = x ∨ ((s.lib y).installed = true ∧ (s.lib y).base = some x ∧ s.rd (Key.qHandle q (y + 1)) ≠ 0) →
          t.rd (Key.qHandle q (y + 1)) = 0 ∧ (t.lib y).removeReq = true) ∧
        (∀ y, y < 64 → y ≠ x → ¬ ((s.lib y).installed = true ∧ (s.lib y).base = some x) →
          t.rd (Key.qHandle q (y + 1)) = s.rd (Key.qHandle q (y + 1)) ∧ t.lib y = s.lib y) ∧
        (∀ p, p ≠ q → ∀ y, y ≤ 64 → t.rd (Key.qHandle p y) = s.rd (Key.qHandle p y))))

/-- `LinksHandOutClause`, `UnloadReleasesClause` together. -/
def Obligations.HandlesComeAndGo : Prop := LinksHandOutClause ∧ UnloadReleasesClause

/-- Removal (R762, R763, R718): LIB_REMOVE of an entry that is held, is a base, or is empty or loading answers STATE; of
another it requests the removal. A requested removal empties the entry once nobody holds it and no installed tip-in names
it; its GENERATION stays. -/
def LibraryRemovalsClause : Prop :=
  ∀ s : State, Inv s →
    (∀ (role : Role) (arg : List Byte), Serving s → Allowed s role Key.libRemove arg.length →
      let n := leNat arg
      let kept := (s.lib n).installed = false ∨ s.holders n ≠ [] ∨ s.tipins n ≠ []
      (63 < n → exec (.libRemove role arg) s = .next (s.answer DS.range)) ∧
      (n ≤ 63 → kept → exec (.libRemove role arg) s = .next (s.answer DS.state)) ∧
      (n ≤ 63 → ¬ kept → s.cmdRunning Key.libRemove = false → ∃ t, exec (.libRemove role arg) s = .next t ∧
        t.lib n = { s.lib n with removeReq := true } ∧ (∀ k, k ≠ n → t.lib k = s.lib k) ∧
        (t.cmd Key.libRemove).state = .done ∧ (t.cmd Key.libRemove).result = DS.ok ∧ t.dict.vals = s.dict.vals ∧
        t.tiers = s.tiers ∧ t.out = s.out ++ [.status DS.ok])) ∧
    (∀ n : Fin 64, s.removable n.val = true → ∃ t, exec (.libraryRemoval n) s = .next t ∧
      t.lib n.val = { LibEntry.reset with generation := (s.lib n.val).generation } ∧
      (∀ k, k ≠ n.val → t.lib k = s.lib k) ∧ t.quires = s.quires ∧ t.bays = s.bays ∧
      (Unread s n.val → t.dict.vals = s.dict.vals ∧ t.out = s.out)) ∧
    (∀ n : Fin 64, s.removable n.val = false → exec (.libraryRemoval n) s = .next s)

/-- Staging (R737, R738, R739): a write of PRODUCED lands in the control page, and CONSUMED follows it for the load that
holds staging; a load whose PRODUCED stops ends with IO_ERROR, its entry empty. -/
def StagingAdvancesClause : Prop :=
  ∀ s : State, Inv s →
    (∀ v : BitVec 32, s.barUp = true → s.up = true → s.coreOn = true → s.pm.entry = none → s.clk.lpddrPll = true → ∃ t,
      exec (.stagingProducedWrite v) s = .next t ∧ Mem.readLe t.tiers.staging producedAt 4 = v.toNat ∧
      (∀ l, (s.nv.loads.find? fun l => l.staged && l.lib.isSome) = some l → l.chunkCount < 2 ^ 32 → l.chunks ≤ v.toNat →
        v.toNat ≤ l.chunkCount → Mem.readLe t.tiers.staging consumedAt 4 = v.toNat ∧
        (t.nv.loads.find? fun l => l.staged && l.lib.isSome).map Load.chunks = some v.toNat) ∧
      ((∀ l ∈ s.nv.loads, l.staged = false) → t.nv = s.nv ∧
        Mem.readLe t.tiers.staging consumedAt 4 = Mem.readLe s.tiers.staging consumedAt 4) ∧
      t.nv.lib = s.nv.lib ∧ t.dict = s.dict ∧ t.quires = s.quires ∧ t.out = s.out) ∧
    (∀ l n, (s.nv.loads.find? fun l =>
        l.staged && l.lib.isSome && l.badChunk.isNone && decide (l.chunks < l.chunkCount)) = some l →
      l.lib = some n → Unread s n → CqRoom s l.quire → Lively s l.quire → ∃ t, exec .stagingTimeout s = .next t ∧
      LoadEnds s t l.quire l.entry CS.ioError 0 ∧ t.lib n = { LibEntry.reset with generation := (s.lib n).generation } ∧
      ∀ k, k ≠ n → t.lib k = s.lib k)

/-- Transfer between two Q19s (R724, R755 to R758, R738): PEER_ACCEPT opens a session with a fresh key pair and answers its number and
its public key; a session expires; PEER_EXPORT of an entry that is not an undamaged text block with PEER_OK, installed
through a class record or a transfer, answers STATE; of such an entry it writes the header and the signed part, and then
each chunk under the transit key, its tag, and PRODUCED. The key pairs come from fresh entropy (log entry 102). -/
def PeerTransfersClause : Prop :=
  ∀ (s : State) (role : Role) (arg : List Byte) (env : Env), Serving s → Inv s →
    (Allowed s role Key.peerAccept arg.length →
      let d := scalarOf env.entropy
      (7 < fieldLe arg 0 1 ∨ fieldLe arg 1 3 ≠ 0 → exec (.peerAccept role arg env) s = .next (s.answer DS.range)) ∧
      (∀ q : QNum, fieldLe arg 0 1 = q.val → fieldLe arg 1 3 = 0 → s.cmdRunning Key.peerAccept = false → ∃ t,
        exec (.peerAccept role arg env) s = .next t ∧
        t.nv.sessions = s.nv.sessions ++ [{ id := s.nv.nextSession, quire := q, rxKey := d }] ∧
        (t.cmd Key.peerAccept).card = natLe 4 s.nv.nextSession ++ publicKey d ∧
        (t.cmd Key.peerAccept).result = DS.ok ∧ t.nv.lib = s.nv.lib ∧ t.out = s.out ++ [.status DS.ok])) ∧
    (∀ n, exec (.peerSessionExpiry n) s =
      .next (s.setNv { s.nv with sessions := s.nv.sessions.filter fun x => x.id != n })) ∧
    (Allowed s role Key.peerExport arg.length →
      let e := fieldLe arg 0 1
      let x := s.lib e
      let a := fieldLe arg 8 8
      let n := ceilDiv (270336 * x.stripes) 4194304
      let d := scalarOf (env.entropy / 2 ^ 64)
      let nonce := env.entropy % 2 ^ 64
      let may := e ≤ 63 ∧ x.installed = true ∧ x.damaged = false ∧ x.kind = 1 ∧ x.peerOk = true ∧ (x.wrap = 2 ∨ x.wrap = 3)
      (¬ may → exec (.peerExport role arg env) s = .next (s.answer DS.state)) ∧
      (may → fieldLe arg 1 3 ≠ 0 → exec (.peerExport role arg env) s = .next (s.answer DS.range)) ∧
      (∀ k, may → fieldLe arg 1 3 = 0 → s.cmdRunning Key.peerExport = false → s.classKeyOf x.classId = some k → ∃ t,
        exec (.peerExport role arg env) s = .next t ∧
        let key := transitKey d (bytesAt arg 16 96) k (fieldLe arg 4 4) x.modelId
        let chunk (i : Nat) := s.transitChunk e key (natLe 8 nonce) i
        t.out = s.out ++ Output.peerWrite a (transferHeader (fieldLe arg 4 4) x.classId (publicKey d) nonce ++ x.signed) ::
          ((List.range n).flatMap fun i => [Output.peerWrite (a + 0x400000 + 0x400000 * (i % 7)) (chunk i).1,
            Output.peerWrite (a + 0x3FF010 + 16 * (i % 7)) (chunk i).2,
            Output.peerWrite (a + 0x3FF000) (natLe 4 (i + 1))]) ++ [.status DS.ok] ∧
        (t.cmd Key.peerExport).card = natLe 4 n ∧ (t.cmd Key.peerExport).result = DS.ok ∧ t.nv.lib = s.nv.lib ∧
        t.nv.otp = s.nv.otp ∧ t.nv.sessions = s.nv.sessions ∧ t.tiers = s.tiers))

/-- `LibraryRemovalsClause`, `StagingAdvancesClause`, `PeerTransfersClause` together. -/
def Obligations.LibraryAndTransfers : Prop := LibraryRemovalsClause ∧ StagingAdvancesClause ∧ PeerTransfersClause

/-! ### Training (16) -/

/-- TRAIN_COMMIT (R777, R778, R779): it waits while the quire runs one, the entry is another's or four loads run; its checks in
their order, each with its status and the library as it was; one that passes holds the lowest empty entry, LOADING, of the
old content's kind, placement and base, and stays started. -/
def TrainChecksClause : Prop :=
  ∀ (s : State) (q : QNum) (r : RingNum) (e : Entry) (a : Addr), Inv s → CqRoom s q → s.startable q r 0x0C = some e →
    addrOf (fieldLe e.bytes 16 8) = some a →
    let h := fieldLe e.bytes 8 4
    let waits := (s.quire q).train.isSome = true ∨ 4 ≤ s.loadsRunning ∨
      ∃ p u, (s.quire p).train = some u ∧ s.validHandle q h = some u.oldEntry
    let ends (status : Nat) := ∃ t, exec (.trainCommit q r) s = .next t ∧ Completes s t q e status 0 0 ∧
      t.rd (Key.qTrainLast q) % 256 = status ∧ t.rd (Key.qTrainFailed q) = min (s.rd (Key.qTrainFailed q) + 1) 0xFFFFFFFF ∧
      t.nv = s.nv
    (waits → exec (.trainCommit q r) s = .next s) ∧
    (¬ waits → s.validHandle q h = none → ends CS.noHandle) ∧
    (∀ old, ¬ waits → s.validHandle q h = some old →
      let x := s.lib old
      let frame := s.libFrame old
      (x.kind ≠ 2 ∨ x.tiles frame = none → ends CS.noHandle) ∧
      (∀ tiles, x.kind = 2 → x.tiles frame = some tiles →
        (x.state = .damaged → ends CS.ioError) ∧
        (x.state ≠ .damaged → x.state ≠ .installed → ends CS.noSpace) ∧
        (x.state = .installed →
          (∀ i, s.masterForeign q a (masterLeaves frame tiles) = some i → ∃ t, exec (.trainCommit q r) s = .next t ∧
            FrozenBy s t q FC.foreignLeaf (bits (a.advance i).encode 43 12)) ∧
          (s.masterForeign q a (masterLeaves frame tiles) = none →
            (s.headT3 q < ceilDiv x.stripes 4 → ends CS.noFit) ∧
            (ceilDiv x.stripes 4 ≤ s.headT3 q →
              (s.freeEntry = none ∨ s.rowsFor x.man x.variant x.stripes = false → ends CS.noSpace) ∧
              (∀ n, s.freeEntry = some n → s.rowsFor x.man x.variant x.stripes = true → ∃ t u,
                exec (.trainCommit q r) s = .next t ∧ (t.quire q).train = some u ∧ u.oldEntry = old ∧ u.newEntry = n ∧
                t.rd (Key.qTrainPhase q) = 2 ∧ (t.lib n).state = .loading ∧ (t.lib n).kind = 2 ∧ (t.lib n).man = x.man ∧
                (t.lib n).variant = x.variant ∧ (t.lib n).base = x.base ∧ (t.lib n).modelId = x.modelId ∧
                (∀ k, k ≠ n → t.lib k = s.lib k) ∧
                (t.quire q).started = (s.quire q).started ++ [{ entry := e, work := .train }] ∧
                (s.holds q n = false → t.usedT3 q = s.usedT3 q + ceilDiv x.stripes 4) ∧ t.tiers = s.tiers ∧
                t.nv.main = s.nv.main ∧ t.out = s.out))))))

/-- A commit's writing ends (R561, R687, R783, R785 to R790): with a group of its placement out of service it ends with
NO_SPACE, with a master leaf uncorrectable in T2 with IO_ERROR and a count, and its entry is empty; before its stripes can be
programmed nothing happens; while a run binds the old handle it waits in phase 3; else in one step the old handle goes, the new one
comes with the old one's variant and is the RESULT, the new entry is installed with the old one's link mask, and the removal of
the old entry is requested. -/
def TrainSwitchesClause : Prop :=
  ∀ (s : State) (q : QNum) (f : TrainFacts) (u : Train), Inv s → (s.quire q).train = some u → s.coreOn = true →
    CqRoom s q → Lively s q → u.oldEntry < 64 → u.newEntry < 64 → u.oldEntry ≠ u.newEntry → Unread s u.newEntry →
    let x := s.lib u.newEntry
    let serves := ∀ g ∈ x.man.groupsNamed x.variant, s.groupInService g = true
    let spoilt := x.rows = [] ∧ f.uncorr = true ∧ s.rdB Key.t2EccActive = true ∧ s.masterInT2 q u = true
    let written := x.rows ≠ [] ∨ s.allProgrammed u.newEntry u.turns = true
    let old := s.rd (Key.qHandle q (u.oldEntry + 1))
    let fails (t : State) (status : Nat) := Completes s t q u.entry status 0 0 ∧
      t.lib u.newEntry = { LibEntry.reset with generation := x.generation } ∧ t.lib u.oldEntry = s.lib u.oldEntry ∧
      (t.quire q).train = none ∧ t.rd (Key.qHandle q (u.oldEntry + 1)) = old
    (¬ serves → ∃ t, exec (.trainSwitch q f) s = .next t ∧ fails t CS.noSpace) ∧
    (serves → spoilt → ∃ t, exec (.trainSwitch q f) s = .next t ∧ fails t CS.ioError ∧
      t.rd Key.t2Uncorr = min (s.rd Key.t2Uncorr + 1) 0xFFFFFFFF) ∧
    (serves → ¬ spoilt → ¬ written → exec (.trainSwitch q f) s = .next s) ∧
    (serves → x.rows ≠ [] → old ≠ 0 → s.textBound q old = true → exec (.trainSwitch q f) s =
      .next (s.wr (Key.qTrainPhase q) 3)) ∧
    (serves → ¬ spoilt → written → (old = 0 ∨ s.textBound q old = false) → ∃ t, exec (.trainSwitch q f) s = .next t ∧
      let new := mkHandle (nextGeneration x.generation) q u.newEntry
      Completes s t q u.entry CS.ok 0 new ∧ t.rd (Key.qHandle q (u.newEntry + 1)) = new ∧
      t.rd (Key.qHandle q (u.oldEntry + 1)) = 0 ∧
      t.rd (Key.qHandleVariant q (u.newEntry + 1)) = s.rd (Key.qHandleVariant q (u.oldEntry + 1)) ∧
      t.rd (Key.libLinkMask (u.newEntry + 1)) = s.rd (Key.libLinkMask (u.oldEntry + 1)) ∧
      (t.lib u.newEntry).state = .installed ∧ (t.lib u.newEntry).generation = nextGeneration x.generation ∧
      (x.rows = [] → (t.lib u.newEntry).hash = bodyHash u.frames x.stripes) ∧
      t.lib u.oldEntry = { s.lib u.oldEntry with removeReq := true } ∧ (t.quire q).train = none ∧
      t.rd (Key.qTrainPhase q) = 0 ∧
      t.rd (Key.qTrainCommits q) = min (s.rd (Key.qTrainCommits q) + 1) 0xFFFFFFFF)

/-- `TrainChecksClause`, `TrainSwitchesClause` together. -/
def Obligations.TrainingCommits : Prop := TrainChecksClause ∧ TrainSwitchesClause

/-! ### The sentinel (17) -/

/-- SENT_ARM and SENT_DISARM (R796, R816 to R821): another quire's mailbox gets ROLE; in a state other than EMPTY and ARMED
both answer STATE; an image that fails a check ends the run with RANGE, the code and layer in the card result, and the bank as
it was; a valid one fills the bank, gives Q7 a handle and arms. Disarming empties the bank and releases the handle. -/
def ArmAndDisarmClause : Prop :=
  ∀ (s : State) (role : Role) (arg : List Byte), Serving s → Inv s → s.rdB Key.sentEnable = false →
    (∀ p : QNum, p.val ≠ 7 →
      exec (.sentArm (.quire p) arg) s = .next ((s.count Key.dictRole).answer DS.role) ∧
      exec (.sentDisarm (.quire p)) s = .next ((s.count Key.dictRole).answer DS.role)) ∧
    (Allowed s role Key.sentArm arg.length →
      let e := fieldLe arg 0 1
      let sec := fieldLe arg 1 1
      let x := s.lib e
      let img := s.sectionImage e sec (8192 * ((x.man.sections[sec]?).map Section.leaves).getD 0)
      (1 < s.sentStateNow → exec (.sentArm role arg) s = .next (s.answer DS.state)) ∧
      (s.sentStateNow ≤ 1 → (63 < e ∨ fieldLe arg 2 2 ≠ 0) → exec (.sentArm role arg) s = .next (s.answer DS.range)) ∧
      (s.sentStateNow ≤ 1 → e ≤ 63 → fieldLe arg 2 2 = 0 → s.cmdRunning Key.sentArm = false →
        (∀ c, s.armFail e sec = some c → ∃ t, exec (.sentArm role arg) s = .next t ∧ (t.cmd Key.sentArm).result = DS.range ∧
          (t.cmd Key.sentArm).card = natLe 1 c.1 ++ natLe 1 c.2 ++ natLe 2 0 ∧ t.sent = s.sent ∧
          t.dict.vals = s.dict.vals ∧ t.out = s.out ++ [.status DS.ok]) ∧
        (s.armFail e sec = none → ∃ t, exec (.sentArm role arg) s = .next t ∧ (t.cmd Key.sentArm).result = DS.ok ∧
          t.rd Key.sentState = 1 ∧ t.rd Key.sentEntry = e ∧ t.rd Key.sentFrameMs = imgLe img 7 1 ∧
          t.rd Key.sentFrameCycles = frameCycles (layersOf img) ∧ t.sent.image = img ∧
          (s.holds 7 e = true → t.rd (Key.qHandle 7 (e + 1)) = s.rd (Key.qHandle 7 (e + 1))) ∧
          (s.holds 7 e = false → t.rd (Key.qHandle 7 (e + 1)) = mkHandle x.generation 7 e) ∧ t.nv.lib = s.nv.lib ∧
          t.quires = s.quires ∧ t.out = s.out ++ [.status DS.ok]))) ∧
    (Allowed s role Key.sentDisarm 0 →
      (1 < s.sentStateNow → exec (.sentDisarm role) s = .next (s.answer DS.state)) ∧
      (s.sentStateNow ≤ 1 → s.cmdRunning Key.sentDisarm = false → ∃ t, exec (.sentDisarm role) s = .next t ∧
        t.rd Key.sentState = 0 ∧ t.rd Key.sentEntry = 0xFF ∧ t.sent.image = [] ∧ t.sent.history = [] ∧
        (s.rd Key.sentEntry < 64 → t.rd (Key.qHandle 7 (s.rd Key.sentEntry + 1)) = 0) ∧
        (t.cmd Key.sentDisarm).result = DS.ok ∧ t.nv = s.nv ∧ t.quires = s.quires ∧ t.out = s.out ++ [.status DS.ok]))

/-- SENT_ENABLE and SENT_WAKE_ASSERTED (R795, R797, R825, R827 to R831): true on EMPTY answers STATE; on ARMED, bound and
free to listen, it starts listening with no history and no counts; false while LISTENING reads STOPPING, and true then goes on
with the history kept. A write of 0x00 releases the balls, one of 0x01 answers RANGE. -/
def ListeningStartsClause : Prop :=
  ∀ (s : State) (role : Role) (val : List Byte), Serving s → Inv s →
    (Allowed s role Key.sentEnable val.length → (leNat val = 1 →
        (s.sentStateNow = 0 → exec (.sentEnableWrite role val) s = .next (s.answer DS.state)) ∧
        (s.rd Key.sentState = 1 → s.sentBound = true → s.sentHeld = false → ∃ t,
          exec (.sentEnableWrite role val) s = .next t ∧ t.rd Key.sentState = 2 ∧ t.rd Key.sentEnable = 1 ∧
          t.sent.history = [] ∧ t.sent.frame = 0 ∧ t.sent.holdCount = 0 ∧ t.sent.sinceDetect = none ∧
          t.sent.image = s.sent.image ∧ t.quires = s.quires ∧ t.out = s.out ++ [.status DS.ok]) ∧
        (s.rd Key.sentState = 1 → s.sentBound = false → ∃ t, exec (.sentEnableWrite role val) s = .next t ∧
          t.rd Key.sentState = 1 ∧ t.rd Key.sentEnable = 1 ∧ t.sent = s.sent) ∧
        (s.rd Key.sentState = 3 → s.sentHeld = false → s.sent.stopAtEnd = false → ∃ t,
          exec (.sentEnableWrite role val) s = .next t ∧ t.rd Key.sentState = 2 ∧ t.sent = s.sent)) ∧
      (leNat val = 0 → s.rd Key.sentState = 2 → ∃ t, exec (.sentEnableWrite role val) s = .next t ∧
        t.rd Key.sentState = 3 ∧ t.rd Key.sentEnable = 0 ∧ t.sent = s.sent)) ∧
    (Allowed s role Key.sentWakeAsserted val.length →
      (leNat val ≠ 0 → exec (.sentWakeAssertedWrite role val) s = .next (s.answer DS.range)) ∧
      (leNat val = 0 → ∃ t, exec (.sentWakeAssertedWrite role val) s = .next t ∧
        t.pins = { s.pins with wakeOut := false, wakeN := false } ∧ t.rd Key.sentWakeAsserted = 0 ∧ t.sent = s.sent ∧
        t.out = s.out ++ [.status DS.ok]))

/-- `ArmAndDisarmClause`, `ListeningStartsClause` together. -/
def Obligations.SentinelControl : Prop := ArmAndDisarmClause ∧ ListeningStartsClause

/-- A frame that ends (R95, R802, R804, R810, R811, R813, R822, R829): channel 0 takes PDM_DATA at the rising edges of PDM_CLK,
channel 1 at the falling ones; a settling frame is skipped and counted, and neither the history nor a count moves; one whose image
reuses a generator freezes Q7 with cause CORRELATION; any other runs the layers, its outputs are the newest of the history, and
the detection that falls due holds the winning class; a frame of a stopping sentinel is its last. -/
def FramesAreJudgedClause : Prop :=
  ∀ (s : State) (rise : Bool) (d : List Bool) (settling : Bool), Inv s → s.pm.entry = none → s.sent.detect = none →
    (s.rd Key.sentState = 2 ∨ s.rd Key.sentState = 3) → s.sent.stopAtEnd = false →
    let x := s.sent
    let after := if s.rd Key.sentState = 3 then 1 else 2
    let up (t : State) (k : Nat) := t.rd k = min (s.rd k + 1) 0xFFFFFFFF
    let pcm (past bits : List Bool) := framePcm s.pdmClk.ratio (16 * s.rd Key.sentFrameMs) past bits
    let features := (featureBank x.image x.biquad (selectPcm (imgLe x.image 8 1) (pcm x.pdm0 (risingBits rise d))
      (pcm x.pdm1 (fallingBits rise d)))).1
    let out := runLayers x.image features x.history
    ((settling || x.settling) = true → ∃ t, exec (.sentFrameEnd rise d settling) s = .next t ∧ up t Key.sentFramesSkipped ∧
      t.sent.history = x.history ∧ t.sent.holdCount = x.holdCount ∧ t.sent.sinceDetect = x.sinceDetect ∧
      t.sent.detect = none ∧ t.sent.frame = x.frame + 1 ∧ t.rd Key.sentState = after ∧ t.quires = s.quires ∧ t.out = s.out) ∧
    (∀ c, settling = false → x.settling = false → correlationFault (layersOf x.image) = some c → Lively s 7 → ∃ t,
      exec (.sentFrameEnd rise d settling) s = .next t ∧ FrozenBy s t 7 FC.correlation 0 ∧ up t Key.sentCorrFaults ∧
      t.sent.history = x.history ∧ t.sent.detect = none) ∧
    (settling = false → x.settling = false → correlationFault (layersOf x.image) = none → ∃ t,
      exec (.sentFrameEnd rise d settling) s = .next t ∧ t.sent.history = (out :: x.history).take 8 ∧ up t Key.sentFrames ∧
      t.sent.frame = x.frame + 1 ∧ t.rd Key.sentState = after ∧ t.quires = s.quires ∧ t.out = s.out ∧
      let w := winner (out.getLastD [])
      let above := toSigned 16 (s.rd Key.sentThresh) ≤ w.2
      let hold := if above then (if x.holdCount ≠ 0 ∧ x.holdClass = w.1 then x.holdCount + 1 else 1) else 0
      let rested := ∀ n, x.sinceDetect = some n → s.rd Key.sentRefract ≤ n
      (1 ≤ hold → s.rd Key.sentHold ≤ hold → rested →
        t.sent.detect = some (w.1, w.2, x.frame) ∧ t.sent.holdCount = 0 ∧ t.sent.sinceDetect = some 0) ∧
      (¬ (1 ≤ hold ∧ s.rd Key.sentHold ≤ hold ∧ rested) → t.sent.detect = none ∧ t.sent.holdCount = hold ∧
        t.sent.sinceDetect = x.sinceDetect.map (· + 1)))

/-- A detection (R78, R824 to R827): SENT_LAST and the count are written, the quick oscillator starts, the core domain stays
as it is, and each output that SENT_WAKE_CFG enables is raised, WAKE_N only while the link is down. -/
def DetectionsWakeClause : Prop :=
  ∀ (s : State) (k : Nat) (score : Int) (frame : Nat), Inv s → s.sent.detect = some (k, score, frame) → s.pm.entry = none →
    let cfg := s.rd Key.sentWakeCfg
    let link := s.rd Key.pcieLinkState
    let msi := bit cfg 3 = true ∧ s.rd Key.sentVector ≠ 0xFF ∧ s.coreOn = true ∧ (link = 2 ∨ link = 3)
    ∃ t, exec .sentDetection s = .next t ∧ t.sent = { s.sent with detect := none } ∧ t.rd Key.sentLastClass = k ∧
      t.rd Key.sentLastScore = ofSigned 16 score ∧ t.rd Key.sentLastFrame = frame % 2 ^ 32 ∧
      t.rd Key.sentLastRtc = s.rtc.toNat ∧ t.rd Key.sentDetections = min (s.rd Key.sentDetections + 1) 0xFFFFFFFF ∧
      t.clk = { s.clk with quickOsc := true } ∧ t.power = s.power ∧ t.quires = s.quires ∧
      t.pins.wakeOut = (s.pins.wakeOut || bit cfg 0) ∧ t.pins.wakeN = (s.pins.wakeN || (bit cfg 2 && link == 0)) ∧
      (bit cfg 1 = true → s.ibiAllowed 1 k = true → t.i3c.ibis = s.i3c.ibis ++ [(1, k)]) ∧
      (bit cfg 1 = false → t.i3c = s.i3c) ∧ (¬ msi → t.out = s.out ∧ t.msix = s.msix) ∧
      (msi → t.out = (s.msixSend (s.rd Key.sentVector)).out) ∧
      (bit cfg 0 = true → t.rd Key.sentWakeAsserted = 1)

/-- `FramesAreJudgedClause`, `DetectionsWakeClause` together. -/
def Obligations.SentinelListens : Prop := FramesAreJudgedClause ∧ DetectionsWakeClause

/-! ### Power and warmth (18) -/

/-- PWR_REQUEST (R793, R855, R856, R860): S-SENT is STATE unless the sentinel listens; an unquiesced quire, a busy press or a
zeroing backlog answers BUSY. An accepted request of a device without UNIFIED leaves ends in the target state with every bay
off, no domain powered but AON and its low oscillator (R60), T1 reading as zeros, T2 and the allocations kept and the pool
empty. -/
def SleepEntryClause : Prop :=
  ∀ (s : State) (role : Role), Serving s → Inv s → Allowed s role Key.pwrRequest 1 →
    let busy := (∃ q, s.quiesced q = false) ∨ s.pressBusy = true ∨ s.tiers.jobs ≠ []
    let asleep (t : State) := (t.cmd Key.pwrRequest).state = .done ∧ (t.cmd Key.pwrRequest).result = DS.ok ∧
      (∀ b, (t.bay b).power = .off) ∧ t.rd Key.pwrVsel = 0 ∧ (∀ b n, t.leaf (.slice b) n = []) ∧
      (∀ n, t.leaf .commons n = [] ∧ t.leaf .t2 n = s.leaf .t2 n) ∧ t.tiers.extents = s.tiers.extents ∧
      t.tiers.pool = [] ∧ t.st = s.st ∧ t.quires = s.quires ∧ t.nv.lib = s.nv.lib ∧
      (∀ d, t.domainOn d = true → d = .aon ∨ d = .lowOsc)
    let free := ¬ busy ∧ s.cmdRunning Key.pwrRequest = false ∧ (∀ q, (s.quire q).unified = []) ∧ s.sent.detect = none
    (s.sentStateNow ≠ 2 → exec (.pwrRequestSSent role) s = .next (s.answer DS.state)) ∧
    (busy → exec (.pwrRequestSRet role) s = .next (s.answer DS.busy) ∧
      (s.sentStateNow = 2 → exec (.pwrRequestSSent role) s = .next (s.answer DS.busy))) ∧
    (free → s.listening = false → ∃ t, exec (.pwrRequestSRet role) s = .next t ∧ t.power = .sRet ∧ asleep t ∧
      t.rd Key.pwrRetEntries = min (s.rd Key.pwrRetEntries + 1) 0xFFFFFFFF ∧ t.rd Key.sentState = s.rd Key.sentState) ∧
    (free → s.rd Key.sentState = 2 → s.sentHeld = false → ∃ t, exec (.pwrRequestSSent role) s = .next t ∧ t.power = .sSent ∧
      asleep t ∧ t.rd Key.pwrSentEntries = min (s.rd Key.pwrSentEntries + 1) 0xFFFFFFFF ∧ t.rd Key.sentState = 2) ∧
    (free → s.rd Key.sentState = 2 → s.sentHeld = false → ∃ t, exec (.pwrRequestSRet role) s = .next t ∧
      t.power = s.power ∧ t.pm.entry = some { toSent := false } ∧ t.sent.stopAtEnd = true ∧
      (t.cmd Key.pwrRequest).state = .running ∧ t.tiers = s.tiers)

/-- Waking (R86, R861, R862): a demand takes a sleeping device to S-IDLE: the core domain and the oscillators run; with
CLKIN_38M4 the PLLs start and the controller wakes, without it the wake is held at the PLLs, counted once; without a demand, or
awake, nothing happens. Stated where no access of BAR2 waits. -/
def SleepExitClause : Prop :=
  ∀ s : State, Inv s → s.pm.held = [] →
    (s.coreOn = true ∨ s.running = false ∨ s.pm.demand = false → exec .wakeFromSleep s = .next s) ∧
    (s.coreOn = false → s.running = true → s.pm.demand = true →
      let woken (t : State) := t.power = .sIdle ∧ t.pm = { s.pm with waking := true, demand := false } ∧
        t.clk.lowOsc = true ∧ t.clk.quickOsc = true ∧ t.bays = s.bays ∧ t.tiers = s.tiers ∧ t.quires = s.quires ∧
        t.st = s.st ∧ t.nv = s.nv
      (s.pins.clkin = true → s.heldInReset = false → (∀ q, (s.quire q).state ≠ .enabled ∧ (s.quire q).state ≠ .running) → ∃ t,
        exec .wakeFromSleep s = .next t ∧ woken t ∧ t.clk.nvPll = true ∧ t.clk.lpddrPll = true ∧
        t.rd Key.clkinWaits = s.rd Key.clkinWaits) ∧
      (s.pins.clkin = false → ∃ t, exec .wakeFromSleep s = .next t ∧ woken t ∧ t.clk.nvPll = s.clk.nvPll ∧
        t.clk.lpddrPll = s.clk.lpddrPll ∧ t.clk.clkWait = true ∧
        t.rd Key.clkinWaits = (if s.clk.clkWait then s.rd Key.clkinWaits else min (s.rd Key.clkinWaits + 1) 0xFFFFFFFF)))

/-- `SleepEntryClause`, `SleepExitClause` together. -/
def Obligations.SleepAndWake : Prop := SleepEntryClause ∧ SleepExitClause

/-- One evaluation (R844, R845, R847, R849, R850, R852): the Sprint window opens over the sustained cap and closes at the
100th low evaluation in a row; the level rises by one, to at most 6, over the cap in force or the skin limit, and falls by
one at the 64th low evaluation in a row; no run, leaf or stitch changes. -/
def GovernorEvaluatesClause : Prop :=
  ∀ (s : State) (p : Nat) (die : Int), Inv s → s.coreOn = true → s.running = true → ∃ t,
    exec (.powerEvaluation p die) s = .next t ∧
    let lv := s.rd Key.thermLevel
    let skin := t.skin
    let lim := toSigned 32 (s.rd (Key.profSkinLimit s.part))
    let high := t.capNow < p ∨ lim * skin.2 < skin.1
    let low := 10 * p ≤ 9 * t.capNow ∧ skin.1 ≤ (lim - 65536) * skin.2
    let sustained := s.rd (Key.profPowerSustained s.part)
    (high → t.rd Key.thermLevel = (if lv < 6 then lv + 1 else lv) ∧ t.pm.lowCount = 0) ∧
    (low → t.pm.lowCount = (if s.pm.lowCount + 1 < 64 then s.pm.lowCount + 1 else 0) ∧
      t.rd Key.thermLevel = (if s.pm.lowCount + 1 < 64 then lv else lv - 1)) ∧
    (¬ high → ¬ low → t.rd Key.thermLevel = lv ∧ t.pm.lowCount = 0) ∧
    (s.rd Key.pwrSprint = 0 → t.rd Key.pwrSprint = if sustained < p ∧ s.rd (Key.profBurstWindow s.part) ≠ 0 then 1 else 0) ∧
    (s.rd Key.pwrSprint = 1 → t.rd Key.pwrSprint = if p ≤ sustained ∧ 100 ≤ s.pm.sprintLow + 1 then 2 else 1) ∧
    (s.rd Key.pwrSprint = 2 → t.rd Key.pwrSprint = 2) ∧
    t.pm.filtDen = s.pm.filtDen * (1024 * max 1 (s.rd Key.thermTauS)) ∧
    t.pm.filtNum = s.pm.filtNum * ((1024 * max 1 (s.rd Key.thermTauS) : Nat) - 1 : Int) + die * s.pm.filtDen ∧
    t.rd Key.pwrEstMw = min p 0xFFFFFFFF ∧ t.rd Key.thermDieMax = ofSigned 32 die ∧
    t.quires = s.quires ∧ t.tiers = s.tiers ∧ t.st = s.st ∧ t.nv = s.nv ∧ t.weave = s.weave ∧ t.power = s.power

/-- Sprint windows close and rest (R845, R846), and the board temperature (R848, R865): outside −40.0 to 125.0 °C it
answers RANGE; a write ends staleness, and a reading that goes stale is counted once. -/
def SprintAndBoardClause : Prop :=
  ∀ s : State, Inv s →
    (exec .sprintClose s = .next (if s.rd Key.pwrSprint = 1 then s.wr Key.pwrSprint 2 else s)) ∧
    (exec .sprintReady s = .next (if s.rd Key.pwrSprint = 2 then s.wr Key.pwrSprint 0 else s)) ∧
    (∀ (role : Role) (val : List Byte), Serving s → Allowed s role Key.thermBoardTemp val.length →
      let v := toSigned 32 (leNat val)
      (v < -40 * 65536 ∨ 125 * 65536 < v → exec (.thermBoardTempWrite role val) s = .next (s.answer DS.range)) ∧
      (-40 * 65536 ≤ v → v ≤ 125 * 65536 → ∃ t, exec (.thermBoardTempWrite role val) s = .next t ∧
        t.rd Key.thermBoardTemp = leNat val ∧ t.pm = { s.pm with boardStale := false } ∧
        t.rd Key.thermBoardStale = s.rd Key.thermBoardStale ∧ t.out = s.out ++ [.status DS.ok])) ∧
    (s.running = true → s.pm.boardStale = false → ∃ t, exec .thermBoardStale s = .next t ∧ t.pm = { s.pm with boardStale := true } ∧
      t.rd Key.thermBoardStale = min (s.rd Key.thermBoardStale + 1) 0xFFFFFFFF ∧ t.quires = s.quires) ∧
    (s.pm.boardStale = true → exec .thermBoardStale s = .next s)

/-- `GovernorEvaluatesClause`, `SprintAndBoardClause` together. -/
def Obligations.PowerGovernor : Prop := GovernorEvaluatesClause ∧ SprintAndBoardClause

/-- The link (R47, R78, R204, R206, R825, R863): L1 on request when the host enabled it, L1.1 and L1.2 from L1, out of L1.2 to
L1, L0 from any of these and, with the core domain powered, from training, with CLKREQ_N asserted, which starts the quick
oscillator, WAKE_N released and the latency reported; a drop gives the PCIE_LINK entries their defaults and releases CLKREQ_N. The
device's power state never changes. -/
def LinkPowerClause : Prop :=
  ∀ s : State, Inv s →
    let l := s.rd Key.pcieLinkState
    (l = linkL0 → s.fn.aspmL1 = true → exec .aspmL1Request s = .next ((s.emit .requestL1).wr Key.pcieLinkState linkL1)) ∧
    (∀ l12, l = linkL1 → ∃ t, exec (.l1SubstateEntry l12) s = .next t ∧
      t.rd Key.pcieLinkState = (if l12 then linkL12 else linkL11) ∧ t.fn = { s.fn with clkreqReleased := true } ∧
      t.power = s.power ∧ t.clk = s.clk ∧ t.out = s.out) ∧
    (l = linkL12 → ∃ t, exec .l12Exit s = .next t ∧ t.rd Key.pcieLinkState = linkL1 ∧ t.clk = { s.clk with quickOsc := true } ∧
      t.fn = { s.fn with clkreqReleased := false } ∧ t.power = s.power ∧ t.out = s.out) ∧
    (∀ (speed : Fin 5) (width : Fin 3), s.coreOn = false → l ≤ linkTrainingCode →
      exec (.linkEntersL0 speed width) s = .next s) ∧
    (∀ (speed : Fin 5) (width : Fin 3), s.barUp = true → speed ≠ 0 → width ≠ 0 → l ≠ linkL0 → l ≠ linkL12 →
      (l ≤ linkTrainingCode → s.coreOn = true) → ∃ t,
      exec (.linkEntersL0 speed width) s = .next t ∧ t.rd Key.pcieLinkState = linkL0 ∧ t.pins.wakeN = false ∧
      t.fn.clkreqReleased = false ∧ t.clk = { s.clk with quickOsc := s.clk.quickOsc || s.fn.clkreqReleased } ∧
      (l ≤ linkTrainingCode → t.rd Key.pcieLinkSpeed = speed.val ∧ t.rd Key.pcieLinkWidth = width.val) ∧
      t.out = s.out ++ [.ltr (if s.coreOn then 100 else 3000)] ∧ t.power = s.power ∧ t.quires = s.quires) ∧
    (∃ t, exec .linkDown s = .next t ∧ t.rd Key.pcieLinkState = 0 ∧ t.rd Key.pcieLinkSpeed = 0 ∧
      t.rd Key.pcieLinkWidth = 0 ∧ t.fn = { s.fn with clkreqReleased := true } ∧ t.power = s.power ∧ t.quires = s.quires ∧ t.tiers = s.tiers ∧ t.out = s.out)

/-- `PerstAndFlrClause`, `ClockLossWakeAndRetestClause`, `LinkPowerClause` together. -/
def Obligations.LinkAndClockEvents : Prop := PerstAndFlrClause ∧ ClockLossWakeAndRetestClause ∧ LinkPowerClause

/-! ### Keys, lifecycle and debug (19) -/

/-- LC_TRANSITION refuses (R135, R868, R869): HOST-P out of BLANK with ROLE; a wrong CONFIRM with RANGE; a pair or condition
that the table does not give with STATE; then a non-zero reserved byte with RANGE. -/
def LifecycleRefusesClause : Prop :=
  ∀ (s : State) (role : Role) (arg : List Byte) (env : Env), Serving s → Inv s →
    Allowed s role Key.lcTransition arg.length →
    let confirm := fieldLe arg 4 4 = 0x4C437019
    let refuses (c : Instr) (fits : Prop) :=
      (¬ confirm → exec c s = .next (s.answer DS.range)) ∧
      (confirm → ¬ fits → exec c s = .next (s.answer DS.state)) ∧
      (confirm → fits → fieldLe arg 1 3 ≠ 0 → exec c s = .next (s.answer DS.range))
    (fieldLe arg 0 1 = 1 → s.lc = lcBlank → isFactory role = false →
      exec (.lcToProvisioned role arg env) s = .next ((s.count Key.dictRole).answer DS.role)) ∧
    (fieldLe arg 0 1 = 1 → s.lc ≠ lcBlank ∨ isFactory role = true →
      refuses (.lcToProvisioned role arg env) (s.lc = lcBlank ∧ s.serial ≠ 0 ∧ s.otpByte 0x55 ≠ 0)) ∧
    (fieldLe arg 0 1 = 2 → refuses (.lcToField role arg) (s.lc = lcProvisioned ∧ s.rootReady = true)) ∧
    (fieldLe arg 0 1 = 3 → refuses (.lcToRma role arg) (s.lc = lcProvisioned ∨ s.lc = lcField))

/-- The end of an RMA scrub (R870, R872 to R874): when its zeroing job, the only one, is done, T1 and T2 read as zeros, the
scrub-complete record is written, LC_STATE reads RMA, the run is OK and the device reset is due. -/
def ScrubEndsClause : Prop :=
  ∀ (s : State) (old : Nat), Inv s → s.coreOn = true → s.tiers.jobs = [{ extents := [], purpose := .scrub }] →
    s.sec.lcHeld = some old → s.lcRow = lcRma → ∃ t, exec .zeroingJobDone s = .next t ∧ t.lc = lcRma ∧ t.scrubNow = 2 ∧
      (∀ p n, t.leaf p n = []) ∧ (t.cmd Key.lcTransition).state = .done ∧ (t.cmd Key.lcTransition).result = DS.ok ∧
      (t.cmd Key.lcTransition).card = natLe 1 old ++ natLe 1 lcRma ∧ t.nv.boot.resetDue = some LR.deviceReset ∧
      t.nv.otp = s.nv.otp ∧ t.quires = s.quires ∧ t.out = s.out

/-- `LifecycleRefusesClause`, `ScrubEndsClause` together. -/
def Obligations.LifecycleTransitions : Prop := LifecycleRefusesClause ∧ ScrubEndsClause

/-- LC_TRANSITION completes (R868 to R872): with a correct CONFIRM, clear reserved bytes and the table's condition, FACTORY
takes BLANK to PROVISIONED, which ORs the drawn seed into DEVICE_SEED and sets LIFECYCLE bit 0; PROVISIONED to FIELD sets bit 1; each
ends OK with both states in its card result and schedules the device reset. To RMA sets bit 2, empties the library, the class keys,
the sessions and the loads, resets every quire, and the run ends, LC_STATE with it, when the scrub's zeroing job does. -/
def LifecycleMovesClause : Prop :=
  ∀ (s : State) (role : Role) (arg : List Byte) (env : Env), Serving s → Inv s →
    Allowed s role Key.lcTransition arg.length → s.sec.lcHeld = none → s.cmdRunning Key.lcTransition = false →
    fieldLe arg 4 4 = 0x4C437019 → fieldLe arg 1 3 = 0 →
    let life (t : State) (n : Nat) := t.otpByte 0x160 = s.otpByte 0x160 ||| n
    let ends (t : State) (old new : Nat) := t.lc = new ∧ t.nv.boot.resetDue = some LR.deviceReset ∧
      (t.cmd Key.lcTransition).card = natLe 1 old ++ natLe 1 new ∧ (t.cmd Key.lcTransition).result = DS.ok ∧
      t.nv.lib = s.nv.lib ∧ t.quires = s.quires ∧ t.tiers = s.tiers ∧ t.out = s.out ++ [.status DS.ok]
    (fieldLe arg 0 1 = 1 → isFactory role = true → s.lc = lcBlank → s.serial ≠ 0 → s.otpByte 0x55 ≠ 0 → ∃ t,
      exec (.lcToProvisioned role arg env) s = .next t ∧ life t 1 ∧ ends t lcBlank lcProvisioned ∧
      ∀ i, i < 4 → Mem.readLe t.nv.otp (0x60 + 8 * i) 8 =
        (Mem.readLe s.nv.otp (0x60 + 8 * i) 8 ||| env.entropy / 2 ^ (64 * i) % 2 ^ 64)) ∧
    (fieldLe arg 0 1 = 2 → s.lc = lcProvisioned → s.rootReady = true → ∃ t, exec (.lcToField role arg) s = .next t ∧
      life t 2 ∧ ends t lcProvisioned lcField) ∧
    (fieldLe arg 0 1 = 3 → s.lc = lcProvisioned ∨ s.lc = lcField → ∃ t, exec (.lcToRma role arg) s = .next t ∧ life t 4 ∧
      t.lc = s.lc ∧ (t.cmd Key.lcTransition).state = .running ∧ (∀ e, e < 64 → (t.lib e).state = .empty) ∧
      t.sec.classKeys = [] ∧ t.nv.sessions = [] ∧ t.nv.loads = [] ∧ (∀ q, (t.quire q).state = .resetting) ∧
      (∃ j ∈ t.tiers.jobs, j.purpose = .scrub) ∧ t.nv.boot.resetDue = s.nv.boot.resetDue)

/-- CLASS_KEY and ARB_ADVANCE (R867, R879, R880, R885): a class key outside PROVISIONED answers STATE, a class of 0 or held in
another sub RANGE, else the sub takes class and key; a thermometer that VALUE does not raise, a VALUE beyond 64 or beyond the
running image's epoch answers RANGE, else the bits up to VALUE are programmed. -/
def ClassKeysAndThermometersClause : Prop :=
  ∀ (s : State) (role : Role), Serving s → Inv s →
    (∀ (sub : Byte) (val : List Byte), 1 ≤ sub.toNat → sub.toNat ≤ 4 → Allowed s role (Key.classKey sub.toNat) val.length →
      let id := fieldLe val 0 4
      let other := ∃ m, 1 ≤ m ∧ m ≤ 4 ∧ m ≠ sub.toNat ∧ s.rd (Key.classId m) = id
      (s.lc ≠ lcProvisioned → exec (.classKeyWrite role sub val) s = .next (s.answer DS.state)) ∧
      (s.lc = lcProvisioned → (id = 0 ∨ other) → exec (.classKeyWrite role sub val) s = .next (s.answer DS.range)) ∧
      (s.lc = lcProvisioned → id ≠ 0 → ¬ other → s.paramFull = false →
        Tab.get s.sec.classKeys 0 sub.toNat ≠ leNat (val.take 36) → ∃ t, exec (.classKeyWrite role sub val) s = .next t ∧
        Tab.get t.sec.classKeys 0 sub.toNat = leNat (val.take 36) ∧ t.rd (Key.classId sub.toNat) = id ∧
        (∀ m, 1 ≤ m → m ≤ 4 → m ≠ sub.toNat → t.rd (Key.classId m) = s.rd (Key.classId m) ∧
          Tab.get t.sec.classKeys 0 m = Tab.get s.sec.classKeys 0 m) ∧ t.nv.otp = s.nv.otp ∧
        t.out = s.out ++ [.status DS.ok])) ∧
    (∀ arg, Allowed s role Key.arbAdvance arg.length → s.cmdRunning Key.arbAdvance = false → fieldLe arg 2 2 = 0 →
      let v := fieldLe arg 1 1
      let live := s.lc = lcProvisioned ∨ s.lc = lcField
      (s.lc = lcBlank ∨ s.lc = lcRma → (fieldLe arg 0 1 = 0 → exec (.arbAdvanceFirmware role arg) s = .next (s.answer DS.state)) ∧
        (fieldLe arg 0 1 = 1 → exec (.arbAdvanceSlipcase role arg) s = .next (s.answer DS.state))) ∧
      (live → fieldLe arg 0 1 = 0 →
        (v ≤ s.arbFirmware ∨ 64 < v ∨ s.runningEpoch < v → exec (.arbAdvanceFirmware role arg) s = .next (s.answer DS.range)) ∧
        (s.arbFirmware < v → v ≤ 64 → v ≤ s.runningEpoch → ∃ t, exec (.arbAdvanceFirmware role arg) s = .next t ∧
          v ≤ t.arbFirmware ∧ t.arbSlipcase = s.arbSlipcase ∧ (t.cmd Key.arbAdvance).result = DS.ok ∧
          t.nv.lib = s.nv.lib ∧ t.out = s.out ++ [.status DS.ok])) ∧
      (live → fieldLe arg 0 1 = 1 →
        (v ≤ s.arbSlipcase ∨ 64 < v → exec (.arbAdvanceSlipcase role arg) s = .next (s.answer DS.range)) ∧
        (s.arbSlipcase < v → v ≤ 64 → ∃ t, exec (.arbAdvanceSlipcase role arg) s = .next t ∧ v ≤ t.arbSlipcase ∧
          t.arbFirmware = s.arbFirmware ∧ (t.cmd Key.arbAdvance).result = DS.ok ∧ t.out = s.out ++ [.status DS.ok])))

/-- DEBUG_UNLOCK (R889 to R892): LOCKED after 8 failed runs, STATE outside RMA; a run whose PUBKEY is the RMA debug key and whose
SIG signs the challenge unlocks, any other ends with RANGE and is counted; either draws a new nonce. -/
def DebugUnlocksClause : Prop :=
  ∀ (s : State) (role : Role) (arg : List Byte) (env : Env), Serving s → Inv s → Allowed s role Key.debugUnlock arg.length →
    s.cmdRunning Key.debugUnlock = false →
    let fails := s.rd Key.debugUnlockFails
    (8 ≤ fails → exec (.debugUnlock role arg env) s = .next (s.answer DS.locked)) ∧
    (fails < 8 → s.lc ≠ lcRma → exec (.debugUnlock role arg env) s = .next (s.answer DS.state)) ∧
    (fails < 8 → s.lc = lcRma → ∃ t, exec (.debugUnlock role arg env) s = .next t ∧ t.sec.nonce = env.entropy % 2 ^ 384 ∧
      (s.debugSigned arg = true → t.debugNow = 2 ∧ t.rd Key.debugUnlockFails = fails ∧ (t.cmd Key.debugUnlock).result = DS.ok) ∧
      (s.debugSigned arg = false → t.debugNow = s.debugNow ∧ t.rd Key.debugUnlockFails = fails + 1 ∧
        (t.cmd Key.debugUnlock).result = DS.range) ∧ t.nv = s.nv ∧ t.quires = s.quires ∧ t.out = s.out ++ [.status DS.ok])

/-- `ClassKeysAndThermometersClause`, `LifecycleMovesClause`, `DebugUnlocksClause` together. -/
def Obligations.KeysAndDebug : Prop := ClassKeysAndThermometersClause ∧ LifecycleMovesClause ∧ DebugUnlocksClause

/-! ### Alerts, the watchdog and time (20) -/

/-- R911, R915, R917 and R919: ALERT_CLEAR clears the causes set in the value; another value than 0x57D0_0019 services nothing
and answers RANGE; a service of the host timer, which a write of WDT_PERIOD_MS is too (R914), counts for its slow tick, and the
watchdog is re-armed unless the firmware timer has expired too. -/
def Obligations.AlertsAndService : Prop :=
  ∀ (s : State) (role : Role) (val : List Byte), Serving s → Inv s →
    let v := leNat val
    (Allowed s role Key.alertClear val.length →
      (2 ^ 14 ≤ v → exec (.alertClear role val) s = .next (s.answer DS.range)) ∧
      (v < 2 ^ 14 → ∃ t, exec (.alertClear role val) s = .next t ∧
        (∀ n, bit (t.rd Key.alertCause) n = (bit (s.rd Key.alertCause) n && !bit v n)) ∧ t.rd Key.alertMask = s.rd Key.alertMask ∧
        t.wdt = s.wdt ∧ t.out = s.out ++ [.status DS.ok])) ∧
    (Allowed s role Key.wdtService val.length →
      (v ≠ 0x57D00019 → exec (.wdtService role val) s = .next (s.answer DS.range)) ∧
      (v = 0x57D00019 → ∃ t, exec (.wdtService role val) s = .next t ∧ t.wdt = { s.wdt with hostExpired := false, hostServed := true } ∧
        t.rd Key.wdtState = (if s.wdt.fwExpired then s.rd Key.wdtState else 0) ∧ t.rd Key.wdtCause = s.rd Key.wdtCause ∧
        t.out = s.out ++ [.status DS.ok])) ∧
    (Allowed s role Key.wdtPeriodMs val.length →
      (v ≠ 0 → (v < 100 ∨ 60000 < v) → exec (.wdtPeriodWrite role val) s = .next (s.answer DS.range)) ∧
      ((v = 0 ∨ (100 ≤ v ∧ v ≤ 60000)) → ∃ t, exec (.wdtPeriodWrite role val) s = .next t ∧ t.rd Key.wdtPeriodMs = v ∧
        t.rd Key.wdtState = s.rd Key.wdtState ∧ t.wdt = { s.wdt with hostServed := true } ∧ t.out = s.out ++ [.status DS.ok]))

/-- The timers expire (R913, R914, R916, R919): the first expiry enters stage 1 with its cause, counts it and sets alert cause
12; a second one changes neither state nor cause; a disabled or paused host timer does not expire, nor a timer serviced in the
same slow tick (R920). A slow tick counts the real-time counter (R251). -/
def Obligations.TimersExpire : Prop :=
  ∀ s : State, Inv s →
    (∀ (c : Instr) (cause : Nat), (c = .hostTimerExpiry ∧ cause = 1 ∧ s.rd Key.wdtPeriodMs ≠ 0 ∧ s.wdtPaused = false ∧
        s.wdt.hostExpired = false ∧ s.wdt.hostServed = false) ∨ (c = .fwTimerExpiry ∧ cause = 2 ∧ s.coreOn = true ∧
        s.wdt.fwExpired = false ∧ s.wdt.fwServed = false) →
      s.running = true →
      (s.rd Key.wdtState = 0 → ∃ t, exec c s = .next t ∧ t.rd Key.wdtState = 1 ∧ t.rd Key.wdtCause = cause ∧
        t.rd Key.wdtStage1Count = min (s.rd Key.wdtStage1Count + 1) 0xFFFFFFFF ∧ bit (t.rd Key.alertCause) 12 = true ∧
        t.quires = s.quires ∧ t.tiers = s.tiers ∧ t.nv = s.nv) ∧
      (s.rd Key.wdtState = 1 → ∃ t, exec c s = .next t ∧ t.dict = s.dict ∧ t.out = s.out ∧ t.i3c = s.i3c ∧
        t.wdt.hostExpired = (s.wdt.hostExpired || decide (cause = 1)) ∧
        t.wdt.fwExpired = (s.wdt.fwExpired || decide (cause = 2)))) ∧
    (s.rd Key.wdtPeriodMs = 0 ∨ s.wdtPaused = true ∨ s.wdt.hostServed = true → exec .hostTimerExpiry s = .next s) ∧
    (s.wdt.fwServed = true → exec .fwTimerExpiry s = .next s) ∧
    (s.pins.aonUp = true → s.running = true → s.coreOn = true → s.pm.entry = none → ∃ t, exec (.slowTick {}) s = .next t ∧
      t.rtc = s.rtc + 1 ∧ t.wdt = { s.wdt with hostServed := false, fwServed := false } ∧ t.quires = s.quires ∧ t.tiers = s.tiers ∧ t.out = s.out ∧
      ∀ k, k ≠ Key.sramCorrected → k ≠ Key.fabricCorrected → k ≠ Key.t2Corrected → t.rd k = s.rd k)

/-! ### The machine as a whole -/

/-- A step takes the command at the front of the queue and runs it on the state with the queue's rest; with an empty queue
the block idles (log entries 4, 10). -/
def Obligations.StepRunsFront : Prop :=
  ∀ (s : State) (c : Instr) (rest : List Instr),
    step { s with pending := c :: rest } = exec c { s with pending := rest } ∧
    step { s with pending := [] } = .next { s with pending := [] }

/-- The state after power-on meets the invariant, and is what R220, R225 and R833 say of a part that has not booted: no
quire enabled, every bay off, the library empty, no stitch configured, the queue empty. -/
def Obligations.ResetMeetsInvariant : Prop :=
  Inv State.reset ∧ State.reset.boot = .waiting ∧ State.reset.coreOn = true ∧
  (∀ q, (State.reset.quire q).state = .disabled) ∧ (∀ b, (State.reset.bay b).power = .off) ∧
  (∀ n, (State.reset.lib n).state = .empty) ∧ (∀ n, State.reset.stitch n = Stitch.reset) ∧
  State.reset.pending = [] ∧ State.reset.out = []

/-- The invariant of the machine: register values, memories and tables stay in their one canonical form in every step,
from every state that has it. -/
def Obligations.StepKeepsInvariant : Prop := ∀ s t : State, Inv s → step s = .next t → Inv t

/-- Each OTP bit can change only from 0 to 1 (R590): no command clears a bit that reads 1, from any
state that meets the invariant. -/
def Obligations.OtpBitsOnlyRise : Prop :=
  ∀ (c : Instr) (s t : State), Inv s → exec c s = .next t →
    ∀ a n, bit (Mem.read s.nv.otp a).toNat n = true → bit (Mem.read t.nv.otp a).toNat n = true

/-- No command touches the queue it stands in, turns one SKU into the other, or takes back what was sent; a step removes the
front command alone (log entries 7, 10). -/
def Obligations.CommandsLeaveQueueAndSku : Prop :=
  ∀ (c : Instr) (s t : State), exec c s = .next t → t.pending = s.pending ∧ t.sku = s.sku ∧ Sends s t

/-- Every command completes from every state, but for two: TESTEN high in BLANK, and a vendor debug instruction that is
open and names no execute-only leaf, of which the manual says no more than that they act (R867, R889). -/
def Obligations.OnlyTwoCommandsStop : Prop :=
  ∀ (c : Instr) (s : State),
    (∃ t, exec c s = .next t) ∨
    (c = .testenHigh ∧ s.lcRow = lcBlank ∧ exec c s = .fault .factoryTestMode) ∨
    (∃ code target, c = .vendorDebugInstruction code target ∧ s.namesXo target = false ∧ assignedIr code = false ∧ s.debugNow ≠ 0 ∧
      exec c s = .refused .vendorDebugUndescribed)

/-- Commands that leave T1, T2, the ring regions, load staging and recovery memory, with their allocations, as they are, in
every state. -/
def keepsTiers : Instr → Bool
  | .powerOn .. | .aonRelease .. | .pgoodInRise .. | .resetNRelease .. | .perstNRelease .. | .tapReset ..
  | .clkinLost .. | .crystalStart .. | .quickOscStop .. | .vselSettleEnd .. | .i3cPrivateRead ..
  | .hdrDdrReadCmd .. | .enec .. | .disec .. | .entas .. | .rstdaa .. | .entdaa .. | .setmwl .. | .setmrl ..
  | .enthdr0 .. | .setdasa .. | .setnewda .. | .getmwl .. | .getmrl .. | .getpid .. | .getbcr .. | .getdcr ..
  | .getstatus .. | .getmxds .. | .getcaps .. | .hotJoinRequest .. | .ibiSend .. | .bar0ReservedWrite ..
  | .switchDrainLimit .. | .switchResume .. | .drainEnd .. | .pressSuspend .. | .pressResume .. | .grant ..
  | .bayGateToOff .. | .bayPllOff .. | .bayRetestDone .. | .stampZero .. | .teBuild .. | .teClear ..
  | .teRescale .. | .lnsMul .. | .lnsAdd .. | .lnsReduce .. | .lnsFromlin .. | .lnsTolin .. | .refFma ..
  | .refCast .. | .refTopk .. | .convPass1 .. | .convPass2 .. | .convStats .. | .specBegin ..
  | .precisionFence .. | .maintSlot .. | .loop .. | .idle .. | .slipEnd .. | .hostWaitTimeout ..
  | .seqWaitTimeout .. | .scrubPass .. | .apertureRead .. | .apertureWrite .. | .peerSessionExpiry ..
  | .powerEvaluation .. | .sprintClose .. | .sprintReady .. | .thermBoardStale .. | .aspmL1Request ..
  | .l12Exit .. | .fwTimerExpiry .. | .hostTimerExpiry .. | .testenLow .. | .hdrExit .. | .linkEntersL0 ..
  | .linkDown .. | .l1SubstateEntry .. | .msixVectorUnmask .. | .configSpaceWrite .. => true
  | _ => false

/-- Commands that leave the weight store, the library, OTP and the boot region as they are, in every state. -/
def keepsStore : Instr → Bool
  | .powerOn .. | .aonRelease .. | .pgoodInRise .. | .resetNRelease .. | .perstNRelease .. | .tapReset ..
  | .clkinLost .. | .crystalStart .. | .quickOscStop .. | .vselSettleEnd .. | .i3cPrivateRead ..
  | .hdrDdrReadCmd .. | .enec .. | .disec .. | .entas .. | .rstdaa .. | .entdaa .. | .setmwl .. | .setmrl ..
  | .enthdr0 .. | .setdasa .. | .setnewda .. | .getmwl .. | .getmrl .. | .getpid .. | .getbcr .. | .getdcr ..
  | .getstatus .. | .getmxds .. | .getcaps .. | .hotJoinRequest .. | .ibiSend .. | .bar0ReservedWrite ..
  | .switchDrainLimit .. | .switchResume .. | .drainEnd .. | .nop .. | .linkTextBlock .. | .alloc .. | .fence ..
  | .grant .. | .bayGateToOff .. | .bayPllOff .. | .stampZero .. | .teBuild .. | .teClear .. | .teRescale ..
  | .lnsMul .. | .lnsAdd .. | .lnsReduce .. | .lnsFromlin .. | .lnsTolin .. | .refFma .. | .refCast ..
  | .refTopk .. | .convPass1 .. | .convPass2 .. | .convStats .. | .specBegin .. | .specCancel ..
  | .precisionFence .. | .maintSlot .. | .loop .. | .idle .. | .endStream .. | .slipEnd .. | .leafArrival ..
  | .comparisonStage .. | .hostWaitTimeout .. | .seqWaitTimeout .. | .apertureRead .. | .apertureWrite ..
  | .bar2RingWrite .. | .tmMoveComplete .. | .powerEvaluation .. | .sprintClose .. | .sprintReady ..
  | .thermBoardStale .. | .aspmL1Request .. | .l12Exit .. | .fwTimerExpiry .. | .hostTimerExpiry ..
  | .testenLow .. | .hdrExit .. | .linkEntersL0 .. | .linkDown .. | .l1SubstateEntry .. | .msixVectorUnmask ..
  | .configSpaceWrite .. => true
  | _ => false

/-- Commands that leave every quire, bay, stitch, the sentinel, the tiers and the weight store as they are, in every state. -/
def keepsUnits : Instr → Bool
  | .powerOn .. | .aonRelease .. | .pgoodInRise .. | .resetNRelease .. | .tapReset .. | .crystalStart ..
  | .quickOscStop .. | .i3cPrivateRead .. | .hdrDdrReadCmd .. | .enec .. | .disec .. | .entas .. | .rstdaa ..
  | .entdaa .. | .setmwl .. | .setmrl .. | .enthdr0 .. | .setdasa .. | .setnewda .. | .getmwl .. | .getmrl ..
  | .getpid .. | .getbcr .. | .getdcr .. | .getstatus .. | .getmxds .. | .getcaps .. | .hotJoinRequest ..
  | .ibiSend .. | .bar0ReservedWrite .. | .bayPllOff .. | .sprintClose .. | .sprintReady ..
  | .thermBoardStale .. | .aspmL1Request .. | .l12Exit .. | .fwTimerExpiry .. | .hostTimerExpiry ..
  | .testenLow .. | .hdrExit .. | .linkEntersL0 .. | .linkDown .. | .l1SubstateEntry .. | .msixVectorUnmask ..
  | .configSpaceWrite .. | .bootStart .. | .pressSuspend .. | .pressResume .. | .scrubPass ..
  | .libraryRemoval .. | .peerSessionExpiry .. => true
  | _ => false

/-- Commands that leave the dictionary as it is: every register, staged copy, result block and held request, in every state. -/
def keepsDictionary : Instr → Bool
  | .powerOn .. | .aonRelease .. | .pgoodInRise .. | .resetNRelease .. | .tapReset .. | .crystalStart ..
  | .quickOscStop .. | .i3cPrivateRead .. | .hdrDdrReadCmd .. | .enec .. | .disec .. | .entas .. | .setmwl ..
  | .setmrl .. | .enthdr0 .. | .getmwl .. | .getmrl .. | .getpid .. | .getbcr .. | .getdcr .. | .getstatus ..
  | .getmxds .. | .getcaps .. | .hotJoinRequest .. | .ibiSend .. | .pressResume .. | .nop .. | .alloc ..
  | .fence .. | .bayPllOff .. | .teBuild .. | .teClear .. | .teRescale .. | .lnsMul .. | .lnsAdd ..
  | .lnsReduce .. | .lnsFromlin .. | .lnsTolin .. | .refFma .. | .refCast .. | .refTopk .. | .convPass1 ..
  | .convPass2 .. | .convStats .. | .specBegin .. | .precisionFence .. | .maintSlot .. | .loop .. | .idle ..
  | .hostWaitTimeout .. | .seqWaitTimeout .. | .peerSessionExpiry .. | .testenLow .. | .hdrExit ..
  | .msixVectorUnmask .. => true
  | _ => false

/-- Frames: what whole families of commands never change, from any state and with any operands. -/
def Obligations.Frames : Prop :=
  ∀ (c : Instr) (s t : State), exec c s = .next t →
    (keepsTiers c = true → t.tiers = s.tiers) ∧
    (keepsStore c = true → t.nv = s.nv) ∧
    (keepsUnits c = true → t.quires = s.quires ∧ t.bays = s.bays ∧ t.st = s.st ∧ t.sent = s.sent) ∧
    (keepsDictionary c = true → t.dict = s.dict)
end

