-- ==== Sys2Proof/Laws/State.lean ====
section
/-! SUPPORT. What each update of the state leaves and what it sets: one lemma per field per update. -/

namespace Sys2Proof.Machine

/-! ### setQuire -/

@[simp] theorem State.setQuire_sku (s : State) (q : QNum) (x : Quire) : (s.setQuire q x).sku = s.sku := rfl
@[simp] theorem State.setQuire_power (s : State) (q : QNum) (x : Quire) : (s.setQuire q x).power = s.power := rfl
@[simp] theorem State.setQuire_boot (s : State) (q : QNum) (x : Quire) : (s.setQuire q x).boot = s.boot := rfl
@[simp] theorem State.setQuire_pins (s : State) (q : QNum) (x : Quire) : (s.setQuire q x).pins = s.pins := rfl
@[simp] theorem State.setQuire_clk (s : State) (q : QNum) (x : Quire) : (s.setQuire q x).clk = s.clk := rfl
@[simp] theorem State.setQuire_jtag (s : State) (q : QNum) (x : Quire) : (s.setQuire q x).jtag = s.jtag := rfl
@[simp] theorem State.setQuire_i3c (s : State) (q : QNum) (x : Quire) : (s.setQuire q x).i3c = s.i3c := rfl
@[simp] theorem State.setQuire_fn (s : State) (q : QNum) (x : Quire) : (s.setQuire q x).fn = s.fn := rfl
@[simp] theorem State.setQuire_msix (s : State) (q : QNum) (x : Quire) : (s.setQuire q x).msix = s.msix := rfl
@[simp] theorem State.setQuire_mboxes (s : State) (q : QNum) (x : Quire) : (s.setQuire q x).mboxes = s.mboxes := rfl
@[simp] theorem State.setQuire_dict (s : State) (q : QNum) (x : Quire) : (s.setQuire q x).dict = s.dict := rfl
@[simp] theorem State.setQuire_part (s : State) (q : QNum) (x : Quire) : (s.setQuire q x).part = s.part := rfl
@[simp] theorem State.setQuire_switch (s : State) (q : QNum) (x : Quire) : (s.setQuire q x).switch = s.switch := rfl
@[simp] theorem State.setQuire_bays (s : State) (q : QNum) (x : Quire) : (s.setQuire q x).bays = s.bays := rfl
@[simp] theorem State.setQuire_st (s : State) (q : QNum) (x : Quire) : (s.setQuire q x).st = s.st := rfl
@[simp] theorem State.setQuire_weave (s : State) (q : QNum) (x : Quire) : (s.setQuire q x).weave = s.weave := rfl
@[simp] theorem State.setQuire_nv (s : State) (q : QNum) (x : Quire) : (s.setQuire q x).nv = s.nv := rfl
@[simp] theorem State.setQuire_tiers (s : State) (q : QNum) (x : Quire) : (s.setQuire q x).tiers = s.tiers := rfl
@[simp] theorem State.setQuire_sent (s : State) (q : QNum) (x : Quire) : (s.setQuire q x).sent = s.sent := rfl
@[simp] theorem State.setQuire_pm (s : State) (q : QNum) (x : Quire) : (s.setQuire q x).pm = s.pm := rfl
@[simp] theorem State.setQuire_wdt (s : State) (q : QNum) (x : Quire) : (s.setQuire q x).wdt = s.wdt := rfl
@[simp] theorem State.setQuire_sec (s : State) (q : QNum) (x : Quire) : (s.setQuire q x).sec = s.sec := rfl
@[simp] theorem State.setQuire_rtc (s : State) (q : QNum) (x : Quire) : (s.setQuire q x).rtc = s.rtc := rfl
@[simp] theorem State.setQuire_freeCtr (s : State) (q : QNum) (x : Quire) : (s.setQuire q x).freeCtr = s.freeCtr := rfl
@[simp] theorem State.setQuire_out (s : State) (q : QNum) (x : Quire) : (s.setQuire q x).out = s.out := rfl
@[simp] theorem State.setQuire_pending (s : State) (q : QNum) (x : Quire) : (s.setQuire q x).pending = s.pending := rfl

/-! ### setBay -/

@[simp] theorem State.setBay_sku (s : State) (b : BayNum) (x : Bay) : (s.setBay b x).sku = s.sku := rfl
@[simp] theorem State.setBay_power (s : State) (b : BayNum) (x : Bay) : (s.setBay b x).power = s.power := rfl
@[simp] theorem State.setBay_boot (s : State) (b : BayNum) (x : Bay) : (s.setBay b x).boot = s.boot := rfl
@[simp] theorem State.setBay_pins (s : State) (b : BayNum) (x : Bay) : (s.setBay b x).pins = s.pins := rfl
@[simp] theorem State.setBay_clk (s : State) (b : BayNum) (x : Bay) : (s.setBay b x).clk = s.clk := rfl
@[simp] theorem State.setBay_jtag (s : State) (b : BayNum) (x : Bay) : (s.setBay b x).jtag = s.jtag := rfl
@[simp] theorem State.setBay_i3c (s : State) (b : BayNum) (x : Bay) : (s.setBay b x).i3c = s.i3c := rfl
@[simp] theorem State.setBay_fn (s : State) (b : BayNum) (x : Bay) : (s.setBay b x).fn = s.fn := rfl
@[simp] theorem State.setBay_msix (s : State) (b : BayNum) (x : Bay) : (s.setBay b x).msix = s.msix := rfl
@[simp] theorem State.setBay_mboxes (s : State) (b : BayNum) (x : Bay) : (s.setBay b x).mboxes = s.mboxes := rfl
@[simp] theorem State.setBay_dict (s : State) (b : BayNum) (x : Bay) : (s.setBay b x).dict = s.dict := rfl
@[simp] theorem State.setBay_part (s : State) (b : BayNum) (x : Bay) : (s.setBay b x).part = s.part := rfl
@[simp] theorem State.setBay_switch (s : State) (b : BayNum) (x : Bay) : (s.setBay b x).switch = s.switch := rfl
@[simp] theorem State.setBay_quires (s : State) (b : BayNum) (x : Bay) : (s.setBay b x).quires = s.quires := rfl
@[simp] theorem State.setBay_st (s : State) (b : BayNum) (x : Bay) : (s.setBay b x).st = s.st := rfl
@[simp] theorem State.setBay_weave (s : State) (b : BayNum) (x : Bay) : (s.setBay b x).weave = s.weave := rfl
@[simp] theorem State.setBay_nv (s : State) (b : BayNum) (x : Bay) : (s.setBay b x).nv = s.nv := rfl
@[simp] theorem State.setBay_tiers (s : State) (b : BayNum) (x : Bay) : (s.setBay b x).tiers = s.tiers := rfl
@[simp] theorem State.setBay_sent (s : State) (b : BayNum) (x : Bay) : (s.setBay b x).sent = s.sent := rfl
@[simp] theorem State.setBay_pm (s : State) (b : BayNum) (x : Bay) : (s.setBay b x).pm = s.pm := rfl
@[simp] theorem State.setBay_wdt (s : State) (b : BayNum) (x : Bay) : (s.setBay b x).wdt = s.wdt := rfl
@[simp] theorem State.setBay_sec (s : State) (b : BayNum) (x : Bay) : (s.setBay b x).sec = s.sec := rfl
@[simp] theorem State.setBay_rtc (s : State) (b : BayNum) (x : Bay) : (s.setBay b x).rtc = s.rtc := rfl
@[simp] theorem State.setBay_freeCtr (s : State) (b : BayNum) (x : Bay) : (s.setBay b x).freeCtr = s.freeCtr := rfl
@[simp] theorem State.setBay_out (s : State) (b : BayNum) (x : Bay) : (s.setBay b x).out = s.out := rfl
@[simp] theorem State.setBay_pending (s : State) (b : BayNum) (x : Bay) : (s.setBay b x).pending = s.pending := rfl

/-! ### setNv -/

@[simp] theorem State.setNv_sku (s : State) (x : Nv) : (s.setNv x).sku = s.sku := rfl
@[simp] theorem State.setNv_power (s : State) (x : Nv) : (s.setNv x).power = s.power := rfl
@[simp] theorem State.setNv_boot (s : State) (x : Nv) : (s.setNv x).boot = s.boot := rfl
@[simp] theorem State.setNv_pins (s : State) (x : Nv) : (s.setNv x).pins = s.pins := rfl
@[simp] theorem State.setNv_clk (s : State) (x : Nv) : (s.setNv x).clk = s.clk := rfl
@[simp] theorem State.setNv_jtag (s : State) (x : Nv) : (s.setNv x).jtag = s.jtag := rfl
@[simp] theorem State.setNv_i3c (s : State) (x : Nv) : (s.setNv x).i3c = s.i3c := rfl
@[simp] theorem State.setNv_fn (s : State) (x : Nv) : (s.setNv x).fn = s.fn := rfl
@[simp] theorem State.setNv_msix (s : State) (x : Nv) : (s.setNv x).msix = s.msix := rfl
@[simp] theorem State.setNv_mboxes (s : State) (x : Nv) : (s.setNv x).mboxes = s.mboxes := rfl
@[simp] theorem State.setNv_dict (s : State) (x : Nv) : (s.setNv x).dict = s.dict := rfl
@[simp] theorem State.setNv_part (s : State) (x : Nv) : (s.setNv x).part = s.part := rfl
@[simp] theorem State.setNv_switch (s : State) (x : Nv) : (s.setNv x).switch = s.switch := rfl
@[simp] theorem State.setNv_quires (s : State) (x : Nv) : (s.setNv x).quires = s.quires := rfl
@[simp] theorem State.setNv_bays (s : State) (x : Nv) : (s.setNv x).bays = s.bays := rfl
@[simp] theorem State.setNv_st (s : State) (x : Nv) : (s.setNv x).st = s.st := rfl
@[simp] theorem State.setNv_weave (s : State) (x : Nv) : (s.setNv x).weave = s.weave := rfl
@[simp] theorem State.setNv_nv (s : State) (x : Nv) : (s.setNv x).nv = x := rfl
@[simp] theorem State.setNv_tiers (s : State) (x : Nv) : (s.setNv x).tiers = s.tiers := rfl
@[simp] theorem State.setNv_sent (s : State) (x : Nv) : (s.setNv x).sent = s.sent := rfl
@[simp] theorem State.setNv_pm (s : State) (x : Nv) : (s.setNv x).pm = s.pm := rfl
@[simp] theorem State.setNv_wdt (s : State) (x : Nv) : (s.setNv x).wdt = s.wdt := rfl
@[simp] theorem State.setNv_sec (s : State) (x : Nv) : (s.setNv x).sec = s.sec := rfl
@[simp] theorem State.setNv_rtc (s : State) (x : Nv) : (s.setNv x).rtc = s.rtc := rfl
@[simp] theorem State.setNv_freeCtr (s : State) (x : Nv) : (s.setNv x).freeCtr = s.freeCtr := rfl
@[simp] theorem State.setNv_out (s : State) (x : Nv) : (s.setNv x).out = s.out := rfl
@[simp] theorem State.setNv_pending (s : State) (x : Nv) : (s.setNv x).pending = s.pending := rfl

/-! ### setTiers -/

@[simp] theorem State.setTiers_sku (s : State) (x : Tiers) : (s.setTiers x).sku = s.sku := rfl
@[simp] theorem State.setTiers_power (s : State) (x : Tiers) : (s.setTiers x).power = s.power := rfl
@[simp] theorem State.setTiers_boot (s : State) (x : Tiers) : (s.setTiers x).boot = s.boot := rfl
@[simp] theorem State.setTiers_pins (s : State) (x : Tiers) : (s.setTiers x).pins = s.pins := rfl
@[simp] theorem State.setTiers_clk (s : State) (x : Tiers) : (s.setTiers x).clk = s.clk := rfl
@[simp] theorem State.setTiers_jtag (s : State) (x : Tiers) : (s.setTiers x).jtag = s.jtag := rfl
@[simp] theorem State.setTiers_i3c (s : State) (x : Tiers) : (s.setTiers x).i3c = s.i3c := rfl
@[simp] theorem State.setTiers_fn (s : State) (x : Tiers) : (s.setTiers x).fn = s.fn := rfl
@[simp] theorem State.setTiers_msix (s : State) (x : Tiers) : (s.setTiers x).msix = s.msix := rfl
@[simp] theorem State.setTiers_mboxes (s : State) (x : Tiers) : (s.setTiers x).mboxes = s.mboxes := rfl
@[simp] theorem State.setTiers_dict (s : State) (x : Tiers) : (s.setTiers x).dict = s.dict := rfl
@[simp] theorem State.setTiers_part (s : State) (x : Tiers) : (s.setTiers x).part = s.part := rfl
@[simp] theorem State.setTiers_switch (s : State) (x : Tiers) : (s.setTiers x).switch = s.switch := rfl
@[simp] theorem State.setTiers_quires (s : State) (x : Tiers) : (s.setTiers x).quires = s.quires := rfl
@[simp] theorem State.setTiers_bays (s : State) (x : Tiers) : (s.setTiers x).bays = s.bays := rfl
@[simp] theorem State.setTiers_st (s : State) (x : Tiers) : (s.setTiers x).st = s.st := rfl
@[simp] theorem State.setTiers_weave (s : State) (x : Tiers) : (s.setTiers x).weave = s.weave := rfl
@[simp] theorem State.setTiers_nv (s : State) (x : Tiers) : (s.setTiers x).nv = s.nv := rfl
@[simp] theorem State.setTiers_tiers (s : State) (x : Tiers) : (s.setTiers x).tiers = x := rfl
@[simp] theorem State.setTiers_sent (s : State) (x : Tiers) : (s.setTiers x).sent = s.sent := rfl
@[simp] theorem State.setTiers_pm (s : State) (x : Tiers) : (s.setTiers x).pm = s.pm := rfl
@[simp] theorem State.setTiers_wdt (s : State) (x : Tiers) : (s.setTiers x).wdt = s.wdt := rfl
@[simp] theorem State.setTiers_sec (s : State) (x : Tiers) : (s.setTiers x).sec = s.sec := rfl
@[simp] theorem State.setTiers_rtc (s : State) (x : Tiers) : (s.setTiers x).rtc = s.rtc := rfl
@[simp] theorem State.setTiers_freeCtr (s : State) (x : Tiers) : (s.setTiers x).freeCtr = s.freeCtr := rfl
@[simp] theorem State.setTiers_out (s : State) (x : Tiers) : (s.setTiers x).out = s.out := rfl
@[simp] theorem State.setTiers_pending (s : State) (x : Tiers) : (s.setTiers x).pending = s.pending := rfl

/-! ### setWeave -/

@[simp] theorem State.setWeave_sku (s : State) (x : Weave) : (s.setWeave x).sku = s.sku := rfl
@[simp] theorem State.setWeave_power (s : State) (x : Weave) : (s.setWeave x).power = s.power := rfl
@[simp] theorem State.setWeave_boot (s : State) (x : Weave) : (s.setWeave x).boot = s.boot := rfl
@[simp] theorem State.setWeave_pins (s : State) (x : Weave) : (s.setWeave x).pins = s.pins := rfl
@[simp] theorem State.setWeave_clk (s : State) (x : Weave) : (s.setWeave x).clk = s.clk := rfl
@[simp] theorem State.setWeave_jtag (s : State) (x : Weave) : (s.setWeave x).jtag = s.jtag := rfl
@[simp] theorem State.setWeave_i3c (s : State) (x : Weave) : (s.setWeave x).i3c = s.i3c := rfl
@[simp] theorem State.setWeave_fn (s : State) (x : Weave) : (s.setWeave x).fn = s.fn := rfl
@[simp] theorem State.setWeave_msix (s : State) (x : Weave) : (s.setWeave x).msix = s.msix := rfl
@[simp] theorem State.setWeave_mboxes (s : State) (x : Weave) : (s.setWeave x).mboxes = s.mboxes := rfl
@[simp] theorem State.setWeave_dict (s : State) (x : Weave) : (s.setWeave x).dict = s.dict := rfl
@[simp] theorem State.setWeave_part (s : State) (x : Weave) : (s.setWeave x).part = s.part := rfl
@[simp] theorem State.setWeave_switch (s : State) (x : Weave) : (s.setWeave x).switch = s.switch := rfl
@[simp] theorem State.setWeave_quires (s : State) (x : Weave) : (s.setWeave x).quires = s.quires := rfl
@[simp] theorem State.setWeave_bays (s : State) (x : Weave) : (s.setWeave x).bays = s.bays := rfl
@[simp] theorem State.setWeave_st (s : State) (x : Weave) : (s.setWeave x).st = s.st := rfl
@[simp] theorem State.setWeave_weave (s : State) (x : Weave) : (s.setWeave x).weave = x := rfl
@[simp] theorem State.setWeave_nv (s : State) (x : Weave) : (s.setWeave x).nv = s.nv := rfl
@[simp] theorem State.setWeave_tiers (s : State) (x : Weave) : (s.setWeave x).tiers = s.tiers := rfl
@[simp] theorem State.setWeave_sent (s : State) (x : Weave) : (s.setWeave x).sent = s.sent := rfl
@[simp] theorem State.setWeave_pm (s : State) (x : Weave) : (s.setWeave x).pm = s.pm := rfl
@[simp] theorem State.setWeave_wdt (s : State) (x : Weave) : (s.setWeave x).wdt = s.wdt := rfl
@[simp] theorem State.setWeave_sec (s : State) (x : Weave) : (s.setWeave x).sec = s.sec := rfl
@[simp] theorem State.setWeave_rtc (s : State) (x : Weave) : (s.setWeave x).rtc = s.rtc := rfl
@[simp] theorem State.setWeave_freeCtr (s : State) (x : Weave) : (s.setWeave x).freeCtr = s.freeCtr := rfl
@[simp] theorem State.setWeave_out (s : State) (x : Weave) : (s.setWeave x).out = s.out := rfl
@[simp] theorem State.setWeave_pending (s : State) (x : Weave) : (s.setWeave x).pending = s.pending := rfl

/-! ### setSent -/

@[simp] theorem State.setSent_sku (s : State) (x : Sentinel) : (s.setSent x).sku = s.sku := rfl
@[simp] theorem State.setSent_power (s : State) (x : Sentinel) : (s.setSent x).power = s.power := rfl
@[simp] theorem State.setSent_boot (s : State) (x : Sentinel) : (s.setSent x).boot = s.boot := rfl
@[simp] theorem State.setSent_pins (s : State) (x : Sentinel) : (s.setSent x).pins = s.pins := rfl
@[simp] theorem State.setSent_clk (s : State) (x : Sentinel) : (s.setSent x).clk = s.clk := rfl
@[simp] theorem State.setSent_jtag (s : State) (x : Sentinel) : (s.setSent x).jtag = s.jtag := rfl
@[simp] theorem State.setSent_i3c (s : State) (x : Sentinel) : (s.setSent x).i3c = s.i3c := rfl
@[simp] theorem State.setSent_fn (s : State) (x : Sentinel) : (s.setSent x).fn = s.fn := rfl
@[simp] theorem State.setSent_msix (s : State) (x : Sentinel) : (s.setSent x).msix = s.msix := rfl
@[simp] theorem State.setSent_mboxes (s : State) (x : Sentinel) : (s.setSent x).mboxes = s.mboxes := rfl
@[simp] theorem State.setSent_dict (s : State) (x : Sentinel) : (s.setSent x).dict = s.dict := rfl
@[simp] theorem State.setSent_part (s : State) (x : Sentinel) : (s.setSent x).part = s.part := rfl
@[simp] theorem State.setSent_switch (s : State) (x : Sentinel) : (s.setSent x).switch = s.switch := rfl
@[simp] theorem State.setSent_quires (s : State) (x : Sentinel) : (s.setSent x).quires = s.quires := rfl
@[simp] theorem State.setSent_bays (s : State) (x : Sentinel) : (s.setSent x).bays = s.bays := rfl
@[simp] theorem State.setSent_st (s : State) (x : Sentinel) : (s.setSent x).st = s.st := rfl
@[simp] theorem State.setSent_weave (s : State) (x : Sentinel) : (s.setSent x).weave = s.weave := rfl
@[simp] theorem State.setSent_nv (s : State) (x : Sentinel) : (s.setSent x).nv = s.nv := rfl
@[simp] theorem State.setSent_tiers (s : State) (x : Sentinel) : (s.setSent x).tiers = s.tiers := rfl
@[simp] theorem State.setSent_sent (s : State) (x : Sentinel) : (s.setSent x).sent = x := rfl
@[simp] theorem State.setSent_pm (s : State) (x : Sentinel) : (s.setSent x).pm = s.pm := rfl
@[simp] theorem State.setSent_wdt (s : State) (x : Sentinel) : (s.setSent x).wdt = s.wdt := rfl
@[simp] theorem State.setSent_sec (s : State) (x : Sentinel) : (s.setSent x).sec = s.sec := rfl
@[simp] theorem State.setSent_rtc (s : State) (x : Sentinel) : (s.setSent x).rtc = s.rtc := rfl
@[simp] theorem State.setSent_freeCtr (s : State) (x : Sentinel) : (s.setSent x).freeCtr = s.freeCtr := rfl
@[simp] theorem State.setSent_out (s : State) (x : Sentinel) : (s.setSent x).out = s.out := rfl
@[simp] theorem State.setSent_pending (s : State) (x : Sentinel) : (s.setSent x).pending = s.pending := rfl

/-! ### setDict -/

@[simp] theorem State.setDict_sku (s : State) (x : Dict) : (s.setDict x).sku = s.sku := rfl
@[simp] theorem State.setDict_power (s : State) (x : Dict) : (s.setDict x).power = s.power := rfl
@[simp] theorem State.setDict_boot (s : State) (x : Dict) : (s.setDict x).boot = s.boot := rfl
@[simp] theorem State.setDict_pins (s : State) (x : Dict) : (s.setDict x).pins = s.pins := rfl
@[simp] theorem State.setDict_clk (s : State) (x : Dict) : (s.setDict x).clk = s.clk := rfl
@[simp] theorem State.setDict_jtag (s : State) (x : Dict) : (s.setDict x).jtag = s.jtag := rfl
@[simp] theorem State.setDict_i3c (s : State) (x : Dict) : (s.setDict x).i3c = s.i3c := rfl
@[simp] theorem State.setDict_fn (s : State) (x : Dict) : (s.setDict x).fn = s.fn := rfl
@[simp] theorem State.setDict_msix (s : State) (x : Dict) : (s.setDict x).msix = s.msix := rfl
@[simp] theorem State.setDict_mboxes (s : State) (x : Dict) : (s.setDict x).mboxes = s.mboxes := rfl
@[simp] theorem State.setDict_dict (s : State) (x : Dict) : (s.setDict x).dict = x := rfl
@[simp] theorem State.setDict_part (s : State) (x : Dict) : (s.setDict x).part = s.part := rfl
@[simp] theorem State.setDict_switch (s : State) (x : Dict) : (s.setDict x).switch = s.switch := rfl
@[simp] theorem State.setDict_quires (s : State) (x : Dict) : (s.setDict x).quires = s.quires := rfl
@[simp] theorem State.setDict_bays (s : State) (x : Dict) : (s.setDict x).bays = s.bays := rfl
@[simp] theorem State.setDict_st (s : State) (x : Dict) : (s.setDict x).st = s.st := rfl
@[simp] theorem State.setDict_weave (s : State) (x : Dict) : (s.setDict x).weave = s.weave := rfl
@[simp] theorem State.setDict_nv (s : State) (x : Dict) : (s.setDict x).nv = s.nv := rfl
@[simp] theorem State.setDict_tiers (s : State) (x : Dict) : (s.setDict x).tiers = s.tiers := rfl
@[simp] theorem State.setDict_sent (s : State) (x : Dict) : (s.setDict x).sent = s.sent := rfl
@[simp] theorem State.setDict_pm (s : State) (x : Dict) : (s.setDict x).pm = s.pm := rfl
@[simp] theorem State.setDict_wdt (s : State) (x : Dict) : (s.setDict x).wdt = s.wdt := rfl
@[simp] theorem State.setDict_sec (s : State) (x : Dict) : (s.setDict x).sec = s.sec := rfl
@[simp] theorem State.setDict_rtc (s : State) (x : Dict) : (s.setDict x).rtc = s.rtc := rfl
@[simp] theorem State.setDict_freeCtr (s : State) (x : Dict) : (s.setDict x).freeCtr = s.freeCtr := rfl
@[simp] theorem State.setDict_out (s : State) (x : Dict) : (s.setDict x).out = s.out := rfl
@[simp] theorem State.setDict_pending (s : State) (x : Dict) : (s.setDict x).pending = s.pending := rfl

/-! ### setI3c -/

@[simp] theorem State.setI3c_sku (s : State) (x : I3c) : (s.setI3c x).sku = s.sku := rfl
@[simp] theorem State.setI3c_power (s : State) (x : I3c) : (s.setI3c x).power = s.power := rfl
@[simp] theorem State.setI3c_boot (s : State) (x : I3c) : (s.setI3c x).boot = s.boot := rfl
@[simp] theorem State.setI3c_pins (s : State) (x : I3c) : (s.setI3c x).pins = s.pins := rfl
@[simp] theorem State.setI3c_clk (s : State) (x : I3c) : (s.setI3c x).clk = s.clk := rfl
@[simp] theorem State.setI3c_jtag (s : State) (x : I3c) : (s.setI3c x).jtag = s.jtag := rfl
@[simp] theorem State.setI3c_i3c (s : State) (x : I3c) : (s.setI3c x).i3c = x := rfl
@[simp] theorem State.setI3c_fn (s : State) (x : I3c) : (s.setI3c x).fn = s.fn := rfl
@[simp] theorem State.setI3c_msix (s : State) (x : I3c) : (s.setI3c x).msix = s.msix := rfl
@[simp] theorem State.setI3c_mboxes (s : State) (x : I3c) : (s.setI3c x).mboxes = s.mboxes := rfl
@[simp] theorem State.setI3c_dict (s : State) (x : I3c) : (s.setI3c x).dict = s.dict := rfl
@[simp] theorem State.setI3c_part (s : State) (x : I3c) : (s.setI3c x).part = s.part := rfl
@[simp] theorem State.setI3c_switch (s : State) (x : I3c) : (s.setI3c x).switch = s.switch := rfl
@[simp] theorem State.setI3c_quires (s : State) (x : I3c) : (s.setI3c x).quires = s.quires := rfl
@[simp] theorem State.setI3c_bays (s : State) (x : I3c) : (s.setI3c x).bays = s.bays := rfl
@[simp] theorem State.setI3c_st (s : State) (x : I3c) : (s.setI3c x).st = s.st := rfl
@[simp] theorem State.setI3c_weave (s : State) (x : I3c) : (s.setI3c x).weave = s.weave := rfl
@[simp] theorem State.setI3c_nv (s : State) (x : I3c) : (s.setI3c x).nv = s.nv := rfl
@[simp] theorem State.setI3c_tiers (s : State) (x : I3c) : (s.setI3c x).tiers = s.tiers := rfl
@[simp] theorem State.setI3c_sent (s : State) (x : I3c) : (s.setI3c x).sent = s.sent := rfl
@[simp] theorem State.setI3c_pm (s : State) (x : I3c) : (s.setI3c x).pm = s.pm := rfl
@[simp] theorem State.setI3c_wdt (s : State) (x : I3c) : (s.setI3c x).wdt = s.wdt := rfl
@[simp] theorem State.setI3c_sec (s : State) (x : I3c) : (s.setI3c x).sec = s.sec := rfl
@[simp] theorem State.setI3c_rtc (s : State) (x : I3c) : (s.setI3c x).rtc = s.rtc := rfl
@[simp] theorem State.setI3c_freeCtr (s : State) (x : I3c) : (s.setI3c x).freeCtr = s.freeCtr := rfl
@[simp] theorem State.setI3c_out (s : State) (x : I3c) : (s.setI3c x).out = s.out := rfl
@[simp] theorem State.setI3c_pending (s : State) (x : I3c) : (s.setI3c x).pending = s.pending := rfl

/-! ### setPm -/

@[simp] theorem State.setPm_sku (s : State) (x : Power) : (s.setPm x).sku = s.sku := rfl
@[simp] theorem State.setPm_power (s : State) (x : Power) : (s.setPm x).power = s.power := rfl
@[simp] theorem State.setPm_boot (s : State) (x : Power) : (s.setPm x).boot = s.boot := rfl
@[simp] theorem State.setPm_pins (s : State) (x : Power) : (s.setPm x).pins = s.pins := rfl
@[simp] theorem State.setPm_clk (s : State) (x : Power) : (s.setPm x).clk = s.clk := rfl
@[simp] theorem State.setPm_jtag (s : State) (x : Power) : (s.setPm x).jtag = s.jtag := rfl
@[simp] theorem State.setPm_i3c (s : State) (x : Power) : (s.setPm x).i3c = s.i3c := rfl
@[simp] theorem State.setPm_fn (s : State) (x : Power) : (s.setPm x).fn = s.fn := rfl
@[simp] theorem State.setPm_msix (s : State) (x : Power) : (s.setPm x).msix = s.msix := rfl
@[simp] theorem State.setPm_mboxes (s : State) (x : Power) : (s.setPm x).mboxes = s.mboxes := rfl
@[simp] theorem State.setPm_dict (s : State) (x : Power) : (s.setPm x).dict = s.dict := rfl
@[simp] theorem State.setPm_part (s : State) (x : Power) : (s.setPm x).part = s.part := rfl
@[simp] theorem State.setPm_switch (s : State) (x : Power) : (s.setPm x).switch = s.switch := rfl
@[simp] theorem State.setPm_quires (s : State) (x : Power) : (s.setPm x).quires = s.quires := rfl
@[simp] theorem State.setPm_bays (s : State) (x : Power) : (s.setPm x).bays = s.bays := rfl
@[simp] theorem State.setPm_st (s : State) (x : Power) : (s.setPm x).st = s.st := rfl
@[simp] theorem State.setPm_weave (s : State) (x : Power) : (s.setPm x).weave = s.weave := rfl
@[simp] theorem State.setPm_nv (s : State) (x : Power) : (s.setPm x).nv = s.nv := rfl
@[simp] theorem State.setPm_tiers (s : State) (x : Power) : (s.setPm x).tiers = s.tiers := rfl
@[simp] theorem State.setPm_sent (s : State) (x : Power) : (s.setPm x).sent = s.sent := rfl
@[simp] theorem State.setPm_pm (s : State) (x : Power) : (s.setPm x).pm = x := rfl
@[simp] theorem State.setPm_wdt (s : State) (x : Power) : (s.setPm x).wdt = s.wdt := rfl
@[simp] theorem State.setPm_sec (s : State) (x : Power) : (s.setPm x).sec = s.sec := rfl
@[simp] theorem State.setPm_rtc (s : State) (x : Power) : (s.setPm x).rtc = s.rtc := rfl
@[simp] theorem State.setPm_freeCtr (s : State) (x : Power) : (s.setPm x).freeCtr = s.freeCtr := rfl
@[simp] theorem State.setPm_out (s : State) (x : Power) : (s.setPm x).out = s.out := rfl
@[simp] theorem State.setPm_pending (s : State) (x : Power) : (s.setPm x).pending = s.pending := rfl

/-! ### setClk -/

@[simp] theorem State.setClk_sku (s : State) (x : Clocks) : (s.setClk x).sku = s.sku := rfl
@[simp] theorem State.setClk_power (s : State) (x : Clocks) : (s.setClk x).power = s.power := rfl
@[simp] theorem State.setClk_boot (s : State) (x : Clocks) : (s.setClk x).boot = s.boot := rfl
@[simp] theorem State.setClk_pins (s : State) (x : Clocks) : (s.setClk x).pins = s.pins := rfl
@[simp] theorem State.setClk_clk (s : State) (x : Clocks) : (s.setClk x).clk = x := rfl
@[simp] theorem State.setClk_jtag (s : State) (x : Clocks) : (s.setClk x).jtag = s.jtag := rfl
@[simp] theorem State.setClk_i3c (s : State) (x : Clocks) : (s.setClk x).i3c = s.i3c := rfl
@[simp] theorem State.setClk_fn (s : State) (x : Clocks) : (s.setClk x).fn = s.fn := rfl
@[simp] theorem State.setClk_msix (s : State) (x : Clocks) : (s.setClk x).msix = s.msix := rfl
@[simp] theorem State.setClk_mboxes (s : State) (x : Clocks) : (s.setClk x).mboxes = s.mboxes := rfl
@[simp] theorem State.setClk_dict (s : State) (x : Clocks) : (s.setClk x).dict = s.dict := rfl
@[simp] theorem State.setClk_part (s : State) (x : Clocks) : (s.setClk x).part = s.part := rfl
@[simp] theorem State.setClk_switch (s : State) (x : Clocks) : (s.setClk x).switch = s.switch := rfl
@[simp] theorem State.setClk_quires (s : State) (x : Clocks) : (s.setClk x).quires = s.quires := rfl
@[simp] theorem State.setClk_bays (s : State) (x : Clocks) : (s.setClk x).bays = s.bays := rfl
@[simp] theorem State.setClk_st (s : State) (x : Clocks) : (s.setClk x).st = s.st := rfl
@[simp] theorem State.setClk_weave (s : State) (x : Clocks) : (s.setClk x).weave = s.weave := rfl
@[simp] theorem State.setClk_nv (s : State) (x : Clocks) : (s.setClk x).nv = s.nv := rfl
@[simp] theorem State.setClk_tiers (s : State) (x : Clocks) : (s.setClk x).tiers = s.tiers := rfl
@[simp] theorem State.setClk_sent (s : State) (x : Clocks) : (s.setClk x).sent = s.sent := rfl
@[simp] theorem State.setClk_pm (s : State) (x : Clocks) : (s.setClk x).pm = s.pm := rfl
@[simp] theorem State.setClk_wdt (s : State) (x : Clocks) : (s.setClk x).wdt = s.wdt := rfl
@[simp] theorem State.setClk_sec (s : State) (x : Clocks) : (s.setClk x).sec = s.sec := rfl
@[simp] theorem State.setClk_rtc (s : State) (x : Clocks) : (s.setClk x).rtc = s.rtc := rfl
@[simp] theorem State.setClk_freeCtr (s : State) (x : Clocks) : (s.setClk x).freeCtr = s.freeCtr := rfl
@[simp] theorem State.setClk_out (s : State) (x : Clocks) : (s.setClk x).out = s.out := rfl
@[simp] theorem State.setClk_pending (s : State) (x : Clocks) : (s.setClk x).pending = s.pending := rfl

/-! ### setSt -/

@[simp] theorem State.setSt_sku (s : State) (x : StitchUnit) : (s.setSt x).sku = s.sku := rfl
@[simp] theorem State.setSt_power (s : State) (x : StitchUnit) : (s.setSt x).power = s.power := rfl
@[simp] theorem State.setSt_boot (s : State) (x : StitchUnit) : (s.setSt x).boot = s.boot := rfl
@[simp] theorem State.setSt_pins (s : State) (x : StitchUnit) : (s.setSt x).pins = s.pins := rfl
@[simp] theorem State.setSt_clk (s : State) (x : StitchUnit) : (s.setSt x).clk = s.clk := rfl
@[simp] theorem State.setSt_jtag (s : State) (x : StitchUnit) : (s.setSt x).jtag = s.jtag := rfl
@[simp] theorem State.setSt_i3c (s : State) (x : StitchUnit) : (s.setSt x).i3c = s.i3c := rfl
@[simp] theorem State.setSt_fn (s : State) (x : StitchUnit) : (s.setSt x).fn = s.fn := rfl
@[simp] theorem State.setSt_msix (s : State) (x : StitchUnit) : (s.setSt x).msix = s.msix := rfl
@[simp] theorem State.setSt_mboxes (s : State) (x : StitchUnit) : (s.setSt x).mboxes = s.mboxes := rfl
@[simp] theorem State.setSt_dict (s : State) (x : StitchUnit) : (s.setSt x).dict = s.dict := rfl
@[simp] theorem State.setSt_part (s : State) (x : StitchUnit) : (s.setSt x).part = s.part := rfl
@[simp] theorem State.setSt_switch (s : State) (x : StitchUnit) : (s.setSt x).switch = s.switch := rfl
@[simp] theorem State.setSt_quires (s : State) (x : StitchUnit) : (s.setSt x).quires = s.quires := rfl
@[simp] theorem State.setSt_bays (s : State) (x : StitchUnit) : (s.setSt x).bays = s.bays := rfl
@[simp] theorem State.setSt_st (s : State) (x : StitchUnit) : (s.setSt x).st = x := rfl
@[simp] theorem State.setSt_weave (s : State) (x : StitchUnit) : (s.setSt x).weave = s.weave := rfl
@[simp] theorem State.setSt_nv (s : State) (x : StitchUnit) : (s.setSt x).nv = s.nv := rfl
@[simp] theorem State.setSt_tiers (s : State) (x : StitchUnit) : (s.setSt x).tiers = s.tiers := rfl
@[simp] theorem State.setSt_sent (s : State) (x : StitchUnit) : (s.setSt x).sent = s.sent := rfl
@[simp] theorem State.setSt_pm (s : State) (x : StitchUnit) : (s.setSt x).pm = s.pm := rfl
@[simp] theorem State.setSt_wdt (s : State) (x : StitchUnit) : (s.setSt x).wdt = s.wdt := rfl
@[simp] theorem State.setSt_sec (s : State) (x : StitchUnit) : (s.setSt x).sec = s.sec := rfl
@[simp] theorem State.setSt_rtc (s : State) (x : StitchUnit) : (s.setSt x).rtc = s.rtc := rfl
@[simp] theorem State.setSt_freeCtr (s : State) (x : StitchUnit) : (s.setSt x).freeCtr = s.freeCtr := rfl
@[simp] theorem State.setSt_out (s : State) (x : StitchUnit) : (s.setSt x).out = s.out := rfl
@[simp] theorem State.setSt_pending (s : State) (x : StitchUnit) : (s.setSt x).pending = s.pending := rfl

/-! ### setPins -/

@[simp] theorem State.setPins_sku (s : State) (x : Pins) : (s.setPins x).sku = s.sku := rfl
@[simp] theorem State.setPins_power (s : State) (x : Pins) : (s.setPins x).power = s.power := rfl
@[simp] theorem State.setPins_boot (s : State) (x : Pins) : (s.setPins x).boot = s.boot := rfl
@[simp] theorem State.setPins_pins (s : State) (x : Pins) : (s.setPins x).pins = x := rfl
@[simp] theorem State.setPins_clk (s : State) (x : Pins) : (s.setPins x).clk = s.clk := rfl
@[simp] theorem State.setPins_jtag (s : State) (x : Pins) : (s.setPins x).jtag = s.jtag := rfl
@[simp] theorem State.setPins_i3c (s : State) (x : Pins) : (s.setPins x).i3c = s.i3c := rfl
@[simp] theorem State.setPins_fn (s : State) (x : Pins) : (s.setPins x).fn = s.fn := rfl
@[simp] theorem State.setPins_msix (s : State) (x : Pins) : (s.setPins x).msix = s.msix := rfl
@[simp] theorem State.setPins_mboxes (s : State) (x : Pins) : (s.setPins x).mboxes = s.mboxes := rfl
@[simp] theorem State.setPins_dict (s : State) (x : Pins) : (s.setPins x).dict = s.dict := rfl
@[simp] theorem State.setPins_part (s : State) (x : Pins) : (s.setPins x).part = s.part := rfl
@[simp] theorem State.setPins_switch (s : State) (x : Pins) : (s.setPins x).switch = s.switch := rfl
@[simp] theorem State.setPins_quires (s : State) (x : Pins) : (s.setPins x).quires = s.quires := rfl
@[simp] theorem State.setPins_bays (s : State) (x : Pins) : (s.setPins x).bays = s.bays := rfl
@[simp] theorem State.setPins_st (s : State) (x : Pins) : (s.setPins x).st = s.st := rfl
@[simp] theorem State.setPins_weave (s : State) (x : Pins) : (s.setPins x).weave = s.weave := rfl
@[simp] theorem State.setPins_nv (s : State) (x : Pins) : (s.setPins x).nv = s.nv := rfl
@[simp] theorem State.setPins_tiers (s : State) (x : Pins) : (s.setPins x).tiers = s.tiers := rfl
@[simp] theorem State.setPins_sent (s : State) (x : Pins) : (s.setPins x).sent = s.sent := rfl
@[simp] theorem State.setPins_pm (s : State) (x : Pins) : (s.setPins x).pm = s.pm := rfl
@[simp] theorem State.setPins_wdt (s : State) (x : Pins) : (s.setPins x).wdt = s.wdt := rfl
@[simp] theorem State.setPins_sec (s : State) (x : Pins) : (s.setPins x).sec = s.sec := rfl
@[simp] theorem State.setPins_rtc (s : State) (x : Pins) : (s.setPins x).rtc = s.rtc := rfl
@[simp] theorem State.setPins_freeCtr (s : State) (x : Pins) : (s.setPins x).freeCtr = s.freeCtr := rfl
@[simp] theorem State.setPins_out (s : State) (x : Pins) : (s.setPins x).out = s.out := rfl
@[simp] theorem State.setPins_pending (s : State) (x : Pins) : (s.setPins x).pending = s.pending := rfl

/-! ### emit -/

@[simp] theorem State.emit_sku (s : State) (o : Output) : (s.emit o).sku = s.sku := rfl
@[simp] theorem State.emit_power (s : State) (o : Output) : (s.emit o).power = s.power := rfl
@[simp] theorem State.emit_boot (s : State) (o : Output) : (s.emit o).boot = s.boot := rfl
@[simp] theorem State.emit_pins (s : State) (o : Output) : (s.emit o).pins = s.pins := rfl
@[simp] theorem State.emit_clk (s : State) (o : Output) : (s.emit o).clk = s.clk := rfl
@[simp] theorem State.emit_jtag (s : State) (o : Output) : (s.emit o).jtag = s.jtag := rfl
@[simp] theorem State.emit_i3c (s : State) (o : Output) : (s.emit o).i3c = s.i3c := rfl
@[simp] theorem State.emit_fn (s : State) (o : Output) : (s.emit o).fn = s.fn := rfl
@[simp] theorem State.emit_msix (s : State) (o : Output) : (s.emit o).msix = s.msix := rfl
@[simp] theorem State.emit_mboxes (s : State) (o : Output) : (s.emit o).mboxes = s.mboxes := rfl
@[simp] theorem State.emit_dict (s : State) (o : Output) : (s.emit o).dict = s.dict := rfl
@[simp] theorem State.emit_part (s : State) (o : Output) : (s.emit o).part = s.part := rfl
@[simp] theorem State.emit_switch (s : State) (o : Output) : (s.emit o).switch = s.switch := rfl
@[simp] theorem State.emit_quires (s : State) (o : Output) : (s.emit o).quires = s.quires := rfl
@[simp] theorem State.emit_bays (s : State) (o : Output) : (s.emit o).bays = s.bays := rfl
@[simp] theorem State.emit_st (s : State) (o : Output) : (s.emit o).st = s.st := rfl
@[simp] theorem State.emit_weave (s : State) (o : Output) : (s.emit o).weave = s.weave := rfl
@[simp] theorem State.emit_nv (s : State) (o : Output) : (s.emit o).nv = s.nv := rfl
@[simp] theorem State.emit_tiers (s : State) (o : Output) : (s.emit o).tiers = s.tiers := rfl
@[simp] theorem State.emit_sent (s : State) (o : Output) : (s.emit o).sent = s.sent := rfl
@[simp] theorem State.emit_pm (s : State) (o : Output) : (s.emit o).pm = s.pm := rfl
@[simp] theorem State.emit_wdt (s : State) (o : Output) : (s.emit o).wdt = s.wdt := rfl
@[simp] theorem State.emit_sec (s : State) (o : Output) : (s.emit o).sec = s.sec := rfl
@[simp] theorem State.emit_rtc (s : State) (o : Output) : (s.emit o).rtc = s.rtc := rfl
@[simp] theorem State.emit_freeCtr (s : State) (o : Output) : (s.emit o).freeCtr = s.freeCtr := rfl
@[simp] theorem State.emit_out (s : State) (o : Output) : (s.emit o).out = s.out ++ [o] := rfl
@[simp] theorem State.emit_pending (s : State) (o : Output) : (s.emit o).pending = s.pending := rfl

/-! ### wr -/

@[simp] theorem State.wr_sku (s : State) (k v : Nat) : (s.wr k v).sku = s.sku := rfl
@[simp] theorem State.wr_power (s : State) (k v : Nat) : (s.wr k v).power = s.power := rfl
@[simp] theorem State.wr_boot (s : State) (k v : Nat) : (s.wr k v).boot = s.boot := rfl
@[simp] theorem State.wr_pins (s : State) (k v : Nat) : (s.wr k v).pins = s.pins := rfl
@[simp] theorem State.wr_clk (s : State) (k v : Nat) : (s.wr k v).clk = s.clk := rfl
@[simp] theorem State.wr_jtag (s : State) (k v : Nat) : (s.wr k v).jtag = s.jtag := rfl
@[simp] theorem State.wr_i3c (s : State) (k v : Nat) : (s.wr k v).i3c = s.i3c := rfl
@[simp] theorem State.wr_fn (s : State) (k v : Nat) : (s.wr k v).fn = s.fn := rfl
@[simp] theorem State.wr_msix (s : State) (k v : Nat) : (s.wr k v).msix = s.msix := rfl
@[simp] theorem State.wr_mboxes (s : State) (k v : Nat) : (s.wr k v).mboxes = s.mboxes := rfl
@[simp] theorem State.wr_part (s : State) (k v : Nat) : (s.wr k v).part = s.part := rfl
@[simp] theorem State.wr_switch (s : State) (k v : Nat) : (s.wr k v).switch = s.switch := rfl
@[simp] theorem State.wr_quires (s : State) (k v : Nat) : (s.wr k v).quires = s.quires := rfl
@[simp] theorem State.wr_bays (s : State) (k v : Nat) : (s.wr k v).bays = s.bays := rfl
@[simp] theorem State.wr_st (s : State) (k v : Nat) : (s.wr k v).st = s.st := rfl
@[simp] theorem State.wr_weave (s : State) (k v : Nat) : (s.wr k v).weave = s.weave := rfl
@[simp] theorem State.wr_nv (s : State) (k v : Nat) : (s.wr k v).nv = s.nv := rfl
@[simp] theorem State.wr_tiers (s : State) (k v : Nat) : (s.wr k v).tiers = s.tiers := rfl
@[simp] theorem State.wr_sent (s : State) (k v : Nat) : (s.wr k v).sent = s.sent := rfl
@[simp] theorem State.wr_pm (s : State) (k v : Nat) : (s.wr k v).pm = s.pm := rfl
@[simp] theorem State.wr_wdt (s : State) (k v : Nat) : (s.wr k v).wdt = s.wdt := rfl
@[simp] theorem State.wr_sec (s : State) (k v : Nat) : (s.wr k v).sec = s.sec := rfl
@[simp] theorem State.wr_rtc (s : State) (k v : Nat) : (s.wr k v).rtc = s.rtc := rfl
@[simp] theorem State.wr_freeCtr (s : State) (k v : Nat) : (s.wr k v).freeCtr = s.freeCtr := rfl
@[simp] theorem State.wr_out (s : State) (k v : Nat) : (s.wr k v).out = s.out := rfl
@[simp] theorem State.wr_pending (s : State) (k v : Nat) : (s.wr k v).pending = s.pending := rfl

/-! ### count -/

@[simp] theorem State.count_sku (s : State) (k n : Nat) : (s.count k n).sku = s.sku := rfl
@[simp] theorem State.count_power (s : State) (k n : Nat) : (s.count k n).power = s.power := rfl
@[simp] theorem State.count_boot (s : State) (k n : Nat) : (s.count k n).boot = s.boot := rfl
@[simp] theorem State.count_pins (s : State) (k n : Nat) : (s.count k n).pins = s.pins := rfl
@[simp] theorem State.count_clk (s : State) (k n : Nat) : (s.count k n).clk = s.clk := rfl
@[simp] theorem State.count_jtag (s : State) (k n : Nat) : (s.count k n).jtag = s.jtag := rfl
@[simp] theorem State.count_i3c (s : State) (k n : Nat) : (s.count k n).i3c = s.i3c := rfl
@[simp] theorem State.count_fn (s : State) (k n : Nat) : (s.count k n).fn = s.fn := rfl
@[simp] theorem State.count_msix (s : State) (k n : Nat) : (s.count k n).msix = s.msix := rfl
@[simp] theorem State.count_mboxes (s : State) (k n : Nat) : (s.count k n).mboxes = s.mboxes := rfl
@[simp] theorem State.count_part (s : State) (k n : Nat) : (s.count k n).part = s.part := rfl
@[simp] theorem State.count_switch (s : State) (k n : Nat) : (s.count k n).switch = s.switch := rfl
@[simp] theorem State.count_quires (s : State) (k n : Nat) : (s.count k n).quires = s.quires := rfl
@[simp] theorem State.count_bays (s : State) (k n : Nat) : (s.count k n).bays = s.bays := rfl
@[simp] theorem State.count_st (s : State) (k n : Nat) : (s.count k n).st = s.st := rfl
@[simp] theorem State.count_weave (s : State) (k n : Nat) : (s.count k n).weave = s.weave := rfl
@[simp] theorem State.count_nv (s : State) (k n : Nat) : (s.count k n).nv = s.nv := rfl
@[simp] theorem State.count_tiers (s : State) (k n : Nat) : (s.count k n).tiers = s.tiers := rfl
@[simp] theorem State.count_sent (s : State) (k n : Nat) : (s.count k n).sent = s.sent := rfl
@[simp] theorem State.count_pm (s : State) (k n : Nat) : (s.count k n).pm = s.pm := rfl
@[simp] theorem State.count_wdt (s : State) (k n : Nat) : (s.count k n).wdt = s.wdt := rfl
@[simp] theorem State.count_sec (s : State) (k n : Nat) : (s.count k n).sec = s.sec := rfl
@[simp] theorem State.count_rtc (s : State) (k n : Nat) : (s.count k n).rtc = s.rtc := rfl
@[simp] theorem State.count_freeCtr (s : State) (k n : Nat) : (s.count k n).freeCtr = s.freeCtr := rfl
@[simp] theorem State.count_out (s : State) (k n : Nat) : (s.count k n).out = s.out := rfl
@[simp] theorem State.count_pending (s : State) (k n : Nat) : (s.count k n).pending = s.pending := rfl

/-! ### uncount -/

@[simp] theorem State.uncount_sku (s : State) (k n : Nat) : (s.uncount k n).sku = s.sku := rfl
@[simp] theorem State.uncount_power (s : State) (k n : Nat) : (s.uncount k n).power = s.power := rfl
@[simp] theorem State.uncount_boot (s : State) (k n : Nat) : (s.uncount k n).boot = s.boot := rfl
@[simp] theorem State.uncount_pins (s : State) (k n : Nat) : (s.uncount k n).pins = s.pins := rfl
@[simp] theorem State.uncount_clk (s : State) (k n : Nat) : (s.uncount k n).clk = s.clk := rfl
@[simp] theorem State.uncount_jtag (s : State) (k n : Nat) : (s.uncount k n).jtag = s.jtag := rfl
@[simp] theorem State.uncount_i3c (s : State) (k n : Nat) : (s.uncount k n).i3c = s.i3c := rfl
@[simp] theorem State.uncount_fn (s : State) (k n : Nat) : (s.uncount k n).fn = s.fn := rfl
@[simp] theorem State.uncount_msix (s : State) (k n : Nat) : (s.uncount k n).msix = s.msix := rfl
@[simp] theorem State.uncount_mboxes (s : State) (k n : Nat) : (s.uncount k n).mboxes = s.mboxes := rfl
@[simp] theorem State.uncount_part (s : State) (k n : Nat) : (s.uncount k n).part = s.part := rfl
@[simp] theorem State.uncount_switch (s : State) (k n : Nat) : (s.uncount k n).switch = s.switch := rfl
@[simp] theorem State.uncount_quires (s : State) (k n : Nat) : (s.uncount k n).quires = s.quires := rfl
@[simp] theorem State.uncount_bays (s : State) (k n : Nat) : (s.uncount k n).bays = s.bays := rfl
@[simp] theorem State.uncount_st (s : State) (k n : Nat) : (s.uncount k n).st = s.st := rfl
@[simp] theorem State.uncount_weave (s : State) (k n : Nat) : (s.uncount k n).weave = s.weave := rfl
@[simp] theorem State.uncount_nv (s : State) (k n : Nat) : (s.uncount k n).nv = s.nv := rfl
@[simp] theorem State.uncount_tiers (s : State) (k n : Nat) : (s.uncount k n).tiers = s.tiers := rfl
@[simp] theorem State.uncount_sent (s : State) (k n : Nat) : (s.uncount k n).sent = s.sent := rfl
@[simp] theorem State.uncount_pm (s : State) (k n : Nat) : (s.uncount k n).pm = s.pm := rfl
@[simp] theorem State.uncount_wdt (s : State) (k n : Nat) : (s.uncount k n).wdt = s.wdt := rfl
@[simp] theorem State.uncount_sec (s : State) (k n : Nat) : (s.uncount k n).sec = s.sec := rfl
@[simp] theorem State.uncount_rtc (s : State) (k n : Nat) : (s.uncount k n).rtc = s.rtc := rfl
@[simp] theorem State.uncount_freeCtr (s : State) (k n : Nat) : (s.uncount k n).freeCtr = s.freeCtr := rfl
@[simp] theorem State.uncount_out (s : State) (k n : Nat) : (s.uncount k n).out = s.out := rfl
@[simp] theorem State.uncount_pending (s : State) (k n : Nat) : (s.uncount k n).pending = s.pending := rfl

/-! ### answer -/

@[simp] theorem State.answer_sku (s : State) (st : Nat) : (s.answer st).sku = s.sku := rfl
@[simp] theorem State.answer_power (s : State) (st : Nat) : (s.answer st).power = s.power := rfl
@[simp] theorem State.answer_boot (s : State) (st : Nat) : (s.answer st).boot = s.boot := rfl
@[simp] theorem State.answer_pins (s : State) (st : Nat) : (s.answer st).pins = s.pins := rfl
@[simp] theorem State.answer_clk (s : State) (st : Nat) : (s.answer st).clk = s.clk := rfl
@[simp] theorem State.answer_jtag (s : State) (st : Nat) : (s.answer st).jtag = s.jtag := rfl
@[simp] theorem State.answer_i3c (s : State) (st : Nat) : (s.answer st).i3c = s.i3c := rfl
@[simp] theorem State.answer_fn (s : State) (st : Nat) : (s.answer st).fn = s.fn := rfl
@[simp] theorem State.answer_msix (s : State) (st : Nat) : (s.answer st).msix = s.msix := rfl
@[simp] theorem State.answer_mboxes (s : State) (st : Nat) : (s.answer st).mboxes = s.mboxes := rfl
@[simp] theorem State.answer_dict (s : State) (st : Nat) : (s.answer st).dict = s.dict := rfl
@[simp] theorem State.answer_part (s : State) (st : Nat) : (s.answer st).part = s.part := rfl
@[simp] theorem State.answer_switch (s : State) (st : Nat) : (s.answer st).switch = s.switch := rfl
@[simp] theorem State.answer_quires (s : State) (st : Nat) : (s.answer st).quires = s.quires := rfl
@[simp] theorem State.answer_bays (s : State) (st : Nat) : (s.answer st).bays = s.bays := rfl
@[simp] theorem State.answer_st (s : State) (st : Nat) : (s.answer st).st = s.st := rfl
@[simp] theorem State.answer_weave (s : State) (st : Nat) : (s.answer st).weave = s.weave := rfl
@[simp] theorem State.answer_nv (s : State) (st : Nat) : (s.answer st).nv = s.nv := rfl
@[simp] theorem State.answer_tiers (s : State) (st : Nat) : (s.answer st).tiers = s.tiers := rfl
@[simp] theorem State.answer_sent (s : State) (st : Nat) : (s.answer st).sent = s.sent := rfl
@[simp] theorem State.answer_pm (s : State) (st : Nat) : (s.answer st).pm = s.pm := rfl
@[simp] theorem State.answer_wdt (s : State) (st : Nat) : (s.answer st).wdt = s.wdt := rfl
@[simp] theorem State.answer_sec (s : State) (st : Nat) : (s.answer st).sec = s.sec := rfl
@[simp] theorem State.answer_rtc (s : State) (st : Nat) : (s.answer st).rtc = s.rtc := rfl
@[simp] theorem State.answer_freeCtr (s : State) (st : Nat) : (s.answer st).freeCtr = s.freeCtr := rfl
@[simp] theorem State.answer_out (s : State) (st : Nat) : (s.answer st).out = s.out ++ [.status st] := rfl
@[simp] theorem State.answer_pending (s : State) (st : Nat) : (s.answer st).pending = s.pending := rfl

/-! ### modQuire -/

@[simp] theorem State.modQuire_sku (s : State) (q : QNum) (g : Quire → Quire) : (s.modQuire q g).sku = s.sku := rfl
@[simp] theorem State.modQuire_power (s : State) (q : QNum) (g : Quire → Quire) : (s.modQuire q g).power = s.power := rfl
@[simp] theorem State.modQuire_boot (s : State) (q : QNum) (g : Quire → Quire) : (s.modQuire q g).boot = s.boot := rfl
@[simp] theorem State.modQuire_pins (s : State) (q : QNum) (g : Quire → Quire) : (s.modQuire q g).pins = s.pins := rfl
@[simp] theorem State.modQuire_clk (s : State) (q : QNum) (g : Quire → Quire) : (s.modQuire q g).clk = s.clk := rfl
@[simp] theorem State.modQuire_jtag (s : State) (q : QNum) (g : Quire → Quire) : (s.modQuire q g).jtag = s.jtag := rfl
@[simp] theorem State.modQuire_i3c (s : State) (q : QNum) (g : Quire → Quire) : (s.modQuire q g).i3c = s.i3c := rfl
@[simp] theorem State.modQuire_fn (s : State) (q : QNum) (g : Quire → Quire) : (s.modQuire q g).fn = s.fn := rfl
@[simp] theorem State.modQuire_msix (s : State) (q : QNum) (g : Quire → Quire) : (s.modQuire q g).msix = s.msix := rfl
@[simp] theorem State.modQuire_mboxes (s : State) (q : QNum) (g : Quire → Quire) : (s.modQuire q g).mboxes = s.mboxes := rfl
@[simp] theorem State.modQuire_dict (s : State) (q : QNum) (g : Quire → Quire) : (s.modQuire q g).dict = s.dict := rfl
@[simp] theorem State.modQuire_part (s : State) (q : QNum) (g : Quire → Quire) : (s.modQuire q g).part = s.part := rfl
@[simp] theorem State.modQuire_switch (s : State) (q : QNum) (g : Quire → Quire) : (s.modQuire q g).switch = s.switch := rfl
@[simp] theorem State.modQuire_bays (s : State) (q : QNum) (g : Quire → Quire) : (s.modQuire q g).bays = s.bays := rfl
@[simp] theorem State.modQuire_st (s : State) (q : QNum) (g : Quire → Quire) : (s.modQuire q g).st = s.st := rfl
@[simp] theorem State.modQuire_weave (s : State) (q : QNum) (g : Quire → Quire) : (s.modQuire q g).weave = s.weave := rfl
@[simp] theorem State.modQuire_nv (s : State) (q : QNum) (g : Quire → Quire) : (s.modQuire q g).nv = s.nv := rfl
@[simp] theorem State.modQuire_tiers (s : State) (q : QNum) (g : Quire → Quire) : (s.modQuire q g).tiers = s.tiers := rfl
@[simp] theorem State.modQuire_sent (s : State) (q : QNum) (g : Quire → Quire) : (s.modQuire q g).sent = s.sent := rfl
@[simp] theorem State.modQuire_pm (s : State) (q : QNum) (g : Quire → Quire) : (s.modQuire q g).pm = s.pm := rfl
@[simp] theorem State.modQuire_wdt (s : State) (q : QNum) (g : Quire → Quire) : (s.modQuire q g).wdt = s.wdt := rfl
@[simp] theorem State.modQuire_sec (s : State) (q : QNum) (g : Quire → Quire) : (s.modQuire q g).sec = s.sec := rfl
@[simp] theorem State.modQuire_rtc (s : State) (q : QNum) (g : Quire → Quire) : (s.modQuire q g).rtc = s.rtc := rfl
@[simp] theorem State.modQuire_freeCtr (s : State) (q : QNum) (g : Quire → Quire) : (s.modQuire q g).freeCtr = s.freeCtr := rfl
@[simp] theorem State.modQuire_out (s : State) (q : QNum) (g : Quire → Quire) : (s.modQuire q g).out = s.out := rfl
@[simp] theorem State.modQuire_pending (s : State) (q : QNum) (g : Quire → Quire) : (s.modQuire q g).pending = s.pending := rfl

/-! ### modBay -/

@[simp] theorem State.modBay_sku (s : State) (b : BayNum) (g : Bay → Bay) : (s.modBay b g).sku = s.sku := rfl
@[simp] theorem State.modBay_power (s : State) (b : BayNum) (g : Bay → Bay) : (s.modBay b g).power = s.power := rfl
@[simp] theorem State.modBay_boot (s : State) (b : BayNum) (g : Bay → Bay) : (s.modBay b g).boot = s.boot := rfl
@[simp] theorem State.modBay_pins (s : State) (b : BayNum) (g : Bay → Bay) : (s.modBay b g).pins = s.pins := rfl
@[simp] theorem State.modBay_clk (s : State) (b : BayNum) (g : Bay → Bay) : (s.modBay b g).clk = s.clk := rfl
@[simp] theorem State.modBay_jtag (s : State) (b : BayNum) (g : Bay → Bay) : (s.modBay b g).jtag = s.jtag := rfl
@[simp] theorem State.modBay_i3c (s : State) (b : BayNum) (g : Bay → Bay) : (s.modBay b g).i3c = s.i3c := rfl
@[simp] theorem State.modBay_fn (s : State) (b : BayNum) (g : Bay → Bay) : (s.modBay b g).fn = s.fn := rfl
@[simp] theorem State.modBay_msix (s : State) (b : BayNum) (g : Bay → Bay) : (s.modBay b g).msix = s.msix := rfl
@[simp] theorem State.modBay_mboxes (s : State) (b : BayNum) (g : Bay → Bay) : (s.modBay b g).mboxes = s.mboxes := rfl
@[simp] theorem State.modBay_dict (s : State) (b : BayNum) (g : Bay → Bay) : (s.modBay b g).dict = s.dict := rfl
@[simp] theorem State.modBay_part (s : State) (b : BayNum) (g : Bay → Bay) : (s.modBay b g).part = s.part := rfl
@[simp] theorem State.modBay_switch (s : State) (b : BayNum) (g : Bay → Bay) : (s.modBay b g).switch = s.switch := rfl
@[simp] theorem State.modBay_quires (s : State) (b : BayNum) (g : Bay → Bay) : (s.modBay b g).quires = s.quires := rfl
@[simp] theorem State.modBay_st (s : State) (b : BayNum) (g : Bay → Bay) : (s.modBay b g).st = s.st := rfl
@[simp] theorem State.modBay_weave (s : State) (b : BayNum) (g : Bay → Bay) : (s.modBay b g).weave = s.weave := rfl
@[simp] theorem State.modBay_nv (s : State) (b : BayNum) (g : Bay → Bay) : (s.modBay b g).nv = s.nv := rfl
@[simp] theorem State.modBay_tiers (s : State) (b : BayNum) (g : Bay → Bay) : (s.modBay b g).tiers = s.tiers := rfl
@[simp] theorem State.modBay_sent (s : State) (b : BayNum) (g : Bay → Bay) : (s.modBay b g).sent = s.sent := rfl
@[simp] theorem State.modBay_pm (s : State) (b : BayNum) (g : Bay → Bay) : (s.modBay b g).pm = s.pm := rfl
@[simp] theorem State.modBay_wdt (s : State) (b : BayNum) (g : Bay → Bay) : (s.modBay b g).wdt = s.wdt := rfl
@[simp] theorem State.modBay_sec (s : State) (b : BayNum) (g : Bay → Bay) : (s.modBay b g).sec = s.sec := rfl
@[simp] theorem State.modBay_rtc (s : State) (b : BayNum) (g : Bay → Bay) : (s.modBay b g).rtc = s.rtc := rfl
@[simp] theorem State.modBay_freeCtr (s : State) (b : BayNum) (g : Bay → Bay) : (s.modBay b g).freeCtr = s.freeCtr := rfl
@[simp] theorem State.modBay_out (s : State) (b : BayNum) (g : Bay → Bay) : (s.modBay b g).out = s.out := rfl
@[simp] theorem State.modBay_pending (s : State) (b : BayNum) (g : Bay → Bay) : (s.modBay b g).pending = s.pending := rfl

end Sys2Proof.Machine
end

