-- ==== Sys2Proof/Laws/Tables.lean ====
section
/-! SUPPORT. Sparse tables and memories: reading what was written, other places unchanged, the canonical form kept; and
what the operations on dictionary values do. -/

namespace Sys2Proof.Machine

/-! ### Finding after putting -/

@[simp] theorem Tab.find_nil {α : Type} (i : Nat) : Tab.find ([] : Tab α) i = none := rfl

/-- A key below the head of a canonical table is not listed. -/
theorem Tab.find_lt {α : Type} [DecidableEq α] (d : α) (t : Tab α) (lo i : Nat)
    (h : Tab.wfFrom d lo t = true) (hi : i < lo) : Tab.find t i = none := by
  cases t with
  | nil => rfl
  | cons p t =>
    obtain ⟨k, v⟩ := p
    simp only [Tab.wfFrom, Bool.and_eq_true, decide_eq_true_eq] at h
    simp [Tab.find, show i ≠ k by omega, show i < k by omega]

theorem Tab.wfFrom_mono {α : Type} [DecidableEq α] (d : α) (t : Tab α) (lo hi : Nat)
    (h : Tab.wfFrom d hi t = true) (hl : lo ≤ hi) : Tab.wfFrom d lo t = true := by
  cases t with
  | nil => rfl
  | cons p t =>
    obtain ⟨k, v⟩ := p
    simp only [Tab.wfFrom, Bool.and_eq_true, decide_eq_true_eq] at h ⊢
    exact ⟨⟨by omega, h.1.2⟩, h.2⟩

/-- Putting into a canonical table keeps it canonical. -/
theorem Tab.put_wf {α : Type} [DecidableEq α] (d : α) (t : Tab α) :
    ∀ (lo i : Nat) (o : Option α), Tab.wfFrom d lo t = true → lo ≤ i → o ≠ some d →
      Tab.wfFrom d lo (Tab.put t i o) = true := by
  induction t with
  | nil =>
    intro lo i o _ hi ho
    cases o with
    | none => rfl
    | some v => simp only [Tab.put, Tab.wfFrom, Bool.and_eq_true, decide_eq_true_eq]; exact ⟨⟨hi, by simpa using ho⟩, trivial⟩
  | cons p t ih =>
    obtain ⟨k, w⟩ := p
    intro lo i o h hi ho
    have h' := h
    simp only [Tab.wfFrom, Bool.and_eq_true, decide_eq_true_eq] at h
    obtain ⟨⟨h1, h2⟩, h3⟩ := h
    simp only [Tab.put]
    split
    · rename_i hlt
      cases o with
      | none => exact h'
      | some v =>
        simp only [Tab.wfFrom, Bool.and_eq_true, decide_eq_true_eq]
        exact ⟨⟨hi, by simpa using ho⟩, ⟨by omega, h2⟩, h3⟩
    · split
      · rename_i he
        cases o with
        | none => exact Tab.wfFrom_mono d t lo (k + 1) h3 (by omega)
        | some v =>
          simp only [Tab.wfFrom, Bool.and_eq_true, decide_eq_true_eq]
          exact ⟨⟨hi, by simpa using ho⟩, by subst he; exact h3⟩
      · rename_i h4 h5
        simp only [Tab.wfFrom, Bool.and_eq_true, decide_eq_true_eq]
        exact ⟨⟨h1, h2⟩, ih (k + 1) i o h3 (by omega) ho⟩

/-- What is put is found; every other key finds what it found. -/
theorem Tab.find_put {α : Type} [DecidableEq α] (d : α) (t : Tab α) :
    ∀ (lo i j : Nat) (o : Option α), Tab.wfFrom d lo t = true →
      Tab.find (Tab.put t i o) j = if j = i then o else Tab.find t j := by
  induction t with
  | nil =>
    intro lo i j o _
    cases o <;> simp only [Tab.put, Tab.find] <;> split <;> simp_all
  | cons p t ih =>
    obtain ⟨k, w⟩ := p
    intro lo i j o h
    simp only [Tab.wfFrom, Bool.and_eq_true, decide_eq_true_eq] at h
    obtain ⟨⟨h1, h2⟩, h3⟩ := h
    simp only [Tab.put]
    split
    · rename_i hlt
      cases o with
      | none =>
        by_cases hj : j = i
        · subst hj; simp [Tab.find, show j ≠ k by omega, hlt]
        · simp [hj]
      | some v =>
        by_cases hj : j = i
        · subst hj; simp [Tab.find]
        · by_cases hji : j < i
          · simp [Tab.find, hj, hji, show j ≠ k by omega, show j < k by omega]
          · simp [Tab.find, hj, hji]
    · split
      · rename_i he
        subst he
        cases o with
        | none =>
          by_cases hj : j = i
          · subst hj; simp [Tab.find_lt d t (j + 1) j h3]
          · by_cases hji : j < i
            · simp [Tab.find, hj, hji, Tab.find_lt d t (i + 1) j h3 (by omega)]
            · simp [Tab.find, hj, hji]
        | some v =>
          by_cases hj : j = i <;> simp [Tab.find, hj]
      · rename_i h4 h5
        by_cases hjk : j = k
        · subst hjk; simp [Tab.find, show j ≠ i by omega]
        · by_cases hjl : j < k
          · simp [Tab.find, hjk, hjl, show j ≠ i by omega]
          · simp only [Tab.find, hjk, hjl, if_false]
            exact ih (k + 1) i j o h3

/-- Setting keeps the canonical form. -/
theorem Tab.set_wf {α : Type} [DecidableEq α] (d : α) (t : Tab α) (i : Nat) (v : α)
    (h : Tab.wfFrom d 0 t = true) : Tab.wfFrom d 0 (Tab.set t d i v) = true := by
  unfold Tab.set
  exact Tab.put_wf d t 0 i _ h (Nat.zero_le _) (by split <;> simp_all)

/-- What is set is read; every other key reads as before. -/
theorem Tab.get_set {α : Type} [DecidableEq α] (d : α) (t : Tab α) (i j : Nat) (v : α)
    (h : Tab.wfFrom d 0 t = true) : Tab.get (Tab.set t d i v) d j = if j = i then v else Tab.get t d j := by
  unfold Tab.get Tab.set
  rw [Tab.find_put d t 0 i j _ h]
  by_cases hj : j = i
  · simp only [hj, if_true]; split <;> simp_all
  · simp [hj]

/-! ### Memories -/

@[simp] theorem Mem.wf_nil : Mem.wf [] = true := rfl

@[simp] theorem Mem.read_nil (a : Nat) : Mem.read [] a = 0 := rfl

/-- A write keeps the canonical form. -/
theorem Mem.write_wf (m : Mem) (a : Nat) (b : Byte) (h : Mem.wf m = true) : Mem.wf (Mem.write m a b) = true :=
  Tab.set_wf 0 m a b h

/-- A byte written reads back; every other byte reads as before. -/
theorem Mem.read_write (m : Mem) (a c : Nat) (b : Byte) (h : Mem.wf m = true) :
    Mem.read (Mem.write m a b) c = if c = a then b else Mem.read m c :=
  Tab.get_set 0 m a c b h

theorem Mem.writeL_wf (bs : List Byte) : ∀ (m : Mem) (a : Nat), Mem.wf m = true → Mem.wf (Mem.writeL m a bs) = true := by
  induction bs with
  | nil => intro m a h; exact h
  | cons b bs ih => intro m a h; exact ih _ _ (Mem.write_wf m a b h)

/-- Bytes written from `a` upward: inside them the byte written, outside as before. -/
theorem Mem.read_writeL (bs : List Byte) : ∀ (m : Mem) (a c : Nat), Mem.wf m = true →
    Mem.read (Mem.writeL m a bs) c = if a ≤ c ∧ c < a + bs.length then bs.getD (c - a) 0 else Mem.read m c := by
  induction bs with
  | nil => intro m a c _; simp [Mem.writeL, show ¬ (a ≤ c ∧ c < a) by omega]
  | cons b bs ih =>
    intro m a c h
    simp only [Mem.writeL]
    rw [ih _ _ _ (Mem.write_wf m a b h), Mem.read_write m a c b h]
    by_cases h1 : a + 1 ≤ c ∧ c < a + 1 + bs.length
    · rw [if_pos h1, if_pos (by simp; omega)]
      obtain ⟨n, hn⟩ : ∃ n, c - a = n + 1 := ⟨c - a - 1, by omega⟩
      rw [hn, show c - (a + 1) = n by omega]
      rfl
    · rw [if_neg h1]
      by_cases h2 : c = a
      · subst h2; simp
      · rw [if_neg h2, if_neg (by simp; omega)]

theorem Mem.ofList_wf (l : List Byte) : Mem.wf (Mem.ofList l) = true := Mem.writeL_wf l [] 0 rfl

/-- A byte list put into a memory reads back. -/
theorem Mem.read_ofList (l : List Byte) (c : Nat) : Mem.read (Mem.ofList l) c = l.getD c 0 := by
  rw [Mem.ofList, Mem.read_writeL l [] 0 c rfl]
  split
  · simp
  · rename_i h
    simp [List.getD_eq_getElem?_getD, List.getElem?_eq_none (show l.length ≤ c by omega)]

/-- A part of it reads back as that part. -/
theorem Mem.readN_ofList (l : List Byte) : ∀ (n a : Nat), a + n ≤ l.length → Mem.readN (Mem.ofList l) a n = (l.drop a).take n := by
  intro n
  induction n with
  | zero => intro a _; rfl
  | succ n ih =>
    intro a h
    have ha : a < l.length := by omega
    rw [Mem.readN, ih (a + 1) (by omega), Mem.read_ofList, List.drop_eq_getElem_cons ha, List.take_succ_cons]
    simp [List.getD_eq_getElem?_getD, ha]

/-- Keys of a canonical memory from `lo` on, with an upper bound. -/
theorem Mem.slice_wfFrom (base len : Nat) (t : Mem) : ∀ lo,
    Tab.wfFrom (0 : Byte) lo t = true → Tab.wfFrom (0 : Byte) (lo - base) (Mem.slice t base len) = true := by
  induction t with
  | nil => intro lo _; rfl
  | cons p t ih =>
    obtain ⟨k, v⟩ := p
    intro lo h
    simp only [Tab.wfFrom, Bool.and_eq_true, decide_eq_true_eq] at h
    obtain ⟨⟨h1, h2⟩, h3⟩ := h
    have hi := ih (k + 1) h3
    simp only [Mem.slice]
    split
    · exact Tab.wfFrom_mono 0 _ _ _ hi (by omega)
    · split
      · simp only [Tab.wfFrom, Bool.and_eq_true, decide_eq_true_eq]
        exact ⟨⟨by omega, h2⟩, Tab.wfFrom_mono 0 _ _ _ hi (by omega)⟩
      · rfl

theorem Mem.slice_wf (m : Mem) (base len : Nat) (h : Mem.wf m = true) : Mem.wf (Mem.slice m base len) = true := by
  have := Mem.slice_wfFrom base len m 0 h
  simpa [Mem.wf] using this

theorem Mem.clear_wfFrom (base len : Nat) (t : Mem) : ∀ lo,
    Tab.wfFrom (0 : Byte) lo t = true → Tab.wfFrom (0 : Byte) lo (Mem.clear t base len) = true := by
  induction t with
  | nil => intro lo _; rfl
  | cons p t ih =>
    obtain ⟨k, v⟩ := p
    intro lo h
    have h' := h
    simp only [Tab.wfFrom, Bool.and_eq_true, decide_eq_true_eq] at h
    obtain ⟨⟨h1, h2⟩, h3⟩ := h
    have hi := ih (k + 1) h3
    simp only [Mem.clear]
    split
    · simp only [Tab.wfFrom, Bool.and_eq_true, decide_eq_true_eq]
      exact ⟨⟨h1, h2⟩, hi⟩
    · split
      · exact Tab.wfFrom_mono 0 _ _ _ hi (by omega)
      · exact h'

theorem Mem.clear_wf (m : Mem) (base len : Nat) (h : Mem.wf m = true) : Mem.wf (Mem.clear m base len) = true :=
  Mem.clear_wfFrom base len m 0 h

/-! ### Pasting frames -/

theorem Mem.shift_wfFrom (base : Nat) (t : Mem) : ∀ lo,
    Tab.wfFrom (0 : Byte) lo t = true → Tab.wfFrom (0 : Byte) (base + lo) (Mem.shift base t) = true := by
  induction t with
  | nil => intro lo _; rfl
  | cons p t ih =>
    obtain ⟨k, v⟩ := p
    intro lo h
    simp only [Tab.wfFrom, Bool.and_eq_true, decide_eq_true_eq] at h
    obtain ⟨⟨h1, h2⟩, h3⟩ := h
    simp only [Mem.shift, Tab.wfFrom, Bool.and_eq_true, decide_eq_true_eq]
    exact ⟨⟨by omega, h2⟩, by have := ih (k + 1) h3; rwa [show base + (k + 1) = base + k + 1 by omega] at this⟩

/-- Two canonical pieces, the first below the second. -/
theorem Tab.wfFrom_append (t u : Mem) (hi : Nat) : ∀ lo,
    Tab.wfFrom (0 : Byte) lo t = true → (∀ p ∈ t, p.1 < hi) → lo ≤ hi → Tab.wfFrom (0 : Byte) hi u = true →
    Tab.wfFrom (0 : Byte) lo (t ++ u) = true := by
  induction t with
  | nil => intro lo _ _ hl hu; exact Tab.wfFrom_mono 0 u lo hi hu hl
  | cons p t ih =>
    obtain ⟨k, v⟩ := p
    intro lo h hb hl hu
    simp only [Tab.wfFrom, Bool.and_eq_true, decide_eq_true_eq] at h
    obtain ⟨⟨h1, h2⟩, h3⟩ := h
    have hk : k < hi := hb (k, v) (by simp)
    simp only [List.cons_append, Tab.wfFrom, Bool.and_eq_true, decide_eq_true_eq]
    exact ⟨⟨h1, h2⟩, ih (k + 1) h3 (fun p hp => hb p (by simp [hp])) (by omega) hu⟩

theorem Mem.slice_lt (base len : Nat) (t : Mem) : ∀ p ∈ Mem.slice t base len, p.1 < len := by
  induction t with
  | nil => intro p hp; simp [Mem.slice] at hp
  | cons q t ih =>
    obtain ⟨k, v⟩ := q
    intro p hp
    simp only [Mem.slice] at hp
    split at hp
    · exact ih p hp
    · split at hp
      · rename_i h1 h2
        rcases List.mem_cons.1 hp with h | h
        · subst h; simp; omega
        · exact ih p h
      · simp at hp

theorem Mem.shift_mem (base : Nat) (t : Mem) : ∀ p ∈ Mem.shift base t, ∃ q ∈ t, p.1 = base + q.1 := by
  induction t with
  | nil => intro p hp; simp [Mem.shift] at hp
  | cons q t ih =>
    obtain ⟨k, v⟩ := q
    intro p hp
    simp only [Mem.shift, List.mem_cons] at hp
    rcases hp with h | h
    · exact ⟨(k, v), by simp, by simp [h]⟩
    · obtain ⟨r, hr, he⟩ := ih p h
      exact ⟨r, by simp [hr], he⟩

theorem Mem.clear_ge (base len : Nat) (t : Mem) : ∀ lo, base ≤ lo →
    Tab.wfFrom (0 : Byte) lo t = true → Tab.wfFrom (0 : Byte) (base + len) (Mem.clear t base len) = true := by
  induction t with
  | nil => intro lo _ _; rfl
  | cons p t ih =>
    obtain ⟨k, v⟩ := p
    intro lo hb h
    simp only [Tab.wfFrom, Bool.and_eq_true, decide_eq_true_eq] at h
    obtain ⟨⟨h1, h2⟩, h3⟩ := h
    simp only [Mem.clear]
    rw [if_neg (by omega)]
    split
    · exact ih (k + 1) (by omega) h3
    · simp only [Tab.wfFrom, Bool.and_eq_true, decide_eq_true_eq]
      exact ⟨⟨by omega, h2⟩, h3⟩

theorem Mem.paste_wfFrom (base len : Nat) (f : Mem) (hf : Mem.wf f = true) (t : Mem) : ∀ lo, lo ≤ base →
    Tab.wfFrom (0 : Byte) lo t = true → Tab.wfFrom (0 : Byte) lo (Mem.paste t base len f) = true := by
  have hs : Tab.wfFrom (0 : Byte) base (Mem.shift base (Mem.slice f 0 len)) = true := by
    have := Mem.shift_wfFrom base (Mem.slice f 0 len) 0 (Mem.slice_wf f 0 len hf)
    simpa using this
  have hb : ∀ p ∈ Mem.shift base (Mem.slice f 0 len), p.1 < base + len := by
    intro p hp
    obtain ⟨q, hq, he⟩ := Mem.shift_mem base _ p hp
    have := Mem.slice_lt 0 len f q hq
    omega
  induction t with
  | nil => intro lo hl _; exact Tab.wfFrom_mono 0 _ lo base hs hl
  | cons p t ih =>
    obtain ⟨k, v⟩ := p
    intro lo hl h
    have h' := h
    simp only [Tab.wfFrom, Bool.and_eq_true, decide_eq_true_eq] at h
    obtain ⟨⟨h1, h2⟩, h3⟩ := h
    simp only [Mem.paste]
    split
    · simp only [Tab.wfFrom, Bool.and_eq_true, decide_eq_true_eq]
      exact ⟨⟨h1, h2⟩, ih (k + 1) (by omega) h3⟩
    · rename_i hk
      refine Tab.wfFrom_mono 0 _ lo base ?_ hl
      have hk' : Tab.wfFrom (0 : Byte) base ((k, v) :: t) = true := by
        simp only [Tab.wfFrom, Bool.and_eq_true, decide_eq_true_eq]
        exact ⟨⟨by omega, h2⟩, h3⟩
      exact Tab.wfFrom_append _ _ (base + len) base hs hb (by omega) (Mem.clear_ge base len _ base (le_refl _) hk')

theorem Mem.paste_wf (m : Mem) (base len : Nat) (f : Mem) (hm : Mem.wf m = true) (hf : Mem.wf f = true) :
    Mem.wf (Mem.paste m base len f) = true := Mem.paste_wfFrom base len f hf m 0 (Nat.zero_le _) hm

theorem Mem.setLeaf_wf (m f : Mem) (n : Nat) (hm : Mem.wf m = true) (hf : Mem.wf f = true) :
    Mem.wf (Mem.setLeaf m n f) = true := Mem.paste_wf m _ _ f hm hf

theorem Mem.clearLeaves_wf (m : Mem) (n c : Nat) (h : Mem.wf m = true) : Mem.wf (Mem.clearLeaves m n c) = true :=
  Mem.clear_wf m _ _ h

theorem Mem.leaf_wf (m : Mem) (n : Nat) (h : Mem.wf m = true) : Mem.wf (Mem.leaf m n) = true := Mem.slice_wf m _ _ h

/-! ### Dictionary values -/

/-- Putting a value that is not the default, or unlisting, keeps the register file canonical. -/
theorem vals_put (sku : Sku) (t : Tab Nat) : ∀ (lo k : Nat) (o : Option Nat), valsWf sku lo t = true → lo ≤ k →
    o ≠ some (dfltVal sku k) → valsWf sku lo (Tab.put t k o) = true := by
  induction t with
  | nil =>
    intro lo k o _ hl ho
    cases o with
    | none => rfl
    | some v => simp only [Tab.put, valsWf, Bool.and_eq_true, decide_eq_true_eq]; exact ⟨⟨hl, by simpa using ho⟩, trivial⟩
  | cons p t ih =>
    obtain ⟨j, w⟩ := p
    intro lo k o h hl ho
    have h' := h
    simp only [valsWf, Bool.and_eq_true, decide_eq_true_eq] at h
    obtain ⟨⟨h1, h2⟩, h3⟩ := h
    simp only [Tab.put]
    split
    · cases o with
      | none => exact h'
      | some v =>
        simp only [valsWf, Bool.and_eq_true, decide_eq_true_eq]
        exact ⟨⟨hl, by simpa using ho⟩, ⟨by omega, h2⟩, h3⟩
    · split
      · rename_i he
        subst he
        cases o with
        | none =>
          cases t with
          | nil => rfl
          | cons q t =>
            obtain ⟨m, x⟩ := q
            simp only [valsWf, Bool.and_eq_true, decide_eq_true_eq] at h3 ⊢
            exact ⟨⟨by omega, h3.1.2⟩, h3.2⟩
        | some v =>
          simp only [valsWf, Bool.and_eq_true, decide_eq_true_eq]
          exact ⟨⟨hl, by simpa using ho⟩, h3⟩
      · simp only [valsWf, Bool.and_eq_true, decide_eq_true_eq]
        exact ⟨⟨h1, h2⟩, ih (j + 1) k o h3 (by omega) ho⟩

/-- Writing an entry keeps the register file canonical. -/
theorem State.wr_wf (s : State) (k v : Nat) (h : valsWf s.sku 0 s.dict.vals = true) :
    valsWf (s.wr k v).sku 0 (s.wr k v).dict.vals = true :=
  vals_put s.sku s.dict.vals 0 k _ h (Nat.zero_le _) (by split <;> simp_all)

/-- A key below a canonical table is not listed. -/
theorem vals_find_lt (sku : Sku) (t : Tab Nat) (lo i : Nat) (h : valsWf sku lo t = true) (hi : i < lo) :
    Tab.find t i = none := by
  cases t with
  | nil => rfl
  | cons p t =>
    obtain ⟨k, v⟩ := p
    simp only [valsWf, Bool.and_eq_true, decide_eq_true_eq] at h
    simp [Tab.find, show i ≠ k by omega, show i < k by omega]

theorem vals_find_put (sku : Sku) (t : Tab Nat) : ∀ (lo i j : Nat) (o : Option Nat), valsWf sku lo t = true →
    Tab.find (Tab.put t i o) j = if j = i then o else Tab.find t j := by
  induction t with
  | nil =>
    intro lo i j o _
    cases o <;> simp only [Tab.put, Tab.find] <;> split <;> simp_all
  | cons p t ih =>
    obtain ⟨k, w⟩ := p
    intro lo i j o h
    simp only [valsWf, Bool.and_eq_true, decide_eq_true_eq] at h
    obtain ⟨⟨h1, h2⟩, h3⟩ := h
    simp only [Tab.put]
    split
    · rename_i hlt
      cases o with
      | none =>
        by_cases hj : j = i
        · subst hj; simp [Tab.find, show j ≠ k by omega, hlt]
        · simp [hj]
      | some v =>
        by_cases hj : j = i
        · subst hj; simp [Tab.find]
        · by_cases hji : j < i
          · simp [Tab.find, hj, hji, show j ≠ k by omega, show j < k by omega]
          · simp [Tab.find, hj, hji]
    · split
      · rename_i he
        subst he
        cases o with
        | none =>
          by_cases hj : j = i
          · subst hj; simp [vals_find_lt sku t (j + 1) j h3]
          · by_cases hji : j < i
            · simp [Tab.find, hj, hji, vals_find_lt sku t (i + 1) j h3 (by omega)]
            · simp [Tab.find, hj, hji]
        | some v =>
          by_cases hj : j = i <;> simp [Tab.find, hj]
      · by_cases hjk : j = k
        · subst hjk; simp [Tab.find, show j ≠ i by omega]
        · by_cases hjl : j < k
          · simp [Tab.find, hjk, hjl, show j ≠ i by omega]
          · simp only [Tab.find, hjk, hjl, if_false]
            exact ih (k + 1) i j o h3

/-- An entry written reads its new value; every other entry reads as before. -/
theorem State.rd_wr (s : State) (k j v : Nat) (h : valsWf s.sku 0 s.dict.vals = true) :
    (s.wr k v).rd j = if j = k then v else s.rd j := by
  unfold State.rd
  rw [show (s.wr k v).dict.vals = Tab.put s.dict.vals k (if v = dfltVal s.sku k then none else some v) from rfl,
    vals_find_put s.sku s.dict.vals 0 k j _ h]
  by_cases hj : j = k
  · subst hj
    by_cases hv : v = dfltVal s.sku j
    · simp [hv]
    · simp [hv]
  · simp [hj]

theorem vec_get_set {α : Type} (v : Vector α 8) (i j : Fin 8) (x : α) :
    (v.set i.val x i.isLt).get j = if i = j then x else v.get j := by
  show (v.set i.val x i.isLt)[j.val] = if i = j then x else v[j.val]
  rw [Vector.getElem_set]
  by_cases e : i = j
  · subst e; simp
  · rw [if_neg e, if_neg (fun z => e (Fin.ext z))]

@[simp] theorem State.setQuire_quire (s : State) (q : QNum) (x : Quire) : (s.setQuire q x).quire q = x := by
  unfold State.setQuire State.quire
  rw [vec_get_set, if_pos rfl]

theorem State.setQuire_quire_ne (s : State) (q p : QNum) (x : Quire) (h : p ≠ q) :
    (s.setQuire q x).quire p = s.quire p := by
  unfold State.setQuire State.quire
  rw [vec_get_set, if_neg (Ne.symm h)]

@[simp] theorem State.setBay_bay (s : State) (b : BayNum) (x : Bay) : (s.setBay b x).bay b = x := by
  unfold State.setBay State.bay
  rw [vec_get_set, if_pos rfl]

theorem State.setBay_bay_ne (s : State) (b c : BayNum) (x : Bay) (h : c ≠ b) :
    (s.setBay b x).bay c = s.bay c := by
  unfold State.setBay State.bay
  rw [vec_get_set, if_neg (Ne.symm h)]

end Sys2Proof.Machine
end

