-- ==== Sys2Proof/Tests/Slice0.lean ====
section
/-! SUPPORT. Tests: ill-formed commands that `Instr.wf` refuses, results that the spec's rules state for one step, and for
each statement a state and operands that meet its hypotheses. -/

namespace Sys2Proof.Tests

open Sys2Proof Sys2Proof.Machine

-- one theorem after the other: each kernel evaluation has a thread with a stack of its own
set_option Elab.async false

/-- Some next state of a command meets a check. -/
def gives (c : Instr) (s : State) (f : State → Bool) : Bool :=
  match exec c s with
  | .next t => f t
  | _ => false

/-- SHA-384 of the public keys of the private scalars 3, the firmware root of these tests, and 7, their debug key. -/
def rootHash : List Byte :=
  natBe 48 0xa18a45e115b952dcc05dee42533f834bdf43530e098c305078c4b6884c6d0c2efc0ddcce1d4052b8a0fd514412c2c09f
def debugHash : List Byte :=
  natBe 48 0x23f483080c149d8f735aa82a32f21bacdd93b8ce607ac182110f7b3e828442e0eba9a5653f3da819029caac0b8cb67ea

/-- A device that runs after a normal boot: link in L0, lifecycle PROVISIONED, the library and every quire empty. -/
def up : State :=
  ({ State.reset with
    boot := .normal, pins := { State.reset.pins with perstN := true },
    nv := { State.reset.nv with otp := [(0x160, 1)], kxFirmware := leNat rootHash, kxDebug := leNat debugHash } } : State).wrs [(Key.pcieLinkState, 2), (Key.t2Channels, 2), (Key.t2QuotaCap, 1008857)]

/-- An entry of ring 0 with the given bytes. -/
def entryOf (b : List Byte) : Entry := { seq := 0, ring := 0, slot := 0, headAfter := 1, bytes := b }

/-- 64 bytes, the given ones first. -/
def pad64 (b : List Byte) : List Byte := b ++ List.replicate (64 - b.length) 0

def hdr0 : ImpHeader :=
  { hflags := 0, bays := 1, epochStart := 0, wakeBudget := 0, bindings := 1, stitches := 1, t0Slots := 64, t1Slice := 0,
    t1Commons := 0, compiledStep := 0, nominal := 1000, hardBound := 2000, streamSlots := 0, weaveGap := 0, bgMask := 1,
    specStage := 0, armCount := 1, streamStart := [0], streamCount := [1], fallback := [(0xFF, 0, 0)] }

/-- A run of one bay, B0, with the given sequencer entries. -/
def run0 (es : List Nat) : Run :=
  { id := 0, entry := entryOf (pad64 [1]), handle := 0, impNo := 0, bays := [0], hdr := hdr0,
    entries := es.map (BitVec.ofNat 128), arms := [{ start := [3], count := [1], join := 5 }], binds := [], live := true,
    slipCycles := 0, slips := 0, slipping := none, fork := none, fallback := false, ioError := false, deadline := false,
    scopes := [], rangeTags := [], rangeIds := [], ranges := [], specLeaves := [] }

/-- Q0 runs with its bays granted, a ring of 16, a completion ring of 16, stitches 0 to 7 and a quota. -/
def working : State :=
  ((up.wrs [(Key.qSqSize 0 1, 16), (Key.qCqSize 0, 16), (Key.qStitchCount 0, 8), (Key.qQuota 0 1, 100),
    (Key.qQuota 0 2, 100), (Key.qQuota 0 3, 100), (Key.qQuota 0 4, 100)]).modQuire 0 fun x => { x with state := .running, pwr := .wake }).forB
    fun s b => s.modBay b fun x => { x with power := .running }

/-- Q0 with a submission entry of the given first bytes fetched from ring 0. -/
def starting (b : List Byte) : State :=
  working.modQuire 0 fun x => x.setRing 0 { head := 1, tail := 1, fetched := [entryOf (pad64 b)] }

/-- Q0 runs an imposition in B0 whose next entry is `w`, then END. -/
def issuing (w : Nat) : State :=
  (working.modQuire 0 fun x => { x with runs := [run0 [w, 0]] }).modBay 0 fun x =>
    { x with power := .running, seq := { x.seq with run := some (0, 0) } }

/-- The word of a sequencer entry: opcode, class, and its operand bits. -/
def word (op cls operands : Nat) : Nat := op * 2 ^ 104 + cls * 2 ^ 100 + operands

/-- What the next entry of `issuing w` is, for the sequencer. -/
def nextDue (w : Nat) : Due := { q := 0, run := run0 [w, 0], b := 0, pc := 0, idx := 0, w := w, t := 0 }


/-! ### Keys and images -/

/-- The public keys of the private scalars 3, 5 and 7: a root, a signer under it, a debug key. -/
def rootPub : List Byte :=
  natBe 48 0x077a41d4606ffa1464793c7e5fdc7d98cb9d3910202dcd06bea4f240d3566da6b408bbae5026580d02d7e5c70500c831 ++
  natBe 48 0xc995f7ca0b0c42837d0bbe9602a9fc998520b41c85115aa5f7684c0edc111eacc24abd6be4b5d298b65f28600a2f1df1
def signerPub : List Byte :=
  natBe 48 0x11de24a2c251c777573cac5ea025e467f208e51dbff98fc54f6661cbe56583b037882f4a1ca297e60abcdbc3836d84bc ++
  natBe 48 0x8fa696c77440f92d0f5837e90a00e7c5284b447754d5dee88c986533b6901aeb3177686d0ae8fb33184414abe6c1713a
def debugPub : List Byte :=
  natBe 48 0x283c1d7365ce4788f29f8ebf234edffead6fe997fbea5ffa2d58cc9dfa7b1c508b05526f55b9ebb2040f05b48fb6d0e1 ++
  natBe 48 0x9475c99061e41b88ba52efdb8c1690471a61d867ed799729d9c92cd01dbd225630d84ede32a78f9e64664cdac512ef8c

/-- FIPS 180-4: SHA-384 of "abc". -/
theorem test_sha384 : sha384 [0x61, 0x62, 0x63] =
    natBe 48 0xcb00753f45a35e8bb5a03d699ac65007272c32ab0eded1631a8b605a43ff5bed8086072ba1e7cc2358baeca134c825a7 := by
  decide +kernel

/-- FIPS 197, appendix C.3. -/
theorem test_aes256 : aes256 (aesKeys ((List.range 32).map (BitVec.ofNat 8))) (natBe 16 0x00112233445566778899aabbccddeeff) =
    natBe 16 0x8ea2b7ca516745bfeafc49904b496089 := by decide +kernel

/-- SP 800-38D: the key, IV and text of zeros. -/
theorem test_gcm :
    gcmOpen (natLe 32 0) (natLe 12 0) [] (natBe 16 0xcea7403d4d606b6e074ec5d3baf39d18) (natBe 16 0xd0d1c8a799996bf0265b98b5d48ab919) =
      some (natLe 16 0) := by decide +kernel

theorem rootPub_hash : sha384 rootPub = rootHash := by decide +kernel
theorem test_public_key : publicKey 3 = rootPub := by decide +kernel

/-- An image of one byte of code, signed by the signer under the root. -/
def fwImage : List Byte :=
  natLe 4 0x5746584B ++ [1, 0, 0, 0] ++ natLe 4 0 ++ natLe 4 1 ++
  natBe 48 0xf5b83d3f4bd3c29cfc2f499f883a7ae98d6c8fad2ff8b82b2ca7d2f163968ec5ed1abc31a618d82fbc61042632e2c7c6 ++
  rootPub ++ signerPub ++
  natBe 48 0x099056e27da7b998da1eeec2904816c57fe935ed5837c37456c9fd14892d3f8c4749b66e3afb81d626356f3b55b4ddd8 ++
  natBe 48 0x4da513f2da252955837d859171efa9b9b4665caf6a02e83fd41d8167f03ee83bc9c52cf30d00a4d5de8fd8b6371a181e ++
  natBe 48 0xa567ba97b67aea5bafdaf5002ffcc6ab9632bff9f01f873f6267bcd1f0f11c139ee5f441abd99f1baaf1ca1e3b5cbce7 ++
  natBe 48 0x33b97ed510e2f8bb88c48116bfe9b1e8cfd33ae68de66aa5818fd99b99ae23ec1666ab18b37ef152c3d924a99ec59fcf ++
  List.replicate 64 0 ++ [42]

def fwMem : Mem := Mem.ofList fwImage

theorem fwMem_part (a n : Nat) (l : List Byte) (h : a + n ≤ fwImage.length) (e : (fwImage.drop a).take n = l) :
    Mem.readN fwMem a n = l := (Mem.readN_ofList fwImage n a h).trans e

theorem fwMem_rootPub : Mem.readN fwMem 64 96 = rootPub := fwMem_part _ _ _ (by decide +kernel) (by decide +kernel)
theorem fwMem_signerPub : Mem.readN fwMem 160 96 = signerPub := fwMem_part _ _ _ (by decide +kernel) (by decide +kernel)
theorem fwMem_code : Mem.readN fwMem 512 (Mem.readLe fwMem 12 4) = [0x2A] := by
  have h : Mem.readLe fwMem 12 4 = 1 := by rw [Mem.readLe, fwMem_part 12 4 (natLe 4 1) (by decide +kernel) (by decide +kernel)]; rfl
  rw [h]
  exact fwMem_part _ _ _ (by decide +kernel) (by decide +kernel)
theorem fwMem_digest : Mem.readN fwMem 16 48 = sha384 [0x2A] :=
  fwMem_part _ _ _ (by decide +kernel) (by decide +kernel)
theorem fwMem_signer : ecdsaOk rootPub (sha384 signerPub) (Mem.readN fwMem 256 96) := by
  rw [fwMem_part 256 96 _ (by decide +kernel) rfl]
  decide +kernel
theorem fwMem_header : ecdsaOk signerPub (sha384 (Mem.readN fwMem 0 352)) (Mem.readN fwMem 352 96) := by
  rw [fwMem_part 352 96 _ (by decide +kernel) rfl, fwMem_part 0 352 _ (by decide +kernel) rfl]
  decide +kernel

/-- R887, R888: the image is signed for a device whose firmware root it names. -/
theorem fwMem_signed (s : State) (h : s.nv.kxFirmware = leNat rootHash) : s.imageSigned fwMem = true := by
  simp only [State.imageSigned, h, fwMem_rootPub, fwMem_signerPub, rootPub_hash, fwMem_code, fwMem_digest, fwMem_signer,
    fwMem_header, beq_self_eq_true, Bool.and_self]

/-- It verifies at every length that holds it. -/
theorem fwMem_imageOk (s : State) (h : s.nv.kxFirmware = leNat rootHash) (a : s.arbFirmware = 0) (len : Nat) (l : 513 ≤ len)
    (u : len ≤ 655360) : s.imageOk fwMem len = true := by
  have z7 : Mem.readN fwMem 7 1 = [0] := fwMem_part _ _ _ (by decide +kernel) (by decide +kernel)
  have z448 : Mem.readN fwMem 448 64 = List.replicate 64 0 := fwMem_part _ _ _ (by decide +kernel) (by decide +kernel)
  have m0 : Mem.readLe fwMem 0 4 = 0x5746584B := by
    rw [Mem.readLe, fwMem_part 0 4 (natLe 4 0x5746584B) (by decide +kernel) (by decide +kernel)]; rfl
  have m4 : Mem.readLe fwMem 4 2 = 1 := by
    rw [Mem.readLe, fwMem_part 4 2 [1, 0] (by decide +kernel) (by decide +kernel)]; rfl
  have m6 : Mem.readLe fwMem 6 1 = 0 := by
    rw [Mem.readLe, fwMem_part 6 1 [0] (by decide +kernel) (by decide +kernel)]; rfl
  have m12 : Mem.readLe fwMem 12 4 = 1 := by
    rw [Mem.readLe, fwMem_part 12 4 (natLe 4 1) (by decide +kernel) (by decide +kernel)]; rfl
  simp only [State.imageOk, fwMem_signed s h, z7, z448, m0, m4, m6, m12, a]
  simp [show 513 ≤ len from l, u, List.replicate]

/-! ### Statements of 02 to 05: states that meet their hypotheses -/

/-- A device for each trigger of the device reset at once. -/
def resettable : State :=
  ({ up with
    nv := { up.nv with boot := { up.nv.boot with resetDue := some LR.deviceReset } },
    pm := { up.pm with waking := true } } : State).wr Key.wdtState 1

theorem witness_ResetTriggersReach :
    let s := resettable
    s.power ≠ .sOff ∧ Inv s ∧ s.pins.resetN = true ∧ s.pins.pgood = true ∧ s.lcRow ≠ lcBlank ∧ s.pins.testen = false ∧
    s.nv.boot.resetDue = some LR.deviceReset ∧ s.pm.waking = true ∧ s.clk.nvPll = true ∧ s.rd Key.wdtState = 1 ∧ s.wdtPaused = false ∧
    s.running = true ∧ s.tapPowered = true ∧ holdsBalls s.jtag.ir = false := by decide +kernel

theorem witness_TestenHighInBlankStops : State.reset.lcRow = lcBlank := by decide +kernel

theorem witness_BootStarts :
    let s := State.reset
    s.boot = .waiting ∧ s.heldInReset = false ∧ s.clkinSeen = true := by decide +kernel

theorem witness_PinsAndClocks :
    (up.pins.aonUp = true ∧ up.clk.clkWait = false ∧ up.pm.held = [] ∧ up.coreOn = true) ∧
    (let s : State := { up with power := .sRet }
     s.coreOn = false ∧ s.oscDemand = false) ∧
    ({ up with power := .sRet, pm := { up.pm with demand := true } } : State).oscDemand = true ∧
    ({ up with clk := { up.clk with settling := true } } : State).clk.settling = true ∧
    (let s := up.modBay 0 fun x => { x with power := .gated }
     (s.bay 0).power = .gated ∧ (s.bay 0).retesting = false ∧ s.bayWaking 0 = false) ∧
    (let s : State := { up with clk := { up.clk with bayPll := true } }
     s.clk.bayPll = true ∧ ∀ b, (s.bay b).power = .off) := by decide +kernel

theorem witness_JtagInstructions :
    up.tapPowered = true ∧ holdsBalls up.jtag.ir = false ∧ assignedIr 0x3E = false ∧ up.debugNow = 0 ∧
    (List.replicate 19 true).length = cellBalls.length := by decide +kernel

theorem witness_PowerCycle :
    Inv up ∧ Inv { up with power := .sOff } ∧ ({ up with power := .sOff } : State).power = .sOff := by decide +kernel

/-- The grant of a card's write to a role. -/
def mayWrite (role : Role) (k : Nat) : Bool :=
  match cardOf up.sku (k / 256) (k % 256) with
  | some c => c.access != .ro && !(isFactory role && decide (lcField ≤ up.lc)) && grants c.write role (k / 256) (k % 256)
  | none => false

theorem witness_ShapeRejections :
    let card (k : Nat) := cardOf up.sku (k / 256) (k % 256)
    up.dictUp = true ∧ cardsAt 0xFFFF = [] ∧ cardsAt 0x2000 ≠ [] ∧ cardOf up.sku 0x2000 0x77 = none ∧
    (card (Key.qState 0)).any (fun c => c.access == .ro) = true ∧
    (card Key.mboxVector).any (fun c => c.access != .ro && !lengthOk c.ty 9) = true ∧
    mayWrite .hostP Key.mboxVector = true ∧ mayWrite .sentinel Key.mboxVector = false := by decide +kernel

theorem witness_PlainWrites :
    Serving up ∧ Inv up ∧ Allowed up .hostP Key.mboxVector 1 ∧ ownRange up.sku Key.mboxVector 63 = true ∧
    ownRange up.sku Key.mboxVector 64 = false := by decide +kernel

theorem witness_StagedMemberWrites :
    let k := Key.profQuotaT1 0 1
    Serving up ∧ Inv up ∧ setOfMember up.sku (k / 256) (k % 256) = some (.prof 0) ∧ Allowed up .hostP k 4 ∧
    up.setBars (.prof 0) .hostP = false ∧ ownRange up.sku k 5 = true ∧
    (up.setSetState (.prof 0) { holder := none, pending := true }).setBars (.prof 0) .hostP = true := by decide +kernel

theorem witness_CommitRows :
    let i : SetId := .power
    Serving up ∧ Inv up ∧ setOfCommit (i.commit / 256) = some i ∧ Allowed up .hostP i.commit 1 ∧
    up.commitBarred i = false ∧ (up.setState i).pending = false ∧ up.validate i = none ∧ i.ofQuire = false ∧
    (let s := up.setDict { up.dict with staged := [(i.members.headD 0, 0xFFFFFFFF)] }
     Serving s ∧ Inv s ∧ s.commitBarred i = false ∧ (s.setState i).pending = false ∧ (s.validate i).isSome = true) ∧
    (let s := up.setSetState i { holder := none, pending := true }
     Serving s ∧ Inv s ∧ (s.setState i).pending = true ∧ s.commitBarred i = false) ∧
    (let s := up.modQuire 0 fun x => { x with state := .enabled }
     Serving s ∧ Inv s ∧ Allowed s .hostP (SetId.ring 0).commit 1 ∧ s.commitBarred (.ring 0) = true) := by decide +kernel

theorem witness_SafePointAppliesWhole :
    let s := up.setSetState .power { holder := none, pending := true }
    Inv s ∧ s.running = true ∧ (s.setState .power).pending = true ∧ s.safeNow .power = true := by decide +kernel

/-- The target with a dynamic address. -/
def addressed : State := up.wr Key.i3cDynAddr 0x42

theorem witness_I3cAddresses :
    Sdr up ∧ up.rd Key.i3cDynAddr = 0 ∧ up.rdB Key.i3cSetdasaEn = true ∧ (up.wr Key.i3cSetdasaEn 0).rdB Key.i3cSetdasaEn = false ∧ Sdr addressed ∧ addressed.rd Key.i3cDynAddr ≠ 0 ∧
    (let s := up.wr Key.i3cSetdasaEn 0
     Sdr s ∧ s.rd Key.i3cDynAddr = 0) := by decide +kernel

/-- A bad frame of each kind of R171. -/
theorem witness_I3cBadFrames :
    (Sdr addressed ∧ addressed.rd Key.i3cDynAddr ≠ 0) ∧ Ddr (addressed.setI3c { addressed.i3c with hdr := true }) ∧
    (let f : List Byte := [1, 0, 0, 0, 0, 0]
     f.length ≤ addressed.i3c.mwl ∧ f.length < 7 ∧ f.head? = some 1) ∧
    (let f : List Byte := [1, 0, 0, 0, 0, 1, 0]
     7 ≤ f.length ∧ f.head? = some 1 ∧ f.length ≠ 7 + fieldLe f 5 2) ∧
    ([2, 0, 0] : List Byte).length ≠ 2 ∧ ([3] : List Byte).head? = some 3 := by decide +kernel

/-- A request that is not hot: a write of a profile quota. -/
def coldWrite : List Byte := [1] ++ natLe 2 (Key.profQuotaT1 0 1 / 256) ++ [1, 1, 4, 0, 1, 0, 0, 0]

theorem witness_I3cTickets :
    let s := addressed
    Sdr s ∧ s.rd Key.i3cDynAddr ≠ 0 ∧ s.pm.entry = none ∧ s.coreOn = true ∧ s.dict.cold.length < 32 ∧
    s.freeTicket = some 0 ∧ 7 ≤ coldWrite.length ∧ coldWrite.length = 7 + fieldLe coldWrite 5 2 ∧
    coldWrite.length ≤ s.i3c.mwl ∧ bit (fieldLe coldWrite 4 1) 0 = true ∧ fieldLe coldWrite 4 1 < 8 ∧
    (started s).intake (some .hostP) (fieldLe coldWrite 4 1) (fieldLe coldWrite 1 2) (fieldLe coldWrite 3 1) (coldWrite.drop 7) =
      (.hold ⟨.hostP, true, false, Key.profQuotaT1 0 1 / 256, 1, [1, 0, 0, 0]⟩, started s) ∧
    (let t := s.setI3c { s.i3c with tickets := [(0, .waiting), (31, .complete 0 [7])] }
     Sdr t ∧ 2 ≤ t.i3c.mwl ∧ Tab.find t.i3c.tickets 1 = none ∧ Tab.find t.i3c.tickets 0 = some .waiting ∧
     Tab.find t.i3c.tickets 31 = some (.complete 0 [7])) := by decide +kernel

/-- A request that is hot: a read of the sampled profile. -/
def hotRead : List Byte := [1] ++ natLe 2 (Key.profselSampled / 256) ++ [BitVec.ofNat 8 Key.profselSampled, 0, 0, 0]

theorem witness_DdrWrites :
    let s := addressed.setI3c { addressed.i3c with hdr := true, tickets := [(31, .complete 0 [7])] }
    Ddr s ∧ 7 ≤ hotRead.length ∧ hotRead.length ≤ s.i3c.mwl ∧ hotRead.head? = some 1 ∧
    hotRead.length = 7 + fieldLe hotRead 5 2 ∧ fieldLe hotRead 5 2 = 0 ∧
    (match ((started s).intake (some .hostP) (fieldLe hotRead 4 1) (fieldLe hotRead 1 2) (fieldLe hotRead 3 1) []).1 with
     | .final 0 _ => true | _ => false) = true ∧ hotRead.drop 7 = [] ∧
    2 ≤ s.i3c.mwl ∧ Tab.find s.i3c.tickets 31 = some (.complete 0 [7]) := by decide +kernel

theorem witness_I3cReads :
    let s := addressed.setI3c { addressed.i3c with response := [0] }
    s.i3c.response ≠ [] ∧ Sdr s ∧ s.rd Key.i3cDynAddr ≠ 0 ∧
    Ddr (s.setI3c { s.i3c with hdr := true }) := by decide +kernel

theorem witness_I3cInterrupts :
    (let s := addressed.setI3c { addressed.i3c with ibis := [(2, 5), (0, 31), (0, 1)] }
     Sdr s ∧ s.i3c.ibis = [(2, 5)] ++ (0, 31) :: [(0, 1)] ∧ (∀ p ∈ [(2, 5)], 0 < p.1) ∧ ∀ p ∈ [(0, 1)], 0 ≤ p.1) ∧
    (let s := up.wr Key.i3cHotjoinEn 1
     Sdr s ∧ s.rd Key.i3cDynAddr = 0 ∧ s.i3c.hjEn = true ∧ s.rdB Key.i3cHotjoinEn = true) := by decide +kernel

/-- The global mailbox with a request of one byte, of entry `k`. -/
def asking (k flags len : Nat) : State :=
  up.setMbox 8 { Mbox.reset with
    reqIndex := BitVec.ofNat 16 (k / 256), reqSub := BitVec.ofNat 8 (k % 256), reqFlags := BitVec.ofNat 8 flags, reqLength := BitVec.ofNat 16 len }

theorem witness_MailboxGo :
    (let s := asking (Key.profQuotaT1 0 1) 1 4
     let m := s.mbox 8
     let u := s.setMbox 8 { m with rspState := .busy, irq := false }
     s.barUp = true ∧ m.held = false ∧ m.reqLength.toNat ≤ 256 ∧ s.coreOn = true ∧ s.pm.entry = none ∧
     s.dict.cold.length < 32 ∧ u.intake (mboxRole 8 1) 1 m.reqIndex.toNat m.reqSub.toNat (Mem.readN m.reqData 0 4) =
       (.hold ⟨.hostP, true, false, Key.profQuotaT1 0 1 / 256, 1, [0, 0, 0, 0]⟩, u)) ∧
    (let s := asking Key.profselSampled 0 0
     let m := s.mbox 8
     let u := s.setMbox 8 { m with rspState := .busy, irq := false }
     m.held = false ∧ (u.intake (mboxRole 8 0) 0 m.reqIndex.toNat m.reqSub.toNat []).2 = u ∧
     (match (u.intake (mboxRole 8 0) 0 m.reqIndex.toNat m.reqSub.toNat []).1 with | .final _ _ => true | _ => false) = true) ∧
    ((up.setMbox 8 { Mbox.reset with rspState := .deferred }).mbox 8).rspState = .deferred := by decide +kernel

theorem witness_Bar0Writes :
    up.barUp = true ∧ (up.mbox 8).held = false ∧ up.rd Key.pcieLinkState = 2 ∧ inPage 0xFFFFFC 4 = true ∧ (∀ a ∈ span 0xFFFFFC 4, bar0At a = .reserved) := by
  decide +kernel

theorem witness_MsixAndConfiguration :
    let s : State := { up with fn := { up.fn with msixEnable := true } }
    s.barUp = true ∧ s.msix.pba = 0 ∧ s.fn.msixEnable = true ∧ s.fn.funcMask = false ∧ s.rd Key.pcieLinkState = 2 := by
  decide +kernel

theorem witness_DeferredReadCompletes :
    let k := Key.i3cIbiGroups
    let r : Request := ⟨.hostP, false, false, k / 256, k % 256, []⟩
    let s := up.setDict { up.dict with cold := [(r, .ticket 0)] }
    s.mcServes = true ∧ s.dict.cold = (r, .ticket 0) :: [] ∧ r.write = false ∧ (cardOf s.sku r.idx r.sub).isSome = true ∧
    s.boot = .normal := by decide +kernel

theorem witness_PerstAndFlr :
    up.pins.perstN = true ∧ up.barUp = true ∧
    (let s := ({ up with pins := { up.pins with perstN := false } } : State).wr Key.pcieLinkState 0
     s.pins.perstN = false ∧ s.heldInReset = false ∧ s.running = true ∧ s.coreOn = true ∧ s.pm.entry = none ∧
     s.rd Key.pcieLinkState = linkDownCode) ∧ up.up = true := by decide +kernel

theorem witness_ClockLossWakeAndRetest :
    (Inv up ∧ up.clkinSeen = true ∧ up.running = true ∧ up.pm.waking = false) ∧
    (let s := up.setPm { up.pm with waking := true }
     Inv s ∧ s.pm.waking = true ∧ s.clk.nvPll = true ∧ s.rd Key.sentState ≠ 1) ∧
    (let s := up.modBay 7 fun x => { x with retesting := true }
     Inv s ∧ (s.bay 7).retesting = true) := by decide +kernel

/-- Argument of PROFILE_SWITCH: profile 3, the whole drain limit. -/
def switchArg : List Byte := [3, 0] ++ natLe 2 10000

theorem witness_ProfileCommands :
    Serving up ∧ Allowed up .hostP (Key.profRestore 3) 0 ∧ up.setBars (.prof 3) .hostP = false ∧
    Allowed up .hostP Key.profileSwitch switchArg.length ∧ up.rdB Key.profilePinLock = false ∧
    (up.wr Key.profilePinLock 1).rdB Key.profilePinLock = true ∧ switchTarget switchArg = 3 ∧
    fieldLe switchArg 1 1 = 0 ∧ switchLimit switchArg = 10000 ∧ up.cmdRunning Key.profileSwitch = false ∧
    up.holdingsFit 3 = true ∧
    (let s := up.wrs [(Key.profQuotaT1 3 1, 0)]
     let s := s.setTiers { s.tiers with extents := [{ place := .commons, first := 0, count := 1, use := .alloc 0 }] }
     Serving s ∧ s.holdingsFit 3 = false) := by decide +kernel

/-- A switch at its drain, and one that has repartitioned. -/
def switching (re : Bool) : State := { up with switch := some (Switch.mk 0 3 10000 0 re []) }

theorem witness_ProfileSwitchSteps :
    (let s := switching false
     Inv s ∧ s.coreOn = true ∧ (allQ.all fun q => s.drained q) = true) ∧
    (let s := (switching false).modQuire 0 fun x => { x with state := .running, started := [{ entry := { bytes := [], ring := 0, slot := 0, seq := 0, headAfter := 0 }, work := .fence false }], runs := [run0 []] }
     Inv s ∧ (allQ.all fun q => s.drained q) = false) ∧
    (let s := switching true
     Inv s ∧ s.coreOn = true ∧ s.weave.slot = 0) := by decide +kernel

theorem witness_ResetCommands :
    Serving up ∧ Allowed up .hostP Key.deviceReset 4 ∧ fieldLe (natLe 4 0x7E5E7019) 0 4 = 0x7E5E7019 ∧
    up.cmdRunning Key.deviceReset = false ∧ Allowed up .hostP Key.recoveryLoad 4 ∧
    (let s : State := { up with boot := .recovery }
     s.heldInReset = false ∧ s.coreOn = true ∧ s.pm.waking = false ∧ s.clk.nvPll = true ∧ s.dict.cold = [] ∧
     s.pm.entry = none ∧ Allowed s .hostP Key.recoveryLoad 4 ∧ s.cmdRunning Key.recoveryLoad = false) := by decide +kernel

/-- Recovery boot with the signed image in recovery staging. -/
def recovering : State := { up with boot := .recovery, tiers := { up.tiers with recovery := fwMem } }

theorem witness_ResetCommands_image :
    recovering.nv.kxFirmware = leNat rootHash ∧ recovering.arbFirmware = 0 ∧ recovering.tiers.recovery = fwMem ∧
    up.imageOk [] 655360 = false ∧ recovering.boot = .recovery ∧ fieldLe (natLe 4 655360) 0 4 = 655360 ∧
    recovering.nv.boot.copy0.seq.toNat < 2 ^ 32 - 1 ∧ recovering.nv.boot.copy1.seq.toNat < 2 ^ 32 - 1 :=
  ⟨by simp only [recovering, up]; rfl, by decide +kernel, by simp only [recovering], by decide +kernel, by unfold recovering; rfl, by decide +kernel, by decide +kernel, by decide +kernel⟩

theorem witness_Colophon :
    (Serving up ∧ Inv up ∧ Allowed up .hostP (Key.colophonTag 1) 64 ∧ up.rdB Key.colophonLocked = false ∧
     up.rd Key.colophonWrites < 10000 ∧ up.rd (Key.colophonTag 1) ≠ 1 ∧ up.paramFull = false ∧
     Allowed up .hostP Key.colophonLock 4 ∧ up.cmdRunning Key.colophonLock = false) ∧
    (let s := up.wr Key.colophonWrites 10000
     Serving s ∧ Inv s ∧ 10000 ≤ s.rd Key.colophonWrites) := by decide +kernel

/-- 04, worked example: the write of Colophon part 1 is answered with DEFER and ticket 0. -/
theorem test_example_defer :
    gives (.i3cRequestFrame ([1] ++ natLe 2 0x1080 ++ [1, 1] ++ natLe 2 64 ++ List.replicate 64 9) false) addressed
      (fun t => t.i3c.response == [7, 0, 0, 0] && t.dict.cold.length == 1) = true := by decide +kernel

/-! ### Statements of 06 to 11 -/

theorem witness_QuireEnable :
    Serving up ∧ Allowed up .hostP (Key.qEnable 7) 0 ∧ (up.quire 7).state = .disabled ∧ up.rd (Key.qCqSize 7) = 0 ∧
    (let s := up.wr (Key.qCqSize 7) 16
     Serving s ∧ s.rd (Key.qCqSize 7) ≠ 0 ∧ bit (s.rd Key.diagT2Refused) 7 = false ∧
     s.cmdRunning (Key.qEnable 7) = false ∧ (s.quire 7).pendingWork = false) ∧ (working.quire 0).state ≠ .disabled := by
  decide +kernel

theorem witness_QuireDisable :
    Serving working ∧ Allowed working .hostP (Key.qDisable 0) 1 ∧ (working.quire 0).state = .running ∧
    working.cmdRunning (Key.qDisable 0) = false ∧ (working.quire 7).state = .disabled := by decide +kernel

theorem witness_DrainEnds :
    let s := working.modQuire 0 fun x => { x with state := .draining }
    (s.quire 0).state = .draining ∧ (s.quire 0).started = [] := by decide +kernel

theorem witness_QuireReset :
    Serving working ∧ Inv working ∧ Allowed working .hostP (Key.qReset 0) 0 ∧ (working.quire 0).state ≠ .resetting ∧
    working.cmdRunning (Key.qReset 0) = false ∧
    (let s := working.modQuire 0 fun x => { x with state := .resetting }
     Serving s ∧ Inv s ∧ (s.quire 0).state = .resetting) := by decide +kernel

theorem witness_DmaErrorsFreeze :
    Inv working ∧ Lively working 0 ∧ Serving working ∧ Allowed working .hostP (Key.qDmaFault 0) 8 ∧
    working.cmdRunning (Key.qDmaFault 0) = false ∧ working.up = true ∧
    (let w : Started := { entry := entryOf (pad64 [8]), work := .copyWait }
     let s := working.modQuire 0 fun x => { x with started := [w] }
     Inv s ∧ Lively s 0 ∧ s.up = true ∧ (s.quire 0).started = [w] ∧ ((s.quire 0).ring 0).fetched = [] ∧ w.entry.slot = 0) := by decide +kernel

theorem witness_Doorbells :
    let s := working
    s.barUp = true ∧ s.boot = .normal ∧ s.coreOn = true ∧ s.pm.entry = none ∧ Inv s ∧ Lively s 0 ∧
    15 < s.rd (Key.qSqSize 0 1) ∧ s.rd (Key.qSqSize 0 1) ≤ 16 ∧ 15 < s.rd (Key.qCqSize 0) ∧ (s.quire 0).heldCq = [] ∧
    s.ownsStitch 0 7 = true ∧ (s.stitch 7).spec = false ∧ s.ownsStitch 0 8 = false ∧
    bits (BitVec.ofNat 32 (7 + 4096)).toNat 27 12 ≠ 0 ∧
    ¬ Lively (s.modQuire 0 fun x => { x with state := .frozen }) 0 := by decide +kernel

/-- Q0 with an entry waiting in ring 0, in host memory. -/
def fetching : State := working.modQuire 0 fun x => x.setRing 0 { head := 15, tail := 0, fetched := [] }

theorem witness_Fetches :
    let s := fetching
    s.fetches 0 = true ∧ s.fetchRing 0 = some 0 ∧ (pad64 [0]).length = 64 ∧
    ringLoc (s.rd (Key.qSqBase 0 1)) = 0 ∧ Inv s ∧ firstBad (s.rd (Key.qPlacement 0) == 1) (pad64 [0]) = none ∧
    s.fetchStitch 0 (pad64 [0]) = none ∧ firstBad (s.rd (Key.qPlacement 0) == 1) (pad64 [0xFF]) = some 0 := by
  decide +kernel

theorem witness_NopAndFence :
    CqRoom (starting [0]) 0 ∧ (starting [0]).startable 0 0 0 = some (entryOf (pad64 [0])) ∧
    (starting [0x0B]).startable 0 0 0x0B = some (entryOf (pad64 [0x0B])) ∧
    ((starting [0x0B]).quire 0).fenceOpen (entryOf (pad64 [0x0B])) false = true ∧
    (let e : Entry := { entryOf (pad64 [0x0B]) with seq := 1 }
     let s := working.modQuire 0 fun x =>
       { (x.setRing 0 { head := 1, tail := 1, fetched := [e] }) with
         started := [{ entry := entryOf (pad64 [1]), work := .run 0 }] }
     CqRoom s 0 ∧ s.startable 0 0 0x0B = some e ∧ (s.quire 0).fenceOpen e false = false) ∧
    (let e := entryOf (pad64 [0x0B])
     let s := working.modQuire 0 fun x => { x with started := [{ entry := e, work := .fence false }] }
     CqRoom s 0 ∧ s.coreOn = true ∧ (s.quire 0).state = .running ∧ ((s.quire 0).ring 0).fetched = [] ∧
     ((s.quire 0).started.filter fun w => w.entry.ring == 0) = [{ entry := e, work := .fence false }] ∧
     (s.quire 0).fenceOpen e false = true ∧ s.nv.loads = []) := by decide +kernel

theorem witness_GrantOrRefuse :
    (let s := (starting [0]).modQuire 0 fun x => { x with pwr := .wake, wakePending := true }
     Inv s ∧ (s.quire 0).wakePending = true ∧ s.switch = none ∧ s.coreOn = true ∧ s.pm.waking = false ∧
     s.refusesWake 0 = false ∧ s.clkinSeen = true ∧ s.clk.settling = false ∧ s.clk.clkWait = false ∧
     ({ s with pins := { s.pins with clkin := false } } : State).clkinSeen = false ∧ (s.quire 0).ringsEmpty = false ∧
     (let t := ({ s with clk := { s.clk with bayPll := true } } : State).forB fun t b =>
        t.modBay b fun x => { x with power := .gated }
      t.clk.bayPll = true ∧ t.refusesWake 0 = false ∧
      ∀ b ∈ t.quireBays 0, (t.bay b).powered = true ∧ (t.bay b).retesting = false)) ∧
    (let s := ((starting [0]).wrs ((upFrom 1 8).map fun n => (Key.profBayOwner 0 n, 7))).modQuire 0 fun x =>
       { x with pwr := .wake, wakePending := true }
     Inv s ∧ s.refusesWake 0 = true) := by decide +kernel

/-- STITCH_SIGNAL or STITCH_WAIT of stitch `n`, with TIMEOUT 100 us. -/
def stitchEntry (op n : Nat) : List Byte := [BitVec.ofNat 8 op, 0, 0, 0, 0, 0, 0, 0] ++ natLe 4 n ++ natLe 4 100

theorem witness_HostSignalsAndWaits :
    (let s := starting (stitchEntry 9 7)
     Inv s ∧ CqRoom s 0 ∧ s.startable 0 0 9 = some (entryOf (pad64 (stitchEntry 9 7))) ∧ s.ownsStitch 0 7 = true ∧
     (s.stitch 7).spec = false ∧ bit (entryOf (pad64 (stitchEntry 9 7))).flags 1 = false) ∧
    (let s := (starting (stitchEntry 10 7)).setStitch 7 { Stitch.reset with spec := true }
     s.startable 0 0 10 = some (entryOf (pad64 (stitchEntry 10 7))) ∧ s.mayWait 0 7 = true ∧ (s.stitch 7).spec = true) ∧
    (let s := starting (stitchEntry 9 8)
     s.startable 0 0 9 = some (entryOf (pad64 (stitchEntry 9 8))) ∧ s.ownsStitch 0 8 = false) ∧
    (let s := starting (stitchEntry 10 8)
     s.startable 0 0 10 = some (entryOf (pad64 (stitchEntry 10 8))) ∧ s.mayWait 0 8 = false) ∧
    (let s := starting (stitchEntry 10 7)
     s.startable 0 0 10 = some (entryOf (pad64 (stitchEntry 10 7))) ∧ s.mayWait 0 7 = true ∧
     (s.stitch 7).spec = false) := by decide +kernel

/-- Q_STITCH_CONFIG of stitch `n`: MODE, FLAGS, TARGET, COUNT and SHARE. -/
def configArg (n mode flags target count share : Nat) : List Byte :=
  natLe 2 n ++ natLe 1 mode ++ natLe 1 flags ++ natLe 4 target ++ natLe 4 count ++ natLe 1 share ++ [0, 0, 0]

theorem witness_StitchConfig :
    let a := configArg 7 2 0 4 3 0x80
    Serving working ∧ Inv working ∧ Allowed working .hostP (Key.qStitchConfig 0) a.length ∧
    working.cmdRunning (Key.qStitchConfig 0) = false ∧ working.ownsStitch 0 7 = true ∧ working.ownsStitch 0 8 = false ∧
    (working.stitch 7).waits = [] ∧ (working.stitch 7).poison = false ∧ fieldLe a 0 2 = 7 ∧ fieldLe a 2 1 < 3 ∧ (fieldLe a 3 1 = 1 → fieldLe a 12 1 = 0) ∧
    fieldLe a 4 4 ≠ 0 ∧ bit (fieldLe a 12 1) 0 = false ∧ fieldLe a 3 1 ≤ 1 ∧ fieldLe a 13 3 = 0 ∧
    fieldLe a 8 4 < fieldLe a 4 4 ∧ fieldLe (configArg 7 2 0 4 4 0) 4 4 ≤ fieldLe (configArg 7 2 0 4 4 0) 8 4 ∧
    ((working.setStitch 7 { Stitch.reset with poison := true }).stitch 7).poison = true := by decide +kernel

theorem witness_StageAddsSignals :
    let s := working.setSt { working.st with signals := [(7, 0xFFFFFFFF)] }
    Inv s ∧ s.coreOn = true ∧ s.stitchOwner 7 = some 0 ∧ s.st.signals = [(7, 0xFFFFFFFF)] ∧ s.st.poisons = [] ∧
    s.st.aborts = [] ∧ ∀ m, (s.stitch m).waits = [] ∧ ((s.stitch m).mode = 2 → (s.stitch m).val < (s.stitch m).target) := by
  refine ⟨by decide +kernel, by decide +kernel, by decide +kernel, rfl, rfl, rfl, fun m => ?_⟩
  show (Tab.get [] Stitch.reset m).waits = [] ∧ _
  exact ⟨rfl, fun h => absurd h (by show (0 : Nat) ≠ 2; decide)⟩

/-- A wait of ring 0 of Q0. -/
def heldWait (fresh expiring : Bool) : Held := { who := .host 0 0, quire := 0, fresh := fresh, expiring := expiring }

/-- One wait on a counter, an event and a barrier, below and at its target; fresh or held, expiring or not. -/
theorem witness_WaitOutcomeOrder :
    ∀ fresh expiring : Bool,
      let x : Stitch := { Stitch.reset with waits := [heldWait fresh expiring] }
      let y : Stitch := { x with mode := 2 }
      x.waits = [heldWait fresh expiring] ∧ x.poison = false ∧ x.mode ≠ 2 ∧ x.val < x.target ∧ (x.setVal 1).waits = x.waits ∧
      x.target ≤ (x.setVal 1).val ∧ y.mode = 2 ∧ (y.setVal 1).target ≤ (y.setVal 1).val := by decide +kernel

/-- Stitch 7 poisoned and signalled in one stage: what the stage makes of it. -/
theorem witness_StageSettlesAll :
    let s := working.setSt { working.st with signals := [(7, 1), (7, 2), (8, 1)], poisons := [(0, 8)], aborts := [(8, 1)] }
    Inv s ∧ s.coreOn = true ∧ s.stitchOwner 7 = some 0 ∧ s.stitchOwner 8 = none ∧
    ((s.st.signals.filter fun p => p.1 == 7).map fun p => p.2) = [1, 2] ∧ (s.st.poisons.any fun p => inRange p 7) = true := by
  decide +kernel

/-- A bay's wait on stitch 7, issued at cycle 0. -/
def bayWait (timeout : Option Nat) : SeqWait := { stitch := 7, start := 0, timeout := timeout, tag := 0 }

theorem witness_TimeoutsExpire :
    (let e := entryOf (pad64 (stitchEntry 10 7))
     let s := (working.modQuire 0 fun x => { x with started := [{ entry := e, work := .stitchWait 7 }] }).setStitch 7
       { Stitch.reset with waits := [heldWait false false] }
     Inv s ∧ ((s.quire 0).started.find? fun w => w.entry.ring == 0 && w.work.isStitchWait) =
       some { entry := e, work := .stitchWait 7 } ∧ fieldLe e.bytes 12 4 ≠ 0xFFFFFFFF) ∧
    (let s := (issuing 0).modBay 0 fun x => { x with seq := { x.seq with wait := some (bayWait (some 5)) } }
     let r : Run := { run0 [0, 0] with slipping := some (some .wait) }
     let s := s.modQuire 0 fun x => { x with runs := [r] }
     Inv s ∧ (s.bay 0).seq.wait = some (bayWait (some 5)) ∧ s.runOf 0 = some (0, r) ∧ s.reaches 0 r 5 = true) := by decide +kernel

theorem witness_SequencerControl :
    (∀ p ∈ [(8, Kind.precisionFence), (11, .idle), (12, .endStream), (10, .loop), (9, .maintSlot)],
      let w := word p.1 0 0
      (issuing w).due 0 = some (nextDue w) ∧ entryKind w = some p.2 ∧ (issuing w).holdsOf (nextDue w) p.2 = ⟨[], []⟩ ∧
      Inv (issuing w)) ∧ ((issuing 0).bay 0).seq.wait = none ∧ ((issuing 0).bay 0).seq.arms = [] ∧
    (∀ c ∈ (nextDue 0).run.scopes, (0 : BayNum) ∉ c.bays) ∧
    bits (word 10 0 (1 * 2 ^ 48)) 79 48 - 1 = 0 ∧ bits (word 10 0 (2 * 2 ^ 48)) 79 48 - 1 ≠ 0 := by decide +kernel

theorem witness_SequencerStitches :
    (∀ p ∈ [(3, Kind.signalStitch), (2, .waitStitch)],
      let w := word p.1 0 (7 * 2 ^ 88 + 5 * 2 ^ 56)
      let s := issuing w
      Inv s ∧ s.due 0 = some (nextDue w) ∧ entryKind w = some p.2 ∧ s.holdsOf (nextDue w) p.2 = ⟨[], []⟩ ∧
      (s.bay 0).seq.wait = none ∧
      (let u := s.wr (Key.qStitchCount 0) 0
       u.due 0 = some (nextDue w) ∧ ∀ x ∈ u.together (nextDue w), (x.b = 0 ∧ x.pc = 0) ∨ u.viols x = [])) ∧
    (let n := (run0 []).stitchOf 7
     (issuing 0).ownsStitch 0 n = true ∧ (issuing 0).mayWait 0 n = true ∧
     ((issuing 0).wr (Key.qStitchCount 0) 0).ownsStitch 0 n = false ∧ ((issuing 0).wr (Key.qStitchCount 0) 0).mayWait 0 n = false) := by decide +kernel

/-- A held wait of B0. -/
def heldBay : Held := { who := .bay 0, quire := 0, fresh := false, expiring := false }

/-- A held wait of B0 in a run that slips, and in one that does not. -/
theorem witness_BayWaitsEnd :
    (heldBay.who = .bay 0) ∧ Inv (issuing 0) ∧
    ((issuing 0).runOf 0).map (fun p => p.2.slipping) = some none ∧
    (let r : Run := { run0 [0, 0] with slipping := some (some .wait) }
     let s := (issuing 0).modQuire 0 fun x => { x with runs := [r] }
     Inv s ∧ s.runOf 0 = some (0, r) ∧ r.slipping ≠ none) := by decide +kernel

/-- FORK of FID 0 on sequencer register 0 of relative bay 0, two arms. -/
def forkWord : Nat := word 4 0 (1 * 2 ^ 74)

theorem witness_Forks :
    let s := issuing forkWord
    let d := nextDue forkWord
    Inv s ∧ s.due 0 = some d ∧ entryKind forkWord = some .fork ∧ s.holdsOf d .fork = ⟨[], []⟩ ∧ (s.bay 0).seq.wait = none ∧
    d.run.bays[bits forkWord 91 89]? = some 0 ∧ (d.run.arms[bits forkWord 73 58]?).isSome = true ∧ (s.bay 0).seq.arms = [] ∧
    d.run.fork = none ∧ ((s.bay 0).settleDregs 0).tag (dregRes (bits forkWord 88 85) (bits forkWord 80 77)) = 0 ∧
    dregAt s 0 (dregRes (bits forkWord 88 85) (bits forkWord 80 77)) 0 < bits forkWord 76 74 + 1 ∧
    (d.run.hdr.fallback.getD 0 (0xFF, 0, 0)).1 = 0xFF ∧ (∀ x ∈ s.together d, entryKind x.w = some .fork) := by decide +kernel

/-- Scope 1 of a run of B0 alone, open. -/
def scope1 : Scope := { id := 1, kind := 0, stageBind := 0, shadowBind := 0xFF, bays := [0], closed := false }

theorem witness_SpeculationScopes :
    (let w := word 5 0 (1 * 2 ^ 94 + 0xFF * 2 ^ 76)
     Inv (issuing w) ∧ (issuing w).st.signals = [] ∧ (issuing w).due 0 = some (nextDue w) ∧ entryKind w = some .specBegin ∧
     (issuing w).holdsOf (nextDue w) .specBegin = ⟨[], []⟩ ∧ (nextDue w).run.scopes = []) ∧
    (∀ p ∈ [(6, Kind.specCommit), (7, .specCancel)],
      let w := word p.1 0 (1 * 2 ^ 94 + 2 ^ 81)
      let d : Due := { nextDue w with run := { (nextDue w).run with scopes := [scope1] } }
      let s := (issuing w).modQuire 0 fun x => { x with runs := [d.run] }
      s.due 0 = some d ∧ entryKind w = some p.2 ∧ s.holdsOf d p.2 = ⟨[], []⟩ ∧ d.run.scopeStitches 1 = [] ∧
      d.run.ranges = [] ∧ d.run.rangeTags = []) := by decide +kernel

/-- LNS_MUL of the slots 0, 1 and 2. -/
def mulWord : Nat := word 1 3 (2 ^ 88 + 1 * 2 ^ 74 + 2 * 2 ^ 67)

/-- `issuing mulWord` with slot 0 pending until cycle `u`, or until an event. -/
def pendingMul (u : Option Nat) : State :=
  (issuing mulWord).modBay 0 fun x => x.modSlot 0 fun m => { m with arriving := some .slice, due := u }

theorem witness_Slips :
    entryKind mulWord = some .lnsMul ∧ (pendingMul none).due 0 = some (nextDue mulWord) ∧
    ((pendingMul none).holdsOf (nextDue mulWord) .lnsMul).events = [.slice] ∧
    ((pendingMul (some 9)).holdsOf (nextDue mulWord) .lnsMul).events = [] ∧
    ((pendingMul (some 9)).holdsOf (nextDue mulWord) .lnsMul).exact ≠ [] ∧
    (let r : Run := { run0 [mulWord, 0] with slipping := some none }
     let s := (pendingMul (some 9)).modQuire 0 fun x => { x with runs := [r] }
     let d : Due := { nextDue mulWord with run := r }
     Inv s ∧ s.run 0 0 = some r ∧ s.runNext 0 r = some d ∧ s.waitHolds d = false ∧
     (∀ h ∈ s.holdsAll d, h.events = []) ∧ lastExact ((s.holdsAll d).flatMap Holds.exact) = some (9, .slice) ∧
     d.elapsed ≤ 9 ∧ d.inBound (9 + 1 - d.elapsed) = true ∧ s.overdue r (d.elapsed + (9 + 1 - d.elapsed)) = false) ∧
    (let r : Run := { run0 [mulWord, 0] with slipping := some (some .t3) }
     let s := (issuing mulWord).modQuire 0 fun x => { x with runs := [r] }
     let d : Due := { nextDue mulWord with run := r }
     s.run 0 0 = some r ∧ s.runNext 0 r = some d ∧ s.waitHolds d = false ∧ (∀ h ∈ s.holdsAll d, h.events = []) ∧
     lastExact ((s.holdsAll d).flatMap Holds.exact) = none ∧ d.inBound (max (s.slipFloor d) 2000) = true ∧
     s.overdue r (d.elapsed + max (s.slipFloor d) 2000) = false) ∧
    (let s := (issuing mulWord).modBay 0 fun x => { x with seq := { x.seq with wait := some (bayWait none) } }
     s.due 0 = some (nextDue mulWord) ∧ (s.bay 0).seq.wait.isSome = true) := by decide +kernel

/-- A text block in entry 0, installed for Q0 with handle 4096: one open stripe in bank group 0, with imposition 0 of one
bay, whose one entry is END. -/
def oneText : LibEntry :=
  { LibEntry.reset with
    state := .installed, kind := 1, generation := 1, stripes := 1,
    man := { Manifest.reset with
      sections := [{ kind := 1, isOpen := true, leaves := 32 }],
      variants := [{ bays := 1, t1 := 0, t2 := 0, impFirst := 0, impCount := 1 }],
      imps := [{ sec := 0, contract := 3, firstLeaf := 0, length := 272 }], places := [[0]] },
    rows := [(0, 0)] }

/-- Its leaf 0, in row 0 of bank group 0. -/
def textMain : Mem := [(256 + 6, 1), (256 + 22, 0xB0), (256 + 23, 4), (256 + 43, 16), (256 + 44, 1), (256 + 60, 1)]

/-- `s` with `oneText` in entry 0, held by Q0. -/
def withText (s : State) : State :=
  ((s.setNv { s.nv with main := textMain }).setLib 0 oneText).wrs [(Key.qHandle 0 1, 4096), (Key.qHandleVariant 0 1, 0), (Key.libLinkMask 1, 0xFF)]

/-- RUN_IMPOSITION of handle `h`, imposition 0, its binding table in T4. -/
def runEntry (h : Nat) : List Byte := [1, 0, 0, 0, 0, 0, 0, 0] ++ natLe 4 h ++ [0, 0, 0, 0] ++ natLe 8 ({ form := .t4, leaf := 0 } : Addr).encode

/-- Q0 about to start the run, its bays running. -/
def runReady (h : Nat) : State :=
  (withText (starting (runEntry h))).forB fun s b => s.modBay b fun x => { x with power := .running }

theorem witness_RunLifetime :
    (let e := entryOf (pad64 (runEntry 1))
     let s := runReady 1
     Inv s ∧ s.startable 0 0 1 = some e ∧ s.validHandle 0 1 = none ∧ CqRoom s 0) ∧
    (let e := entryOf (pad64 (runEntry 4096))
     let s := runReady 4096
     let r : ImpRec := { sec := 0, contract := 3, firstLeaf := 0, length := 272 }
     let imp := parseImp (s.impBytes 0 r)
     Inv s ∧ s.startable 0 0 1 = some e ∧ s.validHandle 0 4096 = some 0 ∧ (s.lib 0).state = .installed ∧
     s.rd (Key.qHandleVariant 0 1) ≠ 0xFF ∧ s.impRec 0 0 0 = some r ∧ s.shortSet 0 = false ∧
     (s.quire 0).granted = true ∧ s.switch = none ∧ namedBays (fieldLe e.bytes 14 1) (fld (s.impBytes 0 r) 6 1) = [0] ∧
     (s.quireBays 0)[0]? = some 0 ∧ s.bayBusy 0 0 = false ∧ (s.bay 0).power = .running ∧
     s.bayAhead 0 0 [0] = false ∧ addrOf (fieldLe e.bytes 16 8) = some { form := .t4, leaf := 0 } ∧ fieldLe e.bytes 24 2 = 0 ∧
     (s.reserveRun 0 0 [0] imp.hdr.t1Slice imp.hdr.t1Commons).isSome = true) := by decide +kernel

theorem foldl_max_le (l : List Nat) (b : Nat) : ∀ i, i ≤ b → (∀ x ∈ l, x ≤ b) → l.foldl max i ≤ b := by
  induction l with
  | nil => intro i h _; exact h
  | cons x t ih => intro i h a; exact ih _ (Nat.max_le.2 ⟨h, a x (by simp)⟩) fun y hy => a y (by simp [hy])

/-- No gap between slots of a frame is 4096. -/
theorem largestGap_le (l : List Nat) (h : ∀ n ∈ l, n < 1024) : largestGap l ≤ 4096 := by
  cases l with
  | nil => decide
  | cons a t =>
    refine foldl_max_le _ _ _ (by omega) fun x hx => ?_
    obtain ⟨p, hp, rfl⟩ := List.mem_map.1 hx
    have h1 := (List.of_mem_zip (a := p.1) (b := p.2) hp).2
    simp only [List.tail_cons, List.mem_append, List.mem_singleton] at h1
    have h2 : p.2 < 2048 := h1.elim (fun m => by have := h p.2 (by simp [m]); omega) fun e => by
      have := h a (by simp); omega
    show p.2 - p.1 ≤ 4096
    omega

/-- The checks at start pass at the compiled clock step, and fail one step above it. -/
theorem witness_RunLifetime_checks :
    let s := runReady 4096
    let r : ImpRec := { sec := 0, contract := 3, firstLeaf := 0, length := 272 }
    let imp := parseImp (s.impBytes 0 r)
    s.rd (Key.profClockStep s.part 1) = 1200 ∧
    sortNat (((List.range 12).filter fun g => bit imp.hdr.bgMask g) ++ (s.lib 0).groupsOf ((s.lib 0).man.impStripes r)) = [0] ∧
    (∀ t4, s.bindBytes 0 ({ form := .t4, leaf := 0 } : Addr).encode 0 t4 = .inl fun _ => 0) ∧
    s.runStartFail 0 imp [0] 1200 0 (fun _ => 0) = none ∧
    s.runStartFail 0 imp [0] 1201 0 (fun _ => 0) = some (VC.clockStep, 22) := by
  intro s r imp
  have hb : s.bindFail imp 0 (fun _ => 0#8) = none := by decide +kernel
  have hu : imp.hdr.usesSpec = false := by decide +kernel
  have h1 : imp.hdr.streamSlots = 0 := by decide +kernel
  have h2 : imp.hdr.weaveGap = 4096 := by decide +kernel
  have h3 : imp.hdr.compiledStep = 1200 := by decide +kernel
  have h4 : largestGap (s.ownedSlots 0 0) ≤ 4096 := largestGap_le _ fun n hn => by
    simpa using (List.mem_filter.1 hn).1
  refine ⟨by decide +kernel, by decide +kernel, fun _ => rfl, ?_, ?_⟩ <;>
    simp [State.runStartFail, hb, hu, h1, h2, h3, Nat.not_lt.2 h4]

theorem witness_RunLifetime_runs :
    (let r : Run := { run0 [0] with live := false }
     let s := ((issuing 0).modQuire 0 fun x => { x with runs := [r] }).modBay 0 fun x => { x with cache := some (0, 0, 0, 0) }
     Inv s ∧ s.run 0 0 = some r ∧ s.zeroReady 0 r = true ∧ Lively s 0) ∧
    (let s := ((issuing 0).modQuire 0 fun x => { x with runs := [run0 [0]] }).modBay 0 fun x =>
       { x with seq := { x.seq with ended := true } }
     s.run 0 0 = some (run0 [0]) ∧ s.runDone (run0 [0]) = true ∧ Lively s 0 ∧ CqRoom s 0) ∧
    (let r : Run := { run0 [mulWord, 0] with slipping := some (some .t3) }
     let s := (issuing mulWord).modQuire 0 fun x => { x with runs := [r] }
     s.run 0 0 = some r ∧ (s.runNext 0 r).isSome = true ∧ r.live = true ∧ r.hdr.hardBound ≠ 0 ∧ Lively s 0) := by
  decide +kernel

/-! ### Statements of 09 to 12 -/

/-- An entry of the engine class `cls` and index 0 with UOP and operands, and its bay settled. -/
def unitReady (k : Kind) (w : Nat) : Bool :=
  let s := issuing w
  decide (Inv s ∧ s.due 0 = some (nextDue w) ∧ entryKind w = some k ∧ s.holdsOf (nextDue w) k = ⟨[], []⟩ ∧
    (s.bay 0).seq.wait = none ∧ (s.bay 0).late = [] ∧ (s.bay 0).ready = [] ∧ (∀ x ∈ s.together (nextDue w), (x.b = 0 ∧ x.pc = 0) ∨ s.viols x = []))

theorem witness_units :
    ([(Kind.teBuild, word 1 1 (2 ^ 88 + 3 * 2 ^ 66)), (.teBuild, word 1 1 (2 ^ 88)), (.teLookup, word 1 1 (2 * 2 ^ 88)),
      (.teLookup, word 1 1 (2 * 2 ^ 88 + 2 ^ 66)), (.escApply, word 1 2 (2 ^ 88 + 2 ^ 67)),
      (.teClear, word 1 1 (3 * 2 ^ 88 + 0xFF * 2 ^ 80)), (.teRescale, word 1 1 (4 * 2 ^ 88)), (.escApply, word 1 2 (2 ^ 88)),
      (.lnsMul, mulWord), (.lnsAdd, mulWord + 2 ^ 88), (.lnsReduce, mulWord + 2 * 2 ^ 88), (.lnsFromlin, mulWord + 3 * 2 ^ 88),
      (.lnsTolin, mulWord + 4 * 2 ^ 88), (.refFma, word 1 4 (2 ^ 88 + 2 ^ 74 + 2 ^ 69)), (.refCast, word 1 4 (2 * 2 ^ 88)),
      (.refTopk, word 1 4 (3 * 2 ^ 88 + 8 * 2 ^ 77)), (.convPass1, word 1 5 (2 ^ 88)), (.convPass2, word 1 5 (2 * 2 ^ 88)),
      (.convCarry, word 1 5 (3 * 2 ^ 88 + 2 ^ 74)), (.convCarry, word 1 5 (3 * 2 ^ 88)), (.convStats, word 1 5 (4 * 2 ^ 88))].all
      fun p => unitReady p.1 p.2) = true := by decide +kernel

/-! ### Worked examples of 07, 09 and 10 -/

/-- 07, worked example: the argument bytes configure stitch 0x240 of Q1, shared with Q0. -/
theorem test_example_stitch_config :
    gives (.qStitchConfig .hostP 1 [0x40, 2, 1, 0, 1, 0, 0, 0, 0, 0, 0, 0, 1, 0, 0, 0]) up
      (fun t => t.mirror 0x240 == leNat [0, 0, 0, 0, 1, 0, 0, 0, 0, 0, 0, 1, 0x11, 0, 0, 0] && t.mayWait 0 0x240 && !t.mayWait 2 0x240) =
      true := by decide +kernel

/-- 09, worked example: the table that a build forms from activations 12, −7, 3 and 20. -/
theorem test_example_table :
    (List.range 16).map (subsetSum fun k => [12, -7, 3, 20].getD k 0) =
      [0, 12, -7, 5, 3, 15, -4, 8, 20, 32, 13, 25, 23, 35, 16, 28] := by decide +kernel

/-- 09, worked example: the four planes' terms of lane 37, and its rescaled value −53. -/
theorem test_example_lane :
    let t := (List.range 16).map (subsetSum fun k => [12, -7, 3, 20].getD k 0)
    (laneTerm 0 4 0 t 0 5 * 4, laneTerm 0 4 1 t 0 3 * 4, laneTerm 0 4 2 t 0 6 * 4, laneTerm 0 4 3 t 0 10 * 4) = (60, 40, -64, -416) ∧
    rescaleOne (-280) (24576 + 17 * 2 ^ 16) 0 0 = ofSigned 8 (-53) := by decide +kernel

/-- 09, worked example: the escape of −6.75 at input 3 of lane 37 adds 100. -/
theorem test_example_escape :
    escAdd [(1, 1), (2, 4), (4, 1), (5, 1), (17, 2), (128, 0xD8), (129, 0xC0), (130, 0x83), (131, 0x12)] [(259, 20)] 0 .int8 0 = (37, 100) := by
  decide +kernel

/-- 10, worked example: G4 codes at 2^(−6), and the fresh shift of a block whose maximum is 1.5 under BEXP −10. -/
theorem test_example_g4 :
    convCode 3 false 48 1 = (4, 56) ∧ convCode 3 true 19 1 = (0xF, -13) ∧ convLimit 3 false = (7, 127) ∧
    freshScale 3 (-10) 0x3FC00000 = 4 ∧ freshScale 3 (-10) 0x40480000 = 5 ∧ freshScale 3 (-10) 0 = 0x80 := by decide +kernel

/-- Lookups and escapes at the two values of the epoch check, and a table register a build has filled. -/
theorem witness_AccumulatorsLand :
    let w := word 1 1 (2 * 2 ^ 88)
    let s := (issuing w).modBay 0 fun x =>
      { x with engines := x.engines.set 0 { Engine.reset with treg0 := { Treg.reset with mode := some 0 } } }
    (s.epochBad (s.issueOf (nextDue w)) 0 0 = false ∧ s.epochBad (s.issueOf (nextDue w)) 0 1 = true ∧
     (((s.bay 0).engines.get 0).settle 0).treg 0 = { Treg.reset with mode := some 0 } ∧
     s.early 0 (resTreg 0 0) 0 = false ∧ bits w 65 63 = 0) ∧
    escCount ((s.bay 0).frame 0) = 0 := by decide +kernel

theorem witness_AccumulatorSaturates :
    let l : Landing := { block := 7, cycle := 0, clear := none, adds := List.replicate 512 1 }
    Tab.rising 0 Engine.reset.acc = true ∧ l.block = 7 ∧ l.clear = none ∧ l.adds.length = 512 := by decide +kernel

/-- A binding of leaf 5 of slice B0 on, two leaves, writable. -/
def sliceBind (count : Nat) : Binding := { kind := 2, bflags := 1, value := count, addr := ({ form := .slice 0, leaf := 5 } : Addr).encode }

/-- The next entry moves two leaves between slot 62 and the binding, which Q0 owns. -/
def moveWord (uop : Nat) : Nat := word 1 6 (uop * 2 ^ 88 + 62 * 2 ^ 49 + 2 ^ 45)

def moving (uop : Nat) (bind : Binding) : State × Due :=
  let r : Run := { run0 [moveWord uop, 0] with binds := [bind] }
  let s := (issuing (moveWord uop)).modQuire 0 fun x => { x with runs := [r] }
  (s.setTiers { s.tiers with extents := [{ place := .slice 0, first := 5, count := 2, use := .alloc 0 }] },
   { nextDue (moveWord uop) with run := r })

theorem witness_LeafMoves :
    let x := moving 1 (sliceBind 2)
    (Inv x.1 ∧ x.1.due 0 = some x.2 ∧ entryKind x.2.w = some .movIn ∧ x.1.holdsOf x.2 .movIn = ⟨[], []⟩ ∧
     (x.1.bay 0).seq.wait = none ∧ bits x.2.w 76 56 + x.1.loopIndex 0 (bit x.2.w 79) (bits x.2.w 78 77) = 0 ∧
     (x.1.issueOf x.2).ts 49 = 62 ∧ bits x.2.w 48 45 + 1 = 2 ∧ addrOf (sliceBind 2).addr = some { form := .slice 0, leaf := 5 } ∧
     x.1.allocated 0 (.slice 0) 5 = true ∧ x.1.allocated 0 (.slice 0) 6 = true ∧ 62 + 2 ≤ 64 ∧ (sliceBind 1).value < 0 + 2) ∧
    ((moving 1 (sliceBind 1)).1.due 0 = some (moving 1 (sliceBind 1)).2) ∧
    (let y := moving 1 { sliceBind 2 with addr := ({ form := .slice 0, leaf := 7 } : Addr).encode }
     y.1.due 0 = some y.2 ∧ y.1.resolve 0 { form := .slice 0, leaf := 7 } = .foreign ∧ (∀ v ∈ y.1.together y.2, (v.b = 0 ∧ v.pc = 0) ∨ y.1.viols v = [])) ∧
    (let y := moving 1 { sliceBind 2 with addr := ({ form := .t4, leaf := 12412 } : Addr).encode }
     y.1.due 0 = some y.2 ∧ y.1.resolve 0 { form := .t4, leaf := 12412 } = .foreign ∧ (Form.t4).isT4 = true ∧
     (∀ v ∈ y.1.together y.2, (v.b = 0 ∧ v.pc = 0) ∨ y.1.viols v = [])) ∧
    (let z := moving 2 (sliceBind 2)
     z.1.due 0 = some z.2 ∧ entryKind z.2.w = some .movOut ∧ z.1.holdsOf z.2 .movOut = ⟨[], []⟩ ∧
     bit (sliceBind 2).bflags 0 = true ∧ (z.1.bay 0).tags = [] ∧ (z.1.bay 0).late = [] ∧
     ((z.1.bay 0).slot 62).xo = false ∧ ((z.1.bay 0).slot 63).xo = false) := by decide +kernel

/-- A move of slot 63 and T2 leaf 9, queued in B0. -/
def t2Move (isIn : Bool) : Move :=
  { op := 0, idx := 0, slot := 63, addr := ({ form := .t2, leaf := 9 } : Addr).encode, isIn := isIn, cause := .t2, tag := 0, frame := [],
    xo := false, ident := 0 }

theorem witness_LeafMoves_arrivals :
    let s := (issuing 0).modBay 0 fun x => { x with moves := [t2Move true] }
    let s := s.setTiers { s.tiers with extents := [{ place := .t2, first := 9, count := 1, use := .alloc 0 }] }
    Inv s ∧ (s.bay 0).seq.run = some (0, 0) ∧ (s.bay 0).moves = [t2Move true] ∧
    addrOf (t2Move true).addr = some { form := .t2, leaf := 9 } ∧ s.allocated 0 .t2 9 = true ∧
    s.rdB Key.t2EccActive = false ∧ (t2Move true).cause = .t2 ∧ (t2Move false).isIn = false ∧ ((s.bay 0).slot 63).voidOnArrival = false := by decide +kernel

/-- STREAM of stripe 0 of the bound text from bank group `g`, all 32 leaves, to slot 32 on. -/
def streamWord (g : Nat) : Nat := word 1 7 (2 ^ 88 + g * 2 ^ 53 + 32 * 2 ^ 47 + 31 * 2 ^ 40)

def streaming (g handle : Nat) : State × Due :=
  let r : Run := { run0 [streamWord g, 0] with binds := [{ kind := 1, bflags := 0, value := handle, addr := 0 }] }
  ((withText (issuing (streamWord g))).modQuire 0 fun x => { x with runs := [r] }, { nextDue (streamWord g) with run := r })

theorem witness_StreamsQueue :
    let x := streaming 0 4096
    (Inv x.1 ∧ x.1.due 0 = some x.2 ∧ entryKind x.2.w = some .stream ∧ x.1.holdsOf x.2 .stream = ⟨[], []⟩ ∧
     (x.1.bay 0).seq.wait = none ∧ x.1.validHandle 0 4096 = some 0 ∧
     (x.1.lib 0).man.groupOf (x.1.lib 0).variant 0 = some 0 ∧ x.1.groupInService 0 = true ∧ x.1.streamsStanding 0 0 = 0 ∧
     (insertNat 0 (x.1.streamGroups 0 0 0)).length ≤ 2 ∧
     (bits x.2.w 52 47 + if bit x.2.w 46 ∧ (x.1.issueOf x.2).odd then 32 else 0) % 64 + (bits x.2.w 45 40 + 1) = 64) ∧
    (let y := streaming 1 4096
     y.1.due 0 = some y.2 ∧ bits y.2.w 56 53 = 1 ∧ ∀ v ∈ y.1.together y.2, (v.b = 0 ∧ v.pc = 0) ∨ y.1.viols v = []) ∧
    (let z := streaming 0 4097
     z.1.due 0 = some z.2 ∧ z.1.validHandle 0 4097 = none ∧
     ∀ v ∈ z.1.together z.2, (v.b = 0 ∧ v.pc = 0) ∨ z.1.viols v = []) := by decide +kernel

/-- A sense of stripe 0 of entry 0 for slot 32 on, queued for Q0 in bank group 0. -/
def sense0 : SenseReq := { entry := 0, stripe := 0, what := .stream 0 0 32 32 0 4096 0, retries := 0, leaves := List.range 32 }

theorem witness_WeaveServes :
    (Inv up ∧ up.up = true ∧ up.coreOn = true) ∧
    (let s := withText (issuing 0)
     let s := s.setWeave { s.weave with slot := 1023, queues := [(0, [sense0])] }
     Inv s ∧ s.groupInService 0 = true ∧ s.weaveCode s.weave.profile s.weave.slot 0 = 0 ∧ Lively s 0 ∧
     Tab.get s.weave.queues [] 0 = [sense0] ∧ Tab.get s.weave.lent 0 0 = 0 ∧ s.groupBusy 0 = false ∧ s.headWaits 0 sense0 = false ∧
     (s.setWeave { s.weave with queues := [(0, [sense0])] }).stillRuns 0 0 0 = true ∧
     (let u : PressUnit := { group := 0, worker := .op 0, banks := [0], cont := true }
      Inv (s.setNv { s.nv with units := [u] }) ∧ (s.setNv { s.nv with units := [u] }).groupBusy 0 = true) ∧
     s.run 0 0 = some (run0 [0, 0])) ∧
    (let s := withText (issuing 0)
     let s := s.setWeave { s.weave with sensed := [(0, [.queue 0 sense0])] }
     Inv s ∧ Tab.get s.weave.sensed [] 0 = [.queue 0 sense0] ∧ s.stillRuns 0 0 0 = true ∧ sense0.leaves.Nodup ∧
     (∀ j ∈ sense0.leaves, 32 + j < 64) ∧ (∀ j ∈ sense0.leaves, ((s.bay 0).slot (32 + j)).voidOnArrival = false) ∧
     (sense0.leaves.filter fun j => [31].contains j) ≠ [] ∧ sense0.retries < 3) := by decide +kernel

theorem witness_Aperture :
    (let s := (withText up).wr Key.t3Window 0
     Inv s ∧ s.bar2Takes 0x08001FF0 16 = true ∧ s.up = true ∧ s.coreOn = true ∧ s.pm.entry = none ∧ s.clk.lpddrPll = true ∧
     s.rd Key.t3Window = 0 ∧
     (s.lib 0).installed = true ∧ (s.lib 0).man.xoStripe 0 = true ∧ (s.lib 1).installed = false ∧
     (s.wr Key.t3Window (2 ^ 32)).rd Key.t3Window / 2 ^ 32 = 1) ∧
    (let x : LibEntry := { oneText with man := { oneText.man with sections := [{ kind := 4, isOpen := true, leaves := 32 }] } }
     let s := (withText up).setLib 0 x
     let a : AptStripe := { entry := 0, gen := 1, stripe := 0, frames := [(8448 * 31 + 8447, 7)] }
     let s := s.setWeave { s.weave with aptBuf := [a] }
     Inv s ∧ (s.lib 0).man.xoStripe 0 = false ∧ s.buffered 0 0 = some a) := by decide +kernel

/-! ### Statements of 13 -/

/-- A press descriptor with DFLAGS and KEYSEL of 0. -/
def pressDesc (op tag target data count : Nat) : List Byte :=
  natLe 1 op ++ [0] ++ natLe 2 tag ++ [0, 0, 0, 0] ++ natLe 8 target ++ natLe 8 data ++ natLe 4 count ++ [0, 0, 0, 0]

/-- OTP_PROGRAM of the ROOT_HASH revocation bit of slot 0. -/
def revoke : List Byte := pressDesc 5 7 0x140 2 0

/-- READ_RUN of leaf 31 of entry 0 into the leaf that `sliceBind` names. -/
def readLeaf : List Byte := pressDesc 4 7 (4096 * 2 ^ 32 + 31) (sliceBind 1).addr 1

theorem witness_PressSubmissions :
    (Inv up ∧ up.up = true ∧ up.coreOn = true ∧ fieldLe revoke 0 1 = 5 ∧ (sourceOps .host).contains 5 = true ∧
     (sourceOps .host).contains 1 = false ∧ (submitKey .host).isSome = true ∧ (sourceOps (.quire 0)).contains 6 = false) ∧
    (up.nv.press.length < 256 ∧ (∀ k, submitKey .host = some k → up.cmdRunning k = false) ∧ hostDescBad revoke = none ∧
     up.pressAtOnce .host (parseDesc revoke) = none ∧ hostDescBad (pressDesc 5 7 0x141 2 0) = some 8) ∧
    (let text : LibEntry := { oneText with man := { oneText.man with sections := [{ kind := 4, isOpen := true, leaves := 32 }] } }
     let x := (withText (moving 1 (sliceBind 2)).1).setLib 0 text
     Inv x ∧ x.up = true ∧ x.coreOn = true ∧ Lively x 0 ∧ (sourceOps (.quire 0)).contains 4 = true ∧
     (∀ k, submitKey (.quire 0) = some k → x.cmdRunning k = false) ∧ x.pressFreeze 0 readLeaf = none ∧
     x.pressAtOnce (.quire 0) (parseDesc readLeaf) = none ∧
     (sortNat (badDesc (pressDesc 4 7 0 (sliceBind 1).addr 4097))).head? = some 24) := by
  refine ⟨by decide +kernel, ⟨by decide +kernel, ?_, by decide +kernel, by decide +kernel, by decide +kernel⟩,
    by decide +kernel, by decide +kernel, by decide +kernel, by decide +kernel, by decide +kernel, ?_, by decide +kernel,
    by decide +kernel, by decide +kernel⟩ <;> (intro k h; cases h; decide +kernel)

/-- An operation of HOST-P's that runs, alone in the ring. -/
def pressing (op target data count : Nat) : PressOp :=
  { id := 0, src := .host, op := op, dflags := 0, tag := 7, stitch := 0, target := target, data := data, count := count,
    running := true, suspended := false, done := 0, under := [] }

def pressed (x : PressOp) : State := up.setNv { up.nv with press := [x], nextOp := 1 }

/-- The last of two sectors of an erase, and the first. -/
def erasing (done : Nat) : PressOp := { pressing 2 (2 ^ 63 + 1022) 0 2 with src := .translation, done := done, under := [1022 + done] }

/-- An erase of block 17 in bank 7 of bank group 0, under way. -/
def blockErase : PressOp := { pressing 1 (15 * 2 ^ 14 + 17 * 2 ^ 9) 0 0 with src := .translation }

theorem witness_PressCompletions :
    (∀ x ∈ [pressing 5 0x140 2 0, erasing 0, erasing 1, blockErase],
      let s := pressed x
      Inv s ∧ (s.nv.press.find? fun y => y.id == 0) = some x ∧ x.running = true ∧ x.suspended = false ∧
      s.runSensing 0 = false ∧ s.coreOn = true ∧ (∀ y ∈ s.nv.press, y.src = x.src → y = x) ∧
      (sourceOps x.src).contains x.op = true) ∧
    (let s := pressed (pressing 5 0x140 2 0)
     Mem.readLe s.nv.otp 0x140 8 ||| 2 ≠ Mem.readLe s.nv.otp 0x140 8) ∧
    ((erasing 0).under ≠ [] ∧ (∀ n ∈ (erasing 1).under, 674 ≤ n ∧ n < 1024) ∧
     (erasing 1).count ≤ (erasing 1).done + (erasing 1).under.length ∧
     (erasing 0).done + (erasing 0).under.length < (erasing 0).count) ∧
    (let t := blockErase.target
     let u : PressUnit := { group := 0, worker := .op 0, banks := [7], cont := true }
     let s := (pressed blockErase).setNv { (pressed blockErase).nv with units := [u] }
     Inv s ∧ s.pressing (nvGroup t) (.op 0) = true ∧ s.runSensing 0 = false ∧
     isAux t = false ∧ (∀ k ∈ nvBanks t, k < 8) ∧ nvBanks t ≠ [] ∧ nvBlock t = 17 ∧ (s.block 0 7 17).state ≠ .inUse ∧
     (s.block 0 7 17).state ≠ .bad) ∧
    (let x := pressing 6 (11 + 16 * 15) 0 0
     let m : BandMove := { group := 11, band := 15, kind := .refresh, rescue := false, rows := some 1, prog := 1,
                           dest := List.replicate 8 16 }
     let s := pressed x
     let s := (s.setNv { s.nv with moves := [m] }).setBand 11 15 { used := 1, reads := 5, overRated := false }
     Inv s ∧ s.coreOn = true ∧ s.remapDue 11 = some m ∧ m.dest.length = 8 ∧ x.target = 11 + 16 * m.band ∧
     s.runSensing 0 = false) := by decide +kernel

theorem witness_SuspendAndFirmware :
    (let x : PressOp := { pressing 2 (2 ^ 63 + 673) 0 1 with src := .firmware, under := [673] }
     let s := pressed x
     Inv s ∧ s.nv.press = [x] ∧ x.onPair 1 = true ∧ ({ x with suspended := true } : PressOp).onPair 1 = true ∧
     ({ x with under := [674] } : PressOp).onPair 2 = false) ∧
    (Serving up ∧ Inv up ∧ Allowed up .hostP Key.fwStageData 256 ∧ up.cmdRunning Key.fwUpdate = false ∧
     up.rd Key.fwStageOffset ≤ 655104 ∧ (up.wr Key.fwStageOffset 655104).rd Key.fwStageOffset = 655104 ∧
     (up.wr Key.fwStageOffset 655105).rd Key.fwStageOffset = 655105) ∧
    (let a := natLe 4 655360 ++ [0, 0, 0, 0]
     Allowed up .hostP Key.fwUpdate a.length ∧ fieldLe a 4 1 = 0 ∧ fieldLe a 5 3 = 0 ∧ fieldLe a 0 4 = 655360 ∧
     up.imageOk up.nv.fwStage 655360 = false ∧ up.rd Key.bootSlot = 0 ∧ (up.wr Key.bootSlot 1).rd Key.bootSlot ≠ 0) := by
  decide +kernel

/-- FW_UPDATE of the signed image, at its own length and at the longest. -/
theorem witness_SuspendAndFirmware_image :
    let s := up.setNv { up.nv with fwStage := fwMem }
    s.nv.fwStage = fwMem ∧ s.imageOk fwMem 513 = true ∧ s.imageOk fwMem 655360 = true :=
  ⟨by simp only [State.setNv], fwMem_imageOk _ (by simp only [up]; rfl) (by decide +kernel) _ (by omega) (by omega),
    fwMem_imageOk _ (by simp only [up]; rfl) (by decide +kernel) _ (by omega) (by omega)⟩

/-- R590: bits only rise in the OTP row, and R607: DONE of OTP_PROGRAM is 8. -/
theorem test_otp_bits_rise :
    gives (.pressOpComplete 0 {}) ((pressed (pressing 5 0x140 2 0)).setNv
      { (pressed (pressing 5 0x140 2 0)).nv with otp := [(0x140, 1)] }) (fun t => t.nv.otp == [(0x140, 3)] && t.nv.press == [])
      = true := by decide +kernel

/-! ### Statements of 14 -/

/-- `s` with these extents of T1 and T2. -/
def withExtents (s : State) (l : List Extent) : State := s.setTiers { s.tiers with extents := l }

/-- `s` with these UNIFIED leaves of Q0. -/
def withUnified (s : State) (l : List (Nat × Home)) : State :=
  s.modQuire 0 fun x => { x with unified := l.map fun p => (p.1, { home := p.2, lastRead := 0 }) }

/-- ALLOC of `count` leaves, TIER and AFLAGS. -/
def allocEntry (count tier aflags : Nat) : List Byte := [5, 0, 0, 0, 0, 0, 0, 0] ++ natLe 4 count ++ natLe 1 tier ++ natLe 1 aflags

def t2Extent (first count : Nat) (use : Use) : Extent := { place := .t2, first := first, count := count, use := use }

/-- The commons all released and awaiting zeroing, or all another quire's. -/
def commonsBusy (use : Use) : State :=
  withExtents (starting (allocEntry 100 1 8)) [{ place := .commons, first := 0, count := 1985, use := use }]

theorem witness_AllocAnswers :
    (let b := allocEntry 100 2 0
     let e := entryOf (pad64 b)
     let s := starting b
     CqRoom s 0 ∧ s.startable 0 0 5 = some e ∧ s.rd (Key.qPlacement 0) = 0 ∧ flagsHeadroom s 0 e = 100 ∧ allocPlace e = .t2 ∧
     RunClear s .t2 Use.any 0 100 ∧ flagsHeadroom (starting (allocEntry 101 2 0)) 0 (entryOf (pad64 (allocEntry 101 2 0))) < 101) ∧
    (let z := commonsBusy (.zeroing 1 false)
     CqRoom z 0 ∧ z.startable 0 0 5 = some (entryOf (pad64 (allocEntry 100 1 8))) ∧
     RunClear z .commons Use.taken 0 100 ∧ z.unzeroed .commons 0 100 = true) ∧
    (let z := commonsBusy (.alloc 1)
     CqRoom z 0 ∧ z.startable 0 0 5 = some (entryOf (pad64 (allocEntry 100 1 8))) ∧
     100 ≤ flagsHeadroom z 0 (entryOf (pad64 (allocEntry 100 1 8)))) ∧
    (let z := (starting (allocEntry 100 2 0)).wr (Key.qPlacement 0) 1
     CqRoom z 0 ∧ z.startable 0 0 5 = some (entryOf (pad64 (allocEntry 100 2 0))) ∧ z.rd (Key.qPlacement 0) = 1 ∧
     z.headT2 0 = 100 ∧ 100 ≤ z.rd Key.t2QuotaCap ∧ z.tiers.extents = [] ∧ (z.quire 0).unified = []) := by decide +kernel

/-- No run of 100 leaves is clear in commons that one extent fills. -/
theorem witness_AllocAnswers_noRun (u : Use) (f : Use → Bool) (h : f u = true) (m : Nat) :
    ¬ RunClear (commonsBusy u) .commons f m 100 := by
  intro c
  have hl : (commonsBusy u).placeLeaves .commons = 1473 := by simp only [commonsBusy, withExtents]; rfl
  have h1 := c.1
  rw [hl] at h1
  have h2 := c.2 { place := .commons, first := 0, count := 1985, use := u } (by simp [commonsBusy, withExtents, State.setTiers]) rfl h
  simp only at h2
  omega

/-- FREE of leaves of B0's slice from leaf 5 on. -/
def freeEntry (leaf count : Nat) : List Byte :=
  [6, 0, 0, 0, 0, 0, 0, 0] ++ natLe 8 ({ form := .slice 0, leaf := leaf } : Addr).encode ++ natLe 4 count

def sliceExtent (first count : Nat) : Extent := { place := .slice 0, first := first, count := count, use := .alloc 0 }

theorem witness_FreeReleases :
    (∀ p ∈ [(5, 2), (6, 2)],
      let b := freeEntry p.1 p.2
      let s := withExtents (starting b) [sliceExtent 5 2]
      Inv s ∧ CqRoom s 0 ∧ s.startable 0 0 6 = some (entryOf (pad64 b)) ∧
      addrOf (fieldLe (pad64 b) 8 8) = some { form := .slice 0, leaf := p.1 } ∧
      s.extentsOf (.slice 0) (Use.isAlloc 0) = [sliceExtent 5 2] ∧ s.leavesBound 0 { form := .slice 0, leaf := p.1 } p.2 = false ∧
      s.masterMeets 0 { form := .slice 0, leaf := p.1 } p.2 = false) ∧
    (let s := (withExtents (starting (freeEntry 5 2)) [sliceExtent 5 2]).modQuire 0 fun x =>
       { x with runs := [{ run0 [] with binds := [sliceBind 1] }] }
     s.leavesBound 0 { form := .slice 0, leaf := 5 } 2 = true ∧ s.startable 0 0 6 = some (entryOf (pad64 (freeEntry 5 2)))) := by
  decide +kernel

/-- COPY of `count` leaves. -/
def copyEntry (a b : Addr) (count : Nat) : List Byte :=
  [8, 0, 0, 0, 0, 0, 0, 0] ++ natLe 8 a.encode ++ natLe 8 b.encode ++ natLe 4 count

def copying (a b : Addr) (count : Nat) : State := withExtents (starting (copyEntry a b count)) [sliceExtent 5 3]

def at_ (n : Nat) : Addr := { form := .slice 0, leaf := n }

theorem witness_CopyMovesFrames :
    (∀ p ∈ [(at_ 5, at_ 6, 2), (at_ 7, at_ 6, 2), (at_ 5, at_ 7, 2), (at_ 5, { form := .t4, leaf := 12411 }, 2)],
      let s := copying p.1 p.2.1 p.2.2
      Inv s ∧ CqRoom s 0 ∧ s.startable 0 0 8 = some (entryOf (pad64 (copyEntry p.1 p.2.1 p.2.2))) ∧
      addrOf (fieldLe (pad64 (copyEntry p.1 p.2.1 p.2.2)) 8 8) = some p.1 ∧
      addrOf (fieldLe (pad64 (copyEntry p.1 p.2.1 p.2.2)) 16 8) = some p.2.1) ∧
    (let s := copying (at_ 5) (at_ 6) 2
     (∀ i, i < 2 → s.allocated 0 (.slice 0) (5 + i) = true ∧ s.allocated 0 (.slice 0) (6 + i) = true) ∧
     (∀ i, i < 2 → s.isXo (.slice 0) (5 + i) = false) ∧ (s.setXo (.slice 0) 6 true).isXo (.slice 0) (5 + 1) = true ∧
     s.copyTagged 0 (at_ 5) 2 = false ∧
     (let r : Run := { run0 [] with scopes := [scope1], rangeTags := [((at_ 6).encode, 2)] }
      (s.modQuire 0 fun x => { x with runs := [r] }).copyTagged 0 (at_ 5) 2 = true)) ∧
    (copying (at_ 7) (at_ 6) 2).firstForeign 0 (at_ 7) 2 false = some 1 ∧
    (copying (at_ 5) (at_ 7) 2).firstForeign 0 (at_ 5) 2 false = none ∧
    (copying (at_ 5) (at_ 7) 2).firstForeign 0 (at_ 7) 2 true = some 1 ∧
    (copying (at_ 5) { form := .t4, leaf := 12411 } 2).windowLeaves 0 = 12412 := by decide +kernel

/-- MIGRATE_HINT of one leaf. -/
def hintEntry (a : Addr) (tier : Nat) : List Byte := [7, 0, 0, 0, 0, 0, 0, 0] ++ natLe 8 a.encode ++ natLe 4 1 ++ natLe 1 tier

def unified3 : Addr := { form := .unified, leaf := 3 }

theorem witness_HintsMigrate :
    (let b := hintEntry (at_ 5) 1
     let s := withExtents (starting b) [sliceExtent 5 1]
     Inv s ∧ CqRoom s 0 ∧ s.startable 0 0 7 = some (entryOf (pad64 b)) ∧ addrOf (fieldLe (pad64 b) 8 8) = some (at_ 5) ∧
     (s.quire 0).hints = [] ∧ at_ 5 = Addr.ofPlace (.slice 0) 5 ∧ s.allocated 0 (.slice 0) 5 = true) ∧
    (let b := hintEntry unified3 1
     let s := withUnified (starting b) [(3, .t2 9)]
     Inv s ∧ CqRoom s 0 ∧ s.startable 0 0 7 = some (entryOf (pad64 b)) ∧ addrOf (fieldLe (pad64 b) 8 8) = some unified3 ∧
     Tab.find (s.quire 0).unified 3 = some { home := .t2 9, lastRead := 0 } ∧ s.usedT1 0 < s.rd (Key.qQuota 0 1) ∧
     s.pickOne .commons = some 0 ∧ s.uPinned 0 3 = false) ∧
    (let b := hintEntry unified3 2
     let s := withUnified (starting b) [(3, .commons 9)]
     let r : Run := { run0 [] with binds := [{ kind := 2, bflags := 0, value := 1, addr := unified3.encode }] }
     Inv s ∧ s.startable 0 0 7 = some (entryOf (pad64 b)) ∧ s.uPinned 0 3 = false ∧ s.isXo .commons 9 = false ∧
     s.usedT2 0 < s.rd (Key.qQuota 0 2) ∧ s.pickOne .t2 = some 0 ∧ (s.setXo .commons 9 true).isXo .commons 9 = true ∧
     (s.wr (Key.qQuota 0 2) 0).rd (Key.qQuota 0 2) ≤ (s.wr (Key.qQuota 0 2) 0).usedT2 0 ∧
     (s.modQuire 0 fun x => { x with runs := [r] }).uPinned 0 3 = true) ∧
    (let b := hintEntry { form := .t3 4096, leaf := 31 } 1
     let s := withText (starting b)
     Inv s ∧ s.startable 0 0 7 = some (entryOf (pad64 b)) ∧ s.validHandle 0 4096 = some 0 ∧
     addrOf (fieldLe (pad64 b) 8 8) = some { form := .t3 4096, leaf := 31 } ∧ 31 + 1 ≤ 32 * (s.lib 0).stripes ∧
     (s.lib 0).man.xoStripe 0 = true) := by decide +kernel

theorem witness_MigrationArrives :
    (let s := withUnified up [(3, .toCommons 9 0)]
     Inv s ∧ Tab.find (s.quire 0).unified 3 = some { home := .toCommons 9 0, lastRead := 0 } ∧ (s.quire 0).hints = [] ∧
     s.unzeroed .commons 0 1 = false ∧
     (withExtents s [{ place := .commons, first := 0, count := 1, use := .zeroing 1 false }]).unzeroed .commons 0 1 = true) ∧
    (let s := withUnified up [(3, .toT2 9 0)]
     Inv s ∧ Tab.find (s.quire 0).unified 3 = some { home := .toT2 9 0, lastRead := 0 } ∧ (s.quire 0).hints = [] ∧
     s.unzeroed .t2 0 1 = false ∧ (withExtents s [t2Extent 0 1 (.zeroing 1 false)]).unzeroed .t2 0 1 = true) := by decide +kernel

theorem witness_ZeroingEnds :
    let x := t2Extent 9 2 (.zeroing 0 false)
    let s := withExtents up [x]
    let s := s.setTiers { s.tiers with jobs := [{ extents := [x], purpose := .release }] }
    Inv s ∧ s.coreOn = true ∧ s.tiers.jobs = { extents := [x], purpose := .release } :: [] ∧ s.unzeroed .t2 10 1 = true := by
  decide +kernel

theorem witness_Bar2Accesses :
    (Inv up ∧ up.boot ≠ .recovery ∧ up.coreOn = true ∧ up.pm.entry = none ∧ up.clk.lpddrPll = true) ∧
    (up.bar2Takes 0x01FFFFFC 4 = true ∧ up.bar2Takes producedAt 4 = true ∧ producedAt + 4 ≤ (BitVec.ofNat 28 (producedAt + 4)).toNat) ∧
    (∀ w : Fin 2, up.bar2Takes (windowBase w + 8448 * 5956 + 8192) 256 = true) ∧
    (let s := (withExtents up [sliceExtent 5 2]).wrs [(Key.bar2Win0Quire, 0), (Key.bar2Win0Addr, (at_ 5).encode), (Key.bar2Win1Quire, 8)]
     Inv s ∧ s.rd Key.bar2Win0Quire = (0 : QNum).val ∧ 8 ≤ s.rd Key.bar2Win1Quire ∧
     addrOf (s.rd Key.bar2Win0Addr) = some (at_ 5) ∧ s.resolve 0 ((at_ 5).advance 1) = .own (.slice 0) 6 false ∧
     s.resolve 0 ((at_ 5).advance 2) = .foreign ∧ s.isXo (.slice 0) 6 = false ∧ (s.setXo (.slice 0) 6 true).isXo (.slice 0) 6 = true ∧
     s.inOpenScope 0 ((at_ 5).advance 1).encode = false ∧
     (let r : Run := { run0 [] with scopes := [scope1], binds := [sliceBind 2] }
      (s.modQuire 0 fun x => { x with runs := [r] }).inOpenScope 0 ((at_ 5).advance 1).encode = true)) := by decide +kernel

theorem witness_RingBytesAndInlineEcc :
    up.bar2Takes 0x0FFFFFF0 16 = true ∧ up.clk.lpddrPll = true ∧ Serving up ∧ Inv up ∧ Allowed up .hostP Key.t2InlineEcc 1 ∧ up.rd Key.t2Channels = 2 ∧
    up.paramFull = false ∧ (∀ p : Fin 4, ((upFrom 1 8).map fun n => up.rd (Key.profQuotaT2 p.val n)).sum ≤ 977082) ∧
    (let s := up.wr (Key.profQuotaT2 3 1) 1000000
     ¬ ((upFrom 1 8).map fun n => s.rd (Key.profQuotaT2 3 n)).sum ≤ 977082) := by decide +kernel

/-- R668, R671: a FLAGS allocation takes the lowest zeroed leaves, and R677: overlapping ranges move as though read first. -/
theorem test_copy_reads_before_it_writes :
    gives (.copy 0 0 []) ((copying (at_ 5) (at_ 6) 2).setTiers
      { (copying (at_ 5) (at_ 6) 2).tiers with slices := Vector.ofFn fun b => if b.val = 0 then [(8448 * 5, 1), (8448 * 6, 2)] else [] })
      (fun t => t.leaf (.slice 0) 6 == [(0, 1)] && t.leaf (.slice 0) 7 == [(0, 2)]) = true := by decide +kernel

/-! ### Statements of 15 -/

/-- A slipcase of one stripe: one OPEN data section, one variant of one bay, in bank group 0; of KIND `kind`, with
SLIP_ARB `epoch`: the signed region. -/
def slipHead (kind epoch : Nat) : List Byte :=
  Mem.readN ([(0, 0x53), (1, 0x4C), (2, 0x50), (3, 0x43), (4, 1), (6, BitVec.ofNat 8 kind), (28, BitVec.ofNat 8 epoch), (29, 1), (80, 120), (84, 1), (89, 0x10),
    (92, 0x20), (93, 3), (104, 1), (304, 1), (305, 1), (320, 4), (321, 1), (324, 1), (328, 1), (360, 1)] : Mem) 0 392

/-- One certificate, of the signer under the root. -/
def slipCert : List Byte := [0x43, 0x45, 0x52, 0x54, 2] ++ List.replicate 11 0 ++ signerPub
def slipCertSig : List Byte :=
  natBe 48 0x4099952208b4889600a5ebbcb13e1a32692befb0733b41e6dcc614e42e5805f817012a991af1f486caf3a9add9ffcc03 ++
  natBe 48 0xb9b7c46289765341766ff4b1de7f86f3f02d44c5b4e81ef3219b732d57125d0d47e816ced5e43e314cb06151588e6bb4

/-- A key record for class 9, whose key is 32 bytes 0x01: the content key is 32 bytes 0x07. -/
def slipRecord : List Byte :=
  [2, 0, 0, 0, 9] ++ List.replicate 123 0 ++ natBe 32 0xed1a009b31edfcf64bdf1ac1c6e627e0706c42ac96bcf20941b6e160a46e7bf7 ++
  natBe 16 0x3801ba213f1a6e10a0983deb110ddefe

/-- The prefix with signature `sig`, up to its key record. -/
def slip (kind epoch : Nat) (sig : List Byte) : List Byte :=
  slipHead kind epoch ++ rootPub ++ slipCert ++ slipCertSig ++ sig ++ List.replicate 8 0 ++ slipRecord

/-- Its signatures: of a text block of epoch 0, and of a tip-in of epoch 1. -/
def sigText : List Byte :=
  natBe 48 0x8d481dab912bc8ab16858a211d750b77e07dbecca86cd9b012390b430467aabf59c8651060801c0e9599e68713f5d41b ++
  natBe 48 0xc661cf5ae09b8895a054acac153c53eb0f57ce8cb4eb83e7ba541e44c3a29723cd50ed39173587c0b506a7e80b788f80
def sigTipin : List Byte :=
  natBe 48 0x3cb647a5df014c23e741a4a8000d5eb822c0102fd4293a78a68749c30c7f9aa484a900a91f7c4ab51e555ebc684aac81 ++
  natBe 48 0x8c104f4cc7035f9176c358863f2281379b46d655021bac2bedb8db136b95ee94bce49f28e83744fa807e6e67c14b6196

/-- A byte list as a prefix is read. -/
def bytesFn (l : List Byte) : Nat → Byte := fun i => l.getD i 0
def textSlip : Nat → Byte := bytesFn (slip 1 0 sigText)
def tipinSlip : Nat → Byte := bytesFn (slip 2 1 sigTipin)

/-- LOAD_SLIPCASE from host memory, with BASE_HANDLE `base`. -/
def loadBytes (base : Nat) : List Byte :=
  [2, 0, 0, 0, 0, 0, 0, 0] ++ natLe 8 0 ++ natLe 8 274432 ++ [0, 0, 0, 0] ++ natLe 4 base

/-- `s` with the root hash in slot 0 and class 9's key installed. -/
def keyed (s : State) : State :=
  ({ s.setNv { s.nv with otp := Mem.writeL [(0x140, 1), (0x160, 1)] 0x80 rootHash } with
    sec := { s.sec with keys := true, classKeys := [(1, leNat (natLe 4 9 ++ List.replicate 32 1))] } } : State).wr (Key.classId 1) 9

/-- Q0 about to load. -/
def loadReady (base : Nat) : State := keyed (starting (loadBytes base))

def loadOf (p : List Byte) (base : Nat) : Load :=
  { quire := 0, entry := entryOf (pad64 (loadBytes base)), prefixBytes := p, running := true, lib := none, staged := false,
    session := none, key := [], chunks := 0, chunkCount := 0, body := [], badChunk := none, turns := [] }

/-- A part of a prefix. -/
theorem slipPart_bytes (l : List Byte) (o n : Nat) (h : o + n ≤ l.length) : slipPart (bytesFn l) o n = (l.drop o).take n := by
  apply List.ext_getElem
  · simp [slipPart]; omega
  · intro i h1 h2
    have hi : i < n := by simpa [slipPart] using h1
    simp [slipPart, bytesFn, List.getD_eq_getElem?_getD, show o + i < l.length by omega]

/-- The lengths of the parts of a prefix (R715a). -/
theorem slip_form :
    (slip 1 0 sigText).length = 976 ∧ (slip 2 1 sigTipin).length = 976 ∧
    ((parseSlip textSlip).sigStart, (parseSlip textSlip).certs) = (392, 1) ∧
    ((parseSlip tipinSlip).sigStart, (parseSlip tipinSlip).certs) = (392, 1) := by decide +kernel

theorem slip_part (f : Nat → Byte) (k e : Nat) (g l : List Byte) (o n : Nat) (h : f = bytesFn (slip k e g)) (b : o + n ≤ 976)
    (a : (slip k e g).length = 976) (c : ((slip k e g).drop o).take n = l) : slipPart f o n = l := by
  rw [h, slipPart_bytes _ _ _ (by omega), c]

theorem slipCert_signed : ecdsaOk rootPub (sha384 slipCert) slipCertSig = true := by decide +kernel
theorem sigText_signed : ecdsaOk signerPub (sha384 (slipHead 1 0)) sigText = true := by decide +kernel
theorem sigTipin_signed : ecdsaOk signerPub (sha384 (slipHead 2 1)) sigTipin = true := by decide +kernel

/-- R732: a device with the root hash programmed accepts both signatures. -/
theorem textSlip_signed (s : State) (h : s.rootOk (leNat rootHash) = true) : s.signatureOk textSlip = true := by
  obtain ⟨hl, _, hf, _⟩ := slip_form
  obtain ⟨h1, h2⟩ := Prod.mk.inj hf
  have p := fun o n l b c => slip_part textSlip 1 0 sigText l o n rfl b hl c
  have c : certsOk textSlip (parseSlip textSlip) = true := by decide +kernel
  simp only [State.signatureOk, SlipHeader.regionSigned, SlipHeader.certSigned, SlipHeader.issuer, SlipHeader.rootPub, h1, h2, c,
    List.range_one, List.all_cons, List.all_nil, Nat.mul_zero, Nat.add_zero, Nat.reduceMul, Nat.reduceAdd, Nat.reduceSub,
    if_true, if_false, one_ne_zero,
    p 392 96 rootPub (by decide) (by decide +kernel), p 488 112 slipCert (by decide) (by decide +kernel),
    p 600 96 slipCertSig (by decide) (by decide +kernel), p 504 96 signerPub (by decide) (by decide +kernel),
    p 0 392 (slipHead 1 0) (by decide) (by decide +kernel), p 696 96 sigText (by decide) (by decide +kernel),
    rootPub_hash, h, slipCert_signed, sigText_signed, Bool.and_self]

theorem tipinSlip_signed (s : State) (h : s.rootOk (leNat rootHash) = true) : s.signatureOk tipinSlip = true := by
  obtain ⟨_, hl, _, hf⟩ := slip_form
  obtain ⟨h1, h2⟩ := Prod.mk.inj hf
  have p := fun o n l b c => slip_part tipinSlip 2 1 sigTipin l o n rfl b hl c
  have c : certsOk tipinSlip (parseSlip tipinSlip) = true := by decide +kernel
  simp only [State.signatureOk, SlipHeader.regionSigned, SlipHeader.certSigned, SlipHeader.issuer, SlipHeader.rootPub, h1, h2, c,
    List.range_one, List.all_cons, List.all_nil, Nat.mul_zero, Nat.add_zero, Nat.reduceMul, Nat.reduceAdd, Nat.reduceSub,
    if_true, if_false, one_ne_zero,
    p 392 96 rootPub (by decide) (by decide +kernel), p 488 112 slipCert (by decide) (by decide +kernel),
    p 600 96 slipCertSig (by decide) (by decide +kernel), p 504 96 signerPub (by decide) (by decide +kernel),
    p 0 392 (slipHead 2 1) (by decide) (by decide +kernel), p 696 96 sigTipin (by decide) (by decide +kernel),
    rootPub_hash, h, slipCert_signed, sigTipin_signed, Bool.and_self]

/-- RFC 5869 and SP 800-38D: the key record opens under the key derived from the class key (R731). -/
theorem slipRecord_opens :
    gcmOpen (wrapKey (List.replicate 32 1) 0) (natLe 12 0) (natLe 16 0 ++ natLe 4 0) ((slipRecord.drop 128).take 32)
      (slipRecord.drop 160) = some (List.replicate 32 7) := by decide +kernel

/-- The fields of the header and the manifest of a slipcase that the checks read. -/
theorem witness_LoadSteps_form :
    headerOk textSlip = true ∧ manifestOk textSlip = true ∧
    fieldLe (pad64 (loadBytes 0)) 16 8 = (parseSlip textSlip).bodyOff + 270336 * (parseSlip textSlip).stripes ∧
    (parseSlip textSlip).kind = 1 ∧ (parseSlip textSlip).epoch = 0 ∧ headerOk tipinSlip = true ∧
    manifestOk tipinSlip = true ∧ (parseSlip tipinSlip).kind = 2 ∧ (parseSlip tipinSlip).epoch = 1 ∧
    headerOk (fun _ => 0) = false := by decide +kernel

/-- Both slipcases are signed on the device, and one whose certificate differs is not. -/
theorem witness_LoadSteps_signed :
    (loadReady 0).signatureOk textSlip = true ∧ (loadReady 5).signatureOk tipinSlip = true ∧
    (loadReady 0).signatureOk (bytesFn ((slip 1 0 sigText).set 488 0)) = false :=
  ⟨textSlip_signed _ (by decide +kernel), tipinSlip_signed _ (by decide +kernel), by decide +kernel⟩

/-- The content key comes from the record of class 9; without the class key there is none. -/
theorem witness_LoadSteps_key :
    (loadReady 0).contentKey textSlip = some (2, 9, List.replicate 32 7) ∧
    (loadReady 5).contentKey tipinSlip = some (2, 9, List.replicate 32 7) ∧
    (starting (loadBytes 0)).contentKey textSlip = none := by
  have u : (loadReady 0).usableRecord textSlip (parseSlip textSlip) = some (800, 2, 9) := by decide +kernel
  have v : (loadReady 5).usableRecord tipinSlip (parseSlip tipinSlip) = some (800, 2, 9) := by decide +kernel
  have k (b : Nat) : ((loadReady b).classKeyOf 9).getD [] = List.replicate 32 1 := by
    rw [show (loadReady b).classKeyOf 9 = some (List.replicate 32 1) from by
      simp only [loadReady, keyed, State.classKeyOf]; rfl]
    rfl
  have pt := fun o n l b c => slip_part textSlip 1 0 sigText l o n rfl b slip_form.1 c
  have pp := fun o n l b c => slip_part tipinSlip 2 1 sigTipin l o n rfl b slip_form.2.1 c
  have m1 : (parseSlip textSlip).modelId = 0 ∧ (parseSlip textSlip).version = 0 := by decide +kernel
  have m2 : (parseSlip tipinSlip).modelId = 0 ∧ (parseSlip tipinSlip).version = 0 := by decide +kernel
  refine ⟨?_, ?_, by decide +kernel⟩
  · simp only [State.contentKey, u, State.unwrap, k, m1, Nat.reduceAdd, OfNat.ofNat_ne_one, if_false,
      pt 912 12 (natLe 12 0) (by decide) (by decide +kernel), pt 928 32 ((slipRecord.drop 128).take 32) (by decide) (by decide +kernel),
      pt 960 16 (slipRecord.drop 160) (by decide) (by decide +kernel), slipRecord_opens, Option.map_some]
  · simp only [State.contentKey, v, State.unwrap, k, m2, Nat.reduceAdd, OfNat.ofNat_ne_one, if_false,
      pp 912 12 (natLe 12 0) (by decide) (by decide +kernel), pp 928 32 ((slipRecord.drop 128).take 32) (by decide) (by decide +kernel),
      pp 960 16 (slipRecord.drop 160) (by decide) (by decide +kernel), slipRecord_opens, Option.map_some]

theorem witness_LoadSteps :
    (let s := loadReady 0
     let g := textSlip
     Inv s ∧ CqRoom s 0 ∧ s.startable 0 0 2 = some (entryOf (pad64 (loadBytes 0))) ∧
     (entryOf (pad64 (loadBytes 0))).srcKind = 0 ∧ s.loadsRunning < 4 ∧ s.keysLive = true ∧
     (∀ x, x < 64 → (s.lib x).state = .empty) ∧ s.arbSlipcase = 0 ∧
     s.loadBase (loadOf (slip 1 0 sigText) 0) (parseSlip g) (parseMan g) = some 0xFF ∧
     (parseMan g).variants.length = 1 ∧ s.fits 0 (parseMan g) 1 0 = true ∧ s.rowsFor (parseMan g) 0 1 = true ∧ s.freeEntry = some 0) ∧
    (let s := loadReady 5
     let g := tipinSlip
     Inv s ∧ s.startable 0 0 2 = some (entryOf (pad64 (loadBytes 5))) ∧ (entryOf (pad64 (loadBytes 5))).baseHandle ≠ 0 ∧
     s.arbSlipcase ≤ (parseSlip g).epoch ∧ (s.setNv { s.nv with otp := Mem.writeL s.nv.otp 0x158 [3] }).arbSlipcase = 2 ∧
     s.loadBase (loadOf (slip 2 1 sigTipin) 5) (parseSlip g) (parseMan g) = none) ∧
    (let s := (loadReady 0).wr (Key.qQuota 0 3) 0
     Inv s ∧ s.fits 0 (parseMan textSlip) 1 0 = false) ∧
    (let s := (List.range 16).foldl (fun s b => s.setBand 0 b { used := 512, reads := 0, overRated := false }) (loadReady 0)
     Inv s ∧ s.fits 0 (parseMan textSlip) 1 0 = true ∧ s.rowsFor (parseMan textSlip) 0 1 = false) ∧
    (let s := starting (loadBytes 0)
     Inv s ∧ s.keysLive = false ∧ s.startable 0 0 2 = some (entryOf (pad64 (loadBytes 0)))) := by decide +kernel

/-- A load of entry 63 from host memory at the end of its body, all of whose programs have ended. -/
def bodyLoad : Load := { loadOf [] 0 with lib := some 63, turns := [0] }

/-- A device with `l`, its entry naming the content hash `hash` and the impositions `imps`. -/
def bodyReady (l : Load) (hash : Nat) (imps : List ImpRec) : State :=
  let x : LibEntry := { oneText with state := .loading, stripes := 0, rows := [], hash := hash, man := { oneText.man with imps := imps } }
  let s := (working.modQuire 0 fun x => { x with started := [{ entry := l.entry, work := .load }] }).setLib 63 x
  s.setNv { s.nv with loads := [l] }

/-- SHA-384 of no bytes. -/
def emptyHash : Nat :=
  leNat (natBe 48 0x38b060a751ac96384cd9327eb1b1e36a21fdb71114be07434c0cc7bf63f6e1da274edebfe76f65fbd51ad2f14898b95b)

theorem witness_LoadsInstall :
    (∀ imps ∈ [[], oneText.man.imps],
      let s := bodyReady bodyLoad emptyHash imps
      let m := bodyLoad.readBody (s.lib 63) []
      Inv s ∧ CqRoom s 0 ∧ Lively s 0 ∧ s.coreOn = true ∧ (∀ a ∈ s.weave.aptReads, a.entry ≠ 63) ∧
      (s.nv.loads.find? fun l => l.quire == 0 && l.lib == some 63) = some bodyLoad ∧ bodyLoad.staged = false ∧
      s.allProgrammed 63 bodyLoad.turns = true ∧ m.badChunk = none ∧ m.body = [] ∧ (s.lib 63).stripes = 0 ∧
      (s.lib 63).hash = emptyHash ∧ (s.lib 63).hash ≠ 0 ∧ ((s.programStripes 63 []).impsFail 63).isSome = !imps.isEmpty) ∧
    bodyHash [] 0 = emptyHash ∧
    (let s := bodyReady bodyLoad 0 []
     Inv s ∧ (s.lib 63).hash = 0 ∧ s.allProgrammed 63 bodyLoad.turns = true) ∧
    (let s := bodyReady bodyLoad 0 []
     let u : PressUnit := { group := 0, worker := .entry 63, banks := [0], cont := true }
     let s := s.setNv { s.nv with units := [u] }
     Inv s ∧ s.allProgrammed 63 bodyLoad.turns = false) := by decide +kernel

/-- LINK_TEXT_BLOCK of the content hash 0. -/
def linkReady : State := withText (starting ([4, 0, 0, 0, 0, 0, 0, 0] ++ natLe 48 0))

theorem witness_LinksHandOut :
    (let s := linkReady
     Inv s ∧ CqRoom s 0 ∧ s.startable 0 0 4 = some (entryOf (pad64 ([4, 0, 0, 0, 0, 0, 0, 0] ++ natLe 48 0))) ∧
     (s.lib 0).installed = true ∧ (s.lib 0).hash = 0 ∧ bit (s.rd (Key.libLinkMask 1)) 0 = true ∧ (s.lib 0).state = .installed ∧
     (s.lib 0).base = none ∧ s.rd (Key.qHandle 0 1) ≠ 0) ∧
    (let s := linkReady.wr (Key.qHandle 0 1) 0
     Inv s ∧ s.rd (Key.qHandle 0 1) = 0 ∧ (s.lib 0).man.samePlace 0 0 = true ∧ s.fits 0 (s.lib 0).man 1 0 = true ∧
     (s.wr (Key.qQuota 0 3) 0).fits 0 (s.lib 0).man 1 0 = false) ∧
    (let s := linkReady.setLib 0 { oneText with state := .damaged }
     Inv s ∧ (s.lib 0).state = .damaged ∧ (s.lib 0).installed = true ∧ (∀ n, n < 64 → n ≠ 0 → (s.lib n).installed = false)) ∧
    (let s := linkReady.setLib 0 { oneText with state := .relocating }
     Inv s ∧ (s.lib 0).installed = true ∧ (s.lib 0).state ≠ .installed ∧ (s.lib 0).state ≠ .damaged) ∧
    (let s := linkReady.setLib 0 { oneText with base := some 63 }
     Inv s ∧ (s.lib 0).base = some 63 ∧ s.rd (Key.qHandle 0 64) = 0) ∧
    (let s := linkReady.wr (Key.libLinkMask 1) 0
     Inv s ∧ ∀ n, n < 64 → bit (s.rd (Key.libLinkMask (n + 1))) 0 = true → (s.lib n).installed = false) := by decide +kernel

theorem witness_UnloadReleases :
    let s := withText (starting ([3, 0, 0, 0, 0, 0, 0, 0] ++ natLe 4 4096))
    CqRoom s 0 ∧ s.startable 0 0 3 = some (entryOf (pad64 ([3, 0, 0, 0, 0, 0, 0, 0] ++ natLe 4 4096))) ∧ Inv s ∧
    s.validHandle 0 4096 = some 0 ∧ s.textBound 0 4096 = false ∧ (s.wr (Key.qHandle 0 1) 0).validHandle 0 4096 = none ∧
    (s.modQuire 0 fun x => { x with runs := [{ run0 [] with binds := [{ kind := 3, bflags := 0, value := 4096, addr := 0 }] }] }).textBound 0 4096 =
      true := by decide +kernel

theorem witness_LibraryRemovals :
    (Serving up ∧ Inv up ∧ Allowed up .hostP Key.libRemove 1 ∧ up.cmdRunning Key.libRemove = false ∧
     (up.lib 63).installed = false ∧ leNat [63] = 63) ∧
    (let s := up.setLib 63 { oneText with removeReq := true }
     Inv s ∧ (s.lib 63).installed = true ∧ s.holders 63 = [] ∧ s.tipins 63 = [] ∧ s.removable 63 = true ∧ s.removable 0 = false) := by
  decide +kernel

theorem witness_StagingAdvances :
    (Inv up ∧ up.barUp = true ∧ up.up = true ∧ up.coreOn = true ∧ up.pm.entry = none ∧ up.clk.lpddrPll = true ∧ up.nv.loads = []) ∧
    (let l : Load := { loadOf [] 0 with lib := some 63, chunkCount := 1, staged := true }
     let s := bodyReady l 0 []
     Inv s ∧ (s.nv.loads.find? fun l => l.staged && l.lib.isSome) = some l ∧ l.chunkCount < 2 ^ 32 ∧ l.chunks ≤ 1 ∧
     (s.nv.loads.find? fun l =>
       l.staged && l.lib.isSome && l.badChunk.isNone && decide (l.chunks < l.chunkCount)) = some l ∧ CqRoom s l.quire ∧
     (∀ a ∈ s.weave.aptReads, a.entry ≠ 63) ∧ Lively s l.quire) := by decide +kernel

theorem witness_PeerTransfers :
    Serving up ∧ Inv up ∧ Allowed up .hostP Key.peerAccept 4 ∧ up.cmdRunning Key.peerAccept = false ∧
    Allowed up .hostP Key.peerExport 112 ∧ up.cmdRunning Key.peerExport = false ∧ (up.lib 63).installed = false ∧
    (let a : List Byte := [7, 0, 0, 0]
     fieldLe a 0 1 = (7 : QNum).val ∧ fieldLe a 1 3 = 0 ∧ fieldLe [8, 0, 0, 0] 0 1 = 8) ∧
    fieldLe (natLe 112 63) 0 1 = 63 ∧ fieldLe (natLe 112 63) 1 3 = 0 ∧ fieldLe (natLe 112 319) 1 3 ≠ 0 ∧
    (let s := keyed (up.setLib 63 { oneText with peerOk := true, wrap := 3, classId := 9 })
     Serving s ∧ Allowed s .hostP Key.peerExport 112 ∧ s.cmdRunning Key.peerExport = false ∧
     s.classKeyOf (s.lib 63).classId = some (List.replicate 32 1) ∧ Inv s ∧ (s.lib 63).installed = true ∧ (s.lib 63).damaged = false ∧ (s.lib 63).kind = 1 ∧ (s.lib 63).peerOk = true ∧
     (s.lib 63).wrap = 3) := by decide +kernel

/-- R761, R762: the handle goes and the removal of the entry is requested; R718: a handle names generation, quire, entry. -/
theorem test_unload_lets_go :
    gives (.unload 0 0) (withText (starting ([3, 0, 0, 0, 0, 0, 0, 0] ++ natLe 4 4096)))
      (fun t => t.rd (Key.qHandle 0 1) == 0 && (t.lib 0).removeReq && (t.lib 0).state == .installed) = true ∧
    mkHandle 1 7 63 = 0x173F := by decide +kernel

/-! ### Statements of 16 -/

/-- A tip-in of one leaf on the base in entry 1, in entry 0, held by Q0. -/
def tipin : LibEntry :=
  { oneText with kind := 2, base := some 1, man := { oneText.man with sections := [{ kind := 3, isOpen := false, leaves := 1 }], imps := [] } }

/-- `s` with a tip-in in entry 0 whose one leaf is of FORMAT `fmt`. -/
def withTipin (s : State) (fmt : Nat) (x : LibEntry) : State := (s.setNv { s.nv with main := [(1, BitVec.ofNat 8 fmt)] }).setLib 0 x

def trainBytes : List Byte := [0x0C, 0, 0, 0, 0, 0, 0, 0] ++ natLe 4 4096 ++ natLe 4 0 ++ natLe 8 (at_ 5).encode

/-- Q0 about to train the tip-in, its 6 master leaves in B0's slice. -/
def training (fmt : Nat) : State :=
  withTipin (withText (withExtents (starting trainBytes) [sliceExtent 5 6])) fmt tipin

theorem witness_TrainChecks :
    (let s := training 2
     let x := s.lib 0
     Inv s ∧ CqRoom s 0 ∧ s.startable 0 0 0x0C = some (entryOf (pad64 trainBytes)) ∧
     addrOf (fieldLe (pad64 trainBytes) 16 8) = some (at_ 5) ∧ (s.quire 0).train = none ∧ s.loadsRunning = 0 ∧
     (∀ p, (s.quire p).train = none) ∧ s.validHandle 0 4096 = some 0 ∧ x.kind = 2 ∧ x.tiles (s.libFrame 0) = some [[0]] ∧
     masterLeaves (s.libFrame 0) [[0]] = 6 ∧ x.state = .installed ∧ s.masterForeign 0 (at_ 5) 6 = none ∧ ceilDiv x.stripes 4 ≤ s.headT3 0 ∧
     s.freeEntry = some 1 ∧ s.holds 0 1 = false ∧ s.rowsFor x.man x.variant x.stripes = true ∧
     (withExtents s [sliceExtent 5 5]).masterForeign 0 (at_ 5) 6 = some 5 ∧
     (s.wr (Key.qQuota 0 3) 1).headT3 0 < ceilDiv x.stripes 4 ∧ (s.wr (Key.qHandle 0 1) 0).validHandle 0 4096 = none ∧
     ((List.range 16).foldl (fun s b => s.setBand 0 b { used := 512, reads := 0, overRated := false }) s).rowsFor x.man x.variant
       x.stripes = false) ∧
    (let s := training 1
     Inv s ∧ s.startable 0 0 0x0C = some (entryOf (pad64 trainBytes)) ∧ (s.lib 0).tiles (s.libFrame 0) = none) ∧
    (let u : Train := { entry := entryOf [], oldEntry := 0, newEntry := 1, master := 0, masterLeaves := 0, stats := [], frames := [], turns := [] }
     let s := (training 2).modQuire 1 fun x => { x with train := some u }
     Inv s ∧ (s.quire 1).train = some u ∧ s.validHandle 0 4096 = some u.oldEntry) ∧
    (∀ st ∈ [LibState.damaged, .relocating], ((training 2).setLib 0 { tipin with state := st }).validHandle 0 4096 = some 0 ∧
      (((training 2).setLib 0 { tipin with state := st }).lib 0).state = st) := by
  decide +kernel

/-- Q0's commit at its switch, its master leaves at `a`: entry 0 held, entry 63 new, with its stripes in `rows`. -/
def switchReady (a : Addr) (rows : Tab Nat) : State :=
  let u : Train := { entry := entryOf (pad64 trainBytes), oldEntry := 0, newEntry := 63, master := a.encode, masterLeaves := 6,
                     stats := [0, 0, 0, 0, 0], frames := [], turns := [0] }
  let s := withTipin (withText (withExtents working [sliceExtent 5 6, t2Extent 9 6 (.alloc 0)])) 2 tipin
  (s.setLib 63 { tipin with state := .loading, rows := rows }).modQuire 0 fun x =>
    { x with train := some u, started := [{ entry := u.entry, work := .train }] }

theorem witness_TrainSwitches :
    (let s := switchReady (at_ 5) [(0, 0)]
     Inv s ∧ (s.quire 0).train.isSome = true ∧ s.coreOn = true ∧ CqRoom s 0 ∧ Lively s 0 ∧
     ((s.quire 0).train.map fun u => (u.oldEntry, u.newEntry)) = some (0, 63) ∧ (∀ a ∈ s.weave.aptReads, a.entry ≠ 63) ∧
     (∀ g ∈ (s.lib 63).man.groupsNamed (s.lib 63).variant, s.groupInService g = true) ∧ (s.lib 63).man.groupsNamed 0 = [0] ∧
     (s.lib 63).rows ≠ [] ∧ s.rd (Key.qHandle 0 1) = 4096 ∧ s.textBound 0 4096 = false ∧
     (s.modQuire 0 fun x => { x with runs := [{ run0 [] with binds := [{ kind := 3, bflags := 0, value := 4096, addr := 0 }] }] }).textBound 0 4096 =
       true ∧ (s.setNv { s.nv with retired := [(0, 0)] }).groupInService 0 = false) ∧
    (let s := switchReady { form := .t2, leaf := 9 } []
     let e := s.wr Key.t2EccActive 1
     let u : PressUnit := { group := 0, worker := .entry 63, banks := [0], cont := true }
     let w := s.setNv { s.nv with units := [u] }
     Inv e ∧ (e.lib 63).rows = [] ∧ e.rdB Key.t2EccActive = true ∧ ((e.quire 0).train.map (e.masterInT2 0)) = some true ∧
     Inv s ∧ s.rdB Key.t2EccActive = false ∧ s.allProgrammed 63 [0] = true ∧ (s.quire 0).train.map Train.turns = some [0] ∧
     Inv w ∧ w.allProgrammed 63 [0] = false) := by decide +kernel

/-- R788: the old handle goes and the new entry's handle, of the next generation, comes in the same step. -/
theorem test_switch_moves_handle :
    gives (.trainSwitch 0 {}) (switchReady (at_ 5) [(0, 0)])
      (fun t => t.rd (Key.qHandle 0 1) == 0 && t.rd (Key.qHandle 0 64) == 2 * 4096 + 63 && (t.lib 63).state == .installed) = true := by
  decide +kernel

/-! ### Statements of 17 -/

/-- A detector image: one AND layer of 32 inputs and two classes, generators 0 and `g`, 10 ms frames. -/
def detector (g : Nat) : List Byte :=
  Mem.readN ([(0, 0x44), (1, 0x54), (2, 0x4E), (3, 0x53), (4, 1), (6, 1), (7, 10), (9, 2), (12, 0x58), (13, 2), (16, 64), (20, 192),
    (25, 2)] : Mem) 0 64 ++ (List.replicate 32 [1, 0, 0, 0]).flatten ++ List.replicate 320 0 ++
    [0, 2, 0, BitVec.ofNat 8 g, 6, 0xFF, 1, 0] ++ natLe 2 32 ++ natLe 2 2 ++ natLe 4 536 ++ natLe 4 0 ++ natLe 4 0 ++ List.replicate 64 0

/-- A text block in entry 63, at row 0 of its bank group, whose data section holds the image. -/
def detectorText : LibEntry :=
  { oneText with man := { oneText.man with sections := [{ kind := 4, isOpen := false, leaves := 1 }], imps := [] }, rows := [(0, 0)] }

def armable : State :=
  ((up.setNv { up.nv with main := Mem.ofList (List.replicate 256 0 ++ detector 1) }).setLib 63 detectorText).wr (Key.libLinkMask 64) 0x80

/-- SENT_STATE `n`, the image armed. -/
def listens (n g : Nat) : State := (up.setSent { up.sent with image := Mem.ofList (detector g) }).wrs [(Key.sentState, n), (Key.sentEntry, 63)]

theorem witness_ArmAndDisarm :
    (let s := armable
     Serving s ∧ Inv s ∧ s.rdB Key.sentEnable = false ∧ Allowed s .hostP Key.sentArm 4 ∧ Allowed s (.quire 7) Key.sentArm 4 ∧
     s.sentStateNow ≤ 1 ∧ s.cmdRunning Key.sentArm = false ∧ s.holds 7 63 = false ∧ s.armFail 0 0 = some (1, 0xFF) ∧
     s.armFail 63 1 = some (2, 0xFF) ∧ Allowed s .hostP Key.sentDisarm 0 ∧ s.cmdRunning Key.sentDisarm = false) ∧
    (Serving (listens 2 1) ∧ Inv (listens 2 1) ∧ 1 < (listens 2 1).sentStateNow ∧ (listens 1 1).sentStateNow = 1 ∧
     (listens 1 1).rd Key.sentEntry < 64) := by decide +kernel

theorem witness_ArmAndDisarm_image : armable.armFail 63 0 = none := by decide +kernel

theorem witness_ListeningStarts :
    (Serving up ∧ Inv up ∧ Allowed up .hostP Key.sentEnable 1 ∧ up.sentStateNow = 0) ∧
    (let s := listens 1 1
     Inv s ∧ s.rd Key.sentState = 1 ∧ s.sentBound = true ∧ s.sentHeld = false ∧
     (s.wr (Key.profSentinelBind 0) 0).sentBound = false ∧ Allowed s .hostP Key.sentWakeAsserted 1) ∧
    ((listens 3 1).rd Key.sentState = 3 ∧ (listens 3 1).sentHeld = false ∧ (listens 3 1).sent.stopAtEnd = false ∧
     (listens 2 1).rd Key.sentState = 2 ∧ Serving (listens 2 1) ∧ Inv (listens 3 1)) := by decide +kernel

theorem witness_FramesAreJudged :
    (∀ n : Fin 2, let s := listens (n.val + 2) 1
      Inv s ∧ s.pm.entry = none ∧ s.sent.detect = none ∧ s.rd Key.sentState = n.val + 2 ∧ s.sent.stopAtEnd = false ∧
      s.sent.settling = false ∧ correlationFault (layersOf s.sent.image) = none) ∧
    Lively (listens 2 0) 7 ∧ correlationFault (layersOf (listens 2 0).sent.image) = some (0, 0) := by decide +kernel

theorem witness_DetectionsWake :
    let s := up.setSent { up.sent with detect := some (1, -32768, 0) }
    Inv s ∧ s.sent.detect = some (1, -32768, 0) ∧ s.pm.entry = none ∧ s.coreOn = true ∧ s.rd Key.pcieLinkState = 2 ∧
    bit ((s.wrs [(Key.sentWakeCfg, 8), (Key.sentVector, 0)]).rd Key.sentWakeCfg) 3 = true ∧
    (s.wrs [(Key.sentWakeCfg, 8), (Key.sentVector, 0)]).rd Key.sentVector ≠ 0xFF ∧
    (s.wr Key.sentWakeCfg 2).ibiAllowed 1 1 = true := by decide +kernel

/-- R813: two multiplying generators that are one freeze Q7 with cause CORRELATION. -/
theorem test_shared_generator_freezes :
    gives (.sentFrameEnd true [] true) (listens 2 0) (fun t => t.rd Key.sentFramesSkipped == 1 && t.rd Key.sentCorrFaults == 0) = true ∧
    gives (.sentFrameEnd true [] false) (listens 2 0) (fun t => t.rd Key.sentFramesSkipped == 0 && t.rd Key.sentCorrFaults == 1) = true ∧
    winner [500, 7, 9, 9] = (2, 9) := by decide +kernel

/-! ### Statements of 18 -/

/-- Asleep in S-RET, a demand pending. -/
def asleep : State :=
  { up with power := .sRet, pm := { up.pm with demand := true }, clk := { up.clk with nvPll := false, lpddrPll := false, lowOsc := false } }

theorem witness_SleepEntry :
    (Serving up ∧ Inv up ∧ Allowed up .hostP Key.pwrRequest 1 ∧ up.sentStateNow ≠ 2 ∧ (∀ q, up.quiesced q = true) ∧
     up.pressBusy = false ∧ up.tiers.jobs = [] ∧ up.cmdRunning Key.pwrRequest = false ∧ (∀ q, (up.quire q).unified = []) ∧
     up.sent.detect = none ∧ up.listening = false) ∧
    (let s := up.modQuire 7 fun x => { x with state := .running, pwr := .wake }
     Serving s ∧ Inv s ∧ s.quiesced 7 = false) ∧
    (let s := (listens 2 1).modQuire 7 fun x => { x with state := .running, pwr := .wake }
     Serving s ∧ Inv s ∧ s.quiesced 7 = false ∧ s.sentStateNow = 2) ∧
    (let s := listens 2 1
     Serving s ∧ Inv s ∧ s.rd Key.sentState = 2 ∧ s.sentHeld = false ∧ s.sentStateNow = 2 ∧ (∀ q, s.quiesced q = true) ∧
     s.pressBusy = false ∧ s.cmdRunning Key.pwrRequest = false) := by decide +kernel

theorem witness_SleepExit :
    Inv asleep ∧ asleep.coreOn = false ∧ asleep.running = true ∧ asleep.pm.demand = true ∧ asleep.pins.clkin = true ∧ asleep.heldInReset = false ∧ asleep.pm.held = [] ∧
    (∀ q, (asleep.quire q).state ≠ .enabled ∧ (asleep.quire q).state ≠ .running) ∧ up.coreOn = true ∧ Inv up ∧
    (let s : State := { asleep with pins := { asleep.pins with clkin := false } }
     Inv s ∧ s.pins.clkin = false ∧ s.pm.held = [] ∧ s.clk.clkWait = false) := by decide +kernel

theorem witness_GovernorEvaluates :
    Inv up ∧ up.coreOn = true ∧ up.running = true ∧ up.rd Key.pwrSprint = 0 ∧ up.rd (Key.profPowerSustained 0) < 10000 ∧
    (up.wr Key.pwrSprint 1).rd Key.pwrSprint = 1 ∧ (up.wr Key.pwrSprint 2).rd Key.pwrSprint = 2 ∧ up.capNow = up.rd (Key.profPowerSustained 0) := by
  decide +kernel

theorem witness_SprintAndBoard :
    Inv up ∧ Serving up ∧ Allowed up .hostP Key.thermBoardTemp 4 ∧ up.running = true ∧ up.pm.boardStale = false ∧
    toSigned 32 (leNat (natLe 4 (ofSigned 32 (-40 * 65536)))) = -40 * 65536 ∧
    toSigned 32 (leNat (natLe 4 (ofSigned 32 (125 * 65536 + 1)))) = 125 * 65536 + 1 ∧
    (up.setPm { up.pm with boardStale := true }).pm.boardStale = true := by decide +kernel

theorem witness_LinkPower :
    Inv up ∧ up.rd Key.pcieLinkState = linkL0 ∧ ({ up with fn := { up.fn with aspmL1 := true } } : State).fn.aspmL1 = true ∧
    (∀ n : Fin 6, let s := up.wr Key.pcieLinkState n.val
      Inv s ∧ s.rd Key.pcieLinkState = n.val ∧ s.barUp = true ∧ s.coreOn = true) ∧ asleep.coreOn = false ∧
    (asleep.wr Key.pcieLinkState linkTrainingCode).rd Key.pcieLinkState ≤ linkTrainingCode := by decide +kernel

/-- R849, R850: over the cap the level rises by one; at 64 low evaluations in a row it falls by one. -/
theorem test_governor_levels :
    gives (.powerEvaluation 3001 0) (up.wr (Key.profBurstWindow 0) 10) (fun t => t.rd Key.thermLevel == 1 && t.pm.lowCount == 0 && t.rd Key.pwrSprint == 1) = true ∧
    gives (.powerEvaluation 0 0) ((up.wr Key.thermLevel 1).setPm { up.pm with lowCount := 63 })
      (fun t => t.rd Key.thermLevel == 0 && t.pm.lowCount == 0) = true := by decide +kernel

/-! ### Statements of 19 and 20 -/

/-- LC_TRANSITION to state `n`. -/
def lcArg (n : Nat) : List Byte := natLe 1 n ++ [0, 0, 0] ++ natLe 4 0x4C437019

/-- `up` with this OTP row. -/
def withOtp (l : Mem) : State := up.setNv { up.nv with otp := l }

theorem witness_LifecycleMoves :
    (let s := withOtp [(0, 1), (0x55, 1)]
     Serving s ∧ Inv s ∧ Allowed s .factory Key.lcTransition 8 ∧ Allowed s .hostP Key.lcTransition 8 ∧ s.sec.lcHeld = none ∧
     s.cmdRunning Key.lcTransition = false ∧ (∀ n : Fin 4, fieldLe (lcArg n.val) 0 1 = n.val ∧ fieldLe (lcArg n.val) 4 4 = 0x4C437019 ∧
     fieldLe (lcArg n.val) 1 3 = 0) ∧ isFactory .factory = true ∧ isFactory .hostP = false ∧ s.lc = lcBlank ∧ s.serial ≠ 0 ∧ s.otpByte 0x55 ≠ 0) ∧
    (up.lc = lcProvisioned ∧ up.rootReady = false ∧ Serving up ∧ Inv up ∧ Allowed up .hostP Key.lcTransition 8) ∧
    (let s := withOtp [(0x80, 1), (0x140, 1), (0x160, 1)]
     Serving s ∧ Inv s ∧ s.rootReady = true ∧ s.lc = lcProvisioned) ∧ (withOtp [(0x160, 7)]).lc = lcRma := by decide +kernel

theorem witness_LifecycleRefuses :
    (let s := withOtp []
     Serving s ∧ Inv s ∧ s.lc = lcBlank ∧ isFactory .hostP = false ∧ Allowed s .hostP Key.lcTransition 8) ∧
    (∀ n : Fin 4, fieldLe (natLe 1 n.val ++ [0, 0, 0] ++ natLe 4 0x4C43701A) 0 1 = n.val ∧
      fieldLe (natLe 1 n.val ++ [0, 0, 0] ++ natLe 4 0x4C43701A) 4 4 ≠ 0x4C437019 ∧
      fieldLe (natLe 1 n.val ++ [0, 0, 1] ++ natLe 4 0x4C437019) 1 3 ≠ 0 ∧
      fieldLe (natLe 1 n.val ++ [0, 0, 1] ++ natLe 4 0x4C437019) 4 4 = 0x4C437019) ∧
    up.lc ≠ lcBlank ∧ (withOtp [(0x160, 7)]).lc ≠ lcField ∧ Allowed (withOtp [(0x160, 7)]) .hostP Key.lcTransition 8 := by decide +kernel

theorem witness_ScrubEnds :
    let s := withOtp [(0x160, 5)]
    let s : State := { s.setTiers { s.tiers with jobs := [{ extents := [], purpose := .scrub }] } with sec := { s.sec with lcHeld := some 1 } }
    Inv s ∧ s.coreOn = true ∧ s.tiers.jobs = [{ extents := [], purpose := .scrub }] ∧ s.sec.lcHeld = some 1 ∧ s.lcRow = lcRma := by
  decide +kernel

/-- A class key of class `id`, its key bytes 1. -/
def classArg (id : Nat) : List Byte := natLe 4 id ++ List.replicate 32 1

theorem witness_ClassKeysAndThermometers :
    Serving up ∧ Inv up ∧ (∀ n : Fin 4, Allowed up .hostP (Key.classKey (n.val + 1)) (classArg 1).length) ∧ up.lc = lcProvisioned ∧
    fieldLe (classArg 9) 0 4 = 9 ∧ (∀ n : Fin 4, up.rd (Key.classId (n.val + 1)) ≠ 9) ∧
    (up.wr (Key.classId 4) 9).rd (Key.classId 4) = 9 ∧ up.paramFull = false ∧
    Tab.get up.sec.classKeys 0 4 ≠ leNat ((classArg 9).take 36) ∧ (withOtp []).lc ≠ lcProvisioned ∧
    Allowed up .hostP Key.arbAdvance 4 ∧ up.cmdRunning Key.arbAdvance = false ∧ (withOtp []).lc = lcBlank ∧
    up.arbSlipcase < 64 ∧ fieldLe ([1, 64, 0, 0] : List Byte) 1 1 = 64 ∧ fieldLe ([1, 64, 0, 0] : List Byte) 2 2 = 0 ∧
    (let s := up.setNv { up.nv with boot := { up.nv.boot with slotA := some [(6, 64)] } }
     Serving s ∧ Inv s ∧ s.arbFirmware < 64 ∧ 64 ≤ s.runningEpoch) := by decide +kernel

/-- In RMA with serial number 1, the debug nonce 2, seven failed runs. -/
def lockedOut : State :=
  let s := (withOtp [(0, 1), (0x160, 5)]).wr Key.debugUnlockFails 7
  { s with sec := { s.sec with nonce := 2 } }

/-- The argument that unlocks `lockedOut`: the debug key and its signature over the nonce and the serial number. -/
def unlockArg : List Byte :=
  debugPub ++ natBe 96 0x0b9eeb6fed0ee2e53ed882ab96e5abc0c17df74e85d6bdd86df83a635b0be059ad48cdda906eb74a09e6b670cd883832a50e75f56ba655115f21c8f7a3b0f78425865ceb459e699af34150c7a2fee3a0a931c897bb65839572914d7d57ca0f97

theorem witness_DebugUnlocks :
    (Serving up ∧ Inv up ∧ Allowed up .hostP Key.debugUnlock 192 ∧ up.cmdRunning Key.debugUnlock = false ∧
     up.rd Key.debugUnlockFails = 0 ∧ up.lc ≠ lcRma) ∧
    (Serving lockedOut ∧ Inv lockedOut ∧ lockedOut.rd Key.debugUnlockFails < 8 ∧ lockedOut.lc = lcRma ∧
     8 ≤ (lockedOut.wr Key.debugUnlockFails 8).rd Key.debugUnlockFails) := by decide +kernel

/-- The signature that unlocks; one of another challenge does not. -/
theorem witness_DebugUnlocks_signatures :
    unlockArg.length = 192 ∧ lockedOut.debugSigned unlockArg = true ∧
    ({ lockedOut with sec := { lockedOut.sec with nonce := 3 } } : State).debugSigned unlockArg = false := by decide +kernel

theorem witness_AlertsAndService :
    Serving up ∧ Inv up ∧ Allowed up .hostP Key.alertClear 4 ∧ Allowed up .hostP Key.wdtService 4 ∧
    Allowed up .hostP Key.wdtPeriodMs 4 ∧ leNat (natLe 4 (2 ^ 14)) = 2 ^ 14 ∧ leNat (natLe 4 (2 ^ 14 - 1)) = 2 ^ 14 - 1 ∧
    leNat (natLe 4 0x57D00019) = 0x57D00019 ∧ leNat (natLe 4 60001) = 60001 ∧ leNat (natLe 4 100) = 100 := by decide +kernel

theorem witness_TimersExpire :
    (let s := up.wr Key.wdtPeriodMs 100
     Inv s ∧ s.rd Key.wdtPeriodMs ≠ 0 ∧ s.wdtPaused = false ∧ s.wdt.hostExpired = false ∧ s.wdt.fwExpired = false ∧ s.wdt.hostServed = false ∧ s.wdt.fwServed = false ∧
     s.coreOn = true ∧ s.running = true ∧ s.rd Key.wdtState = 0 ∧ (s.wr Key.wdtState 1).rd Key.wdtState = 1) ∧
    (up.rd Key.wdtPeriodMs = 0 ∧ up.pins.aonUp = true ∧ up.running = true ∧ up.coreOn = true ∧ up.pm.entry = none) ∧
    (let s := ((up.wr Key.wdtPeriodMs 100).wrs [(Key.wdtSleepPause, 1)])
     ({ s with power := .sRet } : State).wdtPaused = true) ∧
    (let s : State := { up with wdt := { up.wdt with hostServed := true, fwServed := true } }
     Inv s ∧ s.wdt.hostServed = true ∧ s.wdt.fwServed = true) := by decide +kernel

/-- R911: clearing a cause leaves the others; R919: a service value in the wrong byte order services nothing. -/
theorem test_alert_clear :
    gives (.alertClear .hostP (natLe 4 1)) (up.wr Key.alertCause 3) (fun t => t.rd Key.alertCause == 2) = true ∧
    gives (.wdtService .hostP [0x57, 0xD0, 0x00, 0x19]) { up with wdt := { up.wdt with hostExpired := true } }
      (fun t => t.wdt.hostExpired) = true := by decide +kernel

/-- R866, R871: the lifecycle moves by setting OTP bit 1 and leaves bit 0 set. -/
theorem test_lifecycle_sets_a_bit :
    gives (.lcToField .hostP (lcArg 2)) (withOtp [(0x80, 1), (0x140, 1), (0x160, 1)])
      (fun t => t.nv.otp == [(0x80, 1), (0x140, 1), (0x160, 3)]) = true := by decide +kernel

/-! ### The machine as a whole -/

/-- A step keeps its invariant from states that have it, running and asleep, and from reset. -/
theorem witness_StepKeepsInvariant :
    Inv up ∧ Inv State.reset ∧ Inv asleep ∧ (match step { asleep with pending := [.wakeFromSleep] } with | .next t => t.pending == [] | _ => false) = true ∧
    (match step { State.reset with pending := [.linkDown] } with | .next _ => true | _ => false) = true := by decide +kernel

theorem witness_OtpBitsOnlyRise :
    let s := pressed (pressing 5 0x140 2 0)
    Inv s ∧ bit (Mem.read s.nv.otp 0x160).toNat 0 = true ∧ gives (.pressOpComplete 0 {}) s (fun t => t.nv.otp == [(0x140, 2), (0x160, 1)]) = true := by
  decide +kernel

/-- Both commands that stop do so somewhere, and complete elsewhere. -/
theorem witness_OnlyTwoCommandsStop :
    exec .testenHigh State.reset = .fault .factoryTestMode ∧ gives .testenHigh up (fun _ => true) = true ∧
    (exec (.vendorDebugInstruction 0x3E .other) State.reset = .refused .vendorDebugUndescribed) ∧
    gives (.vendorDebugInstruction 0x3E (.t2 0)) up (fun _ => true) = true := by
  refine ⟨by rfl, by decide +kernel, by rfl, by decide +kernel⟩

/-- One command of each kind of frame that does change something. -/
theorem witness_Frames :
    keepsTiers .linkDown = true ∧ keepsStore .linkDown = true ∧ keepsUnits .linkDown = true ∧ keepsDictionary .tapReset = true ∧
    gives .linkDown up (fun t => t.rd Key.pcieLinkState == 0) = true ∧
    gives .tapReset { up with jtag := { up.jtag with ir := 0 } } (fun t => t.jtag.ir != 0) = true := by decide +kernel

/-! ### Ill-formed commands -/

/-- One ill-formed command for each check of `Instr.wf`. -/
def illFormed : List Instr :=
  [.hdrDdrWriteCmd 128 [] false, .hdrDdrReadCmd 127 true, .entdaa 0, .setdasa 0, .setnewda 0, .registerWrite 4092 [1, 2, 3, 4, 5],
   .registerWrite 0 [], .bar0ReservedWrite 4095 [1, 2], .dictWrite .hostP 0 0 (List.replicate 257 0),
   .stagedWrite .hostP 0 0 (List.replicate 257 0), .eraseBlock .host [], .eraseSector .firmware (List.replicate 31 0),
   .programRun .loader (List.replicate 33 0), .readRun (.quire 0) [], .otpProgram .host [0], .refreshMove .host [0],
   .submissionFetch 0 (List.replicate 63 0), .waitResume 0 0 [1], .copy 0 0 [1], .movIn 0 { frame := [1] }, .movOut 0 { frame := [1] },
   .leafArrival 0 0 { frame := [1] }, .apertureRead 0 0, .apertureRead 4095 2, .apertureWrite 4095 [1, 2], .bar2WindowAccess 0 true 4 [1],
   .bar2WindowAccess 0 false 4 [1, 2, 3, 4], .bar2RingWrite 4095 [1, 2] false, .runImposition 0 0 [1]]

theorem test_ill_formed_commands_are_refused : (illFormed.all fun i => !i.wf) = true := by decide +kernel

theorem test_well_formed_commands :
    wfQueue [.hdrDdrWriteCmd 127 [] false, .hdrDdrReadCmd 128 true, .entdaa 1, .registerWrite 4092 [1, 2, 3, 4], .submissionFetch 0 (List.replicate 64 0),
      .eraseBlock .host (List.replicate 32 0), .bar2WindowAccess 0 true 2 [1, 2], .sentFrameEnd true [true, false] false, .copy 0 0 []] = true := by
  decide +kernel

/-! ### The interface of the block -/

/-- The table gives no row bits: no word spells a command, and a state is left as it is. -/
theorem test_no_word_spells_a_command (n w : Nat) (s : State) : decodeTableWord n w = none ∧ s.withFetchWord n w = s := ⟨rfl, rfl⟩

end Sys2Proof.Tests
end

section
/-! PROOFS. Balls, rails and clocks (02): the start of boot, the loss and the return of VDD_AON, and the instructions of
the JTAG port. -/

namespace Sys2Proof.Machine

/-! ### What the commands of this family answer -/

theorem exec_bootStart (f : BootFacts) (s : State) : exec (.bootStart f) s = .next (bootStart f s) := rfl

theorem exec_powerLoss (s : State) : exec .powerLoss s = .next (powerLoss s) := rfl

theorem exec_powerOn (d : Int) (s : State) : exec (.powerOn d) s = .next (powerOn d s) := rfl

theorem exec_tapReset (s : State) : exec .tapReset s = .next (tapReset s) := rfl

theorem exec_idcode (s : State) : exec .idcode s = .next (idcode s) := rfl

theorem exec_samplePreload (scan : BoundaryScan) (s : State) :
    exec (.samplePreload scan) s = .next (samplePreload scan.cells scan.board s) := rfl

theorem exec_bypass (c : BitVec 6) (s : State) : exec (.bypass c) s = .next (bypass c s) := rfl

theorem exec_vendorDebugInstruction (c : BitVec 6) (g : DebugTarget) (s : State) :
    exec (.vendorDebugInstruction c g) s = execVendorDebugInstruction c g s := rfl

/-! ### The start of boot (R63, R225) -/

/-- No line holds the device exactly when the AON domain is up and released, RESET_N and PGOOD_IN are high, TESTEN is low
and no JTAG instruction holds the balls. -/
theorem State.heldInReset_eq_false_iff (s : State) : s.heldInReset = false ↔
    s.pins.aonUp = true ∧ s.pins.aonReleased = true ∧ s.pins.resetN = true ∧ s.pins.pgood = true ∧
      s.pins.testen = false ∧ holdsBalls s.jtag.ir = false := by
  simp [State.heldInReset, and_assoc]

/-- BOOT_START without the conditions of R63, or after boot has begun, leaves the state as it is. -/
theorem bootStart_of_not_ready (f : BootFacts) (s : State)
    (h : s.boot ≠ .waiting ∨ s.heldInReset = true ∨ ¬ s.clkinSeen = true) : bootStart f s = s := if_pos h

/-- A BOOT_START that changes the state found boot waiting, no line holding the device and the clock detected. -/
theorem ready_of_bootStart_ne (f : BootFacts) (s : State) (h : bootStart f s ≠ s) :
    s.boot = .waiting ∧ s.heldInReset = false ∧ s.clkinSeen = true := by
  by_contra hready
  refine h (bootStart_of_not_ready f s ?_)
  by_contra hblocked
  exact hready (by simpa using hblocked)

/-! ### What boot leaves of the firmware slots (R226, R227, R642) -/

@[simp] theorem State.startLink_boot (s : State) : s.startLink.boot = s.boot := by
  unfold State.startLink
  split <;> rfl

/-- Writing entries one after another leaves the NV contents. -/
theorem State.foldl_wr_nv (v : State → Nat → Nat) (l : List Nat) :
    ∀ s : State, (l.foldl (fun s k => s.wr k (v s k)) s).nv = s.nv := by
  induction l with
  | nil => intro s; rfl
  | cons k l ih => intro s; exact ih _

/-- Reading the parameter region touches, of the NV contents, the marks of bad copies alone. -/
theorem State.mountParams_nv (s : State) (bad : List Nat) :
    ∃ recs, (s.mountParams bad).nv = { s.nv with recs := recs } := by
  have hread := State.foldl_wr_nv fun s k => (s.storedVal k).getD (dfltVal s.sku k)
  unfold State.mountParams
  dsimp only
  split <;> exact ⟨_, hread _ _⟩

/-- The slot that boots is a matter of the NV contents, and not of the parameter records nor of the mark of a recovery
load. -/
theorem State.bootSlot_congr (s t : State) (recs : List ParamRec) (skip : Bool)
    (h : t.nv = { s.nv with recs := recs, boot := { s.nv.boot with skipBootsel := skip } }) :
    t.bootSlot = s.bootSlot := by
  have ofNv : ∀ u : State, u.bootSlot = ({ State.reset with nv := u.nv } : State).bootSlot := fun u => rfl
  rw [ofNv t, h, ofNv s]
  rfl

/-- Reading the parameter region with the mark of a recovery load cleared leaves the slot that boots. -/
theorem State.bootSlot_mountParams (s : State) (skip : Bool) (bad : List Nat) :
    ((s.setNv { s.nv with boot := { s.nv.boot with skipBootsel := skip } }).mountParams bad).bootSlot = s.bootSlot := by
  obtain ⟨recs, hnv⟩ := State.mountParams_nv (s.setNv { s.nv with boot := { s.nv.boot with skipBootsel := skip } }) bad
  exact State.bootSlot_congr s _ recs skip hnv

/-- Boot that may run ends in recovery boot or in normal boot (R236). -/
theorem bootStart_boot (f : BootFacts) (s : State) (hboot : s.boot = .waiting) (hheld : s.heldInReset = false)
    (hclk : s.clkinSeen = true) : (bootStart f s).boot =
      if s.bootSlot.isNone ∨ (f.bootsel = true ∧ s.nv.boot.skipBootsel = false) then .recovery else .normal := by
  unfold bootStart
  rw [if_neg (by simp [hboot, hheld, hclk])]
  dsimp only
  rw [State.bootSlot_mountParams, apply_ite State.boot, State.startLink_boot, State.startLink_boot]
  dsimp only
  cases s.bootSlot with
  | none => simp
  | some slot => by_cases hsel : f.bootsel = true ∧ s.nv.boot.skipBootsel = false <;> simp [hsel]

/-! ### The register file through a reset (R126, R220) -/

theorem valsWf_mono (sku : Sku) (t : Tab Nat) (lo hi : Nat) (h : valsWf sku hi t = true) (hl : lo ≤ hi) :
    valsWf sku lo t = true := by
  cases t with
  | nil => rfl
  | cons p t =>
    simp only [valsWf, Bool.and_eq_true, decide_eq_true_eq] at h ⊢
    obtain ⟨⟨hlo, hdflt⟩, ht⟩ := h
    exact ⟨⟨by omega, hdflt⟩, ht⟩

/-- A register file with some keys left out is canonical. -/
theorem valsWf_filter (sku : Sku) (keep : Nat → Bool) (t : Tab Nat) : ∀ lo, valsWf sku lo t = true →
    valsWf sku lo (t.filter fun e => keep e.1) = true := by
  induction t with
  | nil => intro lo _; rfl
  | cons p t ih =>
    obtain ⟨j, v⟩ := p
    intro lo h
    simp only [valsWf, Bool.and_eq_true, decide_eq_true_eq] at h
    obtain ⟨⟨hlo, hdflt⟩, ht⟩ := h
    have hwf := ih (j + 1) ht
    by_cases hj : keep j = true
    · simp [hj, valsWf, hlo, hdflt, hwf]
    · simpa [hj] using valsWf_mono sku _ lo (j + 1) hwf (by omega)

/-- With some keys left out, a key finds what it found when it is kept, and nothing when it is not. -/
theorem vals_find_filter (sku : Sku) (keep : Nat → Bool) (k : Nat) (t : Tab Nat) : ∀ lo, valsWf sku lo t = true →
    Tab.find (t.filter fun e => keep e.1) k = if keep k then Tab.find t k else none := by
  induction t with
  | nil => intro lo _; simp
  | cons p t ih =>
    obtain ⟨j, v⟩ := p
    intro lo h
    simp only [valsWf, Bool.and_eq_true, decide_eq_true_eq] at h
    obtain ⟨-, ht⟩ := h
    have hfind := ih (j + 1) ht
    by_cases hk : k = j
    · subst hk
      by_cases hkeep : keep k = true
      · simp [Tab.find, hkeep]
      · simpa [hkeep] using hfind
    · by_cases hlt : k < j
      · have hnone : Tab.find t k = none := vals_find_lt sku t (j + 1) k ht (by omega)
        by_cases hj : keep j = true <;> simp [Tab.find, hj, hk, hlt, hfind, hnone]
      · by_cases hj : keep j = true <;> simp [Tab.find, hj, hk, hlt, hfind]

/-- What each entry reads after a reset: PROFSEL_SAMPLED apart, those of class S and F what they read before, every other
one its default. -/
theorem State.restart_rd (s : State) (cause k : Nat) (h : valsWf s.sku 0 s.dict.vals = true)
    (hk : k ≠ Key.profselSampled) :
    (s.restart cause).rd k = if keptByReset s.sku k then s.rd k else dfltVal s.sku k := by
  have hwf := valsWf_filter s.sku (keptByReset s.sku) s.dict.vals 0 h
  have hlisted : Tab.find (s.restart cause).dict.vals k =
      if keptByReset s.sku k then Tab.find s.dict.vals k else none :=
    (vals_find_put s.sku _ 0 _ k _ hwf).trans (by rw [if_neg hk, vals_find_filter s.sku _ k _ 0 h])
  unfold State.rd
  rw [hlisted, show (s.restart cause).sku = s.sku from rfl]
  by_cases hkept : keptByReset s.sku k = true <;> simp [hkept]

/-! ### VDD_AON (R61, R833, R847, R921) -/

theorem powerLoss_rd (s : State) (k : Nat) : (powerLoss s).rd k = (s.restart LR.powerOn).rd k := rfl

theorem powerOn_of_off (d : Int) (s : State) (h : s.power = .sOff) : powerOn d s =
    { s with
      power := .sIdle, pins := { s.pins with aonUp := true, aonReleased := false },
      clk := { s.clk with lowOsc := true, quickOsc := true },
      pm := { s.pm with filtNum := d, filtDen := 1 } } := by
  simp only [powerOn, h]

/-! ### The JTAG port (R100 to R104) -/

theorem State.jtag1_of_powered (s : State) (f : State → State) (h : s.tapPowered = true) : s.jtag1 f = f s := if_pos h

/-- An instruction that does not hold the balls is loaded and nothing is reset. -/
theorem State.loadIr_of_not_holds (s : State) (ir : BitVec 6) (dr : JtagReg) (h : holdsBalls ir = false) :
    s.loadIr ir dr = s.showIr ir dr := by
  simp [State.loadIr, State.showIr, State.emit, h]

/-- The instructions that hold the balls are assigned ones. -/
theorem holdsBalls_of_unassigned (c : BitVec 6) (h : assignedIr c = false) : holdsBalls c = false := by
  simp only [assignedIr, irExtest, irHighz, irClamp, Bool.or_eq_false_iff] at h
  obtain ⟨⟨⟨⟨hextest, -⟩, -⟩, hhighz⟩, hclamp⟩ := h
  exact Bool.or_eq_false_iff.2 ⟨Bool.or_eq_false_iff.2 ⟨hextest, hhighz⟩, hclamp⟩

/-- A scan with one bit of TDI for each bit of the first part of a register: that part leaves on TDO and the bits of TDI
stand behind the rest. -/
theorem foldl_shiftDr (p : List Bool) : ∀ (rest out tdi : List Bool), tdi.length = p.length →
    tdi.foldl shiftDr (p ++ rest, out) = (rest ++ tdi, out ++ p) := by
  induction p with
  | nil => intro rest out tdi h; simp [List.eq_nil_of_length_eq_zero h]
  | cons a p ih =>
    intro rest out tdi h
    cases tdi with
    | nil => simp at h
    | cons b tdi =>
      have hstep : shiftDr (a :: p ++ rest, out) b = (p ++ (rest ++ [b]), out ++ [a]) := by simp [shiftDr]
      rw [List.foldl_cons, hstep, ih _ _ _ (by simpa using h)]
      simp

/-- A scan as long as the register: the register holds what was shifted in, TDO gave what was captured. -/
theorem scanDr_full (captured tdi : List Bool) (h : tdi.length = captured.length) :
    scanDr captured tdi = (tdi, captured) := by
  simpa [scanDr] using foldl_shiftDr captured [] [] tdi h

/-- A preload with one bit for each cell is what the cells hold. -/
theorem cellsOf_full (l : List Bool) (h : l.length = cellBalls.length) : cellsOf l = l := by
  refine List.ext_getElem (by simp [cellsOf, h]) fun n _ hn => ?_
  simp [cellsOf, hn]

/-- SAMPLE captures one level for each cell. -/
@[simp] theorem State.sampled_length (s : State) (board : List Bool) : (s.sampled board).length = cellBalls.length := by
  simp [State.sampled]

theorem tapReset_of_powered (s : State) (h : s.tapPowered = true) : tapReset s =
    { s with jtag := { s.jtag with ir := 1, dr := .idcode, tap := .testLogicReset, armed := true } } := by
  simp only [State.tapPowered, Bool.and_eq_true] at h
  obtain ⟨⟨haon, hpgood⟩, -⟩ := h
  simp [tapReset, haon, hpgood, irIdcode]

theorem idcode_of_powered (s : State) (h : s.tapPowered = true) :
    idcode s = (s.showIr 1 .idcode).emit (.jtagIdcode (BitVec.ofNat 32 (idcodeOf s.sku))) := by
  rw [idcode, State.jtag1_of_powered s _ h, State.loadIr_of_not_holds s irIdcode _ (by decide)]
  rfl

/-- SAMPLE/PRELOAD with one bit for each cell: the bits shifted in are in the cells, the levels captured left on TDO. -/
theorem samplePreload_of_powered (s : State) (cells board : List Bool) (h : s.tapPowered = true)
    (hlen : cells.length = cellBalls.length) : samplePreload cells board s =
      (({ s.showIr 2 .boundary with jtag := { (s.showIr 2 .boundary).jtag with
          cells := cells, tap := (s.showIr 2 .boundary).jtag.tap.walk (drPath cellBalls.length) } } : State).emit
        (.jtagScan ((s.showIr 2 .boundary).sampled board))) := by
  rw [samplePreload, State.jtag1_of_powered s _ h, State.loadIr_of_not_holds s irSample _ (by decide)]
  dsimp only
  rw [cellsOf_full cells hlen, scanDr_full _ cells (by simp [hlen])]
  rfl

theorem bypass_of_unassigned (s : State) (c : BitVec 6) (h : s.tapPowered = true) (hc : assignedIr c = false) :
    bypass c s = s.showIr c .bypass := by
  rw [bypass, State.jtag1_of_powered s _ h, if_neg (by simp [hc]),
    State.loadIr_of_not_holds s c _ (holdsBalls_of_unassigned c hc)]

/-- A locked vendor debug instruction selects the bypass register (R103, R889). -/
theorem execVendorDebugInstruction_of_locked (s : State) (c : BitVec 6) (g : DebugTarget) (h : s.tapPowered = true)
    (hc : assignedIr c = false) (hlock : s.debugNow = 0) :
    execVendorDebugInstruction c g s = .next (s.showIr c .bypass) := by
  rw [execVendorDebugInstruction, if_neg (by simp [h, hc]), if_pos hlock,
    State.loadIr_of_not_holds s c _ (holdsBalls_of_unassigned c hc)]

/-! ### The clauses -/

/-- R225, R236: from `bootStart_boot`. -/
theorem bootStartsClause : BootStartsClause := fun f s hboot hheld hclk =>
  ⟨bootStart f s, exec_bootStart f s, bootStart_boot f s hboot hheld hclk⟩

/-- R61, R833, R847, R921: the register file by `State.restart_rd`, all else by the definitions of the two commands. -/
theorem powerCycleClause : PowerCycleClause := by
  intro s hinv
  obtain ⟨hvals, -, -⟩ := hinv
  constructor
  · refine ⟨powerLoss s, exec_powerLoss s, rfl, rfl, rfl, rfl, rfl, rfl, rfl, rfl, fun k hk => ?_⟩
    rw [powerLoss_rd, State.restart_rd s LR.powerOn k hvals hk]
  · intro d hoff
    refine ⟨powerOn d s, exec_powerOn d s, ?_⟩
    simp [powerOn_of_off d s hoff]

/-- R100, R101, R103: one lemma per instruction. -/
theorem jtagInstructionsClause : JtagInstructionsClause := by
  intro s hpow _
  refine ⟨?tapReset, ?idcode, fun cells board hlen => ?sample, fun c hc => ?bypass, fun c g hc hlock => ?vendor⟩
  case tapReset => rw [exec_tapReset, tapReset_of_powered s hpow]
  case idcode => rw [exec_idcode, idcode_of_powered s hpow]
  case sample =>
    refine ⟨_, exec_samplePreload _ s, ?_⟩
    rw [samplePreload_of_powered s cells board hpow hlen]
    refine ⟨rfl, rfl, rfl, ?_, rfl⟩
    simp [State.showIr, State.emit]
  case bypass => rw [exec_bypass, bypass_of_unassigned s c hpow hc]
  case vendor => rw [exec_vendorDebugInstruction, execVendorDebugInstruction_of_locked s c g hpow hc hlock]

/-! ### The statements -/

/-- Settles O3: a BOOT_START that changes the state met `ready_of_bootStart_ne`, and the lines of R63 are among what
`heldInReset` asks for. -/
theorem bootStartsOnlyUnderR63 : Obligations.BootStartsOnlyUnderR63 := by
  intro f s t ht hne
  rw [exec_bootStart] at ht
  cases ht
  obtain ⟨-, hheld, hclk⟩ := ready_of_bootStart_ne f s hne
  obtain ⟨-, haon, hreset, hpgood, -, -⟩ := s.heldInReset_eq_false_iff.1 hheld
  exact ⟨haon, hpgood, hreset, hclk⟩

/-- Settles O4, clause by clause. -/
theorem bootAndPowerCycle : Obligations.BootAndPowerCycle :=
  ⟨bootStartsClause, powerCycleClause, jtagInstructionsClause⟩

end Sys2Proof.Machine
end

section
/-! PROOFS. A write of a dictionary entry that the management controller serves as it comes (03; log entry 29), and the
result block of a run. -/

namespace Sys2Proof.Machine

/-! ### A cold write served as it comes (R131, R137, R929) -/

/-- The management controller serves a cold request as it comes: `Serving`, in recovery boot too. -/
structure State.Attends (s : State) : Prop where
  released : s.heldInReset = false
  core : s.coreOn = true
  booted : s.boot ≠ .waiting
  awake : s.pm.waking = false
  nvPll : s.clk.nvPll = true
  noneHeld : s.dict.cold = []
  noEntry : s.pm.entry = none

theorem State.attends_of_serving (s : State) (h : Serving s) : s.Attends := by
  obtain ⟨hrel, hcore, hboot, hwake, hpll, hcold, hentry⟩ := h
  exact ⟨hrel, hcore, by simp [hboot], hwake, hpll, hcold, hentry⟩

theorem State.power_ne_off_of_coreOn (s : State) (h : s.coreOn = true) : s.power ≠ .sOff := by
  intro hoff
  simp [State.coreOn, hoff] at h

theorem State.Attends.dictUp {s : State} (h : s.Attends) : s.dictUp = true := by
  have hpower := s.power_ne_off_of_coreOn h.core
  cases hp : s.power <;> simp_all [State.dictUp, h.released]

theorem State.Attends.mcServes {s : State} (h : s.Attends) : s.mcServes = true := by
  simp [State.mcServes, State.running, h.booted, s.power_ne_off_of_coreOn h.core, h.core, h.awake, h.nvPll]

/-- With no sleep entry under way and the core on, a wake demand asks for nothing. -/
theorem State.Attends.wakeDemand {s : State} (h : s.Attends) : s.wakeDemand = s := by
  simp [State.wakeDemand, State.abandonEntry, h.noEntry, h.core]

/-- The write of an entry as the dictionary engine serves it. -/
def writeOf (role : Role) (idx sub : Nat) (data : List Byte) : Request :=
  { role := role, write := true, view := false, idx := idx, sub := sub, data := data }

theorem serve_writeOf (c : Card) (role : Role) (idx sub : Nat) (data : List Byte) (env : Env) (viaI3c : Bool) (s : State) :
    serve c (writeOf role idx sub data) env viaI3c s =
      ((serveWrite c (writeOf role idx sub data) env viaI3c s).1, [],
        (serveWrite c (writeOf role idx sub data) env viaI3c s).2) := rfl

/-- A write that passes R929 at an entry of response class C is held for the management controller (R131). -/
theorem State.intake_of_cold (s : State) (role : Role) (idx sub : Nat) (data : List Byte) (c : Card)
    (hshape : s.shapeFail (some role) true idx sub data.length = none) (hcard : cardOf s.sku idx sub = some c)
    (hresp : c.resp = .cold) :
    s.intake (some role) 1 idx sub data = (.hold (writeOf role idx sub data), s) := by
  have hwrite : bit 1 0 = true := by decide
  have hview : bit 1 1 = false := by decide
  simp [State.intake, hwrite, hview, hshape, hcard, State.isHot, hresp, writeOf]

/-- A write that passes R929 at an entry of response class C answers what `serveWrite` answers. -/
theorem dictRequest_of_cold {s t : State} {role : Role} {idx sub st : Nat} {data : List Byte} {env : Env} {c : Card}
    (ha : s.Attends) (hshape : s.shapeFail (some role) true idx sub data.length = none)
    (hcard : cardOf s.sku idx sub = some c) (hresp : c.resp = .cold)
    (hserve : serveWrite c (writeOf role idx sub data) env false s = (st, t)) (hst : st ≠ DS.role) :
    dictRequest role idx sub data env s = t.answer st := by
  rw [dictRequest, if_neg (by simp [ha.dictUp]), State.intake_of_cold s role idx sub data c hshape hcard hresp]
  dsimp only
  rw [if_pos ⟨ha.noneHeld, ha.mcServes⟩]
  simp [hcard, ha.wakeDemand, serve_writeOf, hserve, State.noteStatus, hst]

theorem serveWrite_of_locks (c : Card) (r : Request) (env : Env) (viaI3c : Bool) (s : State) (h : s.locks r.idx = true) :
    serveWrite c r env viaI3c s = (DS.locked, s) := if_pos h

/-- Nothing forbids the write: it does what its entry does. -/
theorem serveWrite_of_open (c : Card) (r : Request) (env : Env) (viaI3c : Bool) (s : State)
    (hlock : s.locks r.idx = false) (hboot : s.recoveryBars r.idx = false) (hview : r.view = false)
    (htext : badText c r.data = false) : serveWrite c r env viaI3c s = serveOp c r env viaI3c s := by
  simp [serveWrite, hlock, hboot, hview, htext]

theorem setOfMember_of_not_rs (sku : Sku) (idx sub : Nat) (c : Card) (hcard : cardOf sku idx sub = some c)
    (hacc : c.access.isRs = false) : setOfMember sku idx sub = none := by
  rw [setOfMember, hcard]
  cases ha : c.access <;> simp_all [Access.isRs]

/-- No COMMIT lies below the profile blocks, nor between them and PWR_COMMIT. -/
theorem setOfCommit_low (idx : Nat) (h : idx < 0x1210 ∨ 0x1250 ≤ idx ∧ idx < 0x1400) : setOfCommit idx = none := by
  rw [setOfCommit, if_neg (by omega), if_neg (by omega), if_neg (by omega)]

theorem serveOp_low (c : Card) (r : Request) (env : Env) (viaI3c : Bool) (s : State)
    (hidx : r.idx < 0x1210 ∨ 0x1250 ≤ r.idx ∧ r.idx < 0x1400) (hcard : cardOf s.sku r.idx r.sub = some c)
    (hacc : c.access.isRs = false) : serveOp c r env viaI3c s = serveLow c r env viaI3c s := by
  unfold serveOp
  rw [setOfCommit_low _ hidx, setOfMember_of_not_rs _ _ _ c hcard hacc]
  dsimp only
  rw [if_neg (by omega), if_neg (by omega), if_pos (by omega)]

/-- A write that passes R929 is one of an entry that is not read-only. -/
theorem State.card_of_shapeFail_none (s : State) (role : Option Role) (idx sub len : Nat)
    (h : s.shapeFail role true idx sub len = none) : ∃ c, cardOf s.sku idx sub = some c ∧ c.access ≠ .ro := by
  unfold State.shapeFail at h
  split at h
  · simp at h
  · split at h
    · simp at h
    · next c hcard =>
      refine ⟨c, hcard, fun hro => ?_⟩
      simp [hro] at h

/-! ### Result blocks (R113, R115) -/

theorem Tab.find_put_self {α : Type} (t : Tab α) (i : Nat) (v : α) : Tab.find (Tab.put t i (some v)) i = some v := by
  induction t with
  | nil => simp [Tab.put, Tab.find]
  | cons p t ih =>
    obtain ⟨k, w⟩ := p
    rcases Nat.lt_trichotomy i k with hlt | heq | hgt
    · simp [Tab.put, Tab.find, hlt]
    · simp [Tab.put, Tab.find, heq]
    · simp [Tab.put, Tab.find, Nat.not_lt_of_gt hgt, Nat.ne_of_gt hgt, ih]

/-- A run that finished is what the result block shows. -/
@[simp] theorem State.cmdDone_cmd (s : State) (k result : Nat) (card : List Byte) : (s.cmdDone k result card).cmd k =
    { state := .done, result := result, runs := (s.cmd k).runs + 1, card := card } := by
  simp [State.cmdDone, State.setCmd, State.cmd, Tab.get, Tab.set, CmdBlock.never, Tab.find_put_self]

theorem State.ifIdle_of_idle (s : State) (k : Nat) (f : State → State) (h : s.cmdRunning k = false) :
    s.ifIdle k f = (DS.ok, f s) := by
  simp [State.ifIdle, h]

@[simp] theorem State.cmdDone_rd (s : State) (k result : Nat) (card : List Byte) (j : Nat) :
    (s.cmdDone k result card).rd j = s.rd j := rfl

@[simp] theorem State.cmdDone_out (s : State) (k result : Nat) (card : List Byte) :
    (s.cmdDone k result card).out = s.out := rfl

@[simp] theorem State.answer_rd (s : State) (st k : Nat) : (s.answer st).rd k = s.rd k := rfl

/-- Recovery boot alone bars a write (R237). -/
theorem State.recoveryBars_of_serving (s : State) (idx : Nat) (h : Serving s) : s.recoveryBars idx = false := by
  obtain ⟨-, -, hboot, -⟩ := h
  simp [State.recoveryBars, hboot]

/-! ### Commands of chapter 05 with a four-byte argument and no result -/

/-- The card of DEVICE_RESET, RECOVERY_LOAD and COLOPHON_LOCK (R222, R243), but for its index. -/
def commandCard (idx : Nat) : Card := ⟨.abs, idx, idx, 0, 0, .cmd 4 0, .cmd, .h, .h, .v, .cold, 0⟩

/-- Indices of DEVICE_RESET, RECOVERY_LOAD and COLOPHON_LOCK. -/
def commandIndices : List Nat := [0x1301, 0x1306, 0x1082]

theorem cardOf_command (sku : Sku) : ∀ idx ∈ commandIndices, cardOf sku idx 0 = some (commandCard idx) := by
  cases sku <;> decide

/-- A run of one of the commands answers what its operation answers. -/
theorem dictRequest_command {s t : State} {role : Role} {idx st : Nat} {arg : List Byte} {env : Env}
    (hidx : idx ∈ commandIndices) (ha : s.Attends) (hshape : s.shapeFail (some role) true idx 0 arg.length = none)
    (hboot : s.recoveryBars idx = false)
    (hserve : serveLow (commandCard idx) (writeOf role idx 0 arg) env false s = (st, t)) (hst : st ≠ DS.role) :
    dictRequest role idx 0 arg env s = t.answer st := by
  have hcard := cardOf_command s.sku idx hidx
  have hlock : s.locks idx = false := by
    fin_cases hidx <;> rfl
  have hlow : idx < 0x1210 ∨ 0x1250 ≤ idx ∧ idx < 0x1400 := by
    fin_cases hidx <;> decide
  refine dictRequest_of_cold ha hshape hcard rfl ?_ hst
  rw [serveWrite_of_open (commandCard idx) (writeOf role idx 0 arg) env false s hlock hboot rfl rfl,
    serveOp_low (commandCard idx) (writeOf role idx 0 arg) env false s hlow hcard rfl, hserve]

end Sys2Proof.Machine
end

section
/-! PROOFS. Resets (05): DEVICE_RESET and RECOVERY_LOAD. -/

namespace Sys2Proof.Machine

/-! ### What the commands of this family answer -/

theorem exec_deviceReset (role : Role) (arg : List Byte) (s : State) :
    exec (.deviceReset role arg) s = .next (dictRequest role 0x1301 0 arg {} s) := rfl

theorem exec_recoveryLoad (role : Role) (arg : List Byte) (env : Env) (s : State) :
    exec (.recoveryLoad role arg env) s = .next (dictRequest role 0x1306 0 arg env s) := rfl

/-! ### DEVICE_RESET (R223, R224) -/

/-- A DEVICE_RESET run: DONE with OK, the read counts checkpointed, the device reset scheduled. -/
def State.scheduleReset (s : State) : State :=
  let s := (s.cmdDone Key.deviceReset DS.ok []).checkpoint
  s.setNv { s.nv with boot := { s.nv.boot with resetDue := some LR.deviceReset }, ckptDue := true }

theorem deviceResetWrite_of_bad_argument (arg : List Byte) (s : State) (h : fieldLe arg 0 4 ≠ 0x7E5E7019) :
    deviceResetWrite arg s = (DS.range, s) := if_pos h

theorem deviceResetWrite_of_run (arg : List Byte) (s : State) (h : fieldLe arg 0 4 = 0x7E5E7019)
    (hidle : s.cmdRunning Key.deviceReset = false) : deviceResetWrite arg s = (DS.ok, s.scheduleReset) := by
  rw [deviceResetWrite, if_neg (not_not.2 h), State.ifIdle_of_idle _ _ _ hidle]
  rfl

theorem exec_deviceReset_of_write {s t : State} {role : Role} {st : Nat} {arg : List Byte} (hs : Serving s)
    (hallowed : Allowed s role Key.deviceReset arg.length) (hwrite : deviceResetWrite arg s = (st, t))
    (hst : st ≠ DS.role) : exec (.deviceReset role arg) s = .next (t.answer st) := by
  rw [exec_deviceReset, dictRequest_command (idx := 0x1301) (by decide) (s.attends_of_serving hs) hallowed
    (s.recoveryBars_of_serving _ hs) hwrite hst]

/-! ### RECOVERY_LOAD (R237 to R241) -/

/-- The slot the commit record does not name. -/
def BootRegion.unnamed (b : BootRegion) : Bool := (b.named.map fun slotB => !slotB).getD false

/-- The boot region with the staged image in the slot the commit record did not name, committed, and the device reset that
samples no strap scheduled (R239, R240). -/
def State.recoveredBoot (s : State) (len : Nat) : BootRegion :=
  { (s.nv.boot.putSlot s.nv.boot.unnamed s.tiers.recovery len).commitSlot s.nv.boot.unnamed with
    resetDue := some LR.recovery, skipBootsel := true }

theorem recoveryLoadWrite_of_not_recovery (arg : List Byte) (env : Env) (s : State) (h : s.boot ≠ .recovery) :
    recoveryLoadWrite false arg env s = (DS.state, s) := if_pos (Or.inl h)

theorem recoveryLoadWrite_of_too_long (arg : List Byte) (env : Env) (s : State) (h : s.boot = .recovery)
    (hlen : 655360 < fieldLe arg 0 4) : recoveryLoadWrite false arg env s = (DS.range, s) := by
  simp [recoveryLoadWrite, h, hlen]

theorem recoveryLoadWrite_of_bad_image (arg : List Byte) (env : Env) (s : State) (h : s.boot = .recovery)
    (hlen : fieldLe arg 0 4 ≤ 655360) (hidle : s.cmdRunning Key.recoveryLoad = false)
    (himage : s.imageOk s.tiers.recovery (fieldLe arg 0 4) = false) :
    recoveryLoadWrite false arg env s = (DS.ok, s.cmdDone Key.recoveryLoad DS.state []) := by
  simp [recoveryLoadWrite, h, Nat.not_lt_of_le hlen, State.ifIdle_of_idle _ _ _ hidle, himage]

theorem recoveryLoadWrite_of_good_image (arg : List Byte) (env : Env) (s : State) (h : s.boot = .recovery)
    (hlen : fieldLe arg 0 4 ≤ 655360) (hidle : s.cmdRunning Key.recoveryLoad = false)
    (himage : s.imageOk s.tiers.recovery (fieldLe arg 0 4) = true) (hread : env.readBack = true) :
    recoveryLoadWrite false arg env s =
      (DS.ok, (s.setNv { s.nv with boot := s.recoveredBoot (fieldLe arg 0 4) }).cmdDone Key.recoveryLoad DS.ok []) := by
  simp only [recoveryLoadWrite, h, Nat.not_lt_of_le hlen, State.ifIdle_of_idle _ _ _ hidle, himage, hread]
  rfl

@[simp] theorem BootRegion.putSlot_copy0 (b : BootRegion) (slotB : Bool) (img : Mem) (len : Nat) :
    (b.putSlot slotB img len).copy0 = b.copy0 := by cases slotB <;> rfl

@[simp] theorem BootRegion.putSlot_copy1 (b : BootRegion) (slotB : Bool) (img : Mem) (len : Nat) :
    (b.putSlot slotB img len).copy1 = b.copy1 := by cases slotB <;> rfl

theorem seq_add_one_toNat (n : BitVec 32) (h : n.toNat < 2 ^ 32 - 1) : (n + 1).toNat = n.toNat + 1 := by
  bv_omega

theorem BootRegion.named_of_copy0 (b : BootRegion) (hcrc : b.copy0.crcOk = true)
    (hseq : b.copy1.seq.toNat ≤ b.copy0.seq.toNat) : b.named = some b.copy0.slotB := if_pos ⟨hcrc, Or.inr hseq⟩

theorem BootRegion.named_of_copy1 (b : BootRegion) (hcrc : b.copy1.crcOk = true)
    (hseq : b.copy0.seq.toNat < b.copy1.seq.toNat) : b.named = some b.copy1.slotB := by
  rw [BootRegion.named, if_neg (by simp [hcrc, hseq]), if_pos hcrc]

/-- The record committed last is the one in force, while its sequence number does not wrap (R652). -/
theorem BootRegion.commitSlot_named (b : BootRegion) (slotB : Bool) (h0 : b.copy0.seq.toNat < 2 ^ 32 - 1)
    (h1 : b.copy1.seq.toNat < 2 ^ 32 - 1) : (b.commitSlot slotB).named = some slotB := by
  unfold BootRegion.commitSlot
  dsimp only
  split
  · exact BootRegion.named_of_copy0 _ rfl (by simp only [seq_add_one_toNat _ h1]; omega)
  · exact BootRegion.named_of_copy1 _ rfl (by simp only [seq_add_one_toNat _ h0]; omega)

theorem State.recoveredBoot_named (s : State) (len : Nat) (h0 : s.nv.boot.copy0.seq.toNat < 2 ^ 32 - 1)
    (h1 : s.nv.boot.copy1.seq.toNat < 2 ^ 32 - 1) : (s.recoveredBoot len).named = some s.nv.boot.unnamed :=
  BootRegion.commitSlot_named _ _ (by simpa using h0) (by simpa using h1)

theorem exec_recoveryLoad_of_write {s t : State} {role : Role} {st : Nat} {arg : List Byte} {env : Env} (ha : s.Attends)
    (hallowed : Allowed s role Key.recoveryLoad arg.length) (hwrite : recoveryLoadWrite false arg env s = (st, t))
    (hst : st ≠ DS.role) : exec (.recoveryLoad role arg env) s = .next (t.answer st) := by
  have hserved : s.recoveryBars 0x1306 = false := by simp [State.recoveryBars, inRecovery]
  rw [exec_recoveryLoad, dictRequest_command (idx := 0x1306) (by decide) ha hallowed hserved hwrite hst]

/-! ### DEVICE_RESET and RECOVERY_LOAD: the statement -/

/-- Settles O17: each clause is what `deviceResetWrite` or `recoveryLoadWrite` does with such an argument, answered by
`dictRequest_command`. -/
theorem resetCommands : Obligations.ResetCommands := by
  intro s role arg
  refine ⟨fun hs hallowed => ⟨fun harg => ?badArgument, fun harg hidle => ?run⟩, fun env hs hallowed => ?outside,
    fun env hheld hcore hboot hwake hpll hcold hentry hallowed hidle => ?recovery⟩
  case badArgument =>
    exact exec_deviceReset_of_write hs hallowed (deviceResetWrite_of_bad_argument arg s harg) (by decide)
  case run =>
    have hdone := s.cmdDone_cmd Key.deviceReset DS.ok []
    refine ⟨_, exec_deviceReset_of_write hs hallowed (deviceResetWrite_of_run arg s harg hidle) (by decide), rfl,
      congrArg CmdBlock.state hdone, congrArg CmdBlock.result hdone, rfl, rfl, rfl, rfl, rfl⟩
  case outside =>
    have ha := s.attends_of_serving hs
    obtain ⟨-, -, hboot, -⟩ := hs
    exact exec_recoveryLoad_of_write ha hallowed
      (recoveryLoadWrite_of_not_recovery arg env s (by simp [hboot])) (by decide)
  case recovery =>
    have ha : s.Attends := ⟨hheld, hcore, by simp [hboot], hwake, hpll, hcold, hentry⟩
    refine ⟨fun hlen => ?tooLong, fun hlen himage => ?badImage, fun hlen hread himage h0 h1 => ?goodImage⟩
    case tooLong =>
      exact exec_recoveryLoad_of_write ha hallowed (recoveryLoadWrite_of_too_long arg env s hboot hlen) (by decide)
    case badImage =>
      have hdone := s.cmdDone_cmd Key.recoveryLoad DS.state []
      refine ⟨_, exec_recoveryLoad_of_write ha hallowed
        (recoveryLoadWrite_of_bad_image arg env s hboot hlen hidle himage) (by decide), rfl,
        congrArg CmdBlock.result hdone, hboot, rfl⟩
    case goodImage =>
      have hdone := State.cmdDone_cmd (s.setNv { s.nv with boot := s.recoveredBoot (fieldLe arg 0 4) }) Key.recoveryLoad
        DS.ok []
      refine ⟨_, exec_recoveryLoad_of_write ha hallowed
        (recoveryLoadWrite_of_good_image arg env s hboot hlen hidle himage hread) (by decide), rfl, rfl,
        s.recoveredBoot_named _ h0 h1, congrArg CmdBlock.result hdone, rfl, rfl⟩

end Sys2Proof.Machine
end

section
/-! PROOFS. Records of the parameter region (13, R641 to R644): which entries the write of a stored entry changes. -/

namespace Sys2Proof.Machine

/-! ### What a record of the parameter region leaves (R641, R644) -/

/-- Entries that show the state of the parameter region, and that its records and compactions change. -/
def paramStatus : List Nat := [Key.paramErased, Key.paramCyclesMax, Key.paramCompactions]

/-- `t` is `s` but for what the NV array holds and for entries among `ks`. -/
structure State.ChangesOnly (ks : List Nat) (s t : State) : Prop where
  frame : t = { s with dict := { s.dict with vals := t.dict.vals }, nv := t.nv }
  wf : valsWf s.sku 0 s.dict.vals = true → valsWf t.sku 0 t.dict.vals = true
  rd : valsWf s.sku 0 s.dict.vals = true → ∀ j, j ∉ ks → t.rd j = s.rd j

theorem State.ChangesOnly.trans {ks : List Nat} {s t u : State} (h : s.ChangesOnly ks t) (h' : t.ChangesOnly ks u) :
    s.ChangesOnly ks u where
  frame := by rw [h'.frame, h.frame]
  wf hs := h'.wf (h.wf hs)
  rd hs j hj := (h'.rd (h.wf hs) j hj).trans (h.rd hs j hj)

theorem State.setNv_changesOnly (ks : List Nat) (s : State) (n : Nv) : s.ChangesOnly ks (s.setNv n) where
  frame := rfl
  wf hs := hs
  rd _ _ _ := rfl

theorem State.wr_changesOnly {ks : List Nat} (s : State) {k : Nat} (v : Nat) (hk : k ∈ ks) :
    s.ChangesOnly ks (s.wr k v) where
  frame := rfl
  wf hs := s.wr_wf k v hs
  rd hs j hj := by rw [s.rd_wr k j v hs, if_neg fun (h : j = k) => hj (h ▸ hk)]

theorem State.ChangesOnly.ite {ks : List Nat} {s t u : State} {c : Prop} [Decidable c] (ht : s.ChangesOnly ks t)
    (hu : s.ChangesOnly ks u) : s.ChangesOnly ks (if c then t else u) := by
  split
  · exact ht
  · exact hu

theorem State.count_changesOnly {ks : List Nat} (s : State) {k : Nat} (n : Nat) (hk : k ∈ ks) :
    s.ChangesOnly ks (s.count k n) := s.wr_changesOnly _ hk

theorem State.uncount_changesOnly {ks : List Nat} (s : State) {k : Nat} (n : Nat) (hk : k ∈ ks) :
    s.ChangesOnly ks (s.uncount k n) := s.wr_changesOnly _ hk

theorem State.wrs_changesOnly {ks : List Nat} (l : List (Nat × Nat)) : ∀ (s : State), (∀ p ∈ l, p.1 ∈ ks) →
    s.ChangesOnly ks (s.wrs l) := by
  induction l with
  | nil => exact fun s _ => s.setNv_changesOnly ks s.nv
  | cons p l ih =>
    intro s hl
    exact (s.wr_changesOnly p.2 (hl p (by simp))).trans (ih _ fun q hq => hl q (by simp [hq]))

/-- The open sectors' next units are taken; erased sectors replace full ones (R641). -/
def State.takeParamUnits (s : State) : State :=
  if 16 ≤ s.nv.paramUnits ∨ s.nv.paramUnits = 0 then
    (s.setNv { s.nv with paramUnits := 1 }).uncount Key.paramErased 2
  else s.setNv { s.nv with paramUnits := s.nv.paramUnits + 1 }

/-- A compaction of the region (R644). -/
def State.compactRegion (s : State) : State :=
  let s := s.compactRecs
  ((s.setNv { s.nv with paramUnits := (recKeys s.nv.recs).length % 16 }).wrs
    [(Key.paramErased, s.rd Key.paramUsable - s.paramSectors),
     (Key.paramCyclesMax, min (s.rd Key.paramCyclesMax + 1) 0xFFFFFFFF)]).count Key.paramCompactions

/-- A record is written in three moves: its copies, the units they take, a compaction when erased sectors run low. -/
theorem State.paramRecord_eq (s : State) (k v : Nat) : s.paramRecord k v =
    if (s.alsoRecord k v).takeParamUnits.rd Key.paramErased < 32 then
      (s.alsoRecord k v).takeParamUnits.compactRegion
    else (s.alsoRecord k v).takeParamUnits := rfl

theorem State.alsoRecord_changesOnly (ks : List Nat) (s : State) (k v : Nat) : s.ChangesOnly ks (s.alsoRecord k v) :=
  s.setNv_changesOnly ks _

theorem State.takeParamUnits_changesOnly (s : State) : s.ChangesOnly paramStatus s.takeParamUnits :=
  .ite ((s.setNv_changesOnly _ _).trans (State.uncount_changesOnly _ 2 (by decide))) (s.setNv_changesOnly _ _)

theorem State.compactRegion_changesOnly (s : State) : s.ChangesOnly paramStatus s.compactRegion :=
  (((s.setNv_changesOnly _ _).trans (State.setNv_changesOnly _ _ _)).trans
    (State.wrs_changesOnly _ _ (by simp [paramStatus]))).trans (State.count_changesOnly _ 1 (by decide))

theorem State.paramRecord_changesOnly (s : State) (k v : Nat) : s.ChangesOnly paramStatus (s.paramRecord k v) := by
  have hopen := (s.alsoRecord_changesOnly _ k v).trans (State.takeParamUnits_changesOnly _)
  rw [State.paramRecord_eq]
  exact .ite (hopen.trans (State.compactRegion_changesOnly _)) hopen

theorem State.ChangesOnly.mono {ks ks' : List Nat} {s t : State} (h : s.ChangesOnly ks t) (hks : ks ⊆ ks') :
    s.ChangesOnly ks' t where
  frame := h.frame
  wf := h.wf
  rd hs j hj := h.rd hs j fun hmem => hj (hks hmem)

theorem State.ChangesOnly.quires {ks : List Nat} {s t : State} (h : s.ChangesOnly ks t) : t.quires = s.quires := by
  rw [h.frame]

theorem State.ChangesOnly.tiers {ks : List Nat} {s t : State} (h : s.ChangesOnly ks t) : t.tiers = s.tiers := by
  rw [h.frame]

theorem State.ChangesOnly.out {ks : List Nat} {s t : State} (h : s.ChangesOnly ks t) : t.out = s.out := by
  rw [h.frame]

theorem State.recorded_changesOnly (s : State) (k v : Nat) :
    s.ChangesOnly (k :: paramStatus) ((s.paramRecord k v).wr k v) :=
  ((s.paramRecord_changesOnly k v).mono (List.subset_cons_self _ _)).trans (State.wr_changesOnly _ v (by simp))

theorem State.recorded_rd_self (s : State) (k v : Nat) (h : valsWf s.sku 0 s.dict.vals = true) :
    ((s.paramRecord k v).wr k v).rd k = v := by
  rw [State.rd_wr _ k k v ((s.paramRecord_changesOnly k v).wf h), if_pos rfl]

/-- A stored entry that takes a value changes, beside the region's own entries, itself alone (R128). -/
theorem State.wrStored_changesOnly (s : State) (k v : Nat) : s.ChangesOnly (k :: paramStatus) (s.wrStored k v) :=
  .ite (s.setNv_changesOnly _ s.nv) (s.recorded_changesOnly k v)

theorem State.wrStored_rd_self (s : State) (k v : Nat) (h : valsWf s.sku 0 s.dict.vals = true) :
    (s.wrStored k v).rd k = v := by
  unfold State.wrStored
  split
  · next hsame => exact hsame
  · exact s.recorded_rd_self k v h

theorem State.rd_count_self (s : State) (k n : Nat) (h : valsWf s.sku 0 s.dict.vals = true) :
    (s.count k n).rd k = min (s.rd k + n) (s.maxOf k) := by
  rw [State.count, State.rd_wr s k k _ h, if_pos rfl]

@[simp] theorem State.alsoRecord_rd (s : State) (k v j : Nat) : (s.alsoRecord k v).rd j = s.rd j := rfl

end Sys2Proof.Machine
end

section
/-! PROOFS. The Colophon (05). -/

namespace Sys2Proof.Machine

/-! ### What the commands of this family answer -/

theorem exec_colophonLock (role : Role) (arg : List Byte) (s : State) :
    exec (.colophonLock role arg) s = .next (dictRequest role 0x1082 0 arg {} s) := rfl

theorem Key.colophonTag_div (n : Nat) (h : n < 256) : Key.colophonTag n / 256 = 0x1080 := by
  unfold Key.colophonTag
  omega

theorem Key.colophonTag_mod (n : Nat) (h : n < 256) : Key.colophonTag n % 256 = n := by
  unfold Key.colophonTag
  omega

theorem exec_colophonTagWrite (role : Role) (sub : Byte) (val : List Byte) (s : State) :
    exec (.colophonTagWrite role sub val) s = .next (dictRequest role 0x1080 sub.toNat val {} s) := by
  show Host.Outcome.next _ = _
  rw [Key.colophonTag_div _ sub.isLt, Key.colophonTag_mod _ sub.isLt]

/-! ### COLOPHON_TAG (R244, R245, R128) -/

/-- The card of COLOPHON_TAG (R243). -/
def colophonTagCard : Card := ⟨.abs, 0x1080, 0x1080, 1, 4, .bytes 64, .rw, .all, .h, .s, .cold, 0⟩

theorem cardsAt_colophonTag : cardsAt 0x1080 = [colophonTagCard] := by decide

theorem cardOf_colophonTag (s : State) (role : Option Role) (sub len : Nat)
    (h : s.shapeFail role true 0x1080 sub len = none) : cardOf s.sku 0x1080 sub = some colophonTagCard := by
  obtain ⟨c, hcard, hacc⟩ := s.card_of_shapeFail_none role 0x1080 sub len h
  have hlo : colophonTagCard.subLo = 1 := rfl
  have hhi : cardSubHi s.sku colophonTagCard = 4 := by cases s.sku <;> rfl
  by_cases hsub : 1 ≤ sub ∧ sub ≤ 4
  · have hfit : (decide (colophonTagCard.subLo ≤ sub) && decide (sub ≤ cardSubHi s.sku colophonTagCard)) = true := by
      simpa [hlo, hhi] using hsub
    simp [cardOf, cardsAt_colophonTag, hfit]
  · have hfit : (decide (colophonTagCard.subLo ≤ sub) && decide (sub ≤ cardSubHi s.sku colophonTagCard)) = false := by
      simpa [hlo, hhi] using hsub
    simp only [cardOf, cardsAt_colophonTag, List.find?, hfit] at hcard
    split at hcard
    · cases hcard
      exact absurd rfl hacc
    · simp at hcard

/-- Tags take no value any more: COLOPHON_LOCKED, or a full count (R245). -/
abbrev State.TagsLocked (s : State) : Prop := s.rdB Key.colophonLocked = true ∨ 10000 ≤ s.rd Key.colophonWrites

theorem State.locks_colophonTag (s : State) : s.locks 0x1080 = true ↔ s.TagsLocked := by
  simp [State.locks]

/-- A tag and the count of tag writes take their values and their records (R244). -/
def State.storeTag (s : State) (n v : Nat) : State :=
  let s := ((s.paramRecord (Key.colophonTag n) v).wr (Key.colophonTag n) v).count Key.colophonWrites
  s.alsoRecord Key.colophonWrites (s.rd Key.colophonWrites)

theorem colophonTagWrite_of_same (n v : Nat) (s : State)
    (hlock : ¬ s.TagsLocked) (h : s.rd (Key.colophonTag n) = v) :
    colophonTagWrite n v s = (DS.ok, s) := by
  rw [colophonTagWrite, if_neg hlock, if_pos h]

theorem colophonTagWrite_of_new (n v : Nat) (s : State)
    (hlock : ¬ s.TagsLocked) (h : s.rd (Key.colophonTag n) ≠ v)
    (hroom : s.paramFull = false) : colophonTagWrite n v s = (DS.ok, s.storeTag n v) := by
  rw [colophonTagWrite, if_neg hlock, if_neg h, if_neg (by simp [hroom])]
  rfl

theorem Key.colophonTag_distinct (n : Nat) (h : n < 256) : Key.colophonTag n ≠ Key.colophonWrites ∧
    Key.colophonTag n ≠ Key.colophonLocked ∧ Key.colophonTag n ∉ paramStatus := by
  simp only [Key.colophonTag, Key.colophonWrites, Key.colophonLocked, paramStatus, Key.paramErased, Key.paramCyclesMax,
    Key.paramCompactions, List.mem_cons, List.not_mem_nil, or_false, not_or]
  omega

theorem State.maxOf_colophonWrites (s : State) : s.maxOf Key.colophonWrites = 2 ^ 32 - 1 := by
  have hcard : cardOf s.sku 0x1081 1 = some ⟨.abs, 0x1081, 0x1081, 1, 1, .uint 4, .ro, .all, .none, .s, .hot, 0⟩ := by
    cases s.sku <;> decide
  rw [State.maxOf, show Key.colophonWrites / 256 = 0x1081 from rfl, show Key.colophonWrites % 256 = 1 from rfl, hcard]
  rfl

theorem State.storeTag_changesOnly (s : State) (n v : Nat) :
    s.ChangesOnly (Key.colophonTag n :: Key.colophonWrites :: paramStatus) (s.storeTag n v) :=
  ((s.recorded_changesOnly (Key.colophonTag n) v).mono (List.cons_subset_cons _ (List.subset_cons_self _ _))).trans
    ((State.count_changesOnly _ 1 (by simp)).trans (State.alsoRecord_changesOnly _ _ _ _))

theorem State.storeTag_rd_tag (s : State) (n v : Nat) (h : valsWf s.sku 0 s.dict.vals = true) (hn : n < 256) :
    (s.storeTag n v).rd (Key.colophonTag n) = v := by
  obtain ⟨hne, -, -⟩ := Key.colophonTag_distinct n hn
  have hrecorded := (s.recorded_changesOnly (Key.colophonTag n) v).wf h
  rw [State.storeTag, State.alsoRecord_rd, State.count, State.rd_wr _ _ _ _ hrecorded, if_neg hne]
  exact s.recorded_rd_self _ v h

theorem State.storeTag_rd_writes (s : State) (n v : Nat) (h : valsWf s.sku 0 s.dict.vals = true) (hn : n < 256)
    (hcount : s.rd Key.colophonWrites < 10000) :
    (s.storeTag n v).rd Key.colophonWrites = s.rd Key.colophonWrites + 1 := by
  obtain ⟨hne, -, -⟩ := Key.colophonTag_distinct n hn
  have hkey : Key.colophonWrites ∉ Key.colophonTag n :: paramStatus := by
    simp only [List.mem_cons, not_or]
    exact ⟨hne.symm, by decide⟩
  have hrecorded := s.recorded_changesOnly (Key.colophonTag n) v
  rw [State.storeTag, State.alsoRecord_rd, State.rd_count_self _ _ _ (hrecorded.wf h), hrecorded.rd h _ hkey,
    State.maxOf_colophonWrites]
  omega

theorem State.storeTag_rd_locked (s : State) (n v : Nat) (h : valsWf s.sku 0 s.dict.vals = true) (hn : n < 256) :
    (s.storeTag n v).rd Key.colophonLocked = s.rd Key.colophonLocked := by
  obtain ⟨-, hne, -⟩ := Key.colophonTag_distinct n hn
  refine (s.storeTag_changesOnly n v).rd h _ ?_
  simp only [List.mem_cons, not_or]
  exact ⟨hne.symm, by decide, by decide⟩

theorem allowed_colophonTag (s : State) (role : Role) (sub : Byte) (len : Nat) :
    Allowed s role (Key.colophonTag sub.toNat) len ↔ s.shapeFail (some role) true 0x1080 sub.toNat len = none := by
  rw [Allowed, Key.colophonTag_div _ sub.isLt, Key.colophonTag_mod _ sub.isLt]

theorem exec_colophonTagWrite_of_write {s t : State} {role : Role} {sub : Byte} {st : Nat} {val : List Byte}
    (hs : Serving s) (hallowed : Allowed s role (Key.colophonTag sub.toNat) val.length)
    (hlock : ¬ s.TagsLocked)
    (hwrite : colophonTagWrite sub.toNat (leNat val) s = (st, t)) (hst : st ≠ DS.role) :
    exec (.colophonTagWrite role sub val) s = .next (t.answer st) := by
  rw [allowed_colophonTag] at hallowed
  have hcard := cardOf_colophonTag s _ _ _ hallowed
  have hopen : s.locks 0x1080 = false := by rwa [← Bool.not_eq_true, s.locks_colophonTag]
  rw [exec_colophonTagWrite]
  congr 1
  refine dictRequest_of_cold (s.attends_of_serving hs) hallowed hcard rfl ?_ hst
  rw [serveWrite_of_open colophonTagCard (writeOf role 0x1080 sub.toNat val) {} false s hopen
    (s.recoveryBars_of_serving _ hs) rfl rfl,
    serveOp_low colophonTagCard (writeOf role 0x1080 sub.toNat val) {} false s (Or.inl (by decide : 0x1080 < 0x1210))
      hcard rfl]
  exact hwrite

theorem exec_colophonTagWrite_of_locked {s : State} {role : Role} {sub : Byte} {val : List Byte} (hs : Serving s)
    (hallowed : Allowed s role (Key.colophonTag sub.toNat) val.length)
    (hlock : s.TagsLocked) :
    exec (.colophonTagWrite role sub val) s = .next (s.answer DS.locked) := by
  rw [allowed_colophonTag] at hallowed
  rw [exec_colophonTagWrite]
  congr 1
  exact dictRequest_of_cold (s.attends_of_serving hs) hallowed (cardOf_colophonTag s _ _ _ hallowed) rfl
    (serveWrite_of_locks _ _ _ _ _ (s.locks_colophonTag.2 hlock)) (by decide)

/-! ### COLOPHON_LOCK (R246) -/

theorem colophonLockWrite_of_bad_argument (arg : List Byte) (s : State) (h : fieldLe arg 0 4 ≠ 0x10C40019) :
    colophonLockWrite arg s = (DS.range, s) := if_pos h

theorem colophonLockWrite_of_run (arg : List Byte) (s : State) (h : fieldLe arg 0 4 = 0x10C40019)
    (hidle : s.cmdRunning Key.colophonLock = false) : colophonLockWrite arg s =
      (DS.ok, (s.wrStored Key.colophonLocked 1).cmdDone Key.colophonLock DS.ok []) := by
  rw [colophonLockWrite, if_neg (not_not.2 h), State.ifIdle_of_idle _ _ _ hidle]

theorem exec_colophonLock_of_write {s t : State} {role : Role} {st : Nat} {arg : List Byte} (hs : Serving s)
    (hallowed : Allowed s role Key.colophonLock arg.length) (hwrite : colophonLockWrite arg s = (st, t))
    (hst : st ≠ DS.role) : exec (.colophonLock role arg) s = .next (t.answer st) := by
  rw [exec_colophonLock, dictRequest_command (idx := 0x1082) (by decide) (s.attends_of_serving hs) hallowed
    (s.recoveryBars_of_serving _ hs) hwrite hst]

/-! ### The Colophon: the statement -/

/-- Settles O18: a new tag is `State.storeTag`, which changes the tag, the count and the region's own entries alone; the
lock is one stored entry. -/
theorem colophon : Obligations.Colophon := by
  intro s role hs hinv
  obtain ⟨hvals, -, -⟩ := hinv
  refine ⟨fun sub val hallowed => ⟨fun hlock => ?locked, fun hlock hsame => ?same, fun hlock hnew hroom => ?new⟩,
    fun arg hallowed => ⟨fun harg => ?badArgument, fun harg hidle => ?lock⟩⟩
  case locked => exact exec_colophonTagWrite_of_locked hs hallowed hlock
  case same =>
    exact exec_colophonTagWrite_of_write hs hallowed hlock (colophonTagWrite_of_same _ _ s hlock hsame) (by decide)
  case new =>
    have hcount : s.rd Key.colophonWrites < 10000 := Nat.lt_of_not_le fun h => hlock (Or.inr h)
    have hstored := s.storeTag_changesOnly sub.toNat (leNat val)
    refine ⟨_, exec_colophonTagWrite_of_write hs hallowed hlock (colophonTagWrite_of_new _ _ s hlock hnew hroom)
      (by decide), ?_, ?_, ?_, hstored.quires, hstored.tiers, by rw [State.answer_out, hstored.out]⟩
    · rw [State.answer_rd, s.storeTag_rd_tag _ _ hvals sub.isLt]
    · rw [State.answer_rd, s.storeTag_rd_writes _ _ hvals sub.isLt hcount]
    · rw [State.answer_rd, s.storeTag_rd_locked _ _ hvals sub.isLt]
  case badArgument =>
    exact exec_colophonLock_of_write hs hallowed (colophonLockWrite_of_bad_argument arg s harg) (by decide)
  case lock =>
    have hdone := State.cmdDone_cmd (s.wrStored Key.colophonLocked 1) Key.colophonLock DS.ok []
    have hstored := s.wrStored_changesOnly Key.colophonLocked 1
    refine ⟨_, exec_colophonLock_of_write hs hallowed (colophonLockWrite_of_run arg s harg hidle) (by decide), ?_, ?_,
      congrArg CmdBlock.result hdone, fun n hn => ?_, ?_⟩
    · simp [State.rdB, s.wrStored_rd_self _ _ hvals]
    · rw [State.answer_rd, State.cmdDone_rd, hstored.rd hvals _ (by decide)]
    · obtain ⟨-, hne, hstatus⟩ := Key.colophonTag_distinct n (by omega)
      rw [State.answer_rd, State.cmdDone_rd, hstored.rd hvals _ (by simp [hne, hstatus])]
    · rw [State.answer_out, State.cmdDone_out, hstored.out]

end Sys2Proof.Machine
end

section
/-! PROOFS. Commands of a quire's block (06, R288): a run of one answers what its operation answers. -/

namespace Sys2Proof.Machine

/-- Q_ENABLE, Q_DISABLE, Q_RESET, Q_DMA_FAULT and Q_STITCH_CONFIG (R288, R325): the place in the block, the lengths of
argument and result, the roles. -/
def quireCommands : List (Nat × Nat × Nat × Grant) :=
  [(0x01, 0, 0, .h), (0x02, 1, 4, .hq), (0x03, 0, 4, .h), (0x04, 8, 0, .h), (0x42, 16, 0, .hq)]

/-- The card of such a command. -/
def quireCommandCard (p : Nat × Nat × Nat × Grant) : Card :=
  ⟨.quire, p.1, p.1, 0, 0, .cmd p.2.1 p.2.2.1, .cmd, p.2.2.2, p.2.2.2, .v, .cold, 0⟩

/-- The index of an entry of a quire's block (R287). -/
def blockIndex (q : QNum) (i : Nat) : Nat := 0x2000 + q.val * 0x100 + i

theorem blockIndex_bounds (q : QNum) {i : Nat} (hi : i < 256) : 0x2000 ≤ blockIndex q i ∧ blockIndex q i < 0x2800 := by
  unfold blockIndex
  omega

theorem blockIndex_mod (q : QNum) {i : Nat} (hi : i < 256) : blockIndex q i % 256 = i := by
  unfold blockIndex
  omega

theorem blockIndex_quire (q : QNum) {i : Nat} (hi : i < 256) : Fin.ofNat 8 ((blockIndex q i - 0x2000) / 256) = q := by
  apply Fin.ext
  simp only [blockIndex, Fin.ofNat]
  omega

theorem cardsAt_block (q : QNum) {i : Nat} (hi : i < 256) :
    cardsAt (blockIndex q i) = quireCards.filter fun c => c.ixLo == i := by
  have hbounds := blockIndex_bounds q hi
  rw [cardsAt, if_neg (by omega), if_pos hbounds, blockIndex_mod q hi]

theorem quireCards_command : ∀ p ∈ quireCommands, (quireCards.filter fun c => c.ixLo == p.1) = [quireCommandCard p] := by
  decide

theorem quireCommands_place : ∀ p ∈ quireCommands, p.1 < 256 ∧ p.1 ≠ 0x1F ∧ p.1 ≠ 0x4F ∧ p.1 ≠ 0x6F := by
  decide

theorem cardOf_quireCommand (sku : Sku) (q : QNum) {p : Nat × Nat × Nat × Grant} (hp : p ∈ quireCommands) :
    cardOf sku (blockIndex q p.1) 0 = some (quireCommandCard p) := by
  obtain ⟨hi, -⟩ := quireCommands_place p hp
  rw [cardOf, cardsAt_block q hi, quireCards_command p hp]
  simp [quireCommandCard]

theorem setOfCommit_block (q : QNum) {i : Nat} (hi : i < 256) (h : i ≠ 0x1F ∧ i ≠ 0x4F ∧ i ≠ 0x6F) :
    setOfCommit (blockIndex q i) = none := by
  obtain ⟨hring, hstitch, htier⟩ := h
  have hbounds := blockIndex_bounds q hi
  rw [setOfCommit, if_neg (by omega), if_neg (by omega), if_pos hbounds]
  simp [blockIndex_mod q hi, hring, hstitch, htier]

theorem State.locks_block (s : State) (q : QNum) {i : Nat} (hi : i < 256) : s.locks (blockIndex q i) = false := by
  have hbounds := blockIndex_bounds q hi
  simp [State.locks, show blockIndex q i ≠ 0x1080 by omega, show blockIndex q i ≠ 0x1201 by omega,
    show blockIndex q i ≠ 0x110E by omega]

theorem serveOp_block (q : QNum) {p : Nat × Nat × Nat × Grant} (hp : p ∈ quireCommands) (role : Role)
    (arg : List Byte) (env : Env) (viaI3c : Bool) (s : State) :
    serveOp (quireCommandCard p) (writeOf role (blockIndex q p.1) 0 arg) env viaI3c s =
      serveBlock q (quireCommandCard p) (writeOf role (blockIndex q p.1) 0 arg) s := by
  obtain ⟨hi, hcommit⟩ := quireCommands_place p hp
  have hbounds := blockIndex_bounds q hi
  have hidx : (writeOf role (blockIndex q p.1) 0 arg).idx = blockIndex q p.1 := rfl
  have hsub : (writeOf role (blockIndex q p.1) 0 arg).sub = 0 := rfl
  unfold serveOp
  rw [hidx, hsub, setOfCommit_block q hi hcommit, setOfMember_of_not_rs _ _ _ _ (cardOf_quireCommand s.sku q hp) rfl]
  dsimp only
  rw [if_neg (by omega), if_pos hbounds, blockIndex_quire q hi]

/-- A run of one of the commands answers what `serveBlock` answers. -/
theorem dictRequest_quireCommand {s t : State} {role : Role} {q : QNum} {p : Nat × Nat × Nat × Grant} {st : Nat}
    {arg : List Byte} (hp : p ∈ quireCommands) (hs : Serving s)
    (hshape : s.shapeFail (some role) true (blockIndex q p.1) 0 arg.length = none)
    (hserve : serveBlock q (quireCommandCard p) (writeOf role (blockIndex q p.1) 0 arg) s = (st, t)) (hst : st ≠ DS.role) :
    dictRequest role (blockIndex q p.1) 0 arg {} s = t.answer st := by
  obtain ⟨hi, -⟩ := quireCommands_place p hp
  refine dictRequest_of_cold (s.attends_of_serving hs) hshape (cardOf_quireCommand s.sku q hp) rfl ?_ hst
  rw [serveWrite_of_open _ _ _ _ _ (s.locks_block q hi) (s.recoveryBars_of_serving _ hs) rfl rfl,
    serveOp_block q hp, hserve]

/-- Index and sub of the key of a command of the block. -/
theorem blockKey (q : QNum) (i : Nat) :
    ((0x2000 + q.val * 0x100 + i) * 256 + 0) / 256 = blockIndex q i ∧ ((0x2000 + q.val * 0x100 + i) * 256 + 0) % 256 = 0 := by
  unfold blockIndex
  omega

end Sys2Proof.Machine
end

section
/-! PROOFS. The end of a quire's runs (06, R295, R302) and the freeze (R294 to R299). -/

namespace Sys2Proof.Machine

/-! ### What an operation leaves of the register file -/

/-- The register file of `t` is that of `s` but for keys with `P`. -/
structure State.RegsKept (P : Nat → Prop) (s t : State) : Prop where
  wf : valsWf s.sku 0 s.dict.vals = true → valsWf t.sku 0 t.dict.vals = true
  rd : valsWf s.sku 0 s.dict.vals = true → ∀ k, ¬ P k → t.rd k = s.rd k

theorem State.RegsKept.of_eq {P : Nat → Prop} {s t : State} (hsku : t.sku = s.sku) (hvals : t.dict.vals = s.dict.vals) :
    s.RegsKept P t where
  wf h := by rwa [hsku, hvals]
  rd _ k _ := by rw [State.rd, State.rd, hsku, hvals]

theorem State.RegsKept.trans {P : Nat → Prop} {s t u : State} (h : s.RegsKept P t) (h' : t.RegsKept P u) :
    s.RegsKept P u where
  wf hs := h'.wf (h.wf hs)
  rd hs k hk := (h'.rd (h.wf hs) k hk).trans (h.rd hs k hk)

theorem State.wr_regsKept {P : Nat → Prop} (s : State) {k : Nat} (v : Nat) (hk : P k) : s.RegsKept P (s.wr k v) where
  wf hs := s.wr_wf k v hs
  rd hs j hj := by rw [s.rd_wr k j v hs, if_neg fun (h : j = k) => hj (h ▸ hk)]

theorem State.count_regsKept {P : Nat → Prop} (s : State) {k : Nat} (n : Nat) (hk : P k) :
    s.RegsKept P (s.count k n) := s.wr_regsKept _ hk

/-! ### The end of the runs (R535, R559) -/

/-- A counter of a quire's stitches or scopes: index 0x48 or 0xA0 of its block (R320, R549). -/
def isTally (k : Nat) : Prop := k / 256 % 256 = 0x48 ∨ k / 256 % 256 = 0xA0

/-- `t` keeps every quire but for its runs, the result blocks, and every entry that is no tally. -/
structure State.RunsTouched (s t : State) : Prop where
  quire : ∀ p, t.quire p = { s.quire p with runs := (t.quire p).runs }
  cmds : t.dict.cmds = s.dict.cmds
  regs : s.RegsKept isTally t

theorem State.RunsTouched.of_eq {s t : State} (hquires : t.quires = s.quires) (hdict : t.dict = s.dict)
    (hsku : t.sku = s.sku) : s.RunsTouched t where
  quire p := by simp only [State.quire, hquires]
  cmds := by rw [hdict]
  regs := .of_eq hsku (by rw [hdict])

theorem State.RunsTouched.refl (s : State) : s.RunsTouched s := .of_eq rfl rfl rfl

theorem State.RunsTouched.trans {s t u : State} (h : s.RunsTouched t) (h' : t.RunsTouched u) : s.RunsTouched u where
  quire p := by rw [h'.quire p, h.quire p]
  cmds := h'.cmds.trans h.cmds
  regs := h.regs.trans h'.regs

theorem State.RunsTouched.foldl {α : Type} {f : State → α → State} {l : List α} {s t : State} (h : s.RunsTouched t)
    (hf : ∀ (u : State) (a : α), u.RunsTouched (f u a)) : s.RunsTouched (l.foldl f t) :=
  List.foldlRecOn l f h fun u hu a _ => hu.trans (hf u a)

theorem State.RunsTouched.count {s t : State} (h : s.RunsTouched t) {k n : Nat} (hk : isTally k) :
    s.RunsTouched (t.count k n) := h.trans ⟨fun _ => rfl, rfl, t.count_regsKept n hk⟩

@[simp] theorem State.modQuire_quire (s : State) (q : QNum) (f : Quire → Quire) : (s.modQuire q f).quire q = f (s.quire q) :=
  s.setQuire_quire q _

theorem State.modQuire_quire_ne (s : State) {q p : QNum} (f : Quire → Quire) (h : p ≠ q) :
    (s.modQuire q f).quire p = s.quire p := s.setQuire_quire_ne q p _ h

theorem State.setRuns_runsTouched (s : State) (q : QNum) (g : List Run → List Run) :
    s.RunsTouched (s.modQuire q fun x => { x with runs := g x.runs }) where
  quire p := by
    by_cases hp : p = q
    · subst hp
      simp
    · rw [s.modQuire_quire_ne _ hp]
  cmds := rfl
  regs := .of_eq rfl rfl

theorem State.RunsTouched.modRun {s t : State} (h : s.RunsTouched t) {q : QNum} {id : Nat} {f : Run → Run} :
    s.RunsTouched (t.modRun q id f) := h.trans (t.setRuns_runsTouched q _)

theorem State.RunsTouched.modBay {s t : State} (h : s.RunsTouched t) {b : BayNum} {f : Bay → Bay} :
    s.RunsTouched (t.modBay b f) := h.trans (.of_eq rfl rfl rfl)

theorem State.setLeaf_runsTouched (s : State) (p : Place) (n : Nat) (f : Mem) : s.RunsTouched (s.setLeaf p n f) := by
  cases p <;> exact .of_eq rfl rfl rfl

theorem State.storeLeaf_runsTouched (s : State) (p : Place) (n : Nat) (f : Mem) (xo : Bool) :
    s.RunsTouched ((s.setLeaf p n f).setXo p n xo) := (s.setLeaf_runsTouched p n f).trans (.of_eq rfl rfl rfl)

theorem State.voidLeaf_runsTouched (s : State) (q : QNum) (addr : Nat) : s.RunsTouched (s.voidLeaf q addr) := by
  unfold State.voidLeaf
  split
  · split
    · exact s.storeLeaf_runsTouched _ _ _ _
    · exact .refl s
  · exact .refl s

theorem State.leaveFrame_runsTouched (s : State) (q : QNum) (addr : Nat) (f : Mem) (xo : Bool) :
    s.RunsTouched (s.leaveFrame q addr f xo) := by
  unfold State.leaveFrame
  split
  · split
    · exact s.storeLeaf_runsTouched _ _ _ _
    · exact .of_eq rfl rfl rfl
    · exact .refl s
  · exact .refl s

theorem isTally_stitch (q : QNum) : isTally (Key.qStSignals q) ∧ isTally (Key.qStDiscarded q) := by
  simp only [isTally, Key.qStSignals, Key.qStDiscarded]
  omega

theorem isTally_scope (q : QNum) : isTally (Key.qSpecOpened q) ∧ isTally (Key.qSpecCommits q) ∧
    isTally (Key.qSpecCancels q) ∧ isTally (Key.qSpecLeaves q) ∧ isTally (Key.qSpecKept q) ∧ isTally (Key.qSpecVoid q) ∧
    isTally (Key.qSpecDropped q) := by
  simp only [isTally, Key.qSpecOpened, Key.qSpecCommits, Key.qSpecCancels, Key.qSpecLeaves, Key.qSpecKept, Key.qSpecVoid,
    Key.qSpecDropped]
  omega

theorem State.dropUnsensed_runsTouched (s : State) (q : QNum) (run sc : Nat) :
    s.RunsTouched (s.dropUnsensed q run sc) := by
  obtain ⟨-, -, -, -, -, -, hdropped⟩ := isTally_scope q
  refine State.RunsTouched.count ?_ hdropped
  refine .foldl (.of_eq rfl rfl rfl) fun t r => ?_
  split
  · exact .modBay (.refl t)
  · exact .refl t

theorem State.countClose_runsTouched (s : State) (q : QNum) (run : Nat) (sc : Scope) (committed : Bool) :
    s.RunsTouched (s.countClose q run sc committed) := by
  obtain ⟨hopened, hcommits, hcancels, hleaves, hkept, hvoid, -⟩ := isTally_scope q
  unfold State.countClose
  split
  · exact .count (.count (.count (.count (.modRun (.refl s)) hopened) hleaves) hcommits) hkept
  · exact .count (.count (.count (.count (.modRun (.refl s)) hopened) hleaves) hcancels) hvoid

theorem State.absorbSignals_runsTouched (s : State) (ns : List Nat) : s.RunsTouched (s.absorbSignals ns) := by
  refine .foldl (.of_eq rfl rfl rfl) fun t p => ?_
  split
  · next o _ =>
    obtain ⟨hsignals, hdiscarded⟩ := isTally_stitch o
    refine .count (.refl t) ?_
    split
    · exact hdiscarded
    · exact hsignals
  · exact .refl t

theorem State.cancelScope_runsTouched (s : State) (q : QNum) (r : Run) (sc : Scope) :
    s.RunsTouched (s.cancelScope q r sc) := by
  refine State.RunsTouched.trans ?_ (State.countClose_runsTouched _ q r.id sc false)
  refine .foldl (.trans (.modRun ?_) (State.absorbSignals_runsTouched _ _)) fun t n => .of_eq rfl rfl rfl
  refine .foldl ?_ fun t e => t.voidLeaf_runsTouched q e.1
  refine .foldl (s.dropUnsensed_runsTouched q r.id sc.id) fun t b => ?_
  exact .modBay (.refl t)

theorem State.cancelScopes_runsTouched (s : State) (q : QNum) : s.RunsTouched (s.cancelScopes q) :=
  .foldl (.refl s) fun t _ => .modRun (.foldl (.refl t) fun u c => u.cancelScope_runsTouched q _ c)

theorem State.flushMoves_runsTouched (s : State) (q : QNum) (b : BayNum) : s.RunsTouched (s.flushMoves q b) := by
  unfold State.flushMoves
  refine State.RunsTouched.modBay ?_
  refine .foldl (.refl s) fun t m => ?_
  exact t.leaveFrame_runsTouched q m.addr m.frame m.xo

theorem State.leaveFrame_quires (s : State) (q : QNum) (addr : Nat) (f : Mem) (xo : Bool) :
    (s.leaveFrame q addr f xo).quires = s.quires := by
  unfold State.leaveFrame State.setLeaf
  split
  · split
    · split <;> rfl
    · rfl
    · rfl
  · rfl

theorem State.flushMoves_quires (s : State) (q : QNum) (b : BayNum) : (s.flushMoves q b).quires = s.quires := by
  unfold State.flushMoves
  rw [State.modBay_quires]
  exact List.foldlRecOn (motive := fun (t : State) => t.quires = s.quires) _ _ rfl fun t ht m _ =>
    (t.leaveFrame_quires q m.addr m.frame m.xo).trans ht

/-- A bay that steps a run of the quire steps none: its moves to T1 and T2 complete, its marks go. -/
def State.endBayRun (s : State) (q : QNum) (b : BayNum) : State :=
  match (s.bay b).seq.run with
  | some (p, _) => if p = q then (s.flushMoves q b).modBay b fun x => { x.clearMarks with seq := Seq.reset } else s
  | none => s

/-- The quire's runs go, and their claims. -/
def State.dropRuns (s : State) (q : QNum) : State :=
  let s := s.modQuire q fun x => { x with runs := [] }
  s.setNv { s.nv with claims := s.nv.claims.filter fun c => c.2.1 != q }

@[simp] theorem State.dropRuns_quire (s : State) (q : QNum) : (s.dropRuns q).quire q = { s.quire q with runs := [] } :=
  s.modQuire_quire q fun x => { x with runs := [] }

theorem State.endRuns_eq (s : State) (q : QNum) :
    s.endRuns q = ((s.cancelScopes q).dropRuns q).forB fun s b => s.endBayRun q b := rfl

theorem State.endBayRun_runsTouched (s : State) (q : QNum) (b : BayNum) : s.RunsTouched (s.endBayRun q b) := by
  unfold State.endBayRun
  split
  · split
    · exact .modBay (s.flushMoves_runsTouched q b)
    · exact .refl s
  · exact .refl s

theorem State.endBayRun_quires (s : State) (q : QNum) (b : BayNum) : (s.endBayRun q b).quires = s.quires := by
  unfold State.endBayRun
  split
  · split
    · exact s.flushMoves_quires q b
    · rfl
  · rfl

theorem State.dropRuns_runsTouched (s : State) (q : QNum) : s.RunsTouched (s.dropRuns q) :=
  (s.setRuns_runsTouched q fun _ => []).trans (.of_eq rfl rfl rfl)

theorem State.endRuns_runsTouched (s : State) (q : QNum) : s.RunsTouched (s.endRuns q) :=
  .foldl ((s.cancelScopes_runsTouched q).trans (State.dropRuns_runsTouched _ q)) fun t b => t.endBayRun_runsTouched q b

theorem State.endRuns_runs (s : State) (q : QNum) : ((s.endRuns q).quire q).runs = [] := by
  have hquires : (s.endRuns q).quires = ((s.cancelScopes q).dropRuns q).quires := by
    rw [State.endRuns_eq]
    exact List.foldlRecOn (motive := fun (t : State) => t.quires = ((s.cancelScopes q).dropRuns q).quires) _ _ rfl
      fun t ht b _ => (t.endBayRun_quires q b).trans ht
  rw [State.quire, hquires]
  exact congrArg Quire.runs (State.dropRuns_quire _ q)

/-- All of the quire but its runs is as it was. -/
theorem State.endRuns_quire (s : State) (q : QNum) : (s.endRuns q).quire q = { s.quire q with runs := [] } := by
  rw [(s.endRuns_runsTouched q).quire q, s.endRuns_runs q]

/-! ### The freeze (R295) -/

/-- The quire's stitches are to be poisoned, its waits and its lent slots end (R295, R347, R417). -/
def State.poisonQuire (s : State) (q : QNum) : State :=
  let s := s.setSt { s.st with poisons := s.st.poisons ++ [s.stitchRange q] }
  (s.dropWaits fun _ h => h.quire == q).endLending q

/-- Steps 2 to 5 of R295: nothing goes out any more, the quire's stitches are poisoned, the frame of the sentinel it owns is
abandoned. -/
def State.haltQuire (s : State) (q : QNum) : State :=
  let s := (s.stopQuire q).poisonQuire q
  if q = 7 then s.sentAbandon else s

/-- Q_STATE becomes FROZEN: no completion stays held, a WAKE without its answer is withdrawn (R296). -/
def State.markFrozen (s : State) (q : QNum) : State :=
  (s.modQuire q fun y => { y with
    state := .frozen, heldCq := [], wakePending := false, pwr := if y.wakePending then .release else y.pwr }).count
      (Key.qFreezes q)

/-- A Q_DISABLE that drains `d` ends with the freeze (R301). -/
def State.endDisabling (s : State) (q : QNum) (d : Option Disabling) : State :=
  if d.isSome then
    (s.modQuire q fun y => { y with disabling := none }).cmdDone (Key.qDisable q) DS.state (natLe 1 3 ++ natLe 1 0 ++
      natLe 2 ((d.map fun d => d.count).getD 0))
  else s

/-- A first violation: the runs end, the record is written, the quire halts and is FROZEN, the message goes out. -/
theorem State.freeze_of_lively (s : State) (q : QNum) (cause bay ring imp cycle cid sqi detail : Nat) (h : Lively s q) :
    s.freeze q cause bay ring imp cycle cid sqi detail =
      ((((((s.endRuns q).wr (Key.qFaultRecord q) (faultRecord cause bay ring imp cycle cid sqi (detail % 2 ^ 32) 0
        ((s.endRuns q).rtc.toNat % 2 ^ 32))).haltQuire q).markFrozen q).endDisabling q (s.quire q).disabling).msixSend
          (8 * q.val + 6)) := by
  obtain ⟨hfrozen, hresetting⟩ := h
  rw [State.freeze, if_neg hresetting, if_neg hfrozen]
  rfl

/-- A change of some bays changes the bays alone. -/
theorem State.foldl_modBay (f : Bay → Bay) (l : List BayNum) (s : State) :
    ∃ bays, l.foldl (fun s b => s.modBay b f) s = { s with bays := bays } :=
  List.foldlRecOn (motive := fun (t : State) => ∃ bays, t = { s with bays := bays }) l _ ⟨s.bays, rfl⟩
    fun t ht b _ => by
      obtain ⟨bays, rfl⟩ := ht
      exact ⟨_, rfl⟩

theorem State.stopQuire_eq (s : State) (q : QNum) :
    ∃ bays, s.stopQuire q = { s.count Key.hostWritesDropped (s.unsentWrites q) with bays := bays } :=
  State.foldl_modBay _ _ _

@[simp] theorem State.stopQuire_quires (s : State) (q : QNum) : (s.stopQuire q).quires = s.quires := by
  obtain ⟨bays, h⟩ := s.stopQuire_eq q
  simp [h]

/-- The sentinel, its state among the entries, and nothing else. -/
theorem State.sentAbandon_eq (s : State) : ∃ x, s.sentAbandon = s.setSent x ∨ s.sentAbandon = (s.setSent x).wr Key.sentState 1 := by
  refine ⟨{ s.sent with detect := none, stopAtEnd := false }, ?_⟩
  unfold State.sentAbandon
  dsimp only
  split
  · exact Or.inr rfl
  · exact Or.inl rfl

theorem State.sentAbandon_quires (s : State) : s.sentAbandon.quires = s.quires := by
  obtain ⟨x, h | h⟩ := s.sentAbandon_eq <;> rw [h] <;> rfl

theorem State.sentAbandon_st (s : State) : s.sentAbandon.st = s.st := by
  obtain ⟨x, h | h⟩ := s.sentAbandon_eq <;> rw [h] <;> rfl

@[simp] theorem State.poisonQuire_quires (s : State) (q : QNum) : (s.poisonQuire q).quires = s.quires := rfl

@[simp] theorem State.haltQuire_quires (s : State) (q : QNum) : (s.haltQuire q).quires = s.quires := by
  unfold State.haltQuire
  dsimp only
  split
  · rw [State.sentAbandon_quires, State.poisonQuire_quires, State.stopQuire_quires]
  · rw [State.poisonQuire_quires, State.stopQuire_quires]

theorem State.poisonQuire_poisons (s : State) (q : QNum) : s.stitchRange q ∈ (s.poisonQuire q).st.poisons :=
  List.mem_append_right s.st.poisons (List.mem_singleton_self (s.stitchRange q))

theorem State.haltQuire_poisons (s : State) (q : QNum) : (s.stopQuire q).stitchRange q ∈ (s.haltQuire q).st.poisons := by
  unfold State.haltQuire
  dsimp only
  split
  · rw [State.sentAbandon_st]
    exact State.poisonQuire_poisons _ q
  · exact State.poisonQuire_poisons _ q

/-- The entries a halt changes: the count of writes dropped, and the sentinel's state. -/
def isHaltKey (k : Nat) : Prop := k = Key.hostWritesDropped ∨ k = Key.sentState

theorem State.stopQuire_regsKept (s : State) (q : QNum) : s.RegsKept isHaltKey (s.stopQuire q) := by
  obtain ⟨bays, h⟩ := s.stopQuire_eq q
  rw [h]
  exact (s.count_regsKept _ (Or.inl rfl)).trans (.of_eq rfl rfl)

theorem State.sentAbandon_regsKept (s : State) : s.RegsKept isHaltKey s.sentAbandon := by
  obtain ⟨x, h | h⟩ := s.sentAbandon_eq
  · rw [h]
    exact .of_eq rfl rfl
  · rw [h]
    have hsent : s.RegsKept isHaltKey (s.setSent x) := .of_eq rfl rfl
    exact hsent.trans (State.wr_regsKept _ 1 (Or.inr rfl))

theorem State.poisonQuire_regsKept (s : State) (q : QNum) : s.RegsKept isHaltKey (s.poisonQuire q) := .of_eq rfl rfl

theorem State.haltQuire_regsKept (s : State) (q : QNum) : s.RegsKept isHaltKey (s.haltQuire q) := by
  have hpoison := (s.stopQuire_regsKept q).trans (State.poisonQuire_regsKept _ q)
  unfold State.haltQuire
  dsimp only
  split
  · exact hpoison.trans (State.sentAbandon_regsKept _)
  · exact hpoison

/-- A message goes out or is pending, and nothing else. -/
theorem State.msixSend_eq (s : State) (v : Nat) : ∃ out msix, s.msixSend v = { s with out := out, msix := msix } := by
  unfold State.msixSend
  dsimp only
  split
  · split
    · exact ⟨_, s.msix, rfl⟩
    · exact ⟨s.out, _, rfl⟩
  · exact ⟨s.out, s.msix, rfl⟩

@[simp] theorem State.msixSend_quires (s : State) (v : Nat) : (s.msixSend v).quires = s.quires := by
  obtain ⟨out, msix, h⟩ := s.msixSend_eq v
  rw [h]

@[simp] theorem State.msixSend_dict (s : State) (v : Nat) : (s.msixSend v).dict = s.dict := by
  obtain ⟨out, msix, h⟩ := s.msixSend_eq v
  rw [h]

@[simp] theorem State.msixSend_rd (s : State) (v k : Nat) : (s.msixSend v).rd k = s.rd k := by
  obtain ⟨out, msix, h⟩ := s.msixSend_eq v
  rw [h]
  rfl

@[simp] theorem State.msixSend_st (s : State) (v : Nat) : (s.msixSend v).st = s.st := by
  obtain ⟨out, msix, h⟩ := s.msixSend_eq v
  rw [h]

/-! ### The state after a freeze (R296, R299) -/

@[simp] theorem State.wr_quire (s : State) (k v : Nat) (q : QNum) : (s.wr k v).quire q = s.quire q := rfl

theorem State.quire_of_quires {s t : State} (h : t.quires = s.quires) (q : QNum) : t.quire q = s.quire q := by
  rw [State.quire, h, State.quire]

@[simp] theorem State.haltQuire_quire (s : State) (q p : QNum) : (s.haltQuire q).quire p = s.quire p :=
  State.quire_of_quires (s.haltQuire_quires q) p

@[simp] theorem State.msixSend_quire (s : State) (v : Nat) (q : QNum) : (s.msixSend v).quire q = s.quire q :=
  State.quire_of_quires (s.msixSend_quires v) q

@[simp] theorem State.markFrozen_quire (s : State) (q : QNum) : (s.markFrozen q).quire q = { s.quire q with
    state := .frozen, heldCq := [], wakePending := false,
    pwr := if (s.quire q).wakePending then .release else (s.quire q).pwr } :=
  s.modQuire_quire q fun y => { y with
    state := .frozen, heldCq := [], wakePending := false, pwr := if y.wakePending then .release else y.pwr }

@[simp] theorem State.endDisabling_quire (s : State) (q : QNum) (d : Option Disabling) :
    (s.endDisabling q d).quire q =
      { s.quire q with disabling := if d.isSome then none else (s.quire q).disabling } := by
  unfold State.endDisabling
  split
  · exact s.modQuire_quire q fun y => { y with disabling := none }
  · rfl

@[simp] theorem State.endDisabling_rd (s : State) (q : QNum) (d : Option Disabling) (k : Nat) :
    (s.endDisabling q d).rd k = s.rd k := by
  unfold State.endDisabling
  split <;> rfl

@[simp] theorem State.endDisabling_st (s : State) (q : QNum) (d : Option Disabling) : (s.endDisabling q d).st = s.st := by
  unfold State.endDisabling
  split <;> rfl

theorem State.markFrozen_rd (s : State) (q : QNum) (h : valsWf s.sku 0 s.dict.vals = true) {k : Nat}
    (hk : k ≠ Key.qFreezes q) : (s.markFrozen q).rd k = s.rd k := by
  exact (State.count_regsKept (P := (· = Key.qFreezes q)) _ 1 rfl).rd (by exact h) k hk

theorem faultKey_plain (q : QNum) : ¬ isHaltKey (Key.qFaultRecord q) ∧ Key.qFaultRecord q ≠ Key.qFreezes q := by
  simp only [isHaltKey, Key.qFaultRecord, Key.qFreezes, Key.hostWritesDropped, Key.sentState]
  omega

theorem stitchKeys_plain (q : QNum) : ∀ k ∈ [Key.qStitchBase q, Key.qStitchCount q],
    ¬ isHaltKey k ∧ ¬ isTally k ∧ k ≠ Key.qFaultRecord q := by
  simp only [isHaltKey, isTally, Key.qFaultRecord, Key.hostWritesDropped, Key.sentState, Key.qStitchBase, Key.qStitchCount,
    List.mem_cons, List.not_mem_nil, or_false, forall_eq_or_imp, forall_eq]
  omega

/-- The allocation of stitches that a halt poisons is the quire's. -/
theorem State.stopQuire_stitchRange (s : State) (q : QNum) (v : Nat) (h : valsWf s.sku 0 s.dict.vals = true) :
    (((s.endRuns q).wr (Key.qFaultRecord q) v).stopQuire q).stitchRange q = s.stitchRange q := by
  have hruns := (s.endRuns_runsTouched q).regs
  have hkept : ∀ k ∈ [Key.qStitchBase q, Key.qStitchCount q],
      (((s.endRuns q).wr (Key.qFaultRecord q) v).stopQuire q).rd k = s.rd k := fun k hk => by
    obtain ⟨hhalt, htally, hfault⟩ := stitchKeys_plain q k hk
    rw [(State.stopQuire_regsKept _ q).rd (State.wr_wf _ _ _ (hruns.wf h)) k hhalt,
      State.rd_wr _ _ _ _ (hruns.wf h), if_neg hfault, hruns.rd h k htally]
  rw [State.stitchRange, hkept _ (by simp), hkept _ (by simp), State.stitchRange]

theorem State.freeze_poisons (s : State) (q : QNum) (cause bay ring imp cycle cid sqi detail : Nat) (h : Lively s q)
    (hwf : valsWf s.sku 0 s.dict.vals = true) :
    s.stitchRange q ∈ (s.freeze q cause bay ring imp cycle cid sqi detail).st.poisons := by
  rw [s.freeze_of_lively q _ _ _ _ _ _ _ _ h, State.msixSend_st, State.endDisabling_st]
  exact s.stopQuire_stitchRange q _ hwf ▸ State.haltQuire_poisons _ q

theorem State.freeze_record (s : State) (q : QNum) (cause bay ring imp cycle cid sqi detail : Nat) (h : Lively s q)
    (hwf : valsWf s.sku 0 s.dict.vals = true) :
    (s.freeze q cause bay ring imp cycle cid sqi detail).rd (Key.qFaultRecord q) =
      faultRecord cause bay ring imp cycle cid sqi (detail % 2 ^ 32) 0 ((s.endRuns q).rtc.toNat % 2 ^ 32) := by
  obtain ⟨hhalt, hfreezes⟩ := faultKey_plain q
  have hruns := (s.endRuns_runsTouched q).regs.wf hwf
  rw [s.freeze_of_lively q _ _ _ _ _ _ _ _ h, State.msixSend_rd, State.endDisabling_rd,
    State.markFrozen_rd _ q ((State.haltQuire_regsKept _ q).wf (State.wr_wf _ _ _ hruns)) hfreezes,
    (State.haltQuire_regsKept _ q).rd (State.wr_wf _ _ _ hruns) _ hhalt, State.rd_wr _ _ _ _ hruns, if_pos rfl]

/-- The quire after a freeze: FROZEN, without runs and held completions; no completion was written. -/
theorem State.freeze_quire (s : State) (q : QNum) (cause bay ring imp cycle cid sqi detail : Nat) (h : Lively s q) :
    let x := (s.freeze q cause bay ring imp cycle cid sqi detail).quire q
    x.state = .frozen ∧ x.runs = [] ∧ x.heldCq = [] ∧ x.ctrCompleted = (s.quire q).ctrCompleted := by
  dsimp only
  rw [s.freeze_of_lively q _ _ _ _ _ _ _ _ h, State.msixSend_quire]
  simp [s.endRuns_quire]

/-! ### Fields of the fault record (R299) -/

theorem leNat_append (l m : List Byte) : leNat (l ++ m) = leNat l + 256 ^ l.length * leNat m := by
  induction l with
  | nil => simp [leNat]
  | cons b l ih =>
    rw [List.cons_append, leNat, leNat, ih, List.length_cons]
    ring

theorem leNat_lt (l : List Byte) : leNat l < 256 ^ l.length := by
  induction l with
  | nil => simp [leNat]
  | cons b l ih =>
    have hb : b.toNat < 256 := b.isLt
    rw [leNat, List.length_cons, Nat.pow_succ]
    omega

theorem natLe_length (n v : Nat) : (natLe n v).length = n := by
  induction n generalizing v with
  | zero => rfl
  | succ n ih => rw [natLe, List.length_cons, ih]

theorem leNat_natLe (n v : Nat) : leNat (natLe n v) = v % 256 ^ n := by
  induction n generalizing v with
  | zero => simp [natLe, leNat, Nat.mod_one]
  | succ n ih =>
    rw [natLe, leNat, ih, BitVec.toNat_ofNat, show 256 ^ (n + 1) = 256 * 256 ^ n from Nat.pow_succ', Nat.mod_mul]

theorem leNat_drop (l : List Byte) (n : Nat) (h : n ≤ l.length) : leNat (l.drop n) = leNat l / 256 ^ n := by
  conv_rhs => rw [← List.take_append_drop n l, leNat_append, List.length_take_of_le h]
  have hlt := leNat_lt (l.take n)
  rw [List.length_take_of_le h] at hlt
  rw [Nat.add_mul_div_left _ _ (by positivity), Nat.div_eq_of_lt hlt, Nat.zero_add]

theorem leNat_take (l : List Byte) (n : Nat) (h : n ≤ l.length) : leNat (l.take n) = leNat l % 256 ^ n := by
  conv_rhs => rw [← List.take_append_drop n l, leNat_append, List.length_take_of_le h]
  have hlt := leNat_lt (l.take n)
  rw [List.length_take_of_le h] at hlt
  rw [Nat.add_mul_mod_self_left, Nat.mod_eq_of_lt hlt]

/-- Bits of a number are bytes of its encoding. -/
theorem bits_leNat (l : List Byte) (o n : Nat) (h : o + n ≤ l.length) (hn : 0 < n) :
    bits (leNat l) (8 * (o + n) - 1) (8 * o) = leNat ((l.drop o).take n) := by
  rw [leNat_take _ _ (by rw [List.length_drop]; omega), leNat_drop _ _ (by omega), bits,
    show 8 * (o + n) - 1 + 1 - 8 * o = 8 * n by omega, Nat.pow_mul, Nat.pow_mul]

section
variable (cause bay ring imp cycle cid sqi detail more rtc : Nat)

/-- A field of the record is the bytes that stand there. -/
theorem bits_faultRecord (o n v : Nat) (h : o + n ≤ 32) (hn : 0 < n)
    (hfield : ((natLe 1 cause ++ natLe 1 bay ++ natLe 1 ring ++ natLe 1 0 ++ natLe 4 imp ++ natLe 8 cycle ++ natLe 2 cid ++
      natLe 2 sqi ++ natLe 4 detail ++ natLe 2 more ++ natLe 2 0 ++ natLe 4 rtc).drop o).take n = natLe n v) :
    bits (faultRecord cause bay ring imp cycle cid sqi detail more rtc) (8 * (o + n) - 1) (8 * o) = v % 256 ^ n := by
  rw [faultRecord, bits_leNat _ o n (by simpa [natLe_length] using h) hn, hfield, leNat_natLe]

theorem faultRecord_cause : bits (faultRecord cause bay ring imp cycle cid sqi detail more rtc) 7 0 = cause % 256 :=
  bits_faultRecord _ _ _ _ _ _ _ _ _ _ 0 1 cause (by decide) (by decide) rfl

theorem faultRecord_ring : bits (faultRecord cause bay ring imp cycle cid sqi detail more rtc) 23 16 = ring % 256 :=
  bits_faultRecord _ _ _ _ _ _ _ _ _ _ 2 1 ring (by decide) (by decide) rfl

theorem faultRecord_cid :
    bits (faultRecord cause bay ring imp cycle cid sqi detail more rtc) 143 128 = cid % 65536 :=
  bits_faultRecord _ _ _ _ _ _ _ _ _ _ 16 2 cid (by decide) (by decide) rfl

theorem faultRecord_sqi :
    bits (faultRecord cause bay ring imp cycle cid sqi detail more rtc) 159 144 = sqi % 65536 :=
  bits_faultRecord _ _ _ _ _ _ _ _ _ _ 18 2 sqi (by decide) (by decide) rfl

theorem faultRecord_detail :
    bits (faultRecord cause bay ring imp cycle cid sqi detail more rtc) 191 160 = detail % 2 ^ 32 :=
  bits_faultRecord _ _ _ _ _ _ _ _ _ _ 20 4 detail (by decide) (by decide) rfl

end

/-- A first violation leaves the quire as `FrozenBy` says. -/
theorem State.freeze_frozenBy (s : State) (q : QNum) (cause bay ring imp cycle cid sqi detail : Nat) (h : Lively s q)
    (hwf : valsWf s.sku 0 s.dict.vals = true) (hcause : cause < 256) (hdetail : detail < 2 ^ 32) :
    FrozenBy s (s.freeze q cause bay ring imp cycle cid sqi detail) q cause detail := by
  obtain ⟨hstate, hruns, hheld, hcompleted⟩ := s.freeze_quire q cause bay ring imp cycle cid sqi detail h
  refine ⟨hstate, ?_, ?_, hruns, hheld, hcompleted, s.freeze_poisons q _ _ _ _ _ _ _ _ h hwf⟩
  · rw [s.freeze_record q _ _ _ _ _ _ _ _ h hwf, faultRecord_cause, Nat.mod_eq_of_lt hcause]
  · rw [s.freeze_record q _ _ _ _ _ _ _ _ h hwf, faultRecord_detail, Nat.mod_mod, Nat.mod_eq_of_lt hdetail]

end Sys2Proof.Machine
end

section
/-! PROOFS. DMA errors of a quire (06, R265, R266). -/

namespace Sys2Proof.Machine

/-! ### What the commands of this family answer -/

theorem exec_dmaReadError (q : QNum) (a : BitVec 64) (src : DmaSource) (s : State) :
    exec (.dmaReadError q a src) s = .next (dmaReadError q a src s) := rfl

theorem exec_qDmaFault (role : Role) (q : QNum) (a : BitVec 64) (s : State) :
    exec (.qDmaFault role q a) s = .next (dictRequest role (blockIndex q 4) 0 (natLe 8 a.toNat) {} s) := by
  obtain ⟨hidx, hsub⟩ := blockKey q 4
  show Host.Outcome.next (dictRequest role (Key.qDmaFault q / 256) (Key.qDmaFault q % 256) _ _ _) = _
  rw [Key.qDmaFault, hidx, hsub]

theorem allowed_qDmaFault (s : State) (role : Role) (q : QNum) (len : Nat) :
    Allowed s role (Key.qDmaFault q) len ↔ s.shapeFail (some role) true (blockIndex q 4) 0 len = none := by
  obtain ⟨hidx, hsub⟩ := blockKey q 4
  rw [Allowed, Key.qDmaFault, hidx, hsub]

/-! ### Q_DMA_FAULT (R266) -/

theorem qDmaFaultWrite_of_idle (s : State) (q : QNum) (a : Nat) (hidle : s.cmdRunning (Key.qDmaFault q) = false) :
    qDmaFaultWrite q a s =
      (DS.ok, (s.freeze q FC.dma (detail := bits a 43 12)).cmdDone (Key.qDmaFault q) DS.ok []) := by
  rw [qDmaFaultWrite, s.ifIdle_of_idle _ _ hidle]

theorem exec_qDmaFault_of_idle {s : State} {role : Role} {q : QNum} {a : BitVec 64} (hs : Serving s)
    (hallowed : Allowed s role (Key.qDmaFault q) 8) (hidle : s.cmdRunning (Key.qDmaFault q) = false) :
    exec (.qDmaFault role q a) s = .next
      (((s.freeze q FC.dma (detail := bits a.toNat 43 12)).cmdDone (Key.qDmaFault q) DS.ok []).answer DS.ok) := by
  have hlen : (natLe 8 a.toNat).length = 8 := natLe_length 8 _
  rw [allowed_qDmaFault, ← hlen] at hallowed
  have harg : leNat (natLe 8 a.toNat) = a.toNat := by
    rw [leNat_natLe]
    exact Nat.mod_eq_of_lt a.isLt
  rw [exec_qDmaFault]
  refine congrArg Host.Outcome.next
    (dictRequest_quireCommand (p := (0x04, 8, 0, .h)) (by decide) hs hallowed ?_ (by decide))
  rw [← qDmaFaultWrite_of_idle s q _ hidle]
  simp [serveBlock, writeOf, blockIndex_mod, harg]

/-- The run's result block and its answer change nothing that `FrozenBy` speaks of. -/
theorem frozenBy_answered {s t : State} {q : QNum} {cause detail : Nat} (h : FrozenBy s t q cause detail)
    (k result : Nat) (card : List Byte) (st : Nat) : FrozenBy s ((t.cmdDone k result card).answer st) q cause detail := h

/-! ### Errors of a PASID read (R265, R299) -/

theorem bits_page_lt (a : Nat) : bits a 43 12 < 2 ^ 32 := Nat.mod_lt _ (by decide)

theorem State.freeze_dma_frozenBy (s : State) (q : QNum) (a : Nat) (bay ring imp cycle cid sqi : Nat) (h : Lively s q)
    (hwf : valsWf s.sku 0 s.dict.vals = true) :
    FrozenBy s (s.freeze q FC.dma bay ring imp cycle cid sqi (bits a 43 12)) q FC.dma (bits a 43 12) :=
  s.freeze_frozenBy q _ _ _ _ _ _ _ _ h hwf (by decide) (bits_page_lt a)

theorem dmaReadError_ring (q : QNum) (a : BitVec 64) (r : RingNum) (s : State) (hup : s.up = true) :
    dmaReadError q a (.ring r) s =
      s.freeze q FC.dma (ring := r.val) (sqi := ((s.quire q).ring r).head) (detail := bits a.toNat 43 12) := by
  rw [dmaReadError, if_neg (not_not.2 hup)]

theorem dmaReadError_press (q : QNum) (a : BitVec 64) (s : State) (hup : s.up = true) :
    dmaReadError q a .press s = s.freeze q FC.dma (detail := bits a.toNat 43 12) := by
  rw [dmaReadError, if_neg (not_not.2 hup)]

/-- The entry an error names is the quire's one started entry. -/
theorem dmaReadError_started (q : QNum) (a : BitVec 64) (r : RingNum) (n : BitVec 12) (w : Started) (s : State)
    (hup : s.up = true) (hstarted : (s.quire q).started = [w]) (hfetched : ((s.quire q).ring r).fetched = [])
    (hring : w.entry.ring = r) (hslot : w.entry.slot = n.toNat) :
    dmaReadError q a (.entry r n) s = s.freezeEntry q w.entry FC.dma (bits a.toNat 43 12) := by
  simp [dmaReadError, hup, hstarted, hfetched, hring, hslot]

theorem Entry.cid_lt (e : Entry) : e.cid < 65536 := by
  have hlen : ((e.bytes.drop 2).take 2).length ≤ 2 := List.length_take_le 2 _
  exact (leNat_lt _).trans_le (Nat.pow_le_pow_right (by decide : 256 > 0) hlen)

/-- The record of a freeze at an entry names the entry (R299). -/
theorem State.freezeEntry_record (s : State) (q : QNum) (e : Entry) (cause detail : Nat) (h : Lively s q)
    (hwf : valsWf s.sku 0 s.dict.vals = true) (hslot : e.slot < 65536) :
    let r := (s.freezeEntry q e cause detail).rd (Key.qFaultRecord q)
    bits r 23 16 = e.ring.val ∧ bits r 143 128 = e.cid ∧ bits r 159 144 = e.slot := by
  dsimp only
  rw [State.freezeEntry, s.freeze_record q _ _ _ _ _ _ _ _ h hwf, faultRecord_ring, faultRecord_cid, faultRecord_sqi]
  exact ⟨Nat.mod_eq_of_lt (by omega), Nat.mod_eq_of_lt e.cid_lt, Nat.mod_eq_of_lt hslot⟩

/-- Settles O21: each of the errors is a freeze with cause DMA of a lively quire, `State.freeze_frozenBy`. -/
theorem dmaErrorsFreeze : Obligations.DmaErrorsFreeze := by
  intro s q a hinv hlively
  obtain ⟨hvals, -, -⟩ := hinv
  refine ⟨fun role hs hallowed hidle => ?fault, fun src hup hsrc => ?read,
    fun r n w hup hstarted hfetched hring hslot => ?entry⟩
  case fault =>
    refine ⟨_, exec_qDmaFault_of_idle hs hallowed hidle, ?_, congrArg CmdBlock.result (State.cmdDone_cmd _ _ _ _)⟩
    exact frozenBy_answered (s.freeze_dma_frozenBy q a.toNat _ _ _ _ _ _ hlively hvals) _ _ _ _
  case read =>
    refine ⟨_, exec_dmaReadError q a src s, ?_⟩
    obtain ⟨r, rfl⟩ | rfl := hsrc
    · rw [dmaReadError_ring q a r s hup]
      exact s.freeze_dma_frozenBy q a.toNat _ _ _ _ _ _ hlively hvals
    · rw [dmaReadError_press q a s hup]
      exact s.freeze_dma_frozenBy q a.toNat _ _ _ _ _ _ hlively hvals
  case entry =>
    have hlt : w.entry.slot < 65536 := by omega
    obtain ⟨hrecRing, hrecCid, hrecSlot⟩ :=
      s.freezeEntry_record q w.entry FC.dma (bits a.toNat 43 12) hlively hvals hlt
    refine ⟨_, exec_dmaReadError q a _ s, ?_⟩
    rw [dmaReadError_started q a r n w s hup hstarted hfetched hring hslot]
    exact ⟨s.freeze_dma_frozenBy q a.toNat _ _ _ _ _ _ hlively hvals, hring ▸ hrecRing, hrecCid, hslot ▸ hrecSlot⟩

end Sys2Proof.Machine
end

section
/-! PROOFS. What the loads of a quire leave, when they are abandoned (15, R742): no quire and no result block changes. -/

namespace Sys2Proof.Machine

/-- `t` keeps every quire and every result block. -/
structure State.QuiresKept (s t : State) : Prop where
  quires : t.quires = s.quires
  cmds : t.dict.cmds = s.dict.cmds

theorem State.QuiresKept.refl (s : State) : s.QuiresKept s := ⟨rfl, rfl⟩

theorem State.QuiresKept.trans {s t u : State} (h : s.QuiresKept t) (h' : t.QuiresKept u) : s.QuiresKept u :=
  ⟨h'.quires.trans h.quires, h'.cmds.trans h.cmds⟩

theorem State.QuiresKept.foldl {α : Type} {f : State → α → State} {l : List α} {s t : State} (h : s.QuiresKept t)
    (hf : ∀ (u : State) (a : α), u.QuiresKept (f u a)) : s.QuiresKept (l.foldl f t) :=
  List.foldlRecOn l f h fun u hu a _ => hu.trans (hf u a)

theorem State.QuiresKept.ite {s t u : State} {c : Prop} [Decidable c] (ht : s.QuiresKept t) (hu : s.QuiresKept u) :
    s.QuiresKept (if c then t else u) := by
  split
  · exact ht
  · exact hu

theorem State.QuiresKept.setNv {s t : State} (h : s.QuiresKept t) {n : Nv} : s.QuiresKept (t.setNv n) := ⟨h.quires, h.cmds⟩

theorem State.QuiresKept.setTiers {s t : State} (h : s.QuiresKept t) {x : Tiers} : s.QuiresKept (t.setTiers x) :=
  ⟨h.quires, h.cmds⟩

theorem State.QuiresKept.setWeave {s t : State} (h : s.QuiresKept t) {w : Weave} : s.QuiresKept (t.setWeave w) :=
  ⟨h.quires, h.cmds⟩

theorem State.QuiresKept.count {s t : State} (h : s.QuiresKept t) {k n : Nat} : s.QuiresKept (t.count k n) :=
  ⟨h.quires, h.cmds⟩

/-! ### Blocks and rows (R624 to R626, R639, R640) -/

theorem State.queueMove_quiresKept (s : State) (g b : Nat) (kind : MoveKind) : s.QuiresKept (s.queueMove g b kind) :=
  .ite (.refl s) ⟨rfl, rfl⟩

theorem State.wearCheck_quiresKept (s : State) (g k : Nat) : s.QuiresKept (s.wearCheck g k) := by
  unfold State.wearCheck
  dsimp only
  split
  · exact .refl s
  · split
    · exact s.queueMove_quiresKept g _ _
    · exact .refl s

theorem State.eraseBlockAt_quiresKept (s : State) (g k n : Nat) : s.QuiresKept (s.eraseBlockAt g k n) :=
  State.QuiresKept.trans (.setNv (.setNv (.setNv (.refl s)))) (State.wearCheck_quiresKept _ g k)

/-- A bank without an erased block first erases one (R640). -/
def State.haveErased (s : State) (g k : Nat) : State :=
  if s.freshBlock g k = none then
    (match s.nv.dirty.find? fun d => d.1 == g && d.2.1 == k with
      | some d => s.eraseBlockAt g k d.2.2
      | none => s)
  else s

theorem State.haveErased_quiresKept (s : State) (g k : Nat) : s.QuiresKept (s.haveErased g k) := by
  refine .ite ?_ (.refl s)
  split
  · exact s.eraseBlockAt_quiresKept g k _
  · exact .refl s

theorem State.takeBlock_eq (s : State) (g k : Nat) : s.takeBlock g k =
    match (s.haveErased g k).freshBlock g k with
    | some n => (some n, (s.haveErased g k).setBlock g k n { (s.haveErased g k).block g k n with state := .inUse })
    | none => (none, s.haveErased g k) := rfl

theorem State.takeBlock_quiresKept (s : State) (g k : Nat) : s.QuiresKept (s.takeBlock g k).2 := by
  rw [State.takeBlock_eq]
  split
  · exact (s.haveErased_quiresKept g k).trans ⟨rfl, rfl⟩
  · exact s.haveErased_quiresKept g k

theorem State.openBand_quiresKept (s : State) (g b : Nat) : s.QuiresKept (s.openBand g b) := by
  refine .foldl (.refl s) fun t k => ?_
  have htaken := t.takeBlock_quiresKept g k
  split
  · next h =>
    rw [h] at htaken
    exact htaken.setNv
  · next h =>
    rw [h] at htaken
    exact htaken

theorem State.writeRow_quiresKept (s : State) (g r : Nat) (frames : Mem) : s.QuiresKept (s.writeRow g r frames) :=
  .foldl (.refl s) fun _ _ => ⟨rfl, rfl⟩

theorem State.programRow_quiresKept (s : State) (g : Nat) (frames : Mem) : s.QuiresKept (s.programRow g frames).2 := by
  unfold State.programRow
  split
  · exact .refl s
  · next r _ =>
    have hopen : s.QuiresKept (if (s.bandOf g (r / 512)).used = 0 then s.openBand g (r / 512) else s) :=
      .ite (s.openBand_quiresKept g _) (.refl s)
    exact .count (hopen.setNv.trans (State.writeRow_quiresKept _ g r frames))

theorem State.programFirst_quiresKept (s : State) (e n : Nat) (frames : Mem) : s.QuiresKept (s.programFirst e n frames) := by
  refine .foldl (.refl s) fun t k => ?_
  split
  · next g _ =>
    have hrow := t.programRow_quiresKept g (Mem.slice frames (32 * k * leafBytes) (32 * leafBytes))
    split
    · next h =>
      rw [h] at hrow
      exact hrow.setNv
    · next h =>
      rw [h] at hrow
      exact hrow
  · exact .refl t

/-! ### An entry that becomes empty (R639, R693, R762) -/

theorem State.dropAperture_quiresKept (s : State) (e : Nat) : s.QuiresKept (s.dropAperture e) :=
  .foldl ⟨rfl, rfl⟩ fun _ _ => ⟨rfl, rfl⟩

theorem State.dirtyBlock_quiresKept (s : State) (g k n : Nat) : s.QuiresKept (s.dirtyBlock g k n) := ⟨rfl, rfl⟩

theorem State.closeBands_quiresKept (s : State) : s.QuiresKept s.closeBands := by
  refine .foldl (.refl s) fun t g => .foldl (.refl t) fun u b => .ite ?_ (.refl u)
  refine .setNv (.foldl (.foldl (.setNv (.refl u)) fun v d => ?_) fun v k => ?_)
  · exact .foldl (.refl v) fun w k => w.dirtyBlock_quiresKept g k _
  · exact v.dirtyBlock_quiresKept g k _

theorem State.dropCopies_quiresKept (s : State) (f : PoolCopy → Bool) : s.QuiresKept (s.dropCopies f) := by
  unfold State.dropCopies
  refine .setTiers (.foldl (.refl s) fun t c => ?_)
  exact .setTiers (.setTiers (.refl t))

theorem State.emptyEntry_quiresKept (s : State) (e : Nat) : s.QuiresKept (s.emptyEntry e) := by
  refine State.QuiresKept.trans ?_ (State.dropCopies_quiresKept _ _)
  refine State.QuiresKept.trans ?_ (State.closeBands_quiresKept _)
  exact .trans (.setNv (.setNv (.refl s))) (State.dropAperture_quiresKept _ e)

theorem State.cleanLoad_quiresKept (s : State) (l : Load) : s.QuiresKept (s.cleanLoad l) := by
  unfold State.cleanLoad
  split
  · exact s.emptyEntry_quiresKept _
  · exact .refl s

theorem State.stopLoad_quiresKept (s : State) (l : Load) : s.QuiresKept (s.stopLoad l).2 := by
  unfold State.stopLoad
  split
  · exact .refl s
  · refine State.QuiresKept.trans (State.QuiresKept.trans ?_ (State.programFirst_quiresKept _ _ _ _))
      (State.cleanLoad_quiresKept _ l)
    split
    · exact .refl s
    · exact ⟨rfl, rfl⟩

end Sys2Proof.Machine
end

section
/-! PROOFS. Q_DISABLE (06, R293, R301 to R303): what the completions of a quire's entries leave of it, the drain and the
forced stop. -/

namespace Sys2Proof.Machine

/-! ### What the end of entries leaves of their quire -/

/-- `t` keeps of the quire its rings, runs and drain, its state unless RUNNING, and every result block. -/
structure State.KeepsWork (q : QNum) (s t : State) : Prop where
  rings : (t.quire q).rings = (s.quire q).rings
  runs : (t.quire q).runs = (s.quire q).runs
  disabling : (t.quire q).disabling = (s.quire q).disabling
  state : (s.quire q).state ≠ .running → (t.quire q).state = (s.quire q).state
  cmds : t.dict.cmds = s.dict.cmds

theorem State.KeepsWork.of_quire {q : QNum} {s t : State} (hquire : t.quire q = s.quire q)
    (hcmds : t.dict.cmds = s.dict.cmds) : s.KeepsWork q t := by
  refine ⟨?_, ?_, ?_, fun _ => ?_, hcmds⟩ <;> rw [hquire]

theorem State.KeepsWork.refl (q : QNum) (s : State) : s.KeepsWork q s := .of_quire rfl rfl

theorem State.KeepsWork.of_quiresKept {s t : State} (q : QNum) (h : s.QuiresKept t) : s.KeepsWork q t :=
  .of_quire (State.quire_of_quires h.quires q) h.cmds

theorem State.KeepsWork.trans {q : QNum} {s t u : State} (h : s.KeepsWork q t) (h' : t.KeepsWork q u) :
    s.KeepsWork q u where
  rings := h'.rings.trans h.rings
  runs := h'.runs.trans h.runs
  disabling := h'.disabling.trans h.disabling
  state hs := (h'.state (h.state hs ▸ hs)).trans (h.state hs)
  cmds := h'.cmds.trans h.cmds

theorem State.KeepsWork.foldl {α : Type} {q : QNum} {f : State → α → State} {l : List α} {s t : State}
    (h : s.KeepsWork q t) (hf : ∀ (u : State), ∀ a ∈ l, u.KeepsWork q (f u a)) : s.KeepsWork q (l.foldl f t) :=
  List.foldlRecOn l f h fun u hu a ha => hu.trans (hf u a ha)

theorem State.KeepsWork.modBay {q : QNum} {s t : State} (h : s.KeepsWork q t) {b : BayNum} {f : Bay → Bay} :
    s.KeepsWork q (t.modBay b f) := ⟨h.rings, h.runs, h.disabling, h.state, h.cmds⟩

theorem State.KeepsWork.setSt {q : QNum} {s t : State} (h : s.KeepsWork q t) {u : StitchUnit} : s.KeepsWork q (t.setSt u) :=
  ⟨h.rings, h.runs, h.disabling, h.state, h.cmds⟩

theorem State.KeepsWork.setTiers {q : QNum} {s t : State} (h : s.KeepsWork q t) {x : Tiers} :
    s.KeepsWork q (t.setTiers x) := ⟨h.rings, h.runs, h.disabling, h.state, h.cmds⟩

/-- A completion entry written changes the completion ring of the quire, and it is sent. -/
theorem State.writeCq_quires (s : State) (q : QNum) (c : Completion) : (s.writeCq q c).quires =
    (s.setQuire q { s.quire q with
      cqTail := ((s.quire q).cqTail + 1) % s.rd (Key.qCqSize q),
      phase := if ((s.quire q).cqTail + 1) % s.rd (Key.qCqSize q) = 0 then !(s.quire q).phase else (s.quire q).phase,
      ctrCompleted := (s.quire q).ctrCompleted + 1 }).quires := by
  simp [State.writeCq, State.signal, apply_ite State.quires]

theorem State.writeCq_dict (s : State) (q : QNum) (c : Completion) : (s.writeCq q c).dict = s.dict := by
  simp [State.writeCq, State.signal, apply_ite State.dict]

theorem State.writeCq_keepsWork (s : State) (q : QNum) (c : Completion) : s.KeepsWork q (s.writeCq q c) := by
  have hquire := State.quire_of_quires (s.writeCq_quires q c) q
  rw [State.setQuire_quire] at hquire
  refine ⟨?_, ?_, ?_, fun _ => ?_, by rw [s.writeCq_dict]⟩ <;> rw [hquire]

theorem State.complete_keepsWork (s : State) (q : QNum) (e : Entry) (status detail result : Nat) :
    s.KeepsWork q (s.complete q e status detail result) := by
  unfold State.complete
  dsimp only
  split
  · exact .refl q s
  · split
    · refine ⟨?_, ?_, ?_, fun _ => ?_, rfl⟩ <;> rw [State.setQuire_quire]
    · exact s.writeCq_keepsWork q _

/-- The power of bays and of the device, and nothing else (R836). -/
theorem State.gateBays_eq (s : State) (q : QNum) :
    ∃ bays power, s.gateBays q = { s with bays := bays, power := power } := by
  obtain ⟨bays, h⟩ := State.foldl_modBay (fun x =>
    if x.powered then { x with power := .gated, retesting := x.retesting || x.retestDue, retestDue := false } else x)
    (s.quireBays q) s
  unfold State.gateBays
  rw [h]
  unfold State.fixPower
  split
  · exact ⟨bays, _, rfl⟩
  · exact ⟨bays, s.power, rfl⟩

/-- A RELEASE changes of its quire the request for power alone (R31). -/
theorem State.tryRelease_quire (s : State) (q : QNum) :
    (s.tryRelease q).quire q = { s.quire q with pwr := ((s.tryRelease q).quire q).pwr } := by
  unfold State.tryRelease
  dsimp only
  split
  · obtain ⟨bays, power, h⟩ := (s.setQuire q { s.quire q with pwr := .release }).gateBays_eq q
    have hquire : ((s.setQuire q { s.quire q with pwr := .release }).gateBays q).quire q =
        { s.quire q with pwr := .release } := by
      rw [h]
      exact s.setQuire_quire q _
    rw [hquire]
  · rfl

theorem State.tryRelease_started (s : State) (q : QNum) :
    ((s.tryRelease q).quire q).started = (s.quire q).started := by rw [s.tryRelease_quire q]

theorem State.tryRelease_dict (s : State) (q : QNum) : (s.tryRelease q).dict = s.dict := by
  unfold State.tryRelease
  dsimp only
  split
  · obtain ⟨bays, power, h⟩ := (s.setQuire q { s.quire q with pwr := .release }).gateBays_eq q
    rw [h]
    rfl
  · rfl

theorem State.tryRelease_keepsWork (s : State) (q : QNum) : s.KeepsWork q (s.tryRelease q) := by
  refine ⟨?_, ?_, ?_, fun _ => ?_, by rw [s.tryRelease_dict]⟩ <;> rw [s.tryRelease_quire q]

theorem State.settleQuire_keepsWork (s : State) (q : QNum) : s.KeepsWork q (s.settleQuire q) := by
  unfold State.settleQuire
  dsimp only
  refine State.KeepsWork.trans ?_ (State.tryRelease_keepsWork _ q)
  split
  · next h =>
    obtain ⟨hrunning, -⟩ := h
    refine ⟨?_, ?_, ?_, fun hs => absurd hrunning hs, rfl⟩ <;> rw [State.setQuire_quire]
  · exact .refl q s

theorem State.dropStarted_keepsWork (s : State) (q : QNum) (f : List Started → List Started) :
    s.KeepsWork q (s.modQuire q fun x => { x with started := f x.started }) := by
  refine ⟨?_, ?_, ?_, fun _ => ?_, rfl⟩ <;> rw [State.modQuire_quire]

theorem State.finish_keepsWork (s : State) (q : QNum) (e : Entry) (status detail result : Nat) :
    s.KeepsWork q (s.finish q e status detail result) :=
  ((s.dropStarted_keepsWork q _).trans (State.complete_keepsWork _ q e status detail result)).trans
    (State.settleQuire_keepsWork _ q)

theorem State.endLoad_keepsWork (s : State) (l : Load) (status variant entry : Nat) (x : Short) (chunks ms result : Nat) :
    s.KeepsWork l.quire (s.endLoad l status variant entry x chunks ms result) :=
  State.KeepsWork.trans (t := (s.dropLoad l).report l.quire status variant entry x chunks ms) (.of_quire rfl rfl)
    (State.finish_keepsWork _ l.quire l.entry status 0 result)

theorem State.abandonLoad_keepsWork (s : State) (l : Load) (status : Nat) : s.KeepsWork l.quire (s.abandonLoad l status) :=
  State.KeepsWork.trans (.of_quiresKept l.quire (s.stopLoad_quiresKept l))
    (State.KeepsWork.trans (t := (s.stopLoad l).2.fresh.2) (.of_quire rfl rfl) (State.endLoad_keepsWork _ l _ _ _ _ _ _ _))

theorem State.abandonLoads_keepsWork (s : State) (q : QNum) (status : Nat) : s.KeepsWork q (s.abandonLoads q status) := by
  refine .foldl (.refl q s) fun t l hl => ?_
  obtain ⟨-, hquire⟩ := List.mem_filter.1 hl
  exact eq_of_beq hquire ▸ t.abandonLoad_keepsWork l status

/-! ### Rings without fetched entries -/

@[simp] theorem Quire.dropFetched_ring (x : Quire) (r : RingNum) :
    x.dropFetched.ring r = { x.ring r with fetched := [] } := by
  show (x.rings.map fun y => { y with fetched := [] })[r.val] = _
  rw [Vector.getElem_map]
  rfl

theorem Quire.ring_of_rings {x y : Quire} (h : y.rings = x.rings) (r : RingNum) : y.ring r = x.ring r := by
  rw [Quire.ring, h, Quire.ring]

/-! ### The drain (R301) -/

/-- A quire that begins to drain, with `n` entries to complete DRAINED. -/
def Quire.beginDrain (x : Quire) (n : Nat) : Quire :=
  { x.dropFetched.cancelWake with state := .draining, disabling := some { count := n } }

/-- The number of entries and loads that a drain completes at once. -/
def State.drainCount (s : State) (q : QNum) : Nat :=
  (s.quire q).fetchedEntries.length + ((s.quire q).started.filter fun w => w.work.isStitchWait).length +
    (s.nv.loads.filter fun l => l.quire == q).length

/-- What a drain completes leaves the draining quire's rings, runs and state. -/
theorem State.startDrain_keepsWork (s : State) (q : QNum) :
    ((s.cmdStart (Key.qDisable q)).modQuire q fun x => x.beginDrain (s.drainCount q)).KeepsWork q (s.startDrain q) := by
  refine State.KeepsWork.trans ?_ (State.abandonLoads_keepsWork _ q CS.drained)
  refine .foldl (.foldl ?_ fun t e _ => t.complete_keepsWork q e _ _ _) fun t w _ => t.finish_keepsWork q w.entry _ _ _
  exact .of_quire rfl rfl

theorem State.cmdStart_quire (s : State) (k : Nat) (q : QNum) : (s.cmdStart k).quire q = s.quire q := rfl

/-- The quire that drains: no fetched entry is left, its runs go on. -/
theorem State.startDrain_quire (s : State) (q : QNum) :
    let x := (s.startDrain q).quire q
    x.state = .draining ∧ x.runs = (s.quire q).runs ∧ (∀ r, (x.ring r).fetched = []) ∧
      (∀ r, (x.ring r).head = ((s.quire q).ring r).head) ∧ x.disabling.isSome = true := by
  obtain ⟨hrings, hruns, hdisabling, hstate, -⟩ := s.startDrain_keepsWork q
  rw [State.modQuire_quire, State.cmdStart_quire] at hrings hruns hdisabling hstate
  have hring := Quire.ring_of_rings (x := (s.quire q).dropFetched) hrings
  refine ⟨hstate (by simp [Quire.beginDrain]), hruns, fun r => ?_, fun r => ?_, by rw [hdisabling]; rfl⟩
  · rw [hring r, Quire.dropFetched_ring]
  · rw [hring r, Quire.dropFetched_ring]

/-! ### The forced stop (R302, R303) -/

theorem Quire.setRuns_nil {x : Quire} (h : x.runs = []) : { x with runs := [] } = x := by
  rw [← h]

theorem State.modRun_quire_of_no_runs (s : State) {q : QNum} (h : (s.quire q).runs = []) (p : QNum) (id : Nat)
    (f : Run → Run) : (s.modRun p id f).quire q = s.quire q := by
  by_cases hq : q = p
  · subst hq
    rw [State.modRun, State.modQuire_quire, h]
    exact Quire.setRuns_nil h
  · exact s.modQuire_quire_ne _ hq

/-- The end of a bay's wait leaves a quire without runs as it is. -/
theorem State.noteWait_keepsWork (s : State) {q : QNum} (h : (s.quire q).runs = []) (b : BayNum) :
    s.KeepsWork q (s.noteWait b) := by
  unfold State.noteWait
  split
  · split
    · split
      · exact .of_quire (s.modRun_quire_of_no_runs h _ _ _) rfl
      · exact .refl q s
    · exact .refl q s
  · exact .refl q s

theorem State.countWait_keepsWork (s : State) (q p : QNum) (o : Outcome) : s.KeepsWork q (s.countWait p o) := by
  cases o <;> exact .of_quire rfl rfl

/-- The outcome of a bay's wait leaves a quire without runs as it is. -/
theorem State.endWait_bay_keepsWork (s : State) {q : QNum} (hruns : (s.quire q).runs = []) (h : Held) {b : BayNum}
    (hwho : h.who = .bay b) (o : Outcome) (count : Nat) : s.KeepsWork q (s.endWait h o count) := by
  have hcounted := s.countWait_keepsWork q h.quire o
  unfold State.endWait
  simp only [hwho]
  refine hcounted.modBay.trans (State.noteWait_keepsWork _ ?_ b)
  exact hcounted.runs.trans hruns

theorem State.abortOwnWaits_keepsWork (s : State) {q : QNum} (hruns : (s.quire q).runs = []) :
    s.KeepsWork q (s.abortOwnWaits q) := by
  refine List.foldlRecOn (motive := fun t => s.KeepsWork q t) _ _ (.of_quire rfl rfl) fun t ht h _ => ht.trans ?_
  split
  · next hwho => exact t.endWait_bay_keepsWork (ht.runs.trans hruns) h hwho _ _
  · exact t.countWait_keepsWork q q _

theorem State.abortEntry_keepsWork (s : State) (q : QNum) (e : Entry) : s.KeepsWork q (s.abortEntry q e) := by
  unfold State.abortEntry
  split
  · next l hl =>
    have hload := List.find?_some hl
    obtain ⟨hquire, -⟩ := Bool.and_eq_true_iff.1 hload
    exact eq_of_beq hquire ▸ s.abandonLoad_keepsWork l CS.aborted
  · refine State.KeepsWork.trans ?_ (State.complete_keepsWork _ q e CS.aborted 0 0)
    exact .setTiers (.refl q s)

theorem State.zeroJob_quiresKept (s : State) (q : QNum) (run : Bool) (pieces : List (Place × Nat × Nat))
    (purpose : ZeroFor) : s.QuiresKept (s.zeroJob q run pieces purpose) := by
  have hcut : s.QuiresKept (pieces.foldl (fun s p => s.cut p.1 p.2.1 p.2.2 Use.taken) s) :=
    .foldl (.refl s) fun t p => .setTiers (.refl t)
  exact .ite hcut hcut.setTiers

theorem State.dropReserves_quiresKept (s : State) (q : QNum) : s.QuiresKept (s.dropReserves q) :=
  .ite (.refl s) (s.zeroJob_quiresKept q true _ _)

/-- The quire's runs and waits stop (R302): what its bays had queued and pending is gone. -/
def State.stopRuns (s : State) (q : QNum) : State := (((s.endRuns q).stopQuire q).dropQueues q).abortOwnWaits q

theorem State.stopQuire_cmds (s : State) (q : QNum) : (s.stopQuire q).dict.cmds = s.dict.cmds := by
  obtain ⟨bays, h⟩ := s.stopQuire_eq q
  rw [h]
  rfl

theorem State.dropQueues_quire (s : State) (q p : QNum) : (s.dropQueues q).quire p = s.quire p := rfl

theorem State.dropQueues_cmds (s : State) (q : QNum) : (s.dropQueues q).dict.cmds = s.dict.cmds := rfl

theorem State.stopRuns_keepsWork (s : State) (q : QNum) : (s.endRuns q).KeepsWork q (s.stopRuns q) := by
  have hquire : (((s.endRuns q).stopQuire q).dropQueues q).quire q = (s.endRuns q).quire q := by
    rw [State.dropQueues_quire, State.quire_of_quires (State.stopQuire_quires _ q)]
  have hcmds : (((s.endRuns q).stopQuire q).dropQueues q).dict.cmds = (s.endRuns q).dict.cmds := by
    rw [State.dropQueues_cmds, State.stopQuire_cmds]
  have hkept := State.KeepsWork.of_quire hquire hcmds
  exact hkept.trans (State.abortOwnWaits_keepsWork _ (hkept.runs.trans (s.endRuns_runs q)))

/-- The entries a forced stop ends, in fetch order. -/
def Quire.stoppedEntries (x : Quire) : List Entry :=
  bySeq (x.fetchedEntries ++ (x.started.filter fun w => !w.work.isTrain).map Started.entry)

/-- The quire stops: no entry waits to start, no WAKE to be answered. -/
def Quire.stopping (x : Quire) : Quire := { x.dropFetched.cancelWake with state := .stopping }

theorem Quire.stopping_runs (x : Quire) : x.stopping.runs = x.runs := rfl

theorem Quire.stopping_rings (x : Quire) : x.stopping.rings = x.dropFetched.rings := rfl

/-- The forced stop up to DISABLED: entries end ABORTED, the waits on the quire's stitches too, reservations go. -/
def State.stopEntries (s : State) (q : QNum) : State :=
  let t := (s.quire q).stoppedEntries.foldl (fun t e => t.abortEntry q e) ((s.stopRuns q).modQuire q Quire.stopping)
  (t.setSt { t.st with aborts := t.st.aborts ++ [t.stitchRange q] }).dropReserves q

/-- A stopped quire is DISABLED; only training commits stay started (R303). -/
def Quire.stopped (x : Quire) : Quire := { x with state := .disabled, started := x.started.filter fun w => w.work.isTrain }

theorem Quire.stopped_state (x : Quire) : x.stopped.state = .disabled := rfl

theorem Quire.stopped_runs (x : Quire) : x.stopped.runs = x.runs := rfl

theorem Quire.stopped_ring (x : Quire) (r : RingNum) : x.stopped.ring r = x.ring r := rfl

theorem Work.eq_train_of_isTrain {w : Work} (h : w.isTrain = true) : w = .train := by
  cases w with
  | train => rfl
  | _ => simp [Work.isTrain] at h

theorem Quire.stopped_started (x : Quire) : ∀ w ∈ x.stopped.started, w.work = .train := by
  intro w hw
  obtain ⟨-, htrain⟩ := List.mem_filter.1 hw
  exact Work.eq_train_of_isTrain htrain

theorem State.forceStop_eq (s : State) (q : QNum) : s.forceStop q =
    (((((s.stopEntries q).modQuire q Quire.stopped).disableDone q DS.ok 2 (s.quire q).stoppedEntries.length).msixSend
      (8 * q.val + 6)).tryRelease q) := rfl

theorem State.stopEntries_keepsWork (s : State) (q : QNum) :
    ((s.stopRuns q).modQuire q Quire.stopping).KeepsWork q (s.stopEntries q) := by
  have hends : ((s.stopRuns q).modQuire q Quire.stopping).KeepsWork q
      ((s.quire q).stoppedEntries.foldl (fun t e => t.abortEntry q e) ((s.stopRuns q).modQuire q Quire.stopping)) :=
    .foldl (.refl q _) fun t e _ => t.abortEntry_keepsWork q e
  exact hends.setSt.trans (.of_quiresKept q (State.dropReserves_quiresKept _ q))

/-- Before it is DISABLED the stopped quire has no run and no fetched entry. -/
theorem State.stopEntries_quire (s : State) (q : QNum) :
    let x := (s.stopEntries q).quire q
    x.runs = [] ∧ (∀ r, (x.ring r).fetched = []) ∧ (∀ r, (x.ring r).head = ((s.quire q).ring r).head) := by
  obtain ⟨hrings, hruns, -, -, -⟩ := s.stopEntries_keepsWork q
  obtain ⟨hringsRuns, hrunsRuns, -, -, -⟩ := s.stopRuns_keepsWork q
  rw [State.modQuire_quire, Quire.stopping_rings] at hrings
  rw [State.modQuire_quire, Quire.stopping_runs] at hruns
  rw [s.endRuns_quire q] at hringsRuns hrunsRuns
  have hring := Quire.ring_of_rings hrings
  have hhead := Quire.ring_of_rings (x := s.quire q) hringsRuns
  dsimp only
  refine ⟨hruns.trans hrunsRuns, fun r => ?_, fun r => ?_⟩
  · rw [hring r, Quire.dropFetched_ring]
  · rw [hring r, Quire.dropFetched_ring, hhead r]

theorem State.cmd_of_dict {s t : State} (h : t.dict = s.dict) (k : Nat) : t.cmd k = s.cmd k := by
  rw [State.cmd, h, State.cmd]

theorem State.disableDone_cmd (s : State) (q : QNum) (result endedAs count : Nat) :
    (s.disableDone q result endedAs count).cmd (Key.qDisable q) =
      { state := .done, result := result, runs := (s.cmd (Key.qDisable q)).runs + 1,
        card := natLe 1 endedAs ++ natLe 1 0 ++ natLe 2 count } := State.cmdDone_cmd _ _ _ _

theorem State.disableDone_quire (s : State) (q p : QNum) (result endedAs count : Nat) :
    (s.disableDone q result endedAs count).quire p = s.quire p := rfl

/-- The quire after the forced stop: DISABLED, nothing of it under way but training commits. -/
theorem State.forceStop_quire (s : State) (q : QNum) :
    let x := (s.forceStop q).quire q
    x.state = .disabled ∧ x.runs = [] ∧ (∀ r, (x.ring r).fetched = []) ∧
      (∀ r, (x.ring r).head = ((s.quire q).ring r).head) ∧ ∀ w ∈ x.started, w.work = .train := by
  obtain ⟨hruns, hfetched, hhead⟩ := s.stopEntries_quire q
  have hquire : ((((s.stopEntries q).modQuire q Quire.stopped).disableDone q DS.ok 2
      (s.quire q).stoppedEntries.length).msixSend (8 * q.val + 6)).quire q = ((s.stopEntries q).quire q).stopped := by
    rw [State.msixSend_quire, State.disableDone_quire, State.modQuire_quire]
  have hkept := State.tryRelease_keepsWork ((((s.stopEntries q).modQuire q Quire.stopped).disableDone q DS.ok 2
      (s.quire q).stoppedEntries.length).msixSend (8 * q.val + 6)) q
  rw [← s.forceStop_eq] at hkept
  obtain ⟨hrings, hkeptRuns, -, hstate, -⟩ := hkept
  rw [hquire] at hrings
  rw [hquire, Quire.stopped_runs] at hkeptRuns
  rw [hquire, Quire.stopped_state] at hstate
  have hring := Quire.ring_of_rings hrings
  refine ⟨hstate (by decide), hkeptRuns.trans hruns, fun r => ?_, fun r => ?_, ?_⟩
  · rw [hring r, Quire.stopped_ring, hfetched r]
  · rw [hring r, Quire.stopped_ring, hhead r]
  · rw [s.forceStop_eq, State.tryRelease_started, hquire]
    exact Quire.stopped_started _

theorem State.forceStop_cmd (s : State) (q : QNum) :
    let c := (s.forceStop q).cmd (Key.qDisable q)
    c.state = .done ∧ c.result = DS.ok ∧ c.card.head? = some 2 := by
  dsimp only
  rw [s.forceStop_eq, State.cmd_of_dict (State.tryRelease_dict _ q), State.cmd_of_dict (State.msixSend_dict _ _),
    State.disableDone_cmd]
  exact ⟨rfl, rfl, rfl⟩

/-! ### Q_DISABLE (R293) -/

theorem qDisableWrite_of_nothing (q : QNum) (arg : List Byte) (s : State)
    (h : (s.quire q).state = .disabled ∨ (s.quire q).state = .frozen ∨ (s.quire q).state = .resetting) :
    qDisableWrite q arg s = (DS.state, s) := if_pos h

/-- Of a quire at work, an argument of 0 starts the drain and an argument of 1 the forced stop. -/
theorem qDisableWrite_of_idle (q : QNum) (arg : Byte) (s : State)
    (h : (s.quire q).state = .enabled ∨ (s.quire q).state = .waking ∨ (s.quire q).state = .running)
    (harg : arg.toNat ≤ 1) (hidle : s.cmdRunning (Key.qDisable q) = false) :
    qDisableWrite q [arg] s = (DS.ok, if arg.toNat = 1 then s.forceStop q else s.startDrain q) := by
  have hfield : fieldLe [arg] 0 1 = arg.toNat := by simp [fieldLe, leNat]
  have hactive : ¬ ((s.quire q).state = .disabled ∨ (s.quire q).state = .frozen ∨ (s.quire q).state = .resetting) := by
    obtain h | h | h := h <;> simp [h]
  rw [qDisableWrite, if_neg hactive, hfield, if_neg (by omega), s.ifIdle_of_idle _ _ hidle]

theorem allowed_qDisable (s : State) (role : Role) (q : QNum) (len : Nat) :
    Allowed s role (Key.qDisable q) len ↔ s.shapeFail (some role) true (blockIndex q 2) 0 len = none := by
  obtain ⟨hidx, hsub⟩ := blockKey q 2
  rw [Allowed, Key.qDisable, hidx, hsub]

/-- A run of Q_DISABLE with argument `arg` answers what its operation answers. -/
theorem keyRequest_qDisable {s t : State} {role : Role} {q : QNum} {arg : Byte} {st : Nat} (hs : Serving s)
    (hallowed : Allowed s role (Key.qDisable q) 1) (hwrite : qDisableWrite q [arg] s = (st, t)) (hst : st ≠ DS.role) :
    keyRequest role (Key.qDisable q) [arg] s = .next (t.answer st) := by
  obtain ⟨hidx, hsub⟩ := blockKey q 2
  rw [allowed_qDisable] at hallowed
  rw [keyRequest, Key.qDisable, hidx, hsub]
  refine congrArg Host.Outcome.next
    (dictRequest_quireCommand (p := (0x02, 1, 4, .hq)) (by decide) hs hallowed ?_ hst)
  simp [serveBlock, writeOf, blockIndex_mod, hwrite]

theorem exec_qDisable (role : Role) (q : QNum) (s : State) :
    exec (.qDisable role q) s = keyRequest role (Key.qDisable q) [0] s := rfl

theorem exec_qDisableForce (role : Role) (q : QNum) (s : State) :
    exec (.qDisableForce role q) s = keyRequest role (Key.qDisable q) [1] s := rfl

@[simp] theorem State.answer_quire (s : State) (st : Nat) (q : QNum) : (s.answer st).quire q = s.quire q := rfl

@[simp] theorem State.answer_cmd (s : State) (st k : Nat) : (s.answer st).cmd k = s.cmd k := rfl

theorem quireDisableClause : QuireDisableClause := by
  intro s role q hs hallowed
  refine ⟨fun hnothing => ?nothing, fun hactive hidle => ⟨?drain, ?force⟩⟩
  case nothing =>
    rw [exec_qDisable, exec_qDisableForce]
    exact ⟨keyRequest_qDisable hs hallowed (qDisableWrite_of_nothing q _ s hnothing) (by decide),
      keyRequest_qDisable hs hallowed (qDisableWrite_of_nothing q _ s hnothing) (by decide)⟩
  case drain =>
    rw [exec_qDisable]
    obtain ⟨hstate, hruns, hfetched, hhead, hdisabling⟩ := s.startDrain_quire q
    have hwrite := qDisableWrite_of_idle q 0 s hactive (by decide) hidle
    rw [if_neg (by decide)] at hwrite
    refine ⟨_, keyRequest_qDisable hs hallowed hwrite (by decide), ?_⟩
    rw [State.answer_quire]
    exact ⟨hstate, hruns, hfetched, hhead, hdisabling⟩
  case force =>
    rw [exec_qDisableForce]
    obtain ⟨hstate, hruns, hfetched, hhead, hstarted⟩ := s.forceStop_quire q
    obtain ⟨hdone, hresult, hended⟩ := s.forceStop_cmd q
    have hwrite := qDisableWrite_of_idle q 1 s hactive (by decide) hidle
    rw [if_pos (by decide)] at hwrite
    refine ⟨_, keyRequest_qDisable hs hallowed hwrite (by decide), ?_⟩
    rw [State.answer_quire, State.answer_cmd]
    exact ⟨hstate, hruns, hfetched, hhead, hstarted, hdone, hresult, hended⟩

/-! ### The end of a drain (R301) -/

theorem exec_drainEnd (q : QNum) (s : State) : exec (.drainEnd q) s = .next (drainEnd q s) := rfl

/-- A quire that has drained is DISABLED. -/
def Quire.drained (x : Quire) : Quire := { x with state := .disabled, disabling := none }

theorem drainEnd_of_drained (q : QNum) (s : State) (h : (s.quire q).state = .draining)
    (hstarted : (s.quire q).started = []) : drainEnd q s =
      ((s.setQuire q (s.quire q).drained).disableDone q DS.ok 1
        (((s.quire q).disabling.map Disabling.count).getD 0)).msixSend (8 * q.val + 6) := if_pos ⟨h, hstarted⟩

theorem drainEnd_quire (q : QNum) (s : State) (h : (s.quire q).state = .draining) (hstarted : (s.quire q).started = []) :
    (drainEnd q s).quire q = (s.quire q).drained ∧ ∀ p, p ≠ q → (drainEnd q s).quire p = s.quire p := by
  rw [drainEnd_of_drained q s h hstarted]
  refine ⟨?_, fun p hp => ?_⟩
  · rw [State.msixSend_quire, State.disableDone_quire, State.setQuire_quire]
  · rw [State.msixSend_quire, State.disableDone_quire, State.setQuire_quire_ne _ _ _ _ hp]

theorem drainEnd_cmd (q : QNum) (s : State) (h : (s.quire q).state = .draining) (hstarted : (s.quire q).started = []) :
    let c := (drainEnd q s).cmd (Key.qDisable q)
    c.state = .done ∧ c.result = DS.ok ∧ c.card.head? = some 1 := by
  dsimp only
  rw [drainEnd_of_drained q s h hstarted, State.cmd_of_dict (State.msixSend_dict _ _), State.disableDone_cmd]
  exact ⟨rfl, rfl, rfl⟩

/-- A drain ends without a change of bays, tiers, the NV array or the register file. -/
theorem drainEnd_frame (q : QNum) (s : State) : (drainEnd q s).bays = s.bays ∧ (drainEnd q s).tiers = s.tiers ∧
    (drainEnd q s).nv = s.nv ∧ (drainEnd q s).dict.vals = s.dict.vals := by
  by_cases h : (s.quire q).state = .draining ∧ (s.quire q).started = []
  · obtain ⟨hdraining, hstarted⟩ := h
    obtain ⟨out, msix, hsent⟩ := ((s.setQuire q (s.quire q).drained).disableDone q DS.ok 1
      (((s.quire q).disabling.map Disabling.count).getD 0)).msixSend_eq (8 * q.val + 6)
    rw [drainEnd_of_drained q s hdraining hstarted, hsent]
    exact ⟨rfl, rfl, rfl, rfl⟩
  · rw [drainEnd, if_neg h]
    exact ⟨rfl, rfl, rfl, rfl⟩

theorem drainEndsClause : DrainEndsClause := by
  intro s q hdraining hstarted
  obtain ⟨hself, hothers⟩ := drainEnd_quire q s hdraining hstarted
  obtain ⟨hdone, hresult, hended⟩ := drainEnd_cmd q s hdraining hstarted
  exact ⟨_, exec_drainEnd q s, hself, hothers, hdone, hresult, hended, drainEnd_frame q s⟩

/-- Settles O19, clause by clause. -/
theorem quireDisableAndDrain : Obligations.QuireDisableAndDrain := ⟨quireDisableClause, drainEndsClause⟩

end Sys2Proof.Machine
end

section
/-! PROOFS. The library table (15): reading entries of a table after a write, where its keys rise. -/

namespace Sys2Proof.Machine

/-! ### Tables whose keys rise

`Inv` asks of the sparse tables that their keys rise, and not that no value is the default: the rules for reading what was
put, under that alone. -/

theorem Tab.rising_mono {α : Type} {t : Tab α} {lo hi : Nat} (h : Tab.rising hi t = true) (hl : lo ≤ hi) :
    Tab.rising lo t = true := by
  cases t with
  | nil => rfl
  | cons p t =>
    simp only [Tab.rising, Bool.and_eq_true, decide_eq_true_eq] at h ⊢
    exact ⟨by omega, h.2⟩

theorem Tab.find_of_lt_rising {α : Type} {t : Tab α} {lo i : Nat} (h : Tab.rising lo t = true) (hi : i < lo) :
    Tab.find t i = none := by
  cases t with
  | nil => rfl
  | cons p t =>
    simp only [Tab.rising, Bool.and_eq_true, decide_eq_true_eq] at h
    simp [Tab.find, show i ≠ p.1 by omega, show i < p.1 by omega]

/-- Putting or unlisting a value keeps the keys rising. -/
theorem Tab.rising_put {α : Type} (t : Tab α) (o : Option α) {i : Nat} : ∀ lo, Tab.rising lo t = true → lo ≤ i →
    Tab.rising lo (Tab.put t i o) = true := by
  induction t with
  | nil =>
    intro lo _ hi
    cases o with
    | none => rfl
    | some v => simpa [Tab.put, Tab.rising] using hi
  | cons p t ih =>
    obtain ⟨k, w⟩ := p
    intro lo h hi
    have htable := h
    simp only [Tab.rising, Bool.and_eq_true, decide_eq_true_eq] at h
    obtain ⟨hlo, ht⟩ := h
    simp only [Tab.put]
    split
    · next hlt =>
      cases o with
      | none => exact htable
      | some v => simp [Tab.rising, hi, ht, show i + 1 ≤ k from hlt]
    · split
      · next heq =>
        subst heq
        cases o with
        | none => exact Tab.rising_mono ht (by omega)
        | some v => simp [Tab.rising, hi, ht]
      · simp [Tab.rising, hlo, ih (k + 1) ht (by omega)]

/-- What is put is found; every other key finds what it found. -/
theorem Tab.find_put_of_rising {α : Type} (t : Tab α) (o : Option α) (i j : Nat) : ∀ lo, Tab.rising lo t = true →
    Tab.find (Tab.put t i o) j = if j = i then o else Tab.find t j := by
  induction t with
  | nil =>
    intro lo _
    cases o with
    | none => simp [Tab.put]
    | some v => by_cases hj : j = i <;> simp [Tab.put, Tab.find, hj]
  | cons p t ih =>
    obtain ⟨k, w⟩ := p
    intro lo h
    simp only [Tab.rising, Bool.and_eq_true, decide_eq_true_eq] at h
    obtain ⟨-, ht⟩ := h
    have hbelow : ∀ m, m ≤ k → Tab.find t m = none := fun m hm => Tab.find_of_lt_rising ht (by omega)
    simp only [Tab.put]
    split
    · next hlt => cases o <;> grind [Tab.find]
    · split
      · next heq => cases o <;> grind [Tab.find]
      · next hne =>
        simp only [Tab.find, ih (k + 1) ht]
        grind

theorem Tab.get_set_of_rising {α : Type} [DecidableEq α] (d : α) {t : Tab α} (i j : Nat) (v : α)
    (h : Tab.rising 0 t = true) : Tab.get (Tab.set t d i v) d j = if j = i then v else Tab.get t d j := by
  unfold Tab.get Tab.set
  rw [Tab.find_put_of_rising t _ i j 0 h]
  by_cases hj : j = i
  · by_cases hv : v = d <;> simp [hj, hv]
  · simp [hj]

theorem State.setLib_lib {s : State} (h : Tab.rising 0 s.nv.lib = true) (e y : Nat) (x : LibEntry) :
    (s.setLib e x).lib y = if y = e then x else s.lib y := Tab.get_set_of_rising LibEntry.reset e y x h

theorem State.setLib_rising {s : State} (h : Tab.rising 0 s.nv.lib = true) (e : Nat) (x : LibEntry) :
    Tab.rising 0 (s.setLib e x).nv.lib = true := Tab.rising_put _ _ 0 h (Nat.zero_le e)

theorem rising_lib_of_tabsRising {s : State} (h : tabsRising s = true) : Tab.rising 0 s.nv.lib = true := by
  simp only [tabsRising, Bool.and_eq_true] at h
  simp only [h]

end Sys2Proof.Machine
end

section
/-! PROOFS. Handles and load reports (15, R718, R748): which entries of the register file their operations write. -/

namespace Sys2Proof.Machine

/-! ### Entries of the load books -/

/-- Handles and variants of a quire: indices 0xB0 and 0xB1 of its block. -/
def isHandleOf (q : QNum) (k : Nat) : Prop := k / 256 = blockIndex q 0xB0 ∨ k / 256 = blockIndex q 0xB1

/-- The load report of a quire and its counters: indices 0xB2 and 0xB3 of its block (R748, R770). -/
def isReportOf (q : QNum) (k : Nat) : Prop := k / 256 = blockIndex q 0xB2 ∨ k / 256 = blockIndex q 0xB3

theorem isHandleOf_qHandle (q : QNum) {n : Nat} (h : n < 256) : isHandleOf q (Key.qHandle q n) := by
  simp only [isHandleOf, Key.qHandle, blockIndex]
  omega

theorem isHandleOf_qHandleVariant (q : QNum) {n : Nat} (h : n < 256) : isHandleOf q (Key.qHandleVariant q n) := by
  simp only [isHandleOf, Key.qHandleVariant, blockIndex]
  omega

theorem not_isHandleOf_qHandle {p q : QNum} (hp : p ≠ q) {n : Nat} (h : n < 256) :
    ¬ isHandleOf q (Key.qHandle p n) := by
  have hval : p.val ≠ q.val := fun hv => hp (Fin.ext hv)
  simp only [isHandleOf, Key.qHandle, blockIndex]
  omega

theorem not_isReportOf_of_isHandleOf {p q : QNum} {k : Nat} (h : isHandleOf p k) : ¬ isReportOf q k := by
  simp only [isHandleOf, isReportOf, blockIndex] at h ⊢
  omega

theorem not_isHandleOf_of_isReportOf {p q : QNum} {k : Nat} (h : isReportOf p k) : ¬ isHandleOf q k := fun h' =>
  not_isReportOf_of_isHandleOf h' h

theorem reportKeys (q : QNum) : ∀ k ∈ [Key.qLoadReport q, Key.qLoadsDone q, Key.qLoadsFailed q], isReportOf q k := by
  simp only [List.forall_mem_cons, List.not_mem_nil, false_imp_iff, forall_true_iff, and_true, isReportOf,
    Key.qLoadReport, Key.qLoadsDone, Key.qLoadsFailed, blockIndex]
  omega

/-- The entries a completion reads lie elsewhere in the block. -/
theorem completionKeys_plain (q : QNum) : ∀ k ∈ [Key.qCqSize q, Key.qCqBase q, Key.qPasid q],
    ¬ isHandleOf q k ∧ ¬ isReportOf q k := by
  simp only [List.forall_mem_cons, List.not_mem_nil, false_imp_iff, forall_true_iff, and_true, isHandleOf, isReportOf,
    Key.qCqSize, Key.qCqBase, Key.qPasid, blockIndex]
  omega

/-! ### Operations that write entries of the register file -/

theorem State.RegsKept.mono {P P' : Nat → Prop} {s t : State} (h : s.RegsKept P t) (hP : ∀ k, P k → P' k) :
    s.RegsKept P' t where
  wf := h.wf
  rd hs k hk := h.rd hs k fun hPk => hk (hP k hPk)

/-- `t` keeps the quires, what was sent, and every entry without `P`. -/
structure State.WritesOnly (P : Nat → Prop) (s t : State) : Prop where
  quires : t.quires = s.quires
  out : t.out = s.out
  regs : s.RegsKept P t

theorem State.WritesOnly.trans {P : Nat → Prop} {s t u : State} (h : s.WritesOnly P t) (h' : t.WritesOnly P u) :
    s.WritesOnly P u := ⟨h'.quires.trans h.quires, h'.out.trans h.out, h.regs.trans h'.regs⟩

theorem State.WritesOnly.mono {P P' : Nat → Prop} {s t : State} (h : s.WritesOnly P t) (hP : ∀ k, P k → P' k) :
    s.WritesOnly P' t := ⟨h.quires, h.out, h.regs.mono hP⟩

theorem State.WritesOnly.refl (P : Nat → Prop) (s : State) : s.WritesOnly P s := ⟨rfl, rfl, .of_eq rfl rfl⟩

theorem State.wr_writesOnly {P : Nat → Prop} (s : State) {k : Nat} (v : Nat) (hk : P k) : s.WritesOnly P (s.wr k v) :=
  ⟨rfl, rfl, s.wr_regsKept v hk⟩

theorem State.setLib_writesOnly (P : Nat → Prop) (s : State) (e : Nat) (x : LibEntry) : s.WritesOnly P (s.setLib e x) :=
  ⟨rfl, rfl, .of_eq rfl rfl⟩

theorem State.fresh_writesOnly (P : Nat → Prop) (s : State) : s.WritesOnly P s.fresh.2 := ⟨rfl, rfl, .of_eq rfl rfl⟩

theorem State.giveHandle_writesOnly (s : State) (q : QNum) {e : Nat} (v : Nat) (he : e < 64) :
    s.WritesOnly (isHandleOf q) (s.giveHandle q e v) :=
  (s.wr_writesOnly _ (isHandleOf_qHandle q (by omega))).trans
    (State.wr_writesOnly _ v (isHandleOf_qHandleVariant q (by omega)))

theorem State.dropHandle_writesOnly (s : State) (q : QNum) {e : Nat} (he : e < 64) :
    s.WritesOnly (isHandleOf q) (s.dropHandle q e) :=
  (s.wr_writesOnly 0 (isHandleOf_qHandle q (by omega))).trans
    (State.wr_writesOnly _ 0xFF (isHandleOf_qHandleVariant q (by omega)))

theorem State.letGo_writesOnly (s : State) (q : QNum) {e : Nat} (he : e < 64) :
    s.WritesOnly (isHandleOf q) (s.letGo q e) := (s.setLib_writesOnly _ e _).trans (State.dropHandle_writesOnly _ q he)

/-! ### The report (R748, R770) -/

/-- The card of Q_LOADS_DONE (sub 1) and of Q_LOADS_FAILED (sub 2). -/
def loadCounterCard (sub : Nat) : Card := ⟨.quire, 0xB3, 0xB3, sub, sub, .uint 4, .ro, .hq, .none, .v, .hot, 0⟩

theorem quireCards_loadCounters :
    (quireCards.filter fun c => c.ixLo == 0xB3) = [loadCounterCard 1, loadCounterCard 2] := by decide

theorem State.maxOf_loadCounter (s : State) (q : QNum) {sub : Nat} (hsub : sub = 1 ∨ sub = 2) :
    s.maxOf (blockIndex q 0xB3 * 256 + sub) = 0xFFFFFFFF := by
  have hcard : cardOf s.sku (blockIndex q 0xB3) sub = some (loadCounterCard sub) := by
    rw [cardOf, cardsAt_block q (by decide), quireCards_loadCounters]
    obtain rfl | rfl := hsub <;> cases s.sku <;> rfl
  rw [State.maxOf, show (blockIndex q 0xB3 * 256 + sub) / 256 = blockIndex q 0xB3 by omega,
    show (blockIndex q 0xB3 * 256 + sub) % 256 = sub by omega, hcard]
  rfl

section
variable (s : State) (q : QNum) (status variant entry : Nat) (x : Short) (chunks ms : Nat)

theorem State.report_writesOnly : s.WritesOnly (isReportOf q) (s.report q status variant entry x chunks ms) := by
  refine (s.wr_writesOnly _ (reportKeys q _ (by simp))).trans (State.wr_writesOnly _ _ ?_)
  split <;> exact reportKeys q _ (by simp)

/-- The first byte of the report is the status. -/
theorem State.report_rd_status (h : valsWf s.sku 0 s.dict.vals = true) (hst : status < 256) :
    (s.report q status variant entry x chunks ms).rd (Key.qLoadReport q) % 256 = status := by
  have hkey : Key.qLoadReport q ≠ if status = CS.ok then Key.qLoadsDone q else Key.qLoadsFailed q := by
    unfold Key.qLoadReport Key.qLoadsDone Key.qLoadsFailed
    split <;> omega
  rw [State.report, State.count, State.rd_wr _ _ _ _ (s.wr_wf _ _ h), if_neg hkey, s.rd_wr _ _ _ h, if_pos rfl]
  simp only [List.append_assoc]
  rw [leNat_append, leNat_natLe, natLe_length]
  omega

theorem State.report_rd_counter (h : valsWf s.sku 0 s.dict.vals = true) :
    let k := if status = CS.ok then Key.qLoadsDone q else Key.qLoadsFailed q
    (s.report q status variant entry x chunks ms).rd k = min (s.rd k + 1) 0xFFFFFFFF := by
  have hkey : (if status = CS.ok then Key.qLoadsDone q else Key.qLoadsFailed q) ≠ Key.qLoadReport q := by
    unfold Key.qLoadReport Key.qLoadsDone Key.qLoadsFailed
    split <;> omega
  dsimp only
  rw [State.report, State.rd_count_self _ _ _ (s.wr_wf _ _ h), s.rd_wr _ _ _ h, if_neg hkey,
    show State.maxOf _ _ = _ from ?_]
  split
  · exact State.maxOf_loadCounter _ q (.inl rfl)
  · exact State.maxOf_loadCounter _ q (.inr rfl)

end

end Sys2Proof.Machine
end

section
/-! PROOFS. An entry that starts and completes at once (06, R269, R277): what it sends, and what it leaves of the dictionary and
the NV contents. -/

namespace Sys2Proof.Machine

/-! ### What a completion leaves of the books (R269, R271) -/

/-- `t` keeps the NV contents, the dictionary and the SKU. -/
structure State.KeepsBooks (s t : State) : Prop where
  nv : t.nv = s.nv
  dict : t.dict = s.dict
  sku : t.sku = s.sku

theorem State.KeepsBooks.trans {s t u : State} (h : s.KeepsBooks t) (h' : t.KeepsBooks u) : s.KeepsBooks u :=
  ⟨h'.nv.trans h.nv, h'.dict.trans h.dict, h'.sku.trans h.sku⟩

theorem State.KeepsBooks.refl (s : State) : s.KeepsBooks s := ⟨rfl, rfl, rfl⟩

theorem State.KeepsBooks.ite {s t u : State} {c : Prop} [Decidable c] (ht : s.KeepsBooks t) (hu : s.KeepsBooks u) :
    s.KeepsBooks (if c then t else u) := by
  split
  · exact ht
  · exact hu

theorem State.KeepsBooks.rd {s t : State} (h : s.KeepsBooks t) (k : Nat) : t.rd k = s.rd k := by
  rw [State.rd, h.dict, h.sku, State.rd]

theorem State.KeepsBooks.lib {s t : State} (h : s.KeepsBooks t) (e : Nat) : t.lib e = s.lib e := by
  rw [State.lib, h.nv, State.lib]

theorem State.msixSend_keepsBooks (s : State) (v : Nat) : s.KeepsBooks (s.msixSend v) := by
  obtain ⟨out, msix, h⟩ := s.msixSend_eq v
  rw [h]
  exact ⟨rfl, rfl, rfl⟩

theorem State.tryRelease_keepsBooks (s : State) (q : QNum) : s.KeepsBooks (s.tryRelease q) := by
  unfold State.tryRelease
  dsimp only
  refine .ite ?_ (.refl s)
  obtain ⟨bays, power, h⟩ := State.gateBays_eq (s.setQuire q { s.quire q with pwr := .release }) q
  rw [h]
  exact ⟨rfl, rfl, rfl⟩

theorem State.settleQuire_keepsBooks (s : State) (q : QNum) : s.KeepsBooks (s.settleQuire q) := by
  unfold State.settleQuire
  dsimp only
  refine State.KeepsBooks.trans ?_ (State.tryRelease_keepsBooks _ q)
  exact .ite ⟨rfl, rfl, rfl⟩ (.refl s)

theorem State.writeCq_keepsBooks (s : State) (q : QNum) (c : Completion) : s.KeepsBooks (s.writeCq q c) where
  nv := by simp [State.writeCq, State.signal, apply_ite State.nv, (State.msixSend_keepsBooks _ _).nv, State.emit]
  dict := s.writeCq_dict q c
  sku := by simp [State.writeCq, State.signal, apply_ite State.sku, (State.msixSend_keepsBooks _ _).sku, State.emit]

theorem State.complete_keepsBooks (s : State) (q : QNum) (e : Entry) (status detail result : Nat) :
    s.KeepsBooks (s.complete q e status detail result) := by
  unfold State.complete
  dsimp only
  exact .ite (.refl s) (.ite ⟨rfl, rfl, rfl⟩ (s.writeCq_keepsBooks q _))

theorem State.finishNow_keepsBooks (s : State) (q : QNum) (r : RingNum) (e : Entry) (status detail result : Nat) :
    s.KeepsBooks (s.finishNow q r e status detail result) :=
  State.KeepsBooks.trans (t := s.popEntry q r) ⟨rfl, rfl, rfl⟩
    ((State.complete_keepsBooks _ q e status detail result).trans (State.settleQuire_keepsBooks _ q))

/-! ### What a completion sends (R269, R277) -/

theorem State.msixSend_out (s : State) (v : Nat) : ∃ l, (s.msixSend v).out = s.out ++ l := by
  unfold State.msixSend
  dsimp only
  split
  · split
    · exact ⟨_, rfl⟩
    · exact ⟨[], by simp⟩
  · exact ⟨[], by simp⟩

/-- The next completion entry of the quire stands in its ring. -/
def State.advanceCq (s : State) (q : QNum) (bytes : List Byte) : State :=
  let x := s.quire q
  let base := s.rd (Key.qCqBase q)
  let tail := (x.cqTail + 1) % s.rd (Key.qCqSize q)
  let s := s.setQuire q { x with
    cqTail := tail, phase := if tail = 0 then !x.phase else x.phase, ctrCompleted := x.ctrCompleted + 1 }
  if ringLoc base = 1 then
    s.setTiers { s.tiers with rings := Mem.writeL s.tiers.rings (q.val * ringBytes + ringAddr base + 16 * x.cqTail) bytes }
  else s

/-- What a completion entry tells of itself: its DONE_STITCH, its message. -/
def State.tellCq (s : State) (q : QNum) (c : Completion) : State :=
  let s := if bit c.flags 1 ∧ s.ownsStitch q c.doneStitch ∧ ¬ (s.stitch c.doneStitch).spec then s.signal c.doneStitch 1 else s
  if bit c.flags 0 then s.msixSend (8 * q.val + bits c.flags 6 4) else s

theorem State.writeCq_eq (s : State) (q : QNum) (c : Completion) : s.writeCq q c =
    let t := s.advanceCq q (completionBytes c (s.quire q).phase)
    (t.emit (.completion q (if ringLoc (s.rd (Key.qCqBase q)) = 0 then some (t.rd (Key.qPasid q)) else none)
      (s.quire q).cqTail (completionBytes c (s.quire q).phase))).tellCq q c := rfl

theorem State.advanceCq_keepsBooks (s : State) (q : QNum) (bytes : List Byte) : s.KeepsBooks (s.advanceCq q bytes) := by
  unfold State.advanceCq
  dsimp only
  exact .ite ⟨rfl, rfl, rfl⟩ ⟨rfl, rfl, rfl⟩

theorem State.advanceCq_out (s : State) (q : QNum) (bytes : List Byte) : (s.advanceCq q bytes).out = s.out := by
  unfold State.advanceCq
  dsimp only
  split <;> rfl

theorem State.tellCq_out (s : State) (q : QNum) (c : Completion) : ∃ l, (s.tellCq q c).out = s.out ++ l := by
  have hsignal : ∀ n, (s.signal n 1).out = s.out := fun _ => rfl
  unfold State.tellCq
  dsimp only
  split <;> split
  · exact hsignal c.doneStitch ▸ State.msixSend_out _ _
  · exact s.msixSend_out _
  · exact ⟨[], by simp [hsignal]⟩
  · exact ⟨[], by simp⟩

theorem State.writeCq_out (s : State) (q : QNum) (c : Completion) : ∃ l, (s.writeCq q c).out = s.out ++
    Output.completion q (if ringLoc (s.rd (Key.qCqBase q)) = 0 then some (s.rd (Key.qPasid q)) else none)
      (s.quire q).cqTail (completionBytes c (s.quire q).phase) :: l := by
  rw [s.writeCq_eq]
  dsimp only
  obtain ⟨l, hl⟩ := State.tellCq_out _ q c
  refine ⟨l, hl.trans ?_⟩
  rw [(s.advanceCq_keepsBooks q _).rd, State.emit, s.advanceCq_out]
  simp

/-! ### An entry that starts and completes at once -/

theorem State.popEntry_quire (s : State) (q : QNum) (r : RingNum) : (s.popEntry q r).quire q =
    { (s.quire q).setRing r { (s.quire q).ring r with fetched := ((s.quire q).ring r).fetched.tail } with
      state := .running } :=
  s.modQuire_quire q fun x => { x.setRing r { x.ring r with fetched := (x.ring r).fetched.tail } with state := .running }

/-- Where the completion ring has room, an entry of a running quire completes with the next entry of the ring. -/
theorem State.complete_of_room (s : State) (q : QNum) (e : Entry) (status detail result : Nat)
    (hstate : (s.quire q).state = .running) (hroom : CqRoom s q) :
    s.complete q e status detail result = s.writeCq q (answerOf e status detail result) := by
  obtain ⟨hfull, hheld⟩ := hroom
  rw [State.complete]
  dsimp only
  rw [if_neg (by simp [hstate]), if_neg (by simp [hfull, hheld])]
  rfl

theorem State.writeCq_completes (s : State) (q : QNum) (e : Entry) (status detail result : Nat) :
    Completes s (s.writeCq q (answerOf e status detail result)) q e status detail result := by
  refine ⟨?_, s.writeCq_out q _⟩
  rw [State.quire_of_quires (s.writeCq_quires q _), State.setQuire_quire]

theorem State.tryRelease_ctrCompleted (s : State) (q : QNum) :
    ((s.tryRelease q).quire q).ctrCompleted = (s.quire q).ctrCompleted := by rw [s.tryRelease_quire q]

theorem State.tryRelease_out (s : State) (q : QNum) : (s.tryRelease q).out = s.out := by
  unfold State.tryRelease
  dsimp only
  split
  · obtain ⟨bays, power, h⟩ := (s.setQuire q { s.quire q with pwr := .release }).gateBays_eq q
    rw [h]
    rfl
  · rfl

theorem State.settleQuire_ctrCompleted (s : State) (q : QNum) :
    ((s.settleQuire q).quire q).ctrCompleted = (s.quire q).ctrCompleted := by
  unfold State.settleQuire
  dsimp only
  rw [State.tryRelease_ctrCompleted]
  split
  · rw [State.setQuire_quire]
  · rfl

theorem State.settleQuire_out (s : State) (q : QNum) : (s.settleQuire q).out = s.out := by
  unfold State.settleQuire
  dsimp only
  rw [State.tryRelease_out]
  split <;> rfl

theorem State.finishNow_completes (s : State) (q : QNum) (r : RingNum) (e : Entry) (status detail result : Nat)
    (hroom : CqRoom s q) : Completes s (s.finishNow q r e status detail result) q e status detail result := by
  have hpopped := s.popEntry_quire q r
  have hpopRoom : CqRoom (s.popEntry q r) q := by
    rw [CqRoom, State.cqFull, hpopped]
    exact hroom
  obtain ⟨hcount, l, hout⟩ := State.writeCq_completes (s.popEntry q r) q e status detail result
  rw [hpopped] at hcount hout
  rw [State.finishNow, State.complete_of_room _ q e _ _ _ (by rw [hpopped]) hpopRoom]
  exact ⟨(State.settleQuire_ctrCompleted _ q).trans hcount, l, (State.settleQuire_out _ q).trans hout⟩

/-- Entries written that a completion does not read leave it as it would have been. -/
theorem State.WritesOnly.finishNow_completes {s t : State} {P : Nat → Prop} {q : QNum} (hwrites : s.WritesOnly P t)
    (hwf : valsWf s.sku 0 s.dict.vals = true)
    (hplain : ∀ k ∈ [Key.qCqSize q, Key.qCqBase q, Key.qPasid q], ¬ P k) (hroom : CqRoom s q)
    (r : RingNum) (e : Entry) (status detail result : Nat) :
    Completes s (t.finishNow q r e status detail result) q e status detail result := by
  have hquire := State.quire_of_quires hwrites.quires q
  have hrd : ∀ k ∈ [Key.qCqSize q, Key.qCqBase q, Key.qPasid q], t.rd k = s.rd k := fun k hk =>
    hwrites.regs.rd hwf k (hplain k hk)
  have hroom' : CqRoom t q := by
    rw [CqRoom, State.cqFull, hquire, hrd _ (by simp)]
    exact hroom
  have h := t.finishNow_completes q r e status detail result hroom'
  rwa [Completes, hquire, hwrites.out, hrd _ (by simp), hrd _ (by simp)] at h

end Sys2Proof.Machine
end

section
/-! PROOFS. LINK_TEXT_BLOCK (15, R749 to R754). -/

namespace Sys2Proof.Machine

/-! ### How a link ends (R750 to R754) -/

theorem exec_linkTextBlock (q : QNum) (r : RingNum) (s : State) :
    exec (.linkTextBlock q r) s = .next (linkTextBlock q r s) := rfl

/-- An entry that a link to a content hash considers (R750). -/
def State.Linkable (s : State) (q : QNum) (hash n : Nat) : Prop :=
  n < 64 ∧ (s.lib n).installed = true ∧ (s.lib n).hash = hash ∧ bit (s.rd (Key.libLinkMask (n + 1))) q.val = true

theorem State.mem_linkable {s : State} {q : QNum} {hash n : Nat} :
    n ∈ s.linkable q hash ↔ s.Linkable q hash n := by
  simp [State.linkable, State.Linkable, allE, and_assoc]

/-- No entry considered is in the state `x`. -/
theorem State.find_linkable_eq_none {s : State} {q : QNum} {hash : Nat} {x : LibState}
    (h : ∀ n, s.Linkable q hash n → (s.lib n).state ≠ x) :
    ((s.linkable q hash).find? fun n => (s.lib n).state == x) = none := by
  simpa [List.find?_eq_none, State.mem_linkable] using h

/-- The first of the numbers below `k` with `p` and `p'`. -/
theorem find_filter_range_eq_some {k v : Nat} {p p' : Nat → Bool} (hv : v < k) (hp : p v = true) (hp' : p' v = true)
    (hlow : ∀ u, u < v → p u = true → p' u = false) : ((List.range k).filter p).find? p' = some v := by
  rw [List.find?_filter, List.find?_range_eq_some]
  exact ⟨by simp [hp, hp'], by simpa using hv, fun u hu => by grind⟩

/-- The lowest entry considered that is INSTALLED. -/
theorem State.find_linkable_eq_some {s : State} {q : QNum} {hash n : Nat} (h : s.Linkable q hash n)
    (hinst : (s.lib n).state = .installed)
    (hlow : ∀ m, m < n → s.Linkable q hash m → (s.lib m).state ≠ .installed) :
    ((s.linkable q hash).find? fun n => (s.lib n).state == .installed) = some n := by
  obtain ⟨hn, hrest⟩ := h
  refine find_filter_range_eq_some hn (by simpa [and_assoc] using hrest) (by simp [hinst]) fun m hm hp => ?_
  simpa using hlow m hm ⟨by omega, by simpa [and_assoc] using hp⟩

theorem State.linkOutcome_of_none (s : State) (q : QNum) (hash : Nat) (h : ∀ n, ¬ s.Linkable q hash n) :
    (s.linkOutcome q hash).status = CS.noHandle := by
  have hnil : s.linkable q hash = [] := List.eq_nil_iff_forall_not_mem.2 fun n hn => h n (State.mem_linkable.1 hn)
  simp [State.linkOutcome, hnil]

theorem State.linkOutcome_of_damaged (s : State) (q : QNum) (hash : Nat)
    (hnone : ∀ n, s.Linkable q hash n → (s.lib n).state ≠ .installed) {n : Nat} (hn : s.Linkable q hash n)
    (hdamaged : (s.lib n).state = .damaged) : (s.linkOutcome q hash).status = CS.ioError := by
  unfold State.linkOutcome
  simp only [State.find_linkable_eq_none hnone]
  split
  · rfl
  · next hfind => exact absurd hdamaged (by simpa using List.find?_eq_none.1 hfind n (State.mem_linkable.2 hn))

theorem State.linkOutcome_of_busy (s : State) (q : QNum) (hash : Nat)
    (hnone : ∀ n, s.Linkable q hash n → (s.lib n).state ≠ .installed)
    (hsound : ∀ n, s.Linkable q hash n → (s.lib n).state ≠ .damaged) {n : Nat} (hn : s.Linkable q hash n) :
    (s.linkOutcome q hash).status = CS.noSpace := by
  unfold State.linkOutcome
  simp only [State.find_linkable_eq_none hnone, State.find_linkable_eq_none hsound]
  exact if_neg (List.ne_nil_of_mem (State.mem_linkable.2 hn))

/-- Of the entry that R750 chooses: the base, a handle held, the first variant of the same placement that fits. -/
def State.linkTo (s : State) (q : QNum) (n : Nat) : LinkOut :=
  let x := s.lib n
  let vs := (List.range x.man.variants.length).filter fun v => x.man.samePlace x.variant v
  if !(match x.base with | some b => s.holds q b | none => true) then
    { status := CS.noHandle, variant := 0xFF, entry := n, short := Short.zero }
  else if s.holds q n then
    { status := CS.ok, variant := s.rd (Key.qHandleVariant q (n + 1)), entry := n, short := Short.zero }
  else
    match vs.find? fun v => s.fits q x.man x.stripes v with
    | some v => { status := CS.ok, variant := v, entry := n, short := Short.zero }
    | none =>
      { status := CS.noFit, variant := vs.getLastD 0, entry := n,
        short := s.shortfall q x.man (vs.getLastD 0) x.stripes }

section
variable {s : State} {q : QNum} {n : Nat}

theorem State.linkOutcome_of_installed {hash : Nat} (h : s.Linkable q hash n) (hinst : (s.lib n).state = .installed)
    (hlow : ∀ m, m < n → s.Linkable q hash m → (s.lib m).state ≠ .installed) :
    s.linkOutcome q hash = s.linkTo q n := by
  simp only [State.linkOutcome, State.find_linkable_eq_some h hinst hlow]
  rfl

theorem State.holds_eq_false_iff {e : Nat} : s.holds q e = false ↔ s.rd (Key.qHandle q (e + 1)) = 0 := by
  simp [State.holds]

theorem State.holds_iff {e : Nat} : s.holds q e = true ↔ s.rd (Key.qHandle q (e + 1)) ≠ 0 := by
  simp [State.holds]

theorem State.linkTo_of_base_missing {b : Nat} (hbase : (s.lib n).base = some b)
    (hmissing : s.rd (Key.qHandle q (b + 1)) = 0) : (s.linkTo q n).status = CS.noHandle := by
  simp [State.linkTo, hbase, State.holds_eq_false_iff.2 hmissing]

theorem State.linkTo_of_held (hbase : (s.lib n).base = none) (hheld : s.rd (Key.qHandle q (n + 1)) ≠ 0) :
    s.linkTo q n =
      { status := CS.ok, variant := s.rd (Key.qHandleVariant q (n + 1)), entry := n, short := Short.zero } := by
  simp [State.linkTo, hbase, State.holds_iff.2 hheld]

theorem State.linkTo_of_no_fit (hbase : (s.lib n).base = none) (hfree : s.rd (Key.qHandle q (n + 1)) = 0)
    (hnone : ∀ v, v < (s.lib n).man.variants.length ∧ (s.lib n).man.samePlace (s.lib n).variant v = true →
      s.fits q (s.lib n).man (s.lib n).stripes v = false) : (s.linkTo q n).status = CS.noFit := by
  have hfind : (((List.range (s.lib n).man.variants.length).filter fun v =>
      (s.lib n).man.samePlace (s.lib n).variant v).find? fun v => s.fits q (s.lib n).man (s.lib n).stripes v) = none := by
    simpa [List.find?_eq_none] using hnone
  simp [State.linkTo, hbase, State.holds_eq_false_iff.2 hfree, hfind]

theorem State.linkTo_of_fit (hbase : (s.lib n).base = none) (hfree : s.rd (Key.qHandle q (n + 1)) = 0) {v : Nat}
    (hv : v < (s.lib n).man.variants.length) (hsame : (s.lib n).man.samePlace (s.lib n).variant v = true)
    (hfits : s.fits q (s.lib n).man (s.lib n).stripes v = true)
    (hlow : ∀ u, u < v → (s.lib n).man.samePlace (s.lib n).variant u = true →
      s.fits q (s.lib n).man (s.lib n).stripes u = false) :
    s.linkTo q n = { status := CS.ok, variant := v, entry := n, short := Short.zero } := by
  have hfind := find_filter_range_eq_some hv hsame hfits hlow
  simp [State.linkTo, hbase, State.holds_eq_false_iff.2 hfree, hfind]

end

/-! ### What a link leaves -/

theorem linkTextBlock_of_startable {s : State} {q : QNum} {r : RingNum} {e : Entry}
    (h : s.startable q r 0x04 = some e) :
    let o := s.linkOutcome q (fieldLe e.bytes 8 48)
    let t := s.linkTake q o
    linkTextBlock q r s = (t.fresh.2.report q o.status o.variant o.entry o.short 0 (t.fresh.1 % 2 ^ 32)).finishNow q r e
      o.status 0 (t.linkResult q o) := by
  simp only [linkTextBlock, h]

theorem State.linkTake_of_fail (s : State) (q : QNum) {o : LinkOut} (h : o.status ≠ CS.ok) : s.linkTake q o = s :=
  if_neg fun hok => h hok.1

theorem State.linkTake_of_held (s : State) (q : QNum) {o : LinkOut} (h : s.rd (Key.qHandle q (o.entry + 1)) ≠ 0) :
    s.linkTake q o = s := if_neg fun htake => htake.2 (State.holds_iff.2 h)

theorem State.linkTake_of_free (s : State) (q : QNum) {o : LinkOut} (hok : o.status = CS.ok)
    (h : s.rd (Key.qHandle q (o.entry + 1)) = 0) : s.linkTake q o = s.giveHandle q o.entry o.variant :=
  if_pos ⟨hok, by simp [State.holds_eq_false_iff.2 h]⟩

/-- The report and the completion of a link that left `t`: they end it, and leave the NV contents and the handles. -/
theorem State.report_finishNow_loadEnds {s t : State} {q : QNum} (r : RingNum) (e : Entry) {status : Nat}
    (variant entry : Nat) (x : Short) (ms result : Nat) (hwf : valsWf s.sku 0 s.dict.vals = true) (hroom : CqRoom s q)
    (htake : s.WritesOnly (isHandleOf q) t) (hst : status < 256) :
    let u := (t.fresh.2.report q status variant entry x 0 ms).finishNow q r e status 0 result
    LoadEnds s u q e status result ∧ u.nv = t.nv ∧ ∀ k, isHandleOf q k → u.rd k = t.rd k := by
  have hfresh : s.WritesOnly (isHandleOf q) t.fresh.2 := htake.trans (t.fresh_writesOnly _)
  have hreport := State.report_writesOnly t.fresh.2 q status variant entry x 0 ms
  have hall : s.WritesOnly (fun k => isHandleOf q k ∨ isReportOf q k) _ :=
    (hfresh.mono fun _ => .inl).trans (hreport.mono fun _ => .inr)
  have hwf' := hfresh.regs.wf hwf
  have hend := State.finishNow_keepsBooks (t.fresh.2.report q status variant entry x 0 ms) q r e status 0 result
  have hcompletes := hall.finishNow_completes hwf
    (fun k hk => not_or.2 (completionKeys_plain q k hk)) hroom r e status 0 result
  have hcount := State.report_rd_counter t.fresh.2 q status variant entry x 0 ms hwf'
  have hbefore : ∀ k ∈ [Key.qLoadReport q, Key.qLoadsDone q, Key.qLoadsFailed q], t.fresh.2.rd k = s.rd k := fun k hk =>
    hfresh.regs.rd hwf k (not_isHandleOf_of_isReportOf (reportKeys q k hk))
  dsimp only at hcount ⊢
  refine ⟨⟨hcompletes, ?_, fun hok => ?_, fun hfail => ?_⟩, hend.nv, fun k hk => ?_⟩
  · rw [hend.rd, State.report_rd_status t.fresh.2 q status variant entry x 0 ms hwf' hst]
  · rw [if_pos hok] at hcount
    rw [hend.rd, hcount, hbefore _ (by simp)]
  · rw [if_neg hfail] at hcount
    rw [hend.rd, hcount, hbefore _ (by simp)]
  · rw [hend.rd, hreport.regs.rd hwf' k (not_isReportOf_of_isHandleOf hk)]
    rfl

/-- A link that gives no handle ends with its status. -/
theorem linkTextBlock_loadEnds {s : State} {q : QNum} {r : RingNum} {e : Entry} (hwf : valsWf s.sku 0 s.dict.vals = true)
    (hroom : CqRoom s q) (hstart : s.startable q r 0x04 = some e) {o : LinkOut}
    (ho : s.linkOutcome q (fieldLe e.bytes 8 48) = o) (htake : s.linkTake q o = s) (hst : o.status < 256) :
    LoadEnds s (linkTextBlock q r s) q e o.status (s.linkResult q o) ∧ (linkTextBlock q r s).nv = s.nv ∧
      ∀ n, n ≤ 64 → (linkTextBlock q r s).rd (Key.qHandle q n) = s.rd (Key.qHandle q n) := by
  have hlink := linkTextBlock_of_startable hstart
  dsimp only at hlink
  rw [ho, htake] at hlink
  obtain ⟨hends, hnv, hkept⟩ := State.report_finishNow_loadEnds r e o.variant o.entry o.short (s.fresh.1 % 2 ^ 32)
    (s.linkResult q o) hwf hroom (.refl _ s) hst
  rw [hlink]
  exact ⟨hends, hnv, fun n hn => hkept _ (isHandleOf_qHandle q (by omega))⟩

theorem State.giveHandle_rd {s : State} (hwf : valsWf s.sku 0 s.dict.vals = true) (q : QNum) (n v k : Nat) :
    (s.giveHandle q n v).rd k =
      if k = Key.qHandleVariant q (n + 1) then v
      else if k = Key.qHandle q (n + 1) then mkHandle (s.lib n).generation q n else s.rd k := by
  rw [← s.rd_wr _ k _ hwf, ← State.rd_wr _ _ k v (s.wr_wf _ _ hwf)]
  rfl

/-- A link that does not end OK has no RESULT. -/
theorem linkTextBlock_fails {s : State} {q : QNum} {r : RingNum} {e : Entry} (hwf : valsWf s.sku 0 s.dict.vals = true)
    (hroom : CqRoom s q) (hstart : s.startable q r 0x04 = some e) {status : Nat}
    (hst : (s.linkOutcome q (fieldLe e.bytes 8 48)).status = status) (hfail : status ≠ CS.ok) (hlt : status < 256) :
    LoadEnds s (linkTextBlock q r s) q e status 0 ∧ (linkTextBlock q r s).nv = s.nv ∧
      ∀ n, n ≤ 64 → (linkTextBlock q r s).rd (Key.qHandle q n) = s.rd (Key.qHandle q n) := by
  subst hst
  have hends := linkTextBlock_loadEnds hwf hroom hstart rfl (s.linkTake_of_fail q hfail) hlt
  rwa [State.linkResult, if_neg hfail] at hends

/-- A link that ends OK of an entry the quire does not hold gives it the handle, and nothing else. -/
theorem linkTextBlock_gives {s : State} {q : QNum} {r : RingNum} {e : Entry} (hwf : valsWf s.sku 0 s.dict.vals = true)
    (hroom : CqRoom s q) (hstart : s.startable q r 0x04 = some e) {n v : Nat} (hn : n < 64)
    (ho : s.linkOutcome q (fieldLe e.bytes 8 48) = { status := CS.ok, variant := v, entry := n, short := Short.zero })
    (hfree : s.rd (Key.qHandle q (n + 1)) = 0) :
    let t := linkTextBlock q r s
    LoadEnds s t q e CS.ok (mkHandle (s.lib n).generation q n) ∧ t.nv = s.nv ∧
      t.rd (Key.qHandle q (n + 1)) = mkHandle (s.lib n).generation q n ∧ t.rd (Key.qHandleVariant q (n + 1)) = v ∧
      ∀ m, m ≤ 64 → m ≠ n + 1 → t.rd (Key.qHandle q m) = s.rd (Key.qHandle q m) := by
  have hkey : ∀ m, m ≤ 64 → Key.qHandle q m ≠ Key.qHandleVariant q (n + 1) := fun m hm => by
    unfold Key.qHandle Key.qHandleVariant
    omega
  have hgiven := State.giveHandle_rd hwf q n v
  have hhandle : (s.giveHandle q n v).rd (Key.qHandle q (n + 1)) = mkHandle (s.lib n).generation q n := by
    rw [hgiven, if_neg (hkey _ (by omega)), if_pos rfl]
  obtain ⟨hends, hnv, hkept⟩ := State.report_finishNow_loadEnds r e v n Short.zero
    ((s.giveHandle q n v).fresh.1 % 2 ^ 32) (mkHandle (s.lib n).generation q n) hwf hroom (s.giveHandle_writesOnly q v hn)
    (show CS.ok < 256 by decide)
  have hlink := linkTextBlock_of_startable hstart
  dsimp only at hlink
  rw [ho, State.linkTake_of_free s q rfl hfree, State.linkResult, if_pos rfl, hhandle] at hlink
  dsimp only at hlink ⊢
  rw [hlink]
  refine ⟨hends, hnv, ?_, ?_, fun m hm hne => ?_⟩
  · rw [hkept _ (isHandleOf_qHandle q (by omega)), hhandle]
  · rw [hkept _ (isHandleOf_qHandleVariant q (by omega)), hgiven, if_pos rfl]
  · rw [hkept _ (isHandleOf_qHandle q (by omega)), hgiven, if_neg (hkey m hm),
      if_neg fun heq => hne (by unfold Key.qHandle at heq; omega)]

/-- R749 to R754: one case of `State.linkOutcome` for each clause. -/
theorem linksHandOutClause : LinksHandOutClause := by
  intro s q r e hinv hroom hstart
  obtain ⟨hwf, -, -⟩ := hinv
  have hfails {status : Nat} (hst : (s.linkOutcome q (fieldLe e.bytes 8 48)).status = status) (hfail : status ≠ CS.ok)
      (hlt : status < 256) := linkTextBlock_fails hwf hroom hstart hst hfail hlt
  refine ⟨fun hnone => ?none, fun hnone ⟨n, hn, hdamaged⟩ => ?damaged, fun hnone ⟨n, hn⟩ => ?busy,
    fun n hn hinst hlow => ?installed⟩
  case none =>
    exact ⟨_, exec_linkTextBlock q r s, hfails (s.linkOutcome_of_none q _ hnone) (by decide) (by decide)⟩
  case damaged =>
    exact ⟨_, exec_linkTextBlock q r s,
      hfails (s.linkOutcome_of_damaged q _ hnone hn hdamaged) (by decide) (by decide)⟩
  case busy =>
    exact ⟨_, exec_linkTextBlock q r s, hfails (s.linkOutcome_of_busy q _ (fun m hm => (hnone m hm).1)
      (fun m hm => (hnone m hm).2) hn) (by decide) (by decide)⟩
  case installed =>
    have hchosen := State.linkOutcome_of_installed hn hinst hlow
    obtain ⟨hn64, -⟩ := hn
    refine ⟨fun b hbase hmissing => ?missing, fun hbase hheld => ?held,
      fun hbase hfree => ⟨fun hnofit => ?noFit, fun v ⟨hv, hsame⟩ hfits hfirst => ?fit⟩⟩
    case missing =>
      exact ⟨_, exec_linkTextBlock q r s,
        hfails (hchosen ▸ State.linkTo_of_base_missing hbase hmissing) (by decide) (by decide)⟩
    case held =>
      have hends := linkTextBlock_loadEnds hwf hroom hstart (hchosen.trans (State.linkTo_of_held hbase hheld))
        (s.linkTake_of_held q hheld) (show CS.ok < 256 by decide)
      exact ⟨_, exec_linkTextBlock q r s, hends⟩
    case noFit =>
      exact ⟨_, exec_linkTextBlock q r s,
        hfails (hchosen ▸ State.linkTo_of_no_fit hbase hfree hnofit) (by decide) (by decide)⟩
    case fit =>
      have hto := State.linkTo_of_fit hbase hfree hv hsame hfits fun u hu husame => hfirst u hu ⟨by omega, husame⟩
      exact ⟨_, exec_linkTextBlock q r s, linkTextBlock_gives hwf hroom hstart hn64 (hchosen.trans hto) hfree⟩

end Sys2Proof.Machine
end

section
/-! PROOFS. UNLOAD (15, R719, R761, R762), and the statement of O42. -/

namespace Sys2Proof.Machine

theorem exec_unload (q : QNum) (r : RingNum) (s : State) : exec (.unload q r) s = .next (unload q r s) := rfl

theorem State.validHandle_lt {s : State} {q : QNum} {h x : Nat} (hx : s.validHandle q h = some x) : x < 64 := by
  unfold State.validHandle at hx
  dsimp only at hx
  split at hx
  · cases hx
    omega
  · cases hx

theorem State.mem_tipins {s : State} {x y : Nat} :
    y ∈ s.tipins x ↔ y < 64 ∧ (s.lib y).installed = true ∧ (s.lib y).base = some x := by
  simp [State.tipins, allE]

/-- The entries a release of the handle to `x` lets go: `x`, and its tip-ins that the quire holds. -/
def State.released (s : State) (q : QNum) (x : Nat) : List Nat := x :: (s.tipins x).filter fun t => s.holds q t

/-- The quire lets go of each of the entries, in turn. -/
def State.letGoAll (s : State) (q : QNum) (l : List Nat) : State := l.foldl (fun s y => s.letGo q y) s

section
variable {s : State} {q : QNum} {r : RingNum} {e : Entry}

theorem unload_of_no_handle (hstart : s.startable q r 0x03 = some e)
    (h : s.validHandle q (fieldLe e.bytes 8 4) = none) : unload q r s = s.finishNow q r e CS.noHandle := by
  simp only [unload, hstart, h]

theorem unload_of_bound {x : Nat} (hstart : s.startable q r 0x03 = some e)
    (h : s.validHandle q (fieldLe e.bytes 8 4) = some x) (hbound : s.textBound q (fieldLe e.bytes 8 4) = true) :
    unload q r s = s := by
  simp only [unload, hstart, h, hbound, if_true]

theorem unload_of_free {x : Nat} (hstart : s.startable q r 0x03 = some e)
    (h : s.validHandle q (fieldLe e.bytes 8 4) = some x) (hfree : s.textBound q (fieldLe e.bytes 8 4) = false) :
    unload q r s = (s.letGoAll q (s.released q x)).finishNow q r e CS.ok := by
  simp only [unload, hstart, h, hfree, Bool.false_eq_true, if_false, State.released, State.letGoAll]

end

theorem State.letGo_lib {s : State} (hlib : Tab.rising 0 s.nv.lib = true) (q : QNum) (e y : Nat) :
    (s.letGo q e).lib y = if y = e then { s.lib e with removeReq := true } else s.lib y := State.setLib_lib hlib e y _

theorem State.letGo_rd_qHandle {s : State} (hwf : valsWf s.sku 0 s.dict.vals = true) (q : QNum) {e y : Nat} (hy : y < 64) :
    (s.letGo q e).rd (Key.qHandle q (y + 1)) = if y = e then 0 else s.rd (Key.qHandle q (y + 1)) := by
  have hkeys : Key.qHandle q (y + 1) ≠ Key.qHandleVariant q (e + 1) ∧
      (Key.qHandle q (y + 1) = Key.qHandle q (e + 1) ↔ y = e) := by
    unfold Key.qHandle Key.qHandleVariant
    omega
  obtain ⟨hvariant, hhandle⟩ := hkeys
  have hrd : (s.letGo q e).rd (Key.qHandle q (y + 1)) =
      ((s.wr (Key.qHandle q (e + 1)) 0).wr (Key.qHandleVariant q (e + 1)) 0xFF).rd (Key.qHandle q (y + 1)) := rfl
  rw [hrd, State.rd_wr _ _ _ _ (s.wr_wf _ _ hwf), if_neg hvariant, s.rd_wr _ _ _ hwf]
  simp only [hhandle]

section
variable (q : QNum) (l : List Nat)

theorem State.letGoAll_writesOnly (s : State) (hl : ∀ e ∈ l, e < 64) :
    s.WritesOnly (isHandleOf q) (s.letGoAll q l) :=
  List.foldlRecOn (motive := fun t => s.WritesOnly (isHandleOf q) t) l _ (.refl _ s) fun t ht e he =>
    ht.trans (t.letGo_writesOnly q (hl e he))

/-- The quire's handles to the entries listed go, and no other. -/
theorem State.letGoAll_rd_qHandle (hl : ∀ e ∈ l, e < 64) {y : Nat} (hy : y < 64) : ∀ s : State,
    valsWf s.sku 0 s.dict.vals = true →
    (s.letGoAll q l).rd (Key.qHandle q (y + 1)) = if y ∈ l then 0 else s.rd (Key.qHandle q (y + 1)) := by
  induction l with
  | nil => intro s _; simp [State.letGoAll]
  | cons e l ih =>
    intro s hwf
    have hwf' := (s.letGo_writesOnly q (hl e (by simp))).regs.wf hwf
    have hrest := ih (fun x hx => hl x (by simp [hx])) (s.letGo q e) hwf'
    rw [State.letGo_rd_qHandle hwf q hy] at hrest
    refine Eq.trans hrest ?_
    by_cases hye : y = e <;> simp [hye]

/-- The removal of the entries listed is requested, and of no other. -/
theorem State.letGoAll_lib (y : Nat) : ∀ s : State, Tab.rising 0 s.nv.lib = true →
    (s.letGoAll q l).lib y = if y ∈ l then { s.lib y with removeReq := true } else s.lib y := by
  induction l with
  | nil => intro s _; simp [State.letGoAll]
  | cons e l ih =>
    intro s hlib
    have hrest := ih (s.letGo q e) (State.setLib_rising hlib e _)
    rw [State.letGo_lib hlib] at hrest
    refine Eq.trans hrest ?_
    by_cases hye : y = e
    · subst hye
      simp
    · simp [hye]

end

/-- R719, R761, R762: what is let go is `State.released`. -/
theorem unloadReleasesClause : UnloadReleasesClause := by
  intro s q r e hroom hstart hinv
  obtain ⟨hwf, -, htabs⟩ := hinv
  have hlib := rising_lib_of_tabsRising htabs
  refine ⟨fun hnone => ?none, fun x hx => ⟨fun hbound => ?bound, fun hfree => ?free⟩⟩
  case none =>
    rw [exec_unload, unload_of_no_handle hstart hnone]
    exact ⟨_, rfl, s.finishNow_completes q r e _ _ _ hroom, (s.finishNow_keepsBooks q r e _ _ _).nv⟩
  case bound => rw [exec_unload, unload_of_bound hstart hx hbound]
  case free =>
    have hx64 := State.validHandle_lt hx
    have hreleased : ∀ y, y ∈ s.released q x ↔
        y = x ∨ (y < 64 ∧ (s.lib y).installed = true ∧ (s.lib y).base = some x) ∧ s.rd (Key.qHandle q (y + 1)) ≠ 0 := by
      simp [State.released, State.mem_tipins, State.holds_iff]
    have hlt : ∀ y ∈ s.released q x, y < 64 := fun y hy => by
      obtain rfl | ⟨⟨hy64, -⟩, -⟩ := (hreleased y).1 hy
      · exact hx64
      · exact hy64
    have hwrites := s.letGoAll_writesOnly q _ hlt
    have hend := State.finishNow_keepsBooks (s.letGoAll q (s.released q x)) q r e CS.ok 0 0
    rw [exec_unload, unload_of_free hstart hx hfree]
    refine ⟨_, rfl, ?_, fun y hy hgone => ?_, fun y hy hne hother => ?_, fun p hp y hy => ?_⟩
    · exact hwrites.finishNow_completes hwf (fun k hk => (completionKeys_plain q k hk).1) hroom r e CS.ok 0 0
    · have hmem : y ∈ s.released q x := (hreleased y).2 (hgone.imp_right fun ⟨hinst, hbase, hheld⟩ =>
        ⟨⟨hy, hinst, hbase⟩, hheld⟩)
      rw [hend.rd, hend.lib, State.letGoAll_rd_qHandle q _ hlt hy s hwf, State.letGoAll_lib q _ y s hlib, if_pos hmem,
        if_pos hmem]
      exact ⟨rfl, rfl⟩
    · have hmem : y ∉ s.released q x := fun hmem => ((hreleased y).1 hmem).elim hne fun ⟨⟨_, hinst, hbase⟩, _⟩ =>
        hother ⟨hinst, hbase⟩
      rw [hend.rd, hend.lib, State.letGoAll_rd_qHandle q _ hlt hy s hwf, State.letGoAll_lib q _ y s hlib, if_neg hmem,
        if_neg hmem]
      exact ⟨rfl, rfl⟩
    · rw [hend.rd, hwrites.regs.rd hwf _ (not_isHandleOf_qHandle hp (by omega))]


/-- Settles O42, clause by clause. -/
theorem handlesComeAndGo : Obligations.HandlesComeAndGo := ⟨linksHandOutClause, unloadReleasesClause⟩

end Sys2Proof.Machine
end

section
/-! PROOFS. Entries of chapter 19 (R894): what a write of one answers. -/

namespace Sys2Proof.Machine

/-! ### What the commands of this family answer -/

theorem exec_classKeyWrite (role : Role) (sub : Byte) (val : List Byte) (s : State) :
    exec (.classKeyWrite role sub val) s = keyRequest role (Key.classKey sub.toNat) val s := rfl

theorem exec_debugUnlock (role : Role) (arg : List Byte) (env : Env) (s : State) :
    exec (.debugUnlock role arg env) s = .next (dictRequest role 0x110E 0 arg env s) := rfl

theorem exec_arbAdvanceFirmware (role : Role) {arg : List Byte} (s : State) (h : fieldLe arg 0 1 = 0) :
    exec (.arbAdvanceFirmware role arg) s = .next (dictRequest role 0x1107 0 arg {} s) :=
  congrArg Host.Outcome.next (if_pos h)

theorem exec_arbAdvanceSlipcase (role : Role) {arg : List Byte} (s : State) (h : fieldLe arg 0 1 = 1) :
    exec (.arbAdvanceSlipcase role arg) s = .next (dictRequest role 0x1107 0 arg {} s) :=
  congrArg Host.Outcome.next (if_pos h)

theorem exec_lcToProvisioned (role : Role) {arg : List Byte} (env : Env) (s : State)
    (h : fieldLe arg 0 1 = lcProvisioned) :
    exec (.lcToProvisioned role arg env) s = .next (dictRequest role 0x1101 0 arg env s) :=
  congrArg Host.Outcome.next (if_pos h)

theorem exec_lcToField (role : Role) {arg : List Byte} (s : State) (h : fieldLe arg 0 1 = lcField) :
    exec (.lcToField role arg) s = .next (dictRequest role 0x1101 0 arg {} s) :=
  congrArg Host.Outcome.next (if_pos h)

theorem exec_lcToRma (role : Role) {arg : List Byte} (s : State) (h : fieldLe arg 0 1 = lcRma) :
    exec (.lcToRma role arg) s = .next (dictRequest role 0x1101 0 arg {} s) :=
  congrArg Host.Outcome.next (if_pos h)

/-! ### The entries' cards (R894) -/

/-- A write that passes R929 at an entry below the profile blocks, where no lock holds, answers what `serveLow` answers. -/
theorem dictRequest_low {s t : State} {role : Role} {idx sub st : Nat} {data : List Byte} {env : Env} {c : Card}
    (hs : Serving s) (hshape : s.shapeFail (some role) true idx sub data.length = none)
    (hcard : cardOf s.sku idx sub = some c) (hresp : c.resp = .cold) (hacc : c.access.isRs = false)
    (htext : badText c data = false) (hlow : idx < 0x1210) (hlock : s.locks idx = false)
    (hserve : serveLow c (writeOf role idx sub data) env false s = (st, t)) (hst : st ≠ DS.role) :
    dictRequest role idx sub data env s = t.answer st := by
  refine dictRequest_of_cold (s.attends_of_serving hs) hshape hcard hresp ?_ hst
  rw [serveWrite_of_open c (writeOf role idx sub data) env false s hlock (s.recoveryBars_of_serving _ hs) rfl htext,
    serveOp_low c (writeOf role idx sub data) env false s (Or.inl hlow) hcard hacc, hserve]

/-- LC_TRANSITION, ARB_ADVANCE and DEBUG_UNLOCK: the index, the lengths of argument and result. -/
def keyCommands : List (Nat × Nat × Nat) := [(0x1101, 8, 2), (0x1107, 4, 0), (0x110E, 192, 0)]

/-- The card of such a command. -/
def keyCommandCard (p : Nat × Nat × Nat) : Card := ⟨.abs, p.1, p.1, 0, 0, .cmd p.2.1 p.2.2, .cmd, .h, .h, .v, .cold, 0⟩

theorem cardOf_keyCommand (sku : Sku) : ∀ p ∈ keyCommands, cardOf sku p.1 0 = some (keyCommandCard p) := by
  cases sku <;> decide

theorem keyCommands_low : ∀ p ∈ keyCommands, p.1 < 0x1210 := by decide

theorem dictRequest_keyCommand {s t : State} {role : Role} {p : Nat × Nat × Nat} {st : Nat} {arg : List Byte} {env : Env}
    (hp : p ∈ keyCommands) (hs : Serving s) (hshape : s.shapeFail (some role) true p.1 0 arg.length = none)
    (hlock : s.locks p.1 = false)
    (hserve : serveLow (keyCommandCard p) (writeOf role p.1 0 arg) env false s = (st, t)) (hst : st ≠ DS.role) :
    dictRequest role p.1 0 arg env s = t.answer st :=
  dictRequest_low hs hshape (cardOf_keyCommand s.sku p hp) rfl rfl rfl (keyCommands_low p hp) hlock hserve hst

theorem dictRequest_lcTransition {s t : State} {role : Role} {st : Nat} {arg : List Byte} {env : Env} (hs : Serving s)
    (hallowed : Allowed s role Key.lcTransition arg.length)
    (hwrite : lcTransitionWrite (isFactory role) arg env s = (st, t)) (hst : st ≠ DS.role) :
    dictRequest role 0x1101 0 arg env s = t.answer st :=
  dictRequest_keyCommand (p := (0x1101, 8, 2)) (by decide) hs hallowed rfl hwrite hst

theorem dictRequest_arbAdvance {s t : State} {role : Role} {st : Nat} {arg : List Byte} (hs : Serving s)
    (hallowed : Allowed s role Key.arbAdvance arg.length) (hwrite : arbAdvanceWrite arg s = (st, t)) (hst : st ≠ DS.role) :
    dictRequest role 0x1107 0 arg {} s = t.answer st :=
  dictRequest_keyCommand (p := (0x1107, 4, 0)) (by decide) hs hallowed rfl hwrite hst

/-- Eight failed runs lock DEBUG_UNLOCK (R892). -/
theorem State.locks_debugUnlock (s : State) : s.locks 0x110E = decide (8 ≤ s.rd Key.debugUnlockFails) := by
  simp [State.locks]

theorem exec_debugUnlock_of_write {s t : State} {role : Role} {st : Nat} {arg : List Byte} {env : Env} (hs : Serving s)
    (hallowed : Allowed s role Key.debugUnlock arg.length) (hfails : s.rd Key.debugUnlockFails < 8)
    (hwrite : debugUnlockWrite arg env s = (st, t)) (hst : st ≠ DS.role) :
    exec (.debugUnlock role arg env) s = .next (t.answer st) := by
  have hopen : s.locks 0x110E = false := by simpa [s.locks_debugUnlock] using hfails
  rw [exec_debugUnlock]
  exact congrArg Host.Outcome.next
    (dictRequest_keyCommand (p := (0x110E, 192, 0)) (by decide) hs hallowed hopen hwrite hst)

theorem exec_debugUnlock_of_locked {s : State} {role : Role} {arg : List Byte} {env : Env} (hs : Serving s)
    (hallowed : Allowed s role Key.debugUnlock arg.length) (hfails : 8 ≤ s.rd Key.debugUnlockFails) :
    exec (.debugUnlock role arg env) s = .next (s.answer DS.locked) := by
  have hlocked : s.locks 0x110E = true := by simpa [s.locks_debugUnlock] using hfails
  rw [exec_debugUnlock]
  exact congrArg Host.Outcome.next (dictRequest_of_cold (s.attends_of_serving hs) hallowed
    (cardOf_keyCommand s.sku (0x110E, 192, 0) (by decide)) rfl (serveWrite_of_locks _ _ _ _ _ hlocked) (by decide))

/-- The card of CLASS_KEY (R894). -/
def classKeyCard : Card := ⟨.abs, 0x1109, 0x1109, 1, 4, .bytes 36, .wo, .none, .h, .s, .cold, 0⟩

theorem cardOf_classKey (sku : Sku) (sub : Byte) (h1 : 1 ≤ sub.toNat) (h4 : sub.toNat ≤ 4) :
    cardOf sku 0x1109 sub.toNat = some classKeyCard := by
  have hsub : sub.toNat ∈ [1, 2, 3, 4] := by
    simp only [List.mem_cons, List.not_mem_nil, or_false]
    omega
  have hcards : ∀ n ∈ [1, 2, 3, 4], cardOf sku 0x1109 n = some classKeyCard := by cases sku <;> decide
  exact hcards _ hsub

theorem exec_classKeyWrite_of_write {s t : State} {role : Role} {sub : Byte} {st : Nat} {val : List Byte} (hs : Serving s)
    (h1 : 1 ≤ sub.toNat) (h4 : sub.toNat ≤ 4) (hallowed : Allowed s role (Key.classKey sub.toNat) val.length)
    (hwrite : classKeyWrite sub.toNat val s = (st, t)) (hst : st ≠ DS.role) :
    exec (.classKeyWrite role sub val) s = .next (t.answer st) := by
  have hidx : Key.classKey sub.toNat / 256 = 0x1109 := by
    unfold Key.classKey
    omega
  have hsub : Key.classKey sub.toNat % 256 = sub.toNat := by
    unfold Key.classKey
    omega
  rw [Allowed, hidx, hsub] at hallowed
  rw [exec_classKeyWrite, keyRequest, hidx, hsub]
  exact congrArg Host.Outcome.next
    (dictRequest_low hs hallowed (cardOf_classKey s.sku sub h1 h4) rfl rfl rfl (by decide) rfl hwrite hst)

end Sys2Proof.Machine
end

section
/-! PROOFS. Bits ORed into the OTP row (R590): the field that takes them and the rest of the row. -/

namespace Sys2Proof.Machine

/-! ### Memories: a field written reads back -/

theorem Mem.readN_length (m : Mem) (a n : Nat) : (Mem.readN m a n).length = n := by
  induction n generalizing a with
  | zero => rfl
  | succ n ih => rw [Mem.readN, List.length_cons, ih]

theorem Mem.readN_getElem (m : Mem) (a n i : Nat) (h : i < (Mem.readN m a n).length) :
    (Mem.readN m a n)[i] = Mem.read m (a + i) := by
  induction n generalizing a i with
  | zero => simp [Mem.readN] at h
  | succ n ih =>
    cases i with
    | zero => rfl
    | succ i =>
      simp only [Mem.readN, List.getElem_cons_succ, ih, show a + 1 + i = a + (i + 1) by omega]

theorem Mem.readN_writeL_self {m : Mem} (h : Mem.wf m = true) (a : Nat) (bs : List Byte) :
    Mem.readN (Mem.writeL m a bs) a bs.length = bs := by
  refine List.ext_getElem (Mem.readN_length _ _ _) fun i _ hi => ?_
  rw [Mem.readN_getElem, Mem.read_writeL bs m a _ h, if_pos (by omega), Nat.add_sub_cancel_left]
  simp [hi]

theorem Mem.readN_writeL_disjoint {m : Mem} (h : Mem.wf m = true) (a c n : Nat) (bs : List Byte)
    (hdisj : c + n ≤ a ∨ a + bs.length ≤ c) : Mem.readN (Mem.writeL m a bs) c n = Mem.readN m c n := by
  refine List.ext_getElem (by rw [Mem.readN_length, Mem.readN_length]) fun i hi _ => ?_
  rw [Mem.readN_length] at hi
  rw [Mem.readN_getElem, Mem.readN_getElem, Mem.read_writeL bs m a _ h, if_neg (by omega)]

theorem Mem.readLe_lt (m : Mem) (a n : Nat) : Mem.readLe m a n < 256 ^ n := by
  have h := leNat_lt (Mem.readN m a n)
  rwa [Mem.readN_length] at h

theorem Mem.readLe_writeLe_self {m : Mem} (h : Mem.wf m = true) (a n v : Nat) :
    Mem.readLe (Mem.writeLe m a n v) a n = v % 256 ^ n := by
  have hread := Mem.readN_writeL_self h a (natLe n v)
  rw [natLe_length] at hread
  rw [Mem.readLe, Mem.writeLe, hread, leNat_natLe]

theorem Mem.readLe_writeLe_disjoint {m : Mem} (h : Mem.wf m = true) (a c n k v : Nat) (hdisj : c + k ≤ a ∨ a + n ≤ c) :
    Mem.readLe (Mem.writeLe m a n v) c k = Mem.readLe m c k := by
  rw [Mem.readLe, Mem.writeLe, Mem.readN_writeL_disjoint h a c k _ (by rwa [natLe_length]), Mem.readLe]

theorem Mem.read_eq_readLe (m : Mem) (a n : Nat) : (Mem.read m a).toNat = Mem.readLe m a (n + 1) % 256 := by
  have hbyte : (Mem.read m a).toNat < 256 := (Mem.read m a).isLt
  rw [Mem.readLe, Mem.readN, leNat]
  omega

/-! ### The OTP row (R590) -/

theorem State.otpOr_wf {s : State} (h : Mem.wf s.nv.otp = true) (a v : Nat) : Mem.wf (s.otpOr a v).nv.otp = true :=
  Mem.writeL_wf _ _ _ h

theorem State.otpOr_field {s : State} (h : Mem.wf s.nv.otp = true) (a : Nat) {v : Nat} (hv : v < 2 ^ 64) :
    Mem.readLe (s.otpOr a v).nv.otp a 8 = Mem.readLe s.nv.otp a 8 ||| v := by
  have hor : Mem.readLe s.nv.otp a 8 ||| v < 2 ^ 64 := Nat.or_lt_two_pow (Mem.readLe_lt s.nv.otp a 8) hv
  exact (Mem.readLe_writeLe_self h a 8 _).trans (Nat.mod_eq_of_lt hor)

theorem State.otpOr_field_disjoint {s : State} (h : Mem.wf s.nv.otp = true) (a v c n : Nat)
    (hdisj : c + n ≤ a ∨ a + 8 ≤ c) : Mem.readLe (s.otpOr a v).nv.otp c n = Mem.readLe s.nv.otp c n :=
  Mem.readLe_writeLe_disjoint h a c 8 n _ hdisj

theorem State.otpOr_otpByte {s : State} (h : Mem.wf s.nv.otp = true) (a : Nat) {v : Nat} (hv : v < 256) :
    (s.otpOr a v).otpByte a = s.otpByte a ||| v := by
  rw [State.otpByte, State.otpByte, Mem.read_eq_readLe _ a 7, Mem.read_eq_readLe _ a 7, State.otpOr_field h a (by omega),
    show (256 : Nat) = 2 ^ 8 from rfl, Nat.or_mod_two_pow, Nat.mod_eq_of_lt (a := v) hv]

theorem otp_wf_of_memsWf {s : State} (h : memsWf s = true) : Mem.wf s.nv.otp = true := by
  simp only [memsWf, Bool.and_eq_true] at h
  simp only [h]

/-! ### Thermometers (R591, R885) -/

theorem bit_eq_testBit (v i : Nat) : bit v i = v.testBit i := by
  rw [bit, Nat.testBit_eq_decide_div_mod_eq]
  rfl

/-- A thermometer reads at least `k` exactly when its first `k` bits are set. -/
theorem le_thermo_iff (n : Nat) : ∀ v k : Nat, k ≤ thermo v n ↔ k ≤ n ∧ ∀ i < k, v.testBit i = true := by
  induction n with
  | zero => simp +contextual [thermo]
  | succ n ih =>
    intro v k
    cases k with
    | zero => simp
    | succ k =>
      have hbits : (∀ i < k + 1, v.testBit i = true) ↔ v.testBit 0 = true ∧ ∀ i < k, (v / 2).testBit i = true := by
        simp only [Nat.testBit_div_two]
        exact Nat.forall_lt_succ_left
      rw [thermo, bit_eq_testBit, hbits]
      by_cases h0 : v.testBit 0 = true
      · simp only [h0, if_true, true_and, Nat.add_le_add_iff_right, ih]
      · simp [h0]

/-- The bits from `cur` to below `v`. -/
theorem testBit_two_pow_sub_two_pow {cur v i : Nat} (hlo : cur ≤ i) (hhi : i < v) :
    (2 ^ v - 2 ^ cur).testBit i = true := by
  obtain ⟨d, rfl⟩ : ∃ d, v = cur + d := ⟨v - cur, by omega⟩
  have hsplit : 2 ^ (cur + d) - 2 ^ cur = 2 ^ cur * (2 ^ d - 1) := by rw [Nat.mul_sub, Nat.pow_add, Nat.mul_one]
  rw [hsplit, Nat.testBit_two_pow_mul, Nat.testBit_two_pow_sub_one]
  simp only [ge_iff_le, hlo, decide_true, Bool.true_and, decide_eq_true_eq]
  omega

/-- A thermometer whose bits up to `v` are programmed reads at least `v`. -/
theorem le_thermo_of_raised {w v : Nat} (hv : v ≤ 64) : v ≤ thermo (w ||| (2 ^ v - 2 ^ thermo w 64)) 64 := by
  obtain ⟨-, hset⟩ := (le_thermo_iff 64 w _).1 le_rfl
  refine (le_thermo_iff 64 _ v).2 ⟨hv, fun i hi => ?_⟩
  rw [Nat.testBit_or, Bool.or_eq_true]
  by_cases hlow : i < thermo w 64
  · exact Or.inl (hset i hlow)
  · exact Or.inr (testBit_two_pow_sub_two_pow (by omega) hi)

end Sys2Proof.Machine
end

section
/-! PROOFS. ARB_ADVANCE (19, R885). -/

namespace Sys2Proof.Machine

/-- The thermometer that WHICH names: its place in the OTP row (R885). -/
def arbPlace (which : Nat) : Nat := if which = 0 then 0x150 else 0x158

/-- The value of the thermometer that WHICH names. -/
def State.arbValue (s : State) (which : Nat) : Nat := if which = 0 then s.arbFirmware else s.arbSlipcase

/-- A run of ARB_ADVANCE that programs the thermometer up to `v`. -/
def State.raiseArb (s : State) (which v : Nat) : State :=
  (s.otpOr (arbPlace which) (2 ^ v - 2 ^ s.arbValue which)).cmdDone Key.arbAdvance DS.ok []

theorem State.not_blank_or_rma (s : State) (h : s.lc = lcProvisioned ∨ s.lc = lcField) :
    ¬ (s.lc = lcBlank ∨ s.lc = lcRma) := by
  obtain h | h := h <;> simp [h, lcBlank, lcProvisioned, lcField, lcRma]

theorem arbAdvanceWrite_of_state (arg : List Byte) (s : State) (h : s.lc = lcBlank ∨ s.lc = lcRma) :
    arbAdvanceWrite arg s = (DS.state, s) := if_pos h

section
variable {s : State} {arg : List Byte} {which : Nat} (hwhich : fieldLe arg 0 1 = which) (h1 : which ≤ 1)
  (hclear : fieldLe arg 2 2 = 0) (hlive : s.lc = lcProvisioned ∨ s.lc = lcField)
include hwhich hlive

theorem arbAdvanceWrite_of_range (h : fieldLe arg 1 1 ≤ s.arbValue which ∨ 64 < fieldLe arg 1 1 ∨
    (which = 0 ∧ s.runningEpoch < fieldLe arg 1 1)) : arbAdvanceWrite arg s = (DS.range, s) := by
  subst hwhich
  rw [arbAdvanceWrite, if_neg (s.not_blank_or_rma hlive)]
  exact if_pos (Or.inr (Or.inr h))

include h1 hclear

theorem arbAdvanceWrite_of_raise (hidle : s.cmdRunning Key.arbAdvance = false) (hv : s.arbValue which < fieldLe arg 1 1)
    (h64 : fieldLe arg 1 1 ≤ 64) (hepoch : which = 0 → fieldLe arg 1 1 ≤ s.runningEpoch) :
    arbAdvanceWrite arg s = (DS.ok, s.raiseArb which (fieldLe arg 1 1)) := by
  subst hwhich
  have hgood : ¬ (1 < fieldLe arg 0 1 ∨ fieldLe arg 2 2 ≠ 0 ∨ fieldLe arg 1 1 ≤ s.arbValue (fieldLe arg 0 1) ∨
      64 < fieldLe arg 1 1 ∨ (fieldLe arg 0 1 = 0 ∧ s.runningEpoch < fieldLe arg 1 1)) := by
    omega
  rw [arbAdvanceWrite, if_neg (s.not_blank_or_rma hlive)]
  exact (if_neg hgood).trans (s.ifIdle_of_idle _ _ hidle)

end

/-- The thermometer named reads at least `v`, the other as before. -/
theorem State.raiseArb_values {s : State} (h : Mem.wf s.nv.otp = true) {v : Nat} (hv : v ≤ 64) :
    v ≤ (s.raiseArb 0 v).arbFirmware ∧ (s.raiseArb 0 v).arbSlipcase = s.arbSlipcase ∧
      v ≤ (s.raiseArb 1 v).arbSlipcase ∧ (s.raiseArb 1 v).arbFirmware = s.arbFirmware := by
  have hlt : ∀ cur, 2 ^ v - 2 ^ cur < 2 ^ 64 := fun cur =>
    (Nat.sub_lt (by positivity) (by positivity)).trans_le (Nat.pow_le_pow_right (by decide) hv)
  refine ⟨?_, ?_, ?_, ?_⟩
  · have hfield := State.otpOr_field h 0x150 (hlt s.arbFirmware)
    exact (le_thermo_of_raised hv).trans_eq (congrArg (thermo · 64) hfield).symm
  · exact congrArg (thermo · 64) (State.otpOr_field_disjoint h 0x150 _ 0x158 8 (by decide))
  · have hfield := State.otpOr_field h 0x158 (hlt s.arbSlipcase)
    exact (le_thermo_of_raised hv).trans_eq (congrArg (thermo · 64) hfield).symm
  · exact congrArg (thermo · 64) (State.otpOr_field_disjoint h 0x158 _ 0x150 8 (by decide))

end Sys2Proof.Machine
end

section
/-! PROOFS. Class keys (19, R879, R880), and the first clause of O51. -/

namespace Sys2Proof.Machine

/-! ### What a record leaves of the NV contents (R641, R644) -/

/-- `n` with other parameter records, and so other open units. -/
def Nv.withRecords (n : Nv) (recs : List ParamRec) (units : Nat) : Nv := { n with recs := recs, paramUnits := units }

theorem State.compactRegion_nv (s : State) : ∃ recs units, s.compactRegion.nv = s.nv.withRecords recs units := ⟨_, _, rfl⟩

/-- A record of the parameter region leaves the rest of the NV array. -/
theorem State.paramRecord_nv (s : State) (k v : Nat) : ∃ recs units, (s.paramRecord k v).nv = s.nv.withRecords recs units := by
  have htaken : ∃ recs units, (s.alsoRecord k v).takeParamUnits.nv = s.nv.withRecords recs units := by
    unfold State.takeParamUnits
    split <;> exact ⟨_, _, rfl⟩
  obtain ⟨recs, units, htaken⟩ := htaken
  rw [State.paramRecord_eq]
  split
  · obtain ⟨recs', units', hcompact⟩ := (s.alsoRecord k v).takeParamUnits.compactRegion_nv
    exact ⟨recs', units', by rw [hcompact, htaken]; rfl⟩
  · exact ⟨recs, units, htaken⟩

/-! ### The security state beside the dictionary (19) -/

/-- The state with another security state. -/
def State.setSec (s : State) (x : Security) : State := { s with sec := x }

@[simp] theorem State.setSec_sec (s : State) (x : Security) : (s.setSec x).sec = x := rfl

@[simp] theorem State.setSec_sku (s : State) (x : Security) : (s.setSec x).sku = s.sku := rfl

@[simp] theorem State.setSec_dict (s : State) (x : Security) : (s.setSec x).dict = s.dict := rfl

@[simp] theorem State.setSec_nv (s : State) (x : Security) : (s.setSec x).nv = s.nv := rfl

@[simp] theorem State.setSec_out (s : State) (x : Security) : (s.setSec x).out = s.out := rfl

@[simp] theorem State.setSec_rd (s : State) (x : Security) (k : Nat) : (s.setSec x).rd k = s.rd k := by
  simp only [State.rd, State.setSec_dict, State.setSec_sku]

/-! ### CLASS_KEY (R879, R880) -/

/-- A class stands under another sub. -/
def State.ClassElsewhere (s : State) (n id : Nat) : Prop := ∃ m, 1 ≤ m ∧ m ≤ 4 ∧ m ≠ n ∧ s.rd (Key.classId m) = id

/-- The class and its key, under sub `n`, and the record. -/
def State.takeClassKey (s : State) (n : Nat) (val : List Byte) : State :=
  ((s.paramRecord (Key.classKey n) (leNat (val.take 36))).wr (Key.classId n) (fieldLe val 0 4)).setSec
    { s.sec with classKeys := Tab.set s.sec.classKeys 0 n (leNat (val.take 36)) }

theorem State.any_class_iff (s : State) (n id : Nat) :
    ([1, 2, 3, 4].any fun m => m != n && s.rd (Key.classId m) == id) = true ↔ s.ClassElsewhere n id := by
  have hsubs : ∀ m, m ∈ [1, 2, 3, 4] ↔ 1 ≤ m ∧ m ≤ 4 := fun m => by
    simp only [List.mem_cons, List.not_mem_nil, or_false]
    omega
  simp only [List.any_eq_true, hsubs, Bool.and_eq_true, bne_iff_ne, beq_iff_eq, and_assoc, State.ClassElsewhere]

theorem classKeyWrite_of_state (n : Nat) (val : List Byte) (s : State) (h : s.lc ≠ lcProvisioned) :
    classKeyWrite n val s = (DS.state, s) := if_pos h

theorem classKeyWrite_of_range (n : Nat) (val : List Byte) (s : State) (hlc : s.lc = lcProvisioned)
    (h : fieldLe val 0 4 = 0 ∨ s.ClassElsewhere n (fieldLe val 0 4)) : classKeyWrite n val s = (DS.range, s) := by
  rw [← s.any_class_iff] at h
  rw [classKeyWrite, if_neg (not_not.2 hlc)]
  exact if_pos h

theorem classKeyWrite_of_new (n : Nat) (val : List Byte) (s : State) (hlc : s.lc = lcProvisioned)
    (hid : fieldLe val 0 4 ≠ 0) (hother : ¬ s.ClassElsewhere n (fieldLe val 0 4)) (hroom : s.paramFull = false)
    (hnew : Tab.get s.sec.classKeys 0 n ≠ leNat (val.take 36)) :
    classKeyWrite n val s = (DS.ok, s.takeClassKey n val) := by
  have hrecord := s.paramRecord_changesOnly (Key.classKey n) (leNat (val.take 36))
  have hsec : (s.paramRecord (Key.classKey n) (leNat (val.take 36))).sec = s.sec := by rw [hrecord.frame]
  rw [← s.any_class_iff] at hother
  rw [classKeyWrite, if_neg (not_not.2 hlc)]
  dsimp only
  rw [if_neg (not_or.2 ⟨hid, hother⟩), if_neg hnew, if_neg (by simp [hroom]), State.wr_sec, hsec]
  rfl

theorem Key.classId_plain {n : Nat} (h : n < 256) : Key.classId n ∉ paramStatus := by
  simp only [Key.classId, paramStatus, Key.paramErased, Key.paramCyclesMax, Key.paramCompactions, List.mem_cons,
    List.not_mem_nil, or_false, not_or]
  omega

theorem State.takeClassKey_classId (s : State) (n : Nat) (val : List Byte) (h : valsWf s.sku 0 s.dict.vals = true)
    {m : Nat} (hm : m < 256) : (s.takeClassKey n val).rd (Key.classId m) = if m = n then fieldLe val 0 4 else s.rd (Key.classId m) := by
  have hrecord := s.paramRecord_changesOnly (Key.classKey n) (leNat (val.take 36))
  have hkey : Key.classId m = Key.classId n ↔ m = n := by
    unfold Key.classId
    omega
  rw [State.takeClassKey, State.setSec_rd, State.rd_wr _ _ _ _ (hrecord.wf h), hrecord.rd h _ (Key.classId_plain hm)]
  simp only [hkey]

theorem State.takeClassKey_otp (s : State) (n : Nat) (val : List Byte) : (s.takeClassKey n val).nv.otp = s.nv.otp := by
  obtain ⟨recs, units, hnv⟩ := s.paramRecord_nv (Key.classKey n) (leNat (val.take 36))
  rw [State.takeClassKey, State.setSec_nv, State.wr_nv, hnv]
  rfl

theorem State.takeClassKey_out (s : State) (n : Nat) (val : List Byte) : (s.takeClassKey n val).out = s.out := by
  rw [State.takeClassKey, State.setSec_out, State.wr_out, (s.paramRecord_changesOnly _ _).out]

theorem rising_classKeys_of_tabsRising {s : State} (h : tabsRising s = true) : Tab.rising 0 s.sec.classKeys = true := by
  simp only [tabsRising, Bool.and_eq_true] at h
  simp only [h]

theorem State.takeClassKey_key {s : State} (h : Tab.rising 0 s.sec.classKeys = true) (n : Nat) (val : List Byte) (m : Nat) :
    Tab.get (s.takeClassKey n val).sec.classKeys 0 m =
      if m = n then leNat (val.take 36) else Tab.get s.sec.classKeys 0 m := by
  rw [State.takeClassKey, State.setSec_sec, Tab.get_set_of_rising 0 n m _ h]

theorem State.raiseArb_result (s : State) (which v : Nat) : ((s.raiseArb which v).cmd Key.arbAdvance).result = DS.ok := by
  rw [State.raiseArb, State.cmdDone_cmd]

@[simp] theorem State.answer_arbFirmware (s : State) (st : Nat) : (s.answer st).arbFirmware = s.arbFirmware := rfl

@[simp] theorem State.answer_arbSlipcase (s : State) (st : Nat) : (s.answer st).arbSlipcase = s.arbSlipcase := rfl

/-! ### The clause -/

/-- R879, R880, R885: a class key taken is `State.takeClassKey`, a thermometer raised is `State.raiseArb`. -/
theorem classKeysAndThermometersClause : ClassKeysAndThermometersClause := by
  intro s role hs hinv
  obtain ⟨hvals, hmems, htabs⟩ := hinv
  have hotp := otp_wf_of_memsWf hmems
  refine ⟨fun sub val h1 h4 hallowed => ⟨fun hlc => ?keyState, fun hlc hbad => ?keyRange,
      fun hlc hid hother hroom hnew => ?keyTaken⟩,
    fun arg hallowed hidle hclear => ⟨fun hdead => ⟨fun hfw => ?fwState, fun hsc => ?scState⟩,
      fun hlive hfw => ⟨fun hbad => ?fwRange, fun hv h64 hepoch => ?fwRaised⟩,
      fun hlive hsc => ⟨fun hbad => ?scRange, fun hv h64 => ?scRaised⟩⟩⟩
  case keyState =>
    exact exec_classKeyWrite_of_write hs h1 h4 hallowed (classKeyWrite_of_state _ _ s hlc) (by decide)
  case keyRange =>
    exact exec_classKeyWrite_of_write hs h1 h4 hallowed (classKeyWrite_of_range _ _ s hlc hbad) (by decide)
  case keyTaken =>
    have hkeys := State.takeClassKey_key (rising_classKeys_of_tabsRising htabs) sub.toNat val
    have hids := fun m hm => s.takeClassKey_classId sub.toNat val hvals (m := m) hm
    refine ⟨_, exec_classKeyWrite_of_write hs h1 h4 hallowed (classKeyWrite_of_new _ _ s hlc hid hother hroom hnew)
      (by decide), ?_⟩
    simp only [State.answer_sec, State.answer_rd, State.answer_nv, State.answer_out]
    refine ⟨?_, ?_, fun m _ hm4 hm => ?_, s.takeClassKey_otp _ _, by rw [State.takeClassKey_out]⟩
    · rw [hkeys, if_pos rfl]
    · rw [hids _ sub.isLt, if_pos rfl]
    · rw [hids m (by omega), hkeys, if_neg hm, if_neg hm]
      exact ⟨rfl, rfl⟩
  case fwState =>
    rw [exec_arbAdvanceFirmware role s hfw,
      dictRequest_arbAdvance hs hallowed (arbAdvanceWrite_of_state arg s hdead) (by decide)]
  case scState =>
    rw [exec_arbAdvanceSlipcase role s hsc,
      dictRequest_arbAdvance hs hallowed (arbAdvanceWrite_of_state arg s hdead) (by decide)]
  case fwRange =>
    have hwrite := arbAdvanceWrite_of_range hfw hlive (hbad.imp_right fun h => h.imp_right fun he => ⟨rfl, he⟩)
    rw [exec_arbAdvanceFirmware role s hfw, dictRequest_arbAdvance hs hallowed hwrite (by decide)]
  case scRange =>
    have hwrite := arbAdvanceWrite_of_range hsc hlive (hbad.imp_right Or.inl)
    rw [exec_arbAdvanceSlipcase role s hsc, dictRequest_arbAdvance hs hallowed hwrite (by decide)]
  case fwRaised =>
    have hwrite := arbAdvanceWrite_of_raise hfw (by decide) hclear hlive hidle hv h64 fun _ => hepoch
    obtain ⟨hraised, hother, -, -⟩ := State.raiseArb_values hotp h64
    rw [exec_arbAdvanceFirmware role s hfw, dictRequest_arbAdvance hs hallowed hwrite (by decide)]
    refine ⟨_, rfl, ?_⟩
    simp only [State.answer_arbFirmware, State.answer_arbSlipcase, State.answer_cmd, State.answer_nv, State.answer_out]
    exact ⟨hraised, hother, s.raiseArb_result _ _, rfl, rfl⟩
  case scRaised =>
    have hwrite := arbAdvanceWrite_of_raise hsc le_rfl hclear hlive hidle hv h64 fun h => absurd h (by decide)
    obtain ⟨-, -, hraised, hother⟩ := State.raiseArb_values hotp h64
    rw [exec_arbAdvanceSlipcase role s hsc, dictRequest_arbAdvance hs hallowed hwrite (by decide)]
    refine ⟨_, rfl, ?_⟩
    simp only [State.answer_arbFirmware, State.answer_arbSlipcase, State.answer_cmd, State.answer_out]
    exact ⟨hraised, hother, s.raiseArb_result _ _, rfl⟩

end Sys2Proof.Machine
end

section
/-! PROOFS. DEBUG_UNLOCK (19, R889 to R892). -/

namespace Sys2Proof.Machine

/-- The device draws its next nonce (R890). -/
def State.drawNonce (s : State) (entropy : Nat) : State := s.setSec { s.sec with nonce := entropy % 2 ^ 384 }

/-- A run whose signature verifies: DEBUG_STATE becomes UNLOCKED (R891). -/
def State.unlockDebug (s : State) (entropy : Nat) : State :=
  ((s.drawNonce entropy).wr Key.debugState 2).cmdDone Key.debugUnlock DS.ok []

/-- A run that fails is counted (R891, R892). -/
def State.failDebug (s : State) (entropy : Nat) : State :=
  ((s.drawNonce entropy).count Key.debugUnlockFails).cmdDone Key.debugUnlock DS.range []

section
variable {s : State} (arg : List Byte) (env : Env) (hfails : s.rd Key.debugUnlockFails < 8)
include hfails

theorem debugUnlockWrite_of_state (hlc : s.lc ≠ lcRma) : debugUnlockWrite arg env s = (DS.state, s) := by
  rw [debugUnlockWrite, if_neg (by omega), if_pos hlc]

theorem debugUnlockWrite_of_signed (hlc : s.lc = lcRma) (hidle : s.cmdRunning Key.debugUnlock = false)
    (hsigned : s.debugSigned arg = true) : debugUnlockWrite arg env s = (DS.ok, s.unlockDebug env.entropy) := by
  rw [debugUnlockWrite, if_neg (by omega), if_neg (not_not.2 hlc), s.ifIdle_of_idle _ _ hidle, if_pos hsigned]
  rfl

theorem debugUnlockWrite_of_unsigned (hlc : s.lc = lcRma) (hidle : s.cmdRunning Key.debugUnlock = false)
    (hsigned : s.debugSigned arg = false) : debugUnlockWrite arg env s = (DS.ok, s.failDebug env.entropy) := by
  rw [debugUnlockWrite, if_neg (by omega), if_neg (not_not.2 hlc), s.ifIdle_of_idle _ _ hidle, if_neg (by simp [hsigned])]
  rfl

end

theorem State.maxOf_debugUnlockFails (s : State) : s.maxOf Key.debugUnlockFails = 2 ^ 32 - 1 := by
  have hcard : cardOf s.sku 0x110F 0 = some ⟨.abs, 0x110F, 0x110F, 0, 0, .uint 4, .ro, .all, .none, .v, .hot, 0⟩ := by
    cases s.sku <;> decide
  rw [State.maxOf, show Key.debugUnlockFails / 256 = 0x110F from rfl, show Key.debugUnlockFails % 256 = 0 from rfl, hcard]
  rfl

theorem State.unlockDebug_rd {s : State} (h : valsWf s.sku 0 s.dict.vals = true) (entropy k : Nat) :
    (s.unlockDebug entropy).rd k = if k = Key.debugState then 2 else s.rd k :=
  (s.drawNonce entropy).rd_wr Key.debugState k 2 h

theorem State.failDebug_rd_fails {s : State} (h : valsWf s.sku 0 s.dict.vals = true)
    (hfails : s.rd Key.debugUnlockFails < 8) (entropy : Nat) :
    (s.failDebug entropy).rd Key.debugUnlockFails = s.rd Key.debugUnlockFails + 1 := by
  have hcount := (s.drawNonce entropy).rd_count_self Key.debugUnlockFails 1 h
  rw [State.maxOf_debugUnlockFails] at hcount
  exact hcount.trans (Nat.min_eq_left (show s.rd Key.debugUnlockFails + 1 ≤ 2 ^ 32 - 1 by omega))

theorem State.failDebug_rd_debugState {s : State} (h : valsWf s.sku 0 s.dict.vals = true) (entropy : Nat) :
    (s.failDebug entropy).rd Key.debugState = s.rd Key.debugState :=
  (State.count_regsKept (P := (· = Key.debugUnlockFails)) (s.drawNonce entropy) 1 rfl).rd h _ (by decide)

theorem State.debugNow_of_rma {s : State} (h : s.lc = lcRma) :
    s.debugNow = if s.rd Key.debugState = 2 then 2 else 0 := by
  rw [State.debugNow, if_neg (by rw [h]; decide)]
  simp only [h, true_and]

theorem State.unlockDebug_debugNow {s : State} (h : valsWf s.sku 0 s.dict.vals = true) (hlc : s.lc = lcRma)
    (entropy : Nat) : (s.unlockDebug entropy).debugNow = 2 := by
  have hrma : (s.unlockDebug entropy).lc = lcRma := hlc
  rw [State.debugNow_of_rma hrma, State.unlockDebug_rd h, if_pos rfl, if_pos rfl]

theorem State.failDebug_debugNow {s : State} (h : valsWf s.sku 0 s.dict.vals = true) (hlc : s.lc = lcRma)
    (entropy : Nat) : (s.failDebug entropy).debugNow = s.debugNow := by
  have hrma : (s.failDebug entropy).lc = lcRma := hlc
  rw [State.debugNow_of_rma hrma, State.failDebug_rd_debugState h, State.debugNow_of_rma hlc]

@[simp] theorem State.cmdDone_sec (s : State) (k result : Nat) (card : List Byte) : (s.cmdDone k result card).sec = s.sec := rfl

@[simp] theorem State.answer_debugNow (s : State) (st : Nat) : (s.answer st).debugNow = s.debugNow := rfl

theorem State.unlockDebug_result (s : State) (entropy : Nat) :
    ((s.unlockDebug entropy).cmd Key.debugUnlock).result = DS.ok := by
  rw [State.unlockDebug, State.cmdDone_cmd]

theorem State.failDebug_result (s : State) (entropy : Nat) :
    ((s.failDebug entropy).cmd Key.debugUnlock).result = DS.range := by
  rw [State.failDebug, State.cmdDone_cmd]

theorem State.unlockDebug_sec (s : State) (entropy : Nat) :
    (s.unlockDebug entropy).sec = { s.sec with nonce := entropy % 2 ^ 384 } := by
  rw [State.unlockDebug, State.cmdDone_sec, State.wr_sec, State.drawNonce, State.setSec_sec]

theorem State.failDebug_sec (s : State) (entropy : Nat) :
    (s.failDebug entropy).sec = { s.sec with nonce := entropy % 2 ^ 384 } := by
  rw [State.failDebug, State.cmdDone_sec, State.count_sec, State.drawNonce, State.setSec_sec]

/-- R889 to R892: a run is `State.unlockDebug` or `State.failDebug`. -/
theorem debugUnlocksClause : DebugUnlocksClause := by
  intro s role arg env hs hinv hallowed hidle
  obtain ⟨hvals, -, -⟩ := hinv
  refine ⟨fun hlocked => exec_debugUnlock_of_locked hs hallowed hlocked, fun hfails hlc => ?state, fun hfails hlc => ?run⟩
  case state =>
    exact exec_debugUnlock_of_write hs hallowed hfails (debugUnlockWrite_of_state arg env hfails hlc) (by decide)
  case run =>
    cases hsigned : s.debugSigned arg with
    | true =>
      have hwrite := debugUnlockWrite_of_signed arg env hfails hlc hidle hsigned
      refine ⟨_, exec_debugUnlock_of_write hs hallowed hfails hwrite (by decide), ?_⟩
      simp only [State.answer_sec, State.answer_debugNow, State.answer_rd, State.answer_cmd, State.answer_nv,
        State.answer_quires, State.answer_out]
      exact ⟨by rw [State.unlockDebug_sec], fun _ => ⟨State.unlockDebug_debugNow hvals hlc _,
        (State.unlockDebug_rd hvals _ _).trans (if_neg (by decide)), s.unlockDebug_result _⟩, nofun, rfl, rfl, rfl⟩
    | false =>
      have hwrite := debugUnlockWrite_of_unsigned arg env hfails hlc hidle hsigned
      refine ⟨_, exec_debugUnlock_of_write hs hallowed hfails hwrite (by decide), ?_⟩
      simp only [State.answer_sec, State.answer_debugNow, State.answer_rd, State.answer_cmd, State.answer_nv,
        State.answer_quires, State.answer_out]
      exact ⟨by rw [State.failDebug_sec], nofun, fun _ => ⟨State.failDebug_debugNow hvals hlc _,
        State.failDebug_rd_fails hvals hfails _, s.failDebug_result _⟩, rfl, rfl, rfl⟩

end Sys2Proof.Machine
end

section
/-! PROOFS. What an LC_TRANSITION under way rests on (19, R870, R872): the end of a quire's work and the release of its stitches
and leaves (06, R304) keep it. -/

namespace Sys2Proof.Machine

/-! ### What is kept -/

theorem Tab.find_put_some_ne {α : Type} (t : Tab α) {i j : Nat} (v : α) (h : j ≠ i) :
    Tab.find (Tab.put t i (some v)) j = Tab.find t j := by
  induction t with
  | nil => simp [Tab.put, Tab.find, h]
  | cons p t ih =>
    obtain ⟨k, w⟩ := p
    rcases Nat.lt_trichotomy i k with hlt | heq | hgt
    · by_cases hji : j < i
      · simp [Tab.put, Tab.find, hlt, h, hji, show j ≠ k by omega, show j < k by omega]
      · simp [Tab.put, Tab.find, hlt, h, hji]
    · subst heq
      simp [Tab.put, Tab.find, h]
    · simp only [Tab.put, Tab.find, Nat.not_lt_of_gt hgt, Nat.ne_of_gt hgt, if_false, ih]

/-- The block of another command stays. -/
theorem State.cmdDone_cmd_ne (s : State) {k j : Nat} (h : j ≠ k) (result : Nat) (card : List Byte) :
    (s.cmdDone k result card).cmd j = s.cmd j := by
  simp [State.cmdDone, State.setCmd, State.cmd, Tab.get, Tab.set, CmdBlock.never, Tab.find_put_some_ne _ _ h]

/-- `t` keeps the security state, the OTP row, the boot region, the block of LC_TRANSITION and every reset under way, and its
library is a table when that of `s` is. -/
structure State.LifeKept (s t : State) : Prop where
  sec : t.sec = s.sec
  otp : t.nv.otp = s.nv.otp
  boot : t.nv.boot = s.nv.boot
  lib : Tab.rising 0 s.nv.lib = true → Tab.rising 0 t.nv.lib = true
  cmd : t.cmd Key.lcTransition = s.cmd Key.lcTransition
  resetting : ∀ p, (s.quire p).state = .resetting → (t.quire p).state = .resetting

theorem State.LifeKept.of_eq {s t : State} (hsec : t.sec = s.sec) (hnv : t.nv = s.nv) (hcmds : t.dict.cmds = s.dict.cmds)
    (hquires : t.quires = s.quires) : s.LifeKept t where
  sec := hsec
  otp := by rw [hnv]
  boot := by rw [hnv]
  lib h := by rwa [hnv]
  cmd := by rw [State.cmd, hcmds, State.cmd]
  resetting p h := by rwa [State.quire_of_quires hquires p]

theorem State.LifeKept.refl (s : State) : s.LifeKept s := .of_eq rfl rfl rfl rfl

theorem State.LifeKept.trans {s t u : State} (h : s.LifeKept t) (h' : t.LifeKept u) : s.LifeKept u where
  sec := h'.sec.trans h.sec
  otp := h'.otp.trans h.otp
  boot := h'.boot.trans h.boot
  lib hs := h'.lib (h.lib hs)
  cmd := h'.cmd.trans h.cmd
  resetting p hp := h'.resetting p (h.resetting p hp)

theorem State.LifeKept.foldl {α : Type} {f : State → α → State} {l : List α} {s t : State} (h : s.LifeKept t)
    (hf : ∀ (u : State) (a : α), u.LifeKept (f u a)) : s.LifeKept (l.foldl f t) :=
  List.foldlRecOn l f h fun u hu a _ => hu.trans (hf u a)

theorem State.LifeKept.ite {s t u : State} {c : Prop} [Decidable c] (ht : s.LifeKept t) (hu : s.LifeKept u) :
    s.LifeKept (if c then t else u) := by
  split
  · exact ht
  · exact hu

section
variable {s t : State} (h : s.LifeKept t)
include h

theorem State.LifeKept.setNv {n : Nv} (hotp : n.otp = t.nv.otp := by rfl) (hboot : n.boot = t.nv.boot := by rfl)
    (hlib : n.lib = t.nv.lib := by rfl) : s.LifeKept (t.setNv n) :=
  h.trans ⟨rfl, hotp, hboot, fun ht => by rwa [State.setNv_nv, hlib], rfl, fun _ hp => hp⟩

theorem State.LifeKept.setLib {e : Nat} {x : LibEntry} : s.LifeKept (t.setLib e x) :=
  h.trans ⟨rfl, rfl, rfl, fun ht => State.setLib_rising ht e x, rfl, fun _ hp => hp⟩

theorem State.LifeKept.setTiers {x : Tiers} : s.LifeKept (t.setTiers x) := h.trans (.of_eq rfl rfl rfl rfl)

theorem State.LifeKept.setWeave {x : Weave} : s.LifeKept (t.setWeave x) := h.trans (.of_eq rfl rfl rfl rfl)

theorem State.LifeKept.setSt {x : StitchUnit} : s.LifeKept (t.setSt x) := h.trans (.of_eq rfl rfl rfl rfl)

theorem State.LifeKept.modBay {b : BayNum} {f : Bay → Bay} : s.LifeKept (t.modBay b f) := h.trans (.of_eq rfl rfl rfl rfl)

theorem State.LifeKept.wr {k v : Nat} : s.LifeKept (t.wr k v) := h.trans (.of_eq rfl rfl rfl rfl)

theorem State.LifeKept.count {k n : Nat} : s.LifeKept (t.count k n) := h.trans (.of_eq rfl rfl rfl rfl)

theorem State.LifeKept.emit {o : Output} : s.LifeKept (t.emit o) := h.trans (.of_eq rfl rfl rfl rfl)

theorem State.LifeKept.fresh : s.LifeKept t.fresh.2 := h.trans (.of_eq rfl rfl rfl rfl)

theorem State.LifeKept.setQuire {q : QNum} {x : Quire} (hx : (t.quire q).state = .resetting → x.state = .resetting) :
    s.LifeKept (t.setQuire q x) := by
  refine h.trans ⟨rfl, rfl, rfl, id, rfl, fun p hp => ?_⟩
  by_cases hpq : p = q
  · subst hpq
    rw [State.setQuire_quire]
    exact hx hp
  · rwa [State.setQuire_quire_ne _ _ _ _ hpq]

theorem State.LifeKept.modQuire {q : QNum} {f : Quire → Quire}
    (hf : ∀ x, x.state = .resetting → (f x).state = .resetting := by exact fun _ hx => hx) : s.LifeKept (t.modQuire q f) :=
  h.setQuire (hf _)

theorem State.LifeKept.wrs {l : List (Nat × Nat)} : s.LifeKept (t.wrs l) := .foldl h fun u _ => (State.LifeKept.refl u).wr

/-- The block of another command changes. -/
theorem State.LifeKept.cmdDone {k result : Nat} {card : List Byte} (hk : k ≠ Key.lcTransition) :
    s.LifeKept (t.cmdDone k result card) :=
  h.trans ⟨rfl, rfl, rfl, id, State.cmdDone_cmd_ne t hk.symm result card, fun _ hp => hp⟩

theorem State.LifeKept.msixSend {v : Nat} : s.LifeKept (t.msixSend v) := by
  obtain ⟨out, msix, hsent⟩ := t.msixSend_eq v
  rw [hsent]
  exact h.trans (.of_eq rfl rfl rfl rfl)

end

/-! ### The end of a quire's runs (R535, R559) -/

theorem State.setLeaf_lifeKept (s : State) (p : Place) (n : Nat) (f : Mem) : s.LifeKept (s.setLeaf p n f) := by
  cases p <;> exact .of_eq rfl rfl rfl rfl

theorem State.leaveFrame_lifeKept (s : State) (q : QNum) (addr : Nat) (f : Mem) (xo : Bool) :
    s.LifeKept (s.leaveFrame q addr f xo) := by
  unfold State.leaveFrame
  split
  · split
    · exact (s.setLeaf_lifeKept _ _ _).setTiers
    · exact .emit (.refl s)
    · exact .refl s
  · exact .refl s

theorem State.voidLeaf_lifeKept (s : State) (q : QNum) (addr : Nat) : s.LifeKept (s.voidLeaf q addr) := by
  unfold State.voidLeaf
  split
  · split
    · exact (s.setLeaf_lifeKept _ _ _).setTiers
    · exact .refl s
  · exact .refl s

theorem State.dropUnsensed_lifeKept (s : State) (q : QNum) (run sc : Nat) : s.LifeKept (s.dropUnsensed q run sc) := by
  refine .count (.foldl (.setWeave (.refl s)) fun t r => ?_)
  split
  · exact .modBay (.refl t)
  · exact .refl t

theorem State.modRun_lifeKept (s : State) (q : QNum) (id : Nat) (f : Run → Run) : s.LifeKept (s.modRun q id f) :=
  .modQuire (.refl s)

theorem State.countClose_lifeKept (s : State) (q : QNum) (run : Nat) (sc : Scope) (committed : Bool) :
    s.LifeKept (s.countClose q run sc committed) := by
  have hrun := s.modRun_lifeKept q run fun r =>
    { r with specLeaves := (specSettle sc.id committed (((s.run q run).map Run.specLeaves).getD [])).2 }
  exact .ite hrun.count.count.count.count hrun.count.count.count.count

theorem State.absorbSignals_lifeKept (s : State) (ns : List Nat) : s.LifeKept (s.absorbSignals ns) := by
  refine .foldl (.setSt (.refl s)) fun t p => ?_
  split
  · exact .count (.refl t)
  · exact .refl t

theorem State.cancelScope_lifeKept (s : State) (q : QNum) (r : Run) (sc : Scope) : s.LifeKept (s.cancelScope q r sc) := by
  refine State.LifeKept.trans ?_ (State.countClose_lifeKept _ q r.id sc false)
  refine .foldl (.trans ?_ (State.absorbSignals_lifeKept _ _)) fun t n => .setSt (.refl t)
  refine State.LifeKept.trans ?_ (State.modRun_lifeKept _ q r.id _)
  refine .foldl (.foldl (s.dropUnsensed_lifeKept q r.id sc.id) fun t b => .modBay (.refl t)) fun t e => ?_
  exact t.voidLeaf_lifeKept q e.1

theorem State.cancelScopes_lifeKept (s : State) (q : QNum) : s.LifeKept (s.cancelScopes q) :=
  .foldl (.refl s) fun t _ => .trans (.foldl (.refl t) fun u c => u.cancelScope_lifeKept q _ c) (State.modRun_lifeKept _ q _ _)

theorem State.flushMoves_lifeKept (s : State) (q : QNum) (b : BayNum) : s.LifeKept (s.flushMoves q b) := by
  unfold State.flushMoves
  refine .modBay (.foldl (.refl s) fun t m => ?_)
  exact t.leaveFrame_lifeKept q m.addr m.frame m.xo

theorem State.endBayRun_lifeKept (s : State) (q : QNum) (b : BayNum) : s.LifeKept (s.endBayRun q b) := by
  unfold State.endBayRun
  split
  · exact .ite (s.flushMoves_lifeKept q b).modBay (.refl s)
  · exact .refl s

theorem State.endRuns_lifeKept (s : State) (q : QNum) : s.LifeKept (s.endRuns q) := by
  rw [State.endRuns_eq]
  refine .foldl (.setNv (.modQuire (s.cancelScopes_lifeKept q))) fun t b => ?_
  exact t.endBayRun_lifeKept q b

/-! ### The press after a READ_RUN that a reset stops (R601, R616) -/

theorem State.takeSectors_lifeKept (s : State) (x : PressOp) : s.LifeKept (s.takeSectors x) :=
  .setNv (.foldl (.refl s) fun t _ => .setNv (.refl t))

theorem State.queueMove_lifeKept (s : State) (g b : Nat) (kind : MoveKind) : s.LifeKept (s.queueMove g b kind) :=
  .ite (.refl s) (.setNv (.refl s))

theorem State.startPress_lifeKept (s : State) (x : PressOp) : s.LifeKept (s.startPress x) := by
  have hset : s.LifeKept (s.setOp { x with running := true }) := .setNv (.refl s)
  refine .ite (.setNv (.setNv hset)) (.ite (hset.trans (State.takeSectors_lifeKept _ _))
    (.ite (.foldl hset fun t k => ?_) (.ite ?_ hset)))
  · split
    · exact .setWeave (.refl t)
    · exact .refl t
  · exact .setNv (hset.trans (State.queueMove_lifeKept _ _ _ _))

theorem State.serveRing_lifeKept (s : State) : s.LifeKept s.serveRing := by
  have hfirst : s.LifeKept (s.nv.press.foldl
      (fun s x => if x.running ∧ x.isAuxOp = true ∧ x.under = [] then s.takeSectors x else s) s) :=
    .foldl (.refl s) fun t x => .ite (t.takeSectors_lifeKept x) (.refl t)
  refine List.foldlRecOn (motive := fun p : State × List PressSource => s.LifeKept p.1) _ _ hfirst fun p hp x _ => ?_
  split
  · exact hp
  · split
    · exact hp
    · split
      · exact hp.trans (p.1.startPress_lifeKept x)
      · exact hp

theorem submitKey_ne (src : PressSource) {k : Nat} (h : submitKey src = some k) : k ≠ Key.lcTransition := by
  cases src <;> simp only [submitKey, Option.some.injEq, reduceCtorEq, Key.pressSubmitH, Key.pressSubmitQ] at h <;>
    (unfold Key.lcTransition; omega)

theorem State.pressDone_lifeKept (s : State) (x : PressOp) (status done detail us : Nat) :
    s.LifeKept (s.pressDone x status done detail us false) := by
  refine State.LifeKept.trans ?_ (State.serveRing_lifeKept _)
  have hdrop : s.LifeKept (dropOp s x.id) := .setNv (.refl s)
  have hunits : s.LifeKept ((dropOp s x.id).unitsEnd x) :=
    .foldl (.ite (.setNv (.setNv hdrop)) hdrop) fun t _ => .setNv (.refl t)
  show s.LifeKept (State.pressAnswer _ _ _)
  unfold State.pressAnswer
  split
  · next k hk => exact hunits.cmdDone (submitKey_ne _ hk)
  · exact hunits.emit

theorem State.abortRuns_lifeKept (s : State) (q : QNum) : s.LifeKept (s.abortRuns q) := by
  unfold State.abortRuns
  split
  · exact .trans (.setWeave (.refl s)) (State.pressDone_lifeKept _ _ _ _ _ _)
  · exact .refl s

/-! ### Loads and training commits that a reset stops (R742, R789) -/

theorem State.wearCheck_lifeKept (s : State) (g k : Nat) : s.LifeKept (s.wearCheck g k) := by
  unfold State.wearCheck
  dsimp only
  split
  · exact .refl s
  · split
    · exact s.queueMove_lifeKept g _ _
    · exact .refl s

theorem State.setBlock_lifeKept (s : State) (g k n : Nat) (x : BlockRec) : s.LifeKept (s.setBlock g k n x) :=
  .setNv (.refl s)

theorem State.eraseBlockAt_lifeKept (s : State) (g k n : Nat) : s.LifeKept (s.eraseBlockAt g k n) :=
  .trans (.setNv (.setNv (s.setBlock_lifeKept g k n _))) (State.wearCheck_lifeKept _ g k)

theorem State.haveErased_lifeKept (s : State) (g k : Nat) : s.LifeKept (s.haveErased g k) := by
  refine .ite ?_ (.refl s)
  split
  · exact s.eraseBlockAt_lifeKept g k _
  · exact .refl s

theorem State.takeBlock_lifeKept (s : State) (g k : Nat) : s.LifeKept (s.takeBlock g k).2 := by
  rw [State.takeBlock_eq]
  split
  · exact (s.haveErased_lifeKept g k).trans (State.setBlock_lifeKept _ _ _ _ _)
  · exact s.haveErased_lifeKept g k

theorem State.openBand_lifeKept (s : State) (g b : Nat) : s.LifeKept (s.openBand g b) := by
  refine .foldl (.refl s) fun t k => ?_
  have htaken := t.takeBlock_lifeKept g k
  split
  · next h =>
    rw [h] at htaken
    exact htaken.setNv
  · next h =>
    rw [h] at htaken
    exact htaken

theorem State.programRow_lifeKept (s : State) (g : Nat) (frames : Mem) : s.LifeKept (s.programRow g frames).2 := by
  unfold State.programRow
  split
  · exact .refl s
  · next r _ =>
    have hopen : s.LifeKept (if (s.bandOf g (r / 512)).used = 0 then s.openBand g (r / 512) else s) :=
      .ite (s.openBand_lifeKept g _) (.refl s)
    exact .count (.foldl (hopen.setNv) fun t _ => .setNv (.refl t))

theorem State.programFirst_lifeKept (s : State) (e n : Nat) (frames : Mem) : s.LifeKept (s.programFirst e n frames) := by
  refine .foldl (.refl s) fun t k => ?_
  split
  · next g _ =>
    have hrow := t.programRow_lifeKept g (Mem.slice frames (32 * k * leafBytes) (32 * leafBytes))
    split
    · next h =>
      rw [h] at hrow
      exact hrow.setLib
    · next h =>
      rw [h] at hrow
      exact hrow
  · exact .refl t

theorem State.dropAperture_lifeKept (s : State) (e : Nat) : s.LifeKept (s.dropAperture e) :=
  .foldl (.setWeave (.refl s)) fun t _ => .emit (.wrs (.count (.refl t)))

theorem State.dirtyBlock_lifeKept (s : State) (g k n : Nat) : s.LifeKept (s.dirtyBlock g k n) :=
  .setNv (s.setBlock_lifeKept g k n _)

theorem State.closeBands_lifeKept (s : State) : s.LifeKept s.closeBands := by
  refine .foldl (.refl s) fun t g => .foldl (.refl t) fun u b => .ite ?_ (.refl u)
  refine .setNv (.foldl (.foldl (.setNv (.refl u)) fun v d => ?_) fun v k => ?_)
  · exact .foldl (.refl v) fun w k => w.dirtyBlock_lifeKept g k _
  · exact v.dirtyBlock_lifeKept g k _

theorem State.clearLeaves_lifeKept (s : State) (p : Place) (n count : Nat) : s.LifeKept (s.clearLeaves p n count) := by
  cases p <;> exact .of_eq rfl rfl rfl rfl

theorem State.dropCopies_lifeKept (s : State) (f : PoolCopy → Bool) : s.LifeKept (s.dropCopies f) :=
  .setTiers (.foldl (.refl s) fun t _ => (t.clearLeaves_lifeKept _ _ _).setTiers)

theorem State.emptyEntry_lifeKept (s : State) (e : Nat) : s.LifeKept (s.emptyEntry e) := by
  refine State.LifeKept.trans ?_ (State.dropCopies_lifeKept _ _)
  refine State.LifeKept.trans ?_ (State.closeBands_lifeKept _)
  exact .trans (.setNv (.setLib (.refl s))) (State.dropAperture_lifeKept _ e)

theorem State.cleanLoad_lifeKept (s : State) (l : Load) : s.LifeKept (s.cleanLoad l) := by
  unfold State.cleanLoad
  split
  · exact s.emptyEntry_lifeKept _
  · exact .refl s

theorem State.stopLoad_lifeKept (s : State) (l : Load) : s.LifeKept (s.stopLoad l).2 := by
  unfold State.stopLoad
  split
  · exact .refl s
  · refine .trans (.trans ?_ (State.programFirst_lifeKept _ _ _ _)) (State.cleanLoad_lifeKept _ l)
    split
    · exact .refl s
    · exact .fresh (.refl s)

theorem State.stopLoads_lifeKept (s : State) (q : QNum) : s.LifeKept (s.stopLoads q) :=
  .foldl (.refl s) fun t l => .setNv (t.stopLoad_lifeKept l)

theorem State.trainDrop_lifeKept (s : State) (q : QNum) (t : Train) : s.LifeKept (s.trainDrop q t) := by
  unfold State.trainDrop
  refine .modQuire (.trans ?_ (State.emptyEntry_lifeKept _ _))
  split
  · exact .trans (.fresh (.refl s)) (State.programFirst_lifeKept _ _ _ _)
  · exact .refl s

theorem State.stopTrain_lifeKept (s : State) (q : QNum) : s.LifeKept (s.stopTrain q) := by
  unfold State.stopTrain
  split
  · exact .count (.wrs (.trans (.fresh (.refl s)) (State.trainDrop_lifeKept _ q _)))
  · exact .refl s

end Sys2Proof.Machine
end

section
/-! PROOFS. Every quire reset at once (06, R304, R351), under an LC_TRANSITION (19, R872). -/

namespace Sys2Proof.Machine

/-! ### A quire stops for its reset (R304, steps 1 and 2) -/

theorem State.stopQuire_lifeKept (s : State) (q : QNum) : s.LifeKept (s.stopQuire q) := by
  obtain ⟨bays, h⟩ := s.stopQuire_eq q
  rw [h]
  exact .of_eq rfl rfl rfl rfl

theorem State.sentAbandon_lifeKept (s : State) : s.LifeKept s.sentAbandon := by
  obtain ⟨x, h | h⟩ := s.sentAbandon_eq <;> rw [h] <;> exact .of_eq rfl rfl rfl rfl

theorem Key.qDisable_ne_lcTransition (q : QNum) : Key.qDisable q ≠ Key.lcTransition := by
  unfold Key.qDisable Key.lcTransition
  omega

/-- A Q_DISABLE that a reset overtakes ends with STATE (R262). -/
def State.overtakeDisable (s : State) (q : QNum) (d : Option Disabling) : State :=
  if d.isSome then (s.disableDone q DS.state 4 ((d.map Disabling.count).getD 0)).msixSend (8 * q.val + 6) else s

/-- What a quire gives up when it stops for its reset. -/
def State.endWork (s : State) (q : QNum) : State :=
  let t := ((((((s.endRuns q).stopQuire q).endLending q).overtakeDisable q (s.quire q).disabling).abortRuns q).stopLoads
    q).stopTrain q
  if q = 7 then t.sentAbandon else t

/-- A quire that is RESETTING: nothing of it is queued, started or held. -/
def Quire.resets (x : Quire) : Quire :=
  { x.dropFetched.cancelWake with
    state := .resetting, started := [], heldCq := [], disabling := none, hints := [] }

theorem State.stopForReset_eq (s : State) (q : QNum) :
    s.stopForReset q = if (s.quire q).state = .resetting then s else (s.endWork q).modQuire q Quire.resets := rfl

theorem State.overtakeDisable_lifeKept (s : State) (q : QNum) (d : Option Disabling) :
    s.LifeKept (s.overtakeDisable q d) :=
  .ite (.msixSend (.cmdDone (.refl s) (Key.qDisable_ne_lcTransition q))) (.refl s)

theorem State.endWork_lifeKept (s : State) (q : QNum) : s.LifeKept (s.endWork q) := by
  have hstopped : s.LifeKept (((s.endRuns q).stopQuire q).endLending q) :=
    .setWeave ((s.endRuns_lifeKept q).trans (State.stopQuire_lifeKept _ q))
  have hended := (((hstopped.trans (State.overtakeDisable_lifeKept _ q (s.quire q).disabling)).trans
    (State.abortRuns_lifeKept _ q)).trans (State.stopLoads_lifeKept _ q)).trans (State.stopTrain_lifeKept _ q)
  exact .ite (hended.trans (State.sentAbandon_lifeKept _)) hended

theorem State.stopForReset_lifeKept (s : State) (q : QNum) : s.LifeKept (s.stopForReset q) := by
  rw [State.stopForReset_eq]
  exact .ite (.refl s) (.modQuire (s.endWork_lifeKept q) fun _ _ => rfl)

theorem State.stopForReset_quire (s : State) (q : QNum) : ((s.stopForReset q).quire q).state = .resetting := by
  rw [State.stopForReset_eq]
  split
  · assumption
  · rw [State.modQuire_quire]
    rfl

/-- Every quire of the list stops. -/
theorem State.foldl_stopForReset_quire (l : List QNum) : ∀ (s : State) (q : QNum), q ∈ l →
    ((l.foldl State.stopForReset s).quire q).state = .resetting := by
  induction l with
  | nil => exact fun _ _ hq => absurd hq List.not_mem_nil
  | cons p l ih =>
    intro s q hq
    have hrest : (s.stopForReset p).LifeKept (l.foldl State.stopForReset (s.stopForReset p)) :=
      .foldl (.refl _) State.stopForReset_lifeKept
    obtain rfl | hq := List.mem_cons.1 hq
    · exact hrest.resetting q (s.stopForReset_quire q)
    · exact ih _ q hq

/-! ### The stitches of a quire are released (R351) -/

theorem State.writeCq_lifeKept (s : State) (q : QNum) (c : Completion) : s.LifeKept (s.writeCq q c) := by
  have hset : s.LifeKept (s.setQuire q { s.quire q with
      cqTail := ((s.quire q).cqTail + 1) % s.rd (Key.qCqSize q),
      phase := if ((s.quire q).cqTail + 1) % s.rd (Key.qCqSize q) = 0 then !(s.quire q).phase else (s.quire q).phase,
      ctrCompleted := (s.quire q).ctrCompleted + 1 }) := .setQuire (.refl s) id
  unfold State.writeCq
  refine .ite (.msixSend ?_) ?_ <;> exact .ite (.setSt (.emit (.ite hset.setTiers hset))) (.emit (.ite hset.setTiers hset))

theorem State.complete_lifeKept (s : State) (q : QNum) (e : Entry) (status detail result : Nat) :
    s.LifeKept (s.complete q e status detail result) :=
  .ite (.refl s) (.ite (.setQuire (.refl s) id) (s.writeCq_lifeKept q _))

theorem State.gateBays_lifeKept (s : State) (q : QNum) : s.LifeKept (s.gateBays q) := by
  obtain ⟨bays, power, h⟩ := s.gateBays_eq q
  rw [h]
  exact .of_eq rfl rfl rfl rfl

theorem State.tryRelease_lifeKept (s : State) (q : QNum) : s.LifeKept (s.tryRelease q) := by
  unfold State.tryRelease
  dsimp only
  split
  · have hset : s.LifeKept (s.setQuire q { s.quire q with pwr := .release }) := .setQuire (.refl s) id
    exact hset.trans (State.gateBays_lifeKept _ q)
  · exact .refl s

theorem State.settleQuire_lifeKept (s : State) (q : QNum) : s.LifeKept (s.settleQuire q) := by
  have hidle : s.LifeKept (if (s.quire q).state = .running ∧ (s.quire q).started = [] then
      s.setQuire q { s.quire q with state := .enabled } else s) := by
    split
    · next h => exact .setQuire (.refl s) fun hx => absurd (h.1.symm.trans hx) (by decide)
    · exact .refl s
  exact hidle.trans (State.tryRelease_lifeKept _ q)

theorem State.finish_lifeKept (s : State) (q : QNum) (e : Entry) (status detail result : Nat) :
    s.LifeKept (s.finish q e status detail result) :=
  .trans (.trans (.modQuire (.refl s)) (State.complete_lifeKept _ q e _ _ _)) (State.settleQuire_lifeKept _ q)

theorem State.countWait_lifeKept (s : State) (q : QNum) (o : Outcome) : s.LifeKept (s.countWait q o) := by
  cases o <;> exact .of_eq rfl rfl rfl rfl

theorem State.noteWait_lifeKept (s : State) (b : BayNum) : s.LifeKept (s.noteWait b) := by
  unfold State.noteWait
  split
  · split
    · exact .ite (s.modRun_lifeKept _ _ _) (.refl s)
    · exact .refl s
  · exact .refl s

theorem State.endWait_lifeKept (s : State) (h : Held) (o : Outcome) (count : Nat) : s.LifeKept (s.endWait h o count) := by
  have hcounted := s.countWait_lifeKept h.quire o
  unfold State.endWait
  dsimp only
  split
  · exact hcounted.modBay.trans (State.noteWait_lifeKept _ _)
  · split
    · exact hcounted.trans (State.finish_lifeKept _ _ _ _ _ _)
    · exact hcounted

theorem State.stageOne_lifeKept (s : State) (signals poisons aborts : List (Nat × Nat)) (n : Nat) :
    s.LifeKept (s.stageOne signals poisons aborts n) := by
  unfold State.stageOne
  split
  · exact .refl s
  · refine .foldl (.setSt ?_) fun t p => t.endWait_lifeKept p.1 p.2 _
    exact .ite (.refl s) (.ite (.count (.refl s)) (.count (.refl s)))

theorem State.releaseStitches_lifeKept (s : State) (q : QNum) (all : Bool) : s.LifeKept (s.releaseStitches q all) :=
  .setSt (.foldl (.setSt (.setSt (.refl s))) fun t n => t.stageOne_lifeKept _ _ _ n)

/-! ### A quire's allocation, handles and leaves go (R304, steps 3 and 4) -/

theorem State.defaultAlloc_lifeKept (s : State) (q : QNum) (all : Bool) : s.LifeKept (s.defaultAlloc q all) := .wrs (.refl s)

theorem State.zeroJob_lifeKept (s : State) (q : QNum) (run : Bool) (pieces : List (Place × Nat × Nat)) (purpose : ZeroFor) :
    s.LifeKept (s.zeroJob q run pieces purpose) := by
  have hcut : s.LifeKept (pieces.foldl (fun s p => s.cut p.1 p.2.1 p.2.2 Use.taken) s) :=
    .foldl (.refl s) fun t _ => .setTiers (.refl t)
  exact .ite hcut hcut.setTiers

theorem State.dropMbox_lifeKept (s : State) (i : Fin 9) : s.LifeKept (s.dropMbox i) := .of_eq rfl rfl rfl rfl

theorem State.releaseForReset_lifeKept (s : State) (q : QNum) (all : Bool) : s.LifeKept (s.releaseForReset q all) := by
  have halloc : s.LifeKept (((s.releaseStitches q all).defaultAlloc q all).dropHandles q) :=
    .foldl ((s.releaseStitches_lifeKept q all).trans (State.defaultAlloc_lifeKept _ q all)) fun t _ => .wrs (.refl t)
  have hqueues : s.LifeKept (((((s.releaseStitches q all).defaultAlloc q all).dropHandles q).dropMbox
      (Fin.castSucc q)).dropQueues q) := .setWeave (halloc.trans (State.dropMbox_lifeKept _ (Fin.castSucc q)))
  exact .trans (.modQuire hqueues.setTiers) (State.zeroJob_lifeKept _ q false _ _)

/-! ### Every quire at once (R220, R351) -/

theorem State.resetQuires_lifeKept (s : State) : s.LifeKept s.resetQuires :=
  .foldl (.foldl (.refl s) State.stopForReset_lifeKept) fun t q =>
    .ite (t.defaultAlloc_lifeKept q true) (t.releaseForReset_lifeKept q true)

theorem State.resetQuires_quire (s : State) (q : QNum) : (s.resetQuires.quire q).state = .resetting := by
  have hstopped : ((s.forQ State.stopForReset).quire q).state = .resetting :=
    State.foldl_stopForReset_quire allQ s q (by fin_cases q <;> decide)
  have hrest : (s.forQ State.stopForReset).LifeKept s.resetQuires :=
    .foldl (.refl _) fun t q => .ite (t.defaultAlloc_lifeKept q true) (t.releaseForReset_lifeKept q true)
  exact hrest.resetting q hstopped

end Sys2Proof.Machine
end

section
/-! PROOFS. The RMA scrub of the NV array (19, R872 steps 2 to 5). -/

namespace Sys2Proof.Machine

/-! ### The library (R872 step 2) -/

/-- `t` has the library of `s`. -/
structure State.EntriesKept (s t : State) : Prop where
  lib : t.nv.lib = s.nv.lib

theorem State.EntriesKept.refl (s : State) : s.EntriesKept s := ⟨rfl⟩

theorem State.EntriesKept.trans {s t u : State} (h : s.EntriesKept t) (h' : t.EntriesKept u) : s.EntriesKept u :=
  ⟨h'.lib.trans h.lib⟩

theorem State.EntriesKept.foldl {α : Type} {f : State → α → State} {l : List α} {s t : State} (h : s.EntriesKept t)
    (hf : ∀ (u : State) (a : α), u.EntriesKept (f u a)) : s.EntriesKept (l.foldl f t) :=
  List.foldlRecOn l f h fun u hu a _ => hu.trans (hf u a)

theorem State.EntriesKept.setNv {s t : State} (h : s.EntriesKept t) {n : Nv} (hlib : n.lib = t.nv.lib := by rfl) :
    s.EntriesKept (t.setNv n) := ⟨hlib.trans h.lib⟩

theorem State.wrs_entriesKept (s : State) (l : List (Nat × Nat)) : s.EntriesKept (s.wrs l) :=
  .foldl (.refl s) fun _ _ => ⟨rfl⟩

theorem State.aptRefuse_entriesKept (s : State) (key cause i : Nat) (o : Output) :
    s.EntriesKept (s.aptRefuse key cause i o) := ⟨((s.count key).wrs_entriesKept _).lib⟩

theorem State.dropAperture_entriesKept (s : State) (e : Nat) : s.EntriesKept (s.dropAperture e) :=
  .foldl ⟨rfl⟩ fun t _ => t.aptRefuse_entriesKept _ _ _ _

theorem State.dirtyBlock_entriesKept (s : State) (g k n : Nat) : s.EntriesKept (s.dirtyBlock g k n) := ⟨rfl⟩

theorem State.setBand_entriesKept (s : State) (g b : Nat) (x : Band) : s.EntriesKept (s.setBand g b x) := ⟨rfl⟩

theorem State.closeBands_entriesKept (s : State) : s.EntriesKept s.closeBands := by
  refine .foldl (.refl s) fun t g => .foldl (.refl t) fun u b => ?_
  split
  · refine State.EntriesKept.trans ?_ (State.setBand_entriesKept _ g b _)
    refine .foldl (.foldl (.setNv (.refl u)) fun v d => ?_) fun v k => ?_
    · exact .foldl (.refl v) fun w k => w.dirtyBlock_entriesKept g k _
    · exact v.dirtyBlock_entriesKept g k _
  · exact .refl u

theorem State.clearLeaves_entriesKept (s : State) (p : Place) (n count : Nat) : s.EntriesKept (s.clearLeaves p n count) := by
  cases p <;> exact ⟨rfl⟩

theorem State.dropCopies_entriesKept (s : State) (f : PoolCopy → Bool) : s.EntriesKept (s.dropCopies f) := by
  have hcleared : s.EntriesKept ((s.tiers.pool.filter f).foldl
      (fun s c => (s.clearLeaves .commons c.at_ 1).setXo .commons c.at_ false) s) :=
    .foldl (.refl s) fun t c => (t.clearLeaves_entriesKept .commons c.at_ 1).trans ⟨rfl⟩
  exact hcleared.trans ⟨rfl⟩

/-- An entry emptied keeps its generation alone (R762). -/
def State.vacant (s : State) (e : Nat) : LibEntry := { LibEntry.reset with generation := (s.lib e).generation }

theorem State.emptyEntry_entriesKept (s : State) (e : Nat) : (s.setLib e (s.vacant e)).EntriesKept (s.emptyEntry e) :=
  .trans (.trans (.trans (t := (s.setLib e (s.vacant e)).endWorker (.entry e)) ⟨rfl⟩ (State.dropAperture_entriesKept _ e))
    (State.closeBands_entriesKept _)) (State.dropCopies_entriesKept _ _)

theorem State.emptyEntry_lib {s : State} (h : Tab.rising 0 s.nv.lib = true) (e y : Nat) :
    (s.emptyEntry e).lib y = if y = e then s.vacant e else s.lib y := by
  rw [State.lib, (s.emptyEntry_entriesKept e).lib]
  exact State.setLib_lib h e y _

/-- Every entry of the list is emptied, and an empty one stays so. -/
theorem State.foldl_emptyEntry_empty (l : List Nat) : ∀ {s : State}, Tab.rising 0 s.nv.lib = true → ∀ y,
    y ∈ l ∨ (s.lib y).state = .empty → ((l.foldl State.emptyEntry s).lib y).state = .empty := by
  induction l with
  | nil => exact fun _ y hy => hy.resolve_left List.not_mem_nil
  | cons e l ih =>
    intro s h y hy
    refine ih ((s.emptyEntry_lifeKept e).lib h) y ?_
    rw [State.emptyEntry_lib h]
    by_cases hye : y = e
    · exact .inr (by rw [if_pos hye]; rfl)
    · rw [if_neg hye]
      exact hy.imp_left fun hmem => (List.mem_cons.1 hmem).resolve_left hye

/-! ### Keys and link masks (R872 step 5) -/

/-- `t` differs from `s` in values and in records of the parameter region. -/
structure State.RecordsOnly (s t : State) : Prop where
  sec : t.sec = s.sec
  nv : ∃ recs units, t.nv = s.nv.withRecords recs units
  cmds : t.dict.cmds = s.dict.cmds
  quires : t.quires = s.quires

theorem State.RecordsOnly.refl (s : State) : s.RecordsOnly s := ⟨rfl, ⟨_, _, rfl⟩, rfl, rfl⟩

theorem State.RecordsOnly.trans {s t u : State} (h : s.RecordsOnly t) (h' : t.RecordsOnly u) : s.RecordsOnly u := by
  obtain ⟨recs, units, hnv⟩ := h.nv
  obtain ⟨recs', units', hnv'⟩ := h'.nv
  exact ⟨h'.sec.trans h.sec, ⟨recs', units', by rw [hnv', hnv]; rfl⟩, h'.cmds.trans h.cmds, h'.quires.trans h.quires⟩

theorem State.RecordsOnly.wr {s t : State} (h : s.RecordsOnly t) {k v : Nat} : s.RecordsOnly (t.wr k v) :=
  h.trans ⟨rfl, ⟨_, _, rfl⟩, rfl, rfl⟩

theorem State.RecordsOnly.setSec {s t : State} (h : s.RecordsOnly t) (x : Security) :
    (s.setSec x).RecordsOnly (t.setSec x) := ⟨rfl, h.nv, h.cmds, h.quires⟩

theorem State.RecordsOnly.foldl {α : Type} {f : State → α → State} (hf : ∀ (u : State) (a : α), u.RecordsOnly (f u a))
    (l : List α) (s : State) : s.RecordsOnly (l.foldl f s) :=
  List.foldlRecOn l f (.refl s) fun u hu a _ => hu.trans (hf u a)

theorem State.paramRecord_recordsOnly (s : State) (k v : Nat) : s.RecordsOnly (s.paramRecord k v) := by
  have hframe := (s.paramRecord_changesOnly k v).frame
  exact ⟨by rw [hframe], s.paramRecord_nv k v, by rw [hframe], by rw [hframe]⟩

theorem State.wrStored_recordsOnly (s : State) (k v : Nat) : s.RecordsOnly (s.wrStored k v) := by
  unfold State.wrStored
  split
  · exact .refl s
  · exact (s.paramRecord_recordsOnly k v).wr

/-- The class under sub `n` is written empty. -/
def State.emptyClass (s : State) (n : Nat) : State :=
  (if (Tab.find s.sec.classKeys n).isSome then s.paramRecord (Key.classKey n) 0 else s).wr (Key.classId n) 0

theorem State.emptyClass_recordsOnly (s : State) (n : Nat) : s.RecordsOnly (s.emptyClass n) := by
  refine State.RecordsOnly.wr ?_
  split
  · exact s.paramRecord_recordsOnly _ _
  · exact .refl s

def State.emptyClasses (s : State) : State := [1, 2, 3, 4].foldl State.emptyClass s

def State.emptyMasks (s : State) : State := allE.foldl (fun s e => s.wrStored (Key.libLinkMask (e + 1)) 0) s

theorem State.emptyKeys_eq (s : State) :
    s.emptyKeys = (s.emptyClasses.setSec { s.emptyClasses.sec with classKeys := [] }).emptyMasks := rfl

theorem State.emptyClasses_recordsOnly (s : State) : s.RecordsOnly s.emptyClasses := .foldl State.emptyClass_recordsOnly _ s

theorem State.emptyMasks_recordsOnly (s : State) : s.RecordsOnly s.emptyMasks :=
  .foldl (fun u _ => u.wrStored_recordsOnly _ _) _ s

/-- The class keys go; beside them values and records change. -/
theorem State.emptyKeys_recordsOnly (s : State) : (s.setSec { s.sec with classKeys := [] }).RecordsOnly s.emptyKeys := by
  have hclasses := s.emptyClasses_recordsOnly
  have hmasks := (s.emptyClasses.setSec { s.emptyClasses.sec with classKeys := [] }).emptyMasks_recordsOnly
  rw [← State.emptyKeys_eq, hclasses.sec] at hmasks
  exact (hclasses.setSec _).trans hmasks

/-! ### Steps 2 to 5 together -/

/-- What the scrub's NV steps leave: an empty library without sessions and loads, no class keys, and the run under way. -/
structure State.Scrubs (s t : State) : Prop where
  lcHeld : t.sec.lcHeld = s.sec.lcHeld
  classKeys : t.sec.classKeys = []
  otp : t.nv.otp = s.nv.otp
  boot : t.nv.boot = s.nv.boot
  empty : ∀ e, e < 64 → (t.lib e).state = .empty
  sessions : t.nv.sessions = []
  loads : t.nv.loads = []
  cmd : t.cmd Key.lcTransition = s.cmd Key.lcTransition
  resetting : ∀ q, (s.quire q).state = .resetting → (t.quire q).state = .resetting

/-- The entries alone, before the sessions go. -/
def State.emptyEntries (s : State) : State := allE.foldl (fun s e => s.emptyEntry e) s

theorem State.emptyEntries_lifeKept (s : State) : s.LifeKept s.emptyEntries := .foldl (.refl s) State.emptyEntry_lifeKept

theorem State.emptyEntries_empty {s : State} (h : Tab.rising 0 s.nv.lib = true) {e : Nat} (he : e < 64) :
    (s.emptyEntries.lib e).state = .empty := State.foldl_emptyEntry_empty allE h e (.inl (List.mem_range.2 he))

theorem State.scrubNv_eq (s : State) : s.scrubNv 0 = s.emptyLibrary.eraseMainAll.emptyKeys.scrubbed 5 := by
  simp only [State.scrubNv, show (0 : Nat) < 3 by decide, show (0 : Nat) < 4 by decide, show (0 : Nat) < 5 by decide, if_true]

theorem State.emptyLibrary_eq (s : State) : s.emptyLibrary =
    s.emptyEntries.setNv { s.emptyEntries.nv with sessions := [], loads := [], moves := [] } := by
  unfold State.emptyLibrary State.emptyEntries
  rfl

theorem State.scrubNv_scrubs {s : State} (h : Tab.rising 0 s.nv.lib = true) : s.Scrubs (s.scrubNv 0) := by
  have hentries := s.emptyEntries_lifeKept
  have hempty : ∀ e, e < 64 → (s.emptyEntries.lib e).state = .empty := fun e => State.emptyEntries_empty h
  have hkeys := s.emptyLibrary.eraseMainAll.emptyKeys_recordsOnly
  rw [State.scrubNv_eq]
  rw [State.emptyLibrary_eq] at hkeys ⊢
  generalize s.emptyEntries = u at hentries hempty hkeys ⊢
  generalize State.emptyKeys _ = t at hkeys ⊢
  obtain ⟨hsec, ⟨recs, units, hnv⟩, hcmds, hquires⟩ := hkeys
  have hlcHeld : t.sec.lcHeld = u.sec.lcHeld := by rw [hsec]; rfl
  have hlib : t.nv.lib = u.nv.lib := by rw [hnv]; rfl
  have hotp : t.nv.otp = u.nv.otp := by rw [hnv]; rfl
  have hboot : t.nv.boot = u.nv.boot := by rw [hnv]; rfl
  have hcmd : t.cmd Key.lcTransition = u.cmd Key.lcTransition := by rw [State.cmd, hcmds]; rfl
  exact {
    lcHeld := hlcHeld.trans (congrArg Security.lcHeld hentries.sec)
    classKeys := by rw [State.scrubbed, hsec]; rfl
    otp := hotp.trans hentries.otp
    boot := hboot.trans hentries.boot
    empty := fun e he => (congrArg (fun l => (Tab.get l LibEntry.reset e).state) hlib).trans (hempty e he)
    sessions := by rw [State.scrubbed, hnv]; rfl
    loads := by rw [State.scrubbed, hnv]; rfl
    cmd := hcmd.trans hentries.cmd
    resetting := fun q hq => (congrArg Quire.state (State.quire_of_quires hquires q)).trans (hentries.resetting q hq) }

end Sys2Proof.Machine
end

section
/-! PROOFS. LC_TRANSITION (19, R868 to R872), and the statement of class keys, thermometers, lifecycle and debug. -/

namespace Sys2Proof.Machine

/-! ### The lifecycle byte (R866) -/

section
variable {s t : State}

theorem lcRow_of_bit_zero (h : t.otpByte 0x160 = s.otpByte 0x160 ||| 1) (hrow : s.lcRow = lcBlank) :
    t.lcRow = lcProvisioned := by
  simp only [State.lcRow, bit_eq_testBit, lcBlank, ite_eq_iff, OfNat.ofNat_ne_zero, one_ne_zero, and_false, false_or,
    and_true] at hrow
  obtain ⟨h2, h1, -⟩ := hrow
  simp [State.lcRow, bit_eq_testBit, h, Nat.testBit_or, h2, h1, lcProvisioned, show (1 : Nat).testBit 2 = false by decide,
    show (1 : Nat).testBit 1 = false by decide]

theorem lcRow_of_bit_one (h : t.otpByte 0x160 = s.otpByte 0x160 ||| 2) (hrow : s.lcRow = lcProvisioned) :
    t.lcRow = lcField := by
  simp only [State.lcRow, bit_eq_testBit, lcProvisioned, ite_eq_iff, OfNat.ofNat_ne_one, zero_ne_one, and_false, false_or,
    and_true, or_false] at hrow
  obtain ⟨h2, -, -⟩ := hrow
  simp [State.lcRow, bit_eq_testBit, h, Nat.testBit_or, h2, lcField, show (2 : Nat).testBit 2 = false by decide,
    show (2 : Nat).testBit 1 = true by decide]

end

/-! ### The seed (R871) -/

/-- `s` with another OTP row. -/
def State.setOtp (s : State) (m : Mem) : State := s.setNv { s.nv with otp := m }

theorem State.setOtp_otpOr (s : State) (m : Mem) (a v : Nat) :
    (s.setOtp m).otpOr a v = s.setOtp ((s.setOtp m).otpOr a v).nv.otp := rfl

/-- The first `n` words of the seed programmed. -/
def State.seedWords (s : State) (entropy n : Nat) : State :=
  (List.range n).foldl (fun s i => s.otpOr (0x60 + 8 * i) (entropy / 2 ^ (64 * i) % 2 ^ 64)) s

theorem State.seedWords_succ (s : State) (entropy n : Nat) : s.seedWords entropy (n + 1) =
    (s.seedWords entropy n).otpOr (0x60 + 8 * n) (entropy / 2 ^ (64 * n) % 2 ^ 64) := by
  rw [State.seedWords, List.range_succ, List.foldl_append]
  rfl

theorem State.seedWords_eq_setOtp (s : State) (entropy n : Nat) : ∃ m, s.seedWords entropy n = s.setOtp m := by
  induction n with
  | zero => exact ⟨s.nv.otp, rfl⟩
  | succ n ih =>
    obtain ⟨m, hm⟩ := ih
    rw [State.seedWords_succ, hm]
    exact ⟨_, rfl⟩

section
variable {s : State} (h : Mem.wf s.nv.otp = true) (entropy : Nat)
include h

theorem State.seedWords_wf (n : Nat) : Mem.wf (s.seedWords entropy n).nv.otp = true := by
  induction n with
  | zero => exact h
  | succ n ih =>
    rw [State.seedWords_succ]
    exact State.otpOr_wf ih _ _

/-- A word that is not programmed yet, and what lies behind the words. -/
theorem State.seedWords_above (n a k : Nat) (ha : 0x60 + 8 * n ≤ a) :
    Mem.readLe (s.seedWords entropy n).nv.otp a k = Mem.readLe s.nv.otp a k := by
  induction n with
  | zero => rfl
  | succ n ih =>
    rw [State.seedWords_succ, State.otpOr_field_disjoint (State.seedWords_wf h entropy n) _ _ _ _ (by omega)]
    exact ih (by omega)

theorem State.seedWords_field (n i : Nat) (hi : i < n) : Mem.readLe (s.seedWords entropy n).nv.otp (0x60 + 8 * i) 8 =
    (Mem.readLe s.nv.otp (0x60 + 8 * i) 8 ||| entropy / 2 ^ (64 * i) % 2 ^ 64) := by
  induction n with
  | zero => omega
  | succ n ih =>
    have hwf := State.seedWords_wf h entropy n
    rw [State.seedWords_succ]
    obtain hlt | rfl := Nat.lt_succ_iff_lt_or_eq.1 hi
    · rw [State.otpOr_field_disjoint hwf _ _ _ _ (by omega)]
      exact ih hlt
    · rw [State.otpOr_field hwf _ (Nat.mod_lt _ (by decide)), State.seedWords_above h entropy i _ _ le_rfl]

end

/-- The row of BLANK to PROVISIONED: the seed and LIFECYCLE bit 0. -/
theorem State.otpOr_programSeed {s : State} (h : Mem.wf s.nv.otp = true) (entropy : Nat) :
    ∃ m, (s.programSeed entropy).otpOr 0x160 1 = s.setOtp m ∧ (s.setOtp m).otpByte 0x160 = s.otpByte 0x160 ||| 1 ∧
      ∀ i, i < 4 → Mem.readLe m (0x60 + 8 * i) 8 =
        (Mem.readLe s.nv.otp (0x60 + 8 * i) 8 ||| entropy / 2 ^ (64 * i) % 2 ^ 64) := by
  have hwf := State.seedWords_wf h entropy 4
  have hlife : (s.seedWords entropy 4).otpByte 0x160 = s.otpByte 0x160 := by
    rw [State.otpByte, State.otpByte, Mem.read_eq_readLe _ _ 0, Mem.read_eq_readLe _ _ 0,
      State.seedWords_above h entropy 4 _ _ (by decide)]
  have hfield := State.seedWords_field h entropy 4
  obtain ⟨m, hm⟩ := s.seedWords_eq_setOtp entropy 4
  rw [show s.programSeed entropy = s.seedWords entropy 4 from rfl]
  rw [hm] at hwf hlife hfield ⊢
  refine ⟨_, s.setOtp_otpOr m 0x160 1, ?_, fun i hi => ?_⟩
  · exact (State.otpOr_otpByte hwf 0x160 (by decide)).trans (by rw [hlife])
  · exact (State.otpOr_field_disjoint hwf 0x160 1 _ _ (by omega)).trans (hfield i hi)

/-- The row of PROVISIONED to FIELD: LIFECYCLE bit 1. -/
theorem State.otpOr_lifecycle_field {s : State} (h : Mem.wf s.nv.otp = true) :
    ∃ m, s.otpOr 0x160 2 = s.setOtp m ∧ (s.setOtp m).otpByte 0x160 = s.otpByte 0x160 ||| 2 :=
  ⟨(s.otpOr 0x160 2).nv.otp, rfl, State.otpOr_otpByte h 0x160 (by decide)⟩

/-! ### The command (R868 to R870) -/

/-- LC_STATE stays what it is while a run lasts (R870). -/
def State.holdLc (s : State) (lc : Nat) : State := s.setSec { s.sec with lcHeld := some lc }

/-- The run to RMA under way: LIFECYCLE bit 2, and LC_STATE still the state it leaves (R870). -/
def State.startRma (s : State) : State := ((s.cmdStart Key.lcTransition).otpOr 0x160 4).holdLc s.lc

def State.queueScrub (s : State) : State :=
  s.setTiers { s.tiers with jobs := s.tiers.jobs ++ [{ extents := [], purpose := .scrub }] }

/-- The transition to RMA up to its zeroing job (R872). -/
def State.enterRma (s : State) : State := (s.startRma.resetQuires.scrubNv 0).queueScrub

/-- What a transition to the target does. -/
def State.enterLc (s : State) (target entropy : Nat) : State :=
  if target = lcProvisioned then ((s.programSeed entropy).otpOr 0x160 1).endTransition s.lc target
  else if target = lcField then (s.otpOr 0x160 2).endTransition s.lc target
  else s.enterRma

theorem State.enterLc_provisioned (s : State) (entropy : Nat) : s.enterLc 1 entropy =
    ((s.programSeed entropy).otpOr 0x160 1).endTransition s.lc lcProvisioned := if_pos rfl

theorem State.enterLc_field (s : State) (entropy : Nat) : s.enterLc 2 entropy =
    (s.otpOr 0x160 2).endTransition s.lc lcField := (if_neg (by decide)).trans (if_pos rfl)

theorem State.enterLc_rma (s : State) (entropy : Nat) : s.enterLc 3 entropy = s.enterRma :=
  (if_neg (by decide)).trans (if_neg (by decide))

/-! ### The rows of the table of R868 -/

theorem State.transitionOk_provisioned {s : State} (hlc : s.lc = lcBlank) (hserial : s.serial ≠ 0)
    (hsku : s.otpByte 0x55 ≠ 0) : s.transitionOk 1 = true := by
  unfold State.transitionOk
  rw [hlc]
  simp [lcBlank, hserial, hsku]

theorem State.transitionOk_field {s : State} (hlc : s.lc = lcProvisioned) (hroot : s.rootReady = true) :
    s.transitionOk 2 = true := by
  unfold State.transitionOk
  rw [hlc]
  exact hroot

theorem State.transitionOk_rma {s : State} (hlc : s.lc = lcProvisioned ∨ s.lc = lcField) : s.transitionOk 3 = true := by
  unfold State.transitionOk
  obtain hlc | hlc := hlc <;> rw [hlc] <;> rfl

/-! ### A transition taken -/

/-- A right CONFIRM, clear reserved bytes and a row of the table whose conditions hold (R868, R869). -/
theorem lcTransitionWrite_of_taken {factory : Bool} {arg : List Byte} {s : State} (env : Env)
    (hrole : factory = true ∨ fieldLe arg 0 1 ≠ lcProvisioned) (hconfirm : fieldLe arg 4 4 = 0x4C437019)
    (hok : s.transitionOk (fieldLe arg 0 1) = true) (hclear : fieldLe arg 1 3 = 0)
    (hidle : s.cmdRunning Key.lcTransition = false) :
    lcTransitionWrite factory arg env s = (DS.ok, s.enterLc (fieldLe arg 0 1) env.entropy) := by
  have hright : ¬ (¬ factory ∧ s.lc = lcBlank ∧ fieldLe arg 0 1 = lcProvisioned) := fun ⟨hhost, _, htarget⟩ =>
    hrole.elim hhost (· htarget)
  unfold lcTransitionWrite State.enterLc State.enterRma State.startRma State.queueScrub State.holdLc State.setSec
  dsimp only
  rw [if_neg hright, if_neg (not_not.2 hconfirm), if_neg (not_not.2 hok), if_neg (not_not.2 hclear),
    s.ifIdle_of_idle _ _ hidle]

section
variable {s : State} {role : Role} {arg : List Byte} (hs : Serving s)
  (hallowed : Allowed s role Key.lcTransition arg.length) (hconfirm : fieldLe arg 4 4 = 0x4C437019)
  (hclear : fieldLe arg 1 3 = 0) (hidle : s.cmdRunning Key.lcTransition = false)
include hs hallowed hconfirm hclear hidle

theorem exec_lcToProvisioned_of_taken (env : Env) (htarget : fieldLe arg 0 1 = 1) (hfactory : isFactory role = true)
    (hok : s.transitionOk 1 = true) : exec (.lcToProvisioned role arg env) s =
      .next ((((s.programSeed env.entropy).otpOr 0x160 1).endTransition s.lc lcProvisioned).answer DS.ok) := by
  rw [← htarget] at hok
  have hwrite := lcTransitionWrite_of_taken env (.inl hfactory) hconfirm hok hclear hidle
  rw [exec_lcToProvisioned role env s htarget, dictRequest_lcTransition hs hallowed hwrite (by decide), htarget,
    State.enterLc_provisioned]

theorem exec_lcToField_of_taken (htarget : fieldLe arg 0 1 = 2) (hok : s.transitionOk 2 = true) :
    exec (.lcToField role arg) s = .next (((s.otpOr 0x160 2).endTransition s.lc lcField).answer DS.ok) := by
  have hnew : fieldLe arg 0 1 ≠ lcProvisioned := by rw [htarget]; decide
  rw [← htarget] at hok
  have hwrite := lcTransitionWrite_of_taken (factory := isFactory role) {} (.inr hnew) hconfirm hok hclear hidle
  rw [exec_lcToField role s htarget, dictRequest_lcTransition hs hallowed hwrite (by decide), htarget,
    State.enterLc_field]

theorem exec_lcToRma_of_taken (htarget : fieldLe arg 0 1 = 3) (hok : s.transitionOk 3 = true) :
    exec (.lcToRma role arg) s = .next (s.enterRma.answer DS.ok) := by
  have hnew : fieldLe arg 0 1 ≠ lcProvisioned := by rw [htarget]; decide
  rw [← htarget] at hok
  have hwrite := lcTransitionWrite_of_taken (factory := isFactory role) {} (.inr hnew) hconfirm hok hclear hidle
  rw [exec_lcToRma role s htarget, dictRequest_lcTransition hs hallowed hwrite (by decide), htarget, State.enterLc_rma]

end

/-! ### A transition that ends at once (R870, R871) -/

@[simp] theorem State.answer_lc (s : State) (st : Nat) : (s.answer st).lc = s.lc := rfl

@[simp] theorem State.answer_otpByte (s : State) (st a : Nat) : (s.answer st).otpByte a = s.otpByte a := rfl

@[simp] theorem State.answer_lib (s : State) (st e : Nat) : (s.answer st).lib e = s.lib e := rfl

theorem lc_of_unheld {s : State} (h : s.sec.lcHeld = none) : s.lc = s.lcRow := by rw [State.lc, h, Option.getD_none]

theorem lc_of_held {s : State} {lc : Nat} (h : s.sec.lcHeld = some lc) : s.lc = lc := by
  rw [State.lc, h, Option.getD_some]

theorem State.endTransition_nv (s : State) (old new : Nat) : (s.endTransition old new).nv =
    { s.nv with boot := { s.nv.boot with resetDue := some LR.deviceReset } } := rfl

theorem State.endTransition_otpByte (s : State) (old new a : Nat) : (s.endTransition old new).otpByte a = s.otpByte a := by
  rw [State.otpByte, State.endTransition_nv, State.otpByte]

theorem State.endTransition_lc (s : State) (old new : Nat) : (s.endTransition old new).lc = s.lcRow := by
  rw [lc_of_unheld (s := s.endTransition old new) rfl, State.lcRow, State.endTransition_otpByte, State.lcRow]

theorem State.endTransition_run (s : State) (old new : Nat) :
    ((s.endTransition old new).cmd Key.lcTransition).card = natLe 1 old ++ natLe 1 new ∧
      ((s.endTransition old new).cmd Key.lcTransition).result = DS.ok := by
  have hcmd := State.cmdDone_cmd (s.setSec { s.sec with lcHeld := none }) Key.lcTransition DS.ok
    (natLe 1 old ++ natLe 1 new)
  exact ⟨congrArg CmdBlock.card hcmd, congrArg CmdBlock.result hcmd⟩

theorem State.endTransition_frame (s : State) (old new : Nat) : (s.endTransition old new).quires = s.quires ∧
    (s.endTransition old new).tiers = s.tiers ∧ (s.endTransition old new).out = s.out := ⟨rfl, rfl, rfl⟩

/-- `t` is `s` after a transition's end, in the words of the clause. -/
def State.TransitionEnds (s t : State) (old new : Nat) : Prop :=
  t.lc = new ∧ t.nv.boot.resetDue = some LR.deviceReset ∧
    (t.cmd Key.lcTransition).card = natLe 1 old ++ natLe 1 new ∧ (t.cmd Key.lcTransition).result = DS.ok ∧
    t.nv.lib = s.nv.lib ∧ t.quires = s.quires ∧ t.tiers = s.tiers ∧ t.out = s.out ++ [.status DS.ok]

theorem State.endTransition_ends (s : State) (m : Mem) {old new : Nat} (hrow : (s.setOtp m).lcRow = new) :
    s.TransitionEnds (((s.setOtp m).endTransition old new).answer DS.ok) old new := by
  obtain ⟨hcard, hresult⟩ := State.endTransition_run (s.setOtp m) old new
  obtain ⟨hquires, htiers, hout⟩ := State.endTransition_frame (s.setOtp m) old new
  rw [State.TransitionEnds, State.answer_lc, State.answer_nv, State.answer_cmd, State.answer_quires, State.answer_tiers,
    State.answer_out, hout]
  exact ⟨(State.endTransition_lc _ _ _).trans hrow, rfl, hcard, hresult, rfl, hquires, htiers, rfl⟩

/-- The OTP row of the state that the status goes out of. -/
theorem State.endTransition_answer_otpByte (s : State) (old new a : Nat) :
    ((s.endTransition old new).answer DS.ok).otpByte a = s.otpByte a := by
  rw [State.answer_otpByte, State.endTransition_otpByte]

/-! ### The transition to RMA (R872) -/

theorem State.startRma_otpByte {s : State} (h : Mem.wf s.nv.otp = true) :
    s.startRma.otpByte 0x160 = s.otpByte 0x160 ||| 4 := State.otpOr_otpByte (s := s) h 0x160 (by decide)

theorem State.startRma_cmd (s : State) : (s.startRma.cmd Key.lcTransition).state = .running := by
  have hcmd : s.startRma.cmd Key.lcTransition = (s.cmdStart Key.lcTransition).cmd Key.lcTransition := rfl
  rw [hcmd]
  simp [State.cmdStart, State.setCmd, State.cmd, Tab.get, Tab.set, CmdBlock.never, Tab.find_put_self]

/-- What the run to RMA leaves before its zeroing job: the library, the keys, the sessions and the loads gone, every quire in
its reset. -/
theorem State.enterRma_scrubs {s : State} (h : Tab.rising 0 s.nv.lib = true) :
    s.startRma.resetQuires.Scrubs s.enterRma ∧ ∃ j ∈ s.enterRma.tiers.jobs, j.purpose = .scrub := by
  have hlib : Tab.rising 0 s.startRma.resetQuires.nv.lib = true := s.startRma.resetQuires_lifeKept.lib h
  have hscrubs := State.scrubNv_scrubs hlib
  rw [State.enterRma]
  generalize s.startRma.resetQuires.scrubNv 0 = t at hscrubs ⊢
  obtain ⟨h1, h2, h3, h4, h5, h6, h7, h8, h9⟩ := hscrubs
  exact ⟨⟨h1, h2, h3, h4, h5, h6, h7, h8, h9⟩, _, List.mem_append_right _ (List.mem_singleton_self _), rfl⟩

/-- R868 to R872, a transition at a time. -/
theorem lifecycleMovesClause : LifecycleMovesClause := by
  intro s role arg env hs hinv hallowed hunheld hidle hconfirm hclear
  obtain ⟨-, hmems, htabs⟩ := hinv
  have hotp := otp_wf_of_memsWf hmems
  refine ⟨fun htarget hfactory hlc hserial hsku => ?provisioned, fun htarget hlc hroot => ?field,
    fun htarget hlc => ?rma⟩
  case provisioned =>
    obtain ⟨m, hrow, hlife, hseed⟩ := State.otpOr_programSeed hotp env.entropy
    have hnew := lcRow_of_bit_zero hlife ((lc_of_unheld hunheld).symm.trans hlc)
    rw [exec_lcToProvisioned_of_taken hs hallowed hconfirm hclear hidle env htarget hfactory
      (State.transitionOk_provisioned hlc hserial hsku), hrow, hlc]
    exact ⟨_, rfl, (State.endTransition_answer_otpByte _ _ _ _).trans hlife, s.endTransition_ends m hnew, hseed⟩
  case field =>
    obtain ⟨m, hrow, hlife⟩ := State.otpOr_lifecycle_field hotp
    have hnew := lcRow_of_bit_one hlife ((lc_of_unheld hunheld).symm.trans hlc)
    rw [exec_lcToField_of_taken hs hallowed hconfirm hclear hidle htarget (State.transitionOk_field hlc hroot),
      hrow, hlc]
    exact ⟨_, rfl, (State.endTransition_answer_otpByte _ _ _ _).trans hlife, s.endTransition_ends m hnew⟩
  case rma =>
    obtain ⟨hscrubs, hjob⟩ := State.enterRma_scrubs (rising_lib_of_tabsRising htabs)
    have hreset := s.startRma.resetQuires_lifeKept
    have hheld : s.enterRma.sec.lcHeld = some s.lc := hscrubs.lcHeld.trans (congrArg Security.lcHeld hreset.sec)
    have hrow : s.enterRma.nv.otp = s.startRma.nv.otp := hscrubs.otp.trans hreset.otp
    have hrun : s.enterRma.cmd Key.lcTransition = s.startRma.cmd Key.lcTransition := hscrubs.cmd.trans hreset.cmd
    rw [exec_lcToRma_of_taken hs hallowed hconfirm hclear hidle htarget (State.transitionOk_rma hlc)]
    refine ⟨_, rfl, ?_⟩
    simp only [State.answer_otpByte, State.answer_lc, State.answer_cmd, State.answer_lib, State.answer_sec,
      State.answer_nv, State.answer_quire, State.answer_tiers]
    refine ⟨?_, lc_of_held hheld, ?_, hscrubs.empty, hscrubs.classKeys, hscrubs.sessions, hscrubs.loads,
      fun q => hscrubs.resetting q (s.startRma.resetQuires_quire q), hjob, ?_⟩
    · rw [State.otpByte, hrow]
      exact State.startRma_otpByte hotp
    · rw [hrun]
      exact s.startRma_cmd
    · rw [hscrubs.boot, hreset.boot]
      rfl

/-- Settles O51, clause by clause. -/
theorem keysAndDebug : Obligations.KeysAndDebug :=
  ⟨classKeysAndThermometersClause, lifecycleMovesClause, debugUnlocksClause⟩

end Sys2Proof.Machine
end

section
/-! PROOFS. A write of a dictionary entry that the always-on domain answers (03, R131), and ALERT_CLEAR, WDT_SERVICE and
WDT_PERIOD_MS (20). -/

namespace Sys2Proof.Machine

/-! ### A write that the always-on domain answers (R131) -/

/-- A write that passes R929 at an entry of response class hot-rw is served at its arrival. -/
theorem State.intake_of_hotRw {s : State} {role : Role} {idx sub : Nat} {data : List Byte} {c : Card} (hs : Serving s)
    (hshape : s.shapeFail (some role) true idx sub data.length = none) (hcard : cardOf s.sku idx sub = some c)
    (hresp : c.resp = .hotRw) :
    s.intake (some role) 1 idx sub data = (.final (serveWrite c (writeOf role idx sub data) {} false s).1 [],
      (serveWrite c (writeOf role idx sub data) {} false s).2) := by
  obtain ⟨-, -, hboot, -, -, hcold, -⟩ := hs
  have hwrite : bit 1 0 = true := by decide
  have hview : bit 1 1 = false := by decide
  have hhot : s.isHot c true idx sub = true := by simp [State.isHot, hresp, hboot, State.writeHeld, hcold]
  have hrequest : writeOf role idx sub data =
      { role := role, write := true, view := false, idx := idx, sub := sub, data := data } := rfl
  simp [State.intake, hwrite, hview, hshape, hcard, hhot, ← hrequest, serve_writeOf]

/-- Such a write answers what `serveWrite` answers. -/
theorem dictRequest_of_hotRw {s t : State} {role : Role} {idx sub st : Nat} {data : List Byte} {env : Env} {c : Card}
    (hs : Serving s) (hshape : s.shapeFail (some role) true idx sub data.length = none)
    (hcard : cardOf s.sku idx sub = some c) (hresp : c.resp = .hotRw)
    (hserve : serveWrite c (writeOf role idx sub data) {} false s = (st, t)) :
    dictRequest role idx sub data env s = t.answer st := by
  rw [dictRequest, if_neg (by simp [(s.attends_of_serving hs).dictUp]), State.intake_of_hotRw hs hshape hcard hresp,
    hserve]

/-- No COMMIT lies above the power set and below the quires' blocks. -/
theorem setOfCommit_high (idx : Nat) (h : 0x1600 ≤ idx ∧ idx < 0x2000) : setOfCommit idx = none := by
  rw [setOfCommit, if_neg (by omega), if_neg (by omega), if_neg (by omega)]

theorem serveOp_high (c : Card) (r : Request) (env : Env) (viaI3c : Bool) (s : State)
    (hidx : 0x1600 ≤ r.idx ∧ r.idx < 0x2000) (hcard : cardOf s.sku r.idx r.sub = some c) (hacc : c.access.isRs = false) :
    serveOp c r env viaI3c s = serveHigh c r env s := by
  unfold serveOp
  rw [setOfCommit_high _ hidx, setOfMember_of_not_rs _ _ _ c hcard hacc]
  dsimp only
  rw [if_neg (by omega), if_neg (by omega), if_neg (by omega)]

/-! ### The entries' cards (R922, R923) -/

def wdtServiceCard : Card := ⟨.abs, 0x1A01, 0x1A01, 0, 0, .uint 4, .wo, .none, .h, .a, .hotRw, 0⟩

def wdtPeriodCard : Card := ⟨.abs, 0x1A02, 0x1A02, 1, 1, .uint 4, .rw, .all, .h, .a, .hotRw, 0⟩

def alertClearCard : Card := ⟨.abs, 0x1C02, 0x1C02, 0, 0, .bits32, .wo, .none, .h, .a, .hotRw, 0⟩

/-- The cards of WDT_SERVICE, WDT_PERIOD_MS and ALERT_CLEAR: response class hot-rw. -/
def alertCards : List Card := [wdtServiceCard, wdtPeriodCard, alertClearCard]

theorem cardOf_alertCard (sku : Sku) : ∀ c ∈ alertCards, cardOf sku c.ixLo c.subLo = some c := by
  cases sku <;> decide

theorem alertCards_place : ∀ c ∈ alertCards, 0x1600 ≤ c.ixLo ∧ c.ixLo < 0x2000 := by decide

theorem alertCards_shape : ∀ c ∈ alertCards, c.resp = .hotRw ∧ c.access.isRs = false ∧ ∀ data, badText c data = false := by
  simp [alertCards, wdtServiceCard, wdtPeriodCard, alertClearCard, Access.isRs, badText]

/-- The locks of COLOPHON_TAG, PROFILE_SWITCH and DEBUG_UNLOCK lie below (R213, R245, R892). -/
theorem State.locks_high (s : State) (idx : Nat) (h : 0x1600 ≤ idx) : s.locks idx = false := by
  have hne : idx ≠ 0x1080 ∧ idx ≠ 0x1201 ∧ idx ≠ 0x110E := by omega
  simp [State.locks, hne]

/-- A write of one of the entries answers what `serveHigh` answers. -/
theorem dictRequest_alertCard {s t : State} {role : Role} {c : Card} {st : Nat} {val : List Byte} (hc : c ∈ alertCards)
    (hs : Serving s) (hshape : s.shapeFail (some role) true c.ixLo c.subLo val.length = none)
    (hserve : serveHigh c (writeOf role c.ixLo c.subLo val) {} s = (st, t)) :
    dictRequest role c.ixLo c.subLo val {} s = t.answer st := by
  have hcard := cardOf_alertCard s.sku c hc
  have hplace := alertCards_place c hc
  obtain ⟨hresp, hacc, htext⟩ := alertCards_shape c hc
  refine dictRequest_of_hotRw hs hshape hcard hresp ?_
  rw [serveWrite_of_open c (writeOf role c.ixLo c.subLo val) {} false s (s.locks_high _ hplace.1)
    (s.recoveryBars_of_serving _ hs) rfl (htext val),
    serveOp_high c (writeOf role c.ixLo c.subLo val) {} false s hplace hcard hacc, hserve]

section

variable {s t : State} {role : Role} {st : Nat} {val : List Byte}

theorem exec_wdtService_of_write (hs : Serving s) (hallowed : Allowed s role Key.wdtService val.length)
    (hwrite : wdtServiceWrite (leNat val) s = (st, t)) : exec (.wdtService role val) s = .next (t.answer st) :=
  congrArg Host.Outcome.next (dictRequest_alertCard (c := wdtServiceCard) (by decide) hs hallowed hwrite)

theorem exec_wdtPeriodWrite_of_write (hs : Serving s) (hallowed : Allowed s role Key.wdtPeriodMs val.length)
    (hwrite : wdtPeriodWrite (leNat val) s = (st, t)) : exec (.wdtPeriodWrite role val) s = .next (t.answer st) :=
  congrArg Host.Outcome.next (dictRequest_alertCard (c := wdtPeriodCard) (by decide) hs hallowed hwrite)

theorem exec_alertClear_of_write (hs : Serving s) (hallowed : Allowed s role Key.alertClear val.length)
    (hwrite : alertClearWrite (leNat val) s = (st, t)) : exec (.alertClear role val) s = .next (t.answer st) :=
  congrArg Host.Outcome.next (dictRequest_alertCard (c := alertClearCard) (by decide) hs hallowed hwrite)

end

/-! ### ALERT_CLEAR (R911) -/

/-- Taking off the bits that a number shares with a mask borrows nothing: it is done at each half in turn. -/
theorem testBit_sub_and (n : Nat) : ∀ c v : Nat, (c - (c &&& v)).testBit n = (c.testBit n && !v.testBit n) := by
  have hodd : ∀ c v : Nat, (c &&& v) % 2 = 1 ↔ c % 2 = 1 ∧ v % 2 = 1 := fun _ _ => Nat.and_mod_two_eq_one
  induction n with
  | zero =>
    intro c v
    have hle : c &&& v ≤ c := Nat.and_le_left
    have hlow : (c - (c &&& v)) % 2 = 1 ↔ c % 2 = 1 ∧ ¬ v % 2 = 1 := by
      have := hodd c v
      omega
    simp only [Nat.testBit_zero, ← decide_not, ← Bool.decide_and, hlow]
  | succ n ih =>
    intro c v
    have hdiv : (c &&& v) / 2 = c / 2 &&& v / 2 := Nat.and_div_two
    have hle : c / 2 &&& v / 2 ≤ c / 2 := Nat.and_le_left
    have hhalf : (c - (c &&& v)) / 2 = c / 2 - (c / 2 &&& v / 2) := by
      have := hodd c v
      omega
    rw [Nat.testBit_add_one, Nat.testBit_add_one, Nat.testBit_add_one, hhalf, ih]

/-- The state with the causes set in `v` cleared. -/
def State.clearAlerts (s : State) (v : Nat) : State :=
  s.wr Key.alertCause (s.rd Key.alertCause - (s.rd Key.alertCause &&& v))

theorem alertClearWrite_of_reserved {v : Nat} (s : State) (h : 2 ^ 14 ≤ v) : alertClearWrite v s = (DS.range, s) :=
  if_pos h

theorem alertClearWrite_of_causes {v : Nat} (s : State) (h : v < 2 ^ 14) :
    alertClearWrite v s = (DS.ok, s.clearAlerts v) := if_neg (Nat.not_le.2 h)

theorem State.clearAlerts_bit {s : State} (h : valsWf s.sku 0 s.dict.vals = true) (v n : Nat) :
    bit ((s.clearAlerts v).rd Key.alertCause) n = (bit (s.rd Key.alertCause) n && !bit v n) := by
  rw [State.clearAlerts, s.rd_wr _ _ _ h, if_pos rfl, bit_eq_testBit, bit_eq_testBit, bit_eq_testBit, testBit_sub_and]

theorem State.clearAlerts_rd_of_ne {s : State} (h : valsWf s.sku 0 s.dict.vals = true) (v : Nat) {k : Nat}
    (hk : k ≠ Key.alertCause) : (s.clearAlerts v).rd k = s.rd k := by
  rw [State.clearAlerts, s.rd_wr _ _ _ h, if_neg hk]

/-! ### The host timer (R914, R915, R917) -/

/-- The state with new timers of the watchdog. -/
def State.setWdt (s : State) (w : Wdt) : State := { s with wdt := w }

@[simp] theorem State.setWdt_wdt (s : State) (w : Wdt) : (s.setWdt w).wdt = w := rfl

@[simp] theorem State.setWdt_rd (s : State) (w : Wdt) (k : Nat) : (s.setWdt w).rd k = s.rd k := rfl

@[simp] theorem State.setWdt_out (s : State) (w : Wdt) : (s.setWdt w).out = s.out := rfl

/-- The host timer serviced: its expiry is over, and the slow tick counts the service (R915, R920). -/
def State.hostServiced (s : State) : State := s.setWdt { s.wdt with hostExpired := false, hostServed := true }

/-- The host timer started afresh with a new period (R914). -/
def State.restartHost (s : State) (ms : Nat) : State :=
  (s.setWdt { s.wdt with hostServed := true }).wr Key.wdtPeriodMs ms

theorem wdtServiceWrite_of_other {v : Nat} (s : State) (h : v ≠ 0x57D00019) : wdtServiceWrite v s = (DS.range, s) :=
  if_pos h

theorem wdtServiceWrite_of_service {v : Nat} (s : State) (h : v = 0x57D00019) :
    wdtServiceWrite v s = (DS.ok, s.hostServiced.wdtRearm) := if_neg (not_not.2 h)

theorem wdtPeriodWrite_of_range {v : Nat} (s : State) (h0 : v ≠ 0) (h : v < 100 ∨ 60000 < v) :
    wdtPeriodWrite v s = (DS.range, s) := if_pos ⟨h0, h⟩

theorem wdtPeriodWrite_of_period {v : Nat} (s : State) (h : v = 0 ∨ 100 ≤ v ∧ v ≤ 60000) :
    wdtPeriodWrite v s = (DS.ok, s.restartHost v) := if_neg (by omega)

@[simp] theorem State.wdtRearm_wdt (s : State) : s.wdtRearm.wdt = s.wdt := by
  unfold State.wdtRearm
  split <;> rfl

@[simp] theorem State.wdtRearm_out (s : State) : s.wdtRearm.out = s.out := by
  unfold State.wdtRearm
  split <;> rfl

/-- Re-arming touches WDT_STATE alone, and only when no timer is left expired (R917). -/
theorem State.wdtRearm_rd {s : State} (h : valsWf s.sku 0 s.dict.vals = true) (k : Nat) :
    s.wdtRearm.rd k =
      if k = Key.wdtState ∧ s.wdt.hostExpired = false ∧ s.wdt.fwExpired = false then 0 else s.rd k := by
  unfold State.wdtRearm
  by_cases hexpired : s.wdt.hostExpired = true ∨ s.wdt.fwExpired = true
  · rw [if_pos hexpired, if_neg (by rintro ⟨-, hhost, hfw⟩; simp [hhost, hfw] at hexpired)]
  · rw [if_neg hexpired, s.rd_wr _ _ _ h]
    simp only [not_or, Bool.not_eq_true] at hexpired
    simp only [hexpired, and_true]

/-- A service ends stage 1 unless the firmware timer has expired too (R917). -/
theorem State.hostServiced_wdtRearm_rd_wdtState {s : State} (h : valsWf s.sku 0 s.dict.vals = true) :
    s.hostServiced.wdtRearm.rd Key.wdtState = if s.wdt.fwExpired then s.rd Key.wdtState else 0 := by
  rw [State.wdtRearm_rd (s := s.hostServiced) h, State.hostServiced, State.setWdt_wdt, State.setWdt_rd]
  cases s.wdt.fwExpired <;> simp

theorem State.hostServiced_wdtRearm_rd_of_ne {s : State} (h : valsWf s.sku 0 s.dict.vals = true) {k : Nat}
    (hk : k ≠ Key.wdtState) : s.hostServiced.wdtRearm.rd k = s.rd k := by
  rw [State.wdtRearm_rd (s := s.hostServiced) h, if_neg (fun hstate => hk hstate.1), State.hostServiced, State.setWdt_rd]

theorem State.restartHost_rd {s : State} (h : valsWf s.sku 0 s.dict.vals = true) (ms k : Nat) :
    (s.restartHost ms).rd k = if k = Key.wdtPeriodMs then ms else s.rd k :=
  (s.setWdt { s.wdt with hostServed := true }).rd_wr Key.wdtPeriodMs k ms h

/-! ### The statement -/

/-- Settles O52, an entry at a time: refused, or taken as `State.clearAlerts`, as `State.hostServiced` with the watchdog
re-armed, or as `State.restartHost`. -/
theorem alertsAndService : Obligations.AlertsAndService := by
  unfold Obligations.AlertsAndService
  intro s role val hs hinv v
  obtain ⟨hvals, -, -⟩ := hinv
  refine ⟨fun hallowed => ⟨fun hreserved => ?reserved, fun hcauses => ?clear⟩,
    fun hallowed => ⟨fun hother => ?other, fun hservice => ?service⟩,
    fun hallowed => ⟨fun hon hrange => ?range, fun hperiod => ?period⟩⟩
  case reserved => exact exec_alertClear_of_write hs hallowed (alertClearWrite_of_reserved s hreserved)
  case clear =>
    refine ⟨_, exec_alertClear_of_write hs hallowed (alertClearWrite_of_causes s hcauses), ?_⟩
    simp only [State.answer_rd, State.answer_wdt, State.answer_out]
    exact ⟨State.clearAlerts_bit hvals v, State.clearAlerts_rd_of_ne hvals v (by decide), rfl, rfl⟩
  case other => exact exec_wdtService_of_write hs hallowed (wdtServiceWrite_of_other s hother)
  case service =>
    refine ⟨_, exec_wdtService_of_write hs hallowed (wdtServiceWrite_of_service s hservice), ?_⟩
    simp only [State.answer_rd, State.answer_wdt, State.answer_out, State.wdtRearm_wdt, State.wdtRearm_out]
    exact ⟨rfl, State.hostServiced_wdtRearm_rd_wdtState hvals, State.hostServiced_wdtRearm_rd_of_ne hvals (by decide), rfl⟩
  case range => exact exec_wdtPeriodWrite_of_write hs hallowed (wdtPeriodWrite_of_range s hon hrange)
  case period =>
    refine ⟨_, exec_wdtPeriodWrite_of_write hs hallowed (wdtPeriodWrite_of_period s hperiod), ?_⟩
    simp only [State.answer_rd, State.answer_wdt, State.answer_out]
    exact ⟨(State.restartHost_rd hvals _ _).trans (if_pos rfl),
      (State.restartHost_rd hvals _ _).trans (if_neg (by decide)), rfl, rfl⟩

end Sys2Proof.Machine
end

section
/-! PROOFS. What every command keeps (00, 03, 12, 14): one relation between the state before and the state after, kept by
every operation of the machine. The queue, the SKU and what was sent stay; a canonical state stays canonical; an OTP bit
that reads 1 goes on reading 1 (R590). -/

namespace Sys2Proof.Machine

/-! ### The invariant, part by part -/

/-- A list of a vector's places satisfies a test when each place does. -/
theorem vec_all_iff {α : Type} {n : Nat} {v : Vector α n} {p : α → Bool} :
    v.toList.all p = true ↔ ∀ i : Fin n, p (v.get i) = true := by
  simp only [List.all_eq_true, Vector.mem_toList_iff, Vector.mem_iff_getElem]
  exact ⟨fun h i => h _ ⟨i.val, i.isLt, rfl⟩, by rintro h x ⟨i, hi, rfl⟩; exact h ⟨i, hi⟩⟩

/-! Each part's condition is a structure over the fields it speaks of, so that an update of another field leaves it as it is. -/

structure Dict.Parts (sku : Sku) (vals staged : Tab Nat) (sets : Tab SetState) (cmds : Tab CmdBlock) : Prop where
  vals : valsWf sku 0 vals = true
  staged : Tab.rising 0 staged = true
  sets : Tab.rising 0 sets = true
  cmds : Tab.rising 0 cmds = true

@[reducible] def Dict.Wf (sku : Sku) (d : Dict) : Prop := Dict.Parts sku d.vals d.staged d.sets d.cmds

structure Quire.Parts (train : Option Train) (unified : Tab ULeaf) : Prop where
  train : (train.all fun t => Mem.wf t.frames) = true
  unified : Tab.rising 0 unified = true

@[reducible] def Quire.Wf (x : Quire) : Prop := Quire.Parts x.train x.unified

structure Engine.Parts (acc : Tab Int) (epochTag : Tab Nat) : Prop where
  acc : Tab.rising 0 acc = true
  epochTag : Tab.rising 0 epochTag = true

@[reducible] def Engine.Wf (e : Engine) : Prop := Engine.Parts e.acc e.epochTag

structure StatSet.Parts (max scale pred : Tab Nat) : Prop where
  max : Tab.rising 0 max = true
  scale : Tab.rising 0 scale = true
  pred : Tab.rising 0 pred = true

@[reducible] def StatSet.Wf (t : StatSet) : Prop := StatSet.Parts t.max t.scale t.pred

structure Bay.Parts (t0 : Mem) (moves : List Move) (slots : Tab SlotMeta) (racc dregs ready tags : Tab Nat)
    (engines : Vector Engine 4) (sets : Vector StatSet 4) : Prop where
  t0 : Mem.wf t0 = true
  moves : (moves.all fun m => Mem.wf m.frame) = true
  slots : Tab.rising 0 slots = true
  racc : Tab.rising 0 racc = true
  dregs : Tab.rising 0 dregs = true
  ready : Tab.rising 0 ready = true
  tags : Tab.rising 0 tags = true
  engines : ∀ i, (engines.get i).Wf
  sets : ∀ i, (sets.get i).Wf

@[reducible] def Bay.Wf (x : Bay) : Prop := Bay.Parts x.t0 x.moves x.slots x.racc x.dregs x.ready x.tags x.engines x.sets

structure Weave.Parts (aptBuf : List AptStripe) (queues : Tab (List SenseReq)) (lent aptUsed : Tab Nat)
    (sensed : Tab (List SlotUse)) (aptQueue : Tab (List (Nat × Nat))) (tlQueue : Tab (List TlSense)) : Prop where
  aptBuf : (aptBuf.all fun a => Mem.wf a.frames) = true
  queues : Tab.rising 0 queues = true
  lent : Tab.rising 0 lent = true
  sensed : Tab.rising 0 sensed = true
  aptUsed : Tab.rising 0 aptUsed = true
  aptQueue : Tab.rising 0 aptQueue = true
  tlQueue : Tab.rising 0 tlQueue = true

@[reducible] def Weave.Wf (w : Weave) : Prop := Weave.Parts w.aptBuf w.queues w.lent w.aptUsed w.sensed w.aptQueue w.tlQueue

structure Nv.Parts (main aux otp fwStage : Mem) (loads : List Load) (slotA slotB : Option Mem) (lib : Tab LibEntry)
    (blockTab sparesUsed : Tab Nat) (blocks : Tab BlockRec) (bands : Tab Band) : Prop where
  main : Mem.wf main = true
  loads : (loads.all fun l => Mem.wf l.body) = true
  aux : Mem.wf aux = true
  otp : Mem.wf otp = true
  fwStage : Mem.wf fwStage = true
  slotA : slotA.all Mem.wf = true
  slotB : slotB.all Mem.wf = true
  lib : Tab.rising 0 lib = true
  blockTab : Tab.rising 0 blockTab = true
  blocks : Tab.rising 0 blocks = true
  bands : Tab.rising 0 bands = true
  sparesUsed : Tab.rising 0 sparesUsed = true

@[reducible] def Nv.Wf (n : Nv) : Prop :=
  Nv.Parts n.main n.aux n.otp n.fwStage n.loads n.boot.slotA n.boot.slotB n.lib n.blockTab n.sparesUsed n.blocks n.bands

structure Tiers.Parts (slices : Vector Mem 8) (commons t2 rings staging recovery : Mem) : Prop where
  slices : ∀ b, Mem.wf (slices.get b) = true
  commons : Mem.wf commons = true
  t2 : Mem.wf t2 = true
  rings : Mem.wf rings = true
  staging : Mem.wf staging = true
  recovery : Mem.wf recovery = true

@[reducible] def Tiers.Wf (x : Tiers) : Prop := Tiers.Parts x.slices x.commons x.t2 x.rings x.staging x.recovery

structure Sentinel.Parts (image : Mem) (biquad : Tab Int) : Prop where
  image : Mem.wf image = true
  biquad : Tab.rising 0 biquad = true

@[reducible] def Sentinel.Wf (x : Sentinel) : Prop := Sentinel.Parts x.image x.biquad

/-- The invariant, part by part: every register, memory and table of the block in its one form. -/
structure State.Canonical (s : State) : Prop where
  dict : s.dict.Wf s.sku
  i3c : Tab.rising 0 s.i3c.tickets = true
  mbox : ∀ i, Mem.wf (s.mboxes.get i).reqData = true
  quire : ∀ q, (s.quire q).Wf
  bay : ∀ b, (s.bay b).Wf
  st : Tab.rising 0 s.st.stitches = true
  weave : s.weave.Wf
  nv : s.nv.Wf
  tiers : s.tiers.Wf
  sent : s.sent.Wf
  sec : Tab.rising 0 s.sec.classKeys = true

theorem Bay.wf_iff (x : Bay) : x.Wf ↔
    (Mem.wf x.t0 && x.moves.all fun m => Mem.wf m.frame) = true ∧ bayRising x = true := by
  simp only [bayRising, Bool.and_eq_true, vec_all_iff]
  exact ⟨fun h => ⟨⟨h.t0, h.moves⟩, ⟨⟨⟨⟨⟨h.slots, h.racc⟩, h.dregs⟩, h.ready⟩, h.tags⟩,
      fun i => ⟨(h.engines i).acc, (h.engines i).epochTag⟩⟩, fun i => ⟨⟨(h.sets i).max, (h.sets i).scale⟩, (h.sets i).pred⟩⟩,
    fun ⟨⟨h0, hmoves⟩, ⟨⟨⟨⟨⟨hslots, hracc⟩, hdregs⟩, hready⟩, htags⟩, hengines⟩, hsets⟩ =>
      ⟨h0, hmoves, hslots, hracc, hdregs, hready, htags, fun i => ⟨(hengines i).1, (hengines i).2⟩,
        fun i => ⟨(hsets i).1.1, (hsets i).1.2, (hsets i).2⟩⟩⟩

theorem State.canonical_iff (s : State) : s.Canonical ↔ Inv s := by
  have hbay : (∀ b, (s.bay b).Wf) ↔ (s.bays.toList.all fun b => Mem.wf b.t0 && b.moves.all fun m => Mem.wf m.frame) = true ∧
      s.bays.toList.all bayRising = true := by
    simp only [Bay.wf_iff, vec_all_iff, forall_and, State.bay]
  constructor
  · intro h
    obtain ⟨hbmem, hbtab⟩ := hbay.1 h.bay
    refine ⟨h.dict.vals, ?_, ?_⟩
    · simp only [memsWf, Bool.and_eq_true, vec_all_iff (v := s.tiers.slices), vec_all_iff (v := s.mboxes),
        vec_all_iff (v := s.quires), hbmem]
      simp only [h.tiers.slices, h.tiers.commons, h.tiers.t2, h.tiers.rings, h.tiers.staging, h.tiers.recovery, h.mbox,
        fun q => show ((s.quires.get q).train.all fun t => Mem.wf t.frames) = true from (h.quire q).train,
        h.weave.aptBuf, h.nv.main, h.nv.loads, h.nv.aux, h.nv.otp, h.nv.fwStage, h.nv.slotA, h.nv.slotB, h.sent.image,
        implies_true, and_self]
    · simp only [tabsRising, Bool.and_eq_true, vec_all_iff (v := s.quires), hbtab]
      simp only [h.dict.staged, h.dict.sets, h.dict.cmds, h.i3c, h.st,
        fun q => show Tab.rising 0 (s.quires.get q).unified = true from (h.quire q).unified, h.weave.queues, h.weave.lent,
        h.weave.sensed, h.weave.aptUsed, h.weave.aptQueue, h.weave.tlQueue, h.nv.lib, h.nv.blockTab, h.nv.blocks, h.nv.bands,
        h.nv.sparesUsed, h.sent.biquad, h.sec, implies_true, and_self]
  · rintro ⟨hvals, hmems, htabs⟩
    simp only [memsWf, Bool.and_eq_true, vec_all_iff (v := s.tiers.slices), vec_all_iff (v := s.mboxes),
      vec_all_iff (v := s.quires)] at hmems
    simp only [tabsRising, Bool.and_eq_true, vec_all_iff (v := s.quires)] at htabs
    obtain ⟨⟨⟨⟨⟨⟨⟨⟨⟨⟨⟨⟨⟨⟨⟨⟨⟨hslices, hcommons⟩, ht2⟩, hrings⟩, hstaging⟩, hrecovery⟩, hmbox⟩, hbmem⟩, htrain⟩, hapt⟩,
      hmain⟩, hloads⟩, haux⟩, hotp⟩, hfw⟩, hslotA⟩, hslotB⟩, himage⟩ := hmems
    obtain ⟨⟨⟨⟨⟨⟨⟨⟨⟨⟨⟨⟨⟨⟨⟨⟨⟨⟨⟨hstaged, hsets⟩, hcmds⟩, hi3c⟩, hst⟩, hunified⟩, hbtab⟩, hqueues⟩, hlent⟩, hsensed⟩, hused⟩,
      haptq⟩, htlq⟩, hlib⟩, hblockTab⟩, hblocks⟩, hbands⟩, hspares⟩, hbiquad⟩, hkeys⟩ := htabs
    exact ⟨⟨hvals, hstaged, hsets, hcmds⟩, hi3c, hmbox, fun q => ⟨htrain q, hunified q⟩, hbay.2 ⟨hbmem, hbtab⟩, hst,
      ⟨hapt, hqueues, hlent, hsensed, hused, haptq, htlq⟩,
      ⟨hmain, hloads, haux, hotp, hfw, hslotA, hslotB, hlib, hblockTab, hblocks, hbands, hspares⟩,
      ⟨hslices, hcommons, ht2, hrings, hstaging, hrecovery⟩, ⟨himage, hbiquad⟩, hkeys⟩

end Sys2Proof.Machine
end

section
/-! PROOFS. The relation `State.Keeps`, how it composes, and the updates of one part of the state that keep it. -/

-- Short proofs that wait for one another, each on a thread of its own when run in parallel: one after another instead.
set_option Elab.async false

namespace Sys2Proof.Machine

/-- Every bit that reads 1 in the OTP row reads 1 afterwards (R590). -/
def OtpRises (m m' : Mem) : Prop := ∀ a n, bit (Mem.read m a).toNat n = true → bit (Mem.read m' a).toNat n = true

theorem OtpRises.refl (m : Mem) : OtpRises m m := fun _ _ h => h

theorem OtpRises.trans {m m' m'' : Mem} (h : OtpRises m m') (h' : OtpRises m' m'') : OtpRises m m'' :=
  fun a n hb => h' a n (h a n hb)

/-- What every command keeps between the state it finds and the state it leaves. -/
structure State.Keeps (s t : State) : Prop where
  pending : t.pending = s.pending
  sku : t.sku = s.sku
  sends : Sends s t
  canonical : s.Canonical → t.Canonical
  otp : s.Canonical → OtpRises s.nv.otp t.nv.otp

namespace State.Keeps

variable {s₀ s : State}

/-! ### The parts of a state that is kept -/

section
variable (h : s₀.Keeps s)
include h

theorem dict : s₀.Canonical → s.dict.Wf s.sku := fun hc => (h.canonical hc).dict
theorem i3c : s₀.Canonical → Tab.rising 0 s.i3c.tickets = true := fun hc => (h.canonical hc).i3c
theorem mbox (i : Fin 9) : s₀.Canonical → Mem.wf (s.mboxes.get i).reqData = true := fun hc => (h.canonical hc).mbox i
theorem quire (q : QNum) : s₀.Canonical → (s.quire q).Wf := fun hc => (h.canonical hc).quire q
theorem bay (b : BayNum) : s₀.Canonical → (s.bay b).Wf := fun hc => (h.canonical hc).bay b
theorem st : s₀.Canonical → Tab.rising 0 s.st.stitches = true := fun hc => (h.canonical hc).st
theorem weave : s₀.Canonical → s.weave.Wf := fun hc => (h.canonical hc).weave
theorem nv : s₀.Canonical → s.nv.Wf := fun hc => (h.canonical hc).nv
theorem tiers : s₀.Canonical → s.tiers.Wf := fun hc => (h.canonical hc).tiers
theorem sent : s₀.Canonical → s.sent.Wf := fun hc => (h.canonical hc).sent
theorem sec : s₀.Canonical → Tab.rising 0 s.sec.classKeys = true := fun hc => (h.canonical hc).sec

end

/-! ### Composition -/

theorem refl (s : State) : s.Keeps s := ⟨rfl, rfl, ⟨[], by simp⟩, id, fun _ => .refl _⟩

theorem ite {t u : State} {c : Prop} [Decidable c] (ht : s₀.Keeps t) (hu : s₀.Keeps u) : s₀.Keeps (if c then t else u) := by
  split
  · exact ht
  · exact hu

theorem dite {c : Prop} [Decidable c] {t : c → State} {u : ¬ c → State} (ht : ∀ hc, s₀.Keeps (t hc))
    (hu : ∀ hc, s₀.Keeps (u hc)) : s₀.Keeps (if hc : c then t hc else u hc) := by
  split
  · exact ht _
  · exact hu _

theorem foldl {α : Type} {f : State → α → State} {l : List α} (h : s₀.Keeps s)
    (hf : ∀ s a, s₀.Keeps s → s₀.Keeps (f s a)) : s₀.Keeps (l.foldl f s) := by
  induction l generalizing s with
  | nil => exact h
  | cons a l ih => exact ih (hf s a h)

/-- A fold whose steps need that their element is of the list. -/
theorem foldlMem {α : Type} {f : State → α → State} {l : List α} (h : s₀.Keeps s)
    (hf : ∀ s, ∀ a ∈ l, s₀.Keeps s → s₀.Keeps (f s a)) : s₀.Keeps (l.foldl f s) := by
  induction l generalizing s with
  | nil => exact h
  | cons a l ih => exact ih (hf s a (by simp) h) fun s b hb => hf s b (by simp [hb])

/-- A fold that carries a value beside the state. -/
theorem foldl_fst {α β : Type} {f : State × β → α → State × β} {l : List α} {p : State × β} (h : s₀.Keeps p.1)
    (hf : ∀ p a, s₀.Keeps p.1 → s₀.Keeps (f p a).1) : s₀.Keeps (l.foldl f p).1 := by
  induction l generalizing p with
  | nil => exact h
  | cons a l ih => exact ih (hf p a h)

theorem foldl_snd {α β : Type} {f : β × State → α → β × State} {l : List α} {p : β × State} (h : s₀.Keeps p.2)
    (hf : ∀ p a, s₀.Keeps p.2 → s₀.Keeps (f p a).2) : s₀.Keeps (l.foldl f p).2 := by
  induction l generalizing p with
  | nil => exact h
  | cons a l ih => exact ih (hf p a h)

theorem forQ {f : State → QNum → State} (h : s₀.Keeps s) (hf : ∀ s q, s₀.Keeps s → s₀.Keeps (f s q)) :
    s₀.Keeps (s.forQ f) := h.foldl hf

theorem forB {f : State → BayNum → State} (h : s₀.Keeps s) (hf : ∀ s b, s₀.Keeps s → s₀.Keeps (f s b)) :
    s₀.Keeps (s.forB f) := h.foldl hf

/-! ### The updates of one part -/

/-- An update of parts the invariant says nothing of. -/
theorem rest {power : PowerState} {boot : BootPhase} {pins : Pins} {clk : Clocks} {jtag : Jtag} {fn : PcieFn}
    {msix : Msix} {part : Nat} {switch : Option Switch} {pm : Power} {wdt : Wdt} {rtc : BitVec 64} {freeCtr : Nat}
    (h : s₀.Keeps s) : s₀.Keeps { s with
      power := power, boot := boot, pins := pins, clk := clk, jtag := jtag, fn := fn, msix := msix, part := part,
      switch := switch, pm := pm, wdt := wdt, rtc := rtc, freeCtr := freeCtr } where
  pending := h.pending
  sku := h.sku
  sends := h.sends
  canonical hc := ⟨h.dict hc, h.i3c hc, (h.mbox · hc), (h.quire · hc), (h.bay · hc), h.st hc, h.weave hc, h.nv hc,
    h.tiers hc, h.sent hc, h.sec hc⟩
  otp := h.otp

theorem setPins {p : Pins} (h : s₀.Keeps s) : s₀.Keeps (s.setPins p) := h.rest
theorem setClk {c : Clocks} (h : s₀.Keeps s) : s₀.Keeps (s.setClk c) := h.rest
theorem setPm {p : Power} (h : s₀.Keeps s) : s₀.Keeps (s.setPm p) := h.rest

theorem emit {o : Output} (h : s₀.Keeps s) : s₀.Keeps (s.emit o) where
  pending := h.pending
  sku := h.sku
  sends := by
    obtain ⟨l, hl⟩ := h.sends
    exact ⟨l ++ [o], by simp [State.emit, hl]⟩
  canonical hc := ⟨h.dict hc, h.i3c hc, (h.mbox · hc), (h.quire · hc), (h.bay · hc), h.st hc, h.weave hc, h.nv hc,
    h.tiers hc, h.sent hc, h.sec hc⟩
  otp := h.otp

theorem setDict {d : Dict} (h : s₀.Keeps s) (hd : s₀.Canonical → d.Wf s.sku) : s₀.Keeps (s.setDict d) where
  pending := h.pending
  sku := h.sku
  sends := h.sends
  canonical hc := ⟨hd hc, h.i3c hc, (h.mbox · hc), (h.quire · hc), (h.bay · hc), h.st hc, h.weave hc, h.nv hc,
    h.tiers hc, h.sent hc, h.sec hc⟩
  otp := h.otp

theorem setI3c {x : I3c} (h : s₀.Keeps s) (hx : s₀.Canonical → Tab.rising 0 x.tickets = true) :
    s₀.Keeps (s.setI3c x) where
  pending := h.pending
  sku := h.sku
  sends := h.sends
  canonical hc := ⟨h.dict hc, hx hc, (h.mbox · hc), (h.quire · hc), (h.bay · hc), h.st hc, h.weave hc, h.nv hc,
    h.tiers hc, h.sent hc, h.sec hc⟩
  otp := h.otp

theorem setMboxes {v : Vector Mbox 9} (h : s₀.Keeps s) (hv : s₀.Canonical → ∀ i, Mem.wf (v.get i).reqData = true) :
    s₀.Keeps { s with mboxes := v } where
  pending := h.pending
  sku := h.sku
  sends := h.sends
  canonical hc := ⟨h.dict hc, h.i3c hc, hv hc, (h.quire · hc), (h.bay · hc), h.st hc, h.weave hc, h.nv hc,
    h.tiers hc, h.sent hc, h.sec hc⟩
  otp := h.otp

theorem setQuire {q : QNum} {x : Quire} (h : s₀.Keeps s) (hx : s₀.Canonical → x.Wf) : s₀.Keeps (s.setQuire q x) where
  pending := h.pending
  sku := h.sku
  sends := h.sends
  canonical hc := by
    refine ⟨h.dict hc, h.i3c hc, (h.mbox · hc), fun p => ?_, (h.bay · hc), h.st hc, h.weave hc, h.nv hc, h.tiers hc,
      h.sent hc, h.sec hc⟩
    by_cases hp : p = q
    · subst hp
      simpa using hx hc
    · rw [State.setQuire_quire_ne s q p x hp]
      exact h.quire p hc
  otp := h.otp

theorem modQuire {q : QNum} {f : Quire → Quire} (h : s₀.Keeps s) (hf : ∀ x : Quire, x.Wf → (f x).Wf) :
    s₀.Keeps (s.modQuire q f) := h.setQuire fun hc => hf _ (h.quire q hc)

/-- The new quire holds what the state holds elsewhere. -/
theorem modQuireOf {q : QNum} {f : Quire → Quire} (h : s₀.Keeps s)
    (hf : s₀.Canonical → (s.quire q).Wf → (f (s.quire q)).Wf) : s₀.Keeps (s.modQuire q f) :=
  h.setQuire fun hc => hf hc (h.quire q hc)

theorem setBay {b : BayNum} {x : Bay} (h : s₀.Keeps s) (hx : s₀.Canonical → x.Wf) : s₀.Keeps (s.setBay b x) where
  pending := h.pending
  sku := h.sku
  sends := h.sends
  canonical hc := by
    refine ⟨h.dict hc, h.i3c hc, (h.mbox · hc), (h.quire · hc), fun c => ?_, h.st hc, h.weave hc, h.nv hc, h.tiers hc,
      h.sent hc, h.sec hc⟩
    by_cases hb : c = b
    · subst hb
      simpa using hx hc
    · rw [State.setBay_bay_ne s b c x hb]
      exact h.bay c hc
  otp := h.otp

theorem modBay {b : BayNum} {f : Bay → Bay} (h : s₀.Keeps s) (hf : ∀ x : Bay, x.Wf → (f x).Wf) :
    s₀.Keeps (s.modBay b f) := h.setBay fun hc => hf _ (h.bay b hc)

/-- The new bay holds what the state holds elsewhere. -/
theorem modBayOf {b : BayNum} {f : Bay → Bay} (h : s₀.Keeps s)
    (hf : s₀.Canonical → (s.bay b).Wf → (f (s.bay b)).Wf) : s₀.Keeps (s.modBay b f) :=
  h.setBay fun hc => hf hc (h.bay b hc)

theorem setSt {u : StitchUnit} (h : s₀.Keeps s) (hu : s₀.Canonical → Tab.rising 0 u.stitches = true) :
    s₀.Keeps (s.setSt u) where
  pending := h.pending
  sku := h.sku
  sends := h.sends
  canonical hc := ⟨h.dict hc, h.i3c hc, (h.mbox · hc), (h.quire · hc), (h.bay · hc), hu hc, h.weave hc, h.nv hc,
    h.tiers hc, h.sent hc, h.sec hc⟩
  otp := h.otp

theorem setWeave {w : Weave} (h : s₀.Keeps s) (hw : s₀.Canonical → w.Wf) : s₀.Keeps (s.setWeave w) where
  pending := h.pending
  sku := h.sku
  sends := h.sends
  canonical hc := ⟨h.dict hc, h.i3c hc, (h.mbox · hc), (h.quire · hc), (h.bay · hc), h.st hc, hw hc, h.nv hc,
    h.tiers hc, h.sent hc, h.sec hc⟩
  otp := h.otp

/-- The weight store, its OTP row risen. -/
theorem setNvOtp {n : Nv} (h : s₀.Keeps s) (hn : s₀.Canonical → n.Wf)
    (hotp : s₀.Canonical → OtpRises s.nv.otp n.otp) : s₀.Keeps (s.setNv n) where
  pending := h.pending
  sku := h.sku
  sends := h.sends
  canonical hc := ⟨h.dict hc, h.i3c hc, (h.mbox · hc), (h.quire · hc), (h.bay · hc), h.st hc, h.weave hc, hn hc,
    h.tiers hc, h.sent hc, h.sec hc⟩
  otp hc := (h.otp hc).trans (hotp hc)

/-- The weight store, its OTP row as it was. -/
theorem setNv {n : Nv} (h : s₀.Keeps s) (hn : s₀.Canonical → n.Wf) (hotp : n.otp = s.nv.otp := by rfl) :
    s₀.Keeps (s.setNv n) := h.setNvOtp hn fun _ => hotp ▸ .refl _

theorem setTiers {x : Tiers} (h : s₀.Keeps s) (hx : s₀.Canonical → x.Wf) : s₀.Keeps (s.setTiers x) where
  pending := h.pending
  sku := h.sku
  sends := h.sends
  canonical hc := ⟨h.dict hc, h.i3c hc, (h.mbox · hc), (h.quire · hc), (h.bay · hc), h.st hc, h.weave hc, h.nv hc,
    hx hc, h.sent hc, h.sec hc⟩
  otp := h.otp

theorem setSent {x : Sentinel} (h : s₀.Keeps s) (hx : s₀.Canonical → x.Wf) : s₀.Keeps (s.setSent x) where
  pending := h.pending
  sku := h.sku
  sends := h.sends
  canonical hc := ⟨h.dict hc, h.i3c hc, (h.mbox · hc), (h.quire · hc), (h.bay · hc), h.st hc, h.weave hc, h.nv hc,
    h.tiers hc, hx hc, h.sec hc⟩
  otp := h.otp

theorem setSec {x : Security} (h : s₀.Keeps s) (hx : s₀.Canonical → Tab.rising 0 x.classKeys = true) :
    s₀.Keeps { s with sec := x } where
  pending := h.pending
  sku := h.sku
  sends := h.sends
  canonical hc := ⟨h.dict hc, h.i3c hc, (h.mbox · hc), (h.quire · hc), (h.bay · hc), h.st hc, h.weave hc, h.nv hc,
    h.tiers hc, h.sent hc, hx hc⟩
  otp := h.otp

/-! ### Values of the dictionary -/

theorem wr {k v : Nat} (h : s₀.Keeps s) : s₀.Keeps (s.wr k v) :=
  h.setDict fun hc => { h.dict hc with vals := s.wr_wf k v (h.dict hc).vals }

theorem wrs {l : List (Nat × Nat)} (h : s₀.Keeps s) : s₀.Keeps (s.wrs l) := h.foldl fun _ _ hs => hs.wr

end State.Keeps

/-! ### Tables and memories -/

theorem Tab.rising_set {α : Type} [DecidableEq α] {t : Tab α} (h : Tab.rising 0 t = true) (d : α) (i : Nat) (v : α) :
    Tab.rising 0 (Tab.set t d i v) = true := Tab.rising_put t _ 0 h (Nat.zero_le i)

theorem Tab.rising_filterMap {α : Type} (f : Nat × α → Option (Nat × α)) (hf : ∀ p p', f p = some p' → p'.1 = p.1) (t : Tab α) :
    ∀ lo, Tab.rising lo t = true → Tab.rising lo (t.filterMap f) = true := by
  induction t with
  | nil => exact fun _ _ => rfl
  | cons p t ih =>
    intro lo h
    simp only [Tab.rising, Bool.and_eq_true, decide_eq_true_eq] at h
    obtain ⟨hlo, ht⟩ := h
    cases hp : f p with
    | none => simpa [List.filterMap_cons, hp] using Tab.rising_mono (ih _ ht) (by omega)
    | some p' => simpa [List.filterMap_cons, hp, Tab.rising, hf p p' hp, hlo] using ih _ ht

theorem Tab.rising_filter {α : Type} (f : Nat × α → Bool) {t : Tab α} (h : Tab.rising 0 t = true) :
    Tab.rising 0 (t.filter f) = true := by
  rw [← List.filterMap_eq_filter]
  exact Tab.rising_filterMap _ (by simp +contextual [Option.guard]) t 0 h

theorem Tab.rising_mapVals {α : Type} [DecidableEq α] (d : α) (f : α → α) {t : Tab α} (h : Tab.rising 0 t = true) :
    Tab.rising 0 (Tab.mapVals d f t) = true := by
  refine Tab.rising_filterMap _ (fun p p' hp => ?_) t 0 h
  split at hp
  · simp at hp
  · simp only [Option.some.injEq] at hp
    rw [← hp]

theorem Tab.rising_map {α β : Type} (f : Nat × α → β) (t : Tab α) :
    ∀ lo, Tab.rising lo t = true → Tab.rising lo (t.map fun e => (e.1, f e)) = true := by
  induction t with
  | nil => exact fun _ _ => rfl
  | cons p t ih =>
    intro lo h
    simp only [Tab.rising, Bool.and_eq_true, decide_eq_true_eq] at h
    simp only [List.map_cons, Tab.rising, h.1, decide_true, Bool.true_and]
    exact ih _ h.2

end Sys2Proof.Machine
end

section
/-! PROOFS. Updates of bays, quires, stores and tiers that keep the machine's invariant. -/

-- Short proofs that wait for one another, each on a thread of its own when run in parallel: one after another instead.
set_option Elab.async false

namespace Sys2Proof.Machine

/-! ### Parts of a bay -/

theorem vec_get_set_of {α : Type} {n : Nat} {p : α → Prop} {v : Vector α n} {i : Fin n} {x : α} (hv : ∀ j, p (v.get j)) (hx : p x) :
    ∀ j, p ((v.set i.val x i.isLt).get j) := by
  intro j
  show p (v.set i.val x i.isLt)[j.val]
  rw [Vector.getElem_set]
  split
  · exact hx
  · exact hv j

theorem Engine.Wf.reset : Engine.reset.Wf := ⟨rfl, rfl⟩
theorem StatSet.Wf.reset : StatSet.reset.Wf := ⟨rfl, rfl, rfl⟩

namespace Bay.Wf
variable {x : Bay}

theorem setSlot {n : Nat} {m : SlotMeta} (hx : x.Wf) : (x.setSlot n m).Wf := { hx with slots := Tab.rising_set hx.slots _ _ _ }
theorem modSlot {n : Nat} {f : SlotMeta → SlotMeta} (hx : x.Wf) : (x.modSlot n f).Wf := hx.setSlot

theorem setFrame {n : Nat} {f : Mem} (hx : x.Wf) (hf : Mem.wf f = true) : (x.setFrame n f).Wf :=
  { hx with t0 := Mem.setLeaf_wf _ _ _ hx.t0 hf }

theorem modEngine {e : Fin 4} {f : Engine → Engine} (hx : x.Wf) (hf : (x.engines.get e).Wf → (f (x.engines.get e)).Wf) :
    (x.modEngine e f).Wf := { hx with engines := vec_get_set_of hx.engines (hf (hx.engines e)) }

theorem setTag {r t : Nat} (hx : x.Wf) : (x.setTag r t).Wf := { hx with tags := Tab.rising_set hx.tags _ _ _ }

end Bay.Wf

theorem Engine.Wf.zeroAcc {e : Engine} {a : Nat} (he : e.Wf) : (e.zeroAcc a).Wf := { he with acc := Tab.rising_filter _ he.acc }

theorem Engine.Wf.setTreg {e : Engine} {t : Nat} {v : Treg} (he : e.Wf) : (e.setTreg t v).Wf := by
  unfold Engine.setTreg
  split
  · exact { he with }
  · exact { he with }

/-- A property that every step of a fold keeps holds at its end. -/
theorem foldl_keeps {α β : Type} {p : β → Prop} {f : β → α → β} {l : List α} {b : β} (hb : p b)
    (hf : ∀ b a, p b → p (f b a)) : p (l.foldl f b) := by
  induction l generalizing b with
  | nil => exact hb
  | cons a l ih => exact ih (hf b a hb)

theorem all_filter_of {α : Type} {p f : α → Bool} {l : List α} (h : l.all p = true) : (l.filter f).all p = true :=
  List.all_eq_true.2 fun x hx => List.all_eq_true.1 h x (List.mem_filter.1 hx).1

theorem ite_of {α : Type} {p : α → Prop} {c : Prop} [Decidable c] {a b : α} (ha : p a) (hb : p b) :
    p (if c then a else b) := by
  split
  · exact ha
  · exact hb

theorem Tab.rising_tagsDrop {t : Tab Nat} (s : Nat) (h : Tab.rising 0 t = true) : Tab.rising 0 (tagsDrop s t) = true := by
  refine Tab.rising_filterMap _ (fun p p' hp => ?_) t 0 h
  split at hp
  · simp at hp
  · simp only [Option.some.injEq] at hp
    rw [← hp]

theorem Bay.Wf.voidScope {x : Bay} {sc : Nat} (hx : x.Wf) : (x.voidScope sc).Wf := by
  unfold Bay.voidScope
  extract_lets has x1 x2 x3 x4
  have h1 : x1.Wf := foldl_keeps hx fun y n hy => ite_of ((hy.setFrame rfl).setSlot) hy
  have h2 : x2.Wf := by
    refine foldl_keeps h1 fun y e hy => ?_
    extract_lets y1
    have hy1 : y1.Wf := foldl_keeps hy fun _ _ h => ite_of (h.modEngine fun he => he.zeroAcc) h
    exact foldl_keeps hy1 fun _ _ h => ite_of (h.modEngine fun he => he.setTreg) h
  have h3 : x3.Wf := foldl_keeps h2 fun _ _ h => ite_of { h with racc := Tab.rising_filter _ h.racc } h
  have h4 : x4.Wf := foldl_keeps h3 fun _ _ h => ite_of { h with sets := vec_get_set_of h.sets .reset } h
  refine { h4 with
    moves := ?_, dregs := Tab.rising_filter _ h4.dregs, ready := Tab.rising_filter _ h4.ready,
    tags := Tab.rising_tagsDrop _ h4.tags }
  rw [List.all_map]
  refine List.all_eq_true.2 fun m hm => ?_
  simp only [Function.comp_apply]
  split
  · rfl
  · exact List.all_eq_true.1 h4.moves m hm

namespace Bay.Wf
variable {x : Bay}

theorem clearMarks (hx : x.Wf) : x.clearMarks.Wf := by
  refine { hx with slots := ?_ }
  simp only [Bay.clearMarks]
  exact Tab.rising_mapVals _ _ hx.slots

theorem waitEnds {slips : Bool} {now code : Nat} (hx : x.Wf) : (x.waitEnds slips now code).Wf := by
  unfold Bay.waitEnds
  extract_lets
  split
  · exact { hx.setTag with dregs := Tab.rising_set hx.dregs _ _ _ }
  · exact { hx with }

theorem switchOff (hx : x.Wf) : x.switchOff.Wf := { hx with t0 := rfl, slots := rfl, moves := rfl }

end Bay.Wf

theorem vec_get_replicate_of {α : Type} {n : Nat} {p : α → Prop} {a : α} (ha : p a) (i : Fin n) : p ((Vector.replicate n a).get i) := by
  show p (Vector.replicate n a)[i.val]
  rwa [Vector.getElem_replicate]

theorem Bay.Wf.reset : Bay.reset.Wf :=
  ⟨rfl, rfl, rfl, rfl, rfl, rfl, rfl, vec_get_replicate_of .reset, vec_get_replicate_of .reset⟩


/-! ### Accumulators -/

/-- Two pieces of a table, the first below the second. -/
theorem Tab.rising_append {α : Type} {t u : Tab α} {hi : Nat} : ∀ {lo : Nat}, Tab.rising lo t = true →
    (∀ p ∈ t, p.1 < hi) → lo ≤ hi → Tab.rising hi u = true → Tab.rising lo (t ++ u) = true := by
  induction t with
  | nil => exact fun _ _ hlo hu => Tab.rising_mono hu hlo
  | cons p t ih =>
    intro lo ht hlt _ hu
    simp only [Tab.rising, Bool.and_eq_true, decide_eq_true_eq] at ht
    have hp : p.1 < hi := hlt p (by simp)
    simp only [List.cons_append, Tab.rising, Bool.and_eq_true, decide_eq_true_eq]
    exact ⟨ht.1, ih ht.2 (fun p hp => hlt p (by simp [hp])) hp hu⟩

/-- The keys of a table that lie at `hi` or above still rise, from `hi` on. -/
theorem Tab.rising_filter_ge {α : Type} {t : Tab α} (hi : Nat) : ∀ {lo : Nat}, Tab.rising lo t = true →
    Tab.rising hi (t.filter fun p => hi ≤ p.1) = true := by
  induction t with
  | nil => exact fun _ => rfl
  | cons p t ih =>
    intro lo ht
    simp only [Tab.rising, Bool.and_eq_true, decide_eq_true_eq] at ht
    by_cases hp : hi ≤ p.1
    · simp only [List.filter_cons, hp, decide_true, if_true, Tab.rising, Bool.true_and]
      rw [← List.filterMap_eq_filter]
      exact Tab.rising_filterMap _ (by simp +contextual [Option.guard]) t _ ht.2
    · simpa [List.filter_cons, hp] using ih ht.2

theorem upFrom_succ (lo n : Nat) : upFrom lo (n + 1) = lo :: upFrom (lo + 1) n := by
  simp [upFrom, List.range_succ_eq_map, Function.comp_def, Nat.add_comm, Nat.add_left_comm]

theorem Tab.rising_zip_upFrom {α : Type} (v : List α) : ∀ (lo n : Nat), Tab.rising lo ((upFrom lo n).zip v) = true := by
  induction v with
  | nil => intro lo n; simp [Tab.rising]
  | cons x v ih =>
    intro lo n
    cases n with
    | zero => rfl
    | succ n => simp [upFrom_succ, Tab.rising, ih (lo + 1) n]

theorem fst_lt_of_mem_zip_upFrom {α : Type} {v : List α} {lo n : Nat} {p : Nat × α} (hp : p ∈ (upFrom lo n).zip v) :
    lo ≤ p.1 ∧ p.1 < lo + n := by
  have := (List.of_mem_zip (a := p.1) (b := p.2) hp).1
  simp only [upFrom, List.mem_map, List.mem_range] at this
  omega

namespace Engine.Wf
variable {e : Engine}

theorem setBlock {a : Nat} {v : List Int} (he : e.Wf) : (e.setBlock a v).Wf := by
  have hlow : Tab.rising 0 (e.acc.filter fun p => p.1 < 512 * a) = true := Tab.rising_filter _ he.acc
  have hblock : Tab.rising (512 * a) (((upFrom (512 * a) 512).zip v).filter fun p => p.2 != 0) = true := by
    rw [← List.filterMap_eq_filter]
    exact Tab.rising_filterMap _ (by simp +contextual [Option.guard]) _ _ (Tab.rising_zip_upFrom v _ _)
  refine { he with acc := ?_ }
  refine Tab.rising_append (hi := 512 * a + 512) (Tab.rising_append hlow ?_ (Nat.zero_le _) hblock) ?_ (Nat.zero_le _)
    (Tab.rising_filter_ge _ he.acc)
  · intro p hp
    simpa using (List.mem_filter.1 hp).2
  · intro p hp
    rcases List.mem_append.1 hp with hp | hp
    · have : p.1 < 512 * a := by simpa using (List.mem_filter.1 hp).2
      omega
    · exact (fst_lt_of_mem_zip_upFrom (List.mem_filter.1 hp).1).2

theorem land {ls : List Landing} {a : Nat} (he : e.Wf) : (e.land ls a).Wf := by
  unfold Engine.land
  extract_lets
  split
  · exact he
  · split
    · exact he.setBlock
    · exact he.setBlock
    · exact he.setBlock

theorem landCycle {c : Nat} (he : e.Wf) : (e.landCycle c).Wf := foldl_keeps he fun _ _ h => h.land

theorem settle {t : Nat} (he : e.Wf) : (e.settle t).Wf :=
  { foldl_keeps (p := Engine.Wf) (f := Engine.landCycle) he fun _ _ h => h.landCycle with }

end Engine.Wf

theorem Bay.Wf.atZero {x : Bay} {q : QNum} {id epoch : Nat} (hx : x.Wf) : (x.atZero q id epoch).Wf := by
  unfold Bay.atZero
  extract_lets
  refine { hx with
    moves := rfl, racc := rfl, dregs := rfl, ready := rfl, tags := rfl, sets := vec_get_replicate_of .reset,
    engines := vec_get_replicate_of ⟨rfl, ?_⟩ }
  split
  · rfl
  · rfl

namespace Bay.Wf
variable {x : Bay}

theorem settleDregs {t : Nat} (hx : x.Wf) : (x.settleDregs t).Wf :=
  { foldl_keeps (p := Bay.Wf) hx fun y (d : DregDue) (hy : y.Wf) =>
      ({ hy.setTag with dregs := Tab.rising_set hy.dregs _ _ _ } :
        Bay.Wf { y.setTag d.reg d.tag with dregs := Tab.set y.dregs 0 d.reg d.value }) with }

theorem dropMove {m : Move} (hx : x.Wf) : (x.dropMove m).Wf :=
  { hx with moves := List.all_eq_true.2 fun _ hm => List.all_eq_true.1 hx.moves _ (List.mem_of_mem_erase hm) }

theorem deliver {slot : Nat} {f : Mem} {xo : Bool} (hx : x.Wf) (hf : Mem.wf f = true) : (x.deliver slot f xo).Wf :=
  (hx.setFrame (ite_of (p := fun m => Mem.wf m = true) rfl hf)).setSlot

end Bay.Wf

/-! ### Statistics sets -/

namespace StatSet.Wf
variable {x : StatSet}

theorem raise {b v : Nat} (hx : x.Wf) : (x.raise b v).Wf := { hx with max := Tab.rising_set hx.max _ _ _ }

theorem clearMax (hx : x.Wf) : x.clearMax.Wf := ite_of { hx with max := rfl } hx

theorem predict {n : Nat} (hx : x.Wf) : (x.predict n).Wf :=
  { hx with pred := foldl_keeps (p := fun t => Tab.rising 0 t = true) hx.pred fun _ _ h => Tab.rising_set h _ _ _ }

theorem advance {fmt : Nat} (hx : x.Wf) : (x.advance fmt).1.Wf := by
  unfold StatSet.advance
  extract_lets
  split
  · exact { hx.predict with }
  · exact { hx with }

end StatSet.Wf

theorem Tab.rising_latch (g : Nat → Nat) : Tab.rising 0 (latch g) = true :=
  foldl_keeps (p := fun t => Tab.rising 0 t = true) rfl fun _ _ h => Tab.rising_set h _ _ _

/-! ### Parts of a quire -/

namespace Quire.Wf
variable {x : Quire}

theorem cancelWake (hx : x.Wf) : x.cancelWake.Wf := { hx with }
theorem dropFetched (hx : x.Wf) : x.dropFetched.Wf := { hx with }
theorem clearRings (hx : x.Wf) : x.clearRings.Wf := { hx with }
theorem setRing {r : RingNum} {y : Ring} (hx : x.Wf) : (x.setRing r y).Wf := { hx with }
theorem discardDb (hx : x.Wf) : x.discardDb.Wf := { hx with }

end Quire.Wf

theorem Quire.Wf.reset : Quire.reset.Wf := ⟨rfl, rfl⟩

/-! ### Parts of the weight store -/

theorem Load.takeChunk_wf {l : Load} {x : LibEntry} {nonce : List Byte} {c : Nat × List Byte × List Byte} (h : Mem.wf l.body = true) :
    Mem.wf (l.takeChunk x nonce c).body = true := by
  unfold Load.takeChunk
  extract_lets
  split
  · exact h
  · split
    · exact Mem.writeL_wf _ _ _ h
    · exact h

theorem Load.readBody_wf {l : Load} {x : LibEntry} {body : List Byte} (h : Mem.wf l.body = true) :
    Mem.wf (l.readBody x body).body = true :=
  ite_of (p := fun l : Load => Mem.wf l.body = true) h
    (foldl_keeps (p := fun l : Load => Mem.wf l.body = true) h fun _ _ h => Load.takeChunk_wf h)

namespace Nv.Wf
variable {n : Nv}

theorem afterReset {cause : Nat} (hn : n.Wf) : (n.afterReset cause).Wf := by
  refine { hn with loads := rfl, fwStage := rfl, bands := ?_ }
  simp only [Nv.afterReset]
  exact Tab.rising_mapVals _ _ hn.bands

/-- The boot region, a firmware slot written. -/
theorem putSlot {slotB : Bool} {img : Mem} {len : Nat} (hn : n.Wf) (himg : Mem.wf img = true) :
    ({ n with boot := n.boot.putSlot slotB img len } : Nv).Wf := by
  have hslice := Mem.slice_wf img 0 (8192 * ceilDiv len 8192) himg
  cases slotB
  · exact { hn with slotA := hslice }
  · exact { hn with slotB := hslice }

end Nv.Wf

theorem BootRegion.commitSlot_slotA (b : BootRegion) (slotB : Bool) : (b.commitSlot slotB).slotA = b.slotA := by
  unfold BootRegion.commitSlot
  extract_lets
  split
  · rfl
  · rfl

theorem BootRegion.commitSlot_slotB (b : BootRegion) (slotB : Bool) : (b.commitSlot slotB).slotB = b.slotB := by
  unfold BootRegion.commitSlot
  extract_lets
  split
  · rfl
  · rfl

theorem Nv.Wf.commitSlot {n : Nv} {slotB : Bool} (hn : n.Wf) : ({ n with boot := n.boot.commitSlot slotB } : Nv).Wf :=
  { hn with
    slotA := (congrArg (Option.all Mem.wf) (n.boot.commitSlot_slotA slotB)).trans hn.slotA,
    slotB := (congrArg (Option.all Mem.wf) (n.boot.commitSlot_slotB slotB)).trans hn.slotB }

theorem Mbox.setByte_wf {m : Mbox} {o : Nat} {b : Byte} (h : Mem.wf m.reqData = true) : Mem.wf (m.setByte o b).reqData = true := by
  unfold Mbox.setByte
  have hwrite := Mem.write_wf m.reqData (o - 0x100) b h
  split_ifs
  all_goals first | exact h | exact hwrite

/-! ### Frames -/

theorem Mem.append_shift_wf {m u : Mem} {n : Nat} (hm : Mem.wf m = true) (hlt : ∀ p ∈ m, p.1 < n) (hu : Mem.wf u = true) :
    Mem.wf (m ++ Mem.shift n u) = true :=
  Tab.wfFrom_append m _ n 0 hm hlt (Nat.zero_le n) (by simpa using Mem.shift_wfFrom n u 0 hu)

theorem State.rowLeaf_wf {s : State} {g r n : Nat} (h : Mem.wf s.nv.main = true) : Mem.wf (s.rowLeaf g r n) = true :=
  Mem.append_shift_wf (Mem.slice_wf _ _ _ h) (fun _ hp => Mem.slice_lt _ _ _ _ hp) (Mem.slice_wf _ _ _ h)

namespace State.Canonical
variable {s : State} (hs : s.Canonical)
include hs

theorem leaf (p : Place) (n : Nat) : Mem.wf (s.leaf p n) = true := by
  cases p with
  | slice b => exact Mem.leaf_wf _ _ (hs.tiers.slices b)
  | commons => exact Mem.leaf_wf _ _ hs.tiers.commons
  | t2 => exact Mem.leaf_wf _ _ hs.tiers.t2

theorem libFrame (e n : Nat) : Mem.wf (s.libFrame e n) = true := by
  unfold State.libFrame
  split
  · rfl
  · split
    · exact State.rowLeaf_wf hs.nv.main
    · rfl

theorem libFrames (e : Nat) : Mem.wf (s.libFrames e) = true :=
  foldl_keeps (p := fun m => Mem.wf m = true) rfl fun _ _ h => Mem.setLeaf_wf _ _ _ h (hs.libFrame e _)

theorem rawLeaf (a : Addr) : Mem.wf (s.rawLeaf a) = true := by
  unfold State.rawLeaf
  split
  · exact hs.leaf _ _
  · exact hs.leaf _ _
  · exact hs.leaf _ _
  · rfl

theorem copyFrame (q : QNum) (a : Addr) (t4 : List Byte) (i : Nat) : Mem.wf (s.copyFrame q a t4 i) = true := by
  unfold State.copyFrame
  split
  · exact hs.leaf _ _
  · exact hs.libFrame _ _
  · exact Mem.ofList_wf _
  · rfl

theorem sourceFrame (q : QNum) (a : Addr) : Mem.wf (s.sourceFrame q a).1 = true := by
  unfold State.sourceFrame
  extract_lets l
  cases l
  · exact hs.leaf _ _
  · rfl
  · exact hs.libFrame _ _
  · rfl

theorem sourceLeaves (x : PressOp) (per n : Nat) (plain : List Byte) (skip : Nat) :
    Mem.wf (s.sourceLeaves x per n plain skip) = true := by
  unfold State.sourceLeaves
  split
  · rfl
  · exact foldl_keeps (p := fun m => Mem.wf m = true) rfl fun _ _ h =>
      Mem.setLeaf_wf _ _ _ h (ite_of (p := fun m => Mem.wf m = true) (Mem.ofList_wf _) (hs.rawLeaf _))

theorem frame (b : BayNum) (n : Nat) : Mem.wf ((s.bay b).frame n) = true := Mem.leaf_wf _ _ (hs.bay b).t0

theorem readSlot (i : Issue) (n : Nat) : Mem.wf (s.readSlot i n).1 = true := by
  unfold State.readSlot
  extract_lets
  split
  · exact hs.frame _ _
  · dsimp only
    exact Mem.ofList_wf _

end State.Canonical

end Sys2Proof.Machine
end

section
/-! PROOFS. What every command keeps: operations, values, memories, limits, bays and stitches. -/

-- Short proofs that wait for one another, each on a thread of its own when run in parallel: one after another instead.
set_option Elab.async false

namespace Sys2Proof.Machine

variable {s₀ s : State}

/-! ### Ops -/

theorem State.Keeps.count {k n : Nat} (h : s₀.Keeps s) : s₀.Keeps (s.count k n) :=
  h.wr

theorem State.Keeps.uncount {k n : Nat} (h : s₀.Keeps s) : s₀.Keeps (s.uncount k n) :=
  h.wr

theorem State.Keeps.msixSend {v : Nat} (h : s₀.Keeps s) : s₀.Keeps (s.msixSend v) := by
  unfold State.msixSend
  extract_lets
  split
  · extract_lets
    exact .ite h.emit h.rest
  · exact h

theorem State.Keeps.ibiDue {group code : Nat} (h : s₀.Keeps s) : s₀.Keeps (s.ibiDue group code) :=
  .ite (h.setI3c h.i3c) h

theorem State.Keeps.ibiRefresh (h : s₀.Keeps s) : s₀.Keeps s.ibiRefresh :=
  h.setI3c h.i3c

theorem State.Keeps.alert {cause : Nat} (h : s₀.Keeps s) : s₀.Keeps (s.alert cause) :=
  .ite h h.wr.ibiDue

theorem State.Keeps.compactRecs (h : s₀.Keeps s) : s₀.Keeps s.compactRecs :=
  h.setNv h.nv

theorem State.Keeps.paramRecord {k v : Nat} (h : s₀.Keeps s) : s₀.Keeps (s.paramRecord k v) := by
  unfold State.paramRecord
  extract_lets _ s1 _ s2 s3
  have h1 : s₀.Keeps s1 := h.setNv h.nv
  have h2 : s₀.Keeps s2 := .ite (.uncount (h1.setNv h1.nv)) (h1.setNv h1.nv)
  have h3 : s₀.Keeps s3 := h2.compactRecs
  exact .ite (.count (.wrs (h3.setNv h3.nv))) h2

theorem State.Keeps.wrStored {k v : Nat} (h : s₀.Keeps s) : s₀.Keeps (s.wrStored k v) :=
  .ite h h.paramRecord.wr

theorem State.Keeps.mountParams {bad : List Nat} (h : s₀.Keeps s) : s₀.Keeps (s.mountParams bad) := by
  unfold State.mountParams
  extract_lets _ _ s1 _ s2
  have h1 : s₀.Keeps s1 := h.setNv h.nv
  have h2 : s₀.Keeps s2 := .foldl h1 fun _ _ hs => hs.wr
  exact .ite h2.wr h2

theorem State.Keeps.fresh (h : s₀.Keeps s) : s₀.Keeps ((s.fresh).2) :=
  h.rest

theorem State.Keeps.holdWake (h : s₀.Keeps s) : s₀.Keeps s.holdWake :=
  .ite h h.setClk.count

theorem State.Keeps.answer {status : Nat} (h : s₀.Keeps s) : s₀.Keeps (s.answer status) :=
  h.emit

theorem State.Keeps.noteStatus {st : Nat} (h : s₀.Keeps s) : s₀.Keeps (s.noteStatus st) :=
  .ite h.count h

/-! ### Bays -/

theorem State.Keeps.applySteps {code : Nat} (h : s₀.Keeps s) : s₀.Keeps (s.applySteps code) :=
  h.forB (fun _ _ hs => (.ite (hs.modBay fun _ hx => hx) hs))

theorem State.Keeps.lowerSteps (h : s₀.Keeps s) : s₀.Keeps s.lowerSteps :=
  h.forB (fun _ _ hs => (.ite (hs.modBay fun _ hx => hx) hs))

theorem State.Keeps.updateVsel (h : s₀.Keeps s) : s₀.Keeps s.updateVsel := by
  unfold State.updateVsel
  extract_lets _ _ s1 _ s2 s3
  have h1 : s₀.Keeps s1 := h.lowerSteps.wr
  have h2 : s₀.Keeps s2 := .ite h.lowerSteps h.applySteps
  have h3 : s₀.Keeps s3 := h2.wr
  exact .ite h1.setClk (.ite h3.setClk h3)

theorem State.Keeps.fixPower (h : s₀.Keeps s) : s₀.Keeps s.fixPower :=
  .ite h.rest h

theorem State.Keeps.bayOff {b : BayNum} (h : s₀.Keeps s) : s₀.Keeps (s.bayOff b) :=
  h.modBay fun _ hx => hx.switchOff

theorem State.Keeps.powerBays {q : QNum} (h : s₀.Keeps s) : s₀.Keeps (s.powerBays q) := by
  unfold State.powerBays
  extract_lets s1
  have h1 : s₀.Keeps s1 := .foldl h fun _ _ hs => (hs.modBay fun _ hx => (ite_of hx hx.switchOff))
  exact .ite h.holdWake h1.setClk.updateVsel

theorem State.Keeps.runBays {q : QNum} (h : s₀.Keeps s) : s₀.Keeps (s.runBays q) :=
  .fixPower (.foldl h fun _ _ hs => (hs.modBay fun _ hx => hx))

theorem State.Keeps.gateBays {q : QNum} (h : s₀.Keeps s) : s₀.Keeps (s.gateBays q) :=
  .fixPower (.foldl h fun _ _ hs => (hs.modBay fun _ hx => (ite_of hx hx)))

theorem State.Keeps.vselSettleEnd {inTolerance : Bool} (h : s₀.Keeps s) : s₀.Keeps (Machine.vselSettleEnd inTolerance s) := by
  unfold Machine.vselSettleEnd
  extract_lets _ s1
  have h1 : s₀.Keeps s1 := h.setClk
  exact .ite h (.ite h1.rest.applySteps h.rest.count.alert)

theorem State.Keeps.bayGateToOff {b : BayNum} (h : s₀.Keeps s) : s₀.Keeps (Machine.bayGateToOff b s) :=
  .ite h.bayOff.updateVsel h

theorem State.Keeps.bayPllOff (h : s₀.Keeps s) : s₀.Keeps (Machine.bayPllOff s) :=
  .ite h.setClk h

theorem State.Keeps.bayRetestDone {b : BayNum} {pass : Bool} (h : s₀.Keeps s) : s₀.Keeps (Machine.bayRetestDone b pass s) := by
  unfold Machine.bayRetestDone
  extract_lets s1 _ s2
  have h1 : s₀.Keeps s1 := h.modBay fun _ hx => hx
  have h2 : s₀.Keeps s2 := .ite h1 h1.wrStored
  exact .ite h (.ite h1 h2.bayOff.wr.alert.updateVsel)

theorem State.Keeps.bayParity {b : BayNum} (h : s₀.Keeps s) : s₀.Keeps (s.bayParity b) :=
  h.count.modBay fun _ hx => hx

/-! ### Stitches -/

theorem State.Keeps.setStitch {n : Nat} {x : Stitch} (h : s₀.Keeps s) : s₀.Keeps (s.setStitch n x) :=
  h.setSt (fun hc => (Tab.rising_set (h.st hc) _ _ _))

theorem State.Keeps.signal {n amount : Nat} (h : s₀.Keeps s) : s₀.Keeps (s.signal n amount) :=
  h.setSt h.st

theorem State.Keeps.startWait {n : Nat} {who : Waiter} {q : QNum} {now : Bool} (h : s₀.Keeps s) :
    s₀.Keeps (s.startWait n who q now) := by
  unfold State.startWait
  extract_lets
  exact h.setStitch

theorem State.Keeps.dropWaits {p : Nat → Held → Bool} (h : s₀.Keeps s) : s₀.Keeps (s.dropWaits p) := by
  unfold State.dropWaits
  extract_lets
  exact h.setSt fun hc => Tab.rising_filter _ (Tab.rising_map _ _ 0 (h.st hc))

theorem State.Keeps.expireWait {n : Nat} {who : Waiter} (h : s₀.Keeps s) : s₀.Keeps (s.expireWait n who) := by
  unfold State.expireWait
  extract_lets
  exact h.setStitch

theorem State.Keeps.defaultStitches {r : Nat × Nat} (h : s₀.Keeps s) : s₀.Keeps (s.defaultStitches r) :=
  h.setSt (fun hc => (Tab.rising_filter _ (h.st hc)))

theorem State.Keeps.setCmd {k : Nat} {c : CmdBlock} (h : s₀.Keeps s) : s₀.Keeps (s.setCmd k c) :=
  h.setDict (fun hc => { h.dict hc with cmds := (Tab.rising_set (h.dict hc).cmds _ _ _) })

theorem State.Keeps.cmdStart {k : Nat} (h : s₀.Keeps s) : s₀.Keeps (s.cmdStart k) :=
  h.setCmd

theorem State.Keeps.cmdDone {k result : Nat} {card : List Byte} (h : s₀.Keeps s) : s₀.Keeps (s.cmdDone k result card) :=
  h.setCmd

theorem State.Keeps.stitchConfig {q : QNum} {arg : List Byte} (h : s₀.Keeps s) : s₀.Keeps ((Machine.stitchConfig q arg s).2) := by
  unfold Machine.stitchConfig
  extract_lets
  split
  · exact h
  · split
    · exact h
    · exact h.setStitch.cmdDone

/-! ### Store -/

theorem State.Keeps.setLib {e : Nat} {x : LibEntry} (h : s₀.Keeps s) : s₀.Keeps (s.setLib e x) :=
  h.setNv (fun hc => { h.nv hc with lib := (Tab.rising_set (h.nv hc).lib _ _ _) })

theorem State.Keeps.giveHandle {q : QNum} {e v : Nat} (h : s₀.Keeps s) : s₀.Keeps (s.giveHandle q e v) :=
  h.wrs

theorem State.Keeps.dropHandle {q : QNum} {e : Nat} (h : s₀.Keeps s) : s₀.Keeps (s.dropHandle q e) :=
  h.wrs

theorem State.Keeps.dropHandles {q : QNum} (h : s₀.Keeps s) : s₀.Keeps (s.dropHandles q) :=
  .foldl h fun _ _ hs => hs.dropHandle

theorem State.Keeps.setBand {g b : Nat} {x : Band} (h : s₀.Keeps s) : s₀.Keeps (s.setBand g b x) :=
  h.setNv (fun hc => { h.nv hc with bands := (Tab.rising_set (h.nv hc).bands _ _ _) })

theorem State.Keeps.setBlock {g k n : Nat} {x : BlockRec} (h : s₀.Keeps s) : s₀.Keeps (s.setBlock g k n x) :=
  h.setNv (fun hc => { h.nv hc with blocks := (Tab.rising_set (h.nv hc).blocks _ _ _) })

theorem State.Keeps.mapBlock {g k b n : Nat} (h : s₀.Keeps s) : s₀.Keeps (s.mapBlock g k b n) :=
  h.setNv (fun hc => { h.nv hc with blockTab := (Tab.rising_set (h.nv hc).blockTab _ _ _) })

theorem State.Keeps.programPages {g k n p : Nat} {frames : Mem} (h : s₀.Keeps s)
    (hf : s₀.Canonical → Mem.wf frames = true) : s₀.Keeps (s.programPages g k n p frames) :=
  h.setNv fun hc => { h.nv hc with main := Mem.paste_wf _ _ _ _ (h.nv hc).main (hf hc) }

theorem State.Keeps.erasePages {g k n : Nat} (h : s₀.Keeps s) : s₀.Keeps (s.erasePages g k n) :=
  h.setNv (fun hc => { h.nv hc with main := (Mem.clear_wf _ _ _ (h.nv hc).main) })

theorem State.Keeps.copyBlock {g k src dst rows : Nat} (h : s₀.Keeps s) : s₀.Keeps (s.copyBlock g k src dst rows) := by
  unfold State.copyBlock
  extract_lets
  exact h.setNv fun hc => { h.nv hc with main := Mem.paste_wf _ _ _ _ (h.nv hc).main (Mem.slice_wf _ _ _ (h.nv hc).main) }

theorem State.Keeps.dirtyBlock {g k n : Nat} (h : s₀.Keeps s) : s₀.Keeps (s.dirtyBlock g k n) := by
  unfold State.dirtyBlock
  extract_lets _ s1
  have h1 : s₀.Keeps s1 := h.setBlock
  exact h1.setNv h1.nv

theorem State.Keeps.queueMove {g b : Nat} {kind : MoveKind} (h : s₀.Keeps s) : s₀.Keeps (s.queueMove g b kind) :=
  .ite h (h.setNv h.nv)

theorem State.Keeps.queueRescue {g b : Nat} (h : s₀.Keeps s) : s₀.Keeps (s.queueRescue g b) := by
  unfold State.queueRescue
  extract_lets s1
  have h1 : s₀.Keeps s1 := h.queueMove
  exact h1.setNv h1.nv

theorem State.Keeps.wearCheck {g k : Nat} (h : s₀.Keeps s) : s₀.Keeps (s.wearCheck g k) := by
  unfold State.wearCheck
  extract_lets
  split
  · exact h
  · split
    · exact h.queueMove
    · exact h

theorem State.Keeps.eraseBlockAt {g k n : Nat} (h : s₀.Keeps s) : s₀.Keeps (s.eraseBlockAt g k n) := by
  unfold State.eraseBlockAt
  extract_lets _ s1
  have h1 : s₀.Keeps s1 := h.setBlock.erasePages
  exact .wearCheck (h1.setNv h1.nv)

theorem State.Keeps.takeBlock {g k : Nat} (h : s₀.Keeps s) : s₀.Keeps ((s.takeBlock g k).2) := by
  unfold State.takeBlock
  extract_lets s1
  have h1 : s₀.Keeps s1 := by
    unfold s1
    split
    · split
      · exact h.eraseBlockAt
      · exact h
    · exact h
  split
  · extract_lets
    exact h1.setBlock
  · exact h1

theorem State.Keeps.openBand {g b : Nat} (h : s₀.Keeps s) : s₀.Keeps (s.openBand g b) := by
  refine h.foldl fun s k hs => ?_
  have ht : s₀.Keeps (s.takeBlock g k).2 := hs.takeBlock
  generalize s.takeBlock g k = r at ht ⊢
  obtain ⟨_ | n, t⟩ := r
  · exact ht
  · exact ht.mapBlock

theorem State.Keeps.writeRow {g r : Nat} {frames : Mem} (h : s₀.Keeps s) (hf : s₀.Canonical → Mem.wf frames = true) :
    s₀.Keeps (s.writeRow g r frames) :=
  .foldl h fun _ _ hs => hs.programPages fun hc => Mem.slice_wf _ _ _ (hf hc)

theorem State.Keeps.programRow {g : Nat} {frames : Mem} (h : s₀.Keeps s) (hf : s₀.Canonical → Mem.wf frames = true) :
    s₀.Keeps ((s.programRow g frames).2) := by
  unfold State.programRow
  split
  · exact h
  · extract_lets _ s1
    have h1 : s₀.Keeps s1 := .ite h.openBand h
    exact (h1.setBand.writeRow hf).count

theorem State.Keeps.closeBands (h : s₀.Keeps s) : s₀.Keeps s.closeBands :=
  (.foldl h fun _ _ hs => (.foldl hs fun _ _ hs => by
    extract_lets _ _ _ s3 s4 s5
    have h3 : s₀.Keeps s3 := hs.setNv hs.nv
    have h4 : s₀.Keeps s4 := .foldl h3 fun _ _ hs => (.foldl hs fun _ _ hs => hs.dirtyBlock)
    have h5 : s₀.Keeps s5 := .foldl h4 fun _ _ hs => hs.dirtyBlock
    exact (.ite h5.setBand hs)))

theorem State.Keeps.checkpoint (h : s₀.Keeps s) : s₀.Keeps s.checkpoint :=
  h.setNv h.nv

theorem State.Keeps.readBand {g b n : Nat} (h : s₀.Keeps s) : s₀.Keeps (s.readBand g b n) := by
  unfold State.readBand
  extract_lets _ _ _ s1 s2 s3
  have h1 : s₀.Keeps s1 := h.setBand
  have h2 : s₀.Keeps s2 := .ite h1.count.alert h1
  have h3 : s₀.Keeps s3 := .ite h2.queueMove h2
  exact .ite h3.checkpoint h3

theorem State.Keeps.senseStripe {e k : Nat} (h : s₀.Keeps s) : s₀.Keeps (s.senseStripe e k) := by
  unfold State.senseStripe
  split
  · exact h.readBand
  · exact h

theorem State.Keeps.senseStripes {e lo hi : Nat} (h : s₀.Keeps s) : s₀.Keeps (s.senseStripes e lo hi) :=
  .foldl h fun _ _ hs => hs.senseStripe

theorem State.Keeps.jStart {kind addr : Nat} (h : s₀.Keeps s) : s₀.Keeps (s.jStart kind addr) :=
  h.setNv h.nv

theorem State.Keeps.jEnd {kind addr : Nat} (h : s₀.Keeps s) : s₀.Keeps (s.jEnd kind addr) :=
  h.setNv h.nv

theorem State.Keeps.addUnit {g : Nat} {w : Worker} {banks : List Nat} (h : s₀.Keeps s) : s₀.Keeps (s.addUnit g w banks) :=
  h.setNv h.nv

theorem State.Keeps.endUnit {g : Nat} {w : Worker} (h : s₀.Keeps s) : s₀.Keeps (s.endUnit g w) :=
  h.setNv h.nv

theorem State.Keeps.endWorker {w : Worker} (h : s₀.Keeps s) : s₀.Keeps (s.endWorker w) :=
  h.setNv h.nv

/-! ### Leaves -/

theorem State.Keeps.setLeaf {p : Place} {n : Nat} {f : Mem} (h : s₀.Keeps s) (hf : s₀.Canonical → Mem.wf f = true) :
    s₀.Keeps (s.setLeaf p n f) := by
  unfold State.setLeaf
  extract_lets
  split
  · exact h.setTiers fun hc => { h.tiers hc with
      slices := vec_get_set_of (p := fun m => Mem.wf m = true) (h.tiers hc).slices (Mem.setLeaf_wf _ _ _ ((h.tiers hc).slices _) (hf hc)) }
  · exact h.setTiers fun hc => { h.tiers hc with commons := Mem.setLeaf_wf _ _ _ (h.tiers hc).commons (hf hc) }
  · exact h.setTiers fun hc => { h.tiers hc with t2 := Mem.setLeaf_wf _ _ _ (h.tiers hc).t2 (hf hc) }

theorem State.Keeps.clearLeaves {p : Place} {n count : Nat} (h : s₀.Keeps s) : s₀.Keeps (s.clearLeaves p n count) := by
  unfold State.clearLeaves
  extract_lets
  split
  · exact h.setTiers fun hc => { h.tiers hc with
      slices := vec_get_set_of (p := fun m => Mem.wf m = true) (h.tiers hc).slices (Mem.clearLeaves_wf _ _ _ ((h.tiers hc).slices _)) }
  · exact (h.setTiers (fun hc => { h.tiers hc with commons := (Mem.clearLeaves_wf _ _ _ (h.tiers hc).commons) }))
  · exact (h.setTiers (fun hc => { h.tiers hc with t2 := (Mem.clearLeaves_wf _ _ _ (h.tiers hc).t2) }))

theorem State.Keeps.setXo {p : Place} {n : Nat} {xo : Bool} (h : s₀.Keeps s) : s₀.Keeps (s.setXo p n xo) := by
  unfold State.setXo
  extract_lets
  exact h.setTiers h.tiers

/-! ### Scopes -/

theorem State.Keeps.modRun {q : QNum} {id : Nat} {f : Run → Run} (h : s₀.Keeps s) : s₀.Keeps (s.modRun q id f) :=
  h.modQuire fun _ hx => hx

theorem State.Keeps.dropUnsensed {q : QNum} {run sc : Nat} (h : s₀.Keeps s) : s₀.Keeps (s.dropUnsensed q run sc) := by
  unfold State.dropUnsensed
  extract_lets _ _ _ s1 s2
  have h1 : s₀.Keeps s1 := h.setWeave fun hc => { h.weave hc with
    queues := Tab.rising_filter _ (Tab.rising_map _ _ 0 (h.weave hc).queues) }
  have h2 : s₀.Keeps s2 := (.foldl h1 fun _ _ hs => by
    split
    · exact hs.modBay fun _ hx => (foldl_keeps hx fun _ _ hy => hy.modSlot)
    · exact hs)
  exact h2.count

theorem State.Keeps.voidLeaf {q : QNum} {addr : Nat} (h : s₀.Keeps s) : s₀.Keeps (s.voidLeaf q addr) := by
  unfold State.voidLeaf
  split
  · split
    · exact (h.setLeaf fun _ => rfl).setXo
    · exact h
  · exact h

theorem State.Keeps.countClose {q : QNum} {run : Nat} {sc : Scope} {committed : Bool} (h : s₀.Keeps s) :
    s₀.Keeps (s.countClose q run sc committed) := by
  unfold State.countClose
  extract_lets _ s1 s2
  have h1 : s₀.Keeps s1 := h.modRun
  have h2 : s₀.Keeps s2 := h1.count.count
  exact .ite h2.count.count h2.count.count

theorem State.Keeps.absorbSignals {ns : List Nat} (h : s₀.Keeps s) : s₀.Keeps (s.absorbSignals ns) := by
  unfold State.absorbSignals
  extract_lets _ _ s1
  have h1 : s₀.Keeps s1 := h.setSt h.st
  exact (.foldl h1 fun _ _ hs => by
    split
    · exact hs.count
    · exact hs)

theorem State.Keeps.cancelScope {q : QNum} {r : Run} {sc : Scope} (h : s₀.Keeps s) : s₀.Keeps (s.cancelScope q r sc) := by
  unfold State.cancelScope
  extract_lets s1 s2 _ s3 s4 s5
  have h1 : s₀.Keeps s1 := h.dropUnsensed
  have h2 : s₀.Keeps s2 := .foldl h1 fun _ _ hs => (hs.modBay fun _ hx => hx.voidScope)
  have h3 : s₀.Keeps s3 := .foldl h2 fun _ _ hs => hs.voidLeaf
  have h4 : s₀.Keeps s4 := h3.modRun
  have h5 : s₀.Keeps s5 := .foldl h4.absorbSignals fun _ _ hs => hs.setStitch
  exact h5.countClose

theorem State.Keeps.cancelScopes {q : QNum} (h : s₀.Keeps s) : s₀.Keeps (s.cancelScopes q) :=
  (.foldl h fun _ _ hs => by
    extract_lets s2
    have h2 : s₀.Keeps s2 := .foldl hs fun _ _ hs => hs.cancelScope
    exact h2.modRun)

theorem State.Keeps.writeT4 {q : QNum} {n : Nat} {f : Mem} (h : s₀.Keeps s) : s₀.Keeps (s.writeT4 q n f) :=
  h.emit

theorem State.Keeps.readT4 {q : QNum} {n : Nat} (h : s₀.Keeps s) : s₀.Keeps (s.readT4 q n) :=
  h.emit

theorem State.Keeps.leaveFrame {q : QNum} {addr : Nat} {f : Mem} {xo : Bool} (h : s₀.Keeps s)
    (hf : s₀.Canonical → Mem.wf f = true) : s₀.Keeps (s.leaveFrame q addr f xo) := by
  unfold State.leaveFrame
  split
  · split
    · exact (h.setLeaf hf).setXo
    · exact h.writeT4
    · exact h
  · exact h

theorem State.Keeps.flushMoves {q : QNum} {b : BayNum} (h : s₀.Keeps s) : s₀.Keeps (s.flushMoves q b) := by
  unfold State.flushMoves
  extract_lets _ s1
  have h1 : s₀.Keeps s1 := .foldlMem h fun _ m hm hs => hs.leaveFrame fun hc =>
    List.all_eq_true.1 (h.bay b hc).moves m (List.mem_filter.1 hm).1
  exact h1.modBay fun _ hx => { hx with moves := all_filter_of hx.moves }

theorem State.Keeps.endRuns {q : QNum} (h : s₀.Keeps s) : s₀.Keeps (s.endRuns q) := by
  unfold State.endRuns
  extract_lets s1 s2 _ s3
  have h1 : s₀.Keeps s1 := h.cancelScopes
  have h2 : s₀.Keeps s2 := h1.modQuire fun _ hx => hx
  have h3 : s₀.Keeps s3 := h2.setNv h2.nv
  exact (h3.forB (fun _ _ hs => by
    split
    · exact .ite (hs.flushMoves.modBay fun _ hx => hx.clearMarks) hs
    · exact hs))

end Sys2Proof.Machine
end

section
/-! PROOFS. Frames that an operation writes are memories in canonical form. -/

-- Short proofs that wait for one another, each on a thread of its own when run in parallel: one after another instead.
set_option Elab.async false

namespace Sys2Proof.Machine

/-! ### Frames that an operation writes -/

theorem Mem.writeLe_wf {m : Mem} {a n v : Nat} (h : Mem.wf m = true) : Mem.wf (Mem.writeLe m a n v) = true :=
  Mem.writeL_wf _ _ _ h

theorem putHalf_wf {m : Mem} {k v : Nat} (h : Mem.wf m = true) : Mem.wf (putHalf m k v) = true := Mem.writeLe_wf h

theorem putField_wf {fmt p c base : Nat} {m : Mem} (h : Mem.wf m = true) : Mem.wf (putField fmt p c m base) = true := by
  unfold putField
  split
  · exact Mem.write_wf _ _ _ h
  · exact Mem.writeLe_wf h
  · exact Mem.writeLe_wf h
  · exact Mem.write_wf _ _ _ h

theorem rescalePut_wf {outfmt dblk l v : Nat} {m : Mem} (h : Mem.wf m = true) : Mem.wf (rescalePut outfmt dblk m l v) = true := by
  unfold rescalePut
  split
  · exact Mem.write_wf _ _ _ h
  · exact putField_wf h
  · exact Mem.writeLe_wf h

theorem scales_wf {m : Mem} {g : Nat → Byte} (h : Mem.wf m = true) :
    Mem.wf ((List.range 16).foldl (fun m b => Mem.write m (16 + b) (g b)) m) = true :=
  foldl_keeps (p := fun m => Mem.wf m = true) h fun _ _ h => Mem.write_wf _ _ _ h

theorem convHeader_wf {fmt lflags map : Nat} {scale : Tab Nat} {m : Mem} (h : Mem.wf m = true) :
    Mem.wf (convHeader fmt lflags map scale m) = true :=
  Mem.writeLe_wf (Mem.clear_wf _ _ _ (scales_wf (Mem.write_wf _ _ _ (Mem.writeL_wf _ _ _ h))))

/-! ### A conversion under way -/

structure Conv.Wf (c : Conv) : Prop where
  ds : Mem.wf c.ds = true
  set : c.set.Wf

namespace Conv.Wf

theorem of {x : StatSet} {d : Mem} {f n : Nat} (hd : Mem.wf d = true) (hx : x.Wf) :
    Conv.Wf { set := x, ds := d, flags := f, sats := n } := ⟨hd, hx⟩

variable {c : Conv}

theorem put {fmt p code : Nat} (hc : c.Wf) : (c.put fmt p code).Wf := ⟨putField_wf hc.ds, hc.set⟩
theorem err {sig e lv sc : Int} (hc : c.Wf) : (c.err sig e lv sc).Wf := ⟨hc.ds, { hc.set with }⟩
theorem sat (hc : c.Wf) : c.sat.Wf := ⟨hc.ds, { hc.set with }⟩
theorem flag {b : Nat} (hc : c.Wf) : (c.flag b).Wf := ⟨Mem.writeLe_wf hc.ds, { hc.set with }⟩

/-- The element's magnitude, in the maximum or in both maxima. -/
theorem note {raise : Bool} {b m : Nat} (hc : c.Wf) :
    Conv.Wf (if raise then { c with set := c.set.raise b m } else { c with set := { c.set with allMax := Nat.max c.set.allMax m } }) :=
  ite_of (p := Conv.Wf) ⟨hc.ds, hc.set.raise⟩ ⟨hc.ds, { hc.set with }⟩

theorem element {fmt k v : Nat} {raise : Bool} (hc : c.Wf) : (convElement fmt raise c k v).Wf := by
  unfold convElement
  extract_lets _ b _ _ _ _ c0 c1 _ _ _ _ c2
  have h0 : c0.Wf := ⟨hc.ds, { hc.set with }⟩
  have h1 : c1.Wf := hc.note
  have h2 : c2.Wf := ⟨Mem.writeLe_wf (Mem.write_wf _ _ _ h1.ds), { h1.set with }⟩
  clear_value c0 c1 c2
  split
  · exact hc
  · split
    · exact ⟨hc.put.ds, { hc.set with }⟩
    · exact h0.put.sat
    · extract_lets
      split
      · exact ite_of h1.put.err h1.put.err.sat
      · extract_lets
        exact ite_of (ite_of h2.put (ite_of h1.put.err.sat.flag h1.put.err.sat)) h1.put.err

theorem elements {fmt n : Nat} {raise : Bool} {val : Nat → Nat} (hc : c.Wf) :
    ((List.range n).foldl (fun c k => convElement fmt raise c k (val k)) c).Wf :=
  foldl_keeps hc fun _ _ h => h.element

end Conv.Wf

/-- The header of a conversion's first slot. -/
theorem Conv.Wf.start {x : StatSet} {d : Mem} {scale : Tab Nat} {e : Int} {fmt flags map n : Nat} (hx : x.Wf)
    (hd : Mem.wf d = true) (hs : Tab.rising 0 scale = true) :
    Conv.Wf {
      set := { x with scale := scale, bexp := e, flagged := 0, written := 0, rescued := n },
      ds := convHeader fmt flags map scale d, flags := 0, sats := 0 } :=
  .of (convHeader_wf hd) { hx with scale := hs }

theorem judgeAll_wf {x : StatSet} {fmt : Nat} {m : Mem} (hx : x.Wf) (hm : Mem.wf m = true) :
    (judgeAll x fmt m).1.Wf ∧ Mem.wf (judgeAll x fmt m).2 = true :=
  foldl_keeps (p := fun p : StatSet × Mem => p.1.Wf ∧ Mem.wf p.2 = true) ⟨hx, hm⟩ fun _ _ hp =>
    ⟨{ hp.1 with }, Mem.writeLe_wf (Mem.write_wf _ _ _ hp.2)⟩

end Sys2Proof.Machine
end

section
/-! PROOFS. What every command keeps: engines, formats, scopes, queues and tiers. -/

-- Short proofs that wait for one another, each on a thread of its own when run in parallel: one after another instead.
set_option Elab.async false

namespace Sys2Proof.Machine

variable {s₀ s : State}

/-! ### Engines -/

theorem State.Keeps.readSlot {i : Issue} {n : Nat} (h : s₀.Keeps s) : s₀.Keeps ((s.readSlot i n).2) := by
  unfold State.readSlot
  extract_lets
  split
  · exact h
  · exact h.fresh

theorem State.Keeps.result {i : Issue} {res : Nat} {reads : List Nat} {ready : Nat} (h : s₀.Keeps s) :
    s₀.Keeps (s.result i res reads ready) :=
  h.modBay fun _ hx => { hx.setTag with ready := (Tab.rising_put _ _ 0 hx.ready (Nat.zero_le _)) }

theorem State.Keeps.writeSlot {i : Issue} {n : Nat} {reads : List Nat} {ready : Nat} {spans : List (Nat × Nat)} {f : Mem} (h :
    s₀.Keeps s)
    (hf : s₀.Canonical → Mem.wf f = true) : s₀.Keeps (s.writeSlot i n reads ready spans f) :=
  h.modBayOf fun hc hx => { ((hx.setFrame (hf hc)).modSlot.setTag : Bay.Wf
    (((((s.bay i.b).setFrame n f).modSlot n fun m => { m with ident := 0 }).setTag n
      (reads.foldl (fun t r => t ||| (s.bay i.b).tag r) i.scope)))) with }

theorem State.Keeps.writeDreg {i : Issue} {reg value : Nat} {reads : List Nat} {ready : Nat} (h : s₀.Keeps s) :
    s₀.Keeps (s.writeDreg i reg value reads ready) :=
  h.modBay fun _ hx => hx

theorem State.Keeps.modEngine {i : Issue} {f : Engine → Engine} (h : s₀.Keeps s) (hf : ∀ e : Engine, e.Wf → (f e).Wf) :
    s₀.Keeps (s.modEngine i f) :=
  h.modBay fun _ hx => hx.modEngine fun he => hf _ he.settle

theorem State.Keeps.opTeBuild {i : Issue} (h : s₀.Keeps s) : s₀.Keeps (Machine.opTeBuild i s) := by
  unfold Machine.opTeBuild
  extract_lets _ _ s1 s2
  have h1 : s₀.Keeps s1.2 := h.readSlot
  have h2 : s₀.Keeps s2 := h1.modEngine fun _ he => he.setTreg
  exact h2.result

theorem State.Keeps.latchOf {i : Issue} {t : Nat} (h : s₀.Keeps s) : s₀.Keeps ((s.latchOf i t).2) := by
  unfold State.latchOf
  extract_lets
  split
  · exact h.fresh
  · exact h

theorem State.Keeps.opTeLookup {i : Issue} (h : s₀.Keeps s) : s₀.Keeps (Machine.opTeLookup i s) := by
  unfold Machine.opTeLookup
  extract_lets _ _ _ _ s1 s2 _ _ _ _ s3 s4 s5 _ _ s6
  have h1 : s₀.Keeps s1.2 := h.readSlot
  have h2 : s₀.Keeps s2 := h1
  have h3 : s₀.Keeps s3 := .ite h2.fresh h2
  have h4 : s₀.Keeps s4.2 := h3.latchOf
  have h5 : s₀.Keeps s5 := h4
  have h6 : s₀.Keeps s6 := h5.modEngine fun _ he => { he with }
  exact h6.result

theorem State.Keeps.opTeClear {epoch : Nat} {i : Issue} (h : s₀.Keeps s) : s₀.Keeps (Machine.opTeClear epoch i s) := by
  unfold Machine.opTeClear
  extract_lets _ s1 _ s2
  have h1 : s₀.Keeps s1.2 := h.fresh
  have h2 : s₀.Keeps s2 := h1.modEngine fun _ he => { he with
    epochTag := foldl_keeps (p := fun t => Tab.rising 0 t = true) he.epochTag fun _ _ ht =>
      Tab.rising_put _ _ 0 ht (Nat.zero_le _) }
  exact .foldl h2 fun _ _ hs => hs.result

theorem State.Keeps.opTeRescale {i : Issue} (h : s₀.Keeps s) : s₀.Keeps (Machine.opTeRescale i s) := by
  unfold Machine.opTeRescale
  extract_lets _ _ _ _ _ _ _ s1 s2 _ s3 s4
  have h1 : s₀.Keeps s1.2 := h.readSlot
  have h2 : s₀.Keeps s2 := h1.modEngine fun _ he => he
  have h3 : s₀.Keeps s3 := .ite h2.fresh h2
  have h4 : s₀.Keeps s4.2 := h3.fresh
  exact h4.writeSlot fun hc => foldl_keeps (p := fun m => Mem.wf m = true) ((h4.canonical hc).frame _ _) fun _ _ hm =>
    rescalePut_wf hm

theorem State.Keeps.opEscApply {same : Option Nat} {i : Issue} (h : s₀.Keeps s) : s₀.Keeps (Machine.opEscApply same i s) := by
  unfold Machine.opEscApply
  extract_lets _ _ _ s1 s2 s3 s4 s5 _ _ _ s6
  have h1 : s₀.Keeps s1.2 := h.readSlot
  have h2 : s₀.Keeps s2.2 := h1.readSlot
  have h3 : s₀.Keeps s3 := h2
  have h4 : s₀.Keeps s4.2 := by
    unfold s4
    split
    · exact h3.latchOf
    · exact h3
  have h5 : s₀.Keeps s5 := h4
  have h6 : s₀.Keeps s6 := h5.modEngine fun _ he => { he with }
  exact h6.result

theorem State.Keeps.lnsMap {i : Issue} {kind : Kind} {two : Bool} {g : Nat → Nat → Nat} (h : s₀.Keeps s) :
    s₀.Keeps (Machine.lnsMap i kind two g s) := by
  unfold Machine.lnsMap
  extract_lets _ _ _ s1 s2
  have h1 : s₀.Keeps s1.2 := h.readSlot
  have h2 : s₀.Keeps s2.2 := by
    unfold s2
    split
    · exact h1.readSlot
    · exact h1
  exact h2.writeSlot fun hc => foldl_keeps (p := fun m => Mem.wf m = true) ((h2.canonical hc).frame _ _) fun _ _ hm =>
    putHalf_wf hm

theorem State.Keeps.opLnsMul {i : Issue} (h : s₀.Keeps s) : s₀.Keeps (Machine.opLnsMul i s) :=
  h.lnsMap

theorem State.Keeps.opLnsAdd {i : Issue} (h : s₀.Keeps s) : s₀.Keeps (Machine.opLnsAdd i s) :=
  h.lnsMap

theorem State.Keeps.opLnsFromlin {i : Issue} (h : s₀.Keeps s) : s₀.Keeps (Machine.opLnsFromlin i s) :=
  h.lnsMap

theorem State.Keeps.opLnsTolin {i : Issue} (h : s₀.Keeps s) : s₀.Keeps (Machine.opLnsTolin i s) :=
  h.lnsMap

theorem State.Keeps.opLnsReduce {i : Issue} (h : s₀.Keeps s) : s₀.Keeps (Machine.opLnsReduce i s) := by
  unfold Machine.opLnsReduce
  extract_lets _ _ s1
  have h1 : s₀.Keeps s1.2 := h.readSlot
  exact h1.writeSlot fun hc => foldl_keeps (p := fun m => Mem.wf m = true) ((h1.canonical hc).frame _ _) fun _ _ hm =>
    putHalf_wf (putHalf_wf hm)

theorem Bay.Wf.setRaccs {x : Bay} {l : List (Nat × Nat)} {r : Nat} (hx : x.Wf) :
    Bay.Wf { x with racc := l.foldl (fun t p => Tab.set t 0 (64 * r + p.1) p.2) x.racc } :=
  { hx with racc := foldl_keeps (p := fun m => Tab.rising 0 m = true) hx.racc fun _ _ hm => Tab.rising_set hm _ _ _ }

theorem State.Keeps.opRefFma {i : Issue} (h : s₀.Keeps s) : s₀.Keeps (Machine.opRefFma i s) := by
  unfold Machine.opRefFma
  extract_lets _ _ _ _ _ _ s1 s2 s3 _ _ _ s4 s5
  have h1 : s₀.Keeps s1.2 := h.readSlot
  have h2 : s₀.Keeps s2.2 := h1.readSlot
  have h3 : s₀.Keeps s3 := h2
  have h4 : s₀.Keeps s4 := .ite h3.fresh h3
  have h5 : s₀.Keeps s5 := h4.modBay fun _ hx => hx.setRaccs
  exact h5.result

theorem State.Keeps.opRefCast {i : Issue} (h : s₀.Keeps s) : s₀.Keeps (Machine.opRefCast i s) := by
  unfold Machine.opRefCast
  extract_lets
  exact .writeSlot (.ite h.fresh h) fun hc => foldl_keeps (p := fun m => Mem.wf m = true)
    ((h.canonical hc).frame _ _) fun _ _ hm => putHalf_wf hm

theorem State.Keeps.opRefTopk {i : Issue} (h : s₀.Keeps s) : s₀.Keeps (Machine.opRefTopk i s) := by
  unfold Machine.opRefTopk
  extract_lets _ _ _ _ s1 s2 _ _ _ s3 s4
  have h1 : s₀.Keeps s1.2 := h.readSlot
  have h2 : s₀.Keeps s2.2 := by
    unfold s2
    split
    · exact h1.readSlot
    · exact h1
  have h3 : s₀.Keeps s3 := h2.modBay fun _ hx => hx.settleDregs
  have h4 : s₀.Keeps s4 := .foldl h3 fun _ _ hs => hs.writeDreg
  exact .ite h4.writeDreg h4

theorem StatSet.Wf.setLastOp {x : StatSet} {op : LastOp} (hx : x.Wf) : StatSet.Wf { x with lastOp := op } := { hx with }

theorem State.Keeps.setStatSet {b : BayNum} {n : Fin 4} {x : StatSet} (h : s₀.Keeps s) (hx : s₀.Canonical → x.Wf) :
    s₀.Keeps (s.modBay b fun y => { y with sets := y.sets.set n.val x n.isLt }) :=
  h.modBayOf fun hc hy => { hy with sets := vec_get_set_of hy.sets (hx hc) }

theorem State.Keeps.opConvPass1 {i : Issue} (h : s₀.Keeps s) : s₀.Keeps (Machine.opConvPass1 i s) := by
  unfold Machine.opConvPass1
  extract_lets _ n s1 x s2
  have h1 : s₀.Keeps s1.2 := h.readSlot
  have hx (hc : s₀.Canonical) : x.Wf := by
    refine foldl_keeps (p := StatSet.Wf) ((h1.bay i.b hc).sets n).clearMax fun y k hy => ?_
    extract_lets v
    split
    · exact { hy.raise with }
    · exact { hy with }
  have h2 : s₀.Keeps s2 := h1.setStatSet fun hc => (hx hc).setLastOp
  exact h2.result

theorem State.Keeps.convFinish {i : Issue} {n : Fin 4} {kind : Kind} {ds : Nat} {reads : List Nat}
    {spans : List (Nat × Nat)} {c : Conv} {x : StatSet} (h : s₀.Keeps s) (hds : s₀.Canonical → Mem.wf c.ds = true)
    (hx : s₀.Canonical → x.Wf) : s₀.Keeps (Machine.convFinish i n kind ds reads spans c x s) := by
  unfold Machine.convFinish
  extract_lets _ _ s1 s2 s3 _ s4
  have h1 : s₀.Keeps s1 := h.modBayOf fun hc hy => { hy.settleDregs with sets := vec_get_set_of hy.sets (hx hc) }
  have h2 : s₀.Keeps s2 := h1.writeDreg
  have h3 : s₀.Keeps s3 := h2.writeDreg
  have h4 : s₀.Keeps s4 := h3.writeSlot hds
  exact h4.modBay fun _ hy => hy.setTag

theorem State.Keeps.opConvPass2 {i : Issue} (h : s₀.Keeps s) : s₀.Keeps (Machine.opConvPass2 i s) := by
  unfold Machine.opConvPass2
  extract_lets _ n ds _ s1 x s2 s3 d scale c c1
  have h1 : s₀.Keeps s1.2 := h.readSlot
  have h2 : s₀.Keeps s2.2 := by
    unfold s2
    split
    · exact h1.readSlot
    · exact h1
  have h3 : s₀.Keeps s3 := h2
  have hx (hc : s₀.Canonical) : x.Wf := (h1.bay i.b hc).sets n
  have hd (hc : s₀.Canonical) : Mem.wf d = true := (h3.canonical hc).frame _ _
  have hscale : Tab.rising 0 scale = true := Tab.rising_latch _
  have hc1 (hc : s₀.Canonical) : c.Wf :=
    ite_of (p := Conv.Wf) (.start (hx hc) (hd hc) hscale) ⟨hd hc, hx hc⟩
  have hc2 (hc : s₀.Canonical) : c1.Wf := (hc1 hc).elements
  exact h3.convFinish (fun hc => (hc2 hc).ds) fun hc => (hc2 hc).set.advance

theorem State.Keeps.opConvCarry {i : Issue} (h : s₀.Keeps s) : s₀.Keeps (Machine.opConvCarry i s) := by
  unfold Machine.opConvCarry
  extract_lets _ scs ds _ _ n s1 x0 s2 s3 s4 d x _ _ scale _ _ c sc0 sc1 c1 sc2 r j _ _ s5
  have h1 : s₀.Keeps s1.2 := h.readSlot
  have h2 : s₀.Keeps s2.2 := by
    unfold s2
    split
    · exact h1.readSlot
    · exact h1
  have h3 : s₀.Keeps s3.2 := by
    unfold s3
    split
    · exact h2.readSlot
    · exact h2
  have h4 : s₀.Keeps s4 := h3
  have hx (hc : s₀.Canonical) : x.Wf :=
    have hx0 : x0.Wf := (h1.bay i.b hc).sets n
    ite_of hx0.clearMax hx0
  have hd (hc : s₀.Canonical) : Mem.wf d = true := (h4.canonical hc).frame _ _
  have hsc0 (hc : s₀.Canonical) : Mem.wf sc0 = true := (h4.canonical hc).frame _ _
  have hscale : Tab.rising 0 scale = true := Tab.rising_latch _
  have hc0 (hc : s₀.Canonical) : c.Wf :=
    ite_of (p := Conv.Wf) (.start (hx hc) (hd hc) hscale) ⟨hd hc, hx hc⟩
  have hsc1 (hc : s₀.Canonical) : Mem.wf sc1 = true :=
    ite_of (p := fun m => Mem.wf m = true) (Mem.writeLe_wf (hsc0 hc)) (hsc0 hc)
  have hc1 (hc : s₀.Canonical) : c1.Wf := (hc0 hc).elements
  have hsc2 (hc : s₀.Canonical) : Mem.wf sc2 = true := Mem.writeLe_wf (hsc1 hc)
  have hr (hc : s₀.Canonical) : r.1.Wf := (hc1 hc).set.advance
  have hj (hc : s₀.Canonical) : j.1.Wf ∧ Mem.wf j.2 = true :=
    ite_of (p := fun p : StatSet × Mem => p.1.Wf ∧ Mem.wf p.2 = true) (judgeAll_wf (hr hc) (hsc2 hc)) ⟨hr hc, hsc2 hc⟩
  have h5 : s₀.Keeps s5 := h4.convFinish (fun hc => (hc1 hc).ds) fun hc => (hj hc).1
  exact .ite ((h5.writeSlot fun hc => (hj hc).2).modBay fun _ hx => hx.setTag)
    (.ite ((h5.writeSlot fun hc => (hj hc).2).modBay fun _ hx => hx.setTag) h5)

theorem State.Keeps.opConvStats {i : Issue} (h : s₀.Keeps s) : s₀.Keeps (Machine.opConvStats i s) := by
  unfold Machine.opConvStats
  extract_lets _ _ _ _ _ _ _ _ s1 s2
  have h1 : s₀.Keeps s1 := h.writeSlot fun hc =>
    Mem.writeL_wf _ _ _ (Mem.writeL_wf _ _ _ (Mem.writeL_wf _ _ _ (Mem.clear_wf _ _ _ ((h.canonical hc).frame _ _))))
  have h2 : s₀.Keeps s2 := h1.setStatSet fun _ => .reset
  exact h2.result

/-! ### Queues -/

theorem Tiers.Wf.setRings {x : Tiers} {m : Mem} (hx : x.Wf) (hm : Mem.wf m = true) : Tiers.Wf { x with rings := m } :=
  { hx with rings := hm }

theorem State.Keeps.writeCq {q : QNum} {c : Completion} (h : s₀.Keeps s) : s₀.Keeps (s.writeCq q c) := by
  unfold State.writeCq
  extract_lets _ _ _ _ _ _ s1 _ s2 s3 s4
  have h1 : s₀.Keeps s1 := h.setQuire (h.quire _)
  have h2 : s₀.Keeps s2 := by
    unfold s2
    split
    · exact h1.setTiers fun hc => (h1.tiers hc).setRings (Mem.writeL_wf _ _ _ (h1.tiers hc).rings)
    · exact h1
  have h3 : s₀.Keeps s3 := h2.emit
  have h4 : s₀.Keeps s4 := .ite h3.signal h3
  exact .ite h4.msixSend h4

theorem State.Keeps.complete {q : QNum} {e : Entry} {status detail result : Nat} (h : s₀.Keeps s) :
    s₀.Keeps (s.complete q e status detail result) := by
  unfold State.complete
  extract_lets
  exact .ite h (.ite (h.setQuire (h.quire _)) h.writeCq)

theorem State.Keeps.flushCq {q : QNum} {l : List Completion} (h : s₀.Keeps s) : s₀.Keeps (s.flushCq q l) := by
  induction l generalizing s with
  | nil => exact h.modQuire fun _ hx => hx
  | cons c cs ih => exact .ite (h.modQuire fun _ hx => hx) (ih h.writeCq)

theorem State.Keeps.tryRelease {q : QNum} (h : s₀.Keeps s) : s₀.Keeps (s.tryRelease q) := by
  unfold State.tryRelease
  extract_lets
  exact .ite (.gateBays (h.setQuire (h.quire _))) h

theorem State.Keeps.settleQuire {q : QNum} (h : s₀.Keeps s) : s₀.Keeps (s.settleQuire q) := by
  unfold State.settleQuire
  extract_lets
  exact .tryRelease (.ite (h.setQuire (h.quire _)) h)

theorem State.Keeps.finish {q : QNum} {e : Entry} {status detail result : Nat} (h : s₀.Keeps s) :
    s₀.Keeps (s.finish q e status detail result) :=
  .settleQuire (.complete (h.modQuire fun _ hx => hx))

theorem State.Keeps.sendWake {q : QNum} (h : s₀.Keeps s) : s₀.Keeps (s.sendWake q) := by
  unfold State.sendWake
  extract_lets _ s1
  have h1 : s₀.Keeps s1 := h.count
  exact .ite (h1.setQuire (h1.quire _)) (.ite (.count (h1.setQuire (h1.quire _))) (.powerBays (h1.setQuire (h1.quire _))))

theorem State.Keeps.wakeIfNeeded {q : QNum} (h : s₀.Keeps s) : s₀.Keeps (s.wakeIfNeeded q) := by
  unfold State.wakeIfNeeded
  extract_lets
  exact .ite h.sendWake h

theorem State.Keeps.startPlls (h : s₀.Keeps s) : s₀.Keeps s.startPlls :=
  h.setClk.forQ (fun _ _ hs => hs.wakeIfNeeded)

theorem State.Keeps.tryListen (h : s₀.Keeps s) : s₀.Keeps s.tryListen := by
  unfold State.tryListen
  extract_lets
  exact .ite (.wr (h.setSent (fun hc => { h.sent hc with biquad := rfl }))) h

theorem State.Keeps.abandonEntry {reason quireNo : Nat} (h : s₀.Keeps s) : s₀.Keeps (s.abandonEntry reason quireNo) := by
  unfold State.abandonEntry
  extract_lets s1 _ s2 s3
  have h1 : s₀.Keeps s1.2 := h.fresh
  have h2 : s₀.Keeps s2 := h1.setPm
  have h3 : s₀.Keeps s3 := h2.cmdDone.count
  split
  · exact h
  · exact .tryListen (h3.setSent h3.sent)

theorem State.Keeps.wakeDemand (h : s₀.Keeps s) : s₀.Keeps s.wakeDemand := by
  unfold State.wakeDemand
  extract_lets s1
  have h1 : s₀.Keeps s1 := h.abandonEntry
  exact .ite h1 h1.setPm

theorem State.Keeps.grant {q : QNum} {us : Nat} (h : s₀.Keeps s) : s₀.Keeps (Machine.grant q us s) := by
  unfold Machine.grant
  extract_lets
  exact .ite h (.ite (.count (h.setQuire (h.quire _))) (.ite h.holdWake (.ite h.powerBays (.ite h (.tryRelease (.runBays (h.setQuire (h.quire _))))))))

theorem State.Keeps.stopQuire {q : QNum} (h : s₀.Keeps s) : s₀.Keeps (s.stopQuire q) := by
  unfold State.stopQuire
  extract_lets s1
  have h1 : s₀.Keeps s1 := h.count
  exact .foldl h1 fun _ _ hs => (hs.modBay fun _ hx => { hx with moves := all_filter_of hx.moves })

theorem State.Keeps.endLending {q : QNum} (h : s₀.Keeps s) : s₀.Keeps (s.endLending q) :=
  h.setWeave (fun hc => { h.weave hc with lent := (Tab.rising_filter _ (h.weave hc).lent) })

theorem State.Keeps.sentAbandon (h : s₀.Keeps s) : s₀.Keeps s.sentAbandon := by
  unfold State.sentAbandon
  extract_lets _ s1
  have h1 : s₀.Keeps s1 := h.setSent h.sent
  exact .ite h1.wr h1

theorem State.Keeps.freeze {q : QNum} {cause bay ring imp cycle cid sqi detail : Nat} (h : s₀.Keeps s) :
    s₀.Keeps (s.freeze q cause bay ring imp cycle cid sqi detail) := by
  unfold State.freeze
  extract_lets _ _ s1 s2 s3 _ s4 s5 s6 s7 s8 s9 s10
  have h1 : s₀.Keeps s1 := h.endRuns
  have h2 : s₀.Keeps s2 := h1.wr
  have h3 : s₀.Keeps s3 := h2.stopQuire
  clear_value s3
  have h4 : s₀.Keeps s4 := h3.setSt h3.st
  have h5 : s₀.Keeps s5 := h4.dropWaits
  have h6 : s₀.Keeps s6 := h5.endLending
  have h7 : s₀.Keeps s7 := .ite h6.sentAbandon h6
  clear_value s7
  have h8 : s₀.Keeps s8 := h7.modQuire fun _ hx => hx
  have h9 : s₀.Keeps s9 := h8.count
  have h10 : s₀.Keeps s10 := .ite (.cmdDone (h9.modQuire fun _ hx => hx)) h9
  exact .ite h (.ite (.ite h h.wr) h10.msixSend)

theorem State.Keeps.freezeEntry {q : QNum} {e : Entry} {cause detail : Nat} (h : s₀.Keeps s) :
    s₀.Keeps (s.freezeEntry q e cause detail) :=
  h.freeze

theorem State.Keeps.doorbell {q : QNum} {aligned4 : Bool} {f : State → State} (h : s₀.Keeps s) (hf : ∀ (s : State), s₀.Keeps s → s₀.Keeps (f s)) : s₀.Keeps (s.doorbell q aligned4 f) :=
  .ite h (.ite (h.modQuire fun _ hx => hx) (hf _ h.wakeDemand))

theorem State.Keeps.sqTailWrite {q : QNum} {r : RingNum} {v : BitVec 32} {aligned4 : Bool} (h : s₀.Keeps s) :
    s₀.Keeps (Machine.sqTailWrite q r v aligned4 s) :=
  (h.doorbell fun _ hs => by
    extract_lets s2
    have h2 : s₀.Keeps s2 := hs.modQuire fun _ hx => hx
    exact (.ite hs.freeze (.ite h2.wakeIfNeeded h2)))

theorem State.Keeps.cqHeadWrite {q : QNum} {v : BitVec 32} {aligned4 : Bool} (h : s₀.Keeps s) :
    s₀.Keeps (Machine.cqHeadWrite q v aligned4 s) :=
  (h.doorbell fun _ hs => by
    extract_lets s2
    have h2 : s₀.Keeps s2 := hs.modQuire fun _ hx => hx
    exact (.ite hs.freeze h2.flushCq.settleQuire))

theorem State.Keeps.stitchDb {q : QNum} {v : BitVec 32} {aligned4 : Bool} (h : s₀.Keeps s) :
    s₀.Keeps (Machine.stitchDb q v aligned4 s) :=
  (h.doorbell fun _ hs => by
    extract_lets
    exact (.ite hs.freeze (.ite hs.freeze (.ite hs.freeze (.ite hs.freeze hs.signal)))))

theorem State.Keeps.popEntry {q : QNum} {r : RingNum} (h : s₀.Keeps s) : s₀.Keeps (s.popEntry q r) :=
  h.modQuire fun _ hx => hx

theorem State.Keeps.startEntry {q : QNum} {r : RingNum} {e : Entry} {w : Work} (h : s₀.Keeps s) :
    s₀.Keeps (s.startEntry q r e w) :=
  h.popEntry.modQuire fun _ hx => hx

theorem State.Keeps.finishNow {q : QNum} {r : RingNum} {e : Entry} {status detail result : Nat} (h : s₀.Keeps s) :
    s₀.Keeps (s.finishNow q r e status detail result) :=
  h.popEntry.complete.settleQuire

theorem State.Keeps.nop {q : QNum} {r : RingNum} (h : s₀.Keeps s) : s₀.Keeps (Machine.nop q r s) := by
  unfold Machine.nop
  split
  · exact h.finishNow
  · exact h

theorem State.Keeps.stitchSignal {q : QNum} {r : RingNum} (h : s₀.Keeps s) : s₀.Keeps (Machine.stitchSignal q r s) := by
  unfold Machine.stitchSignal
  split
  · extract_lets
    exact .ite h.freezeEntry (.ite h.freezeEntry h.signal.finishNow)
  · exact h

theorem State.Keeps.countWait {q : QNum} {o : Outcome} (h : s₀.Keeps s) : s₀.Keeps (s.countWait q o) := by
  unfold State.countWait
  split
  · exact h.count
  · exact h.count.count
  · exact h.count
  · exact h.count
  · exact h.count

theorem State.Keeps.noteWait {b : BayNum} (h : s₀.Keeps s) : s₀.Keeps (s.noteWait b) := by
  unfold State.noteWait
  split
  · split
    · exact .ite h.modRun h
    · exact h
  · exact h

theorem State.Keeps.endWait {h : Held} {o : Outcome} {count : Nat} (hk : s₀.Keeps s) : s₀.Keeps (s.endWait h o count) := by
  unfold State.endWait
  extract_lets s1
  have h1 : s₀.Keeps s1 := hk.countWait
  split
  · extract_lets
    exact .noteWait (h1.modBay fun _ hx => hx.waitEnds)
  · split
    · exact h1.finish
    · exact h1

theorem State.Keeps.stitchWait {q : QNum} {r : RingNum} (h : s₀.Keeps s) : s₀.Keeps (Machine.stitchWait q r s) := by
  unfold Machine.stitchWait
  split
  · extract_lets
    exact .ite h.freezeEntry (.ite h.freezeEntry h.startEntry.startWait)
  · exact h

theorem State.Keeps.hostWaitTimeout {q : QNum} {r : RingNum} (h : s₀.Keeps s) : s₀.Keeps (Machine.hostWaitTimeout q r s) := by
  unfold Machine.hostWaitTimeout
  split
  · exact .ite h h.expireWait
  · exact h

theorem State.Keeps.fence {q : QNum} {r : RingNum} (h : s₀.Keeps s) : s₀.Keeps (Machine.fence q r s) := by
  unfold Machine.fence
  split
  · extract_lets
    exact .ite h.finishNow h.startEntry
  · exact h

theorem State.Keeps.stageOne {signals poisons aborts : List (Nat × Nat)} {n : Nat} (h : s₀.Keeps s) :
    s₀.Keeps (s.stageOne signals poisons aborts n) := by
  unfold State.stageOne
  extract_lets
  split
  · exact h
  · extract_lets s1
    have h1 : s₀.Keeps s1 := .ite h (.ite h.count h.count)
    exact .foldl h1.setStitch fun _ _ hs => hs.endWait

theorem State.Keeps.comparisonStage (h : s₀.Keeps s) : s₀.Keeps (Machine.comparisonStage s) := by
  unfold Machine.comparisonStage
  extract_lets _ _ s1
  have h1 : s₀.Keeps s1 := h.setSt h.st
  exact .ite h (.foldl h1 fun _ _ hs => hs.stageOne)

theorem State.Keeps.releaseStage {r : Nat × Nat} {gone : List (Nat × Nat)} (h : s₀.Keeps s) :
    s₀.Keeps (s.releaseStage r gone) := by
  unfold State.releaseStage
  extract_lets _ _ s1
  have h1 : s₀.Keeps s1 := h.setSt h.st
  exact .foldl h1 fun _ _ hs => hs.stageOne

theorem State.Keeps.ifIdle {k : Nat} {f : State → State} (h : s₀.Keeps s) (hf : ∀ (s : State), s₀.Keeps s → s₀.Keeps (f s)) :
    s₀.Keeps ((s.ifIdle k f).2) := by
  unfold State.ifIdle
  split
  · exact h
  · exact hf _ h

theorem State.Keeps.qEnableWrite {q : QNum} (h : s₀.Keeps s) : s₀.Keeps ((Machine.qEnableWrite q s).2) := by
  unfold Machine.qEnableWrite
  split
  · exact h
  · exact h.ifIdle fun _ hs => (.wakeIfNeeded (.cmdDone (hs.modQuire fun _ hx => hx)))

theorem State.Keeps.qDmaFaultWrite {q : QNum} {addr : Nat} (h : s₀.Keeps s) : s₀.Keeps ((Machine.qDmaFaultWrite q addr s).2) :=
  h.ifIdle fun _ hs => hs.freeze.cmdDone

theorem State.Keeps.dmaReadError {q : QNum} {addr : BitVec 64} {src : DmaSource} (h : s₀.Keeps s) :
    s₀.Keeps (Machine.dmaReadError q addr src s) := by
  unfold Machine.dmaReadError
  extract_lets
  split
  · exact h
  · split
    · exact h.freeze
    · split
      · exact h.freezeEntry
      · exact h
    · split
      · split
        · exact .ite h.freeze h
        · exact h
      · exact h
    · exact h.freeze

/-! ### Tiers -/

theorem State.Keeps.cut {p : Place} {first count : Nat} {f : Use → Bool} (h : s₀.Keeps s) : s₀.Keeps (s.cut p first count f) :=
  h.setTiers h.tiers

theorem State.Keeps.addExtent {e : Extent} (h : s₀.Keeps s) : s₀.Keeps (s.addExtent e) :=
  h.setTiers h.tiers

theorem State.Keeps.zeroJob {q : QNum} {run : Bool} {pieces : List (Place × Nat × Nat)} {purpose : ZeroFor} (h : s₀.Keeps s) :
    s₀.Keeps (s.zeroJob q run pieces purpose) := by
  unfold State.zeroJob
  extract_lets _ s1
  have h1 : s₀.Keeps s1 := .foldl h fun _ _ hs => hs.cut
  exact .ite h1 (h1.setTiers h1.tiers)

theorem State.Keeps.zeroExtent {x : Extent} (h : s₀.Keeps s) : s₀.Keeps (s.zeroExtent x) := by
  unfold State.zeroExtent
  extract_lets _ s1 _ s2
  have h1 : s₀.Keeps s1 := .foldl h fun _ _ hs => hs.clearLeaves
  have h2 : s₀.Keeps s2 := h1.setTiers h1.tiers
  exact h2.cut

theorem State.Keeps.dropCopies {f : PoolCopy → Bool} (h : s₀.Keeps s) : s₀.Keeps (s.dropCopies f) := by
  unfold State.dropCopies
  extract_lets _ s1
  have h1 : s₀.Keeps s1 := .foldl h fun _ _ hs => hs.clearLeaves.setXo
  exact h1.setTiers h1.tiers

theorem State.Keeps.tickRead (h : s₀.Keeps s) : s₀.Keeps ((s.tickRead).2) :=
  h.setTiers h.tiers

theorem State.Keeps.poolPut {e n : Nat} (h : s₀.Keeps s) : s₀.Keeps (s.poolPut e n) := by
  unfold State.poolPut
  extract_lets _ _ s1 s2
  have h1 : s₀.Keeps s1 := by
    unfold s1
    split
    · split
      · exact h.dropCopies.count
      · exact h
    · exact h
  have h2 : s₀.Keeps s2.2 := h1.tickRead
  split
  · exact h
  · split
    · exact h1
    · extract_lets s3 s4
      have h3 : s₀.Keeps s3 := h2.setLeaf fun hc => (h1.canonical hc).libFrame _ _
      have h4 : s₀.Keeps s4 := h3.setXo
      exact h4.setTiers h4.tiers

theorem State.Keeps.dropStale (h : s₀.Keeps s) : s₀.Keeps s.dropStale :=
  h.dropCopies

theorem State.Keeps.setU {q : QNum} {n : Nat} {u : Option ULeaf} (h : s₀.Keeps s) : s₀.Keeps (s.setU q n u) :=
  h.modQuire fun _ hx => { hx with unified := (Tab.rising_put _ _ 0 hx.unified (Nat.zero_le _)) }

theorem State.Keeps.skipTm {q : QNum} (h : s₀.Keeps s) : s₀.Keeps (s.skipTm q) :=
  h.count

theorem State.Keeps.startMove {q : QNum} {n : Nat} {up : Bool} {t : State} (h : s₀.Keeps s) (ht : s.startMove q n up = some t) :
    s₀.Keeps t := by
  unfold State.startMove at ht
  split at ht
  · simp at ht
  · split at ht
    · obtain ⟨_, _, rfl⟩ := Option.map_eq_some_iff.1 ht
      exact h.addExtent.setU
    · obtain ⟨_, _, rfl⟩ := Option.map_eq_some_iff.1 ht
      exact h.addExtent.setU
    · simp at ht

theorem State.Keeps.tryPromote {q : QNum} {x : Hint} (h : s₀.Keeps s) : s₀.Keeps ((s.tryPromote q x).1) := by
  unfold State.tryPromote
  split
  · exact h
  · split
    · exact h
    · exact h
    · exact h
    · split
      · split
        · next hm => exact h.startMove hm
        · exact h.skipTm
      · split
        · exact h
        · extract_lets vs xo s1
          have h1 : s₀.Keeps s1 := h.foldl fun _ _ hs => hs.skipTm
          clear_value s1
          split
          · exact h1.skipTm
          · split
            · split
              · exact h1.skipTm
              · split
                · next hm => exact h1.startMove hm
                · exact h1.skipTm
            · exact h1.count

theorem State.Keeps.tryDemote {q : QNum} {x : Hint} (h : s₀.Keeps s) : s₀.Keeps ((s.tryDemote q x).1) := by
  unfold State.tryDemote
  split
  · exact h
  · split
    · exact h
    · exact h
    · exact h.count
    · split
      · exact h
      · split
        · exact h.skipTm
        · split
          · next hm => exact h.startMove hm
          · exact h.skipTm

theorem State.Keeps.serveHints {q : QNum} (h : s₀.Keeps s) : s₀.Keeps (s.serveHints q) := by
  unfold State.serveHints
  extract_lets _ s1 s2
  have h1 : s₀.Keeps s1 := h.modQuire fun _ hx => hx
  have h2 : s₀.Keeps s2.1 := (.foldl_fst h1 fun _ _ hs => by
    extract_lets s3
    have h3 : s₀.Keeps s3.1 := by
      unfold s3
      split
      · exact hs.tryPromote
      · exact hs.tryDemote
    split
    · exact hs
    · exact h3)
  exact .ite h (h2.modQuire fun _ hx => hx)

theorem State.Keeps.addHint {q : QNum} {h : Hint} (hk : s₀.Keeps s) : s₀.Keeps (s.addHint q h) :=
  hk.modQuire fun _ hx => hx

theorem State.Keeps.tmMoveComplete {q : QNum} {n : Nat} (h : s₀.Keeps s) : s₀.Keeps (Machine.tmMoveComplete q n s) := by
  unfold Machine.tmMoveComplete
  split
  · exact h
  · split
    · extract_lets s1
      have h1 : s₀.Keeps s1 := (h.setLeaf fun hc => (h.canonical hc).leaf _ _).setU
      exact .ite h h1.zeroJob.count.serveHints
    · extract_lets s1
      have h1 : s₀.Keeps s1 := (h.setLeaf fun hc => (h.canonical hc).leaf _ _).setU
      exact .ite h h1.zeroJob.count.serveHints
    · exact h

theorem State.Keeps.grantLeaves {q : QNum} {l : List Extent} {unified : Bool} (h : s₀.Keeps s) :
    s₀.Keeps ((s.grantLeaves q l unified).2) := by
  unfold State.grantLeaves
  extract_lets _ _ _ s1 s2 s3
  have h1 : s₀.Keeps s1 := .foldl h fun _ _ hs => hs.addExtent
  have h2 : s₀.Keeps s2 := .foldl h1 fun _ _ hs => hs.setU
  have h3 : s₀.Keeps s3 := .foldl h fun _ _ hs => hs.addExtent
  split
  · exact h2
  · exact h3

theorem State.Keeps.alloc {q : QNum} {r : RingNum} (h : s₀.Keeps s) : s₀.Keeps (Machine.alloc q r s) := by
  unfold Machine.alloc
  extract_lets
  split
  · extract_lets
    split
    · exact h.finishNow
    · split
      · exact h.finishNow
      · extract_lets s1
        have h1 : s₀.Keeps s1.2 := h.grantLeaves
        exact .ite h1.finishNow (.startEntry (.foldl h fun _ _ hs => hs.addExtent))
  · exact h

theorem State.Keeps.dropClaim {q : QNum} {seq : Nat} (h : s₀.Keeps s) : s₀.Keeps (s.dropClaim q seq) :=
  h.setTiers h.tiers

theorem State.Keeps.endAllocWait {q : QNum} {w : Started} (h : s₀.Keeps s) : s₀.Keeps (s.endAllocWait q w) := by
  unfold State.endAllocWait
  extract_lets s1
  have h1 : s₀.Keeps s1 := h.dropClaim
  split
  · extract_lets _ s2
    have h2 : s₀.Keeps s2.2 := h1.grantLeaves
    exact .ite (.ite h1.finish h2.finish) h
  · exact h

theorem State.Keeps.doFree {q : QNum} {a : Addr} {count : Nat} {l : List (Place × Nat × Nat)} (h : s₀.Keeps s) :
    s₀.Keeps (s.doFree q a count l) := by
  unfold State.doFree
  extract_lets s1
  have h1 : s₀.Keeps s1 := h.zeroJob
  exact (.ite (h1.modQuire fun _ hx => { hx with unified := (Tab.rising_filter _ hx.unified) }) h1)

theorem State.Keeps.free {q : QNum} {r : RingNum} (h : s₀.Keeps s) : s₀.Keeps (Machine.free q r s) := by
  unfold Machine.free
  split
  · extract_lets
    split
    · exact h.freezeEntry
    · extract_lets
      split
      · exact h.freezeEntry
      · exact .ite h h.doFree.finishNow
  · exact h

theorem State.Keeps.forgetIdent {q : QNum} {addr : Nat} (h : s₀.Keeps s) : s₀.Keeps (s.forgetIdent q addr) :=
  h.modQuire fun _ hx => hx

theorem State.Keeps.putFrame {q : QNum} {a : Addr} {f : Mem} (h : s₀.Keeps s) (hf : s₀.Canonical → Mem.wf f = true) :
    s₀.Keeps (s.putFrame q a f) := by
  unfold State.putFrame
  split
  · exact (h.setLeaf hf).setXo.forgetIdent
  · exact h.writeT4
  · exact h

theorem State.Keeps.readT4s {q : QNum} {a : Addr} {count : Nat} (h : s₀.Keeps s) : s₀.Keeps (s.readT4s q a count) :=
  (.foldl h fun _ _ hs => by
    split
    · exact hs.readT4
    · exact hs)

theorem State.Keeps.senseT3 {q : QNum} {a : Addr} {count : Nat} (h : s₀.Keeps s) : s₀.Keeps (s.senseT3 q a count) := by
  unfold State.senseT3
  extract_lets
  split
  · exact .foldl h fun _ _ hs => hs.senseStripe
  · exact h

theorem State.Keeps.copyBody {q : QNum} {e : Entry} {t4 : List Byte} {wait : State → State} {done : State → Nat → Nat → State} (h : s₀.Keeps s) (hwait : ∀ (s : State), s₀.Keeps s → s₀.Keeps (wait s)) (hdone : ∀ (s : State) a1 a2, s₀.Keeps s → s₀.Keeps (done s a1 a2)) : s₀.Keeps (s.copyBody q e t4 wait done) := by
  unfold State.copyBody
  extract_lets
  split
  · next a b _ _ =>
    extract_lets _ frames s1
    have h1 : s₀.Keeps s1 := h.readT4s.senseT3
    have hframe (hc : s₀.Canonical) : ∀ p ∈ frames.zip (List.range (fieldLe e.bytes 24 4)), Mem.wf p.1 = true := by
      intro p hp
      obtain ⟨i, _, hi⟩ := List.mem_map.1 (List.of_mem_zip (a := p.1) (b := p.2) hp).1
      exact hi ▸ (h.canonical hc).copyFrame q a t4 i
    split
    · exact h.freezeEntry
    · exact h.freezeEntry
    · exact .ite (hdone _ _ _ h) (.ite h.freezeEntry (.ite (hwait _ h) (hdone _ _ _ (.foldlMem h1 fun _ p hp hs => hs.putFrame fun hc => hframe hc p hp))))
  · exact h.freezeEntry
  · exact h.freezeEntry

theorem State.Keeps.copy {q : QNum} {r : RingNum} {t4 : List Byte} (h : s₀.Keeps s) : s₀.Keeps (Machine.copy q r t4 s) := by
  unfold Machine.copy
  split
  · exact h.copyBody (fun _ hs => hs.startEntry) fun _ _ _ hs => hs.finishNow
  · exact h

theorem State.Keeps.hintLeaf {q : QNum} {a : Addr} {toTier urgency : Nat} (h : s₀.Keeps s) :
    s₀.Keeps (s.hintLeaf q a toTier urgency) := by
  unfold State.hintLeaf
  split
  · exact .ite h h.addHint
  · exact .ite h.poolPut h
  · exact h

theorem State.Keeps.migrateHint {q : QNum} {r : RingNum} (h : s₀.Keeps s) : s₀.Keeps (Machine.migrateHint q r s) := by
  unfold Machine.migrateHint
  split
  · extract_lets
    split
    · exact h.freezeEntry
    · extract_lets _ s1 s2
      have h1 : s₀.Keeps s1 := .ite h.senseT3 h
      have h2 : s₀.Keeps s2 := .foldl h1 fun _ _ hs => hs.hintLeaf
      split
      · exact h.freezeEntry
      · exact .ite h.freezeEntry h2.finishNow.serveHints
  · exact h

end Sys2Proof.Machine
end

section
/-! PROOFS. What every command keeps: runs, the sequencer, the library and the weave. -/

-- Short proofs that wait for one another, each on a thread of its own when run in parallel: one after another instead.
set_option Elab.async false

namespace Sys2Proof.Machine

variable {s₀ s : State}

/-! ### Lists and tables whose elements are changed in place -/

theorem Tab.rising_map_of {α : Type} {f : Nat × α → Nat × α} {t : Tab α} {lo : Nat} (hf : ∀ e, (f e).1 = e.1)
    (h : Tab.rising lo t = true) : Tab.rising lo (t.map f) = true := by
  rw [show f = fun e => (e.1, (f e).2) from funext fun e => Prod.ext (hf e) rfl]
  exact Tab.rising_map _ _ lo h

theorem moves_map_wf {l : List Move} {f : Move → Move} (h : (l.all fun m => Mem.wf m.frame) = true)
    (hf : ∀ m, Mem.wf m.frame = true → Mem.wf (f m).frame = true) : ((l.map f).all fun m => Mem.wf m.frame) = true := by
  rw [List.all_map]
  exact List.all_eq_true.2 fun m hm => hf m (List.all_eq_true.1 h m hm)

theorem Bay.Wf.addMove {x : Bay} {m : Move} (hx : x.Wf) (hm : Mem.wf m.frame = true) :
    Bay.Wf { x with moves := x.moves ++ [m] } :=
  { hx with moves := by simp [List.all_append, hx.moves, hm] }

/-! ### Runs -/

theorem State.Keeps.valFail {q : QNum} {e : Entry} {handle impNo : Nat} {c : Failure} {bay entry cycle : Nat} (h : s₀.Keeps s) :
    s₀.Keeps (s.valFail q e handle impNo c bay entry cycle) :=
  h.wrs.freeze

theorem State.Keeps.releaseRun {q : QNum} {id : Nat} (h : s₀.Keeps s) : s₀.Keeps (s.releaseRun q id) := by
  unfold State.releaseRun
  extract_lets
  exact h.zeroJob

theorem State.Keeps.queueSense {q : QNum} {g : Nat} {r : SenseReq} (h : s₀.Keeps s) : s₀.Keeps (s.queueSense q g r) := by
  unfold State.queueSense
  extract_lets
  exact (h.setWeave (fun hc => { h.weave hc with queues := (Tab.rising_put _ _ 0 (h.weave hc).queues (Nat.zero_le _)) }))

theorem State.Keeps.loadCache {q : QNum} {id le impNo : Nat} {rec_ : ImpRec} {rel : Nat} {b : BayNum} (h : s₀.Keeps s) :
    s₀.Keeps (s.loadCache q id le impNo rec_ rel b) := by
  unfold State.loadCache
  extract_lets _ s1
  have h1 : s₀.Keeps s1 := h.modBay fun _ hx => hx
  exact (.ite h (.foldl h1 fun _ _ hs => by
    split
    · exact hs.queueSense
    · exact hs))

theorem State.Keeps.judgeWake {q : QNum} {budget : Nat} (h : s₀.Keeps s) : s₀.Keeps (s.judgeWake q budget) := by
  unfold State.judgeWake
  extract_lets s1
  have h1 : s₀.Keeps s1 := h.modQuire fun _ hx => hx
  split
  · exact .ite h1.count h1
  · exact h

theorem State.Keeps.reservePlace {q : QNum} {id : Nat} {p : Place} {n : Nat} {t : State} (h : s₀.Keeps s)
    (ht : s.reservePlace q id p n = some t) : s₀.Keeps t := by
  unfold State.reservePlace at ht
  extract_lets l at ht
  split at ht
  · simp at ht
  · simp only [Option.some.injEq] at ht
    exact ht ▸ .foldl h fun _ _ hs => hs.cut.addExtent

theorem State.Keeps.reserveRun {q : QNum} {id slice commons : Nat} {bays : List BayNum} {t : State} (h : s₀.Keeps s)
    (ht : s.reserveRun q id bays slice commons = some t) : s₀.Keeps t := by
  have hfold (o : Option State) (ho : ∀ u, o = some u → s₀.Keeps u) :
      ∀ u, (bays.foldl (fun o b => o.bind fun s => s.reservePlace q id (.slice b) slice) o) = some u → s₀.Keeps u := by
    refine foldl_keeps (p := fun o : Option State => ∀ u, o = some u → s₀.Keeps u) ho fun o b ho u hu => ?_
    obtain ⟨v, hv, hu⟩ := Option.bind_eq_some_iff.1 hu
    exact (ho v hv).reservePlace hu
  unfold State.reserveRun at ht
  split at ht
  · simp at ht
  · exact hfold _ (fun _ hu => h.reservePlace hu) _ ht

theorem State.Keeps.startRun {q : QNum} {r : RingNum} {e : Entry} {le : Nat} {rec_ : ImpRec} {bays : List BayNum}
    {t4 : List Byte} (h : s₀.Keeps s) : s₀.Keeps (s.startRun q r e le rec_ bays t4) := by
  unfold State.startRun
  extract_lets _ _ _ _ _ _ _ _ _ _ s1
  have h1 : s₀.Keeps s1 := by
    unfold s1
    split
    · exact h.readT4s
    · exact h
  split
  · exact h.freezeEntry
  · extract_lets
    split
    · exact h1.valFail
    · split
      · exact h1.freezeEntry
      · next t ht =>
        extract_lets s2 s3 _ s4 s5
        have h2 : s₀.Keeps s2 := (h1.reserveRun ht).startEntry
        have h3 : s₀.Keeps s3 := h2.modQuire fun _ hx => hx
        have h4 : s₀.Keeps s4 := h3.setNv h3.nv
        have h5 : s₀.Keeps s5 := h4.judgeWake
        exact .foldl h5 fun _ _ hs => hs.loadCache

theorem State.Keeps.runImposition {q : QNum} {r : RingNum} {bindTable : List Byte} (h : s₀.Keeps s) :
    s₀.Keeps (Machine.runImposition q r bindTable s) := by
  unfold Machine.runImposition
  split
  · exact h
  · split
    · exact h.finishNow
    · exact h.freezeEntry
    · exact h
    · exact .ite h h.startRun

theorem State.Keeps.stampZero {q : QNum} {run : Nat} (h : s₀.Keeps s) : s₀.Keeps (Machine.stampZero q run s) := by
  unfold Machine.stampZero
  split
  · exact h
  · extract_lets s1
    have h1 : s₀.Keeps s1 := .foldl h fun _ _ hs => (hs.modBay fun _ hx => hx.atZero)
    exact .ite h h1.modRun.count

theorem State.Keeps.retireRun {q : QNum} {r : Run} (h : s₀.Keeps s) : s₀.Keeps (s.retireRun q r) := by
  unfold State.retireRun
  extract_lets s1 s2 _ s3
  have h1 : s₀.Keeps s1 := .foldl h fun _ _ hs => (hs.modBay fun _ hx => hx)
  have h2 : s₀.Keeps s2 := h1.modQuire fun _ hx => hx
  have h3 : s₀.Keeps s3 := h2.setNv h2.nv
  exact h3.releaseRun.dropStale

theorem State.Keeps.runComplete {q : QNum} {run us tail : Nat} {parity : Bool} (h : s₀.Keeps s) :
    s₀.Keeps (Machine.runComplete q run us tail parity s) := by
  unfold Machine.runComplete
  split
  · exact h
  · extract_lets s1 s2 s3
    have h1 : s₀.Keeps s1 := by
      unfold s1
      split
      · split
        · exact h.bayParity
        · exact h
      · exact h
    have h2 : s₀.Keeps s2 := h1.wrs
    have h3 : s₀.Keeps s3 := h2.retireRun
    exact .ite h h3.finish

/-! ### Sequencer -/

theorem State.Keeps.startSlip {d : Due} {c : Option SlipCause} (h : s₀.Keeps s) : s₀.Keeps (s.startSlip d c) :=
  h.modRun

theorem State.Keeps.modSeq {b : BayNum} {f : Seq → Seq} (h : s₀.Keeps s) : s₀.Keeps (s.modSeq b f) :=
  h.modBay fun _ hx => hx

theorem State.Keeps.advance {d : Due} (h : s₀.Keeps s) : s₀.Keeps (s.advance d) :=
  h.modSeq

theorem State.Keeps.issue {b : BayNum} {k : Kind} {f : Due → State → State} (h : s₀.Keeps s) (hf : ∀ a0 (s : State), s₀.Keeps s → s₀.Keeps (f a0 s)) : s₀.Keeps (s.issue b k f) := by
  unfold State.issue
  split
  · exact h
  · extract_lets
    split
    · exact h
    · split
      · exact h.startSlip
      · split
        · exact hf _ _ h.advance
        · exact h.startSlip
        · exact h.startSlip

theorem State.Keeps.issueUnit {b : BayNum} {k : Kind} {f : Issue → State → State} (h : s₀.Keeps s) (hf : ∀ a0 (s : State), s₀.Keeps s → s₀.Keeps (f a0 s)) : s₀.Keeps (s.issueUnit b k f) :=
  h.issue fun _ _ hs => (hf _ _ hs)

theorem State.Keeps.slipEnd {q : QNum} {run cycles : Nat} (h : s₀.Keeps s) : s₀.Keeps (Machine.slipEnd q run cycles s) := by
  unfold Machine.slipEnd
  split
  · exact h
  · split
    · extract_lets _ _ _ _ s1
      have h1 : s₀.Keeps s1 := h.modRun
      exact .ite h (.ite h h1.count.count)
    · exact h

theorem State.Keeps.noteEvent {b : BayNum} {slot : Nat} {c : SlipCause} {freed : Bool} (h : s₀.Keeps s) :
    s₀.Keeps (s.noteEvent b slot c freed) := by
  unfold State.noteEvent
  split
  · exact h
  · split
    · exact h
    · split
      · exact .ite h.modRun h
      · exact h

theorem State.Keeps.runError {q : QNum} {id : Nat} (h : s₀.Keeps s) : s₀.Keeps (s.runError q id) :=
  h.modRun

theorem State.Keeps.sramError {q : QNum} {id : Nat} (h : s₀.Keeps s) : s₀.Keeps (s.sramError q id) :=
  h.count.alert.runError

theorem State.Keeps.fabricError {q : QNum} {id : Nat} (h : s₀.Keeps s) : s₀.Keeps (s.fabricError q id) :=
  h.count.alert.runError

theorem State.Keeps.readDreg {b : BayNum} {res t : Nat} (h : s₀.Keeps s) : s₀.Keeps ((s.readDreg b res t).2.2) := by
  unfold State.readDreg
  extract_lets s1
  have h1 : s₀.Keeps s1 := h.modBay fun _ hx => hx.settleDregs
  exact h1

theorem State.Keeps.acceptedLength {d : Due} {c : Scope} (h : s₀.Keeps s) : s₀.Keeps ((s.acceptedLength d c).1) := by
  unfold State.acceptedLength
  extract_lets s1
  have h1 : s₀.Keeps s1.2.2 := h.readDreg
  split
  · exact h
  · split
    · exact h1
    · exact h1

theorem State.Keeps.violate {d : Due} {own : List Viol} (h : s₀.Keeps s) : s₀.Keeps (s.violate d own) := by
  unfold State.violate
  extract_lets
  split
  · exact h
  · extract_lets s1
    have h1 : s₀.Keeps s1 := by
      unfold s1
      split
      · exact h.valFail
      · exact h.freeze
    exact .foldl h1 fun _ _ hs => hs.freeze

theorem State.Keeps.issueChecked {b : BayNum} {k : Kind} {f : Due → State → State} (h : s₀.Keeps s) (hf : ∀ a0 (s : State), s₀.Keeps s → s₀.Keeps (f a0 s)) : s₀.Keeps (s.issueChecked b k f) :=
  h.issue fun _ _ hs => (.ite (hf _ _ hs) h.violate)

theorem State.Keeps.teBuild {b : BayNum} (h : s₀.Keeps s) : s₀.Keeps (Machine.teBuild b s) :=
  h.issueUnit fun _ _ hs => hs.opTeBuild

theorem State.Keeps.leaveScope {d : Due} {c : Scope} (h : s₀.Keeps s) : s₀.Keeps (s.leaveScope d c) :=
  h.modRun

theorem State.Keeps.stageFirst (h : s₀.Keeps s) : s₀.Keeps s.stageFirst :=
  .ite h h.comparisonStage

theorem State.Keeps.endBay {d : Due} (h : s₀.Keeps s) : s₀.Keeps (s.endBay d) := by
  unfold State.endBay
  extract_lets _ s1 s2
  have h1 : s₀.Keeps s1 := .ite h.stageFirst h
  have h2 : s₀.Keeps s2 := .foldl h1 fun _ _ hs => (.leaveScope (.ite hs hs.cancelScope))
  exact h2.modBay fun _ hx => hx

theorem State.Keeps.endForError {d : Due} (h : s₀.Keeps s) : s₀.Keeps (s.endForError d) :=
  .endBay (h.sramError.modBay fun _ hx => hx)

theorem State.Keeps.teLookup {b : BayNum} {e : BayErr} (h : s₀.Keeps s) : s₀.Keeps (Machine.teLookup b e s) :=
  (h.issue fun _ _ hs => by
    extract_lets _ s2 n f s3
    have h2 : s₀.Keeps s2 := .ite hs.bayParity.runError hs
    have h3 : s₀.Keeps s3 := h2.sramError.modBay fun _ hx => hx.setFrame rfl
    have hf (hc : s₀.Canonical) : Mem.wf f = true := (h2.canonical hc).frame _ _
    exact .ite h.endForError (.ite h.violate (.ite (h3.opTeLookup.modBayOf fun hc hx => hx.setFrame (hf hc)) h2.opTeLookup)))

theorem State.Keeps.teClear {b : BayNum} (h : s₀.Keeps s) : s₀.Keeps (Machine.teClear b s) :=
  h.issueUnit fun _ _ hs => hs.opTeClear

theorem State.Keeps.teRescale {b : BayNum} (h : s₀.Keeps s) : s₀.Keeps (Machine.teRescale b s) :=
  h.issueUnit fun _ _ hs => hs.opTeRescale

theorem State.Keeps.escApply {b : BayNum} (h : s₀.Keeps s) : s₀.Keeps (Machine.escApply b s) :=
  (h.issueChecked fun _ _ hs => by
    extract_lets
    exact hs.opEscApply)

theorem State.Keeps.lnsMulIssue {b : BayNum} (h : s₀.Keeps s) : s₀.Keeps (Machine.lnsMulIssue b s) :=
  h.issueUnit fun _ _ hs => hs.opLnsMul

theorem State.Keeps.lnsAddIssue {b : BayNum} (h : s₀.Keeps s) : s₀.Keeps (Machine.lnsAddIssue b s) :=
  h.issueUnit fun _ _ hs => hs.opLnsAdd

theorem State.Keeps.lnsReduceIssue {b : BayNum} (h : s₀.Keeps s) : s₀.Keeps (Machine.lnsReduceIssue b s) :=
  h.issueUnit fun _ _ hs => hs.opLnsReduce

theorem State.Keeps.lnsFromlinIssue {b : BayNum} (h : s₀.Keeps s) : s₀.Keeps (Machine.lnsFromlinIssue b s) :=
  h.issueUnit fun _ _ hs => hs.opLnsFromlin

theorem State.Keeps.lnsTolinIssue {b : BayNum} (h : s₀.Keeps s) : s₀.Keeps (Machine.lnsTolinIssue b s) :=
  h.issueUnit fun _ _ hs => hs.opLnsTolin

theorem State.Keeps.refFma {b : BayNum} (h : s₀.Keeps s) : s₀.Keeps (Machine.refFma b s) :=
  h.issueUnit fun _ _ hs => hs.opRefFma

theorem State.Keeps.refCast {b : BayNum} (h : s₀.Keeps s) : s₀.Keeps (Machine.refCast b s) :=
  h.issueUnit fun _ _ hs => hs.opRefCast

theorem State.Keeps.refTopk {b : BayNum} (h : s₀.Keeps s) : s₀.Keeps (Machine.refTopk b s) :=
  h.issueUnit fun _ _ hs => hs.opRefTopk

theorem State.Keeps.convPass1 {b : BayNum} (h : s₀.Keeps s) : s₀.Keeps (Machine.convPass1 b s) :=
  h.issueUnit fun _ _ hs => hs.opConvPass1

theorem State.Keeps.convPass2 {b : BayNum} (h : s₀.Keeps s) : s₀.Keeps (Machine.convPass2 b s) :=
  h.issueUnit fun _ _ hs => hs.opConvPass2

theorem State.Keeps.convCarry {b : BayNum} (h : s₀.Keeps s) : s₀.Keeps (Machine.convCarry b s) :=
  h.issueChecked fun _ _ hs => hs.opConvCarry

theorem State.Keeps.convStats {b : BayNum} (h : s₀.Keeps s) : s₀.Keeps (Machine.convStats b s) :=
  h.issueUnit fun _ _ hs => hs.opConvStats

theorem State.Keeps.occupyMover {b : BayNum} {e : Nat} {c : SlipCause} (h : s₀.Keeps s) : s₀.Keeps (s.occupyMover b e c) :=
  h.modBay fun _ hx => hx

theorem State.Keeps.noteRead {q : QNum} {a : Addr} (h : s₀.Keeps s) : s₀.Keeps (s.noteRead q a) := by
  unfold State.noteRead
  extract_lets s1
  have h1 : s₀.Keeps s1.2 := h.tickRead
  split
  · split
    · exact h1.setU
    · exact h
  · exact h1.setTiers h1.tiers
  · exact h

theorem State.Keeps.demandPromote {q : QNum} {a : Addr} (h : s₀.Keeps s) : s₀.Keeps (s.demandPromote q a) := by
  unfold State.demandPromote
  split
  · exact .ite h.addHint.serveHints h
  · exact h

theorem State.Keeps.markArriving {d : Due} {slot tag : Nat} {m : SlotMeta} (h : s₀.Keeps s) :
    s₀.Keeps (s.markArriving d slot tag m) :=
  h.modBay fun _ hx => hx.setSlot.setTag

theorem State.Keeps.movInExact {d : Due} {ls : List (Nat × Addr)} {occ : Nat} {path : Path} {zero : Bool} (h : s₀.Keeps s) :
    s₀.Keeps (s.movInExact d ls occ path zero) := by
  unfold State.movInExact
  extract_lets _ _ s1
  have h1 : s₀.Keeps s1 := (.foldl h fun _ _ hs => by
    extract_lets f _ _ s2
    have h2 : s₀.Keeps s2 := hs.markArriving
    have hf (hc : s₀.Canonical) : Mem.wf f.1 = true := (hs.canonical hc).sourceFrame _ _
    exact .demandPromote (.noteRead (h2.modBayOf fun hc hx =>
      hx.setFrame (ite_of (p := fun m => Mem.wf m = true) rfl (hf hc)))))
  exact h1.occupyMover

theorem State.Keeps.movInQueued {d : Due} {ls : List (Nat × Addr)} {path : Path} (h : s₀.Keeps s) :
    s₀.Keeps (s.movInQueued d ls path) := by
  unfold State.movInQueued
  extract_lets _ _ s1 s2 s3
  have h1 : s₀.Keeps s1 := (.foldl h fun _ _ hs => by
    extract_lets _ s2
    have h2 : s₀.Keeps s2 := hs.markArriving
    exact h2.modBay fun _ hx => hx.addMove rfl)
  have h2 : s₀.Keeps s2 := (.foldl h1 fun _ _ hs => by
    split
    · exact hs.readT4
    · exact hs)
  have h3 : s₀.Keeps s3 := h2.occupyMover
  split
  · extract_lets
    split
    · extract_lets
      exact (.foldl h3 fun _ _ hs => by
        split
        · exact hs.queueSense
        · exact hs)
    · exact h3
  · exact h3

theorem State.Keeps.movIn {b : BayNum} {e : MoveErr} (h : s₀.Keeps s) : s₀.Keeps (Machine.movIn b e s) :=
  (h.issueChecked fun _ _ hs => by
    extract_lets _ _ _ s2 _ s3 s4
    have h2 : s₀.Keeps s2 := .ite hs.count hs
    have h3 : s₀.Keeps s3 := .ite h2.sramError h2
    have h4 : s₀.Keeps s4 := .ite h3.fabricError h3
    split
    · exact h4.movInExact
    · exact h2.movInQueued)

theorem State.Keeps.tagRange {d : Due} {addr tag ident : Nat} (h : s₀.Keeps s) : s₀.Keeps (s.tagRange d addr tag ident) :=
  .ite h.modRun h

theorem State.Keeps.movOutLeaf {d : Due} {slot : Nat} {a : Addr} {j : Nat} {path : Path} {zero : Bool} (h : s₀.Keeps s) :
    s₀.Keeps (s.movOutLeaf d slot a j path zero) := by
  unfold State.movOutLeaf
  extract_lets i _ s1 f _ s2
  have h1 : s₀.Keeps s1.2 := h.readSlot
  have h2 : s₀.Keeps s2 := h1.tagRange
  have hf (hc : s₀.Canonical) : Mem.wf f = true :=
    ite_of (p := fun m => Mem.wf m = true) rfl ((h.canonical hc).readSlot i slot)
  split
  · exact (h2.leaveFrame hf).modBay fun _ hx => hx.modSlot
  · exact h2.modBayOf fun hc hx => hx.modSlot.addMove (hf hc)

theorem State.Keeps.movOut {b : BayNum} {e : MoveErr} (h : s₀.Keeps s) : s₀.Keeps (Machine.movOut b e s) :=
  (h.issueChecked fun _ _ hs => by
    extract_lets _ _ _ s2 s3 s4
    have h2 : s₀.Keeps s2 := .ite hs.sramError hs
    have h3 : s₀.Keeps s3 := .ite h2.fabricError h2
    have h4 : s₀.Keeps s4 := .foldl h3 fun _ _ hs => hs.movOutLeaf
    exact h4.occupyMover)

theorem State.Keeps.channelError {c : Fin 2} (h : s₀.Keeps s) : s₀.Keeps (s.channelError c) := by
  unfold State.channelError
  extract_lets _ _ _ _ _ s1 s2
  have h1 : s₀.Keeps s1 := h.setSec h.sec
  have h2 : s₀.Keeps s2 := h.setSec h.sec
  exact .ite (.ite h1.alert h1) (.ite h2.alert h2)

theorem State.Keeps.readErrors {q : QNum} {id : Nat} {a : Addr} {e : MoveErr} (h : s₀.Keeps s) :
    s₀.Keeps ((s.readErrors q id a e).2) := by
  unfold State.readErrors
  extract_lets _ s1
  have h1 : s₀.Keeps s1 := h.count.alert.runError
  split
  · split
    · exact .ite h.fabricError h
    · split
      · exact .ite h1.channelError.fabricError h1.channelError
      · exact .ite (.fabricError (.ite h.count h)) (.ite h.count h)
  · exact .ite (.fabricError (.ite h.sramError h)) (.ite h.sramError h)
  · exact .ite h.fabricError h

theorem State.Keeps.leafArrival {b : BayNum} {slot : Fin 64} {e : MoveErr} (h : s₀.Keeps s) :
    s₀.Keeps (Machine.leafArrival b slot e s) := by
  unfold Machine.leafArrival
  split
  · exact h
  · extract_lets ms _ _ s1
    have h1 : s₀.Keeps s1 := .ite h.fabricError h
    split
    · exact h
    · next m hm =>
      have hframe (hc : s₀.Canonical) : Mem.wf m.frame = true :=
        List.all_eq_true.1 (h.bay b hc).moves m (List.mem_of_find?_eq_some hm)
      split
      · exact h
      · split
        · exact h
        · extract_lets s2 src f s3 s4
          have h2 : s₀.Keeps s2.2 := h.readErrors
          have hf (hc : s₀.Canonical) : Mem.wf f = true :=
            ite_of (p := fun m => Mem.wf m = true) (Mem.ofList_wf _) ((h.canonical hc).sourceFrame _ _)
          have h3 : s₀.Keeps s3 := .noteRead (h2.modBayOf fun hc hx =>
            (hx.deliver (ite_of (p := fun m => Mem.wf m = true) rfl (hf hc))).dropMove)
          have h4 : s₀.Keeps s4 := .ite h3.demandPromote
            ((h1.leaveFrame fun hc => ite_of (p := fun m => Mem.wf m = true) rfl (hframe hc)).modBay fun _ hx =>
              hx.modSlot.dropMove)
          exact h4.noteEvent

theorem State.Keeps.stream {b : BayNum} (h : s₀.Keeps s) : s₀.Keeps (Machine.stream b s) :=
  (h.issueChecked fun _ _ hs => by
    extract_lets _ _ _ _ _ _ _ s2 s3
    have h2 : s₀.Keeps s2 := .foldl hs fun _ _ hs => hs.markArriving
    have h3 : s₀.Keeps s3 := .ite h2 h2.modRun
    split
    · exact hs
    · exact h3.queueSense)

theorem State.Keeps.waitStitch {b : BayNum} (h : s₀.Keeps s) : s₀.Keeps (Machine.waitStitch b s) :=
  (h.issueChecked fun _ _ hs => by
    extract_lets
    exact hs.modSeq.startWait)

theorem State.Keeps.signalStitch {b : BayNum} (h : s₀.Keeps s) : s₀.Keeps (Machine.signalStitch b s) :=
  h.issueChecked fun _ _ hs => hs.signal

theorem State.Keeps.seqWaitTimeout {b : BayNum} (h : s₀.Keeps s) : s₀.Keeps (Machine.seqWaitTimeout b s) := by
  unfold Machine.seqWaitTimeout
  split
  · split
    · exact .ite h.modSeq.expireWait h
    · exact h
  · exact h

theorem State.Keeps.takeArm {d : Due} {a : Nat} (h : s₀.Keeps s) : s₀.Keeps (s.takeArm d a) := by
  unfold State.takeArm
  extract_lets
  split
  · exact h
  · exact h.modSeq

theorem State.Keeps.forkFirst {d : Due} {us : Nat} {go : State → Nat → State} (h : s₀.Keeps s) (hgo : ∀ (s : State) a1, s₀.Keeps s → s₀.Keeps (go s a1)) : s₀.Keeps (Machine.fork.forkFirst d us s go) := by
  unfold Machine.fork.forkFirst
  extract_lets _ s1 s2
  have h1 : s₀.Keeps s1.2.2 := h.readDreg
  have h2 : s₀.Keeps s2 := h1
  split
  · exact h2.violate
  · split
    · exact h2.violate
    · extract_lets s3
      have h3 : s₀.Keeps s3 := h2.modRun
      exact hgo _ _ (.ite h3.count h3)

theorem State.Keeps.fork {b : BayNum} {us : Nat} (h : s₀.Keeps s) : s₀.Keeps (Machine.fork b us s) :=
  (h.issue fun _ _ hs => by
    extract_lets
    split
    · exact .ite h.takeArm.modSeq (h.forkFirst fun _ _ hs => hs.takeArm.modSeq)
    · exact (h.forkFirst fun _ _ hs => hs.takeArm.modSeq))

theorem State.Keeps.specBegin {b : BayNum} (h : s₀.Keeps s) : s₀.Keeps (Machine.specBegin b s) :=
  (h.issue fun _ _ hs => by
    extract_lets
    exact hs.modRun)

theorem State.Keeps.voidGroups {q : QNum} {r : Run} {c : Scope} {n : Nat} (h : s₀.Keeps s) : s₀.Keeps (s.voidGroups q r c n) := by
  unfold State.voidGroups
  extract_lets
  split
  · exact h
  · extract_lets _ s1 s2
    have h1 : s₀.Keeps s1 := .foldl h fun _ _ hs => hs.voidLeaf
    have h2 : s₀.Keeps s2 := .foldl h1 fun _ _ hs => hs.modBay fun _ hx => { hx with
      moves := moves_map_wf hx.moves fun _ hm => ite_of (p := fun m : Move => Mem.wf m.frame = true) rfl hm }
    exact h2.modRun

theorem State.Keeps.settleRequests {q : QNum} {run sc : Nat} (h : s₀.Keeps s) : s₀.Keeps (s.settleRequests q run sc) := by
  unfold State.settleRequests
  extract_lets
  exact h.setWeave (fun hc => { h.weave hc with queues := Tab.rising_map_of (fun _ => by split <;> rfl) (h.weave hc).queues })

theorem State.Keeps.commitScope {q : QNum} {r : Run} {c : Scope} (h : s₀.Keeps s) : s₀.Keeps (s.commitScope q r c) := by
  unfold State.commitScope
  extract_lets s1 s2 _ s3 _ s4 s5
  have h1 : s₀.Keeps s1 := (.foldl h fun _ _ hs => (hs.modBay fun _ hx => { hx with moves := moves_map_wf hx.moves fun _ hm => hm, tags := (Tab.rising_tagsDrop _ hx.tags) }))
  have h2 : s₀.Keeps s2 := h1.settleRequests
  have h3 : s₀.Keeps s3 := h2.modRun
  have h4 : s₀.Keeps s4 := (.foldl h3 fun _ _ hs => by
    split
    · split
      · exact hs.poolPut
      · exact hs
    · exact hs)
  have h5 : s₀.Keeps s5 := .foldl h4 fun _ _ hs => hs.setStitch
  exact h5.countClose

theorem State.Keeps.specCommit {b : BayNum} (h : s₀.Keeps s) : s₀.Keeps (Machine.specCommit b s) :=
  (h.issueChecked fun d t hs => by
    split
    · exact hs
    · next c _ =>
      split
      · exact hs.leaveScope
      · have ht : s₀.Keeps (t.acceptedLength d c).1 := hs.acceptedLength
        generalize t.acceptedLength d c = r at ht ⊢
        obtain ⟨u, _ | ⟨n, past⟩⟩ := r
        · exact ht
        · have h2 : s₀.Keeps (if past then u.stageFirst.count (Key.qSpecOverrange d.q) else u.stageFirst) :=
            .ite (State.Keeps.stageFirst ht).count (State.Keeps.stageFirst ht)
          exact .leaveScope (.commitScope (.ite h2.voidGroups.count h2)))

theorem State.Keeps.specCancel {b : BayNum} (h : s₀.Keeps s) : s₀.Keeps (Machine.specCancel b s) :=
  (h.issue fun _ _ hs => by
    extract_lets s2
    have h2 : s₀.Keeps s2 := hs.stageFirst
    split
    · exact hs
    · exact (.ite hs.leaveScope h2.cancelScope.leaveScope))

theorem State.Keeps.precisionFence {b : BayNum} (h : s₀.Keeps s) : s₀.Keeps (Machine.precisionFence b s) :=
  h.issue fun _ _ hs => (hs.modBay fun _ hx => hx)

theorem State.Keeps.maintSlot {b : BayNum} (h : s₀.Keeps s) : s₀.Keeps (Machine.maintSlot b s) :=
  (h.issue fun _ _ hs => (.foldl hs fun _ _ hs => by
    extract_lets
    exact (hs.setWeave (fun hc => { hs.weave hc with lent := (Tab.rising_set (hs.weave hc).lent _ _ _) }))))

theorem State.Keeps.loop {b : BayNum} (h : s₀.Keeps s) : s₀.Keeps (Machine.loop b s) :=
  (h.issue fun _ _ hs => by
    extract_lets
    exact hs.modSeq)

theorem State.Keeps.idle {b : BayNum} (h : s₀.Keeps s) : s₀.Keeps (Machine.idle b s) :=
  h.issue fun _ _ hs => hs.modSeq

theorem State.Keeps.endStream {b : BayNum} (h : s₀.Keeps s) : s₀.Keeps (Machine.endStream b s) :=
  h.issue fun _ _ hs => hs.endBay

theorem State.Keeps.deadlineExceeded {q : QNum} {run : Nat} (h : s₀.Keeps s) : s₀.Keeps (Machine.deadlineExceeded q run s) := by
  unfold Machine.deadlineExceeded
  split
  · exact h
  · extract_lets
    split
    · exact h
    · exact .ite h h.freeze

/-! ### Library -/

theorem State.Keeps.programFirst {e n : Nat} {frames : Mem} (h : s₀.Keeps s) (hf : s₀.Canonical → Mem.wf frames = true) :
    s₀.Keeps (s.programFirst e n frames) := by
  unfold State.programFirst
  extract_lets x
  refine .foldl h fun t k hs => ?_
  split
  · next g _ =>
    have ht : s₀.Keeps (t.programRow g (Mem.slice frames (32 * k * leafBytes) (32 * leafBytes))).2 :=
      hs.programRow fun hc => Mem.slice_wf _ _ _ (hf hc)
    generalize t.programRow g _ = r at ht ⊢
    obtain ⟨_ | n, u⟩ := r
    · exact ht
    · exact ht.setLib
  · exact hs

theorem State.Keeps.programStripes {e : Nat} {frames : Mem} (h : s₀.Keeps s) (hf : s₀.Canonical → Mem.wf frames = true) :
    s₀.Keeps (s.programStripes e frames) :=
  h.programFirst hf

theorem State.Keeps.aptRefuse {key cause i : Nat} {o : Output} (h : s₀.Keeps s) : s₀.Keeps (s.aptRefuse key cause i o) :=
  h.count.wrs.emit

theorem State.Keeps.dropAperture {e : Nat} (h : s₀.Keeps s) : s₀.Keeps (s.dropAperture e) := by
  unfold State.dropAperture
  extract_lets _ _ s1
  have h1 : s₀.Keeps s1 := (h.setWeave (fun hc => { h.weave hc with aptQueue := (Tab.rising_mapVals _ _ (h.weave hc).aptQueue) }))
  exact .foldl h1 fun _ _ hs => hs.aptRefuse

theorem State.Keeps.emptyEntry {e : Nat} (h : s₀.Keeps s) : s₀.Keeps (s.emptyEntry e) :=
  h.setLib.endWorker.dropAperture.closeBands.dropStale

theorem State.Keeps.libraryRemoval {e : Fin 64} (h : s₀.Keeps s) : s₀.Keeps (Machine.libraryRemoval e s) :=
  .ite h.emptyEntry h

theorem State.Keeps.libRemoveWrite {e : Nat} (h : s₀.Keeps s) : s₀.Keeps ((Machine.libRemoveWrite e s).2) := by
  unfold Machine.libRemoveWrite
  split
  · exact h
  · split
    · exact h
    · exact h.ifIdle fun _ hs => hs.setLib.cmdDone

theorem State.Keeps.queueTl {g : Nat} {x : TlSense} (h : s₀.Keeps s) : s₀.Keeps (s.queueTl g x) :=
  h.setWeave (fun hc => { h.weave hc with tlQueue := (Tab.rising_set (h.weave hc).tlQueue _ _ _) })

theorem State.Keeps.relocateEntry {g e : Nat} (h : s₀.Keeps s) : s₀.Keeps (s.relocateEntry g e) := by
  unfold State.relocateEntry
  extract_lets
  exact .ite h (.ite h.setLib (.foldl h.setLib fun _ _ hs => hs.queueTl))

theorem State.Keeps.retireBank {die bank : Nat} (h : s₀.Keeps s) : s₀.Keeps (s.retireBank die bank) := by
  unfold State.retireBank
  extract_lets _ _ _ s1
  have h1 : s₀.Keeps s1 := .alert (h.setNv h.nv)
  exact .ite h (.ite (.foldl h1 fun _ _ hs => hs.relocateEntry) h1)

theorem State.Keeps.relocated {e : Nat} (h : s₀.Keeps s) : s₀.Keeps (s.relocated e) := by
  unfold State.relocated
  extract_lets
  split
  · exact h.setLib
  · extract_lets s1 s2
    have h1 : s₀.Keeps s1 := h.setLib
    have h2 : s₀.Keeps s2 := (h1.programStripes fun hc => (h.canonical hc).libFrames _).closeBands
    exact (.foldl h2 fun _ _ hs => by
      extract_lets
      exact hs.wr)

theorem State.Keeps.planeFails {die bank : Nat} (h : s₀.Keeps s) : s₀.Keeps (s.planeFails die bank) := by
  unfold State.planeFails
  extract_lets
  exact (.ite (.alert (h.setNv (fun hc => { h.nv hc with sparesUsed := (Tab.rising_set (h.nv hc).sparesUsed _ _ _) }))) h.retireBank)

theorem State.Keeps.badBlock {g k n : Nat} (h : s₀.Keeps s) : s₀.Keeps (s.badBlock g k n) := by
  unfold State.badBlock
  extract_lets _ s1
  have h1 : s₀.Keeps s1 := h.setBlock
  exact .ite h1.retireBank h1

/-! ### Weave -/

theorem State.Keeps.setMove {m : BandMove} (h : s₀.Keeps s) : s₀.Keeps (s.setMove m) :=
  h.setNv h.nv

theorem State.Keeps.startBandMove {g : Nat} (h : s₀.Keeps s) : s₀.Keeps (s.startBandMove g) := by
  unfold State.startBandMove
  split
  · split
    · exact h
    · extract_lets r
      have hr : s₀.Keeps r.2 := .foldl_snd h fun p k hs => by
        have ht : s₀.Keeps (p.2.takeBlock g k).2 := hs.takeBlock
        generalize p.2.takeBlock g k = u at ht ⊢
        obtain ⟨_ | n, v⟩ := u
        · exact ht
        · exact ht
      exact hr.setMove.jStart
  · exact h

theorem State.Keeps.pushSensed {g : Nat} {u : SlotUse} (h : s₀.Keeps s) : s₀.Keeps (s.pushSensed g u) :=
  h.setWeave (fun hc => { h.weave hc with sensed := (Tab.rising_set (h.weave hc).sensed _ _ _) })

theorem State.Keeps.popQueue {q : QNum} {g : Nat} (h : s₀.Keeps s) : s₀.Keeps (s.popQueue q g) := by
  unfold State.popQueue
  extract_lets
  exact (h.setWeave (fun hc => { h.weave hc with queues := (Tab.rising_set (h.weave hc).queues _ _ _) }))

theorem State.Keeps.useAperture {g : Nat} {counts : Bool} (h : s₀.Keeps s) : s₀.Keeps (s.useAperture g counts) := by
  unfold State.useAperture
  extract_lets
  split
  · exact h
  · extract_lets s1
    have h1 : s₀.Keeps s1 := (h.setWeave (fun hc => { h.weave hc with aptUsed := (ite_of (p := fun m => Tab.rising 0 m = true) (Tab.rising_set (h.weave hc).aptUsed _ _ _) (h.weave hc).aptUsed), aptQueue := (Tab.rising_set (h.weave hc).aptQueue _ _ _) }))
    exact h1.senseStripe.pushSensed

theorem State.Keeps.stepStart {g : Nat} {w : Worker} (h : s₀.Keeps s) : s₀.Keeps (s.stepStart g w) := by
  unfold State.stepStart
  split
  · exact .ite h h.jStart
  · exact h

theorem loads_map_wf {l : List Load} {f : Load → Load} (h : (l.all fun x => Mem.wf x.body) = true)
    (hf : ∀ x, Mem.wf x.body = true → Mem.wf (f x).body = true) : ((l.map f).all fun x => Mem.wf x.body) = true := by
  rw [List.all_map]
  exact List.all_eq_true.2 fun x hx => hf x (List.all_eq_true.1 h x hx)

theorem train_map_wf {o : Option Train} {f : Train → Train} (h : (o.all fun t => Mem.wf t.frames) = true)
    (hf : ∀ t, Mem.wf t.frames = true → Mem.wf (f t).frames = true) : ((o.map f).all fun t => Mem.wf t.frames) = true := by
  cases o with
  | none => rfl
  | some t => exact hf t h

theorem State.Keeps.turnDone {g : Nat} {w : Worker} (h : s₀.Keeps s) : s₀.Keeps (s.turnDone g w) := by
  unfold State.turnDone
  extract_lets
  split
  · exact h
  · extract_lets s1
    have h1 : s₀.Keeps s1 := h.setNv (fun hc => { h.nv hc with loads := loads_map_wf (h.nv hc).loads fun l hl => ite_of (p := fun l : Load => Mem.wf l.body = true) hl hl })
    exact .foldl h1 fun _ _ hs => (hs.modQuire fun _ hx => { hx with train := train_map_wf hx.train fun t ht => ite_of (p := fun t : Train => Mem.wf t.frames = true) ht ht })
  · split
    · exact h.setMove
    · exact h
  · exact h.eraseBlockAt.jEnd

theorem State.Keeps.mayEnd (h : s₀.Keeps s) : s₀.Keeps ((s.mayEnd).2) :=
  h.fresh

theorem State.Keeps.pressStep {g : Nat} {maint : Bool} (h : s₀.Keeps s) : s₀.Keeps (s.pressStep g maint) := by
  unfold State.pressStep
  extract_lets
  split
  · exact h
  · split
    · exact h
    · extract_lets s1
      have h1 : s₀.Keeps s1 := h.stepStart.setWeave h.weave
      split
      · exact h1
      · exact .ite h1.mayEnd.turnDone h1.mayEnd

theorem State.Keeps.endTurns {g : Nat} (h : s₀.Keeps s) : s₀.Keeps (s.endTurns g) :=
  .foldl h fun _ _ hs => (.ite hs.mayEnd.endUnit.turnDone hs.mayEnd)

theorem State.Keeps.startTurns {g : Nat} (h : s₀.Keeps s) : s₀.Keeps (s.startTurns g) := by
  unfold State.startTurns
  split
  · exact h
  · split
    · exact .ite h.mayEnd.addUnit h.mayEnd
    · exact h

theorem State.Keeps.useTl {g : Nat} {x : TlSense} (h : s₀.Keeps s) : s₀.Keeps (s.useTl g x) := by
  unfold State.useTl
  extract_lets
  split
  · exact h.readBand.pushSensed
  · exact (.pushSensed (.senseStripe (h.setWeave (fun hc => { h.weave hc with tlQueue := (Tab.rising_set (h.weave hc).tlQueue _ _ _) }))))
  · exact (.pushSensed (.senseStripe (h.setWeave (fun hc => { h.weave hc with tlQueue := (Tab.rising_set (h.weave hc).tlQueue _ _ _) }))))

theorem State.Keeps.useMaint {g : Nat} {lent : Bool} (h : s₀.Keeps s) : s₀.Keeps (s.useMaint g lent) := by
  unfold State.useMaint
  extract_lets s1
  have h1 : s₀.Keeps s1 := h.startBandMove
  split
  · exact h1.useAperture
  · split
    · exact .ite h1 h1.useTl
    · exact .ite h1.useAperture h1.pressStep

theorem State.Keeps.useFree {g : Nat} (h : s₀.Keeps s) : s₀.Keeps (s.useFree g) :=
  .ite h.useAperture h.pressStep

theorem State.Keeps.busyFreeze {q : QNum} {b : BayNum} {run idx : Nat} (h : s₀.Keeps s) :
    s₀.Keeps (s.busyFreeze q b run idx) := by
  unfold State.busyFreeze
  split
  · exact h.freeze
  · exact h

theorem State.Keeps.useOwned {q : QNum} {g : Nat} (h : s₀.Keeps s) : s₀.Keeps (s.useOwned q g) := by
  unfold State.useOwned
  extract_lets
  split
  · exact h.useFree
  · split
    · exact (.useMaint (h.setWeave (fun hc => { h.weave hc with lent := (Tab.rising_set (h.weave hc).lent _ _ _) })))
    · split
      · exact h.useFree
      · split
        · split
          · exact h.busyFreeze
          · exact h
        · exact .ite h h.popQueue.senseStripe.pushSensed

theorem State.Keeps.useSlot {g : Nat} (h : s₀.Keeps s) : s₀.Keeps (s.useSlot g) := by
  unfold State.useSlot
  extract_lets
  split
  · split
    · exact h.useTl
    · exact h
  · exact .dite (fun _ => h.useOwned) (fun _ => (.ite h.useMaint h.useFree))

theorem State.Keeps.slotUses (h : s₀.Keeps s) : s₀.Keeps s.slotUses := by
  unfold State.slotUses
  extract_lets _ s1 _ s2 s3 s4 s5
  have h1 : s₀.Keeps s1 := h.setWeave h.weave
  have h2 : s₀.Keeps s2 := .ite (h1.rest.setWeave (fun hc => { h1.weave hc with aptUsed := rfl })) h1
  have h3 : s₀.Keeps s3 := .foldl h2 fun _ _ hs => hs.endTurns
  have h4 : s₀.Keeps s4 := .foldl h3 fun _ _ hs => hs.useSlot
  have h5 : s₀.Keeps s5 := .foldl h4 fun _ _ hs => hs.startTurns
  exact h5.setWeave h5.weave

theorem State.Keeps.slotLeaf {b : BayNum} {slot e n : Nat} {zero : Bool} (h : s₀.Keeps s) :
    s₀.Keeps (s.slotLeaf b slot e n zero) :=
  .noteEvent (h.modBayOf fun hc hx => (hx.deliver (ite_of (p := fun m => Mem.wf m = true) rfl ((h.canonical hc).libFrame _ _))))

theorem State.Keeps.zeroCacheLeaf {q : QNum} {b : BayNum} {run e n : Nat} (h : s₀.Keeps s) :
    s₀.Keeps (s.zeroCacheLeaf q b run e n) := by
  unfold State.zeroCacheLeaf
  split
  · exact h
  · split
    · exact h
    · extract_lets
      exact .ite h h.modRun

theorem State.Keeps.deliverReq {q : QNum} {r : SenseReq} {leaves : List Nat} {zero : Bool} (h : s₀.Keeps s) :
    s₀.Keeps (s.deliverReq q r leaves zero) := by
  unfold State.deliverReq
  split
  · exact .ite (.foldl h fun _ _ hs => hs.slotLeaf) h
  · exact (.ite h (.foldl h fun _ _ hs => by
      extract_lets _ _ s2 _ _ s3 s4
      have h2 : s₀.Keeps s2 := hs.slotLeaf
      have h3 : s₀.Keeps s3 := h2.modBay fun _ hx => { hx with moves := all_filter_of hx.moves }
      have h4 : s₀.Keeps s4 := h3.noteEvent
      exact (.ite h4 h4.poolPut.noteRead)))
  · extract_lets s1
    have h1 : s₀.Keeps s1 := .ite (.foldl h fun _ _ hs => hs.zeroCacheLeaf) h
    split
    · exact .ite h1 (h1.modBay fun _ hx => hx)
    · exact h1

theorem State.Keeps.moveStripe {e k : Nat} (h : s₀.Keeps s) : s₀.Keeps (s.moveStripe e k) := by
  unfold State.moveStripe
  split
  · exact h.queueMove
  · exact h

theorem State.Keeps.rescueStripe {e k : Nat} (h : s₀.Keeps s) : s₀.Keeps (s.rescueStripe e k) := by
  unfold State.rescueStripe
  split
  · exact h.queueRescue
  · exact h

theorem State.Keeps.deliverQueue {g : Nat} {q : QNum} {r : SenseReq} {f : SenseFacts} (h : s₀.Keeps s) :
    s₀.Keeps (s.deliverQueue g q r f) := by
  unfold State.deliverQueue
  extract_lets _ _ s1 _ _ s2 s3 s4 s5 s6
  have h1 : s₀.Keeps s1 := h.count.moveStripe
  have h2 : s₀.Keeps s2 := (h1.setWeave (fun hc => { h1.weave hc with queues := (Tab.rising_put _ _ 0 (h1.weave hc).queues (Nat.zero_le _)) }))
  have h3 : s₀.Keeps s3 := h.count.alert
  have h4 : s₀.Keeps s4 := by
    unfold s4
    split
    · exact h3.runError
    · exact h3
  have h5 : s₀.Keeps s5 := h4.deliverReq.deliverReq
  have h6 : s₀.Keeps s6 := by
    unfold s6
    split
    · split
      · exact h5
      · split
        · exact h5.modBay fun _ hx => hx
        · exact h5
    · exact h5
  exact .ite h.deliverReq (.ite h2.deliverReq h6.rescueStripe)

theorem State.Keeps.sensedStripe {e k : Nat} {bad : List Nat} (h : s₀.Keeps s) : s₀.Keeps ((s.sensedStripe e k bad).2) :=
  (.foldl_snd h fun _ _ hs => by
    split
    · exact hs.fresh
    · exact hs)

theorem State.Canonical.sensedStripe {s : State} (hs : s.Canonical) (e k : Nat) (bad : List Nat) :
    Mem.wf (s.sensedStripe e k bad).1 = true := by
  have hk : s.Keeps s := .refl s
  refine (foldl_keeps (p := fun p : Mem × State => s.Keeps p.2 ∧ Mem.wf p.1 = true) ⟨hk, rfl⟩ fun p n hp => ?_).2
  obtain ⟨hp, hm⟩ := hp
  split
  · exact ⟨hp.fresh, Mem.setLeaf_wf _ _ _ hm (Mem.ofList_wf _)⟩
  · exact ⟨hp, Mem.setLeaf_wf _ _ _ hm ((hp.canonical hs).libFrame _ _)⟩

theorem aptBuf_wf {a : AptStripe} {l : List AptStripe} {f : AptStripe → Bool} {n : Nat} (ha : Mem.wf a.frames = true)
    (h : (l.all fun a => Mem.wf a.frames) = true) : (((a :: l.filter f).take n).all fun a => Mem.wf a.frames) = true := by
  refine List.all_eq_true.2 fun x hx => ?_
  rcases List.mem_cons.1 (List.mem_of_mem_take hx) with rfl | hx
  · exact ha
  · exact List.all_eq_true.1 h x (List.mem_filter.1 hx).1

theorem State.Keeps.completeApt {e k : Nat} {bad : List Nat} (h : s₀.Keeps s) : s₀.Keeps (s.completeApt e k bad) := by
  unfold State.completeApt
  extract_lets s1 s2 _ _ _ _ s3
  have h1 : s₀.Keeps s1.2 := h.sensedStripe
  have h2 : s₀.Keeps s2 := h1
  have h3 : s₀.Keeps s3 := h2.setWeave (fun hc => { h2.weave hc with aptBuf := aptBuf_wf ((h.canonical hc).sensedStripe e k bad) (h2.weave hc).aptBuf })
  exact .foldl h3 fun _ _ hs => hs.emit

theorem State.Keeps.deliverUse {g : Nat} {u : SlotUse} {f : SenseFacts} (h : s₀.Keeps s) : s₀.Keeps (s.deliverUse g u f) := by
  unfold State.deliverUse
  extract_lets
  split
  · exact .ite h.deliverQueue.moveStripe h.deliverQueue
  · extract_lets s1 s2
    have h1 : s₀.Keeps s1 := .ite h.moveStripe h
    have h2 : s₀.Keeps s2 := .ite h1 h1.count.alert.rescueStripe
    exact .ite h2 h2.completeApt
  · split
    · exact .ite h.setMove h
    · exact h
  · exact .ite h.moveStripe h
  · exact .ite h.relocated h

theorem State.Keeps.stripeDelivery {g : GroupNum} {f : SenseFacts} (h : s₀.Keeps s) :
    s₀.Keeps (Machine.stripeDelivery g f s) := by
  unfold Machine.stripeDelivery
  extract_lets
  split
  · exact h
  · extract_lets s1 s2
    have h1 : s₀.Keeps s1 := (h.setWeave (fun hc => { h.weave hc with sensed := (Tab.rising_set (h.weave hc).sensed _ _ _) }))
    have h2 : s₀.Keeps s2 := h1.count.deliverUse
    exact .ite h (.foldl h2 fun _ _ hs => hs.planeFails)

theorem State.Keeps.wipeLeaf {e n : Nat} (h : s₀.Keeps s) : s₀.Keeps (s.wipeLeaf e n) := by
  unfold State.wipeLeaf
  extract_lets
  split
  · extract_lets
    exact (h.setNv (fun hc => { h.nv hc with main := (Mem.clear_wf _ _ _ (Mem.clear_wf _ _ _ (h.nv hc).main)) }))
  · exact h

theorem State.Keeps.loseLeaf {e n : Nat} (h : s₀.Keeps s) : s₀.Keeps (s.loseLeaf e n) := by
  unfold State.loseLeaf
  extract_lets
  exact .ite h h.wipeLeaf.setLib.count

theorem State.Keeps.remap {m : BandMove} (h : s₀.Keeps s) : s₀.Keeps (s.remap m) := by
  unfold State.remap
  extract_lets _ _ _ s1 s2 s3 _ s4 _ s5
  have h1 : s₀.Keeps s1 := .foldl h fun _ _ hs => hs.copyBlock
  have h2 : s₀.Keeps s2 := .foldl h1 fun _ _ hs => hs.mapBlock
  have h3 : s₀.Keeps s3 := .foldl h2 fun _ _ hs => hs.dirtyBlock
  have h4 : s₀.Keeps s4 := h3.setBand
  have h5 : s₀.Keeps s5 := h4.setNv h4.nv
  exact h5.jEnd.count

theorem State.Keeps.countMove {m : BandMove} {lost : List (Nat × Nat)} (h : s₀.Keeps s) : s₀.Keeps (s.countMove m lost) := by
  unfold State.countMove
  extract_lets s1
  have h1 : s₀.Keeps s1 := .ite h.count h
  exact .ite (.foldl h1.count fun _ _ hs => hs.loseLeaf) h1

theorem State.Keeps.scrubPass (h : s₀.Keeps s) : s₀.Keeps (Machine.scrubPass s) := by
  unfold Machine.scrubPass
  extract_lets s1
  have h1 : s₀.Keeps s1 := .foldl h fun _ _ hs => (.ite hs hs.readBand)
  exact .ite h (h1.setNv h1.nv)

theorem State.Keeps.queueAperture {e k : Nat} (h : s₀.Keeps s) : s₀.Keeps (s.queueAperture e k) := by
  unfold State.queueAperture
  extract_lets
  split
  · extract_lets
    exact (.ite h (h.setWeave (fun hc => { h.weave hc with aptQueue := (Tab.rising_set (h.weave hc).aptQueue _ _ _) })))
  · exact h

theorem State.Keeps.aptLeaf {i j len : Nat} (h : s₀.Keeps s) : s₀.Keeps (s.aptLeaf i j len) := by
  unfold State.aptLeaf
  extract_lets
  split
  · exact h.aptRefuse
  · split
    · exact h.aptRefuse
    · split
      · extract_lets s1
        have h1 : s₀.Keeps s1 := h.emit
        exact .ite h1.queueAperture h1
      · exact .ite h.aptRefuse (.queueAperture (h.setWeave h.weave))

theorem State.Keeps.aptRead {off len : Nat} (h : s₀.Keeps s) : s₀.Keeps (s.aptRead off len) := by
  unfold State.aptRead
  extract_lets
  exact (.foldl h fun _ _ hs => by
    extract_lets
    exact hs.aptLeaf)

end Sys2Proof.Machine
end

section
/-! PROOFS. The OTP row: an OR of eight bytes clears nothing (R590). -/

-- Short proofs that wait for one another, each on a thread of its own when run in parallel: one after another instead.
set_option Elab.async false

namespace Sys2Proof.Machine

/-! ### The OTP row: an OR of eight bytes clears nothing -/

theorem natLe_getD (n : Nat) : ∀ v i : Nat, i < n → (natLe n v).getD i 0 = BitVec.ofNat 8 (v / 256 ^ i) := by
  induction n with
  | zero => intro v i hi; omega
  | succ n ih =>
    intro v i hi
    cases i with
    | zero => simp [natLe]
    | succ i =>
      have hstep := ih (v / 256) i (by omega)
      rw [Nat.div_div_eq_div_mul, show 256 * 256 ^ i = 256 ^ (i + 1) by rw [Nat.pow_succ, Nat.mul_comm]] at hstep
      simpa [natLe] using hstep

theorem Mem.read_of_readLe (m : Mem) (n : Nat) : ∀ a i : Nat, i < n →
    (Mem.read m (a + i)).toNat = Mem.readLe m a n / 256 ^ i % 256 := by
  induction n with
  | zero => intro a i hi; omega
  | succ n ih =>
    intro a i hi
    cases i with
    | zero => simpa using Mem.read_eq_readLe m a n
    | succ i =>
      have hbyte : (Mem.read m a).toNat < 256 := (Mem.read m a).isLt
      have hrest : Mem.readLe m a (n + 1) / 256 = Mem.readLe m (a + 1) n := by
        simp only [Mem.readLe, Mem.readN, leNat]
        omega
      rw [show a + (i + 1) = a + 1 + i by omega, ih (a + 1) i (by omega), Nat.pow_succ', ← Nat.div_div_eq_div_mul, hrest]

theorem OtpRises.writeLe_or {m : Mem} (h : Mem.wf m = true) (a v : Nat) :
    OtpRises m (Mem.writeLe m a 8 (Mem.readLe m a 8 ||| v)) := by
  intro c n hbit
  rw [Mem.writeLe, Mem.read_writeL _ m a c h, natLe_length]
  split
  · next hc =>
    obtain ⟨i, rfl⟩ : ∃ i, c = a + i := ⟨c - a, by omega⟩
    have hi : i < 8 := by omega
    rw [Nat.add_sub_cancel_left, natLe_getD 8 _ i hi, BitVec.toNat_ofNat]
    rw [Mem.read_of_readLe m 8 a i hi] at hbit
    rw [bit_eq_testBit, show (256 : Nat) = 2 ^ 8 from rfl, ← Nat.pow_mul, Nat.testBit_mod_two_pow, Nat.testBit_div_two_pow,
      Bool.and_eq_true, decide_eq_true_eq] at hbit ⊢
    exact ⟨hbit.1, by rw [Nat.testBit_or, hbit.2, Bool.true_or]⟩
  · exact hbit

/-! ### Loads -/

theorem Load.body_wf_mem {l : List Load} {x : Load} (h : (l.all fun x => Mem.wf x.body) = true) (hx : x ∈ l) :
    Mem.wf x.body = true := List.all_eq_true.1 h x hx

theorem loads_append_wf {l : List Load} {x : Load} (h : (l.all fun x => Mem.wf x.body) = true) (hx : Mem.wf x.body = true) :
    ((l ++ [x]).all fun x => Mem.wf x.body) = true := by
  simp [List.all_append, h, hx]

/-! ### The encoder of a training commit -/

def PlaneEnc.Wf (x : PlaneEnc) : Prop := ∀ f ∈ x.frames, Mem.wf f = true

namespace PlaneEnc.Wf
variable {x : PlaneEnc} (hx : x.Wf)
include hx

theorem put {w code : Nat} : (x.put w code).Wf := by
  intro f hf
  obtain ⟨p, hp, rfl⟩ := List.mem_map.1 hf
  exact putField_wf (hx p.1 (List.of_mem_zip (a := p.1) (b := p.2) hp).1)

theorem last : Mem.wf (x.frames.getD (x.frames.length - 1) []) = true := by
  rw [List.getD_eq_getElem?_getD]
  cases hget : x.frames[x.frames.length - 1]? with
  | none => rfl
  | some f => exact hx f (List.mem_of_getElem? hget)

theorem escape {w v : Nat} : (x.escape w v).Wf := by
  intro f hf
  rcases List.mem_or_eq_of_mem_set hf with hf | rfl
  · exact hx f hf
  · exact Mem.writeLe_wf (Mem.write_wf _ _ _ hx.last)

theorem stats {st : EncStats} : PlaneEnc.Wf { x with st := st } := hx

theorem planeElement {b : Nat} {esc : Bool} {bexp : Int} {scale : Tab Nat} {w v : Nat} :
    (planeElement b esc bexp scale x w v).Wf := by
  unfold Machine.planeElement
  extract_lets
  split
  · exact hx.stats.put
  · exact ite_of hx.stats.stats.put hx.stats.stats.put
  · split
    · exact hx.put
    · extract_lets
      exact ite_of (ite_of hx.escape.put hx.stats.put) hx.put

theorem signElement {w v : Nat} : (signElement x w v).Wf := by
  unfold Machine.signElement
  split
  · exact hx.stats.put
  · exact hx.stats.put
  · exact hx.put

end PlaneEnc.Wf

theorem StatSet.Wf.setScale {x : StatSet} {scale : Tab Nat} {e : Int} (hx : x.Wf) (hs : Tab.rising 0 scale = true) :
    StatSet.Wf { x with scale := scale, bexp := e } := { hx with scale := hs }

theorem freshHeader_wf {scale : Tab Nat} {m : Mem} (h : Mem.wf m = true) : Mem.wf (freshHeader scale m) = true :=
  Mem.clear_wf _ _ _ (scales_wf (Mem.write_wf _ _ _ (Mem.write_wf _ _ _ (Mem.write_wf _ _ _ (Mem.write_wf _ _ _ h)))))

theorem headD_wf {l : List Mem} (h : ∀ f ∈ l, Mem.wf f = true) : Mem.wf (l.headD []) = true := by
  cases l with
  | nil => rfl
  | cons f l => exact h f (by simp)

theorem encodeGrid_wf {fmt tail : Nat} {val : Nat → Nat} {old : Mem} (h : Mem.wf old = true) :
    Mem.wf (encodeGrid fmt tail val old).1 = true := by
  unfold encodeGrid
  extract_lets _ _ scale frame _ c c1
  have hscale : Tab.rising 0 scale = true := Tab.rising_latch _
  have hframe : Mem.wf frame = true := Mem.paste_wf _ _ _ _ (freshHeader_wf h) (Mem.ofList_wf _)
  have hc : c.Wf := .of hframe (StatSet.Wf.reset.setScale hscale)
  have hc1 : c1.Wf := hc.elements
  exact hc1.ds

theorem encodePlanes_wf {val : Nat → Nat} {old : List Mem} (h : ∀ f ∈ old, Mem.wf f = true) :
    ∀ f ∈ (encodePlanes val old).1, Mem.wf f = true := by
  unfold encodePlanes
  generalize List.range 65536 = ws
  extract_lets _ _ _ _ _ scale x _ x1
  have hx : x.Wf := fun f hf => by
    obtain ⟨g, hg, rfl⟩ := List.mem_map.1 hf
    exact freshHeader_wf (h g hg)
  have hx1 : x1.Wf := foldl_keeps hx fun _ _ hy => ite_of (p := PlaneEnc.Wf) hy.signElement hy.planeElement
  exact hx1

theorem encodeTile_wf {format tail : Nat} {val : Nat → Nat} {old : List Mem} (h : ∀ f ∈ old, Mem.wf f = true) :
    ∀ f ∈ (encodeTile format tail val old).1, Mem.wf f = true := by
  have hgrid {fmt tail : Nat} : ∀ f ∈ [(encodeGrid fmt tail val (old.headD [])).1], Mem.wf f = true := by
    simpa using encodeGrid_wf (headD_wf h)
  unfold encodeTile
  split
  · exact hgrid
  · exact hgrid
  · exact hgrid
  · exact encodePlanes_wf h
  · exact encodePlanes_wf h
  · exact h

theorem encodeTiles_wf {frame : Nat → Mem} {all : Mem} {tiles : List (List Nat)} {tail : Nat} {master : Nat → Mem}
    (hframe : ∀ n, Mem.wf (frame n) = true) (hall : Mem.wf all = true) :
    Mem.wf (encodeTiles frame all tiles tail master).frames = true := by
  refine foldl_keeps (p := fun o : EncOut => Mem.wf o.frames = true) hall fun o t ho => ?_
  extract_lets format mt r
  have hr : ∀ f ∈ r.1, Mem.wf f = true := encodeTile_wf fun f hf => by
    obtain ⟨n, _, rfl⟩ := List.mem_map.1 hf
    exact hframe n
  have hput : Mem.wf ((t.zip r.1).foldl (fun m p => Mem.setLeaf m p.1 p.2) o.frames) = true := by
    have hzip : ∀ p ∈ t.zip r.1, Mem.wf p.2 = true := fun p hp => hr _ (List.of_mem_zip (a := p.1) (b := p.2) hp).2
    clear_value r
    generalize t.zip r.1 = l at hzip
    generalize o.frames = m at ho
    induction l generalizing m with
    | nil => exact ho
    | cons p l ih => exact ih (fun q hq => hzip q (by simp [hq])) _ (Mem.setLeaf_wf _ _ _ ho (hzip p (by simp)))
  split
  · exact ho
  · exact hput

/-! ### The sentinel's filters -/

theorem featureBank_rising {m : Mem} {state : Tab Int} {pcm : List Int} (h : Tab.rising 0 state = true) :
    Tab.rising 0 (featureBank m state pcm).2 = true :=
  foldl_keeps (p := fun p : List Int × Tab Int => Tab.rising 0 p.2 = true) h fun _ _ hp =>
    foldl_keeps (p := fun t : Tab Int => Tab.rising 0 t = true) hp fun _ _ ht => Tab.rising_set ht _ _ _

theorem Sentinel.Wf.cleared {b : Bool} : Sentinel.Wf { Sentinel.reset with settling := b } := ⟨rfl, rfl⟩

end Sys2Proof.Machine
end

section
/-! PROOFS. What every command keeps: the press, slipcases, training, the sentinel, power and tenancy. -/

-- Short proofs that wait for one another, each on a thread of its own when run in parallel: one after another instead.
set_option Elab.async false

namespace Sys2Proof.Machine

variable {s₀ s : State}

/-! ### Press -/

theorem State.Keeps.otpOr {a v : Nat} (h : s₀.Keeps s) : s₀.Keeps (s.otpOr a v) :=
  h.setNvOtp (fun hc => { h.nv hc with otp := (Mem.writeL_wf _ _ _ (h.nv hc).otp) }) fun hc => .writeLe_or (h.nv hc).otp _ _

theorem State.Keeps.pressAnswer {src : PressSource} {bytes : List Byte} (h : s₀.Keeps s) :
    s₀.Keeps (s.pressAnswer src bytes) := by
  unfold State.pressAnswer
  split
  · exact h.cmdDone
  · exact h.emit

theorem State.Keeps.pressSignal {src : PressSource} {d : PDesc} (h : s₀.Keeps s) : s₀.Keeps (s.pressSignal src d) := by
  unfold State.pressSignal
  split
  · exact .ite h (.ite h.freeze h.signal)
  · exact h

theorem State.Keeps.queueDescMove {g b : Nat} (h : s₀.Keeps s) : s₀.Keeps (s.queueDescMove g b) := by
  unfold State.queueDescMove
  extract_lets s1
  have h1 : s₀.Keeps s1 := h.queueMove
  exact h1.setNv h1.nv

theorem State.Keeps.setOp {x : PressOp} (h : s₀.Keeps s) : s₀.Keeps (s.setOp x) :=
  h.setNv h.nv

theorem State.Keeps.nextUnits {x : PressOp} (h : s₀.Keeps s) : s₀.Keeps (s.nextUnits x) :=
  h.jStart.addUnit

theorem State.Keeps.takeSectors {x : PressOp} (h : s₀.Keeps s) : s₀.Keeps (s.takeSectors x) := by
  unfold State.takeSectors
  extract_lets
  exact .setOp (.foldl h fun _ _ hs => hs.jStart)

theorem State.Keeps.startPress {x : PressOp} (h : s₀.Keeps s) : s₀.Keeps (s.startPress x) := by
  unfold State.startPress
  extract_lets _ s1
  have h1 : s₀.Keeps s1 := h.setOp
  exact (.ite h1.nextUnits (.ite h1.takeSectors (.ite (.foldl h1 fun _ _ hs => by
    split
    · exact hs.queueTl
    · exact hs) (.ite h1.queueDescMove h1))))

theorem State.Keeps.serveRing (h : s₀.Keeps s) : s₀.Keeps s.serveRing := by
  unfold State.serveRing
  extract_lets s1
  have h1 : s₀.Keeps s1 := .foldl h fun _ _ hs => (.ite hs.takeSectors hs)
  exact (.foldl_fst h1 fun _ _ hs => by
    split
    · exact hs
    · split
      · exact hs
      · split
        · exact hs.startPress
        · exact hs)

theorem State.Keeps.weaveSlotStart (h : s₀.Keeps s) : s₀.Keeps (Machine.weaveSlotStart s) :=
  .ite h h.slotUses.serveRing

theorem State.Keeps.pressNow {src : PressSource} {d : PDesc} {status detail : Nat} (h : s₀.Keeps s) :
    s₀.Keeps (s.pressNow src d status detail) := by
  unfold State.pressNow
  extract_lets s1
  have h1 : s₀.Keeps s1 := by
    unfold s1
    split
    · exact h.cmdStart
    · exact h
  exact h1.pressAnswer.pressSignal

theorem State.Keeps.pressAccept {src : PressSource} {d : PDesc} (h : s₀.Keeps s) : s₀.Keeps (s.pressAccept src d) := by
  unfold State.pressAccept
  extract_lets _ s1 _ s2
  have h1 : s₀.Keeps s1 := by
    unfold s1
    split
    · exact h.cmdStart
    · exact h
  have h2 : s₀.Keeps s2 := h1.setNv h1.nv
  exact h2.serveRing

theorem State.Keeps.pressFreeze {q : QNum} {b : List Byte} {p : State × Nat} (h : s₀.Keeps s) (hp : s.pressFreeze q b = some p) :
    s₀.Keeps p.1 := by
  have hif {c : Prop} [Decidable c] {x : State × Nat} {o : Option (State × Nat)} (hx : s₀.Keeps x.1)
      (ho : o = some p → s₀.Keeps p.1) (he : (if c then some x else o) = some p) : s₀.Keeps p.1 := by
    split at he
    · simp only [Option.some.injEq] at he
      exact he ▸ hx
    · exact ho he
  unfold State.pressFreeze at hp
  extract_lets at hp
  split at hp
  · simp only [Option.some.injEq] at hp
    exact hp ▸ h.freeze
  · refine hif h.freeze (hif h.freeze (hif h.freeze (hif h.freeze fun hp => ?_))) hp
    split at hp
    · simp at hp
    · extract_lets at hp
      obtain ⟨_, _, rfl⟩ := Option.map_eq_some_iff.1 hp
      exact h.freeze

theorem State.Keeps.pressSubmit {src : PressSource} {b : List Byte} (h : s₀.Keeps s) :
    s₀.Keeps ((Machine.pressSubmit src b s).2) := by
  unfold Machine.pressSubmit
  extract_lets _ _ bad
  split
  · exact h
  · split
    · exact h
    · have hnext {src : PressSource} {d : PDesc} : s₀.Keeps (match s.pressAtOnce src d with
          | some p => (DS.ok, s.pressNow src d p.1 p.2)
          | none => (DS.ok, s.pressAccept src d)).2 := by
        cases s.pressAtOnce src d with
        | some c =>
          dsimp only
          exact h.pressNow
        | none =>
          dsimp only
          exact h.pressAccept
      split
      · cases hp : s.pressFreeze _ b with
        | some p =>
          dsimp only
          exact (h.pressFreeze hp).pressAnswer
        | none => exact hnext
      · clear_value bad
        cases bad with
        | some o =>
          dsimp only
          exact h.pressNow
        | none => exact hnext

theorem State.Keeps.pressRow {op : Nat} {src : PressSource} {b : List Byte} (h : s₀.Keeps s) :
    s₀.Keeps (Machine.pressRow op src b s) := by
  unfold Machine.pressRow
  extract_lets s1
  have h1 : s₀.Keeps s1.2 := h.pressSubmit
  exact .ite h (.ite h1.noteStatus.answer h1)

theorem State.Keeps.eraseMain {t : Nat} {verified : Bool} (h : s₀.Keeps s) : s₀.Keeps ((s.eraseMain t verified).1) := by
  unfold State.eraseMain
  extract_lets _ _ l
  split
  · exact .foldl h fun _ _ hs => hs.eraseBlockAt
  · refine State.Keeps.count ?_
    cases l with
    | cons k _ => exact h.badBlock
    | nil => exact h

theorem getD_wf {o : Option Mem} (h : o.all Mem.wf = true) : Mem.wf (o.getD []) = true := by
  cases o with
  | none => rfl
  | some m => exact h

theorem State.Keeps.eraseSectorAt {n : Nat} (h : s₀.Keeps s) : s₀.Keeps (s.eraseSectorAt n) := by
  unfold State.eraseSectorAt
  extract_lets
  exact (.ite (h.setNv (fun hc => { h.nv hc with slotA := Mem.clear_wf _ _ _ (getD_wf (h.nv hc).slotA) })) (.ite (h.setNv (fun hc => { h.nv hc with slotB := Mem.clear_wf _ _ _ (getD_wf (h.nv hc).slotB) })) (.ite (h.setNv h.nv) (.ite (h.setNv h.nv) (h.setNv (fun hc => { h.nv hc with aux := (Mem.clear_wf _ _ _ (h.nv hc).aux) }))))))

theorem State.Keeps.programSectorAt {n : Nat} {f : Mem} (h : s₀.Keeps s)
    (hf : s₀.Canonical → Mem.wf f = true) : s₀.Keeps (s.programSectorAt n f) := by
  unfold State.programSectorAt
  extract_lets
  exact .ite (h.setNv (fun hc => { h.nv hc with slotA := Mem.paste_wf _ _ _ _ (getD_wf (h.nv hc).slotA) (Mem.slice_wf _ _ _ (hf hc)) })) (.ite (h.setNv (fun hc => { h.nv hc with slotB := Mem.paste_wf _ _ _ _ (getD_wf (h.nv hc).slotB) (Mem.slice_wf _ _ _ (hf hc)) })) (.ite h (h.setNv (fun hc => { h.nv hc with aux := Mem.paste_wf _ _ _ _ (h.nv hc).aux (Mem.slice_wf _ _ _ (hf hc)) }))))

theorem State.Keeps.programMain {x : PressOp} {plain : List Byte} (h : s₀.Keeps s) : s₀.Keeps (s.programMain x plain) := by
  unfold State.programMain
  extract_lets
  exact (.foldl h fun _ _ ht => by
    extract_lets f
    have hf (hc : s₀.Canonical) : Mem.wf f = true := (ht.canonical hc).sourceLeaves _ _ _ _ _
    exact (.count (.foldl ht fun _ _ hs => hs.programPages fun hc => Mem.slice_wf _ _ _ (hf hc))))

theorem State.Keeps.deliverRun {x : PressOp} {n : Nat} (h : s₀.Keeps s) : s₀.Keeps (s.deliverRun x n) := by
  unfold State.deliverRun
  extract_lets
  split
  · exact .foldl h fun _ _ hs => hs.putFrame fun hc => (hs.canonical hc).libFrame _ _
  · exact h

theorem State.Keeps.sectorFails {n : Nat} (h : s₀.Keeps s) : s₀.Keeps (s.sectorFails n) :=
  .ite h.uncount h

theorem State.Keeps.endPress {x : PressOp} {f : PressFacts} (h : s₀.Keeps s) : s₀.Keeps ((s.endPress x f).1) := by
  unfold State.endPress
  extract_lets _ _ _ s1
  have h1 : s₀.Keeps s1.1 := h.eraseMain
  split
  · split
    · exact h1
    · exact h1
  · split
    · exact .foldl h fun _ _ hs => hs.eraseSectorAt
    · exact h.count.sectorFails
  · split
    · exact h
    · split
      · split
        · exact h.count.sectorFails
        · split
          · exact .foldl h fun _ _ hs => hs.programSectorAt fun hc => (hs.canonical hc).rawLeaf _
          · exact h
      · split
        · exact h.count.badBlock
        · exact h.programMain
  · split
    · split
      · exact h.deliverRun.count.count.alert.moveStripe
      · exact h.deliverRun
    · exact h.deliverRun
  · split
    · exact h.otpOr
    · exact h.fresh.otpOr.count
  · exact h

theorem State.Keeps.dropOp {id : Nat} (h : s₀.Keeps s) : s₀.Keeps (Machine.dropOp s id) :=
  h.setNv h.nv

theorem State.Keeps.unitsEnd {x : PressOp} (h : s₀.Keeps s) : s₀.Keeps (s.unitsEnd x) := by
  unfold State.unitsEnd
  extract_lets s1
  have h1 : s₀.Keeps s1 := .ite h.jEnd.endUnit h
  exact .foldl h1 fun _ _ hs => hs.jEnd

theorem State.Keeps.pressOn {x : PressOp} (h : s₀.Keeps s) : s₀.Keeps (s.pressOn x) := by
  unfold State.pressOn
  extract_lets s1 _ s2
  have h1 : s₀.Keeps s1 := h.unitsEnd
  have h2 : s₀.Keeps s2 := h1.setOp
  exact .serveRing (.ite h2.nextUnits h2)

theorem State.Keeps.pressDone {x : PressOp} {status done detail us : Nat} {signal : Bool} (h : s₀.Keeps s) :
    s₀.Keeps (s.pressDone x status done detail us signal) := by
  unfold State.pressDone
  extract_lets s1 s2 s3
  have h1 : s₀.Keeps s1 := h.dropOp.unitsEnd
  have h2 : s₀.Keeps s2 := h1.pressAnswer
  have h3 : s₀.Keeps s3 := .ite h2.pressSignal h2
  exact h3.serveRing

theorem State.Keeps.pressOpComplete {id : Nat} {f : PressFacts} (h : s₀.Keeps s) : s₀.Keeps (Machine.pressOpComplete id f s) := by
  unfold Machine.pressOpComplete
  split
  · exact h
  · extract_lets s1
    have h1 : s₀.Keeps s1.1 := h.endPress
    split
    · exact h
    · split
      · exact .ite h.pressDone (.ite h h.pressDone)
      · split
        · exact h1.pressDone
        · exact h1.pressOn

theorem State.Keeps.abortRuns {q : QNum} (h : s₀.Keeps s) : s₀.Keeps (s.abortRuns q) := by
  unfold State.abortRuns
  extract_lets
  split
  · extract_lets _ s1
    have h1 : s₀.Keeps s1 := h.setWeave (fun hc => { h.weave hc with tlQueue := Tab.rising_filter _ (Tab.rising_map _ _ 0 (h.weave hc).tlQueue) })
    exact h1.pressDone
  · exact h

theorem State.Keeps.refreshRemap {g : GroupNum} {lost : List (Nat × Nat)} (h : s₀.Keeps s) :
    s₀.Keeps (Machine.refreshRemap g lost s) := by
  unfold Machine.refreshRemap
  split
  · exact h
  · extract_lets _ s1
    have h1 : s₀.Keeps s1 := h.remap.countMove
    exact .foldl h1 fun _ _ hs => hs.fresh.pressDone

theorem State.Keeps.pressSuspend {pair : Fin 4} (h : s₀.Keeps s) : s₀.Keeps (Machine.pressSuspend pair s) := by
  unfold Machine.pressSuspend
  extract_lets
  split
  · exact h
  · exact .count (h.setNv h.nv)

theorem State.Keeps.pressResume {pair : Fin 4} (h : s₀.Keeps s) : s₀.Keeps (Machine.pressResume pair s) := by
  unfold Machine.pressResume
  extract_lets
  split
  · exact h
  · exact h.setNv h.nv

theorem Nv.Wf.setFwStage {n : Nv} {m : Mem} (hn : n.Wf) (hm : Mem.wf m = true) : Nv.Wf { n with fwStage := m } :=
  { hn with fwStage := hm }

theorem State.Keeps.fwStageWrite {v : List Byte} (h : s₀.Keeps s) : s₀.Keeps ((Machine.fwStageWrite v s).2) := by
  unfold Machine.fwStageWrite
  extract_lets
  split
  · exact h
  · split
    · exact h
    · exact (.wr (h.setNv fun hc => (h.nv hc).setFwStage (Mem.writeL_wf _ _ _ (h.nv hc).fwStage)))

theorem State.Keeps.fwUpdateWrite {arg : List Byte} {env : Env} (h : s₀.Keeps s) :
    s₀.Keeps ((Machine.fwUpdateWrite arg env s).2) := by
  unfold Machine.fwUpdateWrite
  extract_lets
  split
  · exact h
  · exact (h.ifIdle fun _ hs => by
      extract_lets _ _ _ s2 _ s3 s4 s5
      have h2 : s₀.Keeps s2 := hs.setNv (fun hc => (((hs.nv hc).putSlot (hs.nv hc).fwStage)))
      have h3 : s₀.Keeps s3 := h2.setNv (fun hc => ((h2.nv hc).commitSlot))
      have h4 : s₀.Keeps s4 := h3.cmdDone
      have h5 : s₀.Keeps s5 := h4.checkpoint
      exact (.ite hs.cmdDone (.ite h2.cmdDone (.ite (h5.setNv h5.nv) h4))))

/-! ### Slipcases -/

theorem State.Keeps.report {q : QNum} {status variant entry : Nat} {x : Short} {chunks ms : Nat} (h : s₀.Keeps s) :
    s₀.Keeps (s.report q status variant entry x chunks ms) :=
  h.wr.count

theorem State.Keeps.dropLoad {l : Load} (h : s₀.Keeps s) : s₀.Keeps (s.dropLoad l) :=
  h.setNv (fun hc => { h.nv hc with loads := all_filter_of (h.nv hc).loads })

theorem State.Keeps.setLoad {l : Load} (h : s₀.Keeps s)
    (hl : s₀.Canonical → Mem.wf l.body = true) : s₀.Keeps (s.setLoad l) :=
  h.setNv (fun hc => { h.nv hc with loads := loads_map_wf (h.nv hc).loads fun _ hm => ite_of (p := fun l : Load => Mem.wf l.body = true) (hl hc) hm })

theorem State.Keeps.endLoad {l : Load} {status variant entry : Nat} {x : Short} {chunks ms result : Nat} (h : s₀.Keeps s) :
    s₀.Keeps (s.endLoad l status variant entry x chunks ms result) :=
  h.dropLoad.report.finish

theorem State.Keeps.failLoad {l : Load} {status variant entry : Nat} {x : Short} (h : s₀.Keeps s) :
    s₀.Keeps (s.failLoad l status variant entry x) := by
  unfold State.failLoad
  extract_lets s1
  have h1 : s₀.Keeps s1.2 := h.fresh
  exact h1.endLoad

theorem State.Keeps.cleanLoad {l : Load} (h : s₀.Keeps s) : s₀.Keeps (s.cleanLoad l) := by
  unfold State.cleanLoad
  split
  · exact h.emptyEntry
  · exact h

theorem State.Keeps.stopLoad {l : Load} (h : s₀.Keeps s) : s₀.Keeps ((s.stopLoad l).2) := by
  unfold State.stopLoad
  extract_lets s1
  have h1 : s₀.Keeps s1.2 := by
    unfold s1
    split
    · exact h
    · exact h.fresh
  split
  · exact h
  · exact (h1.programFirst fun _ => rfl).cleanLoad

theorem State.Keeps.abandonLoad {l : Load} {status : Nat} (h : s₀.Keeps s) : s₀.Keeps (s.abandonLoad l status) := by
  unfold State.abandonLoad
  extract_lets s1 s2
  have h1 : s₀.Keeps s1.2 := h.stopLoad
  have h2 : s₀.Keeps s2.2 := h1.fresh
  exact h2.endLoad

theorem State.Keeps.abandonLoads {q : QNum} {status : Nat} (h : s₀.Keeps s) : s₀.Keeps (s.abandonLoads q status) :=
  .foldl h fun _ _ hs => hs.abandonLoad

theorem State.Keeps.stopLoads {q : QNum} (h : s₀.Keeps s) : s₀.Keeps (s.stopLoads q) :=
  .foldl h fun _ _ hs => hs.stopLoad.dropLoad

theorem State.Keeps.linkTake {q : QNum} {o : LinkOut} (h : s₀.Keeps s) : s₀.Keeps (s.linkTake q o) :=
  .ite h.giveHandle h

theorem State.Keeps.linkTextBlock {q : QNum} {r : RingNum} (h : s₀.Keeps s) : s₀.Keeps (Machine.linkTextBlock q r s) := by
  unfold Machine.linkTextBlock
  split
  · exact h
  · extract_lets _ s1 s2
    have h1 : s₀.Keeps s1 := h.linkTake
    have h2 : s₀.Keeps s2.2 := h1.fresh
    exact h2.report.finishNow

theorem Tiers.Wf.setStaging {x : Tiers} {m : Mem} (hx : x.Wf) (hm : Mem.wf m = true) : Tiers.Wf { x with staging := m } :=
  { hx with staging := hm }

theorem State.Keeps.consumeStaged (h : s₀.Keeps s) : s₀.Keeps s.consumeStaged := by
  unfold State.consumeStaged
  split
  · exact h
  · next l hl =>
    extract_lets n x nonce l1
    have hl1 (hc : s₀.Canonical) : Mem.wf l1.body = true :=
      foldl_keeps (p := fun l : Load => Mem.wf l.body = true) (Load.body_wf_mem (h.nv hc).loads (List.mem_of_find?_eq_some hl))
        fun _ _ hm => Load.takeChunk_wf hm
    exact .setTiers (h.setLoad hl1) fun hc => (h.tiers hc).setStaging (Mem.writeLe_wf (h.tiers hc).staging)

theorem State.Keeps.stagingTimeout (h : s₀.Keeps s) : s₀.Keeps (Machine.stagingTimeout s) := by
  unfold Machine.stagingTimeout
  split
  · exact h
  · extract_lets s1
    have h1 : s₀.Keeps s1.2 := h.stopLoad.fresh
    exact h1.endLoad

theorem State.Keeps.admitLoad {l : Load} {g : Nat → Byte} {key : Nat × Nat × List Byte} {base : Nat} (h : s₀.Keeps s)
    (hl : s₀.Canonical → Mem.wf l.body = true) : s₀.Keeps (s.admitLoad l g key base) := by
  unfold State.admitLoad
  extract_lets
  split
  · exact h.failLoad
  · split
    · extract_lets s1
      have h1 : s₀.Keeps s1 := h.setLib
      exact State.Keeps.consumeStaged (h1.setLoad hl)
    · exact h.failLoad

theorem State.Keeps.loadSteps {l : Load} (h : s₀.Keeps s)
    (hl : s₀.Canonical → Mem.wf l.body = true) : s₀.Keeps (s.loadSteps l) := by
  unfold State.loadSteps
  extract_lets _ _ _ _ _ _ _ _ s1 s2
  have h1 : s₀.Keeps s1 := h.linkTake
  have h2 : s₀.Keeps s2.2 := h1.fresh
  split
  · exact h.failLoad
  · split
    · exact h.failLoad
    · split
      · exact h.failLoad
      · split
        · exact h.failLoad
        · split
          · exact h2.endLoad
          · split
            · exact h
            · split
              · exact h.failLoad
              · split
                · exact h.failLoad
                · exact h.admitLoad hl

theorem State.Keeps.readSource {l : Load} (h : s₀.Keeps s) : s₀.Keeps (s.readSource l) :=
  .ite h.emit h

theorem State.Keeps.dropSession {p : Session → Bool} (h : s₀.Keeps s) :
    s₀.Keeps (s.setNv { s.nv with sessions := s.nv.sessions.filter p }) := h.setNv h.nv

theorem State.Keeps.advanceLoad {l : Load} (h : s₀.Keeps s)
    (hl : s₀.Canonical → Mem.wf l.body = true) : s₀.Keeps (s.advanceLoad l) := by
  unfold State.advanceLoad
  extract_lets
  split
  · exact h.loadSteps hl
  · split
    · exact h
    · split
      · exact h.failLoad
      · split
        · split
          · exact h.failLoad
          · extract_lets
            exact .loadSteps (.setLoad h.dropSession hl) hl
        · exact .loadSteps (.setLoad h.readSource hl) hl

theorem State.Keeps.loadSlipcase {q : QNum} {r : RingNum} {f : LoadFacts} (h : s₀.Keeps s) :
    s₀.Keeps (Machine.loadSlipcase q r f s) := by
  unfold Machine.loadSlipcase
  split
  · exact h
  · extract_lets _ s1
    have h1 : s₀.Keeps s1 := h.startEntry
    exact .advanceLoad (h1.setNv fun hc => { h1.nv hc with loads := loads_append_wf (h1.nv hc).loads rfl }) fun _ => rfl

theorem State.Keeps.resumeLoads {q : QNum} {r : RingNum} (h : s₀.Keeps s) : s₀.Keeps (s.resumeLoads q r) :=
  .foldlMem h fun _ _ hl hs => hs.advanceLoad fun hc =>
    Load.body_wf_mem (h.nv hc).loads (List.mem_filter.1 hl).1

theorem State.Keeps.install {q : QNum} {e : Nat} (h : s₀.Keeps s) : s₀.Keeps (s.install q e) := by
  unfold State.install
  extract_lets _ _ s1 s2
  have h1 : s₀.Keeps s1 := .foldl h fun _ _ hs => hs.setLib
  have h2 : s₀.Keeps s2 := h1.setLib
  exact h2.wrStored.giveHandle

theorem State.Keeps.loadComplete {q : QNum} {e : Fin 64} {f : BodyFacts} (h : s₀.Keeps s) :
    s₀.Keeps (Machine.loadComplete q e f s) := by
  unfold Machine.loadComplete
  split
  · exact h
  · next l hl =>
    extract_lets _ m s1 s2
    have hm (hc : s₀.Canonical) : Mem.wf m.body = true :=
      Load.readBody_wf (Load.body_wf_mem (h.nv hc).loads (List.mem_of_find?_eq_some hl))
    have h1 : s₀.Keeps s1 := h.programStripes hm
    have h2 : s₀.Keeps s2 := h1.install
    split
    · exact h
    · split
      · exact (h.programFirst hm).cleanLoad.endLoad
      · split
        · exact h1.cleanLoad.endLoad
        · split
          · exact h1.cleanLoad.dropLoad.valFail
          · exact h2.endLoad

theorem State.Keeps.letGo {q : QNum} {e : Nat} (h : s₀.Keeps s) : s₀.Keeps (s.letGo q e) :=
  h.setLib.dropHandle

theorem State.Keeps.unload {q : QNum} {r : RingNum} (h : s₀.Keeps s) : s₀.Keeps (Machine.unload q r s) := by
  unfold Machine.unload
  split
  · exact h
  · extract_lets
    split
    · exact h.finishNow
    · extract_lets
      exact .ite h (.finishNow (.foldl h fun _ _ hs => hs.letGo))

theorem State.Keeps.peerAcceptWrite {arg : List Byte} {env : Env} (h : s₀.Keeps s) :
    s₀.Keeps ((Machine.peerAcceptWrite arg env s).2) := by
  unfold Machine.peerAcceptWrite
  extract_lets
  split
  · exact (h.ifIdle fun _ hs => by
      extract_lets _ _ s2
      have h2 : s₀.Keeps s2 := hs.setNv hs.nv
      exact h2.cmdDone)
  · exact h

theorem State.Keeps.peerSessionExpiry {session : Nat} (h : s₀.Keeps s) : s₀.Keeps (Machine.peerSessionExpiry session s) :=
  h.setNv h.nv

theorem State.Keeps.sendChunk {e addr : Nat} {key nonce : List Byte} {i : Nat} (h : s₀.Keeps s) :
    s₀.Keeps (s.sendChunk e addr key nonce i) := by
  unfold State.sendChunk
  extract_lets
  exact h.emit.emit.emit

theorem State.Keeps.exportKey {scalar : Nat} {rxPub : List Byte} {session : Nat} {x : LibEntry} (h : s₀.Keeps s) :
    s₀.Keeps ((s.exportKey scalar rxPub session x).2) := by
  unfold State.exportKey
  split
  · exact h
  · exact h.fresh

theorem State.Keeps.peerExportWrite {arg : List Byte} {env : Env} (h : s₀.Keeps s) :
    s₀.Keeps ((Machine.peerExportWrite arg env s).2) := by
  unfold Machine.peerExportWrite
  extract_lets
  split
  · exact h
  · split
    · exact h
    · exact (h.ifIdle fun _ hs => by
        extract_lets s2 s3 s4 s5
        have h2 : s₀.Keeps s2 := hs.senseStripes
        have h3 : s₀.Keeps s3.2 := h2.exportKey
        have h4 : s₀.Keeps s4 := h3.emit
        have h5 : s₀.Keeps s5 := .foldl h4 fun _ _ hs => hs.sendChunk
        exact h5.cmdDone)

/-! ### Training -/

theorem State.Keeps.trainLast {q : QNum} {status old new : Nat} {stats : List Nat} {short ms : Nat} (h : s₀.Keeps s) :
    s₀.Keeps (s.trainLast q status old new stats short ms) :=
  h.wrs.count

theorem State.Keeps.trainRefuse {q : QNum} {r : RingNum} {e : Entry} {status old short : Nat} (h : s₀.Keeps s) :
    s₀.Keeps (s.trainRefuse q r e status old short) := by
  unfold State.trainRefuse
  extract_lets s1
  have h1 : s₀.Keeps s1.2 := h.fresh
  exact h1.trainLast.finishNow

theorem State.Keeps.senseOthers {e : Nat} (h : s₀.Keeps s) : s₀.Keeps (s.senseOthers e) := by
  unfold State.senseOthers
  extract_lets
  exact (.foldl h fun _ _ hs => by
    extract_lets
    exact (.ite hs (.ite hs hs.senseStripes)))

theorem State.Keeps.trainCommit {q : QNum} {r : RingNum} (h : s₀.Keeps s) : s₀.Keeps (Machine.trainCommit q r s) := by
  unfold Machine.trainCommit
  extract_lets s1
  have h1 : s₀.Keeps s1.2 := h.fresh
  split
  · exact h
  · extract_lets
    split
    · exact h
    · split
      · extract_lets x frame s2
        have h2 : s₀.Keeps s2 := h1.startEntry.senseOthers
        have hframe (hc : s₀.Canonical) (n : Nat) : Mem.wf (frame n) = true := (h.canonical hc).libFrame _ n
        have hall (hc : s₀.Canonical) := (h2.canonical hc).libFrames
        split
        · exact h.trainRefuse
        · split
          · exact h.trainRefuse
          · extract_lets
            split
            · exact h.trainRefuse
            · split
              · exact h.trainRefuse
              · split
                · exact h.freezeEntry
                · split
                  · exact h.trainRefuse
                  · split
                    · exact h.trainRefuse
                    · split
                      · exact h.trainRefuse
                      · extract_lets
                        exact .wr (h2.setLib.modQuireOf fun hc hx =>
                          ⟨encodeTiles_wf (hframe hc) (hall hc _), hx.unified⟩)
      · exact h.trainRefuse

theorem State.Keeps.trainDrop {q : QNum} {t : Train} (h : s₀.Keeps s) : s₀.Keeps (s.trainDrop q t) := by
  unfold State.trainDrop
  extract_lets _ s1 s2
  have h1 : s₀.Keeps s1.2 := h.fresh
  have h2 : s₀.Keeps s2 := .ite (h1.programFirst fun _ => rfl) h
  exact h2.emptyEntry.modQuire fun _ hx => { hx with train := rfl }

theorem State.Keeps.trainFail {q : QNum} {t : Train} {status ms : Nat} (h : s₀.Keeps s) : s₀.Keeps (s.trainFail q t status ms) :=
  h.trainDrop.trainLast.finish

theorem State.Keeps.stopTrain {q : QNum} (h : s₀.Keeps s) : s₀.Keeps (s.stopTrain q) := by
  unfold State.stopTrain
  extract_lets s1
  have h1 : s₀.Keeps s1.2 := h.fresh
  split
  · exact h1.trainDrop.trainLast
  · exact h

theorem State.Keeps.trainTake {q : QNum} {t : Train} {ms : Nat} (h : s₀.Keeps s) : s₀.Keeps (s.trainTake q t ms) := by
  unfold State.trainTake
  extract_lets _ _ _ s1 _ s2 s3 s4
  have h1 : s₀.Keeps s1 := h.setLib
  have h2 : s₀.Keeps s2 := h1.setLib
  have h3 : s₀.Keeps s3 := h2.wrStored
  have h4 : s₀.Keeps s4 := h3.dropHandle.giveHandle.modQuire fun _ hx => { hx with train := rfl }
  exact h4.trainLast.finish

theorem State.Keeps.writeVersion {q : QNum} {t : Train} (h : s₀.Keeps s) (ht : s₀.Canonical → Mem.wf t.frames = true) :
    s₀.Keeps (s.writeVersion q t) := by
  unfold State.writeVersion
  extract_lets s1 s2
  have h1 : s₀.Keeps s1 := h.programStripes ht
  have h2 : s₀.Keeps s2 := h1.modQuire fun _ hx => { hx with train := train_map_wf hx.train fun _ _ => rfl }
  exact h2.setLib

theorem State.Keeps.trainSwitch {q : QNum} {f : TrainFacts} (h : s₀.Keeps s) : s₀.Keeps (Machine.trainSwitch q f s) := by
  unfold Machine.trainSwitch
  split
  · exact h
  · next t ht =>
    extract_lets _ _ s1
    have hframes (hc : s₀.Canonical) : Mem.wf t.frames = true := by
      simpa [ht] using (h.quire q hc).train
    have h1 : s₀.Keeps s1 := .ite (h.writeVersion hframes) h
    exact .ite h (.ite h.trainFail (.ite h.count.alert.channelError.trainFail (.ite h (.ite h1.wr h1.trainTake))))

/-! ### Sentinel -/

theorem State.Keeps.sentEnableWrite {on : Bool} (h : s₀.Keeps s) : s₀.Keeps ((Machine.sentEnableWrite on s).2) := by
  unfold Machine.sentEnableWrite
  extract_lets s1 s2
  have h1 : s₀.Keeps s1 := h.wr
  have h2 : s₀.Keeps s2 := h.wr
  split
  · split
    · exact h
    · exact .ite h1.wr h1.tryListen
  · exact .ite h2.wr h2

theorem State.Keeps.sentWakeWrite {v : Nat} (h : s₀.Keeps s) : s₀.Keeps ((Machine.sentWakeWrite v s).2) := by
  unfold Machine.sentWakeWrite
  extract_lets
  split
  · exact h
  · exact h.rest.wr

theorem Sentinel.Wf.setImage {x : Sentinel} {m : Mem} (hx : x.Wf) (hm : Mem.wf m = true) :
    Sentinel.Wf { x with image := m } := { hx with image := hm }

theorem State.Keeps.sentArmWrite {arg : List Byte} (h : s₀.Keeps s) : s₀.Keeps ((Machine.sentArmWrite arg s).2) := by
  unfold Machine.sentArmWrite
  extract_lets
  split
  · exact h
  · split
    · exact h
    · exact (h.ifIdle fun _ hs => by
        extract_lets _ _ s2 _ _ s3 _ _ s4
        have h2 : s₀.Keeps s2 := .foldl hs fun _ _ hs => hs.senseStripe
        have h3 : s₀.Keeps s3 := .ite h2 h2.giveHandle
        have h4 : s₀.Keeps s4 := .wrs (h3.setSent fun hc => (h3.sent hc).setImage (Mem.ofList_wf _))
        split
        · exact hs.cmdDone
        · exact h4.cmdDone.tryListen)

theorem State.Keeps.sentDisarmWrite (h : s₀.Keeps s) : s₀.Keeps ((Machine.sentDisarmWrite s).2) := by
  unfold Machine.sentDisarmWrite
  extract_lets
  split
  · exact h
  · exact (h.ifIdle fun _ hs => by
      extract_lets _ s2 s3
      have h2 : s₀.Keeps s2 := .ite hs.dropHandle hs
      have h3 : s₀.Keeps s3 := h2.setSent fun _ => .cleared
      exact h3.wrs.cmdDone)

theorem State.Keeps.judge {scores : List Int} (h : s₀.Keeps s) : s₀.Keeps (s.judge scores) := by
  unfold State.judge
  extract_lets _ _ _ _ _ s1
  have h1 : s₀.Keeps s1 := h.count
  exact .ite (h1.setSent h1.sent) (h1.setSent h1.sent)

theorem State.Keeps.detectNow (h : s₀.Keeps s) : s₀.Keeps s.detectNow := by
  unfold State.detectNow
  extract_lets _ s1
  have h1 : s₀.Keeps s1 := h.setSent h.sent
  split
  · exact h
  · extract_lets s2 _ s3 _ _ _ _ _ _ _ s4 s5 s6
    have h2 : s₀.Keeps s2 := h1.wrs.count
    have h3 : s₀.Keeps s3 := h2.setClk
    have h4 : s₀.Keeps s4 := h3.rest
    have h5 : s₀.Keeps s5 := .ite h4.ibiDue h4
    have h6 : s₀.Keeps s6 := .ite h5.msixSend h5
    exact .ite h6.wr h6

theorem State.Keeps.frameOver (h : s₀.Keeps s) : s₀.Keeps s.frameOver := by
  unfold State.frameOver
  extract_lets _ _ s1
  have h1 : s₀.Keeps s1 := h.setSent h.sent
  exact .ite (.wr (h1.setSent h1.sent)) h1

theorem State.Keeps.setHistory {l : List (List (List Int))} (h : s₀.Keeps s) :
    s₀.Keeps (s.setSent { s.sent with history := l }) := h.setSent h.sent

theorem Sentinel.Wf.setFilters {x : Sentinel} {b : Tab Int} {p p' : List Bool} (hx : x.Wf) (hb : Tab.rising 0 b = true) :
    Sentinel.Wf { x with pdm0 := p, pdm1 := p', biquad := b } := { hx with biquad := hb }

theorem State.Keeps.sentFrame {b0 b1 : List Bool} {settling : Bool} (h : s₀.Keeps s) : s₀.Keeps (s.sentFrame b0 b1 settling) := by
  unfold State.sentFrame
  extract_lets _ _ _ _ _ _ s1 _ _ s2
  have h1 : s₀.Keeps s1 := h.setSent fun hc => (h.sent hc).setFilters (featureBank_rising (h.sent hc).biquad)
  have h2 : s₀.Keeps s2 := h1.setHistory
  split
  · exact h1.count.frameOver
  · split
    · exact h1.count.freeze
    · exact h2.judge.frameOver

/-! ### Power -/

theorem State.Keeps.reportLtr {always : Bool} (h : s₀.Keeps s) : s₀.Keeps (s.reportLtr always) :=
  .ite h.rest.emit h

theorem State.Keeps.aspmL1Request (h : s₀.Keeps s) : s₀.Keeps (Machine.aspmL1Request s) :=
  .ite h.emit.wr h

theorem State.Keeps.l1SubstateEntry {l12 : Bool} (h : s₀.Keeps s) : s₀.Keeps (Machine.l1SubstateEntry l12 s) :=
  .ite h.rest.wr h

theorem State.Keeps.l12Exit (h : s₀.Keeps s) : s₀.Keeps (Machine.l12Exit s) :=
  .ite h.rest.setClk.wr h

theorem State.Keeps.linkEntersL0 {speed : Fin 5} {width : Fin 3} (h : s₀.Keeps s) :
    s₀.Keeps (Machine.linkEntersL0 speed width s) := by
  unfold Machine.linkEntersL0
  extract_lets _ s1 _ s2 _ _ s3
  have h1 : s₀.Keeps s1 := .ite h.wrs h
  have h2 : s₀.Keeps s2 := h1.setClk
  have h3 : s₀.Keeps s3 := h2.rest
  exact .ite h h3.wr.reportLtr

theorem State.Keeps.linkOff (h : s₀.Keeps s) : s₀.Keeps s.linkOff :=
  h.rest.wrs

theorem State.Keeps.linkDown (h : s₀.Keeps s) : s₀.Keeps (Machine.linkDown s) :=
  h.linkOff

theorem State.Keeps.demoteForSleep {q : QNum} {n : Nat} (h : s₀.Keeps s) : s₀.Keeps ((s.demoteForSleep q n).1) := by
  unfold State.demoteForSleep
  extract_lets s1
  have h1 : s₀.Keeps s1 := h.tmMoveComplete
  clear_value s1
  split
  · split
    · exact h1.skipTm
    · split
      · exact h1
      · split
        · next ht =>
          exact .tmMoveComplete (.foldl (h1.startMove ht) fun _ _ hs => .foldl hs fun _ _ hs => hs.zeroExtent)
        · exact h1
  · exact h1

theorem State.Keeps.demoteAll (h : s₀.Keeps s) : s₀.Keeps ((s.demoteAll).1) :=
  (.foldl_fst h fun _ _ hs => (.foldl_fst hs fun _ _ hs => by
    extract_lets s3
    have h3 : s₀.Keeps s3.1 := hs.demoteForSleep
    split
    · exact hs
    · exact h3))

theorem State.Keeps.settleTiers (h : s₀.Keeps s) : s₀.Keeps s.settleTiers := by
  unfold State.settleTiers
  extract_lets s1
  have h1 : s₀.Keeps s1 := .foldl h fun _ _ hs => (.foldl hs fun _ _ hs => hs.zeroExtent)
  exact h1.setTiers h1.tiers

theorem State.Keeps.loseT1 (h : s₀.Keeps s) : s₀.Keeps s.loseT1 :=
  h.setTiers (fun hc => { h.tiers hc with slices := vec_get_replicate_of (p := fun m => Mem.wf m = true) rfl, commons := rfl })

theorem State.Keeps.enterSleep {toSent : Bool} (h : s₀.Keeps s) : s₀.Keeps (s.enterSleep toSent) := by
  unfold State.enterSleep
  extract_lets s1 s2 _ s3 s4 _ s5 _ s6 _ s7 s8 s9
  have h1 : s₀.Keeps s1 := h.settleTiers.loseT1.checkpoint
  have h2 : s₀.Keeps s2 := .wr (h1.forB (fun _ _ hs => hs.bayOff))
  have h3 : s₀.Keeps s3 := h2.setClk
  have h4 : s₀.Keeps s4 := h3.rest
  have h5 : s₀.Keeps s5 := h4.setSent h4.sent
  have h6 : s₀.Keeps s6 := h5.setPm
  have h7 : s₀.Keeps s7 := h6.rest
  have h8 : s₀.Keeps s8.2 := h7.fresh
  have h9 : s₀.Keeps s9 := h8.cmdDone
  exact h9.count.reportLtr

theorem State.Keeps.stepEntry (h : s₀.Keeps s) : s₀.Keeps s.stepEntry := by
  unfold State.stepEntry
  split
  · exact h
  · split
    · exact h
    · have ht : s₀.Keeps s.demoteAll.1 := h.demoteAll
      generalize s.demoteAll = r at ht ⊢
      obtain ⟨t, _ | q⟩ := r
      · exact State.Keeps.enterSleep ht
      · exact State.Keeps.abandonEntry ht

theorem State.Keeps.pwrRequestWrite {arg : List Byte} (h : s₀.Keeps s) : s₀.Keeps ((Machine.pwrRequestWrite arg s).2) := by
  unfold Machine.pwrRequestWrite
  extract_lets
  split
  · exact h
  · split
    · exact h
    · split
      · exact h
      · exact (h.ifIdle fun _ hs => by
          extract_lets s2 _ s3 _ s4
          have h2 : s₀.Keeps s2 := hs.cmdStart
          have h3 : s₀.Keeps s3 := h2.setPm
          have h4 : s₀.Keeps s4 := .ite (h3.setSent h3.sent) h3
          exact (.ite h4.stepEntry h4.abandonEntry))

theorem State.Keeps.leaveSleep (h : s₀.Keeps s) : s₀.Keeps s.leaveSleep := by
  unfold State.leaveSleep
  extract_lets s1 _ s2 _ s3 _ s4 s5
  have h1 : s₀.Keeps s1 := h.rest
  have h2 : s₀.Keeps s2 := h1.setPm
  have h3 : s₀.Keeps s3 := h2.setClk
  have h4 : s₀.Keeps s4 := h3.setSent h3.sent
  have h5 : s₀.Keeps s5 := h4.reportLtr.tryListen
  exact .ite h (.ite h5.startPlls h5.holdWake)

theorem State.Keeps.closeSprint (h : s₀.Keeps s) : s₀.Keeps s.closeSprint :=
  .ite h.wr h

theorem State.Keeps.sprintClose (h : s₀.Keeps s) : s₀.Keeps (Machine.sprintClose s) :=
  h.closeSprint

theorem State.Keeps.sprintReady (h : s₀.Keeps s) : s₀.Keeps (Machine.sprintReady s) :=
  .ite h.wr h

theorem State.Keeps.filter {tDie : Int} (h : s₀.Keeps s) : s₀.Keeps (s.filter tDie) := by
  unfold State.filter
  extract_lets
  exact h.setPm.wrs

theorem State.Keeps.levelCauses {hot : Bool} (h : s₀.Keeps s) : s₀.Keeps (s.levelCauses hot) := by
  unfold State.levelCauses
  extract_lets s1 s2
  have h1 : s₀.Keeps s1 := .ite h.alert h
  have h2 : s₀.Keeps s2 := .ite h1.alert h1
  exact .ite h2.alert h2

theorem State.Keeps.sprintStep {p : Nat} (h : s₀.Keeps s) : s₀.Keeps (s.sprintStep p) := by
  unfold State.sprintStep
  extract_lets _ _ _ s1
  have h1 : s₀.Keeps s1 := h.setPm
  split
  · exact .ite h.wr.setPm.count h
  · exact .ite h1.closeSprint h1
  · exact h

theorem State.Keeps.levelStep {p : Nat} (h : s₀.Keeps s) : s₀.Keeps (s.levelStep p) := by
  unfold State.levelStep
  extract_lets _ _ _ _ _ _ _ _ s1
  have h1 : s₀.Keeps s1 := h.setPm
  exact .ite (.ite h1.wr.count.updateVsel h1) (.ite h1.wr.updateVsel h1)

theorem State.Keeps.powerEvaluation {pEval : Nat} {tDie : Int} (h : s₀.Keeps s) :
    s₀.Keeps (Machine.powerEvaluation pEval tDie s) := by
  unfold Machine.powerEvaluation
  extract_lets _ _ s1 s2 s3 s4 s5
  have h1 : s₀.Keeps s1 := h.setPm.wrs
  have h2 : s₀.Keeps s2 := h1.filter
  have h3 : s₀.Keeps s3 := h2.wr
  have h4 : s₀.Keeps s4 := h3.sprintStep.levelStep
  have h5 : s₀.Keeps s5 := .ite h4.count h4
  exact .ite h h5.levelCauses

theorem State.Keeps.thermBoardWrite {v : Nat} (h : s₀.Keeps s) : s₀.Keeps ((Machine.thermBoardWrite v s).2) := by
  unfold Machine.thermBoardWrite
  extract_lets
  split
  · exact h
  · exact h.wr.setPm

theorem State.Keeps.thermBoardStale (h : s₀.Keeps s) : s₀.Keeps (Machine.thermBoardStale s) :=
  .ite h h.setPm.count

theorem State.Keeps.sentFrameEnd {rise : Bool} {pdmData : List Bool} {settling : Bool} (h : s₀.Keeps s) :
    s₀.Keeps (Machine.sentFrameEnd rise pdmData settling s) :=
  .ite h.detectNow.sentFrame.stepEntry h

theorem State.Keeps.sentDetection (h : s₀.Keeps s) : s₀.Keeps (Machine.sentDetection s) :=
  .ite h.detectNow.stepEntry h

/-! ### Tenancy -/

theorem State.Keeps.resumeOne {q : QNum} {t4 : List Byte} {w : Started} (h : s₀.Keeps s) : s₀.Keeps (s.resumeOne q t4 w) := by
  unfold State.resumeOne
  split
  · exact h.endAllocWait
  · exact h.copyBody (fun _ hs => hs) fun _ _ _ hs => hs.finish
  · exact .ite h.finish h
  · exact h

theorem State.Keeps.waitResume {q : QNum} {r : RingNum} {t4 : List Byte} (h : s₀.Keeps s) :
    s₀.Keeps (Machine.waitResume q r t4 s) := by
  unfold Machine.waitResume
  extract_lets s1
  have h1 : s₀.Keeps s1 := .foldl h fun _ _ hs => hs.resumeOne
  exact .ite h h1.resumeLoads.free.unload

theorem State.Keeps.disableDone {q : QNum} {result endedAs count : Nat} (h : s₀.Keeps s) :
    s₀.Keeps (s.disableDone q result endedAs count) :=
  h.cmdDone

theorem State.Keeps.startDrain {q : QNum} (h : s₀.Keeps s) : s₀.Keeps (s.startDrain q) := by
  unfold State.startDrain
  extract_lets _ _ _ _ s1 s2 s3 s4
  have h1 : s₀.Keeps s1 := h.cmdStart.modQuire fun _ hx => hx
  have h2 : s₀.Keeps s2 := h1.dropWaits
  have h3 : s₀.Keeps s3 := .foldl h2 fun _ _ hs => hs.complete
  have h4 : s₀.Keeps s4 := .foldl h3 fun _ _ hs => hs.finish
  exact h4.abandonLoads

theorem State.Keeps.drainEnd {q : QNum} (h : s₀.Keeps s) : s₀.Keeps (Machine.drainEnd q s) := by
  unfold Machine.drainEnd
  extract_lets _ _ s1
  have h1 : s₀.Keeps s1 := h.setQuire (h.quire _)
  exact .ite h1.disableDone.msixSend h

theorem State.Keeps.dropReserves {q : QNum} (h : s₀.Keeps s) : s₀.Keeps (s.dropReserves q) := by
  unfold State.dropReserves
  extract_lets
  exact .ite h h.zeroJob

theorem State.Keeps.abortEntry {q : QNum} {e : Entry} (h : s₀.Keeps s) : s₀.Keeps (s.abortEntry q e) := by
  unfold State.abortEntry
  split
  · exact h.abandonLoad
  · exact h.dropClaim.complete

theorem State.Keeps.dropQueues {q : QNum} (h : s₀.Keeps s) : s₀.Keeps (s.dropQueues q) :=
  h.setWeave (fun hc => { h.weave hc with queues := (Tab.rising_filter _ (h.weave hc).queues) })

theorem State.Keeps.abortOwnWaits {q : QNum} (h : s₀.Keeps s) : s₀.Keeps (s.abortOwnWaits q) := by
  unfold State.abortOwnWaits
  extract_lets _ s1
  have h1 : s₀.Keeps s1 := h.dropWaits
  exact (.foldl h1 fun _ _ hs => by
    split
    · exact hs.endWait
    · exact hs.countWait)

theorem State.Keeps.addAbort {r : Nat × Nat} (h : s₀.Keeps s) :
    s₀.Keeps (s.setSt { s.st with aborts := s.st.aborts ++ [r] }) := h.setSt h.st

theorem State.Keeps.forceStop {q : QNum} (h : s₀.Keeps s) : s₀.Keeps (s.forceStop q) := by
  unfold State.forceStop
  extract_lets _ _ s1 s2 s3 s4 _ s5 s6 s7
  have h1 : s₀.Keeps s1 := h.endRuns.stopQuire.dropQueues
  have h2 : s₀.Keeps s2 := h1.abortOwnWaits
  have h3 : s₀.Keeps s3 := h2.modQuire fun _ hx => hx
  have h4 : s₀.Keeps s4 := .foldl h3 fun _ _ hs => hs.abortEntry
  have h5 : s₀.Keeps s5 := h4.addAbort
  have h6 : s₀.Keeps s6 := h5.dropReserves
  have h7 : s₀.Keeps s7 := h6.modQuire fun _ hx => hx
  exact h7.disableDone.msixSend.tryRelease

theorem State.Keeps.qDisableWrite {q : QNum} {arg : List Byte} (h : s₀.Keeps s) :
    s₀.Keeps ((Machine.qDisableWrite q arg s).2) := by
  unfold Machine.qDisableWrite
  extract_lets
  split
  · exact h
  · split
    · exact h
    · exact h.ifIdle fun _ hs => (.ite hs.forceStop hs.startDrain)

theorem State.Keeps.dropMbox {i : Fin 9} (h : s₀.Keeps s) : s₀.Keeps (s.dropMbox i) := by
  unfold State.dropMbox
  extract_lets s1
  have h1 : s₀.Keeps s1 := h.setMboxes fun hc => vec_get_set_of (p := fun m : Mbox => Mem.wf m.reqData = true) (h.mbox · hc) rfl
  exact h1.setDict h1.dict

theorem State.Keeps.releaseStitches {q : QNum} {all : Bool} (h : s₀.Keeps s) : s₀.Keeps (s.releaseStitches q all) := by
  unfold State.releaseStitches
  extract_lets _ s1
  have h1 : s₀.Keeps s1 := h.dropWaits
  exact h1.releaseStage.defaultStitches

theorem State.Keeps.defaultAlloc {q : QNum} {all : Bool} (h : s₀.Keeps s) : s₀.Keeps (s.defaultAlloc q all) := by
  unfold State.defaultAlloc
  extract_lets
  exact h.wrs

theorem State.Keeps.stopForReset {q : QNum} (h : s₀.Keeps s) : s₀.Keeps (s.stopForReset q) := by
  unfold State.stopForReset
  extract_lets _ s1 s2 s3 s4
  have h1 : s₀.Keeps s1 := h.endRuns.stopQuire.endLending
  have h2 : s₀.Keeps s2 := .ite h1.disableDone.msixSend h1
  have h3 : s₀.Keeps s3 := h2.abortRuns.stopLoads.stopTrain
  have h4 : s₀.Keeps s4 := .ite h3.sentAbandon h3
  exact .ite h (h4.modQuire fun _ hx => hx)

theorem State.Keeps.filterExtents {p : Extent → Bool} (h : s₀.Keeps s) :
    s₀.Keeps (s.setTiers { s.tiers with extents := s.tiers.extents.filter p }) := h.setTiers h.tiers

theorem State.Keeps.releaseForReset {q : QNum} {all : Bool} (h : s₀.Keeps s) : s₀.Keeps (s.releaseForReset q all) := by
  unfold State.releaseForReset
  extract_lets s1 s2 _ _ s3
  have h1 : s₀.Keeps s1 := h.releaseStitches.defaultAlloc.dropHandles
  have h2 : s₀.Keeps s2 := h1.dropMbox.dropQueues
  have h3 : s₀.Keeps s3 := h2.filterExtents
  exact .zeroJob (h3.modQuire fun _ hx => { hx with unified := rfl })

theorem State.Keeps.resetQuire {q : QNum} (h : s₀.Keeps s) : s₀.Keeps (s.resetQuire q) :=
  .ite h h.stopForReset.releaseForReset

theorem State.Keeps.qResetWrite {q : QNum} (h : s₀.Keeps s) : s₀.Keeps ((Machine.qResetWrite q s).2) := by
  unfold Machine.qResetWrite
  split
  · exact h
  · exact h.ifIdle fun _ hs => hs.cmdStart.resetQuire

theorem State.Keeps.loadQuotas {q : QNum} (h : s₀.Keeps s) : s₀.Keeps (s.loadQuotas q) := by
  unfold State.loadQuotas
  extract_lets
  exact h.wrs

theorem State.Keeps.clearBlock {q : QNum} (h : s₀.Keeps s) : s₀.Keeps (s.clearBlock q) := by
  unfold State.clearBlock
  extract_lets
  exact (h.setDict (fun hc => { h.dict hc with vals := (valsWf_filter s.sku (fun k => !(inBlock q (k / 256) && isV s.sku k && k != Key.qStitchBase q &&
      k != Key.qStitchCount q)) _ 0 (h.dict hc).vals), staged := (Tab.rising_filter _ (h.dict hc).staged), sets := (Tab.rising_filter _ (h.dict hc).sets), cmds := (Tab.rising_filter _ (h.dict hc).cmds) }))

theorem State.Keeps.finishReset {q : QNum} {leaves : Nat} (h : s₀.Keeps s) : s₀.Keeps (s.finishReset q leaves) := by
  unfold State.finishReset
  extract_lets _ s1 s2 s3 _ s4 s5 s6
  have h1 : s₀.Keeps s1 := (h.setTiers (fun hc => { h.tiers hc with rings := (Mem.clear_wf _ _ _ (h.tiers hc).rings) }))
  have h2 : s₀.Keeps s2 := h1.forB (fun _ _ hs => (.ite (hs.modBay fun _ hx => { hx with t0 := rfl, moves := rfl, slots := rfl }) hs))
  have h3 : s₀.Keeps s3 := h2.gateBays.clearBlock
  have h4 : s₀.Keeps s4 := h3.modQuire fun _ hx => .reset
  have h5 : s₀.Keeps s5 := h4.loadQuotas
  have h6 : s₀.Keeps s6 := .ite h5.cmdDone h5
  exact .ite h6.tryListen h6

theorem State.Keeps.resetQuires (h : s₀.Keeps s) : s₀.Keeps s.resetQuires := by
  unfold State.resetQuires
  extract_lets _ s1
  have h1 : s₀.Keeps s1 := h.forQ (fun _ _ hs => hs.stopForReset)
  exact h1.forQ (fun _ _ hs => (.ite hs.defaultAlloc hs.releaseForReset))

/-! ### Security -/

theorem State.Keeps.emptyLibrary (h : s₀.Keeps s) : s₀.Keeps s.emptyLibrary := by
  unfold State.emptyLibrary
  extract_lets s1
  have h1 : s₀.Keeps s1 := .foldl h fun _ _ hs => hs.emptyEntry
  clear_value s1
  exact h1.setNv (fun hc => { h1.nv hc with loads := rfl })

theorem State.Keeps.eraseMainAll (h : s₀.Keeps s) : s₀.Keeps s.eraseMainAll :=
  h.setNv (fun hc => { h.nv hc with main := rfl, blocks := Tab.rising_map_of (fun b => by split <;> rfl) (h.nv hc).blocks, bands := rfl })

theorem State.Keeps.emptyKeys (h : s₀.Keeps s) : s₀.Keeps s.emptyKeys := by
  unfold State.emptyKeys
  extract_lets s1
  have h1 : s₀.Keeps s1 := .foldl h fun _ _ hs => (.wr (.ite hs.paramRecord hs))
  exact .foldl (h1.setSec fun _ => rfl) fun _ _ hs => hs.wrStored

theorem State.Keeps.scrubbed {n : Nat} (h : s₀.Keeps s) : s₀.Keeps (s.scrubbed n) :=
  h.setSec h.sec

theorem State.Keeps.scrubNv {done : Nat} (h : s₀.Keeps s) : s₀.Keeps (s.scrubNv done) := by
  unfold State.scrubNv
  extract_lets s1 s2
  have h1 : s₀.Keeps s1 := .ite h.emptyLibrary h
  have h2 : s₀.Keeps s2 := .ite h1.eraseMainAll h1
  exact .scrubbed (.ite h2.emptyKeys h2)

theorem State.Keeps.zeroAllTiers (h : s₀.Keeps s) : s₀.Keeps s.zeroAllTiers :=
  h.setTiers (fun hc => { h.tiers hc with slices := vec_get_replicate_of (p := fun m => Mem.wf m = true) rfl, commons := rfl, t2 := rfl })

theorem State.Keeps.endTransition {fromState toState : Nat} (h : s₀.Keeps s) : s₀.Keeps (s.endTransition fromState toState) := by
  unfold State.endTransition
  extract_lets _ s1 s2
  have h1 : s₀.Keeps s1 := h.setSec h.sec
  have h2 : s₀.Keeps s2 := h1.cmdDone
  exact h2.setNv h2.nv

theorem State.Keeps.zeroingJobDone (h : s₀.Keeps s) : s₀.Keeps (Machine.zeroingJobDone s) := by
  unfold Machine.zeroingJobDone
  split
  · exact h
  · extract_lets s1 _ s2
    have h1 : s₀.Keeps s1 := .foldl h fun _ _ hs => hs.zeroExtent
    have h2 : s₀.Keeps s2 := h1.setTiers h1.tiers
    split
    · exact h
    · split
      · exact h2.finishReset
      · exact h2
      · exact h2.zeroAllTiers.scrubbed.endTransition

theorem State.Keeps.programSeed {entropy : Nat} (h : s₀.Keeps s) : s₀.Keeps (s.programSeed entropy) :=
  .foldl h fun _ _ hs => hs.otpOr

theorem State.Keeps.addJob {j : ZeroJob} (h : s₀.Keeps s) :
    s₀.Keeps (s.setTiers { s.tiers with jobs := s.tiers.jobs ++ [j] }) := h.setTiers h.tiers

theorem State.Keeps.lcTransitionWrite {factory : Bool} {arg : List Byte} {env : Env} (h : s₀.Keeps s) :
    s₀.Keeps ((Machine.lcTransitionWrite factory arg env s).2) := by
  unfold Machine.lcTransitionWrite
  extract_lets
  split
  · exact h
  · split
    · exact h
    · split
      · exact h
      · split
        · exact h
        · exact (h.ifIdle fun _ hs => by
            extract_lets s2 _ s3 s4
            have h2 : s₀.Keeps s2 := hs.cmdStart.otpOr
            have h3 : s₀.Keeps s3 := h2.setSec h2.sec
            have h4 : s₀.Keeps s4 := h3.resetQuires.scrubNv
            exact (.ite hs.programSeed.otpOr.endTransition (.ite hs.otpOr.endTransition (h4.addJob))))

theorem State.Keeps.classKeyWrite {n : Nat} {val : List Byte} (h : s₀.Keeps s) :
    s₀.Keeps ((Machine.classKeyWrite n val s).2) := by
  unfold Machine.classKeyWrite
  extract_lets _ _ s1
  have h1 : s₀.Keeps s1 := h.paramRecord.wr
  split
  · exact h
  · split
    · exact h
    · split
      · exact h
      · split
        · exact h
        · exact h1.setSec fun hc => Tab.rising_set (h1.sec hc) _ _ _

theorem State.Keeps.arbAdvanceWrite {arg : List Byte} (h : s₀.Keeps s) : s₀.Keeps ((Machine.arbAdvanceWrite arg s).2) := by
  unfold Machine.arbAdvanceWrite
  extract_lets
  split
  · exact h
  · split
    · exact h
    · exact h.ifIdle fun _ hs => hs.otpOr.cmdDone

theorem State.Keeps.debugUnlockWrite {arg : List Byte} {env : Env} (h : s₀.Keeps s) :
    s₀.Keeps ((Machine.debugUnlockWrite arg env s).2) := by
  unfold Machine.debugUnlockWrite
  split
  · exact h
  · split
    · exact h
    · exact (h.ifIdle fun _ hs => by
        extract_lets _ _ s2
        have h2 : s₀.Keeps s2 := hs.setSec hs.sec
        exact (.ite h2.wr.cmdDone h2.count.cmdDone))

/-! ### Watchdog -/

theorem State.Keeps.alertClearWrite {v : Nat} (h : s₀.Keeps s) : s₀.Keeps ((Machine.alertClearWrite v s).2) := by
  unfold Machine.alertClearWrite
  extract_lets
  split
  · exact h
  · exact h.wr

theorem State.Keeps.wdtExpire {cause : Nat} (h : s₀.Keeps s) : s₀.Keeps (s.wdtExpire cause) := by
  unfold State.wdtExpire
  extract_lets s1 _ s2 s3
  have h1 : s₀.Keeps s1 := h.wrs
  have h2 : s₀.Keeps s2 := h1.setClk
  have h3 : s₀.Keeps s3 := h2.alert.count.ibiDue
  exact .ite h (.ite h3.msixSend h3)

theorem State.Keeps.hostTimerExpiry (h : s₀.Keeps s) : s₀.Keeps (Machine.hostTimerExpiry s) :=
  .ite h h.rest.wdtExpire

theorem State.Keeps.fwTimerExpiry (h : s₀.Keeps s) : s₀.Keeps (Machine.fwTimerExpiry s) :=
  .ite h h.rest.wdtExpire

theorem State.Keeps.wdtRearm (h : s₀.Keeps s) : s₀.Keeps s.wdtRearm :=
  .ite h h.wr

theorem State.Keeps.wdtServiceWrite {v : Nat} (h : s₀.Keeps s) : s₀.Keeps ((Machine.wdtServiceWrite v s).2) := by
  unfold Machine.wdtServiceWrite
  extract_lets
  split
  · exact h
  · exact h.rest.wdtRearm

theorem State.Keeps.fwServices (h : s₀.Keeps s) : s₀.Keeps s.fwServices :=
  h.rest.wdtRearm

theorem State.Keeps.wdtPeriodWrite {v : Nat} (h : s₀.Keeps s) : s₀.Keeps ((Machine.wdtPeriodWrite v s).2) := by
  unfold Machine.wdtPeriodWrite
  extract_lets
  split
  · exact h
  · exact h.rest.wr

theorem State.Keeps.retentionError {k : Nat} (h : s₀.Keeps s) : s₀.Keeps (s.retentionError k) := by
  unfold State.retentionError
  split
  · exact .ite h.wr.count.alert h
  · exact h

theorem State.Keeps.detectorError (h : s₀.Keeps s) : s₀.Keeps s.detectorError := by
  unfold State.detectorError
  extract_lets _ s1 s2
  have h1 : s₀.Keeps s1 := h.setSent fun _ => .cleared
  have h2 : s₀.Keeps s2 := h1.wrs
  exact h2.count.alert

theorem State.Keeps.crystalStart (h : s₀.Keeps s) : s₀.Keeps (Machine.crystalStart s) :=
  .ite h h.setClk

theorem State.Keeps.quickOscStop (h : s₀.Keeps s) : s₀.Keeps (Machine.quickOscStop s) :=
  .ite h h.setClk

theorem State.Keeps.resumeWakes (h : s₀.Keeps s) : s₀.Keeps s.resumeWakes := by
  unfold State.resumeWakes
  extract_lets _ s1 s2
  have h1 : s₀.Keeps s1 := h.setClk
  have h2 : s₀.Keeps s2 := .ite h1.startPlls h1
  exact .ite h (h2.forQ (fun _ _ hs => (.ite hs.powerBays hs)))

theorem State.Keeps.detectClkin (h : s₀.Keeps s) : s₀.Keeps s.detectClkin := by
  unfold State.detectClkin
  extract_lets _ s1
  have h1 : s₀.Keeps s1 := h.setPins
  exact .ite h1.resumeWakes h1

theorem State.Keeps.clkinLost (h : s₀.Keeps s) : s₀.Keeps (Machine.clkinLost s) := by
  unfold Machine.clkinLost
  extract_lets _ _ s1 _ s2 s3 s4
  have h1 : s₀.Keeps s1 := h.setPins
  have h2 : s₀.Keeps s2 := h1.setClk
  have h3 : s₀.Keeps s3 := h2.forB (fun _ _ hs => (hs.modBay fun _ hx => (ite_of hx hx)))
  have h4 : s₀.Keeps s4 := h3.fixPower.count.alert
  exact .ite (.ite h4.holdWake h4) h1

end Sys2Proof.Machine
end

section
/-! PROOFS. What every command keeps: resets, boot, the dictionary, BAR0, BAR2, fetch and I3C. -/

-- Short proofs that wait for one another, each on a thread of its own when run in parallel: one after another instead.
set_option Elab.async false

namespace Sys2Proof.Machine

variable {s₀ s : State}

/-! ### Resets -/

theorem vals_find_ne_dflt {sku : Sku} (t : Tab Nat) (k : Nat) : ∀ lo, valsWf sku lo t = true →
    Tab.find t k ≠ some (dfltVal sku k) := by
  induction t with
  | nil => intro lo _; simp
  | cons p t ih =>
    obtain ⟨j, v⟩ := p
    intro lo h
    simp only [valsWf, Bool.and_eq_true, decide_eq_true_eq] at h
    obtain ⟨⟨-, hdflt⟩, ht⟩ := h
    rw [Tab.find]
    split
    · next hk => simpa [hk] using hdflt
    · split
      · simp
      · exact ih _ ht

/-- What a reset leaves of the register file, with or without the sampled strap. -/
theorem valsWf_keptByReset {sku : Sku} {t : Tab Nat} {c : Prop} [Decidable c] (h : valsWf sku 0 t = true) (k : Nat) :
    valsWf sku 0 (Tab.put (t.filter fun e => keptByReset sku e.1) k (if c then Tab.find t k else none)) = true := by
  refine vals_put sku _ 0 k _ (valsWf_filter sku _ _ 0 h) (Nat.zero_le _) ?_
  split
  · exact vals_find_ne_dflt t k 0 h
  · simp

theorem Tiers.Wf.reset : Tiers.reset.Wf := ⟨vec_get_replicate_of (p := fun m => Mem.wf m = true) rfl, rfl, rfl, rfl, rfl, rfl⟩

theorem State.Canonical.restart {s : State} (hs : s.Canonical) (cause : Nat) : (s.restart cause).Canonical where
  dict := ⟨valsWf_keptByReset hs.dict.vals _, rfl, rfl, rfl⟩
  i3c := rfl
  mbox := vec_get_replicate_of (p := fun m : Mbox => Mem.wf m.reqData = true) rfl
  quire := vec_get_replicate_of (p := Quire.Wf) .reset
  bay := vec_get_replicate_of (p := Bay.Wf) .reset
  st := rfl
  weave := ⟨rfl, rfl, rfl, rfl, rfl, rfl, rfl⟩
  nv := hs.nv.afterReset
  tiers := .reset
  sent := ⟨rfl, rfl⟩
  sec := hs.sec

theorem State.Keeps.restart {cause : Nat} (h : s₀.Keeps s) : s₀.Keeps (s.restart cause) where
  pending := h.pending
  sku := h.sku
  sends := h.sends
  canonical hc := (h.canonical hc).restart cause
  otp := h.otp

theorem State.Keeps.deviceReset {cause : Nat} (h : s₀.Keeps s) : s₀.Keeps (s.deviceReset cause) := by
  unfold State.deviceReset
  split
  · exact h
  · exact h.restart

theorem State.Keeps.resetNAssert (h : s₀.Keeps s) : s₀.Keeps (Machine.resetNAssert s) := by
  unfold Machine.resetNAssert
  extract_lets s1
  have h1 : s₀.Keeps s1 := .ite h.deviceReset h
  exact h1.setPins

theorem State.Keeps.resetNRelease (h : s₀.Keeps s) : s₀.Keeps (Machine.resetNRelease s) :=
  h.setPins

theorem State.Keeps.pgoodInFall (h : s₀.Keeps s) : s₀.Keeps (Machine.pgoodInFall s) := by
  unfold Machine.pgoodInFall
  extract_lets s1
  have h1 : s₀.Keeps s1 := .ite h.deviceReset h
  exact h1.setPins

theorem State.Keeps.pgoodInRise (h : s₀.Keeps s) : s₀.Keeps (Machine.pgoodInRise s) :=
  h.setPins

theorem State.Keeps.testenLow (h : s₀.Keeps s) : s₀.Keeps (Machine.testenLow s) :=
  h.setPins

theorem State.Keeps.deviceResetStart (h : s₀.Keeps s) : s₀.Keeps (Machine.deviceResetStart s) := by
  unfold Machine.deviceResetStart
  split
  · exact h.deviceReset
  · exact h

theorem State.Keeps.wdtGraceExpiry (h : s₀.Keeps s) : s₀.Keeps (Machine.wdtGraceExpiry s) :=
  .ite h.deviceReset h

theorem State.Keeps.mcWakeComplete {digestOk : Bool} (h : s₀.Keeps s) : s₀.Keeps (Machine.mcWakeComplete digestOk s) :=
  .ite h (.ite h.setPm.tryListen h.deviceReset)

theorem State.Keeps.powerLoss (h : s₀.Keeps s) : s₀.Keeps (Machine.powerLoss s) := by
  unfold Machine.powerLoss
  extract_lets t
  have ht : s₀.Keeps t := h.restart
  clear_value t
  exact (ht.setNv (n := { t.nv with scrubAt := 0 }) ht.nv).rest

theorem State.Keeps.powerOn {tDie : Int} (h : s₀.Keeps s) : s₀.Keeps (Machine.powerOn tDie s) := by
  unfold Machine.powerOn
  extract_lets
  split
  · exact h.rest
  · exact h

theorem State.Keeps.aonRelease (h : s₀.Keeps s) : s₀.Keeps (Machine.aonRelease s) :=
  .ite h.setPins h

theorem State.Keeps.controlReset (h : s₀.Keeps s) : s₀.Keeps s.controlReset := by
  unfold State.controlReset
  extract_lets s1 s2 _ s3 _ _ s4
  have h1 : s₀.Keeps s1 := .ite h.resetQuires h
  have h2 : s₀.Keeps s2 := .foldl h1 fun _ _ hs => hs.dropMbox
  have h3 : s₀.Keeps s3 := h2.rest
  have h4 : s₀.Keeps s4 := .setPm (h3.setWeave (fun hc => { h3.weave hc with aptQueue := rfl }))
  exact h4.wrs

theorem State.Keeps.startLink (h : s₀.Keeps s) : s₀.Keeps s.startLink :=
  .ite h.rest.wr.emit h

theorem State.Keeps.perstNAssert (h : s₀.Keeps s) : s₀.Keeps (Machine.perstNAssert s) := by
  unfold Machine.perstNAssert
  extract_lets s1 _ s2
  have h1 : s₀.Keeps s1 := h.controlReset.linkOff
  have h2 : s₀.Keeps s2 := h1.setPins
  exact .ite h (.ite h2.setClk h2)

theorem State.Keeps.perstNRelease (h : s₀.Keeps s) : s₀.Keeps (Machine.perstNRelease s) := by
  unfold Machine.perstNRelease
  extract_lets _ s1 _ s2
  have h1 : s₀.Keeps s1 := h.setPins
  have h2 : s₀.Keeps s2 := h1.setClk
  exact .ite h (.ite h1 (.ite h2.wakeDemand.startLink h2))

theorem State.Keeps.flr (h : s₀.Keeps s) : s₀.Keeps (Machine.flr s) :=
  .ite h.controlReset h

theorem State.Keeps.loadIr {ir : BitVec 6} {dr : JtagReg} (h : s₀.Keeps s) : s₀.Keeps (s.loadIr ir dr) := by
  unfold State.loadIr
  extract_lets s1
  have h1 : s₀.Keeps s1 := .ite h.deviceReset h
  exact h1.rest.emit

theorem State.Keeps.jtag1 {f : State → State} (h : s₀.Keeps s) (hf : ∀ (s : State), s₀.Keeps s → s₀.Keeps (f s)) :
    s₀.Keeps (s.jtag1 f) :=
  .ite (hf _ h) h

theorem State.Keeps.tapReset (h : s₀.Keeps s) : s₀.Keeps (Machine.tapReset s) :=
  .ite h.rest h

theorem State.Keeps.extest (h : s₀.Keeps s) : s₀.Keeps (Machine.extest s) :=
  h.jtag1 fun _ hs => hs.loadIr

theorem State.Keeps.clamp (h : s₀.Keeps s) : s₀.Keeps (Machine.clamp s) :=
  h.jtag1 fun _ hs => hs.loadIr

theorem State.Keeps.highz (h : s₀.Keeps s) : s₀.Keeps (Machine.highz s) :=
  h.jtag1 fun _ hs => hs.loadIr

theorem State.Keeps.samplePreload {cells board : List Bool} (h : s₀.Keeps s) : s₀.Keeps (Machine.samplePreload cells board s) :=
  (h.jtag1 fun _ hs => by
    extract_lets s2
    have h2 : s₀.Keeps s2 := hs.loadIr
    exact h2.rest.emit)

theorem State.Keeps.idcode (h : s₀.Keeps s) : s₀.Keeps (Machine.idcode s) :=
  h.jtag1 fun _ hs => hs.loadIr.emit

theorem State.Keeps.bypass {code : BitVec 6} (h : s₀.Keeps s) : s₀.Keeps (Machine.bypass code s) :=
  h.jtag1 fun _ hs => (.ite hs hs.loadIr)

theorem State.Keeps.slowTick {f : TickFacts} (h : s₀.Keeps s) : s₀.Keeps (Machine.slowTick f s) := by
  unfold Machine.slowTick
  extract_lets _ s1 s2 s3 s4 s5 s6 s7
  have h1 : s₀.Keeps s1 := h.rest
  have h2 : s₀.Keeps s2 := .ite h1.fwServices h1
  have h3 : s₀.Keeps s3 := by
    unfold s3
    split
    · exact h2.retentionError
    · exact h2
  have h4 : s₀.Keeps s4 := .ite h3.detectorError h3
  have h5 : s₀.Keeps s5 := h4.count.count.count
  have h6 : s₀.Keeps s6 := h5.uncount
  have h7 : s₀.Keeps s7 := .ite h6 h6.levelCauses
  exact .ite h (.ite h1 (.ite h1.deviceReset h7.stepEntry))

/-! ### Boot -/

theorem State.Keeps.bootFirmware {slotB fallback : Bool} (h : s₀.Keeps s) : s₀.Keeps (s.bootFirmware slotB fallback) := by
  unfold State.bootFirmware
  extract_lets
  exact h.wrs

theorem State.Keeps.recordBays {fail : Nat} (h : s₀.Keeps s) : s₀.Keeps (s.recordBays fail) := by
  unfold State.recordBays
  extract_lets
  exact h.wrStored

theorem State.Keeps.mapBays (h : s₀.Keeps s) : s₀.Keeps s.mapBays := by
  unfold State.mapBays
  extract_lets _ s1
  have h1 : s₀.Keeps s1 := .foldl h fun _ _ hs => hs.wr
  exact h1.wrs

theorem State.Keeps.bootTiers {f : BootFacts} (h : s₀.Keeps s) : s₀.Keeps (s.bootTiers f) := by
  unfold State.bootTiers
  extract_lets _ _ _ s1 _ _ _ s2
  have h1 : s₀.Keeps s1 := .ite h h.alert
  have h2 : s₀.Keeps s2 := h1.setTiers h1.tiers
  exact h2.wrs

theorem State.Keeps.restoreCounts (h : s₀.Keeps s) : s₀.Keeps s.restoreCounts := by
  unfold State.restoreCounts
  extract_lets _ _ s1 _ s2 _ s3
  have h1 : s₀.Keeps s1 := h.setNv h.nv
  have h2 : s₀.Keeps s2 := by
    unfold s2
    split
    · exact h1.setNv (fun hc => { h1.nv hc with bands := Tab.rising_map _ _ 0 (h1.nv hc).bands })
    · exact .foldl h1 fun _ _ hs => (.foldl hs fun _ _ hs => hs.setBand)
  have h3 : s₀.Keeps s3 := (h2.setNv (fun hc => { h2.nv hc with bands := (Tab.rising_filter _ (h2.nv hc).bands) }))
  exact .foldl h3 fun _ _ hs => (.foldl hs fun _ _ hs => (.ite hs.queueMove hs))

theorem State.Keeps.cutMove {m : BandMove} (h : s₀.Keeps s) : s₀.Keeps (s.cutMove m) :=
  .foldl h fun _ _ hs => hs.eraseBlockAt

theorem State.Keeps.replayOne {p : State × Nat} {j : JEntry} (h : s₀.Keeps p.1) : s₀.Keeps (State.replayOne p j).1 := by
  unfold State.replayOne
  extract_lets
  split
  · exact .foldl h fun _ _ hs => hs.eraseBlockAt
  · split
    · split
      · exact h.cutMove
      · exact h
    · exact h.eraseSectorAt

theorem State.Keeps.replay (h : s₀.Keeps s) : s₀.Keeps s.replay := by
  unfold State.replay
  extract_lets r _ s1
  have hr : s₀.Keeps r.1 := .foldl_fst h fun _ _ hs => hs.replayOne
  have h1 : s₀.Keeps s1 := hr.setNv hr.nv
  exact h1.wr.restoreCounts

theorem State.Keeps.refuseT2 (h : s₀.Keeps s) : s₀.Keeps s.refuseT2 := by
  unfold State.refuseT2
  extract_lets
  exact h.wr

theorem State.Keeps.loadProfile {p : Nat} (h : s₀.Keeps s) : s₀.Keeps (s.loadProfile p) := by
  unfold State.loadProfile
  extract_lets s1
  have h1 : s₀.Keeps s1 := h.rest.refuseT2
  exact .setWeave (h1.forQ (fun _ _ hs => hs.loadQuotas)) h1.weave

theorem State.Keeps.mountLibrary (h : s₀.Keeps s) : s₀.Keeps s.mountLibrary := by
  unfold State.mountLibrary
  extract_lets s1
  have h1 : s₀.Keeps s1 := (.foldl h fun _ _ hs => by
    split
    · exact hs.emptyEntry
    · exact hs)
  clear_value s1
  exact h1.setNv (fun hc => { h1.nv hc with loads := rfl })

theorem State.Keeps.checkClassKeys {fail : Nat} (h : s₀.Keeps s) : s₀.Keeps (s.checkClassKeys fail) :=
  (.foldl h fun _ _ hs => by
    extract_lets _ _ _ s2
    have h2 : s₀.Keeps s2 := .wr (hs.setSec fun hc => Tab.rising_put _ _ 0 (hs.sec hc) (Nat.zero_le _))
    exact (.ite h2.alert h2))

theorem State.Keeps.resumeScrub (h : s₀.Keeps s) : s₀.Keeps s.resumeScrub :=
  .ite h.scrubNv.zeroAllTiers.scrubbed h

theorem State.Keeps.bootClocks {f : BootFacts} (h : s₀.Keeps s) : s₀.Keeps (s.bootClocks f) := by
  unfold State.bootClocks
  extract_lets _ s1 _ s2
  have h1 : s₀.Keeps s1 := h.setClk
  have h2 : s₀.Keeps s2 := .ite h1 h1.setPm
  exact h2.wrs

theorem State.Keeps.bootNormal {f : BootFacts} (h : s₀.Keeps s) : s₀.Keeps (s.bootNormal f) := by
  unfold State.bootNormal
  extract_lets s1 s2 s3 s4
  have h1 : s₀.Keeps s1 := h.recordBays.mapBays
  have h2 : s₀.Keeps s2 := .foldl h1 fun _ _ hs => hs.planeFails
  have h3 : s₀.Keeps s3 := h2.bootTiers.replay.loadProfile.wr
  have h4 : s₀.Keeps s4 := h3.resumeScrub.mountLibrary
  exact h4.checkClassKeys

theorem State.Keeps.bootStart {f : BootFacts} (h : s₀.Keeps s) : s₀.Keeps (Machine.bootStart f s) := by
  unfold Machine.bootStart
  extract_lets _ _ _ s1 slot s2 _ s3 s4 _ s5 s6
  have h1 : s₀.Keeps s1 := .mountParams (h.setNv h.nv)
  have h2 : s₀.Keeps s2 := h1.bootClocks.wrs
  have h3 : s₀.Keeps s3 := h2.setSec h2.sec
  have h4 : s₀.Keeps s4 := by
    unfold s4
    cases slot with
    | some p => exact h3.bootFirmware
    | none => exact h3
  have h5 : s₀.Keeps s5 := h4.wr
  have h6 : s₀.Keeps s6 := h5.bootNormal
  exact .ite h (.ite h6.rest.startLink h5.rest.startLink)

/-! ### Staged -/

theorem State.Keeps.setSetState {i : SetId} {x : SetState} (h : s₀.Keeps s) : s₀.Keeps (s.setSetState i x) :=
  h.setDict (fun hc => { h.dict hc with sets := (Tab.rising_set (h.dict hc).sets _ _ _) })

theorem State.Keeps.stage {k v : Nat} (h : s₀.Keeps s) : s₀.Keeps (s.stage k v) :=
  h.setDict (fun hc => { h.dict hc with staged := (Tab.rising_put _ _ 0 (h.dict hc).staged (Nat.zero_le _)) })

theorem State.Keeps.stagedMemberWrite {i : SetId} {k v : Nat} {role : Role} (h : s₀.Keeps s) :
    s₀.Keeps ((Machine.stagedMemberWrite i k v role s).2) := by
  unfold Machine.stagedMemberWrite
  split
  · exact h
  · split
    · exact h
    · exact h.stage.setSetState

theorem State.Keeps.unstage {i : SetId} (h : s₀.Keeps s) : s₀.Keeps (s.unstage i) := by
  unfold State.unstage
  extract_lets _ s1
  have h1 : s₀.Keeps s1 := (h.setDict (fun hc => { h.dict hc with staged := (Tab.rising_filter _ (h.dict hc).staged) }))
  exact h1.setSetState

theorem State.Keeps.leaveStitches {old new : Nat × Nat} (h : s₀.Keeps s) : s₀.Keeps (s.leaveStitches old new) :=
  h.releaseStage

theorem State.Keeps.moveStitches {old new : Nat × Nat} (h : s₀.Keeps s) : s₀.Keeps (s.moveStitches old new) :=
  h.setSt (fun hc => (Tab.rising_filter _ (h.st hc)))

theorem State.Keeps.activate {k : Nat} (h : s₀.Keeps s) : s₀.Keeps (s.activate k) := by
  unfold State.activate
  split
  · exact .ite h.wrStored h.wr
  · exact h

theorem State.Keeps.applySet {i : SetId} (h : s₀.Keeps s) : s₀.Keeps (s.applySet i) := by
  unfold State.applySet
  extract_lets s1
  have h1 : s₀.Keeps s1 := .foldl h fun _ _ hs => hs.activate
  split
  · exact h1.modQuire fun _ hx => hx
  · exact .moveStitches (.foldl h.leaveStitches fun _ _ hs => hs.activate)
  · exact h1

theorem State.Keeps.safePoint {i : SetId} (h : s₀.Keeps s) : s₀.Keeps (s.safePoint i) :=
  .ite h.applySet.unstage.cmdDone h

theorem State.Keeps.discardSet {i : SetId} (h : s₀.Keeps s) : s₀.Keeps (s.discardSet i) :=
  .ite h.unstage.cmdDone h.unstage

theorem State.Keeps.commitSafePoint {idx : Nat} (h : s₀.Keeps s) : s₀.Keeps (Machine.commitSafePoint idx s) := by
  unfold Machine.commitSafePoint
  split
  · exact .ite h.safePoint h
  · exact h

theorem State.Keeps.acceptCommit {i : SetId} (h : s₀.Keeps s) : s₀.Keeps (s.acceptCommit i) := by
  unfold State.acceptCommit
  extract_lets _ s1
  have h1 : s₀.Keeps s1 := h.cmdStart.setSetState
  exact .ite h1.safePoint h1

theorem State.Keeps.commitWrite {i : SetId} {arg : List Byte} (h : s₀.Keeps s) : s₀.Keeps ((Machine.commitWrite i arg s).2) := by
  unfold Machine.commitWrite
  extract_lets
  split
  · exact h
  · split
    · exact h
    · split
      · exact h
      · split
        · split
          · exact h.discardSet
          · exact h.unstage.cmdDone
        · split
          · exact h.setSetState.cmdDone
          · split
            · exact h.cmdDone
            · exact h.acceptCommit

theorem State.Keeps.profRestoreWrite {p : Fin 4} {role : Role} (h : s₀.Keeps s) :
    s₀.Keeps ((Machine.profRestoreWrite p role s).2) := by
  unfold Machine.profRestoreWrite
  extract_lets s1
  have h1 : s₀.Keeps s1 := .foldl h fun _ _ hs => hs.stage
  split
  · exact h
  · exact h1.setSetState.cmdDone

/-! ### Switch -/

theorem State.Keeps.endSwitch {result from_ to_ ms : Nat} (h : s₀.Keeps s) : s₀.Keeps (s.endSwitch result from_ to_ ms) :=
  h.rest.wr.cmdDone

theorem State.Keeps.profileSwitchWrite {arg : List Byte} (h : s₀.Keeps s) : s₀.Keeps ((Machine.profileSwitchWrite arg s).2) := by
  unfold Machine.profileSwitchWrite
  split
  · exact h
  · split
    · exact h
    · exact (h.ifIdle fun _ hs => by
        extract_lets
        exact (.ite hs.endSwitch hs.rest.wr.cmdStart))

theorem State.Keeps.repartBays (h : s₀.Keeps s) : s₀.Keeps s.repartBays :=
  .updateVsel (.fixPower (h.forB (fun _ _ hs => (.ite hs.bayOff (.ite (hs.modBay fun _ hx => hx) hs)))))

theorem State.Keeps.repartSentinel (h : s₀.Keeps s) : s₀.Keeps s.repartSentinel :=
  h.setSent h.sent

theorem State.Keeps.repartition {p : Fin 4} (h : s₀.Keeps s) : s₀.Keeps (s.repartition p) := by
  unfold State.repartition
  extract_lets s1 s2 s3
  have h1 : s₀.Keeps s1 := h.safePoint
  have h2 : s₀.Keeps s2 := h1.forQ (fun _ _ hs => hs.discardSet)
  have h3 : s₀.Keeps s3 := h2.rest.refuseT2
  exact .repartSentinel (.repartBays (h3.forQ (fun _ _ hs => hs.loadQuotas)))

theorem State.Keeps.switchDrainEnd {drainMs : Nat} (h : s₀.Keeps s) : s₀.Keeps (Machine.switchDrainEnd drainMs s) := by
  unfold Machine.switchDrainEnd
  split
  · exact h
  · extract_lets _ s1
    have h1 : s₀.Keeps s1 := h.repartition
    exact .ite h h1.rest.wr

theorem State.Keeps.answerWake {q : QNum} (h : s₀.Keeps s) : s₀.Keeps (s.answerWake q) := by
  unfold State.answerWake
  extract_lets
  exact .ite h (.ite (.count (h.setQuire (h.quire _))) h.powerBays)

theorem State.Keeps.resumeQuires (h : s₀.Keeps s) : s₀.Keeps s.resumeQuires :=
  .forQ (h.forQ (fun _ _ hs => hs.answerWake)) (fun _ _ hs => hs.wakeIfNeeded)

theorem State.Keeps.switchDrainLimit {drainMs : Nat} (h : s₀.Keeps s) : s₀.Keeps (Machine.switchDrainLimit drainMs s) := by
  unfold Machine.switchDrainLimit
  split
  · exact h
  · exact .ite h h.endSwitch.resumeQuires

theorem State.Keeps.switchResume (h : s₀.Keeps s) : s₀.Keeps (Machine.switchResume s) := by
  unfold Machine.switchResume
  extract_lets
  split
  · exact h
  · extract_lets s1 s2
    have h1 : s₀.Keeps s1 := h.setWeave (fun hc => { h.weave hc with lent := rfl })
    have h2 : s₀.Keeps s2 := h1.closeSprint.wr.endSwitch
    exact .ite h h2.resumeQuires.tryListen

/-! ### Dictionary -/

theorem State.Keeps.store {k v : Nat} (h : s₀.Keeps s) : s₀.Keeps ((s.store k v).2) := by
  unfold State.store
  split
  · exact h
  · split
    · exact h
    · exact h.wrStored

theorem State.Keeps.writePlain {c : Card} {k v : Nat} (h : s₀.Keeps s) : s₀.Keeps ((s.writePlain c k v).2) := by
  unfold State.writePlain
  split
  · exact h
  · split
    · exact h.store
    · exact h.wr.ibiRefresh

theorem State.Keeps.alsoRecord {k v : Nat} (h : s₀.Keeps s) : s₀.Keeps (s.alsoRecord k v) :=
  h.setNv h.nv

theorem State.Keeps.colophonTagWrite {n v : Nat} (h : s₀.Keeps s) : s₀.Keeps ((Machine.colophonTagWrite n v s).2) := by
  unfold Machine.colophonTagWrite
  extract_lets s1
  have h1 : s₀.Keeps s1 := h.paramRecord.wr.count
  split
  · exact h
  · split
    · exact h
    · split
      · exact h
      · exact h1.alsoRecord

theorem State.Keeps.colophonLockWrite {arg : List Byte} (h : s₀.Keeps s) : s₀.Keeps ((Machine.colophonLockWrite arg s).2) := by
  unfold Machine.colophonLockWrite
  split
  · exact h
  · exact h.ifIdle fun _ hs => hs.wrStored.cmdDone

theorem State.Keeps.deviceResetWrite {arg : List Byte} (h : s₀.Keeps s) : s₀.Keeps ((Machine.deviceResetWrite arg s).2) := by
  unfold Machine.deviceResetWrite
  split
  · exact h
  · exact (h.ifIdle fun _ hs => by
      extract_lets s2
      have h2 : s₀.Keeps s2 := hs.cmdDone.checkpoint
      exact (h2.setNv h2.nv))

theorem State.Keeps.recoveryLoadWrite {viaI3c : Bool} {arg : List Byte} {env : Env} (h : s₀.Keeps s) :
    s₀.Keeps ((Machine.recoveryLoadWrite viaI3c arg env s).2) := by
  unfold Machine.recoveryLoadWrite
  extract_lets
  split
  · exact h
  · split
    · exact h
    · exact (h.ifIdle fun _ hs => by
        extract_lets _ _ s2
        have h2 : s₀.Keeps s2 := hs.setNv (fun hc => (((hs.nv hc).putSlot (hs.tiers hc).recovery)))
        exact (.ite hs.cmdDone (.ite h2.cmdDone (.cmdDone (h2.setNv fun hc => { (h2.nv hc).commitSlot with })))))

theorem State.Keeps.sharedPoolWrite {v : Nat} (h : s₀.Keeps s) : s₀.Keeps ((Machine.sharedPoolWrite v s).2) := by
  unfold Machine.sharedPoolWrite
  split
  · exact h
  · exact h.store

theorem State.Keeps.t2InlineEccWrite {v : Nat} (h : s₀.Keeps s) : s₀.Keeps ((Machine.t2InlineEccWrite v s).2) := by
  unfold Machine.t2InlineEccWrite
  split
  · exact h
  · exact h.store

theorem State.Keeps.fwOffsetWrite {v : Nat} (h : s₀.Keeps s) : s₀.Keeps ((Machine.fwOffsetWrite v s).2) := by
  unfold Machine.fwOffsetWrite
  split
  · exact h
  · split
    · exact h
    · exact h.wr

theorem State.Keeps.serveBlock {q : QNum} {c : Card} {r : Request} (h : s₀.Keeps s) :
    s₀.Keeps ((Machine.serveBlock q c r s).2) := by
  unfold Machine.serveBlock
  split
  · exact h.qEnableWrite
  · exact h.qDisableWrite
  · exact h.qResetWrite
  · exact h.qDmaFaultWrite
  · exact h.stitchConfig
  · exact h.writePlain

theorem State.Keeps.serveLow {c : Card} {r : Request} {env : Env} {viaI3c : Bool} (h : s₀.Keeps s) :
    s₀.Keeps ((Machine.serveLow c r env viaI3c s).2) := by
  unfold Machine.serveLow
  extract_lets
  split
  · exact h.colophonTagWrite
  · exact h.colophonLockWrite
  · exact h.lcTransitionWrite
  · exact h.arbAdvanceWrite
  · exact h.classKeyWrite
  · exact h.debugUnlockWrite
  · exact h.profileSwitchWrite
  · exact h.deviceResetWrite
  · exact h.recoveryLoadWrite
  · exact h.pwrRequestWrite
  · exact h.thermBoardWrite
  · exact h.writePlain

theorem State.Keeps.serveHigh {c : Card} {r : Request} {env : Env} (h : s₀.Keeps s) :
    s₀.Keeps ((Machine.serveHigh c r env s).2) := by
  unfold Machine.serveHigh
  extract_lets
  split
  · exact h.pressSubmit
  · exact h.pressSubmit
  · exact h.fwOffsetWrite
  · exact h.fwStageWrite
  · exact h.fwUpdateWrite
  · exact h.sharedPoolWrite
  · exact h.t2InlineEccWrite
  · exact h.libRemoveWrite
  · exact h.peerAcceptWrite
  · exact h.peerExportWrite
  · split
    · exact h
    · exact h.sentEnableWrite
  · exact h.sentArmWrite
  · exact h.sentDisarmWrite
  · exact h.sentWakeWrite
  · exact h.wdtServiceWrite
  · split
    · exact h.wdtPeriodWrite
    · exact h.writePlain
  · exact h.alertClearWrite
  · exact h.writePlain

theorem State.Keeps.serveOp {c : Card} {r : Request} {env : Env} {viaI3c : Bool} (h : s₀.Keeps s) :
    s₀.Keeps ((Machine.serveOp c r env viaI3c s).2) := by
  unfold Machine.serveOp
  split
  · exact h.commitWrite
  · exact h.stagedMemberWrite
  · split
    · exact h.profRestoreWrite
    · split
      · exact h.serveBlock
      · split
        · exact h.serveLow
        · exact h.serveHigh

theorem State.Keeps.serveWrite {c : Card} {r : Request} {env : Env} {viaI3c : Bool} (h : s₀.Keeps s) :
    s₀.Keeps ((Machine.serveWrite c r env viaI3c s).2) := by
  unfold Machine.serveWrite
  extract_lets s1
  have h1 : s₀.Keeps s1.2 := h.serveOp
  split
  · exact h
  · split
    · exact h
    · split
      · exact h
      · exact h1

theorem State.Keeps.serve {c : Card} {r : Request} {env : Env} {viaI3c : Bool} (h : s₀.Keeps s) :
    s₀.Keeps ((Machine.serve c r env viaI3c s).2.2) := by
  unfold Machine.serve
  extract_lets s1
  have h1 : s₀.Keeps s1.2 := h.serveWrite
  split
  · exact h1
  · split
    · exact h
    · exact h

theorem State.Keeps.intake {role : Option Role} {flags idx sub : Nat} {data : List Byte} (h : s₀.Keeps s) :
    s₀.Keeps ((s.intake role flags idx sub data).2) := by
  unfold State.intake
  extract_lets
  split
  · exact h
  · split
    · exact h.noteStatus
    · split
      · extract_lets s1
        have h1 : s₀.Keeps s1.2.2 := h.serve
        split
        · exact h1
        · exact h
      · exact h

theorem State.Keeps.countBusy (h : s₀.Keeps s) : s₀.Keeps s.countBusy :=
  h.count

theorem State.Keeps.holdCold {r : Request} {reply : Reply} (h : s₀.Keeps s) : s₀.Keeps (s.holdCold r reply) :=
  .wakeDemand (h.setDict h.dict)

theorem State.Keeps.mboxDone {i : Fin 9} {st : Nat} {data : List Byte} (h : s₀.Keeps s) : s₀.Keeps (s.mboxDone i st data) := by
  unfold State.mboxDone
  extract_lets _ s1
  have h1 : s₀.Keeps s1 := h.setMboxes fun hc => vec_get_set_of (p := fun m : Mbox => Mem.wf m.reqData = true) (h.mbox · hc) (h.mbox i hc)
  exact .ite h1.msixSend h1

theorem State.Keeps.deliver {reply : Reply} {st : Nat} {data : List Byte} (h : s₀.Keeps s) :
    s₀.Keeps (s.deliver reply st data) := by
  unfold State.deliver
  extract_lets
  split
  · exact h
  · exact h.answer
  · exact .ibiDue (h.setI3c (fun hc => (Tab.rising_put _ _ 0 (h.i3c hc) (Nat.zero_le _))))
  · exact h.mboxDone

theorem State.Keeps.deferCompletion {env : Env} (h : s₀.Keeps s) : s₀.Keeps (Machine.deferCompletion env s) := by
  unfold Machine.deferCompletion
  extract_lets
  split
  · exact h
  · extract_lets s1
    have h1 : s₀.Keeps s1 := h.setDict h.dict
    split
    · exact h
    · split
      · extract_lets s2
        have h2 : s₀.Keeps s2.2.2 := h1.serve
        exact h2.noteStatus.deliver
      · exact h1

/-! ### Bar0 -/

theorem State.Keeps.flushPba (h : s₀.Keeps s) : s₀.Keeps s.flushPba :=
  (.foldl h fun _ _ hs => by
    extract_lets
    exact (.ite hs.rest.emit hs))

theorem State.Keeps.setMsixByte {n : Fin 64} {k : Nat} {b : Byte} (h : s₀.Keeps s) : s₀.Keeps (s.setMsixByte n k b) :=
  h.rest

theorem State.Keeps.msixVectorUnmask {v : Fin 64} (h : s₀.Keeps s) : s₀.Keeps (Machine.msixVectorUnmask v s) :=
  .ite h.rest.flushPba h

theorem State.Keeps.configSpaceWrite {dstate : Fin 4} {msixEnable funcMask aspmL1 : Bool} {mps mrrs : Fin 8} (h : s₀.Keeps s) :
    s₀.Keeps (Machine.configSpaceWrite dstate msixEnable funcMask aspmL1 mps mrrs s) := by
  unfold Machine.configSpaceWrite
  extract_lets _ s1 s2
  have h1 : s₀.Keeps s1 := h.rest
  have h2 : s₀.Keeps s2 := .ite h1.wr h1
  exact .ite h h2.flushPba

theorem State.Keeps.setMbox {i : Fin 9} {m : Mbox} (h : s₀.Keeps s)
    (hm : s₀.Canonical → Mem.wf m.reqData = true) : s₀.Keeps (s.setMbox i m) :=
  h.setMboxes fun hc => vec_get_set_of (p := fun m : Mbox => Mem.wf m.reqData = true) (h.mbox · hc) (hm hc)

theorem State.Keeps.submitMbox {i : Fin 9} {irq : Bool} (h : s₀.Keeps s) : s₀.Keeps (s.submitMbox i irq) := by
  unfold State.submitMbox
  extract_lets m s1 flags len
  have h1 : s₀.Keeps s1 := h.setMbox (h.mbox i)
  split
  · exact h1.mboxDone
  · have ht : s₀.Keeps (s1.intake (mboxRole i flags) flags m.reqIndex.toNat m.reqSub.toNat (Mem.readN m.reqData 0 len)).2 :=
      h1.intake
    generalize s1.intake _ _ _ _ _ = r at ht ⊢
    obtain ⟨⟨st, d⟩ | r, t⟩ := r
    · exact State.Keeps.mboxDone ht
    · exact .ite (State.Keeps.countBusy ht).mboxDone (.holdCold (State.Keeps.setMbox ht (State.Keeps.mbox ht i)))

theorem State.Keeps.mboxGo {i : Fin 9} {v : Nat} (h : s₀.Keeps s) : s₀.Keeps (Machine.mboxGo i v s) :=
  .ite h (.ite h.count (.ite (h.setMbox (h.mbox i)) (.ite h.submitMbox h)))

theorem State.Keeps.writeMbox {i : Fin 9} {o : Nat} {data : List Byte} (h : s₀.Keeps s) : s₀.Keeps (s.writeMbox i o data) := by
  unfold State.writeMbox
  extract_lets _ s1
  have h1 : s₀.Keeps s1 := h.setMbox fun hc =>
    foldl_keeps (p := fun m : Mbox => Mem.wf m.reqData = true) (h.mbox i hc) fun _ _ hm => Mbox.setByte_wf hm
  exact .ite h.count (.ite h1.mboxGo h1)

theorem State.Keeps.ring {q : QNum} {o : Nat} {v : BitVec 32} {whole : Bool} (h : s₀.Keeps s) : s₀.Keeps (s.ring q o v whole) :=
  .ite h.cqHeadWrite (.ite h.stitchDb h.sqTailWrite)

theorem State.Keeps.writeDoorbell {q : QNum} {o : Nat} {data : List Byte} (h : s₀.Keeps s) :
    s₀.Keeps (s.writeDoorbell q o data) := by
  unfold State.writeDoorbell
  extract_lets
  exact h.ring

theorem State.Keeps.countReserved {off len : Nat} (h : s₀.Keeps s) : s₀.Keeps (s.countReserved off len) :=
  .ite h.count h

theorem State.Keeps.registerWrite {off : Nat} {data : List Byte} (h : s₀.Keeps s) :
    s₀.Keeps (Machine.registerWrite off data s) := by
  unfold Machine.registerWrite
  extract_lets s1
  have h1 : s₀.Keeps s1 := (.foldl h fun _ _ hs => by
    split
    · exact hs.setMsixByte
    · exact hs)
  split
  · exact h
  · split
    · exact h.writeDoorbell
    · split
      · exact h.writeMbox
      · exact h1.countReserved.flushPba

theorem State.Keeps.bar0ReservedWrite {off : Nat} {data : List Byte} (h : s₀.Keeps s) :
    s₀.Keeps (Machine.bar0ReservedWrite off data s) :=
  .ite h.count h

/-! ### Bar2 -/

theorem State.Keeps.windowRead {q : QNum} {a : Addr} {w len : Nat} (h : s₀.Keeps s) : s₀.Keeps (s.windowRead q a w len) := by
  unfold State.windowRead
  extract_lets
  split
  · exact h.aptRefuse
  · exact h.emit

theorem State.Keeps.windowPut {q : QNum} {a : Addr} {p : Nat × Nat × Nat} {bytes : List Byte} (h : s₀.Keeps s) :
    s₀.Keeps ((s.windowPut q a p bytes).1) := by
  unfold State.windowPut
  split
  · exact h
  · split
    · exact (h.setLeaf fun hc => Mem.writeL_wf _ _ _ ((h.canonical hc).leaf _ _)).forgetIdent
    · exact h

theorem State.Keeps.windowWrite {q : QNum} {a : Addr} {w : Nat} {data : List Byte} (h : s₀.Keeps s) :
    s₀.Keeps (s.windowWrite q a w data) := by
  unfold State.windowWrite
  extract_lets s1
  have h1 : s₀.Keeps s1.1 := (.foldl_fst h fun _ _ hs => by
    extract_lets s2
    have h2 : s₀.Keeps s2.1 := hs.windowPut
    exact h2)
  exact .ite h1.count h1

theorem State.Keeps.window {n w : Nat} {write : Bool} {len : Nat} {data : List Byte} (h : s₀.Keeps s) :
    s₀.Keeps (s.window n w write len data) := by
  unfold State.window
  extract_lets
  split
  · split
    · exact .ite h.windowWrite h.windowRead
    · exact .ite h.count h.emit
  · exact .ite h.count h.emit

theorem State.Keeps.stagingAccess {off : Nat} {write : Bool} {len : Nat} {data : List Byte} (h : s₀.Keeps s) :
    s₀.Keeps (s.stagingAccess off write len data) := by
  unfold State.stagingAccess
  extract_lets _ s1
  have h1 : s₀.Keeps s1 := (h.setTiers (fun hc => { h.tiers hc with staging := (Mem.writeL_wf _ _ _ (h.tiers hc).staging) }))
  exact .ite (.ite h1.consumeStaged h1) h.emit

theorem State.Keeps.recoveryAccess {off : Nat} {write : Bool} {len : Nat} {data : List Byte} (h : s₀.Keeps s) :
    s₀.Keeps (s.recoveryAccess off write len data) :=
  .ite (.ite (h.setTiers (fun hc => { h.tiers hc with recovery := (Mem.writeL_wf _ _ _ (h.tiers hc).recovery) })) h.emit) (.ite h h.emit)

theorem State.Keeps.ringAccess {off : Nat} {write : Bool} {len : Nat} {data : List Byte} (h : s₀.Keeps s) :
    s₀.Keeps (s.ringAccess off write len data) :=
  .ite (h.setTiers (fun hc => { h.tiers hc with rings := (Mem.writeL_wf _ _ _ (h.tiers hc).rings) })) h.emit

theorem State.Keeps.bar2Serve {off : Nat} {write : Bool} {len : Nat} {data : List Byte} (h : s₀.Keeps s) :
    s₀.Keeps (s.bar2Serve off write len data) :=
  .ite h.stagingAccess (.ite h.window (.ite h.window (.ite (.ite h.count h.aptRead) h.ringAccess)))

theorem State.Keeps.bar2Access {off : Nat} {write : Bool} {len : Nat} {data : List Byte} (h : s₀.Keeps s) :
    s₀.Keeps (s.bar2Access off write len data) := by
  unfold State.bar2Access
  extract_lets s1
  have h1 : s₀.Keeps s1 := h.wakeDemand
  refine .ite h ?_
  split
  · exact h.recoveryAccess
  · exact .ite h1.bar2Serve h1.setPm

theorem State.Keeps.serveHeld (h : s₀.Keeps s) : s₀.Keeps s.serveHeld :=
  .ite (.foldl h.setPm fun _ _ hs => hs.bar2Serve) h

theorem State.Keeps.bar2WindowAccess {off : Nat} {write : Bool} {len : Nat} {data : List Byte} (h : s₀.Keeps s) :
    s₀.Keeps (Machine.bar2WindowAccess off write len data s) :=
  .ite h h.bar2Access

theorem State.Keeps.stagingProducedWrite {v : Nat} (h : s₀.Keeps s) : s₀.Keeps (Machine.stagingProducedWrite v s) :=
  .ite h.bar2Access h

theorem State.Keeps.apertureRead {off len : Nat} (h : s₀.Keeps s) : s₀.Keeps (Machine.apertureRead off len s) :=
  .ite h.bar2Access h

theorem State.Keeps.apertureWrite {off : Nat} {data : List Byte} (h : s₀.Keeps s) : s₀.Keeps (Machine.apertureWrite off data s) :=
  .ite h.bar2Access h

theorem State.Keeps.bar2RingWrite {off : Nat} {data : List Byte} (h : s₀.Keeps s) : s₀.Keeps (Machine.bar2RingWrite off data s) :=
  .ite h.bar2Access h

theorem State.Keeps.wakeFromSleep (h : s₀.Keeps s) : s₀.Keeps (Machine.wakeFromSleep s) :=
  h.leaveSleep.serveHeld

theorem State.Keeps.clkinDetected (h : s₀.Keeps s) : s₀.Keeps (Machine.clkinDetected s) :=
  h.detectClkin.serveHeld

/-! ### Commands -/

theorem State.Keeps.dictRequest {role : Role} {idx sub : Nat} {data : List Byte} {env : Env} (h : s₀.Keeps s) :
    s₀.Keeps (Machine.dictRequest role idx sub data env s) := by
  unfold Machine.dictRequest
  split
  · exact h
  · have ht : s₀.Keeps (s.intake (some role) 1 idx sub data).2 := h.intake
    generalize s.intake _ _ _ _ _ = r at ht ⊢
    obtain ⟨⟨st, d⟩ | r, t⟩ := r
    · exact State.Keeps.answer ht
    · replace ht : s₀.Keeps t := ht
      dsimp only
      split
      · split
        · next c _ =>
          have ha : s₀.Keeps (Machine.serve c r env false t.wakeDemand).2.2 := ht.wakeDemand.serve
          exact ha.noteStatus.answer
        · exact ht
      · exact .ite ht.countBusy.answer ht.holdCold.answer

theorem State.Keeps.commitRow {role : Role} {idx : Nat} {arg : Byte} (h : s₀.Keeps s) :
    s₀.Keeps (Machine.commitRow role idx arg s) :=
  .ite h.dictRequest h

theorem State.Keeps.lcRow {target : Nat} {role : Role} {arg : List Byte} {env : Env} (h : s₀.Keeps s) :
    s₀.Keeps (Machine.lcRow target role arg env s) :=
  .ite h.dictRequest h

theorem State.Keeps.arbRow {which : Nat} {role : Role} {arg : List Byte} (h : s₀.Keeps s) :
    s₀.Keeps (Machine.arbRow which role arg s) :=
  .ite h.dictRequest h

/-! ### Fetch -/

theorem State.Keeps.submissionFetch {q : QNum} {host : List Byte} (h : s₀.Keeps s) :
    s₀.Keeps (Machine.submissionFetch q host s) := by
  unfold Machine.submissionFetch
  extract_lets
  split
  · exact h
  · split
    · exact h
    · extract_lets _ _ _ _ _ _ s1 s2
      have h1 : s₀.Keeps s1 := .ite h.emit h
      have h2 : s₀.Keeps s2 := h1.setQuire (h.quire _)
      split
      · exact h2.freezeEntry
      · split
        · exact h2.freezeEntry
        · exact h2

/-! ### I3c -/

theorem State.Keeps.busStart (h : s₀.Keeps s) : s₀.Keeps s.busStart :=
  h.setClk

theorem State.Keeps.foreignStart (h : s₀.Keeps s) : s₀.Keeps s.foreignStart :=
  .ite h.busStart h

theorem State.Keeps.respond {status ticket : Nat} {data : List Byte} (h : s₀.Keeps s) : s₀.Keeps (s.respond status ticket data) :=
  h.setI3c h.i3c

theorem State.Keeps.badFrame {status : Nat} (h : s₀.Keeps s) : s₀.Keeps (s.badFrame status) := by
  unfold State.badFrame
  extract_lets s1
  have h1 : s₀.Keeps s1 := h.count.respond
  exact h1.setI3c h1.i3c

theorem State.Keeps.deferI3c {r : Request} (h : s₀.Keeps s) : s₀.Keeps (s.deferI3c r) := by
  unfold State.deferI3c
  extract_lets
  split
  · extract_lets s1
    have h1 : s₀.Keeps s1 := h.setI3c (fun hc => (Tab.rising_put _ _ 0 (h.i3c hc) (Nat.zero_le _)))
    exact .ite h.countBusy.respond h1.holdCold.respond
  · exact h.countBusy.respond

theorem State.Keeps.requestFrame {fr : List Byte} (h : s₀.Keeps s) : s₀.Keeps (s.requestFrame fr) := by
  unfold State.requestFrame
  extract_lets flags
  split
  · exact h.badFrame
  · have ht : s₀.Keeps (s.intake (some (if bit flags 2 then .factory else .hostP)) flags (fieldLe fr 1 2) (fieldLe fr 3 1)
        (fr.drop 7)).2 := h.intake
    generalize s.intake _ _ _ _ _ = r at ht ⊢
    obtain ⟨⟨st, d⟩ | r, t⟩ := r
    · exact State.Keeps.respond ht
    · exact State.Keeps.deferI3c ht

theorem State.Keeps.fetchFrame {n : Nat} (h : s₀.Keeps s) : s₀.Keeps (s.fetchFrame n) := by
  unfold State.fetchFrame
  extract_lets
  split
  · exact h.respond
  · exact h.respond
  · exact .respond (h.setI3c (fun hc => (Tab.rising_put _ _ 0 (h.i3c hc) (Nat.zero_le _))))

theorem State.Keeps.frame {bytes : List Byte} {parityErr : Bool} (h : s₀.Keeps s) : s₀.Keeps (s.frame bytes parityErr) := by
  unfold State.frame
  extract_lets s1
  have h1 : s₀.Keeps s1 := h.busStart
  exact .ite h1.badFrame (.ite (.ite h1.badFrame h1.requestFrame) (.ite (.ite h1.badFrame h1.fetchFrame) h1.badFrame))

theorem State.Keeps.readResponse {ready : Bool} (h : s₀.Keeps s) : s₀.Keeps (s.readResponse ready) := by
  unfold State.readResponse
  extract_lets s1
  have h1 : s₀.Keeps s1 := h.busStart
  exact h1.emit

theorem State.Keeps.ccc {f : State → State} (h : s₀.Keeps s) (hf : ∀ (s : State), s₀.Keeps s → s₀.Keeps (f s)) :
    s₀.Keeps (s.ccc f) :=
  .ite (hf _ h.busStart) h

theorem State.Keeps.direct {f : State → State} (h : s₀.Keeps s) (hf : ∀ (s : State), s₀.Keeps s → s₀.Keeps (f s)) :
    s₀.Keeps (s.direct f) :=
  h.ccc fun _ hs => (.ite hs.emit (hf _ hs))

theorem State.Keeps.cccBy {own code : Byte} {f : State → State} (h : s₀.Keeps s) (hf : ∀ (s : State), s₀.Keeps s → s₀.Keeps (f s)) : s₀.Keeps (s.cccBy own code f) :=
  .ite (h.ccc hf) (.ite (h.direct hf) (.ite h (h.ccc fun _ hs => (.ite hs.emit hs))))

theorem State.Keeps.answerCcc {l : List Byte} (h : s₀.Keeps s) : s₀.Keeps (s.answerCcc l) :=
  h.emit

theorem State.Keeps.enec {code : Byte} {int hj : Bool} (h : s₀.Keeps s) : s₀.Keeps (Machine.enec code int hj s) :=
  h.cccBy fun _ hs => (hs.setI3c hs.i3c)

theorem State.Keeps.disec {code : Byte} {int hj : Bool} (h : s₀.Keeps s) : s₀.Keeps (Machine.disec code int hj s) :=
  h.cccBy fun _ hs => (.ibiRefresh (hs.setI3c hs.i3c))

theorem State.Keeps.entas {code : Byte} (h : s₀.Keeps s) : s₀.Keeps (Machine.entas code s) := by
  unfold Machine.entas
  extract_lets
  exact h.cccBy fun _ hs => hs

theorem State.Keeps.rstdaa (h : s₀.Keeps s) : s₀.Keeps (Machine.rstdaa s) :=
  h.ccc fun _ hs => hs.wr

theorem State.Keeps.entdaa {addr : BitVec 7} (h : s₀.Keeps s) : s₀.Keeps (Machine.entdaa addr s) :=
  h.ccc fun _ hs => (.ite hs hs.answerCcc.wr)

theorem State.Keeps.setmwl {code : Byte} {len : BitVec 16} (h : s₀.Keeps s) : s₀.Keeps (Machine.setmwl code len s) :=
  h.cccBy fun _ hs => (.ite (hs.setI3c hs.i3c) hs)

theorem State.Keeps.setmrl {code : Byte} {len : BitVec 16} (h : s₀.Keeps s) : s₀.Keeps (Machine.setmrl code len s) :=
  h.cccBy fun _ hs => (.ite (hs.setI3c hs.i3c) hs)

theorem State.Keeps.enthdr0 (h : s₀.Keeps s) : s₀.Keeps (Machine.enthdr0 s) :=
  h.ccc fun _ hs => (hs.setI3c hs.i3c)

theorem State.Keeps.hdrExit (h : s₀.Keeps s) : s₀.Keeps (Machine.hdrExit s) :=
  h.setI3c h.i3c

theorem State.Keeps.setdasa {addr : BitVec 7} (h : s₀.Keeps s) : s₀.Keeps (Machine.setdasa addr s) :=
  h.ccc fun _ hs => (.ite hs.wr hs.emit)

theorem State.Keeps.setnewda {addr : BitVec 7} (h : s₀.Keeps s) : s₀.Keeps (Machine.setnewda addr s) :=
  h.direct fun _ hs => (.ite hs hs.wr)

theorem State.Keeps.getmwl (h : s₀.Keeps s) : s₀.Keeps (Machine.getmwl s) :=
  h.direct fun _ hs => hs.answerCcc

theorem State.Keeps.getmrl (h : s₀.Keeps s) : s₀.Keeps (Machine.getmrl s) :=
  h.direct fun _ hs => hs.answerCcc

theorem State.Keeps.getpid (h : s₀.Keeps s) : s₀.Keeps (Machine.getpid s) :=
  h.direct fun _ hs => hs.answerCcc

theorem State.Keeps.getbcr (h : s₀.Keeps s) : s₀.Keeps (Machine.getbcr s) :=
  h.direct fun _ hs => hs.answerCcc

theorem State.Keeps.getdcr (h : s₀.Keeps s) : s₀.Keeps (Machine.getdcr s) :=
  h.direct fun _ hs => hs.answerCcc

theorem State.Keeps.getstatus (h : s₀.Keeps s) : s₀.Keeps (Machine.getstatus s) :=
  (h.direct fun _ hs => by
    extract_lets
    exact (hs.answerCcc.setI3c hs.i3c))

theorem State.Keeps.getmxds (h : s₀.Keeps s) : s₀.Keeps (Machine.getmxds s) :=
  h.direct fun _ hs => hs.answerCcc

theorem State.Keeps.getcaps (h : s₀.Keeps s) : s₀.Keeps (Machine.getcaps s) :=
  h.direct fun _ hs => hs.answerCcc

theorem State.Keeps.hotJoinRequest (h : s₀.Keeps s) : s₀.Keeps (Machine.hotJoinRequest s) :=
  .ite h.emit h

theorem State.Keeps.ibiSend {acked : Bool} (h : s₀.Keeps s) : s₀.Keeps (Machine.ibiSend acked s) := by
  unfold Machine.ibiSend
  split
  · exact h
  · split
    · extract_lets s1
      have h1 : s₀.Keeps s1 := h.emit
      exact .ite (h1.setI3c h1.i3c) h1
    · exact h

end Sys2Proof.Machine
end

section
/-! PROOFS. Every command keeps what it must, and so does a step. -/

-- Short proofs that wait for one another, each on a thread of its own when run in parallel: one after another instead.
set_option Elab.async false

namespace Sys2Proof.Machine

namespace State.Keeps

theorem ofNext {s t u : State} (hk : s.Keeps u) (h : (.next u : Host.Outcome State Fault Refusal) = .next t) : s.Keeps t := by
  cases h
  exact hk

theorem testenHigh {s t : State} (h : execTestenHigh s = .next t) : s.Keeps t := by
  unfold execTestenHigh at h
  split at h
  · cases h
  · exact ofNext (.setPins (.ite (refl s) (refl s).deviceReset)) h

theorem vendorDebug {s t : State} {code : BitVec 6} {target : DebugTarget}
    (h : execVendorDebugInstruction code target s = .next t) : s.Keeps t := by
  unfold execVendorDebugInstruction at h
  split at h
  · exact ofNext (refl s) h
  split at h
  · exact ofNext (refl s).loadIr h
  split at h
  · exact ofNext (refl s).loadIr.emit h
  · cases h

/-- What a command leaves is kept of what it found: one operation of the machine for each command. -/
theorem exec {s t : State} {c : Instr} (h : Machine.exec c s = .next t) : s.Keeps t := by
  cases c with
  | powerOn _ => exact ofNext (refl s).powerOn h
  | aonRelease => exact ofNext (refl s).aonRelease h
  | pgoodInFall => exact ofNext (refl s).pgoodInFall h
  | pgoodInRise => exact ofNext (refl s).pgoodInRise h
  | resetNAssert => exact ofNext (refl s).resetNAssert h
  | resetNRelease => exact ofNext (refl s).resetNRelease h
  | bootStart _ => exact ofNext (refl s).bootStart h
  | perstNAssert => exact ofNext (refl s).perstNAssert h
  | perstNRelease => exact ofNext (refl s).perstNRelease h
  | flr => exact ofNext (refl s).flr h
  | testenHigh => exact testenHigh h
  | tapReset => exact ofNext (refl s).tapReset h
  | extest => exact ofNext (refl s).extest h
  | clamp => exact ofNext (refl s).clamp h
  | highz => exact ofNext (refl s).highz h
  | samplePreload _ => exact ofNext (refl s).samplePreload h
  | idcode => exact ofNext (refl s).idcode h
  | bypass _ => exact ofNext (refl s).bypass h
  | vendorDebugInstruction _ _ => exact vendorDebug h
  | clkinDetected => exact ofNext (refl s).clkinDetected h
  | clkinLost => exact ofNext (refl s).clkinLost h
  | crystalStart => exact ofNext (refl s).crystalStart h
  | quickOscStop => exact ofNext (refl s).quickOscStop h
  | vselSettleEnd _ => exact ofNext (refl s).vselSettleEnd h
  | deviceResetStart => exact ofNext (refl s).deviceResetStart h
  | mcWakeComplete _ => exact ofNext (refl s).mcWakeComplete h
  | i3cRequestFrame _ _ => exact ofNext (.ite (refl s).frame (refl s).foreignStart) h
  | i3cFetchFrame _ _ => exact ofNext (.ite (refl s).frame (refl s).foreignStart) h
  | i3cPrivateRead _ => exact ofNext (.ite (refl s).readResponse (refl s).foreignStart) h
  | hdrDdrWriteCmd _ _ _ => exact ofNext (.ite (refl s).frame (refl s)) h
  | hdrDdrReadCmd _ _ => exact ofNext (.ite (refl s).readResponse (refl s)) h
  | enec _ _ => exact ofNext (refl s).enec h
  | disec _ _ => exact ofNext (refl s).disec h
  | entas _ => exact ofNext (refl s).entas h
  | rstdaa => exact ofNext (refl s).rstdaa h
  | entdaa _ => exact ofNext (refl s).entdaa h
  | setmwl _ => exact ofNext (refl s).setmwl h
  | setmrl _ => exact ofNext (refl s).setmrl h
  | enthdr0 => exact ofNext (refl s).enthdr0 h
  | setdasa _ => exact ofNext (refl s).setdasa h
  | setnewda _ => exact ofNext (refl s).setnewda h
  | getmwl => exact ofNext (refl s).getmwl h
  | getmrl => exact ofNext (refl s).getmrl h
  | getpid => exact ofNext (refl s).getpid h
  | getbcr => exact ofNext (refl s).getbcr h
  | getdcr => exact ofNext (refl s).getdcr h
  | getstatus => exact ofNext (refl s).getstatus h
  | getmxds => exact ofNext (refl s).getmxds h
  | getcaps => exact ofNext (refl s).getcaps h
  | hotJoinRequest => exact ofNext (refl s).hotJoinRequest h
  | ibiSend _ => exact ofNext (refl s).ibiSend h
  | deferCompletion _ => exact ofNext (refl s).deferCompletion h
  | mboxGo _ _ => exact ofNext (refl s).mboxGo h
  | registerWrite _ _ => exact ofNext (refl s).registerWrite h
  | bar0ReservedWrite _ _ => exact ofNext (refl s).bar0ReservedWrite h
  | dictWrite _ _ _ _ => exact ofNext (refl s).dictRequest h
  | stagedWrite _ _ _ _ => exact ofNext (.ite (refl s).dictRequest (refl s)) h
  | commit _ _ => exact ofNext (refl s).commitRow h
  | commitValidateOnly _ _ => exact ofNext (refl s).commitRow h
  | commitDiscard _ _ => exact ofNext (refl s).commitRow h
  | commitSafePoint _ => exact ofNext (refl s).commitSafePoint h
  | profRestore _ _ => exact ofNext (refl s).dictRequest h
  | profileSwitch _ _ => exact ofNext (refl s).dictRequest h
  | switchDrainEnd _ => exact ofNext (refl s).switchDrainEnd h
  | switchDrainLimit _ => exact ofNext (refl s).switchDrainLimit h
  | switchResume => exact ofNext (refl s).switchResume h
  | deviceReset _ _ => exact ofNext (refl s).dictRequest h
  | recoveryLoad _ _ _ => exact ofNext (refl s).dictRequest h
  | colophonTagWrite _ _ _ => exact ofNext (refl s).dictRequest h
  | colophonLock _ _ => exact ofNext (refl s).dictRequest h
  | qEnable _ _ => exact ofNext (refl s).dictRequest h
  | qDisable _ _ => exact ofNext (refl s).dictRequest h
  | qDisableForce _ _ => exact ofNext (refl s).dictRequest h
  | drainEnd _ => exact ofNext (refl s).drainEnd h
  | qReset _ _ => exact ofNext (refl s).dictRequest h
  | qDmaFault _ _ _ => exact ofNext (refl s).dictRequest h
  | qStitchConfig _ _ _ => exact ofNext (refl s).dictRequest h
  | pwrRequestSRet _ => exact ofNext (refl s).dictRequest h
  | pwrRequestSSent _ => exact ofNext (refl s).dictRequest h
  | wakeFromSleep => exact ofNext (refl s).wakeFromSleep h
  | eraseBlock _ _ => exact ofNext (refl s).pressRow h
  | eraseSector _ _ => exact ofNext (refl s).pressRow h
  | programRun _ _ => exact ofNext (refl s).pressRow h
  | readRun _ _ => exact ofNext (refl s).pressRow h
  | otpProgram _ _ => exact ofNext (refl s).pressRow h
  | refreshMove _ _ => exact ofNext (refl s).pressRow h
  | pressOpComplete _ _ => exact ofNext (refl s).pressOpComplete h
  | pressSuspend _ => exact ofNext (refl s).pressSuspend h
  | pressResume _ => exact ofNext (refl s).pressResume h
  | fwStageData _ _ => exact ofNext (refl s).dictRequest h
  | fwUpdate _ _ _ => exact ofNext (refl s).dictRequest h
  | submissionFetch _ _ => exact ofNext (refl s).submissionFetch h
  | nop _ _ => exact ofNext (refl s).nop h
  | runImposition _ _ _ => exact ofNext (refl s).runImposition h
  | loadSlipcase _ _ _ => exact ofNext (refl s).loadSlipcase h
  | unload _ _ => exact ofNext (refl s).unload h
  | linkTextBlock _ _ => exact ofNext (refl s).linkTextBlock h
  | alloc _ _ => exact ofNext (refl s).alloc h
  | free _ _ => exact ofNext (refl s).free h
  | migrateHint _ _ => exact ofNext (refl s).migrateHint h
  | copy _ _ _ => exact ofNext (refl s).copy h
  | stitchSignal _ _ => exact ofNext (refl s).stitchSignal h
  | stitchWait _ _ => exact ofNext (refl s).stitchWait h
  | fence _ _ => exact ofNext (refl s).fence h
  | trainCommit _ _ => exact ofNext (refl s).trainCommit h
  | waitResume _ _ _ => exact ofNext (refl s).waitResume h
  | sqTailWrite _ _ _ _ => exact ofNext (refl s).sqTailWrite h
  | cqHeadWrite _ _ _ => exact ofNext (refl s).cqHeadWrite h
  | stitchDb _ _ _ => exact ofNext (refl s).stitchDb h
  | grant _ _ => exact ofNext (refl s).grant h
  | bayGateToOff _ => exact ofNext (refl s).bayGateToOff h
  | bayPllOff => exact ofNext (refl s).bayPllOff h
  | bayRetestDone _ _ => exact ofNext (refl s).bayRetestDone h
  | dmaReadError _ _ _ => exact ofNext (refl s).dmaReadError h
  | stampZero _ _ => exact ofNext (refl s).stampZero h
  | teBuild _ => exact ofNext (refl s).teBuild h
  | teLookup _ _ => exact ofNext (refl s).teLookup h
  | teClear _ => exact ofNext (refl s).teClear h
  | teRescale _ => exact ofNext (refl s).teRescale h
  | escApply _ => exact ofNext (refl s).escApply h
  | lnsMul _ => exact ofNext (refl s).lnsMulIssue h
  | lnsAdd _ => exact ofNext (refl s).lnsAddIssue h
  | lnsReduce _ => exact ofNext (refl s).lnsReduceIssue h
  | lnsFromlin _ => exact ofNext (refl s).lnsFromlinIssue h
  | lnsTolin _ => exact ofNext (refl s).lnsTolinIssue h
  | refFma _ => exact ofNext (refl s).refFma h
  | refCast _ => exact ofNext (refl s).refCast h
  | refTopk _ => exact ofNext (refl s).refTopk h
  | convPass1 _ => exact ofNext (refl s).convPass1 h
  | convPass2 _ => exact ofNext (refl s).convPass2 h
  | convCarry _ => exact ofNext (refl s).convCarry h
  | convStats _ => exact ofNext (refl s).convStats h
  | movIn _ _ => exact ofNext (refl s).movIn h
  | movOut _ _ => exact ofNext (refl s).movOut h
  | stream _ => exact ofNext (refl s).stream h
  | waitStitch _ => exact ofNext (refl s).waitStitch h
  | signalStitch _ => exact ofNext (refl s).signalStitch h
  | fork _ _ => exact ofNext (refl s).fork h
  | specBegin _ => exact ofNext (refl s).specBegin h
  | specCommit _ => exact ofNext (refl s).specCommit h
  | specCancel _ => exact ofNext (refl s).specCancel h
  | precisionFence _ => exact ofNext (refl s).precisionFence h
  | maintSlot _ => exact ofNext (refl s).maintSlot h
  | loop _ => exact ofNext (refl s).loop h
  | idle _ => exact ofNext (refl s).idle h
  | endStream _ => exact ofNext (refl s).endStream h
  | slipEnd _ _ _ => exact ofNext (refl s).slipEnd h
  | leafArrival _ _ _ => exact ofNext (refl s).leafArrival h
  | stripeDelivery _ _ => exact ofNext (refl s).stripeDelivery h
  | deadlineExceeded _ _ => exact ofNext (refl s).deadlineExceeded h
  | runComplete _ _ _ _ => exact ofNext (refl s).runComplete h
  | comparisonStage => exact ofNext (refl s).comparisonStage h
  | hostWaitTimeout _ _ => exact ofNext (refl s).hostWaitTimeout h
  | seqWaitTimeout _ => exact ofNext (refl s).seqWaitTimeout h
  | weaveSlotStart => exact ofNext (refl s).weaveSlotStart h
  | refreshRemap _ _ => exact ofNext (refl s).refreshRemap h
  | scrubPass => exact ofNext (refl s).scrubPass h
  | apertureRead _ _ => exact ofNext (refl s).apertureRead h
  | apertureWrite _ _ => exact ofNext (refl s).apertureWrite h
  | bar2WindowAccess _ _ _ _ => exact ofNext (refl s).bar2WindowAccess h
  | bar2RingWrite _ _ _ => exact ofNext (refl s).bar2RingWrite h
  | stagingProducedWrite _ => exact ofNext (refl s).stagingProducedWrite h
  | stagingTimeout => exact ofNext (refl s).stagingTimeout h
  | loadComplete _ _ _ => exact ofNext (refl s).loadComplete h
  | libraryRemoval _ => exact ofNext (refl s).libraryRemoval h
  | libRemove _ _ => exact ofNext (refl s).dictRequest h
  | peerAccept _ _ _ => exact ofNext (refl s).dictRequest h
  | peerExport _ _ _ => exact ofNext (refl s).dictRequest h
  | peerSessionExpiry _ => exact ofNext (refl s).peerSessionExpiry h
  | trainSwitch _ _ => exact ofNext (refl s).trainSwitch h
  | tmMoveComplete _ _ => exact ofNext (refl s).tmMoveComplete h
  | zeroingJobDone => exact ofNext (refl s).zeroingJobDone h
  | powerEvaluation _ _ => exact ofNext (refl s).powerEvaluation h
  | sprintClose => exact ofNext (refl s).sprintClose h
  | sprintReady => exact ofNext (refl s).sprintReady h
  | thermBoardTempWrite _ _ => exact ofNext (refl s).dictRequest h
  | thermBoardStale => exact ofNext (refl s).thermBoardStale h
  | alertClear _ _ => exact ofNext (refl s).dictRequest h
  | aspmL1Request => exact ofNext (refl s).aspmL1Request h
  | l12Exit => exact ofNext (refl s).l12Exit h
  | sentArm _ _ => exact ofNext (refl s).dictRequest h
  | sentDisarm _ => exact ofNext (refl s).dictRequest h
  | sentEnableWrite _ _ => exact ofNext (refl s).dictRequest h
  | sentWakeAssertedWrite _ _ => exact ofNext (refl s).dictRequest h
  | sentFrameEnd _ _ _ => exact ofNext (refl s).sentFrameEnd h
  | sentDetection => exact ofNext (refl s).sentDetection h
  | wdtService _ _ => exact ofNext (refl s).dictRequest h
  | wdtPeriodWrite _ _ => exact ofNext (refl s).dictRequest h
  | fwTimerExpiry => exact ofNext (refl s).fwTimerExpiry h
  | hostTimerExpiry => exact ofNext (refl s).hostTimerExpiry h
  | wdtGraceExpiry => exact ofNext (refl s).wdtGraceExpiry h
  | classKeyWrite _ _ _ => exact ofNext (refl s).dictRequest h
  | t2InlineEccWrite _ _ => exact ofNext (refl s).dictRequest h
  | lcToProvisioned _ _ _ => exact ofNext (refl s).lcRow h
  | lcToField _ _ => exact ofNext (refl s).lcRow h
  | lcToRma _ _ => exact ofNext (refl s).lcRow h
  | arbAdvanceFirmware _ _ => exact ofNext (refl s).arbRow h
  | arbAdvanceSlipcase _ _ => exact ofNext (refl s).arbRow h
  | debugUnlock _ _ _ => exact ofNext (refl s).dictRequest h
  | powerLoss => exact ofNext (refl s).powerLoss h
  | testenLow => exact ofNext (refl s).testenLow h
  | hdrExit => exact ofNext (refl s).hdrExit h
  | linkEntersL0 _ _ => exact ofNext (refl s).linkEntersL0 h
  | linkDown => exact ofNext (refl s).linkDown h
  | l1SubstateEntry _ => exact ofNext (refl s).l1SubstateEntry h
  | msixVectorUnmask _ => exact ofNext (refl s).msixVectorUnmask h
  | configSpaceWrite _ _ _ _ => exact ofNext (refl s).configSpaceWrite h
  | slowTick _ => exact ofNext (refl s).slowTick h

end State.Keeps

/-- Taking the front command off the queue touches nothing the invariant speaks of. -/
theorem State.Canonical.setPending {s : State} {l : List Instr} (h : s.Canonical) :
    State.Canonical { s with pending := l } :=
  ⟨h.dict, h.i3c, h.mbox, h.quire, h.bay, h.st, h.weave, h.nv, h.tiers, h.sent, h.sec⟩

/-- Settles O56: the invariant is the canonical form of each part, which every command keeps. -/
theorem stepKeepsInvariant : Obligations.StepKeepsInvariant := by
  unfold Obligations.StepKeepsInvariant
  intro s t hs h
  rw [← State.canonical_iff] at hs ⊢
  unfold step at h
  split at h
  · cases h
    exact hs
  · exact (State.Keeps.exec h).canonical hs.setPending

/-- Settles O57: every write of the OTP row sets bits in what it held (R590). -/
theorem otpBitsOnlyRise : Obligations.OtpBitsOnlyRise := by
  unfold Obligations.OtpBitsOnlyRise
  intro c s t hs h
  exact (State.Keeps.exec h).otp ((State.canonical_iff s).mpr hs)

/-- Settles O58. -/
theorem commandsLeaveQueueAndSku : Obligations.CommandsLeaveQueueAndSku := by
  unfold Obligations.CommandsLeaveQueueAndSku
  intro c s t h
  have hk := State.Keeps.exec h
  exact ⟨hk.pending, hk.sku, hk.sends⟩

end Sys2Proof.Machine
end

section
/-! PROOFS. Which commands can stop (R867, R889). -/

namespace Sys2Proof.Machine

theorem execTestenHigh_next {s : State} (h : s.lcRow ≠ lcBlank) : ∃ t, execTestenHigh s = .next t := by
  unfold execTestenHigh
  rw [if_neg h]
  exact ⟨_, rfl⟩

/-- A vendor debug instruction that is assigned, closed, or names an execute-only leaf completes; the others are refused. -/
theorem execVendorDebugInstruction_stops {s : State} {code : BitVec 6} {target : DebugTarget} :
    (∃ t, execVendorDebugInstruction code target s = .next t) ∨
    s.namesXo target = false ∧ assignedIr code = false ∧ s.debugNow ≠ 0 ∧
      execVendorDebugInstruction code target s = .refused .vendorDebugUndescribed := by
  unfold execVendorDebugInstruction
  by_cases hi : ¬ s.tapPowered ∨ assignedIr code
  · exact .inl ⟨s, if_pos hi⟩
  rw [if_neg hi]
  by_cases hd : s.debugNow = 0
  · exact .inl ⟨_, if_pos hd⟩
  rw [if_neg hd]
  by_cases hx : s.namesXo target
  · exact .inl ⟨_, if_pos hx⟩
  · exact .inr ⟨by simpa using hx, by simpa using (not_or.mp hi).2, hd, if_neg hx⟩

/-- Settles O59: every command but two is one operation of the machine. -/
theorem onlyTwoCommandsStop : Obligations.OnlyTwoCommandsStop := by
  unfold Obligations.OnlyTwoCommandsStop
  intro c s
  cases c
  case testenHigh =>
    by_cases hb : s.lcRow = lcBlank
    · exact .inr (.inl ⟨rfl, hb, if_pos hb⟩)
    · exact .inl (execTestenHigh_next hb)
  case vendorDebugInstruction code target =>
    obtain hn | hr := execVendorDebugInstruction_stops (s := s) (code := code) (target := target)
    · exact .inl hn
    · exact .inr (.inr ⟨code, target, rfl, hr⟩)
  all_goals exact .inl ⟨_, rfl⟩

end Sys2Proof.Machine
end

section
/-! PROOFS. Frames: what whole families of commands never change. The relation `State.Within`, and the updates of one part
of the state. -/

-- Short proofs that wait for one another, each on a thread of its own when run in parallel: one after another instead.
set_option Elab.async false

namespace Sys2Proof.Machine

/-- The parts of the state that the frames speak of: the tiers, the non-volatile memories, the units of the compute plane,
and the dictionary. -/
structure Parts where
  tiers : Bool := false
  nv : Bool := false
  units : Bool := false
  dict : Bool := false

/-- Between the two states, of those parts only the ones that `P` names may have changed. -/
structure State.Within (P : Parts) (s t : State) : Prop where
  tiers : P.tiers = false → t.tiers = s.tiers
  nv : P.nv = false → t.nv = s.nv
  units : P.units = false → t.quires = s.quires ∧ t.bays = s.bays ∧ t.st = s.st ∧ t.sent = s.sent
  dict : P.dict = false → t.dict = s.dict

namespace State.Within

variable {P : Parts} {s₀ s : State}

/-! ### Composition -/

theorem refl (s : State) : s.Within P s := ⟨fun _ => rfl, fun _ => rfl, fun _ => ⟨rfl, rfl, rfl, rfl⟩, fun _ => rfl⟩

theorem ite {t u : State} {c : Prop} [Decidable c] (ht : s₀.Within P t) (hu : s₀.Within P u) :
    s₀.Within P (if c then t else u) := by
  split
  · exact ht
  · exact hu

theorem dite {c : Prop} [Decidable c] {t : c → State} {u : ¬ c → State} (ht : ∀ hc, s₀.Within P (t hc))
    (hu : ∀ hc, s₀.Within P (u hc)) : s₀.Within P (if hc : c then t hc else u hc) := by
  split
  · exact ht _
  · exact hu _

theorem foldl {α : Type} {f : State → α → State} {l : List α} (h : s₀.Within P s)
    (hf : ∀ s a, s₀.Within P s → s₀.Within P (f s a)) : s₀.Within P (l.foldl f s) := by
  induction l generalizing s with
  | nil => exact h
  | cons a l ih => exact ih (hf s a h)

/-- A fold that carries a value beside the state. -/
theorem foldl_fst {α β : Type} {f : State × β → α → State × β} {l : List α} {p : State × β} (h : s₀.Within P p.1)
    (hf : ∀ p a, s₀.Within P p.1 → s₀.Within P (f p a).1) : s₀.Within P (l.foldl f p).1 := by
  induction l generalizing p with
  | nil => exact h
  | cons a l ih => exact ih (hf p a h)

theorem foldl_snd {α β : Type} {f : β × State → α → β × State} {l : List α} {p : β × State} (h : s₀.Within P p.2)
    (hf : ∀ p a, s₀.Within P p.2 → s₀.Within P (f p a).2) : s₀.Within P (l.foldl f p).2 := by
  induction l generalizing p with
  | nil => exact h
  | cons a l ih => exact ih (hf p a h)

theorem forQ {f : State → QNum → State} (h : s₀.Within P s) (hf : ∀ s q, s₀.Within P s → s₀.Within P (f s q)) :
    s₀.Within P (s.forQ f) := h.foldl hf

theorem forB {f : State → BayNum → State} (h : s₀.Within P s) (hf : ∀ s b, s₀.Within P s → s₀.Within P (f s b)) :
    s₀.Within P (s.forB f) := h.foldl hf

/-! ### The updates of one part -/

/-- An update of the rest of the state. -/
theorem rest {sku : Sku} {power : PowerState} {boot : BootPhase} {pins : Pins} {clk : Clocks} {jtag : Jtag} {i3c : I3c}
    {fn : PcieFn} {msix : Msix} {mboxes : Vector Mbox 9} {part : Nat} {switch : Option Switch} {weave : Weave} {pm : Power}
    {wdt : Wdt} {sec : Security} {rtc : BitVec 64} {freeCtr : Nat} {pending : List Instr} {out : List Output}
    (h : s₀.Within P s) : s₀.Within P { s with
      sku := sku, power := power, boot := boot, pins := pins, clk := clk, jtag := jtag, i3c := i3c, fn := fn, msix := msix,
      mboxes := mboxes, part := part, switch := switch, weave := weave, pm := pm, wdt := wdt, sec := sec, rtc := rtc,
      freeCtr := freeCtr, pending := pending, out := out } :=
  ⟨h.tiers, h.nv, h.units, h.dict⟩

theorem emit {o : Output} (h : s₀.Within P s) : s₀.Within P (s.emit o) := h.rest
theorem setPins {x : Pins} (h : s₀.Within P s) : s₀.Within P (s.setPins x) := h.rest
theorem setClk {x : Clocks} (h : s₀.Within P s) : s₀.Within P (s.setClk x) := h.rest
theorem setPm {x : Power} (h : s₀.Within P s) : s₀.Within P (s.setPm x) := h.rest
theorem setWeave {x : Weave} (h : s₀.Within P s) : s₀.Within P (s.setWeave x) := h.rest
theorem setI3c {x : I3c} (h : s₀.Within P s) : s₀.Within P (s.setI3c x) := h.rest
theorem setSec {x : Security} (h : s₀.Within P s) : s₀.Within P (s.setSec x) := h.rest

/-- A part that `P` names may be written. -/
theorem setTiers {x : Tiers} (h : s₀.Within P s) (kt : P.tiers) : s₀.Within P (s.setTiers x) :=
  ⟨by simp [kt], h.nv, h.units, h.dict⟩

theorem setNv {x : Nv} (h : s₀.Within P s) (kn : P.nv) : s₀.Within P (s.setNv x) :=
  ⟨h.tiers, by simp [kn], h.units, h.dict⟩

theorem setQuire {q : QNum} {x : Quire} (h : s₀.Within P s) (ku : P.units) : s₀.Within P (s.setQuire q x) :=
  ⟨h.tiers, h.nv, by simp [ku], h.dict⟩

theorem setBay {b : BayNum} {x : Bay} (h : s₀.Within P s) (ku : P.units) : s₀.Within P (s.setBay b x) :=
  ⟨h.tiers, h.nv, by simp [ku], h.dict⟩

theorem setSt {x : StitchUnit} (h : s₀.Within P s) (ku : P.units) : s₀.Within P (s.setSt x) :=
  ⟨h.tiers, h.nv, by simp [ku], h.dict⟩

theorem setSent {x : Sentinel} (h : s₀.Within P s) (ku : P.units) : s₀.Within P (s.setSent x) :=
  ⟨h.tiers, h.nv, by simp [ku], h.dict⟩

theorem setDict {x : Dict} (h : s₀.Within P s) (kd : P.dict) : s₀.Within P (s.setDict x) :=
  ⟨h.tiers, h.nv, h.units, by simp [kd]⟩

theorem modQuire {q : QNum} {f : Quire → Quire} (h : s₀.Within P s) (ku : P.units) : s₀.Within P (s.modQuire q f) :=
  h.setQuire ku

theorem modBay {b : BayNum} {f : Bay → Bay} (h : s₀.Within P s) (ku : P.units) : s₀.Within P (s.modBay b f) :=
  h.setBay ku

theorem wr {k v : Nat} (h : s₀.Within P s) (kd : P.dict) : s₀.Within P (s.wr k v) := h.setDict kd

theorem wrs {l : List (Nat × Nat)} (h : s₀.Within P s) (kd : P.dict) : s₀.Within P (s.wrs l) :=
  .foldl h fun _ _ hs => hs.wr kd

end State.Within

end Sys2Proof.Machine
end

section
/-! PROOFS. Frames: which of the parts each operation of the machine can change. -/

-- Short proofs that wait for one another, each on a thread of its own when run in parallel: one after another instead.
set_option Elab.async false

namespace Sys2Proof.Machine

variable {P : Parts} {s₀ s : State}

theorem State.Within.fixPower (h : s₀.Within P s) : s₀.Within P s.fixPower :=
  .ite h.rest h

theorem State.Within.gateBays {q : QNum} (h : s₀.Within P s) (ku : P.units) : s₀.Within P (s.gateBays q) :=
  .fixPower (.foldl h fun _ _ hs => (hs.modBay ku))

theorem State.Within.tryRelease {q : QNum} (h : s₀.Within P s) (ku : P.units) : s₀.Within P (s.tryRelease q) := by
  unfold State.tryRelease
  extract_lets
  exact .ite (.gateBays (h.setQuire ku) ku) h

theorem State.Within.settleQuire {q : QNum} (h : s₀.Within P s) (ku : P.units) : s₀.Within P (s.settleQuire q) := by
  unfold State.settleQuire
  extract_lets
  exact .tryRelease (.ite (h.setQuire ku) h) ku

theorem State.Within.signal {n amount : Nat} (h : s₀.Within P s) (ku : P.units) : s₀.Within P (s.signal n amount) :=
  h.setSt ku

theorem State.Within.msixSend {v : Nat} (h : s₀.Within P s) : s₀.Within P (s.msixSend v) := by
  unfold State.msixSend
  extract_lets
  split
  · extract_lets
    exact .ite h.emit h.rest
  · exact h

theorem State.Within.writeCq {q : QNum} {c : Completion} (h : s₀.Within P s) (kt : P.tiers) (ku : P.units) :
    s₀.Within P (s.writeCq q c) := by
  unfold State.writeCq
  extract_lets _ _ _ _ _ _ s1 _ s2 s3 s4
  have h1 : s₀.Within P s1 := h.setQuire ku
  have h2 : s₀.Within P s2 := .ite (h1.setTiers kt) h1
  have h3 : s₀.Within P s3 := h2.emit
  have h4 : s₀.Within P s4 := .ite (h3.signal ku) h3
  exact .ite h4.msixSend h4

theorem State.Within.complete {q : QNum} {e : Entry} {status detail result : Nat} (h : s₀.Within P s) (kt : P.tiers)
    (ku : P.units) : s₀.Within P (s.complete q e status detail result) := by
  unfold State.complete
  extract_lets
  exact .ite h (.ite (h.setQuire ku) (h.writeCq kt ku))

theorem State.Within.popEntry {q : QNum} {r : RingNum} (h : s₀.Within P s) (ku : P.units) : s₀.Within P (s.popEntry q r) :=
  h.modQuire ku

theorem State.Within.finishNow {q : QNum} {r : RingNum} {e : Entry} {status detail result : Nat} (h : s₀.Within P s)
    (kt : P.tiers) (ku : P.units) : s₀.Within P (s.finishNow q r e status detail result) :=
  .settleQuire (.complete (h.popEntry ku) kt ku) ku

theorem State.Within.addExtent {e : Extent} (h : s₀.Within P s) (kt : P.tiers) : s₀.Within P (s.addExtent e) :=
  h.setTiers kt

theorem State.Within.setU {q : QNum} {n : Nat} {u : Option ULeaf} (h : s₀.Within P s) (ku : P.units) :
    s₀.Within P (s.setU q n u) :=
  h.modQuire ku

theorem State.Within.grantLeaves {q : QNum} {l : List Extent} {unified : Bool} (h : s₀.Within P s) (kt : P.tiers)
    (ku : P.units) : s₀.Within P ((s.grantLeaves q l unified).2) := by
  unfold State.grantLeaves
  extract_lets _ _ _ s1 s2 s3
  have h1 : s₀.Within P s1 := .foldl h fun _ _ hs => (hs.addExtent kt)
  have h2 : s₀.Within P s2 := .foldl h1 fun _ _ hs => (hs.setU ku)
  have h3 : s₀.Within P s3 := .foldl h fun _ _ hs => (hs.addExtent kt)
  split
  · exact h2
  · exact h3

theorem State.Within.startEntry {q : QNum} {r : RingNum} {e : Entry} {w : Work} (h : s₀.Within P s) (ku : P.units) :
    s₀.Within P (s.startEntry q r e w) :=
  .modQuire (h.popEntry ku) ku

theorem State.Within.alloc {q : QNum} {r : RingNum} (h : s₀.Within P s) (kt : P.tiers) (ku : P.units) :
    s₀.Within P (Machine.alloc q r s) := by
  unfold Machine.alloc
  extract_lets
  split
  · extract_lets
    split
    · exact h.finishNow kt ku
    · split
      · exact h.finishNow kt ku
      · extract_lets s1
        have h1 : s₀.Within P s1.2 := h.grantLeaves kt ku
        exact .ite (h1.finishNow kt ku) (.startEntry (.foldl h fun _ _ hs => (hs.addExtent kt)) ku)
  · exact h

theorem State.Within.aonRelease (h : s₀.Within P s) : s₀.Within P (Machine.aonRelease s) :=
  .ite h.setPins h

theorem State.Within.recoveryAccess {off : Nat} {write : Bool} {len : Nat} {data : List Byte} (h : s₀.Within P s)
    (kt : P.tiers) : s₀.Within P (s.recoveryAccess off write len data) :=
  .ite (.ite (h.setTiers kt) h.emit) (.ite h h.emit)

theorem State.Within.fresh (h : s₀.Within P s) : s₀.Within P ((s.fresh).2) :=
  h.rest

theorem State.Within.count {k n : Nat} (h : s₀.Within P s) (kd : P.dict) : s₀.Within P (s.count k n) :=
  h.wr kd

theorem State.Within.setCmd {k : Nat} {c : CmdBlock} (h : s₀.Within P s) (kd : P.dict) : s₀.Within P (s.setCmd k c) :=
  h.setDict kd

theorem State.Within.cmdDone {k result : Nat} {card : List Byte} (h : s₀.Within P s) (kd : P.dict) :
    s₀.Within P (s.cmdDone k result card) :=
  h.setCmd kd

theorem State.Within.tryListen (h : s₀.Within P s) (ku : P.units) (kd : P.dict) : s₀.Within P s.tryListen := by
  unfold State.tryListen
  extract_lets
  exact .ite (.wr (h.setSent ku) kd) h

theorem State.Within.abandonEntry {reason quireNo : Nat} (h : s₀.Within P s) (ku : P.units) (kd : P.dict) :
    s₀.Within P (s.abandonEntry reason quireNo) := by
  unfold State.abandonEntry
  extract_lets s1 _ s2 s3
  have h1 : s₀.Within P s1.2 := h.fresh
  have h2 : s₀.Within P s2 := h1.setPm
  have h3 : s₀.Within P s3 := .count (h2.cmdDone kd) kd
  split
  · exact h
  · exact .tryListen (h3.setSent ku) ku kd

theorem State.Within.wakeDemand (h : s₀.Within P s) (ku : P.units) (kd : P.dict) : s₀.Within P s.wakeDemand := by
  unfold State.wakeDemand
  extract_lets s1
  have h1 : s₀.Within P s1 := h.abandonEntry ku kd
  exact .ite h1 h1.setPm

theorem State.Within.setLoad {l : Load} (h : s₀.Within P s) (kn : P.nv) : s₀.Within P (s.setLoad l) :=
  h.setNv kn

theorem State.Within.consumeStaged (h : s₀.Within P s) (kt : P.tiers) (kn : P.nv) : s₀.Within P s.consumeStaged := by
  unfold State.consumeStaged
  extract_lets
  split
  · exact h
  · extract_lets
    exact .setTiers (h.setLoad kn) kt

theorem State.Within.stagingAccess {off : Nat} {write : Bool} {len : Nat} {data : List Byte} (h : s₀.Within P s)
    (kt : P.tiers) (kn : P.nv) : s₀.Within P (s.stagingAccess off write len data) := by
  unfold State.stagingAccess
  extract_lets _ s1
  have h1 : s₀.Within P s1 := h.setTiers kt
  exact .ite (.ite (h1.consumeStaged kt kn) h1) h.emit

theorem State.Within.forgetIdent {q : QNum} {addr : Nat} (h : s₀.Within P s) (ku : P.units) :
    s₀.Within P (s.forgetIdent q addr) :=
  h.modQuire ku

theorem State.Within.setLeaf {p : Place} {n : Nat} {f : Mem} (h : s₀.Within P s) (kt : P.tiers) :
    s₀.Within P (s.setLeaf p n f) := by
  unfold State.setLeaf
  extract_lets
  split
  · exact h.setTiers kt
  · exact h.setTiers kt
  · exact h.setTiers kt

theorem State.Within.windowPut {q : QNum} {a : Addr} {p : Nat × Nat × Nat} {bytes : List Byte} (h : s₀.Within P s)
    (kt : P.tiers) (ku : P.units) : s₀.Within P ((s.windowPut q a p bytes).1) := by
  unfold State.windowPut
  split
  · exact h
  · split
    · exact .forgetIdent (h.setLeaf kt) ku
    · exact h

theorem State.Within.windowWrite {q : QNum} {a : Addr} {w : Nat} {data : List Byte} (h : s₀.Within P s) (kt : P.tiers)
    (ku : P.units) (kd : P.dict) : s₀.Within P (s.windowWrite q a w data) := by
  unfold State.windowWrite
  extract_lets s1
  have h1 : s₀.Within P s1.1 := (.foldl_fst h fun _ _ hs => by
    extract_lets s2
    have h2 : s₀.Within P s2.1 := hs.windowPut kt ku
    exact h2)
  exact .ite (h1.count kd) h1

theorem State.Within.aptRefuse {key cause i : Nat} {o : Output} (h : s₀.Within P s) (kd : P.dict) :
    s₀.Within P (s.aptRefuse key cause i o) :=
  .emit (.wrs (h.count kd) kd)

theorem State.Within.windowRead {q : QNum} {a : Addr} {w len : Nat} (h : s₀.Within P s) (kd : P.dict) :
    s₀.Within P (s.windowRead q a w len) := by
  unfold State.windowRead
  extract_lets
  split
  · exact h.aptRefuse kd
  · exact h.emit

theorem State.Within.window {n w : Nat} {write : Bool} {len : Nat} {data : List Byte} (h : s₀.Within P s) (kt : P.tiers)
    (ku : P.units) (kd : P.dict) : s₀.Within P (s.window n w write len data) := by
  unfold State.window
  extract_lets
  split
  · split
    · exact .ite (h.windowWrite kt ku kd) (h.windowRead kd)
    · exact .ite (h.count kd) h.emit
  · exact .ite (h.count kd) h.emit

theorem State.Within.queueAperture {e k : Nat} (h : s₀.Within P s) : s₀.Within P (s.queueAperture e k) := by
  unfold State.queueAperture
  extract_lets
  split
  · extract_lets
    exact .ite h h.setWeave
  · exact h

theorem State.Within.aptLeaf {i j len : Nat} (h : s₀.Within P s) (kd : P.dict) : s₀.Within P (s.aptLeaf i j len) := by
  unfold State.aptLeaf
  extract_lets
  split
  · exact h.aptRefuse kd
  · split
    · exact h.aptRefuse kd
    · split
      · extract_lets s1
        have h1 : s₀.Within P s1 := h.emit
        exact .ite h1.queueAperture h1
      · exact .ite (h.aptRefuse kd) h.setWeave.queueAperture

theorem State.Within.aptRead {off len : Nat} (h : s₀.Within P s) (kd : P.dict) : s₀.Within P (s.aptRead off len) := by
  unfold State.aptRead
  extract_lets
  exact (.foldl h fun _ _ hs => by
    extract_lets
    exact (hs.aptLeaf kd))

theorem State.Within.ringAccess {off : Nat} {write : Bool} {len : Nat} {data : List Byte} (h : s₀.Within P s) (kt : P.tiers) :
    s₀.Within P (s.ringAccess off write len data) :=
  .ite (h.setTiers kt) h.emit

theorem State.Within.bar2Serve {off : Nat} {write : Bool} {len : Nat} {data : List Byte} (h : s₀.Within P s)
    (kt : P.tiers) (kn : P.nv) (ku : P.units) (kd : P.dict) : s₀.Within P (s.bar2Serve off write len data) :=
  .ite (h.stagingAccess kt kn) (.ite (h.window kt ku kd) (.ite (h.window kt ku kd) (.ite (.ite (h.count kd) (h.aptRead kd)) (h.ringAccess kt))))

/-- Above the recovery region, an access in recovery boot changes nothing. -/
theorem State.Within.recoveryAccess_of_above {off : Nat} {write : Bool} {len : Nat} {data : List Byte} (h : s₀.Within P s)
    (hoff : 0xA0000 ≤ off) : s₀.Within P (s.recoveryAccess off write len data) := by
  unfold State.recoveryAccess
  rw [if_neg (by omega)]
  exact .ite h h.emit

/-- An access of the aperture reads leaves; it counts, and changes no memory. -/
theorem State.Within.bar2Serve_of_aperture {off : Nat} {write : Bool} {len : Nat} {data : List Byte} (h : s₀.Within P s)
    (kd : P.dict) (hoff : inAperture off) : s₀.Within P (s.bar2Serve off write len data) := by
  simp only [inAperture, decide_eq_true_eq] at hoff
  unfold State.bar2Serve
  rw [if_neg (by omega), if_neg (by omega), if_neg (by omega), if_pos (by omega)]
  exact .ite (h.count kd) (h.aptRead kd)

theorem State.Within.bar2Serve_of_rings {off : Nat} {write : Bool} {len : Nat} {data : List Byte} (h : s₀.Within P s)
    (kt : P.tiers) (hoff : 0x0F000000 ≤ off) : s₀.Within P (s.bar2Serve off write len data) := by
  unfold State.bar2Serve
  rw [if_neg (by omega), if_neg (by omega), if_neg (by omega), if_neg (by omega)]
  exact h.ringAccess kt

/-- An access of BAR2 above the recovery region changes what serving it changes. -/
theorem State.Within.bar2Access {off : Nat} {write : Bool} {len : Nat} {data : List Byte} (h : s₀.Within P s)
    (hoff : 0xA0000 ≤ off) (hserve : ∀ t, s₀.Within P t → s₀.Within P (t.bar2Serve off write len data)) (ku : P.units)
    (kd : P.dict) : s₀.Within P (s.bar2Access off write len data) := by
  unfold State.bar2Access
  extract_lets s1
  have h1 : s₀.Within P s1 := h.wakeDemand ku kd
  clear_value s1
  refine .ite h ?_
  split
  · exact h.recoveryAccess_of_above hoff
  · exact .ite (hserve _ h1) h1.setPm

theorem le_of_inAperture {off : Nat} (h : inAperture off) : 0xA0000 ≤ off := by
  simp only [inAperture, decide_eq_true_eq] at h
  omega

theorem State.Within.apertureRead {off len : Nat} (h : s₀.Within P s) (ku : P.units) (kd : P.dict) :
    s₀.Within P (Machine.apertureRead off len s) := by
  unfold Machine.apertureRead
  split
  · next ha => exact h.bar2Access (le_of_inAperture ha) (fun _ ht => ht.bar2Serve_of_aperture kd ha) ku kd
  · exact h

theorem State.Within.apertureWrite {off : Nat} {data : List Byte} (h : s₀.Within P s) (ku : P.units) (kd : P.dict) :
    s₀.Within P (Machine.apertureWrite off data s) := by
  unfold Machine.apertureWrite
  split
  · next ha => exact h.bar2Access (le_of_inAperture ha) (fun _ ht => ht.bar2Serve_of_aperture kd ha) ku kd
  · exact h

theorem State.Within.aspmL1Request (h : s₀.Within P s) (kd : P.dict) : s₀.Within P (Machine.aspmL1Request s) :=
  .ite (h.emit.wr kd) h

theorem State.Within.bar0ReservedWrite {off : Nat} {data : List Byte} (h : s₀.Within P s) (kd : P.dict) :
    s₀.Within P (Machine.bar0ReservedWrite off data s) :=
  .ite (h.count kd) h

theorem State.Within.bar2RingWrite {off : Nat} {data : List Byte} (h : s₀.Within P s) (kt : P.tiers) (ku : P.units)
    (kd : P.dict) : s₀.Within P (Machine.bar2RingWrite off data s) := by
  unfold Machine.bar2RingWrite
  split
  · next ha => exact h.bar2Access (by omega) (fun _ ht => ht.bar2Serve_of_rings kt ha.2) ku kd
  · exact h

theorem State.Within.lowerSteps (h : s₀.Within P s) (ku : P.units) : s₀.Within P s.lowerSteps :=
  h.forB (fun _ _ hs => (.ite (hs.modBay ku) hs))

theorem State.Within.applySteps {code : Nat} (h : s₀.Within P s) (ku : P.units) : s₀.Within P (s.applySteps code) :=
  h.forB (fun _ _ hs => (.ite (hs.modBay ku) hs))

theorem State.Within.updateVsel (h : s₀.Within P s) (ku : P.units) (kd : P.dict) : s₀.Within P s.updateVsel := by
  unfold State.updateVsel
  extract_lets _ _ s1 _ s2 s3
  have h1 : s₀.Within P s1 := .wr (h.lowerSteps ku) kd
  have h2 : s₀.Within P s2 := .ite (h.lowerSteps ku) (h.applySteps ku)
  have h3 : s₀.Within P s3 := h2.wr kd
  exact .ite h1.setClk (.ite h3.setClk h3)

theorem State.Within.bayOff {b : BayNum} (h : s₀.Within P s) (ku : P.units) : s₀.Within P (s.bayOff b) :=
  h.modBay ku

theorem State.Within.bayGateToOff {b : BayNum} (h : s₀.Within P s) (ku : P.units) (kd : P.dict) :
    s₀.Within P (Machine.bayGateToOff b s) :=
  .ite (.updateVsel (h.bayOff ku) ku kd) h

theorem State.Within.bayPllOff (h : s₀.Within P s) : s₀.Within P (Machine.bayPllOff s) :=
  .ite h.setClk h

theorem State.Within.uncount {k n : Nat} (h : s₀.Within P s) (kd : P.dict) : s₀.Within P (s.uncount k n) :=
  h.wr kd

theorem State.Within.compactRecs (h : s₀.Within P s) (kn : P.nv) : s₀.Within P s.compactRecs :=
  h.setNv kn

theorem State.Within.paramRecord {k v : Nat} (h : s₀.Within P s) (kn : P.nv) (kd : P.dict) :
    s₀.Within P (s.paramRecord k v) := by
  unfold State.paramRecord
  extract_lets _ s1 _ s2 s3
  have h1 : s₀.Within P s1 := h.setNv kn
  have h2 : s₀.Within P s2 := .ite (.uncount (h1.setNv kn) kd) (h1.setNv kn)
  have h3 : s₀.Within P s3 := h2.compactRecs kn
  exact .ite (.count (.wrs (h3.setNv kn) kd) kd) h2

theorem State.Within.wrStored {k v : Nat} (h : s₀.Within P s) (kn : P.nv) (kd : P.dict) : s₀.Within P (s.wrStored k v) :=
  .ite h (.wr (h.paramRecord kn kd) kd)

theorem State.Within.ibiDue {group code : Nat} (h : s₀.Within P s) : s₀.Within P (s.ibiDue group code) :=
  .ite h.setI3c h

theorem State.Within.alert {cause : Nat} (h : s₀.Within P s) (kd : P.dict) : s₀.Within P (s.alert cause) :=
  .ite h (.ibiDue (h.wr kd))

theorem State.Within.bayRetestDone {b : BayNum} {pass : Bool} (h : s₀.Within P s) (kn : P.nv) (ku : P.units) (kd : P.dict) :
    s₀.Within P (Machine.bayRetestDone b pass s) := by
  unfold Machine.bayRetestDone
  extract_lets s1 _ s2
  have h1 : s₀.Within P s1 := h.modBay ku
  have h2 : s₀.Within P s2 := .ite h1 (h1.wrStored kn kd)
  exact .ite h (.ite h1 (.updateVsel (.alert (.wr (h2.bayOff ku) kd) kd) ku kd))

theorem State.Within.mountParams {bad : List Nat} (h : s₀.Within P s) (kn : P.nv) (kd : P.dict) :
    s₀.Within P (s.mountParams bad) := by
  unfold State.mountParams
  extract_lets _ _ s1 _ s2
  have h1 : s₀.Within P s1 := h.setNv kn
  have h2 : s₀.Within P s2 := .foldl h1 fun _ _ hs => (hs.wr kd)
  exact .ite (h2.wr kd) h2

theorem State.Within.bootClocks {f : BootFacts} (h : s₀.Within P s) (kd : P.dict) : s₀.Within P (s.bootClocks f) := by
  unfold State.bootClocks
  extract_lets _ s1 _ s2
  have h1 : s₀.Within P s1 := h.setClk
  have h2 : s₀.Within P s2 := .ite h1 h1.setPm
  exact h2.wrs kd

theorem State.Within.bootFirmware {slotB fallback : Bool} (h : s₀.Within P s) (kd : P.dict) :
    s₀.Within P (s.bootFirmware slotB fallback) := by
  unfold State.bootFirmware
  extract_lets
  exact h.wrs kd

theorem State.Within.startLink (h : s₀.Within P s) (kd : P.dict) : s₀.Within P s.startLink :=
  .ite (.emit (h.rest.wr kd)) h

theorem State.Within.mapBays (h : s₀.Within P s) (kd : P.dict) : s₀.Within P s.mapBays := by
  unfold State.mapBays
  extract_lets _ s1
  have h1 : s₀.Within P s1 := .foldl h fun _ _ hs => (hs.wr kd)
  exact h1.wrs kd

theorem State.Within.recordBays {fail : Nat} (h : s₀.Within P s) (kn : P.nv) (kd : P.dict) :
    s₀.Within P (s.recordBays fail) := by
  unfold State.recordBays
  extract_lets
  exact h.wrStored kn kd

theorem State.Within.setLib {e : Nat} {x : LibEntry} (h : s₀.Within P s) (kn : P.nv) : s₀.Within P (s.setLib e x) :=
  h.setNv kn

theorem State.Within.queueTl {g : Nat} {x : TlSense} (h : s₀.Within P s) : s₀.Within P (s.queueTl g x) :=
  h.setWeave

theorem State.Within.relocateEntry {g e : Nat} (h : s₀.Within P s) (kn : P.nv) : s₀.Within P (s.relocateEntry g e) := by
  unfold State.relocateEntry
  extract_lets
  exact .ite h (.ite (h.setLib kn) (.foldl (h.setLib kn) fun _ _ hs => hs.queueTl))

theorem State.Within.retireBank {die bank : Nat} (h : s₀.Within P s) (kn : P.nv) (kd : P.dict) :
    s₀.Within P (s.retireBank die bank) := by
  unfold State.retireBank
  extract_lets _ _ _ s1
  have h1 : s₀.Within P s1 := .alert (h.setNv kn) kd
  exact .ite h (.ite (.foldl h1 fun _ _ hs => (hs.relocateEntry kn)) h1)

theorem State.Within.planeFails {die bank : Nat} (h : s₀.Within P s) (kn : P.nv) (kd : P.dict) :
    s₀.Within P (s.planeFails die bank) := by
  unfold State.planeFails
  extract_lets
  exact .ite (.alert (h.setNv kn) kd) (h.retireBank kn kd)

theorem State.Within.refuseT2 (h : s₀.Within P s) (kd : P.dict) : s₀.Within P s.refuseT2 := by
  unfold State.refuseT2
  extract_lets
  exact h.wr kd

theorem State.Within.loadQuotas {q : QNum} (h : s₀.Within P s) (kd : P.dict) : s₀.Within P (s.loadQuotas q) := by
  unfold State.loadQuotas
  extract_lets
  exact h.wrs kd

theorem State.Within.loadProfile {p : Nat} (h : s₀.Within P s) (kd : P.dict) : s₀.Within P (s.loadProfile p) := by
  unfold State.loadProfile
  extract_lets s1
  have h1 : s₀.Within P s1 := h.rest.refuseT2 kd
  exact .setWeave (h1.forQ (fun _ _ hs => (hs.loadQuotas kd)))

theorem State.Within.erasePages {g k n : Nat} (h : s₀.Within P s) (kn : P.nv) : s₀.Within P (s.erasePages g k n) :=
  h.setNv kn

theorem State.Within.setBlock {g k n : Nat} {x : BlockRec} (h : s₀.Within P s) (kn : P.nv) :
    s₀.Within P (s.setBlock g k n x) :=
  h.setNv kn

theorem State.Within.queueMove {g b : Nat} {kind : MoveKind} (h : s₀.Within P s) (kn : P.nv) :
    s₀.Within P (s.queueMove g b kind) :=
  .ite h (h.setNv kn)

theorem State.Within.wearCheck {g k : Nat} (h : s₀.Within P s) (kn : P.nv) : s₀.Within P (s.wearCheck g k) := by
  unfold State.wearCheck
  extract_lets
  split
  · exact h
  · split
    · exact h.queueMove kn
    · exact h

theorem State.Within.eraseBlockAt {g k n : Nat} (h : s₀.Within P s) (kn : P.nv) : s₀.Within P (s.eraseBlockAt g k n) := by
  unfold State.eraseBlockAt
  extract_lets _ s1
  have h1 : s₀.Within P s1 := .erasePages (h.setBlock kn) kn
  exact .wearCheck (h1.setNv kn) kn

theorem State.Within.cutMove {m : BandMove} (h : s₀.Within P s) (kn : P.nv) : s₀.Within P (s.cutMove m) :=
  .foldl h fun _ _ hs => (hs.eraseBlockAt kn)

theorem State.Within.eraseSectorAt {n : Nat} (h : s₀.Within P s) (kn : P.nv) : s₀.Within P (s.eraseSectorAt n) := by
  unfold State.eraseSectorAt
  extract_lets
  exact .ite (h.setNv kn) (.ite (h.setNv kn) (.ite (h.setNv kn) (.ite (h.setNv kn) (h.setNv kn))))

theorem State.Within.setBand {g b : Nat} {x : Band} (h : s₀.Within P s) (kn : P.nv) : s₀.Within P (s.setBand g b x) :=
  h.setNv kn

theorem State.Within.restoreCounts (h : s₀.Within P s) (kn : P.nv) : s₀.Within P s.restoreCounts := by
  unfold State.restoreCounts
  extract_lets _ _ s1 _ s2 _ s3
  have h1 : s₀.Within P s1 := h.setNv kn
  have h2 : s₀.Within P s2 := by
    unfold s2
    split
    · exact h1.setNv kn
    · exact .foldl h1 fun _ _ hs => (.foldl hs fun _ _ hs => (hs.setBand kn))
  have h3 : s₀.Within P s3 := h2.setNv kn
  exact .foldl h3 fun _ _ hs => (.foldl hs fun _ _ hs => (.ite (hs.queueMove kn) hs))

theorem State.Within.replayOne {p : State × Nat} {j : JEntry} (h : s₀.Within P p.1) (kn : P.nv) :
    s₀.Within P (State.replayOne p j).1 := by
  unfold State.replayOne
  extract_lets
  split
  · exact .foldl h fun _ _ hs => hs.eraseBlockAt kn
  · split
    · split
      · exact h.cutMove kn
      · exact h
    · exact h.eraseSectorAt kn

theorem State.Within.replay (h : s₀.Within P s) (kn : P.nv) (kd : P.dict) : s₀.Within P s.replay := by
  unfold State.replay
  extract_lets r _ s1
  have hr : s₀.Within P r.1 := .foldl_fst h fun _ _ hs => hs.replayOne kn
  have h1 : s₀.Within P s1 := hr.setNv kn
  exact .restoreCounts (h1.wr kd) kn

theorem State.Within.bootTiers {f : BootFacts} (h : s₀.Within P s) (kt : P.tiers) (kd : P.dict) :
    s₀.Within P (s.bootTiers f) := by
  unfold State.bootTiers
  extract_lets _ _ _ s1 _ _ _ s2
  have h1 : s₀.Within P s1 := .ite h (h.alert kd)
  have h2 : s₀.Within P s2 := h1.setTiers kt
  exact h2.wrs kd

theorem State.Within.setXo {p : Place} {n : Nat} {xo : Bool} (h : s₀.Within P s) (kt : P.tiers) :
    s₀.Within P (s.setXo p n xo) := by
  unfold State.setXo
  extract_lets
  exact h.setTiers kt

theorem State.Within.clearLeaves {p : Place} {n count : Nat} (h : s₀.Within P s) (kt : P.tiers) :
    s₀.Within P (s.clearLeaves p n count) := by
  unfold State.clearLeaves
  extract_lets
  split
  · exact h.setTiers kt
  · exact h.setTiers kt
  · exact h.setTiers kt

theorem State.Within.dropCopies {f : PoolCopy → Bool} (h : s₀.Within P s) (kt : P.tiers) : s₀.Within P (s.dropCopies f) := by
  unfold State.dropCopies
  extract_lets _ s1
  have h1 : s₀.Within P s1 := .foldl h fun _ _ hs => (.setXo (hs.clearLeaves kt) kt)
  exact h1.setTiers kt

theorem State.Within.dropStale (h : s₀.Within P s) (kt : P.tiers) : s₀.Within P s.dropStale :=
  h.dropCopies kt

theorem State.Within.dirtyBlock {g k n : Nat} (h : s₀.Within P s) (kn : P.nv) : s₀.Within P (s.dirtyBlock g k n) := by
  unfold State.dirtyBlock
  extract_lets _ s1
  have h1 : s₀.Within P s1 := h.setBlock kn
  exact h1.setNv kn

theorem State.Within.closeBands (h : s₀.Within P s) (kn : P.nv) : s₀.Within P s.closeBands :=
  (.foldl h fun _ _ hs => (.foldl hs fun _ _ hs => by
    extract_lets _ _ _ s3 s4 s5
    have h3 : s₀.Within P s3 := hs.setNv kn
    have h4 : s₀.Within P s4 := .foldl h3 fun _ _ hs => (.foldl hs fun _ _ hs => (hs.dirtyBlock kn))
    have h5 : s₀.Within P s5 := .foldl h4 fun _ _ hs => (hs.dirtyBlock kn)
    exact (.ite (h5.setBand kn) hs)))

theorem State.Within.dropAperture {e : Nat} (h : s₀.Within P s) (kd : P.dict) : s₀.Within P (s.dropAperture e) := by
  unfold State.dropAperture
  extract_lets _ _ s1
  have h1 : s₀.Within P s1 := h.setWeave
  exact .foldl h1 fun _ _ hs => (hs.aptRefuse kd)

theorem State.Within.endWorker {w : Worker} (h : s₀.Within P s) (kn : P.nv) : s₀.Within P (s.endWorker w) :=
  h.setNv kn

theorem State.Within.emptyEntry {e : Nat} (h : s₀.Within P s) (kt : P.tiers) (kn : P.nv) (kd : P.dict) :
    s₀.Within P (s.emptyEntry e) :=
  .dropStale (.closeBands (.dropAperture (.endWorker (h.setLib kn) kn) kd) kn) kt

theorem State.Within.mountLibrary (h : s₀.Within P s) (kt : P.tiers) (kn : P.nv) (kd : P.dict) :
    s₀.Within P s.mountLibrary := by
  unfold State.mountLibrary
  extract_lets s1
  have h1 : s₀.Within P s1 := (.foldl h fun _ _ hs => by
    split
    · exact hs.emptyEntry kt kn kd
    · exact hs)
  exact h1.setNv kn

theorem State.Within.scrubbed {n : Nat} (h : s₀.Within P s) : s₀.Within P (s.scrubbed n) :=
  h.rest

theorem State.Within.zeroAllTiers (h : s₀.Within P s) (kt : P.tiers) : s₀.Within P s.zeroAllTiers :=
  h.setTiers kt

theorem State.Within.emptyLibrary (h : s₀.Within P s) (kt : P.tiers) (kn : P.nv) (kd : P.dict) :
    s₀.Within P s.emptyLibrary := by
  unfold State.emptyLibrary
  extract_lets s1
  have h1 : s₀.Within P s1 := .foldl h fun _ _ hs => (hs.emptyEntry kt kn kd)
  exact h1.setNv kn

theorem State.Within.eraseMainAll (h : s₀.Within P s) (kn : P.nv) : s₀.Within P s.eraseMainAll :=
  h.setNv kn

theorem State.Within.emptyKeys (h : s₀.Within P s) (kn : P.nv) (kd : P.dict) : s₀.Within P s.emptyKeys := by
  unfold State.emptyKeys
  extract_lets s1
  have h1 : s₀.Within P s1 := .foldl h fun _ _ hs => (.wr (.ite (hs.paramRecord kn kd) hs) kd)
  exact .foldl h1.rest fun _ _ hs => (hs.wrStored kn kd)

theorem State.Within.scrubNv {done : Nat} (h : s₀.Within P s) (kt : P.tiers) (kn : P.nv) (kd : P.dict) :
    s₀.Within P (s.scrubNv done) := by
  unfold State.scrubNv
  extract_lets s1 s2
  have h1 : s₀.Within P s1 := .ite (h.emptyLibrary kt kn kd) h
  have h2 : s₀.Within P s2 := .ite (h1.eraseMainAll kn) h1
  exact .scrubbed (.ite (h2.emptyKeys kn kd) h2)

theorem State.Within.resumeScrub (h : s₀.Within P s) (kt : P.tiers) (kn : P.nv) (kd : P.dict) : s₀.Within P s.resumeScrub :=
  .ite (.scrubbed (.zeroAllTiers (h.scrubNv kt kn kd) kt)) h

theorem State.Within.checkClassKeys {fail : Nat} (h : s₀.Within P s) (kd : P.dict) : s₀.Within P (s.checkClassKeys fail) :=
  (.foldl h fun _ _ hs => by
    extract_lets _ _ _ s2
    have h2 : s₀.Within P s2 := hs.rest.wr kd
    exact (.ite (h2.alert kd) h2))

theorem State.Within.bootNormal {f : BootFacts} (h : s₀.Within P s) (kt : P.tiers) (kn : P.nv) (kd : P.dict) :
    s₀.Within P (s.bootNormal f) := by
  unfold State.bootNormal
  extract_lets s1 s2 s3 s4
  have h1 : s₀.Within P s1 := .mapBays (h.recordBays kn kd) kd
  have h2 : s₀.Within P s2 := .foldl h1 fun _ _ hs => (hs.planeFails kn kd)
  have h3 : s₀.Within P s3 := .wr (.loadProfile (.replay (h2.bootTiers kt kd) kn kd) kd) kd
  have h4 : s₀.Within P s4 := .mountLibrary (h3.resumeScrub kt kn kd) kt kn kd
  exact h4.checkClassKeys kd

theorem State.Within.bootStart {f : BootFacts} (h : s₀.Within P s) (kt : P.tiers) (kn : P.nv) (kd : P.dict) :
    s₀.Within P (Machine.bootStart f s) := by
  unfold Machine.bootStart
  extract_lets _ _ _ s1 slot s2 _ s3 s4 _ s5 s6
  have h1 : s₀.Within P s1 := .mountParams (h.setNv kn) kn kd
  have h2 : s₀.Within P s2 := .wrs (h1.bootClocks kd) kd
  have h3 : s₀.Within P s3 := h2.rest
  have h4 : s₀.Within P s4 := by
    unfold s4
    cases slot with
    | some p => exact h3.bootFirmware kd
    | none => exact h3
  have h5 : s₀.Within P s5 := h4.wr kd
  have h6 : s₀.Within P s6 := h5.bootNormal kt kn kd
  exact .ite h (.ite (h6.rest.startLink kd) (h5.rest.startLink kd))

theorem State.Within.holdWake (h : s₀.Within P s) (kd : P.dict) : s₀.Within P s.holdWake :=
  .ite h (h.setClk.count kd)

theorem State.Within.clkinLost (h : s₀.Within P s) (ku : P.units) (kd : P.dict) : s₀.Within P (Machine.clkinLost s) := by
  unfold Machine.clkinLost
  extract_lets _ _ s1 _ s2 s3 s4
  have h1 : s₀.Within P s1 := h.setPins
  have h2 : s₀.Within P s2 := h1.setClk
  have h3 : s₀.Within P s3 := h2.forB (fun _ _ hs => (hs.modBay ku))
  have h4 : s₀.Within P s4 := .alert (h3.fixPower.count kd) kd
  exact .ite (.ite (h4.holdWake kd) h4) h1

theorem State.Within.countWait {q : QNum} {o : Outcome} (h : s₀.Within P s) (kd : P.dict) :
    s₀.Within P (s.countWait q o) := by
  unfold State.countWait
  split
  · exact h.count kd
  · exact .count (h.count kd) kd
  · exact h.count kd
  · exact h.count kd
  · exact h.count kd

theorem State.Within.modRun {q : QNum} {id : Nat} {f : Run → Run} (h : s₀.Within P s) (ku : P.units) :
    s₀.Within P (s.modRun q id f) :=
  h.modQuire ku

theorem State.Within.noteWait {b : BayNum} (h : s₀.Within P s) (ku : P.units) : s₀.Within P (s.noteWait b) := by
  unfold State.noteWait
  split
  · split
    · exact .ite (h.modRun ku) h
    · exact h
  · exact h

theorem State.Within.finish {q : QNum} {e : Entry} {status detail result : Nat} (h : s₀.Within P s) (kt : P.tiers)
    (ku : P.units) : s₀.Within P (s.finish q e status detail result) :=
  .settleQuire (.complete (h.modQuire ku) kt ku) ku

theorem State.Within.endWait {h : Held} {o : Outcome} {count : Nat} (hk : s₀.Within P s) (kt : P.tiers) (ku : P.units)
    (kd : P.dict) : s₀.Within P (s.endWait h o count) := by
  unfold State.endWait
  extract_lets s1
  have h1 : s₀.Within P s1 := hk.countWait kd
  split
  · extract_lets
    exact .noteWait (h1.modBay ku) ku
  · split
    · exact h1.finish kt ku
    · exact h1

theorem State.Within.setStitch {n : Nat} {x : Stitch} (h : s₀.Within P s) (ku : P.units) : s₀.Within P (s.setStitch n x) :=
  h.setSt ku

theorem State.Within.stageOne {signals poisons aborts : List (Nat × Nat)} {n : Nat} (h : s₀.Within P s) (kt : P.tiers)
    (ku : P.units) (kd : P.dict) : s₀.Within P (s.stageOne signals poisons aborts n) := by
  unfold State.stageOne
  extract_lets
  split
  · exact h
  · extract_lets s1
    have h1 : s₀.Within P s1 := .ite h (.ite (h.count kd) (h.count kd))
    exact .foldl (h1.setStitch ku) fun _ _ hs => (hs.endWait kt ku kd)

theorem State.Within.comparisonStage (h : s₀.Within P s) (kt : P.tiers) (ku : P.units) (kd : P.dict) :
    s₀.Within P (Machine.comparisonStage s) := by
  unfold Machine.comparisonStage
  extract_lets _ _ s1
  have h1 : s₀.Within P s1 := h.setSt ku
  exact .ite h (.foldl h1 fun _ _ hs => (hs.stageOne kt ku kd))

theorem State.Within.flushPba (h : s₀.Within P s) : s₀.Within P s.flushPba :=
  (.foldl h fun _ _ hs => by
    extract_lets
    exact (.ite hs.rest.emit hs))

theorem State.Within.configSpaceWrite {dstate : Fin 4} {msixEnable funcMask aspmL1 : Bool} {mps mrrs : Fin 8}
    (h : s₀.Within P s) (kd : P.dict) : s₀.Within P (Machine.configSpaceWrite dstate msixEnable funcMask aspmL1 mps mrrs s) := by
  unfold Machine.configSpaceWrite
  extract_lets _ s1 s2
  have h1 : s₀.Within P s1 := h.rest
  have h2 : s₀.Within P s2 := .ite (h1.wr kd) h1
  exact .ite h h2.flushPba

theorem State.Within.startSlip {d : Due} {c : Option SlipCause} (h : s₀.Within P s) (ku : P.units) :
    s₀.Within P (s.startSlip d c) :=
  h.modRun ku

theorem State.Within.modSeq {b : BayNum} {f : Seq → Seq} (h : s₀.Within P s) (ku : P.units) : s₀.Within P (s.modSeq b f) :=
  h.modBay ku

theorem State.Within.advance {d : Due} (h : s₀.Within P s) (ku : P.units) : s₀.Within P (s.advance d) :=
  h.modSeq ku

theorem State.Within.issue {b : BayNum} {k : Kind} {f : Due → State → State} (h : s₀.Within P s) (ku : P.units) (hf : ∀ a0 (s : State), s₀.Within P s → s₀.Within P (f a0 s)) :
    s₀.Within P (s.issue b k f) := by
  unfold State.issue
  split
  · exact h
  · extract_lets
    split
    · exact h
    · split
      · exact h.startSlip ku
      · split
        · exact hf _ _ (h.advance ku)
        · exact h.startSlip ku
        · exact h.startSlip ku

theorem State.Within.issueUnit {b : BayNum} {k : Kind} {f : Issue → State → State} (h : s₀.Within P s) (ku : P.units)
    (hf : ∀ a0 (s : State), s₀.Within P s → s₀.Within P (f a0 s)) : s₀.Within P (s.issueUnit b k f) :=
  h.issue ku fun _ _ hs => (hf _ _ hs)

theorem State.Within.readSlot {i : Issue} {n : Nat} (h : s₀.Within P s) : s₀.Within P ((s.readSlot i n).2) := by
  unfold State.readSlot
  extract_lets
  split
  · exact h
  · exact h.fresh

theorem State.Within.result {i : Issue} {res : Nat} {reads : List Nat} {ready : Nat} (h : s₀.Within P s) (ku : P.units) :
    s₀.Within P (s.result i res reads ready) :=
  h.modBay ku

theorem State.Within.opConvPass1 {i : Issue} (h : s₀.Within P s) (ku : P.units) : s₀.Within P (Machine.opConvPass1 i s) := by
  unfold Machine.opConvPass1
  extract_lets _ _ s1 _ s2
  have h1 : s₀.Within P s1.2 := h.readSlot
  have h2 : s₀.Within P s2 := h1.modBay ku
  exact h2.result ku

theorem State.Within.convPass1 {b : BayNum} (h : s₀.Within P s) (ku : P.units) : s₀.Within P (Machine.convPass1 b s) :=
  h.issueUnit ku fun _ _ hs => (hs.opConvPass1 ku)

theorem State.Within.writeDreg {i : Issue} {reg value : Nat} {reads : List Nat} {ready : Nat} (h : s₀.Within P s)
    (ku : P.units) : s₀.Within P (s.writeDreg i reg value reads ready) :=
  h.modBay ku

theorem State.Within.writeSlot {i : Issue} {n : Nat} {reads : List Nat} {ready : Nat} {spans : List (Nat × Nat)} {f : Mem}
    (h : s₀.Within P s) (ku : P.units) : s₀.Within P (s.writeSlot i n reads ready spans f) :=
  h.modBay ku

theorem State.Within.convFinish {i : Issue} {n : Fin 4} {kind : Kind} {ds : Nat} {reads : List Nat} {spans : List (Nat × Nat)} {c : Conv} {x : StatSet} (h : s₀.Within P s) (ku : P.units) :
    s₀.Within P (Machine.convFinish i n kind ds reads spans c x s) := by
  unfold Machine.convFinish
  extract_lets _ _ s1 s2 s3 _ s4
  have h1 : s₀.Within P s1 := h.modBay ku
  have h2 : s₀.Within P s2 := h1.writeDreg ku
  have h3 : s₀.Within P s3 := h2.writeDreg ku
  have h4 : s₀.Within P s4 := h3.writeSlot ku
  exact h4.modBay ku

theorem State.Within.opConvPass2 {i : Issue} (h : s₀.Within P s) (ku : P.units) : s₀.Within P (Machine.opConvPass2 i s) := by
  unfold Machine.opConvPass2
  extract_lets _ _ _ _ s1 _ s2 s3
  have h1 : s₀.Within P s1.2 := h.readSlot
  have h2 : s₀.Within P s2.2 := by
    unfold s2
    split
    · exact h1.readSlot
    · exact h1
  have h3 : s₀.Within P s3 := h2
  exact h3.convFinish ku

theorem State.Within.convPass2 {b : BayNum} (h : s₀.Within P s) (ku : P.units) : s₀.Within P (Machine.convPass2 b s) :=
  h.issueUnit ku fun _ _ hs => (hs.opConvPass2 ku)

theorem State.Within.opConvStats {i : Issue} (h : s₀.Within P s) (ku : P.units) : s₀.Within P (Machine.opConvStats i s) := by
  unfold Machine.opConvStats
  extract_lets _ _ _ _ _ _ _ _ s1 s2
  have h1 : s₀.Within P s1 := h.writeSlot ku
  have h2 : s₀.Within P s2 := h1.modBay ku
  exact h2.result ku

theorem State.Within.convStats {b : BayNum} (h : s₀.Within P s) (ku : P.units) : s₀.Within P (Machine.convStats b s) :=
  h.issueUnit ku fun _ _ hs => (hs.opConvStats ku)

theorem State.Within.crystalStart (h : s₀.Within P s) : s₀.Within P (Machine.crystalStart s) :=
  .ite h h.setClk

theorem State.Within.busStart (h : s₀.Within P s) : s₀.Within P s.busStart :=
  h.setClk

theorem State.Within.ccc {f : State → State} (h : s₀.Within P s) (hf : ∀ (s : State), s₀.Within P s → s₀.Within P (f s)) :
    s₀.Within P (s.ccc f) :=
  .ite (hf _ h.busStart) h

theorem State.Within.direct {f : State → State} (h : s₀.Within P s) (hf : ∀ (s : State), s₀.Within P s → s₀.Within P (f s)) :
    s₀.Within P (s.direct f) :=
  h.ccc fun _ hs => (.ite hs.emit (hf _ hs))

theorem State.Within.cccBy {own code : Byte} {f : State → State} (h : s₀.Within P s) (hf : ∀ (s : State), s₀.Within P s → s₀.Within P (f s)) :
    s₀.Within P (s.cccBy own code f) :=
  .ite (h.ccc hf) (.ite (h.direct hf) (.ite h (h.ccc fun _ hs => (.ite hs.emit hs))))

theorem State.Within.ibiRefresh (h : s₀.Within P s) : s₀.Within P s.ibiRefresh :=
  h.setI3c

theorem State.Within.disec {code : Byte} {int hj : Bool} (h : s₀.Within P s) : s₀.Within P (Machine.disec code int hj s) :=
  h.cccBy fun _ hs => hs.setI3c.ibiRefresh

theorem State.Within.disableDone {q : QNum} {result endedAs count : Nat} (h : s₀.Within P s) (kd : P.dict) :
    s₀.Within P (s.disableDone q result endedAs count) :=
  h.cmdDone kd

theorem State.Within.drainEnd {q : QNum} (h : s₀.Within P s) (ku : P.units) (kd : P.dict) :
    s₀.Within P (Machine.drainEnd q s) := by
  unfold Machine.drainEnd
  extract_lets _ _ s1
  have h1 : s₀.Within P s1 := h.setQuire ku
  exact .ite (.msixSend (h1.disableDone kd)) h

theorem State.Within.stageFirst (h : s₀.Within P s) (kt : P.tiers) (ku : P.units) (kd : P.dict) : s₀.Within P s.stageFirst :=
  .ite h (h.comparisonStage kt ku kd)

theorem State.Within.leaveScope {d : Due} {c : Scope} (h : s₀.Within P s) (ku : P.units) : s₀.Within P (s.leaveScope d c) :=
  h.modRun ku

theorem State.Within.dropUnsensed {q : QNum} {run sc : Nat} (h : s₀.Within P s) (ku : P.units) (kd : P.dict) :
    s₀.Within P (s.dropUnsensed q run sc) := by
  unfold State.dropUnsensed
  extract_lets _ _ _ s1 s2
  have h1 : s₀.Within P s1 := h.setWeave
  have h2 : s₀.Within P s2 := (.foldl h1 fun _ _ hs => by
    split
    · exact hs.modBay ku
    · exact hs)
  exact h2.count kd

theorem State.Within.voidLeaf {q : QNum} {addr : Nat} (h : s₀.Within P s) (kt : P.tiers) :
    s₀.Within P (s.voidLeaf q addr) := by
  unfold State.voidLeaf
  split
  · split
    · exact .setXo (h.setLeaf kt) kt
    · exact h
  · exact h

theorem State.Within.absorbSignals {ns : List Nat} (h : s₀.Within P s) (ku : P.units) (kd : P.dict) :
    s₀.Within P (s.absorbSignals ns) := by
  unfold State.absorbSignals
  extract_lets _ _ s1
  have h1 : s₀.Within P s1 := h.setSt ku
  exact (.foldl h1 fun _ _ hs => by
    split
    · exact hs.count kd
    · exact hs)

theorem State.Within.countClose {q : QNum} {run : Nat} {sc : Scope} {committed : Bool} (h : s₀.Within P s) (ku : P.units)
    (kd : P.dict) : s₀.Within P (s.countClose q run sc committed) := by
  unfold State.countClose
  extract_lets _ s1 s2
  have h1 : s₀.Within P s1 := h.modRun ku
  have h2 : s₀.Within P s2 := .count (h1.count kd) kd
  exact .ite (.count (h2.count kd) kd) (.count (h2.count kd) kd)

theorem State.Within.cancelScope {q : QNum} {r : Run} {sc : Scope} (h : s₀.Within P s) (kt : P.tiers) (ku : P.units)
    (kd : P.dict) : s₀.Within P (s.cancelScope q r sc) := by
  unfold State.cancelScope
  extract_lets s1 s2 _ s3 s4 s5
  have h1 : s₀.Within P s1 := h.dropUnsensed ku kd
  have h2 : s₀.Within P s2 := .foldl h1 fun _ _ hs => (hs.modBay ku)
  have h3 : s₀.Within P s3 := .foldl h2 fun _ _ hs => (hs.voidLeaf kt)
  have h4 : s₀.Within P s4 := h3.modRun ku
  have h5 : s₀.Within P s5 := .foldl (h4.absorbSignals ku kd) fun _ _ hs => (hs.setStitch ku)
  exact h5.countClose ku kd

theorem State.Within.endBay {d : Due} (h : s₀.Within P s) (kt : P.tiers) (ku : P.units) (kd : P.dict) :
    s₀.Within P (s.endBay d) := by
  unfold State.endBay
  extract_lets _ s1 s2
  have h1 : s₀.Within P s1 := .ite (h.stageFirst kt ku kd) h
  have h2 : s₀.Within P s2 := .foldl h1 fun _ _ hs => (.leaveScope (.ite hs (hs.cancelScope kt ku kd)) ku)
  exact h2.modBay ku

theorem State.Within.endStream {b : BayNum} (h : s₀.Within P s) (kt : P.tiers) (ku : P.units) (kd : P.dict) :
    s₀.Within P (Machine.endStream b s) :=
  h.issue ku fun _ _ hs => (hs.endBay kt ku kd)

theorem State.Within.enec {code : Byte} {int hj : Bool} (h : s₀.Within P s) : s₀.Within P (Machine.enec code int hj s) :=
  h.cccBy fun _ hs => hs.setI3c

theorem State.Within.entas {code : Byte} (h : s₀.Within P s) : s₀.Within P (Machine.entas code s) := by
  unfold Machine.entas
  extract_lets
  exact h.cccBy fun _ hs => hs

theorem State.Within.answerCcc {l : List Byte} (h : s₀.Within P s) : s₀.Within P (s.answerCcc l) :=
  h.emit

theorem State.Within.entdaa {addr : BitVec 7} (h : s₀.Within P s) (kd : P.dict) : s₀.Within P (Machine.entdaa addr s) :=
  h.ccc fun _ hs => (.ite hs (hs.answerCcc.wr kd))

theorem State.Within.enthdr0 (h : s₀.Within P s) : s₀.Within P (Machine.enthdr0 s) :=
  h.ccc fun _ hs => hs.setI3c

theorem State.Within.fence {q : QNum} {r : RingNum} (h : s₀.Within P s) (kt : P.tiers) (ku : P.units) :
    s₀.Within P (Machine.fence q r s) := by
  unfold Machine.fence
  split
  · extract_lets
    exact .ite (h.finishNow kt ku) (h.startEntry ku)
  · exact h

theorem State.Within.wdtExpire {cause : Nat} (h : s₀.Within P s) (kd : P.dict) : s₀.Within P (s.wdtExpire cause) := by
  unfold State.wdtExpire
  extract_lets s1 _ s2 s3
  have h1 : s₀.Within P s1 := h.wrs kd
  have h2 : s₀.Within P s2 := h1.setClk
  have h3 : s₀.Within P s3 := .ibiDue (.count (h2.alert kd) kd)
  exact .ite h (.ite h3.msixSend h3)

theorem State.Within.fwTimerExpiry (h : s₀.Within P s) (kd : P.dict) : s₀.Within P (Machine.fwTimerExpiry s) :=
  .ite h (h.rest.wdtExpire kd)

theorem State.Within.getbcr (h : s₀.Within P s) : s₀.Within P (Machine.getbcr s) :=
  h.direct fun _ hs => hs.answerCcc

theorem State.Within.getcaps (h : s₀.Within P s) : s₀.Within P (Machine.getcaps s) :=
  h.direct fun _ hs => hs.answerCcc

theorem State.Within.getdcr (h : s₀.Within P s) : s₀.Within P (Machine.getdcr s) :=
  h.direct fun _ hs => hs.answerCcc

theorem State.Within.getmrl (h : s₀.Within P s) : s₀.Within P (Machine.getmrl s) :=
  h.direct fun _ hs => hs.answerCcc

theorem State.Within.getmwl (h : s₀.Within P s) : s₀.Within P (Machine.getmwl s) :=
  h.direct fun _ hs => hs.answerCcc

theorem State.Within.getmxds (h : s₀.Within P s) : s₀.Within P (Machine.getmxds s) :=
  h.direct fun _ hs => hs.answerCcc

theorem State.Within.getpid (h : s₀.Within P s) : s₀.Within P (Machine.getpid s) :=
  h.direct fun _ hs => hs.answerCcc

theorem State.Within.getstatus (h : s₀.Within P s) : s₀.Within P (Machine.getstatus s) :=
  (h.direct fun _ hs => by
    extract_lets
    exact hs.answerCcc.setI3c)

theorem State.Within.powerBays {q : QNum} (h : s₀.Within P s) (ku : P.units) (kd : P.dict) : s₀.Within P (s.powerBays q) := by
  unfold State.powerBays
  extract_lets s1
  have h1 : s₀.Within P s1 := .foldl h fun _ _ hs => (hs.modBay ku)
  exact .ite (h.holdWake kd) (h1.setClk.updateVsel ku kd)

theorem State.Within.runBays {q : QNum} (h : s₀.Within P s) (ku : P.units) : s₀.Within P (s.runBays q) :=
  .fixPower (.foldl h fun _ _ hs => (hs.modBay ku))

theorem State.Within.grant {q : QNum} {us : Nat} (h : s₀.Within P s) (ku : P.units) (kd : P.dict) :
    s₀.Within P (Machine.grant q us s) := by
  unfold Machine.grant
  extract_lets
  exact .ite h (.ite (.count (h.setQuire ku) kd) (.ite (h.holdWake kd) (.ite (h.powerBays ku kd) (.ite h (.tryRelease (.runBays (h.setQuire ku) ku) ku)))))

theorem State.Within.readResponse {ready : Bool} (h : s₀.Within P s) : s₀.Within P (s.readResponse ready) := by
  unfold State.readResponse
  extract_lets s1
  have h1 : s₀.Within P s1 := h.busStart
  exact h1.emit

theorem State.Within.hdrExit (h : s₀.Within P s) : s₀.Within P (Machine.hdrExit s) :=
  h.setI3c

theorem State.Within.hostTimerExpiry (h : s₀.Within P s) (kd : P.dict) : s₀.Within P (Machine.hostTimerExpiry s) :=
  .ite h (h.rest.wdtExpire kd)

theorem State.Within.expireWait {n : Nat} {who : Waiter} (h : s₀.Within P s) (ku : P.units) :
    s₀.Within P (s.expireWait n who) := by
  unfold State.expireWait
  extract_lets
  exact h.setStitch ku

theorem State.Within.hostWaitTimeout {q : QNum} {r : RingNum} (h : s₀.Within P s) (ku : P.units) :
    s₀.Within P (Machine.hostWaitTimeout q r s) := by
  unfold Machine.hostWaitTimeout
  split
  · exact .ite h (h.expireWait ku)
  · exact h

theorem State.Within.hotJoinRequest (h : s₀.Within P s) : s₀.Within P (Machine.hotJoinRequest s) :=
  .ite h.emit h

theorem State.Within.foreignStart (h : s₀.Within P s) : s₀.Within P s.foreignStart :=
  .ite h.busStart h

theorem State.Within.ibiSend {acked : Bool} (h : s₀.Within P s) : s₀.Within P (Machine.ibiSend acked s) := by
  unfold Machine.ibiSend
  split
  · exact h
  · split
    · extract_lets s1
      have h1 : s₀.Within P s1 := h.emit
      exact .ite h1.setI3c h1
    · exact h

theorem State.Within.idle {b : BayNum} (h : s₀.Within P s) (ku : P.units) : s₀.Within P (Machine.idle b s) :=
  h.issue ku fun _ _ hs => (hs.modSeq ku)

theorem State.Within.l12Exit (h : s₀.Within P s) (kd : P.dict) : s₀.Within P (Machine.l12Exit s) :=
  .ite (h.rest.setClk.wr kd) h

theorem State.Within.l1SubstateEntry {l12 : Bool} (h : s₀.Within P s) (kd : P.dict) :
    s₀.Within P (Machine.l1SubstateEntry l12 s) :=
  .ite (h.rest.wr kd) h

theorem State.Within.runError {q : QNum} {id : Nat} (h : s₀.Within P s) (ku : P.units) : s₀.Within P (s.runError q id) :=
  h.modRun ku

theorem State.Within.fabricError {q : QNum} {id : Nat} (h : s₀.Within P s) (ku : P.units) (kd : P.dict) :
    s₀.Within P (s.fabricError q id) :=
  .runError (.alert (h.count kd) kd) ku

theorem State.Within.channelError {c : Fin 2} (h : s₀.Within P s) (kd : P.dict) : s₀.Within P (s.channelError c) := by
  unfold State.channelError
  extract_lets _ _ _ _ _ s1 s2
  have h1 : s₀.Within P s1 := h.rest
  have h2 : s₀.Within P s2 := h.rest
  exact .ite (.ite (h1.alert kd) h1) (.ite (h2.alert kd) h2)

theorem State.Within.sramError {q : QNum} {id : Nat} (h : s₀.Within P s) (ku : P.units) (kd : P.dict) :
    s₀.Within P (s.sramError q id) :=
  .runError (.alert (h.count kd) kd) ku

theorem State.Within.readErrors {q : QNum} {id : Nat} {a : Addr} {e : MoveErr} (h : s₀.Within P s) (ku : P.units)
    (kd : P.dict) : s₀.Within P ((s.readErrors q id a e).2) := by
  unfold State.readErrors
  extract_lets _ s1
  have h1 : s₀.Within P s1 := .runError (.alert (h.count kd) kd) ku
  split
  · split
    · exact .ite (h.fabricError ku kd) h
    · split
      · exact .ite (.fabricError (h1.channelError kd) ku kd) (h1.channelError kd)
      · exact .ite (.fabricError (.ite (h.count kd) h) ku kd) (.ite (h.count kd) h)
  · exact .ite (.fabricError (.ite (h.sramError ku kd) h) ku kd) (.ite (h.sramError ku kd) h)
  · exact .ite (h.fabricError ku kd) h

theorem State.Within.tickRead (h : s₀.Within P s) (kt : P.tiers) : s₀.Within P ((s.tickRead).2) :=
  h.setTiers kt

theorem State.Within.noteRead {q : QNum} {a : Addr} (h : s₀.Within P s) (kt : P.tiers) (ku : P.units) :
    s₀.Within P (s.noteRead q a) := by
  unfold State.noteRead
  extract_lets s1
  have h1 : s₀.Within P s1.2 := h.tickRead kt
  split
  · split
    · exact h1.setU ku
    · exact h
  · exact h1.setTiers kt
  · exact h

theorem State.Within.skipTm {q : QNum} (h : s₀.Within P s) (kd : P.dict) : s₀.Within P (s.skipTm q) :=
  h.count kd

theorem State.Within.startMove {q : QNum} {n : Nat} {up : Bool} {t : State} (h : s₀.Within P s) (kt : P.tiers) (ku : P.units)
    (ht : s.startMove q n up = some t) : s₀.Within P t := by
  unfold State.startMove at ht
  split at ht
  · simp at ht
  · split at ht
    · obtain ⟨_, _, rfl⟩ := Option.map_eq_some_iff.1 ht
      exact .setU (h.addExtent kt) ku
    · obtain ⟨_, _, rfl⟩ := Option.map_eq_some_iff.1 ht
      exact .setU (h.addExtent kt) ku
    · simp at ht

theorem State.Within.tryPromote {q : QNum} {x : Hint} (h : s₀.Within P s) (kt : P.tiers) (ku : P.units) (kd : P.dict) :
    s₀.Within P (s.tryPromote q x).1 := by
  unfold State.tryPromote
  split
  · exact h
  · split
    · exact h
    · exact h
    · exact h
    · split
      · split
        · next hm => exact h.startMove kt ku hm
        · exact h.skipTm kd
      · split
        · exact h
        · extract_lets vs xo s1
          have h1 : s₀.Within P s1 := h.foldl fun _ _ hs => hs.skipTm kd
          clear_value s1
          split
          · exact h1.skipTm kd
          · split
            · split
              · exact h1.skipTm kd
              · split
                · next hm => exact h1.startMove kt ku hm
                · exact h1.skipTm kd
            · exact h1.count kd

theorem State.Within.tryDemote {q : QNum} {x : Hint} (h : s₀.Within P s) (kt : P.tiers) (ku : P.units) (kd : P.dict) :
    s₀.Within P (s.tryDemote q x).1 := by
  unfold State.tryDemote
  split
  · exact h
  · split
    · exact h
    · exact h
    · exact h.count kd
    · split
      · exact h
      · split
        · exact h.skipTm kd
        · split
          · next hm => exact h.startMove kt ku hm
          · exact h.skipTm kd

theorem State.Within.serveHints {q : QNum} (h : s₀.Within P s) (kt : P.tiers) (ku : P.units) (kd : P.dict) :
    s₀.Within P (s.serveHints q) := by
  unfold State.serveHints
  extract_lets _ s1 s2
  have h1 : s₀.Within P s1 := h.modQuire ku
  have h2 : s₀.Within P s2.1 := (.foldl_fst h1 fun _ _ hs => by
    extract_lets s3
    have h3 : s₀.Within P s3.1 := by
      unfold s3
      split
      · exact hs.tryPromote kt ku kd
      · exact hs.tryDemote kt ku kd
    split
    · exact hs
    · exact h3)
  exact .ite h (h2.modQuire ku)

theorem State.Within.addHint {q : QNum} {h : Hint} (hk : s₀.Within P s) (ku : P.units) : s₀.Within P (s.addHint q h) :=
  hk.modQuire ku

theorem State.Within.demandPromote {q : QNum} {a : Addr} (h : s₀.Within P s) (kt : P.tiers) (ku : P.units) (kd : P.dict) :
    s₀.Within P (s.demandPromote q a) := by
  unfold State.demandPromote
  split
  · exact .ite (.serveHints (h.addHint ku) kt ku kd) h
  · exact h

theorem State.Within.writeT4 {q : QNum} {n : Nat} {f : Mem} (h : s₀.Within P s) : s₀.Within P (s.writeT4 q n f) :=
  h.emit

theorem State.Within.leaveFrame {q : QNum} {addr : Nat} {f : Mem} {xo : Bool} (h : s₀.Within P s) (kt : P.tiers) :
    s₀.Within P (s.leaveFrame q addr f xo) := by
  unfold State.leaveFrame
  split
  · split
    · exact .setXo (h.setLeaf kt) kt
    · exact h.writeT4
    · exact h
  · exact h

theorem State.Within.noteEvent {b : BayNum} {slot : Nat} {c : SlipCause} {freed : Bool} (h : s₀.Within P s) (ku : P.units) :
    s₀.Within P (s.noteEvent b slot c freed) := by
  unfold State.noteEvent
  split
  · exact h
  · split
    · exact h
    · split
      · exact .ite (h.modRun ku) h
      · exact h

theorem State.Within.leafArrival {b : BayNum} {slot : Fin 64} {e : MoveErr} (h : s₀.Within P s) (kt : P.tiers)
    (ku : P.units) (kd : P.dict) : s₀.Within P (Machine.leafArrival b slot e s) := by
  unfold Machine.leafArrival
  extract_lets
  split
  · exact h
  · extract_lets s1
    have h1 : s₀.Within P s1 := .ite (h.fabricError ku kd) h
    split
    · exact h
    · split
      · exact h
      · extract_lets s2 _ _ s3 s4
        have h2 : s₀.Within P s2.2 := h.readErrors ku kd
        have h3 : s₀.Within P s3 := .noteRead (h2.modBay ku) kt ku
        have h4 : s₀.Within P s4 := .ite (h3.demandPromote kt ku kd) (.modBay (h1.leaveFrame kt) ku)
        exact .ite h (h4.noteEvent ku)

theorem State.Within.libraryRemoval {e : Fin 64} (h : s₀.Within P s) (kt : P.tiers) (kn : P.nv) (kd : P.dict) :
    s₀.Within P (Machine.libraryRemoval e s) :=
  .ite (h.emptyEntry kt kn kd) h

theorem State.Within.linkOff (h : s₀.Within P s) (kd : P.dict) : s₀.Within P s.linkOff :=
  h.rest.wrs kd

theorem State.Within.linkDown (h : s₀.Within P s) (kd : P.dict) : s₀.Within P (Machine.linkDown s) :=
  h.linkOff kd

theorem State.Within.reportLtr {always : Bool} (h : s₀.Within P s) : s₀.Within P (s.reportLtr always) :=
  .ite h.rest.emit h

theorem State.Within.linkEntersL0 {speed : Fin 5} {width : Fin 3} (h : s₀.Within P s) (kd : P.dict) :
    s₀.Within P (Machine.linkEntersL0 speed width s) := by
  unfold Machine.linkEntersL0
  extract_lets _ s1 _ s2 _ _ s3
  have h1 : s₀.Within P s1 := .ite (h.wrs kd) h
  have h2 : s₀.Within P s2 := h1.setClk
  have h3 : s₀.Within P s3 := h2.rest
  exact .ite h (.reportLtr (h3.wr kd))

theorem State.Within.giveHandle {q : QNum} {e v : Nat} (h : s₀.Within P s) (kd : P.dict) : s₀.Within P (s.giveHandle q e v) :=
  h.wrs kd

theorem State.Within.linkTake {q : QNum} {o : LinkOut} (h : s₀.Within P s) (kd : P.dict) : s₀.Within P (s.linkTake q o) :=
  .ite (h.giveHandle kd) h

theorem State.Within.report {q : QNum} {status variant entry : Nat} {x : Short} {chunks ms : Nat} (h : s₀.Within P s)
    (kd : P.dict) : s₀.Within P (s.report q status variant entry x chunks ms) :=
  .count (h.wr kd) kd

theorem State.Within.linkTextBlock {q : QNum} {r : RingNum} (h : s₀.Within P s) (kt : P.tiers) (ku : P.units) (kd : P.dict) :
    s₀.Within P (Machine.linkTextBlock q r s) := by
  unfold Machine.linkTextBlock
  split
  · exact h
  · extract_lets _ s1 s2
    have h1 : s₀.Within P s1 := h.linkTake kd
    have h2 : s₀.Within P s2.2 := h1.fresh
    exact .finishNow (h2.report kd) kt ku

theorem State.Within.lnsMap {i : Issue} {kind : Kind} {two : Bool} {g : Nat → Nat → Nat} (h : s₀.Within P s) (ku : P.units) :
    s₀.Within P (Machine.lnsMap i kind two g s) := by
  unfold Machine.lnsMap
  extract_lets _ _ _ s1 s2
  have h1 : s₀.Within P s1.2 := h.readSlot
  have h2 : s₀.Within P s2.2 := by
    unfold s2
    split
    · exact h1.readSlot
    · exact h1
  exact h2.writeSlot ku

theorem State.Within.opLnsAdd {i : Issue} (h : s₀.Within P s) (ku : P.units) : s₀.Within P (Machine.opLnsAdd i s) :=
  h.lnsMap ku

theorem State.Within.lnsAddIssue {b : BayNum} (h : s₀.Within P s) (ku : P.units) : s₀.Within P (Machine.lnsAddIssue b s) :=
  h.issueUnit ku fun _ _ hs => (hs.opLnsAdd ku)

theorem State.Within.opLnsFromlin {i : Issue} (h : s₀.Within P s) (ku : P.units) : s₀.Within P (Machine.opLnsFromlin i s) :=
  h.lnsMap ku

theorem State.Within.lnsFromlinIssue {b : BayNum} (h : s₀.Within P s) (ku : P.units) :
    s₀.Within P (Machine.lnsFromlinIssue b s) :=
  h.issueUnit ku fun _ _ hs => (hs.opLnsFromlin ku)

theorem State.Within.opLnsMul {i : Issue} (h : s₀.Within P s) (ku : P.units) : s₀.Within P (Machine.opLnsMul i s) :=
  h.lnsMap ku

theorem State.Within.lnsMulIssue {b : BayNum} (h : s₀.Within P s) (ku : P.units) : s₀.Within P (Machine.lnsMulIssue b s) :=
  h.issueUnit ku fun _ _ hs => (hs.opLnsMul ku)

theorem State.Within.opLnsReduce {i : Issue} (h : s₀.Within P s) (ku : P.units) : s₀.Within P (Machine.opLnsReduce i s) := by
  unfold Machine.opLnsReduce
  extract_lets _ _ s1
  have h1 : s₀.Within P s1.2 := h.readSlot
  exact h1.writeSlot ku

theorem State.Within.lnsReduceIssue {b : BayNum} (h : s₀.Within P s) (ku : P.units) :
    s₀.Within P (Machine.lnsReduceIssue b s) :=
  h.issueUnit ku fun _ _ hs => (hs.opLnsReduce ku)

theorem State.Within.opLnsTolin {i : Issue} (h : s₀.Within P s) (ku : P.units) : s₀.Within P (Machine.opLnsTolin i s) :=
  h.lnsMap ku

theorem State.Within.lnsTolinIssue {b : BayNum} (h : s₀.Within P s) (ku : P.units) :
    s₀.Within P (Machine.lnsTolinIssue b s) :=
  h.issueUnit ku fun _ _ hs => (hs.opLnsTolin ku)

theorem State.Within.loop {b : BayNum} (h : s₀.Within P s) (ku : P.units) : s₀.Within P (Machine.loop b s) :=
  (h.issue ku fun _ _ hs => by
    extract_lets
    exact (hs.modSeq ku))

theorem State.Within.maintSlot {b : BayNum} (h : s₀.Within P s) (ku : P.units) : s₀.Within P (Machine.maintSlot b s) :=
  (h.issue ku fun _ _ hs => (.foldl hs fun _ _ hs => by
    extract_lets
    exact hs.setWeave))

theorem State.Within.msixVectorUnmask {v : Fin 64} (h : s₀.Within P s) : s₀.Within P (Machine.msixVectorUnmask v s) :=
  .ite h.rest.flushPba h

theorem State.Within.nop {q : QNum} {r : RingNum} (h : s₀.Within P s) (kt : P.tiers) (ku : P.units) :
    s₀.Within P (Machine.nop q r s) := by
  unfold Machine.nop
  split
  · exact h.finishNow kt ku
  · exact h

theorem State.Within.peerSessionExpiry {session : Nat} (h : s₀.Within P s) (kn : P.nv) :
    s₀.Within P (Machine.peerSessionExpiry session s) :=
  h.setNv kn

theorem State.Within.perstNRelease (h : s₀.Within P s) (ku : P.units) (kd : P.dict) :
    s₀.Within P (Machine.perstNRelease s) := by
  unfold Machine.perstNRelease
  extract_lets _ s1 _ s2
  have h1 : s₀.Within P s1 := h.setPins
  have h2 : s₀.Within P s2 := h1.setClk
  exact .ite h (.ite h1 (.ite (.startLink (h2.wakeDemand ku kd) kd) h2))

theorem State.Within.pgoodInRise (h : s₀.Within P s) : s₀.Within P (Machine.pgoodInRise s) :=
  h.setPins

theorem State.Within.filter {tDie : Int} (h : s₀.Within P s) (kd : P.dict) : s₀.Within P (s.filter tDie) := by
  unfold State.filter
  extract_lets
  exact h.setPm.wrs kd

theorem State.Within.levelStep {p : Nat} (h : s₀.Within P s) (ku : P.units) (kd : P.dict) : s₀.Within P (s.levelStep p) := by
  unfold State.levelStep
  extract_lets _ _ _ _ _ _ _ _ s1
  have h1 : s₀.Within P s1 := h.setPm
  exact .ite (.ite (.updateVsel (.count (h1.wr kd) kd) ku kd) h1) (.ite (.updateVsel (h1.wr kd) ku kd) h1)

theorem State.Within.closeSprint (h : s₀.Within P s) (kd : P.dict) : s₀.Within P s.closeSprint :=
  .ite (h.wr kd) h

theorem State.Within.sprintStep {p : Nat} (h : s₀.Within P s) (kd : P.dict) : s₀.Within P (s.sprintStep p) := by
  unfold State.sprintStep
  extract_lets _ _ _ s1
  have h1 : s₀.Within P s1 := h.setPm
  split
  · exact .ite (.count (.setPm (h.wr kd)) kd) h
  · exact .ite (h1.closeSprint kd) h1
  · exact h

theorem State.Within.levelCauses {hot : Bool} (h : s₀.Within P s) (kd : P.dict) : s₀.Within P (s.levelCauses hot) := by
  unfold State.levelCauses
  extract_lets s1 s2
  have h1 : s₀.Within P s1 := .ite (h.alert kd) h
  have h2 : s₀.Within P s2 := .ite (h1.alert kd) h1
  exact .ite (h2.alert kd) h2

theorem State.Within.powerEvaluation {pEval : Nat} {tDie : Int} (h : s₀.Within P s) (ku : P.units) (kd : P.dict) :
    s₀.Within P (Machine.powerEvaluation pEval tDie s) := by
  unfold Machine.powerEvaluation
  extract_lets _ _ s1 s2 s3 s4 s5
  have h1 : s₀.Within P s1 := h.setPm.wrs kd
  have h2 : s₀.Within P s2 := h1.filter kd
  have h3 : s₀.Within P s3 := h2.wr kd
  have h4 : s₀.Within P s4 := .levelStep (h3.sprintStep kd) ku kd
  have h5 : s₀.Within P s5 := .ite (h4.count kd) h4
  exact .ite h (h5.levelCauses kd)

theorem State.Within.powerOn {tDie : Int} (h : s₀.Within P s) : s₀.Within P (Machine.powerOn tDie s) := by
  unfold Machine.powerOn
  extract_lets
  split
  · exact h.rest
  · exact h

theorem State.Within.precisionFence {b : BayNum} (h : s₀.Within P s) (ku : P.units) :
    s₀.Within P (Machine.precisionFence b s) :=
  h.issue ku fun _ _ hs => (hs.modBay ku)

theorem State.Within.pressResume {pair : Fin 4} (h : s₀.Within P s) (kn : P.nv) :
    s₀.Within P (Machine.pressResume pair s) := by
  unfold Machine.pressResume
  extract_lets
  split
  · exact h
  · exact h.setNv kn

theorem State.Within.pressSuspend {pair : Fin 4} (h : s₀.Within P s) (kn : P.nv) (kd : P.dict) :
    s₀.Within P (Machine.pressSuspend pair s) := by
  unfold Machine.pressSuspend
  extract_lets
  split
  · exact h
  · exact .count (h.setNv kn) kd

theorem State.Within.quickOscStop (h : s₀.Within P s) : s₀.Within P (Machine.quickOscStop s) :=
  .ite h h.setClk

theorem State.Within.opRefCast {i : Issue} (h : s₀.Within P s) (ku : P.units) : s₀.Within P (Machine.opRefCast i s) := by
  unfold Machine.opRefCast
  extract_lets
  exact .writeSlot (.ite h.fresh h) ku

theorem State.Within.refCast {b : BayNum} (h : s₀.Within P s) (ku : P.units) : s₀.Within P (Machine.refCast b s) :=
  h.issueUnit ku fun _ _ hs => (hs.opRefCast ku)

theorem State.Within.opRefFma {i : Issue} (h : s₀.Within P s) (ku : P.units) : s₀.Within P (Machine.opRefFma i s) := by
  unfold Machine.opRefFma
  extract_lets _ _ _ _ _ _ s1 s2 s3 _ _ _ s4 s5
  have h1 : s₀.Within P s1.2 := h.readSlot
  have h2 : s₀.Within P s2.2 := h1.readSlot
  have h3 : s₀.Within P s3 := h2
  have h4 : s₀.Within P s4 := .ite h3.fresh h3
  have h5 : s₀.Within P s5 := h4.modBay ku
  exact h5.result ku

theorem State.Within.refFma {b : BayNum} (h : s₀.Within P s) (ku : P.units) : s₀.Within P (Machine.refFma b s) :=
  h.issueUnit ku fun _ _ hs => (hs.opRefFma ku)

theorem State.Within.opRefTopk {i : Issue} (h : s₀.Within P s) (ku : P.units) : s₀.Within P (Machine.opRefTopk i s) := by
  unfold Machine.opRefTopk
  extract_lets _ _ _ _ s1 s2 _ _ _ s3 s4
  have h1 : s₀.Within P s1.2 := h.readSlot
  have h2 : s₀.Within P s2.2 := by
    unfold s2
    split
    · exact h1.readSlot
    · exact h1
  have h3 : s₀.Within P s3 := h2.modBay ku
  have h4 : s₀.Within P s4 := .foldl h3 fun _ _ hs => (hs.writeDreg ku)
  exact .ite (h4.writeDreg ku) h4

theorem State.Within.refTopk {b : BayNum} (h : s₀.Within P s) (ku : P.units) : s₀.Within P (Machine.refTopk b s) :=
  h.issueUnit ku fun _ _ hs => (hs.opRefTopk ku)

theorem State.Within.resetNRelease (h : s₀.Within P s) : s₀.Within P (Machine.resetNRelease s) :=
  h.setPins

theorem State.Within.rstdaa (h : s₀.Within P s) (kd : P.dict) : s₀.Within P (Machine.rstdaa s) :=
  h.ccc fun _ hs => (hs.wr kd)

theorem State.Within.checkpoint (h : s₀.Within P s) (kn : P.nv) : s₀.Within P s.checkpoint :=
  h.setNv kn

theorem State.Within.readBand {g b n : Nat} (h : s₀.Within P s) (kn : P.nv) (kd : P.dict) :
    s₀.Within P (s.readBand g b n) := by
  unfold State.readBand
  extract_lets _ _ _ s1 s2 s3
  have h1 : s₀.Within P s1 := h.setBand kn
  have h2 : s₀.Within P s2 := .ite (.alert (h1.count kd) kd) h1
  have h3 : s₀.Within P s3 := .ite (h2.queueMove kn) h2
  exact .ite (h3.checkpoint kn) h3

theorem State.Within.scrubPass (h : s₀.Within P s) (kn : P.nv) (kd : P.dict) : s₀.Within P (Machine.scrubPass s) := by
  unfold Machine.scrubPass
  extract_lets s1
  have h1 : s₀.Within P s1 := .foldl h fun _ _ hs => (.ite hs (hs.readBand kn kd))
  exact .ite h (h1.setNv kn)

theorem State.Within.seqWaitTimeout {b : BayNum} (h : s₀.Within P s) (ku : P.units) :
    s₀.Within P (Machine.seqWaitTimeout b s) := by
  unfold Machine.seqWaitTimeout
  split
  · split
    · exact .ite (.expireWait (h.modSeq ku) ku) h
    · exact h
  · exact h

theorem State.Within.setdasa {addr : BitVec 7} (h : s₀.Within P s) (kd : P.dict) : s₀.Within P (Machine.setdasa addr s) :=
  h.ccc fun _ hs => (.ite (hs.wr kd) hs.emit)

theorem State.Within.setmrl {code : Byte} {len : BitVec 16} (h : s₀.Within P s) : s₀.Within P (Machine.setmrl code len s) :=
  h.cccBy fun _ hs => (.ite hs.setI3c hs)

theorem State.Within.setmwl {code : Byte} {len : BitVec 16} (h : s₀.Within P s) : s₀.Within P (Machine.setmwl code len s) :=
  h.cccBy fun _ hs => (.ite hs.setI3c hs)

theorem State.Within.setnewda {addr : BitVec 7} (h : s₀.Within P s) (kd : P.dict) : s₀.Within P (Machine.setnewda addr s) :=
  h.direct fun _ hs => (.ite hs (hs.wr kd))

theorem State.Within.slipEnd {q : QNum} {run cycles : Nat} (h : s₀.Within P s) (ku : P.units) (kd : P.dict) :
    s₀.Within P (Machine.slipEnd q run cycles s) := by
  unfold Machine.slipEnd
  split
  · exact h
  · split
    · extract_lets _ _ _ _ s1
      have h1 : s₀.Within P s1 := h.modRun ku
      exact .ite h (.ite h (.count (h1.count kd) kd))
    · exact h

theorem State.Within.specBegin {b : BayNum} (h : s₀.Within P s) (ku : P.units) : s₀.Within P (Machine.specBegin b s) :=
  (h.issue ku fun _ _ hs => by
    extract_lets
    exact (hs.modRun ku))

theorem State.Within.specCancel {b : BayNum} (h : s₀.Within P s) (kt : P.tiers) (ku : P.units) (kd : P.dict) :
    s₀.Within P (Machine.specCancel b s) :=
  (h.issue ku fun _ _ hs => by
    extract_lets s2
    have h2 : s₀.Within P s2 := hs.stageFirst kt ku kd
    split
    · exact hs
    · exact (.ite (hs.leaveScope ku) (.leaveScope (h2.cancelScope kt ku kd) ku)))

theorem State.Within.sprintClose (h : s₀.Within P s) (kd : P.dict) : s₀.Within P (Machine.sprintClose s) :=
  h.closeSprint kd

theorem State.Within.sprintReady (h : s₀.Within P s) (kd : P.dict) : s₀.Within P (Machine.sprintReady s) :=
  .ite (h.wr kd) h

theorem State.Within.stampZero {q : QNum} {run : Nat} (h : s₀.Within P s) (ku : P.units) (kd : P.dict) :
    s₀.Within P (Machine.stampZero q run s) := by
  unfold Machine.stampZero
  split
  · exact h
  · extract_lets s1
    have h1 : s₀.Within P s1 := .foldl h fun _ _ hs => (hs.modBay ku)
    exact .ite h (.count (h1.modRun ku) kd)

theorem State.Within.answerWake {q : QNum} (h : s₀.Within P s) (ku : P.units) (kd : P.dict) :
    s₀.Within P (s.answerWake q) := by
  unfold State.answerWake
  extract_lets
  exact .ite h (.ite (.count (h.setQuire ku) kd) (h.powerBays ku kd))

theorem State.Within.sendWake {q : QNum} (h : s₀.Within P s) (ku : P.units) (kd : P.dict) : s₀.Within P (s.sendWake q) := by
  unfold State.sendWake
  extract_lets _ s1
  have h1 : s₀.Within P s1 := h.count kd
  exact .ite (h1.setQuire ku) (.ite (.count (h1.setQuire ku) kd) (.powerBays (h1.setQuire ku) ku kd))

theorem State.Within.wakeIfNeeded {q : QNum} (h : s₀.Within P s) (ku : P.units) (kd : P.dict) :
    s₀.Within P (s.wakeIfNeeded q) := by
  unfold State.wakeIfNeeded
  extract_lets
  exact .ite (h.sendWake ku kd) h

theorem State.Within.resumeQuires (h : s₀.Within P s) (ku : P.units) (kd : P.dict) : s₀.Within P s.resumeQuires :=
  .forQ (h.forQ (fun _ _ hs => (hs.answerWake ku kd))) (fun _ _ hs => (hs.wakeIfNeeded ku kd))

theorem State.Within.endSwitch {result from_ to_ ms : Nat} (h : s₀.Within P s) (kd : P.dict) :
    s₀.Within P (s.endSwitch result from_ to_ ms) :=
  .cmdDone (h.rest.wr kd) kd

theorem State.Within.switchDrainLimit {drainMs : Nat} (h : s₀.Within P s) (ku : P.units) (kd : P.dict) :
    s₀.Within P (Machine.switchDrainLimit drainMs s) := by
  unfold Machine.switchDrainLimit
  split
  · exact h
  · exact .ite h (.resumeQuires (h.endSwitch kd) ku kd)

theorem State.Within.switchResume (h : s₀.Within P s) (ku : P.units) (kd : P.dict) :
    s₀.Within P (Machine.switchResume s) := by
  unfold Machine.switchResume
  extract_lets
  split
  · exact h
  · extract_lets s1 s2
    have h1 : s₀.Within P s1 := h.setWeave
    have h2 : s₀.Within P s2 := .endSwitch (.wr (h1.closeSprint kd) kd) kd
    exact .ite h (.tryListen (h2.resumeQuires ku kd) ku kd)

theorem State.Within.tapReset (h : s₀.Within P s) : s₀.Within P (Machine.tapReset s) :=
  .ite h.rest h

theorem State.Within.modEngine {i : Issue} {f : Engine → Engine} (h : s₀.Within P s) (ku : P.units) :
    s₀.Within P (s.modEngine i f) :=
  h.modBay ku

theorem State.Within.opTeBuild {i : Issue} (h : s₀.Within P s) (ku : P.units) : s₀.Within P (Machine.opTeBuild i s) := by
  unfold Machine.opTeBuild
  extract_lets _ _ s1 s2
  have h1 : s₀.Within P s1.2 := h.readSlot
  have h2 : s₀.Within P s2 := h1.modEngine ku
  exact h2.result ku

theorem State.Within.teBuild {b : BayNum} (h : s₀.Within P s) (ku : P.units) : s₀.Within P (Machine.teBuild b s) :=
  h.issueUnit ku fun _ _ hs => (hs.opTeBuild ku)

theorem State.Within.opTeClear {epoch : Nat} {i : Issue} (h : s₀.Within P s) (ku : P.units) :
    s₀.Within P (Machine.opTeClear epoch i s) := by
  unfold Machine.opTeClear
  extract_lets _ s1 _ s2
  have h1 : s₀.Within P s1.2 := h.fresh
  have h2 : s₀.Within P s2 := h1.modEngine ku
  exact .foldl h2 fun _ _ hs => (hs.result ku)

theorem State.Within.teClear {b : BayNum} (h : s₀.Within P s) (ku : P.units) : s₀.Within P (Machine.teClear b s) :=
  h.issueUnit ku fun _ _ hs => (hs.opTeClear ku)

theorem State.Within.opTeRescale {i : Issue} (h : s₀.Within P s) (ku : P.units) : s₀.Within P (Machine.opTeRescale i s) := by
  unfold Machine.opTeRescale
  extract_lets _ _ _ _ _ _ _ s1 s2 _ s3 s4
  have h1 : s₀.Within P s1.2 := h.readSlot
  have h2 : s₀.Within P s2 := h1.modEngine ku
  have h3 : s₀.Within P s3 := .ite h2.fresh h2
  have h4 : s₀.Within P s4.2 := h3.fresh
  exact h4.writeSlot ku

theorem State.Within.teRescale {b : BayNum} (h : s₀.Within P s) (ku : P.units) : s₀.Within P (Machine.teRescale b s) :=
  h.issueUnit ku fun _ _ hs => (hs.opTeRescale ku)

theorem State.Within.testenLow (h : s₀.Within P s) : s₀.Within P (Machine.testenLow s) :=
  h.setPins

theorem State.Within.thermBoardStale (h : s₀.Within P s) (kd : P.dict) : s₀.Within P (Machine.thermBoardStale s) :=
  .ite h (h.setPm.count kd)

theorem State.Within.cut {p : Place} {first count : Nat} {f : Use → Bool} (h : s₀.Within P s) (kt : P.tiers) :
    s₀.Within P (s.cut p first count f) :=
  h.setTiers kt

theorem State.Within.zeroJob {q : QNum} {run : Bool} {pieces : List (Place × Nat × Nat)} {purpose : ZeroFor}
    (h : s₀.Within P s) (kt : P.tiers) : s₀.Within P (s.zeroJob q run pieces purpose) := by
  unfold State.zeroJob
  extract_lets _ s1
  have h1 : s₀.Within P s1 := .foldl h fun _ _ hs => (hs.cut kt)
  exact .ite h1 (h1.setTiers kt)

theorem State.Within.tmMoveComplete {q : QNum} {n : Nat} (h : s₀.Within P s) (kt : P.tiers) (ku : P.units) (kd : P.dict) :
    s₀.Within P (Machine.tmMoveComplete q n s) := by
  unfold Machine.tmMoveComplete
  split
  · exact h
  · split
    · extract_lets s1
      have h1 : s₀.Within P s1 := .setU (h.setLeaf kt) ku
      exact .ite h (.serveHints (.count (h1.zeroJob kt) kd) kt ku kd)
    · extract_lets s1
      have h1 : s₀.Within P s1 := .setU (h.setLeaf kt) ku
      exact .ite h (.serveHints (.count (h1.zeroJob kt) kd) kt ku kd)
    · exact h

theorem State.Within.vselSettleEnd {inTolerance : Bool} (h : s₀.Within P s) (ku : P.units) (kd : P.dict) :
    s₀.Within P (Machine.vselSettleEnd inTolerance s) := by
  unfold Machine.vselSettleEnd
  extract_lets _ s1
  have h1 : s₀.Within P s1 := h.setClk
  exact .ite h (.ite (h1.rest.applySteps ku) (.alert (h.rest.count kd) kd))

end Sys2Proof.Machine
end

section
/-! PROOFS. Frames: what whole families of commands never change. -/

namespace Sys2Proof.Machine

/-- The parts that a command can change, as far as the frames ask. -/
def footprint : Instr → Parts
  | .powerOn .. | .aonRelease .. | .pgoodInRise .. | .resetNRelease .. | .tapReset .. | .crystalStart ..
  | .quickOscStop .. | .i3cPrivateRead .. | .hdrDdrReadCmd .. | .enec .. | .disec .. | .entas .. | .setmwl ..
  | .setmrl .. | .enthdr0 .. | .getmwl .. | .getmrl .. | .getpid .. | .getbcr .. | .getdcr .. | .getstatus ..
  | .getmxds .. | .getcaps .. | .hotJoinRequest .. | .ibiSend .. | .bayPllOff .. | .testenLow .. | .hdrExit ..
  | .msixVectorUnmask .. => {}
  | .rstdaa .. | .entdaa .. | .setdasa .. | .setnewda .. | .bar0ReservedWrite .. | .sprintClose .. | .sprintReady ..
  | .thermBoardStale .. | .aspmL1Request .. | .l12Exit .. | .fwTimerExpiry .. | .hostTimerExpiry ..
  | .linkEntersL0 .. | .linkDown .. | .l1SubstateEntry .. | .configSpaceWrite .. => { dict := true }
  | .pressResume .. | .peerSessionExpiry .. => { nv := true }
  | .teBuild .. | .teClear .. | .teRescale .. | .lnsMul .. | .lnsAdd .. | .lnsReduce .. | .lnsFromlin ..
  | .lnsTolin .. | .refFma .. | .refCast .. | .refTopk .. | .convPass1 .. | .convPass2 .. | .convStats ..
  | .specBegin .. | .precisionFence .. | .maintSlot .. | .loop .. | .idle .. | .hostWaitTimeout ..
  | .seqWaitTimeout .. => { units := true }
  | .pressSuspend .. | .scrubPass .. => { nv := true, dict := true }
  | .nop .. | .alloc .. | .fence .. => { tiers := true, units := true }
  | .perstNRelease .. | .clkinLost .. | .vselSettleEnd .. | .switchDrainLimit .. | .switchResume .. | .drainEnd ..
  | .grant .. | .bayGateToOff .. | .stampZero .. | .slipEnd .. | .apertureRead .. | .apertureWrite ..
  | .powerEvaluation .. => { units := true, dict := true }
  | .bayRetestDone .. => { nv := true, units := true, dict := true }
  | .bootStart .. | .libraryRemoval .. => { tiers := true, nv := true, dict := true }
  | .linkTextBlock .. | .specCancel .. | .endStream .. | .leafArrival .. | .comparisonStage .. | .bar2RingWrite ..
  | .tmMoveComplete .. => { tiers := true, units := true, dict := true }
  | _ => { tiers := true, nv := true, units := true, dict := true }

namespace State.Within

variable {P : Parts} {s t u : State}

theorem ofNext (hw : s.Within P u) (h : (.next u : Host.Outcome State Fault Refusal) = .next t) : s.Within P t := by
  cases h
  exact hw

/-- Nothing is asked of a command outside every family. -/
theorem all (s t : State) : s.Within { tiers := true, nv := true, units := true, dict := true } t :=
  ⟨nofun, nofun, nofun, nofun⟩

theorem exec {c : Instr} (h : Machine.exec c s = .next t) : s.Within (footprint c) t := by
  cases c
  case powerOn => exact .ofNext (refl s).powerOn h
  case aonRelease => exact .ofNext (refl s).aonRelease h
  case pgoodInRise => exact .ofNext (refl s).pgoodInRise h
  case resetNRelease => exact .ofNext (refl s).resetNRelease h
  case bootStart => exact .ofNext ((refl s).bootStart rfl rfl rfl) h
  case perstNRelease => exact .ofNext ((refl s).perstNRelease rfl rfl) h
  case tapReset => exact .ofNext (refl s).tapReset h
  case clkinLost => exact .ofNext ((refl s).clkinLost rfl rfl) h
  case crystalStart => exact .ofNext (refl s).crystalStart h
  case quickOscStop => exact .ofNext (refl s).quickOscStop h
  case vselSettleEnd => exact .ofNext ((refl s).vselSettleEnd rfl rfl) h
  case i3cPrivateRead => exact .ofNext (.ite (refl s).readResponse (refl s).foreignStart) h
  case hdrDdrReadCmd => exact .ofNext (.ite (refl s).readResponse (refl s)) h
  case enec => exact .ofNext (refl s).enec h
  case disec => exact .ofNext (refl s).disec h
  case entas => exact .ofNext (refl s).entas h
  case rstdaa => exact .ofNext ((refl s).rstdaa rfl) h
  case entdaa => exact .ofNext ((refl s).entdaa rfl) h
  case setmwl => exact .ofNext (refl s).setmwl h
  case setmrl => exact .ofNext (refl s).setmrl h
  case enthdr0 => exact .ofNext (refl s).enthdr0 h
  case setdasa => exact .ofNext ((refl s).setdasa rfl) h
  case setnewda => exact .ofNext ((refl s).setnewda rfl) h
  case getmwl => exact .ofNext (refl s).getmwl h
  case getmrl => exact .ofNext (refl s).getmrl h
  case getpid => exact .ofNext (refl s).getpid h
  case getbcr => exact .ofNext (refl s).getbcr h
  case getdcr => exact .ofNext (refl s).getdcr h
  case getstatus => exact .ofNext (refl s).getstatus h
  case getmxds => exact .ofNext (refl s).getmxds h
  case getcaps => exact .ofNext (refl s).getcaps h
  case hotJoinRequest => exact .ofNext (refl s).hotJoinRequest h
  case ibiSend => exact .ofNext (refl s).ibiSend h
  case bar0ReservedWrite => exact .ofNext ((refl s).bar0ReservedWrite rfl) h
  case switchDrainLimit => exact .ofNext ((refl s).switchDrainLimit rfl rfl) h
  case switchResume => exact .ofNext ((refl s).switchResume rfl rfl) h
  case drainEnd => exact .ofNext ((refl s).drainEnd rfl rfl) h
  case pressSuspend => exact .ofNext ((refl s).pressSuspend rfl rfl) h
  case pressResume => exact .ofNext ((refl s).pressResume rfl) h
  case nop => exact .ofNext ((refl s).nop rfl rfl) h
  case linkTextBlock => exact .ofNext ((refl s).linkTextBlock rfl rfl rfl) h
  case alloc => exact .ofNext ((refl s).alloc rfl rfl) h
  case fence => exact .ofNext ((refl s).fence rfl rfl) h
  case grant => exact .ofNext ((refl s).grant rfl rfl) h
  case bayGateToOff => exact .ofNext ((refl s).bayGateToOff rfl rfl) h
  case bayPllOff => exact .ofNext (refl s).bayPllOff h
  case bayRetestDone => exact .ofNext ((refl s).bayRetestDone rfl rfl rfl) h
  case stampZero => exact .ofNext ((refl s).stampZero rfl rfl) h
  case teBuild => exact .ofNext ((refl s).teBuild rfl) h
  case teClear => exact .ofNext ((refl s).teClear rfl) h
  case teRescale => exact .ofNext ((refl s).teRescale rfl) h
  case lnsMul => exact .ofNext ((refl s).lnsMulIssue rfl) h
  case lnsAdd => exact .ofNext ((refl s).lnsAddIssue rfl) h
  case lnsReduce => exact .ofNext ((refl s).lnsReduceIssue rfl) h
  case lnsFromlin => exact .ofNext ((refl s).lnsFromlinIssue rfl) h
  case lnsTolin => exact .ofNext ((refl s).lnsTolinIssue rfl) h
  case refFma => exact .ofNext ((refl s).refFma rfl) h
  case refCast => exact .ofNext ((refl s).refCast rfl) h
  case refTopk => exact .ofNext ((refl s).refTopk rfl) h
  case convPass1 => exact .ofNext ((refl s).convPass1 rfl) h
  case convPass2 => exact .ofNext ((refl s).convPass2 rfl) h
  case convStats => exact .ofNext ((refl s).convStats rfl) h
  case specBegin => exact .ofNext ((refl s).specBegin rfl) h
  case specCancel => exact .ofNext ((refl s).specCancel rfl rfl rfl) h
  case precisionFence => exact .ofNext ((refl s).precisionFence rfl) h
  case maintSlot => exact .ofNext ((refl s).maintSlot rfl) h
  case loop => exact .ofNext ((refl s).loop rfl) h
  case idle => exact .ofNext ((refl s).idle rfl) h
  case endStream => exact .ofNext ((refl s).endStream rfl rfl rfl) h
  case slipEnd => exact .ofNext ((refl s).slipEnd rfl rfl) h
  case leafArrival => exact .ofNext ((refl s).leafArrival rfl rfl rfl) h
  case comparisonStage => exact .ofNext ((refl s).comparisonStage rfl rfl rfl) h
  case hostWaitTimeout => exact .ofNext ((refl s).hostWaitTimeout rfl) h
  case seqWaitTimeout => exact .ofNext ((refl s).seqWaitTimeout rfl) h
  case scrubPass => exact .ofNext ((refl s).scrubPass rfl rfl) h
  case apertureRead => exact .ofNext ((refl s).apertureRead rfl rfl) h
  case apertureWrite => exact .ofNext ((refl s).apertureWrite rfl rfl) h
  case bar2RingWrite => exact .ofNext ((refl s).bar2RingWrite rfl rfl rfl) h
  case libraryRemoval => exact .ofNext ((refl s).libraryRemoval rfl rfl rfl) h
  case peerSessionExpiry => exact .ofNext ((refl s).peerSessionExpiry rfl) h
  case tmMoveComplete => exact .ofNext ((refl s).tmMoveComplete rfl rfl rfl) h
  case powerEvaluation => exact .ofNext ((refl s).powerEvaluation rfl rfl) h
  case sprintClose => exact .ofNext ((refl s).sprintClose rfl) h
  case sprintReady => exact .ofNext ((refl s).sprintReady rfl) h
  case thermBoardStale => exact .ofNext ((refl s).thermBoardStale rfl) h
  case aspmL1Request => exact .ofNext ((refl s).aspmL1Request rfl) h
  case l12Exit => exact .ofNext ((refl s).l12Exit rfl) h
  case fwTimerExpiry => exact .ofNext ((refl s).fwTimerExpiry rfl) h
  case hostTimerExpiry => exact .ofNext ((refl s).hostTimerExpiry rfl) h
  case testenLow => exact .ofNext (refl s).testenLow h
  case hdrExit => exact .ofNext (refl s).hdrExit h
  case linkEntersL0 => exact .ofNext ((refl s).linkEntersL0 rfl) h
  case linkDown => exact .ofNext ((refl s).linkDown rfl) h
  case l1SubstateEntry => exact .ofNext ((refl s).l1SubstateEntry rfl) h
  case msixVectorUnmask => exact .ofNext (refl s).msixVectorUnmask h
  case configSpaceWrite => exact .ofNext ((refl s).configSpaceWrite rfl) h
  all_goals exact .all s t

end State.Within

/-! ### The families stay within their parts -/

theorem footprint_tiers (c : Instr) : (!keepsTiers c || !(footprint c).tiers) = true := by cases c <;> rfl
theorem footprint_nv (c : Instr) : (!keepsStore c || !(footprint c).nv) = true := by cases c <;> rfl
theorem footprint_units (c : Instr) : (!keepsUnits c || !(footprint c).units) = true := by cases c <;> rfl
theorem footprint_dict (c : Instr) : (!keepsDictionary c || !(footprint c).dict) = true := by cases c <;> rfl

/-- Settles O60: a command changes its footprint alone, and each family lies outside the part it keeps. -/
theorem frames : Obligations.Frames := by
  unfold Obligations.Frames
  intro c s t h
  obtain ⟨htiers, hnv, hunits, hdict⟩ := State.Within.exec h
  exact ⟨fun hc => htiers (by simpa [hc] using footprint_tiers c), fun hc => hnv (by simpa [hc] using footprint_nv c),
    fun hc => hunits (by simpa [hc] using footprint_units c), fun hc => hdict (by simpa [hc] using footprint_dict c)⟩

end Sys2Proof.Machine
end

section
/-! PROOFS. Steps and resets (00, 02, 05): the front of the queue, the state after power-on, every trigger of the device
reset, and the commands that change one pin or one clock. -/

namespace Sys2Proof.Machine

/-- Settles O2. -/
theorem testenHighInBlankStops : Obligations.TestenHighInBlankStops := by
  unfold Obligations.TestenHighInBlankStops
  intro s hblank
  exact if_pos hblank

/-! ### The device reset (R220) -/

theorem State.deviceReset_of_powered {s : State} (h : s.power ≠ .sOff) (cause : Nat) :
    s.deviceReset cause = s.restart cause := by
  unfold State.deviceReset
  split
  · contradiction
  · rfl

theorem State.restart_afterReset {s : State} (hinv : Inv s) (cause : Nat) : AfterReset s cause (s.restart cause) :=
  ⟨rfl, rfl, rfl, rfl, rfl, rfl, rfl, rfl, rfl, rfl, rfl, rfl, rfl, rfl, rfl, rfl, rfl,
    fun k hk => s.restart_rd cause k hinv.1 hk⟩

theorem State.deviceReset_afterReset {s : State} (hpower : s.power ≠ .sOff) (hinv : Inv s) (cause : Nat) :
    AfterReset s cause (s.deviceReset cause) := by
  rw [State.deviceReset_of_powered hpower]
  exact State.restart_afterReset hinv cause

/-- The pins stand outside a device reset. -/
theorem AfterReset.setPins {s t : State} {cause : Nat} (h : AfterReset s cause t) (p : Pins) :
    AfterReset s cause (t.setPins p) := h

/-- A JTAG instruction that takes hold of the balls resets the device, and is then loaded (R104). -/
theorem State.loadIr_of_holds {s : State} {ir : BitVec 6} (dr : JtagReg) (hir : holdsBalls ir = true)
    (hfree : holdsBalls s.jtag.ir = false) : s.loadIr ir dr = (s.deviceReset LR.tap).showIr ir dr := by
  simp [State.loadIr, State.showIr, State.emit, hir, hfree]

theorem State.deviceReset_jtag (s : State) (cause : Nat) : (s.deviceReset cause).jtag = s.jtag := by
  unfold State.deviceReset
  split <;> rfl

/-- Settles O1: each trigger runs `State.deviceReset` with its cause. -/
theorem resetTriggersReach : Obligations.ResetTriggersReach := by
  unfold Obligations.ResetTriggersReach
  intro s hpower hinv
  have hreset := fun cause => State.deviceReset_afterReset hpower hinv cause
  have htap : ∀ ir dr, s.tapPowered = true → holdsBalls ir = true → holdsBalls s.jtag.ir = false →
      s.jtag1 (fun s => s.loadIr ir dr) = (s.deviceReset LR.tap).showIr ir dr := fun ir dr hpow hir hfree => by
    rw [State.jtag1_of_powered s _ hpow, State.loadIr_of_holds dr hir hfree]
  refine ⟨fun h => ?resetN, fun h => ?pgood, fun hblank h => ?testen, fun c h => ?due, fun hwake hpll => ?digest,
    fun hstage hpause hrun => ?watchdog, fun hpow hfree => ⟨?extest, ?clamp, ?highz⟩⟩
  case resetN =>
    refine ⟨resetNAssert s, rfl, ?_⟩
    simp only [resetNAssert, if_pos h]
    exact ⟨AfterReset.setPins (hreset _) _, rfl⟩
  case pgood =>
    refine ⟨pgoodInFall s, rfl, ?_⟩
    simp only [pgoodInFall, if_pos h]
    exact ⟨AfterReset.setPins (hreset _) _, rfl⟩
  case testen =>
    have hrun : execTestenHigh s =
        .next ((s.deviceReset LR.testen).setPins { (s.deviceReset LR.testen).pins with testen := true }) := by
      simp [execTestenHigh, hblank, h]
    exact ⟨_, hrun, AfterReset.setPins (hreset _) _, rfl⟩
  case due =>
    refine ⟨deviceResetStart s, rfl, ?_⟩
    simp only [deviceResetStart, h]
    exact hreset c
  case digest =>
    refine ⟨mcWakeComplete false s, rfl, ?_⟩
    simp only [mcWakeComplete, hwake, hpll, not_true_eq_false, or_self, if_false, Bool.false_eq_true]
    exact hreset _
  case watchdog =>
    refine ⟨wdtGraceExpiry s, rfl, ?_⟩
    simp only [wdtGraceExpiry, hstage, hpause, hrun, Bool.false_eq_true, not_false_eq_true, and_self, if_true]
    exact hreset _
  case extest => exact ⟨_, congrArg _ (htap irExtest .boundary hpow (by decide) hfree), hreset _, s.deviceReset_jtag _⟩
  case clamp => exact ⟨_, congrArg _ (htap irClamp .bypass hpow (by decide) hfree), hreset _, s.deviceReset_jtag _⟩
  case highz => exact ⟨_, congrArg _ (htap irHighz .bypass hpow (by decide) hfree), hreset _, s.deviceReset_jtag _⟩

/-! ### One pin or one clock (R54, R62, R65, R72, R76, R79, R81, R85) -/

theorem State.detectClkin_of_quiet {s : State} (h : s.clk.clkWait = false) :
    s.detectClkin = { s with pins := { s.pins with clkin := true } } := by
  have hno : ∀ t : State, t.clk.clkWait = false → t.resumeWakes = t := fun t ht => by
    simp [State.resumeWakes, ht]
  unfold State.detectClkin
  simp only [hno _ (show (s.setPins { s.pins with clkin := true }).clk.clkWait = false from h), ite_self]
  rfl

theorem clkinDetected_of_quiet {s : State} (hwait : s.clk.clkWait = false) (hheld : s.pm.held = []) :
    clkinDetected s = { s with pins := { s.pins with clkin := true } } := by
  unfold clkinDetected State.serveHeld
  rw [State.detectClkin_of_quiet hwait]
  simp only [hheld, List.foldl_nil]
  split
  · simp [State.setPm, ← hheld]
  · rfl

@[simp] theorem State.modBay_bay (s : State) (b : BayNum) (f : Bay → Bay) : (s.modBay b f).bay b = f (s.bay b) :=
  s.setBay_bay b _

/-- A walk over the bays that changes bays changes no other part. -/
theorem State.forB_bays {f : State → BayNum → State} (hf : ∀ s b, ∃ v, f s b = { s with bays := v }) (s : State) :
    ∃ v, s.forB f = { s with bays := v } := by
  unfold State.forB
  generalize allB = l
  induction l generalizing s with
  | nil => exact ⟨s.bays, rfl⟩
  | cons b l ih =>
    obtain ⟨v, hv⟩ := hf s b
    obtain ⟨w, hw⟩ := ih (f s b)
    exact ⟨w, by rw [List.foldl_cons, hw, hv]⟩

theorem State.applySteps_bays (s : State) (code : Nat) : ∃ v, s.applySteps code = { s with bays := v } := by
  refine State.forB_bays (fun s b => ?_) s
  split
  · exact ⟨_, rfl⟩
  · exact ⟨s.bays, rfl⟩

@[simp] theorem State.applySteps_clk (s : State) (code : Nat) : (s.applySteps code).clk = s.clk := by
  obtain ⟨v, hv⟩ := s.applySteps_bays code
  rw [hv]

@[simp] theorem State.applySteps_pm (s : State) (code : Nat) : (s.applySteps code).pm = s.pm := by
  obtain ⟨v, hv⟩ := s.applySteps_bays code
  rw [hv]

@[simp] theorem State.applySteps_dict (s : State) (code : Nat) : (s.applySteps code).dict = s.dict := by
  obtain ⟨v, hv⟩ := s.applySteps_bays code
  rw [hv]

/-- An alert is noted in the dictionary and in the interrupts due on I3C. -/
theorem State.alert_eq (s : State) (cause : Nat) : ∃ d i, s.alert cause = { s with dict := d, i3c := i } := by
  unfold State.alert State.ibiDue
  split
  · exact ⟨s.dict, s.i3c, rfl⟩
  · split
    · exact ⟨_, _, rfl⟩
    · exact ⟨_, s.i3c, rfl⟩

@[simp] theorem State.alert_clk (s : State) (cause : Nat) : (s.alert cause).clk = s.clk := by
  obtain ⟨d, i, hv⟩ := s.alert_eq cause
  rw [hv]

@[simp] theorem State.alert_pm (s : State) (cause : Nat) : (s.alert cause).pm = s.pm := by
  obtain ⟨d, i, hv⟩ := s.alert_eq cause
  rw [hv]

@[simp] theorem State.alert_bays (s : State) (cause : Nat) : (s.alert cause).bays = s.bays := by
  obtain ⟨d, i, hv⟩ := s.alert_eq cause
  rw [hv]

theorem pinsAndOscillatorsClause : PinsAndOscillatorsClause := by
  intro s
  refine ⟨fun h => ?aonRelease, rfl, rfl, rfl, fun hwait hheld => ?clkin, fun h => ?crystal, fun hcore hdemand => ?stop,
    fun h => ?keep⟩
  case aonRelease => exact congrArg _ (if_pos h)
  case clkin => exact congrArg _ (clkinDetected_of_quiet hwait hheld)
  case crystal => exact congrArg _ (if_neg (by simp [h]))
  case stop => exact congrArg _ (if_neg (by simp [hcore, hdemand]))
  case keep => exact congrArg _ (if_pos h)

theorem bayClocksClause : BayClocksClause := by
  intro s
  refine ⟨fun h => ⟨?settled, ?failed⟩, fun b hgated hretest hwaking => ⟨?off, ?t0, ?cache, ?power⟩, fun hpll hoff => ?pll⟩
  case settled =>
    refine ⟨vselSettleEnd true s, rfl, ?_⟩
    simp only [vselSettleEnd, h, not_true_eq_false, if_false, if_true]
    simp
  case failed =>
    refine ⟨vselSettleEnd false s, rfl, ?_⟩
    simp only [vselSettleEnd, h, not_true_eq_false, if_false, Bool.false_eq_true]
    simp
  case off => exact congrArg _ (if_pos (by simp [hgated, hretest, hwaking]))
  case t0 => simp [State.bayOff, Bay.switchOff]
  case cache => simp [State.bayOff, Bay.switchOff]
  case power => simp [State.bayOff, Bay.switchOff]
  case pll => exact congrArg _ (if_pos (by simp [hpll, Bay.powered, hoff]))

/-- Settles O5, clause by clause. -/
theorem pinsAndClocks : Obligations.PinsAndClocks := ⟨pinsAndOscillatorsClause, bayClocksClause⟩

/-! ### The machine as a whole -/

/-- Settles O54. -/
theorem stepRunsFront : Obligations.StepRunsFront := by
  unfold Obligations.StepRunsFront
  exact fun s c rest => ⟨rfl, rfl⟩

/-- Settles O55. -/
theorem resetMeetsInvariant : Obligations.ResetMeetsInvariant := by
  unfold Obligations.ResetMeetsInvariant
  exact ⟨by decide +kernel, rfl, rfl, by decide +kernel, by decide +kernel, fun _ => rfl, fun _ => rfl, rfl, rfl⟩

end Sys2Proof.Machine
end

section
/-! PROOFS. The I3C target (04): CCCs, frames, tickets, reads and interrupts. -/

namespace Sys2Proof.Machine

/-- The outcome of a command whose state is known. -/
theorem nextOf {t u : State} (h : t = u) : (.next t : Host.Outcome State Fault Refusal) = .next u := congrArg _ h

/-! ### A transfer the target sees (R78, R164, R188) -/

variable {s : State}

theorem State.sdrUp_of_sdr (h : Sdr s) : s.sdrUp = true := by simp [State.sdrUp, h.1, h.2]

theorem State.sdrAddressed_of_sdr (h : Sdr s) (haddr : s.rd Key.i3cDynAddr ≠ 0) : s.sdrAddressed = true := by
  simp [State.sdrAddressed, State.sdrUp_of_sdr h, State.dynAddr, haddr]

theorem State.ddrUp_of_ddr (h : Ddr s) : s.ddrUp = true := by simp [State.ddrUp, h.1, h.2.1, State.dynAddr, h.2.2]

theorem State.ccc_of_sdr (h : Sdr s) (f : State → State) : s.ccc f = f (started s) := if_pos (State.sdrUp_of_sdr h)

theorem State.direct_of_addressed (h : Sdr s) (haddr : s.rd Key.i3cDynAddr ≠ 0) (f : State → State) :
    s.direct f = f (started s) := (State.ccc_of_sdr h _).trans (if_neg haddr)

theorem State.direct_of_unaddressed (h : Sdr s) (haddr : s.rd Key.i3cDynAddr = 0) (f : State → State) :
    s.direct f = (started s).emit .nack := (State.ccc_of_sdr h _).trans (if_pos haddr)

theorem State.cccBy_of_form {own code : Byte} (h : Sdr s) (hcode : CccFor s own code) (f : State → State) :
    s.cccBy own code f = f (started s) := by
  unfold State.cccBy
  by_cases hown : code = own
  · rw [if_pos hown, State.ccc_of_sdr h]
  · obtain ⟨hdirect, haddr⟩ := hcode.resolve_left hown
    rw [if_neg hown, if_pos hdirect, State.direct_of_addressed h haddr]

theorem State.cccBy_of_unaddressed {own : Byte} (h : Sdr s) (haddr : s.rd Key.i3cDynAddr = 0) (f : State → State) :
    s.cccBy own (own + 0x80) f = (started s).emit .nack := by
  unfold State.cccBy
  rw [if_neg (by simp), if_pos rfl, State.direct_of_unaddressed h haddr]

/-! ### Addresses (R163, R165) -/

/-- A value other than the entry's default reads back whatever the table held. -/
theorem State.rd_wr_self_of_ne_dflt (s : State) {k v : Nat} (hv : v ≠ dfltVal s.sku k) : (s.wr k v).rd k = v := by
  simp [State.rd, State.wr, hv, Tab.find_put_self]

theorem entdaa_of_unaddressed {a : BitVec 7} (h : Sdr s) (haddr : s.rd Key.i3cDynAddr = 0) (ha : a ≠ 0) :
    entdaa a s = ((started s).answerCcc (beBytes 6 (pidOf s.sku) ++ beBytes 1 bcr ++ beBytes 1 dcr)).wr
      Key.i3cDynAddr a.toNat := by
  rw [entdaa, State.ccc_of_sdr h]
  exact if_neg (not_or.mpr ⟨not_not.mpr haddr, ha⟩)

theorem entdaa_of_addressed {a : BitVec 7} (h : Sdr s) (haddr : s.rd Key.i3cDynAddr ≠ 0) : entdaa a s = started s := by
  rw [entdaa, State.ccc_of_sdr h]
  exact if_pos (.inl haddr)

theorem setdasa_of_enabled {a : BitVec 7} (h : Sdr s) (haddr : s.rd Key.i3cDynAddr = 0)
    (hen : s.rdB Key.i3cSetdasaEn = true) (ha : a ≠ 0) : setdasa a s = (started s).wr Key.i3cDynAddr a.toNat := by
  rw [setdasa, State.ccc_of_sdr h]
  exact if_pos ⟨hen, haddr, ha⟩

theorem setdasa_of_refused {a : BitVec 7} (h : Sdr s)
    (hno : s.rd Key.i3cDynAddr ≠ 0 ∨ s.rdB Key.i3cSetdasaEn = false) : setdasa a s = (started s).emit .nack := by
  rw [setdasa, State.ccc_of_sdr h]
  refine if_neg fun hall => ?_
  obtain ⟨hen, haddr, -⟩ := hall
  obtain hheld | hoff := hno
  · exact hheld haddr
  · exact Bool.false_ne_true (hoff.symm.trans hen)

theorem setnewda_of_addressed {a : BitVec 7} (h : Sdr s) (haddr : s.rd Key.i3cDynAddr ≠ 0) (ha : a ≠ 0) :
    setnewda a s = (started s).wr Key.i3cDynAddr a.toNat := by
  rw [setnewda, State.direct_of_addressed h haddr]
  exact if_neg ha

/-- Settles O10, a CCC at a time. -/
theorem i3cAddresses : Obligations.I3cAddresses := by
  unfold Obligations.I3cAddresses
  intro s a hs ha
  have hpos : a.toNat ≠ 0 := fun h0 => ha (BitVec.eq_of_toNat_eq h0)
  have hdflt : dfltVal s.sku Key.i3cDynAddr = 0 := by cases s.sku <;> rfl
  refine ⟨nextOf (State.ccc_of_sdr hs _), fun hfree => ?entdaa, fun hheld => nextOf (entdaa_of_addressed hs hheld),
    fun hfree hen => nextOf (setdasa_of_enabled hs hfree hen ha), fun hno => nextOf (setdasa_of_refused hs hno),
    fun hheld => nextOf (setnewda_of_addressed hs hheld ha),
    fun hfree => nextOf (State.direct_of_unaddressed hs hfree _)⟩
  case entdaa =>
    refine ⟨_, nextOf (entdaa_of_unaddressed hs hfree ha), ?_, rfl, rfl⟩
    exact State.rd_wr_self_of_ne_dflt _ (by rwa [← hdflt] at hpos)

/-! ### CCCs that broadcast (R163) -/

/-- With interrupts disabled none is due (R185). -/
theorem State.ibiRefresh_ibis_of_disabled {s : State} (h : s.i3c.intEn = false) : s.ibiRefresh.i3c.ibis = [] := by
  simp [State.ibiRefresh, State.ibiAllowed, h]

theorem entas_of_form {code : Byte} {n : Fin 4} (h : Sdr s) (hcode : CccFor s (BitVec.ofNat 8 (2 + n.val)) code) :
    entas code s = started s := by
  have hown : (if 2 ≤ code.toNat % 128 ∧ code.toNat % 128 ≤ 5 then BitVec.ofNat 8 (code.toNat % 128) else 2) =
      BitVec.ofNat 8 (2 + n.val) := by
    obtain rfl | ⟨rfl, -⟩ := hcode <;> fin_cases n <;> rfl
  unfold entas
  dsimp only
  rw [hown, State.cccBy_of_form h hcode, id]

/-- A maximum length in range is taken, another leaves the old one. -/
theorem ite_setI3c (c : Prop) [Decidable c] (s : State) (f : Nat → I3c) (v old : Nat) (hold : f old = s.i3c) :
    (if c then s.setI3c (f v) else s).i3c = f (if c then v else old) := by
  split
  · rfl
  · exact hold.symm

theorem i3cBroadcastCccsClause : I3cBroadcastCccsClause := by
  intro s hs
  refine ⟨fun c i h hc => ?enec, fun c i h hc => ?disec, fun c n hc => nextOf (entas_of_form hs hc), fun c l hc => ?setmwl,
    fun c l hc => ?setmrl, fun hfree ev l => ⟨?enec', ?disec', ?setmwl', ?setmrl'⟩, nextOf (State.ccc_of_sdr hs _), rfl⟩
  case enec => exact ⟨_, nextOf (State.cccBy_of_form hs hc _), rfl, rfl, rfl, rfl⟩
  case disec =>
    refine ⟨_, nextOf (State.cccBy_of_form hs hc _), rfl, rfl, fun hi => ?_, rfl, rfl, rfl⟩
    exact State.ibiRefresh_ibis_of_disabled (by simp [hi])
  case setmwl =>
    exact ⟨_, nextOf (State.cccBy_of_form hs hc _), ite_setI3c _ (started s) (fun v => { s.i3c with mwl := v }) _ _ rfl⟩
  case setmrl =>
    exact ⟨_, nextOf (State.cccBy_of_form hs hc _), ite_setI3c _ (started s) (fun v => { s.i3c with mrl := v }) _ _ rfl⟩
  all_goals exact nextOf (State.cccBy_of_unaddressed hs hfree _)

/-! ### CCCs that return data (R162, R163) -/

theorem i3cDirectReadsClause : I3cDirectReadsClause := by
  intro s hs haddr
  have hgives := State.direct_of_addressed hs haddr
  refine ⟨nextOf (hgives _), nextOf (hgives _), ?pid, nextOf (hgives _), nextOf (hgives _),
    nextOf (hgives _), nextOf (hgives _), _, nextOf (hgives _), rfl, rfl⟩
  case pid =>
    refine (nextOf (hgives _)).trans (nextOf (congrArg (fun n => (started s).emit (.ccc (beBytes 6 n))) ?_))
    show pidOf s.sku = _
    cases s.sku <;> rfl

/-! ### Frames (R168 to R172, R188) -/

theorem fieldLe_head {f : List Byte} {b : Byte} (h : f.head? = some b) : fieldLe f 0 1 = b.toNat := by
  cases f with
  | nil => cases h
  | cons c f =>
    cases h
    simp [fieldLe, leNat]

/-- What a frame that is not cut does. -/
theorem State.frame_of_fits {f : List Byte} {p : Bool} (hfit : f.length ≤ s.i3c.mwl) : s.frame f p =
    if p ∨ f = [] then (started s).badFrame DS.typeLen
    else if fieldLe f 0 1 = 1 then
      if f.length < 7 ∨ f.length ≠ 7 + fieldLe f 5 2 then (started s).badFrame DS.typeLen else (started s).requestFrame f
    else if fieldLe f 0 1 = 2 then
      if f.length ≠ 2 then (started s).badFrame DS.typeLen else (started s).fetchFrame (fieldLe f 1 1)
    else (started s).badFrame DS.range := by
  have htake : f.take s.i3c.mwl = f := List.take_of_length_le hfit
  unfold State.frame
  show (if (p : Prop) ∨ f.take s.i3c.mwl = [] then _ else _) = _
  simp only [show (s.busStart).i3c.mwl = s.i3c.mwl from rfl, htake]
  rfl

/-- A request with the right byte count is judged as a request. -/
theorem State.frame_of_request {f : List Byte} (hfit : f.length ≤ s.i3c.mwl) (hlen : 7 ≤ f.length)
    (hhead : f.head? = some 1) (hcount : f.length = 7 + fieldLe f 5 2) : s.frame f false = (started s).requestFrame f := by
  have hne : f ≠ [] := fun h => by simp [h] at hlen
  rw [State.frame_of_fits hfit, if_neg (by simp [hne]), if_pos (by rw [fieldLe_head hhead]; rfl), if_neg (by omega)]

theorem State.frame_of_fetch {k : Byte} (hfit : 2 ≤ s.i3c.mwl) : s.frame [2, k] false = (started s).fetchFrame k.toNat := by
  rw [State.frame_of_fits (by simpa using hfit), if_neg (by simp), if_neg (by simp [fieldLe, leNat]),
    if_pos (by simp [fieldLe, leNat]), if_neg (by simp)]
  simp [fieldLe, leNat]

/-- A frame that reaches the target, by either path. -/
theorem exec_frame {f : List Byte} {p : Bool} (h : Sdr s ∧ s.rd Key.i3cDynAddr ≠ 0 ∨ Ddr s) :
    exec (if s.i3c.hdr then .hdrDdrWriteCmd 0x2A f p else .i3cRequestFrame f p) s = .next (s.frame f p) := by
  obtain ⟨hs, haddr⟩ | hd := h
  · rw [if_neg (by simp [hs.2])]
    exact nextOf (if_pos (State.sdrAddressed_of_sdr hs haddr))
  · rw [if_pos hd.2.1]
    exact nextOf (if_pos (by simp [State.ddrUp_of_ddr hd]))

/-- What a bad frame leaves: its answer, the protocol error and one count. -/
theorem State.badFrame_started (s : State) (status : Nat) : ∃ t, (started s).badFrame status = t ∧
    t.i3c.response = [BitVec.ofNat 8 status, 0xFF, 0, 0] ∧ t.i3c.protoErr = true ∧
    t.dict = (s.count Key.i3cProtocolErrs).dict ∧ t.i3c.tickets = s.i3c.tickets ∧ t.quires = s.quires ∧ t.nv = s.nv ∧
    t.out = s.out := ⟨_, rfl, rfl, rfl, rfl, rfl, rfl, rfl, rfl⟩

theorem i3cBadFramesClause : I3cBadFramesClause := by
  intro s f p hs hfit c bad
  have hrun : exec c s = .next (s.frame f p) := exec_frame hs
  have hshort : s.frame f p = (started s).badFrame DS.typeLen → bad 0x04 := fun h => by
    obtain ⟨t, ht, hleft⟩ := s.badFrame_started DS.typeLen
    exact ⟨t, hrun.trans (nextOf (h.trans ht)), hleft⟩
  have hother : s.frame f p = (started s).badFrame DS.range → bad 0x05 := fun h => by
    obtain ⟨t, ht, hleft⟩ := s.badFrame_started DS.range
    exact ⟨t, hrun.trans (nextOf (h.trans ht)), hleft⟩
  rw [State.frame_of_fits hfit] at hshort hother
  refine ⟨fun hp => ?parity, fun hlen hhead => ?short, fun hlen hhead hcount => ?count, fun hhead hlen => ?fetch,
    fun b hp hhead hone htwo => ?type⟩
  case parity => exact hshort (if_pos (.inl hp))
  case short => exact hshort (by rw [fieldLe_head hhead]; simp [hlen])
  case count => exact hshort (by rw [fieldLe_head hhead]; simp [hcount])
  case fetch => exact hshort (by rw [fieldLe_head hhead]; simp [hlen])
  case type =>
    have hne : f ≠ [] := fun h => by simp [h] at hhead
    have hval : ∀ n : Nat, n < 256 → b ≠ BitVec.ofNat 8 n → fieldLe f 0 1 ≠ n := fun n hn hb h =>
      hb (BitVec.eq_of_toNat_eq (by rw [← fieldLe_head hhead, h]; simp; omega))
    exact hother (by rw [if_neg (by simp [hp, hne]), if_neg (hval 1 (by decide) hone), if_neg (hval 2 (by decide) htwo)])

/-- Settles O11, clause by clause. -/
theorem i3cCommonCommands : Obligations.I3cCommonCommands :=
  ⟨i3cBroadcastCccsClause, i3cDirectReadsClause, i3cBadFramesClause⟩

/-! ### Tickets (R178, R181, R182) -/

/-- A demand while the core domain runs and no sleep entry is under way changes nothing. -/
theorem State.wakeDemand_of_awake (hcore : s.coreOn = true) (hentry : s.pm.entry = none) : s.wakeDemand = s := by
  simp [State.wakeDemand, State.abandonEntry, hentry, hcore]

/-- A request with the right byte count whose shape the frame allows goes to the dictionary. -/
theorem State.requestFrame_of_shape {f : List Byte} (hread : bit (fieldLe f 4 1) 0 = true ∨ fieldLe f 5 2 = 0) :
    s.requestFrame f =
      match s.intake (some (if bit (fieldLe f 4 1) 2 then .factory else .hostP)) (fieldLe f 4 1) (fieldLe f 1 2)
        (fieldLe f 3 1) (f.drop 7) with
      | (.final st d, s) => s.respond st 0xFF d
      | (.hold r, s) => s.deferI3c r := by
  unfold State.requestFrame
  exact if_neg (by tauto)

theorem State.deferI3c_of_free {r : Request} {n : Nat} (hfree : s.freeTicket = some n) (hroom : s.dict.cold.length < 32)
    (hcore : s.coreOn = true) (hentry : s.pm.entry = none) : s.deferI3c r =
      (((s.setI3c { s.i3c with tickets := Tab.put s.i3c.tickets n (some .waiting) }).setDict
        { s.dict with cold := s.dict.cold ++ [(r, .ticket n)] }).respond DS.defer n []) := by
  simp only [State.deferI3c, hfree, State.coldFull, hroom.not_ge, decide_false, Bool.false_eq_true, if_false,
    State.holdCold]
  rw [State.wakeDemand_of_awake (by exact hcore) (by exact hentry)]
  rfl

/-- The answer of a ticket with no data. -/
theorem State.respond_response_nil (s : State) (status n : Nat) :
    (s.respond status n []).i3c.response = [BitVec.ofNat 8 status, BitVec.ofNat 8 n, 0, 0] := rfl

theorem i3cTicketsClause : I3cTicketsClause := by
  intro s hs haddr hentry hcore hroom
  have haddressed := State.sdrAddressed_of_sdr hs haddr
  refine ⟨fun f r n hlen hfit hhead hcount hread _ hfree hhold => ?request, fun k hfit => ?fetch⟩
  case request =>
    have hframe : s.frame f false = (started s).deferI3c r := by
      rw [State.frame_of_request hfit hlen hhead hcount, State.requestFrame_of_shape hread, hhold]
    refine ⟨_, nextOf ((if_pos haddressed).trans (hframe.trans
      (State.deferI3c_of_free (by exact hfree) (by exact hroom) (by exact hcore) (by exact hentry)))), ?_, rfl, rfl, rfl⟩
    exact Tab.find_put_self _ _ _
  case fetch =>
    have hrun : execI3cFetchFrame [2, k] false s = .next ((started s).fetchFrame k.toNat) :=
      nextOf ((if_pos haddressed).trans (State.frame_of_fetch hfit))
    have hk : BitVec.ofNat 8 k.toNat = k := by simp
    refine ⟨fun hnone => ?none, fun hwait => ?waiting, fun st d hdone => ?complete⟩
    case none =>
      have ht : (started s).fetchFrame k.toNat = (started s).respond DS.state k.toNat [] := by
        simp only [State.fetchFrame, show (started s).i3c = s.i3c from rfl, hnone]
      exact ⟨_, hrun.trans (nextOf ht), by rw [State.respond_response_nil, hk]; rfl, rfl, rfl⟩
    case waiting =>
      have ht : (started s).fetchFrame k.toNat = (started s).respond DS.defer k.toNat [] := by
        simp only [State.fetchFrame, show (started s).i3c = s.i3c from rfl, hwait]
      exact ⟨_, hrun.trans (nextOf ht), by rw [State.respond_response_nil, hk]; rfl, rfl, rfl⟩
    case complete =>
      have ht : (started s).fetchFrame k.toNat = ((started s).setI3c { s.i3c with
          tickets := Tab.put s.i3c.tickets k.toNat none,
          ibis := s.i3c.ibis.filter fun p => p != (0, k.toNat) }).respond st k.toNat d := by
        simp only [State.fetchFrame, show (started s).i3c = s.i3c from rfl, hdone]
      refine ⟨_, hrun.trans (nextOf ht), ?_, rfl, ?_, rfl⟩
      · simp [State.respond, natLe]
      · simp [State.respond]

theorem i3cReadsClause : I3cReadsClause := by
  intro s hresp
  have hready : (started s).readResponse true = (started s).emit (.i3cRead (some (s.i3c.response.take s.i3c.mrl))) :=
    congrArg (fun o => (started s).emit (.i3cRead o)) (if_pos ⟨rfl, hresp⟩)
  have hearly : (started s).readResponse false = (started s).emit (.i3cRead none) :=
    congrArg (fun o => (started s).emit (.i3cRead o)) (if_neg (by simp))
  refine ⟨fun hs haddr => ?sdr, fun hd => ?ddr⟩
  case sdr =>
    have haddressed := State.sdrAddressed_of_sdr hs haddr
    exact ⟨nextOf ((if_pos haddressed).trans hready), nextOf ((if_pos haddressed).trans hearly)⟩
  case ddr =>
    have hup := State.ddrUp_of_ddr hd
    refine ⟨nextOf ((if_pos (by simp [hup])).trans hready), nextOf ((if_pos (by simp [hup])).trans hearly),
      fun c r hc => nextOf (if_neg (by simpa [hup] using hc)),
      fun c f p hc => nextOf (if_neg (by simpa [hup] using hc))⟩

theorem ddrWritesClause : DdrWritesClause := by
  intro s hd
  have hframe : ∀ f p, exec (.hdrDdrWriteCmd 0x2A f p) s = .next (s.frame f p) := fun f p =>
    nextOf (if_pos (by simp [State.ddrUp_of_ddr hd]))
  refine ⟨fun f st d u hlen hfit hhead hcount hread hfinal => ?request, fun k st d hfit hdone => ?fetch⟩
  case request =>
    have ht : s.frame f false = u.respond st 0xFF d := by
      rw [State.frame_of_request hfit hlen hhead hcount, State.requestFrame_of_shape hread, hfinal]
    exact ⟨_, (hframe f false).trans (nextOf ht), rfl, rfl, rfl, rfl, rfl, rfl⟩
  case fetch =>
    have ht : s.frame [2, k] false = ((started s).setI3c { s.i3c with
        tickets := Tab.put s.i3c.tickets k.toNat none,
        ibis := s.i3c.ibis.filter fun p => p != (0, k.toNat) }).respond st k.toNat d := by
      rw [State.frame_of_fetch hfit]
      simp only [State.fetchFrame, show (started s).i3c = s.i3c from rfl, hdone]
    refine ⟨_, (hframe _ _).trans (nextOf ht), ?_, rfl, rfl, rfl, rfl⟩
    simp [State.respond, natLe]

/-- Settles O12, clause by clause. -/
theorem i3cTransactions : Obligations.I3cTransactions := ⟨i3cTicketsClause, i3cReadsClause, ddrWritesClause⟩

/-! ### Interrupts and hot-join (R166, R185, R187) -/

/-- In a list whose earlier members are of higher groups and whose later ones are of no lower group, the first of its
group is the next to go. -/
theorem nextIbi_of_first {g c : Nat} {before after : List (Nat × Nat)} (hg : g < 4) (hbefore : ∀ p ∈ before, g < p.1)
    (hafter : ∀ p ∈ after, g ≤ p.1) : nextIbi (before ++ (g, c) :: after) = some (g, c) := by
  have hfind : (before ++ (g, c) :: after).find? (fun p => p.1 == g) = some (g, c) := by
    rw [List.find?_append, List.find?_eq_none.mpr fun p hp => by simpa using (hbefore p hp).ne']
    simp
  have hlower : ∀ n, n < g → (before ++ (g, c) :: after).find? (fun p => p.1 == n) = none := fun n hn => by
    refine List.find?_eq_none.mpr fun p hp => ?_
    have hge : g ≤ p.1 := by
      obtain h | h := List.mem_append.mp hp
      · exact (hbefore p h).le
      · obtain rfl | h := List.mem_cons.mp h
        · exact le_rfl
        · exact hafter p h
    simp only [beq_iff_eq]
    omega
  unfold nextIbi
  interval_cases g <;> simp [List.findSome?, hfind, hlower]

theorem ibiSend_of_next {p : Nat × Nat} {acked : Bool} (hs : Sdr s) (haddr : s.rd Key.i3cDynAddr ≠ 0)
    (hnext : nextIbi s.i3c.ibis = some p) : ibiSend acked s = (s.setI3c { s.i3c with
      ibis := if acked then s.i3c.ibis.erase p else s.i3c.ibis }).emit (.ibi (ibiByte p)) := by
  simp only [ibiSend, State.sdrAddressed_of_sdr hs haddr, hnext]
  cases acked <;> rfl

/-- Settles O13. -/
theorem i3cInterrupts : Obligations.I3cInterrupts := by
  unfold Obligations.I3cInterrupts
  intro s hs
  refine ⟨fun g c before after acked haddr hg hibis hbefore hafter => ?ibi, fun haddr hhj hen => ?hotJoin⟩
  case ibi =>
    have hnext : nextIbi s.i3c.ibis = some (g, c) := by rw [hibis, nextIbi_of_first hg hbefore hafter]
    have herase : s.i3c.ibis.erase (g, c) = before ++ after := by
      rw [hibis, List.erase_append_right _ fun h => (hbefore _ h).ne rfl, List.erase_cons_head]
    refine nextOf ((ibiSend_of_next hs haddr hnext).trans ?_)
    rw [herase]
    rfl
  case hotJoin => exact nextOf (if_pos ⟨State.sdrUp_of_sdr hs, haddr, hhj, hen⟩)

end Sys2Proof.Machine
end

section
/-! PROOFS. BAR0 (03, 04): mailboxes and held requests, register writes, MSI-X and the function's configuration. -/

namespace Sys2Proof.Machine

variable {s : State}

/-! ### The mailbox of a write (R193 to R197) -/

@[simp] theorem State.setMbox_mbox (s : State) (i : Fin 9) (m : Mbox) : (s.setMbox i m).mbox i = m := by
  exact Vector.getElem_set_self i.isLt

@[simp] theorem State.setMbox_setMbox (s : State) (i : Fin 9) (m n : Mbox) : (s.setMbox i m).setMbox i n = s.setMbox i n := by
  simp [State.setMbox]

theorem State.setMbox_eq_of_get {t : State} {i : Fin 9} {m : Mbox} (h : t = s.setMbox i m) : t.mbox i = m := by
  rw [h, State.setMbox_mbox]

theorem Mbox.held_iff (m : Mbox) : m.held = true ↔ m.rspState = .busy ∨ m.rspState = .deferred := by
  unfold Mbox.held
  split <;> simp_all

/-- A GO that submits, of a request whose length is the registers': it goes to the dictionary. -/
theorem mboxGo_of_submit {i : Fin 9} {v : Nat} (hup : s.barUp = true) (hheld : (s.mbox i).held = false)
    (hv : v = 1 ∨ v = 3) (hlen : (s.mbox i).reqLength.toNat ≤ 256)
    (hread : bit (s.mbox i).reqFlags.toNat 0 = true ∨ (s.mbox i).reqLength = 0) :
    mboxGo i v s = match (s.setMbox i { s.mbox i with rspState := .busy, irq := v == 3 }).intake
        (mboxRole i (s.mbox i).reqFlags.toNat) (s.mbox i).reqFlags.toNat (s.mbox i).reqIndex.toNat (s.mbox i).reqSub.toNat
        (Mem.readN (s.mbox i).reqData 0 (s.mbox i).reqLength.toNat) with
      | (.final st d, s) => s.mboxDone i st d
      | (.hold r, s) =>
        if s.coldFull then s.countBusy.mboxDone i DS.busy []
        else (s.setMbox i { s.mbox i with rspState := .deferred, rspStatus := DS.defer }).holdCold r (.mbox i) := by
  have hgo : mboxGo i v s = s.submitMbox i (bit v 1) := by
    unfold mboxGo
    rw [if_neg (by simp [hup]), if_neg (by simp [hheld]), if_neg (by omega)]
    exact if_pos (by obtain rfl | rfl := hv <;> decide)
  have hirq : bit v 1 = (v == 3) := by obtain rfl | rfl := hv <;> decide
  have hshape : ¬ ((s.mbox i).reqFlags.toNat < 8 ∧
      (256 < (s.mbox i).reqLength.toNat ∨ ¬ bit (s.mbox i).reqFlags.toNat 0 = true ∧ (s.mbox i).reqLength.toNat ≠ 0)) := by
    rintro ⟨-, hlong | ⟨hw, hne⟩⟩
    · omega
    · exact hne (by rw [hread.resolve_left hw]; rfl)
  rw [hgo, hirq]
  unfold State.submitMbox
  exact if_neg hshape

theorem State.coldFull_of_room (h : s.dict.cold.length < 32) : s.coldFull = false := by
  simpa [State.coldFull] using h

theorem State.holdCold_of_awake {r : Request} {reply : Reply} (hcore : s.coreOn = true) (hentry : s.pm.entry = none) :
    s.holdCold r reply = s.setDict { s.dict with cold := s.dict.cold ++ [(r, reply)] } := by
  rw [State.holdCold, State.wakeDemand_of_awake (by exact hcore) (by exact hentry)]

/-- DONE without IRQ: the answer stands in the registers, and no message goes out (R199). -/
theorem State.mboxDone_of_quiet {i : Fin 9} (st : Nat) (d : List Byte) (h : (s.mbox i).irq = false) :
    s.mboxDone i st d = s.setMbox i { s.mbox i with
      rspState := .done, rspStatus := st, rspLength := d.length, rspTag := (s.mbox i).reqTag, rspData := d,
      irq := false } := by
  unfold State.mboxDone
  exact if_neg (by rw [show (s.mboxes.get i).irq = false from h]; simp)

theorem mailboxGoClause : MailboxGoClause := by
  intro s i v hup m flags data
  have hnat : v = 1 ∨ v = 3 → v.toNat = 1 ∨ v.toNat = 3 := fun hv => hv.imp (fun h => by simp [h]) fun h => by simp [h]
  refine ⟨fun hheld => ?held, fun hheld hbit => ?reserved, ?submits⟩
  case held =>
    refine nextOf ?_
    unfold mboxGo
    rw [if_neg (by simp [hup]), if_pos ((Mbox.held_iff _).mpr hheld)]
  case reserved =>
    refine nextOf ?_
    unfold mboxGo
    rw [if_neg (by simp [hup]), if_neg (by simp [show (s.mbox i).held = false from hheld]), if_pos hbit]
  case submits =>
    intro hheld hv hlen hread u
    refine ⟨fun r hhold hcore hentry hroom => ?hold, fun st d hone hfinal => ?final⟩
    case hold =>
      have hirq : (v == 3) = (v.toNat == 3) := by obtain rfl | rfl := hv <;> decide
      have ht : mboxGo i v.toNat s = (u.setMbox i { u.mbox i with rspState := .deferred, rspStatus := DS.defer }).setDict
          { s.dict with cold := s.dict.cold ++ [(r, .mbox i)] } := by
        rw [mboxGo_of_submit hup hheld (hnat hv) hlen hread, ← hirq, hhold]
        dsimp only
        rw [if_neg (by rw [show u.coldFull = false from State.coldFull_of_room hroom]; simp),
          State.holdCold_of_awake (by exact hcore) (by exact hentry)]
        rfl
      have hm : (mboxGo i v.toNat s).mbox i = { u.mbox i with rspState := .deferred, rspStatus := DS.defer } := by
        rw [ht]
        exact State.setMbox_mbox u i _
      exact ⟨_, rfl, congrArg Mbox.rspState hm, congrArg Mbox.rspStatus hm, by rw [ht]; rfl, by rw [ht]; rfl, by rw [ht]; rfl⟩
    case final =>
      have hu : u.mbox i = { m with rspState := .busy, irq := false } := by
        rw [State.setMbox_mbox, hone]
        rfl
      have ht : mboxGo i v.toNat s = u.setMbox i { u.mbox i with
          rspState := .done, rspStatus := st, rspLength := d.length, rspTag := (u.mbox i).reqTag, rspData := d,
          irq := false } := by
        rw [mboxGo_of_submit hup hheld (hnat hv) hlen hread, show (v.toNat == 3) = (v == 3) from by rw [hone]; rfl, hfinal]
        exact State.mboxDone_of_quiet st d (by rw [hu])
      have hm := (congrArg (fun t : State => t.mbox i) ht).trans (State.setMbox_mbox u i _)
      rw [hu] at hm
      exact ⟨_, rfl, congrArg Mbox.rspState hm, congrArg Mbox.rspStatus hm, congrArg Mbox.rspData hm, congrArg Mbox.rspTag hm,
        by rw [ht]; rfl, by rw [ht]; rfl⟩

/-! ### The oldest held request (R137) -/

/-- A read outside recovery boot returns its bytes. -/
theorem serve_read {c : Card} {r : Request} {env : Env} {viaI3c : Bool} (hread : r.write = false) (hboot : s.boot = .normal) :
    serve c r env viaI3c s = (DS.ok, s.readBytes c r.idx r.sub r.view, s) := by
  unfold serve
  rw [if_neg (by simp [hread]), if_neg (by simp [State.recoveryBars, hboot])]

/-- An interrupt that falls due is noted in the interrupts due, and nowhere else. -/
theorem State.ibiDue_eq (s : State) (group code : Nat) :
    ∃ l, s.ibiDue group code = s.setI3c { s.i3c with ibis := l } := by
  unfold State.ibiDue
  split
  · exact ⟨_, rfl⟩
  · exact ⟨s.i3c.ibis, rfl⟩

theorem deferredReadCompletesClause : DeferredReadCompletesClause := by
  intro s env r n c rest hserves hcold hread hcard hboot u
  have ht : deferCompletion env s = (u.setI3c { s.i3c with
      tickets := Tab.put s.i3c.tickets n (some (.complete DS.ok (u.readBytes c r.idx r.sub r.view))) }).ibiDue 0 n := by
    unfold deferCompletion
    simp only [hcold, hserves, not_true_eq_false, if_false]
    rw [show cardOf (s.setDict { s.dict with cold := rest }).sku r.idx r.sub = some c from hcard]
    dsimp only
    rw [serve_read hread (by exact hboot)]
    rfl
  obtain ⟨l, hl⟩ := State.ibiDue_eq (u.setI3c { s.i3c with
    tickets := Tab.put s.i3c.tickets n (some (.complete DS.ok (u.readBytes c r.idx r.sub r.view))) }) 0 n
  refine ⟨_, nextOf (ht.trans hl), rfl, rfl, ?_, rfl, rfl, rfl⟩
  exact Tab.find_put_self _ _ _

/-- Settles O15, clause by clause. -/
theorem mailboxRequests : Obligations.MailboxRequests := ⟨mailboxGoClause, deferredReadCompletesClause⟩

/-! ### Register writes (R191, R201, R202, R249, R250) -/

/-- Byte by byte, a 16-bit register takes a 16-bit value. -/
theorem setByteOf_half (r v : BitVec 16) : BitVec.ofNat 16 (setByteOf (BitVec.ofNat 16 (setByteOf r.toNat 0
    (BitVec.ofNat 8 v.toNat))).toNat 1 (BitVec.ofNat 8 (v.toNat / 256))) = v := by
  apply BitVec.eq_of_toNat_eq
  simp only [setByteOf, BitVec.toNat_ofNat]
  omega

/-- Byte by byte, a 32-bit register takes a 32-bit value. -/
theorem setByteOf_word (r v : BitVec 32) : BitVec.ofNat 32 (setByteOf (BitVec.ofNat 32 (setByteOf (BitVec.ofNat 32 (setByteOf
    (BitVec.ofNat 32 (setByteOf r.toNat 0 (BitVec.ofNat 8 v.toNat))).toNat 1 (BitVec.ofNat 8 (v.toNat / 256)))).toNat 2
      (BitVec.ofNat 8 (v.toNat / 256 / 256)))).toNat 3 (BitVec.ofNat 8 (v.toNat / 256 / 256 / 256))) = v := by
  apply BitVec.eq_of_toNat_eq
  simp only [setByteOf, BitVec.toNat_ofNat]
  omega

/-- The first BAR0 offset of a mailbox (R190). -/
def mboxBase (i : Fin 9) : Nat := if i.val < 8 then 0x10F000 + i.val * 0x10000 else 0x80000

theorem mboxBase_page (i : Fin 9) : mboxBase i % 4096 = 0 ∧ mboxBase i + 0x1000 ≤ 2 ^ 24 := by
  unfold mboxBase
  split <;> omega

theorem bar0At_mbox (i : Fin 9) {o : Nat} (ho : o < 0x1000) : bar0At (mboxBase i + o) = .mbox i o := by
  unfold bar0At mboxBase
  by_cases hi : i.val < 8
  · have hq : Fin.castSucc (Fin.ofNat 8 ((0x10F000 + i.val * 0x10000 + o - 0x100000) / 0x10000)) = i := by
      apply Fin.ext
      simp only [Fin.val_castSucc, Fin.ofNat]
      omega
    have hoff : (0x10F000 + i.val * 0x10000 + o) % 0x10000 = 0xF000 + o := by omega
    rw [if_pos hi, if_neg (by omega), if_neg (by omega), if_neg (by omega), if_neg (by omega), if_pos (by omega)]
    dsimp only
    rw [hq, hoff, if_pos (by omega), Nat.add_sub_cancel_left]
  · have hq : (8 : Fin 9) = i := Fin.ext (show 8 = i.val by omega)
    rw [if_neg hi, if_neg (by omega), if_neg (by omega), if_neg (by omega), if_pos (by omega), hq, Nat.add_sub_cancel_left]

/-- A write inside a mailbox is the mailbox's (R191). -/
theorem registerWrite_mbox {i : Fin 9} {o : Nat} {data : List Byte} (hup : s.barUp = true) (hlen : 0 < data.length)
    (hend : o + data.length ≤ 0x1000) :
    registerWrite (BitVec.ofNat 24 (mboxBase i + o)).toNat data s = s.writeMbox i o data := by
  obtain ⟨hpage, hfit⟩ := mboxBase_page i
  have hoff : (BitVec.ofNat 24 (mboxBase i + o)).toNat = mboxBase i + o := by
    rw [BitVec.toNat_ofNat]
    omega
  have hin : inPage (mboxBase i + o) data.length = true := by
    simp only [inPage, decide_eq_true_eq]
    omega
  rw [hoff]
  unfold registerWrite
  rw [if_neg (by simp [hup, hin])]
  split
  · next h =>
    obtain ⟨a, ha, hsome⟩ := List.exists_of_findSome?_eq_some h
    obtain ⟨n, hn, rfl⟩ := List.mem_map.mp ha
    rw [Nat.add_assoc, bar0At_mbox i (by have := List.mem_range.mp hn; omega)] at hsome
    cases hsome
  · simp only [bar0At_mbox i (show o < 0x1000 by omega)]

/-- A write that does not reach GO sets bytes of the registers. -/
theorem State.writeMbox_of_registers {i : Fin 9} {o : Nat} {data : List Byte} (hheld : (s.mbox i).held = false)
    (hgo : ¬ (o < 0x14 ∧ 0x10 < o + data.length)) : s.writeMbox i o data =
      s.setMbox i ((List.range data.length).foldl (fun m n => m.setByte (o + n) (data.getD n 0)) (s.mbox i)) := by
  unfold State.writeMbox
  rw [if_neg (by simp [hheld])]
  exact if_neg hgo

theorem Mbox.setIndex (m : Mbox) (v : BitVec 16) :
    (List.range 2).foldl (fun m n => m.setByte (0 + n) ((natLe 2 v.toNat).getD n 0)) m = { m with reqIndex := v } := by
  have h := setByteOf_half m.reqIndex v
  simpa [List.range_succ, Mbox.setByte, natLe] using h

theorem Mbox.setTag (m : Mbox) (v : BitVec 32) :
    (List.range 4).foldl (fun m n => m.setByte (8 + n) ((natLe 4 v.toNat).getD n 0)) m = { m with reqTag := v } := by
  have h := setByteOf_word m.reqTag v
  simpa [List.range_succ, Mbox.setByte, natLe] using h

theorem bar0WritesClause : Bar0WritesClause := by
  intro s i hup hheld
  have hwrite := fun (o : Nat) (data : List Byte) (hlen : 0 < data.length) (hend : o + data.length ≤ 0x10) =>
    (registerWrite_mbox (i := i) hup hlen (by omega)).trans
      (State.writeMbox_of_registers (o := o) (data := data) hheld (by omega))
  refine ⟨fun off n hlink hn => ?read, fun v => ?index, fun b => ?flags, fun v => ?tag, fun off d hin hall => ?reserved⟩
  case read =>
    unfold State.bar0Completion State.bar0Read
    rw [if_pos ⟨hup, hlink, hn⟩]
    by_cases hunit : off % 8 + n ≤ 8
    · rw [if_pos ⟨hn, hunit⟩, if_pos hunit]
    · rw [if_neg (by omega), if_neg hunit]
  case index => exact nextOf ((hwrite 0 (natLe 2 v.toNat) (by simp [natLe]) (by simp [natLe])).trans
      (congrArg (s.setMbox i) (Mbox.setIndex _ v)))
  case flags => exact nextOf ((hwrite 3 [b] (by simp) (by simp)).trans rfl)
  case tag => exact nextOf ((hwrite 8 (natLe 4 v.toNat) (by simp [natLe]) (by simp [natLe])).trans
      (congrArg (s.setMbox i) (Mbox.setTag _ v)))
  case reserved =>
    refine nextOf (if_pos ⟨hup, hin, List.all_eq_true.mpr fun a ha => ?_⟩)
    simp [isReserved, hall a ha]

/-! ### MSI-X and configuration (R200, R248, R863) -/

/-- What one vector of the table contributes to a walk that sends what is pending. -/
def State.sendPending (s : State) (v : Fin 64) : State :=
  let e := s.msix.table.get v
  if bit s.msix.pba.toNat v.val ∧ s.fn.msixEnable ∧ ¬ s.fn.funcMask ∧ ¬ e.masked then
    ({ s with msix := { s.msix with pba := s.msix.pba &&& ~~~(BitVec.ofNat 64 (2 ^ v.val)) } } : State).emit
      (.msix v.val e.addr e.data)
  else s

theorem State.flushPba_eq (s : State) : s.flushPba = (List.finRange 64).foldl State.sendPending s := rfl

theorem State.sendPending_of_clear {v : Fin 64} (h : bit s.msix.pba.toNat v.val = false) : s.sendPending v = s :=
  if_neg (by simp [h])

/-- With nothing pending nothing is sent. -/
theorem State.foldl_sendPending_of_none (l : List (Fin 64)) (h : s.msix.pba = 0) : l.foldl State.sendPending s = s := by
  induction l with
  | nil => rfl
  | cons v l ih => rw [List.foldl_cons, State.sendPending_of_clear (by simp [h, bit]), ih]

theorem State.flushPba_of_none (h : s.msix.pba = 0) : s.flushPba = s := s.foldl_sendPending_of_none _ h

/-- The one pending vector, free to send, is sent once. -/
theorem State.flushPba_of_one {v : Fin 64} (hpba : s.msix.pba = BitVec.ofNat 64 (2 ^ v.val)) (hen : s.fn.msixEnable = true)
    (hmask : s.fn.funcMask = false) (hfree : (s.msix.table.get v).masked = false) :
    s.flushPba = ({ s with msix := { s.msix with pba := 0 } } : State).emit
      (.msix v.val (s.msix.table.get v).addr (s.msix.table.get v).data) := by
  have hbit : ∀ w : Fin 64, bit s.msix.pba.toNat w.val = decide (w = v) := fun w => by
    rw [hpba, bit_eq_testBit, BitVec.toNat_ofNat, Nat.mod_eq_of_lt (Nat.pow_lt_pow_right (by decide) v.isLt),
      Nat.testBit_two_pow]
    simp [Fin.ext_iff, eq_comm]
  have hsend : s.sendPending v = ({ s with msix := { s.msix with pba := 0 } } : State).emit
      (.msix v.val (s.msix.table.get v).addr (s.msix.table.get v).data) := by
    have hnone : s.msix.pba &&& ~~~(BitVec.ofNat 64 (2 ^ v.val)) = 0 := by
      rw [hpba]
      simp
    unfold State.sendPending
    rw [if_pos (by simp [hbit, hen, hmask, hfree]), hnone]
  have hwalk : ∀ l : List (Fin 64), v ∈ l → l.foldl State.sendPending s = s.sendPending v := fun l => by
    induction l with
    | nil => simp
    | cons w l ih =>
      intro hmem
      rw [List.foldl_cons]
      by_cases hw : w = v
      · rw [hw, hsend]
        exact State.foldl_sendPending_of_none l rfl
      · rw [State.sendPending_of_clear (by simp [hbit, hw])]
        exact ih ((List.mem_cons.mp hmem).resolve_left (Ne.symm hw))
  rw [State.flushPba_eq, hwalk _ (List.mem_finRange v), hsend]

theorem vec_get_set_same {α : Type} {n : Nat} (v : Vector α n) (i : Fin n) (x : α) : (v.set i.val x i.isLt).get i = x :=
  Vector.getElem_set_self i.isLt

theorem vec_get_set_ne {α : Type} {n : Nat} (v : Vector α n) {i j : Fin n} (x : α) (h : j ≠ i) :
    (v.set i.val x i.isLt).get j = v.get j :=
  Vector.getElem_set_ne i.isLt j.isLt fun hij => h (Fin.ext hij.symm)

theorem msixAndConfigurationClause : MsixAndConfigurationClause := by
  intro s hup hpba
  refine ⟨fun v => ?quiet, fun v hen hmask => ?pending, fun d e f l m r => ?config⟩
  case quiet =>
    refine ⟨_, nextOf ((if_pos hup).trans (State.flushPba_of_none (by exact hpba))), ?_, fun w hw => ?_, hpba, rfl, rfl⟩
    · exact congrArg MsixEntry.masked (vec_get_set_same _ v _)
    · exact vec_get_set_ne _ _ hw
  case pending =>
    have hget := vec_get_set_same s.msix.table v { s.msix.table.get v with masked := false }
    refine ⟨_, nextOf ((if_pos hup).trans (State.flushPba_of_one (v := v) rfl hen hmask
      (congrArg MsixEntry.masked hget))), rfl, ?_⟩
    simp only [hget, State.emit]
  case config =>
    let s1 : State := { s with fn := { s.fn with
      dstate := d, msixEnable := e, funcMask := f, aspmL1 := l, mps := m, mrrs := r } }
    have ht : configSpaceWrite d e f l m r s =
        if d = 3 ∧ s1.rd Key.pcieLinkState = linkL0 then s1.wr Key.pcieLinkState linkL1 else s1 := by
      unfold configSpaceWrite
      rw [if_neg (by simp [hup])]
      exact State.flushPba_of_none (by split <;> exact hpba)
    have hfn : (configSpaceWrite d e f l m r s).fn = s1.fn ∧ (configSpaceWrite d e f l m r s).power = s.power := by
      rw [ht]
      split <;> exact ⟨rfl, rfl⟩
    obtain ⟨hfn, hpower⟩ := hfn
    refine ⟨_, rfl, congrArg PcieFn.dstate hfn, congrArg PcieFn.msixEnable hfn, congrArg PcieFn.funcMask hfn,
      congrArg PcieFn.aspmL1 hfn, congrArg PcieFn.mps hfn, congrArg PcieFn.mrrs hfn, hpower, fun hd hlink => ?_⟩
    have hrun : configSpaceWrite d e f l m r s = s1.wr Key.pcieLinkState linkL1 := ht.trans (if_pos ⟨hd, hlink⟩)
    have hdflt : linkL1 ≠ dfltVal s1.sku Key.pcieLinkState := by
      cases s1.sku <;> decide
    exact (congrArg (fun t : State => t.rd Key.pcieLinkState) hrun).trans (State.rd_wr_self_of_ne_dflt s1 hdflt)

/-- Settles O14, clause by clause. -/
theorem registerWrites : Obligations.RegisterWrites := ⟨bar0WritesClause, msixAndConfigurationClause⟩

end Sys2Proof.Machine
end

section
/-! PROOFS. The dictionary (03): shape rejections, COMMIT of a staged set, and its safe point. -/

namespace Sys2Proof.Machine

/-! ### A write that fails its card's shape (R929) -/

theorem dictRequest_of_shapeFail {s : State} {role : Role} {idx sub st : Nat} {data : List Byte} {env : Env}
    (hup : s.dictUp = true) (hfail : s.shapeFail (some role) true idx sub data.length = some st) :
    dictRequest role idx sub data env s = (s.noteStatus st).answer st := by
  have hwrite : bit 1 0 = true := by decide
  simp [dictRequest, hup, State.intake, hwrite, hfail]

/-- Of an entry that is not read-only the grant is judged, then the length. -/
theorem State.shapeFail_of_writable (s : State) {role : Role} {i j len : Nat} {c : Card} (hentry : cardsAt i ≠ [])
    (hcard : cardOf s.sku i j = some c) (hacc : c.access ≠ .ro) : s.shapeFail (some role) true i j len =
      if ¬ (!(isFactory role && decide (lcField ≤ s.lc)) && grants c.write role i j) = true then some DS.role
      else if ¬ lengthOk c.ty len = true then some DS.typeLen else none := by
  unfold State.shapeFail
  rw [if_neg hentry, hcard]
  cases ha : c.access <;> simp_all

/-- Settles O6: each status is the first of `State.shapeFail` that applies. -/
theorem shapeRejections : Obligations.ShapeRejections := by
  intro s role idx sub val hup i j may
  have hexec : ∀ st, s.shapeFail (some role) true i j val.length = some st →
      exec (.dictWrite role idx sub val) s = .next ((s.noteStatus st).answer st) := fun st h =>
    nextOf (dictRequest_of_shapeFail hup h)
  refine ⟨fun hentry => ?noEntry, fun hentry hsub => ?noSub, fun c hentry hcard =>
    ⟨fun hacc => ?access, fun hacc hmay => ?role, fun hacc hmay hlen => ?typeLen⟩⟩
  case noEntry => exact hexec DS.noEntry (by simp [State.shapeFail, hentry])
  case noSub => exact hexec DS.noSub (by simp [State.shapeFail, hentry, hsub])
  case access => exact hexec DS.access (by simp [State.shapeFail, hentry, hcard, hacc])
  case role =>
    refine hexec DS.role ?_
    rw [s.shapeFail_of_writable hentry hcard hacc]
    exact if_pos (Bool.eq_false_iff.1 hmay)
  case typeLen =>
    refine hexec DS.typeLen ?_
    rw [s.shapeFail_of_writable hentry hcard hacc]
    exact (if_neg (not_not.2 hmay)).trans (if_pos (Bool.eq_false_iff.1 hlen))

/-! ### COMMIT: its card and its index (R142) -/

/-- The card of the set's COMMIT. -/
def SetId.commitCard : SetId → Card
  | .prof _ => ⟨.prof, 0xf, 0xf, 0, 0, .cmd 1 4, .cmd, .h, .h, .v, .cold, 0⟩
  | .ring _ => ⟨.quire, 0x1f, 0x1f, 0, 0, .cmd 1 4, .cmd, .h, .h, .v, .cold, 0⟩
  | .stitch _ => ⟨.quire, 0x4f, 0x4f, 0, 0, .cmd 1 4, .cmd, .h, .h, .v, .cold, 0⟩
  | .tier _ => ⟨.quire, 0x6f, 0x6f, 0, 0, .cmd 1 4, .cmd, .hq, .hq, .v, .cold, 0⟩
  | .power => ⟨.abs, 0x141f, 0x141f, 0, 0, .cmd 1 4, .cmd, .h, .h, .v, .cold, 0⟩

theorem SetId.commitCard_plain (i : SetId) :
    i.commitCard.resp = .cold ∧ i.commitCard.access = .cmd ∧ ∀ l, badText i.commitCard l = false := by
  cases i <;> exact ⟨rfl, rfl, fun _ => rfl⟩

theorem setOfCommit_blockCommit (q : QNum) : setOfCommit (blockIndex q 0x1F) = some (.ring q) ∧
    setOfCommit (blockIndex q 0x4F) = some (.stitch q) ∧ setOfCommit (blockIndex q 0x6F) = some (.tier q) := by
  revert q
  decide

/-- A COMMIT's index is that of its set's key, in a quire's block or outside. -/
theorem commit_of_setOfCommit {idx : Nat} {i : SetId} (h : setOfCommit idx = some i) : i.commit = keyOf idx 0 := by
  unfold setOfCommit at h
  split at h
  · next hpower =>
    cases h
    rw [hpower]
    rfl
  · split at h
    · cases h
      simp only [SetId.commit, Key.profCommit, Fin.ofNat, keyOf]
      omega
    · split at h
      · dsimp only at h
        split at h
        · cases h
          simp only [SetId.commit, Key.qRingCommit, Fin.ofNat, keyOf]
          omega
        · split at h
          · cases h
            simp only [SetId.commit, Key.qStitchCommit, Fin.ofNat, keyOf]
            omega
          · split at h
            · cases h
              simp only [SetId.commit, Key.qTierCommit, Fin.ofNat, keyOf]
              omega
            · cases h
      · cases h

theorem setOfCommit_commit (i : SetId) : setOfCommit (i.commit / 256) = some i := by
  cases i with
  | prof p => revert p; decide
  | ring q => revert q; decide
  | stitch q => revert q; decide
  | tier q => revert q; decide
  | power => rfl

theorem cardOf_commit (sku : Sku) (i : SetId) : cardOf sku (i.commit / 256) 0 = some i.commitCard := by
  cases i with
  | prof p => revert p; cases sku <;> decide
  | ring q => revert q; cases sku <;> decide
  | stitch q => revert q; cases sku <;> decide
  | tier q => revert q; cases sku <;> decide
  | power => cases sku <;> decide

theorem State.locks_commit (s : State) {idx : Nat} {i : SetId} (h : setOfCommit idx = some i) : s.locks idx = false := by
  have hnot : ∀ n ∈ [0x1080, 0x1201, 0x110E], (idx == n) = false := fun n hn => by
    rw [beq_eq_false_iff_ne]
    rintro rfl
    fin_cases hn <;> cases h
  simp [State.locks, hnot]

/-- A run of COMMIT answers what `commitWrite` answers. -/
theorem commitRow_of_write {s t : State} {role : Role} {idx st : Nat} {i : SetId} {arg : Byte} (hs : Serving s)
    (hset : setOfCommit idx = some i) (hallowed : Allowed s role (idx * 256) 1) (hwrite : commitWrite i [arg] s = (st, t))
    (hst : st ≠ DS.role) : commitRow role idx arg s = t.answer st := by
  have hidx : i.commit / 256 = idx := by
    rw [commit_of_setOfCommit hset, keyOf]
    omega
  have hcard : cardOf s.sku idx 0 = some i.commitCard := hidx ▸ cardOf_commit s.sku i
  have hshape : s.shapeFail (some role) true idx 0 [arg].length = none := by
    have hkey : idx * 256 / 256 = idx ∧ idx * 256 % 256 = 0 := by omega
    rwa [Allowed, hkey.1, hkey.2] at hallowed
  obtain ⟨hresp, -, htext⟩ := i.commitCard_plain
  rw [commitRow, hset]
  refine dictRequest_of_cold (s.attends_of_serving hs) hshape hcard hresp ?_ hst
  rw [serveWrite_of_open _ _ _ _ _ (s.locks_commit hset) (s.recoveryBars_of_serving _ hs) rfl (htext _)]
  unfold serveOp
  rw [show (writeOf role idx 0 [arg]).idx = idx from rfl, hset]
  exact hwrite

/-! ### What COMMIT answers (R145 to R147, R150, R151) -/

theorem fieldLe_byte (b : Byte) : fieldLe [b] 0 1 = b.toNat := fieldLe_head rfl

variable {s : State} {i : SetId}

/-- Not a DISCARD, the set free to commit: the validation decides. -/
theorem commitWrite_of_open {arg : Byte} (harg : arg = 0 ∨ arg = 2) (hbar : s.commitBarred i = false)
    (hpend : (s.setState i).pending = false) : commitWrite i [arg] s = match s.validate i with
      | some (k, reason) =>
        (DS.range, (s.setSetState i SetState.idle).cmdDone i.commit DS.range
          (natLe 2 (k / 256) ++ natLe 1 (k % 256) ++ natLe 1 reason))
      | none =>
        if arg.toNat = 2 then (DS.ok, s.cmdDone i.commit DS.ok [0, 0, 0, 0]) else (DS.ok, s.acceptCommit i) := by
  have hdiscard : bit arg.toNat 0 = false := by obtain rfl | rfl := harg <;> decide
  have hsmall : ¬ 3 ≤ arg.toNat := by obtain rfl | rfl := harg <;> decide
  simp [commitWrite, fieldLe_byte, hdiscard, hbar, hpend, hsmall] <;> rfl

theorem commitWrite_of_barred (hbar : s.commitBarred i = true) : commitWrite i [0] s = (DS.state, s) :=
  if_pos ⟨by decide, hbar⟩

theorem commitWrite_of_pending (hbar : s.commitBarred i = false) (hpend : (s.setState i).pending = true) :
    commitWrite i [0] s = (DS.stagedConflict, s) := by
  unfold commitWrite
  rw [if_neg (by simp [hbar]), if_pos ⟨by decide, hpend⟩]

theorem commitWrite_of_discard : commitWrite i [1] s = (DS.ok,
    (s.unstage i).cmdDone i.commit (if (s.setState i).pending then DS.state else DS.ok) [0, 0, 0, 0]) := by
  have hdiscard : bit (fieldLe [1] 0 1) 0 = true := by decide
  unfold commitWrite State.discardSet
  dsimp only
  rw [if_neg fun h => h.1 hdiscard, if_neg fun h => h.1 hdiscard, if_neg (by decide), if_pos hdiscard]
  split <;> simp_all

/-! ### Staged copies and set states -/

theorem Tab.find_filter_of_dropped {α : Type} (keep : Nat × α → Bool) (k : Nat) (hdrop : ∀ v, keep (k, v) = false) (t : Tab α) :
    Tab.find (t.filter keep) k = none := by
  induction t with
  | nil => rfl
  | cons e t ih =>
    obtain ⟨j, v⟩ := e
    rw [List.filter_cons]
    split
    · next hkeep =>
      have hj : k ≠ j := by
        rintro rfl
        simp [hdrop] at hkeep
      simp only [Tab.find, if_neg hj, ih]
      exact ite_self _
    · exact ih

theorem rising_sets (hinv : Inv s) : Tab.rising 0 s.dict.sets = true := ((s.canonical_iff).2 hinv).dict.sets

theorem State.setSetState_setState (h : Tab.rising 0 s.dict.sets = true) (x : SetState) :
    (s.setSetState i x).setState i = x := by
  rw [State.setState, State.setSetState]
  exact (Tab.get_set_of_rising _ _ _ _ h).trans (if_pos rfl)

@[simp] theorem State.cmdDone_setState (k r : Nat) (c : List Byte) (j : SetId) :
    (s.cmdDone k r c).setState j = s.setState j := rfl

@[simp] theorem State.cmdStart_setState (k : Nat) (j : SetId) : (s.cmdStart k).setState j = s.setState j := rfl

@[simp] theorem State.answer_setState (st : Nat) (j : SetId) : (s.answer st).setState j = s.setState j := rfl

@[simp] theorem State.setSetState_cmd (x : SetState) (k : Nat) : (s.setSetState i x).cmd k = s.cmd k := rfl

theorem State.cmdStart_cmd (k : Nat) : (s.cmdStart k).cmd k = { s.cmd k with state := .running } := by
  show (Tab.find (Tab.put s.dict.cmds k _) k).getD _ = _
  rw [if_neg (by simp [CmdBlock.never]), Tab.find_put_self]
  rfl

/-- Settles O8: `commitWrite`, case by case. -/
theorem commitRows : Obligations.CommitRows := by
  intro s role idx i hs hinv hset hallowed
  have hsets := rising_sets hinv
  have hexec : ∀ {arg st t}, commitWrite i [arg] s = (st, t) → st ≠ DS.role →
      commitRow role idx.toNat arg s = t.answer st := fun h hst => commitRow_of_write hs hset hallowed h hst
  refine ⟨fun hbar => ?barred, fun hbar hpend => ?pending, fun k r hbar hpend hbad => ?refused,
    fun hbar hpend hgood => ⟨?validated, fun hself => ?accepted⟩, ?discarded⟩
  case barred => exact nextOf (hexec (commitWrite_of_barred hbar) (by decide))
  case pending => exact nextOf (hexec (commitWrite_of_pending hbar hpend) (by decide))
  case refused =>
    have hcommit := commitWrite_of_open (arg := 0) (.inl rfl) hbar hpend
    have hvalidate := commitWrite_of_open (arg := 2) (.inr rfl) hbar hpend
    rw [hbad] at hcommit hvalidate
    refine ⟨_, nextOf (hexec hcommit (by decide)), nextOf (hexec hvalidate (by decide)), rfl, rfl, ?_, ?_, ?_, ?_, rfl⟩
    · rw [State.answer_setState, State.cmdDone_setState, State.setSetState_setState hsets]
      rfl
    all_goals rw [State.answer_cmd, State.cmdDone_cmd]
    rfl
  case validated =>
    have hvalidate := commitWrite_of_open (arg := 2) (.inr rfl) hbar hpend
    rw [hgood] at hvalidate
    refine ⟨_, nextOf (hexec hvalidate (by decide)), rfl, rfl, rfl, ?_, ?_, rfl⟩
    all_goals rw [State.answer_cmd, State.cmdDone_cmd]
  case accepted =>
    have hcommit := commitWrite_of_open (arg := 0) (.inl rfl) hbar hpend
    have haccept : s.acceptCommit i = (s.cmdStart i.commit).setSetState i { s.setState i with pending := true } := by
      simp [State.acceptCommit, hself]
    rw [hgood, haccept] at hcommit
    refine ⟨_, nextOf (hexec hcommit (by decide)), rfl, rfl, ?_, ?_, rfl⟩
    · rw [State.answer_setState, State.setSetState_setState (by exact hsets)]
    · rw [State.answer_cmd, State.setSetState_cmd, State.cmdStart_cmd]
  case discarded =>
    refine ⟨_, nextOf (hexec commitWrite_of_discard (by decide)), rfl, ?_, fun k hk => ?_, ?_, ?_, rfl⟩
    · rw [State.answer_setState, State.cmdDone_setState]
      exact State.setSetState_setState (by exact hsets) _
    · exact Tab.find_filter_of_dropped _ k (fun v => by simpa using hk) _
    all_goals rw [State.answer_cmd, State.cmdDone_cmd]

/-! ### The safe point (R148) -/

/-- Every one of the keys is an entry whose value is in the active copy alone (R127). -/
def unstored (sku : Sku) (ks : List Nat) : Bool :=
  ks.all fun k => (cardOf sku (k / 256) (k % 256)).any fun c => c.cls != .s

theorem State.activate_of_unstored {ks : List Nat} (h : unstored s.sku ks = true) {k : Nat} (hk : k ∈ ks) :
    s.activate k = s.wr k (s.staged k) := by
  have hcard := List.all_eq_true.1 h k hk
  obtain ⟨c, hc, hcls⟩ := (Option.any_eq_true _ _).1 hcard
  rw [State.activate, hc]
  exact if_neg (by simpa using hcls)

/-- Activating such members, each once, gives each its staged value and touches the active copy alone. -/
theorem State.foldl_activate {ks : List Nat} : ∀ {s : State}, unstored s.sku ks = true → ks.Nodup →
    valsWf s.sku 0 s.dict.vals = true →
    ks.foldl State.activate s = s.setDict { s.dict with vals := (ks.foldl State.activate s).dict.vals } ∧
      ∀ k, (ks.foldl State.activate s).rd k = if k ∈ ks then s.staged k else s.rd k := by
  induction ks with
  | nil => exact fun _ _ _ => ⟨rfl, fun k => by simp⟩
  | cons m ks ih =>
    intro s hplain hnodup hwf
    obtain ⟨hm, hnodup⟩ := List.nodup_cons.1 hnodup
    have hrest : unstored s.sku ks = true := by
      simp only [unstored, List.all_cons, Bool.and_eq_true] at hplain
      exact hplain.2
    obtain ⟨hframe, hrd⟩ := ih (s := s.wr m (s.staged m)) hrest hnodup (s.wr_wf _ _ hwf)
    rw [List.foldl_cons, State.activate_of_unstored hplain (List.mem_cons_self ..)]
    refine ⟨hframe, fun k => ?_⟩
    rw [hrd k, State.staged, s.rd_wr _ _ _ hwf]
    by_cases hk : k = m
    · simp [hk, hm]
    · simp only [hk, if_false, List.mem_cons, false_or]
      rfl

theorem unstored_members (sku : Sku) (h : i = .power ∨ ∃ q, i = .tier q) : unstored sku i.members = true := by
  obtain rfl | ⟨q, rfl⟩ := h
  · cases sku <;> decide
  · revert q
    cases sku <;> decide

theorem nodup_members (h : i = .power ∨ ∃ q, i = .tier q) : i.members.Nodup := by
  obtain rfl | ⟨q, rfl⟩ := h
  · decide
  · revert q
    decide

theorem commitIndex_toNat (i : SetId) : (BitVec.ofNat 16 (i.commit / 256)).toNat = i.commit / 256 := by
  cases i with
  | prof p => revert p; decide
  | ring q => revert q; decide
  | stitch q => revert q; decide
  | tier q => revert q; decide
  | power => rfl

/-- Settles O9: the apply of such a set is the fold of `State.activate` over its members. -/
theorem safePointAppliesWhole : Obligations.SafePointAppliesWhole := by
  intro s i hset hinv hrun hpend hsafe
  have hsets := rising_sets hinv
  obtain ⟨hvals, -, -⟩ := hinv
  obtain ⟨hframe, hrd⟩ := State.foldl_activate (s := s) (unstored_members s.sku hset) (nodup_members hset) hvals
  have happly : s.applySet i = s.setDict { s.dict with vals := (s.applySet i).dict.vals } ∧
      ∀ k, (s.applySet i).rd k = if k ∈ i.members then s.staged k else s.rd k := by
    obtain rfl | ⟨q, rfl⟩ := hset <;> exact ⟨hframe, hrd⟩
  obtain ⟨hframe, hrd⟩ := happly
  have hpoint : commitSafePoint (BitVec.ofNat 16 (i.commit / 256)).toNat s =
      ((s.applySet i).unstage i).cmdDone i.commit DS.ok [0, 0, 0, 0] := by
    rw [commitIndex_toNat, commitSafePoint, setOfCommit_commit]
    dsimp only
    rw [if_pos (by simp [hrun, hsafe]), State.safePoint, if_pos hpend]
  generalize s.applySet i = u at hframe hrd hpoint
  refine ⟨_, nextOf hpoint, hrd, ?_, ?_, ?_, ?_, ?_, ?_, ?_⟩
  · rw [State.cmdDone_setState]
    exact State.setSetState_setState (by rw [hframe]; exact hsets) _
  · rw [State.cmdDone_cmd]
  · rw [State.cmdDone_cmd]
  all_goals
    rw [hframe]
    rfl

end Sys2Proof.Machine
end

section
/-! PROOFS. Time (05, 20): the watchdog timers expire, the slow tick counts. -/

namespace Sys2Proof.Machine

variable {s : State}

/-! ### What an alert leaves of the registers (R909, R910) -/

@[simp] theorem State.ibiDue_dict (s : State) (group code : Nat) : (s.ibiDue group code).dict = s.dict := by
  obtain ⟨l, h⟩ := s.ibiDue_eq group code
  rw [h]
  rfl

@[simp] theorem State.ibiDue_sku (s : State) (group code : Nat) : (s.ibiDue group code).sku = s.sku := by
  obtain ⟨l, h⟩ := s.ibiDue_eq group code
  rw [h]
  rfl

@[simp] theorem State.msixSend_sku (s : State) (v : Nat) : (s.msixSend v).sku = s.sku := by
  obtain ⟨out, msix, h⟩ := s.msixSend_eq v
  rw [h]

@[simp] theorem State.ibiDue_rd (s : State) (group code k : Nat) : (s.ibiDue group code).rd k = s.rd k := by
  obtain ⟨l, h⟩ := s.ibiDue_eq group code
  rw [h]
  rfl

theorem State.ibiDue_regsKept {P : Nat → Prop} (s : State) (group code : Nat) : s.RegsKept P (s.ibiDue group code) := by
  obtain ⟨l, h⟩ := s.ibiDue_eq group code
  rw [h]
  exact .of_eq rfl rfl

/-- An alert changes ALERT_CAUSE alone. -/
theorem State.alert_regsKept (s : State) (cause : Nat) : s.RegsKept (Eq Key.alertCause) (s.alert cause) := by
  unfold State.alert
  split
  · exact .of_eq rfl rfl
  · exact (s.wr_regsKept _ rfl).trans (State.ibiDue_regsKept _ _ _)

/-- An alert sets its cause's bit. -/
theorem State.alert_sets (h : valsWf s.sku 0 s.dict.vals = true) (cause : Nat) :
    bit ((s.alert cause).rd Key.alertCause) cause = true := by
  unfold State.alert
  split
  · next hset => exact hset
  · next hclear =>
    rw [bit_eq_testBit] at hclear
    rw [State.ibiDue_rd, s.rd_wr _ _ _ h, if_pos rfl, bit_eq_testBit, Nat.add_comm, Nat.testBit_two_pow_add_eq]
    simp [hclear]

/-! ### The first expiry (R916) -/

/-- The register writes of the first expiry. -/
def State.enterStage1 (s : State) (cause : Nat) : State :=
  let s := s.wrs [(Key.wdtState, 1), (Key.wdtCause, cause)]
  ((s.setClk { s.clk with quickOsc := true }).alert AL.wdtStage1).count Key.wdtStage1Count

theorem State.wdtExpire_dict {cause : Nat} (h : s.rd Key.wdtState ≠ 1) :
    (s.wdtExpire cause).dict = (s.enterStage1 cause).dict ∧ (s.wdtExpire cause).sku = (s.enterStage1 cause).sku := by
  unfold State.wdtExpire
  rw [if_neg h]
  dsimp only
  split
  · rw [State.msixSend_dict, State.ibiDue_dict, State.msixSend_sku, State.ibiDue_sku]
    exact ⟨rfl, rfl⟩
  · rw [State.ibiDue_dict, State.ibiDue_sku]
    exact ⟨rfl, rfl⟩

theorem State.wdtExpire_rd {cause : Nat} (h : s.rd Key.wdtState ≠ 1) (k : Nat) :
    (s.wdtExpire cause).rd k = (s.enterStage1 cause).rd k := by
  obtain ⟨hdict, hsku⟩ := State.wdtExpire_dict (cause := cause) h
  rw [State.rd, State.rd, hdict, hsku]

theorem State.maxOf_of_card (s : State) {k m : Nat}
    (h : ∀ sku, (cardOf sku (k / 256) (k % 256)).map (fun c => tyMax c.ty) = some m) : s.maxOf k = m := by
  have hcard := h s.sku
  rw [State.maxOf]
  cases hc : cardOf s.sku (k / 256) (k % 256) with
  | none => simp [hc] at hcard
  | some c => simpa [hc] using hcard

theorem State.maxOf_wdtStage1Count (s : State) : s.maxOf Key.wdtStage1Count = 0xFFFFFFFF :=
  s.maxOf_of_card fun sku => by cases sku <;> decide

theorem State.enterStage1_rd (cause : Nat) (h : valsWf s.sku 0 s.dict.vals = true) :
    (s.enterStage1 cause).rd Key.wdtState = 1 ∧ (s.enterStage1 cause).rd Key.wdtCause = cause ∧
    (s.enterStage1 cause).rd Key.wdtStage1Count = min (s.rd Key.wdtStage1Count + 1) 0xFFFFFFFF ∧
    bit ((s.enterStage1 cause).rd Key.alertCause) 12 = true := by
  let w := s.wr Key.wdtState 1
  let u := (w.wr Key.wdtCause cause).setClk { (w.wr Key.wdtCause cause).clk with quickOsc := true }
  have hw : valsWf w.sku 0 w.dict.vals = true := s.wr_wf _ _ h
  have hu : valsWf u.sku 0 u.dict.vals = true := w.wr_wf _ _ hw
  have hua := u.alert_regsKept AL.wdtStage1
  have ha := hua.wf hu
  have hrd : ∀ k, k ≠ Key.wdtStage1Count → k ≠ Key.alertCause → (s.enterStage1 cause).rd k =
      if k = Key.wdtCause then cause else if k = Key.wdtState then 1 else s.rd k := fun k hcount halert => by
    show ((u.alert AL.wdtStage1).count Key.wdtStage1Count).rd k = _
    rw [State.count, State.rd_wr _ _ _ _ ha, if_neg hcount, hua.rd hu k (Ne.symm halert)]
    show (w.wr Key.wdtCause cause).rd k = _
    rw [w.rd_wr _ _ _ hw, s.rd_wr _ _ _ h]
  refine ⟨?_, ?_, ?_, ?_⟩
  · exact hrd _ (by decide) (by decide)
  · exact hrd _ (by decide) (by decide)
  · show ((u.alert AL.wdtStage1).count Key.wdtStage1Count).rd _ = _
    rw [State.rd_count_self _ _ _ ha, State.maxOf_wdtStage1Count, hua.rd hu _ (by decide)]
    show min ((w.wr Key.wdtCause cause).rd _ + 1) _ = _
    rw [w.rd_wr _ _ _ hw, s.rd_wr _ _ _ h]
    rfl
  · show bit (((u.alert AL.wdtStage1).count Key.wdtStage1Count).rd _) 12 = true
    rw [State.count, State.rd_wr _ _ _ _ ha]
    exact State.alert_sets hu AL.wdtStage1

/-! ### The slow tick (R251) -/

theorem State.rd_count_zero (h : valsWf s.sku 0 s.dict.vals = true) {k j : Nat} (hj : j ≠ k) (n : Nat) :
    (s.count k n).rd j = s.rd j := by
  rw [State.count, s.rd_wr _ _ _ h, if_neg hj]

/-- The tick's own registers: three counters and the usable sectors. -/
def State.tickCounts (s : State) : State :=
  ((((s.count Key.sramCorrected 0).count Key.fabricCorrected 0).count Key.t2Corrected 0).uncount Key.paramUsable 0)

theorem State.tickCounts_rd (h : valsWf s.sku 0 s.dict.vals = true) {k : Nat} (hsram : k ≠ Key.sramCorrected)
    (hfabric : k ≠ Key.fabricCorrected) (ht2 : k ≠ Key.t2Corrected) : s.tickCounts.rd k = s.rd k := by
  have h1 : valsWf (s.count Key.sramCorrected 0).sku 0 (s.count Key.sramCorrected 0).dict.vals = true := s.wr_wf _ _ h
  have h2 : valsWf ((s.count Key.sramCorrected 0).count Key.fabricCorrected 0).sku 0
    ((s.count Key.sramCorrected 0).count Key.fabricCorrected 0).dict.vals = true := State.wr_wf _ _ _ h1
  have h3 : valsWf (((s.count Key.sramCorrected 0).count Key.fabricCorrected 0).count Key.t2Corrected 0).sku 0
    (((s.count Key.sramCorrected 0).count Key.fabricCorrected 0).count Key.t2Corrected 0).dict.vals = true :=
    State.wr_wf _ _ _ h2
  have hkeep : ∀ j, j ≠ Key.sramCorrected → j ≠ Key.fabricCorrected → j ≠ Key.t2Corrected →
      (((s.count Key.sramCorrected 0).count Key.fabricCorrected 0).count Key.t2Corrected 0).rd j = s.rd j :=
    fun j hj hj' hj'' => by rw [State.rd_count_zero h2 hj'', State.rd_count_zero h1 hj', State.rd_count_zero h hj]
  rw [State.tickCounts, State.uncount, State.rd_wr _ _ _ _ h3, hkeep _ (by decide) (by decide) (by decide)]
  split
  · next heq => rw [heq, Nat.sub_zero]
  · exact hkeep k hsram hfabric ht2

theorem slowTick_of_quiet (haon : s.pins.aonUp = true) (hrun : s.running = true) (hcore : s.coreOn = true)
    (hentry : s.pm.entry = none) : slowTick {} s =
      ({ s with rtc := s.rtc + 1, wdt := { s.wdt with hostServed := false, fwServed := false } } : State).tickCounts := by
  unfold slowTick
  rw [if_neg (by simp [haon])]
  dsimp only
  rw [if_neg (by simpa [State.running] using hrun), if_neg (by simp)]
  simp only [Bool.false_eq_true, false_and, if_false]
  rw [if_pos (by exact hcore)]
  have hstep : ∀ t : State, t.pm.entry = none → t.stepEntry = t := fun t ht => by rw [State.stepEntry, ht]
  exact hstep _ hentry

/-- Settles O53: the first expiry is `State.enterStage1`; a quiet slow tick is `State.tickCounts`. -/
theorem timersExpire : Obligations.TimersExpire := by
  intro s hinv
  obtain ⟨hvals, -, -⟩ := hinv
  refine ⟨fun c cause hc hrun => ?expire, fun h => ?hostHeld, fun h => ?fwHeld, fun haon hrun hcore hentry => ?tick⟩
  case expire =>
    have hexec : ∃ u : State, u.dict = s.dict ∧ u.sku = s.sku ∧ u.out = s.out ∧ u.i3c = s.i3c ∧
        u.wdt.hostExpired = (s.wdt.hostExpired || decide (cause = 1)) ∧
        u.wdt.fwExpired = (s.wdt.fwExpired || decide (cause = 2)) ∧ exec c s = .next (u.wdtExpire cause) ∧
        (footprint c).units = false ∧ (footprint c).tiers = false ∧ (footprint c).nv = false := by
      obtain ⟨rfl, rfl, hperiod, hpause, hexpired, hserved⟩ | ⟨rfl, rfl, hcore, hexpired, hserved⟩ := hc
      · exact ⟨{ s with wdt := { s.wdt with hostExpired := true } }, rfl, rfl, rfl, rfl, by simp, by simp,
          nextOf (if_neg (by simp [hrun, hperiod, hpause, hexpired, hserved])), rfl, rfl, rfl⟩
      · exact ⟨{ s with wdt := { s.wdt with fwExpired := true } }, rfl, rfl, rfl, rfl, by simp, by simp,
          nextOf (if_neg (by simp [hrun, hcore, hexpired, hserved])), rfl, rfl, rfl⟩
    obtain ⟨u, hdict, hsku, hout, hi3c, hhost, hfw, hexec, hunits, htiers, hnv⟩ := hexec
    have hrd : ∀ k, u.rd k = s.rd k := fun k => by rw [State.rd, State.rd, hdict, hsku]
    have hwithin := State.Within.exec hexec
    refine ⟨fun hfirst => ?_, fun hsecond => ?_⟩
    · have hne : u.rd Key.wdtState ≠ 1 := by simp [hrd, hfirst]
      obtain ⟨hstate, hcause, hcount, halert⟩ := State.enterStage1_rd (s := u) cause (by rw [hdict, hsku]; exact hvals)
      obtain ⟨hquires, -⟩ := hwithin.units hunits
      refine ⟨_, hexec, ?_, ?_, ?_, ?_, hquires, hwithin.tiers htiers, hwithin.nv hnv⟩
      all_goals rw [State.wdtExpire_rd hne]
      · exact hstate
      · exact hcause
      · rw [hcount, hrd]
      · exact halert
    · have hsame : u.wdtExpire cause = u := if_pos (by rw [hrd]; exact hsecond)
      rw [hsame] at hexec
      exact ⟨u, hexec, hdict, hout, hi3c, hhost, hfw⟩
  case hostHeld =>
    refine nextOf (if_pos ?_)
    obtain h | h | h := h
    · exact .inr (.inl h)
    · exact .inr (.inr (.inl h))
    · exact .inr (.inr (.inr (.inr h)))
  case fwHeld => exact nextOf (if_pos (.inr (.inr (.inr h))))
  case tick =>
    exact ⟨_, nextOf (slowTick_of_quiet haon hrun hcore hentry), rfl, rfl, rfl, rfl, rfl,
      fun k hsram hfabric ht2 => State.tickCounts_rd (by exact hvals) hsram hfabric ht2⟩

end Sys2Proof.Machine
end

section
/-! PROOFS. Power (18): the governor's evaluation, Sprint windows, the board temperature. -/

namespace Sys2Proof.Machine

variable {s t u : State}

/-! ### What the governor leaves (R842 to R850) -/

/-- `t` is `s` but for entries among `ks`, the governor's own state, the clocks, the bays and the interrupts due. -/
structure State.Governs (ks : List Nat) (s t : State) : Prop where
  frame : t = { s with dict := { s.dict with vals := t.dict.vals }, pm := t.pm, clk := t.clk, i3c := t.i3c, bays := t.bays }
  wf : valsWf s.sku 0 s.dict.vals = true → valsWf t.sku 0 t.dict.vals = true
  rd : valsWf s.sku 0 s.dict.vals = true → ∀ k, k ∉ ks → t.rd k = s.rd k

namespace State.Governs

variable {ks ks' : List Nat}

theorem refl (s : State) : s.Governs ks s := ⟨rfl, id, fun _ _ _ => rfl⟩

theorem trans (h : s.Governs ks t) (h' : t.Governs ks' u) : s.Governs (ks ++ ks') u where
  frame := by rw [h'.frame, h.frame]
  wf hs := h'.wf (h.wf hs)
  rd hs k hk := by
    rw [List.mem_append, not_or] at hk
    exact (h'.rd (h.wf hs) k hk.2).trans (h.rd hs k hk.1)

theorem mono (h : s.Governs ks t) (hks : ks ⊆ ks') : s.Governs ks' t := ⟨h.frame, h.wf, fun hs k hk => h.rd hs k fun hm => hk (hks hm)⟩

theorem ite {c : Prop} [Decidable c] (ht : s.Governs ks t) (hu : s.Governs ks u) : s.Governs ks (if c then t else u) := by
  split
  · exact ht
  · exact hu

theorem setPm (h : s.Governs ks t) (p : Power) : s.Governs ks (t.setPm p) := by
  exact ⟨by rw [h.frame]; rfl, h.wf, h.rd⟩

theorem setClk (h : s.Governs ks t) (c : Clocks) : s.Governs ks (t.setClk c) := by
  exact ⟨by rw [h.frame]; rfl, h.wf, h.rd⟩

theorem wr (h : s.Governs ks t) {k : Nat} (v : Nat) (hk : k ∈ ks) : s.Governs ks (t.wr k v) where
  frame := by rw [h.frame]; rfl
  wf hs := t.wr_wf k v (h.wf hs)
  rd hs j hj := by rw [t.rd_wr k j v (h.wf hs), if_neg fun (e : j = k) => hj (e ▸ hk), h.rd hs j hj]

theorem count (h : s.Governs ks t) {k : Nat} (n : Nat) (hk : k ∈ ks) : s.Governs ks (t.count k n) := h.wr _ hk

theorem bays (h : s.Governs ks t) (v : Vector Bay 8) : s.Governs ks { t with bays := v } := by
  exact ⟨by rw [h.frame], h.wf, h.rd⟩

theorem alert (h : s.Governs ks t) {cause : Nat} (hk : Key.alertCause ∈ ks) : s.Governs ks (t.alert cause) := by
  unfold State.alert
  refine ite h ?_
  obtain ⟨l, hl⟩ := (t.wr Key.alertCause (t.rd Key.alertCause + 2 ^ cause)).ibiDue_eq 2 cause
  have hw := h.wr (t.rd Key.alertCause + 2 ^ cause) hk
  rw [hl]
  exact ⟨by rw [hw.frame]; rfl, hw.wf, hw.rd⟩

theorem part (h : s.Governs ks t) : t.part = s.part := by rw [h.frame]

theorem units (h : s.Governs ks t) : t.quires = s.quires ∧ t.tiers = s.tiers ∧ t.st = s.st ∧ t.nv = s.nv ∧
    t.weave = s.weave ∧ t.power = s.power := by
  rw [h.frame]
  exact ⟨rfl, rfl, rfl, rfl, rfl, rfl⟩

end State.Governs

theorem State.lowerSteps_bays (s : State) : ∃ v, s.lowerSteps = { s with bays := v } := by
  unfold State.lowerSteps
  refine State.forB_bays (fun t b => ?_) s
  split
  · exact ⟨_, rfl⟩
  · exact ⟨t.bays, rfl⟩

theorem State.updateVsel_governs (s : State) :
    s.Governs [Key.pwrVsel] s.updateVsel ∧ s.updateVsel.pm = s.pm := by
  obtain ⟨v, hlower⟩ := s.lowerSteps_bays
  obtain ⟨w, happly⟩ := s.applySteps_bays s.neededVsel
  have hkeys : Key.pwrVsel ∈ [Key.pwrVsel] := List.mem_singleton.2 rfl
  have hl : s.Governs [Key.pwrVsel] s.lowerSteps ∧ s.lowerSteps.pm = s.pm := by
    rw [hlower]
    exact ⟨(State.Governs.refl s).bays v, rfl⟩
  have ha : s.Governs [Key.pwrVsel] (s.applySteps s.neededVsel) ∧ (s.applySteps s.neededVsel).pm = s.pm := by
    rw [happly]
    exact ⟨(State.Governs.refl s).bays w, rfl⟩
  unfold State.updateVsel
  dsimp only
  generalize s.lowerSteps = l at hl ⊢
  generalize s.applySteps s.neededVsel = a at ha ⊢
  generalize s.neededVsel = code
  split
  · exact ⟨(hl.1.wr _ hkeys).setClk _, hl.2⟩
  · have hmoved : s.Governs [Key.pwrVsel] (if s.clk.settling = true then l else a) ∧
        (if s.clk.settling = true then l else a).pm = s.pm := by
      split
      · exact hl
      · exact ha
    generalize (if s.clk.settling = true then l else a) = m at hmoved ⊢
    split
    · exact ⟨(hmoved.1.wr _ hkeys).setClk _, hmoved.2⟩
    · exact ⟨hmoved.1.wr _ hkeys, hmoved.2⟩

/-! ### The Sprint window at an evaluation (R844, R845) -/

/-- The window opens. -/
def State.openSprint (s : State) : State :=
  ((s.wr Key.pwrSprint 1).setPm { s.pm with sprintLow := 0 }).count Key.pwrSprints

/-- The count of consecutive low evaluations in an open window. -/
def State.countSprint (s : State) (p : Nat) : State :=
  s.setPm { s.pm with sprintLow := if p ≤ s.rd (Key.profPowerSustained s.part) then s.pm.sprintLow + 1 else 0 }

theorem State.sprintStep_of_shut {p : Nat} (h : s.rd Key.pwrSprint = 0) : s.sprintStep p =
    if s.rd (Key.profPowerSustained s.part) < p ∧ s.rd (Key.profBurstWindow s.part) ≠ 0 then s.openSprint else s := by
  unfold State.sprintStep
  rw [h]
  rfl

theorem State.sprintStep_of_open {p : Nat} (h : s.rd Key.pwrSprint = 1) : s.sprintStep p =
    if 100 ≤ (s.countSprint p).pm.sprintLow then (s.countSprint p).wr Key.pwrSprint 2 else s.countSprint p := by
  have hclose : (s.countSprint p).closeSprint = (s.countSprint p).wr Key.pwrSprint 2 := if_pos h
  rw [← hclose]
  unfold State.sprintStep
  rw [h]
  rfl

theorem State.sprintStep_of_resting {p : Nat} (h : s.rd Key.pwrSprint ≠ 0) (h' : s.rd Key.pwrSprint ≠ 1) :
    s.sprintStep p = s := by
  unfold State.sprintStep
  split
  · contradiction
  · contradiction
  · rfl

theorem State.sprintStep_governs (s : State) (p : Nat) : s.Governs [Key.pwrSprint, Key.pwrSprints] (s.sprintStep p) := by
  by_cases h0 : s.rd Key.pwrSprint = 0
  · rw [State.sprintStep_of_shut h0]
    exact .ite ((((State.Governs.refl s).wr 1 (by simp)).setPm _).count 1 (by simp)) (.refl s)
  · by_cases h1 : s.rd Key.pwrSprint = 1
    · rw [State.sprintStep_of_open h1]
      exact .ite (((State.Governs.refl s).setPm _).wr 2 (by simp)) ((State.Governs.refl s).setPm _)
    · rw [State.sprintStep_of_resting h0 h1]
      exact .refl s

theorem State.sprintStep_pm (s : State) (p : Nat) : ∃ n, (s.sprintStep p).pm = { s.pm with sprintLow := n } := by
  by_cases h0 : s.rd Key.pwrSprint = 0
  · rw [State.sprintStep_of_shut h0]
    split
    · exact ⟨0, rfl⟩
    · exact ⟨s.pm.sprintLow, rfl⟩
  · by_cases h1 : s.rd Key.pwrSprint = 1
    · rw [State.sprintStep_of_open h1]
      refine ⟨(s.countSprint p).pm.sprintLow, ?_⟩
      split <;> rfl
    · rw [State.sprintStep_of_resting h0 h1]
      exact ⟨s.pm.sprintLow, rfl⟩

theorem State.sprintStep_rd_of_shut {p : Nat} (hwf : valsWf s.sku 0 s.dict.vals = true) (h : s.rd Key.pwrSprint = 0) :
    (s.sprintStep p).rd Key.pwrSprint = if s.rd (Key.profPowerSustained s.part) < p ∧
      s.rd (Key.profBurstWindow s.part) ≠ 0 then 1 else 0 := by
  have hopen : s.openSprint.rd Key.pwrSprint = 1 := by
    rw [State.openSprint, State.count, State.rd_wr _ _ _ _ (by exact s.wr_wf Key.pwrSprint 1 hwf), if_neg (by decide)]
    exact (s.rd_wr _ _ _ hwf).trans (if_pos rfl)
  rw [State.sprintStep_of_shut h]
  split
  · exact hopen
  · exact h

theorem State.sprintStep_rd_of_open {p : Nat} (hwf : valsWf s.sku 0 s.dict.vals = true) (h : s.rd Key.pwrSprint = 1) :
    (s.sprintStep p).rd Key.pwrSprint =
      if p ≤ s.rd (Key.profPowerSustained s.part) ∧ 100 ≤ s.pm.sprintLow + 1 then 2 else 1 := by
  have hlow : 100 ≤ (s.countSprint p).pm.sprintLow ↔
      p ≤ s.rd (Key.profPowerSustained s.part) ∧ 100 ≤ s.pm.sprintLow + 1 := by
    show 100 ≤ (if p ≤ s.rd (Key.profPowerSustained s.part) then s.pm.sprintLow + 1 else 0) ↔ _
    split <;> omega
  rw [State.sprintStep_of_open h]
  by_cases hc : 100 ≤ (s.countSprint p).pm.sprintLow
  · rw [if_pos hc, if_pos (hlow.1 hc)]
    exact (State.rd_wr _ _ _ _ (by exact hwf)).trans (if_pos rfl)
  · rw [if_neg hc, if_neg fun hh => hc (hlow.2 hh)]
    exact h

/-! ### The level at an evaluation (R849, R850) -/

/-- The evaluation is over the cap in force or the skin limit (R849). -/
def State.evalHigh (s : State) (p : Nat) : Prop :=
  s.capNow < p ∨ toSigned 32 (s.rd (Key.profSkinLimit s.part)) * s.skin.2 < s.skin.1

/-- The evaluation is low (R850). -/
def State.evalLow (s : State) (p : Nat) : Prop :=
  10 * p ≤ 9 * s.capNow ∧ s.skin.1 ≤ (toSigned 32 (s.rd (Key.profSkinLimit s.part)) - 65536) * s.skin.2

theorem State.not_low_of_high {p : Nat} (h : s.evalHigh p) : ¬ s.evalLow p := by
  rintro ⟨hpower, hskin⟩
  obtain h | h := h
  · omega
  · have hpos : (0 : Int) ≤ (s.skin.2 : Int) := Int.natCast_nonneg _
    rw [sub_mul] at hskin
    omega

/-- The count of consecutive low evaluations. -/
def State.countLow (s : State) (n : Nat) : State := s.setPm { s.pm with lowCount := n }

theorem State.levelStep_of_high {p : Nat} (h : s.evalHigh p) : s.levelStep p =
    if s.rd Key.thermLevel < 6 then
      (((s.countLow 0).wr Key.thermLevel (s.rd Key.thermLevel + 1)).count Key.thermRaises).updateVsel
    else s.countLow 0 := by
  have hlow := State.not_low_of_high h
  unfold State.evalHigh at h
  unfold State.evalLow at hlow
  unfold State.levelStep
  simp only [h, hlow, decide_true, decide_false, if_true, Bool.false_eq_true, if_false]
  rfl

theorem State.levelStep_of_low {p : Nat} (h : s.evalLow p) : s.levelStep p =
    if 64 ≤ s.pm.lowCount + 1 ∧ 0 < s.rd Key.thermLevel then
      ((s.countLow 0).wr Key.thermLevel (s.rd Key.thermLevel - 1)).updateVsel
    else s.countLow (if 64 ≤ s.pm.lowCount + 1 then 0 else s.pm.lowCount + 1) := by
  have hhigh : ¬ s.evalHigh p := fun hh => State.not_low_of_high hh h
  unfold State.evalHigh at hhigh
  unfold State.evalLow at h
  unfold State.levelStep
  simp only [h, hhigh, decide_true, decide_false, if_true, Bool.false_eq_true, if_false, and_self]
  unfold State.countLow
  by_cases hn : 64 ≤ s.pm.lowCount + 1
  · simp only [hn, true_and, if_true]
  · simp only [hn, false_and, if_false]

theorem State.levelStep_of_between {p : Nat} (hhigh : ¬ s.evalHigh p) (hlow : ¬ s.evalLow p) :
    s.levelStep p = s.countLow 0 := by
  unfold State.evalHigh at hhigh
  unfold State.evalLow at hlow
  unfold State.levelStep
  simp only [hlow, hhigh, decide_false, Bool.false_eq_true, if_false]
  rfl

/-- A level step as one equation. -/
theorem State.levelStep_cases (s : State) (p : Nat) : ∃ n, s.levelStep p = s.countLow n ∨
    s.levelStep p = (((s.countLow n).wr Key.thermLevel (s.rd Key.thermLevel + 1)).count Key.thermRaises).updateVsel ∨
    s.levelStep p = ((s.countLow n).wr Key.thermLevel (s.rd Key.thermLevel - 1)).updateVsel := by
  by_cases hhigh : s.evalHigh p
  · refine ⟨0, ?_⟩
    rw [State.levelStep_of_high hhigh]
    split
    · exact .inr (.inl rfl)
    · exact .inl rfl
  · by_cases hlow : s.evalLow p
    · rw [State.levelStep_of_low hlow]
      split
      · exact ⟨0, .inr (.inr rfl)⟩
      · exact ⟨_, .inl rfl⟩
    · exact ⟨0, .inl (State.levelStep_of_between hhigh hlow)⟩

theorem State.levelStep_governs (s : State) (p : Nat) :
    s.Governs [Key.thermLevel, Key.thermRaises, Key.pwrVsel] (s.levelStep p) := by
  have hset : ∀ n, s.Governs [Key.thermLevel, Key.thermRaises] (s.countLow n) :=
    fun n => (State.Governs.refl s).setPm _
  have hvsel : ∀ {t : State}, s.Governs [Key.thermLevel, Key.thermRaises] t →
      s.Governs [Key.thermLevel, Key.thermRaises, Key.pwrVsel] t.updateVsel := fun h => h.trans (State.updateVsel_governs _).1
  obtain ⟨n, h | h | h⟩ := s.levelStep_cases p <;> rw [h]
  · exact (hset n).mono (by simp)
  · exact hvsel (((hset n).wr _ (by simp)).count 1 (by simp))
  · exact hvsel ((hset n).wr _ (by simp))

theorem State.levelStep_pm (s : State) (p : Nat) : ∃ n, (s.levelStep p).pm = { s.pm with lowCount := n } := by
  obtain ⟨n, h | h | h⟩ := s.levelStep_cases p <;> rw [h]
  · exact ⟨n, rfl⟩
  · exact ⟨n, (State.updateVsel_governs _).2⟩
  · exact ⟨n, (State.updateVsel_governs _).2⟩

theorem State.updateVsel_rd_level (hwf : valsWf s.sku 0 s.dict.vals = true) :
    s.updateVsel.rd Key.thermLevel = s.rd Key.thermLevel := s.updateVsel_governs.1.rd hwf _ (by decide)

theorem State.levelStep_high {p : Nat} (hwf : valsWf s.sku 0 s.dict.vals = true) (h : s.evalHigh p) :
    (s.levelStep p).rd Key.thermLevel = (if s.rd Key.thermLevel < 6 then s.rd Key.thermLevel + 1 else s.rd Key.thermLevel) ∧
      (s.levelStep p).pm.lowCount = 0 := by
  rw [State.levelStep_of_high h]
  split
  · refine ⟨?_, by rw [(State.updateVsel_governs _).2]; rfl⟩
    have hw := State.wr_wf (s.countLow 0) Key.thermLevel (s.rd Key.thermLevel + 1) hwf
    rw [State.updateVsel_rd_level (by exact State.wr_wf _ _ _ hw), State.count, State.rd_wr _ _ _ _ hw, if_neg (by decide)]
    exact (State.rd_wr _ _ _ _ (by exact hwf)).trans (if_pos rfl)
  · exact ⟨rfl, rfl⟩

theorem State.levelStep_low {p : Nat} (hwf : valsWf s.sku 0 s.dict.vals = true) (h : s.evalLow p) :
    (s.levelStep p).pm.lowCount = (if s.pm.lowCount + 1 < 64 then s.pm.lowCount + 1 else 0) ∧
      (s.levelStep p).rd Key.thermLevel =
        (if s.pm.lowCount + 1 < 64 then s.rd Key.thermLevel else s.rd Key.thermLevel - 1) := by
  rw [State.levelStep_of_low h]
  by_cases hn : s.pm.lowCount + 1 < 64
  · rw [if_neg (by omega), if_neg (by omega), if_pos hn, if_pos hn]
    exact ⟨rfl, rfl⟩
  · rw [if_neg hn, if_neg hn, if_pos (show 64 ≤ s.pm.lowCount + 1 by omega)]
    split
    · refine ⟨by rw [(State.updateVsel_governs _).2]; rfl, ?_⟩
      rw [State.updateVsel_rd_level (by exact State.wr_wf (s.countLow 0) _ _ hwf)]
      exact (State.rd_wr _ _ _ _ (by exact hwf)).trans (if_pos rfl)
    · next hlv => exact ⟨rfl, show s.rd _ = _ by omega⟩

/-! ### The whole evaluation (R842, R847) -/

/-- The time at level 6 and the power estimate that an evaluation records. -/
def State.recordPower (s : State) (p : Nat) : State :=
  let n := if s.rd Key.thermLevel = 6 then s.pm.evalsAt6 + 1 else s.pm.evalsAt6
  (s.setPm { s.pm with evalsAt6 := n }).wrs
    [(Key.thermLastMs, min (n * 1000 / 1024) 0xFFFFFFFF), (Key.pwrEstMw, min p 0xFFFFFFFF)]

/-- The estimates an evaluation records before it judges them. -/
def State.recordEval (s : State) (p : Nat) (die : Int) : State :=
  let s := (s.recordPower p).filter die
  s.wr Key.thermSkinEst (ofSigned 32 (roundInt s.skin.1 s.skin.2))

/-- What an evaluation does once it has judged. -/
def State.endEval (s : State) (die : Int) : State :=
  (if dieHot die then s.count Key.dieTempHigh else s).levelCauses (dieHot die)

theorem powerEvaluation_of_running (p : Nat) (die : Int) (hcore : s.coreOn = true) (hrun : s.running = true) :
    powerEvaluation p die s = (((s.recordEval p die).sprintStep p).levelStep p).endEval die :=
  if_neg (by simp [hcore, hrun])

theorem State.recordPower_governs (s : State) (p : Nat) :
    s.Governs [Key.thermLastMs, Key.pwrEstMw] (s.recordPower p) :=
  (((State.Governs.refl s).setPm _).wr _ (by simp)).wr _ (by simp)

theorem State.filter_governs (s : State) (die : Int) : s.Governs [Key.thermDieMax, Key.thermFiltered] (s.filter die) :=
  (((State.Governs.refl s).setPm _).wr _ (by simp)).wr _ (by simp)

def evalKeys : List Nat := [Key.thermLastMs, Key.pwrEstMw] ++ [Key.thermDieMax, Key.thermFiltered] ++ [Key.thermSkinEst]

theorem State.recordEval_governs (s : State) (p : Nat) (die : Int) : s.Governs evalKeys (s.recordEval p die) :=
  ((s.recordPower_governs p).trans (State.filter_governs _ die)).trans ((State.Governs.refl _).wr _ (by simp))

theorem State.recordEval_rd (p : Nat) (die : Int) (h : valsWf s.sku 0 s.dict.vals = true) :
    (s.recordEval p die).rd Key.pwrEstMw = min p 0xFFFFFFFF ∧
      (s.recordEval p die).rd Key.thermDieMax = ofSigned 32 die := by
  have hpower := (s.recordPower_governs p).wf h
  have hfilter := State.filter_governs (s.recordPower p) die
  have hwf := hfilter.wf hpower
  have hrd : ∀ k, k ≠ Key.thermSkinEst → (s.recordEval p die).rd k = ((s.recordPower p).filter die).rd k := fun k hk =>
    (State.rd_wr _ _ _ _ hwf).trans (if_neg hk)
  constructor
  · rw [hrd _ (by decide), hfilter.rd hpower _ (by decide)]
    unfold State.recordPower
    generalize (if s.rd Key.thermLevel = 6 then s.pm.evalsAt6 + 1 else s.pm.evalsAt6) = n
    exact (State.rd_wr _ _ _ _ (State.wr_wf _ _ _ (by exact h))).trans (if_pos rfl)
  · rw [hrd _ (by decide)]
    unfold State.filter
    generalize s.recordPower p = u at hpower
    exact ((State.rd_wr _ _ _ _ (State.wr_wf _ _ _ (by exact hpower))).trans
      (if_neg (show Key.thermDieMax ≠ Key.thermFiltered by decide))).trans ((State.rd_wr _ _ _ _ (by exact hpower)).trans (if_pos rfl))

theorem State.recordEval_pm (p : Nat) (die : Int) (h : valsWf s.sku 0 s.dict.vals = true) : ∃ n,
    (s.recordEval p die).pm = { s.pm with
      evalsAt6 := n
      filtNum := s.pm.filtNum * ((1024 * max 1 (s.rd Key.thermTauS) : Nat) - 1 : Int) + die * s.pm.filtDen
      filtDen := s.pm.filtDen * (1024 * max 1 (s.rd Key.thermTauS)) } := by
  have htau : (s.recordPower p).rd Key.thermTauS = s.rd Key.thermTauS := (s.recordPower_governs p).rd h _ (by decide)
  have hpred : ((1024 * max 1 (s.rd Key.thermTauS) - 1 : Nat) : Int) = (1024 * max 1 (s.rd Key.thermTauS) : Nat) - 1 := by
    omega
  have hpm : ∀ u : State, (u.filter die).pm = { u.pm with
      filtNum := u.pm.filtNum * ((1024 * max 1 (u.rd Key.thermTauS) - 1 : Nat) : Int) + die * u.pm.filtDen
      filtDen := u.pm.filtDen * (1024 * max 1 (u.rd Key.thermTauS)) } := fun u => rfl
  refine ⟨if s.rd Key.thermLevel = 6 then s.pm.evalsAt6 + 1 else s.pm.evalsAt6, ?_⟩
  show ((s.recordPower p).filter die).pm = _
  rw [hpm, htau, hpred]
  rfl

theorem State.endEval_governs (s : State) (die : Int) : s.Governs [Key.dieTempHigh, Key.alertCause] (s.endEval die) := by
  have hcount : s.Governs [Key.dieTempHigh, Key.alertCause] (if dieHot die then s.count Key.dieTempHigh else s) :=
    .ite ((State.Governs.refl s).count 1 (by simp)) (.refl s)
  unfold State.endEval State.levelCauses
  generalize (if dieHot die = true then s.count Key.dieTempHigh else s) = t at hcount ⊢
  dsimp only
  have hparam : s.Governs [Key.dieTempHigh, Key.alertCause] (if t.paramFull then t.alert AL.paramShort else t) :=
    .ite (hcount.alert (by simp)) hcount
  generalize (if t.paramFull = true then t.alert AL.paramShort else t) = u at hparam ⊢
  have hvdd : s.Governs [Key.dieTempHigh, Key.alertCause] (if u.pm.vddBad then u.alert AL.vddBay else u) :=
    .ite (hparam.alert (by simp)) hparam
  exact .ite (hvdd.alert (by simp)) hvdd

theorem State.endEval_pm (s : State) (die : Int) : (s.endEval die).pm = s.pm := by
  have hite : ∀ {c : Prop} [Decidable c] {t u : State}, t.pm = s.pm → u.pm = s.pm → (if c then t else u).pm = s.pm :=
    fun ht hu => by
      split
      · exact ht
      · exact hu
  have hcount : (if dieHot die then s.count Key.dieTempHigh else s).pm = s.pm := hite rfl rfl
  unfold State.endEval State.levelCauses
  generalize (if dieHot die = true then s.count Key.dieTempHigh else s) = t at hcount ⊢
  dsimp only
  have hparam : (if t.paramFull then t.alert AL.paramShort else t).pm = s.pm := hite (by rwa [State.alert_pm]) hcount
  generalize (if t.paramFull = true then t.alert AL.paramShort else t) = u at hparam ⊢
  have hvdd : (if u.pm.vddBad then u.alert AL.vddBay else u).pm = s.pm := hite (by rwa [State.alert_pm]) hparam
  exact hite (by rwa [State.alert_pm]) hvdd

/-- The entries that an evaluation changes once it has recorded the estimates. -/
def judgeKeys : List Nat := [Key.pwrSprint, Key.pwrSprints] ++ [Key.thermLevel, Key.thermRaises, Key.pwrVsel] ++
  [Key.dieTempHigh, Key.alertCause]

/-- No profile entry is among them, nor among the estimates. -/
theorem profile_key_kept (part n : Nat) (hn : n ∈ [1, 2, 3, 4]) :
    (0x1210 + part * 0x10 + 0x8) * 256 + n ∉ evalKeys ++ judgeKeys := by
  simp only [evalKeys, judgeKeys, Key.thermLastMs, Key.pwrEstMw, Key.thermDieMax, Key.thermFiltered, Key.thermSkinEst,
    Key.pwrSprint, Key.pwrSprints, Key.thermLevel, Key.thermRaises, Key.pwrVsel, Key.dieTempHigh, Key.alertCause,
    List.cons_append, List.nil_append, List.mem_cons, List.not_mem_nil, or_false, not_or]
  simp only [List.mem_cons, List.not_mem_nil, or_false] at hn
  omega

theorem State.levelStep_between {p : Nat} (hhigh : ¬ s.evalHigh p) (hlow : ¬ s.evalLow p) :
    (s.levelStep p).rd Key.thermLevel = s.rd Key.thermLevel ∧ (s.levelStep p).pm.lowCount = 0 := by
  rw [State.levelStep_of_between hhigh hlow]
  exact ⟨rfl, rfl⟩

theorem State.capNow_congr (hpart : t.part = s.part) (hsprint : t.rd Key.pwrSprint = s.rd Key.pwrSprint)
    (hcap : t.rd Key.pwrHostCapMw = s.rd Key.pwrHostCapMw)
    (hprof : ∀ n ∈ [1, 2, 3, 4], t.rd ((0x1210 + s.part * 0x10 + 0x8) * 256 + n) = s.rd ((0x1210 + s.part * 0x10 + 0x8) * 256 + n)) :
    t.capNow = s.capNow := by
  have hburst : t.rd (Key.profPowerBurst s.part) = s.rd (Key.profPowerBurst s.part) := hprof 2 (by simp)
  have hsus : t.rd (Key.profPowerSustained s.part) = s.rd (Key.profPowerSustained s.part) := hprof 1 (by simp)
  unfold State.capNow
  rw [hpart, hsprint, hcap]
  split <;> simp only [hburst, hsus]

theorem State.skin_congr (hstale : t.pm.boardStale = s.pm.boardStale) (hnum : t.pm.filtNum = s.pm.filtNum)
    (hden : t.pm.filtDen = s.pm.filtDen) (htemp : t.rd Key.thermBoardTemp = s.rd Key.thermBoardTemp)
    (hcoup : t.rd Key.thermCoupling = s.rd Key.thermCoupling) : t.skin = s.skin := by
  unfold State.skin
  rw [hstale, hnum, hden, htemp, hcoup]

theorem profile_key_kept_of_subset {ks : List Nat} (hks : ks ⊆ evalKeys ++ judgeKeys) (part n : Nat) (hn : n ∈ [1, 2, 3, 4]) :
    (0x1210 + part * 0x10 + 0x8) * 256 + n ∉ ks := fun hm => profile_key_kept part n hn (hks hm)

/-- The entries of the level and of the end of an evaluation. -/
def levelKeys : List Nat := [Key.thermLevel, Key.thermRaises, Key.pwrVsel] ++ [Key.dieTempHigh, Key.alertCause]

/-- The level's judgement, with the cap and the skin temperature as the evaluation leaves them. -/
theorem State.judged (p : Nat) (die : Int) (hwf : valsWf s.sku 0 s.dict.vals = true) :
    let t := (s.levelStep p).endEval die
    s.Governs levelKeys t ∧ t.capNow = s.capNow ∧ t.skin = s.skin ∧ (∃ n, t.pm = { s.pm with lowCount := n }) ∧
    (s.evalHigh p → t.rd Key.thermLevel =
      (if s.rd Key.thermLevel < 6 then s.rd Key.thermLevel + 1 else s.rd Key.thermLevel) ∧ t.pm.lowCount = 0) ∧
    (s.evalLow p → t.pm.lowCount = (if s.pm.lowCount + 1 < 64 then s.pm.lowCount + 1 else 0) ∧
      t.rd Key.thermLevel = (if s.pm.lowCount + 1 < 64 then s.rd Key.thermLevel else s.rd Key.thermLevel - 1)) ∧
    (¬ s.evalHigh p → ¬ s.evalLow p → t.rd Key.thermLevel = s.rd Key.thermLevel ∧ t.pm.lowCount = 0) := by
  intro t
  have h3 := s.levelStep_governs p
  obtain ⟨n, hpm3⟩ := s.levelStep_pm p
  have h4 := (s.levelStep p).endEval_governs die
  have hpm : t.pm = (s.levelStep p).pm := (s.levelStep p).endEval_pm die
  have hrd : t.rd Key.thermLevel = (s.levelStep p).rd Key.thermLevel := h4.rd (h3.wf hwf) _ (by decide)
  have h : s.Governs levelKeys t := h3.trans h4
  have hpart : t.part = s.part := h.part
  rw [hrd, hpm]
  refine ⟨h, State.capNow_congr hpart (h.rd hwf _ (by decide)) (h.rd hwf _ (by decide)) fun m hm => h.rd hwf _
      (profile_key_kept_of_subset (by decide) _ m hm), State.skin_congr (by rw [hpm, hpm3]) (by rw [hpm, hpm3])
      (by rw [hpm, hpm3]) (h.rd hwf _ (by decide)) (h.rd hwf _ (by decide)), ⟨n, hpm3⟩, State.levelStep_high hwf,
    State.levelStep_low hwf, State.levelStep_between⟩

/-- The estimates and the Sprint window, before the level is judged. -/
theorem State.recorded (p : Nat) (die : Int) (hwf : valsWf s.sku 0 s.dict.vals = true) :
    let t := (s.recordEval p die).sprintStep p
    s.Governs (evalKeys ++ [Key.pwrSprint, Key.pwrSprints]) t ∧ t.part = s.part ∧ t.pm.lowCount = s.pm.lowCount ∧
    t.pm.filtDen = s.pm.filtDen * (1024 * max 1 (s.rd Key.thermTauS)) ∧
    t.pm.filtNum = s.pm.filtNum * ((1024 * max 1 (s.rd Key.thermTauS) : Nat) - 1 : Int) + die * s.pm.filtDen ∧
    t.rd Key.pwrEstMw = min p 0xFFFFFFFF ∧ t.rd Key.thermDieMax = ofSigned 32 die ∧
    (s.rd Key.pwrSprint = 0 → t.rd Key.pwrSprint = if s.rd (Key.profPowerSustained s.part) < p ∧
      s.rd (Key.profBurstWindow s.part) ≠ 0 then 1 else 0) ∧
    (s.rd Key.pwrSprint = 1 → t.rd Key.pwrSprint =
      if p ≤ s.rd (Key.profPowerSustained s.part) ∧ 100 ≤ s.pm.sprintLow + 1 then 2 else 1) ∧
    (s.rd Key.pwrSprint = 2 → t.rd Key.pwrSprint = 2) := by
  have h1 := s.recordEval_governs p die
  obtain ⟨hest, hdie⟩ := State.recordEval_rd p die hwf
  obtain ⟨n1, hpm1⟩ := State.recordEval_pm p die hwf
  dsimp only
  generalize s.recordEval p die = u at h1 hest hdie hpm1 ⊢
  have hwf1 := h1.wf hwf
  have hpart1 : u.part = s.part := h1.part
  have h2 := u.sprintStep_governs p
  obtain ⟨n2, hpm2⟩ := u.sprintStep_pm p
  have hsprint : u.rd Key.pwrSprint = s.rd Key.pwrSprint := h1.rd hwf _ (by decide)
  have hsus : u.rd (Key.profPowerSustained u.part) =
      s.rd (Key.profPowerSustained s.part) := by
    rw [hpart1]
    exact h1.rd hwf _ (profile_key_kept_of_subset (by decide) s.part 1 (by simp))
  have hburst : u.rd (Key.profBurstWindow u.part) =
      s.rd (Key.profBurstWindow s.part) := by
    rw [hpart1]
    exact h1.rd hwf _ (profile_key_kept_of_subset (by decide) s.part 3 (by simp))
  have hlow : u.pm.sprintLow = s.pm.sprintLow := by rw [hpm1]
  have hshut := State.sprintStep_rd_of_shut (p := p) hwf1
  have hopen := State.sprintStep_rd_of_open (p := p) hwf1
  rw [hsus, hburst, hsprint] at hshut
  rw [hsus, hsprint, hlow] at hopen
  refine ⟨h1.trans h2, (h1.trans h2).part, ?_, ?_, ?_, ?_, ?_, hshut, hopen, fun h => ?_⟩
  · rw [hpm2, hpm1]
  · rw [hpm2, hpm1]
  · rw [hpm2, hpm1]
  · rw [h2.rd hwf1 _ (by decide), hest]
  · rw [h2.rd hwf1 _ (by decide), hdie]
  · rw [← hsprint] at h
    show (u.sprintStep p).rd _ = _
    rw [State.sprintStep_of_resting (by omega) (by omega), h]

theorem governorEvaluatesClause : GovernorEvaluatesClause := by
  intro s p die hinv hcore hrun
  obtain ⟨hwf, -, -⟩ := hinv
  refine ⟨_, nextOf (powerEvaluation_of_running p die hcore hrun), ?_⟩
  obtain ⟨h12, hpart, hcount, hden, hnum, hest, hdie, hshut, hopen, hrest⟩ := State.recorded p die hwf
  generalize (s.recordEval p die).sprintStep p = u at h12 hpart hcount hden hnum hest hdie hshut hopen hrest ⊢
  have hwfu := h12.wf hwf
  obtain ⟨h34, hcap, hskin, ⟨n, hpm⟩, hhigh, hlow, hbetween⟩ := State.judged p die hwfu
  generalize (u.levelStep p).endEval die = t at h34 hcap hskin hpm hhigh hlow hbetween ⊢
  have hall := h12.trans h34
  have hlim : u.rd (Key.profSkinLimit u.part) = s.rd (Key.profSkinLimit s.part) := by
    rw [hpart]
    exact h12.rd hwf _ (profile_key_kept_of_subset (by decide) _ 4 (by simp))
  have hlevel : u.rd Key.thermLevel = s.rd Key.thermLevel := h12.rd hwf _ (by decide)
  have hsprint : t.rd Key.pwrSprint = u.rd Key.pwrSprint := h34.rd hwfu _ (by decide)
  unfold State.evalHigh at hhigh hbetween
  unfold State.evalLow at hlow hbetween
  rw [hlim, ← hcap, ← hskin, hlevel] at hhigh hbetween
  rw [hlim, ← hcap, ← hskin, hlevel, hcount] at hlow
  rw [← hsprint] at hshut hopen hrest
  refine ⟨hhigh, hlow, hbetween, hshut, hopen, hrest, ?_, ?_, ?_, ?_, hall.units⟩
  · rw [hpm, hden]
  · rw [hpm, hnum]
  · rw [h34.rd hwfu _ (by decide), hest]
  · rw [h34.rd hwfu _ (by decide), hdie]

/-! ### Sprint windows and the board temperature (R845, R846, R848) -/

theorem State.maxOf_thermBoardStale (s : State) : s.maxOf Key.thermBoardStale = 0xFFFFFFFF :=
  s.maxOf_of_card fun sku => by cases sku <;> decide

/-- The card of THERM_BOARD_TEMP (R865). -/
def thermBoardCard : Card := ⟨.abs, 0x1501, 0x1501, 0, 0, .sint 4, .rw, .all, .h, .a, .hotRw, 0x190000⟩

theorem cardOf_thermBoard (sku : Sku) : cardOf sku 0x1501 0 = some thermBoardCard := by
  cases sku <;> decide

theorem exec_thermBoardTempWrite_of_write {role : Role} {st : Nat} {val : List Byte} (hs : Serving s)
    (hallowed : Allowed s role Key.thermBoardTemp val.length) (hwrite : thermBoardWrite (leNat val) s = (st, t)) :
    exec (.thermBoardTempWrite role val) s = .next (t.answer st) := by
  have hcard := cardOf_thermBoard s.sku
  refine nextOf (dictRequest_of_hotRw hs hallowed hcard rfl ?_)
  rw [serveWrite_of_open thermBoardCard _ {} false s rfl (s.recoveryBars_of_serving _ hs) rfl rfl]
  have hmember : setOfMember s.sku (writeOf role (Key.thermBoardTemp / 256) (Key.thermBoardTemp % 256) val).idx
      (writeOf role (Key.thermBoardTemp / 256) (Key.thermBoardTemp % 256) val).sub = none :=
    setOfMember_of_not_rs _ _ _ thermBoardCard hcard rfl
  unfold serveOp
  rw [hmember]
  exact hwrite

theorem sprintAndBoardClause : SprintAndBoardClause := by
  intro s hinv
  obtain ⟨hwf, -, -⟩ := hinv
  refine ⟨rfl, rfl, fun role val hs hallowed => ⟨fun hout => ?outside, fun hlo hhi => ?written⟩, fun hrun hfresh => ?stale,
    fun h => nextOf (if_pos (.inl h))⟩
  case outside => exact exec_thermBoardTempWrite_of_write hs hallowed (if_pos hout)
  case written =>
    have hin : ¬ (toSigned 32 (leNat val) < -40 * 65536 ∨ 125 * 65536 < toSigned 32 (leNat val)) := by omega
    refine ⟨_, exec_thermBoardTempWrite_of_write hs hallowed (if_neg hin), ?_, rfl, ?_, rfl⟩
    · exact (s.rd_wr _ _ _ hwf).trans (if_pos rfl)
    · exact (s.rd_wr _ _ _ hwf).trans (if_neg (by decide))
  case stale =>
    refine ⟨_, nextOf (if_neg (by simp [hrun, hfresh])), rfl, ?_, rfl⟩
    rw [State.rd_count_self _ _ _ (by exact hwf), State.maxOf_thermBoardStale]
    rfl

/-- Settles O48, clause by clause. -/
theorem powerGovernor : Obligations.PowerGovernor := ⟨governorEvaluatesClause, sprintAndBoardClause⟩

end Sys2Proof.Machine
end

section
/-! PROOFS. The lifecycle (19): LC_TRANSITION refusals and the end of the RMA scrub. -/

namespace Sys2Proof.Machine

variable {s t : State}

/-! ### Conditions of the table (R868) -/

theorem State.transitionOk_provisioned_iff (s : State) :
    s.transitionOk 1 = true ↔ s.lc = lcBlank ∧ s.serial ≠ 0 ∧ s.otpByte 0x55 ≠ 0 := by
  unfold State.transitionOk
  split <;> simp_all [lcBlank]

theorem State.transitionOk_field_iff (s : State) : s.transitionOk 2 = true ↔ s.lc = lcProvisioned ∧ s.rootReady = true := by
  unfold State.transitionOk
  split <;> simp_all [lcProvisioned]

theorem State.transitionOk_rma_iff (s : State) : s.transitionOk 3 = true ↔ s.lc = lcProvisioned ∨ s.lc = lcField := by
  unfold State.transitionOk
  split <;> simp_all [lcProvisioned, lcField]

/-! ### Refusals (R135, R868, R869) -/

/-- A ROLE answer is counted (R125). -/
theorem dictRequest_of_cold_role {role : Role} {idx sub : Nat} {data : List Byte} {env : Env} {c : Card}
    (ha : s.Attends) (hshape : s.shapeFail (some role) true idx sub data.length = none)
    (hcard : cardOf s.sku idx sub = some c) (hresp : c.resp = .cold)
    (hserve : serveWrite c (writeOf role idx sub data) env false s = (DS.role, t)) :
    dictRequest role idx sub data env s = (t.count Key.dictRole).answer DS.role := by
  rw [dictRequest, if_neg (by simp [ha.dictUp]), State.intake_of_cold s role idx sub data c hshape hcard hresp]
  dsimp only
  rw [if_pos ⟨ha.noneHeld, ha.mcServes⟩]
  simp [hcard, ha.wakeDemand, serve_writeOf, hserve, State.noteStatus]

theorem dictRequest_lcTransition_role {role : Role} {arg : List Byte} {env : Env} (hs : Serving s)
    (hallowed : Allowed s role Key.lcTransition arg.length)
    (hwrite : lcTransitionWrite (isFactory role) arg env s = (DS.role, s)) :
    dictRequest role 0x1101 0 arg env s = (s.count Key.dictRole).answer DS.role := by
  have hcard := cardOf_keyCommand s.sku (0x1101, 8, 2) (by decide)
  refine dictRequest_of_cold_role (s.attends_of_serving hs) hallowed hcard rfl ?_
  rw [serveWrite_of_open _ (writeOf role 0x1101 0 arg) env false s rfl (s.recoveryBars_of_serving _ hs) rfl rfl,
    serveOp_low _ (writeOf role 0x1101 0 arg) env false s (.inl (show 0x1101 < 0x1210 by decide)) hcard rfl]
  exact hwrite

/-- Where ROLE does not apply, the refusals come in R135's order. -/
theorem dictRequest_lcTransition_refuses {role : Role} {arg : List Byte} (env : Env) {fits : Prop} (hs : Serving s)
    (hallowed : Allowed s role Key.lcTransition arg.length)
    (hrole : ¬ (¬ isFactory role = true ∧ s.lc = lcBlank ∧ fieldLe arg 0 1 = lcProvisioned))
    (hok : s.transitionOk (fieldLe arg 0 1) = true ↔ fits) :
    (fieldLe arg 4 4 ≠ 0x4C437019 → dictRequest role 0x1101 0 arg env s = s.answer DS.range) ∧
    (fieldLe arg 4 4 = 0x4C437019 → ¬ fits → dictRequest role 0x1101 0 arg env s = s.answer DS.state) ∧
    (fieldLe arg 4 4 = 0x4C437019 → fits → fieldLe arg 1 3 ≠ 0 → dictRequest role 0x1101 0 arg env s = s.answer DS.range) := by
  refine ⟨fun hbad => ?_, fun hgood hnot => ?_, fun hgood hfits hset => ?_⟩ <;>
    refine dictRequest_lcTransition hs hallowed ?_ (by decide) <;> unfold lcTransitionWrite
  · exact (if_neg hrole).trans (if_pos hbad)
  · exact (if_neg hrole).trans ((if_neg (not_not.2 hgood)).trans (if_pos fun h => hnot (hok.1 h)))
  · exact (if_neg hrole).trans ((if_neg (not_not.2 hgood)).trans ((if_neg (not_not.2 (hok.2 hfits))).trans (if_pos hset)))

theorem lifecycleRefusesClause : LifecycleRefusesClause := by
  intro s role arg env hs hinv hallowed confirm refuses
  refine ⟨fun htarget hblank hhost => ?role, fun htarget hright => ?provisioned, fun htarget => ?field, fun htarget => ?rma⟩
  case role =>
    have hwrite : lcTransitionWrite (isFactory role) arg env s = (DS.role, s) := if_pos ⟨by simp [hhost], hblank, htarget⟩
    rw [exec_lcToProvisioned role env s htarget, dictRequest_lcTransition_role hs hallowed hwrite]
  case provisioned =>
    have hrefuse := dictRequest_lcTransition_refuses env hs hallowed
      (fun h => hright.elim (fun hlc => hlc h.2.1) fun hfactory => h.1 hfactory) (htarget ▸ s.transitionOk_provisioned_iff)
    have hexec := exec_lcToProvisioned role env s htarget
    exact ⟨fun h => hexec.trans (nextOf (hrefuse.1 h)), fun h h' => hexec.trans (nextOf (hrefuse.2.1 h h')),
      fun h h' h'' => hexec.trans (nextOf (hrefuse.2.2 h h' h''))⟩
  case field =>
    have hrefuse := dictRequest_lcTransition_refuses {} hs hallowed
      (fun h => absurd (htarget.symm.trans h.2.2) (by decide)) (htarget ▸ s.transitionOk_field_iff)
    have hexec := exec_lcToField role s htarget
    exact ⟨fun h => hexec.trans (nextOf (hrefuse.1 h)), fun h h' => hexec.trans (nextOf (hrefuse.2.1 h h')),
      fun h h' h'' => hexec.trans (nextOf (hrefuse.2.2 h h' h''))⟩
  case rma =>
    have hrefuse := dictRequest_lcTransition_refuses {} hs hallowed
      (fun h => absurd (htarget.symm.trans h.2.2) (by decide)) (htarget ▸ s.transitionOk_rma_iff)
    have hexec := exec_lcToRma role s htarget
    exact ⟨fun h => hexec.trans (nextOf (hrefuse.1 h)), fun h h' => hexec.trans (nextOf (hrefuse.2.1 h h')),
      fun h h' h'' => hexec.trans (nextOf (hrefuse.2.2 h h' h''))⟩

/-! ### The end of the scrub (R872 to R874) -/

theorem State.leaf_zeroAllTiers (s : State) (p : Place) (n : Nat) : s.zeroAllTiers.leaf p n = [] := by
  cases p with
  | slice b =>
    have hget : (Vector.replicate 8 ([] : Mem)).get b = [] := Vector.getElem_replicate ..
    show Mem.leaf ((Vector.replicate 8 ([] : Mem)).get b) n = []
    rw [hget]
    rfl
  | commons => rfl
  | t2 => rfl

theorem State.endTransition_cmd (s : State) (a b : Nat) : (s.endTransition a b).cmd Key.lcTransition =
    { state := .done, result := DS.ok, runs := (s.cmd Key.lcTransition).runs + 1, card := natLe 1 a ++ natLe 1 b } :=
  State.cmdDone_cmd { s with sec := { s.sec with lcHeld := none } } Key.lcTransition DS.ok (natLe 1 a ++ natLe 1 b)

/-- The scrub's job ends: T1 and T2 are zeroed, the record is written, the run ends. -/
theorem zeroingJobDone_of_scrub {old : Nat} (hcore : s.coreOn = true)
    (hjobs : s.tiers.jobs = [{ extents := [], purpose := .scrub }]) (hheld : s.sec.lcHeld = some old) :
    zeroingJobDone s = ((s.setTiers { s.tiers with jobs := [] }).zeroAllTiers.scrubbed 7).endTransition old lcRma := by
  have hold : s.sec.lcHeld.getD lcRma = old := by rw [hheld]; rfl
  rw [← hold]
  unfold zeroingJobDone
  rw [hjobs]
  exact if_neg (not_not.2 hcore)

theorem scrubEndsClause : ScrubEndsClause := by
  intro s old hinv hcore hjobs hheld hrow
  have hleaf := State.leaf_zeroAllTiers (s.setTiers { s.tiers with jobs := [] })
  refine ⟨_, nextOf (zeroingJobDone_of_scrub hcore hjobs hheld), ?_⟩
  have hotp : ((s.setTiers { s.tiers with jobs := [] }).zeroAllTiers.scrubbed 7).nv.otp = s.nv.otp := rfl
  have hout : ((s.setTiers { s.tiers with jobs := [] }).zeroAllTiers.scrubbed 7).out = s.out := rfl
  have hquires : ((s.setTiers { s.tiers with jobs := [] }).zeroAllTiers.scrubbed 7).quires = s.quires := rfl
  have hscrub : ((s.setTiers { s.tiers with jobs := [] }).zeroAllTiers.scrubbed 7).sec.scrub = some 7 := rfl
  have hleaf' : ∀ p n, ((s.setTiers { s.tiers with jobs := [] }).zeroAllTiers.scrubbed 7).leaf p n = [] := hleaf
  generalize (s.setTiers { s.tiers with jobs := [] }).zeroAllTiers.scrubbed 7 = u at *
  have hcmd := u.endTransition_cmd old lcRma
  have hnv : (u.endTransition old lcRma).nv.otp = s.nv.otp := hotp
  have hlc : (u.endTransition old lcRma).lc = (u.endTransition old lcRma).lcRow := rfl
  have hrow' : (u.endTransition old lcRma).lcRow = s.lcRow := by
    unfold State.lcRow State.otpByte
    rw [hnv]
  have hnow : (u.endTransition old lcRma).scrubNow = u.scrubNow := rfl
  refine ⟨by rw [hlc, hrow', hrow], ?_, hleaf', by rw [hcmd], by rw [hcmd], by rw [hcmd], rfl, hnv, hquires, hout⟩
  rw [hnow, State.scrubNow, hscrub]
  rfl

/-- Settles O50, clause by clause. -/
theorem lifecycleTransitions : Obligations.LifecycleTransitions := ⟨lifecycleRefusesClause, scrubEndsClause⟩

end Sys2Proof.Machine
end

section
/-! PROOFS. The shell of the machine (02, 05): pins, boot, clocks, link function and power requests, which the reset of
every quire leaves. -/

namespace Sys2Proof.Machine

/-- The blocks of the commands that the reset of a quire may end: Q_DISABLE and the press submissions. -/
def endsWithReset (k : Nat) : Bool :=
  k / 256 == 0x1610 || k / 256 == 0x1611 || (decide (0x2000 ≤ k / 256 ∧ k / 256 < 0x2800) && k / 256 % 256 == 2)

/-- What of the machine is neither memory, nor dictionary, nor a working unit, with the blocks of the commands
that no reset of a quire ends. -/
structure Shell where
  pins : Pins
  boot : BootPhase
  clk : Clocks
  jtag : Jtag
  fn : PcieFn
  pm : Power
  part : Nat
  switch : Option Switch
  wdt : Wdt
  sec : Security
  i3c : I3c
  rtc : BitVec 64
  cmds : Nat → CmdBlock

def State.shell (s : State) : Shell :=
  ⟨s.pins, s.boot, s.clk, s.jtag, s.fn, s.pm, s.part, s.switch, s.wdt, s.sec, s.i3c, s.rtc,
    fun k => if endsWithReset k then CmdBlock.never else s.cmd k⟩

/-- `t` has the shell of `s`. -/
structure State.ShellKept (s t : State) : Prop where
  shell : t.shell = s.shell

namespace State.ShellKept

variable {s t u : State}

theorem refl (s : State) : s.ShellKept s := ⟨rfl⟩

theorem trans (h : s.ShellKept t) (h' : t.ShellKept u) : s.ShellKept u := ⟨h'.shell.trans h.shell⟩

theorem pins (h : s.ShellKept t) : t.pins = s.pins := congrArg Shell.pins h.shell
theorem boot (h : s.ShellKept t) : t.boot = s.boot := congrArg Shell.boot h.shell
theorem clk (h : s.ShellKept t) : t.clk = s.clk := congrArg Shell.clk h.shell
theorem jtag (h : s.ShellKept t) : t.jtag = s.jtag := congrArg Shell.jtag h.shell
theorem fn (h : s.ShellKept t) : t.fn = s.fn := congrArg Shell.fn h.shell
theorem pm (h : s.ShellKept t) : t.pm = s.pm := congrArg Shell.pm h.shell
theorem part (h : s.ShellKept t) : t.part = s.part := congrArg Shell.part h.shell
theorem switch (h : s.ShellKept t) : t.switch = s.switch := congrArg Shell.switch h.shell
theorem wdt (h : s.ShellKept t) : t.wdt = s.wdt := congrArg Shell.wdt h.shell
theorem sec (h : s.ShellKept t) : t.sec = s.sec := congrArg Shell.sec h.shell
theorem i3c (h : s.ShellKept t) : t.i3c = s.i3c := congrArg Shell.i3c h.shell
theorem rtc (h : s.ShellKept t) : t.rtc = s.rtc := congrArg Shell.rtc h.shell

theorem cmd (h : s.ShellKept t) {k : Nat} (hk : endsWithReset k = false) : t.cmd k = s.cmd k := by
  have hcmds : (if endsWithReset k then CmdBlock.never else t.cmd k) = if endsWithReset k then CmdBlock.never else s.cmd k :=
    congrFun (congrArg Shell.cmds h.shell) k
  simpa [hk] using hcmds

theorem foldl {α : Type} {f : State → α → State} {l : List α} (h : s.ShellKept t)
    (hf : ∀ (u : State) (a : α), u.ShellKept (f u a)) : s.ShellKept (l.foldl f t) :=
  List.foldlRecOn l f h fun u hu a _ => hu.trans (hf u a)

theorem ite {c : Prop} [Decidable c] (ht : s.ShellKept t) (hu : s.ShellKept u) : s.ShellKept (if c then t else u) := by
  split
  · exact ht
  · exact hu

section
variable (h : s.ShellKept t)
include h

theorem setNv {n : Nv} : s.ShellKept (t.setNv n) := ⟨h.shell⟩
theorem setLib {e : Nat} {x : LibEntry} : s.ShellKept (t.setLib e x) := ⟨h.shell⟩
theorem setTiers {x : Tiers} : s.ShellKept (t.setTiers x) := ⟨h.shell⟩
theorem setWeave {x : Weave} : s.ShellKept (t.setWeave x) := ⟨h.shell⟩
theorem setSt {x : StitchUnit} : s.ShellKept (t.setSt x) := ⟨h.shell⟩
theorem modBay {b : BayNum} {f : Bay → Bay} : s.ShellKept (t.modBay b f) := ⟨h.shell⟩
theorem wr {k v : Nat} : s.ShellKept (t.wr k v) := ⟨h.shell⟩
theorem count {k n : Nat} : s.ShellKept (t.count k n) := ⟨h.shell⟩
theorem emit {o : Output} : s.ShellKept (t.emit o) := ⟨h.shell⟩
theorem fresh : s.ShellKept t.fresh.2 := ⟨h.shell⟩
theorem setQuire {q : QNum} {x : Quire} : s.ShellKept (t.setQuire q x) := ⟨h.shell⟩
theorem modQuire {q : QNum} {f : Quire → Quire} : s.ShellKept (t.modQuire q f) := ⟨h.shell⟩

theorem cmdDone {k result : Nat} {card : List Byte} (hk : endsWithReset k = true) :
    s.ShellKept (t.cmdDone k result card) := by
  have hcmds : (fun j => if endsWithReset j then CmdBlock.never else (t.cmdDone k result card).cmd j) =
      fun j => if endsWithReset j then CmdBlock.never else t.cmd j := by
    funext j
    by_cases hj : j = k
    · subst hj
      simp [hk]
    · rw [State.cmdDone_cmd_ne t hj]
  have hshell : (t.cmdDone k result card).shell = t.shell := by
    show Shell.mk .. = Shell.mk ..
    rw [hcmds]
    rfl
  exact ⟨hshell.trans h.shell⟩

theorem wrs {l : List (Nat × Nat)} : s.ShellKept (t.wrs l) := .foldl h fun _ _ => ⟨rfl⟩

theorem msixSend {v : Nat} : s.ShellKept (t.msixSend v) := by
  obtain ⟨out, msix, hsent⟩ := t.msixSend_eq v
  rw [hsent]
  exact ⟨h.shell⟩

end

end State.ShellKept

/-! ### The end of a quire's runs (R535, R559) -/

theorem State.setLeaf_shellKept (s : State) (p : Place) (n : Nat) (f : Mem) : s.ShellKept (s.setLeaf p n f) := by
  cases p <;> exact ⟨rfl⟩

theorem State.leaveFrame_shellKept (s : State) (q : QNum) (addr : Nat) (f : Mem) (xo : Bool) :
    s.ShellKept (s.leaveFrame q addr f xo) := by
  unfold State.leaveFrame
  split
  · split
    · exact (s.setLeaf_shellKept _ _ _).setTiers
    · exact .emit (.refl s)
    · exact .refl s
  · exact .refl s

theorem State.voidLeaf_shellKept (s : State) (q : QNum) (addr : Nat) : s.ShellKept (s.voidLeaf q addr) := by
  unfold State.voidLeaf
  split
  · split
    · exact (s.setLeaf_shellKept _ _ _).setTiers
    · exact .refl s
  · exact .refl s

theorem State.dropUnsensed_shellKept (s : State) (q : QNum) (run sc : Nat) : s.ShellKept (s.dropUnsensed q run sc) := by
  refine .count (.foldl (.setWeave (.refl s)) fun t r => ?_)
  split
  · exact .modBay (.refl t)
  · exact .refl t

theorem State.modRun_shellKept (s : State) (q : QNum) (id : Nat) (f : Run → Run) : s.ShellKept (s.modRun q id f) :=
  .modQuire (.refl s)

theorem State.countClose_shellKept (s : State) (q : QNum) (run : Nat) (sc : Scope) (committed : Bool) :
    s.ShellKept (s.countClose q run sc committed) := by
  have hrun := s.modRun_shellKept q run fun r =>
    { r with specLeaves := (specSettle sc.id committed (((s.run q run).map Run.specLeaves).getD [])).2 }
  exact .ite hrun.count.count.count.count hrun.count.count.count.count

theorem State.absorbSignals_shellKept (s : State) (ns : List Nat) : s.ShellKept (s.absorbSignals ns) := by
  refine .foldl (.setSt (.refl s)) fun t p => ?_
  split
  · exact .count (.refl t)
  · exact .refl t

theorem State.cancelScope_shellKept (s : State) (q : QNum) (r : Run) (sc : Scope) : s.ShellKept (s.cancelScope q r sc) := by
  refine State.ShellKept.trans ?_ (State.countClose_shellKept _ q r.id sc false)
  refine .foldl (.trans ?_ (State.absorbSignals_shellKept _ _)) fun t n => .setSt (.refl t)
  refine State.ShellKept.trans ?_ (State.modRun_shellKept _ q r.id _)
  refine .foldl (.foldl (s.dropUnsensed_shellKept q r.id sc.id) fun t b => .modBay (.refl t)) fun t e => ?_
  exact t.voidLeaf_shellKept q e.1

theorem State.cancelScopes_shellKept (s : State) (q : QNum) : s.ShellKept (s.cancelScopes q) :=
  .foldl (.refl s) fun t _ => .trans (.foldl (.refl t) fun u c => u.cancelScope_shellKept q _ c) (State.modRun_shellKept _ q _ _)

theorem State.flushMoves_shellKept (s : State) (q : QNum) (b : BayNum) : s.ShellKept (s.flushMoves q b) := by
  unfold State.flushMoves
  refine .modBay (.foldl (.refl s) fun t m => ?_)
  exact t.leaveFrame_shellKept q m.addr m.frame m.xo

theorem State.endBayRun_shellKept (s : State) (q : QNum) (b : BayNum) : s.ShellKept (s.endBayRun q b) := by
  unfold State.endBayRun
  split
  · exact .ite (s.flushMoves_shellKept q b).modBay (.refl s)
  · exact .refl s

theorem State.endRuns_shellKept (s : State) (q : QNum) : s.ShellKept (s.endRuns q) := by
  rw [State.endRuns_eq]
  refine .foldl (.setNv (.modQuire (s.cancelScopes_shellKept q))) fun t b => ?_
  exact t.endBayRun_shellKept q b

/-! ### The press after a READ_RUN that a reset stops (R601, R616) -/

theorem State.takeSectors_shellKept (s : State) (x : PressOp) : s.ShellKept (s.takeSectors x) :=
  .setNv (.foldl (.refl s) fun t _ => .setNv (.refl t))

theorem State.queueMove_shellKept (s : State) (g b : Nat) (kind : MoveKind) : s.ShellKept (s.queueMove g b kind) :=
  .ite (.refl s) (.setNv (.refl s))

theorem State.startPress_shellKept (s : State) (x : PressOp) : s.ShellKept (s.startPress x) := by
  have hset : s.ShellKept (s.setOp { x with running := true }) := .setNv (.refl s)
  refine .ite (.setNv (.setNv hset)) (.ite (hset.trans (State.takeSectors_shellKept _ _))
    (.ite (.foldl hset fun t k => ?_) (.ite ?_ hset)))
  · split
    · exact .setWeave (.refl t)
    · exact .refl t
  · exact .setNv (hset.trans (State.queueMove_shellKept _ _ _ _))

theorem State.serveRing_shellKept (s : State) : s.ShellKept s.serveRing := by
  have hfirst : s.ShellKept (s.nv.press.foldl
      (fun s x => if x.running ∧ x.isAuxOp = true ∧ x.under = [] then s.takeSectors x else s) s) :=
    .foldl (.refl s) fun t x => .ite (t.takeSectors_shellKept x) (.refl t)
  refine List.foldlRecOn (motive := fun p : State × List PressSource => s.ShellKept p.1) _ _ hfirst fun p hp x _ => ?_
  split
  · exact hp
  · split
    · exact hp
    · split
      · exact hp.trans (p.1.startPress_shellKept x)
      · exact hp

theorem endsWithReset_of_submit (src : PressSource) {k : Nat} (h : submitKey src = some k) : endsWithReset k = true := by
  cases src with
  | host =>
    cases h
    rfl
  | factory =>
    cases h
    rfl
  | quire q =>
    cases h
    revert q
    decide
  | translation | loader | training | firmware => cases h

theorem State.pressDone_shellKept (s : State) (x : PressOp) (status done detail us : Nat) :
    s.ShellKept (s.pressDone x status done detail us false) := by
  refine State.ShellKept.trans ?_ (State.serveRing_shellKept _)
  have hdrop : s.ShellKept (dropOp s x.id) := .setNv (.refl s)
  have hunits : s.ShellKept ((dropOp s x.id).unitsEnd x) :=
    .foldl (.ite (.setNv (.setNv hdrop)) hdrop) fun t _ => .setNv (.refl t)
  show s.ShellKept (State.pressAnswer _ _ _)
  unfold State.pressAnswer
  split
  · next k hk => exact hunits.cmdDone (endsWithReset_of_submit _ hk)
  · exact hunits.emit

theorem State.abortRuns_shellKept (s : State) (q : QNum) : s.ShellKept (s.abortRuns q) := by
  unfold State.abortRuns
  split
  · exact .trans (.setWeave (.refl s)) (State.pressDone_shellKept _ _ _ _ _ _)
  · exact .refl s

/-! ### Loads and training commits that a reset stops (R742, R789) -/

theorem State.wearCheck_shellKept (s : State) (g k : Nat) : s.ShellKept (s.wearCheck g k) := by
  unfold State.wearCheck
  dsimp only
  split
  · exact .refl s
  · split
    · exact s.queueMove_shellKept g _ _
    · exact .refl s

theorem State.setBlock_shellKept (s : State) (g k n : Nat) (x : BlockRec) : s.ShellKept (s.setBlock g k n x) :=
  .setNv (.refl s)

theorem State.eraseBlockAt_shellKept (s : State) (g k n : Nat) : s.ShellKept (s.eraseBlockAt g k n) :=
  .trans (.setNv (.setNv (s.setBlock_shellKept g k n _))) (State.wearCheck_shellKept _ g k)

theorem State.haveErased_shellKept (s : State) (g k : Nat) : s.ShellKept (s.haveErased g k) := by
  refine .ite ?_ (.refl s)
  split
  · exact s.eraseBlockAt_shellKept g k _
  · exact .refl s

theorem State.takeBlock_shellKept (s : State) (g k : Nat) : s.ShellKept (s.takeBlock g k).2 := by
  rw [State.takeBlock_eq]
  split
  · exact (s.haveErased_shellKept g k).trans (State.setBlock_shellKept _ _ _ _ _)
  · exact s.haveErased_shellKept g k

theorem State.openBand_shellKept (s : State) (g b : Nat) : s.ShellKept (s.openBand g b) := by
  refine .foldl (.refl s) fun t k => ?_
  have htaken := t.takeBlock_shellKept g k
  split
  · next h =>
    rw [h] at htaken
    exact htaken.setNv
  · next h =>
    rw [h] at htaken
    exact htaken

theorem State.programRow_shellKept (s : State) (g : Nat) (frames : Mem) : s.ShellKept (s.programRow g frames).2 := by
  unfold State.programRow
  split
  · exact .refl s
  · next r _ =>
    have hopen : s.ShellKept (if (s.bandOf g (r / 512)).used = 0 then s.openBand g (r / 512) else s) :=
      .ite (s.openBand_shellKept g _) (.refl s)
    exact .count (.foldl (hopen.setNv) fun t _ => .setNv (.refl t))

theorem State.programFirst_shellKept (s : State) (e n : Nat) (frames : Mem) : s.ShellKept (s.programFirst e n frames) := by
  refine .foldl (.refl s) fun t k => ?_
  split
  · next g _ =>
    have hrow := t.programRow_shellKept g (Mem.slice frames (32 * k * leafBytes) (32 * leafBytes))
    split
    · next h =>
      rw [h] at hrow
      exact hrow.setLib
    · next h =>
      rw [h] at hrow
      exact hrow
  · exact .refl t

theorem State.dropAperture_shellKept (s : State) (e : Nat) : s.ShellKept (s.dropAperture e) :=
  .foldl (.setWeave (.refl s)) fun t _ => .emit (.wrs (.count (.refl t)))

theorem State.dirtyBlock_shellKept (s : State) (g k n : Nat) : s.ShellKept (s.dirtyBlock g k n) :=
  .setNv (s.setBlock_shellKept g k n _)

theorem State.closeBands_shellKept (s : State) : s.ShellKept s.closeBands := by
  refine .foldl (.refl s) fun t g => .foldl (.refl t) fun u b => .ite ?_ (.refl u)
  refine .setNv (.foldl (.foldl (.setNv (.refl u)) fun v d => ?_) fun v k => ?_)
  · exact .foldl (.refl v) fun w k => w.dirtyBlock_shellKept g k _
  · exact v.dirtyBlock_shellKept g k _

theorem State.clearLeaves_shellKept (s : State) (p : Place) (n count : Nat) : s.ShellKept (s.clearLeaves p n count) := by
  cases p <;> exact ⟨rfl⟩

theorem State.dropCopies_shellKept (s : State) (f : PoolCopy → Bool) : s.ShellKept (s.dropCopies f) :=
  .setTiers (.foldl (.refl s) fun t _ => (t.clearLeaves_shellKept _ _ _).setTiers)

theorem State.emptyEntry_shellKept (s : State) (e : Nat) : s.ShellKept (s.emptyEntry e) := by
  refine State.ShellKept.trans ?_ (State.dropCopies_shellKept _ _)
  refine State.ShellKept.trans ?_ (State.closeBands_shellKept _)
  exact .trans (.setNv (.setLib (.refl s))) (State.dropAperture_shellKept _ e)

theorem State.cleanLoad_shellKept (s : State) (l : Load) : s.ShellKept (s.cleanLoad l) := by
  unfold State.cleanLoad
  split
  · exact s.emptyEntry_shellKept _
  · exact .refl s

theorem State.stopLoad_shellKept (s : State) (l : Load) : s.ShellKept (s.stopLoad l).2 := by
  unfold State.stopLoad
  split
  · exact .refl s
  · refine .trans (.trans ?_ (State.programFirst_shellKept _ _ _ _)) (State.cleanLoad_shellKept _ l)
    split
    · exact .refl s
    · exact .fresh (.refl s)

theorem State.stopLoads_shellKept (s : State) (q : QNum) : s.ShellKept (s.stopLoads q) :=
  .foldl (.refl s) fun t l => .setNv (t.stopLoad_shellKept l)

theorem State.trainDrop_shellKept (s : State) (q : QNum) (t : Train) : s.ShellKept (s.trainDrop q t) := by
  unfold State.trainDrop
  refine .modQuire (.trans ?_ (State.emptyEntry_shellKept _ _))
  split
  · exact .trans (.fresh (.refl s)) (State.programFirst_shellKept _ _ _ _)
  · exact .refl s

theorem State.stopTrain_shellKept (s : State) (q : QNum) : s.ShellKept (s.stopTrain q) := by
  unfold State.stopTrain
  split
  · exact .count (.wrs (.trans (.fresh (.refl s)) (State.trainDrop_shellKept _ q _)))
  · exact .refl s

/-! ### A quire stops for its reset (R304, steps 1 and 2) -/

theorem State.stopQuire_shellKept (s : State) (q : QNum) : s.ShellKept (s.stopQuire q) := by
  obtain ⟨bays, h⟩ := s.stopQuire_eq q
  rw [h]
  exact ⟨rfl⟩

theorem State.sentAbandon_shellKept (s : State) : s.ShellKept s.sentAbandon := by
  obtain ⟨x, h | h⟩ := s.sentAbandon_eq <;> rw [h] <;> exact ⟨rfl⟩

theorem endsWithReset_qDisable (q : QNum) : endsWithReset (Key.qDisable q) = true := by
  revert q
  decide

theorem State.overtakeDisable_shellKept (s : State) (q : QNum) (d : Option Disabling) :
    s.ShellKept (s.overtakeDisable q d) :=
  .ite (.msixSend (.cmdDone (.refl s) (endsWithReset_qDisable q))) (.refl s)

theorem State.endWork_shellKept (s : State) (q : QNum) : s.ShellKept (s.endWork q) := by
  have hstopped : s.ShellKept (((s.endRuns q).stopQuire q).endLending q) :=
    .setWeave ((s.endRuns_shellKept q).trans (State.stopQuire_shellKept _ q))
  have hended := (((hstopped.trans (State.overtakeDisable_shellKept _ q (s.quire q).disabling)).trans
    (State.abortRuns_shellKept _ q)).trans (State.stopLoads_shellKept _ q)).trans (State.stopTrain_shellKept _ q)
  exact .ite (hended.trans (State.sentAbandon_shellKept _)) hended

theorem State.stopForReset_shellKept (s : State) (q : QNum) : s.ShellKept (s.stopForReset q) := by
  rw [State.stopForReset_eq]
  exact .ite (.refl s) (.modQuire (s.endWork_shellKept q))

/-! ### The stitches of a quire are released (R351) -/

theorem State.writeCq_shellKept (s : State) (q : QNum) (c : Completion) : s.ShellKept (s.writeCq q c) := by
  have hset : s.ShellKept (s.setQuire q { s.quire q with
      cqTail := ((s.quire q).cqTail + 1) % s.rd (Key.qCqSize q),
      phase := if ((s.quire q).cqTail + 1) % s.rd (Key.qCqSize q) = 0 then !(s.quire q).phase else (s.quire q).phase,
      ctrCompleted := (s.quire q).ctrCompleted + 1 }) := .setQuire (.refl s)
  unfold State.writeCq
  refine .ite (.msixSend ?_) ?_ <;> exact .ite (.setSt (.emit (.ite hset.setTiers hset))) (.emit (.ite hset.setTiers hset))

theorem State.complete_shellKept (s : State) (q : QNum) (e : Entry) (status detail result : Nat) :
    s.ShellKept (s.complete q e status detail result) :=
  .ite (.refl s) (.ite (.setQuire (.refl s)) (s.writeCq_shellKept q _))

theorem State.gateBays_shellKept (s : State) (q : QNum) : s.ShellKept (s.gateBays q) := by
  obtain ⟨bays, power, h⟩ := s.gateBays_eq q
  rw [h]
  exact ⟨rfl⟩

theorem State.tryRelease_shellKept (s : State) (q : QNum) : s.ShellKept (s.tryRelease q) := by
  unfold State.tryRelease
  dsimp only
  split
  · have hset : s.ShellKept (s.setQuire q { s.quire q with pwr := .release }) := .setQuire (.refl s)
    exact hset.trans (State.gateBays_shellKept _ q)
  · exact .refl s

theorem State.settleQuire_shellKept (s : State) (q : QNum) : s.ShellKept (s.settleQuire q) := by
  have hidle : s.ShellKept (if (s.quire q).state = .running ∧ (s.quire q).started = [] then
      s.setQuire q { s.quire q with state := .enabled } else s) := .ite (.setQuire (.refl s)) (.refl s)
  exact hidle.trans (State.tryRelease_shellKept _ q)

theorem State.finish_shellKept (s : State) (q : QNum) (e : Entry) (status detail result : Nat) :
    s.ShellKept (s.finish q e status detail result) :=
  .trans (.trans (.modQuire (.refl s)) (State.complete_shellKept _ q e _ _ _)) (State.settleQuire_shellKept _ q)

theorem State.countWait_shellKept (s : State) (q : QNum) (o : Outcome) : s.ShellKept (s.countWait q o) := by
  cases o <;> exact ⟨rfl⟩

theorem State.noteWait_shellKept (s : State) (b : BayNum) : s.ShellKept (s.noteWait b) := by
  unfold State.noteWait
  split
  · split
    · exact .ite (s.modRun_shellKept _ _ _) (.refl s)
    · exact .refl s
  · exact .refl s

theorem State.endWait_shellKept (s : State) (h : Held) (o : Outcome) (count : Nat) : s.ShellKept (s.endWait h o count) := by
  have hcounted := s.countWait_shellKept h.quire o
  unfold State.endWait
  dsimp only
  split
  · exact hcounted.modBay.trans (State.noteWait_shellKept _ _)
  · split
    · exact hcounted.trans (State.finish_shellKept _ _ _ _ _ _)
    · exact hcounted

theorem State.stageOne_shellKept (s : State) (signals poisons aborts : List (Nat × Nat)) (n : Nat) :
    s.ShellKept (s.stageOne signals poisons aborts n) := by
  unfold State.stageOne
  split
  · exact .refl s
  · refine .foldl (.setSt ?_) fun t p => t.endWait_shellKept p.1 p.2 _
    exact .ite (.refl s) (.ite (.count (.refl s)) (.count (.refl s)))

theorem State.releaseStitches_shellKept (s : State) (q : QNum) (all : Bool) : s.ShellKept (s.releaseStitches q all) :=
  .setSt (.foldl (.setSt (.setSt (.refl s))) fun t n => t.stageOne_shellKept _ _ _ n)

/-! ### A quire's allocation, handles and leaves go (R304, steps 3 and 4) -/

theorem State.defaultAlloc_shellKept (s : State) (q : QNum) (all : Bool) : s.ShellKept (s.defaultAlloc q all) := .wrs (.refl s)

theorem State.zeroJob_shellKept (s : State) (q : QNum) (run : Bool) (pieces : List (Place × Nat × Nat)) (purpose : ZeroFor) :
    s.ShellKept (s.zeroJob q run pieces purpose) := by
  have hcut : s.ShellKept (pieces.foldl (fun s p => s.cut p.1 p.2.1 p.2.2 Use.taken) s) :=
    .foldl (.refl s) fun t _ => .setTiers (.refl t)
  exact .ite hcut hcut.setTiers

theorem State.dropMbox_shellKept (s : State) (i : Fin 9) : s.ShellKept (s.dropMbox i) := ⟨rfl⟩

theorem State.releaseForReset_shellKept (s : State) (q : QNum) (all : Bool) : s.ShellKept (s.releaseForReset q all) := by
  have halloc : s.ShellKept (((s.releaseStitches q all).defaultAlloc q all).dropHandles q) :=
    .foldl ((s.releaseStitches_shellKept q all).trans (State.defaultAlloc_shellKept _ q all)) fun t _ => .wrs (.refl t)
  have hqueues : s.ShellKept (((((s.releaseStitches q all).defaultAlloc q all).dropHandles q).dropMbox
      (Fin.castSucc q)).dropQueues q) := .setWeave (halloc.trans (State.dropMbox_shellKept _ (Fin.castSucc q)))
  exact .trans (.modQuire hqueues.setTiers) (State.zeroJob_shellKept _ q false _ _)

/-! ### Every quire at once (R220, R351) -/

theorem State.resetQuires_shellKept (s : State) : s.ShellKept s.resetQuires :=
  .foldl (.foldl (.refl s) State.stopForReset_shellKept) fun t q =>
    .ite (t.defaultAlloc_shellKept q true) (t.releaseForReset_shellKept q true)

end Sys2Proof.Machine
end

section
/-! PROOFS. The PCIe link and clock events (02, 04, 05, 18, 20): PERST_N, FLR, clock loss, controller wake, bay retest, link
power. -/

namespace Sys2Proof.Machine

variable {s t u : State}

/-! ### The reset of the control plane (R220) -/

/-- Every mailbox is idle, its pending request discarded. -/
def State.dropMboxes (s : State) : State := [0, 1, 2, 3, 4, 5, 6, 7, 8].foldl (fun s i => s.dropMbox i) s

theorem State.dropMboxes_mboxes (s : State) : s.dropMboxes.mboxes = Vector.replicate 9 Mbox.reset := by
  have hset : s.dropMboxes.mboxes = [0, 1, 2, 3, 4, 5, 6, 7, 8].foldl
      (fun (v : Vector Mbox 9) (i : Fin 9) => v.set i.val Mbox.reset i.isLt) s.mboxes := rfl
  rw [hset]
  ext i hi
  interval_cases i <;> simp

theorem State.dropMboxes_facts (s : State) : s.dropMboxes.pins = s.pins ∧ s.dropMboxes.boot = s.boot ∧
    s.dropMboxes.fn = s.fn ∧ s.dropMboxes.quires = s.quires ∧ s.dropMboxes.tiers = s.tiers :=
  List.foldlRecOn (motive := fun t : State => t.pins = s.pins ∧ t.boot = s.boot ∧ t.fn = s.fn ∧ t.quires = s.quires ∧
    t.tiers = s.tiers) _ _ ⟨rfl, rfl, rfl, rfl, rfl⟩ fun _ h _ _ => h

/-- A list of register writes changes the register file alone. -/
theorem State.wrs_eq (l : List (Nat × Nat)) (s : State) : ∃ d, s.wrs l = s.setDict d :=
  List.foldlRecOn (motive := fun t : State => ∃ d, t = s.setDict d) l _ ⟨s.dict, rfl⟩ fun _ ht _ _ => by
    obtain ⟨d, rfl⟩ := ht
    exact ⟨_, rfl⟩

/-- The link function, MSI-X, the BAR2 windows and the aperture's reads return to their defaults. -/
def State.resetFunction (s : State) : State :=
  let s := { s with fn := { PcieFn.reset with clkreqReleased := s.fn.clkreqReleased }, msix := Msix.reset }
  let s := (s.setWeave { s.weave with aptReads := [], aptQueue := [] }).setPm { s.pm with held := [] }
  s.wrs [(Key.bar2Win0Quire, 0xFF), (Key.bar2Win0Addr, 0), (Key.bar2Win1Quire, 0xFF), (Key.bar2Win1Addr, 0)]

theorem State.controlReset_eq (s : State) :
    s.controlReset = (if s.up then s.resetQuires else s).dropMboxes.resetFunction := by
  unfold State.controlReset State.dropMboxes
  rfl

theorem State.resetFunction_facts (s : State) : s.resetFunction.pins = s.pins ∧ s.resetFunction.boot = s.boot ∧
    s.resetFunction.fn = { PcieFn.reset with clkreqReleased := s.fn.clkreqReleased } ∧ s.resetFunction.msix = Msix.reset ∧
    s.resetFunction.mboxes = s.mboxes ∧ s.resetFunction.weave.aptReads = [] ∧
    s.resetFunction.pm.held = [] ∧ s.resetFunction.quires = s.quires ∧ s.resetFunction.tiers = s.tiers := by
  unfold State.resetFunction
  dsimp only
  obtain ⟨d, hd⟩ := State.wrs_eq [(Key.bar2Win0Quire, 0xFF), (Key.bar2Win0Addr, 0), (Key.bar2Win1Quire, 0xFF),
    (Key.bar2Win1Addr, 0)] ((({ s with fn := { PcieFn.reset with clkreqReleased := s.fn.clkreqReleased }, msix := Msix.reset } :
      State).setWeave { s.weave with aptReads := [], aptQueue := [] }).setPm { s.pm with held := [] })
  rw [hd]
  exact ⟨rfl, rfl, rfl, rfl, rfl, rfl, rfl, rfl, rfl⟩

theorem State.controlReset_facts (s : State) : s.controlReset.pins = s.pins ∧ s.controlReset.boot = s.boot ∧
    s.controlReset.fn = { PcieFn.reset with clkreqReleased := s.fn.clkreqReleased } ∧ s.controlReset.msix = Msix.reset ∧
    s.controlReset.mboxes = Vector.replicate 9 Mbox.reset ∧ s.controlReset.weave.aptReads = [] ∧
    s.controlReset.pm.held = [] ∧ s.controlReset.quires = (if s.up then s.resetQuires else s).quires ∧
    s.controlReset.tiers = (if s.up then s.resetQuires else s).tiers := by
  have hshell : s.ShellKept (if s.up then s.resetQuires else s) := .ite s.resetQuires_shellKept (.refl s)
  rw [State.controlReset_eq]
  generalize (if s.up then s.resetQuires else s) = u at hshell ⊢
  obtain ⟨hpins', hboot', hfn', hquires', htiers'⟩ := u.dropMboxes_facts
  have hmboxes' := u.dropMboxes_mboxes
  generalize u.dropMboxes = v at *
  obtain ⟨hpins, hboot, hfn, hmsix, hmboxes, hreads, hheld, hquires, htiers⟩ := v.resetFunction_facts
  exact ⟨hpins.trans (hpins'.trans hshell.pins), hboot.trans (hboot'.trans hshell.boot), by rw [hfn, hfn', hshell.fn], hmsix,
    hmboxes.trans hmboxes', hreads, hheld, hquires.trans hquires', htiers.trans htiers'⟩

theorem perstAndFlrClause : PerstAndFlrClause := by
  intro s
  obtain ⟨hpins, hboot, hfn, hmsix, hmboxes, hreads, hheld, hquires, htiers⟩ := s.controlReset_facts
  refine ⟨fun h => ?assert, fun hlow hfree hrun hcore hentry hdown => ?release, fun h => ?flr⟩
  case assert =>
    have hrun : ∃ clk, perstNAssert s = { s.controlReset.linkOff with
        pins := { s.controlReset.linkOff.pins with perstN := false }, clk := clk } := by
      unfold perstNAssert
      rw [if_neg (by simp [h])]
      dsimp only
      split
      · exact ⟨_, rfl⟩
      · exact ⟨s.controlReset.linkOff.clk, rfl⟩
    obtain ⟨clk, hrun⟩ := hrun
    generalize s.controlReset = u at *
    refine ⟨_, nextOf hrun, ?_, ?_, hmsix, hmboxes, hreads, hheld, hquires, htiers, hboot⟩
    · show ({ u.pins with perstN := false } : Pins) = _
      rw [hpins]
    · show ({ u.fn with clkreqReleased := true } : PcieFn) = _
      rw [hfn]
  case release =>
    let v := (s.setPins { s.pins with perstN := true }).setClk { s.clk with quickOsc := true }
    have hrun' : perstNRelease s = v.startLink := by
      unfold perstNRelease
      rw [if_neg (by simp [hlow])]
      dsimp only
      rw [if_neg (by rw [Bool.not_eq_true]; exact hfree), if_pos (by exact hrun)]
      exact congrArg State.startLink (State.wakeDemand_of_awake (by exact hcore) (by exact hentry))
    have hbar : v.barUp = true := by
      show (s.running && true) = true
      rw [hrun]
      rfl
    have hlink : v.startLink = (({ v with fn := { v.fn with clkreqReleased := false } } : State).wr Key.pcieLinkState
        linkTrainingCode).emit .linkTraining := if_pos ⟨hbar, hdown⟩
    exact ⟨_, nextOf (hrun'.trans hlink), rfl, rfl, rfl, rfl, rfl, rfl⟩
  case flr =>
    exact ⟨_, nextOf (if_pos h), hpins, hfn, hmsix, hmboxes, hquires, htiers, hboot⟩

/-! ### A change of every bay -/

theorem State.foldl_modBay_bay (g : Bay → Bay) (c : BayNum) (l : List BayNum) : ∀ s : State, l.Nodup →
    (l.foldl (fun s b => s.modBay b g) s).bay c = if c ∈ l then g (s.bay c) else s.bay c := by
  induction l with
  | nil => exact fun s _ => by simp
  | cons b l ih =>
    intro s hnodup
    obtain ⟨hb, hl⟩ := List.nodup_cons.1 hnodup
    rw [List.foldl_cons, ih _ hl]
    by_cases hc : c = b
    · subst hc
      rw [if_neg hb, State.modBay_bay, if_pos (List.mem_cons_self ..)]
    · rw [State.modBay, State.setBay_bay_ne _ _ _ _ hc]
      simp [hc]

theorem mem_allB (b : BayNum) : b ∈ allB := by
  revert b
  decide

theorem State.forB_modBay_bay (s : State) (g : Bay → Bay) (c : BayNum) :
    (s.forB fun s b => s.modBay b g).bay c = g (s.bay c) :=
  (State.foldl_modBay_bay g c allB s (by decide)).trans (if_pos (mem_allB c))

/-! ### CLKIN_38M4 stops (02, R909) -/

/-- Every PLL is off and every bay clock gated. -/
def State.stopClocks (s : State) : State :=
  let s := (s.setPins { s.pins with clkin := false }).setClk { s.clk with bayPll := false, nvPll := false, lpddrPll := false }
  s.forB fun s b => s.modBay b fun x => if x.power = .running then { x with power := .gated } else x

theorem State.stopClocks_eq (s : State) : ∃ v, s.stopClocks =
    { s with pins := { s.pins with clkin := false }, clk := { s.clk with bayPll := false, nvPll := false, lpddrPll := false },
             bays := v } :=
  State.forB_bays (fun _ _ => ⟨_, rfl⟩) _

theorem State.stopClocks_bay (s : State) (b : BayNum) :
    s.stopClocks.bay b = if (s.bay b).power = .running then { s.bay b with power := .gated } else s.bay b :=
  State.forB_modBay_bay _ _ b

/-- With no bay running an awake device is in S-IDLE. -/
theorem State.fixPower_of_gated (hcore : s.coreOn = true) (h : ∀ b, (s.bay b).power ≠ .running) :
    s.fixPower = { s with power := .sIdle } := by
  have hnone : (allB.any fun b => (s.bay b).power == .running) = false := by
    rw [List.any_eq_false]
    intro b _
    simpa using h b
  rw [State.fixPower, if_pos hcore, hnone]
  rfl

theorem clkinLost_of_seen (hseen : s.clkinSeen = true) (hrun : s.running = true) (hwake : s.pm.waking = false) :
    ∃ d i v, clkinLost s = { s with
      pins := { s.pins with clkin := false }, clk := { s.clk with bayPll := false, nvPll := false, lpddrPll := false },
      bays := v, power := .sIdle, dict := d, i3c := i } ∧ ∀ b, v.get b =
        if (s.bay b).power = .running then { s.bay b with power := .gated } else s.bay b := by
  have hcore : s.coreOn = true := by
    simp only [State.clkinSeen, Bool.and_eq_true] at hseen
    exact hseen.1.1.2
  obtain ⟨v, hv⟩ := s.stopClocks_eq
  have hbay := s.stopClocks_bay
  have hfix : s.stopClocks.fixPower = { s.stopClocks with power := .sIdle } := by
    refine State.fixPower_of_gated (by rw [hv]; exact hcore) fun b => ?_
    rw [hbay]
    split
    · simp
    · assumption
  obtain ⟨d, i, halert⟩ := (s.stopClocks.fixPower.count Key.clkinLosses).alert_eq AL.clkin
  have hlost : clkinLost s = (s.stopClocks.fixPower.count Key.clkinLosses).alert AL.clkin := by
    unfold clkinLost
    dsimp only
    rw [if_pos (by simp [hseen, hrun])]
    refine if_neg ?_
    rw [State.alert_pm]
    show ¬ s.stopClocks.fixPower.pm.waking = true
    rw [hfix, hv]
    simp [hwake]
  refine ⟨d, i, v, ?_, fun b => ?_⟩
  · rw [hlost, halert, hfix, hv]
    rfl
  · have h := hbay b
    rw [hv] at h
    exact h

theorem State.tryListen_of_not_armed (h : s.rd Key.sentState ≠ 1) : s.tryListen = s := by
  unfold State.tryListen
  exact if_neg fun hc => h hc.1

/-! ### A bay's retest (R902) -/

/-- A change of voltage changes no bay but in its step. -/
theorem State.updateVsel_bay (s : State) (b : BayNum) : ∃ n, s.updateVsel.bay b = { s.bay b with step := n } := by
  have hstep : ∀ (P : State → BayNum → Prop) [∀ t c, Decidable (P t c)] (k : State → BayNum → Nat),
      ∃ n, (s.forB fun t c => if P t c then t.modBay c fun x => { x with step := k t c } else t).bay b =
        { s.bay b with step := n } := fun P _ k =>
    List.foldlRecOn (motive := fun t : State => ∃ n, t.bay b = { s.bay b with step := n }) allB _ ⟨(s.bay b).step, rfl⟩
      fun t ⟨n, ht⟩ c _ => by
        split
        · by_cases hc : b = c
          · subst hc
            exact ⟨k t b, by rw [State.modBay_bay, ht]⟩
          · exact ⟨n, by rw [State.modBay, State.setBay_bay_ne _ _ _ _ hc, ht]⟩
        · exact ⟨n, ht⟩
  obtain ⟨m, hlower⟩ : ∃ n, s.lowerSteps.bay b = { s.bay b with step := n } :=
    hstep _ fun t c => t.targetStep c
  obtain ⟨n, happly⟩ : ∃ n, (s.applySteps s.neededVsel).bay b = { s.bay b with step := n } :=
    hstep _ fun t c => t.targetStep c
  unfold State.updateVsel
  dsimp only
  generalize s.lowerSteps = l at hlower ⊢
  generalize s.applySteps s.neededVsel = a at happly ⊢
  split
  · exact ⟨m, hlower⟩
  · have hmoved : ∃ n, (if s.clk.settling = true then l else a).bay b = { s.bay b with step := n } := by
      split
      · exact ⟨m, hlower⟩
      · exact ⟨n, happly⟩
    generalize (if s.clk.settling = true then l else a) = w at hmoved ⊢
    obtain ⟨k, hmoved⟩ := hmoved
    split
    · exact ⟨k, hmoved⟩
    · exact ⟨k, hmoved⟩

theorem bayRetestDone_of_pass (b : BayNum) (h : (s.bay b).retesting = true) :
    bayRetestDone b true s = s.modBay b fun x => { x with retesting := false } := by
  simp [bayRetestDone, h]

/-- The bay as it stands while its failed retest is recorded. -/
def State.recordFail (s : State) (b : BayNum) : State :=
  let s := s.modBay b fun x => { x with retesting := false }
  let phys := s.rd (Key.diagBayMap (b.val + 1))
  if bit (s.rd Key.diagBayRecord) phys then s else s.wrStored Key.diagBayRecord (s.rd Key.diagBayRecord + 2 ^ phys)

theorem bayRetestDone_of_fail (b : BayNum) (h : (s.bay b).retesting = true) : bayRetestDone b false s =
    ((((s.recordFail b).bayOff b).wr (Key.diagBayMap (b.val + 1)) 0xFF).alert AL.bayOut).updateVsel := by
  unfold bayRetestDone
  rw [if_neg (by simp [h])]
  exact if_neg Bool.false_ne_true

theorem State.recordFail_changesOnly (s : State) (b : BayNum) :
    (s.modBay b fun x => { x with retesting := false }).ChangesOnly (Key.diagBayRecord :: paramStatus) (s.recordFail b) :=
  .ite (State.setNv_changesOnly _ _ _) (State.wrStored_changesOnly _ _ _)

theorem diagBayMap_ne (b : BayNum) : ∀ k ∈ [Key.pwrVsel, Key.alertCause], Key.diagBayMap (b.val + 1) ≠ k := by
  revert b
  decide

theorem clockLossWakeAndRetestClause : ClockLossWakeAndRetestClause := by
  intro s hinv
  obtain ⟨hwf, -, -⟩ := hinv
  refine ⟨fun hseen hrun hwake => ?lost, fun hwake hpll hstate => ?woken, fun b hb => ⟨?passed, ?failed⟩⟩
  case lost =>
    obtain ⟨d, i, v, hlost, hbay⟩ := clkinLost_of_seen hseen hrun hwake
    exact ⟨_, nextOf hlost, rfl, rfl, rfl, hbay, rfl, rfl, rfl⟩
  case woken =>
    refine nextOf ((if_neg (by simp [hwake, hpll])).trans ((if_pos rfl).trans ?_))
    exact State.tryListen_of_not_armed (by exact hstate)
  case passed =>
    exact ⟨_, nextOf (bayRetestDone_of_pass b hb), State.modBay_bay _ _ _, fun c hc => State.setBay_bay_ne _ _ _ _ hc, rfl⟩
  case failed =>
    refine ⟨_, nextOf (bayRetestDone_of_fail b hb), ?_⟩
    have hrecord := s.recordFail_changesOnly b
    have hlib : (s.recordFail b).nv.lib = s.nv.lib := by
      unfold State.recordFail
      dsimp only
      split
      · rfl
      · obtain ⟨recs, units, hnv⟩ := (State.wrStored_recordsOnly (s.modBay b fun x => { x with retesting := false })
          Key.diagBayRecord _).nv
        rw [hnv]
        rfl
    have hret : ((s.recordFail b).bay b).retesting = false := by
      have hbay : (s.recordFail b).bay b = (s.modBay b fun x => { x with retesting := false }).bay b := by
        rw [hrecord.frame]
        rfl
      rw [hbay, State.modBay_bay]
    have hwfr := hrecord.wf hwf
    have hquires : (s.recordFail b).quires = s.quires := hrecord.quires
    generalize s.recordFail b = u at hlib hret hwfr hquires ⊢
    have hoff : ∀ d i, ({ (u.bayOff b).wr (Key.diagBayMap (b.val + 1)) 0xFF with dict := d, i3c := i } : State).bay b =
        (u.bay b).switchOff := fun _ _ => State.modBay_bay _ _ _
    have hmap : ((u.bayOff b).wr (Key.diagBayMap (b.val + 1)) 0xFF).rd (Key.diagBayMap (b.val + 1)) = 0xFF :=
      (State.rd_wr _ _ _ _ (by exact hwfr)).trans (if_pos rfl)
    have hwfw : valsWf ((u.bayOff b).wr (Key.diagBayMap (b.val + 1)) 0xFF).sku 0
        ((u.bayOff b).wr (Key.diagBayMap (b.val + 1)) 0xFF).dict.vals = true := State.wr_wf _ _ _ (by exact hwfr)
    obtain ⟨d, i, halert⟩ := ((u.bayOff b).wr (Key.diagBayMap (b.val + 1)) 0xFF).alert_eq AL.bayOut
    have hkept := ((u.bayOff b).wr (Key.diagBayMap (b.val + 1)) 0xFF).alert_regsKept AL.bayOut
    have hne := diagBayMap_ne b
    have hwfa := hkept.wf hwfw
    have hrda := hkept.rd hwfw _ (hne Key.alertCause (by simp)).symm
    have hbaya : (((u.bayOff b).wr (Key.diagBayMap (b.val + 1)) 0xFF).alert AL.bayOut).bay b = (u.bay b).switchOff := by
      rw [halert]
      exact hoff d i
    have hqa : (((u.bayOff b).wr (Key.diagBayMap (b.val + 1)) 0xFF).alert AL.bayOut).quires = u.quires := by rw [halert]; rfl
    have hla : (((u.bayOff b).wr (Key.diagBayMap (b.val + 1)) 0xFF).alert AL.bayOut).nv.lib = u.nv.lib := by rw [halert]; rfl
    rw [hmap] at hrda
    generalize ((u.bayOff b).wr (Key.diagBayMap (b.val + 1)) 0xFF).alert AL.bayOut = w at hwfa hrda hbaya hqa hla ⊢
    obtain ⟨n, hbay⟩ := w.updateVsel_bay b
    obtain ⟨hgov, -⟩ := w.updateVsel_governs
    obtain ⟨hq, -, -, hnv, -⟩ := hgov.units
    have hrd := hgov.rd hwfa (Key.diagBayMap (b.val + 1)) (by simpa using hne Key.pwrVsel (by simp))
    rw [hbaya] at hbay
    refine ⟨by rw [hbay]; rfl, by rw [hbay]; rfl, by rw [hbay]; exact hret, ?_, by rw [hq, hqa, hquires], by rw [hnv, hla, hlib]⟩
    rw [State.mapped, hrd, hrda]
    rfl

/-! ### Link power (R204, R206, R863) -/

theorem State.rd_wr_same (hwf : valsWf s.sku 0 s.dict.vals = true) (k v : Nat) : (s.wr k v).rd k = v :=
  (s.rd_wr k k v hwf).trans (if_pos rfl)

theorem State.rd_wr_other (hwf : valsWf s.sku 0 s.dict.vals = true) {k j : Nat} (v : Nat) (h : j ≠ k) :
    (s.wr k v).rd j = s.rd j := (s.rd_wr k j v hwf).trans (if_neg h)

/-- The link has reached L0: what the exit leaves before the latency is reported. -/
def State.linkUp (s : State) : State :=
  (({ s.setClk { s.clk with quickOsc := s.clk.quickOsc || s.fn.clkreqReleased } with
    pins := { s.pins with wakeN := false }, fn := { s.fn with clkreqReleased := false } } : State).wr Key.pcieLinkState linkL0)

/-- Speed and width of a trained link. -/
def State.linkTrained (s : State) (speed : Fin 5) (width : Fin 3) : State :=
  if s.rd Key.pcieLinkState ≤ linkTrainingCode then
    s.wrs [(Key.pcieLinkSpeed, speed.val), (Key.pcieLinkWidth, width.val)]
  else s

theorem State.reportLtr_of_up (h : s.rd Key.pcieLinkState = linkL0) :
    s.reportLtr true = ({ s with fn := { s.fn with ltr := s.ltrNow } } : State).emit (.ltr s.ltrNow) :=
  if_pos ⟨h, .inl rfl⟩

theorem State.linkTrained_facts (hwf : valsWf s.sku 0 s.dict.vals = true) (speed : Fin 5) (width : Fin 3) :
    ∃ d, s.linkTrained speed width = s.setDict d ∧ valsWf s.sku 0 d.vals = true ∧
      (s.rd Key.pcieLinkState ≤ linkTrainingCode → (s.linkTrained speed width).rd Key.pcieLinkSpeed = speed.val ∧
        (s.linkTrained speed width).rd Key.pcieLinkWidth = width.val) := by
  unfold State.linkTrained
  split
  · have hw := s.wr_wf Key.pcieLinkSpeed speed.val hwf
    refine ⟨_, rfl, State.wr_wf _ _ _ hw, fun _ => ⟨?_, State.rd_wr_same hw _ _⟩⟩
    exact (State.rd_wr_other hw _ (show Key.pcieLinkSpeed ≠ Key.pcieLinkWidth by decide)).trans (State.rd_wr_same hwf _ _)
  · next h => exact ⟨s.dict, rfl, hwf, fun hl => absurd hl h⟩

theorem State.linkUp_rd (hwf : valsWf s.sku 0 s.dict.vals = true) (k : Nat) :
    s.linkUp.rd k = if k = Key.pcieLinkState then linkL0 else s.rd k := by
  unfold State.linkUp
  exact State.rd_wr _ _ _ _ (by exact hwf)

theorem linkPowerClause : LinkPowerClause := by
  intro s hinv l
  obtain ⟨hwf, -, -⟩ := hinv
  refine ⟨fun hl haspm => nextOf (if_pos ⟨hl, haspm⟩), fun l12 hl => ?substate, fun hl => ?exit, fun speed width hcore hl => ?dark,
    fun speed width hbar hspeed hwidth hl0 hl12 htrain => ?up, ?down⟩
  case substate =>
    exact ⟨_, nextOf (if_pos hl), State.rd_wr_same (by exact hwf) _ _, rfl, rfl, rfl, rfl⟩
  case exit =>
    exact ⟨_, nextOf (if_pos hl), State.rd_wr_same (by exact hwf) _ _, rfl, rfl, rfl, rfl⟩
  case dark => exact nextOf (if_pos (.inr (.inr (.inr ⟨hl, .inr (.inr (by simp [hcore]))⟩))))
  case up =>
    obtain ⟨d, htrained, hwfd, hfields⟩ := State.linkTrained_facts hwf speed width
    have hopen : ¬ (¬ s.barUp = true ∨ l = linkL0 ∨ l = linkL12 ∨
        l ≤ linkTrainingCode ∧ (speed = 0 ∨ width = 0 ∨ ¬ s.coreOn = true)) := by
      rintro (h | h | h | ⟨hl, h | h | h⟩)
      · exact h hbar
      · exact hl0 h
      · exact hl12 h
      · exact hspeed h
      · exact hwidth h
      · exact h (htrain hl)
    have hrun : linkEntersL0 speed width s = (s.linkTrained speed width).linkUp.reportLtr true := if_neg hopen
    have hstate : (s.linkTrained speed width).linkUp.rd Key.pcieLinkState = linkL0 := by
      rw [htrained, State.linkUp_rd (by exact hwfd)]
      rfl
    rw [State.reportLtr_of_up hstate] at hrun
    rw [htrained] at hrun hstate hfields
    refine ⟨_, nextOf hrun, hstate, rfl, rfl, rfl, fun hl => ?_, rfl, rfl, rfl⟩
    obtain ⟨hspeed', hwidth'⟩ := hfields hl
    have hrd := State.linkUp_rd (s := s.setDict d) (by exact hwfd)
    exact ⟨((hrd _).trans (if_neg (by decide))).trans hspeed', ((hrd _).trans (if_neg (by decide))).trans hwidth'⟩
  case down =>
    let v : State := { s with fn := { s.fn with clkreqReleased := true } }
    have hw1 := v.wr_wf Key.pcieLinkState linkDownCode hwf
    have hw2 := State.wr_wf _ Key.pcieLinkSpeed 0 hw1
    refine ⟨_, rfl, ?_, ?_, ?_, rfl, rfl, rfl, rfl, rfl⟩
    · exact ((State.rd_wr_other hw2 _ (by decide)).trans (State.rd_wr_other hw1 _ (by decide))).trans
        (State.rd_wr_same (by exact hwf) _ _)
    · exact (State.rd_wr_other hw2 _ (by decide)).trans (State.rd_wr_same hw1 _ _)
    · exact State.rd_wr_same hw2 _ _

/-- Settles O49, clause by clause. -/
theorem linkAndClockEvents : Obligations.LinkAndClockEvents :=
  ⟨perstAndFlrClause, clockLossWakeAndRetestClause, linkPowerClause⟩

end Sys2Proof.Machine
end

section
/-! PROOFS. Wake and grant (02, R43, R86, R836): what a waking quire gets. -/

namespace Sys2Proof.Machine

variable {s t : State}

/-! ### The bays run (R836, R839) -/

/-- A bay clocked at a step. -/
def Bay.runAt (x : Bay) (step : Nat) : Bay := { x with power := .running, step := step }

theorem State.foldl_runAt (q : QNum) (l : List BayNum) : ∀ s : State,
    l.foldl (fun s b => s.modBay b fun x => { x with power := .running, step := s.governedStep q }) s =
      l.foldl (fun t b => t.modBay b fun x => x.runAt (s.governedStep q)) s := by
  induction l with
  | nil => exact fun _ => rfl
  | cons b l ih => exact fun s => ih _

theorem State.fixPower_eq (s : State) : ∃ p, s.fixPower = { s with power := p } := by
  unfold State.fixPower
  split
  · exact ⟨_, rfl⟩
  · exact ⟨s.power, rfl⟩

theorem State.runBays_eq (s : State) (q : QNum) : ∃ v p, s.runBays q = { s with bays := v, power := p } ∧
    ∀ b, v.get b = if b ∈ s.quireBays q then (s.bay b).runAt (s.governedStep q) else s.bay b := by
  unfold State.runBays
  rw [State.foldl_runAt]
  obtain ⟨v, hv⟩ := State.foldl_modBay (fun x => x.runAt (s.governedStep q)) (s.quireBays q) s
  have hnodup : (s.quireBays q).Nodup := List.Nodup.filter _ (by decide)
  have hbay : ∀ b, ((s.quireBays q).foldl (fun t b => t.modBay b fun x => x.runAt (s.governedStep q)) s).bay b =
      if b ∈ s.quireBays q then (s.bay b).runAt (s.governedStep q) else s.bay b :=
    fun b => State.foldl_modBay_bay _ b _ s hnodup
  rw [hv] at hbay ⊢
  obtain ⟨p, hp⟩ := ({ s with bays := v } : State).fixPower_eq
  exact ⟨v, p, hp, hbay⟩

/-! ### The grant (R43, R86, R91) -/

theorem State.maxOf_qWakesRefused (s : State) (q : QNum) : s.maxOf (Key.qWakesRefused q) = 0xFFFFFFFF :=
  s.maxOf_of_card fun sku => by
    revert q
    cases sku <;> decide

theorem State.maxOf_clkinWaits (s : State) : s.maxOf Key.clkinWaits = 0xFFFFFFFF :=
  s.maxOf_of_card fun sku => by cases sku <;> decide

theorem State.holdWake_of_first (h : s.clk.clkWait = false) :
    s.holdWake = (s.setClk { s.clk with clkWait := true }).count Key.clkinWaits := if_neg (by simp [h])

theorem State.tryRelease_of_work (q : QNum) (h : (s.quire q).ringsEmpty = false) : s.tryRelease q = s := by
  unfold State.tryRelease
  exact if_neg fun hc => by simp [h] at hc

/-- Settles O23: the three outcomes of `grant` that its hypotheses leave. -/
theorem grantOrRefuse : Obligations.GrantOrRefuse := by
  intro s q us hinv hpend hswitch hcore hwaking
  obtain ⟨hwf, -, -⟩ := hinv
  have hopen : ¬ (¬ (s.quire q).wakePending = true ∨ s.switch.isSome = true ∨ ¬ s.coreOn = true ∨ s.pm.waking = true) := by
    simp [hpend, hswitch, hcore, hwaking]
  refine ⟨fun href => ?refused, fun hok hblind hfirst => ?held, fun hok hseen hset hpll hbays hwork => ?granted⟩
  case refused =>
    refine ⟨_, nextOf ((if_neg hopen).trans (if_pos href)), ?_, ?_, rfl, ?_, rfl, rfl⟩
    · exact congrArg Quire.pwr (State.setQuire_quire s q _)
    · exact congrArg Quire.wakePending (State.setQuire_quire s q _)
    · rw [State.rd_count_self _ _ _ (by exact hwf), State.maxOf_qWakesRefused]
      rfl
  case held =>
    refine ⟨_, nextOf ((if_neg hopen).trans ((if_neg (by simp [hok])).trans ((if_pos (by simp [hblind])).trans
      (State.holdWake_of_first hfirst)))), hpend, rfl, ?_⟩
    rw [State.rd_count_self _ _ _ (by exact hwf), State.maxOf_clkinWaits]
    rfl
  case granted =>
    let u := s.setQuire q { s.quire q with
      wakePending := false, grantUs := some us,
      state := if (s.quire q).state = .waking then .running else (s.quire q).state }
    have hquire : u.quire q = _ := State.setQuire_quire s q _
    obtain ⟨v, p, hrun, hbay⟩ := u.runBays_eq q
    have hpowered : ¬ (¬ s.clk.bayPll = true ∨ ((s.quireBays q).any fun b => !(s.bay b).powered) = true) := by
      simp only [hpll, not_true_eq_false, false_or, Bool.not_eq_true, List.any_eq_false]
      exact fun b hb => by simp [(hbays b hb).1]
    have hready : ¬ (s.clk.settling = true ∨ ((s.quireBays q).any fun b => (s.bay b).retesting) = true) := by
      simp only [hset, Bool.false_eq_true, false_or, Bool.not_eq_true, List.any_eq_false]
      exact fun b hb => by simp [(hbays b hb).2]
    have hgrant : grant q us s = (u.runBays q).tryRelease q :=
      (if_neg hopen).trans ((if_neg (by simp [hok])).trans ((if_neg (by simp [hseen])).trans ((if_neg hpowered).trans
        (if_neg hready))))
    have hrings : ((u.runBays q).quire q).ringsEmpty = false := by
      rw [hrun]
      show (u.quire q).ringsEmpty = false
      rw [hquire]
      exact hwork
    rw [State.tryRelease_of_work q hrings, hrun] at hgrant
    refine ⟨_, nextOf hgrant, ?_, ?_, hbay, rfl, rfl, rfl⟩
    · show (u.quire q).granted = _
      rw [hquire]
      simp [Quire.granted]
    · show (u.quire q).wakePending = _
      rw [hquire]

end Sys2Proof.Machine
end

section
/-! PROOFS. Q_ENABLE and Q_RESET (06, R292, R304). -/

namespace Sys2Proof.Machine

variable {s t u : State}

/-! ### Commands of the block without an argument -/

/-- A run of Q_ENABLE or Q_RESET answers what its operation answers. -/
theorem keyRequest_quireCommand {role : Role} {q : QNum} {p : Nat × Nat × Nat × Grant} {st : Nat} (hp : p ∈ quireCommands)
    (hs : Serving s) (hallowed : Allowed s role (keyOf (blockIndex q p.1) 0) 0)
    (hserve : serveBlock q (quireCommandCard p) (writeOf role (blockIndex q p.1) 0 []) s = (st, t)) (hst : st ≠ DS.role) :
    keyRequest role (keyOf (blockIndex q p.1) 0) [] s = .next (t.answer st) := by
  have hidx : keyOf (blockIndex q p.1) 0 / 256 = blockIndex q p.1 ∧ keyOf (blockIndex q p.1) 0 % 256 = 0 := by
    unfold keyOf
    omega
  obtain ⟨hidx, hsub⟩ := hidx
  rw [Allowed, hidx, hsub] at hallowed
  rw [keyRequest, hidx, hsub]
  exact nextOf (dictRequest_quireCommand hp hs hallowed hserve hst)

theorem exec_qEnable_of_write {role : Role} {q : QNum} {st : Nat} (hs : Serving s)
    (hallowed : Allowed s role (Key.qEnable q) 0) (hwrite : qEnableWrite q s = (st, t)) (hst : st ≠ DS.role) :
    exec (.qEnable role q) s = .next (t.answer st) :=
  keyRequest_quireCommand (p := (0x01, 0, 0, .h)) (by decide) hs hallowed
    (by simpa [serveBlock, writeOf, blockIndex_mod] using hwrite) hst

theorem exec_qReset_of_write {role : Role} {q : QNum} {st : Nat} (hs : Serving s)
    (hallowed : Allowed s role (Key.qReset q) 0) (hwrite : qResetWrite q s = (st, t)) (hst : st ≠ DS.role) :
    exec (.qReset role q) s = .next (t.answer st) :=
  keyRequest_quireCommand (p := (0x03, 0, 4, .h)) (by decide) hs hallowed
    (by simpa [serveBlock, writeOf, blockIndex_mod] using hwrite) hst

/-! ### Q_ENABLE (R292, R907) -/

theorem State.wakeIfNeeded_of_idle (q : QNum) (h : (s.quire q).pendingWork = false) : s.wakeIfNeeded q = s := by
  unfold State.wakeIfNeeded
  exact if_neg fun hc => by simp [h] at hc

theorem quireEnableClause : QuireEnableClause := by
  intro s role q hs hallowed x
  refine ⟨fun h => ?refused, fun hstate hring ht2 hidle hwork => ?enabled⟩
  case refused =>
    refine exec_qEnable_of_write hs hallowed (if_pos ?_) (by decide)
    obtain h | h := h
    · exact .inl h
    · exact .inr (.inl h)
  case enabled =>
    have hwrite : qEnableWrite q s =
        (DS.ok, (s.modQuire q fun x => { x with state := .enabled }).cmdDone (Key.qEnable q) DS.ok []) := by
      unfold qEnableWrite
      rw [if_neg (by simp [hring, ht2]; exact hstate), State.ifIdle_of_idle _ _ _ hidle, State.wakeIfNeeded_of_idle]
      show ((s.modQuire q fun x => { x with state := .enabled }).quire q).pendingWork = false
      rw [State.modQuire_quire]
      exact hwork
    have hcmd := State.cmdDone_cmd (s.modQuire q fun x => { x with state := .enabled }) (Key.qEnable q) DS.ok []
    have hquire := State.modQuire_quire s q fun x => { x with state := .enabled }
    refine ⟨_, exec_qEnable_of_write hs hallowed hwrite (by decide), hquire,
      fun p hp => State.modQuire_quire_ne s (fun x => { x with state := .enabled }) hp,
      congrArg CmdBlock.result hcmd, congrArg CmdBlock.state hcmd, rfl, rfl⟩

/-! ### What a quire gives up when it stops (R304, steps 1 and 2) -/

theorem State.QuiresKept.quire (h : s.QuiresKept t) (q : QNum) : t.quire q = s.quire q := State.quire_of_quires h.quires q

theorem State.takeSectors_quiresKept (s : State) (x : PressOp) : s.QuiresKept (s.takeSectors x) :=
  .setNv (.foldl (.refl s) fun t _ => .setNv (.refl t))

theorem State.startPress_quiresKept (s : State) (x : PressOp) : s.QuiresKept (s.startPress x) := by
  have hset : s.QuiresKept (s.setOp { x with running := true }) := .setNv (.refl s)
  refine .ite (.setNv (.setNv hset)) (.ite (hset.trans (State.takeSectors_quiresKept _ _))
    (.ite (.foldl hset fun t k => ?_) (.ite ?_ hset)))
  · split
    · exact .setWeave (.refl t)
    · exact .refl t
  · exact .setNv (hset.trans (State.queueMove_quiresKept _ _ _ _))

theorem State.serveRing_quiresKept (s : State) : s.QuiresKept s.serveRing := by
  have hfirst : s.QuiresKept (s.nv.press.foldl
      (fun s x => if x.running ∧ x.isAuxOp = true ∧ x.under = [] then s.takeSectors x else s) s) :=
    .foldl (.refl s) fun t x => .ite (t.takeSectors_quiresKept x) (.refl t)
  refine List.foldlRecOn (motive := fun p : State × List PressSource => s.QuiresKept p.1) _ _ hfirst fun p hp x _ => ?_
  split
  · exact hp
  · split
    · exact hp
    · split
      · exact hp.trans (p.1.startPress_quiresKept x)
      · exact hp

theorem State.unitsEnd_quiresKept (s : State) (x : PressOp) : s.QuiresKept (s.unitsEnd x) :=
  .foldl (.ite (.setNv (.setNv (.refl s))) (.refl s)) fun t _ => .setNv (.refl t)

theorem State.pressAnswer_quires (s : State) (src : PressSource) (bytes : List Byte) :
    (s.pressAnswer src bytes).quires = s.quires := by
  unfold State.pressAnswer
  split <;> rfl

/-- An operation that ends without a signal leaves every quire. -/
theorem State.pressDone_quires (s : State) (x : PressOp) (status done detail us : Nat) :
    (s.pressDone x status done detail us false).quires = s.quires := by
  have hunits : s.QuiresKept ((dropOp s x.id).unitsEnd x) :=
    .trans (.setNv (.refl s)) (State.unitsEnd_quiresKept _ x)
  exact (State.serveRing_quiresKept _).quires.trans ((State.pressAnswer_quires _ _ _).trans hunits.quires)

theorem State.abortRuns_quires (s : State) (q : QNum) : (s.abortRuns q).quires = s.quires := by
  unfold State.abortRuns
  split
  · exact State.pressDone_quires _ _ _ _ _ _
  · rfl

theorem State.overtakeDisable_quires (s : State) (q : QNum) (d : Option Disabling) :
    (s.overtakeDisable q d).quires = s.quires := by
  unfold State.overtakeDisable
  split
  · exact State.msixSend_quires _ _
  · rfl

theorem State.stopLoads_quiresKept (s : State) (q : QNum) : s.QuiresKept (s.stopLoads q) :=
  .foldl (.refl s) fun t l => .setNv (t.stopLoad_quiresKept l)

theorem State.endLending_quires (s : State) (q : QNum) : (s.endLending q).quires = s.quires := rfl

theorem State.trainDrop_quire (s : State) (q : QNum) (tr : Train) :
    (s.trainDrop q tr).quire q = { s.quire q with train := none } := by
  have hfresh : s.QuiresKept s.fresh.2 := ⟨rfl, rfl⟩
  unfold State.trainDrop
  dsimp only
  rw [State.modQuire_quire, (State.emptyEntry_quiresKept _ _).quire q]
  split
  · rw [(State.programFirst_quiresKept _ _ _ _).quire q, hfresh.quire q]
  · rfl

theorem State.trainLast_quires (s : State) (q : QNum) (status old new : Nat) (stats : List Nat) (short ms : Nat) :
    (s.trainLast q status old new stats short ms).quires = s.quires := rfl

/-- What a training commit leaves of its quire is all but the commit. -/
theorem State.stopTrain_quire (s : State) (q : QNum) : ∃ tr, (s.stopTrain q).quire q = { s.quire q with train := tr } := by
  have hfresh : s.QuiresKept s.fresh.2 := ⟨rfl, rfl⟩
  unfold State.stopTrain
  split
  · refine ⟨none, ?_⟩
    dsimp only
    rw [State.quire_of_quires (State.trainLast_quires _ _ _ _ _ _ _ _) q, State.trainDrop_quire, hfresh.quire q]
  · exact ⟨_, rfl⟩

/-- Beside its runs and its training commit, a quire keeps what it has until it is RESETTING. -/
theorem State.endWork_quire (s : State) (q : QNum) :
    ∃ tr, (s.endWork q).quire q = { s.quire q with runs := [], train := tr } := by
  have hbefore : ((((((s.endRuns q).stopQuire q).endLending q).overtakeDisable q (s.quire q).disabling).abortRuns
      q).stopLoads q).quires = (s.endRuns q).quires := by
    rw [(State.stopLoads_quiresKept _ q).quires, State.abortRuns_quires, State.overtakeDisable_quires,
      State.endLending_quires, State.stopQuire_quires]
  unfold State.endWork
  dsimp only
  generalize ((((((s.endRuns q).stopQuire q).endLending q).overtakeDisable q (s.quire q).disabling).abortRuns
      q).stopLoads q) = u at hbefore ⊢
  obtain ⟨tr, htrain⟩ := u.stopTrain_quire q
  rw [State.quire_of_quires hbefore q, s.endRuns_quire q] at htrain
  refine ⟨tr, Eq.trans ?_ htrain⟩
  split
  · exact State.quire_of_quires (State.sentAbandon_quires _) q
  · rfl

/-- A quire that stops for its reset. -/
theorem State.stopForReset_quire_eq (s : State) (q : QNum) (h : (s.quire q).state ≠ .resetting) :
    ∃ tr, (s.stopForReset q).quire q = Quire.resets { s.quire q with runs := [], train := tr } := by
  obtain ⟨tr, htr⟩ := s.endWork_quire q
  refine ⟨tr, ?_⟩
  rw [State.stopForReset_eq, if_neg h, State.modQuire_quire, htr]

/-! ### The stitches of a quire at rest are released (R351) -/

/-- A quire without runs and started entries is left as it is. -/
def State.RestKept (q : QNum) (s t : State) : Prop :=
  (s.quire q).runs = [] → (s.quire q).started = [] → t.quire q = s.quire q

section

variable {q : QNum}

theorem State.RestKept.of_quire (h : t.quire q = s.quire q) : s.RestKept q t := fun _ _ => h

theorem State.RestKept.of_quires (h : t.quires = s.quires) : s.RestKept q t := .of_quire (State.quire_of_quires h q)

theorem State.RestKept.refl (s : State) : s.RestKept q s := .of_quire rfl

theorem State.RestKept.trans (h : s.RestKept q t) (h' : t.RestKept q u) : s.RestKept q u := by
  intro hruns hstarted
  have hq := h hruns hstarted
  exact (h' (by rw [hq, hruns]) (by rw [hq, hstarted])).trans hq

theorem State.RestKept.foldl {α : Type} {f : State → α → State} {l : List α} (h : s.RestKept q t)
    (hf : ∀ (u : State) (a : α), u.RestKept q (f u a)) : s.RestKept q (l.foldl f t) :=
  List.foldlRecOn (motive := fun u => s.RestKept q u) l f h fun u hu a _ => hu.trans (hf u a)

end

/-! #### What is written for another quire -/

theorem State.QuiresKept.of_emit (s : State) (o : Output) : s.QuiresKept (s.emit o) := ⟨rfl, rfl⟩

theorem State.msixSend_quiresKept (s : State) (v : Nat) : s.QuiresKept (s.msixSend v) :=
  ⟨s.msixSend_quires v, congrArg Dict.cmds (s.msixSend_dict v)⟩

theorem State.writeCq_quire_ne (s : State) {p q : QNum} (h : q ≠ p) (c : Completion) : (s.writeCq p c).quire q = s.quire q := by
  unfold State.writeCq
  extract_lets x size base slot bytes tail s1 _ s2 s3 s4
  have hring : s1.QuiresKept s3 := .trans (.ite (.setTiers (.refl s1)) (.refl s1)) (State.QuiresKept.of_emit s2 _)
  have hsignal : s1.QuiresKept s4 := .ite (hring.trans ⟨rfl, rfl⟩) hring
  exact ((hsignal.trans (.ite (State.msixSend_quiresKept _ _) (.refl s4))).quire q).trans
    (State.setQuire_quire_ne s p q _ h)

theorem State.complete_quire_ne (s : State) {p q : QNum} (h : q ≠ p) (e : Entry) (status detail result : Nat) :
    (s.complete p e status detail result).quire q = s.quire q := by
  unfold State.complete
  dsimp only
  split
  · rfl
  · split
    · exact State.setQuire_quire_ne _ _ _ _ h
    · exact State.writeCq_quire_ne _ h _

theorem State.gateBays_quires (s : State) (p : QNum) : (s.gateBays p).quires = s.quires := by
  unfold State.gateBays State.fixPower
  have hbays (l : List BayNum) (f : Bay → Bay) : ((l.foldl (fun s b => s.modBay b f) s)).quires = s.quires :=
    List.foldlRecOn (motive := fun u : State => u.quires = s.quires) l _ rfl fun u hu b _ => hu
  split
  · exact hbays _ _
  · exact hbays _ _

theorem State.tryRelease_quire_ne (s : State) {p q : QNum} (h : q ≠ p) : (s.tryRelease p).quire q = s.quire q := by
  unfold State.tryRelease
  dsimp only
  split
  · rw [State.quire_of_quires (State.gateBays_quires _ p) q, State.setQuire_quire_ne _ _ _ _ h]
  · rfl

theorem State.finish_quire_ne (s : State) {p q : QNum} (h : q ≠ p) (e : Entry) (status detail result : Nat) :
    (s.finish p e status detail result).quire q = s.quire q := by
  unfold State.finish State.settleQuire
  dsimp only
  rw [State.tryRelease_quire_ne _ h]
  split
  · rw [State.setQuire_quire_ne _ _ _ _ h, State.complete_quire_ne _ h, State.modQuire_quire_ne _ _ h]
  · rw [State.complete_quire_ne _ h, State.modQuire_quire_ne _ _ h]

/-! #### The stage of a release -/

theorem State.noteWait_restKept (s : State) (q : QNum) (b : BayNum) : s.RestKept q (s.noteWait b) := by
  unfold State.noteWait
  split
  · split
    · split
      · exact fun hruns _ => s.modRun_quire_of_no_runs hruns _ _ _
      · exact .refl s
    · exact .refl s
  · exact .refl s

theorem State.modBay_restKept (s : State) (q : QNum) (b : BayNum) (f : Bay → Bay) : s.RestKept q (s.modBay b f) :=
  .of_quires rfl

theorem State.countWait_quires (s : State) (p : QNum) (o : Outcome) : (s.countWait p o).quires = s.quires := by
  cases o <;> rfl

theorem State.endWait_restKept (s : State) (q : QNum) (h : Held) (o : Outcome) (count : Nat) :
    s.RestKept q (s.endWait h o count) := by
  have hcounted : s.RestKept q (s.countWait h.quire o) := .of_quires (s.countWait_quires h.quire o)
  unfold State.endWait
  dsimp only
  generalize s.countWait h.quire o = u at hcounted ⊢
  split
  · exact hcounted.trans (.trans (State.modBay_restKept u q _ _) (State.noteWait_restKept _ q _))
  · next p r _ =>
    refine hcounted.trans fun _ hstarted => ?_
    by_cases hpq : q = p
    · subst hpq
      rw [hstarted]
      rfl
    · split
      · exact State.finish_quire_ne _ hpq _ _ _ _
      · rfl

theorem State.stageOne_restKept (s : State) (q : QNum) (signals : List (Nat × Nat)) (poisons aborts : List (Nat × Nat))
    (n : Nat) : s.RestKept q (s.stageOne signals poisons aborts n) := by
  unfold State.stageOne
  split
  · exact .refl s
  · refine .foldl (.of_quires ?_) fun t p => t.endWait_restKept q p.1 p.2 _
    split
    · rfl
    · split <;> rfl

theorem State.releaseStitches_restKept (s : State) (q p : QNum) (all : Bool) : s.RestKept q (s.releaseStitches p all) := by
  have hdropped : s.RestKept q (s.dropWaits fun n h => h.quire == p && (!all || inRange (s.stitchRange p) n)) := .of_quires rfl
  have hstaged : s.RestKept q ((s.dropWaits fun n h => h.quire == p && (!all || inRange (s.stitchRange p) n)).releaseStage
      (s.stitchRange p) [s.stitchRange p]) :=
    .foldl (hdropped.trans (.of_quires rfl)) fun t n => t.stageOne_restKept q _ _ _ n
  exact hstaged.trans (.of_quires rfl)

/-! ### The handles, the allocation and the leaves of the quire go (R304, steps 3 and 4) -/

theorem State.wrs_quires (s : State) (l : List (Nat × Nat)) : (s.wrs l).quires = s.quires :=
  List.foldlRecOn (motive := fun u : State => u.quires = s.quires) l _ rfl fun _ hu _ _ => hu

theorem State.dropHandles_quires (s : State) (q : QNum) : (s.dropHandles q).quires = s.quires :=
  List.foldlRecOn (motive := fun u : State => u.quires = s.quires) allE _ rfl fun _ hu _ _ => hu

theorem State.dropHandle_rd (hwf : valsWf s.sku 0 s.dict.vals = true) (q : QNum) {e y : Nat} (hy : y < 64) :
    (s.dropHandle q e).rd (Key.qHandle q (y + 1)) = if y = e then 0 else s.rd (Key.qHandle q (y + 1)) :=
  State.letGo_rd_qHandle hwf q hy

/-- Every handle of the quire is 0. -/
theorem State.dropHandles_rd (hwf : valsWf s.sku 0 s.dict.vals = true) (q : QNum) {y : Nat} (hy : y < 64) :
    (s.dropHandles q).rd (Key.qHandle q (y + 1)) = 0 := by
  have hfold : ∀ (l : List Nat) (u : State), valsWf u.sku 0 u.dict.vals = true →
      (y ∈ l ∨ u.rd (Key.qHandle q (y + 1)) = 0) →
      (l.foldl (fun s e => s.dropHandle q e) u).rd (Key.qHandle q (y + 1)) = 0 := by
    intro l
    induction l with
    | nil => exact fun u _ h => h.resolve_left List.not_mem_nil
    | cons e l ih =>
      intro u hu h
      have hrd := u.dropHandle_rd hu q (e := e) hy
      refine ih _ (State.wr_wf _ _ _ (u.wr_wf _ _ hu)) ?_
      rw [hrd]
      by_cases hye : y = e
      · exact .inr (if_pos hye)
      · rw [if_neg hye]
        exact h.imp_left fun hmem => (List.mem_cons.1 hmem).resolve_left hye
  exact hfold allE s hwf (.inl (List.mem_range.2 hy))

/-- What a reset leaves of a quire that has stopped. -/
structure State.Released (s : State) (q : QNum) (t : State) : Prop where
  quire : t.quire q = { s.quire q with unified := [] }
  handles : ∀ e, e < 64 → t.rd (Key.qHandle q (e + 1)) = 0
  job : ∃ j ∈ t.tiers.jobs, ∃ n, j.purpose = .reset q n

theorem State.rd_of_vals (hvals : t.dict.vals = s.dict.vals) (hsku : t.sku = s.sku) (k : Nat) : t.rd k = s.rd k := by
  unfold State.rd
  rw [hvals, hsku]

theorem State.zeroJob_vals (s : State) (q : QNum) (run : Bool) (pieces : List (Place × Nat × Nat)) (purpose : ZeroFor) :
    (s.zeroJob q run pieces purpose).dict.vals = s.dict.vals ∧ (s.zeroJob q run pieces purpose).sku = s.sku := by
  have hcut : (pieces.foldl (fun s p => s.cut p.1 p.2.1 p.2.2 Use.taken) s).dict.vals = s.dict.vals ∧
      (pieces.foldl (fun s p => s.cut p.1 p.2.1 p.2.2 Use.taken) s).sku = s.sku :=
    List.foldlRecOn (motive := fun u : State => u.dict.vals = s.dict.vals ∧ u.sku = s.sku) pieces _ ⟨rfl, rfl⟩
      fun _ hu _ _ => hu
  unfold State.zeroJob
  dsimp only
  split
  · exact hcut
  · exact hcut

/-- The zeroing of a reset is a job even where it has no leaf. -/
theorem State.zeroJob_job (s : State) (q : QNum) (run : Bool) (pieces : List (Place × Nat × Nat)) (n : Nat) :
    ∃ j ∈ (s.zeroJob q run pieces (.reset q n)).tiers.jobs, ∃ n, j.purpose = .reset q n := by
  unfold State.zeroJob
  dsimp only
  rw [if_neg (fun h => by cases h.2)]
  exact ⟨_, List.mem_append_right _ (List.mem_singleton.2 rfl), n, rfl⟩

theorem State.releaseForReset_released (s : State) (q : QNum) (hc : s.Canonical) (hruns : (s.quire q).runs = [])
    (hstarted : (s.quire q).started = []) : s.Released q (s.releaseForReset q false) := by
  have hkeeps : s.Keeps ((s.releaseStitches q false).defaultAlloc q false) := (State.Keeps.refl s).releaseStitches.defaultAlloc
  have hcanon := hkeeps.canonical hc
  have hquire := s.releaseStitches_restKept q q false hruns hstarted
  have halloc : ((s.releaseStitches q false).defaultAlloc q false).quire q = s.quire q := by
    refine Eq.trans ?_ hquire
    exact State.quire_of_quires (State.wrs_quires _ _) q
  unfold State.releaseForReset
  dsimp only
  generalize (s.releaseStitches q false).defaultAlloc q false = u at halloc hcanon
  have hhandles := fun e he => u.dropHandles_rd hcanon.dict.vals q (y := e) he
  have hquires := u.dropHandles_quires q
  generalize u.dropHandles q = v at hhandles hquires
  refine ⟨?_, fun e he => ?_, State.zeroJob_job _ q false _ _⟩
  · rw [(State.zeroJob_quiresKept _ _ _ _ _).quire q, State.modQuire_quire]
    have hv : v.quire q = s.quire q := (State.quire_of_quires hquires q).trans halloc
    exact congrArg (fun x : Quire => { x with unified := [] }) hv
  · exact (State.rd_of_vals ((State.zeroJob_vals _ _ _ _ _).1.trans rfl) (State.zeroJob_vals _ _ _ _ _).2 _).trans
      (hhandles e he)

/-! ### Q_RESET (R304) -/

theorem Quire.resets_of (x : Quire) : x.resets.state = .resetting ∧ x.resets.runs = x.runs ∧ x.resets.started = [] ∧
    x.resets.heldCq = [] ∧ (∀ r, (x.resets.ring r).fetched = []) ∧ x.resets.ctrCompleted = x.ctrCompleted :=
  ⟨rfl, rfl, rfl, rfl, fun r => congrArg Ring.fetched (x.dropFetched_ring r), rfl⟩

theorem endsWithReset_qReset (q : QNum) : endsWithReset (Key.qReset q) = false := by
  revert q
  decide

theorem State.resetQuire_shellKept (s : State) (q : QNum) : s.ShellKept (s.resetQuire q) :=
  .ite (.refl s) (.trans (s.stopForReset_shellKept q) (State.releaseForReset_shellKept _ q false))

theorem State.resetQuire_released (s : State) (q : QNum) (hc : s.Canonical) (h : (s.quire q).state ≠ .resetting) :
    ∃ tr, ∃ u : State, u.quire q = Quire.resets { s.quire q with runs := [], train := tr } ∧
      u.Released q (s.resetQuire q) := by
  obtain ⟨tr, htr⟩ := s.stopForReset_quire_eq q h
  refine ⟨tr, s.stopForReset q, htr, ?_⟩
  rw [State.resetQuire, if_neg h]
  refine State.releaseForReset_released _ q ((State.Keeps.refl s).stopForReset.canonical hc) ?_ ?_
  · rw [htr]; rfl
  · rw [htr]; rfl

theorem quireResetClause : QuireResetClause := by
  intro s role q hs hinv hallowed
  refine ⟨fun h => exec_qReset_of_write hs hallowed (if_pos h) (by decide), fun h hidle => ?_⟩
  have hwrite : qResetWrite q s = (DS.ok, (s.cmdStart (Key.qReset q)).resetQuire q) := by
    rw [qResetWrite, if_neg h, State.ifIdle_of_idle _ _ _ hidle]
  have hcanon := (State.Keeps.refl s).cmdStart (k := Key.qReset q) |>.canonical (s.canonical_iff.2 hinv)
  obtain ⟨tr, u, hu, hreleased⟩ := (s.cmdStart (Key.qReset q)).resetQuire_released q hcanon h
  have hcmd := ((s.cmdStart (Key.qReset q)).resetQuire_shellKept q).cmd (endsWithReset_qReset q)
  obtain ⟨hquire, hhandles, hjob⟩ := hreleased
  rw [hu] at hquire
  obtain ⟨hstate, hruns, hstarted, hheld, hfetched, hcount⟩ :=
    Quire.resets_of { s.quire q with runs := [], train := tr }
  generalize (s.cmdStart (Key.qReset q)).resetQuire q = v at hwrite hquire hhandles hjob hcmd
  have hanswered : (v.answer DS.ok).quire q = v.quire q := rfl
  refine ⟨_, exec_qReset_of_write hs hallowed hwrite (by decide), ?_⟩
  rw [hanswered, hquire]
  exact ⟨hstate, hruns, hstarted, hheld, hfetched, rfl, hcount, hhandles, hjob,
    (congrArg CmdBlock.state hcmd).trans (congrArg CmdBlock.state (State.cmdStart_cmd _))⟩

/-- Settles O20: each command answers what its operation answers; a reset stops the quire's work, then releases its
stitches, handles and leaves. -/
theorem quireEnableAndReset : Obligations.QuireEnableAndReset := ⟨quireEnableClause, quireResetClause⟩

end Sys2Proof.Machine
end

section
/-! PROOFS. Entry into a sleep state and exit from it (18, R855 to R862). -/

namespace Sys2Proof.Machine

variable {s t u : State}

/-! ### The latency and the sentinel (R863, R795) -/

theorem State.reportLtr_eq (s : State) (always : Bool) : ∃ f o, s.reportLtr always = { s with fn := f, out := o } := by
  unfold State.reportLtr
  split
  · exact ⟨_, _, rfl⟩
  · exact ⟨s.fn, s.out, rfl⟩

theorem State.tryListen_eq (s : State) : ∃ x, s.tryListen = s ∨ s.tryListen = (s.setSent x).wr Key.sentState 2 := by
  refine (em _).elim (fun h => ⟨_, .inr (if_pos h)⟩) fun h => ⟨s.sent, .inl (if_neg h)⟩

/-- Where the sentinel may start to listen, its state is the one register that changes. -/
theorem State.tryListen_frame (hwf : valsWf s.sku 0 s.dict.vals = true) : ∃ x d,
    s.tryListen = { s with sent := x, dict := d } ∧
    valsWf s.sku 0 d.vals = true ∧ ∀ k, k ≠ Key.sentState → s.tryListen.rd k = s.rd k := by
  obtain ⟨x, h | h⟩ := s.tryListen_eq
  · exact ⟨s.sent, s.dict, h, hwf, fun k _ => by rw [h]⟩
  · refine ⟨x, _, h, State.wr_wf (s.setSent x) _ _ hwf, fun k hk => ?_⟩
    rw [h, State.rd_wr_other (s := s.setSent x) hwf _ hk]
    rfl

/-! ### Waking (R861, R862) -/

/-- The core domain is powered, and its oscillators run. -/
def State.corePowered (s : State) : State :=
  { s with
    power := .sIdle, pm := { s.pm with waking := true, demand := false },
    clk := { s.clk with lowOsc := true, quickOsc := true },
    sent := { s.sent with settling := s.sent.settling || s.listening } }

theorem State.leaveSleep_of_demand (hcore : s.coreOn = false) (hrun : s.running = true) (hdemand : s.pm.demand = true) :
    s.leaveSleep = if s.corePowered.reportLtr.tryListen.clkinSeen then s.corePowered.reportLtr.tryListen.startPlls
      else s.corePowered.reportLtr.tryListen.holdWake :=
  if_neg (by simp [hcore, hrun, hdemand])

/-- The quires' wakes are none while no quire is enabled. -/
theorem State.forQ_wakeIfNeeded_of_none (h : ∀ q, (s.quire q).state ≠ .enabled ∧ (s.quire q).state ≠ .running) :
    s.forQ State.wakeIfNeeded = s :=
  List.foldlRecOn (motive := fun t : State => t = s) allQ _ rfl fun t ht q _ => by
    rw [ht, State.wakeIfNeeded]
    exact if_neg fun hc => hc.1.elim (h q).1 (h q).2

theorem State.serveHeld_of_none (h : s.pm.held = []) : s.serveHeld = s := by
  have hself : s.setPm { s.pm with held := [] } = s := by rw [← h]; rfl
  unfold State.serveHeld
  rw [h, hself]
  exact ite_self s

theorem sleepExitClause : SleepExitClause := by
  intro s hinv hheld
  obtain ⟨hwf, -, -⟩ := hinv
  refine ⟨fun h => ?stays, fun hcore hrun hdemand => ?woken⟩
  case stays =>
    have hleave : s.leaveSleep = s := if_pos (by simpa using h)
    show Host.Outcome.next (wakeFromSleep s) = _
    rw [wakeFromSleep, hleave, State.serveHeld_of_none hheld]
  case woken =>
    obtain ⟨f, o, hltr⟩ := s.corePowered.reportLtr_eq false
    obtain ⟨x, d, hlisten, hwf', hrd⟩ := State.tryListen_frame (s := s.corePowered.reportLtr) (by rw [hltr]; exact hwf)
    have hleave := State.leaveSleep_of_demand hcore hrun hdemand
    have hsame : s.corePowered.reportLtr.tryListen.rd Key.clkinWaits = s.rd Key.clkinWaits :=
      (hrd _ (by decide)).trans (by rw [hltr]; rfl)
    rw [hlisten, hltr] at hleave hsame
    rw [hltr] at hwf'
    refine ⟨fun hclk hreset hquires => ?lit, fun hclk => ?dark⟩
    case lit =>
      rw [if_pos, State.startPlls, State.forQ_wakeIfNeeded_of_none (by exact hquires)] at hleave
      · refine ⟨_, congrArg Host.Outcome.next ((congrArg State.serveHeld hleave).trans (State.serveHeld_of_none hheld)),
          ⟨rfl, rfl, rfl, rfl, rfl, rfl, rfl, rfl, rfl⟩, rfl, rfl, hsame⟩
      · show (s.pins.clkin && true && true && !s.heldInReset) = true
        rw [hclk, hreset]
        rfl
    case dark =>
      have hseen : ¬ (s.pins.clkin && true && true && !s.heldInReset) = true := by simp [hclk]
      rw [if_neg (by exact hseen), State.holdWake] at hleave
      split at hleave
      · next hwait =>
        refine ⟨_, congrArg Host.Outcome.next ((congrArg State.serveHeld hleave).trans (State.serveHeld_of_none hheld)),
          ⟨rfl, rfl, rfl, rfl, rfl, rfl, rfl, rfl, rfl⟩, rfl, rfl, hwait, ?_⟩
        exact hsame.trans (if_pos hwait).symm
      · next hwait =>
        refine ⟨_, congrArg Host.Outcome.next ((congrArg State.serveHeld hleave).trans (State.serveHeld_of_none hheld)),
          ⟨rfl, rfl, rfl, rfl, rfl, rfl, rfl, rfl, rfl⟩, rfl, rfl, rfl, ?_⟩
        refine (State.rd_wr_same (by exact hwf') _ _).trans ?_
        rw [State.maxOf_clkinWaits, if_neg (by exact hwait)]
        exact congrArg (fun n => min (n + 1) 0xFFFFFFFF) hsame

/-! ### PWR_REQUEST (R855) -/

/-- The card of PWR_REQUEST. -/
def pwrRequestCard : Card := ⟨.abs, 0x1401, 0x1401, 0, 0, .cmd 1 4, .cmd, .h, .h, .v, .cold, 0⟩

theorem cardOf_pwrRequest (sku : Sku) : cardOf sku 0x1401 0 = some pwrRequestCard := by
  cases sku <;> decide

theorem keyRequest_pwrRequest {role : Role} {v : Byte} {st : Nat} (hs : Serving s) (hallowed : Allowed s role Key.pwrRequest 1)
    (hwrite : pwrRequestWrite [v] s = (st, t)) (hst : st ≠ DS.role) :
    keyRequest role Key.pwrRequest [v] s = .next (t.answer st) := by
  have hcard := cardOf_pwrRequest s.sku
  refine nextOf (dictRequest_of_cold (s.attends_of_serving hs) hallowed hcard rfl ?_ hst)
  rw [serveWrite_of_open pwrRequestCard _ {} false s rfl (s.recoveryBars_of_serving _ hs) rfl rfl]
  have hmember : setOfMember s.sku (writeOf role (Key.pwrRequest / 256) (Key.pwrRequest % 256) [v]).idx
      (writeOf role (Key.pwrRequest / 256) (Key.pwrRequest % 256) [v]).sub = none :=
    setOfMember_of_not_rs _ _ _ pwrRequestCard hcard rfl
  unfold serveOp
  rw [hmember]
  exact hwrite

/-- No quire runs, the press is idle and no leaf awaits zeroing (R855). -/
def State.SleepReady (s : State) : Prop := (∀ q, s.quiesced q = true) ∧ s.pressBusy = false ∧ s.tiers.jobs = []

theorem State.not_sleepReady_iff (s : State) :
    ¬ s.SleepReady ↔ (∃ q, s.quiesced q = false) ∨ s.pressBusy = true ∨ s.tiers.jobs ≠ [] := by
  simp only [State.SleepReady, not_and_or, not_forall, Bool.not_eq_true, Bool.not_eq_false, ne_eq]

theorem State.sleepBusy_iff (s : State) :
    (!(allQ.all fun q => s.quiesced q) || s.pressBusy || !s.tiers.jobs.isEmpty) = true ↔ ¬ s.SleepReady := by
  have hall : (allQ.all fun q => s.quiesced q) = true ↔ ∀ q, s.quiesced q = true := by
    rw [List.all_eq_true]
    exact ⟨fun hq q => hq q (by revert q; decide), fun hq q _ => hq q⟩
  rw [State.SleepReady, ← hall]
  cases allQ.all fun q => s.quiesced q <;> cases s.pressBusy <;> simp

/-- The request is running, and the entry under way. -/
def State.startEntering (s : State) (toSent : Bool) : State :=
  (s.cmdStart Key.pwrRequest).setPm { s.pm with entry := some { toSent := toSent } }

theorem pwrRequestWrite_of_busy {v : Byte} (hv : v = 1 ∨ v = 2 ∧ s.sentStateNow = 2) (h : ¬ s.SleepReady) :
    pwrRequestWrite [v] s = (DS.busy, s) := by
  have hbusy := s.sleepBusy_iff.2 h
  unfold pwrRequestWrite
  obtain rfl | ⟨rfl, hlistens⟩ := hv
  · exact (if_neg (by decide)).trans ((if_neg (by simp [fieldLe_byte])).trans (if_pos hbusy))
  · exact (if_neg (by decide)).trans ((if_neg (by simp [hlistens])).trans (if_pos hbusy))

/-- An accepted request, with nothing held behind it, proceeds as far as the sentinel lets it. -/
theorem pwrRequestWrite_of_ready {v : Byte} (hv : v = 1 ∨ v = 2 ∧ s.sentStateNow = 2) (h : s.SleepReady)
    (hidle : s.cmdRunning Key.pwrRequest = false) (hcold : s.dict.cold = []) :
    pwrRequestWrite [v] s = (DS.ok, (if v.toNat = 1 ∧ s.listening then
      (s.startEntering (v.toNat == 2)).setSent { s.sent with stopAtEnd := true }
      else s.startEntering (v.toNat == 2)).stepEntry) := by
  have hready : ¬ (!(allQ.all fun q => s.quiesced q) || s.pressBusy || !s.tiers.jobs.isEmpty) = true :=
    fun hbusy => s.sleepBusy_iff.1 hbusy h
  have hknown : ¬ (v.toNat ≠ 1 ∧ v.toNat ≠ 2) := by
    obtain rfl | ⟨rfl, -⟩ := hv <;> decide
  have hlistens : ¬ (v.toNat = 2 ∧ s.sentStateNow ≠ 2) := by
    obtain rfl | ⟨rfl, hlistens⟩ := hv
    · exact fun h => absurd h.1 (by decide)
    · exact fun h => h.2 hlistens
  unfold pwrRequestWrite
  dsimp only
  rw [fieldLe_byte, if_neg hknown, if_neg hlistens, if_neg hready, State.ifIdle_of_idle _ _ _ hidle]
  have hgo : ∀ u : State, u.dict.cold = [] →
      (if u.dict.cold = [] then u.stepEntry else u.abandonEntry 0x05 0xFF) = u.stepEntry :=
    fun u hu => if_pos hu
  refine congrArg (Prod.mk DS.ok) ((hgo _ ?_).trans rfl)
  split <;> exact hcold

/-! ### The sleep state (R60, R856, R860) -/

/-- No UNIFIED leaf is homed in the commons, so none has to be demoted (R858). -/
theorem State.demoteAll_of_none (h : ∀ q, (s.quire q).unified = []) : s.demoteAll = (s, none) := by
  unfold State.demoteAll
  refine List.foldlRecOn (motive := fun p : State × Option QNum => p = (s, none)) allQ _ rfl fun p hp q _ => ?_
  rw [hp, h q]
  rfl

theorem State.settleTiers_of_none (h : s.tiers.jobs = []) : s.settleTiers = s := by
  unfold State.settleTiers
  rw [h]
  show s.setTiers { s.tiers with jobs := [] } = s
  rw [← h]
  rfl

/-- What is left of the machine in a sleep state. -/
structure State.Asleep (s t : State) (toSent : Bool) : Prop where
  power : t.power = if toSent then .sSent else .sRet
  bays : ∀ b, (t.bay b).power = .off
  tiers : t.tiers = { s.tiers with
    slices := Vector.replicate 8 [], commons := [], pool := [], xo := s.tiers.xo.filter fun x => !x.1.isT1 }
  kept : t.st = s.st ∧ t.quires = s.quires ∧ t.nv.lib = s.nv.lib
  cmd : (t.cmd Key.pwrRequest).state = .done ∧ (t.cmd Key.pwrRequest).result = DS.ok
  vals : t.dict.vals = ((s.wr Key.pwrVsel 0).count (if toSent then Key.pwrSentEntries else Key.pwrRetEntries)).dict.vals
  sku : t.sku = s.sku

theorem State.count_cmd (s : State) (k n j : Nat) : (s.count k n).cmd j = s.cmd j := rfl

/-- What a count writes is a matter of the value table and the SKU. -/
theorem State.count_vals_congr (hvals : t.dict.vals = s.dict.vals) (hsku : t.sku = s.sku) {k n : Nat} :
    (t.count k n).dict.vals = (s.count k n).dict.vals := by
  have hmax : t.maxOf k = s.maxOf k := by rw [State.maxOf, State.maxOf, hsku]
  have hrd : t.rd k = s.rd k := State.rd_of_vals hvals hsku k
  show Tab.put t.dict.vals k (if min (t.rd k + n) (t.maxOf k) = dfltVal t.sku k then none else
    some (min (t.rd k + n) (t.maxOf k))) = _
  rw [hmax, hrd, hvals, hsku]
  rfl

theorem State.Asleep.answer {toSent : Bool} (h : s.Asleep t toSent) (st : Nat) : s.Asleep (t.answer st) toSent :=
  ⟨h.power, h.bays, h.tiers, h.kept, h.cmd, h.vals, h.sku⟩

theorem State.Asleep.reportLtr {toSent always : Bool} (h : s.Asleep t toSent) : s.Asleep (t.reportLtr always) toSent := by
  obtain ⟨f, o, hltr⟩ := t.reportLtr_eq always
  rw [hltr]
  exact ⟨h.power, h.bays, h.tiers, h.kept, h.cmd, h.vals, h.sku⟩

theorem State.enterSleep_asleep (h : s.tiers.jobs = []) (toSent : Bool) : s.Asleep (s.enterSleep toSent) toSent := by
  have hoff := fun b => (s.loseT1.checkpoint).forB_modBay_bay Bay.switchOff b
  obtain ⟨v, hv⟩ := State.forB_bays (f := State.bayOff) (fun t b => ⟨_, rfl⟩) s.loseT1.checkpoint
  have hbays : ∀ b, (v.get b).power = .off := fun b => by
    have hb := hoff b
    rw [show (s.loseT1.checkpoint.forB fun s b => s.modBay b Bay.switchOff) = _ from hv] at hb
    exact congrArg Bay.power hb
  unfold State.enterSleep
  rw [State.settleTiers_of_none h]
  dsimp only
  rw [hv]
  refine State.Asleep.reportLtr ⟨?_, ?_, ?_, ?_, ?_, State.count_vals_congr ?_ ?_, ?_⟩
  case refine_5 =>
    rw [State.count_cmd, State.cmdDone_cmd]
    exact ⟨rfl, rfl⟩
  all_goals dsimp only [State.count, State.wr, State.setDict, State.cmdDone, State.setCmd, State.setPm, State.setSent,
    State.setClk, State.checkpoint, State.setNv, State.loseT1, State.setTiers, State.fresh]
  · exact hbays
  · exact ⟨rfl, rfl, rfl⟩

theorem State.stepEntry_enters {toSent : Bool} (hentry : s.pm.entry = some { toSent := toSent })
    (hframe : toSent = true ∨ s.listening = false) (hdetect : s.sent.detect = none) (hnone : ∀ q, (s.quire q).unified = []) :
    s.stepEntry = s.enterSleep toSent := by
  have hgo : ¬ ((!toSent && s.listening) || s.sent.detect.isSome) = true := by
    obtain h | h := hframe <;> simp [h, hdetect]
  unfold State.stepEntry
  rw [hentry]
  dsimp only
  rw [if_neg hgo, State.demoteAll_of_none hnone]

theorem State.stepEntry_waits (hentry : s.pm.entry = some { toSent := false }) (hlistens : s.listening = true) :
    s.stepEntry = s := by
  unfold State.stepEntry
  rw [hentry]
  exact if_pos (by simp [hlistens])

/-- In a sleep state only the AON domain and its low oscillator are powered (R60). -/
theorem State.Asleep.domainOn {toSent : Bool} (h : s.Asleep t toSent) {d : Domain} (hd : t.domainOn d = true) :
    d = .aon ∨ d = .lowOsc := by
  have hcore : t.coreOn = false := by
    rw [State.coreOn, h.power]
    cases toSent <;> rfl
  cases d with
  | aon => exact .inl rfl
  | lowOsc => exact .inr rfl
  | core => exact absurd (hcore.symm.trans hd) (by decide)
  | sram => exact absurd (hcore.symm.trans hd) (by decide)
  | nv => simp [State.domainOn, hcore] at hd
  | bay b => simp [State.domainOn, Bay.powered, h.bays b] at hd

theorem State.Asleep.leaves {toSent : Bool} (h : s.Asleep t toSent) : (∀ b n, t.leaf (.slice b) n = []) ∧
    (∀ n, t.leaf .commons n = [] ∧ t.leaf .t2 n = s.leaf .t2 n) ∧ t.tiers.extents = s.tiers.extents ∧
    t.tiers.pool = [] := by
  refine ⟨fun b n => ?_, fun n => ⟨?_, ?_⟩, ?_, ?_⟩
  · have hslice : t.tiers.slices.get b = [] := by
      rw [h.tiers]
      exact Vector.getElem_replicate ..
    show Mem.leaf (t.tiers.slices.get b) n = []
    rw [hslice]
    rfl
  · show Mem.leaf t.tiers.commons n = []
    rw [h.tiers]
    rfl
  · show Mem.leaf t.tiers.t2 n = _
    rw [h.tiers]
    rfl
  · rw [h.tiers]
  · rw [h.tiers]

theorem State.maxOf_sleepEntries (s : State) (toSent : Bool) :
    s.maxOf (if toSent then Key.pwrSentEntries else Key.pwrRetEntries) = 0xFFFFFFFF := by
  cases toSent <;> exact s.maxOf_of_card fun sku => by cases sku <;> decide

/-- The voltage is off, the entry is counted, and no other value changes. -/
theorem State.Asleep.rd {toSent : Bool} (h : s.Asleep t toSent) (hwf : valsWf s.sku 0 s.dict.vals = true) (k : Nat) :
    t.rd k = if k = (if toSent then Key.pwrSentEntries else Key.pwrRetEntries) then min (s.rd k + 1) 0xFFFFFFFF
      else if k = Key.pwrVsel then 0 else s.rd k := by
  have hne : (if toSent then Key.pwrSentEntries else Key.pwrRetEntries) ≠ Key.pwrVsel := by cases toSent <;> decide
  have hmax := State.maxOf_sleepEntries (s.wr Key.pwrVsel 0) toSent
  have hrd := State.rd_of_vals h.vals (h.sku.trans rfl) k
  generalize (if toSent then Key.pwrSentEntries else Key.pwrRetEntries) = c at hne hmax hrd ⊢
  rw [hrd, State.count, State.rd_wr _ _ _ _ (s.wr_wf _ _ hwf), hmax, State.rd_wr_other hwf _ hne]
  by_cases hk : k = c
  · rw [if_pos hk, if_pos hk, hk]
  · rw [if_neg hk, if_neg hk, s.rd_wr _ _ _ hwf]

theorem sleepEntryClause : SleepEntryClause := by
  intro s role hs hinv hallowed busy asleep free
  obtain ⟨hwf, -, -⟩ := hinv
  obtain ⟨-, -, -, -, -, hcold, -⟩ := id hs
  have hready (h : free) : s.SleepReady ∧ s.cmdRunning Key.pwrRequest = false ∧ (∀ q, (s.quire q).unified = []) ∧
      s.sent.detect = none := ⟨not_not.1 fun hn => h.1 (s.not_sleepReady_iff.1 hn), h.2⟩
  have hasleep {t : State} (toSent : Bool) (h : (s.startEntering toSent).Asleep t toSent) : asleep t := by
    obtain ⟨hslices, hleaves, hext, hpool⟩ := h.leaves
    have hrd := h.rd hwf Key.pwrVsel
    refine ⟨h.cmd.1, h.cmd.2, h.bays, ?_, hslices, hleaves, hext, hpool, h.kept.1, h.kept.2.1, h.kept.2.2,
      fun d => h.domainOn⟩
    rw [hrd]
    cases toSent <;> rfl
  refine ⟨fun h => ?notListening, fun h => ⟨?ret, fun hsent => ?sent⟩, fun h hquiet => ?entersRet, 
    fun h hsent hheld => ?entersSent, fun h hsent hheld => ?waits⟩
  case notListening =>
    have hwrite : pwrRequestWrite [2] s = (DS.state, s) := by
      unfold pwrRequestWrite
      exact (if_neg (by decide)).trans (if_pos ⟨rfl, h⟩)
    exact keyRequest_pwrRequest hs hallowed hwrite (by decide)
  case ret => exact keyRequest_pwrRequest hs hallowed (pwrRequestWrite_of_busy (.inl rfl) (s.not_sleepReady_iff.2 h)) (by decide)
  case sent =>
    exact keyRequest_pwrRequest hs hallowed (pwrRequestWrite_of_busy (.inr ⟨rfl, hsent⟩) (s.not_sleepReady_iff.2 h))
      (by decide)
  case entersRet =>
    obtain ⟨hrest, hidle, hnone, hdetect⟩ := hready h
    have hwrite := pwrRequestWrite_of_ready (.inl rfl) hrest hidle hcold
    rw [if_neg (by simp [hquiet])] at hwrite
    have henters := State.stepEntry_enters (s := s.startEntering false) rfl (.inr hquiet) hdetect hnone
    have ht := (State.enterSleep_asleep (s := s.startEntering false) hrest.2.2 false).answer DS.ok
    rw [← henters] at ht
    exact ⟨_, keyRequest_pwrRequest hs hallowed hwrite (by decide), ht.power, hasleep false ht, ht.rd hwf _, ht.rd hwf _⟩
  case entersSent =>
    obtain ⟨hrest, hidle, hnone, hdetect⟩ := hready h
    have hnow : s.sentStateNow = 2 := by rw [State.sentStateNow, hheld]; exact hsent
    have hwrite := pwrRequestWrite_of_ready (.inr ⟨rfl, hnow⟩) hrest hidle hcold
    rw [if_neg (fun hc => absurd hc.1 (by decide))] at hwrite
    have henters := State.stepEntry_enters (s := s.startEntering true) rfl (.inl rfl) hdetect hnone
    have ht := (State.enterSleep_asleep (s := s.startEntering true) hrest.2.2 true).answer DS.ok
    rw [← henters] at ht
    exact ⟨_, keyRequest_pwrRequest hs hallowed hwrite (by decide), ht.power, hasleep true ht, ht.rd hwf _,
      (ht.rd hwf _).trans hsent⟩
  case waits =>
    obtain ⟨hrest, hidle, -, -⟩ := hready h
    have hlistens : s.listening = true := by simp [State.listening, hsent]
    have hwrite := pwrRequestWrite_of_ready (.inl rfl) hrest hidle hcold
    rw [if_pos ⟨rfl, hlistens⟩, State.stepEntry_waits rfl (by exact hlistens)] at hwrite
    refine ⟨_, keyRequest_pwrRequest hs hallowed hwrite (by decide), rfl, rfl, rfl, ?_, rfl⟩
    exact congrArg CmdBlock.state (State.cmdStart_cmd (s := s) _)

/-- Settles O47: the entry is the sleep state of R60 where no leaf has to be demoted and no frame is under way; the exit
powers the core domain, and the clock decides between the PLLs and the held wake. -/
theorem sleepAndWake : Obligations.SleepAndWake := ⟨sleepEntryClause, sleepExitClause⟩

end Sys2Proof.Machine
end

section
/-! PROOFS. Profile restore and the profile switch (05, R207, R212 to R219). -/

namespace Sys2Proof.Machine

variable {s t u : State}

/-! ### What the steps of a switch leave (R214, R217, R218) -/

/-- The entries other than those that say which profile is active and in which phase a switch is. -/
def besideSwitch (k : Nat) : Prop := k ≠ Key.activeProfile ∧ k ≠ Key.switchPhase

/-- `t` keeps the weave, the stitches, the tiers, the library, the partition, the switch and its command, and the two entries
that speak of it. -/
structure State.SwitchKept (s t : State) : Prop where
  weave : t.weave = s.weave
  st : t.st = s.st
  tiers : t.tiers = s.tiers
  lib : t.nv.lib = s.nv.lib
  part : t.part = s.part
  switch : t.switch = s.switch
  cmd : t.cmd Key.profileSwitch = s.cmd Key.profileSwitch
  regs : s.RegsKept besideSwitch t

namespace State.SwitchKept

theorem refl (s : State) : s.SwitchKept s := ⟨rfl, rfl, rfl, rfl, rfl, rfl, rfl, .of_eq rfl rfl⟩

theorem trans (h : s.SwitchKept t) (h' : t.SwitchKept u) : s.SwitchKept u :=
  ⟨h'.weave.trans h.weave, h'.st.trans h.st, h'.tiers.trans h.tiers, h'.lib.trans h.lib, h'.part.trans h.part,
    h'.switch.trans h.switch, h'.cmd.trans h.cmd, h.regs.trans h'.regs⟩

theorem foldl {α : Type} {f : State → α → State} {l : List α} (h : s.SwitchKept t) (hf : ∀ (u : State) (a : α),
    u.SwitchKept (f u a)) :
    s.SwitchKept (l.foldl f t) := List.foldlRecOn (motive := fun u => s.SwitchKept u) l f h fun u hu a _ => hu.trans (hf u a)

theorem ite {c : Prop} [Decidable c] (ht : s.SwitchKept t) (hu : s.SwitchKept u) : s.SwitchKept (if c then t else u) := by
  split
  · exact ht
  · exact hu

/-- An update of the quires, the bays, the clocks, the power state or the sentinel. -/
theorem of_rest (s : State) {quires : Vector Quire 8} {bays : Vector Bay 8} {clk : Clocks} {power : PowerState} {sent :
    Sentinel} :
    s.SwitchKept { s with quires := quires, bays := bays, clk := clk, power := power, sent := sent } :=
  ⟨rfl, rfl, rfl, rfl, rfl, rfl, rfl, .of_eq rfl rfl⟩

theorem wr {k : Nat} (h : s.SwitchKept t) (v : Nat) (hk : besideSwitch k) : s.SwitchKept (t.wr k v) :=
  h.trans ⟨rfl, rfl, rfl, rfl, rfl, rfl, rfl, t.wr_regsKept v hk⟩

theorem count {k : Nat} (h : s.SwitchKept t) (hk : besideSwitch k) : s.SwitchKept (t.count k) := h.wr _ hk

theorem wrs {l : List (Nat × Nat)} (h : s.SwitchKept t) (hl : ∀ p ∈ l, besideSwitch p.1) : s.SwitchKept (t.wrs l) :=
  List.foldlRecOn (motive := fun u => s.SwitchKept u) l _ h fun _ hu p hp => hu.wr p.2 (hl p hp)

theorem cmdDone {k : Nat} (h : s.SwitchKept t) (hk : Key.profileSwitch ≠ k) (result : Nat) (card : List Byte) :
    s.SwitchKept (t.cmdDone k result card) :=
  h.trans ⟨rfl, rfl, rfl, rfl, rfl, rfl, State.cmdDone_cmd_ne _ hk _ _, .of_eq rfl rfl⟩

theorem setSet {staged : Tab Nat} {sets : Tab SetState} (h : s.SwitchKept t) :
    s.SwitchKept (t.setDict { t.dict with staged := staged, sets := sets }) :=
  h.trans ⟨rfl, rfl, rfl, rfl, rfl, rfl, rfl, .of_eq rfl rfl⟩

theorem wrStored {k : Nat} (h : s.SwitchKept t) (v : Nat) (hk : besideSwitch k) : s.SwitchKept (t.wrStored k v) := by
  have hrec := t.wrStored_recordsOnly k v
  have hch := t.wrStored_changesOnly k v
  obtain ⟨recs, units, hnv⟩ := hrec.nv
  refine h.trans ⟨by rw [hch.frame], by rw [hch.frame], by rw [hch.frame], by rw [hnv]; rfl, by rw [hch.frame],
      by rw [hch.frame],
    ?_, ⟨hch.wf, fun hwf j hj => hch.rd hwf j fun hmem => hj ?_⟩⟩
  · rw [State.cmd, hrec.cmds]
    rfl
  · obtain rfl | hmem := List.mem_cons.1 hmem
    · exact hk
    · have hparam : ∀ j ∈ paramStatus, besideSwitch j := by
        unfold besideSwitch
        decide
      exact hparam j hmem

end State.SwitchKept

/-! ### Voltage, wakes and the sentinel (R43, R799, R837) -/

theorem State.fixPower_switchKept (s : State) : s.SwitchKept s.fixPower := .ite (.of_rest s) (.refl s)

theorem State.forB_switchKept (s : State) {f : State → BayNum → State} (hf : ∀ (s : State) b, s.SwitchKept (f s b)) :
    s.SwitchKept (s.forB f) :=
  .foldl (.refl s) hf

theorem State.lowerSteps_switchKept (s : State) : s.SwitchKept s.lowerSteps :=
  s.forB_switchKept fun t _ => .ite (.of_rest t) (.refl t)

theorem State.applySteps_switchKept (s : State) (code : Nat) : s.SwitchKept (s.applySteps code) :=
  s.forB_switchKept fun t _ => .ite (.of_rest t) (.refl t)

theorem besideSwitch_pwrVsel : besideSwitch Key.pwrVsel := by unfold besideSwitch; decide

theorem State.updateVsel_switchKept (s : State) : s.SwitchKept s.updateVsel := by
  refine .ite (.trans (s.lowerSteps_switchKept.wr _ besideSwitch_pwrVsel) (.of_rest _)) ?_
  have hsteps := SwitchKept.wr (.ite (c := s.clk.settling = true) s.lowerSteps_switchKept (s.applySteps_switchKept
      s.neededVsel))
    s.neededVsel besideSwitch_pwrVsel
  exact .ite (hsteps.trans (.of_rest _)) hsteps

theorem State.holdWake_switchKept (s : State) : s.SwitchKept s.holdWake :=
  .ite (.refl s) (.count (.of_rest s) (by unfold besideSwitch; decide))

theorem State.powerBays_switchKept (s : State) (q : QNum) : s.SwitchKept (s.powerBays q) :=
  .ite s.holdWake_switchKept (.trans (.trans (.foldl (.refl s) fun t _ => .of_rest t) (.of_rest _))
      (State.updateVsel_switchKept _))

theorem besideSwitch_qWakesRefused (q : QNum) : besideSwitch (Key.qWakesRefused q) := by
  unfold besideSwitch
  revert q
  decide

theorem besideSwitch_qWakes (q : QNum) : besideSwitch (Key.qWakes q) := by
  unfold besideSwitch
  revert q
  decide

theorem State.answerWake_switchKept (s : State) (q : QNum) : s.SwitchKept (s.answerWake q) :=
  .ite (.refl s) (.ite (.count (.of_rest s) (besideSwitch_qWakesRefused q)) (s.powerBays_switchKept q))

theorem State.sendWake_switchKept (s : State) (q : QNum) : s.SwitchKept (s.sendWake q) := by
  have hcount := (SwitchKept.refl s).count (besideSwitch_qWakes q)
  exact .ite (hcount.trans (.of_rest _)) (.ite (.count (hcount.trans (.of_rest _)) (besideSwitch_qWakesRefused q))
    ((hcount.trans (.of_rest _)).trans (State.powerBays_switchKept _ q)))

theorem State.resumeQuires_switchKept (s : State) : s.SwitchKept s.resumeQuires :=
  .foldl (.foldl (.refl s) State.answerWake_switchKept) fun t q => .ite (t.sendWake_switchKept q) (.refl t)

theorem State.tryListen_switchKept (s : State) : s.SwitchKept s.tryListen :=
  .ite (.wr (.of_rest s) _ (by unfold besideSwitch; decide)) (.refl s)

/-! ### The repartition (R214, R216, R837) -/

theorem le_of_mem_profMember (p : Fin 4) : ∀ k ∈ (SetId.prof p).members, 0x121000 ≤ k := by
  have hkeys (b n : Nat) (hb : 0x1210 ≤ b) : ∀ k ∈ subs b n, 0x121000 ≤ k := by
    simp only [subs, List.mem_map, forall_exists_index, and_imp, forall_apply_eq_imp_iff₂, keyOf]
    omega
  have hkey (b : Nat) (hb : 0x1210 ≤ b) : 0x121000 ≤ keyOf b 0 := by
    unfold keyOf
    omega
  simp only [SetId.members, List.forall_mem_append, List.forall_mem_cons, List.not_mem_nil, false_implies, implies_true,
      and_true]
  refine ⟨⟨⟨⟨⟨⟨⟨⟨⟨?_, ?_⟩, ?_⟩, ?_⟩, ?_⟩, ?_⟩, ?_⟩, ?_⟩, ?_⟩, ?_, ?_⟩
  all_goals first | exact hkeys _ _ (by omega) | exact hkey _ (by omega)

theorem besideSwitch_profMember (p : Fin 4) : ∀ k ∈ (SetId.prof p).members, besideSwitch k := by
  intro k hk
  have hle := le_of_mem_profMember p k hk
  unfold besideSwitch Key.activeProfile Key.switchPhase
  omega

theorem State.activate_switchKept (s : State) {k : Nat} (hk : besideSwitch k) : s.SwitchKept (s.activate k) := by
  unfold State.activate
  split
  · exact .ite (.wrStored (.refl s) _ hk) (.wr (.refl s) _ hk)
  · exact .refl s

theorem State.unstage_switchKept (s : State) (i : SetId) : s.SwitchKept (s.unstage i) := by
  exact SwitchKept.setSet (SwitchKept.setSet (.refl s))

theorem SetId.commit_ne_profileSwitch (i : SetId) : Key.profileSwitch ≠ i.commit := by
  cases i with
  | prof p => revert p; decide
  | ring q => revert q; decide
  | stitch q => revert q; decide
  | tier q => revert q; decide
  | power => decide

theorem State.applySet_prof (s : State) (p : Fin 4) :
    s.applySet (.prof p) = (SetId.prof p).members.foldl State.activate s := by
  unfold State.applySet
  rfl

theorem State.safePoint_prof_switchKept (s : State) (p : Fin 4) : s.SwitchKept (s.safePoint (.prof p)) := by
  have happlied : s.SwitchKept (s.applySet (.prof p)) := by
    rw [State.applySet_prof]
    exact List.foldlRecOn (motive := fun u => s.SwitchKept u) (SetId.prof p).members _ (.refl s)
      fun u hu k hk => hu.trans (u.activate_switchKept (besideSwitch_profMember p k hk))
  exact .ite (.cmdDone (happlied.trans (State.unstage_switchKept _ _)) (SetId.commit_ne_profileSwitch _) _ _) (.refl s)

theorem State.discardSet_switchKept (s : State) (i : SetId) : s.SwitchKept (s.discardSet i) :=
  .ite (.cmdDone (s.unstage_switchKept i) i.commit_ne_profileSwitch _ _) (s.unstage_switchKept i)

theorem State.refuseT2_switchKept (s : State) : s.SwitchKept s.refuseT2 := by
  exact .wr (.refl s) _ (by unfold besideSwitch; decide)

theorem besideSwitch_qQuota (q : QNum) : besideSwitch (Key.qQuota q 1) ∧ besideSwitch (Key.qQuota q 2) ∧
    besideSwitch (Key.qQuota q 3) ∧ besideSwitch (Key.qQuota q 4) := by
  unfold besideSwitch
  revert q
  decide

theorem State.loadQuotas_switchKept (s : State) (q : QNum) : s.SwitchKept (s.loadQuotas q) := by
  obtain ⟨h1, h2, h3, h4⟩ := besideSwitch_qQuota q
  exact .wr (.wr (.wr (.wr (.refl s) _ h1) _ h2) _ h3) _ h4

theorem State.repartBays_switchKept (s : State) : s.SwitchKept s.repartBays := by
  have hbays : s.SwitchKept (s.forB fun s b => if (s.ownerOf b).isNone then s.bayOff b
      else if (s.bay b).powered then s.modBay b fun x => { x with power := .gated } else s) :=
    s.forB_switchKept fun t b => .ite (.of_rest t) (.ite (.of_rest t) (.refl t))
  exact (hbays.trans (State.fixPower_switchKept _)).trans (State.updateVsel_switchKept _)

theorem State.SwitchKept.ofPart (h : s.SwitchKept t) (n : Nat) :
    ({ s with part := n } : State).SwitchKept { t with part := n } :=
  ⟨h.weave, h.st, h.tiers, h.lib, rfl, h.switch, h.cmd, ⟨h.regs.wf, h.regs.rd⟩⟩

theorem State.repartition_switchKept (s : State) (p : Fin 4) :
    (({ s with part := p.val } : State)).SwitchKept (s.repartition p) := by
  have hsets : s.SwitchKept ((s.safePoint (.prof p)).forQ fun s q => s.discardSet (.tier q)) :=
    .foldl (s.safePoint_prof_switchKept p) fun t q => t.discardSet_switchKept (.tier q)
  have hparted := (hsets.ofPart p.val).trans (State.refuseT2_switchKept _)
  have hloaded := SwitchKept.foldl (l := allQ) hparted State.loadQuotas_switchKept
  exact (hloaded.trans (State.repartBays_switchKept _)).trans (.of_rest _)

/-! No quire is reset (R218). -/

theorem State.activate_quires (s : State) (k : Nat) : (s.activate k).quires = s.quires := by
  unfold State.activate
  split
  · split
    · exact (s.wrStored_recordsOnly _ _).quires
    · rfl
  · rfl

theorem State.cmdDone_quires (s : State) (k result : Nat) (card : List Byte) : (s.cmdDone k result card).quires = s.quires :=
    rfl

theorem State.unstage_quires (s : State) (i : SetId) : (s.unstage i).quires = s.quires := rfl

theorem State.safePoint_prof_quires (s : State) (p : Fin 4) : (s.safePoint (.prof p)).quires = s.quires := by
  have happlied : (s.applySet (.prof p)).quires = s.quires := by
    rw [State.applySet_prof]
    exact List.foldlRecOn (motive := fun u : State => u.quires = s.quires) (SetId.prof p).members _ rfl
      fun u hu k _ => (u.activate_quires k).trans hu
  unfold State.safePoint
  split
  · rw [State.cmdDone_quires, State.unstage_quires, happlied]
  · rfl

theorem State.discardSet_quires (s : State) (i : SetId) : (s.discardSet i).quires = s.quires := by
  unfold State.discardSet
  split <;> rfl

theorem State.fixPower_quires (s : State) : s.fixPower.quires = s.quires := by
  unfold State.fixPower
  split <;> rfl

theorem State.repartSentinel_quires (s : State) : s.repartSentinel.quires = s.quires := rfl

theorem State.repartBays_quires (s : State) : s.repartBays.quires = s.quires := by
  have hbays : (s.forB fun s b => if (s.ownerOf b).isNone then s.bayOff b
      else if (s.bay b).powered then s.modBay b fun x => { x with power := .gated } else s).quires = s.quires :=
    List.foldlRecOn (motive := fun u : State => u.quires = s.quires) allB _ rfl fun u hu b _ => by
      rw [← hu]
      split
      · rfl
      · split <;> rfl
  unfold State.repartBays
  generalize (s.forB fun s b => if (s.ownerOf b).isNone then s.bayOff b
      else if (s.bay b).powered then s.modBay b fun x => { x with power := .gated } else s) = u at hbays ⊢
  rw [(State.updateVsel_governs _).1.frame]
  exact (State.fixPower_quires u).trans hbays

theorem State.repartition_quires (s : State) (p : Fin 4) : (s.repartition p).quires = s.quires := by
  have hsets : ((s.safePoint (.prof p)).forQ fun s q => s.discardSet (.tier q)).quires = s.quires :=
    List.foldlRecOn (motive := fun u : State => u.quires = s.quires) allQ _ (s.safePoint_prof_quires p)
      fun u hu q _ => (u.discardSet_quires (.tier q)).trans hu
  unfold State.repartition
  dsimp only
  generalize (s.safePoint (.prof p)).forQ (fun s q => s.discardSet (.tier q)) = u at hsets
  rw [State.repartSentinel_quires, State.repartBays_quires, ← hsets]
  exact List.foldlRecOn (motive := fun v : State => v.quires = u.quires) allQ _ rfl fun _ hv _ _ => hv

theorem State.switchKept_rd (h : s.SwitchKept t) (hwf : valsWf s.sku 0 s.dict.vals = true) :
    t.rd Key.activeProfile = s.rd Key.activeProfile ∧ t.rd Key.switchPhase = s.rd Key.switchPhase :=
  ⟨h.regs.rd hwf _ fun hk => hk.1 rfl, h.regs.rd hwf _ fun hk => hk.2 rfl⟩

/-- The target is the active profile, and the switch has ended, before the quires go on. -/
def State.resumed (s : State) (w : Switch) : State :=
  (((s.setWeave { s.weave with profile := w.target, lent := [] }).closeSprint.wr Key.activeProfile w.target).endSwitch DS.ok
    w.source w.target w.drainMs)

theorem State.closeSprint_wf (hwf : valsWf s.sku 0 s.dict.vals = true) :
    valsWf s.closeSprint.sku 0 s.closeSprint.dict.vals = true := by
  unfold State.closeSprint
  split
  · exact s.wr_wf _ _ hwf
  · exact hwf

theorem State.closeSprint_weave (s : State) : s.closeSprint.weave = s.weave := by
  unfold State.closeSprint
  split <;> rfl

theorem State.resumed_weave (s : State) (w : Switch) :
    (s.resumed w).weave = { s.weave with profile := w.target, lent := [] } :=
  State.closeSprint_weave (s.setWeave { s.weave with profile := w.target, lent := [] })

theorem State.resumed_wf (hwf : valsWf s.sku 0 s.dict.vals = true) (w : Switch) :
    valsWf (s.resumed w).sku 0 (s.resumed w).dict.vals = true := by
  have hclosed := State.closeSprint_wf (s := s.setWeave { s.weave with profile := w.target, lent := [] }) hwf
  exact State.wr_wf _ Key.switchPhase 0 (State.wr_wf _ Key.activeProfile w.target hclosed)

theorem State.resumed_rd (hwf : valsWf s.sku 0 s.dict.vals = true) (w : Switch) :
    (s.resumed w).rd Key.activeProfile = w.target ∧ (s.resumed w).rd Key.switchPhase = 0 := by
  have hclosed := State.closeSprint_wf (s := s.setWeave { s.weave with profile := w.target, lent := [] }) hwf
  have hwritten := State.wr_wf _ Key.activeProfile w.target hclosed
  exact ⟨(State.rd_wr_other hwritten 0 (show Key.activeProfile ≠ Key.switchPhase by decide)).trans (State.rd_wr_same hclosed
      _ _),
    State.rd_wr_same hwritten _ _⟩

theorem profileSwitchStepsClause : ProfileSwitchStepsClause := by
  intro s w n hinv hswitch hcore htarget
  obtain ⟨hwf, -, -⟩ := hinv
  refine ⟨fun hrep hn hdrained => ?drained, fun hrep hn hbusy => ?limit, fun hrep hslot => ?resumed⟩
  case drained =>
    have hgo : ¬ (w.repartitioned = true ∨ w.limitMs < n ∨ ¬ s.coreOn = true ∨ ¬ (allQ.all fun q => s.drained q) = true) := by
      simp [hrep, hcore, hdrained, hn]
    have hend : switchDrainEnd n s = ({ s.repartition (Fin.ofNat 4 w.target) with switch := some { w with
        drainMs := n, repartitioned := true,
        oldWeave := if w.target = w.source then (upFrom 1 24).map (fun n => s.rd (Key.profWeave w.source n)) else [] } } :
        State).wr Key.switchPhase 3 := by
      unfold switchDrainEnd
      rw [hswitch]
      exact if_neg hgo
    have hkept := s.repartition_switchKept (Fin.ofNat 4 w.target)
    have hquires := s.repartition_quires (Fin.ofNat 4 w.target)
    generalize s.repartition (Fin.ofNat 4 w.target) = u at hend hkept hquires
    refine ⟨_, congrArg Host.Outcome.next hend, ?_, rfl, rfl, State.rd_wr_same (by exact hkept.regs.wf hwf) _ _, hkept.weave,
      congrArg StitchUnit.stitches hkept.st, hkept.tiers, hkept.lib, hquires⟩
    exact hkept.part.trans (Nat.mod_eq_of_lt htarget)
  case limit =>
    have hgo : ¬ (w.repartitioned = true ∨ n < w.limitMs ∨ ¬ s.coreOn = true ∨ (allQ.all fun q => s.drained q) = true) := by
      simp [hrep, hcore, hbusy, hn]
    have hend : switchDrainLimit n s = (s.endSwitch DS.busy w.source w.source n).resumeQuires := by
      unfold switchDrainLimit
      rw [hswitch]
      exact if_neg hgo
    have hkept := State.resumeQuires_switchKept (s.endSwitch DS.busy w.source w.source n)
    rw [← hend] at hkept
    have hcmd := hkept.cmd.trans (State.cmdDone_cmd _ _ _ _)
    exact ⟨_, rfl, hkept.switch, hkept.part, hkept.weave, congrArg CmdBlock.state hcmd, congrArg CmdBlock.result hcmd,
        hkept.tiers⟩
  case resumed =>
    have hgo : ¬ (¬ w.repartitioned = true ∨ s.weave.slot ≠ 0 ∨ ¬ s.coreOn = true) := by simp [hrep, hslot, hcore]
    have hend : switchResume s = (s.resumed w).resumeQuires.tryListen := by
      unfold switchResume
      rw [hswitch]
      exact if_neg hgo
    have hkept := (State.resumeQuires_switchKept (s.resumed w)).trans (State.tryListen_switchKept _)
    rw [← hend] at hkept
    obtain ⟨hactive, hphase⟩ := State.resumed_rd hwf w
    obtain ⟨hrdActive, hrdPhase⟩ := State.switchKept_rd hkept (State.resumed_wf hwf w)
    have hcmd := hkept.cmd.trans (State.cmdDone_cmd _ _ _ _)
    have hweave := congrArg Weave.profile (hkept.weave.trans (State.resumed_weave s w))
    obtain ⟨htiers, hnv, -, -⟩ := frames .switchResume s _ rfl
    exact ⟨_, rfl, hkept.switch, hrdActive.trans hactive, hrdPhase.trans hphase, hweave, congrArg CmdBlock.state hcmd,
      congrArg CmdBlock.result hcmd, htiers rfl, hnv rfl⟩

/-! ### PROFILE_SWITCH as a command (R212, R213) -/

/-- The card of PROFILE_SWITCH. -/
def profileSwitchCard : Card := ⟨.abs, 0x1201, 0x1201, 0, 0, .cmd 4 4, .cmd, .h, .h, .v, .cold, 0⟩

theorem cardOf_profileSwitch (sku : Sku) : cardOf sku 0x1201 0 = some profileSwitchCard := by
  cases sku <;> decide

theorem exec_profileSwitch_of_locked {role : Role} {arg : List Byte} (hs : Serving s)
    (hallowed : Allowed s role Key.profileSwitch arg.length) (hlock : s.rdB Key.profilePinLock = true) :
    exec (.profileSwitch role arg) s = .next (s.answer DS.locked) := by
  have hlocks : s.locks 0x1201 = true := by simp [State.locks, hlock]
  refine nextOf (dictRequest_of_cold (s.attends_of_serving hs) hallowed (cardOf_profileSwitch s.sku) rfl ?_ (by decide))
  exact serveWrite_of_locks _ _ _ _ _ hlocks

theorem exec_profileSwitch_of_write {role : Role} {arg : List Byte} {st : Nat} (hs : Serving s)
    (hallowed : Allowed s role Key.profileSwitch arg.length) (hlock : s.rdB Key.profilePinLock = false)
    (hwrite : profileSwitchWrite arg s = (st, t)) (hst : st ≠ DS.role) :
    exec (.profileSwitch role arg) s = .next (t.answer st) := by
  have hlocks : s.locks 0x1201 = false := by simp [State.locks, hlock]
  have hcard := cardOf_profileSwitch s.sku
  refine nextOf (dictRequest_of_cold (s.attends_of_serving hs) hallowed hcard rfl ?_ hst)
  refine (serveWrite_of_open _ (writeOf role 0x1201 0 arg) {} false s hlocks (s.recoveryBars_of_serving _ hs) rfl rfl).trans ?_
  exact (serveOp_low _ (writeOf role 0x1201 0 arg) {} false s (.inl (show 0x1201 < 0x1210 by decide)) hcard rfl).trans hwrite

/-! ### PROF_RESTORE (R207) -/

/-- The card of PROF_RESTORE. -/
def profRestoreCard : Card := ⟨.prof, 0xe, 0xe, 0, 0, .cmd 0 0, .cmd, .h, .h, .v, .cold, 0⟩

theorem Key.profRestore_index (p : Fin 4) :
    Key.profRestore p.val / 256 = 0x121E + 16 * p.val ∧ Key.profRestore p.val % 256 = 0 := by
  unfold Key.profRestore
  omega

theorem cardOf_profRestore (sku : Sku) (p : Fin 4) : cardOf sku (Key.profRestore p.val / 256) 0 = some profRestoreCard := by
  cases sku <;> revert p <;> decide

/-- The factory contents of a profile are staged. -/
theorem State.foldl_stage_find (k : Nat) (l : List Nat) : ∀ s : State,
    k ∈ l ∨ Tab.find s.dict.staged k = some (dfltVal s.sku k) →
    Tab.find (l.foldl (fun s k => s.stage k (dfltVal s.sku k)) s).dict.staged k = some (dfltVal s.sku k) := by
  induction l with
  | nil => exact fun s h => h.resolve_left List.not_mem_nil
  | cons m l ih =>
    intro s h
    refine ih (s.stage m (dfltVal s.sku m)) ?_
    by_cases hk : k = m
    · subst hk
      exact .inr (Tab.find_put_self _ _ _)
    · refine h.imp (fun hmem => (List.mem_cons.1 hmem).resolve_left hk) fun hfind => ?_
      exact (Tab.find_put_some_ne _ _ hk).trans hfind

theorem State.foldl_stage_eq (l : List Nat) (s : State) :
    ∃ x, l.foldl (fun s k => s.stage k (dfltVal s.sku k)) s = s.setDict { s.dict with staged := x } :=
  List.foldlRecOn (motive := fun u : State => ∃ x, u = s.setDict { s.dict with staged := x }) l _ ⟨s.dict.staged, rfl⟩
    fun u hu k _ => by
      obtain ⟨x, rfl⟩ := hu
      exact ⟨_, rfl⟩

theorem State.setSetState_holder (s : State) (i : SetId) (r : Role) :
    (s.setSetState i { holder := some r, pending := false }).setState i = { holder := some r, pending := false } := by
  have hnot : ({ holder := some r, pending := false } : SetState) ≠ SetState.idle := by simp [SetState.idle]
  show (Tab.find (Tab.set s.dict.sets SetState.idle (i.commit / 256) _) (i.commit / 256)).getD _ = _
  rw [Tab.set, if_neg hnot, Tab.find_put_self]
  rfl

theorem exec_profRestore_of_write {role : Role} {p : Fin 4} {st : Nat} (hs : Serving s)
    (hallowed : Allowed s role (Key.profRestore p.val) 0) (hwrite : profRestoreWrite p role s = (st, t)) (hst : st ≠ DS.role) :
    exec (.profRestore role p) s = .next (t.answer st) := by
  have hcard := cardOf_profRestore s.sku p
  obtain ⟨hidx, hsub⟩ := Key.profRestore_index p
  rw [hidx] at hcard
  rw [Allowed, hidx, hsub] at hallowed
  have hexec : exec (.profRestore role p) s = .next (dictRequest role (0x121E + 16 * p.val) 0 [] {} s) := by
    rw [show exec (.profRestore role p) s = .next (dictRequest role (Key.profRestore p.val / 256) (Key.profRestore p.val % 256)
      [] {} s) from rfl, hidx, hsub]
  refine hexec.trans (nextOf (dictRequest_of_cold (s.attends_of_serving hs) hallowed hcard rfl ?_ hst))
  have hlocks : s.locks (0x121E + 16 * p.val) = false := by
    have hp := p.isLt
    have hne (n : Nat) (hn : n < 0x121E) : (0x121E + 16 * p.val == n) = false := beq_eq_false_iff_ne.2 (by omega)
    simp [State.locks, hne]
  have hcommit : ∀ p : Fin 4, setOfCommit (0x121E + 16 * p.val) = none := by decide
  rw [serveWrite_of_open profRestoreCard _ _ _ s hlocks (s.recoveryBars_of_serving _ hs) rfl rfl]
  unfold serveOp
  rw [show (writeOf role (0x121E + 16 * p.val) 0 []).idx = 0x121E + 16 * p.val from rfl,
    show (writeOf role (0x121E + 16 * p.val) 0 []).sub = 0 from rfl, hcommit,
        setOfMember_of_not_rs _ _ _ profRestoreCard hcard rfl]
  dsimp only
  rw [if_pos (by omega), show Fin.ofNat 4 ((0x121E + 16 * p.val - 0x1210) / 16) = p from Fin.ext (by simp [Fin.ofNat]; omega)]
  exact hwrite

theorem profileCommandsClause : ProfileCommandsClause := by
  intro s role hs
  refine ⟨fun p hallowed hbars => ?restore, fun arg hallowed => ⟨fun hlock => exec_profileSwitch_of_locked hs hallowed hlock,
    fun hlock htarget hzero hlimit hidle => ?switch⟩⟩
  case restore =>
    have hwrite : profRestoreWrite p role s = (DS.ok, _) := if_neg (by simp [hbars])
    have hfind := fun k hk => State.foldl_stage_find k (SetId.prof p).members s (.inl hk)
    obtain ⟨x, hstaged⟩ := State.foldl_stage_eq (SetId.prof p).members s
    rw [hstaged] at hwrite hfind
    refine ⟨_, exec_profRestore_of_write hs hallowed hwrite (by decide), rfl, hfind, ?_, rfl⟩
    exact State.setSetState_holder _ (.prof p) .hostP
  case switch =>
    have hknown : ¬ (3 < switchTarget arg ∨ fieldLe arg 1 1 ≠ 0 ∨ 10000 < switchLimit arg) := by omega
    have hwrite : profileSwitchWrite arg s = (DS.ok, if ¬ s.holdingsFit (Fin.ofNat 4 (switchTarget arg)) then
        s.endSwitch DS.state (s.rd Key.activeProfile) (s.rd Key.activeProfile) 0
        else (({ s with switch := some {
          source := s.rd Key.activeProfile, target := switchTarget arg, limitMs := switchLimit arg, drainMs := 0,
          repartitioned := false, oldWeave := [] } } : State).wr Key.switchPhase 2).cmdStart Key.profileSwitch) := by
      unfold profileSwitchWrite
      rw [if_neg (by simp [hlock]), if_neg hknown, State.ifIdle_of_idle _ _ _ hidle]
    refine ⟨fun hfits => ?_, fun hfits => ?_⟩
    · rw [if_neg (not_not.2 hfits)] at hwrite
      refine ⟨_, exec_profileSwitch_of_write hs hallowed hlock hwrite (by decide), rfl, ?_, rfl, rfl, rfl, rfl⟩
      exact congrArg CmdBlock.state (State.cmdStart_cmd _)
    · rw [if_pos (by rw [hfits]; decide)] at hwrite
      have hcmd := State.cmdDone_cmd (({ s with switch := none } : State).wr Key.switchPhase 0) Key.profileSwitch DS.state
        (natLe 1 (s.rd Key.activeProfile) ++ natLe 1 (s.rd Key.activeProfile) ++ natLe 2 (min 0 65535))
      exact ⟨_, exec_profileSwitch_of_write hs hallowed hlock hwrite (by decide), rfl, congrArg CmdBlock.state hcmd,
        congrArg CmdBlock.result hcmd, rfl, rfl, rfl⟩

/-- Settles O16: the commands answer what their operations answer; of the repartition and of the quires' going on, what a
switch keeps is kept step by step. -/
theorem profileChanges : Obligations.ProfileChanges := ⟨profileCommandsClause, profileSwitchStepsClause⟩

end Sys2Proof.Machine
end

section
/-! PROOFS. Memories of leaves (14): what a leaf holds after another was written, and after leaves were cleared. -/

namespace Sys2Proof.Machine

/-! ### The entries of a canonical table -/

/-- A key of a canonical table is not below its bound. -/
theorem Tab.le_of_mem {α : Type} [DecidableEq α] {d : α} {t : Tab α} : ∀ {lo : Nat}, Tab.wfFrom d lo t = true →
    ∀ {p : Nat × α}, p ∈ t → lo ≤ p.1 ∧ p.2 ≠ d := by
  induction t with
  | nil => exact fun _ _ hp => absurd hp List.not_mem_nil
  | cons e t ih =>
    intro lo h p hp
    simp only [Tab.wfFrom, Bool.and_eq_true, decide_eq_true_eq] at h
    obtain ⟨⟨hlo, hval⟩, hrest⟩ := h
    obtain rfl | hp := List.mem_cons.1 hp
    · exact ⟨hlo, by simpa using hval⟩
    · obtain ⟨hle, hne⟩ := ih hrest hp
      exact ⟨by omega, hne⟩

/-- What is found is what is listed. -/
theorem Tab.find_eq_some_iff {α : Type} [DecidableEq α] {d : α} {t : Tab α} {i : Nat} {v : α} : ∀ {lo : Nat},
    Tab.wfFrom d lo t = true → (Tab.find t i = some v ↔ (i, v) ∈ t) := by
  induction t with
  | nil => exact fun _ => by simp [Tab.find]
  | cons e t ih =>
    intro lo h
    obtain ⟨k, w⟩ := e
    simp only [Tab.wfFrom, Bool.and_eq_true, decide_eq_true_eq] at h
    obtain ⟨-, hrest⟩ := h
    have hbelow (hmem : (i, v) ∈ t) : k + 1 ≤ i := (Tab.le_of_mem hrest hmem).1
    rw [Tab.find, List.mem_cons, Prod.mk.injEq]
    by_cases hik : i = k
    · subst hik
      have hnot : (i, v) ∉ t := fun hmem => by have := hbelow hmem; omega
      simp [hnot, eq_comm]
    · by_cases hlt : i < k
      · have hnot : (i, v) ∉ t := fun hmem => by have := hbelow hmem; omega
        simp [hik, hlt, hnot]
      · simp [hik, hlt, ih hrest]

/-- Two canonical tables with the same entries are equal. -/
theorem Tab.ext_of_mem {α : Type} [DecidableEq α] {d : α} : ∀ {t u : Tab α} {lo lo' : Nat}, Tab.wfFrom d lo t = true →
    Tab.wfFrom d lo' u = true → (∀ p, p ∈ t ↔ p ∈ u) → t = u
  | [], [], _, _, _, _, _ => rfl
  | [], e :: u, _, _, _, _, h => absurd ((h e).2 List.mem_cons_self) List.not_mem_nil
  | e :: t, [], _, _, _, _, h => absurd ((h e).1 List.mem_cons_self) List.not_mem_nil
  | (k, v) :: t, (l, w) :: u, lo, lo', ht, hu, h => by
    simp only [Tab.wfFrom, Bool.and_eq_true, decide_eq_true_eq] at ht hu
    obtain ⟨-, ht⟩ := ht
    obtain ⟨-, hu⟩ := hu
    have hhead : (k, v) = (l, w) := by
      obtain heq | hmem := List.mem_cons.1 ((h (k, v)).1 List.mem_cons_self)
      · exact heq
      · obtain heq | hmem' := List.mem_cons.1 ((h (l, w)).2 List.mem_cons_self)
        · exact heq.symm
        · have h1 : l + 1 ≤ k := (Tab.le_of_mem hu hmem).1
          have h2 : k + 1 ≤ l := (Tab.le_of_mem ht hmem').1
          omega
    obtain ⟨rfl, rfl⟩ := Prod.mk.inj hhead
    refine congrArg _ (Tab.ext_of_mem ht hu fun p => ⟨fun hp => ?_, fun hp => ?_⟩)
    · refine (List.mem_cons.1 ((h p).1 (List.mem_cons_of_mem _ hp))).resolve_left ?_
      rintro rfl
      have : k + 1 ≤ k := (Tab.le_of_mem ht hp).1
      omega
    · refine (List.mem_cons.1 ((h p).2 (List.mem_cons_of_mem _ hp))).resolve_left ?_
      rintro rfl
      have : k + 1 ≤ k := (Tab.le_of_mem hu hp).1
      omega

/-! ### The entries of a part of a memory -/

theorem Mem.mem_slice {m : Mem} (base len a : Nat) (v : Byte) : ∀ {lo : Nat}, Tab.wfFrom (0 : Byte) lo m = true →
    ((a, v) ∈ Mem.slice m base len ↔ a < len ∧ (base + a, v) ∈ m) := by
  induction m with
  | nil => exact fun _ => by simp [Mem.slice]
  | cons e m ih =>
    intro lo h
    obtain ⟨k, w⟩ := e
    simp only [Tab.wfFrom, Bool.and_eq_true, decide_eq_true_eq] at h
    obtain ⟨-, hrest⟩ := h
    have hbelow (hmem : (base + a, v) ∈ m) : k + 1 ≤ base + a := (Tab.le_of_mem hrest hmem).1
    rw [Mem.slice, List.mem_cons, Prod.mk.injEq]
    by_cases hk : k < base
    · rw [if_pos hk, ih hrest]
      simp only [show ¬ (base + a = k) by omega, false_and, false_or]
    · rw [if_neg hk]
      by_cases hin : k < base + len
      · rw [if_pos hin, List.mem_cons, Prod.mk.injEq, ih hrest]
        constructor
        · rintro (⟨ha, hv⟩ | ⟨ha, hmem⟩)
          · exact ⟨by omega, .inl ⟨by omega, hv⟩⟩
          · exact ⟨ha, .inr hmem⟩
        · rintro ⟨ha, ⟨hak, hv⟩ | hmem⟩
          · exact .inl ⟨by omega, hv⟩
          · exact .inr ⟨ha, hmem⟩
      · rw [if_neg hin]
        refine ⟨fun hmem => absurd hmem List.not_mem_nil, ?_⟩
        rintro ⟨ha, ⟨hak, -⟩ | hmem⟩
        · omega
        · have := hbelow hmem
          omega

theorem Mem.mem_clear {m : Mem} (base len a : Nat) (v : Byte) : ∀ {lo : Nat}, Tab.wfFrom (0 : Byte) lo m = true →
    ((a, v) ∈ Mem.clear m base len ↔ ¬ (base ≤ a ∧ a < base + len) ∧ (a, v) ∈ m) := by
  induction m with
  | nil => exact fun _ => by simp [Mem.clear]
  | cons e m ih =>
    intro lo h
    obtain ⟨k, w⟩ := e
    simp only [Tab.wfFrom, Bool.and_eq_true, decide_eq_true_eq] at h
    obtain ⟨-, hrest⟩ := h
    have hbelow (hmem : (a, v) ∈ m) : k + 1 ≤ a := (Tab.le_of_mem hrest hmem).1
    rw [Mem.clear]
    by_cases hk : k < base
    · rw [if_pos hk, List.mem_cons, List.mem_cons, Prod.mk.injEq, ih hrest]
      constructor
      · rintro (⟨rfl, rfl⟩ | ⟨hnot, hmem⟩)
        · exact ⟨by omega, .inl ⟨rfl, rfl⟩⟩
        · exact ⟨hnot, .inr hmem⟩
      · rintro ⟨hnot, heq | hmem⟩
        · exact .inl heq
        · exact .inr ⟨hnot, hmem⟩
    · rw [if_neg hk]
      by_cases hin : k < base + len
      · rw [if_pos hin, ih hrest, List.mem_cons, Prod.mk.injEq]
        constructor
        · exact fun ⟨hnot, hmem⟩ => ⟨hnot, .inr hmem⟩
        · rintro ⟨hnot, ⟨rfl, -⟩ | hmem⟩
          · omega
          · exact ⟨hnot, hmem⟩
      · rw [if_neg hin, List.mem_cons, Prod.mk.injEq]
        refine ⟨fun hmem => ⟨?_, hmem⟩, fun hmem => hmem.2⟩
        obtain ⟨rfl, -⟩ | hmem := hmem
        · omega
        · have := hbelow hmem
          omega

theorem Mem.mem_shift {m : Mem} (base a : Nat) (v : Byte) : (a, v) ∈ Mem.shift base m ↔ base ≤ a ∧ (a - base, v) ∈ m := by
  induction m with
  | nil => simp [Mem.shift]
  | cons e m ih =>
    obtain ⟨k, w⟩ := e
    rw [Mem.shift, List.mem_cons, List.mem_cons, Prod.mk.injEq, Prod.mk.injEq, ih]
    constructor
    · rintro (⟨ha, hv⟩ | ⟨ha, hmem⟩)
      · exact ⟨by omega, .inl ⟨by omega, hv⟩⟩
      · exact ⟨ha, .inr hmem⟩
    · rintro ⟨ha, ⟨hk, hv⟩ | hmem⟩
      · exact .inl ⟨by omega, hv⟩
      · exact .inr ⟨ha, hmem⟩

theorem Mem.mem_paste {m f : Mem} (base len a : Nat) (v : Byte) (hf : Mem.wf f = true) : ∀ {lo : Nat},
    Tab.wfFrom (0 : Byte) lo m = true → ((a, v) ∈ Mem.paste m base len f ↔
      (base ≤ a ∧ a < base + len ∧ (a - base, v) ∈ f) ∨ (¬ (base ≤ a ∧ a < base + len) ∧ (a, v) ∈ m)) := by
  have hpart : (a, v) ∈ Mem.shift base (Mem.slice f 0 len) ↔ base ≤ a ∧ a < base + len ∧ (a - base, v) ∈ f := by
    rw [Mem.mem_shift, Mem.mem_slice 0 len _ v hf, Nat.zero_add]
    constructor
    · exact fun ⟨h1, h2, h3⟩ => ⟨h1, by omega, h3⟩
    · exact fun ⟨h1, h2, h3⟩ => ⟨h1, by omega, h3⟩
  induction m with
  | nil => exact fun _ => by simp [Mem.paste, hpart]
  | cons e m ih =>
    intro lo h
    obtain ⟨k, w⟩ := e
    have hcons := h
    simp only [Tab.wfFrom, Bool.and_eq_true, decide_eq_true_eq] at h
    obtain ⟨-, hrest⟩ := h
    rw [Mem.paste]
    by_cases hk : k < base
    · rw [if_pos hk, List.mem_cons, List.mem_cons, Prod.mk.injEq, ih hrest]
      constructor
      · rintro (⟨rfl, rfl⟩ | hin | ⟨hnot, hmem⟩)
        · exact .inr ⟨by omega, .inl ⟨rfl, rfl⟩⟩
        · exact .inl hin
        · exact .inr ⟨hnot, .inr hmem⟩
      · rintro (hin | ⟨hnot, heq | hmem⟩)
        · exact .inr (.inl hin)
        · exact .inl heq
        · exact .inr (.inr ⟨hnot, hmem⟩)
    · rw [if_neg hk, List.mem_append, hpart, Mem.mem_clear base len a v hcons]

/-! ### Leaves of a memory -/

/-- A frame as a leaf takes it: its first 8,448 bytes. -/
def Mem.frame (f : Mem) : Mem := Mem.slice f 0 leafBytes

theorem Mem.leaf_setLeaf {m f : Mem} (hm : Mem.wf m = true) (hf : Mem.wf f = true) (n k : Nat) :
    Mem.leaf (Mem.setLeaf m n f) k = if k = n then Mem.frame f else Mem.leaf m k := by
  have hset := Mem.setLeaf_wf m f n hm hf
  by_cases hk : k = n
  · subst hk
    rw [if_pos rfl]
    refine Tab.ext_of_mem (Mem.leaf_wf _ _ hset) (Mem.slice_wf _ _ _ hf) fun p => ?_
    obtain ⟨a, v⟩ := p
    rw [Mem.leaf, Mem.mem_slice _ _ _ _ hset, Mem.setLeaf, Mem.mem_paste _ _ _ _ hf hm, Mem.frame, Mem.mem_slice _ _ _ _ hf]
    simp only [Nat.add_sub_cancel_left, Nat.zero_add]
    constructor
    · rintro ⟨ha, ⟨-, -, hmem⟩ | ⟨hnot, -⟩⟩
      · exact ⟨ha, hmem⟩
      · omega
    · exact fun ⟨ha, hmem⟩ => ⟨ha, .inl ⟨by omega, by omega, hmem⟩⟩
  · rw [if_neg hk]
    refine Tab.ext_of_mem (Mem.leaf_wf _ _ hset) (Mem.leaf_wf _ _ hm) fun p => ?_
    obtain ⟨a, v⟩ := p
    rw [Mem.leaf, Mem.mem_slice _ _ _ _ hset, Mem.setLeaf, Mem.mem_paste _ _ _ _ hf hm, Mem.leaf, Mem.mem_slice _ _ _ _ hm]
    refine and_congr_right fun ha => ?_
    have hout : ¬ (n * leafBytes ≤ k * leafBytes + a ∧ k * leafBytes + a < n * leafBytes + leafBytes) := by
      unfold leafBytes at ha ⊢
      omega
    constructor
    · rintro (⟨h1, h2, -⟩ | ⟨-, hmem⟩)
      · exact absurd ⟨h1, h2⟩ hout
      · exact hmem
    · exact fun hmem => .inr ⟨hout, hmem⟩

theorem Mem.leaf_clearLeaves {m : Mem} (hm : Mem.wf m = true) (n count k : Nat) :
    Mem.leaf (Mem.clearLeaves m n count) k = if n ≤ k ∧ k < n + count then [] else Mem.leaf m k := by
  have hclear := Mem.clearLeaves_wf m n count hm
  have hin (a : Nat) (ha : a < leafBytes) :
      (n * leafBytes ≤ k * leafBytes + a ∧ k * leafBytes + a < n * leafBytes + count * leafBytes) ↔ (n ≤ k ∧
          k < n + count) := by
    unfold leafBytes at ha ⊢
    omega
  by_cases hk : n ≤ k ∧ k < n + count
  · rw [if_pos hk]
    refine Tab.ext_of_mem (d := (0 : Byte)) (lo' := 0) (Mem.leaf_wf _ _ hclear) rfl fun p => ?_
    obtain ⟨a, v⟩ := p
    rw [Mem.leaf, Mem.mem_slice _ _ _ _ hclear, Mem.clearLeaves, Mem.mem_clear _ _ _ _ hm]
    refine ⟨fun ⟨ha, hnot, _⟩ => absurd ((hin a ha).2 hk) hnot, fun h => absurd h List.not_mem_nil⟩
  · rw [if_neg hk]
    refine Tab.ext_of_mem (Mem.leaf_wf _ _ hclear) (Mem.leaf_wf _ _ hm) fun p => ?_
    obtain ⟨a, v⟩ := p
    rw [Mem.leaf, Mem.mem_slice _ _ _ _ hclear, Mem.clearLeaves, Mem.mem_clear _ _ _ _ hm, Mem.leaf, Mem.mem_slice _ _ _ _ hm]
    exact and_congr_right fun ha => ⟨fun h => h.2, fun hmem => ⟨fun h => hk ((hin a ha).1 h), hmem⟩⟩

theorem Mem.read_slice {m : Mem} (hm : Mem.wf m = true) (base len a : Nat) :
    Mem.read (Mem.slice m base len) a = if a < len then Mem.read m (base + a) else 0 := by
  have hfind : Tab.find (Mem.slice m base len) a = if a < len then Tab.find m (base + a) else none := by
    refine Option.ext fun v => ?_
    rw [Tab.find_eq_some_iff (Mem.slice_wf m base len hm), Mem.mem_slice _ _ _ _ hm]
    split
    · next ha => rw [Tab.find_eq_some_iff hm, and_iff_right ha]
    · next ha => exact ⟨fun h => absurd h.1 ha, fun h => by cases h⟩
  unfold Mem.read Tab.get
  rw [hfind]
  split <;> rfl

theorem Mem.read_leaf {m : Mem} (hm : Mem.wf m = true) (n a : Nat) :
    Mem.read (Mem.leaf m n) a = if a < leafBytes then Mem.read m (n * leafBytes + a) else 0 := Mem.read_slice hm _ _ a

/-- A byte of a frame. -/
theorem Mem.read_frame {f : Mem} (hf : Mem.wf f = true) (a : Nat) :
    Mem.read (Mem.frame f) a = if a < leafBytes then Mem.read f a else 0 := by
  rw [Mem.frame, Mem.read_slice hf, Nat.zero_add]

/-- A leaf is a frame. -/
theorem Mem.frame_leaf {m : Mem} (hm : Mem.wf m = true) (n : Nat) : Mem.frame (Mem.leaf m n) = Mem.leaf m n := by
  have hleaf := Mem.leaf_wf m n hm
  refine Tab.ext_of_mem (Mem.slice_wf _ 0 leafBytes hleaf) hleaf fun p => ?_
  obtain ⟨a, v⟩ := p
  rw [Mem.frame, Mem.mem_slice _ _ _ _ hleaf, Nat.zero_add]
  exact and_iff_right_of_imp fun h => Mem.slice_lt (n * leafBytes) leafBytes m (a, v) h

/-! ### Leaves of the tiers -/

/-- The memories of leaves are in canonical form. -/
structure State.LeavesWf (s : State) : Prop where
  slices : ∀ b : BayNum, Mem.wf (s.tiers.slices.get b) = true
  commons : Mem.wf s.tiers.commons = true
  t2 : Mem.wf s.tiers.t2 = true

theorem State.LeavesWf.of_tiers {s t : State} (h : s.LeavesWf) (ht : t.tiers = s.tiers) : t.LeavesWf := by
  constructor
  · rw [ht]; exact h.slices
  · rw [ht]; exact h.commons
  · rw [ht]; exact h.t2

theorem State.LeavesWf.leaf {s : State} (h : s.LeavesWf) (p : Place) (n : Nat) : Mem.wf (s.leaf p n) = true := by
  cases p with
  | slice b => exact Mem.leaf_wf _ _ (h.slices b)
  | commons => exact Mem.leaf_wf _ _ h.commons
  | t2 => exact Mem.leaf_wf _ _ h.t2

theorem State.frame_leaf {s : State} (h : s.LeavesWf) (p : Place) (n : Nat) : Mem.frame (s.leaf p n) = s.leaf p n := by
  cases p with
  | slice b => exact Mem.frame_leaf (h.slices b) n
  | commons => exact Mem.frame_leaf h.commons n
  | t2 => exact Mem.frame_leaf h.t2 n

theorem State.leaf_of_tiers {s t : State} (h : t.tiers = s.tiers) (p : Place) (n : Nat) : t.leaf p n = s.leaf p n := by
  cases p <;> simp only [State.leaf, h]

theorem State.LeavesWf.setLeaf {s : State} (h : s.LeavesWf) {f : Mem} (hf : Mem.wf f = true) (p : Place) (n : Nat) :
    (s.setLeaf p n f).LeavesWf := by
  cases p with
  | slice b =>
    refine ⟨fun c => ?_, h.commons, h.t2⟩
    show Mem.wf ((s.tiers.slices.set b.val (Mem.setLeaf (s.tiers.slices.get b) n f) b.isLt).get c) = true
    rw [vec_get_set]
    split
    · exact Mem.setLeaf_wf _ _ _ (h.slices b) hf
    · exact h.slices c
  | commons => exact ⟨h.slices, Mem.setLeaf_wf _ _ _ h.commons hf, h.t2⟩
  | t2 => exact ⟨h.slices, h.commons, Mem.setLeaf_wf _ _ _ h.t2 hf⟩

/-- A leaf written holds the frame; every other leaf what it held. -/
theorem State.leaf_setLeaf {s : State} (h : s.LeavesWf) {f : Mem} (hf : Mem.wf f = true) (p y : Place) (n m : Nat) :
    (s.setLeaf p n f).leaf y m = if y = p ∧ m = n then Mem.frame f else s.leaf y m := by
  cases p with
  | slice b =>
    cases y with
    | slice c =>
      show Mem.leaf ((s.tiers.slices.set b.val (Mem.setLeaf (s.tiers.slices.get b) n f) b.isLt).get c) m = _
      rw [vec_get_set]
      by_cases hbc : b = c
      · subst hbc
        rw [if_pos rfl, Mem.leaf_setLeaf (h.slices b) hf]
        simp only [true_and]
        rfl
      · rw [if_neg hbc, if_neg fun hc => hbc (Place.slice.inj hc.1).symm]
        rfl
    | commons => exact (if_neg fun hc => Place.noConfusion hc.1).symm
    | t2 => exact (if_neg fun hc => Place.noConfusion hc.1).symm
  | commons =>
    cases y with
    | slice c => exact (if_neg fun hc => Place.noConfusion hc.1).symm
    | commons =>
      refine (Mem.leaf_setLeaf h.commons hf n m).trans ?_
      simp only [true_and]
      rfl
    | t2 => exact (if_neg fun hc => Place.noConfusion hc.1).symm
  | t2 =>
    cases y with
    | slice c => exact (if_neg fun hc => Place.noConfusion hc.1).symm
    | commons => exact (if_neg fun hc => Place.noConfusion hc.1).symm
    | t2 =>
      refine (Mem.leaf_setLeaf h.t2 hf n m).trans ?_
      simp only [true_and]
      rfl

theorem State.LeavesWf.clearLeaves {s : State} (h : s.LeavesWf) (p : Place) (n count : Nat) :
    (s.clearLeaves p n count).LeavesWf := by
  cases p with
  | slice b =>
    refine ⟨fun c => ?_, h.commons, h.t2⟩
    show Mem.wf ((s.tiers.slices.set b.val (Mem.clearLeaves (s.tiers.slices.get b) n count) b.isLt).get c) = true
    rw [vec_get_set]
    split
    · exact Mem.clearLeaves_wf _ _ _ (h.slices b)
    · exact h.slices c
  | commons => exact ⟨h.slices, Mem.clearLeaves_wf _ _ _ h.commons, h.t2⟩
  | t2 => exact ⟨h.slices, h.commons, Mem.clearLeaves_wf _ _ _ h.t2⟩

/-- Leaves cleared read as zeros; every other leaf holds what it held. -/
theorem State.leaf_clearLeaves {s : State} (h : s.LeavesWf) (p y : Place) (n count m : Nat) :
    (s.clearLeaves p n count).leaf y m = if y = p ∧ n ≤ m ∧ m < n + count then [] else s.leaf y m := by
  cases p with
  | slice b =>
    cases y with
    | slice c =>
      show Mem.leaf ((s.tiers.slices.set b.val (Mem.clearLeaves (s.tiers.slices.get b) n count) b.isLt).get c) m = _
      rw [vec_get_set]
      by_cases hbc : b = c
      · subst hbc
        rw [if_pos rfl, Mem.leaf_clearLeaves (h.slices b)]
        simp only [true_and]
        rfl
      · rw [if_neg hbc, if_neg fun hc => hbc (Place.slice.inj hc.1).symm]
        rfl
    | commons => exact (if_neg fun hc => Place.noConfusion hc.1).symm
    | t2 => exact (if_neg fun hc => Place.noConfusion hc.1).symm
  | commons =>
    cases y with
    | slice c => exact (if_neg fun hc => Place.noConfusion hc.1).symm
    | commons =>
      refine (Mem.leaf_clearLeaves h.commons n count m).trans ?_
      simp only [true_and]
      rfl
    | t2 => exact (if_neg fun hc => Place.noConfusion hc.1).symm
  | t2 =>
    cases y with
    | slice c => exact (if_neg fun hc => Place.noConfusion hc.1).symm
    | commons => exact (if_neg fun hc => Place.noConfusion hc.1).symm
    | t2 =>
      refine (Mem.leaf_clearLeaves h.t2 n count m).trans ?_
      simp only [true_and]
      rfl

theorem State.leavesWf_of_inv {s : State} (h : Inv s) : s.LeavesWf := by
  have htiers := (s.canonical_iff.2 h).tiers
  exact ⟨htiers.slices, htiers.commons, htiers.t2⟩

end Sys2Proof.Machine
end

section
/-! PROOFS. BAR2 below the aperture, the device ring regions and T2_INLINE_ECC (06, 14, 15). -/

namespace Sys2Proof.Machine

variable {s t u : State}

/-! ### An access is served (R705, R709) -/

/-- The core domain and T2 are up, outside recovery boot: accesses of BAR2 are served as they arrive. -/
structure State.ServesBar2 (s : State) : Prop where
  boot : s.boot ≠ .recovery
  core : s.coreOn = true
  entry : s.pm.entry = none
  pll : s.clk.lpddrPll = true

theorem State.bar2Access_of_serving (h : s.ServesBar2) {off len : Nat} {write : Bool} {data : List Byte}
    (htakes : s.bar2Takes off (if write then data.length else len) = true) :
    s.bar2Access off write len data = s.bar2Serve off write len data := by
  have hwake : s.wakeDemand = s := State.wakeDemand_of_awake h.core h.entry
  have hmem : s.memUp = true := by simp [State.memUp, h.core, h.pll]
  unfold State.bar2Access
  rw [if_neg (not_not.2 htakes)]
  split
  · next hboot => exact absurd hboot h.boot
  · dsimp only
    rw [hwake, if_pos hmem]

theorem exec_bar2WindowAccess_of_serving (h : s.ServesBar2) {off : BitVec 28} {len : Nat} {write : Bool} {data : List Byte}
    (htakes : s.bar2Takes off.toNat (if write then data.length else len) = true)
    (hoff : off.toNat < 0x08000000 ∨ 0x0F000000 ≤ off.toNat ∧ write = false) :
    exec (.bar2WindowAccess off write len data) s = .next (s.bar2Serve off.toNat write len data) := by
  have hserved : ¬ (0x08000000 ≤ off.toNat ∧ (off.toNat < 0x0F000000 ∨ write = true)) := by
    rintro ⟨hle, hlt | hwrite⟩
    · omega
    · obtain hlow | ⟨-, hread⟩ := hoff
      · omega
      · rw [hread] at hwrite
        cases hwrite
  exact nextOf ((if_neg hserved).trans (State.bar2Access_of_serving h htakes))

/-! ### The pieces of a window access (R706) -/

theorem windowPieces_of_leaf {i j len : Nat} (hlen : 1 ≤ len) (hfits : j + len ≤ 8448) :
    windowPieces (8448 * i + j) len = [(i, j, len)] := by
  have hfirst : (8448 * i + j) / leafBytes = i := by unfold leafBytes; omega
  have hlast : (8448 * i + j + len - 1) / leafBytes = i := by unfold leafBytes; omega
  have hlo : max (8448 * i + j) (leafBytes * i) - leafBytes * i = j := by unfold leafBytes; omega
  have hend : min (8448 * i + j + len) (leafBytes * (i + 1)) - max (8448 * i + j) (leafBytes * i) = len := by
    unfold leafBytes
    omega
  unfold windowPieces upFrom
  simp [hfirst, hlast, hlo, hend]

theorem State.maxOf_bar2Discards (s : State) : s.maxOf Key.bar2Discards = 0xFFFFFFFF :=
  s.maxOf_of_card fun sku => by cases sku <;> decide

section

variable {q : QNum} {a : Addr} {i j len : Nat} {data : List Byte}

/-! ### What a leaf of a window answers (R546, R706 to R708) -/

theorem State.windowRead_of_xo (hlen : 1 ≤ len) (hfits : j + len ≤ 8448) (h : s.windowXo q a i = true) :
    s.windowRead q a (8448 * i + j) len = s.aptRefuse Key.aptXo 1 i .completerAbort := by
  unfold State.windowRead
  rw [windowPieces_of_leaf hlen hfits]
  simp [h]

theorem State.windowRead_of_open (hlen : 1 ≤ len) (hfits : j + len ≤ 8448) (h : s.windowXo q a i = false) :
    s.windowRead q a (8448 * i + j) len = s.emit (.barRead (match s.windowLeaf q a i with
      | some (pl, n) => Mem.readN (s.leaf pl n) j len
      | none => List.replicate len 0)) := by
  unfold State.windowRead
  rw [windowPieces_of_leaf hlen hfits]
  simp only [List.find?_cons, h, List.find?_nil, List.flatMap_cons, List.flatMap_nil, List.append_nil] <;> rfl

theorem State.windowWrite_eq (hlen : 1 ≤ data.length) (hfits : j + data.length ≤ 8448) :
    s.windowWrite q a (8448 * i + j) data = if (s.windowPut q a (i, j, data.length) data).2 then
      (s.windowPut q a (i, j, data.length) data).1.count Key.bar2Discards else (s.windowPut q a (i, j,
          data.length) data).1 := by
  have hdrop : (data.drop (leafBytes * i + j - (8448 * i + j))).take data.length = data := by
    simp [leafBytes]
  unfold State.windowWrite
  rw [windowPieces_of_leaf hlen hfits]
  simp only [List.foldl_cons, List.foldl_nil, hdrop, Bool.false_or]

theorem State.windowPut_of_xo (n : Nat) (h : s.windowXo q a i = true) : s.windowPut q a (i, j, n) data = (s, true) := if_pos h

theorem State.windowPut_of_hidden (n : Nat) (hi : i ≤ 5956) (h : s.windowXo q a i = false) (hleaf : s.windowLeaf q a i = none) :
    s.windowPut q a (i, j, n) data = (s, true) := by
  unfold State.windowPut
  rw [if_neg (by simp [h])]
  simp only [hleaf]
  rw [decide_eq_true (show i ≤ lastFrame from hi)]

theorem State.windowPut_of_leaf (n : Nat) {p : Place} {m : Nat} (h : s.windowXo q a i = false)
    (hleaf : s.windowLeaf q a i = some (p, m)) : s.windowPut q a (i, j, n) data =
      ((s.setLeaf p m (Mem.writeL (s.leaf p m) j data)).forgetIdent q (a.advance i).encode, false) := by
  unfold State.windowPut
  rw [if_neg (by simp [h])]
  simp only [hleaf]

theorem State.windowLeaf_of_scope (h : s.inOpenScope q (a.advance i).encode = true) : s.windowLeaf q a i = none :=
    if_pos (.inr h)

theorem State.windowLeaf_of_open (hi : i ≤ 5956) (h : s.inOpenScope q (a.advance i).encode = false) :
    s.windowLeaf q a i = match s.resolve q (a.advance i) with
      | .own p n _ => some (p, n)
      | _ => none := by
  have hle : ¬ (lastFrame < i ∨ s.inOpenScope q (a.advance i).encode = true) := by
    rw [h]
    have : lastFrame = 5956 := rfl
    simp
    omega
  exact if_neg hle

theorem State.windowXo_eq (hi : i ≤ 5956) : s.windowXo q a i = s.locXo (s.resolve q (a.advance i)) := by
  unfold State.windowXo
  rw [decide_eq_true (show i ≤ lastFrame from hi), Bool.true_and]

end

/-! ### Accesses of a window (R705) -/

theorem windowBase_le (w : Fin 2) : windowBase w = 0x02000000 ∨ windowBase w = 0x05000000 := by
  unfold windowBase
  split
  · exact .inl rfl
  · exact .inr rfl

theorem State.bar2Serve_window (w : Fin 2) {d len : Nat} {write : Bool} {data : List Byte} (hd : d < 0x03000000) :
    s.bar2Serve (windowBase w + d) write len data = s.window w.val d write len data := by
  obtain hw | hw : w.val = 0 ∨ w.val = 1 := by omega
  · have hb : windowBase w = 0x02000000 := if_pos hw
    unfold State.bar2Serve
    rw [hb, if_neg (by omega), if_pos (by omega), hw, Nat.add_sub_cancel_left]
  · have hb : windowBase w = 0x05000000 := if_neg (by omega)
    unfold State.bar2Serve
    rw [hb, if_neg (by omega), if_neg (by omega), if_pos (by omega), hw, Nat.add_sub_cancel_left]

theorem exec_bar2WindowAccess_window (h : s.ServesBar2) (w : Fin 2) {i j len : Nat} {write : Bool} {data : List Byte}
    (hlen : (if write then data.length else len) = len) (hi : i ≤ 5956) (hpos : 1 ≤ len) (hfits : j + len ≤ 8448)
    (htakes : s.bar2Takes (windowBase w + 8448 * i + j) len = true) :
    exec (.bar2WindowAccess (BitVec.ofNat 28 (windowBase w + 8448 * i + j)) write len data) s =
      .next (s.window w.val (8448 * i + j) write len data) := by
  have hbase := windowBase_le w
  have hoff : (BitVec.ofNat 28 (windowBase w + 8448 * i + j)).toNat = windowBase w + (8448 * i + j) := by
    rw [BitVec.toNat_ofNat]
    omega
  have hserves := exec_bar2WindowAccess_of_serving (write := write) (data := data) (len := len) h
    (off := BitVec.ofNat 28 (windowBase w + 8448 * i + j)) (by rw [hlen, hoff, ← Nat.add_assoc]; exact htakes)
    (.inl (by rw [hoff]; omega))
  rw [hserves, hoff, State.bar2Serve_window w (by omega)]

/-- The access of a quire's window, by its two registers. -/
theorem State.window_of_quire (w : Fin 2) {q : QNum} {a : Addr} {d len : Nat} {write : Bool} {data : List Byte}
    (hq : q.val = s.rd (if w.val = 0 then Key.bar2Win0Quire else Key.bar2Win1Quire))
    (ha : addrOf (s.rd (if w.val = 0 then Key.bar2Win0Addr else Key.bar2Win1Addr)) = some a) :
    s.window w.val d write len data = if write then s.windowWrite q a d data else s.windowRead q a d len := by
  have hlt : s.rd (if w.val = 0 then Key.bar2Win0Quire else Key.bar2Win1Quire) < 8 := hq ▸ q.isLt
  have hquire : (⟨s.rd (if w.val = 0 then Key.bar2Win0Quire else Key.bar2Win1Quire), hlt⟩ : QNum) = q := Fin.ext hq.symm
  unfold State.window
  dsimp only
  rw [dif_pos hlt, ha]
  dsimp only
  rw [hquire]

theorem State.window_of_none (w : Fin 2) {d len : Nat} {write : Bool} {data : List Byte}
    (hq : 8 ≤ s.rd (if w.val = 0 then Key.bar2Win0Quire else Key.bar2Win1Quire)) :
    s.window w.val d write len data = if write then s.count Key.bar2Discards else s.emit .unsupportedRequest := by
  unfold State.window
  dsimp only
  rw [dif_neg (by omega)]

theorem State.rd_count_bar2Discards (hwf : valsWf s.sku 0 s.dict.vals = true) :
    (s.count Key.bar2Discards).rd Key.bar2Discards = min (s.rd Key.bar2Discards + 1) 0xFFFFFFFF :=
  (s.rd_count_self _ _ hwf).trans (by rw [s.maxOf_bar2Discards])

theorem State.leaf_forgetIdent (s : State) (q : QNum) (addr : Nat) (p : Place) (n : Nat) :
    (s.forgetIdent q addr).leaf p n = s.leaf p n := State.leaf_of_tiers rfl p n

theorem State.setLeaf_frame (s : State) (p : Place) (n : Nat) (f : Mem) : ∃ x, s.setLeaf p n f = s.setTiers x := by
  cases p <;> exact ⟨_, rfl⟩

theorem bar2AccessesClause : Bar2AccessesClause := by
  intro s len data hinv hboot hcore hentry hpll hdata hpos
  have hserves : s.ServesBar2 := ⟨hboot, hcore, hentry, hpll⟩
  have hleaves := s.leavesWf_of_inv hinv
  have hstaging := (s.canonical_iff.2 hinv).tiers.staging
  obtain ⟨hwf, -, -⟩ := hinv
  subst hdata
  refine ⟨fun off htakes hfits => ?staging, fun w i j hi hfits htakes => ?windows⟩
  case staging =>
    have hserve (write : Bool) (data' : List Byte) : s.bar2Serve off.toNat write data.length data' =
        s.stagingAccess off.toNat write data.length data' := if_pos (by omega)
    refine ⟨?_, fun hproduced => ?_⟩
    · rw [exec_bar2WindowAccess_of_serving hserves (by exact htakes) (.inl (by omega)), hserve]
      rfl
    · have hkept : ¬ (off.toNat < producedAt + 4 ∧ producedAt < off.toNat + data.length) := by omega
      have hexec := exec_bar2WindowAccess_of_serving (write := true) (data := data) (len := data.length) hserves
        (by exact htakes) (.inl (by omega))
      rw [hserve, State.stagingAccess, if_pos rfl, if_neg hkept] at hexec
      exact ⟨_, hexec, fun a => Mem.read_writeL data _ _ a hstaging, rfl, rfl, rfl⟩
  case windows =>
    intro off qv av discards
    have hread := exec_bar2WindowAccess_window (write := false) (data := []) hserves w rfl hi hpos hfits htakes
    have hwrite := exec_bar2WindowAccess_window (write := true) (data := data) (len := data.length) hserves w rfl hi hpos hfits
      htakes
    refine ⟨fun hq => ?none, fun q a hq ha => ⟨fun p n l hown => ?own, fun hforeign => ?foreign⟩⟩
    case none =>
      rw [State.window_of_none w hq] at hread hwrite
      exact ⟨hread, hwrite⟩
    case own =>
      rw [State.window_of_quire w hq ha] at hread hwrite
      have hxo : s.windowXo q a i = s.isXo p n := by rw [State.windowXo_eq hi, hown]; rfl
      refine ⟨fun h => ?_, fun h hscope => ?_, fun h hscope => ?_⟩
      · rw [h] at hxo
        rw [if_neg (by decide), State.windowRead_of_xo hpos hfits hxo] at hread
        rw [if_pos rfl, State.windowWrite_eq hpos hfits, State.windowPut_of_xo _ hxo, if_pos rfl] at hwrite
        exact ⟨⟨_, hread, rfl, rfl⟩, _, hwrite, State.rd_count_bar2Discards hwf, rfl, rfl⟩
      · rw [h] at hxo
        have hleaf := State.windowLeaf_of_scope hscope
        rw [if_neg (by decide), State.windowRead_of_open hpos hfits hxo, hleaf] at hread
        rw [if_pos rfl, State.windowWrite_eq hpos hfits, State.windowPut_of_hidden _ hi hxo hleaf, if_pos rfl] at hwrite
        exact ⟨hread, _, hwrite, State.rd_count_bar2Discards hwf, rfl, rfl⟩
      · rw [h] at hxo
        have hleaf : s.windowLeaf q a i = some (p, n) := by
          rw [State.windowLeaf_of_open hi hscope, hown]
        rw [if_neg (by decide), State.windowRead_of_open hpos hfits hxo, hleaf] at hread
        rw [if_pos rfl, State.windowWrite_eq hpos hfits, State.windowPut_of_leaf _ hxo hleaf,
            if_neg Bool.false_ne_true] at hwrite
        have hframe := Mem.writeL_wf data _ j (hleaves.leaf p n)
        obtain ⟨x, hx⟩ := s.setLeaf_frame p n (Mem.writeL (s.leaf p n) j data)
        refine ⟨hread, _, hwrite, fun k hk => ?_, fun y m hym => ?_, ?_, ?_, ?_⟩
        · rw [State.leaf_forgetIdent, State.leaf_setLeaf hleaves hframe, if_pos ⟨rfl, rfl⟩, Mem.read_frame hframe,
            if_pos (by exact hk),
            Mem.read_writeL data _ _ _ (hleaves.leaf p n)]
        · rw [State.leaf_forgetIdent, State.leaf_setLeaf hleaves hframe, if_neg hym]
        all_goals rw [hx]; rfl
    case foreign =>
      rw [State.window_of_quire w hq ha] at hread hwrite
      have hxo : s.windowXo q a i = false := by rw [State.windowXo_eq hi, hforeign]; rfl
      have hleaf : s.windowLeaf q a i = none := by
        cases hscope : s.inOpenScope q (a.advance i).encode with
        | true => exact State.windowLeaf_of_scope hscope
        | false => rw [State.windowLeaf_of_open hi hscope, hforeign]
      rw [if_neg (by decide), State.windowRead_of_open hpos hfits hxo, hleaf] at hread
      rw [if_pos rfl, State.windowWrite_eq hpos hfits, State.windowPut_of_hidden _ hi hxo hleaf, if_pos rfl] at hwrite
      exact ⟨hread, _, hwrite, State.rd_count_bar2Discards hwf, rfl⟩

/-! ### Device ring regions (R252) -/

theorem State.bar2Serve_ring {off len : Nat} {write : Bool} {data : List Byte} (hoff : 0x0F000000 ≤ off) :
    s.bar2Serve off write len data = s.ringAccess (off - 0x0F000000) write len data := by
  unfold State.bar2Serve
  rw [if_neg (by omega), if_neg (by omega), if_neg (by omega), if_neg (by omega)]

/-! ### T2_INLINE_ECC (R710, R711) -/

/-- The card of T2_INLINE_ECC. -/
def t2InlineEccCard : Card := ⟨.abs, 0x1702, 0x1702, 1, 1, .bool, .rw, .h, .h, .s, .cold, 0⟩

theorem cardOf_t2InlineEcc (sku : Sku) : cardOf sku 0x1702 1 = some t2InlineEccCard := by
  cases sku <;> decide

theorem exec_t2InlineEccWrite_of_write {role : Role} {st : Nat} {val : List Byte} (hs : Serving s)
    (hallowed : Allowed s role Key.t2InlineEcc val.length) (hwrite : t2InlineEccWrite (leNat val) s = (st, t))
    (hst : st ≠ DS.role) : exec (.t2InlineEccWrite role val) s = .next (t.answer st) := by
  have hcard := cardOf_t2InlineEcc s.sku
  refine nextOf (dictRequest_of_cold (s.attends_of_serving hs) hallowed hcard rfl ?_ hst)
  refine (serveWrite_of_open t2InlineEccCard (writeOf role 0x1702 1 val) {} false s (s.locks_high _ (show 0x1600 ≤ 0x1702 by
      decide))
    (s.recoveryBars_of_serving _ hs) rfl rfl).trans ?_
  exact (serveOp_high t2InlineEccCard (writeOf role 0x1702 1 val) {} false s
    (show 0x1600 ≤ 0x1702 ∧ 0x1702 < 0x2000 by decide) hcard rfl).trans hwrite

/-- Every stored profile's T2 quotas fit the capacity with inline ECC. -/
theorem State.profileSums_fit (s : State) : ((s.profileSums Key.profQuotaT2).any fun t => decide (977082 < t)) = false ↔
    ∀ p : Fin 4, ((upFrom 1 8).map fun n => s.rd (Key.profQuotaT2 p.val n)).sum ≤ 977082 := by
  unfold State.profileSums
  simp only [List.any_eq_false, List.mem_map, List.mem_range, decide_eq_true_eq, forall_exists_index, and_imp,
    forall_apply_eq_imp_iff₂, not_lt]
  exact ⟨fun h p => h p.val p.isLt, fun h p hp => h ⟨p, hp⟩⟩

theorem State.store_facts (hwf : valsWf s.sku 0 s.dict.vals = true) (hroom : s.paramFull = false) (k v : Nat) :
    ∃ t, s.store k v = (DS.ok, t) ∧ t.rd k = v ∧ s.ChangesOnly (k :: paramStatus) t := by
  unfold State.store
  by_cases hsame : s.rd k = v
  · exact ⟨s, if_pos hsame, hsame, s.setNv_changesOnly _ s.nv⟩
  · refine ⟨_, (if_neg hsame).trans (if_neg (by simp [hroom])), s.wrStored_rd_self k v hwf, s.wrStored_changesOnly k v⟩

theorem State.up_of_core (s : State) (hboot : s.boot = .normal) (hcore : s.coreOn = true) : s.up = true := by
  unfold State.coreOn at hcore
  unfold State.up
  rw [hboot]
  cases hpower : s.power <;> simp_all

theorem ringBytesAndInlineEccClause : RingBytesAndInlineEccClause := by
  intro s hinv
  have hrings := (s.canonical_iff.2 hinv).tiers.rings
  obtain ⟨hwf, -, -⟩ := hinv
  refine ⟨fun off data relaxed htakes hboot hcore hentry hpll hoff => ?rings, fun role val hs hallowed hchannels => ?ecc⟩
  case rings =>
    have hserves : s.ServesBar2 := ⟨by simp [hboot], hcore, hentry, hpll⟩
    have hread := exec_bar2WindowAccess_of_serving (write := false) (data := []) (len := data.length) hserves (by exact htakes)
      (.inr ⟨hoff, rfl⟩)
    rw [State.bar2Serve_ring hoff] at hread
    have hup : s.up = true ∧ 0x0F000000 ≤ off.toNat := ⟨s.up_of_core hboot hcore, hoff⟩
    have hwrite : exec (.bar2RingWrite off data relaxed) s = .next (s.ringAccess (off.toNat - 0x0F000000) true 0 data) := by
      refine nextOf ((if_pos hup).trans ?_)
      rw [State.bar2Access_of_serving hserves (by exact htakes), State.bar2Serve_ring hoff]
    exact ⟨_, hread, hwrite, fun a => Mem.read_writeL data _ _ a hrings, rfl, rfl, rfl, rfl⟩
  case ecc =>
    intro v fits
    have hcap : t2Cap (s.rd Key.t2Channels) true = 977082 := by rw [hchannels]; rfl
    refine ⟨fun h => ?_, fun hv hfits hroom => ?_⟩
    · refine exec_t2InlineEccWrite_of_write hs hallowed (if_pos ?_) (by decide)
      rw [hcap]
      refine h.imp_right fun ⟨hone, hnot⟩ => ⟨hone, ?_⟩
      by_contra hany
      exact hnot (s.profileSums_fit.1 (by simpa using hany))
    · obtain ⟨t, hstore, hrd, hch⟩ := s.store_facts hwf hroom Key.t2InlineEcc v
      have hwrite : t2InlineEccWrite v s = (DS.ok, t) := by
        refine (if_neg ?_).trans hstore
        rw [hcap]
        rintro (hbig | ⟨hone, hany⟩)
        · omega
        · rw [s.profileSums_fit.2 (hfits hone)] at hany
          cases hany
      refine ⟨_, exec_t2InlineEccWrite_of_write hs hallowed hwrite (by decide), hrd, hch.rd hwf _ (by decide),
        hch.rd hwf _ (by decide), hch.tiers, hch.quires, ?_⟩
      exact congrArg (· ++ [Output.status DS.ok]) hch.out

/-- Settles O40: an access within one leaf is one piece, and what the leaf answers is a matter of where it lies. -/
theorem bar2Memory : Obligations.Bar2Memory := ⟨bar2AccessesClause, ringBytesAndInlineEccClause⟩

end Sys2Proof.Machine
end

section
/-! PROOFS. The sentinel is armed, disarmed, started and stopped (17, R795 to R797, R816 to R832). -/

namespace Sys2Proof.Machine

variable {s t u : State}

/-! ### Several entries written at once -/

/-- An entry written among several reads the last value written to it; every other reads as before. -/
theorem State.rd_wrs (l : List (Nat × Nat)) (k : Nat) : ∀ s : State, valsWf s.sku 0 s.dict.vals = true →
    (s.wrs l).rd k = ((l.reverse.find? fun p => p.1 == k).map Prod.snd).getD (s.rd k) := by
  induction l with
  | nil => exact fun s _ => rfl
  | cons p l ih =>
    intro s hwf
    refine (ih (s.wr p.1 p.2) (s.wr_wf _ _ hwf)).trans ?_
    rw [List.reverse_cons, List.find?_append, s.rd_wr _ _ _ hwf]
    cases l.reverse.find? fun p => p.1 == k with
    | some x => rfl
    | none =>
      by_cases hk : p.1 = k
      · simp [hk]
      · simp [hk, Ne.symm hk]

theorem State.wrs_wf (l : List (Nat × Nat)) (hwf : valsWf s.sku 0 s.dict.vals = true) :
    valsWf (s.wrs l).sku 0 (s.wrs l).dict.vals = true :=
  List.foldlRecOn (motive := fun u : State => valsWf u.sku 0 u.dict.vals = true) l _ hwf fun u hu p _ => u.wr_wf p.1 p.2 hu

theorem State.wrs_rd_ne {l : List (Nat × Nat)} {k : Nat} (hwf : valsWf s.sku 0 s.dict.vals = true) (h : ∀ p ∈ l, p.1 ≠ k) :
    (s.wrs l).rd k = s.rd k := by
  rw [State.rd_wrs l k s hwf, List.find?_eq_none.2 fun p hp => by simpa using h p (List.mem_reverse.1 hp)]
  rfl

/-! ### Writes of entries from 0x1600 up -/

theorem dictRequest_highCold {role : Role} {idx sub st : Nat} {data : List Byte} {env : Env} {c : Card} (hs : Serving s)
    (hshape : s.shapeFail (some role) true idx sub data.length = none) (hcard : cardOf s.sku idx sub = some c)
    (hidx : 0x1600 ≤ idx ∧ idx < 0x2000) (hresp : c.resp = .cold) (hacc : c.access.isRs = false) (htext : badText c data =
        false)
    (hserve : serveHigh c (writeOf role idx sub data) env s = (st, t)) (hst : st ≠ DS.role) :
    dictRequest role idx sub data env s = t.answer st := by
  refine dictRequest_of_cold (s.attends_of_serving hs) hshape hcard hresp ?_ hst
  exact (serveWrite_of_open c (writeOf role idx sub data) env false s (s.locks_high _ hidx.1) (s.recoveryBars_of_serving _ hs)
    rfl htext).trans ((serveOp_high c (writeOf role idx sub data) env false s hidx hcard hacc).trans hserve)

theorem dictRequest_highHot {role : Role} {idx sub st : Nat} {data : List Byte} {env : Env} {c : Card} (hs : Serving s)
    (hshape : s.shapeFail (some role) true idx sub data.length = none) (hcard : cardOf s.sku idx sub = some c)
    (hidx : 0x1600 ≤ idx ∧ idx < 0x2000) (hresp : c.resp = .hotRw) (hacc : c.access.isRs = false)
    (htext : badText c data = false) (hserve : serveHigh c (writeOf role idx sub data) {} s = (st, t)) :
    dictRequest role idx sub data env s = t.answer st := by
  refine dictRequest_of_hotRw hs hshape hcard hresp ?_
  exact (serveWrite_of_open c (writeOf role idx sub data) {} false s (s.locks_high _ hidx.1) (s.recoveryBars_of_serving _ hs)
    rfl htext).trans ((serveOp_high c (writeOf role idx sub data) {} false s hidx hcard hacc).trans hserve)

/-! ### The sentinel's entries (R832) -/

def sentEnableCard : Card := ⟨.abs, 0x1901, 0x1901, 0, 0, .bool, .rw, .hq, .hq, .a, .hotRw, 0⟩
def sentArmCard : Card := ⟨.abs, 0x1902, 0x1902, 0, 0, .cmd 4 4, .cmd, .hq, .hq, .v, .cold, 0⟩
def sentDisarmCard : Card := ⟨.abs, 0x1903, 0x1903, 0, 0, .cmd 0 0, .cmd, .hq, .hq, .v, .cold, 0⟩
def sentWakeCard : Card := ⟨.abs, 0x1907, 0x1907, 0, 0, .bool, .rw, .hq, .hq, .a, .hotRw, 0⟩

theorem cardOf_sentinel (sku : Sku) : cardOf sku 0x1901 0 = some sentEnableCard ∧ cardOf sku 0x1902 0 = some sentArmCard ∧
    cardOf sku 0x1903 0 = some sentDisarmCard ∧ cardOf sku 0x1907 0 = some sentWakeCard := by
  cases sku <;> decide

theorem exec_sentArm_of_write {role : Role} {arg : List Byte} {st : Nat} (hs : Serving s)
    (hallowed : Allowed s role Key.sentArm arg.length) (hwrite : sentArmWrite arg s = (st, t)) (hst : st ≠ DS.role) :
    exec (.sentArm role arg) s = .next (t.answer st) :=
  nextOf (dictRequest_highCold hs hallowed (cardOf_sentinel s.sku).2.1 (by decide) rfl rfl rfl hwrite hst)

theorem exec_sentDisarm_of_write {role : Role} {st : Nat} (hs : Serving s) (hallowed : Allowed s role Key.sentDisarm 0)
    (hwrite : sentDisarmWrite s = (st, t)) (hst : st ≠ DS.role) : exec (.sentDisarm role) s = .next (t.answer st) :=
  nextOf (dictRequest_highCold hs hallowed (cardOf_sentinel s.sku).2.2.1 (by decide) rfl rfl rfl hwrite hst)

theorem exec_sentEnable_of_write {role : Role} {val : List Byte} {st : Nat} (hs : Serving s)
    (hallowed : Allowed s role Key.sentEnable val.length) (hval : leNat val ≤ 1)
    (hwrite : sentEnableWrite (leNat val == 1) s = (st, t)) : exec (.sentEnableWrite role val) s = .next (t.answer st) :=
  nextOf (dictRequest_highHot hs hallowed (cardOf_sentinel s.sku).1 (by decide) rfl rfl rfl
    ((if_neg (by exact Nat.not_lt.2 hval)).trans hwrite))

theorem exec_sentWakeAsserted_of_write {role : Role} {val : List Byte} {st : Nat} (hs : Serving s)
    (hallowed : Allowed s role Key.sentWakeAsserted val.length) (hwrite : sentWakeWrite (leNat val) s = (st, t)) :
    exec (.sentWakeAssertedWrite role val) s = .next (t.answer st) :=
  nextOf (dictRequest_highHot hs hallowed (cardOf_sentinel s.sku).2.2.2 (by decide) rfl rfl rfl hwrite)

/-- Another quire's mailbox may not write the sentinel's entries (R796). -/
theorem grants_sentinel (p : QNum) (hp : p.val ≠ 7) {idx : Nat} (hidx : idx / 256 = 0x19) : grants .hq (.quire p) idx 0 =
    false := by
  have hq : (p == 7) = false := beq_eq_false_iff_ne.2 fun h => hp (congrArg Fin.val h)
  show grants.mine idx 0 p = false
  unfold grants.mine
  rw [if_neg (by omega), if_pos hidx, hq]

theorem State.shapeFail_sentinel (s : State) (p : QNum) (hp : p.val ≠ 7) {idx len : Nat} {c : Card} (hidx : idx / 256 = 0x19)
    (hentry : cardsAt idx ≠ []) (hcard : cardOf s.sku idx 0 = some c) (hacc : c.access ≠ .ro) (hwrite : c.write = .hq) :
    s.shapeFail (some (.quire p)) true idx 0 len = some DS.role := by
  rw [s.shapeFail_of_writable hentry hcard hacc, hwrite, grants_sentinel p hp hidx]
  exact if_pos (by simp)

theorem sentinel_role (hs : Serving s) (p : QNum) (hp : p.val ≠ 7) (arg : List Byte) :
    exec (.sentArm (.quire p) arg) s = .next ((s.count Key.dictRole).answer DS.role) ∧
      exec (.sentDisarm (.quire p)) s = .next ((s.count Key.dictRole).answer DS.role) := by
  have hup := (s.attends_of_serving hs).dictUp
  exact ⟨nextOf (dictRequest_of_shapeFail hup (s.shapeFail_sentinel p hp (by decide) (by decide) (cardOf_sentinel s.sku).2.1
      (by decide) rfl)),
    nextOf (dictRequest_of_shapeFail hup (s.shapeFail_sentinel p hp (by decide) (by decide) (cardOf_sentinel s.sku).2.2.1
      (by decide) rfl))⟩

/-! ### Listening starts and stops (R795, R797, R828 to R831) -/

/-- The sentinel as it starts to listen: with no history and no counts (R797). -/
def Sentinel.starts (x : Sentinel) : Sentinel :=
  { x with
    biquad := [], pdm0 := [], pdm1 := [], history := [], frame := 0, holdClass := 0, holdCount := 0, sinceDetect := none,
    detect := none, settling := true, stopAtEnd := false }

theorem State.tryListen_of_armed (hstate : s.rd Key.sentState = 1) (henable : s.rdB Key.sentEnable = true)
    (hbound : s.sentBound = true) (hheld : s.sentHeld = false) (hcore : s.coreOn = true) (hboot : s.boot = .normal) :
    s.tryListen = (s.setSent s.sent.starts).wr Key.sentState 2 := by
  have hup := s.up_of_core hboot hcore
  unfold State.coreOn at hcore
  unfold State.tryListen
  cases hpower : s.power with
  | sIdle => exact if_pos ⟨hstate, henable, hbound, by simp [hheld], rfl, hup⟩
  | sRun => exact if_pos ⟨hstate, henable, hbound, by simp [hheld], rfl, hup⟩
  | _ => simp [hpower] at hcore

theorem State.tryListen_of_unbound (hbound : s.sentBound = false) : s.tryListen = s :=
  if_neg fun h => by simp [hbound] at h

theorem State.tryListen_of_off (hoff : s.rdB Key.sentEnable = false) : s.tryListen = s :=
  if_neg fun h => by simp [hoff] at h

theorem State.sentBound_wr (hwf : valsWf s.sku 0 s.dict.vals = true) {k : Nat} (v : Nat)
    (hk : Key.profSentinelBind s.part ≠ k) : (s.wr k v).sentBound = s.sentBound := by
  show (s.wr k v).rdB (Key.profSentinelBind s.part) = s.rdB (Key.profSentinelBind s.part)
  rw [State.rdB, State.rdB, State.rd_wr_other hwf v hk]

theorem listeningStartsClause : ListeningStartsClause := by
  intro s role val hs hinv
  obtain ⟨hwf, -, -⟩ := hinv
  have hpowered := (s.attends_of_serving hs).core
  obtain ⟨-, -, hboot, -⟩ := id hs
  have hbind : Key.profSentinelBind s.part ≠ Key.sentEnable := by
    unfold Key.profSentinelBind Key.sentEnable
    omega
  refine ⟨fun hallowed => ⟨fun hone => ⟨?empty, ?listens, ?unbound, ?goesOn⟩, fun hzero hstate => ?stops⟩,
    fun hallowed => ⟨fun hval => ?refused, fun hval => ?released⟩⟩
  case empty =>
    intro hstate
    refine exec_sentEnable_of_write hs hallowed (by omega) ?_
    rw [hone]
    exact if_pos hstate
  case listens =>
    intro hstate hbound hheld
    have hnow : s.sentStateNow ≠ 0 := by rw [State.sentStateNow, hheld]; simp [hstate]
    have hrd : (s.wr Key.sentEnable 1).rd Key.sentState = 1 := (State.rd_wr_other hwf 1 (by decide)).trans hstate
    have hwf' := s.wr_wf Key.sentEnable 1 hwf
    have hlisten := State.tryListen_of_armed hrd
      (by rw [State.rdB, State.rd_wr_same hwf]; rfl) ((State.sentBound_wr hwf 1 hbind).trans hbound) hheld hpowered hboot
    have hwrite : sentEnableWrite (leNat val == 1) s =
        (DS.ok, ((s.wr Key.sentEnable 1).setSent s.sent.starts).wr Key.sentState 2) := by
      rw [hone]
      exact (if_neg hnow).trans (congrArg (Prod.mk DS.ok) ((if_neg (by simp [hrd])).trans hlisten))
    refine ⟨_, exec_sentEnable_of_write hs hallowed (by omega) hwrite, State.rd_wr_same (by exact hwf') _ _, ?_, rfl, rfl, rfl,
      rfl, rfl, rfl, rfl⟩
    exact (State.rd_wr_other (by exact hwf') 2 (show Key.sentEnable ≠ Key.sentState by decide)).trans (State.rd_wr_same hwf _ _)
  case unbound =>
    intro hstate hbound
    have hrd : (s.wr Key.sentEnable 1).rd Key.sentState = 1 := (State.rd_wr_other hwf 1 (by decide)).trans hstate
    have hunbound := (State.sentBound_wr hwf 1 hbind).trans hbound
    have hnow : s.sentStateNow ≠ 0 := by
      unfold State.sentStateNow
      split
      · decide
      · simp [hstate]
    have hwrite : sentEnableWrite (leNat val == 1) s = (DS.ok, s.wr Key.sentEnable 1) := by
      rw [hone]
      exact (if_neg hnow).trans (congrArg (Prod.mk DS.ok)
        ((if_neg (by simp [hrd])).trans (State.tryListen_of_unbound hunbound)))
    exact ⟨_, exec_sentEnable_of_write hs hallowed (by omega) hwrite, hrd, State.rd_wr_same hwf _ _, rfl⟩
  case goesOn =>
    intro hstate hheld hstop
    have hrd : (s.wr Key.sentEnable 1).rd Key.sentState = 3 := (State.rd_wr_other hwf 1 (by decide)).trans hstate
    have hnow : s.sentStateNow ≠ 0 := by rw [State.sentStateNow, hheld]; simp [hstate]
    have hwrite : sentEnableWrite (leNat val == 1) s = (DS.ok, (s.wr Key.sentEnable 1).wr Key.sentState 2) := by
      rw [hone]
      exact (if_neg hnow).trans (congrArg (Prod.mk DS.ok) (if_pos ⟨hrd, by simpa using hstop⟩))
    exact ⟨_, exec_sentEnable_of_write hs hallowed (by omega) hwrite, State.rd_wr_same (s.wr_wf _ _ hwf) _ _, rfl⟩
  case stops =>
    have hrd : (s.wr Key.sentEnable 0).rd Key.sentState = 2 := (State.rd_wr_other hwf 0 (by decide)).trans hstate
    have hwf' := s.wr_wf Key.sentEnable 0 hwf
    have hwrite : sentEnableWrite (leNat val == 1) s = (DS.ok, (s.wr Key.sentEnable 0).wr Key.sentState 3) := by
      rw [hzero]
      exact congrArg (Prod.mk DS.ok) (if_pos hrd)
    refine ⟨_, exec_sentEnable_of_write hs hallowed (by omega) hwrite, State.rd_wr_same hwf' _ _, ?_, rfl⟩
    exact (State.rd_wr_other hwf' 3 (show Key.sentEnable ≠ Key.sentState by decide)).trans (State.rd_wr_same hwf _ _)
  case refused => exact exec_sentWakeAsserted_of_write hs hallowed (if_pos hval)
  case released =>
    have hwrite := exec_sentWakeAsserted_of_write hs hallowed (if_neg (not_not.2 hval))
    exact ⟨_, hwrite, rfl, State.rd_wr_same (by exact hwf) _ _, rfl, rfl⟩

/-! ### Stripes are read (R617, R618) -/

/-- `t` is `s` but for the read counts of the bands, the moves they ask for, and what an alert of them leaves. -/
structure State.SensedTo (s t : State) : Prop where
  frame : ∃ bands moves ckpt d i,
    t = { s with nv := { s.nv with bands := bands, moves := moves, ckpt := ckpt }, dict := d, i3c := i }
  regs : s.RegsKept (fun k => k = Key.tlOverRated ∨ k = Key.alertCause) t

namespace State.SensedTo

theorem refl (s : State) : s.SensedTo s := ⟨⟨_, _, _, _, _, rfl⟩, .of_eq rfl rfl⟩

theorem trans (h : s.SensedTo t) (h' : t.SensedTo u) : s.SensedTo u := by
  refine ⟨?_, h.regs.trans h'.regs⟩
  obtain ⟨bands, moves, ckpt, d, i, rfl⟩ := h.frame
  obtain ⟨bands', moves', ckpt', d', i', rfl⟩ := h'.frame
  exact ⟨_, _, _, _, _, rfl⟩

theorem ite {c : Prop} [Decidable c] (ht : s.SensedTo t) (hu : s.SensedTo u) : s.SensedTo (if c then t else u) := by
  split
  · exact ht
  · exact hu

/-- An update of the bands, the moves or the checkpoint. -/
theorem of_nv (s : State) {bands : Tab Band} {moves : List BandMove} {ckpt : Option (Tab Nat)} :
    s.SensedTo (s.setNv { s.nv with bands := bands, moves := moves, ckpt := ckpt }) := ⟨⟨_, _, _, _, _, rfl⟩, .of_eq rfl rfl⟩

theorem alert (s : State) (cause : Nat) : s.SensedTo (s.alert cause) := by
  obtain ⟨d, i, h⟩ := s.alert_eq cause
  refine ⟨⟨s.nv.bands, s.nv.moves, s.nv.ckpt, d, i, h⟩, ?_⟩
  exact ⟨(s.alert_regsKept cause).wf, fun hwf k hk => (s.alert_regsKept cause).rd hwf k fun he => hk (.inr he.symm)⟩

theorem count (s : State) : s.SensedTo (s.count Key.tlOverRated) :=
  ⟨⟨_, _, _, _, _, rfl⟩, s.wr_regsKept _ (.inl rfl)⟩

theorem rd (h : s.SensedTo t) (hwf : valsWf s.sku 0 s.dict.vals = true) {k : Nat} (hk : k ≠ Key.tlOverRated)
    (hk' : k ≠ Key.alertCause) : t.rd k = s.rd k := h.regs.rd hwf k fun hc => hc.elim hk hk'

theorem lib (h : s.SensedTo t) : t.nv.lib = s.nv.lib := by
  obtain ⟨bands, moves, ckpt, d, i, rfl⟩ := h.frame
  rfl

theorem quires (h : s.SensedTo t) : t.quires = s.quires := by
  obtain ⟨bands, moves, ckpt, d, i, rfl⟩ := h.frame
  rfl

theorem out (h : s.SensedTo t) : t.out = s.out := by
  obtain ⟨bands, moves, ckpt, d, i, rfl⟩ := h.frame
  rfl

theorem sectionImage (h : s.SensedTo t) (e sec room : Nat) : t.sectionImage e sec room = s.sectionImage e sec room := by
  obtain ⟨bands, moves, ckpt, d, i, rfl⟩ := h.frame
  rfl

end State.SensedTo

theorem State.readBand_sensedTo (s : State) (g b n : Nat) : s.SensedTo (s.readBand g b n) := by
  unfold State.readBand
  extract_lets x reads rated s1 s2 s3
  have h1 : s.SensedTo s1 := .of_nv s
  have h2 : s.SensedTo s2 := .ite (h1.trans (.trans (.count s1) (.alert _ _))) h1
  have h3 : s.SensedTo s3 := .ite (h2.trans (.ite (.refl s2) (.of_nv s2))) h2
  exact .ite (h3.trans (.of_nv s3)) h3

theorem State.senseStripes_sensedTo (s : State) (e : Nat) (l : List Nat) :
    s.SensedTo (l.foldl (fun s k => s.senseStripe e k) s) :=
  List.foldlRecOn (motive := fun u => s.SensedTo u) l _ (.refl s) fun u hu k _ => by
    unfold State.senseStripe
    split
    · exact hu.trans (u.readBand_sensedTo _ _ _)
    · exact hu

/-! ### Arming and disarming (R816 to R821) -/

/-- The handles' entries lie above every entry outside the quires' blocks. -/
theorem Key.ne_qHandle {k : Nat} (hk : k < 0x200000) (q : QNum) (n : Nat) : k ≠ Key.qHandle q n ∧
    k ≠ Key.qHandleVariant q n := by
  unfold Key.qHandle Key.qHandleVariant
  omega

/-- What arming writes of the entry's image. -/
def armedEntries (e : Nat) (img : Mem) : List (Nat × Nat) :=
  [(Key.sentState, 1), (Key.sentEntry, e), (Key.sentFrameCycles, frameCycles (layersOf img)), (Key.sentFrameMs, imgLe img 7 1)]

/-- The bank takes the image, and Q7 holds the entry. -/
def State.armWith (s : State) (e v : Nat) (img : Mem) : State :=
  let u := if s.holds 7 e then s else s.giveHandle 7 e v
  (u.setSent { u.sent with image := img }).wrs (armedEntries e img)

theorem sentArmWrite_of_failed {arg : List Byte} (hstate : s.sentStateNow ≤ 1) (he : fieldLe arg 0 1 ≤ 63)
    (hzero : fieldLe arg 2 2 = 0) (hidle : s.cmdRunning Key.sentArm = false) {c : Nat × Nat}
    (hfail : s.armFail (fieldLe arg 0 1) (fieldLe arg 1 1) = some c) : sentArmWrite arg s =
      (DS.ok, s.cmdDone Key.sentArm DS.range (natLe 1 c.1 ++ natLe 1 c.2 ++ natLe 2 0)) := by
  unfold sentArmWrite
  dsimp only
  rw [if_neg (by omega), if_neg (by omega), State.ifIdle_of_idle _ _ _ hidle, hfail]

theorem sentArmWrite_of_valid {arg : List Byte} (hstate : s.sentStateNow ≤ 1) (he : fieldLe arg 0 1 ≤ 63)
    (hzero : fieldLe arg 2 2 = 0) (hidle : s.cmdRunning Key.sentArm = false)
    (hfail : s.armFail (fieldLe arg 0 1) (fieldLe arg 1 1) = none) : ∃ u v c, s.SensedTo u ∧ sentArmWrite arg s =
      (DS.ok, ((u.armWith (fieldLe arg 0 1) v (s.sectionImage (fieldLe arg 0 1) (fieldLe arg 1 1)
        (8192 * (((s.lib (fieldLe arg 0 1)).man.sections[fieldLe arg 1 1]?).map Section.leaves).getD 0))).cmdDone
          Key.sentArm DS.ok c).tryListen) := by
  unfold sentArmWrite
  dsimp only
  rw [if_neg (by omega), if_neg (by omega), State.ifIdle_of_idle _ _ _ hidle, hfail]
  cases (s.lib (fieldLe arg 0 1)).man.sections[fieldLe arg 1 1]? with
  | none =>
    have hsensed := s.senseStripes_sensedTo (fieldLe arg 0 1)
      (upFrom (sectionBase (s.lib (fieldLe arg 0 1)).man.sections (fieldLe arg 1 1)) (ceilDiv 0 32))
    dsimp only
    rw [hsensed.sectionImage]
    generalize (upFrom (sectionBase (s.lib (fieldLe arg 0 1)).man.sections (fieldLe arg 1 1)) (ceilDiv 0 32)).foldl
      (fun s k => s.senseStripe (fieldLe arg 0 1) k) s = u at hsensed ⊢
    exact ⟨u, _, _, hsensed, rfl⟩
  | some y =>
    have hsensed := s.senseStripes_sensedTo (fieldLe arg 0 1)
      (upFrom (sectionBase (s.lib (fieldLe arg 0 1)).man.sections (fieldLe arg 1 1)) (ceilDiv y.leaves 32))
    dsimp only
    rw [hsensed.sectionImage]
    generalize (upFrom (sectionBase (s.lib (fieldLe arg 0 1)).man.sections (fieldLe arg 1 1)) (ceilDiv y.leaves 32)).foldl
      (fun s k => s.senseStripe (fieldLe arg 0 1) k) s = u at hsensed ⊢
    exact ⟨u, _, _, hsensed, rfl⟩

/-- The state after arming: what is read of it. -/
theorem State.armWith_facts (hwf : valsWf s.sku 0 s.dict.vals = true) (e v : Nat) (img : Mem) :
    let t := s.armWith e v img
    t.rd Key.sentState = 1 ∧ t.rd Key.sentEntry = e ∧ t.rd Key.sentFrameMs = imgLe img 7 1 ∧
      t.rd Key.sentFrameCycles = frameCycles (layersOf img) ∧ t.rd Key.sentEnable = s.rd Key.sentEnable ∧
      (s.holds 7 e = true → t.rd (Key.qHandle 7 (e + 1)) = s.rd (Key.qHandle 7 (e + 1))) ∧
      (s.holds 7 e = false → t.rd (Key.qHandle 7 (e + 1)) = mkHandle (s.lib e).generation 7 e) := by
  intro t
  obtain ⟨u, hu, hwfu, hsame, hhandle⟩ : ∃ u : State, u = (if s.holds 7 e then s else s.giveHandle 7 e v) ∧
      valsWf u.sku 0 u.dict.vals = true ∧ (∀ k, k < 0x200000 → u.rd k = s.rd k) ∧
      (s.holds 7 e = false → u.rd (Key.qHandle 7 (e + 1)) = mkHandle (s.lib e).generation 7 e) := by
    refine ⟨_, rfl, ?_⟩
    cases hholds : s.holds 7 e with
    | true => exact ⟨hwf, fun _ _ => rfl, fun h => by cases h⟩
    | false =>
      have hkeys : Key.qHandle 7 (e + 1) ≠ Key.qHandleVariant 7 (e + 1) := by
        unfold Key.qHandle Key.qHandleVariant
        omega
      refine ⟨State.wrs_wf _ hwf, fun k hk => State.wrs_rd_ne hwf ?_, fun _ => ?_⟩
      · have hne := Key.ne_qHandle hk 7 (e + 1)
        simp [Ne.symm hne.1, Ne.symm hne.2]
      · exact (State.rd_wr_other (s.wr_wf _ _ hwf) _ hkeys).trans (State.rd_wr_same hwf _ _)
  have ht : t = (u.setSent { u.sent with image := img }).wrs (armedEntries e img) := by rw [hu]; rfl
  have hrd := fun k => State.rd_wrs (armedEntries e img) k (u.setSent { u.sent with image := img }) hwfu
  have hne : ∀ p ∈ armedEntries e img, p.1 ≠ Key.qHandle 7 (e + 1) := by
    have hlow : ∀ p ∈ armedEntries e img, p.1 < 0x200000 := by simp [armedEntries, Key.sentState, Key.sentEntry,
      Key.sentFrameCycles, Key.sentFrameMs]
    exact fun p hp => (Key.ne_qHandle (hlow p hp) 7 (e + 1)).1
  have hkept : t.rd (Key.qHandle 7 (e + 1)) = u.rd (Key.qHandle 7 (e + 1)) := by
    rw [ht]
    exact State.wrs_rd_ne (s := u.setSent { u.sent with image := img }) hwfu hne
  refine ⟨?_, ?_, ?_, ?_, ?_, fun h => ?_, fun h => hkept.trans (hhandle h)⟩
  · rw [ht, hrd]; rfl
  · rw [ht, hrd]; rfl
  · rw [ht, hrd]; rfl
  · rw [ht, hrd]; rfl
  · rw [ht, hrd]; exact hsame _ (by decide)
  · rw [hkept, hu, if_pos h]

theorem State.giveHandle_frame (s : State) (q : QNum) (e v : Nat) : ∃ d, s.giveHandle q e v = s.setDict d := ⟨_, rfl⟩

theorem State.armWith_frame (s : State) (e v : Nat) (img : Mem) : (s.armWith e v img).sent.image = img ∧
    (s.armWith e v img).nv.lib = s.nv.lib ∧ (s.armWith e v img).quires = s.quires ∧ (s.armWith e v img).out = s.out := by
  obtain ⟨d, hd⟩ : ∃ d, (if s.holds 7 e then s else s.giveHandle 7 e v) = s.setDict d := by
    split
    · exact ⟨s.dict, rfl⟩
    · exact s.giveHandle_frame 7 e v
  unfold State.armWith
  rw [hd]
  obtain ⟨d', hd'⟩ := State.wrs_eq (armedEntries e img) ((s.setDict d).setSent { (s.setDict d).sent with image := img })
  dsimp only
  rw [hd']
  exact ⟨rfl, rfl, rfl, rfl⟩

theorem State.cmdDone_frame (s : State) (k result : Nat) (card : List Byte) : ∃ d, s.cmdDone k result card = s.setDict d :=
    ⟨_, rfl⟩

/-- The state after disarming: the handle is released, and the bank is empty. -/
def State.disarmed (s : State) : State :=
  let u := if s.rd Key.sentEntry < 64 ∧ s.holds 7 (s.rd Key.sentEntry) = true then s.dropHandle 7 (s.rd Key.sentEntry) else s
  ((u.setSent { Sentinel.reset with settling := u.sent.settling }).wrs
    [(Key.sentState, 0), (Key.sentEntry, 0xFF), (Key.sentFrameCycles, 0), (Key.sentFrameMs, 0)]).cmdDone Key.sentDisarm DS.ok []

theorem State.disarmed_facts (hwf : valsWf s.sku 0 s.dict.vals = true) :
    let t := s.disarmed
    t.rd Key.sentState = 0 ∧ t.rd Key.sentEntry = 0xFF ∧
      (s.rd Key.sentEntry < 64 → t.rd (Key.qHandle 7 (s.rd Key.sentEntry + 1)) = 0) ∧
      t.sent = { Sentinel.reset with settling := s.sent.settling } ∧ t.nv = s.nv ∧ t.quires = s.quires ∧ t.out = s.out ∧
      (t.cmd Key.sentDisarm).result = DS.ok := by
  intro t
  obtain ⟨u, hu, hwfu, hhandle, hframe⟩ : ∃ u : State, u = (if s.rd Key.sentEntry < 64 ∧ s.holds 7 (s.rd Key.sentEntry) = true
      then s.dropHandle 7 (s.rd Key.sentEntry) else s) ∧ valsWf u.sku 0 u.dict.vals = true ∧
      (s.rd Key.sentEntry < 64 → u.rd (Key.qHandle 7 (s.rd Key.sentEntry + 1)) = 0) ∧ ∃ d, u = s.setDict d := by
    refine ⟨_, rfl, ?_⟩
    split
    · next h =>
      refine ⟨State.wrs_wf _ hwf, fun hlt => ?_, _, rfl⟩
      exact (s.dropHandle_rd hwf 7 hlt).trans (if_pos rfl)
    · next h =>
      refine ⟨hwf, fun hlt => ?_, s.dict, rfl⟩
      by_contra hne
      exact h ⟨hlt, by simpa [State.holds] using hne⟩
  obtain ⟨d, hd⟩ := hframe
  let l : List (Nat × Nat) := [(Key.sentState, 0), (Key.sentEntry, 0xFF), (Key.sentFrameCycles, 0), (Key.sentFrameMs, 0)]
  have ht : t = ((u.setSent { Sentinel.reset with settling := u.sent.settling }).wrs l).cmdDone Key.sentDisarm DS.ok [] := by
    rw [hu]; rfl
  have hrd := fun k => State.rd_wrs l k (u.setSent { Sentinel.reset with settling := u.sent.settling }) hwfu
  have hlow : ∀ p ∈ l, p.1 < 0x200000 := by decide
  have hcmd := State.cmdDone_cmd ((u.setSent { Sentinel.reset with settling := u.sent.settling }).wrs l) Key.sentDisarm DS.ok []
  have hne : s.rd Key.sentEntry < 64 → t.rd (Key.qHandle 7 (s.rd Key.sentEntry + 1)) = 0 := fun hlt => by
    refine Eq.trans ?_ (hhandle hlt)
    rw [ht]
    exact State.wrs_rd_ne (s := u.setSent { Sentinel.reset with settling := u.sent.settling }) hwfu
      fun p hp => (Key.ne_qHandle (hlow p hp) 7 _).1
  have hstate : t.rd Key.sentState = 0 := by rw [ht]; exact hrd _
  have hentry : t.rd Key.sentEntry = 0xFF := by rw [ht]; exact hrd _
  obtain ⟨d', hw⟩ := State.wrs_eq l (u.setSent { Sentinel.reset with settling := u.sent.settling })
  obtain ⟨d'', hc⟩ := State.cmdDone_frame ((u.setSent { Sentinel.reset with settling := u.sent.settling }).wrs l)
    Key.sentDisarm DS.ok []
  rw [← ht, hw, hd] at hc
  rw [← ht] at hcmd
  refine ⟨hstate, hentry, hne, ?_, ?_, ?_, ?_, congrArg CmdBlock.result hcmd⟩
  all_goals rw [hc]; rfl

theorem armAndDisarmClause : ArmAndDisarmClause := by
  intro s role arg hs hinv henable
  obtain ⟨hwf, -, -⟩ := hinv
  refine ⟨fun p hp => sentinel_role hs p hp arg, fun hallowed => ?arm, fun hallowed => ?disarm⟩
  case arm =>
    intro e sec x img
    refine ⟨fun hstate => ?_, fun hstate hbad => ?_, fun hstate he hzero hidle => ⟨fun c hfail => ?_, fun hfail => ?_⟩⟩
    · exact exec_sentArm_of_write hs hallowed (if_pos hstate) (by decide)
    · exact exec_sentArm_of_write hs hallowed ((if_neg (Nat.not_lt.2 hstate)).trans (if_pos hbad)) (by decide)
    · have hwrite := sentArmWrite_of_failed hstate he hzero hidle hfail
      have hcmd := State.cmdDone_cmd s Key.sentArm DS.range (natLe 1 c.1 ++ natLe 1 c.2 ++ natLe 2 0)
      exact ⟨_, exec_sentArm_of_write hs hallowed hwrite (by decide), congrArg CmdBlock.result hcmd,
          congrArg CmdBlock.card hcmd,
        rfl, rfl, rfl⟩
    · obtain ⟨u, v, c, hu, hwrite⟩ := sentArmWrite_of_valid hstate he hzero hidle hfail
      have hwfu := hu.regs.wf hwf
      have hrd := fun k (hk : k ≠ Key.tlOverRated) (hk' : k ≠ Key.alertCause) => hu.rd hwf hk hk'
      obtain ⟨hqRated, hqAlert⟩ : Key.qHandle 7 (e + 1) ≠ Key.tlOverRated ∧ Key.qHandle 7 (e + 1) ≠ Key.alertCause :=
        ⟨(Key.ne_qHandle (by decide) 7 (e + 1)).1.symm, (Key.ne_qHandle (by decide) 7 (e + 1)).1.symm⟩
      have hholds : u.holds 7 e = s.holds 7 e := by rw [State.holds, State.holds, hrd _ hqRated hqAlert]
      obtain ⟨hst, hentry, hms, hcyc, hen, hold, hnew⟩ := u.armWith_facts hwfu e v img
      obtain ⟨himage, hlib, hquires, hout⟩ := u.armWith_frame e v img
      have hgen : (u.lib e).generation = x.generation := by
        rw [State.lib, hu.lib]
        rfl
      rw [show s.sectionImage (fieldLe arg 0 1) (fieldLe arg 1 1) _ = img from rfl] at hwrite
      generalize u.armWith e v img = w at hst hentry hms hcyc hen hold hnew himage hlib hquires hout hwrite
      have hoff : (w.cmdDone Key.sentArm DS.ok c).rdB Key.sentEnable = false := by
        rw [State.rdB, State.cmdDone_rd, hen, hrd _ (by decide) (by decide)]
        exact henable
      rw [State.tryListen_of_off hoff] at hwrite
      have hcmd := State.cmdDone_cmd w Key.sentArm DS.ok c
      refine ⟨_, exec_sentArm_of_write hs hallowed hwrite (by decide), congrArg CmdBlock.result hcmd, hst, hentry, hms, hcyc,
          himage,
        fun h => (hold (hholds.trans h)).trans (hrd _ hqRated hqAlert), fun h => (hnew (hholds.trans h)).trans (by rw [hgen]),
        hlib.trans hu.lib, hquires.trans hu.quires, congrArg (· ++ [Output.status DS.ok]) (hout.trans hu.out)⟩
  case disarm =>
    refine ⟨fun hstate => exec_sentDisarm_of_write hs hallowed (if_pos hstate) (by decide), fun hstate hidle => ?_⟩
    have hwrite : sentDisarmWrite s = (DS.ok, s.disarmed) := by
      unfold sentDisarmWrite
      rw [if_neg (Nat.not_lt.2 hstate), State.ifIdle_of_idle _ _ _ hidle]
      rfl
    obtain ⟨hst, hentry, hhandle, hsent, hnv, hquires, hout, hcmd⟩ := s.disarmed_facts hwf
    generalize s.disarmed = w at hwrite hst hentry hhandle hsent hnv hquires hout hcmd
    refine ⟨_, exec_sentDisarm_of_write hs hallowed hwrite (by decide), hst, hentry, congrArg Sentinel.image hsent,
      congrArg Sentinel.history hsent, hhandle, hcmd, hnv, hquires, congrArg (· ++ [Output.status DS.ok]) hout⟩

/-- Settles O45: each command answers what its operation answers; arming reads stripes, fills the bank and gives the handle. -/
theorem sentinelControl : Obligations.SentinelControl := ⟨armAndDisarmClause, listeningStartsClause⟩

end Sys2Proof.Machine
end

section
/-! PROOFS. The issue of an entry, sequencer control, the stitch entries and the end of a bay's wait (07, 08; R330, R335 to
R344, R383 to R404, R417). -/

namespace Sys2Proof.Machine

variable {s t : State} {b : BayNum} {k : Kind} {d : Due}

/-! ### The entry that falls due (R383) -/

theorem State.nextEntry_eq_some {q : QNum} {r : Run} (h : s.nextEntry q r b = some d) :
    d.q = q ∧ d.run = r ∧ d.b = b ∧ d.pc = (s.bay b).seq.pc ∧ (s.bay b).seq.ended = false ∧
      d.t = (s.bay b).seq.stamp + (s.bay b).seq.gap + Ent.delta d.w := by
  unfold State.nextEntry at h
  dsimp only at h
  split at h
  · cases h
  · next hend =>
    split at h
    · cases h; exact ⟨rfl, rfl, rfl, rfl, by simpa using hend, rfl⟩
    · cases h

/-- The entry a run issues next is the next entry of one of its bays. -/
theorem State.nextEntry_of_runNext {q : QNum} {r : Run} (h : s.runNext q r = some d) :
    ∃ b ∈ r.bays, s.nextEntry q r b = some d := by
  have key : ∀ e, s.runNext q r = some e → e ∈ r.bays.filterMap fun b => s.nextEntry q r b :=
    List.foldlRecOn (motive := fun o : Option Due => ∀ e, o = some e → e ∈ r.bays.filterMap fun b => s.nextEntry q r b)
      _ _ (fun e he => by cases he) fun o ho x hx e he => by
      cases o with
      | none => cases he; exact hx
      | some m =>
        dsimp only at he
        split at he
        · cases he; exact hx
        · exact ho e he
  exact List.mem_filterMap.1 (key d h)

/-- What holds of the entry a bay issues now (R299, R383, R388). -/
structure State.Falls (s : State) (b : BayNum) (d : Due) : Prop where
  bay : d.b = b
  run : ∃ id, (s.bay b).seq.run = some (d.q, id) ∧ s.run d.q id = some d.run
  steady : d.run.slipping = none
  lively : Lively s d.q
  next : s.nextEntry d.q d.run b = some d
  inBound : d.inBound 0 = true

theorem State.falls_of_due (h : s.due b = some d) : s.Falls b d := by
  unfold State.due at h
  split at h
  · cases h
  next q id hseq =>
  split at h
  · cases h
  next r hrun =>
  split at h
  · cases h
  next hoff =>
  split at h
  · next d' hnext =>
    split at h
    · next hd =>
      cases h
      obtain ⟨hb, hbound, -⟩ := hd
      simp only [not_or, Option.isSome_iff_ne_none, ne_eq, not_not] at hoff
      obtain ⟨-, hslip, hfrozen, hreset, -⟩ := hoff
      obtain ⟨c, -, hc⟩ := s.nextEntry_of_runNext hnext
      obtain ⟨rfl, rfl, hdb, -, -, -⟩ := s.nextEntry_eq_some hc
      obtain rfl : c = b := hdb.symm.trans hb
      exact ⟨hb, ⟨id, hseq, hrun⟩, hslip, ⟨hfrozen, hreset⟩, hc, hbound⟩
    · cases h
  · cases h

theorem falls_of_issues (h : Issues s b k d) : s.Falls b d := s.falls_of_due h.1

theorem kind_of_issues (h : Issues s b k d) : entryKind d.w = some k := h.2.1

/-- An entry that falls due and that nothing holds issues. -/
theorem issue_of_issues (h : Issues s b k d) (f : Due → State → State) : s.issue b k f = f d (s.advance d) := by
  obtain ⟨hdue, hkind, hwait, hholds⟩ := h
  simp [State.issue, hdue, hkind, hwait, hholds]

theorem issueChecked_of_clean (h : Issues s b k d) (f : Due → State → State) (hv : s.viols d = []) :
    s.issueChecked b k f = f d (s.advance d) := (issue_of_issues h _).trans (if_pos hv)

theorem issueChecked_of_viol (h : Issues s b k d) (f : Due → State → State) (hv : s.viols d ≠ []) :
    s.issueChecked b k f = s.violate d (s.viols d) := (issue_of_issues h _).trans (if_neg hv)

/-! ### The sequencer moves on -/

theorem armsGoto_nil (n : Nat) : armsGoto [] n = ([], n) := rfl

/-- The bay as it stands behind an issued entry. -/
def Bay.past (x : Bay) (d : Due) : Bay := { x with seq := { x.seq.goto (d.pc + 1) with stamp := d.t, gap := 0 } }

theorem State.Falls.advance_eq (h : s.Falls b d) : s.advance d = s.setBay b ((s.bay b).past d) := by
  obtain rfl := h.bay
  rfl

@[simp] theorem State.setBay_setBay (s : State) (b : BayNum) (x y : Bay) : (s.setBay b x).setBay b y = s.setBay b y := by
  unfold State.setBay
  simp only [Vector.set_set]

/-- A change of the bay that has issued changes the bay alone. -/
theorem State.Falls.modBay_advance (h : s.Falls b d) (f : Bay → Bay) :
    (s.advance d).modBay b f = s.setBay b (f ((s.bay b).past d)) := by
  rw [h.advance_eq, State.modBay, State.setBay_bay, State.setBay_setBay]

theorem onlyBay_setBay (s : State) (b : BayNum) (x : Bay) : OnlyBay s (s.setBay b x) b := by
  unfold OnlyBay
  rw [State.setBay_bay]

/-- A bay that has issued and changed nothing of its sequencer but what a wait uses has passed the entry. -/
theorem State.Falls.passed (h : s.Falls b d) (ht : (t.bay b).seq.stamp = ((s.bay b).past d).seq.stamp ∧
    (t.bay b).seq.gap = ((s.bay b).past d).seq.gap ∧ (t.bay b).seq.pc = ((s.bay b).past d).seq.pc ∧
    (t.bay b).seq.arms = ((s.bay b).past d).seq.arms ∧ (t.bay b).seq.loops = ((s.bay b).past d).seq.loops ∧
    (t.bay b).seq.ended = ((s.bay b).past d).seq.ended ∧ (t.bay b).seq.run = ((s.bay b).past d).seq.run) :
    Passed s t b d := by
  obtain ⟨hstamp, hgap, hpc, harms, hloops, hended, hrun⟩ := ht
  obtain ⟨-, -, -, -, hend, -⟩ := s.nextEntry_eq_some h.next
  refine ⟨hstamp, hgap, fun ha => ?_, ?_, hended.trans hend, hrun⟩
  · rw [hpc]
    show (armsGoto (s.bay b).seq.arms (d.pc + 1)).2 = d.pc + 1
    rw [ha]
    rfl
  · rw [hloops, hpc, harms]
    rfl

/-! ### PRECISION_FENCE, IDLE, END (R403, R404, R419) -/

theorem precisionFence_of_issues (h : Issues s b .precisionFence d) : precisionFence b s =
    s.setBay b { (s.bay b).past d with fences := ((s.bay b).past d).fences ++ [d.t + 2] } :=
  (issue_of_issues h _).trans ((falls_of_issues h).modBay_advance _)

theorem idle_of_issues (h : Issues s b .idle d) : idle b s =
    s.setBay b { (s.bay b).past d with seq := { ((s.bay b).past d).seq with gap := bits d.w 95 56 } } :=
  (issue_of_issues h _).trans ((falls_of_issues h).modBay_advance _)

theorem Bay.past_pc {x : Bay} (h : x.seq.arms = []) : (x.past d).seq.pc = d.pc + 1 := by
  show (armsGoto x.seq.arms (d.pc + 1)).2 = d.pc + 1
  rw [h]
  rfl

/-- A bay in no scope of its run ends its stream and changes nothing else (R419, R535). -/
theorem State.endBay_of_noScope (s : State) (d : Due) (h : ∀ c ∈ d.run.scopes, d.b ∉ c.bays) :
    s.endBay d = s.modBay d.b fun x => { x with seq := { x.seq with stamp := d.t, gap := 0, ended := true } } := by
  have hmine : (d.run.scopes.filter fun c => c.bays.contains d.b) = [] :=
    List.filter_eq_nil_iff.2 fun c hc => by simpa using h c hc
  unfold State.endBay
  simp only [hmine]
  rfl

theorem endStream_of_issues (h : Issues s b .endStream d) (hs : ∀ c ∈ d.run.scopes, b ∉ c.bays) : endStream b s =
    s.setBay b { (s.bay b).past d with seq := { ((s.bay b).past d).seq with stamp := d.t, gap := 0, ended := true } } := by
  obtain rfl := (falls_of_issues h).bay
  exact (issue_of_issues h _).trans ((State.endBay_of_noScope _ d hs).trans ((falls_of_issues h).modBay_advance _))

/-! ### LOOP (R400 to R402) -/

/-- The counter of the level of a LOOP and whether the bay continues at TARGET, as its entry finds them. -/
def loopPass (x : Bay) (d : Due) : LoopLevel × Bool :=
  (x.seq.loops.get (Fin.ofNat 4 (bits d.w 95 94))).pass (bits d.w 79 48) (bits d.w 47 27)

/-- The sequencer behind a LOOP. -/
def loopSeq (x : Bay) (d : Due) : Seq :=
  let lv : Fin 4 := Fin.ofNat 4 (bits d.w 95 94)
  Seq.goto { (x.past d).seq with
      arms := x.seq.arms
      loops := x.seq.loops.set lv.val { (loopPass x d).1 with lo := bits d.w 93 80, hi := d.pc } lv.isLt }
    (if (loopPass x d).2 then bits d.w 93 80 else d.pc + 1)

theorem loop_of_issues (h : Issues s b .loop d) : loop b s =
    s.setBay b { (s.bay b).past d with seq := loopSeq (s.bay b) d } :=
  (issue_of_issues h _).trans ((falls_of_issues h).modBay_advance _)

theorem LoopLevel.pass_of_last {l : LoopLevel} {count stride : Nat}
    (h : (if l.active then l.remaining else count - 1) = 0) : l.pass count stride = (LoopLevel.reset, false) := if_pos h

theorem LoopLevel.pass_of_more {l : LoopLevel} {count stride : Nat}
    (h : (if l.active then l.remaining else count - 1) ≠ 0) : l.pass count stride =
      ({ l with active := true, remaining := (if l.active then l.remaining else count - 1) - 1,
                iteration := l.iteration + 1, stride := stride }, true) := if_neg h

/-- The level of a LOOP behind it, as the place it leads to sees it. -/
theorem loopSeq_level (x : Bay) (d : Due) :
    (loopSeq x d).loops.get (Fin.ofNat 4 (bits d.w 95 94)) =
      LoopLevel.seenAt { (loopPass x d).1 with lo := bits d.w 93 80, hi := d.pc } (loopSeq x d).pc (loopSeq x d).arms := by
  show (Vector.map _ _).get _ = _
  rw [Vector.get_map, vec_get_set_same]
  rfl

theorem loopSeq_pc {x : Bay} (h : x.seq.arms = []) :
    (loopSeq x d).pc = if (loopPass x d).2 then bits d.w 93 80 else d.pc + 1 := by
  show (armsGoto x.seq.arms _).2 = _
  rw [h]
  rfl

theorem LoopLevel.seenAt_fields (l : LoopLevel) (pc : Nat) (arms : List (Nat × Nat)) :
    l.seenAt pc arms = { l with iteration := (l.seenAt pc arms).iteration } := by
  unfold LoopLevel.seenAt
  split <;> rfl

theorem LoopLevel.seenAt_of_zero {l : LoopLevel} (h : l.iteration = 0) (pc : Nat) (arms : List (Nat × Nat)) :
    l.seenAt pc arms = l := by
  unfold LoopLevel.seenAt
  split
  · rfl
  · rw [← h]

theorem LoopLevel.seenAt_of_inside {l : LoopLevel} {pc : Nat} (h : l.lo ≤ pc ∧ pc ≤ l.hi) (arms : List (Nat × Nat)) :
    l.seenAt pc arms = l := by
  unfold LoopLevel.seenAt
  rw [if_pos (by simp [h])]

/-! ### MAINT_SLOT (R417) -/

/-- MAINT_SLOT's lending in one bank group. -/
def State.lend (s : State) (k n : Nat) : State :=
  s.setWeave { s.weave with lent := Tab.set s.weave.lent 0 k (Tab.get s.weave.lent 0 k + n) }

theorem foldl_lend (q : QNum) (n : Nat) (l : List Nat) (hl : l.Nodup) (hlt : ∀ g ∈ l, g < 12) : ∀ u : State,
    Tab.rising 0 u.weave.lent = true →
    let v := l.foldl (fun u g => u.lend (q.val * 12 + g) n) u
    (∃ w, v = u.setWeave w) ∧ ∀ (p : QNum) (g : Nat), g < 12 → Tab.get v.weave.lent 0 (p.val * 12 + g) =
      Tab.get u.weave.lent 0 (p.val * 12 + g) + if p = q ∧ g ∈ l then n else 0 := by
  induction l with
  | nil => exact fun u _ => ⟨⟨u.weave, rfl⟩, fun p g _ => by simp⟩
  | cons a l ih =>
    intro u hu
    obtain ⟨hnot, hnodup⟩ := List.nodup_cons.1 hl
    obtain ⟨⟨w, hw⟩, hget⟩ := ih hnodup (fun g hg => hlt g (List.mem_cons_of_mem _ hg)) (u.lend (q.val * 12 + a) n)
      (Tab.rising_set hu _ _ _)
    refine ⟨⟨w, hw⟩, fun p g hg => (hget p g hg).trans ?_⟩
    have ha := hlt a List.mem_cons_self
    have hset : Tab.get (u.lend (q.val * 12 + a) n).weave.lent 0 (p.val * 12 + g) =
        if p.val * 12 + g = q.val * 12 + a then Tab.get u.weave.lent 0 (q.val * 12 + a) + n
        else Tab.get u.weave.lent 0 (p.val * 12 + g) := Tab.get_set_of_rising _ _ _ _ hu
    rw [hset]
    by_cases hpq : p = q
    · subst hpq
      by_cases hga : g = a
      · subst hga; simp [hnot]
      · have : ¬ p.val * 12 + g = p.val * 12 + a := by omega
        simp [hga]
    · have : ¬ p.val * 12 + g = q.val * 12 + a := fun he => hpq (Fin.ext (by omega))
      simp [this, hpq]

/-- The bank groups a mask of twelve names. -/
theorem mem_groupsOf (m g : Nat) (hg : g < 12) : g ∈ (List.range 12).filter (fun g => bit m g) ↔ bit m g = true := by
  simp [hg]

theorem maintSlot_of_issues (hinv : Inv s) (h : Issues s b .maintSlot d) :
    (∃ w, maintSlot b s = (s.setBay b ((s.bay b).past d)).setWeave w) ∧ ∀ (q : QNum) (g : Nat), g < 12 →
      Tab.get (maintSlot b s).weave.lent 0 (q.val * 12 + g) = Tab.get s.weave.lent 0 (q.val * 12 + g) +
        if q = d.q ∧ bit (bits d.w 95 84) g = true then bits d.w 83 68 else 0 := by
  have heq : maintSlot b s = ((List.range 12).filter fun g => bit (bits d.w 95 84) g).foldl
      (fun u g => u.lend (d.q.val * 12 + g) (bits d.w 83 68)) (s.setBay b ((s.bay b).past d)) :=
    (falls_of_issues h).advance_eq ▸ issue_of_issues h _
  obtain ⟨hw, hget⟩ := foldl_lend d.q (bits d.w 83 68) ((List.range 12).filter fun g => bit (bits d.w 95 84) g)
    (List.nodup_range.filter _) (fun g hg => List.mem_range.1 (List.mem_filter.1 hg).1) (s.setBay b ((s.bay b).past d))
    (s.canonical_iff.2 hinv).weave.lent
  rw [heq]
  refine ⟨hw, fun q g hg => (hget q g hg).trans ?_⟩
  simp only [mem_groupsOf _ _ hg, State.setBay_weave]

theorem sequencerControlClause : SequencerControlClause := by
  intro s b d x
  refine ⟨fun h => ?_, fun h => ?_, fun h hs => ?_, fun h => ?_, fun hinv h => ?_⟩
  · refine ⟨_, congrArg Host.Outcome.next (precisionFence_of_issues h), onlyBay_setBay _ _ _, (falls_of_issues h).passed ?_,
      ?_, ?_⟩ <;>
      rw [State.setBay_bay]
    · exact ⟨rfl, rfl, rfl, rfl, rfl, rfl, rfl⟩
    · rfl
    · rfl
  · refine ⟨_, congrArg Host.Outcome.next (idle_of_issues h), onlyBay_setBay _ _ _, ?_, ?_,
      fun ha => ?_⟩ <;> rw [State.setBay_bay]
    · rfl
    · exact Bay.past_pc ha
  · refine ⟨_, congrArg Host.Outcome.next (endStream_of_issues h hs), onlyBay_setBay _ _ _, ?_, ?_⟩ <;> rw [State.setBay_bay]
  · intro lv l left
    have hrun : exec (.loop b) s = .next (s.setBay b { (s.bay b).past d with seq := loopSeq (s.bay b) d }) :=
      congrArg _ (loop_of_issues h)
    refine ⟨fun hleft => ⟨_, hrun, onlyBay_setBay _ _ _, ?_⟩, fun hleft => ⟨_, hrun, onlyBay_setBay _ _ _, ?_⟩⟩ <;>
      rw [State.setBay_bay]
    · have hpass : loopPass (s.bay b) d = (LoopLevel.reset, false) := LoopLevel.pass_of_last hleft
      refine ⟨rfl, ?_, fun ha => ?_⟩
      · refine (loopSeq_level _ _).trans ?_
        rw [hpass]
        exact LoopLevel.seenAt_of_zero rfl _ _
      · refine (loopSeq_pc ha).trans ?_
        rw [hpass]
        rfl
    · have hpass : loopPass (s.bay b) d = ({ l with
          active := true, remaining := left - 1, iteration := l.iteration + 1, stride := bits d.w 47 27 }, true) :=
        LoopLevel.pass_of_more hleft
      have hpc : (s.bay b).seq.arms = [] → (loopSeq (s.bay b) d).pc = bits d.w 93 80 := fun ha => by
        rw [loopSeq_pc ha, hpass]
        rfl
      have hlevel := loopSeq_level (s.bay b) d
      rw [hpass] at hlevel
      have hfields := hlevel.trans (LoopLevel.seenAt_fields _ _ _)
      refine ⟨rfl, ?_, hpc⟩
      refine ⟨congrArg LoopLevel.active hfields, congrArg LoopLevel.remaining hfields, congrArg LoopLevel.stride hfields,
        congrArg LoopLevel.lo hfields, congrArg LoopLevel.hi hfields, fun ha hle => ?_⟩
      refine congrArg LoopLevel.iteration (hlevel.trans (LoopLevel.seenAt_of_inside ?_ _))
      rw [hpc ha]
      rw [show _ = bits d.w 93 80 from congrArg LoopLevel.lo hfields,
        show _ = d.pc from congrArg LoopLevel.hi hfields] at hle
      exact ⟨Nat.le_refl _, hle⟩
  · obtain ⟨⟨w, hw⟩, hlent⟩ := maintSlot_of_issues hinv h
    refine ⟨_, rfl, (falls_of_issues h).passed ?_, hlent, ?_⟩ <;> rw [hw]
    · rw [show ((s.setBay b ((s.bay b).past d)).setWeave w).bay b = (s.bay b).past d from State.setBay_bay _ _ _]
      exact ⟨rfl, rfl, rfl, rfl, rfl, rfl, rfl⟩
    · exact ⟨rfl, rfl, rfl, rfl, rfl, rfl⟩

/-! ### Violations (R37, R299) -/

/-- Nothing else that falls due with the entry violates anything: what it violates alone is counted. -/
theorem State.violate_of_only (h : OnlyViolator s d) (v : Viol) : s.violate d [v] =
    match v.check with
    | some c => s.valFail d.q d.run.entry d.run.handle d.run.impNo (c.1, v.detail) d.b.val d.idx d.elapsed
    | none => s.freeze d.q v.cause (bay := d.b.val) (ring := d.run.entry.ring.val) (imp := d.idx) (cycle := d.elapsed)
        (cid := d.run.entry.cid) (sqi := d.run.entry.slot) (detail := v.detail) := by
  have hothers : (((s.together d).filter fun x => !(x.b == d.b && x.pc == d.pc) && !s.held x).flatMap fun x =>
      (s.viols x).map fun v => (x, v)) = [] := by
    refine List.flatMap_eq_nil_iff.2 fun x hx => ?_
    obtain ⟨hmem, hx⟩ := List.mem_filter.1 hx
    rcases h x hmem with ⟨hb, hp⟩ | hv
    · simp [hb, hp] at hx
    · rw [hv, List.map_nil]
  unfold State.violate
  simp only [hothers]
  rfl

/-- An entry that alone violates something without an issue check freezes its quire (R295). -/
theorem State.Falls.frozenBy_violate (h : s.Falls b d) (hinv : Inv s) (honly : OnlyViolator s d) {cause detail : Nat}
    (hcause : cause < 256) (hdetail : detail < 2 ^ 32) : FrozenBy s (s.violate d [⟨cause, detail, none⟩]) d.q cause detail := by
  rw [State.violate_of_only honly]
  exact s.freeze_frozenBy d.q _ _ _ _ _ _ _ _ h.lively (s.canonical_iff.2 hinv).dict.vals hcause hdetail

/-! ### SIGNAL_STITCH and WAIT_STITCH (R330, R335, R337, R339) -/

theorem Run.stitchOf_lt (r : Run) (k : Nat) : r.stitchOf k < 4096 := by
  unfold Run.stitchOf
  cases r.binds[k]? with
  | none => decide
  | some x => exact Nat.mod_lt _ (by decide)

theorem State.viols_signalStitch (h : entryKind d.w = some .signalStitch) : s.viols d =
    violIf (!s.ownsStitch d.q (d.run.stitchOf (bits d.w 95 88)))
      ⟨FC.foreignStitch, d.run.stitchOf (bits d.w 95 88), none⟩ := by
  unfold State.viols
  simp only [h]

theorem State.viols_waitStitch (h : entryKind d.w = some .waitStitch) : s.viols d =
    violIf (!s.mayWait d.q (d.run.stitchOf (bits d.w 95 88)))
      ⟨FC.foreignStitch, d.run.stitchOf (bits d.w 95 88), none⟩ := by
  unfold State.viols
  simp only [h]

theorem State.stitch_setStitch (hst : Tab.rising 0 s.st.stitches = true) (n m : Nat) (x : Stitch) :
    (s.setStitch n x).stitch m = if m = n then x else s.stitch m := Tab.get_set_of_rising _ _ _ _ hst

/-- An entry that names a stitch its quire may not use freezes the quire (R330). -/
theorem frozenBy_of_foreignStitch (hinv : Inv s) (h : Issues s b k d) (f : Due → State → State)
    (honly : OnlyViolator s d) {n : Nat} (hn : n < 4096) (hv : s.viols d = [⟨FC.foreignStitch, n, none⟩]) :
    FrozenBy s (s.issueChecked b k f) d.q FC.foreignStitch n := by
  rw [issueChecked_of_viol h f (by rw [hv]; exact List.cons_ne_nil _ _), hv]
  exact (falls_of_issues h).frozenBy_violate hinv honly (by decide) (by omega)

/-- What the sequencer holds of a wait (R339, R527). -/
def seqWaitOf (s : State) (d : Due) : SeqWait :=
  let timeout := bits d.w 87 56
  ⟨d.run.stitchOf (bits d.w 95 88), d.elapsed, if timeout = 0 ∨ timeout = 0xFFFFFFFF then none else some timeout,
    (s.issueOf d).scope⟩

/-- The bay behind a WAIT_STITCH. -/
def Bay.waiting (x : Bay) (s : State) (d : Due) : Bay :=
  { x.past d with seq := { (x.past d).seq with
      wait := some (seqWaitOf s d), waited := if bits d.w 87 56 = 0 then d.elapsed else 0 } }

theorem waitStitch_of_issues (h : Issues s b .waitStitch d) (hmay : s.mayWait d.q (d.run.stitchOf (bits d.w 95 88)) = true) :
    waitStitch b s = (s.setBay b ((s.bay b).waiting s d)).startWait (d.run.stitchOf (bits d.w 95 88)) (.bay b) d.q
      (bits d.w 87 56 == 0) := by
  have hv : s.viols d = [] := by rw [State.viols_waitStitch (kind_of_issues h), hmay]; rfl
  exact (issueChecked_of_clean h _ hv).trans
    (congrArg (fun u : State => u.startWait _ (.bay b) d.q (bits d.w 87 56 == 0)) ((falls_of_issues h).modBay_advance _))

theorem signalStitch_of_issues (h : Issues s b .signalStitch d)
    (hown : s.ownsStitch d.q (d.run.stitchOf (bits d.w 95 88)) = true) :
    signalStitch b s = (s.setBay b ((s.bay b).past d)).signal (d.run.stitchOf (bits d.w 95 88)) (bits d.w 87 56) := by
  have hv : s.viols d = [] := by rw [State.viols_signalStitch (kind_of_issues h), hown]; rfl
  exact (issueChecked_of_clean h _ hv).trans ((falls_of_issues h).advance_eq ▸ rfl)

theorem sequencerStitchesClause : SequencerStitchesClause := by
  intro s b d hinv n x timeout
  have hn : n < 4096 := Run.stitchOf_lt _ _
  refine ⟨fun h => ⟨fun hown => ?_, fun hown honly => ?_⟩, fun h => ⟨fun hmay honly => ?_, fun hmay => ?_⟩⟩
  · refine ⟨_, congrArg Host.Outcome.next (signalStitch_of_issues h hown), (falls_of_issues h).passed ?_, rfl, rfl, rfl, rfl⟩
    rw [show ((s.setBay b ((s.bay b).past d)).signal (d.run.stitchOf (bits d.w 95 88)) (bits d.w 87 56)).bay b =
      (s.bay b).past d from State.setBay_bay _ _ _]
    exact ⟨rfl, rfl, rfl, rfl, rfl, rfl, rfl⟩
  · refine ⟨_, rfl, frozenBy_of_foreignStitch hinv h _ honly hn ?_⟩
    rw [State.viols_signalStitch (kind_of_issues h), hown]
    rfl
  · refine ⟨_, rfl, frozenBy_of_foreignStitch hinv h _ honly hn ?_⟩
    rw [State.viols_waitStitch (kind_of_issues h), hmay]
    rfl
  · have hbay : ∀ y now, (((s.setBay b y).startWait n (.bay b) d.q now).bay b) = y := fun y now => State.setBay_bay _ _ _
    have hstitch := fun m => State.stitch_setStitch (s := s.setBay b ((s.bay b).waiting s d)) (s.canonical_iff.2 hinv).st n m
      { x with waits := joinWaits ⟨.bay b, d.q, true, timeout == 0⟩ x.waits }
    refine ⟨_, congrArg Host.Outcome.next (waitStitch_of_issues h hmay), (falls_of_issues h).passed ?_, ?_,
      (hstitch n).trans (if_pos rfl), fun m hm => (hstitch m).trans (if_neg hm), ?_, rfl, rfl, rfl⟩ <;> rw [hbay]
    · exact ⟨rfl, rfl, rfl, rfl, rfl, rfl, rfl⟩
    · rfl
    · rfl

/-! ### The outcome of a bay's wait (R344, R379, R392) -/

theorem State.countWait_bays (s : State) (q : QNum) (o : Outcome) : (s.countWait q o).bays = s.bays := by
  cases o <;> rfl

theorem State.countWait_st (s : State) (q : QNum) (o : Outcome) : (s.countWait q o).st = s.st := by
  cases o <;> rfl

theorem State.countWait_out (s : State) (q : QNum) (o : Outcome) : (s.countWait q o).out = s.out := by
  cases o <;> rfl

/-- The end of a wait that holds no slip on notes it in its run alone. -/
theorem State.noteWait_eq (s : State) (b : BayNum) : ∃ v, s.noteWait b = { s with quires := v } := by
  unfold State.noteWait
  split
  · split
    · split
      · exact ⟨_, rfl⟩
      · exact ⟨_, rfl⟩
    · exact ⟨_, rfl⟩
  · exact ⟨_, rfl⟩

theorem State.runOf_congr (hb : t.bays = s.bays) (hq : t.quires = s.quires) (b : BayNum) : t.runOf b = s.runOf b := by
  unfold State.runOf State.run State.bay State.quire
  rw [hb, hq]

/-- The end of a bay's wait: what it counts, the bay, and the note in its run. -/
theorem State.endWait_of_bay {h : Held} (hwho : h.who = .bay b) (o : Outcome) (count : Nat) : ∃ v,
    let slips := ((s.runOf b).map fun p => p.2.slipping.isSome).getD true
    let stamp := ((s.runOf b).map fun p => s.lastStamp p.2).getD 0
    s.endWait h o count = { (s.countWait h.quire o).modBay b (fun x => x.waitEnds slips stamp (waitCode o)) with quires :=
        v } := by
  unfold State.endWait
  simp only [hwho]
  obtain ⟨v, hv⟩ := State.noteWait_eq ((s.countWait h.quire o).modBay b fun x => x.waitEnds
    (((s.runOf b).map fun p => p.2.slipping.isSome).getD true) (((s.runOf b).map fun p => s.lastStamp p.2).getD 0) (waitCode
        o)) b
  refine ⟨v, Eq.trans ?_ hv⟩
  have hstamp : (s.countWait h.quire o).lastStamp = s.lastStamp := by
    funext r
    unfold State.lastStamp State.bay
    rw [s.countWait_bays]
  rw [State.runOf_congr (s.countWait_bays _ _) (s.countWait_quires _ _), Option.map_map, Option.map_map, hstamp]
  rfl

theorem Bay.waitEnds_of_slip {x : Bay} (hx : Tab.rising 0 x.dregs = true) (stamp code : Nat) :
    Tab.get (x.waitEnds true stamp code).dregs 0 resSeqDreg = code :=
  (Tab.get_set_of_rising _ _ _ _ hx).trans (if_pos rfl)

theorem Bay.waitEnds_wait (x : Bay) (slips : Bool) (stamp code : Nat) : (x.waitEnds slips stamp code).seq.wait = none := by
  cases slips <;> rfl

theorem bayWaitsEndClause : BayWaitsEndClause := by
  intro s b h o count hinv hwho code t
  have hcode : code = waitCode o := by cases o <;> rfl
  obtain ⟨v, hv⟩ := s.endWait_of_bay hwho o count
  have hq : ∀ (u : State) v, ({ u with quires := v } : State).bay b = u.bay b := fun _ _ => rfl
  have hbay : t.bay b = (s.bay b).waitEnds (((s.runOf b).map fun p => p.2.slipping.isSome).getD true)
      (((s.runOf b).map fun p => s.lastStamp p.2).getD 0) (waitCode o) := by
    rw [show t = _ from hv]
    refine (hq _ _).trans ((State.modBay_bay _ _ _).trans ?_)
    unfold State.bay
    rw [s.countWait_bays]
  refine ⟨?_, ?_, ?_, fun c hc => ?_, fun hslip => ?_, fun q r hrun hsteady => ?_⟩
  · rw [hbay, Bay.waitEnds_wait]
  · rw [show t = _ from hv]
    exact s.countWait_st _ _
  · rw [show t = _ from hv]
    exact s.countWait_out _ _
  · rw [show t = _ from hv]
    refine (State.setBay_bay_ne _ _ _ _ hc).trans ?_
    unfold State.bay
    rw [s.countWait_bays]
  · have hslips : ((s.runOf b).map fun p => p.2.slipping.isSome).getD true = true := by
      cases hrun : s.runOf b with
      | none => rfl
      | some p => exact Option.isSome_iff_ne_none.2 (hslip p.1 p.2 hrun)
    rw [hbay, hslips, hcode]
    exact Bay.waitEnds_of_slip ((s.canonical_iff.2 hinv).bay b).dregs _ _
  · rw [hbay, hrun, hcode]
    simp only [Option.map_some, Option.getD_some, hsteady, Option.isSome_none]
    exact ⟨_, rfl, rfl⟩

/-- Settles O26: a lemma for the issue of an entry that nothing holds, then an equation for each control entry. -/
theorem sequencerEntries : Obligations.SequencerEntries :=
  ⟨sequencerControlClause, sequencerStitchesClause, bayWaitsEndClause⟩

end Sys2Proof.Machine
end

section
/-! PROOFS. The sentinel listens: frames are judged, a detection wakes (17; R78, R95, R802 to R829). -/

namespace Sys2Proof.Machine

variable {s t u : State}

/-! ### What a freeze leaves of the sentinel (R295, R829) -/

/-- `t` has the sentinel of `s`. -/
structure State.SentKept (s t : State) : Prop where
  sent : t.sent = s.sent

namespace State.SentKept

theorem refl (s : State) : s.SentKept s := ⟨rfl⟩

theorem trans (h : s.SentKept t) (h' : t.SentKept u) : s.SentKept u := ⟨h'.sent.trans h.sent⟩

theorem foldl {α : Type} {f : State → α → State} {l : List α} (h : s.SentKept t)
    (hf : ∀ (u : State) (a : α), u.SentKept (f u a)) : s.SentKept (l.foldl f t) :=
  List.foldlRecOn l f h fun u hu a _ => hu.trans (hf u a)

section
variable (h : s.SentKept t)
include h

theorem modRun {q : QNum} {id : Nat} {f : Run → Run} : s.SentKept (t.modRun q id f) := ⟨h.sent⟩
theorem count {k n : Nat} : s.SentKept (t.count k n) := ⟨h.sent⟩
theorem wr {k v : Nat} : s.SentKept (t.wr k v) := ⟨h.sent⟩
theorem setSt {x : StitchUnit} : s.SentKept (t.setSt x) := ⟨h.sent⟩
theorem setWeave {x : Weave} : s.SentKept (t.setWeave x) := ⟨h.sent⟩
theorem modQuire {q : QNum} {f : Quire → Quire} : s.SentKept (t.modQuire q f) := ⟨h.sent⟩

end

end State.SentKept

theorem State.setLeaf_sentKept (s : State) (p : Place) (n : Nat) (f : Mem) : s.SentKept (s.setLeaf p n f) := by
  cases p <;> exact ⟨rfl⟩

theorem State.voidLeaf_sentKept (s : State) (q : QNum) (addr : Nat) : s.SentKept (s.voidLeaf q addr) := by
  unfold State.voidLeaf
  split
  · split
    · exact ⟨(s.setLeaf_sentKept _ _ _).sent⟩
    · exact .refl s
  · exact .refl s

theorem State.leaveFrame_sentKept (s : State) (q : QNum) (addr : Nat) (f : Mem) (xo : Bool) :
    s.SentKept (s.leaveFrame q addr f xo) := by
  unfold State.leaveFrame
  split
  · split
    · exact ⟨(s.setLeaf_sentKept _ _ _).sent⟩
    · exact ⟨rfl⟩
    · exact .refl s
  · exact .refl s

theorem State.dropUnsensed_sentKept (s : State) (q : QNum) (run sc : Nat) : s.SentKept (s.dropUnsensed q run sc) := by
  refine .count (.foldl (.setWeave (.refl s)) fun t r => ?_)
  split
  · exact ⟨rfl⟩
  · exact .refl t

theorem State.absorbSignals_sentKept (s : State) (ns : List Nat) : s.SentKept (s.absorbSignals ns) := by
  refine .foldl (.setSt (.refl s)) fun t p => ?_
  split
  · exact .count (.refl t)
  · exact .refl t

theorem State.countClose_sentKept (s : State) (q : QNum) (run : Nat) (sc : Scope) (committed : Bool) :
    s.SentKept (s.countClose q run sc committed) := by
  unfold State.countClose
  split
  · exact .count (.count (.count (.count (.modRun (.refl s)))))
  · exact .count (.count (.count (.count (.modRun (.refl s)))))

theorem State.cancelScope_sentKept (s : State) (q : QNum) (r : Run) (sc : Scope) : s.SentKept (s.cancelScope q r sc) := by
  refine State.SentKept.trans ?_ (State.countClose_sentKept _ q r.id sc false)
  refine .foldl (.trans (.modRun ?_) (State.absorbSignals_sentKept _ _)) fun t n => ⟨rfl⟩
  refine .foldl (.foldl (s.dropUnsensed_sentKept q r.id sc.id) fun t b => ⟨rfl⟩) fun t e => ?_
  exact t.voidLeaf_sentKept q e.1

theorem State.cancelScopes_sentKept (s : State) (q : QNum) : s.SentKept (s.cancelScopes q) :=
  .foldl (.refl s) fun t _ => .modRun (.foldl (.refl t) fun u c => u.cancelScope_sentKept q _ c)

theorem State.endBayRun_sentKept (s : State) (q : QNum) (b : BayNum) : s.SentKept (s.endBayRun q b) := by
  unfold State.endBayRun
  split
  · split
    · refine .trans (.foldl (.refl s) fun t m => ?_) ⟨rfl⟩
      exact t.leaveFrame_sentKept q m.addr m.frame m.xo
    · exact .refl s
  · exact .refl s

theorem State.endRuns_sentKept (s : State) (q : QNum) : s.SentKept (s.endRuns q) :=
  .foldl ((s.cancelScopes_sentKept q).trans ⟨rfl⟩) fun t b => t.endBayRun_sentKept q b

theorem State.endDisabling_sentKept (s : State) (q : QNum) (d : Option Disabling) : s.SentKept (s.endDisabling q d) := by
  unfold State.endDisabling
  split
  · exact ⟨rfl⟩
  · exact .refl s

theorem State.msixSend_sentKept (s : State) (v : Nat) : s.SentKept (s.msixSend v) := by
  obtain ⟨out, msix, h⟩ := s.msixSend_eq v
  exact h ▸ ⟨rfl⟩

theorem State.sentAbandon_sent (s : State) : s.sentAbandon.sent = { s.sent with detect := none, stopAtEnd := false } := by
  unfold State.sentAbandon
  dsimp only
  split <;> rfl

theorem State.stopQuire_sentKept (s : State) (q : QNum) : s.SentKept (s.stopQuire q) := by
  obtain ⟨bays, h⟩ := s.stopQuire_eq q
  exact h ▸ ⟨rfl⟩

theorem State.poisonQuire_sentKept (s : State) (q : QNum) : s.SentKept (s.poisonQuire q) :=
  .setWeave (.setSt (.setSt (.refl s)))

theorem State.haltQuire_sent (s : State) : (s.haltQuire 7).sent = { s.sent with detect := none, stopAtEnd := false } := by
  have hkept := (s.stopQuire_sentKept 7).trans (State.poisonQuire_sentKept _ 7)
  unfold State.haltQuire
  rw [if_pos rfl, State.sentAbandon_sent, hkept.sent]

/-- The freeze of Q7 abandons the frame and the detection (R295). -/
theorem State.freeze_sent (s : State) (cause bay ring imp cycle cid sqi detail : Nat) (h : Lively s 7) :
    (s.freeze 7 cause bay ring imp cycle cid sqi detail).sent = { s.sent with detect := none, stopAtEnd := false } := by
  have hmark : ∀ u : State, u.SentKept (u.markFrozen 7) := fun u => .count (.modQuire (.refl u))
  rw [s.freeze_of_lively 7 _ _ _ _ _ _ _ _ h, (State.msixSend_sentKept _ _).sent, (State.endDisabling_sentKept _ _ _).sent,
    (hmark _).sent, State.haltQuire_sent, (State.SentKept.wr (s.endRuns_sentKept 7)).sent]

theorem State.haltQuire_shellKept (s : State) (q : QNum) : s.ShellKept (s.haltQuire q) := by
  have hpoison : s.ShellKept ((s.stopQuire q).poisonQuire q) :=
    .setWeave (.setSt (.setSt (s.stopQuire_shellKept q)))
  unfold State.haltQuire
  exact .ite (hpoison.trans (State.sentAbandon_shellKept _)) hpoison

theorem State.endDisabling_shellKept (s : State) (q : QNum) (d : Option Disabling) : s.ShellKept (s.endDisabling q d) := by
  unfold State.endDisabling
  exact .ite (.cmdDone (.modQuire (.refl s)) (endsWithReset_qDisable q)) (.refl s)

/-- A freeze keeps the shell of the state. -/
theorem State.freeze_shellKept (s : State) (q : QNum) (cause bay ring imp cycle cid sqi detail : Nat) (h : Lively s q) :
    s.ShellKept (s.freeze q cause bay ring imp cycle cid sqi detail) := by
  rw [s.freeze_of_lively q _ _ _ _ _ _ _ _ h]
  refine State.ShellKept.msixSend (.trans ?_ (State.endDisabling_shellKept _ q _))
  exact .count (.modQuire (.trans (.wr (s.endRuns_shellKept q)) (State.haltQuire_shellKept _ q)))

/-- An entry that a freeze does not name reads as before (R295). -/
theorem State.freeze_rd (s : State) (q : QNum) (cause bay ring imp cycle cid sqi detail : Nat) (h : Lively s q)
    (hwf : valsWf s.sku 0 s.dict.vals = true) {k : Nat} (hhalt : ¬ isHaltKey k) (htally : ¬ isTally k)
    (hfreezes : k ≠ Key.qFreezes q) (hrecord : k ≠ Key.qFaultRecord q) :
    (s.freeze q cause bay ring imp cycle cid sqi detail).rd k = s.rd k := by
  have hruns := (s.endRuns_runsTouched q).regs
  rw [s.freeze_of_lively q _ _ _ _ _ _ _ _ h, State.msixSend_rd, State.endDisabling_rd,
    State.markFrozen_rd _ q ((State.haltQuire_regsKept _ q).wf (State.wr_wf _ _ _ (hruns.wf hwf))) hfreezes,
    (State.haltQuire_regsKept _ q).rd (State.wr_wf _ _ _ (hruns.wf hwf)) _ hhalt, State.rd_wr _ _ _ _ (hruns.wf hwf),
    if_neg hrecord, hruns.rd hwf k htally]

/-! ### The end of a frame (R799, R829) -/

theorem State.stepEntry_of_none (h : s.pm.entry = none) : s.stepEntry = s := by
  unfold State.stepEntry
  simp only [h]

/-- The sentinel once a frame is over. -/
def Sentinel.framed (x : Sentinel) : Sentinel := { x with frame := x.frame + 1, settling := false }

theorem Sentinel.framed_of_running {x : Sentinel} (h : x.stopAtEnd = false) :
    ({ x.framed with stopAtEnd := false } : Sentinel) = x.framed := by
  obtain ⟨⟩ := x
  dsimp only at h
  subst h
  rfl

theorem State.frameOver_eq (h : s.sent.stopAtEnd = false) : s.frameOver =
    if s.rd Key.sentState = 3 then (s.setSent s.sent.framed).wr Key.sentState 1 else s.setSent s.sent.framed := by
  unfold State.frameOver
  by_cases hstate : s.rd Key.sentState = 3
  · rw [if_pos hstate]
    refine (if_pos (by rw [hstate]; rfl)).trans ?_
    exact congrArg (fun x => (s.setSent x).wr Key.sentState 1) (Sentinel.framed_of_running h)
  · rw [if_neg hstate]
    exact if_neg (by simp [hstate, h])

/-- What the end of a frame keeps, and the state the sentinel is left in. -/
theorem State.frameOver_facts (hwf : valsWf s.sku 0 s.dict.vals = true) (hstop : s.sent.stopAtEnd = false)
    (hstate : s.rd Key.sentState = 2 ∨ s.rd Key.sentState = 3) :
    s.frameOver.sent = s.sent.framed ∧ s.frameOver.quires = s.quires ∧ s.frameOver.out = s.out ∧
      s.frameOver.pm = s.pm ∧ s.frameOver.rd Key.sentState = (if s.rd Key.sentState = 3 then 1 else 2) ∧
      ∀ k, k ≠ Key.sentState → s.frameOver.rd k = s.rd k := by
  rw [State.frameOver_eq hstop]
  split
  · exact ⟨rfl, rfl, rfl, rfl, State.rd_wr_same (by exact hwf) _ _, fun k hk => State.rd_wr_other (by exact hwf) _ hk⟩
  · next h3 => exact ⟨rfl, rfl, rfl, rfl, hstate.resolve_right h3, fun k _ => rfl⟩

/-! ### Judging a frame (R822, R823) -/

/-- Frames in a row that the winning class has held (R822). -/
def holdOf (s : State) (w : Nat × Int) : Nat :=
  if toSigned 16 (s.rd Key.sentThresh) ≤ w.2 then
    if s.sent.holdCount ≠ 0 ∧ s.sent.holdClass = w.1 then s.sent.holdCount + 1 else 1
  else 0

/-- The refractory time has passed (R823). -/
def Rested (s : State) : Prop := ∀ n, s.sent.sinceDetect = some n → s.rd Key.sentRefract ≤ n

/-- A detection falls due (R822, R823). -/
def Detects (s : State) (w : Nat × Int) : Prop := 1 ≤ holdOf s w ∧ s.rd Key.sentHold ≤ holdOf s w ∧ Rested s

theorem rested_iff (s : State) : Rested s ↔
    (match s.sent.sinceDetect with | none => true | some n => decide (s.rd Key.sentRefract ≤ n)) = true := by
  unfold Rested
  cases s.sent.sinceDetect <;> simp

theorem State.rd_count_sentFrames (hwf : valsWf s.sku 0 s.dict.vals = true) (k : Nat) (h : k ≠ Key.sentFrames) :
    (s.count Key.sentFrames).rd k = s.rd k := State.rd_wr_other hwf _ h

theorem State.judge_eq (hwf : valsWf s.sku 0 s.dict.vals = true) (scores : List Int) : s.judge scores =
    (let w := winner scores
     if holdOf s w ≠ 0 ∧ s.rd Key.sentHold ≤ holdOf s w ∧
        (match s.sent.sinceDetect with | none => true | some n => decide (s.rd Key.sentRefract ≤ n)) = true then
      (s.count Key.sentFrames).setSent { s.sent with
        holdClass := w.1, holdCount := 0, sinceDetect := some 0, detect := some (w.1, w.2, s.sent.frame) }
     else (s.count Key.sentFrames).setSent { s.sent with
        holdClass := w.1, holdCount := holdOf s w, sinceDetect := s.sent.sinceDetect.map (· + 1) }) := by
  have hhold : (if !decide (toSigned 16 (s.rd Key.sentThresh) ≤ (winner scores).2) then 0
      else if s.sent.holdCount ≠ 0 ∧ s.sent.holdClass = (winner scores).1 then s.sent.holdCount + 1 else 1) =
      holdOf s (winner scores) := by
    unfold holdOf
    by_cases h : toSigned 16 (s.rd Key.sentThresh) ≤ (winner scores).2 <;> simp [h]
  unfold State.judge
  dsimp only
  rw [hhold, State.rd_count_sentFrames hwf _ (by decide)] <;> rfl

theorem State.judge_of_detects (hwf : valsWf s.sku 0 s.dict.vals = true) {scores : List Int}
    (h : Detects s (winner scores)) : s.judge scores = (s.count Key.sentFrames).setSent { s.sent with
      holdClass := (winner scores).1, holdCount := 0, sinceDetect := some 0,
      detect := some ((winner scores).1, (winner scores).2, s.sent.frame) } := by
  obtain ⟨hone, hhold, hrest⟩ := h
  exact (s.judge_eq hwf scores).trans (if_pos ⟨by omega, hhold, (rested_iff s).1 hrest⟩)

theorem State.judge_of_not (hwf : valsWf s.sku 0 s.dict.vals = true) {scores : List Int}
    (h : ¬ Detects s (winner scores)) : s.judge scores = (s.count Key.sentFrames).setSent { s.sent with
      holdClass := (winner scores).1, holdCount := holdOf s (winner scores),
      sinceDetect := s.sent.sinceDetect.map (· + 1) } :=
  (s.judge_eq hwf scores).trans (if_neg fun ⟨hone, hhold, hrest⟩ => h ⟨by omega, hhold, (rested_iff s).2 hrest⟩)

/-- A judged frame changes the sentinel and counts itself. -/
theorem State.judge_frame (hwf : valsWf s.sku 0 s.dict.vals = true) (scores : List Int) : ∃ x : Sentinel,
    s.judge scores = (s.count Key.sentFrames).setSent x ∧ x.frame = s.sent.frame ∧ x.history = s.sent.history ∧
      x.stopAtEnd = s.sent.stopAtEnd := by
  by_cases h : Detects s (winner scores)
  · exact ⟨_, State.judge_of_detects hwf h, rfl, rfl, rfl⟩
  · exact ⟨_, State.judge_of_not hwf h, rfl, rfl, rfl⟩

/-! ### Frames (R802, R804, R811, R813) -/

/-- The sentinel after the capture of a frame and its band filters (R801, R803). -/
def State.captured (s : State) (b0 b1 : List Bool) : State :=
  let x := s.sent
  let n := 16 * s.rd Key.sentFrameMs
  let keep := fun (past bits : List Bool) => ((bits.take (2 * s.pdmRate * n)).reverse ++ past).take pdmKeep
  s.setSent { x with
    pdm0 := keep x.pdm0 b0, pdm1 := keep x.pdm1 b1,
    biquad := (featureBank x.image x.biquad (selectPcm (imgLe x.image 8 1) (framePcm s.pdmRate n x.pdm0 b0)
      (framePcm s.pdmRate n x.pdm1 b1))).2 }

/-- The outputs of every layer in a frame (R803, R810). -/
def State.frameOut (s : State) (b0 b1 : List Bool) : List (List Int) :=
  let x := s.sent
  let n := 16 * s.rd Key.sentFrameMs
  runLayers x.image (featureBank x.image x.biquad (selectPcm (imgLe x.image 8 1) (framePcm s.pdmRate n x.pdm0 b0)
    (framePcm s.pdmRate n x.pdm1 b1))).1 x.history

theorem State.sentFrame_of_settling (b0 b1 : List Bool) {settling : Bool} (h : (settling || s.sent.settling) = true) :
    s.sentFrame b0 b1 settling = ((s.captured b0 b1).count Key.sentFramesSkipped).frameOver := if_pos h

theorem State.sentFrame_of_fault (b0 b1 : List Bool) (hset : s.sent.settling = false) {c : Nat × Nat}
    (hc : correlationFault (layersOf s.sent.image) = some c) : s.sentFrame b0 b1 false =
      ((s.captured b0 b1).count Key.sentCorrFaults).freeze 7 FC.correlation (imp := c.1) (cycle := c.2) := by
  refine (if_neg (by simp [hset])).trans ?_
  rw [hc]
  rfl

theorem State.sentFrame_of_judged (b0 b1 : List Bool) (hset : s.sent.settling = false)
    (hc : correlationFault (layersOf s.sent.image) = none) : s.sentFrame b0 b1 false =
      (((s.captured b0 b1).setSent { (s.captured b0 b1).sent with
        history := (s.frameOut b0 b1 :: s.sent.history).take 8 }).judge ((s.frameOut b0 b1).getLastD [])).frameOver := by
  refine (if_neg (by simp [hset])).trans ?_
  rw [hc]
  rfl

/-- The capture changes the filters' state and the bits kept, and nothing else. -/
theorem State.captured_eq (s : State) (b0 b1 : List Bool) : ∃ y : Sentinel, s.captured b0 b1 = s.setSent y ∧
    y.history = s.sent.history ∧ y.holdCount = s.sent.holdCount ∧ y.holdClass = s.sent.holdClass ∧
    y.sinceDetect = s.sent.sinceDetect ∧ y.detect = s.sent.detect ∧ y.frame = s.sent.frame ∧
    y.stopAtEnd = s.sent.stopAtEnd :=
  ⟨_, rfl, rfl, rfl, rfl, rfl, rfl, rfl, rfl⟩

/-- A frame ends in a device that enters no sleep and has no detection open. -/
theorem exec_sentFrameEnd (rise : Bool) (d : List Bool) (settling : Bool) (hdetect : s.sent.detect = none)
    (hstate : s.rd Key.sentState = 2 ∨ s.rd Key.sentState = 3)
    (ht : s.sentFrame (risingBits rise d) (fallingBits rise d) settling = t) (hpm : t.pm.entry = none) :
    exec (.sentFrameEnd rise d settling) s = .next t := by
  have hlisten : s.listening = true := by
    unfold State.listening
    rcases hstate with h | h <;> rw [h] <;> rfl
  have hdetectNow : s.detectNow = s := by
    unfold State.detectNow
    simp only [hdetect]
  refine congrArg Host.Outcome.next ?_
  unfold sentFrameEnd
  rw [if_pos hlisten, hdetectNow, ht, State.stepEntry_of_none hpm]

theorem State.maxOf_sent {k : Nat} (h : k = Key.sentFramesSkipped ∨ k = Key.sentCorrFaults ∨ k = Key.sentFrames ∨
    k = Key.sentDetections) : s.maxOf k = 0xFFFFFFFF := by
  rcases h with rfl | rfl | rfl | rfl <;> exact s.maxOf_of_card fun sku => by cases sku <;> decide

theorem State.rd_count_up (hwf : valsWf s.sku 0 s.dict.vals = true) {k : Nat} (hmax : s.maxOf k = 0xFFFFFFFF) :
    (s.count k).rd k = min (s.rd k + 1) 0xFFFFFFFF := by
  rw [s.rd_count_self _ _ hwf, hmax]

/-- A settling frame is skipped (R804). -/
theorem sentFrame_of_settling_facts (b0 b1 : List Bool) {settling : Bool} (hset : (settling || s.sent.settling) = true)
    (hwf : valsWf s.sku 0 s.dict.vals = true) (hstate : s.rd Key.sentState = 2 ∨ s.rd Key.sentState = 3)
    (hstop : s.sent.stopAtEnd = false) : ∃ y : Sentinel, s.sentFrame b0 b1 settling = t → t.sent = y.framed ∧
      y.history = s.sent.history ∧ y.holdCount = s.sent.holdCount ∧ y.sinceDetect = s.sent.sinceDetect ∧
      y.detect = s.sent.detect ∧ y.frame = s.sent.frame ∧ t.pm = s.pm ∧ t.quires = s.quires ∧ t.out = s.out ∧
      t.rd Key.sentFramesSkipped = min (s.rd Key.sentFramesSkipped + 1) 0xFFFFFFFF ∧
      t.rd Key.sentState = if s.rd Key.sentState = 3 then 1 else 2 := by
  obtain ⟨y, hy, hhist, hcount, -, hsince, hdetect, hframe, hrun⟩ := s.captured_eq b0 b1
  have hyes : ((s.setSent y).count Key.sentFramesSkipped).rd Key.sentState = s.rd Key.sentState :=
    State.rd_wr_other (by exact hwf) _ (by decide)
  obtain ⟨hsent, hquires, hout, hpm, hafter, hrd⟩ := State.frameOver_facts (s := (s.setSent y).count Key.sentFramesSkipped)
    (State.wr_wf _ _ _ (by exact hwf)) (hrun.trans hstop) (by rw [hyes]; exact hstate)
  refine ⟨y, fun ht => ?_⟩
  rw [State.sentFrame_of_settling b0 b1 hset, hy] at ht
  subst ht
  refine ⟨hsent, hhist, hcount, hsince, hdetect, hframe, hpm, hquires, hout, ?_, ?_⟩
  · exact (hrd _ (by decide)).trans (State.rd_count_up (by exact hwf) (State.maxOf_sent (Or.inl rfl)))
  · rw [hafter, hyes]

/-- A frame whose image reuses a generator freezes Q7 (R811, R813). -/
theorem sentFrame_of_fault_facts (b0 b1 : List Bool) (hset : s.sent.settling = false) {c : Nat × Nat}
    (hc : correlationFault (layersOf s.sent.image) = some c) (hwf : valsWf s.sku 0 s.dict.vals = true) (hlive : Lively s 7)
    (ht : s.sentFrame b0 b1 false = t) : FrozenBy s t 7 FC.correlation 0 ∧
      t.rd Key.sentCorrFaults = min (s.rd Key.sentCorrFaults + 1) 0xFFFFFFFF ∧ t.sent.history = s.sent.history ∧
      t.sent.detect = none ∧ t.pm = s.pm := by
  obtain ⟨y, hy, hhist, -⟩ := s.captured_eq b0 b1
  rw [State.sentFrame_of_fault b0 b1 hset hc, hy] at ht
  have huwf : valsWf ((s.setSent y).count Key.sentCorrFaults).sku 0 ((s.setSent y).count Key.sentCorrFaults).dict.vals = true :=
    State.wr_wf _ _ _ (by exact hwf)
  have hrange : ((s.setSent y).count Key.sentCorrFaults).stitchRange 7 = s.stitchRange 7 :=
    congrArg₂ Prod.mk (State.rd_wr_other (by exact hwf) _ (by decide)) (State.rd_wr_other (by exact hwf) _ (by decide))
  have hup : ((s.setSent y).count Key.sentCorrFaults).rd Key.sentCorrFaults = _ :=
    State.rd_count_up (by exact hwf) (State.maxOf_sent (Or.inr (Or.inl rfl)))
  have hulive : Lively ((s.setSent y).count Key.sentCorrFaults) 7 := hlive
  have hucompleted : (((s.setSent y).count Key.sentCorrFaults).quire 7).ctrCompleted = (s.quire 7).ctrCompleted := rfl
  have husent : ((s.setSent y).count Key.sentCorrFaults).sent = y := rfl
  have hupm : ((s.setSent y).count Key.sentCorrFaults).pm = s.pm := rfl
  generalize (s.setSent y).count Key.sentCorrFaults = u at *
  subst ht
  obtain ⟨hstate7, hcause, hdetail, hruns, hheld, hcompleted, hpoison⟩ :=
    u.freeze_frozenBy 7 FC.correlation 0xFF 0xFF c.1 c.2 0 0xFFFF 0 hulive huwf (by decide) (by decide)
  refine ⟨⟨hstate7, hcause, hdetail, hruns, hheld, hcompleted.trans hucompleted, hrange ▸ hpoison⟩, ?_, ?_, ?_, ?_⟩
  · exact (u.freeze_rd 7 _ _ _ _ _ _ _ _ hulive huwf (by unfold isHaltKey; decide) (by unfold isTally; decide) (by decide)
      (by decide)).trans hup
  · rw [u.freeze_sent _ _ _ _ _ _ _ _ hulive, husent]
    exact hhist
  · rw [u.freeze_sent _ _ _ _ _ _ _ _ hulive]
  · exact (u.freeze_shellKept 7 _ _ _ _ _ _ _ _ hulive).pm.trans hupm

/-- Any other frame runs the layers and is judged (R810, R822). -/
theorem sentFrame_of_judged_facts (b0 b1 : List Bool) (hset : s.sent.settling = false)
    (hc : correlationFault (layersOf s.sent.image) = none) (hwf : valsWf s.sku 0 s.dict.vals = true)
    (hstate : s.rd Key.sentState = 2 ∨ s.rd Key.sentState = 3) (hstop : s.sent.stopAtEnd = false)
    (ht : s.sentFrame b0 b1 false = t) : ∃ out, out = s.frameOut b0 b1 ∧
      t.sent.history = (out :: s.sent.history).take 8 ∧
      t.rd Key.sentFrames = min (s.rd Key.sentFrames + 1) 0xFFFFFFFF ∧ t.sent.frame = s.sent.frame + 1 ∧
      t.rd Key.sentState = (if s.rd Key.sentState = 3 then 1 else 2) ∧ t.quires = s.quires ∧ t.out = s.out ∧ t.pm = s.pm ∧
      let w := winner (out.getLastD [])
      (Detects s w → t.sent.detect = some (w.1, w.2, s.sent.frame) ∧ t.sent.holdCount = 0 ∧ t.sent.sinceDetect = some 0) ∧
      (¬ Detects s w → t.sent.detect = s.sent.detect ∧ t.sent.holdCount = holdOf s w ∧
        t.sent.sinceDetect = s.sent.sinceDetect.map (· + 1)) := by
  obtain ⟨y, hy, hhist, hcount, hclass, hsince, hdetect, hframe, hrun⟩ := s.captured_eq b0 b1
  rw [State.sentFrame_of_judged b0 b1 hset hc, hy] at ht
  refine ⟨_, rfl, ?_⟩
  generalize s.frameOut b0 b1 = out at *
  let z : Sentinel := { y with history := (out :: s.sent.history).take 8 }
  have hzwf : valsWf (s.setSent z).sku 0 (s.setSent z).dict.vals = true := hwf
  have hhold : ∀ w, holdOf (s.setSent z) w = holdOf s w := fun w => by
    show (if _ then if y.holdCount ≠ 0 ∧ y.holdClass = w.1 then y.holdCount + 1 else 1 else 0) = _
    rw [hcount, hclass]
    rfl
  have hdetects : ∀ w, Detects (s.setSent z) w ↔ Detects s w := fun w => by
    have hrest : Rested (s.setSent z) ↔ Rested s := by
      show (∀ n, y.sinceDetect = some n → _) ↔ _
      rw [hsince]
      rfl
    unfold Detects
    rw [hhold, hrest]
    rfl
  obtain ⟨x, hx, hxframe, hxhist, hxstop⟩ := State.judge_frame hzwf (out.getLastD [])
  have hcounted : ((s.setSent z).count Key.sentFrames).rd Key.sentState = s.rd Key.sentState :=
    State.rd_wr_other (by exact hwf) _ (by decide)
  obtain ⟨hsent, hquires, hout, hpm, hafter, hrd⟩ := State.frameOver_facts
    (s := ((s.setSent z).count Key.sentFrames).setSent x) (by exact State.wr_wf _ _ _ (by exact hwf))
    (hxstop.trans (hrun.trans hstop)) (by exact hcounted.symm ▸ hstate)
  have hjudge : (s.setSent z).judge (out.getLastD []) = ((s.setSent z).count Key.sentFrames).setSent x := hx
  rw [show ((s.setSent y).setSent { (s.setSent y).sent with history := (out :: s.sent.history).take 8 }) = s.setSent z
    from rfl, hjudge] at ht
  subst ht
  refine ⟨?_, ?_, ?_, ?_, hquires, hout, hpm, fun hd => ?_, fun hd => ?_⟩
  · rw [hsent]
    exact hxhist
  · exact (hrd _ (by decide)).trans (State.rd_count_up (by exact hwf) (State.maxOf_sent (Or.inr (Or.inr (Or.inl rfl)))))
  · rw [hsent]
    exact congrArg (· + 1) (hxframe.trans hframe)
  · rw [hafter]
    exact congrArg (fun n => if n = 3 then 1 else 2) hcounted
  · have hxs : x = _ := congrArg State.sent (hx.symm.trans (State.judge_of_detects hzwf ((hdetects _).2 hd)))
    rw [hsent, hxs]
    exact ⟨congrArg (fun n => some (_, _, n)) hframe, rfl, rfl⟩
  · have hxs : x = _ := congrArg State.sent (hx.symm.trans (State.judge_of_not hzwf (mt (hdetects _).1 hd)))
    rw [hsent, hxs]
    exact ⟨hdetect, hhold _, congrArg (Option.map (· + 1)) hsince⟩

theorem framesAreJudgedClause : FramesAreJudgedClause := by
  intro s rise d settling hinv hentry hdetect hstate hstop x after up pcm features out
  have hwf := (s.canonical_iff.2 hinv).dict.vals
  refine ⟨fun hset => ?_, fun c hset hxset hc hlive => ?_, fun hset hxset hc => ?_⟩
  · obtain ⟨y, hy⟩ := sentFrame_of_settling_facts (risingBits rise d) (fallingBits rise d) hset hwf hstate hstop
    obtain ⟨hsent, hhist, hcount, hsince, hydetect, hframe, hpm, hquires, hout, hskipped, hafter⟩ := hy rfl
    refine ⟨_, exec_sentFrameEnd rise d settling hdetect hstate rfl ((congrArg Power.entry hpm).trans hentry), hskipped, ?_⟩
    rw [hsent]
    exact ⟨hhist, hcount, hsince, hydetect.trans hdetect, congrArg (· + 1) hframe, hafter, hquires, hout⟩
  · subst hset
    obtain ⟨hfrozen, hup, hhist, hnone, hpm⟩ :=
      sentFrame_of_fault_facts (risingBits rise d) (fallingBits rise d) hxset hc hwf hlive rfl
    exact ⟨_, exec_sentFrameEnd rise d false hdetect hstate rfl ((congrArg Power.entry hpm).trans hentry),
      hfrozen, hup, hhist, hnone⟩
  · subst hset
    obtain ⟨out', hout', hhist, hup, hframe, hafter, hquires, hsentOut, hpm, hyes, hno⟩ :=
      sentFrame_of_judged_facts (risingBits rise d) (fallingBits rise d) hxset hc hwf hstate hstop rfl
    have hsame : out' = out := hout'
    subst hsame
    exact ⟨_, exec_sentFrameEnd rise d false hdetect hstate rfl ((congrArg Power.entry hpm).trans hentry),
      hhist, hup, hframe, hafter, hquires, hsentOut, fun hone hhold hrest => hyes ⟨hone, hhold, hrest⟩,
      fun hnot => by rw [← hdetect]; exact hno hnot⟩

/-! ### A detection (R78, R824 to R827) -/

/-- A message depends on the table, the function and what is pending alone. -/
theorem State.msixSend_out_congr (hmsix : t.msix = s.msix) (hfn : t.fn = s.fn) (hout : t.out = s.out) (v : Nat) :
    (t.msixSend v).out = (s.msixSend v).out := by
  unfold State.msixSend
  rw [hmsix, hfn]
  dsimp only
  split
  · split
    · exact congrArg (· ++ _) hout
    · exact hout
  · exact hout

/-- The record of a detection (R824), and the quick oscillator that it starts (R78). -/
def State.noteDetection (s : State) (k : Nat) (score : Int) (frame : Nat) : State :=
  let s := s.setSent { s.sent with detect := none }
  let s := (s.wrs [(Key.sentLastClass, k), (Key.sentLastScore, ofSigned 16 score), (Key.sentLastFrame, frame % 2 ^ 32),
    (Key.sentLastRtc, s.rtc.toNat)]).count Key.sentDetections
  s.setClk { s.clk with quickOsc := true }

/-- The wake outputs of a detection of class `k` (R825 to R827). -/
def State.raiseWake (s : State) (k : Nat) : State :=
  let cfg := s.rd Key.sentWakeCfg
  let link := s.rd Key.pcieLinkState
  let out := bit cfg 0
  let n := bit cfg 2 && link == 0
  let ibi := bit cfg 1 && s.ibiAllowed 1 k
  let msi := bit cfg 3 && s.rd Key.sentVector != 0xFF && s.coreOn && (link == 2 || link == 3)
  let s := { s with pins := { s.pins with wakeOut := s.pins.wakeOut || out, wakeN := s.pins.wakeN || n } }
  let s := if ibi then s.ibiDue 1 k else s
  let s := if msi then s.msixSend (s.rd Key.sentVector) else s
  if out || n || ibi || msi then s.wr Key.sentWakeAsserted 1 else s

theorem State.detectNow_of_open {k : Nat} {score : Int} {frame : Nat} (h : s.sent.detect = some (k, score, frame)) :
    s.detectNow = (s.noteDetection k score frame).raiseWake k := by
  unfold State.detectNow
  rw [h]
  rfl

/-- The entries a detection writes before it wakes anything. -/
def detectionKeys : List Nat :=
  [Key.sentLastClass, Key.sentLastScore, Key.sentLastFrame, Key.sentLastRtc, Key.sentDetections]

theorem State.noteDetection_eq (s : State) (k : Nat) (score : Int) (frame : Nat) : ∃ d, s.noteDetection k score frame =
    ((s.setSent { s.sent with detect := none }).setClk { s.clk with quickOsc := true }).setDict d := by
  obtain ⟨d, hd⟩ := (s.setSent { s.sent with detect := none }).wrs_eq [(Key.sentLastClass, k),
    (Key.sentLastScore, ofSigned 16 score), (Key.sentLastFrame, frame % 2 ^ 32), (Key.sentLastRtc, s.rtc.toNat)]
  refine ⟨(((s.setSent { s.sent with detect := none }).setDict d).count Key.sentDetections).dict, ?_⟩
  exact congrArg (fun u : State => (u.count Key.sentDetections).setClk { u.clk with quickOsc := true }) hd

theorem State.noteDetection_facts (hwf : valsWf s.sku 0 s.dict.vals = true) (k : Nat) (score : Int) (frame : Nat) :
    let u := s.noteDetection k score frame
    valsWf u.sku 0 u.dict.vals = true ∧ u.rd Key.sentLastClass = k ∧ u.rd Key.sentLastScore = ofSigned 16 score ∧
    u.rd Key.sentLastFrame = frame % 2 ^ 32 ∧ u.rd Key.sentLastRtc = s.rtc.toNat ∧
    u.rd Key.sentDetections = min (s.rd Key.sentDetections + 1) 0xFFFFFFFF ∧
    ∀ j, (∀ i ∈ detectionKeys, i ≠ j) → u.rd j = s.rd j := by
  have hvwf : valsWf (s.setSent { s.sent with detect := none }).sku 0 (s.setSent { s.sent with detect := none }).dict.vals =
    true := hwf
  have hsame : ∀ j, (s.setSent { s.sent with detect := none }).rd j = s.rd j := fun _ => rfl
  have hrtc : (s.setSent { s.sent with detect := none }).rtc = s.rtc := rfl
  unfold State.noteDetection
  dsimp only
  generalize s.setSent { s.sent with detect := none } = v at *
  rw [hrtc]
  let l := [(Key.sentLastClass, k), (Key.sentLastScore, ofSigned 16 score), (Key.sentLastFrame, frame % 2 ^ 32),
    (Key.sentLastRtc, s.rtc.toNat)]
  have hlwf := State.wrs_wf l hvwf
  have hlast := fun j => State.rd_wrs l j v hvwf
  have hne : ∀ j, (∀ p ∈ l, p.1 ≠ j) → (v.wrs l).rd j = v.rd j := fun j => State.wrs_rd_ne hvwf
  have hcount : ∀ j, j ≠ Key.sentDetections → ((v.wrs l).count Key.sentDetections).rd j = (v.wrs l).rd j :=
    fun j hj => State.rd_wr_other hlwf _ hj
  refine ⟨State.wr_wf _ _ _ hlwf, ?_, ?_, ?_, ?_, ?_, fun j hj => ?_⟩
  · exact (hcount _ (by decide)).trans (hlast _)
  · exact (hcount _ (by decide)).trans (hlast _)
  · exact (hcount _ (by decide)).trans (hlast _)
  · exact (hcount _ (by decide)).trans (hlast _)
  · refine (State.rd_count_up hlwf (State.maxOf_sent (Or.inr (Or.inr (Or.inr rfl))))).trans ?_
    rw [hne _ (by simp [l]; decide), hsame]
  · refine (hcount j (Ne.symm (hj _ (by simp [detectionKeys])))).trans ((hne j fun p hp => ?_).trans (hsame j))
    have hkey : p.1 ∈ detectionKeys := by
      simp only [l, List.mem_cons, List.not_mem_nil, or_false] at hp
      rcases hp with rfl | rfl | rfl | rfl <;> simp [detectionKeys]
    exact hj _ hkey

/-- The wake outputs change the pins, the interrupts due, the messages and SENT_WAKE_ASSERTED. -/
theorem State.raiseWake_facts (hwf : valsWf s.sku 0 s.dict.vals = true) (k : Nat) :
    let cfg := s.rd Key.sentWakeCfg
    let link := s.rd Key.pcieLinkState
    let msi := bit cfg 3 = true ∧ s.rd Key.sentVector ≠ 0xFF ∧ s.coreOn = true ∧ (link = 2 ∨ link = 3)
    let t := s.raiseWake k
    t.sent = s.sent ∧ t.clk = s.clk ∧ t.power = s.power ∧ t.quires = s.quires ∧ t.pm = s.pm ∧
      t.pins.wakeOut = (s.pins.wakeOut || bit cfg 0) ∧ t.pins.wakeN = (s.pins.wakeN || (bit cfg 2 && link == 0)) ∧
      (bit cfg 1 = true → s.ibiAllowed 1 k = true → t.i3c.ibis = s.i3c.ibis ++ [(1, k)]) ∧
      (bit cfg 1 = false → t.i3c = s.i3c) ∧ (¬ msi → t.out = s.out ∧ t.msix = s.msix) ∧
      (msi → t.out = (s.msixSend (s.rd Key.sentVector)).out) ∧ (bit cfg 0 = true → t.rd Key.sentWakeAsserted = 1) ∧
      (∀ j, j ≠ Key.sentWakeAsserted → t.rd j = s.rd j) := by
  intro cfg link msi t
  let ibi := bit cfg 1 && s.ibiAllowed 1 k
  let m := bit cfg 3 && s.rd Key.sentVector != 0xFF && s.coreOn && (link == 2 || link == 3)
  have hm : m = true ↔ msi := by simp [m, msi, and_assoc]
  let a : State := { s with pins := { s.pins with
    wakeOut := s.pins.wakeOut || bit cfg 0, wakeN := s.pins.wakeN || (bit cfg 2 && link == 0) } }
  let c : State := if ibi then a.ibiDue 1 k else a
  have hc : ∃ l, c = a.setI3c { a.i3c with ibis := l } ∧ (bit cfg 1 = true → s.ibiAllowed 1 k = true → l = s.i3c.ibis ++ [(1,
      k)]) ∧
      (bit cfg 1 = false → l = s.i3c.ibis) := by
    by_cases hi : ibi = true
    · obtain ⟨h1, hallowed⟩ := Bool.and_eq_true_iff.1 hi
      refine ⟨s.i3c.ibis ++ [(1, k)], (if_pos hi).trans (if_pos hallowed), fun _ _ => rfl, fun h => ?_⟩
      rw [h] at h1
      cases h1
    · exact ⟨s.i3c.ibis, if_neg hi, fun h1 h2 => absurd (Bool.and_eq_true_iff.2 ⟨h1, h2⟩) hi, fun _ => rfl⟩
  obtain ⟨l, hl, hallowed, hoff⟩ := hc
  let e : State := if m then c.msixSend (c.rd Key.sentVector) else c
  have he : ∃ out msix, e = { c with out := out, msix := msix } ∧ (¬ msi → out = s.out ∧ msix = s.msix) ∧
      (msi → out = (s.msixSend (s.rd Key.sentVector)).out) := by
    by_cases hi : m = true
    · obtain ⟨out, msix, hsend⟩ := c.msixSend_eq (c.rd Key.sentVector)
      refine ⟨out, msix, (if_pos hi).trans hsend, fun h => absurd (hm.1 hi) h, fun _ => ?_⟩
      have hout : (c.msixSend (c.rd Key.sentVector)).out = out := congrArg State.out hsend
      rw [← hout, hl]
      exact State.msixSend_out_congr (s := s) (t := a.setI3c { a.i3c with ibis := l }) rfl rfl rfl (s.rd Key.sentVector)
    · exact ⟨s.out, s.msix, (if_neg hi).trans (by rw [hl]; rfl), fun _ => ⟨rfl, rfl⟩, fun h => absurd (hm.2 h) hi⟩
  obtain ⟨out, msix, he, hquiet, hsent⟩ := he
  have ht : t = if bit cfg 0 || (bit cfg 2 && link == 0) || ibi || m then e.wr Key.sentWakeAsserted 1 else e := rfl
  have hewf : valsWf e.sku 0 e.dict.vals = true := by
    rw [he, hl]
    exact hwf
  have herd : ∀ j, e.rd j = s.rd j := fun j => by
    rw [he, hl]
    rfl
  have hframe : ∃ d, t = { e with dict := d } := by
    rw [ht]
    split
    · exact ⟨_, rfl⟩
    · exact ⟨_, rfl⟩
  obtain ⟨d, hd⟩ := hframe
  have hrd : ∀ j, j ≠ Key.sentWakeAsserted → t.rd j = s.rd j := fun j hj => by
    rw [ht]
    split
    · exact (State.rd_wr_other hewf _ hj).trans (herd j)
    · exact herd j
  refine ⟨?_, ?_, ?_, ?_, ?_, ?_, ?_, fun h1 h2 => ?_, fun h1 => ?_, fun h => ?_, fun h => ?_, fun h0 => ?_, hrd⟩
  case refine_12 =>
    rw [ht, h0]
    exact State.rd_wr_same hewf _ _
  all_goals rw [hd, he, hl]
  case refine_8 => exact hallowed h1 h2
  case refine_9 =>
    rw [hoff h1]
    rfl
  case refine_10 => exact hquiet h
  case refine_11 => exact hsent h
  all_goals rfl

theorem detectionsWakeClause : DetectionsWakeClause := by
  intro s k score frame hinv hdetect hentry cfg link msi
  obtain ⟨d, hd⟩ := s.noteDetection_eq k score frame
  obtain ⟨huwf, hclass, hscore, hlast, hrtc, hup, hrd⟩ :=
    s.noteDetection_facts (s.canonical_iff.2 hinv).dict.vals k score frame
  have hsent : (s.noteDetection k score frame).sent = { s.sent with detect := none } := (congrArg State.sent hd).trans rfl
  have hclk : (s.noteDetection k score frame).clk = { s.clk with quickOsc := true } := (congrArg State.clk hd).trans rfl
  have hpower : (s.noteDetection k score frame).power = s.power := (congrArg State.power hd).trans rfl
  have hquires : (s.noteDetection k score frame).quires = s.quires := (congrArg State.quires hd).trans rfl
  have hpm : (s.noteDetection k score frame).pm = s.pm := (congrArg State.pm hd).trans rfl
  have hpins : (s.noteDetection k score frame).pins = s.pins := (congrArg State.pins hd).trans rfl
  have hi3c : (s.noteDetection k score frame).i3c = s.i3c := (congrArg State.i3c hd).trans rfl
  have hout : (s.noteDetection k score frame).out = s.out := (congrArg State.out hd).trans rfl
  have hmsix : (s.noteDetection k score frame).msix = s.msix := (congrArg State.msix hd).trans rfl
  have hfn : (s.noteDetection k score frame).fn = s.fn := (congrArg State.fn hd).trans rfl
  have hrun : exec .sentDetection s = .next (((s.noteDetection k score frame).raiseWake k).stepEntry) := by
    refine congrArg Host.Outcome.next ((if_pos (by rw [hdetect]; rfl)).trans ?_)
    rw [State.detectNow_of_open hdetect]
  generalize s.noteDetection k score frame = u at *
  obtain ⟨hrsent, hrclk, hrpower, hrquires, hrpm, hrout, hrn, hribi, hri3c, hrquiet, hrmsi, hrasserted, hrrd⟩ :=
    u.raiseWake_facts huwf k
  have hcfg : u.rd Key.sentWakeCfg = cfg := hrd _ (by decide)
  have hlink : u.rd Key.pcieLinkState = link := hrd _ (by decide)
  have hvec : u.rd Key.sentVector = s.rd Key.sentVector := hrd _ (by decide)
  have hcore : u.coreOn = s.coreOn := by
    unfold State.coreOn
    rw [hpower]
  have hallowed : u.ibiAllowed 1 k = s.ibiAllowed 1 k := by
    unfold State.ibiAllowed
    rw [hi3c, hcfg, hrd Key.i3cIbiGroups (by decide)]
    rfl
  rw [State.stepEntry_of_none ((congrArg Power.entry (hrpm.trans hpm)).trans hentry)] at hrun
  rw [hcfg, hlink, hvec, hcore] at hrquiet hrmsi
  rw [hcfg] at hrout hrn hribi hri3c hrasserted
  rw [hlink] at hrn
  refine ⟨_, hrun, hrsent.trans hsent, (hrrd _ (by decide)).trans hclass, (hrrd _ (by decide)).trans hscore,
    (hrrd _ (by decide)).trans hlast, (hrrd _ (by decide)).trans hrtc, (hrrd _ (by decide)).trans hup,
    hrclk.trans hclk, hrpower.trans hpower, hrquires.trans hquires, hpins ▸ hrout, hpins ▸ hrn,
    fun h1 h2 => ?_, fun h1 => (hri3c h1).trans hi3c, fun h => ?_, fun h => ?_, hrasserted⟩
  · rw [hribi h1 (hallowed.trans h2), hi3c]
  · rw [(hrquiet h).1, (hrquiet h).2]
    exact ⟨hout, hmsix⟩
  · rw [hrmsi h]
    exact State.msixSend_out_congr hmsix hfn hout _

/-- Settles O46: a lemma for each way a frame ends, and the frame of a detection's record and of its outputs. -/
theorem sentinelListens : Obligations.SentinelListens := ⟨framesAreJudgedClause, detectionsWakeClause⟩

end Sys2Proof.Machine
end

section
/-! PROOFS. Failed issue checks, and FORK (08; R37, R299, R392 to R398, R421). -/

namespace Sys2Proof.Machine

variable {s t u : State} {b : BayNum} {k : Kind} {d : Due}

/-! ### Failed issue checks (R299, R421) -/

theorem frozenBy_congr {q : QNum} {cause detail : Nat} (h : FrozenBy s t q cause detail)
    (hcompleted : (s.quire q).ctrCompleted = (u.quire q).ctrCompleted) (hrange : s.stitchRange q = u.stitchRange q) :
    FrozenBy u t q cause detail := by
  obtain ⟨hstate, hcause, hdetail, hruns, hheld, hctr, hpoison⟩ := h
  exact ⟨hstate, hcause, hdetail, hruns, hheld, hctr.trans hcompleted, hrange ▸ hpoison⟩

/-- The record holds 32 bits of DETAIL. -/
theorem State.freeze_mod (s : State) (q : QNum) (cause bay ring imp cycle cid sqi detail : Nat) :
    s.freeze q cause bay ring imp cycle cid sqi detail =
      s.freeze q cause bay ring imp cycle cid sqi (detail % 2 ^ 32) := by
  unfold State.freeze
  simp only [Nat.mod_mod]

theorem valKeys_ne (q : QNum) : ∀ k ∈ [Key.qValCode q, Key.qValImp q, Key.qValHandle q, Key.qValOffset q],
    k ≠ Key.qStitchBase q ∧ k ≠ Key.qStitchCount q ∧ ¬ isHaltKey k ∧ ¬ isTally k ∧ k ≠ Key.qFreezes q ∧
      k ≠ Key.qFaultRecord q := by
  unfold isHaltKey isTally
  revert q
  decide

theorem State.stitchRange_wrs {q : QNum} {l : List (Nat × Nat)} (hwf : valsWf s.sku 0 s.dict.vals = true)
    (h : ∀ p ∈ l, p.1 ≠ Key.qStitchBase q ∧ p.1 ≠ Key.qStitchCount q) : (s.wrs l).stitchRange q = s.stitchRange q :=
  congrArg₂ Prod.mk (State.wrs_rd_ne hwf fun p hp => (h p hp).1) (State.wrs_rd_ne hwf fun p hp => (h p hp).2)

/-- A failed check freezes the quire with cause FORMAT and fills the validation entries (R421, R423). -/
theorem State.frozenBy_valFail {q : QNum} (hwf : valsWf s.sku 0 s.dict.vals = true) (h : Lively s q) (e : Entry)
    (handle impNo : Nat) (c : Failure) (bay entry cycle : Nat) :
    FrozenBy s (s.valFail q e handle impNo c bay entry cycle) q FC.format (c.2 % 2 ^ 32) ∧
      (s.valFail q e handle impNo c bay entry cycle).rd (Key.qValCode q) = c.1 := by
  let l := [(Key.qValCode q, c.1), (Key.qValImp q, impNo), (Key.qValHandle q, handle), (Key.qValOffset q, c.2)]
  have hkeys := valKeys_ne q
  have hl : ∀ p ∈ l, p.1 ≠ Key.qStitchBase q ∧ p.1 ≠ Key.qStitchCount q := fun p hp => by
    obtain ⟨hbase, hcount, -⟩ := hkeys p.1 (by
      simp only [l, List.mem_cons, List.not_mem_nil, or_false] at hp
      rcases hp with rfl | rfl | rfl | rfl <;> simp)
    exact ⟨hbase, hcount⟩
  have hrange := State.stitchRange_wrs hwf hl
  have huwf := State.wrs_wf l hwf
  obtain ⟨v, hv⟩ := s.wrs_eq l
  have hquires : (s.wrs l).quires = s.quires := by rw [hv]; rfl
  have hquire := State.quire_of_quires hquires q
  have hcode : (s.wrs l).rd (Key.qValCode q) = c.1 := by
    rw [State.rd_wrs l _ s hwf]
    have hdistinct : ∀ q : QNum, Key.qValCode q ≠ Key.qValImp q ∧ Key.qValCode q ≠ Key.qValHandle q ∧
        Key.qValCode q ≠ Key.qValOffset q := by decide
    obtain ⟨himp, hhandle, hoffset⟩ := hdistinct q
    simp [l, himp.symm, hhandle.symm, hoffset.symm]
  have hlive : Lively (s.wrs l) q := by
    unfold Lively
    rw [hquire]
    exact h
  have hfreeze : s.valFail q e handle impNo c bay entry cycle = (s.wrs l).freeze q FC.format (bay := bay)
    (ring := e.ring.val) (imp := entry) (cycle := cycle) (cid := e.cid) (sqi := e.slot) (detail := c.2) := rfl
  rw [hfreeze]
  refine ⟨?_, ?_⟩
  · rw [State.freeze_mod]
    exact frozenBy_congr (State.freeze_frozenBy _ q _ _ _ _ _ _ _ _ hlive huwf (by decide) (Nat.mod_lt _ (by decide)))
      (congrArg Quire.ctrCompleted hquire) hrange
  · obtain ⟨-, -, hhalt, htally, hfreezes, hrecord⟩ := hkeys (Key.qValCode q) (by simp)
    exact (State.freeze_rd _ q _ _ _ _ _ _ _ _ hlive huwf hhalt htally hfreezes hrecord).trans hcode

/-- An entry that alone fails an issue check freezes its quire (R421). -/
theorem State.frozenBy_violate_check (hwf : valsWf s.sku 0 s.dict.vals = true) (hlive : Lively s d.q)
    (honly : OnlyViolator s d) (code byte : Nat) :
    FrozenBy s (s.violate d [d.fails code byte]) d.q FC.format ((256 + 16 * d.idx + byte) % 2 ^ 32) ∧
      (s.violate d [d.fails code byte]).rd (Key.qValCode d.q) = code := by
  rw [State.violate_of_only honly]
  exact State.frozenBy_valFail hwf hlive _ _ _ (code, 256 + 16 * d.idx + byte) _ _ _

/-! ### FORK (R392 to R398) -/

/-- The place of a FORK's arm in the bay stream (R396). -/
def ArmRec.place (r : ArmRec) (a : Nat) : Nat := if r.count.getD a 0 = 0 then r.join else r.start.getD a 0

/-- The sequencer behind a FORK that took arm `a`. -/
def forkSeq (x : Seq) (r : ArmRec) (d : Due) (a : Nat) : Seq :=
  { (if r.count.getD a 0 = 0 then Seq.goto { x with arms := x.arms } r.join
     else x.stand ((r.start.getD a 0 + r.count.getD a 0, r.join) :: x.arms) (r.start.getD a 0)) with stamp := d.t, gap := 0 }

theorem forkSeq_pc {x : Seq} (h : x.arms = []) (r : ArmRec) (d : Due) (a : Nat) : (forkSeq x r d a).pc = r.place a := by
  unfold forkSeq ArmRec.place
  split
  · show (armsGoto x.arms r.join).2 = r.join
    rw [h]
    rfl
  · rfl

/-- The bay takes arm `a` (R396). -/
theorem State.takeArm_eq {r : ArmRec} (hr : d.run.arms[bits d.w 73 58]? = some r) (s : State) (a : Nat) :
    (s.takeArm d a).modSeq d.b (fun x => { x with stamp := d.t, gap := 0 }) =
      s.setBay d.b { s.bay d.b with seq := forkSeq (s.bay d.b).seq r d a } := by
  unfold State.takeArm
  rw [hr]
  exact (congrArg (State.setBay _ d.b) (congrArg (fun y : Bay => { y with seq := { y.seq with stamp := d.t, gap := 0 } })
    (State.setBay_bay s d.b _))).trans (State.setBay_setBay s d.b _ _)

/-! #### The run of an entry -/

theorem State.run_id {q : QNum} {id : Nat} {r : Run} (h : s.run q id = some r) : r.id = id := by
  simpa using List.find?_some h

/-- A run that a change names reads changed; the change keeps its number. -/
theorem State.run_modRun {q : QNum} {id : Nat} {r : Run} (h : s.run q id = some r) {f : Run → Run}
    (hf : ∀ r, (f r).id = r.id) : (s.modRun q id f).run q id = some (f r) := by
  have hid := State.run_id h
  unfold State.run State.modRun at *
  rw [State.modQuire_quire, List.find?_map]
  have hpred : ((fun r : Run => r.id == id) ∘ fun r => if r.id = id then f r else r) = fun r => r.id == id := by
    funext x
    by_cases hx : x.id = id <;> simp [hx, hf]
  rw [hpred, h, Option.map_some, if_pos hid]

theorem State.Falls.run_eq (h : s.Falls b d) : s.run d.q d.run.id = some d.run := by
  obtain ⟨id, -, hrun⟩ := h.run
  rwa [State.run_id hrun]

/-! #### The decision register settles (R392) -/

theorem Bay.settleDregs_eq (x : Bay) (t : Nat) : ∃ tags dregs due, x.settleDregs t =
    { x with tags := tags, dregs := dregs, dregDue := due } := by
  have hfold : ∃ tags dregs, (x.dregDue.filter fun d => d.ready < t).foldl (fun x d =>
      { x.setTag d.reg d.tag with dregs := Tab.set x.dregs 0 d.reg d.value }) x = { x with tags := tags, dregs := dregs } :=
    List.foldlRecOn (motive := fun y : Bay => ∃ tags dregs, y = { x with tags := tags, dregs := dregs }) _ _
      ⟨x.tags, x.dregs, rfl⟩ fun y hy d _ => by
        obtain ⟨tags, dregs, rfl⟩ := hy
        exact ⟨_, _, rfl⟩
  obtain ⟨tags, dregs, h⟩ := hfold
  refine ⟨tags, dregs, x.dregDue.filter fun d => !decide (d.ready < t), ?_⟩
  exact (congrArg (fun y : Bay => { y with dregDue := y.dregDue.filter fun d => !decide (d.ready < t) }) h).trans rfl

/-- The state in which a FORK has read its decision register. -/
def State.settled (s : State) (src : BayNum) (t : Nat) : State := s.modBay src fun x => x.settleDregs t

theorem State.settled_seq (s : State) (src c : BayNum) (t : Nat) : ((s.settled src t).bay c).seq = (s.bay c).seq := by
  unfold State.settled
  by_cases hc : c = src
  · subst hc
    obtain ⟨tags, dregs, due, h⟩ := (s.bay c).settleDregs_eq t
    rw [State.modBay_bay, h]
  · rw [State.modBay, State.setBay_bay_ne _ _ _ _ hc]

theorem State.together_congr (hseq : ∀ c, (t.bay c).seq = (s.bay c).seq) (d : Due) : t.together d = s.together d := by
  unfold State.together State.nextEntry
  simp only [hseq]

/-- The budget of a FORK has passed under the DEADLINE policy (R398). -/
def ForkLate (d : Due) (us : Nat) : Prop :=
  let f := d.run.hdr.fallback.getD (bits d.w 95 92) (0xFF, 0, 0)
  d.run.deadline = true ∧ (f.2.1 < d.run.slipCycles ∨ (f.2.2 ≠ 0 ∧ f.2.2 < us))

/-- The record of the fallback arm of a FORK. -/
def forkFallback (d : Due) : Nat × Nat × Nat := d.run.hdr.fallback.getD (bits d.w 95 92) (0xFF, 0, 0)

theorem forkArm_eq (d : Due) (v us : Nat) [Decidable (ForkLate d us)] : forkArm d.run.hdr d.run d.w v us =
    if ForkLate d us ∧ (forkFallback d).1 ≠ 0xFF then some ((forkFallback d).1, true)
    else if v < bits d.w 76 74 + 1 then some (v, false)
    else if (forkFallback d).1 ≠ 0xFF then some ((forkFallback d).1, true)
    else none := by
  have hlate : (d.run.deadline && (decide ((d.run.hdr.fallback.getD (bits d.w 95 92) (0xFF, 0, 0)).2.1 < d.run.slipCycles) ||
      ((d.run.hdr.fallback.getD (bits d.w 95 92) (0xFF, 0, 0)).2.2 != 0 &&
        decide ((d.run.hdr.fallback.getD (bits d.w 95 92) (0xFF, 0, 0)).2.2 < us)))) = true ↔ ForkLate d us := by
    simp [ForkLate]
  unfold forkArm forkFallback
  simp only [hlate]

theorem forkArm_of_value {v us : Nat} (hv : v < bits d.w 76 74 + 1) (h : ¬ ForkLate d us ∨ (forkFallback d).1 = 0xFF) :
    forkArm d.run.hdr d.run d.w v us = some (v, false) := by
  classical
  rw [forkArm_eq, if_neg fun hc => h.elim (fun hl => hl hc.1) hc.2, if_pos hv]

theorem forkArm_of_fallback {v us : Nat} (hf : (forkFallback d).1 ≠ 0xFF) (h : bits d.w 76 74 + 1 ≤ v ∨ ForkLate d us) :
    forkArm d.run.hdr d.run d.w v us = some ((forkFallback d).1, true) := by
  classical
  rw [forkArm_eq]
  by_cases hl : ForkLate d us
  · rw [if_pos ⟨hl, hf⟩]
  · rw [if_neg fun hc => hl hc.1, if_neg (by have := h.resolve_right hl; omega), if_pos hf]

theorem forkArm_of_none {v us : Nat} (hf : (forkFallback d).1 = 0xFF) (hv : bits d.w 76 74 + 1 ≤ v) :
    forkArm d.run.hdr d.run d.w v us = none := by
  classical
  rw [forkArm_eq, if_neg fun hc => hc.2 hf, if_neg (by omega), if_neg fun hc => hc hf]

/-- The state in which the first bay's FORK has chosen: the run knows the arm, and a fallback is counted (R393, R398). -/
def State.chosen (s : State) (d : Due) (a : Nat) (fb : Bool) : State :=
  let u := s.modRun d.q d.run.id fun r => { r with fork := some (d.t, bits d.w 95 92, a), fallback := r.fallback || fb }
  if fb then u.count (Key.qFallbacks d.q) else u

/-- The bay of an issued FORK that took arm `a`, and nothing else. -/
def State.forked (s : State) (d : Due) (r : ArmRec) (a : Nat) : State :=
  s.setBay d.b { s.bay d.b with seq := forkSeq (s.bay d.b).seq r d a }

/-- A later bay's FORK takes the arm the first one took (R393). -/
theorem fork_of_chosen (h : Issues s b .fork d) {r : ArmRec} (hr : d.run.arms[bits d.w 73 58]? = some r) {a us : Nat}
    (hfork : d.run.fork = some (d.t, bits d.w 95 92, a)) : fork b us s = s.forked d r a := by
  obtain rfl := (falls_of_issues h).bay
  refine (issue_of_issues h _).trans ?_
  simp only [hfork, and_self, if_true]
  exact State.takeArm_eq hr s a

/-- The first bay's FORK, of a decision register without a tag (R393, R394, R541). -/
theorem fork_of_first (h : Issues s b .fork d) {r : ArmRec} (hr : d.run.arms[bits d.w 73 58]? = some r) {us : Nat}
    (hfork : ∀ a, d.run.fork ≠ some (d.t, bits d.w 95 92, a)) {src : BayNum} (hsrc : d.run.bays[bits d.w 91 89]? = some src)
    (htag : ((s.bay src).settleDregs d.t).tag (dregRes (bits d.w 88 85) (bits d.w 80 77)) = 0) :
    fork b us s = match forkArm d.run.hdr d.run d.w (dregAt s src (dregRes (bits d.w 88 85) (bits d.w 80 77)) d.t) us with
      | none => (s.settled src d.t).violate d [d.fails VC.decision 9]
      | some (a, fb) => ((s.settled src d.t).chosen d a fb).forked d r a := by
  have hbay : ((s.settled src d.t).bay src) = (s.bay src).settleDregs d.t := State.modBay_bay _ _ _
  have hfirst : ∀ go, fork.forkFirst d us s go = match forkArm d.run.hdr d.run d.w
        (dregAt s src (dregRes (bits d.w 88 85) (bits d.w 80 77)) d.t) us with
      | none => (s.settled src d.t).violate d [d.fails VC.decision 9]
      | some (a, fb) => go ((s.settled src d.t).chosen d a fb) a := by
    intro go
    unfold fork.forkFirst State.readDreg
    simp only [hsrc, Option.getD_some]
    have hscope : ((List.range 4).any fun sc => bit (((s.settled src d.t).bay src).tag (dregRes (bits d.w 88 85)
        (bits d.w 80 77))) sc && !d.run.openEverywhere sc) = false := by
      rw [hbay, htag]
      simp [bit]
    rw [if_neg (by simpa [State.settled] using hscope)]
    unfold dregAt
    rw [← hbay] <;> rfl
  refine (issue_of_issues h _).trans ?_
  obtain rfl := (falls_of_issues h).bay
  have hgo : (fun (u : State) a => (u.takeArm d a).modSeq d.b fun x => { x with stamp := d.t, gap := 0 }) =
      fun u a => u.forked d r a := by
    funext u a
    exact State.takeArm_eq hr u a
  have hend := (congrArg (fork.forkFirst d us s) hgo).trans (hfirst _)
  split
  · next p f a hp =>
    exact (if_neg fun hc => hfork a (by rw [hp, hc.1, hc.2])).trans hend
  · exact hend

/-- What a FORK that chose arm `a` leaves (R393, R396, R398). -/
theorem State.forked_facts (hinv : Inv s) (h : Issues s b .fork d) (r : ArmRec) (harms : (s.bay b).seq.arms = [])
    (src : BayNum) (a : Nat) (fb : Bool) :
    let t := ((s.settled src d.t).chosen d a fb).forked d r a
    (t.bay b).seq.pc = r.place a ∧ (t.bay b).seq.stamp = d.t ∧ (∀ c, c ≠ b → (t.bay c).seq = (s.bay c).seq) ∧
      t.run d.q d.run.id = some { d.run with
        fork := some (d.t, bits d.w 95 92, a), fallback := d.run.fallback || fb } ∧ t.out = s.out ∧
      (fb = false → t.dict = s.dict) ∧
      (fb = true → t.rd (Key.qFallbacks d.q) = min (s.rd (Key.qFallbacks d.q) + 1) 0xFFFFFFFF) := by
  obtain rfl := (falls_of_issues h).bay
  have hbays : ((s.settled src d.t).chosen d a fb).bays = (s.settled src d.t).bays := by cases fb <;> rfl
  have hseq : ∀ c, (((s.settled src d.t).chosen d a fb).bay c).seq = (s.bay c).seq := fun c => by
    rw [← s.settled_seq src c d.t]
    unfold State.bay
    rw [hbays]
  have hwf := (s.canonical_iff.2 hinv).dict.vals
  have hrun : (s.settled src d.t).run d.q d.run.id = some d.run := (falls_of_issues h).run_eq
  have hmod := State.run_modRun hrun (f := fun r => { r with
    fork := some (d.t, bits d.w 95 92, a), fallback := r.fallback || fb }) fun _ => rfl
  intro t
  have hbay : t.bay d.b = _ := State.setBay_bay _ _ _
  refine ⟨?_, ?_, fun c hc => ?_, ?_, ?_, fun hfb => ?_, fun hfb => ?_⟩
  · rw [hbay]
    exact forkSeq_pc ((congrArg Seq.arms (hseq d.b)).trans harms) r d a
  · rw [hbay]
    rfl
  · exact (congrArg Bay.seq (State.setBay_bay_ne _ _ _ _ hc)).trans (hseq c)
  · exact (show t.run d.q d.run.id = State.run (State.modRun _ d.q d.run.id _) d.q d.run.id by cases fb <;> rfl).trans hmod
  · cases fb <;> rfl
  · subst hfb
    rfl
  · subst hfb
    refine (State.rd_count_up (s := State.modRun (s.settled src d.t) d.q d.run.id _) (by exact hwf) ?_)
    exact State.maxOf_of_card _ fun sku => by
      generalize d.q = q
      revert q
      cases sku <;> decide

/-- Settles O27: a FORK takes the arm its run has chosen, or chooses it from the settled decision register. -/
theorem forks : Obligations.Forks := by
  intro s b src us d rec_ hinv h hsrc hrec harms fid res v f late arms place
  refine ⟨fun a hfork => ?_, fun hfork htag => ?_⟩
  · obtain rfl := (falls_of_issues h).bay
    refine ⟨_, congrArg Host.Outcome.next (fork_of_chosen h hrec hfork), onlyBay_setBay _ _ _, ?_, ?_⟩ <;>
      rw [State.forked, State.setBay_bay]
    · exact forkSeq_pc harms _ _ _
    · rfl
  · have hrun := fork_of_first (us := us) h hrec hfork hsrc htag
    refine ⟨fun hv hnot => ?_, fun hf hcond => ?_, fun hf hv honly => ?_⟩
    · rw [forkArm_of_value hv hnot] at hrun
      obtain ⟨hpc, hstamp, hseq, hruns, hout, hdict, -⟩ := State.forked_facts hinv h rec_ harms src v false
      rw [Bool.or_false] at hruns
      exact ⟨_, congrArg Host.Outcome.next hrun, hpc, hstamp, hseq, hruns, hdict rfl, hout⟩
    · rw [forkArm_of_fallback hf hcond] at hrun
      obtain ⟨hpc, hstamp, -, hruns, hout, -, hcount⟩ := State.forked_facts hinv h rec_ harms src f.1 true
      rw [Bool.or_true] at hruns
      exact ⟨_, congrArg Host.Outcome.next hrun, hpc, hstamp, hruns, hcount rfl, hout⟩
    · rw [forkArm_of_none hf hv] at hrun
      have honly' : OnlyViolator (s.settled src d.t) d := fun x hx => by
        rw [State.together_congr (s.settled_seq src · d.t)] at hx
        refine Or.inr ?_
        unfold State.viols
        rw [honly x hx]
      obtain ⟨hfrozen, hcode⟩ := State.frozenBy_violate_check (s := s.settled src d.t)
        (by exact (s.canonical_iff.2 hinv).dict.vals) (falls_of_issues h).lively honly' VC.decision 9
      exact ⟨_, congrArg Host.Outcome.next hrun, frozenBy_congr hfrozen rfl rfl, hcode⟩

end Sys2Proof.Machine
end

section
/-! PROOFS. Scopes and slips (08, 11; R381, R388 to R390, R523 to R532). -/

namespace Sys2Proof.Machine

variable {s t u : State} {b : BayNum} {k : Kind} {d : Due}

/-! ### Tags (R526, R529) -/

theorem tagDrop_zero (c : Nat) : tagDrop c 0 = 0 := by
  simp [tagDrop, bit]

theorem Tab.get_tagsDrop (c n : Nat) : ∀ (t : Tab Nat) (lo : Nat), Tab.rising lo t = true →
    Tab.get (tagsDrop c t) 0 n = tagDrop c (Tab.get t 0 n)
  | [], _, _ => (tagDrop_zero c).symm
  | (k, v) :: t, lo, h => by
    simp only [Tab.rising, Bool.and_eq_true, decide_eq_true_eq] at h
    have ih := Tab.get_tagsDrop c n t (k + 1) h.2
    unfold tagsDrop Tab.get at *
    by_cases hv : tagDrop c v = 0
    · rw [List.filterMap_cons_none (by simp [hv]), ih, Tab.find]
      rcases Nat.lt_trichotomy n k with hk | rfl | hk
      · rw [if_neg hk.ne, if_pos hk, Tab.find_of_lt_rising h.2 (by omega)]
      · rw [if_pos rfl, Tab.find_of_lt_rising h.2 (by omega)]
        simp [tagDrop_zero, hv]
      · rw [if_neg hk.ne', if_neg (by omega)]
    · rw [List.filterMap_cons_some (b := (k, tagDrop c v)) (by simp [hv]), Tab.find, Tab.find]
      rcases Nat.lt_trichotomy n k with hk | rfl | hk
      · rw [if_neg hk.ne, if_pos hk, if_neg hk.ne, if_pos hk]
        exact (tagDrop_zero c).symm
      · rw [if_pos rfl, if_pos rfl]
        rfl
      · rw [if_neg hk.ne', if_neg (by omega), if_neg hk.ne', if_neg (by omega)]
        exact ih

/-! ### The void of a scope (R530) -/

theorem Mem.leaf_setLeaf_nil {m : Mem} (hm : Mem.wf m = true) (n k : Nat) :
    Mem.leaf (Mem.setLeaf m n []) k = if k = n then [] else Mem.leaf m k := by
  rw [Mem.leaf_setLeaf hm (by rfl)]
  rfl

/-- The void of a scope in the slots of a bay: those with its tag lose their leaf (R530). -/
theorem foldl_voidSlots (has : Nat → Bool) (g : SlotMeta → SlotMeta) (l : List Nat) : ∀ y : Bay, Mem.wf y.t0 = true →
    let z := l.foldl (fun y n => if has n then (y.setFrame n []).setSlot n (g (y.slot n)) else y) y
    Mem.wf z.t0 = true ∧ z.seq = y.seq ∧
      ∀ k, z.frame k = if k ∈ l ∧ has k = true then [] else y.frame k := by
  induction l with
  | nil => exact fun y hy => ⟨hy, rfl, fun k => by simp⟩
  | cons a l ih =>
    intro y hy
    simp only [List.foldl_cons]
    by_cases ha : has a = true
    · rw [if_pos ha]
      obtain ⟨hwf, hseq, hframe⟩ := ih ((y.setFrame a []).setSlot a (g (y.slot a))) (Mem.setLeaf_wf _ _ _ hy rfl)
      refine ⟨hwf, hseq, fun k => (hframe k).trans ?_⟩
      have hset : ((y.setFrame a []).setSlot a (g (y.slot a))).frame k = if k = a then [] else y.frame k :=
        Mem.leaf_setLeaf_nil hy a k
      rw [hset]
      by_cases hk : k = a
      · simp [hk, ha]
      · simp [hk]
    · rw [if_neg ha]
      obtain ⟨hwf, hseq, hframe⟩ := ih y hy
      refine ⟨hwf, hseq, fun k => (hframe k).trans ?_⟩
      by_cases hk : k = a
      · simp [hk, ha]
      · simp [hk]

/-- A bay with the memory and the sequencer of another. -/
structure Bay.Like (x y : Bay) : Prop where
  t0 : y.t0 = x.t0
  seq : y.seq = x.seq

theorem Bay.Like.refl (x : Bay) : x.Like x := ⟨rfl, rfl⟩

theorem Bay.Like.trans {x y z : Bay} (h : x.Like y) (h' : y.Like z) : x.Like z := ⟨h'.t0.trans h.t0, h'.seq.trans h.seq⟩

theorem Bay.Like.foldl {α : Type} {x y : Bay} {f : Bay → α → Bay} {l : List α} (h : x.Like y)
    (hf : ∀ (z : Bay) (a : α), z.Like (f z a)) : x.Like (l.foldl f y) :=
  List.foldlRecOn (motive := x.Like) l f h fun z hz a _ => hz.trans (hf z a)

theorem Bay.Like.ite {x y : Bay} {c : Prop} [Decidable c] {f : Bay} (hf : x.Like f) (hy : x.Like y) :
    x.Like (if c then f else y) := by
  split
  · exact hf
  · exact hy

/-- What the void of a scope does to the frames of a bay. -/
theorem Bay.voidScope_facts {x : Bay} (hx : Mem.wf x.t0 = true) (c : Nat) : (x.voidScope c).seq = x.seq ∧
    ∀ n, n < 64 → (x.voidScope c).frame n = if bit (x.tag n) c = true then [] else x.frame n := by
  obtain ⟨-, hseq, hframe⟩ := foldl_voidSlots (fun r => bit (x.tag r) c)
    (fun m => { m with voidOnArrival := m.arriving.isSome, xo := false, ident := 0 }) allSlots x hx
  let y := allSlots.foldl (fun y n => if bit (x.tag n) c then (y.setFrame n []).setSlot n
    { y.slot n with voidOnArrival := (y.slot n).arriving.isSome, xo := false, ident := 0 } else y) x
  have hlike : Bay.Like y (x.voidScope c) := by
    refine Bay.Like.trans (.foldl (.foldl (.foldl (.refl y) fun z e => ?_) fun z r => ?_) fun z i => ?_) ⟨rfl, rfl⟩
    · refine .foldl (.foldl (.refl z) fun w a => ?_) fun w a => ?_
      · exact .ite ⟨rfl, rfl⟩ (.refl w)
      · exact .ite ⟨rfl, rfl⟩ (.refl w)
    · exact .ite ⟨rfl, rfl⟩ (.refl z)
    · exact .ite ⟨rfl, rfl⟩ (.refl z)
  refine ⟨hlike.seq.trans hseq, fun n hn => ?_⟩
  unfold Bay.frame at *
  rw [hlike.t0]
  refine (hframe n).trans ?_
  simp [allSlots, hn]

/-! ### The end of a scope (R524, R529, R530, R549) -/

/-- `t` has the bays of `s` and has sent what `s` has. -/
structure State.BaysKept (s t : State) : Prop where
  bays : t.bays = s.bays
  out : t.out = s.out

namespace State.BaysKept

theorem refl (s : State) : s.BaysKept s := ⟨rfl, rfl⟩

theorem trans (h : s.BaysKept t) (h' : t.BaysKept u) : s.BaysKept u := ⟨h'.bays.trans h.bays, h'.out.trans h.out⟩

theorem bay (h : s.BaysKept t) (b : BayNum) : t.bay b = s.bay b := by
  unfold State.bay
  rw [h.bays]

theorem count (h : s.BaysKept t) {k n : Nat} : s.BaysKept (t.count k n) := ⟨h.bays, h.out⟩

theorem modRun (h : s.BaysKept t) {q : QNum} {id : Nat} {f : Run → Run} : s.BaysKept (t.modRun q id f) := ⟨h.bays, h.out⟩

end State.BaysKept

theorem State.countClose_baysKept (s : State) (q : QNum) (run : Nat) (sc : Scope) (committed : Bool) :
    s.BaysKept (s.countClose q run sc committed) := by
  unfold State.countClose
  split
  · exact .count (.count (.count (.count (.modRun (.refl s)))))
  · exact .count (.count (.count (.count (.modRun (.refl s)))))

/-- The quire has the run, with these scopes. -/
def State.HasScopes (s : State) (q : QNum) (id : Nat) (l : List Scope) : Prop := ∃ r, s.run q id = some r ∧ r.scopes = l

theorem State.HasScopes.modRun {q : QNum} {id : Nat} {l l' : List Scope} (h : s.HasScopes q id l) {f : Run → Run}
    (hf : ∀ r, (f r).id = r.id) (hl : ∀ r, r.scopes = l → (f r).scopes = l') : (s.modRun q id f).HasScopes q id l' := by
  obtain ⟨r, hr, hscopes⟩ := h
  exact ⟨f r, State.run_modRun hr hf, hl r hscopes⟩

theorem State.HasScopes.of_quires {q : QNum} {id : Nat} {l : List Scope} (h : s.HasScopes q id l) (hq : t.quires = s.quires) :
    t.HasScopes q id l := by
  obtain ⟨r, hr, hscopes⟩ := h
  refine ⟨r, ?_, hscopes⟩
  unfold State.run at *
  rwa [State.quire_of_quires hq]

theorem State.HasScopes.countClose {q : QNum} {id : Nat} {l : List Scope} (h : s.HasScopes q id l) (sc : Scope)
    (committed : Bool) : (s.countClose q id sc committed).HasScopes q id l := by
  have hmod := h.modRun (f := fun r => { r with
    specLeaves := (specSettle sc.id committed (((s.run q id).map Run.specLeaves).getD [])).2 }) (fun _ => rfl) fun _ hr => hr
  unfold State.countClose
  split
  · exact hmod.of_quires rfl
  · exact hmod.of_quires rfl

/-- The last bay to leave a scope drops it. -/
theorem State.HasScopes.leaveScope {c : Scope} (h : s.HasScopes d.q d.run.id [c]) (hb : c.bays = [d.b]) :
    (s.leaveScope d c).HasScopes d.q d.run.id [] :=
  h.modRun (fun _ => rfl) fun r hr => by
    show r.scopes.filterMap _ = []
    rw [hr]
    simp [hb]

/-- Requests of a scope that have not been sensed change the slots of a bay alone. -/
theorem State.dropUnsensed_bay (s : State) (q : QNum) (run sc : Nat) (c : BayNum) : ∃ slots,
    (s.dropUnsensed q run sc).bay c = { s.bay c with slots := slots } := by
  have hslots : ∀ (x : Bay) (l : List Nat) (f : SlotMeta → SlotMeta), ∃ slots, l.foldl (fun x n => x.modSlot n f) x =
      { x with slots := slots } := fun x l f =>
    List.foldlRecOn (motive := fun y : Bay => ∃ slots, y = { x with slots := slots }) l _ ⟨x.slots, rfl⟩ fun y hy n _ => by
      obtain ⟨slots, rfl⟩ := hy
      exact ⟨_, rfl⟩
  unfold State.dropUnsensed
  dsimp only
  refine List.foldlRecOn (motive := fun u : State => ∃ slots, u.bay c = { s.bay c with slots := slots }) _ _ ⟨_, rfl⟩
    fun u hu r _ => ?_
  obtain ⟨slots, hu⟩ := hu
  split
  · next e _ _ _ _ _ _ _ =>
    by_cases hc : c = e
    · subst hc
      obtain ⟨slots', hs⟩ := hslots (u.bay c) r.slots fun m =>
        { m with arriving := none, due := none, voidOnArrival := false }
      exact ⟨slots', (State.modBay_bay _ _ _).trans (hs.trans (by rw [hu]))⟩
    · exact ⟨slots, (State.setBay_bay_ne _ _ _ _ hc).trans hu⟩
  · exact ⟨slots, hu⟩

/-- … and no other part but the queues and a count. -/
theorem State.dropUnsensed_facts (s : State) (q : QNum) (run sc : Nat) :
    (s.dropUnsensed q run sc).quires = s.quires ∧ (s.dropUnsensed q run sc).out = s.out ∧
      (s.dropUnsensed q run sc).st = s.st := by
  unfold State.dropUnsensed
  dsimp only
  refine List.foldlRecOn (motive := fun u : State => u.quires = s.quires ∧ u.out = s.out ∧ u.st = s.st) _ _
    ⟨rfl, rfl, rfl⟩ fun u hu r _ => ?_
  split
  · exact hu
  · exact hu

/-- The end of a scope that has named no range and no stitch: what is dropped, then the count (R530). -/
theorem State.cancelScope_of_bare {q : QNum} {r : Run} {c : Scope} (htags : r.rangeTags = [])
    (hstitches : r.scopeStitches c.id = []) (hbays : r.bays = [b]) (hsignals : s.st.signals = []) : ∃ f : Run → Run,
      (∀ r, (f r).id = r.id ∧ (f r).scopes = r.scopes) ∧ s.cancelScope q r c =
        ((((s.dropUnsensed q r.id c.id).modBay b fun x => x.voidScope c.id).modRun q r.id f).setSt
          { s.st with signals := [] }).countClose q r.id c false := by
  refine ⟨fun r' => { r' with rangeTags := tagsDrop c.id r'.rangeTags, rangeIds := r'.rangeIds.filter fun e =>
    !(([] : Tab Nat).any fun g => g.1 == e.1) }, fun r => ⟨rfl, rfl⟩, ?_⟩
  have habsorb : ∀ u : State, u.st = s.st → u.absorbSignals [] = u.setSt { s.st with signals := [] } := fun u hu => by
    unfold State.absorbSignals
    rw [hu, hsignals]
    rfl
  unfold State.cancelScope
  dsimp only
  rw [htags, hstitches, hbays, habsorb]
  · rfl
  · exact (s.dropUnsensed_facts q r.id c.id).2.2

/-- A bare scope of one bay is cancelled and left: the bay's slots with its tag are void (R530). -/
theorem cancel_facts {c : Scope} (hwf : Mem.wf (s.bay d.b).t0 = true) (hrun : s.run d.q d.run.id = some d.run)
    (hscopes : d.run.scopes = [c]) (hcbays : c.bays = [d.b]) (hbays : d.run.bays = [d.b]) (htags : d.run.rangeTags = [])
    (hstitches : d.run.scopeStitches c.id = []) (hsignals : s.st.signals = []) :
    let t := (s.cancelScope d.q d.run c).leaveScope d c
    t.HasScopes d.q d.run.id [] ∧ (t.bay d.b).seq = (s.bay d.b).seq ∧ t.out = s.out ∧
      ∀ n, n < 64 → (t.bay d.b).frame n = if bit ((s.bay d.b).tag n) c.id = true then [] else (s.bay d.b).frame n := by
  obtain ⟨f, hf, heq⟩ := State.cancelScope_of_bare (q := d.q) htags hstitches hbays hsignals
  obtain ⟨hquires, hout, -⟩ := s.dropUnsensed_facts d.q d.run.id c.id
  obtain ⟨slots, hslots⟩ := s.dropUnsensed_bay d.q d.run.id c.id d.b
  have hhas : s.HasScopes d.q d.run.id [c] := ⟨d.run, hrun, hscopes⟩
  rw [heq]
  generalize s.dropUnsensed d.q d.run.id c.id = v at *
  have hmod : (v.modBay d.b fun x => x.voidScope c.id).HasScopes d.q d.run.id [c] := hhas.of_quires hquires
  have hclosed := ((hmod.modRun (f := f) (fun r => (hf r).1) fun r hr => (hf r).2.trans hr).of_quires
    (t := ((v.modBay d.b fun x => x.voidScope c.id).modRun d.q d.run.id f).setSt { s.st with signals := [] }) rfl).countClose c
      false
  have hkept := (State.countClose_baysKept (((v.modBay d.b fun x => x.voidScope c.id).modRun d.q d.run.id f).setSt
    { s.st with signals := [] }) d.q d.run.id c false)
  obtain ⟨hseq, hframe⟩ := Bay.voidScope_facts (x := v.bay d.b) (by rw [hslots]; exact hwf) c.id
  have hbay : State.bay ((State.countClose (((v.modBay d.b fun x => x.voidScope c.id).modRun d.q d.run.id f).setSt
      { s.st with signals := [] }) d.q d.run.id c false).leaveScope d c) d.b = (v.bay d.b).voidScope c.id :=
    (hkept.bay d.b).trans (by exact State.modBay_bay v d.b fun x => x.voidScope c.id)
  refine ⟨hclosed.leaveScope hcbays, ?_, (show State.out _ = State.out _ from hkept.out).trans hout, fun n hn => ?_⟩
  · rw [hbay, hseq, hslots]
  · rw [hbay, hframe n hn, hslots]
    rfl

/-- The bay at the commit of a scope (R529). -/
def Bay.commits (x : Bay) (c : Nat) : Bay :=
  { x with tags := tagsDrop c x.tags, dregDue := x.dregDue.map fun d => { d with tag := tagDrop c d.tag },
           moves := x.moves.map fun m => { m with tag := tagDrop c m.tag } }

theorem State.commitScope_of_bare {q : QNum} {r : Run} {c : Scope} (htags : r.rangeTags = [])
    (hstitches : r.scopeStitches c.id = []) (hbays : r.bays = [b]) : ∃ (f : Run → Run) (w : Weave),
      (∀ r, (f r).id = r.id ∧ (f r).scopes = r.scopes) ∧ s.commitScope q r c =
        (((s.modBay b fun x => x.commits c.id).setWeave w).modRun q r.id f).countClose q r.id c true := by
  refine ⟨fun r => { r with rangeTags := tagsDrop c.id r.rangeTags },
    ((s.modBay b fun x => x.commits c.id).settleRequests q r.id c.id).weave, fun r => ⟨rfl, rfl⟩, ?_⟩
  unfold State.commitScope
  dsimp only
  rw [htags, hstitches, hbays]
  rfl

/-- A bare scope of one bay is committed and left: its tag goes from everything (R529). -/
theorem commit_facts {c : Scope} (hwf : Tab.rising 0 (s.bay d.b).tags = true) (hrun : s.run d.q d.run.id = some d.run)
    (hscopes : d.run.scopes = [c]) (hcbays : c.bays = [d.b]) (hbays : d.run.bays = [d.b]) (htags : d.run.rangeTags = [])
    (hstitches : d.run.scopeStitches c.id = []) :
    let t := (s.commitScope d.q d.run c).leaveScope d c
    t.HasScopes d.q d.run.id [] ∧ (t.bay d.b).seq = (s.bay d.b).seq ∧ (t.bay d.b).t0 = (s.bay d.b).t0 ∧ t.out = s.out ∧
      ∀ n, (t.bay d.b).tag n = tagDrop c.id ((s.bay d.b).tag n) := by
  obtain ⟨f, w, hf, heq⟩ := State.commitScope_of_bare (s := s) (q := d.q) htags hstitches hbays
  have hhas : ((s.modBay d.b fun x => x.commits c.id).setWeave w).HasScopes d.q d.run.id [c] := ⟨d.run, hrun, hscopes⟩
  have hcommits : ((s.modBay d.b fun x => x.commits c.id).setWeave w).bay d.b = (s.bay d.b).commits c.id :=
    State.modBay_bay s d.b fun x => x.commits c.id
  have hout : ((s.modBay d.b fun x => x.commits c.id).setWeave w).out = s.out := rfl
  rw [heq]
  generalize (s.modBay d.b fun x => x.commits c.id).setWeave w = u at *
  have hclosed := (hhas.modRun (f := f) (fun r => (hf r).1) fun r hr => (hf r).2.trans hr).countClose c true
  have hkept := State.countClose_baysKept (u.modRun d.q d.run.id f) d.q d.run.id c true
  have hbay : ((u.modRun d.q d.run.id f).countClose d.q d.run.id c true).bay d.b = (s.bay d.b).commits c.id :=
    (hkept.bay d.b).trans hcommits
  have hsent : ((u.modRun d.q d.run.id f).countClose d.q d.run.id c true).out = s.out := hkept.out.trans hout
  generalize (u.modRun d.q d.run.id f).countClose d.q d.run.id c true = v at *
  have hleft : (v.leaveScope d c).bay d.b = v.bay d.b := rfl
  refine ⟨hclosed.leaveScope hcbays, ?_, ?_, hsent, fun n => ?_⟩ <;> rw [hleft, hbay]
  · rfl
  · rfl
  · exact Tab.get_tagsDrop c.id n _ 0 hwf

/-- A bay that has only moved on has passed its entry. -/
theorem State.Falls.passed_of_seq (h : s.Falls b d) (ht : (t.bay b).seq = ((s.bay b).past d).seq) : Passed s t b d :=
  h.passed (by rw [ht]; exact ⟨rfl, rfl, rfl, rfl, rfl, rfl, rfl⟩)

theorem State.Falls.advance_bay (h : s.Falls b d) : (s.advance d).bay b = (s.bay b).past d := by
  rw [h.advance_eq, State.setBay_bay]

theorem Run.closing_of_only {r : Run} {c : Scope} (h : r.scopes = [c]) (hb : c.bays = [b]) : r.closing c.id b = some c := by
  unfold Run.closing
  rw [h]
  simp [hb]

theorem State.stageFirst_of_quiet (h : s.st.signals = []) : s.stageFirst = s := if_pos h

theorem speculationScopesClause : SpeculationScopesClause := by
  intro s b d hinv hsignals id
  refine ⟨fun h hfree => ?_, fun c hscopes hid hcbays hbays hopen hkind hstitches hranges htags => ⟨fun h hall => ?_,
      fun h => ?_⟩⟩
  · have hfalls := falls_of_issues h
    obtain rfl := hfalls.bay
    have hno : (d.run.scopes.any fun c => c.id == id && !c.closed && !c.bays.contains d.b) = false := by
      rw [List.any_eq_false]
      exact fun c hc => by simp [hfree c hc]
    have hrun : (s.advance d).run d.q d.run.id = some d.run := hfalls.run_eq
    refine ⟨_, congrArg Host.Outcome.next (issue_of_issues h _), hfalls.passed_of_seq ?_, ?_, rfl, rfl, rfl, rfl⟩
    · exact congrArg Bay.seq hfalls.advance_bay
    · have hmod := State.run_modRun hrun (f := fun r => { r with
        scopes := if r.scopes.any (fun c => c.id == bits d.w 95 94 && !c.closed && !c.bays.contains d.b) then
            r.scopes.map fun c => if c.id == bits d.w 95 94 && !c.closed && !c.bays.contains d.b then
              { c with bays := c.bays ++ [d.b] } else c
          else r.scopes ++ [Scope.mk (bits d.w 95 94) (bits d.w 93 92) (bits d.w 91 84) (bits d.w 83 76) [d.b] false] })
        fun _ => rfl
      rw [if_neg (by rw [hno]; decide)] at hmod
      exact hmod
  all_goals
    have hfalls := falls_of_issues h
    obtain rfl := hfalls.bay
    have hid' : bits d.w 95 94 = c.id := hid.symm
    have hclosing : d.run.closing (bits d.w 95 94) d.b = some c := hid' ▸ Run.closing_of_only hscopes hcbays
    have hrun : (s.advance d).run d.q d.run.id = some d.run := hfalls.run_eq
    have hquiet : (s.advance d).st.signals = [] := hsignals
    have hbaywf := (s.canonical_iff.2 hinv).bay d.b
  · have hv : s.viols d = [] := by
      have haccept : s.acceptedLength d c = (s, some (8, false)) := if_pos hall
      unfold State.viols
      simp only [kind_of_issues h, hclosing, haccept, hopen]
      rfl
    have haccept : (s.advance d).acceptedLength d c = (s.advance d, some (8, false)) := if_pos hall
    obtain ⟨hempty, hseq, ht0, hout, htag⟩ := commit_facts (s := s.advance d) (hfalls.advance_bay ▸ hbaywf.tags) hrun hscopes
      hcbays hbays htags (hid ▸ hstitches)
    have heq : specCommit d.b s = ((s.advance d).commitScope d.q d.run c).leaveScope d c := by
      refine (issueChecked_of_clean h _ hv).trans ?_
      simp only [hclosing, hopen, haccept, State.stageFirst_of_quiet hquiet, hkind, hrun, Bool.false_eq_true, if_false,
        Nat.zero_ne_one, Option.getD_some]
    refine ⟨_, congrArg Host.Outcome.next heq, hfalls.passed_of_seq ?_, hempty, ?_, fun n => ?_, hout⟩
    · rw [hseq, hfalls.advance_bay]
    · rw [ht0, hfalls.advance_bay]
      rfl
    · rw [htag, hfalls.advance_bay, hid]
      rfl
  · obtain ⟨hempty, hseq, hout, hframe⟩ := cancel_facts (s := s.advance d) (hfalls.advance_bay ▸ hbaywf.t0) hrun hscopes
      hcbays hbays htags (hid ▸ hstitches) hquiet
    rw [hfalls.advance_bay] at hseq hframe
    have heq : specCancel d.b s = ((s.advance d).cancelScope d.q d.run c).leaveScope d c := by
      refine (issue_of_issues h _).trans ?_
      simp only [hclosing, hopen, State.stageFirst_of_quiet hquiet, hrun]
      rfl
    refine ⟨_, congrArg Host.Outcome.next heq, hfalls.passed_of_seq hseq, hempty, fun n hn hbit => ?_, fun n hn hbit => ?_,
        hout⟩
    · rw [hframe n hn]
      exact if_pos (hid ▸ hbit)
    · rw [hframe n hn]
      exact if_neg fun hc => Bool.false_ne_true (hbit.symm.trans (hid ▸ hc))

/-! ### Slips (R381, R388 to R390) -/

/-- An entry that falls due while something holds it does not issue; its run slips (R388, R389). -/
theorem State.issue_of_wait (hdue : s.due b = some d) (hkind : entryKind d.w = some k) (hwait : (s.bay b).seq.wait.isSome =
    true)
    (f : Due → State → State) : s.issue b k f = s.startSlip d (some .wait) := by
  simp [State.issue, hdue, hkind, hwait]

theorem State.issue_of_event (hdue : s.due b = some d) (hkind : entryKind d.w = some k) (hwait : (s.bay b).seq.wait = none)
    {c : SlipCause} {l : List SlipCause} (hevents : (s.holdsOf d k).events = c :: l) (f : Due → State → State) :
    s.issue b k f = s.startSlip d (some c) := by
  simp [State.issue, hdue, hkind, hwait, hevents]

theorem State.issue_of_cycle (hdue : s.due b = some d) (hkind : entryKind d.w = some k) (hwait : (s.bay b).seq.wait = none)
    (hevents : (s.holdsOf d k).events = []) (hexact : (s.holdsOf d k).exact ≠ []) (f : Due → State → State) :
    s.issue b k f = s.startSlip d none := by
  obtain ⟨p, l, hl⟩ := List.exists_cons_of_ne_nil hexact
  simp [State.issue, hdue, hkind, hwait, hevents, hl]

/-- The end of a slip of `len` cycles under a cause (R390). -/
def State.slipOver (s : State) (q : QNum) (id len : Nat) (c : SlipCause) : State :=
  let u := s.modRun q id fun r => { r with slipping := none, slipCycles := r.slipCycles + len, slips := r.slips + 1 }
  (u.count (Key.qSlipCount q (slipSub c))).count (Key.qSlipCycles q (slipSub c)) len

/-- Cycles and cause of the cycle-exact end of a slip, or none (R390). -/
def exactSlip (s : State) (d : Due) : Nat × SlipCause :=
  match lastExact ((s.holdsAll d).flatMap Holds.exact) with
  | some (u, c) => (u + 1 - d.elapsed, c)
  | none => (0, .wait)

/-- Length and cause of a slip that has ended by cycle `n`: the exact end, unless an event ended it later (R390). -/
def slipOf (s : State) (d : Due) (n : Nat) : Option SlipCause → Nat × SlipCause
  | none => exactSlip s d
  | some c => if (exactSlip s d).1 < max (s.slipFloor d) n then (max (s.slipFloor d) n, c) else exactSlip s d

theorem slipEnd_of_free {q : QNum} {id n : Nat} {r : Run} {inner : Option SlipCause} {slip : Nat × SlipCause}
    (hrun : s.run q id = some r) (hslip : r.slipping = some inner) (hnext : s.runNext q r = some d)
    (hwait : s.waitHolds d = false) (hevents : ∀ h ∈ s.holdsAll d, h.events = [])
    (hlen : slipOf s d n inner = slip)
    (hpos : slip.1 ≠ 0) (hbound : d.inBound slip.1 = true) (hdue : s.overdue r (d.elapsed + slip.1) = false) :
    slipEnd q id n s = s.slipOver q id slip.1 slip.2 := by
  have hany : ((s.holdsAll d).any fun h => h.events != []) = false := by
    rw [List.any_eq_false]
    exact fun h hh => by simp [hevents h hh]
  subst hlen
  have hfree : ¬ ((slipOf s d n inner).1 = 0 ∨ ¬ d.inBound (slipOf s d n inner).1 = true ∨
      s.overdue r (d.elapsed + (slipOf s d n inner).1) = true) := by
    rw [not_or, not_or, not_not]
    exact ⟨hpos, hbound, ne_true_of_eq_false hdue⟩
  unfold slipEnd
  simp only [hrun, hslip, hnext, hwait, hany, Bool.false_eq_true, or_self, if_false]
  cases inner with
  | none => exact if_neg hfree
  | some c => exact if_neg hfree

theorem slipKeys_ne (q : QNum) (c : SlipCause) : Key.qSlipCount q (slipSub c) ≠ Key.qSlipCycles q (slipSub c) := by
  revert q
  cases c <;> decide

theorem State.maxOf_qSlipCount (s : State) (q : QNum) (c : SlipCause) : s.maxOf (Key.qSlipCount q (slipSub c)) = 0xFFFFFFFF :=
  s.maxOf_of_card fun sku => by
    revert q
    cases sku <;> cases c <;> decide

theorem State.maxOf_qSlipCycles (s : State) (q : QNum) (c : SlipCause) :
    s.maxOf (Key.qSlipCycles q (slipSub c)) = 0xFFFFFFFFFFFFFFFF :=
  s.maxOf_of_card fun sku => by
    revert q
    cases sku <;> cases c <;> decide

theorem State.slipOver_facts {q : QNum} {id : Nat} {r : Run} (hwf : valsWf s.sku 0 s.dict.vals = true)
    (hrun : s.run q id = some r) (len : Nat) (c : SlipCause) :
    let t := s.slipOver q id len c
    t.run q id = some { r with slipping := none, slipCycles := r.slipCycles + len, slips := r.slips + 1 } ∧
      t.rd (Key.qSlipCount q (slipSub c)) = min (s.rd (Key.qSlipCount q (slipSub c)) + 1) 0xFFFFFFFF ∧
      t.rd (Key.qSlipCycles q (slipSub c)) = min (s.rd (Key.qSlipCycles q (slipSub c)) + len) 0xFFFFFFFFFFFFFFFF ∧
      t.bays = s.bays ∧ t.tiers = s.tiers ∧ t.st = s.st ∧ t.out = s.out := by
  have hmod := State.run_modRun hrun (f := fun r =>
    { r with slipping := none, slipCycles := r.slipCycles + len, slips := r.slips + 1 }) fun _ => rfl
  have hne := slipKeys_ne q c
  unfold State.slipOver
  dsimp only
  have hsame : ∀ k, (s.modRun q id fun r =>
    { r with slipping := none, slipCycles := r.slipCycles + len, slips := r.slips + 1 }).rd k = s.rd k := fun _ => rfl
  have huwf : valsWf (s.modRun q id fun r => { r with
      slipping := none, slipCycles := r.slipCycles + len, slips := r.slips + 1 }).sku 0 (s.modRun q id fun r => { r with
      slipping := none, slipCycles := r.slipCycles + len, slips := r.slips + 1 }).dict.vals = true := hwf
  have hbays : (s.modRun q id fun r => { r with
    slipping := none, slipCycles := r.slipCycles + len, slips := r.slips + 1 }).bays = s.bays := rfl
  have htiers : (s.modRun q id fun r => { r with
    slipping := none, slipCycles := r.slipCycles + len, slips := r.slips + 1 }).tiers = s.tiers := rfl
  have hst : (s.modRun q id fun r => { r with
    slipping := none, slipCycles := r.slipCycles + len, slips := r.slips + 1 }).st = s.st := rfl
  have hout : (s.modRun q id fun r => { r with
    slipping := none, slipCycles := r.slipCycles + len, slips := r.slips + 1 }).out = s.out := rfl
  generalize (s.modRun q id fun r => { r with
    slipping := none, slipCycles := r.slipCycles + len, slips := r.slips + 1 }) = u at *
  refine ⟨hmod, ?_, ?_, hbays, htiers, hst, hout⟩
  · rw [State.rd_count_zero (s := u.count _) (State.wr_wf _ _ _ huwf) hne, State.rd_count_up huwf (u.maxOf_qSlipCount q c),
      hsame]
  · rw [State.rd_count_self (u.count _) _ _ (State.wr_wf _ _ _ huwf), State.maxOf_qSlipCycles,
      State.rd_count_zero huwf hne.symm, hsame]

theorem slipFloor_pos (s : State) (d : Due) : 1 ≤ s.slipFloor d :=
  List.foldlRecOn (motive := fun m => 1 ≤ m) d.run.bays _ (Nat.le_refl 1) fun _ hm _ _ => hm.trans (Nat.le_max_left _ _)

theorem slipsClause : SlipsClause := by
  intro s b d hinv
  have hwf := (s.canonical_iff.2 hinv).dict.vals
  refine ⟨fun hdue hkind => ⟨fun hwait => ?_, fun c l hwait hevents => ?_, fun hwait hevents hexact => ?_⟩,
    fun q id r u c hrun hnext hwait hevents => ?_⟩
  · exact congrArg Host.Outcome.next (State.issue_of_wait hdue hkind hwait _)
  · exact congrArg Host.Outcome.next (State.issue_of_event hdue hkind hwait hevents _)
  · exact congrArg Host.Outcome.next (State.issue_of_cycle hdue hkind hwait hevents hexact _)
  intro last ended
  refine ⟨fun hslip hlast hle hbound hdue n => ?_, fun n hslip hlast => ?_⟩
  · have hexact : exactSlip s d = (u + 1 - d.elapsed, c) := by
      unfold exactSlip
      rw [show lastExact _ = some (u, c) from hlast]
    exact ⟨_, congrArg Host.Outcome.next (slipEnd_of_free (n := n) hrun hslip hnext hwait hevents hexact (by dsimp only; omega)
      hbound hdue), State.slipOver_facts hwf hrun _ c⟩
  · intro len hbound hdue
    have hexact : exactSlip s d = (0, .wait) := by
      unfold exactSlip
      rw [show lastExact _ = none from hlast]
    have hpos : 0 < len := lt_of_lt_of_le (slipFloor_pos s d) (Nat.le_max_left _ _)
    exact ⟨_, congrArg Host.Outcome.next (slipEnd_of_free (n := n) (slip := (len, c)) hrun hslip hnext hwait hevents
      (by unfold slipOf; rw [hexact]; exact if_pos hpos) hpos.ne' hbound hdue), State.slipOver_facts hwf hrun _ c⟩

/-- Settles O28: a frame for the end of a scope, a lemma for each way an entry is held, and an equation for the end of a
slip. -/
theorem scopesAndSlips : Obligations.ScopesAndSlips := ⟨speculationScopesClause, slipsClause⟩

end Sys2Proof.Machine
end

section
/-! PROOFS. The stitch: settling, one comparison stage, refused configurations (07; R309 to R319, R326 to R348). -/

namespace Sys2Proof.Machine

variable {s t u : State} {b : BayNum} {d : Due}

/-! ### A stitch settles (R314 to R318, R337 to R347) -/

/-- Step 3 of a stage: which waits the count meets, and the stitch after it is consumed or trips (R314, R316 to R318). -/
def Stitch.marked (x : Stitch) : List (Held × Bool) × Stitch :=
  match x.mode with
  | 1 =>
    let r := Stitch.meetEvent x.target x.val x.waits
    (r.1, { x.setVal r.2 with generation := x.generation + BitVec.ofNat 16 (r.1.filter fun p => p.2).length })
  | 2 =>
    if x.target ≤ x.val then
      let y := { x.setVal 0 with generation := x.generation + 1 }
      (x.waits.map fun h => (h, !h.fresh), if x.target < x.val then y.overshot else y)
    else (x.waits.map fun h => (h, false), x)
  | _ => (x.waits.map fun h => (h, decide (x.target ≤ x.val)), x)

/-- How a wait ends in a stage, if it does (R340 to R342, R346). -/
def endOf (poisonNow abortNow : Bool) (p : Held × Bool) : Option (Held × Outcome) :=
  if p.2 then some (p.1, if p.1.expiring ∧ ¬ p.1.fresh then Outcome.late else Outcome.met)
  else if poisonNow then some (p.1, Outcome.poison)
  else if abortNow then some (p.1, Outcome.aborted)
  else if p.1.expiring then some (p.1, Outcome.timeout)
  else none

/-- The wait as it stays behind a stage, if it does. -/
def stayOf (poisonNow abortNow : Bool) (p : Held × Bool) : Option Held :=
  if p.2 || poisonNow || abortNow || p.1.expiring then none else some { p.1 with fresh := false }

theorem Stitch.settle_of_poison {x : Stitch} (h : x.poison = true) (p a : Bool) :
    x.settle p a = ({ x with waits := [] }, x.waits.map fun h => (h, Outcome.poison)) := if_pos h

theorem Stitch.settle_of_clean {x : Stitch} (h : x.poison = false) (p a : Bool) : x.settle p a =
    ({ (if p then { x.marked.2 with poison := true } else x.marked.2) with
      waits := x.marked.1.filterMap (stayOf p a) }, x.marked.1.filterMap (endOf p a)) :=
  if_neg (by rw [h]; decide)

theorem Stitch.marked_of_one {x : Stitch} {h : Held} (hw : x.waits = [h]) (hmode : x.mode ≠ 2) :
    x.marked.1 = [(h, decide (x.target ≤ x.val))] := by
  unfold Stitch.marked
  split
  · by_cases hv : x.target ≤ x.val <;> simp [hw, Stitch.meetEvent, hv]
  · contradiction
  · simp [hw]

theorem Stitch.setVal_poison (x : Stitch) (v : Nat) : (x.setVal v).poison = x.poison := by
  unfold Stitch.setVal
  split <;> rfl

@[simp] theorem Stitch.val_setVal (x : Stitch) (v : Nat) : (x.setVal v).val = v := by
  unfold Stitch.setVal Stitch.val
  by_cases h : x.spec = true <;> simp [h]

@[simp] theorem Stitch.setVal_val (x : Stitch) : x.setVal x.val = x := by
  obtain ⟨count, target, mode, share, poison, spec⟩ := x
  cases spec <;> rfl

@[simp] theorem Stitch.setVal_setVal (x : Stitch) (v w : Nat) : (x.setVal v).setVal w = x.setVal w := by
  unfold Stitch.setVal
  by_cases h : x.spec = true <;> simp [h]

theorem Stitch.settle_poison (x : Stitch) (abort : Bool) : (x.settle true abort).1.poison = true := by
  by_cases h : x.poison = true
  · rw [Stitch.settle_of_poison h]
    exact h
  · rw [Stitch.settle_of_clean (by simpa using h)]
    rfl

theorem waitOutcomeOrderClause : WaitOutcomeOrderClause := by
  intro x h poison abort hw r
  refine ⟨fun hp => ?_, fun hp hmode => ?_, fun hp hmode hle hfresh => ?_, fun hp => ?_⟩
  · show x.settle poison abort = _
    rw [Stitch.settle_of_poison hp, hw]
    rfl
  · have hr : r = _ := Stitch.settle_of_clean hp poison abort
    have hmarked := Stitch.marked_of_one hw hmode
    rw [hr, hmarked]
    refine ⟨fun hle => ?_, fun hlt hnow => ?_, fun hlt hnow hrel => ?_, fun hlt hnow hrel hexp => ?_,
      fun hlt hnow hrel hexp => ⟨?_, ?_⟩⟩
    · simp [endOf, hle]
    all_goals
      have hno : ¬ x.target ≤ x.val := by omega
      simp [endOf, stayOf, *]
  · have hmarked : x.marked = ([(h, true)], if x.target < x.val then
        ({ x.setVal 0 with generation := x.generation + 1 } : Stitch).overshot
        else { x.setVal 0 with generation := x.generation + 1 }) := by
      unfold Stitch.marked
      simp [hmode, hle, hw, hfresh]
    have hr : r = _ := Stitch.settle_of_clean hp poison abort
    rw [hr, hmarked]
    refine ⟨by simp [endOf, hfresh], ?_, ?_, by simp [stayOf]⟩
    · dsimp only
      split_ifs <;> rfl
    · have hval : (x.setVal 0).val = 0 := Stitch.val_setVal x 0
      dsimp only
      split_ifs <;> exact hval
  · subst hp
    exact x.settle_poison abort

/-! ### Q_STITCH_CONFIG (R325 to R328) -/

/-- A run of Q_STITCH_CONFIG answers what its operation answers. -/
theorem exec_qStitchConfig {role : Role} {q : QNum} {arg : List Byte} {st : Nat} (hs : Serving s)
    (hallowed : Allowed s role (Key.qStitchConfig q) arg.length) (hwrite : stitchConfig q arg s = (st, t))
    (hst : st ≠ DS.role) : exec (.qStitchConfig role q arg) s = .next (t.answer st) := by
  obtain ⟨hidx, hsub⟩ := blockKey q 0x42
  have hkey : Key.qStitchConfig q / 256 = blockIndex q 0x42 ∧ Key.qStitchConfig q % 256 = 0 := ⟨hidx, hsub⟩
  rw [Allowed, hkey.1, hkey.2] at hallowed
  show keyRequest role (Key.qStitchConfig q) arg s = _
  rw [keyRequest, hkey.1, hkey.2]
  exact nextOf (dictRequest_quireCommand (p := (0x42, 16, 0, .hq)) (by decide) hs hallowed
    (by simpa [serveBlock, writeOf, blockIndex_mod] using hwrite) hst)

theorem stitchConfigRefusedClause : StitchConfigRefusedClause := by
  intro s role q arg hs hallowed n mode flags target share
  refine ⟨fun hown hbusy => ?_, fun hown hwaits hpoison hbad => ?_, fun hown => ?_⟩
  · exact exec_qStitchConfig hs hallowed (if_pos ⟨hown, hbusy⟩) (by decide)
  · refine exec_qStitchConfig hs hallowed ((if_neg ?_).trans (if_pos ?_)) (by decide)
    · rintro ⟨-, h | h⟩
      · exact h hwaits
      · exact Bool.false_ne_true (hpoison.symm.trans h)
    · rcases hbad with h | h | h | h | h
      · exact Or.inr (Or.inr (Or.inl h))
      · exact Or.inr (Or.inr (Or.inr (Or.inl h)))
      · exact Or.inr (Or.inr (Or.inr (Or.inr (Or.inl h))))
      · exact Or.inr (Or.inr (Or.inr (Or.inr (Or.inr (Or.inr (Or.inr (Or.inl h)))))))
      · exact Or.inr (Or.inr (Or.inr (Or.inr (Or.inr (Or.inr (Or.inr (Or.inr h)))))))
  · refine exec_qStitchConfig hs hallowed ((if_neg fun h => ?_).trans (if_pos (Or.inr (Or.inl ?_)))) (by decide)
    · exact Bool.false_ne_true (hown.symm.trans h.1)
    · rw [hown]
      decide

/-- The stitch that Q_STITCH_CONFIG makes (R325, R328). -/
def configured (arg : List Byte) : Stitch :=
  { count := fieldLe arg 8 4, target := fieldLe arg 4 4, mode := fieldLe arg 2 1, share := BitVec.ofNat 8 (fieldLe arg 12 1),
    poison := false, spec := fieldLe arg 3 1 == 1, shadow := if fieldLe arg 3 1 = 1 then fieldLe arg 8 4 else 0,
    generation := 0, overshoot := 0, savedGen := 0, savedOver := 0, waits := [] }

theorem stitchConfiguredClause : StitchConfiguredClause := by
  intro s role q arg hs hinv hallowed hidle n mode flags target count share hown hwaits hpoison hn hmode htarget hshare hflags
    hzero hspec hbarrier
  have hwrite : stitchConfig q arg s = (DS.ok, (s.setStitch n (configured arg)).cmdDone (Key.qStitchConfig q) DS.ok []) := by
    refine (if_neg ?_).trans (if_neg ?_)
    · rintro ⟨-, h | h⟩
      · exact h hwaits
      · exact Bool.false_ne_true (hpoison.symm.trans h)
    · rintro (h | h | h | h | h | h | h | h | h)
      · exact absurd hn (by omega)
      · exact h hown
      · exact absurd hmode (by omega)
      · exact htarget h
      · exact Bool.false_ne_true (hshare.symm.trans h)
      · exact absurd hflags (by omega)
      · exact h hzero
      · exact h.2 (hspec h.1)
      · exact absurd (hbarrier h.1) (by omega)
  have hstitch := State.stitch_setStitch (s.canonical_iff.2 hinv).st n
  refine ⟨_, exec_qStitchConfig hs hallowed hwrite (by decide), ?_⟩
  have hself : (((s.setStitch n (configured arg)).cmdDone (Key.qStitchConfig q) DS.ok []).answer DS.ok).stitch n =
    configured arg := (hstitch n (configured arg)).trans (if_pos rfl)
  rw [hself]
  exact ⟨rfl, rfl, rfl, rfl, rfl, rfl, rfl, rfl, fun m hm => (hstitch m _).trans (if_neg hm), rfl, rfl⟩

end Sys2Proof.Machine
end

section
/-! PROOFS. The comparison stage (07; R309 to R319, R348): the end of a wait leaves every stitch, each stitch is settled
once. -/

namespace Sys2Proof.Machine

variable {s t u : State} {b : BayNum} {d : Due}

/-! ### What the end of a wait leaves -/

/-- `t` has the stitches of `s`, what poisons and releases them, the memories that keep their content and the sentinel, and
every entry that is no tally. -/
structure State.EndKept (s t : State) : Prop where
  stitches : t.st.stitches = s.st.stitches
  poisons : t.st.poisons = s.st.poisons
  aborts : t.st.aborts = s.st.aborts
  nv : t.nv = s.nv
  sent : t.sent = s.sent
  regs : s.RegsKept isTally t

namespace State.EndKept

theorem of_st (hst : t.st = s.st) (hnv : t.nv = s.nv) (hsent : t.sent = s.sent) (hregs : s.RegsKept isTally t) :
    s.EndKept t := ⟨by rw [hst], by rw [hst], by rw [hst], hnv, hsent, hregs⟩

theorem refl (s : State) : s.EndKept s := .of_st rfl rfl rfl (.of_eq rfl rfl)

theorem trans (h : s.EndKept t) (h' : t.EndKept u) : s.EndKept u where
  stitches := h'.stitches.trans h.stitches
  poisons := h'.poisons.trans h.poisons
  aborts := h'.aborts.trans h.aborts
  nv := h'.nv.trans h.nv
  sent := h'.sent.trans h.sent
  regs := h.regs.trans h'.regs

theorem ite {c : Prop} [Decidable c] (ht : s.EndKept t) (hu : s.EndKept u) : s.EndKept (if c then t else u) := by
  split
  · exact ht
  · exact hu

theorem foldl {α : Type} {f : State → α → State} {l : List α} (h : s.EndKept t)
    (hf : ∀ (v : State) (a : α), v.EndKept (f v a)) : s.EndKept (l.foldl f t) :=
  List.foldlRecOn l f h fun v hv a _ => hv.trans (hf v a)

theorem setQuire (s : State) (q : QNum) (x : Quire) : s.EndKept (s.setQuire q x) := .of_st rfl rfl rfl (.of_eq rfl rfl)

theorem modBay (s : State) (b : BayNum) (f : Bay → Bay) : s.EndKept (s.modBay b f) := .of_st rfl rfl rfl (.of_eq rfl rfl)

theorem setTiers (s : State) (x : Tiers) : s.EndKept (s.setTiers x) := .of_st rfl rfl rfl (.of_eq rfl rfl)

theorem emit (s : State) (o : Output) : s.EndKept (s.emit o) := .of_st rfl rfl rfl (.of_eq rfl rfl)

theorem signal (s : State) (n a : Nat) : s.EndKept (s.signal n a) := ⟨rfl, rfl, rfl, rfl, rfl, .of_eq rfl rfl⟩

theorem count {k n : Nat} (h : s.EndKept t) (hk : isTally k) : s.EndKept (t.count k n) :=
  h.trans (.of_st rfl rfl rfl (t.count_regsKept n hk))

theorem msixSend (s : State) (v : Nat) : s.EndKept (s.msixSend v) := by
  obtain ⟨out, msix, h⟩ := s.msixSend_eq v
  rw [h]
  exact .of_st rfl rfl rfl (.of_eq rfl rfl)

end State.EndKept

theorem State.writeCq_endKept (s : State) (q : QNum) (c : Completion) : s.EndKept (s.writeCq q c) := by
  have hadvance : ∀ bytes, s.EndKept (s.advanceCq q bytes) := fun bytes =>
    .ite ((State.EndKept.setQuire s q _).trans (.setTiers _ _)) (.setQuire s q _)
  have htell : ∀ v : State, v.EndKept (v.tellCq q c) := fun v => by
    have hsignal : v.EndKept (if bit c.flags 1 ∧ v.ownsStitch q c.doneStitch ∧ ¬ (v.stitch c.doneStitch).spec then
      v.signal c.doneStitch 1 else v) := .ite (.signal v _ _) (.refl v)
    exact .ite (hsignal.trans (.msixSend _ _)) hsignal
  rw [s.writeCq_eq]
  exact ((hadvance _).trans (.emit _ _)).trans (htell _)

theorem State.complete_endKept (s : State) (q : QNum) (e : Entry) (status detail result : Nat) :
    s.EndKept (s.complete q e status detail result) :=
  .ite (.refl s) (.ite (.setQuire s q _) (s.writeCq_endKept q _))

theorem State.tryRelease_endKept (s : State) (q : QNum) : s.EndKept (s.tryRelease q) := by
  unfold State.tryRelease
  dsimp only
  refine .ite ?_ (.refl s)
  obtain ⟨bays, power, h⟩ := (s.setQuire q { s.quire q with pwr := .release }).gateBays_eq q
  rw [h]
  exact .of_st rfl rfl rfl (.of_eq rfl rfl)

theorem State.settleQuire_endKept (s : State) (q : QNum) : s.EndKept (s.settleQuire q) :=
  (State.EndKept.ite (.setQuire s q _) (.refl s)).trans (State.tryRelease_endKept _ q)

theorem State.finish_endKept (s : State) (q : QNum) (e : Entry) (status detail result : Nat) :
    s.EndKept (s.finish q e status detail result) :=
  ((State.EndKept.setQuire s q _).trans (State.complete_endKept _ q e _ _ _)).trans (State.settleQuire_endKept _ q)

theorem isTally_wait (q : QNum) : isTally (Key.qStMet q) ∧ isTally (Key.qStLate q) ∧ isTally (Key.qStTimeout q) ∧
    isTally (Key.qStReleased q) := by
  simp only [isTally, Key.qStMet, Key.qStLate, Key.qStTimeout, Key.qStReleased]
  omega

theorem State.countWait_endKept (s : State) (q : QNum) (o : Outcome) : s.EndKept (s.countWait q o) := by
  obtain ⟨hmet, hlate, htimeout, hreleased⟩ := isTally_wait q
  cases o
  · exact .count (.refl s) hmet
  · exact .count (.count (.refl s) hmet) hlate
  · exact .count (.refl s) htimeout
  · exact .count (.refl s) hreleased
  · exact .count (.refl s) hreleased

theorem State.noteWait_endKept (s : State) (b : BayNum) : s.EndKept (s.noteWait b) := by
  obtain ⟨v, hv⟩ := s.noteWait_eq b
  rw [hv]
  exact .of_st rfl rfl rfl (.of_eq rfl rfl)

theorem State.endWait_endKept (s : State) (h : Held) (o : Outcome) (count : Nat) : s.EndKept (s.endWait h o count) := by
  have hcounted := s.countWait_endKept h.quire o
  unfold State.endWait
  dsimp only
  split
  · exact (hcounted.trans (.modBay _ _ _)).trans (State.noteWait_endKept _ _)
  · split
    · exact hcounted.trans (State.finish_endKept _ _ _ _ _ _)
    · exact hcounted

/-! ### One stitch in a stage (R309 to R319) -/

/-- The stitch with the signals of the stage added (R312, R313): a poisoned one discards them (R348). -/
def Stitch.signalled (x : Stitch) (mine : List Nat) : Stitch := if x.poison ∨ mine = [] then x else x.add mine.sum

/-- The amounts that arrived for a stitch. -/
def amountsOf (signals : List (Nat × Nat)) (n : Nat) : List Nat := (signals.filter fun p => p.1 == n).map fun p => p.2

/-- The stitch after a stage, and the waits that end in it. -/
def Stitch.staged (x : Stitch) (u : StitchUnit) (n : Nat) : Stitch × List (Held × Outcome) :=
  (x.signalled (amountsOf u.signals n)).settle (u.poisons.any fun p => inRange p n) (u.aborts.any fun p => inRange p n)

/-- The tally of the signals that arrived for a stitch of `o`. -/
def State.tallied (s : State) (o : QNum) (x : Stitch) (mine : List (Nat × Nat)) : State :=
  if mine = [] then s
  else if x.poison then s.count (Key.qStDiscarded o) mine.length
  else s.count (Key.qStSignals o) mine.length

theorem State.tallied_eq (s : State) (o : QNum) (x : Stitch) (mine : List (Nat × Nat)) :
    (∃ dict, s.tallied o x mine = s.setDict dict) ∧ s.RegsKept isTally (s.tallied o x mine) := by
  obtain ⟨hsignals, hdiscarded⟩ := isTally_stitch o
  unfold State.tallied
  split
  · exact ⟨⟨s.dict, rfl⟩, .of_eq rfl rfl⟩
  · split
    · exact ⟨⟨_, rfl⟩, s.count_regsKept _ hdiscarded⟩
    · exact ⟨⟨_, rfl⟩, s.count_regsKept _ hsignals⟩

theorem State.stageOne_of_free (u : StitchUnit) {n : Nat} (h : s.stitchOwner n = none) :
    s.stageOne u.signals u.poisons u.aborts n = s := by
  unfold State.stageOne
  rw [h]

theorem State.stageOne_of_owned (u : StitchUnit) {n : Nat} {o : QNum} (h : s.stitchOwner n = some o) :
    s.stageOne u.signals u.poisons u.aborts n = ((s.stitch n).staged u n).2.foldl
      (fun v p => v.endWait p.1 p.2 ((s.stitch n).signalled (amountsOf u.signals n)).val)
      ((s.tallied o (s.stitch n) (u.signals.filter fun p => p.1 == n)).setStitch n ((s.stitch n).staged u n).1) := by
  have hmine : (amountsOf u.signals n = []) = ((u.signals.filter fun p => p.1 == n) = []) := by
    rw [amountsOf, List.map_eq_nil_iff]
  unfold State.stageOne Stitch.staged Stitch.signalled
  simp only [h, hmine]
  rfl

/-- A stage of one stitch: what it keeps, and the stitches after it. -/
theorem State.stageOne_facts (u : StitchUnit) (n : Nat) (hst : Tab.rising 0 s.st.stitches = true) :
    let t := s.stageOne u.signals u.poisons u.aborts n
    t.st.poisons = s.st.poisons ∧ t.st.aborts = s.st.aborts ∧ t.nv = s.nv ∧ t.sent = s.sent ∧ s.RegsKept isTally t ∧
      Tab.rising 0 t.st.stitches = true ∧
      ∀ m, t.stitch m = if m = n ∧ s.stitchOwner n ≠ none then ((s.stitch n).staged u n).1 else s.stitch m := by
  cases ho : s.stitchOwner n with
  | none =>
    rw [State.stageOne_of_free u ho]
    exact ⟨rfl, rfl, rfl, rfl, .of_eq rfl rfl, hst, fun m => by simp⟩
  | some o =>
    rw [State.stageOne_of_owned u ho]
    obtain ⟨⟨dict, hdict⟩, hregs⟩ := s.tallied_eq o (s.stitch n) (u.signals.filter fun p => p.1 == n)
    rw [hdict] at hregs ⊢
    have hkept : ((s.setDict dict).setStitch n ((s.stitch n).staged u n).1).EndKept (((s.stitch n).staged u n).2.foldl
        (fun v p => v.endWait p.1 p.2 ((s.stitch n).signalled (amountsOf u.signals n)).val)
        ((s.setDict dict).setStitch n ((s.stitch n).staged u n).1)) :=
      .foldl (.refl _) fun v p => v.endWait_endKept p.1 p.2 _
    have hset : ∀ m, ((s.setDict dict).setStitch n ((s.stitch n).staged u n).1).stitch m =
        if m = n then ((s.stitch n).staged u n).1 else s.stitch m := fun m => State.stitch_setStitch hst n m _
    refine ⟨hkept.poisons, hkept.aborts, hkept.nv, hkept.sent, ?_, ?_, fun m => ?_⟩
    · have hset : (s.setDict dict).RegsKept isTally ((s.setDict dict).setStitch n ((s.stitch n).staged u n).1) :=
        .of_eq rfl rfl
      exact (hregs.trans hset).trans hkept.regs
    · rw [hkept.stitches]
      exact Tab.rising_set hst _ _ _
    · unfold State.stitch at *
      rw [hkept.stitches, hset m]
      simp

/-! ### The whole stage -/

theorem mem_insertNat (n m : Nat) : ∀ l : List Nat, m ∈ insertNat n l ↔ m = n ∨ m ∈ l
  | [] => by simp [insertNat]
  | x :: l => by
    have ih := mem_insertNat n m l
    unfold insertNat
    split
    · simp
    · split
      · next h => subst h; simp
      · simp only [List.mem_cons, ih]
        tauto

theorem mem_sortNat (m : Nat) : ∀ l : List Nat, m ∈ sortNat l ↔ m ∈ l
  | [] => Iff.rfl
  | x :: l => by
    show m ∈ insertNat x (sortNat l) ↔ _
    rw [mem_insertNat, mem_sortNat m l, List.mem_cons]

theorem insertNat_sorted (n : Nat) : ∀ l : List Nat, l.Pairwise (· < ·) → (insertNat n l).Pairwise (· < ·)
  | [], _ => List.pairwise_singleton _ _
  | x :: l, h => by
    obtain ⟨hx, hl⟩ := List.pairwise_cons.1 h
    unfold insertNat
    split
    · next hn =>
      refine List.pairwise_cons.2 ⟨fun a ha => ?_, h⟩
      rcases List.mem_cons.1 ha with rfl | ha
      · exact hn
      · exact hn.trans (hx a ha)
    · split
      · exact h
      · refine List.pairwise_cons.2 ⟨fun a ha => ?_, insertNat_sorted n l hl⟩
        rcases (mem_insertNat n a l).1 ha with rfl | ha
        · omega
        · exact hx a ha

theorem sortNat_nodup (l : List Nat) : (sortNat l).Nodup := by
  have h : (sortNat l).Pairwise (· < ·) := by
    induction l with
    | nil => exact List.Pairwise.nil
    | cons x l ih => exact insertNat_sorted x _ ih
  exact h.imp fun h => h.ne

/-- An entry that a tally does not write reads as before, so owners stay. -/
theorem State.stitchOwner_of_regs (h : s.RegsKept isTally t) (hwf : valsWf s.sku 0 s.dict.vals = true) (n : Nat) :
    t.stitchOwner n = s.stitchOwner n := by
  have hrange : ∀ q, t.stitchRange q = s.stitchRange q := fun q => by
    obtain ⟨-, hbase, -⟩ := stitchKeys_plain q (Key.qStitchBase q) (by simp)
    obtain ⟨-, hcount, -⟩ := stitchKeys_plain q (Key.qStitchCount q) (by simp)
    exact congrArg₂ Prod.mk (h.rd hwf _ hbase) (h.rd hwf _ hcount)
  unfold State.stitchOwner
  simp only [hrange]

/-- A stage over a list of stitches settles each of them that is owned, once. -/
theorem foldl_stageOne (u : StitchUnit) (l : List Nat) (hl : l.Nodup) : ∀ s : State,
    valsWf s.sku 0 s.dict.vals = true → Tab.rising 0 s.st.stitches = true →
    let t := l.foldl (fun v n => v.stageOne u.signals u.poisons u.aborts n) s
    t.st.poisons = s.st.poisons ∧ t.st.aborts = s.st.aborts ∧ t.nv = s.nv ∧ t.sent = s.sent ∧
      ∀ m, t.stitch m = if m ∈ l ∧ s.stitchOwner m ≠ none then ((s.stitch m).staged u m).1 else s.stitch m := by
  induction l with
  | nil => exact fun s _ _ => ⟨rfl, rfl, rfl, rfl, fun m => by simp⟩
  | cons n l ih =>
    intro s hwf hst
    obtain ⟨hnot, hnodup⟩ := List.nodup_cons.1 hl
    obtain ⟨hpoisons, haborts, hnv, hsent, hregs, hrising, hstitch⟩ := State.stageOne_facts u n hst
    have howner := State.stitchOwner_of_regs hregs hwf
    simp only [List.foldl_cons]
    generalize s.stageOne u.signals u.poisons u.aborts n = v at *
    obtain ⟨hpoisons', haborts', hnv', hsent', hstitch'⟩ := ih hnodup v (hregs.wf hwf) hrising
    refine ⟨hpoisons'.trans hpoisons, haborts'.trans haborts, hnv'.trans hnv, hsent'.trans hsent, fun m => ?_⟩
    rw [hstitch' m, howner m, hstitch m]
    by_cases hm : m = n
    · subst hm
      simp [hnot]
    · simp [hm]

/-- The numbers of the stitches that a stage looks at. -/
def stageNums (u : StitchUnit) : List Nat :=
  sortNat ((u.stitches.map fun e => e.1) ++ (u.signals.map fun e => e.1) ++ rangeNums u.poisons ++ rangeNums u.aborts)

theorem comparisonStage_of_core (h : s.coreOn = true) : comparisonStage s = (stageNums s.st).foldl
    (fun v n => v.stageOne s.st.signals s.st.poisons s.st.aborts n)
    (s.setSt { s.st with signals := [], poisons := [], aborts := [] }) := if_neg (by simp [h])

theorem mem_rangeNums {l : List (Nat × Nat)} {n : Nat} : n ∈ rangeNums l ↔ (l.any fun p => inRange p n) = true := by
  unfold rangeNums upFrom inRange
  simp only [List.mem_flatMap, List.mem_map, List.mem_range, List.any_eq_true, Bool.and_eq_true, decide_eq_true_eq]
  refine exists_congr fun p => and_congr_right fun _ => ⟨?_, ?_⟩
  · rintro ⟨k, hk, rfl⟩
    omega
  · rintro ⟨hlo, hhi⟩
    exact ⟨n - p.1, by omega, by omega⟩

theorem amountsOf_of_none {l : List (Nat × Nat)} {n : Nat} (h : n ∉ l.map fun p => p.1) : amountsOf l n = [] := by
  unfold amountsOf
  rw [List.map_eq_nil_iff, List.filter_eq_nil_iff]
  exact fun p hp hn => h (List.mem_map.2 ⟨p, hp, eq_of_beq hn⟩)

theorem Tab.find_of_notMem {α : Type} {t : Tab α} {n : Nat} (h : n ∉ t.map fun e => e.1) : Tab.find t n = none := by
  induction t with
  | nil => rfl
  | cons p t ih =>
    obtain ⟨hne, hn⟩ := not_or.1 (mt List.mem_cons.2 h)
    rw [Tab.find, if_neg hne, ih hn]
    split <;> rfl

/-- A stitch that the stage does not look at is as it would be behind it. -/
theorem staged_of_notMem {n : Nat} (h : n ∉ stageNums s.st) : ((s.stitch n).staged s.st n).1 = s.stitch n := by
  unfold stageNums at h
  rw [mem_sortNat, List.mem_append, List.mem_append, List.mem_append, mem_rangeNums, mem_rangeNums] at h
  obtain ⟨⟨⟨htab, hsig⟩, hpoison⟩, habort⟩ := by simpa only [not_or] using h
  have hreset : s.stitch n = Stitch.reset := by
    unfold State.stitch Tab.get
    rw [Tab.find_of_notMem htab]
    rfl
  unfold Stitch.staged
  rw [amountsOf_of_none hsig, hreset, eq_false_of_ne_true hpoison, eq_false_of_ne_true habort]
  rfl

theorem stageSettlesAllClause : StageSettlesAllClause := by
  intro s hinv hcore
  have hwf := (s.canonical_iff.2 hinv).dict.vals
  obtain ⟨hpoisons, haborts, hnv, hsent, hstitch⟩ := foldl_stageOne s.st (stageNums s.st) (sortNat_nodup _)
    (s.setSt { s.st with signals := [], poisons := [], aborts := [] }) hwf (s.canonical_iff.2 hinv).st
  have hshell : s.ShellKept (comparisonStage s) := by
    rw [comparisonStage_of_core hcore]
    exact .foldl (.setSt (.refl s)) fun v n => v.stageOne_shellKept _ _ _ n
  rw [← comparisonStage_of_core hcore] at hpoisons haborts hnv hsent hstitch
  have hstitch' : ∀ m, (comparisonStage s).stitch m = if m ∈ stageNums s.st ∧ s.stitchOwner m ≠ none then
    ((s.stitch m).staged s.st m).1 else s.stitch m := hstitch
  refine ⟨_, rfl, fun n hn => ?_, fun n hn => ?_, hpoisons, haborts, hnv, hsent, hshell.i3c, hshell.sec⟩
  · rw [hstitch', if_neg fun h => h.2 hn]
  · rw [hstitch']
    by_cases hmem : n ∈ stageNums s.st
    · rw [if_pos ⟨hmem, hn⟩]
      rfl
    · rw [if_neg fun h => hmem h.1]
      exact (staged_of_notMem hmem).symm

/-! ### Stitches without waits (R312, R313, R316 to R319) -/

@[simp] theorem Stitch.setVal_mode (x : Stitch) (v : Nat) : (x.setVal v).mode = x.mode := by
  unfold Stitch.setVal
  split <;> rfl

@[simp] theorem Stitch.setVal_target (x : Stitch) (v : Nat) : (x.setVal v).target = x.target := by
  unfold Stitch.setVal
  split <;> rfl

@[simp] theorem Stitch.setVal_waits (x : Stitch) (v : Nat) : (x.setVal v).waits = x.waits := by
  unfold Stitch.setVal
  split <;> rfl

@[simp] theorem Stitch.setVal_generation (x : Stitch) (v : Nat) : (x.setVal v).generation = x.generation := by
  unfold Stitch.setVal
  split <;> rfl

theorem Stitch.signalled_waits (x : Stitch) (mine : List Nat) : (x.signalled mine).waits = x.waits := by
  unfold Stitch.signalled Stitch.add
  dsimp only
  split
  · rfl
  · split
    · exact x.setVal_waits _
    · split
      · exact x.setVal_waits _
      · exact x.setVal_waits _

theorem Stitch.marked_of_noWaits {x : Stitch} (hw : x.waits = []) : x.marked.1 = [] := by
  unfold Stitch.marked
  split
  · rw [hw]
    rfl
  · split <;> simp [hw]
  · simp [hw]

theorem Stitch.settle_of_noWaits {x : Stitch} (hw : x.waits = []) (p a : Bool) :
    (x.settle p a).1.waits = [] ∧ (x.settle p a).2 = [] := by
  by_cases h : x.poison = true
  · rw [Stitch.settle_of_poison h, hw]
    exact ⟨rfl, rfl⟩
  · rw [Stitch.settle_of_clean (by simpa using h), Stitch.marked_of_noWaits hw]
    exact ⟨rfl, rfl⟩

/-- Without waits a stitch that is poisoned, that is no barrier, or whose barrier is not reached stays as it is. -/
theorem Stitch.settle_of_rest {x : Stitch} (hw : x.waits = []) (h : x.poison = true ∨ x.mode ≠ 2 ∨ x.val < x.target) :
    (x.settle false false).1 = x := by
  have hsame : ({ x with waits := [] } : Stitch) = x := by rw [← hw]
  by_cases hp : x.poison = true
  · rw [Stitch.settle_of_poison hp]
    exact hsame
  · have hmarked : x.marked.2 = x := by
      unfold Stitch.marked
      split
      · rw [hw]
        show ({ x.setVal x.val with generation := x.generation + 0 } : Stitch) = x
        rw [Stitch.setVal_val, show x.generation + 0 = x.generation from BitVec.add_zero _]
      · next hmode =>
        rw [if_neg (by have := h.resolve_left hp |>.resolve_left (not_not.2 hmode); omega)]
      · rfl
    rw [Stitch.settle_of_clean (by simpa using hp), Stitch.marked_of_noWaits hw, hmarked]
    exact hsame

/-- Without waits a barrier that is reached trips (R316, R319). -/
theorem Stitch.settle_of_trip {x : Stitch} (hw : x.waits = []) (hp : x.poison = false) (hmode : x.mode = 2)
    (hv : x.target ≤ x.val) : (x.settle false false).1 =
      if x.target < x.val then ({ x.setVal 0 with generation := x.generation + 1 } : Stitch).overshot
      else { x.setVal 0 with generation := x.generation + 1 } := by
  have hmarked : x.marked.2 = if x.target < x.val then
      ({ x.setVal 0 with generation := x.generation + 1 } : Stitch).overshot
      else { x.setVal 0 with generation := x.generation + 1 } := by
    unfold Stitch.marked
    simp [hmode, hv]
  have hwaits : x.marked.2.waits = [] := by
    rw [hmarked]
    split
    · exact (x.setVal_waits 0).trans hw
    · exact (x.setVal_waits 0).trans hw
  rw [Stitch.settle_of_clean hp, Stitch.marked_of_noWaits hw]
  refine Eq.trans ?_ hmarked
  show ({ x.marked.2 with waits := [] } : Stitch) = x.marked.2
  rw [← hwaits]

/-- A stage in which no stitch has a wait changes counts and stitches alone. -/
theorem foldl_stageOne_quiet (u : StitchUnit) (l : List Nat) : ∀ s : State, Tab.rising 0 s.st.stitches = true →
    (∀ m, (s.stitch m).waits = []) → ∃ dict tab,
      l.foldl (fun v n => v.stageOne u.signals u.poisons u.aborts n) s =
        (s.setDict dict).setSt { s.st with stitches := tab } := by
  induction l with
  | nil => exact fun s _ _ => ⟨s.dict, s.st.stitches, rfl⟩
  | cons n l ih =>
    intro s hst hquiet
    obtain ⟨-, -, -, -, -, hrising, hstitch⟩ := State.stageOne_facts u n hst
    have hsettled := Stitch.settle_of_noWaits ((Stitch.signalled_waits (s.stitch n) (amountsOf u.signals n)).trans (hquiet n))
      (u.poisons.any fun p => inRange p n) (u.aborts.any fun p => inRange p n)
    have hone : ∃ dict tab, s.stageOne u.signals u.poisons u.aborts n = (s.setDict dict).setSt { s.st with stitches := tab } := by
      cases ho : s.stitchOwner n with
      | none => exact ⟨s.dict, s.st.stitches, State.stageOne_of_free u ho⟩
      | some o =>
        obtain ⟨⟨dict, hdict⟩, -⟩ := s.tallied_eq o (s.stitch n) (u.signals.filter fun p => p.1 == n)
        rw [State.stageOne_of_owned u ho, hdict, show ((s.stitch n).staged u n).2 = [] from hsettled.2]
        exact ⟨dict, _, rfl⟩
    have hquiet' : ∀ m, ((s.stageOne u.signals u.poisons u.aborts n).stitch m).waits = [] := fun m => by
      rw [hstitch m]
      split
      · exact hsettled.1
      · exact hquiet m
    obtain ⟨dict, tab, heq⟩ := ih _ hrising hquiet'
    obtain ⟨dict', tab', hone⟩ := hone
    rw [List.foldl_cons, heq, hone]
    exact ⟨dict, tab, rfl⟩

theorem stageAddsSignalsClause : StageAddsSignalsClause := by
  intro s n a o hinv hcore howner hsignals hpoisons haborts hrest x v
  have hwf := (s.canonical_iff.2 hinv).dict.vals
  have hst := (s.canonical_iff.2 hinv).st
  obtain ⟨dict, tab, hquiet⟩ := foldl_stageOne_quiet s.st (stageNums s.st)
    (s.setSt { s.st with signals := [], poisons := [], aborts := [] }) hst fun m => (hrest m).1
  obtain ⟨-, -, -, -, hfold⟩ := foldl_stageOne s.st (stageNums s.st) (sortNat_nodup _)
    (s.setSt { s.st with signals := [], poisons := [], aborts := [] }) hwf hst
  rw [← comparisonStage_of_core hcore] at hquiet hfold
  have hstitch : ∀ m, (comparisonStage s).stitch m = if m ∈ stageNums s.st ∧ s.stitchOwner m ≠ none then
    ((s.stitch m).staged s.st m).1 else s.stitch m := hfold
  have hmem : n ∈ stageNums s.st := by
    unfold stageNums
    rw [mem_sortNat, hsignals]
    simp
  have hself : (comparisonStage s).stitch n = (((s.stitch n).signalled [a]).settle false false).1 := by
    rw [hstitch, if_pos ⟨hmem, by rw [howner]; exact Option.some_ne_none o⟩]
    unfold Stitch.staged amountsOf
    rw [hsignals, hpoisons, haborts]
    simp
  have hother : ∀ m, m ≠ n → (comparisonStage s).stitch m = s.stitch m := fun m hm => by
    rw [hstitch]
    split
    · unfold Stitch.staged amountsOf
      rw [hsignals, hpoisons, haborts]
      have hempty : ([(n, a)].filter fun p => p.1 == m) = [] := by simp [Ne.symm hm]
      rw [hempty]
      have hsignalled : (s.stitch m).signalled [] = s.stitch m := if_pos (Or.inr rfl)
      show (((s.stitch m).signalled []).settle false false).1 = _
      rw [hsignalled]
      refine Stitch.settle_of_rest (hrest m).1 ?_
      by_cases hmode : (s.stitch m).mode = 2
      · exact Or.inr (Or.inr ((hrest m).2 hmode))
      · exact Or.inr (Or.inl hmode)
    · rfl
  have hwaits : x.waits = [] := (hrest n).1
  have hadd : x.poison = false → x.signalled [a] = x.add a := fun hp => if_neg (by simp [hp])
  refine ⟨comparisonStage s, rfl, ?_, hother, fun hp => ?_, fun hp hmode hv => ?_, fun hp hmode hv => ?_,
    fun hp hmode hv => ?_, fun hp hmode hv => ?_, ?_⟩
  · rw [hquiet]
    rfl
  · rw [hself, show (s.stitch n).signalled [a] = x from if_pos (Or.inl hp)]
    exact Stitch.settle_of_rest hwaits (Or.inl hp)
  · have hval : x.add a = x.setVal v := by
      unfold Stitch.add
      dsimp only
      rw [if_neg hmode, if_neg (by unfold stitchMax; omega)]
    rw [hself, hadd hp, hval]
    exact Stitch.settle_of_rest (by simpa using hwaits) (Or.inr (Or.inl (by simpa using hmode)))
  · have hval : x.add a = (x.setVal 0xFFFFFFFF).overshot := by
      unfold Stitch.add
      dsimp only
      rw [if_neg hmode, if_pos (by unfold stitchMax; omega)]
      rfl
    rw [hself, hadd hp, hval]
    exact Stitch.settle_of_rest ((x.setVal_waits _).trans hwaits)
      (Or.inr (Or.inl fun h => hmode ((x.setVal_mode _).symm.trans h)))
  case refine_7 =>
    rw [hquiet]
    exact ⟨rfl, rfl, rfl, rfl, rfl⟩
  all_goals
    have hval : x.add a = x.setVal v := by
      unfold Stitch.add
      dsimp only
      rw [if_pos hmode]
    rw [hself, hadd hp, hval]
  · exact Stitch.settle_of_rest (by simpa using hwaits) (Or.inr (Or.inr (by simpa using hv)))
  · rw [Stitch.settle_of_trip (by simpa using hwaits) (by simpa [Stitch.setVal_poison] using hp) (by simpa using hmode)
      (by simpa using hv)]
    simp

/-- Settles O24: the operation's refusals, a stage whose stitches hold no wait, and the settling of a stitch with one. -/
theorem stitchUnit : Obligations.StitchUnit :=
  ⟨stitchConfigRefusedClause, stageAddsSignalsClause, waitOutcomeOrderClause⟩

end Sys2Proof.Machine
end

section
/-! PROOFS. Host signals and waits, and the timeouts of held waits (07; R329 to R339, R354, R387). -/

namespace Sys2Proof.Machine

variable {s t u : State} {b : BayNum} {d : Due} {q : QNum} {r : RingNum} {e : Entry}

/-! ### Entries that may start (R274, R296) -/

theorem State.lively_of_startable {opcode : Nat} (h : s.startable q r opcode = some e) : Lively s q := by
  unfold State.startable at h
  split at h
  · split at h
    · next hstart =>
      obtain ⟨-, hstart⟩ := hstart
      unfold State.canStart at hstart
      simp only [Bool.and_eq_true, Bool.or_eq_true, beq_iff_eq] at hstart
      obtain ⟨⟨⟨⟨-, hstate⟩, -⟩, -⟩, -⟩ := hstart
      constructor <;> rcases hstate with h | h <;> rw [h] <;> decide
    · cases h
  · cases h

theorem fieldLe_two_lt (l : List Byte) (i : Nat) : fieldLe l i 2 < 2 ^ 32 := by
  refine (leNat_lt _).trans_le ?_
  exact (Nat.pow_le_pow_right (by decide) (by simp)).trans (by decide : 256 ^ 2 ≤ 2 ^ 32)

/-- An entry that breaks a rule as it starts freezes its quire (R295). -/
theorem State.freezeEntry_frozenBy (hinv : Inv s) (h : Lively s q) (e : Entry) {cause detail : Nat} (hcause : cause < 256)
    (hdetail : detail < 2 ^ 32) : FrozenBy s (s.freezeEntry q e cause detail) q cause detail :=
  s.freeze_frozenBy q _ _ _ _ _ _ _ _ h (s.canonical_iff.2 hinv).dict.vals hcause hdetail

theorem State.settleQuire_st (s : State) (q : QNum) : (s.settleQuire q).st = s.st := by
  unfold State.settleQuire
  dsimp only
  have hrelease : ∀ v : State, (v.tryRelease q).st = v.st := fun v => by
    unfold State.tryRelease
    dsimp only
    split
    · obtain ⟨bays, power, h⟩ := (v.setQuire q { v.quire q with pwr := .release }).gateBays_eq q
      rw [h]
      rfl
    · rfl
  rw [hrelease]
  split <;> rfl

/-- A completion without DONE_STITCH signals nothing (R333). -/
theorem State.finishNow_st (s : State) (q : QNum) (r : RingNum) {e : Entry} (status detail result : Nat)
    (h : bit e.flags 1 = false) : (s.finishNow q r e status detail result).st = s.st := by
  have htell : ∀ (v : State) (c : Completion), bit c.flags 1 = false → (v.tellCq q c).st = v.st := fun v c hc => by
    have hsilent : (if bit c.flags 1 ∧ v.ownsStitch q c.doneStitch ∧ ¬ (v.stitch c.doneStitch).spec then
        v.signal c.doneStitch 1 else v) = v := if_neg fun hb => Bool.false_ne_true (hc.symm.trans hb.1)
    unfold State.tellCq
    rw [hsilent]
    split
    · exact v.msixSend_st _
    · rfl
  have hadvance : ∀ (v : State) bytes, (v.advanceCq q bytes).st = v.st := fun v bytes => by
    unfold State.advanceCq
    dsimp only
    split <;> rfl
  have hcomplete : ∀ v : State, (v.complete q e status detail result).st = v.st := fun v => by
    unfold State.complete
    dsimp only
    split
    · rfl
    · split
      · rfl
      · rw [v.writeCq_eq]
        exact (htell _ _ h).trans (hadvance _ _)
  exact (State.settleQuire_st _ q).trans ((hcomplete _).trans rfl)

/-! ### STITCH_SIGNAL and STITCH_WAIT (R329, R331, R332, R335, R337, R338, R354) -/

theorem stitchSignal_of_startable (h : s.startable q r 0x09 = some e) : stitchSignal q r s =
    if ¬ s.ownsStitch q (fieldLe e.bytes 8 2) then s.freezeEntry q e FC.foreignStitch (fieldLe e.bytes 8 2)
    else if (s.stitch (fieldLe e.bytes 8 2)).spec then s.freezeEntry q e FC.format 8
    else (s.signal (fieldLe e.bytes 8 2) (fieldLe e.bytes 12 4)).finishNow q r e CS.ok := by
  unfold stitchSignal
  rw [h]

theorem stitchWait_of_startable (h : s.startable q r 0x0A = some e) : stitchWait q r s =
    if ¬ s.mayWait q (fieldLe e.bytes 8 2) then s.freezeEntry q e FC.foreignStitch (fieldLe e.bytes 8 2)
    else if (s.stitch (fieldLe e.bytes 8 2)).spec then s.freezeEntry q e FC.format 8
    else (s.startEntry q r e (.stitchWait (fieldLe e.bytes 8 2))).startWait (fieldLe e.bytes 8 2) (.host q r) q
      (fieldLe e.bytes 12 4 == 0) := by
  unfold stitchWait
  rw [h]

theorem State.startEntry_quire (s : State) (q : QNum) (r : RingNum) (e : Entry) (w : Work) :
    (s.startEntry q r e w).quire q = { (s.popEntry q r).quire q with
      started := (s.quire q).started ++ [{ entry := e, work := w }] } := by
  unfold State.startEntry
  rw [State.modQuire_quire]
  have hstarted : ((s.popEntry q r).quire q).started = (s.quire q).started := by
    rw [s.popEntry_quire]
    rfl
  rw [hstarted]

theorem State.popEntry_fetched (s : State) (q : QNum) (r : RingNum) :
    (((s.popEntry q r).quire q).ring r).fetched = ((s.quire q).ring r).fetched.tail := by
  rw [s.popEntry_quire]
  show (((s.quire q).setRing r { (s.quire q).ring r with fetched := ((s.quire q).ring r).fetched.tail }).ring r).fetched = _
  exact congrArg Ring.fetched (vec_get_set_same _ _ _)

theorem hostSignalsAndWaitsClause : HostSignalsAndWaitsClause := by
  intro s q r e hinv hroom n x
  have hn : n < 2 ^ 32 := fieldLe_two_lt _ _
  refine ⟨fun h hown hspec hflag => ?_, fun h hown => ?_, fun h hmay => ?_, fun h hmay hspec => ?_, fun h hmay hspec => ?_⟩
  · have heq : stitchSignal q r s = (s.signal n (fieldLe e.bytes 12 4)).finishNow q r e CS.ok := by
      rw [stitchSignal_of_startable h, if_neg (not_not.2 hown), if_neg (ne_true_of_eq_false hspec)]
    have hdone := State.finishNow_completes (s.signal n (fieldLe e.bytes 12 4)) q r e CS.ok 0 0 hroom
    have hst := State.finishNow_st (s.signal n (fieldLe e.bytes 12 4)) q r CS.ok 0 0 hflag
    rw [← heq] at hdone hst
    exact ⟨_, rfl, hdone, hst⟩
  · have heq : stitchSignal q r s = s.freezeEntry q e FC.foreignStitch n := by
      rw [stitchSignal_of_startable h, if_pos (ne_true_of_eq_false hown)]
    exact ⟨_, congrArg Host.Outcome.next heq,
      State.freezeEntry_frozenBy hinv (State.lively_of_startable h) e (by decide) hn⟩
  · have heq : stitchWait q r s = s.freezeEntry q e FC.foreignStitch n := by
      rw [stitchWait_of_startable h, if_pos (ne_true_of_eq_false hmay)]
    exact ⟨_, congrArg Host.Outcome.next heq,
      State.freezeEntry_frozenBy hinv (State.lively_of_startable h) e (by decide) hn⟩
  · have heq : stitchWait q r s = s.freezeEntry q e FC.format 8 := by
      rw [stitchWait_of_startable h, if_neg (not_not.2 hmay), if_pos hspec]
    exact ⟨_, congrArg Host.Outcome.next heq,
      State.freezeEntry_frozenBy hinv (State.lively_of_startable h) e (by decide) (by decide)⟩
  · have heq : stitchWait q r s = (s.startEntry q r e (.stitchWait n)).startWait n (.host q r) q (fieldLe e.bytes 12 4 == 0) := by
      rw [stitchWait_of_startable h, if_neg (not_not.2 hmay), if_neg (ne_true_of_eq_false hspec)]
    have hstitch := fun m => State.stitch_setStitch (s := s.startEntry q r e (.stitchWait n)) (s.canonical_iff.2 hinv).st n m
      { x with waits := joinWaits ⟨.host q r, q, true, fieldLe e.bytes 12 4 == 0⟩ x.waits }
    have hquire := s.startEntry_quire q r e (.stitchWait n)
    refine ⟨_, congrArg Host.Outcome.next heq, congrArg Quire.started hquire, ?_, (hstitch n).trans (if_pos rfl),
      fun m hm => (hstitch m).trans (if_neg hm), rfl, rfl, rfl⟩
    exact (congrArg (fun y : Quire => (y.ring r).fetched) hquire).trans (s.popEntry_fetched q r)

/-! ### Timeouts (R338, R339, R387) -/

theorem timeoutsExpireClause : TimeoutsExpireClause := by
  intro s q r b hinv
  have hst := (s.canonical_iff.2 hinv).st
  refine ⟨fun w hw => ⟨fun hnever => ?_, fun htimeout => ?_⟩, fun w k p run hwait htimeout hrun hreach => ?_⟩
  · have heq : hostWaitTimeout q r s = s := by
      unfold hostWaitTimeout
      rw [hw]
      exact if_pos hnever
    exact congrArg Host.Outcome.next heq
  · have heq : hostWaitTimeout q r s = s.expireWait (fieldLe w.entry.bytes 8 2) (.host q r) := by
      unfold hostWaitTimeout
      rw [hw]
      exact if_neg htimeout
    have hstitch := fun m => State.stitch_setStitch hst (fieldLe w.entry.bytes 8 2) m
      { s.stitch (fieldLe w.entry.bytes 8 2) with
        waits := expiringOf (.host q r) (s.stitch (fieldLe w.entry.bytes 8 2)).waits }
    exact ⟨_, congrArg Host.Outcome.next heq, (hstitch _).trans (if_pos rfl), fun m hm => (hstitch m).trans (if_neg hm),
      rfl, rfl, rfl⟩
  · have heq : seqWaitTimeout b s = (s.modSeq b fun x => { x with
        wait := some { w with timeout := none }, waited := w.start + k }).expireWait w.stitch (.bay b) := by
      unfold seqWaitTimeout
      rw [hwait, hrun]
      simp only [htimeout, hreach, if_true]
    have hstitch := fun m => State.stitch_setStitch hst w.stitch m
      { s.stitch w.stitch with waits := expiringOf (.bay b) (s.stitch w.stitch).waits }
    have hbay : ∀ (f : Seq → Seq), ((s.modSeq b f).expireWait w.stitch (.bay b)).bay b = { s.bay b with seq := f (s.bay b).seq } :=
      fun f => State.setBay_bay _ _ _
    refine ⟨_, congrArg Host.Outcome.next heq, (hstitch _).trans (if_pos rfl), fun m hm => (hstitch m).trans (if_neg hm), ?_,
      fun c hc => State.setBay_bay_ne _ _ _ _ hc, rfl, rfl, rfl⟩
    rw [hbay]

/-- Settles O25: an equation for each entry that starts, for each timeout, and the stage as one pass over the stitches. -/
theorem hostWaits : Obligations.HostWaits :=
  ⟨hostSignalsAndWaitsClause, timeoutsExpireClause, stitchConfiguredClause, stageSettlesAllClause⟩

end Sys2Proof.Machine
end

section
/-! PROOFS. Doorbells, fetch, NOP and FENCE (06, 07; R254 to R260, R268, R273 to R281, R331). -/

namespace Sys2Proof.Machine

variable {s t u : State} {q : QNum} {r : RingNum} {e : Entry}

/-! ### Doorbells (R254 to R259) -/

theorem State.doorbell_of_barred (hbar : s.barUp = true) (hboot : s.boot = .normal) {a : Bool}
    (h : a = false ∨ ¬ Lively s q) (f : State → State) : s.doorbell q a f = s.modQuire q Quire.discardDb := by
  unfold State.doorbell
  rw [if_neg (by simp [hbar, hboot]), if_pos]
  rcases h with rfl | h
  · exact .inl Bool.false_ne_true
  · exact .inr (by by_contra hc; exact h (not_or.1 hc))

theorem State.doorbell_of_lively (hbar : s.barUp = true) (hboot : s.boot = .normal) (hcore : s.coreOn = true)
    (hentry : s.pm.entry = none) (h : Lively s q) (f : State → State) : s.doorbell q true f = f s := by
  obtain ⟨hfrozen, hresetting⟩ := h
  unfold State.doorbell
  rw [if_neg (by simp [hbar, hboot]), if_neg (by simp [hfrozen, hresetting]), State.wakeDemand_of_awake hcore hentry]

/-- A WAKE that goes out touches neither the rings nor a memory, and sends nothing (R31, R268). -/
theorem State.sendWake_keeps (s : State) (q : QNum) : ((s.sendWake q).quire q).rings = (s.quire q).rings ∧
    (s.sendWake q).tiers = s.tiers ∧ (s.sendWake q).nv = s.nv ∧ (s.sendWake q).out = s.out := by
  have hset : ∀ (v : State) x, (v.setQuire q x).quire q = x := fun v x => v.setQuire_quire q x
  unfold State.sendWake
  dsimp only
  split
  · rw [hset]
    exact ⟨rfl, rfl, rfl, rfl⟩
  · split
    · rw [State.quire_of_quires (State.count_quires _ _ _) q, hset]
      exact ⟨rfl, rfl, rfl, rfl⟩
    · generalize hv : (s.count (Key.qWakes q)).setQuire q _ = v
      have hrings : (v.quire q).rings = (s.quire q).rings := by
        rw [← hv, hset]
      have hrest : v.tiers = s.tiers ∧ v.nv = s.nv ∧ v.out = s.out := by
        rw [← hv]
        exact ⟨rfl, rfl, rfl⟩
      obtain ⟨htiers, hnv, hout⟩ := hrest
      unfold State.powerBays State.holdWake
      obtain ⟨bays, hbays⟩ := State.foldl_modBay
        (fun x => if x.powered then x else { x.switchOff with power := .gated }) (v.quireBays q) v
      rw [hbays]
      dsimp only
      split
      · split
        · exact ⟨hrings, htiers, hnv, hout⟩
        · exact ⟨hrings, htiers, hnv, hout⟩
      · obtain ⟨hgov, -⟩ := State.updateVsel_governs ({ v with bays := bays }.setClk { v.clk with bayPll := true })
        rw [hgov.frame]
        exact ⟨hrings, htiers, hnv, hout⟩

theorem State.wakeIfNeeded_keeps (s : State) (q : QNum) : ((s.wakeIfNeeded q).quire q).rings = (s.quire q).rings ∧
    (s.wakeIfNeeded q).tiers = s.tiers ∧ (s.wakeIfNeeded q).nv = s.nv ∧ (s.wakeIfNeeded q).out = s.out := by
  unfold State.wakeIfNeeded
  dsimp only
  split
  · exact s.sendWake_keeps q
  · exact ⟨rfl, rfl, rfl, rfl⟩

/-- A RELEASE at the end of a quire's work leaves its rings and its completion ring, and every memory (R31). -/
theorem State.settleQuire_keeps (s : State) (q : QNum) : ((s.settleQuire q).quire q).cqHead = (s.quire q).cqHead ∧
    ((s.settleQuire q).quire q).cqTail = (s.quire q).cqTail ∧ ((s.settleQuire q).quire q).rings = (s.quire q).rings ∧
    (s.settleQuire q).tiers = s.tiers := by
  have hrelease : ∀ v : State, ((v.tryRelease q).quire q).cqHead = (v.quire q).cqHead ∧
      ((v.tryRelease q).quire q).cqTail = (v.quire q).cqTail ∧ ((v.tryRelease q).quire q).rings = (v.quire q).rings ∧
      (v.tryRelease q).tiers = v.tiers := fun v => by
    have htiers : (v.tryRelease q).tiers = v.tiers := by
      unfold State.tryRelease
      dsimp only
      split
      · obtain ⟨bays, power, h⟩ := (v.setQuire q { v.quire q with pwr := .release }).gateBays_eq q
        rw [h]
        rfl
      · rfl
    rw [v.tryRelease_quire q]
    exact ⟨rfl, rfl, rfl, htiers⟩
  unfold State.settleQuire
  dsimp only
  split
  · obtain ⟨hhead, htail, hrings, htiers⟩ := hrelease (s.setQuire q { s.quire q with state := .enabled })
    rw [State.setQuire_quire] at hhead htail hrings
    exact ⟨hhead, htail, hrings, htiers⟩
  · exact hrelease s

theorem sqTailWrite_of_lively {v : BitVec 32} (hin : v.toNat < s.rd (Key.qSqSize q (r.val + 1)))
    (hdb : ∀ f, s.doorbell q true f = f s) (hcore : s.coreOn = true) : sqTailWrite q r v true s =
      (s.modQuire q fun x => x.setRing r { x.ring r with tail := v.toNat }).wakeIfNeeded q := by
  unfold sqTailWrite
  rw [hdb, if_neg (by omega)]
  exact if_pos hcore

theorem cqHeadWrite_of_lively {v : BitVec 32} (hin : v.toNat < s.rd (Key.qCqSize q))
    (hdb : ∀ f, s.doorbell q true f = f s) (hheld : (s.quire q).heldCq = []) : cqHeadWrite q v true s =
      (((s.modQuire q fun x => { x with cqHead := v.toNat }).modQuire q fun x => { x with heldCq := [] }).settleQuire q) := by
  have hnone : ((s.modQuire q fun x => { x with cqHead := v.toNat }).quire q).heldCq = [] := by
    rw [State.modQuire_quire]
    exact hheld
  unfold cqHeadWrite
  rw [hdb, if_neg (by omega)]
  dsimp only
  rw [hnone]
  rfl

theorem doorbellsClause : DoorbellsClause := by
  intro s q r v hbar hboot hcore hentry hinv n c
  have hvals := (s.canonical_iff.2 hinv).dict.vals
  refine ⟨fun a ha => ⟨?_, ?_, ?_⟩, fun hlive => ?_⟩
  · exact congrArg Host.Outcome.next (State.doorbell_of_barred hbar hboot ha _)
  · exact congrArg Host.Outcome.next (State.doorbell_of_barred hbar hboot ha _)
  · exact congrArg Host.Outcome.next (State.doorbell_of_barred hbar hboot ha _)
  have hdb : ∀ f, s.doorbell q true f = f s := State.doorbell_of_lively hbar hboot hcore hentry hlive
  have hn : n < 2 ^ 32 := by
    have : n < 2 ^ 12 := Nat.mod_lt _ (by decide)
    omega
  refine ⟨fun hin => ?_, fun hout => ?_, fun hin hheld => ?_, fun hc hfmt hown hspec => ?_, fun hc hfmt hown => ?_⟩
  · have heq := sqTailWrite_of_lively hin hdb hcore
    obtain ⟨hrings, htiers, hnv, hsent⟩ := State.wakeIfNeeded_keeps
      (s.modQuire q fun x => x.setRing r { x.ring r with tail := v.toNat }) q
    rw [State.modQuire_quire, ← heq] at hrings
    rw [← heq] at htiers hnv hsent
    refine ⟨_, rfl, ?_, fun p hp => ?_, htiers, hnv, hsent⟩
    · exact (congrArg (fun l => l.get r) hrings).trans (vec_get_set_same _ _ _)
    · exact (congrArg (fun l => l.get p) hrings).trans (vec_get_set_ne _ _ hp)
  · have heq : sqTailWrite q r v true s = s.freeze q FC.format (detail := 8 * r.val) := by
      unfold sqTailWrite
      rw [hdb]
      exact if_pos hout
    exact ⟨_, congrArg Host.Outcome.next heq,
      s.freeze_frozenBy q _ _ _ _ _ _ _ _ hlive hvals (by decide) (by omega)⟩
  · have heq := cqHeadWrite_of_lively hin hdb hheld
    have hquire : ((s.modQuire q fun x => { x with cqHead := v.toNat }).modQuire q fun x => { x with heldCq := [] }).quire q =
        { s.quire q with cqHead := v.toNat, heldCq := [] } := by
      rw [State.modQuire_quire, State.modQuire_quire]
    obtain ⟨hhead, htail, hrings, htiers⟩ := State.settleQuire_keeps
      ((s.modQuire q fun x => { x with cqHead := v.toNat }).modQuire q fun x => { x with heldCq := [] }) q
    have hnv := (State.settleQuire_endKept
      ((s.modQuire q fun x => { x with cqHead := v.toNat }).modQuire q fun x => { x with heldCq := [] }) q).nv
    have hsent := State.settleQuire_out
      ((s.modQuire q fun x => { x with cqHead := v.toNat }).modQuire q fun x => { x with heldCq := [] }) q
    rw [hquire, ← heq] at hhead htail hrings
    rw [← heq] at htiers hnv hsent
    exact ⟨_, rfl, hhead, htail, hrings, htiers, hnv, hsent⟩
  · have heq : stitchDb q v true s = s.signal n c := by
      unfold stitchDb
      rw [hdb]
      exact (if_neg hc).trans ((if_neg (not_not.2 hfmt)).trans ((if_neg (not_not.2 hown)).trans
        (if_neg (ne_true_of_eq_false hspec))))
    exact congrArg Host.Outcome.next heq
  · have heq : stitchDb q v true s = s.freeze q FC.foreignStitch (detail := n) := by
      unfold stitchDb
      rw [hdb]
      exact (if_neg hc).trans ((if_neg (not_not.2 hfmt)).trans (if_pos (ne_true_of_eq_false hown)))
    exact ⟨_, congrArg Host.Outcome.next heq, s.freeze_frozenBy q _ _ _ _ _ _ _ _ hlive hvals (by decide) hn⟩

/-! ### Fetch (R260, R268, R273, R276, R279, R331) -/

theorem State.lively_of_fetches (h : s.fetches q = true) : Lively s q := by
  unfold State.fetches at h
  simp only [Bool.and_eq_true] at h
  obtain ⟨⟨⟨-, hstate⟩, -⟩, -⟩ := h
  constructor <;> intro hs <;> rw [hs] at hstate <;> cases hstate

/-- The entry that a fetch from ring `r` takes. -/
def State.fetchEntry (s : State) (q : QNum) (r : RingNum) (b : List Byte) : Entry :=
  { seq := (s.quire q).ctrFetched.toNat, ring := r, slot := ((s.quire q).ring r).head,
    headAfter := (((s.quire q).ring r).head + 1) % s.rd (Key.qSqSize q (r.val + 1)), bytes := b }

/-- The state after the read of an entry from host memory, before it is validated. -/
def State.fetchedFrom (s : State) (q : QNum) (r : RingNum) (b : List Byte) : State :=
  (s.emit (.dmaRead q (s.rd (Key.qPasid q))
    (ringAddr (s.rd (Key.qSqBase q (r.val + 1))) + 64 * ((s.quire q).ring r).head) 64)).setQuire q
    ({ s.quire q with ctrFetched := (s.quire q).ctrFetched + 1 }.setRing r
      { (s.quire q).ring r with
        head := (((s.quire q).ring r).head + 1) % s.rd (Key.qSqSize q (r.val + 1)),
        fetched := ((s.quire q).ring r).fetched ++ [s.fetchEntry q r b] })

theorem State.fetchStitch_congr (hst : t.st = s.st) (hdict : t.dict = s.dict) (hsku : t.sku = s.sku) (b : List Byte) :
    t.fetchStitch q b = s.fetchStitch q b := by
  have hrd : ∀ k, t.rd k = s.rd k := State.rd_of_vals (by rw [hdict]) hsku
  have hstitch : ∀ n, t.stitch n = s.stitch n := fun n => by rw [State.stitch, hst, State.stitch]
  have howns : ∀ n, t.ownsStitch q n = s.ownsStitch q n := fun n => by
    simp only [State.ownsStitch, State.stitchOwner, State.stitchRange, hrd]
  simp only [State.fetchStitch, howns, hstitch]

theorem bytesAt_full {b : List Byte} {n : Nat} (h : b.length = n) : bytesAt b 0 n = b := by
  apply List.ext_getElem
  · simp [bytesAt, h]
  · intro i hi hi'
    simp [bytesAt, hi']

theorem submissionFetch_of_host {b : List Byte} (hfetches : s.fetches q = true) (hring : s.fetchRing q = some r)
    (hlen : b.length = 64) (hhost : ringLoc (s.rd (Key.qSqBase q (r.val + 1))) = 0) : submissionFetch q b s =
      match firstBad (s.rd (Key.qPlacement q) == 1) b with
      | some o => (s.fetchedFrom q r b).freezeEntry q (s.fetchEntry q r b) FC.format o
      | none =>
        match (s.fetchedFrom q r b).fetchStitch q b with
        | some c => (s.fetchedFrom q r b).freezeEntry q (s.fetchEntry q r b) c.1 c.2
        | none => s.fetchedFrom q r b := by
  have hbytes : (if ringLoc (s.rd (Key.qSqBase q (r.val + 1))) = 1 then
      Mem.readN s.tiers.rings (q.val * ringBytes + ringAddr (s.rd (Key.qSqBase q (r.val + 1))) +
        64 * ((s.quire q).ring r).head) 64 else bytesAt b 0 64) = b := by
    rw [if_neg (by rw [hhost]; decide), bytesAt_full hlen]
  unfold submissionFetch
  rw [if_neg (not_not.2 hfetches), hring]
  dsimp only
  rw [hbytes, if_pos hhost]
  rfl

theorem fetchesClause : FetchesClause := by
  intro s q r b hfetches hring hlen hhost hinv y head
  have heq := submissionFetch_of_host hfetches hring hlen hhost
  have hvals := (s.canonical_iff.2 hinv).dict.vals
  have hlive := State.lively_of_fetches hfetches
  have hquire : (s.fetchedFrom q r b).quire q = _ := State.setQuire_quire _ q _
  refine ⟨fun hgood hown => ?_, fun o hbad ho => ?_⟩
  · have hkept : (s.fetchedFrom q r b).fetchStitch q b = none := (State.fetchStitch_congr rfl rfl rfl b).trans hown
    rw [hgood] at heq
    dsimp only at heq
    rw [hkept] at heq
    refine ⟨_, s.fetchEntry q r b, congrArg Host.Outcome.next heq, ?_, rfl, rfl, rfl, rfl, fun p hp => ?_, ?_, rfl, rfl, rfl,
      rfl, rfl⟩
    · exact (congrArg (fun x : Quire => x.ring r) hquire).trans (vec_get_set_same _ _ _)
    · exact (congrArg (fun x : Quire => x.ring p) hquire).trans (vec_get_set_ne _ _ hp)
    · rw [hquire]
      rfl
  · rw [hbad] at heq
    have hlive' : Lively (s.fetchedFrom q r b) q := by
      rw [Lively, hquire]
      exact hlive
    refine ⟨_, congrArg Host.Outcome.next heq, ?_⟩
    refine frozenBy_congr (State.freeze_frozenBy _ q _ _ _ _ _ _ _ _ hlive' hvals (by decide) (by omega)) ?_ rfl
    rw [hquire]
    rfl

/-! ### NOP, FENCE, and a fence that waited (R274, R281) -/

theorem State.finish_completes (s : State) (q : QNum) (e : Entry) (status detail result : Nat)
    (hstate : (s.quire q).state = .running) (hroom : CqRoom s q) :
    Completes s (s.finish q e status detail result) q e status detail result := by
  have hdrop := s.modQuire_quire q fun x => { x with started := x.started.filter fun w => w.entry.seq != e.seq }
  unfold State.finish
  generalize hv : (s.modQuire q fun x => { x with started := x.started.filter fun w => w.entry.seq != e.seq }) = v at hdrop
  have hrd : ∀ k, v.rd k = s.rd k := fun k => by rw [← hv]; rfl
  have hout : v.out = s.out := by rw [← hv]; rfl
  have hvroom : CqRoom v q := by
    rw [CqRoom, State.cqFull, hdrop, hrd]
    exact hroom
  have hvstate : (v.quire q).state = .running := by
    rw [hdrop]
    exact hstate
  rw [State.complete_of_room v q e status detail result hvstate hvroom]
  obtain ⟨hcount, l, hl⟩ := v.writeCq_completes q e status detail result
  rw [hdrop] at hcount hl
  rw [hrd, hrd, hout] at hl
  exact ⟨(State.settleQuire_ctrCompleted _ q).trans hcount, l, (State.settleQuire_out _ q).trans hl⟩

theorem State.finish_rings (s : State) (q : QNum) (e : Entry) (status detail result : Nat) :
    ((s.finish q e status detail result).quire q).rings = (s.quire q).rings :=
  (((State.dropStarted_keepsWork s q fun l => l.filter fun w => w.entry.seq != e.seq).trans
    (State.complete_keepsWork _ q e status detail result)).trans (State.settleQuire_keepsWork _ q)).rings

theorem nop_of_startable (h : s.startable q r 0x00 = some e) : nop q r s = s.finishNow q r e CS.ok := by
  unfold nop
  rw [h]

theorem fence_of_startable (h : s.startable q r 0x0B = some e) : fence q r s =
    if (s.quire q).fenceOpen e (fieldLe e.bytes 8 1 == 1) then s.finishNow q r e CS.ok
    else s.startEntry q r e (.fence (fieldLe e.bytes 8 1 == 1)) := by
  unfold fence
  rw [h]

theorem State.startable_of_empty (h : ((s.quire q).ring r).fetched = []) (opcode : Nat) :
    s.startable q r opcode = none := by
  unfold State.startable
  rw [h]

theorem State.resumeLoads_of_none (h : ∀ l ∈ s.nv.loads, l.quire ≠ q) : s.resumeLoads q r = s := by
  unfold State.resumeLoads
  rw [List.filter_eq_nil_iff.2 fun l hl => by simp [h l hl]]
  rfl

theorem waitResume_of_openFence {t4 : List Byte} {all : Bool} (hcore : s.coreOn = true)
    (hstate : (s.quire q).state = .running) (hfetched : ((s.quire q).ring r).fetched = [])
    (hstarted : ((s.quire q).started.filter fun w => w.entry.ring == r) = [{ entry := e, work := .fence all }])
    (hopen : (s.quire q).fenceOpen e all = true) (hloads : ∀ l ∈ s.nv.loads, l.quire ≠ q) :
    waitResume q r t4 s = s.finish q e CS.ok := by
  have hresume : s.resumeOne q t4 { entry := e, work := .fence all } = s.finish q e CS.ok := if_pos hopen
  have hnv := (State.finish_endKept s q e CS.ok 0 0).nv
  have hempty : (((s.finish q e CS.ok).quire q).ring r).fetched = [] :=
    (congrArg (fun l => (l.get r).fetched) (s.finish_rings q e CS.ok 0 0)).trans hfetched
  unfold waitResume
  rw [if_neg (by simp [hcore, hstate]), hstarted]
  simp only [List.foldl_cons, List.foldl_nil]
  rw [hresume, State.resumeLoads_of_none (by rw [hnv]; exact hloads), free, State.startable_of_empty hempty]
  dsimp only
  rw [unload, State.startable_of_empty hempty]

theorem nopAndFenceClause : NopAndFenceClause := by
  intro s q r e hroom
  refine ⟨fun h => ?_, ?_, fun t4 all hcore hstate hfetched hstarted hopen hloads => ?_⟩
  · exact ⟨_, congrArg Host.Outcome.next (nop_of_startable h), State.finishNow_completes s q r e CS.ok 0 0 hroom⟩
  · intro h all
    refine ⟨fun hopen => ?_, fun hshut => ?_⟩
    · have heq : fence q r s = s.finishNow q r e CS.ok := (fence_of_startable h).trans (if_pos hopen)
      exact ⟨_, congrArg Host.Outcome.next heq, State.finishNow_completes s q r e CS.ok 0 0 hroom⟩
    · have heq : fence q r s = s.startEntry q r e (.fence all) :=
        (fence_of_startable h).trans (if_neg (ne_true_of_eq_false hshut))
      have hquire := s.startEntry_quire q r e (.fence all)
      exact ⟨_, congrArg Host.Outcome.next heq, congrArg Quire.started hquire,
        (congrArg (fun y : Quire => (y.ring r).fetched) hquire).trans (s.popEntry_fetched q r), rfl⟩
  · exact ⟨_, congrArg Host.Outcome.next (waitResume_of_openFence hcore hstate hfetched hstarted hopen hloads),
      s.finish_completes q e CS.ok 0 0 hstate hroom⟩

/-- Settles O22: a doorbell is discarded or carried out by its own rule, a fetch ends in `fetchedFrom` or a freeze, and
an open fence is a `finishNow` or, when it waited, a `finish`. -/
theorem submissionStarts : Obligations.SubmissionStarts := ⟨doorbellsClause, fetchesClause, nopAndFenceClause⟩

end Sys2Proof.Machine
end

section
/-! PROOFS. What a freeze and a completion leave of the tiers (06, 14; R270, R295). -/

namespace Sys2Proof.Machine

variable {s t u : State} {q : QNum} {r : RingNum} {e : Entry}

/-! ### A freeze keeps who holds what (R295) -/

/-- Of the tiers, `t` differs from `s` in contents alone: who holds which leaf, the pool and the zeroing jobs stay. -/
structure State.BookingsKept (s t : State) : Prop where
  frame : t.tiers = { s.tiers with
    slices := t.tiers.slices, commons := t.tiers.commons, t2 := t.tiers.t2, xo := t.tiers.xo, rings := t.tiers.rings }

namespace State.BookingsKept

theorem refl (s : State) : s.BookingsKept s := ⟨rfl⟩

theorem of_tiers (h : t.tiers = s.tiers) : s.BookingsKept t := ⟨by rw [h]⟩

theorem trans (h : s.BookingsKept t) (h' : t.BookingsKept u) : s.BookingsKept u := ⟨by rw [h'.frame, h.frame]⟩

theorem foldl {α : Type} {f : State → α → State} {l : List α} (h : s.BookingsKept t)
    (hf : ∀ (u : State) (a : α), u.BookingsKept (f u a)) : s.BookingsKept (l.foldl f t) :=
  List.foldlRecOn l f h fun u hu a _ => hu.trans (hf u a)

theorem ite {c : Prop} [Decidable c] (ht : s.BookingsKept t) (hu : s.BookingsKept u) :
    s.BookingsKept (if c then t else u) := by
  split
  · exact ht
  · exact hu

theorem extents (h : s.BookingsKept t) : t.tiers.extents = s.tiers.extents := by rw [h.frame]

section
variable (h : s.BookingsKept t)
include h

theorem modRun {q : QNum} {id : Nat} {f : Run → Run} : s.BookingsKept (t.modRun q id f) := ⟨h.frame⟩
theorem count {k n : Nat} : s.BookingsKept (t.count k n) := ⟨h.frame⟩
theorem wr {k v : Nat} : s.BookingsKept (t.wr k v) := ⟨h.frame⟩
theorem setSt {x : StitchUnit} : s.BookingsKept (t.setSt x) := ⟨h.frame⟩
theorem setStitch {n : Nat} {x : Stitch} : s.BookingsKept (t.setStitch n x) := ⟨h.frame⟩
theorem setWeave {x : Weave} : s.BookingsKept (t.setWeave x) := ⟨h.frame⟩
theorem modQuire {q : QNum} {f : Quire → Quire} : s.BookingsKept (t.modQuire q f) := ⟨h.frame⟩
theorem modBay {b : BayNum} {f : Bay → Bay} : s.BookingsKept (t.modBay b f) := ⟨h.frame⟩
theorem emit {o : Output} : s.BookingsKept (t.emit o) := ⟨h.frame⟩

end

theorem setLeaf (s : State) (p : Place) (n : Nat) (f : Mem) (xo : Bool) : s.BookingsKept ((s.setLeaf p n f).setXo p n xo) := by
  cases p <;> exact ⟨rfl⟩

theorem voidLeaf (s : State) (q : QNum) (addr : Nat) : s.BookingsKept (s.voidLeaf q addr) := by
  unfold State.voidLeaf
  split
  · split
    · exact .setLeaf s _ _ _ _
    · exact .refl s
  · exact .refl s

theorem leaveFrame (s : State) (q : QNum) (addr : Nat) (f : Mem) (xo : Bool) :
    s.BookingsKept (s.leaveFrame q addr f xo) := by
  unfold State.leaveFrame
  split
  · split
    · exact .setLeaf s _ _ _ _
    · exact .of_tiers rfl
    · exact .refl s
  · exact .refl s

theorem dropUnsensed (s : State) (q : QNum) (run sc : Nat) : s.BookingsKept (s.dropUnsensed q run sc) := by
  refine .count (.foldl (.setWeave (.refl s)) fun t r => ?_)
  split
  · exact .modBay (.refl t)
  · exact .refl t

theorem absorbSignals (s : State) (ns : List Nat) : s.BookingsKept (s.absorbSignals ns) := by
  refine .foldl (.setSt (.refl s)) fun t p => ?_
  split
  · exact .count (.refl t)
  · exact .refl t

theorem countClose (s : State) (q : QNum) (run : Nat) (sc : Scope) (committed : Bool) :
    s.BookingsKept (s.countClose q run sc committed) := by
  unfold State.countClose
  split
  · exact .count (.count (.count (.count (.modRun (.refl s)))))
  · exact .count (.count (.count (.count (.modRun (.refl s)))))

theorem cancelScope (s : State) (q : QNum) (r : Run) (sc : Scope) : s.BookingsKept (s.cancelScope q r sc) := by
  refine State.BookingsKept.trans ?_ (.countClose _ q r.id sc false)
  refine .foldl (.trans (.modRun ?_) (.absorbSignals _ _)) fun t n => .setStitch (.refl t)
  refine .foldl (.foldl (.dropUnsensed s q r.id sc.id) fun t b => .modBay (.refl t)) fun t e => ?_
  exact .voidLeaf t q e.1

theorem cancelScopes (s : State) (q : QNum) : s.BookingsKept (s.cancelScopes q) :=
  .foldl (.refl s) fun t _ => .modRun (.foldl (.refl t) fun u c => .cancelScope u q _ c)

theorem flushMoves (s : State) (q : QNum) (b : BayNum) : s.BookingsKept (s.flushMoves q b) := by
  unfold State.flushMoves
  refine .modBay (.foldl (.refl s) fun t m => ?_)
  exact .leaveFrame t q m.addr m.frame m.xo

theorem endBayRun (s : State) (q : QNum) (b : BayNum) : s.BookingsKept (s.endBayRun q b) := by
  unfold State.endBayRun
  split
  · exact .ite (.modBay (.flushMoves s q b)) (.refl s)
  · exact .refl s

theorem endRuns (s : State) (q : QNum) : s.BookingsKept (s.endRuns q) :=
  .foldl ((State.BookingsKept.cancelScopes s q).trans ⟨rfl⟩) fun t b => .endBayRun t q b

theorem stopQuire (s : State) (q : QNum) : s.BookingsKept (s.stopQuire q) := by
  obtain ⟨bays, h⟩ := s.stopQuire_eq q
  exact h ▸ ⟨rfl⟩

theorem sentAbandon (s : State) : s.BookingsKept s.sentAbandon := by
  unfold State.sentAbandon
  exact .ite ⟨rfl⟩ ⟨rfl⟩

theorem haltQuire (s : State) (q : QNum) : s.BookingsKept (s.haltQuire q) := by
  have hpoison : s.BookingsKept ((s.stopQuire q).poisonQuire q) := .setWeave (.setSt (.setSt (.stopQuire s q)))
  unfold State.haltQuire
  exact .ite (hpoison.trans (.sentAbandon _)) hpoison

theorem endDisabling (s : State) (q : QNum) (d : Option Disabling) : s.BookingsKept (s.endDisabling q d) := by
  unfold State.endDisabling
  exact .ite ⟨rfl⟩ (.refl s)

theorem msixSend (s : State) (v : Nat) : s.BookingsKept (s.msixSend v) := by
  obtain ⟨out, msix, h⟩ := s.msixSend_eq v
  exact h ▸ ⟨rfl⟩

/-- Reservations and allocations stay with a frozen quire (R296, R559). -/
theorem freeze (s : State) (q : QNum) (cause bay ring imp cycle cid sqi detail : Nat) (h : Lively s q) :
    s.BookingsKept (s.freeze q cause bay ring imp cycle cid sqi detail) := by
  rw [s.freeze_of_lively q _ _ _ _ _ _ _ _ h]
  refine .trans (.trans ?_ (.endDisabling _ q _)) (.msixSend _ _)
  exact .count (.modQuire (.trans (.wr (.endRuns s q)) (.haltQuire _ q)))

end State.BookingsKept

/-! ### A completion keeps every leaf (R270) -/

/-- Of the tiers, `t` differs from `s` in the device rings alone. -/
structure State.RingsOnly (s t : State) : Prop where
  frame : t.tiers = { s.tiers with rings := t.tiers.rings }

namespace State.RingsOnly

theorem refl (s : State) : s.RingsOnly s := ⟨rfl⟩

theorem of_tiers (h : t.tiers = s.tiers) : s.RingsOnly t := ⟨by rw [h]⟩

theorem trans (h : s.RingsOnly t) (h' : t.RingsOnly u) : s.RingsOnly u := ⟨by rw [h'.frame, h.frame]⟩

theorem ite {c : Prop} [Decidable c] (ht : s.RingsOnly t) (hu : s.RingsOnly u) : s.RingsOnly (if c then t else u) := by
  split
  · exact ht
  · exact hu

theorem extents (h : s.RingsOnly t) : t.tiers.extents = s.tiers.extents := by rw [h.frame]

theorem leaf (h : s.RingsOnly t) (p : Place) (n : Nat) : t.leaf p n = s.leaf p n := by
  cases p <;> simp only [State.leaf] <;> rw [h.frame]

theorem emit (h : s.RingsOnly t) (o : Output) : s.RingsOnly (t.emit o) := ⟨h.frame⟩
theorem signal (h : s.RingsOnly t) (n a : Nat) : s.RingsOnly (t.signal n a) := ⟨h.frame⟩
theorem setQuire (h : s.RingsOnly t) (q : QNum) (x : Quire) : s.RingsOnly (t.setQuire q x) := ⟨h.frame⟩
theorem modQuire (h : s.RingsOnly t) (q : QNum) (f : Quire → Quire) : s.RingsOnly (t.modQuire q f) := ⟨h.frame⟩

theorem msixSend (h : s.RingsOnly t) (v : Nat) : s.RingsOnly (t.msixSend v) := by
  obtain ⟨out, msix, hm⟩ := t.msixSend_eq v
  exact hm ▸ ⟨h.frame⟩

theorem advanceCq (s : State) (q : QNum) (bytes : List Byte) : s.RingsOnly (s.advanceCq q bytes) :=
  .ite ⟨rfl⟩ (.setQuire (.refl s) q _)

theorem tellCq (s : State) (q : QNum) (c : Completion) : s.RingsOnly (s.tellCq q c) := by
  have hsignal : s.RingsOnly (if bit c.flags 1 ∧ s.ownsStitch q c.doneStitch ∧ ¬ (s.stitch c.doneStitch).spec then
    s.signal c.doneStitch 1 else s) := .ite (.signal (.refl s) _ _) (.refl s)
  exact .ite (hsignal.msixSend _) hsignal

theorem writeCq (s : State) (q : QNum) (c : Completion) : s.RingsOnly (s.writeCq q c) := by
  rw [s.writeCq_eq]
  exact (State.RingsOnly.emit (.advanceCq s q _) _).trans (.tellCq _ q c)

theorem complete (s : State) (q : QNum) (e : Entry) (status detail result : Nat) :
    s.RingsOnly (s.complete q e status detail result) :=
  .ite (.refl s) (.ite (.setQuire (.refl s) q _) (.writeCq s q _))

theorem settleQuire (s : State) (q : QNum) : s.RingsOnly (s.settleQuire q) := .of_tiers (s.settleQuire_keeps q).2.2.2

theorem finishNow (s : State) (q : QNum) (r : RingNum) (e : Entry) (status detail result : Nat) :
    s.RingsOnly (s.finishNow q r e status detail result) :=
  (State.RingsOnly.trans (.modQuire (.refl s) q _) (.complete _ q e status detail result)).trans (.settleQuire _ q)

theorem finish (s : State) (q : QNum) (e : Entry) (status detail result : Nat) :
    s.RingsOnly (s.finish q e status detail result) :=
  (State.RingsOnly.trans (.modQuire (.refl s) q _) (.complete _ q e status detail result)).trans (.settleQuire _ q)

end State.RingsOnly

theorem State.finishNow_endKept (s : State) (q : QNum) (r : RingNum) (e : Entry) (status detail result : Nat) :
    s.EndKept (s.finishNow q r e status detail result) :=
  ((State.EndKept.setQuire s q _).trans (State.complete_endKept _ q e _ _ _)).trans (State.settleQuire_endKept _ q)

/-! ### Completions of a state that differs in other parts -/

/-- What `Completes` reads of the state is the same in `u` as in `s`. -/
structure State.SameCq (s u : State) (q : QNum) : Prop where
  ctrCompleted : (u.quire q).ctrCompleted = (s.quire q).ctrCompleted
  cqTail : (u.quire q).cqTail = (s.quire q).cqTail
  cqHead : (u.quire q).cqHead = (s.quire q).cqHead
  phase : (u.quire q).phase = (s.quire q).phase
  heldCq : (u.quire q).heldCq = (s.quire q).heldCq
  cqBase : u.rd (Key.qCqBase q) = s.rd (Key.qCqBase q)
  cqSize : u.rd (Key.qCqSize q) = s.rd (Key.qCqSize q)
  pasid : u.rd (Key.qPasid q) = s.rd (Key.qPasid q)
  out : u.out = s.out

theorem State.SameCq.room (h : s.SameCq u q) (hroom : CqRoom s q) : CqRoom u q := by
  rw [CqRoom, State.cqFull, h.cqTail, h.cqSize, h.cqHead, h.heldCq]
  exact hroom

theorem State.SameCq.completes {status detail result : Nat} (h : s.SameCq u q) (hc : Completes u t q e status detail result) :
    Completes s t q e status detail result := by
  obtain ⟨hcount, l, hl⟩ := hc
  rw [h.ctrCompleted] at hcount
  rw [h.cqBase, h.pasid, h.cqTail, h.phase, h.out] at hl
  exact ⟨hcount, l, hl⟩

theorem State.SameCq.finishNow (h : s.SameCq u q) (hroom : CqRoom s q) (r : RingNum) (e : Entry)
    (status detail result : Nat) : Completes s (u.finishNow q r e status detail result) q e status detail result :=
  h.completes (u.finishNow_completes q r e status detail result (h.room hroom))

end Sys2Proof.Machine
end

section
/-! PROOFS. COPY (14; R539, R548, R571, R676 to R678). -/

namespace Sys2Proof.Machine

variable {s t u : State} {q : QNum} {r : RingNum} {e : Entry} {a b : Addr}

/-! ### Leaves of the quire's own allocations -/

@[simp] theorem Addr.advance_ofPlace (p : Place) (n i : Nat) : (Addr.ofPlace p n).advance i = Addr.ofPlace p (n + i) := by
  cases p <;> rfl

@[simp] theorem Addr.isT4_ofPlace (p : Place) (n : Nat) : (Addr.ofPlace p n).form.isT4 = false := by cases p <;> rfl

theorem State.resolve_of_allocated {p : Place} {n : Nat} (h : s.allocated q p n = true) :
    s.resolve q (Addr.ofPlace p n) = .own p n false := by
  have hown : ownPlace s q p n = .own p n false := if_pos h
  cases p <;> exact hown

theorem State.firstForeign_of_allocated {p : Place} {n count : Nat} (h : ∀ i, i < count → s.allocated q p (n + i) = true)
    (dst : Bool) : s.firstForeign q (Addr.ofPlace p n) count dst = none := by
  unfold State.firstForeign
  rw [Addr.isT4_ofPlace, if_neg Bool.false_ne_true, List.find?_eq_none]
  intro i hi
  rw [Addr.advance_ofPlace, State.resolve_of_allocated (h i (List.mem_range.1 hi))]
  exact Bool.false_ne_true

theorem State.rangeLocked_ofPlace (s : State) (q : QNum) (p : Place) (n count : Nat) :
    s.rangeLocked q (Addr.ofPlace p n) count = false := by
  cases p <;> rfl

theorem State.readT4s_of_allocated {p : Place} {n count : Nat} (h : ∀ i, i < count → s.allocated q p (n + i) = true) :
    s.readT4s q (Addr.ofPlace p n) count = s := by
  unfold State.readT4s
  refine List.foldlRecOn (motive := fun t : State => t = s) _ _ rfl fun t ht i hi => ?_
  subst ht
  rw [Addr.advance_ofPlace, State.resolve_of_allocated (h i (List.mem_range.1 hi))]

theorem State.senseT3_ofPlace (s : State) (q : QNum) (p : Place) (n count : Nat) :
    s.senseT3 q (Addr.ofPlace p n) count = s := by
  cases p <;> rfl

/-! ### Frames that arrive (R676, R686) -/

/-- `t` differs from `s` in contents of leaves and in the T3 identities that runs of the quire keep, alone. -/
structure State.Delivered (q : QNum) (s t : State) : Prop where
  frame : t = { s with quires := t.quires, tiers := t.tiers }
  quire : t.quire q = { s.quire q with runs := (t.quire q).runs }
  bookings : s.BookingsKept t
  wf : t.LeavesWf

theorem State.Delivered.sameCq (h : s.Delivered q t) : s.SameCq t q := by
  have hrd : ∀ k, t.rd k = s.rd k := State.rd_of_vals (by rw [h.frame]) (by rw [h.frame])
  refine ⟨?_, ?_, ?_, ?_, ?_, hrd _, hrd _, hrd _, by rw [h.frame]⟩ <;> rw [h.quire]

theorem State.allocated_of_extents (h : t.tiers.extents = s.tiers.extents) (q : QNum) (p : Place) (n : Nat) :
    t.allocated q p n = s.allocated q p n := by
  rw [State.allocated, h, State.allocated]

/-- A frame put into an own leaf is there, and nowhere else. -/
theorem State.Delivered.putFrame (h : s.Delivered q t) {p : Place} {n : Nat} (hown : s.allocated q p n = true) {f : Mem}
    (hf : Mem.wf f = true) : s.Delivered q (t.putFrame q (Addr.ofPlace p n) f) ∧
      ∀ y m, (t.putFrame q (Addr.ofPlace p n) f).leaf y m = if y = p ∧ m = n then Mem.frame f else t.leaf y m := by
  have hown' : t.allocated q p n = true := (State.allocated_of_extents h.bookings.extents q p n).trans hown
  have heq : t.putFrame q (Addr.ofPlace p n) f =
      ((t.setLeaf p n f).setXo p n false).forgetIdent q (Addr.ofPlace p n).encode := by
    unfold State.putFrame
    rw [State.resolve_of_allocated hown']
  have hset : t.setLeaf p n f = { t with tiers := (t.setLeaf p n f).tiers } := by cases p <;> rfl
  have hquire : (t.putFrame q (Addr.ofPlace p n) f).quire q =
      { t.quire q with runs := ((t.putFrame q (Addr.ofPlace p n) f).quire q).runs } := by
    rw [heq, State.forgetIdent, State.modQuire_quire, hset]
    rfl
  have htiers : (t.putFrame q (Addr.ofPlace p n) f).tiers = ((t.setLeaf p n f).setXo p n false).tiers := by
    rw [heq]
    rfl
  refine ⟨⟨?_, ?_, ?_, ?_⟩, fun y m => ?_⟩
  · rw [heq, hset, h.frame]
    rfl
  · rw [hquire, h.quire]
  · exact h.bookings.trans ((State.BookingsKept.setLeaf t p n f false).trans (.of_tiers htiers))
  · have hwf : ((t.setLeaf p n f).setXo p n false).LeavesWf :=
      ⟨(h.wf.setLeaf hf p n).slices, (h.wf.setLeaf hf p n).commons, (h.wf.setLeaf hf p n).t2⟩
    exact hwf.of_tiers htiers
  · rw [State.leaf_of_tiers htiers]
    have hxo : ((t.setLeaf p n f).setXo p n false).leaf y m = (t.setLeaf p n f).leaf y m := by cases y <;> rfl
    rw [hxo, State.leaf_setLeaf h.wf hf]

/-- The frames of a range, put one after the other: each arrives as given, no other leaf changes. -/
theorem State.putFrames (h : s.LeavesWf) {p : Place} {n : Nat} {g : Nat → Mem} (hg : ∀ i, Mem.wf (g i) = true) :
    ∀ count, (∀ i, i < count → s.allocated q p (n + i) = true) → ∃ t,
      (List.range count).foldl (fun s i => s.putFrame q ((Addr.ofPlace p n).advance i) (g i)) s = t ∧ s.Delivered q t ∧
        (∀ i, i < count → t.leaf p (n + i) = Mem.frame (g i)) ∧
        ∀ y m, ¬ (y = p ∧ n ≤ m ∧ m < n + count) → t.leaf y m = s.leaf y m := by
  intro count
  induction count with
  | zero =>
    exact fun _ => ⟨s, rfl, ⟨rfl, rfl, .refl s, h⟩, fun i hi => absurd hi (Nat.not_lt_zero i), fun _ _ _ => rfl⟩
  | succ k ih =>
    intro hown
    obtain ⟨v, hv, hdel, hin, hout⟩ := ih fun i hi => hown i (by omega)
    obtain ⟨hdel', hleaf⟩ := hdel.putFrame (hown k (by omega)) (hg k)
    refine ⟨v.putFrame q (Addr.ofPlace p (n + k)) (g k), ?_, hdel', fun i hi => ?_, fun y m hm => ?_⟩
    · rw [List.range_succ, List.foldl_append, hv]
      simp only [List.foldl_cons, List.foldl_nil, Addr.advance_ofPlace]
    · rw [hleaf]
      by_cases hik : i = k
      · rw [if_pos ⟨rfl, by rw [hik]⟩, hik]
      · rw [if_neg fun hc => hik (by omega), hin i (by omega)]
    · rw [hleaf, if_neg fun hc => hm ⟨hc.1, by omega, by omega⟩]
      exact hout y m fun hc => hm ⟨hc.1, hc.2.1, by omega⟩

/-! ### The COPY of an entry -/

theorem copy_of_startable {t4 : List Byte} (h : s.startable q r 0x08 = some e) : copy q r t4 s =
    s.copyBody q e t4 (fun s => s.startEntry q r e .copyWait) fun s st res => s.finishNow q r e st 0 res := by
  unfold copy
  rw [h]

section
variable {t4 : List Byte} {wait : State → State} {done : State → Nat → Nat → State}
  (ha : addrOf (fieldLe e.bytes 8 8) = some a) (hb : addrOf (fieldLe e.bytes 16 8) = some b)
include ha hb

theorem State.copyBody_of_foreignSource {i : Nat} (h : s.firstForeign q a (fieldLe e.bytes 24 4) false = some i) :
    s.copyBody q e t4 wait done = s.freezeEntry q e FC.foreignLeaf (bits (a.advance i).encode 43 12) := by
  unfold State.copyBody
  dsimp only
  rw [ha, hb]
  dsimp only
  rw [h]

theorem State.copyBody_of_foreignDest {i : Nat} (hsrc : s.firstForeign q a (fieldLe e.bytes 24 4) false = none)
    (h : s.firstForeign q b (fieldLe e.bytes 24 4) true = some i) :
    s.copyBody q e t4 wait done = s.freezeEntry q e FC.foreignLeaf (bits (b.advance i).encode 43 12) := by
  unfold State.copyBody
  dsimp only
  rw [ha, hb]
  dsimp only
  rw [hsrc, h]

/-- Positions of the range beyond the T4 window (R678). -/
def State.copyPast (s : State) (q : QNum) (a b : Addr) (count : Nat) : Nat :=
  ((List.range count).filter fun i => (a.form.isT4 && decide (s.windowLeaves q ≤ a.leaf + i)) ||
    (b.form.isT4 && decide (s.windowLeaves q ≤ b.leaf + i))).length

theorem State.copyBody_of_own (hsrc : s.firstForeign q a (fieldLe e.bytes 24 4) false = none)
    (hdst : s.firstForeign q b (fieldLe e.bytes 24 4) true = none) : s.copyBody q e t4 wait done =
      if s.copyPast q a b (fieldLe e.bytes 24 4) ≠ 0 then done s CS.quota (s.copyPast q a b (fieldLe e.bytes 24 4))
      else if (List.range (fieldLe e.bytes 24 4)).any fun i => s.locXo (s.resolve q (a.advance i)) then
        s.freezeEntry q e FC.xo
      else if s.rangeLocked q a (fieldLe e.bytes 24 4) ∨ s.rangeLocked q b (fieldLe e.bytes 24 4) ∨
          s.copyTagged q a (fieldLe e.bytes 24 4) then wait s
      else done ((((List.range (fieldLe e.bytes 24 4)).map fun i => s.copyFrame q a t4 i).zip
          (List.range (fieldLe e.bytes 24 4))).foldl (fun s p => s.putFrame q (b.advance p.2) p.1)
            ((s.readT4s q a (fieldLe e.bytes 24 4)).senseT3 q a (fieldLe e.bytes 24 4))) CS.ok 0 := by
  unfold State.copyBody
  dsimp only
  rw [ha, hb]
  dsimp only
  rw [hsrc, hdst]
  rfl

end

/-- The frames of a COPY, put in the order of their positions. -/
theorem State.putFrames_eq (f : Nat → Mem) (l : List Nat) (s : State) :
    ((l.map f).zip l).foldl (fun s p => s.putFrame q (b.advance p.2) p.1) s =
      l.foldl (fun s i => s.putFrame q (b.advance i) (f i)) s := by
  induction l generalizing s with
  | nil => rfl
  | cons i l ih => exact ih _

theorem State.copyPast_of_t4 {p : Place} {n count : Nat} (hb : b.form.isT4 = true) (hge : b.leaf ≤ s.windowLeaves q) :
    s.copyPast q (Addr.ofPlace p n) b count = b.leaf + count - s.windowLeaves q := by
  have hfilter : ∀ k, ((List.range k).filter fun i => decide (s.windowLeaves q ≤ b.leaf + i)).length =
      b.leaf + k - s.windowLeaves q := fun k => by
    induction k with
    | zero => simp; omega
    | succ k ih =>
      rw [List.range_succ, List.filter_append, List.length_append, ih]
      by_cases hk : s.windowLeaves q ≤ b.leaf + k
      · rw [List.filter_cons_of_pos (by simpa using hk)]
        simp
        omega
      · rw [List.filter_cons_of_neg (by simpa using hk)]
        simp
        omega
  simp only [State.copyPast, Addr.isT4_ofPlace, Bool.false_and, Bool.false_or, hb, Bool.true_and, hfilter]

theorem State.copyPast_of_own (p y : Place) (n m count : Nat) :
    s.copyPast q (Addr.ofPlace p n) (Addr.ofPlace y m) count = 0 := by
  simp [State.copyPast]

/-- Settles O37: the frames are read before the first is written, so that `State.putFrames` gives the leaves; the other cases
are the branches of `copyBody` before it. -/
theorem copyMovesFrames : Obligations.CopyMovesFrames := by
  intro s q r e a b hinv hroom hstart ha hb count
  have hlive := State.lively_of_startable hstart
  have hwf := State.leavesWf_of_inv hinv
  refine ⟨fun pa na pb nb t4 hpa hpb hown => ?_, fun i t4 hsrc => ?_, fun i t4 hsrc hdst => ?_,
    fun pa na t4 hpa hform hown hpast hwin => ?_⟩
  · have hsrc : s.firstForeign q a count false = none := hpa ▸ State.firstForeign_of_allocated (fun i hi => (hown i hi).1) _
    have hdst : s.firstForeign q b count true = none := hpb ▸ State.firstForeign_of_allocated (fun i hi => (hown i hi).2) _
    have heq := (copy_of_startable (t4 := t4) hstart).trans (State.copyBody_of_own ha hb hsrc hdst)
    have hnone : ¬ s.copyPast q a b count ≠ 0 := not_not.2 (hpa ▸ hpb ▸ State.copyPast_of_own pa pb na nb count)
    have hresolve : ∀ i, i < count → s.resolve q (a.advance i) = .own pa (na + i) false := fun i hi => by
      rw [hpa, Addr.advance_ofPlace, State.resolve_of_allocated (hown i hi).1]
    have hxo : ((List.range count).any fun i => s.locXo (s.resolve q (a.advance i))) = true ↔
        ∃ i, i < count ∧ s.isXo pa (na + i) = true := by
      rw [List.any_eq_true]
      refine exists_congr fun i => ?_
      rw [List.mem_range]
      refine and_congr_right fun hi => ?_
      rw [hresolve i hi]
      rfl
    rw [if_neg hnone] at heq
    refine ⟨fun hfree htag => ?_, fun hfree htag => ?_, fun hxos => ?_⟩
    · rw [if_neg fun hc => ?_, if_pos (.inr (.inr htag))] at heq
      · exact ⟨_, congrArg Host.Outcome.next heq, rfl, rfl, congrArg Quire.started (s.startEntry_quire q r e .copyWait)⟩
      · obtain ⟨i, hi, hx⟩ := hxo.1 hc
        exact Bool.false_ne_true ((hfree i hi).symm.trans hx)
    · have hno : ¬ ((List.range count).any fun i => s.locXo (s.resolve q (a.advance i))) = true := fun hc => by
        obtain ⟨i, hi, hx⟩ := hxo.1 hc
        exact Bool.false_ne_true ((hfree i hi).symm.trans hx)
      have hgo : ¬ (s.rangeLocked q a count = true ∨ s.rangeLocked q b count = true ∨ s.copyTagged q a count = true) := by
        rw [hpa, hpb, State.rangeLocked_ofPlace, State.rangeLocked_ofPlace, ← hpa, htag]
        simp
      have hread : (s.readT4s q a count).senseT3 q a count = s := by
        rw [hpa, State.readT4s_of_allocated (fun i hi => (hown i hi).1), State.senseT3_ofPlace]
      have hframes : ((List.range count).map fun i => s.copyFrame q a t4 i) =
          (List.range count).map fun i => s.leaf pa (na + i) := List.map_congr_left fun i hi => by
        unfold State.copyFrame
        rw [hresolve i (List.mem_range.1 hi)]
      rw [if_neg hno, if_neg hgo, hframes, hread, State.putFrames_eq, hpb] at heq
      obtain ⟨u, hu, hdel, hin, hout⟩ := State.putFrames (q := q) (n := nb) hwf (g := fun i => s.leaf pa (na + i))
        (fun i => hwf.leaf _ _) count fun i hi => (hown i hi).2
      rw [hu] at heq
      have hrings := State.RingsOnly.finishNow u q r e CS.ok 0 0
      have hnv : u.nv = s.nv := by rw [hdel.frame]
      refine ⟨_, congrArg Host.Outcome.next heq, hdel.sameCq.finishNow hroom r e _ _ _, fun i hi => ?_, fun y n hn => ?_,
        hrings.extents.trans hdel.bookings.extents, (State.finishNow_endKept u q r e _ _ _).nv.trans hnv⟩
      · rw [hrings.leaf, hin i hi, State.frame_leaf hwf]
      · rw [hrings.leaf, hout y n hn]
    · rw [if_pos (hxo.2 hxos)] at heq
      exact ⟨_, congrArg Host.Outcome.next heq, State.freezeEntry_frozenBy hinv hlive e (by decide) (by decide),
        (State.BookingsKept.freeze s q _ _ _ _ _ _ _ _ hlive).extents⟩
  · have heq := (copy_of_startable (t4 := t4) hstart).trans (State.copyBody_of_foreignSource ha hb hsrc)
    exact ⟨_, congrArg Host.Outcome.next heq, State.freezeEntry_frozenBy hinv hlive e (by decide) (bits_page_lt _),
      (State.BookingsKept.freeze s q _ _ _ _ _ _ _ _ hlive).extents⟩
  · have heq := (copy_of_startable (t4 := t4) hstart).trans (State.copyBody_of_foreignDest ha hb hsrc hdst)
    exact ⟨_, congrArg Host.Outcome.next heq, State.freezeEntry_frozenBy hinv hlive e (by decide) (bits_page_lt _),
      (State.BookingsKept.freeze s q _ _ _ _ _ _ _ _ hlive).extents⟩
  · have hsrc : s.firstForeign q a count false = none := hpa ▸ State.firstForeign_of_allocated hown _
    have ht4 : b.form.isT4 = true := by rw [hform]; rfl
    have hdst : s.firstForeign q b count true = none := if_pos ht4
    have hpasts : s.copyPast q a b count = b.leaf + count - s.windowLeaves q := hpa ▸ State.copyPast_of_t4 ht4 hwin
    have heq := (copy_of_startable (t4 := t4) hstart).trans (State.copyBody_of_own ha hb hsrc hdst)
    rw [if_pos (by rw [hpasts]; omega), hpasts] at heq
    exact ⟨_, congrArg Host.Outcome.next heq, s.finishNow_completes q r e _ _ _ hroom,
      fun y n => (State.RingsOnly.finishNow s q r e _ _ _).leaf y n⟩

end Sys2Proof.Machine
end

section
/-! PROOFS. Extents: who holds a leaf after a cut, and the zeroing engine (14; R305, R306, R675). -/

namespace Sys2Proof.Machine

variable {s t u : State} {q : QNum} {r : RingNum} {e : Entry}

/-! ### Who holds a leaf -/

/-- The leaf lies in an extent whose use `g` picks. -/
def State.covers (s : State) (g : Use → Bool) (p : Place) (n : Nat) : Prop :=
  ∃ e ∈ s.tiers.extents, g e.use = true ∧ e.has p n = true

theorem Extent.has_iff (e : Extent) (p : Place) (n : Nat) :
    e.has p n = true ↔ e.place = p ∧ e.first ≤ n ∧ n < e.first + e.count := by
  simp [Extent.has, and_assoc]

theorem State.allocated_iff (s : State) (q : QNum) (p : Place) (n : Nat) :
    s.allocated q p n = true ↔ s.covers (Use.isAlloc q) p n := by
  simp [State.allocated, State.covers, List.any_eq_true]

theorem State.allocated_congr (h : ∀ o p n, t.covers (Use.isAlloc o) p n ↔ s.covers (Use.isAlloc o) p n) (q : QNum)
    (p : Place) (n : Nat) : t.allocated q p n = s.allocated q p n := by
  rw [Bool.eq_iff_iff, State.allocated_iff, State.allocated_iff, h]

theorem State.unzeroed_iff (s : State) (p : Place) (n count : Nat) : s.unzeroed p n count = true ↔
    ∃ e ∈ s.tiers.extents, e.use.isZeroing = true ∧ e.place = p ∧ e.first < n + count ∧ n < e.first + e.count := by
  simp only [State.unzeroed, State.extentsOf, List.any_eq_true, List.mem_filter, Bool.and_eq_true, beq_iff_eq,
    decide_eq_true_eq]
  refine exists_congr fun e => ?_
  tauto

theorem State.unzeroed_one_iff (s : State) (p : Place) (n : Nat) :
    s.unzeroed p n 1 = true ↔ s.covers Use.isZeroing p n := by
  rw [State.unzeroed_iff, State.covers]
  refine exists_congr fun e => ?_
  rw [Extent.has_iff, Nat.lt_succ_iff]

theorem State.extentsOf_cons_mem {p : Place} {f : Use → Bool} {x : Extent} :
    x ∈ s.extentsOf p f ↔ x ∈ s.tiers.extents ∧ x.place = p ∧ f x.use = true := by
  simp [State.extentsOf]

theorem Use.isZeroing_of_isAlloc : ∀ {x : Use}, x.isAlloc q = true → x.isZeroing = false
  | .alloc _, _ => rfl

/-! ### Cuts -/

/-- What a cut leaves of an extent keeps its place and its use. -/
theorem cutExtent_keeps {p : Place} {first count : Nat} {f : Use → Bool} {e y : Extent}
    (h : y ∈ cutExtent p first count f e) : y.place = e.place ∧ y.use = e.use := by
  unfold cutExtent at h
  split at h
  · rcases List.mem_append.1 h with h | h
    · split at h
      · rw [List.mem_singleton.1 h]
        exact ⟨rfl, rfl⟩
      · cases h
    · split at h
      · rw [List.mem_singleton.1 h]
        exact ⟨rfl, rfl⟩
      · cases h
  · rw [List.mem_singleton.1 h]
    exact ⟨rfl, rfl⟩

/-- A cut takes the leaves of its range out of an extent whose use matches, and no other. -/
theorem cutExtent_has (p : Place) (first count : Nat) (f : Use → Bool) (e : Extent) (y : Place) (n : Nat) :
    (∃ x ∈ cutExtent p first count f e, x.has y n = true) ↔
      e.has y n = true ∧ ¬ (e.place = p ∧ f e.use = true ∧ first ≤ n ∧ n < first + count) := by
  simp only [Extent.has_iff]
  unfold cutExtent
  split
  · next h =>
    obtain ⟨hp, hf⟩ := h
    simp only [List.mem_append, List.mem_ite_nil_right, List.mem_singleton, hp, hf, true_and]
    constructor
    · rintro ⟨x, ⟨hlt, rfl⟩ | ⟨hlt, rfl⟩, hplace, hlo, hhi⟩ <;> dsimp only at hplace hlo hhi
      · exact ⟨⟨hplace, by omega, by omega⟩, by omega⟩
      · exact ⟨⟨hplace, by omega, by omega⟩, by omega⟩
    · rintro ⟨⟨rfl, hlo, hhi⟩, hout⟩
      by_cases hn : n < first
      · exact ⟨_, .inl ⟨by omega, rfl⟩, rfl, hlo, by dsimp only; omega⟩
      · exact ⟨_, .inr ⟨by omega, rfl⟩, rfl, by dsimp only; omega, by dsimp only; omega⟩
  · next h =>
    simp only [List.mem_singleton, exists_eq_left]
    exact ⟨fun hh => ⟨hh, fun hc => h ⟨hc.1, hc.2.1⟩⟩, fun hh => hh.1⟩

theorem State.covers_cut (s : State) (p : Place) (first count : Nat) (f g : Use → Bool) (y : Place) (n : Nat) :
    (s.cut p first count f).covers g y n ↔
      ∃ e ∈ s.tiers.extents, g e.use = true ∧ e.has y n = true ∧
        ¬ (e.place = p ∧ f e.use = true ∧ first ≤ n ∧ n < first + count) := by
  show (∃ x ∈ s.tiers.extents.flatMap (cutExtent p first count f), g x.use = true ∧ x.has y n = true) ↔ _
  simp only [List.mem_flatMap]
  constructor
  · rintro ⟨x, ⟨e, he, hx⟩, hg, hn⟩
    have hcut := (cutExtent_has p first count f e y n).1 ⟨x, hx, hn⟩
    exact ⟨e, he, by rw [← (cutExtent_keeps hx).2]; exact hg, hcut.1, hcut.2⟩
  · rintro ⟨e, he, hg, hn, hout⟩
    obtain ⟨x, hx, hxn⟩ := (cutExtent_has p first count f e y n).2 ⟨hn, hout⟩
    exact ⟨x, ⟨e, he, hx⟩, by rw [(cutExtent_keeps hx).2]; exact hg, hxn⟩

/-- Uses that the cut spares hold what they held. -/
theorem State.covers_cut_of_spared {f g : Use → Bool} (h : ∀ x, g x = true → f x = false) (s : State) (p : Place)
    (first count : Nat) (y : Place) (n : Nat) : (s.cut p first count f).covers g y n ↔ s.covers g y n := by
  rw [State.covers_cut]
  refine exists_congr fun e => and_congr_right fun _ => and_congr_right fun hg => and_iff_left ?_
  exact fun hc => Bool.false_ne_true ((h _ hg).symm.trans hc.2.1)

/-- Uses that the cut takes hold no leaf of its range, and what they held outside it. -/
theorem State.covers_cut_of_taken {f g : Use → Bool} (h : ∀ x, g x = true → f x = true) (s : State) (p : Place)
    (first count : Nat) (y : Place) (n : Nat) : (s.cut p first count f).covers g y n ↔
      s.covers g y n ∧ ¬ (y = p ∧ first ≤ n ∧ n < first + count) := by
  rw [State.covers_cut]
  constructor
  · rintro ⟨e, he, hg, hn, hout⟩
    have hplace := ((e.has_iff y n).1 hn).1
    exact ⟨⟨e, he, hg, hn⟩, fun hc => hout ⟨hplace.trans hc.1, h _ hg, hc.2⟩⟩
  · rintro ⟨⟨e, he, hg, hn⟩, hout⟩
    have hplace := ((e.has_iff y n).1 hn).1
    exact ⟨e, he, hg, hn, fun hc => hout ⟨hplace.symm.trans hc.1, hc.2.2⟩⟩

/-- No extent that is left to be zeroed meets the range of a cut of such extents. -/
theorem State.unzeroed_cut (s : State) (p : Place) (first count : Nat) :
    (s.cut p first count Use.isZeroing).unzeroed p first count = false := by
  rw [Bool.eq_false_iff, Ne, State.unzeroed_iff]
  rintro ⟨x, hx, huse, hplace, hlo, hhi⟩
  obtain ⟨e, -, hx⟩ := List.mem_flatMap.1 hx
  obtain ⟨hp, hu⟩ := cutExtent_keeps hx
  unfold cutExtent at hx
  rw [if_pos ⟨hp.symm.trans hplace, by rw [← hu]; exact huse⟩] at hx
  simp only [List.mem_append, List.mem_ite_nil_right, List.mem_singleton] at hx
  rcases hx with ⟨hlt, rfl⟩ | ⟨hlt, rfl⟩ <;> dsimp only at hlo hhi <;> omega

/-! ### The zeroing engine (R305, R306, R675) -/

/-- Ranges cleared one after the other read as zeros; every other leaf holds what it held. -/
theorem State.foldl_clearLeaves (p : Place) (l : List (Nat × Nat)) : ∀ s : State, s.LeavesWf →
    let t := l.foldl (fun s d => s.clearLeaves p d.1 d.2) s
    (∀ y n, (y = p ∧ ∃ d ∈ l, d.1 ≤ n ∧ n < d.1 + d.2) → t.leaf y n = []) ∧
      ∀ y n, ¬ (y = p ∧ ∃ d ∈ l, d.1 ≤ n ∧ n < d.1 + d.2) → t.leaf y n = s.leaf y n := by
  induction l with
  | nil => exact fun s _ => ⟨fun y n h => by simp at h, fun _ _ _ => rfl⟩
  | cons d l ih =>
    intro s hwf t
    obtain ⟨hin, hout⟩ := ih (s.clearLeaves p d.1 d.2) (hwf.clearLeaves p d.1 d.2)
    refine ⟨fun y n h => ?_, fun y n h => ?_⟩
    · by_cases hl : y = p ∧ ∃ d ∈ l, d.1 ≤ n ∧ n < d.1 + d.2
      · exact hin y n hl
      · refine (hout y n hl).trans ?_
        rw [State.leaf_clearLeaves hwf, if_pos]
        obtain ⟨hy, c, hc, hn⟩ := h
        rcases List.mem_cons.1 hc with rfl | hc
        · exact ⟨hy, hn⟩
        · exact absurd ⟨hy, c, hc, hn⟩ hl
    · refine (hout y n fun hc => h ⟨hc.1, ?_⟩).trans ?_
      · obtain ⟨c, hc, hn⟩ := hc.2
        exact ⟨c, List.mem_cons_of_mem _ hc, hn⟩
      · rw [State.leaf_clearLeaves hwf, if_neg fun hc => h ⟨hc.1, d, List.mem_cons_self .., hc.2⟩]

theorem State.clearLeaves_tiers (s : State) (p : Place) (n count : Nat) :
    s.clearLeaves p n count = { s with tiers := { s.tiers with
      slices := (s.clearLeaves p n count).tiers.slices, commons := (s.clearLeaves p n count).tiers.commons,
      t2 := (s.clearLeaves p n count).tiers.t2 } } := by
  cases p <;> rfl

/-- `t` differs from `s` in contents of T1 and T2 leaves alone. -/
structure State.ContentsOnly (s t : State) : Prop where
  frame : t = { s with tiers := { s.tiers with
    slices := t.tiers.slices, commons := t.tiers.commons, t2 := t.tiers.t2 } }

theorem State.foldl_clearLeaves_only (p : Place) (l : List (Nat × Nat)) (s : State) :
    s.ContentsOnly (l.foldl (fun s d => s.clearLeaves p d.1 d.2) s) :=
  List.foldlRecOn (motive := fun t : State => s.ContentsOnly t) l _ ⟨rfl⟩ fun t ht d _ => by
    constructor
    rw [t.clearLeaves_tiers, ht.frame]

/-- The ranges of an extent that still await zeroing. -/
def State.zeroDue (s : State) (x : Extent) : List (Nat × Nat) :=
  (s.extentsOf x.place Use.isZeroing).filterMap fun e =>
    if max e.first x.first < min (e.first + e.count) (x.first + x.count) then
      some (max e.first x.first, min (e.first + e.count) (x.first + x.count) - max e.first x.first)
    else none

theorem State.mem_zeroDue_iff (s : State) (x : Extent) (n : Nat) : (∃ d ∈ s.zeroDue x, d.1 ≤ n ∧ n < d.1 + d.2) ↔
    x.first ≤ n ∧ n < x.first + x.count ∧ s.unzeroed x.place n 1 = true := by
  rw [State.unzeroed_iff]
  simp only [State.zeroDue, List.mem_filterMap, State.extentsOf_cons_mem]
  constructor
  · rintro ⟨d, ⟨e, ⟨he, hp, hu⟩, hd⟩, hlo, hhi⟩
    split at hd
    · cases hd
      dsimp only at hlo hhi
      exact ⟨by omega, by omega, e, he, hu, hp, by omega, by omega⟩
    · cases hd
  · rintro ⟨hlo, hhi, e, he, hu, hp, helo, hehi⟩
    exact ⟨_, ⟨e, ⟨he, hp, hu⟩, if_pos (by omega)⟩, by dsimp only; omega, by dsimp only; omega⟩

/-- The state after the ranges due are cleared, before the extent gives them up. -/
def State.zeroCleared (s : State) (x : Extent) : State :=
  let u := (s.zeroDue x).foldl (fun s d => s.clearLeaves x.place d.1 d.2) s
  u.setTiers { u.tiers with
    xo := u.tiers.xo.filter fun y => !(y.1 == x.place && (s.zeroDue x).any fun d => d.1 ≤ y.2 && y.2 < d.1 + d.2) }

theorem State.zeroExtent_eq (s : State) (x : Extent) :
    s.zeroExtent x = (s.zeroCleared x).cut x.place x.first x.count Use.isZeroing := rfl

theorem State.leaf_cut (s : State) (p : Place) (first count : Nat) (f : Use → Bool) (y : Place) (n : Nat) :
    (s.cut p first count f).leaf y n = s.leaf y n := by
  cases y <;> rfl

theorem State.leaf_setXo (s : State) (l : List (Place × Nat)) (y : Place) (n : Nat) :
    (s.setTiers { s.tiers with xo := l }).leaf y n = s.leaf y n := by
  cases y <;> rfl

theorem State.leaf_setJobs (s : State) (l : List ZeroJob) (y : Place) (n : Nat) :
    (s.setTiers { s.tiers with jobs := l }).leaf y n = s.leaf y n := by
  cases y <;> rfl

theorem State.zeroCleared_frame (s : State) (x : Extent) : s.zeroCleared x = { s with tiers := { s.tiers with
    slices := (s.zeroCleared x).tiers.slices, commons := (s.zeroCleared x).tiers.commons,
    t2 := (s.zeroCleared x).tiers.t2, xo := (s.zeroCleared x).tiers.xo } } := by
  have h := (State.foldl_clearLeaves_only x.place (s.zeroDue x) s).frame
  unfold State.zeroCleared
  dsimp only
  rw [h]
  rfl

theorem zeroingEndsClause : ZeroingEndsClause := by
  intro s x rest hinv hcore hjobs waits
  have hwf := State.leavesWf_of_inv hinv
  have heq : zeroingJobDone s = (s.zeroExtent x).setTiers { (s.zeroExtent x).tiers with jobs := rest } := by
    unfold zeroingJobDone
    rw [hjobs]
    exact if_neg (not_not.2 hcore)
  have hframe := s.zeroCleared_frame x
  obtain ⟨hin, hout⟩ := State.foldl_clearLeaves x.place (s.zeroDue x) s hwf
  have hleaf : ∀ p n, (zeroingJobDone s).leaf p n =
      ((s.zeroDue x).foldl (fun s d => s.clearLeaves x.place d.1 d.2) s).leaf p n := fun p n => by
    rw [heq, State.leaf_setJobs, State.zeroExtent_eq, State.leaf_cut]
    exact State.leaf_setXo _ _ p n
  have hwaits : ∀ p n, waits p n ↔ p = x.place ∧ ∃ d ∈ s.zeroDue x, d.1 ≤ n ∧ n < d.1 + d.2 := fun p n => by
    rw [State.mem_zeroDue_iff]
    refine and_congr_right fun hp => ?_
    rw [hp]
  have hextents : (zeroingJobDone s).tiers.extents = (s.cut x.place x.first x.count Use.isZeroing).tiers.extents := by
    rw [heq, State.zeroExtent_eq, hframe]
    rfl
  have hcovers : ∀ g p n, (zeroingJobDone s).covers g p n ↔
      (s.cut x.place x.first x.count Use.isZeroing).covers g p n := fun g p n => by
    rw [State.covers, hextents, State.covers]
  refine ⟨_, rfl, ?_, ?_, fun p n h => ?_, fun p n h => ?_, ?_, ?_, ?_, ?_, ?_⟩
  · rw [heq]
    rfl
  · have hun := s.unzeroed_cut x.place x.first x.count
    unfold State.unzeroed State.extentsOf at hun ⊢
    rw [hextents]
    exact hun
  · rw [hleaf]
    exact hin p n ((hwaits p n).1 h)
  · rw [hleaf]
    exact hout p n fun hc => h ((hwaits p n).2 hc)
  · refine State.allocated_congr fun o p n => (hcovers _ p n).trans (State.covers_cut_of_spared (fun y hy => ?_) s _ _ _ p n)
    exact Use.isZeroing_of_isAlloc hy
  all_goals
    rw [heq, State.zeroExtent_eq, hframe]
    rfl

end Sys2Proof.Machine
end

section
/-! PROOFS. ALLOC and FREE (14; R668 to R675). -/

namespace Sys2Proof.Machine

variable {s t u : State} {q : QNum} {r : RingNum} {e : Entry}

/-! ### FREE (R673 to R675) -/

theorem free_of_startable {a : Addr} (h : s.startable q r 0x06 = some e) (ha : addrOf (fieldLe e.bytes 8 8) = some a) :
    free q r s =
      match s.freePieces q a (fieldLe e.bytes 16 4) with
      | none => s.freezeEntry q e FC.foreignLeaf (bits (a.advance (((List.range (fieldLe e.bytes 16 4)).find? fun i =>
          match s.resolve q (a.advance i) with
          | .own _ _ _ => false
          | _ => true).getD 0)).encode 43 12)
      | some l =>
        if s.freeHeld q a (fieldLe e.bytes 16 4) then s
        else (s.doFree q a (fieldLe e.bytes 16 4) l).finishNow q r e CS.ok := by
  unfold free
  rw [h]
  dsimp only
  rw [ha] <;> rfl

theorem Addr.eq_ofPlace {a : Addr} {p : Place} (h : a.form = (Addr.ofPlace p 0).form) : a = Addr.ofPlace p a.leaf := by
  obtain ⟨form, leaf⟩ := a
  cases p <;> exact congrArg (fun f => ({ form := f, leaf := leaf } : Addr)) h

/-- The piece of an extent that lies in a range. -/
def pieceOf (p : Place) (n count : Nat) (x : Extent) : Option (Place × Nat × Nat) :=
  let lo := max x.first n
  let hi := min (x.first + x.count) (n + count)
  if lo < hi then some (p, lo, hi - lo) else none

theorem State.freePieces_ofPlace (s : State) (q : QNum) (p : Place) (n count : Nat) :
    s.freePieces q (Addr.ofPlace p n) count =
      if (((s.extentsOf p (Use.isAlloc q)).filterMap (pieceOf p n count)).map fun y => y.2.2).sum = count then
        some ((s.extentsOf p (Use.isAlloc q)).filterMap (pieceOf p n count))
      else none := by
  cases p <;> rfl

theorem State.freePieces_of_inside {p : Place} {x : Extent} (h : s.extentsOf p (Use.isAlloc q) = [x]) {n count : Nat}
    (hcount : 1 ≤ count) (hin : x.first ≤ n ∧ n + count ≤ x.first + x.count) :
    s.freePieces q (Addr.ofPlace p n) count = some [(p, n, count)] := by
  have hpiece : pieceOf p n count x = some (p, n, count) := by
    have hlo : max x.first n = n := by omega
    have hhi : min (x.first + x.count) (n + count) = n + count := by omega
    simp only [pieceOf, hlo, hhi]
    rw [if_pos (by omega), Nat.add_sub_cancel_left]
  rw [State.freePieces_ofPlace, h, List.filterMap_cons, hpiece]
  exact if_pos (by simp)

theorem State.freePieces_of_hole {p : Place} {x : Extent} (h : s.extentsOf p (Use.isAlloc q) = [x]) {n count i : Nat}
    (hi : i < count) (hhole : s.allocated q p (n + i) = false) : s.freePieces q (Addr.ofPlace p n) count = none := by
  obtain ⟨hmem, hplace, huse⟩ := State.extentsOf_cons_mem.1 (h ▸ List.mem_singleton_self x)
  have hnot : ¬ (x.first ≤ n + i ∧ n + i < x.first + x.count) := fun hc => by
    have := (s.allocated_iff q p (n + i)).2 ⟨x, hmem, huse, (x.has_iff _ _).2 ⟨hplace, hc⟩⟩
    exact Bool.false_ne_true (hhole.symm.trans this)
  rw [State.freePieces_ofPlace, h, if_neg]
  simp only [List.filterMap_cons, List.filterMap_nil, pieceOf]
  split
  · next hnone =>
    simp
    omega
  · next y hsome =>
    split at hsome
    · cases hsome
      simp
      omega
    · cases hsome

/-- The piece of a place that a FREE gives to the zeroing engine. -/
def freedPiece (q : QNum) (p : Place) (n count : Nat) : Extent :=
  { place := p, first := n, count := count, use := .zeroing q false }

theorem State.zeroJob_one (s : State) (q : QNum) (p : Place) (n count : Nat) :
    s.zeroJob q false [(p, n, count)] = (s.cut p n count Use.taken).setTiers { (s.cut p n count Use.taken).tiers with
      extents := (s.cut p n count Use.taken).tiers.extents ++ [freedPiece q p n count],
      jobs := s.tiers.jobs ++ [{ extents := [freedPiece q p n count], purpose := .release }] } := rfl

theorem Use.taken_of_isAlloc {x : Use} (h : x.isAlloc q = true) : x.taken = true := by
  rw [Use.taken, Use.isZeroing_of_isAlloc h]
  rfl

theorem State.covers_zeroJob (s : State) (q : QNum) (p : Place) (n count : Nat) (o : QNum) (y : Place) (m : Nat) :
    (s.zeroJob q false [(p, n, count)]).covers (Use.isAlloc o) y m ↔
      s.covers (Use.isAlloc o) y m ∧ ¬ (y = p ∧ n ≤ m ∧ m < n + count) := by
  rw [← State.covers_cut_of_taken (fun x => Use.taken_of_isAlloc), State.zeroJob_one]
  constructor
  · rintro ⟨x, hx, huse, hm⟩
    rcases List.mem_append.1 hx with hx | hx
    · exact ⟨x, hx, huse, hm⟩
    · rw [List.mem_singleton.1 hx] at huse
      cases huse
  · rintro ⟨x, hx, huse, hm⟩
    exact ⟨x, List.mem_append_left _ hx, huse, hm⟩

theorem State.unzeroed_zeroJob (s : State) (q : QNum) (p : Place) {n count m : Nat} (hm : n ≤ m ∧ m < n + count) :
    (s.zeroJob q false [(p, n, count)]).unzeroed p m 1 = true := by
  rw [State.unzeroed_one_iff, State.zeroJob_one]
  exact ⟨_, List.mem_append_right _ (List.mem_singleton_self _), rfl, (Extent.has_iff _ _ _).2 ⟨rfl, hm⟩⟩

theorem State.doFree_ofPlace (s : State) (q : QNum) (p : Place) (n count : Nat) (l : List (Place × Nat × Nat)) :
    s.doFree q (Addr.ofPlace p n) count l = s.zeroJob q false l := by
  cases p <;> rfl

theorem State.RingsOnly.unzeroed (h : s.RingsOnly t) (p : Place) (n count : Nat) : t.unzeroed p n count = s.unzeroed p n
    count := by
  simp only [State.unzeroed, State.extentsOf, h.extents]

theorem freeReleasesClause : FreeReleasesClause := by
  intro s q r e a p x hinv hroom hstart ha hform hone count inside hcount
  obtain ⟨n, rfl⟩ : ∃ n, a = Addr.ofPlace p n := ⟨_, Addr.eq_ofPlace hform⟩
  have hleaf : (Addr.ofPlace p n).leaf = n := by cases p <;> rfl
  have hlive := State.lively_of_startable hstart
  have heq := free_of_startable hstart ha
  simp only [inside, hleaf]
  refine ⟨fun i hi hhole hfirst => ?_, fun hin hbound => ?_, fun hin hbound hmaster => ?_⟩
  · rw [State.freePieces_of_hole hone hi hhole] at heq
    have hresolve : ∀ j, (match s.resolve q ((Addr.ofPlace p n).advance j) with
        | .own _ _ _ => false
        | _ => true) = !s.allocated q p (n + j) := fun j => by
      rw [Addr.advance_ofPlace]
      cases hj : s.allocated q p (n + j) with
      | true => rw [State.resolve_of_allocated hj]; rfl
      | false =>
        have hown : ownPlace s q p (n + j) = .foreign := if_neg (ne_true_of_eq_false hj)
        have hres : s.resolve q (Addr.ofPlace p (n + j)) = .foreign := by cases p <;> exact hown
        rw [hres]
        rfl
    have hfind : ((List.range count).find? fun j => match s.resolve q ((Addr.ofPlace p n).advance j) with
        | .own _ _ _ => false
        | _ => true) = some i := by
      simp only [hresolve]
      rw [List.find?_range_eq_some]
      simp only [hhole, List.mem_range]
      exact ⟨rfl, hi, fun j hj => by simp [hfirst j hj]⟩
    dsimp only at heq
    rw [hfind] at heq
    exact ⟨_, congrArg Host.Outcome.next heq, State.freezeEntry_frozenBy hinv hlive e (by decide) (bits_page_lt _),
      (State.BookingsKept.freeze s q _ _ _ _ _ _ _ _ hlive).extents⟩
  · rw [State.freePieces_of_inside hone hcount hin] at heq
    have hheld : s.freeHeld q (Addr.ofPlace p n) count = true := by
      rw [State.freeHeld, hbound]
      rfl
    exact congrArg Host.Outcome.next (heq.trans (if_pos hheld))
  · rw [State.freePieces_of_inside hone hcount hin] at heq
    have hheld : ¬ s.freeHeld q (Addr.ofPlace p n) count = true := by
      rw [State.freeHeld, hbound, hmaster, State.rangeLocked_ofPlace]
      exact Bool.false_ne_true
    replace heq := heq.trans (if_neg hheld)
    rw [State.doFree_ofPlace] at heq
    have hrings := State.RingsOnly.finishNow (s.zeroJob q false [(p, n, count)]) q r e CS.ok 0 0
    have halloc : ∀ o y m, (free q r s).allocated o y m = (s.zeroJob q false [(p, n, count)]).allocated o y m := fun o y m => by
      rw [heq]
      exact State.allocated_of_extents hrings.extents o y m
    have hsame : s.SameCq (s.zeroJob q false [(p, n, count)]) q := ⟨rfl, rfl, rfl, rfl, rfl, rfl, rfl, rfl, rfl⟩
    refine ⟨_, congrArg Host.Outcome.next heq, hsame.finishNow hroom r e _ _ _, ?_, fun i hi => ⟨fun o => ?_, ?_⟩,
      fun o y m hm => ?_, fun y m => ?_⟩
    · rw [hrings.frame]
      exact (List.length_append ..).trans rfl
    · rw [← heq, halloc, Bool.eq_false_iff, Ne, State.allocated_iff, State.covers_zeroJob]
      exact fun hc => hc.2 ⟨rfl, by omega, by omega⟩
    · rw [hrings.unzeroed]
      exact s.unzeroed_zeroJob q p (by omega)
    · rw [← heq, halloc, Bool.eq_iff_iff, State.allocated_iff, State.allocated_iff, State.covers_zeroJob]
      exact and_iff_left hm
    · rw [hrings.leaf]
      cases y <;> rfl

/-! ### The lowest run of free leaves (R671) -/

theorem find?_eq_of_sorted {p : Nat → Bool} {n : Nat} : ∀ {l : List Nat}, l.Pairwise (· < ·) → n ∈ l → p n = true →
    (∀ m, m < n → p m = false) → l.find? p = some n
  | [], _, hn, _, _ => absurd hn List.not_mem_nil
  | x :: l, hsorted, hn, hp, hmin => by
    obtain ⟨hx, hl⟩ := List.pairwise_cons.1 hsorted
    rcases List.mem_cons.1 hn with rfl | hn
    · exact List.find?_cons_of_pos hp
    · rw [List.find?_cons_of_neg (ne_true_of_eq_false (hmin x (hx n hn)))]
      exact find?_eq_of_sorted hl hn hp hmin

theorem sortNat_sorted : ∀ l : List Nat, (sortNat l).Pairwise (· < ·)
  | [] => List.Pairwise.nil
  | x :: l => insertNat_sorted x _ (sortNat_sorted l)

/-- `count` leaves from `n` lie below `limit`, outside every extent of the list. -/
def clearAt (limit count : Nat) (busy : List Extent) (n : Nat) : Bool :=
  n + count ≤ limit && busy.all fun e => e.first + e.count ≤ n || n + count ≤ e.first

theorem clearAt_iff {limit count n : Nat} {busy : List Extent} : clearAt limit count busy n = true ↔
    n + count ≤ limit ∧ ∀ e ∈ busy, e.first + e.count ≤ n ∨ n + count ≤ e.first := by
  simp [clearAt]

theorem lowestRun_eq (limit count : Nat) (busy : List Extent) : lowestRun limit count busy =
    (sortNat (0 :: busy.map fun e => e.first + e.count)).find? (clearAt limit count busy) := rfl

theorem lowestRun_eq_none {limit count : Nat} {busy : List Extent} (h : ∀ n, ¬ clearAt limit count busy n = true) :
    lowestRun limit count busy = none := by
  rw [lowestRun_eq]
  exact List.find?_eq_none.2 fun n _ => h n

/-- The lowest run begins at 0 or where an extent ends. -/
theorem lowestRun_eq_some {limit count n : Nat} {busy : List Extent}
    (h : clearAt limit count busy n = true) (hmin : ∀ m, m < n → ¬ clearAt limit count busy m = true) :
    lowestRun limit count busy = some n := by
  rw [lowestRun_eq]
  refine find?_eq_of_sorted (sortNat_sorted _) ?_ h fun m hm => Bool.eq_false_iff.2 (hmin m hm)
  rw [mem_sortNat, List.mem_cons, List.mem_map]
  by_contra hc
  obtain ⟨hn0, hends⟩ := not_or.1 hc
  refine hmin (n - 1) (by omega) (clearAt_iff.2 ⟨?_, fun e he => ?_⟩)
  · have := (clearAt_iff.1 h).1
    omega
  · have hend : e.first + e.count ≠ n := fun hn => hends ⟨e, he, hn⟩
    have := (clearAt_iff.1 h).2 e he
    omega

theorem State.runClear_iff (s : State) (p : Place) (f : Use → Bool) (n count : Nat) :
    RunClear s p f n count ↔ clearAt (s.placeLeaves p) count (s.extentsOf p f) n = true := by
  rw [clearAt_iff]
  refine and_congr_right fun _ => ⟨fun h e he => ?_, fun h e he hp hf => h e (State.extentsOf_cons_mem.2 ⟨he, hp, hf⟩)⟩
  obtain ⟨hmem, hp, hf⟩ := State.extentsOf_cons_mem.1 he
  exact h e hmem hp hf

/-- A run clear of every extent awaits no zeroing. -/
theorem State.unzeroed_of_clear {p : Place} {n count : Nat} (h : RunClear s p Use.any n count) :
    s.unzeroed p n count = false := by
  rw [Bool.eq_false_iff, Ne, State.unzeroed_iff]
  rintro ⟨e, he, -, hp, hlo, hhi⟩
  have := h.2 e he hp rfl
  omega

/-! ### ALLOC (R668 to R672) -/

theorem alloc_of_startable (h : s.startable q r 0x05 = some e) : alloc q r s =
    if s.allocMissing q e (s.rd (Key.qPlacement q) == 1) ≠ 0 then
      s.finishNow q r e CS.quota 0 (s.allocMissing q e (s.rd (Key.qPlacement q) == 1))
    else
      match s.allocPick q e (s.rd (Key.qPlacement q) == 1) with
      | none => s.finishNow q r e CS.quota
      | some l =>
        if s.piecesZeroed l then (s.grantLeaves q l (s.rd (Key.qPlacement q) == 1)).2.finishNow q r e CS.ok 0
          (s.grantLeaves q l (s.rd (Key.qPlacement q) == 1)).1
        else (l.foldl State.addExtent s).startEntry q r e (.allocWait l (s.rd (Key.qPlacement q) == 1)) := by
  unfold alloc
  rw [h] <;> rfl

theorem State.allocMissing_flags (s : State) (q : QNum) (e : Entry) :
    s.allocMissing q e false = fieldLe e.bytes 8 4 - flagsHeadroom s q e := by
  unfold State.allocMissing flagsHeadroom
  dsimp only
  split
  · rfl
  · rw [if_neg Bool.false_ne_true]
    by_cases hbit : bit (fieldLe e.bytes 13 1) 3 = true
    · rw [if_pos hbit, if_pos (.inl hbit)]
    · rw [if_neg hbit]
      by_cases hown : s.ownerOf (Fin.ofNat 8 (fieldLe e.bytes 13 1 % 8)) = some q
      · rw [if_pos hown, if_pos (.inr hown)]
      · rw [if_neg hown, if_neg (not_or.2 ⟨hbit, hown⟩), Nat.sub_zero]

theorem State.allocPick_flags (s : State) (q : QNum) (e : Entry) : s.allocPick q e false =
    ((match lowestRun (s.placeLeaves (allocPlace e)) (fieldLe e.bytes 8 4) (s.extentsOf (allocPlace e) Use.any) with
      | some x => some x
      | none => lowestRun (s.placeLeaves (allocPlace e)) (fieldLe e.bytes 8 4) (s.extentsOf (allocPlace e) Use.taken)).map
        fun x => [{ place := allocPlace e, first := x, count := fieldLe e.bytes 8 4, use := .allocWait q e.seq }]) := rfl

theorem State.piecesZeroed_one (s : State) (x : Extent) :
    s.piecesZeroed [x] = !s.unzeroed x.place x.first x.count := by
  simp [State.piecesZeroed]

/-- An ALLOC of an empty T2 takes its first leaves (R671). -/
theorem State.pickLeaves_of_empty {count : Nat} (hcount : 1 ≤ count) (hcap : count ≤ s.rd Key.t2QuotaCap)
    (h : ∀ x ∈ s.tiers.extents, x.place ≠ .t2) : s.pickLeaves .t2 count Use.taken = [(0, count)] := by
  have hnone : ∀ f, s.extentsOf .t2 f = [] := fun f => List.filter_eq_nil_iff.2 fun x hx => by simp [h x hx]
  have hlimit : s.placeLeaves .t2 = s.rd Key.t2QuotaCap := rfl
  have hgap : gaps (s.placeLeaves .t2) [] = [(0, s.placeLeaves .t2)] := by
    have hpos : 0 < s.placeLeaves .t2 := by omega
    simp [gaps, sortNat, insertNat, hpos]
  have htake : takeGaps count [(0, s.placeLeaves .t2)] = [(0, count)] := by
    rw [takeGaps, if_neg (by omega), Nat.min_eq_left (by omega), takeGaps]
  have hrest : ∀ l, takeGaps 0 l = [] := fun l => by cases l <;> rfl
  unfold State.pickLeaves
  dsimp only
  rw [hnone, hgap, htake]
  simp [gapSum, hrest]

theorem State.allocPick_unified (htier : fieldLe e.bytes 12 1 = 2) (hcount : 1 ≤ fieldLe e.bytes 8 4)
    (hhead : fieldLe e.bytes 8 4 ≤ s.headT2 q) (hcap : fieldLe e.bytes 8 4 ≤ s.rd Key.t2QuotaCap)
    (h : ∀ x ∈ s.tiers.extents, x.place ≠ .t2) : s.allocPick q e true =
      some [{ place := .t2, first := 0, count := fieldLe e.bytes 8 4, use := .allocWait q e.seq }] := by
  have hpick : s.pickLeaves .t2 (min (fieldLe e.bytes 8 4) (s.headT2 q)) Use.taken = [(0, fieldLe e.bytes 8 4)] := by
    rw [Nat.min_eq_left hhead]
    exact State.pickLeaves_of_empty hcount hcap h
  have htier1 : ¬ fieldLe e.bytes 12 1 = 1 := by omega
  unfold State.allocPick
  simp [htier1, gapSum, hpick]

/-- `t` differs from `s` in the UNIFIED mappings of the quire alone. -/
structure State.MapsOnly (q : QNum) (s t : State) : Prop where
  frame : t = { s with quires := t.quires }
  quire : t.quire q = { s.quire q with unified := (t.quire q).unified }

theorem State.MapsOnly.setU (h : s.MapsOnly q t) (n : Nat) (o : Option ULeaf) : s.MapsOnly q (t.setU q n o) := by
  have hquire := t.modQuire_quire q fun x => { x with unified := Tab.put x.unified n o }
  refine ⟨?_, hquire.trans ?_⟩
  · rw [h.frame]
    rfl
  · rw [State.setU, hquire, h.quire]

theorem State.MapsOnly.sameCq (h : s.MapsOnly q t) : s.SameCq t q := by
  have hrd : ∀ k, t.rd k = s.rd k := State.rd_of_vals (by rw [h.frame]) (by rw [h.frame])
  refine ⟨?_, ?_, ?_, ?_, ?_, hrd _, hrd _, hrd _, by rw [h.frame]⟩ <;> rw [h.quire]

/-- Leaves that are set one after the other from leaf 0 on are found (R669). -/
theorem State.foldl_setU (q : QNum) (g : Nat → ULeaf) (s : State) : ∀ count, ∃ t,
    (List.range count).foldl (fun s i => s.setU q i (some (g i))) s = t ∧ s.MapsOnly q t ∧
      ∀ i, i < count → Tab.find (t.quire q).unified i = some (g i) := by
  intro count
  induction count with
  | zero => exact ⟨s, rfl, ⟨rfl, rfl⟩, fun i hi => absurd hi (Nat.not_lt_zero i)⟩
  | succ k ih =>
    obtain ⟨t, ht, honly, hfind⟩ := ih
    refine ⟨t.setU q k (some (g k)), by rw [List.range_succ, List.foldl_append, ht]; rfl, honly.setU k _, fun i hi => ?_⟩
    rw [State.setU, State.modQuire_quire]
    by_cases hik : i = k
    · rw [hik]
      exact Tab.find_put_self _ k _
    · rw [Tab.find_put_some_ne _ _ hik]
      exact hfind i (by omega)

theorem State.setHomes_eq (q : QNum) (l : List Nat) (s : State) :
    ((l.map Home.t2).zip l).foldl (fun s p => s.setU q (0 + p.2) (some { home := p.1, lastRead := 0 })) s =
      l.foldl (fun s i => s.setU q i (some { home := .t2 i, lastRead := 0 })) s := by
  induction l generalizing s with
  | nil => rfl
  | cons i l ih =>
    simp only [List.map_cons, List.zip_cons_cons, List.foldl_cons, Nat.zero_add]
    simp only [Nat.zero_add] at ih
    exact ih _

/-- Of the quire, `t` differs from `s` in its rings, its completion ring, its state and its request for power alone. -/
structure State.EntryEnded (q : QNum) (s t : State) : Prop where
  frame : t.quire q = { s.quire q with
    rings := (t.quire q).rings, state := (t.quire q).state, cqTail := (t.quire q).cqTail, phase := (t.quire q).phase,
    ctrCompleted := (t.quire q).ctrCompleted, ctrCqFull := (t.quire q).ctrCqFull, heldCq := (t.quire q).heldCq,
    pwr := (t.quire q).pwr }
  state : (s.quire q).state = .running ∨ (s.quire q).state = .enabled →
    (t.quire q).state = .running ∨ (t.quire q).state = .enabled

theorem State.EntryEnded.trans (h : s.EntryEnded q t) (h' : t.EntryEnded q u) : s.EntryEnded q u :=
  ⟨by rw [h'.frame, h.frame], fun hs => h'.state (h.state hs)⟩

theorem State.complete_entryEnded (s : State) (q : QNum) (e : Entry) (status detail result : Nat) :
    s.EntryEnded q (s.complete q e status detail result) := by
  unfold State.complete
  dsimp only
  split
  · exact ⟨rfl, id⟩
  · split
    · refine ⟨?_, fun h => ?_⟩ <;> rw [State.setQuire_quire]
      exact h
    · refine ⟨?_, fun h => ?_⟩ <;> rw [State.quire_of_quires (s.writeCq_quires q _) q, State.setQuire_quire]
      exact h

theorem State.settleQuire_entryEnded (s : State) (q : QNum) : s.EntryEnded q (s.settleQuire q) := by
  have hrelease : ∀ v : State, v.EntryEnded q (v.tryRelease q) := fun v => by
    refine ⟨?_, fun h => ?_⟩ <;> rw [v.tryRelease_quire]
    exact h
  unfold State.settleQuire
  dsimp only
  split
  · refine State.EntryEnded.trans ⟨?_, fun _ => ?_⟩ (hrelease _)
    · rw [State.setQuire_quire]
    · rw [State.setQuire_quire]
      exact .inr rfl
  · exact hrelease s

theorem State.finishNow_entryEnded (s : State) (q : QNum) (r : RingNum) (e : Entry) (status detail result : Nat) :
    s.EntryEnded q (s.finishNow q r e status detail result) := by
  have hpop : s.EntryEnded q (s.popEntry q r) := by
    refine ⟨?_, fun _ => ?_⟩ <;> rw [s.popEntry_quire]
    · rfl
    · exact .inl rfl
  exact (hpop.trans (State.complete_entryEnded _ q e status detail result)).trans (State.settleQuire_entryEnded _ q)

/-- The first leaves of an empty T2 become the first leaves of the UNIFIED range (R669, R671). -/
theorem State.grantLeaves_unified (s : State) (q : QNum) (x : Extent) (hplace : x.place = .t2) (hfirst : x.first = 0)
    (hempty : (s.quire q).unified = []) : ∃ t, (s.addExtent { x with use := .home q }).MapsOnly q t ∧
      s.grantLeaves q [x] true = (({ form := .unified, leaf := 0 } : Addr).encode, t) ∧
      ∀ i, i < x.count → Tab.find (t.quire q).unified i = some { home := .t2 i, lastRead := 0 } := by
  have hhomes : homesOf [x] = (List.range x.count).map Home.t2 := by
    simp [homesOf, hplace, hfirst, upFrom]
  have hrun : ∀ n, (lowestRun (2 ^ 27) n []).getD 0 = 0 := fun n => by
    simp only [lowestRun_eq, List.map_nil, sortNat, List.foldr_cons, List.foldr_nil, insertNat, List.find?_cons, List.find?_nil]
    split <;> rfl
  obtain ⟨t, ht, honly, hfind⟩ := State.foldl_setU q (fun i => { home := .t2 i, lastRead := 0 })
    (s.addExtent { x with use := .home q }) x.count
  refine ⟨t, honly, ?_, hfind⟩
  unfold State.grantLeaves
  rw [if_pos rfl]
  dsimp only
  rw [hempty, hhomes, List.map_nil, hrun, List.length_map, List.length_range]
  exact congrArg (Prod.mk _) ((State.setHomes_eq q _ _).trans ht)

theorem allocAnswersClause : AllocAnswersClause := by
  intro s q r e hroom hstart count p hcount
  have heq := alloc_of_startable hstart
  refine ⟨fun hplace => ?_, fun hplace htier => ?_⟩
  · have hflags : (s.rd (Key.qPlacement q) == 1) = false := by rw [hplace]; rfl
    rw [hflags, State.allocMissing_flags, State.allocPick_flags] at heq
    have hrings := fun status result => State.RingsOnly.finishNow s q r e status 0 result
    have hany : ∀ n, RunClear s p Use.taken n count ∨ ¬ RunClear s p Use.any n count := fun n =>
      or_iff_not_imp_right.2 fun h => ⟨(not_not.1 h).1, fun x hx hp _ => (not_not.1 h).2 x hx hp rfl⟩
    refine ⟨fun hshort => ?_, fun hhead hno => ?_, fun n hhead hrun hmin => ?_, fun n hhead hno hrun hmin hunz => ?_⟩
    · rw [if_pos (by omega)] at heq
      exact ⟨_, congrArg Host.Outcome.next heq, s.finishNow_completes q r e _ _ _ hroom, (hrings _ _).extents⟩
    · rw [if_neg (by omega), lowestRun_eq_none fun n hn => ((hany n).resolve_left (hno n)) ((s.runClear_iff p _ n count).2 hn)]
        at heq
      dsimp only at heq
      rw [lowestRun_eq_none fun n hn => hno n ((s.runClear_iff p _ n count).2 hn)] at heq
      exact ⟨_, congrArg Host.Outcome.next heq, s.finishNow_completes q r e _ _ _ hroom, (hrings _ _).extents⟩
    · rw [if_neg (by omega), lowestRun_eq_some ((s.runClear_iff p _ n count).1 hrun) fun m hm hc =>
        hmin m hm ((s.runClear_iff p _ m count).2 hc)] at heq
      dsimp only [Option.map] at heq
      have hzeroed : s.piecesZeroed [{ place := p, first := n, count := count, use := .allocWait q e.seq }] = true := by
        rw [State.piecesZeroed_one, State.unzeroed_of_clear hrun]
        rfl
      have hsame : s.SameCq (s.addExtent { place := p, first := n, count := count, use := .alloc q }) q :=
        ⟨rfl, rfl, rfl, rfl, rfl, rfl, rfl, rfl, rfl⟩
      exact ⟨_, congrArg Host.Outcome.next (heq.trans (if_pos hzeroed)), hsame.finishNow hroom r e _ _ _,
        (State.RingsOnly.finishNow _ q r e _ _ _).extents⟩
    · rw [if_neg (by omega), lowestRun_eq_none fun m hm => hno m ((s.runClear_iff p _ m count).2 hm)] at heq
      dsimp only at heq
      rw [lowestRun_eq_some ((s.runClear_iff p _ n count).1 hrun) fun m hm hc =>
          hmin m hm ((s.runClear_iff p _ m count).2 hc)] at heq
      dsimp only [Option.map] at heq
      have hwaits : ¬ s.piecesZeroed [{ place := p, first := n, count := count, use := .allocWait q e.seq }] = true := by
        rw [State.piecesZeroed_one, hunz]
        exact Bool.false_ne_true
      refine ⟨_, congrArg Host.Outcome.next (heq.trans (if_neg hwaits)), rfl, ?_, rfl⟩
      rw [State.startEntry_quire]
      exact List.length_append
  · have hunified : (s.rd (Key.qPlacement q) == 1) = true := by rw [hplace]; rfl
    have hmiss : s.allocMissing q e true = count - s.headT2 q := if_pos htier
    rw [hunified, hmiss] at heq
    refine ⟨fun hshort => ?_, fun hhead hcap hnone hempty => ?_⟩
    · rw [if_pos (by omega)] at heq
      exact ⟨_, congrArg Host.Outcome.next heq, s.finishNow_completes q r e _ _ _ hroom,
        (State.RingsOnly.finishNow s q r e _ _ _).extents⟩
    · rw [if_neg (by omega), State.allocPick_unified htier hcount hhead hcap hnone] at heq
      have hzeroed : s.piecesZeroed [{ place := .t2, first := 0, count := count, use := .allocWait q e.seq }] = true := by
        have hclear : s.unzeroed .t2 0 count = false := by
          rw [Bool.eq_false_iff, Ne, State.unzeroed_iff]
          exact fun ⟨x, hx, _, hp, _⟩ => hnone x hx hp
        rw [State.piecesZeroed_one, hclear]
        rfl
      obtain ⟨t, honly, hgrant, hfind⟩ := s.grantLeaves_unified q
        { place := .t2, first := 0, count := count, use := .allocWait q e.seq } rfl rfl hempty
      have hsame : s.SameCq (s.addExtent { place := .t2, first := 0, count := count, use := .home q }) q :=
        ⟨rfl, rfl, rfl, rfl, rfl, rfl, rfl, rfl, rfl⟩
      replace heq := heq.trans (if_pos hzeroed)
      rw [hgrant] at heq
      refine ⟨_, congrArg Host.Outcome.next heq,
        hsame.completes (honly.sameCq.finishNow (hsame.room hroom) r e _ _ _), fun i hi => ?_⟩
      rw [(State.finishNow_entryEnded t q r e _ _ _).frame]
      exact hfind i hi

/-- Settles O39: the lowest run of an ALLOC is `lowestRun_eq_some`, the leaves of a FREE follow `State.covers_zeroJob`, and
the ranges the zeroing engine clears are those of `State.mem_zeroDue_iff`. -/
theorem allocationsAndZeroing : Obligations.AllocationsAndZeroing := ⟨allocAnswersClause, freeReleasesClause, zeroingEndsClause⟩

end Sys2Proof.Machine
end

section
/-! PROOFS. MIGRATE_HINT and the arrival of a migrating leaf (14; R571, R685, R694 to R701). -/

namespace Sys2Proof.Machine

variable {s t u w : State} {q : QNum} {r : RingNum} {e : Entry} {a : Addr} {h : Hint}

/-! ### What a hint's service reads -/

/-- `t` holds what the service of a hint of the quire reads in `s`: the entries, who holds which leaf and what it holds, the
UNIFIED mappings and the runs. -/
structure State.SameTiers (q : QNum) (s t : State) : Prop where
  vals : t.dict.vals = s.dict.vals
  sku : t.sku = s.sku
  rings : s.RingsOnly t
  unified : (t.quire q).unified = (s.quire q).unified
  runs : (t.quire q).runs = (s.quire q).runs

namespace State.SameTiers

theorem trans (h : s.SameTiers q t) (h' : t.SameTiers q u) : s.SameTiers q u :=
  ⟨h'.vals.trans h.vals, h'.sku.trans h.sku, h.rings.trans h'.rings, h'.unified.trans h.unified, h'.runs.trans h.runs⟩

theorem rd (h : s.SameTiers q t) (k : Nat) : t.rd k = s.rd k := State.rd_of_vals h.vals h.sku k

theorem usedT1 (h : s.SameTiers q t) : t.usedT1 q = s.usedT1 q := by rw [State.usedT1, h.rings.extents, State.usedT1]

theorem usedT2 (h : s.SameTiers q t) : t.usedT2 q = s.usedT2 q := by rw [State.usedT2, h.rings.extents, State.usedT2]

theorem isXo (h : s.SameTiers q t) (p : Place) (n : Nat) : t.isXo p n = s.isXo p n := by
  rw [State.isXo, h.rings.frame, State.isXo]

theorem uPinned (h : s.SameTiers q t) (n : Nat) : t.uPinned q n = s.uPinned q n := by
  simp only [State.uPinned, State.leavesBound, h.runs]

theorem pickOne (h : s.SameTiers q t) (p : Place) : t.pickOne p = s.pickOne p := by
  have hlimit : t.placeLeaves p = s.placeLeaves p := by
    cases p
    · rfl
    · show 1985 - t.tiers.poolLeaves = 1985 - s.tiers.poolLeaves
      rw [h.rings.frame]
    · exact h.rd _
  simp only [State.pickOne, State.pickLeaves, State.extentsOf, hlimit, h.rings.extents]

theorem addHint (s : State) (q : QNum) (h : Hint) : s.SameTiers q (s.addHint q h) := by
  refine ⟨rfl, rfl, .of_tiers rfl, ?_, ?_⟩ <;> rw [State.addHint, State.modQuire_quire]

theorem dropHints (s : State) (q : QNum) (l : List Hint) : s.SameTiers q (s.modQuire q fun x => { x with hints := l }) := by
  refine ⟨rfl, rfl, .of_tiers rfl, ?_, ?_⟩ <;> rw [State.modQuire_quire]

theorem finishNow (s : State) (q : QNum) (r : RingNum) (e : Entry) (status detail result : Nat) :
    s.SameTiers q (s.finishNow q r e status detail result) := by
  have hbooks := s.finishNow_keepsBooks q r e status detail result
  refine ⟨by rw [hbooks.dict], hbooks.sku, .finishNow s q r e status detail result, ?_, ?_⟩ <;>
    rw [(s.finishNow_entryEnded q r e status detail result).frame]

end State.SameTiers

/-! ### The service of hints (R698) -/

/-- Without a hint nothing is served. -/
theorem State.serveHints_of_none (h : (s.quire q).hints = []) : ∃ v : State, s.serveHints q = v ∧
    v = { s with quires := v.quires } ∧ v.quire q = s.quire q := by
  unfold State.serveHints
  split
  · exact ⟨s, rfl, rfl, rfl⟩
  · have hnil : ((List.range 5).flatMap fun r => (s.quire q).hints.filter fun h => h.rank == r) = [] := by
      rw [h]
      rfl
    dsimp only
    rw [hnil, List.foldl_nil]
    refine ⟨_, rfl, rfl, ?_⟩
    rw [State.modQuire_quire, State.modQuire_quire]
    show { s.quire q with hints := [] } = s.quire q
    rw [← h]

theorem Hint.rank_lt (h : Hint) : h.rank < 5 := by
  unfold Hint.rank
  split
  · decide
  · split <;> omega

/-- What one hint's service leaves of it is what the quire's hints are afterwards. -/
theorem State.serveHints_of_one (hstate : (s.quire q).state ≠ .resetting) (hhints : (s.quire q).hints = [h])
    (hpassed : h.passed = []) : s.serveHints q =
      let w := s.modQuire q fun x => { x with hints := [] }
      let p := if h.promote then w.tryPromote q h else w.tryDemote q h
      p.1.modQuire q fun x => { x with hints := p.2.toList } := by
  have hrank : ((List.range 5).flatMap fun r => [h].filter fun h => h.rank == r) = [h] := by
    have hlt := h.rank_lt
    generalize hr : h.rank = n at hlt
    have hfilter : ∀ r, ([h].filter fun h => h.rank == r) = if n = r then [h] else [] := fun r => by
      rw [List.filter_singleton, hr]
      cases hn : n == r with
      | true => rw [if_pos (beq_iff_eq.1 hn)]; rfl
      | false => rw [if_neg (beq_eq_false_iff_ne.1 hn)]; rfl
    simp only [hfilter]
    interval_cases n <;> rfl
  have hwaits : ∀ v : State, v.hintWaits q h = false := fun v => by
    rw [State.hintWaits, hpassed]
    rfl
  unfold State.serveHints
  rw [if_neg hstate, hhints]
  dsimp only
  rw [hrank, List.foldl_cons, List.foldl_nil, hwaits]
  rfl

theorem completes_to {status detail result : Nat} (h : Completes s u q e status detail result)
    (hctr : (t.quire q).ctrCompleted = (u.quire q).ctrCompleted) (hout : t.out = u.out) :
    Completes s t q e status detail result := by
  obtain ⟨hcount, l, hl⟩ := h
  exact ⟨hctr.trans hcount, l, hout.trans hl⟩

/-! ### MIGRATE_HINT (R571, R695 to R699) -/

/-- The range is of a slipcase in T3. -/
def Addr.isT3 (a : Addr) : Bool := match a.form with
  | .t3 _ => true
  | _ => false

/-- The hints of a range are taken, its T3 leaves sensed. -/
def State.takeHints (s : State) (q : QNum) (e : Entry) (a : Addr) : State :=
  (List.range (fieldLe e.bytes 16 4)).foldl
    (fun s i => s.hintLeaf q (a.advance i) (fieldLe e.bytes 20 1) (fieldLe e.bytes 21 1))
    (if fieldLe e.bytes 20 1 = 1 then s.senseT3 q a (fieldLe e.bytes 16 4) else s)

theorem migrateHint_of_startable (hstart : s.startable q r 0x07 = some e) (ha : addrOf (fieldLe e.bytes 8 8) = some a)
    (hown : s.firstForeign q a (fieldLe e.bytes 16 4) false = none) : migrateHint q r s =
      if a.isT3 && fieldLe e.bytes 20 1 == 1 &&
          (List.range (fieldLe e.bytes 16 4)).any (fun i => s.locXo (s.resolve q (a.advance i))) then
        s.freezeEntry q e FC.xo
      else ((s.takeHints q e a).finishNow q r e CS.ok).serveHints q := by
  unfold migrateHint
  rw [hstart]
  dsimp only
  rw [ha]
  dsimp only
  rw [hown]
  rfl

/-- Where the range takes no hint, the entry completes and nothing else happens. -/
theorem migrateHint_of_idle (hroom : CqRoom s q) (hnone : (s.quire q).hints = [])
    (heq : migrateHint q r s = (s.finishNow q r e CS.ok).serveHints q) : ∃ t, exec (.migrateHint q r) s = .next t ∧
      Completes s t q e CS.ok 0 0 ∧ t.tiers.extents = s.tiers.extents ∧ (∀ y n, t.leaf y n = s.leaf y n) ∧
      (t.quire q).unified = (s.quire q).unified ∧ (t.quire q).hints = [] := by
  have hdone := s.finishNow_completes q r e CS.ok 0 0 hroom
  have hsame := State.SameTiers.finishNow s q r e CS.ok 0 0
  have hhints : ((s.finishNow q r e CS.ok).quire q).hints = [] := by
    rw [(s.finishNow_entryEnded q r e CS.ok 0 0).frame]
    exact hnone
  obtain ⟨v, hv, hframe, hquire⟩ := State.serveHints_of_none hhints
  have hrings : s.RingsOnly v := hsame.rings.trans (.of_tiers (by rw [hframe]))
  exact ⟨v, congrArg Host.Outcome.next (heq.trans hv), completes_to hdone (by rw [hquire]) (by rw [hframe]), hrings.extents,
    hrings.leaf, by rw [hquire, hsame.unified], by rw [hquire, hhints]⟩

/-- The state in which a lone hint is tried: the entry has completed, the hint is taken from the list. -/
def State.triedFrom (s : State) (q : QNum) (r : RingNum) (e : Entry) (h : Hint) : State :=
  ((s.addHint q h).finishNow q r e CS.ok).modQuire q fun x => { x with hints := [] }

theorem State.triedFrom_facts (hroom : CqRoom s q) (r : RingNum) (e : Entry) (h : Hint) :
    s.SameTiers q (s.triedFrom q r e h) ∧ Completes s (s.triedFrom q r e h) q e CS.ok 0 0 ∧
      ((s.triedFrom q r e h).quire q).hints = [] := by
  have hadd : s.SameCq (s.addHint q h) q := by
    refine ⟨?_, ?_, ?_, ?_, ?_, rfl, rfl, rfl, rfl⟩ <;> rw [State.addHint, State.modQuire_quire]
  refine ⟨?_, completes_to (hadd.finishNow hroom r e CS.ok 0 0) ?_ (State.modQuire_out _ _ _), ?_⟩
  · exact ((State.SameTiers.addHint s q h).trans (.finishNow _ q r e CS.ok 0 0)).trans (.dropHints _ q [])
  · rw [State.triedFrom, State.modQuire_quire]
  · rw [State.triedFrom, State.modQuire_quire]

theorem State.serveHints_triedFrom (hstart : (s.quire q).state = .running ∨ (s.quire q).state = .enabled)
    (hnone : (s.quire q).hints = []) (hpassed : h.passed = []) : ((s.addHint q h).finishNow q r e CS.ok).serveHints q =
      let p := if h.promote then (s.triedFrom q r e h).tryPromote q h else (s.triedFrom q r e h).tryDemote q h
      p.1.modQuire q fun x => { x with hints := p.2.toList } := by
  have hended := (s.addHint q h).finishNow_entryEnded q r e CS.ok 0 0
  have hadd : ((s.addHint q h).quire q) = { s.quire q with hints := [h] } := by
    rw [State.addHint, State.modQuire_quire, hnone]
    rfl
  have hstate : (((s.addHint q h).finishNow q r e CS.ok).quire q).state ≠ .resetting := by
    rcases hended.state (by rw [hadd]; exact hstart) with hs | hs <;> rw [hs] <;> decide
  have hhints : (((s.addHint q h).finishNow q r e CS.ok).quire q).hints = [h] := by
    rw [hended.frame, hadd]
  exact State.serveHints_of_one hstate hhints hpassed

section
variable {x : ULeaf} (hfind : Tab.find (w.quire q).unified h.leaf = some x)
include hfind

theorem State.tryPromote_of_room {src dst : Nat} (hhome : x.home = .t2 src)
    (hroom : w.usedT1 q < w.rd (Key.qQuota q 1)) (hdst : w.pickOne .commons = some dst) : w.tryPromote q h =
      ((w.addExtent { place := .commons, first := dst, count := 1, use := .home q }).setU q h.leaf
        (some { x with home := .toCommons src dst }), none) := by
  have hmove : w.startMove q h.leaf true =
      some ((w.addExtent { place := .commons, first := dst, count := 1, use := .home q }).setU q h.leaf
        (some { x with home := .toCommons src dst })) := by
    unfold State.startMove
    rw [hfind]
    dsimp only
    rw [hhome]
    dsimp only
    rw [hdst]
    rfl
  unfold State.tryPromote
  rw [hfind]
  dsimp only
  rw [hhome]
  dsimp only
  rw [if_pos (by omega), hmove]

section
variable {n : Nat} (hhome : x.home = .commons n) (hpin : w.uPinned q h.leaf = false)
include hhome hpin

theorem State.tryDemote_of_room {dst : Nat} (hxo : w.isXo .commons n = false)
    (hroom : w.usedT2 q < w.rd (Key.qQuota q 2)) (hdst : w.pickOne .t2 = some dst) : w.tryDemote q h =
      ((w.addExtent { place := .t2, first := dst, count := 1, use := .home q }).setU q h.leaf
        (some { x with home := .toT2 n dst }), none) := by
  have hmove : w.startMove q h.leaf false =
      some ((w.addExtent { place := .t2, first := dst, count := 1, use := .home q }).setU q h.leaf
        (some { x with home := .toT2 n dst })) := by
    unfold State.startMove
    rw [hfind]
    dsimp only
    rw [hhome]
    dsimp only
    rw [hdst]
    rfl
  unfold State.tryDemote
  rw [hfind]
  dsimp only
  rw [hhome]
  dsimp only
  rw [if_neg (ne_true_of_eq_false hpin), if_neg, hmove]
  rw [hxo]
  simp only [Bool.false_eq_true, false_or]
  omega

theorem State.tryDemote_of_skip (hskip : w.isXo .commons n = true ∨ w.rd (Key.qQuota q 2) ≤ w.usedT2 q) :
    w.tryDemote q h = (w.skipTm q, none) := by
  unfold State.tryDemote
  rw [hfind]
  dsimp only
  rw [hhome]
  dsimp only
  rw [if_neg (ne_true_of_eq_false hpin), if_pos]
  exact hskip.imp id fun hle => Nat.sub_eq_zero_of_le hle

end

end

/-- A leaf that sets out: its mapping names both homes, the place it goes to is the quire's. -/
def State.setOut (w : State) (q : QNum) (n dst : Nat) (p : Place) (x : ULeaf) : State :=
  ((w.addExtent { place := p, first := dst, count := 1, use := .home q }).setU q n (some x)).modQuire q
    fun x => { x with hints := [] }

theorem State.setOut_facts (w : State) (q : QNum) (n dst : Nat) (p : Place) (x : ULeaf) :
    Tab.find ((w.setOut q n dst p x).quire q).unified n = some x ∧ ((w.setOut q n dst p x).quire q).hints = [] ∧
      ((w.setOut q n dst p x).quire q).ctrCompleted = (w.quire q).ctrCompleted ∧ (w.setOut q n dst p x).out = w.out := by
  have hquire : (w.setOut q n dst p x).quire q =
      { w.quire q with unified := Tab.put (w.quire q).unified n (some x), hints := [] } := by
    rw [State.setOut, State.modQuire_quire, State.setU, State.modQuire_quire]
    rfl
  rw [hquire]
  exact ⟨Tab.find_put_self _ _ _, rfl, rfl, rfl⟩

theorem State.maxOf_qTmSkipped (s : State) (q : QNum) : s.maxOf (Key.qTmSkipped q) = 0xFFFFFFFF :=
  s.maxOf_of_card fun sku => by revert q; cases sku <;> decide

theorem State.maxOf_qTmMoved (s : State) (q : QNum) : s.maxOf (Key.qTmPromoted q) = 0xFFFFFFFF ∧
    s.maxOf (Key.qTmDemoted q) = 0xFFFFFFFF :=
  ⟨s.maxOf_of_card fun sku => by revert q; cases sku <;> decide,
    s.maxOf_of_card fun sku => by revert q; cases sku <;> decide⟩

/-- The hint that a MIGRATE_HINT of one leaf makes. -/
def hintOf (e : Entry) (n : Nat) : Hint :=
  { leaf := n, promote := fieldLe e.bytes 20 1 == 1, urgency := fieldLe e.bytes 21 1, demand := false, passed := [] }

theorem State.takeHints_unified {n : Nat} (hcount : fieldLe e.bytes 16 4 = 1) :
    s.takeHints q e { form := .unified, leaf := n } =
      if fieldLe e.bytes 20 1 ≠ 1 ∧ s.uPinned q n then s else s.addHint q (hintOf e n) := by
  have hsense : (if fieldLe e.bytes 20 1 = 1 then s.senseT3 q { form := .unified, leaf := n } (fieldLe e.bytes 16 4) else s) =
      s := ite_self s
  unfold State.takeHints
  rw [hsense, hcount]
  rfl

/-- The quire's state, as an entry of its may start in it. -/
theorem State.state_of_startable {opcode : Nat} (h : s.startable q r opcode = some e) :
    (s.quire q).state = .running ∨ (s.quire q).state = .enabled := by
  unfold State.startable at h
  split at h
  · split at h
    · next hstart =>
      have hcan := hstart.2
      unfold State.canStart at hcan
      simp only [Bool.and_eq_true, Bool.or_eq_true, beq_iff_eq] at hcan
      exact hcan.1.1.1.2.symm
    · cases h
  · cases h

theorem State.resolve_unified {n : Nat} {x : ULeaf} (h : Tab.find (s.quire q).unified n = some x) :
    ∃ p m l, s.resolve q { form := .unified, leaf := n } = .own p m l := by
  unfold State.resolve
  dsimp only
  rw [h]
  dsimp only
  split <;> exact ⟨_, _, _, rfl⟩

theorem State.resolve_t3 {i le : Nat} (hform : a.form = .t3 i) (hheld : s.validHandle q i = some le)
    (h : a.leaf < 32 * (s.lib le).stripes ∧ a.leaf < 2 ^ 28) : s.resolve q a = .t3 le a.leaf := by
  unfold State.resolve
  rw [hform]
  dsimp only
  rw [hheld]
  exact if_pos h

theorem hintsMigrateClause : HintsMigrateClause := by
  intro s q r e a hinv hroom hstart ha hnone count toTier done still
  have hlive := State.lively_of_startable hstart
  have hrun := State.state_of_startable hstart
  have hwf := (s.canonical_iff.2 hinv).dict.vals
  refine ⟨fun p n hp hown => ?_, fun x hform hcount hfind => ?_, fun h le hform hheld hcount hin hin' => ?_⟩
  · have heq := migrateHint_of_startable hstart ha (hp ▸ State.firstForeign_of_allocated hown _)
    have hhints : s.takeHints q e a = s := by
      have hsense : ∀ c, s.senseT3 q a c = s := fun c => hp ▸ State.senseT3_ofPlace s q p n c
      unfold State.takeHints
      rw [hsense, ite_self, hp]
      refine List.foldlRecOn (motive := fun t : State => t = s) _ _ rfl fun t ht i _ => ?_
      rw [ht, Addr.advance_ofPlace]
      cases p <;> rfl
    have ht3 : a.isT3 = false := by
      rw [hp]
      cases p <;> rfl
    rw [ht3, hhints, Bool.false_and, Bool.false_and] at heq
    obtain ⟨t, ht, hdone, hextents, hleaf, -, hh⟩ := migrateHint_of_idle hroom hnone (heq.trans (if_neg Bool.false_ne_true))
    exact ⟨t, ht, hdone, ⟨hextents, hleaf⟩, hh⟩
  · obtain ⟨n, rfl⟩ : ∃ n, a = { form := .unified, leaf := n } := ⟨a.leaf, by rw [← hform]⟩
    have hforeign : s.firstForeign q { form := .unified, leaf := n } count false = none := by
      obtain ⟨p, m, l, hres⟩ := State.resolve_unified hfind
      refine List.find?_eq_none.2 fun i hi => ?_
      rw [hcount] at hi
      rw [Nat.lt_one_iff.1 (List.mem_range.1 hi)]
      show ¬ (match s.resolve q { form := .unified, leaf := n } with
        | .own _ _ _ => false
        | .t3 _ _ => false
        | .t4 _ => false
        | .foreign => true) = true
      rw [hres]
      exact Bool.false_ne_true
    have heq := migrateHint_of_startable hstart ha hforeign
    rw [State.takeHints_unified hcount] at heq
    replace heq := heq.trans (if_neg Bool.false_ne_true)
    have hserve := State.serveHints_triedFrom (r := r) (e := e) (h := hintOf e n) hrun hnone rfl
    obtain ⟨hsame, hdone, hhints⟩ := State.triedFrom_facts hroom r e (hintOf e n)
    generalize s.triedFrom q r e (hintOf e n) = w at hserve hsame hdone hhints
    have hfindw : Tab.find (w.quire q).unified (hintOf e n).leaf = some x := by
      rw [hsame.unified]
      exact hfind
    refine ⟨fun src dst hhome hto hroomT1 hdst => ?_, fun n' hhome hto hpin => ⟨fun dst hxo hroomT2 hdst => ?_,
        fun hskip => ?_⟩,
      fun hpin hto => ?_⟩
    · have hpromote : (hintOf e n).promote = true := beq_iff_eq.2 hto
      have htry := State.tryPromote_of_room hfindw hhome (by rw [hsame.usedT1, hsame.rd]; exact hroomT1)
        (by rw [hsame.pickOne]; exact hdst)
      rw [if_neg fun hc => hc.1 hto, hserve, hpromote, if_pos rfl, htry] at heq
      obtain ⟨hmap, hh, hctr, hout⟩ := w.setOut_facts q n dst .commons { x with home := .toCommons src dst }
      exact ⟨_, congrArg Host.Outcome.next heq, completes_to hdone hctr hout, hmap, hh⟩
    · have hpromote : (hintOf e n).promote = false := beq_eq_false_iff_ne.2 hto
      have htry := State.tryDemote_of_room hfindw hhome (by rw [hsame.uPinned]; exact hpin) (by rw [hsame.isXo]; exact hxo)
        (by rw [hsame.usedT2, hsame.rd]; exact hroomT2) (by rw [hsame.pickOne]; exact hdst)
      rw [if_neg fun hc => ne_true_of_eq_false hpin hc.2, hserve, hpromote, if_neg Bool.false_ne_true, htry] at heq
      obtain ⟨hmap, -, hctr, hout⟩ := w.setOut_facts q n dst .t2 { x with home := .toT2 n' dst }
      exact ⟨_, congrArg Host.Outcome.next heq, completes_to hdone hctr hout, hmap⟩
    · have hpromote : (hintOf e n).promote = false := beq_eq_false_iff_ne.2 hto
      have htry := State.tryDemote_of_skip hfindw hhome (by rw [hsame.uPinned]; exact hpin)
        (by rw [hsame.isXo, hsame.usedT2, hsame.rd]; exact hskip)
      rw [if_neg fun hc => ne_true_of_eq_false hpin hc.2, hserve, hpromote, if_neg Bool.false_ne_true, htry] at heq
      replace heq : migrateHint q r s = (w.skipTm q).modQuire q fun x => { x with hints := [] } := heq
      have hquire : ((w.skipTm q).modQuire q fun x => { x with hints := [] }).quire q = { w.quire q with hints := [] } :=
        State.modQuire_quire _ q _
      have hwfw : valsWf w.sku 0 w.dict.vals = true := by
        rw [hsame.vals, hsame.sku]
        exact hwf
      refine ⟨_, congrArg Host.Outcome.next heq, completes_to hdone (by rw [hquire]) rfl, ?_,
        by rw [hquire]; exact hsame.unified, hsame.rings.extents, hsame.rings.leaf⟩
      exact (State.rd_count_up hwfw (w.maxOf_qTmSkipped q)).trans (by rw [hsame.rd])
    · rw [if_pos ⟨hto, hpin⟩] at heq
      obtain ⟨t, ht, hdone, hextents, hleaf, hunified, -⟩ := migrateHint_of_idle hroom hnone heq
      exact ⟨t, ht, hdone, hunified, hextents, hleaf⟩
  · have hresolve : ∀ i, i < count → s.resolve q (a.advance i) = .t3 le (a.leaf + i) := fun i hi =>
      State.resolve_t3 (a := a.advance i) hform hheld ⟨by show a.leaf + i < _; omega, by show a.leaf + i < _; omega⟩
    have hforeign : s.firstForeign q a count false = none := by
      unfold State.firstForeign
      rw [hform, if_neg (by exact Bool.false_ne_true), List.find?_eq_none]
      intro i hi
      rw [hresolve i (List.mem_range.1 hi)]
      exact Bool.false_ne_true
    have ht3 : a.isT3 = true := by
      unfold Addr.isT3
      rw [hform]
    have heq := migrateHint_of_startable hstart ha hforeign
    refine ⟨fun hto hxo => ?_, fun hto => ?_⟩
    · rw [if_pos] at heq
      · exact ⟨_, congrArg Host.Outcome.next heq, State.freezeEntry_frozenBy hinv hlive e (by decide) (by decide)⟩
      · rw [ht3, beq_iff_eq.2 hto, Bool.true_and, Bool.true_and, List.any_eq_true]
        exact ⟨0, List.mem_range.2 hcount, by rw [hresolve 0 hcount]; exact hxo⟩
    · have hhints : s.takeHints q e a = s := by
        unfold State.takeHints
        rw [if_neg hto]
        refine List.foldlRecOn (motive := fun t : State => t = s) _ _ rfl fun t ht i _ => ?_
        rw [ht]
        unfold State.hintLeaf
        show (match a.form with
          | .unified => _
          | .t3 h => _
          | _ => s) = s
        rw [hform]
        exact if_neg hto
      rw [hhints, beq_eq_false_iff_ne.2 hto, Bool.and_false, Bool.false_and, if_neg Bool.false_ne_true] at heq
      obtain ⟨t, ht, hdone, hextents, hleaf, -, -⟩ := migrateHint_of_idle hroom hnone heq
      exact ⟨t, ht, hdone, hextents, hleaf⟩

/-! ### A migrating leaf arrives (R679, R694) -/

/-- `t` differs from `s` in its quires and its tiers alone. -/
structure State.TiersMoved (s t : State) : Prop where
  frame : t = { s with quires := t.quires, tiers := t.tiers }

theorem State.TiersMoved.trans (h : s.TiersMoved t) (h' : t.TiersMoved u) : s.TiersMoved u := ⟨by rw [h'.frame, h.frame]⟩

theorem State.setLeaf_moved (s : State) (p : Place) (n : Nat) (f : Mem) : s.TiersMoved (s.setLeaf p n f) := by
  cases p <;> exact ⟨rfl⟩

theorem State.zeroJob_moved (s : State) (q : QNum) (p : Place) (n count : Nat) :
    s.TiersMoved (s.zeroJob q false [(p, n, count)]) := by
  rw [State.zeroJob_one]
  exact ⟨rfl⟩

theorem State.zeroJob_leaf (s : State) (q : QNum) (p : Place) (n count : Nat) (y : Place) (m : Nat) :
    (s.zeroJob q false [(p, n, count)]).leaf y m = s.leaf y m := by
  rw [State.zeroJob_one]
  cases y <;> rfl

theorem State.zeroJob_quires (s : State) (q : QNum) (p : Place) (n count : Nat) :
    (s.zeroJob q false [(p, n, count)]).quires = s.quires := by
  rw [State.zeroJob_one]
  rfl

/-- The state after a frame has moved from one place to the other, its old leaf given to the zeroing engine. -/
def State.arrived (s : State) (q : QNum) (n : Nat) (u : ULeaf) (p y : Place) (src dst : Nat) : State :=
  ((s.setLeaf p dst (s.leaf y src)).setU q n (some u)).zeroJob q false [(y, src, 1)]

theorem State.arrived_facts (hwf : s.LeavesWf) (n : Nat) (x : ULeaf) (p y : Place) (src dst : Nat) :
    s.TiersMoved (s.arrived q n x p y src dst) ∧ (s.arrived q n x p y src dst).unzeroed y src 1 = true ∧
      (s.arrived q n x p y src dst).quire q = { s.quire q with unified := Tab.put (s.quire q).unified n (some x) } ∧
      ∀ z m, (s.arrived q n x p y src dst).leaf z m = if z = p ∧ m = dst then s.leaf y src else s.leaf z m := by
  have hset := s.setLeaf_moved p dst (s.leaf y src)
  have hleaf := fun z m => State.leaf_setLeaf hwf (hwf.leaf y src) p z dst m
  have hquires : (s.setLeaf p dst (s.leaf y src)).quires = s.quires := by cases p <;> rfl
  unfold State.arrived
  generalize s.setLeaf p dst (s.leaf y src) = v at hset hleaf hquires
  have hmap : v.TiersMoved (v.setU q n (some x)) := ⟨rfl⟩
  refine ⟨(hset.trans hmap).trans (State.zeroJob_moved _ q y src 1),
    State.unzeroed_zeroJob _ q y ⟨Nat.le_refl _, Nat.lt_succ_self _⟩, ?_, fun z m => ?_⟩
  · rw [State.quire_of_quires (State.zeroJob_quires _ q y src 1), State.setU, State.modQuire_quire,
      State.quire_of_quires hquires]
  · rw [State.zeroJob_leaf]
    have hkept : (v.setU q n (some x)).leaf z m = v.leaf z m := by cases z <;> rfl
    rw [hkept, hleaf, State.frame_leaf hwf]

/-- A leaf arrives: the move is counted, and no hint is there to be served. -/
theorem State.arrival (hinv : Inv s) (n : Nat) (x : ULeaf) (p y : Place) (src dst : Nat) {key : Nat}
    (hmax : ∀ v : State, v.maxOf key = 0xFFFFFFFF) (hnone : (s.quire q).hints = []) : ∃ t,
    ((s.arrived q n x p y src dst).count key).serveHints q = t ∧ t.leaf p dst = s.leaf y src ∧
      Tab.find (t.quire q).unified n = some x ∧ t.unzeroed y src 1 = true ∧
      t.rd key = min (s.rd key + 1) 0xFFFFFFFF ∧ (∀ z m, ¬ (z = p ∧ m = dst) → t.leaf z m = s.leaf z m) ∧
      t.bays = s.bays ∧ t.nv = s.nv ∧ t.out = s.out := by
  obtain ⟨hmoved, hunz, hquire, hleaf⟩ := State.arrived_facts (q := q) (State.leavesWf_of_inv hinv) n x p y src dst
  have hwf := (s.canonical_iff.2 hinv).dict.vals
  generalize s.arrived q n x p y src dst = v at *
  have hwfv : valsWf v.sku 0 v.dict.vals = true := by
    rw [hmoved.frame]
    exact hwf
  obtain ⟨t, ht, hframe, hsame⟩ := State.serveHints_of_none (s := v.count key) (q := q) (by
    rw [State.quire_of_quires (v.count_quires _ _), hquire]
    exact hnone)
  have htiers : t.tiers = v.tiers := by rw [hframe]; rfl
  refine ⟨t, ht, ?_, ?_, ?_, ?_, fun z m hm => ?_, ?_⟩
  · rw [State.leaf_of_tiers htiers, hleaf, if_pos ⟨rfl, rfl⟩]
  · rw [hsame, State.quire_of_quires (v.count_quires _ _), hquire]
    exact Tab.find_put_self _ _ _
  · unfold State.unzeroed State.extentsOf at hunz ⊢
    rw [htiers]
    exact hunz
  · have hrd : t.rd key = (v.count key).rd key := by rw [hframe]; rfl
    have hrdv : v.rd key = s.rd key := State.rd_of_vals (by rw [hmoved.frame]) (by rw [hmoved.frame]) key
    rw [hrd, State.rd_count_up hwfv (hmax v), hrdv]
  · rw [State.leaf_of_tiers htiers, hleaf, if_neg hm]
  · rw [hframe]
    show v.bays = _ ∧ v.nv = _ ∧ v.out = _
    rw [hmoved.frame]
    exact ⟨rfl, rfl, rfl⟩

theorem migrationArrivesClause : MigrationArrivesClause := by
  intro s q n u hinv hfind hnone src dst
  have heq : ∀ home, u.home = home → tmMoveComplete q n s = (match home with
      | .toCommons src dst =>
        if s.unzeroed .commons dst 1 then s
        else ((s.arrived q n { u with home := .commons dst } .commons .t2 src dst).count (Key.qTmPromoted q)).serveHints q
      | .toT2 src dst =>
        if s.unzeroed .t2 dst 1 then s
        else ((s.arrived q n { u with home := .t2 dst } .t2 .commons src dst).count (Key.qTmDemoted q)).serveHints q
      | _ => s) := by
    rintro home hhome
    unfold tmMoveComplete
    rw [hfind]
    dsimp only
    rw [hhome]
    rfl
  refine ⟨fun hhome => ⟨fun hwait => ?_, fun hready => ?_⟩, fun hhome => ⟨fun hwait => ?_, fun hready => ?_⟩⟩
  · exact congrArg Host.Outcome.next ((heq _ hhome).trans (if_pos hwait))
  · obtain ⟨t, ht, hfacts⟩ := State.arrival (q := q) hinv n { u with home := .commons dst } .commons .t2 src dst
      (fun v => (v.maxOf_qTmMoved q).1) hnone
    exact ⟨t, congrArg Host.Outcome.next (((heq _ hhome).trans (if_neg (ne_true_of_eq_false hready))).trans ht), hfacts⟩
  · exact congrArg Host.Outcome.next ((heq _ hhome).trans (if_pos hwait))
  · obtain ⟨t, ht, hfacts⟩ := State.arrival (q := q) hinv n { u with home := .t2 dst } .t2 .commons src dst
      (fun v => (v.maxOf_qTmMoved q).2) hnone
    exact ⟨t, congrArg Host.Outcome.next (((heq _ hhome).trans (if_neg (ne_true_of_eq_false hready))).trans ht), hfacts⟩

/-- Settles O38: a lone hint is tried in `State.triedFrom`, which holds what it reads in the state before; an arrival is
`State.arrived` with its count. -/
theorem tierMigration : Obligations.TierMigration := ⟨hintsMigrateClause, migrationArrivesClause⟩

end Sys2Proof.Machine
end

section
/-! PROOFS. A MOV_OUT to a leaf whose number no tier address has room for (08, 14; R372, R664): the leaf is not written. -/

namespace Sys2Proof.Machine

/-- Leaves from leaf 5 of slice B0 on, more than a slice address can number. -/
def longBind : Binding :=
  { kind := 2, bflags := 1, value := 65537, addr := ({ form := .slice 0, leaf := 5 } : Addr).encode }

/-- MOV_OUT of slot 0 to leaf 65,536 of the binding. -/
def longMove : Nat := 2 ^ 104 + 6 * 2 ^ 100 + 2 * 2 ^ 88 + 2 ^ 72

def longHeader : ImpHeader :=
  { hflags := 0, bays := 1, epochStart := 0, wakeBudget := 0, bindings := 1, stitches := 0, t0Slots := 64, t1Slice := 0,
    t1Commons := 0, compiledStep := 0, nominal := 1000, hardBound := 2000, streamSlots := 0, weaveGap := 0, bgMask := 0,
    specStage := 0, armCount := 0, streamStart := [0], streamCount := [1], fallback := [] }

def longRun : Run :=
  { id := 0, entry := { seq := 0, ring := 0, slot := 0, headAfter := 1, bytes := [] }, handle := 0, impNo := 0, bays := [0],
    hdr := longHeader, entries := [BitVec.ofNat 128 longMove, 0], arms := [], binds := [longBind], live := true,
    slipCycles := 0, slips := 0, slipping := none, fork := none, fallback := false, ioError := false, deadline := false,
    scopes := [], rangeTags := [], rangeIds := [], ranges := [], specLeaves := [] }

/-- Q0 runs `longRun` in B0, a byte in slot 0, and holds leaf 65,541 of slice B0. -/
def longState : State :=
  ((State.reset.modQuire 0 fun x => { x with runs := [longRun] }).modBay 0 fun x =>
    { x with power := .running, t0 := [(0, 1)], seq := { x.seq with run := some (0, 0) } }).setTiers
      { Tiers.reset with extents := [{ place := .slice 0, first := 65541, count := 1, use := .alloc 0 }] }

def longDue : Due := { q := 0, run := longRun, b := 0, pc := 0, idx := 0, w := longMove, t := 0 }

theorem longState_inv : Inv longState := by decide +kernel

theorem longState_issues : Issues longState 0 .movOut longDue := by
  refine ⟨?_, ?_, ?_, ?_⟩ <;> decide +kernel

/-- The number wraps to leaf 5, which the quire does not hold, so that nothing is written. -/
theorem longState_leaf : (movOut 0 {} longState).leaf (.slice 0) 65541 = [] ∧ (longState.bay 0).frame 0 = [(0, 1)] := by
  decide +kernel

/-- Refutes O33: an allocation of leaves past the 16 bits of a slice address is not excluded, and a MOV_OUT to such a leaf
goes by its tier address, which names another leaf. -/
theorem not_leafMovesAndStreams : ¬ Obligations.LeafMovesAndStreams := by
  rintro ⟨hmoves, -⟩
  obtain ⟨hbind, -⟩ := hmoves longState 0 longDue longState_inv
  obtain ⟨-, haddr⟩ := hbind longBind rfl
  obtain ⟨-, hslice⟩ := haddr { form := .slice 0, leaf := 5 } (by decide +kernel) rfl (by decide +kernel)
  obtain ⟨-, hout⟩ := hslice rfl (by decide +kernel) (by decide +kernel)
  have htags : (longState.bay 0).tags = [] := by decide +kernel
  have htag : ∀ n, (longState.bay 0).tag n = 0 := fun n => by rw [Bay.tag, htags]; rfl
  obtain ⟨t, ht, -, -, -, -, -, -, hleaf, -⟩ := hout longState_issues (by decide +kernel) htag (by decide +kernel)
  have heq : movOut 0 {} longState = t := Host.Outcome.next.inj ht
  obtain ⟨hnone, hframe⟩ := longState_leaf
  have h := hleaf 0 (by decide +kernel)
  rw [← heq] at h
  have hsame : (movOut 0 {} longState).leaf (.slice 0) 65541 = (longState.bay 0).frame 0 := h
  rw [hnone, hframe] at hsame
  cases hsame

end Sys2Proof.Machine
end

section
/-! PROOFS. The books of the weight store that loads, commits and removals share (12, 13, 15): what the programming of
stripes and the emptying of an entry leave, and how a load or a commit that stands among the started entries ends. -/

namespace Sys2Proof.Machine

variable {s t u : State} {q : QNum}

/-! ### Programming stripes (R624, R640, R656) -/

namespace State.ChangesOnly

variable {ks : List Nat}

theorem refl (ks : List Nat) (s : State) : s.ChangesOnly ks s := s.setNv_changesOnly ks s.nv

theorem setNv (h : s.ChangesOnly ks t) (n : Nv) : s.ChangesOnly ks (t.setNv n) := h.trans (t.setNv_changesOnly ks n)

theorem foldl {α : Type} {f : State → α → State} {l : List α} (h : s.ChangesOnly ks t)
    (hf : ∀ (u : State) (a : α), u.ChangesOnly ks (f u a)) : s.ChangesOnly ks (l.foldl f t) :=
  List.foldlRecOn l f h fun u hu a _ => hu.trans (hf u a)

theorem sku (h : s.ChangesOnly ks t) : t.sku = s.sku := by rw [h.frame]

theorem weave (h : s.ChangesOnly ks t) : t.weave = s.weave := by rw [h.frame]

theorem coreOn (h : s.ChangesOnly ks t) : t.coreOn = s.coreOn := by rw [h.frame]; rfl

/-- Beside the entries listed, such a change writes nothing of the register file. -/
theorem writesOnly {P : Nat → Prop} (h : s.ChangesOnly ks t) (hks : ∀ k ∈ ks, P k) : s.WritesOnly P t where
  quires := h.quires
  out := h.out
  regs := ⟨h.wf, fun hwf k hk => h.rd hwf k fun hmem => hk (hks k hmem)⟩

end State.ChangesOnly

theorem State.wearCheck_changesOnly (ks : List Nat) (s : State) (g k : Nat) : s.ChangesOnly ks (s.wearCheck g k) := by
  unfold State.wearCheck
  dsimp only
  split
  · exact .refl ks s
  · split
    · exact .ite (.refl ks s) (s.setNv_changesOnly ks _)
    · exact .refl ks s

theorem State.eraseBlockAt_changesOnly (ks : List Nat) (s : State) (g k n : Nat) :
    s.ChangesOnly ks (s.eraseBlockAt g k n) :=
  .trans (.setNv (.setNv (s.setNv_changesOnly ks _) _) _) (State.wearCheck_changesOnly ks _ g k)

theorem State.haveErased_changesOnly (ks : List Nat) (s : State) (g k : Nat) : s.ChangesOnly ks (s.haveErased g k) := by
  refine .ite ?_ (.refl ks s)
  split
  · exact s.eraseBlockAt_changesOnly ks g k _
  · exact .refl ks s

theorem State.takeBlock_changesOnly (ks : List Nat) (s : State) (g k : Nat) : s.ChangesOnly ks (s.takeBlock g k).2 := by
  rw [State.takeBlock_eq]
  split
  · exact (s.haveErased_changesOnly ks g k).setNv _
  · exact s.haveErased_changesOnly ks g k

theorem State.openBand_changesOnly (ks : List Nat) (s : State) (g b : Nat) : s.ChangesOnly ks (s.openBand g b) := by
  refine .foldl (.refl ks s) fun t k => ?_
  have htaken := t.takeBlock_changesOnly ks g k
  split
  · next h =>
    rw [h] at htaken
    exact htaken.setNv _
  · next h =>
    rw [h] at htaken
    exact htaken

theorem State.programRow_changesOnly (s : State) (g : Nat) (frames : Mem) :
    s.ChangesOnly [Key.pressBytes] (s.programRow g frames).2 := by
  unfold State.programRow
  split
  · exact .refl _ s
  · next r _ =>
    have hopen : s.ChangesOnly [Key.pressBytes] (if (s.bandOf g (r / 512)).used = 0 then s.openBand g (r / 512) else s) :=
      .ite (s.openBand_changesOnly _ g _) (.refl _ s)
    exact .trans (.foldl (hopen.setNv _) fun t _ => t.setNv_changesOnly _ _) (State.count_changesOnly _ _ (by simp))

theorem State.programFirst_changesOnly (s : State) (e n : Nat) (frames : Mem) :
    s.ChangesOnly [Key.pressBytes] (s.programFirst e n frames) := by
  refine .foldl (.refl _ s) fun t k => ?_
  split
  · next g _ =>
    have hrow := t.programRow_changesOnly g (Mem.slice frames (32 * k * leafBytes) (32 * leafBytes))
    split
    · next h =>
      rw [h] at hrow
      exact hrow.setNv _
    · next h =>
      rw [h] at hrow
      exact hrow
  · exact .refl _ t

/-! ### The library beside the rows of one entry -/

theorem State.wearCheck_entriesKept (s : State) (g k : Nat) : s.EntriesKept (s.wearCheck g k) := by
  unfold State.wearCheck
  dsimp only
  split
  · exact .refl s
  · split
    · unfold State.queueMove
      split
      · exact .refl s
      · exact ⟨rfl⟩
    · exact .refl s

theorem State.eraseBlockAt_entriesKept (s : State) (g k n : Nat) : s.EntriesKept (s.eraseBlockAt g k n) :=
  .trans (.setNv (.setNv (.setNv (.refl s)))) (State.wearCheck_entriesKept _ g k)

theorem State.haveErased_entriesKept (s : State) (g k : Nat) : s.EntriesKept (s.haveErased g k) := by
  unfold State.haveErased
  split
  · split
    · exact s.eraseBlockAt_entriesKept g k _
    · exact .refl s
  · exact .refl s

theorem State.takeBlock_entriesKept (s : State) (g k : Nat) : s.EntriesKept (s.takeBlock g k).2 := by
  rw [State.takeBlock_eq]
  split
  · exact (s.haveErased_entriesKept g k).setNv
  · exact s.haveErased_entriesKept g k

theorem State.openBand_entriesKept (s : State) (g b : Nat) : s.EntriesKept (s.openBand g b) := by
  refine .foldl (.refl s) fun t k => ?_
  have htaken := t.takeBlock_entriesKept g k
  split
  · next h =>
    rw [h] at htaken
    exact htaken.setNv
  · next h =>
    rw [h] at htaken
    exact htaken

theorem State.programRow_entriesKept (s : State) (g : Nat) (frames : Mem) :
    s.EntriesKept (s.programRow g frames).2 := by
  unfold State.programRow
  split
  · exact .refl s
  · next r _ =>
    have hfirst : s.EntriesKept (if (s.bandOf g (r / 512)).used = 0 then s.openBand g (r / 512) else s) := by
      split
      · exact s.openBand_entriesKept g _
      · exact .refl s
    exact .trans (.foldl hfirst.setNv fun t _ => .setNv (.refl t)) ⟨rfl⟩

/-- `t` has the library of `s`, but for the rows of entry `e`. -/
structure State.RowsOnly (e : Nat) (s t : State) : Prop where
  rising : Tab.rising 0 t.nv.lib = true
  self : ∃ rows, t.lib e = { s.lib e with rows := rows }
  other : ∀ y, y ≠ e → t.lib y = s.lib y

theorem State.RowsOnly.refl {e : Nat} (h : Tab.rising 0 s.nv.lib = true) : s.RowsOnly e s := ⟨h, ⟨_, rfl⟩, fun _ _ => rfl⟩

theorem State.RowsOnly.of_entries {e : Nat} (h : s.RowsOnly e t) (h' : t.EntriesKept u) : s.RowsOnly e u := by
  have hlib : ∀ y, u.lib y = t.lib y := fun y => by rw [State.lib, h'.lib, State.lib]
  exact ⟨by rw [h'.lib]; exact h.rising, by rw [hlib]; exact h.self, fun y hy => (hlib y).trans (h.other y hy)⟩

theorem State.RowsOnly.setRows {e : Nat} (h : s.RowsOnly e t) (rows : Tab Nat) :
    s.RowsOnly e (t.setLib e { t.lib e with rows := rows }) := by
  obtain ⟨old, hself⟩ := h.self
  refine ⟨State.setLib_rising h.rising e _, ⟨rows, ?_⟩, fun y hy => ?_⟩
  · rw [State.setLib_lib h.rising, if_pos rfl, hself]
  · rw [State.setLib_lib h.rising, if_neg hy]
    exact h.other y hy

theorem State.programFirst_rowsOnly (hlib : Tab.rising 0 s.nv.lib = true) (e n : Nat) (frames : Mem) :
    s.RowsOnly e (s.programFirst e n frames) :=
  List.foldlRecOn (motive := fun t : State => s.RowsOnly e t) (List.range n) _ (.refl hlib) fun t ht k _ => by
    split
    · next g _ =>
      have hrow := t.programRow_entriesKept g (Mem.slice frames (32 * k * leafBytes) (32 * leafBytes))
      split
      · next h =>
        rw [h] at hrow
        exact (ht.of_entries hrow).setRows _
      · next h =>
        rw [h] at hrow
        exact ht.of_entries hrow
    · exact ht

/-! ### An entry that becomes empty (R639, R693, R762) -/

/-- `t` differs from `s` in the weight store's books, the weave and the tiers alone. -/
structure State.StoreOnly (s t : State) : Prop where
  frame : t = { s with nv := t.nv, weave := t.weave, tiers := t.tiers }

namespace State.StoreOnly

theorem trans (h : s.StoreOnly t) (h' : t.StoreOnly u) : s.StoreOnly u := ⟨by rw [h'.frame, h.frame]⟩

theorem foldl {α : Type} {f : State → α → State} {l : List α} (h : s.StoreOnly t)
    (hf : ∀ (u : State) (a : α), u.StoreOnly (f u a)) : s.StoreOnly (l.foldl f t) :=
  List.foldlRecOn l f h fun u hu a _ => hu.trans (hf u a)

theorem setNv (h : s.StoreOnly t) (n : Nv) : s.StoreOnly (t.setNv n) := h.trans ⟨rfl⟩

theorem setTiers (h : s.StoreOnly t) (n : Tiers) : s.StoreOnly (t.setTiers n) := h.trans ⟨rfl⟩

theorem setWeave (h : s.StoreOnly t) (n : Weave) : s.StoreOnly (t.setWeave n) := h.trans ⟨rfl⟩

theorem quires (h : s.StoreOnly t) : t.quires = s.quires := by rw [h.frame]

theorem dict (h : s.StoreOnly t) : t.dict = s.dict := by rw [h.frame]

theorem sku (h : s.StoreOnly t) : t.sku = s.sku := by rw [h.frame]

theorem out (h : s.StoreOnly t) : t.out = s.out := by rw [h.frame]

theorem writesOnly (P : Nat → Prop) (h : s.StoreOnly t) : s.WritesOnly P t :=
  ⟨h.quires, h.out, .of_eq h.sku (congrArg Dict.vals h.dict)⟩

end State.StoreOnly

theorem State.dirtyBlock_storeOnly (s : State) (g k n : Nat) : s.StoreOnly (s.dirtyBlock g k n) :=
  .setNv (.setNv ⟨rfl⟩ _) _

theorem State.closeBands_storeOnly (s : State) : s.StoreOnly s.closeBands := by
  refine .foldl ⟨rfl⟩ fun t g => .foldl ⟨rfl⟩ fun u b => ?_
  split
  · refine .setNv (.foldl (.foldl (.setNv ⟨rfl⟩ _) fun v d => ?_) fun v k => v.dirtyBlock_storeOnly g k _) _
    exact .foldl ⟨rfl⟩ fun w k => w.dirtyBlock_storeOnly g k _
  · exact ⟨rfl⟩

theorem State.dropCopies_storeOnly (s : State) (f : PoolCopy → Bool) : s.StoreOnly (s.dropCopies f) :=
  .setTiers (.foldl ⟨rfl⟩ fun _ _ => .setTiers (.setTiers ⟨rfl⟩ _) _) _

theorem State.dropAperture_of_unread {e : Nat} (h : Unread s e) : s.StoreOnly (s.dropAperture e) := by
  have hmine : s.weave.aptReads.filter (fun a => a.entry == e) = [] :=
    List.filter_eq_nil_iff.2 fun a ha => by simpa using h a ha
  unfold State.dropAperture
  rw [hmine]
  exact .setWeave ⟨rfl⟩ _

theorem State.emptyEntry_of_unread {e : Nat} (h : Unread s e) : s.StoreOnly (s.emptyEntry e) := by
  have hcleared : s.StoreOnly ((s.setLib e { LibEntry.reset with generation := (s.lib e).generation }).endWorker (.entry e)) :=
    .setNv (.setNv ⟨rfl⟩ _) _
  exact ((hcleared.trans (State.dropAperture_of_unread (by exact h))).trans (State.closeBands_storeOnly _)).trans
    (State.dropCopies_storeOnly _ _)

end Sys2Proof.Machine
end

section
/-! PROOFS. How a started entry of a lively quire ends (06, R269, R277), and how a load does (15, R748, R770). -/

namespace Sys2Proof.Machine

variable {s t u : State} {q : QNum}

/-! ### A started entry of a lively quire completes (R269, R277) -/

theorem State.complete_of_lively (hlive : Lively s q) (hroom : CqRoom s q) (e : Entry) (status detail result : Nat) :
    s.complete q e status detail result = s.writeCq q (answerOf e status detail result) := by
  obtain ⟨hfull, hheld⟩ := hroom
  rw [State.complete]
  dsimp only
  rw [if_neg (by simp [hlive.1, hlive.2]), if_neg (by simp [hfull, hheld])]
  rfl

theorem State.finish_keepsBooks (s : State) (q : QNum) (e : Entry) (status detail result : Nat) :
    s.KeepsBooks (s.finish q e status detail result) :=
  State.KeepsBooks.trans (t := s.modQuire q fun x => { x with started := x.started.filter fun w => w.entry.seq != e.seq })
    ⟨rfl, rfl, rfl⟩ ((State.complete_keepsBooks _ q e status detail result).trans (State.settleQuire_keepsBooks _ q))

theorem State.finish_completes_of_lively (hlive : Lively s q) (hroom : CqRoom s q) (e : Entry) (status detail result : Nat) :
    Completes s (s.finish q e status detail result) q e status detail result := by
  have hdrop := s.modQuire_quire q fun x => { x with started := x.started.filter fun w => w.entry.seq != e.seq }
  unfold State.finish
  generalize hv : (s.modQuire q fun x => { x with started := x.started.filter fun w => w.entry.seq != e.seq }) = v at hdrop
  have hrd : ∀ k, v.rd k = s.rd k := fun k => by rw [← hv]; rfl
  have hout : v.out = s.out := by rw [← hv]; rfl
  have hvroom : CqRoom v q := by
    rw [CqRoom, State.cqFull, hdrop, hrd]
    exact hroom
  have hvlive : Lively v q := by
    rw [Lively, hdrop]
    exact hlive
  rw [State.complete_of_lively hvlive hvroom]
  obtain ⟨hcount, l, hl⟩ := v.writeCq_completes q e status detail result
  rw [hdrop] at hcount hl
  rw [hrd, hrd, hout] at hl
  exact ⟨(State.settleQuire_ctrCompleted _ q).trans hcount, l, (State.settleQuire_out _ q).trans hl⟩

/-- A change that leaves the quires, what was sent, and the entries a completion reads. -/
theorem State.SameCq.of_writesOnly {P : Nat → Prop} (hwf : valsWf s.sku 0 s.dict.vals = true)
    (hP : ∀ k ∈ [Key.qCqSize q, Key.qCqBase q, Key.qPasid q], ¬ P k) (h : s.WritesOnly P t) : s.SameCq t q := by
  have hquire := State.quire_of_quires h.quires q
  constructor
  case out => exact h.out
  case cqBase | cqSize | pasid => exact h.regs.rd hwf _ (hP _ (by simp))
  all_goals rw [hquire]

theorem State.SameCq.finish (h : s.SameCq t q) (hroom : CqRoom s q) (hlive : Lively t q) (e : Entry)
    (status detail result : Nat) : Completes s (t.finish q e status detail result) q e status detail result :=
  h.completes (State.finish_completes_of_lively hlive (h.room hroom) ..)

/-! ### The end of a load (R748, R770) -/

theorem State.dropLoad_writesOnly (P : Nat → Prop) (s : State) (l : Load) : s.WritesOnly P (s.dropLoad l) :=
  ⟨rfl, rfl, .of_eq rfl rfl⟩

/-- A load that ends after changes beside the completion's entries and the report's ends so as seen from before them. -/
theorem State.endLoad_loadEnds {P : Nat → Prop} {l : Load} (hwf : valsWf s.sku 0 s.dict.vals = true)
    (hwrites : s.WritesOnly P t) (hplain : ∀ k ∈ [Key.qCqSize l.quire, Key.qCqBase l.quire, Key.qPasid l.quire], ¬ P k)
    (hreports : ∀ k, isReportOf l.quire k → ¬ P k) (hlive : Lively s l.quire) (hroom : CqRoom s l.quire) {status : Nat}
    (hst : status < 256) (variant entry : Nat) (x : Short) (chunks ms result : Nat) :
    let v := t.endLoad l status variant entry x chunks ms result
    LoadEnds s v l.quire l.entry status result ∧ v.nv = (t.dropLoad l).nv ∧
      ∀ k, ¬ isReportOf l.quire k → v.rd k = t.rd k := by
  have hdrop := State.dropLoad_writesOnly P t l
  have hwf' : valsWf (t.dropLoad l).sku 0 (t.dropLoad l).dict.vals = true := (hwrites.trans hdrop).regs.wf hwf
  have hreport := State.report_writesOnly (t.dropLoad l) l.quire status variant entry x chunks ms
  have hnv : ((t.dropLoad l).report l.quire status variant entry x chunks ms).nv = (t.dropLoad l).nv := rfl
  have hstatus := State.report_rd_status (t.dropLoad l) l.quire status variant entry x chunks ms hwf' hst
  have hcount := State.report_rd_counter (t.dropLoad l) l.quire status variant entry x chunks ms hwf'
  have hall : s.WritesOnly (fun k => P k ∨ isReportOf l.quire k)
      ((t.dropLoad l).report l.quire status variant entry x chunks ms) :=
    ((hwrites.trans hdrop).mono fun _ => .inl).trans (hreport.mono fun _ => .inr)
  have hbefore : ∀ k, isReportOf l.quire k → (t.dropLoad l).rd k = s.rd k := fun k hk =>
    (hwrites.trans hdrop).regs.rd hwf k (hreports k hk)
  have hquire := State.quire_of_quires hall.quires l.quire
  have hlive' : Lively ((t.dropLoad l).report l.quire status variant entry x chunks ms) l.quire := by
    rw [Lively, hquire]
    exact hlive
  have hseen := State.SameCq.of_writesOnly hwf
    (fun k hk => not_or.2 ⟨hplain k hk, (completionKeys_plain l.quire k hk).2⟩) hall
  have hkeys := reportKeys l.quire
  dsimp only at hcount ⊢
  unfold State.endLoad
  have hrd : ∀ k, ¬ isReportOf l.quire k → ((t.dropLoad l).report l.quire status variant entry x chunks ms).rd k = t.rd k :=
    fun k hk => hreport.regs.rd hwf' k hk
  generalize (t.dropLoad l).report l.quire status variant entry x chunks ms = v at hnv hstatus hcount hseen hrd hlive'
  have hend := v.finish_keepsBooks l.quire l.entry status 0 result
  refine ⟨⟨?_, ?_, fun hok => ?_, fun hfail => ?_⟩, hend.nv.trans hnv, fun k hk => ?_⟩
  · exact hseen.finish hroom hlive' ..
  · rw [hend.rd, hstatus]
  · rw [if_pos hok] at hcount
    rw [hend.rd, hcount, hbefore _ (hkeys _ (by simp))]
  · rw [if_neg hfail] at hcount
    rw [hend.rd, hcount, hbefore _ (hkeys _ (by simp))]
  · rw [hend.rd, hrd k hk]

theorem State.lib_of_nv (h : t.nv = s.nv) (n : Nat) : t.lib n = s.lib n := by rw [State.lib, h, State.lib]

theorem State.dropLoad_lib (s : State) (l : Load) (n : Nat) : (s.dropLoad l).lib n = s.lib n := rfl

theorem State.fresh_lib (s : State) (n : Nat) : s.fresh.2.lib n = s.lib n := rfl

/-- An emptied entry keeps its generation; the others stay. -/
theorem State.emptyEntry_lib_self (h : Tab.rising 0 s.nv.lib = true) (e : Nat) :
    (s.emptyEntry e).lib e = { LibEntry.reset with generation := (s.lib e).generation } := by
  rw [State.emptyEntry_lib h, if_pos rfl]
  rfl

theorem State.emptyEntry_lib_other (h : Tab.rising 0 s.nv.lib = true) {e y : Nat} (hy : y ≠ e) :
    (s.emptyEntry e).lib y = s.lib y := by
  rw [State.emptyEntry_lib h, if_neg hy]

/-- Stripes programmed and given up again: the entry is empty, the others as they were. -/
theorem State.emptyEntry_of_rowsOnly {e : Nat} (h : s.RowsOnly e t) :
    (t.emptyEntry e).lib e = { LibEntry.reset with generation := (s.lib e).generation } ∧
      ∀ y, y ≠ e → (t.emptyEntry e).lib y = s.lib y := by
  obtain ⟨rows, hself⟩ := h.self
  refine ⟨?_, fun y hy => (State.emptyEntry_lib_other h.rising hy).trans (h.other y hy)⟩
  rw [State.emptyEntry_lib_self h.rising, hself]

/-- Programming counts bytes, which neither a completion nor a report reads. -/
theorem pressBytes_plain (q : QNum) : (∀ k ∈ [Key.qCqSize q, Key.qCqBase q, Key.qPasid q], k ≠ Key.pressBytes) ∧
    ∀ k, isReportOf q k → k ≠ Key.pressBytes := by
  refine ⟨?_, fun k hk => ?_⟩
  · simp only [List.forall_mem_cons, List.not_mem_nil, false_imp_iff, forall_true_iff, and_true, Key.qCqSize, Key.qCqBase,
      Key.qPasid, Key.pressBytes]
    omega
  · simp only [isReportOf, blockIndex] at hk
    unfold Key.pressBytes
    omega

end Sys2Proof.Machine
end

section
/-! PROOFS. Library removals, staging and transfer between two devices (15, R737 to R739, R755 to R763). -/

namespace Sys2Proof.Machine

variable {s t u : State} {q : QNum}

/-! ### The commands' cards -/

def libRemoveCard : Card := ⟨.abs, 0x1804, 0x1804, 0, 0, .cmd 1 0, .cmd, .h, .h, .v, .cold, 0⟩
def peerAcceptCard : Card := ⟨.abs, 0x1808, 0x1808, 0, 0, .cmd 4 100, .cmd, .h, .h, .v, .cold, 0⟩
def peerExportCard : Card := ⟨.abs, 0x1809, 0x1809, 0, 0, .cmd 112 4, .cmd, .h, .h, .v, .cold, 0⟩

theorem cardOf_slipcases (sku : Sku) : cardOf sku 0x1804 0 = some libRemoveCard ∧
    cardOf sku 0x1808 0 = some peerAcceptCard ∧ cardOf sku 0x1809 0 = some peerExportCard := by
  cases sku <;> decide

theorem exec_libRemove_of_write {role : Role} {arg : List Byte} {st : Nat} (hs : Serving s)
    (hallowed : Allowed s role Key.libRemove arg.length) (hwrite : libRemoveWrite (leNat arg) s = (st, t))
    (hst : st ≠ DS.role) : exec (.libRemove role arg) s = .next (t.answer st) :=
  nextOf (dictRequest_highCold hs hallowed (cardOf_slipcases s.sku).1 (by decide) rfl rfl rfl hwrite hst)

theorem exec_peerAccept_of_write {role : Role} {arg : List Byte} {env : Env} {st : Nat} (hs : Serving s)
    (hallowed : Allowed s role Key.peerAccept arg.length) (hwrite : peerAcceptWrite arg env s = (st, t))
    (hst : st ≠ DS.role) : exec (.peerAccept role arg env) s = .next (t.answer st) :=
  nextOf (dictRequest_highCold hs hallowed (cardOf_slipcases s.sku).2.1 (by decide) rfl rfl rfl hwrite hst)

theorem exec_peerExport_of_write {role : Role} {arg : List Byte} {env : Env} {st : Nat} (hs : Serving s)
    (hallowed : Allowed s role Key.peerExport arg.length) (hwrite : peerExportWrite arg env s = (st, t))
    (hst : st ≠ DS.role) : exec (.peerExport role arg env) s = .next (t.answer st) :=
  nextOf (dictRequest_highCold hs hallowed (cardOf_slipcases s.sku).2.2 (by decide) rfl rfl rfl hwrite hst)

/-! ### Removal (R718, R762, R763) -/

theorem libraryRemovalsClause : LibraryRemovalsClause := by
  intro s hinv
  obtain ⟨-, -, htabs⟩ := id hinv
  have hlib := rising_lib_of_tabsRising htabs
  refine ⟨?_, fun n hn => ?_, fun n hn => ?_⟩
  · intro role arg hs hallowed n kept
    refine ⟨fun hn => exec_libRemove_of_write hs hallowed (if_pos hn) (by decide), fun hn hkept => ?_,
      fun hn hkept hidle => ?_⟩
    · refine exec_libRemove_of_write hs hallowed ((if_neg (by exact not_lt.2 hn)).trans (if_pos ?_)) (by decide)
      rwa [Bool.not_eq_true]
    · have hwrite : libRemoveWrite n s =
          (DS.ok, (s.setLib n { s.lib n with removeReq := true }).cmdDone Key.libRemove DS.ok []) := by
        unfold libRemoveWrite
        rw [if_neg (not_lt.2 hn), if_neg (by rwa [Bool.not_eq_true]), State.ifIdle_of_idle _ _ _ hidle]
      have hcmd := (s.setLib n { s.lib n with removeReq := true }).cmdDone_cmd Key.libRemove DS.ok []
      refine ⟨_, exec_libRemove_of_write hs hallowed hwrite (by decide), ?_, fun k hk => ?_, congrArg CmdBlock.state hcmd,
        congrArg CmdBlock.result hcmd, rfl, rfl, rfl⟩
      · exact (State.setLib_lib hlib n n _).trans (if_pos rfl)
      · exact (State.setLib_lib hlib n k _).trans (if_neg hk)
  · have heq : libraryRemoval n s = s.emptyEntry n.val := if_pos hn
    obtain ⟨hquires, hbays, -, -⟩ := (State.Within.emptyEntry (P := { tiers := true, nv := true, dict := true })
      (e := n.val) (.refl s) rfl rfl rfl).units rfl
    refine ⟨_, congrArg Host.Outcome.next heq, State.emptyEntry_lib_self hlib _,
      fun k hk => State.emptyEntry_lib_other hlib hk, hquires, hbays, fun hunread => ?_⟩
    have honly := State.emptyEntry_of_unread hunread
    exact ⟨congrArg Dict.vals honly.dict, honly.out⟩
  · exact congrArg Host.Outcome.next (if_neg (by simp [hn]))

/-! ### Staging (R737 to R739) -/

/-- A chunk read leaves what the load is of, and where it stands. -/
theorem Load.takeChunk_kept (l : Load) (x : LibEntry) (nonce : List Byte) (c : Nat × List Byte × List Byte) :
    (l.takeChunk x nonce c).quire = l.quire ∧ (l.takeChunk x nonce c).entry = l.entry ∧
      (l.takeChunk x nonce c).staged = l.staged ∧ (l.takeChunk x nonce c).lib = l.lib := by
  unfold Load.takeChunk
  dsimp only
  split
  · exact ⟨rfl, rfl, rfl, rfl⟩
  · split <;> exact ⟨rfl, rfl, rfl, rfl⟩

theorem Load.foldl_takeChunk_kept {α : Type} (x : LibEntry) (nonce : List Byte)
    (c : Load → α → Nat × List Byte × List Byte) (l : Load) (is : List α) :
    let m := is.foldl (fun l i => l.takeChunk x nonce (c l i)) l
    m.quire = l.quire ∧ m.entry = l.entry ∧ m.staged = l.staged ∧ m.lib = l.lib :=
  List.foldlRecOn (motive := fun m : Load => m.quire = l.quire ∧ m.entry = l.entry ∧ m.staged = l.staged ∧ m.lib = l.lib) is _
    ⟨rfl, rfl, rfl, rfl⟩ fun m hm i _ => by
      obtain ⟨hq, he, hs, hl⟩ := m.takeChunk_kept x nonce (c m i)
      obtain ⟨hq', he', hs', hl'⟩ := hm
      exact ⟨hq.trans hq', he.trans he', hs.trans hs', hl.trans hl'⟩

/-- Where the first element with `p` is replaced, with those like it, by one with `p`, that is the first then. -/
theorem find?_map_replace {α : Type} {p same : α → Bool} {l : List α} {x y : α} (hfind : l.find? p = some x)
    (hx : same x = true) (hy : p y = true) : (l.map fun m => if same m then y else m).find? p = some y := by
  induction l with
  | nil => cases hfind
  | cons m l ih =>
    rw [List.map_cons, List.find?_cons]
    by_cases hm : same m = true
    · rw [if_pos hm, hy]
    · rw [if_neg hm]
      cases hp : p m with
      | true =>
        rw [List.find?_cons, hp] at hfind
        cases hfind
        exact absurd hx hm
      | false =>
        rw [List.find?_cons, hp] at hfind
        exact ih hfind

/-- The chunks a staged load has read after PRODUCED is seen (R738). -/
def State.producedOf (s : State) (l : Load) : Nat :=
  max l.chunks (min (Mem.readLe s.tiers.staging producedAt 4) l.chunkCount)

theorem State.consumeStaged_of_none (h : (s.nv.loads.find? fun l => l.staged && l.lib.isSome) = none) :
    s.consumeStaged = s := by
  unfold State.consumeStaged
  rw [h]

/-- The load that holds staging reads on, and CONSUMED follows. -/
theorem State.consumeStaged_of_some {l : Load} (h : (s.nv.loads.find? fun l => l.staged && l.lib.isSome) = some l) :
    ∃ loads, s.consumeStaged = (s.setNv { s.nv with loads := loads }).setTiers { s.tiers with
        staging := Mem.writeLe s.tiers.staging consumedAt 4 (s.producedOf l) } ∧
      (loads.find? fun l => l.staged && l.lib.isSome).map Load.chunks = some (s.producedOf l) := by
  have hheld : (l.staged && l.lib.isSome) = true := List.find?_some (p := fun l : Load => l.staged && l.lib.isSome) h
  unfold State.consumeStaged
  rw [h]
  dsimp only
  have hkept := Load.foldl_takeChunk_kept (s.lib (l.lib.getD 0))
    (if l.session.isSome then Mem.readN s.tiers.staging 112 8 else (s.lib (l.lib.getD 0)).nonceBase)
    (fun m => s.stagedChunk m (s.lib (l.lib.getD 0))) l (upFrom l.chunks (s.producedOf l - l.chunks))
  dsimp only at hkept
  unfold State.producedOf at hkept ⊢
  generalize List.foldl _ l _ = m at hkept
  obtain ⟨hquire, hentry, hstaged, hlib⟩ := hkept
  generalize hy : ({ m with chunks := max l.chunks (min (Mem.readLe s.tiers.staging producedAt 4) l.chunkCount) } : Load) = y
  have hlike : l.is y = true := by simp [← hy, Load.is, hquire, hentry]
  have hfirst := find?_map_replace (same := fun x : Load => x.is y) (y := y) h hlike
    (by rw [← hy]; exact (congrArg₂ (fun a (b : Option Nat) => a && b.isSome) hstaged hlib).trans hheld)
  refine ⟨s.nv.loads.map fun x => if x.is y then y else x, by rw [← hy]; rfl, ?_⟩
  rw [hfirst, ← hy]
  rfl

theorem exec_stagingProducedWrite (v : BitVec 32) (s : State) :
    exec (.stagingProducedWrite v) s = .next (stagingProducedWrite v.toNat s) := rfl

theorem exec_stagingTimeout (s : State) : exec .stagingTimeout s = .next (stagingTimeout s) := rfl

theorem stagingAdvancesClause : StagingAdvancesClause := by
  intro s hinv
  obtain ⟨hvals, hmems, htabs⟩ := id hinv
  have hlib := rising_lib_of_tabsRising htabs
  refine ⟨fun v hbar hup hcore hentry hpll => ?_, fun l n hfind hln hunread hroom hlive => ?_⟩
  · have hstaging : Mem.wf s.tiers.staging = true := (s.canonical_iff.2 hinv).tiers.staging
    have hboot : s.boot ≠ .recovery := by
      unfold State.up at hup
      intro hrec
      simp [hrec] at hup
    have hserves : s.ServesBar2 := ⟨hboot, hcore, hentry, hpll⟩
    have htakes : s.bar2Takes producedAt 4 = true := by
      unfold State.bar2Takes
      rw [hbar]
      decide
    have hlt : v.toNat < 256 ^ 4 := by
      have h := v.isLt
      omega
    generalize hw : s.setTiers { s.tiers with staging := Mem.writeLe s.tiers.staging producedAt 4 v.toNat } = w
    have heq : stagingProducedWrite v.toNat s = w.consumeStaged := by
      unfold stagingProducedWrite
      rw [if_pos hup, State.bar2Access_of_serving hserves (by exact htakes)]
      unfold State.bar2Serve State.stagingAccess
      rw [if_pos (by decide), if_pos rfl]
      dsimp only
      rw [if_pos ⟨by decide, by rw [natLe_length]; decide⟩]
      exact congrArg State.consumeStaged hw
    have hread : Mem.readLe w.tiers.staging producedAt 4 = v.toNat := by
      rw [← hw]
      exact (Mem.readLe_writeLe_self hstaging producedAt 4 v.toNat).trans (Nat.mod_eq_of_lt hlt)
    have hwstaging : Mem.wf w.tiers.staging = true := by
      rw [← hw]
      exact Mem.writeLe_wf hstaging
    have hkept : Mem.readLe w.tiers.staging consumedAt 4 = Mem.readLe s.tiers.staging consumedAt 4 := by
      rw [← hw]
      exact Mem.readLe_writeLe_disjoint hstaging _ _ _ _ _ (.inr (by decide))
    have hnv : w.nv = s.nv := by rw [← hw]; rfl
    have hframe : w.dict = s.dict ∧ w.quires = s.quires ∧ w.out = s.out := by rw [← hw]; exact ⟨rfl, rfl, rfl⟩
    obtain ⟨hdict, hquires, hout⟩ := hframe
    refine ⟨_, (exec_stagingProducedWrite v s).trans (congrArg Host.Outcome.next heq), ?_⟩
    cases hfind : w.nv.loads.find? fun l => l.staged && l.lib.isSome with
    | none =>
      rw [State.consumeStaged_of_none hfind]
      refine ⟨hread, fun l hl => ?_, fun _ => ⟨hnv, hkept⟩, congrArg Nv.lib hnv, hdict, hquires, hout⟩
      rw [← hnv, hfind] at hl
      cases hl
    | some l =>
      obtain ⟨loads, hu, hchunks⟩ := State.consumeStaged_of_some hfind
      rw [hu]
      refine ⟨?_, fun k hk hcount hlow hhigh => ?_, fun hnone => ?_,
        (show _ = w.nv.lib from rfl).trans (congrArg Nv.lib hnv), hdict, hquires, hout⟩
      · exact (Mem.readLe_writeLe_disjoint hwstaging _ _ _ _ _ (.inl (by decide))).trans hread
      · rw [← hnv, hfind] at hk
        cases hk
        have hproduced : w.producedOf l = v.toNat := by
          rw [State.producedOf, hread]
          omega
        refine ⟨?_, by rw [← hproduced]; exact hchunks⟩
        refine (Mem.readLe_writeLe_self hwstaging consumedAt 4 _).trans ?_
        rw [hproduced]
        exact Nat.mod_eq_of_lt hlt
      · have hmem := List.mem_of_find?_eq_some hfind
        rw [hnv] at hmem
        have hheld := List.find?_some hfind
        simp [hnone l hmem] at hheld
  · generalize hp : s.programFirst n (l.chunks * chunkBytes / stripeBytes) [] = p
    have hchanges := s.programFirst_changesOnly n (l.chunks * chunkBytes / stripeBytes) []
    have hrows := State.programFirst_rowsOnly hlib n (l.chunks * chunkBytes / stripeBytes) []
    rw [hp] at hchanges hrows
    obtain ⟨hself, hother⟩ := State.emptyEntry_of_rowsOnly hrows
    have hunread' : Unread p n := fun a ha => hunread a (by rwa [hchanges.weave] at ha)
    have hstaged : l.staged = true := by
      have h := List.find?_some hfind
      simp only [Bool.and_eq_true] at h
      exact h.1.1.1
    have hstop : s.stopLoad l = (l.chunks, p.emptyEntry n) := by
      unfold State.stopLoad State.cleanLoad
      rw [hln]
      dsimp only
      rw [if_pos hstaged, hp]
    have hwrites : s.WritesOnly (fun k => k = Key.pressBytes) (p.emptyEntry n).fresh.2 :=
      ((hchanges.writesOnly (by simp)).trans ((State.emptyEntry_of_unread hunread').writesOnly _)).trans
        (State.fresh_writesOnly _ _)
    obtain ⟨hplain, hreports⟩ := pressBytes_plain l.quire
    obtain ⟨hends, hnv, -⟩ := State.endLoad_loadEnds (l := l) hvals hwrites hplain hreports hlive hroom
      (show CS.ioError < 256 by decide) (s.lib (l.lib.getD 0)).variant 0xFF Short.zero l.chunks
      ((p.emptyEntry n).fresh.1 % 2 ^ 32) 0
    have heq : stagingTimeout s = (p.emptyEntry n).fresh.2.endLoad l CS.ioError (s.lib (l.lib.getD 0)).variant 0xFF Short.zero
        l.chunks ((p.emptyEntry n).fresh.1 % 2 ^ 32) 0 := by
      unfold stagingTimeout
      rw [hfind]
      simp only [hstop]
    rw [← heq] at hends hnv
    generalize hv : stagingTimeout s = v at hends hnv
    have hkept : ∀ k, v.lib k = (p.emptyEntry n).lib k := fun k =>
      (State.lib_of_nv hnv k).trans ((State.dropLoad_lib _ l k).trans (State.fresh_lib _ k))
    refine ⟨_, (exec_stagingTimeout s).trans (congrArg Host.Outcome.next hv), hends, ?_, fun k hk => ?_⟩
    · exact (hkept n).trans hself
    · exact (hkept k).trans (hother k hk)

/-! ### Transfer (R724, R755 to R758) -/

theorem peerAcceptClause {role : Role} {arg : List Byte} {env : Env} (hs : Serving s)
    (hallowed : Allowed s role Key.peerAccept arg.length) :
    (7 < fieldLe arg 0 1 ∨ fieldLe arg 1 3 ≠ 0 → exec (.peerAccept role arg env) s = .next (s.answer DS.range)) ∧
    (∀ q : QNum, fieldLe arg 0 1 = q.val → fieldLe arg 1 3 = 0 → s.cmdRunning Key.peerAccept = false → ∃ t,
      exec (.peerAccept role arg env) s = .next t ∧
      t.nv.sessions = s.nv.sessions ++ [{ id := s.nv.nextSession, quire := q, rxKey := scalarOf env.entropy }] ∧
      (t.cmd Key.peerAccept).card = natLe 4 s.nv.nextSession ++ publicKey (scalarOf env.entropy) ∧
      (t.cmd Key.peerAccept).result = DS.ok ∧ t.nv.lib = s.nv.lib ∧ t.out = s.out ++ [.status DS.ok]) := by
  refine ⟨fun h => exec_peerAccept_of_write hs hallowed (dif_neg fun hc => ?_) (by decide), fun q hq hz hidle => ?_⟩
  · exact h.elim (fun h => by omega) fun h => h hc.2
  · have hq8 : fieldLe arg 0 1 < 8 := hq ▸ q.isLt
    obtain rfl : q = ⟨fieldLe arg 0 1, hq8⟩ := Fin.ext hq.symm
    let u := s.setNv { s.nv with
      nextSession := s.nv.nextSession % 0xFFFFFFFF + 1,
      sessions := s.nv.sessions ++
        [{ id := s.nv.nextSession, quire := ⟨fieldLe arg 0 1, hq8⟩, rxKey := scalarOf env.entropy }] }
    have hwrite : peerAcceptWrite arg env s = (DS.ok, u.cmdDone Key.peerAccept DS.ok
        (natLe 4 s.nv.nextSession ++ publicKey (scalarOf env.entropy))) := by
      unfold peerAcceptWrite
      rw [dif_pos ⟨hq8, hz⟩, State.ifIdle_of_idle _ _ _ hidle]
    have hcmd := u.cmdDone_cmd Key.peerAccept DS.ok (natLe 4 s.nv.nextSession ++ publicKey (scalarOf env.entropy))
    exact ⟨_, exec_peerAccept_of_write hs hallowed hwrite (by decide), rfl, congrArg CmdBlock.card hcmd,
      congrArg CmdBlock.result hcmd, rfl, rfl⟩

/-- What an export sends for chunk `i`. -/
def State.chunkWrites (s : State) (e addr : Nat) (key nonce : List Byte) (i : Nat) : List Output :=
  [.peerWrite (addr + 0x400000 + 0x400000 * (i % 7)) (s.transitChunk e key nonce i).1,
    .peerWrite (addr + 0x3FF010 + 16 * (i % 7)) (s.transitChunk e key nonce i).2,
    .peerWrite (addr + 0x3FF000) (natLe 4 (i + 1))]

/-- The chunks sent are those of the state before the first, for sending alone changes nothing they are made of. -/
theorem State.foldl_sendChunk (s : State) (e addr : Nat) (key nonce : List Byte) (l : List Nat) (out : List Output) :
    l.foldl (fun s i => s.sendChunk e addr key nonce i) { s with out := out } =
      { s with out := out ++ l.flatMap (s.chunkWrites e addr key nonce) } := by
  induction l generalizing out with
  | nil => simp
  | cons i l ih =>
    have hsend : ({ s with out := out } : State).sendChunk e addr key nonce i =
        { s with out := out ++ s.chunkWrites e addr key nonce i } := by
      have hchunk : ({ s with out := out } : State).transitChunk e key nonce i = s.transitChunk e key nonce i := rfl
      simp [State.sendChunk, State.emit, State.chunkWrites, hchunk, producedAt]
    rw [List.foldl_cons, hsend, ih, List.flatMap_cons, List.append_assoc]

/-- The sense of the stripes leaves what an export reads. -/
theorem State.SensedTo.transitChunk (h : s.SensedTo t) (e : Nat) (key nonce : List Byte) (i : Nat) :
    t.transitChunk e key nonce i = s.transitChunk e key nonce i := by
  obtain ⟨bands, moves, ckpt, d, j, rfl⟩ := h.frame
  rfl

theorem classId_untouched (n : Nat) (hn : n < 256) : Key.classId n ≠ Key.tlOverRated ∧ Key.classId n ≠ Key.alertCause := by
  unfold Key.classId Key.tlOverRated Key.alertCause
  omega

theorem State.SensedTo.classKeyOf (h : s.SensedTo t) (hwf : valsWf s.sku 0 s.dict.vals = true) (id : Nat) :
    t.classKeyOf id = s.classKeyOf id := by
  have hsec : t.sec = s.sec := by
    obtain ⟨bands, moves, ckpt, d, j, rfl⟩ := h.frame
    rfl
  have hrd : ∀ n < 256, t.rd (Key.classId n) = s.rd (Key.classId n) := fun n hn =>
    h.rd hwf (classId_untouched n hn).1 (classId_untouched n hn).2
  unfold State.classKeyOf
  rw [hsec]
  simp only [List.findSome?_cons, List.findSome?_nil, hrd 1 (by decide), hrd 2 (by decide), hrd 3 (by decide),
    hrd 4 (by decide)]

/-- The header and the signed part go out, then every chunk. -/
def State.sendAll (s : State) (e addr : Nat) (header key nonce : List Byte) (n : Nat) : State :=
  (List.range n).foldl (fun s i => s.sendChunk e addr key nonce i) (s.emit (.peerWrite addr header))

theorem State.sendAll_eq (s : State) (e addr : Nat) (header key nonce : List Byte) (n : Nat) :
    s.sendAll e addr header key nonce n =
      { s with out := s.out ++ Output.peerWrite addr header :: (List.range n).flatMap (s.chunkWrites e addr key nonce) } := by
  refine (State.foldl_sendChunk s e addr key nonce (List.range n) (s.out ++ [.peerWrite addr header])).trans ?_
  rw [List.append_assoc]
  rfl

/-- An export of an entry whose class key the device holds (R756 to R758). -/
def State.exported (s : State) (arg : List Byte) (env : Env) (k : List Byte) : State :=
  let x := s.lib (fieldLe arg 0 1)
  let n := ceilDiv (270336 * x.stripes) 4194304
  ((s.senseStripes (fieldLe arg 0 1) 0 (x.stripes - 1)).sendAll (fieldLe arg 0 1) (fieldLe arg 8 8)
    (transferHeader (fieldLe arg 4 4) x.classId (publicKey (scalarOf (env.entropy / 2 ^ 64))) (env.entropy % 2 ^ 64) ++
        x.signed)
    (transitKey (scalarOf (env.entropy / 2 ^ 64)) (bytesAt arg 16 96) k (fieldLe arg 4 4) x.modelId)
    (natLe 8 (env.entropy % 2 ^ 64)) n).cmdDone Key.peerExport DS.ok (natLe 4 n)

/-- An entry that may be sent to another Q19: an undamaged text block with PEER_OK, installed through a class record or a
transfer (R755). -/
def LibEntry.sendable (x : LibEntry) : Prop :=
  x.installed = true ∧ x.damaged = false ∧ x.kind = 1 ∧ x.peerOk = true ∧ (x.wrap = 2 ∨ x.wrap = 3)

theorem LibEntry.not_sendable_iff (x : LibEntry) :
    ¬ x.sendable ↔ ¬ x.installed ∨ x.damaged ∨ x.kind ≠ 1 ∨ ¬ x.peerOk ∨ (x.wrap ≠ 2 ∧ x.wrap ≠ 3) := by
  simp only [LibEntry.sendable, not_and_or, not_or, Bool.not_eq_true, Bool.not_eq_false, ne_eq]

theorem peerExportWrite_of_unsendable {arg : List Byte} (env : Env)
    (h : ¬ (fieldLe arg 0 1 ≤ 63 ∧ (s.lib (fieldLe arg 0 1)).sendable)) : peerExportWrite arg env s = (DS.state, s) := by
  refine if_pos ?_
  rw [not_and_or, LibEntry.not_sendable_iff, not_le] at h
  exact h

theorem peerExportWrite_of_reserved {arg : List Byte} (env : Env)
    (h : fieldLe arg 0 1 ≤ 63 ∧ (s.lib (fieldLe arg 0 1)).sendable) (hz : fieldLe arg 1 3 ≠ 0) :
    peerExportWrite arg env s = (DS.range, s) := by
  refine (if_neg fun hc => ?_).trans (if_pos hz)
  rw [← LibEntry.not_sendable_iff] at hc
  exact hc.elim (not_lt.2 h.1) fun hc => hc h.2

theorem peerExportWrite_of_sendable {arg : List Byte} (env : Env) {k : List Byte}
    (hwf : valsWf s.sku 0 s.dict.vals = true) (h : fieldLe arg 0 1 ≤ 63 ∧ (s.lib (fieldLe arg 0 1)).sendable)
    (hz : fieldLe arg 1 3 = 0) (hidle : s.cmdRunning Key.peerExport = false)
    (hk : s.classKeyOf (s.lib (fieldLe arg 0 1)).classId = some k) :
    peerExportWrite arg env s = (DS.ok, s.exported arg env k) := by
  have hsense := s.senseStripes_sensedTo (fieldLe arg 0 1) (upFrom 0 ((s.lib (fieldLe arg 0 1)).stripes - 1 + 1 - 0))
  have hkey := hsense.classKeyOf hwf (s.lib (fieldLe arg 0 1)).classId
  rw [hk] at hkey
  unfold peerExportWrite
  dsimp only
  rw [if_neg fun hc => ?_, if_neg (not_not.2 hz), State.ifIdle_of_idle _ _ _ hidle]
  · unfold State.exported State.sendAll State.exportKey State.senseStripes
    dsimp only
    rw [hkey, stripeBytes, chunkBytes]
  · rw [← LibEntry.not_sendable_iff] at hc
    exact hc.elim (not_lt.2 h.1) fun hc => hc h.2

theorem peerExportClause {role : Role} {arg : List Byte} {env : Env} (hs : Serving s) (hinv : Inv s)
    (hallowed : Allowed s role Key.peerExport arg.length) :
    let e := fieldLe arg 0 1
    let x := s.lib e
    let a := fieldLe arg 8 8
    let n := ceilDiv (270336 * x.stripes) 4194304
    let d := scalarOf (env.entropy / 2 ^ 64)
    let nonce := env.entropy % 2 ^ 64
    let may := e ≤ 63 ∧ x.sendable
    (¬ may → exec (.peerExport role arg env) s = .next (s.answer DS.state)) ∧
    (may → fieldLe arg 1 3 ≠ 0 → exec (.peerExport role arg env) s = .next (s.answer DS.range)) ∧
    (∀ k, may → fieldLe arg 1 3 = 0 → s.cmdRunning Key.peerExport = false → s.classKeyOf x.classId = some k → ∃ t,
      exec (.peerExport role arg env) s = .next t ∧
      let key := transitKey d (bytesAt arg 16 96) k (fieldLe arg 4 4) x.modelId
      t.out = s.out ++ Output.peerWrite a (transferHeader (fieldLe arg 4 4) x.classId (publicKey d) nonce ++ x.signed) ::
        ((List.range n).flatMap (s.chunkWrites e a key (natLe 8 nonce))) ++ [.status DS.ok] ∧
      (t.cmd Key.peerExport).card = natLe 4 n ∧ (t.cmd Key.peerExport).result = DS.ok ∧ t.nv.lib = s.nv.lib ∧
      t.nv.otp = s.nv.otp ∧ t.nv.sessions = s.nv.sessions ∧ t.tiers = s.tiers) := by
  intro e x a n d nonce may
  refine ⟨fun h => exec_peerExport_of_write hs hallowed (peerExportWrite_of_unsendable env h) (by decide),
    fun h hz => exec_peerExport_of_write hs hallowed (peerExportWrite_of_reserved env h hz) (by decide),
    fun k h hz hidle hk => ⟨_, exec_peerExport_of_write hs hallowed
      (peerExportWrite_of_sendable env hinv.1 h hz hidle hk) (by decide), ?_⟩⟩
  have hsense := s.senseStripes_sensedTo e (upFrom 0 (x.stripes - 1 + 1 - 0))
  unfold State.exported State.senseStripes
  dsimp only
  generalize List.foldl _ s _ = u at hsense
  have hwrites : ∀ key, u.chunkWrites e a key (natLe 8 nonce) = s.chunkWrites e a key (natLe 8 nonce) := fun key => by
    funext i
    rw [State.chunkWrites, hsense.transitChunk, State.chunkWrites]
  obtain ⟨bands, moves, ckpt, dict, j, hframe⟩ := hsense.frame
  have hkept : u.nv.lib = s.nv.lib ∧ u.nv.otp = s.nv.otp ∧ u.nv.sessions = s.nv.sessions ∧ u.tiers = s.tiers ∧
      u.out = s.out := by
    rw [hframe]
    exact ⟨rfl, rfl, rfl, rfl, rfl⟩
  obtain ⟨hlib, hotp, hsessions, htiers, hout⟩ := hkept
  rw [State.sendAll_eq, hwrites, hout]
  generalize s.out ++ _ :: _ = out
  have hcmd := State.cmdDone_cmd { u with out := out } Key.peerExport DS.ok (natLe 4 n)
  exact ⟨rfl, congrArg CmdBlock.card hcmd, congrArg CmdBlock.result hcmd, hlib, hotp, hsessions, htiers⟩

theorem peerTransfersClause : PeerTransfersClause := fun _ _ _ _ hs hinv =>
  ⟨fun hallowed => peerAcceptClause hs hallowed, fun _ => rfl, fun hallowed => peerExportClause hs hinv hallowed⟩

/-- Settles O43: a removal empties the entry, the load that holds staging follows PRODUCED, and an export sends what the
sense of the stripes leaves as it was. -/
theorem libraryAndTransfers : Obligations.LibraryAndTransfers :=
  ⟨libraryRemovalsClause, stagingAdvancesClause, peerTransfersClause⟩

end Sys2Proof.Machine
end

section
/-! PROOFS. TRAIN_COMMIT: its wait, its checks, and its start (16, R777 to R779). -/

namespace Sys2Proof.Machine

variable {s t u : State} {q : QNum} {r : RingNum} {e : Entry}

/-! ### The books of a commit (R791) -/

/-- Phase, last commit and commit counters of a quire: indices 0xC0 to 0xC2 of its block. -/
def isTrainOf (q : QNum) (k : Nat) : Prop := blockIndex q 0xC0 ≤ k / 256 ∧ k / 256 ≤ blockIndex q 0xC2

theorem trainKeys (q : QNum) : ∀ k ∈ [Key.qTrainLast q, Key.qTrainPhase q, Key.qTrainCommits q, Key.qTrainFailed q],
    isTrainOf q k := by
  simp only [List.forall_mem_cons, List.not_mem_nil, false_imp_iff, forall_true_iff, and_true, isTrainOf, Key.qTrainLast,
    Key.qTrainPhase, Key.qTrainCommits, Key.qTrainFailed, blockIndex]
  omega

theorem trainKeys_distinct (q : QNum) : Key.qTrainCommits q ≠ Key.qTrainFailed q ∧
    (∀ k ∈ [Key.qTrainCommits q, Key.qTrainFailed q], k ≠ Key.qTrainLast q ∧ k ≠ Key.qTrainPhase q) ∧
    Key.qTrainLast q ≠ Key.qTrainPhase q := by
  simp only [List.forall_mem_cons, List.not_mem_nil, false_imp_iff, forall_true_iff, and_true, Key.qTrainLast,
    Key.qTrainPhase, Key.qTrainCommits, Key.qTrainFailed]
  omega

theorem completionKeys_not_train (q : QNum) : ∀ k ∈ [Key.qCqSize q, Key.qCqBase q, Key.qPasid q], ¬ isTrainOf q k := by
  simp only [List.forall_mem_cons, List.not_mem_nil, false_imp_iff, forall_true_iff, and_true, isTrainOf,
    Key.qCqSize, Key.qCqBase, Key.qPasid, blockIndex]
  omega

/-- The card of Q_TRAIN_COMMITS (sub 1) and of Q_TRAIN_FAILED (sub 2). -/
def trainCounterCard (sub : Nat) : Card := ⟨.quire, 0xC2, 0xC2, sub, sub, .uint 4, .ro, .hq, .none, .v, .hot, 0⟩

theorem quireCards_trainCounters :
    (quireCards.filter fun c => c.ixLo == 0xC2) = [trainCounterCard 1, trainCounterCard 2] := by decide

theorem State.maxOf_trainCounter (s : State) (q : QNum) {sub : Nat} (hsub : sub = 1 ∨ sub = 2) :
    s.maxOf (blockIndex q 0xC2 * 256 + sub) = 0xFFFFFFFF := by
  refine State.maxOf_of_card s fun sku => ?_
  rw [show (blockIndex q 0xC2 * 256 + sub) / 256 = blockIndex q 0xC2 by omega,
    show (blockIndex q 0xC2 * 256 + sub) % 256 = sub by omega, cardOf, cardsAt_block q (by decide), quireCards_trainCounters]
  obtain rfl | rfl := hsub <;> cases sku <;> rfl

section
variable (s : State) (q : QNum) (status old new : Nat) (stats : List Nat) (short ms : Nat)

/-- The counter of a commit's end. -/
def trainCounter : Nat := if status = CS.ok then Key.qTrainCommits q else Key.qTrainFailed q

theorem trainCounter_mem : trainCounter q status ∈ [Key.qTrainCommits q, Key.qTrainFailed q] := by
  unfold trainCounter
  split <;> simp

theorem State.trainLast_writesOnly : s.WritesOnly (isTrainOf q) (s.trainLast q status old new stats short ms) := by
  refine ((s.wr_writesOnly _ (trainKeys q _ (by simp))).trans (State.wr_writesOnly _ _ (trainKeys q _ (by simp)))).trans
    (State.wr_writesOnly _ _ ?_)
  split <;> exact trainKeys q _ (by simp)

theorem State.trainLast_rd (h : valsWf s.sku 0 s.dict.vals = true) (hst : status < 256) :
    (s.trainLast q status old new stats short ms).rd (Key.qTrainLast q) % 256 = status ∧
    (s.trainLast q status old new stats short ms).rd (Key.qTrainPhase q) = 0 ∧
    (s.trainLast q status old new stats short ms).rd (trainCounter q status) =
      min (s.rd (trainCounter q status) + 1) 0xFFFFFFFF := by
  obtain ⟨-, hcounters, hlast⟩ := trainKeys_distinct q
  obtain ⟨hne, hne'⟩ := hcounters _ (trainCounter_mem q status)
  have h' := State.wrs_wf (s := s) [(Key.qTrainLast q, leNat (natLe 1 status ++ natLe 1 old ++ natLe 1 new ++ natLe 1 0 ++
    ((List.range 5).flatMap fun i => natLe 4 (stats.getD i 0)) ++ natLe 4 short ++ natLe 4 ms)), (Key.qTrainPhase q, 0)] h
  have hmax : ∀ v : State, v.maxOf (trainCounter q status) = 0xFFFFFFFF := fun v => by
    unfold trainCounter
    split
    · exact v.maxOf_trainCounter q (.inl rfl)
    · exact v.maxOf_trainCounter q (.inr rfl)
  show (State.count _ (trainCounter q status)).rd _ % 256 = _ ∧ (State.count _ (trainCounter q status)).rd _ = _ ∧
    (State.count _ (trainCounter q status)).rd _ = _
  rw [State.rd_count_self _ _ _ h', State.count, State.rd_wr _ _ _ _ h', State.rd_wr _ _ _ _ h', if_neg hne.symm, if_neg hne'.symm,
    hmax]
  simp only [State.rd_wrs _ _ s h]
  refine ⟨?_, ?_, ?_⟩
  · simp only [List.reverse_cons, List.reverse_nil, List.nil_append, List.cons_append, List.find?_cons, beq_eq_false_iff_ne.2
      hlast.symm, beq_self_eq_true, Option.map_some, Option.getD_some, List.append_assoc]
    rw [leNat_append, leNat_natLe, natLe_length]
    omega
  · simp
  · simp [hne.symm, hne'.symm]

/-- A refused commit completes with its status, is reported and counted; the NV contents stay. -/
theorem State.trainRefuse_ends (r : RingNum) (e : Entry) (h : valsWf s.sku 0 s.dict.vals = true) (hroom : CqRoom s q)
    (hst : status < 256) (hfail : status ≠ CS.ok) :
    Completes s (s.trainRefuse q r e status old short) q e status 0 0 ∧
    (s.trainRefuse q r e status old short).rd (Key.qTrainLast q) % 256 = status ∧
    (s.trainRefuse q r e status old short).rd (Key.qTrainFailed q) = min (s.rd (Key.qTrainFailed q) + 1) 0xFFFFFFFF ∧
    (s.trainRefuse q r e status old short).nv = s.nv := by
  have hlast := s.fresh.2.trainLast_writesOnly q status old 0xFF [] short (s.fresh.1 % 2 ^ 32)
  obtain ⟨hstatus, -, hcount⟩ := s.fresh.2.trainLast_rd q status old 0xFF [] short (s.fresh.1 % 2 ^ 32) h hst
  rw [trainCounter, if_neg hfail] at hcount
  have hnv : (s.fresh.2.trainLast q status old 0xFF [] short (s.fresh.1 % 2 ^ 32)).nv = s.nv := rfl
  unfold State.trainRefuse
  dsimp only
  generalize s.fresh.2.trainLast q status old 0xFF [] short (s.fresh.1 % 2 ^ 32) = v at hlast hstatus hcount hnv
  have hend := v.finishNow_keepsBooks q r e status 0 0
  exact ⟨((s.fresh_writesOnly _).trans hlast).finishNow_completes h (completionKeys_not_train q) hroom r e status 0 0,
    by rw [hend.rd, hstatus], by rw [hend.rd, hcount]; rfl, hend.nv.trans hnv⟩

end

/-! ### The checks in their order (R777 to R779) -/

theorem mem_allQ (p : QNum) : p ∈ allQ := by
  revert p
  decide

theorem State.trainWaits_iff (s : State) (q : QNum) (old : Option Nat) : s.trainWaits q old = true ↔
    (s.quire q).train.isSome = true ∨ 4 ≤ s.loadsRunning ∨
      ∃ p u, (s.quire p).train = some u ∧ old = some u.oldEntry := by
  unfold State.trainWaits
  rw [Bool.or_eq_true, Bool.or_eq_true, decide_eq_true_iff, List.any_eq_true, or_assoc]
  refine or_congr_right (or_congr_right ⟨?_, ?_⟩)
  · rintro ⟨p, -, hp⟩
    split at hp
    · next u hu => exact ⟨p, u, hu, by simpa using hp⟩
    · cases hp
  · rintro ⟨p, u, hu, hold⟩
    refine ⟨p, mem_allQ p, ?_⟩
    rw [hu]
    simpa using hold

/-- The last check of a commit, for rows and an entry; then it holds the entry. -/
def State.trainHold (s : State) (q : QNum) (r : RingNum) (e : Entry) (a : Addr) (old : Nat) (tiles : List (List Nat)) :
    State :=
  let x := s.lib old
  let frame := s.libFrame old
  match s.freeEntry with
  | none => s.trainRefuse q r e CS.noSpace old 0
  | some new =>
    if ¬ s.rowsFor x.man x.variant x.stripes then s.trainRefuse q r e CS.noSpace old 0
    else
      let t := s.fresh
      let s := (t.2.startEntry q r e .train).senseOthers old
      let o := encodeTiles frame (s.libFrames old) tiles t.1 fun i => s.copyFrame q (a.advance i) [] 0
      let y : LibEntry := { x with
        state := .loading, generation := (s.lib new).generation, hash := 0, rows := [], lost := [],
        removeReq := false, signed := [] }
      let t : Train := { entry := e, oldEntry := old, newEntry := new, master := fieldLe e.bytes 16 8,
                         masterLeaves := masterLeaves frame tiles,
                         stats := [o.leaves, o.st.sat, o.st.esc, o.st.rescue, o.st.nonfinite],
                         frames := o.frames, turns := [] }
      ((s.setLib new y).modQuire q fun z => { z with train := some t }).wr (Key.qTrainPhase q) 2

/-- The checks of a commit's master range and of the quire's headroom. -/
def State.trainMaster (s : State) (q : QNum) (r : RingNum) (e : Entry) (a : Addr) (old : Nat) (tiles : List (List Nat)) :
    State :=
  let x := s.lib old
  match s.masterForeign q a (masterLeaves (s.libFrame old) tiles) with
  | some i => s.freezeEntry q e FC.foreignLeaf (bits (a.advance i).encode 43 12)
  | none =>
    if s.headT3 q < x.mib then s.trainRefuse q r e CS.noFit old (x.mib - s.headT3 q)
    else s.trainHold q r e a old tiles

/-- The commit of a held handle, past its wait. -/
def State.trainFrom (s : State) (q : QNum) (r : RingNum) (e : Entry) (a : Addr) (old : Nat) : State :=
  let x := s.lib old
  if x.kind ≠ 2 then s.trainRefuse q r e CS.noHandle 0xFF 0
  else
    match x.tiles (s.libFrame old) with
    | none => s.trainRefuse q r e CS.noHandle old 0
    | some tiles =>
      if x.state = .damaged then s.trainRefuse q r e CS.ioError old 0
      else if x.state ≠ .installed then s.trainRefuse q r e CS.noSpace old 0
      else s.trainMaster q r e a old tiles

variable {a : Addr} {old : Nat}

theorem trainCommit_of_waits (h : s.startable q r 0x0C = some e)
    (hw : s.trainWaits q (s.validHandle q (fieldLe e.bytes 8 4)) = true) : trainCommit q r s = s := by
  unfold trainCommit
  rw [h]
  exact if_pos hw

theorem trainCommit_of_none (h : s.startable q r 0x0C = some e)
    (hw : s.trainWaits q (s.validHandle q (fieldLe e.bytes 8 4)) = false) (hv : s.validHandle q (fieldLe e.bytes 8 4) = none) :
    trainCommit q r s = s.trainRefuse q r e CS.noHandle 0xFF 0 := by
  unfold trainCommit
  rw [h]
  dsimp only
  rw [if_neg (by simp [hw]), hv]

theorem trainCommit_of_some (h : s.startable q r 0x0C = some e) (ha : addrOf (fieldLe e.bytes 16 8) = some a)
    (hw : s.trainWaits q (s.validHandle q (fieldLe e.bytes 8 4)) = false)
    (hv : s.validHandle q (fieldLe e.bytes 8 4) = some old) : trainCommit q r s = s.trainFrom q r e a old := by
  unfold trainCommit State.trainFrom
  rw [h]
  dsimp only
  rw [if_neg (by simp [hw]), hv, ha]
  rfl

theorem State.trainFrom_of_untiled (hkind : (s.lib old).kind = 2) (h : (s.lib old).tiles (s.libFrame old) = none) :
    s.trainFrom q r e a old = s.trainRefuse q r e CS.noHandle old 0 := by
  unfold State.trainFrom
  dsimp only
  rw [if_neg (not_not.2 hkind), h]

theorem State.trainFrom_of_tiled {tiles : List (List Nat)} (hkind : (s.lib old).kind = 2)
    (h : (s.lib old).tiles (s.libFrame old) = some tiles) : s.trainFrom q r e a old =
      if (s.lib old).state = .damaged then s.trainRefuse q r e CS.ioError old 0
      else if (s.lib old).state ≠ .installed then s.trainRefuse q r e CS.noSpace old 0
      else s.trainMaster q r e a old tiles := by
  unfold State.trainFrom
  dsimp only
  rw [if_neg (not_not.2 hkind), h]

theorem State.trainFrom_of_installed {tiles : List (List Nat)} (hkind : (s.lib old).kind = 2)
    (h : (s.lib old).tiles (s.libFrame old) = some tiles) (hinst : (s.lib old).state = .installed) :
    s.trainFrom q r e a old = s.trainMaster q r e a old tiles := by
  rw [State.trainFrom_of_tiled hkind h, if_neg (by simp [hinst]), if_neg (by simp [hinst])]

theorem State.trainMaster_of_foreign {tiles : List (List Nat)} {i : Nat}
    (h : s.masterForeign q a (masterLeaves (s.libFrame old) tiles) = some i) :
    s.trainMaster q r e a old tiles = s.freezeEntry q e FC.foreignLeaf (bits (a.advance i).encode 43 12) := by
  unfold State.trainMaster
  rw [h]

theorem State.trainMaster_of_own {tiles : List (List Nat)}
    (h : s.masterForeign q a (masterLeaves (s.libFrame old) tiles) = none) : s.trainMaster q r e a old tiles =
      if s.headT3 q < (s.lib old).mib then s.trainRefuse q r e CS.noFit old ((s.lib old).mib - s.headT3 q)
      else s.trainHold q r e a old tiles := by
  unfold State.trainMaster
  rw [h]

theorem State.trainHold_of_full {tiles : List (List Nat)} (h : s.freeEntry = none ∨
    s.rowsFor (s.lib old).man (s.lib old).variant (s.lib old).stripes = false) :
    s.trainHold q r e a old tiles = s.trainRefuse q r e CS.noSpace old 0 := by
  unfold State.trainHold
  cases hfree : s.freeEntry with
  | none => rfl
  | some n =>
    have hrows := h.resolve_left (by simp [hfree])
    exact if_pos (by simp [hrows])

/-- What a commit that passes its checks starts with. -/
structure State.TrainPasses (s : State) (q : QNum) (a : Addr) (old new : Nat) (tiles : List (List Nat)) : Prop where
  kind : (s.lib old).kind = 2
  tiled : (s.lib old).tiles (s.libFrame old) = some tiles
  state : (s.lib old).state = .installed
  master : s.masterForeign q a (masterLeaves (s.libFrame old) tiles) = none
  fits : ¬ s.headT3 q < (s.lib old).mib
  free : s.freeEntry = some new
  rows : s.rowsFor (s.lib old).man (s.lib old).variant (s.lib old).stripes = true

/-- The state in which the old version's other sections are sensed. -/
def State.trainSensed (s : State) (q : QNum) (r : RingNum) (e : Entry) (old : Nat) : State :=
  (s.fresh.2.startEntry q r e .train).senseOthers old

/-- The new entry is held LOADING, and the commit is the quire's (R778). -/
def State.holdCommit (s : State) (q : QNum) (new : Nat) (y : LibEntry) (tr : Train) : State :=
  ((s.setLib new y).modQuire q fun z => { z with train := some tr }).wr (Key.qTrainPhase q) 2

/-- The new entry as it waits for its stripes: the old content's kind, placement and base. -/
def LibEntry.successor (x : LibEntry) (generation : Nat) : LibEntry :=
  { x with
    state := .loading, generation := generation, hash := 0, rows := [], lost := [], removeReq := false, signed := [] }

theorem State.trainFrom_of_passes {new : Nat} {tiles : List (List Nat)} (h : s.TrainPasses q a old new tiles) :
    ∃ tr : Train, tr.oldEntry = old ∧ tr.newEntry = new ∧ s.trainFrom q r e a old =
      (s.trainSensed q r e old).holdCommit q new
        ((s.lib old).successor ((s.trainSensed q r e old).lib new).generation) tr := by
  rw [State.trainFrom_of_installed h.kind h.tiled h.state, State.trainMaster_of_own h.master, if_neg h.fits]
  unfold State.trainHold
  rw [h.free]
  dsimp only
  rw [if_neg (by simp [h.rows])]
  exact ⟨_, rfl, rfl, rfl⟩

theorem State.senseOthers_sensedTo (s : State) (e : Nat) : s.SensedTo (s.senseOthers e) :=
  List.foldlRecOn (motive := fun u : State => s.SensedTo u) _ _ (.refl s) fun u hu _ _ =>
    .ite hu (.ite hu (hu.trans (u.senseStripes_sensedTo e _)))

/-- What the sense of the other sections leaves of the state with the entry started. -/
structure State.TrainReady (s : State) (q : QNum) (e : Entry) (t : State) : Prop where
  quire : ∃ x : Quire, t.quire q = { x with started := (s.quire q).started ++ [{ entry := e, work := .train }] }
  lib : t.nv.lib = s.nv.lib
  main : t.nv.main = s.nv.main
  tiers : t.tiers = s.tiers
  out : t.out = s.out
  regs : s.RegsKept (fun k => k = Key.tlOverRated ∨ k = Key.alertCause) t

theorem State.trainSensed_ready (s : State) (q : QNum) (r : RingNum) (e : Entry) (old : Nat) :
    s.TrainReady q e (s.trainSensed q r e old) := by
  have hquire := s.fresh.2.startEntry_quire q r e .train
  have hkept : (s.fresh.2.startEntry q r e .train).nv = s.nv ∧ (s.fresh.2.startEntry q r e .train).tiers = s.tiers ∧
      (s.fresh.2.startEntry q r e .train).out = s.out ∧ (s.fresh.2.startEntry q r e .train).dict = s.dict ∧
      (s.fresh.2.startEntry q r e .train).sku = s.sku := ⟨rfl, rfl, rfl, rfl, rfl⟩
  unfold State.trainSensed
  generalize s.fresh.2.startEntry q r e .train = w at hquire hkept
  obtain ⟨hnv, htiers, hout, hdict, hsku⟩ := hkept
  have hsense := w.senseOthers_sensedTo old
  generalize w.senseOthers old = v at hsense
  have hregs := (State.RegsKept.of_eq (P := fun k => k = Key.tlOverRated ∨ k = Key.alertCause) hsku
    (congrArg Dict.vals hdict)).trans hsense.regs
  have hq : v.quire q = w.quire q := State.quire_of_quires hsense.quires q
  have hlib : v.nv.lib = s.nv.lib := hsense.lib.trans (congrArg Nv.lib hnv)
  have hmain : v.nv.main = s.nv.main := by
    obtain ⟨bands, moves, ckpt, d, i, rfl⟩ := hsense.frame
    show w.nv.main = s.nv.main
    rw [hnv]
  replace htiers : v.tiers = s.tiers := by
    obtain ⟨bands, moves, ckpt, d, i, rfl⟩ := hsense.frame
    exact htiers
  replace hout : v.out = s.out := hsense.out.trans hout
  exact ⟨⟨_, hq.trans hquire⟩, hlib, hmain, htiers, hout, hregs⟩

/-- A handle's entry is neither a phase nor what a sense of stripes may write. -/
theorem qHandle_apart (p q : QNum) (n : Nat) (hn : n < 256) : Key.qHandle p n ≠ Key.qTrainPhase q ∧
    Key.qHandle p n ≠ Key.tlOverRated ∧ Key.qHandle p n ≠ Key.alertCause := by
  unfold Key.qHandle Key.qTrainPhase Key.tlOverRated Key.alertCause
  omega

theorem sum_map_congr {α : Type} {l : List α} {f g : α → Nat} (h : ∀ x ∈ l, f x = g x) : (l.map f).sum = (l.map g).sum :=
  congrArg List.sum (List.map_congr_left h)

/-- What holding the commit leaves of the state before it, and of the quire. -/
structure State.CommitHeld (s : State) (q : QNum) (new : Nat) (y : LibEntry) (tr : Train) (t : State) : Prop where
  lib : ∀ k, t.lib k = if k = new then y else s.lib k
  quire : t.quire q = { s.quire q with train := some tr }
  rd : ∀ k, t.rd k = if k = Key.qTrainPhase q then 2 else s.rd k
  tiers : t.tiers = s.tiers
  main : t.nv.main = s.nv.main
  out : t.out = s.out

theorem State.holdCommit_held (hlib : Tab.rising 0 s.nv.lib = true) (hvals : valsWf s.sku 0 s.dict.vals = true) (q : QNum)
    (new : Nat) (y : LibEntry) (tr : Train) : s.CommitHeld q new y tr (s.holdCommit q new y tr) where
  lib k := State.setLib_lib hlib new k y
  quire := (s.setLib new y).modQuire_quire q fun z => { z with train := some tr }
  rd _ := State.rd_wr _ _ _ _ hvals
  tiers := rfl
  main := rfl
  out := rfl

theorem trainPassesClause {new : Nat} {tiles : List (List Nat)} (hinv : Inv s) (htrain : (s.quire q).train = none)
    (h : s.TrainPasses q a old new tiles) : ∃ u : Train, ((s.trainFrom q r e a old).quire q).train = some u ∧
      u.oldEntry = old ∧ u.newEntry = new ∧ (s.trainFrom q r e a old).rd (Key.qTrainPhase q) = 2 ∧
      ((s.trainFrom q r e a old).lib new).state = .loading ∧ ((s.trainFrom q r e a old).lib new).kind = 2 ∧
      ((s.trainFrom q r e a old).lib new).man = (s.lib old).man ∧
      ((s.trainFrom q r e a old).lib new).variant = (s.lib old).variant ∧
      ((s.trainFrom q r e a old).lib new).base = (s.lib old).base ∧
      ((s.trainFrom q r e a old).lib new).modelId = (s.lib old).modelId ∧
      (∀ k, k ≠ new → (s.trainFrom q r e a old).lib k = s.lib k) ∧
      ((s.trainFrom q r e a old).quire q).started = (s.quire q).started ++ [{ entry := e, work := .train }] ∧
      (s.holds q new = false → (s.trainFrom q r e a old).usedT3 q = s.usedT3 q + (s.lib old).mib) ∧
      (s.trainFrom q r e a old).tiers = s.tiers ∧ (s.trainFrom q r e a old).nv.main = s.nv.main ∧
      (s.trainFrom q r e a old).out = s.out := by
  obtain ⟨tr, hold, hnew, heq⟩ := State.trainFrom_of_passes (r := r) (e := e) h
  have hready := s.trainSensed_ready q r e old
  rw [heq]
  generalize s.trainSensed q r e old = v at hready
  have hmib : ((s.lib old).successor (v.lib new).generation).mib = (s.lib old).mib := rfl
  have hkind : ((s.lib old).successor (v.lib new).generation).kind = 2 := h.kind
  have hheld := State.holdCommit_held (by rw [hready.lib]; exact rising_lib_of_tabsRising hinv.2.2)
    (hready.regs.wf hinv.1) q new ((s.lib old).successor (v.lib new).generation) tr
  have hvlib : ∀ k, v.lib k = s.lib k := fun k => by rw [State.lib, hready.lib, State.lib]
  have hy : ∀ k, ((s.lib old).successor k).state = .loading ∧ ((s.lib old).successor k).man = (s.lib old).man ∧
      ((s.lib old).successor k).variant = (s.lib old).variant ∧ ((s.lib old).successor k).base = (s.lib old).base ∧
      ((s.lib old).successor k).modelId = (s.lib old).modelId := fun _ => ⟨rfl, rfl, rfl, rfl, rfl⟩
  obtain ⟨hstate, hman, hvariant, hbase, hmodel⟩ := hy (v.lib new).generation
  generalize (s.lib old).successor (v.lib new).generation = y at hmib hkind hheld hstate hman hvariant hbase hmodel
  generalize v.holdCommit q new y tr = t at hheld
  obtain ⟨hlib, hquire, hrd, htiers, hmain, hout⟩ := hheld
  have hself : t.lib new = y := (hlib new).trans (if_pos rfl)
  have hother : ∀ k, k ≠ new → t.lib k = s.lib k := fun k hk => ((hlib k).trans (if_neg hk)).trans (hvlib k)
  obtain ⟨x, hx⟩ := hready.quire
  rw [hself]
  refine ⟨tr, by rw [hquire], hold, hnew, (hrd _).trans (if_pos rfl), hstate, hkind, hman, hvariant, hbase, hmodel, hother,
    by rw [hquire, hx], fun hfree => ?_, htiers.trans hready.tiers, hmain.trans hready.main, hout.trans hready.out⟩
  have hterm : ∀ k ∈ allE, (if t.holds q k then (t.lib k).mib else 0) = if s.holds q k then (s.lib k).mib else 0 :=
    fun k hk => by
      have hk64 : k < 64 := List.mem_range.1 hk
      obtain ⟨hphase, hrated, halert⟩ := qHandle_apart q q (k + 1) (by omega)
      have hholds : t.holds q k = s.holds q k := by
        rw [State.holds, hrd, if_neg hphase, hready.regs.rd hinv.1 _ (not_or.2 ⟨hrated, halert⟩), State.holds]
      rw [hholds]
      by_cases hkn : k = new
      · rw [hkn, if_neg (by simp [hfree]), if_neg (by simp [hfree])]
      · rw [hother k hkn]
  rw [State.usedT3, State.usedT3, sum_map_congr hterm, hquire, htrain]
  dsimp only
  rw [hnew, hself, hmib, Nat.add_zero]

/-- Each check of a commit, in its order. -/
theorem trainChecksClause : TrainChecksClause := by
  intro s q r e a hinv hroom hstart ha h waits ends
  have hvals := hinv.1
  have hwaits : s.trainWaits q (s.validHandle q h) = true ↔ waits := s.trainWaits_iff q _
  have hrefuse : ∀ {status old short}, trainCommit q r s = s.trainRefuse q r e status old short → status < 256 →
      status ≠ CS.ok → ends status := fun heq hst hfail =>
    ⟨_, congrArg Host.Outcome.next heq, State.trainRefuse_ends s q _ _ _ r e hvals hroom hst hfail⟩
  refine ⟨fun hw => congrArg Host.Outcome.next (trainCommit_of_waits hstart (hwaits.2 hw)), fun hw hv => ?_,
    fun old hw hv => ?_⟩
  · exact hrefuse (trainCommit_of_none hstart (by simpa using mt hwaits.1 hw) hv) (by decide) (by decide)
  · intro x frame
    have heq : trainCommit q r s = s.trainFrom q r e a old :=
      trainCommit_of_some hstart ha (by simpa using mt hwaits.1 hw) hv
    have htrain : (s.quire q).train = none := by simpa using fun hc => hw (.inl hc)
    refine ⟨fun hbad => ?_, fun tiles hkind htiles => ⟨fun hdam => ?_, fun hdam hinst => ?_, fun hinst =>
      ⟨fun i hi => ?_, fun hmaster => ⟨fun hshort => ?_, fun hfits => ⟨fun hfull => ?_, fun n hn hrows => ?_⟩⟩⟩⟩⟩
    · rcases hbad with hkind | htiles
      · exact hrefuse (heq.trans (if_pos hkind)) (by decide) (by decide)
      · by_cases hkind : x.kind = 2
        · exact hrefuse (heq.trans (State.trainFrom_of_untiled hkind htiles)) (by decide) (by decide)
        · exact hrefuse (heq.trans (if_pos hkind)) (by decide) (by decide)
    · exact hrefuse (heq.trans ((State.trainFrom_of_tiled hkind htiles).trans (if_pos hdam))) (by decide) (by decide)
    · exact hrefuse (heq.trans ((State.trainFrom_of_tiled hkind htiles).trans ((if_neg hdam).trans (if_pos hinst)))) (by decide)
        (by decide)
    · have hfreeze := (heq.trans (State.trainFrom_of_installed hkind htiles hinst)).trans (State.trainMaster_of_foreign hi)
      exact ⟨_, congrArg Host.Outcome.next hfreeze, State.freezeEntry_frozenBy hinv (State.lively_of_startable hstart) e
        (by decide) (bits_page_lt _)⟩
    · have hmasters := (heq.trans (State.trainFrom_of_installed hkind htiles hinst)).trans (State.trainMaster_of_own hmaster)
      exact hrefuse (hmasters.trans (if_pos hshort)) (by decide) (by decide)
    · have hmasters := ((heq.trans (State.trainFrom_of_installed hkind htiles hinst)).trans
        (State.trainMaster_of_own hmaster)).trans (if_neg (not_lt.2 hfits))
      exact hrefuse (hmasters.trans (State.trainHold_of_full hfull)) (by decide) (by decide)
    · have hpasses : s.TrainPasses q a old n tiles := ⟨hkind, htiles, hinst, hmaster, not_lt.2 hfits, hn, hrows⟩
      obtain ⟨u, hu⟩ := trainPassesClause (r := r) (e := e) hinv htrain hpasses
      exact ⟨_, u, congrArg Host.Outcome.next heq, hu⟩

end Sys2Proof.Machine
end

section
/-! PROOFS. TRAIN_SWITCH: a commit that fails, and the switch to the new content (16, R783 to R790). -/

namespace Sys2Proof.Machine

variable {s t u : State} {q : QNum} {tr : Train}

/-! ### What a completion reads, past the end of a commit -/

theorem State.SameCq.writes {P : Nat → Prop} (h : s.SameCq u q) (hw : u.WritesOnly P t)
    (hwf : valsWf u.sku 0 u.dict.vals = true) (hP : ∀ k ∈ [Key.qCqSize q, Key.qCqBase q, Key.qPasid q], ¬ P k) :
    s.SameCq t q := by
  have hquire := State.quire_of_quires hw.quires q
  have hrd : ∀ k ∈ [Key.qCqSize q, Key.qCqBase q, Key.qPasid q], t.rd k = u.rd k := fun k hk => hw.regs.rd hwf k (hP k hk)
  exact ⟨hquire ▸ h.ctrCompleted, hquire ▸ h.cqTail, hquire ▸ h.cqHead, hquire ▸ h.phase, hquire ▸ h.heldCq,
    (hrd _ (by simp)).trans h.cqBase, (hrd _ (by simp)).trans h.cqSize, (hrd _ (by simp)).trans h.pasid, hw.out.trans h.out⟩

theorem State.SameCq.refl (s : State) (q : QNum) : s.SameCq s q := ⟨rfl, rfl, rfl, rfl, rfl, rfl, rfl, rfl, rfl⟩

/-- The commit of a quire changes nothing a completion reads. -/
theorem State.SameCq.setTrain (h : s.SameCq u q) (tr : Option Train) :
    s.SameCq (u.modQuire q fun x => { x with train := tr }) q := by
  have hquire := u.modQuire_quire q fun x => { x with train := tr }
  constructor
  case cqBase => exact h.cqBase
  case cqSize => exact h.cqSize
  case pasid => exact h.pasid
  case out => exact h.out
  all_goals rw [hquire]
  exacts [h.ctrCompleted, h.cqTail, h.cqHead, h.phase, h.heldCq]

theorem State.finish_entryEnded (s : State) (q : QNum) (e : Entry) (status detail result : Nat) :
    ((s.finish q e status detail result).quire q).train = (s.quire q).train := by
  have hdrop := s.modQuire_quire q fun x => { x with started := x.started.filter fun w => w.entry.seq != e.seq }
  unfold State.finish
  generalize (s.modQuire q fun x => { x with started := x.started.filter fun w => w.entry.seq != e.seq }) = v at hdrop
  rw [((v.complete_entryEnded q e status detail result).trans (State.settleQuire_entryEnded _ q)).frame]
  show (v.quire q).train = _
  rw [hdrop]

/-- A commit that ends, from the state `u` in which its effects stand: it completes as seen from `s`, is reported, and the
quire runs none. -/
theorem State.trainLast_finish (hcq : s.SameCq u q) (hroom : CqRoom s q) (hlive : Lively u q)
    (hwf : valsWf u.sku 0 u.dict.vals = true) {status : Nat} (hst : status < 256) (old new : Nat) (stats : List Nat)
    (short ms : Nat) (e : Entry) (result : Nat) :
    let t := (u.trainLast q status old new stats short ms).finish q e status 0 result
    Completes s t q e status 0 result ∧ t.rd (Key.qTrainPhase q) = 0 ∧
      t.rd (trainCounter q status) = min (u.rd (trainCounter q status) + 1) 0xFFFFFFFF ∧ t.nv = u.nv ∧
      (t.quire q).train = (u.quire q).train ∧ ∀ k, ¬ isTrainOf q k → t.rd k = u.rd k := by
  have hlast := u.trainLast_writesOnly q status old new stats short ms
  obtain ⟨-, hphase, hcount⟩ := u.trainLast_rd q status old new stats short ms hwf hst
  have hnv : (u.trainLast q status old new stats short ms).nv = u.nv := rfl
  have hcq' := hcq.writes hlast hwf (completionKeys_not_train q)
  have hquire := State.quire_of_quires hlast.quires q
  dsimp only
  generalize u.trainLast q status old new stats short ms = v at hlast hphase hcount hnv hcq' hquire
  have hend := v.finish_keepsBooks q e status 0 result
  have hlive' : Lively v q := by
    rw [Lively, hquire]
    exact hlive
  refine ⟨hcq'.finish hroom hlive' .., by rw [hend.rd, hphase], by rw [hend.rd, hcount], hend.nv.trans hnv, ?_,
    fun k hk => ?_⟩
  · rw [State.finish_entryEnded, hquire]
  · rw [hend.rd, hlast.regs.rd hwf k hk]

/-! ### A commit that fails (R789) -/

/-- The state in which a failed commit's stripes are given up. -/
def State.trainCleared (s : State) (tr : Train) : State :=
  (if (s.lib tr.newEntry).rows = [] then
    s.fresh.2.programFirst tr.newEntry (s.fresh.1 % ((s.lib tr.newEntry).stripes + 1)) [] else s).emptyEntry tr.newEntry

theorem State.trainDrop_eq (s : State) (q : QNum) (tr : Train) :
    s.trainDrop q tr = (s.trainCleared tr).modQuire q fun x => { x with train := none } := rfl

theorem State.trainCleared_spec (hlib : Tab.rising 0 s.nv.lib = true) (hunread : Unread s tr.newEntry) :
    s.WritesOnly (fun k => k = Key.pressBytes) (s.trainCleared tr) ∧
    (s.trainCleared tr).lib tr.newEntry = { LibEntry.reset with generation := (s.lib tr.newEntry).generation } ∧
    ∀ y, y ≠ tr.newEntry → (s.trainCleared tr).lib y = s.lib y := by
  unfold State.trainCleared
  split
  · generalize s.fresh.1 % ((s.lib tr.newEntry).stripes + 1) = n
    have hchanges := s.fresh.2.programFirst_changesOnly tr.newEntry n []
    have hrows := State.programFirst_rowsOnly (s := s.fresh.2) hlib tr.newEntry n []
    generalize s.fresh.2.programFirst tr.newEntry n [] = p at hchanges hrows
    have hunread' : Unread p tr.newEntry := fun a ha => hunread a (by rwa [hchanges.weave] at ha)
    obtain ⟨hself, hother⟩ := State.emptyEntry_of_rowsOnly hrows
    exact ⟨(s.fresh_writesOnly _).trans ((hchanges.writesOnly (by simp)).trans
      ((State.emptyEntry_of_unread hunread').writesOnly _)), hself, hother⟩
  · obtain ⟨hself, hother⟩ := State.emptyEntry_of_rowsOnly (State.RowsOnly.refl (e := tr.newEntry) hlib)
    exact ⟨(State.emptyEntry_of_unread hunread).writesOnly _, hself, hother⟩

/-- What a failed commit leaves. -/
structure State.CommitFailed (s : State) (q : QNum) (tr : Train) (status : Nat) (t : State) : Prop where
  emptied : t.lib tr.newEntry = { LibEntry.reset with generation := (s.lib tr.newEntry).generation }
  other : ∀ y, y ≠ tr.newEntry → t.lib y = s.lib y
  train : (t.quire q).train = none
  rd : ∀ k, ¬ isTrainOf q k → k ≠ Key.pressBytes → t.rd k = s.rd k

/-- The commit of `s` fails, its completion being as seen from `s₀`. -/
theorem State.trainFail_failed {s₀ : State} (hcq₀ : s₀.SameCq s q) (hinv : valsWf s.sku 0 s.dict.vals = true)
    (hlib : Tab.rising 0 s.nv.lib = true) (hunread : Unread s tr.newEntry) (hlive : Lively s q) (hroom : CqRoom s₀ q)
    {status : Nat} (hst : status < 256) (ms : Nat) : Completes s₀ (s.trainFail q tr status ms) q tr.entry status 0 0 ∧
    s.CommitFailed q tr status (s.trainFail q tr status ms) := by
  obtain ⟨hwrites, hself, hother⟩ := State.trainCleared_spec hlib hunread
  unfold State.trainFail
  rw [State.trainDrop_eq]
  generalize s.trainCleared tr = v at hwrites hself hother
  have hquire := v.modQuire_quire q fun x => { x with train := none }
  have hcq := (hcq₀.writes hwrites hinv (pressBytes_plain q).1).setTrain none
  have hkept : (v.modQuire q fun x => { x with train := none }).nv = v.nv ∧
      (∀ k, (v.modQuire q fun x => { x with train := none }).rd k = v.rd k) := ⟨rfl, fun _ => rfl⟩
  have hwf : valsWf (v.modQuire q fun x => { x with train := none }).sku 0
    (v.modQuire q fun x => { x with train := none }).dict.vals = true := hwrites.regs.wf hinv
  generalize (v.modQuire q fun x => { x with train := none }) = w at hquire hcq hkept hwf
  obtain ⟨hnv, hrd⟩ := hkept
  have hlive' : Lively w q := by
    rw [Lively, hquire, State.quire_of_quires hwrites.quires q]
    exact hlive
  obtain ⟨hcompletes, -, -, htnv, htrain, htrd⟩ :=
    State.trainLast_finish hcq hroom hlive' hwf hst tr.oldEntry tr.newEntry tr.stats 0 ms tr.entry 0
  have hlibs := State.lib_of_nv (htnv.trans hnv)
  refine ⟨hcompletes, (hlibs _).trans hself, fun y hy => (hlibs y).trans (hother y hy), ?_, fun k hk hbytes => ?_⟩
  · rw [htrain, hquire]
  · rw [htrd k hk, hrd, hwrites.regs.rd hinv k hbytes]

/-! ### An uncorrectable master leaf (R687) -/

theorem State.channelError_eq (s : State) (c : Fin 2) :
    ∃ x, s.channelError c = s.setSec x ∨ s.channelError c = (s.setSec x).alert AL.channel := by
  unfold State.channelError
  dsimp only
  split <;> split
  · exact ⟨_, .inr rfl⟩
  · exact ⟨_, .inl rfl⟩
  · exact ⟨_, .inr rfl⟩
  · exact ⟨_, .inl rfl⟩

theorem State.alert_writesOnly {P : Nat → Prop} (s : State) (cause : Nat) (hP : P Key.alertCause) :
    s.WritesOnly P (s.alert cause) := by
  obtain ⟨d, i, heq⟩ := s.alert_eq cause
  exact ⟨by rw [heq], by rw [heq], (s.alert_regsKept cause).mono fun k hk => hk ▸ hP⟩

/-- The keys an uncorrectable codeword of T2 writes. -/
def isT2Report (k : Nat) : Prop := k = Key.t2Uncorr ∨ k = Key.alertCause

/-- An uncorrectable codeword of T2 is counted, with its alerts. -/
def State.t2Spoilt (s : State) (c : Fin 2) : State := ((s.count Key.t2Uncorr).alert AL.t2Uncorr).channelError c

theorem State.alert_nv (s : State) (cause : Nat) : (s.alert cause).nv = s.nv ∧ (s.alert cause).weave = s.weave := by
  obtain ⟨d, i, heq⟩ := s.alert_eq cause
  rw [heq]
  exact ⟨rfl, rfl⟩

theorem State.channelError_spec (s : State) (c : Fin 2) : s.WritesOnly (Eq Key.alertCause) (s.channelError c) ∧
    (s.channelError c).nv = s.nv ∧ (s.channelError c).weave = s.weave := by
  obtain ⟨x, heq | heq⟩ := s.channelError_eq c <;> rw [heq]
  · exact ⟨⟨rfl, rfl, .of_eq rfl rfl⟩, rfl, rfl⟩
  · have hsec : s.WritesOnly (Eq Key.alertCause) (s.setSec x) := ⟨rfl, rfl, .of_eq rfl rfl⟩
    exact ⟨hsec.trans ((s.setSec x).alert_writesOnly _ rfl), (State.alert_nv _ _).1, (State.alert_nv _ _).2⟩

theorem State.t2Spoilt_spec (hinv : valsWf s.sku 0 s.dict.vals = true) (c : Fin 2) :
    s.WritesOnly isT2Report (s.t2Spoilt c) ∧ (s.t2Spoilt c).nv = s.nv ∧ (s.t2Spoilt c).weave = s.weave ∧
      (s.t2Spoilt c).rd Key.t2Uncorr = min (s.rd Key.t2Uncorr + 1) 0xFFFFFFFF := by
  have hmax : s.maxOf Key.t2Uncorr = 0xFFFFFFFF := State.maxOf_of_card s fun sku => by cases sku <;> decide
  have hcount : s.WritesOnly isT2Report (s.count Key.t2Uncorr) := s.wr_writesOnly _ (.inl rfl)
  have hself := s.rd_count_self Key.t2Uncorr 1 hinv
  have hkept : (s.count Key.t2Uncorr).nv = s.nv ∧ (s.count Key.t2Uncorr).weave = s.weave := ⟨rfl, rfl⟩
  unfold State.t2Spoilt
  generalize s.count Key.t2Uncorr = v at hcount hself hkept
  have halert := v.alert_writesOnly (P := Eq Key.alertCause) AL.t2Uncorr rfl
  obtain ⟨hnv, hweave⟩ := v.alert_nv AL.t2Uncorr
  generalize v.alert AL.t2Uncorr = w at halert hnv hweave
  obtain ⟨hchannel, hnv', hweave'⟩ := w.channelError_spec c
  have hrest := halert.trans hchannel
  refine ⟨hcount.trans (hrest.mono fun k hk => .inr hk.symm), hnv'.trans (hnv.trans hkept.1),
    hweave'.trans (hweave.trans hkept.2), ?_⟩
  rw [hrest.regs.rd (hcount.regs.wf hinv) _ (by decide), hself, hmax]

theorem completionKeys_not_t2Report (q : QNum) : ∀ k ∈ [Key.qCqSize q, Key.qCqBase q, Key.qPasid q], ¬ isT2Report k := by
  simp only [List.forall_mem_cons, List.not_mem_nil, false_imp_iff, forall_true_iff, and_true, isT2Report,
    Key.qCqSize, Key.qCqBase, Key.qPasid, Key.t2Uncorr, Key.alertCause]
  omega

/-! ### The new version (R783, R785) -/

/-- What stands once the new version is written, and in a commit whose version was written before. -/
structure State.VersionStands (s : State) (q : QNum) (tr : Train) (t : State) : Prop where
  cq : s.SameCq t q
  live : Lively s q → Lively t q
  bound : ∀ h, t.textBound q h = s.textBound q h
  rd : ∀ k, k ≠ Key.pressBytes → t.rd k = s.rd k
  wf : valsWf t.sku 0 t.dict.vals = true
  rising : Tab.rising 0 t.nv.lib = true
  generation : (t.lib tr.newEntry).generation = (s.lib tr.newEntry).generation
  old : t.lib tr.oldEntry = s.lib tr.oldEntry

theorem State.VersionStands.refl (hinv : valsWf s.sku 0 s.dict.vals = true) (hlib : Tab.rising 0 s.nv.lib = true) :
    s.VersionStands q tr s :=
  ⟨.refl s q, id, fun _ => rfl, fun _ _ => rfl, hinv, hlib, rfl, rfl⟩

/-- The frames of a commit go with their writing. -/
def State.framesWritten (s : State) (q : QNum) : State :=
  s.modQuire q fun x => { x with train := x.train.map fun t => { t with frames := [] } }

theorem State.SameCq.framesWritten (h : s.SameCq u q) : s.SameCq (u.framesWritten q) q := by
  have hquire := u.modQuire_quire q fun x => { x with train := x.train.map fun t => { t with frames := [] } }
  constructor
  case cqBase => exact h.cqBase
  case cqSize => exact h.cqSize
  case pasid => exact h.pasid
  case out => exact h.out
  all_goals rw [State.framesWritten, hquire]
  exacts [h.ctrCompleted, h.cqTail, h.cqHead, h.phase, h.heldCq]

theorem State.framesWritten_stands (h : s.VersionStands q tr t) : s.VersionStands q tr (t.framesWritten q) := by
  have hquire := t.modQuire_quire q fun x => { x with train := x.train.map fun t => { t with frames := [] } }
  refine ⟨h.cq.framesWritten, fun hlive => ?_, fun b => ?_, h.rd, h.wf, h.rising, h.generation, h.old⟩
  · have := h.live hlive
    rwa [Lively, State.framesWritten, hquire]
  · rw [← h.bound, State.textBound, State.framesWritten, hquire, State.textBound]

theorem State.VersionStands.setHash (h : s.VersionStands q tr t) (hne : tr.oldEntry ≠ tr.newEntry) (n : Nat) :
    s.VersionStands q tr (t.setLib tr.newEntry { t.lib tr.newEntry with hash := n }) where
  cq := ⟨h.cq.ctrCompleted, h.cq.cqTail, h.cq.cqHead, h.cq.phase, h.cq.heldCq, h.cq.cqBase, h.cq.cqSize, h.cq.pasid, h.cq.out⟩
  live := h.live
  bound := h.bound
  rd := h.rd
  wf := h.wf
  rising := State.setLib_rising h.rising _ _
  generation := by
    rw [State.setLib_lib h.rising, if_pos rfl]
    exact h.generation
  old := by
    rw [State.setLib_lib h.rising, if_neg hne, h.old]

theorem State.programmed_stands (hinv : valsWf s.sku 0 s.dict.vals = true) (hlib : Tab.rising 0 s.nv.lib = true)
    (hne : tr.oldEntry ≠ tr.newEntry) : s.VersionStands q tr (s.programStripes tr.newEntry tr.frames) := by
  have hwrites := (s.programFirst_changesOnly tr.newEntry (s.lib tr.newEntry).stripes tr.frames).writesOnly
    (P := fun k => k = Key.pressBytes) (by simp)
  have hrows := State.programFirst_rowsOnly (s := s) hlib tr.newEntry (s.lib tr.newEntry).stripes tr.frames
  unfold State.programStripes
  generalize s.programFirst tr.newEntry (s.lib tr.newEntry).stripes tr.frames = v at hwrites hrows
  obtain ⟨rows, hself⟩ := hrows.self
  have hq := State.quire_of_quires hwrites.quires q
  refine ⟨.of_writesOnly hinv (pressBytes_plain q).1 hwrites, fun hlive => by rwa [Lively, hq], fun h => ?_,
    hwrites.regs.rd hinv, hwrites.regs.wf hinv, hrows.rising, by rw [hself], hrows.other _ hne⟩
  rw [State.textBound, hq, State.textBound]

theorem State.writeVersion_eq (s : State) (q : QNum) (tr : Train) : s.writeVersion q tr =
    (((s.programStripes tr.newEntry tr.frames).framesWritten q).setLib tr.newEntry
      { ((s.programStripes tr.newEntry tr.frames).framesWritten q).lib tr.newEntry with
        hash := bodyHash tr.frames (((s.programStripes tr.newEntry tr.frames).framesWritten q).lib tr.newEntry).stripes }) :=
  rfl

theorem State.programStripes_stripes (hlib : Tab.rising 0 s.nv.lib = true) (e : Nat) (frames : Mem) :
    ((s.programStripes e frames).lib e).stripes = (s.lib e).stripes := by
  obtain ⟨rows, hself⟩ := (State.programFirst_rowsOnly (s := s) hlib e (s.lib e).stripes frames).self
  rw [State.programStripes, hself]

theorem State.writeVersion_stands (hinv : valsWf s.sku 0 s.dict.vals = true) (hlib : Tab.rising 0 s.nv.lib = true)
    (hne : tr.oldEntry ≠ tr.newEntry) : s.VersionStands q tr (s.writeVersion q tr) ∧
    ((s.writeVersion q tr).lib tr.newEntry).hash = bodyHash tr.frames (s.lib tr.newEntry).stripes := by
  have hstands := State.framesWritten_stands (State.programmed_stands (q := q) hinv hlib hne)
  have hstripes : (((s.programStripes tr.newEntry tr.frames).framesWritten q).lib tr.newEntry).stripes = _ :=
    State.programStripes_stripes hlib tr.newEntry tr.frames
  rw [State.writeVersion_eq]
  generalize (s.programStripes tr.newEntry tr.frames).framesWritten q = w at hstands hstripes
  refine ⟨hstands.setHash hne _, ?_⟩
  rw [State.setLib_lib hstands.rising, if_pos rfl, hstripes]

/-! ### The switch (R786 to R788) -/

/-- The library at the switch: the old entry's removal is requested, the new one is installed. -/
def State.trainLibrary (s : State) (tr : Train) : State :=
  let t := s.setLib tr.oldEntry { s.lib tr.oldEntry with removeReq := true }
  t.setLib tr.newEntry
    { t.lib tr.newEntry with state := .installed, generation := nextGeneration (t.lib tr.newEntry).generation }

/-- The state at the switch, before its completion. -/
def State.trainTaken (s : State) (q : QNum) (tr : Train) : State :=
  (((s.trainLibrary tr).wrStored (Key.libLinkMask (tr.newEntry + 1)) (s.rd (Key.libLinkMask (tr.oldEntry + 1)))).dropHandle q
    tr.oldEntry).giveHandle q tr.newEntry (s.rd (Key.qHandleVariant q (tr.oldEntry + 1)))

theorem State.trainTake_eq (s : State) (q : QNum) (tr : Train) (ms : Nat) : s.trainTake q tr ms =
    (((s.trainTaken q tr).modQuire q fun x => { x with train := none }).trainLast q CS.ok tr.oldEntry tr.newEntry tr.stats 0
      ms).finish q tr.entry CS.ok 0 ((s.trainTaken q tr).rd (Key.qHandle q (tr.newEntry + 1))) := rfl


theorem State.handOver_rd (hinv : valsWf s.sku 0 s.dict.vals = true) (q : QNum) (old new v k : Nat) :
    ((s.dropHandle q old).giveHandle q new v).rd k =
      if k = Key.qHandleVariant q (new + 1) then v
      else if k = Key.qHandle q (new + 1) then mkHandle (s.lib new).generation q new
      else if k = Key.qHandleVariant q (old + 1) then 0xFF
      else if k = Key.qHandle q (old + 1) then 0 else s.rd k := by
  have h1 := s.wr_wf (Key.qHandle q (old + 1)) 0 hinv
  have h2 := State.wr_wf _ (Key.qHandleVariant q (old + 1)) 0xFF h1
  have h3 := State.wr_wf _ (Key.qHandle q (new + 1)) (mkHandle (s.lib new).generation q new) h2
  exact (State.rd_wr _ _ _ _ h3).trans (congrArg _ ((State.rd_wr _ _ _ _ h2).trans (congrArg _
    ((State.rd_wr _ _ _ _ h1).trans (congrArg _ (State.rd_wr _ _ _ _ hinv))))))

/-- The entries of a quire's handles: indices 0xB0 and 0xB1 of its block. -/
def isHandleKey (q : QNum) (k : Nat) : Prop := blockIndex q 0xB0 ≤ k / 256 ∧ k / 256 ≤ blockIndex q 0xB1

theorem handleKeys (q : QNum) {n : Nat} (hn : n < 256) : isHandleKey q (Key.qHandle q n) ∧
    isHandleKey q (Key.qHandleVariant q n) := by
  simp only [isHandleKey, Key.qHandle, Key.qHandleVariant, blockIndex]
  omega

theorem handleKeys_distinct (q : QNum) {n m : Nat} (hn : n < 256) (hm : m < 256) :
    (Key.qHandle q n = Key.qHandle q m ↔ n = m) ∧
    Key.qHandle q n ≠ Key.qHandleVariant q m := by
  simp only [Key.qHandle, Key.qHandleVariant]
  omega

theorem State.wrs_writesOnly {P : Nat → Prop} {l : List (Nat × Nat)} (s : State) (h : ∀ p ∈ l, P p.1) :
    s.WritesOnly P (s.wrs l) :=
  List.foldlRecOn (motive := fun u : State => s.WritesOnly P u) l _ (.refl _ s) fun u hu p hp =>
    hu.trans (u.wr_writesOnly p.2 (h p hp))

theorem State.handOver_writesOnly (s : State) (q : QNum) {old new : Nat} (ho : old < 64) (hn : new < 64) (v : Nat) :
    s.WritesOnly (isHandleKey q) ((s.dropHandle q old).giveHandle q new v) := by
  have hkeys {e : Nat} (he : e < 64) (a b : Nat) :
      ∀ p ∈ [(Key.qHandle q (e + 1), a), (Key.qHandleVariant q (e + 1), b)], isHandleKey q p.1 := by
    simp only [List.forall_mem_cons, List.not_mem_nil, false_imp_iff, forall_true_iff, and_true]
    exact handleKeys q (by omega)
  exact (s.wrs_writesOnly (hkeys ho _ _)).trans (State.wrs_writesOnly _ (hkeys hn _ _))

/-- The entries the switch writes before its completion. -/
def isSwitchKey (q : QNum) (k : Nat) : Prop := isHandleKey q k ∨ k / 256 = 0x1803 ∨ k ∈ paramStatus

theorem switchKeys_apart (q : QNum) : (∀ k ∈ [Key.qCqSize q, Key.qCqBase q, Key.qPasid q, Key.qTrainCommits q],
    ¬ isSwitchKey q k) := by
  simp only [isSwitchKey, isHandleKey, List.not_mem_nil,
    Key.qCqSize, Key.qCqBase, Key.qPasid, Key.qTrainCommits, blockIndex, paramStatus, List.mem_cons, or_false,
    Key.paramErased, Key.paramCyclesMax, Key.paramCompactions]
  omega

/-- A handle's entry is none of the region's own entries, nor a link mask, a phase or a counter. -/
theorem handleKey_apart {q : QNum} {k : Nat} (h : isHandleKey q k) : k / 256 ≠ 0x1803 ∧ k ∉ paramStatus ∧
    ¬ isTrainOf q k ∧ k ≠ Key.pressBytes ∧ ¬ isT2Report k := by
  simp only [isHandleKey, blockIndex, paramStatus, List.mem_cons, List.not_mem_nil, or_false, isTrainOf, isT2Report,
    Key.paramErased, Key.paramCyclesMax, Key.paramCompactions, Key.pressBytes, Key.t2Uncorr, Key.alertCause] at h ⊢
  omega

theorem linkMask_apart (q : QNum) {n : Nat} (hn : n < 256) : Key.libLinkMask n / 256 = 0x1803 ∧
    ¬ isHandleKey q (Key.libLinkMask n) ∧ ¬ isTrainOf q (Key.libLinkMask n) ∧ Key.libLinkMask n ≠ Key.pressBytes := by
  simp only [isHandleKey, isTrainOf, Key.libLinkMask, Key.pressBytes, blockIndex]
  omega

theorem t2Uncorr_apart (q : QNum) : ¬ isTrainOf q Key.t2Uncorr ∧ Key.t2Uncorr ≠ Key.pressBytes := by
  simp only [isTrainOf, Key.t2Uncorr, Key.pressBytes, blockIndex]
  omega

theorem pressBytes_not_trainCommits (q : QNum) : Key.qTrainCommits q ≠ Key.pressBytes := by
  simp only [Key.qTrainCommits, Key.pressBytes]
  omega

/-- What the switch has done before its completion. -/
structure State.Switched (s : State) (q : QNum) (tr : Train) (t : State) : Prop where
  writes : s.WritesOnly (isSwitchKey q) t
  newHandle : t.rd (Key.qHandle q (tr.newEntry + 1)) = mkHandle (nextGeneration (s.lib tr.newEntry).generation) q tr.newEntry
  oldHandle : t.rd (Key.qHandle q (tr.oldEntry + 1)) = 0
  variant : t.rd (Key.qHandleVariant q (tr.newEntry + 1)) = s.rd (Key.qHandleVariant q (tr.oldEntry + 1))
  mask : t.rd (Key.libLinkMask (tr.newEntry + 1)) = s.rd (Key.libLinkMask (tr.oldEntry + 1))
  installed : t.lib tr.newEntry =
    { s.lib tr.newEntry with state := .installed, generation := nextGeneration (s.lib tr.newEntry).generation }
  removal : t.lib tr.oldEntry = { s.lib tr.oldEntry with removeReq := true }

theorem State.trainLibrary_lib (hlib : Tab.rising 0 s.nv.lib = true) (hne : tr.oldEntry ≠ tr.newEntry) :
    (s.trainLibrary tr).lib tr.newEntry =
      { s.lib tr.newEntry with state := .installed, generation := nextGeneration (s.lib tr.newEntry).generation } ∧
    (s.trainLibrary tr).lib tr.oldEntry = { s.lib tr.oldEntry with removeReq := true } := by
  have hold := State.setLib_rising hlib tr.oldEntry { s.lib tr.oldEntry with removeReq := true }
  unfold State.trainLibrary
  rw [State.setLib_lib hold, if_pos rfl, State.setLib_lib hlib, if_neg hne.symm, State.setLib_lib hold, if_neg hne,
    State.setLib_lib hlib, if_pos rfl]
  exact ⟨rfl, rfl⟩

theorem State.trainTaken_switched (hinv : valsWf s.sku 0 s.dict.vals = true) (hlib : Tab.rising 0 s.nv.lib = true)
    (ho : tr.oldEntry < 64) (hn : tr.newEntry < 64) (hne : tr.oldEntry ≠ tr.newEntry) :
    s.Switched q tr (s.trainTaken q tr) := by
  obtain ⟨hnew, hold⟩ := State.trainLibrary_lib (s := s) hlib hne
  have hlibrary : s.WritesOnly (isSwitchKey q) (s.trainLibrary tr) := ⟨rfl, rfl, .of_eq rfl rfl⟩
  unfold State.trainTaken
  generalize s.trainLibrary tr = v at hnew hold hlibrary
  have hmaskKey := linkMask_apart q (n := tr.newEntry + 1) (by omega)
  have hstored := (v.wrStored_changesOnly (Key.libLinkMask (tr.newEntry + 1))
    (s.rd (Key.libLinkMask (tr.oldEntry + 1)))).writesOnly (P := isSwitchKey q) fun k hk =>
      (List.mem_cons.1 hk).elim (fun heq => .inr (.inl (heq ▸ hmaskKey.1))) fun hmem => .inr (.inr hmem)
  have hmask := v.wrStored_rd_self (Key.libLinkMask (tr.newEntry + 1)) (s.rd (Key.libLinkMask (tr.oldEntry + 1)))
    (hlibrary.regs.wf hinv)
  have hlibs : ∀ y, (v.wrStored (Key.libLinkMask (tr.newEntry + 1)) (s.rd (Key.libLinkMask (tr.oldEntry + 1)))).lib y =
      v.lib y := by
    obtain ⟨recs, units, hnv⟩ := (v.wrStored_recordsOnly (Key.libLinkMask (tr.newEntry + 1))
      (s.rd (Key.libLinkMask (tr.oldEntry + 1)))).nv
    intro y
    rw [State.lib, hnv]
    rfl
  generalize v.wrStored (Key.libLinkMask (tr.newEntry + 1)) (s.rd (Key.libLinkMask (tr.oldEntry + 1))) = w
    at hstored hmask hlibs
  have hwrites := hlibrary.trans hstored
  have hrd := State.handOver_rd (hwrites.regs.wf hinv) q tr.oldEntry tr.newEntry
    (s.rd (Key.qHandleVariant q (tr.oldEntry + 1)))
  have hhand := w.handOver_writesOnly q ho hn (s.rd (Key.qHandleVariant q (tr.oldEntry + 1)))
  have hmaskKept := hmaskKey.2.1
  obtain ⟨hhh, hov⟩ := handleKeys_distinct q (n := tr.oldEntry + 1) (m := tr.newEntry + 1) (by omega) (by omega)
  have hoo := (handleKeys_distinct q (n := tr.oldEntry + 1) (m := tr.oldEntry + 1) (by omega) (by omega)).2
  have hnn := (handleKeys_distinct q (n := tr.newEntry + 1) (m := tr.newEntry + 1) (by omega) (by omega)).2
  refine ⟨hwrites.trans (hhand.mono fun _ => .inl), ?_, ?_, ?_, ?_, (hlibs _).trans hnew, (hlibs _).trans hold⟩
  · rw [hrd, if_neg hnn, if_pos rfl, hlibs, hnew]
  · rw [hrd, if_neg hov, if_neg (by rw [hhh]; omega), if_neg hoo, if_pos rfl]
  · rw [hrd, if_pos rfl]
  · rw [hhand.regs.rd (hwrites.regs.wf hinv) _ hmaskKept, hmask]

/-- A commit that switched, from the state `w` in which its version stands. -/
structure State.CommitDone (w : State) (q : QNum) (tr : Train) (t : State) : Prop where
  newHandle : t.rd (Key.qHandle q (tr.newEntry + 1)) = mkHandle (nextGeneration (w.lib tr.newEntry).generation) q tr.newEntry
  oldHandle : t.rd (Key.qHandle q (tr.oldEntry + 1)) = 0
  variant : t.rd (Key.qHandleVariant q (tr.newEntry + 1)) = w.rd (Key.qHandleVariant q (tr.oldEntry + 1))
  mask : t.rd (Key.libLinkMask (tr.newEntry + 1)) = w.rd (Key.libLinkMask (tr.oldEntry + 1))
  installed : t.lib tr.newEntry =
    { w.lib tr.newEntry with state := .installed, generation := nextGeneration (w.lib tr.newEntry).generation }
  removal : t.lib tr.oldEntry = { w.lib tr.oldEntry with removeReq := true }
  train : (t.quire q).train = none
  phase : t.rd (Key.qTrainPhase q) = 0
  commits : t.rd (Key.qTrainCommits q) = min (w.rd (Key.qTrainCommits q) + 1) 0xFFFFFFFF

theorem State.trainTake_done (hcq : s.SameCq u q) (hroom : CqRoom s q) (hlive : Lively u q)
    (hinv : valsWf u.sku 0 u.dict.vals = true) (hlib : Tab.rising 0 u.nv.lib = true)
    (ho : tr.oldEntry < 64) (hn : tr.newEntry < 64) (hne : tr.oldEntry ≠ tr.newEntry) (ms : Nat) :
    Completes s (u.trainTake q tr ms) q tr.entry CS.ok 0
      (mkHandle (nextGeneration (u.lib tr.newEntry).generation) q tr.newEntry) ∧
    u.CommitDone q tr (u.trainTake q tr ms) := by
  have hswitch := State.trainTaken_switched (q := q) hinv hlib ho hn hne
  rw [State.trainTake_eq, hswitch.newHandle]
  generalize u.trainTaken q tr = v at hswitch
  have hapart := switchKeys_apart q
  have hcq' := (hcq.writes hswitch.writes hinv fun k hk => hapart k (List.mem_append_left [Key.qTrainCommits q] hk)).setTrain
      none
  have hquire := v.modQuire_quire q fun x => { x with train := none }
  have hrd : ∀ k, (v.modQuire q fun x => { x with train := none }).rd k = v.rd k := fun _ => rfl
  have hnv : (v.modQuire q fun x => { x with train := none }).nv = v.nv := rfl
  have hwf : valsWf (v.modQuire q fun x => { x with train := none }).sku 0
    (v.modQuire q fun x => { x with train := none }).dict.vals = true := hswitch.writes.regs.wf hinv
  generalize (v.modQuire q fun x => { x with train := none }) = w at hcq' hquire hrd hnv hwf
  have hlive' : Lively w q := by
    rw [Lively, hquire, State.quire_of_quires hswitch.writes.quires q]
    exact hlive
  obtain ⟨hcompletes, hphase, hcount, htnv, htrain, htrd⟩ := State.trainLast_finish hcq' hroom hlive' hwf
    (show CS.ok < 256 by decide) tr.oldEntry tr.newEntry tr.stats 0 ms tr.entry
    (mkHandle (nextGeneration (u.lib tr.newEntry).generation) q tr.newEntry)
  refine ⟨hcompletes, ?_⟩
  have hlibs := State.lib_of_nv (htnv.trans hnv)
  have hkept {k : Nat} (hk : ¬ isTrainOf q k) : State.rd _ k = v.rd k := (htrd k hk).trans (hrd k)
  have hnew := handleKeys q (n := tr.newEntry + 1) (by omega)
  have hold := handleKeys q (n := tr.oldEntry + 1) (by omega)
  constructor
  case newHandle => exact (hkept (handleKey_apart hnew.1).2.2.1).trans hswitch.newHandle
  case oldHandle => exact (hkept (handleKey_apart hold.1).2.2.1).trans hswitch.oldHandle
  case variant => exact (hkept (handleKey_apart hnew.2).2.2.1).trans hswitch.variant
  case mask => exact (hkept (linkMask_apart q (by omega)).2.2.1).trans hswitch.mask
  case installed => exact (hlibs _).trans hswitch.installed
  case removal => exact (hlibs _).trans hswitch.removal
  case train => rw [htrain, hquire]
  case phase => exact hphase
  case commits =>
    have hself : trainCounter q CS.ok = Key.qTrainCommits q := by rw [trainCounter, if_pos rfl]
    rw [hself, hrd, hswitch.writes.regs.rd hinv _ (hapart _ (by simp))] at hcount
    exact hcount

/-! ### TRAIN_SWITCH -/

section
variable {f : TrainFacts} (htrain : (s.quire q).train = some tr) (hcore : s.coreOn = true)
include htrain hcore

theorem trainSwitch_of_unserved (h : ¬ ∀ g ∈ (s.lib tr.newEntry).man.groupsNamed (s.lib tr.newEntry).variant,
    s.groupInService g = true) : trainSwitch q f s = s.trainFail q tr CS.noSpace (f.timeMs % 2 ^ 32) := by
  unfold trainSwitch
  rw [htrain]
  dsimp only
  rw [if_neg (by simp [hcore]), if_pos (by rwa [List.all_eq_true])]

variable (hserves : ∀ g ∈ (s.lib tr.newEntry).man.groupsNamed (s.lib tr.newEntry).variant, s.groupInService g = true)
include hserves

theorem trainSwitch_of_spoilt (h : (s.lib tr.newEntry).rows = [] ∧ f.uncorr = true ∧ s.rdB Key.t2EccActive = true ∧
    s.masterInT2 q tr = true) :
    trainSwitch q f s = (s.t2Spoilt f.channel).trainFail q tr CS.ioError (f.timeMs % 2 ^ 32) := by
  unfold trainSwitch
  rw [htrain]
  dsimp only
  rw [if_neg (by simp [hcore]), if_neg (by rwa [List.all_eq_true, not_not]), if_pos h]
  rfl

variable (hwhole : ¬ ((s.lib tr.newEntry).rows = [] ∧ f.uncorr = true ∧ s.rdB Key.t2EccActive = true ∧
  s.masterInT2 q tr = true))
include hwhole

theorem trainSwitch_of_unprogrammed (h : ¬ ((s.lib tr.newEntry).rows ≠ [] ∨ s.allProgrammed tr.newEntry tr.turns = true)) :
    trainSwitch q f s = s := by
  unfold trainSwitch
  rw [htrain]
  dsimp only
  rw [if_neg (by simp [hcore]), if_neg (by rwa [List.all_eq_true, not_not]), if_neg hwhole, if_pos (by simpa using h)]

/-- The version that stands at the switch. -/
def State.atSwitch (s : State) (q : QNum) (tr : Train) : State :=
  if (s.lib tr.newEntry).rows = [] then s.writeVersion q tr else s

theorem trainSwitch_of_written (h : (s.lib tr.newEntry).rows ≠ [] ∨ s.allProgrammed tr.newEntry tr.turns = true) :
    trainSwitch q f s = if (s.atSwitch q tr).rd (Key.qHandle q (tr.oldEntry + 1)) ≠ 0 ∧
        (s.atSwitch q tr).textBound q ((s.atSwitch q tr).rd (Key.qHandle q (tr.oldEntry + 1))) = true then
      (s.atSwitch q tr).wr (Key.qTrainPhase q) 3 else (s.atSwitch q tr).trainTake q tr (f.timeMs % 2 ^ 32) := by
  unfold trainSwitch
  rw [htrain]
  dsimp only
  rw [if_neg (by simp [hcore]), if_neg (by rwa [List.all_eq_true, not_not]), if_neg hwhole,
      if_neg (by simpa [or_iff_not_imp_left] using h)]
  rfl

end

theorem State.atSwitch_stands (hinv : valsWf s.sku 0 s.dict.vals = true) (hlib : Tab.rising 0 s.nv.lib = true)
    (hne : tr.oldEntry ≠ tr.newEntry) : s.VersionStands q tr (s.atSwitch q tr) ∧
    ((s.lib tr.newEntry).rows = [] →
      ((s.atSwitch q tr).lib tr.newEntry).hash = bodyHash tr.frames (s.lib tr.newEntry).stripes) := by
  unfold State.atSwitch
  split
  · next hrows =>
    obtain ⟨hstands, hhash⟩ := State.writeVersion_stands (q := q) hinv hlib hne
    exact ⟨hstands, fun _ => hhash⟩
  · next hrows => exact ⟨.refl hinv hlib, fun h => absurd h hrows⟩

theorem trainSwitchesClause : TrainSwitchesClause := by
  intro s q f tr hinv htrain hcore hroom hlive ho hn hne hunread x serves spoilt written old fails
  have hlib := rising_lib_of_tabsRising hinv.2.2
  have hvals := hinv.1
  obtain ⟨-, -, hnotTrain, hnotBytes, hnotT2⟩ := handleKey_apart (handleKeys q (n := tr.oldEntry + 1) (by omega)).1
  refine ⟨fun hserves => ?unserved, fun hserves hspoilt => ?spoilt, fun hserves hwhole hunwritten => ?unwritten,
    fun hserves hrows hold hbound => ?bound, fun hserves hwhole hwritten hfree => ?switched⟩
  case unserved =>
    obtain ⟨hcompletes, hfailed⟩ := State.trainFail_failed (tr := tr) (.refl s q) hvals hlib hunread hlive hroom
      (show CS.noSpace < 256 by decide) (f.timeMs % 2 ^ 32)
    exact ⟨_, congrArg Host.Outcome.next (trainSwitch_of_unserved htrain hcore hserves), hcompletes, hfailed.emptied,
        hfailed.other _ hne,
      hfailed.train, hfailed.rd _ hnotTrain hnotBytes⟩
  case spoilt =>
    obtain ⟨hwrites, hnv, hweave, hcount⟩ := State.t2Spoilt_spec hvals f.channel
    have hswitch := trainSwitch_of_spoilt htrain hcore hserves hspoilt
    generalize s.t2Spoilt f.channel = v at hwrites hnv hweave hcount hswitch
    have hlibs := State.lib_of_nv hnv
    obtain ⟨hcompletes, hfailed⟩ := State.trainFail_failed (tr := tr)
      (.of_writesOnly hvals (completionKeys_not_t2Report q) hwrites) (hwrites.regs.wf hvals) (by rwa [hnv])
      (fun a ha => hunread a (by rwa [hweave] at ha)) (by rwa [Lively, State.quire_of_quires hwrites.quires q]) hroom
      (show CS.ioError < 256 by decide) (f.timeMs % 2 ^ 32)
    refine ⟨_, congrArg Host.Outcome.next hswitch, ⟨hcompletes, ?_, ?_, hfailed.train, ?_⟩, ?_⟩
    · rw [hfailed.emptied, hlibs]
    · rw [hfailed.other _ hne, hlibs]
    · rw [hfailed.rd _ hnotTrain hnotBytes, hwrites.regs.rd hvals _ hnotT2]
    · rw [hfailed.rd _ (t2Uncorr_apart q).1 (t2Uncorr_apart q).2, hcount]
  case unwritten => exact congrArg Host.Outcome.next (trainSwitch_of_unprogrammed htrain hcore hserves hwhole hunwritten)
  case bound =>
    have hstay : s.atSwitch q tr = s := if_neg hrows
    refine congrArg Host.Outcome.next ((trainSwitch_of_written htrain hcore hserves (fun h => hrows h.1) (.inl hrows)).trans ?_)
    rw [hstay]
    exact if_pos ⟨hold, hbound⟩
  case switched =>
    obtain ⟨hstands, hhash⟩ := State.atSwitch_stands (q := q) hvals hlib hne
    have hswitch := trainSwitch_of_written htrain hcore hserves hwhole hwritten
    generalize s.atSwitch q tr = v at hstands hhash hswitch
    rw [hstands.rd _ hnotBytes, hstands.bound, if_neg (by simpa [or_iff_not_imp_left] using hfree)] at hswitch
    obtain ⟨hcompletes, hdone⟩ := State.trainTake_done hstands.cq hroom (hstands.live hlive) hstands.wf hstands.rising ho hn
      hne (f.timeMs % 2 ^ 32)
    rw [hstands.generation] at hcompletes
    have hmask := linkMask_apart q (n := tr.oldEntry + 1) (by omega)
    refine ⟨_, congrArg Host.Outcome.next hswitch, hcompletes, ?_, hdone.oldHandle, ?_, ?_, ?_, ?_, fun hrows => ?_, ?_,
        hdone.train,
      hdone.phase, ?_⟩
    · rw [hdone.newHandle, hstands.generation]
    · rw [hdone.variant, hstands.rd _ (handleKey_apart (handleKeys q (n := tr.oldEntry + 1) (by omega)).2).2.2.2.1]
    · rw [hdone.mask, hstands.rd _ hmask.2.2.2]
    · rw [hdone.installed]
    · rw [hdone.installed, hstands.generation]
    · rw [hdone.installed, hhash hrows]
    · rw [hdone.removal, hstands.old]
    · rw [hdone.commits, hstands.rd _ (pressBytes_not_trainCommits q)]

/-- Settles O44: a commit's checks in their order, and its end: it fails, waits or switches to the new content. -/
theorem trainingCommits : Obligations.TrainingCommits := ⟨trainChecksClause, trainSwitchesClause⟩

end Sys2Proof.Machine
end

section
/-! PROOFS. LOAD_SLIPCASE: the checks of its steps, and the entry it takes (15, R732 to R748). -/

namespace Sys2Proof.Machine

variable {s t u : State} {q : QNum} {r : RingNum} {e : Entry}

/-- A load from host memory as its entry starts. -/
def hostLoad (q : QNum) (e : Entry) (bytes : List Byte) (running : Bool) : Load :=
  { quire := q, entry := e, prefixBytes := bytes, running := running, lib := none, staged := false, session := none,
    key := [], chunks := 0, chunkCount := 0, body := [], badChunk := none, turns := [] }

/-- The entry has started its load: beside the quire and the list of loads nothing has changed. -/
structure State.LoadEntered (s : State) (q : QNum) (e : Entry) (u : State) : Prop where
  frame : ∃ quires loads, u = { s with quires := quires, nv := { s.nv with loads := loads } }
  count : u.nv.loads.length = s.nv.loads.length + 1
  started : (u.quire q).started = (s.quire q).started ++ [{ entry := e, work := .load }]
  live : Lively u q
  cq : s.SameCq u q
  train : ∀ p, (u.quire p).train = (s.quire p).train

theorem State.startEntry_train (s : State) (q p : QNum) (r : RingNum) (e : Entry) (w : Work) :
    ((s.startEntry q r e w).quire p).train = (s.quire p).train := by
  by_cases hp : p = q
  · subst hp
    rw [s.startEntry_quire, s.popEntry_quire]
    rfl
  · exact congrArg Quire.train (((s.popEntry q r).modQuire_quire_ne _ hp).trans (s.modQuire_quire_ne _ hp))

theorem State.startEntry_entered (s : State) (q : QNum) (r : RingNum) (e : Entry) (l : Load) :
    s.LoadEntered q e ((s.startEntry q r e .load).setNv { s.nv with loads := s.nv.loads ++ [l] }) := by
  have hquire := s.startEntry_quire q r e .load
  have htrain := fun p => s.startEntry_train q p r e .load
  have hpop := s.popEntry_quire q r
  constructor
  case frame => exact ⟨_, _, rfl⟩
  case count => exact List.length_append
  case started => exact congrArg Quire.started hquire
  case live =>
    show (State.quire (s.startEntry q r e .load) q).state ≠ _ ∧ (State.quire (s.startEntry q r e .load) q).state ≠ _
    rw [hquire, hpop]
    exact ⟨by simp, by simp⟩
  case cq =>
    have hcq : s.SameCq (s.startEntry q r e .load) q := by
      constructor
      case cqBase | cqSize | pasid | out => rfl
      all_goals
        rw [hquire, hpop]
        rfl
    exact ⟨hcq.ctrCompleted, hcq.cqTail, hcq.cqHead, hcq.phase, hcq.heldCq, rfl, rfl, rfl, rfl⟩
  case train => exact htrain

theorem State.LoadEntered.setLoad (h : s.LoadEntered q e u) (l : Load) : s.LoadEntered q e (u.setLoad l) where
  frame := by
    obtain ⟨quires, loads, rfl⟩ := h.frame
    exact ⟨_, _, rfl⟩
  count := (List.length_map _).trans h.count
  started := h.started
  live := h.live
  cq := ⟨h.cq.ctrCompleted, h.cq.cqTail, h.cq.cqHead, h.cq.phase, h.cq.heldCq, h.cq.cqBase, h.cq.cqSize, h.cq.pasid, h.cq.out⟩
  train := h.train

namespace State.LoadEntered

theorem lib (h : s.LoadEntered q e u) (n : Nat) : u.lib n = s.lib n := by
  obtain ⟨quires, loads, rfl⟩ := h.frame
  rfl

theorem nvLib (h : s.LoadEntered q e u) : u.nv.lib = s.nv.lib := by
  obtain ⟨quires, loads, rfl⟩ := h.frame
  rfl

theorem rd (h : s.LoadEntered q e u) (k : Nat) : u.rd k = s.rd k := by
  obtain ⟨quires, loads, rfl⟩ := h.frame
  rfl

theorem dict (h : s.LoadEntered q e u) : u.dict = s.dict := by
  obtain ⟨quires, loads, rfl⟩ := h.frame
  rfl

theorem sku (h : s.LoadEntered q e u) : u.sku = s.sku := by
  obtain ⟨quires, loads, rfl⟩ := h.frame
  rfl

theorem keysLive (h : s.LoadEntered q e u) : u.keysLive = s.keysLive := by
  obtain ⟨quires, loads, rfl⟩ := h.frame
  rfl

theorem signatureOk (h : s.LoadEntered q e u) (g : Nat → Byte) : u.signatureOk g = s.signatureOk g := by
  obtain ⟨quires, loads, rfl⟩ := h.frame
  rfl

theorem arbSlipcase (h : s.LoadEntered q e u) : u.arbSlipcase = s.arbSlipcase := by
  obtain ⟨quires, loads, rfl⟩ := h.frame
  rfl

theorem contentKey (h : s.LoadEntered q e u) (g : Nat → Byte) : u.contentKey g = s.contentKey g := by
  obtain ⟨quires, loads, rfl⟩ := h.frame
  rfl

theorem loadBase (h : s.LoadEntered q e u) (l : Load) (x : SlipHeader) (m : Manifest) : u.loadBase l x m = s.loadBase l x m
    := by
  obtain ⟨quires, loads, rfl⟩ := h.frame
  rfl

theorem freeEntry (h : s.LoadEntered q e u) : u.freeEntry = s.freeEntry := by
  obtain ⟨quires, loads, rfl⟩ := h.frame
  rfl

theorem rowsFor (h : s.LoadEntered q e u) (m : Manifest) (v n : Nat) : u.rowsFor m v n = s.rowsFor m v n := by
  obtain ⟨quires, loads, rfl⟩ := h.frame
  rfl

theorem usedT3 (h : s.LoadEntered q e u) (p : QNum) : u.usedT3 p = s.usedT3 p := by
  have htrain := h.train p
  obtain ⟨quires, loads, rfl⟩ := h.frame
  unfold State.usedT3
  rw [htrain]
  rfl

theorem shortfall (h : s.LoadEntered q e u) (p : QNum) (m : Manifest) (v n : Nat) :
    u.shortfall p m v n = s.shortfall p m v n := by
  have hused := h.usedT3 p
  obtain ⟨quires, loads, rfl⟩ := h.frame
  unfold State.shortfall State.headT3
  rw [hused]
  rfl

theorem fits (h : s.LoadEntered q e u) (p : QNum) (m : Manifest) (n v : Nat) : u.fits p m n v = s.fits p m n v :=
  congrArg Short.none (h.shortfall p m v n)

/-- A load that fails at one of its steps. -/
theorem failLoad (h : s.LoadEntered q e u) (hwf : valsWf s.sku 0 s.dict.vals = true) (hroom : CqRoom s q) (bytes : List Byte)
    (running : Bool) {status : Nat} (hst : status < 256) (variant entry : Nat) (x : Short) :
    LoadEnds s (u.failLoad (hostLoad q e bytes running) status variant entry x) q e status 0 ∧
      (u.failLoad (hostLoad q e bytes running) status variant entry x).nv.lib = s.nv.lib := by
  have hwf' : valsWf u.sku 0 u.dict.vals = true := by rwa [h.sku, h.dict]
  obtain ⟨⟨hcompletes, hreport, hdone, hfailed⟩, hnv, -⟩ := State.endLoad_loadEnds (l := hostLoad q e bytes running) hwf'
    (u.fresh_writesOnly fun _ => False) (fun _ _ => id) (fun _ _ => id) h.live (h.cq.room hroom) hst variant entry x 0
    (u.fresh.1 % 2 ^ 32) 0
  refine ⟨⟨h.cq.completes hcompletes, hreport, fun hok => ?_, fun hno => ?_⟩, ?_⟩
  · exact (hdone hok).trans (by rw [h.rd]; rfl)
  · exact (hfailed hno).trans (by rw [h.rd]; rfl)
  · rw [State.failLoad]
    rw [hnv]
    exact h.nvLib

end State.LoadEntered

/-! ### The steps (R740) -/

section
variable {bytes : List Byte}

/-- Steps 5 to 7: the key, the base, the admission. -/
def State.keyAndBase (s : State) (l : Load) (g : Nat → Byte) : State :=
  match s.contentKey g with
  | none => s.failLoad l CS.auth
  | some key =>
    match s.loadBase l (parseSlip g) (parseMan g) with
    | none => s.failLoad l CS.noHandle
    | some base => s.admitLoad l g key base

section
variable {l : Load} {g : Nat → Byte}

theorem State.keyAndBase_of_noKey (h : s.contentKey g = none) : s.keyAndBase l g = s.failLoad l CS.auth := by
  rw [State.keyAndBase, h]

theorem State.keyAndBase_of_noBase (h : s.contentKey g ≠ none) (hbase : s.loadBase l (parseSlip g) (parseMan g) = none) :
    s.keyAndBase l g = s.failLoad l CS.noHandle := by
  obtain ⟨key, hkey⟩ := Option.ne_none_iff_exists'.1 h
  rw [State.keyAndBase, hkey]
  dsimp only
  rw [hbase]

theorem State.keyAndBase_of_base {base : Nat} (h : s.contentKey g ≠ none)
    (hbase : s.loadBase l (parseSlip g) (parseMan g) = some base) : ∃ key, s.keyAndBase l g = s.admitLoad l g key base := by
  obtain ⟨key, hkey⟩ := Option.ne_none_iff_exists'.1 h
  refine ⟨key, ?_⟩
  rw [State.keyAndBase, hkey]
  dsimp only
  rw [hbase]

end

/-- Steps 1 to 7 of a load from host memory. -/
theorem State.loadSteps_of_host (u : State) (q : QNum) (bytes : List Byte) (hsrc : e.srcKind = 0) :
    let g := fun i => bytes.getD i 0
    let l := hostLoad q e bytes true
    u.loadSteps l =
      if ¬ (headerOk g = true ∧ manifestOk g = true ∧
          fieldLe e.bytes 16 8 = (parseSlip g).bodyOff + stripeBytes * (parseSlip g).stripes) then u.failLoad l CS.auth
      else if ¬ ((parseSlip g).kind = 2 ↔ e.baseHandle ≠ 0) then u.failLoad l CS.noHandle
      else if u.signatureOk g = false then u.failLoad l CS.auth
      else if (parseSlip g).epoch < u.arbSlipcase then u.failLoad l CS.rollback
      else if allE.any (fun x => (u.lib x).state == .installed && (u.lib x).hash == (parseSlip g).hash) then
        let o := u.linkOutcome q (parseSlip g).hash
        let v := u.linkTake q o
        v.fresh.2.endLoad l o.status o.variant o.entry o.short 0 (v.fresh.1 % 2 ^ 32) (v.linkResult q o)
      else if allE.any (fun x => (u.lib x).state == .loading && (u.lib x).hash == (parseSlip g).hash) then u
      else u.keyAndBase l g := by
  intro g l
  have hg : u.prefixOf l = g := by
    unfold State.prefixOf
    rw [show l.entry.srcKind = 0 from hsrc]
    rfl
  have hkey : u.loadKey l g = u.contentKey g := rfl
  unfold State.loadSteps
  rw [hg]
  dsimp only
  rw [hkey]
  refine if_congr ?form rfl (if_congr ?kind rfl (if_congr ?signed rfl (if_congr Iff.rfl rfl (if_congr Iff.rfl rfl
    (if_congr Iff.rfl rfl rfl)))))
  case form =>
    have hsession : l.session = none := rfl
    have hentry : l.entry = e := rfl
    simp only [hsession, hentry, Option.isSome_none, Bool.not_false, Bool.true_or, Bool.true_and, Bool.false_or,
      Bool.not_eq_true', ← Bool.not_eq_true, Bool.and_eq_true, beq_iff_eq, and_assoc]
  case kind => exact not_congr eq_iff_iff
  case signed => simp

/-! ### The start (R736, R743, R867) -/

theorem State.loadsRunning_of_entered (s : State) (q : QNum) (r : RingNum) (e : Entry) (bytes : List Byte) :
    ((s.startEntry q r e .load).setNv { s.nv with loads := s.nv.loads ++ [hostLoad q e bytes false] }).loadsRunning =
      s.loadsRunning := by
  have htrain := fun p => s.startEntry_train q p r e .load
  unfold State.loadsRunning
  refine congrArg₂ _ ?_ (congrArg List.length (List.filter_congr fun p _ => congrArg Option.isSome (htrain p)))
  exact congrArg List.length ((List.filter_append ..).trans (List.append_nil _))

/-- The source a load from host memory reads. -/
def State.hostRead (s : State) (q : QNum) (e : Entry) : State :=
  s.emit (.dmaRead q (s.rd (Key.qPasid q)) (fieldLe e.bytes 8 8) (fieldLe e.bytes 16 8))

theorem loadSlipcase_of_host (f : LoadFacts) (hstart : s.startable q r 0x02 = some e) (hsrc : e.srcKind = 0)
    (hfew : s.loadsRunning < 4) :
    (s.keysLive = false → ∃ u, s.LoadEntered q e u ∧
      loadSlipcase q r f s = u.failLoad (hostLoad q e f.prefixBytes false) CS.auth) ∧
    (s.keysLive = true → ∃ u, (s.hostRead q e).LoadEntered q e u ∧
      loadSlipcase q r f s = u.loadSteps (hostLoad q e f.prefixBytes true)) := by
  have hentered := s.startEntry_entered q r e (hostLoad q e f.prefixBytes false)
  have hrunning := s.loadsRunning_of_entered q r e f.prefixBytes
  have heq : loadSlipcase q r f s = State.advanceLoad
      ((s.startEntry q r e .load).setNv { s.nv with loads := s.nv.loads ++ [hostLoad q e f.prefixBytes false] })
      (hostLoad q e f.prefixBytes false) := by
    unfold loadSlipcase
    rw [hstart]
    dsimp only
    rw [hsrc]
    rfl
  have hread : (s.hostRead q e).LoadEntered q e (((s.startEntry q r e .load).setNv
      { s.nv with loads := s.nv.loads ++ [hostLoad q e f.prefixBytes false] }).emit
        (.dmaRead q (s.rd (Key.qPasid q)) (fieldLe e.bytes 8 8) (fieldLe e.bytes 16 8))) :=
    (s.hostRead q e).startEntry_entered q r e (hostLoad q e f.prefixBytes false)
  generalize (s.startEntry q r e .load).setNv { s.nv with loads := s.nv.loads ++ [hostLoad q e f.prefixBytes false] } = u
    at hentered hrunning heq hread
  have hmay : u.mayRun (hostLoad q e f.prefixBytes false) = true := by
    rw [State.mayRun, hrunning, decide_eq_true hfew]
    rfl
  have hkeys : u.keysLive = s.keysLive := hentered.keysLive
  have hadvance : u.advanceLoad (hostLoad q e f.prefixBytes false) =
      if u.keysLive = false then u.failLoad (hostLoad q e f.prefixBytes false) CS.auth
      else (((u.emit (.dmaRead q (s.rd (Key.qPasid q)) (fieldLe e.bytes 8 8) (fieldLe e.bytes 16 8))).setLoad
        (hostLoad q e f.prefixBytes true)).loadSteps (hostLoad q e f.prefixBytes true)) := by
    have hsource : u.readSource (hostLoad q e f.prefixBytes false) =
        u.emit (.dmaRead q (s.rd (Key.qPasid q)) (fieldLe e.bytes 8 8) (fieldLe e.bytes 16 8)) := by
      rw [← hentered.rd]
      exact if_pos hsrc
    unfold State.advanceLoad
    rw [if_neg (by simp [hostLoad]), if_neg (not_not_intro hmay)]
    refine if_congr (by simp) rfl ?_
    rw [if_neg (by show ¬ e.srcKind = 2; omega)]
    exact congrArg (fun v : State => (v.setLoad (hostLoad q e f.prefixBytes true)).loadSteps _) hsource
  rw [heq, hadvance, hkeys]
  exact ⟨fun hdead => ⟨u, hentered, if_pos hdead⟩, fun hlive => ⟨_, hread.setLoad _, if_neg (by simp [hlive])⟩⟩

/-! ### The admission (R745 to R748) -/

section
variable {l : Load} {g : Nat → Byte} {key : Nat × Nat × List Byte} {base : Nat}

/-- The variants of a manifest in which it fits the quire. -/
def State.fitting (s : State) (q : QNum) (m : Manifest) (stripes : Nat) : List Nat :=
  (List.range m.variants.length).filter fun v => s.fits q m stripes v

theorem State.fitting_eq_nil (s : State) (q : QNum) (m : Manifest) (stripes : Nat) :
    s.fitting q m stripes = [] ↔ ∀ v, v < m.variants.length → s.fits q m stripes v = false := by
  simp [State.fitting]

theorem State.admitLoad_of_unfit (hno : s.fitting l.quire (parseMan g) (parseSlip g).stripes = []) :
    ∃ v x, s.admitLoad l g key base = s.failLoad l CS.noFit v 0xFF x := by
  unfold State.admitLoad
  dsimp only
  exact ⟨_, _, if_pos hno⟩

theorem State.admitLoad_of_full (hfit : s.fitting l.quire (parseMan g) (parseSlip g).stripes ≠ [])
    (hfull : s.freeEntry = none ∨ (s.fitting l.quire (parseMan g) (parseSlip g).stripes).find?
      (fun v => s.rowsFor (parseMan g) v (parseSlip g).stripes) = none) :
    s.admitLoad l g key base = s.failLoad l CS.noSpace := by
  unfold State.admitLoad
  dsimp only
  refine (if_neg hfit).trans ?_
  obtain hnone | hnone := hfull
  · rw [hnone]
    split
    · next heq => exact absurd heq (by simp)
    · rfl
  · rw [State.fitting] at hnone
    rw [hnone]

/-- The entry a load takes. -/
def loadedEntry (g : Nat → Byte) (key : Nat × Nat × List Byte) (base v generation : Nat) : LibEntry :=
  { state := .loading, kind := (parseSlip g).kind, peerOk := bit (parseSlip g).hflags 0, variant := v,
    modelId := (parseSlip g).modelId, modelVersion := (parseSlip g).version, generation := generation,
    base := if base = 0xFF then none else some base, wrap := key.1, stripes := (parseSlip g).stripes,
    hash := (parseSlip g).hash, man := parseMan g, lost := [], rows := [], removeReq := false,
    signed := (List.range (parseSlip g).sigEnd).map g, classId := key.2.1 }

theorem loadedEntry_fields (g : Nat → Byte) (key : Nat × Nat × List Byte) (base v generation : Nat) :
    (loadedEntry g key base v generation).state = .loading ∧ (loadedEntry g key base v generation).variant = v ∧
    (loadedEntry g key base v generation).hash = (parseSlip g).hash ∧
    (loadedEntry g key base v generation).man = parseMan g ∧
    (loadedEntry g key base v generation).stripes = (parseSlip g).stripes ∧
    (loadedEntry g key base v generation).base = if base = 0xFF then none else some base := ⟨rfl, rfl, rfl, rfl, rfl, rfl⟩

theorem State.admitLoad_of_room {v n : Nat} (hfind : (s.fitting l.quire (parseMan g) (parseSlip g).stripes).find?
      (fun v => s.rowsFor (parseMan g) v (parseSlip g).stripes) = some v) (hfree : s.freeEntry = some n) :
    s.admitLoad l g key base = ((s.setLib n (loadedEntry g key base v (s.lib n).generation)).setLoad
      { l with lib := some n, chunkCount := (parseSlip g).chunks, key := key.2.2 }).consumeStaged := by
  have hfit : s.fitting l.quire (parseMan g) (parseSlip g).stripes ≠ [] := fun hnil => by simp [hnil] at hfind
  unfold State.admitLoad
  dsimp only
  refine (if_neg hfit).trans ?_
  rw [State.fitting] at hfind
  rw [hfind, hfree]
  rfl

end

/-- What a staged load that reads on leaves as it was. -/
theorem State.consumeStaged_keeps (s : State) : s.consumeStaged.nv.lib = s.nv.lib ∧ s.consumeStaged.quires = s.quires ∧
    s.consumeStaged.nv.loads.length = s.nv.loads.length ∧ s.consumeStaged.dict = s.dict ∧ s.consumeStaged.out = s.out := by
  unfold State.consumeStaged
  split
  · exact ⟨rfl, rfl, rfl, rfl, rfl⟩
  · exact ⟨rfl, rfl, List.length_map _, rfl, rfl⟩

/-- No entry holds or loads the content. -/
def State.FreshContent (s : State) (hash : Nat) : Prop :=
  ∀ x, x < 64 → (s.lib x).hash = hash → (s.lib x).state ≠ .installed ∧ (s.lib x).state ≠ .loading

theorem State.FreshContent.none {hash : Nat} (h : s.FreshContent hash) :
    ¬ allE.any (fun x => (s.lib x).state == .installed && (s.lib x).hash == hash) = true ∧
    ¬ allE.any (fun x => (s.lib x).state == .loading && (s.lib x).hash == hash) = true := by
  simp only [allE, List.any_eq_true, List.mem_range, Bool.and_eq_true, beq_iff_eq, not_exists, not_and]
  exact ⟨fun x hx hstate hhash => (h x hx hhash).1 hstate, fun x hx hstate hhash => (h x hx hhash).2 hstate⟩

theorem State.fitting_find? {m : Manifest} {n v : Nat} (hv : v < m.variants.length) (hfit : s.fits q m n v = true)
    (hrows : s.rowsFor m v n = true) (hfirst : ∀ u, u < v → s.fits q m n u = true → s.rowsFor m u n = false) :
    (s.fitting q m n).find? (fun v => s.rowsFor m v n) = some v := by
  rw [State.fitting, List.find?_filter, List.find?_range_eq_some]
  refine ⟨by simp [hfit, hrows], List.mem_range.2 hv, fun u hu => ?_⟩
  simpa [or_iff_not_imp_left] using hfirst u hu

theorem State.fitting_find?_none {m : Manifest} {n : Nat}
    (h : ∀ v, v < m.variants.length → s.fits q m n v = true → s.rowsFor m v n = false) :
    (s.fitting q m n).find? (fun v => s.rowsFor m v n) = none := by
  simpa [State.fitting] using h

/-- The base of a tip-in is an entry; a text block has none. -/
theorem State.loadBase_none_iff {l : Load} {h : SlipHeader} {m : Manifest} {base : Nat} (hbase : s.loadBase l h m = some base) :
    base = 0xFF ↔ h.kind = 1 := by
  unfold State.loadBase at hbase
  split at hbase
  · next hkind => exact ⟨fun _ => hkind, fun _ => (Option.some.inj hbase).symm⟩
  · next hkind =>
    split at hbase
    · next k hvalid =>
      split at hbase
      · have hlt := State.validHandle_lt hvalid
        have heq := Option.some.inj hbase
        exact ⟨fun hff => absurd hff (by omega), fun hone => absurd hone hkind⟩
      · cases hbase
    · cases hbase

/-- The state after a load takes entry `n` as `x`. -/
theorem State.LoadEntered.admitted (h : s.LoadEntered q e u) (hlib : Tab.rising 0 s.nv.lib = true) (n : Nat) (x : LibEntry)
    (l : Load) : ∃ t, ((u.setLib n x).setLoad l).consumeStaged = t ∧
      (∀ k, t.lib k = if k = n then x else s.lib k) ∧
      (t.quire q).started = (s.quire q).started ++ [{ entry := e, work := .load }] ∧
      t.nv.loads.length = s.nv.loads.length + 1 ∧ t.dict = s.dict ∧ t.out = s.out := by
  have hrising : Tab.rising 0 u.nv.lib = true := by rwa [h.nvLib]
  have hlibs : ∀ k, ((u.setLib n x).setLoad l).lib k = if k = n then x else s.lib k := fun k =>
    (State.setLib_lib hrising n k x).trans (by rw [h.lib])
  have hset : ((u.setLib n x).setLoad l).nv.loads.length = s.nv.loads.length + 1 := (List.length_map _).trans h.count
  have hkept : ((u.setLib n x).setLoad l).quires = u.quires ∧ ((u.setLib n x).setLoad l).dict = u.dict ∧
      ((u.setLib n x).setLoad l).out = u.out := ⟨rfl, rfl, rfl⟩
  generalize (u.setLib n x).setLoad l = v at hlibs hset hkept
  obtain ⟨hquires, hdict, hout⟩ := hkept
  obtain ⟨hvlib, hvquires, hvcount, hvdict, hvout⟩ := v.consumeStaged_keeps
  refine ⟨_, rfl, fun k => ?_, ?_, hvcount.trans hset, hvdict.trans (hdict.trans h.dict), hvout.trans (hout.trans h.cq.out)⟩
  · rw [← hlibs, State.lib, hvlib, State.lib]
  · rw [State.quire_of_quires (hvquires.trans hquires) q, h.started]

theorem loadStepsClause : LoadStepsClause := by
  intro s q r e f hinv hroom hstart hsrc hfew g h m l form kind signed read fresh key ends
  obtain ⟨hdead, hlive⟩ := loadSlipcase_of_host f hstart hsrc hfew
  have hwf : valsWf s.sku 0 s.dict.vals = true := hinv.1
  have hlib : Tab.rising 0 s.nv.lib = true := rising_lib_of_tabsRising hinv.2.2
  have hends {u : State} (hu : read.LoadEntered q e u) {status : Nat} (hst : status < 256) {variant entry : Nat} {x : Short}
      (heq : loadSlipcase q r f s = u.failLoad l status variant entry x) : ends status := by
    obtain ⟨hfail, hnv⟩ := hu.failLoad hwf hroom f.prefixBytes true hst variant entry x
    exact ⟨_, congrArg Host.Outcome.next heq, hfail, hnv⟩
  have hsteps (hkeys : s.keysLive = true) : ∃ u, read.LoadEntered q e u ∧ loadSlipcase q r f s = u.loadSteps l ∧
      u.signatureOk g = s.signatureOk g ∧ u.arbSlipcase = s.arbSlipcase := by
    obtain ⟨u, hu, heq⟩ := hlive hkeys
    exact ⟨u, hu, heq, hu.signatureOk g, hu.arbSlipcase⟩
  have hhost (u : State) := u.loadSteps_of_host q f.prefixBytes hsrc
  refine ⟨fun hoff => ?dead, fun hkeys hform => ?form, fun hkeys hform hkind => ?kind, fun hkeys hform hkind hsigned => ?signed,
    fun hkeys hform hkind hsigned hepoch => ?epoch, fun hkeys hform hkind hsigned hepoch hfresh => ?_⟩
  case dead =>
    obtain ⟨u, hentered, heq⟩ := hdead hoff
    obtain ⟨hfail, hnv⟩ := hentered.failLoad hwf hroom f.prefixBytes false (show CS.auth < 256 by decide) 0xFF 0xFF Short.zero
    exact ⟨_, congrArg Host.Outcome.next heq, hfail, hnv⟩
  case form =>
    obtain ⟨u, hu, heq, -, -⟩ := hsteps hkeys
    exact hends hu (by decide) (heq.trans ((hhost u).trans (if_pos hform)))
  case kind =>
    obtain ⟨u, hu, heq, -, -⟩ := hsteps hkeys
    exact hends hu (by decide) (heq.trans ((hhost u).trans ((if_neg (not_not_intro hform)).trans (if_pos hkind))))
  case signed =>
    obtain ⟨u, hu, heq, hsign, -⟩ := hsteps hkeys
    exact hends hu (by decide) (heq.trans ((hhost u).trans ((if_neg (not_not_intro hform)).trans
      ((if_neg (not_not_intro hkind)).trans (if_pos (hsign.trans (Bool.not_eq_true _ ▸ hsigned)))))))
  case epoch =>
    obtain ⟨u, hu, heq, hsign, harb⟩ := hsteps hkeys
    exact hends hu (by decide) (heq.trans ((hhost u).trans ((if_neg (not_not_intro hform)).trans
      ((if_neg (not_not_intro hkind)).trans ((if_neg (by rw [hsign, hsigned]; simp)).trans (if_pos (by rwa [harb])))))))
  obtain ⟨u, hu, heq, hsign, harb⟩ := hsteps hkeys
  have hfresh' : u.FreshContent h.hash := fun x hx => by
    rw [hu.lib]
    exact hfresh x hx
  have hbelow : ¬ h.epoch < u.arbSlipcase := by
    rw [harb]
    omega
  replace heq := heq.trans ((hhost u).trans ((if_neg (not_not_intro hform)).trans
    ((if_neg (not_not_intro hkind)).trans ((if_neg (by rw [hsign, hsigned]; simp)).trans
      ((if_neg hbelow).trans ((if_neg hfresh'.none.1).trans (if_neg hfresh'.none.2)))))))
  have hkey : u.contentKey g = s.contentKey g := hu.contentKey g
  have hbase : u.loadBase l h m = s.loadBase l h m := hu.loadBase l h m
  refine ⟨fun hno => ?noKey, fun hyes hnone => ?noBase, fun base hyes hsome => ?_⟩
  case noKey => exact hends hu (by decide) (heq.trans (State.keyAndBase_of_noKey (hkey.trans (not_not.1 hno))))
  case noBase => exact hends hu (by decide) (heq.trans (State.keyAndBase_of_noBase (by rwa [hkey]) (hbase.trans hnone)))
  obtain ⟨k, hadmit⟩ := State.keyAndBase_of_base (l := l) (by rwa [hkey]) (hbase.trans hsome)
  replace heq := heq.trans hadmit
  have hfits : ∀ v, u.fits q m h.stripes v = s.fits q m h.stripes v := hu.fits q m h.stripes
  have hrows : ∀ v, u.rowsFor m v h.stripes = s.rowsFor m v h.stripes := fun v => hu.rowsFor m v h.stripes
  have hfree : u.freeEntry = s.freeEntry := hu.freeEntry
  refine ⟨fun hunfit => ?unfit, fun hfit hfull => ?full, fun v n hv hfit hroomy hfirst hempty => ?room⟩
  case unfit =>
    obtain ⟨v, x, hfail⟩ := State.admitLoad_of_unfit (s := u) (l := l) (g := g) (key := k) (base := base)
      ((u.fitting_eq_nil q m h.stripes).2 fun v hv => (hfits v).trans (hunfit v hv))
    exact hends hu (by decide) (heq.trans hfail)
  case full =>
    obtain ⟨v, hv, hfit⟩ := hfit
    have hsome' : u.fitting q m h.stripes ≠ [] := fun hnil =>
      Bool.false_ne_true (((u.fitting_eq_nil q m h.stripes).1 hnil v hv).symm.trans ((hfits v).trans hfit))
    refine hends hu (by decide) (heq.trans (State.admitLoad_of_full hsome' ?_))
    exact hfull.imp hfree.trans fun hnone => State.fitting_find?_none fun v hv hfit =>
      (hrows v).trans (hnone v hv ((hfits v).symm.trans hfit))
  case room =>
    have hfind := State.fitting_find? (s := u) (q := q) hv ((hfits v).trans hfit) ((hrows v).trans hroomy)
      fun w hw hfit => (hrows w).trans (hfirst w hw ((hfits w).symm.trans hfit))
    replace heq := heq.trans (State.admitLoad_of_room (l := l) (g := g) (key := k) (base := base) hfind (hfree.trans hempty))
    obtain ⟨t, ht, hlibs, hstarted, hcount, hdict, hout⟩ := hu.admitted hlib n (loadedEntry g k base v (u.lib n).generation)
      { l with lib := some n, chunkCount := (parseSlip g).chunks, key := k.2.2 }
    have hself := (hlibs n).trans (if_pos rfl)
    obtain ⟨hstate, hvariant, hhash, hman, hstripes, hbased⟩ := loadedEntry_fields g k base v (u.lib n).generation
    rw [← hself] at hstate hvariant hhash hman hstripes hbased
    exact ⟨t, congrArg Host.Outcome.next (heq.trans ht), hstate, hvariant, hhash, hman, hstripes,
      hbased.trans (if_congr (State.loadBase_none_iff hsome) rfl rfl), fun x hx => (hlibs x).trans (if_neg hx), hstarted,
      hcount, hdict, hout⟩
end

end Sys2Proof.Machine
end

section
/-! PROOFS. A freeze leaves the slipcase library as it was (06, R295). -/

namespace Sys2Proof.Machine

variable {s t u : State} {q : QNum}

namespace State.EntriesKept

theorem ite {c : Prop} [Decidable c] (ht : s.EntriesKept t) (hu : s.EntriesKept u) :
    s.EntriesKept (if c then t else u) := by
  split
  · exact ht
  · exact hu

section
variable (h : s.EntriesKept t)
include h

theorem modRun {id : Nat} {f : Run → Run} : s.EntriesKept (t.modRun q id f) := ⟨h.lib⟩
theorem count {k n : Nat} : s.EntriesKept (t.count k n) := ⟨h.lib⟩
theorem wr {k v : Nat} : s.EntriesKept (t.wr k v) := ⟨h.lib⟩
theorem setSt {x : StitchUnit} : s.EntriesKept (t.setSt x) := ⟨h.lib⟩
theorem setWeave {x : Weave} : s.EntriesKept (t.setWeave x) := ⟨h.lib⟩
theorem modQuire {f : Quire → Quire} : s.EntriesKept (t.modQuire q f) := ⟨h.lib⟩
theorem modBay {b : BayNum} {f : Bay → Bay} : s.EntriesKept (t.modBay b f) := ⟨h.lib⟩

end

theorem setLeaf (s : State) (p : Place) (n : Nat) (f : Mem) (xo : Bool) : s.EntriesKept ((s.setLeaf p n f).setXo p n xo) := by
  cases p <;> exact ⟨rfl⟩

theorem voidLeaf (s : State) (q : QNum) (addr : Nat) : s.EntriesKept (s.voidLeaf q addr) := by
  unfold State.voidLeaf
  split
  · split
    · exact .setLeaf s _ _ _ _
    · exact .refl s
  · exact .refl s

theorem leaveFrame (s : State) (q : QNum) (addr : Nat) (f : Mem) (xo : Bool) : s.EntriesKept (s.leaveFrame q addr f xo) := by
  unfold State.leaveFrame
  split
  · split
    · exact .setLeaf s _ _ _ _
    · exact ⟨rfl⟩
    · exact .refl s
  · exact .refl s

theorem dropUnsensed (s : State) (q : QNum) (run sc : Nat) : s.EntriesKept (s.dropUnsensed q run sc) := by
  refine .count (.foldl (.setWeave (.refl s)) fun t r => ?_)
  split
  · exact .modBay (.refl t)
  · exact .refl t

theorem absorbSignals (s : State) (ns : List Nat) : s.EntriesKept (s.absorbSignals ns) := by
  refine .foldl (.setSt (.refl s)) fun t p => ?_
  split
  · exact .count (.refl t)
  · exact .refl t

theorem countClose (s : State) (q : QNum) (run : Nat) (sc : Scope) (committed : Bool) :
    s.EntriesKept (s.countClose q run sc committed) := by
  unfold State.countClose
  exact .ite (.count (.count (.count (.count (.modRun (.refl s)))))) (.count (.count (.count (.count (.modRun (.refl s))))))

theorem cancelScope (s : State) (q : QNum) (r : Run) (sc : Scope) : s.EntriesKept (s.cancelScope q r sc) := by
  refine State.EntriesKept.trans ?_ (.countClose _ q r.id sc false)
  refine .foldl (.trans (.modRun ?_) (.absorbSignals _ _)) fun t n => .setSt (.refl t)
  refine .foldl (.foldl (.dropUnsensed s q r.id sc.id) fun t b => .modBay (.refl t)) fun t e => ?_
  exact .voidLeaf t q e.1

theorem cancelScopes (s : State) (q : QNum) : s.EntriesKept (s.cancelScopes q) :=
  .foldl (.refl s) fun t _ => .modRun (.foldl (.refl t) fun u c => .cancelScope u q _ c)

theorem flushMoves (s : State) (q : QNum) (b : BayNum) : s.EntriesKept (s.flushMoves q b) := by
  unfold State.flushMoves
  refine .modBay (.foldl (.refl s) fun t m => ?_)
  exact .leaveFrame t q m.addr m.frame m.xo

theorem endBayRun (s : State) (q : QNum) (b : BayNum) : s.EntriesKept (s.endBayRun q b) := by
  unfold State.endBayRun
  split
  · exact .ite (.modBay (.flushMoves s q b)) (.refl s)
  · exact .refl s

theorem endRuns (s : State) (q : QNum) : s.EntriesKept (s.endRuns q) :=
  .foldl ((State.EntriesKept.cancelScopes s q).trans ⟨rfl⟩) fun t b => .endBayRun t q b

theorem haltQuire (s : State) (q : QNum) : s.EntriesKept (s.haltQuire q) := by
  have hstop : s.EntriesKept (s.stopQuire q) := by
    obtain ⟨bays, heq⟩ := s.stopQuire_eq q
    exact heq ▸ ⟨rfl⟩
  have hpoison : s.EntriesKept ((s.stopQuire q).poisonQuire q) := .setWeave (.setSt (.setSt hstop))
  unfold State.haltQuire
  refine .ite (hpoison.trans ?_) hpoison
  unfold State.sentAbandon
  exact .ite ⟨rfl⟩ ⟨rfl⟩

theorem endDisabling (s : State) (q : QNum) (d : Option Disabling) : s.EntriesKept (s.endDisabling q d) := by
  unfold State.endDisabling
  exact .ite ⟨rfl⟩ (.refl s)

theorem msixSend (s : State) (v : Nat) : s.EntriesKept (s.msixSend v) := by
  obtain ⟨out, msix, heq⟩ := s.msixSend_eq v
  exact heq ▸ ⟨rfl⟩

theorem freeze (s : State) (q : QNum) (cause bay ring imp cycle cid sqi detail : Nat) (h : Lively s q) :
    s.EntriesKept (s.freeze q cause bay ring imp cycle cid sqi detail) := by
  rw [s.freeze_of_lively q _ _ _ _ _ _ _ _ h]
  refine .trans (.trans ?_ (.endDisabling _ q _)) (.msixSend _ _)
  exact .count (.modQuire (.trans (.wr (.endRuns s q)) (.haltQuire _ q)))

end State.EntriesKept

end Sys2Proof.Machine
end

section
/-! PROOFS. LOAD_COMPLETE: the end of a load's body (15, R717, R718, R740 to R742). -/

namespace Sys2Proof.Machine

variable {s t u : State} {q : QNum} {n : Fin 64} {f : BodyFacts} {l : Load}

/-- The load that LOAD_COMPLETE names, and the domain in which it goes on. -/
structure State.LoadRuns (s : State) (q : QNum) (n : Fin 64) (l : Load) : Prop where
  core : s.coreOn = true
  find : (s.nv.loads.find? fun l => l.quire == q && l.lib == some n.val) = some l
  host : l.staged = false

namespace State.LoadRuns

variable (h : s.LoadRuns q n l)
include h

theorem quire : l.quire = q := by
  have := List.find?_some (p := fun l : Load => l.quire == q && l.lib == some n.val) h.find
  simp only [Bool.and_eq_true, beq_iff_eq] at this
  exact this.1

theorem lib : l.lib = some n.val := by
  have := List.find?_some (p := fun l : Load => l.quire == q && l.lib == some n.val) h.find
  simp only [Bool.and_eq_true, beq_iff_eq] at this
  exact this.2

theorem unprogrammed (hno : s.allProgrammed n.val l.turns = false) : loadComplete q n f s = s := by
  unfold loadComplete
  rw [h.find]
  dsimp only
  rw [if_pos (by simp [hno])]

/-- A load whose stripes can be programmed now. -/
theorem programmed (hyes : s.allProgrammed n.val l.turns = true) :
    ¬ (¬ s.coreOn = true ∨ ¬ l.bodyRead = true ∨ ¬ s.allProgrammed n.val l.turns = true) := by
  simp [hyes, h.core, Load.bodyRead, h.host]

theorem badChunk (hyes : s.allProgrammed n.val l.turns = true) {c : Nat}
    (hbad : (l.readBody (s.lib n.val) f.body).badChunk = some c) : loadComplete q n f s =
      ((s.programFirst n.val (c * chunkBytes / stripeBytes) (l.readBody (s.lib n.val) f.body).body).emptyEntry n.val).endLoad l
        CS.auth (s.lib n.val).variant 0xFF Short.zero c (f.timeMs % 2 ^ 32) 0 := by
  unfold loadComplete
  rw [h.find]
  dsimp only
  rw [if_neg (h.programmed hyes), hbad]
  dsimp only
  rw [State.cleanLoad, h.lib]

theorem badHash (hyes : s.allProgrammed n.val l.turns = true) (hgood : (l.readBody (s.lib n.val) f.body).badChunk = none)
    (hbad : bodyHash (l.readBody (s.lib n.val) f.body).body (s.lib n.val).stripes ≠ (s.lib n.val).hash) :
    loadComplete q n f s = ((s.programStripes n.val (l.readBody (s.lib n.val) f.body).body).emptyEntry n.val).endLoad l
        CS.auth (s.lib n.val).variant 0xFF Short.zero l.chunkCount (f.timeMs % 2 ^ 32) 0 := by
  unfold loadComplete
  rw [h.find]
  dsimp only
  rw [if_neg (h.programmed hyes), hgood]
  dsimp only
  rw [if_pos hbad, State.cleanLoad, h.lib]

variable (hyes : s.allProgrammed n.val l.turns = true) (hgood : (l.readBody (s.lib n.val) f.body).badChunk = none)
  (hhash : bodyHash (l.readBody (s.lib n.val) f.body).body (s.lib n.val).stripes = (s.lib n.val).hash)
include hyes hgood hhash

theorem badImp {c : Nat × Failure}
    (hbad : (s.programStripes n.val (l.readBody (s.lib n.val) f.body).body).impsFail n.val = some c) :
    loadComplete q n f s = (((s.programStripes n.val (l.readBody (s.lib n.val) f.body).body).emptyEntry n.val).dropLoad
        l).valFail q l.entry 0 c.1 c.2 := by
  unfold loadComplete
  rw [h.find]
  dsimp only
  rw [if_neg (h.programmed hyes), hgood]
  dsimp only
  rw [if_neg (not_not_intro hhash), hbad]
  dsimp only
  rw [State.cleanLoad, h.lib]

theorem installs (hnone : (s.programStripes n.val (l.readBody (s.lib n.val) f.body).body).impsFail n.val = none) :
    loadComplete q n f s = (((s.programStripes n.val (l.readBody (s.lib n.val) f.body).body).install q n.val).endLoad l CS.ok
      (s.lib n.val).variant n.val Short.zero l.chunkCount (f.timeMs % 2 ^ 32)
      (((s.programStripes n.val (l.readBody (s.lib n.val) f.body).body).install q n.val).rd (Key.qHandle q (n.val + 1)))) := by
  unfold loadComplete
  rw [h.find]
  dsimp only
  rw [if_neg (h.programmed hyes), hgood]
  dsimp only
  rw [if_neg (not_not_intro hhash), hnone]

end State.LoadRuns

/-- An entry that is empty again. -/
def State.Emptied (s : State) (n : Nat) (t : State) : Prop :=
  t.lib n = { LibEntry.reset with generation := (s.lib n).generation } ∧ ∀ k, k ≠ n → t.lib k = s.lib k

/-- Stripes programmed and freed again. -/
theorem State.programmed_emptied (hlib : Tab.rising 0 s.nv.lib = true) {n : Nat} (hunread : Unread s n) (k : Nat)
    (frames : Mem) : s.WritesOnly (fun j => j = Key.pressBytes) ((s.programFirst n k frames).emptyEntry n) ∧
      s.Emptied n ((s.programFirst n k frames).emptyEntry n) := by
  have hchanges := s.programFirst_changesOnly n k frames
  have hrows := State.programFirst_rowsOnly (s := s) hlib n k frames
  generalize s.programFirst n k frames = v at hchanges hrows
  have hunread' : Unread v n := fun a ha => hunread a (by rwa [hchanges.weave] at ha)
  exact ⟨(hchanges.writesOnly (by simp)).trans ((State.emptyEntry_of_unread hunread').writesOnly _),
    State.emptyEntry_of_rowsOnly hrows⟩

/-- A load that ends with AUTH once its stripes are freed. -/
theorem State.loadSpoilt (hwf : valsWf s.sku 0 s.dict.vals = true) (hlive : Lively s l.quire) (hroom : CqRoom s l.quire) {n :
    Nat}
    (hwrites : s.WritesOnly (fun j => j = Key.pressBytes) u) (hemptied : s.Emptied n u) (variant entry : Nat) (x : Short)
    (chunks ms : Nat) : LoadEnds s (u.endLoad l CS.auth variant entry x chunks ms 0) l.quire l.entry CS.auth 0 ∧
      s.Emptied n (u.endLoad l CS.auth variant entry x chunks ms 0) := by
  obtain ⟨hends, hnv, -⟩ := State.endLoad_loadEnds hwf hwrites (pressBytes_plain _).1 (pressBytes_plain _).2 hlive hroom
    (show CS.auth < 256 by decide) variant entry x chunks ms 0
  have hlibs : ∀ k, (u.endLoad l CS.auth variant entry x chunks ms 0).lib k = u.lib k := fun k =>
    (State.lib_of_nv (s := u.dropLoad l) hnv k).trans (u.dropLoad_lib l k)
  exact ⟨hends, (hlibs _).trans hemptied.1, fun k hk => (hlibs k).trans (hemptied.2 k hk)⟩

/-! ### The installation -/

/-- The removal of some entries is requested. -/
theorem State.requestRemovals_lib (hlib : Tab.rising 0 s.nv.lib = true) (es : List Nat) :
    Tab.rising 0 (es.foldl (fun s t => s.setLib t { s.lib t with removeReq := true }) s).nv.lib = true ∧
    ∀ k, (es.foldl (fun s t => s.setLib t { s.lib t with removeReq := true }) s).lib k =
      if k ∈ es then { s.lib k with removeReq := true } else s.lib k := by
  induction es generalizing s with
  | nil => exact ⟨hlib, fun k => rfl⟩
  | cons e es ih =>
    obtain ⟨hrising, hlibs⟩ := ih (State.setLib_rising hlib e { s.lib e with removeReq := true })
    refine ⟨hrising, fun k => ?_⟩
    rw [List.foldl_cons, hlibs, State.setLib_lib hlib]
    by_cases hk : k = e
    · subst hk
      simp
    · simp [hk]

/-- The damaged entries of the same content as entry `e`. -/
def State.twins (s : State) (e : Nat) : List Nat :=
  allE.filter fun t => (s.lib t).state == .damaged && (s.lib t).hash == (s.lib e).hash

theorem State.mem_twins (s : State) (e k : Nat) :
    k ∈ s.twins e ↔ k < 64 ∧ (s.lib k).state = .damaged ∧ (s.lib k).hash = (s.lib e).hash := by
  simp [State.twins, allE]

/-- The library at the installation of entry `e`. -/
def State.installLibrary (s : State) (e : Nat) : State :=
  ((s.twins e).foldl (fun s t => s.setLib t { s.lib t with removeReq := true }) s).setLib e
    { s.lib e with state := .installed, generation := nextGeneration (s.lib e).generation }

theorem State.install_eq (s : State) (q : QNum) (e : Nat) : s.install q e =
    ((s.installLibrary e).wrStored (Key.libLinkMask (e + 1)) (if (s.lib e).kind = 1 then 0xFF else 2 ^ q.val)).giveHandle q e
      (s.lib e).variant := rfl

theorem State.installLibrary_lib (hlib : Tab.rising 0 s.nv.lib = true) (e k : Nat) : (s.installLibrary e).lib k =
    if k = e then { s.lib e with state := .installed, generation := nextGeneration (s.lib e).generation }
    else if k ∈ s.twins e then { s.lib k with removeReq := true } else s.lib k := by
  obtain ⟨hrising, hlibs⟩ := State.requestRemovals_lib hlib (s.twins e)
  rw [State.installLibrary, State.setLib_lib hrising, hlibs]

theorem State.installLibrary_kept (s : State) (e : Nat) : (s.installLibrary e).quires = s.quires ∧
    (s.installLibrary e).out = s.out ∧ (s.installLibrary e).sku = s.sku ∧ (s.installLibrary e).dict = s.dict ∧
    (s.installLibrary e).nv.main = s.nv.main := by
  have hfold : ∀ es : List Nat, let t := es.foldl (fun s t => s.setLib t { s.lib t with removeReq := true }) s
      t.quires = s.quires ∧ t.out = s.out ∧ t.sku = s.sku ∧ t.dict = s.dict ∧ t.nv.main = s.nv.main := fun es =>
    List.foldlRecOn (motive := fun t : State => t.quires = s.quires ∧ t.out = s.out ∧ t.sku = s.sku ∧ t.dict = s.dict ∧
      t.nv.main = s.nv.main) es _ ⟨rfl, rfl, rfl, rfl, rfl⟩ fun t ht _ _ => ht
  exact hfold (s.twins e)

/-- What an installation has done. -/
structure State.Installs (s : State) (q : QNum) (e : Nat) (t : State) : Prop where
  writes : s.WritesOnly (isSwitchKey q) t
  lib : ∀ k, t.lib k = (s.installLibrary e).lib k
  main : t.nv.main = s.nv.main
  handle : t.rd (Key.qHandle q (e + 1)) = mkHandle (nextGeneration (s.lib e).generation) q e
  variant : t.rd (Key.qHandleVariant q (e + 1)) = (s.lib e).variant
  mask : t.rd (Key.libLinkMask (e + 1)) = if (s.lib e).kind = 1 then 0xFF else 2 ^ q.val

theorem State.install_installs (hinv : valsWf s.sku 0 s.dict.vals = true) (hlib : Tab.rising 0 s.nv.lib = true) (q : QNum)
    {e : Nat} (he : e < 64) : s.Installs q e (s.install q e) := by
  have hself := (State.installLibrary_lib hlib e e).trans (if_pos rfl)
  obtain ⟨hquires, hout, hsku, hdict, hmain⟩ := s.installLibrary_kept e
  have hlibrary : s.WritesOnly (isSwitchKey q) (s.installLibrary e) :=
    ⟨hquires, hout, .of_eq hsku (congrArg Dict.vals hdict)⟩
  rw [State.install_eq]
  generalize hmask : (if (s.lib e).kind = 1 then 0xFF else 2 ^ q.val) = mask
  generalize hv : s.installLibrary e = v at hself hmain hlibrary
  have hkey := linkMask_apart q (n := e + 1) (by omega)
  have hstored := (v.wrStored_changesOnly (Key.libLinkMask (e + 1)) mask).writesOnly (P := isSwitchKey q) fun k hk =>
    (List.mem_cons.1 hk).elim (fun heq => .inr (.inl (heq ▸ hkey.1))) fun hmem => .inr (.inr hmem)
  have hread := v.wrStored_rd_self (Key.libLinkMask (e + 1)) mask (hlibrary.regs.wf hinv)
  obtain ⟨recs, units, hnv⟩ := (v.wrStored_recordsOnly (Key.libLinkMask (e + 1)) mask).nv
  have hlibs : ∀ y, (v.wrStored (Key.libLinkMask (e + 1)) mask).lib y = v.lib y := fun y => by
    rw [State.lib, hnv]
    rfl
  have hmains : (v.wrStored (Key.libLinkMask (e + 1)) mask).nv.main = v.nv.main := by
    rw [hnv]
    rfl
  generalize v.wrStored (Key.libLinkMask (e + 1)) mask = w at hstored hread hlibs hmains
  have hwrites := hlibrary.trans hstored
  have hkeys := handleKeys q (n := e + 1) (by omega)
  have hgive : w.WritesOnly (isHandleKey q) (w.giveHandle q e (s.lib e).variant) := w.wrs_writesOnly (by
    simp only [List.forall_mem_cons, List.not_mem_nil, false_imp_iff, forall_true_iff, and_true]
    exact hkeys)
  have hrd := State.giveHandle_rd (hwrites.regs.wf hinv) q e (s.lib e).variant
  have hne := (handleKeys_distinct q (n := e + 1) (m := e + 1) (by omega) (by omega)).2
  refine ⟨hwrites.trans (hgive.mono fun _ => .inl), fun k => ?_, hmains.trans hmain, ?_, ?_, ?_⟩
  · rw [hv]
    exact hlibs k
  · rw [hrd, if_neg hne, if_pos rfl, hlibs, hself]
  · rw [hrd, if_pos rfl]
  · rw [hgive.regs.rd (hwrites.regs.wf hinv) _ hkey.2.1, hread, hmask]

/-- What an installation writes is neither read by a completion nor a report. -/
theorem switchKeys_plain (q : QNum) : (∀ k ∈ [Key.qCqSize q, Key.qCqBase q, Key.qPasid q],
    ¬ (isSwitchKey q k ∨ k = Key.pressBytes)) ∧ ∀ k, isReportOf q k → ¬ (isSwitchKey q k ∨ k = Key.pressBytes) := by
  refine ⟨fun k hk => not_or.2 ⟨switchKeys_apart q k (List.mem_append_left [Key.qTrainCommits q] hk),
    (pressBytes_plain q).1 k hk⟩, fun k hk => not_or.2 ⟨?_, (pressBytes_plain q).2 k hk⟩⟩
  simp only [isReportOf, isSwitchKey, isHandleKey, blockIndex, paramStatus, List.mem_cons, List.not_mem_nil, or_false,
    Key.paramErased, Key.paramCyclesMax, Key.paramCompactions] at hk ⊢
  omega

theorem handleKey_not_report {k : Nat} (h : isHandleKey q k) : ¬ isReportOf q k := by
  simp only [isReportOf, isHandleKey, blockIndex] at h ⊢
  omega

theorem linkMask_not_report (q : QNum) {n : Nat} (hn : n < 256) : ¬ isReportOf q (Key.libLinkMask n) := by
  simp only [isReportOf, Key.libLinkMask, blockIndex]
  omega

theorem pressBytes_not_stitch (q : QNum) : Key.qStitchBase q ≠ Key.pressBytes ∧ Key.qStitchCount q ≠ Key.pressBytes := by
  revert q
  decide

/-- The validation entries a failed check fills. -/
def valEntries (q : QNum) (impNo handle : Nat) (c : Failure) : List (Nat × Nat) :=
  [(Key.qValCode q, c.1), (Key.qValImp q, impNo), (Key.qValHandle q, handle), (Key.qValOffset q, c.2)]

/-- A failed check names its imposition, and leaves the library (R423). -/
theorem State.valFail_imp (hwf : valsWf s.sku 0 s.dict.vals = true) (hlive : Lively s q) (e : Entry) (handle impNo : Nat)
    (c : Failure) : (s.valFail q e handle impNo c).rd (Key.qValImp q) = impNo ∧
        s.EntriesKept (s.valFail q e handle impNo c) := by
  have hfreeze : s.valFail q e handle impNo c = (s.wrs (valEntries q impNo handle c)).freeze q FC.format
    (ring := e.ring.val) (cid := e.cid) (sqi := e.slot) (detail := c.2) := rfl
  have himp : (s.wrs (valEntries q impNo handle c)).rd (Key.qValImp q) = impNo := by
    rw [State.rd_wrs _ _ s hwf]
    have hdistinct : ∀ q : QNum, Key.qValHandle q ≠ Key.qValImp q ∧ Key.qValOffset q ≠ Key.qValImp q := by decide
    obtain ⟨hhandle, hoffset⟩ := hdistinct q
    simp [valEntries, hhandle, hoffset]
  have hkept := s.wrs_entriesKept (valEntries q impNo handle c)
  have huwf := State.wrs_wf (valEntries q impNo handle c) hwf
  have hquires : (s.wrs (valEntries q impNo handle c)).quires = s.quires := rfl
  rw [hfreeze]
  generalize s.wrs (valEntries q impNo handle c) = v at himp hkept huwf hquires
  have hvlive : Lively v q := by rwa [Lively, State.quire_of_quires hquires q]
  obtain ⟨-, -, hhalt, htally, hfreezes, hrecord⟩ := valKeys_ne q (Key.qValImp q) (by simp)
  exact ⟨(State.freeze_rd _ q _ _ _ _ _ _ _ _ hvlive huwf hhalt htally hfreezes hrecord).trans himp,
    hkept.trans (.freeze v q _ _ _ _ _ _ _ _ hvlive)⟩

/-- A failed check of an imposition: the quire freezes, the entry is empty (R742, R423). -/
theorem State.impFailed (hwf : valsWf s.sku 0 s.dict.vals = true) (hlive : Lively s q)
    (hwrites : s.WritesOnly (fun j => j = Key.pressBytes) u) {n : Nat} (hemptied : s.Emptied n u) (l : Load) (e : Entry)
    (c : Nat × Failure) :
    let t := (u.dropLoad l).valFail q e 0 c.1 c.2
    FrozenBy s t q FC.format (c.2.2 % 2 ^ 32) ∧ t.rd (Key.qValCode q) = c.2.1 ∧ t.rd (Key.qValImp q) = c.1 ∧
      s.Emptied n t := by
  have hvals : valsWf (u.dropLoad l).sku 0 (u.dropLoad l).dict.vals = true := hwrites.regs.wf hwf
  have hquires : (u.dropLoad l).quires = s.quires := hwrites.quires
  have hlibs := u.dropLoad_lib l
  have hrd : ∀ k, k ≠ Key.pressBytes → (u.dropLoad l).rd k = s.rd k := hwrites.regs.rd hwf
  dsimp only
  generalize u.dropLoad l = v at hvals hquires hlibs hrd
  have hquire := State.quire_of_quires hquires q
  have hvlive : Lively v q := by rwa [Lively, hquire]
  obtain ⟨hfrozen, hcode⟩ := State.frozenBy_valFail hvals hvlive e 0 c.1 c.2 0xFF 0xFFFFFFFF 0
  obtain ⟨himp, hkept⟩ := State.valFail_imp hvals hvlive e 0 c.1 c.2
  have hrange : v.stitchRange q = s.stitchRange q := congrArg₂ Prod.mk (hrd _ (pressBytes_not_stitch q).1)
    (hrd _ (pressBytes_not_stitch q).2)
  have hall : ∀ k, (v.valFail q e 0 c.1 c.2).lib k = u.lib k := fun k => by
    rw [State.lib, hkept.lib, ← hlibs, State.lib]
  exact ⟨frozenBy_congr hfrozen (congrArg Quire.ctrCompleted hquire) hrange, hcode, himp, (hall n).trans hemptied.1,
    fun k hk => (hall k).trans (hemptied.2 k hk)⟩

theorem loadsInstallClause : LoadsInstallClause := by
  intro s q n f l hinv hroom hlive hcore hfind hhost hunread x m done good emptied
  have hruns : s.LoadRuns q n l := ⟨hcore, hfind, hhost⟩
  have hwf : valsWf s.sku 0 s.dict.vals = true := hinv.1
  have hlib : Tab.rising 0 s.nv.lib = true := rising_lib_of_tabsRising hinv.2.2
  have hquire := hruns.quire
  have hspoilt {u : State} (hu : s.WritesOnly (fun j => j = Key.pressBytes) u) (hempty : s.Emptied n.val u)
      (variant entry : Nat) (z : Short) (chunks ms : Nat) := State.loadSpoilt (l := l) hwf (by rwa [hquire])
        (by rwa [hquire]) hu hempty variant entry z chunks ms
  rw [hquire] at hspoilt
  refine ⟨fun hno => congrArg Host.Outcome.next (hruns.unprogrammed hno), fun hyes => ⟨fun hbad => ?spoilt,
    fun c hgood hfail => ?failed, fun hgood hnone => ?installed⟩⟩
  case spoilt =>
    cases hchunk : m.badChunk with
    | some c =>
      obtain ⟨hwrites, hempty⟩ := State.programmed_emptied hlib hunread (c * chunkBytes / stripeBytes) m.body
      exact ⟨_, congrArg Host.Outcome.next (hruns.badChunk hyes hchunk), hspoilt hwrites hempty ..⟩
    | none =>
      obtain ⟨hwrites, hempty⟩ := State.programmed_emptied hlib hunread x.stripes m.body
      exact ⟨_, congrArg Host.Outcome.next (hruns.badHash hyes hchunk fun heq => hbad ⟨hchunk, heq⟩),
        hspoilt hwrites hempty ..⟩
  case failed =>
    obtain ⟨hwrites, hempty⟩ := State.programmed_emptied hlib hunread x.stripes m.body
    exact ⟨_, congrArg Host.Outcome.next (hruns.badImp hyes hgood.1 hgood.2 hfail),
      State.impFailed hwf hlive hwrites hempty l l.entry c⟩
  case installed =>
    have hprogrammed := (s.programFirst_changesOnly n.val x.stripes m.body).writesOnly
      (P := fun k => isSwitchKey q k ∨ k = Key.pressBytes) (by simp)
    have hrows : s.RowsOnly n.val done := State.programFirst_rowsOnly hlib n.val x.stripes m.body
    obtain ⟨rows, hself⟩ := hrows.self
    have heq := hruns.installs hyes hgood.1 hgood.2 hnone
    have hinst := State.install_installs (hprogrammed.regs.wf hwf) hrows.rising q n.isLt
    change loadComplete q n f s = (done.install q n.val).endLoad l CS.ok x.variant n.val Short.zero l.chunkCount
      (f.timeMs % 2 ^ 32) ((done.install q n.val).rd (Key.qHandle q (n.val + 1))) at heq
    change done.Installs q n.val (done.install q n.val) at hinst
    rw [hinst.handle] at heq
    have hlibrary := State.installLibrary_lib hrows.rising n.val
    generalize done.install q n.val = v at heq hinst
    have hgeneration : (done.lib n.val).generation = x.generation := by rw [hself]
    have hvariant : (done.lib n.val).variant = x.variant := by rw [hself]
    have hkind : (done.lib n.val).kind = x.kind := by rw [hself]
    have hhash : (done.lib n.val).hash = x.hash := by rw [hself]
    rw [hgeneration] at heq
    obtain ⟨hends, hnv, hrd⟩ := State.endLoad_loadEnds (l := l) hwf (hprogrammed.trans (hinst.writes.mono fun _ => .inl))
      (by rw [hquire]; exact (switchKeys_plain q).1) (by rw [hquire]; exact (switchKeys_plain q).2) (by rwa [hquire])
      (by rwa [hquire])
      (show CS.ok < 256 by decide) x.variant n.val Short.zero l.chunkCount (f.timeMs % 2 ^ 32)
      (mkHandle (nextGeneration x.generation) q n.val)
    simp only [hquire] at hends hrd
    have hlibs : ∀ k, State.lib _ k = v.lib k := fun k =>
      (State.lib_of_nv (s := v.dropLoad l) hnv k).trans (v.dropLoad_lib l k)
    have hnew := (hlibs n.val).trans ((hinst.lib n.val).trans ((hlibrary n.val).trans (if_pos rfl)))
    obtain ⟨hhandleKey, hvariantKey⟩ := handleKeys q (n := n.val + 1) (by omega)
    refine ⟨_, congrArg Host.Outcome.next heq, hends, by rw [hnew], by rw [hnew, hgeneration], by rw [hnew],
      (congrArg Nv.main hnv).trans hinst.main, ?_, ?_, ?_, fun k hk hne hdamaged hsame => ?_⟩
    · rw [hrd _ (handleKey_not_report hhandleKey), hinst.handle, hgeneration]
    · rw [hrd _ (handleKey_not_report hvariantKey), hinst.variant, hvariant]
    · rw [hrd _ (linkMask_not_report q (by omega)), hinst.mask, hkind]
    · have hother := hrows.other k hne
      have htwin : k ∈ done.twins n.val := (State.mem_twins _ _ _).2 ⟨hk, by rw [hother]; exact hdamaged, by
        rw [hother, hhash]
        exact hsame⟩
      exact congrArg LibEntry.removeReq
        ((hlibs k).trans ((hinst.lib k).trans ((hlibrary k).trans ((if_neg hne).trans (if_pos htwin)))))

/-- Settles O41: the steps of a load end it, freeze it or take an entry, and its body installs or frees it. -/
theorem slipcaseLoads : Obligations.SlipcaseLoads := ⟨loadStepsClause, loadsInstallClause⟩

end Sys2Proof.Machine
end

section
/-! PROOFS. RUN_IMPOSITION: how an entry comes to start a run, and what the start does (08, R282, R418). -/

namespace Sys2Proof.Machine

variable {s t u : State} {q : QNum} {r : RingNum} {e : Entry} {tb : List Byte}

/-- The state with another record of what was sent. -/
def State.sending (s : State) (out : List Output) : State := { s with out := out }

/-! ### The binding table is read (R366) -/

/-- The binding table's leaves in T4 are read. -/
def State.readTable (s : State) (q : QNum) (e : Entry) (n : Nat) : State :=
  match addrOf (fieldLe e.bytes 16 8) with
  | some a => s.readT4s q a (tableLeaves n).length
  | none => s

theorem State.readT4s_eq (s : State) (q : QNum) (a : Addr) (n : Nat) : ∃ out, s.readT4s q a n = s.sending out := by
  refine List.foldlRecOn (motive := fun t : State => ∃ out, t = s.sending out) (List.range n) _ ⟨_, rfl⟩
    fun t ht i _ => ?_
  obtain ⟨out, rfl⟩ := ht
  split
  · exact ⟨_, rfl⟩
  · exact ⟨_, rfl⟩

theorem ownPlace_not_t4 (s : State) (q : QNum) (p : Place) (n m : Nat) : ownPlace s q p n ≠ .t4 m := by
  unfold ownPlace
  split <;> simp

theorem State.resolve_not_t4 {a : Addr} (h : a.form.isT4 = false) (n : Nat) : s.resolve q a ≠ .t4 n := by
  unfold State.resolve
  split
  case h_4 hform =>
    rw [hform] at h
    exact absurd h (by decide)
  case h_5 =>
    split
    · split <;> simp
    · simp
  case h_6 =>
    split
    · split <;> simp
    · simp
  all_goals exact ownPlace_not_t4 _ _ _ _ _

theorem State.readT4s_of_not_t4 {a : Addr} (h : a.form.isT4 = false) (n : Nat) : s.readT4s q a n = s := by
  refine List.foldlRecOn (motive := fun t : State => t = s) (List.range n) _ rfl fun t ht i _ => ?_
  subst ht
  split
  · next m hm => exact absurd hm (State.resolve_not_t4 (a := a.advance i) h m)
  · rfl

theorem State.readTable_eq (s : State) (q : QNum) (e : Entry) (n : Nat) : ∃ out, s.readTable q e n = s.sending out := by
  unfold State.readTable
  split
  · exact s.readT4s_eq q _ _
  · exact ⟨_, rfl⟩

theorem State.readTable_out {a : Addr} (ha : addrOf (fieldLe e.bytes 16 8) = some a) (h : a.form.isT4 = false) (n : Nat) :
    (s.readTable q e n).out = s.out := by
  unfold State.readTable
  rw [ha]
  exact congrArg State.out (State.readT4s_of_not_t4 h _)

/-! ### The reservation is made of the tiers alone (R418, R938) -/

theorem State.reservePlace_sending (s : State) (out : List Output) (q : QNum) (id : Nat) (p : Place) (n : Nat) :
    (s.sending out).reservePlace q id p n = (s.reservePlace q id p n).map (State.sending · out) := by
  have hpick : (s.sending out).reservePick q p n = s.reservePick q p n := rfl
  unfold State.reservePlace
  rw [hpick]
  dsimp only
  split
  · rfl
  · exact congrArg some (List.foldl_hom (State.sending · out) fun _ _ => rfl)

theorem State.reserveRun_sending (s : State) (out : List Output) (q : QNum) (id : Nat) (bays : List BayNum) (slice commons :
    Nat) :
    (s.sending out).reserveRun q id bays slice commons =
      (s.reserveRun q id bays slice commons).map (State.sending · out) := by
  have hhead : (s.sending out).headT1 q = s.headT1 q := rfl
  unfold State.reserveRun
  rw [hhead]
  split
  · rfl
  · rw [State.reservePlace_sending]
    refine List.foldl_hom (Option.map (State.sending · out)) fun o b => ?_
    cases o with
    | none => rfl
    | some u => exact u.reservePlace_sending out q id (.slice b) slice

theorem State.reservePlace_tiers {id n : Nat} {p : Place} (h : s.reservePlace q id p n = some u) :
    ∃ tiers, u = s.setTiers tiers := by
  unfold State.reservePlace at h
  dsimp only at h
  split at h
  · cases h
  · rw [← Option.some.inj h]
    refine List.foldlRecOn (motive := fun t : State => ∃ tiers, t = s.setTiers tiers) _ _ ⟨s.tiers, rfl⟩ fun t ht g _ => ?_
    obtain ⟨tiers, rfl⟩ := ht
    exact ⟨_, rfl⟩

/-- A reservation changes the tiers alone. -/
theorem State.reserveRun_tiers {id slice commons : Nat} {bays : List BayNum}
    (h : s.reserveRun q id bays slice commons = some u) : ∃ tiers, u = s.setTiers tiers := by
  unfold State.reserveRun at h
  split at h
  · cases h
  · have hall : ∀ t, bays.foldl (fun o b => o.bind fun s => s.reservePlace q id (.slice b) slice)
        (s.reservePlace q id .commons commons) = some t → ∃ tiers, t = s.setTiers tiers := by
      refine List.foldlRecOn (motive := fun o : Option State => ∀ t, o = some t → ∃ tiers, t = s.setTiers tiers) bays _
        (fun t ht => State.reservePlace_tiers ht) fun o ho b _ t ht => ?_
      obtain ⟨v, hv, hplace⟩ := Option.bind_eq_some_iff.1 ht
      obtain ⟨tiers, rfl⟩ := ho v hv
      obtain ⟨tiers', rfl⟩ := State.reservePlace_tiers hplace
      exact ⟨_, rfl⟩
    exact hall u h

/-! ### The start (R418 steps 3 to 5) -/

/-- Bank groups a run claims. -/
def State.runGroups (s : State) (le : Nat) (rec_ : ImpRec) : List Nat :=
  sortNat (((List.range 12).filter fun g => bit (parseImp (s.impBytes le rec_)).hdr.bgMask g) ++
    (s.lib le).groupsOf ((s.lib le).man.impStripes rec_))

/-- The run an entry starts. -/
def newRun (f : Nat → Byte) (id : Nat) (e : Entry) (bays : List BayNum) (tb : Nat → Byte) : Run :=
  let imp := parseImp f
  let binds := (List.range imp.hdr.bindings).map (bindRec tb)
  { id := id, entry := e, handle := fieldLe e.bytes 8 4, impNo := fieldLe e.bytes 12 2, bays := bays, hdr := imp.hdr,
    entries := (List.range imp.hdr.total).map fun k => BitVec.ofNat 128 (entryNat f k), arms := imp.arms, binds := binds,
    live := false, slipCycles := 0, slips := 0, slipping := none, fork := none, fallback := false,
    ioError := false, deadline := false, scopes := [], rangeTags := [], rangeIds := [],
    ranges := imp.ranges.filterMap fun p => (binds[p.1]?).map fun b => (b.addr, b.value), specLeaves := [] }

/-- The run is entered: the submission entry starts, the run joins the quire's, its groups are claimed. -/
def State.enterRun (s : State) (q : QNum) (r : RingNum) (e : Entry) (run : Run) (groups : List Nat) : State :=
  let t := (s.startEntry q r e (.run run.id)).modQuire q fun y => { y with runs := y.runs ++ [run], nextRun := run.id + 1 }
  t.setNv { t.nv with claims := t.nv.claims ++ groups.map fun g => (g, q, run.id) }

/-- The caches of a run's bays are loaded. -/
def State.loadCaches (s : State) (q : QNum) (id le impNo : Nat) (rec_ : ImpRec) (bays : List BayNum) : State :=
  (bays.zip (List.range bays.length)).foldl (fun s p => s.loadCache q id le impNo rec_ p.2 p.1) s

/-- What the start of a run comes to once its binding table is read: `g` is the imposition. -/
def State.startFrom (s : State) (q : QNum) (r : RingNum) (e : Entry) (le : Nat) (rec_ : ImpRec) (bays : List BayNum)
    (g : Nat → Byte) (groups : List Nat) (tb : Nat → Byte) : State :=
  match s.runStartFail q (parseImp g) groups (s.rd (Key.profClockStep s.part (q.val + 1))) (fieldLe e.bytes 24 2) tb with
  | some c => s.valFail q e (fieldLe e.bytes 8 4) (fieldLe e.bytes 12 2) c
  | none =>
    match s.reserveRun q (s.quire q).nextRun bays (parseImp g).hdr.t1Slice (parseImp g).hdr.t1Commons with
    | none => s.freezeEntry q e FC.quota
    | some u => ((u.enterRun q r e (newRun g (s.quire q).nextRun e bays tb) groups).judgeWake q
        (parseImp g).hdr.wakeBudget).loadCaches q (s.quire q).nextRun le (fieldLe e.bytes 12 2) rec_ bays

section
variable {le : Nat} {rec_ : ImpRec} {bays : List BayNum} {f : Nat → Byte}
  (hread : s.bindBytes q (fieldLe e.bytes 16 8)
    (min (fieldLe e.bytes 24 2) (parseImp (s.impBytes le rec_)).hdr.bindings) tb = .inl f)
include hread

theorem State.startRun_of_read : s.startRun q r e le rec_ bays tb =
    (s.readTable q e (min (fieldLe e.bytes 24 2) (parseImp (s.impBytes le rec_)).hdr.bindings)).startFrom q r e le rec_ bays
      (s.impBytes le rec_) (s.runGroups le rec_) f := by
  unfold State.startRun
  dsimp only
  rw [hread]
  rfl

theorem State.startRun_of_failed {c : Failure} (hfail : s.runStartFail q (parseImp (s.impBytes le rec_)) (s.runGroups le rec_)
      (s.rd (Key.profClockStep s.part (q.val + 1))) (fieldLe e.bytes 24 2) f = some c) : ∃ out,
    s.startRun q r e le rec_ bays tb =
      (s.sending out).valFail q e (fieldLe e.bytes 8 4) (fieldLe e.bytes 12 2) c := by
  rw [State.startRun_of_read hread]
  obtain ⟨out, hout⟩ := s.readTable_eq q e (min (fieldLe e.bytes 24 2) (parseImp (s.impBytes le rec_)).hdr.bindings)
  have hsame : (s.sending out).runStartFail q (parseImp (s.impBytes le rec_)) (s.runGroups le rec_)
    ((s.sending out).rd (Key.profClockStep (s.sending out).part (q.val + 1))) (fieldLe e.bytes 24 2) f = some c := hfail
  refine ⟨out, ?_⟩
  rw [hout, State.startFrom, hsame]

theorem State.startRun_of_reserved (hpass : s.runStartFail q (parseImp (s.impBytes le rec_)) (s.runGroups le rec_)
      (s.rd (Key.profClockStep s.part (q.val + 1))) (fieldLe e.bytes 24 2) f = none)
    (hreserve : s.reserveRun q (s.quire q).nextRun bays (parseImp (s.impBytes le rec_)).hdr.t1Slice
      (parseImp (s.impBytes le rec_)).hdr.t1Commons = some u) : ∃ out,
    (∀ a, addrOf (fieldLe e.bytes 16 8) = some a → a.form.isT4 = false → out = s.out) ∧
    s.startRun q r e le rec_ bays tb =
      ((((u.sending out).enterRun q r e (newRun (s.impBytes le rec_) (s.quire q).nextRun e bays f)
        (s.runGroups le rec_)).judgeWake q (parseImp (s.impBytes le rec_)).hdr.wakeBudget).loadCaches q (s.quire q).nextRun le
          (fieldLe e.bytes 12 2) rec_ bays) := by
  rw [State.startRun_of_read hread]
  have hsent := fun a ha hform => State.readTable_out (s := s) (q := q) (e := e) (a := a) ha hform
    (min (fieldLe e.bytes 24 2) (parseImp (s.impBytes le rec_)).hdr.bindings)
  obtain ⟨out, hout⟩ := s.readTable_eq q e (min (fieldLe e.bytes 24 2) (parseImp (s.impBytes le rec_)).hdr.bindings)
  rw [hout] at hsent ⊢
  have hsame : (s.sending out).runStartFail q (parseImp (s.impBytes le rec_)) (s.runGroups le rec_)
    ((s.sending out).rd (Key.profClockStep (s.sending out).part (q.val + 1))) (fieldLe e.bytes 24 2) f = none := hpass
  have hquire : (s.sending out).quire q = s.quire q := rfl
  refine ⟨out, hsent, ?_⟩
  rw [State.startFrom, hsame]
  dsimp only
  rw [hquire, State.reserveRun_sending, hreserve]
  rfl

end

end Sys2Proof.Machine
end

section
/-! PROOFS. The life of a run: its start, stamp 0, its completion, its hard bound (08, R404, R418, R419). -/

namespace Sys2Proof.Machine

variable {s t u : State} {q : QNum} {r : RingNum} {e : Entry}

/-! ### What a start leaves (R418) -/

/-- The state once a run is entered: beside the quire, the claims, the dictionary's counters and the weave's queues it is `u`,
and the quire runs the run. -/
structure State.RunEntered (u : State) (q : QNum) (e : Entry) (run : Run) (groups : List Nat) (t : State) : Prop where
  runs : (t.quire q).runs = (u.quire q).runs ++ [run]
  nextRun : (t.quire q).nextRun = run.id + 1
  started : (t.quire q).started = (u.quire q).started ++ [{ entry := e, work := .run run.id }]
  claims : ∀ g ∈ groups, (g, q, run.id) ∈ t.nv.claims
  tiers : t.tiers = u.tiers
  out : t.out = u.out

theorem State.enterRun_entered (u : State) (q : QNum) (r : RingNum) (e : Entry) (run : Run) (groups : List Nat) :
    u.RunEntered q e run groups (u.enterRun q r e run groups) := by
  have hstart := u.startEntry_quire q r e (.run run.id)
  have hpop := u.popEntry_quire q r
  have hquire := (u.startEntry q r e (.run run.id)).modQuire_quire q
    fun y => { y with runs := y.runs ++ [run], nextRun := run.id + 1 }
  constructor
  case claims => exact fun g hg => List.mem_append_right _ (List.mem_map_of_mem hg)
  case tiers | out => rfl
  case nextRun => exact congrArg Quire.nextRun hquire
  case started =>
    refine (congrArg Quire.started hquire).trans ?_
    rw [hstart]
  case runs =>
    refine (congrArg Quire.runs hquire).trans ?_
    rw [hstart, hpop]
    rfl

/-- A change that leaves the run as entered. -/
theorem State.RunEntered.of_kept {run : Run} {groups : List Nat} {v : State} (h : u.RunEntered q e run groups t)
    (hquire : (v.quire q).runs = (t.quire q).runs ∧ (v.quire q).nextRun = (t.quire q).nextRun ∧
      (v.quire q).started = (t.quire q).started) (hclaims : v.nv.claims = t.nv.claims) (htiers : v.tiers = t.tiers)
    (hout : v.out = t.out) : u.RunEntered q e run groups v :=
  ⟨hquire.1.trans h.runs, hquire.2.1.trans h.nextRun, hquire.2.2.trans h.started,
    fun g hg => hclaims ▸ h.claims g hg, htiers.trans h.tiers, hout.trans h.out⟩

theorem State.RunEntered.judgeWake {run : Run} {groups : List Nat} (h : u.RunEntered q e run groups t) (budget : Nat) :
    u.RunEntered q e run groups (t.judgeWake q budget) := by
  have hquire := t.modQuire_quire q fun x => { x with grantUs := none }
  unfold State.judgeWake
  split
  · have hgo : u.RunEntered q e run groups (t.modQuire q fun x => { x with grantUs := none }) :=
      h.of_kept (by rw [hquire]; exact ⟨rfl, rfl, rfl⟩) rfl rfl rfl
    dsimp only
    split
    · exact hgo.of_kept ⟨rfl, rfl, rfl⟩ rfl rfl rfl
    · exact hgo
  · exact h

theorem State.RunEntered.loadCaches {run : Run} {groups : List Nat} (h : u.RunEntered q e run groups t) (id le impNo : Nat)
    (rec_ : ImpRec) (bays : List BayNum) : u.RunEntered q e run groups (t.loadCaches q id le impNo rec_ bays) := by
  refine List.foldlRecOn (motive := fun v : State => u.RunEntered q e run groups v) _ _ h fun v hv p _ => ?_
  unfold State.loadCache
  dsimp only
  split
  · exact hv
  · refine List.foldlRecOn (motive := fun v : State => u.RunEntered q e run groups v) _ _
      (hv.of_kept ⟨rfl, rfl, rfl⟩ rfl rfl rfl) fun w hw k _ => ?_
    split
    · exact hw.of_kept ⟨rfl, rfl, rfl⟩ rfl rfl rfl
    · exact hw

/-! ### How an entry comes to start (R282, R285) -/

/-- Where the handle, the imposition and the bays serve, the run starts. -/
theorem State.runPlan_starts {le : Nat} {rec_ : ImpRec} (hheld : s.validHandle q (fieldLe e.bytes 8 4) = some le)
    (hstate : (s.lib le).state = .installed) (hvariant : s.rd (Key.qHandleVariant q (le + 1)) ≠ 0xFF)
    (himp : s.impRec q le (fieldLe e.bytes 12 2) = some rec_) (hshort : s.shortSet q = false)
    (hgranted : (s.quire q).granted = true) (hswitch : s.switch = none) {bays : List BayNum}
    (hbays : bays = (namedBays (fieldLe e.bytes 14 1) (fld (s.impBytes le rec_) 6 1)).filterMap fun i => (s.quireBays q)[i]?)
    (hall : bays.length = (namedBays (fieldLe e.bytes 14 1) (fld (s.impBytes le rec_) 6 1)).length)
    (hneed : (namedBays (fieldLe e.bytes 14 1) (fld (s.impBytes le rec_) 6 1)).length = fld (s.impBytes le rec_) 6 1)
    (hfree : ∀ b ∈ bays, s.bayBusy q b = false ∧ (s.bay b).power = .running) :
    s.runPlan q e = .starts le rec_ bays := by
  have hbusy : ¬ (bays.any fun b => s.bayBusy q b || (s.bay b).power != .running) = true := by
    simpa using hfree
  unfold State.runPlan
  rw [hheld]
  dsimp only
  rw [if_neg (by simp [hstate]), if_neg hvariant, himp]
  dsimp only
  rw [← hbays, if_neg (by simp [hshort]), if_neg (by omega), if_neg (not_not_intro hneed),
    if_neg (by simp only [hgranted, hswitch, hbusy]; decide)]

/-! ### Stamp 0 (R404, R418, R937) -/

/-- Some bays change by a function that a second use does not change further. -/
theorem State.foldl_modBay_again (g : Bay → Bay) (hg : ∀ x, g (g x) = g x) (c : BayNum) (l : List BayNum) : ∀ s : State,
    (l.foldl (fun s b => s.modBay b g) s).bay c = if c ∈ l then g (s.bay c) else s.bay c := by
  induction l with
  | nil => exact fun s => by simp
  | cons b l ih =>
    intro s
    rw [List.foldl_cons, ih]
    by_cases hc : c = b
    · subst hc
      simp [hg]
    · have hkept : (s.modBay b g).bay c = s.bay c := s.setBay_bay_ne b c _ hc
      simp [hc, hkept]

theorem State.maxOf_qRuns (s : State) (q : QNum) : s.maxOf (Key.qRuns q) = 0xFFFFFFFF := by
  have hcards : (quireCards.filter fun c => c.ixLo == 0x80) =
      [⟨.quire, 0x80, 0x80, 0, 0, .uint 4, .ro, .hq, .none, .v, .hot, 0⟩] := by decide
  refine State.maxOf_of_card s fun sku => ?_
  rw [show Key.qRuns q / 256 = blockIndex q 0x80 by unfold Key.qRuns blockIndex; omega,
    show Key.qRuns q % 256 = 0 by unfold Key.qRuns; omega, cardOf, cardsAt_block q (by decide), hcards]
  cases sku <;> rfl

/-- A run at stamp 0. -/
def Run.started (r : Run) (deadline : Bool) : Run := { r with live := true, deadline := deadline }

theorem stampZero_of_ready {id : Nat} {run : Run} (hrun : s.run q id = some run) (hidle : run.live = false)
    (hready : s.zeroReady q run = true) (hlive : Lively s q) : stampZero q id s =
      ((run.bays.foldl (fun s b => s.modBay b fun x => x.atZero q id (run.hdr.epochStart % 16)) s).modRun q id
        fun r => r.started (s.rd (Key.qLatePolicy q) == 1)).count (Key.qRuns q) := by
  unfold stampZero
  rw [hrun]
  dsimp only
  rw [if_neg (by simp [hidle, hready, hlive.1, hlive.2])]
  obtain ⟨bays, hbays⟩ := s.foldl_modBay (fun x => x.atZero q id (run.hdr.epochStart % 16)) run.bays
  rw [hbays]
  rfl

theorem find?_map_update {α : Type} {p : α → Bool} {f : α → α} (hf : ∀ x, p (f x) = p x) {l : List α} {x : α}
    (h : l.find? p = some x) : (l.map fun y => if p y = true then f y else y).find? p = some (f x) := by
  induction l with
  | nil => cases h
  | cons y l ih =>
    by_cases hy : p y = true
    · rw [List.find?_cons_of_pos hy] at h
      rw [List.map_cons, if_pos hy, List.find?_cons_of_pos ((hf y).trans hy), Option.some.inj h]
    · rw [List.find?_cons_of_neg hy] at h
      rw [List.map_cons, if_neg hy, List.find?_cons_of_neg hy, ih h]

theorem State.modRun_run {id : Nat} {f : Run → Run} (hf : ∀ x, (f x).id = x.id) {run : Run} (h : s.run q id = some run) :
    (s.modRun q id f).run q id = some (f run) := by
  have hquire := s.modQuire_quire q fun x => { x with runs := x.runs.map fun r => if r.id = id then f r else r }
  have hfind := find?_map_update (p := fun r : Run => r.id == id) (f := f) (fun x => by rw [hf]) h
  simp only [beq_iff_eq] at hfind
  rw [State.run, State.modRun, hquire]
  exact hfind

/-- A bay at stamp 0, as R404 and R937 say. -/
theorem Bay.atZero_spec (x : Bay) (q : QNum) (id epoch : Nat) : (x.atZero q id epoch).epoch = epoch ∧
    (x.atZero q id epoch).dregs = [] ∧ (x.atZero q id epoch).seq.stamp = 0 ∧ (x.atZero q id epoch).seq.pc = 0 ∧
    (x.atZero q id epoch).racc = [] ∧ (∀ n : Fin 4, ((x.atZero q id epoch).engines.get n).acc = [] ∧
      ((x.atZero q id epoch).engines.get n).treg0 = Treg.reset ∧ ((x.atZero q id epoch).engines.get n).treg1 = Treg.reset) ∧
    (x.atZero q id epoch).t0 = x.t0 := by
  refine ⟨rfl, rfl, rfl, rfl, rfl, fun n => ?_, rfl⟩
  have hengine : (x.atZero q id epoch).engines.get n = { Engine.reset with
      epochTag := if epoch = 0 then [] else (List.range 8).map fun a => (a, epoch) } := by
    simp [Bay.atZero, Vector.get]
  rw [hengine]
  exact ⟨rfl, rfl, rfl⟩

theorem stampZeroClause {id : Nat} {run : Run} (hwf : valsWf s.sku 0 s.dict.vals = true) (hrun : s.run q id = some run)
    (hidle : run.live = false) (hready : s.zeroReady q run = true) (hlive : Lively s q) :
    ∃ t, exec (.stampZero q id) s = .next t ∧
      t.run q id = some { run with live := true, deadline := s.rd (Key.qLatePolicy q) == 1 } ∧
      (∀ b ∈ run.bays, (t.bay b).epoch = run.hdr.epochStart % 16 ∧ (t.bay b).dregs = [] ∧ (t.bay b).seq.stamp = 0 ∧
        (t.bay b).seq.pc = 0 ∧ (t.bay b).racc = [] ∧ (∀ n : Fin 4, ((t.bay b).engines.get n).acc = [] ∧
          ((t.bay b).engines.get n).treg0 = Treg.reset ∧ ((t.bay b).engines.get n).treg1 = Treg.reset) ∧
        (t.bay b).t0 = (s.bay b).t0) ∧
      (∀ b, b ∉ run.bays → t.bay b = s.bay b) ∧
      t.rd (Key.qRuns q) = min (s.rd (Key.qRuns q) + 1) 0xFFFFFFFF ∧ t.tiers = s.tiers ∧ t.out = s.out := by
  have heq := stampZero_of_ready hrun hidle hready hlive
  have hbay := fun c => State.foldl_modBay_again (fun x => x.atZero q id (run.hdr.epochStart % 16)) (fun _ => rfl) c run.bays s
  obtain ⟨bays, hbays⟩ := s.foldl_modBay (fun x => x.atZero q id (run.hdr.epochStart % 16)) run.bays
  generalize run.bays.foldl (fun s b => s.modBay b fun x => x.atZero q id (run.hdr.epochStart % 16)) s = v at heq hbay hbays
  have hrun' : v.run q id = some run := by rwa [hbays]
  have hvwf : valsWf v.sku 0 v.dict.vals = true := by rwa [hbays]
  have hruns : v.rd (Key.qRuns q) = s.rd (Key.qRuns q) := by rw [hbays]; rfl
  have htiers : v.tiers = s.tiers := by rw [hbays]
  have hout : v.out = s.out := by rw [hbays]
  refine ⟨_, congrArg Host.Outcome.next heq,
    State.modRun_run (f := fun r => r.started (s.rd (Key.qLatePolicy q) == 1)) (fun _ => rfl) hrun', fun b hb => ?_,
    fun b hb => (hbay b).trans (if_neg hb), ?_, htiers, hout⟩
  · have hself : State.bay _ b = (s.bay b).atZero q id (run.hdr.epochStart % 16) := (hbay b).trans (if_pos hb)
    exact hself ▸ (s.bay b).atZero_spec q id (run.hdr.epochStart % 16)
  · have hcount := State.rd_count_self (v.modRun q id fun r => r.started (s.rd (Key.qLatePolicy q) == 1)) (Key.qRuns q) 1 hvwf
    rw [State.maxOf_qRuns] at hcount
    exact hcount.trans (congrArg (fun n => min (n + 1) 0xFFFFFFFF) hruns)

/-! ### Completion (R398, R419) -/

theorem State.zeroJob_storeOnly (s : State) (q : QNum) (run : Bool) (pieces : List (Place × Nat × Nat)) (purpose : ZeroFor) :
    s.StoreOnly (s.zeroJob q run pieces purpose) := by
  have hcut : s.StoreOnly (pieces.foldl (fun s p => s.cut p.1 p.2.1 p.2.2 Use.taken) s) :=
    .foldl ⟨rfl⟩ fun t p => ⟨rfl⟩
  unfold State.zeroJob
  dsimp only
  split
  · exact hcut
  · exact hcut.setTiers _

/-- The run leaves the quire. -/
def State.leaveRun (s : State) (q : QNum) (r : Run) : State :=
  let t := r.bays.foldl (fun s b => s.modBay b fun x => { x with seq := Seq.reset }) s
  let t := t.modQuire q fun x => { x with runs := x.runs.filter fun y => y.id != r.id }
  t.setNv { t.nv with claims := t.nv.claims.filter fun c => !(c.2.1 == q && c.2.2 == r.id) }

theorem State.retireRun_storeOnly (s : State) (q : QNum) (run : Run) : (s.leaveRun q run).StoreOnly (s.retireRun q run) :=
  (State.zeroJob_storeOnly _ q true _ .release).trans (State.dropCopies_storeOnly _ _)

/-- What the end of a run leaves. -/
structure State.RunLeft (s : State) (q : QNum) (run : Run) (t : State) : Prop where
  quire : t.quire q = { s.quire q with runs := (s.quire q).runs.filter fun y => y.id != run.id }
  dict : t.dict = s.dict
  sku : t.sku = s.sku
  out : t.out = s.out

theorem State.retireRun_left (s : State) (q : QNum) (run : Run) : s.RunLeft q run (s.retireRun q run) := by
  have hstore := s.retireRun_storeOnly q run
  have hleft : s.RunLeft q run (s.leaveRun q run) := by
    unfold State.leaveRun
    obtain ⟨bays, hbays⟩ := s.foldl_modBay (fun x => { x with seq := Seq.reset }) run.bays
    rw [hbays]
    exact ⟨State.modQuire_quire _ q fun x => { x with runs := x.runs.filter fun y => y.id != run.id }, rfl, rfl, rfl⟩
  exact ⟨(State.quire_of_quires hstore.quires q).trans hleft.quire, hstore.dict.trans hleft.dict,
    hstore.sku.trans hleft.sku, hstore.out.trans hleft.out⟩

/-- The entries about the last run of a quire. -/
def lastRun (s : State) (q : QNum) (run : Run) (us tail : Nat) : List (Nat × Nat) :=
  [(Key.qLastImp q, run.impNo), (Key.qLastHandle q, run.handle), (Key.qLastCycles q, s.lastCycle run + tail),
    (Key.qLastSlip q, run.slipCycles), (Key.qLastUs q, min us 0xFFFFFFFF)]

theorem runComplete_of_done {id us tail : Nat} {run : Run} (hrun : s.run q id = some run) (hdone : s.runDone run = true)
    (hlive : Lively s q) : runComplete q id us tail false s =
      ((s.wrs (lastRun s q run us tail)).retireRun q run).finish q run.entry (if run.ioError then CS.ioError else CS.ok)
        ((if run.fallback then 2 else 0) + if run.slips = 0 then 0 else 4) run.slips := by
  unfold runComplete
  rw [hrun]
  dsimp only
  rw [if_neg (by simp [hdone, hlive.1])]
  simp only [Bool.false_eq_true, or_false, if_false]
  rfl

/-- The entries about the last run: indices 0x84 of the block. -/
theorem lastRun_keys (s : State) (q : QNum) (run : Run) (us tail : Nat) :
    ∀ p ∈ lastRun s q run us tail, p.1 / 256 = blockIndex q 0x84 := by
  simp only [lastRun, List.forall_mem_cons, List.not_mem_nil, false_imp_iff, forall_true_iff, and_true, blockIndex,
    Key.qLastImp, Key.qLastHandle, Key.qLastCycles, Key.qLastSlip, Key.qLastUs]
  omega

theorem lastRun_rd (hwf : valsWf s.sku 0 s.dict.vals = true) (q : QNum) (run : Run) (us tail : Nat) :
    (s.wrs (lastRun s q run us tail)).rd (Key.qLastImp q) = run.impNo ∧
    (s.wrs (lastRun s q run us tail)).rd (Key.qLastSlip q) = run.slipCycles ∧
    (s.wrs (lastRun s q run us tail)).rd (Key.qLastCycles q) = s.lastCycle run + tail := by
  have hdistinct : Key.qLastUs q ≠ Key.qLastSlip q ∧ Key.qLastUs q ≠ Key.qLastCycles q ∧ Key.qLastUs q ≠ Key.qLastImp q ∧
      Key.qLastSlip q ≠ Key.qLastCycles q ∧ Key.qLastSlip q ≠ Key.qLastImp q ∧ Key.qLastCycles q ≠ Key.qLastImp q ∧
      Key.qLastHandle q ≠ Key.qLastImp q := by
    simp only [Key.qLastImp, Key.qLastHandle, Key.qLastCycles, Key.qLastSlip, Key.qLastUs]
    omega
  obtain ⟨h1, h2, h3, h4, h5, h6, h7⟩ := hdistinct
  simp only [State.rd_wrs _ _ s hwf]
  simp [lastRun, h1, h2, h3, h4, h5, h6, h7]

theorem completionKeys_not_lastRun (q : QNum) : ∀ k ∈ [Key.qCqSize q, Key.qCqBase q, Key.qPasid q],
    ¬ k / 256 = blockIndex q 0x84 := by
  simp only [List.forall_mem_cons, List.not_mem_nil, false_imp_iff, forall_true_iff, and_true,
    Key.qCqSize, Key.qCqBase, Key.qPasid, blockIndex]
  omega

theorem State.finish_runs (s : State) (q : QNum) (e : Entry) (status detail result : Nat) :
    ((s.finish q e status detail result).quire q).runs = (s.quire q).runs := by
  have hdrop := s.modQuire_quire q fun x => { x with started := x.started.filter fun w => w.entry.seq != e.seq }
  unfold State.finish
  generalize (s.modQuire q fun x => { x with started := x.started.filter fun w => w.entry.seq != e.seq }) = v at hdrop
  rw [((v.complete_entryEnded q e status detail result).trans (State.settleQuire_entryEnded _ q)).frame]
  show (v.quire q).runs = _
  rw [hdrop]

theorem runCompleteClause {id us tail : Nat} {run : Run} (hwf : valsWf s.sku 0 s.dict.vals = true) (hrun : s.run q id = some
    run)
    (hdone : s.runDone run = true) (hlive : Lively s q) (hroom : CqRoom s q) : ∃ t,
    exec (.runComplete q id { us := us, tail := tail } false) s = .next t ∧
    Completes s t q run.entry (if run.ioError then CS.ioError else CS.ok)
      ((if run.fallback then 2 else 0) + if run.slips = 0 then 0 else 4) run.slips ∧
    (∀ y ∈ (t.quire q).runs, y.id ≠ run.id) ∧ t.rd (Key.qLastImp q) = run.impNo ∧
    t.rd (Key.qLastSlip q) = run.slipCycles ∧ t.rd (Key.qLastCycles q) = s.lastCycle run + tail := by
  have heq := runComplete_of_done (us := us) (tail := tail) hrun hdone hlive
  have hwrites := s.wrs_writesOnly (P := fun k => k / 256 = blockIndex q 0x84) (lastRun_keys s q run us tail)
  obtain ⟨himp, hslip, hcycles⟩ := lastRun_rd hwf q run us tail
  have hseen := State.SameCq.of_writesOnly hwf (completionKeys_not_lastRun q) hwrites
  have hquire := State.quire_of_quires hwrites.quires q
  generalize s.wrs (lastRun s q run us tail) = v at heq hwrites himp hslip hcycles hseen hquire
  have hleft := v.retireRun_left q run
  generalize v.retireRun q run = w at heq hleft
  have hrd : ∀ k, w.rd k = v.rd k := fun k => by rw [State.rd, hleft.dict, hleft.sku, State.rd]
  have hcq : s.SameCq w q := by
    constructor
    case cqBase => exact (hrd _).trans hseen.cqBase
    case cqSize => exact (hrd _).trans hseen.cqSize
    case pasid => exact (hrd _).trans hseen.pasid
    case out => exact hleft.out.trans hseen.out
    all_goals rw [hleft.quire]
    exacts [hseen.ctrCompleted, hseen.cqTail, hseen.cqHead, hseen.phase, hseen.heldCq]
  have hwlive : Lively w q := by
    rw [Lively, hleft.quire, hquire]
    exact hlive
  have hend := w.finish_keepsBooks q run.entry (if run.ioError then CS.ioError else CS.ok)
    ((if run.fallback then 2 else 0) + if run.slips = 0 then 0 else 4) run.slips
  refine ⟨_, congrArg Host.Outcome.next heq, hcq.finish hroom hwlive .., fun y hy => ?_, ?_, ?_, ?_⟩
  · rw [State.finish_runs, hleft.quire] at hy
    exact bne_iff_ne.1 (List.mem_filter.1 hy).2
  · rw [hend.rd, hrd, himp]
  · rw [hend.rd, hrd, hslip]
  · rw [hend.rd, hrd, hcycles]

/-! ### The hard bound (R398, R399) -/

theorem deadlineExceededClause {id : Nat} {run : Run} {d : Due} (hwf : valsWf s.sku 0 s.dict.vals = true)
    (hrun : s.run q id = some run) (hnext : s.runNext q run = some d) (hlive : run.live = true) (hbound : run.hdr.hardBound ≠ 0)
    (hslips : run.slipping.isSome = true) (hlively : Lively s q) :
    ∃ t, exec (.deadlineExceeded q id) s = .next t ∧ FrozenBy s t q FC.deadline 0 := by
  refine ⟨_, congrArg Host.Outcome.next ?_, s.freeze_frozenBy q FC.deadline (run.bays.headD 0).val run.entry.ring.val
    (((s.nextEntry q run (run.bays.headD 0)).map Due.idx).getD 0xFFFFFFFF) (run.hdr.hardBound + 1) run.entry.cid
        run.entry.slot 0
    hlively hwf (by decide) (by decide)⟩
  unfold deadlineExceeded
  rw [hrun]
  dsimp only
  rw [hnext]
  exact if_neg (by simp [hlive, hbound, hslips])

/-! ### RUN_IMPOSITION -/

theorem runImposition_of_starts {le : Nat} {rec_ : ImpRec} {bays : List BayNum} {tb : List Byte}
    (hstart : s.startable q r 0x01 = some e) (hplan : s.runPlan q e = .starts le rec_ bays)
    (hahead : s.bayAhead q r bays = false) : runImposition q r tb s = s.startRun q r e le rec_ bays tb := by
  unfold runImposition
  rw [hstart]
  dsimp only
  rw [hplan]
  exact if_neg (by simp [hahead])

/-- Settles O29: a run starts or its quire freezes, stands at stamp 0, completes, or passes its hard bound. -/
theorem runLifetime : Obligations.RunLifetime := by
  intro s q r tb e hinv x
  have hwf : valsWf s.sku 0 s.dict.vals = true := hinv.1
  refine ⟨fun hstart hno hroom => ?noHandle, fun le rec_ f u hstart hheld hstate hvariant himp hshort hgranted hswitch => ?_,
    fun id run hrun => ⟨fun hidle hready hlive => stampZeroClause hwf hrun hidle hready hlive,
      fun us tail hdone hlive hroom => runCompleteClause hwf hrun hdone hlive hroom,
      fun d hnext hrunning hbound hslips hlive => deadlineExceededClause hwf hrun hnext hrunning hbound hslips hlive⟩⟩
  case noHandle =>
    refine ⟨_, congrArg Host.Outcome.next ?_, s.finishNow_completes q r e CS.noHandle 0 0 hroom⟩
    have hplan : s.runPlan q e = .ends CS.noHandle := by
      unfold State.runPlan
      rw [hno]
    unfold runImposition
    rw [hstart]
    dsimp only
    rw [hplan]
  intro imp need count named bays groups hall hneed hfree hahead hread
  have hlive := State.lively_of_startable hstart
  have hplan := State.runPlan_starts hheld hstate hvariant himp hshort hgranted hswitch (bays := bays) rfl hall hneed hfree
  have heq := runImposition_of_starts (tb := tb) hstart hplan hahead
  refine ⟨fun c hfail => ?failed, fun hpass hreserve => ?starts⟩
  case failed =>
    obtain ⟨out, hout⟩ := State.startRun_of_failed (r := r) (bays := bays) hread hfail
    obtain ⟨hfrozen, hcode⟩ := State.frozenBy_valFail (s := s.sending out) hwf hlive e (fieldLe e.bytes 8 4)
      (fieldLe e.bytes 12 2) c 0xFF 0xFFFFFFFF 0
    exact ⟨_, congrArg Host.Outcome.next (heq.trans hout), frozenBy_congr hfrozen rfl rfl, hcode⟩
  case starts =>
    obtain ⟨out, hsent, hstarted⟩ := State.startRun_of_reserved (r := r) hread hpass hreserve
    have hentered := (((u.sending out).enterRun_entered q r e (newRun (s.impBytes le rec_) x.nextRun e bays f)
      (s.runGroups le rec_)).judgeWake imp.hdr.wakeBudget).loadCaches x.nextRun le (fieldLe e.bytes 12 2) rec_ bays
    obtain ⟨tiers, hu⟩ := State.reserveRun_tiers hreserve
    have hquire : (u.sending out).quire q = s.quire q := by rw [hu]; rfl
    refine ⟨_, newRun (s.impBytes le rec_) x.nextRun e bays f, congrArg Host.Outcome.next (heq.trans hstarted),
      hentered.runs.trans (by rw [hquire]), rfl, rfl, rfl, rfl, rfl, hentered.nextRun, hentered.claims,
      hentered.started.trans (by rw [hquire]; rfl), hentered.tiers, fun a ha hform => ?_⟩
    exact hentered.out.trans (hsent a ha hform)

end Sys2Proof.Machine
end

section
/-! PROOFS. How an arithmetic entry issues: the slots it reads, what its results change, and that nothing else changes
(08, R380, R382). -/

namespace Sys2Proof.Machine

variable {s t u : State} {b : BayNum} {d : Due} {k : Kind} {i : Issue}

/-! ### Nothing but the bay changes -/

/-- `t` differs from `s` in the bay, and in the free numbers taken. -/
structure State.BayOnly (s : State) (b : BayNum) (t : State) : Prop where
  frame : ∃ n, t = { s.setBay b (t.bay b) with freeCtr := n }

namespace State.BayOnly

theorem setBay (h : s.BayOnly b t) (x : Bay) : s.BayOnly b (t.setBay b x) := by
  obtain ⟨n, hn⟩ := h.frame
  refine ⟨n, ?_⟩
  rw [State.setBay_bay]
  generalize t.bay b = y at hn
  subst hn
  exact congrArg (fun v : State => { v with freeCtr := n }) (s.setBay_setBay b y x)

theorem modBay (h : s.BayOnly b t) (f : Bay → Bay) : s.BayOnly b (t.modBay b f) := h.setBay _

theorem fresh (h : s.BayOnly b t) : s.BayOnly b t.fresh.2 := by
  obtain ⟨n, hn⟩ := h.frame
  refine ⟨t.freeCtr + 1, ?_⟩
  have hbay : t.fresh.2.bay b = t.bay b := rfl
  rw [hbay]
  generalize t.bay b = y at hn
  subst hn
  rfl

theorem unitFrame (h : s.BayOnly b t) : UnitFrame s t b := by
  obtain ⟨n, hn⟩ := h.frame
  generalize t.bay b = y at hn
  subst hn
  exact ⟨rfl, rfl, rfl, rfl, rfl, rfl, fun c hc => s.setBay_bay_ne b c y hc⟩

end State.BayOnly

theorem State.Falls.bayOnly (h : s.Falls b d) : s.BayOnly b (s.advance d) := by
  rw [h.advance_eq]
  exact ⟨s.freeCtr, by rw [State.setBay_bay]; rfl⟩

/-! ### What an entry reads -/

/-- A slot no operation in flight writes is read as it stands. -/
theorem State.readSlot_of_ready {n : Nat} (h : ∀ x ∈ (s.bay i.b).late, x.slot = n → x.ready ≤ i.t) :
    s.readSlot i n = ((s.bay i.b).frame n, s) := by
  have hnone : ((s.bay i.b).late.filter fun x => x.slot == n && decide (i.t < x.ready)) = [] :=
    List.filter_eq_nil_iff.2 fun x hx => by
      simp only [Bool.and_eq_true, beq_iff_eq, decide_eq_true_eq, not_and, not_lt]
      exact h x hx
  unfold State.readSlot
  dsimp only
  rw [hnone]

/-- The entry that issues, as the operation sees it. -/
theorem State.Falls.issueOf (h : s.Falls b d) : (s.issueOf d).b = b ∧ (s.issueOf d).t = d.t ∧ (s.issueOf d).w = d.w :=
  ⟨h.bay, rfl, rfl⟩

theorem State.Falls.readSlot (h : s.Falls b d) {n : Nat} (hready : SlotReady s b n d.t) :
    (s.advance d).readSlot (s.issueOf d) n = ((s.bay b).frame n, s.advance d) := by
  obtain ⟨hb, ht, -⟩ := h.issueOf
  have hbay := h.advance_bay
  refine (State.readSlot_of_ready (n := n) ?_).trans ?_
  · rw [hb, ht, hbay]
    exact hready
  · rw [hb, hbay]
    rfl

/-! ### What a result changes -/

theorem State.result_eq (s : State) (i : Issue) (res : Nat) (reads : List Nat) (ready : Nat) : ∃ tags stamps,
    s.result i res reads ready = s.setBay i.b { s.bay i.b with tags := tags, ready := stamps } := ⟨_, _, rfl⟩

theorem State.writeSlot_eq (s : State) (i : Issue) (n : Nat) (reads : List Nat) (ready : Nat) (spans : List (Nat × Nat))
    (f : Mem) : ∃ slots tags late, s.writeSlot i n reads ready spans f = s.setBay i.b { s.bay i.b with
      t0 := Mem.setLeaf (s.bay i.b).t0 n f, slots := slots, tags := tags, late := late } := ⟨_, _, _, rfl⟩

theorem State.writeDreg_eq (s : State) (i : Issue) (reg value : Nat) (reads : List Nat) (ready : Nat) : ∃ tag,
    s.writeDreg i reg value reads ready = s.setBay i.b { s.bay i.b with
      dregDue := (s.bay i.b).dregDue ++ [{ ready := ready, reg := reg, value := value, tag := tag }] } := ⟨_, rfl⟩

/-! ### Frames -/

theorem Bay.frame_of_setLeaf {x : Bay} (hx : Mem.wf x.t0 = true) {f : Mem} (hf : Mem.wf f = true) {y : Bay} {n : Nat}
    (h : y.t0 = Mem.setLeaf x.t0 n f) (m : Nat) : y.frame m = if m = n then Mem.frame f else x.frame m := by
  rw [Bay.frame, h, Mem.leaf_setLeaf hx hf, Bay.frame]

theorem Bay.frame_wf {x : Bay} (hx : Mem.wf x.t0 = true) (n : Nat) : Mem.wf (x.frame n) = true := Mem.leaf_wf _ n hx

theorem Inv.t0 (h : Inv s) (b : BayNum) : Mem.wf (s.bay b).t0 = true := ((s.canonical_iff.2 h).bay b).t0

/-! ### The table engines of a bay -/

theorem Bay.modEngine_get (x : Bay) (e : Fin 4) (f : Engine → Engine) : (x.modEngine e f).engines.get e = f (x.engines.get e) := by
  exact Vector.getElem_set_self (xs := x.engines) e.isLt

/-- What lands changes the accumulators. -/
structure Engine.Landed (e e' : Engine) : Prop where
  frame : e' = { e with acc := e'.acc }

namespace Engine.Landed

variable {e e' e'' : Engine}

theorem refl (e : Engine) : e.Landed e := ⟨rfl⟩

theorem trans (h : e.Landed e') (h' : e'.Landed e'') : e.Landed e'' := ⟨by rw [h'.frame, h.frame]⟩

theorem setBlock (e : Engine) (a : Nat) (v : List Int) : e.Landed (e.setBlock a v) := ⟨rfl⟩

theorem land (e : Engine) (ls : List Landing) (a : Nat) : e.Landed (e.land ls a) := by
  unfold Engine.land
  dsimp only
  split
  · exact refl e
  · split <;> exact setBlock e a _

theorem landCycle (e : Engine) (c : Nat) : e.Landed (e.landCycle c) :=
  List.foldlRecOn (motive := fun e' => e.Landed e') _ _ (refl e) fun e' h a _ => h.trans (land e' _ a)

end Engine.Landed

theorem Engine.settle_eq (e : Engine) (t : Nat) : e.settle t =
    { e with acc := (e.settle t).acc, landing := (e.settle t).landing } := by
  have hfold : e.Landed ((sortNat ((e.landing.filter fun l => l.cycle ≤ t).map Landing.cycle)).foldl Engine.landCycle e) :=
    List.foldlRecOn (motive := fun e' => e.Landed e') _ _ (.refl e) fun e' h c _ => h.trans (.landCycle e' c)
  unfold Engine.settle
  dsimp only
  rw [hfold.frame]

theorem Engine.settle_treg (e : Engine) (t n : Nat) : (e.settle t).treg n = e.treg n := by
  rw [e.settle_eq t]
  rfl

theorem Engine.settle_epochTag (e : Engine) (t : Nat) : (e.settle t).epochTag = e.epochTag := by
  rw [e.settle_eq t]

theorem Engine.treg_setTreg (e : Engine) (t : Nat) (v : Treg) : (e.setTreg t v).treg t = v := by
  unfold Engine.setTreg Engine.treg
  split
  · rfl
  · rfl

end Sys2Proof.Machine
end

section
/-! PROOFS. The table engines: TE_BUILD, TE_LOOKUP, TE_CLEAR, ESC_APPLY and what lands (09, R425 to R448). -/

namespace Sys2Proof.Machine

variable {s t u : State} {b : BayNum} {d : Due} {k : Kind} {i : Issue} {n : Fin 4} {e : Engine}

theorem issueUnit_of_issues (h : Issues s b k d) (f : Issue → State → State) :
    s.issueUnit b k f = f (s.issueOf d) (s.advance d) := issue_of_issues h _

/-- The entry `d` has issued in bay `b` of `s`; of its bay's table engines, `n` is now `e`. -/
structure State.Computes (s : State) (b : BayNum) (d : Due) (n : Fin 4) (e : Engine) (t : State) : Prop where
  only : s.BayOnly b t
  seq : (t.bay b).seq = ((s.bay b).past d).seq
  t0 : (t.bay b).t0 = (s.bay b).t0
  engine : (t.bay b).engines.get n = e

theorem State.Falls.computes (h : s.Falls b d) (n : Fin 4) :
    s.Computes b d n ((s.bay b).engines.get n) (s.advance d) :=
  ⟨h.bayOnly, by rw [h.advance_bay], by rw [h.advance_bay]; rfl, by rw [h.advance_bay]; rfl⟩

namespace State.Computes

theorem fresh (h : s.Computes b d n e t) : s.Computes b d n e t.fresh.2 := ⟨h.only.fresh, h.seq, h.t0, h.engine⟩

theorem modEngine (h : s.Computes b d n e t) (hb : i.b = b) (hn : i.engine = n) (f : Engine → Engine) :
    s.Computes b d n (f (e.settle i.t)) (t.modEngine i f) := by
  subst hb hn
  have hbay : (t.modEngine i f).bay i.b = (t.bay i.b).modEngine i.engine fun e => f (e.settle i.t) := t.setBay_bay i.b _
  refine ⟨h.only.modBay _, ?_, ?_, ?_⟩ <;> rw [hbay]
  · exact h.seq
  · exact h.t0
  · rw [Bay.modEngine_get, h.engine]

theorem result (h : s.Computes b d n e t) (hb : i.b = b) (res : Nat) (reads : List Nat) (ready : Nat) :
    s.Computes b d n e (t.result i res reads ready) := by
  subst hb
  obtain ⟨tags, stamps, heq⟩ := t.result_eq i res reads ready
  rw [heq]
  refine ⟨h.only.setBay _, ?_, ?_, ?_⟩ <;> rw [State.setBay_bay]
  · exact h.seq
  · exact h.t0
  · exact h.engine

theorem unit (h : s.Computes b d n e t) : UnitFrame s t b := h.only.unitFrame

theorem passed (h : s.Computes b d n e t) (hfalls : s.Falls b d) : Passed s t b d := hfalls.passed_of_seq h.seq

end State.Computes

/-! ### TE_BUILD (R425, R427) -/

/-- Element `m` of list `c` of a table of lists of one length. -/
theorem getD_flatMap_range {α : Type} (d : α) (n k : Nat) (f : Nat → Nat → α) {c m : Nat} (hc : c < n) (hm : m < k) :
    ((List.range n).flatMap fun c => (List.range k).map (f c)).getD (k * c + m) d = f c m := by
  induction n generalizing c f with
  | zero => omega
  | succ n ih =>
    rw [List.range_succ_eq_map, List.flatMap_cons, List.flatMap_map]
    cases c with
    | zero =>
      rw [List.getD_append _ _ _ _ (by simpa using hm)]
      simp [List.getD_eq_getElem?_getD, hm]
    | succ c =>
      rw [List.getD_append_right _ _ _ _ (by simp; nlinarith)]
      have hsub : k * (c + 1) + m - ((List.range k).map (f 0)).length = k * c + m := by
        rw [List.length_map, List.length_range, Nat.mul_succ]
        omega
      rw [hsub]
      exact ih (fun c => f (c + 1)) (by omega)

theorem activation_int8 (f : Mem) {j : Nat} (hj : j < 8192) : activation f .int8 j = int8At f j := if_pos hj

/-- MODE 0: the sixteen sums of four activations. -/
theorem buildTable_sums (f : Mem) (agroup : Nat) {g n : Nat} (hg : g < 32) (hn : n < 16) (hin : 4 * agroup + 128 ≤ 8192) :
    (buildTable 0 agroup f).entries.getD (16 * g + n) 0 =
      (if bit n 0 then int8At f (4 * agroup + 4 * g) else 0) + (if bit n 1 then int8At f (4 * agroup + 4 * g + 1) else 0) +
      (if bit n 2 then int8At f (4 * agroup + 4 * g + 2) else 0) +
      (if bit n 3 then int8At f (4 * agroup + 4 * g + 3) else 0) := by
  have hact (j : Nat) (hj : j < 4) : activation f .int8 (4 * agroup + (4 * g + j)) = int8At f (4 * agroup + 4 * g + j) := by
    rw [activation_int8 f (by omega), Nat.add_assoc]
  refine (getD_flatMap_range 0 32 16
    (fun g => subsetSum fun j => activation f .int8 (4 * agroup + (4 * g + j))) hg hn).trans ?_
  simp only [subsetSum, List.range_succ, List.range_zero, List.nil_append, List.cons_append, List.map_cons, List.map_nil,
    List.sum_cons, List.sum_nil, activation_int8 f (show 4 * agroup + 4 * g < 8192 by omega), hact 1 (by omega),
        hact 2 (by omega), hact 3 (by omega), add_zero,
    add_assoc]

/-- MODE 3: the products of an activation and the sixteen levels. -/
theorem buildTable_products (f : Mem) (agroup : Nat) {c m : Nat} (hc : c < 32) (hm : m < 16)
    (hin : 4 * agroup + 32 ≤ 8192) :
    (buildTable 3 agroup f).entries.getD (16 * c + m) 0 = int8At f (4 * agroup + c) * levelG4 m := by
  refine (getD_flatMap_range 0 32 16 (fun c m => activation f .int8 (4 * agroup + c) * levelG4 m) hc hm).trans ?_
  rw [activation_int8 f (by omega)]

theorem tableBuildsClause : TableBuildsClause := by
  intro s b d hinv h i f base hready
  have hfalls := falls_of_issues h
  obtain ⟨hb, ht, hw⟩ := hfalls.issueOf
  have hread := hfalls.readSlot (n := (s.issueOf d).ts 81) hready
  have hcomputes := ((hfalls.computes i.engine).modEngine hb rfl fun e =>
    e.setTreg (bits d.w 65 65) (buildTable (bits d.w 68 66) (bits d.w 80 69) f)).result hb
      (resTreg i.engine.val (bits d.w 65 65)) [i.ts 81] (readyAt .teBuild d.w d.t)
  have heq : teBuild b s = _ := issueUnit_of_issues h opTeBuild
  refine ⟨_, congrArg Host.Outcome.next (heq.trans ?_), hcomputes.passed hfalls, hcomputes.unit, hcomputes.t0, ?_⟩
  · unfold opTeBuild
    dsimp only
    rw [hread]
    rfl
  dsimp only
  have hreg := (congrArg (Engine.treg · (bits d.w 65 65)) hcomputes.engine).trans (Engine.treg_setTreg _ _ _)
  rw [hreg]
  refine ⟨?base, fun hmode g n hg hn hin => ?sums, fun hmode c m hc hm hin => ?products⟩
  case base =>
    show (if bits d.w 68 66 = 5 then 16 * bits d.w 80 69 else 4 * bits d.w 80 69) = _
    split <;> omega
  case sums =>
    rw [hmode]
    exact buildTable_sums f _ hg hn hin
  case products =>
    rw [hmode]
    exact buildTable_products f _ hc hm hin

/-! ### An entry of another epoch (R406) -/

theorem State.viols_teLookup (h : entryKind d.w = some .teLookup) : s.viols d =
    violIf (s.epochBad (s.issueOf d) (bits d.w 72 70) (bits d.w 69 66)) ⟨FC.epoch, 0, none⟩ := by
  unfold State.viols
  simp only [h]

theorem State.viols_escApply (h : entryKind d.w = some .escApply) : s.viols d =
    violIf (s.epochBad (s.issueOf d) (bits d.w 73 71) (bits d.w 70 67)) ⟨FC.epoch, 0, none⟩ := by
  unfold State.viols
  simp only [h]

/-! ### TE_LOOKUP (R430 to R438) -/

/-- TE_LOOKUP without errors of memory. -/
theorem teLookup_of_issues (h : Issues s b .teLookup d) : teLookup b {} s =
    if s.viols d ≠ [] then s.violate d (s.viols d) else opTeLookup (s.issueOf d) (s.advance d) := issue_of_issues h _

/-- What the cycles of a lookup land. -/
def lookupLands (f : Mem) (i : Issue) (tab : List Int) : List Landing :=
  let mode := bits i.w 65 63
  (List.range (lookupCycles mode)).map fun c =>
    { cycle := i.t + (if mode = 2 ∨ mode = 4 then 1 else 0) + c + 7, block := bits i.w 72 70, clear := none,
      adds := lookupAdds f mode (bits i.w 77 74) (bits i.w 80 78) tab c }

/-- The engine after a lookup through table register `r`. -/
def Engine.lookedUp (e : Engine) (ls : List Landing) (r : Treg) : Engine :=
  { e with landing := e.landing ++ ls, latchBase := r.base, latchWidth := r.width }

theorem opTeLookup_of_settled {f : Mem} (hread : s.readSlot i (i.ts 81) = (f, s)) {r : Treg}
    (hreg : (s.engine i).treg (bits i.w 73 73) = r) (hearly : s.early i.b (resTreg i.engine.val (bits i.w 73 73)) i.t = false)
    (hmode : r.mode = some (bits i.w 65 63)) : opTeLookup i s =
      (s.modEngine i fun e => e.lookedUp (lookupLands f i r.entries) r).result i (resAcc i.engine.val (bits i.w 72 70))
        [i.ts 81, resTreg i.engine.val (bits i.w 73 73), resAcc i.engine.val (bits i.w 72 70)] (readyAt .teLookup i.w i.t) := by
  have hlatch : s.latchOf i (bits i.w 73 73) = ((r.base, r.width), s) := by
    rw [State.latchOf, if_neg (by simp [hearly]), hreg]
  unfold opTeLookup
  dsimp only
  rw [hread]
  dsimp only
  rw [hreg, hearly, hmode]
  simp only [Bool.false_or, bne_self_eq_false, Bool.and_false, Bool.false_eq_true, if_false]
  rw [hlatch]
  rfl

/-- The addition of lane `l` in cycle `c` (R433 to R435). -/
theorem lookupLands_adds (f : Mem) (i : Issue) (tab : List Int) {c l : Nat} (hc : c < lookupCycles (bits i.w 65 63))
    (hl : l < 512) (y : Landing) :
    (scaleShift (scaleByte f (l / 32)) = none → ((lookupLands f i tab).getD c y).adds.getD l 0 = 0) ∧
    ∀ k, scaleShift (scaleByte f (l / 32)) = some k → ((lookupLands f i tab).getD c y).adds.getD l 0 =
      laneTerm (bits i.w 65 63) (bits i.w 77 74) (bits i.w 80 78) tab c (laneField f (bits i.w 65 63) c l) * 2 ^ k := by
  have hland : ((lookupLands f i tab).getD c y).adds =
      lookupAdds f (bits i.w 65 63) (bits i.w 77 74) (bits i.w 80 78) tab c := by
    simp [lookupLands, List.getD_eq_getElem?_getD, hc]
  rw [hland]
  constructor
  · intro hnone
    simp [lookupAdds, List.getD_eq_getElem?_getD, hl, hnone]
  · intro k hk
    simp [lookupAdds, List.getD_eq_getElem?_getD, hl, hk]

/-- The terms of MODE 0 (R435). -/
theorem laneTerm_sums (b plane : Nat) (tab : List Int) (c x : Nat) :
    (b = 1 → laneTerm 0 b plane tab c x = 2 * tab.getD (16 * c + x) 0 - tab.getD (16 * c + 15) 0) ∧
    (1 < b → plane + 1 = b → laneTerm 0 b plane tab c x = -(tab.getD (16 * c + x) 0 * 2 ^ plane)) ∧
    (1 < b → plane + 1 < b → laneTerm 0 b plane tab c x = tab.getD (16 * c + x) 0 * 2 ^ plane) := by
  refine ⟨fun hb => if_pos hb, fun hb hp => ?_, fun hb hp => ?_⟩
  · exact (if_neg (by omega)).trans (if_pos hp)
  · exact (if_neg (by omega)).trans (if_neg (by omega))

/-- The additions of a lookup in MODE 0 or 3, lane by lane. -/
theorem lookupTerms (f : Mem) (i : Issue) (tab : List Int) (hmode : bits i.w 65 63 = 0 ∨ bits i.w 65 63 = 3) {c l : Nat}
    (hc : c < 32) (hl : l < 512) :
    let sh := scaleShift (Mem.read f (16 + l / 32)).toNat
    let x := nibbleAt f 256 (512 * c + l)
    let v := tab.getD (16 * c + x) 0
    let term := ((lookupLands f i tab).getD c ⟨0, 0, none, []⟩).adds.getD l 0
    (sh = none → term = 0) ∧
    (∀ k, sh = some k → (bits i.w 65 63 = 3 → term = v * 2 ^ k) ∧
      (bits i.w 65 63 = 0 → bits i.w 77 74 = 1 → term = (2 * v - tab.getD (16 * c + 15) 0) * 2 ^ k) ∧
      (bits i.w 65 63 = 0 → 1 < bits i.w 77 74 → bits i.w 80 78 + 1 = bits i.w 77 74 →
        term = -(v * 2 ^ (bits i.w 80 78)) * 2 ^ k) ∧
      (bits i.w 65 63 = 0 → 1 < bits i.w 77 74 → bits i.w 80 78 + 1 < bits i.w 77 74 →
        term = v * 2 ^ (bits i.w 80 78) * 2 ^ k)) := by
  intro sh x v term
  have hcycles : lookupCycles (bits i.w 65 63) = 32 := by
    rcases hmode with h | h <;> rw [h] <;> rfl
  obtain ⟨hnone, hsome⟩ := lookupLands_adds f i tab (hcycles ▸ hc) hl ⟨0, 0, none, []⟩
  have hfield : laneField f (bits i.w 65 63) c l = x := by
    rcases hmode with h | h <;> rw [h] <;> rfl
  rw [hfield] at hsome
  obtain ⟨hone, htop, hrest⟩ := laneTerm_sums (bits i.w 77 74) (bits i.w 80 78) tab c x
  refine ⟨hnone, fun k hk => ⟨fun h3 => ?_, fun h0 hb => ?_, fun h0 hb hp => ?_, fun h0 hb hp => ?_⟩⟩
  · rw [show term = _ from hsome k hk, h3]
    rfl
  · rw [show term = _ from hsome k hk, h0, hone hb]
  · rw [show term = _ from hsome k hk, h0, htop hb hp]
  · rw [show term = _ from hsome k hk, h0, hrest hb hp]

theorem lookupLands_cycles (f : Mem) (i : Issue) (tab : List Int) (hmode : bits i.w 65 63 = 0 ∨ bits i.w 65 63 = 3) :
    (lookupLands f i tab).map Landing.cycle = upFrom (i.t + 7) 32 := by
  have hcycles : lookupCycles (bits i.w 65 63) = 32 ∧ ¬ (bits i.w 65 63 = 2 ∨ bits i.w 65 63 = 4) := by
    rcases hmode with h | h <;> rw [h] <;> exact ⟨rfl, by decide⟩
  simp only [lookupLands, hcycles.1, if_neg hcycles.2, List.map_map, upFrom]
  exact List.map_congr_left fun c _ => show i.t + 0 + c + 7 = i.t + 7 + c by omega

theorem lookupClause (hinv : Inv s) (h : Issues s b .teLookup d) :
    let i := s.issueOf d
    let old := (((s.bay b).engines.get i.engine).settle d.t)
    let eng (t : State) := (t.bay b).engines.get i.engine
    let f := (s.bay b).frame (i.ts 81)
    let acc := bits d.w 72 70
    let r := old.treg (bits d.w 73 73)
    let mode := bits d.w 65 63
    let sh (l : Nat) := scaleShift (Mem.read f (16 + l / 32)).toNat
    (s.epochBad i acc (bits d.w 69 66) = true → OnlyViolator s d → ∃ t, exec (.teLookup b {}) s = .next t ∧
        FrozenBy s t d.q FC.epoch 0) ∧
    (s.epochBad i acc (bits d.w 69 66) = false → SlotReady s b (i.ts 81) d.t →
      Settled s b (resTreg i.engine.val (bits d.w 73 73)) d.t → r.mode = some mode →
      mode = 0 ∨ mode = 3 → ∃ t ls, exec (.teLookup b {}) s = .next t ∧ Passed s t b d ∧ UnitFrame s t b ∧
      (eng t).landing = old.landing ++ ls ∧ ls.map Landing.cycle = upFrom (d.t + 7) 32 ∧
      (∀ l ∈ ls, l.block = acc ∧ l.clear = none) ∧ (eng t).latchBase = r.base ∧ (eng t).latchWidth = r.width ∧
      ∀ c l, c < 32 → l < 512 →
        let x := nibbleAt f 256 (512 * c + l)
        let v := r.entries.getD (16 * c + x) 0
        let term := (ls.getD c ⟨0, 0, none, []⟩).adds.getD l 0
        (sh l = none → term = 0) ∧
        (∀ k, sh l = some k → (mode = 3 → term = v * 2 ^ k) ∧
          (mode = 0 → bits d.w 77 74 = 1 → term = (2 * v - r.entries.getD (16 * c + 15) 0) * 2 ^ k) ∧
          (mode = 0 → 1 < bits d.w 77 74 → bits d.w 80 78 + 1 = bits d.w 77 74 →
            term = -(v * 2 ^ (bits d.w 80 78)) * 2 ^ k) ∧
          (mode = 0 → 1 < bits d.w 77 74 → bits d.w 80 78 + 1 < bits d.w 77 74 →
            term = v * 2 ^ (bits d.w 80 78) * 2 ^ k))) := by
  intro i old eng f acc r mode sh
  have hfalls := falls_of_issues h
  obtain ⟨hb, ht, hw⟩ := hfalls.issueOf
  have hviols := State.viols_teLookup (s := s) (kind_of_issues h)
  have heq := teLookup_of_issues h
  refine ⟨fun hbad honly => ?_, fun hgood hready hsettled hmode hmodes => ?_⟩
  · rw [hviols, show s.epochBad (s.issueOf d) (bits d.w 72 70) (bits d.w 69 66) = true from hbad, violIf, if_pos rfl,
      if_pos (by simp)] at heq
    exact ⟨_, congrArg Host.Outcome.next heq, hfalls.frozenBy_violate hinv honly (by decide) (by decide)⟩
  · rw [hviols, show s.epochBad (s.issueOf d) (bits d.w 72 70) (bits d.w 69 66) = false from hgood, violIf,
      if_neg Bool.false_ne_true, if_neg (not_not_intro rfl)] at heq
    have hread := hfalls.readSlot (n := (s.issueOf d).ts 81) hready
    have hbay := hfalls.advance_bay
    have hreg : ((s.advance d).engine i).treg (bits i.w 73 73) = r := by
      rw [State.engine, hb, hbay, show r = _ from Engine.settle_treg _ _ _]
      rfl
    have hearly : (s.advance d).early i.b (resTreg i.engine.val (bits i.w 73 73)) i.t = false := by
      rw [hb, State.early, hbay]
      exact hsettled
    rw [opTeLookup_of_settled hread hreg hearly hmode] at heq
    have hcomputes := ((hfalls.computes i.engine).modEngine hb rfl fun e => e.lookedUp (lookupLands f i r.entries) r).result hb
      (resAcc i.engine.val (bits i.w 72 70))
      [i.ts 81, resTreg i.engine.val (bits i.w 73 73), resAcc i.engine.val (bits i.w 72 70)] (readyAt .teLookup i.w i.t)
    have hengine := hcomputes.engine
    refine ⟨_, lookupLands f i r.entries, congrArg Host.Outcome.next heq, hcomputes.passed hfalls, hcomputes.unit,
      congrArg Engine.landing hengine, ?_, fun l hl => ?_, congrArg Engine.latchBase hengine,
      congrArg Engine.latchWidth hengine, fun c l hc hl => lookupTerms f i r.entries hmodes hc hl⟩
    · exact lookupLands_cycles f i r.entries hmodes
    · obtain ⟨c, -, rfl⟩ := List.mem_map.1 hl
      exact ⟨rfl, rfl⟩

/-! ### TE_CLEAR (R405, R440) -/

/-- Blocks a TE_CLEAR names. -/
def clearedBlocks (w : Nat) : List Nat := (List.range 8).filter fun a => bit (bits w 87 80) a

theorem mem_clearedBlocks {w a : Nat} (ha : a < 8) : a ∈ clearedBlocks w ↔ bit (bits w 87 80) a = true := by
  simp [clearedBlocks, ha]

/-- The engine after a TE_CLEAR at stamp `t`. -/
def Engine.clearing (e : Engine) (w t epoch : Nat) (isOpen : Bool) : Engine :=
  { e with
    landing := e.landing ++ (clearedBlocks w).map fun a =>
      ({ cycle := t + 1, block := a, clear := some isOpen, adds := [] } : Landing)
    epochTag := (clearedBlocks w).foldl (fun t a => Tab.put t a (some epoch)) e.epochTag }

theorem State.Computes.results (h : s.Computes b d n e t) (hb : i.b = b) (f : Nat → Nat) (reads : List Nat) (ready : Nat)
    (l : List Nat) : s.Computes b d n e (l.foldl (fun s a => s.result i (f a) reads ready) t) :=
  List.foldlRecOn (motive := fun t : State => s.Computes b d n e t) l _ h fun _ ht a _ => ht.result hb (f a) reads ready

theorem Tab.get_foldl_put (v : Nat) (l : List Nat) (a : Nat) : ∀ t : Tab Nat, Tab.rising 0 t = true →
    Tab.get (l.foldl (fun t a => Tab.put t a (some v)) t) 0 a = if a ∈ l then v else Tab.get t 0 a := by
  induction l with
  | nil => exact fun t _ => by simp
  | cons c l ih =>
    intro t ht
    rw [List.foldl_cons, ih _ (Tab.rising_put _ _ 0 ht (Nat.zero_le c))]
    have hput : Tab.get (Tab.put t c (some v)) 0 a = if a = c then v else Tab.get t 0 a := by
      rw [Tab.get, Tab.find_put_of_rising t _ c a 0 ht]
      split
      · rfl
      · rfl
    rw [hput]
    by_cases ha : a ∈ l
    · simp [ha]
    · by_cases hc : a = c <;> simp [ha, hc]

theorem clearClause (hinv : Inv s) (h : Issues s b .teClear d) :
    let i := s.issueOf d
    let old := (((s.bay b).engines.get i.engine).settle d.t)
    let eng (t : State) := (t.bay b).engines.get i.engine
    ∃ t, exec (.teClear b) s = .next t ∧ Passed s t b d ∧ UnitFrame s t b ∧
      (∀ a, a < 8 → bit (bits d.w 87 80) a = true →
        Tab.get (eng t).epochTag 0 a = (s.bay b).epochAt d.t ∧
        ∃ l ∈ (eng t).landing, l.block = a ∧ l.cycle = d.t + 1 ∧ l.clear.isSome = true) ∧
      (∀ a, a < 8 → bit (bits d.w 87 80) a = false → Tab.get (eng t).epochTag 0 a = Tab.get old.epochTag 0 a) := by
  intro i old eng
  have hfalls := falls_of_issues h
  obtain ⟨hb, ht, hw⟩ := hfalls.issueOf
  have heq : teClear b s = _ := issueUnit_of_issues h fun i t => opTeClear ((s.bay b).epochAt i.t) i t
  have hcomputes := (((hfalls.computes i.engine).fresh.modEngine hb rfl fun e =>
    e.clearing d.w d.t ((s.bay b).epochAt d.t) ((s.advance d).fresh.1 % 2 == 1)).results hb
      (fun a => resAcc i.engine.val a) [] (readyAt .teClear i.w i.t) (clearedBlocks d.w))
  have hengine := hcomputes.engine
  have hrising : Tab.rising 0 old.epochTag = true := by
    rw [show old.epochTag = _ from Engine.settle_epochTag _ _]
    exact (((s.canonical_iff.2 hinv).bay b).engines _).epochTag
  have htag (a : Nat) := (congrArg (fun e => Tab.get (Engine.epochTag e) 0 a) hengine).trans
    (Tab.get_foldl_put ((s.bay b).epochAt d.t) (clearedBlocks d.w) a old.epochTag hrising)
  refine ⟨_, congrArg Host.Outcome.next heq, hcomputes.passed hfalls, hcomputes.unit, fun a ha hbit => ⟨?_, ?_⟩,
    fun a ha hbit => ?_⟩
  · exact (htag a).trans (if_pos ((mem_clearedBlocks ha).2 hbit))
  · have hmem := List.mem_append_right old.landing (List.mem_map_of_mem (f := fun a =>
      ({ cycle := d.t + 1, block := a, clear := some ((s.advance d).fresh.1 % 2 == 1), adds := [] } : Landing))
        ((mem_clearedBlocks (w := d.w) ha).2 hbit))
    exact ⟨_, (congrArg (fun l => _ ∈ l) (congrArg Engine.landing hengine)).mpr hmem, rfl, rfl, rfl⟩
  · exact (htag a).trans (if_neg fun hmem => Bool.false_ne_true (hbit.symm.trans ((mem_clearedBlocks ha).1 hmem)))

/-! ### ESC_APPLY (R446 to R449) -/

/-- What the two cycles of an ESC_APPLY land. -/
def escapeLands (i : Issue) (w a : Mem) (base : Nat) (width : ActWidth) : List Landing :=
  (List.range 2).map fun c =>
    let l := ((upFrom (16 * c) 16).filter fun k => k < escCount w).map (escAdd w a base width)
    { cycle := i.t + c + 9, block := bits i.w 73 71, clear := none,
      adds := (List.range 512).map fun lane => ((l.filter fun p => p.1 == lane).map fun p => p.2).sum }

theorem escapeLands_empty (i : Issue) {w : Mem} (h : escCount w = 0) (a : Mem) (base : Nat) (width : ActWidth) :
    ∀ l ∈ escapeLands i w a base width, l.adds = List.replicate 512 0 := by
  intro l hl
  obtain ⟨c, -, rfl⟩ := List.mem_map.1 hl
  have hnone : (upFrom (16 * c) 16).filter (fun k => decide (k < escCount w)) = [] :=
    List.filter_eq_nil_iff.2 fun k _ => by simp [h]
  dsimp only
  rw [hnone]
  refine List.eq_replicate_iff.2 ⟨by rw [List.length_map, List.length_range], fun x hx => ?_⟩
  obtain ⟨lane, -, rfl⟩ := List.mem_map.1 hx
  rfl

/-- An engine to which the two cycles `ls` of an ESC_APPLY are still to come. -/
def Engine.escaping (e : Engine) (ls : List Landing) : Engine := { e with landing := e.landing ++ ls }

theorem State.latchOf_fresh (s : State) (i : Issue) (n : Nat) : (s.latchOf i n).2 = s ∨ (s.latchOf i n).2 = s.fresh.2 := by
  unfold State.latchOf
  split
  · exact .inr rfl
  · exact .inl rfl

theorem opEscApply_of_settled {w a : Mem} (hw : s.readSlot i (i.ts 81) = (w, s)) (ha : s.readSlot i (i.ts 74) = (a, s))
    (same : Option Nat) : ∃ v base width, (v = s ∨ v = s.fresh.2) ∧ opEscApply same i s =
      (v.modEngine i fun e => e.escaping (escapeLands i w a base width)).result i
        (resAcc i.engine.val (bits i.w 73 71)) [i.ts 81, i.ts 74, resAcc i.engine.val (bits i.w 73 71)]
          (readyAt .escApply i.w i.t) := by
  unfold opEscApply
  dsimp only
  rw [hw]
  dsimp only
  rw [ha]
  cases same with
  | none => exact ⟨s, _, _, .inl rfl, rfl⟩
  | some n => exact ⟨_, _, _, s.latchOf_fresh i n, rfl⟩

theorem escapeClause (hinv : Inv s) (h : Issues s b .escApply d) :
    let i := s.issueOf d
    let old := (((s.bay b).engines.get i.engine).settle d.t)
    let eng (t : State) := (t.bay b).engines.get i.engine
    let acc := bits d.w 73 71
    (s.epochBad i acc (bits d.w 70 67) = true → OnlyViolator s d → ∃ t, exec (.escApply b) s = .next t ∧
        FrozenBy s t d.q FC.epoch 0) ∧
    (s.epochBad i acc (bits d.w 70 67) = false → SlotReady s b (i.ts 81) d.t → SlotReady s b (i.ts 74) d.t → ∃ t l0 l1,
      exec (.escApply b) s = .next t ∧ Passed s t b d ∧ UnitFrame s t b ∧
      (eng t).landing = old.landing ++ [l0, l1] ∧ l0.cycle = d.t + 9 ∧ l1.cycle = d.t + 10 ∧ l0.block = acc ∧
      l1.block = acc ∧
      (escCount ((s.bay b).frame (i.ts 81)) = 0 → l0.adds = List.replicate 512 0 ∧ l1.adds = List.replicate 512 0)) := by
  intro i old eng acc
  have hfalls := falls_of_issues h
  obtain ⟨hb, ht, hw⟩ := hfalls.issueOf
  have hviols := State.viols_escApply (s := s) (kind_of_issues h)
  refine ⟨fun hbad honly => ?_, fun hgood hready hready' => ?_⟩
  · rw [show s.epochBad (s.issueOf d) (bits d.w 73 71) (bits d.w 70 67) = true from hbad, violIf, if_pos rfl] at hviols
    have heq : escApply b s = _ := issueChecked_of_viol h _ (by simp [hviols])
    rw [hviols] at heq
    exact ⟨_, congrArg Host.Outcome.next heq, hfalls.frozenBy_violate hinv honly (by decide) (by decide)⟩
  · rw [show s.epochBad (s.issueOf d) (bits d.w 73 71) (bits d.w 70 67) = false from hgood, violIf,
      if_neg Bool.false_ne_true] at hviols
    have heq : escApply b s = _ := issueChecked_of_clean h _ hviols
    obtain ⟨v, base, width, hv, hop⟩ := opEscApply_of_settled (hfalls.readSlot (n := (s.issueOf d).ts 81) hready)
      (hfalls.readSlot (n := (s.issueOf d).ts 74) hready') (((s.together d).find? fun x =>
        x.b == d.b && x.pc != d.pc && entryKind x.w == some .teLookup && Ent.index x.w == Ent.index d.w).map fun x => bits
            x.w 73 73)
    have hbase : s.Computes b d i.engine ((s.bay b).engines.get i.engine) v := by
      rcases hv with rfl | rfl
      · exact hfalls.computes _
      · exact (hfalls.computes _).fresh
    have hcomputes := (hbase.modEngine hb rfl fun e => e.escaping
      (escapeLands i ((s.bay b).frame (i.ts 81)) ((s.bay b).frame (i.ts 74)) base width)).result hb
      (resAcc i.engine.val (bits i.w 73 71)) [i.ts 81, i.ts 74, resAcc i.engine.val (bits i.w 73 71)]
      (readyAt .escApply i.w i.t)
    exact ⟨_, _, _, congrArg Host.Outcome.next (heq.trans hop), hcomputes.passed hfalls, hcomputes.unit,
      congrArg Engine.landing hcomputes.engine, rfl, rfl, rfl, rfl, fun hnone =>
        ⟨escapeLands_empty i hnone _ base width _ (List.mem_cons_self ..),
          escapeLands_empty i hnone _ base width _ (List.mem_cons_of_mem _ (List.mem_cons_self ..))⟩⟩

theorem accumulatorsLandClause : AccumulatorsLandClause := fun _ _ _ hinv =>
  ⟨fun h => lookupClause hinv h, fun h => clearClause hinv h, fun h => escapeClause hinv h⟩

end Sys2Proof.Machine
end

section
/-! PROOFS. The saturating accumulators (R438 to R440), and the table engine as a whole. -/

namespace Sys2Proof.Machine

variable {e : Engine}

/-- What is found in a table whose keys rise is what is listed. -/
theorem Tab.find_eq_some_of_rising {α : Type} {t : Tab α} {i : Nat} {v : α} : ∀ {lo : Nat}, Tab.rising lo t = true →
    (Tab.find t i = some v ↔ (i, v) ∈ t) := by
  induction t with
  | nil => exact fun _ => by simp
  | cons p t ih =>
    intro lo h
    obtain ⟨k, w⟩ := p
    simp only [Tab.rising, Bool.and_eq_true] at h
    have hbelow (hi : i ≤ k) : (i, v) ∉ t := fun hmem => by
      have := Tab.find_of_lt_rising h.2 (i := i) (by omega)
      rw [(ih h.2).2 hmem] at this
      cases this
    rw [Tab.find, List.mem_cons, Prod.mk.injEq]
    by_cases hik : i = k
    · subst hik
      simp [hbelow (Nat.le_refl _), eq_comm]
    · by_cases hlt : i < k
      · simp [hik, hlt, hbelow (Nat.le_of_lt hlt)]
      · simp [hik, hlt, ih h.2]

theorem Engine.rising_setBlock (h : Tab.rising 0 e.acc = true) (a : Nat) (v : List Int) :
    Tab.rising 0 (e.setBlock a v).acc = true :=
  (Engine.Wf.setBlock (e := { e with epochTag := [] }) ⟨h, rfl⟩ (a := a) (v := v)).acc

theorem mem_zip_upFrom {α : Type} {v : List α} {lo n k : Nat} {x : α} (hk : k < n) :
    (lo + k, x) ∈ (upFrom lo n).zip v ↔ v[k]? = some x := by
  rw [List.mem_iff_getElem?]
  constructor
  · rintro ⟨j, hj⟩
    obtain ⟨hl, hr⟩ := List.getElem?_zip_eq_some.1 hj
    obtain ⟨hlt, hget⟩ := List.getElem?_eq_some_iff.1 hl
    simp only [upFrom, List.getElem_map, List.getElem_range] at hget
    rwa [show k = j by omega]
  · exact fun hx => ⟨k, List.getElem?_zip_eq_some.2 ⟨by simp [upFrom, hk], hx⟩⟩

theorem mem_setBlock {a lane : Nat} {v : List Int} {x : Int} (hlane : lane < 512) :
    (512 * a + lane, x) ∈ (e.setBlock a v).acc ↔ v[lane]? = some x ∧ x ≠ 0 := by
  simp only [Engine.setBlock, List.mem_append, List.mem_filter, mem_zip_upFrom hlane, decide_eq_true_eq, bne_iff_ne]
  constructor
  · rintro ((⟨-, hlt⟩ | h) | ⟨-, hge⟩)
    · omega
    · exact h
    · omega
  · exact fun h => .inl (.inr h)

theorem get_setBlock {a lane : Nat} {v : List Int} (hrising : Tab.rising 0 e.acc = true) (hlane : lane < 512) :
    Tab.get (e.setBlock a v).acc 0 (512 * a + lane) = v.getD lane 0 := by
  have hfind (x : Int) : Tab.find (e.setBlock a v).acc (512 * a + lane) = some x ↔ v[lane]? = some x ∧ x ≠ 0 :=
    (Tab.find_eq_some_of_rising (Engine.rising_setBlock hrising a v)).trans (mem_setBlock hlane)
  rw [Tab.get, List.getD_eq_getElem?_getD]
  cases hfound : Tab.find (e.setBlock a v).acc (512 * a + lane) with
  | some x => rw [((hfind x).1 hfound).1]
  | none =>
    cases hx : v[lane]? with
    | none => rfl
    | some x =>
      have hzero : x = 0 := Classical.byContradiction fun hne => by simp [(hfind x).2 ⟨hx, hne⟩] at hfound
      rw [hzero]
      rfl

theorem getD_addLists {x y : List Int} {k n : Nat} (hx : x.length = n) (hy : y.length = n) (hk : k < n) :
    (addLists x y).getD k 0 = x.getD k 0 + y.getD k 0 := by
  simp [addLists, List.getD_eq_getElem?_getD, hx, hy, hk]

theorem length_addLists {x y : List Int} {n : Nat} (hx : x.length = n) (hy : y.length = n) : (addLists x y).length = n := by
  simp [addLists, hx, hy]

theorem getD_block (e : Engine) (a : Nat) {lane : Nat} (hlane : lane < 512) :
    (e.block a).getD lane 0 = Tab.get e.acc 0 (512 * a + lane) := by
  simp [Engine.block, upFrom, List.getD_eq_getElem?_getD, hlane]

theorem length_block (e : Engine) (a : Nat) : (e.block a).length = 512 := by simp [Engine.block, upFrom]

theorem land_pair {a : Nat} {l m : Landing} (hl : l.block = a) (hm : m.block = a) (hlc : l.clear = none) (hmc : m.clear = none) :
    e.land [l, m] a = e.setBlock a ((addLists (e.block a)
      (addLists (addLists (List.replicate 512 0) l.adds) m.adds)).map sat32) := by
  have hmine : [l, m].filter (fun l => l.block == a) = [l, m] := by simp [hl, hm]
  have hadds : ([l, m].filterMap fun l => if l.clear = none then some l.adds else none) = [l.adds, m.adds] := by
    simp [hlc, hmc]
  have hopen : [l, m].findSome? Landing.clear = none := by simp [hlc, hmc]
  unfold Engine.land
  dsimp only
  rw [hmine, if_neg (List.cons_ne_nil _ _), hadds, hopen]
  rfl

theorem accumulatorSaturatesClause : AccumulatorSaturatesClause := by
  intro e a lane l m hrising hlane hl hm hlc hmc hln hmn
  have hzero : (List.replicate 512 (0 : Int)).length = 512 := List.length_replicate
  have hfirst := length_addLists hzero hln
  have hsum := length_addLists hfirst hmn
  have hall := length_addLists (length_block e a) hsum
  rw [land_pair hl hm hlc hmc, get_setBlock hrising hlane]
  have hsat : ∀ xs : List Int, xs.length = 512 → (xs.map sat32).getD lane 0 = sat32 (xs.getD lane 0) := fun xs hxs => by
    simp [List.getD_eq_getElem?_getD, hxs, hlane]
  rw [hsat _ hall, getD_addLists (length_block e a) hsum hlane, getD_addLists hfirst hmn hlane,
    getD_addLists hzero hln hlane, getD_block e a hlane]
  have hnone : (List.replicate 512 (0 : Int)).getD lane 0 = 0 := by
    rw [List.getD_eq_getElem?_getD, List.getElem?_replicate, if_pos hlane]
    rfl
  rw [hnone, Int.zero_add]
  rfl

/-- Settles O30: a build, a lookup, a clear and an escape each issue one entry of the bay's table engine, and what lands in
one cycle is added up before it saturates. -/
theorem tableEngine : Obligations.TableEngine :=
  ⟨tableBuildsClause, accumulatorsLandClause, accumulatorSaturatesClause⟩

end Sys2Proof.Machine
end

section
/-! PROOFS. The parts of a bay an arithmetic entry works on, and frames written element by element (08, 09). -/

namespace Sys2Proof.Machine

variable {s t u : State} {b : BayNum} {d : Due} {k : Kind} {i : Issue} {x y : Bay} {m : Mem}

/-! ### The units of a bay -/

/-- Two bays with the same slots, engines, accumulators, statistics and sequencer. -/
structure Bay.SameUnits (x y : Bay) : Prop where
  t0 : y.t0 = x.t0
  engines : y.engines = x.engines
  racc : y.racc = x.racc
  sets : y.sets = x.sets
  seq : y.seq = x.seq

/-- From `s` only the bay `b` has changed, and its units are those of `x`. -/
structure State.Stands (s : State) (b : BayNum) (x : Bay) (t : State) : Prop where
  only : s.BayOnly b t
  units : x.SameUnits (t.bay b)

theorem State.Falls.stands (h : s.Falls b d) : s.Stands b ((s.bay b).past d) (s.advance d) :=
  ⟨h.bayOnly, by rw [h.advance_bay]; exact ⟨rfl, rfl, rfl, rfl, rfl⟩⟩

namespace State.Stands

theorem fresh (h : s.Stands b x t) : s.Stands b x t.fresh.2 := ⟨h.only.fresh, h.units⟩

theorem modBay (h : s.Stands b x t) (hb : i.b = b) {f : Bay → Bay} {x' : Bay}
    (hf : x.SameUnits (t.bay b) → x'.SameUnits (f (t.bay b))) : s.Stands b x' (t.modBay i.b f) := by
  subst hb
  refine ⟨h.only.modBay f, ?_⟩
  rw [State.modBay, State.setBay_bay]
  exact hf h.units

theorem modEngine (h : s.Stands b x t) (hb : i.b = b) (f : Engine → Engine) :
    s.Stands b (x.modEngine i.engine fun e => f (e.settle i.t)) (t.modEngine i f) :=
  h.modBay hb fun hx => ⟨hx.t0, by rw [Bay.modEngine, Bay.modEngine, hx.engines], hx.racc, hx.sets, hx.seq⟩

theorem result (h : s.Stands b x t) (hb : i.b = b) (res : Nat) (reads : List Nat) (ready : Nat) :
    s.Stands b x (t.result i res reads ready) :=
  h.modBay hb fun hx => ⟨hx.t0, hx.engines, hx.racc, hx.sets, hx.seq⟩

theorem writeDreg (h : s.Stands b x t) (hb : i.b = b) (reg v : Nat) (reads : List Nat) (ready : Nat) :
    s.Stands b x (t.writeDreg i reg v reads ready) :=
  h.modBay hb fun hx => ⟨hx.t0, hx.engines, hx.racc, hx.sets, hx.seq⟩

theorem writeSlot (h : s.Stands b x t) (hb : i.b = b) (n : Nat) (reads : List Nat) (ready : Nat) (spans : List (Nat × Nat))
    (f : Mem) : s.Stands b { x with t0 := Mem.setLeaf x.t0 n f } (t.writeSlot i n reads ready spans f) :=
  h.modBay hb fun hx => ⟨congrArg (fun m => Mem.setLeaf m n f) hx.t0, hx.engines, hx.racc, hx.sets, hx.seq⟩

theorem unit (h : s.Stands b x t) : UnitFrame s t b := h.only.unitFrame

theorem passed (h : s.Stands b x t) (hfalls : s.Falls b d) (hseq : x.seq = ((s.bay b).past d).seq) : Passed s t b d :=
  hfalls.passed_of_seq (h.units.seq.trans hseq)

theorem frame (h : s.Stands b x t) (n : Nat) : (t.bay b).frame n = x.frame n := by
  rw [Bay.frame, Bay.frame, h.units.t0]

/-- The slots after one of them was written. -/
theorem frame_setLeaf {f : Mem} {n : Nat} (h : s.Stands b { x with t0 := Mem.setLeaf x.t0 n f } t) (hinv : Inv s)
    (hx : x.t0 = (s.bay b).t0) (hf : Mem.wf f = true) (j : Nat) :
    (t.bay b).frame j = if j = n then Mem.frame f else (s.bay b).frame j :=
  Bay.frame_of_setLeaf (Inv.t0 hinv b) hf (h.units.t0.trans (congrArg (fun m => Mem.setLeaf m n f) hx)) j

end State.Stands

/-! ### Frames written element by element -/

/-- `n` elements of `w` bytes written one behind another from `base` on. -/
def Mem.elements (m : Mem) (base w : Nat) (v : Nat → Nat) (n : Nat) : Mem :=
  (List.range n).foldl (fun m l => Mem.writeLe m (base + w * l) w (v l)) m

theorem Mem.elements_succ (m : Mem) (base w : Nat) (v : Nat → Nat) (n : Nat) :
    m.elements base w v (n + 1) = Mem.writeLe (m.elements base w v n) (base + w * n) w (v n) := by
  rw [Mem.elements, List.range_succ, List.foldl_append]
  rfl

theorem Mem.elements_wf (hm : Mem.wf m = true) (base w : Nat) (v : Nat → Nat) (n : Nat) :
    Mem.wf (m.elements base w v n) = true :=
  List.foldlRecOn (motive := fun m => Mem.wf m = true) _ _ hm fun _ hm _ _ => Mem.writeL_wf _ _ _ hm

theorem Mem.readLe_elements (hm : Mem.wf m = true) (base w : Nat) (v : Nat → Nat) {l n : Nat} (hl : l < n) :
    Mem.readLe (m.elements base w v n) (base + w * l) w = v l % 256 ^ w := by
  induction n with
  | zero => omega
  | succ n ih =>
    rw [Mem.elements_succ]
    have hwf := Mem.elements_wf hm base w v n
    by_cases hln : l = n
    · rw [hln, Mem.readLe_writeLe_self hwf]
    · have hle : w * (l + 1) ≤ w * n := Nat.mul_le_mul_left w (by omega)
      rw [Mem.readLe_writeLe_disjoint hwf _ _ _ _ _ (.inl (by rw [Nat.mul_succ] at hle; omega))]
      exact ih (by omega)

theorem Mem.read_elements (hm : Mem.wf m = true) {base w a : Nat} (v : Nat → Nat) {n : Nat}
    (ha : a < base ∨ base + w * n ≤ a) : Mem.read (m.elements base w v n) a = Mem.read m a := by
  induction n with
  | zero => rfl
  | succ n ih =>
    rw [Nat.mul_succ] at ha
    rw [Mem.elements_succ, Mem.writeLe, Mem.read_writeL _ _ _ _ (Mem.elements_wf hm base w v n), natLe_length,
      if_neg (by omega)]
    exact ih (by omega)

theorem Mem.readLe_congr {m m' : Mem} {a n : Nat} (h : ∀ c, a ≤ c → c < a + n → Mem.read m c = Mem.read m' c) :
    Mem.readLe m a n = Mem.readLe m' a n := by
  refine congrArg leNat (List.ext_getElem (by rw [Mem.readN_length, Mem.readN_length]) fun j hj _ => ?_)
  rw [Mem.readN_length] at hj
  rw [Mem.readN_getElem, Mem.readN_getElem, h _ (by omega) (by omega)]

/-- A field of a frame. -/
theorem Mem.readLe_frame (hm : Mem.wf m = true) {a n : Nat} (h : a + n ≤ leafBytes) :
    Mem.readLe (Mem.frame m) a n = Mem.readLe m a n :=
  Mem.readLe_congr fun c _ hc => by rw [Mem.read_frame hm, if_pos (by omega)]

/-- A byte of a slot the entry left as it was. -/
theorem Bay.read_frame_frame {f : Mem} (hx : Mem.wf x.t0 = true) (hf : Mem.wf f = true) {n a : Nat}
    (h : Mem.read f a = Mem.read (x.frame n) a) : Mem.read (Mem.frame f) a = Mem.read (x.frame n) a := by
  rw [Mem.read_frame hf]
  split
  · exact h
  · next ha => rw [Bay.frame, Mem.read_leaf hx, if_neg ha]

end Sys2Proof.Machine
end

section
/-! PROOFS. TE_RESCALE (09, R441 to R444). -/

namespace Sys2Proof.Machine

variable {s t u : State} {b : BayNum} {d : Due} {k : Kind} {i : Issue}

/-- An INT8 byte: 512 lanes written one behind another. -/
theorem foldl_rescalePut (m : Mem) (dblk : Nat) (v : Nat → Nat) :
    (List.range 512).foldl (fun m l => rescalePut 0 dblk m l (v l)) m = m.elements (256 + 512 * dblk) 1 v 512 := by
  unfold Mem.elements
  simp only [Nat.one_mul]
  rfl

/-- The byte that lane `l` leaves: the accumulator scaled, rounded once and clipped (R442). -/
theorem rescaleOne_int8 (acc : Int) (entry choice : Nat) :
    BitVec.ofNat 8 (rescaleOne acc entry 0 choice) = BitVec.ofInt 8 (max (-128) (min 127
      (roundInt (if bit entry 23 = true ∧ acc * toSigned 16 entry < 0 then 0 else acc * toSigned 16 entry)
        (2 ^ bits entry 21 16)))) := by
  have hofInt (x : Int) : BitVec.ofNat 8 (ofSigned 8 x) = BitVec.ofInt 8 x := by
    refine BitVec.eq_of_toNat_eq ?_
    rw [BitVec.toNat_ofNat, BitVec.toNat_ofInt, ofSigned]
    omega
  exact hofInt _

/-- What lane `l` of a TE_RESCALE with OUTFMT 0 gives from accumulators `vals` and the entries of `rs`. -/
def rescaled (w : Nat) (rs : Mem) (vals : List Int) (choice l : Nat) : Nat :=
  rescaleOne (vals.getD l 0) (Mem.readLe rs (payloadBase + 4 * (512 * bits w 77 76 + l)) 4) 0 (choice / 6 ^ l)

theorem opTeRescale_of_settled {rs : Mem} (hout : bits i.w 68 67 = 0) (hread : s.readSlot i (i.ts 78) = (rs, s))
    (hearly : (s.modEngine i fun e => e).early i.b (resAcc i.engine.val (bits i.w 87 85)) i.t = false) :
    let v := (s.modEngine i fun e => e).fresh
    ∃ reads spans, opTeRescale i s = v.2.writeSlot i (i.ts 69) reads (readyAt .teRescale i.w i.t) spans
      (((v.2.bay i.b).frame (i.ts 69)).elements (256 + 512 * bits i.w 66 63) 1
        (rescaled i.w rs ((v.2.engine i).block (bits i.w 87 85)) v.1) 512) := by
  intro v
  refine ⟨[resAcc i.engine.val (bits i.w 87 85), i.ts 78], [rescaleSpan 0 (bits i.w 66 63)], ?_⟩
  unfold opTeRescale
  dsimp only
  rw [hread]
  dsimp only
  simp only [hearly, hout, Bool.false_eq_true, if_false]
  rw [foldl_rescalePut]
  rfl

theorem State.early_modEngine (s : State) (i : Issue) (f : Engine → Engine) (b : BayNum) (res t : Nat) :
    (s.modEngine i f).early b res t = s.early b res t := by
  have hready : ((s.modEngine i f).bay b).ready = (s.bay b).ready := by
    rw [State.modEngine, State.modBay]
    by_cases hb : b = i.b
    · rw [hb, State.setBay_bay]
      rfl
    · rw [State.setBay_bay_ne _ _ _ _ hb]
  rw [State.early, State.early, hready]

theorem State.Falls.early (h : s.Falls b d) (res t : Nat) : (s.advance d).early b res t = s.early b res t := by
  rw [State.early, State.early, h.advance_bay]
  rfl

theorem rescalesClause : RescalesClause := by
  intro s b d hinv h hout i old acc dblk rs hsettled hready
  have hfalls := falls_of_issues h
  obtain ⟨hb, ht, hw⟩ := hfalls.issueOf
  have hearly : ((s.advance d).modEngine i fun e => e).early i.b (resAcc i.engine.val acc) i.t = false := by
    rw [State.early_modEngine, hb, hfalls.early]
    exact hsettled
  obtain ⟨reads, spans, hop⟩ := opTeRescale_of_settled hout (hfalls.readSlot (n := i.ts 78) hready) hearly
  have heq : teRescale b s = _ := (issueUnit_of_issues h opTeRescale).trans hop
  have hbefore := (hfalls.stands.modEngine (i := i) hb fun e => e).fresh
  generalize ((s.advance d).modEngine i fun e => e).fresh = v at heq hbefore
  obtain ⟨choice, v⟩ := v
  dsimp only at heq hbefore
  have hengine : v.engine i = old := by
    rw [State.engine, hb, hbefore.units.engines]
    exact Bay.modEngine_get _ _ _
  have hframe : (v.bay i.b).frame (i.ts 69) = (s.bay b).frame (i.ts 69) := by
    rw [hb]
    exact hbefore.frame _
  rw [hengine, hframe] at heq
  have hds := Bay.frame_wf (Inv.t0 hinv b) (i.ts 69)
  have hwf := Mem.elements_wf hds (256 + 512 * dblk) 1 (rescaled d.w rs (old.block acc) choice) 512
  have hafter := hbefore.writeSlot hb (i.ts 69) reads (readyAt .teRescale i.w i.t) spans
    (((s.bay b).frame (i.ts 69)).elements (256 + 512 * dblk) 1 (rescaled d.w rs (old.block acc) choice) 512)
  obtain ⟨t, heq, hafter⟩ : ∃ t, teRescale b s = t ∧ s.Stands b _ t := ⟨_, heq, hafter⟩
  have hslots := hafter.frame_setLeaf hinv rfl hwf
  have hdblk : dblk < 16 := Nat.mod_lt _ (by decide)
  refine ⟨t, congrArg Host.Outcome.next heq, hafter.passed hfalls rfl, hafter.unit, ?engine, fun l hl => ?lane, fun a ha => ?_,
    fun n _ hn => ?_⟩
  case engine =>
    rw [hafter.units.engines]
    exact Bay.modEngine_get ((s.bay b).past d) i.engine fun e => e.settle i.t
  case lane =>
    have hbyte := Mem.readLe_elements hds (256 + 512 * dblk) 1 (rescaled d.w rs (old.block acc) choice) hl
    have hread : Mem.read (((s.bay b).frame (i.ts 69)).elements (256 + 512 * dblk) 1
        (rescaled d.w rs (old.block acc) choice) 512) (256 + 512 * dblk + l) =
        BitVec.ofNat 8 (rescaled d.w rs (old.block acc) choice l) := by
      refine BitVec.eq_of_toNat_eq ?_
      rw [Mem.read_eq_readLe _ _ 0, BitVec.toNat_ofNat, ← Nat.one_mul l, Nat.zero_add, hbyte]
      simp
    dsimp only
    rw [hslots, if_pos rfl, Mem.read_frame hwf, if_pos (by unfold leafBytes; omega), hread, rescaled, rescaleOne_int8,
      getD_block old acc hl]
    rfl
  · rw [hslots, if_pos rfl]
    exact Bay.read_frame_frame (Inv.t0 hinv b) hwf (Mem.read_elements hds _ (by omega))
  · rw [hslots, if_neg hn]

end Sys2Proof.Machine
end

section
/-! PROOFS. The log-domain unit (09, R452 to R462). -/

namespace Sys2Proof.Machine

variable {s t u : State} {b : BayNum} {d : Due} {k : Kind} {i : Issue}

/-! ### Numbers in the log domain -/

theorem toSigned_mod (v : Nat) : toSigned 15 (v % 0x8000) = toSigned 15 v := by
  simp [toSigned]

theorem lnsL_of_zero {v : Nat} (h : v % 0x8000 = 0x4000) : lnsL v = none := if_pos h

theorem lnsL_of_nonzero {v : Nat} (h : v % 0x8000 ≠ 0x4000) : lnsL v = some (toSigned 15 v) :=
  (if_neg h).trans (congrArg some (toSigned_mod v))

theorem le_toSigned {v : Nat} (h : v % 0x8000 ≠ 0x4000) : -16383 ≤ toSigned 15 v := by
  unfold toSigned
  norm_num at h ⊢
  split <;> omega

theorem toSigned_ofSigned {l : Int} (hlo : -16384 ≤ l) (hhi : l < 16384) (neg : Bool) :
    (if neg then 0x8000 else 0) + ofSigned 15 l < 65536 ∧
      toSigned 15 ((if neg then 0x8000 else 0) + ofSigned 15 l) = l ∧
      bit ((if neg then 0x8000 else 0) + ofSigned 15 l) 15 = neg := by
  have hv : ofSigned 15 l < 32768 ∧ (ofSigned 15 l : Int) = if 0 ≤ l then l else l + 32768 := by
    unfold ofSigned
    norm_num
    split <;> omega
  generalize ofSigned 15 l = v at hv
  obtain ⟨hlt, hval⟩ := hv
  have hsigned : toSigned 15 v = l := by
    unfold toSigned
    norm_num
    rw [Nat.mod_eq_of_lt hlt]
    split at hval <;> split <;> omega
  cases neg with
  | false =>
    refine ⟨by simp; omega, by simpa using hsigned, ?_⟩
    simp [bit, Nat.div_eq_of_lt hlt]
  | true =>
    refine ⟨by simp; omega, ?_, ?_⟩
    · rw [← toSigned_mod, if_pos rfl, Nat.add_mod_left, toSigned_mod, hsigned]
    · rw [bit, if_pos rfl]
      norm_num
      omega

theorem lnsMake_within {l : Int} (hlo : -16383 ≤ l) (hhi : l < 16384) (neg : Bool) :
    lnsMake neg l = (if neg then 0x8000 else 0) + ofSigned 15 l := by
  rw [lnsMake, if_neg (by omega), if_neg (by omega)]

theorem lnsMake_above {l : Int} (h : 16384 ≤ l) (neg : Bool) : lnsMake neg l = (if neg then 0x8000 else 0) + 0x3FFF := if_pos h

theorem lnsMake_below {l : Int} (h : l < -16383) (neg : Bool) : lnsMake neg l = 0x4000 := by
  rw [lnsMake, if_neg (by omega), if_pos h]

theorem lnsMul_of_zero {x y : Nat} (h : x % 0x8000 = 0x4000 ∨ y % 0x8000 = 0x4000) : lnsMul x y = 0x4000 := by
  unfold lnsMul
  rcases h with h | h <;> rw [lnsL_of_zero h]
  cases lnsL x <;> rfl

theorem lnsMul_of_nonzero {x y : Nat} (hx : x % 0x8000 ≠ 0x4000) (hy : y % 0x8000 ≠ 0x4000) :
    lnsMul x y = lnsMake (bit x 15 != bit y 15) (toSigned 15 x + toSigned 15 y) := by
  rw [lnsMul, lnsL_of_nonzero hx, lnsL_of_nonzero hy]
  rfl

theorem lnsAdd_of_zeros {x y : Nat} (hx : x % 0x8000 = 0x4000) (hy : y % 0x8000 = 0x4000) : lnsAdd x y = 0x4000 := by
  rw [lnsAdd, lnsL_of_zero hx, lnsL_of_zero hy]

theorem lnsAdd_zero {x y : Nat} (hy : y % 0x8000 = 0x4000) (hx : x % 0x8000 ≠ 0x4000) : lnsAdd x y = x := by
  rw [lnsAdd, lnsL_of_nonzero hx, lnsL_of_zero hy]

theorem zero_lnsAdd {x y : Nat} (hx : x % 0x8000 = 0x4000) (hy : y % 0x8000 ≠ 0x4000) : lnsAdd x y = y := by
  rw [lnsAdd, lnsL_of_nonzero hy, lnsL_of_zero hx]

theorem lnsAdd_of_nonzero {x y : Nat} (hx : x % 0x8000 ≠ 0x4000) (hy : y % 0x8000 ≠ 0x4000)
    (hle : toSigned 15 y ≤ toSigned 15 x) :
    let gap := (toSigned 15 x - toSigned 15 y).toNat
    (bit x 15 ≠ bit y 15 → gap < 128 → lnsAdd x y = 0x4000) ∧
    (bit x 15 = bit y 15 → lnsAdd x y = lnsMake (bit x 15) (toSigned 15 x + lnsFPlus gap)) := by
  rw [lnsAdd, lnsL_of_nonzero hx, lnsL_of_nonzero hy]
  simp only [max_eq_left hle, min_eq_right hle, if_pos hle]
  exact ⟨fun hne hlt => (if_neg hne).trans (if_pos hlt), fun heq => if_pos heq⟩

theorem lnsRecip_of_zero {v : Nat} (h : v % 0x8000 = 0x4000) : lnsRecip v = 0x3FFF := by
  rw [lnsRecip, lnsL_of_zero h]

/-! ### From and to the linear domain -/

theorem sign_bit {x : Nat} (hx : x < 65536) : x / 0x8000 * 0x8000 = if decide (0x8000 ≤ x % 2 ^ 16) then 0x8000 else 0 := by
  rw [show x % 2 ^ 16 = x from Nat.mod_eq_of_lt hx]
  by_cases h : 0x8000 ≤ x <;> simp [h] <;> omega

theorem lnsFromLin_of_nothing {x : Nat} (h : bits x 14 7 = 0 ∨ 0x7F80 < x % 0x8000) : lnsFromLin x = 0x4000 := by
  rcases h with h | h
  · have hsmall : x % 0x8000 < 128 := by
      unfold bits at h
      norm_num at h
      omega
    have hdecode : bf16.decode x = .fin (decide (0x8000 ≤ x % 2 ^ 16)) (x % 0x8000) (-133) :=
      (if_neg (show ¬ 0x7F80 < x % 0x8000 by omega)).trans
        ((if_neg (show ¬ x % 0x8000 = 0x7F80 by omega)).trans (if_pos hsmall))
    rw [lnsFromLin, hdecode]
    exact if_pos hsmall
  · have hdecode : bf16.decode x = .nan := if_pos h
    rw [lnsFromLin, hdecode]

theorem lnsFromLin_of_infinity {x : Nat} (hx : x < 65536) (h : x % 0x8000 = 0x7F80) :
    lnsFromLin x = x / 0x8000 * 0x8000 + 0x3FFF := by
  have hdecode : bf16.decode x = .inf (decide (0x8000 ≤ x % 2 ^ 16)) :=
    (if_neg (show ¬ 0x7F80 < x % 0x8000 by omega)).trans (if_pos h)
  rw [lnsFromLin, hdecode, sign_bit hx]

theorem log2Frac_one : log2Frac 128 = 0 := by decide +kernel

theorem lnsFromLin_of_one {x : Nat} (hx : x < 65536) (h : x % 0x8000 = 0x3F80) :
    lnsFromLin x = x / 0x8000 * 0x8000 := by
  have hdecode : bf16.decode x = .fin (decide (0x8000 ≤ x % 2 ^ 16)) (128 + x % 0x8000 % 128)
      (-133 + (x % 0x8000 / 128 - 1 : Nat)) :=
    (if_neg (show ¬ 0x7F80 < x % 0x8000 by omega)).trans
      ((if_neg (show ¬ x % 0x8000 = 0x7F80 by omega)).trans (if_neg (show ¬ x % 0x8000 < 128 by omega)))
  have hone : bf16.decode x = .fin (decide (0x8000 ≤ x % 2 ^ 16)) 128 (-7) := by
    rw [hdecode, h]
    rfl
  have hlog : (((log2Frac 128 + 1) / 2 : Nat) : Int) = 0 := by rw [log2Frac_one]; rfl
  rw [lnsFromLin, hone, sign_bit hx]
  simp only [hlog, Nat.lt_irrefl, if_false]
  exact lnsMake_within (l := 0) (by decide) (by decide) _

theorem lnsToLin_of_zero {x : Nat} (h : x % 0x8000 = 0x4000) : lnsToLin x = 0 := by
  rw [lnsToLin, lnsL_of_zero h]

theorem exp2Floor_zero : exp2Floor 8 0 = 256 := by decide +kernel

theorem lnsToLin_of_power {x : Nat} (hx : x < 65536) (h : x % 0x400 = 0) (hne : x % 0x8000 ≠ 0x4000) :
    lnsToLin x = x / 0x8000 * 0x8000 + (127 + toSigned 15 x / 1024).toNat * 128 ∧
      (127 + toSigned 15 x / 1024).toNat < 256 := by
  have hlow : toSigned 15 x % 1024 = 0 ∧ -16 ≤ toSigned 15 x / 1024 ∧ toSigned 15 x / 1024 < 16 := by
    unfold toSigned
    norm_num
    split <;> omega
  obtain ⟨hmod, hlo, hhi⟩ := hlow
  rw [lnsToLin, lnsL_of_nonzero hne]
  dsimp only
  rw [hmod, show Int.toNat 0 = 0 from rfl, exp2Floor_zero]
  generalize toSigned 15 x / 1024 = e at hlo hhi
  have hsign : lnsNeg x = decide (0x8000 ≤ x) := by
    unfold lnsNeg bit
    norm_num
    by_cases hge : 0x8000 ≤ x <;> simp [hge] <;> omega
  rw [FloatFmt.signed, hsign]
  have hbit : bf16.signBit = 0x8000 := rfl
  rw [hbit]
  by_cases hge : 0x8000 ≤ x <;> simp [hge] <;> omega

end Sys2Proof.Machine
end

section
/-! PROOFS. The entries of the log-domain unit (09, R452 to R458). -/

namespace Sys2Proof.Machine

variable {s t u : State} {b : BayNum} {d : Due} {k : Kind} {i : Issue}

theorem halfAt_lt (f : Mem) (k : Nat) : halfAt f k < 65536 := Mem.readLe_lt f _ 2

/-! ### Element by element -/

/-- The entry `d` has issued in bay `b` and left `f` in slot `n`. -/
structure State.Fills (s : State) (b : BayNum) (d : Due) (n : Nat) (f : Mem) (t : State) : Prop where
  passed : Passed s t b d
  unit : UnitFrame s t b
  slot : (t.bay b).frame n = Mem.frame f
  others : ∀ j, j < 64 → j ≠ n → (t.bay b).frame j = (s.bay b).frame j

theorem State.Falls.fills (h : s.Falls b d) (hinv : Inv s) {f : Mem} (hf : Mem.wf f = true) (n : Nat) (reads : List Nat)
    (ready : Nat) (spans : List (Nat × Nat)) :
    s.Fills b d n f ((s.advance d).writeSlot (s.issueOf d) n reads ready spans f) := by
  have hafter := h.stands.writeSlot h.issueOf.1 n reads ready spans f
  have hslots := hafter.frame_setLeaf hinv rfl hf
  exact ⟨hafter.passed h rfl, hafter.unit, (hslots n).trans (if_pos rfl), fun j _ hj => (hslots j).trans (if_neg hj)⟩

theorem State.Falls.slot (h : s.Falls b d) (n : Nat) : ((s.advance d).bay (s.issueOf d).b).frame n = (s.bay b).frame n := by
  rw [h.issueOf.1]
  exact h.stands.frame n

/-- The frame a log-domain operation leaves. -/
def lnsFrame (g : Nat → Nat → Nat) (x y ds : Mem) : Mem :=
  ds.elements 256 2 (fun k => g (halfAt x k) (halfAt y k)) 4096

theorem halfAt_lnsFrame {x y ds : Mem} (hds : Mem.wf ds = true) (g : Nat → Nat → Nat) {k : Nat} (hk : k < 4096) :
    Mem.readLe (Mem.frame (lnsFrame g x y ds)) (256 + 2 * k) 2 = g (halfAt x k) (halfAt y k) % 65536 := by
  rw [lnsFrame, Mem.readLe_frame (Mem.elements_wf hds _ _ _ _) (by unfold leafBytes; omega)]
  exact Mem.readLe_elements hds 256 2 _ hk

/-- An operation on two sources issues. -/
theorem lnsMap_pair (hinv : Inv s) (h : Issues s b k d) (kind : Kind) (g : Nat → Nat → Nat)
    (hx : SlotReady s b ((s.issueOf d).ts 81) d.t) (hy : SlotReady s b ((s.issueOf d).ts 74) d.t) :
    s.Fills b d ((s.issueOf d).ts 67) (lnsFrame g ((s.bay b).frame ((s.issueOf d).ts 81))
      ((s.bay b).frame ((s.issueOf d).ts 74)) ((s.bay b).frame ((s.issueOf d).ts 67)))
      (s.issueUnit b k fun i => lnsMap i kind true g) := by
  have hfalls := falls_of_issues h
  rw [issueUnit_of_issues h, lnsMap]
  rw [hfalls.readSlot hx, if_pos rfl]
  dsimp only
  rw [hfalls.readSlot hy, hfalls.slot]
  exact hfalls.fills hinv (Mem.elements_wf (Bay.frame_wf (Inv.t0 hinv b) _) _ _ _ _) _ _ _ _

/-- An operation on one source issues. -/
theorem lnsMap_single (hinv : Inv s) (h : Issues s b k d) (kind : Kind) (g : Nat → Nat)
    (hx : SlotReady s b ((s.issueOf d).ts 81) d.t) :
    s.Fills b d ((s.issueOf d).ts 67) (lnsFrame (fun x _ => g x) ((s.bay b).frame ((s.issueOf d).ts 81)) []
      ((s.bay b).frame ((s.issueOf d).ts 67))) (s.issueUnit b k fun i => lnsMap i kind false fun x _ => g x) := by
  have hfalls := falls_of_issues h
  rw [issueUnit_of_issues h, lnsMap]
  rw [hfalls.readSlot hx, if_neg Bool.false_ne_true]
  dsimp only
  rw [hfalls.slot]
  exact hfalls.fills hinv (Mem.elements_wf (Bay.frame_wf (Inv.t0 hinv b) _) _ _ _ _) _ _ _ _

/-! ### LNS_REDUCE (R455) -/

/-- The sum of group `g` of sixteen. -/
def groupSum (x : Mem) (g : Nat) : Nat :=
  (List.range 15).foldl (fun v j => lnsAdd v (halfAt x (16 * g + j + 1))) (halfAt x (16 * g))

/-- The sums and reciprocals of the first `n` groups, written into a frame. -/
def reduceFrame (x ds : Mem) (n : Nat) : Mem :=
  (List.range n).foldl (fun m g => putHalf (putHalf m g (groupSum x g)) (256 + g) (lnsRecip (groupSum x g))) ds

theorem reduceFrame_succ (x ds : Mem) (n : Nat) : reduceFrame x ds (n + 1) =
    putHalf (putHalf (reduceFrame x ds n) n (groupSum x n)) (256 + n) (lnsRecip (groupSum x n)) := by
  rw [reduceFrame, List.range_succ, List.foldl_append]
  rfl

theorem reduceFrame_wf {ds : Mem} (hds : Mem.wf ds = true) (x : Mem) (n : Nat) : Mem.wf (reduceFrame x ds n) = true :=
  List.foldlRecOn (motive := fun m => Mem.wf m = true) _ _ hds fun _ hm _ _ => putHalf_wf (putHalf_wf hm)

theorem halfAt_putHalf_self {f : Mem} (hf : Mem.wf f = true) (k v : Nat) : halfAt (putHalf f k v) k = v % 65536 :=
  Mem.readLe_writeLe_self hf _ 2 v

theorem halfAt_putHalf_ne {f : Mem} (hf : Mem.wf f = true) {k j : Nat} (hkj : j ≠ k) (v : Nat) :
    halfAt (putHalf f k v) j = halfAt f j :=
  Mem.readLe_writeLe_disjoint hf _ _ 2 2 v (by omega)

/-- The elements of the frame: sums, reciprocals, and the rest as it was. -/
theorem halfAt_reduceFrame {ds : Mem} (hds : Mem.wf ds = true) (x : Mem) {n : Nat} (hn : n ≤ 256) :
    (∀ j, 512 ≤ j → halfAt (reduceFrame x ds n) j = halfAt ds j) ∧
    ∀ g, g < n → halfAt (reduceFrame x ds n) g = groupSum x g % 65536 ∧
      halfAt (reduceFrame x ds n) (256 + g) = lnsRecip (groupSum x g) % 65536 := by
  induction n with
  | zero => exact ⟨fun _ _ => rfl, fun g hg => absurd hg (Nat.not_lt_zero g)⟩
  | succ n ih =>
    obtain ⟨hrest, hgroups⟩ := ih (by omega)
    have hwf := reduceFrame_wf hds x n
    have hwf' := putHalf_wf (k := n) (v := groupSum x n) hwf
    rw [reduceFrame_succ]
    have hother (j : Nat) (hlow : j ≠ n) (hhigh : j ≠ 256 + n) :
        halfAt (putHalf (putHalf (reduceFrame x ds n) n (groupSum x n)) (256 + n) (lnsRecip (groupSum x n))) j =
          halfAt (reduceFrame x ds n) j := by
      rw [halfAt_putHalf_ne hwf' hhigh, halfAt_putHalf_ne hwf hlow]
    refine ⟨fun j hj => (hother j (by omega) (by omega)).trans (hrest j hj), fun g hg => ?_⟩
    by_cases hgn : g = n
    · subst hgn
      exact ⟨by rw [halfAt_putHalf_ne hwf' (by omega), halfAt_putHalf_self hwf], halfAt_putHalf_self hwf' _ _⟩
    · obtain ⟨hsum, hrecip⟩ := hgroups g (by omega)
      exact ⟨(hother g hgn (by omega)).trans hsum, (hother (256 + g) (by omega) (by omega)).trans hrecip⟩

theorem groupSum_of_zeros {x : Mem} {g : Nat} (h : ∀ j, j < 16 → halfAt x (16 * g + j) % 0x8000 = 0x4000) :
    groupSum x g % 0x8000 = 0x4000 :=
  List.foldlRecOn (motive := fun v => v % 0x8000 = 0x4000) _ _ (h 0 (by decide)) fun v hv j hj => by
    rw [lnsAdd_of_zeros hv (show halfAt x (16 * g + j + 1) % 0x8000 = 0x4000 from
      h (j + 1) (by have := List.mem_range.1 hj; omega))]

theorem opLnsReduce_fills (hinv : Inv s) (h : Issues s b .lnsReduce d) (hx : SlotReady s b ((s.issueOf d).ts 81) d.t) :
    s.Fills b d ((s.issueOf d).ts 67) (reduceFrame ((s.bay b).frame ((s.issueOf d).ts 81))
      ((s.bay b).frame ((s.issueOf d).ts 67)) 256) (s.issueUnit b .lnsReduce opLnsReduce) := by
  have hfalls := falls_of_issues h
  rw [issueUnit_of_issues h, opLnsReduce]
  dsimp only
  rw [hfalls.readSlot hx]
  dsimp only
  rw [hfalls.slot]
  exact hfalls.fills hinv (reduceFrame_wf (Bay.frame_wf (Inv.t0 hinv b) _) _ _) _ _ _ _

/-! ### The entries -/

theorem lnsMulClause (x y : Nat) {r : Nat} (hr : r = lnsMul x y % 65536) :
    ((x % 0x8000 = 0x4000 ∨ y % 0x8000 = 0x4000) → r = 0x4000) ∧
    (x % 0x8000 ≠ 0x4000 → y % 0x8000 ≠ 0x4000 →
      let l := toSigned 15 x + toSigned 15 y
      let neg := bit x 15 != bit y 15
      (-16383 ≤ l → l < 16384 → toSigned 15 r = l ∧ bit r 15 = neg) ∧
      (16384 ≤ l → r = (if neg then 0x8000 else 0) + 0x3FFF) ∧ (l < -16383 → r = 0x4000)) := by
  subst hr
  refine ⟨fun hzero => by rw [lnsMul_of_zero hzero], fun hx hy => ?_⟩
  intro l neg
  rw [lnsMul_of_nonzero hx hy]
  refine ⟨fun hlo hhi => ?_, fun hhi => ?_, fun hlo => ?_⟩
  · obtain ⟨hlt, hval, hsign⟩ := toSigned_ofSigned (l := l) (by omega) hhi neg
    rw [lnsMake_within hlo hhi, Nat.mod_eq_of_lt hlt]
    exact ⟨hval, hsign⟩
  · rw [lnsMake_above hhi]
    exact Nat.mod_eq_of_lt (by split <;> decide)
  · rw [lnsMake_below hlo]

theorem lnsAddClause {x y : Nat} (hxlt : x < 65536) (hylt : y < 65536) {r : Nat} (hr : r = lnsAdd x y % 65536) :
    (y % 0x8000 = 0x4000 → x % 0x8000 ≠ 0x4000 → r = x) ∧
    (x % 0x8000 = 0x4000 → y % 0x8000 ≠ 0x4000 → r = y) ∧
    (x % 0x8000 ≠ 0x4000 → y % 0x8000 ≠ 0x4000 → toSigned 15 y ≤ toSigned 15 x →
      let gap := (toSigned 15 x - toSigned 15 y).toNat
      (bit x 15 ≠ bit y 15 → gap < 128 → r = 0x4000) ∧
      (bit x 15 = bit y 15 → toSigned 15 x + lnsFPlus gap < 16384 →
        toSigned 15 r = toSigned 15 x + lnsFPlus gap ∧ bit r 15 = bit x 15)) := by
  subst hr
  refine ⟨fun hy hx => ?_, fun hx hy => ?_, fun hx hy hle => ?_⟩
  · rw [lnsAdd_zero hy hx, Nat.mod_eq_of_lt hxlt]
  · rw [zero_lnsAdd hx hy, Nat.mod_eq_of_lt hylt]
  · intro gap
    obtain ⟨hcancel, hsum⟩ := lnsAdd_of_nonzero hx hy hle
    refine ⟨fun hne hlt => by rw [hcancel hne hlt], fun heq hhi => ?_⟩
    have hlo := le_toSigned hx
    obtain ⟨hlt, hval, hsign⟩ := toSigned_ofSigned (l := toSigned 15 x + lnsFPlus gap) (by omega) hhi (bit x 15)
    rw [hsum heq, lnsMake_within (by omega) hhi, Nat.mod_eq_of_lt hlt]
    exact ⟨hval, hsign⟩

theorem lnsFromLinClause {x : Nat} (hx : x < 65536) {r : Nat} (hr : r = lnsFromLin x % 65536) :
    (bits x 14 7 = 0 ∨ 0x7F80 < x % 0x8000 → r = 0x4000) ∧
    (x % 0x8000 = 0x7F80 → r = x / 0x8000 * 0x8000 + 0x3FFF) ∧
    (x % 0x8000 = 0x3F80 → r = x / 0x8000 * 0x8000) := by
  subst hr
  refine ⟨fun h => by rw [lnsFromLin_of_nothing h], fun h => ?_, fun h => ?_⟩
  · rw [lnsFromLin_of_infinity hx h]
    omega
  · rw [lnsFromLin_of_one hx h]
    omega

theorem lnsToLinClause {x : Nat} (hx : x < 65536) {r : Nat} (hr : r = lnsToLin x % 65536) :
    (x % 0x8000 = 0x4000 → r = 0) ∧
    (x % 0x400 = 0 → x % 0x8000 ≠ 0x4000 → r = x / 0x8000 * 0x8000 + (127 + toSigned 15 x / 1024).toNat * 128) := by
  subst hr
  refine ⟨fun h => by rw [lnsToLin_of_zero h], fun h hne => ?_⟩
  obtain ⟨heq, hlt⟩ := lnsToLin_of_power hx h hne
  rw [heq]
  omega

theorem logDomainClause : LogDomainClause := by
  intro s b d hinv i fa fb el ds others hready
  have hwf := Bay.frame_wf (Inv.t0 hinv b) (i.ts 67)
  refine ⟨fun h hready' => ?_, fun h hready' => ?_, fun h => ?_, fun h => ?_, fun h => ?_⟩
  · have hfills := lnsMap_pair hinv h .lnsMul lnsMul hready hready'
    refine ⟨_, rfl, hfills.passed, hfills.unit, hfills.others, fun k hk => lnsMulClause _ _ ?_⟩
    exact (congrArg (fun f => Mem.readLe f (256 + 2 * k) 2) hfills.slot).trans (halfAt_lnsFrame hwf _ hk)
  · have hfills := lnsMap_pair hinv h .lnsAdd lnsAdd hready hready'
    refine ⟨_, rfl, hfills.passed, hfills.unit, hfills.others, fun k hk =>
      lnsAddClause (halfAt_lt _ _) (halfAt_lt _ _) ?_⟩
    exact (congrArg (fun f => Mem.readLe f (256 + 2 * k) 2) hfills.slot).trans (halfAt_lnsFrame hwf _ hk)
  · have hfills : s.Fills b d (i.ts 67) _ (lnsReduceIssue b s) := opLnsReduce_fills hinv h hready
    obtain ⟨hrest, hgroups⟩ := halfAt_reduceFrame hwf fa (Nat.le_refl 256)
    have hel (t : State) (ht : (t.bay b).frame (i.ts 67) = Mem.frame (reduceFrame fa ((s.bay b).frame (i.ts 67)) 256))
        (k : Nat) (hk : k < 4096) : el (ds t) k = halfAt (reduceFrame fa ((s.bay b).frame (i.ts 67)) 256) k :=
      (congrArg (fun f => Mem.readLe f (256 + 2 * k) 2) ht).trans
        (Mem.readLe_frame (reduceFrame_wf hwf _ _) (by unfold leafBytes; omega))
    refine ⟨_, rfl, hfills.passed, hfills.unit, hfills.others, fun k hlo hhi => (hel _ hfills.slot k hhi).trans (hrest k hlo),
      fun g hg hzeros => ?_⟩
    obtain ⟨hsum, hrecip⟩ := hgroups g hg
    have hzero := groupSum_of_zeros hzeros
    rw [hel _ hfills.slot g (by omega), hel _ hfills.slot (256 + g) (by omega), hsum, hrecip, lnsRecip_of_zero hzero]
    exact ⟨by omega, rfl⟩
  · have hfills := lnsMap_single hinv h .lnsFromlin lnsFromLin hready
    refine ⟨_, rfl, hfills.passed, hfills.unit, hfills.others, fun k hk => lnsFromLinClause (halfAt_lt _ _) ?_⟩
    exact (congrArg (fun f => Mem.readLe f (256 + 2 * k) 2) hfills.slot).trans (halfAt_lnsFrame hwf _ hk)
  · have hfills := lnsMap_single hinv h .lnsTolin lnsToLin hready
    refine ⟨_, rfl, hfills.passed, hfills.unit, hfills.others, fun k hk => lnsToLinClause (halfAt_lt _ _) ?_⟩
    exact (congrArg (fun f => Mem.readLe f (256 + 2 * k) 2) hfills.slot).trans (halfAt_lnsFrame hwf _ hk)

/-- Settles O31: each of these entries reads its settled sources, computes element by element, and writes one slot. -/
theorem rescaleAndLogDomain : Obligations.RescaleAndLogDomain := ⟨rescalesClause, logDomainClause⟩

end Sys2Proof.Machine
end

section
/-! PROOFS. The reference unit: REF_FMA and REF_CAST (09, R464 to R467). -/

namespace Sys2Proof.Machine

variable {s t u : State} {b : BayNum} {d : Due} {k : Kind} {i : Issue}

/-! ### Tables written lane by lane -/

/-- `n` lanes of a table set one behind another from `base` on. -/
def Tab.lanes (t : Tab Nat) (base : Nat) (f : Nat → Nat) (n : Nat) : Tab Nat :=
  (List.range n).foldl (fun t l => Tab.set t 0 (base + l) (f l)) t

theorem Tab.get_lanes {t : Tab Nat} (ht : Tab.rising 0 t = true) (base : Nat) (f : Nat → Nat) (n : Nat) :
    Tab.rising 0 (t.lanes base f n) = true ∧ ∀ k, Tab.get (t.lanes base f n) 0 k =
      if base ≤ k ∧ k < base + n then f (k - base) else Tab.get t 0 k := by
  induction n with
  | zero => exact ⟨ht, fun k => (if_neg (by omega)).symm⟩
  | succ n ih =>
    obtain ⟨hrising, hget⟩ := ih
    have hsucc : t.lanes base f (n + 1) = Tab.set (t.lanes base f n) 0 (base + n) (f n) := by
      rw [Tab.lanes, List.range_succ, List.foldl_append]
      rfl
    rw [hsucc]
    refine ⟨Tab.rising_set hrising _ _ _, fun k => ?_⟩
    rw [Tab.get_set_of_rising 0 _ _ _ hrising, hget]
    by_cases hk : k = base + n
    · rw [if_pos hk, if_pos (by omega), hk, Nat.add_sub_cancel_left]
    · rw [if_neg hk]
      exact ite_congr (propext (by omega)) (fun _ => rfl) fun _ => rfl

/-! ### REF_FMA (R464 to R466) -/

/-- The value lane `l` takes from +0: one fma for each column. -/
def fmaLane (fmt : FloatFmt) (x y : Mem) (l : Nat) : Nat :=
  (List.range 64).foldl (fun v c => fma32 (fmt.decode (halfAt x (64 * c + l))) (fmt.decode (halfAt y c)) v) 0

/-- A bay whose RACCs went through `g`. -/
def Bay.mapRacc (x : Bay) (g : Tab Nat → Tab Nat) : Bay := { x with racc := g x.racc }

theorem Bay.SameUnits.mapRacc {x y : Bay} (h : x.SameUnits y) (g : Tab Nat → Tab Nat) : (x.mapRacc g).SameUnits (y.mapRacc g) :=
  ⟨h.t0, h.engines, congrArg g h.racc, h.sets, h.seq⟩

theorem Bay.mapRacc_past_t0 (x : Bay) (d : Due) (g : Tab Nat → Tab Nat) : ((x.past d).mapRacc g).t0 = x.t0 := rfl

theorem Bay.mapRacc_past_racc (x : Bay) (d : Due) (g : Tab Nat → Tab Nat) : ((x.past d).mapRacc g).racc = g x.racc := rfl

/-- A RACC whose lanes from `base` on hold `f`. -/
def raccLanes (base : Nat) (f : Nat → Nat) (t : Tab Nat) : Tab Nat := t.lanes base f 64

theorem opRefFma_of_ready {x y : Mem} (hclr : bit i.w 69 = true) (hx : s.readSlot i (i.ts 81) = (x, s))
    (hy : s.readSlot i (i.ts 74) = (y, s)) : ∃ reads, opRefFma i s =
      (s.modBay i.b fun z => z.mapRacc (raccLanes (64 * bits i.w 72 70) (fmaLane (refFmt (bits i.w 73 73)) x y))).result i
          (resRacc (bits i.w 72 70)) reads (readyAt .refFma i.w i.t) := by
  refine ⟨[i.ts 81, i.ts 74], ?_⟩
  have hzip (f : Nat → Nat) (t : Tab Nat) (base : Nat) :
      ((List.range 64).zip ((List.range 64).map f)).foldl (fun t p => Tab.set t 0 (base + p.1) p.2) t = t.lanes base f 64 := by
    rw [show (List.range 64).zip ((List.range 64).map f) = (List.range 64).map fun l => (l, f l) by
      simpa using List.zip_map' (f := id) (g := f) (l := List.range 64), List.foldl_map]
    rfl
  unfold opRefFma
  dsimp only
  rw [hx]
  dsimp only
  rw [hy]
  simp only [hclr, Bool.not_true, Bool.false_and, Bool.false_eq_true, if_false, if_true, hzip]
  rfl

theorem refFmaClause (hinv : Inv s) (h : Issues s b .refFma d) (hclr : bit d.w 69 = true)
    (hx : SlotReady s b ((s.issueOf d).ts 81) d.t) (hy : SlotReady s b ((s.issueOf d).ts 74) d.t) :
    ∃ t, exec (.refFma b) s = .next t ∧ Passed s t b d ∧ UnitFrame s t b ∧ (t.bay b).t0 = (s.bay b).t0 ∧
      ∀ n, Tab.get (t.bay b).racc 0 n = if 64 * bits d.w 72 70 ≤ n ∧ n < 64 * bits d.w 72 70 + 64 then
        fmaLane (refFmt (bits d.w 73 73)) ((s.bay b).frame ((s.issueOf d).ts 81)) ((s.bay b).frame ((s.issueOf d).ts 74))
          (n - 64 * bits d.w 72 70) else Tab.get (s.bay b).racc 0 n := by
  have hfalls := falls_of_issues h
  have hb := hfalls.issueOf.1
  obtain ⟨reads, hop⟩ := opRefFma_of_ready hclr (hfalls.readSlot hx) (hfalls.readSlot hy)
  have heq : refFma b s = _ := (issueUnit_of_issues h opRefFma).trans hop
  rw [show (s.issueOf d).w = d.w from rfl] at heq
  generalize fmaLane (refFmt (bits d.w 73 73)) ((s.bay b).frame ((s.issueOf d).ts 81))
    ((s.bay b).frame ((s.issueOf d).ts 74)) = f at heq ⊢
  have hafter := (hfalls.stands.modBay (i := s.issueOf d) hb
    (f := fun z => z.mapRacc (raccLanes (64 * bits d.w 72 70) f)) fun hx => hx.mapRacc _).result
        (i := s.issueOf d) hb (resRacc (bits d.w 72 70)) reads (readyAt .refFma d.w (s.issueOf d).t)
  obtain ⟨t, heq, hafter⟩ : ∃ t, refFma b s = t ∧ s.Stands b _ t := ⟨_, heq, hafter⟩
  have hget := (Tab.get_lanes ((s.canonical_iff.2 hinv).bay b).racc (64 * bits d.w 72 70) f 64).2
  refine ⟨t, congrArg Host.Outcome.next heq, hafter.passed hfalls rfl, hafter.unit,
    hafter.units.t0.trans (Bay.mapRacc_past_t0 _ _ _), fun n => ?_⟩
  rw [hafter.units.racc, Bay.mapRacc_past_racc]
  exact hget n

/-! ### REF_CAST (R467) -/

/-- The value a lane of a RACC is written as. -/
def castLane (fmt : FloatFmt) (racc : Tab Nat) (r l : Nat) : Nat := fmt.encode (fp32.decode (Tab.get racc 0 (64 * r + l)))

theorem opRefCast_of_settled (hearly : s.early i.b (resRacc (bits i.w 87 85)) i.t = false) : ∃ reads spans, opRefCast i s =
    s.writeSlot i (i.ts 78) reads (readyAt .refCast i.w i.t) spans (((s.bay i.b).frame (i.ts 78)).elements 256 2
      (castLane (refFmt (bits i.w 77 77)) (s.bay i.b).racc (bits i.w 87 85)) 64) := by
  refine ⟨[resRacc (bits i.w 87 85)], [(payloadBase, 128)], ?_⟩
  unfold opRefCast
  simp only [hearly, Bool.false_eq_true, if_false]
  rfl

theorem refCastClause (hinv : Inv s) (h : Issues s b .refCast d) (hsettled : Settled s b (resRacc (bits d.w 87 85)) d.t) :
    ∃ t, exec (.refCast b) s = .next t ∧ Passed s t b d ∧ UnitFrame s t b ∧ (t.bay b).racc = (s.bay b).racc ∧
      (∀ l, l < 64 → Mem.readLe ((t.bay b).frame ((s.issueOf d).ts 78)) (256 + 2 * l) 2 =
        castLane (refFmt (bits d.w 77 77)) (s.bay b).racc (bits d.w 87 85) l % 65536) ∧
      (∀ a, a < 256 ∨ 384 ≤ a → Mem.read ((t.bay b).frame ((s.issueOf d).ts 78)) a =
        Mem.read ((s.bay b).frame ((s.issueOf d).ts 78)) a) := by
  have hfalls := falls_of_issues h
  have hb := hfalls.issueOf.1
  have hearly : (s.advance d).early (s.issueOf d).b (resRacc (bits d.w 87 85)) (s.issueOf d).t = false := by
    rw [hb, hfalls.early]
    exact hsettled
  obtain ⟨reads, spans, hop⟩ := opRefCast_of_settled hearly
  have hracc : ((s.advance d).bay (s.issueOf d).b).racc = (s.bay b).racc := by
    rw [hb]
    exact hfalls.stands.units.racc
  have heq : refCast b s = _ := (issueUnit_of_issues h opRefCast).trans hop
  rw [hfalls.slot, hracc, show (s.issueOf d).w = d.w from rfl] at heq
  generalize castLane (refFmt (bits d.w 77 77)) (s.bay b).racc (bits d.w 87 85) = f at heq ⊢
  have hds := Bay.frame_wf (Inv.t0 hinv b) ((s.issueOf d).ts 78)
  have hwf := Mem.elements_wf hds 256 2 f 64
  have hafter := hfalls.stands.writeSlot hb ((s.issueOf d).ts 78) reads (readyAt .refCast d.w d.t) spans
    (((s.bay b).frame ((s.issueOf d).ts 78)).elements 256 2 f 64)
  obtain ⟨t, heq, hafter⟩ : ∃ t, refCast b s = t ∧ s.Stands b _ t := ⟨_, heq, hafter⟩
  have hslot := (hafter.frame_setLeaf hinv rfl hwf ((s.issueOf d).ts 78)).trans (if_pos rfl)
  refine ⟨t, congrArg Host.Outcome.next heq, hafter.passed hfalls rfl, hafter.unit, hafter.units.racc, fun l hl => ?_,
    fun a ha => ?_⟩
  · rw [hslot, Mem.readLe_frame hwf (by unfold leafBytes; omega)]
    exact Mem.readLe_elements hds 256 2 f hl
  · rw [hslot]
    exact Bay.read_frame_frame (Inv.t0 hinv b) hwf (Mem.read_elements hds f (by omega))

end Sys2Proof.Machine
end

section
/-! PROOFS. REF_TOPK: the order of scores, and the indices it chooses (09, R468 to R470). -/

namespace Sys2Proof.Machine

variable {s t u : State} {b : BayNum} {d : Due} {k : Kind} {i : Issue} {score : Nat → Num}

/-! ### The order of scores (R469) -/

theorem pow2_sub {x e : Int} (h : e ≤ x) : ((pow2 (x - e) : Nat) : ℚ) * 2 ^ e = 2 ^ x := by
  rw [pow2, Nat.cast_pow, Nat.cast_ofNat, ← zpow_natCast, Int.toNat_of_nonneg (by omega), ← zpow_add₀ (by norm_num)]
  congr 1
  omega

/-- Two dyadics compare as the rationals they stand for. -/
theorem dyLt_iff (s1 e1 s2 e2 : Int) : dyLt s1 e1 s2 e2 = true ↔ (s1 : ℚ) * 2 ^ e1 < s2 * 2 ^ e2 := by
  have hpos : (0 : ℚ) < 2 ^ min e1 e2 := zpow_pos (by norm_num) _
  rw [dyLt, decide_eq_true_eq, ← Int.cast_lt (R := ℚ), ← mul_lt_mul_iff_left₀ hpos]
  push_cast
  rw [mul_assoc, mul_assoc, pow2_sub (min_le_left e1 e2), pow2_sub (min_le_right e1 e2)]

theorem dyLt_trans {s1 e1 s2 e2 s3 e3 : Int} (h : dyLt s1 e1 s2 e2 = true) (h' : dyLt s2 e2 s3 e3 = true) :
    dyLt s1 e1 s3 e3 = true := by
  rw [dyLt_iff] at h h' ⊢
  exact h.trans h'

theorem dyLt_irrefl (x e : Int) : dyLt x e x e = false := by simp [dyLt]

theorem ranksAbove_irrefl (x : Num) : ranksAbove x x = false := by
  cases x with
  | nan => rfl
  | inf n => cases n <;> rfl
  | fin n m e => exact dyLt_irrefl _ _

theorem ranksAbove_trans {x y z : Num} (h : ranksAbove x y = true) (h' : ranksAbove y z = true) : ranksAbove x z = true := by
  cases x with
  | nan => cases h
  | inf n =>
    cases y with
    | nan => cases h'
    | inf m =>
      cases z <;> simp_all [ranksAbove]
    | fin =>
      cases z <;> simp_all [ranksAbove]
  | fin =>
    cases y with
    | nan => cases h'
    | inf m => cases z <;> simp_all [ranksAbove]
    | fin =>
      cases z with
      | nan => rfl
      | inf l => exact h'
      | fin => exact dyLt_trans h' h

/-! ### The best of a list -/

/-- Of two indices, the one with the better score; the first of equals. -/
def better (score : Nat → Num) (o : Option Nat) (j : Nat) : Option Nat :=
  match o with
  | none => some j
  | some m => if ranksAbove (score j) (score m) then some j else some m

theorem foldl_better {m : Nat} (l : List Nat) : ∃ m', l.foldl (better score) (some m) = some m' ∧
    (m' = m ∨ m' ∈ l ∧ ranksAbove (score m') (score m) = true) ∧
    ∀ j, j = m ∨ j ∈ l → ranksAbove (score j) (score m') = false := by
  induction l generalizing m with
  | nil =>
    refine ⟨m, rfl, .inl rfl, fun j hj => ?_⟩
    rcases hj with rfl | hj
    · exact ranksAbove_irrefl _
    · cases hj
  | cons x l ih =>
    rw [List.foldl_cons, better]
    by_cases hx : ranksAbove (score x) (score m) = true
    · obtain ⟨m', heq, hmem, hbest⟩ := ih (m := x)
      have habove : ranksAbove (score m') (score m) = true := by
        rcases hmem with rfl | ⟨-, hab⟩
        · exact hx
        · exact ranksAbove_trans hab hx
      refine ⟨m', by rw [if_pos hx, heq], .inr ⟨List.mem_cons.2 (hmem.imp_right And.left), habove⟩, fun j hj => ?_⟩
      rcases hj with rfl | hj
      · by_contra hab
        have := ranksAbove_trans hx (eq_true_of_ne_false hab)
        rw [hbest x (.inl rfl)] at this
        cases this
      · exact hbest j (List.mem_cons.1 hj)
    · obtain ⟨m', heq, hmem, hbest⟩ := ih (m := m)
      refine ⟨m', by rw [if_neg hx, heq], hmem.imp_right fun h => ⟨List.mem_cons_of_mem x h.1, h.2⟩, fun j hj => ?_⟩
      rcases hj with rfl | hj
      · exact hbest _ (.inl rfl)
      · rcases List.mem_cons.1 hj with rfl | hj
        · by_contra hab
          rcases hmem with rfl | ⟨-, habove⟩
          · exact hx (eq_true_of_ne_false hab)
          · exact hx (ranksAbove_trans (eq_true_of_ne_false hab) habove)
        · exact hbest j (.inr hj)

theorem topIndices_succ (score : Nat → Num) (k : Nat) (l : List Nat) : topIndices score (k + 1) l =
    match l.foldl (better score) none with
    | none => []
    | some m => m :: topIndices score k (l.filter fun j => j != m) := rfl

/-- The chosen indices: as many as asked for, of the list, without repetition, and none outranked by one left out. -/
theorem topIndices_spec (score : Nat → Num) (k : Nat) : ∀ l : List Nat, l.Nodup → k ≤ l.length →
    (topIndices score k l).length = k ∧ (topIndices score k l).Nodup ∧ (∀ j ∈ topIndices score k l, j ∈ l) ∧
    ∀ j ∈ topIndices score k l, ∀ m ∈ l, m ∉ topIndices score k l → ranksAbove (score m) (score j) = false := by
  induction k with
  | zero =>
    exact fun l _ _ => ⟨rfl, List.nodup_nil, fun _ hj => (List.not_mem_nil hj).elim, fun _ hj => (List.not_mem_nil hj).elim⟩
  | succ k ih =>
    intro l hl hk
    cases l with
    | nil => simp at hk
    | cons x l =>
      obtain ⟨m, heq, hmem, hbest⟩ := foldl_better (score := score) (m := x) l
      have hm : m ∈ x :: l := List.mem_cons.2 (hmem.imp_right And.left)
      have htop : topIndices score (k + 1) (x :: l) = m :: topIndices score k ((x :: l).filter fun j => j != m) := by
        rw [topIndices_succ, show (x :: l).foldl (better score) none = some m from heq]
      have hfilter : (x :: l).filter (fun j => j != m) = (x :: l).erase m := (hl.erase_eq_filter m).symm
      have hlen : ((x :: l).erase m).length = (x :: l).length - 1 := List.length_erase_of_mem hm
      rw [htop, hfilter]
      obtain ⟨hlength, hnodup, hin, habove⟩ := ih ((x :: l).erase m) (hl.erase m) (by omega)
      refine ⟨by rw [List.length_cons, hlength], List.nodup_cons.2 ⟨fun h => ?_, hnodup⟩, fun j hj => ?_,
        fun j hj n hn hnot => ?_⟩
      · exact ((hl.mem_erase_iff).1 (hin m h)).1 rfl
      · rcases List.mem_cons.1 hj with rfl | hj
        · exact hm
        · exact List.mem_of_mem_erase (hin j hj)
      · obtain ⟨hne, hnot⟩ := not_or.1 (mt List.mem_cons.2 hnot)
        rcases List.mem_cons.1 hj with rfl | hj
        · exact hbest n (List.mem_cons.1 hn)
        · exact habove j hj n ((hl.mem_erase_iff).2 ⟨hne, hn⟩) hnot

/-! ### Decision registers -/

theorem State.writeDreg_due (s : State) (reg v : Nat) (reads : List Nat) (ready : Nat) :
    (∃ e ∈ ((s.writeDreg i reg v reads ready).bay i.b).dregDue, e.reg = reg ∧ e.value = v ∧ e.ready = ready) ∧
    ∀ e ∈ (s.bay i.b).dregDue, e ∈ ((s.writeDreg i reg v reads ready).bay i.b).dregDue := by
  obtain ⟨tag, heq⟩ := s.writeDreg_eq i reg v reads ready
  rw [heq, State.setBay_bay]
  exact ⟨⟨_, List.mem_append_right _ (List.mem_singleton_self _), rfl, rfl, rfl⟩, fun e he => List.mem_append_left _ he⟩

/-- Registers written one after another. -/
def State.writeDregs (s : State) (i : Issue) (reg v : Nat → Nat) (reads : List Nat) (ready n : Nat) : State :=
  (List.range n).foldl (fun s j => s.writeDreg i (reg j) (v j) reads ready) s

theorem State.writeDregs_due (s : State) (reg v : Nat → Nat) (reads : List Nat) (ready n : Nat) : ∀ j, j < n →
    ∃ e ∈ ((s.writeDregs i reg v reads ready n).bay i.b).dregDue, e.reg = reg j ∧ e.value = v j ∧ e.ready = ready := by
  induction n with
  | zero => exact fun j hj => absurd hj (Nat.not_lt_zero j)
  | succ n ih =>
    intro j hj
    rw [State.writeDregs, List.range_succ, List.foldl_append]
    obtain ⟨hnew, hold⟩ := State.writeDreg_due (i := i) (s.writeDregs i reg v reads ready n) (reg n) (v n) reads ready
    by_cases hjn : j = n
    · rw [hjn]
      exact hnew
    · obtain ⟨e, he, hreg⟩ := ih j (by omega)
      exact ⟨e, hold e he, hreg⟩

theorem State.Stands.writeDregs {x : Bay} (h : s.Stands b x t) (hb : i.b = b) (reg v : Nat → Nat) (reads : List Nat)
    (ready n : Nat) : s.Stands b x (t.writeDregs i reg v reads ready n) :=
  List.foldlRecOn (motive := fun t => s.Stands b x t) _ _ h fun _ ht _ _ => ht.writeDreg hb _ _ _ _

theorem Bay.SameUnits.settleDregs {x y : Bay} (h : x.SameUnits y) (t : Nat) : x.SameUnits (y.settleDregs t) := by
  obtain ⟨tags, dregs, due, heq⟩ := y.settleDregs_eq t
  rw [heq]
  exact ⟨h.t0, h.engines, h.racc, h.sets, h.seq⟩

/-! ### REF_TOPK (R468 to R470) -/

theorem opRefTopk_of_ready {x : Mem} (hpen : bit i.w 69 = false) (hx : s.readSlot i (i.ts 81) = (x, s)) :
    let top := topIndices (fun j => bf16.decode (halfAt x j)) (bits i.w 80 77) (List.range 64)
    opRefTopk i s = (s.modBay i.b fun z => z.settleDregs i.t).writeDregs i resRefDreg (fun j => top.getD j 0xFFFFFFFF)
      [i.ts 81] (readyAt .refTopk i.w i.t) 8 := by
  intro top
  unfold opRefTopk
  dsimp only
  rw [hx]
  simp only [hpen, Bool.false_eq_true, if_false]
  rfl

theorem refTopkClause (h : Issues s b .refTopk d) (hpen : bit d.w 69 = false)
    (hx : SlotReady s b ((s.issueOf d).ts 81) d.t) :
    let top := topIndices (fun j => bf16.decode (halfAt ((s.bay b).frame ((s.issueOf d).ts 81)) j)) (bits d.w 80 77)
      (List.range 64)
    ∃ t, exec (.refTopk b) s = .next t ∧ Passed s t b d ∧ UnitFrame s t b ∧ (t.bay b).t0 = (s.bay b).t0 ∧
      ∀ j, j < 8 → ∃ e ∈ (t.bay b).dregDue, e.reg = resRefDreg j ∧ e.value = top.getD j 0xFFFFFFFF ∧ e.ready = d.t + 68 := by
  intro top
  have hfalls := falls_of_issues h
  have hb := hfalls.issueOf.1
  have heq : refTopk b s = _ := (issueUnit_of_issues h opRefTopk).trans (opRefTopk_of_ready hpen (hfalls.readSlot hx))
  have hready : readyAt .refTopk (s.issueOf d).w (s.issueOf d).t = d.t + 68 := rfl
  rw [hready] at heq
  have hsettled := hfalls.stands.modBay (i := s.issueOf d) hb (f := fun z => z.settleDregs (s.issueOf d).t) fun hx =>
    hx.settleDregs (s.issueOf d).t
  have hafter := hsettled.writeDregs hb resRefDreg (fun j => top.getD j 0xFFFFFFFF) [(s.issueOf d).ts 81] (d.t + 68) 8
  have hdue := State.writeDregs_due (i := s.issueOf d) ((s.advance d).modBay (s.issueOf d).b fun z =>
    z.settleDregs (s.issueOf d).t) resRefDreg (fun j => top.getD j 0xFFFFFFFF) [(s.issueOf d).ts 81] (d.t + 68) 8
  obtain ⟨t, heq, hafter, hdue⟩ : ∃ t, refTopk b s = t ∧ s.Stands b _ t ∧ ∀ j, j < 8 →
      ∃ e ∈ (t.bay (s.issueOf d).b).dregDue, e.reg = resRefDreg j ∧ e.value = top.getD j 0xFFFFFFFF ∧ e.ready = d.t + 68 :=
    ⟨_, heq, hafter, hdue⟩
  rw [hb] at hdue
  exact ⟨_, congrArg Host.Outcome.next heq, hafter.passed hfalls rfl, hafter.unit, hafter.units.t0, hdue⟩

/-- Lane by lane, a cast, and the best of the scores. -/
theorem referenceUnitClause : ReferenceUnitClause := by
  intro s b d hinv i el frame
  refine ⟨fun h hclr hx hy => ?_, fun h hsettled => refCastClause hinv h hsettled, ?_⟩
  · obtain ⟨t, heq, hpassed, hunit, ht0, hracc⟩ := refFmaClause hinv h hclr hx hy
    refine ⟨t, heq, hpassed, hunit, ht0, fun l hl => ?_, fun n hn => (hracc n).trans (if_neg (by omega))⟩
    rw [hracc, if_pos (by omega), Nat.add_sub_cancel_left]
    rfl
  · intro h hpen hx k score hlo hhi
    obtain ⟨t, heq, hpassed, hunit, ht0, hdue⟩ := refTopkClause h hpen hx
    obtain ⟨hlength, hnodup, hin, habove⟩ := topIndices_spec score k (List.range 64) List.nodup_range
      (by rw [List.length_range]; omega)
    exact ⟨t, _, heq, hpassed, hunit, ht0, hlength, hnodup, fun j hj => List.mem_range.1 (hin j hj),
      fun j hj m hm => habove j hj m (List.mem_range.2 hm), hdue⟩

end Sys2Proof.Machine
end

section
/-! PROOFS. The converter's statistics sets and CONV_PASS1 (10, R502, R503). -/

namespace Sys2Proof.Machine

variable {s t u : State} {b : BayNum} {d : Due} {k : Kind} {i : Issue} {n : Fin 4} {x : StatSet} {y z : Bay}

/-! ### Statistics sets -/

/-- A bay whose statistics set `n` is `x`. -/
def Bay.withSet (y : Bay) (n : Fin 4) (x : StatSet) : Bay := { y with sets := y.sets.set n.val x n.isLt }

theorem Bay.SameUnits.withSet (h : y.SameUnits z) (n : Fin 4) (x : StatSet) : (y.withSet n x).SameUnits (z.withSet n x) :=
  ⟨h.t0, h.engines, h.racc, congrArg (fun v => Vector.set v n.val x n.isLt) h.sets, h.seq⟩

theorem Bay.withSet_t0 (y : Bay) (n : Fin 4) (x : StatSet) : (y.withSet n x).t0 = y.t0 := rfl

theorem Bay.withSet_seq (y : Bay) (n : Fin 4) (x : StatSet) : (y.withSet n x).seq = y.seq := rfl

theorem Bay.withSet_get_self (y : Bay) (n : Fin 4) (x : StatSet) : (y.withSet n x).sets.get n = x := vec_get_set_same _ n x

theorem Bay.withSet_get_ne (y : Bay) {n m : Fin 4} (h : m ≠ n) (x : StatSet) : (y.withSet n x).sets.get m = y.sets.get m :=
  vec_get_set_ne _ x h

theorem Bay.past_t0 (y : Bay) (d : Due) : (y.past d).t0 = y.t0 := rfl

theorem Bay.past_sets (y : Bay) (d : Due) : (y.past d).sets = y.sets := rfl

theorem State.Falls.statSet (h : s.Falls b d) (n : Fin 4) : (s.advance d).statSet (s.issueOf d) n = (s.bay b).sets.get n := by
  rw [State.statSet, h.issueOf.1, h.stands.units.sets, Bay.past_sets]

/-! ### Finite elements (R502) -/

theorem decode_finite {v : Nat} (h : bits v 14 7 ≠ 0xFF) : ∃ neg m e, bf16.decode v = .fin neg m e := by
  have hlt : v % 0x8000 < 0x7F80 := by
    unfold bits at h
    norm_num at h
    omega
  by_cases hsub : v % 0x8000 < 128
  · exact ⟨_, _, _, (if_neg (show ¬ 0x7F80 < v % 0x8000 by omega)).trans
      ((if_neg (show ¬ v % 0x8000 = 0x7F80 by omega)).trans (if_pos hsub))⟩
  · exact ⟨_, _, _, (if_neg (show ¬ 0x7F80 < v % 0x8000 by omega)).trans
      ((if_neg (show ¬ v % 0x8000 = 0x7F80 by omega)).trans (if_neg hsub))⟩

/-- What CONV_PASS1 does with the element `v` at place `k`. -/
def StatSet.count (x : StatSet) (k v : Nat) : StatSet :=
  match bf16.decode v with
  | .fin _ m e =>
    let y := x.raise (StatSet.block k) (bfMag v)
    { y with count1 := u32Add y.count1 1, sumSq := addDyadic32 y.sumSq ((m * m : Nat) : Int) (2 * e) }
  | _ => { x with nonfinite := u32Add x.nonfinite 1 }

theorem StatSet.count_finite (x : StatSet) (k : Nat) {v : Nat} (h : bits v 14 7 ≠ 0xFF) :
    (x.count k v).count1 = min (x.count1 + 1) 0xFFFFFFFF ∧ (x.count k v).nonfinite = x.nonfinite ∧
      (x.count k v).pos = x.pos := by
  obtain ⟨neg, m, e, hdecode⟩ := decode_finite h
  rw [StatSet.count, hdecode]
  exact ⟨rfl, rfl, rfl⟩

/-- A count that saturates at each step has saturated once. -/
theorem min_add_one (c n top : Nat) : min (min (c + n) top + 1) top = min (c + (n + 1)) top := by omega

theorem StatSet.count_elements (v : Nat → Nat) (x : StatSet) {n : Nat} (hn : 0 < n)
    (h : ∀ k, k < n → bits (v k) 14 7 ≠ 0xFF) :
    ((List.range n).foldl (fun x k => x.count k (v k)) x).count1 = min (x.count1 + n) 0xFFFFFFFF ∧
      ((List.range n).foldl (fun x k => x.count k (v k)) x).nonfinite = x.nonfinite ∧
      ((List.range n).foldl (fun x k => x.count k (v k)) x).pos = x.pos := by
  induction n, hn using Nat.le_induction with
  | base => exact x.count_finite 0 (h 0 (by decide))
  | succ n hn ih =>
    obtain ⟨hcount, hnon, hpos⟩ := ih fun k hk => h k (by omega)
    rw [List.range_succ, List.foldl_append]
    generalize (List.range n).foldl (fun x k => x.count k (v k)) x = y at hcount hnon hpos
    obtain ⟨hcount', hnon', hpos'⟩ := y.count_finite n (h n (by omega))
    refine ⟨?_, hnon'.trans hnon, hpos'.trans hpos⟩
    rw [List.foldl_cons, List.foldl_nil, hcount', hcount, min_add_one]

theorem StatSet.clearMax_counts (x : StatSet) : x.clearMax.count1 = x.count1 ∧ x.clearMax.nonfinite = x.nonfinite ∧
    x.clearMax.pos = x.pos := by
  unfold StatSet.clearMax
  split <;> exact ⟨rfl, rfl, rfl⟩

/-! ### CONV_PASS1 (R502, R503) -/

/-- The set after CONV_PASS1 of the frame `f`. -/
def StatSet.passOne (x : StatSet) (f : Mem) : StatSet :=
  { (List.range 4096).foldl (fun x k => x.count k (halfAt f k)) x.clearMax with lastOp := .pass1 }

theorem StatSet.passOne_finite (x : StatSet) {f : Mem} (h : ∀ k, k < 4096 → bits (halfAt f k) 14 7 ≠ 0xFF) :
    (x.passOne f).count1 = min (x.count1 + 4096) 0xFFFFFFFF ∧ (x.passOne f).nonfinite = x.nonfinite ∧
      (x.passOne f).pos = x.pos := by
  obtain ⟨hcount, hnon, hpos⟩ := StatSet.count_elements (halfAt f) x.clearMax (by decide : 0 < 4096) h
  obtain ⟨hcount', hnon', hpos'⟩ := x.clearMax_counts
  rw [hcount'] at hcount
  unfold StatSet.passOne
  generalize (List.range 4096).foldl (fun x k => x.count k (halfAt f k)) x.clearMax = y at hcount hnon hpos ⊢
  exact ⟨hcount, hnon.trans hnon', hpos.trans hpos'⟩

theorem opConvPass1_of_ready {f : Mem} (hf : s.readSlot i (i.ts 81) = (f, s)) : ∃ reads, opConvPass1 i s =
    (s.modBay i.b fun y => y.withSet (i.set 79) ((s.statSet i (i.set 79)).passOne f)).result i (resSet (i.set 79).val)
      reads 0 := by
  refine ⟨[i.ts 81, resSet (i.set 79).val], ?_⟩
  unfold opConvPass1
  dsimp only
  rw [hf]
  rfl

theorem convPass1Clause (h : Issues s b .convPass1 d) (hf : SlotReady s b ((s.issueOf d).ts 81) d.t)
    (hfinite : ∀ k, k < 4096 → bits (halfAt ((s.bay b).frame ((s.issueOf d).ts 81)) k) 14 7 ≠ 0xFF) :
    let n := (s.issueOf d).set 79
    ∃ t, exec (.convPass1 b) s = .next t ∧ Passed s t b d ∧ UnitFrame s t b ∧ (t.bay b).t0 = (s.bay b).t0 ∧
      ((t.bay b).sets.get n).count1 = min (((s.bay b).sets.get n).count1 + 4096) 0xFFFFFFFF ∧
      ((t.bay b).sets.get n).nonfinite = ((s.bay b).sets.get n).nonfinite ∧ ((t.bay b).sets.get n).lastOp = .pass1 ∧
      ((t.bay b).sets.get n).pos = ((s.bay b).sets.get n).pos ∧
      ∀ m, m ≠ n → (t.bay b).sets.get m = (s.bay b).sets.get m := by
  intro n
  have hfalls := falls_of_issues h
  have hb := hfalls.issueOf.1
  obtain ⟨reads, hop⟩ := opConvPass1_of_ready (hfalls.readSlot hf)
  rw [hfalls.statSet] at hop
  obtain ⟨hcount, hnon, hpos⟩ := ((s.bay b).sets.get n).passOne_finite hfinite
  have hlast : (((s.bay b).sets.get n).passOne ((s.bay b).frame ((s.issueOf d).ts 81))).lastOp = .pass1 := rfl
  have heq : convPass1 b s = _ := (issueUnit_of_issues h opConvPass1).trans hop
  generalize ((s.bay b).sets.get n).passOne ((s.bay b).frame ((s.issueOf d).ts 81)) = x at heq hcount hnon hpos hlast
  have hafter := (hfalls.stands.modBay (i := s.issueOf d) hb (f := fun y => y.withSet n x) fun hx =>
    hx.withSet n x).result (i := s.issueOf d) hb (resSet n.val) reads 0
  obtain ⟨t, heq, hafter⟩ : ∃ t, convPass1 b s = t ∧ s.Stands b _ t := ⟨_, heq, hafter⟩
  have hself : (t.bay b).sets.get n = x := by rw [hafter.units.sets, Bay.withSet_get_self]
  refine ⟨t, congrArg Host.Outcome.next heq, hafter.passed hfalls (Bay.withSet_seq _ _ _), hafter.unit,
    hafter.units.t0.trans ((Bay.withSet_t0 _ _ _).trans (Bay.past_t0 _ _)), ?_, ?_, ?_, ?_, fun m hm => ?_⟩
  · rw [hself, hcount]
  · rw [hself, hnon]
  · rw [hself, hlast]
  · rw [hself, hpos]
  · rw [hafter.units.sets, Bay.withSet_get_ne _ hm, Bay.past_sets]

end Sys2Proof.Machine
end

section
/-! PROOFS. A conversion under way: the parts of the frame and of the set that it leaves alone (10, R498 to R513). -/

namespace Sys2Proof.Machine

variable {s t u : State} {b : BayNum} {d : Due} {k : Kind} {i : Issue} {n : Fin 4} {x : StatSet} {y z : Bay} {m : Mem}
  {c c' : Conv}

/-! ### Frames -/

theorem Mem.read_clear (hm : Mem.wf m = true) (base len a : Nat) :
    Mem.read (Mem.clear m base len) a = if base ≤ a ∧ a < base + len then 0 else Mem.read m a := by
  have hfind : Tab.find (Mem.clear m base len) a = if base ≤ a ∧ a < base + len then none else Tab.find m a := by
    refine Option.ext fun v => ?_
    rw [Tab.find_eq_some_iff (Mem.clear_wf m base len hm), Mem.mem_clear _ _ _ _ hm]
    split
    · next ha => exact ⟨fun h => absurd ha h.1, fun h => by cases h⟩
    · next ha => rw [Tab.find_eq_some_iff hm, and_iff_right ha]
  unfold Mem.read Tab.get
  rw [hfind]
  split <;> rfl

theorem Mem.read_writeLe_ne (hm : Mem.wf m = true) {a n v j : Nat} (h : j < a ∨ a + n ≤ j) :
    Mem.read (Mem.writeLe m a n v) j = Mem.read m j := by
  rw [Mem.writeLe, Mem.read_writeL _ _ _ _ hm, natLe_length, if_neg (by omega)]

theorem Mem.read_write_ne (hm : Mem.wf m = true) {a j : Nat} (h : j ≠ a) (v : Byte) :
    Mem.read (Mem.write m a v) j = Mem.read m j := by
  rw [Mem.read_write m a j v hm, if_neg h]

theorem read_putField (hm : Mem.wf m = true) (fmt p code : Nat) {base j : Nat} (h : j < base) :
    Mem.read (putField fmt p code m base) j = Mem.read m j := by
  unfold putField
  split
  · exact Mem.read_write_ne hm (by omega) _
  · exact Mem.read_writeLe_ne hm (by omega)
  · exact Mem.read_writeLe_ne hm (by omega)
  · exact Mem.read_write_ne hm (by omega) _

/-! ### The elements of a conversion -/

/-- The header bytes that no element changes: all but ESC_COUNT, RESCUE_MAP and the side list. -/
def headerByte (a : Nat) : Prop := a < 128 ∧ a ≠ 5 ∧ a ≠ 32 ∧ a ≠ 33

/-- Elements converted one after another: POS waits for the end of the operation, and the header stays. -/
structure Conv.Elements (c c' : Conv) : Prop where
  pos : c'.set.pos = c.set.pos
  wf : Mem.wf c.ds = true → Mem.wf c'.ds = true
  header : Mem.wf c.ds = true → ∀ a, headerByte a → Mem.read c'.ds a = Mem.read c.ds a

namespace Conv.Elements

theorem refl (c : Conv) : c.Elements c := ⟨rfl, id, fun _ _ _ => rfl⟩

theorem trans {c'' : Conv} (h : c.Elements c') (h' : c'.Elements c'') : c.Elements c'' :=
  ⟨h'.pos.trans h.pos, fun hwf => h'.wf (h.wf hwf), fun hwf a ha => (h'.header (h.wf hwf) a ha).trans (h.header hwf a ha)⟩

theorem ofSame {c'' : Conv} (h : c.Elements c') (hpos : c''.set.pos = c'.set.pos) (hds : c''.ds = c'.ds) : c.Elements c'' :=
  ⟨hpos.trans h.pos, by rw [hds]; exact h.wf, by rw [hds]; exact h.header⟩

theorem put (h : c.Elements c') (fmt p code : Nat) : c.Elements (c'.put fmt p code) :=
  h.trans ⟨rfl, fun hwf => putField_wf hwf, fun hwf a ha => read_putField hwf _ _ _ (by
    have := ha.1
    unfold payloadBase
    omega)⟩

theorem err (h : c.Elements c') (sig e lv sc : Int) : c.Elements (c'.err sig e lv sc) := h.ofSame rfl rfl

theorem sat (h : c.Elements c') : c.Elements c'.sat := h.ofSame rfl rfl

theorem flag (h : c.Elements c') (b : Nat) : c.Elements (c'.flag b) :=
  h.trans ⟨rfl, fun hwf => Mem.writeLe_wf hwf, fun hwf a ha => Mem.read_writeLe_ne hwf (by
    obtain ⟨-, -, h32, h33⟩ := ha
    omega)⟩

theorem note (h : c.Elements c') (raise : Bool) (b m : Nat) : c.Elements
    (if raise then { c' with set := c'.set.raise b m }
      else { c' with set := { c'.set with allMax := Nat.max c'.set.allMax m } }) := by
  split
  · exact h.ofSame rfl rfl
  · exact h.ofSame rfl rfl

/-- An entry of the side list. -/
theorem escape (h : c.Elements c') (v : Byte) (j entry : Nat) {y : StatSet} (hy : y.pos = c'.set.pos) :
    c.Elements { c' with ds := Mem.writeLe (Mem.write c'.ds 5 v) (128 + 4 * j) 4 entry, set := y } :=
  h.trans ⟨hy, fun hwf => Mem.writeLe_wf (Mem.write_wf _ _ _ hwf), fun hwf a ha => by
    obtain ⟨hlt, h5, -, -⟩ := ha
    rw [Mem.read_writeLe_ne (Mem.write_wf _ _ _ hwf) (.inl (by omega)), Mem.read_write_ne hwf h5]⟩

theorem ite {p : Prop} [Decidable p] {c1 c2 : Conv} (h1 : c.Elements c1) (h2 : c.Elements c2) :
    c.Elements (if p then c1 else c2) := ite_of (p := fun c' => c.Elements c') h1 h2

theorem element (h : c.Elements c') (fmt : Nat) (raise : Bool) (k v : Nat) : c.Elements (convElement fmt raise c' k v) := by
  unfold convElement
  extract_lets _ b _ _ _ _ c0 c1 _ _ _ _ c2
  have h0 : c.Elements c0 := h.ofSame rfl rfl
  have h1 : c.Elements c1 := h.note raise b _
  have h2 : c.Elements c2 := h1.escape _ _ _ rfl
  clear_value c0 c1 c2
  split
  · exact h
  · split
    · exact (h.put _ _ _).ofSame rfl rfl
    · exact (h0.put _ _ _).sat
    · extract_lets
      split
      · exact ite ((h1.put _ _ _).err _ _ _ _) ((h1.put _ _ _).err _ _ _ _).sat
      · extract_lets
        exact ite (ite (h2.put _ _ _) (ite (((h1.put _ _ _).err _ _ _ _).sat.flag _) ((h1.put _ _ _).err _ _ _ _).sat))
          ((h1.put _ _ _).err _ _ _ _)

theorem all (c : Conv) (fmt n : Nat) (raise : Bool) (v : Nat → Nat) :
    c.Elements ((List.range n).foldl (fun c k => convElement fmt raise c k (v k)) c) :=
  List.foldlRecOn (motive := fun c' => c.Elements c') _ _ (refl c) fun _ h k _ => h.element fmt raise k (v k)

end Conv.Elements

/-! ### The header of a leaf's first slot (R505) -/

/-- The scale bytes. -/
theorem read_scales (hm : Mem.wf m = true) (g : Nat → Byte) {a : Nat} (n : Nat) (h : a < 16 ∨ 16 + n ≤ a) :
    Mem.wf ((List.range n).foldl (fun m b => Mem.write m (16 + b) (g b)) m) = true ∧
      Mem.read ((List.range n).foldl (fun m b => Mem.write m (16 + b) (g b)) m) a = Mem.read m a := by
  induction n with
  | zero => exact ⟨hm, rfl⟩
  | succ n ih =>
    obtain ⟨hwf, hread⟩ := ih (by omega)
    rw [List.range_succ, List.foldl_append]
    exact ⟨Mem.write_wf _ _ _ hwf, (Mem.read_write_ne hwf (by omega) _).trans hread⟩

/-- The bytes of the header, but for scales and RESCUE_MAP. -/
theorem read_convHeader (hm : Mem.wf m = true) (fmt lflags map : Nat) (scale : Tab Nat) {a : Nat}
    (h : a < 16 ∨ 34 ≤ a ∧ a < 256) : Mem.read (convHeader fmt lflags map scale m) a =
      if 34 ≤ a ∨ a = 7 then 0
      else if a < 6 then [1, BitVec.ofNat 8 (fmtFormat fmt), 0, 0, BitVec.ofNat 8 lflags, 0].getD a 0
      else Mem.read m a := by
  have hfirst : Mem.wf (Mem.writeL m 0 [1, BitVec.ofNat 8 (fmtFormat fmt), 0, 0, BitVec.ofNat 8 lflags, 0]) = true :=
    Mem.writeL_wf _ _ _ hm
  have hsecond := Mem.write_wf _ 7 0 hfirst
  have hscales : Mem.wf ((List.range 16).foldl (fun m b => Mem.write m (16 + b) (BitVec.ofNat 8 (Tab.get scale 0 b)))
      (Mem.write (Mem.writeL m 0 [1, BitVec.ofNat 8 (fmtFormat fmt), 0, 0, BitVec.ofNat 8 lflags, 0]) 7 0)) = true :=
    scales_wf hsecond
  rw [convHeader]
  rw [Mem.read_writeLe_ne (Mem.clear_wf _ _ _ hscales) (by omega), Mem.read_clear hscales]
  by_cases hhigh : 34 ≤ a
  · rw [if_pos (by omega), if_pos (.inl hhigh)]
  · rw [if_neg (by omega), (read_scales hsecond _ 16 (by omega)).2]
    by_cases h7 : a = 7
    · rw [if_pos (.inr h7), h7, Mem.read_write _ _ _ _ hfirst, if_pos rfl]
    · rw [if_neg (by omega), Mem.read_write_ne hfirst h7, Mem.read_writeL _ _ _ _ hm]
      simp only [List.length_cons, List.length_nil, Nat.zero_le, Nat.zero_add, true_and, Nat.sub_zero, Nat.reduceAdd]

/-! ### The end of an operation (R500) -/

theorem StatSet.advance_pos (x : StatSet) (fmt : Nat) : (x.advance fmt).1.lastOp = .conversion ∧
    (x.advance fmt).1.pos = if fmtCapacity fmt ≤ x.pos + 4096 then 0 else x.pos + 4096 := by
  unfold StatSet.advance
  dsimp only
  split <;> exact ⟨rfl, rfl⟩

theorem State.readSlot_fresh (s : State) (i : Issue) (n : Nat) : (s.readSlot i n).2 = s ∨ (s.readSlot i n).2 = s.fresh.2 := by
  unfold State.readSlot
  dsimp only
  split
  · exact .inl rfl
  · exact .inr rfl

theorem State.Stands.readSlot (h : s.Stands b y t) (i : Issue) (n : Nat) : s.Stands b y (t.readSlot i n).2 := by
  rcases t.readSlot_fresh i n with heq | heq <;> rw [heq]
  · exact h
  · exact h.fresh

/-- A bay with the frame `f` in slot `n`. -/
def Bay.withSlot (y : Bay) (n : Nat) (f : Mem) : Bay := { y with t0 := Mem.setLeaf y.t0 n f }

theorem Bay.withSlot_sets (y : Bay) (n : Nat) (f : Mem) : (y.withSlot n f).sets = y.sets := rfl

theorem Bay.withSlot_seq (y : Bay) (n : Nat) (f : Mem) : (y.withSlot n f).seq = y.seq := rfl

theorem Bay.withSlot_t0 (y : Bay) (n : Nat) (f : Mem) : (y.withSlot n f).t0 = Mem.setLeaf y.t0 n f := rfl

theorem Bay.SameUnits.setTag (h : y.SameUnits z) (n tag : Nat) : y.SameUnits (z.setTag n tag) :=
  ⟨h.t0, h.engines, h.racc, h.sets, h.seq⟩

/-- The registers settle, and the set is stored. -/
theorem Bay.SameUnits.settledSet (h : y.SameUnits z) (tm : Nat) (n : Fin 4) (x : StatSet) :
    (y.withSet n x).SameUnits { z.settleDregs tm with sets := z.sets.set n.val x n.isLt } := by
  obtain ⟨ht0, hengines, hracc, -, hseq⟩ := h.settleDregs tm
  exact ⟨ht0, hengines, hracc, congrArg (fun v => Vector.set v n.val x n.isLt) h.sets, hseq⟩

theorem State.Stands.convFinish (h : s.Stands b y t) (hb : i.b = b) (n : Fin 4) (kind : Kind) (ds : Nat) (reads : List Nat)
    (spans : List (Nat × Nat)) (c : Conv) (x : StatSet) :
    s.Stands b ((y.withSet n x).withSlot ds c.ds) (convFinish i n kind ds reads spans c x t) := by
  have hset : s.Stands b (y.withSet n x) (t.modBay i.b fun z =>
      { z.settleDregs i.t with sets := z.sets.set n.val x n.isLt }) := h.modBay hb fun hy => hy.settledSet i.t n x
  unfold Sys2Proof.Machine.convFinish
  dsimp only
  refine State.Stands.modBay (State.Stands.writeSlot (State.Stands.writeDreg (State.Stands.writeDreg hset hb _ _ _ _)
    hb _ _ _ _) hb ds _ _ spans c.ds) hb fun hy => ?_
  exact hy.setTag _ _


end Sys2Proof.Machine
end

section
/-! PROOFS. CONV_PASS2 and CONV_CARRY (10, R505 to R519). -/

namespace Sys2Proof.Machine

variable {s t u v : State} {b : BayNum} {d : Due} {k : Kind} {i : Issue} {n : Fin 4} {x : StatSet} {y z : Bay} {m : Mem}
  {c c' : Conv}

theorem Mem.readN_congr {m m' : Mem} {a n : Nat} (h : ∀ j, a ≤ j → j < a + n → Mem.read m j = Mem.read m' j) :
    Mem.readN m a n = Mem.readN m' a n := by
  refine List.ext_getElem (by rw [Mem.readN_length, Mem.readN_length]) fun j hj _ => ?_
  rw [Mem.readN_length] at hj
  rw [Mem.readN_getElem, Mem.readN_getElem, h _ (by omega) (by omega)]

/-! ### CONV_PASS2 (R505 to R511) -/

theorem opConvPass2_of_ready {f : Mem} (hf : s.readSlot i (i.ts 81) = (f, s)) (hpos : (s.statSet i (i.set 79)).pos = 0) :
    ∃ t c0 c spans scale, opConvPass2 i s = convFinish i (i.set 79) .convPass2 (i.ts 72) [i.ts 81] spans c
        (c.set.advance (bits i.w 71 69)).1 t ∧ (t = s ∨ t = s.fresh.2) ∧ Conv.Elements c0 c ∧ c0.set.pos = 0 ∧
      c0.ds = convHeader (bits i.w 71 69) 0 0 scale ((s.bay i.b).frame (i.ts 72)) := by
  unfold opConvPass2
  dsimp only
  rw [hf]
  simp only [if_pos hpos]
  have hfresh := s.readSlot_fresh i (i.ts 72)
  have hbay : (s.readSlot i (i.ts 72)).2.bay i.b = s.bay i.b := by
    rcases hfresh with heq | heq <;> rw [heq]
    rfl
  rw [hbay]
  generalize hscale : (latch fun b => freshScale (bits i.w 71 69) (bexpOf (s.readSlot i (i.ts 72)).1)
    ((s.statSet i (i.set 79)).mx b)) = scale
  generalize hc0 : ({ set := _, ds := convHeader _ _ _ _ _, flags := 0, sats := 0 } : Conv) = c0
  have hset : c0.set.pos = 0 := by
    rw [← hc0]
    exact hpos
  have hds : c0.ds = convHeader (bits i.w 71 69) 0 0 scale ((s.bay i.b).frame (i.ts 72)) := by rw [← hc0]
  exact ⟨_, c0, _, _, scale, rfl, hfresh, Conv.Elements.all _ _ _ _ _, hset, hds⟩

theorem capacity_gt {fmt : Nat} (h : fmt < 5) : ¬ fmtCapacity fmt ≤ 0 + 4096 := by
  interval_cases fmt <;> decide

/-- The header a conversion from POS 0 leaves, whatever its elements were. -/
theorem read_converted {c0 : Conv} (hm : Mem.wf m = true) (h : c0.Elements c) {fmt : Nat} {scale : Tab Nat}
    (hds : c0.ds = convHeader fmt 0 0 scale m) :
    Mem.wf c.ds = true ∧ ∀ a, headerByte a → (a < 16 ∨ 34 ≤ a) → Mem.read (Mem.frame c.ds) a =
      if 34 ≤ a ∨ a = 7 then 0 else if a < 6 then [1, BitVec.ofNat 8 (fmtFormat fmt), 0, 0, 0, 0].getD a 0
      else Mem.read m a := by
  have hwf0 : Mem.wf c0.ds = true := by
    rw [hds]
    exact convHeader_wf hm
  refine ⟨h.wf hwf0, fun a ha hin => ?_⟩
  have hlt := ha.1
  rw [Mem.read_frame (h.wf hwf0), if_pos (by unfold leafBytes; omega), h.header hwf0 a ha, hds,
    read_convHeader hm _ _ _ _ (by omega)]
  rfl

theorem convPass2Clause (hinv : Inv s) (h : Issues s b .convPass2 d) (hf : SlotReady s b ((s.issueOf d).ts 81) d.t)
    (hfmt : bits d.w 71 69 < 5) (hpos : ((s.bay b).sets.get ((s.issueOf d).set 79)).pos = 0) :
    let n := (s.issueOf d).set 79
    let ds := (s.issueOf d).ts 72
    ∃ t, exec (.convPass2 b) s = .next t ∧ Passed s t b d ∧ UnitFrame s t b ∧ ((t.bay b).sets.get n).pos = 4096 ∧
      ((t.bay b).sets.get n).lastOp = .conversion ∧
      (let f := (t.bay b).frame ds
       Mem.read f 0 = 1 ∧ Mem.read f 1 = BitVec.ofNat 8 (fmtFormat (bits d.w 71 69)) ∧ Mem.read f 2 = 0 ∧ Mem.read f 3 = 0 ∧
       Mem.read f 4 = 0 ∧ Mem.read f 6 = Mem.read ((s.bay b).frame ds) 6 ∧ Mem.read f 7 = 0 ∧
       Mem.readN f 8 8 = Mem.readN ((s.bay b).frame ds) 8 8 ∧ ∀ a, 34 ≤ a → a < 128 → Mem.read f a = 0) ∧
      (∀ m, m ≠ n → (t.bay b).sets.get m = (s.bay b).sets.get m) := by
  intro n ds
  have hfalls := falls_of_issues h
  have hb := hfalls.issueOf.1
  have hpos' : ((s.advance d).statSet (s.issueOf d) n).pos = 0 := by rw [hfalls.statSet, hpos]
  obtain ⟨v, c0, c, spans, scale, hop, hv, helements, hc0, hds⟩ := opConvPass2_of_ready (hfalls.readSlot hf) hpos'
  rw [hfalls.slot] at hds
  have hstands : s.Stands b ((s.bay b).past d) v := by
    rcases hv with rfl | rfl
    · exact hfalls.stands
    · exact hfalls.stands.fresh
  have hafter := hstands.convFinish hb n .convPass2 ds [(s.issueOf d).ts 81] spans c (c.set.advance (bits d.w 71 69)).1
  obtain ⟨t, heq, hafter⟩ : ∃ t, convPass2 b s = t ∧ s.Stands b _ t :=
    ⟨_, (issueUnit_of_issues h opConvPass2).trans hop, hafter⟩
  obtain ⟨hlast, hnext⟩ := c.set.advance_pos (bits d.w 71 69)
  rw [helements.pos, hc0, if_neg (capacity_gt hfmt)] at hnext
  have hself : (t.bay b).sets.get n = (c.set.advance (bits d.w 71 69)).1 := by
    rw [hafter.units.sets, Bay.withSlot_sets, Bay.withSet_get_self]
  obtain ⟨hwf, hread⟩ := read_converted (Bay.frame_wf (Inv.t0 hinv b) ds) helements hds
  have hslot : (t.bay b).frame ds = Mem.frame c.ds := (hafter.frame_setLeaf hinv rfl hwf ds).trans (if_pos rfl)
  refine ⟨t, congrArg Host.Outcome.next heq, hafter.passed hfalls rfl, hafter.unit, by rw [hself, hnext], by rw [hself, hlast],
    ?_, fun m hm => ?_⟩
  · dsimp only
    rw [hslot]
    have hlow (a : Nat) (ha : a < 16) (h5 : a ≠ 5) := hread a ⟨by omega, h5, by omega, by omega⟩ (.inl ha)
    refine ⟨hlow 0 (by decide) (by decide), hlow 1 (by decide) (by decide), hlow 2 (by decide) (by decide),
      hlow 3 (by decide) (by decide), hlow 4 (by decide) (by decide), hlow 6 (by decide) (by decide),
      hlow 7 (by decide) (by decide), Mem.readN_congr fun j hlo hhi => ?_, fun a hlo hhi => ?_⟩
    · exact (hlow j (by omega) (by omega)).trans ((if_neg (by omega)).trans (if_neg (by omega)))
    · exact (hread a ⟨hhi, by omega, by omega, by omega⟩ (.inr hlo)).trans (if_pos (.inl hlo))
  · rw [hafter.units.sets, Bay.withSlot_sets, Bay.withSet_get_ne _ hm, Bay.past_sets]

end Sys2Proof.Machine
end

section
/-! PROOFS. CONV_CARRY and CONV_STATS (10, R512 to R522). -/

namespace Sys2Proof.Machine

variable {s t u v : State} {b : BayNum} {d : Due} {k : Kind} {i : Issue} {n : Fin 4} {x : StatSet} {y z : Bay} {m : Mem}
  {c c' : Conv}

/-! ### CONV_CARRY (R512 to R519) -/

/-- Two scale frames with the same payload. -/
structure Mem.SamePayload (m m' : Mem) : Prop where
  wf : Mem.wf m' = true
  read : ∀ a, 256 ≤ a → Mem.read m' a = Mem.read m a

namespace Mem.SamePayload

variable {m' : Mem}

theorem refl (hm : Mem.wf m = true) : m.SamePayload m := ⟨hm, fun _ _ => rfl⟩

theorem write (h : m.SamePayload m') {a : Nat} (ha : a < 256) (v : Byte) : m.SamePayload (Mem.write m' a v) :=
  ⟨Mem.write_wf _ _ _ h.wf, fun j hj => (Mem.read_write_ne h.wf (by omega) v).trans (h.read j hj)⟩

theorem writeLe (h : m.SamePayload m') {a n : Nat} (ha : a + n ≤ 256) (v : Nat) : m.SamePayload (Mem.writeLe m' a n v) :=
  ⟨Mem.writeL_wf _ _ _ h.wf, fun j hj => (Mem.read_writeLe_ne h.wf (.inr (by omega))).trans (h.read j hj)⟩

end Mem.SamePayload

/-- The judgement of a completed leaf touches neither POS nor the payload. -/
theorem judgeAll_keeps (x : StatSet) (fmt : Nat) {m' : Mem} (h : m.SamePayload m') :
    (judgeAll x fmt m').1.pos = x.pos ∧ (judgeAll x fmt m').1.lastOp = x.lastOp ∧ m.SamePayload (judgeAll x fmt m').2 :=
  List.foldlRecOn (motive := fun p : StatSet × Mem => p.1.pos = x.pos ∧ p.1.lastOp = x.lastOp ∧ m.SamePayload p.2) _ _
    ⟨rfl, rfl, h⟩ fun p hp b hb => by
      obtain ⟨hpos, hlast, hsame⟩ := hp
      have hlt := List.mem_range.1 hb
      exact ⟨hpos, hlast, (hsame.write (by omega) _).writeLe (by omega) _⟩

theorem StatSet.clearMax_pos (x : StatSet) : x.clearMax.pos = x.pos := x.clearMax_counts.2.2

/-- What CONV_CARRY leaves: a frame `f` in its DS slot, a set that moved on, and perhaps new scales. -/
structure CarryLeaves (s : State) (b : BayNum) (y : Bay) (i : Issue) (x : StatSet) (sc : Mem) (t : State) : Prop where
  leaves : ∃ f sc' x', Mem.wf f = true ∧ sc.SamePayload sc' ∧ x'.lastOp = .conversion ∧
    x'.pos = (if fmtCapacity (bits i.w 66 64) ≤ x.pos + 4096 then 0 else x.pos + 4096) ∧
    (s.Stands b ((y.withSet (Fin.ofNat 4 (Config.carrySet (i.ts 74))) x').withSlot (i.ts 67) f) t ∨
      s.Stands b (((y.withSet (Fin.ofNat 4 (Config.carrySet (i.ts 74))) x').withSlot (i.ts 67) f).withSlot (i.ts 74) sc') t)

theorem opConvCarry_leaves (hv : s.Stands b y v) (hb : i.b = b) (hwf : Mem.wf y.t0 = true) :
    CarryLeaves s b y i (y.sets.get (Fin.ofNat 4 (Config.carrySet (i.ts 74)))) (y.frame (i.ts 74)) (opConvCarry i v) := by
  obtain ⟨w, heq⟩ : ∃ w, w = opConvCarry i v := ⟨_, rfl⟩
  rw [← heq]
  unfold opConvCarry at heq
  extract_lets sa scs ds fmt rescue n a x0 h hd s' d x map freshB scale cnt kept c0 sc0 sc1 c sc2 r j ready tag s'' at heq
  have ha : s.Stands b y a.2 := hv.readSlot i sa
  have hh : s.Stands b y h.2 := by
    show s.Stands b y (if x0.pos = 0 then a.2.readSlot i scs else ((a.2.bay i.b).frame scs, a.2)).2
    split
    · exact ha.readSlot i scs
    · exact ha
  have hs' : s.Stands b y s' := by
    show s.Stands b y (if x0.pos = 0 then h.2.readSlot i ds else ([], h.2)).2
    split
    · exact hh.readSlot i ds
    · exact hh
  have hx0 : x0 = y.sets.get n := by
    show (a.2.bay i.b).sets.get n = y.sets.get n
    rw [hb, ha.units.sets]
  have hx : x.pos = x0.pos := by
    show (if x0.pos = 0 then x0.clearMax else x0).pos = x0.pos
    split
    · exact x0.clearMax_pos
    · rfl
  have hframe (m : Nat) : (s'.bay i.b).frame m = y.frame m := by
    rw [hb]
    exact hs'.frame m
  have hdwf : Mem.wf d = true := by
    show Mem.wf ((s'.bay i.b).frame ds) = true
    rw [hframe]
    exact Bay.frame_wf hwf ds
  have hsc0 : (y.frame scs).SamePayload sc0 := by
    show (y.frame scs).SamePayload ((s'.bay i.b).frame scs)
    rw [hframe]
    exact .refl (Bay.frame_wf hwf scs)
  clear_value scale cnt kept map freshB x d s' sc0
  have hc0 : c0.set.pos = x.pos ∧ Mem.wf c0.ds = true := by
    refine ite_of (p := fun c : Conv => c.set.pos = x.pos ∧ Mem.wf c.ds = true) ⟨rfl, ?_⟩ ⟨rfl, hdwf⟩
    dsimp only
    exact convHeader_wf hdwf
  have hsc1 : (y.frame scs).SamePayload sc1 := by
    exact ite_of (p := fun m => (y.frame scs).SamePayload m) (hsc0.writeLe (by decide) _) hsc0
  clear_value c0 sc1
  have helements : c0.Elements c := Conv.Elements.all _ _ _ _ _
  have hsc2 : (y.frame scs).SamePayload sc2 := hsc1.writeLe (by decide) _
  clear_value c sc2
  obtain ⟨hlast, hnext⟩ := c.set.advance_pos fmt
  rw [helements.pos, hc0.1, hx, hx0] at hnext
  have hj : j.1.lastOp = .conversion ∧
      j.1.pos = (if fmtCapacity fmt ≤ (y.sets.get n).pos + 4096 then 0 else (y.sets.get n).pos + 4096) ∧
      (y.frame scs).SamePayload j.2 := by
    obtain ⟨hpos', hlast', hsame⟩ := judgeAll_keeps r.1 fmt hsc2
    exact ite_of (p := fun p : StatSet × Mem => p.1.lastOp = .conversion ∧ p.1.pos = (if fmtCapacity fmt ≤
      (y.sets.get n).pos + 4096 then 0 else (y.sets.get n).pos + 4096) ∧ (y.frame scs).SamePayload p.2)
      ⟨hlast'.trans hlast, hpos'.trans hnext, hsame⟩ ⟨hlast, hnext, hsc2⟩
  clear_value j
  have hs'' : s.Stands b ((y.withSet n j.1).withSlot ds c.ds) s'' := hs'.convFinish hb n .convCarry ds [sa, scs] _ c j.1
  clear_value s'' tag ready
  refine ⟨c.ds, j.2, j.1, helements.wf hc0.2, hj.2.2, hj.1, hj.2.1, ?_⟩
  rw [heq]
  split
  · exact .inr ((hs''.writeSlot hb scs _ _ _ j.2).modBay hb fun hy => hy.setTag _ _)
  · split
    · exact .inr ((hs''.writeSlot hb scs _ _ _ j.2).modBay hb fun hy => hy.setTag _ _)
    · exact .inl hs''

theorem State.viols_convCarry (h : entryKind d.w = some .convCarry) : s.viols d =
    violIf ((s.issueOf d).ts 74 == (s.issueOf d).ts 67) (d.fails VC.operand 9) := by
  unfold State.viols
  simp only [h]

/-- A carry into its own scale slot. -/
theorem convCarry_operand (hinv : Inv s) (h : Issues s b .convCarry d)
    (hsame : (s.issueOf d).ts 74 = (s.issueOf d).ts 67) (honly : OnlyViolator s d) :
    ∃ t, exec (.convCarry b) s = .next t ∧ FrozenBy s t d.q FC.format ((256 + 16 * d.idx + 9) % 2 ^ 32) ∧
      t.rd (Key.qValCode d.q) = 0x07 := by
  have hviols := State.viols_convCarry (s := s) (kind_of_issues h)
  rw [violIf, if_pos (beq_iff_eq.2 hsame)] at hviols
  have heq : convCarry b s = _ := issueChecked_of_viol h (fun d t => opConvCarry (s.issueOf d) t) (by simp [hviols])
  rw [hviols] at heq
  exact ⟨_, congrArg Host.Outcome.next heq, State.frozenBy_violate_check (s.canonical_iff.2 hinv).dict.vals
    (falls_of_issues h).lively honly VC.operand 9⟩

theorem convCarry_passes (hinv : Inv s) (h : Issues s b .convCarry d)
    (hne : (s.issueOf d).ts 74 ≠ (s.issueOf d).ts 67) : ∃ t n, exec (.convCarry b) s = .next t ∧ Passed s t b d ∧
      UnitFrame s t b ∧ ((t.bay b).sets.get n).lastOp = .conversion ∧
      ((t.bay b).sets.get n).pos = (if fmtCapacity (bits d.w 66 64) ≤ ((s.bay b).sets.get n).pos + 4096 then 0
        else ((s.bay b).sets.get n).pos + 4096) ∧
      (∀ m, m ≠ n → (t.bay b).sets.get m = (s.bay b).sets.get m) ∧
      (∀ k, 256 ≤ k → k < 8448 → Mem.read ((t.bay b).frame ((s.issueOf d).ts 74)) k =
        Mem.read ((s.bay b).frame ((s.issueOf d).ts 74)) k) := by
  have hfalls := falls_of_issues h
  have hviols := State.viols_convCarry (s := s) (kind_of_issues h)
  rw [violIf, if_neg (fun heq => hne (beq_iff_eq.1 heq))] at hviols
  have heq : convCarry b s = _ := issueChecked_of_clean h (fun d t => opConvCarry (s.issueOf d) t) hviols
  have ht0 := Inv.t0 hinv b
  obtain ⟨f, sc, x, hf, hsc, hlast, hpos, hleaves⟩ := (opConvCarry_leaves hfalls.stands hfalls.issueOf.1 ht0).leaves
  generalize Fin.ofNat 4 (Config.carrySet ((s.issueOf d).ts 74)) = n at hpos hleaves
  obtain ⟨t, heq, hleaves⟩ : ∃ t, convCarry b s = t ∧
      (s.Stands b ((((s.bay b).past d).withSet n x).withSlot ((s.issueOf d).ts 67) f) t ∨
        s.Stands b (((((s.bay b).past d).withSet n x).withSlot ((s.issueOf d).ts 67) f).withSlot ((s.issueOf d).ts 74) sc) t) :=
    ⟨_, heq, hleaves⟩
  have hsets : (t.bay b).sets = (((s.bay b).past d).withSet n x).sets := by
    rcases hleaves with h | h <;> exact h.units.sets
  have hself : (t.bay b).sets.get n = x := by rw [hsets, Bay.withSet_get_self]
  have hslots : Mem.SamePayload ((s.bay b).frame ((s.issueOf d).ts 74)) sc := hsc
  refine ⟨t, n, congrArg Host.Outcome.next heq, ?_, ?_, by rw [hself, hlast], ?_, fun m hm => ?_, fun k hlo hhi => ?_⟩
  · rcases hleaves with h | h <;> exact h.passed hfalls rfl
  · rcases hleaves with h | h <;> exact h.unit
  · rw [hself]
    exact hpos
  · rw [hsets, Bay.withSet_get_ne _ hm, Bay.past_sets]
  · rcases hleaves with h | h
    · rw [(h.frame_setLeaf hinv rfl hf _).trans (if_neg hne)]
    · have hfirst := Mem.setLeaf_wf _ f ((s.issueOf d).ts 67) ht0 hf
      have hframe : (t.bay b).frame ((s.issueOf d).ts 74) = Mem.frame sc :=
        (Bay.frame_of_setLeaf (x := (((s.bay b).past d).withSet n x).withSlot ((s.issueOf d).ts 67) f) hfirst hslots.wf
          h.units.t0 ((s.issueOf d).ts 74)).trans (if_pos rfl)
      rw [hframe, Mem.read_frame hslots.wf, if_pos (show k < leafBytes from hhi), hslots.read k hlo]

/-! ### CONV_STATS (R520 to R522) -/

theorem Mem.writeL_append (m : Mem) (a : Nat) (xs ys : List Byte) :
    Mem.writeL m a (xs ++ ys) = Mem.writeL (Mem.writeL m a xs) (a + xs.length) ys := by
  induction xs generalizing m a with
  | nil => rfl
  | cons x xs ih =>
    rw [List.cons_append, Mem.writeL, ih, Mem.writeL, List.length_cons]
    congr 1
    omega

theorem statRecord_counts (x : StatSet) : ∃ rest, rest.length = 184 ∧
    statRecord x = natLe 4 x.count1 ++ (natLe 4 x.count2 ++ rest) := by
  refine ⟨_, ?_, by simp only [statRecord, List.append_assoc]; rfl⟩
  simp only [List.length_append, natLe_length, List.length_flatMap, List.length_replicate]
  decide

/-- The frame CONV_STATS leaves. -/
def statFrame (ds : Mem) (x : StatSet) : Mem :=
  Mem.writeL (Mem.writeL (Mem.writeL (Mem.clear ds 0 256) 0 [2, 0x0D]) 8 (Mem.readN ds 8 8)) payloadBase (statRecord x)

theorem read_statFrame (hm : Mem.wf m = true) (x : StatSet) :
    Mem.wf (statFrame m x) = true ∧ Mem.read (statFrame m x) 0 = 2 ∧ Mem.read (statFrame m x) 1 = 0x0D ∧
    Mem.readN (statFrame m x) 8 8 = Mem.readN m 8 8 ∧
    Mem.readLe (statFrame m x) 256 4 = x.count1 % 2 ^ 32 ∧ Mem.readLe (statFrame m x) 260 4 = x.count2 % 2 ^ 32 ∧
    ∀ k, 448 ≤ k → Mem.read (statFrame m x) k = Mem.read m k := by
  obtain ⟨rest, hlen, hrecord⟩ := statRecord_counts x
  have hclear := Mem.clear_wf m 0 256 hm
  have htype := Mem.writeL_wf [2, 0x0D] (Mem.clear m 0 256) 0 hclear
  have hid := Mem.writeL_wf (Mem.readN m 8 8) _ 8 htype
  have hfirst := Mem.writeL_wf (natLe 4 x.count1) _ 256 hid
  have hsecond := Mem.writeL_wf (natLe 4 x.count2) _ 260 hfirst
  have hframe : statFrame m x = Mem.writeL (Mem.writeL (Mem.writeL (Mem.writeL (Mem.writeL (Mem.clear m 0 256) 0 [2, 0x0D]) 8
      (Mem.readN m 8 8)) 256 (natLe 4 x.count1)) 260 (natLe 4 x.count2)) 264 rest := by
    rw [statFrame, hrecord, Mem.writeL_append, Mem.writeL_append, natLe_length, natLe_length]
    rfl
  have hlow (k : Nat) (hk : k < 256) : Mem.read (statFrame m x) k = Mem.read (Mem.writeL (Mem.writeL (Mem.clear m 0 256) 0
      [2, 0x0D]) 8 (Mem.readN m 8 8)) k := by
    rw [hframe, Mem.read_writeL _ _ _ _ hsecond, if_neg (by omega), Mem.read_writeL _ _ _ _ hfirst, if_neg (by omega),
      Mem.read_writeL _ _ _ _ hid, if_neg (by omega)]
  have hbytes (k : Nat) (hk : k < 2) : Mem.read (statFrame m x) k = [2, 0x0D].getD k 0 := by
    rw [hlow k (by omega), Mem.read_writeL _ _ _ _ htype, if_neg (by omega), Mem.read_writeL _ _ _ _ hclear,
      if_pos ⟨Nat.zero_le k, by simpa using hk⟩, Nat.sub_zero]
  refine ⟨?_, hbytes 0 (by decide), hbytes 1 (by decide), ?_, ?_, ?_, fun k hk => ?_⟩
  · rw [hframe]
    exact Mem.writeL_wf _ _ _ hsecond
  · rw [Mem.readN_congr (m' := Mem.writeL (Mem.writeL (Mem.clear m 0 256) 0 [2, 0x0D]) 8 (Mem.readN m 8 8))
      fun j _ hj => hlow j (by omega)]
    have hself := Mem.readN_writeL_self htype 8 (Mem.readN m 8 8)
    rwa [Mem.readN_length] at hself
  · rw [hframe, Mem.readLe, Mem.readN_writeL_disjoint hsecond _ _ _ _ (.inl (by decide)),
      Mem.readN_writeL_disjoint hfirst _ _ _ _ (.inl (by decide))]
    exact Mem.readLe_writeLe_self hid 256 4 x.count1
  · rw [hframe, Mem.readLe, Mem.readN_writeL_disjoint hsecond _ _ _ _ (.inl (by decide))]
    exact Mem.readLe_writeLe_self hfirst 260 4 x.count2
  · rw [hframe, Mem.read_writeL _ _ _ _ hsecond, if_neg (by omega), Mem.read_writeL _ _ _ _ hfirst,
      if_neg (by rw [natLe_length]; omega), Mem.read_writeL _ _ _ _ hid, if_neg (by rw [natLe_length]; omega),
      Mem.read_writeL _ _ _ _ htype, if_neg (by rw [Mem.readN_length]; omega), Mem.read_writeL _ _ _ _ hclear,
      if_neg (by simp; omega), Mem.read_clear hm, if_neg (by omega)]

theorem opConvStats_eq (i : Issue) (s : State) : ∃ reads spans ready x, opConvStats i s =
      ((s.writeSlot i (i.ts 79) reads ready spans (statFrame ((s.bay i.b).frame (i.ts 79)) x)).modBay i.b fun y =>
        y.withSet (i.set 86) StatSet.reset).result i (resSet (i.set 86).val) [] 0 ∧
      x.count1 = (s.statSet i (i.set 86)).count1 ∧ x.count2 = (s.statSet i (i.set 86)).count2 := by
  refine ⟨_, _, _, if (s.statSet i (i.set 86)).pos = 0 then s.statSet i (i.set 86)
    else (s.statSet i (i.set 86)).predict (s.statSet i (i.set 86)).written, rfl, ?_, ?_⟩
  · split <;> rfl
  · split <;> rfl

theorem convStatsClause (hinv : Inv s) (h : Issues s b .convStats d) :
    let n := (s.issueOf d).set 86
    ∃ t, exec (.convStats b) s = .next t ∧ Passed s t b d ∧ UnitFrame s t b ∧ (t.bay b).sets.get n = StatSet.reset ∧
      (∀ m, m ≠ n → (t.bay b).sets.get m = (s.bay b).sets.get m) ∧
      (let f := (t.bay b).frame ((s.issueOf d).ts 79)
       Mem.read f 0 = 2 ∧ Mem.read f 1 = 0x0D ∧ Mem.readN f 8 8 = Mem.readN ((s.bay b).frame ((s.issueOf d).ts 79)) 8 8 ∧
       Mem.readLe f 256 4 = ((s.bay b).sets.get n).count1 % 2 ^ 32 ∧
       Mem.readLe f 260 4 = ((s.bay b).sets.get n).count2 % 2 ^ 32 ∧
       ∀ k, 448 ≤ k → Mem.read f k = Mem.read ((s.bay b).frame ((s.issueOf d).ts 79)) k) := by
  intro n
  have hfalls := falls_of_issues h
  have hb := hfalls.issueOf.1
  obtain ⟨reads, spans, ready, x, hop, hcount1, hcount2⟩ := opConvStats_eq (s.issueOf d) (s.advance d)
  rw [hfalls.statSet] at hcount1 hcount2
  rw [hfalls.slot] at hop
  have ht0 := Inv.t0 hinv b
  obtain ⟨hwf, h0, h1, hid, hc1, hc2, hrest⟩ := read_statFrame (Bay.frame_wf ht0 ((s.issueOf d).ts 79)) x
  have hafter := ((hfalls.stands.writeSlot hb ((s.issueOf d).ts 79) reads ready spans
    (statFrame ((s.bay b).frame ((s.issueOf d).ts 79)) x)).modBay (i := s.issueOf d) hb
      (f := fun y => y.withSet n StatSet.reset) fun hy => hy.withSet n StatSet.reset).result (i := s.issueOf d) hb
      (resSet n.val) [] 0
  generalize statFrame ((s.bay b).frame ((s.issueOf d).ts 79)) x = f at *
  obtain ⟨t, heq, hafter⟩ : ∃ t, convStats b s = t ∧ s.Stands b _ t :=
    ⟨_, (issueUnit_of_issues h opConvStats).trans hop, hafter⟩
  have hslot : (t.bay b).frame ((s.issueOf d).ts 79) = Mem.frame f :=
    (Bay.frame_of_setLeaf ht0 hwf hafter.units.t0 _).trans (if_pos rfl)
  have hbyte (a : Nat) (ha : a < leafBytes) : Mem.read (Mem.frame f) a = Mem.read f a := by
    rw [Mem.read_frame hwf, if_pos ha]
  refine ⟨t, congrArg Host.Outcome.next heq, hafter.passed hfalls rfl, hafter.unit, ?_, fun m hm => ?_, ?_⟩
  · rw [hafter.units.sets, Bay.withSet_get_self]
  · rw [hafter.units.sets, Bay.withSet_get_ne _ hm]
    rfl
  · dsimp only
    rw [hslot]
    refine ⟨(hbyte 0 (by decide)).trans h0, (hbyte 1 (by decide)).trans h1, ?_, ?_, ?_, fun k hk => ?_⟩
    · rw [← hid]
      exact Mem.readN_congr fun j _ hj => hbyte j (by unfold leafBytes; omega)
    · rw [Mem.readLe_frame hwf (by decide), hc1, hcount1]
    · rw [Mem.readLe_frame hwf (by decide), hc2, hcount2]
    · exact Bay.read_frame_frame ht0 hwf (hrest k hk)

theorem converterClause : ConverterClause := by
  intro s b d hinv i el finite set
  exact ⟨fun h hf hfinite => convPass1Clause h hf hfinite, fun h hf hfmt hpos => convPass2Clause hinv h hf hfmt hpos,
    fun h => ⟨fun hsame honly => convCarry_operand hinv h hsame honly, fun hne _ _ => convCarry_passes hinv h hne⟩,
    fun h => convStatsClause hinv h⟩

/-- Settles O32: each entry of the two units issues on its settled sources and changes its own slot, RACC, registers or
statistics set. -/
theorem referenceAndConverter : Obligations.ReferenceAndConverter := ⟨referenceUnitClause, converterClause⟩

end Sys2Proof.Machine
end

section
/-! PROOFS. The press ring: what serving it changes, and what becomes of its descriptors (13, R601, R620). -/

namespace Sys2Proof.Machine

variable {s t u : State} {x : PressOp} {id n : Nat}

/-! ### The ring and the work it starts -/

/-- `t` differs from `s` in the press ring, the units under way, the journal, the moves, and the senses queued. -/
structure State.RingOnly (s t : State) : Prop where
  frame : ∃ press moves journal units tl, t = { s with
    nv := { s.nv with press := press, moves := moves, journal := journal, units := units },
    weave := { s.weave with tlQueue := tl } }

namespace State.RingOnly

theorem refl (s : State) : s.RingOnly s := ⟨_, _, _, _, _, rfl⟩

theorem trans (h : s.RingOnly t) (h' : t.RingOnly u) : s.RingOnly u := by
  obtain ⟨press, moves, journal, units, tl, rfl⟩ := h.frame
  obtain ⟨press', moves', journal', units', tl', rfl⟩ := h'.frame
  exact ⟨_, _, _, _, _, rfl⟩

theorem ite {c : Prop} [Decidable c] (ht : s.RingOnly t) (hu : s.RingOnly u) : s.RingOnly (if c then t else u) := by
  split
  · exact ht
  · exact hu

theorem foldl {α : Type} {f : State → α → State} {l : List α} (h : s.RingOnly t) (hf : ∀ (u : State) (a : α), u.RingOnly (f u a)) :
    s.RingOnly (l.foldl f t) := List.foldlRecOn (motive := fun u => s.RingOnly u) l f h fun u hu a _ => hu.trans (hf u a)

theorem of_nv (s : State) {press : List PressOp} {moves : List BandMove} {journal : List JEntry} {units : List PressUnit} :
    s.RingOnly (s.setNv { s.nv with press := press, moves := moves, journal := journal, units := units }) :=
  ⟨_, _, _, _, s.weave.tlQueue, rfl⟩

theorem jStart (s : State) (kind addr : Nat) : s.RingOnly (s.jStart kind addr) := of_nv s
theorem jEnd (s : State) (kind addr : Nat) : s.RingOnly (s.jEnd kind addr) := of_nv s
theorem addUnit (s : State) (g : Nat) (w : Worker) (banks : List Nat) : s.RingOnly (s.addUnit g w banks) := of_nv s
theorem endUnit (s : State) (g : Nat) (w : Worker) : s.RingOnly (s.endUnit g w) := of_nv s
theorem setOp (s : State) (x : PressOp) : s.RingOnly (s.setOp x) := of_nv s
theorem dropOp (s : State) (id : Nat) : s.RingOnly (dropOp s id) := of_nv s
theorem queueMove (s : State) (g b : Nat) (kind : MoveKind) : s.RingOnly (s.queueMove g b kind) := ite (refl s) (of_nv s)
theorem queueDescMove (s : State) (g b : Nat) : s.RingOnly (s.queueDescMove g b) := (queueMove s g b _).trans (of_nv _)
theorem queueTl (s : State) (g : Nat) (x : TlSense) : s.RingOnly (s.queueTl g x) :=
  ⟨s.nv.press, s.nv.moves, s.nv.journal, s.nv.units, _, rfl⟩
theorem nextUnits (s : State) (x : PressOp) : s.RingOnly (s.nextUnits x) := (jStart s _ _).trans (addUnit _ _ _ _)
theorem takeSectors (s : State) (x : PressOp) : s.RingOnly (s.takeSectors x) :=
  (foldl (refl s) fun u _ => jStart u _ _).trans (setOp _ _)
theorem unitsEnd (s : State) (x : PressOp) : s.RingOnly (s.unitsEnd x) :=
  foldl (ite ((jEnd s _ _).trans (endUnit _ _ _)) (refl s)) fun u _ => jEnd u _ _

theorem startPress (s : State) (x : PressOp) : s.RingOnly (s.startPress x) := by
  have hset : s.RingOnly (s.setOp { x with running := true }) := setOp s _
  refine ite (hset.trans (nextUnits _ _)) (ite (hset.trans (takeSectors _ _)) (ite (foldl hset fun u k => ?_)
    (ite (hset.trans (queueDescMove _ _ _)) hset)))
  split
  · exact queueTl u _ _
  · exact refl u

theorem serveRing (s : State) : s.RingOnly s.serveRing := by
  have hfirst : s.RingOnly (s.nv.press.foldl
      (fun s x => if x.running ∧ x.isAuxOp = true ∧ x.under = [] then s.takeSectors x else s) s) :=
    foldl (refl s) fun u x => ite (takeSectors u x) (refl u)
  refine List.foldlRecOn (motive := fun p : State × List PressSource => s.RingOnly p.1) _ _ hfirst fun p hp x _ => ?_
  split
  · exact hp
  · split
    · exact hp
    · split
      · exact hp.trans (startPress p.1 x)
      · exact hp

section
variable (h : s.RingOnly t)
include h

theorem dict : t.dict = s.dict := by
  obtain ⟨press, moves, journal, units, tl, rfl⟩ := h.frame
  rfl

theorem rd (k : Nat) : t.rd k = s.rd k := by
  obtain ⟨press, moves, journal, units, tl, rfl⟩ := h.frame
  rfl

theorem cmd (k : Nat) : t.cmd k = s.cmd k := by rw [State.cmd, h.dict, State.cmd]

theorem out : t.out = s.out := by
  obtain ⟨press, moves, journal, units, tl, rfl⟩ := h.frame
  rfl

end
end State.RingOnly

/-! ### What holds of every descriptor of the ring -/

/-- The ring of `t` holds the descriptors of that of `s`, one for one, and `P` of each of them when of each before. -/
structure State.RingKeeps (P : PressOp → Prop) (s t : State) : Prop where
  ids : t.nv.press.map PressOp.id = s.nv.press.map PressOp.id
  all : (∀ y ∈ s.nv.press, P y) → ∀ y ∈ t.nv.press, P y

namespace State.RingKeeps

variable {P : PressOp → Prop}

theorem of_press (h : t.nv.press = s.nv.press) : s.RingKeeps P t := ⟨by rw [h], by rw [h]; exact id⟩

theorem refl (s : State) : s.RingKeeps P s := of_press rfl

theorem trans (h : s.RingKeeps P t) (h' : t.RingKeeps P u) : s.RingKeeps P u :=
  ⟨h'.ids.trans h.ids, fun hs => h'.all (h.all hs)⟩

theorem ite {c : Prop} [Decidable c] (ht : s.RingKeeps P t) (hu : s.RingKeeps P u) : s.RingKeeps P (if c then t else u) := by
  split
  · exact ht
  · exact hu

theorem foldl {α : Type} {f : State → α → State} {l : List α} (h : s.RingKeeps P t)
    (hf : ∀ (u : State), ∀ a ∈ l, u.RingKeeps P (f u a)) : s.RingKeeps P (l.foldl f t) :=
  List.foldlRecOn (motive := fun u => s.RingKeeps P u) l f h fun u hu a ha => hu.trans (hf u a ha)

theorem setOp (s : State) {x : PressOp} (hx : P x) : s.RingKeeps P (s.setOp x) := by
  refine ⟨?_, fun hs y hy => ?_⟩
  · show (s.nv.press.map fun y => if y.id = x.id then x else y).map PressOp.id = _
    rw [List.map_map]
    refine List.map_congr_left fun y _ => ?_
    simp only [Function.comp]
    split
    · next h => exact h.symm
    · rfl
  · obtain ⟨z, hz, rfl⟩ := List.mem_map.1 hy
    split
    · exact hx
    · exact hs z hz

section
variable (hunder : ∀ x l, P x → P { x with under := l })
include hunder

theorem takeSectors (s : State) {x : PressOp} (hx : P x) : s.RingKeeps P (s.takeSectors x) := by
  have hjournal : s.RingKeeps P ((s.nextSectors x).foldl (fun s n => s.jStart jSector n) s) :=
    foldl (refl s) fun u _ _ => of_press rfl
  exact hjournal.trans (setOp _ (hunder x (s.nextSectors x) hx))

variable (hrun : ∀ x, P x → P { x with running := true })
include hrun

theorem startPress (s : State) {x : PressOp} (hx : P x) : s.RingKeeps P (s.startPress x) := by
  have hx' := hrun x hx
  have hset : s.RingKeeps P (s.setOp { x with running := true }) := setOp s hx'
  refine ite (hset.trans (of_press rfl)) (ite (hset.trans (takeSectors hunder _ hx')) (ite (foldl hset fun u k _ => ?_)
    (ite (hset.trans ?_) hset)))
  · split
    · exact of_press rfl
    · exact refl u
  · refine State.RingKeeps.trans (t := (s.setOp { x with running := true }).queueMove _ _ _) (ite (refl _) (of_press rfl))
      (of_press rfl)

theorem serveRing (s : State) (hs : ∀ y ∈ s.nv.press, P y) : s.RingKeeps P s.serveRing := by
  have hfirst : s.RingKeeps P (s.nv.press.foldl
      (fun s x => if x.running ∧ x.isAuxOp = true ∧ x.under = [] then s.takeSectors x else s) s) :=
    foldl (refl s) fun u x hx => ite (takeSectors hunder u (hs x hx)) (refl u)
  have hmid := hfirst.all hs
  refine List.foldlRecOn (motive := fun p : State × List PressSource => s.RingKeeps P p.1) _ _ hfirst fun p hp x hx => ?_
  split
  · exact hp
  · split
    · exact hp
    · split
      · exact hp.trans (startPress hunder hrun p.1 (hmid x hx))
      · exact hp

end
end State.RingKeeps

/-! ### A descriptor leaves the ring with its completion (R607) -/

/-- The descriptor `x` has left the ring of `t`, its submitter has its completion, and of the rest of `s` only what serving
the ring may change has changed; free numbers may have been taken. -/
structure State.PressLeft (s : State) (x : PressOp) (bytes : List Byte) (t : State) : Prop where
  ring : ∃ d out n, State.RingOnly { s with dict := d, out := out, freeCtr := n } t
  vals : t.dict.vals = s.dict.vals
  answered : PressAnswered s t x.src bytes
  gone : ∀ y ∈ t.nv.press, y.id ≠ x.id

theorem State.pressAnswer_frame (s : State) (src : PressSource) (bytes : List Byte) :
    ∃ cmds out, s.pressAnswer src bytes = { s with dict := { s.dict with cmds := cmds }, out := out } := by
  unfold State.pressAnswer
  split
  · exact ⟨_, s.out, rfl⟩
  · exact ⟨s.dict.cmds, _, rfl⟩

theorem State.pressAnswer_answered (s : State) (src : PressSource) (bytes : List Byte) :
    PressAnswered s (s.pressAnswer src bytes) src bytes := by
  unfold PressAnswered State.pressAnswer
  cases submitKey src with
  | none => exact ⟨[], rfl⟩
  | some k =>
    have hcmd := s.cmdDone_cmd k DS.ok bytes
    exact ⟨congrArg CmdBlock.state hcmd, congrArg CmdBlock.result hcmd, congrArg CmdBlock.card hcmd⟩

theorem State.pressSignal_of_engine (s : State) {src : PressSource} (h : ∀ q, src ≠ .quire q) (d : PDesc) :
    s.pressSignal src d = s := by
  cases src with
  | quire q => exact absurd rfl (h q)
  | translation | loader | training | firmware | host | factory => rfl

theorem PressAnswered.congr {src : PressSource} {bytes : List Byte} {s' t' : State} (h : PressAnswered s t src bytes)
    (hout : s'.out = s.out) (hout' : t'.out = t.out) (hcmds : t'.dict.cmds = t.dict.cmds) : PressAnswered s' t' src bytes := by
  unfold PressAnswered State.cmd at *
  rw [hout, hout', hcmds]
  exact h

theorem State.pressDone_left (s : State) (x : PressOp) (hsrc : ∀ q, x.src ≠ .quire q) (status done detail us : Nat)
    (signal : Bool) : s.PressLeft x (pressBytes x.desc status done detail us) (s.pressDone x status done detail us signal) := by
  have hbefore : s.RingOnly ((dropOp s x.id).unitsEnd x) := (State.RingOnly.dropOp s x.id).trans (.unitsEnd _ x)
  have hpress : ((dropOp s x.id).unitsEnd x).RingKeeps (fun y => y.id ≠ x.id) _ := .refl _
  have hgone : ∀ y ∈ ((dropOp s x.id).unitsEnd x).nv.press, y.id ≠ x.id := by
    have hsame : (dropOp s x.id).RingKeeps (fun y => y.id ≠ x.id) ((dropOp s x.id).unitsEnd x) :=
      .foldl (.ite (.of_press rfl) (.refl _)) fun _ _ _ => .of_press rfl
    refine hsame.all fun y hy => ?_
    simpa using (List.mem_filter.1 hy).2
  have heq : s.pressDone x status done detail us signal = (((dropOp s x.id).unitsEnd x).pressAnswer x.src
      (pressBytes x.desc status done detail us)).serveRing := by
    unfold State.pressDone
    dsimp only
    rw [State.pressSignal_of_engine _ hsrc, ite_self]
  have hanswered := State.pressAnswer_answered ((dropOp s x.id).unitsEnd x) x.src (pressBytes x.desc status done detail us)
  obtain ⟨cmds, out, hframe⟩ := State.pressAnswer_frame ((dropOp s x.id).unitsEnd x) x.src
    (pressBytes x.desc status done detail us)
  rw [heq, hframe]
  rw [hframe] at hanswered
  generalize (dropOp s x.id).unitsEnd x = v at hbefore hgone hanswered ⊢
  have hserved := State.RingOnly.serveRing { v with dict := { v.dict with cmds := cmds }, out := out }
  have hkept := State.RingKeeps.serveRing (P := fun y => y.id ≠ x.id) (fun _ _ h => h) (fun _ h => h)
    { v with dict := { v.dict with cmds := cmds }, out := out } hgone
  refine ⟨⟨{ v.dict with cmds := cmds }, out, v.freeCtr, ?_⟩, ?_, ?_, hkept.all hgone⟩
  · refine .trans ?_ hserved
    obtain ⟨press, moves, journal, units, tl, rfl⟩ := hbefore.frame
    exact ⟨_, _, _, _, _, rfl⟩
  · rw [hserved.dict, ← hbefore.dict]
  · exact PressAnswered.congr hanswered hbefore.out.symm hserved.out (by rw [hserved.dict])

end Sys2Proof.Machine
end

section
/-! PROOFS. Press operations end: OTP_PROGRAM and ERASE_SECTOR (13, R590, R602, R607, R620). -/

namespace Sys2Proof.Machine

variable {s t u : State} {x : PressOp} {id us : Nat} {f : PressFacts}

namespace State.PressLeft

variable {bytes : List Byte}

theorem tiers (h : s.PressLeft x bytes t) : t.tiers = s.tiers := by
  obtain ⟨d, out, n, press, moves, journal, units, tl, rfl⟩ := h.ring
  rfl

/-- The non-volatile memory but for the ring, the moves, the journal and the units. -/
theorem nv (h : s.PressLeft x bytes t) : ∃ press moves journal units,
    t.nv = { s.nv with press := press, moves := moves, journal := journal, units := units } := by
  obtain ⟨d, out, n, press, moves, journal, units, tl, rfl⟩ := h.ring
  exact ⟨press, moves, journal, units, rfl⟩

theorem otp (h : s.PressLeft x bytes t) : t.nv.otp = s.nv.otp := by
  obtain ⟨press, moves, journal, units, hnv⟩ := h.nv
  rw [hnv]

theorem lib (h : s.PressLeft x bytes t) : t.nv.lib = s.nv.lib := by
  obtain ⟨press, moves, journal, units, hnv⟩ := h.nv
  rw [hnv]

theorem aux (h : s.PressLeft x bytes t) : t.nv.aux = s.nv.aux := by
  obtain ⟨press, moves, journal, units, hnv⟩ := h.nv
  rw [hnv]

theorem boot (h : s.PressLeft x bytes t) : t.nv.boot = s.nv.boot := by
  obtain ⟨press, moves, journal, units, hnv⟩ := h.nv
  rw [hnv]

theorem block (h : s.PressLeft x bytes t) (g k n : Nat) : t.block g k n = s.block g k n := by
  obtain ⟨press, moves, journal, units, hnv⟩ := h.nv
  rw [State.block, hnv, State.block]

theorem rd (h : s.PressLeft x bytes t) (k : Nat) : t.rd k = s.rd k := by
  obtain ⟨d, out, n, hring⟩ := h.ring
  rw [hring.rd]
  have hvals : d.vals = s.dict.vals := by rw [← h.vals, hring.dict]
  rw [State.rd, State.rd]
  simp only [hvals]

end State.PressLeft

/-! ### An operation that ends (R602, R607) -/

/-- The descriptor `x` is in the ring under `id`, and its units can end. -/
structure State.Ends (s : State) (id : Nat) (x : PressOp) : Prop where
  find : (s.nv.press.find? fun y => y.id == id) = some x
  can : s.canEnd x = true

theorem State.Ends.id_eq (h : s.Ends id x) : x.id = id := beq_iff_eq.1 (List.find?_some h.find :)

theorem State.Ends.complete (h : s.Ends id x) (hop : x.op ≠ 6) {c : Nat × Nat × Nat} {t : State}
    (hend : s.endPress x f = (t, some c)) :
    exec (.pressOpComplete id f) s = .next (t.pressDone x c.1 c.2.1 c.2.2 f.timeUs true) := by
  refine congrArg Host.Outcome.next ?_
  unfold pressOpComplete
  rw [h.find]
  dsimp only
  rw [if_neg (not_not.2 h.can), if_neg hop, hend]

theorem State.Ends.goesOn (h : s.Ends id x) (hop : x.op ≠ 6) {t : State} (hend : s.endPress x f = (t, none)) :
    exec (.pressOpComplete id f) s = .next (t.pressOn x) := by
  refine congrArg Host.Outcome.next ?_
  unfold pressOpComplete
  rw [h.find]
  dsimp only
  rw [if_neg (not_not.2 h.can), if_neg hop, hend]

/-- A quire submits READ_RUN alone (R600). -/
theorem source_of_op (h : (sourceOps x.src).contains x.op = true) (hop : x.op ≠ 4) : ∀ q, x.src ≠ .quire q := by
  intro q hq
  rw [hq] at h
  simp [sourceOps] at h
  exact hop h

/-! ### OTP_PROGRAM (R590) -/

theorem endPress_otp (hop : x.op = 5) (h : f.verified = true ∨
    Mem.readLe s.nv.otp x.target 8 ||| x.data = Mem.readLe s.nv.otp x.target 8) :
    s.endPress x f = (s.otpOr x.target x.data, some (PS.ok, 8, 0)) := by
  unfold State.endPress
  rw [hop]
  exact if_pos h

/-- The bits that a program which did not verify leaves set: not all of those it was to set. -/
def State.otpLeft (s : State) (x : PressOp) : Nat :=
  let v := x.data &&& s.fresh.1
  if (Mem.readLe s.nv.otp x.target 8 ||| v) &&& x.data = x.data then 0 else v

theorem endPress_otp_fails (hop : x.op = 5) (hver : f.verified = false)
    (hnew : Mem.readLe s.nv.otp x.target 8 ||| x.data ≠ Mem.readLe s.nv.otp x.target 8) :
    s.endPress x f = ((s.fresh.2.otpOr x.target (s.otpLeft x)).count Key.pressProgramFails,
      some (PS.programFail, 0, x.target % 2 ^ 32)) := by
  unfold State.endPress
  rw [hop]
  exact if_neg (not_or.2 ⟨by simp [hver], hnew⟩)

theorem State.otpOr_read (hinv : Inv s) (a v c : Nat) (h : c < a ∨ a + 8 ≤ c) :
    Mem.read (s.otpOr a v).nv.otp c = Mem.read s.nv.otp c :=
  Mem.read_writeLe_ne (otp_wf_of_memsWf hinv.2.1) h

theorem State.otpLeft_spec (hx : x.data < 2 ^ 64)
    (hnew : Mem.readLe s.nv.otp x.target 8 ||| x.data ≠ Mem.readLe s.nv.otp x.target 8) :
    let old := Mem.readLe s.nv.otp x.target 8
    s.otpLeft x < 2 ^ 64 ∧ (old ||| s.otpLeft x) ||| old = old ||| s.otpLeft x ∧
      (old ||| s.otpLeft x) ||| (old ||| x.data) = old ||| x.data ∧ (old ||| s.otpLeft x) &&& x.data ≠ x.data := by
  intro old
  have hold : (old ||| s.otpLeft x) ||| old = old ||| s.otpLeft x := by
    rw [Nat.or_comm, ← Nat.or_assoc, Nat.or_self]
  have hzero : (old ||| 0) &&& x.data ≠ x.data := by
    rw [Nat.or_zero]
    intro heq
    refine hnew (Nat.eq_of_testBit_eq fun j => ?_)
    have hbit := congrArg (fun n => n.testBit j) heq
    simp only [Nat.testBit_and, Nat.testBit_or] at hbit ⊢
    cases hb : x.data.testBit j
    · simp
    · simp only [hb, Bool.and_true] at hbit
      show (Nat.testBit old j || true) = Nat.testBit old j
      rw [hbit]
      rfl
  refine ⟨?_, hold, ?_, ?_⟩
  · unfold State.otpLeft
    dsimp only
    split
    · decide
    · exact Nat.lt_of_le_of_lt Nat.and_le_left hx
  · have hsub : s.otpLeft x ||| x.data = x.data := by
      unfold State.otpLeft
      dsimp only
      split
      · exact Nat.zero_or _
      · refine Nat.eq_of_testBit_eq fun j => ?_
        simp only [Nat.testBit_or, Nat.testBit_and]
        cases x.data.testBit j <;> simp
    refine Nat.eq_of_testBit_eq fun j => ?_
    have hbit := congrArg (fun n => n.testBit j) hsub
    simp only [Nat.testBit_or] at hbit ⊢
    cases ho : old.testBit j
    · simpa using hbit
    · simp
  · unfold State.otpLeft
    dsimp only
    split
    · exact hzero
    · next h => exact h

/-! ### ERASE_SECTOR (R586, R602, R620) -/

/-- Sectors beyond the boot region, erased one after another. -/
theorem foldl_eraseSectorAt (hwf : Mem.wf s.nv.aux = true) (l : List Nat) (h : ∀ n ∈ l, 674 ≤ n) : ∃ aux,
    l.foldl State.eraseSectorAt s = s.setNv { s.nv with aux := aux } ∧ Mem.wf aux = true ∧
      ∀ a, Mem.read aux a = if a / 8192 ∈ l then 0 else Mem.read s.nv.aux a := by
  induction l generalizing s with
  | nil => exact ⟨s.nv.aux, rfl, hwf, fun a => by simp⟩
  | cons n l ih =>
    have hn := h n (List.mem_cons_self ..)
    have hfirst : s.eraseSectorAt n = s.setNv { s.nv with aux := Mem.clear s.nv.aux (8192 * n) 8192 } := by
      unfold State.eraseSectorAt
      dsimp only
      rw [if_neg (by omega), if_neg (by omega), if_neg (by omega), if_neg (by omega)]
    rw [List.foldl_cons, hfirst]
    obtain ⟨aux, heq, haux, hread⟩ := ih (s := s.setNv { s.nv with aux := Mem.clear s.nv.aux (8192 * n) 8192 })
      (Mem.clear_wf _ _ _ hwf) fun m hm => h m (List.mem_cons_of_mem n hm)
    refine ⟨aux, heq, haux, fun a => ?_⟩
    rw [hread]
    by_cases hl : a / 8192 ∈ l
    · rw [if_pos hl, if_pos (List.mem_cons_of_mem n hl)]
    · rw [if_neg hl]
      refine (Mem.read_clear hwf _ _ _).trans ?_
      by_cases han : a / 8192 = n
      · rw [if_pos (by omega), if_pos (List.mem_cons.2 (.inl han))]
      · rw [if_neg (by omega), if_neg (fun hmem => (List.mem_cons.1 hmem).elim han hl)]

theorem endPress_sectors (hop : x.op = 2) (hver : f.verified = true) : s.endPress x f =
    (x.under.foldl State.eraseSectorAt s, if x.done + x.under.length < x.count then none else some (PS.ok, x.count, 0)) := by
  unfold State.endPress
  rw [hop]
  exact if_pos hver

/-- The descriptor goes on under its number, with what it has done. -/
theorem State.pressOn_aux (s : State) (hmem : x ∈ s.nv.press) (hmain : x.isMain = false) :
    s.RingOnly (s.pressOn x) ∧ ∃ y ∈ (s.pressOn x).nv.press, y.id = x.id ∧ y.done = x.done + x.under.length := by
  have hon : s.pressOn x = ((s.unitsEnd x).setOp { x with done := x.done + x.under.length, under := [] }).serveRing := by
    unfold State.pressOn
    simp only [hmain, Bool.false_eq_true, if_false]
  rw [hon]
  refine ⟨(State.RingOnly.unitsEnd s x).trans (.trans (.setOp _ _) (.serveRing _)), ?_⟩
  generalize hy : ({ x with done := x.done + x.under.length, under := [] } : PressOp) = y
  have hyid : y.id = x.id := by rw [← hy]
  have hydone : y.done = x.done + x.under.length := by rw [← hy]
  have hset : ∀ z ∈ ((s.unitsEnd x).setOp y).nv.press, z.id = x.id → z.done = x.done + x.under.length := by
    intro z hz hid
    obtain ⟨w, hw, rfl⟩ := List.mem_map.1 hz
    by_cases hwid : w.id = y.id
    · rw [if_pos hwid, hydone]
    · rw [if_neg hwid] at hid
      exact absurd (hid.trans hyid.symm) hwid
  have hunits : s.RingKeeps (fun _ => True) (s.unitsEnd x) :=
    .foldl (.ite (.of_press rfl) (.refl s)) fun _ _ _ => .of_press rfl
  have hserved := State.RingKeeps.serveRing (P := fun z => z.id = x.id → z.done = x.done + x.under.length)
    (fun _ _ h => h) (fun _ h => h) ((s.unitsEnd x).setOp y) hset
  have hids := hserved.ids.trans ((State.RingKeeps.setOp (P := fun _ => True) (s.unitsEnd x) (x := y) trivial).ids.trans
    hunits.ids)
  have hin : x.id ∈ ((s.unitsEnd x).setOp y).serveRing.nv.press.map PressOp.id := by
    rw [hids]
    exact List.mem_map_of_mem hmem
  obtain ⟨z, hz, hzid⟩ := List.mem_map.1 hin
  exact ⟨z, hz, hzid, hserved.all hset z hz hzid⟩

end Sys2Proof.Machine
end

section
/-! PROOFS. Press operations end: what each leaves, with its completion (13, R590, R602, R606 to R608, R620). -/

namespace Sys2Proof.Machine

variable {s t u : State} {x : PressOp} {id us : Nat} {f : PressFacts}

theorem State.Ends.of (hfind : (s.nv.press.find? fun y => y.id == id) = some x) (hrun : x.running = true)
    (hsus : x.suspended = false) (hsens : s.runSensing id = false) (hcore : s.coreOn = true)
    (hmain : x.isMain = true → s.pressing (nvGroup x.target) (.op id) = true) (haux : x.isAuxOp = true → x.under ≠ []) :
    s.Ends id x := by
  have hid : x.id = id := beq_iff_eq.1 (List.find?_some hfind :)
  refine ⟨hfind, ?_⟩
  unfold State.canEnd
  rw [hid, hrun, hsus, hsens, hcore]
  cases hm : x.isMain <;> cases ha : x.isAuxOp <;> simp_all

theorem isMain_of_other (h1 : x.op ≠ 1) (h3 : x.op ≠ 3) : x.isMain = false := by
  simp [PressOp.isMain, h1, h3]

theorem isAuxOp_of_other (h2 : x.op ≠ 2) (h3 : x.op ≠ 3) : x.isAuxOp = false := by
  simp [PressOp.isAuxOp, h2, h3]

theorem State.maxOf_press {k : Nat} (h : k = Key.pressProgramFails ∨ k = Key.pressSuspends ∨ k = Key.tlRefreshes ∨
    k = Key.tlRescues) : s.maxOf k = 0xFFFFFFFF := by
  rcases h with rfl | rfl | rfl | rfl <;> exact s.maxOf_of_card fun sku => by cases sku <;> decide

/-! ### OTP_PROGRAM -/

theorem otpVerified (hinv : Inv s) (hends : s.Ends id x) (hsrc : ∀ q, x.src ≠ .quire q) (hop : x.op = 5) :
    ∃ t, exec (.pressOpComplete id { timeUs := us }) s = .next t ∧
      Mem.readLe t.nv.otp x.target 8 = (Mem.readLe s.nv.otp x.target 8 ||| x.data) % 2 ^ 64 ∧
      (∀ a, a < x.target ∨ x.target + 8 ≤ a → Mem.read t.nv.otp a = Mem.read s.nv.otp a) ∧
      PressAnswered s t x.src (pressBytes x.desc PS.ok 8 0 us) ∧ (∀ y ∈ t.nv.press, y.id ≠ id) ∧ t.nv.lib = s.nv.lib ∧
      t.tiers = s.tiers := by
  have hexec := hends.complete (f := { timeUs := us }) (by omega) (endPress_otp hop (.inl rfl))
  have hleft := State.pressDone_left (s.otpOr x.target x.data) x hsrc PS.ok 8 0 us true
  refine ⟨_, hexec, ?_, fun a ha => ?_, PressAnswered.congr hleft.answered rfl rfl rfl,
    fun y hy => hends.id_eq ▸ hleft.gone y hy, hleft.lib, hleft.tiers⟩
  · rw [hleft.otp]
    exact Mem.readLe_writeLe_self (otp_wf_of_memsWf hinv.2.1) x.target 8 _
  · rw [hleft.otp]
    exact State.otpOr_read hinv _ _ _ ha

theorem otpUnverified (hinv : Inv s) (hends : s.Ends id x) (hsrc : ∀ q, x.src ≠ .quire q) (hop : x.op = 5)
    (hdata : x.data < 2 ^ 64) (hnew : Mem.readLe s.nv.otp x.target 8 ||| x.data ≠ Mem.readLe s.nv.otp x.target 8) :
    let old := Mem.readLe s.nv.otp x.target 8
    ∃ t, exec (.pressOpComplete id { timeUs := us, verified := false }) s = .next t ∧
      (let new := Mem.readLe t.nv.otp x.target 8; new ||| old = new ∧ new ||| (old ||| x.data) = old ||| x.data ∧
        new &&& x.data ≠ x.data) ∧
      (∀ a, a < x.target ∨ x.target + 8 ≤ a → Mem.read t.nv.otp a = Mem.read s.nv.otp a) ∧
      PressAnswered s t x.src (pressBytes x.desc PS.programFail 0 (x.target % 2 ^ 32) us) ∧
      t.rd Key.pressProgramFails = min (s.rd Key.pressProgramFails + 1) 0xFFFFFFFF := by
  intro old
  obtain ⟨hlt, hkeeps, hwithin, hfew⟩ := State.otpLeft_spec (s := s) hdata hnew
  have hexec := hends.complete (f := { timeUs := us, verified := false }) (by omega) (endPress_otp_fails hop rfl hnew)
  have hleft := State.pressDone_left ((s.fresh.2.otpOr x.target (s.otpLeft x)).count Key.pressProgramFails) x hsrc
    PS.programFail 0 (x.target % 2 ^ 32) us true
  have hfield : Mem.readLe (s.otpOr x.target (s.otpLeft x)).nv.otp x.target 8 = old ||| s.otpLeft x :=
    State.otpOr_field (otp_wf_of_memsWf hinv.2.1) x.target hlt
  refine ⟨_, hexec, ?_, fun a ha => ?_, PressAnswered.congr hleft.answered rfl rfl rfl, ?_⟩
  · dsimp only
    rw [hleft.otp, show ((s.fresh.2.otpOr x.target (s.otpLeft x)).count Key.pressProgramFails).nv.otp =
      (s.otpOr x.target (s.otpLeft x)).nv.otp from rfl, hfield]
    exact ⟨hkeeps, hwithin, hfew⟩
  · rw [hleft.otp]
    exact State.otpOr_read hinv _ _ _ ha
  · rw [hleft.rd]
    exact State.rd_count_up (s := s.fresh.2.otpOr x.target (s.otpLeft x)) hinv.1 (State.maxOf_press (.inl rfl))

/-! ### ERASE_SECTOR -/

theorem sectorsErased (hinv : Inv s) (hends : s.Ends id x) (hsrc : ∀ q, x.src ≠ .quire q) (hop : x.op = 2)
    (hsectors : ∀ n ∈ x.under, 674 ≤ n ∧ n < 1024) : ∃ t, exec (.pressOpComplete id { timeUs := us }) s = .next t ∧
      (∀ a, Mem.read t.nv.aux a = if a / 8192 ∈ x.under then 0 else Mem.read s.nv.aux a) ∧
      (x.count ≤ x.done + x.under.length → (∀ y ∈ t.nv.press, y.id ≠ id) ∧
        PressAnswered s t x.src (pressBytes x.desc PS.ok x.count 0 us)) ∧
      (x.done + x.under.length < x.count → ∃ y ∈ t.nv.press, y.id = id ∧ y.done = x.done + x.under.length) ∧
      t.nv.boot = s.nv.boot ∧ t.nv.otp = s.nv.otp ∧ t.tiers = s.tiers := by
  have haux : Mem.wf s.nv.aux = true := by
    have hmems := hinv.2.1
    simp only [memsWf, Bool.and_eq_true] at hmems
    simp only [hmems]
  obtain ⟨aux, heq, -, hread⟩ := foldl_eraseSectorAt haux x.under fun n hn => (hsectors n hn).1
  have hend := endPress_sectors (s := s) (f := { timeUs := us }) hop rfl
  rw [heq] at hend
  by_cases hmore : x.done + x.under.length < x.count
  · rw [if_pos hmore] at hend
    have hexec := hends.goesOn (by omega) hend
    obtain ⟨hring, hstays⟩ := State.pressOn_aux (s.setNv { s.nv with aux := aux })
      (List.mem_of_find?_eq_some hends.find) (isMain_of_other (by omega) (by omega))
    generalize (s.setNv { s.nv with aux := aux }).pressOn x = t at hexec hring hstays
    obtain ⟨press, moves, journal, units, tl, rfl⟩ := hring.frame
    exact ⟨_, hexec, hread, fun hle => absurd hmore (by omega), fun _ => hends.id_eq ▸ hstays, rfl, rfl, rfl⟩
  · rw [if_neg hmore] at hend
    have hexec := hends.complete (by omega) hend
    have hleft := State.pressDone_left (s.setNv { s.nv with aux := aux }) x hsrc PS.ok x.count 0 us true
    refine ⟨_, hexec, fun a => ?_, fun _ => ⟨fun y hy => hends.id_eq ▸ hleft.gone y hy,
      PressAnswered.congr hleft.answered rfl rfl rfl⟩, fun hlt => absurd hlt hmore, hleft.boot, hleft.otp, hleft.tiers⟩
    rw [hleft.aux]
    exact hread a

/-! ### ERASE_BLOCK (R602, R626, R639) -/

/-- `t` differs from `s` in blocks, pages, deferred erases and moves. -/
structure State.BlocksOnly (s t : State) : Prop where
  frame : ∃ blocks main dirty moves, t = s.setNv { s.nv with blocks := blocks, main := main, dirty := dirty, moves := moves }

theorem State.BlocksOnly.trans (h : s.BlocksOnly t) (h' : t.BlocksOnly u) : s.BlocksOnly u := by
  obtain ⟨blocks, main, dirty, moves, rfl⟩ := h.frame
  obtain ⟨blocks', main', dirty', moves', rfl⟩ := h'.frame
  exact ⟨_, _, _, _, rfl⟩

theorem State.queueMove_moves (s : State) (g b : Nat) (kind : MoveKind) : ∃ moves,
    s.queueMove g b kind = s.setNv { s.nv with moves := moves } := by
  unfold State.queueMove
  split
  · exact ⟨s.nv.moves, rfl⟩
  · exact ⟨_, rfl⟩

theorem State.wearCheck_moves (s : State) (g k : Nat) : ∃ moves, s.wearCheck g k = s.setNv { s.nv with moves := moves } := by
  unfold State.wearCheck
  dsimp only
  split
  · exact ⟨s.nv.moves, rfl⟩
  · split
    · exact s.queueMove_moves g _ _
    · exact ⟨s.nv.moves, rfl⟩

/-- A block erased: free, one cycle older. -/
def BlockRec.erased (x : BlockRec) : BlockRec := { state := .freeErased, cycles := x.cycles + 1 }

theorem State.eraseBlockAt_blocks (s : State) (g k n : Nat) : s.BlocksOnly (s.eraseBlockAt g k n) ∧
    (s.eraseBlockAt g k n).nv.blocks = Tab.set s.nv.blocks BlockRec.fresh ((g * 8 + k) * 18 + n) (s.block g k n).erased := by
  unfold State.eraseBlockAt
  dsimp only
  generalize hv : ((s.setBlock g k n { state := .freeErased, cycles := (s.block g k n).cycles + 1 }).erasePages g k n).setNv
    _ = v
  obtain ⟨moves, heq⟩ := v.wearCheck_moves g k
  rw [heq, ← hv]
  exact ⟨⟨_, _, _, _, rfl⟩, rfl⟩

theorem foldl_eraseBlockAt_only (s : State) (g n : Nat) (l : List Nat) :
    s.BlocksOnly (l.foldl (fun s k => s.eraseBlockAt g k n) s) :=
  List.foldlRecOn (motive := fun t => s.BlocksOnly t) l _ ⟨_, _, _, _, rfl⟩ fun t ht k _ =>
    ht.trans (t.eraseBlockAt_blocks g k n).1

theorem foldl_eraseBlockAt (g n : Nat) (l : List Nat) : ∀ {s : State}, Tab.rising 0 s.nv.blocks = true → l.Nodup →
    (∀ k ∈ l, k < 8) → ∀ k, k < 8 → (l.foldl (fun s k => s.eraseBlockAt g k n) s).block g k n =
      if k ∈ l then (s.block g k n).erased else s.block g k n := by
  induction l with
  | nil => exact fun _ _ _ k _ => by simp
  | cons j l ih =>
    intro s hrising hnodup hlt
    obtain ⟨hj, hnodup⟩ := List.nodup_cons.1 hnodup
    have hblocks := (s.eraseBlockAt_blocks g j n).2
    have hjlt := hlt j (List.mem_cons_self ..)
    have hfirst (k : Nat) (hk : k < 8) : (s.eraseBlockAt g j n).block g k n =
        if k = j then (s.block g j n).erased else s.block g k n := by
      rw [State.block, hblocks, Tab.get_set_of_rising _ _ _ _ hrising]
      exact ite_congr (propext (by omega)) (fun _ => rfl) fun _ => rfl
    have hrest := ih (s := s.eraseBlockAt g j n) (by rw [hblocks]; exact Tab.rising_set hrising _ _ _) hnodup
      fun k hk => hlt k (List.mem_cons_of_mem j hk)
    refine fun k hk => (hrest k hk).trans ?_
    rw [hfirst k hk]
    by_cases hkj : k = j
    · subst hkj
      rw [if_neg hj, if_pos rfl, if_pos (List.mem_cons_self ..)]
    · simp [hkj]

theorem nvBanks_nodup (n : Nat) : (nvBanks n).Nodup := by
  unfold nvBanks
  split
  · exact List.nodup_range
  · exact List.nodup_singleton _

theorem nvBanks_lt {n k : Nat} (hk : k ∈ nvBanks n) (hlt : k < 8) : ∀ j ∈ nvBanks n, j < 8 := by
  unfold nvBanks at *
  split at hk <;> simp_all

theorem rising_blocks (hinv : Inv s) : Tab.rising 0 s.nv.blocks = true := by
  have htabs := hinv.2.2
  simp only [tabsRising, Bool.and_eq_true] at htabs
  simp only [htabs]

/-- The blocks that an erase of `t` takes, erased. -/
def State.eraseFree (s : State) (t : Nat) : State :=
  ((nvBanks t).filter fun k => (s.block (nvGroup t) k (nvBlock t)).state != .inUse &&
    (s.block (nvGroup t) k (nvBlock t)).state != .bad).foldl (fun s k => s.eraseBlockAt (nvGroup t) k (nvBlock t)) s

theorem State.eraseFree_only (s : State) (t : Nat) : s.BlocksOnly (s.eraseFree t) := foldl_eraseBlockAt_only s _ _ _

theorem blocksErased (hinv : Inv s) (hends : s.Ends id x) (hsrc : ∀ q, x.src ≠ .quire q) (hop : x.op = 1) :
    ∃ t, exec (.pressOpComplete id { timeUs := us }) s = .next t ∧
      PressAnswered s t x.src (pressBytes x.desc PS.ok 0 0 us) ∧
      (∀ k ∈ nvBanks x.target, k < 8 → nvBlock x.target < 18 →
        let b := s.block (nvGroup x.target) k (nvBlock x.target)
        b.state ≠ .inUse → b.state ≠ .bad →
          t.block (nvGroup x.target) k (nvBlock x.target) = { state := .freeErased, cycles := b.cycles + 1 }) ∧
      t.nv.lib = s.nv.lib ∧ t.nv.otp = s.nv.otp ∧ t.tiers = s.tiers := by
  have hend : s.endPress x { timeUs := us } = (s.eraseFree x.target, some (PS.ok, 0, 0)) := by
    unfold State.endPress
    rw [hop]
    rfl
  have hexec := hends.complete (by omega) hend
  have hleft := State.pressDone_left (s.eraseFree x.target) x hsrc PS.ok 0 0 us true
  have hblock (k : Nat) (hk : k ∈ nvBanks x.target) (hlt : k < 8)
      (hfree : (s.block (nvGroup x.target) k (nvBlock x.target)).state ≠ .inUse)
      (hgood : (s.block (nvGroup x.target) k (nvBlock x.target)).state ≠ .bad) :
      (s.eraseFree x.target).block (nvGroup x.target) k (nvBlock x.target) =
        (s.block (nvGroup x.target) k (nvBlock x.target)).erased := by
    refine (foldl_eraseBlockAt (nvGroup x.target) (nvBlock x.target) _ (rising_blocks hinv) ((nvBanks_nodup _).filter _)
      (fun j hj => nvBanks_lt hk hlt j (List.mem_filter.1 hj).1) k hlt).trans (if_pos (List.mem_filter.2 ⟨hk, ?_⟩))
    simp [hfree, hgood]
  obtain ⟨blocks, main, dirty, moves, heq⟩ := (s.eraseFree_only x.target).frame
  refine ⟨_, hexec, ?_, fun k hk hlt _ => ?_, ?_, ?_, ?_⟩
  · rw [heq] at hleft ⊢
    exact PressAnswered.congr hleft.answered rfl rfl rfl
  · intro b hfree hgood
    exact (hleft.block _ _ _).trans (hblock k hk hlt hfree hgood)
  · rw [hleft.lib, heq]
    rfl
  · rw [hleft.otp, heq]
    rfl
  · rw [hleft.tiers, heq]
    rfl

end Sys2Proof.Machine
end

section
/-! PROOFS. A finished band move switches the block tables, and the descriptor that asked for it completes (13, R631 to
R635). -/

namespace Sys2Proof.Machine

variable {s t u : State} {x : PressOp} {id us : Nat} {m : BandMove}

/-! ### The remap (R633) -/

/-- `t` differs from `s` in pages, block tables, blocks and deferred erases. -/
structure State.TablesOnly (s t : State) : Prop where
  frame : ∃ main tab blocks dirty,
    t = s.setNv { s.nv with main := main, blockTab := tab, blocks := blocks, dirty := dirty }

namespace State.TablesOnly

theorem refl (s : State) : s.TablesOnly s := ⟨_, _, _, _, rfl⟩

theorem trans (h : s.TablesOnly t) (h' : t.TablesOnly u) : s.TablesOnly u := by
  obtain ⟨main, tab, blocks, dirty, rfl⟩ := h.frame
  obtain ⟨main', tab', blocks', dirty', rfl⟩ := h'.frame
  exact ⟨_, _, _, _, rfl⟩

theorem foldl {α : Type} {f : State → α → State} {l : List α} (h : s.TablesOnly t)
    (hf : ∀ (u : State) (a : α), u.TablesOnly (f u a)) : s.TablesOnly (l.foldl f t) :=
  List.foldlRecOn (motive := fun u => s.TablesOnly u) l f h fun u hu a _ => hu.trans (hf u a)

theorem copyBlock (s : State) (g k src dst rows : Nat) : s.TablesOnly (s.copyBlock g k src dst rows) :=
  ⟨_, s.nv.blockTab, s.nv.blocks, s.nv.dirty, rfl⟩

theorem mapBlock (s : State) (g k b n : Nat) : s.TablesOnly (s.mapBlock g k b n) := ⟨s.nv.main, _, s.nv.blocks, s.nv.dirty, rfl⟩

theorem dirtyBlock (s : State) (g k n : Nat) : s.TablesOnly (s.dirtyBlock g k n) := ⟨s.nv.main, s.nv.blockTab, _, _, rfl⟩

end State.TablesOnly

theorem foldl_mapBlock (g b : Nat) (dest : Nat → Nat) (hrising : Tab.rising 0 s.nv.blockTab = true) (n : Nat) :
    Tab.rising 0 ((List.range n).foldl (fun s k => s.mapBlock g k b (dest k)) s).nv.blockTab = true ∧
      ∀ k, k < n → ((List.range n).foldl (fun s k => s.mapBlock g k b (dest k)) s).mappedBlock g k b = dest k := by
  induction n with
  | zero => exact ⟨hrising, fun k hk => absurd hk (Nat.not_lt_zero k)⟩
  | succ n ih =>
    obtain ⟨hris, hmapped⟩ := ih
    rw [List.range_succ, List.foldl_append]
    generalize (List.range n).foldl (fun s k => s.mapBlock g k b (dest k)) s = v at hris hmapped
    refine ⟨Tab.rising_set hris _ _ _, fun k hk => ?_⟩
    have hget : (v.mapBlock g n b (dest n)).mappedBlock g k b = if k = n then dest n else v.mappedBlock g k b := by
      refine (Tab.get_set_of_rising b _ _ _ hris).trans ?_
      exact ite_congr (propext (by omega)) (fun _ => rfl) fun _ => rfl
    rw [List.foldl_cons, List.foldl_nil, hget]
    by_cases hkn : k = n
    · rw [if_pos hkn, hkn]
    · rw [if_neg hkn]
      exact hmapped k (by omega)

/-- The state of the block tables after a finished move. -/
def State.remapTables (s : State) (m : BandMove) : State :=
  let old := (List.range 8).map fun k => s.mappedBlock m.group k m.band
  let used := (s.bandOf m.group m.band).used
  let s := (List.range 8).foldl (fun s k => s.copyBlock m.group k (old.getD k 0) (m.dest.getD k 0) used) s
  let s := (List.range 8).foldl (fun s k => s.mapBlock m.group k m.band (m.dest.getD k 0)) s
  (List.range 8).foldl (fun s k => s.dirtyBlock m.group k (old.getD k 0)) s

/-- The read count of a band after its move. -/
def Band.renewed (x : Band) : Band := { x with reads := 0, overRated := false }

theorem State.remap_eq (s : State) (m : BandMove) : s.remap m =
    ((((s.remapTables m).setBand m.group m.band ((s.remapTables m).bandOf m.group m.band).renewed).setNv
      { ((s.remapTables m).setBand m.group m.band ((s.remapTables m).bandOf m.group m.band).renewed).nv with
        moves := (s.remapTables m).nv.moves.filter fun x => !(x.group == m.group && x.band == m.band) }).jEnd jMove
          (m.group * 16 + m.band)).count Key.tlRefreshes := rfl

theorem State.remapTables_only (s : State) (m : BandMove) : s.TablesOnly (s.remapTables m) :=
  .foldl (.foldl (.foldl (.refl s) fun u k => .copyBlock u _ k _ _ _) fun u k => .mapBlock u _ k _ _) fun u k =>
    .dirtyBlock u _ k _

theorem State.remapTables_mapped (hinv : Inv s) {k : Nat} (hk : k < 8) :
    (s.remapTables m).mappedBlock m.group k m.band = m.dest.getD k 0 := by
  have htabs := hinv.2.2
  simp only [tabsRising, Bool.and_eq_true] at htabs
  have hrising : Tab.rising 0 s.nv.blockTab = true := by simp only [htabs]
  unfold State.remapTables
  extract_lets old used s1 s2
  have hcopied : s1.nv.blockTab = s.nv.blockTab :=
    List.foldlRecOn (motive := fun u : State => u.nv.blockTab = s.nv.blockTab) _ _ rfl fun u hu k _ => hu
  have hmapped := (foldl_mapBlock (s := s1) m.group m.band (fun k => m.dest.getD k 0) (by rw [hcopied]; exact hrising)
    8).2 k hk
  have hdirty : ((List.range 8).foldl (fun s k => s.dirtyBlock m.group k (old.getD k 0)) s2).nv.blockTab = s2.nv.blockTab :=
    List.foldlRecOn (motive := fun u : State => u.nv.blockTab = s2.nv.blockTab) _ _ rfl fun u hu k _ => hu
  rw [State.mappedBlock, hdirty]
  exact hmapped

/-- What a finished move leaves. -/
structure State.Remapped (s : State) (m : BandMove) (t : State) : Prop where
  press : t.nv.press = s.nv.press
  out : t.out = s.out
  mapped : ∀ k, k < 8 → t.mappedBlock m.group k m.band = m.dest.getD k 0
  band : t.bandOf m.group m.band = (s.bandOf m.group m.band).renewed
  moves : ∀ y ∈ t.nv.moves, ¬ (y.group = m.group ∧ y.band = m.band)
  count : t.rd Key.tlRefreshes = min (s.rd Key.tlRefreshes + 1) 0xFFFFFFFF
  wf : valsWf t.sku 0 t.dict.vals = true

/-- The store after a finished move. -/
theorem State.remap_nv (s : State) (m : BandMove) : ∃ n : Nv, s.remap m = (s.setNv n).count Key.tlRefreshes ∧
    n.press = s.nv.press ∧ n.blockTab = (s.remapTables m).nv.blockTab ∧
    n.bands = Tab.set s.nv.bands Band.fresh (m.group * 16 + m.band) (s.bandOf m.group m.band).renewed ∧
    n.moves = s.nv.moves.filter fun x => !(x.group == m.group && x.band == m.band) := by
  obtain ⟨main, tab, blocks, dirty, heq⟩ := (s.remapTables_only m).frame
  rw [State.remap_eq, heq]
  exact ⟨_, rfl, rfl, rfl, rfl, rfl⟩

theorem State.remap_remapped (hinv : Inv s) : s.Remapped m (s.remap m) := by
  have htabs := hinv.2.2
  simp only [tabsRising, Bool.and_eq_true] at htabs
  have hbands : Tab.rising 0 s.nv.bands = true := by simp only [htabs]
  obtain ⟨n, heq, hpress, htab, hband, hmoves⟩ := s.remap_nv m
  have hwf : valsWf (s.setNv n).sku 0 (s.setNv n).dict.vals = true := hinv.1
  have hcount : ((s.setNv n).count Key.tlRefreshes).nv = n := rfl
  rw [heq]
  refine ⟨?_, rfl, fun k hk => ?_, ?_, fun y hy => ?_, ?_, State.wr_wf _ _ _ hwf⟩
  · rw [hcount, hpress]
  · rw [State.mappedBlock, hcount, htab]
    exact State.remapTables_mapped hinv hk
  · rw [State.bandOf, hcount, hband, Tab.get_set_of_rising Band.fresh _ _ _ hbands, if_pos rfl]
  · rw [hcount, hmoves] at hy
    simpa [imp_iff_not_or] using (List.mem_filter.1 hy).2
  · exact State.rd_count_up hwf (State.maxOf_press (.inr (.inr (.inl rfl))))

/-- The counts of a move that is no wear move, with nothing lost. -/
theorem State.countMove_remapped (h : s.Remapped m t) (hkind : m.kind = .refresh) : s.Remapped m (t.countMove m []) := by
  unfold State.countMove
  rw [hkind]
  simp only [reduceCtorEq, if_false, List.filter_nil, List.foldl_nil]
  split
  · refine ⟨h.press, h.out, h.mapped, h.band, h.moves, ?_, State.wr_wf _ _ _ h.wf⟩
    exact (State.rd_wr_other h.wf _ (by decide)).trans h.count
  · exact h

/-! ### The descriptors that asked for the move (R635) -/

/-- Two completions of one descriptor: the command block shows the later one, and the first was sent. -/
theorem State.PressLeft.again {first later : List Byte} (h : s.PressLeft x first t) (h' : t.PressLeft x later u) :
    s.PressLeft x first u ∨ s.PressLeft x later u := by
  have hring : ∃ d out n, State.RingOnly { s with dict := d, out := out, freeCtr := n } u := by
    obtain ⟨d, out, n, press, moves, journal, units, tl, rfl⟩ := h.ring
    obtain ⟨d', out', n', press', moves', journal', units', tl', rfl⟩ := h'.ring
    exact ⟨d', out', n', _, _, _, _, _, rfl⟩
  have hvals := h'.vals.trans h.vals
  obtain ⟨-, -, hfirst, -⟩ := h
  obtain ⟨-, -, hlater, hgone⟩ := h'
  unfold PressAnswered at hfirst hlater
  cases hkey : submitKey x.src with
  | some k =>
    rw [hkey] at hlater
    exact .inr ⟨hring, hvals, by unfold PressAnswered; rw [hkey]; exact hlater, hgone⟩
  | none =>
    rw [hkey] at hfirst hlater
    obtain ⟨l, hl⟩ := hfirst
    obtain ⟨l', hl'⟩ := hlater
    refine .inl ⟨hring, hvals, ?_, hgone⟩
    unfold PressAnswered
    rw [hkey]
    exact ⟨l ++ Output.pressCompletion later :: l', by rw [hl', hl]; simp⟩

/-- What a REFRESH_MOVE completes with once its band is moved. -/
def State.moveEnds (rows : Nat) (s : State) (x : PressOp) : State := s.fresh.2.pressDone x PS.ok rows 0 s.fresh.1 true

theorem State.moveEnds_left (s : State) (hsrc : ∀ q, x.src ≠ .quire q) (rows : Nat) :
    s.PressLeft x (pressBytes x.desc PS.ok rows 0 s.fresh.1) (s.moveEnds rows x) := by
  obtain ⟨⟨d, out, n, hring⟩, hvals, hanswered, hgone⟩ :=
    State.pressDone_left s.fresh.2 x hsrc PS.ok rows 0 s.fresh.1 true
  exact ⟨⟨d, out, n, hring⟩, hvals, hanswered, hgone⟩

/-- A ring of this one descriptor is empty afterwards, and no move is queued. -/
theorem State.moveEnds_moves (s : State) (hsrc : ∀ q, x.src ≠ .quire q) (hmain : x.isMain = false)
    (hall : ∀ y ∈ s.nv.press, y.id = x.id) (rows : Nat) : (s.moveEnds rows x).nv.moves = s.nv.moves ∧
      ∀ y ∈ (s.moveEnds rows x).nv.press, y.id = x.id := by
  have hdropped : (dropOp s.fresh.2 x.id).nv.press = [] :=
    List.filter_eq_nil_iff.2 fun y hy => by simp [hall y hy]
  have hunits : ((dropOp s.fresh.2 x.id).unitsEnd x).nv.press = [] ∧
      ((dropOp s.fresh.2 x.id).unitsEnd x).nv.moves = s.nv.moves := by
    unfold State.unitsEnd
    simp only [hmain, Bool.false_eq_true, if_false]
    exact List.foldlRecOn (motive := fun u : State => u.nv.press = [] ∧ u.nv.moves = s.nv.moves) _ _ ⟨hdropped, rfl⟩
      fun u hu k _ => hu
  obtain ⟨hpress, hmoves⟩ := hunits
  unfold State.moveEnds State.pressDone
  dsimp only
  rw [State.pressSignal_of_engine _ hsrc, ite_self]
  obtain ⟨cmds, out, hframe⟩ := State.pressAnswer_frame ((dropOp s.fresh.2 x.id).unitsEnd x) x.src
    (pressBytes x.desc PS.ok rows 0 s.fresh.1)
  rw [hframe]
  generalize (dropOp s.fresh.2 x.id).unitsEnd x = v at hpress hmoves
  have hserved : ({ v with dict := { v.dict with cmds := cmds }, out := out } : State).serveRing =
      { v with dict := { v.dict with cmds := cmds }, out := out } := by
    unfold State.serveRing
    simp only [hpress, List.foldl_nil]
  rw [hserved]
  exact ⟨hmoves, fun y hy => by simp [hpress] at hy⟩

/-- All copies of the descriptor complete. -/
theorem foldl_moveEnds (hsrc : ∀ q, x.src ≠ .quire q) (hmain : x.isMain = false) (rows : Nat) (l : List PressOp) :
    ∀ {s : State}, (∀ y ∈ s.nv.press, y.id = x.id) → (∀ y ∈ l, y = x) → l ≠ [] →
      (∃ us, s.PressLeft x (pressBytes x.desc PS.ok rows 0 us) (l.foldl (State.moveEnds rows) s)) ∧
        (l.foldl (State.moveEnds rows) s).nv.moves = s.nv.moves := by
  induction l with
  | nil => exact fun _ _ hne => absurd rfl hne
  | cons y l ih =>
    intro s hall hl _
    have hy := hl y (List.mem_cons_self ..)
    subst hy
    have hleft := s.moveEnds_left hsrc rows
    obtain ⟨hmoves, hall'⟩ := s.moveEnds_moves hsrc hmain hall rows
    rw [List.foldl_cons]
    by_cases hnil : l = []
    · subst hnil
      exact ⟨⟨_, hleft⟩, hmoves⟩
    · obtain ⟨⟨us, hrest⟩, hmoves'⟩ := ih (s := s.moveEnds rows y) hall' (fun z hz => hl z (List.mem_cons_of_mem y hz)) hnil
      refine ⟨?_, hmoves'.trans hmoves⟩
      rcases hleft.again hrest with h | h
      · exact ⟨_, h⟩
      · exact ⟨_, h⟩

/-- The group of a move. -/
theorem State.remapDue_group {g : Nat} (h : s.remapDue g = some m) : m.group = g := by
  unfold State.remapDue at h
  split at h
  · next m' hm =>
    split at h
    · cases h
      exact beq_iff_eq.1 (List.find?_some hm :)
    · cases h
  · cases h

theorem remapCompletes (hinv : Inv s) (hfind : (s.nv.press.find? fun y => y.id == id) = some x) (hrun : x.running = true)
    (hsrc : ∀ q, x.src ≠ .quire q) (g : GroupNum) (hdue : s.remapDue g.val = some m) (hop : x.op = 6)
    (htarget : x.target = g.val + 16 * m.band) (hall : ∀ y ∈ s.nv.press, y = x) (hkind : m.kind = .refresh) : ∃ t us,
    exec (.refreshRemap g []) s = .next t ∧ (∀ k, k < 8 → t.mappedBlock g.val k m.band = m.dest.getD k 0) ∧
      (t.bandOf g.val m.band).reads = 0 ∧ (t.bandOf g.val m.band).used = (s.bandOf g.val m.band).used ∧
      (∀ y ∈ t.nv.moves, ¬ (y.group = g.val ∧ y.band = m.band)) ∧
      t.rd Key.tlRefreshes = min (s.rd Key.tlRefreshes + 1) 0xFFFFFFFF ∧
      PressAnswered s t x.src (pressBytes x.desc PS.ok (s.bandOf g.val m.band).used 0 us) := by
  have hgroup := State.remapDue_group hdue
  have hglt : g.val < 12 := g.isLt
  have hmain := isMain_of_other (x := x) (by omega) (by omega)
  obtain ⟨hpress, hout, hmapped, hband, hmoves, hcount, -⟩ := State.countMove_remapped (State.remap_remapped hinv (m := m)) hkind
  have heq : refreshRemap g [] s = ((s.nv.press.filter fun y => y.asksMove g.val m.band).foldl
      (State.moveEnds (s.bandOf g.val m.band).used) ((s.remap m).countMove m [])) := by
    unfold refreshRemap
    rw [hdue]
    dsimp only
    rw [hpress]
    rfl
  generalize (s.remap m).countMove m [] = v at hpress hout hmapped hband hmoves hcount heq
  rw [hgroup] at hmapped hband hmoves
  have hasks : x.asksMove g.val m.band = true := by
    unfold PressOp.asksMove
    rw [hrun, hop, htarget, show (g.val + 16 * m.band) % 16 = g.val by omega,
      show (g.val + 16 * m.band) / 16 = m.band by omega]
    simp
  have hne : (s.nv.press.filter fun y => y.asksMove g.val m.band) ≠ [] :=
    List.ne_nil_of_mem (List.mem_filter.2 ⟨List.mem_of_find?_eq_some hfind, hasks⟩)
  obtain ⟨⟨us, hleft⟩, hkept⟩ := foldl_moveEnds hsrc hmain (s.bandOf g.val m.band).used
    (s.nv.press.filter fun y => y.asksMove g.val m.band) (s := v) (fun y hy => by rw [hall y (hpress ▸ hy)])
    (fun y hy => hall y (List.mem_filter.1 hy).1) hne
  rw [← heq] at hleft hkept
  obtain ⟨press, moves, journal, units, hnv⟩ := hleft.nv
  refine ⟨_, us, rfl, fun k hk => ?_, ?_, ?_, fun y hy => ?_, ?_, PressAnswered.congr hleft.answered hout.symm rfl rfl⟩
  · rw [State.mappedBlock, hnv]
    exact hmapped k hk
  · rw [State.bandOf, hnv]
    show (v.bandOf g.val m.band).reads = 0
    rw [hband]
    rfl
  · rw [State.bandOf, hnv]
    show (v.bandOf g.val m.band).used = _
    rw [hband]
    rfl
  · rw [hkept] at hy
    exact hmoves y hy
  · rw [hleft.rd]
    exact hcount

theorem pressCompletionsClause : PressCompletionsClause := by
  intro s id x us hinv hfind hrun hsus hsens hcore hsame hops
  have hsource (hop : x.op ≠ 4) := source_of_op hops hop
  refine ⟨fun hop => ?_, fun hop hdata => ?_, fun hop hunder hsectors => ?_, fun hop haux hpressing => ?_,
    fun g m hdue hdest hband hop htarget hall hkind => ?_⟩
  · exact otpVerified hinv (.of hfind hrun hsus hsens hcore
      (fun h => by rw [isMain_of_other (by omega) (by omega)] at h; cases h)
      fun h => by rw [isAuxOp_of_other (by omega) (by omega)] at h; cases h) (hsource (by omega)) hop
  · exact otpUnverified hinv (.of hfind hrun hsus hsens hcore
      (fun h => by rw [isMain_of_other (by omega) (by omega)] at h; cases h)
      fun h => by rw [isAuxOp_of_other (by omega) (by omega)] at h; cases h) (hsource (by omega)) hop hdata
  · exact sectorsErased hinv (.of hfind hrun hsus hsens hcore
      (fun h => by rw [isMain_of_other (by omega) (by omega)] at h; cases h) fun _ => hunder) (hsource (by omega)) hop
      hsectors
  · exact blocksErased hinv (.of hfind hrun hsus hsens hcore (fun _ => hpressing)
      fun h => by rw [isAuxOp_of_other (by omega) (by omega)] at h; cases h) (hsource (by omega)) hop
  · exact remapCompletes hinv hfind hrun (hsource (by omega)) g hdue hop htarget hall hkind

end Sys2Proof.Machine
end

section
/-! PROOFS. A read suspends a press operation, and firmware is staged and updated (13, R621, R623, R651 to R653). -/

namespace Sys2Proof.Machine

variable {s t : State} {x : PressOp}

/-! ### Suspend and resume (R621, R623) -/

theorem exec_pressSuspend_of_one (hinv : Inv s) {pair : Fin 4} (hpress : s.nv.press = [x])
    (hpair : x.onPair pair.val = true) (hsus : x.suspended = false) :
    ∃ t, exec (.pressSuspend pair) s = .next t ∧ t.nv = { s.nv with press := [{ x with suspended := true }] } ∧
      t.rd Key.pressSuspends = min (s.rd Key.pressSuspends + 1) 0xFFFFFFFF ∧ t.tiers = s.tiers ∧ t.out = s.out := by
  have hop : pressSuspend pair s =
      (s.setNv { s.nv with press := [{ x with suspended := true }] }).count Key.pressSuspends := by
    unfold pressSuspend
    simp [hpress, hpair, hsus]
  exact ⟨_, congrArg Host.Outcome.next hop, rfl,
    State.rd_count_up (s := s.setNv { s.nv with press := [{ x with suspended := true }] }) hinv.1
      (State.maxOf_press (.inr (.inl rfl))), rfl, rfl⟩

theorem exec_pressResume_of_one {pair : Fin 4} (hpress : s.nv.press = [x]) (hpair : x.onPair pair.val = true)
    (hsus : x.suspended = true) :
    exec (.pressResume pair) s = .next (s.setNv { s.nv with press := [{ x with suspended := false }] }) := by
  refine congrArg Host.Outcome.next ?_
  unfold pressResume
  simp [hpress, hpair, hsus]

/-! ### The commands' cards -/

def fwStageCard : Card := ⟨.abs, 0x1619, 0x1619, 0, 0, .bytes 256, .wo, .none, .h, .v, .cold, 0⟩
def fwUpdateCard : Card := ⟨.abs, 0x161A, 0x161A, 0, 0, .cmd 8 4, .cmd, .h, .h, .v, .cold, 0⟩

theorem cardOf_firmware (sku : Sku) : cardOf sku 0x1619 0 = some fwStageCard ∧ cardOf sku 0x161A 0 = some fwUpdateCard := by
  cases sku <;> decide

theorem exec_fwStageData_of_write {role : Role} {v : List Byte} {st : Nat} (hs : Serving s)
    (hallowed : Allowed s role Key.fwStageData v.length) (hwrite : fwStageWrite v s = (st, t)) (hst : st ≠ DS.role) :
    exec (.fwStageData role v) s = .next (t.answer st) :=
  nextOf (dictRequest_highCold hs hallowed (cardOf_firmware s.sku).1 (by decide) rfl rfl rfl hwrite hst)

theorem exec_fwUpdate_of_write {role : Role} {arg : List Byte} {env : Env} {st : Nat} (hs : Serving s)
    (hallowed : Allowed s role Key.fwUpdate arg.length) (hwrite : fwUpdateWrite arg env s = (st, t))
    (hst : st ≠ DS.role) : exec (.fwUpdate role arg env) s = .next (t.answer st) :=
  nextOf (dictRequest_highCold hs hallowed (cardOf_firmware s.sku).2 (by decide) rfl rfl rfl hwrite hst)

/-! ### Staging (R651) -/

theorem getD_bytesAt {l : List Byte} {n i : Nat} (hi : i < n) : (bytesAt l 0 n).getD i 0 = l.getD i 0 := by
  simp [bytesAt, hi]

theorem length_bytesAt (l : List Byte) (o n : Nat) : (bytesAt l o n).length = n := by simp [bytesAt]

theorem read_staged (hinv : Inv s) (v : List Byte) (o a : Nat) :
    Mem.read (Mem.writeL s.nv.fwStage o (bytesAt v 0 256)) a =
      if o ≤ a ∧ a < o + 256 then v.getD (a - o) 0 else Mem.read s.nv.fwStage a := by
  rw [Mem.read_writeL _ _ _ _ (s.canonical_iff.2 hinv).nv.fwStage, length_bytesAt]
  split
  case isTrue h => exact getD_bytesAt (by omega)
  case isFalse => rfl

theorem exec_fwStageData (hinv : Inv s) {role : Role} {v : List Byte} (hs : Serving s)
    (hallowed : Allowed s role Key.fwStageData v.length) (hidle : s.cmdRunning Key.fwUpdate = false)
    (ho : s.rd Key.fwStageOffset ≤ 655104) :
    ∃ t, exec (.fwStageData role v) s = .next t ∧ t.rd Key.fwStageOffset = s.rd Key.fwStageOffset + 256 ∧
      (∀ a, Mem.read t.nv.fwStage a = if s.rd Key.fwStageOffset ≤ a ∧ a < s.rd Key.fwStageOffset + 256
        then v.getD (a - s.rd Key.fwStageOffset) 0 else Mem.read s.nv.fwStage a) ∧
      t.nv.boot = s.nv.boot ∧ t.tiers = s.tiers ∧ t.out = s.out ++ [.status DS.ok] := by
  have hread := read_staged hinv v (s.rd Key.fwStageOffset)
  have hwrite : fwStageWrite v s = (DS.ok, (s.setNv { s.nv with
      fwStage := Mem.writeL s.nv.fwStage (s.rd Key.fwStageOffset) (bytesAt v 0 256) }).wr Key.fwStageOffset
        (s.rd Key.fwStageOffset + 256)) := by
    unfold fwStageWrite
    rw [if_neg (not_lt.2 ho), if_neg (by simp [hidle])]
  generalize Mem.writeL s.nv.fwStage (s.rd Key.fwStageOffset) (bytesAt v 0 256) = m at hread hwrite
  exact ⟨_, exec_fwStageData_of_write hs hallowed hwrite (by decide),
    State.rd_wr_same (s := s.setNv { s.nv with fwStage := m }) hinv.1 _ _, hread, rfl, rfl, rfl⟩

/-! ### Update (R652, R653) -/

/-- The slot that takes an image takes it from address 0 on, and the other slot stays. -/
theorem BootRegion.putSlot_cases (b : BootRegion) (toB : Bool) {img : Mem} {len : Nat} (himg : Mem.wf img = true) :
    ∃ m, (∀ a, a < len → Mem.read m a = Mem.read img a) ∧
      b.putSlot toB img len = if toB then { b with slotB := some m } else { b with slotA := some m } := by
  refine ⟨Mem.slice img 0 (8192 * ceilDiv len 8192), fun a ha => ?_, rfl⟩
  rw [Mem.read_slice himg, if_pos (by unfold ceilDiv; omega), Nat.zero_add]

/-- An update writes one copy of the commit record, one above the other's sequence number (R652). -/
theorem BootRegion.commitSlot_cases (b : BootRegion) (toB : Bool) :
    b.commitSlot toB = { b with copy0 := ⟨toB, b.copy1.seq + 1, true⟩ } ∨
    b.commitSlot toB = { b with copy1 := ⟨toB, b.copy0.seq + 1, true⟩ } := by
  unfold BootRegion.commitSlot
  dsimp only
  split
  · exact .inl rfl
  · exact .inr rfl

/-- The state that a committed update leaves, before its answer. -/
def State.updated (s : State) (arg : List Byte) : State :=
  let len := fieldLe arg 0 4
  let toB := s.rd Key.bootSlot == 0
  (s.setNv { s.nv with boot := (s.nv.boot.putSlot toB s.nv.fwStage len).commitSlot toB }).cmdDone Key.fwUpdate DS.ok
    (natLe 1 (if toB then 1 else 0) ++ [0] ++ natLe 2 (ceilDiv len 8192))

/-- The card that an update answers when it is refused before the slot is erased. -/
def State.refusesImage (s : State) : State :=
  s.cmdDone Key.fwUpdate DS.state (natLe 1 (if s.rd Key.bootSlot == 0 then 1 else 0) ++ [0] ++ natLe 2 0)

section update

variable {arg : List Byte} {env : Env} (hidle : s.cmdRunning Key.fwUpdate = false) (hflags : fieldLe arg 4 1 = 0)
  (hres : fieldLe arg 5 3 = 0)

theorem fwUpdateWrite_range (hlen : fieldLe arg 0 4 = 0 ∨ 655360 < fieldLe arg 0 4) :
    fwUpdateWrite arg env s = (DS.range, s) := by
  unfold fwUpdateWrite
  exact if_pos (hlen.imp_right .inl)

include hidle hflags hres

theorem fwUpdateWrite_refused (hlen : 1 ≤ fieldLe arg 0 4) (hmax : fieldLe arg 0 4 ≤ 655360)
    (himg : s.imageOk s.nv.fwStage (fieldLe arg 0 4) = false) : fwUpdateWrite arg env s = (DS.ok, s.refusesImage) := by
  unfold fwUpdateWrite
  dsimp only
  rw [if_neg (by omega), State.ifIdle_of_idle _ _ _ hidle, if_pos (by simp [himg])]
  rfl

theorem fwUpdateWrite_commits (hlen : 1 ≤ fieldLe arg 0 4) (hmax : fieldLe arg 0 4 ≤ 655360)
    (hback : env.readBack = true) (himg : s.imageOk s.nv.fwStage (fieldLe arg 0 4) = true) :
    fwUpdateWrite arg env s = (DS.ok, s.updated arg) := by
  unfold fwUpdateWrite
  dsimp only
  rw [if_neg (by omega), State.ifIdle_of_idle _ _ _ hidle, if_neg (by simp [himg]), if_neg (by simp [hback]),
    if_neg (by simp [hflags])]
  rfl

end update

theorem State.updated_boot (hinv : Inv s) (arg : List Byte) :
    let b := s.nv.boot
    let toB := s.rd Key.bootSlot = 0
    ∃ img, (toB → (s.updated arg).nv.boot.slotB = some img ∧ (s.updated arg).nv.boot.slotA = b.slotA) ∧
      (¬ toB → (s.updated arg).nv.boot.slotA = some img ∧ (s.updated arg).nv.boot.slotB = b.slotB) ∧
      (∀ a, a < fieldLe arg 0 4 → Mem.read img a = Mem.read s.nv.fwStage a) ∧
      (((s.updated arg).nv.boot.copy0 = b.copy0 ∧ (s.updated arg).nv.boot.copy1 = ⟨decide toB, b.copy0.seq + 1, true⟩) ∨
        ((s.updated arg).nv.boot.copy1 = b.copy1 ∧ (s.updated arg).nv.boot.copy0 = ⟨decide toB, b.copy1.seq + 1, true⟩)) ∧
      (s.updated arg).nv.boot.resetDue = b.resetDue := by
  intro b toB
  have hboot : (s.updated arg).nv.boot = (b.putSlot (decide toB) s.nv.fwStage (fieldLe arg 0 4)).commitSlot (decide toB) := rfl
  obtain ⟨img, hread, hput⟩ := b.putSlot_cases (decide toB) (len := fieldLe arg 0 4) (s.canonical_iff.2 hinv).nv.fwStage
  refine ⟨img, ?_⟩
  rw [hput] at hboot
  by_cases htoB : toB <;> simp only [htoB, decide_true, decide_false, if_true, if_false, Bool.false_eq_true] at hboot ⊢
  all_goals
    rcases BootRegion.commitSlot_cases _ _ |>.imp hboot.trans hboot.trans with hc | hc
    · rw [hc]
      simpa using hread
    · rw [hc]
      simpa using hread

theorem suspendAndFirmwareClause : SuspendAndFirmwareClause := by
  intro s hinv
  refine ⟨fun pair x hpress hpair => ⟨exec_pressSuspend_of_one hinv hpress hpair, exec_pressResume_of_one hpress hpair⟩,
    fun role v hs hallowed hidle => ⟨fun ho => ?_, exec_fwStageData hinv hs hallowed hidle⟩,
    fun role arg env hs hallowed hidle hflags hres => ⟨fun hlen => ?_, fun hlen hmax himg => ?_,
      fun hlen hmax hback himg => ?_⟩⟩
  · exact ⟨_, exec_fwStageData_of_write hs hallowed (if_pos ho) (by decide), rfl, rfl⟩
  · exact ⟨_, exec_fwUpdate_of_write hs hallowed (fwUpdateWrite_range hlen) (by decide), rfl, rfl⟩
  · refine ⟨_, exec_fwUpdate_of_write hs hallowed (fwUpdateWrite_refused hidle hflags hres hlen hmax himg) (by decide),
      rfl, ?_⟩
    exact congrArg CmdBlock.result (State.cmdDone_cmd _ _ _ _)
  · have hwrite := fwUpdateWrite_commits hidle hflags hres hlen hmax hback himg
    have hresult : ((s.updated arg).answer DS.ok |>.cmd Key.fwUpdate).result = DS.ok :=
      congrArg CmdBlock.result (State.cmdDone_cmd _ _ _ _)
    obtain ⟨img, hb, ha, hread, hcopy, hdue⟩ := State.updated_boot hinv arg
    refine ⟨_, img, exec_fwUpdate_of_write hs hallowed hwrite (by decide), hresult, hb, ha, hread,
      hcopy.imp (fun ⟨h0, h1⟩ => ⟨h0, ?_⟩) fun ⟨h1, h0⟩ => ⟨h1, ?_⟩, hdue⟩
    · exact ⟨congrArg CommitRec.slotB h1, congrArg CommitRec.crcOk h1, congrArg CommitRec.seq h1⟩
    · exact ⟨congrArg CommitRec.slotB h0, congrArg CommitRec.crcOk h0, congrArg CommitRec.seq h0⟩

/-- Settles O36: the press operations end as their clauses say, and the boot region takes an update in one commit. -/
theorem pressOperations : Obligations.PressOperations := ⟨pressCompletionsClause, suspendAndFirmwareClause⟩

end Sys2Proof.Machine
end

section
/-! PROOFS. The T3 aperture answers (12, R572, R575 to R579). -/

namespace Sys2Proof.Machine

variable {s t u : State} {i j len : Nat} {data : List Byte}

/-! ### An access of the aperture is served leaf by leaf -/

theorem State.aptRead_of_leaf (hlen : 1 ≤ len) (hfits : j + len ≤ 8192) :
    s.aptRead (8192 * i + j) len = s.aptLeaf i j len := by
  have hfirst : (8192 * i + j) / 8192 = i := by omega
  have hlast : (8192 * i + j + len - 1) / 8192 = i := by omega
  have hlo : max (8192 * i + j) (8192 * i) = 8192 * i + j := by omega
  have hend : min (8192 * i + j + len) (8192 * (i + 1)) = 8192 * i + j + len := by omega
  have hone : upFrom i (i + 1 - i) = [i] := by rw [Nat.add_sub_cancel_left]; rfl
  unfold State.aptRead
  dsimp only
  rw [hfirst, hlast, hone, List.foldl_cons, List.foldl_nil, hlo, hend, Nat.add_sub_cancel_left, Nat.add_sub_cancel_left]

theorem apertureOffset (hi : i < 14336) (hj : j < 8192) :
    (BitVec.ofNat 28 (0x08000000 + 8192 * i + j)).toNat = 0x08000000 + (8192 * i + j) := by
  rw [BitVec.toNat_ofNat]
  omega

theorem inAperture_of_leaf (hi : i < 14336) (hj : j < 8192) : inAperture (0x08000000 + (8192 * i + j)) = true :=
  decide_eq_true ⟨by omega, by omega⟩

theorem State.bar2Serve_aperture (hi : i < 14336) (hj : j < 8192) {write : Bool} :
    s.bar2Serve (0x08000000 + (8192 * i + j)) write len data =
      if write then s.count Key.aptWrites else s.aptRead (8192 * i + j) len := by
  unfold State.bar2Serve
  rw [if_neg (by omega), if_neg (by omega), if_neg (by omega), if_pos (by omega), Nat.add_sub_cancel_left]

section serving

variable (h : s.ServesBar2) (htakes : s.bar2Takes (0x08000000 + 8192 * i + j) len = true) (hi : i < 14336)
  (hfits : j + len ≤ 8192) (hlen : 1 ≤ len)

include h htakes hi hfits hlen

theorem exec_apertureRead_leaf :
    exec (.apertureRead (BitVec.ofNat 28 (0x08000000 + 8192 * i + j)) len) s = .next (s.aptLeaf i j len) := by
  have hj : j < 8192 := by omega
  refine congrArg Host.Outcome.next ?_
  rw [Nat.add_assoc] at htakes
  rw [apertureOffset hi hj]
  refine (if_pos (inAperture_of_leaf hi hj)).trans ?_
  rw [State.bar2Access_of_serving h (by exact htakes), State.bar2Serve_aperture hi hj, if_neg (by decide),
    State.aptRead_of_leaf hlen hfits]

theorem exec_apertureWrite_leaf (hdata : data.length = len) :
    exec (.apertureWrite (BitVec.ofNat 28 (0x08000000 + 8192 * i + j)) data) s = .next (s.count Key.aptWrites) := by
  have hj : j < 8192 := by omega
  refine congrArg Host.Outcome.next ?_
  rw [Nat.add_assoc] at htakes
  rw [apertureOffset hi hj]
  refine (if_pos (inAperture_of_leaf hi hj)).trans ?_
  rw [State.bar2Access_of_serving h (by rw [if_pos rfl, hdata]; exact htakes), State.bar2Serve_aperture hi hj, if_pos rfl]

end serving

/-! ### Refusals (R575, R577) -/

theorem State.maxOf_aperture {k : Nat} (h : k = Key.aptXo ∨ k = Key.aptRange ∨ k = Key.aptWrites) :
    s.maxOf k = 0xFFFFFFFF := by
  rcases h with rfl | rfl | rfl <;> exact s.maxOf_of_card fun sku => by cases sku <;> decide

theorem State.aptRefuse_facts (hwf : valsWf s.sku 0 s.dict.vals = true) {k : Nat} (hk : k = Key.aptXo ∨ k = Key.aptRange)
    (cause i : Nat) (o : Output) :
    (s.aptRefuse k cause i o).out = s.out ++ [o] ∧ (s.aptRefuse k cause i o).rd k = min (s.rd k + 1) 0xFFFFFFFF ∧
      (s.aptRefuse k cause i o).rd Key.aptLastCause = cause := by
  have hcount : valsWf (s.count k).sku 0 (s.count k).dict.vals = true := s.wr_wf k _ hwf
  have hcause : Key.aptLastCause ≠ k := by rcases hk with rfl | rfl <;> decide
  have hleaf : Key.aptLastLeaf ≠ k := by rcases hk with rfl | rfl <;> decide
  have hne : ∀ p ∈ [(Key.aptLastCause, cause), (Key.aptLastLeaf, i)], p.1 ≠ k :=
    List.forall_mem_cons.2 ⟨hcause, List.forall_mem_singleton.2 hleaf⟩
  refine ⟨rfl, ?_, ?_⟩
  · exact (State.wrs_rd_ne hcount hne).trans (State.rd_count_up hwf (State.maxOf_aperture (hk.imp_right .inl)))
  · exact State.rd_wrs [(Key.aptLastCause, cause), (Key.aptLastLeaf, i)] Key.aptLastCause _ hcount

theorem State.queueAperture_weave (s : State) (e k : Nat) : ∃ w, s.queueAperture e k = s.setWeave w := by
  unfold State.queueAperture
  extract_lets
  split
  · extract_lets
    split
    · exact ⟨_, rfl⟩
    · exact ⟨_, rfl⟩
  · exact ⟨_, rfl⟩

/-- The entry that T3_WINDOW names, and leaf `i` of the window in it. -/
def State.aptEntry (s : State) : Nat := s.rd Key.t3Window / 2 ^ 32
def State.aptWindow (s : State) (i : Nat) : Nat := s.rd Key.t3Window % 2 ^ 32 + i

theorem State.aptLeaf_outside (h : 63 < s.aptEntry ∨ (s.lib s.aptEntry).installed = false ∨
    32 * (s.lib s.aptEntry).stripes ≤ s.aptWindow i) :
    s.aptLeaf i j len = s.aptRefuse Key.aptRange 3 i .unsupportedRequest :=
  if_pos (h.imp_right (Or.imp_left (Bool.not_eq_true _).mpr))

section inside

variable (he : s.aptEntry ≤ 63) (hinst : (s.lib s.aptEntry).installed = true)
  (hn : s.aptWindow i < 32 * (s.lib s.aptEntry).stripes)

include he hinst hn

theorem State.aptLeaf_inside (f g : State) : (if 63 < s.aptEntry ∨ ¬ (s.lib s.aptEntry).installed = true ∨
    32 * (s.lib s.aptEntry).stripes ≤ s.aptWindow i then f else g) = g := by
  refine if_neg ?_
  rintro (h | h | h)
  · omega
  · exact h hinst
  · omega

theorem State.aptLeaf_of_xo (hxo : (s.lib s.aptEntry).man.xoStripe (s.aptWindow i / 32) = true) :
    s.aptLeaf i j len = s.aptRefuse Key.aptXo 1 i .completerAbort :=
  (State.aptLeaf_inside he hinst hn _ _).trans (if_pos hxo)

theorem State.aptLeaf_of_buffered {a : AptStripe} (hxo : (s.lib s.aptEntry).man.xoStripe (s.aptWindow i / 32) = false)
    (ha : s.buffered s.aptEntry (s.aptWindow i / 32) = some a) :
    ∃ w, s.aptLeaf i j len = (s.emit (.barRead (a.payload (s.aptWindow i % 32) j len))).setWeave w := by
  have hleaf : s.aptLeaf i j len = _ :=
    (State.aptLeaf_inside he hinst hn _ _).trans (if_neg (by rw [Bool.not_eq_true]; exact hxo))
  rw [hleaf]
  unfold State.aptEntry State.aptWindow at ha
  rw [ha]
  dsimp only
  split
  · exact State.queueAperture_weave _ _ _
  · exact ⟨_, rfl⟩

end inside

theorem apertureClause : ApertureClause := by
  intro s i j len hinv htakes hup hcore hentry hpll hi hfits hlen
  have hserves : s.ServesBar2 := ⟨fun h => by simp [State.up, h] at hup, hcore, hentry, hpll⟩
  have hread := exec_apertureRead_leaf hserves htakes hi hfits hlen
  intro off w e n x up
  refine ⟨fun hout => ?_, fun he hinst hn => ⟨fun hxo => ?_, fun a hxo hbuf => ?_⟩, fun data hdata => ?_⟩
  · exact ⟨_, hread.trans (congrArg _ (State.aptLeaf_outside hout)), State.aptRefuse_facts hinv.1 (.inr rfl) 3 i _⟩
  · exact ⟨_, hread.trans (congrArg _ (State.aptLeaf_of_xo he hinst hn hxo)),
      State.aptRefuse_facts hinv.1 (.inl rfl) 1 i _⟩
  · obtain ⟨w, hw⟩ := State.aptLeaf_of_buffered (j := j) (len := len) he hinst hn hxo hbuf
    refine ⟨_, hread.trans (congrArg _ hw), ?_, rfl, rfl, rfl⟩
    rw [Nat.mul_comm 8448]
    rfl
  · exact ⟨_, exec_apertureWrite_leaf hserves htakes hi hfits hlen hdata,
      State.rd_count_up hinv.1 (State.maxOf_aperture (.inr (.inr rfl))), rfl, rfl, rfl⟩

end Sys2Proof.Machine
end

section
/-! PROOFS. Where the weave stands: no use of a slot, and no freeze, moves its slot or its profile (06, 08, 12; R295, R409,
R558). -/

namespace Sys2Proof.Machine

variable {s t u : State} {q : QNum}

/-- The weave of `t` is at the slot and under the profile of `s`. -/
structure State.ClockKept (s t : State) : Prop where
  slot : t.weave.slot = s.weave.slot
  profile : t.weave.profile = s.weave.profile

namespace State.ClockKept

theorem refl (s : State) : s.ClockKept s := ⟨rfl, rfl⟩

theorem trans (h : s.ClockKept t) (h' : t.ClockKept u) : s.ClockKept u := ⟨h'.slot.trans h.slot, h'.profile.trans h.profile⟩

theorem ite {c : Prop} [Decidable c] (ht : s.ClockKept t) (hu : s.ClockKept u) : s.ClockKept (if c then t else u) := by
  split
  · exact ht
  · exact hu

theorem foldl {α : Type} {f : State → α → State} {l : List α} (h : s.ClockKept t)
    (hf : ∀ (u : State) (a : α), u.ClockKept (f u a)) : s.ClockKept (l.foldl f t) :=
  List.foldlRecOn (motive := fun u => s.ClockKept u) l f h fun u hu a _ => hu.trans (hf u a)

theorem of_weave (h : t.weave = s.weave) : s.ClockKept t := ⟨congrArg Weave.slot h, congrArg Weave.profile h⟩

section
variable (h : s.ClockKept t)
include h

theorem modRun {id : Nat} {f : Run → Run} : s.ClockKept (t.modRun q id f) := ⟨h.slot, h.profile⟩
theorem count {k n : Nat} : s.ClockKept (t.count k n) := ⟨h.slot, h.profile⟩
theorem wr {k v : Nat} : s.ClockKept (t.wr k v) := ⟨h.slot, h.profile⟩
theorem setSt {x : StitchUnit} : s.ClockKept (t.setSt x) := ⟨h.slot, h.profile⟩
theorem setNv {n : Nv} : s.ClockKept (t.setNv n) := ⟨h.slot, h.profile⟩
theorem setWeave {w : Weave} (hslot : w.slot = t.weave.slot := by rfl)
    (hprofile : w.profile = t.weave.profile := by rfl) :
    s.ClockKept (t.setWeave w) := ⟨hslot.trans h.slot, hprofile.trans h.profile⟩
theorem modQuire {f : Quire → Quire} : s.ClockKept (t.modQuire q f) := ⟨h.slot, h.profile⟩
theorem modBay {b : BayNum} {f : Bay → Bay} : s.ClockKept (t.modBay b f) := ⟨h.slot, h.profile⟩

end

/-! ### A freeze (R295) -/

theorem setLeaf (s : State) (p : Place) (n : Nat) (f : Mem) (xo : Bool) : s.ClockKept ((s.setLeaf p n f).setXo p n xo) := by
  cases p <;> exact ⟨rfl, rfl⟩

theorem voidLeaf (s : State) (q : QNum) (addr : Nat) : s.ClockKept (s.voidLeaf q addr) := by
  unfold State.voidLeaf
  split
  · split
    · exact .setLeaf s _ _ _ _
    · exact .refl s
  · exact .refl s

theorem leaveFrame (s : State) (q : QNum) (addr : Nat) (f : Mem) (xo : Bool) : s.ClockKept (s.leaveFrame q addr f xo) := by
  unfold State.leaveFrame
  split
  · split
    · exact .setLeaf s _ _ _ _
    · exact ⟨rfl, rfl⟩
    · exact .refl s
  · exact .refl s

theorem dropUnsensed (s : State) (q : QNum) (run sc : Nat) : s.ClockKept (s.dropUnsensed q run sc) := by
  refine .count (.foldl (.setWeave (.refl s)) fun t r => ?_)
  split
  · exact .modBay (.refl t)
  · exact .refl t

theorem absorbSignals (s : State) (ns : List Nat) : s.ClockKept (s.absorbSignals ns) := by
  refine .foldl (.setSt (.refl s)) fun t p => ?_
  split
  · exact .count (.refl t)
  · exact .refl t

theorem countClose (s : State) (q : QNum) (run : Nat) (sc : Scope) (committed : Bool) :
    s.ClockKept (s.countClose q run sc committed) := by
  unfold State.countClose
  exact .ite ⟨rfl, rfl⟩ ⟨rfl, rfl⟩

theorem cancelScope (s : State) (q : QNum) (r : Run) (sc : Scope) : s.ClockKept (s.cancelScope q r sc) := by
  refine State.ClockKept.trans ?_ (.countClose _ q r.id sc false)
  refine .foldl (.trans (.modRun ?_) (.absorbSignals _ _)) fun t n => .setSt (.refl t)
  refine .foldl (.foldl (.dropUnsensed s q r.id sc.id) fun t b => .modBay (.refl t)) fun t e => ?_
  exact .voidLeaf t q e.1

theorem cancelScopes (s : State) (q : QNum) : s.ClockKept (s.cancelScopes q) :=
  .foldl (.refl s) fun t _ => .modRun (.foldl (.refl t) fun u c => .cancelScope u q _ c)

theorem flushMoves (s : State) (q : QNum) (b : BayNum) : s.ClockKept (s.flushMoves q b) := by
  unfold State.flushMoves
  refine .modBay (.foldl (.refl s) fun t m => ?_)
  exact .leaveFrame t q m.addr m.frame m.xo

theorem endBayRun (s : State) (q : QNum) (b : BayNum) : s.ClockKept (s.endBayRun q b) := by
  unfold State.endBayRun
  split
  · exact .ite (.modBay (.flushMoves s q b)) (.refl s)
  · exact .refl s

theorem endRuns (s : State) (q : QNum) : s.ClockKept (s.endRuns q) :=
  .foldl ((State.ClockKept.cancelScopes s q).trans ⟨rfl, rfl⟩) fun t b => .endBayRun t q b

theorem haltQuire (s : State) (q : QNum) : s.ClockKept (s.haltQuire q) := by
  have hstop : s.ClockKept (s.stopQuire q) := by
    obtain ⟨bays, heq⟩ := s.stopQuire_eq q
    exact heq ▸ ⟨rfl, rfl⟩
  have hpoison : s.ClockKept ((s.stopQuire q).poisonQuire q) := hstop.trans ⟨rfl, rfl⟩
  unfold State.haltQuire
  refine .ite (hpoison.trans ?_) hpoison
  unfold State.sentAbandon
  exact .ite ⟨rfl, rfl⟩ ⟨rfl, rfl⟩

theorem endDisabling (s : State) (q : QNum) (d : Option Disabling) : s.ClockKept (s.endDisabling q d) := by
  unfold State.endDisabling
  exact .ite ⟨rfl, rfl⟩ (.refl s)

theorem msixSend (s : State) (v : Nat) : s.ClockKept (s.msixSend v) := by
  obtain ⟨out, msix, heq⟩ := s.msixSend_eq v
  exact heq ▸ ⟨rfl, rfl⟩

theorem freeze (s : State) (q : QNum) (cause bay ring imp cycle cid sqi detail : Nat) (h : Lively s q) :
    s.ClockKept (s.freeze q cause bay ring imp cycle cid sqi detail) := by
  rw [s.freeze_of_lively q _ _ _ _ _ _ _ _ h]
  refine .trans (.trans ?_ (.endDisabling _ q _)) (.msixSend _ _)
  exact .count (.modQuire (.trans (.wr (.endRuns s q)) (.haltQuire _ q)))

/-! ### The translation layer's and the press's part of a slot (R558, R561, R631, R639) -/

theorem of_sensedTo (h : s.SensedTo t) : s.ClockKept t := by
  obtain ⟨bands, moves, ckpt, d, i, rfl⟩ := h.frame
  exact ⟨rfl, rfl⟩

theorem of_ringOnly (h : s.RingOnly t) : s.ClockKept t := by
  obtain ⟨press, moves, journal, units, tl, rfl⟩ := h.frame
  exact ⟨rfl, rfl⟩

theorem eraseBlockAt (s : State) (g k n : Nat) : s.ClockKept (s.eraseBlockAt g k n) := by
  obtain ⟨blocks, main, dirty, moves, heq⟩ := (s.eraseBlockAt_blocks g k n).1.frame
  exact heq ▸ .setNv (.refl s)

theorem takeBlock (s : State) (g k : Nat) : s.ClockKept (s.takeBlock g k).2 := by
  unfold State.takeBlock
  extract_lets s1
  have h1 : s.ClockKept s1 := by
    refine .ite ?_ (.refl s)
    split
    · exact .eraseBlockAt s _ _ _
    · exact .refl s
  split
  · exact .setNv h1
  · exact h1

theorem startBandMove (s : State) (g : Nat) : s.ClockKept (s.startBandMove g) := by
  unfold State.startBandMove
  split
  · refine .ite (.refl s) (.trans (.setNv ?_) (.of_ringOnly (.jStart _ _ _)))
    refine List.foldlRecOn (motive := fun p : List Nat × State => s.ClockKept p.2) _ _ (.refl s) fun p hp k _ => ?_
    have htaken := hp.trans (State.ClockKept.takeBlock p.2 g k)
    split
    · next heq =>
      rw [heq] at htaken
      exact htaken
    · next heq =>
      rw [heq] at htaken
      exact htaken
  · exact .refl s

theorem turnDone (s : State) (g : Nat) (w : Worker) : s.ClockKept (s.turnDone g w) := by
  cases w with
  | op id => exact .refl s
  | entry e => exact .foldl (.setNv (.refl s)) fun t q => .modQuire (.refl t)
  | move =>
    unfold State.turnDone
    dsimp only
    split
    · exact .setNv (.refl s)
    · exact .refl s
  | erase k n =>
    have hend := State.RingOnly.jEnd (s.eraseBlockAt g k n) jMain (blockAddr g k n)
    show s.ClockKept ((s.eraseBlockAt g k n).jEnd jMain (blockAddr g k n))
    exact (State.ClockKept.eraseBlockAt s g k n).trans (.of_ringOnly hend)

theorem mayEnd (s : State) : s.ClockKept s.mayEnd.2 := ⟨rfl, rfl⟩

theorem pressStep (s : State) (g : Nat) (maint : Bool) : s.ClockKept (s.pressStep g maint) := by
  unfold State.pressStep
  refine .ite (.refl s) ?_
  split
  · exact .refl s
  · next w _ =>
    extract_lets _ s1
    have h1 : s.ClockKept s1 := ⟨rfl, rfl⟩
    split
    · exact h1
    · exact .ite ((h1.trans (.mayEnd s1)).trans (.turnDone _ _ _)) (h1.trans (.mayEnd s1))

theorem endTurns (s : State) (g : Nat) : s.ClockKept (s.endTurns g) :=
  .foldl (.refl s) fun t _ => .ite (.trans (.trans (.mayEnd t) (.of_ringOnly (.endUnit _ _ _))) (.turnDone _ _ _)) (.mayEnd t)

theorem startTurns (s : State) (g : Nat) : s.ClockKept (s.startTurns g) := by
  unfold State.startTurns
  refine .ite (.refl s) ?_
  split
  · exact .ite (.trans (.mayEnd s) (.of_ringOnly (.addUnit _ _ _ _))) (.mayEnd s)
  · exact .refl s

/-! ### The use of a slot (R558) -/

theorem senseStripe (s : State) (e k : Nat) : s.ClockKept (s.senseStripe e k) := .of_sensedTo (s.senseStripes_sensedTo e [k])

theorem pushSensed (h : s.ClockKept t) (g : Nat) (x : SlotUse) : s.ClockKept (t.pushSensed g x) := h.setWeave

theorem useAperture (s : State) (g : Nat) (counts : Bool) : s.ClockKept (s.useAperture g counts) := by
  unfold State.useAperture
  split
  · exact .refl s
  · exact .pushSensed (.trans (.setWeave (.refl s)) (.senseStripe _ _ _)) _ _

theorem useTl (s : State) (g : Nat) (x : TlSense) : s.ClockKept (s.useTl g x) := by
  cases x with
  | refresh b row => exact .pushSensed (.of_sensedTo (s.readBand_sensedTo _ _ _)) _ _
  | readRun op e k => exact .pushSensed (.trans (.setWeave (.refl s)) (.senseStripe _ _ _)) _ _
  | relocate e k => exact .pushSensed (.trans (.setWeave (.refl s)) (.senseStripe _ _ _)) _ _

theorem useMaint (s : State) (g : Nat) (lent : Bool) : s.ClockKept (s.useMaint g lent) := by
  unfold State.useMaint
  extract_lets s1
  have h1 : s.ClockKept s1 := .startBandMove s g
  refine .ite (h1.trans (.useAperture _ _ _)) ?_
  split
  · exact .ite h1 (h1.trans (.useTl _ _ _))
  · exact .ite (h1.trans (.useAperture _ _ _)) (h1.trans (.pressStep _ _ _))

theorem useFree (s : State) (g : Nat) : s.ClockKept (s.useFree g) := .ite (.useAperture s g _) (.pressStep s g _)

theorem busyFreeze (s : State) (q : QNum) (b : BayNum) (run idx : Nat) (h : Lively s q) :
    s.ClockKept (s.busyFreeze q b run idx) := by
  unfold State.busyFreeze
  split
  · exact .freeze s q _ _ _ _ _ _ _ _ h
  · exact .refl s

theorem useOwned (s : State) (q : QNum) (g : Nat) : s.ClockKept (s.useOwned q g) := by
  unfold State.useOwned
  extract_lets k st
  split
  case isTrue => exact .useFree s g
  case isFalse h =>
    have hlive : Lively s q := not_or.1 h
    refine .ite (.trans (.setWeave (.refl s)) (.useMaint _ _ _)) ?_
    split
    · exact .useFree s g
    · refine .ite ?_ (.ite (.refl s) (.pushSensed (.trans (.setWeave (.refl s)) (.senseStripe _ _ _)) _ _))
      split
      · exact .busyFreeze s q _ _ _ hlive
      · exact .refl s

theorem useSlot (s : State) (g : Nat) : s.ClockKept (s.useSlot g) := by
  unfold State.useSlot
  split
  · split
    · exact .useTl s g _
    · exact .refl s
  · extract_lets
    split
    · exact .useOwned s _ g
    · exact .ite (.useMaint s g _) (.useFree s g)

end State.ClockKept

end Sys2Proof.Machine
end

section
/-! PROOFS. A sensed row arrives: the leaves of a STREAM fill their slots (08, 12; R557, R584). -/

namespace Sys2Proof.Machine

variable {s t : State} {q : QNum} {b : BayNum} {x : Bay}

/-! ### The frames of library leaves -/

theorem Mem.frame_of_lt {f : Mem} (hf : Mem.wf f = true) (hlt : ∀ p ∈ f, p.1 < leafBytes) : Mem.frame f = f := by
  refine Tab.ext_of_mem (Mem.slice_wf _ 0 leafBytes hf) hf fun p => ?_
  obtain ⟨a, v⟩ := p
  rw [Mem.frame, Mem.mem_slice _ _ _ _ hf, Nat.zero_add]
  exact and_iff_right_of_imp fun h => hlt (a, v) h

theorem State.rowLeaf_lt (s : State) (g r n : Nat) : ∀ p ∈ s.rowLeaf g r n, p.1 < leafBytes := by
  intro p hp
  obtain hp | hp := List.mem_append.1 hp
  · exact lt_of_lt_of_le (Mem.slice_lt _ _ _ _ hp) (by decide)
  · obtain ⟨p', hp', heq⟩ := Mem.shift_mem _ _ p hp
    have hlt := Mem.slice_lt _ _ _ _ hp'
    exact heq ▸ lt_of_lt_of_eq (Nat.add_lt_add_left hlt pageBytes) (by decide)

theorem State.libFrame_lt (s : State) (e n : Nat) : ∀ p ∈ s.libFrame e n, p.1 < leafBytes := by
  unfold State.libFrame
  split
  · exact fun p hp => absurd hp (List.not_mem_nil)
  · split
    · exact s.rowLeaf_lt _ _ _
    · exact fun p hp => absurd hp (List.not_mem_nil)

theorem State.frame_libFrame (hinv : Inv s) (e n : Nat) : Mem.frame (s.libFrame e n) = s.libFrame e n :=
  Mem.frame_of_lt ((s.canonical_iff.2 hinv).libFrame e n) (s.libFrame_lt e n)

/-! ### Leaves reach the slots of a bay -/

/-- Leaves `l` of a row reach the slots from `slot` on, leaf `j` as the frame `f j` with the execute-only mark `xo j`. -/
def Bay.deliverAll (x : Bay) (slot : Nat) (f : Nat → Mem) (xo : Nat → Bool) (l : List Nat) : Bay :=
  l.foldl (fun x j => x.deliver (slot + j) (f j) (xo j)) x

/-- The memory and the slots of a bay in the one form the invariant keeps. -/
structure Bay.SlotsWf (x : Bay) : Prop where
  t0 : Mem.wf x.t0 = true
  slots : Tab.rising 0 x.slots = true

theorem Bay.deliver_wf (hx : x.SlotsWf) {n : Nat} {f : Mem} (hf : Mem.wf f = true) (xo : Bool) :
    (x.deliver n f xo).SlotsWf where
  t0 := Mem.setLeaf_wf _ _ _ hx.t0 (by
    split
    · rfl
    · exact hf)
  slots := Tab.rising_set hx.slots _ _ _

theorem Bay.deliver_slot (hx : x.SlotsWf) (n : Nat) (f : Mem) (xo : Bool) (i : Nat) :
    (x.deliver n f xo).slot i = if i = n then { x.slot n with
      arriving := none, due := none, xo := xo && !(x.slot n).voidOnArrival, voidOnArrival := false,
      ident := if (x.slot n).voidOnArrival then 0 else (x.slot n).ident } else x.slot i :=
  Tab.get_set_of_rising SlotMeta.free n i _ hx.slots

theorem Bay.deliver_frame (hx : x.SlotsWf) {n : Nat} {f : Mem} (hf : Mem.wf f = true) (xo : Bool)
    (hvoid : (x.slot n).voidOnArrival = false) (i : Nat) :
    (x.deliver n f xo).frame i = if i = n then Mem.frame f else x.frame i :=
  Bay.frame_of_setLeaf hx.t0 hf (by simp [Bay.deliver, Bay.setFrame, Bay.setSlot, hvoid]) i

theorem Bay.deliverAll_slots {slot : Nat} {f : Nat → Mem} {xo : Nat → Bool} (hf : ∀ j, Mem.wf (f j) = true)
    (l : List Nat) : ∀ {x : Bay}, x.SlotsWf → l.Nodup → (∀ j ∈ l, (x.slot (slot + j)).voidOnArrival = false) →
      (∀ j ∈ l, (x.deliverAll slot f xo l).frame (slot + j) = Mem.frame (f j) ∧
        ((x.deliverAll slot f xo l).slot (slot + j)).arriving = none) ∧
      ∀ i, (∀ j ∈ l, i ≠ slot + j) →
        (x.deliverAll slot f xo l).frame i = x.frame i ∧ (x.deliverAll slot f xo l).slot i = x.slot i := by
  induction l with
  | nil => exact fun _ _ _ => ⟨fun j hj => absurd hj List.not_mem_nil, fun i _ => ⟨rfl, rfl⟩⟩
  | cons k l ih =>
    intro x hx hnodup hvoid
    obtain ⟨hk, hnodup⟩ := List.nodup_cons.1 hnodup
    obtain ⟨hvoidk, hvoid⟩ := List.forall_mem_cons.1 hvoid
    have hslot := Bay.deliver_slot hx (slot + k) (f k) (xo k)
    have hframe := Bay.deliver_frame hx (hf k) (xo k) hvoidk
    obtain ⟨hin, hout⟩ := ih (Bay.deliver_wf hx (hf k) (xo k)) hnodup fun j hj => by
      rw [hslot, if_neg (by rintro h; exact hk (Nat.add_left_cancel h ▸ hj))]
      exact hvoid j hj
    refine ⟨List.forall_mem_cons.2 ⟨?_, hin⟩, fun i hi => ?_⟩
    · obtain ⟨hframek, hslotk⟩ := hout (slot + k) fun j hj h => hk (Nat.add_left_cancel h ▸ hj)
      exact ⟨hframek.trans ((hframe _).trans (if_pos rfl)),
        congrArg SlotMeta.arriving (hslotk.trans ((hslot _).trans (if_pos rfl)))⟩
    · obtain ⟨hik, hi⟩ := List.forall_mem_cons.1 hi
      obtain ⟨hframei, hsloti⟩ := hout i hi
      exact ⟨hframei.trans ((hframe i).trans (if_neg hik)), hsloti.trans ((hslot i).trans (if_neg hik))⟩

theorem State.noteEvent_quires (s : State) (b : BayNum) (slot : Nat) (c : SlipCause) (freed : Bool) :
    ∃ quires, s.noteEvent b slot c freed = { s with quires := quires } := by
  unfold State.noteEvent
  split
  · exact ⟨s.quires, rfl⟩
  · split
    · exact ⟨s.quires, rfl⟩
    · split
      · split
        · exact ⟨_, rfl⟩
        · exact ⟨s.quires, rfl⟩
      · exact ⟨s.quires, rfl⟩

theorem State.slotLeaf_bay (s : State) (b : BayNum) (slot e n : Nat) : ∃ quires,
    s.slotLeaf b slot e n false = { s.modBay b fun y =>
      y.deliver slot (s.libFrame e n) ((s.lib e).man.xoStripe (n / 32)) with quires := quires } :=
  State.noteEvent_quires _ b slot .t3 false

/-- Leaves `l` of stripe `k` of entry `e` reach bay `b`, its slots from `slot` on. -/
def State.slotLeaves (s : State) (b : BayNum) (slot e k : Nat) (l : List Nat) : State :=
  l.foldl (fun s n => s.slotLeaf b (slot + n) e (32 * k + n) false) s

theorem State.slotLeaves_bay (b : BayNum) (slot e k : Nat) (l : List Nat) : ∀ s : State, ∃ bays quires,
    s.slotLeaves b slot e k l = { s with bays := bays, quires := quires } ∧
      (s.slotLeaves b slot e k l).bay b = (s.bay b).deliverAll slot (fun j => s.libFrame e (32 * k + j))
        (fun j => (s.lib e).man.xoStripe ((32 * k + j) / 32)) l := by
  induction l with
  | nil => exact fun s => ⟨s.bays, s.quires, rfl, rfl⟩
  | cons n l ih =>
    intro s
    obtain ⟨quires, hleaf⟩ := s.slotLeaf_bay b (slot + n) e (32 * k + n)
    obtain ⟨bays', quires', hrest, hbay⟩ := ih (s.slotLeaf b (slot + n) e (32 * k + n) false)
    have hlib : (s.slotLeaf b (slot + n) e (32 * k + n) false).lib e = s.lib e := by rw [hleaf]; rfl
    have hframe (m : Nat) : (s.slotLeaf b (slot + n) e (32 * k + n) false).libFrame e m = s.libFrame e m := by rw [hleaf]; rfl
    have hnext : (s.slotLeaf b (slot + n) e (32 * k + n) false).bay b =
        (s.bay b).deliver (slot + n) (s.libFrame e (32 * k + n)) ((s.lib e).man.xoStripe ((32 * k + n) / 32)) := by
      rw [hleaf]
      exact s.modBay_bay b fun y =>
        y.deliver (slot + n) (s.libFrame e (32 * k + n)) ((s.lib e).man.xoStripe ((32 * k + n) / 32))
    simp only [hlib, hframe, hnext] at hbay
    refine ⟨bays', quires', hrest.trans ?_, hbay⟩
    rw [hleaf]
    rfl

/-! ### A STREAM's row (R557, R584) -/

/-- The oldest sensed row of a group is taken for delivery, `rest` stays. -/
def State.takeSensed (s : State) (g : Nat) (rest : List SlotUse) : State :=
  (s.setWeave { s.weave with
    sensed := Tab.set s.weave.sensed [] g rest,
    sensing := if rest = [] then s.weave.sensing.filter fun x => x != g else s.weave.sensing }).count Key.nvCorrected 0

theorem exec_stripeDelivery_queue {g : GroupNum} {r : SenseReq} {rest : List SlotUse} (hcore : s.coreOn = true)
    (hsensed : Tab.get s.weave.sensed [] g.val = .queue q r :: rest) (bad : List Nat) :
    exec (.stripeDelivery g { badLeaves := bad }) s =
      .next ((s.takeSensed g.val rest).deliverQueue g.val q r { badLeaves := bad }) := by
  refine congrArg Host.Outcome.next ?_
  unfold stripeDelivery
  rw [hsensed]
  exact if_neg (not_not.2 hcore)

theorem State.moveStripe_moves (s : State) (e k : Nat) : ∃ moves,
    s.moveStripe e k = s.setNv { s.nv with moves := moves } := by
  unfold State.moveStripe
  split
  · exact s.queueMove_moves _ _ _
  · exact ⟨s.nv.moves, rfl⟩

theorem State.libFrame_of_moves {u : State} {moves : List BandMove} (h : u.nv = { s.nv with moves := moves }) (e n : Nat) :
    u.libFrame e n = s.libFrame e n := by
  have hlib : u.lib e = s.lib e := by rw [State.lib, h, State.lib]
  have hrow (g r m : Nat) : u.rowLeaf g r m = s.rowLeaf g r m := by
    simp only [State.rowLeaf, State.sensedPage, State.mappedBlock, h]
  simp only [State.libFrame, hlib, hrow]

/-- A row comes back to the head of its quire's queue for the leaves `bad` (R584). -/
def State.senseAgain (s : State) (g : Nat) (q : QNum) (r : SenseReq) (bad : List Nat) : State :=
  let k := q.val * 12 + g
  s.setWeave { s.weave with
    queues := Tab.put s.weave.queues k
      (some ({ r with retries := r.retries + 1, leaves := bad } :: Tab.get s.weave.queues [] k)) }

theorem State.senseAgain_queue (s : State) (g : Nat) (q : QNum) (r : SenseReq) (bad : List Nat) :
    Tab.get (s.senseAgain g q r bad).weave.queues [] (q.val * 12 + g) =
      { r with retries := r.retries + 1, leaves := bad } :: Tab.get s.weave.queues [] (q.val * 12 + g) := by
  unfold State.senseAgain
  dsimp only [State.setWeave]
  rw [Tab.get, Tab.find_put_self, Option.getD_some]

theorem State.deliverQueue_bad (s : State) (g : Nat) (q : QNum) {r : SenseReq} {bad : List Nat}
    (hbad : (r.leaves.filter fun j => bad.contains j) ≠ []) (hretries : r.retries < 3) :
    s.deliverQueue g q r { badLeaves := bad } =
      (((s.count Key.nvRetries).moveStripe r.entry r.stripe).senseAgain g q r
        (r.leaves.filter fun j => bad.contains j)).deliverReq q r (r.leaves.filter fun j => !bad.contains j) false := by
  unfold State.deliverQueue
  dsimp only
  rw [if_neg hbad, if_pos hretries]
  rfl

section stream

variable {r : SenseReq} {id slot n tag h idx : Nat} (hwhat : r.what = .stream b id slot n tag h idx)
include hwhat

theorem State.deliverReq_stream (hruns : s.stillRuns q b id = true) (l : List Nat) :
    s.deliverReq q r l false = s.slotLeaves b slot r.entry r.stripe l := by
  unfold State.deliverReq
  rw [hwhat]
  exact if_pos hruns

theorem State.deliverReq_frames (hinv : Inv s) (hruns : s.stillRuns q b id = true) {u : State} (hbays : u.bays = s.bays)
    (hframes : ∀ m, u.libFrame r.entry m = s.libFrame r.entry m) {l : List Nat} (hnodup : l.Nodup)
    (hvoid : ∀ j ∈ l, ((s.bay b).slot (slot + j)).voidOnArrival = false) :
    ∃ t, u.deliverReq q r l false = t ∧ t.weave = u.weave ∧ t.tiers = u.tiers ∧ t.out = u.out ∧
      ∀ j ∈ l, (t.bay b).frame (slot + j) = s.libFrame r.entry (32 * r.stripe + j) ∧
        ((t.bay b).slot (slot + j)).arriving = none := by
  obtain ⟨bays, quires, hall, hbay⟩ := State.slotLeaves_bay b slot r.entry r.stripe l u
  have hcanon := s.canonical_iff.2 hinv
  have hsame : u.bay b = s.bay b := congrArg (fun x => x.get b) hbays
  have hruns' : u.stillRuns q b id = true := by rw [State.stillRuns, hsame]; exact hruns
  obtain ⟨hin, -⟩ := Bay.deliverAll_slots (slot := slot) (f := fun j => s.libFrame r.entry (32 * r.stripe + j))
    (xo := fun j => (u.lib r.entry).man.xoStripe ((32 * r.stripe + j) / 32)) (fun j => hcanon.libFrame _ _) l
    ⟨(hcanon.bay b).t0, (hcanon.bay b).slots⟩ hnodup hvoid
  simp only [hframes, hsame] at hbay
  rw [State.deliverReq_stream hwhat hruns', hall]
  rw [hall] at hbay
  refine ⟨_, rfl, rfl, rfl, rfl, fun j hj => ?_⟩
  obtain ⟨hframe, hslot⟩ := hin j hj
  rw [hbay]
  exact ⟨hframe.trans (s.frame_libFrame hinv _ _), hslot⟩

variable {g : GroupNum} {rest : List SlotUse} (hinv : Inv s) (hcore : s.coreOn = true)
  (hsensed : Tab.get s.weave.sensed [] g.val = .queue q r :: rest) (hruns : s.stillRuns q b id = true)
  (hnodup : r.leaves.Nodup) (hvoid : ∀ j ∈ r.leaves, ((s.bay b).slot (slot + j)).voidOnArrival = false)

include hinv hcore hsensed hruns hnodup hvoid

theorem exec_stripeDelivery_good : ∃ t, exec (.stripeDelivery g {}) s = .next t ∧ Tab.get t.weave.sensed [] g.val = rest ∧
    (∀ j ∈ r.leaves, (t.bay b).frame (slot + j) = s.libFrame r.entry (32 * r.stripe + j) ∧
      ((t.bay b).slot (slot + j)).arriving = none) ∧ t.tiers = s.tiers ∧ t.out = s.out := by
  have hgood : (r.leaves.filter fun n => !([] : List Nat).contains n) = r.leaves := List.filter_eq_self.2 fun _ _ => rfl
  have hbad : (r.leaves.filter fun n => ([] : List Nat).contains n) = [] := List.filter_eq_nil_iff.2 fun _ _ => by simp
  have hserved : (s.takeSensed g.val rest).deliverQueue g.val q r {} =
      (s.takeSensed g.val rest).deliverReq q r r.leaves false := by
    unfold State.deliverQueue
    dsimp only
    rw [hgood, if_pos hbad]
  obtain ⟨t, heq, hweave, htiers, hout, hin⟩ := State.deliverReq_frames hwhat hinv hruns (u := s.takeSensed g.val rest) rfl
    (fun _ => rfl) hnodup hvoid
  refine ⟨t, (exec_stripeDelivery_queue hcore hsensed []).trans (congrArg _ (hserved.trans heq)), ?_, hin, htiers, hout⟩
  rw [hweave]
  exact (Tab.get_set_of_rising [] g.val g.val rest (s.canonical_iff.2 hinv).weave.sensed).trans (if_pos rfl)

theorem exec_stripeDelivery_bad {bad : List Nat} (hbad : (r.leaves.filter fun j => bad.contains j) ≠ [])
    (hretries : r.retries < 3) :
    ∃ t, exec (.stripeDelivery g { badLeaves := bad }) s = .next t ∧
      Tab.get t.weave.queues [] (q.val * 12 + g.val) =
        { r with retries := r.retries + 1, leaves := r.leaves.filter fun j => bad.contains j } ::
          Tab.get s.weave.queues [] (q.val * 12 + g.val) ∧
      (∀ j ∈ r.leaves, j ∉ bad → (t.bay b).frame (slot + j) = s.libFrame r.entry (32 * r.stripe + j)) := by
  have hexec := exec_stripeDelivery_queue hcore hsensed bad
  rw [State.deliverQueue_bad _ _ _ hbad hretries] at hexec
  obtain ⟨moves, hmoves⟩ := ((s.takeSensed g.val rest).count Key.nvRetries).moveStripe_moves r.entry r.stripe
  rw [hmoves] at hexec
  have hqueue := State.senseAgain_queue (((s.takeSensed g.val rest).count Key.nvRetries).setNv
    { s.nv with moves := moves }) g.val q r (r.leaves.filter fun j => bad.contains j)
  obtain ⟨t, heq, hweave, -, -, hin⟩ := State.deliverReq_frames hwhat hinv hruns
    (u := (((s.takeSensed g.val rest).count Key.nvRetries).setNv { s.nv with moves := moves }).senseAgain g.val q r
      (r.leaves.filter fun j => bad.contains j)) rfl (State.libFrame_of_moves (moves := moves) rfl r.entry)
    (hnodup.filter fun j => !bad.contains j) fun j hj => hvoid j (List.mem_of_mem_filter hj)
  refine ⟨t, hexec.trans (congrArg _ heq), ?_, fun j hj hnot => ?_⟩
  · rw [hweave]
    exact hqueue
  · exact (hin j (List.mem_filter.2 ⟨hj, by simpa using hnot⟩)).1

end stream

end Sys2Proof.Machine
end

section
/-! PROOFS. The weave serves the bank groups (08, 12; R409, R558, R566, R636). -/

namespace Sys2Proof.Machine

variable {s t : State} {q : QNum}

/-! ### A slot starts (R409, R558) -/

/-- The senses and steps of the slot before have ended; at the frame boundary the weave of the partition comes in. -/
def State.slotBegins (s : State) : State :=
  let s := s.setWeave { s.weave with sensing := [], steps := [] }
  if s.weave.slot = 0 then
    ({ s with switch := s.switch.map fun w => { w with oldWeave := [] } } : State).setWeave
      { s.weave with aptUsed := [], profile := s.part }
  else s

/-- What the bank groups do in a slot. -/
def State.slotTurns (s : State) : State :=
  let s := (List.range s.groups).foldl State.endTurns s
  let s := (List.range s.groups).foldl State.useSlot s
  (List.range s.groups).foldl State.startTurns s

theorem State.slotUses_eq (s : State) : s.slotUses = s.slotBegins.slotTurns.setWeave
    { s.slotBegins.slotTurns.weave with slot := (s.slotBegins.slotTurns.weave.slot + 1) % 1024 } := rfl

theorem State.slotBegins_clock (s : State) : s.slotBegins.weave.slot = s.weave.slot ∧
    s.slotBegins.weave.profile = if s.weave.slot = 0 then s.part else s.weave.profile := by
  unfold State.slotBegins
  dsimp only [State.setWeave]
  split
  · exact ⟨rfl, rfl⟩
  · exact ⟨rfl, rfl⟩

theorem State.slotTurns_clock (s : State) : s.ClockKept s.slotTurns :=
  .foldl (.foldl (.foldl (.refl s) .endTurns) .useSlot) .startTurns

theorem exec_weaveSlotStart_clock (hup : s.up = true) (hcore : s.coreOn = true) :
    ∃ t, exec .weaveSlotStart s = .next t ∧ t.weave.slot = (s.weave.slot + 1) % 1024 ∧
      (s.weave.slot = 0 → t.weave.profile = s.part) ∧ (s.weave.slot ≠ 0 → t.weave.profile = s.weave.profile) := by
  have hop : weaveSlotStart s = s.slotUses.serveRing := if_neg (by simp [hup, hcore])
  have hring := State.ClockKept.of_ringOnly (.serveRing s.slotUses)
  have hturns := s.slotBegins.slotTurns_clock
  obtain ⟨hslot, hprofile⟩ := s.slotBegins_clock
  have hfinal : s.slotUses.serveRing.weave.profile = if s.weave.slot = 0 then s.part else s.weave.profile :=
    hring.profile.trans (hturns.profile.trans hprofile)
  refine ⟨_, congrArg Host.Outcome.next hop, ?_, fun h => hfinal.trans (if_pos h), fun h => hfinal.trans (if_neg h)⟩
  rw [hring.slot, State.slotUses_eq]
  exact congrArg (fun n => (n + 1) % 1024) (hturns.slot.trans hslot)

/-! ### A slot that a quire owns (R24, R411, R558, R566) -/

section owned

variable {g : Nat} {r : SenseReq} {l : List SenseReq} (hinv : Inv s) (hservice : s.groupInService g = true)
  (hcode : s.weaveCode s.weave.profile s.weave.slot g = q.val) (hlive : Lively s q)
  (hqueue : Tab.get s.weave.queues [] (q.val * 12 + g) = r :: l) (hlent : Tab.get s.weave.lent 0 (q.val * 12 + g) = 0)

section
include hservice hcode

theorem State.useSlot_of_owner : s.useSlot g = s.useOwned q g := by
  have hlt : s.weaveCode s.weave.profile s.weave.slot g < 8 := hcode ▸ q.isLt
  unfold State.useSlot
  rw [if_neg (not_not.2 hservice)]
  dsimp only
  rw [dif_pos hlt]
  exact congrArg (fun p => s.useOwned p g) (Fin.ext hcode)

end

include hinv hservice hcode hlive hqueue hlent

theorem State.useSlot_senses (hbusy : s.groupBusy g = false) (hwaits : s.headWaits q r = false) :
    Tab.get (s.useSlot g).weave.sensed [] g = Tab.get s.weave.sensed [] g ++ [.queue q r] ∧
      Tab.get (s.useSlot g).weave.queues [] (q.val * 12 + g) = l ∧ (s.useSlot g).bays = s.bays ∧
      (s.useSlot g).quires = s.quires := by
  have huse : s.useSlot g = ((s.popQueue q g).senseStripe r.entry r.stripe).pushSensed g (.queue q r) := by
    rw [State.useSlot_of_owner hservice hcode]
    unfold State.useOwned
    dsimp only
    rw [if_neg (not_or.2 hlive), if_neg (not_not.2 hlent), hqueue]
    dsimp only
    rw [if_neg (by simp [hbusy]), if_neg (by simp [hwaits])]
  have hweaveWf := (s.canonical_iff.2 hinv).weave
  obtain ⟨bands, moves, ckpt, d, i, hsensed⟩ := ((s.popQueue q g).senseStripes_sensedTo r.entry [r.stripe]).frame
  have hstripe : (s.popQueue q g).senseStripe r.entry r.stripe = _ := hsensed
  rw [huse, hstripe]
  refine ⟨?_, ?_, rfl, rfl⟩
  · exact (Tab.get_set_of_rising [] g g _ hweaveWf.sensed).trans (if_pos rfl)
  · refine (Tab.get_set_of_rising [] (q.val * 12 + g) (q.val * 12 + g) _ hweaveWf.queues).trans ((if_pos rfl).trans ?_)
    rw [hqueue, List.tail_cons]

theorem State.useSlot_busy {b : BayNum} {id slot n tag h idx : Nat} {run : Run}
    (hwhat : r.what = .stream b id slot n tag h idx) (hrun : s.run q id = some run) (hbusy : s.groupBusy g = true) :
    FrozenBy s (s.useSlot g) q FC.busyBank 0 := by
  have huse : s.useSlot g = s.busyFreeze q b id idx := by
    rw [State.useSlot_of_owner hservice hcode]
    unfold State.useOwned
    dsimp only
    rw [if_neg (not_or.2 hlive), if_neg (not_not.2 hlent), hqueue]
    dsimp only
    rw [if_pos hbusy, hwhat]
  rw [huse]
  unfold State.busyFreeze
  rw [hrun]
  exact s.freeze_frozenBy q _ _ _ _ _ _ _ _ hlive hinv.1 (by decide) (by decide)

end owned

/-! ### The scrub pass (R636) -/

theorem exec_scrubPass_clock (hup : s.up = true) (hcore : s.coreOn = true) :
    ∃ t, exec .scrubPass s = .next t ∧ t.nv.scrubAt = s.rtc.toNat ∧ t.bays = s.bays ∧ t.quires = s.quires ∧
      t.tiers = s.tiers ∧ t.out = s.out := by
  have hsensed : s.SensedTo (s.nv.bands.foldl (fun s e => if e.2.used = 0 then s else
      s.readBand (e.1 / 16) (e.1 % 16) e.2.used) s) :=
    List.foldlRecOn (motive := fun u => s.SensedTo u) _ _ (.refl s) fun u hu e _ =>
      hu.trans (.ite (.refl u) (u.readBand_sensedTo _ _ _))
  obtain ⟨bands, moves, ckpt, d, i, heq⟩ := hsensed.frame
  have hop : scrubPass s = _ := if_neg (by simp [hup, hcore])
  refine ⟨_, congrArg Host.Outcome.next hop, ?_⟩
  rw [heq]
  exact ⟨rfl, rfl, rfl, rfl, rfl⟩

theorem weaveServesClause : WeaveServesClause := by
  intro s hinv
  refine ⟨exec_weaveSlotStart_clock, ?_, ?_, exec_scrubPass_clock⟩
  · intro q g r l _ hservice hcode hlive hqueue hlent
    exact ⟨State.useSlot_senses hinv hservice hcode hlive hqueue hlent, fun b id slot n tag h idx run hwhat hrun hbusy =>
      State.useSlot_busy hinv hservice hcode hlive hqueue hlent hwhat hrun hbusy⟩
  · intro g q r b id slot n tag h idx rest hcore hsensed hwhat hruns hnodup _ hvoid
    exact ⟨exec_stripeDelivery_good hwhat hinv hcore hsensed hruns hnodup hvoid, fun bad hbad hretries =>
      exec_stripeDelivery_bad hwhat hinv hcore hsensed hruns hnodup hvoid hbad hretries⟩

/-- Settles O34: the weave serves the groups slot by slot, and the aperture answers from the rows it sensed. -/
theorem weaveAndAperture : Obligations.WeaveAndAperture := ⟨weaveServesClause, apertureClause⟩

end Sys2Proof.Machine
end
